-- ==== Sys2Proof/Word.lean ====
section
/-!
DEFINITION. Sys2Proof/Word.lean: bytes, little-endian fields (R15) and bit fields (R13, R15).
Bits of a register word are numbered from the least significant bit, and a field `[msb:lsb]` includes both ends.
-/
namespace Sys2Proof

/-- One byte. -/
abbrev Byte := BitVec 8
/-- A string of bytes, lowest address first. -/
abbrev Bytes := List (BitVec 8)

/-- The field `[hi:lo]` of a number (R15). -/
def bitsOf (w hi lo : Nat) : Nat := (w / 2 ^ lo) % 2 ^ (hi + 1 - lo)

/-- Bit `i` of a number. -/
def bitOf (w i : Nat) : Bool := (w / 2 ^ i) % 2 == 1

/-- A number with bit `i` set or cleared. -/
def setBit (w i : Nat) (b : Bool) : Nat :=
  if bitOf w i then (if b then w else w - 2 ^ i) else (if b then w + 2 ^ i else w)

/-- A truth value as the bit it reads as. -/
def b2n (b : Bool) : Nat := if b then 1 else 0

/-- A number as `n` bytes, little-endian (R15). -/
def toLE (n v : Nat) : Bytes := (List.range n).map fun i => BitVec.ofNat 8 (v / 256 ^ i)

/-- The number that bytes spell, little-endian (R15). -/
def ofLE : Bytes → Nat
  | [] => 0
  | b :: bs => b.toNat + 256 * ofLE bs

/-- `n` zero bytes. -/
def zeroBytes (n : Nat) : Bytes := List.replicate n 0

/-- A count that saturates at `m`. -/
def sat (m n : Nat) : Nat := if n ≤ m then n else m

/-- The ceiling of a quotient. -/
def ceilDiv (a b : Nat) : Nat := (a + b - 1) / b

end Sys2Proof
end

