-- ==== Sys2Proof/Types.lean ====
section
/-!
DEFINITION. Sys2Proof/Types.lean: the kinds of operands that the commands carry, and the parts of the family (R1 to R3).
-/
namespace Sys2Proof

/-- The three parts (R1). -/
inductive Part | aqk2016 | aqk4032 | aqk8064
deriving DecidableEq, Repr

/-- Tiles of a part (R1, R5). -/
def Part.tiles : Part → Nat
  | .aqk2016 => 2
  | .aqk4032 => 4
  | .aqk8064 => 8

/-- Namespaces of a part (R1, R112). -/
def Part.namespaces : Part → Nat
  | .aqk2016 => 2048
  | .aqk4032 => 4096
  | .aqk8064 => 8192

/-- The hardware type code (R3). -/
def Part.hwType : Part → Nat
  | .aqk2016 => 1
  | .aqk4032 => 2
  | .aqk8064 => 4

/-- The ports of a mesh router: four links named by the tile they reach (R20), and the local port. -/
inductive MeshPort | rankNext | rankPrevious | rankPartner | knight | localPort
deriving DecidableEq, Repr

/-- The virtual channels of R24, highest priority first. -/
inductive Vc | urgent | host | background | mgmt
deriving DecidableEq, Repr

/-- The priority classes of R37. -/
inductive PClass | h0 | h1 | h2 | h3 | b1 | b2 | b3 | b4 | b5 | b6 | m
deriving DecidableEq, Repr

/-- The virtual channel that carries the traffic of a class (R24, R37). -/
def PClass.vc : PClass → Vc
  | .h0 => .urgent
  | .h1 | .h2 | .h3 => .host
  | .b1 | .b2 | .b3 | .b4 | .b5 | .b6 => .background
  | .m => .mgmt

/-- What a mesh packet's header names (R23, R37) and the length of its payload. -/
structure MeshPkt where
  src : Nat
  dst : Nat
  cls : PClass
  seq : Nat
  len : Nat
deriving DecidableEq, Repr

def MeshPkt.vc (k : MeshPkt) : Vc := k.cls.vc

/-- A packet of an output and the input it came in by (R25). -/
structure InOut where
  out : MeshPort
  inp : MeshPort
deriving DecidableEq, Repr

/-- The end of a route hold: its destination, and whether the hold has lasted 20 µs (R22). -/
structure HoldEnd where
  dst  : Nat
  late : Bool
deriving DecidableEq, Repr

/-- What a TCP connection request settles: the port, the digests in use and HPDA (R46). -/
structure TcpReq where
  dport : Nat
  hdgst : Bool
  ddgst : Bool
  hpda  : Nat
deriving DecidableEq, Repr

/-- What an RDMA connection request names: the interface and the path MTU (R47). -/
structure RdmaReq where
  iface   : Nat
  pathMtu : Nat
deriving DecidableEq, Repr

/-- The sizes, less 1, and the places of a PCIe controller's admin queues (R51). -/
structure AdminRings where
  asqs : Nat
  acqs : Nat
  asq  : Nat
  acq  : Nat
deriving DecidableEq, Repr

/-- The size, less 1, and the place of a queue in host memory (R66). -/
structure RingAt where
  size : Nat
  base : Nat
deriving DecidableEq, Repr

/-- A record of the map band as it was read: its header and its decompressed body (R149). -/
structure ReadRecord where
  header : Bytes
  body   : Bytes
deriving DecidableEq, Repr

/-- A record of the map band, its place and its length in grains (R155). -/
structure RecordAt where
  index : Nat
  addr  : Nat
  len   : Nat
deriving DecidableEq, Repr

/-- A directory record as it was read (R163). -/
structure ReadDir where
  index : Nat
  got   : ReadRecord
deriving DecidableEq, Repr

/-- The end of staging: the extent's write sequence, and whether it was staged (R35). -/
structure StagedExt where
  seq : Nat
  ok  : Bool
deriving DecidableEq, Repr

/-- A tile's report at the end of its dump: its copy directory and the time it took in µs (R312, R321). -/
structure DumpDone where
  dir : Nat
  us  : Nat
deriving DecidableEq, Repr

/-- What the meters have measured in the running epoch: energy in mJ and the peak in mW (R123). -/
structure Measured where
  energy : Nat
  peak   : Nat
deriving DecidableEq, Repr

/-- The roles whose loss a command can survive by a reissued step (R29, R31). -/
inductive Role | owner | die | member | mirror
deriving DecidableEq, Repr

/-- What an I/O capsule or submission entry asks for (R53, R74). -/
inductive IoOp
  | read | write | flush | compare | verify
  | writeZeroes (deac : Bool)
  | datasetManagement (deallocate : Bool) (ranges : List (Nat × Nat))
  | other
  | admin (len : Nat)
deriving DecidableEq, Repr

/-- The transport a queue is carried on. -/
inductive Transport | tcp | rdma | pcie
deriving DecidableEq, Repr

/-- A command as it reaches the queue engine: the fields that R46, R47, R51, R53, R64, R66 and R74 speak of.
`sglLen` is the total length of its SGL, `descs` the number of its data block descriptors, `bitBucket` that one of another
kind is a bit bucket, `inCap` the in-capsule data with the length its SGL gives it, `bytes` the capsule's own length,
`invKey` the key that its completion invalidates, `ce` that it arrived with a congestion mark. An admin command's operation
carries the length of data that it needs. -/
structure Capsule where
  cid     : Nat
  op      : IoOp
  nsid    : Nat
  slba    : Nat
  nlb     : Nat
  sglLen  : Nat
  descs   : Nat
  bitBucket : Bool
  invKey  : Option Nat
  ce      : Bool
  inCap   : Bytes
  inCapLen : Nat
  bytes   : Nat
  hdgstOk : Bool
  ddgstOk : Bool
deriving DecidableEq, Repr

/-- The issuer of an admin command: a fetched command of a controller, by the queue engine's number for it, the
command descriptor that runs on the board port's command ring (R100, R474), or a connection that no controller's queue
has yet (R48, R53). -/
inductive Adm
  | host (cmd : Nat)
  | ring
  | conn (id : Nat)
deriving DecidableEq, Repr

/-- How a read of host memory ends (R64). -/
inductive HostRead
  | data (b : Bytes)
  | unsupportedRequest | completerAbort | poisoned
deriving DecidableEq, Repr

/-- The fields of Fabrics Connect (R56, R57). -/
structure ConnectData where
  cid     : Nat
  hostNqn : Bytes
  qid     : Nat
  sqsize  : Nat
  cntlid  : Nat
  kato    : Nat
deriving DecidableEq, Repr

/-- The fields of CC that the device acts on (R71, R94, R95). -/
structure CcFields where
  en  : Bool
  ams : Nat
  shn : Nat
deriving DecidableEq, Repr

/-- The host-supplied namespace data structure at create (R112). -/
structure NsCreate where
  nsze : Nat
  ncap : Nat
  flbas : Nat
  anagrpid : Nat
  endgid : Nat
  compMode : Nat
  ownerTenant : Nat
deriving DecidableEq, Repr

/-- The streams of R175. -/
inductive Stream | hostSlc | hostQlc | promote | relocate
deriving DecidableEq, Repr

/-- What a map update comes from: a region's part of a command, or one region of a relocated extent, named by the
address it now has (R30, R137, R201). -/
inductive MapSrc
  | command (cmd region : Nat)
  | relocate (addr : Nat)
deriving DecidableEq, Repr

/-- A row that a restart has read back (R245): the data units, in the order of their members. -/
structure ReadRow where
  sg    : Nat
  band  : Nat
  row   : Nat
  units : List Bytes
deriving DecidableEq, Repr

/-- A data unit that the verify test has reconstructed from the other members, and has read (R277). -/
structure VerifyUnit where
  band   : Nat
  row    : Nat
  member : Nat
  recon  : Bytes
  read   : Bytes
deriving DecidableEq, Repr

/-- The worst codeword of a patrolled page (R259): the bits a hard decode corrected, a re-read, a soft decode, an
uncorrectable or erased codeword and whether its data was reconstructed. -/
inductive PatrolWorst
  | hard (corrected : Nat)
  | retried
  | soft
  | uncorrectable (reconstructed : Bool)
deriving DecidableEq, Repr
/-- A job descriptor of the compression engine (R340), with the bytes its input source delivers (R346). -/
structure CmpJob where
  client : Nat
  cls    : Nat
  flags  : Nat
  slot   : Nat
  inHandle : Nat
  inLen  : Nat
  outHandle : Nat
  outMax : Nat
  expCrc : Nat
  expLen : Nat
  source : Nat
deriving DecidableEq, Repr

/-- The statuses of a compression job (R346). -/
inductive CmpStatus
  | ok | noGain | truncated | badStream | crcFail | lenMismatch | outFull | badHandle | busy | noStream | badJob
deriving DecidableEq, Repr

/-- What a sender hands to an engine, and whether the engine is free as it comes (R87, R347). -/
structure Submitted (α : Type) where
  job  : α
  free : Bool
deriving DecidableEq, Repr

/-- A job descriptor of the encryption engine (R359). -/
structure CryJob where
  cls    : Nat
  slot   : Nat
  keyGen : Nat
  unit0  : Nat
  writeSeq : Nat
  nsid   : Nat
  inHandle : Nat
  outHandle : Nat
  length : Nat
deriving DecidableEq, Repr

/-- The key of an HMAC context (R362): none for a hash, K_mac, or one supplied at open. -/
inductive HmacKey | none | mac | supplied (k : Bytes)
deriving DecidableEq, Repr

/-- A DRAM access (R373, R384): its place on the channel and the class of the request. -/
structure DramAcc where
  subch  : Nat
  rank   : Nat
  group  : Nat
  bank   : Nat
  row    : Nat
  column : Nat
  cls    : Nat
deriving DecidableEq, Repr

/-- What a device's mode register 4 reports (R380, R382). -/
inductive DramTemp | normal | doubled | beyond
deriving DecidableEq, Repr

/-- The statuses of an encryption job (R359). -/
inductive CryStatus | ok | keyAbsent | keyStale | truncated | badHandle | badJob
deriving DecidableEq, Repr

/-- What the digest engine and the verifier answer (R362 to R367): a context granted, a refusal, a comparison (equal,
no_expected, overlong, truncated), a verification. -/
inductive DigAnswer
  | granted (ctx : Nat)
  | busy | badReq | notOwner | notBound
  | compared (equal noExpected overlong truncated : Bool)
  | verified (pass : Bool)
deriving DecidableEq, Repr

end Sys2Proof
end

