-- ==== Sys2Proof/Syntax.lean ====
section
/-!
DEFINITION. Sys2Proof/Syntax.lean: the commands of spec/opcode_table.json with their operands, one constructor per row.
A command is an event at a port, pin, queue, ring or timer of the device, or a step that one of its engines reports as done.
What the device cannot know by itself (the bytes that arrive, whether a medium answered, a measured value) is an operand.
-/
namespace Sys2Proof

/-- The commands of the device, one for each row of the opcode table. -/
inductive Instr
  -- Host ports and transports, queues (R42 to R99)
  | tcpConnectionRequest (tile port iface : Nat) (req : TcpReq)
  | rdmaConnectionRequest (tile port : Nat) (req : RdmaReq)
  | capsuleReceived (conn : Nat) (cap : Capsule)
  | h2cdataPdu (conn cmd offset : Nat) (data : Bytes) (hdgstOk ddgstOk : Bool)
  | rdmaReadCompletion (cmd : Nat) (ok : Bool) (data : Bytes)
  | hostMemoryReadCompletion (cmd : Nat) (r : HostRead)
  | submissionQueueTailDoorbell (cntlid sqid value : Nat)
  | completionQueueHeadDoorbell (cntlid cqid value : Nat)
  | commandFetch (tile : Nat) (entries : List (Nat × Nat × List Capsule))
  | heldCommandAdmit (tile nsid : Nat)
  | rateInterval
  | urgentBudgetInterval
  | interruptAggregationTime (cntlid vector : Nat)
  | controllerEnable (endpoint function : Nat) (adm : AdminRings) (cc : CcFields)
  | controllerReset (cntlid : Nat)
  | shutdown (cntlid : Nat) (abrupt : Bool)
  | functionLevelReset (endpoint function : Nat)
  | conventionalReset (endpoint : Nat)
  | fabricsConnect (conn : Nat) (data : ConnectData)
  | propertyGet (a : Adm) (offset : Nat)
  | propertySet (a : Adm) (offset value : Nat)
  | disconnect (a : Adm) (qid : Nat)
  | keepAlive (a : Adm)
  | keepAliveExpiry (cntlid : Nat)
  | createIoSubmissionQueue (a : Adm) (sqid : Nat) (ring : RingAt) (cqid qprio : Nat)
  | createIoCompletionQueue (a : Adm) (cqid : Nat) (ring : RingAt) (vector : Nat) (ien : Bool)
  | deleteIoSubmissionQueue (a : Adm) (sqid : Nat)
  | deleteIoCompletionQueue (a : Adm) (cqid : Nat)
  | asynchronousEventRequest (a : Adm)
  | abort (a : Adm) (sqid cid : Nat)
  | queueThaw (a : Adm) (sqid : Nat)
  | identify (a : Adm) (cns nsid : Nat)
  | setFeaturesNumberOfQueues (a : Adm) (nsqr ncqr : Nat)
  | setFeaturesArbitration (a : Adm) (burst lpw mpw hpw : Nat)
  | setFeaturesInterruptCoalescing (a : Adm) (fid cdw11 : Nat)
  | setFeaturesOrderingMode (a : Adm) (cdw11 : Nat)
  | setFeaturesQueueClass (a : Adm) (cdw11 : Nat)
  | setFeaturesQueueFreezeMode (a : Adm) (cdw11 : Nat)
  | setFeaturesSecureDeallocation (a : Adm) (nsid cdw11 : Nat)
  | getFeatures (a : Adm) (fid cdw11 : Nat)
  | getFeaturesOrderingMode (a : Adm)
  | getFeaturesQueueClass (a : Adm) (sqid : Nat)
  | getFeaturesQueueFreezeMode (a : Adm) (sqid : Nat)
  | getFeaturesSecureDeallocation (a : Adm) (nsid : Nat)
  -- Namespaces, tenants (R100 to R117)
  | namespaceCreate (a : Adm) (r : NsCreate)
  | namespaceDelete (a : Adm) (nsid : Nat)
  | namespaceDeleteDrain (nsid : Nat)
  | namespaceUnmapEnd (nsid : Nat)
  | namespaceAttach (a : Adm) (nsid : Nat) (byTenant : Bool) (list : List Nat)
  | namespaceDetach (a : Adm) (nsid : Nat) (byTenant : Bool) (list : List Nat)
  | detachDrain (nsid : Nat)
  | formatNvm (a : Adm) (nsid ses lbaf : Nat)
  | sanitize (a : Adm) (action : Nat)
  | keyLoad (a : Adm) (nsid : Nat) (data : Bytes)
  | keyLoadConfirm (nsid tile : Nat) (ok : Bool)
  | keySlotClear (nsid : Nat) (readback : List Bool)
  | namespaceLimits (a : Adm) (nsid : Nat) (data : Bytes)
  | tenantSet (a : Adm) (data : Bytes)
  | tenantGet (a : Adm) (id : Nat)
  | tenantDelete (a : Adm) (id : Nat)
  -- The board port (R466 to R494)
  | bptCmdTail (value : Nat)
  | bptRspHead (value : Nat)
  | bptMtrHead (value : Nat)
  | bptEvtHead (value : Nat)
  | descriptorFetch (desc : Bytes) (dmaOk : Bool)
  | ringCoalesceTimer (k : Nat)
  | configCommit
  | providerSet (data : Bytes)
  | providerGet
  | netifSet (data : Bytes)
  | netifGet (cdw10 : Nat)
  | identityGet
  | ringEnable (k value : Nat)
  | boardPortReset
  | commit
  | revert
  | commitValidated
  | commitApplied
  | miCommandHealth
  | miCommandStatic
  -- The map (R30, R128 to R165)
  | mapLookup (cmd lba : Nat)
  | mapUpdate (src : MapSrc)
  | mapFetchDone (nsid region : Nat) (got : ReadRecord)
  | writeBackStart (slot : Option Nat) (nsid : Nat) (rec_ : RecordAt)
  | writeBackProgrammed (slot : Option Nat) (nsid index addr len : Nat)
  | journalEntryMirrored (cmd region : Nat)
  | journalQuarterTimer (slot : Nat)
  | journalSegmentProgrammed (slot : Nat)
  | mapCheckpoint (slot : Nat)
  | forwardReceived (cmd : Nat)
  | forwardConfirm (cmd : Nat)
  | forwardTimeout (cmd : Nat)
  | adoptedRecordLoad (slot nsid : Nat) (dir : ReadDir)
  | slotHandBack (slot nsid index : Nat)
  | regionCoalesce (nsid region : Nat)
  | mapReplayDone (slot : Nat)
  -- The write path (R166 to R191)
  | extentStaged (ext : StagedExt)
  | mirrorCopyReceived (seq : Nat)
  | mirrorConfirm (seq : Nat)
  | stageConfirm (seq : Nat)
  | mapConfirm (cmd region : Nat) (fromMirror : Bool)
  | reservationRequest (tile sg : Nat) (stream : Stream) (blank : List Nat)
  | unitReturn (tile sg : Nat) (stream : Stream) (member : Nat)
  | rowTimerExpiry (sg : Nat) (stream : Stream)
  | parityUnitReceived (sg band row member : Nat) (data : Bytes)
  | rowProgramDone (sg band row : Nat)
  | programFailure (sg band row member : Nat)
  | seqPadTimer (sg : Nat) (stream : Stream)
  | writeSequenceLease (tile : Nat)
  | headroomLeaseRequest (tile nsid : Nat)
  | slcBufferRecompute
  | promotionStart (sg : Nat)
  -- Reclaim and deallocation (R192 to R228)
  | reclaimRescore
  | livenessQuery (sg band addr : Nat)
  | relocationCommitted (sg band : Nat)
  | eraseDrainEnd (sg band : Nat)
  | nandEraseDone (sg band member : Nat)
  | eraseFailure (sg band member : Nat) (blank : List Nat)
  | censusRegion (nsid region : Nat)
  | summaryRebuildDone (tile : Nat)
  | sweepRowsProgrammed (id : Nat)
  | sweepEnd (id : Nat)
  | sweepLogExpiry (id : Nat)
  -- NAND channels, dies and codewords (R229 to R262, R84 to R86)
  | medEnable (tile value : Nat)
  | channelTrainingStep (ch : Nat) (ok : Bool) (found unexpected : List Nat) (bad : List (Nat × Nat))
  | trainingBurst (ch margin : Nat)
  | trackingBurstDue (ch load margin : Nat)
  | chRateDown (ch : Nat) (trained : Bool)
  | chRateUp (ch : Nat) (holds : Bool)
  | nandReadDone (op : Nat)
  | nandProgramDone (sg band row member : Nat) (final : Bool)
  | nandSuspendDone (die us : Nat)
  | suspendWaitExpiry (op : Nat)
  | ldpcDecodeDone (op : Nat) (words : List (Bytes × Option Bytes)) (levels : List (Nat × Nat × Nat))
  | dieReadyTimeout (die : Nat)
  | patrolRead (die block page : Nat) (worst : PatrolWorst)
  | disturbLimit (die block : Nat)
  | readLevelSave (tile : Nat)
  -- Parity and rebuild (R263 to R296)
  | fingerprintReport (sg band row member fpP fpQ : Nat)
  | parityMismatchLocate (sg band row : Nat) (sp sq : Bytes)
  | rowStoreExpiry (sg band row : Nat)
  | reconstructionDone (op : Nat) (lostCodewords : List Nat) (data : Bytes)
  | lostRangeSearch (sg band row member : Nat)
  | healBandStart (sg : Nat)
  | substDone (sg band member : Nat)
  | verifyStart (tile value : Nat)
  | verifyEnd (tile : Nat) (units : List VerifyUnit)
  | sjTailTimer (sg : Nat)
  | sjSnapshot (sg : Nat)
  | sjCopyLost (sg copy : Nat)
  | sjCopyRestored (sg copy : Nat)
  -- The buffer pool manager (R323 to R337)
  | bpmEnable (tile value : Nat)
  | bufferAllocate (tile len : Nat) (cls : PClass) (sramOk : Bool)
  | bufferFree (tile handle : Nat)
  | poolReset (tile value : Nat)
  | poolRebuildDone (tile pool : Nat)
  -- The compression engine (R338 to R349)
  | cmpEnable (tile value : Nat)
  | compressJob (tile : Nat) (j : Submitted CmpJob)
  | decompressJob (tile : Nat) (j : Submitted CmpJob)
  | crcOnlyJob (tile : Nat) (j : Submitted CmpJob)
  | streamSlotTimeout (tile slot : Nat)
  -- Keys, encryption, digests and signatures (R350 to R369)
  | cryEnable (tile value failedLanes : Nat)
  | encryptJob (tile : Nat) (j : Submitted CryJob) (laneFault : Option Nat)
  | decryptJob (tile : Nat) (j : Submitted CryJob) (laneFault : Option Nat)
  | digestDirectOpen (tile owner alg : Nat) (key : HmacKey) (expected : Option Bytes)
  | digestSnoopOpen (tile owner source len alg : Nat) (key : HmacKey) (expected : Option Bytes)
  | digestData (tile ctx owner : Nat) (data : Bytes)
  | snoopStreamEnd (tile ctx : Nat) (data : Bytes)
  | digestFinish (tile ctx owner : Nat) (expected : Option Bytes)
  | digestRelease (tile ctx : Nat)
  | signatureVerifyRequest (tile owner key : Nat) (pub sig : Bytes)
  | signatureVerifyDone (tile : Nat)
  -- The DRAM subsystem (R370 to R388)
  | drcEnable (tile value : Nat)
  | dramStartStep (tile : Nat) (ok : Bool)
  | dramRead (tile : Nat) (acc : Submitted DramAcc) (beats : List Nat)
  | dramAlert (tile : Nat) (acc : DramAcc) (matched again : Bool)
  | refreshDue (tile rank : Nat) (inHand : Bool)
  | tempPoll (tile : Nat) (reports : List DramTemp)
  | scrub (tile : Nat) (acc : DramAcc) (beats : List Nat)
  | rowIdleClose (tile subch rank group bank : Nat)
  | rankPowerDown (tile rank : Nat)
  | retrainStep (tile rank wrMargin rdMargin : Nat)
  | dramMarginLow (tile rank : Nat)
  | captureStatusRead (tile : Nat)
  | drcRestart (tile value : Nat)
  -- Log pages (R48, R91, R126, R225, R288, R454, R455, R495 to R500)
  | getLogPageErrorInformation (a : Adm)
  | getLogPageSmartHealth (a : Adm) (nsid : Nat)
  | getLogPageEnduranceGroup (a : Adm) (egid : Nat)
  | getLogPageFirmwareSlot (a : Adm)
  | getLogPageDiscovery (conn : Nat)
  | getLogPageFrozenQueues (a : Adm)
  | getLogPageTenantService (a : Adm)
  | getLogPageSecureDeallocProgress (a : Adm)
  | getLogPageLostRanges (a : Adm) (rae : Bool)
  | getLogPageFirmwareStaging (a : Adm)
  | getLogPageDeviceHealth (a : Adm)
  -- I/O commands, by the queue engine's number of the command (R30, R35, R93, R216 to R224)
  | read (cmd : Nat)
  | write (cmd : Nat)
  | flush (cmd : Nat)
  | compare (cmd : Nat)
  | writeZeroes (cmd : Nat)
  | verify (cmd : Nat)
  | datasetManagement (cmd : Nat)
  | stepReissue (cmd : Nat)
  | commandInterruptTimeout (cmd : Nat)
  -- Firmware and boot (R438 to R465)
  | firmwareImageDownload (a : Adm) (offset : Nat) (data : Bytes)
  | pieceWriteDone (piece : Nat) (ok : Bool)
  | digestCheckDone
  | firmwareCommitRecovery (a : Adm) (ca fs : Nat)
  | firmwareCommitNextStart (a : Adm) (fs : Nat)
  | firmwareCommitImmediate (a : Adm) (fs : Nat)
  | activationStart (residentOk : Bool)
  | activationQuiescent
  | activationEnd
  | firmwareConfirm (a : Adm) (imageId : Nat)
  | installStepDone (ok : Bool)
  | boot (readFail : List Nat) (tileFail : List Nat)
  | bootPrimaryTimeout (readFail : List Nat) (tileFail : List Nat)
  | cflashOperationDone (ok : Bool) (us : Nat)
  | cflashIdleOff
  | stageClear (value : Nat)
  -- Ports and the mesh (R20 to R28, R42 to R63)
  | portDrainEnd (tile : Nat)
  | laneRestart (tile : Nat)
  | hostLinkUp (tile port rate width : Nat) (narrow : Bool)
  | hostLinkDown (tile port : Nat)
  | meshPacketReceived (tile : Nat) (inp : MeshPort) (pkt : MeshPkt) (crcOk : Bool)
  | meshPacketSent (tile : Nat) (out : MeshPort)
  | mgmtEscape (tile : Nat) (at_ : InOut)
  | meshLinkDown (tile : Nat) (link : MeshPort) (trainingLost : Bool)
  | meshLinkRetrain (tile : Nat) (link : MeshPort) (ok : Bool)
  | routeHoldEnd (src : Nat) (hold : HoldEnd)
  | transportConnectionClosed (conn : Nat)
  | neighbourResolutionRequest (tile port vlan : Nat) (target : Bytes)
  | echoRequest (tile port vlan : Nat) (target data : Bytes)
  | priorityPauseFrame (tile port : Nat) (prio : Option Nat) (quanta : Nat)
  -- Power loss protection (R297 to R322)
  | powerFailDeclared
  | pfWarn (pin : Nat)
  | sagEnd
  | budgetRecompute (low now : Nat)
  | bankAbsent
  | dischargeTestStart
  | testInterval
  | hsenseRise
  | testCharged (pin : Nat)
  | testEsrSample (pin : Nat)
  | testDischargeEnd (us : Nat)
  | testTimeout
  | testNow
  | bankRelease
  | bankSafe
  | prepareOff
  | offReady
  | dumpTileReport (tile : Nat) (done : DumpDone)
  | restartRecordTimeout (us : Nat)
  | postDumpRestart
  | holdupRelease
  | restart (kept : List ReadRow) (storeOk : Bool)
  | dumpRelease
  -- Temperature, clocks and power (R389 to R416)
  | sensorConversion (tile sensor : Nat) (reading : Int)
  | sensorFault (tile sensor cond : Nat)
  | sensorRestored (tile sensor : Nat)
  | throttleStep (tile : Nat)
  | throttleFall (tile : Nat)
  | rateWindow (tile : Nat)
  | compensationStep (tile : Nat)
  | oscillatorCalibration (ppm : Int)
  | refclkLost (ref : Nat)
  | refclkRevert
  | refclkBothLost
  | refclkReturn (ref : Nat)
  | ethrefLost
  | ethrefReturn
  | lightEntry (tile : Nat)
  | tileWake (tile : Nat)
  | deepEntry
  | deepTimerWake (work : Bool)
  | deepWake
  | avsEnable (value : Nat)
  | avsStep (rail : Nat)
  | avsMonitorLow (rail : Nat)
  | pmbusFault (rail : Nat)
  | pmbusAlert (words : List (Nat × Nat))
  | powerScaling (measured raw : Nat)
  | isenseFault (cond : Nat)
  | isenseRestored
  | powerLimit (avg : Nat) (order : List Nat)
  | operatingMinute
  -- The chess clock (R118 to R127)
  | epochEnd (energy peak : Nat)
  | meteringCheckpoint (m : Measured)
  | boardTimeWrite (hi : Nat)
  -- The event recorder (R417 to R437)
  | eventRaised (storeOk : Bool)
  | tokenRefill
  | archiveAgeTimer
  | archiveProgrammed
  | evrCursorWrite (seq : Nat)
  | windowData7Read
  | bandFetchDone
  -- Registers (R12 to R14, R525)
  | qeEnable (tile value : Nat)
  | mapEnable (tile value : Nat)
  | plcEnable (tile value : Nat)
  | rclEnable (tile value : Nat)
  | redEnable (tile value : Nat)
  | plpEnable (value : Nat)
  | counterLowRead (offset : Nat)
  | medDescDataAccess (tile : Nat) (wr : Option Nat)
  | ldpcBaseDataRead (tile : Nat)
  | digFuseDataRead (tile : Nat)
  | thmHistDataRead (tile : Nat)
  | thmSensorRead (tile : Nat)
  | fwuMapDataRead
  | registerWrite (offset value : Nat)
  -- Management, power pins and resets (R32, R501 to R503, R513 to R516)
  | heartbeat (tile : Nat)
  | heartbeatMissing (tile : Nat)
  | mgmtRestartTimeout (tile : Nat)
  | fenceRequest (by_ tile : Nat)
  | vauxRise
  | vauxLow
  | vauxReturn
  | vauxLoss
  | pwrOkLow
  | sysRstLLow
  | sysRstLRelease (power : Bool)
  | bportPerstLRelease
  | formatUnmapEnd (nsid : Nat)
  | resumeMinExpiry (die : Nat)
deriving DecidableEq, Repr

end Sys2Proof
end

