-- ==== Sys2Proof/Config.lean ====
section
/-!
DEFINITION. Sys2Proof/Config.lean: what an implementation fixes, and the free values: what the manual leaves open and the device
computes or reports all the same. A free value has no body here, so nothing can be proved of what it is.
-/
namespace Sys2Proof.Config

/-- What the device reports of its largest submission queue: MQES + 1 (R56, R66). -/
def maxQueueEntries : Nat := 1024

/-- Free value: the raw DEFLATE bytes that a compress pipe adds to its output for input `data` after the input `before`; the
first argument says that the fixed Huffman tables are used, the second that the stream ends. The manual fixes the format and
not the encoder (R338, R341). -/
opaque deflate : Bool → Bool → Bytes → Bytes → Bytes

/-- Free value: the bytes that a discarded job leaves in its output buffers (R346), by the number of the job among those and the
place of the byte. -/
opaque discardedByte : Nat → Nat → Byte

/-- Free value: whether the compressor coded every block of a stream with the static tables though it was free to choose (R338). -/
opaque staticUsed : Bytes → Bytes → Bool

/-- The length of one block run compressed as a whole (R168, R169). -/
def deflateLen (static : Bool) (b : Bytes) : Nat := (deflate static true [] b).length

/-- Free value: the arbitration burst that a controller starts with (R78 states no value at reset). -/
opaque resetArbBurst : Nat

/-- Free value: the bits of the CAP property that the manual does not state (R51). -/
opaque capOpenBits : Nat

/-- Free value: what Get Features answers for an NVM Express feature whose value the manual does not state, by feature identifier
and CDW11. -/
opaque nvmeFeature : Nat → Nat → Nat

/-- Free value: the fields of Identify data that the manual does not state, by CNS and byte. -/
opaque identifyOpen : Nat → Nat → Nat

/-- Free value: the base matrix of the LDPC code, by row × 288 + column: the shift of a circulant, or none. The manual fixes its size,
its weights and its structure, and not its entries (R253, R262). -/
opaque ldpcBase : Nat → Option Nat

/-- Free value: the level that the board drives on an input ball GPIOp, by the ball and the time (R487). -/
opaque gpioInput : Nat → Nat → Bool

/-- Free value: the phase in ms of the blinking of a LOCATE ball (R487 fixes its frequency alone). -/
opaque locatePhase : Nat

/-- Free value: the packets of one virtual channel that an input of a router buffers beyond the first (R24 gives each channel its own
buffers and credits, and not their number). -/
opaque vcBuffer : Nat

/-- Free value: how many capsules of one priority wait at a port when the device sends a priority pause frame (R44 says that it generates
them, and not when). -/
opaque pfcThreshold : Nat

/-- Free value: the low 16 bits of the polynomial of GF(2^16) that the DRAM code uses; R373 names the field and not its polynomial. -/
opaque dramField : Nat

/-- Free value: the place of a symbol in the Reed–Solomon code, an element of the field, by the symbol's index: 0 to 31 the data, 32 to
39 the check symbols, 40 to 42 the address. R373 fixes the code's lengths and not its roots. -/
opaque dramPlace : Nat → Nat

/-- Free value: the number of stored symbols in error that the capture of an uncorrectable burst reports, by its syndrome, where the
decoder cannot place them (R388). -/
opaque dramBad : List Nat → Nat

/-- Free value: the bytes of a record of a config store, by the store's format version and the kind of record. R457 leaves the formats to
the firmware. -/
opaque recordLen : Nat → Nat → Nat

/-- Free value: the spare bytes of a NAND page beyond the 18,432 that its codewords fill (R229 gives the least size of the spare). -/
opaque pageSpare : Nat

/-- Free value: the grain address at which the device places a map-band record of a type, where no command gives it: by type, slot and
number (R292, R314). -/
opaque recordAt : Nat → Nat → Nat → Nat

end Sys2Proof.Config
end

