-- ==== Sys2Proof/Machine/Codes.lean ====
section
/-!
DEFINITION. Sys2Proof/Machine/Codes.lean: CRC32C (R129), CRC-8 (R330), CRC-64 (R273), and the field of R267.
-/
namespace Sys2Proof.Machine
open Sys2Proof

/-! ### CRCs -/

/-- One bit of a reflected 32-bit CRC. -/
def crcBitR (poly c : Nat) : Nat := if c % 2 == 1 then Nat.xor (c / 2) poly else c / 2
/-- Eight steps. -/
def crcByteR (poly c : Nat) (b : Byte) : Nat :=
  crcBitR poly (crcBitR poly (crcBitR poly (crcBitR poly (crcBitR poly (crcBitR poly (crcBitR poly (crcBitR poly
    (Nat.xor c b.toNat))))))))
/-- CRC32C: the Castagnoli polynomial, reflected, initial value and final XOR all ones (R129). -/
def crc32c (bs : Bytes) : Nat := Nat.xor (bs.foldl (crcByteR 0x82F63B78) 0xFFFFFFFF) 0xFFFFFFFF

/-- One bit of a CRC of `n` bits, most significant bit first. -/
def crcBitL (n poly c : Nat) : Nat :=
  if 2 ^ (n - 1) ≤ c then Nat.xor (c * 2 % 2 ^ n) poly else c * 2
def crcByteL (n poly c : Nat) (b : Byte) : Nat :=
  crcBitL n poly (crcBitL n poly (crcBitL n poly (crcBitL n poly (crcBitL n poly (crcBitL n poly (crcBitL n poly
    (crcBitL n poly (Nat.xor c (b.toNat * 2 ^ (n - 8))))))))))
/-- CRC-8 with polynomial 0x07 and initial value 0 (R330). -/
def crc8 (bs : Bytes) : Byte := BitVec.ofNat 8 (bs.foldl (crcByteL 8 0x07) 0)
/-- CRC-64 with the polynomial of ECMA-182, initial value 0 and no final XOR (R273). -/
def crc64 (bs : Bytes) : Nat := bs.foldl (crcByteL 64 0x42F0E1EBA9EA3693) 0

/-! ### GF(2^8) with the polynomial 0x11D (R267) -/

/-- The product with g = 2. -/
def gfDouble (a : Byte) : Byte := if bitOf a.toNat 7 then (a <<< 1) ^^^ 0x1D else a <<< 1
/-- The product with g^m. -/
def gfShift : Nat → Byte → Byte
  | 0, a => a
  | m + 1, a => gfDouble (gfShift m a)
/-- g^m. -/
def gfPow (m : Nat) : Byte := gfShift m 1
def gfMul (a b : Byte) : Byte :=
  (List.range 8).foldl (fun acc i => if bitOf a.toNat i then acc ^^^ gfShift i b else acc) 0

/-- The XOR of two strings; the shorter is extended with zeros. -/
def xorBytes : Bytes → Bytes → Bytes
  | [], bs => bs
  | as, [] => as
  | a :: as, b :: bs => (a ^^^ b) :: xorBytes as bs
/-- A string scaled by a field element. -/
def scaleBytes (k : Byte) (bs : Bytes) : Bytes := bs.map (gfMul k)

end Sys2Proof.Machine
end

