-- ==== Sys2Proof/Machine/Names.lean ====
section
/-!
DEFINITION. Sys2Proof/Machine/Names.lean: the event codes of R422 with their severities, and the completion statuses that the
manual names, with the codes that the NVM Express specifications give them.
-/
namespace Sys2Proof.Machine
open Sys2Proof

/-- The defined event codes (R422). -/
inductive Ev
  | progFail | blockRetired | bandRetired | dieUnexpected | chRateDown | chRateUp | chFail | suspendSlow | mediaDrift
  | dieFail | mediaMargin | patrolUncorr | stalemateEnter | stalemateExit | mapMismatch | mapFetchFault | mapBandHigh
  | mapAdopt | memberLost | memberRejoin | groupExposed | rebuildDone | rebuildStalled | parityMismatch | sjCopyLost
  | sjCopyRestored | lostRegionFull | mirrorResync | meshLinkDown | meshLinkUp | pfWarn | isenseFault | ackThrottle
  | writeThroughEnter | writeThroughExit | holdupTestPass | holdupTestFail | dumpIncomplete | dumpReleased
  | bankLostUnsafe | pmbusFault | pmbusAlert | powerLimit | refclkSwitch | ethrefLost | refclkBothLost | thermalWarn
  | thermalThrottle | thermalCritical | sensorFault | sensorRestored | dramRateLow | dramCeRepeat | dramOvertemp
  | dramMargin | dramFreeze | dramRestart | dramRestartFail | portReconfig | keyReject | poolCorrupt | bpmBadFree
  | poolReset | cmpSlotExpired | cryZeroiseFail | cryLaneFault | crySelftestFail | bootSlotB | bootRecovery
  | fwPieceReject | fwManifestRefused | fwActivated | fwConfirmed | fwFallback | mgmtTakeover | logStoreFault
  | logStoreRestored | archiveFault | cfgReject
deriving DecidableEq, Repr

/-- The code of an event (R422). -/
def Ev.code : Ev → Nat
  | .progFail => 0x1001
  | .blockRetired => 0x1002
  | .bandRetired => 0x1003
  | .dieUnexpected => 0x1004
  | .chRateDown => 0x1005
  | .chRateUp => 0x1006
  | .chFail => 0x1007
  | .suspendSlow => 0x1008
  | .mediaDrift => 0x1009
  | .dieFail => 0x100A
  | .mediaMargin => 0x100B
  | .patrolUncorr => 0x100C
  | .stalemateEnter => 0x100D
  | .stalemateExit => 0x100E
  | .mapMismatch => 0x100F
  | .mapFetchFault => 0x1010
  | .mapBandHigh => 0x1011
  | .mapAdopt => 0x1012
  | .memberLost => 0x2001
  | .memberRejoin => 0x2002
  | .groupExposed => 0x2003
  | .rebuildDone => 0x2004
  | .rebuildStalled => 0x2005
  | .parityMismatch => 0x2006
  | .sjCopyLost => 0x2007
  | .sjCopyRestored => 0x2008
  | .lostRegionFull => 0x2009
  | .mirrorResync => 0x200A
  | .meshLinkDown => 0x200B
  | .meshLinkUp => 0x200C
  | .pfWarn => 0x3001
  | .isenseFault => 0x3002
  | .ackThrottle => 0x3003
  | .writeThroughEnter => 0x3004
  | .writeThroughExit => 0x3005
  | .holdupTestPass => 0x3006
  | .holdupTestFail => 0x3007
  | .dumpIncomplete => 0x3008
  | .dumpReleased => 0x3009
  | .bankLostUnsafe => 0x300A
  | .pmbusFault => 0x300B
  | .pmbusAlert => 0x300C
  | .powerLimit => 0x300D
  | .refclkSwitch => 0x300E
  | .ethrefLost => 0x300F
  | .refclkBothLost => 0x3010
  | .thermalWarn => 0x4001
  | .thermalThrottle => 0x4002
  | .thermalCritical => 0x4003
  | .sensorFault => 0x4004
  | .sensorRestored => 0x4005
  | .dramRateLow => 0x5001
  | .dramCeRepeat => 0x5002
  | .dramOvertemp => 0x5003
  | .dramMargin => 0x5004
  | .dramFreeze => 0x5005
  | .dramRestart => 0x5006
  | .dramRestartFail => 0x5007
  | .portReconfig => 0x6001
  | .keyReject => 0x6002
  | .poolCorrupt => 0x6003
  | .bpmBadFree => 0x6004
  | .poolReset => 0x6005
  | .cmpSlotExpired => 0x6006
  | .cryZeroiseFail => 0x6007
  | .cryLaneFault => 0x6008
  | .crySelftestFail => 0x6009
  | .bootSlotB => 0x7001
  | .bootRecovery => 0x7002
  | .fwPieceReject => 0x7003
  | .fwManifestRefused => 0x7004
  | .fwActivated => 0x7005
  | .fwConfirmed => 0x7006
  | .fwFallback => 0x7007
  | .mgmtTakeover => 0x7008
  | .logStoreFault => 0x8001
  | .logStoreRestored => 0x8002
  | .archiveFault => 0x8003
  | .cfgReject => 0x9001

/-- The severity of an event (R418, R422). -/
def Ev.severity : Ev → Nat
  | .holdupTestPass | .dumpReleased => 1
  | .chRateUp | .mediaDrift | .mediaMargin | .stalemateExit | .memberRejoin | .rebuildDone | .sjCopyRestored
  | .meshLinkUp | .writeThroughExit | .powerLimit | .thermalThrottle | .sensorRestored | .dramRestart
  | .portReconfig | .poolReset | .fwActivated | .fwConfirmed | .logStoreRestored => 2
  | .progFail | .blockRetired | .bandRetired | .dieUnexpected | .chRateDown | .suspendSlow | .patrolUncorr
  | .mapBandHigh | .mapAdopt | .parityMismatch | .sjCopyLost | .mirrorResync | .pfWarn | .isenseFault
  | .ackThrottle | .pmbusAlert | .refclkSwitch | .ethrefLost | .thermalWarn | .sensorFault | .dramRateLow
  | .dramCeRepeat | .dramMargin | .keyReject | .bpmBadFree | .cmpSlotExpired | .fwPieceReject
  | .fwManifestRefused | .cfgReject => 3
  | .chFail | .dieFail | .mapMismatch | .mapFetchFault | .memberLost | .rebuildStalled | .meshLinkDown
  | .writeThroughEnter | .holdupTestFail | .pmbusFault | .dramOvertemp | .poolCorrupt | .cryLaneFault
  | .bootSlotB | .fwFallback | .mgmtTakeover | .archiveFault => 4
  | .stalemateEnter | .groupExposed | .lostRegionFull | .dumpIncomplete | .bankLostUnsafe | .refclkBothLost
  | .thermalCritical | .dramFreeze | .dramRestartFail | .cryZeroiseFail | .bootRecovery | .logStoreFault => 5
  | .crySelftestFail => 6

/-- Every event code, in the order of R422. -/
def allEvs : List Ev := [
  .progFail, .blockRetired, .bandRetired, .dieUnexpected, .chRateDown, .chRateUp, .chFail, .suspendSlow,
  .mediaDrift, .dieFail, .mediaMargin, .patrolUncorr, .stalemateEnter, .stalemateExit, .mapMismatch,
  .mapFetchFault, .mapBandHigh, .mapAdopt, .memberLost, .memberRejoin, .groupExposed, .rebuildDone,
  .rebuildStalled, .parityMismatch, .sjCopyLost, .sjCopyRestored, .lostRegionFull, .mirrorResync, .meshLinkDown,
  .meshLinkUp, .pfWarn, .isenseFault, .ackThrottle, .writeThroughEnter, .writeThroughExit, .holdupTestPass,
  .holdupTestFail, .dumpIncomplete, .dumpReleased, .bankLostUnsafe, .pmbusFault, .pmbusAlert, .powerLimit,
  .refclkSwitch, .ethrefLost, .refclkBothLost, .thermalWarn, .thermalThrottle, .thermalCritical, .sensorFault,
  .sensorRestored, .dramRateLow, .dramCeRepeat, .dramOvertemp, .dramMargin, .dramFreeze, .dramRestart,
  .dramRestartFail, .portReconfig, .keyReject, .poolCorrupt, .bpmBadFree, .poolReset, .cmpSlotExpired,
  .cryZeroiseFail, .cryLaneFault, .crySelftestFail, .bootSlotB, .bootRecovery, .fwPieceReject, .fwManifestRefused,
  .fwActivated, .fwConfirmed, .fwFallback, .mgmtTakeover, .logStoreFault, .logStoreRestored, .archiveFault,
  .cfgReject]

/-- The completion statuses that the manual names. -/
inductive Status
  | success | invalidOpcode | invalidField | internalError | commandAbortRequested | invalidNamespaceOrFormat
  | commandSequenceError | invalidNumberOfSglDescriptors | dataSglLengthInvalid | namespaceWriteProtected
  | commandInterrupted | transientTransportError | lbaOutOfRange | capacityExceeded | namespaceNotReady
  | completionQueueInvalid | invalidQueueIdentifier | invalidQueueSize | invalidFirmwareSlot | invalidFirmwareImage
  | invalidInterruptVector | invalidLogPage | invalidQueueDeletion | firmwareActivationProhibited
  | namespaceInsufficientCapacity | namespaceIdUnavailable | controllerListInvalid | controllerBusy
  | connectInvalidParameters | connectInvalidHost | unrecoveredReadError | compareFailure
  | asymmetricAccessInaccessible | asymmetricAccessTransition | sglDescriptorTypeInvalid
deriving DecidableEq, Repr

/-- The status code type and the status code. PRESUMED: from the NVM Express specifications. -/
def Status.codes : Status → Nat × Nat
  | .success => (0, 0x00)
  | .invalidOpcode => (0, 0x01)
  | .invalidField => (0, 0x02)
  | .internalError => (0, 0x06)
  | .commandAbortRequested => (0, 0x07)
  | .invalidNamespaceOrFormat => (0, 0x0B)
  | .commandSequenceError => (0, 0x0C)
  | .invalidNumberOfSglDescriptors => (0, 0x0E)
  | .dataSglLengthInvalid => (0, 0x0F)
  | .namespaceWriteProtected => (0, 0x20)
  | .commandInterrupted => (0, 0x21)
  | .transientTransportError => (0, 0x22)
  | .lbaOutOfRange => (0, 0x80)
  | .capacityExceeded => (0, 0x81)
  | .namespaceNotReady => (0, 0x82)
  | .completionQueueInvalid => (1, 0x00)
  | .invalidQueueIdentifier => (1, 0x01)
  | .invalidQueueSize => (1, 0x02)
  | .invalidFirmwareSlot => (1, 0x06)
  | .invalidFirmwareImage => (1, 0x07)
  | .invalidInterruptVector => (1, 0x08)
  | .invalidLogPage => (1, 0x09)
  | .invalidQueueDeletion => (1, 0x0C)
  | .firmwareActivationProhibited => (1, 0x13)
  | .namespaceInsufficientCapacity => (1, 0x15)
  | .namespaceIdUnavailable => (1, 0x16)
  | .controllerListInvalid => (1, 0x1C)
  | .controllerBusy => (1, 0x81)
  | .connectInvalidParameters => (1, 0x82)
  | .connectInvalidHost => (1, 0x84)
  | .unrecoveredReadError => (2, 0x81)
  | .compareFailure => (2, 0x85)
  | .asymmetricAccessInaccessible => (3, 0x02)
  | .asymmetricAccessTransition => (3, 0x03)
  | .sglDescriptorTypeInvalid => (0, 0x11)

/-- The status code type. Type 2 is Media and Data Integrity (R88). -/
def Status.sct (s : Status) : Nat := s.codes.1

/-- The status field as R91 and R476 carry it: the code in [7:0] and its type in [10:8]. -/
def Status.field (s : Status) : Nat := s.codes.2 + 256 * s.codes.1

/-- A field of a data structure that is returned: its first byte, its length in bytes and its value (R15). -/
abbrev Field := Nat × Nat × Nat

end Sys2Proof.Machine
end

