-- ==== Sys2Proof/Machine/RegMap.lean ====
section
/-!
DEFINITION. Sys2Proof/Machine/RegMap.lean: the registers of BAR0 and their fields, from the register maps of the spec (R12 to R14,
R99, R127, R165, R191, R228, R261, R262, R296, R322, R337, R349, R368, R369, R388, R414 to R416, R437, R464, R465, R467,
R491 to R493). A 64-bit pair is one register here. A range is the one a field's description states, or all its values.
-/
namespace Sys2Proof.Machine
open Sys2Proof

/-- The access types of R13. -/
inductive Access | ro | rw | wo | w1c | rs | rl
deriving DecidableEq, Repr

/-- The registers. -/
inductive Reg
  | qeCfg | qeStatus | qeQpFree | qeClassWeight | qeDieShare | qeSuspendWait | glbClockCfg | glbClockStatus
  | glbClockEpoch | glbBoardTime | mapCfg | mapStatus | mapDirCfg | mapL1Cfg | mapPaging | mapSlotMap | mapDirty
  | mapL0Hits | mapL1Hits | mapL2Fetches | plcCfg | plcStatus | plcRowCfg | plcGroups | plcSlcCfg | plcStageCfg
  | plcProgBudget | plcStaged | plcWseq | plcPadGrains | plcPromoted | rclCfg | rclStatus | rclThresh | rclScore
  | rclCastle | rclBlank | rclSecure | rclGrpSel | rclGrpBands | rclGrpWearMax | rclGrpWearMin | rclGrpState
  | rclRelocGrains | rclErases | medCfg | medStatus | medDescIdx | medDescData | medChSel | medChCfg | medChVols
  | medChStatus | medTrack | medSuspend | medPatrol | medDisturb | medPatrolPages | ldpcCfg | ldpcBaseIdx
  | ldpcBaseData | ldpcHard | ldpcRetry | ldpcSoft | ldpcFail | redCfg | redStatus | redRebuild | redVerify
  | redVerifyStatus | redGrpSel | redGrpState | redGrpHeal | redRecon | redParityCmp | redParityEvents | plpCfg
  | plpStatus | plpSense | plpThresh | plpBank | plpTestCfg | plpTestLimit | plpTestResult | plpBankV | plpLimit
  | plpStagedTotal | plpCtrl | plpLastDump | plpLastDumpMib | bpmCfg | bpmStatus | bpmArea | bpmReset | bpmPoolCfg
  | bpmPoolFree | bpmBadFree | bpmEmpty | bpmSpills | cmpCfg | cmpStatus | cmpErrors | cmpInBytes | cmpOutBytes
  | cmpAdjourns | cryCfg | cryStatus | crySlotSel | crySlotState | cryErrors | cryUnits | digCfg | digStatus
  | digResults | digVfyStatus | digFuse | digFuseFloor | digFuseIdx | digFuseData | digBytes | drcCfg | drcStatus
  | drcPolicy | drcRefresh | drcTrain | drcMargin | drcScrub | drcCtrl | drcErrors | drcCapStatus | drcCapAddr
  | drcCapCol | drcCapTime | drcCapSynd | drcCe | thmCfg | thmStatus | thmSel | thmSensor | thmLimits | thmHistIdx
  | thmHistData | clkCfg | clkStatus | clkAon | pwrCfg | pwrStatus | pwrSleep | pwrTileState | pwrDomTile | pwrDomPkg
  | pwrPower | pwrLimit | pwrRailSel | pwrRailCfg | pwrRailStatus | evrCfg | evrStatus | evrHead | evrOldest
  | evrArchived | evrCursor | evrWinStatus | evrWinSeq | evrWinData | evrDrops | fwuStatus | fwuRunInfo | fwuRunId
  | fwuStagedId | fwuMapIdx | fwuMapData | fwuInstall | fwuCtrl | cfcCfg | cfcStatus | cfcErrors | cfcEraseMax
  | glbId | glbStatus | glbSerial | glbCommit | glbCommitStatus | glbCommitSeq | glbPinFunc | glbPinValue
  | glbSideband | glbDebug | bptCfg | bptStatus | bptEvtSkipped | bptRingBase | bptRingWb | bptRingCfg | bptRingState
  | glbPortCfg | glbPortStatus | glbMac | glbMeshCfg | glbMeshStatus | glbDmaErrors
deriving DecidableEq, Repr

/-- The fields. -/
inductive Fld
  | qe_cfg_freeze_default | qe_cfg_default_order_mode | qe_cfg_qe_enable | qe_status_cfg_err | qe_status_ctrl_active
  | qe_status_frozen_count | qe_qp_free_ctrl_slots_free | qe_qp_free_qp_free | qe_class_weight_w_h3
  | qe_class_weight_w_h2 | qe_class_weight_w_h1 | qe_die_share_bg_max | qe_die_share_bg_base
  | qe_suspend_wait_host_suspend_wait | glb_clock_cfg_hold_epochs | glb_clock_cfg_epoch_s
  | glb_clock_cfg_overhead_mode | glb_clock_status_held_epochs | glb_clock_status_time_unset
  | glb_clock_status_merging | glb_clock_status_energy_estimated | glb_clock_epoch_epoch | glb_board_time_board_time
  | map_cfg_l0_frames | map_cfg_prefetch_en | map_cfg_map_enable | map_status_cfg_err | map_status_adopting
  | map_status_replaying | map_status_slot_away | map_status_dirty_pct | map_dir_cfg_dir_gib | map_l1_cfg_l1_gib
  | map_paging_dirty_max_pct | map_paging_journal_window_mib | map_slot_map_slot_holder | map_dirty_dirty_frames
  | map_l0_hits_count | map_l1_hits_count | map_l2_fetches_count | plc_cfg_zero_detect | plc_cfg_plc_enable
  | plc_status_cfg_err | plc_status_write_through | plc_status_credit_full | plc_status_slc_closed
  | plc_status_rows_filling | plc_row_cfg_wt_row_us | plc_row_cfg_row_timer_us | plc_groups_active_groups
  | plc_slc_cfg_slc_direct_pct | plc_slc_cfg_slc_resume_pct | plc_slc_cfg_promote_start_pct
  | plc_stage_cfg_stage_dram_mib | plc_stage_cfg_stage_sram_mib | plc_prog_budget_prog_dies_max
  | plc_staged_staged_kib | plc_wseq_wseq_next | plc_pad_grains_count | plc_promoted_count | rcl_cfg_spare_pct
  | rcl_cfg_idle_reclaim | rcl_cfg_rcl_enable | rcl_status_cfg_err | rcl_status_census_done
  | rcl_status_summaries_ready | rcl_status_stalemate | rcl_status_castling | rcl_status_sweeps_active
  | rcl_thresh_rcl_start_bands | rcl_thresh_endgame_bands | rcl_score_idle_u_pct | rcl_score_age_weight
  | rcl_castle_slc_wear_units | rcl_castle_castle_limit | rcl_blank_blank_fail_max | rcl_secure_secure_sync_tib
  | rcl_grp_sel_sg | rcl_grp_bands_sealed_bands | rcl_grp_bands_free_bands | rcl_grp_wear_max_wear_max
  | rcl_grp_wear_min_wear_min | rcl_grp_state_no_gain | rcl_grp_state_stalemate | rcl_grp_state_demand_pct
  | rcl_reloc_grains_count | rcl_erases_count | med_cfg_patrol_en | med_cfg_ext_mode_en | med_cfg_med_enable
  | med_status_cfg_err | med_status_desc_mismatch | med_status_training | med_status_ch_failed
  | med_status_ch_degraded | med_status_ch_up | med_desc_idx_word | med_desc_data_data | med_ch_sel_ch
  | med_ch_cfg_rate_max | med_ch_cfg_rep_latency | med_ch_cfg_topology | med_ch_vols_vols_present
  | med_ch_status_state | med_ch_status_rate_now | med_ch_status_margin_min | med_ch_status_rate_downs
  | med_ch_status_dies_failed | med_track_margin_min | med_track_track_ms | med_suspend_seq_pad_us
  | med_suspend_resume_min_us | med_patrol_refresh_bits | med_patrol_patrol_days | med_disturb_disturb_k
  | med_patrol_pages_count | ldpc_cfg_soft_bits | ldpc_cfg_retry_max | ldpc_base_idx_entry | ldpc_base_data_present
  | ldpc_base_data_shift | ldpc_hard_count | ldpc_retry_count | ldpc_soft_count | ldpc_fail_count
  | red_cfg_tile_safe_groups | red_cfg_spare_keep | red_cfg_sj_sram_kib | red_cfg_parity_check_en
  | red_cfg_red_enable | red_status_cfg_err | red_status_sj_single | red_status_sj_copy_short
  | red_status_rebuild_stalled | red_status_groups_not_optimal | red_rebuild_subst_shared_ch
  | red_rebuild_rebuild_reclaim_pct | red_rebuild_rebuild_floor_pct | red_verify_verify_start | red_verify_verify_sg
  | red_verify_status_verify_busy | red_verify_status_verify_done | red_verify_status_verify_mismatch
  | red_grp_sel_sg | red_grp_state_state | red_grp_state_geometry | red_grp_state_lost_members
  | red_grp_heal_bands_unhealed | red_grp_heal_bands_healed | red_recon_count | red_parity_cmp_count
  | red_parity_events_mismatches | red_parity_events_parity_skipped | plp_cfg_dump_dies_ch | plp_cfg_seal_blocks
  | plp_cfg_plp_enable | plp_status_cfg_err | plp_status_write_through | plp_status_bank_present
  | plp_status_test_running | plp_status_throttling | plp_status_dump_held | plp_status_bank_safe
  | plp_status_off_ready | plp_status_warn | plp_status_wt_cause | plp_sense_hsense_ratio | plp_sense_vsense_ratio
  | plp_thresh_warn_mv | plp_thresh_pfail_mv | plp_bank_vmin_mv | plp_bank_pfail_filt_ns | plp_test_cfg_test_hours
  | plp_test_cfg_rtest_ohm | plp_test_cfg_test_drop_mv | plp_test_limit_cap_min | plp_test_limit_esr_max_mohm
  | plp_test_result_result | plp_test_result_esr_mohm | plp_test_result_cap | plp_bank_v_budget_mv
  | plp_bank_v_bank_mv | plp_limit_mib | plp_staged_total_mib | plp_ctrl_prepare_off | plp_ctrl_bank_release
  | plp_ctrl_test_now | plp_last_dump_incomplete | plp_last_dump_dump_us | plp_last_dump_mib_dumped_mib
  | bpm_cfg_spill | bpm_cfg_bpm_enable | bpm_status_cfg_err | bpm_status_resetting | bpm_status_quarantined
  | bpm_status_empty | bpm_area_used_kib | bpm_area_area_kib | bpm_reset_pool_reset | bpm_pool_cfg_urgent_rsv
  | bpm_pool_cfg_count | bpm_pool_free_free_count | bpm_bad_free_bad_frees | bpm_empty_count | bpm_spills_count
  | cmp_cfg_stream_timeout_ms | cmp_cfg_cmp_enable | cmp_status_cfg_err | cmp_status_adj_d | cmp_status_adj_c
  | cmp_status_slots_busy | cmp_errors_stream_errors | cmp_errors_refusals | cmp_in_bytes_count | cmp_out_bytes_count
  | cmp_adjourns_count | cry_cfg_cry_enable | cry_status_cfg_err | cry_status_self_test_fail | cry_status_reloading
  | cry_status_lanes_up | cry_status_slots_loaded | cry_slot_sel_slot | cry_slot_state_loaded
  | cry_slot_state_zeroise_fail | cry_slot_state_key_gen | cry_errors_unwrap_fail | cry_errors_stale_jobs
  | cry_units_count | dig_cfg_snoop_rsv | dig_status_vfy_busy | dig_status_ctx_finished | dig_status_ctx_bound
  | dig_status_ctx_busy | dig_results_not_equal | dig_results_busy_refusals | dig_vfy_status_last_result
  | dig_vfy_status_verifies | dig_fuse_id_row_ok | dig_fuse_root_programmed | dig_fuse_key_revoked
  | dig_fuse_key_present | dig_fuse_floor_security_floor | dig_fuse_idx_word | dig_fuse_data_data | dig_bytes_count
  | drc_cfg_rate_max | drc_cfg_density | drc_cfg_dev_width | drc_cfg_ranks | drc_cfg_wcrc_en | drc_cfg_scrub_en
  | drc_cfg_drc_enable | drc_status_cfg_err | drc_status_frozen | drc_status_ready | drc_status_training
  | drc_status_hot | drc_status_cap_read | drc_status_cfg_mismatch | drc_status_overtemp | drc_status_rate_now
  | drc_status_capacity_gib | drc_policy_pd_timer_ns | drc_policy_page_idle_ns | drc_policy_hit_thresh
  | drc_refresh_temp_poll_ms | drc_refresh_debt | drc_refresh_postpone_max | drc_train_margin_min
  | drc_train_retrain_ms | drc_margin_wr_margin | drc_margin_rd_margin | drc_scrub_scrub_hours | drc_ctrl_drc_restart
  | drc_errors_freezes | drc_errors_alerts | drc_cap_status_cause | drc_cap_status_subch | drc_cap_status_rank
  | drc_cap_status_further | drc_cap_status_bad_symbols | drc_cap_status_class | drc_cap_addr_bank_group
  | drc_cap_addr_bank | drc_cap_addr_row | drc_cap_col_column | drc_cap_time_minutes | drc_cap_synd_syndrome
  | drc_ce_ce_count | thm_cfg_rate_limit | thm_cfg_hyst_c | thm_status_cfg_err | thm_status_fenced | thm_status_warn
  | thm_status_sensor_fault | thm_status_rate_trig | thm_status_abs_trig | thm_status_fault_trig
  | thm_status_power_trig | thm_status_level | thm_sel_sensor | thm_sensor_fault | thm_sensor_peak | thm_sensor_temp
  | thm_limits_critical_c | thm_limits_throttle_c | thm_limits_warn_c | thm_hist_idx_bin | thm_hist_data_minutes
  | clk_cfg_ref_revert | clk_cfg_ref_pref | clk_status_switches | clk_status_holdover | clk_status_eth_synth
  | clk_status_eth_ok | clk_status_active | clk_status_refb_ok | clk_status_refa_ok | clk_aon_aon_ppm
  | pwr_cfg_avs_enable | pwr_cfg_deep_en | pwr_cfg_light_en | pwr_status_cfg_err | pwr_status_isense_fault
  | pwr_status_pkg_state | pwr_status_rail_fault | pwr_sleep_deep_idle_ms | pwr_sleep_deep_timer_s
  | pwr_sleep_light_idle_us | pwr_tile_state_state | pwr_dom_tile_dom_on | pwr_dom_pkg_dom_on | pwr_power_measured
  | pwr_power_estimated | pwr_limit_pwr_limit_w | pwr_rail_sel_rail | pwr_rail_cfg_vmax | pwr_rail_cfg_vmin
  | pwr_rail_cfg_pmb_addr | pwr_rail_cfg_page | pwr_rail_cfg_kind | pwr_rail_status_fault | pwr_rail_status_vset
  | pwr_rail_status_status_word | evr_cfg_rate_period_s | evr_cfg_rate_burst | evr_cfg_log_min_sev
  | evr_status_cfg_err | evr_status_fallback | evr_status_archive_fault | evr_status_unarchived | evr_head_seq
  | evr_oldest_seq | evr_archived_seq | evr_cursor_cursor | evr_win_status_fallback | evr_win_status_from_band
  | evr_win_status_pending | evr_win_status_gap | evr_win_status_valid | evr_win_seq_seq | evr_win_data_data
  | evr_drops_drops_hi | evr_drops_drops_lo | fwu_status_stage_state | fwu_status_recovery_mode
  | fwu_status_pending_start | fwu_status_fallback | fwu_status_boot_reason | fwu_status_pieces_missing
  | fwu_run_info_run_source | fwu_run_info_floor | fwu_run_info_run_security | fwu_run_id_image_id
  | fwu_staged_id_image_id | fwu_map_idx_word | fwu_map_data_pieces | fwu_install_step | fwu_install_sectors_total
  | fwu_install_sectors_done | fwu_ctrl_stage_clear | cfc_cfg_idle_off_ms | cfc_status_failed | cfc_status_busy
  | cfc_status_op | cfc_status_powered | cfc_status_stall_max_us | cfc_errors_op_fail | cfc_errors_read_uncorr
  | cfc_erase_max_sector | cfc_erase_max_erases | glb_id_stepping | glb_id_hw_type | glb_id_tile_map
  | glb_id_tiles_up | glb_status_boot_state | glb_status_fw_ready | glb_status_activation | glb_status_boot_reason
  | glb_status_primary | glb_status_standby | glb_status_tiles_fenced | glb_status_crit_warning | glb_serial_serial
  | glb_commit_commit | glb_commit_revert | glb_commit_status_state | glb_commit_status_rejected
  | glb_commit_status_reason | glb_commit_status_bad_offset | glb_commit_seq_applied_seq | glb_pin_func_func_0
  | glb_pin_func_func_1 | glb_pin_func_func_2 | glb_pin_func_func_3 | glb_pin_func_func_4 | glb_pin_func_func_5
  | glb_pin_func_func_6 | glb_pin_func_func_7 | glb_pin_value_out | glb_pin_value_in | glb_sideband_smb_addr
  | glb_sideband_i3c | glb_sideband_sb_enable | glb_debug_core_debug_en | glb_debug_uart_baud | bpt_cfg_evt_min_sev
  | bpt_status_cfg_err | bpt_status_bad_doorbell | bpt_status_dma_error | bpt_status_rom_state | bpt_status_held
  | bpt_evt_skipped_evt_skipped | bpt_ring_base_base | bpt_ring_wb_wb_addr | bpt_ring_cfg_ring_en
  | bpt_ring_cfg_coalesce_us | bpt_ring_cfg_coalesce_cnt | bpt_ring_cfg_log2_size | bpt_ring_state_head
  | bpt_ring_state_tail | glb_port_cfg_drain_time | glb_port_cfg_port_mode | glb_port_status_recon_step
  | glb_port_status_link_up | glb_port_status_pcie_rate | glb_port_status_pcie_width | glb_port_status_ana_state
  | glb_mac_mac | glb_mesh_cfg_link_disable | glb_mesh_status_up | glb_mesh_status_replays | glb_dma_errors_host_mem
  | glb_dma_errors_board_mem
deriving DecidableEq, Repr

/-- Where a register is: in a tile window or not, its offset there, its copies and their stride, whether it is a 64-bit pair,
and the field that selects the copy it reaches. -/
structure RegInfo where
  perTile : Bool
  off     : Nat
  count   : Nat
  stride  : Nat
  wide    : Bool
  sel     : Option Fld
deriving DecidableEq, Repr

/-- A field: its register, its bits, its access type, its reset value and its stated range. `static` marks an RW field that is
writable only while its block is disabled (R13). -/
structure FldInfo where
  reg    : Reg
  hi     : Nat
  lo     : Nat
  acc    : Access
  reset  : Nat
  least  : Nat
  most   : Nat
  static : Bool
deriving DecidableEq, Repr

def Reg.info : Reg → RegInfo
  | .qeCfg => ⟨true, 0x4000, 1, 0, false, none⟩
  | .qeStatus => ⟨true, 0x4004, 1, 0, false, none⟩
  | .qeQpFree => ⟨true, 0x4008, 1, 0, false, none⟩
  | .qeClassWeight => ⟨true, 0x400C, 1, 0, false, none⟩
  | .qeDieShare => ⟨true, 0x4010, 1, 0, false, none⟩
  | .qeSuspendWait => ⟨true, 0x4014, 1, 0, false, none⟩
  | .glbClockCfg => ⟨false, 0x2000, 1, 0, false, none⟩
  | .glbClockStatus => ⟨false, 0x2004, 1, 0, false, none⟩
  | .glbClockEpoch => ⟨false, 0x2008, 1, 0, false, none⟩
  | .glbBoardTime => ⟨false, 0x2010, 1, 0, true, none⟩
  | .mapCfg => ⟨true, 0x5000, 1, 0, false, none⟩
  | .mapStatus => ⟨true, 0x5004, 1, 0, false, none⟩
  | .mapDirCfg => ⟨true, 0x5008, 1, 0, false, none⟩
  | .mapL1Cfg => ⟨true, 0x500C, 1, 0, false, none⟩
  | .mapPaging => ⟨true, 0x5010, 1, 0, false, none⟩
  | .mapSlotMap => ⟨true, 0x5014, 1, 0, false, none⟩
  | .mapDirty => ⟨true, 0x5018, 1, 0, false, none⟩
  | .mapL0Hits => ⟨true, 0x5020, 1, 0, true, none⟩
  | .mapL1Hits => ⟨true, 0x5028, 1, 0, true, none⟩
  | .mapL2Fetches => ⟨true, 0x5030, 1, 0, true, none⟩
  | .plcCfg => ⟨true, 0x6000, 1, 0, false, none⟩
  | .plcStatus => ⟨true, 0x6004, 1, 0, false, none⟩
  | .plcRowCfg => ⟨true, 0x6008, 1, 0, false, none⟩
  | .plcGroups => ⟨true, 0x600C, 1, 0, false, none⟩
  | .plcSlcCfg => ⟨true, 0x6010, 1, 0, false, none⟩
  | .plcStageCfg => ⟨true, 0x6014, 1, 0, false, none⟩
  | .plcProgBudget => ⟨true, 0x6018, 1, 0, false, none⟩
  | .plcStaged => ⟨true, 0x601C, 1, 0, false, none⟩
  | .plcWseq => ⟨true, 0x6020, 1, 0, true, none⟩
  | .plcPadGrains => ⟨true, 0x6028, 1, 0, true, none⟩
  | .plcPromoted => ⟨true, 0x6030, 1, 0, true, none⟩
  | .rclCfg => ⟨true, 0x7000, 1, 0, false, none⟩
  | .rclStatus => ⟨true, 0x7004, 1, 0, false, none⟩
  | .rclThresh => ⟨true, 0x7008, 1, 0, false, none⟩
  | .rclScore => ⟨true, 0x700C, 1, 0, false, none⟩
  | .rclCastle => ⟨true, 0x7010, 1, 0, false, none⟩
  | .rclBlank => ⟨true, 0x7014, 1, 0, false, none⟩
  | .rclSecure => ⟨true, 0x7018, 1, 0, false, none⟩
  | .rclGrpSel => ⟨true, 0x701C, 1, 0, false, none⟩
  | .rclGrpBands => ⟨true, 0x7020, 1, 0, false, some .rcl_grp_sel_sg⟩
  | .rclGrpWearMax => ⟨true, 0x7024, 1, 0, false, some .rcl_grp_sel_sg⟩
  | .rclGrpWearMin => ⟨true, 0x702C, 1, 0, false, some .rcl_grp_sel_sg⟩
  | .rclGrpState => ⟨true, 0x7028, 1, 0, false, some .rcl_grp_sel_sg⟩
  | .rclRelocGrains => ⟨true, 0x7030, 1, 0, true, none⟩
  | .rclErases => ⟨true, 0x7038, 1, 0, true, none⟩
  | .medCfg => ⟨true, 0x8000, 1, 0, false, none⟩
  | .medStatus => ⟨true, 0x8004, 1, 0, false, none⟩
  | .medDescIdx => ⟨true, 0x8008, 1, 0, false, none⟩
  | .medDescData => ⟨true, 0x800C, 1, 0, false, some .med_desc_idx_word⟩
  | .medChSel => ⟨true, 0x8010, 1, 0, false, none⟩
  | .medChCfg => ⟨true, 0x8014, 1, 0, false, some .med_ch_sel_ch⟩
  | .medChVols => ⟨true, 0x8018, 1, 0, false, some .med_ch_sel_ch⟩
  | .medChStatus => ⟨true, 0x801C, 1, 0, false, some .med_ch_sel_ch⟩
  | .medTrack => ⟨true, 0x8020, 1, 0, false, none⟩
  | .medSuspend => ⟨true, 0x8024, 1, 0, false, none⟩
  | .medPatrol => ⟨true, 0x8028, 1, 0, false, none⟩
  | .medDisturb => ⟨true, 0x802C, 1, 0, false, none⟩
  | .medPatrolPages => ⟨true, 0x8030, 1, 0, true, none⟩
  | .ldpcCfg => ⟨true, 0x9000, 1, 0, false, none⟩
  | .ldpcBaseIdx => ⟨true, 0x9008, 1, 0, false, none⟩
  | .ldpcBaseData => ⟨true, 0x900C, 1, 0, false, some .ldpc_base_idx_entry⟩
  | .ldpcHard => ⟨true, 0x9010, 1, 0, true, none⟩
  | .ldpcRetry => ⟨true, 0x9018, 1, 0, true, none⟩
  | .ldpcSoft => ⟨true, 0x9020, 1, 0, true, none⟩
  | .ldpcFail => ⟨true, 0x9028, 1, 0, true, none⟩
  | .redCfg => ⟨true, 0xA000, 1, 0, false, none⟩
  | .redStatus => ⟨true, 0xA004, 1, 0, false, none⟩
  | .redRebuild => ⟨true, 0xA008, 1, 0, false, none⟩
  | .redVerify => ⟨true, 0xA00C, 1, 0, false, none⟩
  | .redVerifyStatus => ⟨true, 0xA010, 1, 0, false, none⟩
  | .redGrpSel => ⟨true, 0xA014, 1, 0, false, none⟩
  | .redGrpState => ⟨true, 0xA018, 1, 0, false, some .red_grp_sel_sg⟩
  | .redGrpHeal => ⟨true, 0xA01C, 1, 0, false, some .red_grp_sel_sg⟩
  | .redRecon => ⟨true, 0xA020, 1, 0, true, none⟩
  | .redParityCmp => ⟨true, 0xA028, 1, 0, true, none⟩
  | .redParityEvents => ⟨true, 0xA030, 1, 0, false, none⟩
  | .plpCfg => ⟨false, 0x3000, 1, 0, false, none⟩
  | .plpStatus => ⟨false, 0x3004, 1, 0, false, none⟩
  | .plpSense => ⟨false, 0x3008, 1, 0, false, none⟩
  | .plpThresh => ⟨false, 0x300C, 1, 0, false, none⟩
  | .plpBank => ⟨false, 0x3010, 1, 0, false, none⟩
  | .plpTestCfg => ⟨false, 0x3014, 1, 0, false, none⟩
  | .plpTestLimit => ⟨false, 0x3018, 1, 0, false, none⟩
  | .plpTestResult => ⟨false, 0x301C, 1, 0, false, none⟩
  | .plpBankV => ⟨false, 0x3020, 1, 0, false, none⟩
  | .plpLimit => ⟨false, 0x3024, 1, 0, false, none⟩
  | .plpStagedTotal => ⟨false, 0x3028, 1, 0, false, none⟩
  | .plpCtrl => ⟨false, 0x302C, 1, 0, false, none⟩
  | .plpLastDump => ⟨false, 0x3030, 1, 0, false, none⟩
  | .plpLastDumpMib => ⟨false, 0x3034, 1, 0, false, none⟩
  | .bpmCfg => ⟨true, 0xB000, 1, 0, false, none⟩
  | .bpmStatus => ⟨true, 0xB004, 1, 0, false, none⟩
  | .bpmArea => ⟨true, 0xB008, 1, 0, false, none⟩
  | .bpmReset => ⟨true, 0xB00C, 1, 0, false, none⟩
  | .bpmPoolCfg => ⟨true, 0xB010, 6, 4, false, none⟩
  | .bpmPoolFree => ⟨true, 0xB030, 6, 4, false, none⟩
  | .bpmBadFree => ⟨true, 0xB048, 1, 0, false, none⟩
  | .bpmEmpty => ⟨true, 0xB050, 1, 0, true, none⟩
  | .bpmSpills => ⟨true, 0xB058, 1, 0, true, none⟩
  | .cmpCfg => ⟨true, 0xC000, 1, 0, false, none⟩
  | .cmpStatus => ⟨true, 0xC004, 1, 0, false, none⟩
  | .cmpErrors => ⟨true, 0xC008, 1, 0, false, none⟩
  | .cmpInBytes => ⟨true, 0xC010, 1, 0, true, none⟩
  | .cmpOutBytes => ⟨true, 0xC018, 1, 0, true, none⟩
  | .cmpAdjourns => ⟨true, 0xC020, 1, 0, true, none⟩
  | .cryCfg => ⟨true, 0xD000, 1, 0, false, none⟩
  | .cryStatus => ⟨true, 0xD004, 1, 0, false, none⟩
  | .crySlotSel => ⟨true, 0xD008, 1, 0, false, none⟩
  | .crySlotState => ⟨true, 0xD00C, 1, 0, false, some .cry_slot_sel_slot⟩
  | .cryErrors => ⟨true, 0xD010, 1, 0, false, none⟩
  | .cryUnits => ⟨true, 0xD018, 1, 0, true, none⟩
  | .digCfg => ⟨true, 0xE000, 1, 0, false, none⟩
  | .digStatus => ⟨true, 0xE004, 1, 0, false, none⟩
  | .digResults => ⟨true, 0xE008, 1, 0, false, none⟩
  | .digVfyStatus => ⟨true, 0xE00C, 1, 0, false, none⟩
  | .digFuse => ⟨true, 0xE010, 1, 0, false, none⟩
  | .digFuseFloor => ⟨true, 0xE014, 1, 0, false, none⟩
  | .digFuseIdx => ⟨true, 0xE018, 1, 0, false, none⟩
  | .digFuseData => ⟨true, 0xE01C, 1, 0, false, some .dig_fuse_idx_word⟩
  | .digBytes => ⟨true, 0xE020, 1, 0, true, none⟩
  | .drcCfg => ⟨true, 0xF000, 1, 0, false, none⟩
  | .drcStatus => ⟨true, 0xF004, 1, 0, false, none⟩
  | .drcPolicy => ⟨true, 0xF008, 1, 0, false, none⟩
  | .drcRefresh => ⟨true, 0xF00C, 1, 0, false, none⟩
  | .drcTrain => ⟨true, 0xF010, 1, 0, false, none⟩
  | .drcMargin => ⟨true, 0xF014, 1, 0, false, none⟩
  | .drcScrub => ⟨true, 0xF018, 1, 0, false, none⟩
  | .drcCtrl => ⟨true, 0xF01C, 1, 0, false, none⟩
  | .drcErrors => ⟨true, 0xF020, 1, 0, false, none⟩
  | .drcCapStatus => ⟨true, 0xF024, 1, 0, false, none⟩
  | .drcCapAddr => ⟨true, 0xF028, 1, 0, false, none⟩
  | .drcCapCol => ⟨true, 0xF02C, 1, 0, false, none⟩
  | .drcCapTime => ⟨true, 0xF030, 1, 0, false, none⟩
  | .drcCapSynd => ⟨true, 0xF034, 4, 4, false, none⟩
  | .drcCe => ⟨true, 0xF048, 1, 0, true, none⟩
  | .thmCfg => ⟨true, 0x10000, 1, 0, false, none⟩
  | .thmStatus => ⟨true, 0x10004, 1, 0, false, none⟩
  | .thmSel => ⟨true, 0x10008, 1, 0, false, none⟩
  | .thmSensor => ⟨true, 0x1000C, 1, 0, false, some .thm_sel_sensor⟩
  | .thmLimits => ⟨true, 0x10010, 1, 0, false, some .thm_sel_sensor⟩
  | .thmHistIdx => ⟨true, 0x10014, 1, 0, false, none⟩
  | .thmHistData => ⟨true, 0x10018, 1, 0, false, some .thm_hist_idx_bin⟩
  | .clkCfg => ⟨false, 0x4000, 1, 0, false, none⟩
  | .clkStatus => ⟨false, 0x4004, 1, 0, false, none⟩
  | .clkAon => ⟨false, 0x4008, 1, 0, false, none⟩
  | .pwrCfg => ⟨false, 0x5000, 1, 0, false, none⟩
  | .pwrStatus => ⟨false, 0x5004, 1, 0, false, none⟩
  | .pwrSleep => ⟨false, 0x5008, 1, 0, false, none⟩
  | .pwrTileState => ⟨false, 0x500C, 1, 0, false, none⟩
  | .pwrDomTile => ⟨false, 0x5010, 1, 0, true, none⟩
  | .pwrDomPkg => ⟨false, 0x5018, 1, 0, false, none⟩
  | .pwrPower => ⟨false, 0x501C, 1, 0, false, none⟩
  | .pwrLimit => ⟨false, 0x5020, 1, 0, false, none⟩
  | .pwrRailSel => ⟨false, 0x5024, 1, 0, false, none⟩
  | .pwrRailCfg => ⟨false, 0x5028, 1, 0, false, some .pwr_rail_sel_rail⟩
  | .pwrRailStatus => ⟨false, 0x502C, 1, 0, false, some .pwr_rail_sel_rail⟩
  | .evrCfg => ⟨false, 0x8000, 1, 0, false, none⟩
  | .evrStatus => ⟨false, 0x8004, 1, 0, false, none⟩
  | .evrHead => ⟨false, 0x8008, 1, 0, false, none⟩
  | .evrOldest => ⟨false, 0x800C, 1, 0, false, none⟩
  | .evrArchived => ⟨false, 0x8010, 1, 0, false, none⟩
  | .evrCursor => ⟨false, 0x8014, 1, 0, false, none⟩
  | .evrWinStatus => ⟨false, 0x8018, 1, 0, false, none⟩
  | .evrWinSeq => ⟨false, 0x801C, 1, 0, false, none⟩
  | .evrWinData => ⟨false, 0x8020, 8, 4, false, none⟩
  | .evrDrops => ⟨false, 0x8040, 4, 4, false, none⟩
  | .fwuStatus => ⟨false, 0x6000, 1, 0, false, none⟩
  | .fwuRunInfo => ⟨false, 0x6004, 1, 0, false, none⟩
  | .fwuRunId => ⟨false, 0x6008, 1, 0, true, none⟩
  | .fwuStagedId => ⟨false, 0x6010, 1, 0, true, none⟩
  | .fwuMapIdx => ⟨false, 0x6018, 1, 0, false, none⟩
  | .fwuMapData => ⟨false, 0x601C, 1, 0, false, some .fwu_map_idx_word⟩
  | .fwuInstall => ⟨false, 0x6020, 1, 0, false, none⟩
  | .fwuCtrl => ⟨false, 0x6024, 1, 0, false, none⟩
  | .cfcCfg => ⟨false, 0x7000, 1, 0, false, none⟩
  | .cfcStatus => ⟨false, 0x7004, 1, 0, false, none⟩
  | .cfcErrors => ⟨false, 0x7008, 1, 0, false, none⟩
  | .cfcEraseMax => ⟨false, 0x700C, 1, 0, false, none⟩
  | .glbId => ⟨false, 0x0, 1, 0, false, none⟩
  | .glbStatus => ⟨false, 0x4, 1, 0, false, none⟩
  | .glbSerial => ⟨false, 0x8, 4, 4, false, none⟩
  | .glbCommit => ⟨false, 0x20, 1, 0, false, none⟩
  | .glbCommitStatus => ⟨false, 0x24, 1, 0, false, none⟩
  | .glbCommitSeq => ⟨false, 0x28, 1, 0, false, none⟩
  | .glbPinFunc => ⟨false, 0x30, 1, 0, false, none⟩
  | .glbPinValue => ⟨false, 0x34, 1, 0, false, none⟩
  | .glbSideband => ⟨false, 0x38, 1, 0, false, none⟩
  | .glbDebug => ⟨false, 0x3C, 1, 0, false, none⟩
  | .bptCfg => ⟨false, 0x1000, 1, 0, false, none⟩
  | .bptStatus => ⟨false, 0x1004, 1, 0, false, none⟩
  | .bptEvtSkipped => ⟨false, 0x1008, 1, 0, false, none⟩
  | .bptRingBase => ⟨false, 0x1020, 4, 32, true, none⟩
  | .bptRingWb => ⟨false, 0x1028, 4, 32, true, none⟩
  | .bptRingCfg => ⟨false, 0x1030, 4, 32, false, none⟩
  | .bptRingState => ⟨false, 0x1034, 4, 32, false, none⟩
  | .glbPortCfg => ⟨true, 0x0, 1, 0, false, none⟩
  | .glbPortStatus => ⟨true, 0x4, 1, 0, false, none⟩
  | .glbMac => ⟨true, 0x10, 4, 8, true, none⟩
  | .glbMeshCfg => ⟨true, 0x30, 1, 0, false, none⟩
  | .glbMeshStatus => ⟨true, 0x34, 1, 0, false, none⟩
  | .glbDmaErrors => ⟨true, 0x38, 1, 0, false, none⟩

def Fld.info : Fld → FldInfo
  | .qe_cfg_freeze_default => ⟨.qeCfg, 8, 8, .rs, 0, 0, 1, false⟩
  | .qe_cfg_default_order_mode => ⟨.qeCfg, 5, 4, .rs, 2, 0, 3, false⟩
  | .qe_cfg_qe_enable => ⟨.qeCfg, 0, 0, .rw, 0, 0, 1, false⟩
  | .qe_status_cfg_err => ⟨.qeStatus, 31, 31, .w1c, 0, 0, 1, false⟩
  | .qe_status_ctrl_active => ⟨.qeStatus, 25, 16, .ro, 0, 0, 1023, false⟩
  | .qe_status_frozen_count => ⟨.qeStatus, 14, 0, .ro, 0, 0, 32767, false⟩
  | .qe_qp_free_ctrl_slots_free => ⟨.qeQpFree, 25, 16, .ro, 0x200, 0, 1023, false⟩
  | .qe_qp_free_qp_free => ⟨.qeQpFree, 14, 0, .ro, 0x4000, 0, 32767, false⟩
  | .qe_class_weight_w_h3 => ⟨.qeClassWeight, 23, 16, .rs, 1, 0, 255, false⟩
  | .qe_class_weight_w_h2 => ⟨.qeClassWeight, 15, 8, .rs, 3, 0, 255, false⟩
  | .qe_class_weight_w_h1 => ⟨.qeClassWeight, 7, 0, .rs, 7, 0, 255, false⟩
  | .qe_die_share_bg_max => ⟨.qeDieShare, 23, 16, .rs, 90, 10, 95, false⟩
  | .qe_die_share_bg_base => ⟨.qeDieShare, 15, 8, .rs, 20, 0, 95, false⟩
  | .qe_suspend_wait_host_suspend_wait => ⟨.qeSuspendWait, 13, 0, .rs, 0x1f4, 0, 10000, false⟩
  | .glb_clock_cfg_hold_epochs => ⟨.glbClockCfg, 21, 16, .rs, 16, 1, 63, false⟩
  | .glb_clock_cfg_epoch_s => ⟨.glbClockCfg, 15, 8, .rs, 60, 1, 60, false⟩
  | .glb_clock_cfg_overhead_mode => ⟨.glbClockCfg, 0, 0, .rs, 0, 0, 1, false⟩
  | .glb_clock_status_held_epochs => ⟨.glbClockStatus, 31, 24, .ro, 0, 0, 255, false⟩
  | .glb_clock_status_time_unset => ⟨.glbClockStatus, 2, 2, .ro, 1, 0, 1, false⟩
  | .glb_clock_status_merging => ⟨.glbClockStatus, 1, 1, .ro, 0, 0, 1, false⟩
  | .glb_clock_status_energy_estimated => ⟨.glbClockStatus, 0, 0, .ro, 0, 0, 1, false⟩
  | .glb_clock_epoch_epoch => ⟨.glbClockEpoch, 31, 0, .ro, 0, 0, 4294967295, false⟩
  | .glb_board_time_board_time => ⟨.glbBoardTime, 63, 0, .rl, 0, 0, 18446744073709551615, false⟩
  | .map_cfg_l0_frames => ⟨.mapCfg, 19, 8, .rw, 0x400, 256, 2048, true⟩
  | .map_cfg_prefetch_en => ⟨.mapCfg, 1, 1, .rl, 1, 0, 1, false⟩
  | .map_cfg_map_enable => ⟨.mapCfg, 0, 0, .rw, 0, 0, 1, false⟩
  | .map_status_cfg_err => ⟨.mapStatus, 31, 31, .w1c, 0, 0, 1, false⟩
  | .map_status_adopting => ⟨.mapStatus, 30, 30, .ro, 0, 0, 1, false⟩
  | .map_status_replaying => ⟨.mapStatus, 29, 29, .ro, 0, 0, 1, false⟩
  | .map_status_slot_away => ⟨.mapStatus, 28, 28, .ro, 0, 0, 1, false⟩
  | .map_status_dirty_pct => ⟨.mapStatus, 7, 0, .ro, 0, 0, 255, false⟩
  | .map_dir_cfg_dir_gib => ⟨.mapDirCfg, 7, 0, .rw, 0, 0, 255, true⟩
  | .map_l1_cfg_l1_gib => ⟨.mapL1Cfg, 7, 0, .rw, 0, 0, 255, true⟩
  | .map_paging_dirty_max_pct => ⟨.mapPaging, 23, 16, .rs, 25, 5, 75, false⟩
  | .map_paging_journal_window_mib => ⟨.mapPaging, 15, 0, .rs, 0x100, 16, 1024, false⟩
  | .map_slot_map_slot_holder => ⟨.mapSlotMap, 31, 0, .ro, 0x76543210, 0, 4294967295, false⟩
  | .map_dirty_dirty_frames => ⟨.mapDirty, 25, 0, .ro, 0, 0, 67108863, false⟩
  | .map_l0_hits_count => ⟨.mapL0Hits, 63, 0, .ro, 0, 0, 18446744073709551615, false⟩
  | .map_l1_hits_count => ⟨.mapL1Hits, 63, 0, .ro, 0, 0, 18446744073709551615, false⟩
  | .map_l2_fetches_count => ⟨.mapL2Fetches, 63, 0, .ro, 0, 0, 18446744073709551615, false⟩
  | .plc_cfg_zero_detect => ⟨.plcCfg, 8, 8, .rs, 1, 0, 1, false⟩
  | .plc_cfg_plc_enable => ⟨.plcCfg, 0, 0, .rw, 0, 0, 1, false⟩
  | .plc_status_cfg_err => ⟨.plcStatus, 31, 31, .w1c, 0, 0, 1, false⟩
  | .plc_status_write_through => ⟨.plcStatus, 30, 30, .ro, 0, 0, 1, false⟩
  | .plc_status_credit_full => ⟨.plcStatus, 29, 29, .ro, 0, 0, 1, false⟩
  | .plc_status_slc_closed => ⟨.plcStatus, 28, 28, .ro, 0, 0, 1, false⟩
  | .plc_status_rows_filling => ⟨.plcStatus, 15, 0, .ro, 0, 0, 65535, false⟩
  | .plc_row_cfg_wt_row_us => ⟨.plcRowCfg, 29, 16, .rs, 50, 20, 1000, false⟩
  | .plc_row_cfg_row_timer_us => ⟨.plcRowCfg, 13, 0, .rs, 200, 20, 10000, false⟩
  | .plc_groups_active_groups => ⟨.plcGroups, 8, 0, .rs, 64, 8, 256, false⟩
  | .plc_slc_cfg_slc_direct_pct => ⟨.plcSlcCfg, 23, 16, .rs, 90, 50, 100, false⟩
  | .plc_slc_cfg_slc_resume_pct => ⟨.plcSlcCfg, 15, 8, .rs, 80, 10, 100, false⟩
  | .plc_slc_cfg_promote_start_pct => ⟨.plcSlcCfg, 7, 0, .rs, 25, 0, 100, false⟩
  | .plc_stage_cfg_stage_dram_mib => ⟨.plcStageCfg, 31, 16, .rw, 0x400, 0, 6144, true⟩
  | .plc_stage_cfg_stage_sram_mib => ⟨.plcStageCfg, 3, 0, .rw, 4, 1, 8, true⟩
  | .plc_prog_budget_prog_dies_max => ⟨.plcProgBudget, 7, 0, .rs, 64, 8, 255, false⟩
  | .plc_staged_staged_kib => ⟨.plcStaged, 31, 0, .ro, 0, 0, 4294967295, false⟩
  | .plc_wseq_wseq_next => ⟨.plcWseq, 47, 0, .ro, 0, 0, 281474976710655, false⟩
  | .plc_pad_grains_count => ⟨.plcPadGrains, 63, 0, .ro, 0, 0, 18446744073709551615, false⟩
  | .plc_promoted_count => ⟨.plcPromoted, 63, 0, .ro, 0, 0, 18446744073709551615, false⟩
  | .rcl_cfg_spare_pct => ⟨.rclCfg, 15, 8, .rw, 2, 1, 10, true⟩
  | .rcl_cfg_idle_reclaim => ⟨.rclCfg, 1, 1, .rs, 1, 0, 1, false⟩
  | .rcl_cfg_rcl_enable => ⟨.rclCfg, 0, 0, .rw, 0, 0, 1, false⟩
  | .rcl_status_cfg_err => ⟨.rclStatus, 31, 31, .w1c, 0, 0, 1, false⟩
  | .rcl_status_census_done => ⟨.rclStatus, 30, 30, .ro, 0, 0, 1, false⟩
  | .rcl_status_summaries_ready => ⟨.rclStatus, 29, 29, .ro, 0, 0, 1, false⟩
  | .rcl_status_stalemate => ⟨.rclStatus, 28, 28, .ro, 0, 0, 1, false⟩
  | .rcl_status_castling => ⟨.rclStatus, 27, 27, .ro, 0, 0, 1, false⟩
  | .rcl_status_sweeps_active => ⟨.rclStatus, 4, 0, .ro, 0, 0, 31, false⟩
  | .rcl_thresh_rcl_start_bands => ⟨.rclThresh, 15, 8, .rs, 16, 2, 255, false⟩
  | .rcl_thresh_endgame_bands => ⟨.rclThresh, 3, 0, .rs, 2, 1, 8, false⟩
  | .rcl_score_idle_u_pct => ⟨.rclScore, 15, 8, .rs, 10, 0, 50, false⟩
  | .rcl_score_age_weight => ⟨.rclScore, 3, 0, .rs, 3, 0, 15, false⟩
  | .rcl_castle_slc_wear_units => ⟨.rclCastle, 19, 16, .rs, 2, 1, 16, false⟩
  | .rcl_castle_castle_limit => ⟨.rclCastle, 10, 0, .rs, 0x12c, 50, 2000, false⟩
  | .rcl_blank_blank_fail_max => ⟨.rclBlank, 9, 0, .rs, 32, 0, 1023, false⟩
  | .rcl_secure_secure_sync_tib => ⟨.rclSecure, 7, 0, .rs, 32, 1, 128, false⟩
  | .rcl_grp_sel_sg => ⟨.rclGrpSel, 9, 0, .rl, 0, 0, 1023, false⟩
  | .rcl_grp_bands_sealed_bands => ⟨.rclGrpBands, 31, 16, .ro, 0, 0, 65535, false⟩
  | .rcl_grp_bands_free_bands => ⟨.rclGrpBands, 15, 0, .ro, 0, 0, 65535, false⟩
  | .rcl_grp_wear_max_wear_max => ⟨.rclGrpWearMax, 23, 0, .ro, 0, 0, 16777215, false⟩
  | .rcl_grp_wear_min_wear_min => ⟨.rclGrpWearMin, 23, 0, .ro, 0, 0, 16777215, false⟩
  | .rcl_grp_state_no_gain => ⟨.rclGrpState, 31, 31, .ro, 0, 0, 1, false⟩
  | .rcl_grp_state_stalemate => ⟨.rclGrpState, 30, 30, .ro, 0, 0, 1, false⟩
  | .rcl_grp_state_demand_pct => ⟨.rclGrpState, 7, 0, .ro, 0, 0, 255, false⟩
  | .rcl_reloc_grains_count => ⟨.rclRelocGrains, 63, 0, .ro, 0, 0, 18446744073709551615, false⟩
  | .rcl_erases_count => ⟨.rclErases, 63, 0, .ro, 0, 0, 18446744073709551615, false⟩
  | .med_cfg_patrol_en => ⟨.medCfg, 2, 2, .rs, 1, 0, 1, false⟩
  | .med_cfg_ext_mode_en => ⟨.medCfg, 1, 1, .rw, 1, 0, 1, true⟩
  | .med_cfg_med_enable => ⟨.medCfg, 0, 0, .rw, 0, 0, 1, false⟩
  | .med_status_cfg_err => ⟨.medStatus, 31, 31, .w1c, 0, 0, 1, false⟩
  | .med_status_desc_mismatch => ⟨.medStatus, 30, 30, .ro, 0, 0, 1, false⟩
  | .med_status_training => ⟨.medStatus, 29, 29, .ro, 0, 0, 1, false⟩
  | .med_status_ch_failed => ⟨.medStatus, 23, 16, .ro, 0, 0, 255, false⟩
  | .med_status_ch_degraded => ⟨.medStatus, 15, 8, .ro, 0, 0, 255, false⟩
  | .med_status_ch_up => ⟨.medStatus, 7, 0, .ro, 0, 0, 255, false⟩
  | .med_desc_idx_word => ⟨.medDescIdx, 6, 0, .rl, 0, 0, 127, false⟩
  | .med_desc_data_data => ⟨.medDescData, 31, 0, .rw, 0, 0, 4294967295, true⟩
  | .med_ch_sel_ch => ⟨.medChSel, 2, 0, .rl, 0, 0, 7, false⟩
  | .med_ch_cfg_rate_max => ⟨.medChCfg, 11, 8, .rw, 8, 1, 8, true⟩
  | .med_ch_cfg_rep_latency => ⟨.medChCfg, 7, 3, .rw, 0, 0, 16, true⟩
  | .med_ch_cfg_topology => ⟨.medChCfg, 1, 0, .rw, 0, 0, 2, true⟩
  | .med_ch_vols_vols_present => ⟨.medChVols, 31, 0, .rw, 0, 0, 4294967295, true⟩
  | .med_ch_status_state => ⟨.medChStatus, 31, 28, .ro, 0, 0, 15, false⟩
  | .med_ch_status_rate_now => ⟨.medChStatus, 27, 24, .ro, 0, 0, 15, false⟩
  | .med_ch_status_margin_min => ⟨.medChStatus, 23, 16, .ro, 0, 0, 255, false⟩
  | .med_ch_status_rate_downs => ⟨.medChStatus, 15, 8, .ro, 0, 0, 255, false⟩
  | .med_ch_status_dies_failed => ⟨.medChStatus, 7, 0, .ro, 0, 0, 255, false⟩
  | .med_track_margin_min => ⟨.medTrack, 15, 8, .rs, 38, 16, 96, false⟩
  | .med_track_track_ms => ⟨.medTrack, 7, 0, .rs, 1, 1, 100, false⟩
  | .med_suspend_seq_pad_us => ⟨.medSuspend, 31, 16, .rs, 0x7d0, 200, 20000, false⟩
  | .med_suspend_resume_min_us => ⟨.medSuspend, 12, 0, .rs, 200, 0, 5000, false⟩
  | .med_patrol_refresh_bits => ⟨.medPatrol, 31, 16, .rs, 100, 16, 400, false⟩
  | .med_patrol_patrol_days => ⟨.medPatrol, 4, 0, .rs, 7, 2, 30, false⟩
  | .med_disturb_disturb_k => ⟨.medDisturb, 15, 0, .rs, 100, 10, 1000, false⟩
  | .med_patrol_pages_count => ⟨.medPatrolPages, 63, 0, .ro, 0, 0, 18446744073709551615, false⟩
  | .ldpc_cfg_soft_bits => ⟨.ldpcCfg, 9, 8, .rs, 3, 2, 3, false⟩
  | .ldpc_cfg_retry_max => ⟨.ldpcCfg, 4, 0, .rs, 4, 0, 16, false⟩
  | .ldpc_base_idx_entry => ⟨.ldpcBaseIdx, 13, 0, .rl, 0, 0, 16383, false⟩
  | .ldpc_base_data_present => ⟨.ldpcBaseData, 7, 7, .ro, 0, 0, 1, false⟩
  | .ldpc_base_data_shift => ⟨.ldpcBaseData, 6, 0, .ro, 0, 0, 127, false⟩
  | .ldpc_hard_count => ⟨.ldpcHard, 63, 0, .ro, 0, 0, 18446744073709551615, false⟩
  | .ldpc_retry_count => ⟨.ldpcRetry, 63, 0, .ro, 0, 0, 18446744073709551615, false⟩
  | .ldpc_soft_count => ⟨.ldpcSoft, 63, 0, .ro, 0, 0, 18446744073709551615, false⟩
  | .ldpc_fail_count => ⟨.ldpcFail, 63, 0, .ro, 0, 0, 18446744073709551615, false⟩
  | .red_cfg_tile_safe_groups => ⟨.redCfg, 26, 16, .rw, 0x7ff, 0, 2047, true⟩
  | .red_cfg_spare_keep => ⟨.redCfg, 15, 8, .rs, 8, 0, 64, false⟩
  | .red_cfg_sj_sram_kib => ⟨.redCfg, 7, 4, .rw, 4, 2, 15, true⟩
  | .red_cfg_parity_check_en => ⟨.redCfg, 2, 2, .rs, 1, 0, 1, false⟩
  | .red_cfg_red_enable => ⟨.redCfg, 0, 0, .rw, 0, 0, 1, false⟩
  | .red_status_cfg_err => ⟨.redStatus, 31, 31, .w1c, 0, 0, 1, false⟩
  | .red_status_sj_single => ⟨.redStatus, 30, 30, .ro, 0, 0, 1, false⟩
  | .red_status_sj_copy_short => ⟨.redStatus, 29, 29, .ro, 0, 0, 1, false⟩
  | .red_status_rebuild_stalled => ⟨.redStatus, 28, 28, .ro, 0, 0, 1, false⟩
  | .red_status_groups_not_optimal => ⟨.redStatus, 10, 0, .ro, 0, 0, 2047, false⟩
  | .red_rebuild_subst_shared_ch => ⟨.redRebuild, 23, 16, .ro, 0, 0, 255, false⟩
  | .red_rebuild_rebuild_reclaim_pct => ⟨.redRebuild, 15, 8, .rs, 30, 0, 90, false⟩
  | .red_rebuild_rebuild_floor_pct => ⟨.redRebuild, 5, 0, .rs, 5, 1, 50, false⟩
  | .red_verify_verify_start => ⟨.redVerify, 31, 31, .wo, 0, 0, 1, false⟩
  | .red_verify_verify_sg => ⟨.redVerify, 9, 0, .rl, 0, 0, 1023, false⟩
  | .red_verify_status_verify_busy => ⟨.redVerifyStatus, 31, 31, .ro, 0, 0, 1, false⟩
  | .red_verify_status_verify_done => ⟨.redVerifyStatus, 30, 30, .w1c, 0, 0, 1, false⟩
  | .red_verify_status_verify_mismatch => ⟨.redVerifyStatus, 15, 0, .ro, 0, 0, 65535, false⟩
  | .red_grp_sel_sg => ⟨.redGrpSel, 9, 0, .rl, 0, 0, 1023, false⟩
  | .red_grp_state_state => ⟨.redGrpState, 31, 28, .ro, 0, 0, 15, false⟩
  | .red_grp_state_geometry => ⟨.redGrpState, 27, 27, .ro, 0, 0, 1, false⟩
  | .red_grp_state_lost_members => ⟨.redGrpState, 15, 0, .ro, 0, 0, 65535, false⟩
  | .red_grp_heal_bands_unhealed => ⟨.redGrpHeal, 31, 16, .ro, 0, 0, 65535, false⟩
  | .red_grp_heal_bands_healed => ⟨.redGrpHeal, 15, 0, .ro, 0, 0, 65535, false⟩
  | .red_recon_count => ⟨.redRecon, 63, 0, .ro, 0, 0, 18446744073709551615, false⟩
  | .red_parity_cmp_count => ⟨.redParityCmp, 63, 0, .ro, 0, 0, 18446744073709551615, false⟩
  | .red_parity_events_mismatches => ⟨.redParityEvents, 31, 16, .ro, 0, 0, 65535, false⟩
  | .red_parity_events_parity_skipped => ⟨.redParityEvents, 15, 0, .ro, 0, 0, 65535, false⟩
  | .plp_cfg_dump_dies_ch => ⟨.plpCfg, 20, 16, .rw, 10, 1, 32, true⟩
  | .plp_cfg_seal_blocks => ⟨.plpCfg, 11, 8, .rw, 1, 1, 8, true⟩
  | .plp_cfg_plp_enable => ⟨.plpCfg, 0, 0, .rw, 0, 0, 1, false⟩
  | .plp_status_cfg_err => ⟨.plpStatus, 31, 31, .w1c, 0, 0, 1, false⟩
  | .plp_status_write_through => ⟨.plpStatus, 30, 30, .ro, 1, 0, 1, false⟩
  | .plp_status_bank_present => ⟨.plpStatus, 29, 29, .ro, 0, 0, 1, false⟩
  | .plp_status_test_running => ⟨.plpStatus, 28, 28, .ro, 0, 0, 1, false⟩
  | .plp_status_throttling => ⟨.plpStatus, 27, 27, .ro, 0, 0, 1, false⟩
  | .plp_status_dump_held => ⟨.plpStatus, 26, 26, .ro, 0, 0, 1, false⟩
  | .plp_status_bank_safe => ⟨.plpStatus, 25, 25, .ro, 0, 0, 1, false⟩
  | .plp_status_off_ready => ⟨.plpStatus, 24, 24, .ro, 0, 0, 1, false⟩
  | .plp_status_warn => ⟨.plpStatus, 23, 23, .ro, 0, 0, 1, false⟩
  | .plp_status_wt_cause => ⟨.plpStatus, 19, 16, .ro, 1, 0, 15, false⟩
  | .plp_sense_hsense_ratio => ⟨.plpSense, 27, 16, .rw, 0x280, 16, 4095, true⟩
  | .plp_sense_vsense_ratio => ⟨.plpSense, 11, 0, .rw, 200, 16, 4095, true⟩
  | .plp_thresh_warn_mv => ⟨.plpThresh, 31, 16, .rs, 0x2c88, 0, 12000, false⟩
  | .plp_thresh_pfail_mv => ⟨.plpThresh, 15, 0, .rs, 0x2a30, 9000, 11800, false⟩
  | .plp_bank_vmin_mv => ⟨.plpBank, 31, 16, .rs, 0x2ee0, 0, 30000, false⟩
  | .plp_bank_pfail_filt_ns => ⟨.plpBank, 9, 0, .rs, 0x1f4, 0, 1000, false⟩
  | .plp_test_cfg_test_hours => ⟨.plpTestCfg, 31, 24, .rs, 24, 1, 168, false⟩
  | .plp_test_cfg_rtest_ohm => ⟨.plpTestCfg, 23, 12, .rw, 100, 10, 4000, true⟩
  | .plp_test_cfg_test_drop_mv => ⟨.plpTestCfg, 11, 0, .rs, 0x7d0, 500, 4000, false⟩
  | .plp_test_limit_cap_min => ⟨.plpTestLimit, 31, 16, .rs, 50, 1, 65535, false⟩
  | .plp_test_limit_esr_max_mohm => ⟨.plpTestLimit, 15, 0, .rs, 100, 1, 65535, false⟩
  | .plp_test_result_result => ⟨.plpTestResult, 31, 28, .ro, 0, 0, 15, false⟩
  | .plp_test_result_esr_mohm => ⟨.plpTestResult, 27, 16, .ro, 0, 0, 4095, false⟩
  | .plp_test_result_cap => ⟨.plpTestResult, 15, 0, .ro, 0, 0, 65535, false⟩
  | .plp_bank_v_budget_mv => ⟨.plpBankV, 31, 16, .ro, 0, 0, 65535, false⟩
  | .plp_bank_v_bank_mv => ⟨.plpBankV, 15, 0, .ro, 0, 0, 65535, false⟩
  | .plp_limit_mib => ⟨.plpLimit, 31, 0, .ro, 0, 0, 4294967295, false⟩
  | .plp_staged_total_mib => ⟨.plpStagedTotal, 31, 0, .ro, 0, 0, 4294967295, false⟩
  | .plp_ctrl_prepare_off => ⟨.plpCtrl, 2, 2, .wo, 0, 0, 1, false⟩
  | .plp_ctrl_bank_release => ⟨.plpCtrl, 1, 1, .wo, 0, 0, 1, false⟩
  | .plp_ctrl_test_now => ⟨.plpCtrl, 0, 0, .wo, 0, 0, 1, false⟩
  | .plp_last_dump_incomplete => ⟨.plpLastDump, 31, 31, .ro, 0, 0, 1, false⟩
  | .plp_last_dump_dump_us => ⟨.plpLastDump, 23, 0, .ro, 0, 0, 16777215, false⟩
  | .plp_last_dump_mib_dumped_mib => ⟨.plpLastDumpMib, 31, 0, .ro, 0, 0, 4294967295, false⟩
  | .bpm_cfg_spill => ⟨.bpmCfg, 13, 8, .rl, 0, 0, 63, false⟩
  | .bpm_cfg_bpm_enable => ⟨.bpmCfg, 0, 0, .rw, 0, 0, 1, false⟩
  | .bpm_status_cfg_err => ⟨.bpmStatus, 31, 31, .w1c, 0, 0, 1, false⟩
  | .bpm_status_resetting => ⟨.bpmStatus, 21, 16, .ro, 0, 0, 63, false⟩
  | .bpm_status_quarantined => ⟨.bpmStatus, 13, 8, .ro, 0, 0, 63, false⟩
  | .bpm_status_empty => ⟨.bpmStatus, 5, 0, .ro, 0, 0, 63, false⟩
  | .bpm_area_used_kib => ⟨.bpmArea, 31, 16, .ro, 0x3000, 0, 65535, false⟩
  | .bpm_area_area_kib => ⟨.bpmArea, 15, 0, .ro, 0x3000, 0, 65535, false⟩
  | .bpm_reset_pool_reset => ⟨.bpmReset, 5, 0, .wo, 0, 0, 63, false⟩
  | .bpm_pool_cfg_urgent_rsv => ⟨.bpmPoolCfg, 31, 24, .rs, 0, 0, 255, false⟩
  | .bpm_pool_cfg_count => ⟨.bpmPoolCfg, 17, 0, .rw, 0, 0, 262143, true⟩
  | .bpm_pool_free_free_count => ⟨.bpmPoolFree, 17, 0, .ro, 0, 0, 262143, false⟩
  | .bpm_bad_free_bad_frees => ⟨.bpmBadFree, 15, 0, .ro, 0, 0, 65535, false⟩
  | .bpm_empty_count => ⟨.bpmEmpty, 63, 0, .ro, 0, 0, 18446744073709551615, false⟩
  | .bpm_spills_count => ⟨.bpmSpills, 63, 0, .ro, 0, 0, 18446744073709551615, false⟩
  | .cmp_cfg_stream_timeout_ms => ⟨.cmpCfg, 31, 16, .rs, 0x3e8, 1, 65535, false⟩
  | .cmp_cfg_cmp_enable => ⟨.cmpCfg, 0, 0, .rw, 0, 0, 1, false⟩
  | .cmp_status_cfg_err => ⟨.cmpStatus, 31, 31, .w1c, 0, 0, 1, false⟩
  | .cmp_status_adj_d => ⟨.cmpStatus, 17, 17, .ro, 0, 0, 1, false⟩
  | .cmp_status_adj_c => ⟨.cmpStatus, 16, 16, .ro, 0, 0, 1, false⟩
  | .cmp_status_slots_busy => ⟨.cmpStatus, 7, 0, .ro, 0, 0, 255, false⟩
  | .cmp_errors_stream_errors => ⟨.cmpErrors, 31, 16, .ro, 0, 0, 65535, false⟩
  | .cmp_errors_refusals => ⟨.cmpErrors, 15, 0, .ro, 0, 0, 65535, false⟩
  | .cmp_in_bytes_count => ⟨.cmpInBytes, 63, 0, .ro, 0, 0, 18446744073709551615, false⟩
  | .cmp_out_bytes_count => ⟨.cmpOutBytes, 63, 0, .ro, 0, 0, 18446744073709551615, false⟩
  | .cmp_adjourns_count => ⟨.cmpAdjourns, 63, 0, .ro, 0, 0, 18446744073709551615, false⟩
  | .cry_cfg_cry_enable => ⟨.cryCfg, 0, 0, .rw, 0, 0, 1, false⟩
  | .cry_status_cfg_err => ⟨.cryStatus, 31, 31, .w1c, 0, 0, 1, false⟩
  | .cry_status_self_test_fail => ⟨.cryStatus, 30, 30, .ro, 0, 0, 1, false⟩
  | .cry_status_reloading => ⟨.cryStatus, 29, 29, .ro, 0, 0, 1, false⟩
  | .cry_status_lanes_up => ⟨.cryStatus, 23, 20, .ro, 15, 0, 15, false⟩
  | .cry_status_slots_loaded => ⟨.cryStatus, 13, 0, .ro, 0, 0, 16383, false⟩
  | .cry_slot_sel_slot => ⟨.crySlotSel, 12, 0, .rl, 0, 0, 8191, false⟩
  | .cry_slot_state_loaded => ⟨.crySlotState, 31, 31, .ro, 0, 0, 1, false⟩
  | .cry_slot_state_zeroise_fail => ⟨.crySlotState, 30, 30, .ro, 0, 0, 1, false⟩
  | .cry_slot_state_key_gen => ⟨.crySlotState, 19, 16, .ro, 0, 0, 15, false⟩
  | .cry_errors_unwrap_fail => ⟨.cryErrors, 31, 16, .ro, 0, 0, 65535, false⟩
  | .cry_errors_stale_jobs => ⟨.cryErrors, 15, 0, .ro, 0, 0, 65535, false⟩
  | .cry_units_count => ⟨.cryUnits, 63, 0, .ro, 0, 0, 18446744073709551615, false⟩
  | .dig_cfg_snoop_rsv => ⟨.digCfg, 2, 0, .rs, 2, 0, 4, false⟩
  | .dig_status_vfy_busy => ⟨.digStatus, 24, 24, .ro, 0, 0, 1, false⟩
  | .dig_status_ctx_finished => ⟨.digStatus, 23, 16, .ro, 0, 0, 255, false⟩
  | .dig_status_ctx_bound => ⟨.digStatus, 15, 8, .ro, 0, 0, 255, false⟩
  | .dig_status_ctx_busy => ⟨.digStatus, 7, 0, .ro, 0, 0, 255, false⟩
  | .dig_results_not_equal => ⟨.digResults, 31, 16, .ro, 0, 0, 65535, false⟩
  | .dig_results_busy_refusals => ⟨.digResults, 15, 0, .ro, 0, 0, 65535, false⟩
  | .dig_vfy_status_last_result => ⟨.digVfyStatus, 31, 30, .ro, 0, 0, 3, false⟩
  | .dig_vfy_status_verifies => ⟨.digVfyStatus, 15, 0, .ro, 0, 0, 65535, false⟩
  | .dig_fuse_id_row_ok => ⟨.digFuse, 11, 11, .ro, 0, 0, 1, false⟩
  | .dig_fuse_root_programmed => ⟨.digFuse, 10, 10, .ro, 0, 0, 1, false⟩
  | .dig_fuse_key_revoked => ⟨.digFuse, 7, 4, .ro, 0, 0, 15, false⟩
  | .dig_fuse_key_present => ⟨.digFuse, 3, 0, .ro, 0, 0, 15, false⟩
  | .dig_fuse_floor_security_floor => ⟨.digFuseFloor, 31, 0, .ro, 0, 0, 4294967295, false⟩
  | .dig_fuse_idx_word => ⟨.digFuseIdx, 3, 0, .rl, 0, 0, 15, false⟩
  | .dig_fuse_data_data => ⟨.digFuseData, 31, 0, .ro, 0, 0, 4294967295, false⟩
  | .dig_bytes_count => ⟨.digBytes, 63, 0, .ro, 0, 0, 18446744073709551615, false⟩
  | .drc_cfg_rate_max => ⟨.drcCfg, 25, 24, .rw, 3, 0, 3, true⟩
  | .drc_cfg_density => ⟨.drcCfg, 21, 20, .rw, 2, 0, 2, true⟩
  | .drc_cfg_dev_width => ⟨.drcCfg, 18, 18, .rw, 0, 0, 1, true⟩
  | .drc_cfg_ranks => ⟨.drcCfg, 16, 16, .rw, 1, 0, 1, true⟩
  | .drc_cfg_wcrc_en => ⟨.drcCfg, 2, 2, .rw, 1, 0, 1, true⟩
  | .drc_cfg_scrub_en => ⟨.drcCfg, 1, 1, .rs, 1, 0, 1, false⟩
  | .drc_cfg_drc_enable => ⟨.drcCfg, 0, 0, .rw, 0, 0, 1, false⟩
  | .drc_status_cfg_err => ⟨.drcStatus, 31, 31, .w1c, 0, 0, 1, false⟩
  | .drc_status_frozen => ⟨.drcStatus, 30, 30, .ro, 0, 0, 1, false⟩
  | .drc_status_ready => ⟨.drcStatus, 29, 29, .ro, 0, 0, 1, false⟩
  | .drc_status_training => ⟨.drcStatus, 28, 28, .ro, 0, 0, 1, false⟩
  | .drc_status_hot => ⟨.drcStatus, 27, 27, .ro, 0, 0, 1, false⟩
  | .drc_status_cap_read => ⟨.drcStatus, 26, 26, .ro, 0, 0, 1, false⟩
  | .drc_status_cfg_mismatch => ⟨.drcStatus, 25, 25, .ro, 0, 0, 1, false⟩
  | .drc_status_overtemp => ⟨.drcStatus, 24, 24, .ro, 0, 0, 1, false⟩
  | .drc_status_rate_now => ⟨.drcStatus, 17, 16, .ro, 0, 0, 3, false⟩
  | .drc_status_capacity_gib => ⟨.drcStatus, 7, 0, .ro, 0, 0, 255, false⟩
  | .drc_policy_pd_timer_ns => ⟨.drcPolicy, 31, 16, .rs, 0x3e8, 0, 65535, false⟩
  | .drc_policy_page_idle_ns => ⟨.drcPolicy, 15, 4, .rs, 200, 0, 4095, false⟩
  | .drc_policy_hit_thresh => ⟨.drcPolicy, 2, 0, .rs, 2, 1, 4, false⟩
  | .drc_refresh_temp_poll_ms => ⟨.drcRefresh, 23, 16, .rs, 4, 1, 32, false⟩
  | .drc_refresh_debt => ⟨.drcRefresh, 11, 8, .ro, 0, 0, 15, false⟩
  | .drc_refresh_postpone_max => ⟨.drcRefresh, 2, 0, .rs, 4, 0, 4, false⟩
  | .drc_train_margin_min => ⟨.drcTrain, 15, 8, .rs, 32, 8, 96, false⟩
  | .drc_train_retrain_ms => ⟨.drcTrain, 7, 0, .rs, 10, 1, 100, false⟩
  | .drc_margin_wr_margin => ⟨.drcMargin, 15, 8, .ro, 0, 0, 255, false⟩
  | .drc_margin_rd_margin => ⟨.drcMargin, 7, 0, .ro, 0, 0, 255, false⟩
  | .drc_scrub_scrub_hours => ⟨.drcScrub, 7, 0, .rs, 24, 1, 168, false⟩
  | .drc_ctrl_drc_restart => ⟨.drcCtrl, 0, 0, .wo, 0, 0, 1, false⟩
  | .drc_errors_freezes => ⟨.drcErrors, 31, 16, .ro, 0, 0, 65535, false⟩
  | .drc_errors_alerts => ⟨.drcErrors, 15, 0, .ro, 0, 0, 65535, false⟩
  | .drc_cap_status_cause => ⟨.drcCapStatus, 31, 28, .ro, 0, 0, 15, false⟩
  | .drc_cap_status_subch => ⟨.drcCapStatus, 27, 27, .ro, 0, 0, 1, false⟩
  | .drc_cap_status_rank => ⟨.drcCapStatus, 26, 26, .ro, 0, 0, 1, false⟩
  | .drc_cap_status_further => ⟨.drcCapStatus, 23, 16, .ro, 0, 0, 255, false⟩
  | .drc_cap_status_bad_symbols => ⟨.drcCapStatus, 15, 8, .ro, 0, 0, 255, false⟩
  | .drc_cap_status_class => ⟨.drcCapStatus, 7, 0, .ro, 0, 0, 255, false⟩
  | .drc_cap_addr_bank_group => ⟨.drcCapAddr, 31, 29, .ro, 0, 0, 7, false⟩
  | .drc_cap_addr_bank => ⟨.drcCapAddr, 28, 27, .ro, 0, 0, 3, false⟩
  | .drc_cap_addr_row => ⟨.drcCapAddr, 17, 0, .ro, 0, 0, 262143, false⟩
  | .drc_cap_col_column => ⟨.drcCapCol, 10, 0, .ro, 0, 0, 2047, false⟩
  | .drc_cap_time_minutes => ⟨.drcCapTime, 31, 0, .ro, 0, 0, 4294967295, false⟩
  | .drc_cap_synd_syndrome => ⟨.drcCapSynd, 31, 0, .ro, 0, 0, 4294967295, false⟩
  | .drc_ce_ce_count => ⟨.drcCe, 63, 0, .ro, 0, 0, 18446744073709551615, false⟩
  | .thm_cfg_rate_limit => ⟨.thmCfg, 23, 16, .rs, 16, 4, 80, false⟩
  | .thm_cfg_hyst_c => ⟨.thmCfg, 11, 8, .rs, 3, 1, 10, false⟩
  | .thm_status_cfg_err => ⟨.thmStatus, 31, 31, .w1c, 0, 0, 1, false⟩
  | .thm_status_fenced => ⟨.thmStatus, 30, 30, .ro, 0, 0, 1, false⟩
  | .thm_status_warn => ⟨.thmStatus, 29, 29, .ro, 0, 0, 1, false⟩
  | .thm_status_sensor_fault => ⟨.thmStatus, 28, 20, .ro, 0, 0, 511, false⟩
  | .thm_status_rate_trig => ⟨.thmStatus, 11, 11, .ro, 0, 0, 1, false⟩
  | .thm_status_abs_trig => ⟨.thmStatus, 10, 10, .ro, 0, 0, 1, false⟩
  | .thm_status_fault_trig => ⟨.thmStatus, 9, 9, .ro, 0, 0, 1, false⟩
  | .thm_status_power_trig => ⟨.thmStatus, 8, 8, .ro, 0, 0, 1, false⟩
  | .thm_status_level => ⟨.thmStatus, 2, 0, .ro, 0, 0, 7, false⟩
  | .thm_sel_sensor => ⟨.thmSel, 3, 0, .rl, 0, 0, 15, false⟩
  | .thm_sensor_fault => ⟨.thmSensor, 31, 31, .ro, 0, 0, 1, false⟩
  | .thm_sensor_peak => ⟨.thmSensor, 27, 16, .ro, 0, 0, 4095, false⟩
  | .thm_sensor_temp => ⟨.thmSensor, 11, 0, .ro, 0, 0, 4095, false⟩
  | .thm_limits_critical_c => ⟨.thmLimits, 23, 16, .rs, 115, 0, 125, false⟩
  | .thm_limits_throttle_c => ⟨.thmLimits, 15, 8, .rs, 105, 0, 255, false⟩
  | .thm_limits_warn_c => ⟨.thmLimits, 7, 0, .rs, 100, 60, 255, false⟩
  | .thm_hist_idx_bin => ⟨.thmHistIdx, 3, 0, .rl, 0, 0, 15, false⟩
  | .thm_hist_data_minutes => ⟨.thmHistData, 31, 0, .ro, 0, 0, 4294967295, false⟩
  | .clk_cfg_ref_revert => ⟨.clkCfg, 1, 1, .rs, 1, 0, 1, false⟩
  | .clk_cfg_ref_pref => ⟨.clkCfg, 0, 0, .rs, 0, 0, 1, false⟩
  | .clk_status_switches => ⟨.clkStatus, 31, 24, .ro, 0, 0, 255, false⟩
  | .clk_status_holdover => ⟨.clkStatus, 7, 7, .ro, 0, 0, 1, false⟩
  | .clk_status_eth_synth => ⟨.clkStatus, 6, 6, .ro, 0, 0, 1, false⟩
  | .clk_status_eth_ok => ⟨.clkStatus, 5, 5, .ro, 0, 0, 1, false⟩
  | .clk_status_active => ⟨.clkStatus, 4, 4, .ro, 0, 0, 1, false⟩
  | .clk_status_refb_ok => ⟨.clkStatus, 3, 3, .ro, 0, 0, 1, false⟩
  | .clk_status_refa_ok => ⟨.clkStatus, 2, 2, .ro, 0, 0, 1, false⟩
  | .clk_aon_aon_ppm => ⟨.clkAon, 15, 0, .ro, 0, 0, 65535, false⟩
  | .pwr_cfg_avs_enable => ⟨.pwrCfg, 2, 2, .rw, 0, 0, 1, false⟩
  | .pwr_cfg_deep_en => ⟨.pwrCfg, 1, 1, .rs, 0, 0, 1, false⟩
  | .pwr_cfg_light_en => ⟨.pwrCfg, 0, 0, .rs, 1, 0, 1, false⟩
  | .pwr_status_cfg_err => ⟨.pwrStatus, 31, 31, .w1c, 0, 0, 1, false⟩
  | .pwr_status_isense_fault => ⟨.pwrStatus, 30, 30, .ro, 0, 0, 1, false⟩
  | .pwr_status_pkg_state => ⟨.pwrStatus, 29, 28, .ro, 0, 0, 3, false⟩
  | .pwr_status_rail_fault => ⟨.pwrStatus, 15, 0, .ro, 0, 0, 65535, false⟩
  | .pwr_sleep_deep_idle_ms => ⟨.pwrSleep, 31, 16, .rs, 100, 10, 60000, false⟩
  | .pwr_sleep_deep_timer_s => ⟨.pwrSleep, 15, 8, .rs, 60, 10, 255, false⟩
  | .pwr_sleep_light_idle_us => ⟨.pwrSleep, 7, 0, .rs, 20, 2, 255, false⟩
  | .pwr_tile_state_state => ⟨.pwrTileState, 31, 0, .ro, 0, 0, 4294967295, false⟩
  | .pwr_dom_tile_dom_on => ⟨.pwrDomTile, 63, 0, .ro, 0, 0, 18446744073709551615, false⟩
  | .pwr_dom_pkg_dom_on => ⟨.pwrDomPkg, 5, 0, .ro, 9, 0, 63, false⟩
  | .pwr_power_measured => ⟨.pwrPower, 31, 16, .ro, 0, 0, 65535, false⟩
  | .pwr_power_estimated => ⟨.pwrPower, 15, 0, .ro, 0, 0, 65535, false⟩
  | .pwr_limit_pwr_limit_w => ⟨.pwrLimit, 7, 0, .rs, 0, 0, 255, false⟩
  | .pwr_rail_sel_rail => ⟨.pwrRailSel, 3, 0, .rl, 0, 0, 15, false⟩
  | .pwr_rail_cfg_vmax => ⟨.pwrRailCfg, 31, 24, .rw, 0, 0, 255, true⟩
  | .pwr_rail_cfg_vmin => ⟨.pwrRailCfg, 23, 16, .rw, 0, 0, 255, true⟩
  | .pwr_rail_cfg_pmb_addr => ⟨.pwrRailCfg, 15, 9, .rw, 0, 0, 127, true⟩
  | .pwr_rail_cfg_page => ⟨.pwrRailCfg, 8, 5, .rw, 0, 0, 15, true⟩
  | .pwr_rail_cfg_kind => ⟨.pwrRailCfg, 1, 0, .rw, 0, 0, 2, true⟩
  | .pwr_rail_status_fault => ⟨.pwrRailStatus, 31, 31, .ro, 0, 0, 1, false⟩
  | .pwr_rail_status_vset => ⟨.pwrRailStatus, 23, 16, .ro, 0, 0, 255, false⟩
  | .pwr_rail_status_status_word => ⟨.pwrRailStatus, 15, 0, .ro, 0, 0, 65535, false⟩
  | .evr_cfg_rate_period_s => ⟨.evrCfg, 23, 16, .rs, 10, 1, 255, false⟩
  | .evr_cfg_rate_burst => ⟨.evrCfg, 15, 8, .rs, 16, 1, 255, false⟩
  | .evr_cfg_log_min_sev => ⟨.evrCfg, 1, 0, .rs, 1, 0, 3, false⟩
  | .evr_status_cfg_err => ⟨.evrStatus, 31, 31, .w1c, 0, 0, 1, false⟩
  | .evr_status_fallback => ⟨.evrStatus, 30, 30, .ro, 0, 0, 1, false⟩
  | .evr_status_archive_fault => ⟨.evrStatus, 29, 29, .ro, 0, 0, 1, false⟩
  | .evr_status_unarchived => ⟨.evrStatus, 13, 0, .ro, 0, 0, 16383, false⟩
  | .evr_head_seq => ⟨.evrHead, 31, 0, .ro, 0, 0, 4294967295, false⟩
  | .evr_oldest_seq => ⟨.evrOldest, 31, 0, .ro, 0, 0, 4294967295, false⟩
  | .evr_archived_seq => ⟨.evrArchived, 31, 0, .ro, 0, 0, 4294967295, false⟩
  | .evr_cursor_cursor => ⟨.evrCursor, 31, 0, .rl, 0, 0, 4294967295, false⟩
  | .evr_win_status_fallback => ⟨.evrWinStatus, 4, 4, .ro, 0, 0, 1, false⟩
  | .evr_win_status_from_band => ⟨.evrWinStatus, 3, 3, .ro, 0, 0, 1, false⟩
  | .evr_win_status_pending => ⟨.evrWinStatus, 2, 2, .ro, 0, 0, 1, false⟩
  | .evr_win_status_gap => ⟨.evrWinStatus, 1, 1, .ro, 0, 0, 1, false⟩
  | .evr_win_status_valid => ⟨.evrWinStatus, 0, 0, .ro, 0, 0, 1, false⟩
  | .evr_win_seq_seq => ⟨.evrWinSeq, 31, 0, .ro, 0, 0, 4294967295, false⟩
  | .evr_win_data_data => ⟨.evrWinData, 31, 0, .ro, 0, 0, 4294967295, false⟩
  | .evr_drops_drops_hi => ⟨.evrDrops, 31, 16, .ro, 0, 0, 65535, false⟩
  | .evr_drops_drops_lo => ⟨.evrDrops, 15, 0, .ro, 0, 0, 65535, false⟩
  | .fwu_status_stage_state => ⟨.fwuStatus, 31, 28, .ro, 0, 0, 15, false⟩
  | .fwu_status_recovery_mode => ⟨.fwuStatus, 27, 27, .ro, 0, 0, 1, false⟩
  | .fwu_status_pending_start => ⟨.fwuStatus, 26, 26, .ro, 0, 0, 1, false⟩
  | .fwu_status_fallback => ⟨.fwuStatus, 25, 25, .ro, 0, 0, 1, false⟩
  | .fwu_status_boot_reason => ⟨.fwuStatus, 19, 16, .ro, 0, 0, 15, false⟩
  | .fwu_status_pieces_missing => ⟨.fwuStatus, 8, 0, .ro, 0, 0, 511, false⟩
  | .fwu_run_info_run_source => ⟨.fwuRunInfo, 31, 30, .ro, 0, 0, 3, false⟩
  | .fwu_run_info_floor => ⟨.fwuRunInfo, 13, 8, .ro, 0, 0, 63, false⟩
  | .fwu_run_info_run_security => ⟨.fwuRunInfo, 5, 0, .ro, 0, 0, 63, false⟩
  | .fwu_run_id_image_id => ⟨.fwuRunId, 63, 0, .ro, 0, 0, 18446744073709551615, false⟩
  | .fwu_staged_id_image_id => ⟨.fwuStagedId, 63, 0, .ro, 0, 0, 18446744073709551615, false⟩
  | .fwu_map_idx_word => ⟨.fwuMapIdx, 3, 0, .rl, 0, 0, 15, false⟩
  | .fwu_map_data_pieces => ⟨.fwuMapData, 31, 0, .ro, 0, 0, 4294967295, false⟩
  | .fwu_install_step => ⟨.fwuInstall, 31, 30, .ro, 0, 0, 3, false⟩
  | .fwu_install_sectors_total => ⟨.fwuInstall, 24, 16, .ro, 0, 0, 511, false⟩
  | .fwu_install_sectors_done => ⟨.fwuInstall, 8, 0, .ro, 0, 0, 511, false⟩
  | .fwu_ctrl_stage_clear => ⟨.fwuCtrl, 0, 0, .wo, 0, 0, 1, false⟩
  | .cfc_cfg_idle_off_ms => ⟨.cfcCfg, 15, 0, .rs, 10, 1, 1000, false⟩
  | .cfc_status_failed => ⟨.cfcStatus, 31, 31, .ro, 0, 0, 1, false⟩
  | .cfc_status_busy => ⟨.cfcStatus, 30, 30, .ro, 0, 0, 1, false⟩
  | .cfc_status_op => ⟨.cfcStatus, 29, 28, .ro, 0, 0, 3, false⟩
  | .cfc_status_powered => ⟨.cfcStatus, 27, 27, .ro, 0, 0, 1, false⟩
  | .cfc_status_stall_max_us => ⟨.cfcStatus, 15, 0, .ro, 0, 0, 65535, false⟩
  | .cfc_errors_op_fail => ⟨.cfcErrors, 31, 16, .ro, 0, 0, 65535, false⟩
  | .cfc_errors_read_uncorr => ⟨.cfcErrors, 15, 0, .ro, 0, 0, 65535, false⟩
  | .cfc_erase_max_sector => ⟨.cfcEraseMax, 31, 16, .ro, 0, 0, 65535, false⟩
  | .cfc_erase_max_erases => ⟨.cfcEraseMax, 15, 0, .ro, 0, 0, 65535, false⟩
  | .glb_id_stepping => ⟨.glbId, 31, 24, .ro, 162, 0, 255, false⟩
  | .glb_id_hw_type => ⟨.glbId, 23, 16, .ro, 0, 0, 255, false⟩
  | .glb_id_tile_map => ⟨.glbId, 15, 8, .ro, 0, 0, 255, false⟩
  | .glb_id_tiles_up => ⟨.glbId, 7, 0, .ro, 0, 0, 255, false⟩
  | .glb_status_boot_state => ⟨.glbStatus, 31, 30, .ro, 0, 0, 3, false⟩
  | .glb_status_fw_ready => ⟨.glbStatus, 29, 29, .ro, 0, 0, 1, false⟩
  | .glb_status_activation => ⟨.glbStatus, 28, 28, .ro, 0, 0, 1, false⟩
  | .glb_status_boot_reason => ⟨.glbStatus, 27, 24, .ro, 15, 0, 15, false⟩
  | .glb_status_primary => ⟨.glbStatus, 22, 20, .ro, 0, 0, 7, false⟩
  | .glb_status_standby => ⟨.glbStatus, 18, 16, .ro, 1, 0, 7, false⟩
  | .glb_status_tiles_fenced => ⟨.glbStatus, 15, 8, .ro, 0, 0, 255, false⟩
  | .glb_status_crit_warning => ⟨.glbStatus, 7, 0, .ro, 0, 0, 255, false⟩
  | .glb_serial_serial => ⟨.glbSerial, 31, 0, .ro, 0, 0, 4294967295, false⟩
  | .glb_commit_commit => ⟨.glbCommit, 31, 31, .wo, 0, 0, 1, false⟩
  | .glb_commit_revert => ⟨.glbCommit, 30, 30, .wo, 0, 0, 1, false⟩
  | .glb_commit_status_state => ⟨.glbCommitStatus, 31, 30, .ro, 0, 0, 3, false⟩
  | .glb_commit_status_rejected => ⟨.glbCommitStatus, 29, 29, .ro, 0, 0, 1, false⟩
  | .glb_commit_status_reason => ⟨.glbCommitStatus, 28, 24, .ro, 0, 0, 31, false⟩
  | .glb_commit_status_bad_offset => ⟨.glbCommitStatus, 23, 0, .ro, 0, 0, 16777215, false⟩
  | .glb_commit_seq_applied_seq => ⟨.glbCommitSeq, 31, 0, .ro, 0, 0, 4294967295, false⟩
  | .glb_pin_func_func_0 => ⟨.glbPinFunc, 3, 0, .rs, 0, 0, 7, false⟩
  | .glb_pin_func_func_1 => ⟨.glbPinFunc, 7, 4, .rs, 0, 0, 7, false⟩
  | .glb_pin_func_func_2 => ⟨.glbPinFunc, 11, 8, .rs, 0, 0, 7, false⟩
  | .glb_pin_func_func_3 => ⟨.glbPinFunc, 15, 12, .rs, 0, 0, 7, false⟩
  | .glb_pin_func_func_4 => ⟨.glbPinFunc, 19, 16, .rs, 0, 0, 7, false⟩
  | .glb_pin_func_func_5 => ⟨.glbPinFunc, 23, 20, .rs, 0, 0, 7, false⟩
  | .glb_pin_func_func_6 => ⟨.glbPinFunc, 27, 24, .rs, 0, 0, 7, false⟩
  | .glb_pin_func_func_7 => ⟨.glbPinFunc, 31, 28, .rs, 0, 0, 7, false⟩
  | .glb_pin_value_out => ⟨.glbPinValue, 15, 8, .rl, 0, 0, 255, false⟩
  | .glb_pin_value_in => ⟨.glbPinValue, 7, 0, .ro, 0, 0, 255, false⟩
  | .glb_sideband_smb_addr => ⟨.glbSideband, 14, 8, .rw, 106, 0, 127, true⟩
  | .glb_sideband_i3c => ⟨.glbSideband, 1, 1, .rw, 0, 0, 1, true⟩
  | .glb_sideband_sb_enable => ⟨.glbSideband, 0, 0, .rw, 1, 0, 1, false⟩
  | .glb_debug_core_debug_en => ⟨.glbDebug, 8, 8, .rs, 0, 0, 1, false⟩
  | .glb_debug_uart_baud => ⟨.glbDebug, 1, 0, .rs, 0, 0, 2, false⟩
  | .bpt_cfg_evt_min_sev => ⟨.bptCfg, 2, 0, .rs, 3, 0, 6, false⟩
  | .bpt_status_cfg_err => ⟨.bptStatus, 31, 31, .w1c, 0, 0, 1, false⟩
  | .bpt_status_bad_doorbell => ⟨.bptStatus, 30, 30, .w1c, 0, 0, 1, false⟩
  | .bpt_status_dma_error => ⟨.bptStatus, 29, 29, .w1c, 0, 0, 1, false⟩
  | .bpt_status_rom_state => ⟨.bptStatus, 28, 28, .ro, 0, 0, 1, false⟩
  | .bpt_status_held => ⟨.bptStatus, 27, 27, .ro, 0, 0, 1, false⟩
  | .bpt_evt_skipped_evt_skipped => ⟨.bptEvtSkipped, 31, 0, .ro, 0, 0, 4294967295, false⟩
  | .bpt_ring_base_base => ⟨.bptRingBase, 63, 12, .rw, 0, 0, 4503599627370495, true⟩
  | .bpt_ring_wb_wb_addr => ⟨.bptRingWb, 63, 2, .rw, 0, 0, 4611686018427387903, true⟩
  | .bpt_ring_cfg_ring_en => ⟨.bptRingCfg, 31, 31, .rw, 0, 0, 1, false⟩
  | .bpt_ring_cfg_coalesce_us => ⟨.bptRingCfg, 23, 16, .rl, 0, 0, 255, false⟩
  | .bpt_ring_cfg_coalesce_cnt => ⟨.bptRingCfg, 15, 8, .rl, 1, 0, 255, false⟩
  | .bpt_ring_cfg_log2_size => ⟨.bptRingCfg, 4, 0, .rw, 4, 0, 31, true⟩
  | .bpt_ring_state_head => ⟨.bptRingState, 31, 16, .ro, 0, 0, 65535, false⟩
  | .bpt_ring_state_tail => ⟨.bptRingState, 15, 0, .ro, 0, 0, 65535, false⟩
  | .glb_port_cfg_drain_time => ⟨.glbPortCfg, 19, 16, .rl, 2, 0, 15, false⟩
  | .glb_port_cfg_port_mode => ⟨.glbPortCfg, 2, 0, .rs, 0, 0, 5, false⟩
  | .glb_port_status_recon_step => ⟨.glbPortStatus, 31, 28, .ro, 0, 0, 15, false⟩
  | .glb_port_status_link_up => ⟨.glbPortStatus, 27, 24, .ro, 0, 0, 15, false⟩
  | .glb_port_status_pcie_rate => ⟨.glbPortStatus, 23, 20, .ro, 0, 0, 15, false⟩
  | .glb_port_status_pcie_width => ⟨.glbPortStatus, 19, 16, .ro, 0, 0, 15, false⟩
  | .glb_port_status_ana_state => ⟨.glbPortStatus, 9, 8, .ro, 0, 0, 3, false⟩
  | .glb_mac_mac => ⟨.glbMac, 47, 0, .rw, 0, 0, 281474976710655, true⟩
  | .glb_mesh_cfg_link_disable => ⟨.glbMeshCfg, 3, 0, .rs, 0, 0, 15, false⟩
  | .glb_mesh_status_up => ⟨.glbMeshStatus, 27, 24, .ro, 0, 0, 15, false⟩
  | .glb_mesh_status_replays => ⟨.glbMeshStatus, 15, 0, .ro, 0, 0, 65535, false⟩
  | .glb_dma_errors_host_mem => ⟨.glbDmaErrors, 31, 16, .ro, 0, 0, 65535, false⟩
  | .glb_dma_errors_board_mem => ⟨.glbDmaErrors, 15, 0, .ro, 0, 0, 65535, false⟩

/-- The fields of a register, from the most significant down. -/
def Reg.flds : Reg → List Fld
  | .qeCfg => [.qe_cfg_freeze_default, .qe_cfg_default_order_mode, .qe_cfg_qe_enable]
  | .qeStatus => [.qe_status_cfg_err, .qe_status_ctrl_active, .qe_status_frozen_count]
  | .qeQpFree => [.qe_qp_free_ctrl_slots_free, .qe_qp_free_qp_free]
  | .qeClassWeight => [.qe_class_weight_w_h3, .qe_class_weight_w_h2, .qe_class_weight_w_h1]
  | .qeDieShare => [.qe_die_share_bg_max, .qe_die_share_bg_base]
  | .qeSuspendWait => [.qe_suspend_wait_host_suspend_wait]
  | .glbClockCfg => [.glb_clock_cfg_hold_epochs, .glb_clock_cfg_epoch_s, .glb_clock_cfg_overhead_mode]
  | .glbClockStatus => [.glb_clock_status_held_epochs, .glb_clock_status_time_unset, .glb_clock_status_merging,
      .glb_clock_status_energy_estimated]
  | .glbClockEpoch => [.glb_clock_epoch_epoch]
  | .glbBoardTime => [.glb_board_time_board_time]
  | .mapCfg => [.map_cfg_l0_frames, .map_cfg_prefetch_en, .map_cfg_map_enable]
  | .mapStatus => [.map_status_cfg_err, .map_status_adopting, .map_status_replaying, .map_status_slot_away,
      .map_status_dirty_pct]
  | .mapDirCfg => [.map_dir_cfg_dir_gib]
  | .mapL1Cfg => [.map_l1_cfg_l1_gib]
  | .mapPaging => [.map_paging_dirty_max_pct, .map_paging_journal_window_mib]
  | .mapSlotMap => [.map_slot_map_slot_holder]
  | .mapDirty => [.map_dirty_dirty_frames]
  | .mapL0Hits => [.map_l0_hits_count]
  | .mapL1Hits => [.map_l1_hits_count]
  | .mapL2Fetches => [.map_l2_fetches_count]
  | .plcCfg => [.plc_cfg_zero_detect, .plc_cfg_plc_enable]
  | .plcStatus => [.plc_status_cfg_err, .plc_status_write_through, .plc_status_credit_full, .plc_status_slc_closed,
      .plc_status_rows_filling]
  | .plcRowCfg => [.plc_row_cfg_wt_row_us, .plc_row_cfg_row_timer_us]
  | .plcGroups => [.plc_groups_active_groups]
  | .plcSlcCfg => [.plc_slc_cfg_slc_direct_pct, .plc_slc_cfg_slc_resume_pct, .plc_slc_cfg_promote_start_pct]
  | .plcStageCfg => [.plc_stage_cfg_stage_dram_mib, .plc_stage_cfg_stage_sram_mib]
  | .plcProgBudget => [.plc_prog_budget_prog_dies_max]
  | .plcStaged => [.plc_staged_staged_kib]
  | .plcWseq => [.plc_wseq_wseq_next]
  | .plcPadGrains => [.plc_pad_grains_count]
  | .plcPromoted => [.plc_promoted_count]
  | .rclCfg => [.rcl_cfg_spare_pct, .rcl_cfg_idle_reclaim, .rcl_cfg_rcl_enable]
  | .rclStatus => [.rcl_status_cfg_err, .rcl_status_census_done, .rcl_status_summaries_ready, .rcl_status_stalemate,
      .rcl_status_castling, .rcl_status_sweeps_active]
  | .rclThresh => [.rcl_thresh_rcl_start_bands, .rcl_thresh_endgame_bands]
  | .rclScore => [.rcl_score_idle_u_pct, .rcl_score_age_weight]
  | .rclCastle => [.rcl_castle_slc_wear_units, .rcl_castle_castle_limit]
  | .rclBlank => [.rcl_blank_blank_fail_max]
  | .rclSecure => [.rcl_secure_secure_sync_tib]
  | .rclGrpSel => [.rcl_grp_sel_sg]
  | .rclGrpBands => [.rcl_grp_bands_sealed_bands, .rcl_grp_bands_free_bands]
  | .rclGrpWearMax => [.rcl_grp_wear_max_wear_max]
  | .rclGrpWearMin => [.rcl_grp_wear_min_wear_min]
  | .rclGrpState => [.rcl_grp_state_no_gain, .rcl_grp_state_stalemate, .rcl_grp_state_demand_pct]
  | .rclRelocGrains => [.rcl_reloc_grains_count]
  | .rclErases => [.rcl_erases_count]
  | .medCfg => [.med_cfg_patrol_en, .med_cfg_ext_mode_en, .med_cfg_med_enable]
  | .medStatus => [.med_status_cfg_err, .med_status_desc_mismatch, .med_status_training, .med_status_ch_failed,
      .med_status_ch_degraded, .med_status_ch_up]
  | .medDescIdx => [.med_desc_idx_word]
  | .medDescData => [.med_desc_data_data]
  | .medChSel => [.med_ch_sel_ch]
  | .medChCfg => [.med_ch_cfg_rate_max, .med_ch_cfg_rep_latency, .med_ch_cfg_topology]
  | .medChVols => [.med_ch_vols_vols_present]
  | .medChStatus => [.med_ch_status_state, .med_ch_status_rate_now, .med_ch_status_margin_min,
      .med_ch_status_rate_downs, .med_ch_status_dies_failed]
  | .medTrack => [.med_track_margin_min, .med_track_track_ms]
  | .medSuspend => [.med_suspend_seq_pad_us, .med_suspend_resume_min_us]
  | .medPatrol => [.med_patrol_refresh_bits, .med_patrol_patrol_days]
  | .medDisturb => [.med_disturb_disturb_k]
  | .medPatrolPages => [.med_patrol_pages_count]
  | .ldpcCfg => [.ldpc_cfg_soft_bits, .ldpc_cfg_retry_max]
  | .ldpcBaseIdx => [.ldpc_base_idx_entry]
  | .ldpcBaseData => [.ldpc_base_data_present, .ldpc_base_data_shift]
  | .ldpcHard => [.ldpc_hard_count]
  | .ldpcRetry => [.ldpc_retry_count]
  | .ldpcSoft => [.ldpc_soft_count]
  | .ldpcFail => [.ldpc_fail_count]
  | .redCfg => [.red_cfg_tile_safe_groups, .red_cfg_spare_keep, .red_cfg_sj_sram_kib, .red_cfg_parity_check_en,
      .red_cfg_red_enable]
  | .redStatus => [.red_status_cfg_err, .red_status_sj_single, .red_status_sj_copy_short,
      .red_status_rebuild_stalled, .red_status_groups_not_optimal]
  | .redRebuild => [.red_rebuild_subst_shared_ch, .red_rebuild_rebuild_reclaim_pct, .red_rebuild_rebuild_floor_pct]
  | .redVerify => [.red_verify_verify_start, .red_verify_verify_sg]
  | .redVerifyStatus => [.red_verify_status_verify_busy, .red_verify_status_verify_done,
      .red_verify_status_verify_mismatch]
  | .redGrpSel => [.red_grp_sel_sg]
  | .redGrpState => [.red_grp_state_state, .red_grp_state_geometry, .red_grp_state_lost_members]
  | .redGrpHeal => [.red_grp_heal_bands_unhealed, .red_grp_heal_bands_healed]
  | .redRecon => [.red_recon_count]
  | .redParityCmp => [.red_parity_cmp_count]
  | .redParityEvents => [.red_parity_events_mismatches, .red_parity_events_parity_skipped]
  | .plpCfg => [.plp_cfg_dump_dies_ch, .plp_cfg_seal_blocks, .plp_cfg_plp_enable]
  | .plpStatus => [.plp_status_cfg_err, .plp_status_write_through, .plp_status_bank_present,
      .plp_status_test_running, .plp_status_throttling, .plp_status_dump_held, .plp_status_bank_safe,
      .plp_status_off_ready, .plp_status_warn, .plp_status_wt_cause]
  | .plpSense => [.plp_sense_hsense_ratio, .plp_sense_vsense_ratio]
  | .plpThresh => [.plp_thresh_warn_mv, .plp_thresh_pfail_mv]
  | .plpBank => [.plp_bank_vmin_mv, .plp_bank_pfail_filt_ns]
  | .plpTestCfg => [.plp_test_cfg_test_hours, .plp_test_cfg_rtest_ohm, .plp_test_cfg_test_drop_mv]
  | .plpTestLimit => [.plp_test_limit_cap_min, .plp_test_limit_esr_max_mohm]
  | .plpTestResult => [.plp_test_result_result, .plp_test_result_esr_mohm, .plp_test_result_cap]
  | .plpBankV => [.plp_bank_v_budget_mv, .plp_bank_v_bank_mv]
  | .plpLimit => [.plp_limit_mib]
  | .plpStagedTotal => [.plp_staged_total_mib]
  | .plpCtrl => [.plp_ctrl_prepare_off, .plp_ctrl_bank_release, .plp_ctrl_test_now]
  | .plpLastDump => [.plp_last_dump_incomplete, .plp_last_dump_dump_us]
  | .plpLastDumpMib => [.plp_last_dump_mib_dumped_mib]
  | .bpmCfg => [.bpm_cfg_spill, .bpm_cfg_bpm_enable]
  | .bpmStatus => [.bpm_status_cfg_err, .bpm_status_resetting, .bpm_status_quarantined, .bpm_status_empty]
  | .bpmArea => [.bpm_area_used_kib, .bpm_area_area_kib]
  | .bpmReset => [.bpm_reset_pool_reset]
  | .bpmPoolCfg => [.bpm_pool_cfg_urgent_rsv, .bpm_pool_cfg_count]
  | .bpmPoolFree => [.bpm_pool_free_free_count]
  | .bpmBadFree => [.bpm_bad_free_bad_frees]
  | .bpmEmpty => [.bpm_empty_count]
  | .bpmSpills => [.bpm_spills_count]
  | .cmpCfg => [.cmp_cfg_stream_timeout_ms, .cmp_cfg_cmp_enable]
  | .cmpStatus => [.cmp_status_cfg_err, .cmp_status_adj_d, .cmp_status_adj_c, .cmp_status_slots_busy]
  | .cmpErrors => [.cmp_errors_stream_errors, .cmp_errors_refusals]
  | .cmpInBytes => [.cmp_in_bytes_count]
  | .cmpOutBytes => [.cmp_out_bytes_count]
  | .cmpAdjourns => [.cmp_adjourns_count]
  | .cryCfg => [.cry_cfg_cry_enable]
  | .cryStatus => [.cry_status_cfg_err, .cry_status_self_test_fail, .cry_status_reloading, .cry_status_lanes_up,
      .cry_status_slots_loaded]
  | .crySlotSel => [.cry_slot_sel_slot]
  | .crySlotState => [.cry_slot_state_loaded, .cry_slot_state_zeroise_fail, .cry_slot_state_key_gen]
  | .cryErrors => [.cry_errors_unwrap_fail, .cry_errors_stale_jobs]
  | .cryUnits => [.cry_units_count]
  | .digCfg => [.dig_cfg_snoop_rsv]
  | .digStatus => [.dig_status_vfy_busy, .dig_status_ctx_finished, .dig_status_ctx_bound, .dig_status_ctx_busy]
  | .digResults => [.dig_results_not_equal, .dig_results_busy_refusals]
  | .digVfyStatus => [.dig_vfy_status_last_result, .dig_vfy_status_verifies]
  | .digFuse => [.dig_fuse_id_row_ok, .dig_fuse_root_programmed, .dig_fuse_key_revoked, .dig_fuse_key_present]
  | .digFuseFloor => [.dig_fuse_floor_security_floor]
  | .digFuseIdx => [.dig_fuse_idx_word]
  | .digFuseData => [.dig_fuse_data_data]
  | .digBytes => [.dig_bytes_count]
  | .drcCfg => [.drc_cfg_rate_max, .drc_cfg_density, .drc_cfg_dev_width, .drc_cfg_ranks, .drc_cfg_wcrc_en,
      .drc_cfg_scrub_en, .drc_cfg_drc_enable]
  | .drcStatus => [.drc_status_cfg_err, .drc_status_frozen, .drc_status_ready, .drc_status_training, .drc_status_hot,
      .drc_status_cap_read, .drc_status_cfg_mismatch, .drc_status_overtemp, .drc_status_rate_now,
      .drc_status_capacity_gib]
  | .drcPolicy => [.drc_policy_pd_timer_ns, .drc_policy_page_idle_ns, .drc_policy_hit_thresh]
  | .drcRefresh => [.drc_refresh_temp_poll_ms, .drc_refresh_debt, .drc_refresh_postpone_max]
  | .drcTrain => [.drc_train_margin_min, .drc_train_retrain_ms]
  | .drcMargin => [.drc_margin_wr_margin, .drc_margin_rd_margin]
  | .drcScrub => [.drc_scrub_scrub_hours]
  | .drcCtrl => [.drc_ctrl_drc_restart]
  | .drcErrors => [.drc_errors_freezes, .drc_errors_alerts]
  | .drcCapStatus => [.drc_cap_status_cause, .drc_cap_status_subch, .drc_cap_status_rank, .drc_cap_status_further,
      .drc_cap_status_bad_symbols, .drc_cap_status_class]
  | .drcCapAddr => [.drc_cap_addr_bank_group, .drc_cap_addr_bank, .drc_cap_addr_row]
  | .drcCapCol => [.drc_cap_col_column]
  | .drcCapTime => [.drc_cap_time_minutes]
  | .drcCapSynd => [.drc_cap_synd_syndrome]
  | .drcCe => [.drc_ce_ce_count]
  | .thmCfg => [.thm_cfg_rate_limit, .thm_cfg_hyst_c]
  | .thmStatus => [.thm_status_cfg_err, .thm_status_fenced, .thm_status_warn, .thm_status_sensor_fault,
      .thm_status_rate_trig, .thm_status_abs_trig, .thm_status_fault_trig, .thm_status_power_trig, .thm_status_level]
  | .thmSel => [.thm_sel_sensor]
  | .thmSensor => [.thm_sensor_fault, .thm_sensor_peak, .thm_sensor_temp]
  | .thmLimits => [.thm_limits_critical_c, .thm_limits_throttle_c, .thm_limits_warn_c]
  | .thmHistIdx => [.thm_hist_idx_bin]
  | .thmHistData => [.thm_hist_data_minutes]
  | .clkCfg => [.clk_cfg_ref_revert, .clk_cfg_ref_pref]
  | .clkStatus => [.clk_status_switches, .clk_status_holdover, .clk_status_eth_synth, .clk_status_eth_ok,
      .clk_status_active, .clk_status_refb_ok, .clk_status_refa_ok]
  | .clkAon => [.clk_aon_aon_ppm]
  | .pwrCfg => [.pwr_cfg_avs_enable, .pwr_cfg_deep_en, .pwr_cfg_light_en]
  | .pwrStatus => [.pwr_status_cfg_err, .pwr_status_isense_fault, .pwr_status_pkg_state, .pwr_status_rail_fault]
  | .pwrSleep => [.pwr_sleep_deep_idle_ms, .pwr_sleep_deep_timer_s, .pwr_sleep_light_idle_us]
  | .pwrTileState => [.pwr_tile_state_state]
  | .pwrDomTile => [.pwr_dom_tile_dom_on]
  | .pwrDomPkg => [.pwr_dom_pkg_dom_on]
  | .pwrPower => [.pwr_power_measured, .pwr_power_estimated]
  | .pwrLimit => [.pwr_limit_pwr_limit_w]
  | .pwrRailSel => [.pwr_rail_sel_rail]
  | .pwrRailCfg => [.pwr_rail_cfg_vmax, .pwr_rail_cfg_vmin, .pwr_rail_cfg_pmb_addr, .pwr_rail_cfg_page,
      .pwr_rail_cfg_kind]
  | .pwrRailStatus => [.pwr_rail_status_fault, .pwr_rail_status_vset, .pwr_rail_status_status_word]
  | .evrCfg => [.evr_cfg_rate_period_s, .evr_cfg_rate_burst, .evr_cfg_log_min_sev]
  | .evrStatus => [.evr_status_cfg_err, .evr_status_fallback, .evr_status_archive_fault, .evr_status_unarchived]
  | .evrHead => [.evr_head_seq]
  | .evrOldest => [.evr_oldest_seq]
  | .evrArchived => [.evr_archived_seq]
  | .evrCursor => [.evr_cursor_cursor]
  | .evrWinStatus => [.evr_win_status_fallback, .evr_win_status_from_band, .evr_win_status_pending,
      .evr_win_status_gap, .evr_win_status_valid]
  | .evrWinSeq => [.evr_win_seq_seq]
  | .evrWinData => [.evr_win_data_data]
  | .evrDrops => [.evr_drops_drops_hi, .evr_drops_drops_lo]
  | .fwuStatus => [.fwu_status_stage_state, .fwu_status_recovery_mode, .fwu_status_pending_start,
      .fwu_status_fallback, .fwu_status_boot_reason, .fwu_status_pieces_missing]
  | .fwuRunInfo => [.fwu_run_info_run_source, .fwu_run_info_floor, .fwu_run_info_run_security]
  | .fwuRunId => [.fwu_run_id_image_id]
  | .fwuStagedId => [.fwu_staged_id_image_id]
  | .fwuMapIdx => [.fwu_map_idx_word]
  | .fwuMapData => [.fwu_map_data_pieces]
  | .fwuInstall => [.fwu_install_step, .fwu_install_sectors_total, .fwu_install_sectors_done]
  | .fwuCtrl => [.fwu_ctrl_stage_clear]
  | .cfcCfg => [.cfc_cfg_idle_off_ms]
  | .cfcStatus => [.cfc_status_failed, .cfc_status_busy, .cfc_status_op, .cfc_status_powered,
      .cfc_status_stall_max_us]
  | .cfcErrors => [.cfc_errors_op_fail, .cfc_errors_read_uncorr]
  | .cfcEraseMax => [.cfc_erase_max_sector, .cfc_erase_max_erases]
  | .glbId => [.glb_id_stepping, .glb_id_hw_type, .glb_id_tile_map, .glb_id_tiles_up]
  | .glbStatus => [.glb_status_boot_state, .glb_status_fw_ready, .glb_status_activation, .glb_status_boot_reason,
      .glb_status_primary, .glb_status_standby, .glb_status_tiles_fenced, .glb_status_crit_warning]
  | .glbSerial => [.glb_serial_serial]
  | .glbCommit => [.glb_commit_commit, .glb_commit_revert]
  | .glbCommitStatus => [.glb_commit_status_state, .glb_commit_status_rejected, .glb_commit_status_reason,
      .glb_commit_status_bad_offset]
  | .glbCommitSeq => [.glb_commit_seq_applied_seq]
  | .glbPinFunc => [.glb_pin_func_func_0, .glb_pin_func_func_1, .glb_pin_func_func_2, .glb_pin_func_func_3,
      .glb_pin_func_func_4, .glb_pin_func_func_5, .glb_pin_func_func_6, .glb_pin_func_func_7]
  | .glbPinValue => [.glb_pin_value_out, .glb_pin_value_in]
  | .glbSideband => [.glb_sideband_smb_addr, .glb_sideband_i3c, .glb_sideband_sb_enable]
  | .glbDebug => [.glb_debug_core_debug_en, .glb_debug_uart_baud]
  | .bptCfg => [.bpt_cfg_evt_min_sev]
  | .bptStatus => [.bpt_status_cfg_err, .bpt_status_bad_doorbell, .bpt_status_dma_error, .bpt_status_rom_state,
      .bpt_status_held]
  | .bptEvtSkipped => [.bpt_evt_skipped_evt_skipped]
  | .bptRingBase => [.bpt_ring_base_base]
  | .bptRingWb => [.bpt_ring_wb_wb_addr]
  | .bptRingCfg => [.bpt_ring_cfg_ring_en, .bpt_ring_cfg_coalesce_us, .bpt_ring_cfg_coalesce_cnt,
      .bpt_ring_cfg_log2_size]
  | .bptRingState => [.bpt_ring_state_head, .bpt_ring_state_tail]
  | .glbPortCfg => [.glb_port_cfg_drain_time, .glb_port_cfg_port_mode]
  | .glbPortStatus => [.glb_port_status_recon_step, .glb_port_status_link_up, .glb_port_status_pcie_rate,
      .glb_port_status_pcie_width, .glb_port_status_ana_state]
  | .glbMac => [.glb_mac_mac]
  | .glbMeshCfg => [.glb_mesh_cfg_link_disable]
  | .glbMeshStatus => [.glb_mesh_status_up, .glb_mesh_status_replays]
  | .glbDmaErrors => [.glb_dma_errors_host_mem, .glb_dma_errors_board_mem]

def regList0 : List Reg := [
  .qeCfg, .qeStatus, .qeQpFree, .qeClassWeight, .qeDieShare, .qeSuspendWait, .glbClockCfg, .glbClockStatus,
  .glbClockEpoch, .glbBoardTime, .mapCfg, .mapStatus, .mapDirCfg, .mapL1Cfg, .mapPaging, .mapSlotMap, .mapDirty,
  .mapL0Hits, .mapL1Hits, .mapL2Fetches, .plcCfg, .plcStatus, .plcRowCfg, .plcGroups, .plcSlcCfg, .plcStageCfg,
  .plcProgBudget, .plcStaged, .plcWseq, .plcPadGrains, .plcPromoted, .rclCfg, .rclStatus, .rclThresh, .rclScore,
  .rclCastle, .rclBlank, .rclSecure, .rclGrpSel, .rclGrpBands]

def regList1 : List Reg := [
  .rclGrpWearMax, .rclGrpWearMin, .rclGrpState, .rclRelocGrains, .rclErases, .medCfg, .medStatus, .medDescIdx,
  .medDescData, .medChSel, .medChCfg, .medChVols, .medChStatus, .medTrack, .medSuspend, .medPatrol, .medDisturb,
  .medPatrolPages, .ldpcCfg, .ldpcBaseIdx, .ldpcBaseData, .ldpcHard, .ldpcRetry, .ldpcSoft, .ldpcFail, .redCfg,
  .redStatus, .redRebuild, .redVerify, .redVerifyStatus, .redGrpSel, .redGrpState, .redGrpHeal, .redRecon,
  .redParityCmp, .redParityEvents, .plpCfg, .plpStatus, .plpSense, .plpThresh]

def regList2 : List Reg := [
  .plpBank, .plpTestCfg, .plpTestLimit, .plpTestResult, .plpBankV, .plpLimit, .plpStagedTotal, .plpCtrl,
  .plpLastDump, .plpLastDumpMib, .bpmCfg, .bpmStatus, .bpmArea, .bpmReset, .bpmPoolCfg, .bpmPoolFree, .bpmBadFree,
  .bpmEmpty, .bpmSpills, .cmpCfg, .cmpStatus, .cmpErrors, .cmpInBytes, .cmpOutBytes, .cmpAdjourns, .cryCfg,
  .cryStatus, .crySlotSel, .crySlotState, .cryErrors, .cryUnits, .digCfg, .digStatus, .digResults, .digVfyStatus,
  .digFuse, .digFuseFloor, .digFuseIdx, .digFuseData, .digBytes]

def regList3 : List Reg := [
  .drcCfg, .drcStatus, .drcPolicy, .drcRefresh, .drcTrain, .drcMargin, .drcScrub, .drcCtrl, .drcErrors,
  .drcCapStatus, .drcCapAddr, .drcCapCol, .drcCapTime, .drcCapSynd, .drcCe, .thmCfg, .thmStatus, .thmSel,
  .thmSensor, .thmLimits, .thmHistIdx, .thmHistData, .clkCfg, .clkStatus, .clkAon, .pwrCfg, .pwrStatus, .pwrSleep,
  .pwrTileState, .pwrDomTile, .pwrDomPkg, .pwrPower, .pwrLimit, .pwrRailSel, .pwrRailCfg, .pwrRailStatus, .evrCfg,
  .evrStatus, .evrHead, .evrOldest]

def regList4 : List Reg := [
  .evrArchived, .evrCursor, .evrWinStatus, .evrWinSeq, .evrWinData, .evrDrops, .fwuStatus, .fwuRunInfo, .fwuRunId,
  .fwuStagedId, .fwuMapIdx, .fwuMapData, .fwuInstall, .fwuCtrl, .cfcCfg, .cfcStatus, .cfcErrors, .cfcEraseMax,
  .glbId, .glbStatus, .glbSerial, .glbCommit, .glbCommitStatus, .glbCommitSeq, .glbPinFunc, .glbPinValue,
  .glbSideband, .glbDebug, .bptCfg, .bptStatus, .bptEvtSkipped, .bptRingBase, .bptRingWb, .bptRingCfg,
  .bptRingState, .glbPortCfg, .glbPortStatus, .glbMac, .glbMeshCfg, .glbMeshStatus]

def regList5 : List Reg := [
  .glbDmaErrors]

/-- Every register. -/
def allRegs : List Reg := regList0 ++ regList1 ++ regList2 ++ regList3 ++ regList4 ++ regList5

/-- The enable of a register's block, for its static fields (R13, R416); none where R13 names another condition or no block. -/
def Reg.enable : Reg → Option Fld
  | .mapCfg | .mapDirCfg | .mapL1Cfg => some .map_cfg_map_enable
  | .plcCfg | .plcStageCfg => some .plc_cfg_plc_enable
  | .rclCfg => some .rcl_cfg_rcl_enable
  | .medCfg | .medDescData | .medChCfg | .medChVols => some .med_cfg_med_enable
  | .redCfg => some .red_cfg_red_enable
  | .plpCfg | .plpSense | .plpTestCfg => some .plp_cfg_plp_enable
  | .bpmCfg | .bpmPoolCfg => some .bpm_cfg_bpm_enable
  | .cmpCfg => some .cmp_cfg_cmp_enable
  | .cryCfg => some .cry_cfg_cry_enable
  | .drcCfg => some .drc_cfg_drc_enable
  | .pwrCfg | .pwrRailCfg => some .pwr_cfg_avs_enable
  | .bptRingBase | .bptRingWb | .bptRingCfg => some .bpt_ring_cfg_ring_en
  | .glbSideband => some .glb_sideband_sb_enable
  | _ => none

/-- The cfg_err field of a register's block, where it has one. -/
def Reg.cfgErr : Reg → Option Fld
  | .mapCfg | .mapDirCfg | .mapL1Cfg | .mapPaging => some .map_status_cfg_err
  | .plcCfg | .plcRowCfg | .plcGroups | .plcSlcCfg | .plcStageCfg | .plcProgBudget => some .plc_status_cfg_err
  | .rclCfg | .rclThresh | .rclScore | .rclCastle | .rclBlank | .rclSecure => some .rcl_status_cfg_err
  | .medCfg | .medDescData | .medChCfg | .medChVols | .medTrack | .medSuspend | .medPatrol
    | .medDisturb => some .med_status_cfg_err
  | .redCfg | .redRebuild => some .red_status_cfg_err
  | .plpCfg | .plpSense | .plpThresh | .plpBank | .plpTestCfg | .plpTestLimit => some .plp_status_cfg_err
  | .bpmCfg | .bpmPoolCfg => some .bpm_status_cfg_err
  | .cmpCfg => some .cmp_status_cfg_err
  | .cryCfg => some .cry_status_cfg_err
  | .drcCfg | .drcPolicy | .drcRefresh | .drcTrain | .drcScrub => some .drc_status_cfg_err
  | .pwrCfg | .pwrSleep | .pwrLimit | .pwrRailCfg => some .pwr_status_cfg_err
  | .thmCfg | .thmLimits => some .thm_status_cfg_err
  | .evrCfg => some .evr_status_cfg_err
  | .bptCfg | .bptRingBase | .bptRingWb | .bptRingCfg => some .bpt_status_cfg_err
  | .qeCfg | .qeClassWeight | .qeDieShare | .qeSuspendWait => some .qe_status_cfg_err
  | _ => none

end Sys2Proof.Machine
end

