-- ==== Sys2Proof/Machine/State.lean ====
section
/-!
DEFINITION. Sys2Proof/Machine/State.lean: everything the device holds, as plain data, and the machine right after reset.
Sets of like things are lists: an entry that is not listed is in the state its comment names.
-/
namespace Sys2Proof.Machine
open Sys2Proof

/-! ### Registers (R12, R13) -/

/-- The value of a field of one copy of a register: the tile window it is in (8 for the package), the copy, the value. -/
structure RegVal where
  win : Nat
  idx : Nat
  fld : Fld
  val : Nat
deriving DecidableEq, Repr

/-- The registers: the live values and the shadow of staged fields, where they differ from the reset value; the low halves
written and not yet taken by a write of the high half; and the high halves latched by a read of the low half, by offset
(R12, R13). -/
structure RegFile where
  live   : List RegVal
  shadow : List RegVal
  low    : List (Nat × Nat)
  latch  : List (Nat × Nat)
deriving DecidableEq, Repr

/-! ### The part and its identity (R1 to R3, R350, R444) -/

/-- What is fixed in one package: its part, what its identity row names, and its fuses. `rowOk` says that a copy of the row
passes the check of R351. -/
structure Ident where
  part       : Part
  tileMap    : Nat
  serial     : Bytes
  floorMfg   : Nat
  kcv        : Bytes
  rowOk      : Bool
  rowHash    : Bytes
  rootProgrammed : Bool
  rootSecret : Bytes
  keyHashes  : List Bytes
  keyPresent : Nat
  keyRevoked : Nat
  securityFloor : Nat
deriving DecidableEq, Repr

/-! ### The mesh (R18 to R28) -/

/-- One end of a mesh link (R20, R26). `replays` holds the times, in ms, of its latest replays. -/
structure MeshLink where
  tile    : Nat
  link    : MeshPort
  up      : Bool
  replays : List Nat
  total   : Nat
deriving DecidableEq, Repr

/-- One input's queue for one output and virtual channel of a router (R24, R25). -/
structure VcQueue where
  tile : Nat
  out  : MeshPort
  vc   : Vc
  inp  : MeshPort
  pkts : List MeshPkt
deriving DecidableEq, Repr

/-- The round-robin pointer of one output and virtual channel: the input served last (R25). -/
structure RrPtr where
  tile : Nat
  out  : MeshPort
  vc   : Vc
  last : MeshPort
deriving DecidableEq, Repr

/-- New packets held at their source after a route change (R22). -/
structure RouteHold where
  src  : Nat
  dst  : Nat
  pkts : List MeshPkt
deriving DecidableEq, Repr

/-- A packet on a link, sent by `tile` through `out` from its input `inp`, until the far router receives it. -/
structure OnLink where
  tile : Nat
  out  : MeshPort
  inp  : MeshPort
  pkt  : MeshPkt
deriving DecidableEq, Repr

/-- The next sequence number of one source, destination and virtual channel (R22, R23). -/
structure MeshSeq where
  src : Nat
  dst : Nat
  vc  : Vc
  next : Nat
deriving DecidableEq, Repr

structure Mesh where
  links     : List MeshLink
  queues    : List VcQueue
  rr        : List RrPtr
  holds     : List RouteHold
  wire      : List OnLink
  seqs      : List MeshSeq
  escapes   : List (Nat × MeshPort × MeshPort)
  delivered : List (Nat × MeshPkt)
deriving DecidableEq, Repr

/-! ### Host ports, connections, controllers and queues (R42 to R99) -/

/-- A tile's host port (R42, R50, R60, R62). `recon` is the step of R62 it has reached, 0 when no reconfiguration runs; `narrow`
holds the links that trained narrower or slower than configured, `pcieWidth` the lanes of this tile that the link uses. -/
structure Port where
  tile      : Nat
  mode      : Nat
  recon     : Nat
  reconAt   : Nat
  linkUp    : List Nat
  narrow    : List Nat
  pcieRate  : Nat
  pcieWidth : Nat
  paused    : List (Nat × Nat)
  allPaused : List Nat
deriving DecidableEq, Repr

/-- A TCP connection or RDMA queue pair (R46, R47), with what its opening fixed: the digests and the data alignment that the
host asked for, the MTU, priority and DSCP of its interface (R478), or the path MTU. `failed` holds the commands whose further data
is dropped (R64). -/
structure Conn where
  id        : Nat
  tile      : Nat
  port      : Nat
  iface     : Nat
  transport : Transport
  discovery : Bool
  cntlid    : Nat
  sqid      : Nat
  bound     : Bool
  nqn       : Bytes
  hdgst     : Bool
  ddgst     : Bool
  hpda      : Nat
  mtu       : Nat
  prio      : Nat
  dscp      : Nat
  failed    : List Nat
deriving DecidableEq, Repr

/-- The identity a controller was created under (R58, R103). -/
inductive CtrlIdent
  | nqn (n : Bytes)
  | function (endpoint function : Nat)
deriving DecidableEq, Repr

/-- An entry of a controller's Error Information log (R89, R495). -/
structure ErrEntry where
  count  : Nat
  sqid   : Nat
  cid    : Nat
  status : Status
  nsid   : Nat
  lba    : Nat
deriving DecidableEq, Repr

/-- Whom work is charged to: a controller, with the tenant it belongs to and its number among all controllers there have been, since
controller IDs are used again (R120, R122). 0 stands for the device itself. -/
structure Payer where
  cntlid : Nat
  tenant : Nat
  inc    : Nat
deriving DecidableEq, Repr

/-- A controller (R55 to R58, R71 to R79, R95). `inc` is its number among all controllers. `deficits` holds its deficit on each tile where it is not 0 (R79). -/
structure Ctrl where
  inc       : Nat
  cntlid    : Nat
  tile      : Nat
  ident     : CtrlIdent
  discovery : Bool
  tenant    : Nat
  provider  : Bool
  enabled   : Bool
  ready     : Bool
  ams       : Nat
  shst      : Nat
  shutting  : Bool
  orderMode : Nat
  grant     : Option Nat
  kato      : Nat
  kaDeadline : Nat
  share     : Nat
  budget    : Nat
  budgetLeft : Nat
  latency   : Nat
  deficits  : List (Nat × Int)
  demotions : Nat
  arbBurst  : Nat
  arbWeights : Nat × Nat × Nat
  coalesce  : Nat × Nat
  noCoalesce : List Nat
  aers      : List Nat
  aens      : List (Nat × Nat)
  errors    : List ErrEntry
  errorCount : Nat
  anaState  : Nat
deriving DecidableEq, Repr

/-- What froze a submission queue (R89, R91). -/
structure Freeze where
  order  : Nat
  cid    : Nat
  status : Status
  error  : Nat
deriving DecidableEq, Repr

/-- A command that has arrived: a capsule on a receive list, or an entry that a fetch has read (R67, R68). `waits` holds, for a
Flush, the extents of the writes that had completed when it arrived (R93). -/
structure Arrival where
  cap   : Capsule
  waits : List Nat
deriving DecidableEq, Repr

/-- A submission queue (R66 to R68, R71, R75, R88 to R92). `base` is where a PCIe queue's ring begins in host memory; `recv` holds the
capsules received, or the entries read, that are not yet in arbitration. -/
structure Sq where
  cntlid    : Nat
  sqid      : Nat
  tile      : Nat
  base      : Nat
  size      : Nat
  cqid      : Nat
  reqClass  : Nat
  mediaOnly : Bool
  frozen    : Option Freeze
  recv      : List Arrival
  head      : Nat
  tail      : Nat
  transport : Transport
deriving DecidableEq, Repr

/-- A completion queue (R51, R66, R69). `reserved` entries are held for commands that have been fetched. -/
structure Cq where
  cntlid   : Nat
  cqid     : Nat
  base     : Nat
  size     : Nat
  head     : Nat
  tail     : Nat
  reserved : Nat
  vector   : Nat
  ien      : Bool
deriving DecidableEq, Repr

/-- Completions waiting on one interrupt vector (R69). -/
structure PendingIrq where
  cntlid : Nat
  vector : Nat
  count  : Nat
deriving DecidableEq, Repr

/-- Where a fetched command stands (R70, R74, R94). -/
inductive Phase
  | admitted | held | dataFetch | staging | lookup | reading | mapping | draining | ended | running
deriving DecidableEq, Repr

/-- Where a part of a read stands (R145, R173): its lookup not yet made, queued behind a fetch, its blocks being read from
flash, there, or failed with a status. -/
inductive PieceState | toLookup | queued | flash | done | failed (st : Status)
deriving DecidableEq, Repr

/-- A part of a read: a run of blocks that one lookup answers or one extent serves (R135, R173, R174). -/
structure Piece where
  lba   : Nat
  count : Nat
  state : PieceState
  addr  : Nat
  skip  : Nat
  seq   : Nat
  data  : Bytes
deriving DecidableEq, Repr

/-- A map update of one region that a command waits for (R137, R153, R157). -/
structure Upd where
  region : Nat
  firstPos : Nat
  applied  : Bool
  mirrored : Bool
  ownerOk  : Bool
  mirrorOk : Bool
  lastPos  : Nat
deriving DecidableEq, Repr

/-- What one part of a command's map step does to its blocks (R137, R167, R218). -/
inductive PlanKind | zero | unmap | extent
deriving DecidableEq, Repr

/-- A part of a command's map step: blocks, the write sequence of the extent or zero span they get, and the key generation that the
command wrote under (R114). -/
structure Plan where
  lba   : Nat
  count : Nat
  seq   : Nat
  gen   : Nat
  kind  : PlanKind
deriving DecidableEq, Repr

/-- A fetched command (R66, R70, R74, R94). `id` rises in the order of fetch; `behindWrites` marks a read fetched while 64 writes
were tracked (R75); `asked` that its host data has been asked for; `lost` the roles whose step is to be issued again, and `lostMs` the time of
the loss (R31). -/
structure Cmd where
  id      : Nat
  tile    : Nat
  cntlid  : Nat
  payer   : Payer
  sqid    : Nat
  cap     : Capsule
  cls     : PClass
  phase   : Phase
  data    : Bytes
  pieces  : List Piece
  extents : List Nat
  updates : List Upd
  status  : Status
  dw0     : Nat
  discard : Bool
  took    : Bool
  plan    : List Plan
  sweep   : Nat
  sweepSync : Bool
  bufs    : List Nat
  fetchMs : Nat
  heldMs  : Nat
  behindWrites : Bool
  asked   : Bool
  lost    : List Role
  lostMs  : Option Nat
  waitFor : List Nat
  charged : Nat
deriving DecidableEq, Repr

/-- The tokens of one namespace limit on one tile (R81), in units of 1/256, with the most it holds and the part below 1/256
that is carried to the next interval. -/
structure Bucket where
  tile   : Nat
  nsid   : Nat
  kind   : Nat
  tokens : Int
  depth  : Nat
  carry  : Rat
deriving DecidableEq, Repr

/-- Demand of a namespace on a tile in the running interval (R81). -/
structure Demand where
  tile : Nat
  nsid : Nat
  now  : Nat
deriving DecidableEq, Repr

/-- The turn of a tile's arbitration (R78): the controllers and queues served last, the burst left, the round. -/
structure Arb where
  tile     : Nat
  lastCtrl : Nat
  lastUrgent : Nat
  burst    : Nat
  lastSq   : List (Nat × Nat × Nat)
  classCredit : List (Nat × Nat × Nat)
deriving DecidableEq, Repr

/-- The host side. `activeUntil` is the time until which an ACTIVITY ball stays high at least (R487). -/
structure HostSide where
  ports   : List Port
  conns   : List Conn
  nextConn : Nat
  ctrls   : List Ctrl
  nextInc : Nat
  sqs     : List Sq
  cqs     : List Cq
  irqs    : List PendingIrq
  cmds    : List Cmd
  nextCmd : Nat
  freezes : Nat
  buckets : List Bucket
  demand  : List Demand
  arb     : List Arb
  activeUntil : Nat
deriving DecidableEq, Repr

/-! ### Namespaces, tenants, endurance groups and the chess clock (R100 to R127) -/

/-- Namespace states (R111). -/
inductive NsState | keyPending | ready | deleting
deriving DecidableEq, Repr

/-- The limits record (R80, R102). -/
structure Limits where
  rdIops : Nat
  wrIops : Nat
  rdMbps : Nat
  wrMbps : Nat
  burstMs : Nat
deriving DecidableEq, Repr

/-- A registry record of a namespace (R111 to R117, R220). `step` is the step of R117 a deletion has reached. -/
structure Ns where
  nsid      : Nat
  nsze      : Nat
  ncap      : Nat
  endgid    : Nat
  compMode  : Nat
  owner     : Nat
  state     : NsState
  keyGen    : Nat
  wrapped   : Option Bytes
  attached  : List Nat
  limits    : Limits
  newLimits : Option Limits
  secure    : Bool
  nuse      : Nat
  unmapping : Bool
  step      : Nat
deriving DecidableEq, Repr

/-- A tenant record (R103). -/
structure Tenant where
  id      : Nat
  ident   : CtrlIdent
  share   : Nat
  budget  : Nat
  latency : Nat
deriving DecidableEq, Repr

/-- An endurance group (R107 to R109, R150, R187, R189, R216); `idlePromo` says that promotion runs in idle die time alone. -/
structure Eg where
  id       : Nat
  nvmSet   : Nat
  groups   : List Nat
  ratioPct : Nat
  mapPct   : Nat
  stalemate : Bool
  slcBuffer : Nat
  slcClosed : Bool
  idlePromo : Bool
  rated    : Nat
deriving DecidableEq, Repr

/-- A headroom lease of a port tile for a namespace (R110). -/
structure Lease where
  tile : Nat
  nsid : Nat
  left : Nat
deriving DecidableEq, Repr

/-- The designation of the provider controller (R58, R477). -/
inductive Provider
  | none
  | nqn (n : Bytes) (tiles : Nat)
  | function (endpoint : Nat)
deriving DecidableEq, Repr

/-- An IP interface (R44, R46, R478). -/
structure NetIf where
  tile  : Nat
  port  : Nat
  index : Nat
  flags : Nat
  vlan  : Nat
  mtu   : Nat
  v4    : Bytes
  v4Len : Nat
  v6Len : Nat
  v6    : Bytes
  gw4   : Bytes
  gw6   : Bytes
  ioPort : Nat
  discPort : Nat
  pfc   : Nat
  dscp  : Nat
deriving DecidableEq, Repr

structure Registry where
  nss      : List Ns
  tenants  : List Tenant
  egs      : List Eg
  leases   : List Lease
  provider : Provider
  netifs   : List NetIf
deriving DecidableEq, Repr

/-- A metering record of R122. `kind` is its type; `inc` tells controllers apart that had the same ID. -/
structure MeterRec where
  inc    : Nat
  epoch  : Nat
  epochs : Nat
  kind   : Nat
  cntlid : Nat
  tenant : Nat
  nsid   : Nat
  flags  : Nat
  bytesIn : Nat
  bytesOut : Nat
  media  : Nat
  dieUs  : Nat
  commands : Nat
  energy : Nat
  qos    : Nat
deriving DecidableEq, Repr

/-- One tile's counts of a record in the running epoch (R120, R121). `kind` 0 pair, 1 background, 2 overhead. -/
structure Meter where
  inc    : Nat
  tile   : Nat
  kind   : Nat
  cntlid : Nat
  nsid   : Nat
  tenant : Nat
  bytesIn : Nat
  bytesOut : Nat
  media  : Nat
  dieUs  : Nat
  commands : Nat
  qos    : Nat
  incomplete : Bool
  ended  : Bool
deriving DecidableEq, Repr

/-- The metering state in the map band (R125): the running epoch as the last checkpoint found it. `at_` is 0 when there is
none. -/
structure MeterCheck where
  epoch  : Nat
  start  : Int
  at_    : Nat
  energy : Nat
  peak   : Nat
  meters : List Meter
deriving DecidableEq, Repr

/-- The chess clock (R118 to R127). `held` holds finished epochs, oldest first; `placing` the records of the epoch that is
entering the metering ring; `lastDone` all the records of that epoch, `delivered` those of the last epoch delivered. -/
structure Clock where
  boardTime  : Nat
  timeUnset  : Bool
  epoch      : Nat
  epochStart : Int
  epochEnd   : Nat
  meters     : List Meter
  estimated  : Bool
  throughWt  : Bool
  countsLost : Bool
  held       : List (List MeterRec)
  merging    : Bool
  placing    : List MeterRec
  delivered  : List MeterRec
  lastDone   : List MeterRec
  interrupted : Bool
  checkpoint : MeterCheck
deriving DecidableEq, Repr

/-! ### The span map and its paging (R128 to R165) -/

/-- A span of a map page (R132). `addr` and `len` are 0 for a zero span. -/
structure Span where
  off   : Nat
  count : Nat
  skip  : Nat
  addr  : Nat
  len   : Nat
  compressed : Bool
  raw   : Bool
  zero  : Bool
  encrypted : Bool
  keyGen : Nat
  seqLo : Nat
deriving DecidableEq, Repr

/-- A map record in the map band (R149) with the spans it holds; `pos` is the position of its PAGE_WRITTEN entry. -/
structure L2Rec where
  addr  : Nat
  len   : Nat
  snap  : Nat
  spans : List Span
  pos   : Nat
deriving DecidableEq, Repr

/-- A write-back in progress (R155): where the copy is placed, and its class (R146, R154). `move` marks the relocation of a record
(R150). -/
structure WriteBack where
  addr  : Nat
  len   : Nat
  snap  : Nat
  spans : List Span
  first : Option Nat
  cls   : PClass
  move  : Bool
deriving DecidableEq, Repr

/-- A request to the map: the lookup of a command's piece, a region's part of a command's update, the update of a relocated extent,
by its new address, or the part of a command that its coordinator forwarded (R145, R157). -/
inductive MapReq
  | lookup (cmd lba : Nat)
  | update (cmd region : Nat)
  | relocate (addr : Nat)
  | forward (cmd : Nat)
deriving DecidableEq, Repr

/-- A request that waits at the owner of a region (R145, R146, R153, R156). -/
structure MapWait where
  nsid : Nat
  r    : Nat
  cls  : PClass
  cmd  : Nat
  req  : MapReq
deriving DecidableEq, Repr

/-- A region's directory entry with its page (R136, R139, R143): `l0` is its place in L0, `frame` its L1 frame, `kept` that its fetch
has a place kept for class H0 (R145), `olds` the records that an entry not yet programmed has replaced. A region not listed is
EMPTY. -/
structure Region where
  nsid   : Nat
  r      : Nat
  spans  : List Span
  l0     : Option Nat
  ref0   : Bool
  frame  : Option Nat
  ref1   : Bool
  dirty  : Option Nat
  fetching : Option PClass
  kept   : Bool
  l2     : Option L2Rec
  olds   : List L2Rec
  wb     : Option WriteBack
  marked : Bool
deriving DecidableEq, Repr

/-- Journal entry types (R152). -/
inductive JType | write | unmap | relocate | pageWritten | dirWritten | forward | forwardDone | pad
deriving DecidableEq, Repr

/-- A journal entry (R152). -/
structure JEntry where
  pos   : Nat
  type  : JType
  nsid  : Nat
  lba   : Nat
  count : Nat
  span  : Span
  seq   : Nat
  mirrored : Bool
deriving DecidableEq, Repr

/-- An entry of a slot's record table (R142) as a checkpoint names it. -/
structure DirAt where
  nsid  : Nat
  index : Nat
  addr  : Nat
  len   : Nat
deriving DecidableEq, Repr

/-- The journal of a slot (R152 to R154, R158). Positions below `durable` are in programmed segments; `closed` holds
the ends of the quarters that wait for programming; the open quarter begins after the last of them. `checkpoint` and `tables` are
the window start and the record table of the last checkpoint record, `hot` that the window has reached 75% and is not below 50%. -/
structure Journal where
  slot    : Nat
  head    : Nat
  durable : Nat
  closed  : List Nat
  entries : List JEntry
  window  : Nat
  checkpoint : Nat
  tables  : List DirAt
  hot     : Bool
  ledger  : List (Nat × Nat)
deriving DecidableEq, Repr

/-- The part of a command that the coordinator, the owner of region `region - 1`, sends to the owner of `region` (R157, R158): for a
read the piece that begins at `read`, for a write the plans of `part`. `arrived` says that the owner has it. -/
structure Forward where
  cmd     : Nat
  cls     : PClass
  read    : Option Nat
  part    : List Plan
  nsid    : Nat
  region  : Nat
  sentMs  : Nat
  arrived : Bool
  replay  : Bool
  applied : Bool
  confirmed : Bool
deriving DecidableEq, Repr

/-- The write-back of a directory record (R155). -/
structure DirWb where
  addr  : Nat
  len   : Nat
  snap  : Nat
  first : Option Nat
  cls   : PClass
deriving DecidableEq, Repr

/-- A directory record of a slot, with its entry of the record table (R142, R155). -/
structure DirRec where
  slot  : Nat
  nsid  : Nat
  index : Nat
  addr  : Nat
  len   : Nat
  dirty : Option Nat
  wb    : Option DirWb
  loaded : Bool
deriving DecidableEq, Repr

/-- The hands of the clocks that choose what leaves L0 and L1 of a tile (R143). -/
structure ClockHand where
  tile : Nat
  l0   : Nat
  l1   : Nat
deriving DecidableEq, Repr

/-- The map engines (R128 to R165). `chunks` gives the chunks that a namespace takes on each tile; `away` the slots that are adopted,
`handBack` those of them being handed back and `returned` the directory records their tiles have again (slot, namespace, index);
`gone` the regions that an entry not yet programmed made EMPTY; `dirFixed` the directory space a tile had at map_enable (R140). -/
structure MapState where
  regions  : List Region
  journals : List Journal
  forwards : List Forward
  dirs     : List DirRec
  chunks   : List (Nat × Nat)
  away     : List Nat
  handBack : List Nat
  replaying : List Nat
  bandHigh : List Nat
  returned : List (Nat × Nat × Nat)
  gone     : List Region
  waiting  : List MapWait
  hands    : List ClockHand
  dirFixed : List (Nat × Nat)
deriving DecidableEq, Repr

/-! ### The write path (R166 to R191) -/

/-- Where an extent stands on its way to flash (R34, R179, R180). -/
inductive Stage | toPlace | sent | member | mirrored | bothHeld | confirmed | closed
deriving DecidableEq, Repr

/-- An extent on the write path: its header (R170), its original data and its body as stored, where it is placed and how far it is, the controller that
its programming is charged to (R120), and whether the host has its write's completion (R93). `src` is the extent it copies; an extent
of a coalesced region (R151) takes its blocks from all of `parts`, by address and sequence. -/
structure Ext where
  seq    : Nat
  nsid   : Nat
  slba   : Nat
  nblk   : Nat
  compressed : Bool
  raw    : Bool
  static : Bool
  len    : Nat
  keyGen : Nat
  crc    : Nat
  plain  : Bytes
  body   : Bytes
  stream : Stream
  port   : Nat
  cmd    : Nat
  src    : Option Nat
  mask   : List Nat
  stage  : Stage
  addr   : Nat
  sg     : Nat
  band   : Nat
  row    : Nat
  member : Nat
  inDram : Bool
  mirrorTile : Nat
  mirrorHeld : Bool
  committed : Bool
  replacing : Bool
  parts  : List (Nat × Nat)
  payer  : Payer
  acked  : Bool
deriving DecidableEq, Repr

/-- The states of a row (R178). -/
inductive RowState | filling | closed | programming | programmed | failed
deriving DecidableEq, Repr

/-- A data unit of a row (R176, R177). -/
structure RUnit where
  member   : Nat
  holder   : Option Nat
  used     : Nat
  returned : Bool
  recalled : Bool
deriving DecidableEq, Repr

/-- A row of an open band, until it is programmed and released; `closedMin` is the operating minutes when it closed (R250). -/
structure Row where
  sg     : Nat
  band   : Nat
  idx    : Nat
  stream : Stream
  state  : RowState
  units  : List RUnit
  timer  : Bool
  expired : Bool
  parity : List Nat
  pBytes : Bytes
  qBytes : Bytes
  fps    : List (Nat × Nat)
  done   : List Nat
  settled : Bool
  coarse  : List Nat
  closedMin : Nat
deriving DecidableEq, Repr

/-- The write sequence lease of a port tile (R172). -/
structure SeqLease where
  tile : Nat
  next : Nat
  last : Nat
  more : Option Nat
deriving DecidableEq, Repr

structure WriteState where
  exts    : List Ext
  rows    : List Row
  leases  : List SeqLease
  seqNext : Nat
  seqMark : Nat
  active  : List Nat
  nextBandSeq : Nat
deriving DecidableEq, Repr

/-! ### Blocks, bands and reclaim (R192 to R228) -/

/-- Block states (R11, R192). -/
inductive BlkState | good | grownBad | factoryBad | spare | seal | mapBand | bootBand | eventBand
deriving DecidableEq, Repr

/-- A block: its state and wear (R194, R212), its block table entry (R199, R221) and its read count (R260). -/
structure Blk where
  die    : Nat
  block  : Nat
  state  : BlkState
  wear   : Nat
  placed : Nat
  grains : Nat
  live   : Nat
  summary : Nat
  reads  : Nat
  retire : Bool
deriving DecidableEq, Repr

/-- Band states (R11, R195). -/
inductive BandState | free | open | sealed | reclaiming | erasePending | erasing | retired
deriving DecidableEq, Repr

/-- Why a band is being relocated (R195). -/
inductive Why | reclaim | promotion | castling | sweep | replace | mapReclaim | refresh | idle
deriving DecidableEq, Repr

/-- A band table entry (R194) and the progress of its relocation and erase (R203). `named` gives, for members with a substitute, the die
and the block by which the map's addresses name what they hold. -/
structure Band where
  sg     : Nat
  idx    : Nat
  seq    : Nat
  state  : BandState
  slc    : Bool
  mapBand : Bool
  early  : Bool
  sealMin : Nat
  rows   : Nat
  stream : Stream
  blocks : List Nat
  why    : Option Why
  toScan : List Nat
  committed : Bool
  drainMs : Nat
  erased : List Nat
  retireMembers : List Nat
  nextRow : Nat
  sweepIds : List Nat
  named : List (Nat × Nat × Nat)
deriving DecidableEq, Repr

/-- An extent in flash: its header, its original data and its body as stored, and which of its blocks are lost (R170, R174, R272). -/
structure FExt where
  addr   : Nat
  seq    : Nat
  nsid   : Nat
  slba   : Nat
  nblk   : Nat
  compressed : Bool
  raw    : Bool
  static : Bool
  len    : Nat
  keyGen : Nat
  crc    : Nat
  plain  : Bytes
  body   : Bytes
  sg     : Nat
  band   : Nat
  row    : Nat
  member : Nat
  lost   : List Nat
deriving DecidableEq, Repr

/-- A sweep of a secure deallocation (R223 to R226); `kept` once it is in the registry, with its step 2. -/
structure Sweep where
  id     : Nat
  nsid   : Nat
  eg     : Nat
  ranges : List (Nat × Nat)
  kept   : Bool
  state  : Nat
  unerased : Nat
  bands  : List (Nat × Nat)
  doneBands : Nat
  relocBytes : Nat
  startMin : Nat
  doneMin : Nat
  cmd    : Option Nat
  rows   : List (Nat × Nat × Nat)
deriving DecidableEq, Repr

/-- Blocks, bands and what they hold. `anchors` are the anchor blocks by die and block (R309, R314). -/
structure ReclaimState where
  blocks  : List Blk
  anchors : List (Nat × Nat)
  bands   : List Band
  flash   : List FExt
  sweeps  : List Sweep
  nextSweep : Nat
  censusDone : List Nat
  toCensus : List (Nat × Nat)
  summariesDone : List Nat
  castling : List Nat
deriving DecidableEq, Repr

/-! ### NAND channels and dies (R229 to R262, R84 to R86) -/

/-- Channel states (R261). -/
inductive ChState | off | training | up | stepping | failed
deriving DecidableEq, Repr

/-- A NAND channel (R232, R236 to R239). `step` is the training step of R236 it has reached; `limit` the rate R232
allows; `bursts` the time of each load's last training burst; `loads` its volumes. -/
structure Chan where
  ch     : Nat
  state  : ChState
  step   : Nat
  rate   : Nat
  limit  : Nat
  margin : Nat
  downAt : List Nat
  lastDown : Nat
  pinned : Bool
  loads  : List Nat
  bursts : List (Nat × Nat)
  turn   : Nat
deriving DecidableEq, Repr

/-- Operations of a die. -/
inductive OpKind | read | program | erase
deriving DecidableEq, Repr

/-- Where an operation of a die stands: waiting in its tile's scheduler, active on the die, being suspended, suspended,
its codeword waiting for a lane of the decoder, in a lane, or handed to reconstruction (R84, R87, R246, R254, R271). -/
inductive OpState | waiting | active | suspending | suspended | toDecode | decoding | recon
deriving DecidableEq, Repr

/-- What an operation of a die is for: a piece of a command, the program of a row or the erase of a band; the L2 record of a region
(R147); a copy out of a band (R201); a member's part of a reconstruction, by the operation that needs it (R271); the rebuild of a
row on a substitute (R285); the program of a map record or a directory record (R155); a page of the event band (R427, R433). -/
inductive OpUse
  | plain
  | mapFetch (nsid r : Nat)
  | dirLoad (slot nsid i : Nat)
  | copy
  | recon (op : Nat)
  | rebuild
  | mapWrite (dir : Bool) (nsid i : Nat)
  | archive
deriving DecidableEq, Repr

/-- An operation of a die (R84 to R86, R246, R254). `step` is the step of the decode ladder, `tries` the re-reads made at
step 2, `reads` the array reads still to make at this step; `fine` marks a fine pass; `cmd` and `lba` name the piece a
read serves; `words` is the number of codewords it transfers, `left` those of them not yet decoded; `since` when it began to wait. -/
structure DieOp where
  id     : Nat
  die    : Nat
  kind   : OpKind
  use    : OpUse
  words  : Nat
  left   : List Nat
  cls    : PClass
  state  : OpState
  addr   : Nat
  cmd    : Nat
  lba    : Nat
  sg     : Nat
  band   : Nat
  row    : Nat
  member : Nat
  fine   : Bool
  waited : Bool
  step   : Nat
  tries  : Nat
  reads  : Nat
  since  : Nat
deriving DecidableEq, Repr

/-- A die (R84 to R86, R246 to R248, R257, R258). `hist` holds the die time of its operations of the last 100 ms by the
time they ended, with their class; `wrr` the turns left of H1 to H3; `resumed` that resume_min_us has not passed; `slow`
the times of slow suspends; `uncorr` the blocks whose codewords failed step 4, with the time. -/
structure Die where
  die     : Nat
  failed  : Bool
  lastBg  : Bool
  hist    : List (Nat × PClass × Nat)
  wrr     : List Nat
  resumed : Bool
  slow    : List Nat
  notReady : Bool
  uncorr  : List (Nat × Nat)
  patrolBlock : Nat
  patrolPage  : Nat
deriving DecidableEq, Repr

/-- One offset of a read-level table with its sums (R256). -/
structure Level where
  die    : Nat
  bin    : Nat
  level  : Nat
  offset : Int
  up     : Nat
  down   : Nat
  words  : Nat
  steps  : List Nat
deriving DecidableEq, Repr

/-- The NAND side: `known` holds the dies found at first start (R234), `levels` and `saved` the read-level tables as held and
as saved (R256), `refresh` the blocks due for refresh, `patrolNow` blocks patrolled next (R260). -/
structure MediaState where
  chans  : List Chan
  dies   : List Die
  known  : List Nat
  ops    : List DieOp
  nextOp : Nat
  levels : List Level
  saved  : List Level
  refresh : List (Nat × Nat)
  patrolNow : List (Nat × Nat)
deriving DecidableEq, Repr

/-! ### Stripe groups (R263 to R296) -/

/-- Stripe group states (R279). -/
inductive GroupState | optimal | degraded | exposed | unavailable
deriving DecidableEq, Repr

/-- A stripe group (R263 to R266, R279). `members` are die indices, m0 first; `lost` the members lost, with 0 for a die
failure and 1 for a tile loss. -/
structure Group where
  sg      : Nat
  tileSafe : Bool
  members : List Nat
  state   : GroupState
  lost    : List (Nat × Nat)
  healed  : Nat
deriving DecidableEq, Repr

/-- A substitute of a band's member (R282, R285, R290). -/
structure Subst where
  sg     : Nat
  band   : Nat
  member : Nat
  die    : Nat
  block  : Nat
  done   : Bool
  shared : Bool
  next   : Nat
deriving DecidableEq, Repr

/-- A stripe journal entry (R196, R290). `state` is the cause of a MEMBER_LOST and the mode in a band record. -/
structure SjEntry where
  kind   : Nat
  band   : Nat
  member : Nat
  die    : Nat
  block  : Nat
  old    : Nat
  seq    : Nat
  row    : Nat
  state  : Nat
  mask   : Nat
  fpP    : Nat
  fpQ    : Nat
  minutes : Nat
deriving DecidableEq, Repr

/-- The stripe journal of a group (R290 to R293): its tail, its entries in flash, the time until which the tail has no mirror, the
copies lost. -/
structure Sj where
  sg       : Nat
  tail     : List SjEntry
  flash    : List SjEntry
  soloUntil : Nat
  copiesLost : List Nat
deriving DecidableEq, Repr

/-- A lost-range entry (R288). -/
structure LostRange where
  cause  : Nat
  sg     : Nat
  nsid   : Nat
  lba    : Nat
  count  : Nat
  die    : Nat
  minutes : Nat
  seq    : Nat
deriving DecidableEq, Repr

/-- A codeword that counts as lost in its slot though its member serves (R270): `cw` is its number in the block. `dead` marks one whose
slot has three or more losses, until the search for what it held (R272). -/
structure LostSlot where
  sg     : Nat
  band   : Nat
  row    : Nat
  member : Nat
  cw     : Nat
  dead   : Bool
deriving DecidableEq, Repr

/-- A region in the lost-region table: its lost blocks (R289). -/
structure LostRegion where
  nsid   : Nat
  region : Nat
  blocks : List Nat
deriving DecidableEq, Repr

/-- A row in a leader's fingerprint store (R273). -/
structure FpRow where
  sg     : Nat
  band   : Nat
  row    : Nat
  fps    : List (Nat × Nat × Nat)
  since  : Nat
  mismatch : Bool
deriving DecidableEq, Repr

/-- A tile's verify test (R277) and its parity counters (R296). -/
structure Verify where
  tile  : Nat
  sg    : Nat
  busy  : Bool
  wrong : Nat
deriving DecidableEq, Repr

/-- Redundancy. `unresolved` holds the bands, by group and band, that are refreshed for a mismatch that names no member (R274). -/
structure RedState where
  formed   : Bool
  groups   : List Group
  substs   : List Subst
  sjs      : List Sj
  lost     : List LostRange
  lostTotal : Nat
  lostSlots : List LostSlot
  lostRegions : List LostRegion
  regionFull : List Nat
  fpRows   : List FpRow
  noCompare : List (Nat × Nat × Nat)
  unresolved : List (Nat × Nat)
  verify   : List Verify
  stalled  : List Nat
  dataLost : Bool
deriving DecidableEq, Repr

/-! ### Buffer pools (R323 to R337) -/

/-- A pool of a tile (R324, R330, R334): its head handle, its free count, the allocated buffers and the generations that
are not 0. `late` holds frees that arrived during a rebuild. -/
structure Pool where
  tile  : Nat
  pool  : Nat
  head  : Nat
  free  : Nat
  alloc : List Nat
  gens  : List (Nat × Nat)
  quarantined : Bool
  resetting   : Bool
  late  : List Nat
deriving DecidableEq, Repr

/-! ### The compression engine (R344 to R348) -/

/-- What a stream slot serves: the pipe and the client and class that hold it. -/
inductive CmpOp | compress | decompress | crcOnly
deriving DecidableEq, Repr

/-- A stream slot (R344): its input so far and the length of the output written, from which the state of R345 follows. -/
structure CmpSlot where
  tile   : Nat
  slot   : Nat
  op     : CmpOp
  client : Nat
  cls    : Nat
  input  : Bytes
  outLen : Nat
  lastMs : Nat
deriving DecidableEq, Repr

/-! ### Requests to shared engines (R40, R87, R347) -/

/-- The engines that serve requests in class order: the hard-decode and the soft-decode lanes of the LDPC codec, the pipes of the
compression engine, the cipher lanes, the DRAM controller (R87). -/
inductive EngUnit | hard | soft | compressor | decompressor | cipher | dram
deriving DecidableEq, Repr

/-- What a request asks of its engine: a compression job, an encryption or decryption job with the lane that its check finds faulty, or
the read of a burst with the 16 beats that the devices return. -/
inductive EngWork
  | cmp (op : CmpOp) (j : CmpJob)
  | cry (dec : Bool) (j : CryJob) (fault : Option Nat)
  | dram (acc : DramAcc) (beats : List Nat)
deriving DecidableEq, Repr

/-- A request that waits at an engine of a tile; `no` rises in the order of arrival. -/
structure EngReq where
  no   : Nat
  tile : Nat
  unit : EngUnit
  cls  : PClass
  work : EngWork
deriving DecidableEq, Repr

/-- The turns left to H1, H2 and H3 at an engine of a tile (R87). -/
structure ClassTurn where
  tile   : Nat
  unit   : EngUnit
  credit : List Nat
deriving DecidableEq, Repr

/-- A job that a pipe has taken: the stream slot it runs on, the blocks it has done when it was adjourned, and how often it was
(R344, R347). -/
structure PipeJob where
  op     : CmpOp
  job    : CmpJob
  slot   : Option Nat
  done   : Nat
  adjourned : Nat
deriving DecidableEq, Repr

/-- A pipe of a compression engine: the job in hand and the adjourned job (R347). A pipe not listed has neither. -/
structure Pipe where
  tile  : Nat
  unit  : EngUnit
  hand  : Option PipeJob
  saved : Option PipeJob
deriving DecidableEq, Repr

structure Engines where
  reqs  : List EngReq
  next  : Nat
  turns : List ClassTurn
  pipes : List Pipe
deriving DecidableEq, Repr

/-! ### Keys, digests and the verifier (R350 to R369) -/

/-- A key slot of a tile's encryption engine (R354, R357). -/
structure KeySlot where
  tile   : Nat
  slot   : Nat
  key1   : Bytes
  key2   : Bytes
  loaded : Bool
  zeroiseFail : Bool
deriving DecidableEq, Repr

/-- The states of a digest context (R364). -/
inductive DigState | opened | bound | finished
deriving DecidableEq, Repr

/-- A digest context that is not FREE (R362 to R364). `result` is what its comparison reported: equal, no_expected, overlong,
truncated. `snoop` marks a context bound at open, `verify` the context that the signature verifier has bound. -/
structure DigCtx where
  tile   : Nat
  ctx    : Nat
  state  : DigState
  alg    : Nat
  key    : HmacKey
  expected : Option Bytes
  owner  : Nat
  data   : Bytes
  len    : Nat
  source : Nat
  result : Option (Bool × Bool × Bool × Bool)
  snoop  : Bool
  verify : Bool
deriving DecidableEq, Repr

/-- A signature verify in progress on a tile (R366, R367). -/
structure Vfy where
  tile  : Nat
  key   : Nat
  pub   : Bytes
  sig   : Bytes
  ctx   : Nat
deriving DecidableEq, Repr

structure CryptoState where
  slots   : List KeySlot
  gens    : List (Nat × Nat)
  reload  : Bool
  ctxs    : List DigCtx
  vfys    : List Vfy
deriving DecidableEq, Repr

/-! ### DRAM channels (R370 to R388) -/

/-- The capture registers of a freeze (R384, R388). -/
structure Capture where
  cause  : Nat
  acc    : DramAcc
  further : Nat
  bad    : Nat
  minutes : Nat
  synd   : Nat
deriving DecidableEq, Repr

/-- A bank's open row, the row it last opened, and its 4-bit history (R377). -/
structure Bank where
  subch : Nat
  rank  : Nat
  group : Nat
  bank  : Nat
  open_ : Option Nat
  last  : Option Nat
  hist  : Nat
deriving DecidableEq, Repr

/-- A rank: its refresh debt, whether it is powered down or in self-refresh, its margins and the time of its last write-tracking step
(R378, R379, R383). -/
structure DramRank where
  rank  : Nat
  debt  : Nat
  down  : Bool
  selfRef : Bool
  rdMargin : Nat
  wrMargin : Nat
  trainMs : Nat
deriving DecidableEq, Repr

/-- A tile's DRAM channel (R372 to R388). `step` is the start step it has reached, 0 before drc_enable. -/
structure Dram where
  tile   : Nat
  step   : Nat
  ready  : Bool
  rate   : Nat
  frozen : Bool
  restarting : Bool
  capRead : Bool
  cap    : Option Capture
  hot    : Bool
  coolPolls : Nat
  overtemp : Bool
  ranks  : List DramRank
  banks  : List Bank
  ces    : List (DramAcc × Nat)
deriving DecidableEq, Repr

/-! ### Power loss protection (R297 to R322) -/

/-- A discharge test (R306): its step (1 charging, 2 until the 100 µs mark, 3 discharging), when it began, when the step
began, V0, V1 and the ESR found. -/
structure TestRun where
  step    : Nat
  startMs : Nat
  stepMs  : Nat
  v0      : Nat
  v1      : Nat
  esr     : Nat
deriving DecidableEq, Repr

/-- The restart record (R314). `ckpts` holds the checkpoint position of each slot; the addresses of dump directories and of
the copy table stand for what `Dump` and the stripe journals hold. -/
structure RestartRec where
  recSeq  : Nat
  reason  : Nat
  wt      : Bool
  held    : Bool
  cycles  : Nat
  wseqMark : Nat
  tilesDumped : Nat
  dirs    : List (Nat × Nat)
  ckpts   : List (Nat × Nat)
  dumpSeq : Nat
  minutes : Nat
  capUf   : Nat
  testMin : Nat
  evrMark : Nat
deriving DecidableEq, Repr

/-- A dump (R310 to R312): its dump_seq, the tiles that have reported with the addresses of their directories, when the primary reported, and
the items: staged extents, the heads of the map journals' tails, the stripe journal tails, the unarchived events. `complete` once the restart
record is written; `restored` once a restart has read it. -/
structure Dump where
  seq      : Nat
  reported : List Nat
  dirs     : List (Nat × Nat)
  primaryMs : Option Nat
  exts     : List (Nat × Ext)
  heads    : List (Nat × Nat)
  tails    : List (Nat × List SjEntry)
  complete : Bool
  restored : Bool
deriving DecidableEq, Repr

/-- Whether a dump holds the items of a tile: it has reported; 15 stands for an earlier dump that is still held (R314, R317). -/
def Dump.holds (d : Dump) (t : Nat) : Bool := d.reported.contains t || t == 15

structure Plp where
  writeThrough : Bool
  causes   : List Nat
  passedSince : Bool
  failed   : Bool
  warn     : Bool
  bankMv   : Nat
  budgetMv : Nat
  limitMib : Nat
  capUf    : Nat
  testMin  : Nat
  passEsr  : Nat
  test     : Option TestRun
  testDue  : Bool
  lastTestMin : Nat
  result   : Nat
  esrMohm  : Nat
  cap01mF  : Nat
  holdupEn : Bool
  hutestEn : Bool
  pfailDriven : Bool
  bankSafe : Bool
  offReady : Bool
  prepare  : Bool
  throttling : Bool
  dump     : Option Dump
  record   : Option RestartRec
  lastIncomplete : Bool
  lastUs   : Nat
  lastMib  : Nat
  started  : Bool
deriving DecidableEq, Repr

/-! ### Temperature, clocks and power domains (R389 to R416) -/

/-- A temperature sensor (R389 to R393): readings in 0.25 °C. -/
structure Sensor where
  tile    : Nat
  idx     : Nat
  reading : Option Int
  peak    : Int
  faulty  : Bool
  warned  : Bool
  windowRef : Int
deriving DecidableEq, Repr

/-- What last raised a tile's level (R392, R414). -/
inductive Trig | none | rate | abs | power
deriving DecidableEq, Repr

/-- A tile's throttle level, its histogram (R392, R396) and its sleep state (R402: 0 ACTIVE, 1 LIGHT, 2 DEEP). -/
structure ThermTile where
  tile    : Nat
  level   : Nat
  changedMs : Nat
  trig    : Trig
  hist    : List Nat
  sleep   : Nat
  critPending : Bool
deriving DecidableEq, Repr

structure Therm where
  sensors : List Sensor
  tiles   : List ThermTile
deriving DecidableEq, Repr

/-- The reference clocks (R398 to R400) and the island's oscillator (R397). -/
structure Clk where
  aOk    : Bool
  bOk    : Bool
  active : Nat
  holdover : Bool
  ethOk  : Bool
  ethSynth : Bool
  switches : Nat
  aonPpm : Int
deriving DecidableEq, Repr

/-- A rail of R406 to R408. `vset` is in units of 5 mV. -/
structure Rail where
  idx   : Nat
  vset  : Nat
  fault : Bool
  status : Nat
deriving DecidableEq, Repr

/-- Power management: DEEP (R403; 0 RUN, 1 entering, 2 DEEP, 3 waking), the rails, the measured and estimated power in
10 mW, ISENSE (R409, R410), an excursion over the limit (R411). -/
structure Power where
  deep     : Nat
  rails    : List Rail
  measured : Nat
  estimated : Nat
  isenseFault : Bool
  overLimit : Bool
deriving DecidableEq, Repr

/-- The always-on island (R401, R513 to R516): the package state (0 OFF, 1 STANDBY, 2 RUN), its supply, SYS_RST_L held low,
the counters, the tiles fenced, whether the board port link may train. -/
structure Island where
  pkg     : Nat
  vaux    : Bool
  onVio18 : Bool
  sysRst  : Bool
  cycles  : Nat
  minutes : Nat
  fenced  : List Nat
  bport   : Bool
deriving DecidableEq, Repr

/-- The management cores (R32, R501): primary and standby, the last heartbeats and the restarts in progress. -/
structure Mgmt where
  primary : Nat
  standby : Nat
  beats   : List (Nat × Nat)
  restarts : List (Nat × Nat)
deriving DecidableEq, Repr

/-- What SMART counts for a namespace (R496): host bytes in and out, read and write commands, unrecovered reads. -/
structure NsCount where
  nsid   : Nat
  read   : Nat
  written : Nat
  reads  : Nat
  writes : Nat
  errors : Nat
deriving DecidableEq, Repr

/-- Health data kept by the device (R495 to R500). `crit` is the critical warning as last reported; `lostUnread` that bit 2
waits for log page 0xC3 to be read; `sparesMade` the SPARE blocks made at first start per endurance group; `counts` the media bytes charged
to each endurance group (R498); `life` the first eleven counters of R500. -/
structure Health where
  crit       : Nat
  lostUnread : Bool
  sparesMade : List (Nat × Nat)
  unsafeShutdowns : Nat
  counts     : List (Nat × Nat)
  life       : List Nat
  nsCounts   : List NsCount
deriving DecidableEq, Repr

/-! ### The event recorder (R417 to R437) -/

/-- An event on its way to the recorder (R420). -/
structure EvRaise where
  ev     : Ev
  tile   : Nat
  params : List Nat
deriving DecidableEq, Repr

/-- An event record (R417): whether it is archived, and when it was stored. -/
structure EvRec where
  seq    : Nat
  code   : Nat
  sev    : Nat
  tile   : Nat
  flags  : Nat
  minutes : Nat
  cycles : Nat
  repeats : Nat
  params : List Nat
  archived : Bool
  ms     : Nat
deriving DecidableEq, Repr

/-- Suppressed events of a code, with the tile and parameters of the last (R424, R425). -/
structure EvSupp where
  code   : Nat
  count  : Nat
  tile   : Nat
  params : List Nat
deriving DecidableEq, Repr

/-- The window (R432 to R434): its cursor, its status bits, and the record that it latched. -/
structure EvWin where
  cursor   : Nat
  valid    : Bool
  gap      : Bool
  pending  : Bool
  fromBand : Bool
  latched  : Option EvRec
deriving DecidableEq, Repr

/-- The event recorder. `raised` holds events not yet stored; `store` the store or the fallback file; `band` what the event band's
block in use holds, `bandPages` the pages written to it, `bandPrev` the other block;
`last` and `mark` the highest number issued and evr_mark; `drops` the drop counters of severities 0 to 7; `buckets` the codes
whose bucket is not full, with their tokens; `archiving` the page being programmed; `dumped` what a dump holds; `fresh` that
the island started afresh; `evtNext` the next number due on the event ring. -/
structure Evr where
  raised  : List EvRaise
  store   : List EvRec
  band    : List EvRec
  bandPrev : List EvRec
  bandPages : Nat
  bandBlock : Nat
  last    : Nat
  mark    : Nat
  drops   : List Nat
  buckets : List (Nat × Nat)
  supp    : List EvSupp
  fallback : Bool
  archiveFault : Bool
  archiving : Option (List Nat)
  trigger : Bool
  win     : EvWin
  dumped  : List EvRec
  fresh   : Bool
  evtNext : Nat
deriving DecidableEq, Repr

/-! ### The board port (R466 to R494) -/

/-- A ring (R470 to R472): its indices and the entries published since its last interrupt. -/
structure Ring where
  k    : Nat
  head : Nat
  tail : Nat
  unsignalled : Nat
deriving DecidableEq, Repr

/-- The descriptor that runs (R473, R476): its bytes and its ring index. `drop` marks one whose response is discarded. -/
structure RunDesc where
  bytes : Bytes
  index : Nat
  drop  : Bool
deriving DecidableEq, Repr

/-- A commit (R482): its state (0 IDLE, 1 VALIDATING, 2 APPLYING), its outcome, the snapshot it works on and whether a
descriptor started it. -/
structure Commit where
  state    : Nat
  rejected : Bool
  reason   : Nat
  badOffset : Nat
  seq      : Nat
  applied  : Nat
  snapshot : List RegVal
  fromRing : Bool
deriving DecidableEq, Repr

structure Board where
  rings   : List Ring
  running : Option RunDesc
  busy    : Bool
  commit  : Commit
  skipped : Nat
deriving DecidableEq, Repr

/-! ### Firmware, the code flash and boot (R438 to R465) -/

/-- An image as a slot holds it: its pieces by index, piece 0 the manifest (R445). -/
abbrev Image := List (Nat × Bytes)

/-- The running image (R448, R457). `source` is 0 slot A, 1 slot B, 2 staging, 3 boot band. -/
structure RunImage where
  source   : Nat
  manifest : Bytes
deriving DecidableEq, Repr

/-- The code-flash die (R438 to R443): the operation in progress (0 none, 1 program, 2 erase), its failures on one page or
sector, the counters of CFC_STATUS and CFC_ERRORS, and the sectors' erases. -/
structure CodeFlash where
  op      : Nat
  fails   : Nat
  failed  : Bool
  powered : Bool
  idleMs  : Nat
  stallMax : Nat
  opFail  : Nat
  readUncorr : Nat
  erases  : List (Nat × Nat)
deriving DecidableEq, Repr

/-- What a record of a config store keeps (R107, R113, R314, R458, R462): the format version of the store, a namespace's record, a wrapped
key, a tenant, an endurance group, the provider, an interface, the anchor blocks by die; or that the record with a key is deleted. -/
inductive StoreItem
  | header (version : Nat)
  | ns (n : Ns)
  | key (nsid : Nat) (wrapped : Bytes)
  | tenant (t : Tenant)
  | eg (e : Eg)
  | provider (p : Provider)
  | netif (n : NetIf)
  | anchors (blocks : List (Nat × Nat))
  | sweep (id nsid eg : Nat) (ranges : List (Nat × Nat))
  | gone (key : Nat × Nat)
deriving DecidableEq, Repr

/-- A record in a config store (R440, R462): where it begins and how many page pairs it fills; `dead` once it is superseded. -/
structure StoreRec where
  sector : Nat
  pair   : Nat
  pairs  : Nat
  item   : StoreItem
  dead   : Bool
deriving DecidableEq, Repr

/-- A config store (R439, R458, R462): whether it holds a format, which, its sectors that are not erased, oldest first and numbered from
its first, the pairs written in the newest, and its records. -/
structure CfgStore where
  on      : Bool
  version : Nat
  used    : List Nat
  fill    : Nat
  recs    : List StoreRec
deriving DecidableEq, Repr

/-- What the staging log says (R453): the stage of FWU_STATUS without COMPLETE, the piece bitmap, and the marks. -/
structure StageLog where
  stage   : Nat
  pieces  : Nat
  pending : Bool
  activated : Bool
  intent  : Bool
  installDone : Bool
deriving DecidableEq, Repr

/-- The records of the staging log (R453). -/
inductive LogKind
  | stageRestart | manifestOk | pieceOk (i : Nat) | activated | pendingStart | confirmIntent | installDone | confirmed
  | snapshot (l : StageLog)
deriving DecidableEq, Repr

/-- A record of the staging log: its sector, from the log's first, its page pair and what it says (R440, R453). -/
structure LogRec where
  sector : Nat
  pair   : Nat
  kind   : LogKind
deriving DecidableEq, Repr

/-- Firmware update. `log` is the staging log of R453; what it says is held in the stage (0 EMPTY, 1 COLLECTING, 2 COMPLETE, 3 UNCONFIRMED, 4 INSTALLING) with
`activated`, `pendingStart`, `intent` and `installDone`; `writing` is the piece being written; `actStep` the step of R457 that a
live activation has reached, 0 when none runs; `instStep` the step of R461 and `instDone` the sectors it has copied; `stores` the two
config stores, `cur` the one that is read, `dual` that both are written (R458). -/
structure FwState where
  slotA    : Image
  slotB    : Image
  staging  : Image
  bootBand : List Image
  stage    : Nat
  checking : Bool
  pendingStart : Bool
  activated : Bool
  intent   : Bool
  installDone : Bool
  writing  : Option (Nat × Bytes)
  run      : Option RunImage
  running  : Bool
  fallback : Bool
  recovery : Bool
  bootState : Nat
  bootReason : Nat
  activating : Bool
  actStep  : Nat
  instStep : Nat
  instDone : Nat
  dual     : Bool
  log      : List LogRec
  stores   : List CfgStore
  cur      : Nat
  flash    : CodeFlash
deriving DecidableEq, Repr

/-! ### The provider plane (R100) -/

/-- The provider-plane operation that runs and has steps left: on a namespace, or on the firmware (R100, R114 to R117, R355, R452,
R457). -/
inductive ProvKind
  | nsDelete (nsid : Nat)
  | detach (nsid : Nat) (tenants : List Nat)
  | format (erase : Bool) (rest : List Nat)
  | keyLoad (nsid : Nat) (wrapped : Bytes) (waiting : List Nat)
  | firmware
deriving DecidableEq, Repr

structure ProvOp where
  adm  : Adm
  kind : ProvKind
deriving DecidableEq, Repr

/-! ### Outputs -/

/-- Balls the device drives (R297, R306, R312, R514). -/
inductive Pin | holdupEn | hutestEn | pfailL
deriving DecidableEq, Repr

/-- The parameter that Connect Invalid Parameters names (R56). -/
inductive ConnField | none | cntlid | qid | sqsize
deriving DecidableEq, Repr

/-- What the device sends or drives. -/
inductive Out
  | connAccepted (conn tile port iface : Nat)
  | connRefused (tile port iface : Nat)
  | connClosed (conn : Nat)
  | terminate (conn : Nat)
  | qpError (conn : Nat)
  | connected (conn cntlid : Nat)
  | connectFailed (conn : Nat) (st : Status) (field : ConnField)
  | completion (cntlid sqid cid : Nat) (st : Status) (dw0 head : Nat)
  | readData (cntlid sqid cid : Nat) (d : Bytes) (last : Bool)
  | fetchData (cntlid sqid cid offset len : Nat)
  | reply (cntlid cid : Nat) (d : List Field)
  | invalidate (cntlid sqid key : Nat)
  | congestion (conn : Nat)
  | pause (tile port prio : Nat) (on : Bool)
  | hostIrq (cntlid vector : Nat)
  | aer (tile : Nat)
  | discovery (conn : Nat) (entries : List (Nat × Nat))
  | discoveryChange (conn : Nat)
  | neighbourReply (tile port vlan : Nat) (target : Bytes) (mac : Nat)
  | echoReply (tile port vlan : Nat) (target data : Bytes)
  | handle (tile h : Nat)
  | poolEmpty (tile : Nat) (cls : PClass)
  | dramData (tile : Nat) (acc : DramAcc) (d : Bytes)
  | dramWrite (tile : Nat) (acc : DramAcc) (beats : List Nat)
  | dramFailed (tile : Nat) (acc : DramAcc)
  | cmpDone (tile client : Nat) (st : CmpStatus) (flags word made crc used : Nat)
  | cryDone (tile : Nat) (st : CryStatus) (gen len : Nat)
  | digest (tile owner : Nat) (a : DigAnswer)
  | pins (ps : List (Pin × Bool))
  | ringEntry (k idx : Nat) (d : Bytes)
  | nandProgram (die : Nat) (pages : List (Nat × Bytes))
  | writeBack (k idx : Nat)
  | ringData (d : List Field)
  | ringIrq (vector : Nat)
  | regRead (offset value : Nat)
  | completerAbort (offset : Nat)
  | miHealth (notReady : Bool) (temp : Option Int) (crit used : Nat)
  | miStatic (vendor : Nat) (serial : Bytes)
deriving DecidableEq, Repr

/-- A message that waits while the host pauses its port or priority (R44). -/
structure HeldOut where
  tile : Nat
  port : Nat
  prio : Nat
  out  : Out
deriving DecidableEq, Repr

/-! ### The machine -/

structure State where
  ident   : Ident
  mem     : List Host.Cell
  regs    : RegFile
  island  : Island
  mesh    : Mesh
  host    : HostSide
  reg     : Registry
  clock   : Clock
  map     : MapState
  wr      : WriteState
  rcl     : ReclaimState
  media   : MediaState
  red     : RedState
  pools   : List Pool
  cmpSlots : List CmpSlot
  eng     : Engines
  cry     : CryptoState
  drams   : List Dram
  plp     : Plp
  therm   : Therm
  clk     : Clk
  power   : Power
  evr     : Evr
  board   : Board
  fw      : FwState
  mgmt    : Mgmt
  health  : Health
  prov    : Option ProvOp
  heldAdmin : List (Adm × Instr)
  released : List (Adm × Instr)
  cleared : List Adm
  nowMs   : Nat
  outs    : List Out
  heldOuts : List HeldOut
  fresh   : Nat
  pending : List Instr
deriving DecidableEq, Repr

/-! ### Why a step can stop -/

/-- No command of this hardware stops the model with a fault: the manual gives every one an effect. The type has no
constructor, so no fault can be answered (safe). -/
inductive Fault
deriving DecidableEq, Repr

/-- Why a command has no meaning here. -/
inductive Refusal
  /-- The model has no meaning for this command. Only the arms of `exec` answer it, and none does (safe). -/
  | notModelled (mnemonic : String)
deriving DecidableEq, Repr

/-! ### Parts and reset -/

/-- Every register at its reset value (R12, R484). -/
def RegFile.reset : RegFile := { live := [], shadow := [], low := [], latch := [] }

/-- The mesh before its links have trained (R26). -/
def Mesh.initial (p : Part) : Mesh :=
  { links := (List.range p.tiles).flatMap fun t =>
      [MeshPort.rankNext, .rankPrevious, .rankPartner, .knight].map fun l =>
        { tile := t, link := l, up := false, replays := [], total := 0 }
    queues := [], rr := [], holds := [], wire := [], seqs := [], escapes := [], delivered := [] }

/-- Ports at PORT_OFF (R42). -/
def Port.initial (p : Part) : List Port :=
  (List.range p.tiles).map fun t =>
    { tile := t, mode := 0, recon := 0, reconAt := 0, linkUp := [], narrow := [], pcieRate := 0, pcieWidth := 0,
      paused := [], allPaused := [] }

/-- No requests. -/
def Engines.initial : Engines := { reqs := [], next := 0, turns := [], pipes := [] }

def HostSide.initial (p : Part) : HostSide :=
  { ports := Port.initial p, conns := [], nextConn := 1, ctrls := [], nextInc := 1, sqs := [], cqs := [], irqs := [], cmds := [],
    nextCmd := 1, freezes := 0, buckets := [], demand := [], arb := [], activeUntil := 0 }

def Registry.initial : Registry := { nss := [], tenants := [], egs := [], leases := [], provider := .none, netifs := [] }

def MeterCheck.none : MeterCheck := { epoch := 0, start := 0, at_ := 0, energy := 0, peak := 0, meters := [] }

/-- The chess clock before a board time is written: the first epoch ends at the first boundary of 60 s (R118, R119). -/
def Clock.initial : Clock :=
  { boardTime := 0, timeUnset := true, epoch := 0, epochStart := 0, epochEnd := 60000, meters := [], estimated := false,
    throughWt := true, countsLost := false, held := [], merging := false, placing := [], delivered := [],
    lastDone := [], interrupted := false, checkpoint := MeterCheck.none }

def MapState.initial : MapState :=
  { regions := [], journals := [], forwards := [], dirs := [], chunks := [], away := [], handBack := [],
    replaying := [], bandHigh := [], returned := [], gone := [], waiting := [], hands := [], dirFixed := [] }

def WriteState.initial : WriteState :=
  { exts := [], rows := [], leases := [], seqNext := 1, seqMark := 0, active := [],
    nextBandSeq := 1 }

def ReclaimState.initial : ReclaimState :=
  { blocks := [], anchors := [], bands := [], flash := [], sweeps := [], nextSweep := 1, censusDone := [], toCensus := [],
    summariesDone := [], castling := [] }

def MediaState.initial : MediaState :=
  { chans := [], dies := [], known := [], ops := [], nextOp := 1, levels := [], saved := [], refresh := [],
    patrolNow := [] }

def RedState.initial : RedState :=
  { formed := false, groups := [], substs := [], sjs := [], lost := [], lostTotal := 0, lostSlots := [],
    lostRegions := [], regionFull := [], fpRows := [], noCompare := [], unresolved := [], verify := [], stalled := [], dataLost := false }

def CryptoState.initial : CryptoState := { slots := [], gens := [], reload := false, ctxs := [], vfys := [] }

/-- Write-through mode with causes PLP_DISABLED and NO_TEST (R304, R322). -/
def Plp.initial : Plp :=
  { writeThrough := true, causes := [1, 2], passedSince := false, failed := false, warn := false, bankMv := 0,
    budgetMv := 0, limitMib := 0, capUf := 0, testMin := 0, passEsr := 0, test := none, testDue := false, lastTestMin := 0,
    result := 0, esrMohm := 0, cap01mF := 0, holdupEn := false, hutestEn := false, pfailDriven := false,
    bankSafe := false, offReady := false, prepare := false, throttling := false, dump := none, record := none,
    lastIncomplete := false, lastUs := 0, lastMib := 0, started := false }

/-- Nine sensors on each tile, none of which has converted yet (R389). -/
def Therm.initial (p : Part) : Therm :=
  { sensors := (List.range p.tiles).flatMap fun t => (List.range 9).map fun i =>
      { tile := t, idx := i, reading := none, peak := 0, faulty := false, warned := false, windowRef := 0 }
    tiles := (List.range p.tiles).map fun t =>
      { tile := t, level := 0, changedMs := 0, trig := .none, hist := List.replicate 16 0, sleep := 0,
        critPending := false } }

def Clk.initial : Clk :=
  { aOk := false, bOk := false, active := 0, holdover := false, ethOk := false, ethSynth := false, switches := 0,
    aonPpm := 0 }

def Power.initial : Power :=
  { deep := 0, rails := (List.range 16).map fun r => { idx := r, vset := 0, fault := false, status := 0 },
    measured := 0, estimated := 0, isenseFault := false, overLimit := false }

def EvWin.initial : EvWin :=
  { cursor := 0, valid := false, gap := false, pending := false, fromBand := false, latched := none }

/-- The recorder numbers from 1 (R419). -/
def Evr.initial : Evr :=
  { raised := [], store := [], band := [], bandPrev := [], bandPages := 0, bandBlock := 0, last := 0, mark := 65536, drops := List.replicate 8 0, buckets := [],
    supp := [], fallback := false, archiveFault := false, archiving := none, trigger := false, win := EvWin.initial,
    dumped := [], fresh := true, evtNext := 1 }

def Commit.initial : Commit :=
  { state := 0, rejected := false, reason := 0, badOffset := 0, seq := 0, applied := 0, snapshot := [],
    fromRing := false }

def Board.initial : Board :=
  { rings := (List.range 4).map fun k => { k := k, head := 0, tail := 0, unsignalled := 0 }, running := none,
    busy := false, commit := Commit.initial, skipped := 0 }

def CodeFlash.initial : CodeFlash :=
  { op := 0, fails := 0, failed := false, powered := false, idleMs := 0, stallMax := 0, opFail := 0, readUncorr := 0,
    erases := [] }

/-- Slots and staging erased, nothing recorded in the staging log (R439, R453). -/
def FwState.initial : FwState :=
  { slotA := [], slotB := [], staging := [], bootBand := [[], []], stage := 0, checking := false,
    pendingStart := false, activated := false, intent := false, installDone := false, writing := none,
    run := none, running := false, fallback := false, recovery := false, bootState := 0,
    bootReason := 15, activating := false, actStep := 0, instStep := 0, instDone := 0, dual := false, log := []
    stores := List.replicate 2 { on := false, version := 0, used := [], fill := 0, recs := [] }, cur := 0, flash := CodeFlash.initial }

def Health.initial : Health :=
  { crit := 0, lostUnread := false, sparesMade := [], unsafeShutdowns := 0, counts := [], life := List.replicate 11 0,
    nsCounts := [] }

/-- An AQK-8064 that has every tile and whose identity row passes its check (R1, R350, R351, R444). DESIGN CHOICE: the part,
the serial, the keys and the fuses of the unit. -/
def Ident.initial : Ident :=
  { part := .aqk8064, tileMap := 255, serial := List.replicate 16 0x20, floorMfg := 0, kcv := zeroBytes 8,
    rowOk := true, rowHash := zeroBytes 48, rootProgrammed := true, rootSecret := zeroBytes 32, keyHashes := [],
    keyPresent := 0, keyRevoked := 0, securityFloor := 0 }

/-- The device before VAUX rises for the first time: OFF, every register at its reset value, nothing stored and no command
waiting (R12, R401, R484, R514). -/
def State.reset : State :=
  let p := Ident.initial.part
  { ident := Ident.initial, mem := [], regs := RegFile.reset
    island := { pkg := 0, vaux := false, onVio18 := false, sysRst := true, cycles := 0, minutes := 0, fenced := [],
                bport := false }
    mesh := Mesh.initial p, host := HostSide.initial p, reg := Registry.initial, clock := Clock.initial
    map := MapState.initial, wr := WriteState.initial, rcl := ReclaimState.initial, media := MediaState.initial
    red := RedState.initial, pools := [], cmpSlots := [], eng := Engines.initial, cry := CryptoState.initial, drams := []
    plp := Plp.initial, therm := Therm.initial p, clk := Clk.initial, power := Power.initial, evr := Evr.initial
    board := Board.initial, fw := FwState.initial
    mgmt := { primary := 0, standby := 1, beats := [], restarts := [] }
    health := Health.initial
    prov := none, heldAdmin := [], released := [], cleared := [], nowMs := 0, outs := [], heldOuts := [], fresh := 0, pending := [] }

end Sys2Proof.Machine
end

