-- ==== Sys2Proof/Machine/Ops.lean ====
section
/-!
DEFINITION. Sys2Proof/Machine/Ops.lean: the operations that the commands share: what is sent, what is logged, the value of a
register field, which tiles and links are in service.
-/
namespace Sys2Proof.Machine
open Sys2Proof

/-! ### Outputs and events -/

/-- Sends or drives something. -/
def emit (o : Out) (s : State) : State := { s with outs := s.outs ++ [o] }

/-- Raises an event for the recorder (R420, R421). Package events carry tile 15 (R417). -/
def logEv (e : Ev) (tile : Nat) (params : List Nat) (s : State) : State :=
  { s with evr := { s.evr with raised := s.evr.raised ++ [{ ev := e, tile := tile, params := params }] } }

/-- Logs CFG_REJECT with a BAR0 offset and a reason of R485. -/
def reject (tile offset reason : Nat) (s : State) : State := logEv .cfgReject tile [offset, reason] s

/-- The numbers of the bits that are set among the low `n`. -/
def bitsSet (n w : Nat) : List Nat := (List.range n).filter fun i => bitOf w i

/-- The fields of GLB_STATUS other than tiles_fenced and crit_warning (R491). -/
def statusFields (s : State) : List Nat :=
  [s.fw.bootState, b2n s.fw.running, b2n s.fw.activating, s.fw.bootReason, s.mgmt.primary, s.mgmt.standby]

/-- Raises the status vector when a field of GLB_STATUS has changed (R472); a change of tiles_fenced or crit_warning raises it where it
is made. -/
def statusVector (old s : State) : State := if statusFields old == statusFields s then s else emit (.ringIrq 3) s

/-! ### Register fields (R12, R13) -/

/-- The reset value of a field of copy `i` of a register (R12): that of the register map; the counts of the pools those of R324. -/
def Fld.resetOf (f : Fld) (i : Nat) : Nat :=
  if f == .bpm_pool_cfg_count then [8192, 2048, 512, 128, 48, 4].getD i 0 else f.info.reset

/-- The value that a list of values gives a field of one copy of a register: its reset value where it lists none. -/
def valOf (l : List RegVal) (w i : Nat) (f : Fld) : Nat :=
  match l.find? fun r => r.win == w && r.idx == i && r.fld == f with
  | some r => r.val
  | none => f.resetOf i

/-- A list of values with one changed; a field at its reset value is not listed. -/
def putVal (w i : Nat) (f : Fld) (v : Nat) (l : List RegVal) : List RegVal :=
  let rest := l.filter fun r => !(r.win == w && r.idx == i && r.fld == f)
  if v == f.resetOf i then rest else { win := w, idx := i, fld := f, val := v } :: rest

/-- The window of the package's registers. -/
def pkgWin : Nat := 8

/-- The live value of a field of copy `i` of a register in window `w`. -/
def State.fld (s : State) (w i : Nat) (f : Fld) : Nat := valOf s.regs.live w i f
/-- The live value of a field of a tile's register. -/
def State.tfld (s : State) (t : Nat) (f : Fld) : Nat := s.fld t 0 f
/-- The live value of a field of a package register. -/
def State.gfld (s : State) (f : Fld) : Nat := s.fld pkgWin 0 f

/-- Sets the live value of a field. -/
def setFld (w i : Nat) (f : Fld) (v : Nat) (s : State) : State :=
  { s with regs := { s.regs with live := putVal w i f v s.regs.live } }
def setT (t : Nat) (f : Fld) (v : Nat) (s : State) : State := setFld t 0 f v s
def setG (f : Fld) (v : Nat) (s : State) : State := setFld pkgWin 0 f v s

/-- The largest value a field holds. -/
def Fld.full (f : Fld) : Nat := 2 ^ (f.info.hi + 1 - f.info.lo) - 1

/-- A count of a register: those of 64 bits wrap, the others saturate (R99, R165, R191, R228, R261, R262, R296, R337, R349, R368,
R369, R388). -/
def Fld.counted (f : Fld) (n : Nat) : Nat := if f.info.hi == 63 then n % 2 ^ 64 else sat f.full n

/-- Adds to a count of one copy of a tile's register. -/
def addFld (t i : Nat) (f : Fld) (n : Nat) (s : State) : State := setFld t i f (f.counted (s.fld t i f + n)) s
/-- Adds to a count of a tile's register. -/
def addT (t : Nat) (f : Fld) (n : Nat) (s : State) : State := addFld t 0 f n s
def bump (t : Nat) (f : Fld) (s : State) : State := addT t f 1 s

/-- Counts in the Device Health counters (R500), by their place there. -/
def countLife (i : Nat) (s : State) : State :=
  { s with health := { s.health with life := s.health.life.set i (sat (2 ^ 64 - 1) (s.health.life.getD i 0 + 1)) } }

/-! ### Tiles in service (R2, R32, R444, R502) -/

/-- The tiles that the identity row names. -/
def presentTiles (s : State) : List Nat := bitsSet s.ident.part.tiles s.ident.tileMap

/-- A tile that is present and not fenced or lost. -/
def tileUp (s : State) (t : Nat) : Bool := (presentTiles s).contains t && !s.island.fenced.contains t

/-- The tiles in service. -/
def upTiles (s : State) : List Nat := (presentTiles s).filter fun t => !s.island.fenced.contains t

/-- The throttle level of a tile (R392). -/
def levelOf (s : State) (t : Nat) : Nat := ((s.therm.tiles.find? fun x => x.tile == t).map (·.level)).getD 0

/-- A tile whose work is throttled: its level is not 0 (R83, R392). -/
def throttled (s : State) (t : Nat) : Bool := 0 < levelOf s t

/-- The number of a link, as link_disable and MESH_LINK_DOWN give it (R494). -/
def linkIndex : MeshPort → Nat
  | .rankNext => 0
  | .rankPrevious => 1
  | .rankPartner => 2
  | .knight => 3
  | .localPort => 4

end Sys2Proof.Machine
end

