-- ==== Sys2Proof/Machine/Formats.lean ====
section
/-!
DEFINITION. Sys2Proof/Machine/Formats.lean: what the device writes to flash, as bytes (R15): extent headers, spans, directory and
record table entries, map-band and dump headers, journal entries, and codewords with their tags (R132, R139, R142, R149, R152, R170, R249
to R253, R311).
-/
namespace Sys2Proof.Machine
open Sys2Proof

/-! ### Layout (R15) -/

/-- `n` bytes that hold the given fields (offset, length, value), little-endian; bytes of no field are 0. -/
def layBytes (n : Nat) (fs : List Field) : Bytes := toLE n (fs.map fun f => f.2.2 % 256 ^ f.2.1 * 256 ^ f.1).sum

/-- A number from bit fields (low bit, width, value). -/
def layBits (fs : List (Nat × Nat × Nat)) : Nat := (fs.map fun f => f.2.2 % 2 ^ f.2.1 * 2 ^ f.1).sum

/-- The bytes of a structure at an offset, as a number. -/
def fieldAt (b : Bytes) (off n : Nat) : Nat := ofLE ((b.drop off).take n)

/-- Fields followed by the CRC32C over them. -/
def withCrc (n : Nat) (fs : List Field) : Bytes := let b := layBytes n fs; b ++ toLE 4 (crc32c b)
/-- A structure of `n` bytes and their CRC32C passes its check. -/
def crcPasses (n : Nat) (b : Bytes) : Bool := fieldAt b n 4 == crc32c (b.take n)

/-! ### Extents (R168, R170, R178) -/

/-- An extent header without its CRC (R170). -/
structure XHdr where
  nsid  : Nat
  slba  : Nat
  nblk  : Nat
  flags : Nat
  seq   : Nat
  crc   : Nat
  len   : Nat
  gen   : Nat
  kind  : Nat
deriving DecidableEq, Repr

/-- The 32 bytes of an extent header. A pad that covers more grains than nine bits count has its length in the whole field (R178). -/
def XHdr.bytes (h : XHdr) : Bytes :=
  withCrc 28 [(0, 4, h.nsid), (4, 8, h.slba), (12, 1, h.nblk), (13, 1, h.flags), (14, 6, h.seq), (20, 4, h.crc), (24, 2, h.len),
    (26, 1, h.gen % 16), (27, 1, h.kind)]

def XHdr.read (b : Bytes) : XHdr :=
  { nsid := fieldAt b 0 4, slba := fieldAt b 4 8, nblk := fieldAt b 12 1, flags := fieldAt b 13 1, seq := fieldAt b 14 6
    crc := fieldAt b 20 4, len := fieldAt b 24 2, gen := fieldAt b 26 1 % 16, kind := fieldAt b 27 1 }

/-- The flags of a data extent's header. -/
def hdrFlags (compressed raw static : Bool) : Nat := b2n compressed + 2 * b2n raw + 4 + 8 * b2n static

def Ext.hdr (e : Ext) : XHdr :=
  { nsid := e.nsid, slba := e.slba, nblk := e.nblk, flags := hdrFlags e.compressed e.raw e.static, seq := e.seq, crc := e.crc
    len := e.len, gen := e.keyGen, kind := 1 }
def FExt.hdr (e : FExt) : XHdr :=
  { nsid := e.nsid, slba := e.slba, nblk := e.nblk, flags := hdrFlags e.compressed e.raw e.static, seq := e.seq, crc := e.crc
    len := e.len, gen := e.keyGen, kind := 1 }

/-- Zeros up to a length. -/
def padTo (n : Nat) (b : Bytes) : Bytes := b ++ zeroBytes (n - b.length)

/-- A body padded to a multiple of 16 bytes and to at least 16 (R168). -/
def padBody (b : Bytes) : Bytes := padTo (16 * max 1 (ceilDiv b.length 16)) b

/-- An extent as stored: header, body, and zeros up to its last grain's end (R168). -/
def extentBytes (h : XHdr) (body : Bytes) : Bytes := padTo (256 * h.len) (h.bytes ++ body)

/-- A pad extent over `n` grains (R178). -/
def padExtent (n : Nat) : Bytes :=
  extentBytes { nsid := 0, slba := 0, nblk := 0, flags := 0, seq := 0, crc := 0, len := n, gen := 0, kind := 2 } []

/-! ### The map (R132, R139, R142, R149, R152) -/

/-- A span entry (R132). -/
def Span.entry (x : Span) : Bytes :=
  toLE 16 (layBits [(0, 8, x.off), (8, 8, x.count - 1), (16, 4, x.skip), (20, 46, x.addr), (66, 9, x.len), (75, 1, b2n x.compressed),
    (76, 1, b2n x.raw), (77, 1, b2n x.zero), (78, 1, b2n x.encrypted), (79, 4, x.keyGen), (96, 32, x.seqLo)])

/-- A directory entry of a region (R139). -/
def Region.entry (x : Region) : Bytes :=
  toLE 16 (layBits [(0, 2, 1), (7, 46, (x.l2.map (·.addr)).getD 0), (53, 5, (x.l2.map (·.len)).getD 0),
    (58, 26, x.frame.getD 0x3FFFFFF), (84, 1, b2n x.dirty.isSome), (85, 1, b2n x.l0.isSome), (86, 1, b2n x.fetching.isSome),
    (87, 9, x.spans.length), (96, 32, (x.l2.map (·.snap)).getD 0)])

/-- The entry of a region in a directory record, where what belongs to the tile's memory is cleared (R149). -/
def Region.stored (x : Region) : Bytes :=
  { x with l0 := none, frame := none, dirty := none, fetching := none }.entry

/-- An entry of the record table (R142). -/
def DirRec.entry (d : DirRec) : Bytes := toLE 8 (layBits [(0, 46, d.addr), (46, 5, d.len), (63, 1, b2n d.dirty.isSome)])

/-- The header of a map-band record (R149). -/
def bandHeader (kind slot count nsid index snap len : Nat) (body : Bytes) : Bytes :=
  layBytes 32 [(0, 1, kind), (1, 1, slot), (2, 2, count), (4, 4, nsid), (8, 8, index), (16, 6, snap), (22, 2, len),
    (24, 4, crc32c body)]

/-- The body of a region's map record: its spans in order. -/
def mapBody (spans : List Span) : Bytes := spans.flatMap Span.entry

/-- A fetched record is accepted: its type, namespace and index are those asked for, and the CRC of its decompressed body matches
(R149). -/
def recordPasses (kind nsid index : Nat) (header body : Bytes) : Bool :=
  fieldAt header 0 1 == kind && fieldAt header 4 4 == nsid && fieldAt header 8 8 == index && fieldAt header 24 4 == crc32c body

/-- The number of a journal entry's type (R152). -/
def JType.code : JType → Nat
  | .write => 1
  | .unmap => 2
  | .relocate => 3
  | .pageWritten => 4
  | .dirWritten => 5
  | .forward => 6
  | .forwardDone => 7
  | .pad => 8

/-- A journal entry (R152). -/
def JEntry.bytes (e : JEntry) : Bytes :=
  let x := e.span
  withCrc 28 [(0, 1, e.type.code), (1, 1, e.count - 1),
    (2, 2, layBits [(0, 4, x.skip), (8, 1, b2n x.compressed), (9, 1, b2n x.raw), (10, 1, b2n x.zero), (11, 1, b2n x.encrypted),
      (12, 4, x.keyGen)]),
    (4, 4, e.nsid), (8, 6, e.lba), (14, 2, x.len % 512), (16, 6, x.addr % 2 ^ 46), (22, 6, e.seq)]

/-! ### The stripe journal (R194, R196, R290) -/

/-- The number of a stream, its place in the table of R175. -/
def streamCode : Stream → Nat
  | .hostSlc => 0
  | .hostQlc => 1
  | .promote => 2
  | .relocate => 3

def BandState.code : BandState → Nat
  | .free => 0
  | .open => 1
  | .sealed => 2
  | .reclaiming => 3
  | .erasePending => 4
  | .erasing => 5
  | .retired => 6

/-- A band table entry (R194). -/
def Band.entry (b : Band) : Bytes :=
  withCrc 60 ([(0, 4, b.seq), (4, 1, b.state.code), (5, 1, b2n (!b.slc)), (6, 1, b2n b.mapBand), (7, 1, b2n b.early), (8, 4, b.sealMin),
    (12, 2, b.rows), (14, 2, streamCode b.stream)] ++ (List.range 16).map fun i => (16 + 2 * i, 2, (b.blocks[i]?).getD 0xFFFF))

/-- An entry of a group's stripe journal (R196, R290). DESIGN CHOICE: bytes 16 to 19 of a band record that names no block are ones. -/
def SjEntry.bytes (sg : Nat) (e : SjEntry) : Bytes :=
  withCrc 28 ([(0, 1, e.kind), (2, 2, sg)] ++
    if e.kind ≤ 8 then [(1, 1, e.state), (4, 2, e.band), (6, 1, e.member), (8, 4, e.seq), (12, 4, e.minutes), (16, 2, e.old),
      (18, 2, e.block)]
    else if e.kind ≤ 0x11 then [(4, 1, e.member), (5, 1, e.state), (6, 2, e.die), (8, 4, e.minutes)]
    else if e.kind ≤ 0x14 then [(4, 2, e.band), (6, 1, e.member), (8, 2, e.die), (10, 2, e.block)]
    else [(4, 2, e.band), (6, 2, e.row), (8, 1, e.state), (10, 2, e.mask), (12, 8, e.fpP), (20, 8, e.fpQ)])

/-- The header of a dump item (R311). -/
def dumpHeader (kind tile target bandSeq dumpSeq : Nat) (body : Bytes) : Bytes :=
  let b := layBytes 28 [(0, 1, kind), (1, 1, tile), (4, 4, body.length), (8, 6, target % 2 ^ 46), (14, 4, bandSeq), (24, 4, dumpSeq)]
  b ++ toLE 4 (crc32c (b ++ body))

/-- The restart record (R314). The addresses of the copy table and of the checkpoints, records of types 0x07 and 0x05, are free values. -/
def RestartRec.bytes (r : RestartRec) : Bytes :=
  let at_ := fun (base : Nat) (xs : List (Nat × Nat)) => xs.map fun x => ((base + 6 * x.1, 6, x.2) : Field)
  withCrc 252 ([(0, 8, r.recSeq), (8, 1, r.reason), (9, 1, b2n r.wt + 2 * b2n r.held), (10, 3, r.cycles), (16, 6, r.wseqMark),
      (22, 2, r.tilesDumped), (24, 6, Config.recordAt 7 0 r.recSeq)] ++
    at_ 32 (r.ckpts.map fun x => (x.1, Config.recordAt 5 x.1 x.2)) ++ at_ 80 r.dirs ++
    [(128, 4, r.dumpSeq), (132, 4, r.minutes), (136, 4, r.capUf), (140, 4, r.testMin), (144, 4, r.evrMark)])

/-! ### Codewords (R249 to R253) -/

/-- A codeword's tag without its CRC (R250). -/
structure CwTag where
  echo    : Nat
  info    : Nat
  stream  : Nat
  bandSeq : Nat
  hdrMap  : Nat
  summary : Nat
  progMin : Nat
deriving DecidableEq, Repr

def CwTag.front (t : CwTag) : Bytes :=
  layBytes 28 [(0, 6, t.echo % 2 ^ 46), (6, 1, t.info), (7, 1, t.stream), (8, 4, t.bandSeq), (12, 2, t.hdrMap), (16, 8, t.summary),
    (24, 4, t.progMin)]

/-- The tag of a payload: its fields and the CRC over the payload and them. -/
def CwTag.bytes (t : CwTag) (payload : Bytes) : Bytes := t.front ++ toLE 4 (crc32c (payload ++ t.front))

def CwTag.read (b : Bytes) : CwTag :=
  { echo := fieldAt b 0 6 % 2 ^ 46, info := fieldAt b 6 1, stream := fieldAt b 7 1, bandSeq := fieldAt b 8 4, hdrMap := fieldAt b 12 2
    summary := fieldAt b 16 8, progMin := fieldAt b 24 4 }

/-- One step of the Galois LFSR with the polynomial x^32 + x^22 + x^2 + x + 1 (R251). DESIGN CHOICE: it shifts right, and its output is the
bit that leaves. -/
def lfsrStep (x : Nat) : Nat := if x % 2 == 1 then x / 2 ^^^ 0x80200003 else x / 2

/-- The next output byte, its first bit the least significant, and the state after it. -/
def lfsrByte (x : Nat) : Byte × Nat :=
  let y := (List.range 8).foldl (fun (p : Nat × Nat) i => (p.1 + p.2 % 2 * 2 ^ i, lfsrStep p.2)) (0, x)
  (BitVec.ofNat 8 y.1, y.2)

/-- The XOR of bytes with the LFSR's output from a state on. -/
def lfsrXor : Nat → Bytes → Bytes
  | _, [] => []
  | x, b :: bs => (b ^^^ (lfsrByte x).1) :: lfsrXor (lfsrByte x).2 bs

/-- The seed of a codeword's scrambler. -/
def lfsrSeed (addr : Nat) : Nat := let x := addr % 2 ^ 32 ^^^ 0x5A5A5A5A; if x == 0 then 1 else x

/-- Scrambles, and descrambles, the payload and tag of the codeword at a grain address (R251). -/
def scramble (addr : Nat) (b : Bytes) : Bytes := lfsrXor (lfsrSeed addr) b

/-- Column `j` of 128 bits. -/
def cwColumn (b : Bytes) (j : Nat) : BitVec 128 := BitVec.ofNat 128 (fieldAt b (16 * j) 16)

/-- A column times the circulant of a base-matrix entry: nothing where the entry is empty. -/
def circulant (row col : Nat) (v : BitVec 128) : BitVec 128 :=
  match Config.ldpcBase (row * 288 + col) with
  | some k => v.rotateRight (k % 128)
  | none => 0

/-- The parity columns of scrambled data (R253), row by row down the dual diagonal. DEDUCED: row i has parity columns i and i - 1. -/
def parityColumns (b : Bytes) : Nat → List (BitVec 128)
  | 0 => []
  | i + 1 =>
    let ps := parityColumns b i
    let d := (List.range 258).foldl (fun x j => x ^^^ circulant i j (cwColumn b j)) 0
    let x := if i == 0 then d else d ^^^ circulant i (257 + i) (ps.getLast?.getD 0)
    ps ++ [match Config.ldpcBase (i * 288 + 258 + i) with
      | some k => x.rotateLeft (k % 128)
      | none => 0]

/-- The 480 bytes of parity of scrambled data. -/
def ldpcParity (b : Bytes) : Bytes := (parityColumns b 30).flatMap fun v => toLE 16 v.toNat

/-- A codeword as it is written (R249, R251, R253): 4,096 bytes of payload and the tag, scrambled, and 480 bytes of parity. -/
def codeword (t : CwTag) (payload : Bytes) : Bytes :=
  let x := scramble t.echo (payload ++ t.bytes payload)
  x ++ ldpcParity x

/-- A plane page as it is written (R249): four codewords; the spare goes on with the scrambler's output. -/
def pageBytes (tags : List CwTag) (payloads : List Bytes) (spare : Nat) : Bytes :=
  let cws := (tags.zip payloads).flatMap fun x => codeword x.1 x.2
  let last := (tags.getLast?.map (·.echo)).getD 0
  cws ++ (scramble last (zeroBytes (4128 + spare))).drop 4128

/-- The zero bits of a codeword read raw (R252). -/
def zeroBits (b : Bytes) : Nat := (b.map fun x => 8 - (bitsSet 8 x.toNat).length).sum

/-- A codeword read raw is ERASED: at most 64 of its bits are 0 (R252). -/
def cwErased (raw : Bytes) : Bool := decide (zeroBits raw ≤ 64)

/-- The payload and tag that a decoder brought for the codeword at an address, where they are accepted: the tag's CRC matches and it
echoes the address (R251, R255). -/
def cwAccepted (addr : Nat) (decoded : Bytes) : Option (Bytes × CwTag) :=
  let x := scramble addr decoded
  let payload := x.take 4096
  let tag := (x.drop 4096).take 32
  let t := CwTag.read tag
  if fieldAt tag 28 4 == crc32c (payload ++ tag.take 28) && t.echo == addr % 2 ^ 46 then some (payload, t) else none

end Sys2Proof.Machine
end

