-- ==== Sys2Proof/Machine/Memory.lean ====
section
/-!
DEFINITION. Sys2Proof/Machine/Memory.lean: the buffer memory of the pools (R323 to R325) as a list of address and byte pairs in
one canonical form: addresses rise strictly, and no entry holds what an unlisted address reads as.
-/
namespace Sys2Proof.Machine
open Sys2Proof

/-- What a byte that nothing has written reads as. DESIGN CHOICE: 0 (unsafe). -/
def unwritten : Byte := 0

/-- The byte at an address. -/
def memRead : List Host.Cell → Nat → Byte
  | [], _ => unwritten
  | c :: m, a => if c.1 == a then c.2 else memRead m a

/-- Puts a byte that is not the unwritten one, before the first entry above its address. -/
def memPut (a : Nat) (b : Byte) : List Host.Cell → List Host.Cell
  | [] => [(a, b)]
  | c :: m => if a < c.1 then (a, b) :: c :: m else if c.1 == a then (a, b) :: m else c :: memPut a b m

/-- Removes the entry of an address. -/
def memDrop (a : Nat) : List Host.Cell → List Host.Cell
  | [] => []
  | c :: m => if c.1 == a then m else c :: memDrop a m

/-- Writes a byte. -/
def memWrite (a : Nat) (b : Byte) (m : List Host.Cell) : List Host.Cell :=
  if b == unwritten then memDrop a m else memPut a b m

/-- `n` bytes from an address. -/
def readBytes (m : List Host.Cell) (a n : Nat) : Bytes := (List.range n).map fun i => memRead m (a + i)

/-- Writes bytes from an address. -/
def writeBytes (a : Nat) : Bytes → List Host.Cell → List Host.Cell
  | [], m => m
  | b :: bs, m => writeBytes (a + 1) bs (memWrite a b m)

/-- The canonical form above an address: strictly rising, nothing unwritten listed. -/
def memAbove : Nat → List Host.Cell → Bool
  | _, [] => true
  | a, c :: m => a < c.1 && c.2 != unwritten && memAbove c.1 m

/-- The canonical form. -/
def Memory.wf : List Host.Cell → Bool
  | [] => true
  | c :: m => c.2 != unwritten && memAbove c.1 m

end Sys2Proof.Machine
end

