-- ==== Sys2Proof/Machine/RegOps.lean ====
section
/-!
DEFINITION. Sys2Proof/Machine/RegOps.lean: writing registers of BAR0 by the access types of R13, the pairs of R12, and where
each register stands (R467).
-/
namespace Sys2Proof.Machine
open Sys2Proof

/-- Register windows: 0 to 7 the tiles, 8 the package. The BAR0 offset of copy `i` of a register (R467). -/
def bar0 (w i : Nat) (r : Reg) : Nat :=
  (if w < pkgWin then 0x100000 * (w + 1) else 0) + r.info.off + i * r.info.stride

/-- The tile that an event about a window names: 15 for the package (R417). -/
def winTile (w : Nat) : Nat := if w < pkgWin then w else 15

/-- The copy of a register at an offset within its window, and whether it is the high half of a pair. -/
def Reg.copyAt (r : Reg) (o : Nat) : Option (Nat × Bool) :=
  (List.range r.info.count).findSome? fun i =>
    if o == r.info.off + i * r.info.stride then some (i, false)
    else if r.info.wide && o == r.info.off + i * r.info.stride + 4 then some (i, true) else none

/-- The window, register, copy and half at a BAR0 offset; none where R14 or R467 has nothing there. -/
def regAt (s : State) (off : Nat) : Option (Nat × Reg × Nat × Bool) :=
  if 0x100000 * 9 ≤ off || off % 4 != 0 then none
  else
    let tile := 0x100000 ≤ off
    let w := if tile then off / 0x100000 - 1 else pkgWin
    let o := if tile then off % 0x100000 else off
    allRegs.findSome? fun r =>
      if r.info.perTile != tile then none
      else (r.copyAt o).map fun x =>
        (w, r, (match r.info.sel with
          | some f => s.fld w 0 f
          | none => x.1), x.2)

/-- The block of a register is enabled (R13): for MAC addresses while the tile's port_mode is not PORT_OFF, for the rings by
their own ring_en. -/
def regEnabled (s : State) (w i : Nat) (r : Reg) : Bool :=
  match r with
  | .glbMac => s.tfld w .glb_port_cfg_port_mode != 0
  | .bptRingBase | .bptRingWb | .bptRingCfg => s.fld w i .bpt_ring_cfg_ring_en == 1
  | r => match r.enable with
    | some f => s.fld w 0 f == 1
    | none => false

/-- Sets the cfg_err field of a register's block, where it has one (R13). -/
def setCfgErr (w : Nat) (r : Reg) (s : State) : State :=
  match r.cfgErr with
  | some f => setFld w 0 f 1 s
  | none => s

/-- A field that the part lacks: it reads 0 and ignores writes (R228, R296). -/
def fldAbsent (s : State) (f : Fld) : Bool :=
  (f == .red_cfg_tile_safe_groups && s.ident.part == .aqk2016) || (f == .rcl_secure_secure_sync_tib && s.ident.part != .aqk8064)

/-- Writes one field of copy `i` of a register (R13). `en` says whether the block was enabled before the write. -/
def writeField (en : Bool) (w i : Nat) (r : Reg) (v : Nat) (f : Fld) (s : State) : State :=
  let x := bitsOf v f.info.hi f.info.lo
  if fldAbsent s f then s
  else match f.info.acc with
  | .ro | .wo => s
  | .w1c => setFld w i f (Nat.bitwise (fun a b => a && !b) (s.fld w i f) x) s
  | .rs => { s with regs := { s.regs with shadow := putVal w i f x s.regs.shadow } }
  | .rl => setFld w i f x s
  | .rw =>
    if f.info.static && en && x != s.fld w i f then
      reject (winTile w) (bar0 w i r) 1 (setCfgErr w r s)
    else setFld w i f x s

/-- Writes every field of copy `i` of a register. -/
def writeReg (w i : Nat) (r : Reg) (v : Nat) (s : State) : State :=
  let en := regEnabled s w i r
  r.flds.foldl (fun s f => writeField en w i r v f s) s

/-- Writes a register that has one copy. -/
def writeCfg (w : Nat) (r : Reg) (v : Nat) (s : State) : State := writeReg w 0 r v s

/-- The value of the low half of a pair (R12): the last value written to it, or its reset value. -/
def lowHalf (s : State) (w i : Nat) (r : Reg) : Nat :=
  match s.regs.low.find? fun x => x.1 == bar0 w i r with
  | some x => x.2
  | none => (r.flds.foldl (fun n f => n + f.resetOf i * 2 ^ f.info.lo) 0) % 2 ^ 32

/-- Writes the low half of a pair: it is held until the high half is written (R12). -/
def writeLow (w i : Nat) (r : Reg) (v : Nat) (s : State) : State :=
  { s with regs := { s.regs with low := (bar0 w i r, v) :: s.regs.low.filter fun x => x.1 != bar0 w i r } }

/-- Writes the high half of a pair: the pair takes effect (R12). -/
def writeHigh (w i : Nat) (r : Reg) (v : Nat) (s : State) : State :=
  writeReg w i r (v * 2 ^ 32 + lowHalf s w i r) s

/-- What R525 asks of a tile before an enable may be set. -/
def orderHolds (s : State) (t : Nat) (f : Fld) : Bool :=
  let on := fun g => s.tfld t g == 1
  let dramReady := s.drams.any fun d => d.tile == t && d.ready
  match f with
  | .med_cfg_med_enable => on .bpm_cfg_bpm_enable && on .drc_cfg_drc_enable
  | .red_cfg_red_enable => on .med_cfg_med_enable
  | .cmp_cfg_cmp_enable | .cry_cfg_cry_enable => on .bpm_cfg_bpm_enable
  | .map_cfg_map_enable => on .med_cfg_med_enable && on .red_cfg_red_enable && on .cmp_cfg_cmp_enable && dramReady
  | .plc_cfg_plc_enable => on .map_cfg_map_enable && dramReady
  | .rcl_cfg_rcl_enable => on .plc_cfg_plc_enable
  | .qe_cfg_qe_enable =>
    on .map_cfg_map_enable && on .plc_cfg_plc_enable && on .rcl_cfg_rcl_enable && on .cry_cfg_cry_enable
  | _ => true

/-- A write of a register whose bit 0 is the enable `f` of its block (R13, R525). A rise is checked: against the order of R525, then by
`check`, with the static fields the write has brought; where one fails the enable stays 0, CFG_REJECT is logged with its reason, and
`onFail` sets the status the block has for it. An enable that rises starts the block. -/
def writeEnable (w : Nat) (r : Reg) (f : Fld) (v : Nat) (check : State → Option Nat) (onFail start : State → State)
    (s : State) : State :=
  if bitOf v 0 && s.tfld w f == 0 then
    let s0 := writeCfg w r (v - 1) s
    if !orderHolds s0 w f then reject (winTile w) (bar0 w 0 r) 7 s0
    else match check s0 with
      | some reason => reject (winTile w) (bar0 w 0 r) reason (onFail s0)
      | none => start (setT w f 1 s0)
  else writeCfg w r v s

/-- A static field of a register is outside its stated range (R13, R485). -/
def outOfRange (s : State) (w : Nat) (r : Reg) : Bool :=
  (List.range r.info.count).any fun i => r.flds.any fun f =>
    f.info.static && (decide (s.fld w i f < f.info.least) || decide (f.info.most < s.fld w i f))

/-- The registers of a window are there: the package runs outside the ROM state, and a tile's window is that of a tile in
service (R401, R467, R468). -/
def regOpen (s : State) (w : Nat) : Bool :=
  s.island.pkg == 2 && s.fw.bootState != 3 && (w == pkgWin || tileUp s w)

/-- What a write of a tile's register does while its window is there; nothing otherwise (R467). -/
def tileWrite (t : Nat) (f : State → State) (s : State) : State := if t != pkgWin && regOpen s t then f s else s
/-- What a write of a package register does while it answers (R467, R468). -/
def pkgWrite (f : State → State) (s : State) : State := if regOpen s pkgWin then f s else s

/-- The registers that answer in the ROM state: GLB_ID, GLB_STATUS, GLB_SERIALk and those of the recorder (R468). -/
def Reg.inRom : Reg → Bool
  | .glbId | .glbStatus | .glbSerial | .evrCfg | .evrStatus | .evrHead | .evrOldest | .evrArchived | .evrCursor | .evrWinStatus
    | .evrWinSeq | .evrWinData | .evrDrops => true
  | _ => false

/-- A register answers: its window is there; or it is one that the ROM state keeps, or THM_STATUS of a tile that is fenced or lost
(R394, R467, R468). -/
def regAnswers (s : State) (w : Nat) (r : Reg) : Bool :=
  regOpen s w || (s.island.pkg == 2 && ((w == pkgWin && r.inRom) ||
    (r == .thmStatus && s.fw.bootState != 3 && (presentTiles s).contains w)))

end Sys2Proof.Machine
end

