-- ==== Sys2Proof/Machine/BufferOps.lean ====
section
/-!
DEFINITION. Sys2Proof/Machine/BufferOps.lean: the buffer pool manager: handles, the free list in the pool area's bytes,
allocation, frees, quarantine and pool reset (R323 to R337).
-/
namespace Sys2Proof.Machine
open Sys2Proof

/-! ### The pool area, handles and links (R323, R324, R326, R330) -/

def nullHandle : Nat := 0xFFFFFFFF
def poolSize (n : Nat) : Nat := [256, 1024, 4096, 16384, 65536, 262144].getD n 0
def poolCount (s : State) (t n : Nat) : Nat := s.fld t n .bpm_pool_cfg_count
def poolBase (s : State) (t n : Nat) : Nat := ((List.range n).map fun k => poolSize k * poolCount s t k).sum
def areaUsed (s : State) (t : Nat) : Nat := poolBase s t 6

/-- The pool area in bytes (R323). -/
def poolArea (s : State) (t : Nat) : Nat :=
  24 * 2 ^ 20 - (5 * 2 ^ 19 + s.tfld t .map_cfg_l0_frames * 4096 + s.tfld t .plc_stage_cfg_stage_sram_mib * 2 ^ 20 +
    2 ^ 20 + s.tfld t .red_cfg_sj_sram_kib * 131072)

def handleOf (t n gen i : Nat) : Nat := t * 2 ^ 29 + n * 2 ^ 26 + gen % 256 * 2 ^ 18 + i
def hTile (h : Nat) : Nat := bitsOf h 31 29
def hPool (h : Nat) : Nat := bitsOf h 28 26
def hGen (h : Nat) : Nat := bitsOf h 25 18
def hIndex (h : Nat) : Nat := bitsOf h 17 0
/-- The key in memory of a buffer's first byte. -/
def bufAddr (s : State) (h : Nat) : Nat := hTile h * 2 ^ 25 + poolBase s (hTile h) (hPool h) + hIndex h * poolSize (hPool h)

def findPool (s : State) (t n : Nat) : Option Pool := s.pools.find? fun p => p.tile == t && p.pool == n
def putPool (p : Pool) (s : State) : State :=
  { s with pools := (s.pools.filter fun q => !(q.tile == p.tile && q.pool == p.pool)) ++ [p] }
def genOf (p : Pool) (i : Nat) : Nat := ((p.gens.find? fun g => g.1 == i).map (·.2)).getD 0
def setGen (i g : Nat) (p : Pool) : Pool :=
  { p with gens := (p.gens.filter fun x => x.1 != i) ++ (if g == 0 then [] else [(i, g)]) }

/-- The 8 bytes of a free-list link (R330). -/
def linkBytes (next gen i : Nat) : Bytes :=
  let b := toLE 4 next ++ toLE 2 gen
  b ++ [crc8 (b ++ toLE 3 i), 0xA5]

/-- A link passes the checks of R331. -/
def linkGood (s : State) (p : Pool) (i : Nat) (b : Bytes) : Bool :=
  let next := ofLE (b.take 4)
  b == linkBytes next (genOf p i) i && !p.alloc.contains i &&
    (next == nullHandle || (hTile next == p.tile && hPool next == p.pool && decide (hIndex next < poolCount s p.tile p.pool)))

/-! ### Allocation (R328, R331, R332) -/

/-- Rules 1 and 2 of R328. -/
def mayTake (s : State) (p : Pool) (c : PClass) : Bool :=
  !p.quarantined && !p.resetting &&
    (decide (s.fld p.tile p.pool .bpm_pool_cfg_urgent_rsv < p.free) || ((c == .h0 || c == .m) && decide (0 < p.free)))

/-- Takes the head buffer of a pool: its handle, or a quarantine and the log of what was found (R331, R332). -/
def takeHead (p : Pool) (sramOk : Bool) (s : State) : State × Option Nat :=
  let i := hIndex p.head
  let b := readBytes s.mem (bufAddr s p.head) 8
  if p.head != nullHandle && sramOk && linkGood s p i b then
    let g := (genOf p i + 1) % 65536
    let p1 := setGen i g { p with head := ofLE (b.take 4), free := p.free - 1, alloc := p.alloc ++ [i] }
    (putPool p1 s, some (handleOf p.tile p.pool g i))
  else
    (logEv .poolCorrupt p.tile [p.pool, i, ofLE (b.take 4), ofLE (b.drop 4)] (putPool { p with quarantined := true } s),
      none)

/-- Present pools of a tile from `n` up. -/
def presentFrom (s : State) (t n : Nat) : List Pool :=
  (List.range 6).filterMap fun k => if n ≤ k then findPool s t k else none

/-- An allocation of R328: the handle, or none for POOL_EMPTY. Refusals and spills are counted. -/
def allocate (t len : Nat) (c : PClass) (sramOk : Bool) (s : State) : State × Option Nat :=
  let fits := (presentFrom s t 0).filter fun p => decide (len ≤ poolSize p.pool)
  let refuse := fun s => (bump t .bpm_empty_count s, none)
  if len == 0 || 262144 < len then (s, none)
  else match fits with
    | [] => refuse s
    | p :: rest =>
      let second := fun (s : State) =>
        if !bitOf (s.tfld t .bpm_cfg_spill) p.pool then refuse s
        else match rest with
          | [] => refuse s
          | q :: _ =>
            if mayTake s q c then match takeHead q sramOk s with
              | (s1, some h) => (bump t .bpm_spills_count s1, some h)
              | (s1, none) => refuse s1
            else refuse s
      if mayTake s p c then match takeHead p sramOk s with
        | (s1, some h) => (s1, some h)
        | (s1, none) => second s1
      else second s

def execBufferAllocate (t len : Nat) (c : PClass) (sramOk : Bool) (s : State) : Host.Outcome State Fault Refusal :=
  .next (match allocate t len c sramOk s with
    | (s1, some h) => emit (.handle t h) s1
    | (s1, none) => emit (.poolEmpty t c) s1)

/-! ### Frees (R333) -/

/-- The first condition of R333 that a handle fails, numbered from 0 in the listed order. -/
def handleFault (s : State) (t h : Nat) : Option Nat :=
  if hTile h != t then some 0
  else match findPool s t (hPool h) with
    | none => some 1
    | some p =>
      if poolCount s t (hPool h) ≤ hIndex h then some 2
      else if !p.alloc.contains (hIndex h) then some 3
      else if genOf p (hIndex h) % 256 != hGen h then some 4
      else none

/-- Links a free buffer at the head of its pool (R330, R333). -/
def linkFree (i : Nat) (p : Pool) (s : State) : State :=
  let h := handleOf p.tile p.pool (genOf p i) i
  putPool { p with head := h, free := p.free + 1 }
    { s with mem := writeBytes (bufAddr s h) (linkBytes p.head (genOf p i) i) s.mem }

/-- BUFFER_FREE (R332 to R334): a rejected free changes nothing but its count and its log. In a quarantined pool no link is
written; in one being rebuilt the buffer is linked after the rebuild. -/
def freeBuffer (t h : Nat) (s : State) : State :=
  match handleFault s t h with
  | some k => logEv .bpmBadFree t [h, k] (bump t .bpm_bad_free_bad_frees s)
  | none => match findPool s t (hPool h) with
    | none => s
    | some p =>
      let i := hIndex h
      let p1 := { p with alloc := p.alloc.filter fun x => x != i }
      if p.quarantined && !p.resetting then putPool { p1 with free := p.free + 1 } s
      else if p.resetting then putPool { p1 with late := p.late ++ [i] } s
      else linkFree i p1 s

def execBufferFree (t h : Nat) (s : State) : Host.Outcome State Fault Refusal := .next (freeBuffer t h s)

/-- Frees the buffers of a command. -/
def freeBuffers (t : Nat) (hs : List Nat) (s : State) : State := hs.foldl (fun s h => freeBuffer t h s) s

/-! ### Pool reset (R334) -/

/-- Builds a pool's free list: the lowest free index becomes the head. Buffers freed during the rebuild are linked after
it. -/
def buildPool (t n : Nat) (s : State) : State :=
  match findPool s t n with
  | none => s
  | some p =>
    let free := (List.range (poolCount s t n)).filter fun i => !p.alloc.contains i && !p.late.contains i
    let p0 := { p with head := nullHandle, free := 0, quarantined := false, resetting := false, late := [] }
    let link := fun (s : State) (i : Nat) => match findPool s t n with
      | some q => linkFree i q s
      | none => s
    p.late.foldl link (free.reverse.foldl link (putPool p0 s))

/-- POOL_RESET (R334): a write of BPM_RESET. -/
def poolReset (t v : Nat) (s : State) : State :=
  if s.tfld t .bpm_cfg_bpm_enable != 1 then (if bitsOf v 5 0 == 0 then s else reject t (bar0 t 0 .bpmReset) 11 s)
  else (List.range 6).foldl (fun s n => match findPool s t n with
    | some p => if bitOf v n && !p.resetting then putPool { p with resetting := true } s else s
    | none => s) s

def execPoolReset (t v : Nat) (s : State) : Host.Outcome State Fault Refusal := .next (tileWrite t (poolReset t v) s)

/-- POOL_REBUILD_DONE (R334). -/
def execPoolRebuildDone (t n : Nat) (s : State) : Host.Outcome State Fault Refusal :=
  .next (match findPool s t n with
    | some p => if p.resetting then
        let s1 := buildPool t n s
        logEv .poolReset t [n, ((findPool s1 t n).map (·.free)).getD 0] s1
      else s
    | none => s)

/-- BPM_ENABLE (R325, R334): a write of BPM_CFG. With the pools larger than the area the enable stays 0 and CFG_REJECT is logged; otherwise the pools are built with every buffer free. -/
def bpmEnable (t v : Nat) (s : State) : State :=
  writeEnable t .bpmCfg .bpm_cfg_bpm_enable v
    (fun s => if poolArea s t < areaUsed s t then some 8 else none) id
    (fun s => (List.range 6).foldl (fun s n =>
      if poolCount s t n == 0 then s
      else buildPool t n (putPool { tile := t, pool := n, head := nullHandle, free := 0, alloc := [], gens := [],
                                    quarantined := false, resetting := false, late := [] } s)) s) s

def execBpmEnable (t v : Nat) (s : State) : Host.Outcome State Fault Refusal := .next (tileWrite t (bpmEnable t v) s)

/-! ### Buffers of commands (R70, R182) -/

/-- The requests that a length is reserved with: buffers of at most 256 KiB. -/
def chunks (n : Nat) : List Nat :=
  List.replicate (n / 262144) 262144 ++ (if n % 262144 == 0 then [] else [n % 262144])

/-- Allocates buffers for every length, or none. -/
def allocateAll (t : Nat) (c : PClass) : List Nat → State → Option (State × List Nat)
  | [], s => some (s, [])
  | n :: ns, s => match allocate t n c true s with
    | (s1, some h) => (allocateAll t c ns s1).map fun x => (x.1, h :: x.2)
    | (_, none) => none

end Sys2Proof.Machine
end

