-- ==== Sys2Proof/Machine/MeshCmds.lean ====
section
/-!
DEFINITION. Sys2Proof/Machine/MeshCmds.lean: the rank-and-file mesh (R20 to R28): links, routes, virtual channels,
holds and the meanings of the mesh's commands.
-/
namespace Sys2Proof.Machine
open Sys2Proof

/-- The number of files per rank (R5). -/
def files (s : State) : Nat := s.ident.part.tiles / 2

/-- The rank partner of a tile (R6). -/
def partnerOf (s : State) (t : Nat) : Nat := if t < files s then t + files s else t - files s

/-- The tile a link reaches (R20). -/
def linkTo (s : State) (t : Nat) : MeshPort → Nat
  | .rankNext => (t + 1) % s.ident.part.tiles
  | .rankPrevious => (t + s.ident.part.tiles - 1) % s.ident.part.tiles
  | .rankPartner => partnerOf s t
  | .knight => (if t < files s then files s else 0) + (t % files s + 2) % files s
  | .localPort => t

/-- The name that the far end gives the same link. -/
def farEnd : MeshPort → MeshPort
  | .rankNext => .rankPrevious
  | .rankPrevious => .rankNext
  | p => p

/-- Whether a link is up, at both its ends. -/
def linkUp (s : State) (t : Nat) (p : MeshPort) : Bool :=
  s.mesh.links.any fun l => l.tile == t && l.link == p && l.up

def linkOrder : List MeshPort := [.rankNext, .rankPrevious, .rankPartner, .knight]

/-- The bond that a link belongs to, named by its first member: links of a tile that reach the same tile are one link (R20). -/
def bond (s : State) (t : Nat) (p : MeshPort) : MeshPort :=
  if p == .localPort then p else (linkOrder.find? fun q => linkTo s t q == linkTo s t p).getD p

/-- A bond is up while a member is. -/
def bondUp (s : State) (t : Nat) (p : MeshPort) : Bool :=
  linkOrder.any fun q => bond s t q == bond s t p && linkUp s t q

/-- The bond to a neighbour, while it is up. -/
def linkReaching (s : State) (t d : Nat) : Option MeshPort :=
  linkOrder.find? fun p => bond s t p == p && linkTo s t p == d && bondUp s t p

/-- Whether tile `t` reaches tile `d` in one hop over a bond that is up. -/
def adjacentUp (s : State) (t d : Nat) : Bool := (linkReaching s t d).isSome

/-- The bond on which a packet from `t` for `d` leaves (R21): directly to an adjacent tile; otherwise through the
rank partner, then the first of rank-next, rank-previous and knight that is up and adjacent to the destination; for the
partner itself through rank-next or rank-previous. DESIGN CHOICE: the AQK-4032 detours in the same order when a direct link is down. -/
def routeOut (s : State) (t d : Nat) : Option MeshPort :=
  if t == d then some .localPort
  else match linkReaching s t d with
  | some p => some p
  | none =>
    (if d == partnerOf s t then
      [MeshPort.rankNext, .rankPrevious].find? fun p =>
        bondUp s t p && adjacentUp s (linkTo s t p) (partnerOf s (linkTo s t p))
    else
      [MeshPort.rankPartner, .rankNext, .rankPrevious, .knight].find? fun p =>
        bondUp s t p && tileUp s (linkTo s t p) && adjacentUp s (linkTo s t p) d).map (bond s t)

/-- The bonds that a packet from `t` for `d` takes, at most `n` of them. -/
def pathOf (s : State) : Nat → Nat → Nat → List MeshPort
  | 0, _, _ => []
  | n + 1, t, d => if t == d then [] else match routeOut s t d with
    | none => []
    | some p => p :: pathOf s n (linkTo s t p) d

/-- Appends a packet to the queue of one input for one output (R24: each virtual channel has its own buffers). -/
def enqueuePkt (t : Nat) (out inp : MeshPort) (k : MeshPkt) (m : Mesh) : Mesh :=
  if m.queues.any (fun q => q.tile == t && q.out == out && q.vc == k.vc && q.inp == inp) then
    { m with queues := m.queues.map fun q =>
        if q.tile == t && q.out == out && q.vc == k.vc && q.inp == inp then { q with pkts := q.pkts ++ [k] } else q }
  else { m with queues := m.queues ++ [{ tile := t, out := out, vc := k.vc, inp := inp, pkts := [k] }] }

/-- The five inputs of a router. DESIGN CHOICE: the round robin of R25 takes them in this order, and starts with the first. -/
def inputs : List MeshPort := [.rankNext, .rankPrevious, .rankPartner, .knight, .localPort]

/-- The inputs in turn, after the one served last. -/
def turnAfter (p : MeshPort) : List MeshPort :=
  let i := inputs.findIdx (· == p)
  inputs.drop (i + 1) ++ inputs.take (i + 1)

/-- The packets of one input for one output and virtual channel. -/
def waitingPkts (m : Mesh) (t : Nat) (out : MeshPort) (vc : Vc) (inp : MeshPort) : List MeshPkt :=
  (m.queues.filter fun q => q.tile == t && q.out == out && q.vc == vc && q.inp == inp).flatMap (·.pkts)

/-- Packets of a virtual channel that came in by one input of a tile and wait there. -/
def buffered (m : Mesh) (t : Nat) (inp : MeshPort) (vc : Vc) : Nat :=
  ((m.queues.filter fun q => q.tile == t && q.inp == inp && q.vc == vc).map fun q => q.pkts.length).sum

/-- The far router has a buffer of this virtual channel for one more packet: those waiting there and those on the link hold one each
(R24). -/
def hasCredit (s : State) (t : Nat) (out : MeshPort) (vc : Vc) : Bool :=
  let far := linkTo s t out
  decide (buffered s.mesh far (bond s far (farEnd out)) vc +
    (s.mesh.wire.filter fun w => w.tile == t && w.out == out && w.pkt.vc == vc).length < Config.vcBuffer + 1)

def vcWaits (m : Mesh) (t : Nat) (out : MeshPort) (vc : Vc) : Bool :=
  inputs.any fun i => !(waitingPkts m t out vc i).isEmpty

/-- The input whose oldest VC_MGMT packet for an output has waited 10 µs (R25). -/
def escaped (m : Mesh) (t : Nat) (out : MeshPort) : Option MeshPort :=
  (m.escapes.find? fun e => e.1 == t && e.2.1 == out && !(waitingPkts m t out .mgmt e.2.2).isEmpty).map (·.2.2)

/-- The input served next for an output and virtual channel: round robin, one packet per input per turn (R25). -/
def nextInput (m : Mesh) (t : Nat) (out : MeshPort) (vc : Vc) : Option MeshPort :=
  let last := ((m.rr.find? fun r => r.tile == t && r.out == out && r.vc == vc).map (·.last)).getD .localPort
  (turnAfter last).find? fun i => !(waitingPkts m t out vc i).isEmpty

/-- The virtual channel and input served next on an output: VC_URGENT first; then a VC_MGMT packet that has waited 10 µs; then
strict priority, among the channels that have a packet and a credit (R24, R25). -/
def nextSend (s : State) (t : Nat) (out : MeshPort) : Option (Vc × MeshPort) :=
  let ready := fun vc => vcWaits s.mesh t out vc && hasCredit s t out vc
  let turn := fun vc => (nextInput s.mesh t out vc).map fun i => (vc, i)
  if ready .urgent then turn .urgent
  else match if hasCredit s t out .mgmt then escaped s.mesh t out else none with
  | some i => some (.mgmt, i)
  | none => ([Vc.host, .background, .mgmt].find? ready).bind turn

/-- Takes the head packet of one queue. -/
def dequeuePkt (t : Nat) (out inp : MeshPort) (vc : Vc) (m : Mesh) : Mesh :=
  { m with queues := m.queues.map fun q =>
      if q.tile == t && q.out == out && q.vc == vc && q.inp == inp then { q with pkts := q.pkts.tail } else q }

def setRr (t : Nat) (out : MeshPort) (vc : Vc) (inp : MeshPort) (m : Mesh) : Mesh :=
  { m with rr := (m.rr.filter fun r => !(r.tile == t && r.out == out && r.vc == vc)) ++
      [{ tile := t, out := out, vc := vc, last := inp }] }

/-- Records a replay on both ends of the link a packet came in on (R26). -/
def recordReplay (s : State) (t : Nat) (p : MeshPort) : State :=
  countLife 7 { s with mesh := { s.mesh with links := s.mesh.links.map fun l =>
      if (l.tile == t && l.link == p) || (l.tile == linkTo s t p && l.link == farEnd p) then
        { l with replays := (s.nowMs :: l.replays).take 16, total := sat 0xFFFF (l.total + 1) } else l } }

/-- Hands a packet to the router of tile `t`: it is delivered there, or queued for the output of its route. A packet
whose source holds for a route change waits in the hold (R22). A packet with no route is dropped with its tile. -/
def routePkt (s : State) (t : Nat) (inp : MeshPort) (k : MeshPkt) : State :=
  if k.dst == t then { s with mesh := { s.mesh with delivered := s.mesh.delivered ++ [(t, k)] } }
  else if inp == .localPort && s.mesh.holds.any (fun h => h.src == k.src && h.dst == k.dst) then
    { s with mesh := { s.mesh with holds := s.mesh.holds.map fun h =>
        if h.src == k.src && h.dst == k.dst then { h with pkts := h.pkts ++ [k] } else h } }
  else match routeOut s t k.dst with
  | some out => { s with mesh := enqueuePkt t out inp k s.mesh }
  | none => s

/-- Numbers a packet at its source (R22, R23). DESIGN CHOICE: each source, destination and virtual channel counts for itself, from 0,
without a bound. -/
def numberPkt (m : Mesh) (k : MeshPkt) : Mesh × MeshPkt :=
  let n := ((m.seqs.find? fun q => q.src == k.src && q.dst == k.dst && q.vc == k.vc).map (·.next)).getD 0
  ({ m with seqs := (m.seqs.filter fun q => !(q.src == k.src && q.dst == k.dst && q.vc == k.vc)) ++
      [{ src := k.src, dst := k.dst, vc := k.vc, next := n + 1 }] }, { k with seq := n })

/-- The payloads that data crosses in: 2,048 bytes at most in one packet (R23). -/
def payloads (n : Nat) : List Nat :=
  if n == 0 then [0] else List.replicate (n / 2048) 2048 ++ (if n % 2048 == 0 then [] else [n % 2048])

/-- MESH_PACKET_RECEIVED. At a link input the oldest packet on the link arrives: one that fails its CRC is replayed and
stays on the link (R26), any other is forwarded or delivered. At the local input the tile sends data of its own, in as many packets as
it takes (R23). -/
def meshReceive (tile : Nat) (inp : MeshPort) (pkt : MeshPkt) (crcOk : Bool) (s : State) : State :=
  if inp == .localPort then
    if pkt.src == tile then
      (payloads pkt.len).foldl (fun s n =>
        let r := numberPkt s.mesh { pkt with len := n }
        routePkt { s with mesh := r.1 } tile .localPort r.2) s
    else s
  else
    let far := linkTo s tile inp
    match s.mesh.wire.find? (fun w => w.tile == far && w.out == bond s far (farEnd inp)) with
    | none => s
    | some w =>
      if !linkUp s tile inp then s
      else if !crcOk then recordReplay s tile inp
      else routePkt { s with mesh := { s.mesh with wire := s.mesh.wire.erase w } } tile (bond s tile inp) w.pkt

def execMeshPacketReceived (tile : Nat) (inp : MeshPort) (pkt : MeshPkt) (crcOk : Bool) (s : State) :
    Host.Outcome State Fault Refusal := .next (meshReceive tile inp pkt crcOk s)

/-- MESH_PACKET_SENT (R25): a link is free again; the arbiter of its bond picks the next virtual channel and input, and that
packet goes onto the link. A packet being sent is never interrupted, so nothing is picked before. -/
def meshSend (tile : Nat) (link : MeshPort) (s : State) : State :=
  let out := bond s tile link
  if !linkUp s tile link then s
  else match nextSend s tile out with
  | none => s
  | some (vc, inp) => match (waitingPkts s.mesh tile out vc inp).head? with
    | none => s
    | some k =>
      let m := setRr tile out vc inp (dequeuePkt tile out inp vc s.mesh)
      { s with mesh := { m with
          wire := m.wire ++ [{ tile := tile, out := out, inp := inp, pkt := k }]
          escapes := if vc == .mgmt then m.escapes.erase (tile, out, inp) else m.escapes } }

def execMeshPacketSent (tile : Nat) (out : MeshPort) (s : State) : Host.Outcome State Fault Refusal :=
  .next (meshSend tile out s)

/-- MGMT_ESCAPE (R25): the oldest VC_MGMT packet of one input for this output has waited 10 µs; it goes next unless VC_URGENT waits. -/
def execMgmtEscape (tile : Nat) (p : InOut) (s : State) : Host.Outcome State Fault Refusal :=
  let e := (tile, bond s tile p.out, bond s tile p.inp)
  .next (if !(waitingPkts s.mesh tile e.2.1 .mgmt e.2.2).isEmpty && !s.mesh.escapes.contains e then
      { s with mesh := { s.mesh with escapes := s.mesh.escapes ++ [e] } } else s)

/-- Sets both ends of a link up or down. -/
def setLink (s : State) (t : Nat) (p : MeshPort) (up : Bool) : State :=
  { s with mesh := { s.mesh with links := s.mesh.links.map fun l =>
      if (l.tile == t && l.link == p) || (l.tile == linkTo s t p && l.link == farEnd p) then
        { l with up := up, replays := [] } else l } }

/-- All pairs of present tiles. -/
def tilePairs (s : State) : List (Nat × Nat) :=
  (List.range s.ident.part.tiles).flatMap fun a => (List.range s.ident.part.tiles).map fun b => (a, b)

/-- Opens a hold at every source whose route to a destination changed between two states, and moves what was on a bond that is down
or waited for it to the new routes, what was on it first (R22, R26). What waits for a bond that is up goes the way it was sent. -/
def reroute (old s : State) : State :=
  let changed := (tilePairs s).filter fun p => p.1 != p.2 && pathOf old 8 p.1 p.2 != pathOf s 8 p.1 p.2
  let holds := changed.filter fun p => !s.mesh.holds.any fun h => h.src == p.1 && h.dst == p.2
  let dead := fun (t : Nat) (out : MeshPort) => !bondUp s t out
  let moved := ((s.mesh.wire.filter fun w => dead w.tile w.out).map fun w => (w.tile, w.inp, w.pkt)) ++
    (s.mesh.queues.filter fun q => dead q.tile q.out).flatMap fun q => q.pkts.map fun k => (q.tile, q.inp, k)
  let base := { s with mesh := { s.mesh with
    wire := s.mesh.wire.filter fun w => !dead w.tile w.out
    queues := s.mesh.queues.filter fun q => !dead q.tile q.out
    escapes := s.mesh.escapes.filter fun e => !dead e.1 e.2.1
    holds := s.mesh.holds ++ holds.map fun p => { src := p.1, dst := p.2, pkts := [] } } }
  moved.foldl (fun s x => match routeOut s x.1 x.2.2.dst with
    | some out => { s with mesh := enqueuePkt x.1 out x.2.1 x.2.2 s.mesh }
    | none => s) base

/-- Sixteen replays within 1 ms (R26). -/
def replayLimit (s : State) (t : Nat) (p : MeshPort) : Bool :=
  s.mesh.links.any fun l => l.tile == t && l.link == p && 16 ≤ (l.replays.filter fun r => s.nowMs ≤ r + 1).length

/-- MESH_LINK_DOWN (R26): a link with 16 replays in 1 ms, without training, or disabled, goes down; traffic moves. -/
def meshDown (tile : Nat) (link : MeshPort) (trainingLost : Bool) (s : State) : State :=
  if linkUp s tile link && (trainingLost || replayLimit s tile link) then
    reroute s (countLife 8 (logEv .meshLinkDown tile [linkIndex link, b2n trainingLost] (setLink s tile link false)))
  else s

def execMeshLinkDown (tile : Nat) (link : MeshPort) (trainingLost : Bool) (s : State) :
    Host.Outcome State Fault Refusal := .next (meshDown tile link trainingLost s)

/-- Whether a link may be up: its tiles are up and neither end disables it (R494). -/
def linkAllowed (s : State) (t : Nat) (p : MeshPort) : Bool :=
  p != .localPort && tileUp s t && tileUp s (linkTo s t p) &&
  !bitOf (s.tfld t .glb_mesh_cfg_link_disable) (linkIndex p) &&
  !bitOf (s.tfld (linkTo s t p) .glb_mesh_cfg_link_disable) (linkIndex (farEnd p))

/-- MESH_LINK_RETRAIN (R26): a down link tries to train; success logs MESH_LINK_UP and restores the routes. -/
def meshRetrain (tile : Nat) (link : MeshPort) (ok : Bool) (s : State) : State :=
  if ok && !linkUp s tile link && linkAllowed s tile link then
    reroute s (logEv .meshLinkUp tile [linkIndex link] (setLink s tile link true))
  else s

def execMeshLinkRetrain (tile : Nat) (link : MeshPort) (ok : Bool) (s : State) :
    Host.Outcome State Fault Refusal := .next (meshRetrain tile link ok s)

/-- A packet of a source for a destination is on its way: sent and not acknowledged (R22). -/
def unacked (m : Mesh) (src dst : Nat) : Bool :=
  m.wire.any (fun w => w.pkt.src == src && w.pkt.dst == dst) ||
  m.queues.any fun q => q.pkts.any fun k => k.src == src && k.dst == dst

/-- ROUTE_HOLD_END (R22): once every packet sent on the old route is acknowledged, or the hold has lasted 20 µs, the packets held at a
source after a route change go out, in order. -/
def holdEnd (src dst : Nat) (late : Bool) (s : State) : State :=
  match s.mesh.holds.find? (fun h => h.src == src && h.dst == dst) with
  | none => s
  | some h => if unacked s.mesh src dst && !late then s
    else h.pkts.foldl (fun s k => routePkt s src .localPort k)
      { s with mesh := { s.mesh with holds := s.mesh.holds.erase h } }

def execRouteHoldEnd (src : Nat) (h : HoldEnd) (s : State) : Host.Outcome State Fault Refusal := .next (holdEnd src h.dst h.late s)

end Sys2Proof.Machine
end

