-- ==== Sys2Proof/Machine/MeterOps.lean ====
section
/-!
DEFINITION. Sys2Proof/Machine/MeterOps.lean: what the chess clock counts (R120, R121), and what SMART counts of a namespace (R496).
-/
namespace Sys2Proof.Machine
open Sys2Proof

/-- The device as a payer (R103, R122). -/
def Payer.device : Payer := { cntlid := 0, tenant := 0, inc := 0 }

def Ctrl.payer (c : Ctrl) : Payer := { cntlid := c.cntlid, tenant := c.tenant, inc := c.inc }

/-- A table row of a tile with nothing counted. -/
def Meter.empty (t kind : Nat) (p : Payer) (n : Nat) : Meter :=
  { inc := p.inc, tile := t, kind := kind, cntlid := p.cntlid, nsid := n, tenant := p.tenant, bytesIn := 0, bytesOut := 0,
    media := 0, dieUs := 0, commands := 0, qos := 0, incomplete := false, ended := false }

def Meter.isRow (m : Meter) (t kind : Nat) (p : Payer) (n : Nat) : Bool :=
  m.tile == t && m.kind == kind && m.cntlid == p.cntlid && m.inc == p.inc && m.nsid == n

/-- The namespace that stands for the pairs that found the table full (R121). -/
def otherNs : Nat := 0xFFFFFFFF

/-- Counts in a tile's table; a new pair that finds 65,536 pairs is counted under the controller alone (R121). Work done for a
controller that has ended is still counted to it (R122, CONTROLLER_ENDED). -/
def charge (t kind : Nat) (p : Payer) (n : Nat) (f : Meter → Meter) (s : State) : State :=
  let ms := s.clock.meters
  let full := kind == 0 && !ms.any (fun m => m.isRow t kind p n) && 65536 ≤ (ms.filter fun m => m.tile == t && m.kind == 0).length
  let n' := if full then otherNs else n
  let gone := kind == 0 && !s.host.ctrls.any fun c => c.inc == p.inc
  let g := fun (m : Meter) => { f m with incomplete := m.incomplete || full, ended := m.ended || gone }
  { s with clock := { s.clock with
      meters := if ms.any (fun m => m.isRow t kind p n') then ms.map fun m => if m.isRow t kind p n' then g m else m
      else ms ++ [g (Meter.empty t kind p n')] } }

/-- Counts for the pair of a controller and a namespace. -/
def chargePair (t : Nat) (p : Payer) (n : Nat) (f : Meter → Meter) (s : State) : State := charge t 0 p n f s
/-- Counts for a namespace's background record, which carries its owner (R122). -/
def chargeBack (t n : Nat) (f : Meter → Meter) (s : State) : State :=
  charge t 1 { Payer.device with tenant := ((s.reg.nss.find? fun x => x.nsid == n).map (·.owner)).getD 0 } n f s
/-- Counts for the overhead record. -/
def chargeOver (t : Nat) (f : Meter → Meter) (s : State) : State := charge t 2 Payer.device 0 f s

def Meter.addMedia (b : Nat) (m : Meter) : Meter := { m with media := m.media + b }
def Meter.addDie (us : Nat) (m : Meter) : Meter := { m with dieUs := m.dieUs + us }

/-- Counts of a namespace since the first start (R496). -/
def countNs (n : Nat) (f : NsCount → NsCount) (s : State) : State :=
  let cs := s.health.nsCounts
  { s with health := { s.health with
      nsCounts := if cs.any (fun c => c.nsid == n) then cs.map fun c => if c.nsid == n then f c else c
      else cs ++ [f { nsid := n, read := 0, written := 0, reads := 0, writes := 0, errors := 0 }] } }

/-- The host data that a completed command is counted with, to the host and from it (R80, R120). DEDUCED: a command whose data
did not move counts none. -/
def hostData (op : IoOp) (nlb : Nat) (st : Status) : Nat × Nat :=
  if st == .success || st == .compareFailure || st == .unrecoveredReadError then
    match op with
    | .read | .compare | .verify => (4096 * nlb, 0)
    | .write => (0, 4096 * nlb)
    | _ => (0, 0)
  else (0, 0)

/-- Counts a completed command on its pair, with a QoS miss if it is one (R83, R120), and for SMART (R496). Admin commands go to
NSID 0. -/
def meterCommand (c : Cmd) (miss : Bool) (s : State) : State :=
  let d := hostData c.cap.op c.cap.nlb c.status
  let s1 := chargePair c.tile c.payer (if c.sqid == 0 then 0 else c.cap.nsid) (fun m => { m with
    commands := m.commands + 1, bytesOut := m.bytesOut + d.1, bytesIn := m.bytesIn + d.2
    qos := sat 0xFFFFFFFF (m.qos + b2n miss) }) s
  if c.sqid == 0 then s1
  else
    let rd := c.cap.op == .read || c.cap.op == .compare || c.cap.op == .verify
    let wr := match c.cap.op with
      | .write | .flush | .writeZeroes _ | .datasetManagement true _ => true
      | _ => false
    countNs c.cap.nsid (fun n => { n with
      read := n.read + d.1, written := n.written + d.2, reads := n.reads + b2n rd, writes := n.writes + b2n wr
      errors := n.errors + b2n (c.status == .unrecoveredReadError) }) s1

/-- Marks the records of a controller that ends, which has gone from the list of controllers (R122, CONTROLLER_ENDED). -/
def meterEnded (cntlid : Nat) (s : State) : State :=
  { s with clock := { s.clock with meters := s.clock.meters.map fun m =>
      if m.kind == 0 && m.cntlid == cntlid && !s.host.ctrls.any (fun c => c.inc == m.inc) then { m with ended := true } else m } }

/-- Counts media bytes of an endurance group (R498). -/
def countEgMedia (eg b : Nat) (s : State) : State :=
  let cs := s.health.counts
  { s with health := { s.health with
      counts := if cs.any (fun c => c.1 == eg) then cs.map fun c => if c.1 == eg then (eg, c.2 + b) else c else cs ++ [(eg, b)] } }

end Sys2Proof.Machine
end

