-- ==== Sys2Proof/Machine/QueueOps.lean ====
section
/-!
DEFINITION. Sys2Proof/Machine/QueueOps.lean: the queue engine's shared operations: queue pairs, classes, ordering,
rate limits, completions, queue freeze, and the end of a controller (R55 to R97).
-/
namespace Sys2Proof.Machine
open Sys2Proof

/-! ### Finding and changing -/

def findCtrl (s : State) (cntlid : Nat) : Option Ctrl := s.host.ctrls.find? fun c => c.cntlid == cntlid
def findSq (s : State) (cntlid sqid : Nat) : Option Sq :=
  s.host.sqs.find? fun q => q.cntlid == cntlid && q.sqid == sqid
def findCq (s : State) (cntlid cqid : Nat) : Option Cq :=
  s.host.cqs.find? fun q => q.cntlid == cntlid && q.cqid == cqid
def findCmd (s : State) (id : Nat) : Option Cmd := s.host.cmds.find? fun c => c.id == id
def findPort (s : State) (t : Nat) : Option Port := s.host.ports.find? fun p => p.tile == t
def findConn (s : State) (id : Nat) : Option Conn := s.host.conns.find? fun c => c.id == id

def updCtrl (cntlid : Nat) (f : Ctrl → Ctrl) (s : State) : State :=
  { s with host := { s.host with ctrls := s.host.ctrls.map fun c => if c.cntlid == cntlid then f c else c } }
def updSq (cntlid sqid : Nat) (f : Sq → Sq) (s : State) : State :=
  { s with host := { s.host with
      sqs := s.host.sqs.map fun q => if q.cntlid == cntlid && q.sqid == sqid then f q else q } }
def updCq (cntlid cqid : Nat) (f : Cq → Cq) (s : State) : State :=
  { s with host := { s.host with
      cqs := s.host.cqs.map fun q => if q.cntlid == cntlid && q.cqid == cqid then f q else q } }
def updCmd (id : Nat) (f : Cmd → Cmd) (s : State) : State :=
  { s with host := { s.host with cmds := s.host.cmds.map fun c => if c.id == id then f c else c } }
def dropCmd (id : Nat) (s : State) : State :=
  { s with host := { s.host with cmds := s.host.cmds.filter fun c => !(c.id == id) } }
def updPort (t : Nat) (f : Port → Port) (s : State) : State :=
  { s with host := { s.host with ports := s.host.ports.map fun p => if p.tile == t then f p else p } }
def updConn (id : Nat) (f : Conn → Conn) (s : State) : State :=
  { s with host := { s.host with conns := s.host.conns.map fun c => if c.id == id then f c else c } }
def dropConn (id : Nat) (s : State) : State :=
  { s with host := { s.host with conns := s.host.conns.filter fun c => !(c.id == id) } }

/-! ### Classes, kinds and ordering (R71, R73 to R75, R80) -/

/-- The class an I/O queue is served in, 0 to 3 for H0 to H3 (R71, R73). -/
def queueClass (c : Ctrl) (q : Sq) : Nat := if c.orderMode < 2 then 2 else q.reqClass

def hostClass : Nat → PClass
  | 0 => .h0
  | 1 => .h1
  | 2 => .h2
  | _ => .h3

/-- The command kinds of R74. -/
inductive Kind | read | write | barrier
deriving DecidableEq, Repr

def kindOf : IoOp → Kind
  | .read | .compare | .verify => .read
  | .write | .writeZeroes _ | .flush => .write
  | .datasetManagement true _ => .write
  | .datasetManagement false _ | .other | .admin _ => .barrier

/-- An admin command's capsule. -/
def isAdmin : IoOp → Bool
  | .admin _ => true
  | _ => false

/-- Whether two commands name different namespaces, or disjoint ranges of one (R74): a Flush has no range, a
deallocation the whole namespace. -/
def disjoint (a b : Capsule) : Bool :=
  a.nsid != b.nsid || a.op == .flush || b.op == .flush ||
  (match a.op, b.op with
   | .datasetManagement _ _, _ => false
   | _, .datasetManagement _ _ => false
   | _, _ => a.slba + a.nlb ≤ b.slba || b.slba + b.nlb ≤ a.slba)

/-- Writes of a queue that were fetched before the command numbered `id` and have not taken effect (R75). -/
def trackedWrites (s : State) (cntlid sqid id : Nat) : Nat :=
  (s.host.cmds.filter fun e => e.cntlid == cntlid && e.sqid == sqid && e.id < id && kindOf e.cap.op == .write && !e.took).length

/-- Whether `c` must follow the earlier command `e` of its queue (R73 to R75). A read that was fetched while 64 writes were tracked
follows every earlier write until fewer are. -/
def mustFollow (s : State) (mode : Nat) (c e : Cmd) : Bool :=
  match mode with
  | 0 => true
  | 2 => false
  | _ =>
    if kindOf c.cap.op == .read && kindOf e.cap.op == .write then
      !disjoint e.cap c.cap || (c.behindWrites && 64 ≤ trackedWrites s c.cntlid c.sqid c.id)
    else true

def orderModeOf (s : State) (c : Cmd) : Nat := ((findCtrl s c.cntlid).map (·.orderMode)).getD 2

/-- The earlier commands of the same I/O queue that `c` must follow. The admin queue is not ordered. -/
def predecessors (s : State) (c : Cmd) : List Cmd :=
  if c.sqid == 0 then []
  else s.host.cmds.filter fun e =>
    e.cntlid == c.cntlid && e.sqid == c.sqid && e.id < c.id && !e.discard && mustFollow s (orderModeOf s c) c e

/-- A command's map step may be sent: that of every command it must follow has been confirmed (R74). -/
def mayMap (s : State) (c : Cmd) : Bool := (predecessors s c).all (·.took)

/-- A command's completion may be posted: those of the commands it must follow have been posted (R74). -/
def mayPost (s : State) (c : Cmd) : Bool := (predecessors s c).isEmpty

/-- Started (R70): the first step after admission has been issued. An admin command that waits for its own first action has not. -/
def Cmd.started (c : Cmd) : Bool := c.phase != .admitted && c.phase != .held && c.phase != .running

/-- The bytes of data a command names (R79, R80). -/
def dataLen (c : Capsule) : Nat :=
  match c.op with
  | .read | .write | .compare | .verify => c.nlb * 4096
  | .datasetManagement _ r => 16 * r.length
  | .admin n => n
  | _ => 0

/-! ### Rate limits (R80 to R82) -/

def readKind (o : IoOp) : Bool := o == .read || o == .compare || o == .verify
def writeKind : IoOp → Bool
  | .write | .writeZeroes _ | .datasetManagement true _ => true
  | _ => false

/-- The buckets of one namespace: 0 rd_iops, 1 wr_iops, 2 rd_mbps, 3 wr_mbps. -/
def limitOf (l : Limits) : Nat → Nat
  | 0 => l.rdIops
  | 1 => l.wrIops
  | 2 => l.rdMbps
  | _ => l.wrMbps

def burstOf (l : Limits) : Nat := if l.burstMs == 0 then 10 else l.burstMs

/-- What a command costs in each bucket, in units of 1/256 (R80, R81). -/
def costs (c : Capsule) : List (Nat × Nat) :=
  if readKind c.op then [(0, 256), (2, ceilDiv (dataLen c * 256) 1000000)]
  else if writeKind c.op then
    [(1, 256), (3, if c.op == .write then ceilDiv (dataLen c * 256) 1000000 else 0)]
  else []

def findBucket (s : State) (t n k : Nat) : Option Bucket :=
  s.host.buckets.find? fun b => b.tile == t && b.nsid == n && b.kind == k

/-- A bucket allows a cost: it holds the tokens, or it is full (a command larger than a full bucket). -/
def bucketAllows (s : State) (t n : Nat) (x : Nat × Nat) : Bool :=
  match findBucket s t n x.1 with
  | none => true
  | some b => decide ((x.2 : Int) ≤ b.tokens) || decide ((b.depth : Int) ≤ b.tokens)

def tokensAllow (s : State) (t : Nat) (c : Capsule) : Bool := (costs c).all (bucketAllows s t c.nsid)

/-- Takes a command's tokens. -/
def takeTokens (s : State) (t : Nat) (c : Capsule) : State :=
  { s with host := { s.host with buckets := s.host.buckets.map fun b =>
      if b.tile == t && b.nsid == c.nsid then
        { b with tokens := b.tokens - (((costs c).filter fun x => x.1 == b.kind).map (fun x => (x.2 : Int))).sum }
      else b } }

/-- Commands on the hold list of a namespace on a tile, oldest first (R82). -/
def holdList (s : State) (t n : Nat) : List Cmd :=
  s.host.cmds.filter fun c => c.tile == t && c.cap.nsid == n && c.phase == .held

/-- A command may be admitted: no limit counts it (R80), or tokens allow it and no held command of its kind arrived before it
(R82). -/
def mayAdmit (s : State) (c : Cmd) : Bool :=
  (costs c.cap).isEmpty ||
  (tokensAllow s c.tile c.cap &&
    !(holdList s c.tile c.cap.nsid).any fun e => e.id < c.id && readKind e.cap.op == readKind c.cap.op)

/-! ### Completions and queue freeze (R69, R83, R88, R89) -/

/-- Whether a status freezes a queue in its freeze mode (R88). -/
def freezes (mediaOnly : Bool) (st : Status) : Bool :=
  if mediaOnly then st.sct == 2
  else !(st == .success || st == .commandAbortRequested || st == .asymmetricAccessInaccessible ||
    st == .asymmetricAccessTransition || st == .namespaceNotReady || st == .commandInterrupted)

/-- Enters a failing completion in its controller's Error Information log (R89). -/
def logFailure (cntlid sqid : Nat) (cap : Capsule) (st : Status) (s : State) : State :=
  updCtrl cntlid (fun k => { k with
    errorCount := k.errorCount + 1
    errors := ({ count := k.errorCount + 1, sqid := sqid, cid := cap.cid, status := st,
                 nsid := cap.nsid, lba := cap.slba } :: k.errors).take 64 }) s

def logError (c : Cmd) (st : Status) (s : State) : State := logFailure c.cntlid c.sqid c.cap st s

/-- Freezes the queue of a failing command, unless it is frozen already or is the admin queue (R88, R91). -/
def freezeQueue (c : Cmd) (st : Status) (s : State) : State :=
  match findSq s c.cntlid c.sqid with
  | none => s
  | some q =>
    if c.sqid == 0 || q.frozen.isSome || !freezes q.mediaOnly st then s
    else
      let err := ((findCtrl s c.cntlid).map (·.errorCount)).getD 0
      let s1 := updSq c.cntlid c.sqid (fun q => { q with
        frozen := some { order := s.host.freezes, cid := c.cap.cid, status := st, error := err } }) s
      { s1 with host := { s1.host with freezes := s1.host.freezes + 1 } }

/-- Whether the completions of a queue carry FRZ (R89). -/
def frz (s : State) (cntlid sqid : Nat) : Bool :=
  sqid != 0 && ((findSq s cntlid sqid).map (·.frozen.isSome)).getD false

/-- Over PCIe: writes the completion entry, and raises the queue's vector, at once or after coalescing (R69). -/
def postCq (c : Cmd) (s : State) : State :=
  match findSq s c.cntlid c.sqid with
  | none => s
  | some q => match findCq s c.cntlid q.cqid with
    | none => s
    | some cq =>
      let s1 := updCq c.cntlid q.cqid (fun k => { k with
        tail := (k.tail + 1) % k.size, reserved := k.reserved - 1 }) s
      if !cq.ien || q.transport != .pcie then s1
      else
        let k := (findCtrl s c.cntlid)
        let thr := (k.map (·.coalesce.1)).getD 0
        let time := (k.map (·.coalesce.2)).getD 0
        let n := (((s1.host.irqs.find? fun p => p.cntlid == c.cntlid && p.vector == cq.vector).map (·.count)).getD 0) + 1
        let rest := s1.host.irqs.filter fun p => !(p.cntlid == c.cntlid && p.vector == cq.vector)
        let plain := c.sqid == 0 || time == 0 || ((k.map fun k => k.noCoalesce.contains cq.vector).getD false)
        if plain || thr < n then
          emit (.hostIrq c.cntlid cq.vector) { s1 with host := { s1.host with irqs := rest } }
        else { s1 with host := { s1.host with
          irqs := rest ++ [{ cntlid := c.cntlid, vector := cq.vector, count := n }] } }

/-- Counts a QoS miss (R83): class H0 to H3, over the controller's target, time held not counted. -/
def isQosMiss (s : State) (c : Cmd) : Bool :=
  match findCtrl s c.cntlid with
  | none => false
  | some k => k.latency != 0 && c.sqid != 0 && k.latency < (s.nowMs - c.fetchMs - c.heldMs) * 1000

/-- The priority or the whole port of a connection is paused by the host (R44). -/
def portPaused (s : State) (t p prio : Nat) : Bool :=
  match findPort s t with
  | some k => k.allPaused.contains p || k.paused.contains (p, prio)
  | none => false

/-- Sends a message of a queue: on fabrics it waits while the host pauses the connection's priority or port (R44). -/
def sendTo (cntlid sqid : Nat) (o : Out) (s : State) : State :=
  match s.host.conns.find? fun k => k.bound && k.cntlid == cntlid && k.sqid == sqid with
  | some k =>
    if portPaused s k.tile k.port k.prio then
      { s with heldOuts := s.heldOuts ++ [{ tile := k.tile, port := k.port, prio := k.prio, out := o }] }
    else emit o s
  | none => emit o s

/-- Sends what waited for ports and priorities that are no longer paused (R44). -/
def sendHeld (s : State) : State :=
  { s with
    outs := s.outs ++ ((s.heldOuts.filter fun h => !portPaused s h.tile h.port h.prio).map (·.out))
    heldOuts := s.heldOuts.filter fun h => portPaused s h.tile h.port h.prio }

/-- Over TCP, a read whose data ends successfully sends no response capsule (R46). DEDUCED: while the queue is frozen it does, since the
completion carries FRZ (R89). -/
def successFlag (s : State) (c : Cmd) (dw0 : Nat) : Bool :=
  c.cap.op == .read && c.status == .success && dw0 == 0 &&
    (findSq s c.cntlid c.sqid).any fun q => q.transport == .tcp

/-- Reports CSTS.SHST 10b once every fetched command of a controller that is shutting down has completed, but its requests for events
(R95). -/
def shutdownDone (id : Nat) (s : State) : State :=
  if s.host.cmds.any fun c => c.cntlid == id && !(s.host.ctrls.any fun k => k.cntlid == id && k.aers.contains c.id) then s
  else updCtrl id (fun c => if c.shutting then { c with shst := 2 } else c) s

/-- Marks the extents of a write whose completion the host has (R93). -/
def ackExts (c : Cmd) (s : State) : State :=
  if c.status != .success || c.extents.isEmpty then s
  else { s with wr := { s.wr with
      exts := s.wr.exts.map fun e => if c.extents.contains e.seq && e.src.isNone then { e with acked := true } else e } }

/-- Posts the completion of an ended command and forgets the command (R34, R46, R47, R66, R89, R95). -/
def postOne (c : Cmd) (s : State) : State :=
  let s1 := if c.status == .success then s else freezeQueue c c.status (logError c c.status s)
  let dw0 := if c.sqid == 0 then c.dw0 else c.dw0 % 2 ^ 31 + (if frz s1 c.cntlid c.sqid then 2 ^ 31 else 0)
  let head := ((findSq s1 c.cntlid c.sqid).map (·.head)).getD 0
  let alone := successFlag s1 c dw0
  let s2 := if c.cap.op == .read && c.status == .success then
      sendTo c.cntlid c.sqid (.readData c.cntlid c.sqid c.cap.cid c.data alone) s1 else s1
  let s3 := if alone then s2 else sendTo c.cntlid c.sqid (.completion c.cntlid c.sqid c.cap.cid c.status dw0 head) s2
  let s4 := match c.cap.invKey with
    | some k => sendTo c.cntlid c.sqid (.invalidate c.cntlid c.sqid k) s3
    | none => s3
  let s5 := freeBuffers c.tile c.bufs (ackExts c (meterCommand c (isQosMiss s c) s4))
  shutdownDone c.cntlid (dropCmd c.id (postCq c s5))

/-- Posts every ended command whose completion may be posted, in the order of fetch (R74). -/
def postEnded (s : State) : State :=
  (s.host.cmds.map (·.id)).foldl (fun s id => match findCmd s id with
    | some c => if c.phase == .ended && mayPost s c then postOne c s else s
    | none => s) s

/-- Ends a command with a status. A discarded command is forgotten without a completion (R94). -/
def finishCmd (id : Nat) (st : Status) (dw0 : Nat) (s : State) : State :=
  match findCmd s id with
  | none => s
  | some c =>
    if c.discard then postEnded (shutdownDone c.cntlid (dropCmd id (freeBuffers c.tile c.bufs s)))
    else postEnded (updCmd id (fun c => { c with phase := .ended, status := st, dw0 := dw0, took := true }) s)

/-! ### Queue pairs and controllers (R43, R55, R56, R66, R94) -/

/-- The submission queues of a controller other than its admin queue. -/
def ioQueues (s : State) (cntlid : Nat) : List Sq := s.host.sqs.filter fun q => q.cntlid == cntlid && q.sqid != 0

/-- A controller has an I/O queue, a completion queue alone included (R56, R76). -/
def hasIoQueue (s : State) (cntlid : Nat) : Bool :=
  !(ioQueues s cntlid).isEmpty || s.host.cqs.any fun q => q.cntlid == cntlid && q.cqid != 0

/-- Whether a controller is on an x8 endpoint (R43), by the mode that its port runs in: a new mode starts with its lanes (R62). -/
def isX8 (s : State) (c : Ctrl) : Bool :=
  match c.ident with
  | .function e _ => (findPort s e).any fun p => p.mode == 5
  | .nqn _ => false

/-- The tile that holds an I/O queue pair (R43). -/
def queueTile (s : State) (c : Ctrl) (sqid : Nat) : Nat :=
  if isX8 s c && sqid % 2 == 0 then partnerOf s c.tile else c.tile

/-- The queue pairs of a grant of `g` that are on tile `t`: queues 1 to g, by R43. -/
def grantedOn (s : State) (t g : Nat) (c : Ctrl) : Nat :=
  ((List.range g).filter fun i => queueTile s c (i + 1) == t).length

/-- The I/O queue pairs of tile `t` that are reserved for a controller: those of its grant, or the queues it created (R43, R56). -/
def reservedOn (s : State) (t : Nat) (c : Ctrl) : Nat :=
  max (grantedOn s t (c.grant.getD 0) c) ((ioQueues s c.cntlid).filter fun q => q.tile == t).length

/-- The queue pairs of tile `t` that a controller holds, its admin queue's included (R43, R56). -/
def pairsOn (s : State) (t : Nat) (c : Ctrl) : Nat := (if t == c.tile then 1 else 0) + reservedOn s t c

/-- Free queue pairs of a tile (R56, R66). -/
def qpFree (s : State) (t : Nat) : Nat :=
  16384 - ((s.host.ctrls.filter fun c => !c.discovery).map (pairsOn s t)).sum

/-- Controllers of a tile. -/
def ctrlsOn (s : State) (t : Nat) : List Ctrl := s.host.ctrls.filter fun c => c.tile == t && !c.discovery

/-- The lowest free controller slot of a tile, as a controller ID (R55). -/
def freeCntlid (s : State) (t : Nat) : Option Nat :=
  ((List.range 512).map fun k => 1 + 512 * t + k).find? fun id => !s.host.ctrls.any fun c => c.cntlid == id

/-- What a reset does to one command of its controller (R94): kept to run on without completion, or ended at once. -/
def survivesReset (c : Cmd) : Bool :=
  match c.phase with
  | .admitted | .held | .running => false
  | .mapping => true
  | .dataFetch | .staging => false
  | .lookup | .reading => c.cap.op == .read
  | .draining => c.cap.op != .flush
  | .ended => false

/-- The host command that a held admin command is. -/
def heldCmd : Adm × Instr → Option Nat
  | (.host id, _) => some id
  | (.ring, _) | (.conn _, _) => none

/-- Gives back the completion entry reserved for a command that will post none (R69). -/
def releaseEntry (c : Cmd) (s : State) : State :=
  match findSq s c.cntlid c.sqid with
  | some q => updCq c.cntlid q.cqid (fun k => { k with reserved := k.reserved - 1 }) s
  | none => s

/-- A request for events that waits for one. -/
def parkedAer (s : State) (c : Cmd) : Bool := s.host.ctrls.any fun k => k.aers.contains c.id

/-- Some commands at the reset of their controller or the end of their queue (R64, R66, R69, R94): those held or unstarted are
discarded, a started read or a write whose update is sent runs to its end without completion, and the rest end, requests for events
that wait included; admin commands held by activation are discarded (R94, R97). Their completion entries are free again, and the
buffers of those that end. -/
def resetCmdsOf (p : Cmd → Bool) (s : State) : State :=
  let heldIds := s.heldAdmin.filterMap heldCmd
  let ends := fun (c : Cmd) => p c && (!survivesReset c || parkedAer s c || heldIds.contains c.id)
  let gone := s.host.cmds.filter ends
  let s1 := (s.host.cmds.filter fun c => p c && !c.discard).foldl (fun s c => releaseEntry c s) s
  let s2 := gone.foldl (fun s c => freeBuffers c.tile c.bufs s) s1
  let drop := gone.map (·.id)
  { s2 with
    heldAdmin := s2.heldAdmin.filter fun i => match heldCmd i with
      | some id => !drop.contains id
      | none => true
    host := { s2.host with
      cmds := (s2.host.cmds.filter fun c => !drop.contains c.id).map fun c => if p c then { c with discard := true } else c } }

/-- The commands of a controller at its reset (R94). -/
def resetCmds (cntlid : Nat) (s : State) : State := resetCmdsOf (fun c => c.cntlid == cntlid) s

/-- Deletes a controller's I/O queues, their state and their freezes (R66, R89, R95). -/
def dropQueues (cntlid : Nat) (s : State) : State :=
  { s with host := { s.host with
      sqs := s.host.sqs.filter fun q => !(q.cntlid == cntlid && q.sqid != 0)
      cqs := s.host.cqs.filter fun q => !(q.cntlid == cntlid && q.cqid != 0)
      irqs := s.host.irqs.filter fun p => !(p.cntlid == cntlid) } }

/-- Closes the connections of a controller. -/
def closeConns (cntlid : Nat) (s : State) : State :=
  let mine := s.host.conns.filter fun c => c.bound && c.cntlid == cntlid
  mine.foldl (fun s c => dropConn c.id (emit (.connClosed c.id) s)) s

/-- Resets a controller that stays: R94, R95. Over fabrics the connections of its I/O queues go with the queues. -/
def resetCtrl (cntlid : Nat) (s : State) : State :=
  let s0 := (s.host.conns.filter fun c => c.bound && c.cntlid == cntlid && c.sqid != 0).foldl
    (fun s c => dropConn c.id (emit (.connClosed c.id) s)) s
  let s1 := dropQueues cntlid (resetCmds cntlid s0)
  updCtrl cntlid (fun c => { c with
    enabled := false, ready := false, grant := none, shst := 0, shutting := false, aers := [], aens := [], deficits := []
    arbBurst := Config.resetArbBurst, arbWeights := (7, 3, 1), coalesce := (0, 0), noCoalesce := [] }) { s1 with host := { s1.host with
      sqs := s1.host.sqs.map fun q => if q.cntlid == cntlid then { q with head := 0, tail := 0, recv := [] } else q
      cqs := s1.host.cqs.map fun q => if q.cntlid == cntlid then { q with head := 0, tail := 0, reserved := 0 } else q } }

/-- Ends a controller as at a controller reset: its commands, queues and connections go, and its queue pairs return to
the tile (R57, R66, R94, R95). -/
def endCtrl (cntlid : Nat) (s : State) : State :=
  let s1 := closeConns cntlid (dropQueues cntlid (resetCmds cntlid s))
  meterEnded cntlid { s1 with host := { s1.host with
    ctrls := s1.host.ctrls.filter fun c => !(c.cntlid == cntlid)
    sqs := s1.host.sqs.filter fun q => !(q.cntlid == cntlid)
    cqs := s1.host.cqs.filter fun q => !(q.cntlid == cntlid) } }

/-! ### Asynchronous events (R52, R60, R67, R115) -/

/-- Raises an asynchronous event to a controller: it answers a waiting request, or waits for one. -/
def raiseAen (cntlid kind info : Nat) (s : State) : State :=
  match findCtrl s cntlid with
  | none => s
  | some c => match c.aers with
    | id :: rest =>
      finishCmd id .success (kind + 256 * info) (updCtrl cntlid (fun c => { c with aers := rest }) s)
    | [] => if c.aens.contains (kind, info) then s
            else updCtrl cntlid (fun c => { c with aens := c.aens ++ [(kind, info)] }) s

/-- Namespace Attribute Changed to every controller of these tenants (R115, R117). What is attached to tenant 0 is the provider
controller's alone (R58, R105). -/
def nsChanged (tenants : List Nat) (s : State) : State :=
  ((s.host.ctrls.filter fun c => tenants.contains c.tenant && (c.tenant != 0 || c.provider)).map (·.cntlid)).foldl
    (fun s id => raiseAen id 2 0 s) s

/-! ### ANA (R60, R61) -/

/-- The ANA state of a port tile's controllers: 1 Optimized, 2 Non-Optimized, 3 Inaccessible (R60). -/
def anaState (s : State) (t : Nat) : Nat :=
  match findPort s t with
  | none => 3
  | some p =>
    if p.recon != 0 || s.red.dataLost then 3
    else if !p.narrow.isEmpty || throttled s t then 2
    else 1

/-- Reports a changed ANA state to each controller it changes for (R60). -/
def anaRefresh (s : State) : State :=
  let changed := s.host.ctrls.filter fun c => !c.discovery && c.anaState != anaState s c.tile
  changed.foldl (fun s c =>
    raiseAen c.cntlid 2 3 (updCtrl c.cntlid (fun k => { k with anaState := anaState s c.tile }) s)) s

end Sys2Proof.Machine
end

