-- ==== Sys2Proof/Machine/RingOps.lean ====
section
/-!
DEFINITION. Sys2Proof/Machine/RingOps.lean: the rings of the board port: entries, write-backs and their interrupts, responses,
metering records and event records (R122, R124, R417, R470 to R476, R480).
-/
namespace Sys2Proof.Machine
open Sys2Proof

/-! ### Rings (R470 to R472) -/

def ringOf (s : State) (k : Nat) : Ring := (s.board.rings.find? fun r => r.k == k).getD { k := k, head := 0, tail := 0, unsignalled := 0 }
def putRing (r : Ring) (s : State) : State :=
  { s with board := { s.board with rings := s.board.rings.map fun x => if x.k == r.k then r else x } }

/-- The entries of a ring: 2 to the power log2_size, 4 to 16 (R470). -/
def ringSize (s : State) (k : Nat) : Nat := 2 ^ min 16 (max 4 (s.fld pkgWin k .bpt_ring_cfg_log2_size))
/-- A ring runs (R468, R481). -/
def ringOn (s : State) (k : Nat) : Bool :=
  s.island.pkg == 2 && s.fw.bootState != 3 && s.fld pkgWin k .bpt_ring_cfg_ring_en == 1
/-- Entries in a ring, and free entries: one always stays empty (R470). -/
def ringUsed (s : State) (k : Nat) : Nat :=
  ((ringOf s k).tail + ringSize s k - (ringOf s k).head % ringSize s k) % ringSize s k
def ringRoom (s : State) (k : Nat) : Nat := ringSize s k - 1 - ringUsed s k

/-- The bytes of an entry of a device-written ring: 64 in the metering ring, 32 in the others (R470). -/
def entryBytes (k : Nat) (d : List Field) : Bytes := layBytes (if k == 2 then 64 else 32) d

/-- Publishes an entry of a device-written ring: the entry, the write-back of the tail, and the interrupt when enough entries
are published since the last, or each entry is signalled (R472). -/
def pushRing (k : Nat) (d : List Field) (s : State) : State :=
  let r := ringOf s k
  let t := (r.tail + 1) % ringSize s k
  let n := r.unsignalled + 1
  let now := s.fld pkgWin k .bpt_ring_cfg_coalesce_us == 0 || max 1 (s.fld pkgWin k .bpt_ring_cfg_coalesce_cnt) ≤ n
  let s1 := emit (.writeBack k t) (emit (.ringEntry k r.tail (entryBytes k d))
    (putRing { r with tail := t, unsignalled := if now then 0 else n } s))
  if now then emit (.ringIrq (k - 1)) s1 else s1

/-! ### Responses (R476) -/

/-- The bytes of a descriptor (R473). -/
def descField (d : Bytes) (at_ n : Nat) : Nat := ofLE ((d.drop at_).take n)

/-- Posts the response of the descriptor that runs: its tag, ring status, NVMe status, Dwords 0 and 1, bytes moved and ring index.
The operation counts in the overhead record (R120). The response is discarded when the descriptor is marked so or the response ring is stopped (R476, R481). -/
def respond (ringStatus nvme dw0 dw1 xfer : Nat) (s : State) : State :=
  match s.board.running with
  | none => s
  | some d =>
    let s1 := chargeOver s.mgmt.primary (fun m => { m with commands := m.commands + 1 })
      { s with board := { s.board with running := none, busy := false } }
    if d.drop || !ringOn s 1 then s1
    else pushRing 1 [(0, 2, descField d.bytes 2 2), (2, 1, ringStatus), (4, 2, nvme), (8, 4, dw0), (12, 4, dw1),
      (16, 4, xfer), (20, 2, d.index)] s1

/-- The data length of the descriptor that runs. -/
def runLen (s : State) : Nat := (s.board.running.map fun d => descField d.bytes 16 4).getD 0

/-- Ends a kind 0 descriptor: the ring status is OK, and the NVMe status says what became of it (R476). -/
def postResponse (st : Status) (dw0 : Nat) (s : State) : State :=
  respond 0 st.field dw0 0 (if st == .success then runLen s else 0) s

/-- Ends a board operation with success. -/
def boardDone (dw0 dw1 : Nat) (s : State) : State := respond 0 0 dw0 dw1 (runLen s) s
/-- Ends a board operation that failed, with a reason of R485. -/
def boardFail (reason : Nat) (s : State) : State := respond 6 0 reason 0 0 s

/-! ### Metering records (R122, R124) -/

/-- A metering record as its fields (R122). -/
def MeterRec.fields (r : MeterRec) : List Field :=
  [(0, 4, r.epoch), (4, 2, r.cntlid), (6, 2, r.tenant), (8, 4, r.nsid), (12, 1, r.epochs), (13, 1, r.kind), (14, 2, r.flags),
   (16, 8, r.bytesIn), (24, 8, r.bytesOut), (32, 8, r.media), (40, 8, r.dieUs), (48, 8, r.commands), (56, 4, r.energy),
   (60, 4, r.qos)]

/-- One step of delivery: the next held epoch begins, or its next record enters the ring. Nothing is left: none. -/
def deliverOne (s : State) : Option State :=
  match s.clock.placing with
  | r :: rest =>
    if ringOn s 2 && !s.fw.recovery && 0 < ringRoom s 2 then
      let s1 := pushRing 2 r.fields s
      some { s1 with clock := { s1.clock with
        placing := rest, delivered := if rest.isEmpty then s1.clock.lastDone else s1.clock.delivered } }
    else none
  | [] => match s.clock.held with
    | [] => none
    | e :: rest =>
      if ringOn s 2 && !s.fw.recovery && 0 < ringRoom s 2 then
        some { s with clock := { s.clock with held := rest, placing := e, lastDone := e } }
      else none

/-- Delivers metering records in epoch order while the ring has room (R124). -/
def deliverSteps : Nat → State → State
  | 0, s => s
  | n + 1, s => match deliverOne s with
    | some s1 => deliverSteps n s1
    | none => s

def deliverMeter (s : State) : State :=
  deliverSteps (s.clock.placing.length + (s.clock.held.map fun e => e.length + 1).sum) s

/-! ### Event records (R417, R480) -/

/-- A record as its fields (R417). -/
def EvRec.fields (r : EvRec) : List Field :=
  [(0, 4, r.seq), (4, 2, r.code), (6, 1, r.sev + 16 * r.tile), (7, 1, r.flags), (8, 4, r.minutes), (12, 3, r.cycles),
   (15, 1, r.repeats)] ++ r.params.zipIdx.map fun p => (16 + 4 * p.2, 4, p.1)

/-- The records at or above a number that the store or the event band holds, lowest first. -/
def nextRecord (s : State) (n : Nat) : Option EvRec :=
  ((s.evr.store ++ s.evr.bandPrev ++ s.evr.band).filter fun r => n ≤ r.seq).foldl (fun b r => match b with
    | none => some r
    | some x => if r.seq < x.seq then some r else b) none

/-- One step of event delivery: the record due, after the records that nothing holds any more, which are skipped and counted. -/
def deliverEvent (s : State) : Option State :=
  if !ringOn s 3 || ringRoom s 3 == 0 || s.evr.last < s.evr.evtNext then none
  else match nextRecord s s.evr.evtNext with
  | none => none
  | some r =>
    let s1 := { s with
      evr := { s.evr with evtNext := r.seq + 1 }
      board := { s.board with skipped := sat 0xFFFFFFFF (s.board.skipped + (r.seq - s.evr.evtNext)) } }
    some (if s.gfld .bpt_cfg_evt_min_sev ≤ r.sev then pushRing 3 r.fields s1 else s1)

def deliverEventSteps : Nat → State → State
  | 0, s => s
  | n + 1, s => match deliverEvent s with
    | some s1 => deliverEventSteps n s1
    | none => s

/-- Delivers stored records in sequence order while the event ring has room (R480). -/
def deliverEvents (s : State) : State := deliverEventSteps (s.evr.last + 1 - s.evr.evtNext) s

end Sys2Proof.Machine
end

