-- ==== Sys2Proof/Machine/ChessClock.lean ====
section
/-!
DEFINITION. Sys2Proof/Machine/ChessClock.lean: board time, epochs, metering records, their energy, merging and delivery
(R118 to R127).
-/
namespace Sys2Proof.Machine
open Sys2Proof

/-- Where the running epoch ends after a new epoch_s or board time: the first multiple of epoch_s, on the new time
scale, at least 1 s after the write (R119). -/
def epochBoundary (boardTime epochS : Nat) : Nat :=
  ceilDiv (boardTime + 1000) (1000 * max 1 epochS) * (1000 * max 1 epochS)

def moveEpochEnd (s : State) : State :=
  { s with clock := { s.clock with epochEnd := epochBoundary s.clock.boardTime (s.gfld .glb_clock_cfg_epoch_s) } }

/-- BOARD_TIME_WRITE (R12, R118, R119): the high half takes the low half the register holds. -/
def boardTimeWrite (hi : Nat) (s : State) : State :=
  let t : Nat := hi % 2 ^ 32 * 2 ^ 32 + lowHalf s pkgWin 0 .glbBoardTime
  let delta : Int := (t : Int) - s.clock.boardTime
  moveEpochEnd { s with clock := { s.clock with
    boardTime := t, timeUnset := false, epochStart := s.clock.epochStart + delta } }

def execBoardTimeWrite (hi : Nat) (s : State) : Host.Outcome State Fault Refusal := .next (pkgWrite (boardTimeWrite hi) s)

/-- The weight of a record (R123), in thousandths of 1/1,024: 250 per command, 40 per KiB of host data, 100 per KiB of
media, 60 per µs of die time, all times 1,024. -/
def weight (r : MeterRec) : Nat :=
  250 * 1024 * r.commands + 40 * (r.bytesIn + r.bytesOut) + 100 * r.media + 60 * 1024 * r.dieUs

/-- Counts of the same record on different tiles. -/
def Meter.sameRow (m x : Meter) : Bool :=
  x.kind == m.kind && x.cntlid == m.cntlid && x.inc == m.inc && x.nsid == m.nsid

/-- One record of the running epoch from the counts of every tile (R120 to R122). -/
def meterRecord (s : State) (m : Meter) : MeterRec :=
  let same := s.clock.meters.filter (Meter.sameRow m)
  let flag := fun (b : Bool) k => if b then 2 ^ k else 0
  { inc := m.inc, epoch := s.clock.epoch, epochs := 1, kind := m.kind, cntlid := m.cntlid, tenant := m.tenant, nsid := m.nsid,
    flags := flag s.clock.estimated 0 + flag (s.clock.countsLost || same.any (·.incomplete)) 1 +
      flag s.clock.interrupted 2 + flag s.clock.timeUnset 4 + flag s.clock.throughWt 5 + flag (same.any (·.ended)) 6,
    bytesIn := (same.map (·.bytesIn)).sum, bytesOut := (same.map (·.bytesOut)).sum,
    media := (same.map (·.media)).sum, dieUs := (same.map (·.dieUs)).sum, commands := (same.map (·.commands)).sum,
    energy := 0, qos := sat 0xFFFFFFFF (same.map (·.qos)).sum }

/-- Whether a meter is the first of its record. -/
def firstOf : List Meter → List Meter
  | [] => []
  | m :: ms => m :: (firstOf ms).filter fun x => !m.sameRow x

/-- The records of types 0 to 2 of an epoch; the overhead record always exists. -/
def epochRecords (s : State) : List MeterRec :=
  (firstOf (s.clock.meters ++ [Meter.empty 0 2 Payer.device 0])).map (meterRecord s)

/-- Divides the measured energy (R123): in proportion to weight, rounded down, the residue to the overhead record; with
overhead_mode 1 the overhead's energy is spread over the others in proportion to theirs, and what remains stays. -/
def divideEnergy (total : Nat) (spread : Bool) (rs : List MeterRec) : List MeterRec :=
  let w := (rs.map weight).sum
  let first := rs.map fun r => { r with energy := if w == 0 then 0 else total * weight r / w }
  let addTo := fun (l : List MeterRec) => l.map fun r =>
    if r.kind == 2 then { r with energy := total - ((l.filter fun x => x.kind != 2).map (·.energy)).sum } else r
  let plain := addTo first
  if !spread then plain
  else
    let others := ((plain.filter fun r => r.kind != 2).map (·.energy)).sum
    let ovr := ((plain.filter fun r => r.kind == 2).map (·.energy)).sum
    addTo (plain.map fun r =>
      if r.kind == 2 || others == 0 then r else { r with energy := r.energy + ovr * r.energy / others })

/-- The summary of an epoch (R122, type 3). DESIGN CHOICE: a start that a new board time moves before 0 reads 0; the duration is true all the
same. -/
def summaryRecord (s : State) (total peak n : Nat) : MeterRec :=
  { inc := 0, epoch := s.clock.epoch, epochs := 1, kind := 3, cntlid := 0, tenant := 0, nsid := 0,
    flags := (if s.clock.estimated then 1 else 0) + (if s.clock.countsLost then 2 else 0) +
      (if s.clock.interrupted then 4 else 0) + (if s.clock.timeUnset then 16 else 0) +
      (if s.clock.throughWt then 32 else 0),
    bytesIn := s.clock.epochStart.toNat
    bytesOut := ((s.clock.boardTime : Int) - s.clock.epochStart).toNat % 2 ^ 32 + 2 ^ 32 * n,
    media := peak % 2 ^ 32, dieUs := 0, commands := 0, energy := total, qos := 0 }

/-- Records that match: of the same controller, not of another that had its ID (R124). -/
def sameRec (a b : MeterRec) : Bool := a.kind == b.kind && a.cntlid == b.cntlid && a.inc == b.inc && a.nsid == b.nsid

/-- One record merged into the matching one of the next epoch (R124). DESIGN CHOICE: the field epochs stays at 255, the end of its range, when
merging would take it further. -/
def mergeRec (a b : MeterRec) : MeterRec :=
  if a.kind == 3 then
    { b with epoch := a.epoch, epochs := sat 255 (a.epochs + b.epochs), flags := setBit (a.flags ||| b.flags) 3 true,
             bytesIn := a.bytesIn, bytesOut := (a.bytesOut % 2 ^ 32 + b.bytesOut % 2 ^ 32) +
               2 ^ 32 * (b.bytesOut / 2 ^ 32), media := max a.media b.media, energy := a.energy + b.energy }
  else
    { b with epoch := a.epoch, epochs := sat 255 (a.epochs + b.epochs), flags := setBit (a.flags ||| b.flags) 3 true,
             bytesIn := a.bytesIn + b.bytesIn, bytesOut := a.bytesOut + b.bytesOut, media := a.media + b.media,
             dieUs := a.dieUs + b.dieUs, commands := a.commands + b.commands, energy := a.energy + b.energy,
             qos := sat 0xFFFFFFFF (a.qos + b.qos) }

/-- Merges the oldest epoch into the next one: no count is lost (R124). -/
def mergeEpochs (a b : List MeterRec) : List MeterRec :=
  let body := (b.filter fun r => r.kind != 3).map fun r => match a.find? (sameRec r) with
    | some x => mergeRec x r
    | none => r
  let extra := (a.filter fun r => r.kind != 3 && !b.any (sameRec r)).map fun r =>
    { r with epochs := sat 255 (r.epochs + 1), flags := setBit r.flags 3 true }
  let all := body ++ extra
  let sums := (b.filter fun r => r.kind == 3).map fun r => match a.find? (sameRec r) with
    | some x => let m := mergeRec x r
                { m with bytesOut := m.bytesOut % 2 ^ 32 + 2 ^ 32 * all.length }
    | none => r
  all ++ sums

/-- Finished epochs held while the ring has no room: merged beyond hold_epochs or 768 MiB (R124). -/
def holdEpochs (limit : Nat) : Nat → List (List MeterRec) → List (List MeterRec)
  | 0, l => l
  | k + 1, l => match l with
    | a :: b :: rest =>
      if limit < l.length || 768 * 2 ^ 20 < 64 * (l.map List.length).sum then
        holdEpochs limit k (mergeEpochs a b :: rest)
      else l
    | l => l

/-- EPOCH_END (R119 to R125): at its boundary the running epoch is finished, its records are held for delivery, and the
next epoch begins, as its checkpoint has it (DESIGN CHOICE: R125 speaks of a checkpoint every 5 s). `energy` and `peak` are what ISENSE and VSENSE measured over the epoch. -/
def epochEnd (energy peak : Nat) (s : State) : State :=
  if s.clock.boardTime < s.clock.epochEnd then s
  else
    let rs := divideEnergy energy (s.gfld .glb_clock_cfg_overhead_mode == 1) (epochRecords s)
    let done := rs ++ [summaryRecord s energy peak rs.length]
    let kept := s.clock.held ++ [done]
    let held := holdEpochs (s.gfld .glb_clock_cfg_hold_epochs) kept.length kept
    let len := 1000 * max 1 (s.gfld .glb_clock_cfg_epoch_s)
    deliverMeter { s with clock := { s.clock with
      checkpoint := { epoch := (s.clock.epoch + 1) % 2 ^ 32, start := s.clock.boardTime, at_ := s.clock.boardTime, energy := 0,
                      peak := 0, meters := [] }
      held := held, merging := s.clock.merging || held.length < kept.length,
      epoch := (s.clock.epoch + 1) % 2 ^ 32, epochStart := s.clock.boardTime,
      epochEnd := (s.clock.boardTime / len + 1) * len,
      meters := [], estimated := s.power.isenseFault, throughWt := s.plp.writeThrough, countsLost := false,
      interrupted := false } }

def execEpochEnd (energy peak : Nat) (s : State) : Host.Outcome State Fault Refusal := .next (epochEnd energy peak s)

/-- METERING_CHECKPOINT (R125): the running epoch's counters go to the metering state in the map band. -/
def execMeteringCheckpoint (m : Measured) (s : State) : Host.Outcome State Fault Refusal :=
  .next { s with clock := { s.clock with
    checkpoint := { epoch := s.clock.epoch, start := s.clock.epochStart, at_ := s.clock.boardTime,
                    energy := m.energy, peak := m.peak, meters := s.clock.meters } } }

end Sys2Proof.Machine
end

