-- ==== Sys2Proof/Machine/StoreOps.lean ====
section
/-!
DEFINITION. Sys2Proof/Machine/StoreOps.lean: what the code flash keeps: records in page pairs, the config stores and the staging log
(R113, R439, R440, R453, R458, R462).
-/
namespace Sys2Proof.Machine
open Sys2Proof

/-! ### The die (R438, R442) -/

def updFw (f : FwState → FwState) (s : State) : State := { s with fw := f s.fw }
def updFlash (f : CodeFlash → CodeFlash) (s : State) : State := updFw (fun w => { w with flash := f w.flash }) s

/-- Counts an erase of each of `n` sectors. -/
def countErases (first n : Nat) (s : State) : State :=
  updFlash (fun c => { c with
    erases := (c.erases.filter fun e => e.1 < first || first + n ≤ e.1) ++ (List.range n).map fun i =>
      (first + i, sat 0xFFFF (((c.erases.find? fun e => e.1 == first + i).map (·.2)).getD 0 + 1)) }) s

/-- An access powers the die up (R442). -/
def flashAccess (s : State) : State := updFlash (fun c => { c with powered := true, idleMs := s.nowMs }) s

/-- The first sectors of the staging log and of the config stores (R439). -/
def logSector : Nat := 3
def storeSector (i : Nat) : Nat := 256 + 256 * i

/-! ### Records in page pairs (R440) -/

/-- Pages of 256 bytes in the pairs that a body and a trailer page fill. -/
def recordPages (n : Nat) : Nat := 2 * ceilDiv (ceilDiv n 256 + 1) 2

/-- A record as it is programmed: the body padded with 0xFF to whole pairs, and a trailer in its last page. DESIGN CHOICE: the trailer has
its last page to itself, and begins it. -/
def cfRecord (body : Bytes) : Bytes :=
  let front := body ++ List.replicate (256 * (recordPages body.length - 1) - body.length) 0xFF
  front ++ toLE 4 (crc32c front) ++ [0x5A] ++ List.replicate 251 0xFF

/-- A record that counts: its trailer reads back whole. -/
def cfWhole (b : Bytes) : Bool :=
  let n := b.length - 256
  b.length % 512 == 0 && 512 ≤ b.length && fieldAt b n 4 == crc32c (b.take n) && fieldAt b (n + 4) 1 == 0x5A

/-! ### The config stores (R107, R113, R314, R458, R462) -/

/-- A format's version in a manifest: 0 the config store's records, 1 the registry (R457). -/
def mfNum (m : Bytes) (at_ n : Nat) : Nat := ofLE ((m.drop at_).take n)
def mfFormat (m : Bytes) (i : Nat) : Nat := mfNum m (124 + 2 * i) 2
/-- The version of a store that an image writes. -/
def storeVersion (m : Bytes) : Nat := mfFormat m 0 + 65536 * mfFormat m 1

/-- What a record is about: its kind and the number of its subject. -/
def StoreItem.about : StoreItem → Nat × Nat
  | .header _ => (0, 0)
  | .ns n => (1, n.nsid)
  | .key n _ => (2, n)
  | .tenant t => (3, t.id)
  | .eg e => (4, e.id)
  | .provider _ => (5, 0)
  | .netif n => (6, n.tile * 65536 + n.port * 256 + n.index)
  | .anchors _ => (7, 0)
  | .sweep id _ _ _ => (8, id)
  | .gone k => k

/-- Records that hold a wrapped key are secret (R462). -/
def StoreItem.secret : StoreItem → Bool
  | .key _ _ => true
  | _ => false

/-- What the config store is to hold: the registry without what the device counts as it runs, with its sweeps (R223), and the anchor
blocks. -/
def storeItems (s : State) : List StoreItem :=
  (s.reg.nss.map fun n => .ns { n with wrapped := none, nuse := 0, newLimits := none }) ++
  (s.reg.nss.filterMap fun n => n.wrapped.map fun w => .key n.nsid w) ++
  s.reg.tenants.map .tenant ++
  (s.reg.egs.map fun e => .eg { e with slcBuffer := 0, slcClosed := false, idlePromo := false, stalemate := false }) ++
  (if s.reg.provider == .none then [] else [.provider s.reg.provider]) ++
  s.reg.netifs.map .netif ++
  (if s.rcl.anchors.isEmpty then [] else [.anchors s.rcl.anchors]) ++
  (s.rcl.sweeps.filter fun w => w.kept && w.state != 3).map fun w => .sweep w.id w.nsid w.eg w.ranges

/-- The pairs of a record. A sector has 128. -/
def pairsOf (version : Nat) (i : StoreItem) : Nat := min 128 (recordPages (Config.recordLen version i.about.1) / 2)

/-- The next erased sector of a ring of `n` after its newest. -/
def nextSector (n : Nat) (used : List Nat) : Nat :=
  let last := used.getLast?.getD (n - 1)
  (((List.range n).map fun i => (last + 1 + i) % n).find? fun x => !used.contains x).getD ((last + 1) % n)

/-- Programs a record at the head of a store. -/
def CfgStore.put (i : StoreItem) (st : CfgStore) : CfgStore :=
  let n := pairsOf st.version i
  let st1 := if st.used.isEmpty || 128 < st.fill + n then { st with used := st.used ++ [nextSector 256 st.used], fill := 0 } else st
  { st1 with
    fill := st1.fill + n
    recs := st1.recs ++ [{ sector := st1.used.getLast?.getD 0, pair := st1.fill, pairs := n, item := i, dead := false }] }

/-- Rewrites the live records of a sector at the head. The mark of a deletion goes with the last record of its key. -/
def CfgStore.clearSector (x : Nat) (st : CfgStore) : CfgStore :=
  let st1 := if st.used.getLast? == some x then { st with fill := 128 } else st
  let live := (st.recs.filter fun r => r.sector == x && !r.dead && match r.item with
    | .gone k => st.recs.any fun q => q.dead && q.sector != x && q.item.about == k
    | _ => true).map (·.item)
  let st2 := live.foldl (fun st i => st.put i) st1
  { st2 with used := st2.used.filter fun k => k != x, recs := st2.recs.filter fun r => r.sector != x }

/-- Compacts and erases a sector of store `k`. -/
def compactSector (k x : Nat) (s : State) : State :=
  countErases (storeSector k + x) 1
    (updFw (fun w => { w with stores := w.stores.modify k (CfgStore.clearSector x) }) s)

/-- Appends a record: an older one of its key is superseded; with fewer than 32 sectors erased the oldest is compacted; and every sector
that held a secret record now superseded is compacted and erased (R462). -/
def storeAppend (k : Nat) (i : StoreItem) (s : State) : State :=
  let add := fun (st : CfgStore) =>
    CfgStore.put i { st with recs := st.recs.map fun r => if r.item.about == i.about then { r with dead := true } else r }
  let s1 := updFw (fun w => { w with stores := w.stores.modify k add }) s
  let st := (s1.fw.stores[k]?).getD { on := false, version := 0, used := [], fill := 0, recs := [] }
  let s2 := if 224 < st.used.length then compactSector k (st.used.headD 0) s1 else s1
  let held := (((s2.fw.stores[k]?).map (·.recs)).getD []).filter fun r => r.dead && r.item.secret && r.item.about == i.about
  (held.map (·.sector)).eraseDups.foldl (fun s x => compactSector k x s) s2

/-- The records of a store that count, by key. -/
def storeLive (st : CfgStore) : List StoreItem := (st.recs.filter fun r => !r.dead).map (·.item)

/-- The records that bring a store up to what it is to hold. -/
def storeChanges (items : List StoreItem) (st : CfgStore) : List StoreItem :=
  let live := storeLive st
  (items.filter fun i => !live.contains i) ++
  (live.filter fun i => match i with
    | .header _ | .gone _ => false
    | i => !items.any fun j => j.about == i.about).map fun i => .gone i.about

/-- Writes the changes of what store `k` is to hold. -/
def storeWrite (k : Nat) (s : State) : State :=
  match s.fw.stores[k]? with
  | none => s
  | some st => if st.on then (storeChanges (storeItems s) st).foldl (fun s i => storeAppend k i s) s else s

/-- Every change goes to the store that is read, and to the other as well while both are written (R458). -/
def syncStores (s : State) : State :=
  let s1 := storeWrite s.fw.cur s
  if s.fw.dual then storeWrite (1 - s.fw.cur) s1 else s1

/-- Erases store `k` and writes the whole content there in a version (R457, R458). -/
def renewStore (k version : Nat) (s : State) : State :=
  let old := ((s.fw.stores[k]?).map (·.used)).getD []
  let s1 := old.foldl (fun s x => countErases (storeSector k + x) 1 s) s
  let new := CfgStore.put (.header version) { on := true, version := version, used := [], fill := 0, recs := [] }
  storeWrite k (updFw (fun w => { w with stores := w.stores.set k new }) s1)

/-- The store that an image finds: the one in its version; where there is none, it begins one (R458). DESIGN CHOICE: the one not read last,
where that holds a format, else store 0. -/
def openStore (m : Bytes) (s : State) : State :=
  let v := storeVersion m
  match (List.range 2).find? fun k => (s.fw.stores[k]?).any fun st => st.on && st.version == v with
  | some k => updFw (fun w => { w with cur := k }) s
  | none =>
    let k := if (s.fw.stores[s.fw.cur]?).any (·.on) then 1 - s.fw.cur else 0
    updFw (fun w => { w with cur := k }) (renewStore k v s)

/-- A live activation, or a start that activates, takes over the stores (R457, R458): where the version changes the other store is written
anew in the new one, and is read from then on. -/
def takeStores (m : Bytes) (s : State) : State :=
  if (s.fw.stores[s.fw.cur]?).any fun st => st.version == storeVersion m then s
  else
    let k := 1 - s.fw.cur
    updFw (fun w => { w with cur := k }) (renewStore k (storeVersion m) s)

/-! ### The staging log (R453) -/

/-- What a record adds to what the log says. -/
def LogKind.apply (k : LogKind) (l : StageLog) : StageLog :=
  match k with
  | .stageRestart => { stage := 0, pieces := 0, pending := false, activated := false, intent := false, installDone := false }
  | .manifestOk => { l with stage := 1, pieces := 1 }
  | .pieceOk i => { l with pieces := setBit l.pieces i true }
  | .activated => { l with stage := 3, pending := false, activated := true }
  | .pendingStart => { l with stage := 2, pending := true, activated := false }
  | .confirmIntent => { l with stage := 4, intent := true }
  | .installDone => { l with installDone := true }
  | .confirmed => { l with stage := 2, pending := false, activated := false, intent := false, installDone := false }
  | .snapshot x => x

def StageLog.empty : StageLog :=
  { stage := 0, pieces := 0, pending := false, activated := false, intent := false, installDone := false }

/-- What the log says: its newest snapshot and the records after it. -/
def logSays (l : List LogRec) : StageLog := l.foldl (fun x r => r.kind.apply x) StageLog.empty

/-- Appends a record of one pair. Where its sector is full the next begins with a snapshot, after which the oldest sector is erased. -/
def logAppend (k : LogKind) (s : State) : State :=
  let l := s.fw.log
  match l.getLast? with
  | none => flashAccess (updFw (fun w => { w with log := [{ sector := 0, pair := 0, kind := k }] }) s)
  | some r =>
    if r.pair < 127 then flashAccess (updFw (fun w => { w with log := l ++ [{ sector := r.sector, pair := r.pair + 1, kind := k }] }) s)
    else
      let x := (r.sector + 1) % 8
      let l1 := l ++ [{ sector := x, pair := 0, kind := .snapshot (logSays l) }, { sector := x, pair := 1, kind := k }]
      let old := (l.head?.map (·.sector)).getD 0
      let full := 8 ≤ ((l1.map (·.sector)).eraseDups).length
      let s1 := flashAccess (updFw (fun w => { w with log := if full then l1.filter fun r => r.sector != old else l1 }) s)
      if full then countErases (logSector + old) 1 s1 else s1

/-- The staging at a start, as the log says it is (R453): the pieces recorded are there. -/
def FwState.fromLog (f : FwState) : FwState :=
  let l := logSays f.log
  { f with
    stage := l.stage, pendingStart := l.pending, activated := l.activated, intent := l.intent, installDone := l.installDone
    staging := if l.stage == 0 then [] else f.staging.filter fun p => bitOf l.pieces p.1 }

end Sys2Proof.Machine
end

