-- ==== Sys2Proof/Machine/AdminOps.lean ====
section
/-!
DEFINITION. Sys2Proof/Machine/AdminOps.lean: how an admin command reaches the queue engine, the management cores or the
provider plane, and how it ends (R19, R53, R58, R59, R97, R100, R474, R476).
-/
namespace Sys2Proof.Machine
open Sys2Proof

/-- Where an admin command runs: in the queue engine, even during activation; on the management cores; or on the provider plane,
which runs its operations one at a time, and `registry` where it changes what the code flash keeps (R19, R53, R97, R100, R443). -/
inductive AdminKind | atOnce | queueEngine | management | provider | registry
deriving DecidableEq, Repr

def AdminKind.onPlane (k : AdminKind) : Bool := k == .provider || k == .registry

/-- The controller that issued an admin command, if a controller did. -/
def admCtrl (s : State) : Adm → Option Ctrl
  | .host id => (findCmd s id).bind fun c => findCtrl s c.cntlid
  | .ring | .conn _ => none

/-- Whether the issuer has provider rights (R58, R474: the ring has what the provider controller has). -/
def admProvider (s : State) : Adm → Bool
  | .host id => ((admCtrl s (.host id)).map (·.provider)).getD false
  | .ring => true
  | .conn _ => false

/-- Whether a command or descriptor of this name is waiting to run. -/
def admWaits (s : State) : Adm → Bool
  | .host id => match findCmd s id with
    | some c => isAdmin c.cap.op && c.phase == .running
    | none => false
  | .ring => s.board.running.isSome && !s.board.busy
  | .conn id => (findConn s id).isSome

/-- Ends an admin command or a ring command with a status and a Dword 0 (R69, R476). -/
def admDone (a : Adm) (st : Status) (dw0 : Nat) (s : State) : State :=
  match a with
  | .host id => finishCmd id st dw0 s
  | .ring => postResponse st dw0 s
  | .conn _ => s

/-- Returns data to the issuer, as fields (R15), unless the command was discarded. -/
def admReply (a : Adm) (d : List Field) (s : State) : State :=
  match a with
  | .host id => match findCmd s id with
    | some c => if c.discard then s else sendTo c.cntlid c.sqid (.reply c.cntlid c.cap.cid d) s
    | none => s
  | .ring => emit (.ringData d) s
  | .conn _ => s

/-- The data length that a ring descriptor of an admin command gives is the one the command needs (R64, R101, R474); a fetched command's was
checked at its fetch. -/
def ringLenOk (a : Adm) (n : Nat) (s : State) : Bool :=
  match a with
  | .ring => runLen s == n
  | _ => true

/-- Returns data and ends the command with success. -/
def admAnswer (a : Adm) (d : List Field) (s : State) : State := admDone a .success 0 (admReply a d s)

/-- Holds an admin command until activation, or the provider-plane operation before it, ends (R97, R100). One that had its turn before
keeps its place before those that came later. -/
def holdAdmin (a : Adm) (i : Instr) (s : State) : State :=
  let mine := fun (x : Adm × Instr) => s.cleared.contains x.1
  { s with heldAdmin :=
      if s.cleared.contains a then s.heldAdmin.filter mine ++ [(a, i)] ++ s.heldAdmin.filter (fun x => !mine x)
      else s.heldAdmin ++ [(a, i)] }

/-- Lets the held commands run in arrival order (R97, R100). -/
def releaseHeld (s : State) : State :=
  { s with released := s.released ++ s.heldAdmin, cleared := s.cleared ++ s.heldAdmin.map (·.1), heldAdmin := [] }

/-- A command that was held has run, or is gone: those that came after it follow (R100). -/
def passTurn (a : Adm) (s : State) : State :=
  if !s.cleared.contains a then s
  else
    let s1 := { s with cleared := s.cleared.filter fun x => x != a }
    if s1.prov.isNone && !s1.fw.activating then releaseHeld s1 else s1

/-- A provider-plane operation must wait: another runs, or one that came before it has still to run (R100). -/
def planeBusy (s : State) (a : Adm) : Bool := s.prov.isSome || (!s.released.isEmpty && !s.cleared.contains a)

/-- Runs an admin command: nothing where none of that name waits; held during activation unless it is answered at once
(R97); refused with Invalid Command Opcode where only the provider may send it (R53); held while another operation of
the provider plane runs or is due before it (R100); failed where it cannot become durable in a failed code flash (R443). -/
def runAdmin (k : AdminKind) (a : Adm) (i : Instr) (body : State → State) (s : State) : State :=
  if !admWaits s a then passTurn a s
  else if s.fw.activating && k != .atOnce then holdAdmin a i s
  else if k.onPlane && !admProvider s a then passTurn a (admDone a .invalidOpcode 0 s)
  else if k.onPlane && planeBusy s a then holdAdmin a i s
  else if k == .registry && s.fw.flash.failed then passTurn a (admDone a .internalError 0 s)
  else passTurn a (if k == .registry then syncStores (body s) else body s)

/-- Keeps an admin command waiting for a later step: it is no longer run by its row, and not yet ended. -/
def admPark (a : Adm) (s : State) : State :=
  match a with
  | .host id => updCmd id (fun c => { c with phase := .draining }) s
  | .ring => { s with board := { s.board with busy := true } }
  | .conn _ => s

/-- Leaves the descriptor that runs without a response to come: what it has started goes on for no issuer, and what of it is held is
dropped (R476, R481). -/
def abandonRing (s : State) : State :=
  { s with
    board := { s.board with running := none, busy := false, commit := { s.board.commit with fromRing := false } }
    heldAdmin := s.heldAdmin.filter fun x => x.1 != .ring
    released := s.released.filter fun x => x.1 != .ring
    cleared := s.cleared.filter fun x => x != .ring
    prov := s.prov.map fun p => if p.adm == .ring then { p with adm := .host 0 } else p }

/-- Ends the provider-plane operation that is running: what it changed is in the code flash, and the held commands run in arrival order
(R97, R100, R462). -/
def provEnd (s : State) : State := releaseHeld (syncStores { s with prov := none })

/-- Live activation ends without the new image: the command ends with a status and the held commands run (R457, R463). -/
def activationFails (st : Status) (s : State) : State :=
  let s1 := { s with fw := { s.fw with activating := false, actStep := 0, activated := false, stage := min s.fw.stage 2 } }
  match s1.prov with
  | some p => if p.kind == .firmware then provEnd (admDone p.adm st 0 s1) else s1
  | none => s1

/-- Whether a namespace is attached to a controller: to its tenant (R115). An attachment to tenant 0 is the provider controller's
alone, since an unnamed PCIe function has no namespace (R58, R105). -/
def attachedTo (s : State) (c : Ctrl) (n : Nat) : Bool :=
  (c.tenant != 0 || c.provider) && s.reg.nss.any fun x => x.nsid == n && x.attached.contains c.tenant

/-- The tenant that the provider controller belongs to, or would (R58): the one that names its identity, else 0. -/
def providerTenant (s : State) : Nat :=
  ((s.reg.tenants.find? fun t => match s.reg.provider, t.ident with
    | .nqn n _, .nqn m => n == m
    | .function e, .function f g => e == f && g == 0
    | _, _ => false).map (·.id)).getD 0

/-- A namespace that is attached to the issuer's tenant and not being deleted (R59, R111). -/
def visible (s : State) (a : Adm) (n : Nat) : Bool :=
  match s.reg.nss.find? (fun x => x.nsid == n) with
  | none => false
  | some x => x.state != .deleting && (match admCtrl s a with
    | some c => attachedTo s c n
    | none => x.attached.contains (providerTenant s))

end Sys2Proof.Machine
end

