-- ==== Sys2Proof/Machine/Inflate.lean ====
section
/-!
DEFINITION. Sys2Proof/Machine/Inflate.lean: the decompressor's decoder of RFC 1951 streams, as R339 bounds it.
-/
namespace Sys2Proof.Machine
open Sys2Proof

/-- The bits of a string, least significant bit of each byte first. -/
def bitsOfBytes (bs : Bytes) : List Bool := bs.flatMap fun b => (List.range 8).map fun i => bitOf b.toNat i

/-- How decoding stands: a block header is next; the final block has ended; the stream is rejected; the input has ended; the
output limit has been reached. -/
inductive InfState | header | ended | bad | input | full
deriving DecidableEq, Repr

/-- A decoder: the bits left and the output so far, last byte first, with its length. -/
structure Inf where
  bits  : List Bool
  out   : Bytes
  len   : Nat
  state : InfState
deriving DecidableEq, Repr

def Inf.fail (d : Inf) : Inf := { d with state := .bad }
def Inf.starve (d : Inf) : Inf := { d with state := .input }
def Inf.put (d : Inf) (b : Byte) : Inf := { d with out := b :: d.out, len := d.len + 1 }

/-- `n` bits as a number, least significant first; none when the input ends before. -/
def takeNum : Nat → List Bool → Option (Nat × List Bool)
  | 0, bs => some (0, bs)
  | _ + 1, [] => none
  | n + 1, b :: bs => (takeNum n bs).map fun r => (b2n b + 2 * r.1, r.2)

/-- A canonical Huffman code: the number of codes of each length from 1 to 15, and its symbols in code order. -/
structure Huff where
  counts : List Nat
  syms   : List Nat
deriving DecidableEq, Repr

/-- The code that a list of lengths gives, symbol by symbol. -/
def huffOf (lens : List Nat) : Huff :=
  { counts := (List.range 15).map fun l => lens.countP (· == l + 1)
    syms := (List.range 15).flatMap fun l => (lens.zipIdx.filter fun x => x.1 == l + 1).map (·.2) }

/-- The codes left over at the last length; none for an over-subscribed code. -/
def huffLeft (h : Huff) : Option Nat :=
  h.counts.foldl (fun left n => left.bind fun l => if 2 * l < n then none else some (2 * l - n)) (some 1)

/-- A code may be used (R339): complete; or with no code at all; or, where `dist`, a single code of length 1. -/
def huffOk (dist : Bool) (h : Huff) : Bool :=
  match huffLeft h with
  | none => false
  | some left => left == 0 || (dist && (h.syms.isEmpty || h.counts == 1 :: List.replicate 14 0))

/-- What decoding one symbol gives. -/
inductive Sym | sym (n : Nat) (rest : List Bool) | starve | none
deriving DecidableEq, Repr

/-- Decodes one symbol, trying one length after the other. -/
def decodeSym (syms : List Nat) : List Nat → Nat → Nat → Nat → List Bool → Sym
  | [], _, _, _, _ => .none
  | _ :: _, _, _, _, [] => .starve
  | n :: counts, code, first, index, b :: bs =>
    let code := code + b2n b
    if code < first + n then
      match syms[index + (code - first)]? with
      | some s => .sym s bs
      | Option.none => .none
    else decodeSym syms counts (2 * code) (2 * (first + n)) (index + n) bs

def Huff.decode (h : Huff) (bs : List Bool) : Sym := decodeSym h.syms h.counts 0 0 0 bs

def lenBase : List Nat :=
  [3, 4, 5, 6, 7, 8, 9, 10, 11, 13, 15, 17, 19, 23, 27, 31, 35, 43, 51, 59, 67, 83, 99, 115, 131, 163, 195, 227, 258]
def lenExtra : List Nat :=
  [0, 0, 0, 0, 0, 0, 0, 0, 1, 1, 1, 1, 2, 2, 2, 2, 3, 3, 3, 3, 4, 4, 4, 4, 5, 5, 5, 5, 0]
def distBase : List Nat :=
  [1, 2, 3, 4, 5, 7, 9, 13, 17, 25, 33, 49, 65, 97, 129, 193, 257, 385, 513, 769, 1025, 1537, 2049, 3073, 4097, 6145,
   8193, 12289, 16385, 24577]
def distExtra : List Nat :=
  [0, 0, 0, 0, 1, 1, 2, 2, 3, 3, 4, 4, 5, 5, 6, 6, 7, 7, 8, 8, 9, 9, 10, 10, 11, 11, 12, 12, 13, 13]

/-- Copies `n` bytes from `d` bytes back; the limit on output may stop it. -/
def copyBack (limit d : Nat) : Nat → Inf → Inf
  | 0, x => x
  | n + 1, x => if limit ≤ x.len then { x with state := .full } else copyBack limit d n (x.put (x.out.getD (d - 1) 0))

/-- The distance and the copy of a match of a length. -/
def matchOf (limit : Nat) (dist : Huff) (n : Nat) (x : Inf) : Inf :=
  match dist.decode x.bits with
  | .starve => x.starve
  | .none => x.fail
  | .sym s bs =>
    if 29 < s then x.fail
    else match takeNum (distExtra.getD s 0) bs with
      | none => x.starve
      | some (e, bs) =>
        let d := distBase.getD s 0 + e
        if x.len < d then x.fail else copyBack limit d n { x with bits := bs }

/-- The symbols of a Huffman-coded block up to its end (R339). The flag says whether the block has ended. -/
def inflateCodes (limit : Nat) (lit dist : Huff) : Nat → Inf → Inf × Bool
  | 0, x => (x.starve, false)
  | fuel + 1, x =>
    match lit.decode x.bits with
    | .starve => (x.starve, false)
    | .none => (x.fail, false)
    | .sym s bs =>
      if s < 256 then
        if limit ≤ x.len then ({ x with state := .full }, false)
        else inflateCodes limit lit dist fuel ({ x with bits := bs }.put (BitVec.ofNat 8 s))
      else if s == 256 then ({ x with bits := bs }, true)
      else if 285 < s then (x.fail, false)
      else match takeNum (lenExtra.getD (s - 257) 0) bs with
        | none => (x.starve, false)
        | some (e, bs) =>
          let y := matchOf limit dist (lenBase.getD (s - 257) 0 + e) { x with bits := bs }
          if y.state == .header then inflateCodes limit lit dist fuel y else (y, false)

/-- The bytes of a stored block. -/
def inflateStored (limit : Nat) : Nat → Inf → Inf × Bool
  | 0, x => (x, true)
  | n + 1, x => match takeNum 8 x.bits with
    | none => (x.starve, false)
    | some (b, bs) =>
      if limit ≤ x.len then ({ x with state := .full }, false)
      else inflateStored limit n ({ x with bits := bs }.put (BitVec.ofNat 8 b))

/-- The static codes. -/
def staticLit : Huff :=
  huffOf (List.replicate 144 8 ++ List.replicate 112 9 ++ List.replicate 24 7 ++ List.replicate 8 8)
def staticDist : Huff := huffOf (List.replicate 32 5)

/-- The order of the code-length code's lengths. -/
def clOrder : List Nat := [16, 17, 18, 0, 8, 7, 9, 6, 10, 5, 11, 4, 12, 3, 13, 2, 14, 1, 15]

def takeMany (w : Nat) : Nat → List Bool → Option (List Nat × List Bool)
  | 0, bs => some ([], bs)
  | n + 1, bs => (takeNum w bs).bind fun r => (takeMany w n r.2).map fun q => (r.1 :: q.1, q.2)

/-- What reading code lengths gives: the lengths, or that the input ended, or that the stream is rejected. -/
inductive Lens | lens (l : List Nat) (rest : List Bool) | starve | bad
deriving DecidableEq, Repr

/-- Reads `want` code lengths, kept last first. -/
def readLens (cl : Huff) (want : Nat) : Nat → List Nat → List Bool → Lens
  | 0, _, _ => .bad
  | fuel + 1, acc, bs =>
    if want < acc.length then .bad
    else if acc.length == want then .lens acc.reverse bs
    else match cl.decode bs with
      | .starve => .starve
      | .none => .bad
      | .sym s bs =>
        if s < 16 then readLens cl want fuel (s :: acc) bs
        else
          let width := if s == 16 then 2 else if s == 17 then 3 else 7
          match takeNum width bs with
          | none => .starve
          | some (k, bs) =>
            if s == 16 then
              match acc with
              | [] => .bad
              | p :: _ => readLens cl want fuel (List.replicate (3 + k) p ++ acc) bs
            else readLens cl want fuel (List.replicate ((if s == 17 then 3 else 11) + k) 0 ++ acc) bs

/-- The codes of a dynamic block. -/
inductive Codes | codes (lit dist : Huff) (rest : List Bool) | starve | bad
deriving DecidableEq, Repr

def readCodes (bs : List Bool) : Codes :=
  match takeNum 5 bs with
  | none => .starve
  | some (hlit, bs) => match takeNum 5 bs with
    | none => .starve
    | some (hdist, bs) => match takeNum 4 bs with
      | none => .starve
      | some (hclen, bs) => match takeMany 3 (hclen + 4) bs with
        | none => .starve
        | some (ls, bs) =>
          let cl := huffOf ((List.range 19).map fun s => (((clOrder.zip ls).find? fun x => x.1 == s).map (·.2)).getD 0)
          if !huffOk false cl then .bad
          else match readLens cl (hlit + 257 + (hdist + 1)) 321 [] bs with
            | .starve => .starve
            | .bad => .bad
            | .lens l bs =>
              let lit := huffOf (l.take (hlit + 257))
              let dist := huffOf (l.drop (hlit + 257))
              if huffOk false lit && huffOk true dist then .codes lit dist bs else .bad

/-- One block: its header and its content (R339). `total` is the bits of the whole input, for byte alignment. -/
def inflateBlock (limit total : Nat) (x : Inf) : Inf :=
  match takeNum 3 x.bits with
  | none => x.starve
  | some (hd, bs) =>
    let finish := fun (r : Inf × Bool) => if r.2 then { r.1 with state := if hd % 2 == 1 then .ended else .header } else r.1
    if hd / 2 == 0 then
      let bs := bs.drop ((8 - (total - bs.length) % 8) % 8)
      match takeNum 16 bs with
      | none => x.starve
      | some (len, bs) => match takeNum 16 bs with
        | none => x.starve
        | some (nlen, bs) =>
          if len + nlen != 65535 then x.fail else finish (inflateStored limit len { x with bits := bs })
    else if hd / 2 == 1 then finish (inflateCodes limit staticLit staticDist (bs.length + 1) { x with bits := bs })
    else if hd / 2 == 2 then
      match readCodes bs with
      | .starve => x.starve
      | .bad => x.fail
      | .codes lit dist bs => finish (inflateCodes limit lit dist (bs.length + 1) { x with bits := bs })
    else x.fail

/-- Blocks until the stream ends, is rejected, or runs out of input or of output. -/
def inflateBlocks (limit total : Nat) : Nat → Inf → Inf
  | 0, x => x.starve
  | fuel + 1, x => if x.state == .header then inflateBlocks limit total fuel (inflateBlock limit total x) else x

/-- Decodes a stream from its start, writing at most `limit` bytes. -/
def inflate (limit : Nat) (bs : Bytes) : Inf :=
  let bits := bitsOfBytes bs
  inflateBlocks limit bits.length (bits.length + 1) { bits := bits, out := [], len := 0, state := .header }

/-- Whole bytes of the input that decoding has read. -/
def Inf.used (x : Inf) (total : Nat) : Nat := ceilDiv (8 * total - x.bits.length) 8

end Sys2Proof.Machine
end

