-- ==== Sys2Proof/Machine/Crypto.lean ====
section
/-!
DEFINITION. Sys2Proof/Machine/Crypto.lean: AES-256 with key wrap and XTS (R353, R358), SHA-256, SHA-384 and HMAC (R362),
and ECDSA over P-384 (R366, R367).
-/
namespace Sys2Proof.Machine
open Sys2Proof

/-! ### AES-256 (R353, R358) -/

/-- Doubling in the field of AES, x^8 + x^4 + x^3 + x + 1. -/
def aesDouble (a : Byte) : Byte := if bitOf a.toNat 7 then (a <<< 1) ^^^ 0x1B else a <<< 1
def aesShift : Nat → Byte → Byte
  | 0, a => a
  | m + 1, a => aesDouble (aesShift m a)
def aesMul (a b : Byte) : Byte :=
  (List.range 8).foldl (fun acc i => if bitOf a.toNat i then acc ^^^ aesShift i b else acc) 0
/-- The inverse in the field, a^254. -/
def aesInv (a : Byte) : Byte :=
  let a2 := aesMul a a
  let a4 := aesMul a2 a2
  let a8 := aesMul a4 a4
  let a16 := aesMul a8 a8
  let a32 := aesMul a16 a16
  let a64 := aesMul a32 a32
  aesMul (aesMul a64 a64) (aesMul a64 (aesMul a32 (aesMul a16 (aesMul a8 (aesMul a4 a2)))))
def subByte (a : Byte) : Byte :=
  let b := aesInv a
  b ^^^ b.rotateLeft 1 ^^^ b.rotateLeft 2 ^^^ b.rotateLeft 3 ^^^ b.rotateLeft 4 ^^^ 0x63
def invSubByte (a : Byte) : Byte := aesInv (a.rotateLeft 1 ^^^ a.rotateLeft 3 ^^^ a.rotateLeft 6 ^^^ 0x05)

/-- The words of the expanded key: each from the word before it and the one eight before. `acc` holds them last first. -/
def expandKey : Nat → Nat → Byte → List Bytes → List Bytes
  | 0, _, _, acc => acc
  | n + 1, i, rcon, acc =>
    let prev := acc.headD []
    let old := acc.getD 7 []
    let t := if i % 8 == 0 then xorBytes ((prev.rotateLeft 1).map subByte) [rcon, 0, 0, 0]
      else if i % 8 == 4 then prev.map subByte else prev
    expandKey n (i + 1) (if i % 8 == 0 then aesDouble rcon else rcon) (xorBytes old t :: acc)

/-- The 15 round keys of a 32-byte key. -/
def roundKeys (key : Bytes) : List Bytes :=
  let first := (List.range 8).map fun i => (key.drop (4 * i)).take 4
  let ws := (expandKey 52 8 1 first.reverse).reverse
  (List.range 15).map fun r => ((ws.drop (4 * r)).take 4).flatten

/-- Moves byte `r + 4c` from column `c + k·r`. -/
def shiftRows (k : Nat) (b : Bytes) : Bytes :=
  (List.range 16).map fun i => b.getD ((i % 4) + 4 * ((i / 4 + k * (i % 4)) % 4)) 0

/-- Each column times a circulant matrix with this first row. -/
def mixColumns (m : List Byte) (b : Bytes) : Bytes :=
  (List.range 16).map fun i => (List.range 4).foldl (fun acc j =>
    acc ^^^ aesMul (m.getD ((j + 4 - i % 4) % 4) 0) (b.getD (4 * (i / 4) + j) 0)) 0

def aesRound (last : Bool) (b k : Bytes) : Bytes :=
  let c := shiftRows 1 (b.map subByte)
  xorBytes (if last then c else mixColumns [2, 3, 1, 1] c) k
def aesInvRound (last : Bool) (b k : Bytes) : Bytes :=
  let c := xorBytes ((shiftRows 3 b).map invSubByte) k
  if last then c else mixColumns [14, 11, 13, 9] c

def aesEncrypt (key b : Bytes) : Bytes :=
  let ks := roundKeys key
  let x := xorBytes b (ks.getD 0 [])
  aesRound true (((ks.drop 1).take 13).foldl (aesRound false) x) (ks.getD 14 [])
def aesDecrypt (key b : Bytes) : Bytes :=
  let ks := (roundKeys key).reverse
  let x := xorBytes b (ks.getD 0 [])
  aesInvRound true (((ks.drop 1).take 13).foldl (aesInvRound false) x) (ks.getD 14 [])

/-! ### AES key wrap (RFC 3394, R353) -/

/-- The 64-bit integrity value and the 64-bit registers, after one step of the unwrap. -/
def unwrapStep (key : Bytes) (n t : Nat) (x : Bytes × List Bytes) : Bytes × List Bytes :=
  let i := (t - 1) % n
  let a := xorBytes x.1 (toLE 8 t).reverse
  let b := aesDecrypt key (a ++ x.2.getD i [])
  (b.take 8, x.2.set i (b.drop 8))

/-- The key material of a wrapped key, or none where the initial value is wrong. -/
def keyUnwrap (key w : Bytes) : Option Bytes :=
  let n := w.length / 8 - 1
  let regs := (List.range n).map fun i => (w.drop (8 * i + 8)).take 8
  let out := ((List.range (6 * n)).reverse).foldl (fun x k => unwrapStep key n (k + 1) x) (w.take 8, regs)
  if out.1 == List.replicate 8 0xA6 then some out.2.flatten else none

/-! ### XTS (IEEE 1619, R358) -/

/-- The product with x in GF(2^128), least significant byte first. -/
def xtsDouble (t : Bytes) : Bytes :=
  let n := ofLE t * 2
  toLE 16 (if 2 ^ 128 ≤ n then Nat.xor (n - 2 ^ 128) 0x87 else n)

/-- The 16-byte blocks of a data unit under successive tweaks. -/
def xtsBlocks (f : Bytes → Bytes) : Nat → Bytes → Bytes → Bytes
  | 0, _, _ => []
  | n + 1, t, b => xorBytes (f (xorBytes (b.take 16) t)) t ++ xtsBlocks f n (xtsDouble t) (b.drop 16)

/-- The tweak of a data unit (R171, R358). -/
def xtsTweak (seq unit nsid : Nat) : Bytes := toLE 16 (seq % 2 ^ 48 + unit % 32 * 2 ^ 48 + nsid * 2 ^ 64)

/-- Data units of 4,096 bytes from unit `u` on. -/
def xtsUnits (enc : Bool) (k1 k2 : Bytes) (seq nsid : Nat) : Nat → Nat → Bytes → Bytes
  | 0, _, _ => []
  | n + 1, u, b =>
    let unit := b.take 4096
    xtsBlocks (if enc then aesEncrypt k1 else aesDecrypt k1) (unit.length / 16) (aesEncrypt k2 (xtsTweak seq u nsid)) unit ++
      xtsUnits enc k1 k2 seq nsid n (u + 1) (b.drop 4096)

/-! ### SHA-256, SHA-384 and HMAC (R362) -/

/-- The first primes, for the constants of FIPS 180-4. -/
def isPrime (n : Nat) : Bool := 2 ≤ n && (List.range n).all fun d => d < 2 || n % d != 0
def primes : List Nat := (List.range 410).filter isPrime
/-- The integer root of degree 2 or 3, bit by bit from `2^k`. -/
def rootFrom (deg n : Nat) : Nat → Nat → Nat
  | 0, r => r
  | k + 1, r => rootFrom deg n k (if (r + 2 ^ k) ^ deg ≤ n then r + 2 ^ k else r)
/-- The first `bits` bits of the fractional part of the root of a number. -/
def fracRoot (deg bits p : Nat) : Nat := rootFrom deg (p * 2 ^ (deg * bits)) (bits + 8) 0 % 2 ^ bits

def chFn {w : Nat} (x y z : BitVec w) : BitVec w := (x &&& y) ^^^ (~~~x &&& z)
def majFn {w : Nat} (x y z : BitVec w) : BitVec w := (x &&& y) ^^^ (x &&& z) ^^^ (y &&& z)

/-- The parameters of a hash of FIPS 180-4: rounds, rotations and constants. -/
structure Sha (w : Nat) where
  rounds : Nat
  big0   : Nat × Nat × Nat
  big1   : Nat × Nat × Nat
  small0 : Nat × Nat × Nat
  small1 : Nat × Nat × Nat
  ks     : List (BitVec w)
  init   : List (BitVec w)

def bigSigma {w : Nat} (r : Nat × Nat × Nat) (x : BitVec w) : BitVec w :=
  x.rotateRight r.1 ^^^ x.rotateRight r.2.1 ^^^ x.rotateRight r.2.2
def smallSigma {w : Nat} (r : Nat × Nat × Nat) (x : BitVec w) : BitVec w :=
  x.rotateRight r.1 ^^^ x.rotateRight r.2.1 ^^^ (x >>> r.2.2)

/-- The message schedule, last word first. -/
def schedule {w : Nat} (h : Sha w) : Nat → List (BitVec w) → List (BitVec w)
  | 0, ws => ws
  | n + 1, ws => schedule h n
      ((smallSigma h.small1 (ws.getD 1 0) + ws.getD 6 0 + smallSigma h.small0 (ws.getD 14 0) + ws.getD 15 0) :: ws)

/-- One round on the eight working variables. -/
def shaRound {w : Nat} (h : Sha w) (v : List (BitVec w)) (kw : BitVec w × BitVec w) : List (BitVec w) :=
  match v with
  | [a, b, c, d, e, f, g, hh] =>
    let t1 := hh + bigSigma h.big1 e + chFn e f g + kw.1 + kw.2
    let t2 := bigSigma h.big0 a + majFn a b c
    [t1 + t2, a, b, c, d + t1, e, f, g]
  | _ => v

/-- One block of 16 words. -/
def shaBlock {w : Nat} (h : Sha w) (v : List (BitVec w)) (b : Bytes) : List (BitVec w) :=
  let n := w / 8
  let ws := (List.range 16).map fun i => BitVec.ofNat w (ofLE ((b.drop (n * i)).take n).reverse)
  let sched := (schedule h (h.rounds - 16) ws.reverse).reverse
  List.zipWith (· + ·) v ((h.ks.zip sched).foldl (shaRound h) v)

def shaBlocks {w : Nat} (h : Sha w) : Nat → List (BitVec w) → Bytes → List (BitVec w)
  | 0, v, _ => v
  | n + 1, v, b => shaBlocks h n (shaBlock h v (b.take (2 * w))) (b.drop (2 * w))

/-- The padded message: a one bit, zeros, and the length in bits in the last two words. -/
def shaPad (w : Nat) (b : Bytes) : Bytes :=
  let block := 2 * w
  let len := w / 4
  let zeros := (block - (b.length + 1 + len) % block) % block
  b ++ [0x80] ++ zeroBytes zeros ++ (toLE len (8 * b.length)).reverse

def shaHash {w : Nat} (h : Sha w) (outLen : Nat) (b : Bytes) : Bytes :=
  let p := shaPad w b
  ((shaBlocks h (p.length / (2 * w)) h.init p).flatMap fun x => (toLE (w / 8) x.toNat).reverse).take outLen

def sha256Params : Sha 32 :=
  { rounds := 64, big0 := (2, 13, 22), big1 := (6, 11, 25), small0 := (7, 18, 3), small1 := (17, 19, 10),
    ks := (primes.take 64).map fun p => BitVec.ofNat 32 (fracRoot 3 32 p),
    init := (primes.take 8).map fun p => BitVec.ofNat 32 (fracRoot 2 32 p) }
def sha384Params : Sha 64 :=
  { rounds := 80, big0 := (28, 34, 39), big1 := (14, 18, 41), small0 := (1, 8, 7), small1 := (19, 61, 6),
    ks := (primes.take 80).map fun p => BitVec.ofNat 64 (fracRoot 3 64 p),
    init := ((primes.drop 8).take 8).map fun p => BitVec.ofNat 64 (fracRoot 2 64 p) }
def sha256 (b : Bytes) : Bytes := shaHash sha256Params 32 b
def sha384 (b : Bytes) : Bytes := shaHash sha384Params 48 b

/-- HMAC with a hash of a block size (FIPS 198-1). -/
def hmac (hash : Bytes → Bytes) (block : Nat) (key b : Bytes) : Bytes :=
  let k0 := if block < key.length then hash key else key
  let k := k0 ++ zeroBytes (block - k0.length)
  hash (k.map (· ^^^ 0x5C) ++ hash (k.map (· ^^^ 0x36) ++ b))
def hmac256 (key b : Bytes) : Bytes := hmac sha256 64 key b
def hmac384 (key b : Bytes) : Bytes := hmac sha384 128 key b

/-! ### ECDSA over P-384 (FIPS 186-5, R366, R367) -/

def p384P : Nat := 2 ^ 384 - 2 ^ 128 - 2 ^ 96 + 2 ^ 32 - 1
def p384N : Nat := 0xffffffffffffffffffffffffffffffffffffffffffffffffc7634d81f4372ddf581a0db248b0a77aecec196accc52973
def p384B : Nat := 0xb3312fa7e23ee7e4988e056be3f82d19181d9c6efe8141120314088f5013875ac656398d8a2ed19d2a85c8edd3ec2aef
def p384G : Nat × Nat :=
  (0xaa87ca22be8b05378eb1c71ef320ad746e1d3b628ba79b9859f741e082542a385502f25dbf55296c3a545e3872760ab7,
   0x3617de4a96262c6f5d9e98bf9292dc29f8f41dbd289a147ce9da3113b5f0b8c00a60b1ce1d7e819d7a431d7c90ea0e5f)

/-- b^e mod m, over the low `k` bits of the exponent. -/
def powMod (m b e : Nat) : Nat → Nat
  | 0 => 1 % m
  | k + 1 =>
    let r := powMod m b (e / 2) k
    if e % 2 == 1 then r * r % m * b % m else r * r % m
/-- The inverse modulo a prime. -/
def invMod (m a : Nat) : Nat := powMod m a (m - 2) 384
def subMod (m a b : Nat) : Nat := (a + (m - b % m)) % m

/-- The sum of two points; none is the point at infinity. -/
def ecAdd (a b : Option (Nat × Nat)) : Option (Nat × Nat) :=
  match a, b with
  | none, q => q
  | p, none => p
  | some (x1, y1), some (x2, y2) =>
    let p := p384P
    if x1 == x2 && (y1 + y2) % p == 0 then none
    else
      let l := if x1 == x2 then (3 * x1 * x1 + (p - 3)) % p * invMod p (2 * y1 % p) % p
        else subMod p y2 y1 * invMod p (subMod p x2 x1) % p
      let x3 := subMod p (l * l % p) (x1 + x2)
      some (x3, subMod p (l * subMod p x1 x3) y1)

/-- A multiple of a point, over the low `k` bits of the factor. -/
def ecMul (pt : Option (Nat × Nat)) (e : Nat) : Nat → Option (Nat × Nat)
  | 0 => none
  | k + 1 =>
    let r := ecMul pt (e / 2) k
    if e % 2 == 1 then ecAdd (ecAdd r r) pt else ecAdd r r

def ofBE (b : Bytes) : Nat := ofLE b.reverse

/-- A 97-byte public key names a point of P-384 other than the point at infinity (R366, R367). -/
def pointOf (key : Bytes) : Option (Nat × Nat) :=
  let x := ofBE ((key.drop 1).take 48)
  let y := ofBE ((key.drop 49).take 48)
  let p := p384P
  if key.length == 97 && key.headD 0 == 4 && x < p && y < p &&
      y * y % p == (x * x % p * x + (p - 3) * x + p384B) % p then some (x, y) else none

/-- The signature (r, s) verifies over a digest (R367, steps 3 and 4). -/
def ecdsaVerify (key sig digest : Bytes) : Bool :=
  let r := ofBE (sig.take 48)
  let t := ofBE ((sig.drop 48).take 48)
  let n := p384N
  match pointOf key with
  | none => false
  | some q =>
    if sig.length != 96 || r == 0 || n ≤ r || t == 0 || n ≤ t then false
    else
      let w := invMod n t
      let u1 := ofBE digest * w % n
      let u2 := r * w % n
      match ecAdd (ecMul (some p384G) u1 384) (ecMul (some q) u2 384) with
      | none => false
      | some (x, _) => x % n == r

end Sys2Proof.Machine
end

