-- ==== Sys2Proof/Machine/KeyOps.lean ====
section
/-!
DEFINITION. Sys2Proof/Machine/KeyOps.lean: the device keys, the key slots of every tile and their generations
(R114, R350 to R357).
-/
namespace Sys2Proof.Machine
open Sys2Proof

/-- ASCII of the labels of R352. -/
def devLabel : Bytes := [0x41, 0x51, 0x4B, 0x2D, 0x44, 0x45, 0x56, 0x4B, 0x45, 0x59]
def macLabel : Bytes := [0x41, 0x51, 0x4B, 0x2D, 0x4D, 0x41, 0x43, 0x4B, 0x45, 0x59]
/-- K_dev and K_mac (R352). -/
def kDev (s : State) : Bytes := (hmac384 s.ident.rootSecret (devLabel ++ s.ident.serial)).take 32
def kMac (s : State) : Bytes := (hmac384 s.ident.rootSecret (macLabel ++ s.ident.serial)).take 32

/-- The current generation of a namespace's key slot (R113, R114). -/
def slotGen (s : State) (n : Nat) : Nat := ((s.cry.gens.find? fun g => g.1 == n - 1).map (·.2)).getD 0
def setGenOf (n g : Nat) (s : State) : State :=
  { s with cry := { s.cry with gens := (s.cry.gens.filter fun x => x.1 != n - 1) ++ (if g == 0 then [] else [(n - 1, g)]) } }
/-- The generation advances by 1, modulo 16 (R114). -/
def advanceGen (n : Nat) (s : State) : State := setGenOf n ((slotGen s n + 1) % 16) s

def findKey (s : State) (t slot : Nat) : Option KeySlot := s.cry.slots.find? fun k => k.tile == t && k.slot == slot
def putKey (k : KeySlot) (s : State) : State :=
  { s with cry := { s.cry with slots := (s.cry.slots.filter fun x => !(x.tile == k.tile && x.slot == k.slot)) ++ [k] } }
/-- A tile's slot holds a key. -/
def keyLoaded (s : State) (t slot : Nat) : Bool := (findKey s t slot).any fun k => k.loaded && !k.zeroiseFail
/-- A namespace's key is loaded, on the management primary's tile as on every tile in service (R355). -/
def slotLoaded (s : State) (n : Nat) : Bool := keyLoaded s s.mgmt.primary (n - 1)

/-- The key material of a wrapped key that passes the checks of R353. -/
def keyMaterial (s : State) (w : Bytes) : Option (Bytes × Bytes) :=
  match keyUnwrap (kDev s) w with
  | none => none
  | some m =>
    let k1 := m.take 32
    let k2 := m.drop 32
    if w.length != 72 || k1 == k2 then none else some (k1, k2)

/-- Loads a tile's slot; a slot that failed its read-back is not loaded again before the next start (R357). -/
def loadKey (t n : Nat) (k : Bytes × Bytes) (s : State) : State :=
  if (findKey s t (n - 1)).any fun x => x.zeroiseFail then s
  else putKey { tile := t, slot := n - 1, key1 := k.1, key2 := k.2, loaded := true, zeroiseFail := false } s

/-- At a start every READY namespace's key is loaded again on every tile in service, from its wrapped key (R356). -/
def reloadKeys (s : State) : State :=
  let loads := (s.reg.nss.filter fun n => n.state == .ready).filterMap fun n =>
    (n.wrapped.bind (keyMaterial s)).map fun k => (n.nsid, k)
  let s1 := loads.foldl (fun s x => (upTiles s).foldl (fun s t => loadKey t x.1 x.2 s) s) s
  { s1 with cry := { s1.cry with reload := false } }

/-- Clears a namespace's slot on every tile and advances its generation (R114, R117, R357). -/
def clearKey (n : Nat) (s : State) : State :=
  advanceGen n { s with cry := { s.cry with slots := s.cry.slots.map fun k =>
    if k.slot == n - 1 then { k with key1 := zeroBytes 32, key2 := zeroBytes 32, loaded := false } else k } }

end Sys2Proof.Machine
end

