-- ==== Sys2Proof/Machine/ExtentOps.lean ====
section
/-!
DEFINITION. Sys2Proof/Machine/ExtentOps.lean: extents as they are stored: made from data, opened again, and packed into the units of a row
(R168 to R171, R178, R275).
-/
namespace Sys2Proof.Machine
open Sys2Proof

/-! ### Bodies (R168, R171, R343, R358) -/

/-- A body through the cipher of a tile, in data units from its start; as it is where the slot holds no key. -/
def cipherBody (s : State) (enc : Bool) (t n seq : Nat) (b : Bytes) : Bytes :=
  match findKey s t (n - 1) with
  | some k => xtsUnits enc k.key1 k.key2 seq n (ceilDiv b.length 4096) 0 b
  | none => b

/-- The body that a port tile makes of data: compressed where it is kept so, padded, encrypted (R168). -/
def storedBody (s : State) (t n seq : Nat) (compressed static : Bool) (d : Bytes) : Bytes :=
  cipherBody s true t n seq (padBody (if compressed then Config.deflate static true [] d else d))

/-- The data of an extent from its header and body: decrypted, decompressed, and checked against data_crc (R171, R343). -/
def openBody (s : State) (t : Nat) (h : XHdr) (body : Bytes) : Option Bytes :=
  if (findKey s t (h.nsid - 1)).isNone then none
  else
    let b := cipherBody s false t h.nsid h.seq body
    let d := if bitOf h.flags 0 then
        let x := inflate (4096 * h.nblk) b
        if x.state == .ended then x.out.reverse else []
      else b.take (4096 * h.nblk)
    if d.length == 4096 * h.nblk && crc32c d == h.crc then some d else none

/-- A new extent of a namespace that a tile makes of data (R166 to R172): `p` gives its first block, its blocks, its kind (1 compressed,
2 raw) and its stored length. It waits for a place in the stream of its work. -/
def freshExt (s : State) (t : Nat) (n : Ns) (p : Nat × Nat × Nat × Nat) (q : Nat) (d : Bytes) : Ext :=
  let comp := p.2.2.1 == 1
  { seq := q, nsid := n.nsid, slba := p.1, nblk := p.2.1, compressed := comp, raw := p.2.2.1 == 2
    static := comp && (n.compMode == 1 || Config.staticUsed [] d), len := p.2.2.2, keyGen := slotGen s n.nsid, crc := crc32c d
    plain := d, body := storedBody s t n.nsid q comp (n.compMode == 1) d, stream := .hostQlc, port := t, cmd := 0, src := none, mask := []
    stage := .toPlace, addr := 0, sg := 0, band := 0, row := 0, member := 0, inDram := false, mirrorTile := 0, mirrorHeld := false
    committed := false, replacing := false, parts := [], payer := Payer.device, acked := false }

/-- A copy of an extent in flash, byte for byte, that waits for a place (R170). -/
def FExt.copy (x : FExt) (st : Stream) (port : Nat) : Ext :=
  { seq := x.seq, nsid := x.nsid, slba := x.slba, nblk := x.nblk, compressed := x.compressed, raw := x.raw
    static := x.static, len := x.len, keyGen := x.keyGen, crc := x.crc, plain := x.plain, body := x.body, stream := st, port := port
    cmd := 0, src := some x.addr, mask := [], stage := .toPlace, addr := 0, sg := x.sg, band := 0, row := 0, member := 0, inDram := false
    mirrorTile := 0, mirrorHeld := false, committed := false, replacing := false, parts := [], payer := Payer.device, acked := false }

/-- An extent as it stands in flash once its row is programmed. -/
def Ext.inFlash (e : Ext) (lost : List Nat) : FExt :=
  { addr := e.addr, seq := e.seq, nsid := e.nsid, slba := e.slba, nblk := e.nblk, compressed := e.compressed, raw := e.raw
    static := e.static, len := e.len, keyGen := e.keyGen, crc := e.crc, plain := e.plain, body := e.body, sg := e.sg, band := e.band
    row := e.row, member := e.member, lost := lost }

/-! ### Units (R178, R275) -/

/-- A unit of `n` grains from its extents in the order of their grains: what they leave free is filled with pads (R178). -/
def packUnit (n : Nat) : Nat → List (Nat × Bytes) → Bytes
  | g, [] => if g < n then padExtent (n - g) else []
  | g, x :: xs =>
    (if g < x.1 then padExtent (x.1 - g) else []) ++ x.2 ++ packUnit n (max g x.1 + x.2.length / 256) xs

/-- The extents of a unit by a scan of its headers (R178): none where the chain breaks before the end, by a header that fails its check
or whose type is neither data nor pad (R275). -/
def chainUnit (u : Bytes) : Nat → Nat → Option (List (Nat × XHdr))
  | 0, _ => none
  | fuel + 1, g =>
    if u.length ≤ 256 * g then some []
    else
      let b := u.drop (256 * g)
      let h := XHdr.read b
      if !crcPasses 28 b || (h.kind != 1 && h.kind != 2) || h.len == 0 || u.length < 256 * (g + h.len) then none
      else (chainUnit u fuel (g + h.len)).map ((g, h) :: ·)

/-- The body of the extent at a grain of a unit. -/
def bodyAt (u : Bytes) (g : Nat) (h : XHdr) : Bytes := ((u.drop (256 * g + 32)).take (256 * h.len - 32))

/-- Whether the extent that a span leads to is this one (R135). -/
def XHdr.matches (h : XHdr) (n lba skip seqLo : Nat) : Bool :=
  h.nsid == n && h.slba + skip == lba && h.seq % 2 ^ 32 == seqLo

/-- A page of a unit as the payloads of its four codewords (R249). -/
def pagePayloads (u : Bytes) (page : Nat) : List Bytes := (List.range 4).map fun j => (u.drop (16384 * page + 4096 * j)).take 4096

/-- hdr_map of codeword `j` of a page (R250): the grains where an extent header, data or pad, begins. -/
def hdrMapOf (u : Bytes) (page j : Nat) : Nat :=
  (((chainUnit u (u.length + 1) 0).getD []).map fun x =>
    if x.1 / 16 == 4 * page + j then 2 ^ (x.1 % 16) else 0).sum

end Sys2Proof.Machine
end

