-- ==== Sys2Proof/Machine/EngineOps.lean ====
section
/-!
DEFINITION. Sys2Proof/Machine/EngineOps.lean: the order in which shared engines serve requests: H0, then H1 to H3 by the weights of
QE_CLASS_WEIGHT, then B1 to B6, then M (R84, R87).
-/
namespace Sys2Proof.Machine
open Sys2Proof

/-- The class that a descriptor's class byte names (R340, R359, R388). -/
def PClass.ofCode : Nat → PClass
  | 0 => .h0
  | 1 => .h1
  | 2 => .h2
  | 3 => .h3
  | 4 => .b1
  | 5 => .b2
  | 6 => .b3
  | 7 => .b4
  | 8 => .b5
  | 9 => .b6
  | _ => .m

/-- The weights of H1 to H3 on a tile (R84). -/
def classWeights (s : State) (t : Nat) : List Nat :=
  [s.tfld t .qe_class_weight_w_h1 + 1, s.tfld t .qe_class_weight_w_h2 + 1, s.tfld t .qe_class_weight_w_h3 + 1]

/-- Weighted round robin over classes H1 to H3: the first class that has work and turns left, else a new round; with the turns then
left. -/
def wrrPick (weights credit : List Nat) (has : PClass → Bool) : Option (PClass × List Nat) :=
  let cls := [PClass.h1, .h2, .h3]
  let pick := fun (cr : List Nat) => (cls.zipIdx.find? fun x => 0 < (cr[x.2]?).getD 0 && has x.1).map fun x =>
    (x.1, cr.set x.2 ((cr[x.2]?).getD 0 - 1))
  (pick credit).or (pick weights)

/-- The class served next, and the turns left (R87). -/
def classPick (weights credit : List Nat) (has : PClass → Bool) : Option (PClass × List Nat) :=
  if has .h0 then some (.h0, credit)
  else (wrrPick weights credit has).or
    (([PClass.b1, .b2, .b3, .b4, .b5, .b6, .m].find? has).map fun c => (c, credit))

/-! ### Requests that wait at an engine -/

def turnsAt (s : State) (t : Nat) (u : EngUnit) : List Nat :=
  ((s.eng.turns.find? fun x => x.tile == t && x.unit == u).map (·.credit)).getD []
def putTurns (t : Nat) (u : EngUnit) (cr : List Nat) (s : State) : State :=
  { s with eng := { s.eng with
      turns := (s.eng.turns.filter fun x => !(x.tile == t && x.unit == u)) ++ [{ tile := t, unit := u, credit := cr }] } }

/-- The requests of a tile's engine, oldest first. -/
def reqsAt (s : State) (t : Nat) (u : EngUnit) : List EngReq := s.eng.reqs.filter fun r => r.tile == t && r.unit == u

/-- A request joins its engine's queue. -/
def submit (t : Nat) (u : EngUnit) (c : PClass) (w : EngWork) (s : State) : State :=
  { s with eng := { s.eng with
      reqs := s.eng.reqs ++ [{ no := s.eng.next, tile := t, unit := u, cls := c, work := w }], next := s.eng.next + 1 } }

/-- A request leaves its engine's queue. -/
def dropReq (q : EngReq) (s : State) : State :=
  { s with eng := { s.eng with reqs := s.eng.reqs.filter fun r => !(r.tile == q.tile && r.unit == q.unit && r.no == q.no) } }

/-- Takes the request that an engine serves next, the oldest of its class among those that may go (R87). -/
def takeReq (t : Nat) (u : EngUnit) (may : EngReq → Bool) (s : State) : Option (EngReq × State) :=
  let rs := (reqsAt s t u).filter may
  match classPick (classWeights s t) (turnsAt s t u) fun c => rs.any fun r => r.cls == c with
  | none => none
  | some (c, cr) => (rs.find? fun r => r.cls == c).map fun r => (r, dropReq r (putTurns t u cr s))

/-- What a tile's engines hold goes with the tile. -/
def enginesGone (t : Nat) (s : State) : State :=
  { s with eng := { s.eng with
      reqs := s.eng.reqs.filter fun r => r.tile != t, turns := s.eng.turns.filter fun r => r.tile != t
      pipes := s.eng.pipes.filter fun p => p.tile != t } }

end Sys2Proof.Machine
end

