-- ==== Sys2Proof/Machine/HealthOps.lean ====
section
/-!
DEFINITION. Sys2Proof/Machine/HealthOps.lean: the condition that the device reports of itself: the composite temperature,
spares and wear of an endurance group, and the critical warning (R391, R496 to R498).
-/
namespace Sys2Proof.Machine
open Sys2Proof

/-! ### Temperature (R389 to R391) -/

/-- The plausible sensors of a tile: those that are not faulty and have a reading (R390). -/
def plausible (s : State) (t : Nat) : List (Sensor × Int) :=
  (s.therm.sensors.filter fun x => x.tile == t && !x.faulty).filterMap fun x => x.reading.map fun r => (x, r)
/-- The highest plausible reading of a tile, in 0.25 °C. -/
def hottest (s : State) (t : Nat) : Option Int := ((plausible s t).map (·.2)).max?
/-- The composite temperature: the highest plausible reading of the package (R391). A fenced tile's sensors are off (R405). -/
def composite (s : State) : Option Int := ((upTiles s).filterMap (hottest s)).max?
/-- The lowest warn_c and critical_c in service, reported as WCTEMP and CCTEMP (R391). -/
def wctemp (s : State) : Nat :=
  (((upTiles s).flatMap fun t => (List.range 9).map fun i => s.fld t i .thm_limits_warn_c).min?).getD 0
def cctemp (s : State) : Nat :=
  (((upTiles s).flatMap fun t => (List.range 9).map fun i => s.fld t i .thm_limits_critical_c).min?).getD 0
/-- A reading in kelvin, rounded down, as NVMe reports it. -/
def kelvin (r : Int) : Nat := (r / 4 + 273).toNat

/-! ### Endurance groups (R498) -/

def diesOfEg (s : State) (g : Eg) : List Nat :=
  (s.red.groups.filter fun x => g.groups.contains x.sg).flatMap (·.members)
/-- SPARE blocks of the group's dies now, and those made at first start. -/
def sparesNow (s : State) (g : Eg) : Nat :=
  (s.rcl.blocks.filter fun b => b.state == .spare && (diesOfEg s g).contains b.die).length
def sparesMade (s : State) (g : Eg) : Nat := ((s.health.sparesMade.find? fun x => x.1 == g.id).map (·.2)).getD 0
/-- Available Spare in percent, rounded down; its threshold is 10 (R498). -/
def availableSpare (s : State) (g : Eg) : Nat :=
  if sparesMade s g == 0 then 100 else min 100 (sparesNow s g * 100 / sparesMade s g)
def spareThreshold : Nat := 10

/-- Percentage Used: mean wear of the GOOD blocks of the data bands in whole cycles over rated_cycles, rounded up,
saturating at 255 (R498). Wear is held in 1/16 cycle (R212). -/
def percentUsed (s : State) (g : Eg) : Nat :=
  let ws := (s.rcl.blocks.filter fun b => b.state == .good && (diesOfEg s g).contains b.die).map (·.wear)
  if ws.isEmpty then 0
  else sat 255 (ceilDiv (100 * (ws.sum / ws.length / 16)) (max 1 g.rated))

/-- The worst state of an endurance group's stripe groups is EXPOSED or UNAVAILABLE. -/
def egAtRisk (s : State) (g : Eg) : Bool :=
  s.red.groups.any fun x => g.groups.contains x.sg && (x.state == .exposed || x.state == .unavailable)

/-- The critical warning of an endurance group: bits 0, 2 and 3 (R498). -/
def egWarning (s : State) (g : Eg) : Nat :=
  b2n (decide (availableSpare s g < spareThreshold)) + 4 * b2n (egAtRisk s g) + 8 * b2n g.stalemate

/-- The critical warning (R497). -/
def critWarning (s : State) : Nat :=
  b2n (s.reg.egs.any fun g => decide (availableSpare s g < spareThreshold)) +
  2 * b2n ((composite s).any fun r => decide ((4 * wctemp s : Int) ≤ r)) +
  4 * b2n (s.red.groups.any (fun x => x.state == .exposed || x.state == .unavailable) || !s.island.fenced.isEmpty ||
    s.fw.flash.failed || s.health.lostUnread) +
  8 * b2n (s.reg.egs.any (·.stalemate)) +
  16 * b2n (s.plp.writeThrough && s.plp.failed)

/-- A change of the critical warning raises a SMART / Health event on each controller, and the status vector (R472, R497). -/
def smartRefresh (s : State) : State :=
  let c := critWarning s
  if c == s.health.crit then s
  else emit (.ringIrq 3) (((s.host.ctrls.filter fun c => !c.discovery).map (·.cntlid)).foldl (fun s id => raiseAen id 1 0 s)
    { s with health := { s.health with crit := c } })

end Sys2Proof.Machine
end

