-- ==== Sys2Proof/Machine/GroupOps.lean ====
section
/-!
DEFINITION. Sys2Proof/Machine/GroupOps.lean: addresses (R8, R9), the NAND descriptor (R230), stripe groups, their
formation and leaders, the stripe journal and lost ranges (R196, R263 to R266, R278 to R280, R288 to R294).
-/
namespace Sys2Proof.Machine
open Sys2Proof

/-! ### Addresses (R7 to R9) -/

def dieOf (a : Nat) : Nat := bitsOf a 45 32
def blockOf (a : Nat) : Nat := bitsOf a 31 18
def pageOf (a : Nat) : Nat := bitsOf a 17 6
def grainOf (a : Nat) : Nat := bitsOf a 5 0
def grainAddr (die blk page g : Nat) : Nat := die * 2 ^ 32 + blk * 2 ^ 18 + page * 2 ^ 6 + g
def dieIndex (c v l : Nat) : Nat := c * 256 + v * 8 + l
def chanOfDie (d : Nat) : Nat := d / 256
/-- The tile that owns a die's channel (R7). -/
def tileOfDie (d : Nat) : Nat := chanOfDie d / 8

/-! ### The NAND descriptor (R230) -/

def descWord (s : State) (t w : Nat) : Nat := s.fld t w .med_desc_data_data
/-- Byte `i` of a tile's descriptor. -/
def descByte (s : State) (t i : Nat) : Nat := descWord s t (i / 4) / 256 ^ (i % 4) % 256
def descHalf (s : State) (t i : Nat) : Nat := descByte s t i + 256 * descByte s t (i + 1)
def planesOf (s : State) : Nat := descByte s 0 2
def programOrder (s : State) : Nat := descByte s 0 3
def lunsPerVol (s : State) : Nat := descByte s 0 4
def blocksPerLun (s : State) : Nat := descHalf s 0 8
def wordLines (s : State) : Nat := descHalf s 0 10
/-- Rows of a band: one word line each (R173, R241). -/
def rowsPerBand (s : State) : Nat := wordLines s

/-- The rate of a rate code in MT/s (R235). -/
def rateMts (code : Nat) : Nat := [0, 800, 1600, 2400, 3200, 3600, 4800, 6400, 7200].getD code 0

/-- The time in µs in which a die's channel moves codewords of 4,608 bytes at its present rate (R40, R235). -/
def transferUs (s : State) (d words : Nat) : Nat :=
  match s.media.chans.find? fun c => c.ch == chanOfDie d with
  | some c => if c.rate == 0 then 0 else ceilDiv (words * 4608) (rateMts c.rate)
  | none => 0

/-- The codewords that hold `len` grains from an address on (R174). -/
def wordsOf (addr len : Nat) : Nat := ceilDiv (addr % 16 + len) 16

/-- The checks of the descriptor at med_enable (R230). -/
def descOk (s : State) (t : Nat) : Bool :=
  let b := descByte s t
  let h := descHalf s t
  let within := fun lo hi v => decide (lo ≤ v) && decide (v ≤ hi)
  b 0 == 1 && within 0 1 (b 1) && within 4 8 (b 2) && within 0 2 (b 3) && within 1 8 (b 4) && within 1 8 (b 5) &&
  (b 5 ≤ 5 || b 6 != 0) && within 1 16384 (h 8) && within 1 256 (h 10) && decide (4 * b 2 * h 10 ≤ 4096) &&
  [12, 14, 16, 18, 20, 22].all (fun i => within 1 65535 (h i)) && within 1 31 (b 25) && within 0 16 (b 26)

def descSame (s : State) (t : Nat) : Bool := (List.range 128).all fun w => descWord s t w == descWord s 0 w

/-! ### Groups (R263 to R266) -/

def findGroup (s : State) (sg : Nat) : Option Group := s.red.groups.find? fun g => g.sg == sg
def updGroup (sg : Nat) (f : Group → Group) (s : State) : State :=
  { s with red := { s.red with groups := s.red.groups.map fun g => if g.sg == sg then f g else g } }

/-- Data units of a row: 14, or 6 in the AQK-4032 tile-safe geometry (R173). -/
def dataUnits (s : State) (sg : Nat) : Nat := ((findGroup s sg).map fun g => g.members.length - 2).getD 14

def memberDie (s : State) (sg m : Nat) : Nat := ((findGroup s sg).bind fun g => g.members[m]?).getD 0xFFFF

def dieFailed (s : State) (d : Nat) : Bool := s.media.dies.any fun x => x.die == d && x.failed
def dieServes (s : State) (d : Nat) : Bool :=
  tileUp s (tileOfDie d) && s.media.dies.any fun x => x.die == d && !x.failed

/-- The row leader's tile (R176, R291): that of m0, or of the lowest-numbered member in service. -/
def leaderTile (s : State) (sg : Nat) : Nat :=
  match findGroup s sg with
  | none => 0
  | some g => match g.members.find? (dieServes s) with
    | some d => tileOfDie d
    | none => tileOfDie (g.members.headD 0)

/-- Another group for the re-placement of a failed row (R185): the lowest-numbered other one of the endurance group. -/
def otherGroup (s : State) (sg : Nat) : Nat :=
  match s.reg.egs.find? (fun e => e.groups.contains sg) with
  | none => sg
  | some e => (e.groups.find? fun g => g != sg).getD sg

/-- Takes the first `n` channels in the order of most unassigned dies, ties to the lower channel (R266). -/
def mostDies (chs : List (Nat × List Nat)) : List (Nat × List Nat) :=
  (chs.filter fun c => !c.2.isEmpty).mergeSort fun a b =>
    decide (b.2.length < a.2.length) || (a.2.length == b.2.length && decide (a.1 ≤ b.1))

/-- Takes the lowest-indexed unassigned die of a channel (R266). -/
def takeDie (ch : Nat) (chs : List (Nat × List Nat)) : List (Nat × List Nat) :=
  chs.map fun c => if c.1 == ch then (c.1, c.2.tail) else c

def newGroup (g : Nat) (safe : Bool) (ms : List Nat) : Group :=
  { sg := g, tileSafe := safe, members := ms, state := .optimal, lost := [], healed := 0 }

/-- The two channels of each tile that a TILE_SAFE group takes, the lower first (R264, R266). -/
def tilePicks (tiles : List Nat) (chs : List (Nat × List Nat)) : Option (List (Nat × List (Nat × List Nat))) :=
  tiles.mapM fun t =>
    let two := (mostDies (chs.filter fun c => c.1 / 8 == t)).take 2
    if two.length < 2 then none else some (t, two.mergeSort fun a b => decide (a.1 ≤ b.1))

/-- The members of a TILE_SAFE group in the order of R264. -/
def tileMembers (g : Nat) (tiles : List Nat) (picks : List (Nat × List (Nat × List Nat))) : List Nat :=
  (List.range tiles.length).flatMap fun k =>
    let t := (tiles[(k + g) % tiles.length]?).getD 0
    ((picks.find? fun p => p.1 == t).map fun p => p.2.map fun c => c.2.headD 0).getD []

/-- Forms the TILE_SAFE groups, up to a number (R266). -/
def formTileSafe (tiles : List Nat) : Nat → Nat → List (Nat × List Nat) → List Group × List (Nat × List Nat)
  | 0, _, chs => ([], chs)
  | k + 1, g, chs => match tilePicks tiles chs with
    | none => ([], chs)
    | some picks =>
      let used := picks.flatMap fun p => p.2.map (·.1)
      let rest := formTileSafe tiles k (g + 1) (used.foldl (fun c ch => takeDie ch c) chs)
      (newGroup g true (tileMembers g tiles picks) :: rest.1, rest.2)

/-- Forms the DIE_SAFE groups (R266). -/
def formDieSafe : Nat → Nat → List (Nat × List Nat) → List Group
  | 0, _, _ => []
  | k + 1, g, chs =>
    let picks := (mostDies chs).take 16
    if picks.length < 16 then []
    else newGroup g false ((picks.map fun c => c.2.headD 0).mergeSort fun a b => decide (a ≤ b)) ::
      formDieSafe k (g + 1) (picks.foldl (fun c p => takeDie p.1 c) chs)

/-- Stripe groups as they are formed at first start (R266): at most 1,024. A TILE_SAFE group takes two dies of every tile of the part, so
that a part that lacks a tile forms none (R444). -/
def formGroups (s : State) (dies : List Nat) : List Group :=
  let tiles := List.range s.ident.part.tiles
  let chs := (List.range (8 * s.ident.part.tiles)).map fun c => (c, dies.filter fun d => chanOfDie d == c)
  let want := if s.ident.part == .aqk2016 then 0 else min 1024 (s.tfld s.mgmt.primary .red_cfg_tile_safe_groups)
  let safe := formTileSafe tiles want 0 chs
  safe.1 ++ formDieSafe (1024 - safe.1.length) safe.1.length safe.2

/-! ### The stripe journal (R196, R290 to R292) -/

def findSj (s : State) (sg : Nat) : Sj :=
  (s.red.sjs.find? fun j => j.sg == sg).getD
    { sg := sg, tail := [], flash := [], soloUntil := 0, copiesLost := [] }
def putSj (j : Sj) (s : State) : State :=
  { s with red := { s.red with sjs := (s.red.sjs.filter fun k => !(k.sg == j.sg)) ++ [j] } }

/-- Writes the tail as a segment in three copies; its entries are released (R292). -/
def sjFlush (j : Sj) : Sj := { j with flash := j.flash ++ j.tail, tail := [] }

/-- Appends an entry: a tail of 512 entries, or one without a mirror, is written at once (R291, R292). -/
def sjAppend (sg : Nat) (e : SjEntry) (s : State) : State :=
  let j := findSj s sg
  let j1 := { j with tail := j.tail ++ [{ e with minutes := s.island.minutes }] }
  putSj (if 512 ≤ j1.tail.length || s.nowMs < j1.soloUntil then sjFlush j1 else j1) s

def sjBlank (kind : Nat) : SjEntry :=
  { kind := kind, band := 0xFFFF, member := 0xFF, die := 0xFFFF, block := 0xFFFF, old := 0xFFFF, seq := 0, row := 0,
    state := 0, mask := 0, fpP := 0, fpQ := 0, minutes := 0 }

/-- A band record of R196. -/
def bandRecord (kind : Nat) (b : Band) (m old new : Nat) (s : State) : State :=
  sjAppend b.sg { sjBlank kind with band := b.idx, member := m, block := new, old := old, seq := b.seq, state := b2n (!b.slc) } s

/-- The band records of a band are durable (R196, R205): in normal mode at once, in write-through mode once the tail that held them is in
flash. -/
def recordsDurable (s : State) (sg b : Nat) : Bool :=
  !s.plp.writeThrough || !(findSj s sg).tail.any fun e => e.kind ≤ 8 && e.band == b

/-- The erase intent of a band as it stands is recorded. -/
def intentRecorded (s : State) (b : Band) : Bool :=
  let j := findSj s b.sg
  (j.flash ++ j.tail).any fun e => e.kind == 4 && e.band == b.idx && e.seq == b.seq

/-- A ROW_STATE entry (R290): 0 CLOSED, 1 PROGRAMMING, 2 PROGRAMMED. -/
def rowRecord (r : Row) (st fpP fpQ : Nat) (s : State) : State :=
  sjAppend r.sg { sjBlank 0x15 with
    band := r.band, row := r.idx, state := st, mask := (r.done.map fun m => 2 ^ m).sum, fpP := fpP, fpQ := fpQ } s

/-- The record of a row that reaches PROGRAMMED (R178, R290). -/
def reportRow (r : Row) (s : State) : State := rowRecord r 2 (crc64 r.pBytes) (crc64 r.qBytes) s

/-! ### Lost ranges and lost regions (R202, R272, R288, R289) -/

/-- Runs of consecutive numbers of a rising list. -/
def runsOf : List Nat → List (Nat × Nat)
  | [] => []
  | x :: xs => match runsOf xs with
    | [] => [(x, 1)]
    | (a, k) :: rest => if x + 1 == a then (x, k + 1) :: rest else (x, 1) :: (a, k) :: rest

/-- Enters runs of lost blocks of one region in the log, newest last, at most 65,536 kept, and sets critical warning
bit 2 (R288, R497). -/
def enterLost (cause sg n die : Nat) (rs : List (Nat × Nat)) (s : State) : State :=
  rs.foldl (fun s r =>
    let e : LostRange := { cause := cause, sg := sg, nsid := n, lba := r.1, count := r.2, die := die,
                           minutes := s.island.minutes, seq := s.red.lostTotal + 1 }
    let all := s.red.lost ++ [e]
    smartRefresh { s with
      red := { s.red with lost := all.drop (all.length - 65536), lostTotal := s.red.lostTotal + 1 }
      health := { s.health with lostUnread := true } }) s

/-- The still-mapped blocks of an extent that is not copied enter the log with cause RELOCATE_LOST, or PARITY_UNRESOLVED where its band is
relocated for a mismatch that names no member (R202, R274). -/
def loseBlocks (e : FExt) (mask : List Nat) (s : State) : State :=
  enterLost (if s.red.unresolved.contains (e.sg, e.band) then 3 else 2) e.sg e.nsid (dieOf e.addr) ((runsOf mask).map fun r => (e.slba + r.1, r.2)) s

/-- I/O of an endurance group's namespaces fails while a stripe group of it is UNAVAILABLE (R280). -/
def egUnavailable (s : State) (eg : Nat) : Bool :=
  match s.reg.egs.find? (fun e => e.id == eg) with
  | none => false
  | some e => e.groups.any fun sg => s.red.groups.any fun g => g.sg == sg && g.state == .unavailable

/-! ### Member loss (R278 to R280) -/

/-- Lost members of a band: those without a completed substitute (R279). -/
def bandLost (s : State) (g : Group) (b : Band) : List Nat :=
  (g.lost.map (·.1)).filter fun m => !s.red.substs.any fun x =>
    x.sg == g.sg && x.band == b.idx && x.member == m && x.done

/-- Bands that hold or may hold data. -/
def inUse (b : Band) : Bool := b.state != .free && b.state != .retired

def worstLost (s : State) (g : Group) : Nat :=
  (((s.rcl.bands.filter fun b => b.sg == g.sg && inUse b).map fun b => (bandLost s g b).length).max?).getD
    (g.lost.length)

/-- The state a group's lost members give (R279). -/
def groupStateFor (s : State) (g : Group) : GroupState :=
  let w := worstLost s g
  if w == 0 then .optimal
  else if w == 1 then .degraded
  else if 3 ≤ w && g.lost.any (fun l => l.2 == 1) then .unavailable
  else .exposed

def setGroupState (sg : Nat) (s : State) : State :=
  match findGroup s sg with
  | none => s
  | some g =>
    let n := groupStateFor s g
    let s1 := smartRefresh <| updGroup sg (fun g => { g with
                                             state := n, lost := if n == .optimal then [] else g.lost,
                                             healed := if n == .optimal then 0 else g.healed }) s
    if g.state == n then s1
    else if n == .exposed && g.state != .exposed then logEv .groupExposed (leaderTile s sg) [sg] s1
    else if n == .optimal && g.state != .optimal then logEv .rebuildDone (leaderTile s sg) [sg] s1
    else s1

end Sys2Proof.Machine
end

