-- ==== Sys2Proof/Machine/MediaOps.lean ====
section
/-!
DEFINITION. Sys2Proof/Machine/MediaOps.lean: the operations of the dies and their scheduler, suspension, and the reads,
programs and erases that other units ask for (R84 to R86, R190, R242, R243, R246, R247, R254).
-/
namespace Sys2Proof.Machine
open Sys2Proof

/-! ### Dies, channels and operations -/

def findDie (s : State) (d : Nat) : Option Die := s.media.dies.find? fun x => x.die == d
def updDie (d : Nat) (f : Die → Die) (s : State) : State :=
  { s with media := { s.media with dies := s.media.dies.map fun x => if x.die == d then f x else x } }
def findChan (s : State) (c : Nat) : Option Chan := s.media.chans.find? fun x => x.ch == c
def updChan (c : Nat) (f : Chan → Chan) (s : State) : State :=
  { s with media := { s.media with chans := s.media.chans.map fun x => if x.ch == c then f x else x } }
def findOp (s : State) (o : Nat) : Option DieOp := s.media.ops.find? fun x => x.id == o
def updOp (o : Nat) (f : DieOp → DieOp) (s : State) : State :=
  { s with media := { s.media with ops := s.media.ops.map fun x => if x.id == o then f x else x } }
def dropOp (o : Nat) (s : State) : State :=
  { s with media := { s.media with ops := s.media.ops.filter fun x => x.id != o } }

def hostCls : PClass → Bool
  | .h0 | .h1 | .h2 | .h3 => true
  | _ => false

/-- Whether an operation is on blocks in SLC use: those of an SLC band, of the map band and of the event band (R149, R173, R426). -/
def slcOp (s : State) (o : DieOp) : Bool :=
  match o.use with
  | .mapFetch _ _ | .dirLoad _ _ _ | .mapWrite _ _ _ | .archive => true
  | _ => (s.rcl.bands.find? fun b => b.sg == o.sg && b.idx == o.band).any fun b => b.slc || b.mapBand

/-- The time of an operation in µs, from command to ready plus its transfers (R120, R230); tprog_qlc_us is that of all passes. DESIGN
CHOICE: the passes of a word line take equal parts of it. -/
def opTime (s : State) (o : DieOp) : Nat :=
  let slc := slcOp s o
  let array := match o.kind with
    | .read => if slc then descHalf s 0 12 else descHalf s 0 14
    | .program => if slc then descHalf s 0 16 else if programOrder s == 0 then descHalf s 0 18 else descHalf s 0 18 / 2
    | .erase => descHalf s 0 20
  array + transferUs s o.die o.words

/-! ### The scheduler (R39, R84 to R86, R246) -/

/-- Whether an operation may run while another is suspended, and so may suspend one: a read of class H0, or one of H1 to
H3 that has waited (R86, R246). -/
def maySuspend (o : DieOp) : Bool := o.kind == .read && (o.cls == .h0 || (hostCls o.cls && o.waited))

def opsOf (s : State) (d : Nat) : List DieOp := s.media.ops.filter fun o => o.die == d
def waitingOps (s : State) (d : Nat) : List DieOp := (opsOf s d).filter fun o => o.state == .waiting

/-- Die time of the operations of a class test in the last `ms` milliseconds. -/
def dieTime (s : State) (x : Die) (ms : Nat) (p : PClass → Bool) : Nat :=
  ((x.hist.filter fun h => s.nowMs < h.1 + ms && p h.2.1).map fun h => h.2.2).sum

/-- The group of a die. -/
def groupOfDie (s : State) (d : Nat) : Option Group := s.red.groups.find? fun g => g.members.contains d

/-- Rebuild below its floor in the current 100 ms (R39). -/
def rebuildBelowFloor (s : State) (x : Die) : Bool :=
  match groupOfDie s x.die with
  | none => false
  | some g => g.state != .optimal &&
      decide (dieTime s x 100 (· == .b4) < 1000 * s.tfld (leaderTile s g.sg) .red_rebuild_rebuild_floor_pct)

/-- The background side is further below its target than the host side (R85): bg_base, or the reclaim demand if higher,
and never more than bg_max. DESIGN CHOICE: the host side goes first when both are equally far below theirs, as with an empty
history. -/
def bgFirst (s : State) (x : Die) (demand : Nat → Nat) : Bool :=
  let t := tileOfDie x.die
  let want := ((groupOfDie s x.die).map fun g => demand g.sg).getD 0
  let bg := min (s.tfld t .qe_die_share_bg_max) (max (s.tfld t .qe_die_share_bg_base) want)
  let host := dieTime s x 10 hostCls
  let back := dieTime s x 10 fun c => !hostCls c && c != .m
  let all := host + back
  decide ((100 - bg : Int) * all - 100 * host < (bg : Int) * all - 100 * back)

/-- The next of the host operations by weighted round robin over H1, H2 and H3 (R84). -/
def nextHost (s : State) (x : Die) (ws : List DieOp) : Option (DieOp × Die) :=
  (wrrPick (classWeights s (tileOfDie x.die)) x.wrr fun c => ws.any fun o => o.cls == c).bind fun y =>
    (ws.find? fun o => o.cls == y.1).map fun o => (o, { x with wrr := y.2 })

/-- The next background operation, in the order B1 to B6 (R84). -/
def nextBg (ws : List DieOp) : Option DieOp :=
  ([PClass.b1, .b2, .b3, .b4, .b5, .b6].filterMap fun c => ws.find? fun o => o.cls == c).head?

/-- Work that takes only die time that no other class claims: promotion of a group whose SLC buffer is not above promote_start_pct (R189),
and idle reclaim (R210). -/
def idleOnly (s : State) (o : DieOp) : Bool :=
  (o.cls == .b2 && s.reg.egs.any fun e => e.groups.contains o.sg && e.idlePromo) ||
  (o.cls == .b3 && s.rcl.bands.any fun b => b.sg == o.sg && b.idx == o.band && b.why == some .idle)

/-- What the scheduler dispatches on a ready die (R84). While an operation is suspended only reads that may suspend run
(R246). `demand` is the reclaim demand of a group in percent (R208). -/
def chooseOp (s : State) (x : Die) (demand : Nat → Nat) : Option (DieOp × Die) :=
  let ws := waitingOps s x.die
  let held := (opsOf s x.die).any fun o => o.state == .suspended
  let host := ws.filter fun o => hostCls o.cls && o.cls != .h0
  let bg := ws.filter fun o => !hostCls o.cls && o.cls != .m && !idleOnly s o
  let plain := fun (o : Option DieOp) => o.map fun o => (o, x)
  if held then match ws.find? fun o => o.cls == .h0 && maySuspend o with
    | some o => some (o, x)
    | none => nextHost s x (host.filter maySuspend)
  else if ws.any (fun o => o.cls == .h0) then plain (ws.find? fun o => o.cls == .h0)
  else if x.lastBg && !host.isEmpty then nextHost s x host
  else if rebuildBelowFloor s x && ws.any (fun o => o.cls == .b4) then plain (ws.find? fun o => o.cls == .b4)
  else if ws.any (fun o => o.cls == .m && o.since + 1000 ≤ s.nowMs) then
    plain (ws.find? fun o => o.cls == .m && o.since + 1000 ≤ s.nowMs)
  else if !host.isEmpty && (bg.isEmpty || !bgFirst s x demand) then nextHost s x host
  else if !bg.isEmpty then plain (nextBg bg)
  else plain ((ws.find? fun o => o.cls == .m).or (ws.find? (idleOnly s)))

/-- The reclaim demand of a group (R208). -/
def demandOf (s : State) (sg : Nat) : Nat :=
  let t := leaderTile s sg
  let e := s.tfld t .rcl_thresh_endgame_bands
  let h := e + s.tfld t .rcl_thresh_rcl_start_bands
  let f := (s.rcl.bands.filter fun b => b.sg == sg && !b.mapBand && b.state == .free).length
  let m := s.tfld t .qe_die_share_bg_max
  if h ≤ f || h ≤ e then 0 else if f ≤ e then m else m * (h - f) / (h - e)

/-- The die may take an operation: it is in service and its channel is UP (R236, R238, R257). -/
def dieReady (s : State) (d : Nat) : Bool :=
  dieServes s d && (findChan s (chanOfDie d)).any fun c => c.state == .up

/-- The share of a throttle level in hundredths of a percent (R392). -/
def levelShare : Nat → Nat
  | 0 => 10000
  | 1 => 7500
  | 2 => 5000
  | 3 => 4000
  | 4 => 3000
  | 5 => 2000
  | 6 => 1250
  | _ => 625

/-- A count under a tile's die budget: rounded down, at least one (R392). -/
def budgeted (s : State) (t n : Nat) : Nat := max 1 (n * levelShare (levelOf s t) / 10000)

def busy (s : State) (d : Nat) (writes : Bool) : Bool :=
  (opsOf s d).any fun o => (o.state == .active || o.state == .suspending || o.state == .suspended) && (!writes || o.kind != .read)
def tileDies (s : State) (t : Nat) : List Die := s.media.dies.filter fun x => tileOfDie x.die == t

/-- The die budget of the tile lets an operation begin (R392). A tile at level 0 has no such limit. H0 reads are not held, nor is a read
on a die that is busy already, with the operation it suspended. -/
def budgetAllows (s : State) (o : DieOp) : Bool :=
  let t := tileOfDie o.die
  levelOf s t == 0 || o.cls == .h0 ||
    busy s o.die false ||
    (decide (((tileDies s t).filter fun x => busy s x.die false).length < budgeted s t (tileDies s t).length) &&
     (o.kind == .read || decide (((tileDies s t).filter fun x => busy s x.die true).length <
        budgeted s t (s.tfld t .plc_prog_budget_prog_dies_max))))

/-- A ready die takes its next operation, or resumes the suspended one when no read that may suspend it waits
(R84, R86, R247). -/
def dispatch (d : Nat) (s : State) : State :=
  match findDie s d with
  | none => s
  | some x =>
    if !dieReady s d || (opsOf s d).any (fun o => o.state == .active || o.state == .suspending) then s
    else match (chooseOp s x (demandOf s)).filter (fun y => budgetAllows s y.1) with
      | some (o, x1) => updDie d (fun _ => { x1 with lastBg := !hostCls o.cls })
          (updOp o.id (fun o => { o with state := .active }) s)
      | none => match (opsOf s d).find? fun o => o.state == .suspended with
        | some o => updDie d (fun x => { x with resumed := true }) (updOp o.id (fun o => { o with state := .active }) s)
        | none => s

/-- Suspends the program or erase in progress for a read that may suspend it (R86, R246, R247): at most one operation of
a die is suspended, and after a resume only an H0 read suspends before resume_min_us has passed. -/
def trySuspend (d : Nat) (s : State) : State :=
  match findDie s d with
  | none => s
  | some x =>
    let ws := (waitingOps s d).filter maySuspend
    let held := (opsOf s d).any fun o => o.state == .suspended || o.state == .suspending
    if held || ws.isEmpty || (x.resumed && !ws.any (fun o => o.cls == .h0)) then s
    else match (opsOf s d).find? fun o => o.state == .active && o.kind != .read with
      | some o => updOp o.id (fun o => { o with state := .suspending }) s
      | none => s

/-- Enters an operation in its die's queue; the die takes it when it is free, or an H0 read suspends what runs. -/
def addOp (o : DieOp) (s : State) : State :=
  let s1 := { s with media := { s.media with
    ops := s.media.ops ++ [{ o with id := s.media.nextOp, left := List.range o.words, since := s.nowMs }], nextOp := s.media.nextOp + 1 } }
  trySuspend o.die (dispatch o.die s1)

/-- The dies of a throttled tile take operations that its budget held (R392). -/
def pumpTile (t : Nat) (s : State) : State :=
  ((tileDies s t).filter fun x => !(waitingOps s x.die).isEmpty).foldl (fun s x => dispatch x.die s) s

/-- The namespace that a sweep which waits for a band is made for (R120). -/
def sweptNs (s : State) (b : Band) : Option Nat :=
  (s.rcl.sweeps.find? fun w => b.sweepIds.contains w.id).map (·.nsid)

/-- Charges work on an extent of a band that is being relocated (R120): castling and rebuild to the overhead, a sweep to the namespace
that is swept, promotion and reclaim to the namespace of the extent. -/
def chargeCopy (t sg b n : Nat) (f : Meter → Meter) (s : State) : State :=
  match s.rcl.bands.find? fun x => x.sg == sg && x.idx == b with
  | none => chargeBack t n f s
  | some x => match x.why with
    | some .castling | some .replace | some .mapReclaim => chargeOver t f s
    | some .sweep => chargeBack t ((sweptNs s x).getD n) f s
    | _ => chargeBack t n f s

/-- Charges the die time of a read (R120): a command's to its pair, that of a relocation as its copies, any other to the overhead. -/
def meterRead (o : DieOp) (s : State) : State :=
  let t := tileOfDie o.die
  let us := opTime s o
  match findCmd s o.cmd with
  | some c => chargePair t c.payer c.cap.nsid (Meter.addDie us) s
  | none => match s.rcl.flash.find? fun e => e.addr == o.addr with
    | some e => if o.use == .copy then chargeCopy t e.sg e.band e.nsid (Meter.addDie us) s else chargeOver t (Meter.addDie us) s
    | none => chargeOver t (Meter.addDie us) s

/-- Notes an operation whose command reports its end alone: its die time counts in the shares of R85 (patrol, R258). -/
def noteOp (o : DieOp) (s : State) : State :=
  updDie o.die (fun x => { x with
    hist := (x.hist.filter fun h => s.nowMs < h.1 + 100) ++ [(s.nowMs, o.cls, opTime s o)] })
    (chargeOver (tileOfDie o.die) (Meter.addDie (opTime s o)) s)

/-- Ends the array time of an operation: the die is free and takes its next (R84, R85, R120). -/
def endArray (o : DieOp) (s : State) : State :=
  let s1 := updDie o.die (fun x => { x with
    notReady := false
    hist := (x.hist.filter fun h => s.nowMs < h.1 + 100) ++ [(s.nowMs, o.cls, opTime s o)] }) (if o.kind == .read then meterRead o s else s)
  let s2 := trySuspend o.die (dispatch o.die s1)
  if levelOf s2 (tileOfDie o.die) == 0 then s2 else pumpTile (tileOfDie o.die) s2

/-- Removes the running operation of a kind from a die that reports its end. -/
def finishDieOp (d : Nat) (k : OpKind) (s : State) : State :=
  match (opsOf s d).find? fun o => o.kind == k &&
      (o.state == .active || o.state == .suspending || o.state == .suspended) with
  | none => s
  | some o => endArray o (dropOp o.id s)

def blankOp (k : OpKind) (c : PClass) (d : Nat) : DieOp :=
  { id := 0, die := d, kind := k, use := .plain, words := 0, left := [], cls := c, state := .waiting, addr := 0, cmd := 0, lba := 0, sg := 0, band := 0,
    row := 0, member := 0, fine := false, waited := false, step := 1, tries := 0, reads := 1, since := 0 }

/-! ### Reads (R246, R254, R271, R285) -/

def findBand (s : State) (sg b : Nat) : Option Band := s.rcl.bands.find? fun x => x.sg == sg && x.idx == b

/-- The completed substitute of a member of a band (R285). -/
def substOf (s : State) (sg b m : Nat) : Option Subst :=
  s.red.substs.find? fun x => x.sg == sg && x.band == b && x.member == m && x.done

/-- The die that serves a member of a band: its substitute once that is done (R285). -/
def servingDie (s : State) (sg b m d : Nat) : Nat := ((substOf s sg b m).map (·.die)).getD d

/-- The die and the block that serve a member of a band (R282, R285). -/
def servingAt (s : State) (sg b m : Nat) : Nat × Nat :=
  match substOf s sg b m with
  | some x => (x.die, x.block)
  | none => (memberDie s sg m, ((findBand s sg b).bind fun x => x.blocks[m]?).getD 0xFFFF)

/-- The die and the block by which the map's addresses name a member of a band. -/
def namedAt (s : State) (sg b m : Nat) : Nat × Nat :=
  match (findBand s sg b).bind fun x => x.named.find? fun y => y.1 == m with
  | some y => y.2
  | none => (memberDie s sg m, ((findBand s sg b).bind fun x => x.blocks[m]?).getD 0xFFFF)

/-- The band and the member that a die and block in an address name where that member has a substitute. -/
def namedBand (s : State) (d k : Nat) : Option (Band × Nat) :=
  s.rcl.bands.findSome? fun b => (b.named.find? fun y => y.2 == (d, k)).map fun y => (b, y.1)

/-- The die and the block that serve what an address names. -/
def servedFrom (s : State) (addr : Nat) : Nat × Nat :=
  match namedBand s (dieOf addr) (blockOf addr) with
  | some (b, m) => servingAt s b.sg b.idx m
  | none => (dieOf addr, blockOf addr)

/-- Members of a group. -/
def memberCount (s : State) (sg : Nat) : Nat := dataUnits s sg + 2

/-- The members of a band in service other than one, with the dies and the blocks that serve them: as many as a reconstruction needs,
the other data members and P for one loss, every survivor for two (R271). -/
def slotMembers (s : State) (sg b m : Nat) : List (Nat × Nat × Nat) :=
  let all := ((List.range (memberCount s sg)).filter (· != m)).filterMap fun k =>
    let x := servingAt s sg b k
    if dieServes s x.1 then some (k, x) else none
  if all.length + 1 == memberCount s sg then all.take (dataUnits s sg) else all

/-- The reads of a slot's other members that a reconstruction needs, in parallel and in the class of its work (R38, R271). -/
def reconReads (o : DieOp) (s : State) : State :=
  (slotMembers s o.sg o.band o.member).foldl (fun s x =>
    addOp { blankOp .read o.cls x.2.1 with
      use := .recon o.id, words := o.words, cmd := o.cmd, sg := o.sg, band := o.band, row := o.row, member := x.1
      addr := grainAddr x.2.1 x.2.2 (pageOf o.addr) (grainOf o.addr) } s) s

/-- A read goes to reconstruction, step 5 of the ladder (R254, R270, R271). -/
def toRecon (id : Nat) (s : State) : State :=
  match findOp s id with
  | none => s
  | some o => reconReads o (updOp id (fun o => { o with step := 5, state := .recon }) s)

/-- The reads that a reconstruction waits for have ended. -/
def reconRead (s : State) (id : Nat) : Bool := !s.media.ops.any fun o => o.use == .recon id

/-- The reads that the next row of a substitute is rebuilt from (R39, R285), with the member rebuilt in `lba`: none once every row that
the band has programmed is on it. -/
def healRow (sg b m : Nat) (s : State) : State :=
  match s.red.substs.find? (fun x => x.sg == sg && x.band == b && x.member == m && !x.done),
      s.rcl.bands.find? (fun x => x.sg == sg && x.idx == b) with
  | some x, some y =>
    let pages := planesOf s * if y.slc || y.mapBand then 1 else 4
    if y.rows ≤ x.next then s
    else (slotMembers s sg b m).foldl (fun s k =>
      addOp { blankOp .read .b4 k.2.1 with
        use := .rebuild, words := 4 * pages, lba := m, sg := sg, band := b, row := x.next, member := k.1
        addr := grainAddr k.2.1 k.2.2 (x.next * pages) 0 } s) s
  | _, _ => s

/-- The rebuild of a substitute has operations queued or running. -/
def healing (s : State) (sg b m : Nat) : Bool :=
  s.media.ops.any fun o => o.use == .rebuild && o.sg == sg && o.band == b && o.lba == m

/-- A read that a row is rebuilt from has ended; the last of them stays, for what is reconstructed from them (R271, R285). -/
def rebuildRead (x : DieOp) (s : State) : State :=
  let more := s.media.ops.any fun o => o.use == .rebuild && o.kind == .read && o.id != x.id && o.sg == x.sg && o.band == x.band && o.lba == x.lba
  if more then dropOp x.id s else updOp x.id (fun o => { o with step := 5, state := .recon }) s

/-- Queues a read on its die; one of a lost member goes to reconstruction at once (R270, R271). -/
def addRead (o : DieOp) (s : State) : State :=
  if dieServes s o.die then addOp o s else toRecon s.media.nextOp (addOp { o with state := .recon, step := 5 } s)

/-- The codewords that a read of an extent transfers (R174): for part of a raw extent those that hold its blocks alone. -/
def wordsFor (e : FExt) (skip count : Nat) : Nat :=
  if e.raw && count < e.nblk then
    let a := e.addr % 16 * 256 + 32 + 4096 * skip
    (a + 4096 * count - 1) / 4096 + 1 - a / 4096
  else wordsOf e.addr e.len

/-- The part of a raw extent that a read transfers, by its first block: none where it transfers the whole extent (R174). -/
def rawPart (s : State) (o : DieOp) : Option Nat :=
  match o.use, s.rcl.flash.find? (fun x => x.addr == o.addr),
      (findCmd s o.cmd).bind fun c => c.pieces.find? fun p => p.lba == o.lba && p.addr == o.addr with
  | .plain, some e, some p => if e.raw && p.count < e.nblk then some p.skip else none
  | _, _, _ => none

/-- The grain address of the first codeword that a read transfers (R174). -/
def firstWord (s : State) (o : DieOp) : Nat :=
  o.addr / 16 * 16 + 16 * (((rawPart s o).map fun k => (o.addr % 16 * 256 + 32 + 4096 * k) / 4096).getD 0)

/-- A read of part of a raw extent that does not bring the codeword of its header (R135). -/
def headerless (s : State) (o : DieOp) : Bool := firstWord s o != o.addr / 16 * 16

/-- The number of a codeword in its block. -/
def cwOf (a : Nat) : Nat := pageOf a * 4 + grainOf a / 16

/-- Queues the read of flash that a piece of a command needs, in the command's class. -/
def enqueueRead (c : Cmd) (p : Piece) (s : State) : State :=
  match s.rcl.flash.find? fun x => x.addr == p.addr with
  | none => addRead { blankOp .read c.cls (dieOf p.addr) with addr := p.addr, cmd := c.id, lba := p.lba, words := 1 } s
  | some e =>
    addRead { blankOp .read c.cls (servingDie s e.sg e.band e.member (dieOf p.addr)) with
      addr := p.addr, cmd := c.id, lba := p.lba, sg := e.sg, band := e.band, row := e.row, member := e.member
      words := wordsFor e p.skip p.count } s

/-! ### Classes of work (R37, R201) -/

/-- The class of the work a band is relocated for (R37, R201, R224, R284). -/
def whyClass : Option Why → PClass
  | some .promotion => .b2
  | some .castling => .b5
  | some .replace => .b4
  | _ => .b3

/-- The class of an extent's work: a host's, or that of the band it is copied out of. An extent whose source is gone, placed again
after a failure (R185), has that of its stream. -/
def extClass (s : State) (e : Ext) : PClass :=
  let own := match e.stream with
    | .hostSlc | .hostQlc => PClass.h1
    | .promote => .b2
    | .relocate => .b3
  match e.src.bind fun a => s.rcl.flash.find? fun x => x.addr == a with
  | none => own
  | some x => ((s.rcl.bands.find? fun b => b.sg == x.sg && b.idx == x.band).map fun b => whyClass b.why).getD own

/-- The class of a row's programs (R37, R84): rows that hold host data run as H1. DESIGN CHOICE: a row of the RELOCATE stream that holds
extents of several works runs in the first of their classes. -/
def rowClass (s : State) (r : Row) : PClass :=
  match r.stream with
  | .hostSlc | .hostQlc => .h1
  | .promote => .b2
  | .relocate =>
    let cs := (s.wr.exts.filter fun e => e.sg == r.sg && e.band == r.band && e.row == r.idx && e.stage != .toPlace).map (extClass s)
    ([PClass.b2, .b3, .b4, .b5].find? cs.contains).getD .b3

/-! ### Programs (R190, R242, R243, R268) -/

/-- Rows that may be PROGRAMMING in a band at once (R175, R243). -/
def programLimit (s : State) (slc : Bool) : Nat := if slc then 2 else programOrder s + 2

/-! ### Units and their codewords (R173, R174, R178, R249, R250) -/

def slcStream (st : Stream) : Bool := st == .hostSlc

/-- Pages and grains of a member unit (R173). -/
def unitPages (s : State) (st : Stream) : Nat := if slcStream st then planesOf s else 4 * planesOf s
def unitGrains (s : State) (st : Stream) : Nat := unitPages s st * 64

/-- The address of grain `g` of a member unit of a row (R9, R173, R174). -/
def unitAddr (s : State) (r : Row) (m g : Nat) : Nat :=
  let x := namedAt s r.sg r.band m
  grainAddr x.1 x.2 (r.idx * unitPages s r.stream + g / 64) (g % 64)

/-- A data unit of a row as its tile has it staged: its extents, and pads in what they leave free (R178, R268). -/
def rowUnit (s : State) (r : Row) (m : Nat) : Bytes :=
  let es := s.wr.exts.filter fun e => e.sg == r.sg && e.band == r.band && e.row == r.idx && e.member == m && e.stage != .toPlace
  let at_ := (es.map fun e => (e.addr - unitAddr s r m 0, extentBytes e.hdr e.body)).mergeSort fun a b => decide (a.1 ≤ b.1)
  packUnit (unitGrains s r.stream) 0 at_

/-- The unit of a member: a data unit, P or Q. -/
def memberUnit (s : State) (r : Row) (m : Nat) : Bytes :=
  if m < dataUnits s r.sg then rowUnit s r m else if m == dataUnits s r.sg then r.pBytes else r.qBytes

/-- The tag of codeword `j` of a page of a member's unit `u` (R250); the last page of a band's last row carries the member's summary
(R221). DEDUCED: the stream is numbered as in the band table. -/
def tagOf (s : State) (r : Row) (m : Nat) (u : Bytes) (page j : Nat) : CwTag :=
  let b := findBand s r.sg r.band
  let at_ := servingAt s r.sg r.band m
  let sum := (s.rcl.blocks.find? fun x => x.die == at_.1 && x.block == at_.2).map (·.summary)
  let last := r.idx + 1 == rowsPerBand s && page + 1 == unitPages s r.stream
  { echo := unitAddr s r m (64 * page + 16 * j)
    info := j + 4 * b2n (!slcStream r.stream) + 8 * b2n last
    stream := streamCode r.stream
    bandSeq := (b.map (·.seq)).getD 0
    hdrMap := hdrMapOf u page j
    summary := if last then sum.getD 0 / 2 ^ (64 * j) % 2 ^ 64 else 0
    progMin := r.closedMin }

/-- The pages that a member programs for a row, by address (R249). -/
def rowPages (s : State) (r : Row) (m : Nat) : List (Nat × Bytes) :=
  let u := memberUnit s r m
  (List.range (unitPages s r.stream)).map fun p =>
    (unitAddr s r m (64 * p), pageBytes ((List.range 4).map (tagOf s r m u p)) (pagePayloads u p) Config.pageSpare)

/-! ### The order of programs -/

def rowsOf (s : State) (sg b : Nat) : List Row := s.wr.rows.filter fun r => r.sg == sg && r.band == b

/-- A pass is queued or running. -/
def passQueued (s : State) (r : Row) (m : Nat) (fine : Bool) : Bool :=
  s.media.ops.any fun o => o.kind == .program && o.sg == r.sg && o.band == r.band && o.row == r.idx && o.member == m &&
    o.fine == fine

/-- Whether the coarse pass of word line `w` has completed on a member; word lines below the rows in hand have. -/
def coarseDone (s : State) (sg b m w : Nat) : Bool :=
  match (rowsOf s sg b).find? fun r => r.idx == w with
  | some r => r.coarse.contains m
  | none => (rowsOf s sg b).all fun r => decide (w < r.idx)
def fineDone (s : State) (sg b m w : Nat) : Bool :=
  match (rowsOf s sg b).find? fun r => r.idx == w with
  | some r => r.done.contains m
  | none => (rowsOf s sg b).all fun r => decide (w < r.idx)

/-- The passes of a PROGRAMMING row that the program order allows now on a member (R230, R242): SLC rows and ONE_PASS
have one pass; under COARSE_FINE the coarse pass of n + d precedes the fine pass of n, where d is 1 or 2. -/
def nextPass (s : State) (r : Row) (m : Nat) : Option Bool :=
  let d := programOrder s
  let prev := fun w k => if w < k then true else fineDone s r.sg r.band m (w - k)
  if r.stream == .hostSlc || d == 0 then
    if r.done.contains m || !prev r.idx 1 then none else some true
  else if !r.coarse.contains m then
    if (r.idx == 0 || coarseDone s r.sg r.band m (r.idx - 1)) && prev r.idx (d + 1) then some false else none
  else if !r.done.contains m && prev r.idx 1 &&
      coarseDone s r.sg r.band m (min (r.idx + d) (rowsPerBand s - 1)) then some true
  else none

/-- Issues the passes that a band's rows allow, one at a time on each member (R242). -/
def issuePasses (sg b : Nat) (s : State) : State :=
  ((rowsOf s sg b).filter fun r => r.state == .programming).foldl (fun s r =>
    (List.range (memberCount s sg)).foldl (fun s m =>
      match nextPass s r m with
      | none => s
      | some fine =>
        let d := (servingAt s sg b m).1
        if passQueued s r m fine || !dieServes s d then s
        else addOp { blankOp .program (rowClass s r) d with
          sg := sg, band := b, row := r.idx, member := m, fine := fine, words := 4 * unitPages s r.stream
          addr := unitAddr s r m 0 } (emit (.nandProgram d (rowPages s r m)) s)) s) s

/-- Dies of a tile that run programs, or erases, which take part of the same budget (R190, R195). -/
def programmingDies (s : State) (t : Nat) : Nat :=
  (s.media.dies.filter fun x => tileOfDie x.die == t && (opsOf s x.die).any fun o => o.kind != .read).length

/-- Every member tile of a band has room in its program budget (R190). -/
def programRoom (s : State) (sg b : Nat) : Bool :=
  (List.range (memberCount s sg)).all fun m =>
    let t := tileOfDie (servingAt s sg b m).1
    decide (programmingDies s t < budgeted s t (s.tfld t .plc_prog_budget_prog_dies_max))

/-- A CLOSED row whose parity is complete starts PROGRAMMING, once the record that opened its band is durable (R195): its ROW_STATE entry
carries the fingerprints of P and Q (R178, R190, R243, R268, R290). -/
def startPrograms (sg b i : Nat) (s : State) : State :=
  match (rowsOf s sg b).find? fun r => r.idx == i with
  | none => s
  | some r =>
    let running := ((rowsOf s sg b).filter fun r => r.state == .programming).length
    if r.state != .closed || r.parity.length < dataUnits s sg || programLimit s (r.stream == .hostSlc) ≤ running ||
        !programRoom s sg b || !recordsDurable s sg b then s
    else
      let s1 := { s with wr := { s.wr with rows := s.wr.rows.map fun q =>
        if q.sg == sg && q.band == b && q.idx == i then { q with state := .programming } else q } }
      issuePasses sg b (rowRecord r 1 (crc64 r.pBytes) (crc64 r.qBytes) s1)

/-- Rows that waited for the program budget, the rows before them or a record start (R190, R195, R243). -/
def startClosed (s : State) : State :=
  (s.wr.rows.filter fun r => r.state == .closed).foldl (fun s r => startPrograms r.sg r.band r.idx s) s

/-- Every member that serves has completed its last pass (R178). -/
def membersDone (s : State) (r : Row) : Bool :=
  (List.range (memberCount s r.sg)).all fun m => r.done.contains m || !dieServes s (servingAt s r.sg r.band m).1

/-- A row's word lines are settled on every member that serves (R242): the row above has completed its last pass, unless
the row is an SLC row, or the top one. -/
def rowIsSettled (s : State) (r : Row) : Bool :=
  membersDone s r && (r.stream == .hostSlc || r.idx + 1 == rowsPerBand s ||
    match (rowsOf s r.sg r.band).find? fun q => q.idx == r.idx + 1 with
    | some q => membersDone s q
    | none => false)

/-- Marks the rows of a band that have settled. -/
def settleRows (sg b : Nat) (s : State) : State :=
  { s with wr := { s.wr with rows := s.wr.rows.map fun r =>
      if r.sg == sg && r.band == b && r.state == .programming then { r with settled := r.settled || rowIsSettled s r } else r } }

/-! ### Erases (R203, R224) -/

/-- Queues the erase of every member block that is not retired (R203, R207). -/
def enqueueErases (x : Band) (s : State) : State :=
  x.blocks.zipIdx.foldl (fun s y =>
    let p := servingAt s x.sg x.idx y.2
    if x.retireMembers.contains y.2 || y.1 == 0xFFFF || !dieServes s p.1 then s
    else addOp { blankOp .erase (whyClass x.why) p.1 with
      sg := x.sg, band := x.idx, member := y.2, addr := grainAddr p.1 p.2 0 0 } s) s

end Sys2Proof.Machine
end

