-- ==== Sys2Proof/Machine/MapOps.lean ====
section
/-!
DEFINITION. Sys2Proof/Machine/MapOps.lean: the span map: owners, spans and their cuts, the levels, the journal, and the
lookup and update of one region (R128 to R159, R199).
-/
namespace Sys2Proof.Machine
open Sys2Proof

/-! ### Owners (R128 to R131) -/

/-- The CRC32C of R129 over a namespace and a 64-bit number. -/
def ownerCrc (n q : Nat) : Nat := crc32c (toLE 4 n ++ toLE 8 q)

/-- The owner slot of region `r` of namespace `n` (R129). -/
def ownerSlot (s : State) (n r : Nat) : Nat :=
  let k := s.ident.part.tiles
  (r % k + ownerCrc n (r / k) % k) % k

/-- The tiles that hold their own slots, in ascending order (R130). -/
def slotTiles (s : State) : List Nat := (presentTiles s).filter fun t => !s.map.away.contains t

/-- The directory record of a region in its slot's directory (R142): 256 consecutive entries. -/
def dirIndex (s : State) (r : Nat) : Nat := r / s.ident.part.tiles / 256

/-- Whether the regions of a slot's directory record are adopted: the slot is, and the record has not been handed back (R130, R161). -/
def adopted (s : State) (slot n i : Nat) : Bool := s.map.away.contains slot && !s.map.returned.contains (slot, n, i)

/-- The tile that owns a region: the holder of its slot, or its adopter (R130). -/
def ownerTile (s : State) (n r : Nat) : Nat :=
  let slot := ownerSlot s n r
  if adopted s slot n (dirIndex s r) then
    let ts := slotTiles s
    (ts[(r / s.ident.part.tiles) % ts.length]?).getD 0
  else slot

/-- The index of a region's entry in the directory of its owner tile: q of R129, or q div S in an adopted directory (R130). -/
def localIndex (s : State) (n r : Nat) : Nat :=
  let q := r / s.ident.part.tiles
  if adopted s (ownerSlot s n r) n (dirIndex s r) then q / (slotTiles s).length else q

/-- Whether a slot's map is served (R131, R156, R159, R163). -/
def slotServed (s : State) (slot : Nat) : Bool :=
  !s.map.replaying.contains slot && !s.red.dataLost

/-- A tile's mirror: its rank partner, or its knight-link neighbour while the partner is lost (R29, R153). -/
def mirrorOf (s : State) (t : Nat) : Nat :=
  if tileUp s (partnerOf s t) then partnerOf s t else linkTo s t .knight

/-! ### Spans (R132 to R138) -/

def Span.last (x : Span) : Nat := x.off + x.count

/-- A span whose generation is not its key slot's (R134). -/
def stale (s : State) (n : Nat) (x : Span) : Bool := x.keyGen != slotGen s n

/-- The parts of a span outside the blocks `a` to `a + k - 1` (R137). -/
def cutOne (a k : Nat) (x : Span) : List Span :=
  if x.last ≤ a || a + k ≤ x.off then [x]
  else
    (if x.off < a then [{ x with count := a - x.off }] else []) ++
    (if a + k < x.last then
      [{ x with off := a + k, count := x.last - (a + k), skip := if x.zero then x.skip else x.skip + (a + k - x.off) }]
     else [])

def cutSpans (a k : Nat) (l : List Span) : List Span := l.flatMap (cutOne a k)

/-- Inserts a span in the order of offsets (R136). -/
def insertSpan (x : Span) : List Span → List Span
  | [] => [x]
  | y :: ys => if x.off < y.off then x :: y :: ys else y :: insertSpan x ys

/-- Merges zero spans of one write that adjoin (R137). -/
def mergeZero : List Span → List Span
  | [] => []
  | x :: xs => match mergeZero xs with
    | [] => [x]
    | y :: ys =>
      if x.zero && y.zero && x.seqLo == y.seqLo && x.last == y.off then { x with count := x.count + y.count } :: ys
      else x :: y :: ys

/-- Blocks of a page that are mapped. -/
def mapped (l : List Span) : Nat := (l.map (·.count)).sum

/-- The blocks `o` to `e - 1` of a region as runs, each unmapped or within one span (R136, R145). -/
def runs : List Span → Nat → Nat → List (Nat × Nat × Option Span)
  | [], o, e => if o < e then [(o, e - o, none)] else []
  | x :: xs, o, e =>
    if e ≤ o then []
    else if x.last ≤ o then runs xs o e
    else if e ≤ x.off then [(o, e - o, none)]
    else
      let a := max o x.off
      let b := min e x.last
      (if o < a then [(o, a - o, none)] else []) ++ (a, b - a, some x) :: runs xs b e

/-! ### Directory entries and levels (R138 to R148) -/

def findRegion (s : State) (n r : Nat) : Option Region := s.map.regions.find? fun x => x.nsid == n && x.r == r

/-- An EMPTY region, as its first update finds it (R138, R145). -/
def emptyRegion (n r : Nat) : Region :=
  { nsid := n, r := r, spans := [], l0 := none, ref0 := true, frame := none, ref1 := true, dirty := none, fetching := none,
    kept := false, l2 := none, olds := [], wb := none, marked := false }

/-- The page is in L0, and in L1 (R143): a frame that a fetch has taken does not hold it yet. -/
def Region.inL0 (x : Region) : Bool := x.l0.isSome
def Region.inL1 (x : Region) : Bool := x.frame.isSome && x.fetching.isNone

def getRegion (s : State) (n r : Nat) : Region := (findRegion s n r).getD (emptyRegion n r)

def putRegion (x : Region) (s : State) : State :=
  let here := s.map.regions.any fun y => y.nsid == x.nsid && y.r == x.r
  { s with map := { s.map with
      regions := if here then s.map.regions.map fun y => if y.nsid == x.nsid && y.r == x.r then x else y
        else s.map.regions ++ [x] } }

/-- The regions a tile owns now. -/
def regionsOf (s : State) (t : Nat) : List Region := s.map.regions.filter fun x => ownerTile s x.nsid x.r == t

/-- Raw media of the package in MiB: blocks × planes × word lines × 4 pages of 16 KiB for each LUN present (R140). -/
def rawMediaMib (s : State) : Nat := s.media.dies.length * (blocksPerLun s * planesOf s * wordLines s) / 16

/-- Capacity of a tile's DRAM channel in GiB, from its description (R370). -/
def dramGib (s : State) (t : Nat) : Nat :=
  ([16, 24, 32].getD (s.tfld t .drc_cfg_density) 0) * (2 - s.tfld t .drc_cfg_dev_width) * (1 + s.tfld t .drc_cfg_ranks)

/-- Directory space of a tile in GiB: the register's, or the default of R140, which is fixed when map_enable is set. -/
def dirGib (s : State) (t : Nat) : Nat :=
  let v := s.tfld t .map_dir_cfg_dir_gib
  if v != 0 then v
  else ((s.map.dirFixed.find? fun x => x.1 == t).map (·.2)).getD (ceilDiv (16 * rawMediaMib s) (s.ident.part.tiles * 2 ^ 30))

/-- L1 space of a tile in GiB (R143, R165). -/
def l1Gib (s : State) (t : Nat) : Nat :=
  let v := s.tfld t .map_l1_cfg_l1_gib
  if v != 0 then v else dramGib s t - 8 - dirGib s t

/-- Chunks of 4,096 directory entries for an array of entries (R140). -/
def chunksFor (entries : Nat) : Nat := ceilDiv entries 4096

/-- Chunks of the directories that a tile has adopted (R130, R140): each slot's entries of a namespace divided among the S tiles. -/
def adoptedChunks (s : State) (t : Nat) : Nat :=
  let k := (slotTiles s).length
  if !(slotTiles s).contains t || k == 0 then 0
  else s.map.away.length *
    (s.reg.nss.map fun n => chunksFor (ceilDiv (ceilDiv (ceilDiv n.nsze 256) s.ident.part.tiles) k)).sum

/-- L1 frames of a tile: those of its L1 space, less the frames that adopted directories displace, 16 for each chunk of 64 KiB (R162). -/
def l1Frames (s : State) (t : Nat) : Nat := l1Gib s t * 262144 - 16 * adoptedChunks s t

/-- Dirty L1 frames of a tile and their limit (R146). -/
def dirtyFrames (s : State) (t : Nat) : Nat := ((regionsOf s t).filter fun x => x.dirty.isSome).length
def dirtyLimit (s : State) (t : Nat) : Nat := l1Frames s t * s.tfld t .map_paging_dirty_max_pct / 100

/-- Requests that wait for a region at its owner. -/
def waitsFor (s : State) (n r : Nat) : Bool := s.map.waiting.any fun w => w.nsid == n && w.r == r

/-- A page in use is pinned and never evicted (R144, R156). -/
def pinned (s : State) (x : Region) : Bool := x.fetching.isSome || x.wb.isSome || waitsFor s x.nsid x.r

/-- The lowest number that a list does not hold. DESIGN CHOICE: a page takes the lowest free place of L0 and the lowest free frame. -/
def lowestFree (used : List Nat) : Nat := ((List.range (used.length + 1)).find? fun i => !used.contains i).getD 0

/-- The places from a clock's hand on, round to it again. -/
def fromHand (hand : Nat) (ps : List (Nat × Bool)) : List (Nat × Bool) :=
  let sorted := ps.mergeSort fun a b => decide (a.1 ≤ b.1)
  sorted.filter (fun p => hand ≤ p.1) ++ sorted.filter fun p => p.1 < hand

/-- A clock with one reference bit (R143): the place it takes, and those whose bit it cleared as it passed. -/
def clockPick (hand : Nat) (ps : List (Nat × Bool)) : Option (Nat × List Nat) :=
  let q := fromHand hand ps
  match q.find? fun p => !p.2 with
  | some p => some (p.1, (q.takeWhile (·.2)).map (·.1))
  | none => q.head?.map fun p => (p.1, q.map (·.1))

def handOf (s : State) (t : Nat) : ClockHand :=
  (s.map.hands.find? fun h => h.tile == t).getD { tile := t, l0 := 0, l1 := 0 }
def setHand (h : ClockHand) (s : State) : State :=
  { s with map := { s.map with hands := (s.map.hands.filter fun x => x.tile != h.tile) ++ [h] } }

/-- Changes the regions of a tile. -/
def updRegions (t : Nat) (f : Region → Region) (s : State) : State :=
  { s with map := { s.map with regions := s.map.regions.map fun x => if ownerTile s x.nsid x.r == t then f x else x } }

/-- Makes room in L0 for one page (R143, R144: eviction from L0 writes nothing). -/
def roomL0 (t : Nat) (s : State) : State :=
  let here := (regionsOf s t).filter Region.inL0
  if here.length < s.tfld t .map_cfg_l0_frames then s
  else match clockPick (handOf s t).l0 (here.map fun x => (x.l0.getD 0, x.ref0)) with
    | none => s
    | some (v, passed) =>
      setHand { handOf s t with l0 := v + 1 } (updRegions t (fun x => match x.l0 with
        | none => x
        | some p => { x with l0 := if p == v then none else some p, ref0 := x.ref0 && !passed.contains p }) s)

/-- The frames that may be taken: those of clean pages not in use (R143, R144). -/
def evictable (s : State) (t : Nat) : List Region :=
  (regionsOf s t).filter fun x => x.inL1 && x.dirty.isNone && !pinned s x

def framesUsed (s : State) (t : Nat) : List Nat := (regionsOf s t).filterMap (·.frame)

/-- A frame is free or can be freed (R146). -/
def frameAt (s : State) (t : Nat) : Bool :=
  decide ((framesUsed s t).length < l1Frames s t) || !(evictable s t).isEmpty

/-- Makes room in L1: the clock takes a clean frame that is not in use (R143, R146). -/
def roomL1 (t : Nat) (s : State) : State :=
  if (framesUsed s t).length < l1Frames s t then s
  else match clockPick (handOf s t).l1 ((evictable s t).map fun x => (x.frame.getD 0, x.ref1)) with
    | none => s
    | some (v, passed) =>
      setHand { handOf s t with l1 := v + 1 } (updRegions t (fun x => match x.frame with
        | none => x
        | some p => { x with
            frame := if p == v then none else some p, l0 := if p == v then none else x.l0
            ref1 := x.ref1 && !passed.contains p }) s)

/-- A region's page takes a frame of L1, if it has none. -/
def takeFrame (n r : Nat) (s : State) : State :=
  let t := ownerTile s n r
  if (getRegion s n r).frame.isSome then s
  else
    let s1 := roomL1 t s
    putRegion { getRegion s1 n r with frame := some (lowestFree (framesUsed s1 t)), ref1 := true } s1

/-- A region's page, in L1, is brought into L0 (R144, R145). -/
def fillL0 (n r : Nat) (s : State) : State :=
  let t := ownerTile s n r
  if (getRegion s n r).inL0 then putRegion { getRegion s n r with ref0 := true } s
  else
    let s1 := roomL0 t s
    let place := lowestFree ((regionsOf s1 t).filterMap (·.l0))
    putRegion { getRegion s1 n r with l0 := some place, ref0 := true, ref1 := true } s1

/-- Fetches in progress on a tile, in unkept places and in those kept for class H0 (R145). -/
def fetches (s : State) (t : Nat) : Nat := ((regionsOf s t).filter fun x => x.fetching.isSome).length
def fetchesIn (s : State) (t : Nat) (kept : Bool) : Nat :=
  ((regionsOf s t).filter fun x => x.fetching.isSome && x.kept == kept).length

/-- The place that a fetch of a class takes: one of the 240 unkept ones, or for class H0 one of the 16 kept ones (R145). -/
def placeFor (s : State) (t : Nat) (c : PClass) : Option Bool :=
  if fetchesIn s t false < 240 then some false
  else if c == .h0 && fetchesIn s t true < 16 then some true
  else none

/-- Where a page is found (R145). -/
inductive Found | l0 | empty | l1 | fetching | miss
deriving DecidableEq, Repr

def whereIs (s : State) (n r : Nat) : Found :=
  match findRegion s n r with
  | none => .empty
  | some x => if x.inL0 then .l0 else if x.inL1 then .l1 else if x.fetching.isSome then .fetching else .miss

/-! ### The journal (R152 to R154) -/

def findJournal (s : State) (slot : Nat) : Journal :=
  (s.map.journals.find? fun j => j.slot == slot).getD
    { slot := slot, head := 0, durable := 0, closed := [], entries := [], window := 0, checkpoint := 0, tables := [], hot := false,
      ledger := [] }

def putJournal (j : Journal) (s : State) : State :=
  { s with map := { s.map with journals := (s.map.journals.filter fun k => !(k.slot == j.slot)) ++ [j] } }

/-- Entries of a quarter of the tail: 256 KiB of 32 bytes (R152, R153). -/
def quarter : Nat := 8192

/-- Where the open quarter begins. -/
def openStart (j : Journal) : Nat := (j.closed.getLast?).getD j.durable

/-- All four quarters wait for programming: updates wait (R153). -/
def journalFull (j : Journal) : Bool := decide (4 ≤ j.closed.length)

/-- Closes the open quarter while it is full. -/
def closeFull (j : Journal) : Journal :=
  if openStart j + quarter ≤ j.head then { j with closed := j.closed ++ [openStart j + quarter] } else j

/-- Appends entries to a slot's journal, numbering them from its head (R152). -/
def appendJ (slot : Nat) (es : List JEntry) (s : State) : State :=
  putJournal (es.foldl (fun j e => closeFull
    { j with entries := j.entries ++ [{ e with pos := j.head }], head := j.head + 1 }) (findJournal s slot)) s

def zeroSpan : Span :=
  { off := 0, count := 0, skip := 0, addr := 0, len := 0, compressed := false, raw := false, zero := false,
    encrypted := false, keyGen := 0, seqLo := 0 }

/-- An entry of the journal. Those of a command's update are held by one tile until JOURNAL_ENTRY_MIRRORED. DESIGN CHOICE: the copy of
any other entry is held at once, since no command reports it. -/
def jentry (t : JType) (n lba count : Nat) (x : Span) (seq : Nat) : JEntry :=
  { pos := 0, type := t, nsid := n, lba := lba, count := count, span := x, seq := seq, mirrored := true }

/-- Closes the open quarter before it is full: the rest of the segment is padding (R149, R152). DEDUCED: a segment holds 8,192 entries,
and an entry of type PAD is ignored. -/
def padQuarter (j : Journal) : Journal :=
  let k := openStart j + quarter - j.head
  if openStart j < j.head then
    { j with
      entries := j.entries ++ [{ jentry .pad 0 0 k zeroSpan 0 with pos := j.head }]
      head := j.head + k, closed := j.closed ++ [j.head + k] }
  else j

/-- The window of a slot's journal runs from the lowest dirty-since position to the head (R154). -/
def windowStart (s : State) (slot : Nat) : Nat :=
  let j := findJournal s slot
  let ds := ((s.map.regions.filter fun x => ownerSlot s x.nsid x.r == slot).filterMap (·.dirty)) ++
    ((s.map.dirs.filter fun d => d.slot == slot).filterMap (·.dirty))
  (ds.min?).getD j.head

/-! ### Applying an update to one region (R134, R137, R138, R144, R146, R199) -/

/-- Changes the live count of the block that holds an extent (R137, R199). -/
def liveDelta (addr : Nat) (d : Int) (s : State) : State :=
  let p := servedFrom s addr
  { s with rcl := { s.rcl with
    blocks := s.rcl.blocks.map fun b =>
      if b.die == p.1 && b.block == p.2 then { b with live := ((b.live : Int) + d).toNat } else b } }

/-- Reports the change of a page to the die tiles: the counts it lost and those it gained. -/
def reportLive (old new : List Span) (s : State) : State :=
  let s1 := (old.filter fun x => !x.zero).foldl (fun s x => liveDelta x.addr (-(x.count : Int)) s) s
  (new.filter fun x => !x.zero).foldl (fun s x => liveDelta x.addr x.count s) s1

/-- The census has yet to count what the block of an extent holds (R200): that of its group is not complete. -/
def uncensused (s : State) (addr : Nat) : Bool :=
  !(groupOfDie s (dieOf addr)).any fun g => s.rcl.censusDone.contains g.sg

/-- A report of a region's spans that counts: in a census under way those of a region that it has not come to do not (R200). -/
def reported (s : State) (n r : Nat) (xs : List Span) : List Span :=
  if s.rcl.toCensus.contains (n, r) then xs.filter fun x => !uncensused s x.addr else xs

/-- Sets the spans of a region, with the dead of a stale generation left out (R134); NUSE and the blocks' live counts follow. A region
left without a span becomes EMPTY (R138), its record unreferenced. -/
def setSpans (n r : Nat) (new : List Span) (dirty : Option Nat) (s : State) : State :=
  let x := getRegion s n r
  let keep := new.filter fun y => !stale s n y
  let before := mapped (x.spans.filter fun y => !stale s n y)
  let s1 := reportLive (reported s n r x.spans) (reported s n r keep) s
  let s2 := { s1 with reg := { s1.reg with nss := s1.reg.nss.map fun k =>
    if k.nsid == n then { k with nuse := k.nuse + mapped keep - before } else k } }
  if keep.isEmpty then
    { s2 with map := { s2.map with
        regions := s2.map.regions.filter fun y => !(y.nsid == n && y.r == r)
        gone := s2.map.gone ++ if x.l2.isSome then [{ x with spans := [], dirty := some (findJournal s (ownerSlot s n r)).head }] else [] } }
  else putRegion { x with spans := keep, dirty := dirty } s2

/-- Marks a region's directory record dirty from a position, creating its entry in the record table (R142); a write-back under way keeps
the first change after its copy (R155). -/
def dirtyDir (n r pos : Nat) (s : State) : State :=
  let slot := ownerSlot s n r
  let i := dirIndex s r
  let is := fun (d : DirRec) => d.slot == slot && d.nsid == n && d.index == i
  if s.map.dirs.any is then
    { s with map := { s.map with
       dirs := s.map.dirs.map fun d => if is d then { d with
         dirty := some (d.dirty.getD pos), wb := d.wb.map fun w => { w with first := some (w.first.getD pos) } } else d } }
  else { s with map := { s.map with dirs := s.map.dirs ++
      [{ slot := slot, nsid := n, index := i, addr := 0, len := 0, dirty := some pos, wb := none, loaded := true }] } }

/-- Writes a region's spans after an update at a journal position: the page is in L0 and L1, its frame dirty from then on, and a
write-back under way notes the first update after its copy (R138, R144, R145, R155). A region that becomes EMPTY changes its directory
record (R142). -/
def storeSpans (n r : Nat) (new : List Span) (pos : Nat) (s : State) : State :=
  let x := getRegion s n r
  let s1 := setSpans n r new (some (x.dirty.getD pos)) s
  match findRegion s1 n r with
  | none => if x.l2.isSome then dirtyDir n r pos s1 else s1
  | some y =>
    fillL0 n r (takeFrame n r (putRegion { y with
      wb := y.wb.map fun w => { w with first := some (w.first.getD pos) } } s1))

/-- The span a plan makes, in its region. -/
def planSpan (s : State) (p : Plan) : Option Span :=
  match p.kind with
  | .unmap => none
  | .zero => some { zeroSpan with off := p.lba % 256, count := p.count, zero := true, seqLo := p.seq % 2 ^ 32, keyGen := p.gen }
  | .extent => (s.wr.exts.find? fun e => e.seq == p.seq).map fun e =>
      { off := p.lba % 256, count := p.count, skip := p.lba - e.slba, addr := e.addr, len := e.len,
        compressed := e.compressed, raw := e.raw, zero := false, encrypted := true, keyGen := e.keyGen, seqLo := e.seq % 2 ^ 32 }

/-- The part of a plan within region `r`. -/
def planIn (r : Nat) (p : Plan) : Option Plan :=
  let a := max p.lba (256 * r)
  let b := min (p.lba + p.count) (256 * (r + 1))
  if a < b then some { p with lba := a, count := b - a } else none

/-- The regions that a list of plans touches; an unmap touches only regions that are listed. -/
def planRegions (s : State) (n : Nat) (ps : List Plan) : List Nat :=
  (ps.flatMap fun p =>
    match p.kind with
    | .unmap => (s.map.regions.filter fun x => x.nsid == n && (planIn x.r p).isSome).map (·.r)
    | _ => (List.range ((p.lba + p.count - 1) / 256 + 1 - p.lba / 256)).map (· + p.lba / 256)).eraseDups

/-- Blocks of a region that a write, Write Zeroes or deallocation names are lost no more; an empty mask leaves the table (R289). -/
def clearLost (n r lba count : Nat) (s : State) : State :=
  let cut := fun (x : LostRegion) => if x.nsid == n && x.region == r then
      { x with blocks := x.blocks.filter fun i => !(decide (lba ≤ 256 * r + i) && decide (256 * r + i < lba + count)) } else x
  { s with red := { s.red with lostRegions := (s.red.lostRegions.map cut).filter fun x => !x.blocks.isEmpty } }

/-- Whether a run of blocks holds a lost one (R289). -/
def hasLost (s : State) (n lba count : Nat) : Bool :=
  s.red.lostRegions.any fun x => x.nsid == n && x.blocks.any fun i =>
    decide (lba ≤ 256 * x.region + i) && decide (256 * x.region + i < lba + count)

/-- The entry of a plan, not mirrored yet (R152, R153). -/
def planEntry (s : State) (n : Nat) (p : Plan) : JEntry :=
  match planSpan s p with
  | none => { jentry .unmap n p.lba p.count zeroSpan p.seq with mirrored := false }
  | some y => { jentry .write n p.lba p.count y p.seq with mirrored := false }

/-- The spans of a region after an entry of its journal (R137, R152, R159). -/
def applyEntry (e : JEntry) (l : List Span) : List Span :=
  let cut := cutSpans (e.lba % 256) e.count l
  match e.type with
  | .write | .relocate => mergeZero (insertSpan { e.span with off := e.lba % 256, count := e.count } cut)
  | .unmap => cut
  | _ => l

/-- Applies one plan to a region and appends its journal entry (R137, R152). -/
def applyPlan (n r : Nat) (p : Plan) (s0 : State) : State :=
  let s := clearLost n r p.lba p.count s0
  let slot := ownerSlot s n r
  let e := planEntry s n p
  appendJ slot [e] (storeSpans n r (applyEntry e (getRegion s n r).spans) (findJournal s slot).head s)

/-- The relocation condition (R156): the blocks of an extent whose span still has its source address and sequence. -/
def pointsAt (src seq : Nat) (x : Span) : Bool := !x.zero && x.addr == src && x.seqLo == seq % 2 ^ 32

/-- Applies a RELOCATE: only spans that still point at the source move; the blocks applied are journaled (R156, R201). -/
def applyRelocate (n r src seq dst : Nat) (s : State) : State :=
  let slot := ownerSlot s n r
  let pos := (findJournal s slot).head
  let x := getRegion s n r
  let moved := x.spans.filter (pointsAt src seq)
  if moved.isEmpty then s
  else
    let new := x.spans.map fun y => if pointsAt src seq y then { y with addr := dst } else y
    appendJ slot (moved.map fun y => jentry .relocate n (256 * r + y.off) y.count { y with addr := dst } seq)
      (storeSpans n r new pos s)

/-- Applies the update of a coalesced extent (R151): the blocks whose spans still point at one of the extents it was made of now map to
it. -/
def applyCoalesce (n r : Nat) (e : Ext) (s : State) : State :=
  let slot := ownerSlot s n r
  let a := e.slba % 256
  let hit := (getRegion s n r).spans.filterMap fun y =>
    let lo := max a y.off
    let hi := min (a + e.nblk) y.last
    if e.parts.any (fun p => pointsAt p.1 p.2 y) && lo < hi then
      some (jentry .relocate n (256 * r + lo) (hi - lo)
        { off := lo, count := hi - lo, skip := lo - a, addr := e.addr, len := e.len, compressed := e.compressed, raw := e.raw,
          zero := false, encrypted := true, keyGen := e.keyGen, seqLo := e.seq % 2 ^ 32 } e.seq)
    else none
  if hit.isEmpty then s
  else appendJ slot hit (storeSpans n r (hit.foldl (fun l j => applyEntry j l) (getRegion s n r).spans) (findJournal s slot).head s)

/-- The blocks of an extent that still point at it (R201): a mask of block numbers within the extent. -/
def livenessMask (s : State) (n slba nblk addr seq : Nat) : List Nat :=
  match findRegion s n (slba / 256) with
  | none => []
  | some x =>
    (List.range nblk).filter fun i => x.spans.any fun y =>
      pointsAt addr seq y && !stale s n y && decide (y.off ≤ slba % 256 + i) && decide (slba % 256 + i < y.last)

/-- Whether a page at hand can be updated now: the journal has a free quarter, the dirty limit is not reached for a clean frame, and a
region without a frame can take one (R145, R146, R153). -/
def updateReady (s : State) (n r : Nat) : Bool :=
  let t := ownerTile s n r
  let x := getRegion s n r
  !journalFull (findJournal s (ownerSlot s n r)) && (x.frame.isSome || frameAt s t) &&
  (x.dirty.isSome || decide (dirtyFrames s t < dirtyLimit s t))

/-- The region's map can be used: its slot is served, the engine enabled, and its directory record loaded (R145, R159, R163). -/
def mapServed (s : State) (n r : Nat) : Bool :=
  let slot := ownerSlot s n r
  slotServed s slot && s.tfld (ownerTile s n r) .map_cfg_map_enable == 1 &&
  s.map.dirs.all fun d => !(d.slot == slot && d.nsid == n && d.index == dirIndex s r) || d.loaded

/-- Starts the fetch of a page on behalf of a class and a command (R145, R147): the walker has a place for it, and a frame is taken; the
read of the L2 record goes to its die in the class. -/
def startFetch (n r : Nat) (c : PClass) (cmd : Nat) (s : State) : State :=
  let t := ownerTile s n r
  match findRegion s n r, placeFor s t c with
  | some x, some kept =>
    if x.fetching.isSome || !frameAt s t then s
    else
      let s1 := takeFrame n r s
      let s2 := putRegion { getRegion s1 n r with fetching := some c, kept := kept } (bump t .map_l2_fetches_count s1)
      match x.l2 with
      | some l => if dieServes s2 (dieOf l.addr) then
          addOp { blankOp .read c (dieOf l.addr) with
            use := .mapFetch n r, cmd := cmd, addr := l.addr, words := wordsOf l.addr l.len } s2 else s2
      | none => s2
  | _, _ => s

/-- The page of a region is at hand, and counts as a hit of its level; else its fetch is started (R145, R165). -/
def pageAt (n r : Nat) (c : PClass) (cmd : Nat) (s : State) : Bool × State :=
  let t := ownerTile s n r
  match whereIs s n r with
  | .empty => (true, s)
  | .l0 => (true, fillL0 n r (bump t .map_l0_hits_count s))
  | .l1 => (true, fillL0 n r (bump t .map_l1_hits_count s))
  | .fetching => (false, s)
  | .miss => (false, startFetch n r c cmd s)

/-- The record of a region whose PAGE_WRITTEN entry lies below a position, and that no later entry made EMPTY (R159). -/
def recordBelow (s : State) (n r head : Nat) : Option L2Rec :=
  let mine := fun (x : Region) => x.nsid == n && x.r == r
  let regs := s.map.regions.filter mine ++ s.map.gone.filter fun x => mine x && head ≤ x.dirty.getD 0
  ((regs.flatMap fun x => x.l2.toList ++ x.olds).filter fun l => l.pos < head).foldl (fun best l => match best with
    | none => some l
    | some b => if b.pos < l.pos then some l else some b) none

/-- Rebuilds a region's page from its record and the entries of its slot's journal above the record's page_pos (R159, R160): what the
entries change is left dirty in L1, a clean page in neither L0 nor L1. -/
def rebuildRegion (n r : Nat) (s : State) : State :=
  let j := findJournal s (ownerSlot s n r)
  let base := recordBelow s n r j.head
  let es := j.entries.filter fun e => (e.type == .write || e.type == .unmap || e.type == .relocate) && e.nsid == n &&
    e.lba / 256 == r && decide ((base.map (·.snap)).getD 0 ≤ e.pos)
  let spans := es.foldl (fun l e => applyEntry e l) ((base.map (·.spans)).getD [])
  if (findRegion s n r).isNone && spans.isEmpty then s
  else
    let x := { getRegion s n r with
      l0 := none, frame := none, fetching := none, kept := false, l2 := base, olds := [], wb := none }
    let s1 := setSpans n r spans (es.head?.map (·.pos)) (putRegion x s)
    if (findRegion s1 n r).any (·.dirty.isSome) then takeFrame n r s1 else s1

/-- Drops every region of a namespace (R117), and its stale spans (R114, R134). -/
def dropRegions (n : Nat) (s : State) : State :=
  let gone := s.map.regions.filter fun x => x.nsid == n
  let s1 := gone.foldl (fun s x => reportLive (reported s n x.r x.spans) [] s) s
  { s1 with map := { s1.map with
      regions := s1.map.regions.filter fun x => !(x.nsid == n)
      dirs := s1.map.dirs.filter fun d => !(d.nsid == n)
      gone := s1.map.gone.filter fun x => !(x.nsid == n)
      waiting := s1.map.waiting.filter fun w => !(w.nsid == n)
      returned := s1.map.returned.filter fun x => x.2.1 != n
      chunks := s1.map.chunks.filter fun c => !(c.1 == n) } }

def dropStale (n : Nat) (s : State) : State :=
  (s.map.regions.filter fun x => x.nsid == n).foldl (fun s x => setSpans n x.r x.spans x.dirty s) s

/-- Chunks of 4,096 directory entries that a namespace takes on each tile (R140), and whether they fit (R141). -/
def chunksOf (s : State) (nsze : Nat) : Nat := chunksFor (ceilDiv (ceilDiv nsze 256) s.ident.part.tiles)
def chunksFit (s : State) (nsze : Nat) : Bool :=
  (presentTiles s).all fun t =>
    decide (((s.map.chunks.map (·.2)).sum + chunksOf s nsze) * 65536 ≤ dirGib s t * 2 ^ 30)
def reserveChunks (n nsze : Nat) (s : State) : State :=
  { s with map := { s.map with chunks := s.map.chunks ++ [(n, chunksOf s nsze)] } }

end Sys2Proof.Machine
end

