-- ==== Sys2Proof/Machine/WriteOps.lean ====
section
/-!
DEFINITION. Sys2Proof/Machine/WriteOps.lean: the checks of an I/O command, the cut of a write into extents, their
placement, and the steps by which reads and writes go on (R35, R59, R64, R74, R110, R157, R166 to R184).
-/
namespace Sys2Proof.Machine
open Sys2Proof

/-! ### Checks -/

def nsOf (s : State) (n : Nat) : Option Ns := s.reg.nss.find? fun x => x.nsid == n
def egOf (s : State) (n : Nat) : Option Eg := (nsOf s n).bind fun x => s.reg.egs.find? fun e => e.id == x.endgid

/-- Why an I/O command cannot run at all: an opcode of no command (R53), a namespace not attached or being deleted
(R59, R111), no key (R111), blocks beyond NSZE, more than 1 MiB (R52), unavailable data (R280), or a lost-region table that had
no room for one of its regions (R289). -/
def ioRefusal (s : State) (c : Cmd) : Option Status :=
  if c.cap.op == .other || isAdmin c.cap.op then some .invalidOpcode
  else if c.cap.op == .flush && c.cap.nsid == 0xFFFFFFFF then none
  else match nsOf s c.cap.nsid, findCtrl s c.cntlid with
  | some n, some k =>
    if n.state == .deleting || !attachedTo s k n.nsid then some .invalidNamespaceOrFormat
    else if n.state == .keyPending then some .namespaceNotReady
    else if egUnavailable s n.endgid || s.red.regionFull.contains n.nsid then some .namespaceNotReady
    else match c.cap.op with
      | .read | .write | .compare =>
        if 256 < c.cap.nlb then some .invalidField
        else if n.nsze < c.cap.slba + c.cap.nlb then some .lbaOutOfRange else none
      | .verify | .writeZeroes _ => if n.nsze < c.cap.slba + c.cap.nlb then some .lbaOutOfRange else none
      | .datasetManagement _ rs =>
        if 256 < rs.length then some .invalidField
        else if rs.any fun r => decide (n.nsze < r.1 + r.2) then some .lbaOutOfRange else none
      | _ => none
  | _, _ => some .invalidNamespaceOrFormat

/-- The most data that a capsule carries (R46, R47): 16 KiB on an I/O queue, 8 KiB on the admin queue over TCP, and none over PCIe. -/
def inCapMax (tr : Transport) (sqid : Nat) : Nat :=
  match tr with
  | .tcp => if sqid == 0 then 8192 else 16384
  | .rdma => if sqid == 0 then 0 else 16384
  | .pcie => 0

/-- Length, descriptor and digest faults of a command (R46, R47, R51, R64). PRESUMED: a bit bucket is SGL Descriptor Type Invalid, and more
data in a capsule than R46 and R47 allow Data SGL Length Invalid. -/
def lengthFault (s : State) (c : Cmd) : Option Status :=
  let tr := ((findSq s c.cntlid c.sqid).map (·.transport)).getD .tcp
  if c.cap.bitBucket then some .sglDescriptorTypeInvalid
  else if c.cap.sglLen != dataLen c.cap then some .dataSglLengthInvalid
  else if (tr == .pcie && 256 < c.cap.descs) || (tr == .rdma && 16 < c.cap.descs) then
    some .invalidNumberOfSglDescriptors
  else if c.cap.inCap.length != c.cap.inCapLen || inCapMax tr c.sqid < c.cap.inCap.length then some .dataSglLengthInvalid
  else if !c.cap.ddgstOk then some .transientTransportError
  else none

/-- The namespaces that a Flush of a controller applies to (R93). -/
def flushScope (s : State) (cntlid : Nat) (cap : Capsule) (n : Nat) : Bool :=
  cap.nsid == n || (cap.nsid == 0xFFFFFFFF && match findCtrl s cntlid with
    | some k => attachedTo s k n
    | none => false)

/-- What a Flush that arrives now waits for in write-through mode: the extents, not yet programmed, of the writes that have completed
(R93). -/
def flushWaits (s : State) (cntlid : Nat) (cap : Capsule) : List Nat :=
  if cap.op != .flush then []
  else (s.wr.exts.filter fun e => e.acked && flushScope s cntlid cap e.nsid && !e.committed).map (·.seq)

/-! ### Headroom (R110) -/

def leaseLeft (s : State) (t n : Nat) : Nat :=
  ((s.reg.leases.find? fun l => l.tile == t && l.nsid == n).map (·.left)).getD 0

/-- Blocks that writes in progress are charged for. -/
def chargedOn (s : State) (n : Nat) : Nat := ((s.host.cmds.filter fun c => c.cap.nsid == n).map (·.charged)).sum

/-- The home tile's unleased headroom. -/
def headroom (s : State) (n : Nat) : Nat :=
  match nsOf s n with
  | none => 0
  | some x => x.ncap - x.nuse - ((s.reg.leases.filter fun l => l.nsid == n).map (·.left)).sum - chargedOn s n

def setLease (t n left : Nat) (s : State) : State :=
  { s with reg := { s.reg with
      leases := (s.reg.leases.filter fun l => !(l.tile == t && l.nsid == n)) ++ [{ tile := t, nsid := n, left := left }] } }

/-- Recalls the unused leases of a namespace (R110). -/
def recallLeases (n : Nat) (s : State) : State :=
  { s with reg := { s.reg with leases := s.reg.leases.filter fun l => !(l.nsid == n) } }

/-- Charges a write its full length against its tile's lease; one that needs more asks the home tile first. None means
that NUSE would pass NCAP (R110). -/
def chargeWrite (c : Cmd) (s : State) : Option State :=
  let k := c.cap.nlb
  let done := fun s => updCmd c.id (fun c => { c with charged := k }) s
  if k ≤ leaseLeft s c.tile c.cap.nsid then
    some (done (setLease c.tile c.cap.nsid (leaseLeft s c.tile c.cap.nsid - k) s))
  else
    let s1 := recallLeases c.cap.nsid s
    if k ≤ headroom s1 c.cap.nsid then some (done s1) else none

/-! ### Cutting, compression and raw storage (R166 to R169) -/

/-- Cuts blocks `a` to `a + k - 1` at multiples of `m` (R166, R169). -/
def cutAt (m : Nat) : Nat → Nat → Nat → List (Nat × Nat)
  | 0, _, _ => []
  | fuel + 1, a, k =>
    if k == 0 then [] else
      let n := min k (m - a % m)
      (a, n) :: cutAt m fuel (a + n) (k - n)

/-- The raw cost of a candidate of `k` blocks in grains (R169). -/
def rawCost (k : Nat) : Nat := if k ≤ 8 then 16 * k + 1 else 16 * k + 2

/-- The padded body and the stored length of a body of `n` bytes (R168). -/
def paddedLen (n : Nat) : Nat := max 16 (ceilDiv n 16 * 16)
def storedLen (n : Nat) : Nat := ceilDiv (32 + paddedLen n) 256

/-- Whether the compressed form of `k` blocks is kept (R169). -/
def keepsCompressed (k n : Nat) : Bool := decide (storedLen n ≤ 256) && decide (storedLen n + 1 ≤ rawCost k)

/-- The bytes of blocks `lba` to `lba + n - 1` of a command's data. -/
def sliceOf (slba lba n : Nat) (d : Bytes) : Bytes := (d.drop ((lba - slba) * 4096)).take (n * 4096)

/-- What becomes of a write of these blocks: pieces (lba, blocks, kind, stored length), where kind is 0 for zeros, 1 for
a compressed extent and 2 for a raw one (R166 to R169). -/
def cutWrite (zeroDetect : Bool) (compMode slba nlb : Nat) (d : Bytes) : List (Nat × Nat × Nat × Nat) :=
  (cutAt 16 (nlb + 1) slba nlb).flatMap fun p =>
    let b := sliceOf slba p.1 p.2 d
    if zeroDetect && b.all (· == 0) then [(p.1, p.2, 0, 0)]
    else
      let n := Config.deflateLen (compMode == 1) b
      if compMode != 2 && keepsCompressed p.2 n then [(p.1, p.2, 1, storedLen n)]
      else (if p.2 ≤ 8 then [p] else cutAt 8 3 p.1 p.2).map fun q => (q.1, q.2, 2, 16 * q.2 + 1)

/-- The stream that host writes of an endurance group go to (R188). -/
def hostStream (s : State) (eg : Nat) : Stream :=
  match s.reg.egs.find? (fun g => g.id == eg) with
  | some g => if g.slcClosed then .hostQlc else .hostSlc
  | none => .hostQlc

/-! ### Write sequences (R172) -/

def seqLease (s : State) (t : Nat) : SeqLease :=
  (s.wr.leases.find? fun l => l.tile == t).getD { tile := t, next := 0, last := 0, more := none }

/-- The next `n` values of a tile's leases, or none when they do not hold so many. -/
def takeSeqs (t n : Nat) (s : State) : Option (List Nat × State) :=
  let l := seqLease s t
  let cur := (List.range (l.last - l.next)).map (· + l.next)
  let all := cur ++ ((l.more.map fun b => (List.range 4096).map (· + b)).getD [])
  if all.length < n then none
  else
    let l' : SeqLease :=
      if n < cur.length then { l with next := l.next + n }
      else match l.more with
        | some b => { tile := t, next := b + (n - cur.length), last := b + 4096, more := none }
        | none => { l with next := l.last }
    some (all.take n, { s with wr := { s.wr with leases := (s.wr.leases.filter fun x => !(x.tile == t)) ++ [l'] } })

/-! ### Placement (R173 to R177) -/

def updBand (sg b : Nat) (f : Band → Band) (s : State) : State :=
  { s with rcl := { s.rcl with bands := s.rcl.bands.map fun x => if x.sg == sg && x.idx == b then f x else x } }
def isRow (sg b i : Nat) (r : Row) : Bool := r.sg == sg && r.band == b && r.idx == i
def findRow (s : State) (sg b i : Nat) : Option Row := s.wr.rows.find? (isRow sg b i)
def updRow (sg b i : Nat) (f : Row → Row) (s : State) : State :=
  { s with wr := { s.wr with rows := s.wr.rows.map fun r => if isRow sg b i r then f r else r } }
/-- The extent with a write sequence that is on its way to flash, or has its map step still to come. -/
def findExt (s : State) (q : Nat) : Option Ext := s.wr.exts.find? fun e => e.seq == q && !e.committed
def updExt (q : Nat) (f : Ext → Ext) (s : State) : State :=
  { s with wr := { s.wr with exts := s.wr.exts.map fun e => if e.seq == q && !e.committed then f e else e } }

/-- The units a port tile holds for a stream, with their free grains. -/
def heldUnits (s : State) (t : Nat) (st : Stream) : List (Row × RUnit) :=
  (s.wr.rows.filter fun r => r.stream == st && r.state == .filling).flatMap fun r =>
    (r.units.filter fun u => u.holder == some t && !u.returned).map fun u => (r, u)

/-- The stripe groups an extent may be placed in: a copy stays in its group (R201), a host extent in its endurance group (R107). -/
def mayUse (s : State) (e : Ext) (sg : Nat) : Bool :=
  if e.src.isSome then sg == e.sg else (egOf s e.nsid).any fun g => g.groups.contains sg

/-- The reserved unit with the fewest free grains that can hold an extent (R177). -/
def bestUnit (s : State) (e : Ext) : Option (Row × RUnit) :=
  ((heldUnits s e.port e.stream).filter fun x => mayUse s e x.1.sg && !x.2.recalled && decide (x.2.used + e.len ≤ unitGrains s e.stream)).foldl
    (fun best x => match best with
      | none => some x
      | some y => if y.2.used < x.2.used then some x else some y) none

/-- Sets the summary bits of an extent's region in the block that receives it, and counts the extent there
(R199, R221). -/
def countPlaced (e : Ext) (addr : Nat) (s : State) : State :=
  let h := ownerCrc e.nsid (e.slba / 256)
  { s with rcl := { s.rcl with
    blocks := s.rcl.blocks.map fun b =>
      if b.die == dieOf addr && b.block == blockOf addr then
        { b with
                 placed := b.placed + e.nblk, grains := b.grains + e.len,
                 summary := setBit (setBit (setBit b.summary (h % 256) true) (h / 256 % 256) true) (h / 65536 % 256) true }
      else b } }

/-- Places an extent into a reserved unit and sends it to its member tile; the row timer starts with the first extent of
the row (R176, R177). Without a unit it waits. -/
def placeExt (q : Nat) (s : State) : State :=
  match findExt s q with
  | none => s
  | some e =>
    if e.stage != .toPlace then s
    else match bestUnit s e with
    | none => s
    | some (r, u) =>
      let addr := unitAddr s r u.member u.used
      let s1 := updRow r.sg r.band r.idx (fun r => { r with
        timer := true
        units := r.units.map fun v => if v.member == u.member then { v with used := v.used + e.len } else v }) s
      countPlaced e addr (updExt q (fun e => { e with
        stage := .sent, addr := addr, sg := r.sg, band := r.band, row := r.idx, member := u.member }) s1)

/-- Places every extent of a port tile that waits for a unit, oldest first. -/
def placeWaiting (t : Nat) (s : State) : State :=
  ((s.wr.exts.filter fun e => e.port == t && e.stage == .toPlace).map (·.seq)).foldl (fun s q => placeExt q s) s

/-! ### The map step of a command (R35, R74, R157, R184) -/

/-- Every extent of a command is confirmed. -/
def allStaged (s : State) (c : Cmd) : Bool :=
  c.extents.all fun q => match findExt s q with
    | some e => e.stage == .confirmed || e.stage == .closed
    | none => true

/-- Sends the map updates of a command whose data is staged, once its order allows (R35, R74). -/
def sendUpdates (id : Nat) (s : State) : State :=
  match findCmd s id with
  | none => s
  | some c =>
    if c.phase != .staging || !allStaged s c || !mayMap s c then s
    else
      let rs := planRegions s c.cap.nsid c.plan
      updCmd id (fun c => { c with phase := .mapping, updates := rs.map fun r =>
        { region := r, firstPos := 0, applied := false, mirrored := false, ownerOk := false, mirrorOk := false, lastPos := 0 } }) s

/-- The second region of a command that crosses exactly one boundary as a forwarded part (R157). -/
def forwardedRegion (c : Cmd) (r : Nat) : Option Nat :=
  match c.cap.op with
  | .datasetManagement _ _ => none
  | _ => if c.updates.length == 2 && c.updates.any (fun u => u.region == r + 1) then some (r + 1) else none

/-- A command confirmed in write-through mode may complete: its rows are programmed and its journal entries are in a
programmed segment (R184). -/
def durableNow (s : State) (c : Cmd) : Bool :=
  c.extents.all (fun q => (findExt s q).isNone) &&
  c.updates.all fun u => decide (u.lastPos < (findJournal s (ownerSlot s c.cap.nsid u.region)).durable)

/-- Writes a sweep whose unmap is confirmed to the registry (R223 step 2, R225). -/
def keepSweep (id : Nat) (s : State) : State :=
  syncStores { s with rcl := { s.rcl with sweeps := s.rcl.sweeps.map fun w =>
    if w.id == id then { w with kept := true, startMin := s.island.minutes } else w } }

/-- Ends a command whose map step is confirmed (R34, R184, R223, R224). -/
def afterMap (id : Nat) (s : State) : State :=
  match findCmd s id with
  | none => s
  | some c =>
    if !c.updates.all (fun u => u.ownerOk && u.mirrorOk) || c.phase != .mapping then s
    else
      let s0 := updCmd id (fun c => { c with took := true, charged := 0 }) s
      let s1 := if c.sweep == 0 then s0 else keepSweep c.sweep s0
      if c.sweep != 0 && c.sweepSync then updCmd id (fun c => { c with phase := .draining }) s1
      else if s.plp.writeThrough && !durableNow s c then updCmd id (fun c => { c with phase := .draining }) s1
      else finishCmd id .success c.sweep s1

/-- A Flush in write-through mode may complete: what it waits for is programmed (R93). -/
def flushReady (s : State) (c : Cmd) : Bool := c.waitFor.all fun q => (findExt s q).isNone

/-- Lets commands that wait for programs or journal segments go on (R93, R184). -/
def drainPump (s : State) : State :=
  (s.host.cmds.map (·.id)).foldl (fun s id => match findCmd s id with
    | some c =>
      if c.phase != .draining || isAdmin c.cap.op then s
      else if c.cap.op == .flush then (if flushReady s c then finishCmd id .success 0 s else s)
      else if c.sweep != 0 && c.sweepSync then s
      else if durableNow s c then finishCmd id .success c.sweep s else s
    | none => s) s

/-- Lets commands whose data is staged and whose predecessors have taken effect send their updates (R74). -/
def mapPump (s : State) : State := (s.host.cmds.map (·.id)).foldl (fun s id => sendUpdates id s) s

/-- A command with nothing to change in the map takes effect at once. -/
def goMap (id : Nat) (s : State) : State := afterMap id (sendUpdates id s)

/-! ### Reads (R135, R137, R145, R157, R173, R174) -/

/-- Blocks of an extent after decryption (R359): none where the slot holds no key; zeros where its generation has advanced. -/
def pieceBytes (s : State) (n keyGen : Nat) (plain : Bytes) (skip count : Nat) : Option Bytes :=
  if !slotLoaded s n then none
  else if slotGen s n != keyGen then some (zeroBytes (count * 4096))
  else some ((plain.drop (skip * 4096)).take (count * 4096))

/-- The status that a piece has failed with. -/
def Piece.failure (p : Piece) : Option Status :=
  match p.state with
  | .failed st => some st
  | _ => none

/-- Resolves one run of a lookup (R34, R134, R136): unmapped, stale and zero blocks read as zeros; an extent still
staged, or being re-placed from staging (R185), is served from there; any other needs a read of flash. -/
def resolveRun (s : State) (n base : Nat) (x : Nat × Nat × Option Span) : Piece :=
  let zeros : Piece := { lba := base + x.1, count := x.2.1, state := .done, addr := 0, skip := 0, seq := 0,
                         data := zeroBytes (x.2.1 * 4096) }
  match x.2.2 with
  | none => zeros
  | some y =>
    if y.zero || stale s n y then zeros
    else
      let skip := y.skip + (x.1 - y.off)
      match s.wr.exts.find? (fun e => e.seq % 2 ^ 32 == y.seqLo &&
          ((e.addr == y.addr && e.stage != .toPlace) || (e.replacing && e.src == some y.addr))) with
      | some e => match pieceBytes s n e.keyGen e.plain skip x.2.1 with
        | some d => { zeros with data := d }
        | none => { zeros with state := .failed .namespaceNotReady, data := [] }
      | none => { zeros with state := .flash, addr := y.addr, skip := skip, seq := y.seqLo, data := [] }

/-- The pieces of a command in the order of their blocks. -/
def orderedPieces (c : Cmd) : List Piece := c.pieces.mergeSort fun a b => decide (a.lba ≤ b.lba)

/-- Ends a read, compare or verify whose pieces are all there, and marks its lookup as having taken effect once every
piece is resolved (R73, R74). -/
def readProgress (id : Nat) (s : State) : State :=
  match findCmd s id with
  | none => s
  | some c =>
    if c.pieces.any (fun p => p.state == .toLookup || p.state == .queued) then s
    else
      let s1 := mapPump (updCmd id (fun c => { c with took := true, phase := .reading }) s)
      match c.pieces.findSome? Piece.failure with
      | some st => finishCmd id st 0 s1
      | none =>
      if c.pieces.all (fun p => p.state == .done) then
        let d := (orderedPieces c).flatMap (·.data)
        match c.cap.op with
        | .compare => finishCmd id (if d == c.data then .success else .compareFailure) 0 s1
        | _ => finishCmd id .success 0 (updCmd id (fun c => { c with data := d }) s1)
      else s1

/-- The owner resolves the blocks of one piece from the page it has, and the reads it needs go to the dies. A lost block ends the
command (R289). -/
def resolvePiece (id lba : Nat) (s : State) : State :=
  match findCmd s id with
  | none => s
  | some c => match c.pieces.find? (fun p => p.lba == lba && (p.state == .toLookup || p.state == .queued)) with
    | none => s
    | some p =>
      if hasLost s c.cap.nsid lba p.count then finishCmd id .unrecoveredReadError 0 s else
      let r := lba / 256
      let spans := ((findRegion s c.cap.nsid r).map (·.spans)).getD []
      let new := (runs spans (lba % 256) (lba % 256 + p.count)).map (resolveRun s c.cap.nsid (256 * r))
      let s1 := updCmd id (fun c => { c with pieces := (c.pieces.filter fun q => q != p) ++ new }) s
      let s2 := (new.filter fun q => q.state == .flash).foldl (fun s q => enqueueRead c q s) s1
      readProgress id s2

/-- The pieces of a read: its blocks cut at region boundaries (R128, R157). -/
def readPieces (c : Capsule) : List Piece :=
  (cutAt 256 (c.nlb / 256 + 3) c.slba c.nlb).map fun p =>
    { lba := p.1, count := p.2, state := .toLookup, addr := 0, skip := 0, seq := 0, data := [] }

/-- The piece of a read that crosses one boundary which the coordinator sends on (R157). -/
def forwardedPiece (c : Cmd) : Option Nat :=
  match (readPieces c.cap).map (·.lba) with
  | [_, b] => some b
  | _ => none

/-- Starts a command that reads: its lookups go to the owners once its order allows (R70, R74). -/
def startRead (id : Nat) (s : State) : State :=
  match findCmd s id with
  | none => s
  | some c => if mayMap s c then
      readProgress id (updCmd id (fun c => { c with phase := .lookup, pieces := readPieces c.cap }) s)
    else s

/-! ### Writes (R35, R54, R166 to R172, R182) -/

/-- Processes a write whose data is complete: candidates, extents and the plan of its map step. It waits while its tile's
lease has too few sequence values; without a loaded key it fails whole (R35). -/
def processWrite (id : Nat) (s : State) : State :=
  match findCmd s id with
  | none => s
  | some c => match nsOf s c.cap.nsid with
    | none => finishCmd id .internalError 0 s
    | some n =>
      let ps := cutWrite (s.tfld c.tile .plc_cfg_zero_detect == 1) n.compMode c.cap.slba c.cap.nlb c.data
      if !slotLoaded s n.nsid && ps.any (fun p => p.2.2.1 != 0) then finishCmd id .namespaceNotReady 0 s
      else match takeSeqs c.tile ps.length s with
        | none => s
        | some (qs, s1) =>
          let both := ps.zip qs
          let st := hostStream s n.endgid
          let exts := (both.filter fun x => x.1.2.2.1 != 0).map fun x =>
            let d := sliceOf c.cap.slba x.1.1 x.1.2.1 c.data
            { freshExt s c.tile n x.1 x.2 d with stream := st, cmd := id, payer := c.payer }
          let plan := both.map fun x =>
            ({ lba := x.1.1, count := x.1.2.1, seq := x.2, gen := slotGen s n.nsid, kind := if x.1.2.2.1 == 0 then .zero else .extent } : Plan)
          let s2 := updCmd id (fun c => { c with phase := .staging, plan := plan, extents := exts.map (·.seq) })
            { s1 with wr := { s1.wr with exts := s1.wr.exts ++ exts } }
          goMap id (placeWaiting c.tile s2)

/-- The data of a command is complete in the port tile's pool. -/
def dataReady (id : Nat) (s : State) : State :=
  match findCmd s id with
  | none => s
  | some c => match c.cap.op with
    | .write => processWrite id s
    | .compare => startRead id s
    | _ => s

/-- The data of a command still to come from the host, and whether the command asks for it. -/
def dataDue (c : Cmd) : Bool := c.phase == .dataFetch && decide (c.data.length < dataLen c.cap)

/-- Asks the host for the data that a command waits for; over RDMA at most 16 reads of a queue are outstanding (R47). -/
def askData (id : Nat) (s : State) : State :=
  match findCmd s id with
  | none => s
  | some c =>
    let rdma := (findSq s c.cntlid c.sqid).any fun q => q.transport == .rdma
    let out := (s.host.cmds.filter fun e => e.cntlid == c.cntlid && e.sqid == c.sqid && e.asked && dataDue e).length
    if !dataDue c || c.asked || (rdma && 16 ≤ out) then s
    else sendTo c.cntlid c.sqid (.fetchData c.cntlid c.sqid c.cap.cid c.data.length (dataLen c.cap - c.data.length))
      (updCmd id (fun c => { c with asked := true }) s)

/-- Asks for the data of the commands of a queue that still wait to ask, oldest first. -/
def askNext (cntlid sqid : Nat) (s : State) : State :=
  ((s.host.cmds.filter fun c => c.cntlid == cntlid && c.sqid == sqid).map (·.id)).foldl (fun s id => askData id s) s

/-- Fetches the host data of a command, or takes it from the capsule (R182). -/
def fetchData (id : Nat) (s : State) : State :=
  match findCmd s id with
  | none => s
  | some c =>
    let s1 := updCmd id (fun c => { c with phase := .dataFetch, data := c.cap.inCap }) s
    if dataLen c.cap ≤ c.cap.inCap.length then dataReady id s1 else askData id s1

/-- Takes up the commands that waited for one of their queue to take effect or to end (R74): writes whose data is staged, and Compares
whose data is there. -/
def pump (s : State) : State :=
  let s1 := mapPump s
  ((s1.host.cmds.filter fun c => c.cap.op == .compare && c.phase == .dataFetch && !dataDue c).map (·.id)).foldl
    (fun s id => startRead id s) s1

end Sys2Proof.Machine
end

