-- ==== Sys2Proof/Machine/ReclaimOps.lean ====
section
/-!
DEFINITION. Sys2Proof/Machine/ReclaimOps.lean: blocks, bands, their records, the choice of victims, relocation and
erase, wear, endurance-group capacity and secure sweeps (R107 to R110, R187, R188, R192 to R226).
-/
namespace Sys2Proof.Machine
open Sys2Proof

/-! ### Blocks and bands -/

def findBlk (s : State) (die blk : Nat) : Option Blk := s.rcl.blocks.find? fun b => b.die == die && b.block == blk
def updBlk (die blk : Nat) (f : Blk → Blk) (s : State) : State :=
  { s with rcl := { s.rcl with blocks := s.rcl.blocks.map fun b => if b.die == die && b.block == blk then f b else b } }

/-- The blocks of a band, with their members. -/
def bandBlocks (s : State) (b : Band) : List (Nat × Blk) :=
  (List.range b.blocks.length).filterMap fun m =>
    let p := servingAt s b.sg b.idx m
    (findBlk s p.1 p.2).map fun k => (m, k)

/-- The band that a block belongs to, or that it is named for, with its member number. -/
def bandOfBlock (s : State) (d blk : Nat) : Option (Band × Nat) :=
  match (namedBand s d blk).or ((s.red.substs.find? fun x => x.die == d && x.block == blk && x.done).bind fun x =>
      (findBand s x.sg x.band).map fun b => (b, x.member)) with
  | some y => some y
  | none => (s.rcl.bands.filterMap fun b => ((List.range b.blocks.length).find? fun m =>
      memberDie s b.sg m == d && b.blocks[m]? == some blk).map fun m => (b, m)).head?

/-- The records of the map band that an entry names, or will until the entry that replaces it is programmed: address and length
(R149, R150, R155). -/
def liveRecords (s : State) : List (Nat × Nat) :=
  (s.map.regions ++ s.map.gone).flatMap (fun x => (x.l2.toList ++ x.olds).map fun l => (l.addr, l.len)) ++
    (s.map.dirs.filter fun d => 0 < d.len).map fun d => (d.addr, d.len)

/-- The live records in a map-band band. -/
def recordsIn (s : State) (x : Band) : List (Nat × Nat) :=
  (liveRecords s).filter fun a => (bandOfBlock s (dieOf a.1) (blockOf a.1)).any fun y => y.1.sg == x.sg && y.1.idx == x.idx

def groupBands (s : State) (sg : Nat) : List Band := s.rcl.bands.filter fun b => b.sg == sg && !b.mapBand
/-- F: FREE bands of a group (R208). -/
def freeBands (s : State) (sg : Nat) : List Band := (groupBands s sg).filter fun b => b.state == .free
def reserveOf (s : State) (sg : Nat) : Nat := s.tfld (leaderTile s sg) .rcl_thresh_endgame_bands

/-- The wear of a band's member blocks, added up. -/
def wearSum (s : State) (b : Band) : Nat := ((bandBlocks s b).map fun x => x.2.wear).sum
/-- Mean member wear of a band (R197), in units of 1/720720 of the unit of R212, so that the mean of up to 16 members is a whole
number. -/
def wearMean (s : State) (b : Band) : Nat := 720720 * wearSum s b / (bandBlocks s b).length

/-- The first of the bands with the highest `f`, ties to the lowest index. -/
def bestBy (f : Band → Int) : List Band → Option Band
  | [] => none
  | b :: bs => match bestBy f bs with
    | none => some b
    | some c => if f c < f b then some b else if f c == f b && b.idx ≤ c.idx then some b else some c

/-- The FREE band a stream opens (R197, R214). -/
def bandToOpen (s : State) (sg : Nat) (st : Stream) : Option Band :=
  if st == .relocate then bestBy (fun b => (wearMean s b : Int)) (freeBands s sg)
  else if (freeBands s sg).length ≤ reserveOf s sg then none
  else bestBy (fun b => -(wearMean s b : Int)) (freeBands s sg)

/-- A candidate band of a sweep has reached ERASE_DONE, or is retired (R223, R225). -/
def sweepBandDone (sg b : Nat) (s : State) : State :=
  { s with rcl := { s.rcl with
   sweeps := s.rcl.sweeps.map fun w =>
    if w.bands.contains (sg, b) then { w with bands := w.bands.erase (sg, b), doneBands := w.doneBands + 1 } else w } }

/-- Puts another block of the die that serves a member in its place. -/
def setMember (sg b m blk : Nat) (s : State) : State :=
  if (substOf s sg b m).isSome then { s with red := { s.red with substs := s.red.substs.map fun x =>
    if x.sg == sg && x.band == b && x.member == m && x.done then { x with block := blk } else x } }
  else updBand sg b (fun x => { x with blocks := x.blocks.set m blk }) s

/-- A band is retired (R195, R207): its members left in use become SPARE. -/
def retireBand (x : Band) (s : State) : State :=
  let s1 := (bandBlocks s x).foldl (fun s y =>
    if (y.2.state == .good || y.2.state == .mapBand) && dieServes s y.2.die then
      updBlk y.2.die y.2.block (fun k => { k with state := .spare }) s else s) s
  logEv .bandRetired (leaderTile s x.sg) [x.sg, x.idx]
    (smartRefresh (bandRecord 0x08 x 0xFF 0xFFFF 0xFFFF (updBand x.sg x.idx (fun x => { x with state := .retired })
      (sweepBandDone x.sg x.idx { s1 with
        red := { s1.red with substs := s1.red.substs.filter fun y => !(y.sg == x.sg && y.band == x.idx) } }))))

/-- Marks a member block GROWN_BAD, with a cause of BLOCK_RETIRED (R422), and puts a SPARE of its die in its place, or retires the band
(R193, R207). -/
def replaceMember (cause sg b m : Nat) (s : State) : State :=
  match findBand s sg b with
  | none => s
  | some x =>
    let p := servingAt s sg b m
    let use := if x.mapBand then BlkState.mapBand else .good
    let s1 := countLife 4 <| logEv .blockRetired (tileOfDie p.1) [p.1, p.2, cause]
      (bandRecord 0x06 x m p.2 0xFFFF (updBlk p.1 p.2 (fun k => { k with state := .grownBad }) s))
    match s1.rcl.blocks.find? (fun k => k.die == p.1 && k.state == .spare) with
    | some sp =>
      smartRefresh <| bandRecord 0x07 x m p.2 sp.block (setMember sg b m sp.block
        (updBlk p.1 sp.block (fun k => { k with state := use, placed := 0, grains := 0, live := 0, summary := 0 }) s1))
    | none => retireBand x s1

/-- A BOOTBAND or EVENTBAND block that fails becomes GROWN_BAD, with a cause of BLOCK_RETIRED, and a SPARE of its die takes its place
(R193). -/
def replaceSpecial (cause d blk : Nat) (s : State) : State :=
  match findBlk s d blk with
  | none => s
  | some k =>
    let s1 := countLife 4 (logEv .blockRetired (tileOfDie d) [d, blk, cause] (updBlk d blk (fun k => { k with state := .grownBad }) s))
    match s1.rcl.blocks.find? fun x => x.die == d && x.state == .spare with
    | some sp => smartRefresh (updBlk d sp.block (fun x => { x with state := k.state }) s1)
    | none => s1

/-- A FREE band is OPEN (R195): it takes the next band_seq, and BAND_OPEN is recorded. -/
def bandOpened (b : Band) (slc : Bool) (st : Stream) (s : State) : State :=
  let y := { b with
    state := .open, seq := s.wr.nextBandSeq, slc := slc, stream := st, early := false, rows := 0, nextRow := 0, why := none, toScan := []
    committed := false, erased := [], sweepIds := []
    named := (s.red.substs.filter fun x => x.sg == b.sg && x.band == b.idx && x.done).map fun x => (x.member, x.die, x.block) }
  bandRecord 0x01 y 0xFF 0xFFFF 0xFFFF
    (updBand b.sg b.idx (fun _ => y) { s with wr := { s.wr with nextBandSeq := s.wr.nextBandSeq + 1 } })

/-! ### Substitutes (R282 to R285) -/

/-- SPARE blocks of a die. -/
def sparesOf (s : State) (d : Nat) : List Blk := s.rcl.blocks.filter fun k => k.die == d && k.state == .spare

/-- Dies that serve a band: its members in service and its substitutes. -/
def diesOfBand (s : State) (g : Group) (b : Band) : List Nat :=
  (g.members.zipIdx.filter fun x => !(g.lost.any fun l => l.1 == x.2)).map (·.1) ++
    (s.red.substs.filter fun x => x.sg == g.sg && x.band == b.idx).map (·.die)

/-- The die that gives a substitute for a band (R282, R283), and whether it shares a channel: the one with the most SPARE
blocks above spare_keep, ties to the lowest die index, on a channel of its own where one exists. -/
def substDie (s : State) (g : Group) (b : Band) : Option (Nat × Bool) :=
  let keep := s.tfld (leaderTile s g.sg) .red_cfg_spare_keep
  let used := diesOfBand s g b
  let ok := (s.media.dies.map (·.die)).filter fun d =>
    dieServes s d && !g.members.contains d && !used.contains d && keep < (sparesOf s d).length
  let apart := ok.filter fun d => !(used.any fun u => chanOfDie u == chanOfDie d)
  let best := fun (ds : List Nat) => ds.foldl (fun a d => match a with
    | none => some d
    | some x =>
      let n := (sparesOf s d).length
      let k := (sparesOf s x).length
      if k < n || (k == n && d < x) then some d else some x) none
  match best apart with
  | some d => some (d, false)
  | none => (best ok).map fun d => (d, true)

/-- Retires the FREE band of lowest mean wear of the endurance group's stripe group with the most FREE bands above its
reserve, to gain SPARE blocks (R283). None where that would take a group to its reserve. -/
def retireForSpares (sg : Nat) (s : State) : Option State :=
  let gs := ((s.reg.egs.find? fun e => e.groups.contains sg).map (·.groups)).getD [sg]
  let able := gs.filter fun g => reserveOf s g + 1 < (freeBands s g).length
  let pick := able.foldl (fun a g => match a with
    | none => some g
    | some h => if (freeBands s h).length - reserveOf s h < (freeBands s g).length - reserveOf s g then some g else some h)
      none
  pick.bind fun g => (bestBy (fun b => -(wearMean s b : Int)) (freeBands s g)).map fun b => retireBand b s

/-- Gives a member of a band a substitute and records SUBST_START (R282, R283, R285). None where no die can give one. -/
def assignSubst (g : Group) (b : Band) (m : Nat) (s : State) : Option State :=
  let go := fun (s : State) => (substDie s g b).bind fun x => (sparesOf s x.1).head?.map fun k => (x, k, s)
  ((go s).or ((retireForSpares g.sg s).bind go)).map fun ((d, shared), k, s1) =>
    let e : SjEntry := { sjBlank 0x12 with band := b.idx, member := m, die := d, block := k.block }
    let s2 := sjAppend g.sg e (updBlk d k.block (fun k => { k with
      state := if b.mapBand then .mapBand else .good, placed := 0, grains := 0, live := 0, summary := 0 }) s1)
    let s3 := { s2 with red := { s2.red with
      stalled := s2.red.stalled.filter fun x => x != g.sg
      substs := s2.red.substs ++ [{ sg := g.sg, band := b.idx, member := m, die := d, block := k.block, done := false,
                                    shared := shared, next := 0 }] } }
    smartRefresh (if shared then bump (leaderTile s3 g.sg) .red_rebuild_subst_shared_ch s3 else s3)

/-- Healing of a group waits for blocks (R283). -/
def stallHealing (sg : Nat) (s : State) : State :=
  logEv .rebuildStalled (leaderTile s sg) [sg] { s with red := { s.red with stalled := (sg :: s.red.stalled).eraseDups } }

/-- A substitute is complete (R282, R285): SUBST_DONE is recorded and the band table names it by 0xFFFE. What the block table had of the
member it stands for is its own from then on (R199, R287). -/
def completeSubst (x : Subst) (s : State) : State :=
  let at_ := servingAt s x.sg x.band x.member
  let old := findBlk s at_.1 at_.2
  let name := fun (b : Band) => if b.named.any fun y => y.1 == x.member then b.named else b.named ++ [(x.member, at_)]
  sjAppend x.sg { sjBlank 0x13 with band := x.band, member := x.member, die := x.die, block := x.block }
    (updBand x.sg x.band (fun b => { b with named := name b, blocks := b.blocks.set x.member 0xFFFE })
      (updBlk x.die x.block (fun k => match old with
        | some o => { k with placed := o.placed, grains := o.grains, live := o.live, summary := o.summary }
        | none => k)
        { s with red := { s.red with substs := s.red.substs.map fun y => if y == x then { y with done := true } else y } }))

/-- Members of a band that wait for a substitute to be started. -/
def unstarted (s : State) (g : Group) (b : Band) : List Nat :=
  (bandLost s g b).filter fun m => !s.red.substs.any fun x => x.sg == g.sg && x.band == b.idx && x.member == m

/-- Gives every lost member of a FREE band its substitute, which holds nothing yet (R278, R284). -/
def substForFree (g : Group) (b : Band) (s : State) : Option State :=
  ((unstarted s g b).foldl (fun (a : Option State) m => a.bind (assignSubst g b m)) (some s)).map fun s1 =>
    (s1.red.substs.filter fun x => x.sg == g.sg && x.band == b.idx && !x.done).foldl (fun s x => completeSubst x s) s1

/-- Opens a band for a stream (R195, R197, R198, R278). Lost members get their substitutes first. `blank` gives, member by member, the
programmed bits of the worst sample page after the re-erases of R198; a member that still fails is replaced, and the band is not
opened. -/
def openNewBand (sg : Nat) (st : Stream) (blank : List Nat) (s : State) : State × Option Nat :=
  match bandToOpen s sg st with
  | none => (s, none)
  | some b => match (findGroup s sg).bind fun g => substForFree g b s with
    | none => (stallHealing sg s, none)
    | some s1 =>
      let limit := s.tfld (leaderTile s sg) .rcl_blank_blank_fail_max
      match ((blank.zipIdx).filter fun x => limit < x.1).map (·.2) with
      | [] => (bandOpened ((findBand s1 sg b.idx).getD b) (slcStream st) st s1, some b.idx)
      | bad => (bad.foldl (fun s m => replaceMember 1 sg b.idx m s) s1, none)

/-- A host band filled: its group gives its place to the group with the most FREE bands (R175). -/
def rotateActive (sg : Nat) (s : State) : State :=
  if !s.wr.active.contains sg then s
  else
    let cand := (s.red.groups.map (·.sg)).filter fun g => !s.wr.active.contains g
    let best := cand.foldl (fun best g => match best with
      | none => some g
      | some h => if (freeBands s h).length < (freeBands s g).length then some g else some h) none
    match best with
    | none => s
    | some g => if (freeBands s sg).length < (freeBands s g).length then
        { s with wr := { s.wr with active := s.wr.active.map fun x => if x == sg then g else x } } else s

/-- The extents of a band that are in flash, member by member and grain by grain (R201). -/
def bandExtents (s : State) (sg b : Nat) : List FExt := s.rcl.flash.filter fun x => x.sg == sg && x.band == b

/-- Gives up the substitutes of a band that are not complete: SUBST_ABORT is recorded, and what their rebuild has queued is dropped
(R287, R290). The block goes to a state. -/
def abortSubsts (st : BlkState) (sg b : Nat) (s : State) : State :=
  (s.red.substs.filter fun x => x.sg == sg && x.band == b && !x.done).foldl (fun s x =>
    sjAppend sg { sjBlank 0x14 with band := b, member := x.member, die := x.die, block := x.block }
      (updBlk x.die x.block (fun k => { k with state := st }) { s with
        red := { s.red with substs := s.red.substs.filter fun y => y != x }
        media := { s.media with ops := s.media.ops.filter fun o =>
          !(o.use == .rebuild && o.sg == sg && o.band == b && o.lba == x.member) } })) s

/-- Takes a SEALED band to RECLAIMING: every extent of it is to be scanned, or every record of a map-band band (R150, R195, R201, R203).
A band chosen for several reasons is relocated once (R227); healing of it ends (R287). -/
def startRelocation (w : Why) (sg b : Nat) (s0 : State) : State :=
  let s := if (findBand s0 sg b).any (fun x => x.state == .sealed) then abortSubsts .spare sg b s0 else s0
  updBand sg b (fun x => if x.state == .sealed then
    { x with
             state := .reclaiming, why := some w, committed := false, erased := [],
             toScan := if x.mapBand then (recordsIn s x).map (·.1)
               else ((bandExtents s sg b).mergeSort fun a c => decide (a.member < c.member) || (a.member == c.member && decide (a.addr ≤ c.addr))).map (·.addr) }
    else x) s

/-- Seals a band (R195). One that a sweep waits for is relocated at once (R223). -/
def sealBand (sg b : Nat) (s : State) : State :=
  match findBand s sg b with
  | none => s
  | some x =>
    if x.state != .open then s
    else
      let s1 := bandRecord 0x02 x 0xFF 0xFFFF 0xFFFF
        (updBand sg b (fun x => { x with state := .sealed, sealMin := s.island.minutes }) s)
      let s2 := if s1.rcl.sweeps.any fun w => w.state == 2 && w.bands.contains (sg, b) then startRelocation .sweep sg b s1 else s1
      if x.stream == .hostSlc || x.stream == .hostQlc then rotateActive sg s2 else s2

/-! ### Valid data (R199) and capacity (R108, R109, R187, R188) -/

/-- Valid grains of a block, scaled by `placed` to stay whole: v = data_grains × live / placed (R199). -/
def validGrains (k : Blk) : Nat := if k.placed == 0 then 0 else k.grains * k.live / k.placed

def dataMembers (s : State) (b : Band) : List Blk :=
  ((bandBlocks s b).filter fun x => x.1 < dataUnits s b.sg).map (·.2)
def bandValid (s : State) (b : Band) : Nat := ((dataMembers s b).map validGrains).sum
def bandCapacity (s : State) (b : Band) : Nat :=
  (dataMembers s b).length * rowsPerBand s * (if b.slc then planesOf s * 64 else 4 * planesOf s * 64)
/-- The valid fraction u of a band, in thousandths. -/
def validPermille (s : State) (b : Band) : Nat :=
  if bandCapacity s b == 0 then 0 else bandValid s b * 1000 / bandCapacity s b

/-- Raw bytes of a block in QLC (R140). -/
def blockBytes (s : State) : Nat := planesOf s * wordLines s * 4 * 16384

/-- The raw capacity of an endurance group: every block of its members' dies, whatever its use or state. -/
def rawOf (s : State) (g : Eg) : Nat :=
  (g.groups.map fun sg => ((findGroup s sg).map fun x => x.members.length * blocksPerLun s * blockBytes s).getD 0).sum

/-- Usable capacity U of an endurance group (R108): the data fraction of its good blocks in data bands, less the endgame
reserve, and the SLC floor of 0.5% of its raw capacity, rounded down to whole MiB. Spares, map band and seal band blocks
are in no data band. -/
def usable (s : State) (g : Eg) : Nat :=
  let per := g.groups.map fun sg =>
    let bs := (groupBands s sg).filter fun b => b.state != .retired
    (bs.length - reserveOf s sg) * dataUnits s sg * blockBytes s
  (per.sum - rawOf s g / 200) / 2 ^ 20 * 2 ^ 20

/-- Grains that a namespace's live extents occupy (R110). -/
def storedGrains (s : State) (n : Nat) : Nat :=
  let addrs := ((s.map.regions.filter fun x => x.nsid == n).flatMap fun x =>
    (x.spans.filter fun y => !y.zero && !stale s n y).map fun y => (y.addr, y.len)).eraseDups
  (addrs.map (·.2)).sum

/-- The physical fill f of an endurance group in thousandths (R187). -/
def fillPermille (s : State) (g : Eg) : Nat :=
  let used := ((s.reg.nss.filter fun n => n.endgid == g.id).map fun n => storedGrains s n.nsid * 256).sum
  if usable s g == 0 then 1000 else used * 1000 / usable s g

/-- The SLC buffer's share of the group's blocks, in hundredths of a percent (R187). -/
def slcShare (f : Nat) : Nat := if f ≤ 400 then 600 else if f ≤ 950 then 600 - (f - 400) else 50

def slcBands (s : State) (g : Eg) : List Band :=
  s.rcl.bands.filter fun b => g.groups.contains b.sg && !b.mapBand && b.slc && b.state != .free && b.state != .retired
def egBands (s : State) (g : Eg) : List Band := s.rcl.bands.filter fun b => g.groups.contains b.sg && !b.mapBand

/-- Occupancy of the SLC buffer in percent of its data capacity (R188). -/
def slcOccupancy (s : State) (g : Eg) : Nat :=
  let cap := ((egBands s g).map fun b => dataUnits s b.sg).sum * slcShare (fillPermille s g) * blockBytes s / (10000 * 4 * 256)
  if cap == 0 then 100 else ((slcBands s g).map (bandValid s)).sum * 100 / cap

/-- The blocks in SLC use exceed the buffer (R188). -/
def slcOver (s : State) (g : Eg) (size : Nat) : Bool :=
  decide ((egBands s g).length * size < (slcBands s g).length * 10000)

def oldestSlcBand (s : State) (sg : Nat) : Option Band :=
  bestBy (fun b => -(b.seq : Int)) ((groupBands s sg).filter fun b => b.slc && b.state == .sealed)

/-! ### Relocation (R201 to R206) -/

def streamOf : Why → Stream
  | .promotion => .promote
  | _ => .relocate

/-- Copies a live extent byte for byte into the stream's open band of the same group (R170, R201). -/
def copyLive (addr : Nat) (st : Stream) (s : State) : State :=
  match s.rcl.flash.find? (fun x => x.addr == addr) with
  | none => s
  | some x =>
    if !x.lost.isEmpty || s.wr.exts.any (fun e => e.src == some addr && !e.committed) then s
    else { s with wr := { s.wr with exts := s.wr.exts ++ [x.copy st (leaderTile s x.sg)] } }

/-- Copies out of a band that are not committed yet: extents being read or placed, or records of the map band not yet moved. -/
def openCopies (s : State) (sg b : Nat) : Bool :=
  (s.wr.exts.any fun e => e.src.isSome && !e.committed && (bandExtents s sg b).any fun x => e.src == some x.addr) ||
  (s.media.ops.any fun o => o.use == .copy && o.sg == sg && o.band == b) ||
  (findBand s sg b).any fun x => x.mapBand && !(recordsIn s x).isEmpty

/-! ### The map band (R149 to R151) -/

/-- Live records of an endurance group's map band and the band's capacity, in grains (R149 to R151). -/
def mapLive (s : State) (g : Eg) : Nat :=
  let mine := fun (n : Nat) => (nsOf s n).any fun x => x.endgid == g.id
  (((s.map.regions.filter fun x => mine x.nsid).filterMap fun x => x.l2.map (·.len)).sum) +
    ((s.map.dirs.filter fun d => mine d.nsid).map (·.len)).sum
def mapCapacity (s : State) (g : Eg) : Nat :=
  ((s.rcl.bands.filter fun b => b.mapBand && b.state != .retired && g.groups.contains b.sg).map fun b =>
    rowsPerBand s * dataUnits s b.sg * planesOf s * 64).sum

/-- Watches the live share of a map band (R151): above 80% the regions with the most spans are marked, at 95% host writes are held
until it is below 90%. -/
def mapBandCheck (g : Eg) (s : State) : State :=
  let live := mapLive s g
  let cap := mapCapacity s g
  let mine := fun (x : Region) => (nsOf s x.nsid).any fun y => y.endgid == g.id
  let most := (((s.map.regions.filter mine).map fun x => x.spans.length).max?).getD 0
  let s1 := if 80 * cap < 100 * live then { s with map := { s.map with
     regions := s.map.regions.map fun x =>
      if mine x && x.spans.length == most then { x with marked := true } else x } } else s
  let held := s.map.bandHigh.contains g.id
  if 95 * cap ≤ 100 * live && !held && cap != 0 then
    logEv .mapBandHigh 15 [g.id, 100 * live / cap] { s1 with map := { s1.map with bandHigh := s1.map.bandHigh ++ [g.id] } }
  else if 100 * live < 90 * cap && held then
    { s1 with map := { s1.map with bandHigh := s1.map.bandHigh.filter fun k => k != g.id } }
  else s1

/-- A group that reclaim can still gain a band in: a SEALED band below 97% valid (R216). -/
def canGain (s : State) (sg : Nat) : Bool :=
  (groupBands s sg).any fun b => b.state == .sealed && decide (validPermille s b < 970) ||
    b.state == .reclaiming || b.state == .erasePending || b.state == .erasing

/-- Host writes of an endurance group wait: no group of it can open a host band, and some can still gain one (R215). -/
def waitsForReclaim (s : State) (eg : Nat) : Bool :=
  match s.reg.egs.find? (fun g => g.id == eg) with
  | none => false
  | some g => !g.groups.isEmpty && (g.groups.all fun sg => decide ((freeBands s sg).length ≤ reserveOf s sg) &&
      !(groupBands s sg).any fun b => b.state == .open && !b.early && hostBand b) &&
      g.groups.any (canGain s)
where
  hostBand (b : Band) : Bool := b.stream == .hostSlc || b.stream == .hostQlc

/-! ### The demand, the score and the wear (R208 to R213) -/

/-- The score of a band (R209): (1 − u)/(1 + u) × (1 + w·A/720). -/
def score (s : State) (b : Band) : Rat :=
  let u : Rat := if bandCapacity s b == 0 then 0 else (bandValid s b : Rat) / (bandCapacity s b : Nat)
  let hours := min 720 ((s.island.minutes - b.sealMin) / 60)
  let w := s.tfld (leaderTile s b.sg) .rcl_score_age_weight
  (1 - u) / (1 + u) * (1 + (w * hours : Nat) / 720)

/-- The victim of a group: the highest score among SEALED QLC bands below 97% valid, ties to the lowest band_seq; oldest
seal first until the census is complete (R200, R209). -/
def victim (s : State) (sg : Nat) : Option Band :=
  let cand := (groupBands s sg).filter fun b => b.state == .sealed && !b.slc && decide (validPermille s b < 970)
  if s.rcl.censusDone.contains sg then
    cand.foldl (fun best b => match best with
      | none => some b
      | some c => if score s c < score s b || (score s c == score s b && b.seq < c.seq) then some b else some c) none
  else cand.foldl (fun best b => match best with
      | none => some b
      | some c => if b.sealMin < c.sealMin then some b else some c) none

/-- Wear of the GOOD blocks of a group's data bands. -/
def groupWear (s : State) (sg : Nat) : List Nat :=
  (groupBands s sg).flatMap fun b => ((bandBlocks s b).filter fun x => x.2.state == .good).map fun x => x.2.wear
def wearMax (s : State) (sg : Nat) : Nat := ((groupWear s sg).max?).getD 0
def wearMin (s : State) (sg : Nat) : Nat := ((groupWear s sg).min?).getD 0

/-- The source of castling: the SEALED QLC data band with the lowest wear, ties to the oldest seal (R213). -/
def castleSource (s : State) (sg : Nat) : Option Band :=
  ((groupBands s sg).filter fun b => b.state == .sealed && !b.slc).foldl (fun best b => match best with
    | none => some b
    | some c => if wearMean s b < wearMean s c || (wearMean s b == wearMean s c && b.sealMin < c.sealMin) then some b
                else some c) none

/-! ### Secure deallocation (R220 to R226) -/

/-- The three summary bits of a region (R221). -/
def summaryHas (sum n r : Nat) : Bool :=
  let h := ownerCrc n r
  bitOf sum (h % 256) && bitOf sum (h / 256 % 256) && bitOf sum (h / 65536 % 256)

/-- The sweep ID after another: 1 to 0x7FFF_FFFF, then 1 again (R224). -/
def nextId (n : Nat) : Nat := if 0x7FFFFFFF ≤ n then 1 else n + 1

/-- The first ID from `n` on that no known sweep has. -/
def skipIds (known : List Nat) : Nat → Nat → Nat
  | 0, n => n
  | k + 1, n => if known.contains n then skipIds known k (nextId n) else n

def freshSweepId (s : State) : Nat := skipIds (s.rcl.sweeps.map (·.id)) (s.rcl.sweeps.length + 1) s.rcl.nextSweep

/-- Opens a sweep for a secure deallocation (R223, R224): none while 16 run in the endurance group. -/
def openSweep (c : Cmd) (rs : List (Nat × Nat)) (s : State) : Option State :=
  let eg := ((s.reg.nss.find? fun n => n.nsid == c.cap.nsid).map (·.endgid)).getD 0
  if 16 ≤ (s.rcl.sweeps.filter fun w => w.eg == eg && w.state != 3 && (w.kept || (findCmd s (w.cmd.getD 0)).isSome)).length then none
  else
    let id := freshSweepId s
    let blocks : Nat := (rs.map (·.2)).sum
    let sync : Bool := blocks * 4096 ≤ 2 ^ 40
    let open_ := (s.wr.rows.filter fun r => r.state == .filling || r.state == .closed).map fun r => (r.sg, r.band, r.idx)
    let w : Sweep :=
      { id := id, nsid := c.cap.nsid, eg := eg, ranges := rs, kept := false, state := 1, unerased := 0, bands := [],
        doneBands := 0, relocBytes := 0, startMin := s.island.minutes, doneMin := 0, cmd := c.id, rows := open_ }
    some (updCmd c.id (fun c => { c with sweep := id, sweepSync := sync })
      { s with rcl := { s.rcl with sweeps := s.rcl.sweeps ++ [w], nextSweep := nextId id } })

/-- The summaries of every tile's blocks are there, so that sweeps can choose bands (R222). -/
def summariesReady (s : State) : Bool := (presentTiles s).all fun t => s.rcl.summariesDone.contains t

/-- Members of a band that have been retired without an erase count for the sweeps that wait for it (R224). -/
def countUnerased (x : Band) (n : Nat) (s : State) : State :=
  let count := fun (w : Sweep) => if x.sweepIds.contains w.id then { w with unerased := w.unerased + n } else w
  { s with rcl := { s.rcl with sweeps := s.rcl.sweeps.map count } }

/-- The candidate bands of a sweep (R223, step 4). -/
def sweepCandidates (s : State) (w : Sweep) : List Band :=
  let groups := ((s.reg.egs.find? fun g => g.id == w.eg).map (·.groups)).getD []
  let rs := (w.ranges.flatMap fun r => if r.2 == 0 then [] else
    (List.range ((r.1 + r.2 - 1) / 256 + 1 - r.1 / 256)).map (· + r.1 / 256)).eraseDups
  s.rcl.bands.filter fun b => groups.contains b.sg && !b.mapBand && b.state != .free && b.state != .retired &&
    (bandBlocks s b).any fun x => rs.any fun r => summaryHas x.2.summary w.nsid r

end Sys2Proof.Machine
end

