-- ==== Sys2Proof/Machine/WriteCmds.lean ====
section
/-!
DEFINITION. Sys2Proof/Machine/WriteCmds.lean: staging and mirroring, rows and reservations, program results, write
sequence and headroom leases, the SLC buffer and promotion (R34, R35, R110, R172 to R190, R195, R197, R198).
-/
namespace Sys2Proof.Machine
open Sys2Proof

/-! ### Staging and mirroring (R34, R179, R181, R184, R186) -/

/-- The tile that holds a member of a row (R29). -/
def memberTile (s : State) (e : Ext) : Nat := tileOfDie (servingAt s e.sg e.band e.member).1

/-- The tile that an extent is staged on: its member tile, or its mirror once the member tile is lost (R303). -/
def holderTile (s : State) (e : Ext) : Nat :=
  if !tileUp s (memberTile s e) && e.mirrorHeld then e.mirrorTile else memberTile s e

/-- Grains that a tile holds staged as member, in SRAM and in DRAM, and as mirror (R179, R181). -/
def stagedAs (s : State) (t : Nat) : List Ext :=
  s.wr.exts.filter fun e => holderTile s e == t &&
    (e.stage == .member || e.stage == .mirrored || e.stage == .bothHeld || e.stage == .confirmed)
def stagedGrains (s : State) (t : Nat) : Nat := ((stagedAs s t).map (·.len)).sum
def mirrorGrains (s : State) (t : Nat) : Nat :=
  ((s.wr.exts.filter fun e => e.mirrorHeld && e.mirrorTile == t && e.stage != .closed).map (·.len)).sum
def sramGrains (s : State) (t : Nat) : Nat := (((stagedAs s t).filter fun e => !e.inDram).map (·.len)).sum

/-- Staging memory of a tile in grains (R179). -/
def stageSram (s : State) (t : Nat) : Nat := s.tfld t .plc_stage_cfg_stage_sram_mib * 4096
def stageDram (s : State) (t : Nat) : Nat := s.tfld t .plc_stage_cfg_stage_dram_mib * 4096

/-- A tile's staging credit in grains: an equal part of the dump-set limit, at most half of its staging memory (R181, R303). -/
def creditGrains (s : State) (t : Nat) : Nat :=
  min (s.plp.limitMib * 4096 / max 1 (upTiles s).length) ((stageSram s t + stageDram s t) / 2)

/-- An extent may enter its member tile's staging: in normal mode against its credit (R181), in write-through mode where
the member and the mirror have room (R184). -/
def stagingRoom (s : State) (t len : Nat) : Bool :=
  if s.plp.writeThrough then
    decide (stagedGrains s t + mirrorGrains s t + len ≤ stageSram s t + stageDram s t) &&
    decide (stagedGrains s (mirrorOf s t) + mirrorGrains s (mirrorOf s t) + len ≤
      stageSram s (mirrorOf s t) + stageDram s (mirrorOf s t))
  else !s.plp.throttling && decide (stagedGrains s t + len ≤ creditGrains s t)

/-- The extents of a command that ends unfinished and that were never staged are dropped. -/
def dropStaging (c : Cmd) (s : State) : State :=
  { s with wr := { s.wr with
   exts := s.wr.exts.filter fun e =>
    !(e.cmd == c.id && e.src.isNone && (e.stage == .toPlace || e.stage == .sent)) } }

/-- A command whose extent fails to stage sends no update and ends (R35): with Namespace Not Ready where its tile's slot holds no key, else
with Internal Error. What it has staged is never mapped. -/
def stagingFails (e : Ext) (s : State) : State :=
  match findCmd s e.cmd with
  | none => s
  | some c => pump (finishCmd c.id (if keyLoaded s e.port (e.nsid - 1) then .internalError else .namespaceNotReady) 0 (dropStaging c s))

/-- EXTENT_STAGED (R35, R179): the member tile takes the extent into SRAM where it fits and into DRAM otherwise, and forwards
it to its mirror. Without room it waits in the port tile's pool (R181). `ok` is false where the extent could not be staged. -/
def extentStaged (q : Nat) (ok : Bool) (s : State) : State :=
  match findExt s q with
  | none => s
  | some e =>
    let t := memberTile s e
    if e.stage != .sent then s
    else if !ok then stagingFails e s
    else if !stagingRoom s t e.len then s
    else updExt q (fun e => { e with
      stage := .member, inDram := decide (stageSram s t < sramGrains s t + e.len), mirrorTile := mirrorOf s t }) s

def execExtentStaged (x : StagedExt) (s : State) : Host.Outcome State Fault Refusal := .next (extentStaged x.seq x.ok s)

/-- An extent whose member waits for a new mirror to take a copy it once had (R186). -/
def resyncing (e : Ext) : Bool := (e.stage == .bothHeld || e.stage == .confirmed) && !e.mirrorHeld

/-- MIRROR_COPY_RECEIVED (R179, R186): the mirror tile stores the copy and confirms to the member. The last copy that a new mirror
takes ends its resynchronisation. -/
def mirrorCopy (q : Nat) (s : State) : State :=
  match findExt s q with
  | none => s
  | some e =>
    if (e.stage != .member && e.mirrorHeld) || e.stage == .toPlace || e.stage == .sent || e.stage == .closed then s
    else
      let s1 := updExt q (fun e => { e with stage := if e.stage == .member then .mirrored else e.stage, mirrorHeld := true }) s
      if resyncing e && !(s1.wr.exts.any fun x => resyncing x && memberTile s1 x == memberTile s e) then
        logEv .mirrorResync (memberTile s e) [memberTile s e, e.mirrorTile, 1] s1 else s1

def execMirrorCopyReceived (q : Nat) (s : State) : Host.Outcome State Fault Refusal := .next (mirrorCopy q s)

/-- MIRROR_CONFIRM (R34): the member receives the mirror's confirmation and confirms both copies to the port tile. -/
def execMirrorConfirm (q : Nat) (s : State) : Host.Outcome State Fault Refusal :=
  .next (updExt q (fun e => if e.stage == .mirrored then { e with stage := .bothHeld } else e) s)

/-- A row whose timer has expired and whose placed extents are all confirmed closes (R177, R178, R186). -/
def rowSettled (s : State) (r : Row) : Bool :=
  (s.wr.exts.filter fun e => e.sg == r.sg && e.band == r.band && e.row == r.idx && e.stage != .toPlace).all fun e =>
    e.stage == .confirmed || e.stage == .closed

/-- Free grains of a row's units, filled with pads at close (R178). -/
def padOf (s : State) (r : Row) : Nat := (r.units.map fun u => unitGrains s r.stream - u.used).sum

/-- Closes a FILLING row when all its units are returned, or its timer has expired, and its extents are confirmed:
free runs are padded (R177, R178). -/
def closeRow (sg b i : Nat) (s : State) : State :=
  match findRow s sg b i with
  | none => s
  | some r =>
    if r.state != .filling || !(r.expired || r.units.all (·.returned)) || !rowSettled s r then s
    else rowRecord r 0 0 0 (addT (leaderTile s sg) .plc_pad_grains_count (padOf s r) (updRow sg b i (fun r => { r with
      state := .closed, closedMin := s.island.minutes, units := r.units.map fun u => { u with returned := true } }) s))

/-- STAGE_CONFIRM (R34, R35, R74): the port tile has the confirmation of both copies; with the last extent of a command
its map updates are sent, and a row that waited for it may close. -/
def stageConfirm (q : Nat) (s : State) : State :=
  match findExt s q with
  | none => s
  | some e =>
    if e.stage != .bothHeld then s
    else goMap e.cmd (closeRow e.sg e.band e.row (updExt q (fun e => { e with stage := .confirmed }) s))

def execStageConfirm (q : Nat) (s : State) : Host.Outcome State Fault Refusal := .next (stageConfirm q s)

/-! ### Reservations and rows (R175 to R178, R195, R197, R198, R214) -/

/-- The row a stream of a group is filling. -/
def fillingRow (s : State) (sg : Nat) (st : Stream) : Option Row :=
  s.wr.rows.find? fun r => r.sg == sg && r.stream == st && r.state == .filling

def openBand (s : State) (sg : Nat) (st : Stream) : Option Band :=
  s.rcl.bands.find? fun b => b.sg == sg && b.stream == st && b.state == .open && !b.mapBand && !b.early

/-- An EMPTY row becomes FILLING (R178): the next erased row of the band. -/
def newRow (b : Band) (s : State) : State :=
  let n := dataUnits s b.sg
  let r : Row := {
    sg := b.sg, band := b.idx, idx := b.nextRow, stream := b.stream, state := .filling,
    units := (List.range n).map fun m => { member := m, holder := none, used := 0, returned := false, recalled := false },
    timer := false, expired := false, parity := [], pBytes := [], qBytes := [], fps := [], done := [],
    settled := false, coarse := [], closedMin := 0 }
  updBand b.sg b.idx (fun b => { b with nextRow := b.nextRow + 1 }) { s with wr := { s.wr with rows := s.wr.rows ++ [r] } }

/-- The number of a band's rows still PROGRAMMING (R175). -/
def programmingRows (s : State) (sg b : Nat) : Nat :=
  (s.wr.rows.filter fun r => r.sg == sg && r.band == b && r.state == .programming).length

/-- Opens the next row of a stream's band, or a FREE band after its blank check (R175, R195, R197, R198). -/
def openRow (sg : Nat) (st : Stream) (blank : List Nat) (s : State) : State :=
  match openBand s sg st with
  | some b => if b.nextRow < rowsPerBand s && (!slcStream st || programmingRows s sg b.idx < 2) then newRow b s else s
  | none => match openNewBand sg st blank s with
    | (s1, some b) => match findBand s1 sg b with
      | some x => newRow x s1
      | none => s1
    | (s1, none) => s1

/-- Whether a group is one that host writes go to (R175): at most active_groups of them, and those with most FREE bands
first. -/
def hostGroup (s : State) (sg : Nat) : Bool :=
  s.wr.active.contains sg || decide (s.wr.active.length < s.tfld s.mgmt.primary .plc_groups_active_groups)

def hostOnly (st : Stream) : Bool := st == .hostSlc || st == .hostQlc

/-- A free unit of the row a stream is filling, in member order (R176). -/
def nextUnit (r : Row) : Option RUnit := r.units.find? fun u => u.holder.isNone && !u.returned

/-- RESERVATION_REQUEST (R176): the row leader hands the port tile the next data unit of the FILLING row. A port tile
holds at most two units of a stream, from different groups while two can give one. -/
def reserve (t sg : Nat) (st : Stream) (blank : List Nat) (s : State) : State :=
  let held := heldUnits s t st
  let others := s.wr.rows.any fun r => r.sg != sg && r.stream == st && r.state == .filling && (nextUnit r).isSome
  if 2 ≤ held.length || (held.any (fun x => x.1.sg == sg) && others) || s.tfld t .plc_cfg_plc_enable != 1 ||
      (hostOnly st && !hostGroup s sg) then s
  else
    let s1 := if (fillingRow s sg st).isSome then s else openRow sg st blank s
    match fillingRow s1 sg st with
    | none => s1
    | some r => match nextUnit r with
      | none => s1
      | some u =>
        let s2 := { s1 with wr := { s1.wr with
          active := if hostOnly st && !s1.wr.active.contains sg then s1.wr.active ++ [sg] else s1.wr.active } }
        placeWaiting t (updRow sg r.band r.idx (fun r => { r with
         units := r.units.map fun v =>
          if v.member == u.member then { v with holder := some t } else v }) s2)

def execReservationRequest (t sg : Nat) (st : Stream) (blank : List Nat) (s : State) :
    Host.Outcome State Fault Refusal := .next (reserve t sg st blank s)

/-- UNIT_RETURN (R177): a port tile returns a reserved unit; with the last the row closes. -/
def unitReturn (t sg : Nat) (st : Stream) (m : Nat) (s : State) : State :=
  match fillingRow s sg st with
  | none => s
  | some r =>
    if !r.units.any fun u => u.member == m && u.holder == some t && !u.returned then s
    else closeRow sg r.band r.idx (updRow sg r.band r.idx (fun r => { r with
     units := r.units.map fun u =>
      if u.member == m then { u with returned := true, holder := none } else u }) s)

def execUnitReturn (t sg : Nat) (st : Stream) (m : Nat) (s : State) : Host.Outcome State Fault Refusal :=
  .next (unitReturn t sg st m s)

/-- ROW_TIMER_EXPIRY (R177): the leader recalls every reservation; the row closes once its extents are confirmed. -/
def rowTimer (sg : Nat) (st : Stream) (s : State) : State :=
  match fillingRow s sg st with
  | none => s
  | some r =>
    if !r.timer then s
    else closeRow sg r.band r.idx (updRow sg r.band r.idx (fun r => { r with
      expired := true, units := r.units.map fun u => { u with recalled := u.holder.isSome } }) s)

def execRowTimerExpiry (sg : Nat) (st : Stream) (s : State) : Host.Outcome State Fault Refusal :=
  .next (rowTimer sg st s)

/-! ### Parity, programs and their results (R178, R180, R185, R190, R242, R243, R267, R268) -/

/-- PARITY_UNIT_RECEIVED (R178, R190, R267, R268): the P member's tile folds the unit that a data member's tile has staged into P and Q
and keeps its fingerprint; what is not that unit, whole, is not taken. With the last unit of a CLOSED row, and room in every member
tile's program budget, the programs are issued. -/
def parityUnit (sg b i m : Nat) (d : Bytes) (s : State) : State :=
  match findRow s sg b i with
  | none => s
  | some r =>
    if r.state != .closed || r.parity.contains m || dataUnits s sg ≤ m || d != rowUnit s r m then s
    else
      let s1 := updRow sg b i (fun r => { r with
        parity := r.parity ++ [m], pBytes := xorBytes r.pBytes d, qBytes := xorBytes r.qBytes (scaleBytes (gfPow m) d),
        fps := r.fps ++ [(m, crc64 d)] }) s
      startPrograms sg b i s1

def execParityUnitReceived (sg b i m : Nat) (d : Bytes) (s : State) : Host.Outcome State Fault Refusal :=
  .next (parityUnit sg b i m d s)

/-- Releases a programmed row (R93, R180, R184): its extents are in flash, and staging is free. Extents that were
relocated stay known until they are committed. -/
def releaseRow (sg b i : Nat) (s : State) : State :=
  let mine := fun (e : Ext) => e.sg == sg && e.band == b && e.row == i && e.stage != .toPlace
  let new := (s.wr.exts.filter mine).map (Ext.inFlash · [])
  drainPump { s with
    rcl := { s.rcl with flash := s.rcl.flash ++ new }
    wr := { s.wr with
      exts := (s.wr.exts.filter fun e => !(mine e && e.src.isNone)).map fun e =>
        if mine e then { e with stage := .closed } else e } }

/-- Charges bytes and die time of a copy to the work it is copied for (R120): castling and rebuild to the overhead, a sweep to the
namespace that is swept, promotion and reclaim to the namespace of the extent; an extent of a command to its pair. -/
def chargeExt (t : Nat) (e : Ext) (f : Meter → Meter) (s : State) : State :=
  match e.src with
  | none => chargePair t e.payer e.nsid f s
  | some a => match s.rcl.flash.find? fun x => x.addr == a with
    | none => if e.payer == Payer.device then chargeBack t e.nsid f s else chargePair t e.payer e.nsid f s
    | some x => chargeCopy t x.sg x.band e.nsid f s

/-- Charges a programmed row (R120): its bytes with parity and padding, and the time of its programs, in proportion to grains; what
rounding leaves, and a row of padding alone, go to the overhead. -/
def meterRow (r : Row) (s : State) : State :=
  let t := leaderTile s r.sg
  let n := memberCount s r.sg
  let bytes := n * unitGrains s r.stream * 256
  let us := n * (descHalf s 0 (if slcStream r.stream then 16 else 18) + transferUs s (memberDie s r.sg 0) (4 * unitPages s r.stream))
  let es := s.wr.exts.filter fun e => e.sg == r.sg && e.band == r.band && e.row == r.idx && e.stage != .toPlace
  let g := (es.map (·.len)).sum
  let s1 := es.foldl (fun s e => chargeExt t e (fun m => (m.addMedia (bytes * e.len / g)).addDie (us * e.len / g)) s) s
  let s2 := chargeOver t (fun m => (m.addMedia (bytes - (es.map fun e => bytes * e.len / g).sum)).addDie
    (us - (es.map fun e => us * e.len / g).sum)) s1
  countEgMedia (((s.reg.egs.find? fun e => e.groups.contains r.sg).map (·.id)).getD 0) bytes s2

/-- ROW_PROGRAM_DONE (R178, R180, R195): every member reported success and the word lines are settled. -/
def rowProgrammed (sg b i : Nat) (s : State) : State :=
  match findRow s sg b i, findBand s sg b with
  | some r, some x =>
    if r.state != .programming || !membersDone s r || !r.settled then s
    else
      let s1 := reportRow r (releaseRow sg b i { meterRow r s with wr := { s.wr with
        rows := s.wr.rows.filter fun q => !isRow sg b i q } })
      let s2 := updBand sg b (fun x => { x with rows := x.rows + 1 }) s1
      startClosed (if x.rows + 1 == rowsPerBand s || (x.early && !(s2.wr.rows.any fun q => q.sg == sg && q.band == b)) then
        sealBand sg b s2 else s2)
  | _, _ => s

def execRowProgramDone (sg b i : Nat) (s : State) : Host.Outcome State Fault Refusal :=
  .next (rowProgrammed sg b i s)

/-- A row that cannot stay and any later row of its band are re-placed byte for byte into RELOCATE rows of another group,
and the band is sealed early (R185, R186, R278). -/
def reprogramRow (sg b i : Nat) (s : State) : State :=
  match findRow s sg b i with
  | none => s
  | some _ =>
    let hit := fun (e : Ext) => e.sg == sg && e.band == b && decide (i ≤ e.row) && e.stage != .toPlace && e.stage != .closed
    let other := otherGroup s sg
    let s1 := { s with
      wr := { s.wr with
        rows := s.wr.rows.filter fun q => !(q.sg == sg && q.band == b && decide (i ≤ q.idx))
        exts := s.wr.exts.map fun e => if hit e then
          { e with
                   src := some (e.src.getD e.addr), stream := .relocate, port := leaderTile s other, sg := other, stage := .toPlace,
                   replacing := true } else e }
      media := { s.media with
       ops := s.media.ops.filter fun o =>
        !(o.kind == .program && o.state == .waiting && o.sg == sg && o.band == b && decide (i ≤ o.row)) } }
    sealBand sg b (updBand sg b (fun x => { x with early := true }) s1)

/-- A program on a substitute fails (R287): the block becomes GROWN_BAD and the substitute is given up. -/
def substFailed (sg b m : Nat) (s : State) : State :=
  match s.media.ops.find? fun o => o.kind == .program && o.use == .rebuild && o.sg == sg && o.band == b && o.lba == m &&
      o.state != .waiting with
  | none => s
  | some o => abortSubsts .grownBad sg b (countLife 2 (logEv .progFail (tileOfDie o.die) [o.die, blockOf o.addr] (endArray o (dropOp o.id s))))

/-- A program in a map-band block fails (R193): the write-back is given up, its page or directory record still dirty, and the band sealed;
its member is retired once the band's records are relocated, like a data band's. -/
def mapProgramFailed (sg b m : Nat) (s : State) : State :=
  let failing := fun (o : DieOp) => o.kind == .program && o.state != .waiting && o.die == (servingAt s sg b m).1 &&
    (bandOfBlock s o.die (blockOf o.addr)).any fun y => y.1.sg == sg && y.1.idx == b
  match s.media.ops.find? fun o => failing o && match o.use with
      | .mapWrite _ _ _ => true
      | _ => false with
  | none => s
  | some o =>
    let s1 := countLife 2 (logEv .progFail (tileOfDie o.die) [o.die, blockOf o.addr] (endArray o (dropOp o.id s)))
    sealBand sg b (updBand sg b (fun x => { x with early := true, retireMembers := (m :: x.retireMembers).eraseDups })
      { s1 with map := { s1.map with
          regions := s1.map.regions.map fun x => if x.wb.any (fun w => w.addr == o.addr) then { x with wb := none } else x
          dirs := s1.map.dirs.map fun d => if d.wb.any (fun w => w.addr == o.addr) then { d with wb := none } else d } })

/-- PROGRAM_FAILURE (R185, R193, R195, R287): the row is re-placed, the failing member marked; the host sees no error. -/
def programFailed (sg b i m : Nat) (s : State) : State :=
  match findRow s sg b i with
  | none => substFailed sg b m (mapProgramFailed sg b m s)
  | some r =>
    if r.state != .programming then s
    else
      let x := servingAt s sg b m
      countLife 2 <| finishDieOp x.1 .program (reprogramRow sg b i (logEv .progFail (tileOfDie x.1) [x.1, x.2]
        (updBand sg b (fun x => { x with retireMembers := (m :: x.retireMembers).eraseDups }) s)))

def execProgramFailure (sg b i m : Nat) (s : State) : Host.Outcome State Fault Refusal :=
  .next (programFailed sg b i m s)

/-- SEQ_PAD_TIMER (R184, R243): rows wait to settle and none has closed: the leader closes an empty padded row. -/
def seqPad (sg : Nat) (st : Stream) (s : State) : State :=
  if s.wr.rows.any (fun r => r.sg == sg && r.stream == st && r.state == .programming && !r.settled) &&
      (fillingRow s sg st).isNone then
    match openBand s sg st with
    | none => s
    | some b =>
      if b.nextRow < rowsPerBand s then
        match fillingRow (newRow b s) sg st with
        | some r => closeRow sg r.band r.idx (updRow sg r.band r.idx (fun r => { r with
            expired := true, units := r.units.map fun u => { u with returned := true } }) (newRow b s))
        | none => s
      else s
  else s

def execSeqPadTimer (sg : Nat) (st : Stream) (s : State) : Host.Outcome State Fault Refusal := .next (seqPad sg st s)

/-! ### Leases (R110, R172) -/

/-- WRITE_SEQUENCE_LEASE (R172): 4,096 new values when half of the current lease is used. No lease goes beyond the
persisted mark, which advances by 2^20. -/
def seqLeaseNew (t : Nat) (s : State) : State :=
  let l := seqLease s t
  if l.more.isSome || l.next + 2048 < l.last then s
  else
    let mark := if s.wr.seqMark < s.wr.seqNext + 4096 then s.wr.seqMark + 2 ^ 20 else s.wr.seqMark
    let l' : SeqLease :=
      if l.next == l.last then { tile := t, next := s.wr.seqNext, last := s.wr.seqNext + 4096, more := none }
      else { l with more := some s.wr.seqNext }
    { s with wr := { s.wr with
      leases := (s.wr.leases.filter fun x => !(x.tile == t)) ++ [l'], seqNext := s.wr.seqNext + 4096, seqMark := mark } }

def execWriteSequenceLease (t : Nat) (s : State) : Host.Outcome State Fault Refusal := .next (seqLeaseNew t s)

/-- HEADROOM_LEASE_REQUEST (R110): 65,536 blocks, or 256 once the unleased headroom is below 8 leases and unused leases
have been recalled. -/
def headroomLease (t n : Nat) (s : State) : State :=
  match nsOf s n with
  | none => s
  | some _ =>
    if headroom s n < 8 * 65536 then
      let s1 := recallLeases n s
      setLease t n (min 256 (headroom s1 n)) s1
    else setLease t n (leaseLeft s t n + 65536) s

def execHeadroomLeaseRequest (t n : Nat) (s : State) : Host.Outcome State Fault Refusal := .next (headroomLease t n s)

/-! ### The SLC buffer and promotion (R187 to R189) -/

/-- SLC_BUFFER_RECOMPUTE (R187, R188), every 1 s and for every endurance group. -/
def slcRecompute (s : State) : State :=
  { s with reg := { s.reg with
     egs := s.reg.egs.map fun g =>
      let size := slcShare (fillPermille s g)
      let full := decide (s.tfld s.mgmt.primary .plc_slc_cfg_slc_direct_pct ≤ slcOccupancy s g)
      let low := decide (slcOccupancy s g < s.tfld s.mgmt.primary .plc_slc_cfg_slc_resume_pct)
      let idle := decide (slcOccupancy s g ≤ s.tfld s.mgmt.primary .plc_slc_cfg_promote_start_pct)
      { g with slcBuffer := size, slcClosed := slcOver s g size || full || (g.slcClosed && !low), idlePromo := idle } } }

def execSlcBufferRecompute (s : State) : Host.Outcome State Fault Refusal := .next (slcRecompute s)

/-- PROMOTION_START (R189, R211): the oldest sealed SLC band of the group becomes the source. -/
def promotionStart (sg : Nat) (s : State) : State :=
  match oldestSlcBand s sg with
  | none => s
  | some b => startRelocation .promotion sg b.idx s

def execPromotionStart (sg : Nat) (s : State) : Host.Outcome State Fault Refusal := .next (promotionStart sg s)

end Sys2Proof.Machine
end

