-- ==== Sys2Proof/Machine/ReclaimCmds.lean ====
section
/-!
DEFINITION. Sys2Proof/Machine/ReclaimCmds.lean: the steps of reclaim, castling, erase, census, summaries, stalemate and
secure sweeps, and the features and log of secure deallocation (R195 to R227).
-/
namespace Sys2Proof.Machine
open Sys2Proof

/-! ### Stalemate (R216, R217) -/

/-- An endurance group that can gain no band: census complete, every group with F ≤ E, and none that can gain (R216). -/
def inStalemate (s : State) (g : Eg) : Bool :=
  !g.groups.isEmpty && g.groups.all fun sg =>
    s.rcl.censusDone.contains sg && decide ((freeBands s sg).length ≤ reserveOf s sg) && !canGain s sg

/-- A group of it has F ≥ E + 1 (R217). -/
def leavesStalemate (s : State) (g : Eg) : Bool :=
  g.groups.any fun sg => decide (reserveOf s sg + 1 ≤ (freeBands s sg).length)

def setEg (id : Nat) (f : Eg → Eg) (s : State) : State :=
  { s with reg := { s.reg with egs := s.reg.egs.map fun g => if g.id == id then f g else g } }

/-- Stalemate begins (R216): an asynchronous event goes to every controller, or where the critical warning stays as it is to those with a
namespace in the group. -/
def stalemateEnter (g : Eg) (s : State) : State :=
  if g.stalemate || !inStalemate s g then s
  else
    let s1 := logEv .stalemateEnter 15 [g.id] (setEg g.id (fun g => { g with stalemate := true }) s)
    if critWarning s1 != s1.health.crit then smartRefresh s1
    else ((s1.host.ctrls.filter fun c => s1.reg.nss.any fun n => n.endgid == g.id && attachedTo s1 c n.nsid).map (·.cntlid)).foldl
      (fun s k => raiseAen k 1 0 s) s1

def stalemateExit (g : Eg) (s : State) : State :=
  if g.stalemate && leavesStalemate s g then
    smartRefresh <| logEv .stalemateExit 15 [g.id] (setEg g.id (fun g => { g with stalemate := false }) s)
  else s

/-! ### Choosing (R208 to R213) -/

/-- Castling starts, goes on or stops in a group (R213). -/
def castleStep (sg : Nat) (s : State) : State :=
  let limit := s.tfld (leaderTile s sg) .rcl_castle_castle_limit * 16
  let spread := wearMax s sg - wearMin s sg
  let on := s.rcl.castling.contains sg
  let running := decide (limit < spread) || (on && decide (3 * limit < 4 * spread))
  let s1 := { s with rcl := { s.rcl with
   castling :=
    (s.rcl.castling.filter fun g => g != sg) ++ (if running then [sg] else []) } }
  if running && reserveOf s sg + 2 < (freeBands s sg).length &&
      !(groupBands s sg).any (fun b => b.why == some .castling && b.state == .reclaiming) then
    match castleSource s sg with
    | some b => startRelocation .castling sg b.idx s1
    | none => s1
  else s1

/-- The SEALED band of a group that is relocated first: one with a member to retire (R185, R195), or one marked for refresh (R259). -/
def urgentBand (s : State) (sg : Nat) : Option Band :=
  let full := (groupBands s sg).filter fun b => b.state == .sealed
  (full.find? fun b => !b.retireMembers.isEmpty).or (full.find? fun b => s.media.refresh.contains (sg, b.idx))

/-- Idle reclaim becomes reclaim where the group's FREE bands fall below h (R208, R210). -/
def wakeIdle (sg : Nat) (s : State) : State :=
  { s with rcl := { s.rcl with bands := s.rcl.bands.map fun b =>
      if b.sg == sg && b.why == some .idle then { b with why := some .reclaim } else b } }

/-- Reclaim of one group (R185, R208 to R210, R259): an urgent band goes first; below h the best victim is taken; with idle_reclaim a band
of u below idle_u_pct; one victim at a time. -/
def reclaimStep (sg : Nat) (s0 : State) : State :=
  let t := leaderTile s0 sg
  let low := decide ((freeBands s0 sg).length < reserveOf s0 sg + s0.tfld t .rcl_thresh_rcl_start_bands)
  let s := if low then wakeIdle sg s0 else s0
  if s.tfld t .rcl_cfg_rcl_enable != 1 || (groupBands s sg).any (fun b => b.state == .reclaiming) then s
  else match urgentBand s sg with
  | some b =>
    startRelocation (if b.retireMembers.isEmpty then .refresh else .reclaim) sg b.idx s
  | none => match victim s sg with
    | none => s
    | some b =>
      if low then startRelocation .reclaim sg b.idx s
      else if s.tfld t .rcl_cfg_idle_reclaim == 1 &&
          validPermille s b < 10 * s.tfld t .rcl_score_idle_u_pct then startRelocation .idle sg b.idx s
      else s

/-- The next band of a group's map band to reclaim (R193, R211, R259): one with a member to retire or marked for refresh; where fewer than
two are FREE, the one with the fewest live grains. -/
def mapVictim (s : State) (sg : Nat) : Option Band :=
  let bs := s.rcl.bands.filter fun b => b.sg == sg && b.mapBand
  let live := fun b => ((recordsIn s b).map (·.2)).sum
  let full := bs.filter fun b => b.state == .sealed
  (full.find? fun b => !b.retireMembers.isEmpty || s.media.refresh.contains (sg, b.idx)).or
    (if 2 ≤ (bs.filter fun b => b.state == .free).length then none else bestBy (fun b => -(live b : Int)) full)

/-- Reclaim of a group's map band, one band at a time (R150, R211). -/
def mapReclaimStep (sg : Nat) (s : State) : State :=
  if s.tfld (leaderTile s sg) .rcl_cfg_rcl_enable != 1 ||
      s.rcl.bands.any (fun b => b.sg == sg && b.mapBand && b.state == .reclaiming) then s
  else match mapVictim s sg with
    | some b => startRelocation .mapReclaim sg b.idx s
    | none => s

/-- RECLAIM_RESCORE (R150, R151, R209), every 100 ms: victims, castling and stalemate of every group, and the map bands. -/
def rescore (s : State) : State :=
  let sgs := s.red.groups.map (·.sg)
  let s1 := sgs.foldl (fun s g => mapReclaimStep g (castleStep g (reclaimStep g s))) s
  s1.reg.egs.foldl (fun s g => stalemateEnter g (mapBandCheck g s)) s1

def execReclaimRescore (s : State) : Host.Outcome State Fault Refusal := .next (rescore s)

/-- Whether an extent is the next that a band's scan comes to (R189, R201): each member's tile goes through its units from their first grains,
promotion through one member after the other. -/
def nextScan (x : Band) (addr : Nat) : Bool :=
  if x.why == some .promotion then x.toScan.head? == some addr
  else (x.toScan.find? fun a => dieOf a == dieOf addr) == some addr

/-- LIVENESS_QUERY (R189, R201, R202, R227): the owner's mask for one extent of a band being relocated; an extent with live
blocks is read, in the class of the work, to be copied; one that is known not to be readable is not, and its mapped blocks are lost. -/
def livenessQuery (sg b addr : Nat) (s : State) : State :=
  match findBand s sg b with
  | none => s
  | some x =>
    if x.state != .reclaiming || !nextScan x addr then s
    else
      let s1 := updBand sg b (fun x => { x with toScan := x.toScan.filter fun a => a != addr }) s
      match s.rcl.flash.find? (fun e => e.addr == addr) with
      | none => s1
      | some e =>
        let m := livenessMask s e.nsid e.slba e.nblk addr e.seq
        if m.isEmpty then s1
        else if !e.lost.isEmpty then loseBlocks e (m.filter fun k => !e.lost.contains k) s1
        else
          addRead { blankOp .read (whyClass x.why) (servingDie s sg b e.member (dieOf addr)) with
            use := .copy, words := wordsOf addr e.len, addr := addr, sg := sg, band := b, row := e.row, member := e.member } s1

/-- An extent that was read for a relocation is copied (R201); one that could not be read, nor reconstructed, is not, and its
still-mapped blocks are lost (R202). -/
def copyRead (o : DieOp) (ok : Bool) (s : State) : State :=
  match findBand s o.sg o.band, s.rcl.flash.find? (fun e => e.addr == o.addr) with
  | some x, some e =>
    if x.state != .reclaiming then s
    else if !ok then loseBlocks e (livenessMask s e.nsid e.slba e.nblk o.addr e.seq) s
    else
      let s1 := { s with rcl := { s.rcl with
       sweeps := s.rcl.sweeps.map fun w =>
        if x.sweepIds.contains w.id then { w with relocBytes := w.relocBytes + 256 * e.len } else w } }
      let n := if x.why == some .promotion then Fld.plc_promoted_count else .rcl_reloc_grains_count
      addT (leaderTile s o.sg) n e.len (copyLive o.addr (streamOf (x.why.getD .reclaim)) s1)
  | _, _ => s

def execLivenessQuery (sg b addr : Nat) (s : State) : Host.Outcome State Fault Refusal :=
  .next (livenessQuery sg b addr s)

/-- Every RELOCATE entry of a band is durable where the mode asks for it (R203, R205). -/
def entriesDurable (s : State) (sg b : Nat) : Bool :=
  !s.plp.writeThrough || (bandExtents s sg b).all fun e =>
    decide ((findJournal s (ownerSlot s e.nsid (e.slba / 256))).head ≤
      (findJournal s (ownerSlot s e.nsid (e.slba / 256))).durable)

/-- Charges the erases of a band whose copies are committed (R120): divided by the grains relocated; with none of them, and for
castling and rebuild, to the overhead. DEDUCED: charged when the copies are committed. -/
def meterErase (x : Band) (copies : List Ext) (s : State) : State :=
  let t := leaderTile s x.sg
  let us := (x.blocks.length - x.retireMembers.length) * descHalf s 0 20
  let g := (copies.map (·.len)).sum
  let s1 := copies.foldl (fun s e => chargeExt t e (Meter.addDie (us * e.len / g)) s) s
  chargeOver t (Meter.addDie (us - (copies.map fun e => us * e.len / g).sum)) s1

/-- RELOCATION_COMMITTED (R195, R203 steps 2 and 3): every copy is committed; BAND_RECLAIMABLE is recorded. -/
def relocationCommitted (sg b : Nat) (s : State) : State :=
  match findBand s sg b with
  | none => s
  | some x =>
    if x.state != .reclaiming || !x.toScan.isEmpty || openCopies s sg b || !entriesDurable s sg b then s
    else
      let srcs := (bandExtents s sg b).map (·.addr)
      let mine := fun (e : Ext) => e.committed && e.stage == .closed && srcs.any fun a => e.src == some a
      let s0 := meterErase x (s.wr.exts.filter mine) s
      let s1 := { s0 with wr := { s0.wr with exts := s0.wr.exts.filter fun e => !mine e } }
      bandRecord 0x03 x 0xFF 0xFFFF 0xFFFF
        (updBand sg b (fun x => { x with state := .erasePending, committed := true, drainMs := s.nowMs }) s1)

def execRelocationCommitted (sg b : Nat) (s : State) : Host.Outcome State Fault Refusal :=
  .next (relocationCommitted sg b s)

/-- Reads of a band's members queued or in progress (R204). -/
def readsPending (s : State) (x : Band) : Bool :=
  s.media.ops.any fun o => o.kind == .read && (bandBlocks s x).any fun y => y.2.die == o.die && (servedFrom s o.addr).2 == y.2.block

/-- The erases of a band are issued (R195, R203 step 5); a member marked for retirement is not erased and is replaced, with a cause of
BLOCK_RETIRED, nor is one on a die that is lost; both count for the sweeps that wait (R224, R287). -/
def startErases (x : Band) (s : State) : State :=
  let cause := fun (s : State) (m : Nat) => if (bandBlocks s x).any fun y => y.1 == m && y.2.retire then 3 else 2
  let lost := (List.range x.blocks.length).filter fun m => !x.retireMembers.contains m && !dieServes s (servingAt s x.sg x.idx m).1
  let left := x.retireMembers.length + lost.length
  let s1 := updBand x.sg x.idx (fun x => { x with state := .erasing, erased := [] }) s
  addT (leaderTile s x.sg) .rcl_erases_count (x.blocks.length - left)
    (enqueueErases x (x.retireMembers.foldl (fun s m => replaceMember (cause s m) x.sg x.idx m s) (countUnerased x left s1)))

/-- ERASE_DRAIN_END (R195, R203 steps 4 and 5, R204, R205): ERASE_INTENT is recorded, and once it is durable and the erases fit the program
budget they are issued. In write-through mode the record waits for the tail, and the band for another such end. -/
def eraseDrain (sg b : Nat) (s : State) : State :=
  match findBand s sg b with
  | none => s
  | some x =>
    if x.state != .erasePending || s.nowMs < x.drainMs + 1 || readsPending s x || !recordsDurable s sg b || !programRoom s sg b then s
    else
      let s1 := if intentRecorded s x then s else bandRecord 0x04 x 0xFF 0xFFFF 0xFFFF s
      if recordsDurable s1 sg b then startErases x s1 else s1

def execEraseDrainEnd (sg b : Nat) (s : State) : Host.Outcome State Fault Refusal := .next (eraseDrain sg b s)

/-- Wear of an erase in units of 1/16 cycle, saturating (R212). -/
def addWear (s : State) (sg : Nat) (slc : Bool) (w : Nat) : Nat :=
  sat 0xFFFFFF (w + (if slc then s.tfld (leaderTile s sg) .rcl_castle_slc_wear_units else 16))

/-- The band is FREE: ERASE_DONE is recorded, wear is added, summaries and the block table clear, and what was in its
blocks is gone (R195, R199, R203, R212, R221). -/
def bandFreed (sg b : Nat) (s : State) : State :=
  match findBand s sg b with
  | none => s
  | some x =>
    let s1 := (bandBlocks s x).foldl (fun s y => updBlk y.2.die y.2.block (fun k => { k with
      wear := if x.retireMembers.contains y.1 then k.wear else addWear s sg x.slc k.wear,
      placed := 0, grains := 0, live := 0, summary := 0 }) s) s
    let s2 := bandRecord 0x05 x 0xFF 0xFFFF 0xFFFF (updBand sg b (fun x => { x with
      state := .free, rows := 0, nextRow := 0, early := false, retireMembers := [], why := none }) s1)
    let s3 := sweepBandDone sg b { s2 with
      media := { s2.media with refresh := s2.media.refresh.filter fun x => x != (sg, b) }
      rcl := { s2.rcl with flash := s2.rcl.flash.filter fun e => !(e.sg == sg && e.band == b) }
      red := { s2.red with
        lostSlots := s2.red.lostSlots.filter fun l => !(l.sg == sg && l.band == b)
        unresolved := s2.red.unresolved.filter fun x => x != (sg, b) } }
    s3.reg.egs.foldl (fun s g => stalemateExit g s) s3

/-- NAND_ERASE_DONE (R84, R195): a member is erased; with the last the band is FREE. The die dispatches its next. -/
def eraseDone (sg b m : Nat) (s : State) : State :=
  match findBand s sg b with
  | none => s
  | some x =>
    if x.state != .erasing || x.erased.contains m then s
    else
      let s1 := finishDieOp (servingAt s sg b m).1 .erase (updBand sg b (fun x => { x with erased := x.erased ++ [m] }) s)
      if (List.range x.blocks.length).all fun k => k == m || x.erased.contains k || x.retireMembers.contains k ||
          x.blocks[k]? == some 0xFFFF || !dieServes s (servingAt s sg b k).1 then startClosed (bandFreed sg b s1)
      else startClosed s1

def execNandEraseDone (sg b m : Nat) (s : State) : Host.Outcome State Fault Refusal := .next (eraseDone sg b m s)

/-- ERASE_FAILURE (R195, R207, R224): the member becomes GROWN_BAD; a spare takes its place, is erased and checked, or
the band is retired. `blank` gives the check of each spare tried. -/
def eraseFailed (sg b m : Nat) (blank : List Nat) (s : State) : State :=
  match findBand s sg b with
  | none => s
  | some x =>
    if x.state != .erasing then s
    else
      let limit := s.tfld (leaderTile s sg) .rcl_blank_blank_fail_max
      let tries := (blank.takeWhile fun v => limit < v).length
      let s1 := countLife 3 ((List.range (tries + 1)).foldl (fun s _ => replaceMember 0 sg b m s) s)
      let s2 := countUnerased x 1 s1
      match findBand s2 sg b with
      | none => s2
      | some y => if y.state == .retired then s2 else eraseDone sg b m s2

def execEraseFailure (sg b m : Nat) (blank : List Nat) (s : State) : Host.Outcome State Fault Refusal :=
  .next (eraseFailed sg b m blank s)

/-! ### Census and summaries (R200, R222) -/

/-- CENSUS_REGION (R200): once its map replay is complete, the owner reports every span of the region once. With the last region of every
owner the census is complete. -/
def censusRegion (n r : Nat) (s : State) : State :=
  if !s.rcl.toCensus.contains (n, r) || s.map.replaying.contains (ownerSlot s n r) then s
  else
    let s1 := match findRegion s n r with
      | some x => reportLive [] (x.spans.filter fun y => uncensused s y.addr) s
      | none => s
    let left := s.rcl.toCensus.filter fun x => x != (n, r)
    { s1 with rcl := { s1.rcl with
      toCensus := left, censusDone := if left.isEmpty then s1.red.groups.map (·.sg) else s1.rcl.censusDone } }

def execCensusRegion (n r : Nat) (s : State) : Host.Outcome State Fault Refusal := .next (censusRegion n r s)

/-- SUMMARY_REBUILD_DONE (R222): the summaries of a tile's blocks are rebuilt from what its blocks hold. DESIGN CHOICE: the placed blocks
and grains of its block table (R199), which is not persistent either, are rebuilt with them. -/
def summaryDone (t : Nat) (s : State) : State :=
  let fill := fun (s : State) (e : FExt) => if tileOfDie (dieOf e.addr) == t then
      let h := ownerCrc e.nsid (e.slba / 256)
      updBlk (dieOf e.addr) (blockOf e.addr) (fun k => { k with
        placed := k.placed + e.nblk, grains := k.grains + e.len
        summary := setBit (setBit (setBit k.summary (h % 256) true) (h / 256 % 256) true) (h / 65536 % 256) true }) s
    else s
  let clear := fun (k : Blk) => if tileOfDie k.die == t then { k with placed := 0, grains := 0, summary := 0 } else k
  let blank := { s with rcl := { s.rcl with blocks := s.rcl.blocks.map clear } }
  let s1 := if s.rcl.summariesDone.contains t then s else blank.rcl.flash.foldl fill blank
  { s1 with rcl := { s1.rcl with summariesDone := (t :: s1.rcl.summariesDone).eraseDups } }

def execSummaryRebuildDone (t : Nat) (s : State) : Host.Outcome State Fault Refusal := .next (summaryDone t s)

/-! ### Sweeps (R223 to R226) -/

/-- Takes a candidate band through relocation; an open one first closes: its row that is filling is recalled and padded, and the band
is sealed once its rows are programmed (R223, step 4). -/
def sweepBand (b : Band) (s : State) : State :=
  if b.state != .open then startRelocation .sweep b.sg b.idx s
  else
    let s1 := updBand b.sg b.idx (fun x => { x with early := true }) s
    let rows := s1.wr.rows.filter fun r => r.sg == b.sg && r.band == b.idx
    if rows.isEmpty then sealBand b.sg b.idx s1
    else (rows.filter fun r => r.state == .filling).foldl (fun s r =>
      closeRow r.sg r.band r.idx (updRow r.sg r.band r.idx (fun r => { r with
        expired := true, units := r.units.map fun u => { u with recalled := u.holder.isSome } }) s)) s1

/-- SWEEP_ROWS_PROGRAMMED (R223, steps 3 and 4; R224): the rows open at the sweep's start are programmed; candidate bands
are marked, open ones closed and sealed; a synchronous sweep beyond secure_sync_tib completes its command now. -/
def sweepRows (id : Nat) (s : State) : State :=
  match s.rcl.sweeps.find? (fun w => w.id == id) with
  | none => s
  | some w =>
    let waiting := w.rows.any fun k => s.wr.rows.any fun r => isRow k.1 k.2.1 k.2.2 r
    if w.state != 1 || !w.kept || waiting || !summariesReady s then s
    else
      let cand := sweepCandidates s w
      let tib := s.tfld s.mgmt.primary .rcl_secure_secure_sync_tib
      let big := decide (tib * 2 ^ 40 < (cand.map (bandValid s)).sum * 256)
      let s1 := { s with rcl := { s.rcl with sweeps := s.rcl.sweeps.map fun v => if v.id == id then
        { v with state := 2, bands := cand.map fun b => (b.sg, b.idx) } else v } }
      let s2 := cand.foldl (fun s b =>
        sweepBand b (updBand b.sg b.idx (fun x => { x with sweepIds := x.sweepIds ++ [id] }) s)) s1
      if big then drainPump (updCmd (w.cmd.getD 0) (fun c => { c with sweepSync := false }) s2) else s2

def execSweepRowsProgrammed (id : Nat) (s : State) : Host.Outcome State Fault Refusal := .next (sweepRows id s)

/-- SWEEP_END (R223 step 6, R224): every candidate band has been erased; the sweep leaves the registry; a synchronous command completes
with its ID, an asynchronous sweep raises its event. -/
def sweepDone (id : Nat) (s : State) : State :=
  match s.rcl.sweeps.find? (fun w => w.id == id) with
  | none => s
  | some w =>
    if w.state != 2 || !w.bands.isEmpty then s
    else
      let s1 := syncStores { s with rcl := { s.rcl with sweeps := s.rcl.sweeps.map fun v => if v.id == id then
        { v with state := 3, doneMin := s.island.minutes } else v } }
      match findCmd s1 (w.cmd.getD 0) with
      | some c => if c.sweep == id && c.sweepSync && c.took then finishCmd c.id .success id s1 else s1
      | none => ((s1.host.ctrls.filter fun c => attachedTo s1 c w.nsid).map (·.cntlid)).foldl
          (fun s k => raiseAen k 7 0xC2 s) s1

def execSweepEnd (id : Nat) (s : State) : Host.Outcome State Fault Refusal := .next (sweepDone id s)

/-- SWEEP_LOG_EXPIRY (R225): a done entry leaves the log after 24 hours. -/
def sweepExpire (id : Nat) (s : State) : State :=
  { s with rcl := { s.rcl with
     sweeps := s.rcl.sweeps.filter fun w =>
      !(w.id == id && w.state == 3 && decide (w.doneMin + 1440 ≤ s.island.minutes)) } }

def execSweepLogExpiry (id : Nat) (s : State) : Host.Outcome State Fault Refusal := .next (sweepExpire id s)

/-- SET_FEATURES_SECURE_DEALLOCATION (R220): any controller with the namespace attached may set it; on the AQK-2016 and
AQK-4032 it fails with Invalid Field in Command. -/
def setSecure (a : Adm) (n v : Nat) (s : State) : State :=
  if s.ident.part != .aqk8064 then admDone a .invalidField 0 s
  else if !visible s a n then admDone a .invalidNamespaceOrFormat 0 s
  else if s.fw.flash.failed then admDone a .internalError 0 s
  else admDone a .success 0 (syncStores { s with reg := { s.reg with
   nss := s.reg.nss.map fun x =>
    if x.nsid == n then { x with secure := bitOf v 0 } else x } })

def execSetFeaturesSecureDeallocation (a : Adm) (n v : Nat) (s : State) : Host.Outcome State Fault Refusal :=
  .next (runAdmin .management a (.setFeaturesSecureDeallocation a n v) (setSecure a n v) s)

/-- GET_FEATURES_SECURE_DEALLOCATION (R220). -/
def getSecure (a : Adm) (n : Nat) (s : State) : State :=
  if s.ident.part != .aqk8064 then admDone a .invalidField 0 s
  else match (s.reg.nss.find? fun x => x.nsid == n).filter (fun _ => visible s a n) with
    | none => admDone a .invalidNamespaceOrFormat 0 s
    | some x => admDone a .success (b2n x.secure) s

def execGetFeaturesSecureDeallocation (a : Adm) (n : Nat) (s : State) : Host.Outcome State Fault Refusal :=
  .next (runAdmin .management a (.getFeaturesSecureDeallocation a n) (getSecure a n) s)

end Sys2Proof.Machine
end

