-- ==== Sys2Proof/Machine/RedOps.lean ====
section
/-!
DEFINITION. Sys2Proof/Machine/RedOps.lean: the loss of members, extents and dies, and the formation of groups and bands
(R107, R192, R197, R257, R265, R266, R278 to R281).
-/
namespace Sys2Proof.Machine
open Sys2Proof

/-- Blocks of an extent are lost: those still mapped enter the lost-range log with a cause, and all of them read as lost from
then on (R202, R272, R288). -/
def loseExtent (e : FExt) (blocks : List Nat) (cause : Nat) (s : State) : State :=
  let new := blocks.filter fun k => !e.lost.contains k
  let mask := (livenessMask s e.nsid e.slba e.nblk e.addr e.seq).filter new.contains
  enterLost cause e.sg e.nsid (dieOf e.addr) ((runsOf mask).map fun r => (e.slba + r.1, r.2))
    { s with rcl := { s.rcl with
       flash := s.rcl.flash.map fun x =>
        if x.addr == e.addr && x.seq == e.seq then { x with lost := e.lost ++ new } else x } }

/-! ### The check of a unit (R275, R276) -/

/-- The grain address of the first grain of a member's unit, as the map knows it. -/
def unitBase (s : State) (sg b row m : Nat) : Nat :=
  let pages := planesOf s * if (findBand s sg b).any (fun x => x.slc || x.mapBand) then 1 else 4
  let x := namedAt s sg b m
  grainAddr x.1 x.2 (row * pages) 0

/-- An extent of a unit passes (R275): one that is live decrypts and decompresses to data that matches data_crc, on the cipher of tile `t`,
and every span that leads to it names it (R135). -/
def extentPasses (s : State) (t addr : Nat) (h : XHdr) (body : Bytes) : Bool :=
  (livenessMask s h.nsid h.slba h.nblk addr h.seq).isEmpty ||
    ((openBody s t h body).isSome && ((findRegion s h.nsid (h.slba / 256)).any fun x => (x.spans.filter (pointsAt addr h.seq)).all fun y =>
      h.matches h.nsid (256 * x.r + y.off) y.skip y.seqLo))

/-- A unit passes the reference check (R275): its headers chain, its pads are zero, and its live extents pass. -/
def unitPasses (s : State) (t base : Nat) (u : Bytes) : Bool :=
  match chainUnit u (u.length + 1) 0 with
  | none => false
  | some xs => xs.all fun x =>
    if x.2.kind == 2 then (bodyAt u x.1 x.2).all (· == 0) else extentPasses s t (base + x.1) x.2 (bodyAt u x.1 x.2)

/-- The extents of a unit that are live and that its bytes do not bring. -/
def failingExts (s : State) (t sg b row m : Nat) (u : Bytes) : List FExt :=
  s.rcl.flash.filter fun e => e.sg == sg && e.band == b && e.row == row && e.member == m &&
    !(livenessMask s e.nsid e.slba e.nblk e.addr e.seq).isEmpty &&
    (let g := e.addr - unitBase s sg b row m
     let h := XHdr.read (u.drop (256 * g))
     h != e.hdr || !crcPasses 28 (u.drop (256 * g)) || !extentPasses s t e.addr h (bodyAt u g h))

/-- Healing of a band stops (R276): its substitutes are given up, the band is relocated, and the extents that failed are lost with cause
REBUILD_REF_FAIL. -/
def stopHealing (sg b : Nat) (es : List FExt) (s : State) : State :=
  let s1 := es.foldl (fun s e => loseExtent e (List.range e.nblk) 5 s) (abortSubsts .spare sg b s)
  startRelocation .replace sg b s1

/-- Bands that die failures leave with three lost members (R279): their extents on lost members are lost, and each is
relocated at once. -/
def tripleLoss (sg : Nat) (s : State) : State :=
  match findGroup s sg with
  | none => s
  | some g =>
    if g.lost.any fun l => l.2 == 1 then s
    else (s.rcl.bands.filter fun b => b.sg == sg && inUse b && 3 ≤ (bandLost s g b).length &&
        b.state != .erasePending && b.state != .erasing).foldl (fun s b =>
      let ms := bandLost s g b
      let s1 := ((bandExtents s sg b.idx).filter fun e => ms.contains e.member).foldl
        (fun s e => loseExtent e (List.range e.nblk) 2 s) s
      if b.state == .reclaiming then s1 else startRelocation .replace sg b.idx s1) s

/-- A member of a group is lost (R278, R279): MEMBER_LOST is recorded and logged, rows not yet PROGRAMMED are re-placed and
their bands sealed early, and the group's state follows. -/
def memberLost (sg m cause : Nat) (s : State) : State :=
  match findGroup s sg with
  | none => s
  | some g =>
    if g.lost.any fun l => l.1 == m then s
    else
      let d := memberDie s sg m
      let s1 := sjAppend sg { sjBlank 0x10 with member := m, die := d, state := cause, seq := s.wr.nextBandSeq }
        (updGroup sg (fun g => { g with lost := g.lost ++ [(m, cause)] }) s)
      let s2 := logEv .memberLost (leaderTile s1 sg) [sg, m, d, cause] s1
      let s3 := (s2.wr.rows.filter fun r => r.sg == sg).foldl
        (fun s r => reprogramRow sg r.band r.idx s) s2
      tripleLoss sg (setGroupState sg s3)

/-- A substitute's die is lost: the member is lost again (R287). -/
def dropSubsts (d : Nat) (s : State) : State :=
  { s with red := { s.red with substs := s.red.substs.filter fun x => x.die != d } }

/-- The channels that the copies of the boot band and of the event band are on: ch0 and the first of the rank partner (R426, R449). -/
def bandChannels (s : State) : List Nat := [0, 8 * files s]

/-- The unarchived records, oldest first. -/
def unarchived (s : State) : List EvRec := s.evr.store.filter fun r => !r.archived

/-- Archiving may begin: the channel of each copy is UP, or FAILED beside one that is UP (R427). -/
def archiveReady (s : State) : Bool :=
  let is := fun (st : ChState) (c : Nat) => s.media.chans.any fun x => x.ch == c && x.state == st
  s.island.pkg == 2 && (bandChannels s).all (fun c => is .up c || is .failed c) && (bandChannels s).any (is .up)

/-- Where the next page of the event band goes on each copy in service: the page after the last in the block in use, and after 1,024 pages
the first of the other block (R426). -/
def archivePlaces (s : State) : List Nat :=
  let turn := 1024 ≤ s.evr.bandPages
  let k := if turn then 1 - s.evr.bandBlock else s.evr.bandBlock
  let ds := ((s.rcl.blocks.filter fun b => b.state == .eventBand && dieServes s b.die).map (·.die)).eraseDups
  ds.filterMap fun d =>
    let bs := (s.rcl.blocks.filter fun b => b.state == .eventBand && b.die == d).map (·.block)
    (bs[k]?.or bs[0]?).map fun b => grainAddr d b (if turn then 0 else s.evr.bandPages) 0

/-- The tag of codeword `j` of an archive page that holds records from a number on (R250, R427). -/
def archiveTag (s : State) (addr j : Nat) (rs : List EvRec) : CwTag :=
  let mine := (rs.drop (128 * j)).take 128
  { echo := addr + 16 * j, info := j, stream := 0xFD, bandSeq := (mine.head?.map (·.seq)).getD 0, hdrMap := mine.length, summary := 0
    progMin := s.island.minutes }

/-- An archive page (R249, R427): up to 512 records in order, zeros in its empty slots. -/
def archivePage (s : State) (addr : Nat) (rs : List EvRec) : Bytes :=
  let body := padTo 16384 (rs.flatMap fun r => layBytes 32 r.fields)
  pageBytes ((List.range 4).map fun j => archiveTag s addr j rs) ((List.range 4).map fun j => (body.drop (4096 * j)).take 4096)
    Config.pageSpare

/-- The recorder begins to program a page of the oldest unarchived records, when a trigger is there and nothing holds it (R427, R431): a
program of class M on the die of each copy (R37). Archiving stops while both copies are lost (R436). -/
def archiveCheck (s : State) : State :=
  let us := (unarchived s).take 512
  let full := decide ((if s.evr.fallback then 4 else 512) ≤ us.length)
  let as := archivePlaces s
  if (full || s.evr.trigger) && !us.isEmpty && s.evr.archiving.isNone && archiveReady s && !as.isEmpty then
    as.foldl (fun s a => addOp { blankOp .program .m (dieOf a) with use := .archive, words := 4, addr := a }
      (emit (.nandProgram (dieOf a) [(a, archivePage s a us)]) s))
      { s with evr := { s.evr with archiving := some (us.map (·.seq)), trigger := false } }
  else s

/-- A copy of the event band on a die that failed moves to SPARE blocks of the next die in service of the same channel, or else of the
first channel of the tile that has one (R426). -/
def moveEventCopy (d : Nat) (s : State) : State :=
  match s.rcl.blocks.find? fun b => b.die == d && b.state == .eventBand with
  | none => s
  | some b =>
    let able := fun (x : Nat) => dieServes s x && x != d && tileOfDie x == tileOfDie d &&
      s.rcl.blocks.any fun k => k.die == x && k.state == .spare
    let ds := ((s.media.dies.map (·.die)).filter able).mergeSort fun a c => decide (a ≤ c)
    let pick := (ds.find? fun x => chanOfDie x == chanOfDie d).or ds.head?
    let s1 := logEv .archiveFault (tileOfDie d) [d, b.block] { s with
      evr := { s.evr with archiveFault := true, archiving := none }
      media := { s.media with ops := s.media.ops.filter fun o => o.use != .archive } }
    match pick with
    | none => s1
    | some x =>
      let take := ((s.rcl.blocks.filter fun k => k.die == x && k.state == .spare).take 2).map (·.block)
      { s1 with rcl := { s1.rcl with blocks := s1.rcl.blocks.map fun k =>
        if k.die == x && take.contains k.block then { k with state := .eventBand }
        else if k.die == d && k.state == .eventBand then { k with state := .grownBad } else k } }

/-- A die is failed, for the cause of R257 in listed order, from 0: nothing further is issued to it, DIE_FAIL is logged, its operations end as failed reads,
programs or erases, and its group loses a member. -/
def failDie (cause d : Nat) (s : State) : State :=
  match findDie s d with
  | none => s
  | some x =>
    if x.failed then s
    else
      let ops := opsOf s d
      let s1 := logEv .dieFail (tileOfDie d) [d, cause] (updDie d (fun x => { x with failed := true }) s)
      let kept := fun (o : DieOp) => o.kind == .read && match o.use with
        | .recon _ | .archive => false
        | _ => true
      let s2 := (ops.filter kept).foldl (fun s o => if o.use == .rebuild then rebuildRead o s else toRecon o.id s) { s1 with media := { s1.media with
        ops := s1.media.ops.filter fun o => o.die != d || kept o } }
      let s3 := match groupOfDie s d with
        | some g => match g.members.idxOf? d with
          | some m => memberLost g.sg m 0 s2
          | none => s2
        | none => s2
      let s4 := (ops.filter fun o => o.kind == .erase).foldl (fun s o => eraseFailed o.sg o.band o.member [] s) s3
      moveEventCopy d ((s4.red.groups.map (·.sg)).foldl (fun s g => setGroupState g s) (dropSubsts d s4))

/-- A die that was lost with its tile and is found at a later start rejoins (R281): its blocks of bands that are SEALED since before the
loss serve again, blocks whose member has a substitute become SPARE, and healing of the member ends. -/
def rejoinDie (d : Nat) (s : State) : State :=
  match groupOfDie s d with
  | none => s
  | some g => match g.members.idxOf? d with
    | none => s
    | some m =>
      if !g.lost.contains (m, 1) then s
      else
        let lostAt := (((findSj s g.sg).flash ++ (findSj s g.sg).tail).filter fun e => e.kind == 0x10 && e.member == m).map (·.seq)
        let done := s.red.substs.filter fun x => x.sg == g.sg && x.member == m && x.done
        let free := (s.rcl.bands.filter fun b => b.sg == g.sg && done.any fun x => x.band == b.idx).filterMap fun b =>
          ((b.named.find? fun y => y.1 == m && y.2.1 == d).map fun y => y.2.2)
        let s1 := free.foldl (fun s k => updBlk d k (fun b => { b with state := .spare, placed := 0, grains := 0, live := 0 }) s) s
        let kept := fun (x : Subst) => !(x.sg == g.sg && x.member == m) || x.done ||
          s.rcl.bands.any fun b => b.sg == g.sg && b.idx == x.band && !(b.state == .sealed && lostAt.all fun q => b.seq < q)
        let s2 := { s1 with red := { s1.red with substs := s1.red.substs.filter kept } }
        let s3 := sjAppend g.sg { sjBlank 0x11 with member := m, die := d }
          (updGroup g.sg (fun g => { g with lost := g.lost.erase (m, 1) }) s2)
        setGroupState g.sg (logEv .memberRejoin (leaderTile s3 g.sg) [g.sg, m, d] s3)

/-! ### First start (R107, R150, R193, R266, R309, R426, R449) -/

/-- The dies that hold the boot band, and those that hold the event band. -/
def bootDies (s : State) : List Nat := (bandChannels s).map fun c => dieIndex c 0 0
def eventDies (s : State) (dies : List Nat) : List Nat := (bandChannels s).filterMap fun c => (dies.filter fun d => chanOfDie d == c).min?

/-- The four dies that set aside anchor blocks: on four tiles, or on four channels of the AQK-2016 (R309). DESIGN CHOICE: the lowest
die of the lowest-numbered four. -/
def anchorDies (s : State) (dies : List Nat) : List Nat :=
  let key := fun d => if s.ident.part == .aqk2016 then chanOfDie d else tileOfDie d
  (((dies.map key).eraseDups.mergeSort fun a b => decide (a ≤ b)).take 4).filterMap fun k => (dies.filter fun d => key d == k).min?

/-- How a die's good blocks are divided at first start, lowest-numbered first: the boot band, the event band, the seal band with its
anchors, the blocks of data and map-band bands, the spares (R193). DESIGN CHOICE: which block takes which part. -/
structure DieSplit where
  die   : Nat
  boot  : List Nat
  event : List Nat
  sealed : List Nat
  data  : List Nat
  spare : List Nat
deriving DecidableEq, Repr

def splitDie (s : State) (dies : List Nat) (d : Nat) : DieSplit :=
  let bad := (s.rcl.blocks.filter fun b => b.die == d && b.state == .factoryBad).map (·.block)
  let good := (List.range (blocksPerLun s)).filter fun k => !bad.contains k
  let nb := if (bootDies s).contains d then 2 else 0
  let ne := if (eventDies s dies).contains d then 2 else 0
  let ns := s.gfld .plp_cfg_seal_blocks + (if (anchorDies s dies).contains d then 2 else 0)
  let rest := good.drop (nb + ne + ns)
  let keep := rest.length - rest.length * s.tfld (tileOfDie d) .rcl_cfg_spare_pct / 100
  { die := d, boot := good.take nb, event := (good.drop nb).take ne, sealed := (good.drop (nb + ne)).take ns,
    data := rest.take keep, spare := rest.drop keep }

/-- The read count that a block starts with (R260): a quarter of the limit. -/
def readsAtStart (s : State) (d : Nat) : Nat := 1000 * s.tfld (tileOfDie d) .med_disturb_disturb_k / 4

def freshBlk (d : Nat) (st : BlkState) (k : Nat) : Blk :=
  { die := d, block := k, state := st, wear := 0, placed := 0, grains := 0, live := 0, summary := 0, reads := 0, retire := false }

def freshBand (g : Group) (k : Nat) (map : Bool) (blocks : List Nat) : Band :=
  { sg := g.sg, idx := k, seq := 0, state := .free, slc := false, mapBand := map, early := false, sealMin := 0, rows := 0,
    nextRow := 0, stream := .hostQlc, blocks := blocks, why := none, toScan := [],
    committed := false, drainMs := 0, erased := [], retireMembers := [], sweepIds := [], named := [] }

/-- The bands of a group, as many as its shortest member has blocks; the first tenths of a percent of `mapPct` hold the map. -/
def formBands (splits : List DieSplit) (mapPct : Nat) (g : Group) : List Band :=
  let cols := g.members.map fun d => ((splits.find? fun x => x.die == d).map (·.data)).getD []
  let n := ((cols.map List.length).min?).getD 0
  (List.range n).map fun k => freshBand g k (k < ceilDiv (n * mapPct) 1000) (cols.map fun c => c.getD k 0xFFFF)

/-- The blocks of a die after formation: those past the bands of its group, and all of an idle die, are SPARE (R193, R266). -/
def formBlocks (bands : List Band) (gs : List Group) (x : DieSplit) : List Blk :=
  let mine : List Band := match gs.find? fun g => g.members.contains x.die with
    | some g => bands.filter fun b => b.sg == g.sg
    | none => []
  let inMap := ((mine.filter (·.mapBand)).length)
  x.boot.map (freshBlk x.die .bootBand) ++ x.event.map (freshBlk x.die .eventBand) ++ x.sealed.map (freshBlk x.die .seal) ++
    (x.data.take inMap).map (freshBlk x.die .mapBand) ++ ((x.data.take mine.length).drop inMap).map (freshBlk x.die .good) ++
    (x.data.drop mine.length).map (freshBlk x.die .spare) ++ x.spare.map (freshBlk x.die .spare)

/-- The two anchor blocks of an anchor die: the last of its seal band. -/
def anchorBlocks (x : DieSplit) : List (Nat × Nat) := (x.sealed.drop (x.sealed.length - 2)).map fun k => (x.die, k)

/-- Endurance group 1: the stripe groups in the part's default geometry, with the defaults of its static configuration
(R2, R107, R109, R150, R498). -/
def firstEg (s : State) (gs : List Group) : Eg :=
  { id := 1, nvmSet := 1, groups := (gs.filter fun g => g.tileSafe == (s.ident.part == .aqk8064)).map (·.sg), ratioPct := 100, mapPct := 10,
    stalemate := false, slcBuffer := 600, slcClosed := false, idlePromo := true, rated := 3000 }

/-- Whether the configuration survives a tile loss (R131). -/
def survivesTileLoss (s : State) : Bool :=
  match s.ident.part with
  | .aqk2016 => false
  | .aqk4032 => s.red.groups.any (·.tileSafe)
  | .aqk8064 => true

/-- The tiles of the part that its identity row leaves out count as lost before the start (R444): their slots are adopted where the
configuration survives, and the data is unavailable where it does not (R130, R131). -/
def leftOut (s : State) : State :=
  let out := (List.range s.ident.part.tiles).filter fun t => !(presentTiles s).contains t
  if out.isEmpty || !s.red.formed then s
  else if survivesTileLoss s then { s with map := { s.map with
    away := (s.map.away ++ out).eraseDups, handBack := s.map.handBack.filter fun t => !out.contains t } }
  else { s with red := { s.red with dataLost := true } }

/-- Formation at first start (R107, R193, R194, R266, R426, R444, R449). -/
def formAll (s : State) : State :=
  let dies := (s.media.dies.filter fun x => !x.failed).map (·.die)
  let gs := formGroups s dies
  let splits := dies.map (splitDie s dies)
  let eg := firstEg s gs
  let bands := gs.flatMap (formBands splits eg.mapPct)
  let bad := s.rcl.blocks.filter fun b => b.state == .factoryBad
  let s1 := { s with
    red := { s.red with formed := true, groups := gs }
    rcl := { s.rcl with
      blocks := bad ++ (splits.flatMap (formBlocks bands gs)).map fun (k : Blk) => { k with reads := readsAtStart s k.die }
      bands := bands, censusDone := gs.map Group.sg
      anchors := (splits.filter fun (x : DieSplit) => (anchorDies s dies).contains x.die).flatMap anchorBlocks
      summariesDone := presentTiles s }
    reg := { s.reg with egs := [eg] } }
  leftOut (syncStores { s1 with health := { s1.health with sparesMade := s1.reg.egs.map fun g => (g.id, sparesNow s1 g) } })

/-- Stripe groups form at first start once every channel in use of every tile has been discovered (R266). -/
def formIfReady (s : State) : State :=
  let waiting := s.media.chans.any fun c => c.state == .training && c.step ≤ 2
  let all := (presentTiles s).all fun t => s.media.chans.any fun c => c.ch / 8 == t
  if s.red.formed || waiting || !all then s else formAll s

end Sys2Proof.Machine
end

