-- ==== Sys2Proof/Machine/MediaCmds.lean ====
section
/-!
DEFINITION. Sys2Proof/Machine/MediaCmds.lean: channel training, tracking and rates, the ends of die operations, the
decode ladder, failed dies, patrol and read levels (R229 to R262, R84 to R86).
-/
namespace Sys2Proof.Machine
open Sys2Proof

/-! ### Start-up training (R232 to R240) -/

/-- The highest rate of a channel by its topology, loads and the extended mode (R232), and the descriptor (R230). -/
def rateLimit (s : State) (t ch : Nat) : Nat :=
  let vols := s.fld t ch .med_ch_vols_vols_present
  let loads := (bitsSet 32 vols).length
  let ext := s.tfld t .med_cfg_ext_mode_en == 1 && descByte s t 6 != 0
  let topo := s.fld t ch .med_ch_cfg_topology
  let cap := if topo == 0 && 4 < loads then (if ext then 6 else 5) else (if ext then 8 else 5)
  min cap (min (s.fld t ch .med_ch_cfg_rate_max) (descByte s t 5))

/-- A channel that is used starts training at step 1; an unused one stays off (R232, R236). -/
def startChannel (t ch : Nat) (s : State) : State :=
  let c := 8 * t + ch
  let vols := bitsSet 32 (s.fld t ch .med_ch_vols_vols_present)
  let off := s.fld t ch .med_ch_cfg_topology == 2 || vols.isEmpty
  let r := rateLimit s t ch
  let new : Chan := {
    ch := c, state := if off then .off else .training, step := if off then 0 else 1, rate := if off then 0 else r,
    limit := if off then 0 else r, margin := 0, downAt := [], lastDown := 0, pinned := false, loads := vols,
    bursts := [], turn := 0 }
  { s with media := { s.media with chans := (s.media.chans.filter fun x => x.ch != c) ++ [new] } }

/-- MED_ENABLE (R230, R236, R525): a write of MED_CFG. A rise of med_enable checks the descriptor: one that is refused sets
desc_mismatch, leaves med_enable at 0 and logs CFG_REJECT; otherwise every channel of the tile trains. -/
def medEnable (t v : Nat) (s : State) : State :=
  writeEnable t .medCfg .med_cfg_med_enable v (fun s => if descOk s t && descSame s t then none else some 9)
    (setT t .med_status_desc_mismatch 1)
    (fun s => (List.range 8).foldl (fun s c => startChannel t c s) s) s

def execMedEnable (t v : Nat) (s : State) : Host.Outcome State Fault Refusal := .next (tileWrite t (medEnable t v) s)

/-- A channel that cannot train at rate code 1 is FAILED and its dies are failed dies (R239, R257). -/
def failChannel (c : Nat) (s : State) : State :=
  let s1 := logEv .chFail (c / 8) [c] (updChan c (fun x => { x with state := .failed, step := 0, rate := 0 }) s)
  archiveCheck <| ((s1.media.dies.filter fun d => chanOfDie d.die == c).map (·.die)).foldl (fun s d => failDie 3 d s) s1

/-- A LUN that answers at discovery (R234). -/
def newDie (d : Nat) : Die :=
  { die := d, failed := false, lastBg := false, hist := [], wrr := [], resumed := false, slow := [], notReady := false,
    uncorr := [], patrolBlock := 0, patrolPage := 0 }

/-- Discovery of a channel (R193, R234, R281): at first start the LUNs that answer are known, with the blocks that carry a factory-bad
mark; at a later start a known LUN that is absent is a failed die, and one that was lost with its tile rejoins; an unmarked volume
logs DIE_UNEXPECTED. -/
def discover (c : Nat) (found unexpected : List Nat) (bad : List (Nat × Nat)) (s : State) : State :=
  let mine := found.filter fun d => chanOfDie d == c
  let new := mine.filter fun d => !(s.media.dies.any fun x => x.die == d) && (!s.red.formed || s.media.known.contains d)
  let marks : List Blk := (bad.filter fun (x : Nat × Nat) => mine.contains x.1).map fun x => freshBlk x.1 .factoryBad x.2
  let s1 := { s with
    media := { s.media with
      dies := s.media.dies ++ new.map newDie
      known := if s.red.formed then s.media.known else (s.media.known ++ new).eraseDups }
    rcl := if s.red.formed then s.rcl else { s.rcl with blocks := s.rcl.blocks ++ marks } }
  let absent := s1.media.known.filter fun d => chanOfDie d == c && !mine.contains d
  let s2 := absent.foldl (fun s d =>
    failDie 1 d (if s.media.dies.any fun x => x.die == d then s
      else { s with media := { s.media with dies := s.media.dies ++ [newDie d] } })) s1
  unexpected.foldl (fun s v => logEv .dieUnexpected (c / 8) [c, v] s) (mine.foldl (fun s d => rejoinDie d s) s2)

/-- CHANNEL_TRAINING_STEP (R236, R239): a step completes; step 2 discovers; with step 7 the channel is UP. Training that
fails goes on at the next lower rate, and fails the channel at rate code 1. -/
def trainingStep (c : Nat) (ok : Bool) (found unexpected : List Nat) (bad : List (Nat × Nat)) (s : State) : State :=
  match findChan s c with
  | none => s
  | some x =>
    if x.state != .training then s
    else if !ok then
      if x.rate ≤ 1 then failChannel c s
      else updChan c (fun x => { x with rate := x.rate - 1, step := 5 }) s
    else
      let s1 := if x.step == 2 then discover c found unexpected bad s else s
      if 7 ≤ x.step + 1 then
        let s2 := updChan c (fun x => { x with state := .up, step := 7, bursts := x.loads.map fun l => (l, s.nowMs) }) s1
        archiveCheck <| ((s2.media.dies.filter fun d => chanOfDie d.die == c).map (·.die)).foldl (fun s d => dispatch d s) (formIfReady s2)
      else formIfReady (updChan c (fun x => { x with step := x.step + 1 }) s1)

def execChannelTrainingStep (c : Nat) (ok : Bool) (found unexpected : List Nat) (bad : List (Nat × Nat)) (s : State) :
    Host.Outcome State Fault Refusal := .next (trainingStep c ok found unexpected bad s)

/-! ### Tracking and rates (R237, R238) -/

/-- A training burst to a load, and the smallest margin it finds. -/
def burstTo (c l margin : Nat) (s : State) : State :=
  updChan c (fun x => { x with
    margin := margin, bursts := (x.bursts.filter fun b => b.1 != l) ++ [(l, s.nowMs)] }) s

/-- TRAINING_BURST (R237): after 2 µs of bus idle, a burst to the next load in turn. -/
def trainingBurst (c margin : Nat) (s : State) : State :=
  match findChan s c with
  | none => s
  | some x => match x.loads[x.turn % max 1 x.loads.length]? with
    | none => s
    | some l => if x.state != .up then s else burstTo c l margin (updChan c (fun x => { x with turn := x.turn + 1 }) s)

def execTrainingBurst (c margin : Nat) (s : State) : Host.Outcome State Fault Refusal := .next (trainingBurst c margin s)

/-- TRACKING_BURST_DUE (R237): a load that has had no burst for 4 × track_ms is given one. -/
def trackingDue (c l margin : Nat) (s : State) : State :=
  match findChan s c with
  | none => s
  | some x =>
    let due := (x.bursts.find? fun b => b.1 == l).any fun b =>
      decide (b.2 + 4 * s.tfld (c / 8) .med_track_track_ms ≤ s.nowMs)
    if x.state == .up && due then burstTo c l margin s else s

def execTrackingBurstDue (c l margin : Nat) (s : State) : Host.Outcome State Fault Refusal :=
  .next (trackingDue c l margin s)

/-- CH_RATE_DOWN (R238): the channel steps to the next lower rate and retrains; three step downs within 24 hours keep it
there until the next start. Without training at rate code 1 it is FAILED (R239). -/
def chRateDown (c : Nat) (trained : Bool) (s : State) : State :=
  match findChan s c with
  | none => s
  | some x =>
    if x.state != .up && x.state != .stepping then s
    else if x.rate ≤ 1 then (if trained then s else failChannel c s)
    else
      let recent := (x.downAt.filter fun m => s.nowMs < m + 86400000) ++ [s.nowMs]
      let s1 := addFld (c / 8) (c % 8) .med_ch_status_rate_downs 1 (updChan c (fun x => { x with
        rate := x.rate - 1, downAt := recent, lastDown := s.nowMs, pinned := x.pinned || decide (3 ≤ recent.length),
        state := if trained then .up else .stepping }) s)
      let s2 := logEv .chRateDown (c / 8) [c, x.rate - 1, x.margin] s1
      if trained then
        ((s2.media.dies.filter fun d => chanOfDie d.die == c).map (·.die)).foldl (fun s d => dispatch d s) s2
      else s2

def execChRateDown (c : Nat) (trained : Bool) (s : State) : Host.Outcome State Fault Refusal :=
  .next (chRateDown c trained s)

/-- CH_RATE_UP (R238): after one hour with no step down, the next higher rate, up to the channel's limit. -/
def chRateUp (c : Nat) (holds : Bool) (s : State) : State :=
  match findChan s c with
  | none => s
  | some x =>
    if x.state != .up || x.pinned || x.limit ≤ x.rate || s.nowMs < x.lastDown + 3600000 || !holds then s
    else logEv .chRateUp (c / 8) [c, x.rate + 1] (updChan c (fun x => { x with rate := x.rate + 1 }) s)

def execChRateUp (c : Nat) (holds : Bool) (s : State) : Host.Outcome State Fault Refusal := .next (chRateUp c holds s)

/-! ### Reads and the decode ladder (R254 to R257) -/

/-- The program of a row on a substitute, once the reads it is rebuilt from have ended (R39, R285). -/
def rebuildProgram (x : DieOp) (s : State) : State :=
  if s.media.ops.any fun o => o.use == .rebuild && o.sg == x.sg && o.band == x.band && o.lba == x.lba then s
  else match s.red.substs.find? fun y => y.sg == x.sg && y.band == x.band && y.member == x.lba && !y.done with
    | none => s
    | some y =>
      let slc := slcOp s x
      addOp { blankOp .program .b4 y.die with
        use := .rebuild, lba := y.member, sg := y.sg, band := y.band, row := y.next, member := y.member, fine := true
        words := planesOf s * (if slc then 4 else 16), addr := grainAddr y.die y.block (y.next * planesOf s * if slc then 1 else 4) 0 } s

/-- The lanes of a tile's codec that a step of the ladder decodes on, and how many there are (R254). -/
def laneOf (step : Nat) : EngUnit := if 3 ≤ step then .soft else .hard
def laneCount (u : EngUnit) : Nat := if u == .soft then 2 else 8

/-- The free lanes of a tile's codec take the codewords that wait, in class order (R87, R254). -/
def codecPump (t : Nat) (u : EngUnit) : Nat → State → State
  | 0, s => s
  | n + 1, s =>
    let mine := s.media.ops.filter fun o => tileOfDie o.die == t && laneOf o.step == u
    let ws := mine.filter fun o => o.state == .toDecode
    if laneCount u ≤ (mine.filter fun o => o.state == .decoding).length then s
    else match classPick (classWeights s t) (turnsAt s t u) fun c => ws.any fun o => o.cls == c with
      | none => s
      | some (c, cr) => match ws.find? fun o => o.cls == c with
        | none => s
        | some o => codecPump t u n (updOp o.id (fun o => { o with state := .decoding }) (putTurns t u cr s))

/-- Both kinds of lanes of a tile's codec take what waits. -/
def codecTake (t : Nat) (s : State) : State := codecPump t .soft 2 (codecPump t .hard 8 s)

/-- NAND_READ_DONE (R84, R87, R254, R260, R271, R285): an array read ends; the die takes its next operation; the codewords transfer, and
after the step's last read they go to the decoder. The reads of a reconstruction and of a rebuild go to the unit that asked. -/
def nandReadDone (o : Nat) (s : State) : State :=
  match findOp s o with
  | none => s
  | some x =>
    if x.kind != .read || x.state != .active then s
    else
      let more := 1 < x.reads
      let s1 := updOp o (fun x => { x with
                                           reads := x.reads - 1, waited := false,
                                           state := if more then .waiting else .toDecode }) s
      let s2 := updBlk x.die (servedFrom s x.addr).2 (fun k => { k with reads := k.reads + 1 }) s1
      match x.use with
      | .recon _ | .archive => endArray x (dropOp o s2)
      | .rebuild => endArray x (rebuildRead x s2)
      | _ => codecTake (tileOfDie x.die) (endArray x s2)

def execNandReadDone (o : Nat) (s : State) : Host.Outcome State Fault Refusal := .next (nandReadDone o s)

/-- A piece of a read gets its data, or shows that it cannot be had. -/
def setPiece (cmd lba : Nat) (st : PieceState) (d : Bytes) (s : State) : State :=
  updCmd cmd (fun c => { c with
   pieces := c.pieces.map fun p =>
    if p.lba == lba && p.state == .flash then { p with state := st, data := d } else p }) s

/-- A read that brought another extent than its span names logs MAP_MISMATCH, and what it read counts as lost (R135, R270). -/
def mismatched (o : DieOp) (s : State) : State :=
  toRecon o.id (countLife 9 (logEv .mapMismatch (tileOfDie o.die)
    [((findCmd s o.cmd).map fun c => c.cap.nsid).getD 0, o.lba % 2 ^ 32, o.lba / 2 ^ 32, o.die] s))

/-- The extent of a decoded codeword is checked against its span, decrypted and delivered (R135, R170, R355); one that is
another extent is treated as lost. -/
def deliverPiece (o : DieOp) (rebuilt : Bool) (s : State) : State :=
  match findCmd s o.cmd with
  | none => dropOp o.id s
  | some c => match c.pieces.find? fun p => p.lba == o.lba && p.state == .flash with
    | none => dropOp o.id s
    | some p =>
      match s.rcl.flash.find? fun e => e.addr == p.addr && e.seq % 2 ^ 32 == p.seq && e.nsid == c.cap.nsid &&
          e.slba + p.skip == p.lba && decide (p.skip + p.count ≤ e.nblk) with
      | none =>
        if rebuilt then finishCmd c.id .unrecoveredReadError 0 (dropOp o.id s) else mismatched o s
      | some e =>
        if e.lost.any fun k => p.skip ≤ k && k < p.skip + p.count then finishCmd c.id .unrecoveredReadError 0 (dropOp o.id s)
        else match pieceBytes s c.cap.nsid e.keyGen e.plain p.skip p.count with
          | some d => readProgress c.id (setPiece c.id p.lba .done d (dropOp o.id s))
          | none => readProgress c.id (setPiece c.id p.lba (.failed .namespaceNotReady) [] (dropOp o.id s))

/-- What a read brought goes to what it was made for: a piece of a command, a copy (R201), or the map engine, which has its record or
directory record with its own command (R147, R163). -/
def deliver (o : DieOp) (rebuilt : Bool) (s : State) : State :=
  match o.use with
  | .plain => deliverPiece o rebuilt s
  | .copy => copyRead o true (dropOp o.id s)
  | _ => dropOp o.id s

/-- A read whose data cannot be had, nor reconstructed (R202, R270): the command ends, a copy is not made. -/
def undelivered (o : DieOp) (st : Status) (s : State) : State :=
  match o.use with
  | .plain => finishCmd o.cmd st 0 (dropOp o.id s)
  | .copy => copyRead o false (dropOp o.id s)
  | _ => dropOp o.id s

/-- Age bin of a block (R256): its band's seal_min, or the first bin for an OPEN band. -/
def ageBin (s : State) (o : DieOp) : Nat :=
  match s.rcl.bands.find? fun b => b.sg == o.sg && b.idx == o.band with
  | none => 0
  | some b =>
    let age := s.island.minutes - b.sealMin
    if b.state == .open || age < 60 then 0 else if age < 1440 then 1 else if age < 10080 then 2
    else if age < 43200 then 3 else 4

/-- The largest change of a level of a die's age bin in the last 24 hours, in steps (R256). -/
def largestChange (s : State) (d bin : Nat) : Nat :=
  (((s.media.levels.filter fun l => l.die == d && l.bin == bin).map fun l =>
    (l.steps.filter fun m => s.island.minutes < m + 1440).length).max?).getD 0

/-- Adds one report of a decode to a die's read level (R256): with 4,096 codewords summed and one direction exceeding the
other by more than a quarter, the offset moves one step toward the smaller side and the sums clear. -/
def levelReport (d bin : Nat) (r : Nat × Nat × Nat) (s : State) : State :=
  let isIt := fun (l : Level) => l.die == d && l.bin == bin && l.level == r.1
  let l := (s.media.levels.find? isIt).getD
    { die := d, bin := bin, level := r.1, offset := 0, up := 0, down := 0, words := 0, steps := [] }
  let l1 := { l with up := l.up + r.2.1, down := l.down + r.2.2, words := l.words + 1 }
  let moveUp := 5 * l1.up < 4 * l1.down
  let moveDn := 5 * l1.down < 4 * l1.up
  let l2 := if 4096 ≤ l1.words && (moveUp || moveDn) then
      { l1 with
                offset := l1.offset + (if moveUp then 1 else -1), up := 0, down := 0, words := 0,
                steps := (l1.steps.filter fun m => s.island.minutes < m + 1440) ++ [s.island.minutes] }
    else l1
  let s1 := { s with media := { s.media with levels := (s.media.levels.filter fun l => !isIt l) ++ [l2] } }
  let moved := fun (x : State) => ((x.media.levels.filter fun l => l.die == d && l.bin == bin).map fun l =>
    (l.steps.filter fun m => s.island.minutes < m + 1440).length).sum
  if moved s ≤ 8 && 8 < moved s1 then logEv .mediaDrift (tileOfDie d) [d, bin, largestChange s1 d bin] s1 else s1

/-- A codeword that failed step 4 (R257): four different blocks of a die within 60 s, while its channel is UP with no step
down, fail the die. -/
def noteUncorr (o : DieOp) (s : State) : State :=
  match findDie s o.die, findChan s (chanOfDie o.die) with
  | some d, some c =>
    let us := (d.uncorr.filter fun u => s.nowMs < u.2 + 60000 && u.1 != blockOf o.addr) ++ [(blockOf o.addr, s.nowMs)]
    let s1 := updDie o.die (fun d => { d with uncorr := us }) s
    if 4 ≤ us.length && c.state == .up && (c.downAt.isEmpty || c.lastDown + 60000 < s.nowMs) then failDie 2 o.die s1 else s1
  | _, _ => s

/-- The next step of the ladder for a codeword that failed (R254): re-reads up to retry_max and retry_entries, the 2-bit
soft decode, the 3-bit one where soft_bits is 3, then reconstruction. -/
def nextStep (o : DieOp) (s : State) : State :=
  let t := tileOfDie o.die
  let retries := min (s.tfld t .ldpc_cfg_retry_max) (descByte s t 26)
  let again := fun (f : DieOp → DieOp) s =>
    trySuspend o.die (dispatch o.die (updOp o.id (fun o => { f o with state := .waiting, since := s.nowMs }) s))
  if o.step ≤ 2 && o.tries < retries then again (fun o => { o with step := 2, tries := o.tries + 1, reads := 1 }) s
  else if o.step ≤ 2 then again (fun o => { o with step := 3, reads := 2 }) s
  else if o.step == 3 && s.tfld t .ldpc_cfg_soft_bits == 3 then again (fun o => { o with step := 4, reads := 2 }) s
  else noteUncorr o (countLife 0 (addT t .ldpc_fail_count o.left.length (toRecon o.id s)))

/-- How a codeword's decode ends: it reads ERASED and is not decoded; it fails, not decoded or with a tag that does not pass; or it is
accepted, with its tag (R252, R254, R255). -/
inductive CwEnd
  | erased | failed | accepted (t : CwTag)
deriving DecidableEq, Repr

/-- The codeword at an address, as read and as the decoder gives it. -/
def cwEnd (addr : Nat) (w : Bytes × Option Bytes) : CwEnd :=
  if cwErased w.1 then .erased
  else match w.2.bind (cwAccepted addr) with
    | some x => .accepted x.2
    | none => .failed

/-- A codeword of a read that counts as lost before it is read (R270, R274). -/
def countedLost (s : State) (x : DieOp) : Bool :=
  (List.range x.words).any fun k => s.red.lostSlots.any fun l =>
    l.sg == x.sg && l.band == x.band && l.row == x.row && l.member == x.member && l.cw == cwOf (firstWord s x + 16 * k)

/-- LDPC_DECODE_DONE (R135, R252, R254, R255, R256, R270): the decode of a read's codewords that were left ends, `words` giving them in
order. An ERASED codeword, or one that counts as lost, sends the read to reconstruction; one that fails goes on to the next step; a
codeword of another band under a read that brings no header is a mismatch. -/
def decodeEnds (x : DieOp) (words : List (Bytes × Option Bytes)) (levels : List (Nat × Nat × Nat)) (s : State) : State :=
  let t := tileOfDie x.die
  let ends := x.left.zipIdx.map fun k => (k.1, ((words[k.2]?).map (cwEnd (firstWord s x + 16 * k.1))).getD .failed)
  let good := ends.filterMap fun e => match e.2 with
    | .accepted t => some t
    | _ => none
  let failed := (ends.filter fun e => e.2 == .failed).map (·.1)
  let c : Fld := if x.step == 1 then .ldpc_hard_count else if x.step == 2 then .ldpc_retry_count else .ldpc_soft_count
  let s1 := addT t c good.length s
  let band := (findBand s x.sg x.band).map (·.seq)
  if ends.any fun e => e.2 == .erased then countLife 0 (bump t .ldpc_fail_count (toRecon x.id s1))
  else if headerless s x && good.any fun t => some t.bandSeq != band then mismatched x s1
  else if !failed.isEmpty then
    nextStep { x with left := failed } (updOp x.id (fun o => { o with left := failed }) s1)
  else if countedLost s x then toRecon x.id s1
  else deliver x false (levels.foldl (fun s l => levelReport x.die (ageBin s x) l s) s1)

def ldpcDecodeDone (o : Nat) (words : List (Bytes × Option Bytes)) (levels : List (Nat × Nat × Nat)) (s : State) : State :=
  match findOp s o with
  | none => s
  | some x => if x.state != .decoding then s else codecTake (tileOfDie x.die) (decodeEnds x words levels s)

def execLdpcDecodeDone (o : Nat) (words : List (Bytes × Option Bytes)) (levels : List (Nat × Nat × Nat)) (s : State) :
    Host.Outcome State Fault Refusal := .next (ldpcDecodeDone o words levels s)

/-- What a reconstruction brought passes the checks of the die tile (R135, R170, R271): for an extent its header and, for a command, its
data against data_crc. -/
def reconPasses (s : State) (x : DieOp) (data : Bytes) : Bool :=
  let h := XHdr.read data
  let e := s.rcl.flash.find? fun e => e.addr == x.addr
  match x.use with
  | .copy => crcPasses 28 data && e.any fun e => e.hdr == h
  | .plain => headerless s x ||
      (crcPasses 28 data && e.any (fun e => e.hdr == h) && (openBody s (tileOfDie x.die) h (bodyAt data 0 h)).isSome)
  | _ => true

/-- The codewords of a read whose slots have three or more losses are lost, until the search for what they held (R270, R272). -/
def loseSlots (x : DieOp) (lostCws : List Nat) (s : State) : State :=
  let new := ((lostCws.zipIdx.filter fun k => 3 ≤ k.1).map fun k =>
    ({ sg := x.sg, band := x.band, row := x.row, member := x.member, cw := cwOf (firstWord s x + 16 * k.2), dead := true } : LostSlot))
  let add := new.filter fun l => !s.red.lostSlots.contains l
  if add.isEmpty then s else countLife 1 { s with red := { s.red with lostSlots := s.red.lostSlots ++ add } }

/-- A reconstructed unit is programmed on the substitute (R285); a data unit that fails the check of R275 stops the healing of its band
(R276). -/
def rebuiltUnit (x : DieOp) (data : Bytes) (s : State) : State :=
  let s1 := dropOp x.id s
  let t := leaderTile s x.sg
  if x.lba < dataUnits s x.sg && !unitPasses s t (unitBase s x.sg x.band x.row x.lba) data then
    stopHealing x.sg x.band (failingExts s t x.sg x.band x.row x.lba data) s1
  else rebuildProgram x s1

/-- RECONSTRUCTION_DONE (R269 to R272, R276, R280, R285): with at most two codewords lost in each slot the data is rebuilt and checked;
with three or more in one it is lost, and the command gets Unrecovered Read Error. -/
def reconstructed (o : Nat) (lostCws : List Nat) (data : Bytes) (s : State) : State :=
  match findOp s o with
  | none => s
  | some x =>
    if x.state != .recon || !reconRead s o then s
    else if x.use == .rebuild then rebuiltUnit x data (loseSlots x lostCws s)
    else if (findGroup s x.sg).any fun g => g.state == .unavailable then undelivered x .namespaceNotReady s
    else if lostCws.any fun n => 3 ≤ n then undelivered x .unrecoveredReadError (loseSlots x lostCws s)
    else if reconPasses s x data then deliver x true (bump (leaderOrDie s x) .red_recon_count s)
    else undelivered x .unrecoveredReadError s
where
  /-- The tile that reconstructs (R271): the die's, or that of the lowest-numbered member in service. -/
  leaderOrDie (s : State) (x : DieOp) : Nat :=
    if tileUp s (tileOfDie x.die) then tileOfDie x.die else leaderTile s x.sg

def execReconstructionDone (o : Nat) (lostCws : List Nat) (data : Bytes) (s : State) : Host.Outcome State Fault Refusal :=
  .next (reconstructed o lostCws data s)

/-! ### Programs, suspends and dies (R242, R246 to R248, R257) -/

/-- A row of a substitute is programmed: the next one is read (R39, R285). -/
def substProgrammed (sg b i m : Nat) (s : State) : State :=
  match s.media.ops.find? fun o => o.kind == .program && o.use == .rebuild && o.sg == sg && o.band == b && o.row == i && o.member == m &&
      o.state != .waiting with
  | none => s
  | some o =>
    healRow sg b m (endArray o (dropOp o.id { s with red := { s.red with
      substs := s.red.substs.map fun x => if x.sg == sg && x.band == b && x.member == m && x.next == i then { x with next := i + 1 } else x } }))

/-- NAND_PROGRAM_DONE (R242, R243, R285): a pass completes on a member; it may settle word lines, and allows the next pass. -/
def nandProgramDone (sg b i m : Nat) (final : Bool) (s : State) : State :=
  match findRow s sg b i with
  | none => substProgrammed sg b i m s
  | some r =>
    if r.state != .programming || memberCount s sg ≤ m || r.done.contains m || !passQueued s r m final then s
    else
      let s1 := updRow sg b i (fun r => if final then { r with done := r.done ++ [m] }
        else { r with coarse := r.coarse ++ [m] }) s
      let s2 := match s1.media.ops.find? fun o => o.kind == .program && o.sg == sg && o.band == b && o.row == i &&
          o.member == m && o.fine == final with
        | some o => endArray o (dropOp o.id s1)
        | none => s1
      startClosed (issuePasses sg b (settleRows sg b s2))

def execNandProgramDone (sg b i m : Nat) (final : Bool) (s : State) : Host.Outcome State Fault Refusal :=
  .next (nandProgramDone sg b i m final s)

/-- NAND_SUSPEND_DONE (R246, R248): the operation is suspended and the reads that may run are dispatched. More than twice
tsusp_us logs SUSPEND_SLOW. -/
def suspendDone (d us : Nat) (s : State) : State :=
  match (opsOf s d).find? fun o => o.state == .suspending with
  | none => s
  | some o =>
    let s1 := updOp o.id (fun o => { o with state := .suspended }) s
    let s2 := if 2 * descHalf s 0 22 < us then
        logEv .suspendSlow (tileOfDie d) [d, blockOf o.addr, us] (updDie d (fun x => { x with
          slow := (x.slow.filter fun m => s.nowMs < m + 3600000) ++ [s.nowMs] }) s1)
      else s1
    dispatch d s2

def execNandSuspendDone (d us : Nat) (s : State) : Host.Outcome State Fault Refusal := .next (suspendDone d us s)

/-- SUSPEND_WAIT_EXPIRY (R86): an H1 to H3 read has waited host_suspend_wait, and may suspend from now on. -/
def suspendWait (o : Nat) (s : State) : State :=
  match findOp s o with
  | none => s
  | some x =>
    if x.kind != .read || x.state != .waiting || !hostCls x.cls ||
        1000 * s.nowMs + 999 < 1000 * x.since + s.tfld (tileOfDie x.die) .qe_suspend_wait_host_suspend_wait then s
    else trySuspend x.die (dispatch x.die (updOp o (fun x => { x with waited := true }) s))

def execSuspendWaitExpiry (o : Nat) (s : State) : Host.Outcome State Fault Refusal := .next (suspendWait o s)

/-- RESUME_MIN_EXPIRY (R247): resume_min_us has passed since the die's last resume. -/
def execResumeMinExpiry (d : Nat) (s : State) : Host.Outcome State Fault Refusal :=
  .next (trySuspend d (updDie d (fun x => { x with resumed := false }) s))

/-- DIE_READY_TIMEOUT (R257): an operation is tried again after one retraining of the load; the second time the die is
failed. -/
def dieTimeout (d : Nat) (s : State) : State :=
  match findDie s d with
  | none => s
  | some x =>
    if x.failed || !(opsOf s d).any (fun o => o.state == .active || o.state == .suspending) then s
    else if x.notReady then failDie 0 d s
    else updDie d (fun x => { x with notReady := true }) s

def execDieReadyTimeout (d : Nat) (s : State) : Host.Outcome State Fault Refusal := .next (dieTimeout d s)

/-! ### Patrol (R258 to R260) -/

def markRefresh (b : Band) (s : State) : State :=
  { s with media := { s.media with refresh := if s.media.refresh.contains (b.sg, b.idx) then s.media.refresh
    else s.media.refresh ++ [(b.sg, b.idx)] } }

/-- A page that patrol reads (R258): a programmed one of a data band that is OPEN, SEALED or RECLAIMING or of a map-band band, or one of
a BOOTBAND or EVENTBAND block. -/
def patrolled (s : State) (d blk page : Nat) : Bool :=
  match bandOfBlock s d blk with
  | some (b, _) => (b.mapBand || b.state == .open || b.state == .sealed || b.state == .reclaiming) &&
      decide (page / (if b.slc then planesOf s else 4 * planesOf s) < b.rows)
  | none => (findBlk s d blk).any fun k => k.state == .bootBand || k.state == .eventBand

/-- The outcome of patrol for a page that is in no band (R193, R259): there is no band to refresh; a block to retire is replaced. -/
def patrolSpecial (t d blk page : Nat) (w : PatrolWorst) (s : State) : State :=
  match w with
  | .hard _ | .retried => s
  | .soft => logEv .mediaMargin t [d, blk, page] s
  | .uncorrectable _ => replaceSpecial 3 d blk (logEv .patrolUncorr t [d, blk, page] s)

/-- PATROL_READ (R258, R259): one page is patrolled; its worst codeword decides. A row with an outcome is not compared
(R273). -/
def patrolRead (d blk page : Nat) (w : PatrolWorst) (s : State) : State :=
  let t := tileOfDie d
  if s.tfld t .med_cfg_patrol_en != 1 || !dieServes s d || !patrolled s d blk page then s
  else
    let s1 := bump t .med_patrol_pages_count (updDie d (fun x => { x with patrolBlock := blk, patrolPage := page })
      (noteOp { blankOp .read .b6 d with words := 4 * planesOf s }
        { s with media := { s.media with patrolNow := s.media.patrolNow.filter fun x => x != (d, blk) } }))
    match bandOfBlock s d blk with
    | none => patrolSpecial t d blk page w s1
    | some (b, m) =>
      let row := page / (if b.slc then planesOf s else 4 * planesOf s)
      let out := fun s => markRefresh b { s with red := { s.red with
        noCompare := s.red.noCompare ++ [(b.sg, b.idx, row)]
        fpRows := s.red.fpRows.filter fun f => !(f.sg == b.sg && f.band == b.idx && f.row == row) } }
      match w with
      | .hard n => if s.tfld t .med_patrol_refresh_bits < n then out s1 else s1
      | .retried => out s1
      | .soft => logEv .mediaMargin t [d, blk, page] (out s1)
      | .uncorrectable ok =>
        let s2 := updBlk d blk (fun k => { k with retire := true }) <| logEv .patrolUncorr t [d, blk, page] (updBand b.sg b.idx (fun x => { x with
          retireMembers := (m :: x.retireMembers).eraseDups }) (out s1))
        if ok then s2
        else ((s2.rcl.flash.filter fun e => dieOf e.addr == d && blockOf e.addr == blk && pageOf e.addr ≤ page &&
            page ≤ pageOf e.addr + (grainOf e.addr + e.len - 1) / 64)).foldl (fun s e => loseExtent e (List.range e.nblk) 2 s) s2

def execPatrolRead (d blk page : Nat) (w : PatrolWorst) (s : State) : Host.Outcome State Fault Refusal :=
  .next (patrolRead d blk page w s)

/-- DISTURB_LIMIT (R260): a block whose count has reached disturb_k × 1,000 is patrolled at once, ahead of its turn, and its count
clears. -/
def disturbLimit (d blk : Nat) (s : State) : State :=
  if (findBlk s d blk).any fun k => 1000 * s.tfld (tileOfDie d) .med_disturb_disturb_k ≤ k.reads then
    updBlk d blk (fun k => { k with reads := 0 })
      { s with media := { s.media with patrolNow := s.media.patrolNow ++ [(d, blk)] } }
  else s

def execDisturbLimit (d blk : Nat) (s : State) : Host.Outcome State Fault Refusal := .next (disturbLimit d blk s)

/-- READ_LEVEL_SAVE (R256): the read-level tables of the tile's dies are saved with the band table. -/
def execReadLevelSave (t : Nat) (s : State) : Host.Outcome State Fault Refusal :=
  .next { s with media := { s.media with
    saved := (s.media.saved.filter fun l => tileOfDie l.die != t) ++ s.media.levels.filter fun l => tileOfDie l.die == t } }

end Sys2Proof.Machine
end

