-- ==== Sys2Proof/Machine/RedCmds.lean ====
section
/-!
DEFINITION. Sys2Proof/Machine/RedCmds.lean: fingerprints and their comparison, lost-range search, healing, the verify
test and the stripe journal's copies (R263 to R296).
-/
namespace Sys2Proof.Machine
open Sys2Proof

/-! ### Fingerprints (R273, R274) -/

/-- A row's fingerprints show a fault (R273): the XOR over all members but Q of fp_p, or over all but P of fp_q, is not 0. -/
def fpMismatch (s : State) (f : FpRow) : Bool :=
  let k := dataUnits s f.sg
  let x := fun (g : Nat × Nat × Nat → Nat) (skip : Nat) => ((f.fps.filter fun y => y.1 != skip).map g).foldl Nat.xor 0
  x (fun y => y.2.1) (k + 1) != 0 || x (fun y => y.2.2) k != 0

/-- FINGERPRINT_REPORT (R273): the row leader enters a member's fingerprints; with the last it compares the row. A row
displaced from the store of 4,096 is skipped. -/
def fingerprint (sg b i m p q : Nat) (s : State) : State :=
  let t := leaderTile s sg
  if s.tfld t .red_cfg_parity_check_en != 1 || s.red.noCompare.contains (sg, b, i) || memberCount s sg ≤ m then s
  else
    let isIt := fun (f : FpRow) => f.sg == sg && f.band == b && f.row == i
    let f := (s.red.fpRows.find? isIt).getD { sg := sg, band := b, row := i, fps := [], since := s.nowMs, mismatch := false }
    let f1 := { f with fps := (f.fps.filter fun y => y.1 != m) ++ [(m, p, q)] }
    let others := s.red.fpRows.filter fun f => !isIt f
    let mine := others.filter fun f => leaderTile s f.sg == t
    let full : Bool := decide (4096 ≤ mine.length)
    let rest := if full then match mine.head? with
      | some old => others.filter fun f => !(f.sg == old.sg && f.band == old.band && f.row == old.row)
      | none => others
      else others
    let s1 := if full then bump t .red_parity_events_parity_skipped s else s
    if f1.fps.length < memberCount s sg then { s1 with red := { s1.red with fpRows := rest ++ [f1] } }
    else
      let s2 := bump t .red_parity_cmp_count { s1 with red := { s1.red with fpRows := rest } }
      if fpMismatch s f1 then
        bump t .red_parity_events_mismatches
          { s2 with red := { s2.red with fpRows := rest ++ [{ f1 with mismatch := true }] } }
      else s2

def execFingerprintReport (sg b i m p q : Nat) (s : State) : Host.Outcome State Fault Refusal :=
  .next (fingerprint sg b i m p q s)

/-- The member that the syndromes of a row locate (R274): none where all are zero; P, Q or a data member; or more than
one. -/
inductive Located
  | noFault | one (member : Nat) | several
deriving DecidableEq, Repr

/-- The conclusion of R274 from the syndromes Sp and Sq at every byte position, for `k` data members. -/
def locate (k : Nat) (sp sq : Bytes) : Located :=
  let ps := (sp.zip sq).filter fun x => x.1 != 0 || x.2 != 0
  if ps.isEmpty then .noFault
  else if ps.all fun x => x.2 == 0 then .one k
  else if ps.all fun x => x.1 == 0 then .one (k + 1)
  else match (List.range k).find? fun z => ps.all fun x => x.1 != 0 && x.2 == gfMul (gfPow z) x.1 with
    | some z => .one z
    | none => .several

/-- PARITY_MISMATCH_LOCATE (R274): PARITY_MISMATCH is logged with the suspect member; the band is marked for refresh. -/
def mismatchLocate (sg b i : Nat) (sp sq : Bytes) (s : State) : State :=
  if !s.red.fpRows.any fun f => f.sg == sg && f.band == b && f.row == i && f.mismatch then s
  else
    let s1 := { s with red := { s.red with
     fpRows := s.red.fpRows.filter fun f =>
      !(f.sg == sg && f.band == b && f.row == i) } }
    let k := dataUnits s sg
    let x := findBand s sg b
    let refresh := fun s => match x with
      | some x => markRefresh x s
      | none => s
    let first := i * 4 * planesOf s * if x.any (·.slc) then 1 else 4
    let cws := (((sp.zip sq).zipIdx.filter fun y => y.1.1 != 0 || y.1.2 != 0).map fun y => first + y.2 / 4096).eraseDups
    let log := fun m s => countLife 10 (logEv .parityMismatch (leaderTile s sg) [sg, b, i, m] s)
    match locate k sp sq with
    | .noFault => log 0xFF s1
    | .one m => refresh (log m (if m < k then { s1 with red := { s1.red with
        lostSlots := s1.red.lostSlots ++ cws.map fun c => { sg := sg, band := b, row := i, member := m, cw := c, dead := false } } } else s1))
    | .several => refresh (log 0xFF { s1 with red := { s1.red with unresolved := ((sg, b) :: s1.red.unresolved).eraseDups } })

def execParityMismatchLocate (sg b i : Nat) (sp sq : Bytes) (s : State) : Host.Outcome State Fault Refusal :=
  .next (mismatchLocate sg b i sp sq s)

/-- ROW_STORE_EXPIRY (R273): a row incomplete after 24 hours is counted in parity_skipped. -/
def rowStoreExpiry (sg b i : Nat) (s : State) : State :=
  match s.red.fpRows.find? fun f => f.sg == sg && f.band == b && f.row == i && !f.mismatch with
  | none => s
  | some f =>
    if s.nowMs < f.since + 86400000 then s
    else bump (leaderTile s sg) .red_parity_events_parity_skipped
      { s with red := { s.red with
         fpRows := s.red.fpRows.filter fun f =>
          !(f.sg == sg && f.band == b && f.row == i) } }

def execRowStoreExpiry (sg b i : Nat) (s : State) : Host.Outcome State Fault Refusal := .next (rowStoreExpiry sg b i s)

/-- The blocks of an extent that lost codewords of its block take with them (R272): all of a compressed extent, or of a raw one whose
header is lost; else those that overlap. -/
def blocksIn (e : FExt) (cws : List Nat) : List Nat :=
  let hit := fun (a b : Nat) => cws.any fun c => decide (a / 4096 ≤ c) && decide (c ≤ (b - 1) / 4096)
  let at_ := (pageOf e.addr * 64 + grainOf e.addr) * 256
  if !hit at_ (at_ + 256 * e.len) then []
  else if !e.raw || hit at_ (at_ + 32) then List.range e.nblk
  else (List.range e.nblk).filter fun k => hit (at_ + 32 + 4096 * k) (at_ + 32 + 4096 * (k + 1))

/-- LOST_RANGE_SEARCH (R272): what the lost codewords of a data unit held enters the log with cause SLOT_LOST, where their slots cannot be
recovered. -/
def lostSearch (sg b i m : Nat) (s : State) : State :=
  let is := fun (x : LostSlot) => x.dead && x.sg == sg && x.band == b && x.row == i && x.member == m
  let cws := (s.red.lostSlots.filter is).map (·.cw)
  if cws.isEmpty then s
  else
    let s1 := { s with red := { s.red with lostSlots := s.red.lostSlots.filter fun x => !is x } }
    (s1.rcl.flash.filter fun e => e.sg == sg && e.band == b && e.row == i && e.member == m).foldl
      (fun s e => loseExtent e (blocksIn e cws) 1 s) s1

def execLostRangeSearch (sg b i m : Nat) (s : State) : Host.Outcome State Fault Refusal :=
  .next (lostSearch sg b i m s)

/-! ### Healing (R282 to R287) -/

/-- Gives a member of a band a substitute, whose rows are then rebuilt, or stalls (R283, R285). -/
def startSubst (g : Group) (b : Band) (m : Nat) (s : State) : State :=
  match assignSubst g b m s with
  | none => stallHealing g.sg s
  | some s1 => healRow g.sg b.idx m s1

/-- The next band of a group to heal (R284): map-band bands, bands with two lost members, bands with one; the oldest
first. FREE bands get their substitutes when they open. -/
def nextToHeal (s : State) (g : Group) : Option Band :=
  let bs := (s.rcl.bands.filter fun b => b.sg == g.sg && (b.state == .sealed || b.state == .open) &&
    !(unstarted s g b).isEmpty).mergeSort fun a b => decide (a.seq ≤ b.seq)
  (bs.find? fun b => b.mapBand).or ((bs.find? fun b => 2 ≤ (bandLost s g b).length).or bs.head?)

/-- HEAL_BAND_START (R284, R285): up to two bands at once; a SEALED data band below rebuild_reclaim_pct is healed by
relocation, any other by a substitute for each lost member. -/
def healStart (sg : Nat) (s : State) : State :=
  match findGroup s sg with
  | none => s
  | some g =>
    let busy := ((s.red.substs.filter fun x => x.sg == sg && !x.done).map (·.band)).eraseDups ++
      ((s.rcl.bands.filter fun b => b.sg == sg && b.why == some .replace && b.state == .reclaiming).map (·.idx))
    if g.state == .unavailable || g.state == .optimal || 2 ≤ busy.length then s
    else match nextToHeal s g with
      | none => s
      | some b =>
        if !b.mapBand && b.state == .sealed &&
            validPermille s b < 10 * s.tfld (leaderTile s sg) .red_rebuild_rebuild_reclaim_pct then
          startRelocation .replace sg b.idx s
        else (unstarted s g b).foldl (fun s m => startSubst g b m s) s

def execHealBandStart (sg : Nat) (s : State) : Host.Outcome State Fault Refusal := .next (healStart sg s)

/-- SUBST_DONE (R279, R285): every word line of the substitute is settled; reads go to it from now on. -/
def substDone (sg b m : Nat) (s : State) : State :=
  match s.red.substs.find? fun x => x.sg == sg && x.band == b && x.member == m && !x.done with
  | none => s
  | some x =>
    if healing s sg b m || (findBand s sg b).any (fun y => x.next < y.rows) then s else
    let s2 := completeSubst x s
    let healed := match findGroup s2 sg, findBand s2 sg b with
      | some g, some y => (bandLost s2 g y).isEmpty
      | _, _ => false
    setGroupState sg (if healed then updGroup sg (fun g => { g with healed := g.healed + 1 }) s2 else s2)

def execSubstDone (sg b m : Nat) (s : State) : Host.Outcome State Fault Refusal := .next (substDone sg b m s)

/-! ### The verify test (R277) -/

def verifyOf (s : State) (t : Nat) : Verify :=
  (s.red.verify.find? fun v => v.tile == t).getD { tile := t, sg := 0, busy := false, wrong := 0 }
def setVerify (v : Verify) (s : State) : State :=
  { s with red := { s.red with verify := (s.red.verify.filter fun x => x.tile != v.tile) ++ [v] } }

/-- VERIFY_START (R277): a write of RED_VERIFY. A start while verify_busy is set is ignored and logs CFG_REJECT. -/
def verifyStart (t v : Nat) (s : State) : State :=
  let s1 := setT t .red_verify_verify_sg (bitsOf v 9 0) s
  if !bitOf v 31 then s1
  else if (verifyOf s t).busy then reject t (bar0 t 0 .redVerify) 11 s1
  else setVerify { tile := t, sg := bitsOf v 9 0, busy := true, wrong := (verifyOf s t).wrong } s1

def execVerifyStart (t v : Nat) (s : State) : Host.Outcome State Fault Refusal := .next (tileWrite t (verifyStart t v) s)

/-- The rows that a verify test finds wrong (R276, R277): a unit that is not what the other members give, byte for byte, or whose
reconstruction fails the check of R275. -/
def wrongRows (s : State) (t sg : Nat) (us : List VerifyUnit) : List (Nat × Nat) :=
  ((us.filter fun u => u.recon != u.read || !unitPasses s t (unitBase s sg u.band u.row u.member) u.recon).map
    fun u => (u.band, u.row)).eraseDups

/-- VERIFY_END (R274, R276, R277): the test ends; rows found wrong are counted, and located as after a mismatch of fingerprints. -/
def verifyEnd (t : Nat) (us : List VerifyUnit) (s : State) : State :=
  let v := verifyOf s t
  if !v.busy then s
  else
    let bad := wrongRows s t v.sg us
    let rows := bad.map fun x => ({ sg := v.sg, band := x.1, row := x.2, fps := [], since := s.nowMs, mismatch := true } : FpRow)
    let others := s.red.fpRows.filter fun f => !(f.sg == v.sg && bad.contains (f.band, f.row))
    setT t .red_verify_status_verify_done 1
      (setVerify { v with busy := false, wrong := sat 0xFFFF bad.length } { s with red := { s.red with fpRows := others ++ rows } })

def execVerifyEnd (t : Nat) (us : List VerifyUnit) (s : State) : Host.Outcome State Fault Refusal := .next (verifyEnd t us s)

/-! ### The stripe journal (R291 to R293) -/

/-- SJ_TAIL_TIMER (R205, R292): 100 ms after its first entry, or 50 µs in write-through mode, the tail is written as a segment, in three
copies; rows that waited for a record in it start. -/
def execSjTailTimer (sg : Nat) (s : State) : Host.Outcome State Fault Refusal :=
  .next (if (findSj s sg).tail.isEmpty then s else startClosed (putSj (sjFlush (findSj s sg)) s))

/-- SJ_SNAPSHOT (R290, R292): a snapshot every 10 minutes; it holds what the entries before it said. -/
def execSjSnapshot (sg : Nat) (s : State) : Host.Outcome State Fault Refusal :=
  .next (if s.red.groups.any (fun g => g.sg == sg) then
    putSj { findSj s sg with tail := [], flash := [] } s else s)

/-- SJ_COPY_LOST (R293). -/
def execSjCopyLost (sg k : Nat) (s : State) : Host.Outcome State Fault Refusal :=
  .next (if 3 ≤ k || (findSj s sg).copiesLost.contains k || !s.red.groups.any (fun g => g.sg == sg) then s
    else logEv .sjCopyLost (leaderTile s sg) [sg, k]
      (putSj { findSj s sg with copiesLost := (findSj s sg).copiesLost ++ [k] } s))

/-- SJ_COPY_RESTORED (R293): the new copy is programmed. -/
def execSjCopyRestored (sg k : Nat) (s : State) : Host.Outcome State Fault Refusal :=
  .next (if (findSj s sg).copiesLost.contains k then
    logEv .sjCopyRestored (leaderTile s sg) [sg, k]
      (putSj { findSj s sg with copiesLost := (findSj s sg).copiesLost.filter fun x => x != k } s)
    else s)

end Sys2Proof.Machine
end

