-- ==== Sys2Proof/Machine/PlpOps.lean ====
section
/-!
DEFINITION. Sys2Proof/Machine/PlpOps.lean: the hold-up budget, write-through mode, the dump and the restart record
(R298 to R321).
-/
namespace Sys2Proof.Machine
open Sys2Proof

def updPlp (f : Plp → Plp) (s : State) : State := { s with plp := f s.plp }

/-! ### The budget (R301 to R303, R309, R313) -/

/-- A bus-equivalent voltage from a ball reading in mV and a ratio in 1/16 (R297, R322). -/
def busMv (ratio pin : Nat) : Nat := pin * ratio / 16

/-- Twice the usable energy E of R301, in pJ: C in µF times the difference of squares in mV². -/
def twiceEnergy (capUf v vmin : Nat) : Nat := capUf * (v * v - vmin * vmin)

/-- The fixed cost in pJ, the cost per GiB in pJ and the MiB that the fixed cost covers (R302). -/
def dumpCost : Part → Nat × Nat × Nat
  | .aqk8064 => (400000000000, 900000000000, 16)
  | .aqk4032 => (300000000000, 1100000000000, 8)
  | .aqk2016 => (300000000000, 1100000000000, 4)

/-- Staged data is what tiles hold as member, in MiB, rounded up (R302, R322). -/
def stagedMib (s : State) : Nat :=
  ceilDiv (((presentTiles s).map (stagedGrains s)).sum) 4096

/-- The fixed items in bytes (R302, R311): tails, unarchived events, one header for each item, the restart record. -/
def fixedBytes (s : State) : Nat :=
  32 * (s.map.journals.map fun j => j.head - j.durable).sum + 32 * (s.red.sjs.map fun j => j.tail.length).sum +
  32 * (s.evr.store.filter fun r => !r.archived).length + 32 * (s.wr.exts.length + 4 * (presentTiles s).length) + 256

/-- MB/s of payload of a channel at its present rate (R313): 8/9 of the rate in MT/s. -/
def payloadMbs (rate : Nat) : Nat := rateMts rate * 8 / 9

/-- The dump rate in MB/s, and the reference rate, over the channels in service (R313). -/
def dumpRate (s : State) : Nat :=
  let n := s.gfld .plp_cfg_dump_dies_ch
  let prog := descHalf s 0 14
  ((s.media.chans.filter fun c => c.state == .up && tileUp s (c.ch / 8)).map fun c =>
    min (n * planesOf s * 16384 / max 1 prog) (payloadMbs c.rate) * 7 / 8).sum
def referenceRate (s : State) : Nat :=
  2800 * (s.media.chans.filter fun c => c.state == .up && tileUp s (c.ch / 8)).length

/-- Bytes of a block in SLC mode (R309). -/
def slcBlockBytes (s : State) : Nat := planesOf s * wordLines s * 16384

/-- The MiB of half the seal band in service (R309): the SEAL blocks other than anchors on dies in service. It is 0 until
every tile in service has completed discovery and the seal blocks are set aside (R302). -/
def halfSealMib (s : State) : Nat :=
  let known := s.red.formed && (presentTiles s).all fun t =>
    s.media.chans.any fun c => c.ch / 8 == t && (c.state == .up || c.state == .failed)
  if !known then 0
  else
    let n := (s.rcl.blocks.filter fun b => b.state == .seal && dieServes s b.die).length
    (n - 8) * slcBlockBytes s * 7 / 8 / 2 / 2 ^ 20

/-- The dump-set limit L in MiB (R301, R302, R309, R313). -/
def limitOfBudget (s : State) : Nat :=
  let c := dumpCost s.ident.part
  let budget := twiceEnergy s.plp.capUf s.plp.budgetMv (s.gfld .plp_bank_vmin_mv) * 4 / 10
  let per := if dumpRate s < referenceRate s then c.2.1 * referenceRate s / max 1 (dumpRate s) else c.2.1
  let extra := ceilDiv (fixedBytes s - c.2.2 * 2 ^ 20) (2 ^ 20)
  min (halfSealMib s) ((budget - c.1) * 1024 / per - extra)

/-! ### Write-through mode (R304, R305) -/

/-- Every FILLING row closes at once, as far as its extents are confirmed (R186, R299, R305). -/
def expireRows (s : State) : State :=
  (s.wr.rows.filter fun r => r.state == .filling).foldl (fun s r =>
    closeRow r.sg r.band r.idx (updRow r.sg r.band r.idx (fun r => { r with
      expired := true, units := r.units.map fun u => { u with recalled := u.holder.isSome } }) s)) s

/-- Enters write-through mode (R305). -/
def wtEnter (s : State) : State :=
  let s1 := { s with clock := { s.clock with throughWt := true } }
  expireRows (logEv .writeThroughEnter 15 [(s1.plp.causes.min?).getD 0] (updPlp (fun p => { p with writeThrough := true }) s1))

/-- A cause of write-through mode arises (R304, R305). -/
def addCause (c : Nat) (s : State) : State :=
  let s1 := updPlp (fun p => { p with
    causes := if p.causes.contains c then p.causes else c :: p.causes
    passedSince := p.passedSince && (p.causes.contains c || c < 2 || 6 < c) }) s
  let s2 := if s.plp.writeThrough then s1 else wtEnter s1
  if c == 3 || c == 4 then smartRefresh (updPlp (fun p => { p with failed := true }) s2) else s2

/-- A test starts unless one runs, a dump is held or VSENSE is low; it starts when neither holds any longer (R307). -/
def startTest (s : State) : State :=
  if s.plp.test.isSome then s
  else if s.plp.causes.contains 7 || s.plp.warn then updPlp (fun p => { p with testDue := true }) s
  else updPlp (fun p => { p with
    test := some { step := 1, startMs := s.nowMs, stepMs := s.nowMs, v0 := 0, v1 := 0, esr := 0 }
    testDue := false, lastTestMin := s.island.minutes }) s

/-- Normal mode returns when no cause applies and a test has passed since the last of causes 2 to 6; otherwise that test
is started (R304, R305). -/
def wtCheck (s : State) : State :=
  if !s.plp.writeThrough || !s.plp.causes.isEmpty then s
  else if !s.plp.passedSince then startTest s
  else
    smartRefresh (logEv .writeThroughExit 15 [] (updPlp (fun p => { p with writeThrough := false, failed := false }) s))

/-- Clears causes (R304). -/
def clearCauses (cs : List Nat) (s : State) : State :=
  wtCheck (updPlp (fun p => { p with causes := p.causes.filter fun c => !cs.contains c }) s)

/-- Recomputes L: cause BUDGET_LOW below 256 MiB, cleared from 512 MiB; staged data over L sets throttling and closes rows
in normal mode only (R301, R303, R304). Without plp_enable there is no budget (R322). -/
def recompute (s : State) : State :=
  if s.gfld .plp_cfg_plp_enable == 0 then s
  else
    let l := limitOfBudget s
    let s1 := updPlp (fun p => { p with limitMib := l }) s
    let s2 := if l < 256 then addCause 5 s1 else if 512 ≤ l && s1.plp.causes.contains 5 then clearCauses [5] s1 else s1
    if s2.plp.writeThrough then updPlp (fun p => { p with throttling := false }) s2
    else if l < stagedMib s2 then
      let s3 := expireRows (updPlp (fun p => { p with throttling := true }) s2)
      if s2.plp.throttling then s3 else logEv .ackThrottle 15 [l, stagedMib s2] s3
    else updPlp (fun p => { p with throttling := false }) s2

/-! ### The restart record (R314, R419) -/

/-- Writes a restart record. While off_ready is set every record carries POWER_OFF (R321). -/
def writeRestart (reason : Nat) (s : State) : State :=
  let r := if s.plp.offReady then 3 else reason
  let rec' : RestartRec := {
    recSeq := ((s.plp.record.map (·.recSeq)).getD 0) + 1, reason := r, wt := s.plp.writeThrough,
    held := s.plp.dump.isSome, cycles := s.island.cycles, wseqMark := s.wr.seqMark,
    tilesDumped := ((s.plp.dump.map fun d => (d.reported.map fun t => 2 ^ t).sum)).getD 0,
    dirs := (s.plp.dump.map (·.dirs)).getD []
    ckpts := s.map.journals.map fun j => (j.slot, j.checkpoint), dumpSeq := (s.plp.dump.map (·.seq)).getD 0,
    minutes := s.island.minutes, capUf := s.plp.capUf, testMin := s.plp.testMin, evrMark := s.evr.last + 65536 }
  { s with plp := { s.plp with record := some rec' }, evr := { s.evr with mark := rec'.evrMark } }

/-! ### The dump (R308, R310 to R312) -/

/-- What every tile stops at a power failure (R312): host ports, queue engines, map and placement engines; the die
operations are reset. No completion is posted and no data sent. -/
def stopTiles (s : State) : State :=
  { s with
    host := { s.host with
      conns := [], ctrls := [], sqs := [], cqs := [], irqs := [], cmds := [], buckets := [], demand := [], arb := []
      ports := s.host.ports.map fun p => { p with linkUp := [], recon := 0, paused := [], allPaused := [] } }
    media := { s.media with ops := [] }
    heldAdmin := [], released := [], cleared := [], prov := none
    reg := { s.reg with leases := [] }, heldOuts := [] }

/-- Whether a tile dumps an extent: one it holds as member, or as mirror for a lost member tile (R312). -/
def dumpedBy (s : State) (t : Nat) (e : Ext) : Bool :=
  (e.stage != .toPlace && e.stage != .sent && memberTile s e == t) ||
  (e.mirrorHeld && e.mirrorTile == t && !tileUp s (memberTile s e))

/-- What a dump brought to flash, for the dump of a failure during the restart from it (R317). -/
def dumpedExts (d : Dump) : List (Nat × Ext) := (d.exts.filter fun x => d.holds x.1).map fun x => (15, x.2)

/-- A power failure is declared (R298, R308): the bank is switched in, PFAIL_L driven, a running test aborted, and every
tile begins its dump. A declaration during a dump changes nothing (R520). -/
def declareFailure (s : State) : State :=
  if s.island.pkg != 2 || s.plp.dump.any (fun d => !d.restored) then s
  else
    let exts := (presentTiles s).flatMap fun t => (s.wr.exts.filter (dumpedBy s t)).map fun e => (t, e)
    let old := if s.plp.started then exts else (s.plp.dump.map dumpedExts).getD []
    let d : Dump := {
      seq := s.island.cycles, reported := [], dirs := [], primaryMs := none, exts := old,
      heads := s.map.journals.map (fun j => (j.slot, j.head)), tails := s.red.sjs.map (fun j => (j.sg, j.tail)),
      complete := false, restored := false }
    let s0 := { s with evr := { s.evr with dumped := [], archiving := none } }
    emit (.pins [(.holdupEn, true), (.hutestEn, false), (.pfailL, false)]) (stopTiles (updPlp (fun p => { p with
      holdupEn := true, hutestEn := false, pfailDriven := true, dump := some d
      test := none, result := if p.test.isSome then 6 else p.result, testDue := p.testDue || p.test.isSome }) s0))

/-- The tiles that owe a report. -/
def dumpDone (s : State) (d : Dump) : Bool := (upTiles s).all fun t => d.reported.contains t

/-- The management primary writes the restart record of a dump (R312, R322). -/
def endDump (us : Nat) (s : State) : State :=
  match s.plp.dump with
  | none => s
  | some d =>
    let ok := dumpDone s d
    let got := (d.exts.filter fun x => d.reported.contains x.1).map fun x => x.2.len
    writeRestart (if ok then 1 else 2) (updPlp (fun p => { p with
      dump := some { d with complete := true }, lastIncomplete := !ok, lastUs := sat 0xFFFFFF us
      lastMib := ceilDiv got.sum 4096 }) s)

end Sys2Proof.Machine
end

