-- ==== Sys2Proof/Machine/EvrOps.lean ====
section
/-!
DEFINITION. Sys2Proof/Machine/EvrOps.lean: the event recorder: storing, rate limits, the fallback file, archiving, the window, and
what a start does to it (R417 to R436).
-/
namespace Sys2Proof.Machine
open Sys2Proof

def updEvr (f : Evr → Evr) (s : State) : State := { s with evr := f s.evr }

/-! ### Tokens (R424) -/

def rateBurst (s : State) : Nat := max 1 (s.gfld .evr_cfg_rate_burst)
/-- The tokens of a code: those of a bucket that is not listed fill it. -/
def tokensOf (s : State) (code : Nat) : Nat := ((s.evr.buckets.find? fun b => b.1 == code).map (·.2)).getD (rateBurst s)
def setTokens (code n : Nat) (s : State) : State :=
  updEvr (fun e => { e with buckets := (e.buckets.filter fun b => b.1 != code) ++ (if n < rateBurst s then [(code, n)] else []) }) s

/-! ### Storing (R417, R419, R423) -/

/-- Slots of the store, or of the fallback file (R423, R431). -/
def slotsOf (s : State) : Nat := if s.evr.fallback then 16 else 8192

/-- The records after one enters (R423): a free slot, else the archived record with the lowest sequence gives its slot, else the
oldest unarchived one of no higher severity; none when there is none. -/
def place (slots : Nat) (r : EvRec) (rs : List EvRec) : Option (List EvRec) :=
  if rs.length < slots then some (rs ++ [r])
  else match (rs.find? (·.archived)).or (rs.find? fun x => decide (x.sev ≤ r.sev)) with
    | some old => some (rs.erase old ++ [r])
    | none => none

/-- Counts a dropped record of a severity (R423). -/
def countDrop (sev : Nat) (s : State) : State :=
  updEvr (fun e => { e with drops := e.drops.set sev (sat 0xFFFF (e.drops.getD sev 0 + 1)) }) s

/-- Stores a record of an event with the next number, or drops it (R419, R423): the count of suppressed events of its code goes with
it, a severe one starts archiving and raises the status vector (R427, R472), and evr_mark is kept ahead of it (R419). -/
def storeRecord (ev : Ev) (tile flags : Nat) (params : List Nat) (s : State) : State :=
  let n := ((s.evr.supp.find? fun x => x.code == ev.code).map (·.count)).getD 0
  let r : EvRec :=
    { seq := s.evr.last + 1, code := ev.code, sev := ev.severity, tile := tile,
      flags := flags + (if 255 < n then 1 else 0) + (if s.evr.fallback then 8 else 0), minutes := s.island.minutes,
      cycles := s.island.cycles % 2 ^ 24, repeats := sat 255 n, params := (params ++ [0, 0, 0, 0]).take 4, archived := false,
      ms := s.nowMs }
  if s.island.pkg != 2 && s.evr.mark < r.seq then countDrop r.sev s
  else match place (slotsOf s) r s.evr.store with
    | none => countDrop r.sev s
    | some rs =>
      let severe := decide (5 ≤ r.sev)
      let s1 := updEvr (fun e => { e with
        store := rs, last := r.seq, supp := e.supp.filter fun x => x.code != ev.code, trigger := e.trigger || severe }) s
      let s2 := if s.island.pkg == 2 && s1.evr.mark ≤ r.seq + 32768 then writeRestart 0 s1 else s1
      let s3 := if severe then emit (.ringIrq 3) s2 else s2
      deliverEvents (archiveCheck s3)

/-- A store that fails (R430): the fallback file takes over, and LOG_STORE_FAULT enters it first. -/
def storeFault (s : State) : State :=
  if s.evr.fallback then s
  else
    let gone := unarchived s
    let high := ((gone.map (·.seq)).max?).getD 0
    storeRecord .logStoreFault 15 0 [gone.length, high] (updEvr (fun e => { e with fallback := true, store := [] }) s)

/-- The event recorder takes one event (R420, R424): it is discarded below log_min_sev, suppressed when its code has no token, and
stored otherwise. Events of severity 5 and 6 take no token. -/
def takeEvent (e : EvRaise) (s : State) : State :=
  let code := e.ev.code
  if e.ev.severity < s.gfld .evr_cfg_log_min_sev then s
  else if 5 ≤ e.ev.severity then storeRecord e.ev e.tile 0 e.params s
  else if tokensOf s code == 0 then
    let n := ((s.evr.supp.find? fun x => x.code == code).map (·.count)).getD 0
    updEvr (fun v => { v with supp := (v.supp.filter fun x => x.code != code) ++
      [{ code := code, count := n + 1, tile := e.tile, params := e.params }] }) s
  else storeRecord e.ev e.tile 0 e.params (setTokens code (tokensOf s code - 1) s)

/-! ### The window (R432 to R434) -/

def held (s : State) : List EvRec := s.evr.store ++ s.evr.bandPrev ++ s.evr.band

/-- Shows the record of a number that is held: at once from the store, after a fetch from the event band, a read of class M (R37, R433). -/
def showRecord (n : Nat) (gap : Bool) (s : State) : State :=
  match s.evr.store.find? fun r => r.seq == n with
  | some r => updEvr (fun e => { e with win := { e.win with
      valid := true, gap := gap, pending := false, fromBand := false, latched := some r } }) s
  | none =>
    let s1 := updEvr (fun e => { e with win := { e.win with
      valid := false, gap := gap, pending := true, fromBand := true, latched := (held s).find? fun r => r.seq == n } }) s
    match s1.rcl.blocks.find? fun b => b.state == .eventBand && dieServes s1 b.die with
    | some b => addOp { blankOp .read .m b.die with use := .archive, words := 1, addr := grainAddr b.die b.block 0 0 } s1
    | none => s1

/-- Latches the record at the cursor, or the outcome of R434. -/
def latchAt (n : Nat) (s : State) : State :=
  let s1 := updEvr (fun e => { e with win := { EvWin.initial with cursor := n } }) s
  if (held s).any fun r => r.seq == n then showRecord n false s1
  else if s.evr.last < n then s1
  else match (((held s).filter fun r => n < r.seq).map (·.seq)).min? with
    | some m => showRecord m true s1
    | none => updEvr (fun e => { e with win := { e.win with gap := true } }) s1

/-! ### A start (R419, R429 to R431) -/

/-- What a tile's dump item holds of the recorder (R312, R429): the unarchived records that name the tile, and from the management
primary those of the package and of tiles lost before. -/
def eventTail (t : Nat) (s : State) : List EvRec :=
  (unarchived s).filter fun r => r.tile == t || (t == s.mgmt.primary && !tileUp s r.tile)

/-- The recorder at a restart (R419, R424, R429, R431): a store whose check fails, or that the island lost, is rebuilt from the dump;
numbering resumes above every number found, and above evr_mark when the island started afresh; the fallback ends when the store
passes. -/
def evrRestart (storeOk : Bool) (s : State) : State :=
  let lost := !storeOk || s.evr.fresh
  let kept := if lost then s.evr.dumped.map fun r => { r with flags := setBit r.flags 2 true } else s.evr.store
  let found := (((kept ++ s.evr.dumped ++ s.evr.bandPrev ++ s.evr.band).map (·.seq)).max?).getD 0
  let last := if s.evr.fresh then max found ((s.plp.record.map (·.evrMark)).getD 0) else max found s.evr.last
  let ends := s.evr.fallback && storeOk
  let s1 := updEvr (fun e => { e with
    store := kept.drop (kept.length - slotsOf s), last := last, evtNext := last + 1, fresh := false, dumped := []
    fallback := e.fallback && !storeOk }) s
  if ends then logEv .logStoreRestored 15 [] s1 else s1

end Sys2Proof.Machine
end

