-- ==== Sys2Proof/Machine/LossOps.lean ====
section
/-!
DEFINITION. Sys2Proof/Machine/LossOps.lean: what the loss of a DRAM channel or of a tile takes, and the adoption of slots
(R29, R130, R131, R160, R163, R186, R291, R385).
-/
namespace Sys2Proof.Machine
open Sys2Proof

/-- What a lost tile's journal keeps (R153, R163): the entries in programmed segments, and those whose copy the mirror holds. -/
def tailLost (t : Nat) (s : State) : State :=
  { s with map := { s.map with journals := s.map.journals.map fun j => { j with
      entries := j.entries.filter fun e => e.mirrored || e.pos < j.durable || ownerTile s e.nsid (e.lba / 256) != t } } }

/-- The forward ledger of an adopted slot is rebuilt from its journal, and the parts that its coordinator has no confirmation of are sent
again as replays (R158). -/
def forwardsAdopted (t : Nat) (s : State) : State :=
  let j := findJournal s t
  let seqs := ((j.entries.filter fun e => e.type == .write || e.type == .unmap).map (·.seq)).eraseDups
  putJournal { j with ledger := seqs.map fun q => (q, s.nowMs) } { s with map := { s.map with
    forwards := s.map.forwards.map fun w => if ownerSlot s w.nsid (w.region - 1) == t then
      { w with replay := true, arrived := false, applied := false, sentMs := s.nowMs } else w } }

/-- The regions that another tile owns now, or whose slot has changed hands: each is rebuilt at its owner (R160, R163). -/
def rebuildMoved (old : State) (t : Nat) (s : State) : State :=
  let moved := s.map.regions.filter fun x => ownerSlot s x.nsid x.r == t || ownerTile old x.nsid x.r != ownerTile s x.nsid x.r
  let keys := moved.map fun x => (x.nsid, x.r)
  let s1 := keys.foldl (fun s k => rebuildRegion k.1 k.2 s) s
  { s1 with media := { s1.media with ops := s1.media.ops.filter fun o => match o.use with
      | .mapFetch n r => !keys.contains (n, r)
      | _ => true } }

/-- The slot of a tile is adopted by the tiles that hold their own (R130, R160, R163): MAP_ADOPT is logged at the start; the pages that
the tile held go, of its own slot and of those it had adopted, and what was dirty is rebuilt from the records and the journal, which
SRAM and its mirror hold; of a lost tile the mirror's copy alone. -/
def adoptSlot (t : Nat) (lost : Bool) (s0 : State) : State :=
  let s := if lost then tailLost t s0 else s0
  if s.map.away.contains t then s
  else
    let s1 := { s with map := { s.map with
      away := s.map.away ++ [t]
      handBack := s.map.handBack.filter fun x => x != t
      returned := s.map.returned.filter fun x => x.1 != t
      dirs := s.map.dirs.map fun d => if d.slot == t then { d with loaded := d.len == 0, wb := none } else d } }
    logEv .mapAdopt t [t, 0] (rebuildMoved s t (forwardsAdopted t s1))

/-- The mirror copies held by a tile go; each member sends its extents to another tile (R186). -/
def mirrorLost (t : Nat) (inDramOnly : Bool) (s : State) : State :=
  let hit := fun (e : Ext) => e.mirrorTile == t && e.stage != .toPlace && e.stage != .sent && e.stage != .closed &&
    (!inDramOnly || e.inDram) && tileUp s (memberTile s e)
  let members := ((s.wr.exts.filter hit).map (memberTile s)).eraseDups
  let s1 := { s with wr := { s.wr with exts := s.wr.exts.map fun e => if hit e then
      let m := mirrorOf s (memberTile s e)
      if e.mirrorHeld then { e with mirrorTile := if m == t then linkTo s (memberTile s e) .knight else m, mirrorHeld := false }
      else { e with mirrorTile := if m == t then linkTo s (memberTile s e) .knight else m } else e } }
  members.foldl (fun s m => logEv .mirrorResync m [m, if mirrorOf s m == t then linkTo s m .knight else mirrorOf s m, 0] s) s1

/-- Rows with extents that a tile held staged as member are re-placed from their mirror copies (R186, R385). -/
def memberStagingLost (t : Nat) (inDramOnly : Bool) (s : State) : State :=
  let hit := fun (e : Ext) => memberTile s e == t && e.stage != .toPlace && e.stage != .sent && e.stage != .closed &&
    (!inDramOnly || e.inDram)
  let rows := ((s.wr.exts.filter hit).map fun e => (e.sg, e.band, e.row)).eraseDups
  rows.foldl (fun s r => reprogramRow r.1 r.2.1 r.2.2 s) s

/-- What a frozen DRAM channel held is recovered (R385). -/
def dramLost (t : Nat) (s : State) : State :=
  let s1 := memberStagingLost t true (mirrorLost t true (adoptSlot t false s))
  let touched := (s1.red.groups.filter fun g => g.members.any fun d => tileOfDie d == t).map (·.sg)
  let inTouched := fun (b : Blk) => (groupOfDie s1 b.die).any fun g => touched.contains g.sg

  { s1 with
    rcl := { s1.rcl with
      censusDone := s1.rcl.censusDone.filter fun g => !touched.contains g
      toCensus := s1.map.regions.map fun x => (x.nsid, x.r)
      summariesDone := s1.rcl.summariesDone.filter fun x => x != t
      blocks := s1.rcl.blocks.map fun b =>
        { b with
          live := if inTouched b then 0 else b.live
          reads := if tileOfDie b.die == t then readsAtStart s1 b.die else b.reads } }
    media := { s1.media with
      levels := (s1.media.levels.filter fun l => tileOfDie l.die != t) ++ s1.media.saved.filter fun l => tileOfDie l.die == t }
    clock := if t == s1.mgmt.primary then { s1.clock with held := [], countsLost := true } else s1.clock }

/-- The members that a lost tile holds are lost (R278, R279), with cause 1. -/
def tileMembersLost (t : Nat) (s : State) : State :=
  (s.red.groups.flatMap fun g => (g.members.zipIdx.filter fun m => tileOfDie m.1 == t).map fun m => (g.sg, m.2)).foldl
    (fun s x => memberLost x.1 x.2 1 s) s

end Sys2Proof.Machine
end

