-- ==== Sys2Proof/Machine/MapCmds.lean ====
section
/-!
DEFINITION. Sys2Proof/Machine/MapCmds.lean: the steps of the map engine: lookups, updates, fetches, write-back, the
journal, forwarded parts, adoption and hand-back (R30, R137 to R164).
-/
namespace Sys2Proof.Machine
open Sys2Proof

/-! ### Requests and what they wait for (R30, R145, R156) -/

/-- Prefetch of the next region's page when a lookup touches the last 16 blocks of a region (R148): it takes no frame that is dirty, and
none while the walker holds 192 fetches. -/
def prefetch (n r lastBlock : Nat) (s : State) : State :=
  let t := ownerTile s n (r + 1)
  if s.tfld (ownerTile s n r) .map_cfg_prefetch_en == 1 && 240 ≤ lastBlock && fetches s t < 192 then
    match whereIs s n (r + 1) with
    | .miss => startFetch n (r + 1) .b1 0 s
    | _ => s
  else s

/-- The first use of a region of an adopted record has the record read from the map band (R147, R163). -/
def useDir (n r : Nat) (c : PClass) (cmd : Nat) (s : State) : State :=
  let slot := ownerSlot s n r
  let i := dirIndex s r
  match s.map.dirs.find? fun d => d.slot == slot && d.nsid == n && d.index == i && !d.loaded with
  | none => s
  | some d =>
    if !dieServes s (dieOf d.addr) || s.media.ops.any (fun o => o.use == .dirLoad slot n i) then s
    else addOp { blankOp .read c (dieOf d.addr) with
      use := .dirLoad slot n i, cmd := cmd, addr := d.addr, words := wordsOf d.addr d.len } s

/-- The last journal position of a slot. -/
def lastPos (s : State) (slot : Nat) : Nat := (findJournal s slot).head - 1

/-- MiB of 32-byte entries. -/
def entriesMib (k : Nat) : Nat := 32 * k / 2 ^ 20

/-- MAP_CHECKPOINT (R154, R314): the window starts at the lowest dirty-since position; segments wholly before it are
released, the record table is named, and a restart record is written. -/
def mapCheckpoint (slot : Nat) (s : State) : State :=
  let w := windowStart s slot
  let j := findJournal s slot
  writeRestart 0 (putJournal { j with
    window := w, checkpoint := w
    tables := (s.map.dirs.filter fun d => d.slot == slot && 0 < d.len).map fun d => { nsid := d.nsid, index := d.index, addr := d.addr, len := d.len }
    entries := j.entries.filter fun e => decide (w ≤ e.pos) || decide (j.durable ≤ e.pos) } s)

def execMapCheckpoint (slot : Nat) (s : State) : Host.Outcome State Fault Refusal := .next (mapCheckpoint slot s)

/-- Watches the window of a slot's journal (R154): at 75% of journal_window_mib its oldest frames are written back in H1 until it is
below 50%; a checkpoint is written when its start has advanced by a quarter. -/
def windowCheck (slot : Nat) (s : State) : State :=
  let j := findJournal s slot
  let w := windowStart s slot
  let mib := s.tfld slot .map_paging_journal_window_mib
  let size := 100 * entriesMib (j.head - w)
  let s1 := putJournal { j with hot := decide (75 * mib ≤ size) || (j.hot && decide (50 * mib ≤ size)) } s
  if mib ≤ 4 * entriesMib (w - j.checkpoint) then mapCheckpoint slot s1 else s1

/-- Applies plans to a region in order (R30, R54, R137). -/
def applyPlans (n r : Nat) (ps : List Plan) (s : State) : State :=
  windowCheck (ownerSlot s n r) ((ps.filterMap (planIn r)).foldl (fun s p => applyPlan n r p s) s)

/-- Sends the second region's part of a command to its owner: FORWARD entries in the coordinator's journal, and the part
on its way (R157, R158). -/
def sendForward (c : Cmd) (r r2 : Nat) (s : State) : State :=
  let n := c.cap.nsid
  let part := c.plan.filterMap (planIn r2)
  appendJ (ownerSlot s n r)
    (part.map fun p => { jentry .forward n p.lba p.count ((planSpan s p).getD zeroSpan) p.seq with mirrored := false })
    { s with map := { s.map with forwards := s.map.forwards ++
      [{ cmd := c.id, cls := c.cls, read := none, part := part, nsid := n, region := r2, sentMs := s.nowMs, arrived := false,
         replay := false, applied := false, confirmed := false }] } }

/-- Sends the second piece of a read that crosses a boundary to its owner, once the coordinator has looked up the first (R157). -/
def sendLookup (id lba : Nat) (s : State) : State :=
  match findCmd s id with
  | none => s
  | some c => match forwardedPiece c with
    | none => s
    | some b =>
      if lba / 256 + 1 != b / 256 || s.map.forwards.any (fun w => w.cmd == id) then s
      else { s with map := { s.map with forwards := s.map.forwards ++
        [{ cmd := id, cls := c.cls, read := some b, part := [], nsid := c.cap.nsid, region := b / 256, sentMs := s.nowMs, arrived := false,
           replay := false, applied := false, confirmed := false }] } }

/-- The piece of a command that a lookup is for, while it waits. -/
def openPiece (c : Cmd) (lba : Nat) : Option Piece :=
  c.pieces.find? fun p => p.lba == lba && (p.state == .toLookup || p.state == .queued)

/-- Tries a lookup at its owner: answered, or still waiting for the page (R145). -/
def tryLookup (id lba : Nat) (s : State) : Bool × State :=
  match findCmd s id with
  | none => (true, s)
  | some c => if (openPiece c lba).isNone then (true, s)
    else
      let n := c.cap.nsid
      let r := lba / 256
      if !mapServed s n r then (false, useDir n r c.cls id s)
      else match pageAt n r c.cls id s with
        | (true, s1) => (true, sendLookup id lba (resolvePiece id lba s1))
        | (false, s1) => (false, s1)

/-- A region's part of a command's update, where it is still to be applied by the region's owner. -/
def updateDue (c : Cmd) (r : Nat) : Bool :=
  c.phase == .mapping && c.updates.any (fun u => u.region == r && !u.applied)

/-- Marks a region's part of a command's update as applied, with the positions of its entries; its blocks are no longer charged (R110). -/
def markApplied (id n r first : Nat) (s : State) : State :=
  updCmd id (fun c => { c with
    charged := c.charged - ((c.plan.filterMap (planIn r)).map (·.count)).sum
    updates := c.updates.map fun u => if u.region == r then
      { u with applied := true, firstPos := first, lastPos := lastPos s (ownerSlot s n r) } else u }) s

/-- Tries a region's part of a command's update (R137, R144 to R146, R153, R157). -/
def tryUpdate (id r : Nat) (s : State) : Bool × State :=
  match findCmd s id with
  | none => (true, s)
  | some c =>
    let n := c.cap.nsid
    if !updateDue c r then (true, s)
    else if !mapServed s n r then (false, useDir n r c.cls id s)
    else match whereIs s n r with
      | .miss | .fetching => (false, startFetch n r c.cls id s)
      | _ =>
        if !updateReady s n r then (false, s)
        else
          let first := (findJournal s (ownerSlot s n r)).head
          let s1 := applyPlans n r c.plan (pageAt n r c.cls id s).2
          let s2 := match forwardedRegion c r with
            | some r2 => sendForward c r r2 s1
            | none => s1
          (true, markApplied id n r first s2)

/-- Commits a relocated extent (R201, R203). A re-placed extent of a failed row (R185) and a coalesced one (R151) have no source band that
waits for them. -/
def commitExt (e : Ext) (s : State) : State :=
  if e.parts.isEmpty && s.rcl.flash.any fun x => e.src == some x.addr then updExt e.seq (fun e => { e with committed := true }) s
  else drainPump { s with wr := { s.wr with exts := s.wr.exts.filter fun x => !(x.seq == e.seq && x.stage == .closed) } }

/-- Tries a relocated extent's update at its owner (R151, R156, R185, R201, R203): once its row is PROGRAMMED, it applies only to blocks
that still point at the source, and the blocks applied are live at the destination. -/
def tryRelocate (addr : Nat) (s : State) : Bool × State :=
  match s.wr.exts.find? (fun e => e.addr == addr && e.src.isSome && !e.committed && e.stage == .closed) with
  | none => (true, s)
  | some e =>
    let n := e.nsid
    let r := e.slba / 256
    let c := extClass s e
    if !mapServed s n r then (false, useDir n r c 0 s)
    else match whereIs s n r with
      | .empty => (true, commitExt e s)
      | .miss | .fetching => (false, startFetch n r c 0 s)
      | _ =>
        if !updateReady s n r then (false, s)
        else
          let s1 := (pageAt n r c 0 s).2
          let s2 := if e.parts.isEmpty then applyRelocate n r (e.src.getD 0) e.seq e.addr s1 else applyCoalesce n r e s1
          (true, commitExt e (windowCheck (ownerSlot s n r) s2))

def dropForward (id : Nat) (s : State) : State :=
  { s with map := { s.map with forwards := s.map.forwards.filter fun w => !(w.cmd == id) } }

def updForward (id : Nat) (f : Forward → Forward) (s : State) : State :=
  { s with map := { s.map with forwards := s.map.forwards.map fun w => if w.cmd == id then f w else w } }

/-- The forward ledger holds a sequence applied in the last 1 s (R158). -/
def inLedger (s : State) (w : Forward) : Bool :=
  w.part.any fun p => (findJournal s (ownerSlot s w.nsid w.region)).ledger.any fun l => l.1 == p.seq && decide (s.nowMs ≤ l.2 + 1000)

/-- Enters the sequences of a forwarded part in the ledger (R158). -/
def enterLedger (w : Forward) (s : State) : State :=
  let j := findJournal s (ownerSlot s w.nsid w.region)
  putJournal { j with ledger :=
    (j.ledger.filter fun l => decide (s.nowMs ≤ l.2 + 1000)) ++ w.part.map fun p => (p.seq, s.nowMs) } s

/-- Tries a forwarded part at the second owner (R157, R158): it is applied once; a replay whose sequence the ledger holds is confirmed
without being applied. -/
def tryForward (id : Nat) (s : State) : Bool × State :=
  match s.map.forwards.find? (fun w => w.cmd == id && w.arrived && !w.applied) with
  | none => (true, s)
  | some w =>
    let n := w.nsid
    let r := w.region
    match w.read with
    | some lba => match tryLookup id lba s with
      | (true, s1) => (true, dropForward id s1)
      | (false, s1) => (false, s1)
    | none =>
      if w.replay && inLedger s w then (true, updForward id (fun w => { w with applied := true }) s)
      else if !mapServed s n r then (false, useDir n r w.cls id s)
      else match whereIs s n r with
        | .miss | .fetching => (false, startFetch n r w.cls id s)
        | _ =>
          if !updateReady s n r then (false, s)
          else
            let first := (findJournal s (ownerSlot s n r)).head
            let s1 := enterLedger w (applyPlans n r w.part (pageAt n r w.cls id s).2)
            (true, markApplied id n r first (updForward id (fun w => { w with applied := true }) s1))

/-- Tries a request at the owner of its region. -/
def tryMap (w : MapWait) (s : State) : Bool × State :=
  match w.req with
  | .lookup id lba => tryLookup id lba s
  | .update id r => tryUpdate id r s
  | .relocate addr => tryRelocate addr s
  | .forward id => tryForward id s

/-- Serves the requests that wait, in order of arrival (R30, R145): of each region, none before one that came earlier. -/
def serveMap (s : State) : State :=
  s.map.waiting.foldl (fun s w =>
    if (s.map.waiting.find? fun v => v.nsid == w.nsid && v.r == w.r) != some w then s
    else match tryMap w s with
      | (true, s1) => { s1 with map := { s1.map with waiting := s1.map.waiting.erase w } }
      | (false, s1) => s1) s

/-- A request reaches the owner of its region: it is served, or waits behind those that came earlier (R30, R145, R156). -/
def submitMap (w : MapWait) (s : State) : State :=
  let wait := fun (s : State) => { s with map := { s.map with waiting := s.map.waiting ++ [w] } }
  if s.map.waiting.contains w then serveMap s
  else if waitsFor s w.nsid w.r then wait s
  else match tryMap w s with
    | (true, s1) => s1
    | (false, s1) => wait s1

/-- Ends the read that the map engine waited for: none waits for its die any longer. -/
def endReadOp (u : OpUse) (s : State) : State :=
  match s.media.ops.find? fun o => o.use == u with
  | some o => if o.state == .active then endArray o (dropOp o.id s) else dropOp o.id s
  | none => s

/-- A lookup of one piece in its region by the page walker (R145, R157): the second piece of a read that crosses a boundary goes by the
coordinator alone. -/
def walk (id lba : Nat) (s : State) : State :=
  match findCmd s id with
  | none => s
  | some c => match c.pieces.find? (fun p => p.lba == lba && p.state == .toLookup) with
    | none => s
    | some p =>
      let n := c.cap.nsid
      let r := lba / 256
      if forwardedPiece c == some lba then s
      else
        let s1 := submitMap { nsid := n, r := r, cls := c.cls, cmd := id, req := .lookup id lba }
          (prefetch n r (lba % 256 + p.count - 1) s)
        updCmd id (fun c => { c with
          pieces := c.pieces.map fun q => if q == p then { q with state := .queued } else q }) s1

/-- MAP_LOOKUP (R30, R145, R157): the piece of a command that begins at `lba`. -/
def execMapLookup (id lba : Nat) (s : State) : Host.Outcome State Fault Refusal := .next (walk id lba s)

/-- A region's part of a command's update reaches its owner. The second region's part of a command that crosses a boundary goes by the
coordinator alone (R157). -/
def updateCommand (id r : Nat) (s : State) : State :=
  match findCmd s id with
  | none => s
  | some c =>
    if !updateDue c r || c.updates.any (fun u => u.region + 1 == r && (forwardedRegion c u.region).isSome) then s
    else submitMap { nsid := c.cap.nsid, r := r, cls := c.cls, cmd := id, req := .update id r } s

/-- A relocated extent's update reaches its owner. -/
def updateRelocate (addr : Nat) (s : State) : State :=
  match s.wr.exts.find? (fun e => e.addr == addr && e.src.isSome && !e.committed && e.stage == .closed) with
  | none => s
  | some e => submitMap { nsid := e.nsid, r := e.slba / 256, cls := extClass s e, cmd := 0, req := .relocate addr } s

/-- MAP_UPDATE (R30, R137, R144, R156). -/
def execMapUpdate (src : MapSrc) (s : State) : Host.Outcome State Fault Refusal :=
  .next (match src with
    | .command id r => updateCommand id r s
    | .relocate addr => updateRelocate addr s)

/-! ### Fetches and lost regions (R145, R149, R289) -/

/-- The blocks of a region that a map record took with it (R289): every block below NSZE but those that entries of the journal
window after the record's page_pos name. -/
def lostMask (s : State) (x : Region) : List Nat :=
  let snap := (x.l2.map (·.snap)).getD 0
  let nsze := ((nsOf s x.nsid).map (·.nsze)).getD 0
  let named := fun (b : Nat) => (findJournal s (ownerSlot s x.nsid x.r)).entries.any fun e =>
    (e.type == .write || e.type == .unmap || e.type == .relocate) && e.nsid == x.nsid && decide (snap ≤ e.pos) &&
    decide (e.lba ≤ b) && decide (b < e.lba + e.count)
  (List.range 256).filter fun i => decide (256 * x.r + i < nsze) && !named (256 * x.r + i)

/-- A region whose record cannot be read or reconstructed enters the lost-region table, and its masked blocks the lost-range log.
Beyond 65,536 regions of a tile the namespace has no I/O (R289). The blocks are unmapped, with entries in the journal (R152). -/
def lostRegion (n r : Nat) (s : State) : State :=
  let x := getRegion s n r
  let t := ownerTile s n r
  let slot := ownerSlot s n r
  let mask := lostMask s x
  let runs := (runsOf mask).map fun k => (256 * r + k.1, k.2)
  let cut := appendJ slot (runs.map fun k => jentry .unmap n k.1 k.2 zeroSpan 0)
    (storeSpans n r (mask.foldl (fun l i => cutSpans i 1 l) x.spans) (findJournal s slot).head s)
  let full := 65536 ≤ (s.red.lostRegions.filter fun y => ownerTile s y.nsid y.region == t).length
  let s1 := if full then
      logEv .lostRegionFull t [t, n] { cut with red := { cut.red with regionFull := (n :: cut.red.regionFull).eraseDups } }
    else { cut with red := { cut.red with lostRegions := cut.red.lostRegions ++ [{ nsid := n, region := r, blocks := mask }] } }
  enterLost 4 (((egOf s n).map fun g => g.groups.headD 0).getD 0) n 0xFFFF runs s1

/-- MAP_FETCH_DONE (R145, R149, R289): the record is read, with this header and this decompressed body, and checked; it fills L1 and L0,
and what queued behind it runs. What is delivered here is what the read, or else the reconstruction, brought. A read that still waits for
its die, or for the reads of its reconstruction, has not ended. -/
def fetchDone (n r : Nat) (header body : Bytes) (s0 : State) : State :=
  match findRegion s0 n r with
  | none => s0
  | some x =>
    if x.fetching.isNone || s0.media.ops.any (fun o => o.use == .mapFetch n r && (o.state == .waiting || !reconRead s0 o.id)) then s0
    else
      let s := endReadOp (.mapFetch n r) s0
      let s1 := putRegion { x with fetching := none, kept := false, ref1 := true } s
      if recordPasses 1 n r header body then serveMap (fillL0 n r s1)
      else
        let s2 := lostRegion n r (logEv .mapFetchFault (ownerTile s n r) [1, n, r % 2 ^ 32] s1)
        let here := s2.map.waiting.filter fun w => w.nsid == n && w.r == r
        if s2.red.regionFull.contains n then here.foldl (fun s w => finishCmd w.cmd .namespaceNotReady 0 s)
          { s2 with map := { s2.map with waiting := s2.map.waiting.filter fun w => !(w.nsid == n && w.r == r) } }
        else serveMap s2

def execMapFetchDone (n r : Nat) (x : ReadRecord) (s : State) : Host.Outcome State Fault Refusal :=
  .next (fetchDone n r x.header x.body s)

/-! ### Write-back (R142, R146, R150, R154, R155) -/

/-- Changes a directory record. -/
def updDir (slot n i : Nat) (f : DirRec → DirRec) (s : State) : State :=
  { s with map := { s.map with dirs := s.map.dirs.map fun d => if d.slot == slot && d.nsid == n && d.index == i then f d else d } }

/-- A record lies in a map-band band that is being reclaimed, so it is relocated (R150). -/
def recordMoves (s : State) (addr : Nat) : Bool :=
  (bandOfBlock s (dieOf addr) (blockOf addr)).any fun y => y.1.mapBand && y.1.state == .reclaiming

/-- Where a record may be placed (R147, R149): within one page of a map-band block on a die of the owner tile, in the open row of its
band or a later one. -/
def placeOk (s : State) (t addr len : Nat) : Bool :=
  tileOfDie (dieOf addr) == t && dieServes s (dieOf addr) && grainOf addr + len ≤ 64 && 1 ≤ len && len ≤ 17 &&
  (bandOfBlock s (dieOf addr) (blockOf addr)).any fun y =>
    y.1.mapBand && (y.1.state == .free || y.1.state == .open) && y.1.nextRow ≤ pageOf addr / planesOf s + 1

/-- The band of a record that is placed is open at the row it goes to. -/
def openMapRow (s : State) (addr : Nat) : State :=
  match bandOfBlock s (dieOf addr) (blockOf addr) with
  | none => s
  | some (x, _) => updBand x.sg x.idx (fun x => { x with nextRow := max x.nextRow (pageOf addr / planesOf s + 1) })
      (if x.state == .free then bandOpened x true .relocate s else s)

/-- A record is programmed: with its last row the band is SEALED (R195). -/
def mapRowDone (s : State) (addr : Nat) : State :=
  match bandOfBlock s (dieOf addr) (blockOf addr) with
  | none => s
  | some (x, _) =>
    let n := pageOf addr / planesOf s + 1
    let s1 := updBand x.sg x.idx (fun x => { x with rows := max x.rows n }) s
    if rowsPerBand s ≤ n then sealBand x.sg x.idx s1 else s1

/-- Why a page is written back now, as the class of the work (R37, R146, R154, R161): at the dirty limit, or as the oldest frame of a
journal whose window is too long, in H1; at 75% of the limit, and to hand its record back, in B1. -/
def pageWbClass (s : State) (x : Region) : Option PClass :=
  let t := ownerTile s x.nsid x.r
  let slot := ownerSlot s x.nsid x.r
  let ds := (s.map.regions.filter fun y => ownerSlot s y.nsid y.r == slot).filterMap (·.dirty)
  if x.dirty.isNone then none
  else if dirtyLimit s t ≤ dirtyFrames s t || ((findJournal s slot).hot && x.dirty == ds.min?) then some .h1
  else if 3 * dirtyLimit s t ≤ 4 * dirtyFrames s t || s.map.handBack.contains slot then some .b1
  else none

/-- Queues the program of a record (R149, R155, step 3): the header, with the CRC of the body, and the body compressed. -/
def programRecord (u : OpUse) (c : PClass) (addr len : Nat) (header body : Bytes) (s : State) : State :=
  addOp { blankOp .program c (dieOf addr) with use := u, addr := addr, words := wordsOf addr len }
    (emit (.nandProgram (dieOf addr) [(addr, header ++ Config.deflate false true [] body)]) (openMapRow s addr))

/-- The body of a directory record: the entries of its 256 regions, 0 for an EMPTY one (R139, R149). -/
def dirBody (s : State) (n i : Nat) : Bytes :=
  (List.range 256).flatMap fun k => ((findRegion s n (256 * i + k)).map Region.stored).getD (zeroBytes 16)

/-- The write-back of a page begins, or the relocation of its record (R150, R155 steps 1 and 2). -/
def pageStart (n r addr len : Nat) (s : State) : State :=
  match findRegion s n r with
  | none => s
  | some x =>
    let t := ownerTile s n r
    let snap := (findJournal s (ownerSlot s n r)).head
    let header := fun (snap : Nat) (l : List Span) => bandHeader 1 (ownerSlot s n r) l.length n r snap len (mapBody l)
    if x.wb.isSome || !placeOk s t addr len then s
    else match pageWbClass s x, x.l2.filter (fun l => recordMoves s l.addr) with
      | some c, _ =>
        programRecord (.mapWrite false n r) c addr len (header snap x.spans) (mapBody x.spans) (putRegion { x with
          wb := some { addr := addr, len := len, snap := snap, spans := x.spans, first := none, cls := c, move := false } } s)
      | none, some l =>
        programRecord (.mapWrite false n r) .b3 addr len (header l.snap l.spans) (mapBody l.spans) (putRegion { x with
          wb := some { addr := addr, len := len, snap := l.snap, spans := l.spans, first := x.dirty, cls := .b3, move := true } } s)
      | none, none => s

/-- The write-back of a directory record begins (R155 steps 1 and 2). DESIGN CHOICE: a dirty directory record is written back at any time,
in B1, and in H1 while the window of its journal is too long: the manual says only that it is. -/
def dirStart (slot n i addr len : Nat) (s : State) : State :=
  match s.map.dirs.find? (fun d => d.slot == slot && d.nsid == n && d.index == i) with
  | none => s
  | some d =>
    let t := if adopted s slot n i then (slotTiles s).headD slot else slot
    let moves := 0 < d.len && recordMoves s d.addr
    if d.wb.isSome || !(d.dirty.isSome || moves) || !placeOk s t addr len then s
    else
      let c := if d.dirty.isNone then PClass.b3 else if (findJournal s slot).hot then .h1 else .b1
      let header := bandHeader 2 slot 256 n i (findJournal s slot).head len (dirBody s n i)
      programRecord (.mapWrite true n i) c addr len header (dirBody s n i) (updDir slot n i (fun d => { d with
        wb := some { addr := addr, len := len, snap := (findJournal s slot).head, first := none, cls := c } }) s)

/-- WRITE_BACK_START (R146, R150, R154, R155): a dirty map page, or a directory record of a slot, is copied and placed in the map band at
the address given. -/
def execWriteBackStart (slot : Option Nat) (n : Nat) (x : RecordAt) (s : State) : Host.Outcome State Fault Refusal :=
  .next (match slot with
    | some k => dirStart k n x.index x.addr x.len s
    | none => pageStart n x.index x.addr x.len s)

/-- Charges what is programmed in the map band to the overhead, with its parity share (R120). -/
def meterMap (t addr grains : Nat) (us : Nat) (s : State) : State :=
  let n := ((bandOfBlock s (dieOf addr) (blockOf addr)).map fun y => dataUnits s y.1.sg).getD 14
  chargeOver t (fun m => (m.addMedia (256 * grains * (n + 2) / n)).addDie us) s

/-- The program of a record ends; one that still waits for its die has not. -/
def endProgram (u : OpUse) (t addr len : Nat) (s : State) : Option State :=
  match s.media.ops.find? fun o => o.use == u with
  | none => some s
  | some o =>
    if o.state == .waiting then none
    else some (mapRowDone (meterMap t addr len (opTime s o) (endArray o (dropOp o.id s))) addr)

/-- The map band of a namespace's endurance group is looked at again (R151). -/
def bandCheckOf (n : Nat) (s : State) : State :=
  match egOf s n with
  | some g => mapBandCheck g s
  | none => s

/-- A page's record is programmed (R155, steps 3 to 5): PAGE_WRITTEN is appended, the entry names the new record, and the frame is clean
unless an update came after the copy. The relocation of a record leaves the frame as it is (R150). -/
def pageDone (n r addr len : Nat) (s0 : State) : State :=
  match findRegion s0 n r with
  | none => s0
  | some x0 => match x0.wb.filter (fun w => w.addr == addr && w.len == len), endProgram (.mapWrite false n r) (ownerTile s0 n r) addr len s0 with
    | some w, some s =>
      let x := getRegion s n r
      let slot := ownerSlot s n r
      let pos := (findJournal s slot).head
      let s1 := appendJ slot [jentry .pageWritten n r 1 { zeroSpan with addr := w.addr, len := w.len } w.snap] s
      let new := { x with
        wb := none, dirty := if w.move then x.dirty else w.first
        olds := x.l2.toList ++ x.olds
        l2 := some { addr := w.addr, len := w.len, snap := w.snap, spans := w.spans, pos := pos } }
      serveMap (windowCheck slot (bandCheckOf n (dirtyDir n r pos (putRegion new s1))))
    | _, _ => s0

/-- A directory record is programmed (R155, steps 3 to 5): DIR_WRITTEN is appended; the record is clean unless it changed after the copy. -/
def dirDone (slot n i addr len : Nat) (s0 : State) : State :=
  match s0.map.dirs.find? (fun d => d.slot == slot && d.nsid == n && d.index == i) with
  | none => s0
  | some d => match d.wb.filter (fun w => w.addr == addr && w.len == len), endProgram (.mapWrite true n i) slot addr len s0 with
    | some w, some s =>
      let s1 := appendJ slot [jentry .dirWritten n i 1 { zeroSpan with addr := w.addr, len := w.len } w.snap] s
      windowCheck slot (bandCheckOf n (updDir slot n i (fun d => { d with
        addr := w.addr, len := w.len, wb := none, dirty := (d.wb.bind (·.first)) }) s1))
    | _, _ => s0

/-- WRITE_BACK_PROGRAMMED (R155): the record of the write-back that was placed at this address. -/
def execWriteBackProgrammed (slot : Option Nat) (n i addr len : Nat) (s : State) : Host.Outcome State Fault Refusal :=
  .next (match slot with
    | some k => dirDone k n i addr len s
    | none => pageDone n i addr len s)

/-! ### The journal (R152 to R154) -/

/-- JOURNAL_ENTRY_MIRRORED (R153): the mirror tile, while it is in service, holds the entries of a region's update. -/
def entryMirrored (id r : Nat) (s : State) : State :=
  match findCmd s id with
  | none => s
  | some c => match c.updates.find? fun u => u.region == r && u.applied with
    | none => s
    | some u =>
      let j := findJournal s (ownerSlot s c.cap.nsid r)
      if !tileUp s (mirrorOf s (ownerTile s c.cap.nsid r)) then s
      else updCmd id (fun c => { c with
          updates := c.updates.map fun u => if u.region == r && u.applied then { u with mirrored := true } else u })
        (putJournal { j with entries := j.entries.map fun e =>
          if u.firstPos ≤ e.pos && e.pos ≤ u.lastPos then { e with mirrored := true } else e } s)

def execJournalEntryMirrored (id r : Nat) (s : State) : Host.Outcome State Fault Refusal :=
  .next (entryMirrored id r s)

/-- JOURNAL_QUARTER_TIMER (R153, R184): the open quarter, if it holds entries, is written as a segment. -/
def quarterTimer (slot : Nat) (s : State) : State :=
  let j := findJournal s slot
  if journalFull j then s else putJournal (padQuarter j) s

def execJournalQuarterTimer (slot : Nat) (s : State) : Host.Outcome State Fault Refusal :=
  .next (quarterTimer slot s)

/-- What the entries that are now programmed have replaced is no longer needed (R155, R159). -/
def dropOlds (slot durable : Nat) (s : State) : State :=
  let mine := fun (x : Region) => ownerSlot s x.nsid x.r == slot
  { s with map := { s.map with
      regions := s.map.regions.map fun x => if mine x && x.l2.all fun l => l.pos < durable then { x with olds := [] } else x
      gone := s.map.gone.filter fun x => !(mine x && x.dirty.getD 0 < durable) } }

/-- JOURNAL_SEGMENT_PROGRAMMED (R149, R153, R184, R205): the oldest waiting quarter is programmed, in 64 bodies each with its own header,
and free again; commands that waited for their entries to be programmed may complete, and updates that waited for a quarter go on. -/
def segmentDone (slot : Nat) (s : State) : State :=
  let j := findJournal s slot
  match j.closed with
  | [] => s
  | e :: rest =>
    let n := dataUnits s 0
    let s1 := chargeOver slot (Meter.addMedia ((262144 + 64 * 32) * (n + 2) / n)) (putJournal { j with durable := e, closed := rest } s)
    serveMap (drainPump (dropOlds slot e s1))

def execJournalSegmentProgrammed (slot : Nat) (s : State) : Host.Outcome State Fault Refusal :=
  .next (segmentDone slot s)

/-! ### Forwarded parts (R157, R158) -/

/-- The tiles of a forwarded part: its coordinator and its second owner. -/
def forwardPath (s : State) (w : Forward) : Nat × Nat := (ownerTile s w.nsid (w.region - 1), ownerTile s w.nsid w.region)

/-- FORWARD_RECEIVED (R157, R158): the part reaches the second owner, after those that its coordinator sent there earlier (R22). -/
def forwardReceived (id : Nat) (s : State) : State :=
  match s.map.forwards.find? (fun w => w.cmd == id && !w.arrived) with
  | none => s
  | some w =>
    let earlier := s.map.forwards.takeWhile fun v => !(v.cmd == id)
    if earlier.any fun v => !v.arrived && forwardPath s v == forwardPath s w then s
    else submitMap { nsid := w.nsid, r := w.region, cls := w.cls, cmd := id, req := .forward id }
      (updForward id (fun w => { w with arrived := true }) s)

def execForwardReceived (id : Nat) (s : State) : Host.Outcome State Fault Refusal := .next (forwardReceived id s)

/-- FORWARD_CONFIRM (R157): the coordinator appends FORWARD_DONE, and the second owner's part counts as confirmed. -/
def forwardConfirm (id : Nat) (s : State) : State :=
  match s.map.forwards.find? (fun w => w.cmd == id && w.applied) with
  | none => s
  | some w =>
    let s1 := appendJ (ownerSlot s w.nsid (w.region - 1))
      (w.part.map fun p => jentry .forwardDone w.nsid (256 * w.region) 1 zeroSpan p.seq) s
    dropForward id (updCmd id (fun c => { c with
       updates := c.updates.map fun u => if u.region == w.region then { u with ownerOk := true } else u }) s1)

def execForwardConfirm (id : Nat) (s : State) : Host.Outcome State Fault Refusal := .next (forwardConfirm id s)

/-- FORWARD_TIMEOUT (R158): after 100 ms without confirmation the part is sent again, marked as a replay. -/
def forwardTimeout (id : Nat) (s : State) : State :=
  updForward id (fun w => if w.read.isNone && w.sentMs + 100 ≤ s.nowMs then
    { w with replay := true, arrived := false, applied := false, sentMs := s.nowMs } else w) s

def execForwardTimeout (id : Nat) (s : State) : Host.Outcome State Fault Refusal := .next (forwardTimeout id s)

/-- MAP_CONFIRM (R34, R74, R83, R153, R157, R184): the port tile receives the owner's or the mirror's confirmation of a
region; with both for every region, and a forwarded part confirmed, the command's map step has taken effect. -/
def mapConfirm (id r : Nat) (mirror : Bool) (s : State) : State :=
  match findCmd s id with
  | none => s
  | some c =>
    let fwdOk := !(s.map.forwards.any fun w => w.cmd == id)
    let second := c.updates.any fun u => u.region + 1 == r && (forwardedRegion c u.region).isSome
    let set := fun (u : Upd) => if u.region != r then u
      else if mirror then { u with mirrorOk := u.mirrorOk || u.mirrored }
      else { u with ownerOk := u.ownerOk || (u.applied && fwdOk && !second) }
    pump (afterMap id (updCmd id (fun c => { c with updates := c.updates.map set }) s))

def execMapConfirm (id r : Nat) (mirror : Bool) (s : State) : Host.Outcome State Fault Refusal :=
  .next (mapConfirm id r mirror s)

/-! ### Adoption and hand-back (R161 to R164) -/

/-- A directory record that can be neither read nor reconstructed (R289): its regions with an L1 frame are written back again, every other
is handled as a lost map record. -/
def lostDirectory (slot n i : Nat) (s : State) : State :=
  let mine := s.map.regions.filter fun x => x.nsid == n && x.r / 256 == i
  let s1 := (mine.filter fun x => x.frame.isNone).foldl (fun s x => lostRegion n x.r s) (logEv .mapFetchFault slot [2, n, i % 2 ^ 32] s)
  (mine.filter fun x => x.frame.isSome && x.dirty.isNone).foldl (fun s x =>
    putRegion { x with dirty := some (findJournal s slot).head } s) s1

/-- An adopted directory record is loaded (R149, R163, R289); with the last of them MAP_ADOPT is logged. Its read, where one was made, has
begun. -/
def adoptedLoad (slot n i : Nat) (header body : Bytes) (s : State) : State :=
  let is := fun (o : DieOp) => o.use == .dirLoad slot n i
  if !s.map.away.contains slot || s.media.ops.any (fun o => is o && o.state == .waiting) then s
  else
    let open_ := fun (s : State) => s.map.dirs.any fun d => d.slot == slot && !d.loaded
    let s0 : State := (fun s => if recordPasses 2 n i header body then s else lostDirectory slot n i s) (endReadOp (.dirLoad slot n i) s)
    let s1 := { s0 with map := { s0.map with
     dirs := s0.map.dirs.map fun d =>
      if d.slot == slot && d.nsid == n && d.index == i then { d with loaded := true } else d } }
    serveMap (if open_ s && !open_ s1 then logEv .mapAdopt slot [slot, 1] s1 else s1)

/-- ADOPTED_RECORD_LOAD (R163). -/
def execAdoptedRecordLoad (slot n : Nat) (x : ReadDir) (s : State) : Host.Outcome State Fault Refusal :=
  .next (adoptedLoad slot n x.index x.got.header x.got.body s)

/-- SLOT_HAND_BACK (R161): once the adopter has written back the dirty pages of a directory record and the record, tile t serves its
regions again from L2; with the last record the slot is held by its own tile. -/
def handBack (slot n i : Nat) (s : State) : State :=
  let mine := fun (x : Region) => ownerSlot s x.nsid x.r == slot && x.nsid == n && dirIndex s x.r == i
  let rec_ := fun (d : DirRec) => d.slot == slot && d.nsid == n && d.index == i
  if !adopted s slot n i || !s.map.handBack.contains slot ||
      s.map.regions.any (fun x => mine x && (x.dirty.isSome || x.fetching.isSome || x.wb.isSome)) ||
      s.map.dirs.any (fun d => rec_ d && (d.dirty.isSome || d.wb.isSome)) then s
  else
    let s1 := { s with map := { s.map with
      returned := s.map.returned ++ [(slot, n, i)]
      dirs := s.map.dirs.map fun d => if rec_ d then { d with loaded := true } else d
      regions := s.map.regions.map fun x => if mine x then { x with l0 := none, frame := none } else x } }
    let left := s1.map.regions.any (fun x => ownerSlot s1 x.nsid x.r == slot && adopted s1 slot x.nsid (dirIndex s1 x.r)) ||
      s1.map.dirs.any fun d => d.slot == slot && adopted s1 slot d.nsid d.index
    serveMap (if left then s1 else { s1 with map := { s1.map with
      away := s1.map.away.filter fun t => t != slot, handBack := s1.map.handBack.filter fun t => t != slot
      returned := s1.map.returned.filter fun x => x.1 != slot } })

def execSlotHandBack (slot n i : Nat) (s : State) : Host.Outcome State Fault Refusal := .next (handBack slot n i s)

/-- The data of a mapped block, with the extent it is in, by address and sequence: staged, or in flash and readable under a loaded key. -/
def blockData (s : State) (n : Nat) (y : Span) (b : Nat) : Option (Bytes × (Nat × Nat)) :=
  let k := y.skip + (b - y.off)
  let plain := match s.wr.exts.find? fun e => e.addr == y.addr && e.seq % 2 ^ 32 == y.seqLo && e.stage != .toPlace with
    | some e => some e.plain
    | none => (s.rcl.flash.find? fun (e : FExt) => e.addr == y.addr && e.seq % 2 ^ 32 == y.seqLo && !e.lost.contains k).map FExt.plain
  (plain.bind fun d => pieceBytes s n y.keyGen d k 1).map fun d => (d, y.addr, y.seqLo)

/-- The runs of a region's mapped data, cut at multiples of 16 blocks: each the place of one full extent (R151, R166). -/
def dataRuns (s : State) (n : Nat) (x : Region) : List (Nat × Nat) :=
  let live := x.spans.filter fun y => !y.zero && !stale s n y
  let bs := (List.range 256).filter fun b => live.any fun y => decide (y.off ≤ b) && decide (b < y.last)
  (runsOf bs).flatMap fun k => cutAt 16 18 k.1 k.2

/-- Rewrites one run as full extents of the RELOCATE stream: its data is compressed again, with new write sequences from the lease of the
owner tile (R151, R166 to R172). A run that is one extent already stays; one whose data cannot be read, or that finds no sequences,
is left out. -/
def coalesceRun (n r lo k : Nat) (s : State) : State :=
  match findRegion s n r, nsOf s n with
  | some x, some ns =>
    let live := x.spans.filter fun y => !y.zero && !stale s n y
    let got := (List.range k).filterMap fun i =>
      (live.find? fun y => decide (y.off ≤ lo + i) && decide (lo + i < y.last)).bind fun y => blockData s n y (lo + i)
    let srcs := (got.map (·.2)).eraseDups
    let d := got.flatMap (·.1)
    let lba := 256 * r + lo
    let ps := cutWrite false ns.compMode lba k d
    let t := ownerTile s n r
    let sg := ((s.rcl.flash.find? fun e => srcs.any fun p => p.1 == e.addr).map (·.sg)).getD 0
    if got.length != k || srcs.length ≤ 1 then s
    else match takeSeqs t ps.length s with
      | none => s
      | some (qs, s1) =>
        let new := (ps.zip qs).map fun y =>
          let b := sliceOf lba y.1.1 y.1.2.1 d
          { freshExt s t ns y.1 y.2 b with
            stream := .relocate, port := leaderTile s sg, src := srcs.head?.map (·.1), sg := sg, parts := srcs }
        { s1 with wr := { s1.wr with exts := s1.wr.exts ++ new } }
  | _, _ => s

/-- REGION_COALESCE (R151): a marked region's mapped data is rewritten as full extents in logical order. -/
def coalesce (n r : Nat) (s : State) : State :=
  match findRegion s n r with
  | none => s
  | some x =>
    if !x.marked then s
    else (dataRuns s n x).foldl (fun s k => coalesceRun n r k.1 k.2 s) (putRegion { x with marked := false } s)

def execRegionCoalesce (n r : Nat) (s : State) : Host.Outcome State Fault Refusal := .next (coalesce n r s)

/-- MAP_REPLAY_DONE (R159, R200): the slot's replay is complete, and its map engine serves lookups; with the last slot a census that has
no region to count is complete. -/
def mapReplayDone (slot : Nat) (s : State) : State :=
  let left := s.map.replaying.filter fun t => t != slot
  serveMap { s with
    map := { s.map with replaying := left }
    rcl := { s.rcl with censusDone :=
      if left.isEmpty && s.rcl.toCensus.isEmpty then s.red.groups.map (·.sg) else s.rcl.censusDone } }

def execMapReplayDone (slot : Nat) (s : State) : Host.Outcome State Fault Refusal := .next (mapReplayDone slot s)

end Sys2Proof.Machine
end

