-- ==== Sys2Proof/Machine/FenceOps.lean ====
section
/-!
DEFINITION. Sys2Proof/Machine/FenceOps.lean: the loss of a tile as a whole: the fence, the commands that depend on the tile,
and the hand-over of management duties (R31, R32, R94, R131, R394, R502, R503).
-/
namespace Sys2Proof.Machine
open Sys2Proof

/-- The roles in which a running command depends on a tile (R29, R31). -/
def dependsOn (s : State) (t : Nat) (c : Cmd) : List Role :=
  let owner := c.updates.any (fun u => !u.ownerOk && ownerTile s c.cap.nsid u.region == t) ||
      c.pieces.any (fun p => (p.state == .toLookup || p.state == .queued) && ownerTile s c.cap.nsid (p.lba / 256) == t)
  let die := s.media.ops.any fun o => o.kind == .read && o.cmd == c.id && tileOfDie o.die == t
  let member := s.wr.exts.any fun e => e.cmd == c.id && e.stage != .toPlace && e.stage != .confirmed && e.stage != .closed &&
      memberTile s e == t
  let mirror := s.wr.exts.any fun e => e.cmd == c.id && e.mirrorTile == t && !e.mirrorHeld && e.stage != .toPlace &&
      e.stage != .sent
  if c.tile == t || c.phase == .ended then []
  else ([(Role.owner, owner), (.die, die), (.member, member), (.mirror, mirror)].filter (·.2)).map (·.1)

/-- Marks the commands that lose steps with the tile, and when each lost its first. -/
def markLost (t : Nat) (s : State) : State :=
  { s with host := { s.host with cmds := s.host.cmds.map fun c =>
      let rs := dependsOn s t c
      if rs.isEmpty then c
      else { c with lost := c.lost ++ rs.filter fun r => !c.lost.contains r, lostMs := some (c.lostMs.getD s.nowMs) } } }

/-- A lost role has a new tile (R29, R31): the owner once its slot is served; a die read by reconstruction at once; a member
once the extents are placed again; a mirror once another holds the role. -/
def roleRestored (s : State) (c : Cmd) : Role → Bool
  | .owner => (c.updates.map Upd.region ++ c.pieces.map fun (p : Piece) => p.lba / 256).all fun r =>
      slotServed s (ownerSlot s c.cap.nsid r) && tileUp s (ownerTile s c.cap.nsid r)
  | .die => true
  | .member | .mirror => (s.wr.exts.filter fun e => e.cmd == c.id).all fun e =>
      e.stage == .toPlace || (tileUp s (memberTile s e) && (e.stage == .sent || tileUp s e.mirrorTile))

/-- Issues a lost step again (R31): lookups and updates go to the new owner when their rows come; reads whose operation is
gone are queued again. -/
def reissueStep (c : Cmd) (r : Role) (s : State) : State :=
  match r with
  | .owner => serveMap (updCmd c.id (fun c => { c with
      pieces := c.pieces.map fun p => if p.state == .queued then { p with state := .toLookup } else p
      updates := c.updates.map fun u => if u.ownerOk then u else { u with applied := false, mirrored := false } }) s)
  | .die => (c.pieces.filter fun p => p.state == .flash &&
      !s.media.ops.any fun o => o.kind == .read && o.cmd == c.id && o.lba == p.lba).foldl (fun s p => enqueueRead c p s) s
  | .member | .mirror => placeWaiting c.tile s

/-- The tile that becomes standby beside a primary: the lowest-numbered other working tile (R32, when tile 0 fails to boot). DESIGN
CHOICE: the same rule holds at a takeover at run time and at the loss of the standby, and a primary that is alone is its own standby. -/
def newStandby (s : State) (primary lost : Nat) : Nat :=
  ((upTiles s).find? fun t => t != primary && t != lost).getD primary

/-- The standby takes over when the primary is lost (R32). A descriptor that runs
ends with INTERRUPTED (R476), and an activation that has not reached its step 4 with Internal Error (R463). -/
def takeOver (s : State) : State :=
  let old := s.mgmt.primary
  let new := s.mgmt.standby
  let next := newStandby s new old
  let s1 := abandonRing (respond 5 0 0 0 0 (logEv .mgmtTakeover 15 [old, new]
    { s with mgmt := { s.mgmt with primary := new, standby := next } }))
  if s1.fw.actStep == 1 || s1.fw.actStep == 2 then activationFails .internalError s1 else s1

/-- All four links of a tile go down, and traffic takes other routes (R21, R26, R503). -/
def linksDown (t : Nat) (s : State) : State :=
  reroute s (linkOrder.foldl (fun s p => setLink s t p false) s)

/-- The other tile of an x8 endpoint's pair loses the endpoint too (R61). -/
def x8Partner (s : State) (t : Nat) : Bool :=
  (findPort s t).any (fun p => p.mode == 5) || (findPort s (partnerOf s t)).any fun p => p.mode == 5

/-- What a tile held goes with it: its controllers end with their associations (R31, R94), as do those of an x8 endpoint it is half of
(R61); its pools, slots, keys and DRAM channel go, and the operations of its dies. -/
def tileStateGone (t : Nat) (s0 : State) : State :=
  let s := enginesGone t { s0 with heldOuts := s0.heldOuts.filter fun h => h.tile != t }
  let hit := fun (x : Nat) => x == t || (x8Partner s t && x == partnerOf s t)
  let s1 := ((s.host.ctrls.filter fun c => hit c.tile).map (·.cntlid)).foldl (fun s id => endCtrl id s) s
  { s1 with
    host := { s1.host with
      conns := s1.host.conns.filter fun c => !hit c.tile
      ports := s1.host.ports.map fun p => if hit p.tile then { p with linkUp := [], recon := 0 } else p }
    pools := s1.pools.filter fun p => p.tile != t
    cmpSlots := s1.cmpSlots.filter fun x => x.tile != t
    drams := s1.drams.filter fun d => d.tile != t
    cry := { s1.cry with
      slots := s1.cry.slots.filter fun k => k.tile != t
      ctxs := s1.cry.ctxs.filter fun c => c.tile != t
      vfys := s1.cry.vfys.filter fun v => v.tile != t }
    media := { s1.media with
      chans := s1.media.chans.filter fun c => c.ch / 8 != t
      ops := s1.media.ops.filter fun o => tileOfDie o.die != t || o.kind == .read } }

/-- Reads whose die is gone with its tile are reconstructed (R31, R271); the parts of other reconstructions go. -/
def readsToRecon (t : Nat) (s : State) : State :=
  let here := fun (o : DieOp) => tileOfDie o.die == t
  let part := fun (o : DieOp) => match o.use with
    | .recon _ | .rebuild | .archive => true
    | _ => false
  let s1 := { s with media := { s.media with ops := s.media.ops.filter fun o => !(here o && part o) } }
  (s1.media.ops.filter here).foldl (fun s o => toRecon o.id s) s1

/-- Stripe journal tails that the tile led or mirrored have one copy until a new mirror is there, taken to be 1 s (R291). -/
def tailsSolo (t : Nat) (s : State) : State :=
  ((s.red.groups.filter fun g => leaderTile s g.sg == t || mirrorOf s (leaderTile s g.sg) == t).map (·.sg)).foldl
    (fun s sg => putSj { findSj s sg with soloUntil := s.nowMs + 1000 } s) s

/-- Every discovery controller raises a discovery log change event to the host it serves (R48). -/
def discoveryChanged (s : State) : State :=
  (s.host.conns.filter fun k => k.discovery && k.bound).foldl (fun s k => emit (.discoveryChange k.id) s) s

/-- An Ethernet port of a tile is up, so that its loss changes the discovery log (R48). -/
def ethUp (s : State) (t : Nat) : Bool := (findPort s t).any fun p => 1 ≤ p.mode && p.mode ≤ 3 && !p.linkUp.isEmpty

/-- Fences a tile (R48, R394, R503): tiles_fenced is set and the status vector raised, its links go down, its domains off. In a
configuration that survives, its slot is adopted, mirrors, tails and members continue elsewhere; otherwise the data is unavailable
(R131). -/
def fenceTile (t : Nat) (s : State) : State :=
  if !tileUp s t then s
  else
    let s1 := tailsSolo t (markLost t s)
    let s2 := emit (.ringIrq 3) { s1 with island := { s1.island with fenced := s1.island.fenced ++ [t] } }
    let s3 := readsToRecon t (tileStateGone t (linksDown t s2))
    let s4 := if t == s3.mgmt.primary then takeOver s3
      else if t == s3.mgmt.standby then
        { s3 with mgmt := { s3.mgmt with standby := newStandby s3 s3.mgmt.primary t } }
      else s3
    let s5 := if survivesTileLoss s4 then serveMap (tileMembersLost t (mirrorLost t false (adoptSlot t true s4)))
      else { s4 with red := { s4.red with dataLost := true } }
    let s6 := if ethUp s t then discoveryChanged s5 else s5
    smartRefresh (anaRefresh { s6 with
      clock := { s6.clock with countsLost := true, meters := s6.clock.meters.filter fun m => m.tile != t } })

end Sys2Proof.Machine
end

