-- ==== Sys2Proof/Machine/HostPort.lean ====
section
/-!
DEFINITION. Sys2Proof/Machine/HostPort.lean: connections, capsules and data at the host ports, doorbells, the life of
a controller (R42 to R69, R94, R95, R526), and the port's frames answered in hardware (R44).
-/
namespace Sys2Proof.Machine
open Sys2Proof

/-! ### Ports -/

/-- The Ethernet ports of a mode (R42): 0 where the mode is not an Ethernet one. -/
def ethPorts : Nat → Nat
  | 1 => 1
  | 2 => 2
  | 3 => 4
  | _ => 0

/-- A port index that exists and whose link is up (R526). -/
def portUp (s : State) (t p : Nat) : Bool :=
  match findPort s t with
  | none => false
  | some k => decide (p < ethPorts k.mode) && k.linkUp.contains p

/-- A connection whose port still receives (R526). -/
def liveConn (s : State) (id : Nat) : Option Conn := (findConn s id).filter fun k => portUp s k.tile k.port

def findIf (s : State) (t p i : Nat) : Option NetIf :=
  s.reg.netifs.find? fun n => n.tile == t && n.port == p && n.index == i

/-- The TCP ports of an interface: 4420 and 8009 where its record names none (R46, R478). -/
def NetIf.io (n : NetIf) : Nat := if n.ioPort == 0 then 4420 else n.ioPort
def NetIf.disc (n : NetIf) : Nat := if n.discPort == 0 then 8009 else n.discPort
/-- An interface takes I/O, and discovery, connections at a TCP port (R478). -/
def NetIf.takesIo (n : NetIf) (p : Nat) : Bool := bitOf n.flags 3 && p == n.io
def NetIf.takesDisc (n : NetIf) (p : Nat) : Bool := bitOf n.flags 5 && p == n.disc
/-- An interface has an address (R478). -/
def NetIf.has (n : NetIf) (a : Bytes) : Bool := (bitOf n.flags 1 && n.v4 == a) || (bitOf n.flags 2 && n.v6 == a)

/-- A connection through an interface before its Connect, with no digest asked for (R46, R478). -/
def newConn (s : State) (n : NetIf) (tr : Transport) (disc : Bool) : Conn :=
  { id := s.host.nextConn, tile := n.tile, port := n.port, iface := n.index, transport := tr, discovery := disc,
    cntlid := 0, sqid := 0, bound := false, nqn := [], hdgst := false, ddgst := false, hpda := 0, mtu := n.mtu,
    prio := n.pfc, dscp := n.dscp, failed := [] }

/-- Opens a connection (R46, R47). -/
def openConn (c : Conn) (s : State) : State :=
  emit (.connAccepted c.id c.tile c.port c.iface) { s with host := { s.host with
    conns := s.host.conns ++ [c], nextConn := s.host.nextConn + 1 } }

/-- TCP_CONNECTION_REQUEST (R46, R526): nothing where the port or interface is not there; a reset while qe_enable is 0; and
only the interface's I/O and discovery ports are open. The host's initialize-connection request enables digests and asks for its data
alignment. -/
def tcpRequest (t p i dport : Nat) (hd dd : Bool) (hpda : Nat) (s : State) : State :=
  if !portUp s t p then s
  else match findIf s t p i with
  | none => s
  | some n =>
    if s.tfld t .qe_cfg_qe_enable == 0 || !(n.takesIo dport || n.takesDisc dport) then emit (.connRefused t p i) s
    else openConn { newConn s n .tcp (!n.takesIo dport) with hdgst := hd, ddgst := dd, hpda := hpda } s

def execTcpConnectionRequest (t p i : Nat) (q : TcpReq) (s : State) : Host.Outcome State Fault Refusal :=
  .next (tcpRequest t p i q.dport q.hdgst q.ddgst q.hpda s)

/-- The path MTUs of R47. -/
def pathMtus : List Nat := [1024, 2048, 4096]

/-- RDMA_CONNECTION_REQUEST (R47, R526): rejected while qe_enable is 0, and with a path MTU that R47 does not name. -/
def rdmaRequest (t p i mtu : Nat) (s : State) : State :=
  if !portUp s t p then s
  else match findIf s t p i with
  | none => s
  | some n =>
    if s.tfld t .qe_cfg_qe_enable == 0 || !bitOf n.flags 4 || !pathMtus.contains mtu then emit (.connRefused t p i) s
    else openConn { newConn s n .rdma false with mtu := mtu } s

def execRdmaConnectionRequest (t p : Nat) (q : RdmaReq) (s : State) : Host.Outcome State Fault Refusal :=
  .next (rdmaRequest t p q.iface q.pathMtu s)

/-! ### The end of a queue, fatal transport errors (R64, R94) -/

/-- Ends one queue's connection, its commands and its state; on the admin queue the association ends (R64, R66, R94). -/
def endQueue (cntlid sqid : Nat) (s : State) : State :=
  if sqid == 0 then endCtrl cntlid s
  else
    let s1 := resetCmdsOf (fun c => c.cntlid == cntlid && c.sqid == sqid) s
    { s1 with host := { s1.host with
        sqs := s1.host.sqs.filter fun q => !(q.cntlid == cntlid && q.sqid == sqid)
        cqs := s1.host.cqs.filter fun q => !(q.cntlid == cntlid && q.cqid == sqid)
        conns := s1.host.conns.filter fun c => !(c.bound && c.cntlid == cntlid && c.sqid == sqid) } }

/-- A fatal transport error on a connection: a termination request, or the error state of the queue pair, and the end
of the queue's commands (R64). -/
def fatalTransport (c : Conn) (s : State) : State :=
  let s1 := emit (if c.transport == .rdma then .qpError c.id else .terminate c.id) s
  if c.bound && !c.discovery then endQueue c.cntlid c.sqid (emit (.connClosed c.id) s1)
  else dropConn c.id (emit (.connClosed c.id) s1)

/-- The capsules of a priority that wait at a port (R44). -/
def portBacklog (s : State) (t p prio : Nat) : Nat :=
  ((s.host.conns.filter fun k => k.bound && k.tile == t && k.port == p && k.prio == prio).map fun k =>
    ((findSq s k.cntlid k.sqid).map (·.recv.length)).getD 0).sum

/-- A priority pause frame as the capsules that wait at a port reach the threshold or fall below it (R44). DESIGN CHOICE: R44 does not say
when the device generates them. -/
def pfcChange (old : State) (c : Conn) (s : State) : State :=
  let full := fun (x : State) => decide (Config.pfcThreshold ≤ portBacklog x c.tile c.port c.prio)
  if full old == full s then s else emit (.pause c.tile c.port c.prio (full s)) s

/-- A capsule with a digest that its connection uses and that does not match (R46, R64). -/
def badHeader (c : Conn) (cap : Capsule) : Bool := c.transport == .tcp && c.hdgst && !cap.hdgstOk

/-- A capsule as it joins a receive list: a data digest counts where its connection uses one (R46, R93). -/
def arrivalOf (s : State) (c : Conn) (cap : Capsule) : Arrival :=
  { cap := { cap with ddgstOk := cap.ddgstOk || !(c.transport == .tcp && c.ddgst) }, waits := flushWaits s c.cntlid cap }

/-- CAPSULE_RECEIVED (R44, R47, R64, R66, R68): a congestion mark is answered, with an ECN echo or a congestion notification packet. -/
def capsuleArrives (id : Nat) (cap : Capsule) (s0 : State) : State :=
  match liveConn s0 id with
  | none => s0
  | some c =>
    let s := if cap.ce then emit (.congestion id) s0 else s0
    if !c.bound || c.discovery then s
    else if badHeader c cap || cap.bytes < 64 then fatalTransport c s
    else match findSq s c.cntlid c.sqid with
      | none => s
      | some q =>
        if q.size ≤ q.recv.length then fatalTransport c s
        else pfcChange s c (updSq c.cntlid c.sqid (fun q => { q with recv := q.recv ++ [arrivalOf s c cap] }) s)

def execCapsuleReceived (id : Nat) (cap : Capsule) (s : State) : Host.Outcome State Fault Refusal :=
  .next (capsuleArrives id cap s)

/-- Host data for a command that is fetching it: the data in place, and with the last of it the command goes on. -/
def takeData (c : Cmd) (d : Bytes) (s : State) : State :=
  let s1 := updCmd c.id (fun c => { c with data := c.data ++ d }) s
  if dataLen c.cap ≤ (c.data ++ d).length then askNext c.cntlid c.sqid (dataReady c.id s1) else s1

/-- H2CDATA_PDU (R46, R64): a header digest mismatch, data outside the offered window, data after the command's end or a PDU
larger than R46 allows is fatal; a data digest mismatch fails the command and leaves the connection up, and what else comes for that
command is dropped. -/
def h2cData (conn cmd off : Nat) (d : Bytes) (h dd : Bool) (s : State) : State :=
  match liveConn s conn with
  | none => s
  | some k =>
    if k.hdgst && !h then fatalTransport k s
    else if k.failed.contains cmd then s
    else match findCmd s cmd with
    | none => fatalTransport k s
    | some c =>
      if c.cntlid != k.cntlid || c.sqid != k.sqid || c.phase != .dataFetch || off != c.data.length ||
          dataLen c.cap < off + d.length || 131072 < d.length then fatalTransport k s
      else if k.ddgst && !dd then pump (finishCmd cmd .transientTransportError 0 (updConn conn (fun k => { k with
        failed := k.failed ++ [cmd] }) s))
      else takeData c d s

def execH2cdataPdu (conn cmd off : Nat) (d : Bytes) (h dd : Bool) (s : State) : Host.Outcome State Fault Refusal :=
  .next (h2cData conn cmd off d h dd s)

/-- The connection that carries a command's queue, while its port receives. -/
def connOf (s : State) (c : Cmd) : Option Conn :=
  s.host.conns.find? fun k => k.bound && k.cntlid == c.cntlid && k.sqid == c.sqid && portUp s k.tile k.port

/-- RDMA_READ_COMPLETION (R64): in error, the queue pair moves to the error state. -/
def rdmaReadDone (cmd : Nat) (ok : Bool) (d : Bytes) (s : State) : State :=
  match findCmd s cmd with
  | none => s
  | some c =>
    if c.phase != .dataFetch then s
    else match connOf s c with
    | none => s
    | some k =>
      if !ok then fatalTransport k s
      else takeData c (d.take (dataLen c.cap - c.data.length)) s

def execRdmaReadCompletion (cmd : Nat) (ok : Bool) (d : Bytes) (s : State) : Host.Outcome State Fault Refusal :=
  .next (rdmaReadDone cmd ok d s)

/-- HOST_MEMORY_READ_COMPLETION (R64): UR, CA or poisoned data fails the command, and AER records it. -/
def hostReadDone (cmd : Nat) (r : HostRead) (s : State) : State :=
  match findCmd s cmd with
  | none => s
  | some c =>
    if c.phase != .dataFetch then s
    else match r with
    | .data d => takeData c (d.take (dataLen c.cap - c.data.length)) s
    | _ => pump (finishCmd cmd .transientTransportError 0
        (bump c.tile .glb_dma_errors_host_mem (emit (.aer c.tile) s)))

def execHostMemoryReadCompletion (cmd : Nat) (r : HostRead) (s : State) : Host.Outcome State Fault Refusal :=
  .next (hostReadDone cmd r s)

/-! ### Doorbells (R67, R69) -/

/-- SUBMISSION_QUEUE_TAIL_DOORBELL (R67). -/
def sqTail (cntlid sqid v : Nat) (s : State) : State :=
  match findSq s cntlid sqid with
  | none => raiseAen cntlid 0 0 s
  | some q =>
    if q.transport != .pcie then raiseAen cntlid 0 0 s
    else if q.size ≤ v then raiseAen cntlid 0 1 s
    else updSq cntlid sqid (fun q => { q with tail := v }) s

def execSubmissionQueueTailDoorbell (cntlid sqid v : Nat) (s : State) : Host.Outcome State Fault Refusal :=
  .next (sqTail cntlid sqid v s)

/-- COMPLETION_QUEUE_HEAD_DOORBELL (R67, R69): frees entries, so that stopped queues fetch again. -/
def cqHead (cntlid cqid v : Nat) (s : State) : State :=
  match findCq s cntlid cqid with
  | none => raiseAen cntlid 0 0 s
  | some q =>
    if q.size ≤ v then raiseAen cntlid 0 1 s
    else updCq cntlid cqid (fun q => { q with head := v }) s

def execCompletionQueueHeadDoorbell (cntlid cqid v : Nat) (s : State) : Host.Outcome State Fault Refusal :=
  .next (cqHead cntlid cqid v s)

/-- INTERRUPT_AGGREGATION_TIME (R69): the pending interrupt of a vector is raised. -/
def aggregationTime (cntlid vector : Nat) (s : State) : State :=
  if s.host.irqs.any fun p => p.cntlid == cntlid && p.vector == vector then
    emit (.hostIrq cntlid vector) { s with host := { s.host with
      irqs := s.host.irqs.filter fun p => !(p.cntlid == cntlid && p.vector == vector) } }
  else s

def execInterruptAggregationTime (cntlid vector : Nat) (s : State) : Host.Outcome State Fault Refusal :=
  .next (aggregationTime cntlid vector s)

/-! ### The life of a controller (R55 to R58, R94, R95, R105) -/

def identTenant (s : State) (i : CtrlIdent) : Option Tenant := s.reg.tenants.find? fun t => t.ident == i

/-- A controller's admin queue pair (R52: up to 32 entries on fabrics, 256 over PCIe), at `base` in host memory over PCIe. -/
def adminSq (cntlid tile base size : Nat) (tr : Transport) : Sq :=
  { cntlid := cntlid, sqid := 0, tile := tile, base := base, size := size, cqid := 0, reqClass := 0, mediaOnly := false,
    frozen := none, recv := [], head := 0, tail := 0, transport := tr }
def adminCq (cntlid base size : Nat) : Cq :=
  { cntlid := cntlid, cqid := 0, base := base, size := size, head := 0, tail := 0, reserved := 0, vector := 0, ien := true }

/-- An I/O queue pair: served in H2 until its class is set, in the freeze mode of freeze_default (R71, R90). -/
def ioSq (cntlid sqid tile base size cqid cls : Nat) (mediaOnly : Bool) (tr : Transport) : Sq :=
  { cntlid := cntlid, sqid := sqid, tile := tile, base := base, size := size, cqid := cqid, reqClass := cls,
    mediaOnly := mediaOnly, frozen := none, recv := [], head := 0, tail := 0, transport := tr }
def ioCq (cntlid cqid base size vector : Nat) (ien : Bool) : Cq :=
  { cntlid := cntlid, cqid := cqid, base := base, size := size, head := 0, tail := 0, reserved := 0, vector := vector, ien := ien }

/-- Binds a connection to a queue of a controller. -/
def bindConn (id cntlid sqid : Nat) (nqn : Bytes) (s : State) : State :=
  { s with host := { s.host with conns := s.host.conns.map fun x =>
    if x.id == id then { x with bound := true, cntlid := cntlid, sqid := sqid, nqn := nqn } else x } }

/-- The keep alive time in ms: 0 is applied as 120,000 (R57), and the granularity is 100 ms (R52). -/
def katoOf (kato : Nat) : Nat := if kato == 0 then 120000 else ceilDiv kato 100 * 100

/-- A new controller: its tenant's limits, or those of R105 without one; the mode of R76; the KATO of R57. -/
def newCtrl (s : State) (cntlid tile : Nat) (i : CtrlIdent) (prov : Bool) (kato : Nat) : Ctrl :=
  let t := identTenant s i
  { inc := s.host.nextInc, cntlid := cntlid, tile := tile, ident := i, discovery := false, tenant := (t.map (·.id)).getD 0,
    provider := prov, enabled := false, ready := false, ams := 0, shst := 0, shutting := false,
    orderMode := s.tfld tile .qe_cfg_default_order_mode, grant := none,
    kato := katoOf kato, kaDeadline := s.nowMs + katoOf kato,
    share := (t.map (·.share)).getD 16, budget := (t.map (·.budget)).getD 0,
    budgetLeft := (t.map (·.budget)).getD 0, latency := (t.map (·.latency)).getD 0,
    deficits := [], demotions := 0, arbBurst := Config.resetArbBurst, arbWeights := (7, 3, 1), coalesce := (0, 0),
    noCoalesce := [], aers := [], aens := [], errors := [], errorCount := 0, anaState := anaState s tile }

/-- The provider controller exists (R58). -/
def providerExists (s : State) : Bool := s.host.ctrls.any (·.provider)

/-- Whether an identity reached through a tile is the designated provider's (R58). -/
def designated (s : State) (i : CtrlIdent) (tile : Nat) : Bool :=
  match s.reg.provider, i with
  | .nqn n tiles, .nqn m => n == m && bitOf tiles tile
  | .function e, .function f k => e == f && k == 0
  | _, _ => false

/-- Fabrics Connect for an admin queue (R55 to R58, R105). DESIGN CHOICE: a size beyond R52's 32 entries is Connect Invalid Parameters
and is tested first; the manual gives neither that status nor the order of the checks. -/
def connectAdmin (k : Conn) (d : ConnectData) (s : State) : State :=
  let prov := designated s (.nqn d.hostNqn) k.tile
  let fail := fun st f => emit (.connectFailed k.id st f) s
  if 31 < d.sqsize then fail .connectInvalidParameters .sqsize
  else if prov && providerExists s then fail .controllerBusy .none
  else if !prov && (identTenant s (.nqn d.hostNqn)).isNone then fail .connectInvalidHost .none
  else match freeCntlid s k.tile with
  | none => fail .controllerBusy .none
  | some id =>
    if qpFree s k.tile == 0 then fail .controllerBusy .none
    else
      let c := newCtrl s id k.tile (.nqn d.hostNqn) prov d.kato
      emit (.connected k.id id) (bindConn k.id id 0 d.hostNqn { s with host := { s.host with
        ctrls := s.host.ctrls ++ [c], nextInc := s.host.nextInc + 1
        sqs := s.host.sqs ++ [adminSq id k.tile 0 (d.sqsize + 1) k.transport]
        cqs := s.host.cqs ++ [adminCq id 0 (d.sqsize + 1)] } })

/-- Fabrics Connect for an I/O queue (R56, R71, R90). PRESUMED: an unknown controller is Connect Invalid Parameters, and a host or a tile
other than the controller's Connect Invalid Host; R56 names only faults of the queue identifier and of SQSIZE. -/
def connectIo (k : Conn) (d : ConnectData) (s : State) : State :=
  let fail := fun st f => emit (.connectFailed k.id st f) s
  match findCtrl s d.cntlid with
  | none => fail .connectInvalidParameters .cntlid
  | some c =>
    if c.ident != .nqn d.hostNqn || c.tile != k.tile then fail .connectInvalidHost .none
    else if c.grant.getD 0 < d.qid || (findSq s d.cntlid d.qid).isSome then fail .connectInvalidParameters .qid
    else if 1023 < d.sqsize then fail .connectInvalidParameters .sqsize
    else
      let mediaOnly := s.tfld k.tile .qe_cfg_freeze_default == 1
      emit (.connected k.id d.cntlid) (bindConn k.id d.cntlid d.qid d.hostNqn { s with host := { s.host with
        sqs := s.host.sqs ++ [ioSq d.cntlid d.qid k.tile 0 (d.sqsize + 1) d.qid 2 mediaOnly k.transport]
        cqs := s.host.cqs ++ [ioCq d.cntlid d.qid 0 (d.sqsize + 1) 0 false] } })

/-- A tile's port is being reconfigured (R62). -/
def reconfiguring (s : State) (t : Nat) : Bool := (findPort s t).any fun p => p.recon != 0

/-- FABRICS_CONNECT (R48, R62, R526): on a discovery connection it reaches the port's discovery controller; while the port is being
reconfigured it fails with Controller Busy, and while qe_enable is 0 it reaches no controller. -/
def fabricsConnect (id : Nat) (d : ConnectData) (s : State) : State :=
  match liveConn s id with
  | none => s
  | some k =>
    if k.bound || s.tfld k.tile .qe_cfg_qe_enable == 0 then s
    else if reconfiguring s k.tile then emit (.connectFailed id .controllerBusy .none) s
    else if k.discovery then emit (.connected id 0) (bindConn id 0 0 d.hostNqn s)
    else if d.qid == 0 then connectAdmin k d s
    else connectIo k d s

/-- Connect is one of R53's admin commands: activation holds it (R97). -/
def execFabricsConnect (id : Nat) (d : ConnectData) (s : State) : Host.Outcome State Fault Refusal :=
  .next (runAdmin .queueEngine (.conn id) (.fabricsConnect id d) (fabricsConnect id d) s)

/-- CONTROLLER_ENABLE (R43, R51, R52, R55, R56, R58, R71, R95, R105): CC.EN set on a PCIe function of an endpoint whose link is
up, with the sizes and places of the admin queues. CC.AMS other than 000b and 001b is rejected. DESIGN CHOICE: with no free controller
slot or queue pair on the tile nothing happens; R56 gives an outcome for the fabrics Connect alone. -/
def ctrlEnable (e fn asqs acqs asq acq : Nat) (cc : CcFields) (s : State) : State :=
  match findPort s e with
  | none => s
  | some p =>
    if !(p.mode == 4 || (p.mode == 5 && e < partnerOf s e)) || p.linkUp.isEmpty || 63 < fn || 1 < cc.ams || !cc.en ||
        s.tfld e .qe_cfg_qe_enable == 0 || p.recon != 0 then s
    else match s.host.ctrls.find? (fun c => c.ident == .function e fn) with
      | some c =>
        if c.enabled then s
        else
          updSq c.cntlid 0 (fun q => { q with base := asq, size := min (asqs + 1) 256 })
            (updCq c.cntlid 0 (fun q => { q with base := acq, size := min (acqs + 1) 256 })
              (updCtrl c.cntlid (fun c => { c with
                enabled := true, ready := true, ams := cc.ams
                provider := c.provider || (designated s c.ident e && !providerExists s)
                orderMode := s.tfld e .qe_cfg_default_order_mode }) s))
      | none => match freeCntlid s e with
        | none => s
        | some id =>
          if qpFree s e == 0 then s
          else
            let prov := designated s (.function e fn) e && !providerExists s
            let c := newCtrl s id e (.function e fn) prov 0
            { s with host := { s.host with
              ctrls := s.host.ctrls ++ [{ c with enabled := true, ready := true, ams := cc.ams }]
              nextInc := s.host.nextInc + 1
              sqs := s.host.sqs ++ [adminSq id e asq (min (asqs + 1) 256) .pcie]
              cqs := s.host.cqs ++ [adminCq id acq (min (acqs + 1) 256)] } }

def execControllerEnable (e fn : Nat) (a : AdminRings) (cc : CcFields) (s : State) : Host.Outcome State Fault Refusal :=
  .next (ctrlEnable e fn a.asqs a.acqs a.asq a.acq cc s)

/-- CONTROLLER_RESET (R94, R95): CC.EN changes from 1 to 0. -/
def ctrlReset (id : Nat) (s : State) : State :=
  match findCtrl s id with
  | none => s
  | some c => if c.enabled then resetCtrl id s else s

def execControllerReset (id : Nat) (s : State) : Host.Outcome State Fault Refusal := .next (ctrlReset id s)

/-- SHUTDOWN (R95), normal or abrupt: every fetched command completes, and nothing more is fetched. -/
def ctrlShutdown (id : Nat) (s : State) : State :=
  match findCtrl s id with
  | none => s
  | some c => if c.enabled then shutdownDone id (updCtrl id (fun c => { c with shutting := true, shst := 1 }) s) else s

def execShutdown (id : Nat) (_abrupt : Bool) (s : State) : Host.Outcome State Fault Refusal :=
  .next (ctrlShutdown id s)

/-- FUNCTION_LEVEL_RESET (R94). -/
def functionReset (e fn : Nat) (s : State) : State :=
  ((s.host.ctrls.filter fun c => c.ident == .function e fn).map (·.cntlid)).foldl (fun s id => endCtrl id s) s

def execFunctionLevelReset (e fn : Nat) (s : State) : Host.Outcome State Fault Refusal := .next (functionReset e fn s)

def onEndpoint (e : Nat) (c : Ctrl) : Bool :=
  match c.ident with
  | .function f _ => f == e
  | .nqn _ => false

/-- CONVENTIONAL_RESET (R94): every function of the endpoint. -/
def conventionalReset (e : Nat) (s : State) : State :=
  ((s.host.ctrls.filter (onEndpoint e)).map (·.cntlid)).foldl (fun s id => endCtrl id s) s

def execConventionalReset (e : Nat) (s : State) : Host.Outcome State Fault Refusal := .next (conventionalReset e s)

/-- KEEP_ALIVE_EXPIRY (R57): the controller is ended as at a controller reset. -/
def kaExpiry (id : Nat) (s : State) : State :=
  match findCtrl s id with
  | none => s
  | some c => match c.ident with
    | .nqn _ => if c.kaDeadline ≤ s.nowMs then endCtrl id s else s
    | .function _ _ => s

def execKeepAliveExpiry (id : Nat) (s : State) : Host.Outcome State Fault Refusal := .next (kaExpiry id s)

/-- TRANSPORT_CONNECTION_CLOSED (R94): the host closes or resets a connection. -/
def connClosed (id : Nat) (s : State) : State :=
  match findConn s id with
  | none => s
  | some k => if k.bound && !k.discovery then endQueue k.cntlid k.sqid (dropConn id s) else dropConn id s

def execTransportConnectionClosed (id : Nat) (s : State) : Host.Outcome State Fault Refusal := .next (connClosed id s)

/-! ### Frames answered or honoured in hardware (R44) -/

/-- NEIGHBOUR_RESOLUTION_REQUEST: ARP and IPv6 neighbour solicitation for an address of the port are answered with its
MAC address. -/
def neighbour (t p vlan : Nat) (target : Bytes) (s : State) : State :=
  if portUp s t p && s.reg.netifs.any (fun n => n.tile == t && n.port == p && n.vlan == vlan && n.has target) then
    emit (.neighbourReply t p vlan target (s.fld t p .glb_mac_mac)) s
  else s

def execNeighbourResolutionRequest (t p vlan : Nat) (target : Bytes) (s : State) : Host.Outcome State Fault Refusal :=
  .next (neighbour t p vlan target s)

/-- ECHO_REQUEST: ICMP and ICMPv6 echo requests to an address of the port are answered with their data. -/
def echo (t p vlan : Nat) (target data : Bytes) (s : State) : State :=
  if portUp s t p && s.reg.netifs.any (fun n => n.tile == t && n.port == p && n.vlan == vlan && n.has target) then
    emit (.echoReply t p vlan target data) s
  else s

def execEchoRequest (t p vlan : Nat) (target data : Bytes) (s : State) : Host.Outcome State Fault Refusal :=
  .next (echo t p vlan target data s)

/-- PRIORITY_PAUSE_FRAME: `prio` none is a global pause. What the port sends in that priority waits until a quantum of 0 resumes it. -/
def pauseFrame (t p : Nat) (prio : Option Nat) (quanta : Nat) (s : State) : State :=
  if !portUp s t p then s
  else match prio with
  | some i =>
    if 7 < i then s
    else sendHeld (updPort t (fun k => { k with paused := (k.paused.filter fun x => x != (p, i)) ++
      (if quanta == 0 then [] else [(p, i)]) }) s)
  | none => sendHeld (updPort t (fun k => { k with allPaused := (k.allPaused.filter fun x => x != p) ++
      (if quanta == 0 then [] else [p]) }) s)

def execPriorityPauseFrame (t p : Nat) (prio : Option Nat) (quanta : Nat) (s : State) :
    Host.Outcome State Fault Refusal := .next (pauseFrame t p prio quanta s)

end Sys2Proof.Machine
end

