-- ==== Sys2Proof/Machine/PortCmds.lean ====
section
/-!
DEFINITION. Sys2Proof/Machine/PortCmds.lean: host links and the reconfiguration of a port (R42, R43, R45, R48, R50, R60 to R63, R526).
-/
namespace Sys2Proof.Machine
open Sys2Proof

/-! ### Links -/

/-- A mode is one of the Ethernet modes, or one of the PCIe modes (R42). -/
def isEth (mode : Nat) : Bool := 1 ≤ mode && mode ≤ 3
def isPcie (mode : Nat) : Bool := mode == 4 || mode == 5

/-- A port's links train: its lanes have restarted since the last change of mode, or no change runs, and the restart of R315 has started
the host ports. -/
def mayTrain (s : State) (t : Nat) : Bool :=
  s.island.pkg == 2 && s.plp.started && tileUp s t && (findPort s t).any fun p => p.recon == 0 || p.recon == 5

/-- The tiles whose lanes carry a port: both tiles of a pair for an x8 endpoint (R43). -/
def portLanes (s : State) (t mode : Nat) : List Nat := if mode == 5 then [t, partnerOf s t] else [t]

/-- The widths that an endpoint trains to (R49). -/
def pcieWidths (mode : Nat) : List Nat := if mode == 5 then [1, 2, 4, 8] else [1, 2, 4]

/-- The link `p` of a tile may come up with this rate and width: an Ethernet port that exists and has a MAC address (R42, R45), or the
link of an endpoint, at the tile that holds it (R43, R49, R61). -/
def linkMayRise (s : State) (t p rate width : Nat) : Bool :=
  match findPort s t with
  | none => false
  | some k =>
    !k.linkUp.contains p && (portLanes s t k.mode).all (mayTrain s) &&
    (if isEth k.mode then decide (p < ethPorts k.mode) && s.fld t p .glb_mac_mac != 0
     else isPcie k.mode && p == 0 && 1 ≤ rate && rate ≤ 6 && (pcieWidths k.mode).contains width &&
       (k.mode == 4 || (decide (t < partnerOf s t) && (findPort s (partnerOf s t)).any fun q => q.mode == 5)))

/-- The lanes of tile `x` in an endpoint's link of a width: on an x8 endpoint the lower-numbered tile's lanes come first (R43, R50). -/
def lanesOn (t x width : Nat) : Nat := if x == t then min width 4 else width - 4

/-- HOST_LINK_UP (R42, R48, R50, R60, R62): the link is up, and with the first link of a port that was reconfigured step 6 is reached.
An endpoint that trained below 64 GT/s or narrower than its mode is Non-Optimized, as is an Ethernet link reported so (R60). -/
def hostLinkUp (t p rate width : Nat) (narrow : Bool) (s : State) : State :=
  if !linkMayRise s t p rate width then s
  else
    let mode := ((findPort s t).map (·.mode)).getD 0
    let slow := narrow || (isPcie mode && (rate != 6 || width != (if mode == 5 then 8 else 4)))
    let s1 := (portLanes s t mode).foldl (fun s x => updPort x (fun k => { k with
      linkUp := k.linkUp ++ [p], recon := 0, narrow := k.narrow ++ (if slow then [p] else [])
      pcieRate := if isPcie mode then rate else 0, pcieWidth := if isPcie mode then lanesOn t x width else 0 }) s) s
    let s2 := anaRefresh s1
    if isEth mode then discoveryChanged s2 else s2

def execHostLinkUp (t p rate width : Nat) (narrow : Bool) (s : State) : Host.Outcome State Fault Refusal :=
  .next (hostLinkUp t p rate width narrow s)

/-- Takes a port's link down. -/
def dropLink (p : Nat) (k : Port) : Port :=
  { k with linkUp := k.linkUp.filter fun x => x != p, narrow := k.narrow.filter fun x => x != p, pcieRate := 0, pcieWidth := 0,
           paused := k.paused.filter fun x => x.1 != p, allPaused := k.allPaused.filter fun x => x != p }

/-- HOST_LINK_DOWN (R48, R94, R526): an Ethernet port receives nothing while its link is down; a PCIe link that goes down resets the
functions of its endpoint. -/
def hostLinkDown (t p : Nat) (s : State) : State :=
  match findPort s t with
  | none => s
  | some k =>
    if !k.linkUp.contains p || (k.mode == 5 && partnerOf s t < t) then s
    else
      let s0 := (portLanes s t k.mode).foldl (fun s x => updPort x (dropLink p) s) s
      let s1 := { s0 with heldOuts := s0.heldOuts.filter fun h => !(h.tile == t && h.port == p) }
      if isPcie k.mode then anaRefresh (conventionalReset t s1) else discoveryChanged (anaRefresh s1)

def execHostLinkDown (t p : Nat) (s : State) : Host.Outcome State Fault Refusal := .next (hostLinkDown t p s)

/-! ### Reconfiguration (R62, R63) -/

/-- Step 1: the port's controllers report Inaccessible, and it drains. -/
def startRecon (t : Nat) (s : State) : State :=
  anaRefresh (updPort t (fun k => { k with recon := 2, reconAt := s.nowMs }) s)

/-- A fetched command that step 3 waits for: not held by a limit or by activation, not discarded, and no request for events. -/
def drains (s : State) (t : Nat) (c : Cmd) : Bool :=
  (c.tile == t || ((findCtrl s c.cntlid).any fun k => k.tile == t)) && !c.discard && c.phase != .held &&
  !(s.heldAdmin.filterMap heldCmd).contains c.id && !s.host.ctrls.any fun k => k.aers.contains c.id

/-- Step 3: every remaining controller ends as at a controller reset; TCP connections are reset, RDMA queue pairs moved to the error
state. -/
def endPort (t : Nat) (s : State) : State :=
  let s1 := (s.host.conns.filter fun k => k.tile == t && k.transport == .rdma).foldl (fun s k => emit (.qpError k.id) s) s
  let s2 := ((s1.host.ctrls.filter fun c => c.tile == t).map (·.cntlid)).foldl (fun s id => endCtrl id s) s1
  (s2.host.conns.filter fun k => k.tile == t).foldl (fun s k => dropConn k.id (emit (.connClosed k.id) s)) s2

/-- PORT_DRAIN_END (R62, step 3): no started command remains, or drain_time has passed. -/
def portDrainEnd (t : Nat) (s : State) : State :=
  match findPort s t with
  | none => s
  | some k =>
    if k.recon != 2 || (s.host.cmds.any (drains s t) && s.nowMs < k.reconAt + 1000 * s.tfld t .glb_port_cfg_drain_time) then s
    else
      let wasUp := isEth k.mode && !k.linkUp.isEmpty
      let s1 := updPort t (fun k => { k with
        recon := 3, reconAt := s.nowMs, linkUp := [], narrow := [], pcieRate := 0, pcieWidth := 0, paused := []
        allPaused := [] }) (endPort t s)
      let s2 := logEv .portReconfig t [k.mode, s.tfld t .glb_port_cfg_port_mode] s1
      if wasUp then discoveryChanged s2 else s2

def execPortDrainEnd (t : Nat) (s : State) : Host.Outcome State Fault Refusal := .next (portDrainEnd t s)

/-- The Ethernet ports of a tile whose MAC address is zero: each logs CFG_REJECT (R45, R485). -/
def logZeroMacs (t mode : Nat) (s : State) : State :=
  ((List.range (ethPorts mode)).filter fun p => s.fld t p .glb_mac_mac == 0).foldl
    (fun s p => reject t (bar0 t p .glbMac) 10 s) s

/-- LANE_RESTART (R62, step 4): 1 ms after step 3 the lanes restart in the new mode. With no link that could come up, the port has reached
step 6. -/
def laneRestart (t : Nat) (s : State) : State :=
  match findPort s t with
  | none => s
  | some k =>
    if k.recon != 3 || s.nowMs < k.reconAt + 1 then s
    else
      let mode := s.tfld t .glb_port_cfg_port_mode
      let trains := isPcie mode || (List.range (ethPorts mode)).any fun p => s.fld t p .glb_mac_mac != 0
      anaRefresh (logZeroMacs t mode (updPort t (fun k => { k with mode := mode, recon := if trains then 5 else 0 }) s))

def execLaneRestart (t : Nat) (s : State) : Host.Outcome State Fault Refusal := .next (laneRestart t s)

end Sys2Proof.Machine
end

