-- ==== Sys2Proof/Machine/CommitCmds.lean ====
section
/-!
DEFINITION. Sys2Proof/Machine/CommitCmds.lean: staged configuration: the snapshot of the shadow, its validation, and how each block takes
its values (R12, R13, R43, R63, R482 to R486).
-/
namespace Sys2Proof.Machine
open Sys2Proof

def updCommit (f : Commit → Commit) (s : State) : State :=
  { s with board := { s.board with commit := f s.board.commit } }

/-! ### Starting and reverting -/

/-- Snapshots the shadow and assigns commit_seq, in IDLE (R482). -/
def startCommit (fromRing : Bool) (s : State) : State :=
  updCommit (fun c => { c with
    state := 1, seq := (c.seq + 1) % 2 ^ 32, snapshot := s.regs.shadow, fromRing := fromRing }) s

/-- A request while a commit runs is refused with COMMIT_BUSY (R482). -/
def commitBusy (s : State) : State := reject 15 (bar0 pkgWin 0 .glbCommit) 6 s

/-- COMMIT: a write of commit in GLB_COMMIT. -/
def commitWrite (s : State) : State := if s.board.commit.state == 0 then startCommit false s else commitBusy s

def execCommit (s : State) : Host.Outcome State Fault Refusal := .next (pkgWrite commitWrite s)

def staged (f : Fld) : Bool := f.info.acc == .rs

/-- REVERT: every shadow field takes the live value, in IDLE only (R482). -/
def revertShadow (s : State) : State :=
  if s.board.commit.state == 0 then
    { s with regs := { s.regs with shadow := s.regs.live.filter fun v => staged v.fld } }
  else s

def execRevert (s : State) : Host.Outcome State Fault Refusal := .next (pkgWrite revertShadow s)

/-! ### Validation (R482, R485) -/

/-- A check that fails: the BAR0 offset of its register, the field, its window and the reason. -/
structure BadField where
  off    : Nat
  win    : Nat
  fld    : Fld
  reason : Nat
deriving DecidableEq, Repr

def badField (w i : Nat) (f : Fld) (reason : Nat) : BadField :=
  { off := bar0 w i f.info.reg, win := w, fld := f, reason := reason }

/-- Fields with reserved encodings (R42, R487, R491). -/
def hasReserved : Fld → Bool
  | .glb_port_cfg_port_mode | .glb_debug_uart_baud | .glb_pin_func_func_0 | .glb_pin_func_func_1 | .glb_pin_func_func_2
    | .glb_pin_func_func_3 | .glb_pin_func_func_4 | .glb_pin_func_func_5 | .glb_pin_func_func_6 | .glb_pin_func_func_7 => true
  | _ => false

/-- The range check of one value, in the package's window or that of a tile in service. A field at its reset value is in range. -/
def rangeFault (s : State) (v : RegVal) : Option BadField :=
  if !(v.win == pkgWin || tileUp s v.win) || fldAbsent s v.fld || (v.fld.info.least ≤ v.val && v.val ≤ v.fld.info.most) then none
  else some (badField v.win v.idx v.fld (if hasReserved v.fld then 3 else 2))

/-- A field's value in the set that is validated. -/
def snapVal (s : State) (w i : Nat) (f : Fld) : Nat := valOf s.board.commit.snapshot w i f

/-- A check, named by the field that fails it. -/
def ensure (ok : Bool) (b : BadField) : Option BadField := if ok then none else some b

/-- The relations between the fields of a tile (R99, R191, R337, R414, R43), and the state check of R63. -/
def tileFaults (s : State) (t : Nat) : List (Option BadField) :=
  let v := fun f => snapVal s t 0 f
  let mode := v .glb_port_cfg_port_mode
  [ensure (v .qe_die_share_bg_base ≤ v .qe_die_share_bg_max) (badField t 0 .qe_die_share_bg_base 2),
   ensure (v .plc_slc_cfg_slc_resume_pct + 5 ≤ v .plc_slc_cfg_slc_direct_pct) (badField t 0 .plc_slc_cfg_slc_resume_pct 4),
   ensure (v .plc_slc_cfg_promote_start_pct ≤ v .plc_slc_cfg_slc_resume_pct) (badField t 0 .plc_slc_cfg_promote_start_pct 4),
   ensure (mode != 5 || snapVal s (partnerOf s t) 0 .glb_port_cfg_port_mode == 5) (badField t 0 .glb_port_cfg_port_mode 4),
   ensure (mode == s.tfld t .glb_port_cfg_port_mode || (findPort s t).all fun p => p.recon == 0)
    (badField t 0 .glb_port_cfg_port_mode 5)] ++
  (List.range 6).map (fun n => ensure (snapVal s t n .bpm_pool_cfg_urgent_rsv ≤ poolCount s t n)
    (badField t n .bpm_pool_cfg_urgent_rsv 2)) ++
  (List.range 9).flatMap fun k =>
    let l := fun f => snapVal s t k f
    [ensure (l .thm_limits_warn_c ≤ l .thm_limits_throttle_c) (badField t k .thm_limits_warn_c 4),
     ensure (l .thm_limits_throttle_c + 5 ≤ l .thm_limits_critical_c) (badField t k .thm_limits_throttle_c 4)]

/-- The relations between the PLP_ fields (R322). -/
def plpFaults (s : State) : List (Option BadField) :=
  let v := fun f => snapVal s pkgWin 0 f
  [ensure (v .plp_thresh_pfail_mv + 200 ≤ v .plp_thresh_warn_mv) (badField pkgWin 0 .plp_thresh_warn_mv 4),
   ensure (v .plp_thresh_pfail_mv ≤ v .plp_bank_vmin_mv) (badField pkgWin 0 .plp_bank_vmin_mv 4)]

/-- The links of a tile that neither end disables in the set that is validated (R486). -/
def linksLeft (s : State) (t : Nat) : List MeshPort :=
  let off := fun (x : Nat) (p : MeshPort) => bitOf (snapVal s x 0 .glb_mesh_cfg_link_disable) (linkIndex p)
  linkOrder.filter fun p => tileUp s (linkTo s t p) && !off t p && !off (linkTo s t p) (farEnd p)

/-- One round of the search for the tiles that links reach. -/
def spread (s : State) (seen : List Nat) : List Nat :=
  (seen ++ seen.flatMap fun t => (linksLeft s t).map (linkTo s t)).eraseDups

/-- Every tile in service can be reached from the first one. -/
def meshWhole (s : State) : Bool :=
  let reached := (List.range 8).foldl (fun l _ => spread s l) ((upTiles s).take 1)
  (upTiles s).all reached.contains

/-- A link_disable would leave a tile in service unreachable (R485): named by the first tile that disables a link. -/
def meshFaults (s : State) : List (Option BadField) :=
  match (upTiles s).find? fun t => snapVal s t 0 .glb_mesh_cfg_link_disable != 0 with
  | none => []
  | some t => [ensure (meshWhole s) (badField t 0 .glb_mesh_cfg_link_disable 13)]

/-- Every check that fails. -/
def commitFaults (s : State) : List BadField :=
  let values := s.board.commit.snapshot.filter (fun v => staged v.fld) ++ s.regs.live.filter fun v => v.fld.info.acc == .rw
  values.filterMap (rangeFault s) ++ ((upTiles s).flatMap (tileFaults s) ++ plpFaults s ++ meshFaults s).filterMap id

/-- The order of fields: by offset, then by bit. -/
def BadField.before (a b : BadField) : Bool := a.off < b.off || (a.off == b.off && a.fld.info.lo ≤ b.fld.info.lo)

/-- The first failing field. -/
def firstFault : List BadField → Option BadField
  | [] => none
  | b :: bs => match firstFault bs with
    | none => some b
    | some c => some (if b.before c then b else c)

/-- A block's cfg_err reports a rejected commit (R414, R437). -/
def errsOnCommit (r : Reg) : Bool := r == .thmCfg || r == .thmLimits || r == .evrCfg

/-- A commit is rejected: the live set and the shadow stay (R482). -/
def rejectCommit (b : BadField) (s : State) : State :=
  let fromRing := s.board.commit.fromRing
  let s1 := updCommit (fun c => { c with
    state := 0, rejected := true, reason := b.reason, badOffset := b.off, snapshot := [], fromRing := false }) s
  let s2 := reject (winTile b.win) b.off b.reason
    (if errsOnCommit b.fld.info.reg then setCfgErr b.win b.fld.info.reg s1 else s1)
  let s3 := emit (.ringIrq 3) s2
  if fromRing then boardFail b.reason s3 else s3

/-- COMMIT_VALIDATED (R482). -/
def commitValidated (s : State) : State :=
  if s.board.commit.state != 1 then s
  else match firstFault (commitFaults s) with
    | some b => rejectCommit b s
    | none => updCommit (fun c => { c with state := 2 }) s

def execCommitValidated (s : State) : Host.Outcome State Fault Refusal := .next (commitValidated s)

/-! ### Applying (R483, R486) -/

/-- A value that a commit hands over: a staged field of the package or of a tile in service. -/
def handedOver (s : State) (v : RegVal) : Bool := staged v.fld && (v.win == pkgWin || tileUp s v.win)

/-- The live set after the commit; a lost tile's values are dropped (R482). -/
def takeSnapshot (s : State) : State :=
  { s with regs := { s.regs with
    live := s.board.commit.snapshot.filter (handedOver s) ++ s.regs.live.filter fun v => !handedOver s v } }

/-- Ports whose mode has changed begin R62. -/
def startPorts (old s : State) : State :=
  ((upTiles s).filter fun t => old.tfld t .glb_port_cfg_port_mode != s.tfld t .glb_port_cfg_port_mode).foldl
    (fun s t => startRecon t s) s

/-- Links that the new set disables go down, and are not trained again (R26, R486). -/
def disableLinks (s : State) : State :=
  ((upTiles s).flatMap fun t => linkOrder.map fun p => (t, p)).foldl (fun s x =>
    if linkUp s x.1 x.2 && bitOf (s.tfld x.1 .glb_mesh_cfg_link_disable) (linkIndex x.2) then meshDown x.1 x.2 true s else s) s

/-- Epoch boundaries follow a new epoch_s (R119, R483). -/
def moveEpochs (old s : State) : State :=
  if old.gfld .glb_clock_cfg_epoch_s == s.gfld .glb_clock_cfg_epoch_s then s else moveEpochEnd s

/-- The buckets that are not full under a new rate_burst: each keeps its tokens, capped (R424). -/
def cappedTokens (old s : State) : List (Nat × Nat) :=
  (allEvs.map fun e => (e.code, tokensOf old e.code)).filter fun b => decide (b.2 < rateBurst s)

def capTokens (old s : State) : State := { s with evr := { s.evr with buckets := cappedTokens old s } }

/-- COMMIT_APPLIED (R482, R483): every block has reached its safe point. -/
def commitApplied (s : State) : State :=
  if s.board.commit.state != 2 then s
  else
    let c := s.board.commit
    let s1 := capTokens s (moveEpochs s (disableLinks (startPorts s (takeSnapshot s))))
    let s2 := emit (.ringIrq 3) (updCommit (fun c => { c with
      state := 0, rejected := false, applied := c.seq, snapshot := [], fromRing := false }) s1)
    if c.fromRing then boardDone c.seq 0 s2 else s2

def execCommitApplied (s : State) : Host.Outcome State Fault Refusal := .next (commitApplied s)

end Sys2Proof.Machine
end

