-- ==== Sys2Proof/Machine/CmpCmds.lean ====
section
/-!
DEFINITION. Sys2Proof/Machine/CmpCmds.lean: the compression engine: jobs, buffers by handle, stream slots and statuses
(R338 to R349).
-/
namespace Sys2Proof.Machine
open Sys2Proof

/-! ### Data by handle (R327, R340) -/

/-- A good handle of a tile's own pools (R333). -/
def handleGood (s : State) (t h : Nat) : Bool := (handleFault s t h).isNone

/-- The buffers that a handle field names, in order: itself, or the handles of its list buffer up to the null handle. -/
def buffersOf (s : State) (t h : Nat) (list : Bool) : Option (List Nat) :=
  if !handleGood s t h then none
  else if !list then some [h]
  else
    let hs := ((List.range 64).map fun i => ofLE (readBytes s.mem (bufAddr s h + 4 * i) 4)).takeWhile fun x => x != nullHandle
    some hs

/-- The buffers that hold `n` bytes: each listed buffer is used to its full size, except the last. -/
def needed (hs : List Nat) : Nat → Nat → List Nat
  | _, 0 => []
  | 0, _ => []
  | k + 1, n => match hs with
    | [] => []
    | h :: rest => h :: needed rest k (n - poolSize (hPool h))

/-- The bytes of a list of buffers. -/
def readBuffers (s : State) (hs : List Nat) (n : Nat) : Bytes :=
  (hs.flatMap fun h => readBytes s.mem (bufAddr s h) (poolSize (hPool h))).take n

/-- Writes bytes into a list of buffers. -/
def writeBuffers : List Nat → Bytes → State → State
  | [], _, s => s
  | h :: hs, bs, s =>
    let k := poolSize (hPool h)
    writeBuffers hs (bs.drop k) { s with mem := writeBytes (bufAddr s h) (bs.take k) s.mem }

/-- The room in a list of buffers. -/
def roomOf (hs : List Nat) : Nat := (hs.map fun h => poolSize (hPool h)).sum

/-! ### Stream slots (R344) -/

def findSlot (s : State) (t k : Nat) : Option CmpSlot := s.cmpSlots.find? fun x => x.tile == t && x.slot == k
def freeSlot (t k : Nat) (s : State) : State :=
  { s with cmpSlots := s.cmpSlots.filter fun x => !(x.tile == t && x.slot == k) }
def putSlot (x : CmpSlot) (s : State) : State :=
  { freeSlot x.tile x.slot s with cmpSlots := (freeSlot x.tile x.slot s).cmpSlots ++ [x] }

def jFirst (j : CmpJob) : Bool := bitOf j.flags 1
def jLast (j : CmpJob) : Bool := bitOf j.flags 2

/-- The slot a job runs on: none for a whole stream; or the status that refuses it (R344). -/
def slotFor (s : State) (t : Nat) (op : CmpOp) (j : CmpJob) : Except CmpStatus (Option CmpSlot) :=
  let new := fun k => ({ tile := t, slot := k, op := op, client := j.client, cls := j.cls, input := [], outLen := 0,
                         lastMs := s.nowMs } : CmpSlot)
  if j.slot == 0xFF then
    if jFirst j && jLast j then .ok none
    else if jFirst j then
      match (List.range 8).find? fun k => (findSlot s t k).isNone with
      | some k => .ok (some (new k))
      | none => .error .busy
    else .error .noStream
  else match findSlot s t j.slot with
    | some x => if x.client == j.client && x.op == op then .ok (some x) else .error .noStream
    | none => .error .noStream

/-- The ranges of R340. -/
def jobInRange (op : CmpOp) (j : CmpJob) : Bool :=
  decide (j.client ≤ 3) && decide (j.cls ≤ 10) && (j.slot == 0xFF || decide (j.slot < 8)) &&
  (decide (1 ≤ j.inLen) || (op == .compress && jLast j)) && decide (j.inLen ≤ 1048576) &&
  decide (16 ≤ j.outMax) && decide (j.outMax ≤ 1048832)

/-! ### What the pipes produce (R338, R339, R342, R343) -/

/-- Stored blocks for an input at a byte boundary (RFC 1951, R342). -/
def storedBlocks (last : Bool) : Nat → Bytes → Bytes
  | 0, _ => []
  | fuel + 1, bs =>
    let b := bs.take 65535
    let rest := bs.drop 65535
    let fin := last && rest.isEmpty
    BitVec.ofNat 8 (b2n fin) :: toLE 2 b.length ++ toLE 2 (65535 - b.length) ++ b ++
      (if rest.isEmpty then [] else storedBlocks last fuel rest)

/-- The bound of R342 on the output of a client off the storage path. -/
def offPathBound (n : Nat) : Nat := n + 5 * ceilDiv n 65535 + 2

/-- The compressor's output for the input of a job after earlier input of its stream, and whether every block is static. The
stream it writes is the engine's own choice (R338); off the storage path it is never longer than R342 allows. -/
def deflated (j : CmpJob) (before b : Bytes) : Bytes × Bool :=
  let z := Config.deflate (bitOf j.flags 0) (jLast j) before b
  if j.client == 0 || z.length ≤ offPathBound b.length then (z, bitOf j.flags 0 || Config.staticUsed before b)
  else (storedBlocks (jLast j) (b.length + 1) b, false)

/-- What a pipe makes of a job: its status, output, flags, trailing bytes, running CRC, input consumed, and the slot's
state after it. -/
structure CmpRun where
  status : CmpStatus
  out    : Bytes
  flags  : Nat
  trailing : Nat
  crc    : Nat
  used   : Nat
  slot   : Option CmpSlot
deriving DecidableEq, Repr

def runCompress (room : Nat) (j : CmpJob) (sl : Option CmpSlot) (b : Bytes) : CmpRun :=
  let before := (sl.map (·.input)).getD []
  let z := deflated j before b
  let st : CmpStatus := if z.1.length ≤ min j.outMax room then .ok else if j.client == 0 then .noGain else .outFull
  { status := st, out := if st == .ok then z.1 else [],
    flags := (if bitOf j.flags 3 && b.all (· == 0) then 4 else 0) + (if z.2 then 8 else 0),
    trailing := 0, crc := crc32c (before ++ b), used := b.length,
    slot := sl.map fun x => { x with input := before ++ b, outLen := x.outLen + z.1.length } }

def runDecompress (room : Nat) (j : CmpJob) (sl : Option CmpSlot) (b : Bytes) : CmpRun :=
  let before := (sl.map (·.input)).getD []
  let done := (sl.map (·.outLen)).getD 0
  let all := before ++ b
  let x := inflate (done + min j.outMax room) all
  let out := x.out.reverse.drop done
  let used := x.used all.length - before.length
  let data := x.out.reverse
  let trail := if x.state == .ended then all.length - x.used all.length else 0
  let st : CmpStatus := match x.state with
    | .bad => .badStream
    | .full => if jLast j then .outFull else .ok
    | .input | .header => if jLast j then .truncated else .ok
    | .ended =>
      if !jLast j then .ok
      else if crc32c data != j.expCrc then .crcFail
      else if j.expLen != 0 && j.expLen != data.length then .lenMismatch
      else .ok
  let more := x.state == .full && !jLast j
  { status := st, out := if st == .ok then out else [],
    flags := (if trail != 0 then 2 else 0) + (if more then 32 else 0), trailing := sat 0xFFFF trail,
    crc := crc32c data, used := if more || x.state == .ended then used else b.length,
    slot := sl.map fun y => { y with input := if more then all.take (before.length + used) else all, outLen := x.len } }

def runCrcOnly (room : Nat) (j : CmpJob) (sl : Option CmpSlot) (b : Bytes) : CmpRun :=
  let before := (sl.map (·.input)).getD []
  let c := crc32c (before ++ b)
  let st : CmpStatus := if min j.outMax room < b.length then .outFull
    else if jLast j && c != j.expCrc then .crcFail else .ok
  { status := st, out := if st == .ok then b else [], flags := 0, trailing := 0, crc := c, used := b.length,
    slot := sl.map fun x => { x with input := before ++ b, outLen := x.outLen + b.length } }

def runOp : CmpOp → Nat → CmpJob → Option CmpSlot → Bytes → CmpRun
  | .compress => runCompress
  | .decompress => runDecompress
  | .crcOnly => runCrcOnly

/-! ### Jobs (R340, R344, R346) -/

/-- The counters of CMP_ERRORS. -/
def countStatus (t : Nat) (st : CmpStatus) (s : State) : State :=
  match st with
  | .truncated | .badStream | .crcFail | .lenMismatch | .outFull => bump t .cmp_errors_stream_errors s
  | .busy | .noStream | .badHandle | .badJob => bump t .cmp_errors_refusals s
  | _ => s

/-- A job that ends before it reads (R346): the slot of its stream is freed, but for BUSY. -/
def endEarly (t : Nat) (op : CmpOp) (j : CmpJob) (st : CmpStatus) (s : State) : State :=
  let own := (findSlot s t j.slot).any fun x => x.client == j.client && x.op == op
  let s1 := if st != .busy && st != .noStream && own then freeSlot t j.slot s else s
  emit (.cmpDone t j.client st 0 0 0 0 0) (countStatus t st s1)

/-- A discarded job leaves the content of its output buffers undefined (R346): free values, fresh ones each time. -/
def discardOutput (hs : List Nat) (s : State) : State :=
  { writeBuffers hs ((List.range (roomOf hs)).map (Config.discardedByte s.fresh)) s with fresh := s.fresh + 1 }

/-- The buffers that a job reads and writes: none where a handle fails R333. -/
def jobBuffers (s : State) (t : Nat) (j : CmpJob) : Option (List Nat × List Nat) :=
  match buffersOf s t j.inHandle (bitOf j.flags 4), buffersOf s t j.outHandle (bitOf j.flags 5) with
  | some ins, some outs =>
    let inUse := needed ins 64 j.inLen
    let outUse := needed outs 64 j.outMax
    if (inUse ++ outUse).all (handleGood s t) then some (inUse, outUse) else none
  | _, _ => none

/-- A pipe takes a job: it is refused (R346), or gets the stream slot that it runs on (R344). -/
def takeJob (t : Nat) (op : CmpOp) (j : CmpJob) (s : State) : State × Option PipeJob :=
  if !jobInRange op j then (endEarly t op j .badJob s, none)
  else match jobBuffers s t j with
    | none => (endEarly t op j .badHandle s, none)
    | some _ => match slotFor s t op j with
      | .error st => (endEarly t op j st s, none)
      | .ok sl =>
        (match sl with
          | some x => putSlot { x with lastMs := s.nowMs } s
          | none => s,
         some { op := op, job := j, slot := sl.map (·.slot), done := 0, adjourned := 0 })

/-- What a pipe makes of the job in hand; input that its source does not deliver ends it TRUNCATED (R346). -/
def jobRun (s : State) (t : Nat) (h : PipeJob) : CmpRun :=
  let bufs := (jobBuffers s t h.job).getD ([], [])
  let b := readBuffers s bufs.1 (min h.job.inLen h.job.source)
  let r := runOp h.op (roomOf bufs.2) h.job (h.slot.bind (findSlot s t)) b
  if b.length < h.job.inLen then { r with status := .truncated, out := [] } else r

/-- The blocks of a job (R341): of input for the compressor and the check alone, of output for the decompressor. -/
def jobBlocks (s : State) (t : Nat) (h : PipeJob) : Nat :=
  match h.op with
  | .compress => ceilDiv (min h.job.inLen h.job.source) (if h.job.client == 0 then 65536 else 65535)
  | .crcOnly => ceilDiv (min h.job.inLen h.job.source) 65536
  | .decompress => ceilDiv (jobRun s t h).out.length 65536

/-- A job in hand ends (R340 to R346): its output is written, its stream's slot goes on or is freed, its completion is sent. -/
def finishJob (t : Nat) (h : PipeJob) (s : State) : State :=
  let j := h.job
  let r := jobRun s t h
  let outUse := ((jobBuffers s t j).getD ([], [])).2
  let s1 := match r.status, h.slot.bind (findSlot s t) with
    | .ok, some x =>
      if jLast j then freeSlot t x.slot s
      else putSlot { r.slot.getD x with lastMs := s.nowMs } s
    | .truncated, some x => putSlot { x with lastMs := s.nowMs } s
    | _, some x => freeSlot t x.slot s
    | _, none => s
  let s2 := addT t .cmp_out_bytes_count r.out.length (addT t .cmp_in_bytes_count r.used s1)
  let fl := r.flags + (if j.inLen < j.source then 1 else 0) + (if h.adjourned != 0 then 16 else 0)
  let word := if jFirst j && !jLast j && j.slot == 0xFF then h.slot.getD 0 else r.trailing
  emit (.cmpDone t j.client r.status fl word r.out.length r.crc r.used)
    (countStatus t r.status (if r.status == .ok then writeBuffers outUse r.out s2 else discardOutput outUse s2))

/-! ### The pipes (R347, R348) -/

def CmpOp.pipe : CmpOp → EngUnit
  | .compress => .compressor
  | .decompress | .crcOnly => .decompressor

def pipeOf (s : State) (t : Nat) (u : EngUnit) : Pipe :=
  (s.eng.pipes.find? fun p => p.tile == t && p.unit == u).getD { tile := t, unit := u, hand := none, saved := none }
def putPipe (p : Pipe) (s : State) : State :=
  { s with eng := { s.eng with pipes := (s.eng.pipes.filter fun x => !(x.tile == p.tile && x.unit == p.unit)) ++ [p] } }

/-- The stream slot that a waiting job names. -/
def EngReq.slot (r : EngReq) : Option Nat :=
  match r.work with
  | .cmp _ j => if j.slot == 0xFF then none else some j.slot
  | _ => none

/-- A waiting job may be taken: jobs of one stream run in the order they were submitted (R348). -/
def pipeMayTake (s : State) (p : Pipe) (r : EngReq) : Bool :=
  r.slot.isNone ||
  (!(reqsAt s p.tile p.unit).any (fun q => q.slot == r.slot && q.no < r.no) && (p.saved.bind (·.slot)) != r.slot)

/-- An H0 job waits that may be taken. -/
def urgentWaits (s : State) (p : Pipe) : Bool := (reqsAt s p.tile p.unit).any fun r => r.cls == .h0 && pipeMayTake s p r

/-- A pipe takes the job that goes next in class order. -/
def pipeTake (p : Pipe) (s : State) : Option State :=
  (takeReq p.tile p.unit (pipeMayTake s p) s).map fun x => match x.1.work with
    | .cmp op j =>
      let y := takeJob p.tile op j x.2
      putPipe { p with hand := y.2 } y.1
    | _ => x.2

/-- One turn of a pipe (R347): the job in hand is adjourned at its next block boundary for a waiting H0 job unless it is one itself,
else it ends; a free pipe takes H0 jobs, then the adjourned job, then what goes next. -/
def pipeTurn (t : Nat) (u : EngUnit) (s : State) : Option State :=
  let p := pipeOf s t u
  if s.tfld t .cmp_cfg_cmp_enable != 1 then none
  else match p.hand with
    | some h =>
      if h.job.cls != 0 && urgentWaits s p && h.done + 1 < jobBlocks s t h then
        some (addT t .cmp_adjourns_count 1
          (putPipe { p with hand := none, saved := some { h with done := h.done + 1, adjourned := h.adjourned + 1 } } s))
      else some (finishJob t h (putPipe { p with hand := none } s))
    | none =>
      if urgentWaits s p || p.saved.isNone then pipeTake p s
      else some (putPipe { p with hand := p.saved, saved := none } s)

/-- A pipe works until nothing waits. -/
def pipeDrain (t : Nat) (u : EngUnit) : Nat → State → State
  | 0, s => s
  | n + 1, s => match pipeTurn t u s with
    | some s1 => pipeDrain t u n s1
    | none => s

/-- A pipe works off what it has: every job is taken, ends, and is adjourned at most once for each H0 job. -/
def pipeRun (t : Nat) (u : EngUnit) (s : State) : State := pipeDrain t u (5 * (reqsAt s t u).length + 5) s

/-- A job is submitted (R340, R347). A pipe that is free works off its queue. One that is not takes the job when it has none in hand;
for an H0 job the one in hand is adjourned or ends. DESIGN CHOICE: time is not modelled within a job, so the command says whether the pipe
is free. -/
def cmpJob (t : Nat) (op : CmpOp) (j : CmpJob) (free : Bool) (s : State) : State :=
  if s.tfld t .cmp_cfg_cmp_enable != 1 then s
  else
    let u := op.pipe
    let s1 := submit t u (PClass.ofCode j.cls) (.cmp op j) s
    if free then pipeRun t u s1
    else match (pipeOf s1 t u).hand with
      | none => (pipeTurn t u s1).getD s1
      | some h => if j.cls == 0 && h.job.cls != 0 then pipeDrain t u 2 s1 else s1

/-- COMPRESS_JOB (R338, R340 to R347). -/
def execCompressJob (t : Nat) (j : Submitted CmpJob) (s : State) : Host.Outcome State Fault Refusal :=
  .next (cmpJob t .compress j.job j.free s)
/-- DECOMPRESS_JOB (R339 to R347). -/
def execDecompressJob (t : Nat) (j : Submitted CmpJob) (s : State) : Host.Outcome State Fault Refusal :=
  .next (cmpJob t .decompress j.job j.free s)
/-- CRC_ONLY_JOB (R340, R343 to R347). -/
def execCrcOnlyJob (t : Nat) (j : Submitted CmpJob) (s : State) : Host.Outcome State Fault Refusal :=
  .next (cmpJob t .crcOnly j.job j.free s)

/-- A job in hand, or adjourned, runs on a stream slot. -/
def slotRuns (s : State) (t k : Nat) : Bool :=
  s.eng.pipes.any fun p => p.tile == t && ((p.hand.bind (·.slot)) == some k || (p.saved.bind (·.slot)) == some k)

/-- STREAM_SLOT_TIMEOUT (R344): no job has named the slot for stream_timeout_ms. -/
def execStreamSlotTimeout (t k : Nat) (s : State) : Host.Outcome State Fault Refusal :=
  .next (match findSlot s t k with
    | none => s
    | some x =>
      if slotRuns s t k || s.nowMs < x.lastMs + s.tfld t .cmp_cfg_stream_timeout_ms then s
      else logEv .cmpSlotExpired t [x.client] (freeSlot t k s))

/-- CMP_ENABLE (R348, R349): a write of CMP_CFG. A write of 0 while map_enable or plc_enable is 1 is ignored. -/
def cmpEnable (t v : Nat) (s : State) : State :=
  if !bitOf v 0 && s.tfld t .cmp_cfg_cmp_enable == 1 &&
      (s.tfld t .map_cfg_map_enable == 1 || s.tfld t .plc_cfg_plc_enable == 1) then
    reject t (bar0 t 0 .cmpCfg) 11 (setT t .cmp_status_cfg_err 1 s)
  else writeEnable t .cmpCfg .cmp_cfg_cmp_enable v
    (fun s => if outOfRange s t .cmpCfg then some 2 else none) (setT t .cmp_status_cfg_err 1) id s

def execCmpEnable (t v : Nat) (s : State) : Host.Outcome State Fault Refusal := .next (tileWrite t (cmpEnable t v) s)

end Sys2Proof.Machine
end

