-- ==== Sys2Proof/Machine/CryptoCmds.lean ====
section
/-!
DEFINITION. Sys2Proof/Machine/CryptoCmds.lean: Key Load, the encryption engine, digest contexts and the signature verifier
(R113, R353 to R369).
-/
namespace Sys2Proof.Machine
open Sys2Proof

/-! ### Key Load (R113, R355, R357) -/

/-- Step 3 of R355: the wrapped key is in the registry and the namespace is READY. -/
def keyReady (a : Adm) (n : Nat) (w : Bytes) (s : State) : State :=
  admDone a .success 0 { s with reg := { s.reg with nss := s.reg.nss.map fun x =>
    if x.nsid == n then { x with state := .ready, wrapped := some w } else x } }

/-- Why a wrapped key is refused, as KEY_REJECT names it: 0 the unwrap fails, 1 its halves are equal (R113, R353). -/
def keyFault (s : State) (w : Bytes) : Nat := if (keyUnwrap (kDev s) w).isNone then 0 else 1

/-- KEY_LOAD: step 1 of R355 on the management primary's tile; step 2 sends the wrapped key to every other tile in service. -/
def keyLoad (a : Adm) (n : Nat) (w : Bytes) (s : State) : State :=
  match s.reg.nss.find? fun x => x.nsid == n && x.state != .deleting with
  | none => admDone a .invalidNamespaceOrFormat 0 s
  | some x =>
    let p := s.mgmt.primary
    if w.length != 72 then admDone a .dataSglLengthInvalid 0 s
    else if x.state != .keyPending then admDone a .commandSequenceError 0 s
    else match keyMaterial s w with
      | none => admDone a .invalidField 0 (logEv .keyReject p [n, keyFault s w] (bump p .cry_errors_unwrap_fail s))
      | some k =>
        let rest := (upTiles s).filter fun t => t != p
        let s1 := loadKey p n k s
        if rest.isEmpty then keyReady a n w s1
        else admPark a { s1 with prov := some { adm := a, kind := .keyLoad n w rest } }

def execKeyLoad (a : Adm) (n : Nat) (w : Bytes) (s : State) : Host.Outcome State Fault Refusal :=
  .next (runAdmin .registry a (.keyLoad a n w) (keyLoad a n w) s)

/-- No slot keeps a key of a namespace, without a change of generation. -/
def dropKey (n : Nat) (s : State) : State :=
  { s with cry := { s.cry with slots := s.cry.slots.map fun k =>
    if k.slot == n - 1 then { k with key1 := zeroBytes 32, key2 := zeroBytes 32, loaded := false } else k } }

/-- KEY_LOAD_CONFIRM (R355, R361): a tile confirms its unwrap; with the last the wrapped key is written to the registry and the
namespace is READY. A tile whose unwrap fails is faulty, and no slot keeps the key. A tile lost meanwhile is not waited for. -/
def keyConfirm (n t : Nat) (ok : Bool) (s : State) : State :=
  match s.prov with
  | some { adm := a, kind := .keyLoad m w ts } =>
    if m != n || !ts.contains t then s
    else if tileUp s t && !ok then
      provEnd (admDone a .internalError 0 (logEv .keyReject t [n, 2] (dropKey n (bump t .cry_errors_unwrap_fail s))))
    else match keyMaterial s w with
      | none => s
      | some k =>
        let left := ts.filter fun x => x != t && tileUp s x
        let s1 := if tileUp s t then loadKey t n k s else s
        if left.isEmpty then provEnd (keyReady a n w s1)
        else { s1 with prov := some { adm := a, kind := .keyLoad m w left } }
  | _ => s

def execKeyLoadConfirm (n t : Nat) (ok : Bool) (s : State) : Host.Outcome State Fault Refusal :=
  .next (keyConfirm n t ok s)

/-- KEY_SLOT_CLEAR (R357): the read-back of a cleared slot, tile by tile from tile 0. Where it is not zero the engine
refuses every job on the slot and does not load it again before the next start. -/
def keySlotClear (n : Nat) (readback : List Bool) (s : State) : State :=
  readback.zipIdx.foldl (fun s x => match findKey s x.2 (n - 1) with
    | some k =>
      if k.loaded || x.1 then s
      else logEv .cryZeroiseFail x.2 [n - 1] (putKey { k with zeroiseFail := true } s)
    | none => s) s

def execKeySlotClear (n : Nat) (readback : List Bool) (s : State) : Host.Outcome State Fault Refusal :=
  .next (keySlotClear n readback s)

/-! ### Encryption jobs (R358 to R361) -/

/-- CRY_ENABLE (R360, R368): a write of CRY_CFG. A rise runs the known-answer test on every lane; where lanes fail it the enable stays
at 0. A write of 0 while qe_enable is 1 is ignored. -/
def cryEnable (t v failed : Nat) (s : State) : State :=
  let on := s.tfld t .cry_cfg_cry_enable == 1
  if !bitOf v 0 && on && s.tfld t .qe_cfg_qe_enable == 1 then reject t (bar0 t 0 .cryCfg) 11 (setT t .cry_status_cfg_err 1 s)
  else if bitOf v 0 && !on && orderHolds s t .cry_cfg_cry_enable && failed % 16 != 0 then
    logEv .crySelftestFail t [failed % 16] (setT t .cry_status_self_test_fail 1 (writeCfg t .cryCfg (v - 1) s))
  else writeEnable t .cryCfg .cry_cfg_cry_enable v (fun _ => none) id id s

def execCryEnable (t v failed : Nat) (s : State) : Host.Outcome State Fault Refusal := .next (tileWrite t (cryEnable t v failed) s)

/-- The ranges of R359. -/
def cryInRange (s : State) (j : CryJob) : Bool :=
  decide (j.cls ≤ 10) && decide (j.slot < s.ident.part.namespaces) && decide (j.unit0 ≤ 16) && decide (16 ≤ j.length) &&
  decide (j.length ≤ 65536) && j.length % 16 == 0

def lanesUp (s : State) (t : Nat) : Nat := s.tfld t .cry_status_lanes_up

/-- The status that ends a job before the cipher runs, in the order of its checks (R357, R359). -/
def cryRefusal (s : State) (t : Nat) (dec : Bool) (j : CryJob) : Option CryStatus :=
  if !handleGood s t j.inHandle || !handleGood s t j.outHandle then some .badHandle
  else if !cryInRange s j then some .badJob
  else if !keyLoaded s t j.slot then some .keyAbsent
  else if dec && j.keyGen % 16 != slotGen s (j.slot + 1) then some .keyStale
  else if poolSize (hPool j.inHandle) < j.length || poolSize (hPool j.outHandle) < j.length then some .truncated
  else none

/-- Runs an encryption or decryption job (R358 to R360). -/
def cryJob (dec : Bool) (t : Nat) (j : CryJob) (fault : Option Nat) (s : State) : State :=
  let gen := slotGen s (j.slot + 1)
  let done := fun (st : CryStatus) (n : Nat) (s : State) => emit (.cryDone t st gen n) s
  if s.tfld t .cry_cfg_cry_enable != 1 || lanesUp s t == 0 then s
  else match cryRefusal s t dec j with
    | some st => done st 0 (if st == .keyAbsent || st == .keyStale then bump t .cry_errors_stale_jobs s else s)
    | none => match fault.filter fun k => k < 4 && bitOf (lanesUp s t) k with
      | some k => done .truncated 0 (logEv .cryLaneFault t [k] (setT t .cry_status_lanes_up (setBit (lanesUp s t) k false) s))
      | none => match findKey s t j.slot with
        | none => s
        | some k =>
          let b := readBytes s.mem (bufAddr s j.inHandle) j.length
          let units := ceilDiv j.length 4096
          let out := xtsUnits (!dec) k.key1 k.key2 j.writeSeq j.nsid units j.unit0 b
          done .ok j.length (addT t .cry_units_count units { s with mem := writeBytes (bufAddr s j.outHandle) out s.mem })

/-- The lanes serve the jobs that wait, in class order (R87, R360). -/
def serveCipher (t : Nat) : Nat → State → State
  | 0, s => s
  | n + 1, s =>
    match takeReq t .cipher (fun _ => true) s with
    | none => s
    | some (r, s1) => match r.work with
      | .cry dec j fault => serveCipher t n (cryJob dec t j fault s1)
      | _ => serveCipher t n s1

/-- A job is submitted (R359, R360): it waits while the lanes have units of others in hand. -/
def cipherJob (dec : Bool) (t : Nat) (j : CryJob) (fault : Option Nat) (free : Bool) (s : State) : State :=
  if s.tfld t .cry_cfg_cry_enable != 1 || lanesUp s t == 0 then s
  else
    let s1 := submit t .cipher (PClass.ofCode j.cls) (.cry dec j fault) s
    if free then serveCipher t (reqsAt s1 t .cipher).length s1 else s1

/-- ENCRYPT_JOB (R358 to R360). -/
def execEncryptJob (t : Nat) (j : Submitted CryJob) (f : Option Nat) (s : State) : Host.Outcome State Fault Refusal :=
  .next (cipherJob false t j.job f j.free s)
/-- DECRYPT_JOB (R358 to R360). -/
def execDecryptJob (t : Nat) (j : Submitted CryJob) (f : Option Nat) (s : State) : Host.Outcome State Fault Refusal :=
  .next (cipherJob true t j.job f j.free s)

/-- The jobs already queued on every tile end; the device clears or changes a key slot only then (R357). -/
def endCipherJobs (s : State) : State := (upTiles s).foldl (fun s t => serveCipher t (reqsAt s t .cipher).length s) s

/-! ### Digest contexts (R362 to R365) -/

def findCtx (s : State) (t k : Nat) : Option DigCtx := s.cry.ctxs.find? fun c => c.tile == t && c.ctx == k
def freeCtx (t k : Nat) (s : State) : State :=
  { s with cry := { s.cry with ctxs := s.cry.ctxs.filter fun c => !(c.tile == t && c.ctx == k) } }
def putCtx (c : DigCtx) (s : State) : State :=
  { s with cry := { s.cry with ctxs := (freeCtx c.tile c.ctx s).cry.ctxs ++ [c] } }

def freeCtxs (s : State) (t : Nat) : List Nat := (List.range 8).filter fun k => (findCtx s t k).isNone
/-- The context a direct open takes, where more are free than snoop_rsv (R364, R365). -/
def directCtx (s : State) (t : Nat) : Option Nat :=
  if s.tfld t .dig_cfg_snoop_rsv < (freeCtxs s t).length then (freeCtxs s t).head? else none

/-- The digest engine's answer to a requester. -/
def digSays (t owner : Nat) (a : DigAnswer) (s : State) : State := emit (.digest t owner a) s
def digBusy (t owner : Nat) (s : State) : State := digSays t owner .busy (bump t .dig_results_busy_refusals s)

def newCtx (t k owner alg : Nat) (key : HmacKey) (expected : Option Bytes) : DigCtx :=
  { tile := t, ctx := k, state := .opened, alg := alg, key := key, expected := expected, owner := owner, data := [],
    len := 0, source := 0, result := none, snoop := false, verify := false }

/-- DIGEST_DIRECT_OPEN (R362, R364, R365). -/
def execDigestDirectOpen (t owner alg : Nat) (key : HmacKey) (expected : Option Bytes) (s : State) :
    Host.Outcome State Fault Refusal :=
  .next (if 4 ≤ alg then digSays t owner .badReq s
    else match directCtx s t with
      | none => digBusy t owner s
      | some k => digSays t owner (.granted k) (putCtx (newCtx t k owner alg key expected) s))

/-- DIGEST_SNOOP_OPEN (R364): the context is bound to a stream of declared length. -/
def execDigestSnoopOpen (t owner source len alg : Nat) (key : HmacKey) (expected : Option Bytes) (s : State) :
    Host.Outcome State Fault Refusal :=
  .next (if 4 ≤ alg then digSays t owner .badReq s
    else match (freeCtxs s t).head? with
      | none => digBusy t owner s
      | some k => digSays t owner (.granted k) (putCtx { newCtx t k owner alg key expected with
          state := .bound, len := len, source := source, snoop := true } s))

/-- The value of a context (R362). -/
def digestValue (s : State) (c : DigCtx) : Bytes :=
  let key := match c.key with
    | .none => []
    | .mac => kMac s
    | .supplied k => k.take 128
  match c.alg with
  | 0 => sha256 c.data
  | 1 => sha384 c.data
  | 2 => hmac256 key c.data
  | _ => hmac384 key c.data

/-- DIGEST_DATA (R364): the owner's data is absorbed; a finished direct context restarts as a new message. -/
def digestData (t k owner : Nat) (d : Bytes) (s : State) : State :=
  match findCtx s t k with
  | none => s
  | some c =>
    let add := fun c => addT t .dig_bytes_count d.length (putCtx c s)
    match c.state with
    | .bound => digSays t owner .notBound s
    | .opened => if c.owner != owner then digSays t owner .notOwner s else add { c with data := c.data ++ d }
    | .finished =>
      if c.owner != owner || c.snoop || c.verify then s
      else add { c with state := .opened, data := d, expected := none, result := none }

def execDigestData (t k owner : Nat) (d : Bytes) (s : State) : Host.Outcome State Fault Refusal :=
  .next (digestData t k owner d s)

/-- Compares a finished context and reports (R363). The context the verifier bound is compared with nothing. -/
def digestCompare (c : DigCtx) (overlong truncated : Bool) (s : State) : State :=
  let equal := !truncated && c.expected == some (digestValue s c)
  let none_ := c.expected.isNone
  let c1 := { c with state := .finished, result := some (equal, none_, overlong, truncated) }
  let s1 := putCtx c1 s
  if c.verify then s1
  else digSays c.tile c.owner (.compared equal none_ overlong truncated)
    (if equal then s1 else bump c.tile .dig_results_not_equal s1)

/-- SNOOP_STREAM_END (R364): the stream has carried these bytes; those within the declared length are absorbed. -/
def snoopEnd (t k : Nat) (d : Bytes) (s : State) : State :=
  match findCtx s t k with
  | none => s
  | some c =>
    if c.state != .bound then s
    else
      let x := d.take c.len
      digestCompare { c with data := x } (decide (c.len < d.length)) (decide (d.length < c.len)) (addT t .dig_bytes_count x.length s)

def execSnoopStreamEnd (t k : Nat) (d : Bytes) (s : State) : Host.Outcome State Fault Refusal := .next (snoopEnd t k d s)

/-- DIGEST_FINISH (R363, R364). -/
def digestFinish (t k owner : Nat) (expected : Option Bytes) (s : State) : State :=
  match findCtx s t k with
  | none => s
  | some c => match c.state with
    | .bound => digSays t owner .notBound s
    | .finished => s
    | .opened =>
      if c.owner != owner then digSays t owner .notOwner s
      else digestCompare { c with expected := expected.or c.expected } false false s

def execDigestFinish (t k owner : Nat) (expected : Option Bytes) (s : State) : Host.Outcome State Fault Refusal :=
  .next (digestFinish t k owner expected s)

/-- DIGEST_RELEASE (R364). -/
def execDigestRelease (t k : Nat) (s : State) : Host.Outcome State Fault Refusal :=
  .next (match findCtx s t k with
    | none => s
    | some c => if c.state == .bound then digSays t c.owner .notBound s else freeCtx t k s)

/-! ### The signature verifier (R366, R367) -/

/-- SIGNATURE_VERIFY_REQUEST (R366): a SHA-384 context is bound, or the request fails with BUSY. -/
def vfyRequest (t owner key : Nat) (pub sig : Bytes) (s : State) : State :=
  match s.cry.vfys.find? (fun v => v.tile == t), directCtx s t with
  | none, some k =>
    digSays t owner (.granted k) (putCtx { newCtx t k owner 1 .none none with verify := true }
      { s with cry := { s.cry with vfys := s.cry.vfys ++ [{ tile := t, key := key, pub := pub, sig := sig, ctx := k }] } })
  | _, _ => digBusy t owner s

def execSignatureVerifyRequest (t owner key : Nat) (pub sig : Bytes) (s : State) : Host.Outcome State Fault Refusal :=
  .next (vfyRequest t owner key pub sig s)

/-- The steps of R367 over a digest. -/
def signaturePasses (s : State) (key : Nat) (pub sig digest : Bytes) : Bool :=
  bitOf s.ident.keyPresent key && !bitOf s.ident.keyRevoked key && decide (key < 4) && s.ident.rowOk &&
  sha384 pub == (s.ident.keyHashes.getD key []) && ecdsaVerify pub sig digest

/-- SIGNATURE_VERIFY_DONE (R367): the bound context has finished; PASS or FAIL is reported and the context is freed. -/
def vfyDone (t : Nat) (s : State) : State :=
  match s.cry.vfys.find? fun v => v.tile == t with
  | none => s
  | some v => match findCtx s t v.ctx with
    | none => s
    | some c =>
      if c.state != .finished then s
      else
        let ok := signaturePasses s v.key v.pub v.sig (digestValue s c)
        let s1 := freeCtx t v.ctx { s with cry := { s.cry with vfys := s.cry.vfys.filter fun x => x.tile != t } }
        digSays t c.owner (.verified ok) (bump t .dig_vfy_status_verifies
          (setT t .dig_vfy_status_last_result (if ok then 1 else 2) s1))

def execSignatureVerifyDone (t : Nat) (s : State) : Host.Outcome State Fault Refusal := .next (vfyDone t s)

end Sys2Proof.Machine
end

