-- ==== Sys2Proof/Machine/NamespaceCmds.lean ====
section
/-!
DEFINITION. Sys2Proof/Machine/NamespaceCmds.lean: namespaces, tenants and their limits (R100 to R117, R141).
-/
namespace Sys2Proof.Machine
open Sys2Proof

/-! ### Capacity (R108, R109) -/

def findEg (s : State) (id : Nat) : Option Eg := s.reg.egs.find? fun e => e.id == id

/-- The sum of NCAP in bytes over a group's namespaces, one in DELETING included (R109). -/
def provisioned (s : State) (eg : Nat) : Nat :=
  ((s.reg.nss.filter fun n => n.endgid == eg).map fun n => n.ncap * 4096).sum

/-- The lowest free NSID (R112). -/
def freeNsid (s : State) : Option Nat :=
  ((List.range s.ident.part.namespaces).map (· + 1)).find? fun i => !s.reg.nss.any fun n => n.nsid == i

/-- The fields that NAMESPACE_CREATE checks (R112). -/
def createOk (s : State) (r : NsCreate) : Bool :=
  decide (256 ≤ r.nsze) && decide (1 ≤ r.ncap) && decide (r.ncap ≤ r.nsze) && r.flbas == 0 &&
  decide (r.anagrpid ≤ 1) && (findEg s r.endgid).isSome && decide (r.compMode ≤ 2) &&
  (r.ownerTenant == 0 || s.reg.tenants.any fun t => t.id == r.ownerTenant)

/-- The new namespace: KEY_PENDING, attached to no controller (R112). -/
def newNs (s : State) (id : Nat) (r : NsCreate) : Ns :=
  { nsid := id, nsze := r.nsze, ncap := r.ncap, endgid := r.endgid, compMode := r.compMode, owner := r.ownerTenant,
    state := .keyPending, keyGen := slotGen s id, wrapped := none, attached := [],
    limits := { rdIops := 0, wrIops := 0, rdMbps := 0, wrMbps := 0, burstMs := 10 }, newLimits := none,
    secure := false, nuse := 0, unmapping := false, step := 0 }

/-- NAMESPACE_CREATE (R109, R112, R141). -/
def nsCreate (a : Adm) (r : NsCreate) (s : State) : State :=
  if !createOk s r then admDone a .invalidField 0 s
  else match freeNsid s, findEg s r.endgid with
  | none, _ => admDone a .namespaceIdUnavailable 0 s
  | some _, none => admDone a .invalidField 0 s
  | some id, some eg =>
    if usable s eg * eg.ratioPct < (provisioned s r.endgid + r.ncap * 4096) * 100 || !chunksFit s r.nsze then
      admDone a .namespaceInsufficientCapacity 0 s
    else admDone a .success id
      (reserveChunks id r.nsze { s with reg := { s.reg with nss := s.reg.nss ++ [newNs s id r] } })

def execNamespaceCreate (a : Adm) (r : NsCreate) (s : State) : Host.Outcome State Fault Refusal :=
  .next (runAdmin .registry a (.namespaceCreate a r) (nsCreate a r) s)

def updNs (n : Nat) (f : Ns → Ns) (s : State) : State :=
  { s with reg := { s.reg with nss := s.reg.nss.map fun x => if x.nsid == n then f x else x } }

/-- A namespace that provider-plane operations may name: one that exists and is not in DELETING (R59, R111). -/
def managed (s : State) (n : Nat) : Option Ns := (nsOf s n).filter fun x => x.state != .deleting

/-- Completes with Invalid Namespace or Format the commands held under R82 that these controllers sent to a namespace
(R115, R117). -/
def failHeld (n : Nat) (p : Cmd → Bool) (s : State) : State :=
  ((s.host.cmds.filter fun c => c.cap.nsid == n && !c.started && !isAdmin c.cap.op && p c).map (·.id)).foldl
    (fun s id => finishCmd id .invalidNamespaceOrFormat 0 s) s

/-- Started I/O commands on a namespace. -/
def startedOn (s : State) (n : Nat) (p : Cmd → Bool) : Bool :=
  s.host.cmds.any fun c => c.cap.nsid == n && !isAdmin c.cap.op && c.started && p c

/-- NAMESPACE_DELETE: step 1 of R117. -/
def nsDelete (a : Adm) (n : Nat) (s : State) : State :=
  match managed s n with
  | none => admDone a .invalidNamespaceOrFormat 0 s
  | some x =>
    admPark a (failHeld n (fun _ => true) (nsChanged x.attached
      { updNs n (fun x => { x with state := .deleting, step := 2 }) s with
        prov := some { adm := a, kind := .nsDelete n } }))

def execNamespaceDelete (a : Adm) (n : Nat) (s : State) : Host.Outcome State Fault Refusal :=
  .next (runAdmin .registry a (.namespaceDelete a n) (nsDelete a n) s)

/-- Steps 3 and 4 of R117: the key slot is cleared on every tile, the generation advances, the wrapped key leaves the
registry and the code-flash sectors that held a copy are erased; then the completion is posted. -/
def nsDeleteDrain (n : Nat) (s : State) : State :=
  match nsOf s n with
  | none => s
  | some x =>
    if x.state != .deleting || x.step != 2 || startedOn s n (fun _ => true) then s
    else
      let s1 := clearKey n (endCipherJobs s)
      let s2 := updNs n (fun x => { x with wrapped := none, step := 5, keyGen := slotGen s1 n }) s1
      match s2.prov with
      | some p => if p.kind == .nsDelete n then provEnd (admDone p.adm .success 0 s2) else s2
      | none => s2

def execNamespaceDeleteDrain (n : Nat) (s : State) : Host.Outcome State Fault Refusal := .next (nsDeleteDrain n s)

/-- NAMESPACE_UNMAP_END: steps 5 and 6 of R117. The directory entries are dropped, the record is removed, the directory
chunks return and the NSID is free. -/
def nsUnmapEnd (n : Nat) (s : State) : State :=
  match nsOf s n with
  | none => s
  | some x =>
    if x.state != .deleting || x.step != 5 then s
    else
      let s1 := dropRegions n s
      syncStores { s1 with reg := { s1.reg with
        nss := s1.reg.nss.filter fun y => !(y.nsid == n)
        leases := s1.reg.leases.filter fun l => !(l.nsid == n) } }

def execNamespaceUnmapEnd (n : Nat) (s : State) : Host.Outcome State Fault Refusal := .next (nsUnmapEnd n s)

/-- The tenants that a list of an attachment names: tenant IDs, or the tenants of controllers (R115). -/
def listedTenants (s : State) (byTenant : Bool) (l : List Nat) : Option (List Nat) :=
  l.mapM fun i => if byTenant then (s.reg.tenants.find? fun t => t.id == i).map (·.id)
    else (findCtrl s i).map (·.tenant)

/-- NAMESPACE_ATTACH (R115): all of the list or none of it. -/
def nsAttach (a : Adm) (n : Nat) (byTenant : Bool) (l : List Nat) (s : State) : State :=
  match managed s n with
  | none => admDone a .invalidNamespaceOrFormat 0 s
  | some _ => match listedTenants s byTenant l with
    | none => admDone a .controllerListInvalid 0 s
    | some ts => admDone a .success 0 (nsChanged ts.eraseDups
        (updNs n (fun x => { x with attached := (x.attached ++ ts).eraseDups }) s))

def execNamespaceAttach (a : Adm) (n : Nat) (byTenant : Bool) (l : List Nat) (s : State) :
    Host.Outcome State Fault Refusal :=
  .next (runAdmin .registry a (.namespaceAttach a n byTenant l) (nsAttach a n byTenant l) s)

/-- NAMESPACE_DETACH (R115): new and held commands of these tenants fail; the command waits for their started ones. -/
def nsDetach (a : Adm) (n : Nat) (byTenant : Bool) (l : List Nat) (s : State) : State :=
  match managed s n with
  | none => admDone a .invalidNamespaceOrFormat 0 s
  | some _ => match listedTenants s byTenant l with
    | none => admDone a .controllerListInvalid 0 s
    | some ts =>
      let s1 := updNs n (fun x => { x with attached := x.attached.filter fun t => !ts.contains t }) s
      let s2 := nsChanged ts.eraseDups (failHeld n (fun c => ts.contains c.payer.tenant) s1)
      admPark a { s2 with prov := some { adm := a, kind := .detach n ts } }

def execNamespaceDetach (a : Adm) (n : Nat) (byTenant : Bool) (l : List Nat) (s : State) :
    Host.Outcome State Fault Refusal :=
  .next (runAdmin .registry a (.namespaceDetach a n byTenant l) (nsDetach a n byTenant l) s)

/-- DETACH_DRAIN (R115): every started command of the detached tenants on the namespace has ended. -/
def detachDrain (n : Nat) (s : State) : State :=
  match s.prov with
  | some { adm := a, kind := .detach m ts } =>
    if m == n && !startedOn s n (fun c => ts.contains c.payer.tenant) then provEnd (admDone a .success 0 s) else s
  | _ => s

def execDetachDrain (n : Nat) (s : State) : Host.Outcome State Fault Refusal := .next (detachDrain n s)

/-! ### Format NVM, Sanitize (R114, R116) -/

/-- The state change of a format or crypto erase of one namespace (R116). -/
def formatOne (erase : Bool) (n : Nat) (s : State) : State :=
  if erase then
    let s1 := clearKey n (endCipherJobs s)
    updNs n (fun x => { x with
                               state := .keyPending, wrapped := none, keyGen := slotGen s1 n, nuse := 0,
                               unmapping := true }) s1
  else
    let s1 := advanceGen n (endCipherJobs s)
    updNs n (fun x => { x with keyGen := slotGen s1 n, nuse := 0, unmapping := true }) s1

/-- Runs a format over namespaces in order; a crypto erase of one whose unmap has not finished waits for it (R114). -/
def formatList (a : Adm) (erase : Bool) : List Nat → State → State
  | [], s => provEnd (admDone a .success 0 s)
  | n :: rest, s =>
    match nsOf s n with
    | none => formatList a erase rest s
    | some x =>
      if erase && x.unmapping then
        admPark a { s with
          prov := some { adm := a, kind := .format erase (n :: rest) } }
      else formatList a erase rest (formatOne erase n s)

/-- The namespaces not in DELETING, in NSID order. -/
def managedIds (s : State) : List Nat :=
  ((s.reg.nss.filter fun n => n.state != .deleting).map (·.nsid)).mergeSort (fun x y => decide (x ≤ y))

/-- FORMAT_NVM (R116). -/
def formatNvm (a : Adm) (n ses lbaf : Nat) (s : State) : State :=
  if 2 < ses || lbaf != 0 then admDone a .invalidField 0 s
  else if n == 0xFFFFFFFF then formatList a (ses != 0) (managedIds s) s
  else match managed s n with
    | none => admDone a .invalidNamespaceOrFormat 0 s
    | some _ => formatList a (ses != 0) [n] s

def execFormatNvm (a : Adm) (n ses lbaf : Nat) (s : State) : Host.Outcome State Fault Refusal :=
  .next (runAdmin .registry a (.formatNvm a n ses lbaf) (formatNvm a n ses lbaf) s)

/-- SANITIZE (R116): action 100b is the crypto erase; every other action fails. -/
def sanitizeAll (a : Adm) (action : Nat) (s : State) : State :=
  if action != 4 then admDone a .invalidField 0 s else formatList a true (managedIds s) s

def execSanitize (a : Adm) (action : Nat) (s : State) : Host.Outcome State Fault Refusal :=
  .next (runAdmin .registry a (.sanitize a action) (sanitizeAll a action) s)

/-- FORMAT_UNMAP_END (R114, R116): the background unmap ends, and a crypto erase that waits for it goes on. -/
def formatUnmapEnd (n : Nat) (s : State) : State :=
  match nsOf s n with
  | none => s
  | some x =>
    if !x.unmapping then s
    else
      let s1 := updNs n (fun x => { x with unmapping := false }) (dropStale n s)
      syncStores (match s1.prov with
      | some { adm := a, kind := .format e (m :: rest) } => if m == n then formatList a e (m :: rest) s1 else s1
      | _ => s1)

def execFormatUnmapEnd (n : Nat) (s : State) : Host.Outcome State Fault Refusal := .next (formatUnmapEnd n s)

/-! ### Limits and tenants (R101 to R106) -/

/-- NAMESPACE_LIMITS (R101, R102): every field is checked before anything changes. DESIGN CHOICE: a burst_ms of 0 is kept, and read back, as
the default of 10 that it selects. -/
def nsLimits (a : Adm) (n : Nat) (d : Bytes) (s : State) : State :=
  if d.length != 32 then admDone a .dataSglLengthInvalid 0 s
  else match managed s n with
  | none => admDone a .invalidNamespaceOrFormat 0 s
  | some _ =>
    let f := fun i k => ofLE ((d.drop i).take k)
    if 1000 < f 16 2 || (d.drop 18).any (· != 0) then admDone a .invalidField 0 s
    else
      let l : Limits := { rdIops := f 0 4, wrIops := f 4 4, rdMbps := f 8 4, wrMbps := f 12 4,
                          burstMs := if f 16 2 == 0 then 10 else f 16 2 }
      admDone a .success 0 (updNs n (fun x => { x with newLimits := some l }) s)

def execNamespaceLimits (a : Adm) (n : Nat) (d : Bytes) (s : State) : Host.Outcome State Fault Refusal :=
  .next (runAdmin .registry a (.namespaceLimits a n d) (nsLimits a n d) s)

/-- The host NQN of a record: up to the first zero byte, and only zero bytes after it. -/
def paddedNqn (d : Bytes) : Option Bytes :=
  let n := d.takeWhile (· != 0)
  if n.isEmpty || 223 < n.length || (d.drop n.length).any (· != 0) then none else some n

/-- The tenant that a 512-byte record describes, with every check of R103 and R104 on the record itself. -/
def parseTenant (d : Bytes) : Option Tenant :=
  let f := fun i k => ofLE ((d.drop i).take k)
  let ident := if f 2 1 == 0 then (paddedNqn (d.drop 256)).map CtrlIdent.nqn
    else if f 2 1 == 1 && f 3 1 ≤ 7 && f 4 2 ≤ 63 then some (CtrlIdent.function (f 3 1) (f 4 2)) else none
  ident.bind fun i =>
    if f 0 2 == 0 || 4095 < f 0 2 || f 6 2 == 0 || 256 < f 6 2 || 100000 < f 8 4 || 10000000 < f 12 4 ||
        ((d.drop 16).take 240).any (· != 0) then none
    else some { id := f 0 2, ident := i, share := f 6 2, budget := f 8 4, latency := f 12 4 }

/-- TENANT_SET (R101, R103, R104). DESIGN CHOICE: naming an identity that another tenant has is Invalid Field in Command; R103 forbids it and
names no status. -/
def tenantSet (a : Adm) (d : Bytes) (s : State) : State :=
  if d.length != 512 then admDone a .dataSglLengthInvalid 0 s
  else match parseTenant d with
  | none => admDone a .invalidField 0 s
  | some t => match s.reg.tenants.find? (fun x => x.id == t.id) with
    | some old =>
      if old.ident != t.ident then admDone a .invalidField 0 s
      else admDone a .success 0 { s with reg := { s.reg with
        tenants := s.reg.tenants.map fun x => if x.id == t.id then t else x } }
    | none =>
      if s.reg.tenants.any (fun x => x.ident == t.ident) then admDone a .invalidField 0 s
      else admDone a .success 0 { s with reg := { s.reg with tenants := s.reg.tenants ++ [t] } }

def execTenantSet (a : Adm) (d : Bytes) (s : State) : Host.Outcome State Fault Refusal :=
  .next (runAdmin .registry a (.tenantSet a d) (tenantSet a d) s)

/-- A tenant record as it is returned (R103). -/
def tenantFields (t : Tenant) : List Field :=
  [(0, 2, t.id), (6, 2, t.share), (8, 4, t.budget), (12, 4, t.latency)] ++
  match t.ident with
  | .nqn n => [(2, 1, 0), (256, 256, ofLE n)]
  | .function e f => [(2, 1, 1), (3, 1, e), (4, 2, f)]

/-- TENANT_GET (R101, R106). -/
def tenantGet (a : Adm) (id : Nat) (s : State) : State :=
  if !ringLenOk a 512 s then admDone a .dataSglLengthInvalid 0 s
  else match s.reg.tenants.find? (fun t => t.id == id) with
  | none => admDone a .invalidField 0 s
  | some t => admAnswer a (tenantFields t) s

def execTenantGet (a : Adm) (id : Nat) (s : State) : Host.Outcome State Fault Refusal :=
  .next (runAdmin .provider a (.tenantGet a id) (tenantGet a id) s)

/-- TENANT_DELETE (R106). -/
def tenantDelete (a : Adm) (id : Nat) (s : State) : State :=
  if !ringLenOk a 0 s then admDone a .dataSglLengthInvalid 0 s
  else match s.reg.tenants.find? (fun t => t.id == id) with
  | none => admDone a .invalidField 0 s
  | some _ =>
    if s.reg.nss.any fun n => n.owner == id then admDone a .commandSequenceError 0 s
    else
      let s1 := { s with reg := { s.reg with
       nss := s.reg.nss.map fun n =>
        { n with attached := n.attached.filter fun t => !(t == id) } } }
      let s2 := admDone a .success 0 s1
      let s3 := ((s2.host.ctrls.filter fun c => c.tenant == id).map (·.cntlid)).foldl (fun s i => endCtrl i s) s2
      { s3 with reg := { s3.reg with tenants := s3.reg.tenants.filter fun t => !(t.id == id) } }

def execTenantDelete (a : Adm) (id : Nat) (s : State) : Host.Outcome State Fault Refusal :=
  .next (runAdmin .registry a (.tenantDelete a id) (tenantDelete a id) s)

end Sys2Proof.Machine
end

