-- ==== Sys2Proof/Machine/BoardCmds.lean ====
section
/-!
DEFINITION. Sys2Proof/Machine/BoardCmds.lean: the doorbells and rings of the board port, command descriptors, board operations and the
sideband (R469 to R481, R488).
-/
namespace Sys2Proof.Machine
open Sys2Proof

/-! ### Doorbells (R471) -/

/-- A doorbell that is ignored as a bad one. -/
def badBell (k : Nat) (s : State) : State := reject 15 (0x1000000 + 4 * k) 12 (setG .bpt_status_bad_doorbell 1 s)

/-- A doorbell of ring `k` that moves an index from `at_` by at most `most`: its new value, or none for a bad one. -/
def bellOk (s : State) (k v at_ most : Nat) : Bool :=
  decide (v < ringSize s k) && decide ((v + ringSize s k - at_ % ringSize s k) % ringSize s k ≤ most)

/-- BPT_CMD_TAIL (R471): descriptors are published. -/
def cmdTail (v : Nat) (s : State) : State :=
  if !ringOn s 0 then s
  else if bellOk s 0 (v % 65536) (ringOf s 0).tail (ringRoom s 0) then putRing { ringOf s 0 with tail := v % 65536 } s
  else badBell 0 s

def execBptCmdTail (v : Nat) (s : State) : Host.Outcome State Fault Refusal := .next (cmdTail v s)

/-- A head doorbell of a device-written ring: entries are free again. -/
def ringHead (k v : Nat) (s : State) : State :=
  if !ringOn s k then s
  else if bellOk s k (v % 65536) (ringOf s k).head (ringUsed s k) then putRing { ringOf s k with head := v % 65536 } s
  else badBell k s

def execBptRspHead (v : Nat) (s : State) : Host.Outcome State Fault Refusal := .next (ringHead 1 v s)
/-- BPT_MTR_HEAD (R124, R479): delivery goes on. -/
def execBptMtrHead (v : Nat) (s : State) : Host.Outcome State Fault Refusal := .next (deliverMeter (ringHead 2 v s))
/-- BPT_EVT_HEAD (R480): delivery goes on. -/
def execBptEvtHead (v : Nat) (s : State) : Host.Outcome State Fault Refusal := .next (deliverEvents (ringHead 3 v s))

/-- RING_COALESCE_TIMER (R472): coalesce_us after the first entry that no interrupt has signalled. -/
def coalesceTimer (k : Nat) (s : State) : State :=
  let r := ringOf s k
  if 1 ≤ k && k ≤ 3 && ringOn s k && r.unsignalled != 0 then emit (.ringIrq (k - 1)) (putRing { r with unsignalled := 0 } s) else s

def execRingCoalesceTimer (k : Nat) (s : State) : Host.Outcome State Fault Refusal := .next (coalesceTimer k s)

/-! ### Rings started and stopped (R470, R481, R485) -/

/-- A write of BPT_RINGk_CFG. -/
def ringWrite (k v : Nat) (s : State) : State :=
  let was := s.fld pkgWin k .bpt_ring_cfg_ring_en == 1
  if bitOf v 31 && !was then
    let s1 := writeReg pkgWin k .bptRingCfg (setBit v 31 false) s
    let n := s1.fld pkgWin k .bpt_ring_cfg_log2_size
    if n < 4 || 16 < n then reject 15 (bar0 pkgWin k .bptRingCfg) 14 s1
    else deliverEvents (deliverMeter
      (putRing { k := k, head := 0, tail := 0, unsignalled := 0 } (setFld pkgWin k .bpt_ring_cfg_ring_en 1 s1)))
  else
    let s1 := writeReg pkgWin k .bptRingCfg v s
    if was && !bitOf v 31 && k == 1 then
      { s1 with board := { s1.board with running := s1.board.running.map fun d => { d with drop := true } } }
    else s1

/-- RING_ENABLE (R481): a ring starts with both indices 0, or stops. A ring whose size breaks R470 does not start. -/
def execRingEnable (k v : Nat) (s : State) : Host.Outcome State Fault Refusal :=
  .next (if k < 4 then pkgWrite (ringWrite k v) s else s)

/-- BOARD_PORT_RESET (R481, R494): every ring stops; a descriptor that runs completes, and its response is discarded. -/
def boardPortReset (s : State) : State :=
  if s.island.pkg != 2 then s
  else abandonRing ((List.range 4).foldl (fun s k => setFld pkgWin k .bpt_ring_cfg_ring_en 0 s) s)

def execBoardPortReset (s : State) : Host.Outcome State Fault Refusal := .next (boardPortReset s)

/-! ### Descriptors (R469, R473 to R476) -/

/-- A malformed descriptor (R473). -/
def malformed (d : Bytes) : Bool :=
  let f := descField d
  1 < f 0 1 || f 21 3 != 0 || (d.drop 48).any (· != 0) ||
  (if f 20 1 == 0 then f 16 4 != 0 else f 16 4 < 4 || f 16 4 % 4 != 0 || f 8 8 % 4 != 0)

/-- CDW10 to CDW15 of a descriptor. -/
def descCdw (d : Bytes) (n : Nat) : Nat := descField d (24 + 4 * (n - 10)) 4

/-- (NUMD + 1) × 4, with NUMD as the operation places it. -/
def numdBytes (numd : Nat) : Nat := (numd + 1) * 4

/-- The direction and length of the data that a kind 0 opcode moves; none for one that the ring does not accept (R101, R459, R474). -/
def nvmeMoves (d : Bytes) : Option (Nat × Nat) :=
  match descField d 1 1 with
  | 0x02 => some (2, numdBytes (bitsOf (descCdw d 10) 31 16 + 65536 * bitsOf (descCdw d 11) 15 0))
  | 0x06 => some (2, 4096)
  | 0x09 | 0x0A | 0x10 | 0x80 | 0x84 | 0xC4 | 0xCA => some (0, 0)
  | 0x0D => some (if bitsOf (descCdw d 10) 3 0 == 0 then (1, 4096) else (0, 0))
  | 0x11 => some (1, numdBytes (descCdw d 10))
  | 0x15 => some (1, 4096)
  | 0xC1 => some (1, 512)
  | 0xC2 => some (2, 512)
  | 0xC5 => some (1, 72)
  | 0xC9 => some (1, 32)
  | _ => none

/-- The direction and length of a board operation (R477). -/
def boardMoves : Nat → Option (Nat × Nat)
  | 0x01 => some (0, 0)
  | 0x02 => some (1, 512)
  | 0x03 => some (2, 512)
  | 0x04 => some (1, 64)
  | 0x05 => some (2, 64)
  | 0x06 => some (2, 4096)
  | _ => none

/-- Accepted in recovery mode (R469). -/
def recoveryAccepts (d : Bytes) : Bool :=
  if descField d 0 1 == 1 then descField d 1 1 == 0x06
  else match descField d 1 1 with
    | 0x11 => true
    | 0x10 => bitsOf (descCdw d 10) 5 3 != 0
    | 0x02 => bitsOf (descCdw d 10) 7 0 == 0x03
    | _ => false

/-- What the descriptor's operation moves; none for BAD_OPCODE. -/
def descMoves (s : State) (d : Bytes) : Option (Nat × Nat) :=
  if s.fw.recovery && !recoveryAccepts d then none
  else if descField d 0 1 == 1 then boardMoves (descField d 1 1) else nvmeMoves d

/-- Features other than 0xC3, and log pages that the ring does not return (R474): the NVMe status that they complete with. -/
def ringRefuses (d : Bytes) : Option Status :=
  if descField d 0 1 == 1 then none
  else match descField d 1 1 with
    | 0x09 | 0x0A => if bitsOf (descCdw d 10) 7 0 == 0xC3 then none else some .invalidField
    | 0x02 => if [0x02, 0x03, 0x09, 0xC2, 0xC3, 0xC4, 0xC5].contains (bitsOf (descCdw d 10) 7 0) then none else some .invalidLogPage
    | _ => none

/-- A board-memory access failed (R476, R493). -/
def dmaFailed (s : State) : State :=
  respond 4 0 0 0 0 (bump s.mgmt.primary .glb_dma_errors_board_mem (setG .bpt_status_dma_error 1 s))

/-- The checks of a descriptor that has been fetched, in order; one that passes runs. -/
def checkDesc (d : Bytes) (dmaOk : Bool) (s : State) : State :=
  if malformed d then respond 2 0 0 0 0 s
  else match descMoves s d with
    | none => respond 3 0 0 0 0 s
    | some m => match ringRefuses d with
      | some st => postResponse st 0 s
      | none =>
        if m != (descField d 20 1, descField d 16 4) then respond 1 0 0 0 0 s
        else if !dmaOk then dmaFailed s
        else s

/-- A descriptor can be fetched: one is published, none runs, a response entry is free, and no activation holds the ring (R476, R481). -/
def canFetchDesc (s : State) : Bool :=
  ringOn s 0 && ringOn s 1 && s.fw.running && !s.fw.activating && ringUsed s 0 != 0 && s.board.running.isNone && ringRoom s 1 != 0

/-- DESCRIPTOR_FETCH (R472 to R476). `dmaOk` is false when a board-memory access for it fails. -/
def descriptorFetch (d : Bytes) (dmaOk : Bool) (s : State) : State :=
  if !canFetchDesc s then s
  else
    let r := ringOf s 0
    let h := (r.head + 1) % ringSize s 0
    let s1 := emit (.writeBack 0 h) (putRing { r with head := h } s)
    checkDesc d dmaOk { s1 with board := { s1.board with running := some { bytes := d, index := r.head, drop := false }, busy := false } }

def execDescriptorFetch (d : Bytes) (dmaOk : Bool) (s : State) : Host.Outcome State Fault Refusal :=
  .next (descriptorFetch d dmaOk s)

/-! ### Board operations (R477, R478) -/

/-- The descriptor that runs is a board operation with this opcode that has not begun. -/
def ringRuns (s : State) (op : Nat) : Bool :=
  !s.board.busy && s.board.running.any fun d => descField d.bytes 0 1 == 1 && descField d.bytes 1 1 == op

/-- Runs a board operation that changes the registry: in the one order of the provider plane (R100), held during activation (R97), and
failed where it cannot become durable (R443). What it changes goes to the config store (R462). -/
def runRegistry (op : Nat) (i : Instr) (body : State → State) (s : State) : State :=
  if !ringRuns s op then passTurn .ring s
  else if s.fw.activating || planeBusy s .ring then holdAdmin .ring i s
  else passTurn .ring (if s.fw.flash.failed then boardFail 11 s else syncStores (body s))

/-- Returns data and ends a board operation. -/
def boardAnswer (d : List Field) (s : State) : State := boardDone 0 0 (emit (.ringData d) s)

/-- CONFIG_COMMIT (R477, R482). -/
def configCommit (s : State) : State :=
  if !ringRuns s 1 then s
  else if s.board.commit.state != 0 then boardFail 6 (commitBusy s)
  else startCommit true { s with board := { s.board with busy := true } }

def execConfigCommit (s : State) : Host.Outcome State Fault Refusal := .next (configCommit s)

/-- A tile that the part has. -/
def partHas (s : State) (t : Nat) : Bool := decide (t < s.ident.part.tiles)

/-- The designation that a provider record makes, with the checks of R477; none for RANGE. -/
def parseProvider (s : State) (d : Bytes) : Option Provider :=
  let f := descField d
  if 2 < f 0 1 || ((d.drop 3).take 253).any (· != 0) then none
  else if f 0 1 == 0 then some .none
  else if f 0 1 == 1 then
    if (bitsSet 8 (f 1 1)).all (partHas s) then (paddedNqn ((d.drop 256).take 256)).map (fun n => .nqn n (f 1 1)) else none
  else if partHas s (f 2 1) then some (.function (f 2 1)) else none

/-- Rights that the designation no longer gives are lost at once (R58). -/
def dropRights (s : State) : State :=
  let keep := fun (c : Ctrl) => if c.provider && !designated s c.ident c.tile then { c with provider := false } else c
  { s with host := { s.host with ctrls := s.host.ctrls.map keep } }

/-- PROVIDER_SET (R58, R477). -/
def providerSet (d : Bytes) (s : State) : State :=
  match parseProvider s d with
  | none => boardFail 2 s
  | some p => boardDone 0 0 (dropRights { s with reg := { s.reg with provider := p } })

def execProviderSet (d : Bytes) (s : State) : Host.Outcome State Fault Refusal :=
  .next (runRegistry 2 (.providerSet d) (providerSet d) s)

/-- The provider record (R477). -/
def providerFields : Provider → List Field
  | .none => [(0, 1, 0)]
  | .nqn n tiles => [(0, 1, 1), (1, 1, tiles), (256, 256, ofLE n)]
  | .function e => [(0, 1, 2), (2, 1, e)]

/-- PROVIDER_GET (R477). -/
def execProviderGet (s : State) : Host.Outcome State Fault Refusal :=
  .next (if ringRuns s 3 then boardAnswer (providerFields s.reg.provider) s else s)

/-- An IP interface record (R478). Its reserved bits and bytes are ignored (R14). -/
def parseNetIf (d : Bytes) : NetIf :=
  let f := descField d
  { tile := f 0 1, port := f 1 1, index := f 2 1, flags := f 3 1 % 64, vlan := f 4 2, mtu := f 6 2, v4 := (d.drop 8).take 4
    v4Len := f 12 1, v6Len := f 13 1, v6 := (d.drop 16).take 16, gw4 := (d.drop 32).take 4, gw6 := (d.drop 36).take 16
    ioPort := f 52 2, discPort := f 54 2, pfc := f 56 1, dscp := f 57 1 }

/-- Every field is in its range; a record that deletes is read for its tile, port and interface alone. -/
def netIfOk (s : State) (n : NetIf) : Bool :=
  partHas s n.tile && decide (n.port ≤ 3) && decide (n.index ≤ 15) &&
  (!bitOf n.flags 0 ||
    (decide (n.vlan ≤ 4094) && decide (1500 ≤ n.mtu) && decide (n.mtu ≤ 9000) &&
     (!bitOf n.flags 1 || (decide (1 ≤ n.v4Len) && decide (n.v4Len ≤ 32))) &&
     (!bitOf n.flags 2 || (decide (1 ≤ n.v6Len) && decide (n.v6Len ≤ 128))) &&
     decide (n.pfc ≤ 7) && decide (n.dscp ≤ 63)))

def NetIf.samePlace (a b : NetIf) : Bool := a.tile == b.tile && a.port == b.port && a.index == b.index

/-- Two interfaces of one port share an address or the VLAN. -/
def NetIf.clashes (a b : NetIf) : Bool :=
  a.vlan == b.vlan || (bitOf a.flags 1 && bitOf b.flags 1 && a.v4 == b.v4) || (bitOf a.flags 2 && bitOf b.flags 2 && a.v6 == b.v6)

/-- The addresses, the VLAN or the ports of an interface change. -/
def NetIf.moved (a b : NetIf) : Bool :=
  a.vlan != b.vlan || a.io != b.io || a.disc != b.disc || bitOf a.flags 1 != bitOf b.flags 1 || bitOf a.flags 2 != bitOf b.flags 2 ||
  (bitOf a.flags 1 && a.v4 != b.v4) || (bitOf a.flags 2 && a.v6 != b.v6)

/-- Every controller with a connection through an interface ends, and the connections that no controller has. -/
def endThrough (n : NetIf) (s : State) : State :=
  let mine := fun (k : Conn) => k.tile == n.tile && k.port == n.port && k.iface == n.index
  let ids := ((s.host.conns.filter fun k => mine k && k.bound && !k.discovery).map (·.cntlid)).eraseDups
  let s1 := ids.foldl (fun s id => endCtrl id s) s
  (s1.host.conns.filter mine).foldl (fun s k => dropConn k.id (emit (.connClosed k.id) s)) s1

/-- NETIF_SET (R478). -/
def netifSet (d : Bytes) (s : State) : State :=
  let n := parseNetIf d
  let rest := s.reg.netifs.filter fun x => !x.samePlace n
  let old := s.reg.netifs.find? fun x => x.samePlace n
  let valid := bitOf n.flags 0
  if !netIfOk s n then boardFail 2 s
  else if valid && rest.any (fun x => x.tile == n.tile && x.port == n.port && x.clashes n) then boardFail 4 s
  else
    let s1 := { s with reg := { s.reg with netifs := rest ++ (if valid then [n] else []) } }
    boardDone 0 0 (if old.any (fun x => !valid || x.moved n) then endThrough n s1 else s1)

def execNetifSet (d : Bytes) (s : State) : Host.Outcome State Fault Refusal :=
  .next (runRegistry 4 (.netifSet d) (netifSet d) s)

/-- An interface as its record (R478). -/
def NetIf.fields (n : NetIf) : List Field :=
  [(0, 1, n.tile), (1, 1, n.port), (2, 1, n.index), (3, 1, n.flags), (4, 2, n.vlan), (6, 2, n.mtu), (8, 4, ofLE n.v4),
   (12, 1, n.v4Len), (13, 1, n.v6Len), (16, 16, ofLE n.v6), (32, 4, ofLE n.gw4), (36, 16, ofLE n.gw6), (52, 2, n.ioPort),
   (54, 2, n.discPort), (56, 1, n.pfc), (57, 1, n.dscp)]

/-- NETIF_GET (R477): an interface that does not exist has valid 0. -/
def netifGet (cdw10 : Nat) (s : State) : State :=
  let t := bitsOf cdw10 2 0
  let p := bitsOf cdw10 9 8
  let i := bitsOf cdw10 19 16
  boardAnswer (((findIf s t p i).map NetIf.fields).getD [(0, 1, t), (1, 1, p), (2, 1, i), (3, 1, 0)]) s

def execNetifGet (cdw10 : Nat) (s : State) : Host.Outcome State Fault Refusal :=
  .next (if ringRuns s 5 then netifGet cdw10 s else s)

/-- The identity row (R444). -/
def identityFields (u : Ident) : List Field :=
  [(0, 16, ofLE u.serial), (16, 1, u.part.hwType), (17, 1, 0xA2), (18, 1, u.tileMap), (20, 4, u.floorMfg), (24, 8, ofLE u.kcv)] ++
  (u.keyHashes.zipIdx.map fun k => (64 + 48 * k.2, 48, ofLE k.1))

/-- IDENTITY_GET (R444, R477). -/
def execIdentityGet (s : State) : Host.Outcome State Fault Refusal :=
  .next (if ringRuns s 6 then boardAnswer (identityFields s.ident) s else s)

/-! ### The sideband (R488) -/

def sidebandOn (s : State) : Bool := s.island.pkg != 0 && s.gfld .glb_sideband_sb_enable == 1

/-- MI_COMMAND_HEALTH: code 0. -/
def execMiCommandHealth (s : State) : Host.Outcome State Fault Refusal :=
  .next (if sidebandOn s then
    emit (.miHealth (s.island.pkg != 2 || !s.plp.started) (composite s) s.health.crit (((s.reg.egs.map (percentUsed s)).max?).getD 0)) s
  else s)

/-- MI_COMMAND_STATIC: code 8. -/
def execMiCommandStatic (s : State) : Host.Outcome State Fault Refusal :=
  .next (if sidebandOn s then emit (.miStatic (Config.identifyOpen 1 0 % 65536) s.ident.serial) s else s)

end Sys2Proof.Machine
end

