-- ==== Sys2Proof/Machine/DramCode.lean ====
section
/-!
DEFINITION. Sys2Proof/Machine/DramCode.lean: the check symbols of a DRAM burst and its decoder (R373, R374).
-/
namespace Sys2Proof.Machine
open Sys2Proof

/-! ### GF(2^16) -/

/-- A field element times x: shifted, and reduced by the polynomial. -/
def fieldX (a : Nat) : Nat := if 2 ^ 15 ≤ a % 2 ^ 16 then (2 * a % 2 ^ 16) ^^^ (Config.dramField % 2 ^ 16) else 2 * a % 2 ^ 16

/-- The product of two field elements: the multiples of `a` that the bits of `b` name. -/
def fieldMul (a b : Nat) : Nat :=
  ((List.range 16).foldl (fun (x : Nat × Nat) i => (if bitOf b i then x.1 ^^^ x.2 else x.1, fieldX x.2)) (0, a)).1

def fieldPow (a : Nat) : Nat → Nat
  | 0 => 1
  | n + 1 => fieldMul (fieldPow a n) a

/-- The inverse of a field element: its power 2^16 - 2, by squaring. -/
def fieldInv (a : Nat) : Nat :=
  ((List.range 15).foldl (fun (x : Nat × Nat) _ => let sq := fieldMul x.2 x.2
    (fieldMul x.1 sq, sq)) (1, a)).1

def fieldSum (l : List Nat) : Nat := l.foldl (· ^^^ ·) 0

/-- The product of polynomials (X - p) over places p, lowest power first. -/
def locator : List Nat → List Nat
  | [] => [1]
  | p :: ps =>
    let q := locator ps
    (q.map (fieldMul p) ++ [0]).zipWith (· ^^^ ·) (0 :: q)

/-! ### A burst (R370, R373) -/

/-- The symbol of one nibble over one quarter of a burst: four beats of four pins. DESIGN CHOICE: the bits of a symbol run pin by pin,
beat after beat. -/
def symbolAt (beats : List Nat) (nibble quarter : Nat) : Nat :=
  ((List.range 4).map fun b => bitsOf ((beats[4 * quarter + b]?).getD 0) (4 * nibble + 3) (4 * nibble) * 16 ^ b).sum

/-- The 40 stored symbols of a burst: nibbles 0 to 7 carry data, 8 and 9 the check symbols. -/
def symbolsOf (beats : List Nat) : List Nat := (List.range 40).map fun i => symbolAt beats (i / 4) (i % 4)

/-- The beats that stored symbols are sent as. -/
def beatsOf (syms : List Nat) : List Nat :=
  (List.range 16).map fun k => ((List.range 10).map fun n =>
    bitsOf ((syms[4 * n + k / 4]?).getD 0) (4 * (k % 4) + 3) (4 * (k % 4)) * 16 ^ n).sum

/-- The 64 bytes of data in stored symbols: beat after beat, four bytes of each. -/
def dataOf (syms : List Nat) : Bytes := (beatsOf syms).flatMap fun b => toLE 4 b

/-- The three symbols of an access's address, which are never stored (R373). DESIGN CHOICE: how its 36 bits fill them. -/
def addressSymbols (a : DramAcc) : List Nat :=
  let v := a.column % 2 ^ 11 + 2 ^ 11 * (a.row % 2 ^ 18 + 2 ^ 18 * (a.bank % 4 + 4 * (a.group % 8 + 8 * (a.rank % 2))))
  [v % 2 ^ 16, v / 2 ^ 16 % 2 ^ 16, v / 2 ^ 32 % 2 ^ 16]

/-- The place of a symbol in the code, an element of the field (R373). -/
def symbolPlace (i : Nat) : Nat := Config.dramPlace i % 2 ^ 16

/-- The eight syndromes of stored symbols read at an address. -/
def syndromes (syms : List Nat) (a : DramAcc) : List Nat :=
  (List.range 8).map fun j => fieldSum ((syms ++ addressSymbols a).zipIdx.map fun x =>
    fieldMul (fieldPow (symbolPlace x.2) j) x.1)

/-- Whether errors at these symbols explain the syndromes: the locator of their places annuls every run of them. -/
def explains (syn : List Nat) (ps : List Nat) : Bool :=
  let l := locator (ps.map symbolPlace)
  (List.range (8 - ps.length)).all fun k =>
    fieldSum (l.zipIdx.map fun x => fieldMul x.1 ((syn[k + x.2]?).getD 0)) == 0

/-- The error value at one of the symbols that explain the syndromes. -/
def errorAt (syn : List Nat) (ps : List Nat) (i : Nat) : Nat :=
  let others := (ps.filter (· != i)).map symbolPlace
  let l := locator others
  fieldMul (fieldSum (l.zipIdx.map fun x => fieldMul x.1 ((syn[x.2]?).getD 0)))
    (fieldInv (others.foldl (fun d p => fieldMul d (symbolPlace i ^^^ p)) 1))

/-- The subsets of a list with `n` members. -/
def choose {α : Type} : Nat → List α → List (List α)
  | 0, _ => [[]]
  | _ + 1, [] => []
  | n + 1, x :: xs => (choose n xs).map (x :: ·) ++ choose (n + 1) xs

/-- The fewest symbols, up to four, whose errors explain the syndromes. -/
def errorPlaces (syn : List Nat) : Option (List Nat) :=
  (List.range 5).findSome? fun n => (choose n (List.range 43)).find? (explains syn)

/-- Stored symbols with errors at the given places taken out. -/
def corrected (syn ps syms : List Nat) : List Nat :=
  syms.zipIdx.map fun x => if ps.contains x.2 then x.1 ^^^ errorAt syn ps x.2 else x.1

/-- The stored symbols of 64 bytes written at an address: the check symbols are those with which every syndrome is 0 (R373). -/
def burstFor (a : DramAcc) (d : List Nat) : List Nat :=
  let zeros := d.take 32 ++ List.replicate 8 0
  corrected (syndromes zeros a) ((List.range 8).map (· + 32)) zeros

/-- The outcomes of R374: no error; up to four stored symbols in error, corrected; a syndrome that points at an address symbol; one
that four symbols do not explain. -/
inductive DramDecode
  | clean
  | corrected (ps : List Nat)
  | addrFault (ps : List Nat)
  | dataUe
deriving DecidableEq, Repr

def decodeDram (syn : List Nat) : DramDecode :=
  match errorPlaces syn with
  | none => .dataUe
  | some [] => .clean
  | some ps => if ps.any (40 ≤ ·) then .addrFault ps else .corrected ps

/-- Syndromes as the capture registers hold them (R388). -/
def syndromeWord (syn : List Nat) : Nat := (syn.zipIdx.map fun x => x.1 % 2 ^ 16 * 2 ^ (16 * x.2)).sum

end Sys2Proof.Machine
end

