-- ==== Sys2Proof/Machine/DramCmds.lean ====
section
/-!
DEFINITION. Sys2Proof/Machine/DramCmds.lean: the DRAM channel of each tile: start, decode outcomes, page policy, refresh,
temperature, training, freeze and restart (R370 to R388).
-/
namespace Sys2Proof.Machine
open Sys2Proof

def findDram (s : State) (t : Nat) : Option Dram := s.drams.find? fun d => d.tile == t
def updDram (t : Nat) (f : Dram → Dram) (s : State) : State :=
  { s with drams := s.drams.map fun d => if d.tile == t then f d else d }

/-- A rank of a channel that starts. -/
def newRank (r : Nat) : DramRank := { rank := r, debt := 0, down := false, selfRef := false, rdMargin := 0, wrMargin := 0, trainMs := 0 }

/-- A channel that begins step 1 (R372). -/
def newDram (s : State) (t : Nat) : Dram :=
  { tile := t, step := 1, ready := false, rate := s.tfld t .drc_cfg_rate_max, frozen := false, restarting := false,
    capRead := false, cap := none, hot := false, coolPolls := 0, overtemp := false,
    ranks := (List.range (s.tfld t .drc_cfg_ranks + 1)).map newRank, banks := [], ces := [] }

/-- The description of R371. -/
def drcDescription (s : State) (t : Nat) : List Nat :=
  [s.tfld t .drc_cfg_rate_max, s.tfld t .drc_cfg_density, s.tfld t .drc_cfg_dev_width, s.tfld t .drc_cfg_ranks]
def drcDiffers (s : State) (t : Nat) : Bool := drcDescription s t != drcDescription s 0

/-- The channel starts: what one that ran before held is lost, since step 4 writes the whole channel (R372). -/
def dramStart (t : Nat) (s : State) : State :=
  let s1 := if s.drams.any fun d => d.tile == t && d.ready then serveMap (dramLost t s) else s
  { s1 with drams := (s1.drams.filter fun d => d.tile != t) ++ [newDram s1 t] }

/-- DRC_ENABLE (R371, R372): a write of DRC_CFG. A tile whose description differs from tile 0's sets cfg_mismatch. -/
def drcEnable (t v : Nat) (s : State) : State :=
  writeEnable t .drcCfg .drc_cfg_drc_enable v
    (fun s => if s.tfld t .drc_cfg_density == 3 then some 3 else if drcDiffers s t then some 9 else none)
    (fun s => if drcDiffers s t then setT t .drc_status_cfg_mismatch 1 s else s) (dramStart t) s

def execDrcEnable (t v : Nat) (s : State) : Host.Outcome State Fault Refusal := .next (tileWrite t (drcEnable t v) s)

/-! ### Freeze (R384, R385) -/

def blankAcc : DramAcc := { subch := 0, rank := 0, group := 0, bank := 0, row := 0, column := 0, cls := 0 }

/-- The requests in flight on a channel that freezes end as failed; the blocks that made them retry them (R384). -/
def failRequests (t : Nat) (s : State) : State :=
  (reqsAt s t .dram).foldl (fun s r => match r.work with
    | .dram a _ => emit (.dramFailed t a) (dropReq r s)
    | _ => dropReq r s) s

/-- A channel freezes at its first uncorrectable error, with captures; later errors count in further. -/
def freezeDram (t cause : Nat) (acc : DramAcc) (bad synd : Nat) (s : State) : State :=
  match findDram s t with
  | none => s
  | some d =>
    if d.frozen && !d.restarting then
      updDram t (fun d => { d with cap := d.cap.map fun c => { c with further := sat 0xFF (c.further + 1) } }) s
    else
      let c : Capture := { cause := cause, acc := acc, further := 0, bad := bad, minutes := s.island.minutes, synd := synd }
      let s1 := bump t .drc_errors_freezes (updDram t (fun d => { d with
        frozen := true, ready := false, restarting := false, capRead := false, cap := some c, step := 0 }) (failRequests t s))
      let s2 := countLife 6 (logEv .dramFreeze t [cause] s1)
      if d.restarting then logEv .dramRestartFail t [cause] s2
      else if d.ready then serveMap (dramLost t s2) else s2

/-- DRAM_START_STEP (R372, R386): a start step ends. Training that fails is repeated at the next lower rate, and freezes the
channel at 4,800 MT/s; DRAM_RATE_LOW names the rate at which it succeeds. At step 5 the channel is ready; after a restart its slot is handed back. -/
def dramStartStep (t : Nat) (ok : Bool) (s : State) : State :=
  match findDram s t with
  | none => s
  | some d =>
    if d.step == 0 || 5 ≤ d.step then s
    else if !ok then
      if d.step == 3 && 0 < d.rate then updDram t (fun d => { d with rate := d.rate - 1 }) s
      else freezeDram t 4 blankAcc 0 0 s
    else if d.step < 4 then
      let s1 := updDram t (fun d => { d with step := d.step + 1 }) s
      if d.step == 3 && d.rate < s.tfld t .drc_cfg_rate_max then logEv .dramRateLow t [d.rate] s1 else s1
    else
      let s1 := updDram t (fun d => { d with
        step := 5, ready := true, frozen := false, restarting := false, capRead := false, cap := none }) s
      if d.restarting then
        logEv .dramRestart t [] { s1 with map := { s1.map with handBack := (t :: s1.map.handBack).eraseDups } }
      else s1

def execDramStartStep (t : Nat) (ok : Bool) (s : State) : Host.Outcome State Fault Refusal := .next (dramStartStep t ok s)

/-! ### Accesses (R374, R377) -/

def sameBank (a : DramAcc) (b : Bank) : Bool :=
  b.subch == a.subch && b.rank == a.rank && b.group == a.group && b.bank == a.bank

/-- Ones in a 4-bit history. -/
def ones4 (h : Nat) : Nat := ((List.range 4).filter fun i => bitOf h i).length

/-- The page policy of R377 after an access, and the exit from power-down (R378). -/
def bankAccess (t : Nat) (a : DramAcc) (s : State) : State :=
  match findDram s t with
  | none => s
  | some d =>
    let b := (d.banks.find? (sameBank a)).getD
      { subch := a.subch, rank := a.rank, group := a.group, bank := a.bank, open_ := none, last := none, hist := 10 }
    let hit := b.last == some a.row
    let h := (b.hist * 2 + b2n hit) % 16
    let keep := decide (s.tfld t .drc_policy_hit_thresh ≤ ones4 h)
    let b1 := { b with hist := h, last := some a.row, open_ := if keep then some a.row else none }
    updDram t (fun d => { d with
      banks := (d.banks.filter fun x => !sameBank a x) ++ [b1]
      ranks := d.ranks.map fun r => if r.rank == a.rank then { r with down := false } else r }) s

/-- A location as DRC_CAP_ADDR gives it (R388). -/
def capAddr (a : DramAcc) : Nat := a.group % 8 * 2 ^ 29 + a.bank % 4 * 2 ^ 27 + a.row % 2 ^ 18

/-- A location, without the class. -/
def sameBurst (a b : DramAcc) : Bool :=
  a.subch == b.subch && a.rank == b.rank && a.group == b.group && a.bank == b.bank && a.row == b.row && a.column == b.column

/-- A burst is read and decoded (R373 to R375): data that is delivered; a corrected burst is written back and counted, and a location
corrected twice within 24 hours logs DRAM_CE_REPEAT; anything uncorrectable freezes the channel, and the read fails with it. -/
def decodeBurst (t : Nat) (a : DramAcc) (beats : List Nat) (s : State) : State :=
  match findDram s t with
  | none => s
  | some d =>
    if !d.ready || d.frozen then s
    else
      let s1 := bankAccess t a s
      let syms := symbolsOf beats
      let syn := syndromes syms a
      match decodeDram syn with
      | .clean => emit (.dramData t a (dataOf syms)) s1
      | .corrected ps =>
        let recent := d.ces.filter fun c => s.island.minutes < c.2 + 1440
        let again := recent.any fun c => sameBurst c.1 a
        let good := corrected syn ps syms
        let s2 := countLife 5 <| bump t .drc_ce_ce_count (updDram t (fun d => { d with ces := recent ++ [(a, s.island.minutes)] })
          (emit (.dramWrite t a (beatsOf good)) (emit (.dramData t a (dataOf good)) s1)))
        if again then logEv .dramCeRepeat t [capAddr a, a.column] s2 else s2
      | .addrFault ps =>
        emit (.dramFailed t a) (freezeDram t 2 a (ps.filter (· < 40)).length (syndromeWord syn) s1)
      | .dataUe => emit (.dramFailed t a) (freezeDram t 1 a (Config.dramBad syn % 41) (syndromeWord syn) s1)

/-- The controller serves the requests that wait, in class order, each one burst (R87, R376). -/
def serveDram (t : Nat) : Nat → State → State
  | 0, s => s
  | n + 1, s =>
    match takeReq t .dram (fun _ => true) s with
    | none => s
    | some (r, s1) => match r.work with
      | .dram a beats => serveDram t n (decodeBurst t a beats s1)
      | _ => serveDram t n s1

/-- A read reaches a channel: it waits while another burst or a refresh is in hand (R376). On a channel that is frozen it fails at once
(R384). -/
def dramRequest (t : Nat) (a : DramAcc) (beats : List Nat) (free : Bool) (s : State) : State :=
  match findDram s t with
  | none => s
  | some d =>
    if d.frozen then emit (.dramFailed t a) s
    else if !d.ready then s
    else
      let s1 := submit t .dram (PClass.ofCode a.cls) (.dram a beats) s
      if free then serveDram t (reqsAt s1 t .dram).length s1 else s1

/-- DRAM_READ (R373, R374, R376). -/
def execDramRead (t : Nat) (a : Submitted DramAcc) (beats : List Nat) (s : State) : Host.Outcome State Fault Refusal :=
  .next (dramRequest t a.job beats a.free s)

/-- SCRUB (R375): the scrubber reads the next burst in class M, in a slot with no other request. -/
def execScrub (t : Nat) (a : DramAcc) (beats : List Nat) (s : State) : Host.Outcome State Fault Refusal :=
  .next (if s.tfld t .drc_cfg_scrub_en == 1 && (reqsAt s t .dram).isEmpty then decodeBurst t { a with cls := 10 } beats s else s)

/-- DRAM_ALERT (R375): a write CRC error is retried once; a second one on the same write, or one that matches no write in
flight, freezes the channel. -/
def dramAlert (t : Nat) (a : DramAcc) (matched again : Bool) (s : State) : State :=
  match findDram s t with
  | none => s
  | some d =>
    if !d.ready || d.frozen then s
    else
      let s1 := bump t .drc_errors_alerts s
      if matched && !again then s1 else freezeDram t 3 a 0 0 s1

def execDramAlert (t : Nat) (a : DramAcc) (matched again : Bool) (s : State) : Host.Outcome State Fault Refusal :=
  .next (dramAlert t a matched again s)

/-! ### Refresh, temperature and power-down (R377 to R382) -/

/-- The rank's rows close before a refresh (R377). -/
def closeRank (r : Nat) (d : Dram) : Dram := { d with banks := d.banks.map fun b => if b.rank == r then { b with open_ := none } else b }
def updRank (r : Nat) (f : DramRank → DramRank) (d : Dram) : Dram :=
  { d with ranks := d.ranks.map fun x => if x.rank == r then f x else x }

/-- Requests wait on a rank. -/
def rankWaits (s : State) (t r : Nat) : Bool :=
  (reqsAt s t .dram).any fun q => match q.work with
    | .dram a _ => a.rank == r
    | _ => false

/-- REFRESH_DUE (R376, R378, R379): with requests waiting on the rank it is postponed within postpone_max; otherwise it is issued,
before every request, and an idle rank, one with no burst in hand either, pays its debt. The other rank is not touched. -/
def refreshDue (t r : Nat) (inHand : Bool) (s : State) : State :=
  match (findDram s t).bind fun d => d.ranks.find? fun x => x.rank == r with
  | none => s
  | some x =>
    if x.selfRef then s
    else if rankWaits s t r && x.debt < s.tfld t .drc_refresh_postpone_max then
      updDram t (updRank r fun x => { x with debt := x.debt + 1 }) s
    else updDram t (fun d =>
      closeRank r (updRank r (fun x => { x with debt := if rankWaits s t r || inHand then x.debt else 0, down := false }) d)) s

def execRefreshDue (t r : Nat) (inHand : Bool) (s : State) : Host.Outcome State Fault Refusal :=
  .next (refreshDue t r inHand s)

/-- TEMP_POLL (R380 to R382): the channel becomes hot when any device needs the doubled rate, each rank's debt being
doubled and paid as one burst; it becomes normal after two polls without, debts being halved and rounded up. -/
def tempPoll (t : Nat) (rs : List DramTemp) (s : State) : State :=
  match findDram s t with
  | none => s
  | some d =>
    let hot := rs.any fun r => r != .normal
    let beyond := rs.any fun r => r == .beyond
    let s1 := if hot && !d.hot then
        updDram t (fun d => { d with
          hot := true, coolPolls := 0
          ranks := d.ranks.map fun r => { r with debt := 0, down := false }
          banks := d.banks.map fun b => { b with open_ := none } }) s
      else if hot then updDram t (fun d => { d with coolPolls := 0 }) s
      else if d.hot && 1 ≤ d.coolPolls then
        updDram t (fun d => { d with hot := false, coolPolls := 0, ranks := d.ranks.map fun r => { r with debt := (r.debt + 1) / 2 } }) s
      else updDram t (fun d => { d with coolPolls := if d.hot then d.coolPolls + 1 else 0 }) s
    let s2 := updDram t (fun d => { d with overtemp := beyond }) s1
    if beyond && !d.overtemp then logEv .dramOvertemp t [] s2 else s2

def execTempPoll (t : Nat) (rs : List DramTemp) (s : State) : Host.Outcome State Fault Refusal := .next (tempPoll t rs s)

/-- ROW_IDLE_CLOSE (R377): an open row idle for page_idle_ns is closed. -/
def execRowIdleClose (t sc r g b : Nat) (s : State) : Host.Outcome State Fault Refusal :=
  .next (updDram t (fun d => { d with
   banks := d.banks.map fun x =>
    if sameBank { blankAcc with subch := sc, rank := r, group := g, bank := b } x then { x with open_ := none } else x }) s)

/-- RANK_POWER_DOWN (R378): a rank with no request for pd_timer_ns enters power-down; 0 disables it. -/
def execRankPowerDown (t r : Nat) (s : State) : Host.Outcome State Fault Refusal :=
  .next (if s.tfld t .drc_policy_pd_timer_ns == 0 || rankWaits s t r then s
    else updDram t (updRank r fun x => if x.selfRef then x else { x with down := true }) s)

/-! ### Retraining and restart (R383, R386) -/

/-- RETRAIN_STEP (R383): a write-tracking step of a rank, and the margins now found. It is taken with no request waiting on the rank,
or, when no such slot has come for 1 s, within the next refresh. -/
def execRetrainStep (t r wr rd : Nat) (s : State) : Host.Outcome State Fault Refusal :=
  .next (updDram t (fun d => if d.ready then updRank r (fun x =>
    if rankWaits s t r && s.nowMs < x.trainMs + 1000 then x
    else { x with wrMargin := wr % 256, rdMargin := rd % 256, trainMs := s.nowMs }) d else d) s)

/-- DRAM_MARGIN_LOW (R383): the smallest margin of a rank has stayed below margin_min for 100 ms. -/
def dramMarginLow (t r : Nat) (s : State) : State :=
  match findDram s t with
  | none => s
  | some d => match d.ranks.find? fun x => x.rank == r with
    | none => s
    | some x =>
      let m := min x.wrMargin x.rdMargin
      if d.ready && m < s.tfld t .drc_train_margin_min then logEv .dramMargin t [r, m] s else s

def execDramMarginLow (t r : Nat) (s : State) : Host.Outcome State Fault Refusal := .next (dramMarginLow t r s)

/-- DRC_RESTART (R386, R387): a write of DRC_CTRL. It is ignored during a restart; while cap_read is 0 it is ignored and logs
CFG_REJECT. -/
def drcRestart (t v : Nat) (s : State) : State :=
  match findDram s t with
  | none => s
  | some d =>
    if !bitOf v 0 || d.restarting then s
    else if !d.capRead || !d.frozen then reject t (bar0 t 0 .drcCtrl) 11 s
    else updDram t (fun d => { d with restarting := true, step := 1, rate := s.tfld t .drc_cfg_rate_max }) s

def execDrcRestart (t v : Nat) (s : State) : Host.Outcome State Fault Refusal := .next (tileWrite t (drcRestart t v) s)

end Sys2Proof.Machine
end

