-- ==== Sys2Proof/Machine/StartOps.lean ====
section
/-!
DEFINITION. Sys2Proof/Machine/StartOps.lean: what a start resets and what it keeps: entry to RUN (R12, R401, R484, R514) and
the state that returns from flash (R118, R125, R164).
-/
namespace Sys2Proof.Machine
open Sys2Proof

/-- The code flash and its firmware at a start: the slots, the config stores and what the staging log says are kept (R439, R453). -/
def FwState.atStart (f : FwState) : FwState :=
  { f.fromLog with
    checking := false, writing := none, run := none, running := false, fallback := false, recovery := false
    bootState := 0, bootReason := 15, activating := false, actStep := 0, instStep := 0, instDone := 0, dual := false
    flash := { CodeFlash.initial with failed := f.flash.failed, erases := f.flash.erases } }

/-- A tile at a start: level 0, awake (R392, R402). -/
def ThermTile.atStart (now : Nat) (x : ThermTile) : ThermTile :=
  { x with level := 0, trig := .none, changedMs := now, sleep := 0, critPending := false }

/-- The registers at a start. TILE_SAFE groups are the default of the AQK-8064 alone (R2, R107). The island keeps GLB_SIDEBAND (R488). -/
def startRegs (s : State) : RegFile :=
  let kept := s.regs.live.filter fun v => v.fld.info.reg == .glbSideband
  let safe := if s.ident.part == .aqk8064 then []
    else (presentTiles s).map fun t => { win := t, idx := 0, fld := .red_cfg_tile_safe_groups, val := 0 }
  { RegFile.reset with live := kept ++ safe }

/-- Registers start at their reset values; what the register map calls persisted is kept in the structures that hold it
(R12, R484). Engines, pools, contexts and sequences start empty. Tiles that the identity row leaves out are lost before the start
(R444). -/
def resetTiles (s : State) : State :=
  let s1 := stopTiles s
  leftOut { s1 with
    regs := startRegs s
    mem := []
    mesh := Mesh.initial s.ident.part
    host := { s1.host with ports := Port.initial s.ident.part }
    pools := [], cmpSlots := [], eng := Engines.initial, drams := []
    cry := { s1.cry with slots := [], ctxs := [], vfys := [], reload := true }
    media := { s1.media with chans := [], levels := s1.media.saved, patrolNow := [] }
    rcl := { s1.rcl with castling := [] }
    red := { s1.red with fpRows := [], noCompare := [], verify := [], stalled := [], dataLost := false }
    map := { s1.map with
      handBack := (s1.map.handBack ++ s1.map.away).eraseDups, replaying := [], forwards := [], waiting := [], hands := [], dirFixed := [] }
    therm := { s1.therm with tiles := s1.therm.tiles.map (ThermTile.atStart s.nowMs) }
    power := { s1.power with
      deep := 0, rails := s1.power.rails.map fun x => { x with fault := false, vset := 0 } }
    evr := { s1.evr with win := EvWin.initial, drops := List.replicate 8 0, archiving := none }
    board := Board.initial
    mgmt := { primary := 0, standby := 1, beats := [], restarts := [] }
    fw := FwState.atStart s1.fw }

/-- The chess clock at a start (R118, R119, R125): board time goes on from the last value persisted and counts as unset; the records of
the interrupted epoch, as its last checkpoint has them, are held for delivery first, and the held epochs follow; the next epoch
begins. -/
def clockRestart (s : State) : State :=
  let c := s.clock.checkpoint
  let waiting := (if s.clock.placing.isEmpty then [] else [s.clock.placing]) ++ s.clock.held
  let epochS := s.gfld .glb_clock_cfg_epoch_s
  let s0 := { s with clock := { s.clock with
    boardTime := c.at_, timeUnset := true, placing := [], held := waiting, meters := [], epochStart := c.at_
    epochEnd := epochBoundary c.at_ epochS, merging := false, countsLost := false, interrupted := false, throughWt := true } }
  if c.at_ == 0 then s0
  else
    let s1 := { s0 with clock := { s.clock with
      epoch := c.epoch, epochStart := c.start, boardTime := c.at_, meters := c.meters, interrupted := true } }
    let rs := divideEnergy c.energy (s.gfld .glb_clock_cfg_overhead_mode == 1) (epochRecords s1)
    let done := rs ++ [summaryRecord s1 c.energy c.peak rs.length]
    let next := (c.epoch + 1) % 2 ^ 32
    { s0 with clock := { s0.clock with
      held := done :: waiting, epoch := next
      checkpoint := { epoch := next, start := c.at_, at_ := c.at_, energy := 0, peak := 0, meters := [] } } }

/-- Entry to RUN (R401, R514): the power-cycle count rises and the boot ROMs start. Tiles that were fenced are tried again. -/
def enterRun (s : State) : State :=
  let s1 := clockRestart (resetTiles s)
  let s2 := updPlp (fun p => { p with started := false, test := none, result := 0 }) s1
  smartRefresh { s2 with
    island := { s2.island with pkg := 2, cycles := (s2.island.cycles + 1) % 2 ^ 24, fenced := [], sysRst := false } }

end Sys2Proof.Machine
end

