-- ==== Sys2Proof/Machine/PlpCmds.lean ====
section
/-!
DEFINITION. Sys2Proof/Machine/PlpCmds.lean: the commands of the power-loss unit: failures, sags, budget, discharge test,
bank release, planned power-off, dump and restart (R298 to R321).
-/
namespace Sys2Proof.Machine
open Sys2Proof

/-- POWER_FAIL_DECLARED (R298). -/
def execPowerFailDeclared (s : State) : Host.Outcome State Fault Refusal := .next (declareFailure s)

/-- PF_WARN (R299, R308): VSENSE has been below warn_mv for 1 ms. PF_WARN is logged once per sag with the lowest reading,
every row timer counts as expired, and a running test is aborted. -/
def pfWarn (pin : Nat) (s : State) : State :=
  let mv := busMv (s.gfld .plp_sense_vsense_ratio) pin
  if s.plp.warn || s.gfld .plp_thresh_warn_mv ≤ mv then s
  else
    let s1 := updPlp (fun p => { p with
      warn := true, hutestEn := false, test := none
      result := if p.test.isSome then 6 else p.result, testDue := p.testDue || p.test.isSome }) s
    expireRows (logEv .pfWarn 15 [mv] s1)

def execPfWarn (pin : Nat) (s : State) : Host.Outcome State Fault Refusal := .next (pfWarn pin s)

/-- SAG_END (R299, R307): rows use their normal timers again, and a test that was due starts. -/
def sagEnd (s : State) : State :=
  let s1 := updPlp (fun p => { p with warn := false }) s
  if s1.plp.testDue then startTest s1 else s1

def execSagEnd (s : State) : Host.Outcome State Fault Refusal := .next (sagEnd s)

/-- BUDGET_RECOMPUTE (R301): every 1 ms, with the HSENSE ball reading and its lowest over the preceding 10 ms. -/
def budgetRecompute (low now : Nat) (s : State) : State :=
  let r := s.gfld .plp_sense_hsense_ratio
  recompute (updPlp (fun p => { p with bankMv := sat 0xFFFF (busMv r now), budgetMv := sat 0xFFFF (busMv r low) }) s)

def execBudgetRecompute (low now : Nat) (s : State) : Host.Outcome State Fault Refusal := .next (budgetRecompute low now s)

/-! ### The discharge test (R306 to R308) -/

/-- A test ends with a result, C in µF and ESR in mΩ (R304, R306). -/
def endTest (r capUf esr : Nat) (s : State) : State :=
  let c := capUf / 100
  let s1 := emit (.pins [(.hutestEn, false)]) (updPlp (fun p => { p with
    test := none, hutestEn := false, result := r, esrMohm := sat 0xFFF esr, cap01mF := sat 0xFFFF c }) s)
  if r == 1 then
    let s2 := updPlp (fun p => { p with
      capUf := capUf, testMin := s.island.minutes, passEsr := sat 0xFFFF esr, passedSince := true, bankSafe := false }) s1
    clearCauses [2, 3, 4, 6] (recompute (logEv .holdupTestPass 15 [c, esr] s2))
  else recompute (addCause 3 (logEv .holdupTestFail 15 [c, esr, r] s1))

/-- BANK_ABSENT (R304, R308, R319, R320): HSENSE has been below 5,000 mV for 10 ms. A test that runs fails with it; without
bank_release the staged data is at risk. -/
def bankAbsent (s : State) : State :=
  if s.plp.causes.contains 4 then s
  else
    let s1 := match s.plp.test with
      | some t => endTest (if t.step == 1 then 4 else 5) 0 t.esr s
      | none => s
    let s2 := addCause 4 s1
    if s2.plp.causes.contains 6 then s2 else logEv .bankLostUnsafe 15 [stagedMib s2] s2

def execBankAbsent (s : State) : Host.Outcome State Fault Refusal := .next (bankAbsent s)

/-- DISCHARGE_TEST_START (R307): a test that is due starts. -/
def execDischargeTestStart (s : State) : Host.Outcome State Fault Refusal :=
  .next (if s.plp.testDue then startTest s else s)

/-- TEST_INTERVAL (R307): test_hours after the start of the previous test. -/
def execTestInterval (s : State) : Host.Outcome State Fault Refusal :=
  .next (if s.plp.lastTestMin + 60 * s.gfld .plp_test_cfg_test_hours ≤ s.island.minutes then startTest s else s)

/-- HSENSE_RISE (R307): a rise of more than 5 V in 10 s while BANK_ABSENT or BANK_RELEASED applies. -/
def execHsenseRise (s : State) : Host.Outcome State Fault Refusal :=
  .next (if s.plp.causes.contains 4 || s.plp.causes.contains 6 then startTest s else s)

/-- TEST_CHARGED (R306): the bank counts as charged above vmin_mv + test_drop_mv; V0 is noted and HUTEST_EN raised. -/
def testCharged (pin : Nat) (s : State) : State :=
  let v := busMv (s.gfld .plp_sense_hsense_ratio) pin
  match s.plp.test with
  | some t =>
    if t.step != 1 || v ≤ s.gfld .plp_bank_vmin_mv + s.gfld .plp_test_cfg_test_drop_mv then s
    else emit (.pins [(.hutestEn, true)]) (updPlp (fun p => { p with
      hutestEn := true, test := some { t with step := 2, stepMs := s.nowMs, v0 := v } }) s)
  | none => s

def execTestCharged (pin : Nat) (s : State) : Host.Outcome State Fault Refusal := .next (testCharged pin s)

/-- TEST_ESR_SAMPLE (R306): V1 after 100 µs; ESR = (V0 − V1) × rtest_ohm / V1, in mΩ, rounded down. -/
def testEsr (pin : Nat) (s : State) : State :=
  let v := busMv (s.gfld .plp_sense_hsense_ratio) pin
  match s.plp.test with
  | some t =>
    if t.step != 2 || v == 0 then s
    else updPlp (fun p => { p with test := some { t with
      step := 3, stepMs := s.nowMs, v1 := v, esr := (t.v0 - v) * s.gfld .plp_test_cfg_rtest_ohm * 1000 / v } }) s
  | none => s

def execTestEsrSample (pin : Nat) (s : State) : Host.Outcome State Fault Refusal := .next (testEsr pin s)

/-- ln(a / b) in units of 2^-40, for a ≥ b > 0: twice the sum of z^(2k+1)/(2k+1) with z = (a − b)/(a + b). -/
def lnRatio (a b : Nat) : Nat :=
  let z := (a - b) * 2 ^ 40 / (a + b)
  2 * ((List.range 64).map fun k => z ^ (2 * k + 1) / 2 ^ (80 * k) / (2 * k + 1)).sum

/-- C = t / (R × ln(V1/V2)) in µF, with t in µs (R306). -/
def capFound (t r v1 v2 : Nat) : Nat :=
  let l := lnRatio v1 v2
  if v2 == 0 || l == 0 then 0 else t * 2 ^ 40 / (r * l)

/-- TEST_DISCHARGE_END (R306): HSENSE reaches V2, `us` after the 100 µs mark; the test passes or fails. -/
def testEnd (us : Nat) (s : State) : State :=
  match s.plp.test with
  | some t =>
    if t.step != 3 then s
    else
      let c := capFound us (s.gfld .plp_test_cfg_rtest_ohm) t.v1 (t.v1 - s.gfld .plp_test_cfg_test_drop_mv)
      let r := if c < 100 * s.gfld .plp_test_limit_cap_min then 2
        else if s.gfld .plp_test_limit_esr_max_mohm < t.esr then 3 else 1
      endTest r c t.esr s
  | none => s

def execTestDischargeEnd (us : Nat) (s : State) : Host.Outcome State Fault Refusal := .next (testEnd us s)

/-- TEST_TIMEOUT (R306): 300 s in step 1, or 10 s in step 3. -/
def testTimeout (s : State) : State :=
  match s.plp.test with
  | some t =>
    if t.step == 1 && t.startMs + 300000 ≤ s.nowMs then endTest 4 0 0 s
    else if t.step == 3 && t.stepMs + 10000 ≤ s.nowMs then endTest 5 0 t.esr s
    else s
  | none => s

def execTestTimeout (s : State) : Host.Outcome State Fault Refusal := .next (testTimeout s)

/-- TEST_NOW (R307, R308): ignored during a test. -/
def execTestNow (s : State) : Host.Outcome State Fault Refusal := .next (pkgWrite startTest s)

/-! ### The bank, and the planned power-off (R319 to R321) -/

/-- Every journal tail is closed so that it is written as a segment (R319, R321). -/
def closeTails (s : State) : State :=
  let s1 := (s.map.journals.map (·.slot)).foldl (fun s t => quarterTimer t s) s
  (s1.red.sjs.map (·.sg)).foldl (fun s g => putSj (sjFlush (findSj s g)) s) s1

/-- Nothing is staged and every journal tail is in flash. -/
def drained (s : State) : Bool :=
  s.wr.exts.all (fun e => e.stage == .toPlace || e.stage == .sent || e.stage == .closed) &&
  s.map.journals.all (fun j => j.durable == j.head) && s.red.sjs.all fun j => j.tail.isEmpty

/-- BANK_RELEASE (R304, R319). -/
def execBankRelease (s : State) : Host.Outcome State Fault Refusal := .next (pkgWrite (fun s => closeTails (expireRows (addCause 6 s))) s)

/-- BANK_SAFE (R319, R320): staging is empty and the tails are written. -/
def execBankSafe (s : State) : Host.Outcome State Fault Refusal :=
  .next (if (s.plp.causes.contains 6 || s.plp.causes.contains 4) && drained s then
    updPlp (fun p => { p with bankSafe := true }) s else s)

/-- PREPARE_OFF (R321): write-through mode under cause PREPARE_OFF; rows and tails are written. A further write changes
nothing. -/
def prepareOff (s : State) : State :=
  if s.plp.prepare then s
  else
    let was := s.plp.writeThrough
    let s1 := addCause 8 (updPlp (fun p => { p with prepare := true }) s)
    let s2 := if was then logEv .writeThroughEnter 15 [8] s1 else s1
    closeTails (expireRows s2)

def execPrepareOff (s : State) : Host.Outcome State Fault Refusal := .next (pkgWrite prepareOff s)

/-- OFF_READY (R321): with staging programmed, tails written and a checkpoint on every slot, a POWER_OFF record is written. -/
def offReady (s : State) : State :=
  if s.plp.prepare && !s.plp.offReady && drained s then
    let s1 := (s.map.journals.map (·.slot)).foldl (fun s t => mapCheckpoint t s) s
    writeRestart 3 (updPlp (fun p => { p with offReady := true }) s1)
  else s

def execOffReady (s : State) : Host.Outcome State Fault Refusal := .next (offReady s)

/-! ### Dump and restart (R312 to R318, R516) -/

/-- A critical action that waited for a tile's report runs now (R413). -/
def fenceWaiting (t : Nat) (s : State) : State :=
  if s.therm.tiles.any fun x => x.tile == t && x.critPending then fenceTile t s else s

/-- DUMP_TILE_REPORT (R312, R413, R429): a tile's directory address reaches the primary; with the last the record is written. -/
def dumpReport (t dir us : Nat) (s : State) : State :=
  match s.plp.dump with
  | some d =>
    if d.complete || !tileUp s t || d.reported.contains t then s
    else
      let d1 := { d with
        reported := t :: d.reported, dirs := d.dirs ++ [(t, dir)], primaryMs := if t == s.mgmt.primary then some s.nowMs else d.primaryMs }
      let s1 := updPlp (fun p => { p with dump := some d1 })
        (updEvr (fun e => { e with dumped := e.dumped ++ (eventTail t s).filter fun r => !e.dumped.contains r }) s)
      fenceWaiting t (if dumpDone s1 d1 then endDump us s1 else s1)
  | none => s

def execDumpTileReport (t : Nat) (d : DumpDone) (s : State) : Host.Outcome State Fault Refusal := .next (dumpReport t d.dir d.us s)

/-- RESTART_RECORD_TIMEOUT (R312): 10 ms after the primary's own report, without the others. -/
def restartTimeout (us : Nat) (s : State) : State :=
  match s.plp.dump with
  | some d => match d.primaryMs with
    | some t => if !d.complete && t + 10 ≤ s.nowMs then endDump us s else s
    | none => s
  | none => s

def execRestartRecordTimeout (us : Nat) (s : State) : Host.Outcome State Fault Refusal := .next (restartTimeout us s)

/-- A dump has ended and not been restored. -/
def dumpEnded (s : State) : Bool := s.plp.dump.any fun d => d.complete && !d.restored

/-- POST_DUMP_RESTART (R312, R516): VSENSE above warn_mv for 100 ms after a dump, with SYS_RST_L released. -/
def execPostDumpRestart (s : State) : Host.Outcome State Fault Refusal :=
  .next (if s.island.pkg == 2 && dumpEnded s && !s.island.sysRst then enterRun s else s)

/-- HOLDUP_RELEASE (R312): VAUX below 2.7 V after a dump. -/
def execHoldupRelease (s : State) : Host.Outcome State Fault Refusal :=
  .next (if dumpEnded s then emit (.pins [(.holdupEn, false)]) (updPlp (fun p => { p with holdupEn := false }) s) else s)

/-- The XOR over a row's data units gives the fingerprints of P and Q that the row was programmed with (R273, R290). -/
def fpsMatch (r : Row) (us : List Bytes) : Bool :=
  (us.map crc64).foldl Nat.xor 0 == crc64 r.pBytes &&
    (us.zipIdx.map fun u => crc64 (scaleBytes (gfPow u.2) u.1)).foldl Nat.xor 0 == crc64 r.qBytes

/-- The members of a row whose unit, as read back, fails the check of R275. -/
def failingUnits (s : State) (r : Row) (us : List Bytes) : List Nat :=
  (us.zipIdx.filter fun u => !unitPasses s (leaderTile s r.sg) (unitAddr s r u.2 0) u.1).map (·.2)

/-- The rows that a restart keeps (R245, R276, R290): they were PROGRAMMING and read back whole with the fingerprints recorded, and parity
recovers the units that fail their check. -/
def rowKept (s : State) (rs : List ReadRow) (r : Row) : Option (List Nat) :=
  if r.state != .programming then none
  else match rs.find? fun x => x.sg == r.sg && x.band == r.band && x.row == r.idx with
    | none => none
    | some x =>
      let bad := failingUnits s r x.units
      if x.units.length == dataUnits s r.sg && fpsMatch r x.units && bad.length ≤ 2 then some bad else none

/-- The rows kept are programmed (R245, R276, R315, R316); the codewords of units that failed their check count as lost. -/
def keepRows (rs : List ReadRow) (s : State) : State :=
  s.wr.rows.foldl (fun s r => match rowKept s rs r with
    | none => s
    | some bad =>
      let n := 4 * unitPages s r.stream
      let new := bad.flatMap fun m => (List.range n).map fun c =>
        ({ sg := r.sg, band := r.band, row := r.idx, member := m, cw := r.idx * n + c, dead := false } : LostSlot)
      let s1 := reportRow r (releaseRow r.sg r.band r.idx { s with
        wr := { s.wr with rows := s.wr.rows.filter fun q => !isRow r.sg r.band r.idx q }
        red := { s.red with lostSlots := s.red.lostSlots ++ new } })
      updBand r.sg r.band (fun x => { x with rows := x.rows + 1 }) s1) s

/-- Every other row is re-placed from the restored staging, and its band sealed at the highest row kept (R245, R315). -/
def replaceRows (s : State) : State := s.wr.rows.foldl (fun s r => reprogramRow r.sg r.band r.idx s) s

/-- The staged extents that a dump did not bring back are lost (R316): their blocks enter the lost-range log with cause
SLOT_LOST and read as lost. -/
def loseMissing (d : Option Dump) (s : State) : State :=
  let have' := fun (e : Ext) => (d.map fun d => d.exts.any fun x => x.2.seq == e.seq && d.holds x.1).getD false
  let gone := s.wr.exts.filter fun e => !have' e
  let s1 := { s with wr := { s.wr with exts := s.wr.exts.filter have' } }
  gone.foldl (fun s e =>
    let x := e.inFlash []
    if (livenessMask s e.nsid e.slba e.nblk e.addr e.seq).isEmpty then s
    else loseExtent x (List.range e.nblk) 1 { s with rcl := { s.rcl with flash := s.rcl.flash ++ [x] } }) s1

/-- The tiles whose dump a restart does not find (R314, R316). -/
def undumped (s : State) : List Nat :=
  (presentTiles s).filter fun t => !((s.plp.dump.map fun d => d.reported.contains t).getD false)

/-- What a restart finds of a slot's journal (R159, R312): the segments, and the tail where the dump of the slot's tile brought it, or that
of any adopter while the slot is adopted. -/
def journalFound (s : State) (j : Journal) : Journal :=
  let by_ := if s.map.away.contains j.slot then slotTiles s else [j.slot]
  let kept := s.plp.dump.any fun d => by_.any d.holds && d.heads.any fun h => h.1 == j.slot
  let es := if kept then j.entries else j.entries.filter fun e => e.pos < j.durable
  { j with entries := es, closed := [], hot := false, head := if kept then j.head else j.durable }

/-- The span-changing entries of a slot's journal that were forwarded and not confirmed (R158). -/
def unconfirmed (j : Journal) : List JEntry :=
  j.entries.filter fun e => e.type == .forward && !j.entries.any fun d => d.type == .forwardDone && d.seq == e.seq && d.nsid == e.nsid

/-- A FORWARD without FORWARD_DONE is applied to the second region, unless that region's journal holds an entry with the same sequence
(R158). -/
def replayForward (e : JEntry) (s : State) : State :=
  let r := e.lba / 256
  let slot := ownerSlot s e.nsid r
  let j := findJournal s slot
  let had := j.entries.any fun d => (d.type == .write || d.type == .unmap) && d.nsid == e.nsid && d.lba / 256 == r && d.seq == e.seq
  let d : JEntry := { e with type := if e.span.zero || e.span.raw || e.span.compressed then .write else .unmap, mirrored := true }
  if had then s
  else appendJ slot [d] (storeSpans e.nsid r (applyEntry d (getRegion s e.nsid r).spans) j.head s)

/-- The map at a restart (R139, R154, R158, R159): every slot is rebuilt from the records that its journal names and the entries above
them; what an entry names that no dump brought is not there. Nothing is in L0, and only pages left dirty are in L1; every slot replays
until MAP_REPLAY_DONE. -/
def rebuildMap (s : State) : State :=
  let s1 : State := { s with map := { s.map with
    journals := s.map.journals.map (journalFound s), replaying := presentTiles s, forwards := [], waiting := [], hands := []
    dirs := s.map.dirs.map fun (d : DirRec) => { d with wb := none } } }
  let regs := (s1.map.regions ++ s1.map.gone).map fun x => (x.nsid, x.r)
  let named := s1.map.journals.flatMap fun j => (j.entries.filter fun e =>
    e.type == .write || e.type == .unmap || e.type == .relocate).map fun e => (e.nsid, e.lba / 256)
  let s2 := (regs ++ named).eraseDups.foldl (fun s k => rebuildRegion k.1 k.2 s) s1
  let s3 := (s2.map.journals.flatMap unconfirmed).foldl (fun s e => replayForward e s) s2
  { s3 with map := { s3.map with gone := [] } }

/-- Sweeps at a restart (R226): one in the registry is resumed from step 3, asynchronously; any other is gone. -/
def resumeSweeps (s : State) : State :=
  let rows := (s.wr.rows.filter fun r => r.state == .filling || r.state == .closed || r.state == .programming).map fun r => (r.sg, r.band, r.idx)
  { s with rcl := { s.rcl with sweeps := (s.rcl.sweeps.filter (·.kept)).map fun w =>
      if w.state == 3 then w else { w with state := 1, bands := [], doneBands := 0, cmd := none, rows := rows } } }

/-- Bands at a restart (R195, R203, R206, R285): one that was RECLAIMING is SEALED and may be chosen again, one that was ERASING is erased
again on every member, the read drain of one that is ERASE_PENDING starts anew, and a substitute that is not complete is healed from its
first row. -/
def restartBands (s : State) : State :=
  let back := fun (b : Band) =>
    let b := { b with sweepIds := [] }
    if b.state == .reclaiming then { b with state := BandState.sealed, why := none, toScan := [] }
    else if b.state == .erasePending then { b with drainMs := s.nowMs }
    else if b.state == .erasing then { b with erased := [] } else b
  let s1 : State := { s with
    rcl := { s.rcl with bands := s.rcl.bands.map back }
    red := { s.red with substs := s.red.substs.map fun (x : Subst) => if x.done then x else { x with next := 0 } } }
  let s2 := (s1.rcl.bands.filter fun b => b.state == .erasing).foldl (fun s b => enqueueErases b s) s1
  (s2.red.substs.filter fun x => !x.done).foldl (fun s x => healRow x.sg x.band x.member s) s2

/-- The map, the block table, the read counts and the census at a restart (R159, R199, R200, R222, R260). -/
def restartMap (s0 : State) : State :=
  let s := rebuildMap s0
  { s with
    rcl := { s.rcl with
      censusDone := [], summariesDone := [], toCensus := s.map.regions.map fun x => (x.nsid, x.r)
      blocks := s.rcl.blocks.map fun k => { k with placed := 0, grains := 0, live := 0, summary := 0, reads := readsAtStart s k.die } }
    wr := { s.wr with leases := [], seqNext := max s.wr.seqNext s.wr.seqMark } }

/-- The power-loss unit at a restart: write-through mode, under NO_TEST and, with a dump to restore, DUMP_HELD; HOLDUP_EN falls and
PFAIL_L is released (R304, R305, R307, R312, R315). -/
def restartPlp (off : Bool) (s : State) : State :=
  let held := if off then none else s.plp.dump
  emit (.pins [(.holdupEn, false), (.pfailL, true)]) (updPlp (fun p => { p with
    started := true, writeThrough := true, passedSince := false, prepare := false, offReady := false, testDue := true
    causes := (if s.gfld .plp_cfg_plp_enable == 0 then [1] else []) ++ [2] ++ (if held.isSome then [7] else [])
    holdupEn := false, pfailDriven := false, dump := held.map fun d => { d with complete := true, restored := true } }) s)

/-- RESTART (R305, R314 to R317, R356, R419): the management primary starts its control firmware. `kept` gives the data units of the rows
whose word lines read back whole on every member, `storeOk` that the event recorder's store passes its check. The keys are loaded first,
since the check of R275 decrypts. -/
def restart (kept : List ReadRow) (storeOk : Bool) (s : State) : State :=
  if s.island.pkg != 2 || s.plp.started || !s.fw.running || s.fw.recovery then s
  else
    let reason := (s.plp.record.map (·.reason)).getD 0
    let first := s.plp.record.isNone
    let off := reason == 3
    let whole := first || off || (reason == 1 && s.plp.dump.any (·.complete))
    let staged := s.wr.exts.filter fun e => e.stage != .toPlace && e.stage != .sent
    let s1 := keepRows kept (reloadKeys (evrRestart storeOk (restartMap { s with wr := { s.wr with exts := staged } })))
    let s2 := if whole then s1
      else logEv .dumpIncomplete 15 [((undumped s).map fun t => 2 ^ t).sum]
        (loseMissing s.plp.dump { s1 with health := { s1.health with lostUnread := true } })
    let s3 := resumeSweeps (restartBands (replaceRows s2))
    let s4 := { s3 with health := { s3.health with unsafeShutdowns := s3.health.unsafeShutdowns + b2n (!first && !off) } }
    smartRefresh (writeRestart 0 (wtEnter (restartPlp off s4)))

def execRestart (kept : List ReadRow) (storeOk : Bool) (s : State) : Host.Outcome State Fault Refusal :=
  .next (restart kept storeOk s)

/-- What a restored dump held is durable (R318): extents programmed with their entries, and the tails in segments. -/
def dumpDurable (s : State) (d : Dump) : Bool :=
  d.exts.all (fun x => (findExt s x.2.seq).isNone) &&
  d.heads.all (fun h => decide (h.2 ≤ (findJournal s h.1).durable)) &&
  d.tails.all fun t => t.2.isEmpty || (findSj s t.1).tail.all fun e => !t.2.contains e

/-- DUMP_RELEASE (R307, R318): a CHECKPOINT record releases the dump; its seal blocks are erased and DUMP_HELD clears. -/
def dumpRelease (s : State) : State :=
  match s.plp.dump with
  | some d =>
    if !d.restored || !dumpDurable s d then s
    else
      let s1 := writeRestart 0 (updPlp (fun p => { p with dump := none }) s)
      let s2 := clearCauses [7] (logEv .dumpReleased 15 [d.seq] s1)
      if s2.plp.testDue then startTest s2 else s2
  | none => s

def execDumpRelease (s : State) : Host.Outcome State Fault Refusal := .next (dumpRelease s)

end Sys2Proof.Machine
end

