-- ==== Sys2Proof/Machine/EvrCmds.lean ====
section
/-!
DEFINITION. Sys2Proof/Machine/EvrCmds.lean: the commands of the event recorder (R420, R424 to R427, R432, R433).
-/
namespace Sys2Proof.Machine
open Sys2Proof

/-- EVENT_RAISED (R420, R430): the recorder takes the oldest event raised and not yet stored. `storeOk` is false when the store's check
fails as it is written. -/
def eventRaised (storeOk : Bool) (s : State) : State :=
  match s.evr.raised with
  | [] => s
  | e :: rest =>
    let s1 := updEvr (fun v => { v with raised := rest }) s
    takeEvent e (if storeOk then s1 else storeFault s1)

def execEventRaised (storeOk : Bool) (s : State) : Host.Outcome State Fault Refusal := .next (eventRaised storeOk s)

/-- Stores a SUMMARY record of a code that has suppressed events, none waiting and a token (R425). -/
def summarise (x : EvSupp) (s : State) : State :=
  match allEvs.find? fun e => e.code == x.code with
  | none => s
  | some e =>
    if s.evr.raised.any (fun r => r.ev == e) || tokensOf s x.code == 0 then s
    else storeRecord e x.tile 2 x.params (setTokens x.code (tokensOf s x.code - 1) s)

/-- TOKEN_REFILL (R424, R425): every bucket that is not full gains a token, and suppressed events are summarised. -/
def tokenRefill (s : State) : State :=
  let s1 := s.evr.buckets.foldl (fun s b => setTokens b.1 (b.2 + 1) s) s
  s1.evr.supp.foldl (fun s x => summarise x s) s1

def execTokenRefill (s : State) : Host.Outcome State Fault Refusal := .next (tokenRefill s)

/-- ARCHIVE_AGE_TIMER (R427, R431): the oldest unarchived record is 60 s old, or 1 s in fallback mode. -/
def archiveAge (s : State) : State :=
  match unarchived s with
  | [] => s
  | r :: _ =>
    if s.nowMs < r.ms + (if s.evr.fallback then 1000 else 60000) then s
    else archiveCheck (updEvr (fun e => { e with trigger := true }) s)

def execArchiveAgeTimer (s : State) : Host.Outcome State Fault Refusal := .next (archiveAge s)

/-- An operation on the event band still waits for its die. -/
def bandOpWaits (s : State) (k : OpKind) : Bool :=
  s.media.ops.any fun o => o.use == .archive && o.kind == k && o.state == .waiting

/-- Ends the operations of a kind on the event band. -/
def endBandOps (k : OpKind) (s : State) : State :=
  (s.media.ops.filter fun o => o.use == .archive && o.kind == k).foldl (fun s o => endArray o (dropOp o.id s)) s

/-- Charges a page programmed on each copy of the event band to the overhead (R120). -/
def meterArchive (s : State) : State :=
  let n := (s.media.ops.filter fun o => o.use == .archive && o.kind == .program).length
  chargeOver s.mgmt.primary (fun m => (m.addMedia (16384 * n)).addDie (n * descHalf s 0 16)) s

/-- ARCHIVE_PROGRAMMED (R426, R427): the page is programmed on every copy in service; its records are archived. After 1,024 pages of a
block the other block takes the next page, its erase a part of that operation. A copy that was being replaced is in service again. -/
def archiveProgrammed (s0 : State) : State :=
  match s0.evr.archiving with
  | none => s0
  | some ns =>
    if bandOpWaits s0 .program then s0 else
    let s := endBandOps .program (meterArchive s0)
    let page := (s.evr.store.filter fun r => ns.contains r.seq).map fun r => { r with archived := true }
    let turn := decide (1024 ≤ s.evr.bandPages)
    archiveCheck (updEvr (fun e => { e with
      archiving := none, archiveFault := false
      store := e.store.map fun r => if ns.contains r.seq then { r with archived := true } else r
      bandPrev := if turn then e.band else e.bandPrev
      band := if turn then page else e.band ++ page
      bandPages := if turn then 1 else e.bandPages + 1
      bandBlock := if turn then 1 - e.bandBlock else e.bandBlock }) s)

def execArchiveProgrammed (s : State) : Host.Outcome State Fault Refusal := .next (archiveProgrammed s)

/-- EVR_CURSOR_WRITE (R432, R434): the record at the cursor, or the outcome, is latched. -/
def execEvrCursorWrite (seq : Nat) (s : State) : Host.Outcome State Fault Refusal :=
  .next (if regAnswers s pkgWin .evrCursor then latchAt (seq % 2 ^ 32) s else s)

/-- The value of EVR_WIN_DATAk (R432). -/
def winData (s : State) (k : Nat) : Nat :=
  match s.evr.win.latched with
  | some r => if s.evr.win.valid then
      ((r.fields.filter fun f => 4 * k ≤ f.1 && f.1 < 4 * k + 4).map fun f => f.2.2 * 256 ^ (f.1 - 4 * k)).sum else 0
  | none => 0

/-- After a read of EVR_WIN_DATA7 (R432): while valid is 1 the cursor moves past the record presented. -/
def windowNext (s : State) : State :=
  match s.evr.win.latched with
  | some r => if s.evr.win.valid then latchAt (r.seq + 1) s else s
  | none => s

/-- BAND_FETCH_DONE (R433): the record fetched from the event band is in the window. -/
def execBandFetchDone (s : State) : Host.Outcome State Fault Refusal :=
  .next (if s.evr.win.pending && !bandOpWaits s .read then updEvr (fun e => { e with win := { e.win with
    pending := false, valid := e.win.latched.isSome } }) (endBandOps .read s) else s)

end Sys2Proof.Machine
end

