-- ==== Sys2Proof/Machine/FwOps.lean ====
section
/-!
DEFINITION. Sys2Proof/Machine/FwOps.lean: the code-flash die, the Kamax image and its checks, staging, and the install
(R438 to R461).
-/
namespace Sys2Proof.Machine
open Sys2Proof

/-! ### The die (R438, R439, R441 to R443) -/

/-- The first sector of slot A, slot B and the staging slot (R439). -/
def slotASector : Nat := 896
def slotBSector : Nat := 1280
def stagingSector : Nat := 1664

/-- An erase begins (2), with a program after it (1). -/
def flashStart (s : State) : State := updFlash (fun c => { c with op := 2, fails := 0 }) (flashAccess s)
def flashEnd (s : State) : State := updFlash (fun c => { c with op := 0, fails := 0 }) (flashAccess s)

/-! ### The image (R445, R446) -/

/-- A field of a manifest. -/

def mfBytes (m : Bytes) (at_ n : Nat) : Bytes := (m.drop at_).take n
def mfKind (m : Bytes) : Nat := mfNum m 6 1
def mfImageId (m : Bytes) : Nat := mfNum m 8 8
def mfSecurity (m : Bytes) : Nat := mfNum m 16 4
def mfKey (m : Bytes) : Nat := mfNum m 20 1
def mfRaiseFloor (m : Bytes) : Bool := bitOf (mfNum m 21 1) 0
def mfRevoke (m : Bytes) : Nat := mfNum m 22 1 % 16
def mfSerials (m : Bytes) : Nat := mfNum m 23 1
def mfImageLen (m : Bytes) : Nat := mfNum m 24 4
def mfPieces (m : Bytes) : Nat := mfNum m 28 2
def mfResidentLen (m : Bytes) : Nat := mfNum m 88 4
/-- The oldest version of format `i` that the image can also write (R457). -/
def mfOldest (m : Bytes) (i : Nat) : Nat := mfNum m (132 + 2 * i) 2
def mfPieceDigest (m : Bytes) (i : Nat) : Bytes := mfBytes m (1280 + 32 * i) 32

def mfLen : Nat := 13792
/-- ASCII KXMF. -/
def mfMagic : Bytes := [0x4B, 0x58, 0x4D, 0x46]

/-- The magic, the version and the ranges of R445. -/
def mfValid (m : Bytes) : Bool :=
  m.length == mfLen && m.take 4 == mfMagic && mfNum m 4 2 == 1 && decide (mfKind m ≤ 1) && mfImageId m != 0 &&
  decide (mfSecurity m ≤ 32) && decide (mfKey m ≤ 3) && decide (mfSerials m ≤ 64) && mfImageLen m % 256 == 0 &&
  decide (mfImageLen m ≤ 25100288) && mfPieces m == ceilDiv (mfImageLen m) 65536 && decide (1 ≤ mfPieces m) &&
  decide (mfPieces m ≤ 383) && decide (mfResidentLen m ≤ 393216)

/-- The floor: the ones in security_floor (R446). -/
def floorOf (s : State) : Nat := (bitsSet 32 s.ident.securityFloor).length

/-- The signature over bytes 0 to 13,695 (R367, R445). -/
def mfSigned (s : State) (m : Bytes) : Bool :=
  signaturePasses s (mfKey m) (mfBytes m 13568 97) (mfBytes m 13696 96) (sha384 (m.take 13696))

/-- The serial is not constrained, or listed (R446). -/
def mfSerialOk (s : State) (m : Bytes) : Bool :=
  mfSerials m == 0 || (List.range (mfSerials m)).any fun i => mfBytes m (256 + 16 * i) 16 == s.ident.serial

/-- The first check of R446 from BAD_MAGIC to ROLLBACK that a manifest fails. -/
def mfFault (s : State) (m : Bytes) : Option Nat :=
  if !mfValid m then some 1
  else if !mfSigned s m then some 2
  else if Nat.land (mfNum m 7 1) s.ident.part.hwType == 0 then some 3
  else if !mfSerialOk s m then some 4
  else if mfSecurity m < floorOf s then some 5
  else none

def pieceOf (g : Image) (i : Nat) : Option Bytes := (g.find? fun p => p.1 == i).map (·.2)
def manifestOf (g : Image) : Bytes := (pieceOf g 0).getD []
/-- Pieces 1 to piece_count one after the other. -/
def imageBody (g : Image) : Bytes := (List.range (mfPieces (manifestOf g))).flatMap fun i => (pieceOf g (i + 1)).getD []
/-- image_digest and resident_digest compare EQUAL (R446). -/
def digestsEqual (g : Image) : Bool :=
  let m := manifestOf g
  let b := imageBody g
  sha384 b == mfBytes m 40 48 && sha256 (b.take (mfResidentLen m)) == mfBytes m 92 32

/-- The first check of R446 that an image fails, in the order given. -/
def imageFault (s : State) (unread : Bool) (kind : Nat) (g : Image) : Option Nat :=
  if unread then some 0
  else match mfFault s (manifestOf g) with
    | some r => some r
    | none => if mfKind (manifestOf g) != kind then some 6 else if !digestsEqual g then some 7 else none

/-! ### Staging (R453) -/

/-- The accepted staged manifest. -/
def stagedManifest (s : State) : Option Bytes := if s.fw.stage == 0 then none else pieceOf s.fw.staging 0
def stagedCount (s : State) : Nat := ((stagedManifest s).map mfPieces).getD 0
def recorded (s : State) (i : Nat) : Bool := s.fw.stage != 0 && (pieceOf s.fw.staging i).isSome
/-- Data pieces not yet recorded. -/
def piecesMissing (s : State) : Nat := ((List.range (stagedCount s)).filter fun i => !recorded s (i + 1)).length
/-- The bitmap of R454. -/
def pieceMap (s : State) : Nat := ((List.range 384).filter (recorded s)).foldl (fun n i => n + 2 ^ i) 0
/-- STAGE_RESTART: the bitmap is cleared. -/
def stageRestart (s : State) : State :=
  logAppend .stageRestart (updFw (fun w => { w with staging := [], stage := 0, checking := false, pendingStart := false }) s)

/-- Once every data piece is recorded the DIGEST check begins (R453). -/
def checkWhole (s : State) : State :=
  if s.fw.stage == 1 && piecesMissing s == 0 then updFw (fun w => { w with checking := true }) (flashAccess s) else s

/-! ### Commit and activation (R456, R457) -/

def runManifest (s : State) : Bytes := (s.fw.run.map (·.manifest)).getD []
/-- The staged image can take over the running formats (R456). -/
def formatsFit (s : State) : Bool :=
  let m := manifestOf s.fw.staging
  (List.range 4).all fun i => decide (mfOldest m i ≤ mfFormat (runManifest s) i) && decide (mfFormat (runManifest s) i ≤ mfFormat m i)
def formatsChange (s : State) : Bool :=
  (List.range 4).any fun i => mfFormat (runManifest s) i != mfFormat (manifestOf s.fw.staging) i

/-- Why a commit of a control image is refused (R456). -/
def commitFault (s : State) : Option Status :=
  if 3 ≤ s.fw.stage then some .firmwareActivationProhibited
  else if s.fw.stage != 2 || mfKind (manifestOf s.fw.staging) != 0 || !formatsFit s then some .invalidFirmwareImage
  else none

/-- The staged image runs, from the staging slot; where a format's version changes every change is written twice from now on (R457, R458). -/
def runStaged (s : State) : State :=
  takeStores (manifestOf s.fw.staging)
    (updFw (fun w => { w with run := some { source := 2, manifest := manifestOf w.staging }, dual := w.dual || formatsChange s }) s)

/-- An image ID as an event parameter: its low half. -/
def idParam (m : Bytes) : Nat := mfImageId m % 2 ^ 32

/-! ### The install (R461) -/

/-- Blows fuses until `n` of the 32 are ones. DESIGN CHOICE: the lowest first. -/
def fuseOnes (n w : Nat) : Nat :=
  (List.range 32).foldl (fun w i => if (bitsSet 32 w).length < n then setBit w i true else w) w

/-- Steps 3 and 4: CONFIRMED is appended, and the fuses are blown. -/
def installConfirmed (s : State) : State :=
  let m := manifestOf s.fw.staging
  let floor := if mfRaiseFloor m then mfSecurity m else 0
  let revoked := (List.range 4).filter fun k => bitOf s.ident.keyRevoked k || (bitOf (mfRevoke m) k && k != mfKey m)
  let s1 := { s with ident := { s.ident with
    securityFloor := fuseOnes floor s.ident.securityFloor
    keyRevoked := (revoked.map fun k => 2 ^ k).sum } }
  logEv .fwConfirmed 15 [idParam m] (logAppend .confirmed (updFw (fun w => { w with
    stage := 2, activated := false, intent := false, installDone := false, instStep := 0, instDone := 0, dual := false }) s1))

/-- Step 1 or 2 of the install begins: the slot it copies to is erased, and holds no whole image until the copy is read back. -/
def installCopy (step : Nat) (s : State) : State :=
  updFw (fun w =>
    let w1 := { w with instStep := step, instDone := 0 }
    if step == 1 then { w1 with slotB := [] } else { w1 with slotA := [] }) (flashStart s)

/-- The sectors that one step of the install copies. -/
def installSectors (s : State) : Nat := if s.fw.instStep == 1 || s.fw.instStep == 2 then stagedCount s + 1 else 0

end Sys2Proof.Machine
end

