-- ==== Sys2Proof/Machine/ThermalCmds.lean ====
section
/-!
DEFINITION. Sys2Proof/Machine/ThermalCmds.lean: sensors, throttle levels, the histogram (R389 to R396) and the package power
measurement and limit (R409 to R411).
-/
namespace Sys2Proof.Machine
open Sys2Proof

def updSensor (t i : Nat) (f : Sensor → Sensor) (s : State) : State :=
  { s with therm := { s.therm with sensors := s.therm.sensors.map fun x => if x.tile == t && x.idx == i then f x else x } }
def findSensor (s : State) (t i : Nat) : Option Sensor := s.therm.sensors.find? fun x => x.tile == t && x.idx == i
def updTherm (t : Nat) (f : ThermTile → ThermTile) (s : State) : State :=
  { s with therm := { s.therm with tiles := s.therm.tiles.map fun x => if x.tile == t then f x else x } }

/-! ### The throttle level (R390, R392) -/

/-- Faulty sensors of a tile, and the floor they hold (R390). -/
def faultyCount (s : State) (t : Nat) : Nat := (s.therm.sensors.filter fun x => x.tile == t && x.faulty).length
def levelFloor (s : State) (t : Nat) : Nat :=
  if 3 ≤ faultyCount s t then 5 else if 1 ≤ faultyCount s t then 2 else 0

/-- Sets a tile's level: a change logs THERMAL_THROTTLE with the level and the cause, and may change its ANA state
(R60, R392). -/
def setLevel (t l cause : Nat) (trig : Trig) (s : State) : State :=
  if !tileUp s t || levelOf s t == l then s
  else anaRefresh (logEv .thermalThrottle t [l, cause] (updTherm t (fun x => { x with
    level := l, changedMs := s.nowMs, trig := if cause == 5 || cause == 2 then x.trig else trig }) s))

/-- The level rises by 1, up to 7 (R392). -/
def raiseLevel (t cause : Nat) (trig : Trig) (s : State) : State := setLevel t (min 7 (levelOf s t + 1)) cause trig s

/-- The floor of R390 lifts the level to it. -/
def applyFloor (t : Nat) (s : State) : State :=
  if levelOf s t < levelFloor s t then setLevel t (levelFloor s t) 2 .none s else s

def throttleC (s : State) (x : Sensor) : Int := s.fld x.tile x.idx .thm_limits_throttle_c
def warnC (s : State) (x : Sensor) : Int := s.fld x.tile x.idx .thm_limits_warn_c
def criticalC (s : State) (x : Sensor) : Int := s.fld x.tile x.idx .thm_limits_critical_c
def hystC (s : State) (t : Nat) : Int := s.tfld t .thm_cfg_hyst_c

/-- THERMAL_WARN is logged once when a reading reaches warn_c, and again only after a fall to warn_c − hyst_c (R391). -/
def warnStep (t i : Nat) (r : Int) (s : State) : State :=
  match findSensor s t i with
  | none => s
  | some x =>
    if !x.warned && 4 * warnC s x ≤ r then
      logEv .thermalWarn t [i, (r % 2 ^ 32).toNat] (updSensor t i (fun x => { x with warned := true }) s)
    else if x.warned && r ≤ 4 * (warnC s x - hystC s t) then updSensor t i (fun x => { x with warned := false }) s
    else s

/-- The critical action (R394, R413): the tile is fenced, but only after its report while a dump runs. -/
def criticalStep (t i : Nat) (r : Int) (s : State) : State :=
  let s1 := logEv .thermalCritical t [i, (r % 2 ^ 32).toNat] s
  if s.plp.dump.any fun d => !d.complete && !d.reported.contains t then
    updTherm t (fun x => { x with critPending := true }) s1
  else fenceTile t s1

/-- SENSOR_CONVERSION (R389 to R394): a reading in 0.25 °C. A reading of a faulty sensor, or one that is not plausible,
takes no part in any threshold. -/
def sensorConversion (t i : Nat) (r : Int) (s : State) : State :=
  match findSensor s t i with
  | none => s
  | some x =>
    if !tileUp s t then s
    else
      let s1 := updSensor t i (fun x => { x with reading := some r, peak := if x.reading.isNone then r else max x.peak r }) s
      if x.faulty || r < -160 || 600 < r then s1
      else
        let s2 := warnStep t i r s1
        smartRefresh (if 4 * criticalC s x ≤ r then criticalStep t i r s2 else s2)

def execSensorConversion (t i : Nat) (r : Int) (s : State) : Host.Outcome State Fault Refusal :=
  .next (sensorConversion t i r s)

/-- SENSOR_FAULT (R390): the sensor is left out of thresholds, median and histogram, and the floor applies. -/
def sensorFault (t i cond : Nat) (s : State) : State :=
  match findSensor s t i with
  | none => s
  | some x =>
    if x.faulty || !tileUp s t then s
    else smartRefresh (applyFloor t (logEv .sensorFault t [i, cond] (updSensor t i (fun x => { x with faulty := true }) s)))

def execSensorFault (t i cond : Nat) (s : State) : Host.Outcome State Fault Refusal := .next (sensorFault t i cond s)

/-- SENSOR_RESTORED (R390): plausible for 60 s. -/
def sensorRestored (t i : Nat) (s : State) : State :=
  match findSensor s t i with
  | none => s
  | some x =>
    if !x.faulty || !tileUp s t then s
    else smartRefresh (logEv .sensorRestored t [i] (updSensor t i (fun x => { x with faulty := false }) s))

def execSensorRestored (t i : Nat) (s : State) : Host.Outcome State Fault Refusal := .next (sensorRestored t i s)

/-- A plausible sensor of the tile reads at or above its throttle threshold. -/
def overThrottle (s : State) (t : Nat) : Bool := (plausible s t).any fun x => decide (4 * throttleC s x.1 ≤ x.2)
def dramOver (s : State) (t : Nat) : Bool := s.drams.any fun d => d.tile == t && d.overtemp

/-- THROTTLE_STEP (R392): every 100 ms the level rises while a sensor, or the DRAM, is over its threshold. -/
def execThrottleStep (t : Nat) (s : State) : Host.Outcome State Fault Refusal :=
  .next (if overThrottle s t then raiseLevel t 0 .abs s else if dramOver s t then raiseLevel t 4 .abs s else s)

/-- THROTTLE_FALL (R392): 1 s since the last change, every plausible sensor below throttle_c − hyst_c, no floor. -/
def throttleFall (t : Nat) (s : State) : State :=
  let cool := (plausible s t).all fun x => decide (x.2 < 4 * (throttleC s x.1 - hystC s t))
  if levelOf s t == 0 || levelFloor s t != 0 || dramOver s t || !cool ||
      (s.therm.tiles.any fun x => x.tile == t && decide (s.nowMs < x.changedMs + 1000)) then s
  else setLevel t (levelOf s t - 1) 5 .none s

def execThrottleFall (t : Nat) (s : State) : Host.Outcome State Fault Refusal := .next (throttleFall t s)

/-- A sensor whose rise over the window exceeds rate_limit × 0.25 s, within 15 °C of its throttle threshold (R393). -/
def fastRise (s : State) (x : Sensor × Int) : Bool :=
  decide ((s.tfld x.1.tile .thm_cfg_rate_limit : Int) < 4 * (x.2 - x.1.windowRef)) &&
  decide (4 * (throttleC s x.1 - 15) ≤ x.2)

/-- RATE_WINDOW (R393): a 250 ms window ends; the present readings begin the next. -/
def rateWindow (t : Nat) (s : State) : State :=
  let s1 := if (plausible s t).any (fastRise s) then raiseLevel t 1 .rate s else s
  { s1 with therm := { s1.therm with
   sensors := s1.therm.sensors.map fun x =>
    if x.tile == t then { x with windowRef := x.reading.getD x.windowRef } else x } }

def execRateWindow (t : Nat) (s : State) : Host.Outcome State Fault Refusal := .next (rateWindow t s)

/-- COMPENSATION_STEP (R397): analogue settings follow the nearest sensor; no state of the device's interface changes. -/
def execCompensationStep (_t : Nat) (s : State) : Host.Outcome State Fault Refusal := .next s

/-! ### The histogram (R396) -/

/-- The bin of a reading. -/
def histBin (r : Int) : Nat := if r < 160 then 0 else min 15 (((r - 160) / 20).toNat + 1)

/-- OPERATING_MINUTE (R396, R401): the bin of each tile's highest plausible reading is incremented. -/
def operatingMinute (s : State) : State :=
  { s with
    island := { s.island with minutes := s.island.minutes + 1 }
    therm := { s.therm with tiles := s.therm.tiles.map fun x => match hottest s x.tile with
      | some r => if tileUp s x.tile then
          { x with hist := x.hist.set (histBin r) (sat 0xFFFFFFFF (x.hist.getD (histBin r) 0 + 1)) } else x
      | none => x } }

def execOperatingMinute (s : State) : Host.Outcome State Fault Refusal :=
  .next (if s.island.pkg == 2 then operatingMinute s else s)

/-! ### Power (R409 to R411) -/

def updPower (f : Power → Power) (s : State) : State := { s with power := f s.power }

/-- POWER_SCALING (R409, R410): the estimate scaled by the ratio of measured to raw, limited to 0.5 to 2. While ISENSE
fails, scaling stops and the raw estimate stands. Both in 10 mW. -/
def powerScaling (measured raw : Nat) (s : State) : State :=
  if s.power.isenseFault then updPower (fun p => { p with measured := sat 0xFFFF raw, estimated := sat 0xFFFF raw }) s
  else updPower (fun p => { p with
    measured := sat 0xFFFF measured, estimated := sat 0xFFFF (max (raw / 2) (min (2 * raw) measured)) }) s

def execPowerScaling (measured raw : Nat) (s : State) : Host.Outcome State Fault Refusal :=
  .next (powerScaling measured raw s)

/-- ISENSE_FAULT (R300, R410): the check has failed for 1 s; the epoch's energy is estimated. -/
def execIsenseFault (cond : Nat) (s : State) : Host.Outcome State Fault Refusal :=
  .next (if s.power.isenseFault then s
    else logEv .isenseFault 15 [cond] { updPower (fun p => { p with isenseFault := true }) s with
      clock := { s.clock with estimated := true } })

/-- ISENSE_RESTORED (R410): passing for 10 s. -/
def execIsenseRestored (s : State) : Host.Outcome State Fault Refusal :=
  .next (updPower (fun p => { p with isenseFault := false }) s)

/-- POWER_LIMIT (R392, R411): the power averaged over 10 ms, in 10 mW, against pwr_limit_w. Every tile's level rises, in the
order of the estimates; POWER_LIMIT is logged once per excursion. -/
def powerLimit (avg : Nat) (order : List Nat) (s : State) : State :=
  let limit := s.gfld .pwr_limit_pwr_limit_w
  if limit == 0 || avg ≤ 100 * limit then updPower (fun p => { p with overLimit := false }) s
  else
    let s1 := if s.power.overLimit then s else logEv .powerLimit 15 [avg] (updPower (fun p => { p with overLimit := true }) s)
    ((order ++ presentTiles s).eraseDups).foldl (fun s t => raiseLevel t 3 .power s) s1

def execPowerLimit (avg : Nat) (order : List Nat) (s : State) : Host.Outcome State Fault Refusal :=
  .next (powerLimit avg order s)

end Sys2Proof.Machine
end

