-- ==== Sys2Proof/Machine/PowerCmds.lean ====
section
/-!
DEFINITION. Sys2Proof/Machine/PowerCmds.lean: the reference clocks (R397 to R400), sleep (R402 to R404) and the adaptive rails
(R406 to R408).
-/
namespace Sys2Proof.Machine
open Sys2Proof

def updClk (f : Clk → Clk) (s : State) : State := { s with clk := f s.clk }

/-! ### Clocks (R397 to R400) -/

/-- OSCILLATOR_CALIBRATION (R397): measured each second while a 100 MHz reference is in use. -/
def execOscillatorCalibration (ppm : Int) (s : State) : Host.Outcome State Fault Refusal :=
  .next (if s.clk.holdover then s else updClk (fun c => { c with aonPpm := ppm }) s)

def refOk (c : Clk) (r : Nat) : Bool := if r == 0 then c.aOk else c.bOk
def setRef (r : Nat) (ok : Bool) (c : Clk) : Clk := if r == 0 then { c with aOk := ok } else { c with bOk := ok }

/-- Takes the other reference into use and logs it (R398). -/
def useRef (r : Nat) (s : State) : State :=
  logEv .refclkSwitch 15 [r] (updClk (fun c => { c with active := r, switches := sat 0xFF (c.switches + 1) }) s)

/-- REFCLK_LOST (R398): the PLLs switch to the other reference where the one in use is lost. -/
def refclkLost (r : Nat) (s : State) : State :=
  let s1 := updClk (setRef r false) s
  if s.clk.active == r && refOk s1.clk (1 - r) then useRef (1 - r) s1 else s1

def execRefclkLost (r : Nat) (s : State) : Host.Outcome State Fault Refusal := .next (if 1 < r then s else refclkLost r s)

/-- REFCLK_REVERT (R398): the preferred reference has been good for 10 s. -/
def refclkRevert (s : State) : State :=
  let p := s.gfld .clk_cfg_ref_pref
  if s.clk.holdover then s
  else
    let s1 := updClk (setRef p true) s
    if s.clk.active != p && s.gfld .clk_cfg_ref_revert == 1 then useRef p s1 else s1

def execRefclkRevert (s : State) : Host.Outcome State Fault Refusal := .next (refclkRevert s)

/-- REFCLK_BOTH_LOST (R400): the PLLs hold over. -/
def execRefclkBothLost (s : State) : Host.Outcome State Fault Refusal :=
  .next (if s.clk.holdover then s
    else logEv .refclkBothLost 15 [] (updClk (fun c => { c with aOk := false, bOk := false, holdover := true }) s))

/-- REFCLK_RETURN (R400): the PLLs lock to the reference that returns. -/
def execRefclkReturn (r : Nat) (s : State) : Host.Outcome State Fault Refusal :=
  .next (if 1 < r then s
    else if s.clk.holdover then
      let s1 := updClk (fun c => { setRef r true c with holdover := false }) s
      if s.clk.active == r then s1 else useRef r s1
    else updClk (setRef r true) s)

/-- ETHREF_LOST (R399): Ethernet runs from the synthesised clock. -/
def execEthrefLost (s : State) : Host.Outcome State Fault Refusal :=
  .next (if s.clk.ethSynth then s
    else logEv .ethrefLost 15 [] (updClk (fun c => { c with ethOk := false, ethSynth := true }) s))

/-- ETHREF_RETURN (R399): ETHREFCLK has been good for 10 s. -/
def execEthrefReturn (s : State) : Host.Outcome State Fault Refusal :=
  .next (updClk (fun c => { c with ethOk := true, ethSynth := false }) s)

/-! ### Sleep (R402 to R404) -/

/-- No work in a tile's engines or cores: no command, die operation or extent of it. -/
def tileIdle (s : State) (t : Nat) : Bool :=
  !(s.host.cmds.any fun c => c.tile == t) && !(s.media.ops.any fun o => tileOfDie o.die == t) &&
  !(s.wr.exts.any fun e => e.port == t || memberTile s e == t)

def setSleep (t n : Nat) (s : State) : State := updTherm t (fun x => { x with sleep := n }) s

/-- LIGHT_ENTRY (R378, R402): after light_idle_us without work; the DRAM ranks go to power-down. -/
def lightEntry (t : Nat) (s : State) : State :=
  if s.gfld .pwr_cfg_light_en == 1 && tileUp s t && s.island.pkg == 2 && s.power.deep == 0 && tileIdle s t then
    setSleep t 1 { s with
     drams := s.drams.map fun d =>
      if d.tile == t && d.ready then { d with ranks := d.ranks.map fun r => { r with down := true } } else d }
  else s

def execLightEntry (t : Nat) (s : State) : Host.Outcome State Fault Refusal := .next (lightEntry t s)

/-- TILE_WAKE (R402). -/
def execTileWake (t : Nat) (s : State) : Host.Outcome State Fault Refusal :=
  .next (if s.power.deep == 0 then setSleep t 0 s else s)

/-- No background class but patrol and DRAM scrubbing has work ready: no die has an operation but a patrol read, and no band is being
relocated or erased, or is to be scanned (R403). -/
def backgroundIdle (s : State) : Bool :=
  s.media.ops.all (fun o => o.kind == .read && o.cls == .b6) &&
  s.rcl.bands.all fun b => b.why.isNone && b.state != .erasePending && b.state != .erasing

/-- What DEEP needs, apart from the idle time and the links (R403). -/
def deepAllowed (s : State) : Bool :=
  s.gfld .pwr_cfg_deep_en == 1 && s.island.pkg == 2 &&
  s.host.ports.all (fun p => p.mode == 0 || 5 ≤ p.mode) && s.host.cmds.isEmpty && s.plp.test.isNone &&
  !(s.rcl.sweeps.any fun w => w.state != 3) && s.red.substs.all (·.done) && !s.fw.activating && s.map.replaying.isEmpty &&
  s.map.dirs.all (fun d => d.loaded) && backgroundIdle s

/-- DEEP_ENTRY (R403): rows are closed and tails written first; once they are in flash the package is in DEEP, with the DRAM
in self-refresh. -/
def deepEntry (s : State) : State :=
  if !deepAllowed s || s.power.deep == 2 then s
  else if drained s then
    { updPower (fun p => { p with deep := 2 }) s with
      therm := { s.therm with tiles := s.therm.tiles.map fun x => { x with sleep := 2 } }
      drams := s.drams.map fun d => if d.ready then { d with
        ranks := d.ranks.map fun r => { r with selfRef := true, down := false, debt := 0 }
        banks := d.banks.map fun b => { b with open_ := none } } else d }
  else closeTails (expireRows (updPower (fun p => { p with deep := 1 }) s))

def execDeepEntry (s : State) : Host.Outcome State Fault Refusal := .next (deepEntry s)

/-- The package leaves DEEP, or the entry to it (R403, R404). -/
def leaveDeep (s : State) : State :=
  if s.power.deep == 0 then s
  else
    { updPower (fun p => { p with deep := 0 }) s with
      therm := { s.therm with tiles := s.therm.tiles.map fun x => { x with sleep := 0 } }
      drams := s.drams.map fun d => { d with ranks := d.ranks.map fun r => { r with selfRef := false } } }

/-- DEEP_TIMER_WAKE (R403): the island looks for ready work; without any the package stays in DEEP. -/
def execDeepTimerWake (work : Bool) (s : State) : Host.Outcome State Fault Refusal := .next (if work then leaveDeep s else s)

/-- DEEP_WAKE (R403, R404). -/
def execDeepWake (s : State) : Host.Outcome State Fault Refusal := .next (leaveDeep s)

/-! ### Adaptive rails (R406 to R408) -/

def updRail (r : Nat) (f : Rail → Rail) (s : State) : State :=
  updPower (fun p => { p with rails := p.rails.map fun x => if x.idx == r then f x else x }) s
def findRail (s : State) (r : Nat) : Option Rail := s.power.rails.find? fun x => x.idx == r
def railKind (s : State) (r : Nat) : Nat := s.fld 8 r .pwr_rail_cfg_kind
def railMin (s : State) (r : Nat) : Nat := s.fld 8 r .pwr_rail_cfg_vmin
def railMax (s : State) (r : Nat) : Nat := s.fld 8 r .pwr_rail_cfg_vmax

/-- AVS_ENABLE (R406, R416): a write of PWR_CFG. A kind 2 rail with vmin above vmax leaves avs_enable at 0 and logs
CFG_REJECT. A rail starts at the power-on voltage of its regulator, 0.80 V for an adaptive one (R407, R512). -/
def avsEnable (v : Nat) (s : State) : State :=
  let rise := bitOf v 2 && s.gfld .pwr_cfg_avs_enable == 0
  let bad := (List.range 16).any fun r => railKind s r == 2 && decide (railMax s r < railMin s r)
  if rise && bad then reject 15 (bar0 pkgWin 0 .pwrCfg) 4 (writeCfg pkgWin .pwrCfg (v - 4) s)
  else
    let s1 := writeCfg pkgWin .pwrCfg v s
    if rise && s1.gfld .pwr_cfg_avs_enable == 1 then
      updPower (fun p => { p with
       rails := p.rails.map fun x =>
        if railKind s x.idx == 2 && x.vset == 0 then { x with vset := 160 } else x }) s1
    else s1

def execAvsEnable (v : Nat) (s : State) : Host.Outcome State Fault Refusal := .next (pkgWrite (avsEnable v) s)

/-- A rail that the device may set: adaptive, enabled, not held (R406, R408). -/
def railAdaptive (s : State) (r : Nat) : Bool :=
  s.gfld .pwr_cfg_avs_enable == 1 && railKind s r == 2 && (findRail s r).any fun x => !x.fault

/-- AVS_STEP (R407): every monitor had margin above the high mark for 1 ms; the rail goes down 5 mV, not below vmin, and not
before its tiles have completed their start. -/
def execAvsStep (r : Nat) (s : State) : Host.Outcome State Fault Refusal :=
  .next (if railAdaptive s r && s.plp.started then
    updRail r (fun x => { x with vset := if railMin s r < x.vset then x.vset - 1 else x.vset }) s else s)

/-- AVS_MONITOR_LOW (R407): the rail goes up 10 mV at once, not above vmax. -/
def execAvsMonitorLow (r : Nat) (s : State) : Host.Outcome State Fault Refusal :=
  .next (if railAdaptive s r then updRail r (fun x => { x with vset := max x.vset (min (railMax s r) (x.vset + 2)) }) s else s)

/-- PMBUS_FAULT (R408): three failed transactions; the rail is held until the next start. -/
def execPmbusFault (r : Nat) (s : State) : Host.Outcome State Fault Refusal :=
  .next (if (findRail s r).any fun x => !x.fault then
    logEv .pmbusFault 15 [r] (updRail r (fun x => { x with fault := true }) s) else s)

/-- The tiles a rail feeds (R511): a VCORE rail its tile, another rail every tile. -/
def railTiles (s : State) (r : Nat) : List Nat :=
  if railKind s r == 2 then (presentTiles s).filter fun t => t == r else presentTiles s

/-- The overcurrent and overtemperature bits of STATUS_WORD: 4 and 2 of the PMBus standard. -/
def railAlarm (w : Nat) : Bool := bitOf w 4 || bitOf w 2

/-- PMBUS_ALERT (R408): STATUS_WORD of every rail is read and logged; overcurrent or overtemperature raises the level of
every tile on the rail. -/
def pmbusAlert (words : List (Nat × Nat)) (s : State) : State :=
  (words.filter fun w => railKind s w.1 != 0).foldl (fun s w =>
    let s1 := logEv .pmbusAlert 15 [w.1, w.2] (updRail w.1 (fun x => { x with status := w.2 }) s)
    if railAlarm w.2 then (railTiles s w.1).foldl (fun s t => raiseLevel t 3 .power s) s1 else s1) s

def execPmbusAlert (words : List (Nat × Nat)) (s : State) : Host.Outcome State Fault Refusal := .next (pmbusAlert words s)

end Sys2Proof.Machine
end

