-- ==== Sys2Proof/Machine/RegRead.lean ====
section
/-!
DEFINITION. Sys2Proof/Machine/RegRead.lean: what every register reads (R12 to R14, R467, R468): the read-only fields from the state
they report, the staged fields from the shadow, and the others as they stand.
-/
namespace Sys2Proof.Machine
open Sys2Proof

/-- The number whose bit `i` is set where `p i`, for `i` below `n`. -/
def bitMask (n : Nat) (p : Nat → Bool) : Nat := ((List.range n).map fun i => b2n (p i) * 2 ^ i).sum

/-- A signed number in `n` bits, two's complement. -/
def twos (n : Nat) (v : Int) : Nat := (v % (2 ^ n : Int)).toNat

/-- The stripe groups led by a tile. -/
def ledBy (s : State) (t : Nat) : List Group := s.red.groups.filter fun g => leaderTile s g.sg == t

/-! ### Queues, clock, map and placement (R99, R127, R165, R191) -/

/-- The tile holds adopted directory records that are not loaded yet (R130, R163). -/
def adopting (s : State) (t : Nat) : Bool :=
  s.map.dirs.any fun d => s.map.away.contains d.slot && !d.loaded &&
    s.map.regions.any fun x => x.nsid == d.nsid && ownerSlot s x.nsid x.r == d.slot && ownerTile s x.nsid x.r == t

/-- The holder of a slot (R165). -/
def slotHolder (s : State) (k : Nat) : Nat :=
  if s.ident.part.tiles ≤ k then 0xE else if s.map.away.contains k then 0xF else k

def hostFields (s : State) (t : Nat) : Fld → Option Nat
  | .qe_status_ctrl_active => some (ctrlsOn s t).length
  | .qe_status_frozen_count => some (s.host.sqs.filter fun q => q.tile == t && q.frozen.isSome).length
  | .qe_qp_free_ctrl_slots_free => some (512 - (ctrlsOn s t).length)
  | .qe_qp_free_qp_free => some (qpFree s t)
  | .glb_clock_status_held_epochs => some (sat 255 (s.clock.held.length + b2n (!s.clock.placing.isEmpty)))
  | .glb_clock_status_time_unset => some (b2n s.clock.timeUnset)
  | .glb_clock_status_merging => some (b2n s.clock.merging)
  | .glb_clock_status_energy_estimated => some (b2n s.power.isenseFault)
  | .glb_clock_epoch_epoch => some s.clock.epoch
  | .glb_board_time_board_time => some s.clock.boardTime
  | .map_status_adopting => some (b2n (adopting s t))
  | .map_status_replaying => some (b2n (s.map.replaying.contains t))
  | .map_status_slot_away => some (b2n (s.map.away.contains t))
  | .map_status_dirty_pct => some (dirtyFrames s t * 100 / max 1 (l1Frames s t))
  | .map_slot_map_slot_holder => some ((List.range 8).map fun k => slotHolder s k * 16 ^ k).sum
  | .map_dirty_dirty_frames => some (dirtyFrames s t)
  | .plc_status_write_through => some (b2n s.plp.writeThrough)
  | .plc_status_credit_full => some (b2n (decide (creditGrains s t ≤ stagedGrains s t)))
  | .plc_status_slc_closed => some (b2n (s.reg.egs.any fun g => g.slcClosed && g.groups.any fun sg => leaderTile s sg == t))
  | .plc_status_rows_filling => some (s.wr.rows.filter fun r => r.state == .filling && leaderTile s r.sg == t).length
  | .plc_staged_staged_kib => some (ceilDiv (stagedGrains s t) 4)
  | .plc_wseq_wseq_next => some (seqLease s t).next
  | _ => none

/-! ### Reclaim and media (R228, R261, R262) -/

/-- The state of a channel, as MED_CH_STATUS gives it. -/
def chState : ChState → Nat
  | .off => 0
  | .training => 1
  | .up => 2
  | .stepping => 3
  | .failed => 4

/-- A local channel of a tile in one of these states. -/
def chIn (s : State) (t k : Nat) (p : Chan → Bool) : Bool := s.media.chans.any fun c => c.ch == 8 * t + k && p c

/-- An endurance group of a stripe group is in stalemate (R216). -/
def groupStale (s : State) (sg : Nat) : Bool := s.reg.egs.any fun g => g.groups.contains sg && g.stalemate

/-- An entry of the base matrix of the code, row × 288 + column: whether it holds a circulant, and its shift (R253, R262). -/
def baseEntry (e : Nat) : Option Nat :=
  if 8640 ≤ e then none else (Config.ldpcBase e).map (· % 128)

def mediaFields (s : State) (t i : Nat) : Fld → Option Nat
  | .rcl_status_census_done => some (b2n ((ledBy s t).all fun g => s.rcl.censusDone.contains g.sg))
  | .rcl_status_summaries_ready => some (b2n (s.rcl.summariesDone.contains t))
  | .rcl_status_stalemate => some (b2n ((ledBy s t).any fun g => groupStale s g.sg))
  | .rcl_status_castling => some (b2n (s.rcl.castling.any fun sg => leaderTile s sg == t))
  | .rcl_status_sweeps_active => some (sat 16 (s.rcl.sweeps.filter fun w => w.state != 3 &&
      s.reg.egs.any fun g => g.id == w.eg && g.groups.any fun sg => leaderTile s sg == t).length)
  | .rcl_grp_bands_sealed_bands => some ((groupBands s i).filter fun b => b.state == .sealed).length
  | .rcl_grp_bands_free_bands => some (freeBands s i).length
  | .rcl_grp_wear_max_wear_max => some (wearMax s i)
  | .rcl_grp_wear_min_wear_min => some (wearMin s i)
  | .rcl_grp_state_no_gain => some (b2n ((findGroup s i).isSome && !canGain s i))
  | .rcl_grp_state_stalemate => some (b2n (groupStale s i))
  | .rcl_grp_state_demand_pct => some (demandOf s i)
  | .med_status_training => some (b2n ((List.range 8).any fun k => chIn s t k fun c => c.state == .training))
  | .med_status_ch_failed => some (bitMask 8 fun k => chIn s t k fun c => c.state == .failed)
  | .med_status_ch_degraded => some (bitMask 8 fun k => chIn s t k fun c => c.state == .up && decide (c.rate < c.limit))
  | .med_status_ch_up => some (bitMask 8 fun k => chIn s t k fun c => c.state == .up)
  | .med_ch_status_state => some (((findChan s (8 * t + i)).map fun c => chState c.state).getD 0)
  | .med_ch_status_rate_now => some (((findChan s (8 * t + i)).map (·.rate)).getD 0)
  | .med_ch_status_margin_min => some (((findChan s (8 * t + i)).map (·.margin)).getD 0)
  | .med_ch_status_dies_failed => some (sat 255 (s.media.dies.filter fun d => chanOfDie d.die == 8 * t + i && d.failed).length)
  | .ldpc_base_data_present => some (b2n (baseEntry i).isSome)
  | .ldpc_base_data_shift => some ((baseEntry i).getD 0)
  | _ => none

/-! ### Redundancy and power loss (R296, R322) -/

/-- The state of a group, as RED_GRP_STATE gives it. -/
def groupCode : GroupState → Nat
  | .optimal => 0
  | .degraded => 1
  | .exposed => 2
  | .unavailable => 3

/-- Bands of a group that may hold data, and their lost members. -/
def bandsLost (s : State) (g : Group) : List (List Nat) :=
  (s.rcl.bands.filter fun b => b.sg == g.sg && inUse b).map (bandLost s g)

def redFields (s : State) (t i : Nat) : Fld → Option Nat
  | .red_status_sj_single => some (b2n (s.red.sjs.any fun j => leaderTile s j.sg == t && decide (s.nowMs < j.soloUntil)))
  | .red_status_sj_copy_short => some (b2n (s.red.sjs.any fun j => leaderTile s j.sg == t && !j.copiesLost.isEmpty))
  | .red_status_rebuild_stalled => some (b2n (s.red.stalled.any fun sg => leaderTile s sg == t))
  | .red_status_groups_not_optimal => some ((ledBy s t).filter fun g => g.state != .optimal).length
  | .red_verify_status_verify_busy => some (b2n (s.red.verify.any fun v => v.tile == t && v.busy))
  | .red_verify_status_verify_mismatch => some (sat 0xFFFF (((s.red.verify.find? fun v => v.tile == t).map (·.wrong)).getD 0))
  | .red_grp_state_state => some (((findGroup s i).map fun g => groupCode g.state).getD 0)
  | .red_grp_state_geometry => some (b2n (((findGroup s i).map (·.tileSafe)).getD false))
  | .red_grp_state_lost_members => some (match findGroup s i with
      | some g => bitMask 16 fun m => (bandsLost s g).any fun l => l.contains m
      | none => 0)
  | .red_grp_heal_bands_unhealed => some (match findGroup s i with
      | some g => ((bandsLost s g).filter fun l => !l.isEmpty).length
      | none => 0)
  | .red_grp_heal_bands_healed => some (((findGroup s i).map (·.healed)).getD 0)
  | .plp_status_write_through => some (b2n s.plp.writeThrough)
  | .plp_status_bank_present => some (b2n (decide (5000 ≤ s.plp.bankMv)))
  | .plp_status_test_running => some (b2n s.plp.test.isSome)
  | .plp_status_throttling => some (b2n s.plp.throttling)
  | .plp_status_dump_held => some (b2n s.plp.dump.isSome)
  | .plp_status_bank_safe => some (b2n s.plp.bankSafe)
  | .plp_status_off_ready => some (b2n s.plp.offReady)
  | .plp_status_warn => some (b2n s.plp.warn)
  | .plp_status_wt_cause => some ((s.plp.causes.min?).getD 0)
  | .plp_test_result_result => some s.plp.result
  | .plp_test_result_esr_mohm => some s.plp.esrMohm
  | .plp_test_result_cap => some s.plp.cap01mF
  | .plp_bank_v_budget_mv => some s.plp.budgetMv
  | .plp_bank_v_bank_mv => some s.plp.bankMv
  | .plp_limit_mib => some s.plp.limitMib
  | .plp_staged_total_mib => some (stagedMib s)
  | .plp_last_dump_incomplete => some (b2n s.plp.lastIncomplete)
  | .plp_last_dump_dump_us => some s.plp.lastUs
  | .plp_last_dump_mib_dumped_mib => some s.plp.lastMib
  | _ => none

/-! ### Buffers, compression, keys and digests (R337, R349, R368, R369) -/

def engineFields (s : State) (t i : Nat) : Fld → Option Nat
  | .bpm_status_resetting => some (bitMask 6 fun n => (findPool s t n).any (·.resetting))
  | .bpm_status_quarantined => some (bitMask 6 fun n => (findPool s t n).any (·.quarantined))
  | .bpm_status_empty => some (bitMask 6 fun n => (findPool s t n).any fun p =>
      decide (p.free ≤ s.fld t n .bpm_pool_cfg_urgent_rsv))
  | .bpm_area_used_kib => some (areaUsed s t / 1024)
  | .bpm_area_area_kib => some (poolArea s t / 1024)
  | .bpm_pool_free_free_count => some (((findPool s t i).map (·.free)).getD 0)
  | .cmp_status_adj_d => some (b2n (pipeOf s t .decompressor).saved.isSome)
  | .cmp_status_adj_c => some (b2n (pipeOf s t .compressor).saved.isSome)
  | .cmp_status_slots_busy => some (bitMask 8 fun k => (findSlot s t k).isSome)
  | .cry_status_reloading => some (b2n s.cry.reload)
  | .cry_status_slots_loaded => some (s.cry.slots.filter fun k => k.tile == t && k.loaded).length
  | .cry_slot_state_loaded => some (b2n ((findKey s t i).any (·.loaded)))
  | .cry_slot_state_zeroise_fail => some (b2n ((findKey s t i).any (·.zeroiseFail)))
  | .cry_slot_state_key_gen => some (slotGen s (i + 1))
  | .dig_status_vfy_busy => some (b2n (s.cry.vfys.any fun v => v.tile == t))
  | .dig_status_ctx_finished => some (bitMask 8 fun k => (findCtx s t k).any fun c => c.state == .finished)
  | .dig_status_ctx_bound => some (bitMask 8 fun k => (findCtx s t k).any fun c => c.state == .bound)
  | .dig_status_ctx_busy => some (bitMask 8 fun k => (findCtx s t k).isSome)
  | .dig_fuse_id_row_ok => some (b2n s.ident.rowOk)
  | .dig_fuse_root_programmed => some (b2n s.ident.rootProgrammed)
  | .dig_fuse_key_revoked => some s.ident.keyRevoked
  | .dig_fuse_key_present => some s.ident.keyPresent
  | .dig_fuse_floor_security_floor => some s.ident.securityFloor
  | .dig_fuse_data_data => some (ofLE ((s.ident.rowHash.drop (4 * i)).take 4))
  | _ => none

/-! ### DRAM (R388) -/

/-- A value of the capture registers; 0 before a freeze. -/
def capOf (s : State) (t : Nat) (f : Capture → Nat) : Nat := (((findDram s t).bind (·.cap)).map f).getD 0

def dramFields (s : State) (t i : Nat) : Fld → Option Nat
  | .drc_status_frozen => some (b2n ((findDram s t).any (·.frozen)))
  | .drc_status_ready => some (b2n ((findDram s t).any (·.ready)))
  | .drc_status_training => some (b2n ((findDram s t).any fun d => decide (1 ≤ d.step) && decide (d.step ≤ 4)))
  | .drc_status_hot => some (b2n ((findDram s t).any (·.hot)))
  | .drc_status_cap_read => some (b2n ((findDram s t).any (·.capRead)))
  | .drc_status_overtemp => some (b2n ((findDram s t).any (·.overtemp)))
  | .drc_status_rate_now => some (((findDram s t).map fun d => if 4 ≤ d.step then d.rate else 0).getD 0)
  | .drc_status_capacity_gib => some (dramGib s t)
  | .drc_refresh_debt => some ((((findDram s t).map fun d => d.ranks.map (·.debt)).getD []).max?.getD 0)
  | .drc_margin_wr_margin => some ((((findDram s t).map fun d => d.ranks.map (·.wrMargin)).getD []).min?.getD 0)
  | .drc_margin_rd_margin => some ((((findDram s t).map fun d => d.ranks.map (·.rdMargin)).getD []).min?.getD 0)
  | .drc_cap_status_cause => some (capOf s t (·.cause))
  | .drc_cap_status_subch => some (capOf s t (·.acc.subch))
  | .drc_cap_status_rank => some (capOf s t (·.acc.rank))
  | .drc_cap_status_further => some (capOf s t (·.further))
  | .drc_cap_status_bad_symbols => some (capOf s t (·.bad))
  | .drc_cap_status_class => some (capOf s t (·.acc.cls))
  | .drc_cap_addr_bank_group => some (capOf s t (·.acc.group))
  | .drc_cap_addr_bank => some (capOf s t (·.acc.bank))
  | .drc_cap_addr_row => some (capOf s t (·.acc.row))
  | .drc_cap_col_column => some (capOf s t (·.acc.column))
  | .drc_cap_time_minutes => some (capOf s t (·.minutes))
  | .drc_cap_synd_syndrome => some (capOf s t (fun c => bitsOf c.synd (32 * i + 31) (32 * i)))
  | _ => none

/-! ### Temperature, clocks and power (R405, R414 to R416) -/

/-- A domain of a tile is on (R405). The DRAM domain stays on while its channel must refresh. -/
def domainOn (s : State) (t d : Nat) : Bool :=
  let awake := s.power.deep != 2
  let nand := fun (k : Nat) => (List.range 4).any fun j => chIn s t (k + j) fun c => c.state != .off && c.state != .failed
  s.island.pkg == 2 && tileUp s t && (match d with
    | 0 | 1 | 7 => awake
    | 3 => s.tfld t .glb_port_cfg_port_mode != 0
    | 4 => awake && nand 0
    | 5 => awake && nand 4
    | _ => true)

/-- A package domain is on (R405). -/
def pkgDomainOn (s : State) (d : Nat) : Bool :=
  match d with
  | 0 | 3 => s.island.pkg != 0
  | 1 => s.fw.flash.powered
  | _ => s.island.pkg == 2

def tileState (s : State) (t : Nat) : Nat :=
  if !(presentTiles s).contains t then 0xE
  else if s.island.fenced.contains t then 3
  else ((s.therm.tiles.find? fun x => x.tile == t).map (·.sleep)).getD 0

def trigOf (s : State) (t : Nat) : Trig := ((s.therm.tiles.find? fun x => x.tile == t).map (·.trig)).getD .none

def powerFields (s : State) (t i : Nat) : Fld → Option Nat
  | .thm_status_fenced => some (b2n (s.island.fenced.contains t))
  | .thm_status_warn => some (b2n ((plausible s t).any fun x => decide (4 * warnC s x.1 ≤ x.2)))
  | .thm_status_sensor_fault => some (bitMask 9 fun k => (findSensor s t k).any (·.faulty))
  | .thm_status_rate_trig => some (b2n (trigOf s t == .rate))
  | .thm_status_abs_trig => some (b2n (trigOf s t == .abs))
  | .thm_status_fault_trig => some (b2n (levelFloor s t != 0))
  | .thm_status_power_trig => some (b2n (trigOf s t == .power))
  | .thm_status_level => some (levelOf s t)
  | .thm_sensor_fault => some (b2n ((findSensor s t i).any (·.faulty)))
  | .thm_sensor_peak => some (((findSensor s t i).map fun x => twos 12 x.peak).getD 0)
  | .thm_sensor_temp => some (((findSensor s t i).map fun x => twos 12 (x.reading.getD 0)).getD 0)
  | .thm_hist_data_minutes => some (((s.therm.tiles.find? fun x => x.tile == t).map fun x => x.hist.getD i 0).getD 0)
  | .clk_status_switches => some s.clk.switches
  | .clk_status_holdover => some (b2n s.clk.holdover)
  | .clk_status_eth_synth => some (b2n s.clk.ethSynth)
  | .clk_status_eth_ok => some (b2n s.clk.ethOk)
  | .clk_status_active => some s.clk.active
  | .clk_status_refb_ok => some (b2n s.clk.bOk)
  | .clk_status_refa_ok => some (b2n s.clk.aOk)
  | .clk_aon_aon_ppm => some (twos 16 s.clk.aonPpm)
  | .pwr_status_isense_fault => some (b2n s.power.isenseFault)
  | .pwr_status_pkg_state => some s.power.deep
  | .pwr_status_rail_fault => some (bitMask 16 fun r => (findRail s r).any (·.fault))
  | .pwr_tile_state_state => some ((List.range 8).map fun k => tileState s k * 16 ^ k).sum
  | .pwr_dom_tile_dom_on => some (bitMask 64 fun k => domainOn s (k / 8) (k % 8))
  | .pwr_dom_pkg_dom_on => some (bitMask 6 (pkgDomainOn s))
  | .pwr_power_measured => some s.power.measured
  | .pwr_power_estimated => some s.power.estimated
  | .pwr_rail_status_fault => some (b2n ((findRail s i).any (·.fault)))
  | .pwr_rail_status_vset => some (((findRail s i).map (·.vset)).getD 0)
  | .pwr_rail_status_status_word => some (((findRail s i).map (·.status)).getD 0)
  | _ => none

/-! ### The recorder, firmware and the board port (R437, R464, R465, R491 to R493) -/

/-- The level of a GPIO ball (R487): as its function drives it; an input is what the board drives. -/
def gpioLevel (s : State) (p : Nat) : Bool :=
  let out := bitOf (s.gfld .glb_pin_value_out) p
  match ([Fld.glb_pin_func_func_0, .glb_pin_func_func_1, .glb_pin_func_func_2, .glb_pin_func_func_3, .glb_pin_func_func_4,
      .glb_pin_func_func_5, .glb_pin_func_func_6, .glb_pin_func_func_7][p]?).map s.gfld with
  | some 1 => out
  | some 2 => !s.host.cmds.isEmpty || decide (s.nowMs < s.host.activeUntil)
  | some 3 => s.health.crit != 0
  | some 4 => s.plp.writeThrough
  | some 5 => s.power.deep == 2
  | some 6 => s.fw.activating || s.fw.instStep != 0
  | some 7 => out && (s.nowMs + Config.locatePhase) / 500 % 2 == 0
  | _ => Config.gpioInput p s.nowMs

/-- The sector with the most erases, and their count; the lowest such sector (R465). -/
def eraseMax (s : State) : Nat × Nat :=
  s.fw.flash.erases.foldl (fun b e => if b.2 < e.2 || (b.2 == e.2 && e.1 < b.1) then e else b) (0, 0)

def recorderFields (s : State) (i : Nat) : Fld → Option Nat
  | .evr_status_fallback => some (b2n s.evr.fallback)
  | .evr_status_archive_fault => some (b2n s.evr.archiveFault)
  | .evr_status_unarchived => some (unarchived s).length
  | .evr_head_seq => some s.evr.last
  | .evr_oldest_seq => some (((held s).map (·.seq)).min?.getD 0)
  | .evr_archived_seq => some (((s.evr.bandPrev ++ s.evr.band).map (·.seq)).max?.getD 0)
  | .evr_win_status_fallback => some (b2n s.evr.fallback)
  | .evr_win_status_from_band => some (b2n s.evr.win.fromBand)
  | .evr_win_status_pending => some (b2n s.evr.win.pending)
  | .evr_win_status_gap => some (b2n s.evr.win.gap)
  | .evr_win_status_valid => some (b2n s.evr.win.valid)
  | .evr_win_seq_seq => some (if s.evr.win.valid then (s.evr.win.latched.map (·.seq)).getD 0 else 0)
  | .evr_win_data_data => some (winData s i)
  | .evr_drops_drops_hi => some (if i == 3 then 0 else s.evr.drops.getD (2 * i + 1) 0)
  | .evr_drops_drops_lo => some (s.evr.drops.getD (2 * i) 0)
  | .evr_cursor_cursor => some s.evr.win.cursor
  | .fwu_status_stage_state => some s.fw.stage
  | .fwu_status_recovery_mode => some (b2n s.fw.recovery)
  | .fwu_status_pending_start => some (b2n s.fw.pendingStart)
  | .fwu_status_fallback => some (b2n s.fw.fallback)
  | .fwu_status_boot_reason => some s.fw.bootReason
  | .fwu_status_pieces_missing => some (piecesMissing s)
  | .fwu_run_info_run_source => some ((s.fw.run.map (·.source)).getD 0)
  | .fwu_run_info_floor => some (floorOf s)
  | .fwu_run_info_run_security => some (mfSecurity (runManifest s) % 64)
  | .fwu_run_id_image_id => some (mfImageId (runManifest s))
  | .fwu_staged_id_image_id => some (((stagedManifest s).map mfImageId).getD 0)
  | .fwu_map_data_pieces => some (bitsOf (pieceMap s) (32 * i + 31) (32 * i))
  | .fwu_install_step => some s.fw.instStep
  | .fwu_install_sectors_total => some (installSectors s)
  | .fwu_install_sectors_done => some s.fw.instDone
  | .cfc_status_failed => some (b2n s.fw.flash.failed)
  | .cfc_status_busy => some (b2n (s.fw.flash.op != 0))
  | .cfc_status_op => some s.fw.flash.op
  | .cfc_status_powered => some (b2n s.fw.flash.powered)
  | .cfc_status_stall_max_us => some s.fw.flash.stallMax
  | .cfc_errors_op_fail => some s.fw.flash.opFail
  | .cfc_errors_read_uncorr => some s.fw.flash.readUncorr
  | .cfc_erase_max_sector => some (eraseMax s).1
  | .cfc_erase_max_erases => some (eraseMax s).2
  | _ => none

def boardFields (s : State) (t i : Nat) : Fld → Option Nat
  | .glb_id_hw_type => some s.ident.part.hwType
  | .glb_id_tile_map => some s.ident.tileMap
  | .glb_id_tiles_up => some (bitMask 8 fun k => (upTiles s).contains k)
  | .glb_status_boot_state => some s.fw.bootState
  | .glb_status_fw_ready => some (b2n s.fw.running)
  | .glb_status_activation => some (b2n s.fw.activating)
  | .glb_status_boot_reason => some s.fw.bootReason
  | .glb_status_primary => some s.mgmt.primary
  | .glb_status_standby => some s.mgmt.standby
  | .glb_status_tiles_fenced => some (bitMask 8 fun k => s.island.fenced.contains k)
  | .glb_status_crit_warning => some s.health.crit
  | .glb_serial_serial => some (ofLE ((s.ident.serial.drop (4 * i)).take 4))
  | .glb_commit_status_state => some s.board.commit.state
  | .glb_commit_status_rejected => some (b2n s.board.commit.rejected)
  | .glb_commit_status_reason => some s.board.commit.reason
  | .glb_commit_status_bad_offset => some s.board.commit.badOffset
  | .glb_commit_seq_applied_seq => some s.board.commit.applied
  | .glb_pin_value_in => some (bitMask 8 (gpioLevel s))
  | .bpt_status_rom_state => some (b2n (s.fw.bootState == 3))
  | .bpt_status_held => some (b2n s.fw.activating)
  | .bpt_evt_skipped_evt_skipped => some s.board.skipped
  | .bpt_ring_state_head => some (ringOf s i).head
  | .bpt_ring_state_tail => some (ringOf s i).tail
  | .glb_port_status_recon_step => some (((findPort s t).map (·.recon)).getD 0)
  | .glb_port_status_link_up => some (bitMask 4 fun p => (findPort s t).any fun k => k.linkUp.contains p)
  | .glb_port_status_pcie_rate => some (((findPort s t).map (·.pcieRate)).getD 0)
  | .glb_port_status_pcie_width => some (((findPort s t).map (·.pcieWidth)).getD 0)
  | .glb_port_status_ana_state => some (anaState s t - 1)
  | .glb_mesh_status_up => some (bitMask 4 fun l => s.mesh.links.any fun x => x.tile == t && linkIndex x.link == l && x.up)
  | .glb_mesh_status_replays => some (sat 0xFFFF ((s.mesh.links.filter fun l => l.tile == t).map (·.total)).sum)
  | _ => none

/-! ### Reading -/

/-- What a field of copy `i` of a register reads (R13): a write-only field 0, a staged field its shadow, a field that reports
state that state, any other field what it holds. -/
def fieldValue (s : State) (w i : Nat) (f : Fld) : Nat :=
  let reported := (hostFields s w f).or ((mediaFields s w i f).or ((redFields s w i f).or ((engineFields s w i f).or
    ((dramFields s w i f).or ((powerFields s w i f).or ((recorderFields s i f).or (boardFields s w i f)))))))
  match reported with
  | some v => v
  | none =>
    if f.info.acc == .wo || fldAbsent s f then 0
    else if f.info.acc == .rs then valOf s.regs.shadow w i f
    else s.fld w i f

/-- The value of copy `i` of a register, with both halves of a pair. -/
def regValue (s : State) (w i : Nat) (r : Reg) : Nat :=
  (r.flds.map fun f => fieldValue s w i f % 2 ^ (f.info.hi + 1 - f.info.lo) * 2 ^ f.info.lo).sum

/-- A pair that board software writes: its low register holds the last value written to it (R12). Board time is none of them: its reads
return the running time (R127). -/
def Reg.held (r : Reg) : Bool := r == .glbMac || r == .bptRingBase || r == .bptRingWb

/-- A pair whose high half is latched by a read of its low half: those that the device counts (R165, R228, R296, R464). -/
def Reg.latched (r : Reg) : Bool := r.info.wide && !r.held && r != .glbBoardTime

/-- What the low register of a pair that board software writes reads: the value it holds, with its reserved bits 0 (R12, R14). -/
def heldLow (s : State) (w i : Nat) (r : Reg) : Nat :=
  (r.flds.map fun f => bitsOf (lowHalf s w i r) (min f.info.hi 31) f.info.lo * 2 ^ f.info.lo).sum

/-- What a read at a BAR0 offset returns (R12, R14, R467, R468): a high half of a counter reads as latched with its low half, and a
register that does not answer reads 0. -/
def readValue (s : State) (off : Nat) : Nat :=
  match regAt s off with
  | none => 0
  | some (w, r, i, high) =>
    if !regAnswers s w r then 0
    else if high then ((s.regs.latch.find? fun l => l.1 == off).map (·.2)).getD (regValue s w i r / 2 ^ 32)
    else if r.held then heldLow s w i r
    else regValue s w i r % 2 ^ 32

end Sys2Proof.Machine
end

