-- ==== Sys2Proof/Machine/EnableCmds.lean ====
section
/-!
DEFINITION. Sys2Proof/Machine/EnableCmds.lean: the enables of the queue engine, the map, placement, reclaim, redundancy and the
hold-up budget (R99, R165, R191, R228, R296, R322, R525). The enables of the other blocks stand in their own files.
-/
namespace Sys2Proof.Machine
open Sys2Proof

/-- QE_ENABLE (R99, R525, R526): a write of QE_CFG. Writing 0 ends every controller of the tile as at a controller reset, and the port
holds no connection any more. -/
def qeEnable (t v : Nat) (s : State) : State :=
  if bitOf v 0 then writeEnable t .qeCfg .qe_cfg_qe_enable v (fun _ => none) id id s
  else
    let s1 := writeCfg t .qeCfg v s
    let s2 := ((s1.host.ctrls.filter fun c => c.tile == t).map (·.cntlid)).foldl (fun s k => endCtrl k s) s1
    (s2.host.conns.filter fun k => k.tile == t).foldl (fun s k => dropConn k.id (emit (.connClosed k.id) s)) s2

def execQeEnable (t v : Nat) (s : State) : Host.Outcome State Fault Refusal := .next (tileWrite t (qeEnable t v) s)

/-- Why the map engine of a tile may not be enabled (R162, R165): a static field out of range, reservations above the channel's
DRAM, or L1 too small for adoption. -/
def mapFault (t : Nat) (s : State) : Option Nat :=
  if [Reg.mapCfg, .mapDirCfg, .mapL1Cfg].any (outOfRange s t) then some 2
  else if dramGib s t < 8 + dirGib s t + l1Gib s t || l1Gib s t < ceilDiv (dirGib s t) (s.ident.part.tiles - 1) + 1 then some 8
  else none

/-- The default directory space is fixed (R140), and requests that waited for the map engine are served. -/
def mapOn (t : Nat) (s : State) : State :=
  serveMap { s with map := { s.map with dirFixed := (s.map.dirFixed.filter fun x => x.1 != t) ++ [(t, dirGib s t)] } }

/-- MAP_ENABLE (R140, R165, R525): a write of MAP_CFG. -/
def mapEnable (t v : Nat) (s : State) : State := writeEnable t .mapCfg .map_cfg_map_enable v (mapFault t) id (mapOn t) s

def execMapEnable (t v : Nat) (s : State) : Host.Outcome State Fault Refusal := .next (tileWrite t (mapEnable t v) s)

/-- stage_dram_mib fits beside the block table and the working tables (R191). -/
def stageFits (t : Nat) (s : State) : Bool :=
  let blocks := blocksPerLun s * (s.media.dies.filter fun d => tileOfDie d.die == t).length
  decide (s.tfld t .plc_stage_cfg_stage_dram_mib * 2 ^ 20 + 64 * blocks + 2 ^ 30 ≤ 2 ^ 33)

/-- PLC_ENABLE (R191, R525): a write of PLC_CFG. -/
def execPlcEnable (t v : Nat) (s : State) : Host.Outcome State Fault Refusal :=
  .next (tileWrite t (writeEnable t .plcCfg .plc_cfg_plc_enable v (fun s => if stageFits t s then none else some 8) id id) s)

/-- RCL_ENABLE (R228, R525): a write of RCL_CFG. -/
def execRclEnable (t v : Nat) (s : State) : Host.Outcome State Fault Refusal :=
  .next (tileWrite t (writeEnable t .rclCfg .rcl_cfg_rcl_enable v (fun _ => none) id id) s)

/-- RED_ENABLE (R296, R525): a write of RED_CFG. -/
def execRedEnable (t v : Nat) (s : State) : Host.Outcome State Fault Refusal :=
  .next (tileWrite t (writeEnable t .redCfg .red_cfg_red_enable v (fun _ => none) id id) s)

/-- PLP_ENABLE (R304, R322): a write of PLP_CFG. A rise starts the budget and clears cause PLP_DISABLED; while plp_enable is 0 that
cause applies. -/
def plpEnable (v : Nat) (s : State) : State :=
  let s1 := writeEnable pkgWin .plpCfg .plp_cfg_plp_enable v (fun _ => none) id
    (fun s => clearCauses [1] (recompute s)) s
  if s.gfld .plp_cfg_plp_enable == 1 && !bitOf v 0 then addCause 1 s1 else s1

def execPlpEnable (v : Nat) (s : State) : Host.Outcome State Fault Refusal := .next (pkgWrite (plpEnable v) s)

end Sys2Proof.Machine
end

