-- ==== Sys2Proof/Machine/FwCmds.lean ====
section
/-!
DEFINITION. Sys2Proof/Machine/FwCmds.lean: boot, firmware download, commit, live activation, confirm and install, and the code-flash
sequencer's events (R441 to R463).
-/
namespace Sys2Proof.Machine
open Sys2Proof

/-! ### Boot (R447, R449, R457, R460) -/

/-- What the staging log asks of the image that a start has loaded from slot A (0) or B (1): to go on with an install, to log a fall
back from an image that was not confirmed, to activate an image committed for this start, to make the DIGEST check again. -/
def resumeStaged (src : Nat) (s : State) : State :=
  if s.fw.intent then
    if s.fw.installDone then installConfirmed s
    else installCopy (if src == 1 then 2 else 1) (updFw (fun w => { w with stage := 4 }) (runStaged s))
  else if s.fw.activated then
    logEv .fwFallback 15 [idParam (manifestOf s.fw.slotA)]
      (updFw (fun w => { w with activated := false, stage := 2, fallback := true }) s)
  else if s.fw.pendingStart then
    let s1 := updFw (fun w => { w with pendingStart := false }) s
    if (commitFault s1).isSome || (imageFault s1 s1.fw.flash.failed 0 s1.fw.staging).isSome then s1
    else
      let m := manifestOf s1.fw.staging
      logEv .fwActivated 15 [idParam m, mfSecurity m]
        (runStaged (logAppend .activated (updFw (fun w => { w with activated := true, stage := 3 }) s1)))
  else checkWhole s

/-- The control firmware runs from a slot and finds its config store; tiles whose resident part fails its check twice are fenced (R447,
R458). -/
def bootRuns (src : Nat) (g : Image) (tileFail : List Nat) (s : State) : State :=
  let s1 := resumeStaged src (openStore (manifestOf g) (updFw (fun w => { w with
    run := some { source := src, manifest := manifestOf g }, running := true, bootState := 1 }) s))
  (tileFail.filter fun t => t != s.mgmt.primary).foldl (fun s t => fenceTile t s) s1

/-- The recovery image of the boot band runs, or the boot ROM stops (R447, R449). -/
def bootRecovery (unread : Bool) (s : State) : State :=
  match s.fw.bootBand.find? fun g => (imageFault s unread 1 g).isNone with
  | some g => updFw (fun w => { w with
      run := some { source := 3, manifest := manifestOf g }, running := true, recovery := true, bootState := 2 }) s
  | none => updFw (fun w => { w with bootState := 3 }) s

/-- The boot ROM's steps (R447). `readFail` lists the sources whose read is uncorrectable: 0 slot A, 1 slot B, 3 the boot band. -/
def bootSteps (readFail tileFail : List Nat) (s : State) : State :=
  let unread := fun n => s.fw.flash.failed || readFail.contains n
  let s0 := updFlash (fun c => { c with readUncorr := sat 0xFFFF (c.readUncorr + (readFail.filter fun n => n < 2).length) }) (flashAccess s)
  if !s.ident.rowOk then updFw (fun w => { w with bootState := 3, bootReason := 8 }) s0
  else match imageFault s (unread 0) 0 s.fw.slotA with
    | none => bootRuns 0 s.fw.slotA tileFail s0
    | some a =>
      let s1 := logEv .bootSlotB 15 [a] (updFw (fun w => { w with bootReason := a }) s0)
      match imageFault s (unread 1) 0 s.fw.slotB with
      | none => bootRuns 1 s.fw.slotB tileFail s1
      | some b => bootRecovery (readFail.contains 3) (logEv .bootRecovery 15 [b] (updFw (fun w => { w with bootReason := b }) s1))

/-- The package has entered RUN and no source has been chosen yet. -/
def booting (s : State) : Bool := s.island.pkg == 2 && s.fw.bootState == 0

/-- BOOT (R447): tile 0 chooses the source. -/
def execBoot (readFail tileFail : List Nat) (s : State) : Host.Outcome State Fault Refusal :=
  .next (if booting s && tileUp s 0 then statusVector s (bootSteps readFail tileFail s) else s)

/-- BOOT_PRIMARY_TIMEOUT (R32, R447): tile 0 has not chosen within 200 ms; tile 1 does, and becomes the management primary. -/
def execBootPrimaryTimeout (readFail tileFail : List Nat) (s : State) : Host.Outcome State Fault Refusal :=
  .next (if booting s && tileUp s 1 && s.mgmt.primary == 0 then
    statusVector s (bootSteps readFail tileFail (takeOver s)) else s)

/-! ### Download (R450 to R453) -/

/-- The reason that FW_MANIFEST_REFUSED gives for a check of R446 (R451). -/
def refusedParam : Nat → Nat
  | 3 => 0
  | 4 => 1
  | 5 => 2
  | _ => 3

/-- A piece that passed its checks is erased for, programmed and read back (R452). -/
def startPiece (a : Adm) (i : Nat) (d : Bytes) (s : State) : State :=
  admPark a (updFw (fun w => { w with writing := some (i, d) }) (flashStart { s with prov := some { adm := a, kind := .firmware } }))

/-- Piece 0 (R451, R453). -/
def downloadManifest (a : Adm) (d : Bytes) (s : State) : State :=
  if d.length != mfLen then admDone a .invalidField 0 (logEv .fwPieceReject 15 [0, 1] s)
  else if (stagedManifest s).any fun m => mfImageId m == mfImageId d then admDone a .success 0 s
  else match mfFault s d with
    | some r => admDone a .invalidFirmwareImage 0 (logEv .fwManifestRefused 15 [refusedParam r] s)
    | none => startPiece a 0 d (stageRestart s)

/-- The length of a data piece (R445). -/
def pieceLen (m : Bytes) (i : Nat) : Nat := min 65536 (mfImageLen m - 65536 * (i - 1))

/-- A data piece (R451, R452). -/
def downloadData (a : Adm) (i : Nat) (d : Bytes) (s : State) : State :=
  match stagedManifest s with
  | none => admDone a .commandSequenceError 0 s
  | some m =>
    if mfPieces m < i then admDone a .invalidField 0 s
    else if d.length != pieceLen m i then admDone a .invalidField 0 (logEv .fwPieceReject 15 [i, 1] s)
    else if recorded s i then admDone a .success 0 s
    else if sha256 d != mfPieceDigest m i then admDone a .invalidField 0 (logEv .fwPieceReject 15 [i, 0] s)
    else startPiece a i d s

/-- FIRMWARE_IMAGE_DOWNLOAD (R450, R451). -/
def fwDownload (a : Adm) (off : Nat) (d : Bytes) (s : State) : State :=
  if 3 ≤ s.fw.stage then admDone a .commandSequenceError 0 s
  else if off % 65536 != 0 || 383 < off / 65536 then admDone a .invalidField 0 s
  else if off == 0 then downloadManifest a d s
  else downloadData a (off / 65536) d s

def execFirmwareImageDownload (a : Adm) (off : Nat) (d : Bytes) (s : State) : Host.Outcome State Fault Refusal :=
  .next (runAdmin .registry a (.firmwareImageDownload a off d) (fwDownload a off d) s)

/-- Ends the provider-plane operation on the firmware with a status. -/
def fwOpDone (st : Status) (s : State) : State :=
  match s.prov with
  | some p => if p.kind == .firmware then provEnd (admDone p.adm st 0 s) else s
  | none => s

/-- PIECE_WRITE_DONE (R452, R453): the piece is recorded, or its program or read-back failed. A piece of a staging that was cleared
meanwhile is not recorded. -/
def pieceDone (i : Nat) (ok : Bool) (s : State) : State :=
  match s.fw.writing with
  | none => s
  | some (k, d) =>
    if k != i then s
    else
      let s1 := flashEnd (countErases (stagingSector + i) 1 (updFw (fun w => { w with writing := none }) s))
      if !ok || s.fw.flash.failed then fwOpDone .internalError s1
      else if i == 0 then fwOpDone .success (logAppend .manifestOk (updFw (fun w => { w with staging := [(0, d)], stage := 1 }) s1))
      else if s.fw.stage == 0 then fwOpDone .commandSequenceError s1
      else fwOpDone .success (checkWhole (logAppend (.pieceOk i) (updFw (fun w => { w with staging := w.staging ++ [(i, d)] }) s1)))

def execPieceWriteDone (i : Nat) (ok : Bool) (s : State) : Host.Outcome State Fault Refusal := .next (pieceDone i ok s)

/-- DIGEST_CHECK_DONE (R453). -/
def digestCheckDone (s : State) : State :=
  if !s.fw.checking then s
  else if digestsEqual s.fw.staging && !s.fw.flash.failed then updFw (fun w => { w with checking := false, stage := 2 }) s
  else logEv .fwManifestRefused 15 [3] (stageRestart s)

def execDigestCheckDone (s : State) : Host.Outcome State Fault Refusal := .next (digestCheckDone s)

/-! ### Commit (R449, R455, R456) -/

/-- FIRMWARE_COMMIT_RECOVERY (R449, R455): CA 000b writes a COMPLETE recovery image to both boot band copies; an action that the table
does not name fails. -/
def commitRecovery (a : Adm) (ca fs : Nat) (s : State) : State :=
  if ca != 0 then admDone a .invalidField 0 s
  else if fs != 3 then admDone a .invalidFirmwareSlot 0 s
  else if 3 ≤ s.fw.stage then admDone a .firmwareActivationProhibited 0 s
  else if s.fw.stage != 2 || mfKind (manifestOf s.fw.staging) != 1 then admDone a .invalidFirmwareImage 0 s
  else admDone a .success 0 (updFw (fun w => { w with bootBand := [w.staging, w.staging] }) s)

def execFirmwareCommitRecovery (a : Adm) (ca fs : Nat) (s : State) : Host.Outcome State Fault Refusal :=
  .next (runAdmin .registry a (.firmwareCommitRecovery a ca fs) (commitRecovery a ca fs) s)

/-- In recovery mode a control image is written to slot B, then to slot A, and the device restarts (R449). -/
def commitInRecovery (a : Adm) (s : State) : State :=
  let n := stagedCount s + 1
  enterRun (admDone a .success 0 (countErases slotASector n (countErases slotBSector n
    (updFw (fun w => { w with slotA := w.staging, slotB := w.staging }) s))))

/-- A commit of a control image: the slot named, then R456, then what the action does. -/
def commitControl (a : Adm) (fs : Nat) (act : State → State) (s : State) : State :=
  if 1 < fs then admDone a .invalidFirmwareSlot 0 s
  else match commitFault s with
    | some st => admDone a st 0 s
    | none => if s.fw.recovery then commitInRecovery a s else act s

/-- FIRMWARE_COMMIT_NEXT_START (R455): PENDING_START is appended. -/
def commitNext (a : Adm) (fs : Nat) (s : State) : State :=
  commitControl a fs (fun s => admDone a .success 0 (logAppend .pendingStart (updFw (fun w => { w with pendingStart := true }) s))) s

def execFirmwareCommitNextStart (a : Adm) (fs : Nat) (s : State) : Host.Outcome State Fault Refusal :=
  .next (runAdmin .registry a (.firmwareCommitNextStart a fs) (commitNext a fs) s)

/-- FIRMWARE_COMMIT_IMMEDIATE (R97, R455): admin commands are held from now on, and activation starts. -/
def commitNow (a : Adm) (fs : Nat) (s : State) : State :=
  commitControl a fs (fun s => statusVector s (admPark a (updFw (fun w => { w with activating := true, actStep := 1 })
    { s with prov := some { adm := a, kind := .firmware } }))) s

def execFirmwareCommitImmediate (a : Adm) (fs : Nat) (s : State) : Host.Outcome State Fault Refusal :=
  .next (runAdmin .registry a (.firmwareCommitImmediate a fs) (commitNow a fs) s)

/-! ### Live activation (R457) -/

/-- ACTIVATION_START (R457, steps 1 to 3): the staged image is checked, each tile checks the resident part in its standby bank, and
ACTIVATED is appended; or activation ends. -/
def activationStart (residentOk : Bool) (s : State) : State :=
  if s.fw.actStep != 1 then s
  else if !residentOk || (imageFault s s.fw.flash.failed 0 s.fw.staging).isSome then
    statusVector s (activationFails .invalidFirmwareImage s)
  else logAppend .activated (updFw (fun w => { w with actStep := 2, activated := true, stage := 3, pendingStart := false }) s)

def execActivationStart (residentOk : Bool) (s : State) : Host.Outcome State Fault Refusal := .next (activationStart residentOk s)

/-- ACTIVATION_QUIESCENT (R457, step 4): the management cores start from the standby bank. -/
def execActivationQuiescent (s : State) : Host.Outcome State Fault Refusal :=
  .next (if s.fw.actStep == 2 then updFw (fun w => { w with actStep := 3 }) (runStaged s) else s)

/-- ACTIVATION_END (R457, steps 5 and 6). -/
def activationEnd (s : State) : State :=
  if s.fw.actStep != 3 then s
  else
    let m := runManifest s
    statusVector s (fwOpDone .success (logEv .fwActivated 15 [idParam m, mfSecurity m]
      (updFw (fun w => { w with activating := false, actStep := 0 }) s)))

def execActivationEnd (s : State) : Host.Outcome State Fault Refusal := .next (activationEnd s)

/-! ### Confirm and install (R459, R461) -/

/-- FIRMWARE_CONFIRM (R459): CONFIRM_INTENT is appended and the install starts. -/
def fwConfirm (a : Adm) (id : Nat) (s : State) : State :=
  if s.fw.stage != 3 || !s.fw.activated then admDone a .commandSequenceError 0 s
  else if mfImageId (runManifest s) != id then admDone a .invalidField 0 s
  else admDone a .success 0 (logAppend .confirmIntent
    (installCopy 1 (updFw (fun w => { w with intent := true, stage := 4 }) s)))

def execFirmwareConfirm (a : Adm) (id : Nat) (s : State) : Host.Outcome State Fault Refusal :=
  .next (runAdmin .registry a (.firmwareConfirm a id) (fwConfirm a id) s)

/-- INSTALL_STEP_DONE (R461, R463): a slot holds the copy and it has been read back; after slot A the install ends. A copy that fails is
made again, unless the die has failed. -/
def installStep (ok : Bool) (s : State) : State :=
  if s.fw.instStep == 0 then s
  else if s.fw.flash.failed then updFw (fun w => { w with instStep := 0, instDone := 0 }) s
  else if !ok then updFw (fun w => { w with instDone := 0 }) s
  else if s.fw.instStep == 1 then
    installCopy 2 (updFw (fun w => { w with slotB := w.staging }) (countErases slotBSector (installSectors s) s))
  else
    installConfirmed (logAppend .installDone
      (updFw (fun w => { w with slotA := w.staging, installDone := true, run := w.run.map fun r => { r with source := 0 } })
        (flashEnd (countErases slotASector (installSectors s) s))))

def execInstallStepDone (ok : Bool) (s : State) : Host.Outcome State Fault Refusal := .next (installStep ok s)

/-! ### The code-flash sequencer (R438, R441 to R443, R464) -/

/-- CFLASH_OPERATION_DONE (R438, R441, R443): a program or erase ends; the die is failed when one fails twice on the same page or sector,
or takes four times its limit. -/
def flashOpDone (ok : Bool) (us : Nat) (s : State) : State :=
  let c := s.fw.flash
  if c.op == 0 then s
  else
    let limit := if c.op == 2 then 25000 else 1200
    let fails := if ok then 0 else c.fails + 1
    smartRefresh (updFlash (fun c => { c with
      op := if ok then 1 else c.op, fails := fails, failed := c.failed || 2 ≤ fails || 4 * limit < us, idleMs := s.nowMs
      stallMax := max c.stallMax (sat 0xFFFF us), opFail := sat 0xFFFF (c.opFail + b2n (!ok)) }) s)

def execCflashOperationDone (ok : Bool) (us : Nat) (s : State) : Host.Outcome State Fault Refusal := .next (flashOpDone ok us s)

/-- CFLASH_IDLE_OFF (R442). -/
def execCflashIdleOff (s : State) : Host.Outcome State Fault Refusal :=
  .next (if s.fw.flash.op == 0 && s.fw.flash.idleMs + s.gfld .cfc_cfg_idle_off_ms ≤ s.nowMs then
    updFlash (fun c => { c with powered := false }) s else s)

/-- STAGE_CLEAR (R464): a write of FWU_CTRL. -/
def stageClear (v : Nat) (s : State) : State :=
  if !bitOf v 0 then s
  else if 3 ≤ s.fw.stage then reject 15 (bar0 pkgWin 0 .fwuCtrl) 11 s
  else stageRestart s

def execStageClear (v : Nat) (s : State) : Host.Outcome State Fault Refusal :=
  .next (pkgWrite (stageClear v) s)

end Sys2Proof.Machine
end

