-- ==== Sys2Proof/Machine/HealthCmds.lean ====
section
/-!
DEFINITION. Sys2Proof/Machine/HealthCmds.lean: heartbeats and fence requests (R501 to R503), and the supply and reset events of
the package (R401, R428, R466, R513 to R516, R520).
-/
namespace Sys2Proof.Machine
open Sys2Proof

def beatOf (s : State) (t : Nat) : Nat := ((s.mgmt.beats.find? fun b => b.1 == t).map (·.2)).getD 0
def restarting (s : State) (t : Nat) : Option Nat := (s.mgmt.restarts.find? fun r => r.1 == t).map (·.2)
/-- The whole rule is suspended while core_debug_en is 1 (R489, R501). -/
def beatsWatched (s : State) : Bool := s.gfld .glb_debug_core_debug_en == 0

/-- HEARTBEAT (R501): a tile's management cores and the primary have exchanged heartbeats. -/
def execHeartbeat (t : Nat) (s : State) : Host.Outcome State Fault Refusal :=
  .next (if tileUp s t then { s with mgmt := { s.mgmt with
    beats := (t, s.nowMs) :: s.mgmt.beats.filter fun b => b.1 != t
    restarts := s.mgmt.restarts.filter fun r => r.1 != t } } else s)

/-- HEARTBEAT_MISSING (R501): missing for 10 ms; the primary has the tile's management cores restarted. -/
def heartbeatMissing (t : Nat) (s : State) : State :=
  if beatsWatched s && tileUp s t && (restarting s t).isNone && beatOf s t + 10 ≤ s.nowMs then
    { s with mgmt := { s.mgmt with restarts := (t, s.nowMs) :: s.mgmt.restarts } }
  else s

def execHeartbeatMissing (t : Nat) (s : State) : Host.Outcome State Fault Refusal := .next (heartbeatMissing t s)

/-- MGMT_RESTART_TIMEOUT (R501): no heartbeat within 100 ms of the restart; the tile is fenced. -/
def restartExpired (t : Nat) (s : State) : State :=
  match restarting s t with
  | some m => if beatsWatched s && m + 100 ≤ s.nowMs then fenceTile t s else s
  | none => s

def execMgmtRestartTimeout (t : Nat) (s : State) : Host.Outcome State Fault Refusal := .next (restartExpired t s)

/-- FENCE_REQUEST (R502, R503): from the primary, or from the standby once the primary's heartbeat has been missing for
20 ms. The requester is never fenced; a request of a tile that is already fenced is discarded. -/
def fenceRequest (by_ t : Nat) (s : State) : State :=
  let allowed := by_ == s.mgmt.primary || (by_ == s.mgmt.standby && decide (beatOf s s.mgmt.primary + 20 ≤ s.nowMs))
  if allowed && by_ != t && tileUp s by_ then fenceTile t s else s

def execFenceRequest (by_ t : Nat) (s : State) : Host.Outcome State Fault Refusal := .next (fenceRequest by_ t s)

/-! ### Supplies (R401, R513, R514, R516) -/

def updIsland (f : Island → Island) (s : State) : State := { s with island := f s.island }

/-- VAUX_RISE (R424, R514): the island starts afresh and the package is in STANDBY; HOLDUP_EN and HUTEST_EN are low and PFAIL_L
is released. -/
def vauxRise (s : State) : State :=
  if s.island.vaux then s
  else
    let s1 := updIsland (fun i => { i with vaux := true, onVio18 := false, pkg := if i.pkg == 0 then 1 else i.pkg }) s
    emit (.pins [(.holdupEn, false), (.hutestEn, false), (.pfailL, true)])
      (updEvr (fun e => { e with buckets := [], supp := [] })
        (updPlp (fun p => { p with holdupEn := false, hutestEn := false, pfailDriven := false }) s1))

def execVauxRise (s : State) : Host.Outcome State Fault Refusal := .next (vauxRise s)

/-- VAUX_LOW (R513, R520): with main power present the island runs from VIO18 and loses no state. -/
def execVauxLow (s : State) : Host.Outcome State Fault Refusal :=
  .next (if s.island.pkg == 2 then updIsland (fun i => { i with onVio18 := true }) s else s)

/-- VAUX_RETURN (R513). -/
def execVauxReturn (s : State) : Host.Outcome State Fault Refusal := .next (updIsland (fun i => { i with onVio18 := false }) s)

/-- VAUX_LOSS (R401, R419, R428): without main power the island stops; unarchived records not in a dump are lost. -/
def vauxLoss (s : State) : State :=
  if s.island.pkg == 2 && !(s.plp.offReady || s.plp.dump.any fun d => d.complete && !d.restored) then s
  else
    let s1 := stopTiles s
    updIsland (fun i => { i with pkg := 0, vaux := false, onVio18 := false, bport := false })
      { updPlp (fun p => { p with holdupEn := false, hutestEn := false, test := none }) s1 with
        regs := RegFile.reset
        evr := { s1.evr with store := [], raised := [], fresh := true } }

def execVauxLoss (s : State) : Host.Outcome State Fault Refusal := .next (vauxLoss s)

/-- PWR_OK_LOW (R516, R520): 100 ns in RUN declare a power failure; in STANDBY it is ignored. -/
def execPwrOkLow (s : State) : Host.Outcome State Fault Refusal := .next (declareFailure s)

/-- SYS_RST_L_LOW (R516): 10 µs in RUN declare a power failure, and the tiles stay in reset after the dump. -/
def execSysRstLLow (s : State) : Host.Outcome State Fault Refusal :=
  .next (declareFailure (updIsland (fun i => { i with sysRst := true }) s))

/-- SYS_RST_L_RELEASE (R514, R516): with main power the package enters RUN, from STANDBY or once a dump has ended; released
before the dump ends it lets the restart of R312 follow. -/
def sysRstRelease (power : Bool) (s : State) : State :=
  let s1 := updIsland (fun i => { i with sysRst := false }) s
  if !s.island.vaux || !power then s1
  else if s.island.pkg == 1 || (s.island.pkg == 2 && (s.plp.dump.any fun d => d.complete && !d.restored)) then enterRun s1
  else s1

def execSysRstLRelease (power : Bool) (s : State) : Host.Outcome State Fault Refusal := .next (sysRstRelease power s)

/-- BPORT_PERST_L_RELEASE (R466, R514): the board port link begins training and becomes configuration-ready. -/
def execBportPerstLRelease (s : State) : Host.Outcome State Fault Refusal :=
  .next (if s.island.pkg == 2 then updIsland (fun i => { i with bport := true }) s else s)

end Sys2Proof.Machine
end

