-- ==== Sys2Proof/Machine/LogCmds.lean ====
section
/-!
DEFINITION. Sys2Proof/Machine/LogCmds.lean: the log pages (R48, R91, R126, R225, R288, R454, R455, R495 to R500) and Identify
(R52, R53, R55, R59, R60, R102, R110, R391).
-/
namespace Sys2Proof.Machine
open Sys2Proof

/-- The fields of an entry that begins at a byte. -/
def shift (at_ : Nat) (d : List Field) : List Field := d.map fun f => (at_ + f.1, f.2.1, f.2.2)

/-- Fixed-length entries after a header. -/
def entries (start size : Nat) (es : List (List Field)) : List Field := es.zipIdx.flatMap fun e => shift (start + size * e.2) e.1

/-- The namespaces that the issuer sees (R59); on the ring those of the tenant of the provider controller (R474). -/
def seen (s : State) (a : Adm) : List Nat := ((s.reg.nss.filter fun n => visible s a n.nsid).map (·.nsid)).mergeSort (fun x y => decide (x ≤ y))

/-- The namespaces of a page that the ring returns for every namespace (R474). -/
def seenOrAll (s : State) (a : Adm) (n : Nat) : Bool := a == .ring || (seen s a).contains n

/-- A log page for an issuing controller alone: the ring receives Invalid Log Page (R474). -/
def forCtrl (a : Adm) (f : Ctrl → State → State) (s : State) : State :=
  match admCtrl s a with
  | none => admDone a .invalidLogPage 0 s
  | some c => f c s

/-- A log page for the provider controller and the ring (R454, R499). -/
def forProvider (a : Adm) (d : List Field) (s : State) : State :=
  if admProvider s a then admAnswer a d s else admDone a .invalidLogPage 0 s

/-! ### Error Information, Frozen Queues, Tenant Service (R89, R91, R126, R495) -/

def errorFields (e : ErrEntry) : List Field :=
  [(0, 8, e.count), (8, 2, e.sqid), (10, 2, e.cid), (12, 2, 2 * e.status.field), (16, 8, e.lba), (24, 4, e.nsid)]

/-- GET_LOG_PAGE_ERROR_INFORMATION: the newest entry first. -/
def execGetLogPageErrorInformation (a : Adm) (s : State) : Host.Outcome State Fault Refusal :=
  .next (runAdmin .management a (.getLogPageErrorInformation a)
    (forCtrl a fun c s => admAnswer a (entries 0 64 (c.errors.map errorFields)) s) s)

/-- A controller's frozen queues, in the order they froze. -/
def frozenQueues (s : State) (c : Ctrl) : List (Sq × Freeze) :=
  ((s.host.sqs.filter fun q => q.cntlid == c.cntlid).filterMap fun q => q.frozen.map fun f => (q, f)).mergeSort
    (fun x y => decide (x.2.order ≤ y.2.order))

def frozenFields (x : Sq × Freeze) : List Field :=
  [(0, 2, x.1.sqid), (2, 2, x.2.cid), (4, 2, x.2.status.field), (6, 1, b2n x.1.mediaOnly), (8, 8, x.2.error)]

/-- GET_LOG_PAGE_FROZEN_QUEUES (R91): up to 128 entries. -/
def frozenLog (a : Adm) (c : Ctrl) (s : State) : State :=
  let q := (frozenQueues s c).take 128
  admAnswer a ((0, 4, q.length) :: entries 16 16 (q.map frozenFields)) s

def execGetLogPageFrozenQueues (a : Adm) (s : State) : Host.Outcome State Fault Refusal :=
  .next (runAdmin .management a (.getLogPageFrozenQueues a) (forCtrl a (frozenLog a)) s)

/-- The pair records of a controller in the last delivered epoch, for its attached namespaces. -/
def pairRecords (s : State) (c : Ctrl) : List MeterRec :=
  (s.clock.delivered.filter fun r => r.kind == 0 && r.inc == c.inc && attachedTo s c r.nsid).take 63

/-- GET_LOG_PAGE_TENANT_SERVICE (R126). -/
def tenantLog (a : Adm) (c : Ctrl) (s : State) : State :=
  let rs := pairRecords s c
  admAnswer a ([(0, 4, s.clock.epoch), (4, 8, c.demotions), (12, 4, rs.length)] ++ entries 64 64 (rs.map MeterRec.fields)) s

def execGetLogPageTenantService (a : Adm) (s : State) : Host.Outcome State Fault Refusal :=
  .next (runAdmin .management a (.getLogPageTenantService a) (forCtrl a (tenantLog a)) s)

/-! ### SMART / Health and endurance groups (R496 to R499) -/

/-- Sums of what SMART counts over some namespaces. -/
def sumNs (s : State) (ns : List Nat) (f : NsCount → Nat) : Nat :=
  ((s.health.nsCounts.filter fun c => ns.contains c.nsid).map f).sum

/-- Data units of 512,000 bytes, rounded up. -/
def units512 (bytes : Nat) : Nat := ceilDiv bytes 512000

/-- The endurance groups of some namespaces. -/
def egsOf (s : State) (ns : List Nat) : List Eg :=
  s.reg.egs.filter fun g => s.reg.nss.any fun n => ns.contains n.nsid && n.endgid == g.id

/-- The lowest temperature of a bin, in °C (R396). -/
def binLow (k : Nat) : Nat := if k == 0 then 0 else 40 + 5 * (k - 1)

/-- Minutes of the composite temperature at or above a threshold: those of the bins from it on, on the tile with the most. -/
def minutesAbove (s : State) (c : Nat) : Nat :=
  ((s.therm.tiles.map fun x => ((x.hist.zipIdx.filter fun b => decide (c ≤ binLow b.2)).map (·.1)).sum).max?).getD 0

/-- The SMART / Health page over some namespaces (R496). -/
def smartFields (s : State) (a : Adm) (ns : List Nat) : List Field :=
  let gs := egsOf s ns
  let temp := fun (t : Nat) => if tileUp s t then ((hottest s t).map kelvin).getD 0 else 0
  [(0, 1, s.health.crit), (1, 2, ((composite s).map kelvin).getD 0), (3, 1, ((gs.map (availableSpare s)).min?).getD 100),
   (4, 1, spareThreshold), (5, 1, ((gs.map (percentUsed s)).max?).getD 0),
   (32, 16, units512 (sumNs s ns (·.read))), (48, 16, units512 (sumNs s ns (·.written))),
   (64, 16, sumNs s ns (·.reads)), (80, 16, sumNs s ns (·.writes)), (112, 16, s.island.cycles),
   (128, 16, s.island.minutes / 60), (144, 16, s.health.unsafeShutdowns), (160, 16, sumNs s ns (·.errors)),
   (176, 16, ((admCtrl s a).map (·.errorCount)).getD 0), (192, 4, minutesAbove s (wctemp s)), (196, 4, minutesAbove s (cctemp s))] ++
  (List.range 8).map fun t => (200 + 2 * t, 2, temp t)

/-- GET_LOG_PAGE_SMART_HEALTH (R59, R496): of one namespace, or of all that the issuer sees. -/
def smartLog (a : Adm) (n : Nat) (s : State) : State :=
  if n == 0 || n == 0xFFFFFFFF then admAnswer a (smartFields s a (seen s a)) s
  else if (seen s a).contains n then admAnswer a (smartFields s a [n]) s
  else admDone a .invalidNamespaceOrFormat 0 s

def execGetLogPageSmartHealth (a : Adm) (n : Nat) (s : State) : Host.Outcome State Fault Refusal :=
  .next (runAdmin .management a (.getLogPageSmartHealth a n) (smartLog a n) s)

/-- The Endurance Group Information page of a group over some namespaces (R498). -/
def egFields (s : State) (g : Eg) (ns : List Nat) : List Field :=
  [(0, 1, egWarning s g), (3, 1, availableSpare s g), (4, 1, spareThreshold), (5, 1, percentUsed s g),
   (48, 16, units512 (sumNs s ns (·.read))), (64, 16, units512 (sumNs s ns (·.written))),
   (80, 16, units512 (((s.health.counts.find? fun c => c.1 == g.id).map (·.2)).getD 0)),
   (160, 16, usable s g), (176, 16, usable s g * g.ratioPct / 100 - provisioned s g.id)]

/-- GET_LOG_PAGE_ENDURANCE_GROUP (R498, R499): a tenant controller's counts are those of its namespaces. -/
def egLog (a : Adm) (id : Nat) (s : State) : State :=
  match findEg s id with
  | none => admDone a .invalidField 0 s
  | some g =>
    let mine := (s.reg.nss.filter fun n => n.endgid == id && (admProvider s a || (seen s a).contains n.nsid)).map (·.nsid)
    admAnswer a (egFields s g mine) s

def execGetLogPageEnduranceGroup (a : Adm) (id : Nat) (s : State) : Host.Outcome State Fault Refusal :=
  .next (runAdmin .management a (.getLogPageEnduranceGroup a id) (egLog a id) s)

/-! ### Firmware (R454, R455) -/

/-- The firmware revision of a manifest (R445). -/
def mfRev (m : Bytes) : Nat := mfNum m 32 8

/-- The slot that the last start loaded: 1 slot A, 2 slot B, 3 the recovery image. -/
def startSlot (s : State) : Nat := if s.fw.recovery then 3 else if s.fw.bootReason == 15 then 1 else 2

/-- GET_LOG_PAGE_FIRMWARE_SLOT (R455). -/
def slotFields (s : State) : List Field :=
  [(0, 1, startSlot s), (8, 8, mfRev (manifestOf s.fw.slotA)), (16, 8, mfRev (manifestOf s.fw.slotB)),
   (24, 8, mfRev (manifestOf ((s.fw.bootBand.find? fun g => !g.isEmpty).getD [])))]

def execGetLogPageFirmwareSlot (a : Adm) (s : State) : Host.Outcome State Fault Refusal :=
  .next (runAdmin .management a (.getLogPageFirmwareSlot a) (fun s => admAnswer a (slotFields s) s) s)

/-- The Firmware Staging page (R454). -/
def stagingFields (s : State) : List Field :=
  let m := (stagedManifest s).getD []
  [(0, 1, s.fw.stage), (1, 1, b2n s.fw.pendingStart + 2 * b2n s.fw.recovery + 4 * b2n s.fw.fallback + 8 * b2n s.fw.checking),
   (2, 2, piecesMissing s), (4, 2, stagedCount s), (6, 1, (s.fw.run.map (·.source)).getD 0), (7, 1, s.fw.instStep),
   (8, 8, mfImageId m), (16, 8, mfImageId (runManifest s)), (24, 4, mfSecurity m), (28, 4, floorOf s), (32, 8, mfRev m),
   (40, 2, installSectors s), (42, 2, s.fw.instDone), (48, 48, pieceMap s)]

/-- GET_LOG_PAGE_FIRMWARE_STAGING (R454). -/
def execGetLogPageFirmwareStaging (a : Adm) (s : State) : Host.Outcome State Fault Refusal :=
  .next (runAdmin .management a (.getLogPageFirmwareStaging a) (fun s => forProvider a (stagingFields s) s) s)

/-! ### Discovery (R48) -/

/-- A host is admitted through a tile: a tenant names it, or it is the provider's host there (R48, R58, R105). -/
def admits (s : State) (t : Nat) (nqn : Bytes) : Bool := (identTenant s (.nqn nqn)).isSome || designated s (.nqn nqn) t

/-- The transports that a port's interfaces serve: 3 TCP, 1 RDMA. -/
def portTransports (s : State) (t p : Nat) : List Nat :=
  let ifs := s.reg.netifs.filter fun n => n.tile == t && n.port == p
  (if ifs.any fun n => bitOf n.flags 3 then [3] else []) ++ (if ifs.any fun n => bitOf n.flags 4 then [1] else [])

/-- The entries for a host: the port ID, tile × 4 + port index, and the transport, of every Ethernet port that is up. -/
def discoveryEntries (s : State) (nqn : Bytes) : List (Nat × Nat) :=
  (upTiles s).flatMap fun t => if admits s t nqn then
    ((List.range 4).filter (portUp s t)).flatMap fun p => (portTransports s t p).map fun x => (4 * t + p, x)
  else []

/-- GET_LOG_PAGE_DISCOVERY: answered by the discovery controller of the connection's port. -/
def discoveryLog (id : Nat) (s : State) : State :=
  match liveConn s id with
  | none => s
  | some k => if k.discovery && k.bound then emit (.discovery id (discoveryEntries s k.nqn)) s else s

def execGetLogPageDiscovery (id : Nat) (s : State) : Host.Outcome State Fault Refusal :=
  .next (runAdmin .management (.conn id) (.getLogPageDiscovery id) (discoveryLog id) s)

/-! ### Secure deallocation, lost ranges, device health (R225, R288, R497, R500) -/

def sweepFields (s : State) (w : Sweep) : List Field :=
  [(0, 4, w.id), (4, 4, w.nsid), (8, 1, if w.state == 1 && !summariesReady s then 0 else w.state), (10, 2, w.unerased),
   (12, 4, w.bands.length + w.doneBands), (16, 4, w.doneBands), (20, 8, w.relocBytes), (28, 4, w.startMin)]

/-- GET_LOG_PAGE_SECURE_DEALLOC_PROGRESS (R225). -/
def sweepLog (a : Adm) (s : State) : State :=
  let ws := s.rcl.sweeps.filter fun w => w.kept && seenOrAll s a w.nsid
  admAnswer a ((0, 4, ws.length) :: entries 16 32 (ws.map (sweepFields s))) s

def execGetLogPageSecureDeallocProgress (a : Adm) (s : State) : Host.Outcome State Fault Refusal :=
  .next (runAdmin .management a (.getLogPageSecureDeallocProgress a) (sweepLog a) s)

/-- The first 28 bytes of a lost-range entry (R288). -/
def lostBytes (l : LostRange) : Bytes :=
  toLE 1 0x16 ++ toLE 1 l.cause ++ toLE 2 l.sg ++ toLE 4 l.nsid ++ toLE 8 l.lba ++ toLE 2 l.count ++ toLE 2 l.die ++
  toLE 4 l.minutes ++ toLE 4 l.seq

def lostFields (l : LostRange) : List Field := [(0, 28, ofLE (lostBytes l)), (28, 4, crc32c (lostBytes l))]

/-- GET_LOG_PAGE_LOST_RANGES (R288, R497): the newest entry first; a read by the provider or the board with Retain Asynchronous Event
cleared clears what bit 2 of the critical warning has from a dump or lost ranges. -/
def lostLog (a : Adm) (rae : Bool) (s : State) : State :=
  let ls := (s.red.lost.filter fun l => seenOrAll s a l.nsid).reverse
  let s1 := if !rae && admProvider s a then smartRefresh { s with health := { s.health with lostUnread := false } } else s
  admAnswer a ([(0, 4, ls.length), (4, 8, s.red.lostTotal)] ++ entries 16 32 (ls.map lostFields)) s1

def execGetLogPageLostRanges (a : Adm) (rae : Bool) (s : State) : Host.Outcome State Fault Refusal :=
  .next (runAdmin .management a (.getLogPageLostRanges a rae) (lostLog a rae) s)

/-- An endurance group's entry of the Device Health page (R500). -/
def egHealth (s : State) (g : Eg) : List Field :=
  let has := fun st => (s.red.groups.any fun x => g.groups.contains x.sg && x.state == st)
  let wear := (s.rcl.blocks.filter fun b => (diesOfEg s g).contains b.die).map (·.wear)
  let stored := ((s.reg.nss.filter fun n => n.endgid == g.id).map fun n => storedGrains s n.nsid).sum
  [(0, 1, g.id),
   (1, 1, b2n g.stalemate + 2 * b2n (decide (availableSpare s g < spareThreshold)) + 4 * b2n (has .degraded) +
     8 * b2n (has .exposed) + 16 * b2n (has .unavailable)),
   (2, 1, percentUsed s g), (3, 1, availableSpare s g), (4, 4, sparesNow s g),
   (8, 4, (g.groups.map fun sg => (freeBands s sg).length).sum), (12, 4, ceilDiv (stored * 256) (2 ^ 30)),
   (16, 4, (wear.max?).getD 0), (20, 4, (wear.min?).getD 0)]

/-- The Device Health page (R500). -/
def healthFields (s : State) : List Field :=
  let hist := fun (t : Nat) => ((s.therm.tiles.find? fun x => x.tile == t).map (·.hist)).getD []
  [(0, 2, 1), (2, 1, bitMask 8 fun t => (upTiles s).contains t), (3, 1, bitMask 8 fun t => s.island.fenced.contains t),
   (4, 1, s.health.crit), (5, 1, (s.plp.causes.min?).getD 0), (6, 1, s.plp.result),
   (8, 8, bitMask 64 fun c => s.media.chans.any fun x => x.ch == c && x.state == .failed),
   (16, 2, (s.media.dies.filter (·.failed)).length), (18, 2, (s.red.groups.filter fun g => g.state != .optimal).length),
   (20, 2, sat 0xFFFF (s.plp.capUf / 100)), (22, 2, s.plp.passEsr), (24, 4, s.plp.testMin), (28, 4, s.plp.limitMib)] ++
  (List.range 11).map (fun i => (32 + 8 * i, 8, s.health.life.getD i 0)) ++ [(120, 8, s.red.lostTotal)] ++
  (List.range s.ident.part.tiles).flatMap (fun t => (List.range 16).map fun k => (128 + 64 * t + 4 * k, 4, (hist t).getD k 0)) ++
  s.reg.egs.flatMap fun g => shift (640 + 24 * (g.id - 1)) (egHealth s g)

/-- GET_LOG_PAGE_DEVICE_HEALTH (R499, R500). -/
def execGetLogPageDeviceHealth (a : Adm) (s : State) : Host.Outcome State Fault Refusal :=
  .next (runAdmin .management a (.getLogPageDeviceHealth a) (fun s => forProvider a (healthFields s) s) s)

end Sys2Proof.Machine
end

