-- ==== Sys2Proof/Machine/IdentifyCmds.lean ====
section
/-!
DEFINITION. Sys2Proof/Machine/IdentifyCmds.lean: Identify (R52, R53, R55, R59, R60, R102, R110, R391, R474). The places of the fields are
those of the NVM Express specifications; a field that the manual does not state is open.
-/
namespace Sys2Proof.Machine
open Sys2Proof

/-- Runs of bytes of a structure that the manual does not state. -/
def openBytes (cns : Nat) (rs : List (Nat × Nat)) : List Field :=
  rs.map fun r => (r.1, r.2, Config.identifyOpen cns r.1 % 256 ^ r.2)

/-- The Identify Controller structure (CNS 01h). OACS tells Format NVM, the firmware commands and namespace management, and only to the
provider (R53); CMIC tells that ANA is supported. -/
def controllerFields (s : State) (a : Adm) : List Field :=
  let cntlid := ((admCtrl s a).map (·.cntlid)).getD 0
  [(64, 8, mfRev (runManifest s)), (76, 1, setBit (Config.identifyOpen 1 76 % 256) 3 true), (77, 1, 8), (78, 2, cntlid),
   (80, 4, 0x00020100), (256, 2, if admProvider s a then 14 else 0), (266, 2, wctemp s + 273), (268, 2, cctemp s + 273),
   (320, 2, 1), (342, 1, 10), (344, 4, 1), (348, 4, 1), (516, 4, s.ident.part.namespaces), (525, 1, 0), (526, 2, 255), (528, 2, 255)] ++
  openBytes 1 [(0, 64), (72, 4), (84, 172), (258, 8), (270, 50), (322, 20), (343, 1), (352, 164), (520, 5), (530, 3566)]

/-- The Identify Namespace structure (CNS 00h and 11h): one LBA format of 4,096 bytes, no metadata, ANA group 1 (R52, R60); the grains that
live extents occupy (R110) and the present limits (R102). -/
def namespaceFields (s : State) (n : Ns) : List Field :=
  [(0, 8, n.nsze), (8, 8, n.ncap), (16, 8, n.nuse), (25, 1, 0), (26, 1, 0), (27, 1, 0), (28, 1, 0), (29, 1, 0), (30, 1, 1), (31, 1, 0),
   (40, 2, 0), (44, 2, 0), (92, 4, 1), (100, 2, ((egOf s n.nsid).map (·.nvmSet)).getD 0), (102, 2, n.endgid), (128, 4, 12 * 2 ^ 16), (3848, 8, storedGrains s n.nsid),
   (3856, 4, n.limits.rdIops), (3860, 4, n.limits.wrIops), (3864, 4, n.limits.rdMbps), (3868, 4, n.limits.wrMbps),
   (3872, 2, n.limits.burstMs)] ++
  openBytes 0 [(24, 1), (32, 8), (42, 2), (46, 46), (96, 4), (104, 24), (132, 3716), (3874, 222)]

/-- An entry of the NVM Set list: the set, its endurance group, the capacity of the group and what is not provisioned of it (R107, R108). -/
def setFields (s : State) (g : Eg) : List Field :=
  [(0, 2, g.nvmSet), (2, 2, g.id), (16, 16, usable s g), (32, 16, usable s g - provisioned s g.id)]

/-- A list of identifiers above one, lowest first, as Identify lists give them. -/
def idList (size per : Nat) (ids : List Nat) : List Field := (ids.take per).zipIdx.map fun i => (size * i.2, size, i.1)

/-- Namespaces that the issuer may name in the structures of allocated namespaces (R59). -/
def allocated (s : State) (a : Adm) : List Nat := if admProvider s a then managedIds s else seen s a

/-- Answers with a namespace's structure, or Invalid Namespace or Format where the issuer may not name it (R59). -/
def namespaceAnswer (a : Adm) (may : List Nat) (n : Nat) (s : State) : State :=
  match (nsOf s n).filter fun _ => may.contains n with
  | none => admDone a .invalidNamespaceOrFormat 0 s
  | some x => admAnswer a (namespaceFields s x) s

/-- IDENTIFY (R59): the controller, namespaces and their lists, limited to what the issuer sees; the allocated namespaces, every one for
the provider; the controllers that have a namespace, and the endurance groups. -/
def identify (a : Adm) (cns n : Nat) (s : State) : State :=
  let above := fun (l : List Nat) => l.filter fun i => decide (n < i)
  match cns with
  | 0x00 => namespaceAnswer a (seen s a) n s
  | 0x01 => admAnswer a (controllerFields s a) s
  | 0x02 => admAnswer a (idList 4 1024 (above (seen s a))) s
  | 0x03 => if (seen s a).contains n then admAnswer a (openBytes 3 [(0, 4096)]) s else admDone a .invalidNamespaceOrFormat 0 s
  | 0x04 => admAnswer a ((0, 1, s.reg.egs.length) :: entries 128 128 (s.reg.egs.map (setFields s)))
    s
  | 0x10 => admAnswer a (idList 4 1024 (above (allocated s a))) s
  | 0x11 => namespaceAnswer a (allocated s a) n s
  | 0x12 =>
    if !admProvider s a then admDone a .invalidField 0 s
    else if !(allocated s a).contains n then admDone a .invalidNamespaceOrFormat 0 s
    else
      let ids := ((s.host.ctrls.filter fun c => attachedTo s c n).map (·.cntlid)).mergeSort (fun x y => decide (x ≤ y))
      admAnswer a ((0, 2, ids.length) :: shift 2 (idList 2 2047 ids)) s
  | 0x13 =>
    if !admProvider s a then admDone a .invalidField 0 s
    else
      let ids := (s.host.ctrls.map (·.cntlid)).mergeSort (fun x y => decide (x ≤ y))
      admAnswer a ((0, 2, ids.length) :: shift 2 (idList 2 2047 ids)) s
  | _ => admDone a .invalidField 0 s

def execIdentify (a : Adm) (cns n : Nat) (s : State) : Host.Outcome State Fault Refusal :=
  .next (runAdmin .management a (.identify a cns n) (identify a cns n) s)

end Sys2Proof.Machine
end

