-- ==== Sys2Proof/Machine/IoCmds.lean ====
section
/-!
DEFINITION. Sys2Proof/Machine/IoCmds.lean: Read, Write, Flush, Compare, Write Zeroes, Verify and Dataset Management
(R30, R35, R74, R93, R110, R182, R215, R216, R218 to R224).
-/
namespace Sys2Proof.Machine
open Sys2Proof

/-- Runs an I/O command that is admitted and not started, if it is one of these and nothing refuses it. -/
def startIo (is : IoOp → Bool) (checkLength : Bool) (id : Nat) (body : Cmd → State → State) (s : State) : State :=
  match findCmd s id with
  | none => s
  | some c =>
    if c.phase != .admitted || !is c.cap.op then s
    else match ioRefusal s c with
    | some st => pump (finishCmd id st 0 s)
    | none => match (if checkLength then lengthFault s c else none) with
      | some st => pump (finishCmd id st 0 s)
      | none => pump (body c s)

/-- Reserves the buffers of a command: for its data beyond what its capsule holds, and for a write the largest possible
output (R70, R169, R182). None when a pool refuses: the command stays unstarted. -/
def reserveFor (c : Cmd) (s : State) : Option State :=
  if !c.bufs.isEmpty then some s
  else
    let data := dataLen c.cap - c.cap.inCap.length
    let out := if c.cap.op == .write then 256 * (cutAt 16 (c.cap.nlb + 1) c.cap.slba c.cap.nlb).foldl (fun n p => n + rawCost p.2) 0
      else 0
    (allocateAll c.tile c.cls (chunks data ++ chunks out) s).map fun x => updCmd c.id (fun c => { c with bufs := x.2 }) x.1

/-- READ (R30, R70, R74, R329): its buffers are reserved, then its lookups start. -/
def beginRead (c : Cmd) (s : State) : State :=
  match reserveFor c s with
  | none => s
  | some s1 => startRead c.id s1

def execRead (id : Nat) (s : State) : Host.Outcome State Fault Refusal :=
  .next (startIo (· == .read) true id beginRead s)

/-- Writes to an endurance group are held at admission while its map band is nearly full (R151) or while no group of it
can open a host band and reclaim can still gain one (R215). -/
def writesHeld (s : State) (eg : Nat) : Bool := s.map.bandHigh.contains eg || waitsForReclaim s eg

/-- WRITE (R35, R110, R182, R216). -/
def startWrite (c : Cmd) (s : State) : State :=
  match egOf s c.cap.nsid with
  | none => finishCmd c.id .internalError 0 s
  | some g =>
    if g.stalemate then finishCmd c.id .namespaceWriteProtected 0 s
    else if writesHeld s g.id then s
    else match chargeWrite c s with
    | none => finishCmd c.id .capacityExceeded 0 s
    | some s1 => match reserveFor c s1 with
      | none => s
      | some s2 => fetchData c.id s2

/-- A write whose data is complete and that waits for sequence values is taken up again. -/
def execWrite (id : Nat) (s : State) : Host.Outcome State Fault Refusal :=
  .next (match findCmd s id with
    | none => s
    | some c =>
      if c.phase == .dataFetch && c.cap.op == .write && dataLen c.cap ≤ c.data.length then processWrite id s
      else startIo (· == .write) true id startWrite s)

/-- FLUSH (R93): at once in normal mode; in write-through mode once the writes that had completed when it arrived are programmed. -/
def startFlush (c : Cmd) (s : State) : State :=
  if !mayMap s c then s
  else if !s.plp.writeThrough then finishCmd c.id .success 0 s
  else drainPump (updCmd c.id (fun c => { c with phase := .draining, took := true }) s)

def execFlush (id : Nat) (s : State) : Host.Outcome State Fault Refusal :=
  .next (startIo (· == .flush) false id startFlush s)

/-- COMPARE (R74): the host's data is fetched, then the blocks are read and compared. -/
def startCompare (c : Cmd) (s : State) : State :=
  match reserveFor c s with
  | none => s
  | some s1 => fetchData c.id s1

def execCompare (id : Nat) (s : State) : Host.Outcome State Fault Refusal :=
  .next (startIo (· == .compare) true id startCompare s)

/-- VERIFY (R74): the blocks are read and checked, and no data is returned. -/
def execVerify (id : Nat) (s : State) : Host.Outcome State Fault Refusal :=
  .next (startIo (· == .verify) false id (fun c s => startRead c.id s) s)

/-- The map step of a command that only unmaps or zeroes (R167, R218, R219). -/
def planMap (c : Cmd) (ps : List Plan) (s : State) : State :=
  goMap c.id (updCmd c.id (fun c => { c with phase := .staging, plan := ps }) s)

/-- WRITE_ZEROES (R110, R167, R216, R219): zero spans, one write sequence value, charged as a write; with DEAC it
unmaps. -/
def startWriteZeroes (c : Cmd) (s : State) : State :=
  match egOf s c.cap.nsid with
  | none => finishCmd c.id .internalError 0 s
  | some g =>
    if g.stalemate then finishCmd c.id .namespaceWriteProtected 0 s
    else match c.cap.op with
    | .writeZeroes true => startUnmap c [(c.cap.slba, c.cap.nlb)] s
    | _ => match chargeWrite c s with
      | none => finishCmd c.id .capacityExceeded 0 s
      | some s1 => match takeSeqs c.tile 1 s1 with
        | none => s
        | some (qs, s2) =>
          planMap c [{ lba := c.cap.slba, count := c.cap.nlb, seq := (qs.head?).getD 0, gen := slotGen s c.cap.nsid, kind := .zero }] s2
where
  /-- An unmap, secure where the namespace's deallocations are (R218 to R224). -/
  startUnmap (c : Cmd) (rs : List (Nat × Nat)) (s : State) : State :=
    let secure := ((nsOf s c.cap.nsid).map (·.secure)).getD false
    let plan := (rs.filter fun r => r.2 != 0).map fun r =>
      ({ lba := r.1, count := r.2, seq := 0, gen := 0, kind := .unmap } : Plan)
    if !secure then planMap c plan s
    else match openSweep c rs s with
      | none => s
      | some s1 => planMap c plan s1

def execWriteZeroes (id : Nat) (s : State) : Host.Outcome State Fault Refusal :=
  .next (startIo (fun o => o == .writeZeroes true || o == .writeZeroes false) false id startWriteZeroes s)

def isDsm : IoOp → Bool
  | .datasetManagement _ _ => true
  | _ => false

/-- DATASET_MANAGEMENT (R64, R218, R220, R223): with the deallocate attribute up to 256 ranges are unmapped; without it
nothing changes. -/
def startDsm (c : Cmd) (s : State) : State :=
  match c.cap.op with
  | .datasetManagement true rs => startWriteZeroes.startUnmap c rs s
  | _ => if mayMap s c then finishCmd c.id .success 0 s else s

def execDatasetManagement (id : Nat) (s : State) : Host.Outcome State Fault Refusal :=
  .next (startIo isDsm true id startDsm s)

end Sys2Proof.Machine
end

