-- ==== Sys2Proof/Machine/QueueCmds.lean ====
section
/-!
DEFINITION. Sys2Proof/Machine/QueueCmds.lean: fetch and arbitration, rate limits, the queue engine's admin commands and
the features (R56, R57, R66 to R97).
-/
namespace Sys2Proof.Machine
open Sys2Proof

/-! ### Fetch and arbitration (R67 to R72, R78, R79, R82) -/

/-- Entries in host memory from the heads of PCIe queues on, by controller and queue. -/
abbrev HostEntries := List (Nat × Nat × List Capsule)

/-- What one read of a PCIe queue fetches: up to 8 entries that follow its head, not past its tail and not past the end of its
ring (R67). -/
def readEntries (q : Sq) (es : HostEntries) : List Capsule :=
  let n := if q.head ≤ q.tail then q.tail - q.head else q.size - q.head
  (((es.find? fun e => e.1 == q.cntlid && e.2.1 == q.sqid).map (·.2.2)).getD []).take (min 8 n)

/-- The command at the head of a queue: the oldest capsule received or entry read, else the first entry that a read would fetch. -/
def headOf (q : Sq) (es : HostEntries) : Option Capsule :=
  match q.recv with
  | a :: _ => some a.cap
  | [] => if q.transport == .pcie then (readEntries q es).head? else none

/-- Reads entries of a PCIe queue that has none left (R67). The head passes what is read. -/
def readAhead (es : HostEntries) (q : Sq) (s : State) : State :=
  if q.transport != .pcie || !q.recv.isEmpty then s
  else
    let l := readEntries q es
    updSq q.cntlid q.sqid (fun q => { q with
      recv := l.map fun k => { cap := k, waits := flushWaits s q.cntlid k }, head := (q.head + l.length) % q.size }) s

/-- A free entry in a completion queue (R69). -/
def cqRoom (s : State) (q : Sq) : Bool :=
  match findCq s q.cntlid q.cqid with
  | none => false
  | some c => decide ((c.tail + c.size - c.head) % c.size + c.reserved + 1 < c.size) ||
      (q.transport != .pcie && decide (c.reserved < c.size))

/-- Whether a queue can fetch its next command: its controller runs, the queue is not frozen (R89), a completion entry is
free (R69), and the hold list of the namespace is not full (R82). -/
def canFetch (s : State) (entry : HostEntries) (q : Sq) : Bool :=
  match findCtrl s q.cntlid, headOf q entry with
  | some c, some k =>
    !c.shutting && (c.enabled || (q.sqid == 0 && q.transport != .pcie)) && q.frozen.isNone && cqRoom s q &&
    (q.sqid == 0 || (costs k).isEmpty || decide ((holdList s q.tile k.nsid).length < 256))
  | _, _ => false

/-- A queue that is served in step 1 of R78. -/
def isUrgent (c : Ctrl) (q : Sq) : Bool := q.sqid == 0 || (queueClass c q == 0 && c.budgetLeft != 0)

def ctrlUrgent (s : State) (entry : HostEntries) (t : Nat) (c : Ctrl) : Bool :=
  s.host.sqs.any fun q => q.cntlid == c.cntlid && q.tile == t && canFetch s entry q && isUrgent c q

def ctrlPlain (s : State) (entry : HostEntries) (t : Nat) (c : Ctrl) : Bool :=
  s.host.sqs.any fun q => q.cntlid == c.cntlid && q.tile == t && canFetch s entry q && !isUrgent c q

/-- The elements of a list in turn, those that come after the one served last first. -/
def rotate {α : Type} (key : α → Nat) (last : Nat) (l : List α) : List α :=
  (l.filter fun x => last < key x) ++ l.filter fun x => key x ≤ last

/-- A burst: 2 to the power of the Arbitration Burst, at most 8; 111b means 8 (R78). -/
def burstSize (c : Ctrl) : Nat := if c.arbBurst == 7 then 8 else min (2 ^ c.arbBurst) 8

/-- Units of 4 KiB charged for a command (R79). -/
def unitsOf (c : Capsule) : Nat := max 1 (ceilDiv (dataLen c) 4096)

def arbOf (s : State) (t : Nat) : Arb :=
  (s.host.arb.find? fun a => a.tile == t).getD
    { tile := t, lastCtrl := 0, lastUrgent := 0, burst := 0, lastSq := [], classCredit := [] }

def setArb (a : Arb) (s : State) : State :=
  { s with host := { s.host with arb := (s.host.arb.filter fun b => !(b.tile == a.tile)) ++ [a] } }

/-- The queue of a class that was served last by round robin (R78). -/
def lastOf (a : Arb) (cntlid cls : Nat) : Nat :=
  ((a.lastSq.find? fun x => x.1 == cntlid && x.2.1 == cls).map (·.2.2)).getD 0

/-- The next urgent queue of a controller: its admin queue first, then its H0 queues round robin (R78). -/
def pickUrgentSq (s : State) (entry : HostEntries) (a : Arb) (t : Nat) (c : Ctrl) : Option Sq :=
  let qs := s.host.sqs.filter fun q => q.cntlid == c.cntlid && q.tile == t && canFetch s entry q && isUrgent c q
  match qs.find? (fun q => q.sqid == 0) with
  | some q => some q
  | none => (rotate (·.sqid) (lastOf a c.cntlid 0) qs).head?

/-- The weight of a class within its controller: HPW, MPW and LPW, each plus 1 (R78). An H0 queue without budget is
served as H1 (R72). -/
def arbWeight (c : Ctrl) : Nat → Nat
  | 2 => c.arbWeights.2.1 + 1
  | 3 => c.arbWeights.2.2 + 1
  | _ => c.arbWeights.1 + 1

def creditOf (a : Arb) (cntlid cls : Nat) : Nat :=
  ((a.classCredit.find? fun x => x.1 == cntlid && x.2.1 == cls).map (·.2.2)).getD 0

/-- The next other queue of a controller: weighted round robin over H1, H2 and H3, round robin within a class; in STRICT
and EN_PASSANT plain round robin (R78). Answers the queue and the arbitration with its credits after the choice. -/
def pickPlainSq (s : State) (entry : HostEntries) (a : Arb) (t : Nat) (c : Ctrl) : Option (Sq × Arb) :=
  let qs := s.host.sqs.filter fun q => q.cntlid == c.cntlid && q.tile == t && canFetch s entry q && !isUrgent c q
  let cls := fun q => max 1 (queueClass c q)
  let present := [1, 2, 3].filter fun k => qs.any fun q => cls q == k
  let fresh := present.all fun k => creditOf a c.cntlid k == 0
  let credit := fun k => if fresh then arbWeight c k else creditOf a c.cntlid k
  match present.find? (fun k => credit k != 0) with
  | none => none
  | some k =>
    match (rotate (·.sqid) (lastOf a c.cntlid k) (qs.filter fun q => cls q == k)).head? with
    | none => none
    | some q =>
      let others := a.classCredit.filter fun x => x.1 != c.cntlid
      let mine := present.map fun j => (c.cntlid, j, if j == k then credit j - 1 else credit j)
      some (q, { a with
        classCredit := others ++ mine
        lastSq := (a.lastSq.filter fun x => !(x.1 == c.cntlid && x.2.1 == k)) ++ [(c.cntlid, k, q.sqid)] })

/-- A controller's deficit on a tile (R79). -/
def deficitOn (c : Ctrl) (t : Nat) : Int := ((c.deficits.find? fun d => d.1 == t).map (·.2)).getD 0
def setDeficit (t : Nat) (d : Int) (c : Ctrl) : Ctrl :=
  { c with deficits := (c.deficits.filter fun x => x.1 != t) ++ (if d == 0 then [] else [(t, d)]) }

/-- The rounds a controller waits on a tile until its deficit there covers a charge (R79). -/
def roundsFor (c : Ctrl) (t need : Nat) : Nat :=
  if (need : Int) ≤ deficitOn c t then 0 else ceilDiv ((need : Int) - deficitOn c t).toNat (max 1 c.share)

/-- The pause ends as the capsules of a priority fall below the threshold (R44). -/
def pfcAfterFetch (old : State) (q : Sq) (s : State) : State :=
  match s.host.conns.find? fun k => k.bound && k.cntlid == q.cntlid && k.sqid == q.sqid with
  | some k => pfcChange old k s
  | none => s

/-- The effect of the fetch of one command from a queue: its record, its class (R72), the charge (R79), the reserved
completion entry (R69), and the queue's new head. -/
def fetchFrom (q : Sq) (r : Arrival) (c : Ctrl) (s : State) : State :=
  let k := r.cap
  let qc := queueClass c q
  let cls := if q.sqid == 0 then PClass.m else if qc == 0 && c.budgetLeft == 0 then .h1 else hostClass qc
  let urgent := q.sqid != 0 && qc == 0
  let cmd : Cmd :=
    { id := s.host.nextCmd, tile := q.tile, cntlid := q.cntlid, payer := c.payer, sqid := q.sqid, cap := k, cls := cls,
      phase := if q.sqid == 0 && isAdmin k.op then .running else .admitted, data := [], pieces := [], extents := [],
      updates := [], status := .success, dw0 := 0, discard := false, took := false, plan := [], sweep := 0, sweepSync := false,
      bufs := [], fetchMs := s.nowMs, heldMs := 0,
      behindWrites := kindOf k.op == .read && 64 ≤ trackedWrites s q.cntlid q.sqid s.host.nextCmd, asked := false, lost := [],
      lostMs := none, waitFor := r.waits, charged := 0 }
  let s1 := updCtrl q.cntlid (fun c => setDeficit q.tile (max (-256) (deficitOn c q.tile - (unitsOf k : Int))) { c with
    budgetLeft := if urgent then c.budgetLeft - 1 else c.budgetLeft
    demotions := if urgent && c.budgetLeft == 0 then c.demotions + 1 else c.demotions }) s
  let s2 := updSq q.cntlid q.sqid (fun q => match q.transport with
    | .pcie => { q with recv := q.recv.tail }
    | _ => { q with recv := q.recv.tail, head := (q.head + 1) % q.size }) s1
  let s3 := pfcAfterFetch s q (updCq q.cntlid q.cqid (fun k => { k with reserved := k.reserved + 1 }) s2)
  { s3 with host := { s3.host with
      cmds := s3.host.cmds ++ [cmd], nextCmd := s3.host.nextCmd + 1
      activeUntil := if s3.host.cmds.isEmpty && s3.host.activeUntil ≤ s3.nowMs then s3.nowMs + 50 else s3.host.activeUntil } }

/-- Counts a fetched command in its namespace's demand (R81). -/
def countDemand (t n : Nat) (s : State) : State :=
  let d := (s.host.demand.find? fun d => d.tile == t && d.nsid == n).getD { tile := t, nsid := n, now := 0 }
  { s with host := { s.host with
     demand :=
      (s.host.demand.filter fun d => !(d.tile == t && d.nsid == n)) ++ [{ d with now := d.now + 1 }] } }

/-- What becomes of a command just fetched: an admin command waits for its own first action, unless its opcode is not listed (R53) or its
data pointer is at fault (R51, R64); an I/O command of an Inaccessible controller fails (R61), one that cannot run
fails (R53, R59, R111), one without tokens is held (R82), and the rest are admitted. -/
def admitFetched (id : Nat) (s : State) : State :=
  match findCmd s id with
  | none => s
  | some c =>
    if c.sqid == 0 then
      if !isAdmin c.cap.op then finishCmd id .invalidOpcode 0 s
      else match lengthFault s c with
      | some st => finishCmd id st 0 s
      | none => s
    else
      let s1 := countDemand c.tile c.cap.nsid s
      if anaState s1 c.tile == 3 then pump (finishCmd id .asymmetricAccessInaccessible 0 s1)
      else match ioRefusal s1 c with
        | some st => pump (finishCmd id st 0 s1)
        | none =>
          if mayAdmit s1 c then takeTokens s1 c.tile c.cap
          else updCmd id (fun c => { c with phase := .held, heldMs := s1.nowMs }) s1

/-- Takes the oldest command of the queue chosen, which reads entries first where it has none (R67, R68). -/
def takeFrom (q : Sq) (entry : HostEntries) (c : Ctrl) (s : State) : State :=
  let s1 := readAhead entry q s
  match (findSq s1 q.cntlid q.sqid).bind fun q => q.recv.head? with
  | none => s1
  | some r => admitFetched s1.host.nextCmd (fetchFrom q r c s1)

/-- COMMAND_FETCH on a tile (R78): urgent queues first, one burst per controller per turn, then the deficit round robin.
`entry` holds the submission entries in host memory from the heads of PCIe queues on. -/
def commandFetch (t : Nat) (entry : HostEntries) (s : State) : State :=
  if s.tfld t .qe_cfg_qe_enable == 0 then s
  else
    let a := arbOf s t
    let cs := s.host.ctrls.filter fun c => !c.discovery
    let urgent := cs.filter (ctrlUrgent s entry t)
    let turn := if a.burst == 0 then rotate (·.cntlid) a.lastUrgent urgent
                else (urgent.filter fun c => c.cntlid == a.lastUrgent) ++ rotate (·.cntlid) a.lastUrgent urgent
    match turn.head? with
    | some c =>
      (match pickUrgentSq s entry a t c with
      | none => s
      | some q =>
        let left := if a.burst != 0 && c.cntlid == a.lastUrgent then a.burst - 1 else burstSize c - 1
        let a1 := { a with
                           lastUrgent := c.cntlid, burst := left,
                           lastSq := if q.sqid == 0 then a.lastSq
                             else (a.lastSq.filter fun x => !(x.1 == c.cntlid && x.2.1 == 0)) ++ [(c.cntlid, 0, q.sqid)] }
        takeFrom q entry c (setArb a1 s))
    | none =>
      let plain := cs.filter (ctrlPlain s entry t)
      let cand := (rotate (·.cntlid) a.lastCtrl plain).filterMap fun c =>
        (pickPlainSq s entry a t c).bind fun x => (headOf x.1 entry).map fun k => (c, x.1, k, x.2)
      match (cand.map fun x => roundsFor x.1 t (unitsOf x.2.2.1)).min? with
      | none => s
      | some r => match cand.find? (fun x => roundsFor x.1 t (unitsOf x.2.2.1) == r) with
        | none => s
        | some x =>
          let grown := { s with host := { s.host with
           ctrls := s.host.ctrls.map fun c =>
            if plain.any (fun p => p.cntlid == c.cntlid) then setDeficit t (deficitOn c t + (r * c.share : Nat)) c else c } }
          match findCtrl grown x.1.cntlid with
          | none => s
          | some c => takeFrom x.2.1 entry c (setArb { x.2.2.2 with lastCtrl := c.cntlid, burst := 0 } grown)

def execCommandFetch (t : Nat) (entry : HostEntries) (s : State) : Host.Outcome State Fault Refusal :=
  .next (commandFetch t entry s)

/-! ### Rate limits and budgets (R72, R81, R82, R102, R104) -/

/-- HELD_COMMAND_ADMIT (R82): the oldest held command of each kind is admitted if its tokens allow. -/
def admitOne (kind : Bool) (t n : Nat) (s : State) : State :=
  match (holdList s t n).find? (fun c => readKind c.cap.op == kind) with
  | none => s
  | some c =>
    if tokensAllow s t c.cap then
      takeTokens (updCmd c.id (fun c => { c with phase := .admitted, heldMs := s.nowMs - c.heldMs }) s) t c.cap
    else s

def execHeldCommandAdmit (t n : Nat) (s : State) : Host.Outcome State Fault Refusal :=
  .next (admitOne false t n (admitOne true t n s))

/-- Tiles whose host port is not PORT_OFF (R81). -/
def portTiles (s : State) : List Nat :=
  (presentTiles s).filter fun t => s.tfld t .glb_port_cfg_port_mode != 0

/-- A tile's part of one interval's allotment of a limit, in units of 1/256 (R81): an equal share of one eighth, and a
share of seven eighths in proportion to the demand of the previous interval. -/
def allotment (limit nPorts demand total : Nat) (hasPort : Bool) : Rat :=
  let whole : Rat := (256 * limit : Nat) / 1000
  let equal : Rat := if hasPort then 1 / (nPorts : Rat) else 0
  if total == 0 then whole * equal
  else whole * (equal / 8 + (7 : Rat) / 8 * ((demand : Rat) / (total : Rat)))

/-- The bucket of a namespace limit on a tile at the start of an interval (R81, R102). -/
def refillBucket (s : State) (n : Ns) (t k : Nat) : Option Bucket :=
  let lim := limitOf n.limits k
  if lim == 0 then none
  else
    let ds := s.host.demand.filter fun d => d.nsid == n.nsid
    let mine := ((ds.find? fun d => d.tile == t).map (·.now)).getD 0
    let part := allotment lim (portTiles s).length mine (ds.map (·.now)).sum ((portTiles s).contains t)
    let depth := (part * (burstOf n.limits : Nat)).floor.toNat
    match findBucket s t n.nsid k with
    | none => some { tile := t, nsid := n.nsid, kind := k, tokens := depth, depth := depth, carry := 0 }
    | some b =>
      let total := part + b.carry
      some { b with tokens := min (b.tokens + total.floor) depth, depth := depth, carry := total - total.floor }

/-- A namespace takes its new limits (R102). -/
def Ns.takeLimits (n : Ns) : Ns :=
  match n.newLimits with
  | some l => { n with limits := l, newLimits := none }
  | none => n

/-- RATE_INTERVAL (R81): new limits take effect, every bucket receives its part, the demand counts start again. -/
def rateInterval (s : State) : State :=
  let s1 := { s with reg := { s.reg with nss := s.reg.nss.map Ns.takeLimits } }
  let bs := s1.reg.nss.flatMap fun n => (presentTiles s1).flatMap fun t =>
    [0, 1, 2, 3].filterMap fun k => refillBucket s1 n t k
  { s1 with host := { s1.host with
    buckets := bs
    demand := s1.host.demand.map fun d => { d with now := 0 } } }

def execRateInterval (s : State) : Host.Outcome State Fault Refusal := .next (rateInterval s)

/-- URGENT_BUDGET_INTERVAL (R72, R104): a tenant's new limits take effect, and each urgent budget is whole again. -/
def budgetInterval (s : State) : State :=
  { s with host := { s.host with
     ctrls := s.host.ctrls.map fun c =>
      match identTenant s c.ident with
      | some t => { c with share := t.share, budget := t.budget, latency := t.latency, budgetLeft := t.budget }
      | none => { c with budgetLeft := c.budget } } }

def execUrgentBudgetInterval (s : State) : Host.Outcome State Fault Refusal := .next (budgetInterval s)

/-! ### Fabrics properties, keep alive (R53, R57, R71, R95) -/

/-- The capabilities the manual states (R51, R52, R71, R94): MQES, DSTRD 0, AMS with urgent, NSSRS 0. -/
def capValue : Nat :=
  Config.maxQueueEntries - 1 + 2 ^ 17 +
    ([(16, 16), (31, 24), (47, 37), (55, 52), (63, 58)].map fun b => bitsOf Config.capOpenBits b.1 b.2 * 2 ^ b.2).sum

/-- CC and CSTS as they read. -/
def ccValue (c : Ctrl) : Nat := b2n c.enabled + 2 ^ 11 * c.ams + 2 ^ 14 * (if c.shutting then 1 else 0)
def cstsValue (c : Ctrl) : Nat := b2n c.ready + 4 * c.shst

/-- PROPERTY_GET (R53): CAP at 0x00, VS at 0x08, CC at 0x14, CSTS at 0x1C. -/
def propertyGet (a : Adm) (off : Nat) (s : State) : State :=
  match admCtrl s a with
  | none => admDone a .invalidOpcode 0 s
  | some c => match c.ident with
    | .function _ _ => admDone a .invalidOpcode 0 s
    | .nqn _ =>
      if off == 0 then admAnswer a [(0, 8, capValue)] s
      else if off == 8 then admAnswer a [(0, 4, 0x00020100)] s
      else if off == 0x14 then admAnswer a [(0, 4, ccValue c)] s
      else if off == 0x1C then admAnswer a [(0, 4, cstsValue c)] s
      else admDone a .invalidField 0 s

def execPropertyGet (a : Adm) (off : Nat) (s : State) : Host.Outcome State Fault Refusal :=
  .next (runAdmin .queueEngine a (.propertyGet a off) (propertyGet a off) s)

/-- The effect of a write of CC through a property (R71, R94, R95). -/
def writeCc (id : Nat) (cc : CcFields) (s : State) : State :=
  match findCtrl s id with
  | none => s
  | some c =>
    if cc.en && !c.enabled then
      updCtrl id (fun c => { c with enabled := true, ready := true, ams := cc.ams }) s
    else if !cc.en && c.enabled then resetCtrl id s
    else if cc.en && cc.shn != 0 then ctrlShutdown id s
    else s

/-- PROPERTY_SET (R53): a write of CC. CC.AMS other than 000b and 001b is rejected (R71). -/
def propertySet (a : Adm) (off v : Nat) (s : State) : State :=
  match admCtrl s a with
  | none => admDone a .invalidOpcode 0 s
  | some c => match c.ident with
    | .function _ _ => admDone a .invalidOpcode 0 s
    | .nqn _ =>
      let cc : CcFields := { en := bitOf v 0, ams := bitsOf v 13 11, shn := bitsOf v 15 14 }
      if off != 0x14 || 1 < cc.ams then admDone a .invalidField 0 s
      else writeCc c.cntlid cc (admDone a .success 0 s)

def execPropertySet (a : Adm) (off v : Nat) (s : State) : Host.Outcome State Fault Refusal :=
  .next (runAdmin .queueEngine a (.propertySet a off v) (propertySet a off v) s)

/-- DISCONNECT (R53, R94): the queue's connection ends, or with queue 0 the association. -/
def disconnectQ (a : Adm) (qid : Nat) (s : State) : State :=
  match admCtrl s a with
  | none => admDone a .invalidOpcode 0 s
  | some c => match c.ident with
    | .function _ _ => admDone a .invalidOpcode 0 s
    | .nqn _ =>
      if (findSq s c.cntlid qid).isNone then admDone a .invalidField 0 s
      else endQueue c.cntlid qid (admDone a .success 0 s)

def execDisconnect (a : Adm) (qid : Nat) (s : State) : Host.Outcome State Fault Refusal :=
  .next (runAdmin .queueEngine a (.disconnect a qid) (disconnectQ a qid) s)

/-- KEEP_ALIVE (R57): restarts the timer, and is answered at once, even during activation. -/
def keepAlive (a : Adm) (s : State) : State :=
  match admCtrl s a with
  | none => admDone a .invalidOpcode 0 s
  | some c => match c.ident with
    | .function _ _ => admDone a .invalidOpcode 0 s
    | .nqn _ => admDone a .success 0
        (updCtrl c.cntlid (fun c => { c with kaDeadline := s.nowMs + c.kato }) s)

def execKeepAlive (a : Adm) (s : State) : Host.Outcome State Fault Refusal :=
  .next (runAdmin .atOnce a (.keepAlive a) (keepAlive a) s)

/-! ### Queue creation and deletion over PCIe (R43, R51, R56, R66, R71, R90) -/

/-- The issuer, if it is a controller of a PCIe function. -/
def pcieIssuer (s : State) (a : Adm) : Option Ctrl :=
  (admCtrl s a).filter fun c => match c.ident with
    | .function _ _ => true
    | .nqn _ => false

/-- CREATE_IO_SUBMISSION_QUEUE. A queue beyond what its tile has reserved for the controller draws a free pair there (R56). -/
def createSq (a : Adm) (sqid size base cqid qprio : Nat) (s : State) : State :=
  match pcieIssuer s a with
  | none => admDone a .invalidOpcode 0 s
  | some c =>
    let t := queueTile s c sqid
    let fresh := reservedOn s t c < ((ioQueues s c.cntlid).filter fun q => q.tile == t).length + 1
    if sqid == 0 || 128 < sqid || (findSq s c.cntlid sqid).isSome || (c.grant.isSome && c.grant.getD 0 < sqid) then
      admDone a .invalidQueueIdentifier 0 s
    else if size == 0 || 1023 < size then admDone a .invalidQueueSize 0 s
    else if cqid == 0 || (findCq s c.cntlid cqid).isNone then admDone a .completionQueueInvalid 0 s
    else if fresh && qpFree s t == 0 then admDone a .invalidQueueIdentifier 0 s
    else
      let cls := if c.orderMode < 2 || c.ams == 0 then 2 else qprio % 4
      admDone a .success 0 { s with host := { s.host with
        sqs := s.host.sqs ++ [ioSq c.cntlid sqid t base (size + 1) cqid cls (s.tfld t .qe_cfg_freeze_default == 1) .pcie] } }

def execCreateIoSubmissionQueue (a : Adm) (sqid : Nat) (q : RingAt) (cqid qprio : Nat) (s : State) : Host.Outcome State Fault Refusal :=
  .next (runAdmin .queueEngine a (.createIoSubmissionQueue a sqid q cqid qprio) (createSq a sqid q.size q.base cqid qprio) s)

/-- CREATE_IO_COMPLETION_QUEUE (R51): it takes no queue pair. -/
def createCq (a : Adm) (cqid size base vector : Nat) (ien : Bool) (s : State) : State :=
  match pcieIssuer s a with
  | none => admDone a .invalidOpcode 0 s
  | some c =>
    if cqid == 0 || 128 < cqid || (findCq s c.cntlid cqid).isSome then admDone a .invalidQueueIdentifier 0 s
    else if size == 0 || 1023 < size then admDone a .invalidQueueSize 0 s
    else if 128 < vector then admDone a .invalidInterruptVector 0 s
    else admDone a .success 0 { s with host := { s.host with
      cqs := s.host.cqs ++ [ioCq c.cntlid cqid base (size + 1) vector ien] } }

def execCreateIoCompletionQueue (a : Adm) (cqid : Nat) (q : RingAt) (vector : Nat) (ien : Bool) (s : State) :
    Host.Outcome State Fault Refusal :=
  .next (runAdmin .queueEngine a (.createIoCompletionQueue a cqid q vector ien)
    (createCq a cqid q.size q.base vector ien) s)

/-- DELETE_IO_SUBMISSION_QUEUE (R66): its state is cleared, and its commands end as at a reset. -/
def deleteSq (a : Adm) (sqid : Nat) (s : State) : State :=
  match pcieIssuer s a with
  | none => admDone a .invalidOpcode 0 s
  | some c =>
    if sqid == 0 || (findSq s c.cntlid sqid).isNone then admDone a .invalidQueueIdentifier 0 s
    else
      let s1 := resetCmdsOf (fun k => k.cntlid == c.cntlid && k.sqid == sqid) s
      admDone a .success 0 { s1 with host := { s1.host with
        sqs := s1.host.sqs.filter fun q => !(q.cntlid == c.cntlid && q.sqid == sqid) } }

def execDeleteIoSubmissionQueue (a : Adm) (sqid : Nat) (s : State) : Host.Outcome State Fault Refusal :=
  .next (runAdmin .queueEngine a (.deleteIoSubmissionQueue a sqid) (deleteSq a sqid) s)

/-- DELETE_IO_COMPLETION_QUEUE (R66): refused while a submission queue posts to it. -/
def deleteCq (a : Adm) (cqid : Nat) (s : State) : State :=
  match pcieIssuer s a with
  | none => admDone a .invalidOpcode 0 s
  | some c =>
    if cqid == 0 || (findCq s c.cntlid cqid).isNone then admDone a .invalidQueueIdentifier 0 s
    else if (ioQueues s c.cntlid).any (fun q => q.cqid == cqid) then admDone a .invalidQueueDeletion 0 s
    else admDone a .success 0 { s with host := { s.host with
      cqs := s.host.cqs.filter fun q => !(q.cntlid == c.cntlid && q.cqid == cqid) } }

def execDeleteIoCompletionQueue (a : Adm) (cqid : Nat) (s : State) : Host.Outcome State Fault Refusal :=
  .next (runAdmin .queueEngine a (.deleteIoCompletionQueue a cqid) (deleteCq a cqid) s)

/-! ### Asynchronous Event Request, Abort, Queue Thaw (R53, R92, R96) -/

/-- ASYNCHRONOUS_EVENT_REQUEST (R53): answered with an event that waits, or queued for a later one. -/
def asyncRequest (a : Adm) (s : State) : State :=
  match a, admCtrl s a with
  | .host id, some c => match c.aens with
    | e :: rest => finishCmd id .success (e.1 + 256 * e.2) (updCtrl c.cntlid (fun c => { c with aens := rest }) s)
    | [] => admPark a (updCtrl c.cntlid (fun c => { c with aers := c.aers ++ [id] }) s)
  | a, _ => admDone a .invalidOpcode 0 s

def execAsynchronousEventRequest (a : Adm) (s : State) : Host.Outcome State Fault Refusal :=
  .next (runAdmin .queueEngine a (.asynchronousEventRequest a) (asyncRequest a) s)

/-- The command an Abort names, if it has not started (R70, R96): held or admitted, or still in its queue. -/
def abortable (s : State) (c : Ctrl) (sqid cid : Nat) : Option Cmd :=
  s.host.cmds.find? fun k => k.cntlid == c.cntlid && k.sqid == sqid && k.cap.cid == cid && !k.started

/-- ABORT (R96). A capsule on the receive list has not started: it leaves the list, with its completion. -/
def abortCmd (a : Adm) (sqid cid : Nat) (s : State) : State :=
  match admCtrl s a with
  | none => admDone a .invalidOpcode 0 s
  | some c => match abortable s c sqid cid with
    | some k => admDone a .success 0 (pump (finishCmd k.id .commandAbortRequested 0 s))
    | none => match findSq s c.cntlid sqid with
      | none => admDone a .success 1 s
      | some q => match q.recv.find? fun k => k.cap.cid == cid with
        | some k =>
          admDone a .success 0 (sendTo c.cntlid sqid (.completion c.cntlid sqid cid .commandAbortRequested
              (if frz s c.cntlid sqid then 2 ^ 31 else 0) q.head)
            (logFailure c.cntlid sqid k.cap .commandAbortRequested
              (updSq c.cntlid sqid (fun q => { q with recv := q.recv.erase k }) s)))
        | none => admDone a .success 1 s

def execAbort (a : Adm) (sqid cid : Nat) (s : State) : Host.Outcome State Fault Refusal :=
  .next (runAdmin .queueEngine a (.abort a sqid cid) (abortCmd a sqid cid) s)

/-- QUEUE_THAW (R92): answered at once during activation; no effect on a queue that is not frozen. -/
def queueThaw (a : Adm) (sqid : Nat) (s : State) : State :=
  match admCtrl s a with
  | none => admDone a .invalidOpcode 0 s
  | some c =>
    if sqid == 0 || (findSq s c.cntlid sqid).isNone then admDone a .invalidQueueIdentifier 0 s
    else admDone a .success 0 (updSq c.cntlid sqid (fun q => { q with frozen := none }) s)

def execQueueThaw (a : Adm) (sqid : Nat) (s : State) : Host.Outcome State Fault Refusal :=
  .next (runAdmin .atOnce a (.queueThaw a sqid) (queueThaw a sqid) s)

/-! ### Features (R56, R69, R76 to R78, R90, R220) -/

/-- Acts for the issuer's controller; on the command ring, which has none, the feature is Invalid Field in Command (R474). -/
def withCtrl (a : Adm) (f : Ctrl → State → State) (s : State) : State :=
  match admCtrl s a with
  | none => admDone a .invalidField 0 s
  | some c => f c s

/-- The most I/O queues that free pairs allow a controller: on an x8 endpoint odd queues take the lower tile's and even ones its partner's
(R43, R56). -/
def pairsAvailable (s : State) (c : Ctrl) : Nat :=
  if isX8 s c then min (2 * qpFree s c.tile) (2 * qpFree s (partnerOf s c.tile) + 1) else qpFree s c.tile

/-- SET_FEATURES_NUMBER_OF_QUEUES (R56). -/
def setNumQueues (a : Adm) (nsqr ncqr : Nat) (c : Ctrl) (s : State) : State :=
  if hasIoQueue s c.cntlid then admDone a .commandSequenceError 0 s
  else
    let pcie := (pcieIssuer s a).isSome
    let s1 := updCtrl c.cntlid (fun c => { c with grant := none }) s
    let want := if pcie then nsqr + 1 else min (nsqr + 1) (ncqr + 1)
    let g := min (min want 128) (pairsAvailable s1 c)
    if g == 0 then admDone a .commandInterrupted 0 s
    else
      let ncqa := if pcie then min (ncqr + 1) 128 - 1 else g - 1
      admDone a .success ((g - 1) + 65536 * ncqa) (updCtrl c.cntlid (fun c => { c with grant := some g }) s)

def execSetFeaturesNumberOfQueues (a : Adm) (nsqr ncqr : Nat) (s : State) : Host.Outcome State Fault Refusal :=
  .next (runAdmin .management a (.setFeaturesNumberOfQueues a nsqr ncqr) (withCtrl a (setNumQueues a nsqr ncqr)) s)

/-- SET_FEATURES_ARBITRATION (R78). -/
def setArbitration (a : Adm) (burst lpw mpw hpw : Nat) (c : Ctrl) (s : State) : State :=
  admDone a .success 0 (updCtrl c.cntlid (fun c => { c with
    arbBurst := burst % 8, arbWeights := (hpw % 256, mpw % 256, lpw % 256) }) s)

def execSetFeaturesArbitration (a : Adm) (burst lpw mpw hpw : Nat) (s : State) : Host.Outcome State Fault Refusal :=
  .next (runAdmin .management a (.setFeaturesArbitration a burst lpw mpw hpw)
    (withCtrl a (setArbitration a burst lpw mpw hpw)) s)

/-- SET_FEATURES_INTERRUPT_COALESCING (R69): feature 08h, threshold in [7:0] and time, in 100 µs, in [15:8]; feature 09h,
vector in [15:0] and coalescing disable in [16]. -/
def setCoalescing (a : Adm) (fid v : Nat) (c : Ctrl) (s : State) : State :=
  if fid == 8 then
    admDone a .success 0 (updCtrl c.cntlid (fun c => { c with coalesce := (bitsOf v 7 0, bitsOf v 15 8) }) s)
  else if fid == 9 then
    admDone a .success 0 (updCtrl c.cntlid (fun c => { c with
      noCoalesce := (c.noCoalesce.filter fun x => x != bitsOf v 15 0) ++
        (if bitOf v 16 then [bitsOf v 15 0] else []) }) s)
  else admDone a .invalidField 0 s

def execSetFeaturesInterruptCoalescing (a : Adm) (fid v : Nat) (s : State) : Host.Outcome State Fault Refusal :=
  .next (runAdmin .management a (.setFeaturesInterruptCoalescing a fid v) (withCtrl a (setCoalescing a fid v)) s)

/-- SET_FEATURES_ORDERING_MODE (R76): only while the controller has no I/O queue. -/
def setOrdering (a : Adm) (v : Nat) (c : Ctrl) (s : State) : State :=
  if hasIoQueue s c.cntlid then admDone a .commandSequenceError 0 s
  else admDone a .success 0 (updCtrl c.cntlid (fun c => { c with orderMode := bitsOf v 1 0 }) s)

def execSetFeaturesOrderingMode (a : Adm) (v : Nat) (s : State) : Host.Outcome State Fault Refusal :=
  .next (runAdmin .management a (.setFeaturesOrderingMode a v) (withCtrl a (setOrdering a v)) s)

/-- SET_FEATURES_QUEUE_CLASS (R77). -/
def setQueueClass (a : Adm) (v : Nat) (c : Ctrl) (s : State) : State :=
  let sqid := bitsOf v 15 0
  if sqid == 0 || (findSq s c.cntlid sqid).isNone then admDone a .invalidQueueIdentifier 0 s
  else admDone a .success 0 (updSq c.cntlid sqid (fun q => { q with reqClass := bitsOf v 17 16 }) s)

def execSetFeaturesQueueClass (a : Adm) (v : Nat) (s : State) : Host.Outcome State Fault Refusal :=
  .next (runAdmin .management a (.setFeaturesQueueClass a v) (withCtrl a (setQueueClass a v)) s)

/-- SET_FEATURES_QUEUE_FREEZE_MODE (R90). -/
def setFreezeMode (a : Adm) (v : Nat) (c : Ctrl) (s : State) : State :=
  let sqid := bitsOf v 15 0
  if sqid == 0 || (findSq s c.cntlid sqid).isNone then admDone a .invalidQueueIdentifier 0 s
  else admDone a .success 0 (updSq c.cntlid sqid (fun q => { q with mediaOnly := bitOf v 16 }) s)

def execSetFeaturesQueueFreezeMode (a : Adm) (v : Nat) (s : State) : Host.Outcome State Fault Refusal :=
  .next (runAdmin .management a (.setFeaturesQueueFreezeMode a v) (withCtrl a (setFreezeMode a v)) s)

/-- GET_FEATURES (R52): the values the device keeps; a feature whose value the manual leaves to NVMe is open. DESIGN CHOICE: Number of
Queues reports the grant minus 1 for both counts, 0 without a grant; R56 says what Set Features answers alone. -/
def getFeature (a : Adm) (fid v : Nat) (c : Ctrl) (s : State) : State :=
  let dw0 :=
    if fid == 1 then c.arbBurst + 256 * c.arbWeights.2.2 + 65536 * c.arbWeights.2.1 + 16777216 * c.arbWeights.1
    else if fid == 6 then 0
    else if fid == 7 then (c.grant.getD 0 - 1) + 65536 * (c.grant.getD 0 - 1)
    else if fid == 8 then c.coalesce.1 + 256 * c.coalesce.2
    else if fid == 9 then bitsOf v 15 0 + (if c.noCoalesce.contains (bitsOf v 15 0) then 65536 else 0)
    else if fid == 15 then c.kato
    else Config.nvmeFeature fid v
  admDone a .success dw0 s

def execGetFeatures (a : Adm) (fid v : Nat) (s : State) : Host.Outcome State Fault Refusal :=
  .next (runAdmin .management a (.getFeatures a fid v) (withCtrl a (getFeature a fid v)) s)

/-- GET_FEATURES_ORDERING_MODE (R76). -/
def execGetFeaturesOrderingMode (a : Adm) (s : State) : Host.Outcome State Fault Refusal :=
  .next (runAdmin .management a (.getFeaturesOrderingMode a)
    (withCtrl a fun c s => admDone a .success c.orderMode s) s)

/-- Answers with a value of one I/O submission queue, or Invalid Queue Identifier (R77, R90). -/
def queueValue (a : Adm) (sqid : Nat) (f : Sq → Nat) (c : Ctrl) (s : State) : State :=
  match findSq s c.cntlid sqid with
  | none => admDone a .invalidQueueIdentifier 0 s
  | some q => if sqid == 0 then admDone a .invalidQueueIdentifier 0 s else admDone a .success (f q) s

/-- GET_FEATURES_QUEUE_CLASS (R77). -/
def execGetFeaturesQueueClass (a : Adm) (sqid : Nat) (s : State) : Host.Outcome State Fault Refusal :=
  .next (runAdmin .management a (.getFeaturesQueueClass a sqid) (withCtrl a (queueValue a sqid (·.reqClass))) s)

/-- GET_FEATURES_QUEUE_FREEZE_MODE (R90). -/
def execGetFeaturesQueueFreezeMode (a : Adm) (sqid : Nat) (s : State) : Host.Outcome State Fault Refusal :=
  .next (runAdmin .management a (.getFeaturesQueueFreezeMode a sqid)
    (withCtrl a (queueValue a sqid fun q => b2n q.mediaOnly)) s)

/-- STEP_REISSUE (R31): a role that lost steps need has been taken over, and the port tile issues those steps again. -/
def stepReissue (id : Nat) (s : State) : State :=
  match findCmd s id with
  | none => s
  | some c => match c.lost.find? (roleRestored s c) with
    | none => s
    | some r => reissueStep c r (updCmd id (fun c => { c with lost := c.lost.filter fun x => x != r }) s)

def execStepReissue (id : Nat) (s : State) : Host.Outcome State Fault Refusal := .next (stepReissue id s)

/-- A request of a command under its new number. -/
def renamed (old new : Nat) (w : MapWait) : MapWait :=
  if w.cmd != old then w
  else { w with cmd := new, req := match w.req with
    | .update _ r => .update new r
    | .forward _ => .forward new
    | x => x }

/-- The map updates of a command that ends while they are under way are applied all the same, under a new number (R35). -/
def detachUpdates (c : Cmd) (s : State) : State :=
  if c.phase != .mapping then s
  else
    let id := s.host.nextCmd
    { s with
      host := { s.host with
        cmds := s.host.cmds ++ [{ c with id := id, discard := true, lost := [], lostMs := none, bufs := [] }], nextCmd := id + 1 }
      map := { s.map with
        forwards := s.map.forwards.map fun f => if f.cmd == c.id then { f with cmd := id } else f
        waiting := s.map.waiting.map (renamed c.id id) } }

/-- COMMAND_INTERRUPT_TIMEOUT (R31): 100 ms after the loss of a tile it depends on, a command not finished completes with
Command Interrupted. -/
def interruptTimeout (id : Nat) (s : State) : State :=
  match findCmd s id with
  | none => s
  | some c => match c.lostMs with
    | none => s
    | some at_ =>
      if at_ + 100 ≤ s.nowMs && c.phase != .ended then pump (finishCmd id .commandInterrupted 0 (detachUpdates c (dropStaging c s)))
      else s

def execCommandInterruptTimeout (id : Nat) (s : State) : Host.Outcome State Fault Refusal :=
  .next (interruptTimeout id s)

end Sys2Proof.Machine
end

