-- ==== Sys2Proof/Machine/RegCmds.lean ====
section
/-!
DEFINITION. Sys2Proof/Machine/RegCmds.lean: reads and writes of BAR0 with what they set off (R12 to R14, R261, R262, R369, R386,
R414, R432, R464, R467).
-/
namespace Sys2Proof.Machine
open Sys2Proof

/-! ### Reads -/

/-- A read of the low half of a 64-bit counter latches the high half (R165). -/
def latchHigh (off v : Nat) (s : State) : State :=
  { s with regs := { s.regs with latch := (off + 4, v) :: s.regs.latch.filter fun l => l.1 != off + 4 } }

/-- Moves an index on by one within `n` words. -/
def advance (w : Nat) (f : Fld) (n : Nat) (s : State) : State := setFld w 0 f ((s.fld w 0 f + 1) % n) s

/-- What a read of copy `i` of a register sets off: an index moves on (R261, R262, R369, R414, R464), cap_read is set (R386), a peak
restarts (R414), `merging` is cleared (R127), the window moves on (R432). -/
def readEffect (w i : Nat) (r : Reg) (s : State) : State :=
  match r with
  | .medDescData => advance w .med_desc_idx_word 128 s
  | .ldpcBaseData => advance w .ldpc_base_idx_entry 16384 s
  | .digFuseData => advance w .dig_fuse_idx_word 16 s
  | .thmHistData => advance w .thm_hist_idx_bin 16 s
  | .fwuMapData => advance w .fwu_map_idx_word 16 s
  | .drcCapStatus => updDram w (fun d => { d with capRead := d.capRead || d.frozen }) s
  | .thmSensor => updSensor w i (fun x => { x with peak := x.reading.getD x.peak }) s
  | .glbClockStatus => { s with clock := { s.clock with merging := false } }
  | .evrWinData => if i == 7 then windowNext s else s
  | _ => s

/-- A read of BAR0: one that is not aligned ends with Completer Abort (R467). -/
def readReg (off : Nat) (s : State) : State :=
  if off % 4 != 0 then emit (.completerAbort off) s
  else
    let s1 := emit (.regRead off (readValue s off)) s
    match regAt s off with
    | none => s1
    | some (w, r, i, high) =>
      if !regAnswers s w r then s1
      else if r.latched && !high then latchHigh off (regValue s w i r / 2 ^ 32) s1
      else readEffect w i r s1

/-- COUNTER_LOW_READ (R12, R165): a read at an offset that has no row of its own. -/
def execCounterLowRead (off : Nat) (s : State) : Host.Outcome State Fault Refusal := .next (readReg off s)

/-- A read of a tile's register. -/
def readTile (t : Nat) (r : Reg) (s : State) : State := if t < pkgWin then readReg (bar0 t 0 r) s else s

/-- CAPTURE_STATUS_READ (R386). -/
def execCaptureStatusRead (t : Nat) (s : State) : Host.Outcome State Fault Refusal := .next (readTile t .drcCapStatus s)
/-- LDPC_BASE_DATA_READ (R262). -/
def execLdpcBaseDataRead (t : Nat) (s : State) : Host.Outcome State Fault Refusal := .next (readTile t .ldpcBaseData s)
/-- DIG_FUSE_DATA_READ (R369). -/
def execDigFuseDataRead (t : Nat) (s : State) : Host.Outcome State Fault Refusal := .next (readTile t .digFuseData s)
/-- THM_HIST_DATA_READ (R414). -/
def execThmHistDataRead (t : Nat) (s : State) : Host.Outcome State Fault Refusal := .next (readTile t .thmHistData s)
/-- THM_SENSOR_READ (R414). -/
def execThmSensorRead (t : Nat) (s : State) : Host.Outcome State Fault Refusal := .next (readTile t .thmSensor s)
/-- FWU_MAP_DATA_READ (R464). -/
def execFwuMapDataRead (s : State) : Host.Outcome State Fault Refusal := .next (readReg (bar0 pkgWin 0 .fwuMapData) s)
/-- WINDOW_DATA7_READ (R432). -/
def execWindowData7Read (s : State) : Host.Outcome State Fault Refusal := .next (readReg (bar0 pkgWin 7 .evrWinData) s)

/-! ### Writes -/

/-- A write of MED_DESC_DATA (R261): the index moves on after each access. -/
def descWrite (t v : Nat) (s : State) : State :=
  advance t .med_desc_idx_word 128 (writeReg t (s.tfld t .med_desc_idx_word) .medDescData v s)

/-- MED_DESC_DATA_ACCESS (R261): a write of the given word, or a read. -/
def execMedDescDataAccess (t : Nat) (wr : Option Nat) (s : State) : Host.Outcome State Fault Refusal :=
  .next (match wr with
    | some v => tileWrite t (descWrite t (v % 2 ^ 32)) s
    | none => readTile t .medDescData s)

/-- A write of PLP_CTRL (R322). -/
def plpCtrl (v : Nat) (s : State) : State :=
  let s1 := if bitOf v 0 then startTest s else s
  let s2 := if bitOf v 1 then closeTails (expireRows (addCause 6 s1)) else s1
  if bitOf v 2 then prepareOff s2 else s2

/-- A write of GLB_COMMIT (R482). -/
def commitCtrl (v : Nat) (s : State) : State :=
  let s1 := if bitOf v 31 then commitWrite s else s
  if bitOf v 30 then revertShadow s1 else s1

/-- A write of a 32-bit register: by the operation it has, else field by field (R13). -/
def writeOne (w i : Nat) (r : Reg) (v : Nat) (s : State) : State :=
  match r with
  | .qeCfg => qeEnable w v s
  | .mapCfg => mapEnable w v s
  | .plcCfg => writeEnable w .plcCfg .plc_cfg_plc_enable v (fun s => if stageFits w s then none else some 8) id id s
  | .rclCfg => writeEnable w .rclCfg .rcl_cfg_rcl_enable v (fun _ => none) id id s
  | .redCfg => writeEnable w .redCfg .red_cfg_red_enable v (fun _ => none) id id s
  | .medCfg => medEnable w v s
  | .medDescData => descWrite w v s
  | .bpmCfg => bpmEnable w v s
  | .bpmReset => poolReset w v s
  | .cmpCfg => cmpEnable w v s
  | .cryCfg => cryEnable w v 0 s
  | .drcCfg => drcEnable w v s
  | .drcCtrl => drcRestart w v s
  | .redVerify => verifyStart w v s
  | .plpCfg => plpEnable v s
  | .plpCtrl => plpCtrl v s
  | .pwrCfg => avsEnable v s
  | .fwuCtrl => stageClear v s
  | .glbCommit => commitCtrl v s
  | .evrCursor => latchAt v s
  | .bptRingCfg => ringWrite i v s
  | _ => writeReg w i r v s

/-- A write of a 64-bit register takes effect with its high half (R12). -/
def writeTop (w i : Nat) (r : Reg) (v : Nat) (s : State) : State :=
  if r == .glbBoardTime then boardTimeWrite v s else writeHigh w i r v s

/-- A doorbell of the board port (R471). -/
def doorbell (k v : Nat) (s : State) : State :=
  match k with
  | 0 => cmdTail v s
  | 1 => ringHead 1 v s
  | 2 => deliverMeter (ringHead 2 v s)
  | 3 => deliverEvents (ringHead 3 v s)
  | _ => s

/-- REGISTER_WRITE (R12 to R14, R467): a write at an offset of BAR0. One that is not aligned ends with Completer Abort; one at an
offset with nothing, or in a window that does not answer, is ignored. -/
def registerWrite (off v : Nat) (s : State) : State :=
  if off % 4 != 0 then emit (.completerAbort off) s
  else if 0x1000000 ≤ off then doorbell ((off - 0x1000000) / 4) v s
  else match regAt s off with
    | none => s
    | some (w, r, i, high) =>
      if !regAnswers s w r || (w != pkgWin && !regOpen s w) || r.flds.all (fun f => f.info.acc == .ro) then s
      else if !r.info.wide then writeOne w i r v s
      else if high then writeTop w i r v s
      else writeLow w i r v s

def execRegisterWrite (off v : Nat) (s : State) : Host.Outcome State Fault Refusal := .next (registerWrite off (v % 2 ^ 32) s)

end Sys2Proof.Machine
end

