-- ==== Sys2Proof/Machine/Dispatch.lean ====
section
/-!
DEFINITION. Sys2Proof/Machine/Dispatch.lean: which meaning each command has.
-/
namespace Sys2Proof.Machine
open Sys2Proof

def exec (i : Instr) (s : State) : Host.Outcome State Fault Refusal :=
  match i with
  | .tcpConnectionRequest tile port iface req => Sys2Proof.Machine.execTcpConnectionRequest tile port iface req s
  | .rdmaConnectionRequest tile port req => Sys2Proof.Machine.execRdmaConnectionRequest tile port req s
  | .capsuleReceived conn cap => Sys2Proof.Machine.execCapsuleReceived conn cap s
  | .h2cdataPdu conn cmd offset data hdgstOk ddgstOk => Sys2Proof.Machine.execH2cdataPdu conn cmd offset data hdgstOk ddgstOk s
  | .rdmaReadCompletion cmd ok data => Sys2Proof.Machine.execRdmaReadCompletion cmd ok data s
  | .hostMemoryReadCompletion cmd r => Sys2Proof.Machine.execHostMemoryReadCompletion cmd r s
  | .submissionQueueTailDoorbell cntlid sqid value => Sys2Proof.Machine.execSubmissionQueueTailDoorbell cntlid sqid value s
  | .completionQueueHeadDoorbell cntlid cqid value => Sys2Proof.Machine.execCompletionQueueHeadDoorbell cntlid cqid value s
  | .commandFetch tile entries => Sys2Proof.Machine.execCommandFetch tile entries s
  | .heldCommandAdmit tile nsid => Sys2Proof.Machine.execHeldCommandAdmit tile nsid s
  | .rateInterval => Sys2Proof.Machine.execRateInterval s
  | .urgentBudgetInterval => Sys2Proof.Machine.execUrgentBudgetInterval s
  | .interruptAggregationTime cntlid vector => Sys2Proof.Machine.execInterruptAggregationTime cntlid vector s
  | .controllerEnable endpoint function adm cc => Sys2Proof.Machine.execControllerEnable endpoint function adm cc s
  | .controllerReset cntlid => Sys2Proof.Machine.execControllerReset cntlid s
  | .shutdown cntlid abrupt => Sys2Proof.Machine.execShutdown cntlid abrupt s
  | .functionLevelReset endpoint function => Sys2Proof.Machine.execFunctionLevelReset endpoint function s
  | .conventionalReset endpoint => Sys2Proof.Machine.execConventionalReset endpoint s
  | .fabricsConnect conn data => Sys2Proof.Machine.execFabricsConnect conn data s
  | .propertyGet a offset => Sys2Proof.Machine.execPropertyGet a offset s
  | .propertySet a offset value => Sys2Proof.Machine.execPropertySet a offset value s
  | .disconnect a qid => Sys2Proof.Machine.execDisconnect a qid s
  | .keepAlive a => Sys2Proof.Machine.execKeepAlive a s
  | .keepAliveExpiry cntlid => Sys2Proof.Machine.execKeepAliveExpiry cntlid s
  | .createIoSubmissionQueue a sqid ring cqid qprio => Sys2Proof.Machine.execCreateIoSubmissionQueue a sqid ring cqid qprio s
  | .createIoCompletionQueue a cqid ring vector ien => Sys2Proof.Machine.execCreateIoCompletionQueue a cqid ring vector ien s
  | .deleteIoSubmissionQueue a sqid => Sys2Proof.Machine.execDeleteIoSubmissionQueue a sqid s
  | .deleteIoCompletionQueue a cqid => Sys2Proof.Machine.execDeleteIoCompletionQueue a cqid s
  | .asynchronousEventRequest a => Sys2Proof.Machine.execAsynchronousEventRequest a s
  | .abort a sqid cid => Sys2Proof.Machine.execAbort a sqid cid s
  | .queueThaw a sqid => Sys2Proof.Machine.execQueueThaw a sqid s
  | .identify a cns nsid => Sys2Proof.Machine.execIdentify a cns nsid s
  | .setFeaturesNumberOfQueues a nsqr ncqr => Sys2Proof.Machine.execSetFeaturesNumberOfQueues a nsqr ncqr s
  | .setFeaturesArbitration a burst lpw mpw hpw => Sys2Proof.Machine.execSetFeaturesArbitration a burst lpw mpw hpw s
  | .setFeaturesInterruptCoalescing a fid cdw11 => Sys2Proof.Machine.execSetFeaturesInterruptCoalescing a fid cdw11 s
  | .setFeaturesOrderingMode a cdw11 => Sys2Proof.Machine.execSetFeaturesOrderingMode a cdw11 s
  | .setFeaturesQueueClass a cdw11 => Sys2Proof.Machine.execSetFeaturesQueueClass a cdw11 s
  | .setFeaturesQueueFreezeMode a cdw11 => Sys2Proof.Machine.execSetFeaturesQueueFreezeMode a cdw11 s
  | .setFeaturesSecureDeallocation a nsid cdw11 => Sys2Proof.Machine.execSetFeaturesSecureDeallocation a nsid cdw11 s
  | .getFeatures a fid cdw11 => Sys2Proof.Machine.execGetFeatures a fid cdw11 s
  | .getFeaturesOrderingMode a => Sys2Proof.Machine.execGetFeaturesOrderingMode a s
  | .getFeaturesQueueClass a sqid => Sys2Proof.Machine.execGetFeaturesQueueClass a sqid s
  | .getFeaturesQueueFreezeMode a sqid => Sys2Proof.Machine.execGetFeaturesQueueFreezeMode a sqid s
  | .getFeaturesSecureDeallocation a nsid => Sys2Proof.Machine.execGetFeaturesSecureDeallocation a nsid s
  | .namespaceCreate a r => Sys2Proof.Machine.execNamespaceCreate a r s
  | .namespaceDelete a nsid => Sys2Proof.Machine.execNamespaceDelete a nsid s
  | .namespaceDeleteDrain nsid => Sys2Proof.Machine.execNamespaceDeleteDrain nsid s
  | .namespaceUnmapEnd nsid => Sys2Proof.Machine.execNamespaceUnmapEnd nsid s
  | .namespaceAttach a nsid byTenant list => Sys2Proof.Machine.execNamespaceAttach a nsid byTenant list s
  | .namespaceDetach a nsid byTenant list => Sys2Proof.Machine.execNamespaceDetach a nsid byTenant list s
  | .detachDrain nsid => Sys2Proof.Machine.execDetachDrain nsid s
  | .formatNvm a nsid ses lbaf => Sys2Proof.Machine.execFormatNvm a nsid ses lbaf s
  | .sanitize a action => Sys2Proof.Machine.execSanitize a action s
  | .keyLoad a nsid data => Sys2Proof.Machine.execKeyLoad a nsid data s
  | .keyLoadConfirm nsid tile ok => Sys2Proof.Machine.execKeyLoadConfirm nsid tile ok s
  | .keySlotClear nsid readback => Sys2Proof.Machine.execKeySlotClear nsid readback s
  | .namespaceLimits a nsid data => Sys2Proof.Machine.execNamespaceLimits a nsid data s
  | .tenantSet a data => Sys2Proof.Machine.execTenantSet a data s
  | .tenantGet a id => Sys2Proof.Machine.execTenantGet a id s
  | .tenantDelete a id => Sys2Proof.Machine.execTenantDelete a id s
  | .bptCmdTail value => Sys2Proof.Machine.execBptCmdTail value s
  | .bptRspHead value => Sys2Proof.Machine.execBptRspHead value s
  | .bptMtrHead value => Sys2Proof.Machine.execBptMtrHead value s
  | .bptEvtHead value => Sys2Proof.Machine.execBptEvtHead value s
  | .descriptorFetch desc dmaOk => Sys2Proof.Machine.execDescriptorFetch desc dmaOk s
  | .ringCoalesceTimer k => Sys2Proof.Machine.execRingCoalesceTimer k s
  | .configCommit => Sys2Proof.Machine.execConfigCommit s
  | .providerSet data => Sys2Proof.Machine.execProviderSet data s
  | .providerGet => Sys2Proof.Machine.execProviderGet s
  | .netifSet data => Sys2Proof.Machine.execNetifSet data s
  | .netifGet cdw10 => Sys2Proof.Machine.execNetifGet cdw10 s
  | .identityGet => Sys2Proof.Machine.execIdentityGet s
  | .ringEnable k value => Sys2Proof.Machine.execRingEnable k value s
  | .boardPortReset => Sys2Proof.Machine.execBoardPortReset s
  | .commit => Sys2Proof.Machine.execCommit s
  | .revert => Sys2Proof.Machine.execRevert s
  | .commitValidated => Sys2Proof.Machine.execCommitValidated s
  | .commitApplied => Sys2Proof.Machine.execCommitApplied s
  | .miCommandHealth => Sys2Proof.Machine.execMiCommandHealth s
  | .miCommandStatic => Sys2Proof.Machine.execMiCommandStatic s
  | .mapLookup cmd lba => Sys2Proof.Machine.execMapLookup cmd lba s
  | .mapUpdate src => Sys2Proof.Machine.execMapUpdate src s
  | .mapFetchDone nsid region got => Sys2Proof.Machine.execMapFetchDone nsid region got s
  | .writeBackStart slot nsid rec_ => Sys2Proof.Machine.execWriteBackStart slot nsid rec_ s
  | .writeBackProgrammed slot nsid index addr len => Sys2Proof.Machine.execWriteBackProgrammed slot nsid index addr len s
  | .journalEntryMirrored cmd region => Sys2Proof.Machine.execJournalEntryMirrored cmd region s
  | .journalQuarterTimer slot => Sys2Proof.Machine.execJournalQuarterTimer slot s
  | .journalSegmentProgrammed slot => Sys2Proof.Machine.execJournalSegmentProgrammed slot s
  | .mapCheckpoint slot => Sys2Proof.Machine.execMapCheckpoint slot s
  | .forwardReceived cmd => Sys2Proof.Machine.execForwardReceived cmd s
  | .forwardConfirm cmd => Sys2Proof.Machine.execForwardConfirm cmd s
  | .forwardTimeout cmd => Sys2Proof.Machine.execForwardTimeout cmd s
  | .adoptedRecordLoad slot nsid dir => Sys2Proof.Machine.execAdoptedRecordLoad slot nsid dir s
  | .slotHandBack slot nsid index => Sys2Proof.Machine.execSlotHandBack slot nsid index s
  | .regionCoalesce nsid region => Sys2Proof.Machine.execRegionCoalesce nsid region s
  | .mapReplayDone slot => Sys2Proof.Machine.execMapReplayDone slot s
  | .extentStaged ext => Sys2Proof.Machine.execExtentStaged ext s
  | .mirrorCopyReceived seq => Sys2Proof.Machine.execMirrorCopyReceived seq s
  | .mirrorConfirm seq => Sys2Proof.Machine.execMirrorConfirm seq s
  | .stageConfirm seq => Sys2Proof.Machine.execStageConfirm seq s
  | .mapConfirm cmd region fromMirror => Sys2Proof.Machine.execMapConfirm cmd region fromMirror s
  | .reservationRequest tile sg stream blank => Sys2Proof.Machine.execReservationRequest tile sg stream blank s
  | .unitReturn tile sg stream member => Sys2Proof.Machine.execUnitReturn tile sg stream member s
  | .rowTimerExpiry sg stream => Sys2Proof.Machine.execRowTimerExpiry sg stream s
  | .parityUnitReceived sg band row member data => Sys2Proof.Machine.execParityUnitReceived sg band row member data s
  | .rowProgramDone sg band row => Sys2Proof.Machine.execRowProgramDone sg band row s
  | .programFailure sg band row member => Sys2Proof.Machine.execProgramFailure sg band row member s
  | .seqPadTimer sg stream => Sys2Proof.Machine.execSeqPadTimer sg stream s
  | .writeSequenceLease tile => Sys2Proof.Machine.execWriteSequenceLease tile s
  | .headroomLeaseRequest tile nsid => Sys2Proof.Machine.execHeadroomLeaseRequest tile nsid s
  | .slcBufferRecompute => Sys2Proof.Machine.execSlcBufferRecompute s
  | .promotionStart sg => Sys2Proof.Machine.execPromotionStart sg s
  | .reclaimRescore => Sys2Proof.Machine.execReclaimRescore s
  | .livenessQuery sg band addr => Sys2Proof.Machine.execLivenessQuery sg band addr s
  | .relocationCommitted sg band => Sys2Proof.Machine.execRelocationCommitted sg band s
  | .eraseDrainEnd sg band => Sys2Proof.Machine.execEraseDrainEnd sg band s
  | .nandEraseDone sg band member => Sys2Proof.Machine.execNandEraseDone sg band member s
  | .eraseFailure sg band member blank => Sys2Proof.Machine.execEraseFailure sg band member blank s
  | .censusRegion nsid region => Sys2Proof.Machine.execCensusRegion nsid region s
  | .summaryRebuildDone tile => Sys2Proof.Machine.execSummaryRebuildDone tile s
  | .sweepRowsProgrammed id => Sys2Proof.Machine.execSweepRowsProgrammed id s
  | .sweepEnd id => Sys2Proof.Machine.execSweepEnd id s
  | .sweepLogExpiry id => Sys2Proof.Machine.execSweepLogExpiry id s
  | .medEnable tile value => Sys2Proof.Machine.execMedEnable tile value s
  | .channelTrainingStep ch ok found unexpected bad => Sys2Proof.Machine.execChannelTrainingStep ch ok found unexpected bad s
  | .trainingBurst ch margin => Sys2Proof.Machine.execTrainingBurst ch margin s
  | .trackingBurstDue ch load margin => Sys2Proof.Machine.execTrackingBurstDue ch load margin s
  | .chRateDown ch trained => Sys2Proof.Machine.execChRateDown ch trained s
  | .chRateUp ch holds => Sys2Proof.Machine.execChRateUp ch holds s
  | .nandReadDone op => Sys2Proof.Machine.execNandReadDone op s
  | .nandProgramDone sg band row member final => Sys2Proof.Machine.execNandProgramDone sg band row member final s
  | .nandSuspendDone die us => Sys2Proof.Machine.execNandSuspendDone die us s
  | .suspendWaitExpiry op => Sys2Proof.Machine.execSuspendWaitExpiry op s
  | .ldpcDecodeDone op words levels => Sys2Proof.Machine.execLdpcDecodeDone op words levels s
  | .dieReadyTimeout die => Sys2Proof.Machine.execDieReadyTimeout die s
  | .patrolRead die block page worst => Sys2Proof.Machine.execPatrolRead die block page worst s
  | .disturbLimit die block => Sys2Proof.Machine.execDisturbLimit die block s
  | .readLevelSave tile => Sys2Proof.Machine.execReadLevelSave tile s
  | .fingerprintReport sg band row member fpP fpQ => Sys2Proof.Machine.execFingerprintReport sg band row member fpP fpQ s
  | .parityMismatchLocate sg band row sp sq => Sys2Proof.Machine.execParityMismatchLocate sg band row sp sq s
  | .rowStoreExpiry sg band row => Sys2Proof.Machine.execRowStoreExpiry sg band row s
  | .reconstructionDone op lostCodewords data => Sys2Proof.Machine.execReconstructionDone op lostCodewords data s
  | .lostRangeSearch sg band row member => Sys2Proof.Machine.execLostRangeSearch sg band row member s
  | .healBandStart sg => Sys2Proof.Machine.execHealBandStart sg s
  | .substDone sg band member => Sys2Proof.Machine.execSubstDone sg band member s
  | .verifyStart tile value => Sys2Proof.Machine.execVerifyStart tile value s
  | .verifyEnd tile units => Sys2Proof.Machine.execVerifyEnd tile units s
  | .sjTailTimer sg => Sys2Proof.Machine.execSjTailTimer sg s
  | .sjSnapshot sg => Sys2Proof.Machine.execSjSnapshot sg s
  | .sjCopyLost sg copy => Sys2Proof.Machine.execSjCopyLost sg copy s
  | .sjCopyRestored sg copy => Sys2Proof.Machine.execSjCopyRestored sg copy s
  | .bpmEnable tile value => Sys2Proof.Machine.execBpmEnable tile value s
  | .bufferAllocate tile len cls sramOk => Sys2Proof.Machine.execBufferAllocate tile len cls sramOk s
  | .bufferFree tile handle => Sys2Proof.Machine.execBufferFree tile handle s
  | .poolReset tile value => Sys2Proof.Machine.execPoolReset tile value s
  | .poolRebuildDone tile pool => Sys2Proof.Machine.execPoolRebuildDone tile pool s
  | .cmpEnable tile value => Sys2Proof.Machine.execCmpEnable tile value s
  | .compressJob tile j => Sys2Proof.Machine.execCompressJob tile j s
  | .decompressJob tile j => Sys2Proof.Machine.execDecompressJob tile j s
  | .crcOnlyJob tile j => Sys2Proof.Machine.execCrcOnlyJob tile j s
  | .streamSlotTimeout tile slot => Sys2Proof.Machine.execStreamSlotTimeout tile slot s
  | .cryEnable tile value failedLanes => Sys2Proof.Machine.execCryEnable tile value failedLanes s
  | .encryptJob tile j laneFault => Sys2Proof.Machine.execEncryptJob tile j laneFault s
  | .decryptJob tile j laneFault => Sys2Proof.Machine.execDecryptJob tile j laneFault s
  | .digestDirectOpen tile owner alg key expected => Sys2Proof.Machine.execDigestDirectOpen tile owner alg key expected s
  | .digestSnoopOpen tile owner source len alg key expected => Sys2Proof.Machine.execDigestSnoopOpen tile owner source len alg key expected s
  | .digestData tile ctx owner data => Sys2Proof.Machine.execDigestData tile ctx owner data s
  | .snoopStreamEnd tile ctx data => Sys2Proof.Machine.execSnoopStreamEnd tile ctx data s
  | .digestFinish tile ctx owner expected => Sys2Proof.Machine.execDigestFinish tile ctx owner expected s
  | .digestRelease tile ctx => Sys2Proof.Machine.execDigestRelease tile ctx s
  | .signatureVerifyRequest tile owner key pub sig => Sys2Proof.Machine.execSignatureVerifyRequest tile owner key pub sig s
  | .signatureVerifyDone tile => Sys2Proof.Machine.execSignatureVerifyDone tile s
  | .drcEnable tile value => Sys2Proof.Machine.execDrcEnable tile value s
  | .dramStartStep tile ok => Sys2Proof.Machine.execDramStartStep tile ok s
  | .dramRead tile acc beats => Sys2Proof.Machine.execDramRead tile acc beats s
  | .dramAlert tile acc matched again => Sys2Proof.Machine.execDramAlert tile acc matched again s
  | .refreshDue tile rank inHand => Sys2Proof.Machine.execRefreshDue tile rank inHand s
  | .tempPoll tile reports => Sys2Proof.Machine.execTempPoll tile reports s
  | .scrub tile acc beats => Sys2Proof.Machine.execScrub tile acc beats s
  | .rowIdleClose tile subch rank group bank => Sys2Proof.Machine.execRowIdleClose tile subch rank group bank s
  | .rankPowerDown tile rank => Sys2Proof.Machine.execRankPowerDown tile rank s
  | .retrainStep tile rank wrMargin rdMargin => Sys2Proof.Machine.execRetrainStep tile rank wrMargin rdMargin s
  | .dramMarginLow tile rank => Sys2Proof.Machine.execDramMarginLow tile rank s
  | .captureStatusRead tile => Sys2Proof.Machine.execCaptureStatusRead tile s
  | .drcRestart tile value => Sys2Proof.Machine.execDrcRestart tile value s
  | .getLogPageErrorInformation a => Sys2Proof.Machine.execGetLogPageErrorInformation a s
  | .getLogPageSmartHealth a nsid => Sys2Proof.Machine.execGetLogPageSmartHealth a nsid s
  | .getLogPageEnduranceGroup a egid => Sys2Proof.Machine.execGetLogPageEnduranceGroup a egid s
  | .getLogPageFirmwareSlot a => Sys2Proof.Machine.execGetLogPageFirmwareSlot a s
  | .getLogPageDiscovery conn => Sys2Proof.Machine.execGetLogPageDiscovery conn s
  | .getLogPageFrozenQueues a => Sys2Proof.Machine.execGetLogPageFrozenQueues a s
  | .getLogPageTenantService a => Sys2Proof.Machine.execGetLogPageTenantService a s
  | .getLogPageSecureDeallocProgress a => Sys2Proof.Machine.execGetLogPageSecureDeallocProgress a s
  | .getLogPageLostRanges a rae => Sys2Proof.Machine.execGetLogPageLostRanges a rae s
  | .getLogPageFirmwareStaging a => Sys2Proof.Machine.execGetLogPageFirmwareStaging a s
  | .getLogPageDeviceHealth a => Sys2Proof.Machine.execGetLogPageDeviceHealth a s
  | .read cmd => Sys2Proof.Machine.execRead cmd s
  | .write cmd => Sys2Proof.Machine.execWrite cmd s
  | .flush cmd => Sys2Proof.Machine.execFlush cmd s
  | .compare cmd => Sys2Proof.Machine.execCompare cmd s
  | .writeZeroes cmd => Sys2Proof.Machine.execWriteZeroes cmd s
  | .verify cmd => Sys2Proof.Machine.execVerify cmd s
  | .datasetManagement cmd => Sys2Proof.Machine.execDatasetManagement cmd s
  | .stepReissue cmd => Sys2Proof.Machine.execStepReissue cmd s
  | .commandInterruptTimeout cmd => Sys2Proof.Machine.execCommandInterruptTimeout cmd s
  | .firmwareImageDownload a offset data => Sys2Proof.Machine.execFirmwareImageDownload a offset data s
  | .pieceWriteDone piece ok => Sys2Proof.Machine.execPieceWriteDone piece ok s
  | .digestCheckDone => Sys2Proof.Machine.execDigestCheckDone s
  | .firmwareCommitRecovery a ca fs => Sys2Proof.Machine.execFirmwareCommitRecovery a ca fs s
  | .firmwareCommitNextStart a fs => Sys2Proof.Machine.execFirmwareCommitNextStart a fs s
  | .firmwareCommitImmediate a fs => Sys2Proof.Machine.execFirmwareCommitImmediate a fs s
  | .activationStart residentOk => Sys2Proof.Machine.execActivationStart residentOk s
  | .activationQuiescent => Sys2Proof.Machine.execActivationQuiescent s
  | .activationEnd => Sys2Proof.Machine.execActivationEnd s
  | .firmwareConfirm a imageId => Sys2Proof.Machine.execFirmwareConfirm a imageId s
  | .installStepDone ok => Sys2Proof.Machine.execInstallStepDone ok s
  | .boot readFail tileFail => Sys2Proof.Machine.execBoot readFail tileFail s
  | .bootPrimaryTimeout readFail tileFail => Sys2Proof.Machine.execBootPrimaryTimeout readFail tileFail s
  | .cflashOperationDone ok us => Sys2Proof.Machine.execCflashOperationDone ok us s
  | .cflashIdleOff => Sys2Proof.Machine.execCflashIdleOff s
  | .stageClear value => Sys2Proof.Machine.execStageClear value s
  | .portDrainEnd tile => Sys2Proof.Machine.execPortDrainEnd tile s
  | .laneRestart tile => Sys2Proof.Machine.execLaneRestart tile s
  | .hostLinkUp tile port rate width narrow => Sys2Proof.Machine.execHostLinkUp tile port rate width narrow s
  | .hostLinkDown tile port => Sys2Proof.Machine.execHostLinkDown tile port s
  | .meshPacketReceived tile inp pkt crcOk => Sys2Proof.Machine.execMeshPacketReceived tile inp pkt crcOk s
  | .meshPacketSent tile out => Sys2Proof.Machine.execMeshPacketSent tile out s
  | .mgmtEscape tile at_ => Sys2Proof.Machine.execMgmtEscape tile at_ s
  | .meshLinkDown tile link trainingLost => Sys2Proof.Machine.execMeshLinkDown tile link trainingLost s
  | .meshLinkRetrain tile link ok => Sys2Proof.Machine.execMeshLinkRetrain tile link ok s
  | .routeHoldEnd src hold => Sys2Proof.Machine.execRouteHoldEnd src hold s
  | .transportConnectionClosed conn => Sys2Proof.Machine.execTransportConnectionClosed conn s
  | .neighbourResolutionRequest tile port vlan target => Sys2Proof.Machine.execNeighbourResolutionRequest tile port vlan target s
  | .echoRequest tile port vlan target data => Sys2Proof.Machine.execEchoRequest tile port vlan target data s
  | .priorityPauseFrame tile port prio quanta => Sys2Proof.Machine.execPriorityPauseFrame tile port prio quanta s
  | .powerFailDeclared => Sys2Proof.Machine.execPowerFailDeclared s
  | .pfWarn pin => Sys2Proof.Machine.execPfWarn pin s
  | .sagEnd => Sys2Proof.Machine.execSagEnd s
  | .budgetRecompute low now => Sys2Proof.Machine.execBudgetRecompute low now s
  | .bankAbsent => Sys2Proof.Machine.execBankAbsent s
  | .dischargeTestStart => Sys2Proof.Machine.execDischargeTestStart s
  | .testInterval => Sys2Proof.Machine.execTestInterval s
  | .hsenseRise => Sys2Proof.Machine.execHsenseRise s
  | .testCharged pin => Sys2Proof.Machine.execTestCharged pin s
  | .testEsrSample pin => Sys2Proof.Machine.execTestEsrSample pin s
  | .testDischargeEnd us => Sys2Proof.Machine.execTestDischargeEnd us s
  | .testTimeout => Sys2Proof.Machine.execTestTimeout s
  | .testNow => Sys2Proof.Machine.execTestNow s
  | .bankRelease => Sys2Proof.Machine.execBankRelease s
  | .bankSafe => Sys2Proof.Machine.execBankSafe s
  | .prepareOff => Sys2Proof.Machine.execPrepareOff s
  | .offReady => Sys2Proof.Machine.execOffReady s
  | .dumpTileReport tile done => Sys2Proof.Machine.execDumpTileReport tile done s
  | .restartRecordTimeout us => Sys2Proof.Machine.execRestartRecordTimeout us s
  | .postDumpRestart => Sys2Proof.Machine.execPostDumpRestart s
  | .holdupRelease => Sys2Proof.Machine.execHoldupRelease s
  | .restart kept storeOk => Sys2Proof.Machine.execRestart kept storeOk s
  | .dumpRelease => Sys2Proof.Machine.execDumpRelease s
  | .sensorConversion tile sensor reading => Sys2Proof.Machine.execSensorConversion tile sensor reading s
  | .sensorFault tile sensor cond => Sys2Proof.Machine.execSensorFault tile sensor cond s
  | .sensorRestored tile sensor => Sys2Proof.Machine.execSensorRestored tile sensor s
  | .throttleStep tile => Sys2Proof.Machine.execThrottleStep tile s
  | .throttleFall tile => Sys2Proof.Machine.execThrottleFall tile s
  | .rateWindow tile => Sys2Proof.Machine.execRateWindow tile s
  | .compensationStep tile => Sys2Proof.Machine.execCompensationStep tile s
  | .oscillatorCalibration ppm => Sys2Proof.Machine.execOscillatorCalibration ppm s
  | .refclkLost ref => Sys2Proof.Machine.execRefclkLost ref s
  | .refclkRevert => Sys2Proof.Machine.execRefclkRevert s
  | .refclkBothLost => Sys2Proof.Machine.execRefclkBothLost s
  | .refclkReturn ref => Sys2Proof.Machine.execRefclkReturn ref s
  | .ethrefLost => Sys2Proof.Machine.execEthrefLost s
  | .ethrefReturn => Sys2Proof.Machine.execEthrefReturn s
  | .lightEntry tile => Sys2Proof.Machine.execLightEntry tile s
  | .tileWake tile => Sys2Proof.Machine.execTileWake tile s
  | .deepEntry => Sys2Proof.Machine.execDeepEntry s
  | .deepTimerWake work => Sys2Proof.Machine.execDeepTimerWake work s
  | .deepWake => Sys2Proof.Machine.execDeepWake s
  | .avsEnable value => Sys2Proof.Machine.execAvsEnable value s
  | .avsStep rail => Sys2Proof.Machine.execAvsStep rail s
  | .avsMonitorLow rail => Sys2Proof.Machine.execAvsMonitorLow rail s
  | .pmbusFault rail => Sys2Proof.Machine.execPmbusFault rail s
  | .pmbusAlert words => Sys2Proof.Machine.execPmbusAlert words s
  | .powerScaling measured raw => Sys2Proof.Machine.execPowerScaling measured raw s
  | .isenseFault cond => Sys2Proof.Machine.execIsenseFault cond s
  | .isenseRestored => Sys2Proof.Machine.execIsenseRestored s
  | .powerLimit avg order => Sys2Proof.Machine.execPowerLimit avg order s
  | .operatingMinute => Sys2Proof.Machine.execOperatingMinute s
  | .epochEnd energy peak => Sys2Proof.Machine.execEpochEnd energy peak s
  | .meteringCheckpoint m => Sys2Proof.Machine.execMeteringCheckpoint m s
  | .boardTimeWrite hi => Sys2Proof.Machine.execBoardTimeWrite hi s
  | .eventRaised storeOk => Sys2Proof.Machine.execEventRaised storeOk s
  | .tokenRefill => Sys2Proof.Machine.execTokenRefill s
  | .archiveAgeTimer => Sys2Proof.Machine.execArchiveAgeTimer s
  | .archiveProgrammed => Sys2Proof.Machine.execArchiveProgrammed s
  | .evrCursorWrite seq => Sys2Proof.Machine.execEvrCursorWrite seq s
  | .windowData7Read => Sys2Proof.Machine.execWindowData7Read s
  | .bandFetchDone => Sys2Proof.Machine.execBandFetchDone s
  | .qeEnable tile value => Sys2Proof.Machine.execQeEnable tile value s
  | .mapEnable tile value => Sys2Proof.Machine.execMapEnable tile value s
  | .plcEnable tile value => Sys2Proof.Machine.execPlcEnable tile value s
  | .rclEnable tile value => Sys2Proof.Machine.execRclEnable tile value s
  | .redEnable tile value => Sys2Proof.Machine.execRedEnable tile value s
  | .plpEnable value => Sys2Proof.Machine.execPlpEnable value s
  | .counterLowRead offset => Sys2Proof.Machine.execCounterLowRead offset s
  | .medDescDataAccess tile wr => Sys2Proof.Machine.execMedDescDataAccess tile wr s
  | .ldpcBaseDataRead tile => Sys2Proof.Machine.execLdpcBaseDataRead tile s
  | .digFuseDataRead tile => Sys2Proof.Machine.execDigFuseDataRead tile s
  | .thmHistDataRead tile => Sys2Proof.Machine.execThmHistDataRead tile s
  | .thmSensorRead tile => Sys2Proof.Machine.execThmSensorRead tile s
  | .fwuMapDataRead => Sys2Proof.Machine.execFwuMapDataRead s
  | .registerWrite offset value => Sys2Proof.Machine.execRegisterWrite offset value s
  | .heartbeat tile => Sys2Proof.Machine.execHeartbeat tile s
  | .heartbeatMissing tile => Sys2Proof.Machine.execHeartbeatMissing tile s
  | .mgmtRestartTimeout tile => Sys2Proof.Machine.execMgmtRestartTimeout tile s
  | .fenceRequest by_ tile => Sys2Proof.Machine.execFenceRequest by_ tile s
  | .vauxRise => Sys2Proof.Machine.execVauxRise s
  | .vauxLow => Sys2Proof.Machine.execVauxLow s
  | .vauxReturn => Sys2Proof.Machine.execVauxReturn s
  | .vauxLoss => Sys2Proof.Machine.execVauxLoss s
  | .pwrOkLow => Sys2Proof.Machine.execPwrOkLow s
  | .sysRstLLow => Sys2Proof.Machine.execSysRstLLow s
  | .sysRstLRelease power => Sys2Proof.Machine.execSysRstLRelease power s
  | .bportPerstLRelease => Sys2Proof.Machine.execBportPerstLRelease s
  | .formatUnmapEnd nsid => Sys2Proof.Machine.execFormatUnmapEnd nsid s
  | .resumeMinExpiry die => Sys2Proof.Machine.execResumeMinExpiry die s

end Sys2Proof.Machine
end

