-- ==== Sys2Proof/Machine/Idle.lean ====
section
/-!
DEFINITION. Sys2Proof/Machine/Idle.lean: what the device does while no command waits (DESIGN CHOICE): time passes, in steps of 1 ms.
-/
namespace Sys2Proof.Machine
open Sys2Proof

/-- The pauses of every port end. PRESUMED: the longest pause, 65,535 quanta of 512 bit times, is shorter than a millisecond at
100 Gbit/s. -/
def endPauses (s : State) : State :=
  sendHeld { s with host := { s.host with ports := s.host.ports.map fun p => { p with paused := [], allPaused := [] } } }

/-- The engines of a tile work off what they have: each request is far shorter than a millisecond (R87, R347, R360, R376). -/
def serveEngines (t : Nat) (s : State) : State :=
  let s1 := pipeRun t .decompressor (pipeRun t .compressor s)
  let s2 := serveCipher t (reqsAt s1 t .cipher).length s1
  serveDram t (reqsAt s2 t .dram).length s2

/-- One millisecond passes. Board time counts from the 100 MHz reference, in RUN (R118, R398). -/
def tick (s : State) : State :=
  endPauses <| (upTiles s).foldl (fun s t => serveEngines t s) { s with
    nowMs := s.nowMs + 1
    clock := { s.clock with boardTime := s.clock.boardTime + (if s.island.pkg == 2 then 1 else 0) } }

end Sys2Proof.Machine
end

