-- ==== Sys2Proof/Safety.lean ====
section
/-!
DEFINITION. Sys2Proof/Safety.lean: what a safe run is, in the terms the claims use.
-/
namespace Sys2Proof.Machine
open Sys2Proof

/-- A step answers a state. -/
def Answers (s : State) : Prop := ∃ t, step s = .next t

/-- A command, run on a state, answers a next state of which `P` holds. -/
def Next (c : Instr) (s : State) (P : State → Prop) : Prop := ∃ t, exec c s = .next t ∧ P t

/-- The buffer memory is in its canonical form. -/
def MemoryOk (s : State) : Prop := Memory.wf s.mem = true

/-- From `s` to `t` exactly one event was raised, and nothing else of the recorder changed. -/
def Logs (e : Ev) (tile : Nat) (params : List Nat) (s t : State) : Prop :=
  t.evr = { s.evr with raised := s.evr.raised ++ [{ ev := e, tile := tile, params := params }] }

/-- From `s` to `t` exactly this was sent or driven. -/
def Sends (l : List Out) (s t : State) : Prop := t.outs = s.outs ++ l

/-- A message has been sent, or waits until the host no longer pauses its port or priority (R44). -/
def Sent (o : Out) (t : State) : Prop := o ∈ t.outs ∨ ∃ h ∈ t.heldOuts, h.out = o

/-- An admin command of this kind runs now: it waits, no activation or other operation of the provider plane holds it, its issuer may
send it, and what it changes can become durable (R53, R97, R100, R443). -/
def AdmRuns (k : AdminKind) (a : Adm) (s : State) : Prop :=
  admWaits s a = true ∧ (k ≠ .atOnce → s.fw.activating = false) ∧
  (k.onPlane = true → admProvider s a = true ∧ planeBusy s a = false) ∧ (k = .registry → s.fw.flash.failed = false)

/-- From `s` to `t` no register field changed but these, each named by its window, its copy and itself. -/
def OnlyFields (l : List (Nat × Nat × Fld)) (s t : State) : Prop :=
  t.regs = { s.regs with live := t.regs.live } ∧ ∀ w i f, (w, i, f) ∉ l → t.fld w i f = s.fld w i f

/-- Every byte outside the `n` bytes from an address reads as before. -/
def OnlyBytes (a n : Nat) (s t : State) : Prop := ∀ k, k < a ∨ a + n ≤ k → memRead t.mem k = memRead s.mem k

/-- Nothing waits at a tile's engine, and its pipe has no job in hand or adjourned (R87, R347). -/
def EngineFree (tile : Nat) (u : EngUnit) (s : State) : Prop :=
  reqsAt s tile u = [] ∧ (pipeOf s tile u).hand = none ∧ (pipeOf s tile u).saved = none

/-- From `s` to `t` the requests at every engine are as before, and every pipe and turn but those of one engine, which is free. -/
def OnlyEngine (tile : Nat) (u : EngUnit) (s t : State) : Prop :=
  EngineFree tile u t ∧ t.eng.reqs = s.eng.reqs ∧
  ∀ a v, ¬(a = tile ∧ v = u) → pipeOf t a v = pipeOf s a v ∧ turnsAt t a v = turnsAt s a v

/-- A compression job that is a whole stream from one good buffer into another, its engine enabled and free, its descriptor in range and
its source as long as it says (R340, R344). -/
def PlainJob (op : CmpOp) (tile : Nat) (j : CmpJob) (s : State) : Prop :=
  s.tfld tile .cmp_cfg_cmp_enable = 1 ∧ jobInRange op j = true ∧ j.slot = 0xFF ∧ jFirst j = true ∧ jLast j = true ∧
  bitOf j.flags 4 = false ∧ bitOf j.flags 5 = false ∧ handleGood s tile j.inHandle = true ∧
  handleGood s tile j.outHandle = true ∧ j.inLen ≤ poolSize (hPool j.inHandle) ∧ j.source = j.inLen ∧ MemoryOk s ∧
  EngineFree tile op.pipe s

/-- The extents, but for whether the host has the completion of their write. -/
def plainExts (s : State) : List Ext := s.wr.exts.map fun e => { e with acked := false }

/-- The firmware side where nothing but the config stores, and the erases that keeping them takes, changed from `s` to `t` (R462). -/
def storesOf (s t : State) : FwState :=
  { s.fw with stores := t.fw.stores, flash := { s.fw.flash with erases := t.fw.flash.erases } }

/-- From `s` to `t` only what ending a command or sending an asynchronous event may touch has changed: the host side, the rings, the
counts and meters, the pools, the admin commands held, the events and what is sent or waits to be sent; of the extents, whether the host has the completion of
their write (R93); of the registers, the count of bad frees alone (R333). -/
def OnlyHostSide (s t : State) : Prop :=
  t = { s with mem := t.mem, regs := { s.regs with live := t.regs.live }, host := t.host, clock := t.clock, pools := t.pools,
               evr := t.evr, board := t.board, health := t.health, outs := t.outs, heldOuts := t.heldOuts,
               heldAdmin := t.heldAdmin, released := t.released, cleared := t.cleared, wr := { s.wr with exts := t.wr.exts } } ∧
  plainExts t = plainExts s ∧
  ∀ w i f, f ≠ .bpm_bad_free_bad_frees → t.fld w i f = s.fld w i f

end Sys2Proof.Machine
end

