-- ==== Sys2Proof/Certificates/Slice0/Obligations.lean ====
section
/-!
DEFINITION. Sys2Proof/Certificates/Slice0/Obligations.lean: the statements about the model, for the provers.
-/
open Sys2Proof Sys2Proof.Machine

/-- A step runs the command at the front of the queue, with the queue's rest (the log's entry 1: the queue is the model's). On an
empty queue it runs a command that was held (entry 1), and with none of those one millisecond passes (entry 2, the model's
choice). -/
def Obligations.StepRunsTheFrontCommand : Prop :=
  (∀ (c : Instr) (rest : List Instr) (s : State), s.pending = c :: rest → step s = exec c { s with pending := rest }) ∧
  (∀ (c : Adm × Instr) (rest : List (Adm × Instr)) (s : State), s.pending = [] → s.released = c :: rest →
    step s = exec c.2 { s with released := rest }) ∧
  (∀ (s : State), s.pending = [] → s.released = [] → step s = .next (tick s))

/-- R304, R392, R401, R419, R468, R484: what the spec says of the device before its first start. Every other value of the reset
state is the model's (the log's entries 5 and 6), and nothing here rests on one. -/
def Obligations.WhatResetLeaves : Prop :=
  State.reset.pending = [] ∧ State.reset.island.pkg = 0 ∧ MemoryOk State.reset ∧
  (∀ w i f, State.reset.fld w i f = f.resetOf i) ∧
  State.reset.plp.writeThrough = true ∧ (∀ k, State.reset.plp.causes.contains k = true ↔ k = 1 ∨ k = 2) ∧
  State.reset.evr.last = 0 ∧ State.reset.fw.running = false ∧ State.reset.host.ctrls = [] ∧ State.reset.host.cmds = [] ∧
  (∀ k, ringOn State.reset k = false) ∧ ∀ x ∈ State.reset.therm.tiles, x.level = 0

/-- The buffer memory keeps its canonical form (the log's entry 7): strictly rising addresses, no byte listed that reads 0 anyway.
-/
def Obligations.EveryStepKeepsTheMemoryCanonical : Prop :=
  ∀ (s t : State), MemoryOk s → step s = .next t → MemoryOk t

/-- R1, R3, R350, R351, R352, R444, R461: every command completes, none reaches the queue, and none changes what the unit is. Of
the fuses, a security floor bit and a revoked key stay so. It rests on the log's entry 1, the model's own. -/
def Obligations.NoCommandReachesTheQueueOrTheIdentity : Prop :=
  ∀ (c : Instr) (s : State), Next c s fun t => t.pending = s.pending ∧
    t.ident = { s.ident with securityFloor := t.ident.securityFloor, keyRevoked := t.ident.keyRevoked } ∧
    (∀ k, k < 32 → s.ident.securityFloor.testBit k = true → t.ident.securityFloor.testBit k = true) ∧
    ∀ k, k < 4 → bitOf s.ident.keyRevoked k = true → bitOf t.ident.keyRevoked k = true

/-- R44, R46, R53, R69, R74, R88, R89, R94, R97, R100, R443, R476: when an admin command runs, and how a command ends. It rests on
the log's entries 3, 90, the model's own. -/
def Obligations.WhenACommandRunsAndEnds : Prop :=
  (∀ (k : AdminKind) (a : Adm) (i : Instr) (f : State → State) (s : State),
    (admWaits s a = false → runAdmin k a i f s = passTurn a s) ∧
    (admWaits s a = true → s.fw.activating = true → k ≠ .atOnce → runAdmin k a i f s = holdAdmin a i s) ∧
    (admWaits s a = true → (s.fw.activating = false ∨ k = .atOnce) → k.onPlane = true → admProvider s a = false →
      runAdmin k a i f s = passTurn a (admDone a .invalidOpcode 0 s)) ∧
    (admWaits s a = true → s.fw.activating = false → k.onPlane = true → admProvider s a = true →
      (s.prov.isSome = true ∨ (s.released ≠ [] ∧ s.cleared.contains a = false)) → runAdmin k a i f s = holdAdmin a i s) ∧
    (admWaits s a = true → s.fw.activating = false → admProvider s a = true → planeBusy s a = false → s.fw.flash.failed = true →
      runAdmin .registry a i f s = passTurn a (admDone a .internalError 0 s)) ∧
    (AdmRuns k a s → runAdmin k a i f s = passTurn a (if k = .registry then syncStores (f s) else f s)) ∧
    (s.cleared = [] → holdAdmin a i s = { s with heldAdmin := s.heldAdmin ++ [(a, i)] }) ∧
    (s.cleared.contains a = false → passTurn a s = s) ∧
    ((provEnd s).prov = none ∧ (provEnd s).released = s.released ++ s.heldAdmin ∧ (provEnd s).heldAdmin = [] ∧
      (provEnd s).cleared = s.cleared ++ s.heldAdmin.map (·.1))) ∧
  (∀ (id dw0 : Nat) (st : Status) (c : Cmd) (s : State), findCmd s id = some c → c.discard = false →
    (∀ x ∈ s.host.cmds, x.id ≠ id → x.phase ≠ .ended) →
    let e := { c with phase := .ended, status := st, dw0 := dw0, took := true }
    let s1 := updCmd id (fun c => { c with phase := .ended, status := st, dw0 := dw0, took := true }) s
    (mayPost s1 e = true →
      let u := finishCmd id st dw0 s
      findCmd u id = none ∧
      (c.cap.op ≠ .read ∨ st ≠ .success → ∃ dw head, Sent (.completion c.cntlid c.sqid c.cap.cid st dw head) u ∧
        (c.sqid = 0 → dw = dw0) ∧ (c.sqid ≠ 0 → dw % 2 ^ 31 = dw0 % 2 ^ 31)) ∧
      (c.cap.op = .read → st = .success → ∃ alone, Sent (.readData c.cntlid c.sqid c.cap.cid c.data alone) u ∧
        (alone = false → ∃ dw head, Sent (.completion c.cntlid c.sqid c.cap.cid st dw head) u) ∧
        (alone = true → ∃ q, findSq s c.cntlid c.sqid = some q ∧ q.transport = .tcp)) ∧
      (∀ x ∈ s.outs, x ∈ u.outs) ∧
      (∀ q, c.sqid ≠ 0 → findSq s c.cntlid c.sqid = some q → freezes q.mediaOnly st = true →
        ∃ r, findSq u c.cntlid c.sqid = some r ∧ r.frozen.isSome = true) ∧
      (∀ k, st ≠ .success → findCtrl s c.cntlid = some k → ∃ j, findCtrl u c.cntlid = some j ∧
        j.errorCount = k.errorCount + 1)) ∧
    (mayPost s1 e = false → finishCmd id st dw0 s = s1)) ∧
  (∀ (id dw0 : Nat) (st : Status) (c : Cmd) (s : State), findCmd s id = some c → c.discard = true →
    (∀ x ∈ s.host.cmds, x.phase ≠ .ended) → 
    finishCmd id st dw0 s = shutdownDone c.cntlid (dropCmd id (freeBuffers c.tile c.bufs s))) ∧
  (∀ (dw0 : Nat) (st : Status) (d : RunDesc) (s : State), s.board.running = some d → d.drop = false → ringOn s 1 = true →
    let u := admDone .ring st dw0 s
    u.board.running = none ∧ ∃ e : Bytes, Out.ringEntry 1 (ringOf s 1).tail e ∈ u.outs ∧ e.length = 32 ∧
      fieldAt e 0 2 = descField d.bytes 2 2 ∧ fieldAt e 2 1 = 0 ∧ fieldAt e 4 2 = st.field ∧ fieldAt e 8 4 = dw0 % 2 ^ 32)

/-- R14: reserved bits read 0, what is written there is ignored, and an offset that has no register reads 0 and ignores writes. -/
def Obligations.ReservedBitsAndOffsets : Prop :=
  (∀ (off w i : Nat) (r : Reg) (s : State), off % 4 = 0 → regAt s off = some (w, r, i, false) →
    Next (.counterLowRead off) s fun u => ∃ v, Sends [.regRead off v] s u ∧
      (∀ b, (∀ f ∈ r.flds, b < f.info.lo ∨ f.info.hi < b) → v.testBit b = false) ∧
      ∀ j, regAt s (off + 4) = some (w, r, j, true) →
        ∀ b, (∀ f ∈ r.flds, b + 32 < f.info.lo ∨ f.info.hi < b + 32) → (readValue u (off + 4)).testBit b = false) ∧
  (∀ (off w i : Nat) (r : Reg) (s : State), off % 4 = 0 → regAt s off = some (w, r, i, true) →
    (∀ l ∈ s.regs.latch, l.1 ≠ off) → ∀ b, (∀ f ∈ r.flds, b + 32 < f.info.lo ∨ f.info.hi < b + 32) →
      (readValue s off).testBit b = false) ∧
  (∀ (off w i v v' : Nat) (r : Reg) (s : State), off % 4 = 0 → off < 0x1000000 → regAt s off = some (w, r, i, false) →
    r.info.wide = false → (∀ f ∈ r.flds, ∀ b, f.info.lo ≤ b → b ≤ f.info.hi → v.testBit b = v'.testBit b) →
    Next (.registerWrite off v) s fun u => exec (.registerWrite off v') s = .next u) ∧
  (∀ (off w i v v' : Nat) (r : Reg) (s : State), off % 4 = 0 → off < 0x1000000 → regAt s off = some (w, r, i, true) →
    (∀ f ∈ r.flds, ∀ b, f.info.lo ≤ b + 32 → b + 32 ≤ f.info.hi → v.testBit b = v'.testBit b) →
    Next (.registerWrite off v) s fun u => exec (.registerWrite off v') s = .next u) ∧
  (∀ (w i v v' : Nat) (r : Reg) (s : State),
    (∀ f ∈ r.flds, ∀ b, f.info.lo ≤ b → b ≤ f.info.hi → v.testBit b = v'.testBit b) → writeReg w i r v s = writeReg w i r v' s) ∧
  (∀ (off v : Nat) (s : State), off % 4 = 0 → off < 0x1000000 → regAt s off = none →
    (Next (.counterLowRead off) s fun u => u = emit (.regRead off 0) s) ∧ Next (.registerWrite off v) s fun u => u = s)

/-- R434: what the event window shows where the sequence at the cursor is not held. -/
def Obligations.EventWindowGap : Prop :=
  (∀ (n m : Nat) (s : State), regAnswers s pkgWin .evrCursor = true → n < 2 ^ 32 → (∀ r ∈ held s, r.seq ≠ n) → n ≤ s.evr.last →
    (∃ r ∈ held s, r.seq = m) → n < m → (∀ r ∈ held s, n < r.seq → m ≤ r.seq) →
    Next (.evrCursorWrite n) s fun t => t = { s with evr := { s.evr with win := t.evr.win } } ∧ t.evr.win.gap = true ∧
      t.evr.win.cursor = n ∧ (∃ r ∈ held s, r.seq = m ∧ t.evr.win.latched = some r) ∧
      ((∃ r ∈ s.evr.store, r.seq = m) → t.evr.win.valid = true ∧ regValue t pkgWin 0 .evrWinSeq = m % 2 ^ 32) ∧
      ((∀ r ∈ s.evr.store, r.seq ≠ m) →
        Next .bandFetchDone t fun u => u.evr.win.valid = true ∧ u.evr.win.gap = true ∧ u.evr.win.latched = t.evr.win.latched ∧
          regValue u pkgWin 0 .evrWinSeq = m % 2 ^ 32)) ∧
  (∀ (n : Nat) (s : State), regAnswers s pkgWin .evrCursor = true → n < 2 ^ 32 → (∀ r ∈ held s, r.seq ≠ n) → s.evr.last < n →
    Next (.evrCursorWrite n) s fun t => t.evr.win.valid = false ∧ t.evr.win.gap = false) ∧
  (∀ (m : Nat) (s : State), (∃ r ∈ held s, r.seq = m) → (∀ r ∈ held s, m ≤ r.seq) →
    regValue s pkgWin 0 .evrOldest = m % 2 ^ 32)

/-- R197: which FREE band a stream opens. -/
def Obligations.BandToOpen : Prop :=
  ∀ (sg : Nat) (st : Stream) (s : State),
    (∀ x ∈ freeBands s sg, 1 ≤ (bandBlocks s x).length ∧ (bandBlocks s x).length ≤ 16) →
    let mean (x : Band) : Rat := (wearSum s x : Rat) / ((bandBlocks s x).length : Rat)
    ((freeBands s sg).length ≤ reserveOf s sg → st ≠ .relocate → bandToOpen s sg st = none) ∧
    (freeBands s sg ≠ [] → (reserveOf s sg < (freeBands s sg).length ∨ st = .relocate) →
      ∃ b ∈ freeBands s sg, bandToOpen s sg st = some b ∧
        (st = .relocate → ∀ x ∈ freeBands s sg, mean x < mean b ∨ (mean x = mean b ∧ b.idx ≤ x.idx)) ∧
        (st ≠ .relocate → ∀ x ∈ freeBands s sg, mean b < mean x ∨ (mean b = mean x ∧ b.idx ≤ x.idx)))

/-- R20 to R26: packets arrive, are arbitrated and sent, links fail and return, held packets go out. It rests on the log's entries
86, 87, the model's own. -/
def Obligations.MeshPackets : Prop :=
  (∀ (tile : Nat) (link : MeshPort) (vc : Vc) (s : State), linkUp s tile link = true →
    let out := bond s tile link
    let ready (v : Vc) : Prop := vcWaits s.mesh tile out v = true ∧ hasCredit s tile out v = true
    (vc = .urgent ∨ (¬ ready .urgent ∧ (hasCredit s tile out .mgmt = false ∨ escaped s.mesh tile out = none))) →
    ready vc → (∀ v, v ∈ ([.urgent, .host, .background, .mgmt] : List Vc).takeWhile (· ≠ vc) → ¬ ready v) →
    Next (.meshPacketSent tile link) s fun t => t = { s with mesh := t.mesh } ∧
      (∃ inp k, (waitingPkts s.mesh tile out vc inp).head? = some k ∧
        t.mesh.wire = s.mesh.wire ++ [{ tile := tile, out := out, inp := inp, pkt := k }] ∧
        waitingPkts t.mesh tile out vc inp = (waitingPkts s.mesh tile out vc inp).tail) ∧
      (∀ vc' inp, vc' ≠ vc → waitingPkts t.mesh tile out vc' inp = waitingPkts s.mesh tile out vc' inp) ∧
      (vc ≠ .mgmt → t.mesh.escapes = s.mesh.escapes) ∧ t.mesh.links = s.mesh.links ∧ t.mesh.holds = s.mesh.holds ∧
      t.mesh.delivered = s.mesh.delivered) ∧
  (∀ (tile : Nat) (link inp : MeshPort) (s : State), linkUp s tile link = true →
    let out := bond s tile link
    (vcWaits s.mesh tile out .urgent = true → hasCredit s tile out .urgent = false) → hasCredit s tile out .mgmt = true →
    escaped s.mesh tile out = some inp →
    Next (.meshPacketSent tile link) s fun t => t = { s with mesh := t.mesh } ∧
      (∃ k, (waitingPkts s.mesh tile out .mgmt inp).head? = some k ∧
        t.mesh.wire = s.mesh.wire ++ [{ tile := tile, out := out, inp := inp, pkt := k }]) ∧
      (∀ vc i, vc ≠ .mgmt → waitingPkts t.mesh tile out vc i = waitingPkts s.mesh tile out vc i) ∧
      t.mesh.escapes = s.mesh.escapes.erase (tile, out, inp) ∧ t.mesh.links = s.mesh.links ∧ t.mesh.holds = s.mesh.holds ∧
      t.mesh.delivered = s.mesh.delivered) ∧
  (∀ (tile : Nat) (link inp : MeshPort) (s : State),
    let e := (tile, bond s tile link, bond s tile inp)
    waitingPkts s.mesh tile e.2.1 .mgmt e.2.2 ≠ [] →
    Next (.mgmtEscape tile ⟨link, inp⟩) s fun t => t = { s with mesh := { s.mesh with escapes := t.mesh.escapes } } ∧
      t.mesh.escapes.contains e = true ∧ ∀ p, p ≠ e → t.mesh.escapes.contains p = s.mesh.escapes.contains p) ∧
  (∀ (tile : Nat) (pkt : MeshPkt) (ok : Bool) (s : State), pkt.len ≤ 2048 → pkt.src = tile → pkt.dst = tile →
    Next (.meshPacketReceived tile .localPort pkt ok) s fun t =>
      t = { s with mesh := { s.mesh with seqs := t.mesh.seqs, delivered := t.mesh.delivered } } ∧
      ∃ n, t.mesh.delivered = s.mesh.delivered ++ [(tile, { pkt with seq := n })]) ∧
  (∀ (tile : Nat) (inp : MeshPort) (pkt : MeshPkt) (w : OnLink) (s : State), inp ≠ .localPort →
    s.mesh.wire.find? (fun x => x.tile == linkTo s tile inp && x.out == bond s (linkTo s tile inp) (farEnd inp)) = some w →
    linkUp s tile inp = true → w.pkt.dst = tile →
    Next (.meshPacketReceived tile inp pkt true) s fun t =>
      t = { s with mesh := { s.mesh with wire := s.mesh.wire.erase w, delivered := s.mesh.delivered ++ [(tile, w.pkt)] } }) ∧
  (∀ (tile : Nat) (inp : MeshPort) (pkt : MeshPkt) (w : OnLink) (s : State), inp ≠ .localPort →
    s.mesh.wire.find? (fun x => x.tile == linkTo s tile inp && x.out == bond s (linkTo s tile inp) (farEnd inp)) = some w →
    linkUp s tile inp = true →
    Next (.meshPacketReceived tile inp pkt false) s fun t =>
      t = { s with mesh := { s.mesh with links := t.mesh.links }, health := t.health } ∧
      t.mesh.links.length = s.mesh.links.length ∧
      (∀ l ∈ t.mesh.links, l.tile = tile → l.link = inp → s.nowMs ∈ l.replays) ∧
      (∀ p q, linkUp t p q = linkUp s p q)) ∧
  (∀ (tile : Nat) (link : MeshPort) (lost : Bool) (s : State), linkUp s tile link = true →
    (lost = true ∨ replayLimit s tile link = true) →
    Next (.meshLinkDown tile link lost) s fun t =>
      t = { s with mesh := t.mesh, evr := t.evr, health := t.health } ∧
      linkUp t tile link = false ∧ linkUp t (linkTo s tile link) (farEnd link) = false ∧
      t.evr = { s.evr with raised := s.evr.raised ++
        [{ ev := .meshLinkDown, tile := tile, params := [linkIndex link, b2n lost] }] }) ∧
  (∀ (tile : Nat) (link : MeshPort) (s : State), linkUp s tile link = false → linkAllowed s tile link = true →
    (∃ l ∈ s.mesh.links, l.tile = tile ∧ l.link = link) →
    Next (.meshLinkRetrain tile link true) s fun t =>
      t = { s with mesh := t.mesh, evr := t.evr } ∧ linkUp t tile link = true ∧
      t.evr = { s.evr with raised := s.evr.raised ++
        [{ ev := .meshLinkUp, tile := tile, params := [linkIndex link] }] }) ∧
  (∀ (src dst : Nat) (h : RouteHold) (k : MeshPkt) (out : MeshPort) (s : State),
    s.mesh.holds.find? (fun x => x.src == src && x.dst == dst) = some h → h.pkts = [k] → k.src = src → k.dst = dst →
    src ≠ dst → (∀ x ∈ s.mesh.holds.erase h, ¬(x.src = src ∧ x.dst = dst)) → routeOut s src dst = some out →
    ∀ late, (late = true ∨ unacked s.mesh src dst = false) → Next (.routeHoldEnd src ⟨dst, late⟩) s fun t => t = { s with mesh := t.mesh } ∧
      (∀ x ∈ t.mesh.holds, ¬(x.src = src ∧ x.dst = dst)) ∧
      ∃ l, waitingPkts t.mesh src out k.vc .localPort = l ++ [k])

/-- R325, R328 to R334: the buffer pool manager. It rests on the log's entry 7, the model's own. -/
def Obligations.BufferPools : Prop :=
  (∀ (tile len : Nat) (cls : PClass) (p : Pool) (rest : List Pool) (s : State), 0 < len → len ≤ 262144 →
    (presentFrom s tile 0).filter (fun q => decide (len ≤ poolSize q.pool)) = p :: rest → mayTake s p cls = true →
    p.head ≠ nullHandle → linkGood s p (hIndex p.head) (readBytes s.mem (bufAddr s p.head) 8) = true →
    Next (.bufferAllocate tile len cls true) s fun t =>
      let i := hIndex p.head
      let g := (genOf p i + 1) % 65536
      t = { s with pools := t.pools, outs := t.outs } ∧ Sends [.handle tile (handleOf tile p.pool g i)] s t ∧
      (∃ q, findPool t tile p.pool = some q ∧ q.free = p.free - 1 ∧ q.alloc = p.alloc ++ [i] ∧ genOf q i = g ∧
        q.head = ofLE ((readBytes s.mem (bufAddr s p.head) 8).take 4)) ∧
      ∀ a n, ¬(a = tile ∧ n = p.pool) → findPool t a n = findPool s a n) ∧
  (∀ (tile len : Nat) (cls : PClass) (ok : Bool) (s : State), 0 < len → len ≤ 262144 →
    (∀ p ∈ presentFrom s tile 0, poolSize p.pool < len) →
    Next (.bufferAllocate tile len cls ok) s fun t => t = { bump tile .bpm_empty_count s with outs := t.outs } ∧
      Sends [.poolEmpty tile cls] s t) ∧
  (∀ (tile h : Nat) (p : Pool) (s : State), handleFault s tile h = none → findPool s tile (hPool h) = some p →
    p.quarantined = false → p.resetting = false → MemoryOk s →
    Next (.bufferFree tile h) s fun t =>
      let b := handleOf p.tile p.pool (genOf p (hIndex h)) (hIndex h)
      t = { s with pools := t.pools, mem := t.mem } ∧ MemoryOk t ∧
      readBytes t.mem (bufAddr s b) 8 = linkBytes p.head (genOf p (hIndex h)) (hIndex h) ∧
      (∀ a, a < bufAddr s b ∨ bufAddr s b + 8 ≤ a → memRead t.mem a = memRead s.mem a) ∧
      (∃ q, findPool t tile (hPool h) = some q ∧ q.head = b ∧ q.free = p.free + 1 ∧
        q.alloc = p.alloc.filter (fun x => x != hIndex h)) ∧
      ∀ a n, ¬(a = tile ∧ n = hPool h) → findPool t a n = findPool s a n) ∧
  (∀ (tile h k : Nat) (s : State), handleFault s tile h = some k →
    Next (.bufferFree tile h) s fun t => t = { bump tile .bpm_bad_free_bad_frees s with evr := t.evr } ∧
      Logs .bpmBadFree tile [h, k] s t) ∧
  (∀ (tile value n : Nat) (p : Pool) (s : State), tile ≠ pkgWin → regOpen s tile = true →
    s.tfld tile .bpm_cfg_bpm_enable = 1 → n < 6 → bitOf value n = true → findPool s tile n = some p →
    Next (.poolReset tile value) s fun t => t = { s with pools := t.pools } ∧
      (∃ q, findPool t tile n = some q ∧ q = { p with resetting := true }) ∧
      ∀ a m, a ≠ tile ∨ bitOf value m = false → findPool t a m = findPool s a m) ∧
  (∀ (tile pool : Nat) (p : Pool) (s : State), findPool s tile pool = some p → p.resetting = true → MemoryOk s →
    Next (.poolRebuildDone tile pool) s fun t => t = { s with pools := t.pools, mem := t.mem, evr := t.evr } ∧ MemoryOk t ∧
      (∃ q, findPool t tile pool = some q ∧ q.resetting = false ∧ q.quarantined = false ∧ q.late = [] ∧
        q.alloc = p.alloc ∧ Logs .poolReset tile [pool, q.free] s t) ∧
      (∀ a n, ¬(a = tile ∧ n = pool) → findPool t a n = findPool s a n) ∧
      ∀ a, (∀ g i, a < bufAddr s (handleOf tile pool g i) ∨ bufAddr s (handleOf tile pool g i) + 8 ≤ a) →
        memRead t.mem a = memRead s.mem a) ∧
  (∀ (tile value : Nat) (s : State), tile ≠ pkgWin → regOpen s tile = true → bitOf value 0 = true →
    s.tfld tile .bpm_cfg_bpm_enable = 0 → areaUsed (writeCfg tile .bpmCfg (value - 1) s) tile ≤
      poolArea (writeCfg tile .bpmCfg (value - 1) s) tile →
    Next (.bpmEnable tile value) s fun t => t.tfld tile .bpm_cfg_bpm_enable = 1 ∧
      t = { s with regs := t.regs, pools := t.pools, mem := t.mem, evr := t.evr } ∧
      ∀ n, n < 6 → poolCount t tile n ≠ 0 → ∃ p, findPool t tile n = some p ∧ p.alloc = [] ∧ p.free = poolCount t tile n) ∧
  (∀ (tile value : Nat) (s : State), tile ≠ pkgWin → regOpen s tile = true → bitOf value 0 = true →
    s.tfld tile .bpm_cfg_bpm_enable = 0 → poolArea (writeCfg tile .bpmCfg (value - 1) s) tile <
      areaUsed (writeCfg tile .bpmCfg (value - 1) s) tile →
    Next (.bpmEnable tile value) s fun t =>
      t = reject tile (bar0 tile 0 .bpmCfg) 8 (writeCfg tile .bpmCfg (value - 1) s))

/-- R340 to R349: the compression engine. It rests on the log's entries 46, 47, 48, the model's own. -/
def Obligations.CompressionJobs : Prop :=
  (∀ (tile : Nat) (j : CmpJob) (s : State), PlainJob .compress tile j s →
    let b := readBytes s.mem (bufAddr s j.inHandle) j.inLen
    let z := (deflated j [] b).1
    let a := bufAddr s j.outHandle
    Next (.compressJob tile ⟨j, true⟩) s fun t =>
      if z.length ≤ min j.outMax (poolSize (hPool j.outHandle)) then
        t = { s with mem := t.mem, regs := t.regs, outs := t.outs, eng := t.eng } ∧ OnlyEngine tile .compressor s t ∧
        readBytes t.mem a z.length = z ∧ OnlyBytes a z.length s t ∧
        (∃ fl, Sends [.cmpDone tile j.client .ok fl 0 z.length (crc32c b) j.inLen] s t) ∧
        t.tfld tile .cmp_in_bytes_count = Fld.counted .cmp_in_bytes_count (s.tfld tile .cmp_in_bytes_count + j.inLen) ∧
        t.tfld tile .cmp_out_bytes_count = Fld.counted .cmp_out_bytes_count (s.tfld tile .cmp_out_bytes_count + z.length) ∧
        OnlyFields [(tile, 0, .cmp_in_bytes_count), (tile, 0, .cmp_out_bytes_count)] s t
      else
        t = { s with mem := t.mem, regs := t.regs, outs := t.outs, fresh := t.fresh, eng := t.eng } ∧ OnlyEngine tile .compressor s t ∧
        OnlyBytes a (poolSize (hPool j.outHandle)) s t ∧
        ∃ fl, Sends [.cmpDone tile j.client (if j.client = 0 then .noGain else .outFull) fl 0 0 (crc32c b) j.inLen] s t) ∧
  (∀ (tile : Nat) (j : CmpJob) (s : State), PlainJob .decompress tile j s →
    let b := readBytes s.mem (bufAddr s j.inHandle) j.inLen
    let x := inflate (min j.outMax (poolSize (hPool j.outHandle))) b
    let d := x.out.reverse
    let a := bufAddr s j.outHandle
    x.state = .ended → crc32c d = j.expCrc → (j.expLen = 0 ∨ j.expLen = d.length) →
    d.length ≤ poolSize (hPool j.outHandle) →
    Next (.decompressJob tile ⟨j, true⟩) s fun t => t = { s with mem := t.mem, regs := t.regs, outs := t.outs, eng := t.eng } ∧ OnlyEngine tile .decompressor s t ∧
      readBytes t.mem a d.length = d ∧ OnlyBytes a d.length s t ∧
      (∃ fl word used, Sends [.cmpDone tile j.client .ok fl word d.length j.expCrc used] s t) ∧
      OnlyFields [(tile, 0, .cmp_in_bytes_count), (tile, 0, .cmp_out_bytes_count)] s t) ∧
  (∀ (tile : Nat) (j : CmpJob) (s : State), PlainJob .decompress tile j s →
    let b := readBytes s.mem (bufAddr s j.inHandle) j.inLen
    let x := inflate (min j.outMax (poolSize (hPool j.outHandle))) b
    x.state = .ended → crc32c x.out.reverse ≠ j.expCrc →
    Next (.decompressJob tile ⟨j, true⟩) s fun t =>
      t = { s with mem := t.mem, regs := t.regs, outs := t.outs, fresh := t.fresh, eng := t.eng } ∧ OnlyEngine tile .decompressor s t ∧
      OnlyBytes (bufAddr s j.outHandle) (poolSize (hPool j.outHandle)) s t ∧
      ∃ fl word crc used, Sends [.cmpDone tile j.client .crcFail fl word 0 crc used] s t) ∧
  (∀ (tile : Nat) (j : CmpJob) (s : State), PlainJob .crcOnly tile j s →
    let b := readBytes s.mem (bufAddr s j.inHandle) j.inLen
    let a := bufAddr s j.outHandle
    j.inLen ≤ min j.outMax (poolSize (hPool j.outHandle)) → crc32c b = j.expCrc →
    Next (.crcOnlyJob tile ⟨j, true⟩) s fun t => t = { s with mem := t.mem, regs := t.regs, outs := t.outs, eng := t.eng } ∧ OnlyEngine tile .decompressor s t ∧
      readBytes t.mem a j.inLen = b ∧ OnlyBytes a j.inLen s t ∧
      (∃ fl, Sends [.cmpDone tile j.client .ok fl 0 j.inLen j.expCrc j.inLen] s t) ∧
      OnlyFields [(tile, 0, .cmp_in_bytes_count), (tile, 0, .cmp_out_bytes_count)] s t) ∧
  (∀ (tile : Nat) (j : CmpJob) (s : State), s.tfld tile .cmp_cfg_cmp_enable = 1 →
    EngineFree tile .compressor s → EngineFree tile .decompressor s →
    (jobInRange .compress j = false →
      Next (.compressJob tile ⟨j, true⟩) s fun t => t.mem = s.mem ∧ t.eng.reqs = s.eng.reqs ∧
        Sends [.cmpDone tile j.client .badJob 0 0 0 0 0] s t ∧ OnlyFields [(tile, 0, .cmp_errors_refusals)] s t) ∧
    (jobInRange .decompress j = true → handleGood s tile j.inHandle = false →
      Next (.decompressJob tile ⟨j, true⟩) s fun t => t.mem = s.mem ∧ t.eng.reqs = s.eng.reqs ∧
        Sends [.cmpDone tile j.client .badHandle 0 0 0 0 0] s t ∧ OnlyFields [(tile, 0, .cmp_errors_refusals)] s t) ∧
    (jobInRange .crcOnly j = true → j.slot = 0xFF → jFirst j = true → jLast j = false → bitOf j.flags 4 = false →
      bitOf j.flags 5 = false → handleGood s tile j.inHandle = true → handleGood s tile j.outHandle = true →
      (∀ k, k < 8 → findSlot s tile k ≠ none) →
      Next (.crcOnlyJob tile ⟨j, true⟩) s fun t => t.mem = s.mem ∧ t.cmpSlots = s.cmpSlots ∧ t.eng.reqs = s.eng.reqs ∧
        Sends [.cmpDone tile j.client .busy 0 0 0 0 0] s t ∧ OnlyFields [(tile, 0, .cmp_errors_refusals)] s t)) ∧
  (∀ (tile slot : Nat) (x : CmpSlot) (s : State), findSlot s tile slot = some x →
    slotRuns s tile slot = false → x.lastMs + s.tfld tile .cmp_cfg_stream_timeout_ms ≤ s.nowMs →
    Next (.streamSlotTimeout tile slot) s fun t => t = { s with cmpSlots := t.cmpSlots, evr := t.evr } ∧
      findSlot t tile slot = none ∧ (∀ a k, ¬(a = tile ∧ k = slot) → findSlot t a k = findSlot s a k) ∧
      Logs .cmpSlotExpired tile [x.client] s t) ∧
  (∀ (tile value : Nat) (s : State), tile ≠ pkgWin → regOpen s tile = true → bitOf value 0 = true →
    s.tfld tile .cmp_cfg_cmp_enable = 0 →
    let s0 := writeCfg tile .cmpCfg (value - 1) s
    (s0.tfld tile .bpm_cfg_bpm_enable = 1 → outOfRange s0 tile .cmpCfg = false →
      Next (.cmpEnable tile value) s fun t => t = setT tile .cmp_cfg_cmp_enable 1 s0) ∧
    (s0.tfld tile .bpm_cfg_bpm_enable ≠ 1 →
      Next (.cmpEnable tile value) s fun t => t = reject tile (bar0 tile 0 .cmpCfg) 7 s0))

/-- R355, R357 to R361, R368: keys and the encryption engine. It rests on the log's entry 45, the model's own. -/
def Obligations.KeysAndCipherJobs : Prop :=
  (∀ (tile : Nat) (j : CryJob) (k : KeySlot) (dec : Bool) (s : State), s.tfld tile .cry_cfg_cry_enable = 1 →
    lanesUp s tile ≠ 0 → cryRefusal s tile dec j = none → findKey s tile j.slot = some k → MemoryOk s →
    EngineFree tile .cipher s →
    Next (if dec then .decryptJob tile ⟨j, true⟩ none else .encryptJob tile ⟨j, true⟩ none) s fun t =>
      let units := ceilDiv j.length 4096
      let b := readBytes s.mem (bufAddr s j.inHandle) j.length
      let out := xtsUnits (!dec) k.key1 k.key2 j.writeSeq j.nsid units j.unit0 b
      t = { s with mem := t.mem, regs := t.regs, outs := t.outs, eng := t.eng } ∧ OnlyEngine tile .cipher s t ∧
      readBytes t.mem (bufAddr s j.outHandle) out.length = out ∧ OnlyBytes (bufAddr s j.outHandle) out.length s t ∧
      Sends [.cryDone tile .ok (slotGen s (j.slot + 1)) j.length] s t ∧
      t.tfld tile .cry_units_count = Fld.counted .cry_units_count (s.tfld tile .cry_units_count + units) ∧
      OnlyFields [(tile, 0, .cry_units_count)] s t) ∧
  (∀ (tile : Nat) (j : CryJob) (dec : Bool) (st : CryStatus) (f : Option Nat) (s : State),
    s.tfld tile .cry_cfg_cry_enable = 1 → lanesUp s tile ≠ 0 → cryRefusal s tile dec j = some st →
    EngineFree tile .cipher s →
    Next (if dec then .decryptJob tile ⟨j, true⟩ f else .encryptJob tile ⟨j, true⟩ f) s fun t =>
      t = { s with regs := t.regs, outs := t.outs, eng := t.eng } ∧ OnlyEngine tile .cipher s t ∧
      Sends [.cryDone tile st (slotGen s (j.slot + 1)) 0] s t ∧
      OnlyFields [(tile, 0, .cry_errors_stale_jobs)] s t) ∧
  (∀ (tile k : Nat) (j : CryJob) (dec : Bool) (s : State), s.tfld tile .cry_cfg_cry_enable = 1 →
    cryRefusal s tile dec j = none → k < 4 → bitOf (lanesUp s tile) k = true → EngineFree tile .cipher s →
    Next (if dec then .decryptJob tile ⟨j, true⟩ (some k) else .encryptJob tile ⟨j, true⟩ (some k)) s fun t =>
      t = { s with regs := t.regs, evr := t.evr, outs := t.outs, eng := t.eng } ∧ OnlyEngine tile .cipher s t ∧
      bitOf (lanesUp t tile) k = false ∧
      Sends [.cryDone tile .truncated (slotGen s (j.slot + 1)) 0] s t ∧ Logs .cryLaneFault tile [k] s t ∧
      OnlyFields [(tile, 0, .cry_status_lanes_up)] s t) ∧
  (∀ (nsid tile : Nat) (k : KeySlot) (s : State), findKey s tile (nsid - 1) = some k → k.loaded = false →
    Next (.keySlotClear nsid (List.replicate tile true ++ [false])) s fun t => t = { s with cry := t.cry, evr := t.evr } ∧
      keyLoaded t tile (nsid - 1) = false ∧ findKey t tile (nsid - 1) = some { k with zeroiseFail := true } ∧
      (∀ a n, ¬(a = tile ∧ n = nsid - 1) → findKey t a n = findKey s a n) ∧ Logs .cryZeroiseFail tile [nsid - 1] s t) ∧
  (∀ (nsid : Nat) (l : List Bool) (s : State), (∀ b ∈ l, b = true) →
    Next (.keySlotClear nsid l) s fun t => t = s) ∧
  (∀ (tile value failed : Nat) (s : State), tile ≠ pkgWin → regOpen s tile = true → bitOf value 0 = true →
    s.tfld tile .cry_cfg_cry_enable = 0 →
    (failed % 16 ≠ 0 → orderHolds s tile .cry_cfg_cry_enable = true →
      Next (.cryEnable tile value failed) s fun t =>
        t = logEv .crySelftestFail tile [failed % 16] (setT tile .cry_status_self_test_fail 1
          (writeCfg tile .cryCfg (value - 1) s))) ∧
    (failed % 16 = 0 → orderHolds (writeCfg tile .cryCfg (value - 1) s) tile .cry_cfg_cry_enable = true →
      Next (.cryEnable tile value failed) s fun t => t.tfld tile .cry_cfg_cry_enable = 1 ∧
        t = setT tile .cry_cfg_cry_enable 1 (writeCfg tile .cryCfg (value - 1) s))) ∧
  (∀ (a : Adm) (nsid : Nat) (w : Bytes) (x : Ns) (s : State), AdmRuns .registry a s →
    s.reg.nss.find? (fun y => y.nsid == nsid && y.state != .deleting) = some x → x.state = .keyPending → w.length = 72 →
    (upTiles s).filter (fun t => t != s.mgmt.primary) ≠ [] →
    Next (.keyLoad a nsid w) s fun t =>
      (∀ k, keyMaterial s w = some k → t = passTurn a (syncStores (admPark a { loadKey s.mgmt.primary nsid k s with
        prov := some { adm := a, kind := .keyLoad nsid w ((upTiles s).filter fun t => t != s.mgmt.primary) } }))) ∧
      (keyMaterial s w = none → t = passTurn a (syncStores (admDone a .invalidField 0
        (logEv .keyReject s.mgmt.primary [nsid, keyFault s w] (bump s.mgmt.primary .cry_errors_unwrap_fail s)))))) ∧
  (∀ (a : Adm) (nsid tile : Nat) (w : Bytes) (ts : List Nat) (s : State),
    s.prov = some { adm := a, kind := .keyLoad nsid w ts } → tile ∈ ts → tileUp s tile = true →
    (∀ t ∈ ts, t ≠ tile → tileUp s t = false) →
    Next (.keyLoadConfirm nsid tile true) s fun t =>
      ∀ k, keyMaterial s w = some k → t = provEnd (keyReady a nsid w (loadKey tile nsid k s))) ∧
  (∀ (a : Adm) (nsid tile : Nat) (w : Bytes) (ts : List Nat) (s : State),
    s.prov = some { adm := a, kind := .keyLoad nsid w ts } → tile ∈ ts → tileUp s tile = true →
    Next (.keyLoadConfirm nsid tile false) s fun t => t = provEnd (admDone a .internalError 0
      (logEv .keyReject tile [nsid, 2] (dropKey nsid (bump tile .cry_errors_unwrap_fail s)))))

/-- R362 to R367: digest contexts and the signature verifier. -/
def Obligations.DigestContexts : Prop :=
  (∀ (tile owner alg k : Nat) (key : HmacKey) (e : Option Bytes) (s : State), alg < 4 → directCtx s tile = some k →
    Next (.digestDirectOpen tile owner alg key e) s fun t => t = { s with cry := t.cry, outs := t.outs } ∧
      findCtx t tile k = some (newCtx tile k owner alg key e) ∧
      (∀ a j, ¬(a = tile ∧ j = k) → findCtx t a j = findCtx s a j) ∧ t.cry = { s.cry with ctxs := t.cry.ctxs } ∧
      Sends [.digest tile owner (.granted k)] s t) ∧
  (∀ (tile owner source len alg k : Nat) (key : HmacKey) (e : Option Bytes) (s : State), alg < 4 →
    (freeCtxs s tile).head? = some k →
    Next (.digestSnoopOpen tile owner source len alg key e) s fun t => t = { s with cry := t.cry, outs := t.outs } ∧
      (∃ c, findCtx t tile k = some c ∧ c.state = .bound ∧ c.len = len ∧ c.source = source ∧ c.data = [] ∧
        c.alg = alg ∧ c.key = key ∧ c.expected = e ∧ c.owner = owner) ∧
      (∀ a j, ¬(a = tile ∧ j = k) → findCtx t a j = findCtx s a j) ∧ t.cry = { s.cry with ctxs := t.cry.ctxs } ∧
      Sends [.digest tile owner (.granted k)] s t) ∧
  (∀ (tile owner source len alg : Nat) (key : HmacKey) (e : Option Bytes) (s : State), alg < 4 →
    (directCtx s tile = none →
      Next (.digestDirectOpen tile owner alg key e) s fun t => t = { s with regs := t.regs, outs := t.outs } ∧
        OnlyFields [(tile, 0, .dig_results_busy_refusals)] s t ∧ Sends [.digest tile owner .busy] s t) ∧
    (freeCtxs s tile = [] →
      Next (.digestSnoopOpen tile owner source len alg key e) s fun t => t = { s with regs := t.regs, outs := t.outs } ∧
        OnlyFields [(tile, 0, .dig_results_busy_refusals)] s t ∧ Sends [.digest tile owner .busy] s t)) ∧
  (∀ (tile k owner : Nat) (d : Bytes) (c : DigCtx) (s : State), findCtx s tile k = some c →
    (c.state = .opened → c.owner = owner →
      Next (.digestData tile k owner d) s fun t => t = { s with cry := t.cry, regs := t.regs } ∧
        findCtx t tile k = some { c with data := c.data ++ d } ∧
        (∀ a j, ¬(a = tile ∧ j = k) → findCtx t a j = findCtx s a j) ∧ OnlyFields [(tile, 0, .dig_bytes_count)] s t) ∧
    (c.state = .opened → c.owner ≠ owner →
      Next (.digestData tile k owner d) s fun t => t = emit (.digest tile owner .notOwner) s) ∧
    (c.state = .bound → Next (.digestData tile k owner d) s fun t => t = emit (.digest tile owner .notBound) s) ∧
    (c.state = .finished → c.owner = owner → c.snoop = false → c.verify = false →
      Next (.digestData tile k owner d) s fun t => t = { s with cry := t.cry, regs := t.regs } ∧
        findCtx t tile k = some { c with state := .opened, data := d, expected := none, result := none })) ∧
  (∀ (tile k : Nat) (d : Bytes) (c : DigCtx) (s : State), findCtx s tile k = some c → c.state = .bound → c.verify = false →
    Next (.snoopStreamEnd tile k d) s fun t => t = { s with cry := t.cry, regs := t.regs, outs := t.outs } ∧
      ∃ e f, findCtx t tile k = some f ∧ f.state = .finished ∧ f.data = d.take c.len ∧
        f.result = some (e, c.expected.isNone, decide (c.len < d.length), decide (d.length < c.len)) ∧
        (d.length < c.len → e = false) ∧
        Sends [.digest tile c.owner (.compared e c.expected.isNone (decide (c.len < d.length)) (decide (d.length < c.len)))]
          s t ∧
        (∀ a j, ¬(a = tile ∧ j = k) → findCtx t a j = findCtx s a j) ∧
        OnlyFields [(tile, 0, .dig_bytes_count), (tile, 0, .dig_results_not_equal)] s t) ∧
  (∀ (tile k owner : Nat) (e : Option Bytes) (c : DigCtx) (s : State), findCtx s tile k = some c →
    (c.state = .opened → c.owner = owner → c.verify = false →
      Next (.digestFinish tile k owner e) s fun t => t = { s with cry := t.cry, regs := t.regs, outs := t.outs } ∧
        let x := e.or c.expected
        let eq := x == some (digestValue s { c with expected := x })
        (∃ f, findCtx t tile k = some f ∧ f.state = .finished ∧ f.data = c.data ∧
          f.result = some (eq, x.isNone, false, false)) ∧
        Sends [.digest tile owner (.compared eq x.isNone false false)] s t ∧
        (∀ a j, ¬(a = tile ∧ j = k) → findCtx t a j = findCtx s a j) ∧
        OnlyFields [(tile, 0, .dig_results_not_equal)] s t) ∧
    (c.state = .opened → c.owner ≠ owner →
      Next (.digestFinish tile k owner e) s fun t => t = emit (.digest tile owner .notOwner) s) ∧
    (c.state = .bound → Next (.digestFinish tile k owner e) s fun t => t = emit (.digest tile owner .notBound) s)) ∧
  (∀ (tile k : Nat) (c : DigCtx) (s : State), findCtx s tile k = some c →
    (c.state ≠ .bound → Next (.digestRelease tile k) s fun t => t = { s with cry := { s.cry with ctxs := t.cry.ctxs } } ∧
      findCtx t tile k = none ∧ ∀ a j, ¬(a = tile ∧ j = k) → findCtx t a j = findCtx s a j) ∧
    (c.state = .bound → Next (.digestRelease tile k) s fun t => t = emit (.digest tile c.owner .notBound) s)) ∧
  (∀ (tile owner key k : Nat) (pub sig : Bytes) (s : State), s.cry.vfys.find? (fun v => v.tile == tile) = none →
    directCtx s tile = some k →
    Next (.signatureVerifyRequest tile owner key pub sig) s fun t => t = { s with cry := t.cry, outs := t.outs } ∧
      t.cry.vfys = s.cry.vfys ++ [{ tile := tile, key := key, pub := pub, sig := sig, ctx := k }] ∧
      (∃ c, findCtx t tile k = some c ∧ c.state = .opened ∧ c.alg = 1 ∧ c.verify = true ∧ c.owner = owner ∧ c.data = []) ∧
      (∀ a j, ¬(a = tile ∧ j = k) → findCtx t a j = findCtx s a j) ∧ Sends [.digest tile owner (.granted k)] s t) ∧
  (∀ (tile : Nat) (v : Vfy) (c : DigCtx) (s : State), s.cry.vfys.find? (fun v => v.tile == tile) = some v →
    findCtx s tile v.ctx = some c → c.state = .finished →
    Next (.signatureVerifyDone tile) s fun t => t = { s with cry := t.cry, regs := t.regs, outs := t.outs } ∧
      let ok := signaturePasses s v.key v.pub v.sig (digestValue s c)
      Sends [.digest tile c.owner (.verified ok)] s t ∧ t.tfld tile .dig_vfy_status_last_result = (if ok then 1 else 2) ∧
      findCtx t tile v.ctx = none ∧ t.cry.vfys.find? (fun v => v.tile == tile) = none ∧
      (∀ a j, ¬(a = tile ∧ j = v.ctx) → findCtx t a j = findCtx s a j) ∧
      OnlyFields [(tile, 0, .dig_vfy_status_last_result), (tile, 0, .dig_vfy_status_verifies)] s t)

/-- R371, R372, R374, R375, R383 to R387: a DRAM channel starts, decodes, freezes and restarts. It rests on the log's entries 34,
53, the model's own. -/
def Obligations.DramChannel : Prop :=
  (∀ (tile value : Nat) (s : State), tile ≠ pkgWin → regOpen s tile = true → bitOf value 0 = true →
    s.tfld tile .drc_cfg_drc_enable = 0 →
    let s0 := writeCfg tile .drcCfg (value - 1) s
    (s0.tfld tile .drc_cfg_density ≠ 3 → drcDescription s0 tile = drcDescription s0 0 →
      (s0.drams.any fun d => d.tile == tile && d.ready) = false →
      Next (.drcEnable tile value) s fun t =>
        t = { setT tile .drc_cfg_drc_enable 1 s0 with drams := t.drams } ∧
        (∃ d, findDram t tile = some d ∧ d.step = 1 ∧ d.ready = false ∧ d.frozen = false ∧
          d.rate = s0.tfld tile .drc_cfg_rate_max ∧ d.ranks.length = s0.tfld tile .drc_cfg_ranks + 1) ∧
        ∀ a, a ≠ tile → findDram t a = findDram s a) ∧
    (s0.tfld tile .drc_cfg_density ≠ 3 → drcDescription s0 tile ≠ drcDescription s0 0 →
      Next (.drcEnable tile value) s fun t =>
        t = reject tile (bar0 tile 0 .drcCfg) 9 (setT tile .drc_status_cfg_mismatch 1 s0))) ∧
  (∀ (tile : Nat) (d : Dram) (s : State), findDram s tile = some d →
    (1 ≤ d.step → d.step < 4 → ¬(d.step = 3 ∧ d.rate < s.tfld tile .drc_cfg_rate_max) →
      Next (.dramStartStep tile true) s fun t => t = { s with drams := t.drams } ∧
        findDram t tile = some { d with step := d.step + 1 } ∧ ∀ a, a ≠ tile → findDram t a = findDram s a) ∧
    (d.step = 4 → d.restarting = false →
      Next (.dramStartStep tile true) s fun t => t = { s with drams := t.drams } ∧
        findDram t tile = some { d with
          step := 5, ready := true, frozen := false, restarting := false, capRead := false, cap := none } ∧
        ∀ a, a ≠ tile → findDram t a = findDram s a) ∧
    (d.step = 3 → 0 < d.rate →
      Next (.dramStartStep tile false) s fun t => t = { s with drams := t.drams } ∧
        findDram t tile = some { d with rate := d.rate - 1 } ∧ ∀ a, a ≠ tile → findDram t a = findDram s a)) ∧
  (∀ (tile : Nat) (a : DramAcc) (beats : List Nat) (d : Dram) (s : State), findDram s tile = some d → d.ready = true →
    d.frozen = false → EngineFree tile .dram s →
    let syms := symbolsOf beats
    let syn := syndromes syms a
    let ps := (errorPlaces syn).getD []
    Next (.dramRead tile ⟨a, true⟩ beats) s fun t =>
      (decodeDram syn = .clean → t = { s with drams := t.drams, outs := t.outs, eng := t.eng } ∧
        OnlyEngine tile .dram s t ∧ t.drams = (bankAccess tile a s).drams ∧ Sends [.dramData tile a (dataOf syms)] s t) ∧
      (decodeDram syn = .corrected ps → (∀ c ∈ d.ces, sameBurst c.1 a = false) →
        t = { s with drams := t.drams, regs := t.regs, health := t.health, outs := t.outs, eng := t.eng } ∧
        OnlyEngine tile .dram s t ∧
        Sends [.dramData tile a (dataOf (corrected syn ps syms)), .dramWrite tile a (beatsOf (corrected syn ps syms))] s t ∧
        t.tfld tile .drc_ce_ce_count = Fld.counted .drc_ce_ce_count (s.tfld tile .drc_ce_ce_count + 1) ∧
        OnlyFields [(tile, 0, .drc_ce_ce_count)] s t ∧
        ∃ e, findDram t tile = some e ∧ (a, s.island.minutes) ∈ e.ces ∧ e.frozen = false ∧ e.ready = true) ∧
      (decodeDram syn = .dataUe ∨ decodeDram syn = .addrFault ps →
        (∃ e n, findDram t tile = some e ∧ e.frozen = true ∧ e.ready = false ∧ e.capRead = false ∧
          e.cap = some {
            cause := if decodeDram syn = .dataUe then 1 else 2, acc := a, further := 0, bad := n,
            minutes := s.island.minutes, synd := syndromeWord syn }) ∧
        Out.dramFailed tile a ∈ t.outs ∧ reqsAt t tile .dram = [] ∧ ∀ b, b ≠ tile → findDram t b = findDram s b)) ∧
  (∀ (tile : Nat) (a : DramAcc) (beats : List Nat) (d : Dram) (s : State), findDram s tile = some d →
    (s.tfld tile .drc_cfg_scrub_en = 1 → d.ready = true → d.frozen = false → EngineFree tile .dram s →
      Next (.scrub tile a beats) s fun t =>
        Next (.dramRead tile ⟨{ a with cls := 10 }, true⟩ beats) s fun u => t = { u with eng := s.eng }) ∧
    (s.tfld tile .drc_cfg_scrub_en ≠ 1 ∨ reqsAt s tile .dram ≠ [] → Next (.scrub tile a beats) s fun t => t = s)) ∧
  (∀ (tile : Nat) (a : DramAcc) (d : Dram) (s : State), findDram s tile = some d → d.ready = true → d.frozen = false →
    (Next (.dramAlert tile a true false) s fun t => t = { s with regs := t.regs } ∧
      t.tfld tile .drc_errors_alerts = Fld.counted .drc_errors_alerts (s.tfld tile .drc_errors_alerts + 1) ∧
      OnlyFields [(tile, 0, .drc_errors_alerts)] s t) ∧
    (∀ m g, (m = false ∨ g = true) → Next (.dramAlert tile a m g) s fun t =>
      ∃ e c, findDram t tile = some e ∧ e.frozen = true ∧ e.cap = some c ∧ c.cause = 3 ∧ c.acc = a)) ∧
  (∀ (tile value : Nat) (d : Dram) (s : State), tile ≠ pkgWin → regOpen s tile = true → findDram s tile = some d →
    bitOf value 0 = true → d.restarting = false →
    (d.capRead = true → d.frozen = true →
      Next (.drcRestart tile value) s fun t => t = { s with drams := t.drams } ∧
        findDram t tile = some { d with restarting := true, step := 1, rate := s.tfld tile .drc_cfg_rate_max } ∧
        ∀ a, a ≠ tile → findDram t a = findDram s a) ∧
    (d.capRead = false → Next (.drcRestart tile value) s fun t => t = reject tile (bar0 tile 0 .drcCtrl) 11 s)) ∧
  (∀ (tile : Nat) (d : Dram) (s : State), tile < pkgWin → regAnswers s tile .drcCapStatus = true →
    findDram s tile = some d → d.frozen = true →
    Next (.captureStatusRead tile) s fun t => t = { s with drams := t.drams, outs := t.outs } ∧
      Sends [.regRead (bar0 tile 0 .drcCapStatus) (readValue s (bar0 tile 0 .drcCapStatus))] s t ∧
      findDram t tile = some { d with capRead := true } ∧ ∀ a, a ≠ tile → findDram t a = findDram s a)

/-- R377 to R383: page policy, refresh, temperature, power-down and training. It rests on the log's entries 34, 55, the model's
own. -/
def Obligations.DramUpkeep : Prop :=
  (∀ (tile r : Nat) (inHand : Bool) (d : Dram) (x : DramRank) (s : State), findDram s tile = some d →
    d.ranks.find? (fun y => y.rank == r) = some x → x.selfRef = false →
    (rankWaits s tile r = true → x.debt < s.tfld tile .drc_refresh_postpone_max →
      Next (.refreshDue tile r inHand) s fun t => t = { s with drams := t.drams } ∧
        (∃ e y, findDram t tile = some e ∧ e.ranks.find? (fun y => y.rank == r) = some y ∧ y = { x with debt := x.debt + 1 } ∧
          e = { d with ranks := e.ranks }) ∧
        ∀ a, a ≠ tile → findDram t a = findDram s a) ∧
    (rankWaits s tile r = false ∨ s.tfld tile .drc_refresh_postpone_max ≤ x.debt →
      Next (.refreshDue tile r inHand) s fun t => t = { s with drams := t.drams } ∧
      (∃ e y, findDram t tile = some e ∧ e.ranks.find? (fun y => y.rank == r) = some y ∧
        y = { x with debt := if rankWaits s tile r || inHand then x.debt else 0, down := false } ∧
        (∀ b ∈ e.banks, b.rank = r → b.open_ = none) ∧ e = { d with ranks := e.ranks, banks := e.banks }) ∧
      ∀ a, a ≠ tile → findDram t a = findDram s a)) ∧
  (∀ (tile : Nat) (rs : List DramTemp) (d : Dram) (s : State), findDram s tile = some d →
    (DramTemp.doubled ∈ rs → DramTemp.beyond ∉ rs → d.hot = false →
      Next (.tempPoll tile rs) s fun t => t = { s with drams := t.drams } ∧
        (∃ e, findDram t tile = some e ∧ e.hot = true ∧ e.overtemp = false ∧ (∀ r ∈ e.ranks, r.debt = 0) ∧
          ∀ b ∈ e.banks, b.open_ = none) ∧
        ∀ a, a ≠ tile → findDram t a = findDram s a) ∧
    (DramTemp.beyond ∈ rs → d.overtemp = false →
      Next (.tempPoll tile rs) s fun t => t = { s with drams := t.drams, evr := t.evr } ∧
        (∃ e, findDram t tile = some e ∧ e.hot = true ∧ e.overtemp = true) ∧ Logs .dramOvertemp tile [] s t) ∧
    ((∀ r ∈ rs, r = .normal) → d.hot = true → 1 ≤ d.coolPolls →
      Next (.tempPoll tile rs) s fun t => t = { s with drams := t.drams } ∧
        ∃ e, findDram t tile = some e ∧ e.hot = false ∧
          e.ranks = d.ranks.map fun r => { r with debt := (r.debt + 1) / 2 })) ∧
  (∀ (tile sc r g b : Nat) (d : Dram) (s : State), findDram s tile = some d →
    Next (.rowIdleClose tile sc r g b) s fun t => t = { s with drams := t.drams } ∧
      (∃ e, findDram t tile = some e ∧ e = { d with banks := e.banks } ∧
        ∀ x ∈ e.banks, x.subch = sc → x.rank = r → x.group = g → x.bank = b → x.open_ = none) ∧
      ∀ a, a ≠ tile → findDram t a = findDram s a) ∧
  (∀ (tile r : Nat) (d : Dram) (s : State), findDram s tile = some d →
    (s.tfld tile .drc_policy_pd_timer_ns ≠ 0 → rankWaits s tile r = false →
      Next (.rankPowerDown tile r) s fun t => t = { s with drams := t.drams } ∧
        (∃ e, findDram t tile = some e ∧ e = { d with ranks := e.ranks } ∧
          ∀ x ∈ e.ranks, x.rank = r → x.selfRef = false → x.down = true) ∧
        ∀ a, a ≠ tile → findDram t a = findDram s a) ∧
    (s.tfld tile .drc_policy_pd_timer_ns = 0 ∨ rankWaits s tile r = true →
      Next (.rankPowerDown tile r) s fun t => t = s)) ∧
  (∀ (tile r wr rd : Nat) (d : Dram) (s : State), findDram s tile = some d → d.ready = true → wr < 256 → rd < 256 →
    (∀ x ∈ d.ranks, x.rank = r → rankWaits s tile r = false ∨ x.trainMs + 1000 ≤ s.nowMs) →
    Next (.retrainStep tile r wr rd) s fun t => t = { s with drams := t.drams } ∧
      (∃ e, findDram t tile = some e ∧ e = { d with ranks := e.ranks } ∧
        ∀ x ∈ e.ranks, x.rank = r → x.wrMargin = wr ∧ x.rdMargin = rd) ∧
      ∀ a, a ≠ tile → findDram t a = findDram s a) ∧
  (∀ (tile r : Nat) (d : Dram) (x : DramRank) (s : State), findDram s tile = some d → d.ready = true →
    d.ranks.find? (fun y => y.rank == r) = some x →
    (min x.wrMargin x.rdMargin < s.tfld tile .drc_train_margin_min →
      Next (.dramMarginLow tile r) s fun t =>
        t = logEv .dramMargin tile [r, min x.wrMargin x.rdMargin] s) ∧
    (s.tfld tile .drc_train_margin_min ≤ min x.wrMargin x.rdMargin → Next (.dramMarginLow tile r) s fun t => t = s))

/-- R389 to R397, R401: sensors, throttle levels and operating time. It rests on the log's entry 92, the model's own. -/
def Obligations.Temperature : Prop :=
  (∀ (tile i : Nat) (r : Int) (x : Sensor) (s : State), findSensor s tile i = some x → tileUp s tile = true →
    let y := { x with reading := some r, peak := if x.reading.isNone then r else max x.peak r }
    ((x.faulty = true ∨ r < -160 ∨ 600 < r) →
      Next (.sensorConversion tile i r) s fun t => t = { s with therm := t.therm } ∧ findSensor t tile i = some y ∧
        t.therm.tiles = s.therm.tiles ∧ ∀ a j, ¬(a = tile ∧ j = i) → findSensor t a j = findSensor s a j) ∧
    (x.faulty = false → -160 ≤ r → r ≤ 600 → r < 4 * criticalC s x →
      Next (.sensorConversion tile i r) s fun t => OnlyHostSide { s with therm := t.therm } t ∧
        findSensor t tile i = some { y with warned := (if x.warned = true then !decide (r ≤ 4 * (warnC s x - hystC s tile))
          else decide (4 * warnC s x ≤ r)) } ∧
        t.therm.tiles = s.therm.tiles ∧ ∀ a j, ¬(a = tile ∧ j = i) → findSensor t a j = findSensor s a j)) ∧
  (∀ (tile i : Nat) (r : Int) (x : Sensor) (s : State), findSensor s tile i = some x → tileUp s tile = true →
    x.faulty = false → -160 ≤ r → r ≤ 600 → x.warned = true → warnC s x ≤ criticalC s x → 4 * criticalC s x ≤ r →
    s.plp.dump = none → 0 < hystC s tile →
    Next (.sensorConversion tile i r) s fun t => t = smartRefresh (fenceTile tile
      (logEv .thermalCritical tile [i, (r % 2 ^ 32).toNat] (updSensor tile i (fun x =>
        { x with reading := some r, peak := if x.reading.isNone then r else max x.peak r }) s)))) ∧
  (∀ (tile i cond : Nat) (x : Sensor) (s : State), findSensor s tile i = some x → tileUp s tile = true → x.faulty = false →
    Next (.sensorFault tile i cond) s fun t => OnlyHostSide { s with therm := t.therm } t ∧
      findSensor t tile i = some { x with faulty := true } ∧
      (∀ a j, ¬(a = tile ∧ j = i) → findSensor t a j = findSensor s a j) ∧
      ((s.therm.tiles.any fun y => y.tile == tile) = true → 2 ≤ levelOf t tile)) ∧
  (∀ (tile i : Nat) (x : Sensor) (s : State), findSensor s tile i = some x → tileUp s tile = true → x.faulty = true →
    Next (.sensorRestored tile i) s fun t => OnlyHostSide { s with therm := t.therm } t ∧
      findSensor t tile i = some { x with faulty := false } ∧ t.therm.tiles = s.therm.tiles ∧
      ∀ a j, ¬(a = tile ∧ j = i) → findSensor t a j = findSensor s a j) ∧
  (∀ (tile : Nat) (s : State), tileUp s tile = true → (s.therm.tiles.any fun y => y.tile == tile) = true →
    (overThrottle s tile = true ∨ dramOver s tile = true) →
    Next (.throttleStep tile) s fun t => OnlyHostSide { s with therm := t.therm } t ∧
      levelOf t tile = min 7 (levelOf s tile + 1) ∧
      (∀ a, a ≠ tile → levelOf t a = levelOf s a) ∧ t.therm.sensors = s.therm.sensors) ∧
  (∀ (tile : Nat) (s : State), overThrottle s tile = false → dramOver s tile = false →
    Next (.throttleStep tile) s fun t => t = s) ∧
  (∀ (tile : Nat) (s : State), tileUp s tile = true → 0 < levelOf s tile → levelFloor s tile = 0 →
    dramOver s tile = false → (∀ x ∈ plausible s tile, x.2 < 4 * (throttleC s x.1 - hystC s tile)) →
    (∀ x ∈ s.therm.tiles, x.tile = tile → x.changedMs + 1000 ≤ s.nowMs) →
    Next (.throttleFall tile) s fun t => OnlyHostSide { s with therm := t.therm } t ∧
      levelOf t tile = levelOf s tile - 1 ∧ (∀ a, a ≠ tile → levelOf t a = levelOf s a) ∧
      t.therm.sensors = s.therm.sensors) ∧
  (∀ (tile : Nat) (s : State), ((plausible s tile).any (fastRise s) = false →
      Next (.rateWindow tile) s fun t => t = { s with therm := { s.therm with sensors := t.therm.sensors } } ∧
        ∀ x ∈ t.therm.sensors, x.tile = tile → ∀ r, x.reading = some r → x.windowRef = r) ∧
    ((plausible s tile).any (fastRise s) = true → tileUp s tile = true →
      (s.therm.tiles.any fun y => y.tile == tile) = true → levelOf s tile < 7 →
      Next (.rateWindow tile) s fun t => OnlyHostSide { s with therm := t.therm } t ∧
        levelOf t tile = levelOf s tile + 1 ∧ ∀ a, a ≠ tile → levelOf t a = levelOf s a)) ∧
  (∀ (tile : Nat) (s : State), Next (.compensationStep tile) s fun t => t = s) ∧
  (∀ (s : State), s.island.pkg = 2 →
    Next .operatingMinute s fun t => t = { s with island := t.island, therm := t.therm } ∧
      t.island = { s.island with minutes := s.island.minutes + 1 } ∧ t.therm.sensors = s.therm.sensors ∧
      ∀ x ∈ s.therm.tiles, ∀ r, tileUp s x.tile = true → hottest s x.tile = some r → histBin r < x.hist.length →
        ∃ y ∈ t.therm.tiles, y.tile = x.tile ∧
          y.hist.getD (histBin r) 0 = sat 0xFFFFFFFF (x.hist.getD (histBin r) 0 + 1) ∧
          ∀ b, b ≠ histBin r → y.hist.getD b 0 = x.hist.getD b 0) ∧
  (∀ (s : State), s.island.pkg ≠ 2 → Next .operatingMinute s fun t => t = s)

/-- R392, R406 to R411: power measurement and limit, adaptive rails and the PMBus. It rests on the log's entries 56, 57, 61, the
model's own. -/
def Obligations.PowerAndRails : Prop :=
  (∀ (measured raw : Nat) (s : State), measured ≤ 0xFFFF → raw ≤ 0x7FFF →
    (s.power.isenseFault = false →
      Next (.powerScaling measured raw) s fun t => t = { s with power := t.power } ∧ t.power.measured = measured ∧
        raw / 2 ≤ t.power.estimated ∧ t.power.estimated ≤ 2 * raw ∧
        (raw / 2 ≤ measured → measured ≤ 2 * raw → t.power.estimated = measured) ∧ t.power.rails = s.power.rails) ∧
    (s.power.isenseFault = true →
      Next (.powerScaling measured raw) s fun t =>
        t = { s with power := { s.power with measured := raw, estimated := raw } })) ∧
  (∀ (cond : Nat) (s : State), s.power.isenseFault = false →
    Next (.isenseFault cond) s fun t =>
      t = { s with power := { s.power with isenseFault := true }, clock := { s.clock with estimated := true }, evr := t.evr } ∧
      Logs .isenseFault 15 [cond] s t) ∧
  (∀ (s : State), Next .isenseRestored s fun t => t = { s with power := { s.power with isenseFault := false } }) ∧
  (∀ (avg : Nat) (order : List Nat) (s : State),
    (s.gfld .pwr_limit_pwr_limit_w = 0 ∨ avg ≤ 100 * s.gfld .pwr_limit_pwr_limit_w) →
    Next (.powerLimit avg order) s fun t => t = { s with power := { s.power with overLimit := false } }) ∧
  (∀ (avg : Nat) (order : List Nat) (s : State), s.gfld .pwr_limit_pwr_limit_w ≠ 0 →
    100 * s.gfld .pwr_limit_pwr_limit_w < avg →
    Next (.powerLimit avg order) s fun t =>
      OnlyHostSide { s with power := { s.power with overLimit := true }, therm := t.therm } t ∧
      t.therm.sensors = s.therm.sensors ∧
      ∀ a, a ∈ presentTiles s → tileUp s a = true → (s.therm.tiles.any fun x => x.tile == a) = true →
        levelOf t a = min 7 (levelOf s a + 1)) ∧
  (∀ (value : Nat) (s : State), regOpen s pkgWin = true → bitOf value 2 = true → s.gfld .pwr_cfg_avs_enable = 0 →
    (∃ r, r < 16 ∧ railKind s r = 2 ∧ railMax s r < railMin s r) →
    Next (.avsEnable value) s fun t =>
      t = reject 15 (bar0 pkgWin 0 .pwrCfg) 4 (writeCfg pkgWin .pwrCfg (value - 4) s)) ∧
  (∀ (value : Nat) (s : State), regOpen s pkgWin = true → bitOf value 2 = true → s.gfld .pwr_cfg_avs_enable = 0 →
    (∀ r, r < 16 → railKind s r = 2 → railMin s r ≤ railMax s r) →
    Next (.avsEnable value) s fun t => t.gfld .pwr_cfg_avs_enable = 1 ∧
      t = { s with regs := t.regs, power := t.power, evr := t.evr } ∧
      ∀ x ∈ t.power.rails, railKind t x.idx = 2 → x.vset ≠ 0) ∧
  (∀ (r : Nat) (x : Rail) (s : State), findRail s r = some x → railAdaptive s r = true →
    (s.plp.started = true →
      Next (.avsStep r) s fun t => t = { s with power := { s.power with rails := t.power.rails } } ∧
        findRail t r = some { x with vset := if railMin s r < x.vset then x.vset - 1 else x.vset } ∧
        ∀ q, q ≠ r → findRail t q = findRail s q) ∧
    (s.plp.started = false → Next (.avsStep r) s fun t => t = s) ∧
    Next (.avsMonitorLow r) s fun t => t = { s with power := { s.power with rails := t.power.rails } } ∧
      (∃ y, findRail t r = some y ∧ x.vset ≤ y.vset ∧ (x.vset + 2 ≤ railMax s r → y.vset = x.vset + 2) ∧
        (x.vset ≤ railMax s r → y.vset ≤ railMax s r)) ∧
      ∀ q, q ≠ r → findRail t q = findRail s q) ∧
  (∀ (r : Nat) (x : Rail) (s : State), findRail s r = some x → x.fault = false →
    Next (.pmbusFault r) s fun t => t = { s with power := { s.power with rails := t.power.rails }, evr := t.evr } ∧
      findRail t r = some { x with fault := true } ∧ railAdaptive t r = false ∧
      (∀ q, q ≠ r → findRail t q = findRail s q) ∧ Logs .pmbusFault 15 [r] s t) ∧
  (∀ (r w : Nat) (x : Rail) (s : State), findRail s r = some x → railKind s r ≠ 0 →
    (railAlarm w = false →
      Next (.pmbusAlert [(r, w)]) s fun t => t = { s with power := { s.power with rails := t.power.rails }, evr := t.evr } ∧
        findRail t r = some { x with status := w } ∧ (∀ q, q ≠ r → findRail t q = findRail s q) ∧
        Logs .pmbusAlert 15 [r, w] s t) ∧
    (railAlarm w = true →
      Next (.pmbusAlert [(r, w)]) s fun t =>
        OnlyHostSide { s with power := { s.power with rails := t.power.rails }, therm := t.therm } t ∧
        findRail t r = some { x with status := w } ∧
        ∀ a, a ∈ railTiles s r → tileUp s a = true → (s.therm.tiles.any fun y => y.tile == a) = true →
          levelOf t a = min 7 (levelOf s a + 1)))

/-- R378, R397 to R404: reference clocks and sleep. It rests on the log's entries 58, 59, the model's own. -/
def Obligations.ClocksAndSleep : Prop :=
  (∀ (ppm : Int) (s : State), s.clk.holdover = false →
    Next (.oscillatorCalibration ppm) s fun t => t = { s with clk := { s.clk with aonPpm := ppm } }) ∧
  (∀ (s : State), s.clk.active = 0 → s.clk.bOk = true →
    Next (.refclkLost 0) s fun t => t = { s with clk := t.clk, evr := t.evr } ∧
      t.clk = { s.clk with aOk := false, active := 1, switches := sat 0xFF (s.clk.switches + 1) } ∧
      Logs .refclkSwitch 15 [1] s t) ∧
  (∀ (s : State), s.clk.active = 0 →
    Next (.refclkLost 1) s fun t => t = { s with clk := { s.clk with bOk := false } }) ∧
  (∀ (s : State), s.clk.holdover = false → s.gfld .clk_cfg_ref_pref = 0 → s.clk.active = 1 →
    (s.gfld .clk_cfg_ref_revert = 1 →
      Next .refclkRevert s fun t => t = { s with clk := t.clk, evr := t.evr } ∧
        t.clk = { s.clk with aOk := true, active := 0, switches := sat 0xFF (s.clk.switches + 1) } ∧
        Logs .refclkSwitch 15 [0] s t) ∧
    (s.gfld .clk_cfg_ref_revert ≠ 1 → Next .refclkRevert s fun t => t = { s with clk := { s.clk with aOk := true } })) ∧
  (∀ (s : State), s.clk.holdover = false →
    Next .refclkBothLost s fun t =>
      t = { s with clk := { s.clk with aOk := false, bOk := false, holdover := true }, evr := t.evr } ∧
      Logs .refclkBothLost 15 [] s t) ∧
  (∀ (r : Nat) (s : State), r ≤ 1 → s.clk.holdover = true → s.clk.active = r →
    Next (.refclkReturn r) s fun t => t = { s with clk := t.clk } ∧ t.clk.holdover = false ∧ t.clk.active = r ∧
      refOk t.clk r = true ∧ refOk t.clk (1 - r) = refOk s.clk (1 - r)) ∧
  (∀ (s : State), s.clk.ethSynth = false →
    Next .ethrefLost s fun t => t = { s with clk := { s.clk with ethOk := false, ethSynth := true }, evr := t.evr } ∧
      Logs .ethrefLost 15 [] s t) ∧
  (∀ (s : State), Next .ethrefReturn s fun t => t = { s with clk := { s.clk with ethOk := true, ethSynth := false } }) ∧
  (∀ (tile : Nat) (s : State), s.gfld .pwr_cfg_light_en = 1 → tileUp s tile = true → s.island.pkg = 2 → s.power.deep = 0 →
    tileIdle s tile = true →
    Next (.lightEntry tile) s fun t => t = { s with drams := t.drams, therm := { s.therm with tiles := t.therm.tiles } } ∧
      (∀ x ∈ t.therm.tiles, x.tile = tile → x.sleep = 1) ∧
      (∀ d ∈ t.drams, d.tile = tile → d.ready = true → ∀ r ∈ d.ranks, r.down = true) ∧
      ∀ d ∈ s.drams, d.tile ≠ tile → d ∈ t.drams) ∧
  (∀ (tile : Nat) (s : State), s.gfld .pwr_cfg_light_en ≠ 1 → Next (.lightEntry tile) s fun t => t = s) ∧
  (∀ (tile : Nat) (s : State), s.power.deep = 0 →
    Next (.tileWake tile) s fun t => t = { s with therm := { s.therm with tiles := t.therm.tiles } } ∧
      (∀ x ∈ t.therm.tiles, x.tile = tile → x.sleep = 0) ∧ ∀ a, levelOf t a = levelOf s a) ∧
  (∀ (s : State), deepAllowed s = true → s.power.deep ≠ 2 → drained s = true →
    Next .deepEntry s fun t => t = { s with power := { s.power with deep := 2 }, therm := t.therm, drams := t.drams } ∧
      (∀ x ∈ t.therm.tiles, x.sleep = 2) ∧ t.therm.sensors = s.therm.sensors ∧
      ∀ d ∈ t.drams, d.ready = true → ∀ r ∈ d.ranks, r.selfRef = true) ∧
  (∀ (s : State), deepAllowed s = true → s.power.deep ≠ 2 → drained s = false →
    Next .deepEntry s fun t => t = closeTails (expireRows { s with power := { s.power with deep := 1 } })) ∧
  (∀ (s : State), deepAllowed s = false → Next .deepEntry s fun t => t = s) ∧
  (∀ (s : State), s.power.deep ≠ 0 →
    (Next .deepWake s fun t => t = { s with power := { s.power with deep := 0 }, therm := t.therm, drams := t.drams } ∧
      (∀ x ∈ t.therm.tiles, x.sleep = 0) ∧ t.therm.sensors = s.therm.sensors ∧
      ∀ d ∈ t.drams, ∀ r ∈ d.ranks, r.selfRef = false) ∧
    (Next (.deepTimerWake true) s fun t => exec .deepWake s = .next t) ∧
    Next (.deepTimerWake false) s fun t => t = s)

/-- R298, R299, R307, R308, R312 to R318, R516: power failures, the dump and the restart. It rests on the log's entries 42, 43,
44, 45, the model's own. -/
def Obligations.PowerLossAndRestart : Prop :=
  (∀ (s : State), s.island.pkg = 2 → (∀ d, s.plp.dump = some d → d.restored = true) →
    Next .powerFailDeclared s fun t =>
      t = { s with plp := t.plp, host := t.host, media := { s.media with ops := [] }, heldAdmin := [], released := [],
                   cleared := [], heldOuts := [], prov := none, reg := { s.reg with leases := [] },
                   evr := { s.evr with dumped := [], archiving := none }, outs := t.outs } ∧
      t.host.cmds = [] ∧ t.host.conns = [] ∧ t.host.ctrls = [] ∧ t.plp.holdupEn = true ∧ t.plp.hutestEn = false ∧
      t.plp.pfailDriven = true ∧ t.plp.test = none ∧ t.plp.record = s.plp.record ∧ t.plp.causes = s.plp.causes ∧
      (∃ d, t.plp.dump = some d ∧ d.seq = s.island.cycles ∧ d.reported = [] ∧ d.complete = false ∧ d.restored = false ∧
        (s.plp.started = true → ∀ e ∈ s.wr.exts, ∀ a ∈ presentTiles s, dumpedBy s a e = true → (a, e) ∈ d.exts)) ∧
      Sends [.pins [(.holdupEn, true), (.hutestEn, false), (.pfailL, false)]] s t) ∧
  (∀ (d : Dump) (s : State), s.plp.dump = some d → d.restored = false →
    Next .powerFailDeclared s fun t => t = s) ∧
  (∀ (pin : Nat) (s : State), s.plp.warn = false → s.plp.test = none →
    let mv := busMv (s.gfld .plp_sense_vsense_ratio) pin
    (mv < s.gfld .plp_thresh_warn_mv →
      Next (.pfWarn pin) s fun t => t = expireRows (logEv .pfWarn 15 [mv]
        { s with plp := { s.plp with warn := true, hutestEn := false } })) ∧
    (s.gfld .plp_thresh_warn_mv ≤ mv → Next (.pfWarn pin) s fun t => t = s)) ∧
  (∀ (s : State), s.plp.testDue = false →
    Next .sagEnd s fun t => t = { s with plp := { s.plp with warn := false } }) ∧
  (∀ (s : State), s.plp.testDue = true → s.plp.test = none → s.plp.causes.contains 7 = false →
    Next .sagEnd s fun t => t = { s with plp := { s.plp with warn := false, test := t.plp.test, testDue := false,
                                                             lastTestMin := s.island.minutes } } ∧
      ∃ x, t.plp.test = some x ∧ x.step = 1 ∧ x.startMs = s.nowMs) ∧
  (∀ (tile dir us : Nat) (d : Dump) (s : State), s.plp.dump = some d → d.complete = false → tileUp s tile = true →
    tile ∉ d.reported → tile ≠ s.mgmt.primary →
    (s.therm.tiles.any fun x => x.tile == tile && x.critPending) = false →
    (dumpDone s { d with reported := tile :: d.reported } = false →
      Next (.dumpTileReport tile ⟨dir, us⟩) s fun t => t = { s with plp := t.plp, evr := t.evr } ∧
        t.plp = { s.plp with dump := some { d with reported := tile :: d.reported, dirs := d.dirs ++ [(tile, dir)] } } ∧
        t.evr = { s.evr with dumped := t.evr.dumped } ∧ ∀ r ∈ eventTail tile s, r ∈ t.evr.dumped) ∧
    (dumpDone s { d with reported := tile :: d.reported } = true →
      Next (.dumpTileReport tile ⟨dir, us⟩) s fun t => t = { s with plp := t.plp, evr := t.evr } ∧
        (∃ e, t.plp.dump = some e ∧ e.complete = true ∧ e.reported = tile :: d.reported ∧ e.dirs = d.dirs ++ [(tile, dir)]) ∧
        t.plp.lastIncomplete = false ∧
        ∃ r, t.plp.record = some r ∧ r.reason = (if s.plp.offReady then 3 else 1) ∧ r.held = true ∧
          r.cycles = s.island.cycles ∧ r.dirs = d.dirs ++ [(tile, dir)])) ∧
  (∀ (us m : Nat) (d : Dump) (s : State), s.plp.dump = some d → d.primaryMs = some m → d.complete = false →
    (m + 10 ≤ s.nowMs → dumpDone s d = false →
      Next (.restartRecordTimeout us) s fun t => t = { s with plp := t.plp, evr := { s.evr with mark := t.evr.mark } } ∧
        (∃ e, t.plp.dump = some e ∧ e.complete = true ∧ e.reported = d.reported) ∧ t.plp.lastIncomplete = true ∧
        ∃ r, t.plp.record = some r ∧ r.reason = (if s.plp.offReady then 3 else 2)) ∧
    (s.nowMs < m + 10 → Next (.restartRecordTimeout us) s fun t => t = s)) ∧
  (∀ (s : State), s.island.pkg = 2 → dumpEnded s = true → s.island.sysRst = false →
    Next .postDumpRestart s fun t => t = enterRun s) ∧
  (∀ (s : State), (dumpEnded s = false ∨ s.island.sysRst = true) → Next .postDumpRestart s fun t => t = s) ∧
  (∀ (s : State), dumpEnded s = true →
    Next .holdupRelease s fun t => t = { s with plp := { s.plp with holdupEn := false }, outs := t.outs } ∧
      Sends [.pins [(.holdupEn, false)]] s t) ∧
  (∀ (kept : List ReadRow) (ok : Bool) (s : State), s.island.pkg = 2 → s.plp.started = false →
    s.fw.running = true → s.fw.recovery = false →
    Next (.restart kept ok) s fun t => t.plp.started = true ∧ t.plp.writeThrough = true ∧ t.plp.causes.contains 2 = true ∧
      t.plp.holdupEn = false ∧ t.plp.pfailDriven = false ∧ t.map.replaying = presentTiles s ∧ t.wr.leases = [] ∧
      (∃ r, t.plp.record = some r ∧ r.reason = 0 ∧ r.wt = true ∧
        r.recSeq = ((s.plp.record.map (·.recSeq)).getD 0) + 1)) ∧
  (∀ (kept : List ReadRow) (ok : Bool) (s : State), s.plp.started = true →
    Next (.restart kept ok) s fun t => t = s) ∧
  (∀ (d : Dump) (s : State), s.plp.dump = some d → d.restored = true →
    (dumpDurable s d = true → s.plp.testDue = false → 1 ∈ s.plp.causes →
      Next .dumpRelease s fun t => t = { s with plp := t.plp, evr := t.evr } ∧ t.plp.dump = none ∧
        t.plp.causes = s.plp.causes.filter (fun c => c != 7) ∧
        (∃ r, t.plp.record = some r ∧ r.reason = (if s.plp.offReady then 3 else 0) ∧ r.held = false) ∧
        t.evr.raised = s.evr.raised ++ [{ ev := .dumpReleased, tile := 15, params := [d.seq] }]) ∧
    (dumpDurable s d = false → Next .dumpRelease s fun t => t = s))

/-- R301, R304 to R308, R319 to R322: the hold-up budget, the discharge test, the bank and the planned power-off. It rests on the
log's entries 40, 41, the model's own. -/
def Obligations.HoldUpBank : Prop :=
  (∀ (low now : Nat) (s : State),
    let r := s.gfld .plp_sense_hsense_ratio
    let p := { s.plp with bankMv := sat 0xFFFF (busMv r now), budgetMv := sat 0xFFFF (busMv r low) }
    (s.gfld .plp_cfg_plp_enable = 0 → Next (.budgetRecompute low now) s fun t => t = { s with plp := p }) ∧
    (s.gfld .plp_cfg_plp_enable ≠ 0 →
      let l := limitOfBudget { s with plp := p }
      256 ≤ l → s.plp.causes.contains 5 = false → s.plp.writeThrough = true →
      Next (.budgetRecompute low now) s fun t => t = { s with plp := { p with limitMib := l, throttling := false } }) ∧
    (s.gfld .plp_cfg_plp_enable ≠ 0 →
      let l := limitOfBudget { s with plp := p }
      l < 256 → s.plp.writeThrough = true →
      Next (.budgetRecompute low now) s fun t => t = { s with plp := t.plp } ∧ t.plp.limitMib = l ∧
        t.plp.causes.contains 5 = true ∧ t.plp.writeThrough = true ∧ t.plp.throttling = false)) ∧
  (∀ (s : State), s.plp.causes.contains 4 = false → s.plp.test = none → s.plp.writeThrough = true →
    Next .bankAbsent s fun t => OnlyHostSide { s with plp := t.plp } t ∧ t.plp.causes.contains 4 = true ∧
      t.plp.failed = true ∧ t.plp.writeThrough = true ∧ t.plp.passedSince = false) ∧
  (∀ (s : State), s.plp.causes.contains 4 = true → Next .bankAbsent s fun t => t = s) ∧
  (∀ (s : State), s.plp.test = none → s.plp.causes.contains 7 = false → s.plp.warn = false →
    let x : TestRun := { step := 1, startMs := s.nowMs, stepMs := s.nowMs, v0 := 0, v1 := 0, esr := 0 }
    let p := { s.plp with test := some x, testDue := false, lastTestMin := s.island.minutes }
    (s.plp.testDue = true → Next .dischargeTestStart s fun t => t = { s with plp := p }) ∧
    (s.plp.lastTestMin + 60 * s.gfld .plp_test_cfg_test_hours ≤ s.island.minutes →
      Next .testInterval s fun t => t = { s with plp := p }) ∧
    (s.plp.causes.contains 4 = true ∨ s.plp.causes.contains 6 = true →
      Next .hsenseRise s fun t => t = { s with plp := p }) ∧
    (regOpen s pkgWin = true → Next .testNow s fun t => t = { s with plp := p })) ∧
  (∀ (pin : Nat) (x : TestRun) (s : State), s.plp.test = some x →
    let v := busMv (s.gfld .plp_sense_hsense_ratio) pin
    (x.step = 1 → s.gfld .plp_bank_vmin_mv + s.gfld .plp_test_cfg_test_drop_mv < v →
      Next (.testCharged pin) s fun t => t = { s with plp := t.plp, outs := t.outs } ∧
        t.plp = { s.plp with hutestEn := true, test := some { x with step := 2, stepMs := s.nowMs, v0 := v } } ∧
        Sends [.pins [(.hutestEn, true)]] s t) ∧
    (x.step = 1 → v ≤ s.gfld .plp_bank_vmin_mv + s.gfld .plp_test_cfg_test_drop_mv →
      Next (.testCharged pin) s fun t => t = s) ∧
    (x.step = 2 → v ≠ 0 →
      Next (.testEsrSample pin) s fun t => t = { s with plp := { s.plp with test := some { x with
        step := 3, stepMs := s.nowMs, v1 := v,
        esr := (x.v0 - v) * s.gfld .plp_test_cfg_rtest_ohm * 1000 / v } } }) ∧
    Next .testNow s fun t => t = s) ∧
  (∀ (us : Nat) (x : TestRun) (s : State), s.plp.test = some x → x.step = 3 →
    let c := capFound us (s.gfld .plp_test_cfg_rtest_ohm) x.v1 (x.v1 - s.gfld .plp_test_cfg_test_drop_mv)
    (100 * s.gfld .plp_test_limit_cap_min ≤ c → x.esr ≤ s.gfld .plp_test_limit_esr_max_mohm →
      Next (.testDischargeEnd us) s fun t => t = endTest 1 c x.esr s) ∧
    (c < 100 * s.gfld .plp_test_limit_cap_min → Next (.testDischargeEnd us) s fun t => t = endTest 2 c x.esr s) ∧
    (100 * s.gfld .plp_test_limit_cap_min ≤ c → s.gfld .plp_test_limit_esr_max_mohm < x.esr →
      Next (.testDischargeEnd us) s fun t => t = endTest 3 c x.esr s)) ∧
  (∀ (x : TestRun) (s : State), s.plp.test = some x →
    (x.step = 1 → x.startMs + 300000 ≤ s.nowMs → s.plp.writeThrough = true → s.gfld .plp_cfg_plp_enable = 0 →
      Next .testTimeout s fun t => OnlyHostSide { s with plp := t.plp } t ∧ t.plp.test = none ∧ t.plp.result = 4 ∧
        t.plp.causes.contains 3 = true ∧ t.plp.failed = true ∧ t.plp.hutestEn = false) ∧
    (x.step = 3 → x.stepMs + 10000 ≤ s.nowMs → s.plp.writeThrough = true → s.gfld .plp_cfg_plp_enable = 0 →
      Next .testTimeout s fun t => OnlyHostSide { s with plp := t.plp } t ∧ t.plp.test = none ∧ t.plp.result = 5 ∧
        t.plp.causes.contains 3 = true) ∧
    (x.step = 1 → s.nowMs < x.startMs + 300000 → Next .testTimeout s fun t => t = s)) ∧
  (∀ (s : State), regOpen s pkgWin = true →
    Next .bankRelease s fun t => t = closeTails (expireRows (addCause 6 s)) ∧ t.plp.causes.contains 6 = true ∧
      t.plp.writeThrough = true) ∧
  (∀ (s : State), (s.plp.causes.contains 6 = true ∨ s.plp.causes.contains 4 = true) →
    (drained s = true → Next .bankSafe s fun t => t = { s with plp := { s.plp with bankSafe := true } }) ∧
    (drained s = false → Next .bankSafe s fun t => t = s)) ∧
  (∀ (s : State), regOpen s pkgWin = true →
    (s.plp.prepare = false →
      Next .prepareOff s fun t => t.plp.prepare = true ∧ t.plp.writeThrough = true ∧ t.plp.causes.contains 8 = true) ∧
    (s.plp.prepare = true → Next .prepareOff s fun t => t = s)) ∧
  (∀ (s : State), s.plp.prepare = true → s.plp.offReady = false →
    (drained s = true →
      Next .offReady s fun t => t.plp.offReady = true ∧ ∃ r, t.plp.record = some r ∧ r.reason = 3) ∧
    (drained s = false → Next .offReady s fun t => t = s)) ∧
  (∀ (value : Nat) (s : State), regOpen s pkgWin = true → bitOf value 0 = true → s.gfld .plp_cfg_plp_enable = 0 →
    Next (.plpEnable value) s fun t => t = clearCauses [1] (recompute (setG .plp_cfg_plp_enable 1
      (writeCfg pkgWin .plpCfg (value - 1) s)))) ∧
  (∀ (value : Nat) (s : State), regOpen s pkgWin = true → bitOf value 0 = false → s.gfld .plp_cfg_plp_enable = 1 →
    Next (.plpEnable value) s fun t => t = addCause 1 (writeCfg pkgWin .plpCfg value s) ∧ t.plp.writeThrough = true)

/-- R419, R420, R423 to R427, R432 to R434: the event recorder. It rests on the log's entries 63, 66, the model's own. -/
def Obligations.EventRecorder : Prop :=
  (∀ (e : EvRaise) (rest : List EvRaise) (s : State), s.evr.raised = e :: rest →
    (e.ev.severity < s.gfld .evr_cfg_log_min_sev →
      Next (.eventRaised true) s fun t => t = { s with evr := { s.evr with raised := rest } }) ∧
    (s.gfld .evr_cfg_log_min_sev ≤ e.ev.severity → e.ev.severity < 5 → tokensOf s e.ev.code = 0 →
      Next (.eventRaised true) s fun t =>
        t = { s with evr := { s.evr with raised := rest, supp := t.evr.supp } } ∧
        ∃ x ∈ t.evr.supp, x.code = e.ev.code ∧
          x.count = ((s.evr.supp.find? fun y => y.code == e.ev.code).map (·.count)).getD 0 + 1) ∧
    (s.gfld .evr_cfg_log_min_sev ≤ e.ev.severity → (5 ≤ e.ev.severity ∨ 0 < tokensOf s e.ev.code) → s.island.pkg = 2 →
      s.evr.store.length < slotsOf s →
      Next (.eventRaised true) s fun t =>
        t = { s with evr := t.evr, plp := { s.plp with record := t.plp.record }, board := t.board, outs := t.outs,
                     media := { s.media with ops := t.media.ops, nextOp := t.media.nextOp, dies := t.media.dies } } ∧
        t.evr.last = s.evr.last + 1 ∧ t.evr.raised = rest ∧
        ∃ r, t.evr.store = s.evr.store ++ [r] ∧ r.seq = s.evr.last + 1 ∧ r.code = e.ev.code ∧ r.sev = e.ev.severity ∧
          r.tile = e.tile ∧ r.minutes = s.island.minutes ∧ r.params = (e.params ++ [0, 0, 0, 0]).take 4 ∧
          r.archived = false)) ∧
  (∀ (s : State), s.evr.supp = [] → (s.evr.buckets.map (·.1)).Nodup → (∀ b ∈ s.evr.buckets, b.2 < rateBurst s) →
    Next .tokenRefill s fun t => t = { s with evr := { s.evr with buckets := t.evr.buckets } } ∧
      ∀ code, tokensOf t code = min (rateBurst s) (tokensOf s code + 1)) ∧
  (∀ (r : EvRec) (l : List EvRec) (s : State), unarchived s = r :: l →
    (s.nowMs < r.ms + (if s.evr.fallback then 1000 else 60000) → Next .archiveAgeTimer s fun t => t = s) ∧
    (r.ms + (if s.evr.fallback then 1000 else 60000) ≤ s.nowMs →
      Next .archiveAgeTimer s fun t => t = { s with evr := { s.evr with trigger := t.evr.trigger, archiving := t.evr.archiving },
                                                    media := { s.media with ops := t.media.ops, nextOp := t.media.nextOp, dies := t.media.dies },
                                                    outs := t.outs } ∧
        (s.evr.archiving = none → archiveReady s = true → archivePlaces s ≠ [] →
          t.evr.archiving = some (((unarchived s).take 512).map (·.seq)) ∧ t.evr.trigger = false ∧
          Sends ((archivePlaces s).map fun a => .nandProgram (dieOf a) [(a, archivePage s a ((unarchived s).take 512))]) s t))) ∧
  (∀ (s : State), (s.evr.archiving = none ∨ bandOpWaits s .program = true) → Next .archiveProgrammed s fun t => t = s) ∧
  (∀ (ns : List Nat) (s : State), s.evr.archiving = some ns → bandOpWaits s .program = false →
    Next .archiveProgrammed s fun t => t = { s with evr := t.evr, media := t.media, outs := t.outs,
                                                    clock := { s.clock with meters := t.clock.meters } } ∧ t.evr.archiveFault = false ∧ t.evr.last = s.evr.last ∧
      t.evr.store = s.evr.store.map (fun r => if ns.contains r.seq then { r with archived := true } else r) ∧
      (s.evr.bandPages < 1024 → t.evr.bandPrev = s.evr.bandPrev ∧ t.evr.band = s.evr.band ++
        ((s.evr.store.filter fun r => ns.contains r.seq).map fun r => { r with archived := true })) ∧
      (1024 ≤ s.evr.bandPages → t.evr.bandPrev = s.evr.band ∧ t.evr.bandPages = 1 ∧
        t.evr.bandBlock = 1 - s.evr.bandBlock)) ∧
  (∀ (n : Nat) (s : State), regAnswers s pkgWin .evrCursor = true → n < 2 ^ 32 →
    (∀ r, s.evr.store.find? (fun x => x.seq == n) = some r →
      Next (.evrCursorWrite n) s fun t => t = { s with evr := { s.evr with win := t.evr.win } } ∧
        t.evr.win = { cursor := n, valid := true, gap := false, pending := false, fromBand := false, latched := some r }) ∧
    ((∀ r ∈ held s, r.seq ≠ n) → s.evr.last < n →
      Next (.evrCursorWrite n) s fun t => t = { s with evr := { s.evr with win := t.evr.win } } ∧
        t.evr.win.valid = false ∧ t.evr.win.gap = false ∧ t.evr.win.cursor = n)) ∧
  (∀ (r : EvRec) (s : State), regAnswers s pkgWin .evrWinData = true → s.evr.win.latched = some r → s.evr.win.valid = true →
    Next .windowData7Read s fun t =>
      t = latchAt (r.seq + 1) (emit (.regRead (bar0 pkgWin 7 .evrWinData) (readValue s (bar0 pkgWin 7 .evrWinData))) s) ∧
      t.evr.win.cursor = r.seq + 1) ∧
  (∀ (s : State), s.evr.win.pending = true → bandOpWaits s .read = false →
    Next .bandFetchDone s fun t => t = { s with evr := { s.evr with win := { s.evr.win with
      pending := false, valid := s.evr.win.latched.isSome } }, media := t.media, clock := { s.clock with meters := t.clock.meters } } ∧
      ∀ o ∈ t.media.ops, o.use = .archive → o.kind ≠ .read) ∧
  (∀ (s : State), (s.evr.win.pending = false ∨ bandOpWaits s .read = true) → Next .bandFetchDone s fun t => t = s)

/-- R118 to R120, R123, R125: the chess clock; and the energy of the records of an epoch adds up to the energy of its summary. It
rests on the log's entry 62, the model's own. -/
def Obligations.ChessClock : Prop :=
  (∀ (energy peak : Nat) (s : State), s.clock.boardTime < s.clock.epochEnd → Next (.epochEnd energy peak) s fun t => t = s) ∧
  (∀ (energy peak : Nat) (s : State), s.clock.epochEnd ≤ s.clock.boardTime →
    Next (.epochEnd energy peak) s fun t => t = { s with clock := t.clock, board := t.board, outs := t.outs } ∧
      t.clock.epoch = (s.clock.epoch + 1) % 2 ^ 32 ∧ t.clock.epochStart = s.clock.boardTime ∧ t.clock.meters = [] ∧
      t.clock.checkpoint.epoch = t.clock.epoch ∧ t.clock.checkpoint.meters = [] ∧
      t.clock.boardTime = s.clock.boardTime ∧ s.clock.boardTime < t.clock.epochEnd ∧
      1000 * max 1 (s.gfld .glb_clock_cfg_epoch_s) ∣ t.clock.epochEnd ∧ t.clock.countsLost = false) ∧
  (∀ (energy peak : Nat) (s : State),
    Next (.meteringCheckpoint ⟨energy, peak⟩) s fun t => t = { s with clock := { s.clock with checkpoint := t.clock.checkpoint } } ∧
      t.clock.checkpoint.epoch = s.clock.epoch ∧ t.clock.checkpoint.start = s.clock.epochStart ∧
      t.clock.checkpoint.at_ = s.clock.boardTime ∧ t.clock.checkpoint.energy = energy ∧ t.clock.checkpoint.peak = peak ∧
      t.clock.checkpoint.meters = s.clock.meters) ∧
  (∀ (hi : Nat) (s : State), regOpen s pkgWin = true → 0 < s.gfld .glb_clock_cfg_epoch_s →
    Next (.boardTimeWrite hi) s fun t => t = { s with clock := t.clock } ∧
      t.clock.boardTime = hi % 2 ^ 32 * 2 ^ 32 + lowHalf s pkgWin 0 .glbBoardTime ∧ t.clock.timeUnset = false ∧
      1000 * s.gfld .glb_clock_cfg_epoch_s ∣ t.clock.epochEnd ∧ t.clock.boardTime + 1000 ≤ t.clock.epochEnd ∧
      t.clock.epochEnd < t.clock.boardTime + 1000 + 1000 * s.gfld .glb_clock_cfg_epoch_s ∧
      t.clock.meters = s.clock.meters ∧ t.clock.epoch = s.clock.epoch) ∧
  (∀ (hi : Nat) (s : State), regOpen s pkgWin = false → Next (.boardTimeWrite hi) s fun t => t = s) ∧
  (∀ (energy peak : Nat) (s : State), s.clock.epochEnd ≤ s.clock.boardTime → ringOn s 2 = false → s.clock.held = [] →
    (∀ m ∈ s.clock.meters, m.kind ≠ 3 ∧ (m.kind = 2 → m.cntlid = 0 ∧ m.nsid = 0)) →
    Next (.epochEnd energy peak) s fun t => ∃ rs sum, t.clock.held = [rs ++ [sum]] ∧ sum.kind = 3 ∧ sum.energy = energy ∧
      (∀ r ∈ rs, r.kind ≠ 3) ∧ (rs.map (·.energy)).sum = energy)

/-- R48, R59, R89, R91, R126, R225, R288, R454, R455, R474, R495 to R500: the log pages. It rests on the log's entries 9, 85, the
model's own. -/
def Obligations.LogPages : Prop :=
  (∀ (a : Adm) (c : Ctrl) (s : State), AdmRuns .management a s → admCtrl s a = some c →
    (Next (.getLogPageErrorInformation a) s fun t => ∃ d, t = passTurn a (admAnswer a d s) ∧
      ∀ i e, c.errors[i]? = some e → (64 * i, 8, e.count) ∈ d ∧ (64 * i + 8, 2, e.sqid) ∈ d ∧
        (64 * i + 10, 2, e.cid) ∈ d ∧ (64 * i + 12, 2, 2 * e.status.field) ∈ d ∧ (64 * i + 16, 8, e.lba) ∈ d ∧
        (64 * i + 24, 4, e.nsid) ∈ d) ∧
    (Next (.getLogPageFrozenQueues a) s fun t => ∃ d, t = passTurn a (admAnswer a d s) ∧
      (0, 4, ((frozenQueues s c).take 128).length) ∈ d ∧
      ∀ i q f, i < 128 → (frozenQueues s c)[i]? = some (q, f) → (16 + 16 * i, 2, q.sqid) ∈ d ∧
        (16 + 16 * i + 2, 2, f.cid) ∈ d ∧ (16 + 16 * i + 4, 2, f.status.field) ∈ d ∧
        (16 + 16 * i + 6, 1, b2n q.mediaOnly) ∈ d ∧ (16 + 16 * i + 8, 8, f.error) ∈ d) ∧
    (Next (.getLogPageTenantService a) s fun t => ∃ d, t = passTurn a (admAnswer a d s) ∧ (0, 4, s.clock.epoch) ∈ d ∧
      (4, 8, c.demotions) ∈ d ∧ (12, 4, (pairRecords s c).length) ∈ d ∧
      ∀ i r, (pairRecords s c)[i]? = some r → (64 + 64 * i + 8, 4, r.nsid) ∈ d ∧ (64 + 64 * i + 56, 4, r.energy) ∈ d)) ∧
  (∀ (s : State), AdmRuns .management .ring s →
    (Next (.getLogPageErrorInformation .ring) s fun t => t = passTurn .ring (admDone .ring .invalidLogPage 0 s)) ∧
    (Next (.getLogPageFrozenQueues .ring) s fun t => t = passTurn .ring (admDone .ring .invalidLogPage 0 s)) ∧
    (Next (.getLogPageTenantService .ring) s fun t => t = passTurn .ring (admDone .ring .invalidLogPage 0 s))) ∧
  (∀ (a : Adm) (nsid : Nat) (s : State), AdmRuns .management a s →
    ((nsid = 0 ∨ nsid = 0xFFFFFFFF) →
      Next (.getLogPageSmartHealth a nsid) s fun t => ∃ d, t = passTurn a (admAnswer a d s) ∧ (0, 1, s.health.crit) ∈ d ∧ (4, 1, 10) ∈ d ∧
        (1, 2, ((composite s).map kelvin).getD 0) ∈ d ∧ (112, 16, s.island.cycles) ∈ d ∧
        (128, 16, s.island.minutes / 60) ∈ d ∧ (144, 16, s.health.unsafeShutdowns) ∈ d ∧
        (64, 16, sumNs s (seen s a) (·.reads)) ∈ d ∧ (80, 16, sumNs s (seen s a) (·.writes)) ∈ d) ∧
    (nsid ≠ 0 → nsid ≠ 0xFFFFFFFF → nsid ∉ seen s a →
      Next (.getLogPageSmartHealth a nsid) s fun t => t = passTurn a (admDone a .invalidNamespaceOrFormat 0 s))) ∧
  (∀ (a : Adm) (id : Nat) (s : State), AdmRuns .management a s →
    (∀ g, findEg s id = some g →
      Next (.getLogPageEnduranceGroup a id) s fun t => ∃ d, t = passTurn a (admAnswer a d s) ∧ (0, 1, egWarning s g) ∈ d ∧
        (3, 1, availableSpare s g) ∈ d ∧ (4, 1, 10) ∈ d ∧ (5, 1, percentUsed s g) ∈ d ∧ (160, 16, usable s g) ∈ d) ∧
    (findEg s id = none → Next (.getLogPageEnduranceGroup a id) s fun t => t = passTurn a (admDone a .invalidField 0 s))) ∧
  (∀ (a : Adm) (s : State), AdmRuns .management a s →
    (Next (.getLogPageFirmwareSlot a) s fun t => ∃ d, t = passTurn a (admAnswer a d s) ∧ (0, 1, startSlot s) ∈ d ∧
      (8, 8, mfRev (manifestOf s.fw.slotA)) ∈ d ∧ (16, 8, mfRev (manifestOf s.fw.slotB)) ∈ d) ∧
    (Next (.getLogPageSecureDeallocProgress a) s fun t => ∃ d, t = passTurn a (admAnswer a d s) ∧
      let ws := s.rcl.sweeps.filter fun w => w.kept && seenOrAll s a w.nsid
      (0, 4, ws.length) ∈ d ∧ ∀ i w, ws[i]? = some w → (16 + 32 * i, 4, w.id) ∈ d ∧ (16 + 32 * i + 4, 4, w.nsid) ∈ d ∧
        (16 + 32 * i + 8, 1, if w.state = 1 ∧ summariesReady s = false then 0 else w.state) ∈ d ∧
        (16 + 32 * i + 12, 4, w.bands.length + w.doneBands) ∈ d ∧
        (16 + 32 * i + 16, 4, w.doneBands) ∈ d)) ∧
  (∀ (a : Adm) (s : State), AdmRuns .management a s →
    (admProvider s a = true →
      (Next (.getLogPageFirmwareStaging a) s fun t => ∃ d, t = passTurn a (admAnswer a d s) ∧ (0, 1, s.fw.stage) ∈ d ∧
        (2, 2, piecesMissing s) ∈ d ∧ (28, 4, floorOf s) ∈ d ∧ (7, 1, s.fw.instStep) ∈ d) ∧
      Next (.getLogPageDeviceHealth a) s fun t => ∃ d, t = passTurn a (admAnswer a d s) ∧ (4, 1, s.health.crit) ∈ d ∧
        (5, 1, (s.plp.causes.min?).getD 0) ∈ d ∧ (6, 1, s.plp.result) ∈ d ∧ (28, 4, s.plp.limitMib) ∈ d ∧
        (16, 2, (s.media.dies.filter (·.failed)).length) ∈ d ∧ (120, 8, s.red.lostTotal) ∈ d ∧
        ∀ i, i < 11 → (32 + 8 * i, 8, s.health.life.getD i 0) ∈ d) ∧
    (admProvider s a = false →
      (Next (.getLogPageFirmwareStaging a) s fun t => t = passTurn a (admDone a .invalidLogPage 0 s)) ∧
      Next (.getLogPageDeviceHealth a) s fun t => t = passTurn a (admDone a .invalidLogPage 0 s))) ∧
  (∀ (a : Adm) (rae : Bool) (s : State), AdmRuns .management a s →
    let ls := (s.red.lost.filter fun l => seenOrAll s a l.nsid).reverse
    Next (.getLogPageLostRanges a rae) s fun t => ∃ d, (0, 4, ls.length) ∈ d ∧ (4, 8, s.red.lostTotal) ∈ d ∧
      (∀ i l, ls[i]? = some l → (16 + 32 * i, 28, ofLE (lostBytes l)) ∈ d) ∧
      (rae = true → t = passTurn a (admAnswer a d s)) ∧
      (rae = false → admProvider s a = true →
        t = passTurn a (admAnswer a d (smartRefresh { s with health := { s.health with lostUnread := false } })))) ∧
  (∀ (conn : Nat) (k : Conn) (s : State), liveConn s conn = some k → k.discovery = true → k.bound = true →
    AdmRuns .management (.conn conn) s →
    Next (.getLogPageDiscovery conn) s fun t => t = passTurn (.conn conn) (emit (.discovery conn (discoveryEntries s k.nqn)) s) ∧
      ∀ e ∈ discoveryEntries s k.nqn, admits s (e.1 / 4) k.nqn = true ∧ portUp s (e.1 / 4) (e.1 % 4) = true)

/-- R401, R428, R466, R501 to R503, R513 to R516, R520: supervision, supplies and resets. It rests on the log's entry 84, the
model's own. -/
def Obligations.SuppliesAndFences : Prop :=
  (∀ (tile : Nat) (s : State), tileUp s tile = true →
    Next (.heartbeat tile) s fun t => t = { s with mgmt := t.mgmt } ∧ beatOf t tile = s.nowMs ∧ restarting t tile = none ∧
      t.mgmt.primary = s.mgmt.primary ∧ t.mgmt.standby = s.mgmt.standby ∧
      ∀ a, a ≠ tile → beatOf t a = beatOf s a ∧ restarting t a = restarting s a) ∧
  (∀ (tile : Nat) (s : State), beatsWatched s = true → tileUp s tile = true → restarting s tile = none →
    (beatOf s tile + 10 ≤ s.nowMs →
      Next (.heartbeatMissing tile) s fun t => t = { s with mgmt := { s.mgmt with restarts := (tile, s.nowMs) :: s.mgmt.restarts } }) ∧
    (s.nowMs < beatOf s tile + 10 → Next (.heartbeatMissing tile) s fun t => t = s)) ∧
  (∀ (tile m : Nat) (s : State), restarting s tile = some m →
    (beatsWatched s = true → m + 100 ≤ s.nowMs → Next (.mgmtRestartTimeout tile) s fun t => t = fenceTile tile s) ∧
    (s.nowMs < m + 100 → Next (.mgmtRestartTimeout tile) s fun t => t = s)) ∧
  (∀ (tile : Nat) (s : State), tile ≠ s.mgmt.primary → tileUp s s.mgmt.primary = true → tileUp s tile = true →
    Next (.fenceRequest s.mgmt.primary tile) s fun t => t = fenceTile tile s ∧
      t.island = { s.island with fenced := s.island.fenced ++ [tile] } ∧ tileUp t tile = false ∧
      (∀ p ∈ linkOrder, linkUp t tile p = false) ∧ (∀ d ∈ t.drams, d.tile ≠ tile) ∧
      (∀ k ∈ t.cry.slots, k.tile ≠ tile) ∧ (∀ x ∈ t.cmpSlots, x.tile ≠ tile) ∧ t.mgmt.primary = s.mgmt.primary) ∧
  (∀ (by_ tile : Nat) (s : State), by_ ≠ s.mgmt.primary →
    (by_ ≠ s.mgmt.standby ∨ s.nowMs < beatOf s s.mgmt.primary + 20) → Next (.fenceRequest by_ tile) s fun t => t = s) ∧
  (∀ (by_ : Nat) (s : State), Next (.fenceRequest by_ by_) s fun t => t = s) ∧
  (∀ (s : State), s.island.vaux = false →
    Next .vauxRise s fun t => t = { s with island := t.island, plp := t.plp, evr := t.evr, outs := t.outs } ∧
      t.island = { s.island with vaux := true, onVio18 := false, pkg := if s.island.pkg == 0 then 1 else s.island.pkg } ∧
      t.plp = { s.plp with holdupEn := false, hutestEn := false, pfailDriven := false } ∧
      t.evr = { s.evr with buckets := [], supp := [] } ∧
      Sends [.pins [(.holdupEn, false), (.hutestEn, false), (.pfailL, true)]] s t) ∧
  (∀ (s : State), s.island.pkg = 2 →
    Next .vauxLow s fun t => t = { s with island := { s.island with onVio18 := true } }) ∧
  (∀ (s : State), Next .vauxReturn s fun t => t = { s with island := { s.island with onVio18 := false } }) ∧
  (∀ (s : State), s.island.pkg ≠ 2 →
    Next .vauxLoss s fun t => t.island = { s.island with pkg := 0, vaux := false, onVio18 := false, bport := false } ∧
      t.regs = RegFile.reset ∧ t.evr = { s.evr with store := [], raised := [], fresh := true } ∧ t.host.cmds = [] ∧
      t.plp.record = s.plp.record ∧ t.wr = s.wr ∧ t.map = s.map ∧ t.rcl = s.rcl ∧ t.red = s.red ∧ t.fw = s.fw) ∧
  (∀ (s : State), Next .pwrOkLow s fun t => t = declareFailure s ∧ (s.island.pkg = 1 → t = s)) ∧
  (∀ (s : State),
    (s.island.pkg = 1 → Next .sysRstLLow s fun t => t = { s with island := { s.island with sysRst := true } }) ∧
    (s.island.pkg = 2 → s.plp.dump = none →
      Next .sysRstLLow s fun t => t.island = { s.island with sysRst := true } ∧ t.plp.pfailDriven = true ∧
        t.plp.holdupEn = true ∧ ∃ d, t.plp.dump = some d ∧ d.complete = false)) ∧
  (∀ (s : State), s.island.vaux = true → s.island.pkg = 1 →
    Next (.sysRstLRelease true) s fun t => t.island.pkg = 2 ∧ t.island.sysRst = false ∧ t.island.fenced = [] ∧
      t.island.cycles = (s.island.cycles + 1) % 2 ^ 24 ∧ t.plp.started = false ∧ t.plp.test = none) ∧
  (∀ (s : State),
    Next (.sysRstLRelease false) s fun t => t = { s with island := { s.island with sysRst := false } }) ∧
  (∀ (s : State), s.island.pkg = 2 →
    Next .bportPerstLRelease s fun t => t = { s with island := { s.island with bport := true } })

/-- R449 to R456, R464: firmware download and commit. It rests on the log's entry 68, the model's own. -/
def Obligations.FirmwareStaging : Prop :=
  (∀ (a : Adm) (off : Nat) (d : Bytes) (s : State), AdmRuns .registry a s →
    (3 ≤ s.fw.stage → Next (.firmwareImageDownload a off d) s fun t => t = passTurn a (syncStores (admDone a .commandSequenceError 0 s))) ∧
    (s.fw.stage < 3 → off % 65536 ≠ 0 → Next (.firmwareImageDownload a off d) s fun t => t = passTurn a (syncStores (admDone a .invalidField 0 s))) ∧
    (s.fw.stage < 3 → off = 0 → d.length ≠ 13792 →
      Next (.firmwareImageDownload a off d) s fun t => t = passTurn a (syncStores (admDone a .invalidField 0 (logEv .fwPieceReject 15 [0, 1] s)))) ∧
    (s.fw.stage < 3 → off = 0 → d.length = 13792 → stagedManifest s = none →
      Next (.firmwareImageDownload a off d) s fun t =>
        (∀ r, mfFault s d = some r → t = passTurn a (syncStores (admDone a .invalidFirmwareImage 0
          (logEv .fwManifestRefused 15 [refusedParam r] s)))) ∧
        (mfFault s d = none → t = passTurn a (syncStores (startPiece a 0 d (stageRestart s)))))) ∧
  (∀ (a : Adm) (i : Nat) (d m : Bytes) (s : State), AdmRuns .registry a s → s.fw.stage < 3 → 0 < i → i ≤ 383 →
    stagedManifest s = some m → i ≤ mfPieces m → d.length = pieceLen m i →
    (recorded s i = true → Next (.firmwareImageDownload a (65536 * i) d) s fun t => t = passTurn a (syncStores (admDone a .success 0 s))) ∧
    (recorded s i = false →
      Next (.firmwareImageDownload a (65536 * i) d) s fun t =>
        (sha256 d = mfPieceDigest m i → t = passTurn a (syncStores (startPiece a i d s))) ∧
        (sha256 d ≠ mfPieceDigest m i → t = passTurn a (syncStores (admDone a .invalidField 0 (logEv .fwPieceReject 15 [i, 0] s)))))) ∧
  (∀ (a : Adm) (i : Nat) (d : Bytes) (s : State),
    startPiece a i d s = admPark a { s with fw := (startPiece a i d s).fw, prov := some { adm := a, kind := .firmware } } ∧
      (startPiece a i d s).fw.writing = some (i, d) ∧ (startPiece a i d s).fw.staging = s.fw.staging) ∧
  (∀ (i : Nat) (d : Bytes) (p : ProvOp) (s : State), s.fw.writing = some (i, d) → s.prov = some p → p.kind = .firmware →
    (s.fw.flash.failed = false → i = 0 →
      Next (.pieceWriteDone i true) s fun t => t.fw.writing = none ∧ t.fw.staging = [(0, d)] ∧ t.fw.stage = 1 ∧
        t.prov = none ∧ t.heldAdmin = [] ∧ t.ident = s.ident ∧ t.fw.slotA = s.fw.slotA ∧ t.fw.slotB = s.fw.slotB) ∧
    (s.fw.flash.failed = false → i ≠ 0 → s.fw.stage ≠ 0 →
      Next (.pieceWriteDone i true) s fun t => t.fw.writing = none ∧ t.fw.staging = s.fw.staging ++ [(i, d)] ∧
        t.fw.stage = s.fw.stage ∧ t.prov = none ∧ t.fw.slotA = s.fw.slotA ∧ t.fw.slotB = s.fw.slotB) ∧
    Next (.pieceWriteDone i false) s fun t => t.fw.writing = none ∧ t.fw.staging = s.fw.staging ∧ t.prov = none) ∧
  (∀ (s : State), s.fw.checking = true →
    Next .digestCheckDone s fun t => t = { s with fw := t.fw, evr := t.evr } ∧ t.fw.checking = false ∧
      (digestsEqual s.fw.staging = true → s.fw.flash.failed = false → t.fw.stage = 2 ∧ t.fw.staging = s.fw.staging ∧
        t.evr = s.evr) ∧
      ((digestsEqual s.fw.staging = false ∨ s.fw.flash.failed = true) → t.fw.stage = 0 ∧ t.fw.staging = [] ∧
        Logs .fwManifestRefused 15 [3] s t)) ∧
  (∀ (a : Adm) (ca fs : Nat) (s : State), AdmRuns .registry a s →
    (ca = 0 → fs = 3 → s.fw.stage = 2 → mfKind (manifestOf s.fw.staging) = 1 →
      Next (.firmwareCommitRecovery a ca fs) s fun t =>
        t = passTurn a (syncStores (admDone a .success 0 { s with fw := { s.fw with bootBand := [s.fw.staging, s.fw.staging] } }))) ∧
    (ca = 0 → fs ≠ 3 → Next (.firmwareCommitRecovery a ca fs) s fun t => t = passTurn a (syncStores (admDone a .invalidFirmwareSlot 0 s))) ∧
    (ca ≠ 0 → Next (.firmwareCommitRecovery a ca fs) s fun t => t = passTurn a (syncStores (admDone a .invalidField 0 s)))) ∧
  (∀ (a : Adm) (fs : Nat) (s : State), AdmRuns .registry a s →
    (1 < fs → (Next (.firmwareCommitNextStart a fs) s fun t => t = passTurn a (syncStores (admDone a .invalidFirmwareSlot 0 s))) ∧
      Next (.firmwareCommitImmediate a fs) s fun t => t = passTurn a (syncStores (admDone a .invalidFirmwareSlot 0 s))) ∧
    (∀ st, fs ≤ 1 → commitFault s = some st →
      (Next (.firmwareCommitNextStart a fs) s fun t => t = passTurn a (syncStores (admDone a st 0 s))) ∧
      Next (.firmwareCommitImmediate a fs) s fun t => t = passTurn a (syncStores (admDone a st 0 s))) ∧
    (fs ≤ 1 → commitFault s = none → s.fw.recovery = false →
      (Next (.firmwareCommitNextStart a fs) s fun t => t = passTurn a (syncStores (admDone a .success 0
        (logAppend .pendingStart { s with fw := { s.fw with pendingStart := true } })))) ∧
      Next (.firmwareCommitImmediate a fs) s fun t => t.fw = { storesOf s t with activating := true, actStep := 1 } ∧
        t.prov = some { adm := a, kind := .firmware } ∧ t.ident = s.ident ∧ t.reg = s.reg)) ∧
  (∀ (value : Nat) (s : State), regOpen s pkgWin = true → bitOf value 0 = true →
    (s.fw.stage < 3 → Next (.stageClear value) s fun t => t = logAppend .stageRestart { s with fw := { s.fw with
      staging := [], stage := 0, checking := false, pendingStart := false } }) ∧
    (3 ≤ s.fw.stage → Next (.stageClear value) s fun t => t = reject 15 (bar0 pkgWin 0 .fwuCtrl) 11 s)) ∧
  (∀ (k : LogKind) (s : State), (∀ l, s.fw.log.getLast? = some l → ∀ r ∈ s.fw.log, r.sector ≠ (l.sector + 1) % 8) →
    logAppend k s = { s with fw := { s.fw with log := (logAppend k s).fw.log, flash := (logAppend k s).fw.flash } } ∧
      logSays (logAppend k s).fw.log = k.apply (logSays s.fw.log))

/-- R441 to R443, R447, R457 to R463: boot, activation, install and the code flash. It rests on the log's entries 52, 67, 68, the
model's own. -/
def Obligations.FirmwareActivation : Prop :=
  (∀ (ok : Bool) (s : State), s.fw.actStep = 1 →
    Next (.activationStart ok) s fun t =>
      (ok = true → imageFault s s.fw.flash.failed 0 s.fw.staging = none → t = { s with fw := t.fw } ∧ t.fw.actStep = 2 ∧
        t.fw.activated = true ∧ t.fw.stage = 3 ∧ t.fw.pendingStart = false ∧ t.fw.run = s.fw.run) ∧
      ((ok = false ∨ imageFault s s.fw.flash.failed 0 s.fw.staging ≠ none) →
        t = statusVector s (activationFails .invalidFirmwareImage s) ∧ t.fw.activating = false ∧ t.fw.activated = false)) ∧
  (∀ (s : State), s.fw.actStep = 2 →
    Next .activationQuiescent s fun t => t = { s with fw := t.fw } ∧ t.fw.actStep = 3 ∧
      t.fw.run = some { source := 2, manifest := manifestOf s.fw.staging } ∧ t.fw.staging = s.fw.staging) ∧
  (∀ (p : ProvOp) (s : State), s.fw.actStep = 3 → s.prov = some p → p.kind = .firmware →
    Next .activationEnd s fun t => t.fw = { storesOf s t with activating := false, actStep := 0 } ∧ t.prov = none ∧
      t.heldAdmin = [] ∧ t.ident = s.ident ∧ t.reg = s.reg) ∧
  (∀ (a : Adm) (id : Nat) (s : State), AdmRuns .registry a s →
    (s.fw.stage = 3 → s.fw.activated = true → mfImageId (runManifest s) = id →
      Next (.firmwareConfirm a id) s fun t => t.fw.intent = true ∧ t.fw.stage = 4 ∧ t.fw.instStep = 1 ∧ t.fw.instDone = 0 ∧
        t.ident = s.ident ∧ t.fw.slotA = s.fw.slotA ∧ t.fw.slotB = [] ∧
        OnlyHostSide { s with fw := t.fw } t) ∧
    (s.fw.stage = 3 → s.fw.activated = true → mfImageId (runManifest s) ≠ id →
      Next (.firmwareConfirm a id) s fun t => t = passTurn a (syncStores (admDone a .invalidField 0 s))) ∧
    ((s.fw.stage ≠ 3 ∨ s.fw.activated = false) →
      Next (.firmwareConfirm a id) s fun t => t = passTurn a (syncStores (admDone a .commandSequenceError 0 s)))) ∧
  (∀ (s : State), s.fw.flash.failed = false →
    (s.fw.instStep = 1 → Next (.installStepDone true) s fun t => t = { s with fw := t.fw } ∧ t.fw.slotB = s.fw.staging ∧
      t.fw.slotA = [] ∧ t.fw.instStep = 2 ∧ t.fw.instDone = 0) ∧
    (s.fw.instStep = 2 → Next (.installStepDone true) s fun t => t = { s with fw := t.fw, ident := t.ident, evr := t.evr } ∧
      t.fw.slotA = s.fw.staging ∧ t.fw.slotB = s.fw.slotB ∧ t.fw.stage = 2 ∧ t.fw.activated = false ∧ t.fw.intent = false ∧
      t.fw.instStep = 0 ∧ Logs .fwConfirmed 15 [idParam (manifestOf s.fw.staging)] s t ∧
      t.ident = { s.ident with securityFloor := t.ident.securityFloor, keyRevoked := t.ident.keyRevoked } ∧
      ∀ k, k < 4 → bitOf s.ident.keyRevoked k = true → bitOf t.ident.keyRevoked k = true) ∧
    (s.fw.instStep ≠ 0 → Next (.installStepDone false) s fun t => t = { s with fw := { s.fw with instDone := 0 } })) ∧
  (∀ (rf : List Nat) (s : State), booting s = true → tileUp s 0 = true → s.ident.rowOk = true → s.fw.intent = false →
    s.fw.activated = false → s.fw.pendingStart = false →
    Next (.boot rf []) s fun t =>
      let un := fun n => s.fw.flash.failed || rf.contains n
      (imageFault s (un 0) 0 s.fw.slotA = none → t.fw.running = true ∧ t.fw.bootState = 1 ∧ t.fw.recovery = s.fw.recovery ∧
        t.fw.run = some { source := 0, manifest := manifestOf s.fw.slotA }) ∧
      (∀ r, imageFault s (un 0) 0 s.fw.slotA = some r →
        (imageFault s (un 1) 0 s.fw.slotB = none → t.fw.running = true ∧ t.fw.bootState = 1 ∧ t.fw.bootReason = r ∧
          t.fw.run = some { source := 1, manifest := manifestOf s.fw.slotB }) ∧
        (∀ q, imageFault s (un 1) 0 s.fw.slotB = some q →
          (∀ g ∈ s.fw.bootBand, imageFault s (rf.contains 3) 1 g ≠ none) →
          t.fw.bootState = 3 ∧ t.fw.bootReason = q ∧ t.fw.running = s.fw.running))) ∧
  (∀ (rf tf : List Nat) (s : State), booting s = true → tileUp s 0 = true → s.ident.rowOk = false →
    Next (.boot rf tf) s fun t => t.fw.bootState = 3 ∧ t.fw.bootReason = 8 ∧ t.fw.running = s.fw.running) ∧
  (∀ (rf tf : List Nat) (s : State), booting s = false → Next (.boot rf tf) s fun t => t = s) ∧
  (∀ (rf tf : List Nat) (s : State), booting s = true → tileUp s 1 = true → s.mgmt.primary = 0 → s.mgmt.standby = 1 →
    s.ident.rowOk = false →
    Next (.bootPrimaryTimeout rf tf) s fun t => t.mgmt.primary = 1 ∧ t.mgmt.standby ≠ 0 ∧ t.fw.bootState = 3) ∧
  (∀ (us : Nat) (s : State), s.fw.flash.op ≠ 0 →
    (us ≤ 4800 → Next (.cflashOperationDone true us) s fun t => OnlyHostSide { s with fw := t.fw } t ∧
      t.fw.flash.op = 1 ∧ t.fw.flash.fails = 0 ∧ t.fw.flash.failed = s.fw.flash.failed ∧ t.fw.staging = s.fw.staging) ∧
    (1 ≤ s.fw.flash.fails → Next (.cflashOperationDone false us) s fun t => OnlyHostSide { s with fw := t.fw } t ∧
      t.fw.flash.failed = true ∧ t.fw.flash.opFail = sat 0xFFFF (s.fw.flash.opFail + 1))) ∧
  (∀ (s : State), s.fw.flash.op = 0 →
    (s.fw.flash.idleMs + s.gfld .cfc_cfg_idle_off_ms ≤ s.nowMs →
      Next .cflashIdleOff s fun t => t = { s with fw := { s.fw with flash := { s.fw.flash with powered := false } } }) ∧
    (s.nowMs < s.fw.flash.idleMs + s.gfld .cfc_cfg_idle_off_ms → Next .cflashIdleOff s fun t => t = s))

/-- R470 to R476, R481: the rings of the board port and their doorbells. It rests on the log's entries 76, 77, 78, the model's
own. -/
def Obligations.BoardRings : Prop :=
  (∀ (v : Nat) (s : State), ringOn s 0 = true → v < 65536 → (s.board.rings.any fun r => r.k == 0) = true →
    (bellOk s 0 v (ringOf s 0).tail (ringRoom s 0) = true →
      Next (.bptCmdTail v) s fun t => t = { s with board := { s.board with rings := t.board.rings } } ∧
        ringOf t 0 = { ringOf s 0 with tail := v } ∧ ∀ k, k ≠ 0 → ringOf t k = ringOf s k) ∧
    (bellOk s 0 v (ringOf s 0).tail (ringRoom s 0) = false →
      Next (.bptCmdTail v) s fun t => t = reject 15 0x1000000 12 (setG .bpt_status_bad_doorbell 1 s))) ∧
  (∀ (v : Nat) (s : State), ringOn s 1 = true → v < 65536 → (s.board.rings.any fun r => r.k == 1) = true →
    (bellOk s 1 v (ringOf s 1).head (ringUsed s 1) = true →
      Next (.bptRspHead v) s fun t => t = { s with board := { s.board with rings := t.board.rings } } ∧
        ringOf t 1 = { ringOf s 1 with head := v } ∧ ∀ k, k ≠ 1 → ringOf t k = ringOf s k) ∧
    (bellOk s 1 v (ringOf s 1).head (ringUsed s 1) = false →
      Next (.bptRspHead v) s fun t => t = reject 15 0x1000004 12 (setG .bpt_status_bad_doorbell 1 s))) ∧
  (∀ (v : Nat) (s : State), ringOn s 2 = true → v < 65536 → bellOk s 2 v (ringOf s 2).head (ringUsed s 2) = true →
    s.clock.placing = [] → s.clock.held = [] → (s.board.rings.any fun r => r.k == 2) = true →
    Next (.bptMtrHead v) s fun t => t = { s with board := { s.board with rings := t.board.rings } } ∧
      ringOf t 2 = { ringOf s 2 with head := v } ∧ ∀ k, k ≠ 2 → ringOf t k = ringOf s k) ∧
  (∀ (v : Nat) (s : State), ringOn s 3 = true → v < 65536 → bellOk s 3 v (ringOf s 3).head (ringUsed s 3) = true →
    s.evr.last < s.evr.evtNext → (s.board.rings.any fun r => r.k == 3) = true →
    Next (.bptEvtHead v) s fun t => t = { s with board := { s.board with rings := t.board.rings } } ∧
      ringOf t 3 = { ringOf s 3 with head := v } ∧ ∀ k, k ≠ 3 → ringOf t k = ringOf s k) ∧
  (∀ (v : Nat) (s : State), (ringOn s 0 = false → Next (.bptCmdTail v) s fun t => t = s) ∧
    (ringOn s 1 = false → Next (.bptRspHead v) s fun t => t = s) ∧
    (ringOn s 2 = false → Next (.bptMtrHead v) s fun t => t = s) ∧
    (ringOn s 3 = false → Next (.bptEvtHead v) s fun t => t = s)) ∧
  (∀ (k : Nat) (s : State), 1 ≤ k → k ≤ 3 → ringOn s k = true → (s.board.rings.any fun r => r.k == k) = true →
    ((ringOf s k).unsignalled ≠ 0 →
      Next (.ringCoalesceTimer k) s fun t => t = { s with board := { s.board with rings := t.board.rings }, outs := t.outs } ∧
        ringOf t k = { ringOf s k with unsignalled := 0 } ∧ Sends [.ringIrq (k - 1)] s t) ∧
    ((ringOf s k).unsignalled = 0 → Next (.ringCoalesceTimer k) s fun t => t = s)) ∧
  (∀ (k value : Nat) (s : State), k < 2 → regOpen s pkgWin = true → bitOf value 31 = true →
    s.fld pkgWin k .bpt_ring_cfg_ring_en = 0 → (s.board.rings.any fun r => r.k == k) = true →
    s.clock.placing = [] → s.clock.held = [] → s.evr.last < s.evr.evtNext →
    let s1 := writeReg pkgWin k .bptRingCfg (setBit value 31 false) s
    let n := s1.fld pkgWin k .bpt_ring_cfg_log2_size
    (4 ≤ n → n ≤ 16 →
      Next (.ringEnable k value) s fun t => t = { s with regs := t.regs, board := t.board, evr := t.evr } ∧
        t.fld pkgWin k .bpt_ring_cfg_ring_en = 1 ∧ ringOf t k = { k := k, head := 0, tail := 0, unsignalled := 0 } ∧
        ∀ j, j ≠ k → ringOf t j = ringOf s j) ∧
    (n < 4 ∨ 16 < n → Next (.ringEnable k value) s fun t => t = reject 15 (bar0 pkgWin k .bptRingCfg) 14 s1)) ∧
  (∀ (s : State), s.island.pkg = 2 →
    Next .boardPortReset s fun t =>
      t = { s with regs := t.regs, board := t.board, heldAdmin := t.heldAdmin, released := t.released, cleared := t.cleared,
                   prov := t.prov } ∧
      (∀ k, k < 4 → ringOn t k = false) ∧ t.board.running = none ∧ t.board.busy = false ∧ t.board.rings = s.board.rings ∧
      t.heldAdmin = s.heldAdmin.filter (fun x => x.1 != .ring) ∧ t.released = s.released.filter (fun x => x.1 != .ring) ∧
      .ring ∉ t.cleared ∧
      OnlyFields ((List.range 4).map fun k => (pkgWin, k, .bpt_ring_cfg_ring_en)) s t) ∧
  (∀ (d : Bytes) (m : Nat × Nat) (s : State), canFetchDesc s = true → malformed d = false → descMoves s d = some m →
    ringRefuses d = none → m = (descField d 20 1, descField d 16 4) → (s.board.rings.any fun r => r.k == 0) = true →
    Next (.descriptorFetch d true) s fun t => t = { s with board := t.board, outs := t.outs } ∧
      t.board.running = some { bytes := d, index := (ringOf s 0).head, drop := false } ∧ t.board.busy = false ∧
      (ringOf t 0).head = ((ringOf s 0).head + 1) % ringSize s 0 ∧
      Sends [.writeBack 0 (((ringOf s 0).head + 1) % ringSize s 0)] s t) ∧
  (∀ (d : Bytes) (ok : Bool) (s : State), canFetchDesc s = true → malformed d = true →
    Next (.descriptorFetch d ok) s fun t => t = { s with board := t.board, outs := t.outs, clock := { s.clock with meters := t.clock.meters } } ∧ t.board.running = none ∧
      ∃ e : Bytes, Out.ringEntry 1 (ringOf s 1).tail e ∈ t.outs ∧ e.length = 32 ∧ fieldAt e 0 2 = descField d 2 2 ∧
        fieldAt e 2 1 = 2 ∧ fieldAt e 20 2 = (ringOf s 0).head % 2 ^ 16) ∧
  (∀ (d : Bytes) (ok : Bool) (s : State), canFetchDesc s = true → malformed d = false → descMoves s d = none →
    Next (.descriptorFetch d ok) s fun t => t = { s with board := t.board, outs := t.outs, clock := { s.clock with meters := t.clock.meters } } ∧ t.board.running = none ∧
      ∃ e : Bytes, Out.ringEntry 1 (ringOf s 1).tail e ∈ t.outs ∧ e.length = 32 ∧ fieldAt e 0 2 = descField d 2 2 ∧
        fieldAt e 2 1 = 3 ∧ fieldAt e 20 2 = (ringOf s 0).head % 2 ^ 16) ∧
  (∀ (d : Bytes) (ok : Bool) (s : State), canFetchDesc s = false → Next (.descriptorFetch d ok) s fun t => t = s)

/-- R58, R444, R474, R476 to R478, R482 to R486, R488: board operations, the staged configuration and the sideband. It rests on
the log's entries 73, 74, 79, 80, the model's own. -/
def Obligations.BoardOperations : Prop :=
  (∀ (s : State), ringRuns s 1 = true →
    (s.board.commit.state = 0 →
      Next .configCommit s fun t => t = { s with board := t.board } ∧ t.board.running = s.board.running ∧
        t.board.busy = true ∧ t.board.commit = { s.board.commit with
          state := 1, seq := (s.board.commit.seq + 1) % 2 ^ 32, snapshot := s.regs.shadow, fromRing := true }) ∧
    (s.board.commit.state ≠ 0 →
      Next .configCommit s fun t => t = boardFail 6 (reject 15 (bar0 pkgWin 0 .glbCommit) 6 s))) ∧
  (∀ (d : Bytes) (s : State), ringRuns s 2 = true → s.fw.activating = false → planeBusy s .ring = false → s.fw.flash.failed = false →
    (∀ p, parseProvider s d = some p →
      Next (.providerSet d) s fun t =>
        t = passTurn .ring (syncStores (boardDone 0 0 (dropRights { s with reg := { s.reg with provider := p } }))) ∧
        t.reg = { s.reg with provider := p } ∧
        ∀ c ∈ t.host.ctrls, c.provider = true → designated t c.ident c.tile = true) ∧
    (parseProvider s d = none → Next (.providerSet d) s fun t => t = passTurn .ring (syncStores (boardFail 2 s)))) ∧
  (∀ (s : State), ringRuns s 3 = true →
    Next .providerGet s fun t => t = boardDone 0 0 (emit (.ringData (providerFields s.reg.provider)) s)) ∧
  (∀ (d : Bytes) (s : State), ringRuns s 4 = true → s.fw.activating = false → planeBusy s .ring = false → s.fw.flash.failed = false →
    let n := parseNetIf d
    let others := s.reg.netifs.filter fun x => !x.samePlace n
    (netIfOk s n = false → Next (.netifSet d) s fun t => t = passTurn .ring (syncStores (boardFail 2 s))) ∧
    (netIfOk s n = true → bitOf n.flags 0 = true →
      (others.any fun x => x.tile == n.tile && x.port == n.port && x.clashes n) = true →
      Next (.netifSet d) s fun t => t = passTurn .ring (syncStores (boardFail 4 s))) ∧
    (netIfOk s n = true → bitOf n.flags 0 = true →
      (others.any fun x => x.tile == n.tile && x.port == n.port && x.clashes n) = false →
      Next (.netifSet d) s fun t => t.reg = { s.reg with netifs := others ++ [n] } ∧
        ((∀ x ∈ s.reg.netifs, x.samePlace n = false) →
          t = passTurn .ring (syncStores (boardDone 0 0 { s with reg := { s.reg with netifs := others ++ [n] } }))))) ∧
  (∀ (v : Nat) (s : State), ringRuns s 5 = true →
    Next (.netifGet v) s fun t => ∃ d, t = boardDone 0 0 (emit (.ringData d) s) ∧
      (∀ n, findIf s (bitsOf v 2 0) (bitsOf v 9 8) (bitsOf v 19 16) = some n → (3, 1, n.flags) ∈ d ∧ (4, 2, n.vlan) ∈ d ∧
        (6, 2, n.mtu) ∈ d ∧ (52, 2, n.ioPort) ∈ d) ∧
      (findIf s (bitsOf v 2 0) (bitsOf v 9 8) (bitsOf v 19 16) = none → (3, 1, 0) ∈ d)) ∧
  (∀ (s : State), ringRuns s 6 = true →
    Next .identityGet s fun t => ∃ d, t = boardDone 0 0 (emit (.ringData d) s) ∧ (0, 16, ofLE s.ident.serial) ∈ d ∧
      (16, 1, s.ident.part.hwType) ∈ d ∧ (18, 1, s.ident.tileMap) ∈ d ∧ (24, 8, ofLE s.ident.kcv) ∈ d) ∧
  (∀ (s : State), regOpen s pkgWin = true →
    (s.board.commit.state = 0 →
      (Next .commit s fun t => t = { s with board := { s.board with commit := { s.board.commit with
        state := 1, seq := (s.board.commit.seq + 1) % 2 ^ 32, snapshot := s.regs.shadow, fromRing := false } } }) ∧
      Next .revert s fun t => t = { s with regs := { s.regs with shadow := t.regs.shadow } } ∧
        ∀ v, v ∈ t.regs.shadow ↔ v ∈ s.regs.live ∧ v.fld.info.acc = .rs) ∧
    (s.board.commit.state ≠ 0 →
      (Next .commit s fun t => t = reject 15 (bar0 pkgWin 0 .glbCommit) 6 s) ∧ Next .revert s fun t => t = s)) ∧
  (∀ (s : State), s.board.commit.state = 1 →
    (commitFaults s = [] → Next .commitValidated s fun t =>
      t = { s with board := { s.board with commit := { s.board.commit with state := 2 } } }) ∧
    (commitFaults s ≠ [] → s.board.commit.fromRing = false → Next .commitValidated s fun t =>
      t = { s with board := t.board, regs := t.regs, evr := t.evr, outs := t.outs } ∧ t.regs.shadow = s.regs.shadow ∧
      t.board.commit.state = 0 ∧ t.board.commit.rejected = true ∧ t.board.commit.applied = s.board.commit.applied ∧
      Sends [.ringIrq 3] s t ∧ ∃ b ∈ commitFaults s, (∀ c ∈ commitFaults s, b.off ≤ c.off) ∧
        t.board.commit.badOffset = b.off ∧ t.board.commit.reason = b.reason ∧
        Logs .cfgReject (winTile b.win) [b.off, b.reason] s t)) ∧
  (∀ (s : State), s.board.commit.state = 2 → s.board.commit.fromRing = false →
    Next .commitApplied s fun t => t.board.commit = { s.board.commit with
        state := 0, rejected := false, applied := s.board.commit.seq, snapshot := [], fromRing := false } ∧
      Out.ringIrq 3 ∈ t.outs ∧
      ∀ w i f, f.info.acc = .rs → (w = pkgWin ∨ tileUp s w = true) → f ≠ .glb_port_cfg_port_mode →
        f ≠ .bpm_bad_free_bad_frees → t.fld w i f = valOf s.board.commit.snapshot w i f) ∧
  (∀ (s : State), s.board.commit.state ≠ 2 → Next .commitApplied s fun t => t = s) ∧
  (∀ (s : State), sidebandOn s = true →
    (Next .miCommandHealth s fun t => t = { s with outs := t.outs } ∧
      ∃ u, Sends [.miHealth (s.island.pkg != 2 || !s.plp.started) (composite s) s.health.crit u] s t ∧
        ((∀ g ∈ s.reg.egs, percentUsed s g ≤ u) ∧ (s.reg.egs = [] → u = 0))) ∧
    Next .miCommandStatic s fun t => t = { s with outs := t.outs } ∧ ∃ v, Sends [.miStatic v s.ident.serial] s t) ∧
  (∀ (s : State), sidebandOn s = false →
    (Next .miCommandHealth s fun t => t = s) ∧ Next .miCommandStatic s fun t => t = s)

/-- R42 to R45, R48, R60 to R63, R94, R526: host links, the reconfiguration of a port and the frames answered in hardware. It
rests on the log's entry 14, the model's own. -/
def Obligations.HostPorts : Prop :=
  (∀ (t p rate width : Nat) (narrow : Bool) (k : Port) (s : State), findPort s t = some k →
    linkMayRise s t p rate width = true →
    let slow := narrow || (isPcie k.mode && (rate != 6 || width != (if k.mode == 5 then 8 else 4)))
    Next (.hostLinkUp t p rate width narrow) s fun u => OnlyHostSide s u ∧
      (∀ x q, x ∈ portLanes s t k.mode → findPort s x = some q → findPort u x = some { q with
        linkUp := q.linkUp ++ [p], recon := 0, narrow := q.narrow ++ (if slow then [p] else []),
        pcieRate := if isPcie k.mode then rate else 0, pcieWidth := if isPcie k.mode then lanesOn t x width else 0 }) ∧
      ∀ x, x ∉ portLanes s t k.mode → findPort u x = findPort s x) ∧
  (∀ (t p rate width : Nat) (narrow : Bool) (s : State), linkMayRise s t p rate width = false →
    Next (.hostLinkUp t p rate width narrow) s fun u => u = s) ∧
  (∀ (t p : Nat) (k : Port) (s : State), findPort s t = some k → p ∈ k.linkUp → isPcie k.mode = false →
    Next (.hostLinkDown t p) s fun u => OnlyHostSide s u ∧ findPort u t = some (dropLink p k) ∧
      u.host.conns = s.host.conns ∧ ∀ x, x ≠ t → findPort u x = findPort s x) ∧
  (∀ (t p : Nat) (k : Port) (s : State), findPort s t = some k → p ∈ k.linkUp → isPcie k.mode = true →
    (k.mode = 5 → t < partnerOf s t) →
    Next (.hostLinkDown t p) s fun u => OnlyHostSide s u ∧
      (∀ x q, x ∈ portLanes s t k.mode → findPort s x = some q → findPort u x = some (dropLink p q)) ∧
      ∀ c, c ∈ u.host.ctrls → onEndpoint t c = false) ∧
  (∀ (t : Nat) (k : Port) (s : State), findPort s t = some k → k.recon = 2 →
    ((∀ c, c ∈ s.host.cmds → drains s t c = false) ∨ k.reconAt + 1000 * s.tfld t .glb_port_cfg_drain_time ≤ s.nowMs) →
    Next (.portDrainEnd t) s fun u => OnlyHostSide s u ∧ findPort u t = some { k with
        recon := 3, reconAt := s.nowMs, linkUp := [], narrow := [], pcieRate := 0, pcieWidth := 0, paused := [],
        allPaused := [] } ∧
      (∀ c, c ∈ u.host.ctrls → c.tile ≠ t) ∧ (∀ c, c ∈ u.host.conns → c.tile ≠ t) ∧
      Logs .portReconfig t [k.mode, s.tfld t .glb_port_cfg_port_mode] s u) ∧
  (∀ (t : Nat) (k : Port) (s : State), findPort s t = some k → k.recon = 2 → (∃ c, c ∈ s.host.cmds ∧ drains s t c = true) →
    s.nowMs < k.reconAt + 1000 * s.tfld t .glb_port_cfg_drain_time → Next (.portDrainEnd t) s fun u => u = s) ∧
  (∀ (t : Nat) (k : Port) (s : State), findPort s t = some k → k.recon = 3 → k.reconAt + 1 ≤ s.nowMs →
    let mode := s.tfld t .glb_port_cfg_port_mode
    let trains := isPcie mode || (List.range (ethPorts mode)).any fun p => s.fld t p .glb_mac_mac != 0
    Next (.laneRestart t) s fun u => findPort u t = some { k with mode := mode, recon := if trains then 5 else 0 } ∧
      u.wr = s.wr ∧ u.map = s.map ∧ u.media = s.media ∧ u.red = s.red ∧ ∀ x, x ≠ t → findPort u x = findPort s x) ∧
  (∀ (t : Nat) (k : Port) (s : State), findPort s t = some k → k.recon ≠ 3 ∨ s.nowMs < k.reconAt + 1 →
    Next (.laneRestart t) s fun u => u = s) ∧
  (∀ (t p vlan : Nat) (target data : Bytes) (s : State),
    ((portUp s t p = true ∧ ∃ n, n ∈ s.reg.netifs ∧ n.tile = t ∧ n.port = p ∧ n.vlan = vlan ∧ n.has target = true) →
      (Next (.neighbourResolutionRequest t p vlan target) s fun u =>
        u = { s with outs := u.outs } ∧ Sends [.neighbourReply t p vlan target (s.fld t p .glb_mac_mac)] s u) ∧
      Next (.echoRequest t p vlan target data) s fun u =>
        u = { s with outs := u.outs } ∧ Sends [.echoReply t p vlan target data] s u) ∧
    (portUp s t p = false →
      (Next (.neighbourResolutionRequest t p vlan target) s fun u => u = s) ∧
      (Next (.echoRequest t p vlan target data) s fun u => u = s) ∧
      ∀ prio quanta, Next (.priorityPauseFrame t p prio quanta) s fun u => u = s)) ∧
  (∀ (t p i quanta : Nat) (k : Port) (s : State), findPort s t = some k → portUp s t p = true → i ≤ 7 →
    (Next (.priorityPauseFrame t p (some i) quanta) s fun u => ∃ q, findPort u t = some q ∧
      u = { s with host := { s.host with ports := u.host.ports }, outs := u.outs, heldOuts := u.heldOuts } ∧
      u.heldOuts = s.heldOuts.filter (fun h => portPaused u h.tile h.port h.prio) ∧
      Sends ((s.heldOuts.filter fun h => !portPaused u h.tile h.port h.prio).map (·.out)) s u ∧ ((p, i) ∈ q.paused ↔ quanta ≠ 0) ∧
      (∀ x, x ≠ (p, i) → (x ∈ q.paused ↔ x ∈ k.paused)) ∧ q = { k with paused := q.paused } ∧
      ∀ x, x ≠ t → findPort u x = findPort s x) ∧
    Next (.priorityPauseFrame t p none quanta) s fun u => ∃ q, findPort u t = some q ∧
      u = { s with host := { s.host with ports := u.host.ports }, outs := u.outs, heldOuts := u.heldOuts } ∧
      u.heldOuts = s.heldOuts.filter (fun h => portPaused u h.tile h.port h.prio) ∧
      Sends ((s.heldOuts.filter fun h => !portPaused u h.tile h.port h.prio).map (·.out)) s u ∧ (p ∈ q.allPaused ↔ quanta ≠ 0) ∧
      (∀ x, x ≠ p → (x ∈ q.allPaused ↔ x ∈ k.allPaused)) ∧ q = { k with allPaused := q.allPaused } ∧
      ∀ x, x ≠ t → findPort u x = findPort s x)

/-- R46 to R48, R55 to R58, R62, R71, R94, R97, R105, R526: connections of a host port, from the request to the close. It rests on
the log's entries 11, 12, 16, the model's own. -/
def Obligations.HostConnections : Prop :=
  (∀ (t p i dport mtu hpda : Nat) (hd dd : Bool) (n : NetIf) (s : State), portUp s t p = true → findIf s t p i = some n →
    (s.tfld t .qe_cfg_qe_enable ≠ 0 → n.takesIo dport = true →
      Next (.tcpConnectionRequest t p i ⟨dport, hd, dd, hpda⟩) s fun u =>
        u = openConn { newConn s n .tcp false with hdgst := hd, ddgst := dd, hpda := hpda } s) ∧
    (s.tfld t .qe_cfg_qe_enable ≠ 0 → n.takesIo dport = false → n.takesDisc dport = true →
      Next (.tcpConnectionRequest t p i ⟨dport, hd, dd, hpda⟩) s fun u =>
        u = openConn { newConn s n .tcp true with hdgst := hd, ddgst := dd, hpda := hpda } s) ∧
    (s.tfld t .qe_cfg_qe_enable = 0 ∨ (n.takesIo dport = false ∧ n.takesDisc dport = false) →
      Next (.tcpConnectionRequest t p i ⟨dport, hd, dd, hpda⟩) s fun u => u = emit (.connRefused t p i) s) ∧
    (s.tfld t .qe_cfg_qe_enable ≠ 0 → bitOf n.flags 4 = true → mtu ∈ [1024, 2048, 4096] →
      Next (.rdmaConnectionRequest t p ⟨i, mtu⟩) s fun u => u = openConn { newConn s n .rdma false with mtu := mtu } s) ∧
    (s.tfld t .qe_cfg_qe_enable = 0 ∨ bitOf n.flags 4 = false ∨ mtu ∉ [1024, 2048, 4096] →
      Next (.rdmaConnectionRequest t p ⟨i, mtu⟩) s fun u => u = emit (.connRefused t p i) s)) ∧
  (∀ (k : Conn) (s : State), k.id = s.host.nextConn → (∀ c ∈ s.host.conns, c.id ≠ k.id) →
    openConn k s = { s with host := { s.host with conns := s.host.conns ++ [k], nextConn := s.host.nextConn + 1 },
                            outs := (openConn k s).outs } ∧
    Sends [.connAccepted k.id k.tile k.port k.iface] s (openConn k s) ∧ findConn (openConn k s) k.id = some k) ∧
  (∀ (t p i dport mtu hpda : Nat) (hd dd : Bool) (s : State), portUp s t p = false ∨ findIf s t p i = none →
    (Next (.tcpConnectionRequest t p i ⟨dport, hd, dd, hpda⟩) s fun u => u = s) ∧
    Next (.rdmaConnectionRequest t p ⟨i, mtu⟩) s fun u => u = s) ∧
  (∀ (id : Nat) (d : ConnectData) (k : Conn) (s : State), liveConn s id = some k → AdmRuns .queueEngine (.conn id) s →
    (k.bound = true ∨ s.tfld k.tile .qe_cfg_qe_enable = 0 →
      Next (.fabricsConnect id d) s fun u => u = passTurn (.conn id) s) ∧
    (k.bound = false → s.tfld k.tile .qe_cfg_qe_enable ≠ 0 →
      (reconfiguring s k.tile = true → Next (.fabricsConnect id d) s fun u =>
        u = passTurn (.conn id) (emit (.connectFailed id .controllerBusy .none) s)) ∧
      (reconfiguring s k.tile = false →
        (k.discovery = true → Next (.fabricsConnect id d) s fun u =>
          u = passTurn (.conn id) (emit (.connected id 0) (bindConn id 0 0 d.hostNqn s))) ∧
        (k.discovery = false → d.qid = 0 → d.sqsize ≤ 31 →
          let prov := designated s (.nqn d.hostNqn) k.tile
          (prov = false → identTenant s (.nqn d.hostNqn) = none → Next (.fabricsConnect id d) s fun u =>
            u = passTurn (.conn id) (emit (.connectFailed id .connectInvalidHost .none) s)) ∧
          (prov = true → providerExists s = true → Next (.fabricsConnect id d) s fun u =>
            u = passTurn (.conn id) (emit (.connectFailed id .controllerBusy .none) s)) ∧
          (∀ cid, (prov = true → providerExists s = false) → (prov = false → (identTenant s (.nqn d.hostNqn)).isSome = true) →
            freeCntlid s k.tile = some cid → qpFree s k.tile ≠ 0 → Next (.fabricsConnect id d) s fun u =>
              u = passTurn (.conn id) (emit (.connected id cid) (bindConn id cid 0 d.hostNqn { s with host := { s.host with
                ctrls := s.host.ctrls ++ [newCtrl s cid k.tile (.nqn d.hostNqn) prov d.kato], nextInc := s.host.nextInc + 1,
                sqs := s.host.sqs ++ [adminSq cid k.tile 0 (d.sqsize + 1) k.transport],
                cqs := s.host.cqs ++ [adminCq cid 0 (d.sqsize + 1)] } }))) ∧
          (freeCntlid s k.tile = none ∨ qpFree s k.tile = 0 → (prov = true → providerExists s = false) →
            (prov = false → (identTenant s (.nqn d.hostNqn)).isSome = true) → Next (.fabricsConnect id d) s fun u =>
              u = passTurn (.conn id) (emit (.connectFailed id .controllerBusy .none) s))) ∧
        (k.discovery = false → d.qid = 0 → 31 < d.sqsize → Next (.fabricsConnect id d) s fun u =>
          u = passTurn (.conn id) (emit (.connectFailed id .connectInvalidParameters .sqsize) s)) ∧
        (∀ c, k.discovery = false → d.qid ≠ 0 → findCtrl s d.cntlid = some c → c.ident = .nqn d.hostNqn → c.tile = k.tile →
          (d.qid ≤ c.grant.getD 0 → findSq s d.cntlid d.qid = none →
            (d.sqsize ≤ 1023 → Next (.fabricsConnect id d) s fun u =>
              u = passTurn (.conn id) (emit (.connected id d.cntlid) (bindConn id d.cntlid d.qid d.hostNqn
                { s with host := { s.host with
                  sqs := s.host.sqs ++ [ioSq d.cntlid d.qid k.tile 0 (d.sqsize + 1) d.qid 2
                    (s.tfld k.tile .qe_cfg_freeze_default == 1) k.transport],
                  cqs := s.host.cqs ++ [ioCq d.cntlid d.qid 0 (d.sqsize + 1) 0 false] } }))) ∧
            (1023 < d.sqsize → Next (.fabricsConnect id d) s fun u =>
              u = passTurn (.conn id) (emit (.connectFailed id .connectInvalidParameters .sqsize) s))) ∧
          (c.grant.getD 0 < d.qid → Next (.fabricsConnect id d) s fun u =>
            u = passTurn (.conn id) (emit (.connectFailed id .connectInvalidParameters .qid) s)))))) ∧
  (∀ (id cntlid sqid : Nat) (n : Bytes) (k : Conn) (s : State), findConn s id = some k →
    findConn (bindConn id cntlid sqid n s) id = some { k with bound := true, cntlid := cntlid, sqid := sqid, nqn := n } ∧
    ∀ x, x ≠ id → findConn (bindConn id cntlid sqid n s) x = findConn s x) ∧
  (∀ (id : Nat) (d : ConnectData) (s : State), liveConn s id = none → AdmRuns .queueEngine (.conn id) s →
    Next (.fabricsConnect id d) s fun u => u = passTurn (.conn id) s) ∧
  (∀ (id : Nat) (k : Conn) (s : State), findConn s id = some k →
    Next (.transportConnectionClosed id) s fun u => OnlyHostSide s u ∧ findConn u id = none ∧
      (k.bound = true → k.discovery = false → k.sqid = 0 → findCtrl u k.cntlid = none ∧
        ∀ c, c ∈ u.host.cmds → c.cntlid = k.cntlid → c.discard = true) ∧
      (k.bound = true → k.discovery = false → k.sqid ≠ 0 → findSq u k.cntlid k.sqid = none ∧
        findCq u k.cntlid k.sqid = none ∧ u.host.ctrls = s.host.ctrls ∧
        ∀ c, c ∈ u.host.cmds → c.cntlid = k.cntlid → c.sqid = k.sqid → c.discard = true) ∧
      (k.bound = false ∨ k.discovery = true →
        u = { s with host := { s.host with conns := s.host.conns.filter fun c => c.id != id } })) ∧
  (∀ (id : Nat) (s : State), findConn s id = none → Next (.transportConnectionClosed id) s fun u => u = s)

/-- R44, R46, R47, R64, R66, R68: capsules and host data. It rests on the log's entry 15, the model's own. -/
def Obligations.CapsulesAndHostData : Prop :=
  (∀ (id : Nat) (cap : Capsule) (k : Conn) (q : Sq) (s : State), liveConn s id = some k → k.bound = true →
    k.discovery = false → findSq s k.cntlid k.sqid = some q →
    (badHeader k cap = false → 64 ≤ cap.bytes → q.recv.length < q.size →
      Next (.capsuleReceived id cap) s fun u => u = { s with host := { s.host with sqs := u.host.sqs }, outs := u.outs } ∧
        findSq u k.cntlid k.sqid = some { q with recv := q.recv ++ [arrivalOf s k cap] } ∧
        (cap.ce = true → Out.congestion id ∈ u.outs)) ∧
    (badHeader k cap = true ∨ cap.bytes < 64 ∨ q.size ≤ q.recv.length →
      Next (.capsuleReceived id cap) s fun u => OnlyHostSide s u ∧
        (k.transport = .rdma → Out.qpError k.id ∈ u.outs) ∧ (k.transport ≠ .rdma → Out.terminate k.id ∈ u.outs) ∧
        Out.connClosed k.id ∈ u.outs ∧ (k.sqid = 0 → findCtrl u k.cntlid = none) ∧
        (k.sqid ≠ 0 → findSq u k.cntlid k.sqid = none))) ∧
  (∀ (id : Nat) (cap : Capsule) (s : State), liveConn s id = none → Next (.capsuleReceived id cap) s fun u => u = s) ∧
  (∀ (id : Nat) (cap : Capsule) (k : Conn) (s : State), liveConn s id = some k → k.bound = false ∨ k.discovery = true →
    Next (.capsuleReceived id cap) s fun u => u = if cap.ce then emit (.congestion id) s else s) ∧
  (∀ (conn cmd off : Nat) (d : Bytes) (h dd : Bool) (k : Conn) (c : Cmd) (s : State), liveConn s conn = some k →
    findCmd s cmd = some c → c.cntlid = k.cntlid → c.sqid = k.sqid → c.phase = .dataFetch → c.id = cmd →
    (k.hdgst = false ∨ h = true → cmd ∉ k.failed → off = c.data.length → d.length ≤ 131072 →
      (k.ddgst = false ∨ dd = true → off + d.length < dataLen c.cap →
        Next (.h2cdataPdu conn cmd off d h dd) s fun u => u = { s with host := { s.host with cmds := u.host.cmds } } ∧
          findCmd u cmd = some { c with data := c.data ++ d }) ∧
      (k.ddgst = false ∨ dd = true → off + d.length = dataLen c.cap →
        Next (.h2cdataPdu conn cmd off d h dd) s fun u =>
          u = askNext c.cntlid c.sqid (dataReady cmd (updCmd cmd (fun c => { c with data := c.data ++ d }) s))) ∧
      (k.ddgst = true → dd = false → off + d.length ≤ dataLen c.cap →
        Next (.h2cdataPdu conn cmd off d h dd) s fun u => u = pump (finishCmd cmd .transientTransportError 0
          (updConn conn (fun k => { k with failed := k.failed ++ [cmd] }) s)))) ∧
    (k.hdgst = false ∨ h = true → cmd ∈ k.failed → Next (.h2cdataPdu conn cmd off d h dd) s fun u => u = s) ∧
    ((k.hdgst = true ∧ h = false) ∨
        (cmd ∉ k.failed ∧ (off ≠ c.data.length ∨ dataLen c.cap < off + d.length ∨ 131072 < d.length)) →
      Next (.h2cdataPdu conn cmd off d h dd) s fun u => OnlyHostSide s u ∧ Out.connClosed k.id ∈ u.outs)) ∧
  (∀ (conn cmd off : Nat) (d : Bytes) (h dd : Bool) (s : State), liveConn s conn = none →
    Next (.h2cdataPdu conn cmd off d h dd) s fun u => u = s) ∧
  (∀ (cmd : Nat) (d : Bytes) (k : Conn) (c : Cmd) (s : State), findCmd s cmd = some c → c.id = cmd → c.phase = .dataFetch →
    connOf s c = some k →
    (c.data.length + d.length < dataLen c.cap →
      Next (.rdmaReadCompletion cmd true d) s fun u => u = { s with host := { s.host with cmds := u.host.cmds } } ∧
        findCmd u cmd = some { c with data := c.data ++ d }) ∧
    (c.data.length + d.length = dataLen c.cap →
      Next (.rdmaReadCompletion cmd true d) s fun u =>
        u = askNext c.cntlid c.sqid (dataReady cmd (updCmd cmd (fun c => { c with data := c.data ++ d }) s))) ∧
    (Next (.rdmaReadCompletion cmd false d) s fun u => OnlyHostSide s u ∧
        (k.transport = .rdma → Out.qpError k.id ∈ u.outs) ∧ Out.connClosed k.id ∈ u.outs)) ∧
  (∀ (cmd : Nat) (d : Bytes) (r : HostRead) (c : Cmd) (s : State), findCmd s cmd = some c → c.id = cmd → c.phase = .dataFetch →
    (c.data.length + d.length < dataLen c.cap →
      Next (.hostMemoryReadCompletion cmd (.data d)) s fun u => u = { s with host := { s.host with cmds := u.host.cmds } } ∧
        findCmd u cmd = some { c with data := c.data ++ d }) ∧
    (c.data.length + d.length = dataLen c.cap →
      Next (.hostMemoryReadCompletion cmd (.data d)) s fun u =>
        u = askNext c.cntlid c.sqid (dataReady cmd (updCmd cmd (fun c => { c with data := c.data ++ d }) s))) ∧
    ((∀ x, r ≠ .data x) →
      Next (.hostMemoryReadCompletion cmd r) s fun u => u = pump (finishCmd cmd .transientTransportError 0
        (bump c.tile .glb_dma_errors_host_mem (emit (.aer c.tile) s))))) ∧
  (∀ (cmd : Nat) (ok : Bool) (d : Bytes) (r : HostRead) (s : State),
    (∀ c, findCmd s cmd = some c → c.phase ≠ .dataFetch) →
    (Next (.rdmaReadCompletion cmd ok d) s fun u => u = s) ∧ Next (.hostMemoryReadCompletion cmd r) s fun u => u = s)

/-- R43, R51, R55, R57, R58, R71, R94, R95, R105: the life of a controller, over PCIe and over fabrics. It rests on the log's
entries 12, 13, the model's own. -/
def Obligations.ControllerLife : Prop :=
  (∀ (e fn asqs acqs asq acq id : Nat) (cc : CcFields) (p : Port) (s : State), findPort s e = some p →
    (p.mode = 4 ∨ (p.mode = 5 ∧ e < partnerOf s e)) → p.linkUp ≠ [] → fn ≤ 63 → cc.ams ≤ 1 → cc.en = true →
    s.tfld e .qe_cfg_qe_enable ≠ 0 → p.recon = 0 → (∀ c, c ∈ s.host.ctrls → c.ident ≠ .function e fn) →
    (freeCntlid s e = some id → qpFree s e ≠ 0 → Next (.controllerEnable e fn ⟨asqs, acqs, asq, acq⟩ cc) s fun u =>
      u = { s with host := { s.host with
        ctrls := s.host.ctrls ++ [{ newCtrl s id e (.function e fn) (designated s (.function e fn) e && !providerExists s) 0
          with enabled := true, ready := true, ams := cc.ams }], nextInc := s.host.nextInc + 1,
        sqs := s.host.sqs ++ [adminSq id e asq (min (asqs + 1) 256) .pcie],
        cqs := s.host.cqs ++ [adminCq id acq (min (acqs + 1) 256)] } }) ∧
    (freeCntlid s e = none ∨ qpFree s e = 0 → Next (.controllerEnable e fn ⟨asqs, acqs, asq, acq⟩ cc) s fun u => u = s)) ∧
  (∀ (e fn asqs acqs asq acq : Nat) (cc : CcFields) (p : Port) (c : Ctrl) (s : State), findPort s e = some p →
    (p.mode = 4 ∨ (p.mode = 5 ∧ e < partnerOf s e)) → p.linkUp ≠ [] → fn ≤ 63 → cc.ams ≤ 1 → cc.en = true →
    s.tfld e .qe_cfg_qe_enable ≠ 0 → p.recon = 0 → (s.host.ctrls.find? fun c => c.ident == .function e fn) = some c →
    findCtrl s c.cntlid = some c → c.enabled = false → Next (.controllerEnable e fn ⟨asqs, acqs, asq, acq⟩ cc) s fun u =>
      u = { s with host := { s.host with ctrls := u.host.ctrls, sqs := u.host.sqs, cqs := u.host.cqs } } ∧
      findCtrl u c.cntlid = some { c with
        enabled := true, ready := true, ams := cc.ams, provider := c.provider || (designated s c.ident e && !providerExists s),
        orderMode := s.tfld e .qe_cfg_default_order_mode } ∧ (∀ j, j ≠ c.cntlid → findCtrl u j = findCtrl s j) ∧
      (∀ q, findSq s c.cntlid 0 = some q → findSq u c.cntlid 0 = some { q with base := asq, size := min (asqs + 1) 256 }) ∧
      (∀ q, findCq s c.cntlid 0 = some q → findCq u c.cntlid 0 = some { q with base := acq, size := min (acqs + 1) 256 }) ∧
      ∀ j n, j ≠ c.cntlid ∨ n ≠ 0 → findSq u j n = findSq s j n ∧ findCq u j n = findCq s j n) ∧
  (∀ (e fn asqs acqs asq acq : Nat) (cc : CcFields) (s : State), 1 < cc.ams ∨ cc.en = false ∨ s.tfld e .qe_cfg_qe_enable = 0 ∨ 63 < fn →
    Next (.controllerEnable e fn ⟨asqs, acqs, asq, acq⟩ cc) s fun u => u = s) ∧
  (∀ (id : Nat) (c : Ctrl) (s : State), findCtrl s id = some c →
    (c.enabled = true → Next (.controllerReset id) s fun u =>
      OnlyHostSide s u ∧ findCtrl u id = some { c with
        enabled := false, ready := false, grant := none, shst := 0, shutting := false, aers := [], aens := [], deficits := [],
        arbBurst := Config.resetArbBurst, arbWeights := (7, 3, 1), coalesce := (0, 0), noCoalesce := [] } ∧
      (∀ q, q ∈ u.host.sqs → q.cntlid = id → q.sqid = 0 ∧ q.head = 0 ∧ q.tail = 0 ∧ q.recv = []) ∧
      (∀ q, q ∈ u.host.cqs → q.cntlid = id → q.cqid = 0 ∧ q.head = 0 ∧ q.tail = 0 ∧ q.reserved = 0) ∧
      (∀ k, k ∈ u.host.cmds → k.cntlid = id → k.discard = true) ∧
      (∀ k, k ∈ s.host.cmds → k.cntlid = id → survivesReset k = true → parkedAer s k = false →
        (∀ x, x ∈ s.heldAdmin → heldCmd x ≠ some k.id) →
        (∀ j, j ∈ s.host.cmds → j.id = k.id → j = k) → { k with discard := true } ∈ u.host.cmds) ∧
      (∀ j, j ≠ id → findCtrl u j = findCtrl s j ∧ ∀ n, findSq u j n = findSq s j n ∧ findCq u j n = findCq s j n) ∧
      (∀ k, k ∈ u.host.conns → k.bound = true → k.cntlid = id → k.sqid = 0) ∧
      (∀ k, k ∈ s.host.conns → (∀ j, j ∈ s.host.conns → j.id = k.id → ¬(j.bound = true ∧ j.cntlid = id ∧ j.sqid ≠ 0)) →
        k ∈ u.host.conns) ∧ u.host.ports = s.host.ports) ∧
    (c.enabled = false → Next (.controllerReset id) s fun u => u = s)) ∧
  (∀ (id : Nat) (abrupt : Bool) (c : Ctrl) (s : State), findCtrl s id = some c →
    (c.enabled = true → Next (.shutdown id abrupt) s fun u => u = { s with host := { s.host with ctrls := u.host.ctrls } } ∧
      (∀ j, j ≠ id → findCtrl u j = findCtrl s j) ∧
      ((∀ k, k ∈ s.host.cmds → k.cntlid ≠ id) → findCtrl u id = some { c with shutting := true, shst := 2 }) ∧
      ((∃ k, k ∈ s.host.cmds ∧ k.cntlid = id ∧ ∀ x, x ∈ s.host.ctrls → x.cntlid = id → k.id ∉ x.aers) →
        findCtrl u id = some { c with shutting := true, shst := 1 })) ∧
    (c.enabled = false → Next (.shutdown id abrupt) s fun u => u = s)) ∧
  (∀ (id : Nat) (abrupt : Bool) (s : State), findCtrl s id = none →
    (Next (.controllerReset id) s fun u => u = s) ∧ (Next (.shutdown id abrupt) s fun u => u = s) ∧
    Next (.keepAliveExpiry id) s fun u => u = s) ∧
  (∀ (e fn : Nat) (s : State), Next (.functionLevelReset e fn) s fun u => OnlyHostSide s u ∧
    u.host.ports = s.host.ports ∧ (∀ c, c ∈ u.host.ctrls ↔ c ∈ s.host.ctrls ∧
      ∀ k, k ∈ s.host.ctrls → k.ident = .function e fn → k.cntlid ≠ c.cntlid) ∧
    (∀ k q, k ∈ s.host.ctrls → k.ident = .function e fn → q ∈ u.host.sqs → q.cntlid ≠ k.cntlid) ∧
    ∀ k c, k ∈ s.host.ctrls → k.ident = .function e fn → c ∈ u.host.cmds → c.cntlid = k.cntlid → c.discard = true) ∧
  (∀ (e : Nat) (s : State), Next (.conventionalReset e) s fun u => OnlyHostSide s u ∧
    u.host.ports = s.host.ports ∧ (∀ c, c ∈ u.host.ctrls ↔ c ∈ s.host.ctrls ∧
      ∀ k, k ∈ s.host.ctrls → onEndpoint e k = true → k.cntlid ≠ c.cntlid) ∧
    (∀ k q, k ∈ s.host.ctrls → onEndpoint e k = true → q ∈ u.host.sqs → q.cntlid ≠ k.cntlid) ∧
    ∀ k c, k ∈ s.host.ctrls → onEndpoint e k = true → c ∈ u.host.cmds → c.cntlid = k.cntlid → c.discard = true) ∧
  (∀ (id : Nat) (n : Bytes) (c : Ctrl) (s : State), findCtrl s id = some c → c.ident = .nqn n →
    (c.kaDeadline ≤ s.nowMs → Next (.keepAliveExpiry id) s fun u => OnlyHostSide s u ∧ findCtrl u id = none ∧
      (∀ k, k ∈ u.host.conns → k.bound = true → k.cntlid ≠ id) ∧ (∀ q, q ∈ u.host.sqs → q.cntlid ≠ id) ∧
      ∀ k, k ∈ u.host.cmds → k.cntlid = id → k.discard = true) ∧
    (s.nowMs < c.kaDeadline → Next (.keepAliveExpiry id) s fun u => u = s))

/-- R53, R57, R71, R94, R95: the fabrics commands of a live association. It rests on the log's entries 10, 13, the model's own. -/
def Obligations.FabricsCommands : Prop :=
  (∀ (a : Adm) (n : Bytes) (c : Ctrl) (s : State), AdmRuns .queueEngine a s → admCtrl s a = some c → c.ident = .nqn n →
    (Next (.propertyGet a 0) s fun u => u = passTurn a (admAnswer a [(0, 8, capValue)] s)) ∧
    (Next (.propertyGet a 8) s fun u => u = passTurn a (admAnswer a [(0, 4, 0x00020100)] s)) ∧
    (Next (.propertyGet a 0x14) s fun u => u = passTurn a (admAnswer a [(0, 4, ccValue c)] s)) ∧
    (Next (.propertyGet a 0x1C) s fun u => u = passTurn a (admAnswer a [(0, 4, cstsValue c)] s)) ∧
    (∀ off, off ≠ 0 → off ≠ 8 → off ≠ 0x14 → off ≠ 0x1C →
      Next (.propertyGet a off) s fun u => u = passTurn a (admDone a .invalidField 0 s)) ∧
    (∀ off v, off ≠ 0x14 ∨ 1 < bitsOf v 13 11 → Next (.propertySet a off v) s fun u => u = passTurn a (admDone a .invalidField 0 s)) ∧
    (∀ v, bitsOf v 13 11 ≤ 1 → findCtrl s c.cntlid = some c →
      (bitOf v 0 = true → c.enabled = false → Next (.propertySet a 0x14 v) s fun u =>
        u = passTurn a (updCtrl c.cntlid (fun c => { c with enabled := true, ready := true, ams := bitsOf v 13 11 })
          (admDone a .success 0 s))) ∧
      (bitOf v 0 = false → c.enabled = true → Next (.propertySet a 0x14 v) s fun u =>
        u = passTurn a (resetCtrl c.cntlid (admDone a .success 0 s))) ∧
      (bitOf v 0 = true → c.enabled = true → bitsOf v 15 14 ≠ 0 → Next (.propertySet a 0x14 v) s fun u =>
        u = passTurn a (shutdownDone c.cntlid (updCtrl c.cntlid (fun c => { c with shutting := true, shst := 1 })
          (admDone a .success 0 s)))) ∧
      (bitOf v 0 = c.enabled → bitOf v 0 = false ∨ bitsOf v 15 14 = 0 → Next (.propertySet a 0x14 v) s fun u =>
        u = passTurn a (admDone a .success 0 s))) ∧
    (∀ qid q, findSq s c.cntlid qid = some q → Next (.disconnect a qid) s fun u =>
      u = passTurn a (endQueue c.cntlid qid (admDone a .success 0 s)) ∧ findSq u c.cntlid qid = none ∧
      (qid = 0 → findCtrl u c.cntlid = none)) ∧
    (∀ qid, findSq s c.cntlid qid = none → Next (.disconnect a qid) s fun u => u = passTurn a (admDone a .invalidField 0 s))) ∧
  (∀ (a : Adm) (n : Bytes) (c : Ctrl) (s : State), AdmRuns .atOnce a s → admCtrl s a = some c → c.ident = .nqn n →
    Next (.keepAlive a) s fun u =>
      u = passTurn a (admDone a .success 0 (updCtrl c.cntlid (fun c => { c with kaDeadline := s.nowMs + c.kato }) s))) ∧
  (∀ (a : Adm) (s : State), AdmRuns .queueEngine a s →
    (admCtrl s a = none ∨ ∃ c e f, admCtrl s a = some c ∧ c.ident = .function e f) →
    (∀ off v, (Next (.propertyGet a off) s fun u => u = passTurn a (admDone a .invalidOpcode 0 s)) ∧
      Next (.propertySet a off v) s fun u => u = passTurn a (admDone a .invalidOpcode 0 s)) ∧
    ∀ qid, Next (.disconnect a qid) s fun u => u = passTurn a (admDone a .invalidOpcode 0 s))

/-- R67 to R69: the doorbells of PCIe queues and the aggregation of interrupts. It rests on the log's entry 21, the model's own.
-/
def Obligations.QueueDoorbells : Prop :=
  (∀ (cntlid sqid v : Nat) (q : Sq) (s : State), findSq s cntlid sqid = some q → q.transport = .pcie →
    (v < q.size → Next (.submissionQueueTailDoorbell cntlid sqid v) s fun u =>
      u = { s with host := { s.host with sqs := u.host.sqs } } ∧ findSq u cntlid sqid = some { q with tail := v } ∧
      ∀ j n, j ≠ cntlid ∨ n ≠ sqid → findSq u j n = findSq s j n) ∧
    (q.size ≤ v → Next (.submissionQueueTailDoorbell cntlid sqid v) s fun u => u = raiseAen cntlid 0 1 s)) ∧
  (∀ (cntlid sqid v : Nat) (s : State), (∀ q, findSq s cntlid sqid = some q → q.transport ≠ .pcie) →
    Next (.submissionQueueTailDoorbell cntlid sqid v) s fun u => u = raiseAen cntlid 0 0 s) ∧
  (∀ (cntlid cqid v : Nat) (q : Cq) (s : State), findCq s cntlid cqid = some q →
    (v < q.size → Next (.completionQueueHeadDoorbell cntlid cqid v) s fun u =>
      u = { s with host := { s.host with cqs := u.host.cqs } } ∧ findCq u cntlid cqid = some { q with head := v } ∧
      ∀ j n, j ≠ cntlid ∨ n ≠ cqid → findCq u j n = findCq s j n) ∧
    (q.size ≤ v → Next (.completionQueueHeadDoorbell cntlid cqid v) s fun u => u = raiseAen cntlid 0 1 s)) ∧
  (∀ (cntlid cqid v : Nat) (s : State), findCq s cntlid cqid = none →
    Next (.completionQueueHeadDoorbell cntlid cqid v) s fun u => u = raiseAen cntlid 0 0 s) ∧
  (∀ (cntlid kind info : Nat) (c : Ctrl) (s : State), findCtrl s cntlid = some c →
    (c.aers = [] → (kind, info) ∉ c.aens → findCtrl (raiseAen cntlid kind info s) cntlid = some { c with
      aens := c.aens ++ [(kind, info)] }) ∧ OnlyHostSide s (raiseAen cntlid kind info s)) ∧
  (∀ (cntlid vector : Nat) (s : State),
    ((∃ p, p ∈ s.host.irqs ∧ p.cntlid = cntlid ∧ p.vector = vector) → Next (.interruptAggregationTime cntlid vector) s fun u =>
      u = { s with host := { s.host with irqs := u.host.irqs }, outs := u.outs } ∧ Sends [.hostIrq cntlid vector] s u ∧
      ∀ p, p ∈ u.host.irqs ↔ p ∈ s.host.irqs ∧ (p.cntlid ≠ cntlid ∨ p.vector ≠ vector)) ∧
    ((∀ p, p ∈ s.host.irqs → p.cntlid ≠ cntlid ∨ p.vector ≠ vector) →
      Next (.interruptAggregationTime cntlid vector) s fun u => u = s))

/-- R69 to R72, R78, R79: the arbitration by which a tile fetches its next command. It rests on the log's entry 17, the model's
own. -/
def Obligations.FetchArbitration : Prop :=
  (∀ (t : Nat) (entry : HostEntries) (s : State), s.tfld t .qe_cfg_qe_enable ≠ 0 →
    (∃ c, c ∈ s.host.ctrls ∧ c.discovery = false ∧ ctrlUrgent s entry t c = true) →
    Next (.commandFetch t entry) s fun u => ∃ c q k a, c ∈ s.host.ctrls ∧ c.discovery = false ∧ q ∈ s.host.sqs ∧
      q.cntlid = c.cntlid ∧ q.tile = t ∧ canFetch s entry q = true ∧ isUrgent c q = true ∧ headOf q entry = some k ∧
      ((∃ x, x ∈ s.host.sqs ∧ x.sqid = 0 ∧ x.cntlid = c.cntlid ∧ x.tile = t ∧ canFetch s entry x = true) → q.sqid = 0) ∧
      ((arbOf s t).burst ≠ 0 → (∃ x, x ∈ s.host.ctrls ∧ x.discovery = false ∧ x.cntlid = (arbOf s t).lastUrgent ∧
        ctrlUrgent s entry t x = true) → c.cntlid = (arbOf s t).lastUrgent) ∧
      a.tile = t ∧ a.lastUrgent = c.cntlid ∧ a.classCredit = (arbOf s t).classCredit ∧ a.lastCtrl = (arbOf s t).lastCtrl ∧
      u = takeFrom q entry c (setArb a s)) ∧
  (∀ (t : Nat) (entry : HostEntries) (s : State), s.tfld t .qe_cfg_qe_enable ≠ 0 →
    (∀ c, c ∈ s.host.ctrls → c.discovery = false → ctrlUrgent s entry t c = false) →
    (∃ c, c ∈ s.host.ctrls ∧ c.discovery = false ∧ ctrlPlain s entry t c = true) →
    let plain := fun (c : Ctrl) => !c.discovery && ctrlPlain s entry t c
    Next (.commandFetch t entry) s fun u => ∃ c q k a r, c ∈ s.host.ctrls ∧ plain c = true ∧ q ∈ s.host.sqs ∧
      q.cntlid = c.cntlid ∧ q.tile = t ∧ canFetch s entry q = true ∧ isUrgent c q = false ∧ headOf q entry = some k ∧
      (∃ b, pickPlainSq s entry (arbOf s t) t c = some (q, b)) ∧ r = roundsFor c t (unitsOf k) ∧ a.tile = t ∧ a.lastCtrl = c.cntlid ∧ a.burst = 0 ∧
      (∀ x y b k', x ∈ s.host.ctrls → plain x = true → pickPlainSq s entry (arbOf s t) t x = some (y, b) →
        headOf y entry = some k' → r ≤ roundsFor x t (unitsOf k')) ∧
      ∃ g d, g = { s with host := { s.host with ctrls := g.host.ctrls } } ∧ findCtrl g c.cntlid = some d ∧
        (findCtrl s c.cntlid = some c → d = setDeficit t (deficitOn c t + (r * c.share : Nat)) c) ∧
        u = takeFrom q entry d (setArb a g)) ∧
  (∀ (t : Nat) (entry : HostEntries) (s : State), s.tfld t .qe_cfg_qe_enable = 0 ∨
    (∀ q, q ∈ s.host.sqs → q.tile = t → canFetch s entry q = false) → Next (.commandFetch t entry) s fun u => u = s) ∧
  (∀ (q : Sq) (entry : HostEntries) (c : Ctrl) (s : State), findSq s q.cntlid q.sqid = some q →
    (∀ x l, q.recv = x :: l → takeFrom q entry c s = admitFetched s.host.nextCmd (fetchFrom q x c s)) ∧
    (q.transport = .pcie → q.recv = [] → q.head < q.size →
      let l := readEntries q entry
      l.length ≤ 8 ∧ (q.head ≤ q.tail → q.head + l.length ≤ q.tail) ∧ (q.tail < q.head → q.head + l.length ≤ q.size) ∧
      let s1 := readAhead entry q s
      s1 = { s with host := { s.host with sqs := s1.host.sqs } } ∧ findSq s1 q.cntlid q.sqid = some { q with
        recv := l.map fun k => { cap := k, waits := flushWaits s q.cntlid k }, head := (q.head + l.length) % q.size } ∧
      ∀ k m, l = k :: m → takeFrom q entry c s =
        admitFetched s.host.nextCmd (fetchFrom q { cap := k, waits := flushWaits s q.cntlid k } c s1)))

/-- R31, R72, R80 to R82, R102, R104: rate limits, urgent budgets, and the steps of a command whose tile is lost. It rests on the
log's entries 17, 88, the model's own. -/
def Obligations.LimitsAndReissue : Prop :=
  (∀ (t n : Nat) (k : Bool) (c : Cmd) (s : State), (holdList s t n).head? = some c → readKind c.cap.op = k →
    (∀ e, e ∈ holdList s t n → readKind e.cap.op = k) →
    (tokensAllow s t c.cap = true → Next (.heldCommandAdmit t n) s fun u =>
      u = takeTokens (updCmd c.id (fun c => { c with phase := .admitted, heldMs := s.nowMs - c.heldMs }) s) t c.cap ∧
      u = { s with host := { s.host with cmds := u.host.cmds, buckets := u.host.buckets } }) ∧
    (tokensAllow s t c.cap = false → Next (.heldCommandAdmit t n) s fun u => u = s)) ∧
  (∀ (t n : Nat) (s : State), holdList s t n = [] → Next (.heldCommandAdmit t n) s fun u => u = s) ∧
  (∀ (s : State), Next .rateInterval s fun u =>
    u = { s with reg := { s.reg with nss := s.reg.nss.map Ns.takeLimits },
                 host := { s.host with buckets := u.host.buckets, demand := s.host.demand.map fun d => { d with now := 0 } } } ∧
    (∀ b, b ∈ u.host.buckets ↔ ∃ n t k, n ∈ u.reg.nss ∧ t ∈ presentTiles s ∧ k < 4 ∧
      refillBucket { s with reg := u.reg } n t k = some b) ∧
    ∀ b, b ∈ u.host.buckets → b.tokens ≤ b.depth) ∧
  (∀ (s : State), Next .urgentBudgetInterval s fun u => u = { s with host := { s.host with ctrls := u.host.ctrls } } ∧
    ∀ id c, findCtrl s id = some c →
      (∀ x, identTenant s c.ident = some x → findCtrl u id = some { c with
        share := x.share, budget := x.budget, latency := x.latency, budgetLeft := x.budget }) ∧
      (identTenant s c.ident = none → findCtrl u id = some { c with budgetLeft := c.budget })) ∧
  (∀ (id : Nat) (r : Role) (c : Cmd) (s : State), findCmd s id = some c → c.lost.find? (roleRestored s c) = some r →
    Next (.stepReissue id) s fun u =>
      let s1 := updCmd id (fun c => { c with lost := c.lost.filter fun x => x != r }) s
      (r = .owner → u = serveMap (updCmd id (fun c => { c with
        pieces := c.pieces.map (fun p => if p.state = .queued then { p with state := .toLookup } else p),
        updates := c.updates.map fun v => if v.ownerOk then v else { v with applied := false, mirrored := false } }) s1)) ∧
      (r = .die → u = (c.pieces.filter fun p => p.state == .flash &&
          !s.media.ops.any fun o => o.kind == .read && o.cmd == c.id && o.lba == p.lba).foldl (fun s p => enqueueRead c p s) s1) ∧
      (r = .member ∨ r = .mirror → u = placeWaiting c.tile s1)) ∧
  (∀ (id at_ : Nat) (c : Cmd) (s : State), findCmd s id = some c → c.lostMs = some at_ →
    (at_ + 100 ≤ s.nowMs → c.phase ≠ .ended → Next (.commandInterruptTimeout id) s fun u =>
      u = pump (finishCmd id .commandInterrupted 0 (detachUpdates c (dropStaging c s)))) ∧
    (s.nowMs < at_ + 100 ∨ c.phase = .ended → Next (.commandInterruptTimeout id) s fun u => u = s)) ∧
  (∀ (id : Nat) (s : State),
    ((∀ c, findCmd s id = some c → ∀ r ∈ c.lost, roleRestored s c r = false) → Next (.stepReissue id) s fun u => u = s) ∧
    ((∀ c, findCmd s id = some c → c.lostMs = none) → Next (.commandInterruptTimeout id) s fun u => u = s))

/-- R43, R51, R53, R56, R66, R71, R90, R92, R96: creating and deleting queues, events, abort and thaw. It rests on the log's entry
21, the model's own. -/
def Obligations.QueueCommands : Prop :=
  (∀ (a : Adm) (sqid size base cqid qprio : Nat) (c : Ctrl) (s : State), AdmRuns .queueEngine a s → pcieIssuer s a = some c →
    let t := queueTile s c sqid
    let fits := sqid ≠ 0 ∧ sqid ≤ 128 ∧ findSq s c.cntlid sqid = none ∧ (c.grant.isSome = true → sqid ≤ c.grant.getD 0)
    (fits → size ≠ 0 → size ≤ 1023 → cqid ≠ 0 → (findCq s c.cntlid cqid).isSome = true →
      (((ioQueues s c.cntlid).filter fun q => q.tile == t).length < reservedOn s t c ∨ qpFree s t ≠ 0) →
      Next (.createIoSubmissionQueue a sqid ⟨size, base⟩ cqid qprio) s fun u => u = passTurn a (admDone a .success 0 { s with host := { s.host with
        sqs := s.host.sqs ++ [ioSq c.cntlid sqid t base (size + 1) cqid
          (if c.orderMode < 2 ∨ c.ams = 0 then 2 else qprio % 4) (s.tfld t .qe_cfg_freeze_default == 1) .pcie] } })) ∧
    (¬fits → Next (.createIoSubmissionQueue a sqid ⟨size, base⟩ cqid qprio) s fun u => u = passTurn a (admDone a .invalidQueueIdentifier 0 s)) ∧
    (fits → size = 0 ∨ 1023 < size →
      Next (.createIoSubmissionQueue a sqid ⟨size, base⟩ cqid qprio) s fun u => u = passTurn a (admDone a .invalidQueueSize 0 s)) ∧
    (fits → size ≠ 0 → size ≤ 1023 → cqid = 0 ∨ findCq s c.cntlid cqid = none →
      Next (.createIoSubmissionQueue a sqid ⟨size, base⟩ cqid qprio) s fun u => u = passTurn a (admDone a .completionQueueInvalid 0 s))) ∧
  (∀ (a : Adm) (cqid size base vector : Nat) (ien : Bool) (c : Ctrl) (s : State), AdmRuns .queueEngine a s →
    pcieIssuer s a = some c →
    let fits := cqid ≠ 0 ∧ cqid ≤ 128 ∧ findCq s c.cntlid cqid = none
    (fits → size ≠ 0 → size ≤ 1023 → vector ≤ 128 →
      Next (.createIoCompletionQueue a cqid ⟨size, base⟩ vector ien) s fun u => u = passTurn a (admDone a .success 0 { s with host := { s.host with
        cqs := s.host.cqs ++ [ioCq c.cntlid cqid base (size + 1) vector ien] } })) ∧
    (¬fits → Next (.createIoCompletionQueue a cqid ⟨size, base⟩ vector ien) s fun u => u = passTurn a (admDone a .invalidQueueIdentifier 0 s)) ∧
    (fits → size = 0 ∨ 1023 < size →
      Next (.createIoCompletionQueue a cqid ⟨size, base⟩ vector ien) s fun u => u = passTurn a (admDone a .invalidQueueSize 0 s)) ∧
    (fits → size ≠ 0 → size ≤ 1023 → 128 < vector →
      Next (.createIoCompletionQueue a cqid ⟨size, base⟩ vector ien) s fun u => u = passTurn a (admDone a .invalidInterruptVector 0 s))) ∧
  (∀ (a : Adm) (qid : Nat) (c : Ctrl) (s : State), AdmRuns .queueEngine a s → pcieIssuer s a = some c →
    (qid = 0 ∨ findSq s c.cntlid qid = none →
      Next (.deleteIoSubmissionQueue a qid) s fun u => u = passTurn a (admDone a .invalidQueueIdentifier 0 s)) ∧
    (qid ≠ 0 → findSq s c.cntlid qid ≠ none → Next (.deleteIoSubmissionQueue a qid) s fun u => ∃ m,
      u = passTurn a (admDone a .success 0 m) ∧ OnlyHostSide s m ∧
      (∀ q, q ∈ m.host.sqs ↔ q ∈ s.host.sqs ∧ (q.cntlid ≠ c.cntlid ∨ q.sqid ≠ qid)) ∧
      ∀ k, k ∈ m.host.cmds → k.cntlid = c.cntlid → k.sqid = qid → k.discard = true) ∧
    (qid = 0 ∨ findCq s c.cntlid qid = none →
      Next (.deleteIoCompletionQueue a qid) s fun u => u = passTurn a (admDone a .invalidQueueIdentifier 0 s)) ∧
    (qid ≠ 0 → findCq s c.cntlid qid ≠ none → (∃ q, q ∈ ioQueues s c.cntlid ∧ q.cqid = qid) →
      Next (.deleteIoCompletionQueue a qid) s fun u => u = passTurn a (admDone a .invalidQueueDeletion 0 s)) ∧
    (qid ≠ 0 → findCq s c.cntlid qid ≠ none → (∀ q, q ∈ ioQueues s c.cntlid → q.cqid ≠ qid) →
      Next (.deleteIoCompletionQueue a qid) s fun u => u = passTurn a (admDone a .success 0 { s with host := { s.host with
        cqs := s.host.cqs.filter fun q => !(q.cntlid == c.cntlid && q.cqid == qid) } }))) ∧
  (∀ (a : Adm) (s : State), AdmRuns .queueEngine a s → pcieIssuer s a = none → ∀ x y z w v b,
    (Next (.createIoSubmissionQueue a x ⟨y, z⟩ w v) s fun u => u = passTurn a (admDone a .invalidOpcode 0 s)) ∧
    (Next (.createIoCompletionQueue a x ⟨y, z⟩ w b) s fun u => u = passTurn a (admDone a .invalidOpcode 0 s)) ∧
    (Next (.deleteIoSubmissionQueue a x) s fun u => u = passTurn a (admDone a .invalidOpcode 0 s)) ∧
    Next (.deleteIoCompletionQueue a x) s fun u => u = passTurn a (admDone a .invalidOpcode 0 s)) ∧
  (∀ (id : Nat) (c : Ctrl) (s : State), AdmRuns .queueEngine (.host id) s → admCtrl s (.host id) = some c →
    (∀ k i rest, c.aens = (k, i) :: rest → Next (.asynchronousEventRequest (.host id)) s fun u =>
      u = passTurn (.host id) (finishCmd id .success (k + 256 * i) (updCtrl c.cntlid (fun c => { c with aens := rest }) s))) ∧
    (c.aens = [] → Next (.asynchronousEventRequest (.host id)) s fun u =>
      u = passTurn (.host id) (updCmd id (fun c => { c with phase := .draining })
        (updCtrl c.cntlid (fun c => { c with aers := c.aers ++ [id] }) s)))) ∧
  (∀ (a : Adm) (sqid cid : Nat) (c : Ctrl) (s : State), AdmRuns .queueEngine a s → admCtrl s a = some c →
    (∀ k, abortable s c sqid cid = some k → Next (.abort a sqid cid) s fun u =>
      u = passTurn a (admDone a .success 0 (pump (finishCmd k.id .commandAbortRequested 0 s)))) ∧
    (abortable s c sqid cid = none → (∀ q, findSq s c.cntlid sqid = some q → ∀ k, k ∈ q.recv → k.cap.cid ≠ cid) →
      Next (.abort a sqid cid) s fun u => u = passTurn a (admDone a .success 1 s)) ∧
    (∀ q k, abortable s c sqid cid = none → findSq s c.cntlid sqid = some q → (q.recv.find? fun k => k.cap.cid == cid) = some k →
      Next (.abort a sqid cid) s fun u => ∃ m, u = passTurn a (admDone a .success 0 m) ∧
        m = { s with host := { s.host with sqs := m.host.sqs, ctrls := m.host.ctrls }, outs := m.outs, heldOuts := m.heldOuts } ∧
        findSq m c.cntlid sqid = some { q with recv := q.recv.erase k } ∧
        (findCtrl s c.cntlid = some c → ∃ d, findCtrl m c.cntlid = some d ∧ d.errorCount = c.errorCount + 1) ∧
        Sent (.completion c.cntlid sqid cid .commandAbortRequested (if frz s c.cntlid sqid then 2 ^ 31 else 0) q.head) m)) ∧
  (∀ (a : Adm) (sqid : Nat) (c : Ctrl) (s : State), AdmRuns .atOnce a s → admCtrl s a = some c →
    (sqid = 0 ∨ findSq s c.cntlid sqid = none →
      Next (.queueThaw a sqid) s fun u => u = passTurn a (admDone a .invalidQueueIdentifier 0 s)) ∧
    (∀ q, sqid ≠ 0 → findSq s c.cntlid sqid = some q → Next (.queueThaw a sqid) s fun u =>
      u = passTurn a (admDone a .success 0 (updSq c.cntlid sqid (fun q => { q with frozen := none }) s))))

/-- R56, R69, R76 to R78, R90, R474: the features of a controller and of its queues. It rests on the log's entries 9, 10, the
model's own. -/
def Obligations.ControllerFeatures : Prop :=
  (∀ (a : Adm) (c : Ctrl) (s : State), AdmRuns .management a s → admCtrl s a = some c →
    (∀ burst lpw mpw hpw, Next (.setFeaturesArbitration a burst lpw mpw hpw) s fun t =>
      t = passTurn a (admDone a .success 0 (updCtrl c.cntlid (fun c => { c with
        arbBurst := burst % 8, arbWeights := (hpw % 256, mpw % 256, lpw % 256) }) s))) ∧
    (∀ v, Next (.setFeaturesInterruptCoalescing a 8 v) s fun t =>
      t = passTurn a (admDone a .success 0 (updCtrl c.cntlid (fun c => { c with
        coalesce := (bitsOf v 7 0, bitsOf v 15 8) }) s))) ∧
    (∀ v, Next (.setFeaturesInterruptCoalescing a 9 v) s fun t =>
      t = passTurn a (admDone a .success 0 (updCtrl c.cntlid (fun c => { c with
        noCoalesce := (c.noCoalesce.filter fun x => x != bitsOf v 15 0) ++ (if bitOf v 16 then [bitsOf v 15 0] else []) }) s))) ∧
    (∀ fid v, fid ≠ 8 → fid ≠ 9 →
      Next (.setFeaturesInterruptCoalescing a fid v) s fun t => t = passTurn a (admDone a .invalidField 0 s)) ∧
    (∀ v, hasIoQueue s c.cntlid = false → Next (.setFeaturesOrderingMode a v) s fun t =>
      t = passTurn a (admDone a .success 0 (updCtrl c.cntlid (fun c => { c with orderMode := bitsOf v 1 0 }) s))) ∧
    (∀ v n m, hasIoQueue s c.cntlid = true →
      (Next (.setFeaturesOrderingMode a v) s fun t => t = passTurn a (admDone a .commandSequenceError 0 s)) ∧
      Next (.setFeaturesNumberOfQueues a n m) s fun t => t = passTurn a (admDone a .commandSequenceError 0 s)) ∧
    (∀ nsqr ncqr : Nat, hasIoQueue s c.cntlid = false → pcieIssuer s a = none →
      let g := min (min (min (nsqr + 1) (ncqr + 1)) 128) (pairsAvailable (updCtrl c.cntlid (fun c => { c with grant := none }) s) c)
      (g ≠ 0 → Next (.setFeaturesNumberOfQueues a nsqr ncqr) s fun t =>
        t = passTurn a (admDone a .success ((g - 1) + 65536 * (g - 1)) (updCtrl c.cntlid (fun c => { c with grant := some g }) s))) ∧
      (g = 0 → Next (.setFeaturesNumberOfQueues a nsqr ncqr) s fun t =>
        t = passTurn a (admDone a .commandInterrupted 0 s))) ∧
    (∀ nsqr ncqr : Nat, hasIoQueue s c.cntlid = false → pcieIssuer s a = some c →
      let g := min (min (nsqr + 1) 128) (pairsAvailable (updCtrl c.cntlid (fun c => { c with grant := none }) s) c)
      (g ≠ 0 → Next (.setFeaturesNumberOfQueues a nsqr ncqr) s fun t =>
        t = passTurn a (admDone a .success ((g - 1) + 65536 * (min (ncqr + 1) 128 - 1))
          (updCtrl c.cntlid (fun c => { c with grant := some g }) s))) ∧
      (g = 0 → Next (.setFeaturesNumberOfQueues a nsqr ncqr) s fun t =>
        t = passTurn a (admDone a .commandInterrupted 0 s)))) ∧
  (∀ (c : Ctrl) (s : State),
    (isX8 s c = false → pairsAvailable s c = qpFree s c.tile) ∧
    (isX8 s c = true → ∀ g, g ≤ pairsAvailable s c ↔ (g + 1) / 2 ≤ qpFree s c.tile ∧ g / 2 ≤ qpFree s (partnerOf s c.tile))) ∧
  (∀ (a : Adm) (v : Nat) (c : Ctrl) (s : State), AdmRuns .management a s → admCtrl s a = some c →
    (bitsOf v 15 0 ≠ 0 → findSq s c.cntlid (bitsOf v 15 0) ≠ none →
      (Next (.setFeaturesQueueClass a v) s fun t => t = passTurn a (admDone a .success 0
        (updSq c.cntlid (bitsOf v 15 0) (fun q => { q with reqClass := bitsOf v 17 16 }) s))) ∧
      Next (.setFeaturesQueueFreezeMode a v) s fun t => t = passTurn a (admDone a .success 0
        (updSq c.cntlid (bitsOf v 15 0) (fun q => { q with mediaOnly := bitOf v 16 }) s))) ∧
    (bitsOf v 15 0 = 0 ∨ findSq s c.cntlid (bitsOf v 15 0) = none →
      (Next (.setFeaturesQueueClass a v) s fun t => t = passTurn a (admDone a .invalidQueueIdentifier 0 s)) ∧
      Next (.setFeaturesQueueFreezeMode a v) s fun t => t = passTurn a (admDone a .invalidQueueIdentifier 0 s))) ∧
  (∀ (a : Adm) (c : Ctrl) (s : State), AdmRuns .management a s → admCtrl s a = some c →
    (Next (.getFeaturesOrderingMode a) s fun t => t = passTurn a (admDone a .success c.orderMode s)) ∧
    (∀ v, Next (.getFeatures a 1 v) s fun t => t = passTurn a (admDone a .success
      (c.arbBurst + 256 * c.arbWeights.2.2 + 65536 * c.arbWeights.2.1 + 16777216 * c.arbWeights.1) s)) ∧
    (∀ v, Next (.getFeatures a 7 v) s fun t =>
      t = passTurn a (admDone a .success ((c.grant.getD 0 - 1) + 65536 * (c.grant.getD 0 - 1)) s)) ∧
    (∀ v, Next (.getFeatures a 8 v) s fun t => t = passTurn a (admDone a .success (c.coalesce.1 + 256 * c.coalesce.2) s)) ∧
    (∀ v, Next (.getFeatures a 15 v) s fun t => t = passTurn a (admDone a .success c.kato s)) ∧
    (∀ fid v, fid ∉ [1, 6, 7, 8, 9, 15] → Next (.getFeatures a fid v) s fun t =>
      t = passTurn a (admDone a .success (Config.nvmeFeature fid v) s)) ∧
    (∀ q n, n ≠ 0 → findSq s c.cntlid n = some q →
      (Next (.getFeaturesQueueClass a n) s fun t => t = passTurn a (admDone a .success q.reqClass s)) ∧
      Next (.getFeaturesQueueFreezeMode a n) s fun t => t = passTurn a (admDone a .success (b2n q.mediaOnly) s)) ∧
    (∀ n, n = 0 ∨ findSq s c.cntlid n = none →
      (Next (.getFeaturesQueueClass a n) s fun t => t = passTurn a (admDone a .invalidQueueIdentifier 0 s)) ∧
      Next (.getFeaturesQueueFreezeMode a n) s fun t => t = passTurn a (admDone a .invalidQueueIdentifier 0 s))) ∧
  (∀ (a : Adm) (s : State), AdmRuns .management a s → admCtrl s a = none → ∀ x y z w,
    (Next (.setFeaturesArbitration a x y z w) s fun t => t = passTurn a (admDone a .invalidField 0 s)) ∧
    (Next (.setFeaturesOrderingMode a x) s fun t => t = passTurn a (admDone a .invalidField 0 s)) ∧
    (Next (.setFeaturesNumberOfQueues a x y) s fun t => t = passTurn a (admDone a .invalidField 0 s)) ∧
    (Next (.getFeatures a x y) s fun t => t = passTurn a (admDone a .invalidField 0 s)) ∧
    Next (.getFeaturesOrderingMode a) s fun t => t = passTurn a (admDone a .invalidField 0 s))

/-- R52, R55, R59, R60, R102, R110: what Identify answers, and to whom. It rests on the log's entries 9, 10, 19, the model's own.
-/
def Obligations.IdentifyAnswers : Prop :=
  (∀ (a : Adm) (n : Nat) (s : State), AdmRuns .management a s →
    (∀ x, n ∈ seen s a → nsOf s n = some x → Next (.identify a 0 n) s fun u => ∃ d, u = passTurn a (admAnswer a d s) ∧
      (0, 8, x.nsze) ∈ d ∧ (8, 8, x.ncap) ∈ d ∧ (16, 8, x.nuse) ∈ d ∧ (92, 4, 1) ∈ d ∧ (102, 2, x.endgid) ∈ d ∧
      (3856, 4, x.limits.rdIops) ∈ d ∧ (3860, 4, x.limits.wrIops) ∈ d ∧ (3864, 4, x.limits.rdMbps) ∈ d ∧
      (3868, 4, x.limits.wrMbps) ∈ d) ∧
    (n ∉ seen s a → (Next (.identify a 0 n) s fun u => u = passTurn a (admDone a .invalidNamespaceOrFormat 0 s)) ∧
      Next (.identify a 3 n) s fun u => u = passTurn a (admDone a .invalidNamespaceOrFormat 0 s)) ∧
    (Next (.identify a 1 n) s fun u => ∃ d, u = passTurn a (admAnswer a d s) ∧ (80, 4, 0x00020100) ∈ d ∧
      (78, 2, ((admCtrl s a).map (·.cntlid)).getD 0) ∈ d ∧ (256, 2, if admProvider s a then 14 else 0) ∈ d ∧
      (516, 4, s.ident.part.namespaces) ∈ d) ∧
    (Next (.identify a 2 n) s fun u => ∃ l, u = passTurn a (admAnswer a (idList 4 1024 l) s) ∧ ∀ i, i ∈ l ↔ i ∈ seen s a ∧ n < i) ∧
    (Next (.identify a 0x10 n) s fun u => ∃ l, u = passTurn a (admAnswer a (idList 4 1024 l) s) ∧
      ∀ i, i ∈ l ↔ i ∈ (if admProvider s a then managedIds s else seen s a) ∧ n < i) ∧
    (admProvider s a = false → (Next (.identify a 0x12 n) s fun u => u = passTurn a (admDone a .invalidField 0 s)) ∧
      Next (.identify a 0x13 n) s fun u => u = passTurn a (admDone a .invalidField 0 s)) ∧
    (admProvider s a = true → n ∈ managedIds s → Next (.identify a 0x12 n) s fun u => ∃ (d : List Field) (l : List Nat), u = passTurn a (admAnswer a d s) ∧
      (0, 2, l.length) ∈ d ∧ (∀ i, i ∈ l ↔ ∃ c, c ∈ s.host.ctrls ∧ attachedTo s c n = true ∧ c.cntlid = i) ∧
      l.Pairwise (· ≤ ·)) ∧
    (Next (.identify a 4 n) s fun u => ∃ d, u = passTurn a (admAnswer a d s) ∧ (0, 1, s.reg.egs.length) ∈ d ∧
      ∀ i g, s.reg.egs[i]? = some g → (128 + 128 * i, 2, g.nvmSet) ∈ d ∧ (128 + 128 * i + 2, 2, g.id) ∈ d ∧
        (128 + 128 * i + 16, 16, usable s g) ∈ d) ∧
    (∀ cns, cns ∉ [0, 1, 2, 3, 4, 0x10, 0x11, 0x12, 0x13] →
      Next (.identify a cns n) s fun u => u = passTurn a (admDone a .invalidField 0 s)))

/-- R109, R111, R112, R115, R117: the life of a namespace and its attachments. It rests on the log's entry 19, the model's own. -/
def Obligations.NamespaceLife : Prop :=
  (∀ (a : Adm) (r : NsCreate) (s : State), AdmRuns .registry a s →
    (createOk s r = false → Next (.namespaceCreate a r) s fun u => u = passTurn a (syncStores (admDone a .invalidField 0 s))) ∧
    (createOk s r = true → freeNsid s = none →
      Next (.namespaceCreate a r) s fun u => u = passTurn a (syncStores (admDone a .namespaceIdUnavailable 0 s))) ∧
    (∀ id eg, createOk s r = true → freeNsid s = some id → findEg s r.endgid = some eg →
      ((provisioned s r.endgid + r.ncap * 4096) * 100 ≤ usable s eg * eg.ratioPct → chunksFit s r.nsze = true →
        Next (.namespaceCreate a r) s fun u => u = passTurn a (syncStores (admDone a .success id
          (reserveChunks id r.nsze { s with reg := { s.reg with nss := s.reg.nss ++ [newNs s id r] } }))) ∧
          1 ≤ id ∧ id ≤ s.ident.part.namespaces ∧ nsOf s id = none ∧ nsOf u id = some (newNs s id r)) ∧
      (usable s eg * eg.ratioPct < (provisioned s r.endgid + r.ncap * 4096) * 100 ∨ chunksFit s r.nsze = false →
        Next (.namespaceCreate a r) s fun u => u = passTurn a (syncStores (admDone a .namespaceInsufficientCapacity 0 s))))) ∧
  (∀ (a : Adm) (n : Nat) (x : Ns) (s : State), AdmRuns .registry a s → managed s n = some x →
    Next (.namespaceDelete a n) s fun u => OnlyHostSide { s with reg := u.reg, prov := u.prov, fw := storesOf s u } u ∧
      u.reg = { s.reg with nss := u.reg.nss } ∧ nsOf u n = some { x with state := .deleting, step := 2 } ∧
      (∀ m, m ≠ n → nsOf u m = nsOf s m) ∧ u.prov = some { adm := a, kind := .nsDelete n } ∧
      ∀ c, c ∈ u.host.cmds → c.cap.nsid = n → isAdmin c.cap.op = false → c.started = true) ∧
  (∀ (n : Nat) (x : Ns) (p : ProvOp) (s : State), nsOf s n = some x → x.state = .deleting → x.step = 2 →
    startedOn s n (fun _ => true) = false → s.prov = some p → p.kind = .nsDelete n →
    Next (.namespaceDeleteDrain n) s fun u =>
      u = provEnd (admDone p.adm .success 0 (updNs n (fun x => { x with
        wrapped := none, step := 5, keyGen := (slotGen s n + 1) % 16 }) (clearKey n (endCipherJobs s)))) ∧
      slotLoaded u n = false ∧ u.prov = none ∧ u.heldAdmin = [] ∧
      u.fw = storesOf s u) ∧
  (∀ (n : Nat) (x : Ns) (s : State), nsOf s n = some x →
    x.state ≠ .deleting ∨ x.step ≠ 2 ∨ startedOn s n (fun _ => true) = true →
    Next (.namespaceDeleteDrain n) s fun u => u = s) ∧
  (∀ (n : Nat) (x : Ns) (s : State), nsOf s n = some x → x.state = .deleting → x.step = 5 →
    Next (.namespaceUnmapEnd n) s fun u => u = { s with reg := u.reg, map := u.map, rcl := u.rcl, fw := storesOf s u } ∧
      u.reg = { s.reg with nss := u.reg.nss, leases := u.reg.leases } ∧ nsOf u n = none ∧
      (∀ m, m ≠ n → nsOf u m = nsOf s m) ∧ (∀ l, l ∈ u.reg.leases ↔ l ∈ s.reg.leases ∧ l.nsid ≠ n) ∧
      (∀ y, y ∈ u.map.regions ↔ y ∈ s.map.regions ∧ y.nsid ≠ n) ∧
      ∀ c, c ∈ u.map.chunks ↔ c ∈ s.map.chunks ∧ c.1 ≠ n) ∧
  (∀ (n : Nat) (x : Ns) (s : State), nsOf s n = some x → x.state ≠ .deleting ∨ x.step ≠ 5 →
    Next (.namespaceUnmapEnd n) s fun u => u = s) ∧
  (∀ (a : Adm) (n : Nat) (byTenant : Bool) (l ts : List Nat) (x : Ns) (s : State), AdmRuns .registry a s →
    managed s n = some x → listedTenants s byTenant l = some ts →
    (Next (.namespaceAttach a n byTenant l) s fun u => u = passTurn a (syncStores (admDone a .success 0
      (nsChanged ts.eraseDups (updNs n (fun x => { x with attached := (x.attached ++ ts).eraseDups }) s))))) ∧
    Next (.namespaceDetach a n byTenant l) s fun u => OnlyHostSide { s with reg := u.reg, prov := u.prov, fw := storesOf s u } u ∧
      u.reg = { s.reg with nss := u.reg.nss } ∧ (∀ i, i ≠ n → nsOf u i = nsOf s i) ∧
      u.prov = some { adm := a, kind := .detach n ts } ∧
      ∃ y, nsOf u n = some { x with attached := y } ∧ ∀ t, t ∈ y ↔ t ∈ x.attached ∧ t ∉ ts) ∧
  (∀ (a : Adm) (n : Nat) (byTenant : Bool) (l : List Nat) (s : State), AdmRuns .registry a s →
    (managed s n = none → (Next (.namespaceDelete a n) s fun u => u = passTurn a (syncStores (admDone a .invalidNamespaceOrFormat 0 s))) ∧
      (Next (.namespaceAttach a n byTenant l) s fun u => u = passTurn a (syncStores (admDone a .invalidNamespaceOrFormat 0 s))) ∧
      Next (.namespaceDetach a n byTenant l) s fun u => u = passTurn a (syncStores (admDone a .invalidNamespaceOrFormat 0 s))) ∧
    (managed s n ≠ none → listedTenants s byTenant l = none →
      (Next (.namespaceAttach a n byTenant l) s fun u => u = passTurn a (syncStores (admDone a .controllerListInvalid 0 s))) ∧
      Next (.namespaceDetach a n byTenant l) s fun u => u = passTurn a (syncStores (admDone a .controllerListInvalid 0 s)))) ∧
  (∀ (n : Nat) (a : Adm) (ts : List Nat) (s : State), s.prov = some { adm := a, kind := .detach n ts } →
    (startedOn s n (fun c => ts.contains (c.payer.tenant)) = false →
      Next (.detachDrain n) s fun u => u = provEnd (admDone a .success 0 s)) ∧
    (startedOn s n (fun c => ts.contains (c.payer.tenant)) = true → Next (.detachDrain n) s fun u => u = s))

/-- R114, R116: Format NVM and Sanitize, and the unmap that follows them. It rests on the log's entry 22, the model's own. -/
def Obligations.FormatAndSanitize : Prop :=
  (∀ (a : Adm) (n ses : Nat) (x : Ns) (s : State), AdmRuns .registry a s → n ≠ 0xFFFFFFFF → managed s n = some x →
    (ses = 0 → Next (.formatNvm a n ses 0) s fun u => u = passTurn a (syncStores (provEnd (admDone a .success 0 (formatOne false n s)))) ∧
      nsOf u n = some { x with keyGen := (slotGen s n + 1) % 16, nuse := 0, unmapping := true }) ∧
    (1 ≤ ses → ses ≤ 2 → x.unmapping = false →
      Next (.formatNvm a n ses 0) s fun u => u = passTurn a (syncStores (provEnd (admDone a .success 0 (formatOne true n s)))) ∧
        slotLoaded u n = false ∧ nsOf u n = some { x with
          state := .keyPending, wrapped := none, keyGen := (slotGen s n + 1) % 16, nuse := 0, unmapping := true }) ∧
    (1 ≤ ses → ses ≤ 2 → x.unmapping = true →
      Next (.formatNvm a n ses 0) s fun u => u = passTurn a (syncStores (admPark a { s with prov := some { adm := a, kind := .format true [n] } })))) ∧
  (∀ (a : Adm) (n ses lbaf : Nat) (s : State), AdmRuns .registry a s →
    (2 < ses ∨ lbaf ≠ 0 → Next (.formatNvm a n ses lbaf) s fun u => u = passTurn a (syncStores (admDone a .invalidField 0 s))) ∧
    (ses ≤ 2 → lbaf = 0 → n ≠ 0xFFFFFFFF → managed s n = none →
      Next (.formatNvm a n ses lbaf) s fun u => u = passTurn a (syncStores (admDone a .invalidNamespaceOrFormat 0 s))) ∧
    (ses = 0 → lbaf = 0 → Next (.formatNvm a 0xFFFFFFFF ses lbaf) s fun u =>
      u = passTurn a (syncStores (provEnd (admDone a .success 0 (((managedIds s).filter fun m => (nsOf s m).isSome).foldl
        (fun s m => formatOne false m s) s)))))) ∧
  (∀ (a : Adm) (action : Nat) (s : State), AdmRuns .registry a s →
    (action ≠ 4 → Next (.sanitize a action) s fun u => u = passTurn a (syncStores (admDone a .invalidField 0 s))) ∧
    (action = 4 → (∀ x, x ∈ s.reg.nss → x.unmapping = false) → (s.reg.nss.map (·.nsid)).Nodup →
      Next (.sanitize a action) s fun u => u = passTurn a (syncStores (provEnd (admDone a .success 0 ((managedIds s).foldl
        (fun s m => formatOne true m s) s)))) ∧ ∀ m, m ∈ managedIds s → slotLoaded u m = false)) ∧
  (∀ (n : Nat) (x : Ns) (s : State), nsOf s n = some x → x.unmapping = true →
    (s.prov = none → Next (.formatUnmapEnd n) s fun u => u = { s with reg := u.reg, map := u.map, rcl := u.rcl, fw := storesOf s u } ∧
      (∃ k, nsOf u n = some { x with unmapping := false, nuse := k }) ∧ (∀ m, m ≠ n → nsOf u m = nsOf s m) ∧
      ∀ m, m ≠ n → ∀ y, y.nsid = m → (y ∈ u.map.regions ↔ y ∈ s.map.regions)) ∧
    (∀ a e rest, s.prov = some { adm := a, kind := .format e (n :: rest) } → Next (.formatUnmapEnd n) s fun u =>
      u = syncStores (formatList a e (n :: rest) (updNs n (fun x => { x with unmapping := false }) (dropStale n s))))) ∧
  (∀ (n : Nat) (s : State), (∀ x, nsOf s n = some x → x.unmapping = false) → Next (.formatUnmapEnd n) s fun u => u = s)

/-- R101 to R106: tenants and the limits of a namespace. It rests on the log's entry 19, the model's own. -/
def Obligations.TenantsAndLimits : Prop :=
  (∀ (a : Adm) (n : Nat) (d : Bytes) (s : State), AdmRuns .registry a s →
    let f := fun i k => ofLE ((d.drop i).take k)
    (d.length ≠ 32 → Next (.namespaceLimits a n d) s fun u => u = passTurn a (syncStores (admDone a .dataSglLengthInvalid 0 s))) ∧
    (d.length = 32 → managed s n = none →
      Next (.namespaceLimits a n d) s fun u => u = passTurn a (syncStores (admDone a .invalidNamespaceOrFormat 0 s))) ∧
    (∀ x, d.length = 32 → managed s n = some x → f 16 2 ≤ 1000 → (∀ b, b ∈ d.drop 18 → b = 0) →
      Next (.namespaceLimits a n d) s fun u => u = passTurn a (syncStores (admDone a .success 0 (updNs n (fun x => { x with
        newLimits := some ⟨f 0 4, f 4 4, f 8 4, f 12 4, if f 16 2 = 0 then 10 else f 16 2⟩ }) s)))) ∧
    (d.length = 32 → managed s n ≠ none → 1000 < f 16 2 ∨ (∃ b, b ∈ d.drop 18 ∧ b ≠ 0) →
      Next (.namespaceLimits a n d) s fun u => u = passTurn a (syncStores (admDone a .invalidField 0 s)))) ∧
  (∀ (a : Adm) (d : Bytes) (s : State), AdmRuns .registry a s →
    (d.length ≠ 512 → Next (.tenantSet a d) s fun u => u = passTurn a (syncStores (admDone a .dataSglLengthInvalid 0 s))) ∧
    (d.length = 512 → parseTenant d = none → Next (.tenantSet a d) s fun u => u = passTurn a (syncStores (admDone a .invalidField 0 s))) ∧
    (∀ t, d.length = 512 → parseTenant d = some t → (∀ x, x ∈ s.reg.tenants → x.id ≠ t.id ∧ x.ident ≠ t.ident) →
      Next (.tenantSet a d) s fun u =>
        u = passTurn a (syncStores (admDone a .success 0 { s with reg := { s.reg with tenants := s.reg.tenants ++ [t] } }))) ∧
    (∀ t old, d.length = 512 → parseTenant d = some t → (s.reg.tenants.find? fun x => x.id == t.id) = some old →
      (old.ident = t.ident → Next (.tenantSet a d) s fun u => u = passTurn a (syncStores (admDone a .success 0
        { s with reg := { s.reg with tenants := s.reg.tenants.map fun x => if x.id == t.id then t else x } }))) ∧
      (old.ident ≠ t.ident → Next (.tenantSet a d) s fun u => u = passTurn a (syncStores (admDone a .invalidField 0 s)))) ∧
    (∀ t, d.length = 512 → parseTenant d = some t → (∀ x, x ∈ s.reg.tenants → x.id ≠ t.id) →
      (∃ x, x ∈ s.reg.tenants ∧ x.ident = t.ident) →
      Next (.tenantSet a d) s fun u => u = passTurn a (syncStores (admDone a .invalidField 0 s)))) ∧
  (∀ (a : Adm) (id : Nat) (s : State), AdmRuns .provider a s →
    (ringLenOk a 512 s = false → Next (.tenantGet a id) s fun u => u = passTurn a (admDone a .dataSglLengthInvalid 0 s)) ∧
    (∀ t, ringLenOk a 512 s = true → (s.reg.tenants.find? fun t => t.id == id) = some t → Next (.tenantGet a id) s fun u => ∃ d,
      u = passTurn a (admAnswer a d s) ∧
      (0, 2, t.id) ∈ d ∧ (6, 2, t.share) ∈ d ∧ (8, 4, t.budget) ∈ d ∧ (12, 4, t.latency) ∈ d ∧
      (∀ e f, t.ident = .function e f → (2, 1, 1) ∈ d ∧ (3, 1, e) ∈ d ∧ (4, 2, f) ∈ d) ∧
      ∀ n, t.ident = .nqn n → (2, 1, 0) ∈ d ∧ (256, 256, ofLE n) ∈ d) ∧
    (ringLenOk a 512 s = true → (s.reg.tenants.find? fun t => t.id == id) = none →
      Next (.tenantGet a id) s fun u => u = passTurn a (admDone a .invalidField 0 s))) ∧
  (∀ (a : Adm) (id : Nat) (s : State), AdmRuns .registry a s →
    (ringLenOk a 0 s = false → Next (.tenantDelete a id) s fun u => u = passTurn a (syncStores (admDone a .dataSglLengthInvalid 0 s))) ∧
    (ringLenOk a 0 s = true → (s.reg.tenants.find? fun t => t.id == id) = none →
      Next (.tenantDelete a id) s fun u => u = passTurn a (syncStores (admDone a .invalidField 0 s))) ∧
    (ringLenOk a 0 s = true → (s.reg.tenants.find? fun t => t.id == id) ≠ none → (∃ n, n ∈ s.reg.nss ∧ n.owner = id) →
      Next (.tenantDelete a id) s fun u => u = passTurn a (syncStores (admDone a .commandSequenceError 0 s))) ∧
    (ringLenOk a 0 s = true → (s.reg.tenants.find? fun t => t.id == id) ≠ none → (∀ n, n ∈ s.reg.nss → n.owner ≠ id) →
      Next (.tenantDelete a id) s fun u => OnlyHostSide { s with reg := u.reg, fw := storesOf s u } u ∧
        u.reg = { s.reg with nss := u.reg.nss, tenants := u.reg.tenants } ∧
        (∀ t, t ∈ u.reg.tenants ↔ t ∈ s.reg.tenants ∧ t.id ≠ id) ∧ (∀ c, c ∈ u.host.ctrls → c.tenant ≠ id) ∧
        (∀ n, n ∈ u.reg.nss → id ∉ n.attached) ∧
        ∀ n x, nsOf s n = some x → ∃ l, nsOf u n = some { x with attached := l } ∧
          ∀ t, t ∈ l ↔ t ∈ x.attached ∧ t ≠ id))

/-- R30, R143 to R145, R147 to R149, R157, R289: lookups of the span map and the fetch of a page. It rests on the log's entries
27, 31, the model's own. -/
def Obligations.MapLookups : Prop :=
  (∀ (id lba : Nat) (c : Cmd) (p : Piece) (s : State), findCmd s id = some c →
    (c.pieces.find? fun p => p.lba == lba && p.state == .toLookup) = some p →
    let n := c.cap.nsid
    let r := lba / 256
    let t := ownerTile s n r
    let w : MapWait := { nsid := n, r := r, cls := c.cls, cmd := id, req := .lookup id lba }
    let queued (s : State) : State := updCmd id (fun c => { c with
      pieces := c.pieces.map fun q => if q == p then { q with state := .queued } else q }) s
    let wait (s : State) : State := { s with map := { s.map with waiting := s.map.waiting ++ [w] } }
    (forwardedPiece c = some lba → Next (.mapLookup id lba) s fun u => u = s) ∧
    (forwardedPiece c ≠ some lba → lba % 256 + p.count - 1 < 240 ∨ s.tfld t .map_cfg_prefetch_en ≠ 1 →
      (waitsFor s n r = true → w ∉ s.map.waiting → Next (.mapLookup id lba) s fun u => u = queued (wait s)) ∧
      (waitsFor s n r = false → mapServed s n r = false →
        Next (.mapLookup id lba) s fun u => u = queued (wait (useDir n r c.cls id s))) ∧
      (waitsFor s n r = false → mapServed s n r = true →
        (whereIs s n r = .empty → Next (.mapLookup id lba) s fun u =>
          u = queued (sendLookup id lba (resolvePiece id lba s))) ∧
        (whereIs s n r = .l0 → Next (.mapLookup id lba) s fun u =>
          u = queued (sendLookup id lba (resolvePiece id lba
            (putRegion { getRegion s n r with ref0 := true } (bump t .map_l0_hits_count s))))) ∧
        (whereIs s n r = .l1 → Next (.mapLookup id lba) s fun u =>
          u = queued (sendLookup id lba (resolvePiece id lba (fillL0 n r (bump t .map_l1_hits_count s))))) ∧
        (whereIs s n r = .fetching → Next (.mapLookup id lba) s fun u => u = queued (wait s)) ∧
        (whereIs s n r = .miss → placeFor s t c.cls = none ∨ frameAt s t = false →
          Next (.mapLookup id lba) s fun u => u = queued (wait s)) ∧
        (∀ x k, findRegion s n r = some x → whereIs s n r = .miss → placeFor s t c.cls = some k → frameAt s t = true →
          Next (.mapLookup id lba) s fun u =>
            u = { s with regs := u.regs, map := u.map, media := u.media, host := { s.host with cmds := u.host.cmds } } ∧
            (∃ f, findRegion u n r = some { x with frame := some f, ref1 := true, fetching := some c.cls, kept := k }) ∧
            findCmd u id = some { c with pieces := c.pieces.map fun q => if q = p then { q with state := .queued } else q } ∧
            u.map.waiting = s.map.waiting ++ [w] ∧
            (∀ l, x.l2 = some l → dieServes s (dieOf l.addr) = true →
              ∃ o, o ∈ u.media.ops ∧ o.use = .mapFetch n r ∧ o.kind = .read ∧ o.cls = c.cls ∧ o.addr = l.addr ∧
                o.die = dieOf l.addr))))) ∧
  (∀ (id lba : Nat) (s : State), (∀ c, findCmd s id = some c → ∀ p, p ∈ c.pieces → p.lba = lba → p.state ≠ .toLookup) →
    Next (.mapLookup id lba) s fun u => u = s) ∧
  (∀ (n r last : Nat) (s : State), let t := ownerTile s n r
    (s.tfld t .map_cfg_prefetch_en = 1 → 240 ≤ last → fetches s (ownerTile s n (r + 1)) < 192 → whereIs s n (r + 1) = .miss →
      prefetch n r last s = startFetch n (r + 1) .b1 0 s) ∧
    (s.tfld t .map_cfg_prefetch_en ≠ 1 ∨ last < 240 ∨ 192 ≤ fetches s (ownerTile s n (r + 1)) ∨ whereIs s n (r + 1) ≠ .miss →
      prefetch n r last s = s)) ∧
  (∀ (n r : Nat) (header body : Bytes) (x : Region) (c : PClass) (s : State), findRegion s n r = some x → x.fetching = some c →
    (∀ o, o ∈ s.media.ops → o.use ≠ .mapFetch n r) →
    let s1 := putRegion { x with fetching := none, kept := false, ref1 := true } s
    (recordPasses 1 n r header body = true → (Next (.mapFetchDone n r ⟨header, body⟩) s fun u => u = serveMap (fillL0 n r s1)) ∧
      (s.map.waiting = [] → x.l0 = none → Next (.mapFetchDone n r ⟨header, body⟩) s fun u => u = { s with map := u.map } ∧
        ∃ k, findRegion u n r = some { x with fetching := none, kept := false, ref1 := true, l0 := some k, ref0 := true })) ∧
    (recordPasses 1 n r header body = false → s.map.waiting = [] → Next (.mapFetchDone n r ⟨header, body⟩) s fun u =>
      { ev := .mapFetchFault, tile := ownerTile s n r, params := [1, n, r % 2 ^ 32] } ∈ u.evr.raised ∧
      ((s.red.lostRegions.filter fun y => ownerTile s y.nsid y.region == ownerTile s n r).length < 65536 →
        { nsid := n, region := r, blocks := lostMask s x } ∈ u.red.lostRegions) ∧
      (65536 ≤ (s.red.lostRegions.filter fun y => ownerTile s y.nsid y.region == ownerTile s n r).length →
        n ∈ u.red.regionFull))) ∧
  (∀ (n r : Nat) (header body : Bytes) (s : State), (∀ x, findRegion s n r = some x → x.fetching = none) ∨
      (∃ o, o ∈ s.media.ops ∧ o.use = .mapFetch n r ∧ (o.state = .waiting ∨ reconRead s o.id = false)) →
    Next (.mapFetchDone n r ⟨header, body⟩) s fun u => u = s)

/-- R30, R54, R74, R134, R137, R151, R152, R156, R157, R184, R201: updates of the span map. It rests on the log's entry 27, the
model's own. -/
def Obligations.MapUpdates : Prop :=
  (∀ (id r : Nat) (c : Cmd) (s : State), findCmd s id = some c → updateDue c r = true →
    (∀ u, u ∈ c.updates → u.region + 1 = r → forwardedRegion c u.region = none) →
    let n := c.cap.nsid
    let w : MapWait := { nsid := n, r := r, cls := c.cls, cmd := id, req := .update id r }
    let wait (s : State) : State := { s with map := { s.map with waiting := s.map.waiting ++ [w] } }
    let first := (findJournal s (ownerSlot s n r)).head
    let s1 := applyPlans n r c.plan (pageAt n r c.cls id s).2
    (waitsFor s n r = true → w ∉ s.map.waiting → Next (.mapUpdate (.command id r)) s fun u => u = wait s) ∧
    (waitsFor s n r = false → mapServed s n r = false →
      Next (.mapUpdate (.command id r)) s fun u => u = wait (useDir n r c.cls id s)) ∧
    (waitsFor s n r = false → mapServed s n r = true →
      (whereIs s n r = .miss ∨ whereIs s n r = .fetching →
        Next (.mapUpdate (.command id r)) s fun u => u = wait (startFetch n r c.cls id s)) ∧
      (whereIs s n r ≠ .miss → whereIs s n r ≠ .fetching →
        (updateReady s n r = false → Next (.mapUpdate (.command id r)) s fun u => u = wait s) ∧
        (updateReady s n r = true → forwardedRegion c r = none →
          Next (.mapUpdate (.command id r)) s fun u => u = markApplied id n r first s1) ∧
        (∀ r2, updateReady s n r = true → forwardedRegion c r = some r2 →
          Next (.mapUpdate (.command id r)) s fun u => u = markApplied id n r first (sendForward c r r2 s1))))) ∧
  (∀ (id r : Nat) (s : State), (∀ c, findCmd s id = some c → updateDue c r = false ∨
      ∃ v, v ∈ c.updates ∧ v.region + 1 = r ∧ (forwardedRegion c v.region).isSome = true) →
    Next (.mapUpdate (.command id r)) s fun u => u = s) ∧
  (∀ (addr : Nat) (e : Ext) (s : State),
    (s.wr.exts.find? fun e => e.addr == addr && e.src.isSome && !e.committed && e.stage == .closed) = some e →
    let n := e.nsid
    let r := e.slba / 256
    let c := extClass s e
    let slot := ownerSlot s n r
    waitsFor s n r = false → mapServed s n r = true →
    (whereIs s n r = .empty → Next (.mapUpdate (.relocate addr)) s fun u => u = commitExt e s) ∧
    (whereIs s n r = .l0 ∨ whereIs s n r = .l1 → updateReady s n r = true →
      let s1 := (pageAt n r c 0 s).2
      (e.parts = [] → Next (.mapUpdate (.relocate addr)) s fun u =>
        u = commitExt e (windowCheck slot (applyRelocate n r (e.src.getD 0) e.seq e.addr s1))) ∧
      (e.parts ≠ [] → Next (.mapUpdate (.relocate addr)) s fun u =>
        u = commitExt e (windowCheck slot (applyCoalesce n r e s1)))) ∧
    (whereIs s n r = .miss ∨ whereIs s n r = .fetching → Next (.mapUpdate (.relocate addr)) s fun u =>
      u.map.waiting = s.map.waiting ++ [{ nsid := n, r := r, cls := c, cmd := 0, req := .relocate addr }] ∧ u.wr = s.wr ∧
      ∀ k, findJournal u k = findJournal s k)) ∧
  (∀ (addr : Nat) (s : State), (∀ e, e ∈ s.wr.exts → e.addr = addr → e.src = none ∨ e.committed = true ∨ e.stage ≠ .closed) →
    Next (.mapUpdate (.relocate addr)) s fun u => u = s) ∧
  (∀ (n r : Nat) (p : Plan) (s : State), (findJournal (applyPlan n r p s) (ownerSlot s n r)).head =
    (findJournal s (ownerSlot s n r)).head + 1) ∧
  (∀ (n r src seq dst : Nat) (s : State), (∀ y, y ∈ (getRegion s n r).spans → pointsAt src seq y = false) →
    applyRelocate n r src seq dst s = s) ∧
  (∀ (id r : Nat) (mirror : Bool) (c : Cmd) (s : State), findCmd s id = some c → c.phase = .mapping →
    (∀ w, w ∈ s.map.forwards → w.cmd ≠ id) →
    (∀ v, v ∈ c.updates → v.region + 1 = r → forwardedRegion c v.region = none) →
    let set := fun (u : Upd) => if u.region ≠ r then u else if mirror then { u with mirrorOk := u.mirrorOk || u.mirrored } else { u with ownerOk := u.ownerOk || u.applied }
    let s1 := updCmd id (fun c => { c with updates := c.updates.map set }) s
    ((∃ u, u ∈ c.updates ∧ ((set u).ownerOk = false ∨ (set u).mirrorOk = false)) →
      Next (.mapConfirm id r mirror) s fun u => u = pump s1) ∧
    ((∀ u, u ∈ c.updates → (set u).ownerOk = true ∧ (set u).mirrorOk = true) → c.sweep = 0 → s.plp.writeThrough = false →
      Next (.mapConfirm id r mirror) s fun u =>
        u = pump (finishCmd id .success 0 (updCmd id (fun c => { c with took := true, charged := 0 }) s1)))) ∧
  (∀ (id r : Nat) (mirror : Bool) (s : State), findCmd s id = none → Next (.mapConfirm id r mirror) s fun u => u = s)

/-- R142, R146, R149 to R155, R184, R205, R314: write-back and the journal. It rests on the log's entries 27, 28, the model's own.
-/
def Obligations.WriteBackAndJournal : Prop :=
  (∀ (n i addr len : Nat) (x : Region) (s : State), findRegion s n i = some x →
    let t := ownerTile s n i
    let snap := (findJournal s (ownerSlot s n i)).head
    (∀ c, x.wb = none → placeOk s t addr len = true → pageWbClass s x = some c → Next (.writeBackStart none n ⟨i, addr, len⟩) s fun u =>
      findRegion u n i = some { x with
        wb := some { addr := addr, len := len, snap := snap, spans := x.spans, first := none, cls := c, move := false } } ∧
      (∀ m r, m ≠ n ∨ r ≠ i → findRegion u m r = findRegion s m r) ∧
      (∃ o, o ∈ u.media.ops ∧ o.use = .mapWrite false n i ∧ o.kind = .program ∧ o.cls = c ∧ o.addr = addr ∧ o.die = dieOf addr) ∧
      .nandProgram (dieOf addr) [(addr, bandHeader 1 (ownerSlot s n i) x.spans.length n i snap len (mapBody x.spans) ++
        Config.deflate false true [] (mapBody x.spans))] ∈ u.outs) ∧
    (∀ l, x.wb = none → placeOk s t addr len = true → pageWbClass s x = none → x.l2 = some l → recordMoves s l.addr = true →
      Next (.writeBackStart none n ⟨i, addr, len⟩) s fun u => findRegion u n i = some { x with
        wb := some { addr := addr, len := len, snap := l.snap, spans := l.spans, first := x.dirty, cls := .b3, move := true } } ∧
        ∃ o, o ∈ u.media.ops ∧ o.use = .mapWrite false n i ∧ o.kind = .program ∧ o.cls = .b3 ∧ o.addr = addr) ∧
    (x.wb.isSome = true ∨ placeOk s t addr len = false ∨
        (pageWbClass s x = none ∧ ∀ l, x.l2 = some l → recordMoves s l.addr = false) →
      Next (.writeBackStart none n ⟨i, addr, len⟩) s fun u => u = s)) ∧
  (∀ (x : Region) (s : State), let t := ownerTile s x.nsid x.r
    let slot := ownerSlot s x.nsid x.r
    (x.dirty.isSome = true → dirtyLimit s t ≤ dirtyFrames s t → pageWbClass s x = some .h1) ∧
    (x.dirty.isSome = true → dirtyFrames s t < dirtyLimit s t → (findJournal s slot).hot = false →
      (3 * dirtyLimit s t ≤ 4 * dirtyFrames s t → pageWbClass s x = some .b1) ∧
      (4 * dirtyFrames s t < 3 * dirtyLimit s t → slot ∉ s.map.handBack → pageWbClass s x = none))) ∧
  (∀ (slot n i addr len : Nat) (d : DirRec) (s : State),
    (s.map.dirs.find? fun d => d.slot == slot && d.nsid == n && d.index == i) = some d → d.wb = none → d.dirty.isSome = true →
    placeOk s (if adopted s slot n i then (slotTiles s).headD slot else slot) addr len = true →
    Next (.writeBackStart (some slot) n ⟨i, addr, len⟩) s fun u => { d with
      wb := some { addr := addr, len := len, snap := (findJournal s slot).head, first := none
                   cls := if (findJournal s slot).hot then .h1 else .b1 } } ∈ u.map.dirs ∧
      ∃ o, o ∈ u.media.ops ∧ o.use = .mapWrite true n i ∧ o.kind = .program ∧ o.addr = addr ∧ o.die = dieOf addr) ∧
  (∀ (n i : Nat) (x : Region) (w : WriteBack) (s : State), findRegion s n i = some x → x.wb = some w → s.map.waiting = [] →
    let slot := ownerSlot s n i
    let pos := (findJournal s slot).head
    (∀ o, o ∈ s.media.ops → o.use = .mapWrite false n i → o.state ≠ .waiting) → (findJournal s slot).durable ≤ pos →
    Next (.writeBackProgrammed none n i w.addr w.len) s fun u =>
      (∃ m, findRegion u n i = some { x with
        wb := none, dirty := if w.move then x.dirty else w.first, olds := x.l2.toList ++ x.olds
        l2 := some { addr := w.addr, len := w.len, snap := w.snap, spans := w.spans, pos := pos }, marked := m }) ∧
      (findJournal u slot).head = pos + 1 ∧
      ∃ e, e ∈ (findJournal u slot).entries ∧ e.type = .pageWritten ∧ e.pos = pos ∧ e.nsid = n ∧
        e.lba = i ∧ e.span.addr = w.addr ∧ e.seq = w.snap) ∧
  (∀ (n i addr len : Nat) (s : State), (∀ x w, findRegion s n i = some x → x.wb = some w → w.addr ≠ addr ∨ w.len ≠ len) ∨
      (s.media.ops.find? fun o => o.use == .mapWrite false n i).any (fun o => o.state == .waiting) = true →
    Next (.writeBackProgrammed none n i addr len) s fun u => u = s) ∧
  (∀ (slot n i addr len : Nat) (s : State), (∀ d w, d ∈ s.map.dirs → d.slot = slot → d.nsid = n → d.index = i → d.wb = some w →
      w.addr ≠ addr ∨ w.len ≠ len) →
    Next (.writeBackProgrammed (some slot) n i addr len) s fun u => u = s) ∧
  (∀ (slot n i : Nat) (d : DirRec) (w : DirWb) (s : State),
    (s.map.dirs.find? fun d => d.slot == slot && d.nsid == n && d.index == i) = some d → d.wb = some w →
    (∀ o, o ∈ s.media.ops → o.use = .mapWrite true n i → o.state ≠ .waiting) →
    Next (.writeBackProgrammed (some slot) n i w.addr w.len) s fun u =>
      { d with addr := w.addr, len := w.len, wb := none, dirty := w.first } ∈ u.map.dirs ∧
      (findJournal u slot).head = (findJournal s slot).head + 1) ∧
  (∀ (id r : Nat) (c : Cmd) (v : Upd) (s : State), findCmd s id = some c →
    (c.updates.find? fun u => u.region == r && u.applied) = some v →
    let slot := ownerSlot s c.cap.nsid r
    let m := mirrorOf s (ownerTile s c.cap.nsid r)
    (tileUp s m = true → Next (.journalEntryMirrored id r) s fun u =>
      u = { s with host := { s.host with cmds := u.host.cmds }, map := { s.map with journals := u.map.journals } } ∧
      findCmd u id = some { c with
        updates := c.updates.map fun v => if v.region = r ∧ v.applied = true then { v with mirrored := true } else v } ∧
      findJournal u slot = { findJournal s slot with entries := (findJournal s slot).entries.map fun e =>
        if v.firstPos ≤ e.pos ∧ e.pos ≤ v.lastPos then { e with mirrored := true } else e } ∧
      ∀ j, j ≠ id → findCmd u j = findCmd s j) ∧
    (tileUp s m = false → Next (.journalEntryMirrored id r) s fun u => u = s)) ∧
  (∀ (slot : Nat) (s : State), let j := findJournal s slot
    (openStart j < j.head → j.closed.length < 4 → Next (.journalQuarterTimer slot) s fun u =>
      u = { s with map := { s.map with journals := u.map.journals } } ∧
      (let k := openStart j + 8192 - j.head
       findJournal u slot = { j with head := j.head + k, closed := j.closed ++ [j.head + k]
                                     entries := j.entries ++ [{ jentry .pad 0 0 k zeroSpan 0 with pos := j.head }] }) ∧
      ∀ k, k ≠ slot → findJournal u k = findJournal s k) ∧
    (j.head ≤ openStart j ∨ 4 ≤ j.closed.length → Next (.journalQuarterTimer slot) s fun u =>
      u = { s with map := { s.map with journals := u.map.journals } } ∧ ∀ k, findJournal u k = findJournal s k) ∧
    (∀ e rest, j.closed = e :: rest → Next (.journalSegmentProgrammed slot) s fun u =>
      u = serveMap (drainPump (dropOlds slot e (chargeOver slot
        (Meter.addMedia ((262144 + 64 * 32) * (dataUnits s 0 + 2) / dataUnits s 0)) (putJournal { j with durable := e, closed := rest } s)))) ∧
      (s.map.waiting = [] → findJournal u slot = { j with durable := e, closed := rest })) ∧
    (j.closed = [] → Next (.journalSegmentProgrammed slot) s fun u => u = s) ∧
    Next (.mapCheckpoint slot) s fun u => u = { s with map := { s.map with journals := u.map.journals }, plp := u.plp, evr := u.evr } ∧
      findJournal u slot = { j with
        window := windowStart s slot, checkpoint := windowStart s slot
        tables := (s.map.dirs.filter fun d => d.slot == slot && 0 < d.len).map fun d =>
          { nsid := d.nsid, index := d.index, addr := d.addr, len := d.len }
        entries := j.entries.filter fun e => decide (windowStart s slot ≤ e.pos) || decide (j.durable ≤ e.pos) } ∧
      (∃ rec', u.plp.record = some rec' ∧ (slot, windowStart s slot) ∈ rec'.ckpts ∧
        rec'.recSeq = ((s.plp.record.map (·.recSeq)).getD 0) + 1) ∧
      u.plp = { s.plp with record := u.plp.record }) ∧
  (∀ (slot : Nat) (s : State), let mib := s.tfld slot .map_paging_journal_window_mib
    let size := 100 * (32 * ((findJournal s slot).head - windowStart s slot) / 2 ^ 20)
    4 * (32 * (windowStart s slot - (findJournal s slot).checkpoint) / 2 ^ 20) < mib →
    findJournal (windowCheck slot s) slot = { findJournal s slot with
      hot := decide (75 * mib ≤ size) || ((findJournal s slot).hot && decide (50 * mib ≤ size)) })

/-- R151, R157 to R159, R161, R163: forwarded parts, adoption, hand-back, coalescing and the end of a replay. It rests on the
log's entry 27, the model's own. -/
def Obligations.ForwardingAndAdoption : Prop :=
  (∀ (id : Nat) (w : Forward) (s : State), (s.map.forwards.find? fun w => w.cmd == id && !w.arrived) = some w →
    let blocked := ∃ v, v ∈ s.map.forwards.takeWhile (fun v => !(v.cmd == id)) ∧ v.arrived = false ∧ forwardPath s v = forwardPath s w
    (blocked → Next (.forwardReceived id) s fun u => u = s) ∧
    (¬blocked → Next (.forwardReceived id) s fun u =>
      u = submitMap { nsid := w.nsid, r := w.region, cls := w.cls, cmd := id, req := .forward id }
        (updForward id (fun w => { w with arrived := true }) s)) ∧
    (¬blocked → (∀ v, v ∈ s.map.forwards → v.cmd = id → v = w) → w.applied = false → w.read = none →
      waitsFor s w.nsid w.region = false →
      let s1 := updForward id (fun w => { w with arrived := true }) s
      let first := (findJournal s (ownerSlot s w.nsid w.region)).head
      (w.replay = true → inLedger s w = true → Next (.forwardReceived id) s fun u =>
        u = { s with map := { s.map with forwards := u.map.forwards } } ∧
        (∀ x, x ∈ u.map.forwards → x.cmd = id → x = { w with arrived := true, applied := true }) ∧
        ∀ x, x.cmd ≠ id → (x ∈ u.map.forwards ↔ x ∈ s.map.forwards)) ∧
      (w.replay = false ∨ inLedger s w = false → mapServed s w.nsid w.region = true →
        whereIs s w.nsid w.region ≠ .miss → whereIs s w.nsid w.region ≠ .fetching → updateReady s w.nsid w.region = true →
        Next (.forwardReceived id) s fun u => u = markApplied id w.nsid w.region first
          (updForward id (fun w => { w with applied := true }) (enterLedger { w with arrived := true }
            (applyPlans w.nsid w.region w.part (pageAt w.nsid w.region w.cls id s1).2)))))) ∧
  (∀ (id : Nat) (s : State), (∀ w, w ∈ s.map.forwards → w.cmd = id → w.arrived = true) →
    Next (.forwardReceived id) s fun u => u = s) ∧
  (∀ (id : Nat) (w : Forward) (s : State), (s.map.forwards.find? fun w => w.cmd == id && w.applied) = some w →
    Next (.forwardConfirm id) s fun u => u = { s with map := u.map, host := { s.host with cmds := u.host.cmds } } ∧
      (∀ x, x ∈ u.map.forwards ↔ x ∈ s.map.forwards ∧ x.cmd ≠ id) ∧
      (∀ c, findCmd s id = some c → findCmd u id = some { c with updates := c.updates.map fun v =>
        if v.region = w.region then { v with ownerOk := true } else v }) ∧
      let slot := ownerSlot s w.nsid (w.region - 1)
      (findJournal u slot).head = (findJournal s slot).head + w.part.length ∧
      ∀ p, p ∈ w.part → ∃ e, e ∈ (findJournal u slot).entries ∧ e.type = .forwardDone ∧ e.seq = p.seq) ∧
  (∀ (id : Nat) (s : State), (∀ w, w ∈ s.map.forwards → w.cmd = id → w.applied = false) →
    Next (.forwardConfirm id) s fun u => u = s) ∧
  (∀ (id : Nat) (s : State), Next (.forwardTimeout id) s fun u =>
    u = { s with map := { s.map with forwards := s.map.forwards.map fun w =>
      if w.cmd = id ∧ w.read = none ∧ w.sentMs + 100 ≤ s.nowMs then
        { w with replay := true, arrived := false, applied := false, sentMs := s.nowMs } else w } }) ∧
  (∀ (slot n i : Nat) (header body : Bytes) (s : State),
    (slot ∉ s.map.away ∨ (∃ o, o ∈ s.media.ops ∧ o.use = .dirLoad slot n i ∧ o.state = .waiting) →
      Next (.adoptedRecordLoad slot n ⟨i, ⟨header, body⟩⟩) s fun u => u = s) ∧
    (slot ∈ s.map.away → (∀ o, o ∈ s.media.ops → o.use ≠ .dirLoad slot n i) → s.map.waiting = [] →
      (recordPasses 2 n i header body = true → Next (.adoptedRecordLoad slot n ⟨i, ⟨header, body⟩⟩) s fun u =>
        u = { s with map := { s.map with dirs := u.map.dirs }, evr := u.evr } ∧
        (u.map.dirs = s.map.dirs.map fun d => if d.slot = slot ∧ d.nsid = n ∧ d.index = i then { d with loaded := true } else d) ∧
        ((∃ d, d ∈ s.map.dirs ∧ d.slot = slot ∧ d.loaded = false) →
          (∀ d, d ∈ s.map.dirs → d.slot = slot → d.loaded = false → d.nsid = n ∧ d.index = i) →
          Logs .mapAdopt slot [slot, 1] s u)) ∧
      (recordPasses 2 n i header body = false → Next (.adoptedRecordLoad slot n ⟨i, ⟨header, body⟩⟩) s fun u =>
        { ev := .mapFetchFault, tile := slot, params := [2, n, i % 2 ^ 32] } ∈ u.evr.raised))) ∧
  (∀ (slot n i : Nat) (s : State), let mine := fun (x : Region) => ownerSlot s x.nsid x.r = slot ∧ x.nsid = n ∧ dirIndex s x.r = i
    (adopted s slot n i = true → slot ∈ s.map.handBack → s.map.waiting = [] →
      (∀ x, x ∈ s.map.regions → mine x → x.dirty = none ∧ x.fetching = none ∧ x.wb = none) →
      (∀ d, d ∈ s.map.dirs → d.slot = slot → d.nsid = n → d.index = i → d.dirty = none ∧ d.wb = none) →
      Next (.slotHandBack slot n i) s fun u =>
        u = { s with map := { s.map with dirs := u.map.dirs, regions := u.map.regions, away := u.map.away,
                                         handBack := u.map.handBack, returned := u.map.returned } } ∧
        adopted u slot n i = false ∧ (∀ x, x ∈ u.map.regions → mine x → x.l0 = none ∧ x.frame = none) ∧
        ((∀ x, x ∈ s.map.regions → ownerSlot s x.nsid x.r = slot → mine x ∨ (slot, x.nsid, dirIndex s x.r) ∈ s.map.returned) →
          (∀ d, d ∈ s.map.dirs → d.slot = slot → (d.nsid = n ∧ d.index = i) ∨ (slot, d.nsid, d.index) ∈ s.map.returned) →
          slot ∉ u.map.away ∧ slot ∉ u.map.handBack) ∧
        ((∃ d, d ∈ s.map.dirs ∧ d.slot = slot ∧ (d.nsid ≠ n ∨ d.index ≠ i) ∧ (slot, d.nsid, d.index) ∉ s.map.returned) →
          u.map.away = s.map.away ∧ u.map.handBack = s.map.handBack)) ∧
    (adopted s slot n i = false ∨ slot ∉ s.map.handBack ∨ (∃ x, x ∈ s.map.regions ∧ mine x ∧ x.dirty.isSome = true) ∨
      (∃ d, d ∈ s.map.dirs ∧ d.slot = slot ∧ d.nsid = n ∧ d.index = i ∧ d.dirty.isSome = true) →
      Next (.slotHandBack slot n i) s fun u => u = s)) ∧
  (∀ (n r : Nat) (x : Region) (s : State), findRegion s n r = some x →
    (x.marked = true → Next (.regionCoalesce n r) s fun u => u = { s with map := { s.map with regions := u.map.regions }, wr := u.wr } ∧
      findRegion u n r = some { x with marked := false } ∧ s.wr.exts <+: u.wr.exts ∧
      ∀ e, e ∈ u.wr.exts → e ∉ s.wr.exts → e.stream = .relocate ∧ 2 ≤ e.parts.length ∧
        ∀ p, p ∈ e.parts → ∃ y, y ∈ x.spans ∧ y.zero = false ∧ stale s n y = false ∧ p = (y.addr, y.seqLo)) ∧
    (x.marked = false → Next (.regionCoalesce n r) s fun u => u = s)) ∧
  (∀ (slot : Nat) (s : State), s.map.waiting = [] → Next (.mapReplayDone slot) s fun u =>
    u = { s with map := { s.map with replaying := u.map.replaying }, rcl := { s.rcl with censusDone := u.rcl.censusDone } } ∧
    (∀ k, k ∈ u.map.replaying ↔ k ∈ s.map.replaying ∧ k ≠ slot) ∧
    (u.map.replaying = [] → s.rcl.toCensus = [] → u.rcl.censusDone = s.red.groups.map (·.sg)) ∧
    (u.map.replaying ≠ [] ∨ s.rcl.toCensus ≠ [] → u.rcl.censusDone = s.rcl.censusDone))

/-- R30, R35, R52, R59, R64, R70, R74, R93, R110, R167, R182, R216, R218 to R220: the I/O commands, from admission on. It rests on
the log's entries 20, 23, 24, 25, 26, the model's own. -/
def Obligations.IoCommands : Prop :=
  (∀ (id : Nat) (c : Cmd) (st : Status) (s : State), findCmd s id = some c → c.phase = .admitted →
    (ioRefusal s c = some st ∨
      (ioRefusal s c = none ∧ lengthFault s c = some st ∧ (c.cap.op = .read ∨ c.cap.op = .write ∨ c.cap.op = .compare))) →
    (c.cap.op = .read → Next (.read id) s fun u => u = pump (finishCmd id st 0 s)) ∧
    (c.cap.op = .write → Next (.write id) s fun u => u = pump (finishCmd id st 0 s)) ∧
    (c.cap.op = .compare → Next (.compare id) s fun u => u = pump (finishCmd id st 0 s)) ∧
    (c.cap.op = .flush → Next (.flush id) s fun u => u = pump (finishCmd id st 0 s)) ∧
    (c.cap.op = .verify → Next (.verify id) s fun u => u = pump (finishCmd id st 0 s)) ∧
    (∀ b, c.cap.op = .writeZeroes b → Next (.writeZeroes id) s fun u => u = pump (finishCmd id st 0 s)) ∧
    (∀ b rs, c.cap.op = .datasetManagement b rs → Next (.datasetManagement id) s fun u => u = pump (finishCmd id st 0 s))) ∧
  (∀ (id : Nat) (c : Cmd) (s : State), findCmd s id = some c → c.phase = .admitted → c.cap.op = .read →
    ioRefusal s c = none → lengthFault s c = none →
    (reserveFor c s = none → Next (.read id) s fun u => u = pump s) ∧
    (∀ s1, reserveFor c s = some s1 → mayMap s1 c = true → 1 ≤ c.cap.nlb → Next (.read id) s fun u =>
      u = pump (updCmd id (fun c => { c with phase := .lookup, pieces := readPieces c.cap }) s1)) ∧
    (∀ s1, reserveFor c s = some s1 → mayMap s1 c = false → Next (.read id) s fun u => u = pump s1)) ∧
  (∀ (id : Nat) (c : Cmd) (s : State), findCmd s id = some c → c.phase = .admitted → c.cap.op = .verify →
    ioRefusal s c = none → 1 ≤ c.cap.nlb →
    (mayMap s c = true → Next (.verify id) s fun u =>
      u = pump (updCmd id (fun c => { c with phase := .lookup, pieces := readPieces c.cap }) s)) ∧
    (mayMap s c = false → Next (.verify id) s fun u => u = pump s)) ∧
  (∀ (id : Nat) (c : Cmd) (g : Eg) (s : State), findCmd s id = some c → c.phase = .admitted → c.cap.op = .write →
    ioRefusal s c = none → lengthFault s c = none → egOf s c.cap.nsid = some g →
    (g.stalemate = true → Next (.write id) s fun u => u = pump (finishCmd id .namespaceWriteProtected 0 s)) ∧
    (g.stalemate = false → writesHeld s g.id = true → Next (.write id) s fun u => u = pump s) ∧
    (g.stalemate = false → writesHeld s g.id = false → chargeWrite c s = none →
      Next (.write id) s fun u => u = pump (finishCmd id .capacityExceeded 0 s)) ∧
    (∀ s1 s2, g.stalemate = false → writesHeld s g.id = false → chargeWrite c s = some s1 → reserveFor c s1 = some s2 →
      Next (.write id) s fun u => u = pump (fetchData id s2)) ∧
    (∀ s1, g.stalemate = false → writesHeld s g.id = false → chargeWrite c s = some s1 → reserveFor c s1 = none →
      Next (.write id) s fun u => u = pump s)) ∧
  (∀ (id : Nat) (c : Cmd) (s : State), findCmd s id = some c → c.phase = .dataFetch → c.cap.op = .write →
    dataLen c.cap ≤ c.data.length → Next (.write id) s fun u => u = processWrite id s) ∧
  (∀ (id : Nat) (c : Cmd) (s : State), findCmd s id = some c → c.phase = .admitted → c.cap.op = .compare →
    ioRefusal s c = none → lengthFault s c = none →
    (reserveFor c s = none → Next (.compare id) s fun u => u = pump s) ∧
    ∀ s1, reserveFor c s = some s1 → Next (.compare id) s fun u => u = pump (fetchData id s1)) ∧
  (∀ (id : Nat) (c : Cmd) (s : State), findCmd s id = some c → c.phase = .admitted → c.cap.op = .flush →
    ioRefusal s c = none →
    (mayMap s c = false → Next (.flush id) s fun u => u = pump s) ∧
    (mayMap s c = true → s.plp.writeThrough = false → Next (.flush id) s fun u => u = pump (finishCmd id .success 0 s)) ∧
    (mayMap s c = true → s.plp.writeThrough = true → Next (.flush id) s fun u =>
      u = pump (drainPump (updCmd id (fun c => { c with phase := .draining, took := true }) s)))) ∧
  (∀ (cntlid q : Nat) (cap : Capsule) (s : State), cap.op = .flush →
    (q ∈ flushWaits s cntlid cap ↔ ∃ e, e ∈ s.wr.exts ∧ e.seq = q ∧ e.acked = true ∧ e.committed = false ∧
      flushScope s cntlid cap e.nsid = true)) ∧
  (∀ (id : Nat) (c : Cmd) (s : State), findCmd s id = some c → c.phase = .draining → c.cap.op = .flush →
    (flushReady s c = true ↔ ∀ q, q ∈ c.waitFor → ∀ e, e ∈ s.wr.exts → e.seq ≠ q)) ∧
  (∀ (id : Nat) (c : Cmd) (g : Eg) (b : Bool) (s : State), findCmd s id = some c → c.phase = .admitted →
    c.cap.op = .writeZeroes b → ioRefusal s c = none → egOf s c.cap.nsid = some g →
    (g.stalemate = true → Next (.writeZeroes id) s fun u => u = pump (finishCmd id .namespaceWriteProtected 0 s)) ∧
    (g.stalemate = false → b = false → chargeWrite c s = none →
      Next (.writeZeroes id) s fun u => u = pump (finishCmd id .capacityExceeded 0 s)) ∧
    (∀ s1 q s2, g.stalemate = false → b = false → chargeWrite c s = some s1 → takeSeqs c.tile 1 s1 = some ([q], s2) →
      Next (.writeZeroes id) s fun u =>
        u = pump (planMap c [{ lba := c.cap.slba, count := c.cap.nlb, seq := q, gen := slotGen s c.cap.nsid, kind := .zero }] s2)) ∧
    (g.stalemate = false → b = true → 1 ≤ c.cap.nlb → ((nsOf s c.cap.nsid).map (·.secure)).getD false = false →
      Next (.writeZeroes id) s fun u =>
        u = pump (planMap c [{ lba := c.cap.slba, count := c.cap.nlb, seq := 0, gen := 0, kind := .unmap }] s))) ∧
  (∀ (id : Nat) (c : Cmd) (rs : List (Nat × Nat)) (s : State), findCmd s id = some c → c.phase = .admitted →
    c.cap.op = .datasetManagement true rs → ioRefusal s c = none → lengthFault s c = none →
    let plan := (rs.filter fun r => r.2 != 0).map fun r => ({ lba := r.1, count := r.2, seq := 0, gen := 0, kind := .unmap } : Plan)
    (((nsOf s c.cap.nsid).map (·.secure)).getD false = false →
      Next (.datasetManagement id) s fun u => u = pump (planMap c plan s)) ∧
    (∀ s1, ((nsOf s c.cap.nsid).map (·.secure)).getD false = true → openSweep c rs s = some s1 →
      Next (.datasetManagement id) s fun u => u = pump (planMap c plan s1)) ∧
    (((nsOf s c.cap.nsid).map (·.secure)).getD false = true → openSweep c rs s = none →
      Next (.datasetManagement id) s fun u => u = pump s)) ∧
  (∀ (id : Nat) (c : Cmd) (rs : List (Nat × Nat)) (s : State), findCmd s id = some c → c.phase = .admitted →
    c.cap.op = .datasetManagement false rs → ioRefusal s c = none → lengthFault s c = none → mayMap s c = true →
    Next (.datasetManagement id) s fun u => u = pump (finishCmd id .success 0 s)) ∧
  (∀ (id : Nat) (s : State), (∀ c, findCmd s id = some c → c.phase ≠ .admitted ∧ c.phase ≠ .dataFetch) →
    (Next (.read id) s fun u => u = s) ∧ (Next (.write id) s fun u => u = s) ∧ (Next (.flush id) s fun u => u = s) ∧
    (Next (.compare id) s fun u => u = s) ∧ (Next (.verify id) s fun u => u = s) ∧
    (Next (.writeZeroes id) s fun u => u = s) ∧ Next (.datasetManagement id) s fun u => u = s)

/-- R34, R35, R179, R181, R184, R186: staging an extent and confirming its two copies. -/
def Obligations.StagingAndMirrors : Prop :=
  (∀ (q : Nat) (e : Ext) (s : State), findExt s q = some e →
    let others (u : State) : Prop := u = { s with wr := { s.wr with exts := u.wr.exts } } ∧ ∀ p, p ≠ q → findExt u p = findExt s p
    (e.stage = .sent → stagingRoom s (memberTile s e) e.len = true → Next (.extentStaged ⟨q, true⟩) s fun u => others u ∧
      findExt u q = some { e with
        stage := .member, mirrorTile := mirrorOf s (memberTile s e),
        inDram := decide (stageSram s (memberTile s e) < sramGrains s (memberTile s e) + e.len) }) ∧
    (e.stage = .sent → stagingRoom s (memberTile s e) e.len = false → Next (.extentStaged ⟨q, true⟩) s fun u => u = s) ∧
    (∀ c, e.stage = .sent → findCmd s e.cmd = some c → Next (.extentStaged ⟨q, false⟩) s fun u =>
      u = pump (finishCmd c.id (if keyLoaded s e.port (e.nsid - 1) then .internalError else .namespaceNotReady) 0 (dropStaging c s))) ∧
    (∀ ok, e.stage ≠ .sent → Next (.extentStaged ⟨q, ok⟩) s fun u => u = s) ∧
    (e.stage = .member → Next (.mirrorCopyReceived q) s fun u => others u ∧
      findExt u q = some { e with stage := .mirrored, mirrorHeld := true }) ∧
    (e.stage = .bothHeld ∨ e.stage = .confirmed → e.mirrorHeld = false → Next (.mirrorCopyReceived q) s fun u =>
      u = { s with wr := { s.wr with exts := u.wr.exts }, evr := u.evr } ∧
      findExt u q = some { e with mirrorHeld := true } ∧ ∀ p, p ≠ q → findExt u p = findExt s p) ∧
    (e.stage = .toPlace ∨ e.stage = .sent ∨ e.stage = .closed → Next (.mirrorCopyReceived q) s fun u => u = s) ∧
    (Next (.mirrorConfirm q) s fun u => others u ∧
      findExt u q = some (if e.stage = .mirrored then { e with stage := .bothHeld } else e)) ∧
    (e.stage = .bothHeld → Next (.stageConfirm q) s fun u =>
      u = goMap e.cmd (closeRow e.sg e.band e.row (updExt q (fun e => { e with stage := .confirmed }) s))) ∧
    (e.stage ≠ .bothHeld → Next (.stageConfirm q) s fun u => u = s)) ∧
  (∀ (q : Nat) (s : State), findExt s q = none → (∀ ok, Next (.extentStaged ⟨q, ok⟩) s fun u => u = s) ∧
    (Next (.mirrorCopyReceived q) s fun u => u = s) ∧ Next (.stageConfirm q) s fun u => u = s) ∧
  (∀ (id : Nat) (c : Cmd) (s : State), findCmd s id = some c → c.phase = .staging → allStaged s c = true → mayMap s c = true →
    planRegions s c.cap.nsid c.plan ≠ [] → ∃ us, goMap id s = updCmd id (fun c => { c with phase := .mapping, updates := us }) s ∧
      us.map (·.region) = planRegions s c.cap.nsid c.plan ∧
      ∀ v, v ∈ us → v.applied = false ∧ v.mirrored = false ∧ v.ownerOk = false ∧ v.mirrorOk = false)

/-- R173 to R178, R185, R190, R195, R243, R267, R268: the rows of a stripe group. It rests on the log's entries 33, 38, the
model's own. -/
def Obligations.RowsOfAGroup : Prop :=
  (∀ (t sg : Nat) (st : Stream) (blank : List Nat) (r : Row) (v : RUnit) (s : State), fillingRow s sg st = some r →
    nextUnit r = some v → (heldUnits s t st).length < 2 → (∀ x, x ∈ heldUnits s t st → x.1.sg ≠ sg) →
    s.tfld t .plc_cfg_plc_enable = 1 → (hostOnly st = true → hostGroup s sg = true) →
    Next (.reservationRequest t sg st blank) s fun u => ∃ a : List Nat, (∀ g, g ∈ a ↔ g ∈ s.wr.active ∨ (hostOnly st = true ∧ g = sg)) ∧
      u = placeWaiting t (updRow sg r.band r.idx (fun r => { r with units := r.units.map fun w =>
        if w.member == v.member then { w with holder := some t } else w }) { s with wr := { s.wr with active := a } })) ∧
  (∀ (t sg : Nat) (st : Stream) (blank : List Nat) (s : State), 2 ≤ (heldUnits s t st).length ∨
    s.tfld t .plc_cfg_plc_enable ≠ 1 ∨ (hostOnly st = true ∧ hostGroup s sg = false) →
    Next (.reservationRequest t sg st blank) s fun u => u = s) ∧
  (∀ (t sg m : Nat) (st : Stream) (r : Row) (s : State), fillingRow s sg st = some r →
    ((∃ v, v ∈ r.units ∧ v.member = m ∧ v.holder = some t ∧ v.returned = false) → Next (.unitReturn t sg st m) s fun u =>
      u = closeRow sg r.band r.idx (updRow sg r.band r.idx (fun r => { r with units := r.units.map fun v =>
        if v.member == m then { v with returned := true, holder := none } else v }) s)) ∧
    (r.timer = true → Next (.rowTimerExpiry sg st) s fun u =>
      u = closeRow sg r.band r.idx (updRow sg r.band r.idx (fun r => { r with
        expired := true, units := r.units.map fun v => { v with recalled := v.holder.isSome } }) s)) ∧
    (r.timer = false → Next (.rowTimerExpiry sg st) s fun u => u = s)) ∧
  (∀ (t sg m : Nat) (st : Stream) (s : State), fillingRow s sg st = none →
    (Next (.unitReturn t sg st m) s fun u => u = s) ∧ Next (.rowTimerExpiry sg st) s fun u => u = s) ∧
  (∀ (sg b i : Nat) (r : Row) (s : State), findRow s sg b i = some r →
    (r.state = .filling → (r.expired = true ∨ ∀ v, v ∈ r.units → v.returned = true) → rowSettled s r = true →
      findRow (closeRow sg b i s) sg b i = some { r with
        state := .closed, closedMin := s.island.minutes, units := r.units.map fun v => { v with returned := true } }) ∧
    (r.state ≠ .filling ∨ rowSettled s r = false ∨ (r.expired = false ∧ ∃ v, v ∈ r.units ∧ v.returned = false) →
      closeRow sg b i s = s)) ∧
  (∀ (sg b i m : Nat) (r : Row) (s : State), findRow s sg b i = some r → let d := rowUnit s r m
    (r.state = .closed → m ∉ r.parity → m < dataUnits s sg → r.parity.length + 1 < dataUnits s sg →
      Next (.parityUnitReceived sg b i m d) s fun u => u = { s with wr := { s.wr with rows := u.wr.rows } } ∧
        findRow u sg b i = some { r with
          parity := r.parity ++ [m], pBytes := xorBytes r.pBytes d, qBytes := xorBytes r.qBytes (scaleBytes (gfPow m) d),
          fps := r.fps ++ [(m, crc64 d)] }) ∧
    (r.state = .closed → m ∉ r.parity → m < dataUnits s sg → r.parity.length + 1 = dataUnits s sg →
      Next (.parityUnitReceived sg b i m d) s fun u => u = startPrograms sg b i (updRow sg b i (fun r => { r with
          parity := r.parity ++ [m], pBytes := xorBytes r.pBytes d, qBytes := xorBytes r.qBytes (scaleBytes (gfPow m) d),
          fps := r.fps ++ [(m, crc64 d)] }) s)) ∧
    (∀ e, r.state ≠ .closed ∨ m ∈ r.parity ∨ dataUnits s sg ≤ m ∨ e ≠ d → Next (.parityUnitReceived sg b i m e) s fun u => u = s)) ∧
  (∀ (sg b i : Nat) (r : Row) (x : Band) (s : State), findRow s sg b i = some r → findBand s sg b = some x →
    (r.state = .programming → membersDone s r = true → r.settled = true → Next (.rowProgramDone sg b i) s fun u =>
      (∀ q, q ∈ u.wr.rows → isRow sg b i q = false) ∧ (findBand u sg b).map (·.rows) = some (x.rows + 1) ∧
      (x.rows + 1 = rowsPerBand s → x.state = .open → ∃ y, findBand u sg b = some y ∧ (y.state = .sealed ∨ y.state = .reclaiming)) ∧
      ∀ e, e ∈ s.wr.exts → e.sg = sg → e.band = b → e.row = i → e.stage ≠ .toPlace →
        ∃ f, f ∈ u.rcl.flash ∧ f.addr = e.addr ∧ f.seq = e.seq ∧ f.nsid = e.nsid ∧ f.plain = e.plain ∧ f.member = e.member) ∧
    (r.state ≠ .programming ∨ membersDone s r = false ∨ r.settled = false → Next (.rowProgramDone sg b i) s fun u => u = s)) ∧
  (∀ (sg b i m : Nat) (r : Row) (x : Band) (s : State), findRow s sg b i = some r → findBand s sg b = some x →
    (r.state = .programming → Next (.programFailure sg b i m) s fun u =>
      (∀ q, q ∈ u.wr.rows → q.sg = sg → q.band = b → q.idx < i) ∧
      (∀ e, e ∈ u.wr.exts → e.sg = sg → e.band = b → i ≤ e.row → e.stage = .toPlace ∨ e.stage = .closed) ∧
      (∃ y, findBand u sg b = some y ∧ m ∈ y.retireMembers ∧ y.early = true) ∧ u.host.cmds = s.host.cmds ∧
      { ev := .progFail, tile := tileOfDie (servingAt s sg b m).1, params := [(servingAt s sg b m).1, (servingAt s sg b m).2] } ∈ u.evr.raised) ∧
    (r.state ≠ .programming → Next (.programFailure sg b i m) s fun u => u = s)) ∧
  (∀ (sg : Nat) (st : Stream) (b : Band) (s : State),
    (∃ r, r ∈ s.wr.rows ∧ r.sg = sg ∧ r.stream = st ∧ r.state = .programming ∧ r.settled = false) →
    fillingRow s sg st = none → openBand s sg st = some b → findBand s sg b.idx = some b → b.nextRow < rowsPerBand s →
    findRow s sg b.idx b.nextRow = none → (∀ e, e ∈ s.wr.exts → e.sg = sg → e.band = b.idx → e.row ≠ b.nextRow) →
    Next (.seqPadTimer sg st) s fun u => ∃ r, findRow u sg b.idx b.nextRow = some r ∧ r.state = .closed ∧ r.stream = st ∧
      (∀ v, v ∈ r.units → v.returned = true ∧ v.used = 0) ∧
      findBand u sg b.idx = some { b with nextRow := b.nextRow + 1 } ∧
      u = { s with regs := u.regs, wr := { s.wr with rows := u.wr.rows }, rcl := { s.rcl with bands := u.rcl.bands }, red := u.red }) ∧
  (∀ (sg : Nat) (st : Stream) (s : State),
    (∀ r, r ∈ s.wr.rows → r.sg = sg → r.stream = st → r.state = .programming → r.settled = true) ∨
      (fillingRow s sg st).isSome = true ∨ openBand s sg st = none → Next (.seqPadTimer sg st) s fun u => u = s)

/-- R110, R172, R187 to R189, R211: leases, the SLC buffer and promotion. It rests on the log's entry 92, the model's own. -/
def Obligations.LeasesAndPromotion : Prop :=
  (∀ (t : Nat) (s : State), let l := seqLease s t
    (l.more = none → l.last ≤ l.next + 2048 → Next (.writeSequenceLease t) s fun u =>
      u = { s with wr := { s.wr with leases := u.wr.leases, seqNext := s.wr.seqNext + 4096, seqMark := u.wr.seqMark } } ∧
      seqLease u t = (if l.next = l.last then { tile := t, next := s.wr.seqNext, last := s.wr.seqNext + 4096, more := none }
        else { l with more := some s.wr.seqNext }) ∧ (∀ k, k ≠ t → seqLease u k = seqLease s k) ∧
      u.wr.seqMark = (if s.wr.seqMark < s.wr.seqNext + 4096 then s.wr.seqMark + 2 ^ 20 else s.wr.seqMark) ∧
      (s.wr.seqNext ≤ s.wr.seqMark → u.wr.seqNext ≤ u.wr.seqMark)) ∧
    (l.more.isSome = true ∨ l.next + 2048 < l.last → Next (.writeSequenceLease t) s fun u => u = s)) ∧
  (∀ (t n : Nat) (x : Ns) (s : State), nsOf s n = some x →
    (8 * 65536 ≤ headroom s n → Next (.headroomLeaseRequest t n) s fun u =>
      u = { s with reg := { s.reg with leases := u.reg.leases } } ∧ leaseLeft u t n = leaseLeft s t n + 65536 ∧
      ∀ k m, k ≠ t ∨ m ≠ n → leaseLeft u k m = leaseLeft s k m) ∧
    (headroom s n < 8 * 65536 → Next (.headroomLeaseRequest t n) s fun u =>
      u = { s with reg := { s.reg with leases := u.reg.leases } } ∧
      leaseLeft u t n = min 256 (headroom (recallLeases n s) n) ∧ (∀ k, k ≠ t → leaseLeft u k n = 0) ∧
      ∀ k m, m ≠ n → leaseLeft u k m = leaseLeft s k m)) ∧
  (∀ (t n : Nat) (s : State), nsOf s n = none → Next (.headroomLeaseRequest t n) s fun u => u = s) ∧
  (∀ (s : State), Next .slcBufferRecompute s fun u => u = { s with reg := { s.reg with egs := u.reg.egs } } ∧
    ∀ id g, findEg s id = some g → findEg u id = some { g with
      slcBuffer := slcShare (fillPermille s g),
      slcClosed := slcOver s g (slcShare (fillPermille s g)) ||
        decide (s.tfld s.mgmt.primary .plc_slc_cfg_slc_direct_pct ≤ slcOccupancy s g) ||
        (g.slcClosed && !decide (slcOccupancy s g < s.tfld s.mgmt.primary .plc_slc_cfg_slc_resume_pct))
      idlePromo := decide (slcOccupancy s g ≤ s.tfld s.mgmt.primary .plc_slc_cfg_promote_start_pct) }) ∧
  (∀ (f : Nat), 50 ≤ slcShare f ∧ slcShare f ≤ 600) ∧
  (∀ (sg : Nat) (b : Band) (s : State), oldestSlcBand s sg = some b → findBand s sg b.idx = some b →
    (∀ x, x ∈ s.red.substs → x.sg = sg → x.band = b.idx → x.done = true) →
    Next (.promotionStart sg) s fun u => u = { s with rcl := { s.rcl with bands := u.rcl.bands } } ∧
      (∃ l, List.Perm l (bandExtents s sg b.idx) ∧ findBand u sg b.idx = some { b with
        state := .reclaiming, why := some .promotion, committed := false, erased := [], toScan := l.map (·.addr) }) ∧
      ∀ g i, g ≠ sg ∨ i ≠ b.idx → findBand u g i = findBand s g i) ∧
  (∀ (sg : Nat) (s : State), oldestSlcBand s sg = none → Next (.promotionStart sg) s fun u => u = s)

/-- R230, R232, R236 to R239, R257, R525: the channels of a tile, from training to rate changes. It rests on the log's entries 37,
89, the model's own. -/
def Obligations.ChannelTraining : Prop :=
  (∀ (t v : Nat) (s : State), t ≠ pkgWin → regOpen s t = true → bitOf v 0 = true → s.tfld t .med_cfg_med_enable = 0 →
    let s0 := writeCfg t .medCfg (v - 1) s
    let s1 := setT t .med_cfg_med_enable 1 s0
    (orderHolds s0 t .med_cfg_med_enable = false →
      Next (.medEnable t v) s fun u => u = reject (winTile t) (bar0 t 0 .medCfg) 7 s0) ∧
    (orderHolds s0 t .med_cfg_med_enable = true → descOk s0 t = false ∨ descSame s0 t = false →
      Next (.medEnable t v) s fun u => u = reject (winTile t) (bar0 t 0 .medCfg) 9 (setT t .med_status_desc_mismatch 1 s0)) ∧
    (orderHolds s0 t .med_cfg_med_enable = true → descOk s0 t = true → descSame s0 t = true →
      Next (.medEnable t v) s fun u => u = { s1 with media := { s1.media with chans := u.media.chans } } ∧
        (∀ c, c < 8 → ∃ x, findChan u (8 * t + c) = some x ∧
          ((s.fld t c .med_ch_cfg_topology = 2 ∨ bitsSet 32 (s.fld t c .med_ch_vols_vols_present) = []) →
            x.state = .off ∧ x.step = 0 ∧ x.rate = 0) ∧
          (s.fld t c .med_ch_cfg_topology ≠ 2 → bitsSet 32 (s.fld t c .med_ch_vols_vols_present) ≠ [] →
            x.state = .training ∧ x.step = 1 ∧ x.rate = rateLimit s1 t c ∧ x.limit = rateLimit s1 t c)) ∧
        ∀ c, c < 8 * t ∨ 8 * t + 8 ≤ c → findChan u c = findChan s c)) ∧
  (∀ (c : Nat) (ok : Bool) (found unexpected : List Nat) (bad : List (Nat × Nat)) (x : Chan) (s : State),
    findChan s c = some x →
    (x.state ≠ .training → Next (.channelTrainingStep c ok found unexpected bad) s fun u => u = s) ∧
    (x.state = .training → x.rate ≤ 1 → Next (.channelTrainingStep c false found unexpected bad) s fun u => u = failChannel c s) ∧
    (x.state = .training → 1 < x.rate → Next (.channelTrainingStep c false found unexpected bad) s fun u =>
      u = { s with media := { s.media with chans := u.media.chans } } ∧
      findChan u c = some { x with rate := x.rate - 1, step := 5 } ∧ ∀ k, k ≠ c → findChan u k = findChan s k) ∧
    (x.state = .training → x.step < 6 → x.step ≠ 2 → Next (.channelTrainingStep c true found unexpected bad) s fun u =>
      u = formIfReady (updChan c (fun x => { x with step := x.step + 1 }) s)) ∧
    (x.state = .training → x.step = 2 → Next (.channelTrainingStep c true found unexpected bad) s fun u =>
      u = formIfReady (updChan c (fun x => { x with step := x.step + 1 }) (discover c found unexpected bad s))) ∧
    (x.state = .training → x.step = 6 → Next (.channelTrainingStep c true found unexpected bad) s fun u =>
      let s2 := updChan c (fun x => { x with state := .up, step := 7, bursts := x.loads.map fun l => (l, s.nowMs) }) s
      u = archiveCheck (((s2.media.dies.filter fun d => chanOfDie d.die == c).map (·.die)).foldl (fun s d => dispatch d s)
        (formIfReady s2)))) ∧
  (∀ (c margin l : Nat) (x : Chan) (s : State), findChan s c = some x → x.state = .up →
    (x.loads[x.turn % max 1 x.loads.length]? = some l → Next (.trainingBurst c margin) s fun u =>
      u = { s with media := { s.media with chans := u.media.chans } } ∧ findChan u c = some { x with
        turn := x.turn + 1, margin := margin, bursts := (x.bursts.filter fun b => b.1 != l) ++ [(l, s.nowMs)] }) ∧
    (∀ at_, (x.bursts.find? fun b => b.1 == l) = some (l, at_) →
      (at_ + 4 * s.tfld (c / 8) .med_track_track_ms ≤ s.nowMs → Next (.trackingBurstDue c l margin) s fun u =>
        u = { s with media := { s.media with chans := u.media.chans } } ∧ findChan u c = some { x with
          margin := margin, bursts := (x.bursts.filter fun b => b.1 != l) ++ [(l, s.nowMs)] }) ∧
      (s.nowMs < at_ + 4 * s.tfld (c / 8) .med_track_track_ms → Next (.trackingBurstDue c l margin) s fun u => u = s))) ∧
  (∀ (c margin l : Nat) (x : Chan) (s : State), findChan s c = some x → x.state ≠ .up →
    (Next (.trainingBurst c margin) s fun u => u = s) ∧ Next (.trackingBurstDue c l margin) s fun u => u = s) ∧
  (∀ (c : Nat) (trained : Bool) (x : Chan) (s : State), findChan s c = some x →
    (x.state = .up ∨ x.state = .stepping → 1 < x.rate → Next (.chRateDown c trained) s fun u =>
      let recent := (x.downAt.filter fun m => s.nowMs < m + 86400000) ++ [s.nowMs]
      u = { s with regs := u.regs, media := u.media, evr := u.evr } ∧ findChan u c = some { x with
        rate := x.rate - 1, downAt := recent, lastDown := s.nowMs, pinned := x.pinned || decide (3 ≤ recent.length),
        state := if trained then .up else .stepping } ∧
      Logs .chRateDown (c / 8) [c, x.rate - 1, x.margin] s u ∧ OnlyFields [(c / 8, c % 8, .med_ch_status_rate_downs)] s u) ∧
    (x.state = .up ∨ x.state = .stepping → x.rate ≤ 1 →
      (Next (.chRateDown c true) s fun u => u = s) ∧ Next (.chRateDown c false) s fun u => u = failChannel c s) ∧
    (x.state ≠ .up → x.state ≠ .stepping → Next (.chRateDown c trained) s fun u => u = s) ∧
    (x.state = .up → x.pinned = false → x.rate < x.limit → x.lastDown + 3600000 ≤ s.nowMs →
      Next (.chRateUp c true) s fun u => u = { s with media := { s.media with chans := u.media.chans }, evr := u.evr } ∧
        findChan u c = some { x with rate := x.rate + 1 } ∧ Logs .chRateUp (c / 8) [c, x.rate + 1] s u) ∧
    (x.state ≠ .up ∨ x.pinned = true ∨ x.limit ≤ x.rate ∨ s.nowMs < x.lastDown + 3600000 →
      ∀ holds, Next (.chRateUp c holds) s fun u => u = s))

/-- R84, R86, R87, R242, R243, R246 to R248, R252, R254 to R257, R269 to R272, R280: the ends of die operations and the decode
ladder. It rests on the log's entries 34, 35, the model's own. -/
def Obligations.DieOperations : Prop :=
  (∀ (o : Nat) (x : DieOp) (s : State), findOp s o = some x →
    let read := updBlk x.die (servedFrom s x.addr).2 (fun k => { k with reads := k.reads + 1 }) (updOp o (fun x => { x with
      reads := x.reads - 1, waited := false, state := if 1 < x.reads then .waiting else .toDecode }) s)
    (x.kind = .read → x.state = .active → x.use = .plain ∨ x.use = .copy → Next (.nandReadDone o) s fun u =>
      u = codecTake (tileOfDie x.die) (endArray x read)) ∧
    (∀ k, x.kind = .read → x.state = .active → x.use = .recon k → Next (.nandReadDone o) s fun u => u = endArray x (dropOp o read)) ∧
    (x.kind ≠ .read ∨ x.state ≠ .active → Next (.nandReadDone o) s fun u => u = s) ∧
    (x.kind = .read → x.state = .waiting → hostCls x.cls = true →
      1000 * x.since + s.tfld (tileOfDie x.die) .qe_suspend_wait_host_suspend_wait ≤ 1000 * s.nowMs + 999 →
      Next (.suspendWaitExpiry o) s fun u =>
        u = trySuspend x.die (dispatch x.die (updOp o (fun x => { x with waited := true }) s))) ∧
    (x.kind ≠ .read ∨ x.state ≠ .waiting ∨ hostCls x.cls = false → Next (.suspendWaitExpiry o) s fun u => u = s)) ∧
  (∀ (o : Nat) (words : List (Bytes × Option Bytes)) (levels : List (Nat × Nat × Nat)) (s : State),
    (∀ x, findOp s o = some x → x.state = .decoding → Next (.ldpcDecodeDone o words levels) s fun u =>
      u = codecTake (tileOfDie x.die) (decodeEnds x words levels s)) ∧
    ((∀ x, findOp s o = some x → x.state ≠ .decoding) → Next (.ldpcDecodeDone o words levels) s fun u => u = s)) ∧
  (∀ (x : DieOp) (words : List (Bytes × Option Bytes)) (levels : List (Nat × Nat × Nat)) (s : State),
    let t := tileOfDie x.die
    let c : Fld := if x.step = 1 then .ldpc_hard_count else if x.step = 2 then .ldpc_retry_count else .ldpc_soft_count
    let ends (p : Nat × Nat) (e : CwEnd) : Prop := ∃ w, words[p.2]? = some w ∧ cwEnd (firstWord s x + 16 * p.1) w = e
    ((∀ p, p ∈ x.left.zipIdx → ∃ g, ends p (.accepted g)) → headerless s x = false → countedLost s x = false →
      decodeEnds x words levels s = deliver x false (levels.foldl (fun s l => levelReport x.die (ageBin s x) l s)
        (addT t c x.left.length s))) ∧
    ((∀ p, p ∈ x.left.zipIdx → ∃ g, ends p (.accepted g)) → headerless s x = false → countedLost s x = true →
      decodeEnds x words levels s = toRecon x.id (addT t c x.left.length s)) ∧
    ((∃ p, p ∈ x.left.zipIdx ∧ ends p .erased) → ∃ n,
      decodeEnds x words levels s = countLife 0 (bump t .ldpc_fail_count (toRecon x.id (addT t c n s)))) ∧
    ((∀ p, p ∈ x.left.zipIdx → ¬ ends p .erased) → headerless s x = false →
      (∃ p, p ∈ x.left.zipIdx ∧ ends p .failed) → ∃ l n, (∀ p, p ∈ x.left.zipIdx → ends p .failed → p.1 ∈ l) ∧ l ≠ [] ∧
        decodeEnds x words levels s = nextStep { x with left := l } (updOp x.id (fun o => { o with left := l }) (addT t c n s)))) ∧
  (∀ (addr : Nat) (raw : Bytes), cwEnd addr (raw, none) = if cwErased raw then .erased else .failed) ∧
  (∀ (x : DieOp) (s : State),
    let t := tileOfDie x.die
    let retries := min (s.tfld t .ldpc_cfg_retry_max) (descByte s t 26)
    let again (f : DieOp → DieOp) : State := trySuspend x.die (dispatch x.die
      (updOp x.id (fun o => { f o with state := .waiting, since := s.nowMs }) s))
    (x.step ≤ 2 → x.tries < retries → nextStep x s = again fun o => { o with step := 2, tries := o.tries + 1, reads := 1 }) ∧
    (x.step ≤ 2 → retries ≤ x.tries → nextStep x s = again fun o => { o with step := 3, reads := 2 }) ∧
    (x.step = 3 → s.tfld t .ldpc_cfg_soft_bits = 3 → nextStep x s = again fun o => { o with step := 4, reads := 2 }) ∧
    (4 ≤ x.step ∨ (x.step = 3 ∧ s.tfld t .ldpc_cfg_soft_bits ≠ 3) →
      nextStep x s = noteUncorr x (countLife 0 (addT t .ldpc_fail_count x.left.length (toRecon x.id s))))) ∧
  (∀ (o : Nat) (lost : List Nat) (data : Bytes) (x : DieOp) (s : State), findOp s o = some x →
    (x.state ≠ .recon ∨ reconRead s o = false → Next (.reconstructionDone o lost data) s fun u => u = s) ∧
    (x.state = .recon → reconRead s o = true → x.use = .plain →
      let away := (findGroup s x.sg).any fun g => g.state == .unavailable
      (away = true → Next (.reconstructionDone o lost data) s fun u => u = finishCmd x.cmd .namespaceNotReady 0 (dropOp x.id s)) ∧
      (away = false → (∀ n, n ∈ lost → n ≤ 2) → reconPasses s x data = true → Next (.reconstructionDone o lost data) s fun u =>
        u = deliver x true (bump (if tileUp s (tileOfDie x.die) then tileOfDie x.die else leaderTile s x.sg) .red_recon_count s)) ∧
      (away = false → (∀ n, n ∈ lost → n ≤ 2) → reconPasses s x data = false → Next (.reconstructionDone o lost data) s fun u =>
        u = finishCmd x.cmd .unrecoveredReadError 0 (dropOp x.id s)) ∧
      (away = false → (∃ n, n ∈ lost ∧ 3 ≤ n) → Next (.reconstructionDone o lost data) s fun u =>
        u = finishCmd x.cmd .unrecoveredReadError 0 (dropOp x.id (loseSlots x lost s)))) ∧
    (x.state = .recon → reconRead s o = true → x.use = .rebuild → Next (.reconstructionDone o lost data) s fun u =>
      u = rebuiltUnit x data (loseSlots x lost s))) ∧
  (∀ (o : Nat) (lost : List Nat) (data : Bytes) (s : State), findOp s o = none →
    Next (.reconstructionDone o lost data) s fun u => u = s) ∧
  (∀ (x : DieOp) (lost : List Nat) (k n : Nat) (s : State), lost[k]? = some n → 3 ≤ n →
    { sg := x.sg, band := x.band, row := x.row, member := x.member, cw := cwOf (firstWord s x + 16 * k), dead := true }
      ∈ (loseSlots x lost s).red.lostSlots) ∧
  (∀ (sg b i m : Nat) (final : Bool) (r : Row) (o : DieOp) (s : State), findRow s sg b i = some r → r.state = .programming →
    m < memberCount s sg → m ∉ r.done → (s.media.ops.find? fun o => o.kind == .program && o.sg == sg && o.band == b &&
      o.row == i && o.member == m && o.fine == final) = some o →
    Next (.nandProgramDone sg b i m final) s fun u =>
      u = startClosed (issuePasses sg b (settleRows sg b (endArray o (dropOp o.id (updRow sg b i (fun r =>
        if final then { r with done := r.done ++ [m] } else { r with coarse := r.coarse ++ [m] }) s)))))) ∧
  (∀ (sg b i m : Nat) (final : Bool) (r : Row) (s : State), findRow s sg b i = some r → r.state ≠ .programming ∨ m ∈ r.done →
    Next (.nandProgramDone sg b i m final) s fun u => u = s) ∧
  (∀ (d us : Nat) (o : DieOp) (s : State), ((opsOf s d).find? fun o => o.state == .suspending) = some o →
    (us ≤ 2 * descHalf s 0 22 → Next (.nandSuspendDone d us) s fun u =>
      u = dispatch d (updOp o.id (fun o => { o with state := .suspended }) s)) ∧
    (2 * descHalf s 0 22 < us → Next (.nandSuspendDone d us) s fun u => u = { s with media := u.media, evr := u.evr } ∧
      Logs .suspendSlow (tileOfDie d) [d, blockOf o.addr, us] s u)) ∧
  (∀ (d us : Nat) (s : State), (∀ o, o ∈ opsOf s d → o.state ≠ .suspending) → Next (.nandSuspendDone d us) s fun u => u = s) ∧
  (∀ (d : Nat) (s : State), Next (.resumeMinExpiry d) s fun u =>
    u = trySuspend d (updDie d (fun x => { x with resumed := false }) s) ∧ u = { s with media := u.media }) ∧
  (∀ (d : Nat) (x : Die) (s : State), findDie s d = some x →
    (x.failed = false → (∃ o, o ∈ opsOf s d ∧ (o.state = .active ∨ o.state = .suspending)) →
      (x.notReady = true → Next (.dieReadyTimeout d) s fun u => u = failDie 0 d s) ∧
      (x.notReady = false → Next (.dieReadyTimeout d) s fun u => u = { s with media := { s.media with dies := u.media.dies } } ∧
        findDie u d = some { x with notReady := true } ∧ ∀ k, k ≠ d → findDie u k = findDie s k)) ∧
    (x.failed = true ∨ (∀ o, o ∈ opsOf s d → o.state ≠ .active ∧ o.state ≠ .suspending) →
      Next (.dieReadyTimeout d) s fun u => u = s))

/-- R256, R258 to R260, R273: patrol, read disturb and read levels. It rests on the log's entry 34, the model's own. -/
def Obligations.PatrolAndDisturb : Prop :=
  (∀ (d blk page : Nat) (w : PatrolWorst) (x : Die) (s : State), s.tfld (tileOfDie d) .med_cfg_patrol_en = 1 →
    dieServes s d = true → patrolled s d blk page = true → findDie s d = some x → w ≠ .uncorrectable false →
    ((bandOfBlock s d blk).isSome = true → Next (.patrolRead d blk page w) s fun u =>
      (findDie u d).map (fun y => (y.patrolBlock, y.patrolPage)) = some (blk, page) ∧
      (d, blk) ∉ u.media.patrolNow ∧ u.wr = s.wr ∧ u.map = s.map) ∧
    (bandOfBlock s d blk = none →
      (w = .retried ∨ (∃ n, w = .hard n) → Next (.patrolRead d blk page w) s fun u =>
        u = { s with regs := u.regs, media := u.media, clock := u.clock } ∧ u.media.refresh = s.media.refresh) ∧
      (Next (.patrolRead d blk page .soft) s fun u =>
        u = { s with regs := u.regs, media := u.media, clock := u.clock, evr := u.evr } ∧
        u.media.refresh = s.media.refresh ∧ Logs .mediaMargin (tileOfDie d) [d, blk, page] s u)) ∧
    ∀ b m, bandOfBlock s d blk = some (b, m) →
      (∀ n, n ≤ s.tfld (tileOfDie d) .med_patrol_refresh_bits → Next (.patrolRead d blk page (.hard n)) s fun u =>
        u = { s with regs := u.regs, media := u.media, clock := u.clock } ∧ u.media.refresh = s.media.refresh) ∧
      (∀ n, s.tfld (tileOfDie d) .med_patrol_refresh_bits < n → Next (.patrolRead d blk page (.hard n)) s fun u =>
        u = { s with regs := u.regs, media := u.media, clock := u.clock, red := u.red } ∧ (b.sg, b.idx) ∈ u.media.refresh) ∧
      (Next (.patrolRead d blk page .retried) s fun u =>
        u = { s with regs := u.regs, media := u.media, clock := u.clock, red := u.red } ∧ (b.sg, b.idx) ∈ u.media.refresh) ∧
      (Next (.patrolRead d blk page .soft) s fun u =>
        u = { s with regs := u.regs, media := u.media, clock := u.clock, red := u.red, evr := u.evr } ∧
        (b.sg, b.idx) ∈ u.media.refresh ∧ Logs .mediaMargin (tileOfDie d) [d, blk, page] s u) ∧
      (Next (.patrolRead d blk page (.uncorrectable true)) s fun u =>
        u = { s with regs := u.regs, media := u.media, clock := u.clock, red := u.red, rcl := u.rcl, evr := u.evr } ∧
        (b.sg, b.idx) ∈ u.media.refresh ∧ Logs .patrolUncorr (tileOfDie d) [d, blk, page] s u ∧
        (∀ k, findBlk u d blk = some k → k.retire = true) ∧
        ∀ y, findBand u b.sg b.idx = some y → m ∈ y.retireMembers)) ∧
  (∀ (d blk page : Nat) (w : PatrolWorst) (s : State), s.tfld (tileOfDie d) .med_cfg_patrol_en ≠ 1 ∨ dieServes s d = false ∨
      patrolled s d blk page = false → Next (.patrolRead d blk page w) s fun u => u = s) ∧
  (∀ (d blk : Nat) (k : Blk) (s : State), findBlk s d blk = some k →
    (1000 * s.tfld (tileOfDie d) .med_disturb_disturb_k ≤ k.reads → Next (.disturbLimit d blk) s fun u =>
      u = { s with rcl := { s.rcl with blocks := u.rcl.blocks }, media := { s.media with patrolNow := u.media.patrolNow } } ∧
      findBlk u d blk = some { k with reads := 0 } ∧ (d, blk) ∈ u.media.patrolNow) ∧
    (k.reads < 1000 * s.tfld (tileOfDie d) .med_disturb_disturb_k → Next (.disturbLimit d blk) s fun u => u = s)) ∧
  (∀ (t : Nat) (s : State), Next (.readLevelSave t) s fun u =>
    u = { s with media := { s.media with saved := u.media.saved } } ∧
    (∀ l, tileOfDie l.die = t → (l ∈ u.media.saved ↔ l ∈ s.media.levels)) ∧
    ∀ l, tileOfDie l.die ≠ t → (l ∈ u.media.saved ↔ l ∈ s.media.saved))

/-- R195, R199 to R205, R208 to R213, R216, R217, R227, R259: reclaim, from the choice of a victim to the erased band. It rests on
the log's entries 32, 36, the model's own. -/
def Obligations.ReclaimCycle : Prop :=
  (∀ (s : State), Next .reclaimRescore s fun u =>
    let s1 := (s.red.groups.map (·.sg)).foldl (fun s g => mapReclaimStep g (castleStep g (reclaimStep g s))) s
    u = s1.reg.egs.foldl (fun s g => stalemateEnter g (mapBandCheck g s)) s1) ∧
  (∀ (sg : Nat) (b : Band) (s : State), s.tfld (leaderTile s sg) .rcl_cfg_rcl_enable = 1 →
    (∀ x, x ∈ groupBands s sg → x.state ≠ .reclaiming) → (∀ x, x ∈ s.rcl.bands → x.sg = sg → x.why ≠ some .idle) →
    findBand s sg b.idx = some b → (∀ x, x ∈ s.red.substs → x.sg = sg → x.band = b.idx → x.done = true) →
    let started (w : Why) : Prop := reclaimStep sg s = { s with rcl := { s.rcl with bands := (reclaimStep sg s).rcl.bands } } ∧
      ∃ l, List.Perm l (bandExtents s sg b.idx) ∧ findBand (reclaimStep sg s) sg b.idx = some { b with
        state := .reclaiming, why := some w, committed := false, erased := [], toScan := l.map (·.addr) }
    (urgentBand s sg = some b → b ∈ groupBands s sg ∧ b.state = .sealed ∧ (b.retireMembers ≠ [] ∨ (sg, b.idx) ∈ s.media.refresh) ∧
      started (if b.retireMembers.isEmpty then .refresh else .reclaim)) ∧
    (urgentBand s sg = none → victim s sg = some b →
      (freeBands s sg).length < reserveOf s sg + s.tfld (leaderTile s sg) .rcl_thresh_rcl_start_bands →
      b ∈ groupBands s sg ∧ b.state = .sealed ∧ b.slc = false ∧ validPermille s b < 970 ∧ started .reclaim)) ∧
  (∀ (g : Eg) (s : State), (g.stalemate = true ∨ inStalemate s g = false → stalemateEnter g s = s) ∧
    (g.stalemate = false → inStalemate s g = true → ∀ k x, findEg s k = some x → ∃ y, findEg (stalemateEnter g s) k = some y ∧
      y = if k = g.id then { x with stalemate := true } else x) ∧
    (g.stalemate = true → leavesStalemate s g = true → ∀ k x, findEg s k = some x → findEg (stalemateExit g s) k =
      some (if k = g.id then { x with stalemate := false } else x))) ∧
  (∀ (sg b addr : Nat) (x : Band) (s : State), findBand s sg b = some x → x.state = .reclaiming → nextScan x addr = true →
    let s1 := updBand sg b (fun x => { x with toScan := x.toScan.filter fun a => a != addr }) s
    ((∀ e, e ∈ s.rcl.flash → e.addr ≠ addr) → Next (.livenessQuery sg b addr) s fun u => u = s1) ∧
    ∀ e, (s.rcl.flash.find? fun e => e.addr == addr) = some e →
      let m := livenessMask s e.nsid e.slba e.nblk addr e.seq
      (m = [] → Next (.livenessQuery sg b addr) s fun u => u = s1) ∧
      (m ≠ [] → e.lost ≠ [] → Next (.livenessQuery sg b addr) s fun u =>
        u = loseBlocks e (m.filter fun k => !e.lost.contains k) s1) ∧
      (m ≠ [] → e.lost = [] → Next (.livenessQuery sg b addr) s fun u =>
        u = addRead { blankOp .read (whyClass x.why) (servingDie s sg b e.member (dieOf addr)) with
          use := .copy, words := wordsOf addr e.len, addr := addr, sg := sg, band := b, row := e.row, member := e.member } s1)) ∧
  (∀ (sg b addr : Nat) (s : State), (∀ x, findBand s sg b = some x → x.state ≠ .reclaiming ∨ nextScan x addr = false) →
    Next (.livenessQuery sg b addr) s fun u => u = s) ∧
  (∀ (o : DieOp) (x : Band) (e : FExt) (s : State), findBand s o.sg o.band = some x → x.state = .reclaiming →
    (s.rcl.flash.find? fun e => e.addr == o.addr) = some e →
    copyRead o false s = loseBlocks e (livenessMask s e.nsid e.slba e.nblk o.addr e.seq) s ∧
    ∃ ws, copyRead o true s = addT (leaderTile s o.sg)
        (if x.why = some .promotion then .plc_promoted_count else .rcl_reloc_grains_count) e.len
        (copyLive o.addr (streamOf (x.why.getD .reclaim)) { s with rcl := { s.rcl with sweeps := ws } }) ∧
      ws = s.rcl.sweeps.map fun w => if w.id ∈ x.sweepIds then { w with relocBytes := w.relocBytes + 256 * e.len } else w) ∧
  (∀ (sg b : Nat) (x : Band) (s : State), findBand s sg b = some x →
    (x.state = .reclaiming → x.toScan = [] → openCopies s sg b = false → entriesDurable s sg b = true →
      Next (.relocationCommitted sg b) s fun u =>
        u = { s with wr := { s.wr with exts := u.wr.exts }, rcl := { s.rcl with bands := u.rcl.bands }, red := u.red,
                     clock := u.clock } ∧
        findBand u sg b = some { x with state := .erasePending, committed := true, drainMs := s.nowMs } ∧
        ∀ e, e ∈ u.wr.exts ↔ e ∈ s.wr.exts ∧ ¬(e.committed = true ∧ e.stage = .closed ∧
          ∃ f, f ∈ bandExtents s sg b ∧ e.src = some f.addr)) ∧
    (x.state ≠ .reclaiming ∨ x.toScan ≠ [] ∨ openCopies s sg b = true ∨ entriesDurable s sg b = false →
      Next (.relocationCommitted sg b) s fun u => u = s) ∧
    (x.state = .erasePending → x.drainMs + 1 ≤ s.nowMs → readsPending s x = false → recordsDurable s sg b = true →
      programRoom s sg b = true →
      let s1 := if intentRecorded s x then s else bandRecord 0x04 x 0xFF 0xFFFF 0xFFFF s
      (recordsDurable s1 sg b = true → Next (.eraseDrainEnd sg b) s fun u => u = startErases x s1) ∧
      (recordsDurable s1 sg b = false → Next (.eraseDrainEnd sg b) s fun u => u = s1)) ∧
    (x.state ≠ .erasePending ∨ s.nowMs < x.drainMs + 1 ∨ readsPending s x = true ∨ recordsDurable s sg b = false ∨
      programRoom s sg b = false → Next (.eraseDrainEnd sg b) s fun u => u = s)) ∧
  (∀ (x : Band) (s : State), x.retireMembers = [] → (∀ m, m < x.blocks.length → dieServes s (servingAt s x.sg x.idx m).1 = true) →
    startErases x s = addT (leaderTile s x.sg) .rcl_erases_count x.blocks.length (enqueueErases x
      (countUnerased x 0 (updBand x.sg x.idx (fun x => { x with state := .erasing, erased := [] }) s)))) ∧
  (∀ (sg b m : Nat) (x : Band) (s : State), findBand s sg b = some x → x.state = .erasing → m ∉ x.erased →
    let s1 := finishDieOp (servingAt s sg b m).1 .erase (updBand sg b (fun x => { x with erased := x.erased ++ [m] }) s)
    let last := ∀ k, k < x.blocks.length → k = m ∨ k ∈ x.erased ∨ k ∈ x.retireMembers ∨ x.blocks[k]? = some 0xFFFF ∨
      dieServes s (servingAt s sg b k).1 = false
    (last → Next (.nandEraseDone sg b m) s fun u => u = startClosed (bandFreed sg b s1)) ∧
    (¬last → Next (.nandEraseDone sg b m) s fun u => u = startClosed s1)) ∧
  (∀ (sg b m : Nat) (s : State), (∀ x, findBand s sg b = some x → x.state ≠ .erasing ∨ m ∈ x.erased) →
    Next (.nandEraseDone sg b m) s fun u => u = s) ∧
  (∀ (sg b : Nat) (x : Band) (s : State), findBand s sg b = some x →
    findBand (bandFreed sg b s) sg b = some { x with
      state := .free, rows := 0, nextRow := 0, early := false, retireMembers := [], why := none } ∧
    (sg, b) ∉ (bandFreed sg b s).media.refresh ∧
    ∀ e, e ∈ (bandFreed sg b s).rcl.flash ↔ e ∈ s.rcl.flash ∧ (e.sg ≠ sg ∨ e.band ≠ b)) ∧
  (∀ (sg b m : Nat) (blank : List Nat) (x : Band) (s : State), findBand s sg b = some x → x.state = .erasing →
    let tries := (blank.takeWhile fun v => s.tfld (leaderTile s sg) .rcl_blank_blank_fail_max < v).length
    let s1 := countLife 3 ((List.range (tries + 1)).foldl (fun s _ => replaceMember 0 sg b m s) s)
    let s2 := countUnerased x 1 s1
    Next (.eraseFailure sg b m blank) s fun u => ∀ y, findBand s2 sg b = some y →
      (y.state = .retired → u = s2) ∧ (y.state ≠ .retired → Next (.nandEraseDone sg b m) s2 fun v => u = v)) ∧
  (∀ (sg b m : Nat) (blank : List Nat) (s : State), (∀ x, findBand s sg b = some x → x.state ≠ .erasing) →
    Next (.eraseFailure sg b m blank) s fun u => u = s)

/-- R199, R200, R220 to R226: the census, block summaries, and the sweeps of secure deallocation. -/
def Obligations.CensusAndSweeps : Prop :=
  (∀ (n r : Nat) (s : State), (n, r) ∈ s.rcl.toCensus → ownerSlot s n r ∉ s.map.replaying →
    Next (.censusRegion n r) s fun u =>
    u = { s with rcl := { s.rcl with blocks := u.rcl.blocks, toCensus := u.rcl.toCensus, censusDone := u.rcl.censusDone } } ∧
    (∀ x, x ∈ u.rcl.toCensus ↔ x ∈ s.rcl.toCensus ∧ x ≠ (n, r)) ∧
    ((∀ x, x ∈ s.rcl.toCensus → x = (n, r)) → u.rcl.censusDone = s.red.groups.map (·.sg)) ∧
    ((∃ x, x ∈ s.rcl.toCensus ∧ x ≠ (n, r)) → u.rcl.censusDone = s.rcl.censusDone) ∧
    (findRegion s n r = none → u.rcl.blocks = s.rcl.blocks)) ∧
  (∀ (n r : Nat) (s : State), (n, r) ∉ s.rcl.toCensus ∨ ownerSlot s n r ∈ s.map.replaying →
    Next (.censusRegion n r) s fun u => u = s) ∧
  (∀ (t : Nat) (s : State), Next (.summaryRebuildDone t) s fun u =>
    u = { s with rcl := { s.rcl with blocks := u.rcl.blocks, summariesDone := u.rcl.summariesDone } } ∧
    t ∈ u.rcl.summariesDone ∧ (∀ k, k ≠ t → (k ∈ u.rcl.summariesDone ↔ k ∈ s.rcl.summariesDone)) ∧
    (t ∈ s.rcl.summariesDone → u.rcl.blocks = s.rcl.blocks) ∧
    ∀ e k, t ∉ s.rcl.summariesDone → e ∈ s.rcl.flash → tileOfDie (dieOf e.addr) = t → findBlk u (dieOf e.addr) (blockOf e.addr) = some k →
      summaryHas k.summary e.nsid (e.slba / 256) = true) ∧
  (∀ (id : Nat) (w : Sweep) (s : State), (s.rcl.sweeps.find? fun w => w.id == id) = some w →
    (w.state = 1 → w.kept = true → (∀ k, k ∈ w.rows → ∀ r, r ∈ s.wr.rows → isRow k.1 k.2.1 k.2.2 r = false) →
      (∀ t, t ∈ presentTiles s → t ∈ s.rcl.summariesDone) → Next (.sweepRowsProgrammed id) s fun u =>
        (u.rcl.sweeps.find? fun w => w.id == id) = some { w with
          state := 2, bands := (sweepCandidates s w).map fun b => (b.sg, b.idx) } ∧
        ∀ b x, b ∈ sweepCandidates s w → findBand u b.sg b.idx = some x → id ∈ x.sweepIds) ∧
    (w.state ≠ 1 ∨ w.kept = false ∨ (∃ t, t ∈ presentTiles s ∧ t ∉ s.rcl.summariesDone) ∨ (∃ k r, k ∈ w.rows ∧ r ∈ s.wr.rows ∧ isRow k.1 k.2.1 k.2.2 r = true) →
      Next (.sweepRowsProgrammed id) s fun u => u = s) ∧
    (w.state = 2 → w.bands = [] →
      let s1 := syncStores { s with rcl := { s.rcl with sweeps := s.rcl.sweeps.map fun v => if v.id == id then
        { v with state := 3, doneMin := s.island.minutes } else v } }
      (∀ c, findCmd s1 (w.cmd.getD 0) = some c → c.sweep = id → c.sweepSync = true → c.took = true →
        Next (.sweepEnd id) s fun u => u = finishCmd c.id .success id s1) ∧
      (findCmd s1 (w.cmd.getD 0) = none → Next (.sweepEnd id) s fun u =>
        u = ((s1.host.ctrls.filter fun c => attachedTo s1 c w.nsid).map (·.cntlid)).foldl (fun s k => raiseAen k 7 0xC2 s) s1)) ∧
    (w.state ≠ 2 ∨ w.bands ≠ [] → Next (.sweepEnd id) s fun u => u = s)) ∧
  (∀ (id : Nat) (s : State), Next (.sweepLogExpiry id) s fun u => u = { s with rcl := { s.rcl with sweeps := u.rcl.sweeps } } ∧
    ∀ w, w ∈ u.rcl.sweeps ↔ w ∈ s.rcl.sweeps ∧ ¬(w.id = id ∧ w.state = 3 ∧ w.doneMin + 1440 ≤ s.island.minutes)) ∧
  (∀ (a : Adm) (n v : Nat) (s : State), AdmRuns .management a s → s.ident.part = .aqk8064 →
    (visible s a n = false → (Next (.setFeaturesSecureDeallocation a n v) s fun u =>
        u = passTurn a (admDone a .invalidNamespaceOrFormat 0 s)) ∧
      Next (.getFeaturesSecureDeallocation a n) s fun u => u = passTurn a (admDone a .invalidNamespaceOrFormat 0 s)) ∧
    (∀ x, visible s a n = true → nsOf s n = some x →
      (s.fw.flash.failed = false → Next (.setFeaturesSecureDeallocation a n v) s fun u => ∃ m,
        u = passTurn a (admDone a .success 0 (syncStores m)) ∧
        m = { s with reg := { s.reg with nss := m.reg.nss } } ∧ nsOf m n = some { x with secure := bitOf v 0 } ∧
        ∀ k, k ≠ n → nsOf m k = nsOf s k) ∧
      (s.fw.flash.failed = true → Next (.setFeaturesSecureDeallocation a n v) s fun u =>
        u = passTurn a (admDone a .internalError 0 s)) ∧
      Next (.getFeaturesSecureDeallocation a n) s fun u => u = passTurn a (admDone a .success (b2n x.secure) s))) ∧
  (∀ (a : Adm) (n v : Nat) (s : State), AdmRuns .management a s → s.ident.part ≠ .aqk8064 →
    (Next (.setFeaturesSecureDeallocation a n v) s fun u => u = passTurn a (admDone a .invalidField 0 s)) ∧
    Next (.getFeaturesSecureDeallocation a n) s fun u => u = passTurn a (admDone a .invalidField 0 s))

/-- R272 to R274, R276, R277: fingerprints, mismatches, the search for lost ranges and the verify test. It rests on the log's
entry 83, the model's own. -/
def Obligations.FingerprintsAndVerify : Prop :=
  (∀ (sg b i m p q : Nat) (s : State),
    let t := leaderTile s sg
    let isIt := fun (f : FpRow) => f.sg == sg && f.band == b && f.row == i
    let f : FpRow := (s.red.fpRows.find? isIt).getD { sg := sg, band := b, row := i, fps := [], since := s.nowMs, mismatch := false }
    let f1 : FpRow := { f with fps := (f.fps.filter fun y => y.1 != m) ++ [(m, p, q)] }
    let rest := s.red.fpRows.filter fun f => !isIt f
    s.tfld t .red_cfg_parity_check_en = 1 → (sg, b, i) ∉ s.red.noCompare → m < memberCount s sg →
    (rest.filter fun f => leaderTile s f.sg == t).length < 4096 →
    (f1.fps.length < memberCount s sg → Next (.fingerprintReport sg b i m p q) s fun u =>
      u = { s with red := { s.red with fpRows := rest ++ [f1] } }) ∧
    (memberCount s sg ≤ f1.fps.length → fpMismatch s f1 = false → Next (.fingerprintReport sg b i m p q) s fun u =>
      u = bump t .red_parity_cmp_count { s with red := { s.red with fpRows := rest } }) ∧
    (memberCount s sg ≤ f1.fps.length → fpMismatch s f1 = true → Next (.fingerprintReport sg b i m p q) s fun u =>
      u = { s with regs := u.regs, red := { s.red with fpRows := rest ++ [{ f1 with mismatch := true }] } } ∧
      OnlyFields [(t, 0, .red_parity_cmp_count), (t, 0, .red_parity_events_mismatches)] s u)) ∧
  (∀ (sg b i m p q : Nat) (s : State), s.tfld (leaderTile s sg) .red_cfg_parity_check_en ≠ 1 ∨ (sg, b, i) ∈ s.red.noCompare ∨
    memberCount s sg ≤ m → Next (.fingerprintReport sg b i m p q) s fun u => u = s) ∧
  (∀ (sg b i : Nat) (sp sq : Bytes) (f : FpRow) (s : State), f ∈ s.red.fpRows → f.sg = sg → f.band = b → f.row = i →
    f.mismatch = true →
    (locate (dataUnits s sg) sp sq = .noFault → Next (.parityMismatchLocate sg b i sp sq) s fun u =>
      u = { s with red := { s.red with fpRows := u.red.fpRows }, evr := u.evr, health := u.health } ∧
      Logs .parityMismatch (leaderTile s sg) [sg, b, i, 0xFF] s u ∧
      ∀ x, x ∈ u.red.fpRows ↔ x ∈ s.red.fpRows ∧ ¬(x.sg = sg ∧ x.band = b ∧ x.row = i)) ∧
    (∀ m, locate (dataUnits s sg) sp sq = .one m →
      let first := i * 4 * planesOf s * if (findBand s sg b).any (·.slc) then 1 else 4
      Next (.parityMismatchLocate sg b i sp sq) s fun u =>
      Logs .parityMismatch (leaderTile s sg) [sg, b, i, m] s u ∧
      ((findBand s sg b).isSome = true → (sg, b) ∈ u.media.refresh) ∧
      (∀ j x, m < dataUnits s sg → (sp.zip sq)[j]? = some x → x ≠ (0, 0) →
        { sg := sg, band := b, row := i, member := m, cw := first + j / 4096, dead := false } ∈ u.red.lostSlots) ∧
      (dataUnits s sg ≤ m → u.red.lostSlots = s.red.lostSlots)) ∧
    (locate (dataUnits s sg) sp sq = .several → Next (.parityMismatchLocate sg b i sp sq) s fun u =>
      Logs .parityMismatch (leaderTile s sg) [sg, b, i, 0xFF] s u ∧
      ((findBand s sg b).isSome = true → (sg, b) ∈ u.media.refresh) ∧ u.red.lostSlots = s.red.lostSlots ∧
      (sg, b) ∈ u.red.unresolved)) ∧
  (∀ (sg b i : Nat) (sp sq : Bytes) (s : State),
    (∀ f, f ∈ s.red.fpRows → f.sg = sg → f.band = b → f.row = i → f.mismatch = false) →
    Next (.parityMismatchLocate sg b i sp sq) s fun u => u = s) ∧
  (∀ (k : Nat) (sp sq : Bytes), (∀ x, x ∈ sp.zip sq → x = (0, 0)) → locate k sp sq = .noFault) ∧
  (∀ (sg b i : Nat) (f : FpRow) (s : State),
    (s.red.fpRows.find? fun f => f.sg == sg && f.band == b && f.row == i && !f.mismatch) = some f →
    (f.since + 86400000 ≤ s.nowMs → Next (.rowStoreExpiry sg b i) s fun u =>
      u = bump (leaderTile s sg) .red_parity_events_parity_skipped { s with red := { s.red with fpRows := u.red.fpRows } } ∧
      ∀ x, x ∈ u.red.fpRows ↔ x ∈ s.red.fpRows ∧ ¬(x.sg = sg ∧ x.band = b ∧ x.row = i)) ∧
    (s.nowMs < f.since + 86400000 → Next (.rowStoreExpiry sg b i) s fun u => u = s)) ∧
  (∀ (sg b i m : Nat) (s : State), let is (x : LostSlot) : Prop := x.dead = true ∧ x.sg = sg ∧ x.band = b ∧ x.row = i ∧ x.member = m
    ((∃ l, l ∈ s.red.lostSlots ∧ is l) →
      (∀ x y, x ∈ s.rcl.flash → y ∈ s.rcl.flash → x.addr = y.addr → x.seq = y.seq → x = y) →
      Next (.lostRangeSearch sg b i m) s fun u => (∀ l, l ∈ u.red.lostSlots ↔ l ∈ s.red.lostSlots ∧ ¬ is l) ∧
        u.map = s.map ∧ u.reg = s.reg ∧
        ∀ l, l ∈ s.red.lostSlots → is l → ∀ e, e ∈ u.rcl.flash → e.sg = sg → e.band = b → e.row = i → e.member = m →
          ∀ k, k ∈ blocksIn e [l.cw] → k ∈ e.lost) ∧
    ((∀ l, l ∈ s.red.lostSlots → ¬ is l) → Next (.lostRangeSearch sg b i m) s fun u => u = s)) ∧
  (∀ (e : FExt) (cws : List Nat) (k : Nat), k ∈ blocksIn e cws → k < e.nblk) ∧
  (∀ (t v : Nat) (s : State), t ≠ pkgWin → regOpen s t = true →
    let s1 := setT t .red_verify_verify_sg (bitsOf v 9 0) s
    (bitOf v 31 = false → Next (.verifyStart t v) s fun u => u = s1) ∧
    (bitOf v 31 = true → (verifyOf s t).busy = true → Next (.verifyStart t v) s fun u => u = reject t (bar0 t 0 .redVerify) 11 s1) ∧
    (bitOf v 31 = true → (verifyOf s t).busy = false → Next (.verifyStart t v) s fun u =>
      u = { s1 with red := { s.red with verify := u.red.verify } } ∧
      verifyOf u t = { tile := t, sg := bitsOf v 9 0, busy := true, wrong := (verifyOf s t).wrong } ∧
      ∀ k, k ≠ t → verifyOf u k = verifyOf s k)) ∧
  (∀ (t : Nat) (us : List VerifyUnit) (s : State), let v := verifyOf s t
    let bad := wrongRows s t v.sg us
    (v.busy = true → Next (.verifyEnd t us) s fun u =>
      verifyOf u t = { v with busy := false, wrong := sat 0xFFFF bad.length } ∧
      u.tfld t .red_verify_status_verify_done = 1 ∧ OnlyFields [(t, 0, .red_verify_status_verify_done)] s u ∧
      u = { s with regs := u.regs, red := { s.red with verify := u.red.verify, fpRows := u.red.fpRows } } ∧
      ∀ x, x ∈ bad → ∃ f, f ∈ u.red.fpRows ∧ f.sg = v.sg ∧ f.band = x.1 ∧ f.row = x.2 ∧ f.mismatch = true) ∧
    (v.busy = false → Next (.verifyEnd t us) s fun u => u = s)) ∧
  (∀ (t sg : Nat) (us : List VerifyUnit) (x : Nat × Nat) (s : State), x ∈ wrongRows s t sg us ↔
    ∃ u, u ∈ us ∧ u.band = x.1 ∧ u.row = x.2 ∧ (u.recon ≠ u.read ∨ unitPasses s t (unitBase s sg u.band u.row u.member) u.recon = false))

/-- R279, R282 to R285, R290 to R293: healing, and the copies of the stripe journal. It rests on the log's entry 83, the model's
own. -/
def Obligations.HealingAndStripeJournal : Prop :=
  (∀ (sg : Nat) (g : Group) (s : State), findGroup s sg = some g →
    let bySubst := ((s.red.substs.filter fun x => x.sg == sg && !x.done).map (·.band)).eraseDups
    let byMove := (s.rcl.bands.filter fun b => b.sg == sg && b.why == some .replace && b.state == .reclaiming).map (·.idx)
    let busy := bySubst ++ byMove
    (g.state = .unavailable ∨ g.state = .optimal ∨ 2 ≤ busy.length ∨ nextToHeal s g = none →
      Next (.healBandStart sg) s fun u => u = s) ∧
    (∀ b, g.state ≠ .unavailable → g.state ≠ .optimal → busy.length < 2 → nextToHeal s g = some b →
      (b.mapBand = false → b.state = .sealed →
        validPermille s b < 10 * s.tfld (leaderTile s sg) .red_rebuild_rebuild_reclaim_pct →
        Next (.healBandStart sg) s fun u => u = startRelocation .replace sg b.idx s) ∧
      (b.mapBand = true ∨ b.state ≠ .sealed ∨
        10 * s.tfld (leaderTile s sg) .red_rebuild_rebuild_reclaim_pct ≤ validPermille s b →
        Next (.healBandStart sg) s fun u => u = (unstarted s g b).foldl (fun s m => startSubst g b m s) s))) ∧
  (∀ (sg : Nat) (s : State), findGroup s sg = none → Next (.healBandStart sg) s fun u => u = s) ∧
  (∀ (g : Group) (b : Band) (m d : Nat) (k : Blk) (s : State), substDie s g b = some (d, false) → (sparesOf s d).head? = some k →
    (startSubst g b m s).red.substs = s.red.substs ++
      [{ sg := g.sg, band := b.idx, member := m, die := d, block := k.block, done := false, shared := false, next := 0 }] ∧
    dieServes s d = true ∧ d ∉ g.members) ∧
  (∀ (sg b m : Nat) (x : Subst) (y : Band) (s : State),
    (s.red.substs.find? fun x => x.sg == sg && x.band == b && x.member == m && !x.done) = some x → findBand s sg b = some y →
    (healing s sg b m = true ∨ x.next < y.rows → Next (.substDone sg b m) s fun u => u = s) ∧
    (healing s sg b m = false → y.rows ≤ x.next → Next (.substDone sg b m) s fun u =>
      u.red.substs = (s.red.substs.map fun z => if z = x then { z with done := true } else z) ∧
      (∃ l, findBand u sg b = some { y with named := l, blocks := y.blocks.set m 0xFFFE }) ∧ u.map = s.map ∧ u.reg = s.reg)) ∧
  (∀ (sg b m : Nat) (s : State), (∀ x, x ∈ s.red.substs → x.sg = sg → x.band = b → x.member = m → x.done = true) →
    Next (.substDone sg b m) s fun u => u = s) ∧
  (∀ (sg : Nat) (s : State), let j := findSj s sg
    (j.tail ≠ [] → Next (.sjTailTimer sg) s fun u => ∃ v, u = startClosed v ∧ v = { s with red := { s.red with sjs := v.red.sjs } } ∧
      findSj v sg = { j with flash := j.flash ++ j.tail, tail := [] } ∧ ∀ k, k ≠ sg → findSj v k = findSj s k) ∧
    (j.tail = [] → Next (.sjTailTimer sg) s fun u => u = s) ∧
    ((∃ g, g ∈ s.red.groups ∧ g.sg = sg) → Next (.sjSnapshot sg) s fun u =>
      u = { s with red := { s.red with sjs := u.red.sjs } } ∧ findSj u sg = { j with tail := [], flash := [] } ∧
      ∀ k, k ≠ sg → findSj u k = findSj s k) ∧
    (∀ k, (∃ g, g ∈ s.red.groups ∧ g.sg = sg) → k < 3 → k ∉ j.copiesLost → Next (.sjCopyLost sg k) s fun u =>
      u = { s with red := { s.red with sjs := u.red.sjs }, evr := u.evr } ∧
      findSj u sg = { j with copiesLost := j.copiesLost ++ [k] } ∧ Logs .sjCopyLost (leaderTile s sg) [sg, k] s u) ∧
    (∀ k, 3 ≤ k ∨ k ∈ j.copiesLost → Next (.sjCopyLost sg k) s fun u => u = s) ∧
    (∀ k, k ∈ j.copiesLost → Next (.sjCopyRestored sg k) s fun u =>
      u = { s with red := { s.red with sjs := u.red.sjs }, evr := u.evr } ∧
      findSj u sg = { j with copiesLost := j.copiesLost.filter fun x => x != k } ∧
      Logs .sjCopyRestored (leaderTile s sg) [sg, k] s u) ∧
    (∀ k, k ∉ j.copiesLost → Next (.sjCopyRestored sg k) s fun u => u = s))

/-- R12, R14, R165, R261, R262, R369, R414, R464, R467: what a read of BAR0 returns, and what it sets off. It rests on the log's
entry 71, the model's own. -/
def Obligations.RegisterReads : Prop :=
  (∀ (t : Nat) (s : State), t < pkgWin → regOpen s t = true →
    let moved (r : Reg) (f : Fld) (n : Nat) (u : State) : Prop :=
      u = setFld t 0 f ((s.fld t 0 f + 1) % n) (emit (.regRead (bar0 t 0 r) (readValue s (bar0 t 0 r))) s)
    (Next (.medDescDataAccess t none) s fun u => moved .medDescData .med_desc_idx_word 128 u) ∧
    (Next (.ldpcBaseDataRead t) s fun u => moved .ldpcBaseData .ldpc_base_idx_entry 16384 u) ∧
    (Next (.digFuseDataRead t) s fun u => moved .digFuseData .dig_fuse_idx_word 16 u) ∧
    (Next (.thmHistDataRead t) s fun u => moved .thmHistData .thm_hist_idx_bin 16 u) ∧
    (Next (.thmSensorRead t) s fun u => u = { s with therm := u.therm, outs := u.outs } ∧
      Sends [.regRead (bar0 t 0 .thmSensor) (readValue s (bar0 t 0 .thmSensor))] s u ∧
      ∀ k i x, findSensor s k i = some x → findSensor u k i =
        some (if k = t ∧ i = s.tfld t .thm_sel_sensor then { x with peak := x.reading.getD x.peak } else x)) ∧
    (∀ v, Next (.medDescDataAccess t (some v)) s fun u =>
      (s.tfld t .med_cfg_med_enable = 0 → u.fld t (s.tfld t .med_desc_idx_word) .med_desc_data_data = v % 2 ^ 32 ∧
        u.tfld t .med_desc_idx_word = (s.tfld t .med_desc_idx_word + 1) % 128 ∧
        OnlyFields [(t, s.tfld t .med_desc_idx_word, .med_desc_data_data), (t, 0, .med_desc_idx_word)] s u ∧
        u = { s with regs := u.regs }) ∧
      (s.tfld t .med_cfg_med_enable = 1 → s.fld t (s.tfld t .med_desc_idx_word) .med_desc_data_data ≠ v % 2 ^ 32 →
        u.fld t (s.tfld t .med_desc_idx_word) .med_desc_data_data = s.fld t (s.tfld t .med_desc_idx_word) .med_desc_data_data ∧
        Logs .cfgReject t [bar0 t (s.tfld t .med_desc_idx_word) .medDescData, 1] s u))) ∧
  (∀ (s : State), regOpen s pkgWin = true → Next .fwuMapDataRead s fun u =>
    u = setFld pkgWin 0 .fwu_map_idx_word ((s.fld pkgWin 0 .fwu_map_idx_word + 1) % 16)
      (emit (.regRead (bar0 pkgWin 0 .fwuMapData) (readValue s (bar0 pkgWin 0 .fwuMapData))) s)) ∧
  (∀ (t : Nat) (s : State), t < pkgWin → regOpen s t = false →
    (Next (.ldpcBaseDataRead t) s fun u => u = emit (.regRead (bar0 t 0 .ldpcBaseData) 0) s) ∧
    (Next (.thmHistDataRead t) s fun u => u = emit (.regRead (bar0 t 0 .thmHistData) 0) s) ∧
    (Next (.thmSensorRead t) s fun u => u = emit (.regRead (bar0 t 0 .thmSensor) 0) s) ∧
    ∀ v, Next (.medDescDataAccess t (some v)) s fun u => u = s) ∧
  (∀ (off : Nat) (s : State), (off % 4 ≠ 0 → Next (.counterLowRead off) s fun u => u = emit (.completerAbort off) s) ∧
    (off % 4 = 0 → regAt s off = none → Next (.counterLowRead off) s fun u => u = emit (.regRead off 0) s)) ∧
  (∀ (off w i : Nat) (r : Reg) (s : State), off % 4 = 0 → regAt s off = some (w, r, i, false) → regAnswers s w r = true →
    (r.held = true → Next (.counterLowRead off) s fun u => u = emit (.regRead off (heldLow s w i r)) s) ∧
    (r.latched = true → Next (.counterLowRead off) s fun u =>
      u = { s with regs := { s.regs with latch := u.regs.latch }, outs := u.outs } ∧
      Sends [.regRead off (regValue s w i r % 2 ^ 32)] s u ∧
      (regAt s (off + 4) = some (w, r, i, true) → readValue u (off + 4) = regValue s w i r / 2 ^ 32)))

/-- R12 to R14, R467, R471: what a write of BAR0 does. It rests on the log's entry 71, the model's own. -/
def Obligations.RegisterWrites : Prop :=
  (∀ (off v : Nat) (s : State), (off % 4 ≠ 0 → Next (.registerWrite off v) s fun u => u = emit (.completerAbort off) s) ∧
    (off % 4 = 0 → 0x1000000 ≤ off → Next (.registerWrite off v) s fun u =>
      u = doorbell ((off - 0x1000000) / 4) (v % 2 ^ 32) s) ∧
    (off % 4 = 0 → off < 0x1000000 → regAt s off = none → Next (.registerWrite off v) s fun u => u = s)) ∧
  (∀ (off v w i : Nat) (r : Reg) (high : Bool) (s : State), off % 4 = 0 → off < 0x1000000 → regAt s off = some (w, r, i, high) →
    (regAnswers s w r = false ∨ (∀ f, f ∈ r.flds → f.info.acc = .ro) → Next (.registerWrite off v) s fun u => u = s) ∧
    (regOpen s w = true → (∃ f, f ∈ r.flds ∧ f.info.acc ≠ .ro) →
      (r.info.wide = false → Next (.registerWrite off v) s fun u => u = writeOne w i r (v % 2 ^ 32) s) ∧
      (r.info.wide = true → high = false → Next (.registerWrite off v) s fun u =>
        u = { s with regs := { s.regs with low := u.regs.low } } ∧ lowHalf u w i r = v % 2 ^ 32) ∧
      (r.info.wide = true → high = true → r ≠ .glbBoardTime → Next (.registerWrite off v) s fun u =>
        u = writeReg w i r ((v % 2 ^ 32) * 2 ^ 32 + lowHalf s w i r) s))) ∧
  (∀ (en : Bool) (w i v : Nat) (r : Reg) (f : Fld) (s : State), fldAbsent s f = false →
    let x := bitsOf v f.info.hi f.info.lo
    (f.info.acc = .ro ∨ f.info.acc = .wo → writeField en w i r v f s = s) ∧
    (f.info.acc = .rl → writeField en w i r v f s = setFld w i f x s) ∧
    (f.info.acc = .rs → ∀ k j g, (writeField en w i r v f s).fld k j g = s.fld k j g) ∧
    (f.info.acc = .rw → f.info.static = false ∨ en = false ∨ x = s.fld w i f → writeField en w i r v f s = setFld w i f x s) ∧
    (f.info.acc = .rw → f.info.static = true → en = true → x ≠ s.fld w i f →
      writeField en w i r v f s = reject (winTile w) (bar0 w i r) 1 (setCfgErr w r s)) ∧
    (f.info.acc = .w1c → (∀ b, ((writeField en w i r v f s).fld w i f).testBit b = ((s.fld w i f).testBit b && !x.testBit b)) ∧
      OnlyFields [(w, i, f)] s (writeField en w i r v f s)))

/-- R13, R99, R162, R165, R191, R228, R296, R525: the enables of the queue engine, map, placement, reclaim and redundancy. It
rests on the log's entry 70, the model's own. -/
def Obligations.BlockEnables : Prop :=
  (∀ (t v : Nat) (s : State), t ≠ pkgWin → regOpen s t = true → bitOf v 0 = true →
    let up (r : Reg) (f : Fld) (u : State) : Prop := u = setT t f 1 (writeCfg t r (v - 1) s) ∧ u.tfld t f = 1
    let refused (r : Reg) (n : Nat) (u : State) : Prop := u = reject (winTile t) (bar0 t 0 r) n (writeCfg t r (v - 1) s)
    (s.tfld t .map_cfg_map_enable = 0 →
      (orderHolds (writeCfg t .mapCfg (v - 1) s) t .map_cfg_map_enable = true → mapFault t (writeCfg t .mapCfg (v - 1) s) = none →
        Next (.mapEnable t v) s fun u => u = mapOn t (setT t .map_cfg_map_enable 1 (writeCfg t .mapCfg (v - 1) s))) ∧
      (∀ w : State, w.map.waiting = [] → mapOn t w = { w with map := { w.map with
        dirFixed := (w.map.dirFixed.filter fun x => x.1 != t) ++ [(t, dirGib w t)] } }) ∧
      (∀ n, orderHolds (writeCfg t .mapCfg (v - 1) s) t .map_cfg_map_enable = true →
        mapFault t (writeCfg t .mapCfg (v - 1) s) = some n → Next (.mapEnable t v) s fun u => refused .mapCfg n u) ∧
      (orderHolds (writeCfg t .mapCfg (v - 1) s) t .map_cfg_map_enable = false →
        Next (.mapEnable t v) s fun u => refused .mapCfg 7 u)) ∧
    (s.tfld t .plc_cfg_plc_enable = 0 →
      (orderHolds (writeCfg t .plcCfg (v - 1) s) t .plc_cfg_plc_enable = true → stageFits t (writeCfg t .plcCfg (v - 1) s) = true →
        Next (.plcEnable t v) s fun u => up .plcCfg .plc_cfg_plc_enable u) ∧
      (orderHolds (writeCfg t .plcCfg (v - 1) s) t .plc_cfg_plc_enable = true → stageFits t (writeCfg t .plcCfg (v - 1) s) = false →
        Next (.plcEnable t v) s fun u => refused .plcCfg 8 u) ∧
      (orderHolds (writeCfg t .plcCfg (v - 1) s) t .plc_cfg_plc_enable = false →
        Next (.plcEnable t v) s fun u => refused .plcCfg 7 u)) ∧
    (s.tfld t .rcl_cfg_rcl_enable = 0 →
      (orderHolds (writeCfg t .rclCfg (v - 1) s) t .rcl_cfg_rcl_enable = true →
        Next (.rclEnable t v) s fun u => up .rclCfg .rcl_cfg_rcl_enable u) ∧
      (orderHolds (writeCfg t .rclCfg (v - 1) s) t .rcl_cfg_rcl_enable = false →
        Next (.rclEnable t v) s fun u => refused .rclCfg 7 u)) ∧
    (s.tfld t .red_cfg_red_enable = 0 →
      (orderHolds (writeCfg t .redCfg (v - 1) s) t .red_cfg_red_enable = true →
        Next (.redEnable t v) s fun u => up .redCfg .red_cfg_red_enable u) ∧
      (orderHolds (writeCfg t .redCfg (v - 1) s) t .red_cfg_red_enable = false →
        Next (.redEnable t v) s fun u => refused .redCfg 7 u)) ∧
    (s.tfld t .qe_cfg_qe_enable = 0 →
      (orderHolds (writeCfg t .qeCfg (v - 1) s) t .qe_cfg_qe_enable = true →
        Next (.qeEnable t v) s fun u => up .qeCfg .qe_cfg_qe_enable u) ∧
      (orderHolds (writeCfg t .qeCfg (v - 1) s) t .qe_cfg_qe_enable = false →
        Next (.qeEnable t v) s fun u => refused .qeCfg 7 u))) ∧
  (∀ (t v : Nat) (s : State), t ≠ pkgWin → regOpen s t = true → bitOf v 0 = false →
    (Next (.mapEnable t v) s fun u => u = writeCfg t .mapCfg v s) ∧ (Next (.plcEnable t v) s fun u => u = writeCfg t .plcCfg v s) ∧
    (Next (.rclEnable t v) s fun u => u = writeCfg t .rclCfg v s) ∧ (Next (.redEnable t v) s fun u => u = writeCfg t .redCfg v s) ∧
    Next (.qeEnable t v) s fun u => u.tfld t .qe_cfg_qe_enable = 0 ∧ (∀ c, c ∈ u.host.ctrls → c.tile ≠ t) ∧ (∀ k, k ∈ u.host.conns → k.tile ≠ t) ∧
      (∀ c, c ∈ s.host.ctrls → c.tile = t → ∀ k, k ∈ u.host.cmds → k.cntlid = c.cntlid → k.discard = true)) ∧
  (∀ (t v : Nat) (s : State), t = pkgWin ∨ regOpen s t = false →
    (Next (.mapEnable t v) s fun u => u = s) ∧ (Next (.plcEnable t v) s fun u => u = s) ∧ (Next (.rclEnable t v) s fun u => u = s) ∧
    (Next (.redEnable t v) s fun u => u = s) ∧ Next (.qeEnable t v) s fun u => u = s)
end

