-- ==== Sys2Proof/Laws/State.lean ====
section
/-!
SUPPORT. Sys2Proof/Laws/State.lean: what the shared updates of Ops.lean do to each field of the state, true by unfolding.
-/
namespace Sys2Proof.Machine
open Sys2Proof

variable (s : State)

/-! ### emit -/

@[simp] theorem emit_ident (o : Out) : (emit o s).ident = s.ident := rfl
@[simp] theorem emit_mem (o : Out) : (emit o s).mem = s.mem := rfl
@[simp] theorem emit_regs (o : Out) : (emit o s).regs = s.regs := rfl
@[simp] theorem emit_island (o : Out) : (emit o s).island = s.island := rfl
@[simp] theorem emit_mesh (o : Out) : (emit o s).mesh = s.mesh := rfl
@[simp] theorem emit_host (o : Out) : (emit o s).host = s.host := rfl
@[simp] theorem emit_reg (o : Out) : (emit o s).reg = s.reg := rfl
@[simp] theorem emit_clock (o : Out) : (emit o s).clock = s.clock := rfl
@[simp] theorem emit_map (o : Out) : (emit o s).map = s.map := rfl
@[simp] theorem emit_wr (o : Out) : (emit o s).wr = s.wr := rfl
@[simp] theorem emit_rcl (o : Out) : (emit o s).rcl = s.rcl := rfl
@[simp] theorem emit_media (o : Out) : (emit o s).media = s.media := rfl
@[simp] theorem emit_red (o : Out) : (emit o s).red = s.red := rfl
@[simp] theorem emit_pools (o : Out) : (emit o s).pools = s.pools := rfl
@[simp] theorem emit_eng (o : Out) : (emit o s).eng = s.eng := rfl
@[simp] theorem emit_cmpSlots (o : Out) : (emit o s).cmpSlots = s.cmpSlots := rfl
@[simp] theorem emit_cry (o : Out) : (emit o s).cry = s.cry := rfl
@[simp] theorem emit_drams (o : Out) : (emit o s).drams = s.drams := rfl
@[simp] theorem emit_plp (o : Out) : (emit o s).plp = s.plp := rfl
@[simp] theorem emit_therm (o : Out) : (emit o s).therm = s.therm := rfl
@[simp] theorem emit_clk (o : Out) : (emit o s).clk = s.clk := rfl
@[simp] theorem emit_power (o : Out) : (emit o s).power = s.power := rfl
@[simp] theorem emit_evr (o : Out) : (emit o s).evr = s.evr := rfl
@[simp] theorem emit_board (o : Out) : (emit o s).board = s.board := rfl
@[simp] theorem emit_fw (o : Out) : (emit o s).fw = s.fw := rfl
@[simp] theorem emit_mgmt (o : Out) : (emit o s).mgmt = s.mgmt := rfl
@[simp] theorem emit_health (o : Out) : (emit o s).health = s.health := rfl
@[simp] theorem emit_prov (o : Out) : (emit o s).prov = s.prov := rfl
@[simp] theorem emit_heldAdmin (o : Out) : (emit o s).heldAdmin = s.heldAdmin := rfl
@[simp] theorem emit_released (o : Out) : (emit o s).released = s.released := rfl
@[simp] theorem emit_nowMs (o : Out) : (emit o s).nowMs = s.nowMs := rfl
@[simp] theorem emit_outs (o : Out) : (emit o s).outs = s.outs ++ [o] := rfl
@[simp] theorem emit_cleared (o : Out) : (emit o s).cleared = s.cleared := rfl
@[simp] theorem emit_heldOuts (o : Out) : (emit o s).heldOuts = s.heldOuts := rfl
@[simp] theorem emit_fresh (o : Out) : (emit o s).fresh = s.fresh := rfl
@[simp] theorem emit_pending (o : Out) : (emit o s).pending = s.pending := rfl

/-! ### logEv -/

@[simp] theorem logEv_ident (e : Ev) (i : Nat) (l : List Nat) : (logEv e i l s).ident = s.ident := rfl
@[simp] theorem logEv_mem (e : Ev) (i : Nat) (l : List Nat) : (logEv e i l s).mem = s.mem := rfl
@[simp] theorem logEv_regs (e : Ev) (i : Nat) (l : List Nat) : (logEv e i l s).regs = s.regs := rfl
@[simp] theorem logEv_island (e : Ev) (i : Nat) (l : List Nat) : (logEv e i l s).island = s.island := rfl
@[simp] theorem logEv_mesh (e : Ev) (i : Nat) (l : List Nat) : (logEv e i l s).mesh = s.mesh := rfl
@[simp] theorem logEv_host (e : Ev) (i : Nat) (l : List Nat) : (logEv e i l s).host = s.host := rfl
@[simp] theorem logEv_reg (e : Ev) (i : Nat) (l : List Nat) : (logEv e i l s).reg = s.reg := rfl
@[simp] theorem logEv_clock (e : Ev) (i : Nat) (l : List Nat) : (logEv e i l s).clock = s.clock := rfl
@[simp] theorem logEv_map (e : Ev) (i : Nat) (l : List Nat) : (logEv e i l s).map = s.map := rfl
@[simp] theorem logEv_wr (e : Ev) (i : Nat) (l : List Nat) : (logEv e i l s).wr = s.wr := rfl
@[simp] theorem logEv_rcl (e : Ev) (i : Nat) (l : List Nat) : (logEv e i l s).rcl = s.rcl := rfl
@[simp] theorem logEv_media (e : Ev) (i : Nat) (l : List Nat) : (logEv e i l s).media = s.media := rfl
@[simp] theorem logEv_red (e : Ev) (i : Nat) (l : List Nat) : (logEv e i l s).red = s.red := rfl
@[simp] theorem logEv_pools (e : Ev) (i : Nat) (l : List Nat) : (logEv e i l s).pools = s.pools := rfl
@[simp] theorem logEv_eng (e : Ev) (i : Nat) (l : List Nat) : (logEv e i l s).eng = s.eng := rfl
@[simp] theorem logEv_cmpSlots (e : Ev) (i : Nat) (l : List Nat) : (logEv e i l s).cmpSlots = s.cmpSlots := rfl
@[simp] theorem logEv_cry (e : Ev) (i : Nat) (l : List Nat) : (logEv e i l s).cry = s.cry := rfl
@[simp] theorem logEv_drams (e : Ev) (i : Nat) (l : List Nat) : (logEv e i l s).drams = s.drams := rfl
@[simp] theorem logEv_plp (e : Ev) (i : Nat) (l : List Nat) : (logEv e i l s).plp = s.plp := rfl
@[simp] theorem logEv_therm (e : Ev) (i : Nat) (l : List Nat) : (logEv e i l s).therm = s.therm := rfl
@[simp] theorem logEv_clk (e : Ev) (i : Nat) (l : List Nat) : (logEv e i l s).clk = s.clk := rfl
@[simp] theorem logEv_power (e : Ev) (i : Nat) (l : List Nat) : (logEv e i l s).power = s.power := rfl
@[simp] theorem logEv_evr (e : Ev) (i : Nat) (l : List Nat) : (logEv e i l s).evr = { s.evr with raised := s.evr.raised ++ [{ ev := e, tile := i, params := l }] } := rfl
@[simp] theorem logEv_board (e : Ev) (i : Nat) (l : List Nat) : (logEv e i l s).board = s.board := rfl
@[simp] theorem logEv_fw (e : Ev) (i : Nat) (l : List Nat) : (logEv e i l s).fw = s.fw := rfl
@[simp] theorem logEv_mgmt (e : Ev) (i : Nat) (l : List Nat) : (logEv e i l s).mgmt = s.mgmt := rfl
@[simp] theorem logEv_health (e : Ev) (i : Nat) (l : List Nat) : (logEv e i l s).health = s.health := rfl
@[simp] theorem logEv_prov (e : Ev) (i : Nat) (l : List Nat) : (logEv e i l s).prov = s.prov := rfl
@[simp] theorem logEv_heldAdmin (e : Ev) (i : Nat) (l : List Nat) : (logEv e i l s).heldAdmin = s.heldAdmin := rfl
@[simp] theorem logEv_released (e : Ev) (i : Nat) (l : List Nat) : (logEv e i l s).released = s.released := rfl
@[simp] theorem logEv_nowMs (e : Ev) (i : Nat) (l : List Nat) : (logEv e i l s).nowMs = s.nowMs := rfl
@[simp] theorem logEv_outs (e : Ev) (i : Nat) (l : List Nat) : (logEv e i l s).outs = s.outs := rfl
@[simp] theorem logEv_cleared (e : Ev) (i : Nat) (l : List Nat) : (logEv e i l s).cleared = s.cleared := rfl
@[simp] theorem logEv_heldOuts (e : Ev) (i : Nat) (l : List Nat) : (logEv e i l s).heldOuts = s.heldOuts := rfl
@[simp] theorem logEv_fresh (e : Ev) (i : Nat) (l : List Nat) : (logEv e i l s).fresh = s.fresh := rfl
@[simp] theorem logEv_pending (e : Ev) (i : Nat) (l : List Nat) : (logEv e i l s).pending = s.pending := rfl

/-! ### setFld -/

@[simp] theorem setFld_ident (w i : Nat) (f : Fld) (v : Nat) : (setFld w i f v s).ident = s.ident := rfl
@[simp] theorem setFld_mem (w i : Nat) (f : Fld) (v : Nat) : (setFld w i f v s).mem = s.mem := rfl
@[simp] theorem setFld_regs (w i : Nat) (f : Fld) (v : Nat) : (setFld w i f v s).regs = { s.regs with live := putVal w i f v s.regs.live } := rfl
@[simp] theorem setFld_island (w i : Nat) (f : Fld) (v : Nat) : (setFld w i f v s).island = s.island := rfl
@[simp] theorem setFld_mesh (w i : Nat) (f : Fld) (v : Nat) : (setFld w i f v s).mesh = s.mesh := rfl
@[simp] theorem setFld_host (w i : Nat) (f : Fld) (v : Nat) : (setFld w i f v s).host = s.host := rfl
@[simp] theorem setFld_reg (w i : Nat) (f : Fld) (v : Nat) : (setFld w i f v s).reg = s.reg := rfl
@[simp] theorem setFld_clock (w i : Nat) (f : Fld) (v : Nat) : (setFld w i f v s).clock = s.clock := rfl
@[simp] theorem setFld_map (w i : Nat) (f : Fld) (v : Nat) : (setFld w i f v s).map = s.map := rfl
@[simp] theorem setFld_wr (w i : Nat) (f : Fld) (v : Nat) : (setFld w i f v s).wr = s.wr := rfl
@[simp] theorem setFld_rcl (w i : Nat) (f : Fld) (v : Nat) : (setFld w i f v s).rcl = s.rcl := rfl
@[simp] theorem setFld_media (w i : Nat) (f : Fld) (v : Nat) : (setFld w i f v s).media = s.media := rfl
@[simp] theorem setFld_red (w i : Nat) (f : Fld) (v : Nat) : (setFld w i f v s).red = s.red := rfl
@[simp] theorem setFld_pools (w i : Nat) (f : Fld) (v : Nat) : (setFld w i f v s).pools = s.pools := rfl
@[simp] theorem setFld_eng (w i : Nat) (f : Fld) (v : Nat) : (setFld w i f v s).eng = s.eng := rfl
@[simp] theorem setFld_cmpSlots (w i : Nat) (f : Fld) (v : Nat) : (setFld w i f v s).cmpSlots = s.cmpSlots := rfl
@[simp] theorem setFld_cry (w i : Nat) (f : Fld) (v : Nat) : (setFld w i f v s).cry = s.cry := rfl
@[simp] theorem setFld_drams (w i : Nat) (f : Fld) (v : Nat) : (setFld w i f v s).drams = s.drams := rfl
@[simp] theorem setFld_plp (w i : Nat) (f : Fld) (v : Nat) : (setFld w i f v s).plp = s.plp := rfl
@[simp] theorem setFld_therm (w i : Nat) (f : Fld) (v : Nat) : (setFld w i f v s).therm = s.therm := rfl
@[simp] theorem setFld_clk (w i : Nat) (f : Fld) (v : Nat) : (setFld w i f v s).clk = s.clk := rfl
@[simp] theorem setFld_power (w i : Nat) (f : Fld) (v : Nat) : (setFld w i f v s).power = s.power := rfl
@[simp] theorem setFld_evr (w i : Nat) (f : Fld) (v : Nat) : (setFld w i f v s).evr = s.evr := rfl
@[simp] theorem setFld_board (w i : Nat) (f : Fld) (v : Nat) : (setFld w i f v s).board = s.board := rfl
@[simp] theorem setFld_fw (w i : Nat) (f : Fld) (v : Nat) : (setFld w i f v s).fw = s.fw := rfl
@[simp] theorem setFld_mgmt (w i : Nat) (f : Fld) (v : Nat) : (setFld w i f v s).mgmt = s.mgmt := rfl
@[simp] theorem setFld_health (w i : Nat) (f : Fld) (v : Nat) : (setFld w i f v s).health = s.health := rfl
@[simp] theorem setFld_prov (w i : Nat) (f : Fld) (v : Nat) : (setFld w i f v s).prov = s.prov := rfl
@[simp] theorem setFld_heldAdmin (w i : Nat) (f : Fld) (v : Nat) : (setFld w i f v s).heldAdmin = s.heldAdmin := rfl
@[simp] theorem setFld_released (w i : Nat) (f : Fld) (v : Nat) : (setFld w i f v s).released = s.released := rfl
@[simp] theorem setFld_nowMs (w i : Nat) (f : Fld) (v : Nat) : (setFld w i f v s).nowMs = s.nowMs := rfl
@[simp] theorem setFld_outs (w i : Nat) (f : Fld) (v : Nat) : (setFld w i f v s).outs = s.outs := rfl
@[simp] theorem setFld_cleared (w i : Nat) (f : Fld) (v : Nat) : (setFld w i f v s).cleared = s.cleared := rfl
@[simp] theorem setFld_heldOuts (w i : Nat) (f : Fld) (v : Nat) : (setFld w i f v s).heldOuts = s.heldOuts := rfl
@[simp] theorem setFld_fresh (w i : Nat) (f : Fld) (v : Nat) : (setFld w i f v s).fresh = s.fresh := rfl
@[simp] theorem setFld_pending (w i : Nat) (f : Fld) (v : Nat) : (setFld w i f v s).pending = s.pending := rfl

/-! ### countLife -/

@[simp] theorem countLife_ident (i : Nat) : (countLife i s).ident = s.ident := rfl
@[simp] theorem countLife_mem (i : Nat) : (countLife i s).mem = s.mem := rfl
@[simp] theorem countLife_regs (i : Nat) : (countLife i s).regs = s.regs := rfl
@[simp] theorem countLife_island (i : Nat) : (countLife i s).island = s.island := rfl
@[simp] theorem countLife_mesh (i : Nat) : (countLife i s).mesh = s.mesh := rfl
@[simp] theorem countLife_host (i : Nat) : (countLife i s).host = s.host := rfl
@[simp] theorem countLife_reg (i : Nat) : (countLife i s).reg = s.reg := rfl
@[simp] theorem countLife_clock (i : Nat) : (countLife i s).clock = s.clock := rfl
@[simp] theorem countLife_map (i : Nat) : (countLife i s).map = s.map := rfl
@[simp] theorem countLife_wr (i : Nat) : (countLife i s).wr = s.wr := rfl
@[simp] theorem countLife_rcl (i : Nat) : (countLife i s).rcl = s.rcl := rfl
@[simp] theorem countLife_media (i : Nat) : (countLife i s).media = s.media := rfl
@[simp] theorem countLife_red (i : Nat) : (countLife i s).red = s.red := rfl
@[simp] theorem countLife_pools (i : Nat) : (countLife i s).pools = s.pools := rfl
@[simp] theorem countLife_eng (i : Nat) : (countLife i s).eng = s.eng := rfl
@[simp] theorem countLife_cmpSlots (i : Nat) : (countLife i s).cmpSlots = s.cmpSlots := rfl
@[simp] theorem countLife_cry (i : Nat) : (countLife i s).cry = s.cry := rfl
@[simp] theorem countLife_drams (i : Nat) : (countLife i s).drams = s.drams := rfl
@[simp] theorem countLife_plp (i : Nat) : (countLife i s).plp = s.plp := rfl
@[simp] theorem countLife_therm (i : Nat) : (countLife i s).therm = s.therm := rfl
@[simp] theorem countLife_clk (i : Nat) : (countLife i s).clk = s.clk := rfl
@[simp] theorem countLife_power (i : Nat) : (countLife i s).power = s.power := rfl
@[simp] theorem countLife_evr (i : Nat) : (countLife i s).evr = s.evr := rfl
@[simp] theorem countLife_board (i : Nat) : (countLife i s).board = s.board := rfl
@[simp] theorem countLife_fw (i : Nat) : (countLife i s).fw = s.fw := rfl
@[simp] theorem countLife_mgmt (i : Nat) : (countLife i s).mgmt = s.mgmt := rfl
@[simp] theorem countLife_health (i : Nat) : (countLife i s).health = { s.health with life := s.health.life.set i (sat (2 ^ 64 - 1) (s.health.life.getD i 0 + 1)) } := rfl
@[simp] theorem countLife_prov (i : Nat) : (countLife i s).prov = s.prov := rfl
@[simp] theorem countLife_heldAdmin (i : Nat) : (countLife i s).heldAdmin = s.heldAdmin := rfl
@[simp] theorem countLife_released (i : Nat) : (countLife i s).released = s.released := rfl
@[simp] theorem countLife_nowMs (i : Nat) : (countLife i s).nowMs = s.nowMs := rfl
@[simp] theorem countLife_outs (i : Nat) : (countLife i s).outs = s.outs := rfl
@[simp] theorem countLife_cleared (i : Nat) : (countLife i s).cleared = s.cleared := rfl
@[simp] theorem countLife_heldOuts (i : Nat) : (countLife i s).heldOuts = s.heldOuts := rfl
@[simp] theorem countLife_fresh (i : Nat) : (countLife i s).fresh = s.fresh := rfl
@[simp] theorem countLife_pending (i : Nat) : (countLife i s).pending = s.pending := rfl

/-! ### addFld -/

@[simp] theorem addFld_ident (w i : Nat) (f : Fld) (n : Nat) : (addFld w i f n s).ident = s.ident := rfl
@[simp] theorem addFld_mem (w i : Nat) (f : Fld) (n : Nat) : (addFld w i f n s).mem = s.mem := rfl
@[simp] theorem addFld_regs (w i : Nat) (f : Fld) (n : Nat) : (addFld w i f n s).regs = { s.regs with live := putVal w i f (f.counted (s.fld w i f + n)) s.regs.live } := rfl
@[simp] theorem addFld_island (w i : Nat) (f : Fld) (n : Nat) : (addFld w i f n s).island = s.island := rfl
@[simp] theorem addFld_mesh (w i : Nat) (f : Fld) (n : Nat) : (addFld w i f n s).mesh = s.mesh := rfl
@[simp] theorem addFld_host (w i : Nat) (f : Fld) (n : Nat) : (addFld w i f n s).host = s.host := rfl
@[simp] theorem addFld_reg (w i : Nat) (f : Fld) (n : Nat) : (addFld w i f n s).reg = s.reg := rfl
@[simp] theorem addFld_clock (w i : Nat) (f : Fld) (n : Nat) : (addFld w i f n s).clock = s.clock := rfl
@[simp] theorem addFld_map (w i : Nat) (f : Fld) (n : Nat) : (addFld w i f n s).map = s.map := rfl
@[simp] theorem addFld_wr (w i : Nat) (f : Fld) (n : Nat) : (addFld w i f n s).wr = s.wr := rfl
@[simp] theorem addFld_rcl (w i : Nat) (f : Fld) (n : Nat) : (addFld w i f n s).rcl = s.rcl := rfl
@[simp] theorem addFld_media (w i : Nat) (f : Fld) (n : Nat) : (addFld w i f n s).media = s.media := rfl
@[simp] theorem addFld_red (w i : Nat) (f : Fld) (n : Nat) : (addFld w i f n s).red = s.red := rfl
@[simp] theorem addFld_pools (w i : Nat) (f : Fld) (n : Nat) : (addFld w i f n s).pools = s.pools := rfl
@[simp] theorem addFld_eng (w i : Nat) (f : Fld) (n : Nat) : (addFld w i f n s).eng = s.eng := rfl
@[simp] theorem addFld_cmpSlots (w i : Nat) (f : Fld) (n : Nat) : (addFld w i f n s).cmpSlots = s.cmpSlots := rfl
@[simp] theorem addFld_cry (w i : Nat) (f : Fld) (n : Nat) : (addFld w i f n s).cry = s.cry := rfl
@[simp] theorem addFld_drams (w i : Nat) (f : Fld) (n : Nat) : (addFld w i f n s).drams = s.drams := rfl
@[simp] theorem addFld_plp (w i : Nat) (f : Fld) (n : Nat) : (addFld w i f n s).plp = s.plp := rfl
@[simp] theorem addFld_therm (w i : Nat) (f : Fld) (n : Nat) : (addFld w i f n s).therm = s.therm := rfl
@[simp] theorem addFld_clk (w i : Nat) (f : Fld) (n : Nat) : (addFld w i f n s).clk = s.clk := rfl
@[simp] theorem addFld_power (w i : Nat) (f : Fld) (n : Nat) : (addFld w i f n s).power = s.power := rfl
@[simp] theorem addFld_evr (w i : Nat) (f : Fld) (n : Nat) : (addFld w i f n s).evr = s.evr := rfl
@[simp] theorem addFld_board (w i : Nat) (f : Fld) (n : Nat) : (addFld w i f n s).board = s.board := rfl
@[simp] theorem addFld_fw (w i : Nat) (f : Fld) (n : Nat) : (addFld w i f n s).fw = s.fw := rfl
@[simp] theorem addFld_mgmt (w i : Nat) (f : Fld) (n : Nat) : (addFld w i f n s).mgmt = s.mgmt := rfl
@[simp] theorem addFld_health (w i : Nat) (f : Fld) (n : Nat) : (addFld w i f n s).health = s.health := rfl
@[simp] theorem addFld_prov (w i : Nat) (f : Fld) (n : Nat) : (addFld w i f n s).prov = s.prov := rfl
@[simp] theorem addFld_heldAdmin (w i : Nat) (f : Fld) (n : Nat) : (addFld w i f n s).heldAdmin = s.heldAdmin := rfl
@[simp] theorem addFld_released (w i : Nat) (f : Fld) (n : Nat) : (addFld w i f n s).released = s.released := rfl
@[simp] theorem addFld_nowMs (w i : Nat) (f : Fld) (n : Nat) : (addFld w i f n s).nowMs = s.nowMs := rfl
@[simp] theorem addFld_outs (w i : Nat) (f : Fld) (n : Nat) : (addFld w i f n s).outs = s.outs := rfl
@[simp] theorem addFld_cleared (w i : Nat) (f : Fld) (n : Nat) : (addFld w i f n s).cleared = s.cleared := rfl
@[simp] theorem addFld_heldOuts (w i : Nat) (f : Fld) (n : Nat) : (addFld w i f n s).heldOuts = s.heldOuts := rfl
@[simp] theorem addFld_fresh (w i : Nat) (f : Fld) (n : Nat) : (addFld w i f n s).fresh = s.fresh := rfl
@[simp] theorem addFld_pending (w i : Nat) (f : Fld) (n : Nat) : (addFld w i f n s).pending = s.pending := rfl

/-! ### setT -/

@[simp] theorem setT_ident (w : Nat) (f : Fld) (v : Nat) : (setT w f v s).ident = s.ident := rfl
@[simp] theorem setT_mem (w : Nat) (f : Fld) (v : Nat) : (setT w f v s).mem = s.mem := rfl
@[simp] theorem setT_regs (w : Nat) (f : Fld) (v : Nat) : (setT w f v s).regs = { s.regs with live := putVal w 0 f v s.regs.live } := rfl
@[simp] theorem setT_island (w : Nat) (f : Fld) (v : Nat) : (setT w f v s).island = s.island := rfl
@[simp] theorem setT_mesh (w : Nat) (f : Fld) (v : Nat) : (setT w f v s).mesh = s.mesh := rfl
@[simp] theorem setT_host (w : Nat) (f : Fld) (v : Nat) : (setT w f v s).host = s.host := rfl
@[simp] theorem setT_reg (w : Nat) (f : Fld) (v : Nat) : (setT w f v s).reg = s.reg := rfl
@[simp] theorem setT_clock (w : Nat) (f : Fld) (v : Nat) : (setT w f v s).clock = s.clock := rfl
@[simp] theorem setT_map (w : Nat) (f : Fld) (v : Nat) : (setT w f v s).map = s.map := rfl
@[simp] theorem setT_wr (w : Nat) (f : Fld) (v : Nat) : (setT w f v s).wr = s.wr := rfl
@[simp] theorem setT_rcl (w : Nat) (f : Fld) (v : Nat) : (setT w f v s).rcl = s.rcl := rfl
@[simp] theorem setT_media (w : Nat) (f : Fld) (v : Nat) : (setT w f v s).media = s.media := rfl
@[simp] theorem setT_red (w : Nat) (f : Fld) (v : Nat) : (setT w f v s).red = s.red := rfl
@[simp] theorem setT_pools (w : Nat) (f : Fld) (v : Nat) : (setT w f v s).pools = s.pools := rfl
@[simp] theorem setT_eng (w : Nat) (f : Fld) (v : Nat) : (setT w f v s).eng = s.eng := rfl
@[simp] theorem setT_cmpSlots (w : Nat) (f : Fld) (v : Nat) : (setT w f v s).cmpSlots = s.cmpSlots := rfl
@[simp] theorem setT_cry (w : Nat) (f : Fld) (v : Nat) : (setT w f v s).cry = s.cry := rfl
@[simp] theorem setT_drams (w : Nat) (f : Fld) (v : Nat) : (setT w f v s).drams = s.drams := rfl
@[simp] theorem setT_plp (w : Nat) (f : Fld) (v : Nat) : (setT w f v s).plp = s.plp := rfl
@[simp] theorem setT_therm (w : Nat) (f : Fld) (v : Nat) : (setT w f v s).therm = s.therm := rfl
@[simp] theorem setT_clk (w : Nat) (f : Fld) (v : Nat) : (setT w f v s).clk = s.clk := rfl
@[simp] theorem setT_power (w : Nat) (f : Fld) (v : Nat) : (setT w f v s).power = s.power := rfl
@[simp] theorem setT_evr (w : Nat) (f : Fld) (v : Nat) : (setT w f v s).evr = s.evr := rfl
@[simp] theorem setT_board (w : Nat) (f : Fld) (v : Nat) : (setT w f v s).board = s.board := rfl
@[simp] theorem setT_fw (w : Nat) (f : Fld) (v : Nat) : (setT w f v s).fw = s.fw := rfl
@[simp] theorem setT_mgmt (w : Nat) (f : Fld) (v : Nat) : (setT w f v s).mgmt = s.mgmt := rfl
@[simp] theorem setT_health (w : Nat) (f : Fld) (v : Nat) : (setT w f v s).health = s.health := rfl
@[simp] theorem setT_prov (w : Nat) (f : Fld) (v : Nat) : (setT w f v s).prov = s.prov := rfl
@[simp] theorem setT_heldAdmin (w : Nat) (f : Fld) (v : Nat) : (setT w f v s).heldAdmin = s.heldAdmin := rfl
@[simp] theorem setT_released (w : Nat) (f : Fld) (v : Nat) : (setT w f v s).released = s.released := rfl
@[simp] theorem setT_nowMs (w : Nat) (f : Fld) (v : Nat) : (setT w f v s).nowMs = s.nowMs := rfl
@[simp] theorem setT_outs (w : Nat) (f : Fld) (v : Nat) : (setT w f v s).outs = s.outs := rfl
@[simp] theorem setT_cleared (w : Nat) (f : Fld) (v : Nat) : (setT w f v s).cleared = s.cleared := rfl
@[simp] theorem setT_heldOuts (w : Nat) (f : Fld) (v : Nat) : (setT w f v s).heldOuts = s.heldOuts := rfl
@[simp] theorem setT_fresh (w : Nat) (f : Fld) (v : Nat) : (setT w f v s).fresh = s.fresh := rfl
@[simp] theorem setT_pending (w : Nat) (f : Fld) (v : Nat) : (setT w f v s).pending = s.pending := rfl

/-! ### setG -/

@[simp] theorem setG_ident (f : Fld) (v : Nat) : (setG f v s).ident = s.ident := rfl
@[simp] theorem setG_mem (f : Fld) (v : Nat) : (setG f v s).mem = s.mem := rfl
@[simp] theorem setG_regs (f : Fld) (v : Nat) : (setG f v s).regs = { s.regs with live := putVal pkgWin 0 f v s.regs.live } := rfl
@[simp] theorem setG_island (f : Fld) (v : Nat) : (setG f v s).island = s.island := rfl
@[simp] theorem setG_mesh (f : Fld) (v : Nat) : (setG f v s).mesh = s.mesh := rfl
@[simp] theorem setG_host (f : Fld) (v : Nat) : (setG f v s).host = s.host := rfl
@[simp] theorem setG_reg (f : Fld) (v : Nat) : (setG f v s).reg = s.reg := rfl
@[simp] theorem setG_clock (f : Fld) (v : Nat) : (setG f v s).clock = s.clock := rfl
@[simp] theorem setG_map (f : Fld) (v : Nat) : (setG f v s).map = s.map := rfl
@[simp] theorem setG_wr (f : Fld) (v : Nat) : (setG f v s).wr = s.wr := rfl
@[simp] theorem setG_rcl (f : Fld) (v : Nat) : (setG f v s).rcl = s.rcl := rfl
@[simp] theorem setG_media (f : Fld) (v : Nat) : (setG f v s).media = s.media := rfl
@[simp] theorem setG_red (f : Fld) (v : Nat) : (setG f v s).red = s.red := rfl
@[simp] theorem setG_pools (f : Fld) (v : Nat) : (setG f v s).pools = s.pools := rfl
@[simp] theorem setG_eng (f : Fld) (v : Nat) : (setG f v s).eng = s.eng := rfl
@[simp] theorem setG_cmpSlots (f : Fld) (v : Nat) : (setG f v s).cmpSlots = s.cmpSlots := rfl
@[simp] theorem setG_cry (f : Fld) (v : Nat) : (setG f v s).cry = s.cry := rfl
@[simp] theorem setG_drams (f : Fld) (v : Nat) : (setG f v s).drams = s.drams := rfl
@[simp] theorem setG_plp (f : Fld) (v : Nat) : (setG f v s).plp = s.plp := rfl
@[simp] theorem setG_therm (f : Fld) (v : Nat) : (setG f v s).therm = s.therm := rfl
@[simp] theorem setG_clk (f : Fld) (v : Nat) : (setG f v s).clk = s.clk := rfl
@[simp] theorem setG_power (f : Fld) (v : Nat) : (setG f v s).power = s.power := rfl
@[simp] theorem setG_evr (f : Fld) (v : Nat) : (setG f v s).evr = s.evr := rfl
@[simp] theorem setG_board (f : Fld) (v : Nat) : (setG f v s).board = s.board := rfl
@[simp] theorem setG_fw (f : Fld) (v : Nat) : (setG f v s).fw = s.fw := rfl
@[simp] theorem setG_mgmt (f : Fld) (v : Nat) : (setG f v s).mgmt = s.mgmt := rfl
@[simp] theorem setG_health (f : Fld) (v : Nat) : (setG f v s).health = s.health := rfl
@[simp] theorem setG_prov (f : Fld) (v : Nat) : (setG f v s).prov = s.prov := rfl
@[simp] theorem setG_heldAdmin (f : Fld) (v : Nat) : (setG f v s).heldAdmin = s.heldAdmin := rfl
@[simp] theorem setG_released (f : Fld) (v : Nat) : (setG f v s).released = s.released := rfl
@[simp] theorem setG_nowMs (f : Fld) (v : Nat) : (setG f v s).nowMs = s.nowMs := rfl
@[simp] theorem setG_outs (f : Fld) (v : Nat) : (setG f v s).outs = s.outs := rfl
@[simp] theorem setG_cleared (f : Fld) (v : Nat) : (setG f v s).cleared = s.cleared := rfl
@[simp] theorem setG_heldOuts (f : Fld) (v : Nat) : (setG f v s).heldOuts = s.heldOuts := rfl
@[simp] theorem setG_fresh (f : Fld) (v : Nat) : (setG f v s).fresh = s.fresh := rfl
@[simp] theorem setG_pending (f : Fld) (v : Nat) : (setG f v s).pending = s.pending := rfl

/-! ### addT -/

@[simp] theorem addT_ident (w : Nat) (f : Fld) (n : Nat) : (addT w f n s).ident = s.ident := rfl
@[simp] theorem addT_mem (w : Nat) (f : Fld) (n : Nat) : (addT w f n s).mem = s.mem := rfl
@[simp] theorem addT_regs (w : Nat) (f : Fld) (n : Nat) : (addT w f n s).regs = { s.regs with live := putVal w 0 f (f.counted (s.fld w 0 f + n)) s.regs.live } := rfl
@[simp] theorem addT_island (w : Nat) (f : Fld) (n : Nat) : (addT w f n s).island = s.island := rfl
@[simp] theorem addT_mesh (w : Nat) (f : Fld) (n : Nat) : (addT w f n s).mesh = s.mesh := rfl
@[simp] theorem addT_host (w : Nat) (f : Fld) (n : Nat) : (addT w f n s).host = s.host := rfl
@[simp] theorem addT_reg (w : Nat) (f : Fld) (n : Nat) : (addT w f n s).reg = s.reg := rfl
@[simp] theorem addT_clock (w : Nat) (f : Fld) (n : Nat) : (addT w f n s).clock = s.clock := rfl
@[simp] theorem addT_map (w : Nat) (f : Fld) (n : Nat) : (addT w f n s).map = s.map := rfl
@[simp] theorem addT_wr (w : Nat) (f : Fld) (n : Nat) : (addT w f n s).wr = s.wr := rfl
@[simp] theorem addT_rcl (w : Nat) (f : Fld) (n : Nat) : (addT w f n s).rcl = s.rcl := rfl
@[simp] theorem addT_media (w : Nat) (f : Fld) (n : Nat) : (addT w f n s).media = s.media := rfl
@[simp] theorem addT_red (w : Nat) (f : Fld) (n : Nat) : (addT w f n s).red = s.red := rfl
@[simp] theorem addT_pools (w : Nat) (f : Fld) (n : Nat) : (addT w f n s).pools = s.pools := rfl
@[simp] theorem addT_eng (w : Nat) (f : Fld) (n : Nat) : (addT w f n s).eng = s.eng := rfl
@[simp] theorem addT_cmpSlots (w : Nat) (f : Fld) (n : Nat) : (addT w f n s).cmpSlots = s.cmpSlots := rfl
@[simp] theorem addT_cry (w : Nat) (f : Fld) (n : Nat) : (addT w f n s).cry = s.cry := rfl
@[simp] theorem addT_drams (w : Nat) (f : Fld) (n : Nat) : (addT w f n s).drams = s.drams := rfl
@[simp] theorem addT_plp (w : Nat) (f : Fld) (n : Nat) : (addT w f n s).plp = s.plp := rfl
@[simp] theorem addT_therm (w : Nat) (f : Fld) (n : Nat) : (addT w f n s).therm = s.therm := rfl
@[simp] theorem addT_clk (w : Nat) (f : Fld) (n : Nat) : (addT w f n s).clk = s.clk := rfl
@[simp] theorem addT_power (w : Nat) (f : Fld) (n : Nat) : (addT w f n s).power = s.power := rfl
@[simp] theorem addT_evr (w : Nat) (f : Fld) (n : Nat) : (addT w f n s).evr = s.evr := rfl
@[simp] theorem addT_board (w : Nat) (f : Fld) (n : Nat) : (addT w f n s).board = s.board := rfl
@[simp] theorem addT_fw (w : Nat) (f : Fld) (n : Nat) : (addT w f n s).fw = s.fw := rfl
@[simp] theorem addT_mgmt (w : Nat) (f : Fld) (n : Nat) : (addT w f n s).mgmt = s.mgmt := rfl
@[simp] theorem addT_health (w : Nat) (f : Fld) (n : Nat) : (addT w f n s).health = s.health := rfl
@[simp] theorem addT_prov (w : Nat) (f : Fld) (n : Nat) : (addT w f n s).prov = s.prov := rfl
@[simp] theorem addT_heldAdmin (w : Nat) (f : Fld) (n : Nat) : (addT w f n s).heldAdmin = s.heldAdmin := rfl
@[simp] theorem addT_released (w : Nat) (f : Fld) (n : Nat) : (addT w f n s).released = s.released := rfl
@[simp] theorem addT_nowMs (w : Nat) (f : Fld) (n : Nat) : (addT w f n s).nowMs = s.nowMs := rfl
@[simp] theorem addT_outs (w : Nat) (f : Fld) (n : Nat) : (addT w f n s).outs = s.outs := rfl
@[simp] theorem addT_cleared (w : Nat) (f : Fld) (n : Nat) : (addT w f n s).cleared = s.cleared := rfl
@[simp] theorem addT_heldOuts (w : Nat) (f : Fld) (n : Nat) : (addT w f n s).heldOuts = s.heldOuts := rfl
@[simp] theorem addT_fresh (w : Nat) (f : Fld) (n : Nat) : (addT w f n s).fresh = s.fresh := rfl
@[simp] theorem addT_pending (w : Nat) (f : Fld) (n : Nat) : (addT w f n s).pending = s.pending := rfl

/-! ### bump -/

@[simp] theorem bump_ident (w : Nat) (f : Fld) : (bump w f s).ident = s.ident := rfl
@[simp] theorem bump_mem (w : Nat) (f : Fld) : (bump w f s).mem = s.mem := rfl
@[simp] theorem bump_regs (w : Nat) (f : Fld) : (bump w f s).regs = { s.regs with live := putVal w 0 f (f.counted (s.fld w 0 f + 1)) s.regs.live } := rfl
@[simp] theorem bump_island (w : Nat) (f : Fld) : (bump w f s).island = s.island := rfl
@[simp] theorem bump_mesh (w : Nat) (f : Fld) : (bump w f s).mesh = s.mesh := rfl
@[simp] theorem bump_host (w : Nat) (f : Fld) : (bump w f s).host = s.host := rfl
@[simp] theorem bump_reg (w : Nat) (f : Fld) : (bump w f s).reg = s.reg := rfl
@[simp] theorem bump_clock (w : Nat) (f : Fld) : (bump w f s).clock = s.clock := rfl
@[simp] theorem bump_map (w : Nat) (f : Fld) : (bump w f s).map = s.map := rfl
@[simp] theorem bump_wr (w : Nat) (f : Fld) : (bump w f s).wr = s.wr := rfl
@[simp] theorem bump_rcl (w : Nat) (f : Fld) : (bump w f s).rcl = s.rcl := rfl
@[simp] theorem bump_media (w : Nat) (f : Fld) : (bump w f s).media = s.media := rfl
@[simp] theorem bump_red (w : Nat) (f : Fld) : (bump w f s).red = s.red := rfl
@[simp] theorem bump_pools (w : Nat) (f : Fld) : (bump w f s).pools = s.pools := rfl
@[simp] theorem bump_eng (w : Nat) (f : Fld) : (bump w f s).eng = s.eng := rfl
@[simp] theorem bump_cmpSlots (w : Nat) (f : Fld) : (bump w f s).cmpSlots = s.cmpSlots := rfl
@[simp] theorem bump_cry (w : Nat) (f : Fld) : (bump w f s).cry = s.cry := rfl
@[simp] theorem bump_drams (w : Nat) (f : Fld) : (bump w f s).drams = s.drams := rfl
@[simp] theorem bump_plp (w : Nat) (f : Fld) : (bump w f s).plp = s.plp := rfl
@[simp] theorem bump_therm (w : Nat) (f : Fld) : (bump w f s).therm = s.therm := rfl
@[simp] theorem bump_clk (w : Nat) (f : Fld) : (bump w f s).clk = s.clk := rfl
@[simp] theorem bump_power (w : Nat) (f : Fld) : (bump w f s).power = s.power := rfl
@[simp] theorem bump_evr (w : Nat) (f : Fld) : (bump w f s).evr = s.evr := rfl
@[simp] theorem bump_board (w : Nat) (f : Fld) : (bump w f s).board = s.board := rfl
@[simp] theorem bump_fw (w : Nat) (f : Fld) : (bump w f s).fw = s.fw := rfl
@[simp] theorem bump_mgmt (w : Nat) (f : Fld) : (bump w f s).mgmt = s.mgmt := rfl
@[simp] theorem bump_health (w : Nat) (f : Fld) : (bump w f s).health = s.health := rfl
@[simp] theorem bump_prov (w : Nat) (f : Fld) : (bump w f s).prov = s.prov := rfl
@[simp] theorem bump_heldAdmin (w : Nat) (f : Fld) : (bump w f s).heldAdmin = s.heldAdmin := rfl
@[simp] theorem bump_released (w : Nat) (f : Fld) : (bump w f s).released = s.released := rfl
@[simp] theorem bump_nowMs (w : Nat) (f : Fld) : (bump w f s).nowMs = s.nowMs := rfl
@[simp] theorem bump_outs (w : Nat) (f : Fld) : (bump w f s).outs = s.outs := rfl
@[simp] theorem bump_cleared (w : Nat) (f : Fld) : (bump w f s).cleared = s.cleared := rfl
@[simp] theorem bump_heldOuts (w : Nat) (f : Fld) : (bump w f s).heldOuts = s.heldOuts := rfl
@[simp] theorem bump_fresh (w : Nat) (f : Fld) : (bump w f s).fresh = s.fresh := rfl
@[simp] theorem bump_pending (w : Nat) (f : Fld) : (bump w f s).pending = s.pending := rfl

/-! ### reject -/

@[simp] theorem reject_ident (i o r : Nat) : (reject i o r s).ident = s.ident := rfl
@[simp] theorem reject_mem (i o r : Nat) : (reject i o r s).mem = s.mem := rfl
@[simp] theorem reject_regs (i o r : Nat) : (reject i o r s).regs = s.regs := rfl
@[simp] theorem reject_island (i o r : Nat) : (reject i o r s).island = s.island := rfl
@[simp] theorem reject_mesh (i o r : Nat) : (reject i o r s).mesh = s.mesh := rfl
@[simp] theorem reject_host (i o r : Nat) : (reject i o r s).host = s.host := rfl
@[simp] theorem reject_reg (i o r : Nat) : (reject i o r s).reg = s.reg := rfl
@[simp] theorem reject_clock (i o r : Nat) : (reject i o r s).clock = s.clock := rfl
@[simp] theorem reject_map (i o r : Nat) : (reject i o r s).map = s.map := rfl
@[simp] theorem reject_wr (i o r : Nat) : (reject i o r s).wr = s.wr := rfl
@[simp] theorem reject_rcl (i o r : Nat) : (reject i o r s).rcl = s.rcl := rfl
@[simp] theorem reject_media (i o r : Nat) : (reject i o r s).media = s.media := rfl
@[simp] theorem reject_red (i o r : Nat) : (reject i o r s).red = s.red := rfl
@[simp] theorem reject_pools (i o r : Nat) : (reject i o r s).pools = s.pools := rfl
@[simp] theorem reject_eng (i o r : Nat) : (reject i o r s).eng = s.eng := rfl
@[simp] theorem reject_cmpSlots (i o r : Nat) : (reject i o r s).cmpSlots = s.cmpSlots := rfl
@[simp] theorem reject_cry (i o r : Nat) : (reject i o r s).cry = s.cry := rfl
@[simp] theorem reject_drams (i o r : Nat) : (reject i o r s).drams = s.drams := rfl
@[simp] theorem reject_plp (i o r : Nat) : (reject i o r s).plp = s.plp := rfl
@[simp] theorem reject_therm (i o r : Nat) : (reject i o r s).therm = s.therm := rfl
@[simp] theorem reject_clk (i o r : Nat) : (reject i o r s).clk = s.clk := rfl
@[simp] theorem reject_power (i o r : Nat) : (reject i o r s).power = s.power := rfl
@[simp] theorem reject_evr (i o r : Nat) : (reject i o r s).evr = { s.evr with raised := s.evr.raised ++ [{ ev := .cfgReject, tile := i, params := [o, r] }] } := rfl
@[simp] theorem reject_board (i o r : Nat) : (reject i o r s).board = s.board := rfl
@[simp] theorem reject_fw (i o r : Nat) : (reject i o r s).fw = s.fw := rfl
@[simp] theorem reject_mgmt (i o r : Nat) : (reject i o r s).mgmt = s.mgmt := rfl
@[simp] theorem reject_health (i o r : Nat) : (reject i o r s).health = s.health := rfl
@[simp] theorem reject_prov (i o r : Nat) : (reject i o r s).prov = s.prov := rfl
@[simp] theorem reject_heldAdmin (i o r : Nat) : (reject i o r s).heldAdmin = s.heldAdmin := rfl
@[simp] theorem reject_released (i o r : Nat) : (reject i o r s).released = s.released := rfl
@[simp] theorem reject_nowMs (i o r : Nat) : (reject i o r s).nowMs = s.nowMs := rfl
@[simp] theorem reject_outs (i o r : Nat) : (reject i o r s).outs = s.outs := rfl
@[simp] theorem reject_cleared (i o r : Nat) : (reject i o r s).cleared = s.cleared := rfl
@[simp] theorem reject_heldOuts (i o r : Nat) : (reject i o r s).heldOuts = s.heldOuts := rfl
@[simp] theorem reject_fresh (i o r : Nat) : (reject i o r s).fresh = s.fresh := rfl
@[simp] theorem reject_pending (i o r : Nat) : (reject i o r s).pending = s.pending := rfl

end Sys2Proof.Machine
end

