-- ==== Sys2Proof/Laws/Regs.lean ====
section
/-!
SUPPORT. Sys2Proof/Laws/Regs.lean: a register field reads as it was last set, and every other field as before.
-/
namespace Sys2Proof.Machine
open Sys2Proof

theorem find?_filter_not {α : Type} (p q : α → Bool) (h : ∀ x, p x = true → q x = false) : ∀ l : List α,
    (l.filter fun x => !q x).find? p = l.find? p
  | [] => rfl
  | x :: l => by
    by_cases hp : p x = true
    · simp [h x hp, hp]
    · by_cases hq : q x = true
      · simp [hq, hp, find?_filter_not p q h l]
      · simp [hq, hp, find?_filter_not p q h l]

theorem find?_filter_self {α : Type} (q : α → Bool) : ∀ l : List α, (l.filter fun x => !q x).find? q = none
  | [] => rfl
  | x :: l => by by_cases hq : q x = true <;> simp [hq]

theorem valOf_putVal_self (l : List RegVal) (w i : Nat) (f : Fld) (v : Nat) : valOf (putVal w i f v l) w i f = v := by
  unfold valOf putVal
  by_cases h : v == f.resetOf i
  · have h' : v = f.resetOf i := by simpa using h
    simp only [h, if_true, find?_filter_self (fun r : RegVal => r.win == w && r.idx == i && r.fld == f)]
    exact h'.symm
  · simp [h]

theorem valOf_putVal_other (l : List RegVal) {w i w' i' : Nat} {f f' : Fld} (v : Nat)
    (h : ¬(w' = w ∧ i' = i ∧ f' = f)) : valOf (putVal w i f v l) w' i' f' = valOf l w' i' f' := by
  have hk : ∀ r : RegVal, (r.win == w' && r.idx == i' && r.fld == f') = true →
      (r.win == w && r.idx == i && r.fld == f) = false := by
    intro r hr
    simp only [Bool.and_eq_true, beq_iff_eq] at hr
    obtain ⟨⟨h1, h2⟩, h3⟩ := hr
    subst h1 h2 h3
    by_contra hc
    simp only [Bool.not_eq_false, Bool.and_eq_true, beq_iff_eq] at hc
    exact h ⟨hc.1.1, hc.1.2, hc.2⟩
  unfold valOf putVal
  have key := find?_filter_not (fun r : RegVal => r.win == w' && r.idx == i' && r.fld == f')
    (fun r : RegVal => r.win == w && r.idx == i && r.fld == f) hk l
  by_cases hv : v == f.resetOf i
  · simp only [hv, if_true, key]
  · have hn : (w == w' && i == i' && f == f') = false := by
      by_contra hc
      simp only [Bool.not_eq_false, Bool.and_eq_true, beq_iff_eq] at hc
      exact h ⟨hc.1.1.symm, hc.1.2.symm, hc.2.symm⟩
    simp only [hv, Bool.false_eq_true, if_false, List.find?_cons, hn, key]

/-- A register field reads as it was last set, every other one as before. -/
theorem fld_setFld (s : State) (w i w' i' : Nat) (f f' : Fld) (v : Nat) :
    (setFld w i f v s).fld w' i' f' = if w' = w ∧ i' = i ∧ f' = f then v else s.fld w' i' f' := by
  by_cases h : w' = w ∧ i' = i ∧ f' = f
  · obtain ⟨rfl, rfl, rfl⟩ := h
    simp [State.fld, valOf_putVal_self]
  · simp [State.fld, valOf_putVal_other _ _ h, h]

@[simp] theorem fld_emit (s : State) (o : Out) (w i : Nat) (f : Fld) : (emit o s).fld w i f = s.fld w i f := rfl
@[simp] theorem fld_logEv (s : State) (e : Ev) (t : Nat) (l : List Nat) (w i : Nat) (f : Fld) :
    (logEv e t l s).fld w i f = s.fld w i f := rfl
@[simp] theorem fld_countLife (s : State) (n w i : Nat) (f : Fld) : (countLife n s).fld w i f = s.fld w i f := rfl

theorem fld_addFld (s : State) (w i w' i' : Nat) (f f' : Fld) (n : Nat) :
    (addFld w i f n s).fld w' i' f' =
      if w' = w ∧ i' = i ∧ f' = f then f.counted (s.fld w i f + n) else s.fld w' i' f' :=
  fld_setFld s w i w' i' f f' _

end Sys2Proof.Machine
end

