-- ==== Sys2Proof/Laws/Frames.lean ====
section
/-!
SUPPORT. Sys2Proof/Laws/Frames.lean: what freeing buffers, ending a command, answering an admin command and sending an asynchronous
event may touch, said once for each.
-/
namespace Sys2Proof.Machine
open Sys2Proof

theorem OnlyHostSide.refl (s : State) : OnlyHostSide s s := ⟨rfl, rfl, fun _ _ _ _ => rfl⟩

theorem OnlyHostSide.trans {s t u : State} (h : OnlyHostSide s t) (k : OnlyHostSide t u) : OnlyHostSide s u := by
  refine ⟨?_, k.2.1.trans h.2.1, fun w i f hf => (k.2.2 w i f hf).trans (h.2.2 w i f hf)⟩
  have k1 := k.1
  rw [h.1] at k1
  exact k1

theorem onlyHostSide_foldl {α : Type} (f : State → α → State) (h : ∀ s x, OnlyHostSide s (f s x)) :
    ∀ (l : List α) (s : State), OnlyHostSide s (l.foldl f s)
  | [], s => .refl s
  | x :: l, s => (h s x).trans (onlyHostSide_foldl f h l (f s x))

theorem onlyHostSide_putPool (p : Pool) (s : State) : OnlyHostSide s (putPool p s) :=
  ⟨by simp only [putPool], rfl, fun _ _ _ _ => rfl⟩

theorem onlyHostSide_linkFree (i : Nat) (p : Pool) (s : State) : OnlyHostSide s (linkFree i p s) :=
  ⟨by simp only [linkFree, putPool], by simp only [linkFree, putPool, plainExts],
   fun _ _ _ _ => by simp only [linkFree, putPool, State.fld]⟩

theorem onlyHostSide_freeBuffer (t h : Nat) (s : State) : OnlyHostSide s (freeBuffer t h s) := by
  unfold freeBuffer
  split
  · refine ⟨rfl, rfl, fun w i f hf => ?_⟩
    simp only [fld_logEv, bump, addT, fld_addFld]
    rw [if_neg (fun h => hf h.2.2)]
  · split
    · exact ⟨rfl, rfl, fun _ _ _ _ => rfl⟩
    · simp only
      split
      · exact onlyHostSide_putPool _ s
      · split
        · exact onlyHostSide_putPool _ s
        · exact onlyHostSide_linkFree _ _ s

theorem onlyHostSide_freeBuffers (t : Nat) (l : List Nat) (s : State) : OnlyHostSide s (freeBuffers t l s) :=
  onlyHostSide_foldl _ (fun s h => onlyHostSide_freeBuffer t h s) l s

theorem onlyHostSide_updCtrl (k : Nat) (f : Ctrl → Ctrl) (s : State) : OnlyHostSide s (updCtrl k f s) := ⟨rfl, rfl, fun _ _ _ _ => rfl⟩
theorem onlyHostSide_updCmd (k : Nat) (f : Cmd → Cmd) (s : State) : OnlyHostSide s (updCmd k f s) := ⟨rfl, rfl, fun _ _ _ _ => rfl⟩
theorem onlyHostSide_dropCmd (k : Nat) (s : State) : OnlyHostSide s (dropCmd k s) := ⟨rfl, rfl, fun _ _ _ _ => rfl⟩
theorem onlyHostSide_emit (o : Out) (s : State) : OnlyHostSide s (emit o s) := ⟨rfl, rfl, fun _ _ _ _ => rfl⟩
theorem onlyHostSide_logEv (e : Ev) (t : Nat) (l : List Nat) (s : State) : OnlyHostSide s (logEv e t l s) := ⟨rfl, rfl, fun _ _ _ _ => rfl⟩
theorem onlyHostSide_logError (c : Cmd) (st : Status) (s : State) : OnlyHostSide s (logError c st s) := ⟨rfl, rfl, fun _ _ _ _ => rfl⟩

theorem onlyHostSide_freezeQueue (c : Cmd) (st : Status) (s : State) : OnlyHostSide s (freezeQueue c st s) := by
  unfold freezeQueue
  split
  · exact ⟨rfl, rfl, fun _ _ _ _ => rfl⟩
  · split <;> exact ⟨rfl, rfl, fun _ _ _ _ => rfl⟩

theorem onlyHostSide_meterCommand (c : Cmd) (m : Bool) (s : State) : OnlyHostSide s (meterCommand c m s) := by
  unfold meterCommand
  simp only
  split <;> exact ⟨rfl, rfl, fun _ _ _ _ => rfl⟩

theorem onlyHostSide_postCq (c : Cmd) (s : State) : OnlyHostSide s (postCq c s) := by
  unfold postCq
  split
  · exact ⟨rfl, rfl, fun _ _ _ _ => rfl⟩
  · split
    · exact ⟨rfl, rfl, fun _ _ _ _ => rfl⟩
    · simp only
      split
      · exact ⟨rfl, rfl, fun _ _ _ _ => rfl⟩
      · split <;> exact ⟨rfl, rfl, fun _ _ _ _ => rfl⟩

theorem onlyHostSide_sendTo (k q : Nat) (o : Out) (s : State) : OnlyHostSide s (sendTo k q o s) := by
  unfold sendTo
  split
  · split <;> exact ⟨rfl, rfl, fun _ _ _ _ => rfl⟩
  · exact ⟨rfl, rfl, fun _ _ _ _ => rfl⟩

theorem onlyHostSide_shutdownDone (k : Nat) (s : State) : OnlyHostSide s (shutdownDone k s) := by
  unfold shutdownDone
  split <;> exact ⟨rfl, rfl, fun _ _ _ _ => rfl⟩

theorem onlyHostSide_ackExts (c : Cmd) (s : State) : OnlyHostSide s (ackExts c s) := by
  unfold ackExts
  split
  · exact .refl s
  · refine ⟨rfl, ?_, fun _ _ _ _ => rfl⟩
    simp only [plainExts, List.map_map]
    refine List.map_congr_left fun e _ => ?_
    simp only [Function.comp_apply]
    split <;> rfl

theorem onlyHostSide_postOne (c : Cmd) (s : State) : OnlyHostSide s (postOne c s) := by
  unfold postOne
  simp only
  refine OnlyHostSide.trans ?_ (onlyHostSide_shutdownDone _ _)
  refine OnlyHostSide.trans ?_ (onlyHostSide_dropCmd c.id _)
  refine OnlyHostSide.trans ?_ (onlyHostSide_postCq c _)
  refine OnlyHostSide.trans ?_ (onlyHostSide_freeBuffers c.tile c.bufs _)
  refine OnlyHostSide.trans ?_ (onlyHostSide_ackExts c _)
  refine OnlyHostSide.trans ?_ (onlyHostSide_meterCommand c _ _)
  have h1 : OnlyHostSide s (if c.status == .success then s else freezeQueue c c.status (logError c c.status s)) := by
    split
    · exact .refl s
    · exact (onlyHostSide_logError c _ s).trans (onlyHostSide_freezeQueue c _ _)
  refine h1.trans ?_
  generalize (if c.status == .success then s else freezeQueue c c.status (logError c c.status s)) = x
  have h2 : ∀ y : State, ∀ (b : Bool) (o : Out), OnlyHostSide y (if b = true then sendTo c.cntlid c.sqid o y else y) := fun y b o => by
    split
    · exact onlyHostSide_sendTo _ _ _ y
    · exact .refl y
  have h3 : ∀ y : State, ∀ (b : Bool) (o : Out), OnlyHostSide y (if b = true then y else sendTo c.cntlid c.sqid o y) := fun y b o => by
    split
    · exact .refl y
    · exact onlyHostSide_sendTo _ _ _ y
  split
  · exact ((h2 _ _ _).trans (h3 _ _ _)).trans (onlyHostSide_sendTo _ _ _ _)
  · exact (h2 _ _ _).trans (h3 _ _ _)

theorem onlyHostSide_postEnded (s : State) : OnlyHostSide s (postEnded s) := by
  refine onlyHostSide_foldl _ (fun s id => ?_) _ s
  split
  · split
    · exact onlyHostSide_postOne _ s
    · exact ⟨rfl, rfl, fun _ _ _ _ => rfl⟩
  · exact ⟨rfl, rfl, fun _ _ _ _ => rfl⟩

/-- Ending a command. -/
theorem onlyHostSide_finishCmd (id : Nat) (st : Status) (dw0 : Nat) (s : State) : OnlyHostSide s (finishCmd id st dw0 s) := by
  unfold finishCmd
  split
  · exact ⟨rfl, rfl, fun _ _ _ _ => rfl⟩
  · split
    · exact (((onlyHostSide_freeBuffers _ _ s).trans (onlyHostSide_dropCmd id _)).trans (onlyHostSide_shutdownDone _ _)).trans
        (onlyHostSide_postEnded _)
    · exact (onlyHostSide_updCmd id _ s).trans (onlyHostSide_postEnded _)

theorem onlyHostSide_putRing (r : Ring) (s : State) : OnlyHostSide s (putRing r s) := ⟨rfl, rfl, fun _ _ _ _ => rfl⟩

theorem onlyHostSide_pushRing (k : Nat) (d : List Field) (s : State) : OnlyHostSide s (pushRing k d s) := by
  have h : ∀ r a b, OnlyHostSide s (emit a (emit b (putRing r s))) := fun r a b =>
    ((onlyHostSide_putRing r s).trans (onlyHostSide_emit b _)).trans (onlyHostSide_emit a _)
  unfold pushRing
  dsimp only
  split
  · exact (h _ _ _).trans (onlyHostSide_emit _ _)
  · exact h _ _ _

theorem onlyHostSide_respond (r n a b x : Nat) (s : State) : OnlyHostSide s (respond r n a b x s) := by
  unfold respond
  split
  · exact ⟨rfl, rfl, fun _ _ _ _ => rfl⟩
  · simp only
    split
    · exact ⟨rfl, rfl, fun _ _ _ _ => rfl⟩
    · refine OnlyHostSide.trans ?_ (onlyHostSide_pushRing 1 _ _)
      exact ⟨rfl, rfl, fun _ _ _ _ => rfl⟩

/-- Ending an admin command or a command of the command ring. -/
theorem onlyHostSide_admDone (a : Adm) (st : Status) (dw0 : Nat) (s : State) : OnlyHostSide s (admDone a st dw0 s) := by
  cases a with
  | host id => exact onlyHostSide_finishCmd id st dw0 s
  | ring => exact onlyHostSide_respond _ _ _ _ _ s
  | conn id => exact .refl s

theorem onlyHostSide_admReply (a : Adm) (d : List Field) (s : State) : OnlyHostSide s (admReply a d s) := by
  cases a with
  | host id =>
    simp only [admReply]
    split
    · split
      · exact .refl s
      · exact onlyHostSide_sendTo _ _ _ s
    · exact .refl s
  | ring => exact onlyHostSide_emit _ s
  | conn id => exact .refl s

theorem onlyHostSide_admAnswer (a : Adm) (d : List Field) (s : State) : OnlyHostSide s (admAnswer a d s) :=
  (onlyHostSide_admReply a d s).trans (onlyHostSide_admDone a _ _ _)

theorem onlyHostSide_holdAdmin (a : Adm) (i : Instr) (s : State) : OnlyHostSide s (holdAdmin a i s) := ⟨rfl, rfl, fun _ _ _ _ => rfl⟩

theorem onlyHostSide_admPark (a : Adm) (s : State) : OnlyHostSide s (admPark a s) := by cases a <;> exact ⟨rfl, rfl, fun _ _ _ _ => rfl⟩

/-- Sending an asynchronous event. -/
theorem onlyHostSide_raiseAen (k kind info : Nat) (s : State) : OnlyHostSide s (raiseAen k kind info s) := by
  unfold raiseAen
  split
  · exact ⟨rfl, rfl, fun _ _ _ _ => rfl⟩
  · split
    · exact (onlyHostSide_updCtrl _ _ s).trans (onlyHostSide_finishCmd _ _ _ _)
    · split <;> exact ⟨rfl, rfl, fun _ _ _ _ => rfl⟩

theorem onlyHostSide_nsChanged (l : List Nat) (s : State) : OnlyHostSide s (nsChanged l s) :=
  onlyHostSide_foldl _ (fun s id => onlyHostSide_raiseAen id 2 0 s) _ s

theorem onlyHostSide_anaRefresh (s : State) : OnlyHostSide s (anaRefresh s) :=
  onlyHostSide_foldl _ (fun s _ => (onlyHostSide_updCtrl _ _ s).trans (onlyHostSide_raiseAen _ _ _ _)) _ s

/-- A change of the critical warning. -/
theorem onlyHostSide_smartRefresh (s : State) : OnlyHostSide s (smartRefresh s) := by
  unfold smartRefresh
  simp only
  split
  · exact .refl s
  · refine OnlyHostSide.trans ?_ (onlyHostSide_emit _ _)
    refine OnlyHostSide.trans (t := { s with health := { s.health with crit := critWarning s } }) ⟨rfl, rfl, fun _ _ _ _ => rfl⟩ ?_
    exact onlyHostSide_foldl _ (fun s id => onlyHostSide_raiseAen id 1 0 s) _ _

end Sys2Proof.Machine
end

