-- ==== Sys2Proof/Laws/Memory.lean ====
section
/-!
SUPPORT. Sys2Proof/Laws/Memory.lean: a read after a write gives what was written, a write leaves every other byte alone, and every
operation keeps the canonical form.
-/
namespace Sys2Proof.Machine
open Sys2Proof

@[simp] theorem memRead_nil (a : Nat) : memRead [] a = unwritten := rfl

theorem memAbove_mono {a b : Nat} (h : a ≤ b) : ∀ {m : List Host.Cell}, memAbove b m = true → memAbove a m = true
  | [], _ => rfl
  | c :: m, hm => by simp only [memAbove, Bool.and_eq_true, decide_eq_true_eq] at *; exact ⟨⟨by omega, hm.1.2⟩, hm.2⟩

/-- An address that is not above the bound of the form is not listed. -/
theorem memRead_below {a b : Nat} : ∀ {m : List Host.Cell}, memAbove b m = true → a ≤ b → memRead m a = unwritten
  | [], _, _ => rfl
  | c :: m, hm, h => by
    simp only [memAbove, Bool.and_eq_true, decide_eq_true_eq] at hm
    have : (c.1 == a) = false := by simp; omega
    simp only [memRead, this]
    exact memRead_below hm.2 (by omega)

theorem memRead_memPut (a b : Nat) (x : Byte) : ∀ m : List Host.Cell,
    memRead (memPut a x m) b = if a = b then x else memRead m b
  | [] => by by_cases h : a = b <;> simp [memPut, memRead, h]
  | c :: m => by
    unfold memPut
    split
    · by_cases h : a = b <;> simp [memRead, h]
    · split
      · rename_i h1 h2
        have h2 : c.1 = a := by simpa using h2
        by_cases h : a = b
        · simp [memRead, h]
        · have : ¬c.1 = b := by omega
          simp [memRead, h, this]
      · rename_i h1 h2
        have h2 : ¬c.1 = a := by simpa using h2
        simp only [memRead, memRead_memPut a b x m]
        by_cases h : a = b
        · subst h; simp [h2]
        · simp [h]

theorem memRead_memDrop (a b k : Nat) : ∀ m : List Host.Cell, memAbove k m = true →
    memRead (memDrop a m) b = if a = b then unwritten else memRead m b
  | [], _ => by simp [memDrop]
  | c :: m, hm => by
    simp only [memAbove, Bool.and_eq_true, decide_eq_true_eq] at hm
    unfold memDrop
    split
    · rename_i h1
      have h1 : c.1 = a := by simpa using h1
      by_cases h : a = b
      · subst h; simp [memRead_below hm.2 (by omega : a ≤ c.1)]
      · have : ¬c.1 = b := by omega
        simp [memRead, h, this]
    · rename_i h1
      have h1 : ¬c.1 = a := by simpa using h1
      simp only [memRead, memRead_memDrop a b _ m hm.2]
      by_cases h : a = b
      · subst h; simp [h1]
      · simp [h]

theorem memAbove_of_wf {m : List Host.Cell} (h : Memory.wf m = true) :
    m = [] ∨ ∃ c r, m = c :: r ∧ c.2 ≠ unwritten ∧ memAbove c.1 r = true := by
  cases m with
  | nil => exact .inl rfl
  | cons c r => exact .inr ⟨c, r, rfl, by simpa [Memory.wf] using h⟩

/-- A byte reads as it was last written, and every other byte as before. -/
theorem memRead_memWrite (a b : Nat) (x : Byte) {m : List Host.Cell} (h : Memory.wf m = true) :
    memRead (memWrite a x m) b = if a = b then x else memRead m b := by
  unfold memWrite
  split
  · rename_i hx
    have hx : x = unwritten := by simpa using hx
    subst hx
    cases m with
    | nil => simp [memDrop]
    | cons c r =>
      simp only [Memory.wf, Bool.and_eq_true] at h
      unfold memDrop
      split
      · rename_i h1
        have h1 : c.1 = a := by simpa using h1
        by_cases hb : a = b
        · subst hb; simp [memRead_below h.2 (by omega : a ≤ c.1)]
        · have : ¬c.1 = b := by omega
          simp [memRead, hb, this]
      · rename_i h1
        have h1 : ¬c.1 = a := by simpa using h1
        simp only [memRead, memRead_memDrop a b _ r h.2]
        by_cases hb : a = b
        · subst hb; simp [h1]
        · simp [hb]
  · exact memRead_memPut a b x m

theorem memAbove_memPut {a k : Nat} {x : Byte} (hx : x ≠ unwritten) : ∀ {m : List Host.Cell}, memAbove k m = true → k < a →
    memAbove k (memPut a x m) = true
  | [], _, h => by simp [memPut, memAbove, hx, h]
  | c :: m, hm, h => by
    simp only [memAbove, Bool.and_eq_true, decide_eq_true_eq] at hm
    unfold memPut
    split
    · rename_i h1; simp [memAbove, hx, h, h1, hm.2]
      simpa using hm.1.2
    · split
      · rename_i h2
        have h2 : c.1 = a := by simpa using h2
        subst h2
        simp [memAbove, hx, h, hm.2]
      · rename_i h1 h2
        have h2 : ¬c.1 = a := by simpa using h2
        simp only [memAbove, Bool.and_eq_true, decide_eq_true_eq]
        exact ⟨hm.1, memAbove_memPut hx hm.2 (by omega)⟩

theorem memAbove_memDrop {a k : Nat} : ∀ {m : List Host.Cell}, memAbove k m = true → memAbove k (memDrop a m) = true
  | [], _ => rfl
  | c :: m, hm => by
    simp only [memAbove, Bool.and_eq_true, decide_eq_true_eq] at hm
    unfold memDrop
    split
    · exact memAbove_mono (by omega) hm.2
    · simp only [memAbove, Bool.and_eq_true, decide_eq_true_eq]
      exact ⟨hm.1, memAbove_memDrop hm.2⟩

theorem wf_of_memAbove {k : Nat} : ∀ {m : List Host.Cell}, memAbove k m = true → Memory.wf m = true
  | [], _ => rfl
  | c :: m, hm => by
    simp only [memAbove, Bool.and_eq_true] at hm
    simp [Memory.wf, hm.2]; simpa using hm.1.2

theorem wf_memPut {a : Nat} {x : Byte} (hx : x ≠ unwritten) {m : List Host.Cell} (h : Memory.wf m = true) :
    Memory.wf (memPut a x m) = true := by
  cases m with
  | nil => simp [memPut, Memory.wf, memAbove, hx]
  | cons c r =>
    simp only [Memory.wf, Bool.and_eq_true] at h
    unfold memPut
    split
    · rename_i h1; simp [Memory.wf, memAbove, hx, h1, h.2]; simpa using h.1
    · split
      · rename_i h2
        have h2 : c.1 = a := by simpa using h2
        subst h2
        simp [Memory.wf, hx, h.2]
      · rename_i h1 h2
        have h2 : ¬c.1 = a := by simpa using h2
        simp only [Memory.wf, Bool.and_eq_true]
        exact ⟨h.1, memAbove_memPut hx h.2 (by omega)⟩

theorem wf_memDrop {a : Nat} {m : List Host.Cell} (h : Memory.wf m = true) : Memory.wf (memDrop a m) = true := by
  cases m with
  | nil => rfl
  | cons c r =>
    simp only [Memory.wf, Bool.and_eq_true] at h
    unfold memDrop
    split
    · exact wf_of_memAbove h.2
    · simp only [Memory.wf, Bool.and_eq_true]
      exact ⟨h.1, memAbove_memDrop h.2⟩

/-- Writing a byte keeps the canonical form. -/
theorem wf_memWrite (a : Nat) (x : Byte) {m : List Host.Cell} (h : Memory.wf m = true) :
    Memory.wf (memWrite a x m) = true := by
  unfold memWrite
  split
  · exact wf_memDrop h
  · rename_i hx; exact wf_memPut (by simpa using hx) h

/-- Writing bytes keeps the canonical form. -/
theorem wf_writeBytes : ∀ (b : Bytes) (a : Nat) {m : List Host.Cell}, Memory.wf m = true →
    Memory.wf (writeBytes a b m) = true
  | [], _, _, h => h
  | x :: bs, a, _, h => wf_writeBytes bs (a + 1) (wf_memWrite a x h)

/-- A byte outside the bytes written reads as before, a byte among them as it was written. -/
theorem memRead_writeBytes : ∀ (b : Bytes) (a k : Nat) {m : List Host.Cell}, Memory.wf m = true →
    memRead (writeBytes a b m) k = if a ≤ k ∧ k < a + b.length then b.getD (k - a) unwritten else memRead m k
  | [], a, k, m, _ => by simp [writeBytes]
  | x :: bs, a, k, m, h => by
    rw [writeBytes, memRead_writeBytes bs (a + 1) k (wf_memWrite a x h), memRead_memWrite a k x h]
    by_cases h1 : a + 1 ≤ k ∧ k < a + 1 + bs.length
    · have h2 : a ≤ k ∧ k < a + (bs.length + 1) := by omega
      have h3 : k - a = (k - (a + 1)) + 1 := by omega
      simp only [h1, h2, and_self, if_true, List.length_cons, h3]
      simp
    · by_cases h4 : a = k
      · subst h4; simp
      · have h2 : ¬(a ≤ k ∧ k < a + (bs.length + 1)) := by omega
        rw [if_neg h1, if_neg h4, List.length_cons, if_neg h2]

end Sys2Proof.Machine
end

