-- ==== Sys2Proof/Laws/Kept.lean ====
section
/-!
SUPPORT. Sys2Proof/Laws/Kept.lean: what every operation keeps: the queue, the identity of the unit, and the canonical form of the
memory. One lemma for each operation, in the order of the files that define them.
-/
namespace Sys2Proof.Machine
open Sys2Proof

/-- The same unit: of the identity only fuses may have been blown since. -/
def SameUnit (a b : Ident) : Prop :=
  b = { a with securityFloor := b.securityFloor, keyRevoked := b.keyRevoked } ∧
  (∀ k, k < 32 → a.securityFloor.testBit k = true → b.securityFloor.testBit k = true) ∧
  ∀ k, k < 4 → bitOf a.keyRevoked k = true → bitOf b.keyRevoked k = true

/-- From `s` to `t` the queue and the unit are the same, and a canonical memory stays canonical. -/
structure Kept (s t : State) : Prop where
  pending : t.pending = s.pending
  unit : SameUnit s.ident t.ident
  mem : Memory.wf s.mem = true → Memory.wf t.mem = true

theorem Kept.refl (s : State) : Kept s s := ⟨rfl, ⟨rfl, fun _ _ h => h, fun _ _ h => h⟩, id⟩

theorem Kept.trans {s t u : State} (h : Kept s t) (k : Kept t u) : Kept s u := by
  refine ⟨k.pending.trans h.pending, ⟨?_, fun n l x => k.unit.2.1 n l (h.unit.2.1 n l x),
    fun n l x => k.unit.2.2 n l (h.unit.2.2 n l x)⟩, fun x => k.mem (h.mem x)⟩
  rw [k.unit.1, h.unit.1]

/-- An update of other fields. -/
theorem Kept.upd {s t : State} {regs' : RegFile} {island' : Island} {mesh' : Mesh} {host' : HostSide} {reg' : Registry} {clock' : Clock} {map' : MapState} {wr' : WriteState} {rcl' : ReclaimState} {media' : MediaState} {red' : RedState} {pools' : List Pool} {cmpSlots' : List CmpSlot} {eng' : Engines} {cry' : CryptoState} {drams' : List Dram} {plp' : Plp} {therm' : Therm} {clk' : Clk} {power' : Power} {evr' : Evr} {board' : Board} {fw' : FwState} {mgmt' : Mgmt} {health' : Health} {prov' : Option ProvOp} {heldAdmin' : List (Adm × Instr)} {released' : List (Adm × Instr)} {cleared' : List Adm} {nowMs' : Nat} {outs' : List Out} {heldOuts' : List HeldOut} {fresh' : Nat} (h : Kept s t) :
    Kept s ⟨t.ident, t.mem, regs', island', mesh', host', reg', clock', map', wr', rcl', media', red', pools', cmpSlots', eng', cry', drams', plp', therm', clk', power', evr', board', fw', mgmt', health', prov', heldAdmin', released', cleared', nowMs', outs', heldOuts', fresh', t.pending⟩ := ⟨h.pending, h.unit, h.mem⟩

/-- An update of the buffer memory. -/
theorem Kept.updMem {s t : State} {a : Nat} {l : Bytes} {regs' : RegFile} {island' : Island} {mesh' : Mesh} {host' : HostSide} {reg' : Registry} {clock' : Clock} {map' : MapState} {wr' : WriteState} {rcl' : ReclaimState} {media' : MediaState} {red' : RedState} {pools' : List Pool} {cmpSlots' : List CmpSlot} {eng' : Engines} {cry' : CryptoState} {drams' : List Dram} {plp' : Plp} {therm' : Therm} {clk' : Clk} {power' : Power} {evr' : Evr} {board' : Board} {fw' : FwState} {mgmt' : Mgmt} {health' : Health} {prov' : Option ProvOp} {heldAdmin' : List (Adm × Instr)} {released' : List (Adm × Instr)} {cleared' : List Adm} {nowMs' : Nat} {outs' : List Out} {heldOuts' : List HeldOut} {fresh' : Nat} (h : Kept s t) :
    Kept s ⟨t.ident, writeBytes a l t.mem, regs', island', mesh', host', reg', clock', map', wr', rcl', media', red', pools', cmpSlots', eng', cry', drams', plp', therm', clk', power', evr', board', fw', mgmt', health', prov', heldAdmin', released', cleared', nowMs', outs', heldOuts', fresh', t.pending⟩ := ⟨h.pending, h.unit, fun x => wf_writeBytes l a (h.mem x)⟩

/-- An update that clears the buffer memory. -/
theorem Kept.updNil {s t : State} {regs' : RegFile} {island' : Island} {mesh' : Mesh} {host' : HostSide} {reg' : Registry} {clock' : Clock} {map' : MapState} {wr' : WriteState} {rcl' : ReclaimState} {media' : MediaState} {red' : RedState} {pools' : List Pool} {cmpSlots' : List CmpSlot} {eng' : Engines} {cry' : CryptoState} {drams' : List Dram} {plp' : Plp} {therm' : Therm} {clk' : Clk} {power' : Power} {evr' : Evr} {board' : Board} {fw' : FwState} {mgmt' : Mgmt} {health' : Health} {prov' : Option ProvOp} {heldAdmin' : List (Adm × Instr)} {released' : List (Adm × Instr)} {cleared' : List Adm} {nowMs' : Nat} {outs' : List Out} {heldOuts' : List HeldOut} {fresh' : Nat} (h : Kept s t) :
    Kept s ⟨t.ident, [], regs', island', mesh', host', reg', clock', map', wr', rcl', media', red', pools', cmpSlots', eng', cry', drams', plp', therm', clk', power', evr', board', fw', mgmt', health', prov', heldAdmin', released', cleared', nowMs', outs', heldOuts', fresh', t.pending⟩ := ⟨h.pending, h.unit, fun _ => rfl⟩

theorem Kept.upd_iff {s t : State} {regs' : RegFile} {island' : Island} {mesh' : Mesh} {host' : HostSide} {reg' : Registry} {clock' : Clock} {map' : MapState} {wr' : WriteState} {rcl' : ReclaimState} {media' : MediaState} {red' : RedState} {pools' : List Pool} {cmpSlots' : List CmpSlot} {eng' : Engines} {cry' : CryptoState} {drams' : List Dram} {plp' : Plp} {therm' : Therm} {clk' : Clk} {power' : Power} {evr' : Evr} {board' : Board} {fw' : FwState} {mgmt' : Mgmt} {health' : Health} {prov' : Option ProvOp} {heldAdmin' : List (Adm × Instr)} {released' : List (Adm × Instr)} {cleared' : List Adm} {nowMs' : Nat} {outs' : List Out} {heldOuts' : List HeldOut} {fresh' : Nat} :
    Kept s ⟨t.ident, t.mem, regs', island', mesh', host', reg', clock', map', wr', rcl', media', red', pools', cmpSlots', eng', cry', drams', plp', therm', clk', power', evr', board', fw', mgmt', health', prov', heldAdmin', released', cleared', nowMs', outs', heldOuts', fresh', t.pending⟩ ↔ Kept s t := ⟨fun h => ⟨h.pending, h.unit, h.mem⟩, Kept.upd⟩

theorem Kept.foldl {α : Type} {s : State} {g : State → α → State} {l : List α} {b : State} (h : Kept s b)
    (hg : ∀ x a, Kept s x → Kept s (g x a)) : Kept s (l.foldl g b) := by
  induction l generalizing b with
  | nil => exact h
  | cons a l ih => exact ih (hg _ _ h)

theorem kept_emit {s t : State} {o : Out} (h : Kept s t) :
    Kept s (emit o t) := by
  unfold emit
  try dsimp only
  repeat' first
    | with_reducible assumption
    | with_reducible exact Kept.refl _
    | simp only [Kept.upd_iff]

theorem kept_logEv {s t : State} {e : Ev} {tile : Nat} {params : List Nat} (h : Kept s t) :
    Kept s (logEv e tile params t) := by
  unfold logEv
  try dsimp only
  repeat' first
    | with_reducible assumption
    | with_reducible exact Kept.refl _
    | simp only [Kept.upd_iff]

theorem kept_reject {s t : State} {tile : Nat} {offset : Nat} {reason : Nat} (h : Kept s t) :
    Kept s (reject tile offset reason t) := by
  unfold reject
  try dsimp only
  repeat' first
    | with_reducible assumption
    | with_reducible exact Kept.refl _
    | with_reducible apply kept_logEv

theorem kept_statusVector {s t : State} {old : State} (h : Kept s t) :
    Kept s (statusVector old t) := by
  unfold statusVector
  try dsimp only
  repeat' first
    | with_reducible assumption
    | with_reducible exact Kept.refl _
    | with_reducible apply kept_emit
    | simp only [Kept.upd_iff]
    | (intro _; try dsimp only [id])
    | split

theorem kept_setFld {s t : State} {w : Nat} {i : Nat} {f : Fld} {v : Nat} (h : Kept s t) :
    Kept s (setFld w i f v t) := by
  unfold setFld
  try dsimp only
  repeat' first
    | with_reducible assumption
    | with_reducible exact Kept.refl _
    | simp only [Kept.upd_iff]

theorem kept_setT {s t : State} {t0 : Nat} {f : Fld} {v : Nat} (h : Kept s t) :
    Kept s (setT t0 f v t) := by
  unfold setT
  try dsimp only
  repeat' first
    | with_reducible assumption
    | with_reducible exact Kept.refl _
    | with_reducible apply kept_setFld

theorem kept_setG {s t : State} {f : Fld} {v : Nat} (h : Kept s t) :
    Kept s (setG f v t) := by
  unfold setG
  try dsimp only
  repeat' first
    | with_reducible assumption
    | with_reducible exact Kept.refl _
    | with_reducible apply kept_setFld

theorem kept_addFld {s t : State} {t0 : Nat} {i : Nat} {f : Fld} {n : Nat} (h : Kept s t) :
    Kept s (addFld t0 i f n t) := by
  unfold addFld
  try dsimp only
  repeat' first
    | with_reducible assumption
    | with_reducible exact Kept.refl _
    | with_reducible apply kept_setFld

theorem kept_addT {s t : State} {t0 : Nat} {f : Fld} {n : Nat} (h : Kept s t) :
    Kept s (addT t0 f n t) := by
  unfold addT
  try dsimp only
  repeat' first
    | with_reducible assumption
    | with_reducible exact Kept.refl _
    | with_reducible apply kept_addFld

theorem kept_bump {s t : State} {t0 : Nat} {f : Fld} (h : Kept s t) :
    Kept s (bump t0 f t) := by
  unfold bump
  try dsimp only
  repeat' first
    | with_reducible assumption
    | with_reducible exact Kept.refl _
    | with_reducible apply kept_addT

theorem kept_countLife {s t : State} {i : Nat} (h : Kept s t) :
    Kept s (countLife i t) := by
  unfold countLife
  try dsimp only
  repeat' first
    | with_reducible assumption
    | with_reducible exact Kept.refl _
    | simp only [Kept.upd_iff]

theorem kept_putTurns {s t : State} {t0 : Nat} {u : EngUnit} {cr : List Nat} (h : Kept s t) :
    Kept s (putTurns t0 u cr t) := by
  unfold putTurns
  try dsimp only
  repeat' first
    | with_reducible assumption
    | with_reducible exact Kept.refl _
    | simp only [Kept.upd_iff]

theorem kept_submit {s t : State} {t0 : Nat} {u : EngUnit} {c : PClass} {w : EngWork} (h : Kept s t) :
    Kept s (submit t0 u c w t) := by
  unfold submit
  try dsimp only
  repeat' first
    | with_reducible assumption
    | with_reducible exact Kept.refl _
    | simp only [Kept.upd_iff]

theorem kept_dropReq {s t : State} {q : EngReq} (h : Kept s t) :
    Kept s (dropReq q t) := by
  unfold dropReq
  try dsimp only
  repeat' first
    | with_reducible assumption
    | with_reducible exact Kept.refl _
    | simp only [Kept.upd_iff]

theorem kept_takeReq {s t u : State} {a : Nat} {w : EngUnit} {may : EngReq → Bool} {r : EngReq} (h : Kept s t)
    (e : takeReq a w may t = some (r, u)) : Kept s u := by
  unfold takeReq at e
  dsimp only at e
  split at e
  · cases e
  · simp only [Option.map_eq_some_iff] at e
    obtain ⟨_, _, e⟩ := e
    cases e
    exact kept_dropReq (kept_putTurns h)

theorem kept_enginesGone {s t : State} {t0 : Nat} (h : Kept s t) :
    Kept s (enginesGone t0 t) := by
  unfold enginesGone
  try dsimp only
  repeat' first
    | with_reducible assumption
    | with_reducible exact Kept.refl _
    | simp only [Kept.upd_iff]

theorem kept_setCfgErr {s t : State} {w : Nat} {r : Reg} (h : Kept s t) :
    Kept s (setCfgErr w r t) := by
  unfold setCfgErr
  try dsimp only
  repeat' first
    | with_reducible assumption
    | with_reducible exact Kept.refl _
    | with_reducible apply kept_setFld
    | simp only [Kept.upd_iff]
    | (intro _; try dsimp only [id])
    | split

theorem kept_writeField {s t : State} {en : Bool} {w : Nat} {i : Nat} {r : Reg} {v : Nat} {f : Fld} (h : Kept s t) :
    Kept s (writeField en w i r v f t) := by
  unfold writeField
  try dsimp only
  repeat' first
    | with_reducible assumption
    | with_reducible exact Kept.refl _
    | with_reducible apply kept_setCfgErr
    | with_reducible apply kept_setFld
    | with_reducible apply kept_reject
    | simp only [Kept.upd_iff]
    | (intro _; try dsimp only [id])
    | split

theorem kept_writeReg {s t : State} {w : Nat} {i : Nat} {r : Reg} {v : Nat} (h : Kept s t) :
    Kept s (writeReg w i r v t) := by
  unfold writeReg
  try dsimp only
  repeat' first
    | with_reducible assumption
    | with_reducible exact Kept.refl _
    | with_reducible apply kept_writeField
    | simp only [Kept.upd_iff]
    | with_reducible apply Kept.foldl
    | (intro _; try dsimp only [id])

theorem kept_writeCfg {s t : State} {w : Nat} {r : Reg} {v : Nat} (h : Kept s t) :
    Kept s (writeCfg w r v t) := by
  unfold writeCfg
  try dsimp only
  repeat' first
    | with_reducible assumption
    | with_reducible exact Kept.refl _
    | with_reducible apply kept_writeReg

theorem kept_writeLow {s t : State} {w : Nat} {i : Nat} {r : Reg} {v : Nat} (h : Kept s t) :
    Kept s (writeLow w i r v t) := by
  unfold writeLow
  try dsimp only
  repeat' first
    | with_reducible assumption
    | with_reducible exact Kept.refl _
    | simp only [Kept.upd_iff]

theorem kept_writeHigh {s t : State} {w : Nat} {i : Nat} {r : Reg} {v : Nat} (h : Kept s t) :
    Kept s (writeHigh w i r v t) := by
  unfold writeHigh
  try dsimp only
  repeat' first
    | with_reducible assumption
    | with_reducible exact Kept.refl _
    | with_reducible apply kept_writeReg

theorem kept_writeEnable {s t : State} {w : Nat} {r : Reg} {f : Fld} {v : Nat} {check : State → Option Nat} {onFail : State → State} {start : State → State} (h : Kept s t) (h_onFail : ∀ x, Kept s x → Kept s (onFail x)) (h_start : ∀ x, Kept s x → Kept s (start x)) :
    Kept s (writeEnable w r f v check onFail start t) := by
  unfold writeEnable
  try dsimp only
  repeat' first
    | with_reducible assumption
    | with_reducible exact Kept.refl _
    | with_reducible apply kept_writeCfg
    | with_reducible apply kept_setT
    | with_reducible apply kept_reject
    | apply h_onFail
    | apply h_start
    | simp only [Kept.upd_iff]
    | (intro _; try dsimp only [id])
    | split

theorem kept_tileWrite {s t : State} {t0 : Nat} {f : State → State} (h : Kept s t) (h_f : ∀ x, Kept s x → Kept s (f x)) :
    Kept s (tileWrite t0 f t) := by
  unfold tileWrite
  try dsimp only
  repeat' first
    | with_reducible assumption
    | with_reducible exact Kept.refl _
    | apply h_f
    | simp only [Kept.upd_iff]
    | (intro _; try dsimp only [id])
    | split

theorem kept_pkgWrite {s t : State} {f : State → State} (h : Kept s t) (h_f : ∀ x, Kept s x → Kept s (f x)) :
    Kept s (pkgWrite f t) := by
  unfold pkgWrite
  try dsimp only
  repeat' first
    | with_reducible assumption
    | with_reducible exact Kept.refl _
    | apply h_f
    | simp only [Kept.upd_iff]
    | (intro _; try dsimp only [id])
    | split

theorem kept_updFw {s t : State} {f : FwState → FwState} (h : Kept s t) :
    Kept s (updFw f t) := by
  unfold updFw
  try dsimp only
  repeat' first
    | with_reducible assumption
    | with_reducible exact Kept.refl _
    | simp only [Kept.upd_iff]

theorem kept_updFlash {s t : State} {f : CodeFlash → CodeFlash} (h : Kept s t) :
    Kept s (updFlash f t) := by
  unfold updFlash
  try dsimp only
  repeat' first
    | with_reducible assumption
    | with_reducible exact Kept.refl _
    | with_reducible apply kept_updFw

theorem kept_countErases {s t : State} {first : Nat} {n : Nat} (h : Kept s t) :
    Kept s (countErases first n t) := by
  unfold countErases
  try dsimp only
  repeat' first
    | with_reducible assumption
    | with_reducible exact Kept.refl _
    | with_reducible apply kept_updFlash

theorem kept_flashAccess {s t : State} (h : Kept s t) :
    Kept s (flashAccess t) := by
  unfold flashAccess
  try dsimp only
  repeat' first
    | with_reducible assumption
    | with_reducible exact Kept.refl _
    | with_reducible apply kept_updFlash

theorem kept_compactSector {s t : State} {k : Nat} {x : Nat} (h : Kept s t) :
    Kept s (compactSector k x t) := by
  unfold compactSector
  try dsimp only
  repeat' first
    | with_reducible assumption
    | with_reducible exact Kept.refl _
    | with_reducible apply kept_countErases
    | with_reducible apply kept_updFw

theorem kept_storeAppend {s t : State} {k : Nat} {i : StoreItem} (h : Kept s t) :
    Kept s (storeAppend k i t) := by
  unfold storeAppend
  try dsimp only
  repeat' first
    | with_reducible assumption
    | with_reducible exact Kept.refl _
    | with_reducible apply kept_compactSector
    | with_reducible apply kept_updFw
    | simp only [Kept.upd_iff]
    | with_reducible apply Kept.foldl
    | (intro _; try dsimp only [id])
    | split

theorem kept_storeWrite {s t : State} {k : Nat} (h : Kept s t) :
    Kept s (storeWrite k t) := by
  unfold storeWrite
  try dsimp only
  repeat' first
    | with_reducible assumption
    | with_reducible exact Kept.refl _
    | with_reducible apply kept_storeAppend
    | simp only [Kept.upd_iff]
    | with_reducible apply Kept.foldl
    | (intro _; try dsimp only [id])
    | split

theorem kept_syncStores {s t : State} (h : Kept s t) :
    Kept s (syncStores t) := by
  unfold syncStores
  try dsimp only
  repeat' first
    | with_reducible assumption
    | with_reducible exact Kept.refl _
    | with_reducible apply kept_storeWrite
    | simp only [Kept.upd_iff]
    | (intro _; try dsimp only [id])
    | split

theorem kept_renewStore {s t : State} {k : Nat} {version : Nat} (h : Kept s t) :
    Kept s (renewStore k version t) := by
  unfold renewStore
  try dsimp only
  repeat' first
    | with_reducible assumption
    | with_reducible exact Kept.refl _
    | with_reducible apply kept_storeWrite
    | with_reducible apply kept_countErases
    | with_reducible apply kept_updFw
    | simp only [Kept.upd_iff]
    | with_reducible apply Kept.foldl
    | (intro _; try dsimp only [id])

theorem kept_openStore {s t : State} {m : Bytes} (h : Kept s t) :
    Kept s (openStore m t) := by
  unfold openStore
  try dsimp only
  repeat' first
    | with_reducible assumption
    | with_reducible exact Kept.refl _
    | with_reducible apply kept_renewStore
    | with_reducible apply kept_updFw
    | simp only [Kept.upd_iff]
    | (intro _; try dsimp only [id])
    | split

theorem kept_takeStores {s t : State} {m : Bytes} (h : Kept s t) :
    Kept s (takeStores m t) := by
  unfold takeStores
  try dsimp only
  repeat' first
    | with_reducible assumption
    | with_reducible exact Kept.refl _
    | with_reducible apply kept_renewStore
    | with_reducible apply kept_updFw
    | simp only [Kept.upd_iff]
    | (intro _; try dsimp only [id])
    | split

theorem kept_logAppend {s t : State} {k : LogKind} (h : Kept s t) :
    Kept s (logAppend k t) := by
  unfold logAppend
  try dsimp only
  repeat' first
    | with_reducible assumption
    | with_reducible exact Kept.refl _
    | with_reducible apply kept_flashAccess
    | with_reducible apply kept_countErases
    | with_reducible apply kept_updFw
    | simp only [Kept.upd_iff]
    | (intro _; try dsimp only [id])
    | split

theorem kept_recordReplay {s t : State} {t0 : Nat} {p : MeshPort} (h : Kept s t) :
    Kept s (recordReplay t t0 p) := by
  unfold recordReplay
  try dsimp only
  repeat' first
    | with_reducible assumption
    | with_reducible exact Kept.refl _
    | with_reducible apply kept_countLife
    | simp only [Kept.upd_iff]

theorem kept_routePkt {s t : State} {t0 : Nat} {inp : MeshPort} {k : MeshPkt} (h : Kept s t) :
    Kept s (routePkt t t0 inp k) := by
  unfold routePkt
  try dsimp only
  repeat' first
    | with_reducible assumption
    | with_reducible exact Kept.refl _
    | simp only [Kept.upd_iff]
    | (intro _; try dsimp only [id])
    | split

theorem kept_meshReceive {s t : State} {tile : Nat} {inp : MeshPort} {pkt : MeshPkt} {crcOk : Bool} (h : Kept s t) :
    Kept s (meshReceive tile inp pkt crcOk t) := by
  unfold meshReceive
  try dsimp only
  repeat' first
    | with_reducible assumption
    | with_reducible exact Kept.refl _
    | with_reducible apply kept_routePkt
    | with_reducible apply kept_recordReplay
    | simp only [Kept.upd_iff]
    | with_reducible apply Kept.foldl
    | (intro _; try dsimp only [id])
    | split

theorem kept_meshSend {s t : State} {tile : Nat} {link : MeshPort} (h : Kept s t) :
    Kept s (meshSend tile link t) := by
  unfold meshSend
  try dsimp only
  repeat' first
    | with_reducible assumption
    | with_reducible exact Kept.refl _
    | simp only [Kept.upd_iff]
    | (intro _; try dsimp only [id])
    | split

theorem kept_setLink {s t : State} {t0 : Nat} {p : MeshPort} {up : Bool} (h : Kept s t) :
    Kept s (setLink t t0 p up) := by
  unfold setLink
  try dsimp only
  repeat' first
    | with_reducible assumption
    | with_reducible exact Kept.refl _
    | simp only [Kept.upd_iff]

theorem kept_reroute {s t : State} {old : State} (h : Kept s t) :
    Kept s (reroute old t) := by
  unfold reroute
  try dsimp only
  repeat' first
    | with_reducible assumption
    | with_reducible exact Kept.refl _
    | simp only [Kept.upd_iff]
    | with_reducible apply Kept.foldl
    | (intro _; try dsimp only [id])
    | split

theorem kept_meshDown {s t : State} {tile : Nat} {link : MeshPort} {trainingLost : Bool} (h : Kept s t) :
    Kept s (meshDown tile link trainingLost t) := by
  unfold meshDown
  try dsimp only
  repeat' first
    | with_reducible assumption
    | with_reducible exact Kept.refl _
    | with_reducible apply kept_reroute
    | with_reducible apply kept_setLink
    | with_reducible apply kept_countLife
    | with_reducible apply kept_logEv
    | simp only [Kept.upd_iff]
    | (intro _; try dsimp only [id])
    | split

theorem kept_meshRetrain {s t : State} {tile : Nat} {link : MeshPort} {ok : Bool} (h : Kept s t) :
    Kept s (meshRetrain tile link ok t) := by
  unfold meshRetrain
  try dsimp only
  repeat' first
    | with_reducible assumption
    | with_reducible exact Kept.refl _
    | with_reducible apply kept_reroute
    | with_reducible apply kept_setLink
    | with_reducible apply kept_logEv
    | simp only [Kept.upd_iff]
    | (intro _; try dsimp only [id])
    | split

theorem kept_holdEnd {s t : State} {src : Nat} {dst : Nat} {late : Bool} (h : Kept s t) :
    Kept s (holdEnd src dst late t) := by
  unfold holdEnd
  try dsimp only
  repeat' first
    | with_reducible assumption
    | with_reducible exact Kept.refl _
    | with_reducible apply kept_routePkt
    | simp only [Kept.upd_iff]
    | with_reducible apply Kept.foldl
    | (intro _; try dsimp only [id])
    | split

theorem kept_putPool {s t : State} {p : Pool} (h : Kept s t) :
    Kept s (putPool p t) := by
  unfold putPool
  try dsimp only
  repeat' first
    | with_reducible assumption
    | with_reducible exact Kept.refl _
    | simp only [Kept.upd_iff]

theorem kept_takeHead {s t u : State} {p : Pool} {ok : Bool} {o : Option Nat} (h : Kept s t) (e : takeHead p ok t = (u, o)) :
    Kept s u := by
  unfold takeHead at e
  dsimp only at e
  split at e <;> cases e
  · exact kept_putPool h
  · exact kept_logEv (kept_putPool h)

theorem kept_allocate {s t u : State} {a len : Nat} {c : PClass} {ok : Bool} {o : Option Nat} (h : Kept s t)
    (e : allocate a len c ok t = (u, o)) : Kept s u := by
  unfold allocate at e
  dsimp only at e
  repeat' split at e
  all_goals cases e
  all_goals first
    | exact h
    | exact kept_bump h
    | exact kept_bump (kept_takeHead h (by assumption))
    | exact kept_takeHead h (by assumption)
    | exact kept_bump (kept_takeHead (kept_takeHead h (by assumption)) (by assumption))

theorem kept_linkFree {s t : State} {i : Nat} {p : Pool} (h : Kept s t) :
    Kept s (linkFree i p t) := by
  unfold linkFree
  try dsimp only
  repeat' first
    | with_reducible assumption
    | with_reducible exact Kept.refl _
    | with_reducible apply kept_putPool
    | simp only [Kept.upd_iff]
    | with_reducible apply Kept.updMem

theorem kept_freeBuffer {s t : State} {t0 : Nat} {h0 : Nat} (h : Kept s t) :
    Kept s (freeBuffer t0 h0 t) := by
  unfold freeBuffer
  try dsimp only
  repeat' first
    | with_reducible assumption
    | with_reducible exact Kept.refl _
    | with_reducible apply kept_linkFree
    | with_reducible apply kept_putPool
    | with_reducible apply kept_bump
    | with_reducible apply kept_logEv
    | simp only [Kept.upd_iff]
    | (intro _; try dsimp only [id])
    | split

theorem kept_freeBuffers {s t : State} {t0 : Nat} {hs : List Nat} (h : Kept s t) :
    Kept s (freeBuffers t0 hs t) := by
  unfold freeBuffers
  try dsimp only
  repeat' first
    | with_reducible assumption
    | with_reducible exact Kept.refl _
    | with_reducible apply kept_freeBuffer
    | simp only [Kept.upd_iff]
    | with_reducible apply Kept.foldl
    | (intro _; try dsimp only [id])

theorem kept_buildPool {s t : State} {t0 : Nat} {n : Nat} (h : Kept s t) :
    Kept s (buildPool t0 n t) := by
  unfold buildPool
  try dsimp only
  repeat' first
    | with_reducible assumption
    | with_reducible exact Kept.refl _
    | with_reducible apply kept_linkFree
    | with_reducible apply kept_putPool
    | simp only [Kept.upd_iff]
    | with_reducible apply Kept.foldl
    | (intro _; try dsimp only [id])
    | split

theorem kept_poolReset {s t : State} {t0 : Nat} {v : Nat} (h : Kept s t) :
    Kept s (poolReset t0 v t) := by
  unfold poolReset
  try dsimp only
  repeat' first
    | with_reducible assumption
    | with_reducible exact Kept.refl _
    | with_reducible apply kept_putPool
    | with_reducible apply kept_reject
    | simp only [Kept.upd_iff]
    | with_reducible apply Kept.foldl
    | (intro _; try dsimp only [id])
    | split

theorem kept_bpmEnable {s t : State} {t0 : Nat} {v : Nat} (h : Kept s t) :
    Kept s (bpmEnable t0 v t) := by
  unfold bpmEnable
  try dsimp only
  repeat' first
    | with_reducible assumption
    | with_reducible exact Kept.refl _
    | with_reducible apply kept_buildPool
    | with_reducible apply kept_putPool
    | with_reducible apply kept_writeEnable
    | simp only [Kept.upd_iff]
    | with_reducible apply Kept.foldl
    | (intro _; try dsimp only [id])
    | split

theorem kept_allocateAll {s : State} {a : Nat} {c : PClass} : ∀ {l : List Nat} {t : State} {x : State × List Nat}, Kept s t →
    allocateAll a c l t = some x → Kept s x.1
  | [], t, x, h, e => by cases e; exact h
  | n :: l, t, x, h, e => by
    unfold allocateAll at e
    split at e
    · rename_i s1 b hb
      cases hr : allocateAll a c l s1 with
      | none => simp [hr] at e
      | some y =>
        simp only [hr, Option.map_some, Option.some.injEq] at e
        subst e
        exact kept_allocateAll (x := y) (kept_allocate h hb) hr
    · cases e

theorem kept_charge {s t : State} {t0 : Nat} {kind : Nat} {p : Payer} {n : Nat} {f : Meter → Meter} (h : Kept s t) :
    Kept s (charge t0 kind p n f t) := by
  unfold charge
  try dsimp only
  repeat' first
    | with_reducible assumption
    | with_reducible exact Kept.refl _
    | simp only [Kept.upd_iff]

theorem kept_chargePair {s t : State} {t0 : Nat} {p : Payer} {n : Nat} {f : Meter → Meter} (h : Kept s t) :
    Kept s (chargePair t0 p n f t) := by
  unfold chargePair
  try dsimp only
  repeat' first
    | with_reducible assumption
    | with_reducible exact Kept.refl _
    | with_reducible apply kept_charge

theorem kept_chargeBack {s t : State} {t0 : Nat} {n : Nat} {f : Meter → Meter} (h : Kept s t) :
    Kept s (chargeBack t0 n f t) := by
  unfold chargeBack
  try dsimp only
  repeat' first
    | with_reducible assumption
    | with_reducible exact Kept.refl _
    | with_reducible apply kept_charge

theorem kept_chargeOver {s t : State} {t0 : Nat} {f : Meter → Meter} (h : Kept s t) :
    Kept s (chargeOver t0 f t) := by
  unfold chargeOver
  try dsimp only
  repeat' first
    | with_reducible assumption
    | with_reducible exact Kept.refl _
    | with_reducible apply kept_charge

theorem kept_countNs {s t : State} {n : Nat} {f : NsCount → NsCount} (h : Kept s t) :
    Kept s (countNs n f t) := by
  unfold countNs
  try dsimp only
  repeat' first
    | with_reducible assumption
    | with_reducible exact Kept.refl _
    | simp only [Kept.upd_iff]

theorem kept_meterCommand {s t : State} {c : Cmd} {miss : Bool} (h : Kept s t) :
    Kept s (meterCommand c miss t) := by
  unfold meterCommand
  try dsimp only
  repeat' first
    | with_reducible assumption
    | with_reducible exact Kept.refl _
    | with_reducible apply kept_countNs
    | with_reducible apply kept_chargePair
    | simp only [Kept.upd_iff]
    | (intro _; try dsimp only [id])
    | split

theorem kept_meterEnded {s t : State} {cntlid : Nat} (h : Kept s t) :
    Kept s (meterEnded cntlid t) := by
  unfold meterEnded
  try dsimp only
  repeat' first
    | with_reducible assumption
    | with_reducible exact Kept.refl _
    | simp only [Kept.upd_iff]

theorem kept_countEgMedia {s t : State} {eg : Nat} {b : Nat} (h : Kept s t) :
    Kept s (countEgMedia eg b t) := by
  unfold countEgMedia
  try dsimp only
  repeat' first
    | with_reducible assumption
    | with_reducible exact Kept.refl _
    | simp only [Kept.upd_iff]

theorem kept_updCtrl {s t : State} {cntlid : Nat} {f : Ctrl → Ctrl} (h : Kept s t) :
    Kept s (updCtrl cntlid f t) := by
  unfold updCtrl
  try dsimp only
  repeat' first
    | with_reducible assumption
    | with_reducible exact Kept.refl _
    | simp only [Kept.upd_iff]

theorem kept_updSq {s t : State} {cntlid : Nat} {sqid : Nat} {f : Sq → Sq} (h : Kept s t) :
    Kept s (updSq cntlid sqid f t) := by
  unfold updSq
  try dsimp only
  repeat' first
    | with_reducible assumption
    | with_reducible exact Kept.refl _
    | simp only [Kept.upd_iff]

theorem kept_updCq {s t : State} {cntlid : Nat} {cqid : Nat} {f : Cq → Cq} (h : Kept s t) :
    Kept s (updCq cntlid cqid f t) := by
  unfold updCq
  try dsimp only
  repeat' first
    | with_reducible assumption
    | with_reducible exact Kept.refl _
    | simp only [Kept.upd_iff]

theorem kept_updCmd {s t : State} {id : Nat} {f : Cmd → Cmd} (h : Kept s t) :
    Kept s (updCmd id f t) := by
  unfold updCmd
  try dsimp only
  repeat' first
    | with_reducible assumption
    | with_reducible exact Kept.refl _
    | simp only [Kept.upd_iff]

theorem kept_dropCmd {s t : State} {id : Nat} (h : Kept s t) :
    Kept s (dropCmd id t) := by
  unfold dropCmd
  try dsimp only
  repeat' first
    | with_reducible assumption
    | with_reducible exact Kept.refl _
    | simp only [Kept.upd_iff]

theorem kept_updPort {s t : State} {t0 : Nat} {f : Port → Port} (h : Kept s t) :
    Kept s (updPort t0 f t) := by
  unfold updPort
  try dsimp only
  repeat' first
    | with_reducible assumption
    | with_reducible exact Kept.refl _
    | simp only [Kept.upd_iff]

theorem kept_updConn {s t : State} {id : Nat} {f : Conn → Conn} (h : Kept s t) :
    Kept s (updConn id f t) := by
  unfold updConn
  try dsimp only
  repeat' first
    | with_reducible assumption
    | with_reducible exact Kept.refl _
    | simp only [Kept.upd_iff]

theorem kept_dropConn {s t : State} {id : Nat} (h : Kept s t) :
    Kept s (dropConn id t) := by
  unfold dropConn
  try dsimp only
  repeat' first
    | with_reducible assumption
    | with_reducible exact Kept.refl _
    | simp only [Kept.upd_iff]

theorem kept_takeTokens {s t : State} {t0 : Nat} {c : Capsule} (h : Kept s t) :
    Kept s (takeTokens t t0 c) := by
  unfold takeTokens
  try dsimp only
  repeat' first
    | with_reducible assumption
    | with_reducible exact Kept.refl _
    | simp only [Kept.upd_iff]

theorem kept_logFailure {s t : State} {cntlid : Nat} {sqid : Nat} {cap : Capsule} {st : Status} (h : Kept s t) :
    Kept s (logFailure cntlid sqid cap st t) := by
  unfold logFailure
  try dsimp only
  repeat' first
    | with_reducible assumption
    | with_reducible exact Kept.refl _
    | with_reducible apply kept_updCtrl

theorem kept_logError {s t : State} {c : Cmd} {st : Status} (h : Kept s t) :
    Kept s (logError c st t) := by
  unfold logError
  try dsimp only
  repeat' first
    | with_reducible assumption
    | with_reducible exact Kept.refl _
    | with_reducible apply kept_logFailure

theorem kept_freezeQueue {s t : State} {c : Cmd} {st : Status} (h : Kept s t) :
    Kept s (freezeQueue c st t) := by
  unfold freezeQueue
  try dsimp only
  repeat' first
    | with_reducible assumption
    | with_reducible exact Kept.refl _
    | with_reducible apply kept_updSq
    | simp only [Kept.upd_iff]
    | (intro _; try dsimp only [id])
    | split

theorem kept_postCq {s t : State} {c : Cmd} (h : Kept s t) :
    Kept s (postCq c t) := by
  unfold postCq
  try dsimp only
  repeat' first
    | with_reducible assumption
    | with_reducible exact Kept.refl _
    | with_reducible apply kept_updCq
    | with_reducible apply kept_emit
    | simp only [Kept.upd_iff]
    | (intro _; try dsimp only [id])
    | split

theorem kept_sendTo {s t : State} {cntlid : Nat} {sqid : Nat} {o : Out} (h : Kept s t) :
    Kept s (sendTo cntlid sqid o t) := by
  unfold sendTo
  try dsimp only
  repeat' first
    | with_reducible assumption
    | with_reducible exact Kept.refl _
    | with_reducible apply kept_emit
    | simp only [Kept.upd_iff]
    | (intro _; try dsimp only [id])
    | split

theorem kept_sendHeld {s t : State} (h : Kept s t) :
    Kept s (sendHeld t) := by
  unfold sendHeld
  try dsimp only
  repeat' first
    | with_reducible assumption
    | with_reducible exact Kept.refl _
    | simp only [Kept.upd_iff]

theorem kept_shutdownDone {s t : State} {id : Nat} (h : Kept s t) :
    Kept s (shutdownDone id t) := by
  unfold shutdownDone
  try dsimp only
  repeat' first
    | with_reducible assumption
    | with_reducible exact Kept.refl _
    | with_reducible apply kept_updCtrl
    | simp only [Kept.upd_iff]
    | (intro _; try dsimp only [id])
    | split

theorem kept_ackExts {s t : State} {c : Cmd} (h : Kept s t) :
    Kept s (ackExts c t) := by
  unfold ackExts
  try dsimp only
  repeat' first
    | with_reducible assumption
    | with_reducible exact Kept.refl _
    | simp only [Kept.upd_iff]
    | (intro _; try dsimp only [id])
    | split

theorem kept_postOne {s t : State} {c : Cmd} (h : Kept s t) :
    Kept s (postOne c t) := by
  unfold postOne
  try dsimp only
  repeat' first
    | with_reducible assumption
    | with_reducible exact Kept.refl _
    | with_reducible apply kept_ackExts
    | with_reducible apply kept_shutdownDone
    | with_reducible apply kept_sendTo
    | with_reducible apply kept_postCq
    | with_reducible apply kept_freezeQueue
    | with_reducible apply kept_logError
    | with_reducible apply kept_dropCmd
    | with_reducible apply kept_meterCommand
    | with_reducible apply kept_freeBuffers
    | simp only [Kept.upd_iff]
    | (intro _; try dsimp only [id])
    | split

theorem kept_postEnded {s t : State} (h : Kept s t) :
    Kept s (postEnded t) := by
  unfold postEnded
  try dsimp only
  repeat' first
    | with_reducible assumption
    | with_reducible exact Kept.refl _
    | with_reducible apply kept_postOne
    | simp only [Kept.upd_iff]
    | with_reducible apply Kept.foldl
    | (intro _; try dsimp only [id])
    | split

theorem kept_finishCmd {s t : State} {id : Nat} {st : Status} {dw0 : Nat} (h : Kept s t) :
    Kept s (finishCmd id st dw0 t) := by
  unfold finishCmd
  try dsimp only
  repeat' first
    | with_reducible assumption
    | with_reducible exact Kept.refl _
    | with_reducible apply kept_postEnded
    | with_reducible apply kept_shutdownDone
    | with_reducible apply kept_dropCmd
    | with_reducible apply kept_updCmd
    | with_reducible apply kept_freeBuffers
    | simp only [Kept.upd_iff]
    | (intro _; try dsimp only [id])
    | split

theorem kept_releaseEntry {s t : State} {c : Cmd} (h : Kept s t) :
    Kept s (releaseEntry c t) := by
  unfold releaseEntry
  try dsimp only
  repeat' first
    | with_reducible assumption
    | with_reducible exact Kept.refl _
    | with_reducible apply kept_updCq
    | simp only [Kept.upd_iff]
    | (intro _; try dsimp only [id])
    | split

theorem kept_resetCmdsOf {s t : State} {p : Cmd → Bool} (h : Kept s t) :
    Kept s (resetCmdsOf p t) := by
  unfold resetCmdsOf
  try dsimp only
  repeat' first
    | with_reducible assumption
    | with_reducible exact Kept.refl _
    | with_reducible apply kept_releaseEntry
    | with_reducible apply kept_freeBuffers
    | simp only [Kept.upd_iff]
    | with_reducible apply Kept.foldl
    | (intro _; try dsimp only [id])

theorem kept_resetCmds {s t : State} {cntlid : Nat} (h : Kept s t) :
    Kept s (resetCmds cntlid t) := by
  unfold resetCmds
  try dsimp only
  repeat' first
    | with_reducible assumption
    | with_reducible exact Kept.refl _
    | with_reducible apply kept_resetCmdsOf

theorem kept_dropQueues {s t : State} {cntlid : Nat} (h : Kept s t) :
    Kept s (dropQueues cntlid t) := by
  unfold dropQueues
  try dsimp only
  repeat' first
    | with_reducible assumption
    | with_reducible exact Kept.refl _
    | simp only [Kept.upd_iff]

theorem kept_closeConns {s t : State} {cntlid : Nat} (h : Kept s t) :
    Kept s (closeConns cntlid t) := by
  unfold closeConns
  try dsimp only
  repeat' first
    | with_reducible assumption
    | with_reducible exact Kept.refl _
    | with_reducible apply kept_dropConn
    | with_reducible apply kept_emit
    | simp only [Kept.upd_iff]
    | with_reducible apply Kept.foldl
    | (intro _; try dsimp only [id])

theorem kept_resetCtrl {s t : State} {cntlid : Nat} (h : Kept s t) :
    Kept s (resetCtrl cntlid t) := by
  unfold resetCtrl
  try dsimp only
  repeat' first
    | with_reducible assumption
    | with_reducible exact Kept.refl _
    | with_reducible apply kept_dropQueues
    | with_reducible apply kept_resetCmds
    | with_reducible apply kept_dropConn
    | with_reducible apply kept_updCtrl
    | with_reducible apply kept_emit
    | simp only [Kept.upd_iff]
    | with_reducible apply Kept.foldl
    | (intro _; try dsimp only [id])

theorem kept_endCtrl {s t : State} {cntlid : Nat} (h : Kept s t) :
    Kept s (endCtrl cntlid t) := by
  unfold endCtrl
  try dsimp only
  repeat' first
    | with_reducible assumption
    | with_reducible exact Kept.refl _
    | with_reducible apply kept_closeConns
    | with_reducible apply kept_dropQueues
    | with_reducible apply kept_resetCmds
    | with_reducible apply kept_meterEnded
    | simp only [Kept.upd_iff]

theorem kept_raiseAen {s t : State} {cntlid : Nat} {kind : Nat} {info : Nat} (h : Kept s t) :
    Kept s (raiseAen cntlid kind info t) := by
  unfold raiseAen
  try dsimp only
  repeat' first
    | with_reducible assumption
    | with_reducible exact Kept.refl _
    | with_reducible apply kept_finishCmd
    | with_reducible apply kept_updCtrl
    | simp only [Kept.upd_iff]
    | (intro _; try dsimp only [id])
    | split

theorem kept_nsChanged {s t : State} {tenants : List Nat} (h : Kept s t) :
    Kept s (nsChanged tenants t) := by
  unfold nsChanged
  try dsimp only
  repeat' first
    | with_reducible assumption
    | with_reducible exact Kept.refl _
    | with_reducible apply kept_raiseAen
    | simp only [Kept.upd_iff]
    | with_reducible apply Kept.foldl
    | (intro _; try dsimp only [id])

theorem kept_anaRefresh {s t : State} (h : Kept s t) :
    Kept s (anaRefresh t) := by
  unfold anaRefresh
  try dsimp only
  repeat' first
    | with_reducible assumption
    | with_reducible exact Kept.refl _
    | with_reducible apply kept_raiseAen
    | with_reducible apply kept_updCtrl
    | simp only [Kept.upd_iff]
    | with_reducible apply Kept.foldl
    | (intro _; try dsimp only [id])

theorem kept_putRing {s t : State} {r : Ring} (h : Kept s t) :
    Kept s (putRing r t) := by
  unfold putRing
  try dsimp only
  repeat' first
    | with_reducible assumption
    | with_reducible exact Kept.refl _
    | simp only [Kept.upd_iff]

theorem kept_pushRing {s t : State} {k : Nat} {d : List Field} (h : Kept s t) :
    Kept s (pushRing k d t) := by
  unfold pushRing
  try dsimp only
  repeat' first
    | with_reducible assumption
    | with_reducible exact Kept.refl _
    | with_reducible apply kept_putRing
    | with_reducible apply kept_emit
    | simp only [Kept.upd_iff]
    | (intro _; try dsimp only [id])
    | split

theorem kept_respond {s t : State} {ringStatus : Nat} {nvme : Nat} {dw0 : Nat} {dw1 : Nat} {xfer : Nat} (h : Kept s t) :
    Kept s (respond ringStatus nvme dw0 dw1 xfer t) := by
  unfold respond
  try dsimp only
  repeat' first
    | with_reducible assumption
    | with_reducible exact Kept.refl _
    | with_reducible apply kept_pushRing
    | with_reducible apply kept_chargeOver
    | simp only [Kept.upd_iff]
    | (intro _; try dsimp only [id])
    | split

theorem kept_postResponse {s t : State} {st : Status} {dw0 : Nat} (h : Kept s t) :
    Kept s (postResponse st dw0 t) := by
  unfold postResponse
  try dsimp only
  repeat' first
    | with_reducible assumption
    | with_reducible exact Kept.refl _
    | with_reducible apply kept_respond

theorem kept_boardDone {s t : State} {dw0 : Nat} {dw1 : Nat} (h : Kept s t) :
    Kept s (boardDone dw0 dw1 t) := by
  unfold boardDone
  try dsimp only
  repeat' first
    | with_reducible assumption
    | with_reducible exact Kept.refl _
    | with_reducible apply kept_respond

theorem kept_boardFail {s t : State} {reason : Nat} (h : Kept s t) :
    Kept s (boardFail reason t) := by
  unfold boardFail
  try dsimp only
  repeat' first
    | with_reducible assumption
    | with_reducible exact Kept.refl _
    | with_reducible apply kept_respond

theorem kept_deliverOne {s t u : State} (h : Kept s t) (e : deliverOne t = some u) : Kept s u := by
  unfold deliverOne at e
  dsimp only at e
  repeat' split at e
  all_goals cases e
  all_goals first | exact Kept.upd (kept_pushRing h) | exact Kept.upd h

theorem kept_deliverSteps {s : State} : ∀ {n : Nat} {t : State}, Kept s t → Kept s (deliverSteps n t)
  | 0, _, h => h
  | n + 1, t, h => by
    unfold deliverSteps
    split
    · exact kept_deliverSteps (kept_deliverOne h (by assumption))
    · exact h

theorem kept_deliverMeter {s t : State} (h : Kept s t) :
    Kept s (deliverMeter t) := by
  unfold deliverMeter
  try dsimp only
  repeat' first
    | with_reducible assumption
    | with_reducible exact Kept.refl _
    | with_reducible apply kept_deliverSteps

theorem kept_deliverEvent {s t u : State} (h : Kept s t) (e : deliverEvent t = some u) : Kept s u := by
  unfold deliverEvent at e
  dsimp only at e
  repeat' split at e
  all_goals cases e
  · exact kept_pushRing (Kept.upd h)
  · exact Kept.upd h

theorem kept_deliverEventSteps {s : State} : ∀ {n : Nat} {t : State}, Kept s t → Kept s (deliverEventSteps n t)
  | 0, _, h => h
  | n + 1, t, h => by
    unfold deliverEventSteps
    split
    · exact kept_deliverEventSteps (kept_deliverEvent h (by assumption))
    · exact h

theorem kept_deliverEvents {s t : State} (h : Kept s t) :
    Kept s (deliverEvents t) := by
  unfold deliverEvents
  try dsimp only
  repeat' first
    | with_reducible assumption
    | with_reducible exact Kept.refl _
    | with_reducible apply kept_deliverEventSteps

theorem kept_admDone {s t : State} {a : Adm} {st : Status} {dw0 : Nat} (h : Kept s t) :
    Kept s (admDone a st dw0 t) := by
  unfold admDone
  try dsimp only
  repeat' first
    | with_reducible assumption
    | with_reducible exact Kept.refl _
    | with_reducible apply kept_postResponse
    | with_reducible apply kept_finishCmd
    | simp only [Kept.upd_iff]
    | (intro _; try dsimp only [id])
    | split

theorem kept_admReply {s t : State} {a : Adm} {d : List Field} (h : Kept s t) :
    Kept s (admReply a d t) := by
  unfold admReply
  try dsimp only
  repeat' first
    | with_reducible assumption
    | with_reducible exact Kept.refl _
    | with_reducible apply kept_sendTo
    | with_reducible apply kept_emit
    | simp only [Kept.upd_iff]
    | (intro _; try dsimp only [id])
    | split

theorem kept_admAnswer {s t : State} {a : Adm} {d : List Field} (h : Kept s t) :
    Kept s (admAnswer a d t) := by
  unfold admAnswer
  try dsimp only
  repeat' first
    | with_reducible assumption
    | with_reducible exact Kept.refl _
    | with_reducible apply kept_admReply
    | with_reducible apply kept_admDone

theorem kept_holdAdmin {s t : State} {a : Adm} {i : Instr} (h : Kept s t) :
    Kept s (holdAdmin a i t) := by
  unfold holdAdmin
  try dsimp only
  repeat' first
    | with_reducible assumption
    | with_reducible exact Kept.refl _
    | simp only [Kept.upd_iff]

theorem kept_releaseHeld {s t : State} (h : Kept s t) :
    Kept s (releaseHeld t) := by
  unfold releaseHeld
  try dsimp only
  repeat' first
    | with_reducible assumption
    | with_reducible exact Kept.refl _
    | simp only [Kept.upd_iff]

theorem kept_passTurn {s t : State} {a : Adm} (h : Kept s t) :
    Kept s (passTurn a t) := by
  unfold passTurn
  try dsimp only
  repeat' first
    | with_reducible assumption
    | with_reducible exact Kept.refl _
    | with_reducible apply kept_releaseHeld
    | simp only [Kept.upd_iff]
    | (intro _; try dsimp only [id])
    | split

theorem kept_runAdmin {s t : State} {k : AdminKind} {a : Adm} {i : Instr} {body : State → State} (h : Kept s t) (h_body : ∀ x, Kept s x → Kept s (body x)) :
    Kept s (runAdmin k a i body t) := by
  unfold runAdmin
  try dsimp only
  repeat' first
    | with_reducible assumption
    | with_reducible exact Kept.refl _
    | with_reducible apply kept_passTurn
    | with_reducible apply kept_holdAdmin
    | with_reducible apply kept_admDone
    | with_reducible apply kept_syncStores
    | apply h_body
    | simp only [Kept.upd_iff]
    | (intro _; try dsimp only [id])
    | split

theorem kept_admPark {s t : State} {a : Adm} (h : Kept s t) :
    Kept s (admPark a t) := by
  unfold admPark
  try dsimp only
  repeat' first
    | with_reducible assumption
    | with_reducible exact Kept.refl _
    | with_reducible apply kept_updCmd
    | simp only [Kept.upd_iff]
    | (intro _; try dsimp only [id])
    | split

theorem kept_abandonRing {s t : State} (h : Kept s t) :
    Kept s (abandonRing t) := by
  unfold abandonRing
  try dsimp only
  repeat' first
    | with_reducible assumption
    | with_reducible exact Kept.refl _
    | simp only [Kept.upd_iff]

theorem kept_provEnd {s t : State} (h : Kept s t) :
    Kept s (provEnd t) := by
  unfold provEnd
  try dsimp only
  repeat' first
    | with_reducible assumption
    | with_reducible exact Kept.refl _
    | with_reducible apply kept_releaseHeld
    | with_reducible apply kept_syncStores
    | simp only [Kept.upd_iff]

theorem kept_activationFails {s t : State} {st : Status} (h : Kept s t) :
    Kept s (activationFails st t) := by
  unfold activationFails
  try dsimp only
  repeat' first
    | with_reducible assumption
    | with_reducible exact Kept.refl _
    | with_reducible apply kept_provEnd
    | with_reducible apply kept_admDone
    | simp only [Kept.upd_iff]
    | (intro _; try dsimp only [id])
    | split

theorem kept_moveEpochEnd {s t : State} (h : Kept s t) :
    Kept s (moveEpochEnd t) := by
  unfold moveEpochEnd
  try dsimp only
  repeat' first
    | with_reducible assumption
    | with_reducible exact Kept.refl _
    | simp only [Kept.upd_iff]

theorem kept_boardTimeWrite {s t : State} {hi : Nat} (h : Kept s t) :
    Kept s (boardTimeWrite hi t) := by
  unfold boardTimeWrite
  try dsimp only
  repeat' first
    | with_reducible assumption
    | with_reducible exact Kept.refl _
    | with_reducible apply kept_moveEpochEnd
    | simp only [Kept.upd_iff]

theorem kept_epochEnd {s t : State} {energy : Nat} {peak : Nat} (h : Kept s t) :
    Kept s (epochEnd energy peak t) := by
  unfold epochEnd
  try dsimp only
  repeat' first
    | with_reducible assumption
    | with_reducible exact Kept.refl _
    | with_reducible apply kept_deliverMeter
    | simp only [Kept.upd_iff]
    | (intro _; try dsimp only [id])
    | split

theorem kept_smartRefresh {s t : State} (h : Kept s t) :
    Kept s (smartRefresh t) := by
  unfold smartRefresh
  try dsimp only
  repeat' first
    | with_reducible assumption
    | with_reducible exact Kept.refl _
    | with_reducible apply kept_raiseAen
    | with_reducible apply kept_emit
    | simp only [Kept.upd_iff]
    | with_reducible apply Kept.foldl
    | (intro _; try dsimp only [id])
    | split

theorem kept_updGroup {s t : State} {sg : Nat} {f : Group → Group} (h : Kept s t) :
    Kept s (updGroup sg f t) := by
  unfold updGroup
  try dsimp only
  repeat' first
    | with_reducible assumption
    | with_reducible exact Kept.refl _
    | simp only [Kept.upd_iff]

theorem kept_putSj {s t : State} {j : Sj} (h : Kept s t) :
    Kept s (putSj j t) := by
  unfold putSj
  try dsimp only
  repeat' first
    | with_reducible assumption
    | with_reducible exact Kept.refl _
    | simp only [Kept.upd_iff]

theorem kept_sjAppend {s t : State} {sg : Nat} {e : SjEntry} (h : Kept s t) :
    Kept s (sjAppend sg e t) := by
  unfold sjAppend
  try dsimp only
  repeat' first
    | with_reducible assumption
    | with_reducible exact Kept.refl _
    | with_reducible apply kept_putSj

theorem kept_bandRecord {s t : State} {kind : Nat} {b : Band} {m : Nat} {old : Nat} {new : Nat} (h : Kept s t) :
    Kept s (bandRecord kind b m old new t) := by
  unfold bandRecord
  try dsimp only
  repeat' first
    | with_reducible assumption
    | with_reducible exact Kept.refl _
    | with_reducible apply kept_sjAppend

theorem kept_rowRecord {s t : State} {r : Row} {st : Nat} {fpP : Nat} {fpQ : Nat} (h : Kept s t) :
    Kept s (rowRecord r st fpP fpQ t) := by
  unfold rowRecord
  try dsimp only
  repeat' first
    | with_reducible assumption
    | with_reducible exact Kept.refl _
    | with_reducible apply kept_sjAppend

theorem kept_reportRow {s t : State} {r : Row} (h : Kept s t) :
    Kept s (reportRow r t) := by
  unfold reportRow
  try dsimp only
  repeat' first
    | with_reducible assumption
    | with_reducible exact Kept.refl _
    | with_reducible apply kept_rowRecord

theorem kept_enterLost {s t : State} {cause : Nat} {sg : Nat} {n : Nat} {die : Nat} {rs : List (Nat × Nat)} (h : Kept s t) :
    Kept s (enterLost cause sg n die rs t) := by
  unfold enterLost
  try dsimp only
  repeat' first
    | with_reducible assumption
    | with_reducible exact Kept.refl _
    | with_reducible apply kept_smartRefresh
    | simp only [Kept.upd_iff]
    | with_reducible apply Kept.foldl
    | (intro _; try dsimp only [id])

theorem kept_loseBlocks {s t : State} {e : FExt} {mask : List Nat} (h : Kept s t) :
    Kept s (loseBlocks e mask t) := by
  unfold loseBlocks
  try dsimp only
  repeat' first
    | with_reducible assumption
    | with_reducible exact Kept.refl _
    | with_reducible apply kept_enterLost

theorem kept_setGroupState {s t : State} {sg : Nat} (h : Kept s t) :
    Kept s (setGroupState sg t) := by
  unfold setGroupState
  try dsimp only
  repeat' first
    | with_reducible assumption
    | with_reducible exact Kept.refl _
    | with_reducible apply kept_updGroup
    | with_reducible apply kept_smartRefresh
    | with_reducible apply kept_logEv
    | simp only [Kept.upd_iff]
    | (intro _; try dsimp only [id])
    | split

theorem kept_setGenOf {s t : State} {n : Nat} {g : Nat} (h : Kept s t) :
    Kept s (setGenOf n g t) := by
  unfold setGenOf
  try dsimp only
  repeat' first
    | with_reducible assumption
    | with_reducible exact Kept.refl _
    | simp only [Kept.upd_iff]

theorem kept_advanceGen {s t : State} {n : Nat} (h : Kept s t) :
    Kept s (advanceGen n t) := by
  unfold advanceGen
  try dsimp only
  repeat' first
    | with_reducible assumption
    | with_reducible exact Kept.refl _
    | with_reducible apply kept_setGenOf

theorem kept_putKey {s t : State} {k : KeySlot} (h : Kept s t) :
    Kept s (putKey k t) := by
  unfold putKey
  try dsimp only
  repeat' first
    | with_reducible assumption
    | with_reducible exact Kept.refl _
    | simp only [Kept.upd_iff]

theorem kept_loadKey {s t : State} {t0 : Nat} {n : Nat} {k : Bytes × Bytes} (h : Kept s t) :
    Kept s (loadKey t0 n k t) := by
  unfold loadKey
  try dsimp only
  repeat' first
    | with_reducible assumption
    | with_reducible exact Kept.refl _
    | with_reducible apply kept_putKey
    | simp only [Kept.upd_iff]
    | (intro _; try dsimp only [id])
    | split

theorem kept_reloadKeys {s t : State} (h : Kept s t) :
    Kept s (reloadKeys t) := by
  unfold reloadKeys
  try dsimp only
  repeat' first
    | with_reducible assumption
    | with_reducible exact Kept.refl _
    | with_reducible apply kept_loadKey
    | simp only [Kept.upd_iff]
    | with_reducible apply Kept.foldl
    | (intro _; try dsimp only [id])

theorem kept_clearKey {s t : State} {n : Nat} (h : Kept s t) :
    Kept s (clearKey n t) := by
  unfold clearKey
  try dsimp only
  repeat' first
    | with_reducible assumption
    | with_reducible exact Kept.refl _
    | with_reducible apply kept_advanceGen
    | simp only [Kept.upd_iff]

theorem kept_updDie {s t : State} {d : Nat} {f : Die → Die} (h : Kept s t) :
    Kept s (updDie d f t) := by
  unfold updDie
  try dsimp only
  repeat' first
    | with_reducible assumption
    | with_reducible exact Kept.refl _
    | simp only [Kept.upd_iff]

theorem kept_updChan {s t : State} {c : Nat} {f : Chan → Chan} (h : Kept s t) :
    Kept s (updChan c f t) := by
  unfold updChan
  try dsimp only
  repeat' first
    | with_reducible assumption
    | with_reducible exact Kept.refl _
    | simp only [Kept.upd_iff]

theorem kept_updOp {s t : State} {o : Nat} {f : DieOp → DieOp} (h : Kept s t) :
    Kept s (updOp o f t) := by
  unfold updOp
  try dsimp only
  repeat' first
    | with_reducible assumption
    | with_reducible exact Kept.refl _
    | simp only [Kept.upd_iff]

theorem kept_dropOp {s t : State} {o : Nat} (h : Kept s t) :
    Kept s (dropOp o t) := by
  unfold dropOp
  try dsimp only
  repeat' first
    | with_reducible assumption
    | with_reducible exact Kept.refl _
    | simp only [Kept.upd_iff]

theorem kept_dispatch {s t : State} {d : Nat} (h : Kept s t) :
    Kept s (dispatch d t) := by
  unfold dispatch
  try dsimp only
  repeat' first
    | with_reducible assumption
    | with_reducible exact Kept.refl _
    | with_reducible apply kept_updOp
    | with_reducible apply kept_updDie
    | simp only [Kept.upd_iff]
    | (intro _; try dsimp only [id])
    | split

theorem kept_trySuspend {s t : State} {d : Nat} (h : Kept s t) :
    Kept s (trySuspend d t) := by
  unfold trySuspend
  try dsimp only
  repeat' first
    | with_reducible assumption
    | with_reducible exact Kept.refl _
    | with_reducible apply kept_updOp
    | simp only [Kept.upd_iff]
    | (intro _; try dsimp only [id])
    | split

theorem kept_addOp {s t : State} {o : DieOp} (h : Kept s t) :
    Kept s (addOp o t) := by
  unfold addOp
  try dsimp only
  repeat' first
    | with_reducible assumption
    | with_reducible exact Kept.refl _
    | with_reducible apply kept_trySuspend
    | with_reducible apply kept_dispatch
    | simp only [Kept.upd_iff]

theorem kept_pumpTile {s t : State} {t0 : Nat} (h : Kept s t) :
    Kept s (pumpTile t0 t) := by
  unfold pumpTile
  try dsimp only
  repeat' first
    | with_reducible assumption
    | with_reducible exact Kept.refl _
    | with_reducible apply kept_dispatch
    | simp only [Kept.upd_iff]
    | with_reducible apply Kept.foldl
    | (intro _; try dsimp only [id])

theorem kept_chargeCopy {s t : State} {t0 : Nat} {sg : Nat} {b : Nat} {n : Nat} {f : Meter → Meter} (h : Kept s t) :
    Kept s (chargeCopy t0 sg b n f t) := by
  unfold chargeCopy
  try dsimp only
  repeat' first
    | with_reducible assumption
    | with_reducible exact Kept.refl _
    | with_reducible apply kept_chargeOver
    | with_reducible apply kept_chargeBack
    | simp only [Kept.upd_iff]
    | (intro _; try dsimp only [id])
    | split

theorem kept_meterRead {s t : State} {o : DieOp} (h : Kept s t) :
    Kept s (meterRead o t) := by
  unfold meterRead
  try dsimp only
  repeat' first
    | with_reducible assumption
    | with_reducible exact Kept.refl _
    | with_reducible apply kept_chargeCopy
    | with_reducible apply kept_chargeOver
    | with_reducible apply kept_chargePair
    | simp only [Kept.upd_iff]
    | (intro _; try dsimp only [id])
    | split

theorem kept_noteOp {s t : State} {o : DieOp} (h : Kept s t) :
    Kept s (noteOp o t) := by
  unfold noteOp
  try dsimp only
  repeat' first
    | with_reducible assumption
    | with_reducible exact Kept.refl _
    | with_reducible apply kept_updDie
    | with_reducible apply kept_chargeOver

theorem kept_endArray {s t : State} {o : DieOp} (h : Kept s t) :
    Kept s (endArray o t) := by
  unfold endArray
  try dsimp only
  repeat' first
    | with_reducible assumption
    | with_reducible exact Kept.refl _
    | with_reducible apply kept_meterRead
    | with_reducible apply kept_pumpTile
    | with_reducible apply kept_trySuspend
    | with_reducible apply kept_dispatch
    | with_reducible apply kept_updDie
    | simp only [Kept.upd_iff]
    | (intro _; try dsimp only [id])
    | split

theorem kept_finishDieOp {s t : State} {d : Nat} {k : OpKind} (h : Kept s t) :
    Kept s (finishDieOp d k t) := by
  unfold finishDieOp
  try dsimp only
  repeat' first
    | with_reducible assumption
    | with_reducible exact Kept.refl _
    | with_reducible apply kept_endArray
    | with_reducible apply kept_dropOp
    | simp only [Kept.upd_iff]
    | (intro _; try dsimp only [id])
    | split

theorem kept_reconReads {s t : State} {o : DieOp} (h : Kept s t) :
    Kept s (reconReads o t) := by
  unfold reconReads
  try dsimp only
  repeat' first
    | with_reducible assumption
    | with_reducible exact Kept.refl _
    | with_reducible apply kept_addOp
    | simp only [Kept.upd_iff]
    | with_reducible apply Kept.foldl
    | (intro _; try dsimp only [id])

theorem kept_toRecon {s t : State} {id : Nat} (h : Kept s t) :
    Kept s (toRecon id t) := by
  unfold toRecon
  try dsimp only
  repeat' first
    | with_reducible assumption
    | with_reducible exact Kept.refl _
    | with_reducible apply kept_reconReads
    | with_reducible apply kept_updOp
    | simp only [Kept.upd_iff]
    | (intro _; try dsimp only [id])
    | split

theorem kept_healRow {s t : State} {sg : Nat} {b : Nat} {m : Nat} (h : Kept s t) :
    Kept s (healRow sg b m t) := by
  unfold healRow
  try dsimp only
  repeat' first
    | with_reducible assumption
    | with_reducible exact Kept.refl _
    | with_reducible apply kept_addOp
    | simp only [Kept.upd_iff]
    | with_reducible apply Kept.foldl
    | (intro _; try dsimp only [id])
    | split

theorem kept_rebuildRead {s t : State} {x : DieOp} (h : Kept s t) :
    Kept s (rebuildRead x t) := by
  unfold rebuildRead
  try dsimp only
  repeat' first
    | with_reducible assumption
    | with_reducible exact Kept.refl _
    | with_reducible apply kept_dropOp
    | with_reducible apply kept_updOp
    | simp only [Kept.upd_iff]
    | (intro _; try dsimp only [id])
    | split

theorem kept_addRead {s t : State} {o : DieOp} (h : Kept s t) :
    Kept s (addRead o t) := by
  unfold addRead
  try dsimp only
  repeat' first
    | with_reducible assumption
    | with_reducible exact Kept.refl _
    | with_reducible apply kept_toRecon
    | with_reducible apply kept_addOp
    | simp only [Kept.upd_iff]
    | (intro _; try dsimp only [id])
    | split

theorem kept_enqueueRead {s t : State} {c : Cmd} {p : Piece} (h : Kept s t) :
    Kept s (enqueueRead c p t) := by
  unfold enqueueRead
  try dsimp only
  repeat' first
    | with_reducible assumption
    | with_reducible exact Kept.refl _
    | with_reducible apply kept_addRead
    | simp only [Kept.upd_iff]
    | (intro _; try dsimp only [id])
    | split

theorem kept_issuePasses {s t : State} {sg : Nat} {b : Nat} (h : Kept s t) :
    Kept s (issuePasses sg b t) := by
  unfold issuePasses
  try dsimp only
  repeat' first
    | with_reducible assumption
    | with_reducible exact Kept.refl _
    | with_reducible apply kept_addOp
    | with_reducible apply kept_emit
    | simp only [Kept.upd_iff]
    | with_reducible apply Kept.foldl
    | (intro _; try dsimp only [id])
    | split

theorem kept_startPrograms {s t : State} {sg : Nat} {b : Nat} {i : Nat} (h : Kept s t) :
    Kept s (startPrograms sg b i t) := by
  unfold startPrograms
  try dsimp only
  repeat' first
    | with_reducible assumption
    | with_reducible exact Kept.refl _
    | with_reducible apply kept_issuePasses
    | with_reducible apply kept_rowRecord
    | simp only [Kept.upd_iff]
    | (intro _; try dsimp only [id])
    | split

theorem kept_startClosed {s t : State} (h : Kept s t) :
    Kept s (startClosed t) := by
  unfold startClosed
  try dsimp only
  repeat' first
    | with_reducible assumption
    | with_reducible exact Kept.refl _
    | with_reducible apply kept_startPrograms
    | simp only [Kept.upd_iff]
    | with_reducible apply Kept.foldl
    | (intro _; try dsimp only [id])

theorem kept_settleRows {s t : State} {sg : Nat} {b : Nat} (h : Kept s t) :
    Kept s (settleRows sg b t) := by
  unfold settleRows
  try dsimp only
  repeat' first
    | with_reducible assumption
    | with_reducible exact Kept.refl _
    | simp only [Kept.upd_iff]

theorem kept_enqueueErases {s t : State} {x : Band} (h : Kept s t) :
    Kept s (enqueueErases x t) := by
  unfold enqueueErases
  try dsimp only
  repeat' first
    | with_reducible assumption
    | with_reducible exact Kept.refl _
    | with_reducible apply kept_addOp
    | simp only [Kept.upd_iff]
    | with_reducible apply Kept.foldl
    | (intro _; try dsimp only [id])
    | split

theorem kept_putRegion {s t : State} {x : Region} (h : Kept s t) :
    Kept s (putRegion x t) := by
  unfold putRegion
  try dsimp only
  repeat' first
    | with_reducible assumption
    | with_reducible exact Kept.refl _
    | simp only [Kept.upd_iff]

theorem kept_setHand {s t : State} {h0 : ClockHand} (h : Kept s t) :
    Kept s (setHand h0 t) := by
  unfold setHand
  try dsimp only
  repeat' first
    | with_reducible assumption
    | with_reducible exact Kept.refl _
    | simp only [Kept.upd_iff]

theorem kept_updRegions {s t : State} {t0 : Nat} {f : Region → Region} (h : Kept s t) :
    Kept s (updRegions t0 f t) := by
  unfold updRegions
  try dsimp only
  repeat' first
    | with_reducible assumption
    | with_reducible exact Kept.refl _
    | simp only [Kept.upd_iff]

theorem kept_roomL0 {s t : State} {t0 : Nat} (h : Kept s t) :
    Kept s (roomL0 t0 t) := by
  unfold roomL0
  try dsimp only
  repeat' first
    | with_reducible assumption
    | with_reducible exact Kept.refl _
    | with_reducible apply kept_updRegions
    | with_reducible apply kept_setHand
    | simp only [Kept.upd_iff]
    | (intro _; try dsimp only [id])
    | split

theorem kept_roomL1 {s t : State} {t0 : Nat} (h : Kept s t) :
    Kept s (roomL1 t0 t) := by
  unfold roomL1
  try dsimp only
  repeat' first
    | with_reducible assumption
    | with_reducible exact Kept.refl _
    | with_reducible apply kept_updRegions
    | with_reducible apply kept_setHand
    | simp only [Kept.upd_iff]
    | (intro _; try dsimp only [id])
    | split

theorem kept_takeFrame {s t : State} {n : Nat} {r : Nat} (h : Kept s t) :
    Kept s (takeFrame n r t) := by
  unfold takeFrame
  try dsimp only
  repeat' first
    | with_reducible assumption
    | with_reducible exact Kept.refl _
    | with_reducible apply kept_roomL1
    | with_reducible apply kept_putRegion
    | simp only [Kept.upd_iff]
    | (intro _; try dsimp only [id])
    | split

theorem kept_fillL0 {s t : State} {n : Nat} {r : Nat} (h : Kept s t) :
    Kept s (fillL0 n r t) := by
  unfold fillL0
  try dsimp only
  repeat' first
    | with_reducible assumption
    | with_reducible exact Kept.refl _
    | with_reducible apply kept_roomL0
    | with_reducible apply kept_putRegion
    | simp only [Kept.upd_iff]
    | (intro _; try dsimp only [id])
    | split

theorem kept_putJournal {s t : State} {j : Journal} (h : Kept s t) :
    Kept s (putJournal j t) := by
  unfold putJournal
  try dsimp only
  repeat' first
    | with_reducible assumption
    | with_reducible exact Kept.refl _
    | simp only [Kept.upd_iff]

theorem kept_appendJ {s t : State} {slot : Nat} {es : List JEntry} (h : Kept s t) :
    Kept s (appendJ slot es t) := by
  unfold appendJ
  try dsimp only
  repeat' first
    | with_reducible assumption
    | with_reducible exact Kept.refl _
    | with_reducible apply kept_putJournal

theorem kept_liveDelta {s t : State} {addr : Nat} {d : Int} (h : Kept s t) :
    Kept s (liveDelta addr d t) := by
  unfold liveDelta
  try dsimp only
  repeat' first
    | with_reducible assumption
    | with_reducible exact Kept.refl _
    | simp only [Kept.upd_iff]

theorem kept_reportLive {s t : State} {old : List Span} {new : List Span} (h : Kept s t) :
    Kept s (reportLive old new t) := by
  unfold reportLive
  try dsimp only
  repeat' first
    | with_reducible assumption
    | with_reducible exact Kept.refl _
    | with_reducible apply kept_liveDelta
    | simp only [Kept.upd_iff]
    | with_reducible apply Kept.foldl
    | (intro _; try dsimp only [id])

theorem kept_setSpans {s t : State} {n : Nat} {r : Nat} {new : List Span} {dirty : Option Nat} (h : Kept s t) :
    Kept s (setSpans n r new dirty t) := by
  unfold setSpans
  try dsimp only
  repeat' first
    | with_reducible assumption
    | with_reducible exact Kept.refl _
    | with_reducible apply kept_reportLive
    | with_reducible apply kept_putRegion
    | simp only [Kept.upd_iff]
    | (intro _; try dsimp only [id])
    | split

theorem kept_dirtyDir {s t : State} {n : Nat} {r : Nat} {pos : Nat} (h : Kept s t) :
    Kept s (dirtyDir n r pos t) := by
  unfold dirtyDir
  try dsimp only
  repeat' first
    | with_reducible assumption
    | with_reducible exact Kept.refl _
    | simp only [Kept.upd_iff]
    | (intro _; try dsimp only [id])
    | split

theorem kept_storeSpans {s t : State} {n : Nat} {r : Nat} {new : List Span} {pos : Nat} (h : Kept s t) :
    Kept s (storeSpans n r new pos t) := by
  unfold storeSpans
  try dsimp only
  repeat' first
    | with_reducible assumption
    | with_reducible exact Kept.refl _
    | with_reducible apply kept_dirtyDir
    | with_reducible apply kept_setSpans
    | with_reducible apply kept_fillL0
    | with_reducible apply kept_takeFrame
    | with_reducible apply kept_putRegion
    | simp only [Kept.upd_iff]
    | (intro _; try dsimp only [id])
    | split

theorem kept_clearLost {s t : State} {n : Nat} {r : Nat} {lba : Nat} {count : Nat} (h : Kept s t) :
    Kept s (clearLost n r lba count t) := by
  unfold clearLost
  try dsimp only
  repeat' first
    | with_reducible assumption
    | with_reducible exact Kept.refl _
    | simp only [Kept.upd_iff]

theorem kept_applyPlan {s t : State} {n : Nat} {r : Nat} {p : Plan} (h : Kept s t) :
    Kept s (applyPlan n r p t) := by
  unfold applyPlan
  try dsimp only
  repeat' first
    | with_reducible assumption
    | with_reducible exact Kept.refl _
    | with_reducible apply kept_clearLost
    | with_reducible apply kept_storeSpans
    | with_reducible apply kept_appendJ

theorem kept_applyRelocate {s t : State} {n : Nat} {r : Nat} {src : Nat} {seq : Nat} {dst : Nat} (h : Kept s t) :
    Kept s (applyRelocate n r src seq dst t) := by
  unfold applyRelocate
  try dsimp only
  repeat' first
    | with_reducible assumption
    | with_reducible exact Kept.refl _
    | with_reducible apply kept_storeSpans
    | with_reducible apply kept_appendJ
    | simp only [Kept.upd_iff]
    | (intro _; try dsimp only [id])
    | split

theorem kept_applyCoalesce {s t : State} {n : Nat} {r : Nat} {e : Ext} (h : Kept s t) :
    Kept s (applyCoalesce n r e t) := by
  unfold applyCoalesce
  try dsimp only
  repeat' first
    | with_reducible assumption
    | with_reducible exact Kept.refl _
    | with_reducible apply kept_storeSpans
    | with_reducible apply kept_appendJ
    | simp only [Kept.upd_iff]
    | with_reducible apply Kept.foldl
    | (intro _; try dsimp only [id])
    | split

theorem kept_startFetch {s t : State} {n : Nat} {r : Nat} {c : PClass} {cmd : Nat} (h : Kept s t) :
    Kept s (startFetch n r c cmd t) := by
  unfold startFetch
  try dsimp only
  repeat' first
    | with_reducible assumption
    | with_reducible exact Kept.refl _
    | with_reducible apply kept_takeFrame
    | with_reducible apply kept_putRegion
    | with_reducible apply kept_addOp
    | with_reducible apply kept_bump
    | simp only [Kept.upd_iff]
    | (intro _; try dsimp only [id])
    | split

theorem kept_pageAt {s t : State} {n r cmd : Nat} {c : PClass} (h : Kept s t) : Kept s (pageAt n r c cmd t).2 := by
  unfold pageAt
  dsimp only
  split
  · exact h
  · exact kept_fillL0 (kept_bump h)
  · exact kept_fillL0 (kept_bump h)
  · exact h
  · exact kept_startFetch h

theorem kept_rebuildRegion {s t : State} {n : Nat} {r : Nat} (h : Kept s t) :
    Kept s (rebuildRegion n r t) := by
  unfold rebuildRegion
  try dsimp only
  repeat' first
    | with_reducible assumption
    | with_reducible exact Kept.refl _
    | with_reducible apply kept_setSpans
    | with_reducible apply kept_takeFrame
    | with_reducible apply kept_putRegion
    | simp only [Kept.upd_iff]
    | with_reducible apply Kept.foldl
    | (intro _; try dsimp only [id])
    | split

theorem kept_dropRegions {s t : State} {n : Nat} (h : Kept s t) :
    Kept s (dropRegions n t) := by
  unfold dropRegions
  try dsimp only
  repeat' first
    | with_reducible assumption
    | with_reducible exact Kept.refl _
    | with_reducible apply kept_reportLive
    | simp only [Kept.upd_iff]
    | with_reducible apply Kept.foldl
    | (intro _; try dsimp only [id])

theorem kept_dropStale {s t : State} {n : Nat} (h : Kept s t) :
    Kept s (dropStale n t) := by
  unfold dropStale
  try dsimp only
  repeat' first
    | with_reducible assumption
    | with_reducible exact Kept.refl _
    | with_reducible apply kept_setSpans
    | simp only [Kept.upd_iff]
    | with_reducible apply Kept.foldl
    | (intro _; try dsimp only [id])

theorem kept_reserveChunks {s t : State} {n : Nat} {nsze : Nat} (h : Kept s t) :
    Kept s (reserveChunks n nsze t) := by
  unfold reserveChunks
  try dsimp only
  repeat' first
    | with_reducible assumption
    | with_reducible exact Kept.refl _
    | simp only [Kept.upd_iff]

theorem kept_setLease {s t : State} {t0 : Nat} {n : Nat} {left : Nat} (h : Kept s t) :
    Kept s (setLease t0 n left t) := by
  unfold setLease
  try dsimp only
  repeat' first
    | with_reducible assumption
    | with_reducible exact Kept.refl _
    | simp only [Kept.upd_iff]

theorem kept_recallLeases {s t : State} {n : Nat} (h : Kept s t) :
    Kept s (recallLeases n t) := by
  unfold recallLeases
  try dsimp only
  repeat' first
    | with_reducible assumption
    | with_reducible exact Kept.refl _
    | simp only [Kept.upd_iff]

theorem kept_chargeWrite {s t u : State} {c : Cmd} (h : Kept s t) (e : chargeWrite c t = some u) : Kept s u := by
  unfold chargeWrite at e
  dsimp only at e
  repeat' split at e
  all_goals cases e
  · exact kept_updCmd (kept_setLease h)
  · exact kept_updCmd (kept_recallLeases h)

theorem kept_takeSeqs {s t u : State} {a n : Nat} {l : List Nat} (h : Kept s t) (e : takeSeqs a n t = some (l, u)) :
    Kept s u := by
  unfold takeSeqs at e
  dsimp only at e
  split at e <;> cases e
  exact Kept.upd h

theorem kept_updBand {s t : State} {sg : Nat} {b : Nat} {f : Band → Band} (h : Kept s t) :
    Kept s (updBand sg b f t) := by
  unfold updBand
  try dsimp only
  repeat' first
    | with_reducible assumption
    | with_reducible exact Kept.refl _
    | simp only [Kept.upd_iff]

theorem kept_updRow {s t : State} {sg : Nat} {b : Nat} {i : Nat} {f : Row → Row} (h : Kept s t) :
    Kept s (updRow sg b i f t) := by
  unfold updRow
  try dsimp only
  repeat' first
    | with_reducible assumption
    | with_reducible exact Kept.refl _
    | simp only [Kept.upd_iff]

theorem kept_updExt {s t : State} {q : Nat} {f : Ext → Ext} (h : Kept s t) :
    Kept s (updExt q f t) := by
  unfold updExt
  try dsimp only
  repeat' first
    | with_reducible assumption
    | with_reducible exact Kept.refl _
    | simp only [Kept.upd_iff]

theorem kept_countPlaced {s t : State} {e : Ext} {addr : Nat} (h : Kept s t) :
    Kept s (countPlaced e addr t) := by
  unfold countPlaced
  try dsimp only
  repeat' first
    | with_reducible assumption
    | with_reducible exact Kept.refl _
    | simp only [Kept.upd_iff]

theorem kept_placeExt {s t : State} {q : Nat} (h : Kept s t) :
    Kept s (placeExt q t) := by
  unfold placeExt
  try dsimp only
  repeat' first
    | with_reducible assumption
    | with_reducible exact Kept.refl _
    | with_reducible apply kept_countPlaced
    | with_reducible apply kept_updExt
    | with_reducible apply kept_updRow
    | simp only [Kept.upd_iff]
    | (intro _; try dsimp only [id])
    | split

theorem kept_placeWaiting {s t : State} {t0 : Nat} (h : Kept s t) :
    Kept s (placeWaiting t0 t) := by
  unfold placeWaiting
  try dsimp only
  repeat' first
    | with_reducible assumption
    | with_reducible exact Kept.refl _
    | with_reducible apply kept_placeExt
    | simp only [Kept.upd_iff]
    | with_reducible apply Kept.foldl

theorem kept_sendUpdates {s t : State} {id : Nat} (h : Kept s t) :
    Kept s (sendUpdates id t) := by
  unfold sendUpdates
  try dsimp only
  repeat' first
    | with_reducible assumption
    | with_reducible exact Kept.refl _
    | with_reducible apply kept_updCmd
    | simp only [Kept.upd_iff]
    | (intro _; try dsimp only [id])
    | split

theorem kept_keepSweep {s t : State} {id : Nat} (h : Kept s t) :
    Kept s (keepSweep id t) := by
  unfold keepSweep
  try dsimp only
  repeat' first
    | with_reducible assumption
    | with_reducible exact Kept.refl _
    | with_reducible apply kept_syncStores
    | simp only [Kept.upd_iff]

theorem kept_afterMap {s t : State} {id : Nat} (h : Kept s t) :
    Kept s (afterMap id t) := by
  unfold afterMap
  try dsimp only
  repeat' first
    | with_reducible assumption
    | with_reducible exact Kept.refl _
    | with_reducible apply kept_keepSweep
    | with_reducible apply kept_finishCmd
    | with_reducible apply kept_updCmd
    | simp only [Kept.upd_iff]
    | (intro _; try dsimp only [id])
    | split

theorem kept_drainPump {s t : State} (h : Kept s t) :
    Kept s (drainPump t) := by
  unfold drainPump
  try dsimp only
  repeat' first
    | with_reducible assumption
    | with_reducible exact Kept.refl _
    | with_reducible apply kept_finishCmd
    | simp only [Kept.upd_iff]
    | with_reducible apply Kept.foldl
    | (intro _; try dsimp only [id])
    | split

theorem kept_mapPump {s t : State} (h : Kept s t) :
    Kept s (mapPump t) := by
  unfold mapPump
  try dsimp only
  repeat' first
    | with_reducible assumption
    | with_reducible exact Kept.refl _
    | with_reducible apply kept_sendUpdates
    | simp only [Kept.upd_iff]
    | with_reducible apply Kept.foldl

theorem kept_goMap {s t : State} {id : Nat} (h : Kept s t) :
    Kept s (goMap id t) := by
  unfold goMap
  try dsimp only
  repeat' first
    | with_reducible assumption
    | with_reducible exact Kept.refl _
    | with_reducible apply kept_afterMap
    | with_reducible apply kept_sendUpdates

theorem kept_readProgress {s t : State} {id : Nat} (h : Kept s t) :
    Kept s (readProgress id t) := by
  unfold readProgress
  try dsimp only
  repeat' first
    | with_reducible assumption
    | with_reducible exact Kept.refl _
    | with_reducible apply kept_mapPump
    | with_reducible apply kept_finishCmd
    | with_reducible apply kept_updCmd
    | simp only [Kept.upd_iff]
    | (intro _; try dsimp only [id])
    | split

theorem kept_resolvePiece {s t : State} {id : Nat} {lba : Nat} (h : Kept s t) :
    Kept s (resolvePiece id lba t) := by
  unfold resolvePiece
  try dsimp only
  repeat' first
    | with_reducible assumption
    | with_reducible exact Kept.refl _
    | with_reducible apply kept_readProgress
    | with_reducible apply kept_enqueueRead
    | with_reducible apply kept_finishCmd
    | with_reducible apply kept_updCmd
    | simp only [Kept.upd_iff]
    | with_reducible apply Kept.foldl
    | (intro _; try dsimp only [id])
    | split

theorem kept_startRead {s t : State} {id : Nat} (h : Kept s t) :
    Kept s (startRead id t) := by
  unfold startRead
  try dsimp only
  repeat' first
    | with_reducible assumption
    | with_reducible exact Kept.refl _
    | with_reducible apply kept_readProgress
    | with_reducible apply kept_updCmd
    | simp only [Kept.upd_iff]
    | (intro _; try dsimp only [id])
    | split

theorem kept_processWrite {s t : State} {id : Nat} (h : Kept s t) :
    Kept s (processWrite id t) := by
  unfold processWrite
  try dsimp only
  repeat' first
    | with_reducible assumption
    | with_reducible exact Kept.refl _
    | with_reducible apply kept_goMap
    | with_reducible apply kept_placeWaiting
    | with_reducible apply kept_finishCmd
    | with_reducible apply kept_updCmd
    | simp only [Kept.upd_iff]
    | (intro _; try dsimp only [id])
    | split
    | with_reducible refine kept_takeSeqs ?_ (by assumption)

theorem kept_dataReady {s t : State} {id : Nat} (h : Kept s t) :
    Kept s (dataReady id t) := by
  unfold dataReady
  try dsimp only
  repeat' first
    | with_reducible assumption
    | with_reducible exact Kept.refl _
    | with_reducible apply kept_processWrite
    | with_reducible apply kept_startRead
    | simp only [Kept.upd_iff]
    | (intro _; try dsimp only [id])
    | split

theorem kept_askData {s t : State} {id : Nat} (h : Kept s t) :
    Kept s (askData id t) := by
  unfold askData
  try dsimp only
  repeat' first
    | with_reducible assumption
    | with_reducible exact Kept.refl _
    | with_reducible apply kept_sendTo
    | with_reducible apply kept_updCmd
    | simp only [Kept.upd_iff]
    | (intro _; try dsimp only [id])
    | split

theorem kept_askNext {s t : State} {cntlid : Nat} {sqid : Nat} (h : Kept s t) :
    Kept s (askNext cntlid sqid t) := by
  unfold askNext
  try dsimp only
  repeat' first
    | with_reducible assumption
    | with_reducible exact Kept.refl _
    | with_reducible apply kept_askData
    | simp only [Kept.upd_iff]
    | with_reducible apply Kept.foldl

theorem kept_fetchData {s t : State} {id : Nat} (h : Kept s t) :
    Kept s (fetchData id t) := by
  unfold fetchData
  try dsimp only
  repeat' first
    | with_reducible assumption
    | with_reducible exact Kept.refl _
    | with_reducible apply kept_askData
    | with_reducible apply kept_dataReady
    | with_reducible apply kept_updCmd
    | simp only [Kept.upd_iff]
    | (intro _; try dsimp only [id])
    | split

theorem kept_pump {s t : State} (h : Kept s t) :
    Kept s (pump t) := by
  unfold pump
  try dsimp only
  repeat' first
    | with_reducible assumption
    | with_reducible exact Kept.refl _
    | with_reducible apply kept_startRead
    | with_reducible apply kept_mapPump
    | simp only [Kept.upd_iff]
    | with_reducible apply Kept.foldl

theorem kept_updBlk {s t : State} {die : Nat} {blk : Nat} {f : Blk → Blk} (h : Kept s t) :
    Kept s (updBlk die blk f t) := by
  unfold updBlk
  try dsimp only
  repeat' first
    | with_reducible assumption
    | with_reducible exact Kept.refl _
    | simp only [Kept.upd_iff]

theorem kept_sweepBandDone {s t : State} {sg : Nat} {b : Nat} (h : Kept s t) :
    Kept s (sweepBandDone sg b t) := by
  unfold sweepBandDone
  try dsimp only
  repeat' first
    | with_reducible assumption
    | with_reducible exact Kept.refl _
    | simp only [Kept.upd_iff]

theorem kept_setMember {s t : State} {sg : Nat} {b : Nat} {m : Nat} {blk : Nat} (h : Kept s t) :
    Kept s (setMember sg b m blk t) := by
  unfold setMember
  try dsimp only
  repeat' first
    | with_reducible assumption
    | with_reducible exact Kept.refl _
    | with_reducible apply kept_updBand
    | simp only [Kept.upd_iff]
    | (intro _; try dsimp only [id])
    | split

theorem kept_retireBand {s t : State} {x : Band} (h : Kept s t) :
    Kept s (retireBand x t) := by
  unfold retireBand
  try dsimp only
  repeat' first
    | with_reducible assumption
    | with_reducible exact Kept.refl _
    | with_reducible apply kept_sweepBandDone
    | with_reducible apply kept_updBlk
    | with_reducible apply kept_updBand
    | with_reducible apply kept_bandRecord
    | with_reducible apply kept_smartRefresh
    | with_reducible apply kept_logEv
    | simp only [Kept.upd_iff]
    | with_reducible apply Kept.foldl
    | (intro _; try dsimp only [id])
    | split

theorem kept_replaceMember {s t : State} {cause : Nat} {sg : Nat} {b : Nat} {m : Nat} (h : Kept s t) :
    Kept s (replaceMember cause sg b m t) := by
  unfold replaceMember
  try dsimp only
  repeat' first
    | with_reducible assumption
    | with_reducible exact Kept.refl _
    | with_reducible apply kept_retireBand
    | with_reducible apply kept_setMember
    | with_reducible apply kept_updBlk
    | with_reducible apply kept_bandRecord
    | with_reducible apply kept_smartRefresh
    | with_reducible apply kept_countLife
    | with_reducible apply kept_logEv
    | simp only [Kept.upd_iff]
    | (intro _; try dsimp only [id])
    | split

theorem kept_replaceSpecial {s t : State} {cause : Nat} {d : Nat} {blk : Nat} (h : Kept s t) :
    Kept s (replaceSpecial cause d blk t) := by
  unfold replaceSpecial
  try dsimp only
  repeat' first
    | with_reducible assumption
    | with_reducible exact Kept.refl _
    | with_reducible apply kept_updBlk
    | with_reducible apply kept_smartRefresh
    | with_reducible apply kept_countLife
    | with_reducible apply kept_logEv
    | simp only [Kept.upd_iff]
    | (intro _; try dsimp only [id])
    | split

theorem kept_bandOpened {s t : State} {b : Band} {slc : Bool} {st : Stream} (h : Kept s t) :
    Kept s (bandOpened b slc st t) := by
  unfold bandOpened
  try dsimp only
  repeat' first
    | with_reducible assumption
    | with_reducible exact Kept.refl _
    | with_reducible apply kept_updBand
    | with_reducible apply kept_bandRecord
    | simp only [Kept.upd_iff]

theorem kept_retireForSpares {s t u : State} {sg : Nat} (h : Kept s t) (e : retireForSpares sg t = some u) : Kept s u := by
  unfold retireForSpares at e
  simp only [Option.bind_eq_some_iff, Option.map_eq_some_iff] at e
  obtain ⟨_, _, _, _, rfl⟩ := e
  exact kept_retireBand h

theorem kept_assignSubst {s t u : State} {g : Group} {b : Band} {m : Nat} (h : Kept s t) (e : assignSubst g b m t = some u) :
    Kept s u := by
  unfold assignSubst at e
  simp only [Option.map_eq_some_iff, Option.or_eq_some_iff, Option.bind_eq_some_iff] at e
  obtain ⟨⟨⟨d, shared⟩, k, s1⟩, e1, rfl⟩ := e
  have hk : Kept s s1 := by
    rcases e1 with ⟨_, _, _, _, e1⟩ | ⟨_, _, hr, _, _, _, _, e1⟩
    · cases e1; exact h
    · cases e1; exact kept_retireForSpares h hr
  dsimp only
  apply kept_smartRefresh
  split
  · exact kept_bump (Kept.upd (kept_sjAppend (kept_updBlk hk)))
  · exact Kept.upd (kept_sjAppend (kept_updBlk hk))

theorem kept_stallHealing {s t : State} {sg : Nat} (h : Kept s t) :
    Kept s (stallHealing sg t) := by
  unfold stallHealing
  try dsimp only
  repeat' first
    | with_reducible assumption
    | with_reducible exact Kept.refl _
    | with_reducible apply kept_logEv
    | simp only [Kept.upd_iff]

theorem kept_completeSubst {s t : State} {x : Subst} (h : Kept s t) :
    Kept s (completeSubst x t) := by
  unfold completeSubst
  try dsimp only
  repeat' first
    | with_reducible assumption
    | with_reducible exact Kept.refl _
    | with_reducible apply kept_updBlk
    | with_reducible apply kept_updBand
    | with_reducible apply kept_sjAppend
    | simp only [Kept.upd_iff]

theorem kept_substForFree {s t u : State} {g : Group} {b : Band} (h : Kept s t) (e : substForFree g b t = some u) :
    Kept s u := by
  unfold substForFree at e
  simp only [Option.map_eq_some_iff] at e
  obtain ⟨s1, e1, rfl⟩ := e
  have hk : ∀ (l : List Nat) (a : Option State), (∀ x, a = some x → Kept s x) →
      ∀ x, l.foldl (fun (a : Option State) m => a.bind (assignSubst g b m)) a = some x → Kept s x := by
    intro l
    induction l with
    | nil => exact fun a ha x hx => ha x hx
    | cons m l ih =>
      intro a ha x hx
      refine ih _ (fun y hy => ?_) x hx
      obtain ⟨z, hz, hy⟩ := Option.bind_eq_some_iff.mp hy
      exact kept_assignSubst (ha z hz) hy
  exact Kept.foldl (hk _ _ (fun x hx => by cases hx; exact h) _ e1) fun _ _ x => kept_completeSubst x

theorem kept_openNewBand {s t u : State} {sg : Nat} {st : Stream} {blank : List Nat} {o : Option Nat} (h : Kept s t)
    (e : openNewBand sg st blank t = (u, o)) : Kept s u := by
  unfold openNewBand at e
  split at e
  · cases e; exact h
  · split at e
    · cases e; exact kept_stallHealing h
    · rename_i s1 hs
      obtain ⟨g, _, hs⟩ := Option.bind_eq_some_iff.mp hs
      have hk := kept_substForFree h hs
      dsimp only at e
      split at e <;> cases e
      · exact kept_bandOpened hk
      · exact Kept.foldl hk fun _ _ x => kept_replaceMember x

theorem kept_rotateActive {s t : State} {sg : Nat} (h : Kept s t) :
    Kept s (rotateActive sg t) := by
  unfold rotateActive
  try dsimp only
  repeat' first
    | with_reducible assumption
    | with_reducible exact Kept.refl _
    | simp only [Kept.upd_iff]
    | with_reducible apply Kept.foldl
    | (intro _; try dsimp only [id])
    | split

theorem kept_abortSubsts {s t : State} {st : BlkState} {sg : Nat} {b : Nat} (h : Kept s t) :
    Kept s (abortSubsts st sg b t) := by
  unfold abortSubsts
  try dsimp only
  repeat' first
    | with_reducible assumption
    | with_reducible exact Kept.refl _
    | with_reducible apply kept_updBlk
    | with_reducible apply kept_sjAppend
    | simp only [Kept.upd_iff]
    | with_reducible apply Kept.foldl
    | (intro _; try dsimp only [id])

theorem kept_startRelocation {s t : State} {w : Why} {sg : Nat} {b : Nat} (h : Kept s t) :
    Kept s (startRelocation w sg b t) := by
  unfold startRelocation
  try dsimp only
  repeat' first
    | with_reducible assumption
    | with_reducible exact Kept.refl _
    | with_reducible apply kept_abortSubsts
    | with_reducible apply kept_updBand
    | simp only [Kept.upd_iff]
    | (intro _; try dsimp only [id])
    | split

theorem kept_sealBand {s t : State} {sg : Nat} {b : Nat} (h : Kept s t) :
    Kept s (sealBand sg b t) := by
  unfold sealBand
  try dsimp only
  repeat' first
    | with_reducible assumption
    | with_reducible exact Kept.refl _
    | with_reducible apply kept_startRelocation
    | with_reducible apply kept_rotateActive
    | with_reducible apply kept_updBand
    | with_reducible apply kept_bandRecord
    | simp only [Kept.upd_iff]
    | (intro _; try dsimp only [id])
    | split

theorem kept_copyLive {s t : State} {addr : Nat} {st : Stream} (h : Kept s t) :
    Kept s (copyLive addr st t) := by
  unfold copyLive
  try dsimp only
  repeat' first
    | with_reducible assumption
    | with_reducible exact Kept.refl _
    | simp only [Kept.upd_iff]
    | (intro _; try dsimp only [id])
    | split

theorem kept_mapBandCheck {s t : State} {g : Eg} (h : Kept s t) :
    Kept s (mapBandCheck g t) := by
  unfold mapBandCheck
  try dsimp only
  repeat' first
    | with_reducible assumption
    | with_reducible exact Kept.refl _
    | with_reducible apply kept_logEv
    | simp only [Kept.upd_iff]
    | (intro _; try dsimp only [id])
    | split

theorem kept_openSweep {s t u : State} {c : Cmd} {rs : List (Nat × Nat)} (h : Kept s t) (e : openSweep c rs t = some u) :
    Kept s u := by
  unfold openSweep at e
  dsimp only at e
  split at e <;> cases e
  exact kept_updCmd (Kept.upd h)

theorem kept_countUnerased {s t : State} {x : Band} {n : Nat} (h : Kept s t) :
    Kept s (countUnerased x n t) := by
  unfold countUnerased
  try dsimp only
  repeat' first
    | with_reducible assumption
    | with_reducible exact Kept.refl _
    | simp only [Kept.upd_iff]

theorem kept_dropStaging {s t : State} {c : Cmd} (h : Kept s t) :
    Kept s (dropStaging c t) := by
  unfold dropStaging
  try dsimp only
  repeat' first
    | with_reducible assumption
    | with_reducible exact Kept.refl _
    | simp only [Kept.upd_iff]

theorem kept_stagingFails {s t : State} {e : Ext} (h : Kept s t) :
    Kept s (stagingFails e t) := by
  unfold stagingFails
  try dsimp only
  repeat' first
    | with_reducible assumption
    | with_reducible exact Kept.refl _
    | with_reducible apply kept_dropStaging
    | with_reducible apply kept_pump
    | with_reducible apply kept_finishCmd
    | simp only [Kept.upd_iff]
    | (intro _; try dsimp only [id])
    | split

theorem kept_extentStaged {s t : State} {q : Nat} {ok : Bool} (h : Kept s t) :
    Kept s (extentStaged q ok t) := by
  unfold extentStaged
  try dsimp only
  repeat' first
    | with_reducible assumption
    | with_reducible exact Kept.refl _
    | with_reducible apply kept_stagingFails
    | with_reducible apply kept_updExt
    | simp only [Kept.upd_iff]
    | (intro _; try dsimp only [id])
    | split

theorem kept_mirrorCopy {s t : State} {q : Nat} (h : Kept s t) :
    Kept s (mirrorCopy q t) := by
  unfold mirrorCopy
  try dsimp only
  repeat' first
    | with_reducible assumption
    | with_reducible exact Kept.refl _
    | with_reducible apply kept_updExt
    | with_reducible apply kept_logEv
    | simp only [Kept.upd_iff]
    | (intro _; try dsimp only [id])
    | split

theorem kept_closeRow {s t : State} {sg : Nat} {b : Nat} {i : Nat} (h : Kept s t) :
    Kept s (closeRow sg b i t) := by
  unfold closeRow
  try dsimp only
  repeat' first
    | with_reducible assumption
    | with_reducible exact Kept.refl _
    | with_reducible apply kept_updRow
    | with_reducible apply kept_rowRecord
    | with_reducible apply kept_addT
    | simp only [Kept.upd_iff]
    | (intro _; try dsimp only [id])
    | split

theorem kept_stageConfirm {s t : State} {q : Nat} (h : Kept s t) :
    Kept s (stageConfirm q t) := by
  unfold stageConfirm
  try dsimp only
  repeat' first
    | with_reducible assumption
    | with_reducible exact Kept.refl _
    | with_reducible apply kept_closeRow
    | with_reducible apply kept_goMap
    | with_reducible apply kept_updExt
    | simp only [Kept.upd_iff]
    | (intro _; try dsimp only [id])
    | split

theorem kept_newRow {s t : State} {b : Band} (h : Kept s t) :
    Kept s (newRow b t) := by
  unfold newRow
  try dsimp only
  repeat' first
    | with_reducible assumption
    | with_reducible exact Kept.refl _
    | with_reducible apply kept_updBand
    | simp only [Kept.upd_iff]

theorem kept_openRow {s t : State} {sg : Nat} {st : Stream} {blank : List Nat} (h : Kept s t) :
    Kept s (openRow sg st blank t) := by
  unfold openRow
  try dsimp only
  repeat' first
    | with_reducible assumption
    | with_reducible exact Kept.refl _
    | with_reducible apply kept_newRow
    | simp only [Kept.upd_iff]
    | (intro _; try dsimp only [id])
    | split
    | with_reducible refine kept_openNewBand ?_ (by assumption)

theorem kept_reserve {s t : State} {t0 : Nat} {sg : Nat} {st : Stream} {blank : List Nat} (h : Kept s t) :
    Kept s (reserve t0 sg st blank t) := by
  unfold reserve
  try dsimp only
  repeat' first
    | with_reducible assumption
    | with_reducible exact Kept.refl _
    | with_reducible apply kept_openRow
    | with_reducible apply kept_placeWaiting
    | with_reducible apply kept_updRow
    | simp only [Kept.upd_iff]
    | (intro _; try dsimp only [id])
    | split

theorem kept_unitReturn {s t : State} {t0 : Nat} {sg : Nat} {st : Stream} {m : Nat} (h : Kept s t) :
    Kept s (unitReturn t0 sg st m t) := by
  unfold unitReturn
  try dsimp only
  repeat' first
    | with_reducible assumption
    | with_reducible exact Kept.refl _
    | with_reducible apply kept_closeRow
    | with_reducible apply kept_updRow
    | simp only [Kept.upd_iff]
    | (intro _; try dsimp only [id])
    | split

theorem kept_rowTimer {s t : State} {sg : Nat} {st : Stream} (h : Kept s t) :
    Kept s (rowTimer sg st t) := by
  unfold rowTimer
  try dsimp only
  repeat' first
    | with_reducible assumption
    | with_reducible exact Kept.refl _
    | with_reducible apply kept_closeRow
    | with_reducible apply kept_updRow
    | simp only [Kept.upd_iff]
    | (intro _; try dsimp only [id])
    | split

theorem kept_parityUnit {s t : State} {sg : Nat} {b : Nat} {i : Nat} {m : Nat} {d : Bytes} (h : Kept s t) :
    Kept s (parityUnit sg b i m d t) := by
  unfold parityUnit
  try dsimp only
  repeat' first
    | with_reducible assumption
    | with_reducible exact Kept.refl _
    | with_reducible apply kept_updRow
    | with_reducible apply kept_startPrograms
    | simp only [Kept.upd_iff]
    | (intro _; try dsimp only [id])
    | split

theorem kept_releaseRow {s t : State} {sg : Nat} {b : Nat} {i : Nat} (h : Kept s t) :
    Kept s (releaseRow sg b i t) := by
  unfold releaseRow
  try dsimp only
  repeat' first
    | with_reducible assumption
    | with_reducible exact Kept.refl _
    | with_reducible apply kept_drainPump
    | simp only [Kept.upd_iff]

theorem kept_chargeExt {s t : State} {t0 : Nat} {e : Ext} {f : Meter → Meter} (h : Kept s t) :
    Kept s (chargeExt t0 e f t) := by
  unfold chargeExt
  try dsimp only
  repeat' first
    | with_reducible assumption
    | with_reducible exact Kept.refl _
    | with_reducible apply kept_chargeCopy
    | with_reducible apply kept_chargeBack
    | with_reducible apply kept_chargePair
    | simp only [Kept.upd_iff]
    | (intro _; try dsimp only [id])
    | split

theorem kept_meterRow {s t : State} {r : Row} (h : Kept s t) :
    Kept s (meterRow r t) := by
  unfold meterRow
  try dsimp only
  repeat' first
    | with_reducible assumption
    | with_reducible exact Kept.refl _
    | with_reducible apply kept_chargeExt
    | with_reducible apply kept_countEgMedia
    | with_reducible apply kept_chargeOver
    | simp only [Kept.upd_iff]
    | with_reducible apply Kept.foldl
    | (intro _; try dsimp only [id])

theorem kept_rowProgrammed {s t : State} {sg : Nat} {b : Nat} {i : Nat} (h : Kept s t) :
    Kept s (rowProgrammed sg b i t) := by
  unfold rowProgrammed
  try dsimp only
  repeat' first
    | with_reducible assumption
    | with_reducible exact Kept.refl _
    | with_reducible apply kept_meterRow
    | with_reducible apply kept_releaseRow
    | with_reducible apply kept_sealBand
    | with_reducible apply kept_updBand
    | with_reducible apply kept_startClosed
    | with_reducible apply kept_reportRow
    | simp only [Kept.upd_iff]
    | (intro _; try dsimp only [id])
    | split

theorem kept_reprogramRow {s t : State} {sg : Nat} {b : Nat} {i : Nat} (h : Kept s t) :
    Kept s (reprogramRow sg b i t) := by
  unfold reprogramRow
  try dsimp only
  repeat' first
    | with_reducible assumption
    | with_reducible exact Kept.refl _
    | with_reducible apply kept_sealBand
    | with_reducible apply kept_updBand
    | simp only [Kept.upd_iff]
    | (intro _; try dsimp only [id])
    | split

theorem kept_substFailed {s t : State} {sg : Nat} {b : Nat} {m : Nat} (h : Kept s t) :
    Kept s (substFailed sg b m t) := by
  unfold substFailed
  try dsimp only
  repeat' first
    | with_reducible assumption
    | with_reducible exact Kept.refl _
    | with_reducible apply kept_abortSubsts
    | with_reducible apply kept_endArray
    | with_reducible apply kept_dropOp
    | with_reducible apply kept_countLife
    | with_reducible apply kept_logEv
    | simp only [Kept.upd_iff]
    | (intro _; try dsimp only [id])
    | split

theorem kept_mapProgramFailed {s t : State} {sg : Nat} {b : Nat} {m : Nat} (h : Kept s t) :
    Kept s (mapProgramFailed sg b m t) := by
  unfold mapProgramFailed
  try dsimp only
  repeat' first
    | with_reducible assumption
    | with_reducible exact Kept.refl _
    | with_reducible apply kept_sealBand
    | with_reducible apply kept_updBand
    | with_reducible apply kept_endArray
    | with_reducible apply kept_dropOp
    | with_reducible apply kept_countLife
    | with_reducible apply kept_logEv
    | simp only [Kept.upd_iff]
    | (intro _; try dsimp only [id])
    | split

theorem kept_programFailed {s t : State} {sg : Nat} {b : Nat} {i : Nat} {m : Nat} (h : Kept s t) :
    Kept s (programFailed sg b i m t) := by
  unfold programFailed
  try dsimp only
  repeat' first
    | with_reducible assumption
    | with_reducible exact Kept.refl _
    | with_reducible apply kept_mapProgramFailed
    | with_reducible apply kept_substFailed
    | with_reducible apply kept_reprogramRow
    | with_reducible apply kept_updBand
    | with_reducible apply kept_finishDieOp
    | with_reducible apply kept_countLife
    | with_reducible apply kept_logEv
    | simp only [Kept.upd_iff]
    | (intro _; try dsimp only [id])
    | split

theorem kept_seqPad {s t : State} {sg : Nat} {st : Stream} (h : Kept s t) :
    Kept s (seqPad sg st t) := by
  unfold seqPad
  try dsimp only
  repeat' first
    | with_reducible assumption
    | with_reducible exact Kept.refl _
    | with_reducible apply kept_newRow
    | with_reducible apply kept_closeRow
    | with_reducible apply kept_updRow
    | simp only [Kept.upd_iff]
    | (intro _; try dsimp only [id])
    | split

theorem kept_seqLeaseNew {s t : State} {t0 : Nat} (h : Kept s t) :
    Kept s (seqLeaseNew t0 t) := by
  unfold seqLeaseNew
  try dsimp only
  repeat' first
    | with_reducible assumption
    | with_reducible exact Kept.refl _
    | simp only [Kept.upd_iff]
    | (intro _; try dsimp only [id])
    | split

theorem kept_headroomLease {s t : State} {t0 : Nat} {n : Nat} (h : Kept s t) :
    Kept s (headroomLease t0 n t) := by
  unfold headroomLease
  try dsimp only
  repeat' first
    | with_reducible assumption
    | with_reducible exact Kept.refl _
    | with_reducible apply kept_recallLeases
    | with_reducible apply kept_setLease
    | simp only [Kept.upd_iff]
    | (intro _; try dsimp only [id])
    | split

theorem kept_slcRecompute {s t : State} (h : Kept s t) :
    Kept s (slcRecompute t) := by
  unfold slcRecompute
  try dsimp only
  repeat' first
    | with_reducible assumption
    | with_reducible exact Kept.refl _
    | simp only [Kept.upd_iff]

theorem kept_promotionStart {s t : State} {sg : Nat} (h : Kept s t) :
    Kept s (promotionStart sg t) := by
  unfold promotionStart
  try dsimp only
  repeat' first
    | with_reducible assumption
    | with_reducible exact Kept.refl _
    | with_reducible apply kept_startRelocation
    | simp only [Kept.upd_iff]
    | (intro _; try dsimp only [id])
    | split

theorem kept_setEg {s t : State} {id : Nat} {f : Eg → Eg} (h : Kept s t) :
    Kept s (setEg id f t) := by
  unfold setEg
  try dsimp only
  repeat' first
    | with_reducible assumption
    | with_reducible exact Kept.refl _
    | simp only [Kept.upd_iff]

theorem kept_stalemateEnter {s t : State} {g : Eg} (h : Kept s t) :
    Kept s (stalemateEnter g t) := by
  unfold stalemateEnter
  try dsimp only
  repeat' first
    | with_reducible assumption
    | with_reducible exact Kept.refl _
    | with_reducible apply kept_setEg
    | with_reducible apply kept_smartRefresh
    | with_reducible apply kept_raiseAen
    | with_reducible apply kept_logEv
    | simp only [Kept.upd_iff]
    | with_reducible apply Kept.foldl
    | (intro _; try dsimp only [id])
    | split

theorem kept_stalemateExit {s t : State} {g : Eg} (h : Kept s t) :
    Kept s (stalemateExit g t) := by
  unfold stalemateExit
  try dsimp only
  repeat' first
    | with_reducible assumption
    | with_reducible exact Kept.refl _
    | with_reducible apply kept_setEg
    | with_reducible apply kept_smartRefresh
    | with_reducible apply kept_logEv
    | simp only [Kept.upd_iff]
    | (intro _; try dsimp only [id])
    | split

theorem kept_castleStep {s t : State} {sg : Nat} (h : Kept s t) :
    Kept s (castleStep sg t) := by
  unfold castleStep
  try dsimp only
  repeat' first
    | with_reducible assumption
    | with_reducible exact Kept.refl _
    | with_reducible apply kept_startRelocation
    | simp only [Kept.upd_iff]
    | (intro _; try dsimp only [id])
    | split

theorem kept_wakeIdle {s t : State} {sg : Nat} (h : Kept s t) :
    Kept s (wakeIdle sg t) := by
  unfold wakeIdle
  try dsimp only
  repeat' first
    | with_reducible assumption
    | with_reducible exact Kept.refl _
    | simp only [Kept.upd_iff]

theorem kept_reclaimStep {s t : State} {sg : Nat} (h : Kept s t) :
    Kept s (reclaimStep sg t) := by
  unfold reclaimStep
  try dsimp only
  repeat' first
    | with_reducible assumption
    | with_reducible exact Kept.refl _
    | with_reducible apply kept_wakeIdle
    | with_reducible apply kept_startRelocation
    | simp only [Kept.upd_iff]
    | (intro _; try dsimp only [id])
    | split

theorem kept_mapReclaimStep {s t : State} {sg : Nat} (h : Kept s t) :
    Kept s (mapReclaimStep sg t) := by
  unfold mapReclaimStep
  try dsimp only
  repeat' first
    | with_reducible assumption
    | with_reducible exact Kept.refl _
    | with_reducible apply kept_startRelocation
    | simp only [Kept.upd_iff]
    | (intro _; try dsimp only [id])
    | split

theorem kept_rescore {s t : State} (h : Kept s t) :
    Kept s (rescore t) := by
  unfold rescore
  try dsimp only
  repeat' first
    | with_reducible assumption
    | with_reducible exact Kept.refl _
    | with_reducible apply kept_mapReclaimStep
    | with_reducible apply kept_reclaimStep
    | with_reducible apply kept_castleStep
    | with_reducible apply kept_stalemateEnter
    | with_reducible apply kept_mapBandCheck
    | simp only [Kept.upd_iff]
    | with_reducible apply Kept.foldl
    | (intro _; try dsimp only [id])

theorem kept_livenessQuery {s t : State} {sg : Nat} {b : Nat} {addr : Nat} (h : Kept s t) :
    Kept s (livenessQuery sg b addr t) := by
  unfold livenessQuery
  try dsimp only
  repeat' first
    | with_reducible assumption
    | with_reducible exact Kept.refl _
    | with_reducible apply kept_updBand
    | with_reducible apply kept_addRead
    | with_reducible apply kept_loseBlocks
    | simp only [Kept.upd_iff]
    | (intro _; try dsimp only [id])
    | split

theorem kept_copyRead {s t : State} {o : DieOp} {ok : Bool} (h : Kept s t) :
    Kept s (copyRead o ok t) := by
  unfold copyRead
  try dsimp only
  repeat' first
    | with_reducible assumption
    | with_reducible exact Kept.refl _
    | with_reducible apply kept_copyLive
    | with_reducible apply kept_loseBlocks
    | with_reducible apply kept_addT
    | simp only [Kept.upd_iff]
    | (intro _; try dsimp only [id])
    | split

theorem kept_meterErase {s t : State} {x : Band} {copies : List Ext} (h : Kept s t) :
    Kept s (meterErase x copies t) := by
  unfold meterErase
  try dsimp only
  repeat' first
    | with_reducible assumption
    | with_reducible exact Kept.refl _
    | with_reducible apply kept_chargeExt
    | with_reducible apply kept_chargeOver
    | simp only [Kept.upd_iff]
    | with_reducible apply Kept.foldl
    | (intro _; try dsimp only [id])

theorem kept_relocationCommitted {s t : State} {sg : Nat} {b : Nat} (h : Kept s t) :
    Kept s (relocationCommitted sg b t) := by
  unfold relocationCommitted
  try dsimp only
  repeat' first
    | with_reducible assumption
    | with_reducible exact Kept.refl _
    | with_reducible apply kept_meterErase
    | with_reducible apply kept_updBand
    | with_reducible apply kept_bandRecord
    | simp only [Kept.upd_iff]
    | (intro _; try dsimp only [id])
    | split

theorem kept_startErases {s t : State} {x : Band} (h : Kept s t) :
    Kept s (startErases x t) := by
  unfold startErases
  try dsimp only
  repeat' first
    | with_reducible assumption
    | with_reducible exact Kept.refl _
    | with_reducible apply kept_countUnerased
    | with_reducible apply kept_replaceMember
    | with_reducible apply kept_updBand
    | with_reducible apply kept_enqueueErases
    | with_reducible apply kept_addT
    | simp only [Kept.upd_iff]
    | with_reducible apply Kept.foldl
    | (intro _; try dsimp only [id])

theorem kept_eraseDrain {s t : State} {sg : Nat} {b : Nat} (h : Kept s t) :
    Kept s (eraseDrain sg b t) := by
  unfold eraseDrain
  try dsimp only
  repeat' first
    | with_reducible assumption
    | with_reducible exact Kept.refl _
    | with_reducible apply kept_startErases
    | with_reducible apply kept_bandRecord
    | simp only [Kept.upd_iff]
    | (intro _; try dsimp only [id])
    | split

theorem kept_bandFreed {s t : State} {sg : Nat} {b : Nat} (h : Kept s t) :
    Kept s (bandFreed sg b t) := by
  unfold bandFreed
  try dsimp only
  repeat' first
    | with_reducible assumption
    | with_reducible exact Kept.refl _
    | with_reducible apply kept_stalemateExit
    | with_reducible apply kept_sweepBandDone
    | with_reducible apply kept_updBlk
    | with_reducible apply kept_updBand
    | with_reducible apply kept_bandRecord
    | simp only [Kept.upd_iff]
    | with_reducible apply Kept.foldl
    | (intro _; try dsimp only [id])
    | split

theorem kept_eraseDone {s t : State} {sg : Nat} {b : Nat} {m : Nat} (h : Kept s t) :
    Kept s (eraseDone sg b m t) := by
  unfold eraseDone
  try dsimp only
  repeat' first
    | with_reducible assumption
    | with_reducible exact Kept.refl _
    | with_reducible apply kept_bandFreed
    | with_reducible apply kept_updBand
    | with_reducible apply kept_startClosed
    | with_reducible apply kept_finishDieOp
    | simp only [Kept.upd_iff]
    | (intro _; try dsimp only [id])
    | split

theorem kept_eraseFailed {s t : State} {sg : Nat} {b : Nat} {m : Nat} {blank : List Nat} (h : Kept s t) :
    Kept s (eraseFailed sg b m blank t) := by
  unfold eraseFailed
  try dsimp only
  repeat' first
    | with_reducible assumption
    | with_reducible exact Kept.refl _
    | with_reducible apply kept_eraseDone
    | with_reducible apply kept_countUnerased
    | with_reducible apply kept_replaceMember
    | with_reducible apply kept_countLife
    | simp only [Kept.upd_iff]
    | with_reducible apply Kept.foldl
    | (intro _; try dsimp only [id])
    | split

theorem kept_censusRegion {s t : State} {n : Nat} {r : Nat} (h : Kept s t) :
    Kept s (censusRegion n r t) := by
  unfold censusRegion
  try dsimp only
  repeat' first
    | with_reducible assumption
    | with_reducible exact Kept.refl _
    | with_reducible apply kept_reportLive
    | simp only [Kept.upd_iff]
    | (intro _; try dsimp only [id])
    | split

theorem kept_summaryDone {s t : State} {t0 : Nat} (h : Kept s t) :
    Kept s (summaryDone t0 t) := by
  unfold summaryDone
  try dsimp only
  repeat' first
    | with_reducible assumption
    | with_reducible exact Kept.refl _
    | with_reducible apply kept_updBlk
    | simp only [Kept.upd_iff]
    | with_reducible apply Kept.foldl
    | (intro _; try dsimp only [id])
    | split

theorem kept_sweepBand {s t : State} {b : Band} (h : Kept s t) :
    Kept s (sweepBand b t) := by
  unfold sweepBand
  try dsimp only
  repeat' first
    | with_reducible assumption
    | with_reducible exact Kept.refl _
    | with_reducible apply kept_closeRow
    | with_reducible apply kept_sealBand
    | with_reducible apply kept_startRelocation
    | with_reducible apply kept_updRow
    | with_reducible apply kept_updBand
    | simp only [Kept.upd_iff]
    | with_reducible apply Kept.foldl
    | (intro _; try dsimp only [id])
    | split

theorem kept_sweepRows {s t : State} {id : Nat} (h : Kept s t) :
    Kept s (sweepRows id t) := by
  unfold sweepRows
  try dsimp only
  repeat' first
    | with_reducible assumption
    | with_reducible exact Kept.refl _
    | with_reducible apply kept_sweepBand
    | with_reducible apply kept_drainPump
    | with_reducible apply kept_updBand
    | with_reducible apply kept_updCmd
    | simp only [Kept.upd_iff]
    | with_reducible apply Kept.foldl
    | (intro _; try dsimp only [id])
    | split

theorem kept_sweepDone {s t : State} {id : Nat} (h : Kept s t) :
    Kept s (sweepDone id t) := by
  unfold sweepDone
  try dsimp only
  repeat' first
    | with_reducible assumption
    | with_reducible exact Kept.refl _
    | with_reducible apply kept_raiseAen
    | with_reducible apply kept_finishCmd
    | with_reducible apply kept_syncStores
    | simp only [Kept.upd_iff]
    | with_reducible apply Kept.foldl
    | (intro _; try dsimp only [id])
    | split

theorem kept_sweepExpire {s t : State} {id : Nat} (h : Kept s t) :
    Kept s (sweepExpire id t) := by
  unfold sweepExpire
  try dsimp only
  repeat' first
    | with_reducible assumption
    | with_reducible exact Kept.refl _
    | simp only [Kept.upd_iff]

theorem kept_setSecure {s t : State} {a : Adm} {n : Nat} {v : Nat} (h : Kept s t) :
    Kept s (setSecure a n v t) := by
  unfold setSecure
  try dsimp only
  repeat' first
    | with_reducible assumption
    | with_reducible exact Kept.refl _
    | with_reducible apply kept_admDone
    | with_reducible apply kept_syncStores
    | simp only [Kept.upd_iff]
    | (intro _; try dsimp only [id])
    | split

theorem kept_getSecure {s t : State} {a : Adm} {n : Nat} (h : Kept s t) :
    Kept s (getSecure a n t) := by
  unfold getSecure
  try dsimp only
  repeat' first
    | with_reducible assumption
    | with_reducible exact Kept.refl _
    | with_reducible apply kept_admDone
    | simp only [Kept.upd_iff]
    | (intro _; try dsimp only [id])
    | split

theorem kept_loseExtent {s t : State} {e : FExt} {blocks : List Nat} {cause : Nat} (h : Kept s t) :
    Kept s (loseExtent e blocks cause t) := by
  unfold loseExtent
  try dsimp only
  repeat' first
    | with_reducible assumption
    | with_reducible exact Kept.refl _
    | with_reducible apply kept_enterLost
    | simp only [Kept.upd_iff]

theorem kept_stopHealing {s t : State} {sg : Nat} {b : Nat} {es : List FExt} (h : Kept s t) :
    Kept s (stopHealing sg b es t) := by
  unfold stopHealing
  try dsimp only
  repeat' first
    | with_reducible assumption
    | with_reducible exact Kept.refl _
    | with_reducible apply kept_loseExtent
    | with_reducible apply kept_startRelocation
    | with_reducible apply kept_abortSubsts
    | simp only [Kept.upd_iff]
    | with_reducible apply Kept.foldl
    | (intro _; try dsimp only [id])

theorem kept_tripleLoss {s t : State} {sg : Nat} (h : Kept s t) :
    Kept s (tripleLoss sg t) := by
  unfold tripleLoss
  try dsimp only
  repeat' first
    | with_reducible assumption
    | with_reducible exact Kept.refl _
    | with_reducible apply kept_loseExtent
    | with_reducible apply kept_startRelocation
    | simp only [Kept.upd_iff]
    | with_reducible apply Kept.foldl
    | (intro _; try dsimp only [id])
    | split

theorem kept_memberLost {s t : State} {sg : Nat} {m : Nat} {cause : Nat} (h : Kept s t) :
    Kept s (memberLost sg m cause t) := by
  unfold memberLost
  try dsimp only
  repeat' first
    | with_reducible assumption
    | with_reducible exact Kept.refl _
    | with_reducible apply kept_tripleLoss
    | with_reducible apply kept_reprogramRow
    | with_reducible apply kept_setGroupState
    | with_reducible apply kept_sjAppend
    | with_reducible apply kept_updGroup
    | with_reducible apply kept_logEv
    | simp only [Kept.upd_iff]
    | with_reducible apply Kept.foldl
    | (intro _; try dsimp only [id])
    | split

theorem kept_dropSubsts {s t : State} {d : Nat} (h : Kept s t) :
    Kept s (dropSubsts d t) := by
  unfold dropSubsts
  try dsimp only
  repeat' first
    | with_reducible assumption
    | with_reducible exact Kept.refl _
    | simp only [Kept.upd_iff]

theorem kept_archiveCheck {s t : State} (h : Kept s t) :
    Kept s (archiveCheck t) := by
  unfold archiveCheck
  try dsimp only
  repeat' first
    | with_reducible assumption
    | with_reducible exact Kept.refl _
    | with_reducible apply kept_addOp
    | with_reducible apply kept_emit
    | simp only [Kept.upd_iff]
    | with_reducible apply Kept.foldl
    | (intro _; try dsimp only [id])
    | split

theorem kept_moveEventCopy {s t : State} {d : Nat} (h : Kept s t) :
    Kept s (moveEventCopy d t) := by
  unfold moveEventCopy
  try dsimp only
  repeat' first
    | with_reducible assumption
    | with_reducible exact Kept.refl _
    | with_reducible apply kept_logEv
    | simp only [Kept.upd_iff]
    | (intro _; try dsimp only [id])
    | split

theorem kept_failDie {s t : State} {cause : Nat} {d : Nat} (h : Kept s t) :
    Kept s (failDie cause d t) := by
  unfold failDie
  try dsimp only
  repeat' first
    | with_reducible assumption
    | with_reducible exact Kept.refl _
    | with_reducible apply kept_moveEventCopy
    | with_reducible apply kept_dropSubsts
    | with_reducible apply kept_memberLost
    | with_reducible apply kept_eraseFailed
    | with_reducible apply kept_rebuildRead
    | with_reducible apply kept_toRecon
    | with_reducible apply kept_updDie
    | with_reducible apply kept_setGroupState
    | with_reducible apply kept_logEv
    | simp only [Kept.upd_iff]
    | with_reducible apply Kept.foldl
    | (intro _; try dsimp only [id])
    | split

theorem kept_rejoinDie {s t : State} {d : Nat} (h : Kept s t) :
    Kept s (rejoinDie d t) := by
  unfold rejoinDie
  try dsimp only
  repeat' first
    | with_reducible assumption
    | with_reducible exact Kept.refl _
    | with_reducible apply kept_updBlk
    | with_reducible apply kept_setGroupState
    | with_reducible apply kept_sjAppend
    | with_reducible apply kept_updGroup
    | with_reducible apply kept_logEv
    | simp only [Kept.upd_iff]
    | with_reducible apply Kept.foldl
    | (intro _; try dsimp only [id])
    | split

theorem kept_leftOut {s t : State} (h : Kept s t) :
    Kept s (leftOut t) := by
  unfold leftOut
  try dsimp only
  repeat' first
    | with_reducible assumption
    | with_reducible exact Kept.refl _
    | simp only [Kept.upd_iff]
    | (intro _; try dsimp only [id])
    | split

theorem kept_formAll {s t : State} (h : Kept s t) :
    Kept s (formAll t) := by
  unfold formAll
  try dsimp only
  repeat' first
    | with_reducible assumption
    | with_reducible exact Kept.refl _
    | with_reducible apply kept_leftOut
    | with_reducible apply kept_syncStores
    | simp only [Kept.upd_iff]

theorem kept_formIfReady {s t : State} (h : Kept s t) :
    Kept s (formIfReady t) := by
  unfold formIfReady
  try dsimp only
  repeat' first
    | with_reducible assumption
    | with_reducible exact Kept.refl _
    | with_reducible apply kept_formAll
    | simp only [Kept.upd_iff]
    | (intro _; try dsimp only [id])
    | split

theorem kept_tailLost {s t : State} {t0 : Nat} (h : Kept s t) :
    Kept s (tailLost t0 t) := by
  unfold tailLost
  try dsimp only
  repeat' first
    | with_reducible assumption
    | with_reducible exact Kept.refl _
    | simp only [Kept.upd_iff]

theorem kept_forwardsAdopted {s t : State} {t0 : Nat} (h : Kept s t) :
    Kept s (forwardsAdopted t0 t) := by
  unfold forwardsAdopted
  try dsimp only
  repeat' first
    | with_reducible assumption
    | with_reducible exact Kept.refl _
    | with_reducible apply kept_putJournal
    | simp only [Kept.upd_iff]

theorem kept_rebuildMoved {s t : State} {old : State} {t0 : Nat} (h : Kept s t) :
    Kept s (rebuildMoved old t0 t) := by
  unfold rebuildMoved
  try dsimp only
  repeat' first
    | with_reducible assumption
    | with_reducible exact Kept.refl _
    | with_reducible apply kept_rebuildRegion
    | simp only [Kept.upd_iff]
    | with_reducible apply Kept.foldl
    | (intro _; try dsimp only [id])

theorem kept_adoptSlot {s t : State} {t0 : Nat} {lost : Bool} (h : Kept s t) :
    Kept s (adoptSlot t0 lost t) := by
  unfold adoptSlot
  try dsimp only
  repeat' first
    | with_reducible assumption
    | with_reducible exact Kept.refl _
    | with_reducible apply kept_rebuildMoved
    | with_reducible apply kept_forwardsAdopted
    | with_reducible apply kept_tailLost
    | with_reducible apply kept_logEv
    | simp only [Kept.upd_iff]
    | (intro _; try dsimp only [id])
    | split

theorem kept_mirrorLost {s t : State} {t0 : Nat} {inDramOnly : Bool} (h : Kept s t) :
    Kept s (mirrorLost t0 inDramOnly t) := by
  unfold mirrorLost
  try dsimp only
  repeat' first
    | with_reducible assumption
    | with_reducible exact Kept.refl _
    | with_reducible apply kept_logEv
    | simp only [Kept.upd_iff]
    | with_reducible apply Kept.foldl
    | (intro _; try dsimp only [id])

theorem kept_memberStagingLost {s t : State} {t0 : Nat} {inDramOnly : Bool} (h : Kept s t) :
    Kept s (memberStagingLost t0 inDramOnly t) := by
  unfold memberStagingLost
  try dsimp only
  repeat' first
    | with_reducible assumption
    | with_reducible exact Kept.refl _
    | with_reducible apply kept_reprogramRow
    | simp only [Kept.upd_iff]
    | with_reducible apply Kept.foldl
    | (intro _; try dsimp only [id])

theorem kept_dramLost {s t : State} {t0 : Nat} (h : Kept s t) :
    Kept s (dramLost t0 t) := by
  unfold dramLost
  try dsimp only
  repeat' first
    | with_reducible assumption
    | with_reducible exact Kept.refl _
    | with_reducible apply kept_memberStagingLost
    | with_reducible apply kept_mirrorLost
    | with_reducible apply kept_adoptSlot
    | simp only [Kept.upd_iff]

theorem kept_tileMembersLost {s t : State} {t0 : Nat} (h : Kept s t) :
    Kept s (tileMembersLost t0 t) := by
  unfold tileMembersLost
  try dsimp only
  repeat' first
    | with_reducible assumption
    | with_reducible exact Kept.refl _
    | with_reducible apply kept_memberLost
    | simp only [Kept.upd_iff]
    | with_reducible apply Kept.foldl
    | (intro _; try dsimp only [id])

theorem kept_startChannel {s t : State} {t0 : Nat} {ch : Nat} (h : Kept s t) :
    Kept s (startChannel t0 ch t) := by
  unfold startChannel
  try dsimp only
  repeat' first
    | with_reducible assumption
    | with_reducible exact Kept.refl _
    | simp only [Kept.upd_iff]

theorem kept_medEnable {s t : State} {t0 : Nat} {v : Nat} (h : Kept s t) :
    Kept s (medEnable t0 v t) := by
  unfold medEnable
  try dsimp only
  repeat' first
    | with_reducible assumption
    | with_reducible exact Kept.refl _
    | with_reducible apply kept_startChannel
    | with_reducible apply kept_writeEnable
    | with_reducible apply kept_setT
    | simp only [Kept.upd_iff]
    | with_reducible apply Kept.foldl
    | (intro _; try dsimp only [id])

theorem kept_failChannel {s t : State} {c : Nat} (h : Kept s t) :
    Kept s (failChannel c t) := by
  unfold failChannel
  try dsimp only
  repeat' first
    | with_reducible assumption
    | with_reducible exact Kept.refl _
    | with_reducible apply kept_failDie
    | with_reducible apply kept_archiveCheck
    | with_reducible apply kept_updChan
    | with_reducible apply kept_logEv
    | simp only [Kept.upd_iff]
    | with_reducible apply Kept.foldl
    | (intro _; try dsimp only [id])

theorem kept_discover {s t : State} {c : Nat} {found : List Nat} {unexpected : List Nat} {bad : List (Nat × Nat)} (h : Kept s t) :
    Kept s (discover c found unexpected bad t) := by
  unfold discover
  try dsimp only
  repeat' first
    | with_reducible assumption
    | with_reducible exact Kept.refl _
    | with_reducible apply kept_rejoinDie
    | with_reducible apply kept_failDie
    | with_reducible apply kept_logEv
    | simp only [Kept.upd_iff]
    | with_reducible apply Kept.foldl
    | (intro _; try dsimp only [id])
    | split

theorem kept_trainingStep {s t : State} {c : Nat} {ok : Bool} {found : List Nat} {unexpected : List Nat} {bad : List (Nat × Nat)} (h : Kept s t) :
    Kept s (trainingStep c ok found unexpected bad t) := by
  unfold trainingStep
  try dsimp only
  repeat' first
    | with_reducible assumption
    | with_reducible exact Kept.refl _
    | with_reducible apply kept_discover
    | with_reducible apply kept_failChannel
    | with_reducible apply kept_formIfReady
    | with_reducible apply kept_archiveCheck
    | with_reducible apply kept_dispatch
    | with_reducible apply kept_updChan
    | simp only [Kept.upd_iff]
    | with_reducible apply Kept.foldl
    | (intro _; try dsimp only [id])
    | split

theorem kept_burstTo {s t : State} {c : Nat} {l : Nat} {margin : Nat} (h : Kept s t) :
    Kept s (burstTo c l margin t) := by
  unfold burstTo
  try dsimp only
  repeat' first
    | with_reducible assumption
    | with_reducible exact Kept.refl _
    | with_reducible apply kept_updChan

theorem kept_trainingBurst {s t : State} {c : Nat} {margin : Nat} (h : Kept s t) :
    Kept s (trainingBurst c margin t) := by
  unfold trainingBurst
  try dsimp only
  repeat' first
    | with_reducible assumption
    | with_reducible exact Kept.refl _
    | with_reducible apply kept_burstTo
    | with_reducible apply kept_updChan
    | simp only [Kept.upd_iff]
    | (intro _; try dsimp only [id])
    | split

theorem kept_trackingDue {s t : State} {c : Nat} {l : Nat} {margin : Nat} (h : Kept s t) :
    Kept s (trackingDue c l margin t) := by
  unfold trackingDue
  try dsimp only
  repeat' first
    | with_reducible assumption
    | with_reducible exact Kept.refl _
    | with_reducible apply kept_burstTo
    | simp only [Kept.upd_iff]
    | (intro _; try dsimp only [id])
    | split

theorem kept_chRateDown {s t : State} {c : Nat} {trained : Bool} (h : Kept s t) :
    Kept s (chRateDown c trained t) := by
  unfold chRateDown
  try dsimp only
  repeat' first
    | with_reducible assumption
    | with_reducible exact Kept.refl _
    | with_reducible apply kept_failChannel
    | with_reducible apply kept_dispatch
    | with_reducible apply kept_updChan
    | with_reducible apply kept_addFld
    | with_reducible apply kept_logEv
    | simp only [Kept.upd_iff]
    | with_reducible apply Kept.foldl
    | (intro _; try dsimp only [id])
    | split

theorem kept_chRateUp {s t : State} {c : Nat} {holds : Bool} (h : Kept s t) :
    Kept s (chRateUp c holds t) := by
  unfold chRateUp
  try dsimp only
  repeat' first
    | with_reducible assumption
    | with_reducible exact Kept.refl _
    | with_reducible apply kept_updChan
    | with_reducible apply kept_logEv
    | simp only [Kept.upd_iff]
    | (intro _; try dsimp only [id])
    | split

theorem kept_rebuildProgram {s t : State} {x : DieOp} (h : Kept s t) :
    Kept s (rebuildProgram x t) := by
  unfold rebuildProgram
  try dsimp only
  repeat' first
    | with_reducible assumption
    | with_reducible exact Kept.refl _
    | with_reducible apply kept_addOp
    | simp only [Kept.upd_iff]
    | (intro _; try dsimp only [id])
    | split

theorem kept_codecPump {s : State} {a : Nat} {w : EngUnit} : ∀ {n : Nat} {t : State}, Kept s t → Kept s (codecPump a w n t)
  | 0, _, h => h
  | n + 1, t, h => by
    unfold codecPump
    dsimp only
    split
    · exact h
    · split
      · exact h
      · split
        · exact h
        · exact kept_codecPump (kept_updOp (kept_putTurns h))

theorem kept_codecTake {s t : State} {t0 : Nat} (h : Kept s t) :
    Kept s (codecTake t0 t) := by
  unfold codecTake
  try dsimp only
  repeat' first
    | with_reducible assumption
    | with_reducible exact Kept.refl _
    | with_reducible apply kept_codecPump

theorem kept_nandReadDone {s t : State} {o : Nat} (h : Kept s t) :
    Kept s (nandReadDone o t) := by
  unfold nandReadDone
  try dsimp only
  repeat' first
    | with_reducible assumption
    | with_reducible exact Kept.refl _
    | with_reducible apply kept_codecTake
    | with_reducible apply kept_updBlk
    | with_reducible apply kept_rebuildRead
    | with_reducible apply kept_endArray
    | with_reducible apply kept_dropOp
    | with_reducible apply kept_updOp
    | simp only [Kept.upd_iff]
    | (intro _; try dsimp only [id])
    | split

theorem kept_setPiece {s t : State} {cmd : Nat} {lba : Nat} {st : PieceState} {d : Bytes} (h : Kept s t) :
    Kept s (setPiece cmd lba st d t) := by
  unfold setPiece
  try dsimp only
  repeat' first
    | with_reducible assumption
    | with_reducible exact Kept.refl _
    | with_reducible apply kept_updCmd

theorem kept_mismatched {s t : State} {o : DieOp} (h : Kept s t) :
    Kept s (mismatched o t) := by
  unfold mismatched
  try dsimp only
  repeat' first
    | with_reducible assumption
    | with_reducible exact Kept.refl _
    | with_reducible apply kept_toRecon
    | with_reducible apply kept_countLife
    | with_reducible apply kept_logEv

theorem kept_deliverPiece {s t : State} {o : DieOp} {rebuilt : Bool} (h : Kept s t) :
    Kept s (deliverPiece o rebuilt t) := by
  unfold deliverPiece
  try dsimp only
  repeat' first
    | with_reducible assumption
    | with_reducible exact Kept.refl _
    | with_reducible apply kept_mismatched
    | with_reducible apply kept_setPiece
    | with_reducible apply kept_readProgress
    | with_reducible apply kept_dropOp
    | with_reducible apply kept_finishCmd
    | simp only [Kept.upd_iff]
    | (intro _; try dsimp only [id])
    | split

theorem kept_deliver {s t : State} {o : DieOp} {rebuilt : Bool} (h : Kept s t) :
    Kept s (deliver o rebuilt t) := by
  unfold deliver
  try dsimp only
  repeat' first
    | with_reducible assumption
    | with_reducible exact Kept.refl _
    | with_reducible apply kept_deliverPiece
    | with_reducible apply kept_copyRead
    | with_reducible apply kept_dropOp
    | simp only [Kept.upd_iff]
    | (intro _; try dsimp only [id])
    | split

theorem kept_undelivered {s t : State} {o : DieOp} {st : Status} (h : Kept s t) :
    Kept s (undelivered o st t) := by
  unfold undelivered
  try dsimp only
  repeat' first
    | with_reducible assumption
    | with_reducible exact Kept.refl _
    | with_reducible apply kept_copyRead
    | with_reducible apply kept_dropOp
    | with_reducible apply kept_finishCmd
    | simp only [Kept.upd_iff]
    | (intro _; try dsimp only [id])
    | split

theorem kept_levelReport {s t : State} {d : Nat} {bin : Nat} {r : Nat × Nat × Nat} (h : Kept s t) :
    Kept s (levelReport d bin r t) := by
  unfold levelReport
  try dsimp only
  repeat' first
    | with_reducible assumption
    | with_reducible exact Kept.refl _
    | with_reducible apply kept_logEv
    | simp only [Kept.upd_iff]
    | (intro _; try dsimp only [id])
    | split

theorem kept_noteUncorr {s t : State} {o : DieOp} (h : Kept s t) :
    Kept s (noteUncorr o t) := by
  unfold noteUncorr
  try dsimp only
  repeat' first
    | with_reducible assumption
    | with_reducible exact Kept.refl _
    | with_reducible apply kept_failDie
    | with_reducible apply kept_updDie
    | simp only [Kept.upd_iff]
    | (intro _; try dsimp only [id])
    | split

theorem kept_nextStep {s t : State} {o : DieOp} (h : Kept s t) :
    Kept s (nextStep o t) := by
  unfold nextStep
  try dsimp only
  repeat' first
    | with_reducible assumption
    | with_reducible exact Kept.refl _
    | with_reducible apply kept_noteUncorr
    | with_reducible apply kept_toRecon
    | with_reducible apply kept_trySuspend
    | with_reducible apply kept_dispatch
    | with_reducible apply kept_updOp
    | with_reducible apply kept_countLife
    | with_reducible apply kept_addT
    | simp only [Kept.upd_iff]
    | (intro _; try dsimp only [id])
    | split

theorem kept_decodeEnds {s t : State} {x : DieOp} {words : List (Bytes × Option Bytes)} {levels : List (Nat × Nat × Nat)} (h : Kept s t) :
    Kept s (decodeEnds x words levels t) := by
  unfold decodeEnds
  try dsimp only
  repeat' first
    | with_reducible assumption
    | with_reducible exact Kept.refl _
    | with_reducible apply kept_nextStep
    | with_reducible apply kept_levelReport
    | with_reducible apply kept_deliver
    | with_reducible apply kept_mismatched
    | with_reducible apply kept_toRecon
    | with_reducible apply kept_updOp
    | with_reducible apply kept_countLife
    | with_reducible apply kept_bump
    | with_reducible apply kept_addT
    | simp only [Kept.upd_iff]
    | with_reducible apply Kept.foldl
    | (intro _; try dsimp only [id])
    | split

theorem kept_ldpcDecodeDone {s t : State} {o : Nat} {words : List (Bytes × Option Bytes)} {levels : List (Nat × Nat × Nat)} (h : Kept s t) :
    Kept s (ldpcDecodeDone o words levels t) := by
  unfold ldpcDecodeDone
  try dsimp only
  repeat' first
    | with_reducible assumption
    | with_reducible exact Kept.refl _
    | with_reducible apply kept_decodeEnds
    | with_reducible apply kept_codecTake
    | simp only [Kept.upd_iff]
    | (intro _; try dsimp only [id])
    | split

theorem kept_loseSlots {s t : State} {x : DieOp} {lostCws : List Nat} (h : Kept s t) :
    Kept s (loseSlots x lostCws t) := by
  unfold loseSlots
  try dsimp only
  repeat' first
    | with_reducible assumption
    | with_reducible exact Kept.refl _
    | with_reducible apply kept_countLife
    | simp only [Kept.upd_iff]
    | (intro _; try dsimp only [id])
    | split

theorem kept_rebuiltUnit {s t : State} {x : DieOp} {data : Bytes} (h : Kept s t) :
    Kept s (rebuiltUnit x data t) := by
  unfold rebuiltUnit
  try dsimp only
  repeat' first
    | with_reducible assumption
    | with_reducible exact Kept.refl _
    | with_reducible apply kept_rebuildProgram
    | with_reducible apply kept_stopHealing
    | with_reducible apply kept_dropOp
    | simp only [Kept.upd_iff]
    | (intro _; try dsimp only [id])
    | split

theorem kept_reconstructed {s t : State} {o : Nat} {lostCws : List Nat} {data : Bytes} (h : Kept s t) :
    Kept s (reconstructed o lostCws data t) := by
  unfold reconstructed
  try dsimp only
  repeat' first
    | with_reducible assumption
    | with_reducible exact Kept.refl _
    | with_reducible apply kept_rebuiltUnit
    | with_reducible apply kept_loseSlots
    | with_reducible apply kept_undelivered
    | with_reducible apply kept_deliver
    | with_reducible apply kept_bump
    | simp only [Kept.upd_iff]
    | (intro _; try dsimp only [id])
    | split

theorem kept_substProgrammed {s t : State} {sg : Nat} {b : Nat} {i : Nat} {m : Nat} (h : Kept s t) :
    Kept s (substProgrammed sg b i m t) := by
  unfold substProgrammed
  try dsimp only
  repeat' first
    | with_reducible assumption
    | with_reducible exact Kept.refl _
    | with_reducible apply kept_healRow
    | with_reducible apply kept_endArray
    | with_reducible apply kept_dropOp
    | simp only [Kept.upd_iff]
    | (intro _; try dsimp only [id])
    | split

theorem kept_nandProgramDone {s t : State} {sg : Nat} {b : Nat} {i : Nat} {m : Nat} {final : Bool} (h : Kept s t) :
    Kept s (nandProgramDone sg b i m final t) := by
  unfold nandProgramDone
  try dsimp only
  repeat' first
    | with_reducible assumption
    | with_reducible exact Kept.refl _
    | with_reducible apply kept_substProgrammed
    | with_reducible apply kept_updRow
    | with_reducible apply kept_settleRows
    | with_reducible apply kept_startClosed
    | with_reducible apply kept_issuePasses
    | with_reducible apply kept_endArray
    | with_reducible apply kept_dropOp
    | simp only [Kept.upd_iff]
    | (intro _; try dsimp only [id])
    | split

theorem kept_suspendDone {s t : State} {d : Nat} {us : Nat} (h : Kept s t) :
    Kept s (suspendDone d us t) := by
  unfold suspendDone
  try dsimp only
  repeat' first
    | with_reducible assumption
    | with_reducible exact Kept.refl _
    | with_reducible apply kept_dispatch
    | with_reducible apply kept_updOp
    | with_reducible apply kept_updDie
    | with_reducible apply kept_logEv
    | simp only [Kept.upd_iff]
    | (intro _; try dsimp only [id])
    | split

theorem kept_suspendWait {s t : State} {o : Nat} (h : Kept s t) :
    Kept s (suspendWait o t) := by
  unfold suspendWait
  try dsimp only
  repeat' first
    | with_reducible assumption
    | with_reducible exact Kept.refl _
    | with_reducible apply kept_trySuspend
    | with_reducible apply kept_dispatch
    | with_reducible apply kept_updOp
    | simp only [Kept.upd_iff]
    | (intro _; try dsimp only [id])
    | split

theorem kept_dieTimeout {s t : State} {d : Nat} (h : Kept s t) :
    Kept s (dieTimeout d t) := by
  unfold dieTimeout
  try dsimp only
  repeat' first
    | with_reducible assumption
    | with_reducible exact Kept.refl _
    | with_reducible apply kept_failDie
    | with_reducible apply kept_updDie
    | simp only [Kept.upd_iff]
    | (intro _; try dsimp only [id])
    | split

theorem kept_markRefresh {s t : State} {b : Band} (h : Kept s t) :
    Kept s (markRefresh b t) := by
  unfold markRefresh
  try dsimp only
  repeat' first
    | with_reducible assumption
    | with_reducible exact Kept.refl _
    | simp only [Kept.upd_iff]

theorem kept_patrolSpecial {s t : State} {t0 : Nat} {d : Nat} {blk : Nat} {page : Nat} {w : PatrolWorst} (h : Kept s t) :
    Kept s (patrolSpecial t0 d blk page w t) := by
  unfold patrolSpecial
  try dsimp only
  repeat' first
    | with_reducible assumption
    | with_reducible exact Kept.refl _
    | with_reducible apply kept_replaceSpecial
    | with_reducible apply kept_logEv
    | simp only [Kept.upd_iff]
    | (intro _; try dsimp only [id])
    | split

theorem kept_patrolRead {s t : State} {d : Nat} {blk : Nat} {page : Nat} {w : PatrolWorst} (h : Kept s t) :
    Kept s (patrolRead d blk page w t) := by
  unfold patrolRead
  try dsimp only
  repeat' first
    | with_reducible assumption
    | with_reducible exact Kept.refl _
    | with_reducible apply kept_patrolSpecial
    | with_reducible apply kept_markRefresh
    | with_reducible apply kept_loseExtent
    | with_reducible apply kept_updBlk
    | with_reducible apply kept_updBand
    | with_reducible apply kept_noteOp
    | with_reducible apply kept_updDie
    | with_reducible apply kept_bump
    | with_reducible apply kept_logEv
    | simp only [Kept.upd_iff]
    | with_reducible apply Kept.foldl
    | (intro _; try dsimp only [id])
    | split

theorem kept_disturbLimit {s t : State} {d : Nat} {blk : Nat} (h : Kept s t) :
    Kept s (disturbLimit d blk t) := by
  unfold disturbLimit
  try dsimp only
  repeat' first
    | with_reducible assumption
    | with_reducible exact Kept.refl _
    | with_reducible apply kept_updBlk
    | simp only [Kept.upd_iff]
    | (intro _; try dsimp only [id])
    | split

theorem kept_fingerprint {s t : State} {sg : Nat} {b : Nat} {i : Nat} {m : Nat} {p : Nat} {q : Nat} (h : Kept s t) :
    Kept s (fingerprint sg b i m p q t) := by
  unfold fingerprint
  try dsimp only
  repeat' first
    | with_reducible assumption
    | with_reducible exact Kept.refl _
    | with_reducible apply kept_bump
    | simp only [Kept.upd_iff]
    | (intro _; try dsimp only [id])
    | split

theorem kept_mismatchLocate {s t : State} {sg : Nat} {b : Nat} {i : Nat} {sp : Bytes} {sq : Bytes} (h : Kept s t) :
    Kept s (mismatchLocate sg b i sp sq t) := by
  unfold mismatchLocate
  try dsimp only
  repeat' first
    | with_reducible assumption
    | with_reducible exact Kept.refl _
    | with_reducible apply kept_markRefresh
    | with_reducible apply kept_countLife
    | with_reducible apply kept_logEv
    | simp only [Kept.upd_iff]
    | (intro _; try dsimp only [id])
    | split

theorem kept_rowStoreExpiry {s t : State} {sg : Nat} {b : Nat} {i : Nat} (h : Kept s t) :
    Kept s (rowStoreExpiry sg b i t) := by
  unfold rowStoreExpiry
  try dsimp only
  repeat' first
    | with_reducible assumption
    | with_reducible exact Kept.refl _
    | with_reducible apply kept_bump
    | simp only [Kept.upd_iff]
    | (intro _; try dsimp only [id])
    | split

theorem kept_lostSearch {s t : State} {sg : Nat} {b : Nat} {i : Nat} {m : Nat} (h : Kept s t) :
    Kept s (lostSearch sg b i m t) := by
  unfold lostSearch
  try dsimp only
  repeat' first
    | with_reducible assumption
    | with_reducible exact Kept.refl _
    | with_reducible apply kept_loseExtent
    | simp only [Kept.upd_iff]
    | with_reducible apply Kept.foldl
    | (intro _; try dsimp only [id])
    | split

theorem kept_startSubst {s t : State} {g : Group} {b : Band} {m : Nat} (h : Kept s t) : Kept s (startSubst g b m t) := by
  unfold startSubst
  split
  · exact kept_stallHealing h
  · exact kept_healRow (kept_assignSubst h (by assumption))

theorem kept_healStart {s t : State} {sg : Nat} (h : Kept s t) :
    Kept s (healStart sg t) := by
  unfold healStart
  try dsimp only
  repeat' first
    | with_reducible assumption
    | with_reducible exact Kept.refl _
    | with_reducible apply kept_startSubst
    | with_reducible apply kept_startRelocation
    | simp only [Kept.upd_iff]
    | with_reducible apply Kept.foldl
    | (intro _; try dsimp only [id])
    | split

theorem kept_substDone {s t : State} {sg : Nat} {b : Nat} {m : Nat} (h : Kept s t) :
    Kept s (substDone sg b m t) := by
  unfold substDone
  try dsimp only
  repeat' first
    | with_reducible assumption
    | with_reducible exact Kept.refl _
    | with_reducible apply kept_completeSubst
    | with_reducible apply kept_setGroupState
    | with_reducible apply kept_updGroup
    | simp only [Kept.upd_iff]
    | (intro _; try dsimp only [id])
    | split

theorem kept_setVerify {s t : State} {v : Verify} (h : Kept s t) :
    Kept s (setVerify v t) := by
  unfold setVerify
  try dsimp only
  repeat' first
    | with_reducible assumption
    | with_reducible exact Kept.refl _
    | simp only [Kept.upd_iff]

theorem kept_verifyStart {s t : State} {t0 : Nat} {v : Nat} (h : Kept s t) :
    Kept s (verifyStart t0 v t) := by
  unfold verifyStart
  try dsimp only
  repeat' first
    | with_reducible assumption
    | with_reducible exact Kept.refl _
    | with_reducible apply kept_setVerify
    | with_reducible apply kept_setT
    | with_reducible apply kept_reject
    | simp only [Kept.upd_iff]
    | (intro _; try dsimp only [id])
    | split

theorem kept_verifyEnd {s t : State} {t0 : Nat} {us : List VerifyUnit} (h : Kept s t) :
    Kept s (verifyEnd t0 us t) := by
  unfold verifyEnd
  try dsimp only
  repeat' first
    | with_reducible assumption
    | with_reducible exact Kept.refl _
    | with_reducible apply kept_setVerify
    | with_reducible apply kept_setT
    | simp only [Kept.upd_iff]
    | (intro _; try dsimp only [id])
    | split

theorem kept_updPlp {s t : State} {f : Plp → Plp} (h : Kept s t) :
    Kept s (updPlp f t) := by
  unfold updPlp
  try dsimp only
  repeat' first
    | with_reducible assumption
    | with_reducible exact Kept.refl _
    | simp only [Kept.upd_iff]

theorem kept_expireRows {s t : State} (h : Kept s t) :
    Kept s (expireRows t) := by
  unfold expireRows
  try dsimp only
  repeat' first
    | with_reducible assumption
    | with_reducible exact Kept.refl _
    | with_reducible apply kept_closeRow
    | with_reducible apply kept_updRow
    | simp only [Kept.upd_iff]
    | with_reducible apply Kept.foldl
    | (intro _; try dsimp only [id])

theorem kept_wtEnter {s t : State} (h : Kept s t) :
    Kept s (wtEnter t) := by
  unfold wtEnter
  try dsimp only
  repeat' first
    | with_reducible assumption
    | with_reducible exact Kept.refl _
    | with_reducible apply kept_expireRows
    | with_reducible apply kept_updPlp
    | with_reducible apply kept_logEv
    | simp only [Kept.upd_iff]

theorem kept_addCause {s t : State} {c : Nat} (h : Kept s t) :
    Kept s (addCause c t) := by
  unfold addCause
  try dsimp only
  repeat' first
    | with_reducible assumption
    | with_reducible exact Kept.refl _
    | with_reducible apply kept_wtEnter
    | with_reducible apply kept_updPlp
    | with_reducible apply kept_smartRefresh
    | simp only [Kept.upd_iff]
    | (intro _; try dsimp only [id])
    | split

theorem kept_startTest {s t : State} (h : Kept s t) :
    Kept s (startTest t) := by
  unfold startTest
  try dsimp only
  repeat' first
    | with_reducible assumption
    | with_reducible exact Kept.refl _
    | with_reducible apply kept_updPlp
    | simp only [Kept.upd_iff]
    | (intro _; try dsimp only [id])
    | split

theorem kept_wtCheck {s t : State} (h : Kept s t) :
    Kept s (wtCheck t) := by
  unfold wtCheck
  try dsimp only
  repeat' first
    | with_reducible assumption
    | with_reducible exact Kept.refl _
    | with_reducible apply kept_startTest
    | with_reducible apply kept_updPlp
    | with_reducible apply kept_smartRefresh
    | with_reducible apply kept_logEv
    | simp only [Kept.upd_iff]
    | (intro _; try dsimp only [id])
    | split

theorem kept_clearCauses {s t : State} {cs : List Nat} (h : Kept s t) :
    Kept s (clearCauses cs t) := by
  unfold clearCauses
  try dsimp only
  repeat' first
    | with_reducible assumption
    | with_reducible exact Kept.refl _
    | with_reducible apply kept_wtCheck
    | with_reducible apply kept_updPlp

theorem kept_recompute {s t : State} (h : Kept s t) :
    Kept s (recompute t) := by
  unfold recompute
  try dsimp only
  repeat' first
    | with_reducible assumption
    | with_reducible exact Kept.refl _
    | with_reducible apply kept_clearCauses
    | with_reducible apply kept_addCause
    | with_reducible apply kept_expireRows
    | with_reducible apply kept_updPlp
    | with_reducible apply kept_logEv
    | simp only [Kept.upd_iff]
    | (intro _; try dsimp only [id])
    | split

theorem kept_writeRestart {s t : State} {reason : Nat} (h : Kept s t) :
    Kept s (writeRestart reason t) := by
  unfold writeRestart
  try dsimp only
  repeat' first
    | with_reducible assumption
    | with_reducible exact Kept.refl _
    | simp only [Kept.upd_iff]

theorem kept_stopTiles {s t : State} (h : Kept s t) :
    Kept s (stopTiles t) := by
  unfold stopTiles
  try dsimp only
  repeat' first
    | with_reducible assumption
    | with_reducible exact Kept.refl _
    | simp only [Kept.upd_iff]

theorem kept_declareFailure {s t : State} (h : Kept s t) :
    Kept s (declareFailure t) := by
  unfold declareFailure
  try dsimp only
  repeat' first
    | with_reducible assumption
    | with_reducible exact Kept.refl _
    | with_reducible apply kept_stopTiles
    | with_reducible apply kept_updPlp
    | with_reducible apply kept_emit
    | simp only [Kept.upd_iff]
    | (intro _; try dsimp only [id])
    | split

theorem kept_endDump {s t : State} {us : Nat} (h : Kept s t) :
    Kept s (endDump us t) := by
  unfold endDump
  try dsimp only
  repeat' first
    | with_reducible assumption
    | with_reducible exact Kept.refl _
    | with_reducible apply kept_writeRestart
    | with_reducible apply kept_updPlp
    | simp only [Kept.upd_iff]
    | (intro _; try dsimp only [id])
    | split

theorem kept_prefetch {s t : State} {n : Nat} {r : Nat} {lastBlock : Nat} (h : Kept s t) :
    Kept s (prefetch n r lastBlock t) := by
  unfold prefetch
  try dsimp only
  repeat' first
    | with_reducible assumption
    | with_reducible exact Kept.refl _
    | with_reducible apply kept_startFetch
    | simp only [Kept.upd_iff]
    | (intro _; try dsimp only [id])
    | split

theorem kept_useDir {s t : State} {n : Nat} {r : Nat} {c : PClass} {cmd : Nat} (h : Kept s t) :
    Kept s (useDir n r c cmd t) := by
  unfold useDir
  try dsimp only
  repeat' first
    | with_reducible assumption
    | with_reducible exact Kept.refl _
    | with_reducible apply kept_addOp
    | simp only [Kept.upd_iff]
    | (intro _; try dsimp only [id])
    | split

theorem kept_mapCheckpoint {s t : State} {slot : Nat} (h : Kept s t) :
    Kept s (mapCheckpoint slot t) := by
  unfold mapCheckpoint
  try dsimp only
  repeat' first
    | with_reducible assumption
    | with_reducible exact Kept.refl _
    | with_reducible apply kept_writeRestart
    | with_reducible apply kept_putJournal

theorem kept_windowCheck {s t : State} {slot : Nat} (h : Kept s t) :
    Kept s (windowCheck slot t) := by
  unfold windowCheck
  try dsimp only
  repeat' first
    | with_reducible assumption
    | with_reducible exact Kept.refl _
    | with_reducible apply kept_mapCheckpoint
    | with_reducible apply kept_putJournal
    | simp only [Kept.upd_iff]
    | (intro _; try dsimp only [id])
    | split

theorem kept_applyPlans {s t : State} {n : Nat} {r : Nat} {ps : List Plan} (h : Kept s t) :
    Kept s (applyPlans n r ps t) := by
  unfold applyPlans
  try dsimp only
  repeat' first
    | with_reducible assumption
    | with_reducible exact Kept.refl _
    | with_reducible apply kept_windowCheck
    | with_reducible apply kept_applyPlan
    | simp only [Kept.upd_iff]
    | with_reducible apply Kept.foldl
    | (intro _; try dsimp only [id])

theorem kept_sendForward {s t : State} {c : Cmd} {r : Nat} {r2 : Nat} (h : Kept s t) :
    Kept s (sendForward c r r2 t) := by
  unfold sendForward
  try dsimp only
  repeat' first
    | with_reducible assumption
    | with_reducible exact Kept.refl _
    | with_reducible apply kept_appendJ
    | simp only [Kept.upd_iff]

theorem kept_sendLookup {s t : State} {id : Nat} {lba : Nat} (h : Kept s t) :
    Kept s (sendLookup id lba t) := by
  unfold sendLookup
  try dsimp only
  repeat' first
    | with_reducible assumption
    | with_reducible exact Kept.refl _
    | simp only [Kept.upd_iff]
    | (intro _; try dsimp only [id])
    | split

theorem kept_tryLookup {s t : State} {id lba : Nat} (h : Kept s t) : Kept s (tryLookup id lba t).2 := by
  unfold tryLookup
  split
  · exact h
  · rename_i c _
    split
    · exact h
    · dsimp only
      split
      · exact kept_useDir h
      · have hp := kept_pageAt (n := c.cap.nsid) (r := lba / 256) (cmd := id) (c := c.cls) h
        split <;> rename_i hx <;> rw [hx] at hp
        · exact kept_sendLookup (kept_resolvePiece hp)
        · exact hp

theorem kept_markApplied {s t : State} {id : Nat} {n : Nat} {r : Nat} {first : Nat} (h : Kept s t) :
    Kept s (markApplied id n r first t) := by
  unfold markApplied
  try dsimp only
  repeat' first
    | with_reducible assumption
    | with_reducible exact Kept.refl _
    | with_reducible apply kept_updCmd

theorem kept_tryUpdate {s t : State} {id r : Nat} (h : Kept s t) : Kept s (tryUpdate id r t).2 := by
  unfold tryUpdate
  split
  · exact h
  · dsimp only
    split
    · exact h
    · split
      · exact kept_useDir h
      · split
        · exact kept_startFetch h
        · exact kept_startFetch h
        · split
          · exact h
          · apply kept_markApplied
            split
            · exact kept_sendForward (kept_applyPlans (kept_pageAt h))
            · exact kept_applyPlans (kept_pageAt h)

theorem kept_commitExt {s t : State} {e : Ext} (h : Kept s t) :
    Kept s (commitExt e t) := by
  unfold commitExt
  try dsimp only
  repeat' first
    | with_reducible assumption
    | with_reducible exact Kept.refl _
    | with_reducible apply kept_drainPump
    | with_reducible apply kept_updExt
    | simp only [Kept.upd_iff]
    | (intro _; try dsimp only [id])
    | split

theorem kept_tryRelocate {s t : State} {addr : Nat} (h : Kept s t) : Kept s (tryRelocate addr t).2 := by
  unfold tryRelocate
  split
  · exact h
  · dsimp only
    split
    · exact kept_useDir h
    · split
      · exact kept_commitExt h
      · exact kept_startFetch h
      · exact kept_startFetch h
      · split
        · exact h
        · apply kept_commitExt
          apply kept_windowCheck
          split
          · exact kept_applyRelocate (kept_pageAt h)
          · exact kept_applyCoalesce (kept_pageAt h)

theorem kept_dropForward {s t : State} {id : Nat} (h : Kept s t) :
    Kept s (dropForward id t) := by
  unfold dropForward
  try dsimp only
  repeat' first
    | with_reducible assumption
    | with_reducible exact Kept.refl _
    | simp only [Kept.upd_iff]

theorem kept_updForward {s t : State} {id : Nat} {f : Forward → Forward} (h : Kept s t) :
    Kept s (updForward id f t) := by
  unfold updForward
  try dsimp only
  repeat' first
    | with_reducible assumption
    | with_reducible exact Kept.refl _
    | simp only [Kept.upd_iff]

theorem kept_enterLedger {s t : State} {w : Forward} (h : Kept s t) :
    Kept s (enterLedger w t) := by
  unfold enterLedger
  try dsimp only
  repeat' first
    | with_reducible assumption
    | with_reducible exact Kept.refl _
    | with_reducible apply kept_putJournal

theorem kept_tryForward {s t : State} {id : Nat} (h : Kept s t) : Kept s (tryForward id t).2 := by
  unfold tryForward
  split
  · exact h
  · dsimp only
    split
    · rename_i lba _
      have hp := kept_tryLookup (id := id) (lba := lba) h
      split <;> rename_i hx <;> rw [hx] at hp
      · exact kept_dropForward hp
      · exact hp
    · split
      · exact kept_updForward h
      · split
        · exact kept_useDir h
        · split
          · exact kept_startFetch h
          · exact kept_startFetch h
          · split
            · exact h
            · exact kept_markApplied (kept_updForward (kept_enterLedger (kept_applyPlans (kept_pageAt h))))

theorem kept_tryMap {s t : State} {w : MapWait} (h : Kept s t) : Kept s (tryMap w t).2 := by
  unfold tryMap
  split
  · exact kept_tryLookup h
  · exact kept_tryUpdate h
  · exact kept_tryRelocate h
  · exact kept_tryForward h

theorem kept_serveMap {s t : State} (h : Kept s t) : Kept s (serveMap t) := by
  unfold serveMap
  refine Kept.foldl h fun x w k => ?_
  split
  · exact k
  · have hk := kept_tryMap (w := w) k
    split <;> rename_i hx <;> rw [hx] at hk
    · exact Kept.upd hk
    · exact hk

theorem kept_submitMap {s t : State} {w : MapWait} (h : Kept s t) : Kept s (submitMap w t) := by
  unfold submitMap
  dsimp only
  split
  · exact kept_serveMap h
  · split
    · exact Kept.upd h
    · have hk := kept_tryMap (w := w) h
      split <;> rename_i hx <;> rw [hx] at hk
      · exact hk
      · exact Kept.upd hk

theorem kept_endReadOp {s t : State} {u : OpUse} (h : Kept s t) :
    Kept s (endReadOp u t) := by
  unfold endReadOp
  try dsimp only
  repeat' first
    | with_reducible assumption
    | with_reducible exact Kept.refl _
    | with_reducible apply kept_endArray
    | with_reducible apply kept_dropOp
    | simp only [Kept.upd_iff]
    | (intro _; try dsimp only [id])
    | split

theorem kept_walk {s t : State} {id : Nat} {lba : Nat} (h : Kept s t) :
    Kept s (walk id lba t) := by
  unfold walk
  try dsimp only
  repeat' first
    | with_reducible assumption
    | with_reducible exact Kept.refl _
    | with_reducible apply kept_submitMap
    | with_reducible apply kept_prefetch
    | with_reducible apply kept_updCmd
    | simp only [Kept.upd_iff]
    | (intro _; try dsimp only [id])
    | split

theorem kept_updateCommand {s t : State} {id : Nat} {r : Nat} (h : Kept s t) :
    Kept s (updateCommand id r t) := by
  unfold updateCommand
  try dsimp only
  repeat' first
    | with_reducible assumption
    | with_reducible exact Kept.refl _
    | with_reducible apply kept_submitMap
    | simp only [Kept.upd_iff]
    | (intro _; try dsimp only [id])
    | split

theorem kept_updateRelocate {s t : State} {addr : Nat} (h : Kept s t) :
    Kept s (updateRelocate addr t) := by
  unfold updateRelocate
  try dsimp only
  repeat' first
    | with_reducible assumption
    | with_reducible exact Kept.refl _
    | with_reducible apply kept_submitMap
    | simp only [Kept.upd_iff]
    | (intro _; try dsimp only [id])
    | split

theorem kept_lostRegion {s t : State} {n : Nat} {r : Nat} (h : Kept s t) :
    Kept s (lostRegion n r t) := by
  unfold lostRegion
  try dsimp only
  repeat' first
    | with_reducible assumption
    | with_reducible exact Kept.refl _
    | with_reducible apply kept_storeSpans
    | with_reducible apply kept_appendJ
    | with_reducible apply kept_enterLost
    | with_reducible apply kept_logEv
    | simp only [Kept.upd_iff]
    | with_reducible apply Kept.foldl
    | (intro _; try dsimp only [id])
    | split

theorem kept_fetchDone {s t : State} {n : Nat} {r : Nat} {header : Bytes} {body : Bytes} (h : Kept s t) :
    Kept s (fetchDone n r header body t) := by
  unfold fetchDone
  try dsimp only
  repeat' first
    | with_reducible assumption
    | with_reducible exact Kept.refl _
    | with_reducible apply kept_lostRegion
    | with_reducible apply kept_endReadOp
    | with_reducible apply kept_serveMap
    | with_reducible apply kept_fillL0
    | with_reducible apply kept_putRegion
    | with_reducible apply kept_finishCmd
    | with_reducible apply kept_logEv
    | simp only [Kept.upd_iff]
    | with_reducible apply Kept.foldl
    | (intro _; try dsimp only [id])
    | split

theorem kept_updDir {s t : State} {slot : Nat} {n : Nat} {i : Nat} {f : DirRec → DirRec} (h : Kept s t) :
    Kept s (updDir slot n i f t) := by
  unfold updDir
  try dsimp only
  repeat' first
    | with_reducible assumption
    | with_reducible exact Kept.refl _
    | simp only [Kept.upd_iff]

theorem kept_openMapRow {s t : State} {addr : Nat} (h : Kept s t) :
    Kept s (openMapRow t addr) := by
  unfold openMapRow
  try dsimp only
  repeat' first
    | with_reducible assumption
    | with_reducible exact Kept.refl _
    | with_reducible apply kept_bandOpened
    | with_reducible apply kept_updBand
    | simp only [Kept.upd_iff]
    | (intro _; try dsimp only [id])
    | split

theorem kept_mapRowDone {s t : State} {addr : Nat} (h : Kept s t) :
    Kept s (mapRowDone t addr) := by
  unfold mapRowDone
  try dsimp only
  repeat' first
    | with_reducible assumption
    | with_reducible exact Kept.refl _
    | with_reducible apply kept_sealBand
    | with_reducible apply kept_updBand
    | simp only [Kept.upd_iff]
    | (intro _; try dsimp only [id])
    | split

theorem kept_programRecord {s t : State} {u : OpUse} {c : PClass} {addr : Nat} {len : Nat} {header : Bytes} {body : Bytes} (h : Kept s t) :
    Kept s (programRecord u c addr len header body t) := by
  unfold programRecord
  try dsimp only
  repeat' first
    | with_reducible assumption
    | with_reducible exact Kept.refl _
    | with_reducible apply kept_openMapRow
    | with_reducible apply kept_addOp
    | with_reducible apply kept_emit

theorem kept_pageStart {s t : State} {n : Nat} {r : Nat} {addr : Nat} {len : Nat} (h : Kept s t) :
    Kept s (pageStart n r addr len t) := by
  unfold pageStart
  try dsimp only
  repeat' first
    | with_reducible assumption
    | with_reducible exact Kept.refl _
    | with_reducible apply kept_programRecord
    | with_reducible apply kept_putRegion
    | simp only [Kept.upd_iff]
    | (intro _; try dsimp only [id])
    | split

theorem kept_dirStart {s t : State} {slot : Nat} {n : Nat} {i : Nat} {addr : Nat} {len : Nat} (h : Kept s t) :
    Kept s (dirStart slot n i addr len t) := by
  unfold dirStart
  try dsimp only
  repeat' first
    | with_reducible assumption
    | with_reducible exact Kept.refl _
    | with_reducible apply kept_programRecord
    | with_reducible apply kept_updDir
    | simp only [Kept.upd_iff]
    | (intro _; try dsimp only [id])
    | split

theorem kept_meterMap {s t : State} {t0 : Nat} {addr : Nat} {grains : Nat} {us : Nat} (h : Kept s t) :
    Kept s (meterMap t0 addr grains us t) := by
  unfold meterMap
  try dsimp only
  repeat' first
    | with_reducible assumption
    | with_reducible exact Kept.refl _
    | with_reducible apply kept_chargeOver

theorem kept_endProgram {s t u : State} {use : OpUse} {a addr len : Nat} (h : Kept s t) (e : endProgram use a addr len t = some u) :
    Kept s u := by
  unfold endProgram at e
  split at e
  · cases e; exact h
  · split at e <;> cases e
    exact kept_mapRowDone (kept_meterMap (kept_endArray (kept_dropOp h)))

theorem kept_bandCheckOf {s t : State} {n : Nat} (h : Kept s t) :
    Kept s (bandCheckOf n t) := by
  unfold bandCheckOf
  try dsimp only
  repeat' first
    | with_reducible assumption
    | with_reducible exact Kept.refl _
    | with_reducible apply kept_mapBandCheck
    | simp only [Kept.upd_iff]
    | (intro _; try dsimp only [id])
    | split

theorem kept_pageDone {s t : State} {n r addr len : Nat} (h : Kept s t) : Kept s (pageDone n r addr len t) := by
  unfold pageDone
  split
  · exact h
  · split
    · rename_i e
      exact kept_serveMap (kept_windowCheck (kept_bandCheckOf (kept_dirtyDir (kept_putRegion (kept_appendJ
        (kept_endProgram h e))))))
    · exact h

theorem kept_dirDone {s t : State} {slot n i addr len : Nat} (h : Kept s t) : Kept s (dirDone slot n i addr len t) := by
  unfold dirDone
  split
  · exact h
  · split
    · rename_i e
      exact kept_windowCheck (kept_bandCheckOf (kept_updDir (kept_appendJ (kept_endProgram h e))))
    · exact h

theorem kept_entryMirrored {s t : State} {id : Nat} {r : Nat} (h : Kept s t) :
    Kept s (entryMirrored id r t) := by
  unfold entryMirrored
  try dsimp only
  repeat' first
    | with_reducible assumption
    | with_reducible exact Kept.refl _
    | with_reducible apply kept_putJournal
    | with_reducible apply kept_updCmd
    | simp only [Kept.upd_iff]
    | (intro _; try dsimp only [id])
    | split

theorem kept_quarterTimer {s t : State} {slot : Nat} (h : Kept s t) :
    Kept s (quarterTimer slot t) := by
  unfold quarterTimer
  try dsimp only
  repeat' first
    | with_reducible assumption
    | with_reducible exact Kept.refl _
    | with_reducible apply kept_putJournal
    | simp only [Kept.upd_iff]
    | (intro _; try dsimp only [id])
    | split

theorem kept_dropOlds {s t : State} {slot : Nat} {durable : Nat} (h : Kept s t) :
    Kept s (dropOlds slot durable t) := by
  unfold dropOlds
  try dsimp only
  repeat' first
    | with_reducible assumption
    | with_reducible exact Kept.refl _
    | simp only [Kept.upd_iff]

theorem kept_segmentDone {s t : State} {slot : Nat} (h : Kept s t) :
    Kept s (segmentDone slot t) := by
  unfold segmentDone
  try dsimp only
  repeat' first
    | with_reducible assumption
    | with_reducible exact Kept.refl _
    | with_reducible apply kept_dropOlds
    | with_reducible apply kept_serveMap
    | with_reducible apply kept_drainPump
    | with_reducible apply kept_putJournal
    | with_reducible apply kept_chargeOver
    | simp only [Kept.upd_iff]
    | (intro _; try dsimp only [id])
    | split

theorem kept_forwardReceived {s t : State} {id : Nat} (h : Kept s t) :
    Kept s (forwardReceived id t) := by
  unfold forwardReceived
  try dsimp only
  repeat' first
    | with_reducible assumption
    | with_reducible exact Kept.refl _
    | with_reducible apply kept_submitMap
    | with_reducible apply kept_updForward
    | simp only [Kept.upd_iff]
    | (intro _; try dsimp only [id])
    | split

theorem kept_forwardConfirm {s t : State} {id : Nat} (h : Kept s t) :
    Kept s (forwardConfirm id t) := by
  unfold forwardConfirm
  try dsimp only
  repeat' first
    | with_reducible assumption
    | with_reducible exact Kept.refl _
    | with_reducible apply kept_dropForward
    | with_reducible apply kept_appendJ
    | with_reducible apply kept_updCmd
    | simp only [Kept.upd_iff]
    | (intro _; try dsimp only [id])
    | split

theorem kept_forwardTimeout {s t : State} {id : Nat} (h : Kept s t) :
    Kept s (forwardTimeout id t) := by
  unfold forwardTimeout
  try dsimp only
  repeat' first
    | with_reducible assumption
    | with_reducible exact Kept.refl _
    | with_reducible apply kept_updForward

theorem kept_mapConfirm {s t : State} {id : Nat} {r : Nat} {mirror : Bool} (h : Kept s t) :
    Kept s (mapConfirm id r mirror t) := by
  unfold mapConfirm
  try dsimp only
  repeat' first
    | with_reducible assumption
    | with_reducible exact Kept.refl _
    | with_reducible apply kept_pump
    | with_reducible apply kept_afterMap
    | with_reducible apply kept_updCmd
    | simp only [Kept.upd_iff]
    | (intro _; try dsimp only [id])
    | split

theorem kept_lostDirectory {s t : State} {slot : Nat} {n : Nat} {i : Nat} (h : Kept s t) :
    Kept s (lostDirectory slot n i t) := by
  unfold lostDirectory
  try dsimp only
  repeat' first
    | with_reducible assumption
    | with_reducible exact Kept.refl _
    | with_reducible apply kept_lostRegion
    | with_reducible apply kept_putRegion
    | with_reducible apply kept_logEv
    | simp only [Kept.upd_iff]
    | with_reducible apply Kept.foldl
    | (intro _; try dsimp only [id])

theorem kept_adoptedLoad {s t : State} {slot : Nat} {n : Nat} {i : Nat} {header : Bytes} {body : Bytes} (h : Kept s t) :
    Kept s (adoptedLoad slot n i header body t) := by
  unfold adoptedLoad
  try dsimp only
  repeat' first
    | with_reducible assumption
    | with_reducible exact Kept.refl _
    | with_reducible apply kept_lostDirectory
    | with_reducible apply kept_endReadOp
    | with_reducible apply kept_serveMap
    | with_reducible apply kept_logEv
    | simp only [Kept.upd_iff]
    | (intro _; try dsimp only [id])
    | split

theorem kept_handBack {s t : State} {slot : Nat} {n : Nat} {i : Nat} (h : Kept s t) :
    Kept s (handBack slot n i t) := by
  unfold handBack
  try dsimp only
  repeat' first
    | with_reducible assumption
    | with_reducible exact Kept.refl _
    | with_reducible apply kept_serveMap
    | simp only [Kept.upd_iff]
    | (intro _; try dsimp only [id])
    | split

theorem kept_coalesceRun {s t : State} {n : Nat} {r : Nat} {lo : Nat} {k : Nat} (h : Kept s t) :
    Kept s (coalesceRun n r lo k t) := by
  unfold coalesceRun
  try dsimp only
  repeat' first
    | with_reducible assumption
    | with_reducible exact Kept.refl _
    | simp only [Kept.upd_iff]
    | (intro _; try dsimp only [id])
    | split
    | with_reducible refine kept_takeSeqs ?_ (by assumption)

theorem kept_coalesce {s t : State} {n : Nat} {r : Nat} (h : Kept s t) :
    Kept s (coalesce n r t) := by
  unfold coalesce
  try dsimp only
  repeat' first
    | with_reducible assumption
    | with_reducible exact Kept.refl _
    | with_reducible apply kept_coalesceRun
    | with_reducible apply kept_putRegion
    | simp only [Kept.upd_iff]
    | with_reducible apply Kept.foldl
    | (intro _; try dsimp only [id])
    | split

theorem kept_mapReplayDone {s t : State} {slot : Nat} (h : Kept s t) :
    Kept s (mapReplayDone slot t) := by
  unfold mapReplayDone
  try dsimp only
  repeat' first
    | with_reducible assumption
    | with_reducible exact Kept.refl _
    | with_reducible apply kept_serveMap
    | simp only [Kept.upd_iff]

theorem kept_startIo {s t : State} {is : IoOp → Bool} {checkLength : Bool} {id : Nat} {body : Cmd → State → State} (h : Kept s t) (h_body : ∀ c x, Kept s x → Kept s (body c x)) :
    Kept s (startIo is checkLength id body t) := by
  unfold startIo
  try dsimp only
  repeat' first
    | with_reducible assumption
    | with_reducible exact Kept.refl _
    | with_reducible apply kept_pump
    | with_reducible apply kept_finishCmd
    | apply h_body
    | simp only [Kept.upd_iff]
    | (intro _; try dsimp only [id])
    | split

theorem kept_reserveFor {s t u : State} {c : Cmd} (h : Kept s t) (e : reserveFor c t = some u) : Kept s u := by
  unfold reserveFor at e
  dsimp only at e
  split at e
  · cases e; exact h
  · simp only [Option.map_eq_some_iff] at e
    obtain ⟨x, hx, rfl⟩ := e
    exact kept_updCmd (kept_allocateAll h hx)

theorem kept_beginRead {s t : State} {c : Cmd} (h : Kept s t) :
    Kept s (beginRead c t) := by
  unfold beginRead
  try dsimp only
  repeat' first
    | with_reducible assumption
    | with_reducible exact Kept.refl _
    | with_reducible apply kept_startRead
    | simp only [Kept.upd_iff]
    | (intro _; try dsimp only [id])
    | split
    | with_reducible refine kept_reserveFor ?_ (by assumption)

theorem kept_startWrite {s t : State} {c : Cmd} (h : Kept s t) :
    Kept s (startWrite c t) := by
  unfold startWrite
  try dsimp only
  repeat' first
    | with_reducible assumption
    | with_reducible exact Kept.refl _
    | with_reducible apply kept_fetchData
    | with_reducible apply kept_finishCmd
    | simp only [Kept.upd_iff]
    | (intro _; try dsimp only [id])
    | split
    | with_reducible refine kept_chargeWrite ?_ (by assumption)
    | with_reducible refine kept_reserveFor ?_ (by assumption)

theorem kept_startFlush {s t : State} {c : Cmd} (h : Kept s t) :
    Kept s (startFlush c t) := by
  unfold startFlush
  try dsimp only
  repeat' first
    | with_reducible assumption
    | with_reducible exact Kept.refl _
    | with_reducible apply kept_drainPump
    | with_reducible apply kept_finishCmd
    | with_reducible apply kept_updCmd
    | simp only [Kept.upd_iff]
    | (intro _; try dsimp only [id])
    | split

theorem kept_startCompare {s t : State} {c : Cmd} (h : Kept s t) :
    Kept s (startCompare c t) := by
  unfold startCompare
  try dsimp only
  repeat' first
    | with_reducible assumption
    | with_reducible exact Kept.refl _
    | with_reducible apply kept_fetchData
    | simp only [Kept.upd_iff]
    | (intro _; try dsimp only [id])
    | split
    | with_reducible refine kept_reserveFor ?_ (by assumption)

theorem kept_planMap {s t : State} {c : Cmd} {ps : List Plan} (h : Kept s t) :
    Kept s (planMap c ps t) := by
  unfold planMap
  try dsimp only
  repeat' first
    | with_reducible assumption
    | with_reducible exact Kept.refl _
    | with_reducible apply kept_goMap
    | with_reducible apply kept_updCmd

theorem kept_startUnmap {s t : State} {c : Cmd} {rs : List (Nat × Nat)} (h : Kept s t) :
    Kept s (startWriteZeroes.startUnmap c rs t) := by
  unfold startWriteZeroes.startUnmap
  dsimp only
  repeat' split
  · exact kept_planMap h
  · exact h
  · exact kept_planMap (kept_openSweep h (by assumption))

theorem kept_startWriteZeroes {s t : State} {c : Cmd} (h : Kept s t) : Kept s (startWriteZeroes c t) := by
  unfold startWriteZeroes
  repeat' split
  · exact kept_finishCmd h
  · exact kept_finishCmd h
  · exact kept_startUnmap h
  · exact kept_finishCmd h
  · exact h
  · exact kept_planMap (kept_takeSeqs (kept_chargeWrite h (by assumption)) (by assumption))

theorem kept_startDsm {s t : State} {c : Cmd} (h : Kept s t) :
    Kept s (startDsm c t) := by
  unfold startDsm
  try dsimp only
  repeat' first
    | with_reducible assumption
    | with_reducible exact Kept.refl _
    | with_reducible apply kept_finishCmd
    | with_reducible apply kept_startUnmap
    | simp only [Kept.upd_iff]
    | (intro _; try dsimp only [id])
    | split

theorem kept_markLost {s t : State} {t0 : Nat} (h : Kept s t) :
    Kept s (markLost t0 t) := by
  unfold markLost
  try dsimp only
  repeat' first
    | with_reducible assumption
    | with_reducible exact Kept.refl _
    | simp only [Kept.upd_iff]

theorem kept_reissueStep {s t : State} {c : Cmd} {r : Role} (h : Kept s t) :
    Kept s (reissueStep c r t) := by
  unfold reissueStep
  try dsimp only
  repeat' first
    | with_reducible assumption
    | with_reducible exact Kept.refl _
    | with_reducible apply kept_serveMap
    | with_reducible apply kept_placeWaiting
    | with_reducible apply kept_enqueueRead
    | with_reducible apply kept_updCmd
    | simp only [Kept.upd_iff]
    | with_reducible apply Kept.foldl
    | (intro _; try dsimp only [id])
    | split

theorem kept_takeOver {s t : State} (h : Kept s t) :
    Kept s (takeOver t) := by
  unfold takeOver
  try dsimp only
  repeat' first
    | with_reducible assumption
    | with_reducible exact Kept.refl _
    | with_reducible apply kept_activationFails
    | with_reducible apply kept_abandonRing
    | with_reducible apply kept_respond
    | with_reducible apply kept_logEv
    | simp only [Kept.upd_iff]
    | (intro _; try dsimp only [id])
    | split

theorem kept_linksDown {s t : State} {t0 : Nat} (h : Kept s t) :
    Kept s (linksDown t0 t) := by
  unfold linksDown
  try dsimp only
  repeat' first
    | with_reducible assumption
    | with_reducible exact Kept.refl _
    | with_reducible apply kept_reroute
    | with_reducible apply kept_setLink
    | simp only [Kept.upd_iff]
    | with_reducible apply Kept.foldl
    | (intro _; try dsimp only [id])

theorem kept_tileStateGone {s t : State} {t0 : Nat} (h : Kept s t) :
    Kept s (tileStateGone t0 t) := by
  unfold tileStateGone
  try dsimp only
  repeat' first
    | with_reducible assumption
    | with_reducible exact Kept.refl _
    | with_reducible apply kept_endCtrl
    | with_reducible apply kept_enginesGone
    | simp only [Kept.upd_iff]
    | with_reducible apply Kept.foldl

theorem kept_readsToRecon {s t : State} {t0 : Nat} (h : Kept s t) :
    Kept s (readsToRecon t0 t) := by
  unfold readsToRecon
  try dsimp only
  repeat' first
    | with_reducible assumption
    | with_reducible exact Kept.refl _
    | with_reducible apply kept_toRecon
    | simp only [Kept.upd_iff]
    | with_reducible apply Kept.foldl
    | (intro _; try dsimp only [id])

theorem kept_tailsSolo {s t : State} {t0 : Nat} (h : Kept s t) :
    Kept s (tailsSolo t0 t) := by
  unfold tailsSolo
  try dsimp only
  repeat' first
    | with_reducible assumption
    | with_reducible exact Kept.refl _
    | with_reducible apply kept_putSj
    | simp only [Kept.upd_iff]
    | with_reducible apply Kept.foldl
    | (intro _; try dsimp only [id])

theorem kept_discoveryChanged {s t : State} (h : Kept s t) :
    Kept s (discoveryChanged t) := by
  unfold discoveryChanged
  try dsimp only
  repeat' first
    | with_reducible assumption
    | with_reducible exact Kept.refl _
    | with_reducible apply kept_emit
    | simp only [Kept.upd_iff]
    | with_reducible apply Kept.foldl
    | (intro _; try dsimp only [id])

theorem kept_fenceTile {s t : State} {t0 : Nat} (h : Kept s t) :
    Kept s (fenceTile t0 t) := by
  unfold fenceTile
  try dsimp only
  repeat' first
    | with_reducible assumption
    | with_reducible exact Kept.refl _
    | with_reducible apply kept_discoveryChanged
    | with_reducible apply kept_tailsSolo
    | with_reducible apply kept_readsToRecon
    | with_reducible apply kept_tileStateGone
    | with_reducible apply kept_linksDown
    | with_reducible apply kept_takeOver
    | with_reducible apply kept_markLost
    | with_reducible apply kept_serveMap
    | with_reducible apply kept_tileMembersLost
    | with_reducible apply kept_mirrorLost
    | with_reducible apply kept_adoptSlot
    | with_reducible apply kept_smartRefresh
    | with_reducible apply kept_anaRefresh
    | with_reducible apply kept_emit
    | simp only [Kept.upd_iff]
    | (intro _; try dsimp only [id])
    | split

theorem kept_updEvr {s t : State} {f : Evr → Evr} (h : Kept s t) :
    Kept s (updEvr f t) := by
  unfold updEvr
  try dsimp only
  repeat' first
    | with_reducible assumption
    | with_reducible exact Kept.refl _
    | simp only [Kept.upd_iff]

theorem kept_setTokens {s t : State} {code : Nat} {n : Nat} (h : Kept s t) :
    Kept s (setTokens code n t) := by
  unfold setTokens
  try dsimp only
  repeat' first
    | with_reducible assumption
    | with_reducible exact Kept.refl _
    | with_reducible apply kept_updEvr

theorem kept_countDrop {s t : State} {sev : Nat} (h : Kept s t) :
    Kept s (countDrop sev t) := by
  unfold countDrop
  try dsimp only
  repeat' first
    | with_reducible assumption
    | with_reducible exact Kept.refl _
    | with_reducible apply kept_updEvr

theorem kept_storeRecord {s t : State} {ev : Ev} {tile : Nat} {flags : Nat} {params : List Nat} (h : Kept s t) :
    Kept s (storeRecord ev tile flags params t) := by
  unfold storeRecord
  try dsimp only
  repeat' first
    | with_reducible assumption
    | with_reducible exact Kept.refl _
    | with_reducible apply kept_countDrop
    | with_reducible apply kept_updEvr
    | with_reducible apply kept_writeRestart
    | with_reducible apply kept_archiveCheck
    | with_reducible apply kept_deliverEvents
    | with_reducible apply kept_emit
    | simp only [Kept.upd_iff]
    | (intro _; try dsimp only [id])
    | split

theorem kept_storeFault {s t : State} (h : Kept s t) :
    Kept s (storeFault t) := by
  unfold storeFault
  try dsimp only
  repeat' first
    | with_reducible assumption
    | with_reducible exact Kept.refl _
    | with_reducible apply kept_storeRecord
    | with_reducible apply kept_updEvr
    | simp only [Kept.upd_iff]
    | (intro _; try dsimp only [id])
    | split

theorem kept_takeEvent {s t : State} {e : EvRaise} (h : Kept s t) :
    Kept s (takeEvent e t) := by
  unfold takeEvent
  try dsimp only
  repeat' first
    | with_reducible assumption
    | with_reducible exact Kept.refl _
    | with_reducible apply kept_storeRecord
    | with_reducible apply kept_setTokens
    | with_reducible apply kept_updEvr
    | simp only [Kept.upd_iff]
    | (intro _; try dsimp only [id])
    | split

theorem kept_showRecord {s t : State} {n : Nat} {gap : Bool} (h : Kept s t) :
    Kept s (showRecord n gap t) := by
  unfold showRecord
  try dsimp only
  repeat' first
    | with_reducible assumption
    | with_reducible exact Kept.refl _
    | with_reducible apply kept_updEvr
    | with_reducible apply kept_addOp
    | simp only [Kept.upd_iff]
    | (intro _; try dsimp only [id])
    | split

theorem kept_latchAt {s t : State} {n : Nat} (h : Kept s t) :
    Kept s (latchAt n t) := by
  unfold latchAt
  try dsimp only
  repeat' first
    | with_reducible assumption
    | with_reducible exact Kept.refl _
    | with_reducible apply kept_showRecord
    | with_reducible apply kept_updEvr
    | simp only [Kept.upd_iff]
    | (intro _; try dsimp only [id])
    | split

theorem kept_evrRestart {s t : State} {storeOk : Bool} (h : Kept s t) :
    Kept s (evrRestart storeOk t) := by
  unfold evrRestart
  try dsimp only
  repeat' first
    | with_reducible assumption
    | with_reducible exact Kept.refl _
    | with_reducible apply kept_updEvr
    | with_reducible apply kept_logEv
    | simp only [Kept.upd_iff]
    | (intro _; try dsimp only [id])
    | split

theorem kept_eventRaised {s t : State} {storeOk : Bool} (h : Kept s t) :
    Kept s (eventRaised storeOk t) := by
  unfold eventRaised
  try dsimp only
  repeat' first
    | with_reducible assumption
    | with_reducible exact Kept.refl _
    | with_reducible apply kept_takeEvent
    | with_reducible apply kept_storeFault
    | with_reducible apply kept_updEvr
    | simp only [Kept.upd_iff]
    | (intro _; try dsimp only [id])
    | split

theorem kept_summarise {s t : State} {x : EvSupp} (h : Kept s t) :
    Kept s (summarise x t) := by
  unfold summarise
  try dsimp only
  repeat' first
    | with_reducible assumption
    | with_reducible exact Kept.refl _
    | with_reducible apply kept_storeRecord
    | with_reducible apply kept_setTokens
    | simp only [Kept.upd_iff]
    | (intro _; try dsimp only [id])
    | split

theorem kept_tokenRefill {s t : State} (h : Kept s t) :
    Kept s (tokenRefill t) := by
  unfold tokenRefill
  try dsimp only
  repeat' first
    | with_reducible assumption
    | with_reducible exact Kept.refl _
    | with_reducible apply kept_summarise
    | with_reducible apply kept_setTokens
    | simp only [Kept.upd_iff]
    | with_reducible apply Kept.foldl
    | (intro _; try dsimp only [id])

theorem kept_archiveAge {s t : State} (h : Kept s t) :
    Kept s (archiveAge t) := by
  unfold archiveAge
  try dsimp only
  repeat' first
    | with_reducible assumption
    | with_reducible exact Kept.refl _
    | with_reducible apply kept_updEvr
    | with_reducible apply kept_archiveCheck
    | simp only [Kept.upd_iff]
    | (intro _; try dsimp only [id])
    | split

theorem kept_endBandOps {s t : State} {k : OpKind} (h : Kept s t) :
    Kept s (endBandOps k t) := by
  unfold endBandOps
  try dsimp only
  repeat' first
    | with_reducible assumption
    | with_reducible exact Kept.refl _
    | with_reducible apply kept_endArray
    | with_reducible apply kept_dropOp
    | simp only [Kept.upd_iff]
    | with_reducible apply Kept.foldl
    | (intro _; try dsimp only [id])

theorem kept_meterArchive {s t : State} (h : Kept s t) :
    Kept s (meterArchive t) := by
  unfold meterArchive
  try dsimp only
  repeat' first
    | with_reducible assumption
    | with_reducible exact Kept.refl _
    | with_reducible apply kept_chargeOver

theorem kept_archiveProgrammed {s t : State} (h : Kept s t) :
    Kept s (archiveProgrammed t) := by
  unfold archiveProgrammed
  try dsimp only
  repeat' first
    | with_reducible assumption
    | with_reducible exact Kept.refl _
    | with_reducible apply kept_meterArchive
    | with_reducible apply kept_endBandOps
    | with_reducible apply kept_updEvr
    | with_reducible apply kept_archiveCheck
    | simp only [Kept.upd_iff]
    | (intro _; try dsimp only [id])
    | split

theorem kept_windowNext {s t : State} (h : Kept s t) :
    Kept s (windowNext t) := by
  unfold windowNext
  try dsimp only
  repeat' first
    | with_reducible assumption
    | with_reducible exact Kept.refl _
    | with_reducible apply kept_latchAt
    | simp only [Kept.upd_iff]
    | (intro _; try dsimp only [id])
    | split

theorem kept_resetTiles {s t : State} (h : Kept s t) :
    Kept s (resetTiles t) := by
  unfold resetTiles
  try dsimp only
  repeat' first
    | with_reducible assumption
    | with_reducible exact Kept.refl _
    | with_reducible apply kept_handBack
    | with_reducible apply kept_stopTiles
    | with_reducible apply kept_leftOut
    | simp only [Kept.upd_iff]
    | with_reducible apply Kept.updMem
    | with_reducible apply Kept.updNil

theorem kept_clockRestart {s t : State} (h : Kept s t) :
    Kept s (clockRestart t) := by
  unfold clockRestart
  try dsimp only
  repeat' first
    | with_reducible assumption
    | with_reducible exact Kept.refl _
    | with_reducible apply kept_epochEnd
    | simp only [Kept.upd_iff]
    | (intro _; try dsimp only [id])
    | split

theorem kept_enterRun {s t : State} (h : Kept s t) :
    Kept s (enterRun t) := by
  unfold enterRun
  try dsimp only
  repeat' first
    | with_reducible assumption
    | with_reducible exact Kept.refl _
    | with_reducible apply kept_clockRestart
    | with_reducible apply kept_resetTiles
    | with_reducible apply kept_updPlp
    | with_reducible apply kept_smartRefresh
    | simp only [Kept.upd_iff]

theorem kept_writeBuffers {s : State} : ∀ {l : List Nat} {b : Bytes} {t : State}, Kept s t → Kept s (writeBuffers l b t)
  | [], _, _, h => h
  | x :: l, b, t, h => by
    unfold writeBuffers
    exact kept_writeBuffers (Kept.updMem h)

theorem kept_freeSlot {s t : State} {t0 : Nat} {k : Nat} (h : Kept s t) :
    Kept s (freeSlot t0 k t) := by
  unfold freeSlot
  try dsimp only
  repeat' first
    | with_reducible assumption
    | with_reducible exact Kept.refl _
    | simp only [Kept.upd_iff]

theorem kept_putSlot {s t : State} {x : CmpSlot} (h : Kept s t) :
    Kept s (putSlot x t) := by
  unfold putSlot
  try dsimp only
  repeat' first
    | with_reducible assumption
    | with_reducible exact Kept.refl _
    | with_reducible apply kept_freeSlot
    | simp only [Kept.upd_iff]

theorem kept_countStatus {s t : State} {t0 : Nat} {st : CmpStatus} (h : Kept s t) :
    Kept s (countStatus t0 st t) := by
  unfold countStatus
  try dsimp only
  repeat' first
    | with_reducible assumption
    | with_reducible exact Kept.refl _
    | with_reducible apply kept_bump
    | simp only [Kept.upd_iff]
    | (intro _; try dsimp only [id])
    | split

theorem kept_endEarly {s t : State} {t0 : Nat} {op : CmpOp} {j : CmpJob} {st : CmpStatus} (h : Kept s t) :
    Kept s (endEarly t0 op j st t) := by
  unfold endEarly
  try dsimp only
  repeat' first
    | with_reducible assumption
    | with_reducible exact Kept.refl _
    | with_reducible apply kept_countStatus
    | with_reducible apply kept_freeSlot
    | with_reducible apply kept_emit
    | simp only [Kept.upd_iff]
    | (intro _; try dsimp only [id])
    | split

theorem kept_discardOutput {s t : State} {hs : List Nat} (h : Kept s t) :
    Kept s (discardOutput hs t) := by
  unfold discardOutput
  try dsimp only
  repeat' first
    | with_reducible assumption
    | with_reducible exact Kept.refl _
    | with_reducible apply kept_writeBuffers
    | simp only [Kept.upd_iff]

theorem kept_takeJob {s t : State} {a : Nat} {op : CmpOp} {j : CmpJob} (h : Kept s t) : Kept s (takeJob a op j t).1 := by
  unfold takeJob
  split
  · exact kept_endEarly h
  · split
    · exact kept_endEarly h
    · split
      · exact kept_endEarly h
      · dsimp only
        split
        · exact kept_putSlot h
        · exact h

theorem kept_finishJob {s t : State} {t0 : Nat} {h0 : PipeJob} (h : Kept s t) :
    Kept s (finishJob t0 h0 t) := by
  unfold finishJob
  try dsimp only
  repeat' first
    | with_reducible assumption
    | with_reducible exact Kept.refl _
    | with_reducible apply kept_discardOutput
    | with_reducible apply kept_countStatus
    | with_reducible apply kept_putSlot
    | with_reducible apply kept_freeSlot
    | with_reducible apply kept_writeBuffers
    | with_reducible apply kept_addT
    | with_reducible apply kept_emit
    | simp only [Kept.upd_iff]
    | (intro _; try dsimp only [id])
    | split

theorem kept_putPipe {s t : State} {p : Pipe} (h : Kept s t) :
    Kept s (putPipe p t) := by
  unfold putPipe
  try dsimp only
  repeat' first
    | with_reducible assumption
    | with_reducible exact Kept.refl _
    | simp only [Kept.upd_iff]

theorem kept_pipeTake {s t u : State} {p : Pipe} (h : Kept s t) (e : pipeTake p t = some u) : Kept s u := by
  unfold pipeTake at e
  simp only [Option.map_eq_some_iff] at e
  obtain ⟨⟨r, s1⟩, hr, rfl⟩ := e
  have hk := kept_takeReq h hr
  dsimp only
  split
  · exact kept_putPipe (kept_takeJob hk)
  · exact hk

theorem kept_pipeTurn {s t u : State} {a : Nat} {w : EngUnit} (h : Kept s t) (e : pipeTurn a w t = some u) : Kept s u := by
  unfold pipeTurn at e
  dsimp only at e
  split at e
  · cases e
  · split at e
    · split at e <;> cases e
      · exact kept_addT (kept_putPipe h)
      · exact kept_finishJob (kept_putPipe h)
    · split at e
      · exact kept_pipeTake h e
      · cases e
        exact kept_putPipe h

theorem kept_pipeDrain {s : State} {a : Nat} {w : EngUnit} : ∀ {n : Nat} {t : State}, Kept s t → Kept s (pipeDrain a w n t)
  | 0, _, h => h
  | n + 1, t, h => by
    unfold pipeDrain
    split
    · exact kept_pipeDrain (kept_pipeTurn h (by assumption))
    · exact h

theorem kept_pipeRun {s t : State} {t0 : Nat} {u : EngUnit} (h : Kept s t) :
    Kept s (pipeRun t0 u t) := by
  unfold pipeRun
  try dsimp only
  repeat' first
    | with_reducible assumption
    | with_reducible exact Kept.refl _
    | with_reducible apply kept_pipeDrain

theorem kept_cmpJob {s t : State} {a : Nat} {op : CmpOp} {j : CmpJob} {free : Bool} (h : Kept s t) :
    Kept s (cmpJob a op j free t) := by
  unfold cmpJob
  dsimp only
  split
  · exact h
  · have hk := kept_submit (t0 := a) (u := op.pipe) (c := PClass.ofCode j.cls) (w := .cmp op j) h
    split
    · exact kept_pipeRun hk
    · split
      · rename_i e
        cases hp : pipeTurn a op.pipe (submit a op.pipe (PClass.ofCode j.cls) (.cmp op j) t) with
        | none => exact hk
        | some x => exact kept_pipeTurn hk hp
      · split
        · exact kept_pipeDrain hk
        · exact hk

theorem kept_cmpEnable {s t : State} {t0 : Nat} {v : Nat} (h : Kept s t) :
    Kept s (cmpEnable t0 v t) := by
  unfold cmpEnable
  try dsimp only
  repeat' first
    | with_reducible assumption
    | with_reducible exact Kept.refl _
    | with_reducible apply kept_writeEnable
    | with_reducible apply kept_setT
    | with_reducible apply kept_reject
    | simp only [Kept.upd_iff]
    | (intro _; try dsimp only [id])
    | split

theorem kept_keyReady {s t : State} {a : Adm} {n : Nat} {w : Bytes} (h : Kept s t) :
    Kept s (keyReady a n w t) := by
  unfold keyReady
  try dsimp only
  repeat' first
    | with_reducible assumption
    | with_reducible exact Kept.refl _
    | with_reducible apply kept_admDone
    | simp only [Kept.upd_iff]

theorem kept_keyLoad {s t : State} {a : Adm} {n : Nat} {w : Bytes} (h : Kept s t) :
    Kept s (keyLoad a n w t) := by
  unfold keyLoad
  try dsimp only
  repeat' first
    | with_reducible assumption
    | with_reducible exact Kept.refl _
    | with_reducible apply kept_keyReady
    | with_reducible apply kept_loadKey
    | with_reducible apply kept_admPark
    | with_reducible apply kept_admDone
    | with_reducible apply kept_bump
    | with_reducible apply kept_logEv
    | simp only [Kept.upd_iff]
    | (intro _; try dsimp only [id])
    | split

theorem kept_dropKey {s t : State} {n : Nat} (h : Kept s t) :
    Kept s (dropKey n t) := by
  unfold dropKey
  try dsimp only
  repeat' first
    | with_reducible assumption
    | with_reducible exact Kept.refl _
    | simp only [Kept.upd_iff]

theorem kept_keyConfirm {s t : State} {n : Nat} {t0 : Nat} {ok : Bool} (h : Kept s t) :
    Kept s (keyConfirm n t0 ok t) := by
  unfold keyConfirm
  try dsimp only
  repeat' first
    | with_reducible assumption
    | with_reducible exact Kept.refl _
    | with_reducible apply kept_dropKey
    | with_reducible apply kept_keyLoad
    | with_reducible apply kept_keyReady
    | with_reducible apply kept_loadKey
    | with_reducible apply kept_provEnd
    | with_reducible apply kept_admDone
    | with_reducible apply kept_bump
    | with_reducible apply kept_logEv
    | simp only [Kept.upd_iff]
    | (intro _; try dsimp only [id])
    | split

theorem kept_keySlotClear {s t : State} {n : Nat} {readback : List Bool} (h : Kept s t) :
    Kept s (keySlotClear n readback t) := by
  unfold keySlotClear
  try dsimp only
  repeat' first
    | with_reducible assumption
    | with_reducible exact Kept.refl _
    | with_reducible apply kept_putKey
    | with_reducible apply kept_logEv
    | simp only [Kept.upd_iff]
    | with_reducible apply Kept.foldl
    | (intro _; try dsimp only [id])
    | split

theorem kept_cryEnable {s t : State} {t0 : Nat} {v : Nat} {failed : Nat} (h : Kept s t) :
    Kept s (cryEnable t0 v failed t) := by
  unfold cryEnable
  try dsimp only
  repeat' first
    | with_reducible assumption
    | with_reducible exact Kept.refl _
    | with_reducible apply kept_writeEnable
    | with_reducible apply kept_writeCfg
    | with_reducible apply kept_setT
    | with_reducible apply kept_reject
    | with_reducible apply kept_logEv
    | simp only [Kept.upd_iff]
    | (intro _; try dsimp only [id])
    | split

theorem kept_cryJob {s t : State} {dec : Bool} {t0 : Nat} {j : CryJob} {fault : Option Nat} (h : Kept s t) :
    Kept s (cryJob dec t0 j fault t) := by
  unfold cryJob
  try dsimp only
  repeat' first
    | with_reducible assumption
    | with_reducible exact Kept.refl _
    | with_reducible apply kept_bump
    | with_reducible apply kept_addT
    | with_reducible apply kept_setT
    | with_reducible apply kept_logEv
    | with_reducible apply kept_emit
    | simp only [Kept.upd_iff]
    | with_reducible apply Kept.updMem
    | with_reducible apply Kept.updNil
    | (intro _; try dsimp only [id])
    | split

theorem kept_serveCipher {s : State} {a : Nat} : ∀ {n : Nat} {t : State}, Kept s t → Kept s (serveCipher a n t)
  | 0, _, h => h
  | n + 1, t, h => by
    unfold serveCipher
    split
    · exact h
    · have hk := kept_takeReq h (by assumption)
      split
      · exact kept_serveCipher (kept_cryJob hk)
      · exact kept_serveCipher hk

theorem kept_cipherJob {s t : State} {dec : Bool} {t0 : Nat} {j : CryJob} {fault : Option Nat} {free : Bool} (h : Kept s t) :
    Kept s (cipherJob dec t0 j fault free t) := by
  unfold cipherJob
  try dsimp only
  repeat' first
    | with_reducible assumption
    | with_reducible exact Kept.refl _
    | with_reducible apply kept_serveCipher
    | with_reducible apply kept_submit
    | simp only [Kept.upd_iff]
    | (intro _; try dsimp only [id])
    | split

theorem kept_endCipherJobs {s t : State} (h : Kept s t) :
    Kept s (endCipherJobs t) := by
  unfold endCipherJobs
  try dsimp only
  repeat' first
    | with_reducible assumption
    | with_reducible exact Kept.refl _
    | with_reducible apply kept_serveCipher
    | simp only [Kept.upd_iff]
    | with_reducible apply Kept.foldl
    | (intro _; try dsimp only [id])

theorem kept_freeCtx {s t : State} {t0 : Nat} {k : Nat} (h : Kept s t) :
    Kept s (freeCtx t0 k t) := by
  unfold freeCtx
  try dsimp only
  repeat' first
    | with_reducible assumption
    | with_reducible exact Kept.refl _
    | simp only [Kept.upd_iff]

theorem kept_putCtx {s t : State} {c : DigCtx} (h : Kept s t) :
    Kept s (putCtx c t) := by
  unfold putCtx
  try dsimp only
  repeat' first
    | with_reducible assumption
    | with_reducible exact Kept.refl _
    | with_reducible apply kept_freeCtx
    | simp only [Kept.upd_iff]

theorem kept_digSays {s t : State} {t0 : Nat} {owner : Nat} {a : DigAnswer} (h : Kept s t) :
    Kept s (digSays t0 owner a t) := by
  unfold digSays
  try dsimp only
  repeat' first
    | with_reducible assumption
    | with_reducible exact Kept.refl _
    | with_reducible apply kept_emit

theorem kept_digBusy {s t : State} {t0 : Nat} {owner : Nat} (h : Kept s t) :
    Kept s (digBusy t0 owner t) := by
  unfold digBusy
  try dsimp only
  repeat' first
    | with_reducible assumption
    | with_reducible exact Kept.refl _
    | with_reducible apply kept_digSays
    | with_reducible apply kept_bump

theorem kept_digestData {s t : State} {t0 : Nat} {k : Nat} {owner : Nat} {d : Bytes} (h : Kept s t) :
    Kept s (digestData t0 k owner d t) := by
  unfold digestData
  try dsimp only
  repeat' first
    | with_reducible assumption
    | with_reducible exact Kept.refl _
    | with_reducible apply kept_digSays
    | with_reducible apply kept_putCtx
    | with_reducible apply kept_addT
    | simp only [Kept.upd_iff]
    | (intro _; try dsimp only [id])
    | split

theorem kept_digestCompare {s t : State} {c : DigCtx} {overlong : Bool} {truncated : Bool} (h : Kept s t) :
    Kept s (digestCompare c overlong truncated t) := by
  unfold digestCompare
  try dsimp only
  repeat' first
    | with_reducible assumption
    | with_reducible exact Kept.refl _
    | with_reducible apply kept_digSays
    | with_reducible apply kept_putCtx
    | with_reducible apply kept_bump
    | simp only [Kept.upd_iff]
    | (intro _; try dsimp only [id])
    | split

theorem kept_snoopEnd {s t : State} {t0 : Nat} {k : Nat} {d : Bytes} (h : Kept s t) :
    Kept s (snoopEnd t0 k d t) := by
  unfold snoopEnd
  try dsimp only
  repeat' first
    | with_reducible assumption
    | with_reducible exact Kept.refl _
    | with_reducible apply kept_digestCompare
    | with_reducible apply kept_addT
    | simp only [Kept.upd_iff]
    | (intro _; try dsimp only [id])
    | split

theorem kept_digestFinish {s t : State} {t0 : Nat} {k : Nat} {owner : Nat} {expected : Option Bytes} (h : Kept s t) :
    Kept s (digestFinish t0 k owner expected t) := by
  unfold digestFinish
  try dsimp only
  repeat' first
    | with_reducible assumption
    | with_reducible exact Kept.refl _
    | with_reducible apply kept_digestCompare
    | with_reducible apply kept_digSays
    | simp only [Kept.upd_iff]
    | (intro _; try dsimp only [id])
    | split

theorem kept_vfyRequest {s t : State} {t0 : Nat} {owner : Nat} {key : Nat} {pub : Bytes} {sig : Bytes} (h : Kept s t) :
    Kept s (vfyRequest t0 owner key pub sig t) := by
  unfold vfyRequest
  try dsimp only
  repeat' first
    | with_reducible assumption
    | with_reducible exact Kept.refl _
    | with_reducible apply kept_digBusy
    | with_reducible apply kept_digSays
    | with_reducible apply kept_putCtx
    | simp only [Kept.upd_iff]
    | (intro _; try dsimp only [id])
    | split

theorem kept_vfyDone {s t : State} {t0 : Nat} (h : Kept s t) :
    Kept s (vfyDone t0 t) := by
  unfold vfyDone
  try dsimp only
  repeat' first
    | with_reducible assumption
    | with_reducible exact Kept.refl _
    | with_reducible apply kept_digSays
    | with_reducible apply kept_freeCtx
    | with_reducible apply kept_bump
    | with_reducible apply kept_setT
    | simp only [Kept.upd_iff]
    | (intro _; try dsimp only [id])
    | split

theorem kept_nsCreate {s t : State} {a : Adm} {r : NsCreate} (h : Kept s t) :
    Kept s (nsCreate a r t) := by
  unfold nsCreate
  try dsimp only
  repeat' first
    | with_reducible assumption
    | with_reducible exact Kept.refl _
    | with_reducible apply kept_reserveChunks
    | with_reducible apply kept_admDone
    | simp only [Kept.upd_iff]
    | (intro _; try dsimp only [id])
    | split

theorem kept_updNs {s t : State} {n : Nat} {f : Ns → Ns} (h : Kept s t) :
    Kept s (updNs n f t) := by
  unfold updNs
  try dsimp only
  repeat' first
    | with_reducible assumption
    | with_reducible exact Kept.refl _
    | simp only [Kept.upd_iff]

theorem kept_failHeld {s t : State} {n : Nat} {p : Cmd → Bool} (h : Kept s t) :
    Kept s (failHeld n p t) := by
  unfold failHeld
  try dsimp only
  repeat' first
    | with_reducible assumption
    | with_reducible exact Kept.refl _
    | with_reducible apply kept_finishCmd
    | simp only [Kept.upd_iff]
    | with_reducible apply Kept.foldl
    | (intro _; try dsimp only [id])

theorem kept_nsDelete {s t : State} {a : Adm} {n : Nat} (h : Kept s t) :
    Kept s (nsDelete a n t) := by
  unfold nsDelete
  try dsimp only
  repeat' first
    | with_reducible assumption
    | with_reducible exact Kept.refl _
    | with_reducible apply kept_failHeld
    | with_reducible apply kept_updNs
    | with_reducible apply kept_admPark
    | with_reducible apply kept_admDone
    | with_reducible apply kept_nsChanged
    | simp only [Kept.upd_iff]
    | (intro _; try dsimp only [id])
    | split

theorem kept_nsDeleteDrain {s t : State} {n : Nat} (h : Kept s t) :
    Kept s (nsDeleteDrain n t) := by
  unfold nsDeleteDrain
  try dsimp only
  repeat' first
    | with_reducible assumption
    | with_reducible exact Kept.refl _
    | with_reducible apply kept_nsDelete
    | with_reducible apply kept_updNs
    | with_reducible apply kept_endCipherJobs
    | with_reducible apply kept_clearKey
    | with_reducible apply kept_provEnd
    | with_reducible apply kept_admDone
    | simp only [Kept.upd_iff]
    | (intro _; try dsimp only [id])
    | split

theorem kept_nsUnmapEnd {s t : State} {n : Nat} (h : Kept s t) :
    Kept s (nsUnmapEnd n t) := by
  unfold nsUnmapEnd
  try dsimp only
  repeat' first
    | with_reducible assumption
    | with_reducible exact Kept.refl _
    | with_reducible apply kept_dropRegions
    | with_reducible apply kept_syncStores
    | simp only [Kept.upd_iff]
    | (intro _; try dsimp only [id])
    | split

theorem kept_nsAttach {s t : State} {a : Adm} {n : Nat} {byTenant : Bool} {l : List Nat} (h : Kept s t) :
    Kept s (nsAttach a n byTenant l t) := by
  unfold nsAttach
  try dsimp only
  repeat' first
    | with_reducible assumption
    | with_reducible exact Kept.refl _
    | with_reducible apply kept_updNs
    | with_reducible apply kept_admDone
    | with_reducible apply kept_nsChanged
    | simp only [Kept.upd_iff]
    | (intro _; try dsimp only [id])
    | split

theorem kept_nsDetach {s t : State} {a : Adm} {n : Nat} {byTenant : Bool} {l : List Nat} (h : Kept s t) :
    Kept s (nsDetach a n byTenant l t) := by
  unfold nsDetach
  try dsimp only
  repeat' first
    | with_reducible assumption
    | with_reducible exact Kept.refl _
    | with_reducible apply kept_failHeld
    | with_reducible apply kept_updNs
    | with_reducible apply kept_admPark
    | with_reducible apply kept_admDone
    | with_reducible apply kept_nsChanged
    | simp only [Kept.upd_iff]
    | (intro _; try dsimp only [id])
    | split

theorem kept_detachDrain {s t : State} {n : Nat} (h : Kept s t) :
    Kept s (detachDrain n t) := by
  unfold detachDrain
  try dsimp only
  repeat' first
    | with_reducible assumption
    | with_reducible exact Kept.refl _
    | with_reducible apply kept_provEnd
    | with_reducible apply kept_admDone
    | simp only [Kept.upd_iff]
    | (intro _; try dsimp only [id])
    | split

theorem kept_formatOne {s t : State} {erase : Bool} {n : Nat} (h : Kept s t) :
    Kept s (formatOne erase n t) := by
  unfold formatOne
  try dsimp only
  repeat' first
    | with_reducible assumption
    | with_reducible exact Kept.refl _
    | with_reducible apply kept_updNs
    | with_reducible apply kept_endCipherJobs
    | with_reducible apply kept_clearKey
    | with_reducible apply kept_advanceGen
    | simp only [Kept.upd_iff]
    | (intro _; try dsimp only [id])
    | split

theorem kept_formatList {s : State} {a : Adm} {erase : Bool} : ∀ {l : List Nat} {t : State}, Kept s t →
    Kept s (formatList a erase l t)
  | [], _, h => kept_provEnd (kept_admDone h)
  | n :: l, t, h => by
    unfold formatList
    split
    · exact kept_formatList h
    · split
      · exact kept_admPark (Kept.upd h)
      · exact kept_formatList (kept_formatOne h)

theorem kept_formatNvm {s t : State} {a : Adm} {n : Nat} {ses : Nat} {lbaf : Nat} (h : Kept s t) :
    Kept s (formatNvm a n ses lbaf t) := by
  unfold formatNvm
  try dsimp only
  repeat' first
    | with_reducible assumption
    | with_reducible exact Kept.refl _
    | with_reducible apply kept_formatList
    | with_reducible apply kept_admDone
    | simp only [Kept.upd_iff]
    | (intro _; try dsimp only [id])
    | split

theorem kept_sanitizeAll {s t : State} {a : Adm} {action : Nat} (h : Kept s t) :
    Kept s (sanitizeAll a action t) := by
  unfold sanitizeAll
  try dsimp only
  repeat' first
    | with_reducible assumption
    | with_reducible exact Kept.refl _
    | with_reducible apply kept_formatList
    | with_reducible apply kept_admDone
    | simp only [Kept.upd_iff]
    | (intro _; try dsimp only [id])
    | split

theorem kept_formatUnmapEnd {s t : State} {n : Nat} (h : Kept s t) :
    Kept s (formatUnmapEnd n t) := by
  unfold formatUnmapEnd
  try dsimp only
  repeat' first
    | with_reducible assumption
    | with_reducible exact Kept.refl _
    | with_reducible apply kept_formatList
    | with_reducible apply kept_updNs
    | with_reducible apply kept_dropStale
    | with_reducible apply kept_syncStores
    | simp only [Kept.upd_iff]
    | (intro _; try dsimp only [id])
    | split

theorem kept_nsLimits {s t : State} {a : Adm} {n : Nat} {d : Bytes} (h : Kept s t) :
    Kept s (nsLimits a n d t) := by
  unfold nsLimits
  try dsimp only
  repeat' first
    | with_reducible assumption
    | with_reducible exact Kept.refl _
    | with_reducible apply kept_updNs
    | with_reducible apply kept_admDone
    | simp only [Kept.upd_iff]
    | (intro _; try dsimp only [id])
    | split

theorem kept_tenantSet {s t : State} {a : Adm} {d : Bytes} (h : Kept s t) :
    Kept s (tenantSet a d t) := by
  unfold tenantSet
  try dsimp only
  repeat' first
    | with_reducible assumption
    | with_reducible exact Kept.refl _
    | with_reducible apply kept_admDone
    | simp only [Kept.upd_iff]
    | (intro _; try dsimp only [id])
    | split

theorem kept_tenantGet {s t : State} {a : Adm} {id : Nat} (h : Kept s t) :
    Kept s (tenantGet a id t) := by
  unfold tenantGet
  try dsimp only
  repeat' first
    | with_reducible assumption
    | with_reducible exact Kept.refl _
    | with_reducible apply kept_admAnswer
    | with_reducible apply kept_admDone
    | simp only [Kept.upd_iff]
    | (intro _; try dsimp only [id])
    | split

theorem kept_tenantDelete {s t : State} {a : Adm} {id : Nat} (h : Kept s t) :
    Kept s (tenantDelete a id t) := by
  unfold tenantDelete
  try dsimp only
  repeat' first
    | with_reducible assumption
    | with_reducible exact Kept.refl _
    | with_reducible apply kept_admDone
    | with_reducible apply kept_endCtrl
    | simp only [Kept.upd_iff]
    | with_reducible apply Kept.foldl
    | (intro _; try dsimp only [id])
    | split

theorem kept_openConn {s t : State} {c : Conn} (h : Kept s t) :
    Kept s (openConn c t) := by
  unfold openConn
  try dsimp only
  repeat' first
    | with_reducible assumption
    | with_reducible exact Kept.refl _
    | with_reducible apply kept_emit
    | simp only [Kept.upd_iff]

theorem kept_tcpRequest {s t : State} {t0 : Nat} {p : Nat} {i : Nat} {dport : Nat} {hd : Bool} {dd : Bool} {hpda : Nat} (h : Kept s t) :
    Kept s (tcpRequest t0 p i dport hd dd hpda t) := by
  unfold tcpRequest
  try dsimp only
  repeat' first
    | with_reducible assumption
    | with_reducible exact Kept.refl _
    | with_reducible apply kept_openConn
    | with_reducible apply kept_emit
    | simp only [Kept.upd_iff]
    | (intro _; try dsimp only [id])
    | split

theorem kept_rdmaRequest {s t : State} {t0 : Nat} {p : Nat} {i : Nat} {mtu : Nat} (h : Kept s t) :
    Kept s (rdmaRequest t0 p i mtu t) := by
  unfold rdmaRequest
  try dsimp only
  repeat' first
    | with_reducible assumption
    | with_reducible exact Kept.refl _
    | with_reducible apply kept_openConn
    | with_reducible apply kept_emit
    | simp only [Kept.upd_iff]
    | (intro _; try dsimp only [id])
    | split

theorem kept_endQueue {s t : State} {cntlid : Nat} {sqid : Nat} (h : Kept s t) :
    Kept s (endQueue cntlid sqid t) := by
  unfold endQueue
  try dsimp only
  repeat' first
    | with_reducible assumption
    | with_reducible exact Kept.refl _
    | with_reducible apply kept_endCtrl
    | with_reducible apply kept_resetCmdsOf
    | simp only [Kept.upd_iff]
    | (intro _; try dsimp only [id])
    | split

theorem kept_fatalTransport {s t : State} {c : Conn} (h : Kept s t) :
    Kept s (fatalTransport c t) := by
  unfold fatalTransport
  try dsimp only
  repeat' first
    | with_reducible assumption
    | with_reducible exact Kept.refl _
    | with_reducible apply kept_endQueue
    | with_reducible apply kept_dropConn
    | with_reducible apply kept_emit
    | simp only [Kept.upd_iff]
    | (intro _; try dsimp only [id])
    | split

theorem kept_pfcChange {s t : State} {old : State} {c : Conn} (h : Kept s t) :
    Kept s (pfcChange old c t) := by
  unfold pfcChange
  try dsimp only
  repeat' first
    | with_reducible assumption
    | with_reducible exact Kept.refl _
    | with_reducible apply kept_emit
    | simp only [Kept.upd_iff]
    | (intro _; try dsimp only [id])
    | split

theorem kept_capsuleArrives {s t : State} {id : Nat} {cap : Capsule} (h : Kept s t) :
    Kept s (capsuleArrives id cap t) := by
  unfold capsuleArrives
  try dsimp only
  repeat' first
    | with_reducible assumption
    | with_reducible exact Kept.refl _
    | with_reducible apply kept_pfcChange
    | with_reducible apply kept_fatalTransport
    | with_reducible apply kept_updSq
    | with_reducible apply kept_emit
    | simp only [Kept.upd_iff]
    | (intro _; try dsimp only [id])
    | split

theorem kept_takeData {s t : State} {c : Cmd} {d : Bytes} (h : Kept s t) :
    Kept s (takeData c d t) := by
  unfold takeData
  try dsimp only
  repeat' first
    | with_reducible assumption
    | with_reducible exact Kept.refl _
    | with_reducible apply kept_askNext
    | with_reducible apply kept_dataReady
    | with_reducible apply kept_updCmd
    | simp only [Kept.upd_iff]
    | (intro _; try dsimp only [id])
    | split

theorem kept_h2cData {s t : State} {conn : Nat} {cmd : Nat} {off : Nat} {d : Bytes} {h0 : Bool} {dd : Bool} (h : Kept s t) :
    Kept s (h2cData conn cmd off d h0 dd t) := by
  unfold h2cData
  try dsimp only
  repeat' first
    | with_reducible assumption
    | with_reducible exact Kept.refl _
    | with_reducible apply kept_takeData
    | with_reducible apply kept_fatalTransport
    | with_reducible apply kept_pump
    | with_reducible apply kept_finishCmd
    | with_reducible apply kept_updConn
    | simp only [Kept.upd_iff]
    | (intro _; try dsimp only [id])
    | split

theorem kept_rdmaReadDone {s t : State} {cmd : Nat} {ok : Bool} {d : Bytes} (h : Kept s t) :
    Kept s (rdmaReadDone cmd ok d t) := by
  unfold rdmaReadDone
  try dsimp only
  repeat' first
    | with_reducible assumption
    | with_reducible exact Kept.refl _
    | with_reducible apply kept_takeData
    | with_reducible apply kept_fatalTransport
    | simp only [Kept.upd_iff]
    | (intro _; try dsimp only [id])
    | split

theorem kept_hostReadDone {s t : State} {cmd : Nat} {r : HostRead} (h : Kept s t) :
    Kept s (hostReadDone cmd r t) := by
  unfold hostReadDone
  try dsimp only
  repeat' first
    | with_reducible assumption
    | with_reducible exact Kept.refl _
    | with_reducible apply kept_takeData
    | with_reducible apply kept_pump
    | with_reducible apply kept_finishCmd
    | with_reducible apply kept_bump
    | with_reducible apply kept_emit
    | simp only [Kept.upd_iff]
    | (intro _; try dsimp only [id])
    | split

theorem kept_sqTail {s t : State} {cntlid : Nat} {sqid : Nat} {v : Nat} (h : Kept s t) :
    Kept s (sqTail cntlid sqid v t) := by
  unfold sqTail
  try dsimp only
  repeat' first
    | with_reducible assumption
    | with_reducible exact Kept.refl _
    | with_reducible apply kept_raiseAen
    | with_reducible apply kept_updSq
    | simp only [Kept.upd_iff]
    | (intro _; try dsimp only [id])
    | split

theorem kept_cqHead {s t : State} {cntlid : Nat} {cqid : Nat} {v : Nat} (h : Kept s t) :
    Kept s (cqHead cntlid cqid v t) := by
  unfold cqHead
  try dsimp only
  repeat' first
    | with_reducible assumption
    | with_reducible exact Kept.refl _
    | with_reducible apply kept_raiseAen
    | with_reducible apply kept_updCq
    | simp only [Kept.upd_iff]
    | (intro _; try dsimp only [id])
    | split

theorem kept_aggregationTime {s t : State} {cntlid : Nat} {vector : Nat} (h : Kept s t) :
    Kept s (aggregationTime cntlid vector t) := by
  unfold aggregationTime
  try dsimp only
  repeat' first
    | with_reducible assumption
    | with_reducible exact Kept.refl _
    | with_reducible apply kept_emit
    | simp only [Kept.upd_iff]
    | (intro _; try dsimp only [id])
    | split

theorem kept_bindConn {s t : State} {id : Nat} {cntlid : Nat} {sqid : Nat} {nqn : Bytes} (h : Kept s t) :
    Kept s (bindConn id cntlid sqid nqn t) := by
  unfold bindConn
  try dsimp only
  repeat' first
    | with_reducible assumption
    | with_reducible exact Kept.refl _
    | simp only [Kept.upd_iff]

theorem kept_connectAdmin {s t : State} {k : Conn} {d : ConnectData} (h : Kept s t) :
    Kept s (connectAdmin k d t) := by
  unfold connectAdmin
  try dsimp only
  repeat' first
    | with_reducible assumption
    | with_reducible exact Kept.refl _
    | with_reducible apply kept_bindConn
    | with_reducible apply kept_emit
    | simp only [Kept.upd_iff]
    | (intro _; try dsimp only [id])
    | split

theorem kept_connectIo {s t : State} {k : Conn} {d : ConnectData} (h : Kept s t) :
    Kept s (connectIo k d t) := by
  unfold connectIo
  try dsimp only
  repeat' first
    | with_reducible assumption
    | with_reducible exact Kept.refl _
    | with_reducible apply kept_bindConn
    | with_reducible apply kept_emit
    | simp only [Kept.upd_iff]
    | (intro _; try dsimp only [id])
    | split

theorem kept_fabricsConnect {s t : State} {id : Nat} {d : ConnectData} (h : Kept s t) :
    Kept s (fabricsConnect id d t) := by
  unfold fabricsConnect
  try dsimp only
  repeat' first
    | with_reducible assumption
    | with_reducible exact Kept.refl _
    | with_reducible apply kept_connectIo
    | with_reducible apply kept_connectAdmin
    | with_reducible apply kept_bindConn
    | with_reducible apply kept_emit
    | simp only [Kept.upd_iff]
    | (intro _; try dsimp only [id])
    | split

theorem kept_ctrlEnable {s t : State} {e : Nat} {fn : Nat} {asqs : Nat} {acqs : Nat} {asq : Nat} {acq : Nat} {cc : CcFields} (h : Kept s t) :
    Kept s (ctrlEnable e fn asqs acqs asq acq cc t) := by
  unfold ctrlEnable
  try dsimp only
  repeat' first
    | with_reducible assumption
    | with_reducible exact Kept.refl _
    | with_reducible apply kept_updCq
    | with_reducible apply kept_updSq
    | with_reducible apply kept_updCtrl
    | simp only [Kept.upd_iff]
    | (intro _; try dsimp only [id])
    | split

theorem kept_ctrlReset {s t : State} {id : Nat} (h : Kept s t) :
    Kept s (ctrlReset id t) := by
  unfold ctrlReset
  try dsimp only
  repeat' first
    | with_reducible assumption
    | with_reducible exact Kept.refl _
    | with_reducible apply kept_resetCtrl
    | simp only [Kept.upd_iff]
    | (intro _; try dsimp only [id])
    | split

theorem kept_ctrlShutdown {s t : State} {id : Nat} (h : Kept s t) :
    Kept s (ctrlShutdown id t) := by
  unfold ctrlShutdown
  try dsimp only
  repeat' first
    | with_reducible assumption
    | with_reducible exact Kept.refl _
    | with_reducible apply kept_shutdownDone
    | with_reducible apply kept_updCtrl
    | simp only [Kept.upd_iff]
    | (intro _; try dsimp only [id])
    | split

theorem kept_functionReset {s t : State} {e : Nat} {fn : Nat} (h : Kept s t) :
    Kept s (functionReset e fn t) := by
  unfold functionReset
  try dsimp only
  repeat' first
    | with_reducible assumption
    | with_reducible exact Kept.refl _
    | with_reducible apply kept_endCtrl
    | simp only [Kept.upd_iff]
    | with_reducible apply Kept.foldl

theorem kept_conventionalReset {s t : State} {e : Nat} (h : Kept s t) :
    Kept s (conventionalReset e t) := by
  unfold conventionalReset
  try dsimp only
  repeat' first
    | with_reducible assumption
    | with_reducible exact Kept.refl _
    | with_reducible apply kept_endCtrl
    | simp only [Kept.upd_iff]
    | with_reducible apply Kept.foldl

theorem kept_kaExpiry {s t : State} {id : Nat} (h : Kept s t) :
    Kept s (kaExpiry id t) := by
  unfold kaExpiry
  try dsimp only
  repeat' first
    | with_reducible assumption
    | with_reducible exact Kept.refl _
    | with_reducible apply kept_endCtrl
    | simp only [Kept.upd_iff]
    | (intro _; try dsimp only [id])
    | split

theorem kept_connClosed {s t : State} {id : Nat} (h : Kept s t) :
    Kept s (connClosed id t) := by
  unfold connClosed
  try dsimp only
  repeat' first
    | with_reducible assumption
    | with_reducible exact Kept.refl _
    | with_reducible apply kept_endQueue
    | with_reducible apply kept_dropConn
    | simp only [Kept.upd_iff]
    | (intro _; try dsimp only [id])
    | split

theorem kept_neighbour {s t : State} {t0 : Nat} {p : Nat} {vlan : Nat} {target : Bytes} (h : Kept s t) :
    Kept s (neighbour t0 p vlan target t) := by
  unfold neighbour
  try dsimp only
  repeat' first
    | with_reducible assumption
    | with_reducible exact Kept.refl _
    | with_reducible apply kept_emit
    | simp only [Kept.upd_iff]
    | (intro _; try dsimp only [id])
    | split

theorem kept_echo {s t : State} {t0 : Nat} {p : Nat} {vlan : Nat} {target : Bytes} {data : Bytes} (h : Kept s t) :
    Kept s (echo t0 p vlan target data t) := by
  unfold echo
  try dsimp only
  repeat' first
    | with_reducible assumption
    | with_reducible exact Kept.refl _
    | with_reducible apply kept_emit
    | simp only [Kept.upd_iff]
    | (intro _; try dsimp only [id])
    | split

theorem kept_pauseFrame {s t : State} {t0 : Nat} {p : Nat} {prio : Option Nat} {quanta : Nat} (h : Kept s t) :
    Kept s (pauseFrame t0 p prio quanta t) := by
  unfold pauseFrame
  try dsimp only
  repeat' first
    | with_reducible assumption
    | with_reducible exact Kept.refl _
    | with_reducible apply kept_sendHeld
    | with_reducible apply kept_updPort
    | simp only [Kept.upd_iff]
    | (intro _; try dsimp only [id])
    | split

theorem kept_readAhead {s t : State} {es : HostEntries} {q : Sq} (h : Kept s t) :
    Kept s (readAhead es q t) := by
  unfold readAhead
  try dsimp only
  repeat' first
    | with_reducible assumption
    | with_reducible exact Kept.refl _
    | with_reducible apply kept_updSq
    | simp only [Kept.upd_iff]
    | (intro _; try dsimp only [id])
    | split

theorem kept_setArb {s t : State} {a : Arb} (h : Kept s t) :
    Kept s (setArb a t) := by
  unfold setArb
  try dsimp only
  repeat' first
    | with_reducible assumption
    | with_reducible exact Kept.refl _
    | simp only [Kept.upd_iff]

theorem kept_pfcAfterFetch {s t : State} {old : State} {q : Sq} (h : Kept s t) :
    Kept s (pfcAfterFetch old q t) := by
  unfold pfcAfterFetch
  try dsimp only
  repeat' first
    | with_reducible assumption
    | with_reducible exact Kept.refl _
    | with_reducible apply kept_pfcChange
    | simp only [Kept.upd_iff]
    | (intro _; try dsimp only [id])
    | split

theorem kept_fetchFrom {s t : State} {q : Sq} {r : Arrival} {c : Ctrl} (h : Kept s t) :
    Kept s (fetchFrom q r c t) := by
  unfold fetchFrom
  try dsimp only
  repeat' first
    | with_reducible assumption
    | with_reducible exact Kept.refl _
    | with_reducible apply kept_pfcAfterFetch
    | with_reducible apply kept_updCq
    | with_reducible apply kept_updSq
    | with_reducible apply kept_updCtrl
    | simp only [Kept.upd_iff]

theorem kept_countDemand {s t : State} {t0 : Nat} {n : Nat} (h : Kept s t) :
    Kept s (countDemand t0 n t) := by
  unfold countDemand
  try dsimp only
  repeat' first
    | with_reducible assumption
    | with_reducible exact Kept.refl _
    | simp only [Kept.upd_iff]

theorem kept_admitFetched {s t : State} {id : Nat} (h : Kept s t) :
    Kept s (admitFetched id t) := by
  unfold admitFetched
  try dsimp only
  repeat' first
    | with_reducible assumption
    | with_reducible exact Kept.refl _
    | with_reducible apply kept_countDemand
    | with_reducible apply kept_pump
    | with_reducible apply kept_finishCmd
    | with_reducible apply kept_takeTokens
    | with_reducible apply kept_updCmd
    | simp only [Kept.upd_iff]
    | (intro _; try dsimp only [id])
    | split

theorem kept_takeFrom {s t : State} {q : Sq} {entry : HostEntries} {c : Ctrl} (h : Kept s t) :
    Kept s (takeFrom q entry c t) := by
  unfold takeFrom
  try dsimp only
  repeat' first
    | with_reducible assumption
    | with_reducible exact Kept.refl _
    | with_reducible apply kept_admitFetched
    | with_reducible apply kept_fetchFrom
    | with_reducible apply kept_readAhead
    | simp only [Kept.upd_iff]
    | (intro _; try dsimp only [id])
    | split

theorem kept_commandFetch {s t : State} {t0 : Nat} {entry : HostEntries} (h : Kept s t) :
    Kept s (commandFetch t0 entry t) := by
  unfold commandFetch
  try dsimp only
  repeat' first
    | with_reducible assumption
    | with_reducible exact Kept.refl _
    | with_reducible apply kept_takeFrom
    | with_reducible apply kept_setArb
    | simp only [Kept.upd_iff]
    | (intro _; try dsimp only [id])
    | split

theorem kept_admitOne {s t : State} {kind : Bool} {t0 : Nat} {n : Nat} (h : Kept s t) :
    Kept s (admitOne kind t0 n t) := by
  unfold admitOne
  try dsimp only
  repeat' first
    | with_reducible assumption
    | with_reducible exact Kept.refl _
    | with_reducible apply kept_takeTokens
    | with_reducible apply kept_updCmd
    | simp only [Kept.upd_iff]
    | (intro _; try dsimp only [id])
    | split

theorem kept_rateInterval {s t : State} (h : Kept s t) :
    Kept s (rateInterval t) := by
  unfold rateInterval
  try dsimp only
  repeat' first
    | with_reducible assumption
    | with_reducible exact Kept.refl _
    | simp only [Kept.upd_iff]

theorem kept_budgetInterval {s t : State} (h : Kept s t) :
    Kept s (budgetInterval t) := by
  unfold budgetInterval
  try dsimp only
  repeat' first
    | with_reducible assumption
    | with_reducible exact Kept.refl _
    | simp only [Kept.upd_iff]

theorem kept_propertyGet {s t : State} {a : Adm} {off : Nat} (h : Kept s t) :
    Kept s (propertyGet a off t) := by
  unfold propertyGet
  try dsimp only
  repeat' first
    | with_reducible assumption
    | with_reducible exact Kept.refl _
    | with_reducible apply kept_admAnswer
    | with_reducible apply kept_admDone
    | simp only [Kept.upd_iff]
    | (intro _; try dsimp only [id])
    | split

theorem kept_writeCc {s t : State} {id : Nat} {cc : CcFields} (h : Kept s t) :
    Kept s (writeCc id cc t) := by
  unfold writeCc
  try dsimp only
  repeat' first
    | with_reducible assumption
    | with_reducible exact Kept.refl _
    | with_reducible apply kept_ctrlShutdown
    | with_reducible apply kept_resetCtrl
    | with_reducible apply kept_updCtrl
    | simp only [Kept.upd_iff]
    | (intro _; try dsimp only [id])
    | split

theorem kept_propertySet {s t : State} {a : Adm} {off : Nat} {v : Nat} (h : Kept s t) :
    Kept s (propertySet a off v t) := by
  unfold propertySet
  try dsimp only
  repeat' first
    | with_reducible assumption
    | with_reducible exact Kept.refl _
    | with_reducible apply kept_writeCc
    | with_reducible apply kept_admDone
    | simp only [Kept.upd_iff]
    | (intro _; try dsimp only [id])
    | split

theorem kept_disconnectQ {s t : State} {a : Adm} {qid : Nat} (h : Kept s t) :
    Kept s (disconnectQ a qid t) := by
  unfold disconnectQ
  try dsimp only
  repeat' first
    | with_reducible assumption
    | with_reducible exact Kept.refl _
    | with_reducible apply kept_endQueue
    | with_reducible apply kept_admDone
    | simp only [Kept.upd_iff]
    | (intro _; try dsimp only [id])
    | split

theorem kept_keepAlive {s t : State} {a : Adm} (h : Kept s t) :
    Kept s (keepAlive a t) := by
  unfold keepAlive
  try dsimp only
  repeat' first
    | with_reducible assumption
    | with_reducible exact Kept.refl _
    | with_reducible apply kept_admDone
    | with_reducible apply kept_updCtrl
    | simp only [Kept.upd_iff]
    | (intro _; try dsimp only [id])
    | split

theorem kept_createSq {s t : State} {a : Adm} {sqid : Nat} {size : Nat} {base : Nat} {cqid : Nat} {qprio : Nat} (h : Kept s t) :
    Kept s (createSq a sqid size base cqid qprio t) := by
  unfold createSq
  try dsimp only
  repeat' first
    | with_reducible assumption
    | with_reducible exact Kept.refl _
    | with_reducible apply kept_admDone
    | simp only [Kept.upd_iff]
    | (intro _; try dsimp only [id])
    | split

theorem kept_createCq {s t : State} {a : Adm} {cqid : Nat} {size : Nat} {base : Nat} {vector : Nat} {ien : Bool} (h : Kept s t) :
    Kept s (createCq a cqid size base vector ien t) := by
  unfold createCq
  try dsimp only
  repeat' first
    | with_reducible assumption
    | with_reducible exact Kept.refl _
    | with_reducible apply kept_admDone
    | simp only [Kept.upd_iff]
    | (intro _; try dsimp only [id])
    | split

theorem kept_deleteSq {s t : State} {a : Adm} {sqid : Nat} (h : Kept s t) :
    Kept s (deleteSq a sqid t) := by
  unfold deleteSq
  try dsimp only
  repeat' first
    | with_reducible assumption
    | with_reducible exact Kept.refl _
    | with_reducible apply kept_admDone
    | with_reducible apply kept_resetCmdsOf
    | simp only [Kept.upd_iff]
    | (intro _; try dsimp only [id])
    | split

theorem kept_deleteCq {s t : State} {a : Adm} {cqid : Nat} (h : Kept s t) :
    Kept s (deleteCq a cqid t) := by
  unfold deleteCq
  try dsimp only
  repeat' first
    | with_reducible assumption
    | with_reducible exact Kept.refl _
    | with_reducible apply kept_admDone
    | simp only [Kept.upd_iff]
    | (intro _; try dsimp only [id])
    | split

theorem kept_asyncRequest {s t : State} {a : Adm} (h : Kept s t) :
    Kept s (asyncRequest a t) := by
  unfold asyncRequest
  try dsimp only
  repeat' first
    | with_reducible assumption
    | with_reducible exact Kept.refl _
    | with_reducible apply kept_admPark
    | with_reducible apply kept_admDone
    | with_reducible apply kept_finishCmd
    | with_reducible apply kept_updCtrl
    | simp only [Kept.upd_iff]
    | (intro _; try dsimp only [id])
    | split

theorem kept_abortCmd {s t : State} {a : Adm} {sqid : Nat} {cid : Nat} (h : Kept s t) :
    Kept s (abortCmd a sqid cid t) := by
  unfold abortCmd
  try dsimp only
  repeat' first
    | with_reducible assumption
    | with_reducible exact Kept.refl _
    | with_reducible apply kept_pump
    | with_reducible apply kept_admDone
    | with_reducible apply kept_finishCmd
    | with_reducible apply kept_sendTo
    | with_reducible apply kept_logFailure
    | with_reducible apply kept_updSq
    | simp only [Kept.upd_iff]
    | (intro _; try dsimp only [id])
    | split

theorem kept_queueThaw {s t : State} {a : Adm} {sqid : Nat} (h : Kept s t) :
    Kept s (queueThaw a sqid t) := by
  unfold queueThaw
  try dsimp only
  repeat' first
    | with_reducible assumption
    | with_reducible exact Kept.refl _
    | with_reducible apply kept_admDone
    | with_reducible apply kept_updSq
    | simp only [Kept.upd_iff]
    | (intro _; try dsimp only [id])
    | split

theorem kept_withCtrl {s t : State} {a : Adm} {f : Ctrl → State → State} (h : Kept s t) (h_f : ∀ c x, Kept s x → Kept s (f c x)) :
    Kept s (withCtrl a f t) := by
  unfold withCtrl
  try dsimp only
  repeat' first
    | with_reducible assumption
    | with_reducible exact Kept.refl _
    | with_reducible apply kept_admDone
    | apply h_f
    | simp only [Kept.upd_iff]
    | (intro _; try dsimp only [id])
    | split

theorem kept_setNumQueues {s t : State} {a : Adm} {nsqr : Nat} {ncqr : Nat} {c : Ctrl} (h : Kept s t) :
    Kept s (setNumQueues a nsqr ncqr c t) := by
  unfold setNumQueues
  try dsimp only
  repeat' first
    | with_reducible assumption
    | with_reducible exact Kept.refl _
    | with_reducible apply kept_admDone
    | with_reducible apply kept_updCtrl
    | simp only [Kept.upd_iff]
    | (intro _; try dsimp only [id])
    | split

theorem kept_setArbitration {s t : State} {a : Adm} {burst : Nat} {lpw : Nat} {mpw : Nat} {hpw : Nat} {c : Ctrl} (h : Kept s t) :
    Kept s (setArbitration a burst lpw mpw hpw c t) := by
  unfold setArbitration
  try dsimp only
  repeat' first
    | with_reducible assumption
    | with_reducible exact Kept.refl _
    | with_reducible apply kept_admDone
    | with_reducible apply kept_updCtrl

theorem kept_setCoalescing {s t : State} {a : Adm} {fid : Nat} {v : Nat} {c : Ctrl} (h : Kept s t) :
    Kept s (setCoalescing a fid v c t) := by
  unfold setCoalescing
  try dsimp only
  repeat' first
    | with_reducible assumption
    | with_reducible exact Kept.refl _
    | with_reducible apply kept_coalesce
    | with_reducible apply kept_admDone
    | with_reducible apply kept_updCtrl
    | simp only [Kept.upd_iff]
    | (intro _; try dsimp only [id])
    | split

theorem kept_setOrdering {s t : State} {a : Adm} {v : Nat} {c : Ctrl} (h : Kept s t) :
    Kept s (setOrdering a v c t) := by
  unfold setOrdering
  try dsimp only
  repeat' first
    | with_reducible assumption
    | with_reducible exact Kept.refl _
    | with_reducible apply kept_admDone
    | with_reducible apply kept_updCtrl
    | simp only [Kept.upd_iff]
    | (intro _; try dsimp only [id])
    | split

theorem kept_setQueueClass {s t : State} {a : Adm} {v : Nat} {c : Ctrl} (h : Kept s t) :
    Kept s (setQueueClass a v c t) := by
  unfold setQueueClass
  try dsimp only
  repeat' first
    | with_reducible assumption
    | with_reducible exact Kept.refl _
    | with_reducible apply kept_admDone
    | with_reducible apply kept_updSq
    | simp only [Kept.upd_iff]
    | (intro _; try dsimp only [id])
    | split

theorem kept_setFreezeMode {s t : State} {a : Adm} {v : Nat} {c : Ctrl} (h : Kept s t) :
    Kept s (setFreezeMode a v c t) := by
  unfold setFreezeMode
  try dsimp only
  repeat' first
    | with_reducible assumption
    | with_reducible exact Kept.refl _
    | with_reducible apply kept_admDone
    | with_reducible apply kept_updSq
    | simp only [Kept.upd_iff]
    | (intro _; try dsimp only [id])
    | split

theorem kept_getFeature {s t : State} {a : Adm} {fid : Nat} {v : Nat} {c : Ctrl} (h : Kept s t) :
    Kept s (getFeature a fid v c t) := by
  unfold getFeature
  try dsimp only
  repeat' first
    | with_reducible assumption
    | with_reducible exact Kept.refl _
    | with_reducible apply kept_admDone

theorem kept_queueValue {s t : State} {a : Adm} {sqid : Nat} {f : Sq → Nat} {c : Ctrl} (h : Kept s t) :
    Kept s (queueValue a sqid f c t) := by
  unfold queueValue
  try dsimp only
  repeat' first
    | with_reducible assumption
    | with_reducible exact Kept.refl _
    | with_reducible apply kept_admDone
    | simp only [Kept.upd_iff]
    | (intro _; try dsimp only [id])
    | split

theorem kept_stepReissue {s t : State} {id : Nat} (h : Kept s t) :
    Kept s (stepReissue id t) := by
  unfold stepReissue
  try dsimp only
  repeat' first
    | with_reducible assumption
    | with_reducible exact Kept.refl _
    | with_reducible apply kept_reissueStep
    | with_reducible apply kept_updCmd
    | simp only [Kept.upd_iff]
    | (intro _; try dsimp only [id])
    | split

theorem kept_detachUpdates {s t : State} {c : Cmd} (h : Kept s t) :
    Kept s (detachUpdates c t) := by
  unfold detachUpdates
  try dsimp only
  repeat' first
    | with_reducible assumption
    | with_reducible exact Kept.refl _
    | simp only [Kept.upd_iff]
    | (intro _; try dsimp only [id])
    | split

theorem kept_interruptTimeout {s t : State} {id : Nat} (h : Kept s t) :
    Kept s (interruptTimeout id t) := by
  unfold interruptTimeout
  try dsimp only
  repeat' first
    | with_reducible assumption
    | with_reducible exact Kept.refl _
    | with_reducible apply kept_detachUpdates
    | with_reducible apply kept_dropStaging
    | with_reducible apply kept_pump
    | with_reducible apply kept_finishCmd
    | simp only [Kept.upd_iff]
    | (intro _; try dsimp only [id])
    | split

theorem kept_updDram {s t : State} {t0 : Nat} {f : Dram → Dram} (h : Kept s t) :
    Kept s (updDram t0 f t) := by
  unfold updDram
  try dsimp only
  repeat' first
    | with_reducible assumption
    | with_reducible exact Kept.refl _
    | simp only [Kept.upd_iff]

theorem kept_dramStart {s t : State} {t0 : Nat} (h : Kept s t) :
    Kept s (dramStart t0 t) := by
  unfold dramStart
  try dsimp only
  repeat' first
    | with_reducible assumption
    | with_reducible exact Kept.refl _
    | with_reducible apply kept_serveMap
    | with_reducible apply kept_dramLost
    | simp only [Kept.upd_iff]
    | (intro _; try dsimp only [id])
    | split

theorem kept_drcEnable {s t : State} {t0 : Nat} {v : Nat} (h : Kept s t) :
    Kept s (drcEnable t0 v t) := by
  unfold drcEnable
  try dsimp only
  repeat' first
    | with_reducible assumption
    | with_reducible exact Kept.refl _
    | with_reducible apply kept_dramStart
    | with_reducible apply kept_writeEnable
    | with_reducible apply kept_setT
    | simp only [Kept.upd_iff]
    | (intro _; try dsimp only [id])
    | split

theorem kept_failRequests {s t : State} {t0 : Nat} (h : Kept s t) :
    Kept s (failRequests t0 t) := by
  unfold failRequests
  try dsimp only
  repeat' first
    | with_reducible assumption
    | with_reducible exact Kept.refl _
    | with_reducible apply kept_dropReq
    | with_reducible apply kept_emit
    | simp only [Kept.upd_iff]
    | with_reducible apply Kept.foldl
    | (intro _; try dsimp only [id])
    | split

theorem kept_freezeDram {s t : State} {t0 : Nat} {cause : Nat} {acc : DramAcc} {bad : Nat} {synd : Nat} (h : Kept s t) :
    Kept s (freezeDram t0 cause acc bad synd t) := by
  unfold freezeDram
  try dsimp only
  repeat' first
    | with_reducible assumption
    | with_reducible exact Kept.refl _
    | with_reducible apply kept_failRequests
    | with_reducible apply kept_updDram
    | with_reducible apply kept_serveMap
    | with_reducible apply kept_dramLost
    | with_reducible apply kept_countLife
    | with_reducible apply kept_bump
    | with_reducible apply kept_logEv
    | simp only [Kept.upd_iff]
    | (intro _; try dsimp only [id])
    | split

theorem kept_dramStartStep {s t : State} {t0 : Nat} {ok : Bool} (h : Kept s t) :
    Kept s (dramStartStep t0 ok t) := by
  unfold dramStartStep
  try dsimp only
  repeat' first
    | with_reducible assumption
    | with_reducible exact Kept.refl _
    | with_reducible apply kept_freezeDram
    | with_reducible apply kept_updDram
    | with_reducible apply kept_handBack
    | with_reducible apply kept_logEv
    | simp only [Kept.upd_iff]
    | (intro _; try dsimp only [id])
    | split

theorem kept_bankAccess {s t : State} {t0 : Nat} {a : DramAcc} (h : Kept s t) :
    Kept s (bankAccess t0 a t) := by
  unfold bankAccess
  try dsimp only
  repeat' first
    | with_reducible assumption
    | with_reducible exact Kept.refl _
    | with_reducible apply kept_updDram
    | simp only [Kept.upd_iff]
    | (intro _; try dsimp only [id])
    | split

theorem kept_decodeBurst {s t : State} {t0 : Nat} {a : DramAcc} {beats : List Nat} (h : Kept s t) :
    Kept s (decodeBurst t0 a beats t) := by
  unfold decodeBurst
  try dsimp only
  repeat' first
    | with_reducible assumption
    | with_reducible exact Kept.refl _
    | with_reducible apply kept_bankAccess
    | with_reducible apply kept_freezeDram
    | with_reducible apply kept_updDram
    | with_reducible apply kept_countLife
    | with_reducible apply kept_bump
    | with_reducible apply kept_logEv
    | with_reducible apply kept_emit
    | simp only [Kept.upd_iff]
    | (intro _; try dsimp only [id])
    | split

theorem kept_serveDram {s : State} {a : Nat} : ∀ {n : Nat} {t : State}, Kept s t → Kept s (serveDram a n t)
  | 0, _, h => h
  | n + 1, t, h => by
    unfold serveDram
    split
    · exact h
    · have hk := kept_takeReq h (by assumption)
      split
      · exact kept_serveDram (kept_decodeBurst hk)
      · exact kept_serveDram hk

theorem kept_dramRequest {s t : State} {t0 : Nat} {a : DramAcc} {beats : List Nat} {free : Bool} (h : Kept s t) :
    Kept s (dramRequest t0 a beats free t) := by
  unfold dramRequest
  try dsimp only
  repeat' first
    | with_reducible assumption
    | with_reducible exact Kept.refl _
    | with_reducible apply kept_serveDram
    | with_reducible apply kept_submit
    | with_reducible apply kept_emit
    | simp only [Kept.upd_iff]
    | (intro _; try dsimp only [id])
    | split

theorem kept_dramAlert {s t : State} {t0 : Nat} {a : DramAcc} {matched : Bool} {again : Bool} (h : Kept s t) :
    Kept s (dramAlert t0 a matched again t) := by
  unfold dramAlert
  try dsimp only
  repeat' first
    | with_reducible assumption
    | with_reducible exact Kept.refl _
    | with_reducible apply kept_freezeDram
    | with_reducible apply kept_bump
    | simp only [Kept.upd_iff]
    | (intro _; try dsimp only [id])
    | split

theorem kept_refreshDue {s t : State} {t0 : Nat} {r : Nat} {inHand : Bool} (h : Kept s t) :
    Kept s (refreshDue t0 r inHand t) := by
  unfold refreshDue
  try dsimp only
  repeat' first
    | with_reducible assumption
    | with_reducible exact Kept.refl _
    | with_reducible apply kept_updDram
    | simp only [Kept.upd_iff]
    | (intro _; try dsimp only [id])
    | split

theorem kept_tempPoll {s t : State} {t0 : Nat} {rs : List DramTemp} (h : Kept s t) :
    Kept s (tempPoll t0 rs t) := by
  unfold tempPoll
  try dsimp only
  repeat' first
    | with_reducible assumption
    | with_reducible exact Kept.refl _
    | with_reducible apply kept_updDram
    | with_reducible apply kept_logEv
    | simp only [Kept.upd_iff]
    | (intro _; try dsimp only [id])
    | split

theorem kept_dramMarginLow {s t : State} {t0 : Nat} {r : Nat} (h : Kept s t) :
    Kept s (dramMarginLow t0 r t) := by
  unfold dramMarginLow
  try dsimp only
  repeat' first
    | with_reducible assumption
    | with_reducible exact Kept.refl _
    | with_reducible apply kept_logEv
    | simp only [Kept.upd_iff]
    | (intro _; try dsimp only [id])
    | split

theorem kept_drcRestart {s t : State} {t0 : Nat} {v : Nat} (h : Kept s t) :
    Kept s (drcRestart t0 v t) := by
  unfold drcRestart
  try dsimp only
  repeat' first
    | with_reducible assumption
    | with_reducible exact Kept.refl _
    | with_reducible apply kept_updDram
    | with_reducible apply kept_reject
    | simp only [Kept.upd_iff]
    | (intro _; try dsimp only [id])
    | split

theorem kept_updSensor {s t : State} {t0 : Nat} {i : Nat} {f : Sensor → Sensor} (h : Kept s t) :
    Kept s (updSensor t0 i f t) := by
  unfold updSensor
  try dsimp only
  repeat' first
    | with_reducible assumption
    | with_reducible exact Kept.refl _
    | simp only [Kept.upd_iff]

theorem kept_updTherm {s t : State} {t0 : Nat} {f : ThermTile → ThermTile} (h : Kept s t) :
    Kept s (updTherm t0 f t) := by
  unfold updTherm
  try dsimp only
  repeat' first
    | with_reducible assumption
    | with_reducible exact Kept.refl _
    | simp only [Kept.upd_iff]

theorem kept_setLevel {s t : State} {t0 : Nat} {l : Nat} {cause : Nat} {trig : Trig} (h : Kept s t) :
    Kept s (setLevel t0 l cause trig t) := by
  unfold setLevel
  try dsimp only
  repeat' first
    | with_reducible assumption
    | with_reducible exact Kept.refl _
    | with_reducible apply kept_updTherm
    | with_reducible apply kept_anaRefresh
    | with_reducible apply kept_logEv
    | simp only [Kept.upd_iff]
    | (intro _; try dsimp only [id])
    | split

theorem kept_raiseLevel {s t : State} {t0 : Nat} {cause : Nat} {trig : Trig} (h : Kept s t) :
    Kept s (raiseLevel t0 cause trig t) := by
  unfold raiseLevel
  try dsimp only
  repeat' first
    | with_reducible assumption
    | with_reducible exact Kept.refl _
    | with_reducible apply kept_setLevel

theorem kept_applyFloor {s t : State} {t0 : Nat} (h : Kept s t) :
    Kept s (applyFloor t0 t) := by
  unfold applyFloor
  try dsimp only
  repeat' first
    | with_reducible assumption
    | with_reducible exact Kept.refl _
    | with_reducible apply kept_setLevel
    | simp only [Kept.upd_iff]
    | (intro _; try dsimp only [id])
    | split

theorem kept_warnStep {s t : State} {t0 : Nat} {i : Nat} {r : Int} (h : Kept s t) :
    Kept s (warnStep t0 i r t) := by
  unfold warnStep
  try dsimp only
  repeat' first
    | with_reducible assumption
    | with_reducible exact Kept.refl _
    | with_reducible apply kept_updSensor
    | with_reducible apply kept_logEv
    | simp only [Kept.upd_iff]
    | (intro _; try dsimp only [id])
    | split

theorem kept_criticalStep {s t : State} {t0 : Nat} {i : Nat} {r : Int} (h : Kept s t) :
    Kept s (criticalStep t0 i r t) := by
  unfold criticalStep
  try dsimp only
  repeat' first
    | with_reducible assumption
    | with_reducible exact Kept.refl _
    | with_reducible apply kept_updTherm
    | with_reducible apply kept_fenceTile
    | with_reducible apply kept_logEv
    | simp only [Kept.upd_iff]
    | (intro _; try dsimp only [id])
    | split

theorem kept_sensorConversion {s t : State} {t0 : Nat} {i : Nat} {r : Int} (h : Kept s t) :
    Kept s (sensorConversion t0 i r t) := by
  unfold sensorConversion
  try dsimp only
  repeat' first
    | with_reducible assumption
    | with_reducible exact Kept.refl _
    | with_reducible apply kept_criticalStep
    | with_reducible apply kept_warnStep
    | with_reducible apply kept_updSensor
    | with_reducible apply kept_smartRefresh
    | simp only [Kept.upd_iff]
    | (intro _; try dsimp only [id])
    | split

theorem kept_sensorFault {s t : State} {t0 : Nat} {i : Nat} {cond : Nat} (h : Kept s t) :
    Kept s (sensorFault t0 i cond t) := by
  unfold sensorFault
  try dsimp only
  repeat' first
    | with_reducible assumption
    | with_reducible exact Kept.refl _
    | with_reducible apply kept_applyFloor
    | with_reducible apply kept_updSensor
    | with_reducible apply kept_smartRefresh
    | with_reducible apply kept_logEv
    | simp only [Kept.upd_iff]
    | (intro _; try dsimp only [id])
    | split

theorem kept_sensorRestored {s t : State} {t0 : Nat} {i : Nat} (h : Kept s t) :
    Kept s (sensorRestored t0 i t) := by
  unfold sensorRestored
  try dsimp only
  repeat' first
    | with_reducible assumption
    | with_reducible exact Kept.refl _
    | with_reducible apply kept_updSensor
    | with_reducible apply kept_smartRefresh
    | with_reducible apply kept_logEv
    | simp only [Kept.upd_iff]
    | (intro _; try dsimp only [id])
    | split

theorem kept_throttleFall {s t : State} {t0 : Nat} (h : Kept s t) :
    Kept s (throttleFall t0 t) := by
  unfold throttleFall
  try dsimp only
  repeat' first
    | with_reducible assumption
    | with_reducible exact Kept.refl _
    | with_reducible apply kept_setLevel
    | simp only [Kept.upd_iff]
    | (intro _; try dsimp only [id])
    | split

theorem kept_rateWindow {s t : State} {t0 : Nat} (h : Kept s t) :
    Kept s (rateWindow t0 t) := by
  unfold rateWindow
  try dsimp only
  repeat' first
    | with_reducible assumption
    | with_reducible exact Kept.refl _
    | with_reducible apply kept_raiseLevel
    | simp only [Kept.upd_iff]
    | (intro _; try dsimp only [id])
    | split

theorem kept_operatingMinute {s t : State} (h : Kept s t) :
    Kept s (operatingMinute t) := by
  unfold operatingMinute
  try dsimp only
  repeat' first
    | with_reducible assumption
    | with_reducible exact Kept.refl _
    | simp only [Kept.upd_iff]

theorem kept_updPower {s t : State} {f : Power → Power} (h : Kept s t) :
    Kept s (updPower f t) := by
  unfold updPower
  try dsimp only
  repeat' first
    | with_reducible assumption
    | with_reducible exact Kept.refl _
    | simp only [Kept.upd_iff]

theorem kept_powerScaling {s t : State} {measured : Nat} {raw : Nat} (h : Kept s t) :
    Kept s (powerScaling measured raw t) := by
  unfold powerScaling
  try dsimp only
  repeat' first
    | with_reducible assumption
    | with_reducible exact Kept.refl _
    | with_reducible apply kept_updPower
    | simp only [Kept.upd_iff]
    | (intro _; try dsimp only [id])
    | split

theorem kept_powerLimit {s t : State} {avg : Nat} {order : List Nat} (h : Kept s t) :
    Kept s (powerLimit avg order t) := by
  unfold powerLimit
  try dsimp only
  repeat' first
    | with_reducible assumption
    | with_reducible exact Kept.refl _
    | with_reducible apply kept_updPower
    | with_reducible apply kept_raiseLevel
    | with_reducible apply kept_logEv
    | simp only [Kept.upd_iff]
    | with_reducible apply Kept.foldl
    | (intro _; try dsimp only [id])
    | split

theorem kept_pfWarn {s t : State} {pin : Nat} (h : Kept s t) :
    Kept s (pfWarn pin t) := by
  unfold pfWarn
  try dsimp only
  repeat' first
    | with_reducible assumption
    | with_reducible exact Kept.refl _
    | with_reducible apply kept_expireRows
    | with_reducible apply kept_updPlp
    | with_reducible apply kept_logEv
    | simp only [Kept.upd_iff]
    | (intro _; try dsimp only [id])
    | split

theorem kept_sagEnd {s t : State} (h : Kept s t) :
    Kept s (sagEnd t) := by
  unfold sagEnd
  try dsimp only
  repeat' first
    | with_reducible assumption
    | with_reducible exact Kept.refl _
    | with_reducible apply kept_startTest
    | with_reducible apply kept_updPlp
    | simp only [Kept.upd_iff]
    | (intro _; try dsimp only [id])
    | split

theorem kept_budgetRecompute {s t : State} {low : Nat} {now : Nat} (h : Kept s t) :
    Kept s (budgetRecompute low now t) := by
  unfold budgetRecompute
  try dsimp only
  repeat' first
    | with_reducible assumption
    | with_reducible exact Kept.refl _
    | with_reducible apply kept_recompute
    | with_reducible apply kept_updPlp

theorem kept_endTest {s t : State} {r : Nat} {capUf : Nat} {esr : Nat} (h : Kept s t) :
    Kept s (endTest r capUf esr t) := by
  unfold endTest
  try dsimp only
  repeat' first
    | with_reducible assumption
    | with_reducible exact Kept.refl _
    | with_reducible apply kept_recompute
    | with_reducible apply kept_clearCauses
    | with_reducible apply kept_addCause
    | with_reducible apply kept_updPlp
    | with_reducible apply kept_logEv
    | with_reducible apply kept_emit
    | simp only [Kept.upd_iff]
    | (intro _; try dsimp only [id])
    | split

theorem kept_bankAbsent {s t : State} (h : Kept s t) :
    Kept s (bankAbsent t) := by
  unfold bankAbsent
  try dsimp only
  repeat' first
    | with_reducible assumption
    | with_reducible exact Kept.refl _
    | with_reducible apply kept_endTest
    | with_reducible apply kept_addCause
    | with_reducible apply kept_logEv
    | simp only [Kept.upd_iff]
    | (intro _; try dsimp only [id])
    | split

theorem kept_testCharged {s t : State} {pin : Nat} (h : Kept s t) :
    Kept s (testCharged pin t) := by
  unfold testCharged
  try dsimp only
  repeat' first
    | with_reducible assumption
    | with_reducible exact Kept.refl _
    | with_reducible apply kept_updPlp
    | with_reducible apply kept_emit
    | simp only [Kept.upd_iff]
    | (intro _; try dsimp only [id])
    | split

theorem kept_testEsr {s t : State} {pin : Nat} (h : Kept s t) :
    Kept s (testEsr pin t) := by
  unfold testEsr
  try dsimp only
  repeat' first
    | with_reducible assumption
    | with_reducible exact Kept.refl _
    | with_reducible apply kept_updPlp
    | simp only [Kept.upd_iff]
    | (intro _; try dsimp only [id])
    | split

theorem kept_testEnd {s t : State} {us : Nat} (h : Kept s t) :
    Kept s (testEnd us t) := by
  unfold testEnd
  try dsimp only
  repeat' first
    | with_reducible assumption
    | with_reducible exact Kept.refl _
    | with_reducible apply kept_endTest
    | simp only [Kept.upd_iff]
    | (intro _; try dsimp only [id])
    | split

theorem kept_testTimeout {s t : State} (h : Kept s t) :
    Kept s (testTimeout t) := by
  unfold testTimeout
  try dsimp only
  repeat' first
    | with_reducible assumption
    | with_reducible exact Kept.refl _
    | with_reducible apply kept_endTest
    | simp only [Kept.upd_iff]
    | (intro _; try dsimp only [id])
    | split

theorem kept_closeTails {s t : State} (h : Kept s t) :
    Kept s (closeTails t) := by
  unfold closeTails
  try dsimp only
  repeat' first
    | with_reducible assumption
    | with_reducible exact Kept.refl _
    | with_reducible apply kept_quarterTimer
    | with_reducible apply kept_putSj
    | simp only [Kept.upd_iff]
    | with_reducible apply Kept.foldl
    | (intro _; try dsimp only [id])

theorem kept_prepareOff {s t : State} (h : Kept s t) :
    Kept s (prepareOff t) := by
  unfold prepareOff
  try dsimp only
  repeat' first
    | with_reducible assumption
    | with_reducible exact Kept.refl _
    | with_reducible apply kept_closeTails
    | with_reducible apply kept_addCause
    | with_reducible apply kept_expireRows
    | with_reducible apply kept_updPlp
    | with_reducible apply kept_logEv
    | simp only [Kept.upd_iff]
    | (intro _; try dsimp only [id])
    | split

theorem kept_offReady {s t : State} (h : Kept s t) :
    Kept s (offReady t) := by
  unfold offReady
  try dsimp only
  repeat' first
    | with_reducible assumption
    | with_reducible exact Kept.refl _
    | with_reducible apply kept_mapCheckpoint
    | with_reducible apply kept_writeRestart
    | with_reducible apply kept_updPlp
    | simp only [Kept.upd_iff]
    | with_reducible apply Kept.foldl
    | (intro _; try dsimp only [id])
    | split

theorem kept_fenceWaiting {s t : State} {t0 : Nat} (h : Kept s t) :
    Kept s (fenceWaiting t0 t) := by
  unfold fenceWaiting
  try dsimp only
  repeat' first
    | with_reducible assumption
    | with_reducible exact Kept.refl _
    | with_reducible apply kept_fenceTile
    | simp only [Kept.upd_iff]
    | (intro _; try dsimp only [id])
    | split

theorem kept_dumpReport {s t : State} {t0 : Nat} {dir : Nat} {us : Nat} (h : Kept s t) :
    Kept s (dumpReport t0 dir us t) := by
  unfold dumpReport
  try dsimp only
  repeat' first
    | with_reducible assumption
    | with_reducible exact Kept.refl _
    | with_reducible apply kept_fenceWaiting
    | with_reducible apply kept_updEvr
    | with_reducible apply kept_endDump
    | with_reducible apply kept_updPlp
    | simp only [Kept.upd_iff]
    | (intro _; try dsimp only [id])
    | split

theorem kept_restartTimeout {s t : State} {us : Nat} (h : Kept s t) :
    Kept s (restartTimeout us t) := by
  unfold restartTimeout
  try dsimp only
  repeat' first
    | with_reducible assumption
    | with_reducible exact Kept.refl _
    | with_reducible apply kept_endDump
    | simp only [Kept.upd_iff]
    | (intro _; try dsimp only [id])
    | split

theorem kept_keepRows {s t : State} {rs : List ReadRow} (h : Kept s t) :
    Kept s (keepRows rs t) := by
  unfold keepRows
  try dsimp only
  repeat' first
    | with_reducible assumption
    | with_reducible exact Kept.refl _
    | with_reducible apply kept_releaseRow
    | with_reducible apply kept_updBand
    | with_reducible apply kept_reportRow
    | simp only [Kept.upd_iff]
    | with_reducible apply Kept.foldl
    | (intro _; try dsimp only [id])
    | split

theorem kept_replaceRows {s t : State} (h : Kept s t) :
    Kept s (replaceRows t) := by
  unfold replaceRows
  try dsimp only
  repeat' first
    | with_reducible assumption
    | with_reducible exact Kept.refl _
    | with_reducible apply kept_reprogramRow
    | simp only [Kept.upd_iff]
    | with_reducible apply Kept.foldl
    | (intro _; try dsimp only [id])

theorem kept_loseMissing {s t : State} {d : Option Dump} (h : Kept s t) :
    Kept s (loseMissing d t) := by
  unfold loseMissing
  try dsimp only
  repeat' first
    | with_reducible assumption
    | with_reducible exact Kept.refl _
    | with_reducible apply kept_loseExtent
    | simp only [Kept.upd_iff]
    | with_reducible apply Kept.foldl
    | (intro _; try dsimp only [id])
    | split

theorem kept_replayForward {s t : State} {e : JEntry} (h : Kept s t) :
    Kept s (replayForward e t) := by
  unfold replayForward
  try dsimp only
  repeat' first
    | with_reducible assumption
    | with_reducible exact Kept.refl _
    | with_reducible apply kept_storeSpans
    | with_reducible apply kept_appendJ
    | simp only [Kept.upd_iff]
    | (intro _; try dsimp only [id])
    | split

theorem kept_rebuildMap {s t : State} (h : Kept s t) :
    Kept s (rebuildMap t) := by
  unfold rebuildMap
  try dsimp only
  repeat' first
    | with_reducible assumption
    | with_reducible exact Kept.refl _
    | with_reducible apply kept_replayForward
    | with_reducible apply kept_rebuildRegion
    | simp only [Kept.upd_iff]
    | with_reducible apply Kept.foldl
    | (intro _; try dsimp only [id])

theorem kept_resumeSweeps {s t : State} (h : Kept s t) :
    Kept s (resumeSweeps t) := by
  unfold resumeSweeps
  try dsimp only
  repeat' first
    | with_reducible assumption
    | with_reducible exact Kept.refl _
    | simp only [Kept.upd_iff]

theorem kept_restartBands {s t : State} (h : Kept s t) :
    Kept s (restartBands t) := by
  unfold restartBands
  try dsimp only
  repeat' first
    | with_reducible assumption
    | with_reducible exact Kept.refl _
    | with_reducible apply kept_enqueueErases
    | with_reducible apply kept_healRow
    | simp only [Kept.upd_iff]
    | with_reducible apply Kept.foldl
    | (intro _; try dsimp only [id])

theorem kept_restartMap {s t : State} (h : Kept s t) :
    Kept s (restartMap t) := by
  unfold restartMap
  try dsimp only
  repeat' first
    | with_reducible assumption
    | with_reducible exact Kept.refl _
    | with_reducible apply kept_rebuildMap
    | simp only [Kept.upd_iff]

theorem kept_restartPlp {s t : State} {off : Bool} (h : Kept s t) :
    Kept s (restartPlp off t) := by
  unfold restartPlp
  try dsimp only
  repeat' first
    | with_reducible assumption
    | with_reducible exact Kept.refl _
    | with_reducible apply kept_offReady
    | with_reducible apply kept_updPlp
    | with_reducible apply kept_emit

theorem kept_restart {s t : State} {kept : List ReadRow} {storeOk : Bool} (h : Kept s t) :
    Kept s (restart kept storeOk t) := by
  unfold restart
  try dsimp only
  repeat' first
    | with_reducible assumption
    | with_reducible exact Kept.refl _
    | with_reducible apply kept_restartPlp
    | with_reducible apply kept_restartMap
    | with_reducible apply kept_restartBands
    | with_reducible apply kept_resumeSweeps
    | with_reducible apply kept_loseMissing
    | with_reducible apply kept_replaceRows
    | with_reducible apply kept_keepRows
    | with_reducible apply kept_evrRestart
    | with_reducible apply kept_writeRestart
    | with_reducible apply kept_wtEnter
    | with_reducible apply kept_reloadKeys
    | with_reducible apply kept_smartRefresh
    | with_reducible apply kept_logEv
    | simp only [Kept.upd_iff]
    | (intro _; try dsimp only [id])
    | split

theorem kept_dumpRelease {s t : State} (h : Kept s t) :
    Kept s (dumpRelease t) := by
  unfold dumpRelease
  try dsimp only
  repeat' first
    | with_reducible assumption
    | with_reducible exact Kept.refl _
    | with_reducible apply kept_writeRestart
    | with_reducible apply kept_clearCauses
    | with_reducible apply kept_startTest
    | with_reducible apply kept_updPlp
    | with_reducible apply kept_logEv
    | simp only [Kept.upd_iff]
    | (intro _; try dsimp only [id])
    | split

theorem kept_updClk {s t : State} {f : Clk → Clk} (h : Kept s t) :
    Kept s (updClk f t) := by
  unfold updClk
  try dsimp only
  repeat' first
    | with_reducible assumption
    | with_reducible exact Kept.refl _
    | simp only [Kept.upd_iff]

theorem kept_useRef {s t : State} {r : Nat} (h : Kept s t) :
    Kept s (useRef r t) := by
  unfold useRef
  try dsimp only
  repeat' first
    | with_reducible assumption
    | with_reducible exact Kept.refl _
    | with_reducible apply kept_updClk
    | with_reducible apply kept_logEv

theorem kept_refclkLost {s t : State} {r : Nat} (h : Kept s t) :
    Kept s (refclkLost r t) := by
  unfold refclkLost
  try dsimp only
  repeat' first
    | with_reducible assumption
    | with_reducible exact Kept.refl _
    | with_reducible apply kept_useRef
    | with_reducible apply kept_updClk
    | simp only [Kept.upd_iff]
    | (intro _; try dsimp only [id])
    | split

theorem kept_refclkRevert {s t : State} (h : Kept s t) :
    Kept s (refclkRevert t) := by
  unfold refclkRevert
  try dsimp only
  repeat' first
    | with_reducible assumption
    | with_reducible exact Kept.refl _
    | with_reducible apply kept_useRef
    | with_reducible apply kept_updClk
    | simp only [Kept.upd_iff]
    | (intro _; try dsimp only [id])
    | split

theorem kept_setSleep {s t : State} {t0 : Nat} {n : Nat} (h : Kept s t) :
    Kept s (setSleep t0 n t) := by
  unfold setSleep
  try dsimp only
  repeat' first
    | with_reducible assumption
    | with_reducible exact Kept.refl _
    | with_reducible apply kept_updTherm

theorem kept_lightEntry {s t : State} {t0 : Nat} (h : Kept s t) :
    Kept s (lightEntry t0 t) := by
  unfold lightEntry
  try dsimp only
  repeat' first
    | with_reducible assumption
    | with_reducible exact Kept.refl _
    | with_reducible apply kept_setSleep
    | simp only [Kept.upd_iff]
    | (intro _; try dsimp only [id])
    | split

theorem kept_deepEntry {s t : State} (h : Kept s t) :
    Kept s (deepEntry t) := by
  unfold deepEntry
  try dsimp only
  repeat' first
    | with_reducible assumption
    | with_reducible exact Kept.refl _
    | with_reducible apply kept_closeTails
    | with_reducible apply kept_updPower
    | with_reducible apply kept_expireRows
    | simp only [Kept.upd_iff]
    | (intro _; try dsimp only [id])
    | split

theorem kept_leaveDeep {s t : State} (h : Kept s t) :
    Kept s (leaveDeep t) := by
  unfold leaveDeep
  try dsimp only
  repeat' first
    | with_reducible assumption
    | with_reducible exact Kept.refl _
    | with_reducible apply kept_updPower
    | simp only [Kept.upd_iff]
    | (intro _; try dsimp only [id])
    | split

theorem kept_updRail {s t : State} {r : Nat} {f : Rail → Rail} (h : Kept s t) :
    Kept s (updRail r f t) := by
  unfold updRail
  try dsimp only
  repeat' first
    | with_reducible assumption
    | with_reducible exact Kept.refl _
    | with_reducible apply kept_updPower

theorem kept_avsEnable {s t : State} {v : Nat} (h : Kept s t) :
    Kept s (avsEnable v t) := by
  unfold avsEnable
  try dsimp only
  repeat' first
    | with_reducible assumption
    | with_reducible exact Kept.refl _
    | with_reducible apply kept_updPower
    | with_reducible apply kept_writeCfg
    | with_reducible apply kept_reject
    | simp only [Kept.upd_iff]
    | (intro _; try dsimp only [id])
    | split

theorem kept_pmbusAlert {s t : State} {words : List (Nat × Nat)} (h : Kept s t) :
    Kept s (pmbusAlert words t) := by
  unfold pmbusAlert
  try dsimp only
  repeat' first
    | with_reducible assumption
    | with_reducible exact Kept.refl _
    | with_reducible apply kept_updRail
    | with_reducible apply kept_raiseLevel
    | with_reducible apply kept_logEv
    | simp only [Kept.upd_iff]
    | with_reducible apply Kept.foldl
    | (intro _; try dsimp only [id])
    | split

theorem kept_heartbeatMissing {s t : State} {t0 : Nat} (h : Kept s t) :
    Kept s (heartbeatMissing t0 t) := by
  unfold heartbeatMissing
  try dsimp only
  repeat' first
    | with_reducible assumption
    | with_reducible exact Kept.refl _
    | simp only [Kept.upd_iff]
    | (intro _; try dsimp only [id])
    | split

theorem kept_restartExpired {s t : State} {t0 : Nat} (h : Kept s t) :
    Kept s (restartExpired t0 t) := by
  unfold restartExpired
  try dsimp only
  repeat' first
    | with_reducible assumption
    | with_reducible exact Kept.refl _
    | with_reducible apply kept_fenceTile
    | simp only [Kept.upd_iff]
    | (intro _; try dsimp only [id])
    | split

theorem kept_fenceRequest {s t : State} {by_ : Nat} {t0 : Nat} (h : Kept s t) :
    Kept s (fenceRequest by_ t0 t) := by
  unfold fenceRequest
  try dsimp only
  repeat' first
    | with_reducible assumption
    | with_reducible exact Kept.refl _
    | with_reducible apply kept_fenceTile
    | simp only [Kept.upd_iff]
    | (intro _; try dsimp only [id])
    | split

theorem kept_updIsland {s t : State} {f : Island → Island} (h : Kept s t) :
    Kept s (updIsland f t) := by
  unfold updIsland
  try dsimp only
  repeat' first
    | with_reducible assumption
    | with_reducible exact Kept.refl _
    | simp only [Kept.upd_iff]

theorem kept_vauxRise {s t : State} (h : Kept s t) :
    Kept s (vauxRise t) := by
  unfold vauxRise
  try dsimp only
  repeat' first
    | with_reducible assumption
    | with_reducible exact Kept.refl _
    | with_reducible apply kept_updIsland
    | with_reducible apply kept_updEvr
    | with_reducible apply kept_updPlp
    | with_reducible apply kept_emit
    | simp only [Kept.upd_iff]
    | (intro _; try dsimp only [id])
    | split

theorem kept_vauxLoss {s t : State} (h : Kept s t) :
    Kept s (vauxLoss t) := by
  unfold vauxLoss
  try dsimp only
  repeat' first
    | with_reducible assumption
    | with_reducible exact Kept.refl _
    | with_reducible apply kept_updIsland
    | with_reducible apply kept_offReady
    | with_reducible apply kept_stopTiles
    | with_reducible apply kept_updPlp
    | simp only [Kept.upd_iff]
    | (intro _; try dsimp only [id])
    | split

theorem kept_sysRstRelease {s t : State} {power : Bool} (h : Kept s t) :
    Kept s (sysRstRelease power t) := by
  unfold sysRstRelease
  try dsimp only
  repeat' first
    | with_reducible assumption
    | with_reducible exact Kept.refl _
    | with_reducible apply kept_updIsland
    | with_reducible apply kept_enterRun
    | simp only [Kept.upd_iff]
    | (intro _; try dsimp only [id])
    | split

theorem kept_flashStart {s t : State} (h : Kept s t) :
    Kept s (flashStart t) := by
  unfold flashStart
  try dsimp only
  repeat' first
    | with_reducible assumption
    | with_reducible exact Kept.refl _
    | with_reducible apply kept_flashAccess
    | with_reducible apply kept_updFlash

theorem kept_flashEnd {s t : State} (h : Kept s t) :
    Kept s (flashEnd t) := by
  unfold flashEnd
  try dsimp only
  repeat' first
    | with_reducible assumption
    | with_reducible exact Kept.refl _
    | with_reducible apply kept_flashAccess
    | with_reducible apply kept_updFlash

theorem kept_stageRestart {s t : State} (h : Kept s t) :
    Kept s (stageRestart t) := by
  unfold stageRestart
  try dsimp only
  repeat' first
    | with_reducible assumption
    | with_reducible exact Kept.refl _
    | with_reducible apply kept_logAppend
    | with_reducible apply kept_updFw

theorem kept_checkWhole {s t : State} (h : Kept s t) :
    Kept s (checkWhole t) := by
  unfold checkWhole
  try dsimp only
  repeat' first
    | with_reducible assumption
    | with_reducible exact Kept.refl _
    | with_reducible apply kept_flashAccess
    | with_reducible apply kept_updFw
    | simp only [Kept.upd_iff]
    | (intro _; try dsimp only [id])
    | split

theorem kept_runStaged {s t : State} (h : Kept s t) :
    Kept s (runStaged t) := by
  unfold runStaged
  try dsimp only
  repeat' first
    | with_reducible assumption
    | with_reducible exact Kept.refl _
    | with_reducible apply kept_takeStores
    | with_reducible apply kept_updFw

theorem testBit_add_two_pow (w i k : Nat) (hb : w / 2 ^ i % 2 = 0) (h : w.testBit k = true) :
    (w + 2 ^ i).testBit k = true := by
  rcases lt_trichotomy k i with hk | rfl | hk
  · rw [Nat.add_comm, Nat.testBit_two_pow_add_gt hk]; exact h
  · rw [Nat.testBit_eq_decide_div_mod_eq] at h; simp [hb] at h
  · rw [Nat.testBit_eq_decide_div_mod_eq] at h ⊢
    have e : (w + 2 ^ i) / 2 ^ k = w / 2 ^ k := by
      obtain ⟨d, rfl⟩ := Nat.exists_eq_add_of_lt hk
      have : 2 ^ (i + d + 1) = 2 ^ i * (2 * 2 ^ d) := by ring
      rw [this, ← Nat.div_div_eq_div_mul, ← Nat.div_div_eq_div_mul, ← Nat.div_div_eq_div_mul,
        ← Nat.div_div_eq_div_mul, Nat.add_div_right _ (by positivity)]
      congr 1; omega
    rw [e]; exact h

theorem testBit_fuseOnes (n w k : Nat) (h : w.testBit k = true) : (fuseOnes n w).testBit k = true := by
  unfold fuseOnes
  generalize List.range 32 = l
  induction l generalizing w with
  | nil => exact h
  | cons i l ih =>
    simp only [List.foldl_cons]
    apply ih
    split
    · simp only [setBit, if_true]
      split
      · exact h
      · rename_i hb
        exact testBit_add_two_pow w i k (by simpa [bitOf] using hb) h
    · exact h

theorem kept_installConfirmed {s t : State} (h : Kept s t) : Kept s (installConfirmed t) := by
  refine h.trans ?_
  unfold installConfirmed
  dsimp only
  refine kept_logEv (kept_logAppend (kept_updFw ⟨rfl, ⟨rfl, fun k _ e => testBit_fuseOnes _ _ _ e, fun k hk e => ?_⟩, id⟩))
  dsimp only
  generalize hp : (fun k => bitOf t.ident.keyRevoked k || bitOf (mfRevoke (manifestOf t.fw.staging)) k &&
    k != mfKey (manifestOf t.fw.staging)) = p
  have hpk : p k = true := by rw [← hp]; simp [e]
  have : List.range 4 = [0, 1, 2, 3] := rfl
  rw [this]
  simp only [List.filter]
  cases h0 : p 0 <;> cases h1 : p 1 <;> cases h2 : p 2 <;> cases h3 : p 3 <;>
    (obtain rfl | rfl | rfl | rfl : k = 0 ∨ k = 1 ∨ k = 2 ∨ k = 3 := by omega) <;> simp_all <;> decide

theorem kept_installCopy {s t : State} {step : Nat} (h : Kept s t) :
    Kept s (installCopy step t) := by
  unfold installCopy
  try dsimp only
  repeat' first
    | with_reducible assumption
    | with_reducible exact Kept.refl _
    | with_reducible apply kept_flashStart
    | with_reducible apply kept_updFw

theorem kept_resumeStaged {s t : State} {src : Nat} (h : Kept s t) :
    Kept s (resumeStaged src t) := by
  unfold resumeStaged
  try dsimp only
  repeat' first
    | with_reducible assumption
    | with_reducible exact Kept.refl _
    | with_reducible apply kept_installCopy
    | with_reducible apply kept_installConfirmed
    | with_reducible apply kept_runStaged
    | with_reducible apply kept_checkWhole
    | with_reducible apply kept_logAppend
    | with_reducible apply kept_updFw
    | with_reducible apply kept_logEv
    | simp only [Kept.upd_iff]
    | (intro _; try dsimp only [id])
    | split

theorem kept_bootRuns {s t : State} {src : Nat} {g : Image} {tileFail : List Nat} (h : Kept s t) :
    Kept s (bootRuns src g tileFail t) := by
  unfold bootRuns
  try dsimp only
  repeat' first
    | with_reducible assumption
    | with_reducible exact Kept.refl _
    | with_reducible apply kept_resumeStaged
    | with_reducible apply kept_fenceTile
    | with_reducible apply kept_openStore
    | with_reducible apply kept_updFw
    | simp only [Kept.upd_iff]
    | with_reducible apply Kept.foldl

theorem kept_bootRecovery {s t : State} {unread : Bool} (h : Kept s t) :
    Kept s (bootRecovery unread t) := by
  unfold bootRecovery
  try dsimp only
  repeat' first
    | with_reducible assumption
    | with_reducible exact Kept.refl _
    | with_reducible apply kept_updFw
    | simp only [Kept.upd_iff]
    | (intro _; try dsimp only [id])
    | split

theorem kept_bootSteps {s t : State} {readFail : List Nat} {tileFail : List Nat} (h : Kept s t) :
    Kept s (bootSteps readFail tileFail t) := by
  unfold bootSteps
  try dsimp only
  repeat' first
    | with_reducible assumption
    | with_reducible exact Kept.refl _
    | with_reducible apply kept_bootRecovery
    | with_reducible apply kept_bootRuns
    | with_reducible apply kept_flashAccess
    | with_reducible apply kept_updFlash
    | with_reducible apply kept_updFw
    | with_reducible apply kept_logEv
    | simp only [Kept.upd_iff]
    | (intro _; try dsimp only [id])
    | split

theorem kept_startPiece {s t : State} {a : Adm} {i : Nat} {d : Bytes} (h : Kept s t) :
    Kept s (startPiece a i d t) := by
  unfold startPiece
  try dsimp only
  repeat' first
    | with_reducible assumption
    | with_reducible exact Kept.refl _
    | with_reducible apply kept_flashStart
    | with_reducible apply kept_admPark
    | with_reducible apply kept_updFw
    | simp only [Kept.upd_iff]

theorem kept_downloadManifest {s t : State} {a : Adm} {d : Bytes} (h : Kept s t) :
    Kept s (downloadManifest a d t) := by
  unfold downloadManifest
  try dsimp only
  repeat' first
    | with_reducible assumption
    | with_reducible exact Kept.refl _
    | with_reducible apply kept_startPiece
    | with_reducible apply kept_stageRestart
    | with_reducible apply kept_admDone
    | with_reducible apply kept_logEv
    | simp only [Kept.upd_iff]
    | (intro _; try dsimp only [id])
    | split

theorem kept_downloadData {s t : State} {a : Adm} {i : Nat} {d : Bytes} (h : Kept s t) :
    Kept s (downloadData a i d t) := by
  unfold downloadData
  try dsimp only
  repeat' first
    | with_reducible assumption
    | with_reducible exact Kept.refl _
    | with_reducible apply kept_startPiece
    | with_reducible apply kept_admDone
    | with_reducible apply kept_logEv
    | simp only [Kept.upd_iff]
    | (intro _; try dsimp only [id])
    | split

theorem kept_fwDownload {s t : State} {a : Adm} {off : Nat} {d : Bytes} (h : Kept s t) :
    Kept s (fwDownload a off d t) := by
  unfold fwDownload
  try dsimp only
  repeat' first
    | with_reducible assumption
    | with_reducible exact Kept.refl _
    | with_reducible apply kept_downloadData
    | with_reducible apply kept_downloadManifest
    | with_reducible apply kept_admDone
    | simp only [Kept.upd_iff]
    | (intro _; try dsimp only [id])
    | split

theorem kept_fwOpDone {s t : State} {st : Status} (h : Kept s t) :
    Kept s (fwOpDone st t) := by
  unfold fwOpDone
  try dsimp only
  repeat' first
    | with_reducible assumption
    | with_reducible exact Kept.refl _
    | with_reducible apply kept_provEnd
    | with_reducible apply kept_admDone
    | simp only [Kept.upd_iff]
    | (intro _; try dsimp only [id])
    | split

theorem kept_pieceDone {s t : State} {i : Nat} {ok : Bool} (h : Kept s t) :
    Kept s (pieceDone i ok t) := by
  unfold pieceDone
  try dsimp only
  repeat' first
    | with_reducible assumption
    | with_reducible exact Kept.refl _
    | with_reducible apply kept_fwOpDone
    | with_reducible apply kept_checkWhole
    | with_reducible apply kept_flashEnd
    | with_reducible apply kept_logAppend
    | with_reducible apply kept_countErases
    | with_reducible apply kept_updFw
    | simp only [Kept.upd_iff]
    | (intro _; try dsimp only [id])
    | split

theorem kept_digestCheckDone {s t : State} (h : Kept s t) :
    Kept s (digestCheckDone t) := by
  unfold digestCheckDone
  try dsimp only
  repeat' first
    | with_reducible assumption
    | with_reducible exact Kept.refl _
    | with_reducible apply kept_stageRestart
    | with_reducible apply kept_updFw
    | with_reducible apply kept_logEv
    | simp only [Kept.upd_iff]
    | (intro _; try dsimp only [id])
    | split

theorem kept_commitRecovery {s t : State} {a : Adm} {ca : Nat} {fs : Nat} (h : Kept s t) :
    Kept s (commitRecovery a ca fs t) := by
  unfold commitRecovery
  try dsimp only
  repeat' first
    | with_reducible assumption
    | with_reducible exact Kept.refl _
    | with_reducible apply kept_admDone
    | with_reducible apply kept_updFw
    | simp only [Kept.upd_iff]
    | (intro _; try dsimp only [id])
    | split

theorem kept_commitInRecovery {s t : State} {a : Adm} (h : Kept s t) :
    Kept s (commitInRecovery a t) := by
  unfold commitInRecovery
  try dsimp only
  repeat' first
    | with_reducible assumption
    | with_reducible exact Kept.refl _
    | with_reducible apply kept_enterRun
    | with_reducible apply kept_admDone
    | with_reducible apply kept_countErases
    | with_reducible apply kept_updFw

theorem kept_commitControl {s t : State} {a : Adm} {fs : Nat} {act : State → State} (h : Kept s t) (h_act : ∀ x, Kept s x → Kept s (act x)) :
    Kept s (commitControl a fs act t) := by
  unfold commitControl
  try dsimp only
  repeat' first
    | with_reducible assumption
    | with_reducible exact Kept.refl _
    | with_reducible apply kept_commitInRecovery
    | with_reducible apply kept_admDone
    | apply h_act
    | simp only [Kept.upd_iff]
    | (intro _; try dsimp only [id])
    | split

theorem kept_commitNext {s t : State} {a : Adm} {fs : Nat} (h : Kept s t) :
    Kept s (commitNext a fs t) := by
  unfold commitNext
  try dsimp only
  repeat' first
    | with_reducible assumption
    | with_reducible exact Kept.refl _
    | with_reducible apply kept_commitControl
    | with_reducible apply kept_admDone
    | with_reducible apply kept_logAppend
    | with_reducible apply kept_updFw
    | simp only [Kept.upd_iff]
    | (intro _; try dsimp only [id])

theorem kept_commitNow {s t : State} {a : Adm} {fs : Nat} (h : Kept s t) :
    Kept s (commitNow a fs t) := by
  unfold commitNow
  try dsimp only
  repeat' first
    | with_reducible assumption
    | with_reducible exact Kept.refl _
    | with_reducible apply kept_commitControl
    | with_reducible apply kept_admPark
    | with_reducible apply kept_updFw
    | with_reducible apply kept_statusVector
    | simp only [Kept.upd_iff]
    | (intro _; try dsimp only [id])

theorem kept_activationStart {s t : State} {residentOk : Bool} (h : Kept s t) :
    Kept s (activationStart residentOk t) := by
  unfold activationStart
  try dsimp only
  repeat' first
    | with_reducible assumption
    | with_reducible exact Kept.refl _
    | with_reducible apply kept_activationFails
    | with_reducible apply kept_logAppend
    | with_reducible apply kept_updFw
    | with_reducible apply kept_statusVector
    | simp only [Kept.upd_iff]
    | (intro _; try dsimp only [id])
    | split

theorem kept_activationEnd {s t : State} (h : Kept s t) :
    Kept s (activationEnd t) := by
  unfold activationEnd
  try dsimp only
  repeat' first
    | with_reducible assumption
    | with_reducible exact Kept.refl _
    | with_reducible apply kept_fwOpDone
    | with_reducible apply kept_updFw
    | with_reducible apply kept_statusVector
    | with_reducible apply kept_logEv
    | simp only [Kept.upd_iff]
    | (intro _; try dsimp only [id])
    | split

theorem kept_fwConfirm {s t : State} {a : Adm} {id : Nat} (h : Kept s t) :
    Kept s (fwConfirm a id t) := by
  unfold fwConfirm
  try dsimp only
  repeat' first
    | with_reducible assumption
    | with_reducible exact Kept.refl _
    | with_reducible apply kept_installCopy
    | with_reducible apply kept_admDone
    | with_reducible apply kept_logAppend
    | with_reducible apply kept_updFw
    | simp only [Kept.upd_iff]
    | (intro _; try dsimp only [id])
    | split

theorem kept_installStep {s t : State} {ok : Bool} (h : Kept s t) :
    Kept s (installStep ok t) := by
  unfold installStep
  try dsimp only
  repeat' first
    | with_reducible assumption
    | with_reducible exact Kept.refl _
    | with_reducible apply kept_installCopy
    | with_reducible apply kept_installConfirmed
    | with_reducible apply kept_flashEnd
    | with_reducible apply kept_logAppend
    | with_reducible apply kept_countErases
    | with_reducible apply kept_updFw
    | simp only [Kept.upd_iff]
    | (intro _; try dsimp only [id])
    | split

theorem kept_flashOpDone {s t : State} {ok : Bool} {us : Nat} (h : Kept s t) :
    Kept s (flashOpDone ok us t) := by
  unfold flashOpDone
  try dsimp only
  repeat' first
    | with_reducible assumption
    | with_reducible exact Kept.refl _
    | with_reducible apply kept_smartRefresh
    | with_reducible apply kept_updFlash
    | simp only [Kept.upd_iff]
    | (intro _; try dsimp only [id])
    | split

theorem kept_stageClear {s t : State} {v : Nat} (h : Kept s t) :
    Kept s (stageClear v t) := by
  unfold stageClear
  try dsimp only
  repeat' first
    | with_reducible assumption
    | with_reducible exact Kept.refl _
    | with_reducible apply kept_stageRestart
    | with_reducible apply kept_reject
    | simp only [Kept.upd_iff]
    | (intro _; try dsimp only [id])
    | split

theorem kept_hostLinkUp {s t : State} {t0 : Nat} {p : Nat} {rate : Nat} {width : Nat} {narrow : Bool} (h : Kept s t) :
    Kept s (hostLinkUp t0 p rate width narrow t) := by
  unfold hostLinkUp
  try dsimp only
  repeat' first
    | with_reducible assumption
    | with_reducible exact Kept.refl _
    | with_reducible apply kept_discoveryChanged
    | with_reducible apply kept_anaRefresh
    | with_reducible apply kept_updPort
    | simp only [Kept.upd_iff]
    | with_reducible apply Kept.foldl
    | (intro _; try dsimp only [id])
    | split

theorem kept_hostLinkDown {s t : State} {t0 : Nat} {p : Nat} (h : Kept s t) :
    Kept s (hostLinkDown t0 p t) := by
  unfold hostLinkDown
  try dsimp only
  repeat' first
    | with_reducible assumption
    | with_reducible exact Kept.refl _
    | with_reducible apply kept_conventionalReset
    | with_reducible apply kept_discoveryChanged
    | with_reducible apply kept_anaRefresh
    | with_reducible apply kept_updPort
    | simp only [Kept.upd_iff]
    | with_reducible apply Kept.foldl
    | (intro _; try dsimp only [id])
    | split

theorem kept_startRecon {s t : State} {t0 : Nat} (h : Kept s t) :
    Kept s (startRecon t0 t) := by
  unfold startRecon
  try dsimp only
  repeat' first
    | with_reducible assumption
    | with_reducible exact Kept.refl _
    | with_reducible apply kept_anaRefresh
    | with_reducible apply kept_updPort

theorem kept_endPort {s t : State} {t0 : Nat} (h : Kept s t) :
    Kept s (endPort t0 t) := by
  unfold endPort
  try dsimp only
  repeat' first
    | with_reducible assumption
    | with_reducible exact Kept.refl _
    | with_reducible apply kept_connClosed
    | with_reducible apply kept_endCtrl
    | with_reducible apply kept_dropConn
    | with_reducible apply kept_emit
    | simp only [Kept.upd_iff]
    | with_reducible apply Kept.foldl
    | (intro _; try dsimp only [id])

theorem kept_portDrainEnd {s t : State} {t0 : Nat} (h : Kept s t) :
    Kept s (portDrainEnd t0 t) := by
  unfold portDrainEnd
  try dsimp only
  repeat' first
    | with_reducible assumption
    | with_reducible exact Kept.refl _
    | with_reducible apply kept_endPort
    | with_reducible apply kept_discoveryChanged
    | with_reducible apply kept_updPort
    | with_reducible apply kept_logEv
    | simp only [Kept.upd_iff]
    | (intro _; try dsimp only [id])
    | split

theorem kept_logZeroMacs {s t : State} {t0 : Nat} {mode : Nat} (h : Kept s t) :
    Kept s (logZeroMacs t0 mode t) := by
  unfold logZeroMacs
  try dsimp only
  repeat' first
    | with_reducible assumption
    | with_reducible exact Kept.refl _
    | with_reducible apply kept_reject
    | simp only [Kept.upd_iff]
    | with_reducible apply Kept.foldl
    | (intro _; try dsimp only [id])

theorem kept_laneRestart {s t : State} {t0 : Nat} (h : Kept s t) :
    Kept s (laneRestart t0 t) := by
  unfold laneRestart
  try dsimp only
  repeat' first
    | with_reducible assumption
    | with_reducible exact Kept.refl _
    | with_reducible apply kept_logZeroMacs
    | with_reducible apply kept_anaRefresh
    | with_reducible apply kept_updPort
    | simp only [Kept.upd_iff]
    | (intro _; try dsimp only [id])
    | split

theorem kept_updCommit {s t : State} {f : Commit → Commit} (h : Kept s t) :
    Kept s (updCommit f t) := by
  unfold updCommit
  try dsimp only
  repeat' first
    | with_reducible assumption
    | with_reducible exact Kept.refl _
    | simp only [Kept.upd_iff]

theorem kept_startCommit {s t : State} {fromRing : Bool} (h : Kept s t) :
    Kept s (startCommit fromRing t) := by
  unfold startCommit
  try dsimp only
  repeat' first
    | with_reducible assumption
    | with_reducible exact Kept.refl _
    | with_reducible apply kept_updCommit

theorem kept_commitBusy {s t : State} (h : Kept s t) :
    Kept s (commitBusy t) := by
  unfold commitBusy
  try dsimp only
  repeat' first
    | with_reducible assumption
    | with_reducible exact Kept.refl _
    | with_reducible apply kept_reject

theorem kept_commitWrite {s t : State} (h : Kept s t) :
    Kept s (commitWrite t) := by
  unfold commitWrite
  try dsimp only
  repeat' first
    | with_reducible assumption
    | with_reducible exact Kept.refl _
    | with_reducible apply kept_commitBusy
    | with_reducible apply kept_startCommit
    | simp only [Kept.upd_iff]
    | (intro _; try dsimp only [id])
    | split

theorem kept_revertShadow {s t : State} (h : Kept s t) :
    Kept s (revertShadow t) := by
  unfold revertShadow
  try dsimp only
  repeat' first
    | with_reducible assumption
    | with_reducible exact Kept.refl _
    | simp only [Kept.upd_iff]
    | (intro _; try dsimp only [id])
    | split

theorem kept_rejectCommit {s t : State} {b : BadField} (h : Kept s t) :
    Kept s (rejectCommit b t) := by
  unfold rejectCommit
  try dsimp only
  repeat' first
    | with_reducible assumption
    | with_reducible exact Kept.refl _
    | with_reducible apply kept_updCommit
    | with_reducible apply kept_boardFail
    | with_reducible apply kept_setCfgErr
    | with_reducible apply kept_reject
    | with_reducible apply kept_emit
    | simp only [Kept.upd_iff]
    | (intro _; try dsimp only [id])
    | split

theorem kept_commitValidated {s t : State} (h : Kept s t) :
    Kept s (commitValidated t) := by
  unfold commitValidated
  try dsimp only
  repeat' first
    | with_reducible assumption
    | with_reducible exact Kept.refl _
    | with_reducible apply kept_rejectCommit
    | with_reducible apply kept_updCommit
    | simp only [Kept.upd_iff]
    | (intro _; try dsimp only [id])
    | split

theorem kept_takeSnapshot {s t : State} (h : Kept s t) :
    Kept s (takeSnapshot t) := by
  unfold takeSnapshot
  try dsimp only
  repeat' first
    | with_reducible assumption
    | with_reducible exact Kept.refl _
    | simp only [Kept.upd_iff]

theorem kept_startPorts {s t : State} {old : State} (h : Kept s t) :
    Kept s (startPorts old t) := by
  unfold startPorts
  try dsimp only
  repeat' first
    | with_reducible assumption
    | with_reducible exact Kept.refl _
    | with_reducible apply kept_startRecon
    | simp only [Kept.upd_iff]
    | with_reducible apply Kept.foldl

theorem kept_disableLinks {s t : State} (h : Kept s t) :
    Kept s (disableLinks t) := by
  unfold disableLinks
  try dsimp only
  repeat' first
    | with_reducible assumption
    | with_reducible exact Kept.refl _
    | with_reducible apply kept_meshDown
    | simp only [Kept.upd_iff]
    | with_reducible apply Kept.foldl
    | (intro _; try dsimp only [id])
    | split

theorem kept_moveEpochs {s t : State} {old : State} (h : Kept s t) :
    Kept s (moveEpochs old t) := by
  unfold moveEpochs
  try dsimp only
  repeat' first
    | with_reducible assumption
    | with_reducible exact Kept.refl _
    | with_reducible apply kept_moveEpochEnd
    | simp only [Kept.upd_iff]
    | (intro _; try dsimp only [id])
    | split

theorem kept_capTokens {s t : State} {old : State} (h : Kept s t) :
    Kept s (capTokens old t) := by
  unfold capTokens
  try dsimp only
  repeat' first
    | with_reducible assumption
    | with_reducible exact Kept.refl _
    | simp only [Kept.upd_iff]

theorem kept_commitApplied {s t : State} (h : Kept s t) :
    Kept s (commitApplied t) := by
  unfold commitApplied
  try dsimp only
  repeat' first
    | with_reducible assumption
    | with_reducible exact Kept.refl _
    | with_reducible apply kept_capTokens
    | with_reducible apply kept_moveEpochs
    | with_reducible apply kept_disableLinks
    | with_reducible apply kept_startPorts
    | with_reducible apply kept_takeSnapshot
    | with_reducible apply kept_updCommit
    | with_reducible apply kept_boardDone
    | with_reducible apply kept_emit
    | simp only [Kept.upd_iff]
    | (intro _; try dsimp only [id])
    | split

theorem kept_badBell {s t : State} {k : Nat} (h : Kept s t) :
    Kept s (badBell k t) := by
  unfold badBell
  try dsimp only
  repeat' first
    | with_reducible assumption
    | with_reducible exact Kept.refl _
    | with_reducible apply kept_setG
    | with_reducible apply kept_reject

theorem kept_cmdTail {s t : State} {v : Nat} (h : Kept s t) :
    Kept s (cmdTail v t) := by
  unfold cmdTail
  try dsimp only
  repeat' first
    | with_reducible assumption
    | with_reducible exact Kept.refl _
    | with_reducible apply kept_badBell
    | with_reducible apply kept_putRing
    | simp only [Kept.upd_iff]
    | (intro _; try dsimp only [id])
    | split

theorem kept_ringHead {s t : State} {k : Nat} {v : Nat} (h : Kept s t) :
    Kept s (ringHead k v t) := by
  unfold ringHead
  try dsimp only
  repeat' first
    | with_reducible assumption
    | with_reducible exact Kept.refl _
    | with_reducible apply kept_badBell
    | with_reducible apply kept_putRing
    | simp only [Kept.upd_iff]
    | (intro _; try dsimp only [id])
    | split

theorem kept_coalesceTimer {s t : State} {k : Nat} (h : Kept s t) :
    Kept s (coalesceTimer k t) := by
  unfold coalesceTimer
  try dsimp only
  repeat' first
    | with_reducible assumption
    | with_reducible exact Kept.refl _
    | with_reducible apply kept_putRing
    | with_reducible apply kept_emit
    | simp only [Kept.upd_iff]
    | (intro _; try dsimp only [id])
    | split

theorem kept_ringWrite {s t : State} {k : Nat} {v : Nat} (h : Kept s t) :
    Kept s (ringWrite k v t) := by
  unfold ringWrite
  try dsimp only
  repeat' first
    | with_reducible assumption
    | with_reducible exact Kept.refl _
    | with_reducible apply kept_deliverEvents
    | with_reducible apply kept_deliverMeter
    | with_reducible apply kept_putRing
    | with_reducible apply kept_writeReg
    | with_reducible apply kept_setFld
    | with_reducible apply kept_reject
    | simp only [Kept.upd_iff]
    | (intro _; try dsimp only [id])
    | split

theorem kept_boardPortReset {s t : State} (h : Kept s t) :
    Kept s (boardPortReset t) := by
  unfold boardPortReset
  try dsimp only
  repeat' first
    | with_reducible assumption
    | with_reducible exact Kept.refl _
    | with_reducible apply kept_abandonRing
    | with_reducible apply kept_setFld
    | simp only [Kept.upd_iff]
    | with_reducible apply Kept.foldl
    | (intro _; try dsimp only [id])
    | split

theorem kept_dmaFailed {s t : State} (h : Kept s t) :
    Kept s (dmaFailed t) := by
  unfold dmaFailed
  try dsimp only
  repeat' first
    | with_reducible assumption
    | with_reducible exact Kept.refl _
    | with_reducible apply kept_respond
    | with_reducible apply kept_bump
    | with_reducible apply kept_setG

theorem kept_checkDesc {s t : State} {d : Bytes} {dmaOk : Bool} (h : Kept s t) :
    Kept s (checkDesc d dmaOk t) := by
  unfold checkDesc
  try dsimp only
  repeat' first
    | with_reducible assumption
    | with_reducible exact Kept.refl _
    | with_reducible apply kept_dmaFailed
    | with_reducible apply kept_postResponse
    | with_reducible apply kept_respond
    | simp only [Kept.upd_iff]
    | (intro _; try dsimp only [id])
    | split

theorem kept_descriptorFetch {s t : State} {d : Bytes} {dmaOk : Bool} (h : Kept s t) :
    Kept s (descriptorFetch d dmaOk t) := by
  unfold descriptorFetch
  try dsimp only
  repeat' first
    | with_reducible assumption
    | with_reducible exact Kept.refl _
    | with_reducible apply kept_checkDesc
    | with_reducible apply kept_putRing
    | with_reducible apply kept_emit
    | simp only [Kept.upd_iff]
    | (intro _; try dsimp only [id])
    | split

theorem kept_runRegistry {s t : State} {op : Nat} {i : Instr} {body : State → State} (h : Kept s t) (h_body : ∀ x, Kept s x → Kept s (body x)) :
    Kept s (runRegistry op i body t) := by
  unfold runRegistry
  try dsimp only
  repeat' first
    | with_reducible assumption
    | with_reducible exact Kept.refl _
    | with_reducible apply kept_passTurn
    | with_reducible apply kept_holdAdmin
    | with_reducible apply kept_boardFail
    | with_reducible apply kept_syncStores
    | apply h_body
    | simp only [Kept.upd_iff]
    | (intro _; try dsimp only [id])
    | split

theorem kept_boardAnswer {s t : State} {d : List Field} (h : Kept s t) :
    Kept s (boardAnswer d t) := by
  unfold boardAnswer
  try dsimp only
  repeat' first
    | with_reducible assumption
    | with_reducible exact Kept.refl _
    | with_reducible apply kept_boardDone
    | with_reducible apply kept_emit

theorem kept_configCommit {s t : State} (h : Kept s t) :
    Kept s (configCommit t) := by
  unfold configCommit
  try dsimp only
  repeat' first
    | with_reducible assumption
    | with_reducible exact Kept.refl _
    | with_reducible apply kept_commitBusy
    | with_reducible apply kept_startCommit
    | with_reducible apply kept_boardFail
    | simp only [Kept.upd_iff]
    | (intro _; try dsimp only [id])
    | split

theorem kept_dropRights {s t : State} (h : Kept s t) :
    Kept s (dropRights t) := by
  unfold dropRights
  try dsimp only
  repeat' first
    | with_reducible assumption
    | with_reducible exact Kept.refl _
    | simp only [Kept.upd_iff]

theorem kept_providerSet {s t : State} {d : Bytes} (h : Kept s t) :
    Kept s (providerSet d t) := by
  unfold providerSet
  try dsimp only
  repeat' first
    | with_reducible assumption
    | with_reducible exact Kept.refl _
    | with_reducible apply kept_dropRights
    | with_reducible apply kept_boardFail
    | with_reducible apply kept_boardDone
    | simp only [Kept.upd_iff]
    | (intro _; try dsimp only [id])
    | split

theorem kept_endThrough {s t : State} {n : NetIf} (h : Kept s t) :
    Kept s (endThrough n t) := by
  unfold endThrough
  try dsimp only
  repeat' first
    | with_reducible assumption
    | with_reducible exact Kept.refl _
    | with_reducible apply kept_connClosed
    | with_reducible apply kept_endCtrl
    | with_reducible apply kept_dropConn
    | with_reducible apply kept_emit
    | simp only [Kept.upd_iff]
    | with_reducible apply Kept.foldl
    | (intro _; try dsimp only [id])

theorem kept_netifSet {s t : State} {d : Bytes} (h : Kept s t) :
    Kept s (netifSet d t) := by
  unfold netifSet
  try dsimp only
  repeat' first
    | with_reducible assumption
    | with_reducible exact Kept.refl _
    | with_reducible apply kept_endThrough
    | with_reducible apply kept_boardFail
    | with_reducible apply kept_boardDone
    | simp only [Kept.upd_iff]
    | (intro _; try dsimp only [id])
    | split

theorem kept_netifGet {s t : State} {cdw10 : Nat} (h : Kept s t) :
    Kept s (netifGet cdw10 t) := by
  unfold netifGet
  try dsimp only
  repeat' first
    | with_reducible assumption
    | with_reducible exact Kept.refl _
    | with_reducible apply kept_boardAnswer

theorem kept_forCtrl {s t : State} {a : Adm} {f : Ctrl → State → State} (h : Kept s t) (h_f : ∀ c x, Kept s x → Kept s (f c x)) :
    Kept s (forCtrl a f t) := by
  unfold forCtrl
  try dsimp only
  repeat' first
    | with_reducible assumption
    | with_reducible exact Kept.refl _
    | with_reducible apply kept_admDone
    | apply h_f
    | simp only [Kept.upd_iff]
    | (intro _; try dsimp only [id])
    | split

theorem kept_forProvider {s t : State} {a : Adm} {d : List Field} (h : Kept s t) :
    Kept s (forProvider a d t) := by
  unfold forProvider
  try dsimp only
  repeat' first
    | with_reducible assumption
    | with_reducible exact Kept.refl _
    | with_reducible apply kept_admAnswer
    | with_reducible apply kept_admDone
    | simp only [Kept.upd_iff]
    | (intro _; try dsimp only [id])
    | split

theorem kept_frozenLog {s t : State} {a : Adm} {c : Ctrl} (h : Kept s t) :
    Kept s (frozenLog a c t) := by
  unfold frozenLog
  try dsimp only
  repeat' first
    | with_reducible assumption
    | with_reducible exact Kept.refl _
    | with_reducible apply kept_admAnswer

theorem kept_tenantLog {s t : State} {a : Adm} {c : Ctrl} (h : Kept s t) :
    Kept s (tenantLog a c t) := by
  unfold tenantLog
  try dsimp only
  repeat' first
    | with_reducible assumption
    | with_reducible exact Kept.refl _
    | with_reducible apply kept_admAnswer

theorem kept_smartLog {s t : State} {a : Adm} {n : Nat} (h : Kept s t) :
    Kept s (smartLog a n t) := by
  unfold smartLog
  try dsimp only
  repeat' first
    | with_reducible assumption
    | with_reducible exact Kept.refl _
    | with_reducible apply kept_admAnswer
    | with_reducible apply kept_admDone
    | simp only [Kept.upd_iff]
    | (intro _; try dsimp only [id])
    | split

theorem kept_egLog {s t : State} {a : Adm} {id : Nat} (h : Kept s t) :
    Kept s (egLog a id t) := by
  unfold egLog
  try dsimp only
  repeat' first
    | with_reducible assumption
    | with_reducible exact Kept.refl _
    | with_reducible apply kept_admAnswer
    | with_reducible apply kept_admDone
    | simp only [Kept.upd_iff]
    | (intro _; try dsimp only [id])
    | split

theorem kept_discoveryLog {s t : State} {id : Nat} (h : Kept s t) :
    Kept s (discoveryLog id t) := by
  unfold discoveryLog
  try dsimp only
  repeat' first
    | with_reducible assumption
    | with_reducible exact Kept.refl _
    | with_reducible apply kept_emit
    | simp only [Kept.upd_iff]
    | (intro _; try dsimp only [id])
    | split

theorem kept_sweepLog {s t : State} {a : Adm} (h : Kept s t) :
    Kept s (sweepLog a t) := by
  unfold sweepLog
  try dsimp only
  repeat' first
    | with_reducible assumption
    | with_reducible exact Kept.refl _
    | with_reducible apply kept_admAnswer

theorem kept_lostLog {s t : State} {a : Adm} {rae : Bool} (h : Kept s t) :
    Kept s (lostLog a rae t) := by
  unfold lostLog
  try dsimp only
  repeat' first
    | with_reducible assumption
    | with_reducible exact Kept.refl _
    | with_reducible apply kept_smartRefresh
    | with_reducible apply kept_admAnswer
    | simp only [Kept.upd_iff]
    | (intro _; try dsimp only [id])
    | split

theorem kept_namespaceAnswer {s t : State} {a : Adm} {may : List Nat} {n : Nat} (h : Kept s t) :
    Kept s (namespaceAnswer a may n t) := by
  unfold namespaceAnswer
  try dsimp only
  repeat' first
    | with_reducible assumption
    | with_reducible exact Kept.refl _
    | with_reducible apply kept_admAnswer
    | with_reducible apply kept_admDone
    | simp only [Kept.upd_iff]
    | (intro _; try dsimp only [id])
    | split

theorem kept_identify {s t : State} {a : Adm} {cns : Nat} {n : Nat} (h : Kept s t) :
    Kept s (identify a cns n t) := by
  unfold identify
  try dsimp only
  repeat' first
    | with_reducible assumption
    | with_reducible exact Kept.refl _
    | with_reducible apply kept_namespaceAnswer
    | with_reducible apply kept_admAnswer
    | with_reducible apply kept_admDone
    | simp only [Kept.upd_iff]
    | (intro _; try dsimp only [id])
    | split

theorem kept_qeEnable {s t : State} {t0 : Nat} {v : Nat} (h : Kept s t) :
    Kept s (qeEnable t0 v t) := by
  unfold qeEnable
  try dsimp only
  repeat' first
    | with_reducible assumption
    | with_reducible exact Kept.refl _
    | with_reducible apply kept_connClosed
    | with_reducible apply kept_endCtrl
    | with_reducible apply kept_dropConn
    | with_reducible apply kept_writeEnable
    | with_reducible apply kept_writeCfg
    | with_reducible apply kept_emit
    | simp only [Kept.upd_iff]
    | with_reducible apply Kept.foldl
    | (intro _; try dsimp only [id])
    | split

theorem kept_mapOn {s t : State} {t0 : Nat} (h : Kept s t) :
    Kept s (mapOn t0 t) := by
  unfold mapOn
  try dsimp only
  repeat' first
    | with_reducible assumption
    | with_reducible exact Kept.refl _
    | with_reducible apply kept_serveMap
    | simp only [Kept.upd_iff]

theorem kept_mapEnable {s t : State} {t0 : Nat} {v : Nat} (h : Kept s t) :
    Kept s (mapEnable t0 v t) := by
  unfold mapEnable
  try dsimp only
  repeat' first
    | with_reducible assumption
    | with_reducible exact Kept.refl _
    | with_reducible apply kept_mapOn
    | with_reducible apply kept_writeEnable
    | simp only [Kept.upd_iff]
    | (intro _; try dsimp only [id])

theorem kept_plpEnable {s t : State} {v : Nat} (h : Kept s t) :
    Kept s (plpEnable v t) := by
  unfold plpEnable
  try dsimp only
  repeat' first
    | with_reducible assumption
    | with_reducible exact Kept.refl _
    | with_reducible apply kept_recompute
    | with_reducible apply kept_clearCauses
    | with_reducible apply kept_addCause
    | with_reducible apply kept_writeEnable
    | simp only [Kept.upd_iff]
    | (intro _; try dsimp only [id])
    | split

theorem kept_latchHigh {s t : State} {off : Nat} {v : Nat} (h : Kept s t) :
    Kept s (latchHigh off v t) := by
  unfold latchHigh
  try dsimp only
  repeat' first
    | with_reducible assumption
    | with_reducible exact Kept.refl _
    | simp only [Kept.upd_iff]

theorem kept_advance {s t : State} {w : Nat} {f : Fld} {n : Nat} (h : Kept s t) :
    Kept s (advance w f n t) := by
  unfold advance
  try dsimp only
  repeat' first
    | with_reducible assumption
    | with_reducible exact Kept.refl _
    | with_reducible apply kept_setFld

theorem kept_readEffect {s t : State} {w : Nat} {i : Nat} {r : Reg} (h : Kept s t) :
    Kept s (readEffect w i r t) := by
  unfold readEffect
  try dsimp only
  repeat' first
    | with_reducible assumption
    | with_reducible exact Kept.refl _
    | with_reducible apply kept_advance
    | with_reducible apply kept_updSensor
    | with_reducible apply kept_updDram
    | with_reducible apply kept_windowNext
    | simp only [Kept.upd_iff]
    | (intro _; try dsimp only [id])
    | split

theorem kept_readReg {s t : State} {off : Nat} (h : Kept s t) :
    Kept s (readReg off t) := by
  unfold readReg
  try dsimp only
  repeat' first
    | with_reducible assumption
    | with_reducible exact Kept.refl _
    | with_reducible apply kept_readEffect
    | with_reducible apply kept_latchHigh
    | with_reducible apply kept_emit
    | simp only [Kept.upd_iff]
    | (intro _; try dsimp only [id])
    | split

theorem kept_readTile {s t : State} {t0 : Nat} {r : Reg} (h : Kept s t) :
    Kept s (readTile t0 r t) := by
  unfold readTile
  try dsimp only
  repeat' first
    | with_reducible assumption
    | with_reducible exact Kept.refl _
    | with_reducible apply kept_readReg
    | simp only [Kept.upd_iff]
    | (intro _; try dsimp only [id])
    | split

theorem kept_descWrite {s t : State} {t0 : Nat} {v : Nat} (h : Kept s t) :
    Kept s (descWrite t0 v t) := by
  unfold descWrite
  try dsimp only
  repeat' first
    | with_reducible assumption
    | with_reducible exact Kept.refl _
    | with_reducible apply kept_advance
    | with_reducible apply kept_writeReg

theorem kept_plpCtrl {s t : State} {v : Nat} (h : Kept s t) :
    Kept s (plpCtrl v t) := by
  unfold plpCtrl
  try dsimp only
  repeat' first
    | with_reducible assumption
    | with_reducible exact Kept.refl _
    | with_reducible apply kept_prepareOff
    | with_reducible apply kept_closeTails
    | with_reducible apply kept_startTest
    | with_reducible apply kept_addCause
    | with_reducible apply kept_expireRows
    | simp only [Kept.upd_iff]
    | (intro _; try dsimp only [id])
    | split

theorem kept_commitCtrl {s t : State} {v : Nat} (h : Kept s t) :
    Kept s (commitCtrl v t) := by
  unfold commitCtrl
  try dsimp only
  repeat' first
    | with_reducible assumption
    | with_reducible exact Kept.refl _
    | with_reducible apply kept_revertShadow
    | with_reducible apply kept_commitWrite
    | simp only [Kept.upd_iff]
    | (intro _; try dsimp only [id])
    | split

theorem kept_writeOne {s t : State} {w : Nat} {i : Nat} {r : Reg} {v : Nat} (h : Kept s t) :
    Kept s (writeOne w i r v t) := by
  unfold writeOne
  try dsimp only
  repeat' first
    | with_reducible assumption
    | with_reducible exact Kept.refl _
    | with_reducible apply kept_commitCtrl
    | with_reducible apply kept_plpCtrl
    | with_reducible apply kept_descWrite
    | with_reducible apply kept_plpEnable
    | with_reducible apply kept_mapEnable
    | with_reducible apply kept_qeEnable
    | with_reducible apply kept_ringWrite
    | with_reducible apply kept_stageClear
    | with_reducible apply kept_avsEnable
    | with_reducible apply kept_drcRestart
    | with_reducible apply kept_drcEnable
    | with_reducible apply kept_cryEnable
    | with_reducible apply kept_cmpEnable
    | with_reducible apply kept_latchAt
    | with_reducible apply kept_verifyStart
    | with_reducible apply kept_medEnable
    | with_reducible apply kept_bpmEnable
    | with_reducible apply kept_poolReset
    | with_reducible apply kept_writeEnable
    | with_reducible apply kept_writeReg
    | simp only [Kept.upd_iff]
    | (intro _; try dsimp only [id])
    | split

theorem kept_writeTop {s t : State} {w : Nat} {i : Nat} {r : Reg} {v : Nat} (h : Kept s t) :
    Kept s (writeTop w i r v t) := by
  unfold writeTop
  try dsimp only
  repeat' first
    | with_reducible assumption
    | with_reducible exact Kept.refl _
    | with_reducible apply kept_boardTimeWrite
    | with_reducible apply kept_writeHigh
    | simp only [Kept.upd_iff]
    | (intro _; try dsimp only [id])
    | split

theorem kept_doorbell {s t : State} {k : Nat} {v : Nat} (h : Kept s t) :
    Kept s (doorbell k v t) := by
  unfold doorbell
  try dsimp only
  repeat' first
    | with_reducible assumption
    | with_reducible exact Kept.refl _
    | with_reducible apply kept_ringHead
    | with_reducible apply kept_cmdTail
    | with_reducible apply kept_deliverEvents
    | with_reducible apply kept_deliverMeter
    | simp only [Kept.upd_iff]
    | (intro _; try dsimp only [id])
    | split

theorem kept_registerWrite {s t : State} {off : Nat} {v : Nat} (h : Kept s t) :
    Kept s (registerWrite off v t) := by
  unfold registerWrite
  try dsimp only
  repeat' first
    | with_reducible assumption
    | with_reducible exact Kept.refl _
    | with_reducible apply kept_doorbell
    | with_reducible apply kept_writeTop
    | with_reducible apply kept_writeOne
    | with_reducible apply kept_writeLow
    | with_reducible apply kept_emit
    | simp only [Kept.upd_iff]
    | (intro _; try dsimp only [id])
    | split

theorem kept_endPauses {s t : State} (h : Kept s t) :
    Kept s (endPauses t) := by
  unfold endPauses
  try dsimp only
  repeat' first
    | with_reducible assumption
    | with_reducible exact Kept.refl _
    | with_reducible apply kept_sendHeld
    | simp only [Kept.upd_iff]

theorem kept_serveEngines {s t : State} {t0 : Nat} (h : Kept s t) :
    Kept s (serveEngines t0 t) := by
  unfold serveEngines
  try dsimp only
  repeat' first
    | with_reducible assumption
    | with_reducible exact Kept.refl _
    | with_reducible apply kept_serveDram
    | with_reducible apply kept_serveCipher
    | with_reducible apply kept_pipeRun

theorem kept_tick {s t : State} (h : Kept s t) :
    Kept s (tick t) := by
  unfold tick
  try dsimp only
  repeat' first
    | with_reducible assumption
    | with_reducible exact Kept.refl _
    | with_reducible apply kept_serveEngines
    | with_reducible apply kept_endPauses
    | simp only [Kept.upd_iff]
    | with_reducible apply Kept.foldl

theorem kept_execMeshPacketReceived {s u : State} {tile : Nat} {inp : MeshPort} {pkt : MeshPkt} {crcOk : Bool} (e : execMeshPacketReceived tile inp pkt crcOk s = .next u) : Kept s u := by
  unfold execMeshPacketReceived at e
  injection e with e
  subst e
  try dsimp only
  repeat' first
    | with_reducible exact Kept.refl _
    | with_reducible assumption
    | with_reducible apply kept_meshReceive

theorem kept_execMeshPacketSent {s u : State} {tile : Nat} {out : MeshPort} (e : execMeshPacketSent tile out s = .next u) : Kept s u := by
  unfold execMeshPacketSent at e
  injection e with e
  subst e
  try dsimp only
  repeat' first
    | with_reducible exact Kept.refl _
    | with_reducible assumption
    | with_reducible apply kept_meshSend

theorem kept_execMgmtEscape {s u : State} {tile : Nat} {p : InOut} (e : execMgmtEscape tile p s = .next u) : Kept s u := by
  unfold execMgmtEscape at e
  injection e with e
  subst e
  try dsimp only
  repeat' first
    | with_reducible exact Kept.refl _
    | with_reducible assumption
    | simp only [Kept.upd_iff]
    | (intro _; try dsimp only [id])
    | split

theorem kept_execMeshLinkDown {s u : State} {tile : Nat} {link : MeshPort} {trainingLost : Bool} (e : execMeshLinkDown tile link trainingLost s = .next u) : Kept s u := by
  unfold execMeshLinkDown at e
  injection e with e
  subst e
  try dsimp only
  repeat' first
    | with_reducible exact Kept.refl _
    | with_reducible assumption
    | with_reducible apply kept_meshDown

theorem kept_execMeshLinkRetrain {s u : State} {tile : Nat} {link : MeshPort} {ok : Bool} (e : execMeshLinkRetrain tile link ok s = .next u) : Kept s u := by
  unfold execMeshLinkRetrain at e
  injection e with e
  subst e
  try dsimp only
  repeat' first
    | with_reducible exact Kept.refl _
    | with_reducible assumption
    | with_reducible apply kept_meshRetrain

theorem kept_execRouteHoldEnd {s u : State} {src : Nat} {h : HoldEnd} (e : execRouteHoldEnd src h s = .next u) : Kept s u := by
  unfold execRouteHoldEnd at e
  injection e with e
  subst e
  try dsimp only
  repeat' first
    | with_reducible exact Kept.refl _
    | with_reducible assumption
    | with_reducible apply kept_holdEnd

theorem kept_execBufferAllocate {s u : State} {t0 : Nat} {len : Nat} {c : PClass} {sramOk : Bool} (e : execBufferAllocate t0 len c sramOk s = .next u) : Kept s u := by
  unfold execBufferAllocate at e
  injection e with e
  subst e
  try dsimp only
  repeat' first
    | with_reducible exact Kept.refl _
    | with_reducible assumption
    | with_reducible apply kept_emit
    | simp only [Kept.upd_iff]
    | (intro _; try dsimp only [id])
    | split
    | with_reducible refine kept_allocate ?_ (by assumption)

theorem kept_execBufferFree {s u : State} {t0 : Nat} {h : Nat} (e : execBufferFree t0 h s = .next u) : Kept s u := by
  unfold execBufferFree at e
  injection e with e
  subst e
  try dsimp only
  repeat' first
    | with_reducible exact Kept.refl _
    | with_reducible assumption
    | with_reducible apply kept_freeBuffer

theorem kept_execPoolReset {s u : State} {t0 : Nat} {v : Nat} (e : execPoolReset t0 v s = .next u) : Kept s u := by
  unfold execPoolReset at e
  injection e with e
  subst e
  try dsimp only
  repeat' first
    | with_reducible exact Kept.refl _
    | with_reducible assumption
    | with_reducible apply kept_poolReset
    | with_reducible apply kept_tileWrite
    | simp only [Kept.upd_iff]
    | (intro _; try dsimp only [id])

theorem kept_execPoolRebuildDone {s u : State} {t0 : Nat} {n : Nat} (e : execPoolRebuildDone t0 n s = .next u) : Kept s u := by
  unfold execPoolRebuildDone at e
  injection e with e
  subst e
  try dsimp only
  repeat' first
    | with_reducible exact Kept.refl _
    | with_reducible assumption
    | with_reducible apply kept_poolReset
    | with_reducible apply kept_buildPool
    | with_reducible apply kept_logEv
    | simp only [Kept.upd_iff]
    | (intro _; try dsimp only [id])
    | split

theorem kept_execBpmEnable {s u : State} {t0 : Nat} {v : Nat} (e : execBpmEnable t0 v s = .next u) : Kept s u := by
  unfold execBpmEnable at e
  injection e with e
  subst e
  try dsimp only
  repeat' first
    | with_reducible exact Kept.refl _
    | with_reducible assumption
    | with_reducible apply kept_bpmEnable
    | with_reducible apply kept_tileWrite
    | simp only [Kept.upd_iff]
    | (intro _; try dsimp only [id])

theorem kept_execBoardTimeWrite {s u : State} {hi : Nat} (e : execBoardTimeWrite hi s = .next u) : Kept s u := by
  unfold execBoardTimeWrite at e
  injection e with e
  subst e
  try dsimp only
  repeat' first
    | with_reducible exact Kept.refl _
    | with_reducible assumption
    | with_reducible apply kept_boardTimeWrite
    | with_reducible apply kept_pkgWrite
    | simp only [Kept.upd_iff]
    | (intro _; try dsimp only [id])

theorem kept_execEpochEnd {s u : State} {energy : Nat} {peak : Nat} (e : execEpochEnd energy peak s = .next u) : Kept s u := by
  unfold execEpochEnd at e
  injection e with e
  subst e
  try dsimp only
  repeat' first
    | with_reducible exact Kept.refl _
    | with_reducible assumption
    | with_reducible apply kept_epochEnd

theorem kept_execMeteringCheckpoint {s u : State} {m : Measured} (e : execMeteringCheckpoint m s = .next u) : Kept s u := by
  unfold execMeteringCheckpoint at e
  injection e with e
  subst e
  try dsimp only
  repeat' first
    | with_reducible exact Kept.refl _
    | with_reducible assumption
    | simp only [Kept.upd_iff]

theorem kept_execExtentStaged {s u : State} {x : StagedExt} (e : execExtentStaged x s = .next u) : Kept s u := by
  unfold execExtentStaged at e
  injection e with e
  subst e
  try dsimp only
  repeat' first
    | with_reducible exact Kept.refl _
    | with_reducible assumption
    | with_reducible apply kept_extentStaged

theorem kept_execMirrorCopyReceived {s u : State} {q : Nat} (e : execMirrorCopyReceived q s = .next u) : Kept s u := by
  unfold execMirrorCopyReceived at e
  injection e with e
  subst e
  try dsimp only
  repeat' first
    | with_reducible exact Kept.refl _
    | with_reducible assumption
    | with_reducible apply kept_mirrorCopy

theorem kept_execMirrorConfirm {s u : State} {q : Nat} (e : execMirrorConfirm q s = .next u) : Kept s u := by
  unfold execMirrorConfirm at e
  injection e with e
  subst e
  try dsimp only
  repeat' first
    | with_reducible exact Kept.refl _
    | with_reducible assumption
    | with_reducible apply kept_updExt

theorem kept_execStageConfirm {s u : State} {q : Nat} (e : execStageConfirm q s = .next u) : Kept s u := by
  unfold execStageConfirm at e
  injection e with e
  subst e
  try dsimp only
  repeat' first
    | with_reducible exact Kept.refl _
    | with_reducible assumption
    | with_reducible apply kept_stageConfirm

theorem kept_execReservationRequest {s u : State} {t0 : Nat} {sg : Nat} {st : Stream} {blank : List Nat} (e : execReservationRequest t0 sg st blank s = .next u) : Kept s u := by
  unfold execReservationRequest at e
  injection e with e
  subst e
  try dsimp only
  repeat' first
    | with_reducible exact Kept.refl _
    | with_reducible assumption
    | with_reducible apply kept_reserve

theorem kept_execUnitReturn {s u : State} {t0 : Nat} {sg : Nat} {st : Stream} {m : Nat} (e : execUnitReturn t0 sg st m s = .next u) : Kept s u := by
  unfold execUnitReturn at e
  injection e with e
  subst e
  try dsimp only
  repeat' first
    | with_reducible exact Kept.refl _
    | with_reducible assumption
    | with_reducible apply kept_unitReturn

theorem kept_execRowTimerExpiry {s u : State} {sg : Nat} {st : Stream} (e : execRowTimerExpiry sg st s = .next u) : Kept s u := by
  unfold execRowTimerExpiry at e
  injection e with e
  subst e
  try dsimp only
  repeat' first
    | with_reducible exact Kept.refl _
    | with_reducible assumption
    | with_reducible apply kept_rowTimer

theorem kept_execParityUnitReceived {s u : State} {sg : Nat} {b : Nat} {i : Nat} {m : Nat} {d : Bytes} (e : execParityUnitReceived sg b i m d s = .next u) : Kept s u := by
  unfold execParityUnitReceived at e
  injection e with e
  subst e
  try dsimp only
  repeat' first
    | with_reducible exact Kept.refl _
    | with_reducible assumption
    | with_reducible apply kept_parityUnit

theorem kept_execRowProgramDone {s u : State} {sg : Nat} {b : Nat} {i : Nat} (e : execRowProgramDone sg b i s = .next u) : Kept s u := by
  unfold execRowProgramDone at e
  injection e with e
  subst e
  try dsimp only
  repeat' first
    | with_reducible exact Kept.refl _
    | with_reducible assumption
    | with_reducible apply kept_rowProgrammed

theorem kept_execProgramFailure {s u : State} {sg : Nat} {b : Nat} {i : Nat} {m : Nat} (e : execProgramFailure sg b i m s = .next u) : Kept s u := by
  unfold execProgramFailure at e
  injection e with e
  subst e
  try dsimp only
  repeat' first
    | with_reducible exact Kept.refl _
    | with_reducible assumption
    | with_reducible apply kept_programFailed

theorem kept_execSeqPadTimer {s u : State} {sg : Nat} {st : Stream} (e : execSeqPadTimer sg st s = .next u) : Kept s u := by
  unfold execSeqPadTimer at e
  injection e with e
  subst e
  try dsimp only
  repeat' first
    | with_reducible exact Kept.refl _
    | with_reducible assumption
    | with_reducible apply kept_seqPad

theorem kept_execWriteSequenceLease {s u : State} {t0 : Nat} (e : execWriteSequenceLease t0 s = .next u) : Kept s u := by
  unfold execWriteSequenceLease at e
  injection e with e
  subst e
  try dsimp only
  repeat' first
    | with_reducible exact Kept.refl _
    | with_reducible assumption
    | with_reducible apply kept_seqLeaseNew

theorem kept_execHeadroomLeaseRequest {s u : State} {t0 : Nat} {n : Nat} (e : execHeadroomLeaseRequest t0 n s = .next u) : Kept s u := by
  unfold execHeadroomLeaseRequest at e
  injection e with e
  subst e
  try dsimp only
  repeat' first
    | with_reducible exact Kept.refl _
    | with_reducible assumption
    | with_reducible apply kept_headroomLease

theorem kept_execSlcBufferRecompute {s u : State} (e : execSlcBufferRecompute s = .next u) : Kept s u := by
  unfold execSlcBufferRecompute at e
  injection e with e
  subst e
  try dsimp only
  repeat' first
    | with_reducible exact Kept.refl _
    | with_reducible assumption
    | with_reducible apply kept_slcRecompute

theorem kept_execPromotionStart {s u : State} {sg : Nat} (e : execPromotionStart sg s = .next u) : Kept s u := by
  unfold execPromotionStart at e
  injection e with e
  subst e
  try dsimp only
  repeat' first
    | with_reducible exact Kept.refl _
    | with_reducible assumption
    | with_reducible apply kept_promotionStart

theorem kept_execReclaimRescore {s u : State} (e : execReclaimRescore s = .next u) : Kept s u := by
  unfold execReclaimRescore at e
  injection e with e
  subst e
  try dsimp only
  repeat' first
    | with_reducible exact Kept.refl _
    | with_reducible assumption
    | with_reducible apply kept_rescore

theorem kept_execLivenessQuery {s u : State} {sg : Nat} {b : Nat} {addr : Nat} (e : execLivenessQuery sg b addr s = .next u) : Kept s u := by
  unfold execLivenessQuery at e
  injection e with e
  subst e
  try dsimp only
  repeat' first
    | with_reducible exact Kept.refl _
    | with_reducible assumption
    | with_reducible apply kept_livenessQuery

theorem kept_execRelocationCommitted {s u : State} {sg : Nat} {b : Nat} (e : execRelocationCommitted sg b s = .next u) : Kept s u := by
  unfold execRelocationCommitted at e
  injection e with e
  subst e
  try dsimp only
  repeat' first
    | with_reducible exact Kept.refl _
    | with_reducible assumption
    | with_reducible apply kept_relocationCommitted

theorem kept_execEraseDrainEnd {s u : State} {sg : Nat} {b : Nat} (e : execEraseDrainEnd sg b s = .next u) : Kept s u := by
  unfold execEraseDrainEnd at e
  injection e with e
  subst e
  try dsimp only
  repeat' first
    | with_reducible exact Kept.refl _
    | with_reducible assumption
    | with_reducible apply kept_eraseDrain

theorem kept_execNandEraseDone {s u : State} {sg : Nat} {b : Nat} {m : Nat} (e : execNandEraseDone sg b m s = .next u) : Kept s u := by
  unfold execNandEraseDone at e
  injection e with e
  subst e
  try dsimp only
  repeat' first
    | with_reducible exact Kept.refl _
    | with_reducible assumption
    | with_reducible apply kept_eraseDone

theorem kept_execEraseFailure {s u : State} {sg : Nat} {b : Nat} {m : Nat} {blank : List Nat} (e : execEraseFailure sg b m blank s = .next u) : Kept s u := by
  unfold execEraseFailure at e
  injection e with e
  subst e
  try dsimp only
  repeat' first
    | with_reducible exact Kept.refl _
    | with_reducible assumption
    | with_reducible apply kept_eraseFailed

theorem kept_execCensusRegion {s u : State} {n : Nat} {r : Nat} (e : execCensusRegion n r s = .next u) : Kept s u := by
  unfold execCensusRegion at e
  injection e with e
  subst e
  try dsimp only
  repeat' first
    | with_reducible exact Kept.refl _
    | with_reducible assumption
    | with_reducible apply kept_censusRegion

theorem kept_execSummaryRebuildDone {s u : State} {t0 : Nat} (e : execSummaryRebuildDone t0 s = .next u) : Kept s u := by
  unfold execSummaryRebuildDone at e
  injection e with e
  subst e
  try dsimp only
  repeat' first
    | with_reducible exact Kept.refl _
    | with_reducible assumption
    | with_reducible apply kept_summaryDone

theorem kept_execSweepRowsProgrammed {s u : State} {id : Nat} (e : execSweepRowsProgrammed id s = .next u) : Kept s u := by
  unfold execSweepRowsProgrammed at e
  injection e with e
  subst e
  try dsimp only
  repeat' first
    | with_reducible exact Kept.refl _
    | with_reducible assumption
    | with_reducible apply kept_sweepRows

theorem kept_execSweepEnd {s u : State} {id : Nat} (e : execSweepEnd id s = .next u) : Kept s u := by
  unfold execSweepEnd at e
  injection e with e
  subst e
  try dsimp only
  repeat' first
    | with_reducible exact Kept.refl _
    | with_reducible assumption
    | with_reducible apply kept_sweepDone

theorem kept_execSweepLogExpiry {s u : State} {id : Nat} (e : execSweepLogExpiry id s = .next u) : Kept s u := by
  unfold execSweepLogExpiry at e
  injection e with e
  subst e
  try dsimp only
  repeat' first
    | with_reducible exact Kept.refl _
    | with_reducible assumption
    | with_reducible apply kept_sweepExpire

theorem kept_execSetFeaturesSecureDeallocation {s u : State} {a : Adm} {n : Nat} {v : Nat} (e : execSetFeaturesSecureDeallocation a n v s = .next u) : Kept s u := by
  unfold execSetFeaturesSecureDeallocation at e
  injection e with e
  subst e
  try dsimp only
  repeat' first
    | with_reducible exact Kept.refl _
    | with_reducible assumption
    | with_reducible apply kept_setSecure
    | with_reducible apply kept_runAdmin
    | simp only [Kept.upd_iff]
    | (intro _; try dsimp only [id])

theorem kept_execGetFeaturesSecureDeallocation {s u : State} {a : Adm} {n : Nat} (e : execGetFeaturesSecureDeallocation a n s = .next u) : Kept s u := by
  unfold execGetFeaturesSecureDeallocation at e
  injection e with e
  subst e
  try dsimp only
  repeat' first
    | with_reducible exact Kept.refl _
    | with_reducible assumption
    | with_reducible apply kept_getSecure
    | with_reducible apply kept_runAdmin
    | simp only [Kept.upd_iff]
    | (intro _; try dsimp only [id])

theorem kept_execMedEnable {s u : State} {t0 : Nat} {v : Nat} (e : execMedEnable t0 v s = .next u) : Kept s u := by
  unfold execMedEnable at e
  injection e with e
  subst e
  try dsimp only
  repeat' first
    | with_reducible exact Kept.refl _
    | with_reducible assumption
    | with_reducible apply kept_medEnable
    | with_reducible apply kept_tileWrite
    | simp only [Kept.upd_iff]
    | (intro _; try dsimp only [id])

theorem kept_execChannelTrainingStep {s u : State} {c : Nat} {ok : Bool} {found : List Nat} {unexpected : List Nat} {bad : List (Nat × Nat)} (e : execChannelTrainingStep c ok found unexpected bad s = .next u) : Kept s u := by
  unfold execChannelTrainingStep at e
  injection e with e
  subst e
  try dsimp only
  repeat' first
    | with_reducible exact Kept.refl _
    | with_reducible assumption
    | with_reducible apply kept_trainingStep

theorem kept_execTrainingBurst {s u : State} {c : Nat} {margin : Nat} (e : execTrainingBurst c margin s = .next u) : Kept s u := by
  unfold execTrainingBurst at e
  injection e with e
  subst e
  try dsimp only
  repeat' first
    | with_reducible exact Kept.refl _
    | with_reducible assumption
    | with_reducible apply kept_trainingBurst

theorem kept_execTrackingBurstDue {s u : State} {c : Nat} {l : Nat} {margin : Nat} (e : execTrackingBurstDue c l margin s = .next u) : Kept s u := by
  unfold execTrackingBurstDue at e
  injection e with e
  subst e
  try dsimp only
  repeat' first
    | with_reducible exact Kept.refl _
    | with_reducible assumption
    | with_reducible apply kept_trackingDue

theorem kept_execChRateDown {s u : State} {c : Nat} {trained : Bool} (e : execChRateDown c trained s = .next u) : Kept s u := by
  unfold execChRateDown at e
  injection e with e
  subst e
  try dsimp only
  repeat' first
    | with_reducible exact Kept.refl _
    | with_reducible assumption
    | with_reducible apply kept_chRateDown

theorem kept_execChRateUp {s u : State} {c : Nat} {holds : Bool} (e : execChRateUp c holds s = .next u) : Kept s u := by
  unfold execChRateUp at e
  injection e with e
  subst e
  try dsimp only
  repeat' first
    | with_reducible exact Kept.refl _
    | with_reducible assumption
    | with_reducible apply kept_chRateUp

theorem kept_execNandReadDone {s u : State} {o : Nat} (e : execNandReadDone o s = .next u) : Kept s u := by
  unfold execNandReadDone at e
  injection e with e
  subst e
  try dsimp only
  repeat' first
    | with_reducible exact Kept.refl _
    | with_reducible assumption
    | with_reducible apply kept_nandReadDone

theorem kept_execLdpcDecodeDone {s u : State} {o : Nat} {words : List (Bytes × Option Bytes)} {levels : List (Nat × Nat × Nat)} (e : execLdpcDecodeDone o words levels s = .next u) : Kept s u := by
  unfold execLdpcDecodeDone at e
  injection e with e
  subst e
  try dsimp only
  repeat' first
    | with_reducible exact Kept.refl _
    | with_reducible assumption
    | with_reducible apply kept_ldpcDecodeDone

theorem kept_execReconstructionDone {s u : State} {o : Nat} {lostCws : List Nat} {data : Bytes} (e : execReconstructionDone o lostCws data s = .next u) : Kept s u := by
  unfold execReconstructionDone at e
  injection e with e
  subst e
  try dsimp only
  repeat' first
    | with_reducible exact Kept.refl _
    | with_reducible assumption
    | with_reducible apply kept_reconstructed

theorem kept_execNandProgramDone {s u : State} {sg : Nat} {b : Nat} {i : Nat} {m : Nat} {final : Bool} (e : execNandProgramDone sg b i m final s = .next u) : Kept s u := by
  unfold execNandProgramDone at e
  injection e with e
  subst e
  try dsimp only
  repeat' first
    | with_reducible exact Kept.refl _
    | with_reducible assumption
    | with_reducible apply kept_nandProgramDone

theorem kept_execNandSuspendDone {s u : State} {d : Nat} {us : Nat} (e : execNandSuspendDone d us s = .next u) : Kept s u := by
  unfold execNandSuspendDone at e
  injection e with e
  subst e
  try dsimp only
  repeat' first
    | with_reducible exact Kept.refl _
    | with_reducible assumption
    | with_reducible apply kept_suspendDone

theorem kept_execSuspendWaitExpiry {s u : State} {o : Nat} (e : execSuspendWaitExpiry o s = .next u) : Kept s u := by
  unfold execSuspendWaitExpiry at e
  injection e with e
  subst e
  try dsimp only
  repeat' first
    | with_reducible exact Kept.refl _
    | with_reducible assumption
    | with_reducible apply kept_suspendWait

theorem kept_execResumeMinExpiry {s u : State} {d : Nat} (e : execResumeMinExpiry d s = .next u) : Kept s u := by
  unfold execResumeMinExpiry at e
  injection e with e
  subst e
  try dsimp only
  repeat' first
    | with_reducible exact Kept.refl _
    | with_reducible assumption
    | with_reducible apply kept_trySuspend
    | with_reducible apply kept_updDie

theorem kept_execDieReadyTimeout {s u : State} {d : Nat} (e : execDieReadyTimeout d s = .next u) : Kept s u := by
  unfold execDieReadyTimeout at e
  injection e with e
  subst e
  try dsimp only
  repeat' first
    | with_reducible exact Kept.refl _
    | with_reducible assumption
    | with_reducible apply kept_dieTimeout

theorem kept_execPatrolRead {s u : State} {d : Nat} {blk : Nat} {page : Nat} {w : PatrolWorst} (e : execPatrolRead d blk page w s = .next u) : Kept s u := by
  unfold execPatrolRead at e
  injection e with e
  subst e
  try dsimp only
  repeat' first
    | with_reducible exact Kept.refl _
    | with_reducible assumption
    | with_reducible apply kept_patrolRead

theorem kept_execDisturbLimit {s u : State} {d : Nat} {blk : Nat} (e : execDisturbLimit d blk s = .next u) : Kept s u := by
  unfold execDisturbLimit at e
  injection e with e
  subst e
  try dsimp only
  repeat' first
    | with_reducible exact Kept.refl _
    | with_reducible assumption
    | with_reducible apply kept_disturbLimit

theorem kept_execReadLevelSave {s u : State} {t0 : Nat} (e : execReadLevelSave t0 s = .next u) : Kept s u := by
  unfold execReadLevelSave at e
  injection e with e
  subst e
  try dsimp only
  repeat' first
    | with_reducible exact Kept.refl _
    | with_reducible assumption
    | simp only [Kept.upd_iff]

theorem kept_execFingerprintReport {s u : State} {sg : Nat} {b : Nat} {i : Nat} {m : Nat} {p : Nat} {q : Nat} (e : execFingerprintReport sg b i m p q s = .next u) : Kept s u := by
  unfold execFingerprintReport at e
  injection e with e
  subst e
  try dsimp only
  repeat' first
    | with_reducible exact Kept.refl _
    | with_reducible assumption
    | with_reducible apply kept_fingerprint

theorem kept_execParityMismatchLocate {s u : State} {sg : Nat} {b : Nat} {i : Nat} {sp : Bytes} {sq : Bytes} (e : execParityMismatchLocate sg b i sp sq s = .next u) : Kept s u := by
  unfold execParityMismatchLocate at e
  injection e with e
  subst e
  try dsimp only
  repeat' first
    | with_reducible exact Kept.refl _
    | with_reducible assumption
    | with_reducible apply kept_mismatchLocate

theorem kept_execRowStoreExpiry {s u : State} {sg : Nat} {b : Nat} {i : Nat} (e : execRowStoreExpiry sg b i s = .next u) : Kept s u := by
  unfold execRowStoreExpiry at e
  injection e with e
  subst e
  try dsimp only
  repeat' first
    | with_reducible exact Kept.refl _
    | with_reducible assumption
    | with_reducible apply kept_rowStoreExpiry

theorem kept_execLostRangeSearch {s u : State} {sg : Nat} {b : Nat} {i : Nat} {m : Nat} (e : execLostRangeSearch sg b i m s = .next u) : Kept s u := by
  unfold execLostRangeSearch at e
  injection e with e
  subst e
  try dsimp only
  repeat' first
    | with_reducible exact Kept.refl _
    | with_reducible assumption
    | with_reducible apply kept_lostSearch

theorem kept_execHealBandStart {s u : State} {sg : Nat} (e : execHealBandStart sg s = .next u) : Kept s u := by
  unfold execHealBandStart at e
  injection e with e
  subst e
  try dsimp only
  repeat' first
    | with_reducible exact Kept.refl _
    | with_reducible assumption
    | with_reducible apply kept_healStart

theorem kept_execSubstDone {s u : State} {sg : Nat} {b : Nat} {m : Nat} (e : execSubstDone sg b m s = .next u) : Kept s u := by
  unfold execSubstDone at e
  injection e with e
  subst e
  try dsimp only
  repeat' first
    | with_reducible exact Kept.refl _
    | with_reducible assumption
    | with_reducible apply kept_substDone

theorem kept_execVerifyStart {s u : State} {t0 : Nat} {v : Nat} (e : execVerifyStart t0 v s = .next u) : Kept s u := by
  unfold execVerifyStart at e
  injection e with e
  subst e
  try dsimp only
  repeat' first
    | with_reducible exact Kept.refl _
    | with_reducible assumption
    | with_reducible apply kept_verifyStart
    | with_reducible apply kept_tileWrite
    | simp only [Kept.upd_iff]
    | (intro _; try dsimp only [id])

theorem kept_execVerifyEnd {s u : State} {t0 : Nat} {us : List VerifyUnit} (e : execVerifyEnd t0 us s = .next u) : Kept s u := by
  unfold execVerifyEnd at e
  injection e with e
  subst e
  try dsimp only
  repeat' first
    | with_reducible exact Kept.refl _
    | with_reducible assumption
    | with_reducible apply kept_verifyEnd

theorem kept_execSjTailTimer {s u : State} {sg : Nat} (e : execSjTailTimer sg s = .next u) : Kept s u := by
  unfold execSjTailTimer at e
  injection e with e
  subst e
  try dsimp only
  repeat' first
    | with_reducible exact Kept.refl _
    | with_reducible assumption
    | with_reducible apply kept_startClosed
    | with_reducible apply kept_putSj
    | simp only [Kept.upd_iff]
    | (intro _; try dsimp only [id])
    | split

theorem kept_execSjSnapshot {s u : State} {sg : Nat} (e : execSjSnapshot sg s = .next u) : Kept s u := by
  unfold execSjSnapshot at e
  injection e with e
  subst e
  try dsimp only
  repeat' first
    | with_reducible exact Kept.refl _
    | with_reducible assumption
    | with_reducible apply kept_putSj
    | simp only [Kept.upd_iff]
    | (intro _; try dsimp only [id])
    | split

theorem kept_execSjCopyLost {s u : State} {sg : Nat} {k : Nat} (e : execSjCopyLost sg k s = .next u) : Kept s u := by
  unfold execSjCopyLost at e
  injection e with e
  subst e
  try dsimp only
  repeat' first
    | with_reducible exact Kept.refl _
    | with_reducible assumption
    | with_reducible apply kept_putSj
    | with_reducible apply kept_logEv
    | simp only [Kept.upd_iff]
    | (intro _; try dsimp only [id])
    | split

theorem kept_execSjCopyRestored {s u : State} {sg : Nat} {k : Nat} (e : execSjCopyRestored sg k s = .next u) : Kept s u := by
  unfold execSjCopyRestored at e
  injection e with e
  subst e
  try dsimp only
  repeat' first
    | with_reducible exact Kept.refl _
    | with_reducible assumption
    | with_reducible apply kept_putSj
    | with_reducible apply kept_logEv
    | simp only [Kept.upd_iff]
    | (intro _; try dsimp only [id])
    | split

theorem kept_execMapCheckpoint {s u : State} {slot : Nat} (e : execMapCheckpoint slot s = .next u) : Kept s u := by
  unfold execMapCheckpoint at e
  injection e with e
  subst e
  try dsimp only
  repeat' first
    | with_reducible exact Kept.refl _
    | with_reducible assumption
    | with_reducible apply kept_mapCheckpoint

theorem kept_execMapLookup {s u : State} {id : Nat} {lba : Nat} (e : execMapLookup id lba s = .next u) : Kept s u := by
  unfold execMapLookup at e
  injection e with e
  subst e
  try dsimp only
  repeat' first
    | with_reducible exact Kept.refl _
    | with_reducible assumption
    | with_reducible apply kept_walk

theorem kept_execMapUpdate {s u : State} {src : MapSrc} (e : execMapUpdate src s = .next u) : Kept s u := by
  unfold execMapUpdate at e
  injection e with e
  subst e
  try dsimp only
  repeat' first
    | with_reducible exact Kept.refl _
    | with_reducible assumption
    | with_reducible apply kept_updateRelocate
    | with_reducible apply kept_updateCommand
    | simp only [Kept.upd_iff]
    | (intro _; try dsimp only [id])
    | split

theorem kept_execMapFetchDone {s u : State} {n : Nat} {r : Nat} {x : ReadRecord} (e : execMapFetchDone n r x s = .next u) : Kept s u := by
  unfold execMapFetchDone at e
  injection e with e
  subst e
  try dsimp only
  repeat' first
    | with_reducible exact Kept.refl _
    | with_reducible assumption
    | with_reducible apply kept_fetchDone

theorem kept_execWriteBackStart {s u : State} {slot : Option Nat} {n : Nat} {x : RecordAt} (e : execWriteBackStart slot n x s = .next u) : Kept s u := by
  unfold execWriteBackStart at e
  injection e with e
  subst e
  try dsimp only
  repeat' first
    | with_reducible exact Kept.refl _
    | with_reducible assumption
    | with_reducible apply kept_dirStart
    | with_reducible apply kept_pageStart
    | simp only [Kept.upd_iff]
    | (intro _; try dsimp only [id])
    | split

theorem kept_execWriteBackProgrammed {s u : State} {slot : Option Nat} {n : Nat} {i : Nat} {addr : Nat} {len : Nat} (e : execWriteBackProgrammed slot n i addr len s = .next u) : Kept s u := by
  unfold execWriteBackProgrammed at e
  injection e with e
  subst e
  try dsimp only
  repeat' first
    | with_reducible exact Kept.refl _
    | with_reducible assumption
    | with_reducible apply kept_dirDone
    | with_reducible apply kept_pageDone
    | simp only [Kept.upd_iff]
    | (intro _; try dsimp only [id])
    | split

theorem kept_execJournalEntryMirrored {s u : State} {id : Nat} {r : Nat} (e : execJournalEntryMirrored id r s = .next u) : Kept s u := by
  unfold execJournalEntryMirrored at e
  injection e with e
  subst e
  try dsimp only
  repeat' first
    | with_reducible exact Kept.refl _
    | with_reducible assumption
    | with_reducible apply kept_entryMirrored

theorem kept_execJournalQuarterTimer {s u : State} {slot : Nat} (e : execJournalQuarterTimer slot s = .next u) : Kept s u := by
  unfold execJournalQuarterTimer at e
  injection e with e
  subst e
  try dsimp only
  repeat' first
    | with_reducible exact Kept.refl _
    | with_reducible assumption
    | with_reducible apply kept_quarterTimer

theorem kept_execJournalSegmentProgrammed {s u : State} {slot : Nat} (e : execJournalSegmentProgrammed slot s = .next u) : Kept s u := by
  unfold execJournalSegmentProgrammed at e
  injection e with e
  subst e
  try dsimp only
  repeat' first
    | with_reducible exact Kept.refl _
    | with_reducible assumption
    | with_reducible apply kept_segmentDone

theorem kept_execForwardReceived {s u : State} {id : Nat} (e : execForwardReceived id s = .next u) : Kept s u := by
  unfold execForwardReceived at e
  injection e with e
  subst e
  try dsimp only
  repeat' first
    | with_reducible exact Kept.refl _
    | with_reducible assumption
    | with_reducible apply kept_forwardReceived

theorem kept_execForwardConfirm {s u : State} {id : Nat} (e : execForwardConfirm id s = .next u) : Kept s u := by
  unfold execForwardConfirm at e
  injection e with e
  subst e
  try dsimp only
  repeat' first
    | with_reducible exact Kept.refl _
    | with_reducible assumption
    | with_reducible apply kept_forwardConfirm

theorem kept_execForwardTimeout {s u : State} {id : Nat} (e : execForwardTimeout id s = .next u) : Kept s u := by
  unfold execForwardTimeout at e
  injection e with e
  subst e
  try dsimp only
  repeat' first
    | with_reducible exact Kept.refl _
    | with_reducible assumption
    | with_reducible apply kept_forwardTimeout

theorem kept_execMapConfirm {s u : State} {id : Nat} {r : Nat} {mirror : Bool} (e : execMapConfirm id r mirror s = .next u) : Kept s u := by
  unfold execMapConfirm at e
  injection e with e
  subst e
  try dsimp only
  repeat' first
    | with_reducible exact Kept.refl _
    | with_reducible assumption
    | with_reducible apply kept_mapConfirm

theorem kept_execAdoptedRecordLoad {s u : State} {slot : Nat} {n : Nat} {x : ReadDir} (e : execAdoptedRecordLoad slot n x s = .next u) : Kept s u := by
  unfold execAdoptedRecordLoad at e
  injection e with e
  subst e
  try dsimp only
  repeat' first
    | with_reducible exact Kept.refl _
    | with_reducible assumption
    | with_reducible apply kept_adoptedLoad

theorem kept_execSlotHandBack {s u : State} {slot : Nat} {n : Nat} {i : Nat} (e : execSlotHandBack slot n i s = .next u) : Kept s u := by
  unfold execSlotHandBack at e
  injection e with e
  subst e
  try dsimp only
  repeat' first
    | with_reducible exact Kept.refl _
    | with_reducible assumption
    | with_reducible apply kept_handBack

theorem kept_execRegionCoalesce {s u : State} {n : Nat} {r : Nat} (e : execRegionCoalesce n r s = .next u) : Kept s u := by
  unfold execRegionCoalesce at e
  injection e with e
  subst e
  try dsimp only
  repeat' first
    | with_reducible exact Kept.refl _
    | with_reducible assumption
    | with_reducible apply kept_coalesce

theorem kept_execMapReplayDone {s u : State} {slot : Nat} (e : execMapReplayDone slot s = .next u) : Kept s u := by
  unfold execMapReplayDone at e
  injection e with e
  subst e
  try dsimp only
  repeat' first
    | with_reducible exact Kept.refl _
    | with_reducible assumption
    | with_reducible apply kept_mapReplayDone

theorem kept_execRead {s u : State} {id : Nat} (e : execRead id s = .next u) : Kept s u := by
  unfold execRead at e
  injection e with e
  subst e
  try dsimp only
  repeat' first
    | with_reducible exact Kept.refl _
    | with_reducible assumption
    | with_reducible apply kept_beginRead
    | with_reducible apply kept_startIo
    | simp only [Kept.upd_iff]
    | (intro _; try dsimp only [id])

theorem kept_execWrite {s u : State} {id : Nat} (e : execWrite id s = .next u) : Kept s u := by
  unfold execWrite at e
  injection e with e
  subst e
  try dsimp only
  repeat' first
    | with_reducible exact Kept.refl _
    | with_reducible assumption
    | with_reducible apply kept_startWrite
    | with_reducible apply kept_startIo
    | with_reducible apply kept_processWrite
    | simp only [Kept.upd_iff]
    | (intro _; try dsimp only [id])
    | split

theorem kept_execFlush {s u : State} {id : Nat} (e : execFlush id s = .next u) : Kept s u := by
  unfold execFlush at e
  injection e with e
  subst e
  try dsimp only
  repeat' first
    | with_reducible exact Kept.refl _
    | with_reducible assumption
    | with_reducible apply kept_startFlush
    | with_reducible apply kept_startIo
    | simp only [Kept.upd_iff]
    | (intro _; try dsimp only [id])

theorem kept_execCompare {s u : State} {id : Nat} (e : execCompare id s = .next u) : Kept s u := by
  unfold execCompare at e
  injection e with e
  subst e
  try dsimp only
  repeat' first
    | with_reducible exact Kept.refl _
    | with_reducible assumption
    | with_reducible apply kept_startCompare
    | with_reducible apply kept_startIo
    | simp only [Kept.upd_iff]
    | (intro _; try dsimp only [id])

theorem kept_execVerify {s u : State} {id : Nat} (e : execVerify id s = .next u) : Kept s u := by
  unfold execVerify at e
  injection e with e
  subst e
  try dsimp only
  repeat' first
    | with_reducible exact Kept.refl _
    | with_reducible assumption
    | with_reducible apply kept_startIo
    | with_reducible apply kept_startRead
    | simp only [Kept.upd_iff]
    | (intro _; try dsimp only [id])

theorem kept_execWriteZeroes {s u : State} {id : Nat} (e : execWriteZeroes id s = .next u) : Kept s u := by
  unfold execWriteZeroes at e
  injection e with e
  subst e
  try dsimp only
  repeat' first
    | with_reducible exact Kept.refl _
    | with_reducible assumption
    | with_reducible apply kept_startWriteZeroes
    | with_reducible apply kept_startIo
    | simp only [Kept.upd_iff]
    | (intro _; try dsimp only [id])

theorem kept_execDatasetManagement {s u : State} {id : Nat} (e : execDatasetManagement id s = .next u) : Kept s u := by
  unfold execDatasetManagement at e
  injection e with e
  subst e
  try dsimp only
  repeat' first
    | with_reducible exact Kept.refl _
    | with_reducible assumption
    | with_reducible apply kept_startDsm
    | with_reducible apply kept_startIo
    | simp only [Kept.upd_iff]
    | (intro _; try dsimp only [id])

theorem kept_execEventRaised {s u : State} {storeOk : Bool} (e : execEventRaised storeOk s = .next u) : Kept s u := by
  unfold execEventRaised at e
  injection e with e
  subst e
  try dsimp only
  repeat' first
    | with_reducible exact Kept.refl _
    | with_reducible assumption
    | with_reducible apply kept_eventRaised

theorem kept_execTokenRefill {s u : State} (e : execTokenRefill s = .next u) : Kept s u := by
  unfold execTokenRefill at e
  injection e with e
  subst e
  try dsimp only
  repeat' first
    | with_reducible exact Kept.refl _
    | with_reducible assumption
    | with_reducible apply kept_tokenRefill

theorem kept_execArchiveAgeTimer {s u : State} (e : execArchiveAgeTimer s = .next u) : Kept s u := by
  unfold execArchiveAgeTimer at e
  injection e with e
  subst e
  try dsimp only
  repeat' first
    | with_reducible exact Kept.refl _
    | with_reducible assumption
    | with_reducible apply kept_archiveAge

theorem kept_execArchiveProgrammed {s u : State} (e : execArchiveProgrammed s = .next u) : Kept s u := by
  unfold execArchiveProgrammed at e
  injection e with e
  subst e
  try dsimp only
  repeat' first
    | with_reducible exact Kept.refl _
    | with_reducible assumption
    | with_reducible apply kept_archiveProgrammed

theorem kept_execEvrCursorWrite {s u : State} {seq : Nat} (e : execEvrCursorWrite seq s = .next u) : Kept s u := by
  unfold execEvrCursorWrite at e
  injection e with e
  subst e
  try dsimp only
  repeat' first
    | with_reducible exact Kept.refl _
    | with_reducible assumption
    | with_reducible apply kept_latchAt
    | simp only [Kept.upd_iff]
    | (intro _; try dsimp only [id])
    | split

theorem kept_execBandFetchDone {s u : State} (e : execBandFetchDone s = .next u) : Kept s u := by
  unfold execBandFetchDone at e
  injection e with e
  subst e
  try dsimp only
  repeat' first
    | with_reducible exact Kept.refl _
    | with_reducible assumption
    | with_reducible apply kept_endBandOps
    | with_reducible apply kept_updEvr
    | simp only [Kept.upd_iff]
    | (intro _; try dsimp only [id])
    | split

theorem kept_execCompressJob {s u : State} {t0 : Nat} {j : Submitted CmpJob} (e : execCompressJob t0 j s = .next u) : Kept s u := by
  unfold execCompressJob at e
  injection e with e
  subst e
  try dsimp only
  repeat' first
    | with_reducible exact Kept.refl _
    | with_reducible assumption
    | with_reducible apply kept_cmpJob

theorem kept_execDecompressJob {s u : State} {t0 : Nat} {j : Submitted CmpJob} (e : execDecompressJob t0 j s = .next u) : Kept s u := by
  unfold execDecompressJob at e
  injection e with e
  subst e
  try dsimp only
  repeat' first
    | with_reducible exact Kept.refl _
    | with_reducible assumption
    | with_reducible apply kept_cmpJob

theorem kept_execCrcOnlyJob {s u : State} {t0 : Nat} {j : Submitted CmpJob} (e : execCrcOnlyJob t0 j s = .next u) : Kept s u := by
  unfold execCrcOnlyJob at e
  injection e with e
  subst e
  try dsimp only
  repeat' first
    | with_reducible exact Kept.refl _
    | with_reducible assumption
    | with_reducible apply kept_cmpJob

theorem kept_execStreamSlotTimeout {s u : State} {t0 : Nat} {k : Nat} (e : execStreamSlotTimeout t0 k s = .next u) : Kept s u := by
  unfold execStreamSlotTimeout at e
  injection e with e
  subst e
  try dsimp only
  repeat' first
    | with_reducible exact Kept.refl _
    | with_reducible assumption
    | with_reducible apply kept_freeSlot
    | with_reducible apply kept_logEv
    | simp only [Kept.upd_iff]
    | (intro _; try dsimp only [id])
    | split

theorem kept_execCmpEnable {s u : State} {t0 : Nat} {v : Nat} (e : execCmpEnable t0 v s = .next u) : Kept s u := by
  unfold execCmpEnable at e
  injection e with e
  subst e
  try dsimp only
  repeat' first
    | with_reducible exact Kept.refl _
    | with_reducible assumption
    | with_reducible apply kept_cmpEnable
    | with_reducible apply kept_tileWrite
    | simp only [Kept.upd_iff]
    | (intro _; try dsimp only [id])

theorem kept_execKeyLoad {s u : State} {a : Adm} {n : Nat} {w : Bytes} (e : execKeyLoad a n w s = .next u) : Kept s u := by
  unfold execKeyLoad at e
  injection e with e
  subst e
  try dsimp only
  repeat' first
    | with_reducible exact Kept.refl _
    | with_reducible assumption
    | with_reducible apply kept_keyLoad
    | with_reducible apply kept_runAdmin
    | simp only [Kept.upd_iff]
    | (intro _; try dsimp only [id])

theorem kept_execKeyLoadConfirm {s u : State} {n : Nat} {t0 : Nat} {ok : Bool} (e : execKeyLoadConfirm n t0 ok s = .next u) : Kept s u := by
  unfold execKeyLoadConfirm at e
  injection e with e
  subst e
  try dsimp only
  repeat' first
    | with_reducible exact Kept.refl _
    | with_reducible assumption
    | with_reducible apply kept_keyConfirm

theorem kept_execKeySlotClear {s u : State} {n : Nat} {readback : List Bool} (e : execKeySlotClear n readback s = .next u) : Kept s u := by
  unfold execKeySlotClear at e
  injection e with e
  subst e
  try dsimp only
  repeat' first
    | with_reducible exact Kept.refl _
    | with_reducible assumption
    | with_reducible apply kept_keySlotClear

theorem kept_execCryEnable {s u : State} {t0 : Nat} {v : Nat} {failed : Nat} (e : execCryEnable t0 v failed s = .next u) : Kept s u := by
  unfold execCryEnable at e
  injection e with e
  subst e
  try dsimp only
  repeat' first
    | with_reducible exact Kept.refl _
    | with_reducible assumption
    | with_reducible apply kept_cryEnable
    | with_reducible apply kept_tileWrite
    | simp only [Kept.upd_iff]
    | (intro _; try dsimp only [id])

theorem kept_execEncryptJob {s u : State} {t0 : Nat} {j : Submitted CryJob} {f : Option Nat} (e : execEncryptJob t0 j f s = .next u) : Kept s u := by
  unfold execEncryptJob at e
  injection e with e
  subst e
  try dsimp only
  repeat' first
    | with_reducible exact Kept.refl _
    | with_reducible assumption
    | with_reducible apply kept_cipherJob

theorem kept_execDecryptJob {s u : State} {t0 : Nat} {j : Submitted CryJob} {f : Option Nat} (e : execDecryptJob t0 j f s = .next u) : Kept s u := by
  unfold execDecryptJob at e
  injection e with e
  subst e
  try dsimp only
  repeat' first
    | with_reducible exact Kept.refl _
    | with_reducible assumption
    | with_reducible apply kept_cipherJob

theorem kept_execDigestDirectOpen {s u : State} {t0 : Nat} {owner : Nat} {alg : Nat} {key : HmacKey} {expected : Option Bytes} (e : execDigestDirectOpen t0 owner alg key expected s = .next u) : Kept s u := by
  unfold execDigestDirectOpen at e
  injection e with e
  subst e
  try dsimp only
  repeat' first
    | with_reducible exact Kept.refl _
    | with_reducible assumption
    | with_reducible apply kept_digBusy
    | with_reducible apply kept_digSays
    | with_reducible apply kept_putCtx
    | simp only [Kept.upd_iff]
    | (intro _; try dsimp only [id])
    | split

theorem kept_execDigestSnoopOpen {s u : State} {t0 : Nat} {owner : Nat} {source : Nat} {len : Nat} {alg : Nat} {key : HmacKey} {expected : Option Bytes} (e : execDigestSnoopOpen t0 owner source len alg key expected s = .next u) : Kept s u := by
  unfold execDigestSnoopOpen at e
  injection e with e
  subst e
  try dsimp only
  repeat' first
    | with_reducible exact Kept.refl _
    | with_reducible assumption
    | with_reducible apply kept_digBusy
    | with_reducible apply kept_digSays
    | with_reducible apply kept_putCtx
    | simp only [Kept.upd_iff]
    | (intro _; try dsimp only [id])
    | split

theorem kept_execDigestData {s u : State} {t0 : Nat} {k : Nat} {owner : Nat} {d : Bytes} (e : execDigestData t0 k owner d s = .next u) : Kept s u := by
  unfold execDigestData at e
  injection e with e
  subst e
  try dsimp only
  repeat' first
    | with_reducible exact Kept.refl _
    | with_reducible assumption
    | with_reducible apply kept_digestData

theorem kept_execSnoopStreamEnd {s u : State} {t0 : Nat} {k : Nat} {d : Bytes} (e : execSnoopStreamEnd t0 k d s = .next u) : Kept s u := by
  unfold execSnoopStreamEnd at e
  injection e with e
  subst e
  try dsimp only
  repeat' first
    | with_reducible exact Kept.refl _
    | with_reducible assumption
    | with_reducible apply kept_snoopEnd

theorem kept_execDigestFinish {s u : State} {t0 : Nat} {k : Nat} {owner : Nat} {expected : Option Bytes} (e : execDigestFinish t0 k owner expected s = .next u) : Kept s u := by
  unfold execDigestFinish at e
  injection e with e
  subst e
  try dsimp only
  repeat' first
    | with_reducible exact Kept.refl _
    | with_reducible assumption
    | with_reducible apply kept_digestFinish

theorem kept_execDigestRelease {s u : State} {t0 : Nat} {k : Nat} (e : execDigestRelease t0 k s = .next u) : Kept s u := by
  unfold execDigestRelease at e
  injection e with e
  subst e
  try dsimp only
  repeat' first
    | with_reducible exact Kept.refl _
    | with_reducible assumption
    | with_reducible apply kept_digSays
    | with_reducible apply kept_freeCtx
    | simp only [Kept.upd_iff]
    | (intro _; try dsimp only [id])
    | split

theorem kept_execSignatureVerifyRequest {s u : State} {t0 : Nat} {owner : Nat} {key : Nat} {pub : Bytes} {sig : Bytes} (e : execSignatureVerifyRequest t0 owner key pub sig s = .next u) : Kept s u := by
  unfold execSignatureVerifyRequest at e
  injection e with e
  subst e
  try dsimp only
  repeat' first
    | with_reducible exact Kept.refl _
    | with_reducible assumption
    | with_reducible apply kept_vfyRequest

theorem kept_execSignatureVerifyDone {s u : State} {t0 : Nat} (e : execSignatureVerifyDone t0 s = .next u) : Kept s u := by
  unfold execSignatureVerifyDone at e
  injection e with e
  subst e
  try dsimp only
  repeat' first
    | with_reducible exact Kept.refl _
    | with_reducible assumption
    | with_reducible apply kept_vfyDone

theorem kept_execNamespaceCreate {s u : State} {a : Adm} {r : NsCreate} (e : execNamespaceCreate a r s = .next u) : Kept s u := by
  unfold execNamespaceCreate at e
  injection e with e
  subst e
  try dsimp only
  repeat' first
    | with_reducible exact Kept.refl _
    | with_reducible assumption
    | with_reducible apply kept_nsCreate
    | with_reducible apply kept_runAdmin
    | simp only [Kept.upd_iff]
    | (intro _; try dsimp only [id])

theorem kept_execNamespaceDelete {s u : State} {a : Adm} {n : Nat} (e : execNamespaceDelete a n s = .next u) : Kept s u := by
  unfold execNamespaceDelete at e
  injection e with e
  subst e
  try dsimp only
  repeat' first
    | with_reducible exact Kept.refl _
    | with_reducible assumption
    | with_reducible apply kept_nsDelete
    | with_reducible apply kept_runAdmin
    | simp only [Kept.upd_iff]
    | (intro _; try dsimp only [id])

theorem kept_execNamespaceDeleteDrain {s u : State} {n : Nat} (e : execNamespaceDeleteDrain n s = .next u) : Kept s u := by
  unfold execNamespaceDeleteDrain at e
  injection e with e
  subst e
  try dsimp only
  repeat' first
    | with_reducible exact Kept.refl _
    | with_reducible assumption
    | with_reducible apply kept_nsDeleteDrain

theorem kept_execNamespaceUnmapEnd {s u : State} {n : Nat} (e : execNamespaceUnmapEnd n s = .next u) : Kept s u := by
  unfold execNamespaceUnmapEnd at e
  injection e with e
  subst e
  try dsimp only
  repeat' first
    | with_reducible exact Kept.refl _
    | with_reducible assumption
    | with_reducible apply kept_nsUnmapEnd

theorem kept_execNamespaceAttach {s u : State} {a : Adm} {n : Nat} {byTenant : Bool} {l : List Nat} (e : execNamespaceAttach a n byTenant l s = .next u) : Kept s u := by
  unfold execNamespaceAttach at e
  injection e with e
  subst e
  try dsimp only
  repeat' first
    | with_reducible exact Kept.refl _
    | with_reducible assumption
    | with_reducible apply kept_nsAttach
    | with_reducible apply kept_runAdmin
    | simp only [Kept.upd_iff]
    | (intro _; try dsimp only [id])

theorem kept_execNamespaceDetach {s u : State} {a : Adm} {n : Nat} {byTenant : Bool} {l : List Nat} (e : execNamespaceDetach a n byTenant l s = .next u) : Kept s u := by
  unfold execNamespaceDetach at e
  injection e with e
  subst e
  try dsimp only
  repeat' first
    | with_reducible exact Kept.refl _
    | with_reducible assumption
    | with_reducible apply kept_nsDetach
    | with_reducible apply kept_runAdmin
    | simp only [Kept.upd_iff]
    | (intro _; try dsimp only [id])

theorem kept_execDetachDrain {s u : State} {n : Nat} (e : execDetachDrain n s = .next u) : Kept s u := by
  unfold execDetachDrain at e
  injection e with e
  subst e
  try dsimp only
  repeat' first
    | with_reducible exact Kept.refl _
    | with_reducible assumption
    | with_reducible apply kept_detachDrain

theorem kept_execFormatNvm {s u : State} {a : Adm} {n : Nat} {ses : Nat} {lbaf : Nat} (e : execFormatNvm a n ses lbaf s = .next u) : Kept s u := by
  unfold execFormatNvm at e
  injection e with e
  subst e
  try dsimp only
  repeat' first
    | with_reducible exact Kept.refl _
    | with_reducible assumption
    | with_reducible apply kept_formatNvm
    | with_reducible apply kept_runAdmin
    | simp only [Kept.upd_iff]
    | (intro _; try dsimp only [id])

theorem kept_execSanitize {s u : State} {a : Adm} {action : Nat} (e : execSanitize a action s = .next u) : Kept s u := by
  unfold execSanitize at e
  injection e with e
  subst e
  try dsimp only
  repeat' first
    | with_reducible exact Kept.refl _
    | with_reducible assumption
    | with_reducible apply kept_sanitizeAll
    | with_reducible apply kept_runAdmin
    | simp only [Kept.upd_iff]
    | (intro _; try dsimp only [id])

theorem kept_execFormatUnmapEnd {s u : State} {n : Nat} (e : execFormatUnmapEnd n s = .next u) : Kept s u := by
  unfold execFormatUnmapEnd at e
  injection e with e
  subst e
  try dsimp only
  repeat' first
    | with_reducible exact Kept.refl _
    | with_reducible assumption
    | with_reducible apply kept_formatUnmapEnd

theorem kept_execNamespaceLimits {s u : State} {a : Adm} {n : Nat} {d : Bytes} (e : execNamespaceLimits a n d s = .next u) : Kept s u := by
  unfold execNamespaceLimits at e
  injection e with e
  subst e
  try dsimp only
  repeat' first
    | with_reducible exact Kept.refl _
    | with_reducible assumption
    | with_reducible apply kept_nsLimits
    | with_reducible apply kept_runAdmin
    | simp only [Kept.upd_iff]
    | (intro _; try dsimp only [id])

theorem kept_execTenantSet {s u : State} {a : Adm} {d : Bytes} (e : execTenantSet a d s = .next u) : Kept s u := by
  unfold execTenantSet at e
  injection e with e
  subst e
  try dsimp only
  repeat' first
    | with_reducible exact Kept.refl _
    | with_reducible assumption
    | with_reducible apply kept_tenantSet
    | with_reducible apply kept_runAdmin
    | simp only [Kept.upd_iff]
    | (intro _; try dsimp only [id])

theorem kept_execTenantGet {s u : State} {a : Adm} {id : Nat} (e : execTenantGet a id s = .next u) : Kept s u := by
  unfold execTenantGet at e
  injection e with e
  subst e
  try dsimp only
  repeat' first
    | with_reducible exact Kept.refl _
    | with_reducible assumption
    | with_reducible apply kept_tenantGet
    | with_reducible apply kept_runAdmin
    | simp only [Kept.upd_iff]
    | (intro _; try dsimp only [id])

theorem kept_execTenantDelete {s u : State} {a : Adm} {id : Nat} (e : execTenantDelete a id s = .next u) : Kept s u := by
  unfold execTenantDelete at e
  injection e with e
  subst e
  try dsimp only
  repeat' first
    | with_reducible exact Kept.refl _
    | with_reducible assumption
    | with_reducible apply kept_tenantDelete
    | with_reducible apply kept_runAdmin
    | simp only [Kept.upd_iff]
    | (intro _; try dsimp only [id])

theorem kept_execTcpConnectionRequest {s u : State} {t0 : Nat} {p : Nat} {i : Nat} {q : TcpReq} (e : execTcpConnectionRequest t0 p i q s = .next u) : Kept s u := by
  unfold execTcpConnectionRequest at e
  injection e with e
  subst e
  try dsimp only
  repeat' first
    | with_reducible exact Kept.refl _
    | with_reducible assumption
    | with_reducible apply kept_tcpRequest

theorem kept_execRdmaConnectionRequest {s u : State} {t0 : Nat} {p : Nat} {q : RdmaReq} (e : execRdmaConnectionRequest t0 p q s = .next u) : Kept s u := by
  unfold execRdmaConnectionRequest at e
  injection e with e
  subst e
  try dsimp only
  repeat' first
    | with_reducible exact Kept.refl _
    | with_reducible assumption
    | with_reducible apply kept_rdmaRequest

theorem kept_execCapsuleReceived {s u : State} {id : Nat} {cap : Capsule} (e : execCapsuleReceived id cap s = .next u) : Kept s u := by
  unfold execCapsuleReceived at e
  injection e with e
  subst e
  try dsimp only
  repeat' first
    | with_reducible exact Kept.refl _
    | with_reducible assumption
    | with_reducible apply kept_capsuleArrives

theorem kept_execH2cdataPdu {s u : State} {conn : Nat} {cmd : Nat} {off : Nat} {d : Bytes} {h : Bool} {dd : Bool} (e : execH2cdataPdu conn cmd off d h dd s = .next u) : Kept s u := by
  unfold execH2cdataPdu at e
  injection e with e
  subst e
  try dsimp only
  repeat' first
    | with_reducible exact Kept.refl _
    | with_reducible assumption
    | with_reducible apply kept_h2cData

theorem kept_execRdmaReadCompletion {s u : State} {cmd : Nat} {ok : Bool} {d : Bytes} (e : execRdmaReadCompletion cmd ok d s = .next u) : Kept s u := by
  unfold execRdmaReadCompletion at e
  injection e with e
  subst e
  try dsimp only
  repeat' first
    | with_reducible exact Kept.refl _
    | with_reducible assumption
    | with_reducible apply kept_rdmaReadDone

theorem kept_execHostMemoryReadCompletion {s u : State} {cmd : Nat} {r : HostRead} (e : execHostMemoryReadCompletion cmd r s = .next u) : Kept s u := by
  unfold execHostMemoryReadCompletion at e
  injection e with e
  subst e
  try dsimp only
  repeat' first
    | with_reducible exact Kept.refl _
    | with_reducible assumption
    | with_reducible apply kept_hostReadDone

theorem kept_execSubmissionQueueTailDoorbell {s u : State} {cntlid : Nat} {sqid : Nat} {v : Nat} (e : execSubmissionQueueTailDoorbell cntlid sqid v s = .next u) : Kept s u := by
  unfold execSubmissionQueueTailDoorbell at e
  injection e with e
  subst e
  try dsimp only
  repeat' first
    | with_reducible exact Kept.refl _
    | with_reducible assumption
    | with_reducible apply kept_sqTail

theorem kept_execCompletionQueueHeadDoorbell {s u : State} {cntlid : Nat} {cqid : Nat} {v : Nat} (e : execCompletionQueueHeadDoorbell cntlid cqid v s = .next u) : Kept s u := by
  unfold execCompletionQueueHeadDoorbell at e
  injection e with e
  subst e
  try dsimp only
  repeat' first
    | with_reducible exact Kept.refl _
    | with_reducible assumption
    | with_reducible apply kept_cqHead

theorem kept_execInterruptAggregationTime {s u : State} {cntlid : Nat} {vector : Nat} (e : execInterruptAggregationTime cntlid vector s = .next u) : Kept s u := by
  unfold execInterruptAggregationTime at e
  injection e with e
  subst e
  try dsimp only
  repeat' first
    | with_reducible exact Kept.refl _
    | with_reducible assumption
    | with_reducible apply kept_aggregationTime

theorem kept_execFabricsConnect {s u : State} {id : Nat} {d : ConnectData} (e : execFabricsConnect id d s = .next u) : Kept s u := by
  unfold execFabricsConnect at e
  injection e with e
  subst e
  try dsimp only
  repeat' first
    | with_reducible exact Kept.refl _
    | with_reducible assumption
    | with_reducible apply kept_fabricsConnect
    | with_reducible apply kept_runAdmin
    | simp only [Kept.upd_iff]
    | (intro _; try dsimp only [id])

theorem kept_execControllerEnable {s u : State} {e0 : Nat} {fn : Nat} {a : AdminRings} {cc : CcFields} (e : execControllerEnable e0 fn a cc s = .next u) : Kept s u := by
  unfold execControllerEnable at e
  injection e with e
  subst e
  try dsimp only
  repeat' first
    | with_reducible exact Kept.refl _
    | with_reducible assumption
    | with_reducible apply kept_ctrlEnable

theorem kept_execControllerReset {s u : State} {id : Nat} (e : execControllerReset id s = .next u) : Kept s u := by
  unfold execControllerReset at e
  injection e with e
  subst e
  try dsimp only
  repeat' first
    | with_reducible exact Kept.refl _
    | with_reducible assumption
    | with_reducible apply kept_ctrlReset

theorem kept_execShutdown {s u : State} {id : Nat} {_abrupt : Bool} (e : execShutdown id _abrupt s = .next u) : Kept s u := by
  unfold execShutdown at e
  injection e with e
  subst e
  try dsimp only
  repeat' first
    | with_reducible exact Kept.refl _
    | with_reducible assumption
    | with_reducible apply kept_ctrlShutdown

theorem kept_execFunctionLevelReset {s u : State} {e0 : Nat} {fn : Nat} (e : execFunctionLevelReset e0 fn s = .next u) : Kept s u := by
  unfold execFunctionLevelReset at e
  injection e with e
  subst e
  try dsimp only
  repeat' first
    | with_reducible exact Kept.refl _
    | with_reducible assumption
    | with_reducible apply kept_functionReset

theorem kept_execConventionalReset {s u : State} {e0 : Nat} (e : execConventionalReset e0 s = .next u) : Kept s u := by
  unfold execConventionalReset at e
  injection e with e
  subst e
  try dsimp only
  repeat' first
    | with_reducible exact Kept.refl _
    | with_reducible assumption
    | with_reducible apply kept_conventionalReset

theorem kept_execKeepAliveExpiry {s u : State} {id : Nat} (e : execKeepAliveExpiry id s = .next u) : Kept s u := by
  unfold execKeepAliveExpiry at e
  injection e with e
  subst e
  try dsimp only
  repeat' first
    | with_reducible exact Kept.refl _
    | with_reducible assumption
    | with_reducible apply kept_kaExpiry

theorem kept_execTransportConnectionClosed {s u : State} {id : Nat} (e : execTransportConnectionClosed id s = .next u) : Kept s u := by
  unfold execTransportConnectionClosed at e
  injection e with e
  subst e
  try dsimp only
  repeat' first
    | with_reducible exact Kept.refl _
    | with_reducible assumption
    | with_reducible apply kept_connClosed

theorem kept_execNeighbourResolutionRequest {s u : State} {t0 : Nat} {p : Nat} {vlan : Nat} {target : Bytes} (e : execNeighbourResolutionRequest t0 p vlan target s = .next u) : Kept s u := by
  unfold execNeighbourResolutionRequest at e
  injection e with e
  subst e
  try dsimp only
  repeat' first
    | with_reducible exact Kept.refl _
    | with_reducible assumption
    | with_reducible apply kept_neighbour

theorem kept_execEchoRequest {s u : State} {t0 : Nat} {p : Nat} {vlan : Nat} {target : Bytes} {data : Bytes} (e : execEchoRequest t0 p vlan target data s = .next u) : Kept s u := by
  unfold execEchoRequest at e
  injection e with e
  subst e
  try dsimp only
  repeat' first
    | with_reducible exact Kept.refl _
    | with_reducible assumption
    | with_reducible apply kept_echo

theorem kept_execPriorityPauseFrame {s u : State} {t0 : Nat} {p : Nat} {prio : Option Nat} {quanta : Nat} (e : execPriorityPauseFrame t0 p prio quanta s = .next u) : Kept s u := by
  unfold execPriorityPauseFrame at e
  injection e with e
  subst e
  try dsimp only
  repeat' first
    | with_reducible exact Kept.refl _
    | with_reducible assumption
    | with_reducible apply kept_pauseFrame

theorem kept_execCommandFetch {s u : State} {t0 : Nat} {entry : HostEntries} (e : execCommandFetch t0 entry s = .next u) : Kept s u := by
  unfold execCommandFetch at e
  injection e with e
  subst e
  try dsimp only
  repeat' first
    | with_reducible exact Kept.refl _
    | with_reducible assumption
    | with_reducible apply kept_commandFetch

theorem kept_execHeldCommandAdmit {s u : State} {t0 : Nat} {n : Nat} (e : execHeldCommandAdmit t0 n s = .next u) : Kept s u := by
  unfold execHeldCommandAdmit at e
  injection e with e
  subst e
  try dsimp only
  repeat' first
    | with_reducible exact Kept.refl _
    | with_reducible assumption
    | with_reducible apply kept_admitOne

theorem kept_execRateInterval {s u : State} (e : execRateInterval s = .next u) : Kept s u := by
  unfold execRateInterval at e
  injection e with e
  subst e
  try dsimp only
  repeat' first
    | with_reducible exact Kept.refl _
    | with_reducible assumption
    | with_reducible apply kept_rateInterval

theorem kept_execUrgentBudgetInterval {s u : State} (e : execUrgentBudgetInterval s = .next u) : Kept s u := by
  unfold execUrgentBudgetInterval at e
  injection e with e
  subst e
  try dsimp only
  repeat' first
    | with_reducible exact Kept.refl _
    | with_reducible assumption
    | with_reducible apply kept_budgetInterval

theorem kept_execPropertyGet {s u : State} {a : Adm} {off : Nat} (e : execPropertyGet a off s = .next u) : Kept s u := by
  unfold execPropertyGet at e
  injection e with e
  subst e
  try dsimp only
  repeat' first
    | with_reducible exact Kept.refl _
    | with_reducible assumption
    | with_reducible apply kept_propertyGet
    | with_reducible apply kept_runAdmin
    | simp only [Kept.upd_iff]
    | (intro _; try dsimp only [id])

theorem kept_execPropertySet {s u : State} {a : Adm} {off : Nat} {v : Nat} (e : execPropertySet a off v s = .next u) : Kept s u := by
  unfold execPropertySet at e
  injection e with e
  subst e
  try dsimp only
  repeat' first
    | with_reducible exact Kept.refl _
    | with_reducible assumption
    | with_reducible apply kept_propertySet
    | with_reducible apply kept_runAdmin
    | simp only [Kept.upd_iff]
    | (intro _; try dsimp only [id])

theorem kept_execDisconnect {s u : State} {a : Adm} {qid : Nat} (e : execDisconnect a qid s = .next u) : Kept s u := by
  unfold execDisconnect at e
  injection e with e
  subst e
  try dsimp only
  repeat' first
    | with_reducible exact Kept.refl _
    | with_reducible assumption
    | with_reducible apply kept_disconnectQ
    | with_reducible apply kept_runAdmin
    | simp only [Kept.upd_iff]
    | (intro _; try dsimp only [id])

theorem kept_execKeepAlive {s u : State} {a : Adm} (e : execKeepAlive a s = .next u) : Kept s u := by
  unfold execKeepAlive at e
  injection e with e
  subst e
  try dsimp only
  repeat' first
    | with_reducible exact Kept.refl _
    | with_reducible assumption
    | with_reducible apply kept_keepAlive
    | with_reducible apply kept_runAdmin
    | simp only [Kept.upd_iff]
    | (intro _; try dsimp only [id])

theorem kept_execCreateIoSubmissionQueue {s u : State} {a : Adm} {sqid : Nat} {q : RingAt} {cqid : Nat} {qprio : Nat} (e : execCreateIoSubmissionQueue a sqid q cqid qprio s = .next u) : Kept s u := by
  unfold execCreateIoSubmissionQueue at e
  injection e with e
  subst e
  try dsimp only
  repeat' first
    | with_reducible exact Kept.refl _
    | with_reducible assumption
    | with_reducible apply kept_createSq
    | with_reducible apply kept_runAdmin
    | simp only [Kept.upd_iff]
    | (intro _; try dsimp only [id])

theorem kept_execCreateIoCompletionQueue {s u : State} {a : Adm} {cqid : Nat} {q : RingAt} {vector : Nat} {ien : Bool} (e : execCreateIoCompletionQueue a cqid q vector ien s = .next u) : Kept s u := by
  unfold execCreateIoCompletionQueue at e
  injection e with e
  subst e
  try dsimp only
  repeat' first
    | with_reducible exact Kept.refl _
    | with_reducible assumption
    | with_reducible apply kept_createCq
    | with_reducible apply kept_runAdmin
    | simp only [Kept.upd_iff]
    | (intro _; try dsimp only [id])

theorem kept_execDeleteIoSubmissionQueue {s u : State} {a : Adm} {sqid : Nat} (e : execDeleteIoSubmissionQueue a sqid s = .next u) : Kept s u := by
  unfold execDeleteIoSubmissionQueue at e
  injection e with e
  subst e
  try dsimp only
  repeat' first
    | with_reducible exact Kept.refl _
    | with_reducible assumption
    | with_reducible apply kept_deleteSq
    | with_reducible apply kept_runAdmin
    | simp only [Kept.upd_iff]
    | (intro _; try dsimp only [id])

theorem kept_execDeleteIoCompletionQueue {s u : State} {a : Adm} {cqid : Nat} (e : execDeleteIoCompletionQueue a cqid s = .next u) : Kept s u := by
  unfold execDeleteIoCompletionQueue at e
  injection e with e
  subst e
  try dsimp only
  repeat' first
    | with_reducible exact Kept.refl _
    | with_reducible assumption
    | with_reducible apply kept_deleteCq
    | with_reducible apply kept_runAdmin
    | simp only [Kept.upd_iff]
    | (intro _; try dsimp only [id])

theorem kept_execAsynchronousEventRequest {s u : State} {a : Adm} (e : execAsynchronousEventRequest a s = .next u) : Kept s u := by
  unfold execAsynchronousEventRequest at e
  injection e with e
  subst e
  try dsimp only
  repeat' first
    | with_reducible exact Kept.refl _
    | with_reducible assumption
    | with_reducible apply kept_asyncRequest
    | with_reducible apply kept_runAdmin
    | simp only [Kept.upd_iff]
    | (intro _; try dsimp only [id])

theorem kept_execAbort {s u : State} {a : Adm} {sqid : Nat} {cid : Nat} (e : execAbort a sqid cid s = .next u) : Kept s u := by
  unfold execAbort at e
  injection e with e
  subst e
  try dsimp only
  repeat' first
    | with_reducible exact Kept.refl _
    | with_reducible assumption
    | with_reducible apply kept_abortCmd
    | with_reducible apply kept_runAdmin
    | simp only [Kept.upd_iff]
    | (intro _; try dsimp only [id])

theorem kept_execQueueThaw {s u : State} {a : Adm} {sqid : Nat} (e : execQueueThaw a sqid s = .next u) : Kept s u := by
  unfold execQueueThaw at e
  injection e with e
  subst e
  try dsimp only
  repeat' first
    | with_reducible exact Kept.refl _
    | with_reducible assumption
    | with_reducible apply kept_queueThaw
    | with_reducible apply kept_runAdmin
    | simp only [Kept.upd_iff]
    | (intro _; try dsimp only [id])

theorem kept_execSetFeaturesNumberOfQueues {s u : State} {a : Adm} {nsqr : Nat} {ncqr : Nat} (e : execSetFeaturesNumberOfQueues a nsqr ncqr s = .next u) : Kept s u := by
  unfold execSetFeaturesNumberOfQueues at e
  injection e with e
  subst e
  try dsimp only
  repeat' first
    | with_reducible exact Kept.refl _
    | with_reducible assumption
    | with_reducible apply kept_setNumQueues
    | with_reducible apply kept_withCtrl
    | with_reducible apply kept_runAdmin
    | simp only [Kept.upd_iff]
    | (intro _; try dsimp only [id])

theorem kept_execSetFeaturesArbitration {s u : State} {a : Adm} {burst : Nat} {lpw : Nat} {mpw : Nat} {hpw : Nat} (e : execSetFeaturesArbitration a burst lpw mpw hpw s = .next u) : Kept s u := by
  unfold execSetFeaturesArbitration at e
  injection e with e
  subst e
  try dsimp only
  repeat' first
    | with_reducible exact Kept.refl _
    | with_reducible assumption
    | with_reducible apply kept_setArbitration
    | with_reducible apply kept_withCtrl
    | with_reducible apply kept_runAdmin
    | simp only [Kept.upd_iff]
    | (intro _; try dsimp only [id])

theorem kept_execSetFeaturesInterruptCoalescing {s u : State} {a : Adm} {fid : Nat} {v : Nat} (e : execSetFeaturesInterruptCoalescing a fid v s = .next u) : Kept s u := by
  unfold execSetFeaturesInterruptCoalescing at e
  injection e with e
  subst e
  try dsimp only
  repeat' first
    | with_reducible exact Kept.refl _
    | with_reducible assumption
    | with_reducible apply kept_setCoalescing
    | with_reducible apply kept_withCtrl
    | with_reducible apply kept_runAdmin
    | simp only [Kept.upd_iff]
    | (intro _; try dsimp only [id])

theorem kept_execSetFeaturesOrderingMode {s u : State} {a : Adm} {v : Nat} (e : execSetFeaturesOrderingMode a v s = .next u) : Kept s u := by
  unfold execSetFeaturesOrderingMode at e
  injection e with e
  subst e
  try dsimp only
  repeat' first
    | with_reducible exact Kept.refl _
    | with_reducible assumption
    | with_reducible apply kept_setOrdering
    | with_reducible apply kept_withCtrl
    | with_reducible apply kept_runAdmin
    | simp only [Kept.upd_iff]
    | (intro _; try dsimp only [id])

theorem kept_execSetFeaturesQueueClass {s u : State} {a : Adm} {v : Nat} (e : execSetFeaturesQueueClass a v s = .next u) : Kept s u := by
  unfold execSetFeaturesQueueClass at e
  injection e with e
  subst e
  try dsimp only
  repeat' first
    | with_reducible exact Kept.refl _
    | with_reducible assumption
    | with_reducible apply kept_setQueueClass
    | with_reducible apply kept_withCtrl
    | with_reducible apply kept_runAdmin
    | simp only [Kept.upd_iff]
    | (intro _; try dsimp only [id])

theorem kept_execSetFeaturesQueueFreezeMode {s u : State} {a : Adm} {v : Nat} (e : execSetFeaturesQueueFreezeMode a v s = .next u) : Kept s u := by
  unfold execSetFeaturesQueueFreezeMode at e
  injection e with e
  subst e
  try dsimp only
  repeat' first
    | with_reducible exact Kept.refl _
    | with_reducible assumption
    | with_reducible apply kept_setFreezeMode
    | with_reducible apply kept_withCtrl
    | with_reducible apply kept_runAdmin
    | simp only [Kept.upd_iff]
    | (intro _; try dsimp only [id])

theorem kept_execGetFeatures {s u : State} {a : Adm} {fid : Nat} {v : Nat} (e : execGetFeatures a fid v s = .next u) : Kept s u := by
  unfold execGetFeatures at e
  injection e with e
  subst e
  try dsimp only
  repeat' first
    | with_reducible exact Kept.refl _
    | with_reducible assumption
    | with_reducible apply kept_getFeature
    | with_reducible apply kept_withCtrl
    | with_reducible apply kept_runAdmin
    | simp only [Kept.upd_iff]
    | (intro _; try dsimp only [id])

theorem kept_execGetFeaturesOrderingMode {s u : State} {a : Adm} (e : execGetFeaturesOrderingMode a s = .next u) : Kept s u := by
  unfold execGetFeaturesOrderingMode at e
  injection e with e
  subst e
  try dsimp only
  repeat' first
    | with_reducible exact Kept.refl _
    | with_reducible assumption
    | with_reducible apply kept_withCtrl
    | with_reducible apply kept_runAdmin
    | with_reducible apply kept_admDone
    | simp only [Kept.upd_iff]
    | (intro _; try dsimp only [id])

theorem kept_execGetFeaturesQueueClass {s u : State} {a : Adm} {sqid : Nat} (e : execGetFeaturesQueueClass a sqid s = .next u) : Kept s u := by
  unfold execGetFeaturesQueueClass at e
  injection e with e
  subst e
  try dsimp only
  repeat' first
    | with_reducible exact Kept.refl _
    | with_reducible assumption
    | with_reducible apply kept_queueValue
    | with_reducible apply kept_withCtrl
    | with_reducible apply kept_runAdmin
    | simp only [Kept.upd_iff]
    | (intro _; try dsimp only [id])

theorem kept_execGetFeaturesQueueFreezeMode {s u : State} {a : Adm} {sqid : Nat} (e : execGetFeaturesQueueFreezeMode a sqid s = .next u) : Kept s u := by
  unfold execGetFeaturesQueueFreezeMode at e
  injection e with e
  subst e
  try dsimp only
  repeat' first
    | with_reducible exact Kept.refl _
    | with_reducible assumption
    | with_reducible apply kept_queueValue
    | with_reducible apply kept_withCtrl
    | with_reducible apply kept_runAdmin
    | simp only [Kept.upd_iff]
    | (intro _; try dsimp only [id])

theorem kept_execStepReissue {s u : State} {id : Nat} (e : execStepReissue id s = .next u) : Kept s u := by
  unfold execStepReissue at e
  injection e with e
  subst e
  try dsimp only
  repeat' first
    | with_reducible exact Kept.refl _
    | with_reducible assumption
    | with_reducible apply kept_stepReissue

theorem kept_execCommandInterruptTimeout {s u : State} {id : Nat} (e : execCommandInterruptTimeout id s = .next u) : Kept s u := by
  unfold execCommandInterruptTimeout at e
  injection e with e
  subst e
  try dsimp only
  repeat' first
    | with_reducible exact Kept.refl _
    | with_reducible assumption
    | with_reducible apply kept_interruptTimeout

theorem kept_execDrcEnable {s u : State} {t0 : Nat} {v : Nat} (e : execDrcEnable t0 v s = .next u) : Kept s u := by
  unfold execDrcEnable at e
  injection e with e
  subst e
  try dsimp only
  repeat' first
    | with_reducible exact Kept.refl _
    | with_reducible assumption
    | with_reducible apply kept_drcEnable
    | with_reducible apply kept_tileWrite
    | simp only [Kept.upd_iff]
    | (intro _; try dsimp only [id])

theorem kept_execDramStartStep {s u : State} {t0 : Nat} {ok : Bool} (e : execDramStartStep t0 ok s = .next u) : Kept s u := by
  unfold execDramStartStep at e
  injection e with e
  subst e
  try dsimp only
  repeat' first
    | with_reducible exact Kept.refl _
    | with_reducible assumption
    | with_reducible apply kept_dramStartStep

theorem kept_execDramRead {s u : State} {t0 : Nat} {a : Submitted DramAcc} {beats : List Nat} (e : execDramRead t0 a beats s = .next u) : Kept s u := by
  unfold execDramRead at e
  injection e with e
  subst e
  try dsimp only
  repeat' first
    | with_reducible exact Kept.refl _
    | with_reducible assumption
    | with_reducible apply kept_dramRequest

theorem kept_execScrub {s u : State} {t0 : Nat} {a : DramAcc} {beats : List Nat} (e : execScrub t0 a beats s = .next u) : Kept s u := by
  unfold execScrub at e
  injection e with e
  subst e
  try dsimp only
  repeat' first
    | with_reducible exact Kept.refl _
    | with_reducible assumption
    | with_reducible apply kept_decodeBurst
    | simp only [Kept.upd_iff]
    | (intro _; try dsimp only [id])
    | split

theorem kept_execDramAlert {s u : State} {t0 : Nat} {a : DramAcc} {matched : Bool} {again : Bool} (e : execDramAlert t0 a matched again s = .next u) : Kept s u := by
  unfold execDramAlert at e
  injection e with e
  subst e
  try dsimp only
  repeat' first
    | with_reducible exact Kept.refl _
    | with_reducible assumption
    | with_reducible apply kept_dramAlert

theorem kept_execRefreshDue {s u : State} {t0 : Nat} {r : Nat} {inHand : Bool} (e : execRefreshDue t0 r inHand s = .next u) : Kept s u := by
  unfold execRefreshDue at e
  injection e with e
  subst e
  try dsimp only
  repeat' first
    | with_reducible exact Kept.refl _
    | with_reducible assumption
    | with_reducible apply kept_refreshDue

theorem kept_execTempPoll {s u : State} {t0 : Nat} {rs : List DramTemp} (e : execTempPoll t0 rs s = .next u) : Kept s u := by
  unfold execTempPoll at e
  injection e with e
  subst e
  try dsimp only
  repeat' first
    | with_reducible exact Kept.refl _
    | with_reducible assumption
    | with_reducible apply kept_tempPoll

theorem kept_execRowIdleClose {s u : State} {t0 : Nat} {sc : Nat} {r : Nat} {g : Nat} {b : Nat} (e : execRowIdleClose t0 sc r g b s = .next u) : Kept s u := by
  unfold execRowIdleClose at e
  injection e with e
  subst e
  try dsimp only
  repeat' first
    | with_reducible exact Kept.refl _
    | with_reducible assumption
    | with_reducible apply kept_updDram

theorem kept_execRankPowerDown {s u : State} {t0 : Nat} {r : Nat} (e : execRankPowerDown t0 r s = .next u) : Kept s u := by
  unfold execRankPowerDown at e
  injection e with e
  subst e
  try dsimp only
  repeat' first
    | with_reducible exact Kept.refl _
    | with_reducible assumption
    | with_reducible apply kept_updDram
    | simp only [Kept.upd_iff]
    | (intro _; try dsimp only [id])
    | split

theorem kept_execRetrainStep {s u : State} {t0 : Nat} {r : Nat} {wr : Nat} {rd : Nat} (e : execRetrainStep t0 r wr rd s = .next u) : Kept s u := by
  unfold execRetrainStep at e
  injection e with e
  subst e
  try dsimp only
  repeat' first
    | with_reducible exact Kept.refl _
    | with_reducible assumption
    | with_reducible apply kept_updDram

theorem kept_execDramMarginLow {s u : State} {t0 : Nat} {r : Nat} (e : execDramMarginLow t0 r s = .next u) : Kept s u := by
  unfold execDramMarginLow at e
  injection e with e
  subst e
  try dsimp only
  repeat' first
    | with_reducible exact Kept.refl _
    | with_reducible assumption
    | with_reducible apply kept_dramMarginLow

theorem kept_execDrcRestart {s u : State} {t0 : Nat} {v : Nat} (e : execDrcRestart t0 v s = .next u) : Kept s u := by
  unfold execDrcRestart at e
  injection e with e
  subst e
  try dsimp only
  repeat' first
    | with_reducible exact Kept.refl _
    | with_reducible assumption
    | with_reducible apply kept_drcRestart
    | with_reducible apply kept_tileWrite
    | simp only [Kept.upd_iff]
    | (intro _; try dsimp only [id])

theorem kept_execSensorConversion {s u : State} {t0 : Nat} {i : Nat} {r : Int} (e : execSensorConversion t0 i r s = .next u) : Kept s u := by
  unfold execSensorConversion at e
  injection e with e
  subst e
  try dsimp only
  repeat' first
    | with_reducible exact Kept.refl _
    | with_reducible assumption
    | with_reducible apply kept_sensorConversion

theorem kept_execSensorFault {s u : State} {t0 : Nat} {i : Nat} {cond : Nat} (e : execSensorFault t0 i cond s = .next u) : Kept s u := by
  unfold execSensorFault at e
  injection e with e
  subst e
  try dsimp only
  repeat' first
    | with_reducible exact Kept.refl _
    | with_reducible assumption
    | with_reducible apply kept_sensorFault

theorem kept_execSensorRestored {s u : State} {t0 : Nat} {i : Nat} (e : execSensorRestored t0 i s = .next u) : Kept s u := by
  unfold execSensorRestored at e
  injection e with e
  subst e
  try dsimp only
  repeat' first
    | with_reducible exact Kept.refl _
    | with_reducible assumption
    | with_reducible apply kept_sensorRestored

theorem kept_execThrottleStep {s u : State} {t0 : Nat} (e : execThrottleStep t0 s = .next u) : Kept s u := by
  unfold execThrottleStep at e
  injection e with e
  subst e
  try dsimp only
  repeat' first
    | with_reducible exact Kept.refl _
    | with_reducible assumption
    | with_reducible apply kept_raiseLevel
    | simp only [Kept.upd_iff]
    | (intro _; try dsimp only [id])
    | split

theorem kept_execThrottleFall {s u : State} {t0 : Nat} (e : execThrottleFall t0 s = .next u) : Kept s u := by
  unfold execThrottleFall at e
  injection e with e
  subst e
  try dsimp only
  repeat' first
    | with_reducible exact Kept.refl _
    | with_reducible assumption
    | with_reducible apply kept_throttleFall

theorem kept_execRateWindow {s u : State} {t0 : Nat} (e : execRateWindow t0 s = .next u) : Kept s u := by
  unfold execRateWindow at e
  injection e with e
  subst e
  try dsimp only
  repeat' first
    | with_reducible exact Kept.refl _
    | with_reducible assumption
    | with_reducible apply kept_rateWindow

theorem kept_execCompensationStep {s u : State} {_t : Nat} (e : execCompensationStep _t s = .next u) : Kept s u := by
  unfold execCompensationStep at e
  injection e with e
  subst e
  try dsimp only
  repeat' first
    | with_reducible exact Kept.refl _

theorem kept_execOperatingMinute {s u : State} (e : execOperatingMinute s = .next u) : Kept s u := by
  unfold execOperatingMinute at e
  injection e with e
  subst e
  try dsimp only
  repeat' first
    | with_reducible exact Kept.refl _
    | with_reducible assumption
    | with_reducible apply kept_operatingMinute
    | simp only [Kept.upd_iff]
    | (intro _; try dsimp only [id])
    | split

theorem kept_execPowerScaling {s u : State} {measured : Nat} {raw : Nat} (e : execPowerScaling measured raw s = .next u) : Kept s u := by
  unfold execPowerScaling at e
  injection e with e
  subst e
  try dsimp only
  repeat' first
    | with_reducible exact Kept.refl _
    | with_reducible assumption
    | with_reducible apply kept_powerScaling

theorem kept_execIsenseFault {s u : State} {cond : Nat} (e : execIsenseFault cond s = .next u) : Kept s u := by
  unfold execIsenseFault at e
  injection e with e
  subst e
  try dsimp only
  repeat' first
    | with_reducible exact Kept.refl _
    | with_reducible assumption
    | with_reducible apply kept_updPower
    | with_reducible apply kept_logEv
    | simp only [Kept.upd_iff]
    | (intro _; try dsimp only [id])
    | split

theorem kept_execIsenseRestored {s u : State} (e : execIsenseRestored s = .next u) : Kept s u := by
  unfold execIsenseRestored at e
  injection e with e
  subst e
  try dsimp only
  repeat' first
    | with_reducible exact Kept.refl _
    | with_reducible assumption
    | with_reducible apply kept_updPower

theorem kept_execPowerLimit {s u : State} {avg : Nat} {order : List Nat} (e : execPowerLimit avg order s = .next u) : Kept s u := by
  unfold execPowerLimit at e
  injection e with e
  subst e
  try dsimp only
  repeat' first
    | with_reducible exact Kept.refl _
    | with_reducible assumption
    | with_reducible apply kept_powerLimit

theorem kept_execPowerFailDeclared {s u : State} (e : execPowerFailDeclared s = .next u) : Kept s u := by
  unfold execPowerFailDeclared at e
  injection e with e
  subst e
  try dsimp only
  repeat' first
    | with_reducible exact Kept.refl _
    | with_reducible assumption
    | with_reducible apply kept_declareFailure

theorem kept_execPfWarn {s u : State} {pin : Nat} (e : execPfWarn pin s = .next u) : Kept s u := by
  unfold execPfWarn at e
  injection e with e
  subst e
  try dsimp only
  repeat' first
    | with_reducible exact Kept.refl _
    | with_reducible assumption
    | with_reducible apply kept_pfWarn

theorem kept_execSagEnd {s u : State} (e : execSagEnd s = .next u) : Kept s u := by
  unfold execSagEnd at e
  injection e with e
  subst e
  try dsimp only
  repeat' first
    | with_reducible exact Kept.refl _
    | with_reducible assumption
    | with_reducible apply kept_sagEnd

theorem kept_execBudgetRecompute {s u : State} {low : Nat} {now : Nat} (e : execBudgetRecompute low now s = .next u) : Kept s u := by
  unfold execBudgetRecompute at e
  injection e with e
  subst e
  try dsimp only
  repeat' first
    | with_reducible exact Kept.refl _
    | with_reducible assumption
    | with_reducible apply kept_budgetRecompute

theorem kept_execBankAbsent {s u : State} (e : execBankAbsent s = .next u) : Kept s u := by
  unfold execBankAbsent at e
  injection e with e
  subst e
  try dsimp only
  repeat' first
    | with_reducible exact Kept.refl _
    | with_reducible assumption
    | with_reducible apply kept_bankAbsent

theorem kept_execDischargeTestStart {s u : State} (e : execDischargeTestStart s = .next u) : Kept s u := by
  unfold execDischargeTestStart at e
  injection e with e
  subst e
  try dsimp only
  repeat' first
    | with_reducible exact Kept.refl _
    | with_reducible assumption
    | with_reducible apply kept_startTest
    | simp only [Kept.upd_iff]
    | (intro _; try dsimp only [id])
    | split

theorem kept_execTestInterval {s u : State} (e : execTestInterval s = .next u) : Kept s u := by
  unfold execTestInterval at e
  injection e with e
  subst e
  try dsimp only
  repeat' first
    | with_reducible exact Kept.refl _
    | with_reducible assumption
    | with_reducible apply kept_startTest
    | simp only [Kept.upd_iff]
    | (intro _; try dsimp only [id])
    | split

theorem kept_execHsenseRise {s u : State} (e : execHsenseRise s = .next u) : Kept s u := by
  unfold execHsenseRise at e
  injection e with e
  subst e
  try dsimp only
  repeat' first
    | with_reducible exact Kept.refl _
    | with_reducible assumption
    | with_reducible apply kept_startTest
    | simp only [Kept.upd_iff]
    | (intro _; try dsimp only [id])
    | split

theorem kept_execTestCharged {s u : State} {pin : Nat} (e : execTestCharged pin s = .next u) : Kept s u := by
  unfold execTestCharged at e
  injection e with e
  subst e
  try dsimp only
  repeat' first
    | with_reducible exact Kept.refl _
    | with_reducible assumption
    | with_reducible apply kept_testCharged

theorem kept_execTestEsrSample {s u : State} {pin : Nat} (e : execTestEsrSample pin s = .next u) : Kept s u := by
  unfold execTestEsrSample at e
  injection e with e
  subst e
  try dsimp only
  repeat' first
    | with_reducible exact Kept.refl _
    | with_reducible assumption
    | with_reducible apply kept_testEsr

theorem kept_execTestDischargeEnd {s u : State} {us : Nat} (e : execTestDischargeEnd us s = .next u) : Kept s u := by
  unfold execTestDischargeEnd at e
  injection e with e
  subst e
  try dsimp only
  repeat' first
    | with_reducible exact Kept.refl _
    | with_reducible assumption
    | with_reducible apply kept_testEnd

theorem kept_execTestTimeout {s u : State} (e : execTestTimeout s = .next u) : Kept s u := by
  unfold execTestTimeout at e
  injection e with e
  subst e
  try dsimp only
  repeat' first
    | with_reducible exact Kept.refl _
    | with_reducible assumption
    | with_reducible apply kept_testTimeout

theorem kept_execTestNow {s u : State} (e : execTestNow s = .next u) : Kept s u := by
  unfold execTestNow at e
  injection e with e
  subst e
  try dsimp only
  repeat' first
    | with_reducible exact Kept.refl _
    | with_reducible assumption
    | with_reducible apply kept_startTest
    | with_reducible apply kept_pkgWrite

theorem kept_execBankRelease {s u : State} (e : execBankRelease s = .next u) : Kept s u := by
  unfold execBankRelease at e
  injection e with e
  subst e
  try dsimp only
  repeat' first
    | with_reducible exact Kept.refl _
    | with_reducible assumption
    | with_reducible apply kept_closeTails
    | with_reducible apply kept_addCause
    | with_reducible apply kept_expireRows
    | with_reducible apply kept_pkgWrite
    | simp only [Kept.upd_iff]
    | (intro _; try dsimp only [id])

theorem kept_execBankSafe {s u : State} (e : execBankSafe s = .next u) : Kept s u := by
  unfold execBankSafe at e
  injection e with e
  subst e
  try dsimp only
  repeat' first
    | with_reducible exact Kept.refl _
    | with_reducible assumption
    | with_reducible apply kept_updPlp
    | simp only [Kept.upd_iff]
    | (intro _; try dsimp only [id])
    | split

theorem kept_execPrepareOff {s u : State} (e : execPrepareOff s = .next u) : Kept s u := by
  unfold execPrepareOff at e
  injection e with e
  subst e
  try dsimp only
  repeat' first
    | with_reducible exact Kept.refl _
    | with_reducible assumption
    | with_reducible apply kept_prepareOff
    | with_reducible apply kept_pkgWrite

theorem kept_execOffReady {s u : State} (e : execOffReady s = .next u) : Kept s u := by
  unfold execOffReady at e
  injection e with e
  subst e
  try dsimp only
  repeat' first
    | with_reducible exact Kept.refl _
    | with_reducible assumption
    | with_reducible apply kept_offReady

theorem kept_execDumpTileReport {s u : State} {t0 : Nat} {d : DumpDone} (e : execDumpTileReport t0 d s = .next u) : Kept s u := by
  unfold execDumpTileReport at e
  injection e with e
  subst e
  try dsimp only
  repeat' first
    | with_reducible exact Kept.refl _
    | with_reducible assumption
    | with_reducible apply kept_dumpReport

theorem kept_execRestartRecordTimeout {s u : State} {us : Nat} (e : execRestartRecordTimeout us s = .next u) : Kept s u := by
  unfold execRestartRecordTimeout at e
  injection e with e
  subst e
  try dsimp only
  repeat' first
    | with_reducible exact Kept.refl _
    | with_reducible assumption
    | with_reducible apply kept_restartTimeout

theorem kept_execPostDumpRestart {s u : State} (e : execPostDumpRestart s = .next u) : Kept s u := by
  unfold execPostDumpRestart at e
  injection e with e
  subst e
  try dsimp only
  repeat' first
    | with_reducible exact Kept.refl _
    | with_reducible assumption
    | with_reducible apply kept_enterRun
    | simp only [Kept.upd_iff]
    | (intro _; try dsimp only [id])
    | split

theorem kept_execHoldupRelease {s u : State} (e : execHoldupRelease s = .next u) : Kept s u := by
  unfold execHoldupRelease at e
  injection e with e
  subst e
  try dsimp only
  repeat' first
    | with_reducible exact Kept.refl _
    | with_reducible assumption
    | with_reducible apply kept_updPlp
    | with_reducible apply kept_emit
    | simp only [Kept.upd_iff]
    | (intro _; try dsimp only [id])
    | split

theorem kept_execRestart {s u : State} {kept : List ReadRow} {storeOk : Bool} (e : execRestart kept storeOk s = .next u) : Kept s u := by
  unfold execRestart at e
  injection e with e
  subst e
  try dsimp only
  repeat' first
    | with_reducible exact Kept.refl _
    | with_reducible assumption
    | with_reducible apply kept_restart

theorem kept_execDumpRelease {s u : State} (e : execDumpRelease s = .next u) : Kept s u := by
  unfold execDumpRelease at e
  injection e with e
  subst e
  try dsimp only
  repeat' first
    | with_reducible exact Kept.refl _
    | with_reducible assumption
    | with_reducible apply kept_dumpRelease

theorem kept_execOscillatorCalibration {s u : State} {ppm : Int} (e : execOscillatorCalibration ppm s = .next u) : Kept s u := by
  unfold execOscillatorCalibration at e
  injection e with e
  subst e
  try dsimp only
  repeat' first
    | with_reducible exact Kept.refl _
    | with_reducible assumption
    | with_reducible apply kept_updClk
    | simp only [Kept.upd_iff]
    | (intro _; try dsimp only [id])
    | split

theorem kept_execRefclkLost {s u : State} {r : Nat} (e : execRefclkLost r s = .next u) : Kept s u := by
  unfold execRefclkLost at e
  injection e with e
  subst e
  try dsimp only
  repeat' first
    | with_reducible exact Kept.refl _
    | with_reducible assumption
    | with_reducible apply kept_refclkLost
    | simp only [Kept.upd_iff]
    | (intro _; try dsimp only [id])
    | split

theorem kept_execRefclkRevert {s u : State} (e : execRefclkRevert s = .next u) : Kept s u := by
  unfold execRefclkRevert at e
  injection e with e
  subst e
  try dsimp only
  repeat' first
    | with_reducible exact Kept.refl _
    | with_reducible assumption
    | with_reducible apply kept_refclkRevert

theorem kept_execRefclkBothLost {s u : State} (e : execRefclkBothLost s = .next u) : Kept s u := by
  unfold execRefclkBothLost at e
  injection e with e
  subst e
  try dsimp only
  repeat' first
    | with_reducible exact Kept.refl _
    | with_reducible assumption
    | with_reducible apply kept_updClk
    | with_reducible apply kept_logEv
    | simp only [Kept.upd_iff]
    | (intro _; try dsimp only [id])
    | split

theorem kept_execRefclkReturn {s u : State} {r : Nat} (e : execRefclkReturn r s = .next u) : Kept s u := by
  unfold execRefclkReturn at e
  injection e with e
  subst e
  try dsimp only
  repeat' first
    | with_reducible exact Kept.refl _
    | with_reducible assumption
    | with_reducible apply kept_useRef
    | with_reducible apply kept_updClk
    | simp only [Kept.upd_iff]
    | (intro _; try dsimp only [id])
    | split

theorem kept_execEthrefLost {s u : State} (e : execEthrefLost s = .next u) : Kept s u := by
  unfold execEthrefLost at e
  injection e with e
  subst e
  try dsimp only
  repeat' first
    | with_reducible exact Kept.refl _
    | with_reducible assumption
    | with_reducible apply kept_updClk
    | with_reducible apply kept_logEv
    | simp only [Kept.upd_iff]
    | (intro _; try dsimp only [id])
    | split

theorem kept_execEthrefReturn {s u : State} (e : execEthrefReturn s = .next u) : Kept s u := by
  unfold execEthrefReturn at e
  injection e with e
  subst e
  try dsimp only
  repeat' first
    | with_reducible exact Kept.refl _
    | with_reducible assumption
    | with_reducible apply kept_updClk

theorem kept_execLightEntry {s u : State} {t0 : Nat} (e : execLightEntry t0 s = .next u) : Kept s u := by
  unfold execLightEntry at e
  injection e with e
  subst e
  try dsimp only
  repeat' first
    | with_reducible exact Kept.refl _
    | with_reducible assumption
    | with_reducible apply kept_lightEntry

theorem kept_execTileWake {s u : State} {t0 : Nat} (e : execTileWake t0 s = .next u) : Kept s u := by
  unfold execTileWake at e
  injection e with e
  subst e
  try dsimp only
  repeat' first
    | with_reducible exact Kept.refl _
    | with_reducible assumption
    | with_reducible apply kept_setSleep
    | simp only [Kept.upd_iff]
    | (intro _; try dsimp only [id])
    | split

theorem kept_execDeepEntry {s u : State} (e : execDeepEntry s = .next u) : Kept s u := by
  unfold execDeepEntry at e
  injection e with e
  subst e
  try dsimp only
  repeat' first
    | with_reducible exact Kept.refl _
    | with_reducible assumption
    | with_reducible apply kept_deepEntry

theorem kept_execDeepTimerWake {s u : State} {work : Bool} (e : execDeepTimerWake work s = .next u) : Kept s u := by
  unfold execDeepTimerWake at e
  injection e with e
  subst e
  try dsimp only
  repeat' first
    | with_reducible exact Kept.refl _
    | with_reducible assumption
    | with_reducible apply kept_leaveDeep
    | simp only [Kept.upd_iff]
    | (intro _; try dsimp only [id])
    | split

theorem kept_execDeepWake {s u : State} (e : execDeepWake s = .next u) : Kept s u := by
  unfold execDeepWake at e
  injection e with e
  subst e
  try dsimp only
  repeat' first
    | with_reducible exact Kept.refl _
    | with_reducible assumption
    | with_reducible apply kept_leaveDeep

theorem kept_execAvsEnable {s u : State} {v : Nat} (e : execAvsEnable v s = .next u) : Kept s u := by
  unfold execAvsEnable at e
  injection e with e
  subst e
  try dsimp only
  repeat' first
    | with_reducible exact Kept.refl _
    | with_reducible assumption
    | with_reducible apply kept_avsEnable
    | with_reducible apply kept_pkgWrite
    | simp only [Kept.upd_iff]
    | (intro _; try dsimp only [id])

theorem kept_execAvsStep {s u : State} {r : Nat} (e : execAvsStep r s = .next u) : Kept s u := by
  unfold execAvsStep at e
  injection e with e
  subst e
  try dsimp only
  repeat' first
    | with_reducible exact Kept.refl _
    | with_reducible assumption
    | with_reducible apply kept_updRail
    | simp only [Kept.upd_iff]
    | (intro _; try dsimp only [id])
    | split

theorem kept_execAvsMonitorLow {s u : State} {r : Nat} (e : execAvsMonitorLow r s = .next u) : Kept s u := by
  unfold execAvsMonitorLow at e
  injection e with e
  subst e
  try dsimp only
  repeat' first
    | with_reducible exact Kept.refl _
    | with_reducible assumption
    | with_reducible apply kept_updRail
    | simp only [Kept.upd_iff]
    | (intro _; try dsimp only [id])
    | split

theorem kept_execPmbusFault {s u : State} {r : Nat} (e : execPmbusFault r s = .next u) : Kept s u := by
  unfold execPmbusFault at e
  injection e with e
  subst e
  try dsimp only
  repeat' first
    | with_reducible exact Kept.refl _
    | with_reducible assumption
    | with_reducible apply kept_updRail
    | with_reducible apply kept_logEv
    | simp only [Kept.upd_iff]
    | (intro _; try dsimp only [id])
    | split

theorem kept_execPmbusAlert {s u : State} {words : List (Nat × Nat)} (e : execPmbusAlert words s = .next u) : Kept s u := by
  unfold execPmbusAlert at e
  injection e with e
  subst e
  try dsimp only
  repeat' first
    | with_reducible exact Kept.refl _
    | with_reducible assumption
    | with_reducible apply kept_pmbusAlert

theorem kept_execHeartbeat {s u : State} {t0 : Nat} (e : execHeartbeat t0 s = .next u) : Kept s u := by
  unfold execHeartbeat at e
  injection e with e
  subst e
  try dsimp only
  repeat' first
    | with_reducible exact Kept.refl _
    | with_reducible assumption
    | simp only [Kept.upd_iff]
    | (intro _; try dsimp only [id])
    | split

theorem kept_execHeartbeatMissing {s u : State} {t0 : Nat} (e : execHeartbeatMissing t0 s = .next u) : Kept s u := by
  unfold execHeartbeatMissing at e
  injection e with e
  subst e
  try dsimp only
  repeat' first
    | with_reducible exact Kept.refl _
    | with_reducible assumption
    | with_reducible apply kept_heartbeatMissing

theorem kept_execMgmtRestartTimeout {s u : State} {t0 : Nat} (e : execMgmtRestartTimeout t0 s = .next u) : Kept s u := by
  unfold execMgmtRestartTimeout at e
  injection e with e
  subst e
  try dsimp only
  repeat' first
    | with_reducible exact Kept.refl _
    | with_reducible assumption
    | with_reducible apply kept_restartExpired

theorem kept_execFenceRequest {s u : State} {by_ : Nat} {t0 : Nat} (e : execFenceRequest by_ t0 s = .next u) : Kept s u := by
  unfold execFenceRequest at e
  injection e with e
  subst e
  try dsimp only
  repeat' first
    | with_reducible exact Kept.refl _
    | with_reducible assumption
    | with_reducible apply kept_fenceRequest

theorem kept_execVauxRise {s u : State} (e : execVauxRise s = .next u) : Kept s u := by
  unfold execVauxRise at e
  injection e with e
  subst e
  try dsimp only
  repeat' first
    | with_reducible exact Kept.refl _
    | with_reducible assumption
    | with_reducible apply kept_vauxRise

theorem kept_execVauxLow {s u : State} (e : execVauxLow s = .next u) : Kept s u := by
  unfold execVauxLow at e
  injection e with e
  subst e
  try dsimp only
  repeat' first
    | with_reducible exact Kept.refl _
    | with_reducible assumption
    | with_reducible apply kept_updIsland
    | simp only [Kept.upd_iff]
    | (intro _; try dsimp only [id])
    | split

theorem kept_execVauxReturn {s u : State} (e : execVauxReturn s = .next u) : Kept s u := by
  unfold execVauxReturn at e
  injection e with e
  subst e
  try dsimp only
  repeat' first
    | with_reducible exact Kept.refl _
    | with_reducible assumption
    | with_reducible apply kept_updIsland

theorem kept_execVauxLoss {s u : State} (e : execVauxLoss s = .next u) : Kept s u := by
  unfold execVauxLoss at e
  injection e with e
  subst e
  try dsimp only
  repeat' first
    | with_reducible exact Kept.refl _
    | with_reducible assumption
    | with_reducible apply kept_vauxLoss

theorem kept_execPwrOkLow {s u : State} (e : execPwrOkLow s = .next u) : Kept s u := by
  unfold execPwrOkLow at e
  injection e with e
  subst e
  try dsimp only
  repeat' first
    | with_reducible exact Kept.refl _
    | with_reducible assumption
    | with_reducible apply kept_declareFailure

theorem kept_execSysRstLLow {s u : State} (e : execSysRstLLow s = .next u) : Kept s u := by
  unfold execSysRstLLow at e
  injection e with e
  subst e
  try dsimp only
  repeat' first
    | with_reducible exact Kept.refl _
    | with_reducible assumption
    | with_reducible apply kept_updIsland
    | with_reducible apply kept_declareFailure

theorem kept_execSysRstLRelease {s u : State} {power : Bool} (e : execSysRstLRelease power s = .next u) : Kept s u := by
  unfold execSysRstLRelease at e
  injection e with e
  subst e
  try dsimp only
  repeat' first
    | with_reducible exact Kept.refl _
    | with_reducible assumption
    | with_reducible apply kept_sysRstRelease

theorem kept_execBportPerstLRelease {s u : State} (e : execBportPerstLRelease s = .next u) : Kept s u := by
  unfold execBportPerstLRelease at e
  injection e with e
  subst e
  try dsimp only
  repeat' first
    | with_reducible exact Kept.refl _
    | with_reducible assumption
    | with_reducible apply kept_updIsland
    | simp only [Kept.upd_iff]
    | (intro _; try dsimp only [id])
    | split

theorem kept_execBoot {s u : State} {readFail : List Nat} {tileFail : List Nat} (e : execBoot readFail tileFail s = .next u) : Kept s u := by
  unfold execBoot at e
  injection e with e
  subst e
  try dsimp only
  repeat' first
    | with_reducible exact Kept.refl _
    | with_reducible assumption
    | with_reducible apply kept_bootSteps
    | with_reducible apply kept_statusVector
    | simp only [Kept.upd_iff]
    | (intro _; try dsimp only [id])
    | split

theorem kept_execBootPrimaryTimeout {s u : State} {readFail : List Nat} {tileFail : List Nat} (e : execBootPrimaryTimeout readFail tileFail s = .next u) : Kept s u := by
  unfold execBootPrimaryTimeout at e
  injection e with e
  subst e
  try dsimp only
  repeat' first
    | with_reducible exact Kept.refl _
    | with_reducible assumption
    | with_reducible apply kept_bootSteps
    | with_reducible apply kept_takeOver
    | with_reducible apply kept_statusVector
    | simp only [Kept.upd_iff]
    | (intro _; try dsimp only [id])
    | split

theorem kept_execFirmwareImageDownload {s u : State} {a : Adm} {off : Nat} {d : Bytes} (e : execFirmwareImageDownload a off d s = .next u) : Kept s u := by
  unfold execFirmwareImageDownload at e
  injection e with e
  subst e
  try dsimp only
  repeat' first
    | with_reducible exact Kept.refl _
    | with_reducible assumption
    | with_reducible apply kept_fwDownload
    | with_reducible apply kept_runAdmin
    | simp only [Kept.upd_iff]
    | (intro _; try dsimp only [id])

theorem kept_execPieceWriteDone {s u : State} {i : Nat} {ok : Bool} (e : execPieceWriteDone i ok s = .next u) : Kept s u := by
  unfold execPieceWriteDone at e
  injection e with e
  subst e
  try dsimp only
  repeat' first
    | with_reducible exact Kept.refl _
    | with_reducible assumption
    | with_reducible apply kept_pieceDone

theorem kept_execDigestCheckDone {s u : State} (e : execDigestCheckDone s = .next u) : Kept s u := by
  unfold execDigestCheckDone at e
  injection e with e
  subst e
  try dsimp only
  repeat' first
    | with_reducible exact Kept.refl _
    | with_reducible assumption
    | with_reducible apply kept_digestCheckDone

theorem kept_execFirmwareCommitRecovery {s u : State} {a : Adm} {ca : Nat} {fs : Nat} (e : execFirmwareCommitRecovery a ca fs s = .next u) : Kept s u := by
  unfold execFirmwareCommitRecovery at e
  injection e with e
  subst e
  try dsimp only
  repeat' first
    | with_reducible exact Kept.refl _
    | with_reducible assumption
    | with_reducible apply kept_commitRecovery
    | with_reducible apply kept_runAdmin
    | simp only [Kept.upd_iff]
    | (intro _; try dsimp only [id])

theorem kept_execFirmwareCommitNextStart {s u : State} {a : Adm} {fs : Nat} (e : execFirmwareCommitNextStart a fs s = .next u) : Kept s u := by
  unfold execFirmwareCommitNextStart at e
  injection e with e
  subst e
  try dsimp only
  repeat' first
    | with_reducible exact Kept.refl _
    | with_reducible assumption
    | with_reducible apply kept_commitNext
    | with_reducible apply kept_runAdmin
    | simp only [Kept.upd_iff]
    | (intro _; try dsimp only [id])

theorem kept_execFirmwareCommitImmediate {s u : State} {a : Adm} {fs : Nat} (e : execFirmwareCommitImmediate a fs s = .next u) : Kept s u := by
  unfold execFirmwareCommitImmediate at e
  injection e with e
  subst e
  try dsimp only
  repeat' first
    | with_reducible exact Kept.refl _
    | with_reducible assumption
    | with_reducible apply kept_commitNow
    | with_reducible apply kept_runAdmin
    | simp only [Kept.upd_iff]
    | (intro _; try dsimp only [id])

theorem kept_execActivationStart {s u : State} {residentOk : Bool} (e : execActivationStart residentOk s = .next u) : Kept s u := by
  unfold execActivationStart at e
  injection e with e
  subst e
  try dsimp only
  repeat' first
    | with_reducible exact Kept.refl _
    | with_reducible assumption
    | with_reducible apply kept_activationStart

theorem kept_execActivationQuiescent {s u : State} (e : execActivationQuiescent s = .next u) : Kept s u := by
  unfold execActivationQuiescent at e
  injection e with e
  subst e
  try dsimp only
  repeat' first
    | with_reducible exact Kept.refl _
    | with_reducible assumption
    | with_reducible apply kept_runStaged
    | with_reducible apply kept_updFw
    | simp only [Kept.upd_iff]
    | (intro _; try dsimp only [id])
    | split

theorem kept_execActivationEnd {s u : State} (e : execActivationEnd s = .next u) : Kept s u := by
  unfold execActivationEnd at e
  injection e with e
  subst e
  try dsimp only
  repeat' first
    | with_reducible exact Kept.refl _
    | with_reducible assumption
    | with_reducible apply kept_activationEnd

theorem kept_execFirmwareConfirm {s u : State} {a : Adm} {id : Nat} (e : execFirmwareConfirm a id s = .next u) : Kept s u := by
  unfold execFirmwareConfirm at e
  injection e with e
  subst e
  try dsimp only
  repeat' first
    | with_reducible exact Kept.refl _
    | with_reducible assumption
    | with_reducible apply kept_fwConfirm
    | with_reducible apply kept_runAdmin
    | simp only [Kept.upd_iff]
    | (intro _; try dsimp only [id])

theorem kept_execInstallStepDone {s u : State} {ok : Bool} (e : execInstallStepDone ok s = .next u) : Kept s u := by
  unfold execInstallStepDone at e
  injection e with e
  subst e
  try dsimp only
  repeat' first
    | with_reducible exact Kept.refl _
    | with_reducible assumption
    | with_reducible apply kept_installStep

theorem kept_execCflashOperationDone {s u : State} {ok : Bool} {us : Nat} (e : execCflashOperationDone ok us s = .next u) : Kept s u := by
  unfold execCflashOperationDone at e
  injection e with e
  subst e
  try dsimp only
  repeat' first
    | with_reducible exact Kept.refl _
    | with_reducible assumption
    | with_reducible apply kept_flashOpDone

theorem kept_execCflashIdleOff {s u : State} (e : execCflashIdleOff s = .next u) : Kept s u := by
  unfold execCflashIdleOff at e
  injection e with e
  subst e
  try dsimp only
  repeat' first
    | with_reducible exact Kept.refl _
    | with_reducible assumption
    | with_reducible apply kept_updFlash
    | simp only [Kept.upd_iff]
    | (intro _; try dsimp only [id])
    | split

theorem kept_execStageClear {s u : State} {v : Nat} (e : execStageClear v s = .next u) : Kept s u := by
  unfold execStageClear at e
  injection e with e
  subst e
  try dsimp only
  repeat' first
    | with_reducible exact Kept.refl _
    | with_reducible assumption
    | with_reducible apply kept_stageClear
    | with_reducible apply kept_pkgWrite
    | simp only [Kept.upd_iff]
    | (intro _; try dsimp only [id])

theorem kept_execHostLinkUp {s u : State} {t0 : Nat} {p : Nat} {rate : Nat} {width : Nat} {narrow : Bool} (e : execHostLinkUp t0 p rate width narrow s = .next u) : Kept s u := by
  unfold execHostLinkUp at e
  injection e with e
  subst e
  try dsimp only
  repeat' first
    | with_reducible exact Kept.refl _
    | with_reducible assumption
    | with_reducible apply kept_hostLinkUp

theorem kept_execHostLinkDown {s u : State} {t0 : Nat} {p : Nat} (e : execHostLinkDown t0 p s = .next u) : Kept s u := by
  unfold execHostLinkDown at e
  injection e with e
  subst e
  try dsimp only
  repeat' first
    | with_reducible exact Kept.refl _
    | with_reducible assumption
    | with_reducible apply kept_hostLinkDown

theorem kept_execPortDrainEnd {s u : State} {t0 : Nat} (e : execPortDrainEnd t0 s = .next u) : Kept s u := by
  unfold execPortDrainEnd at e
  injection e with e
  subst e
  try dsimp only
  repeat' first
    | with_reducible exact Kept.refl _
    | with_reducible assumption
    | with_reducible apply kept_portDrainEnd

theorem kept_execLaneRestart {s u : State} {t0 : Nat} (e : execLaneRestart t0 s = .next u) : Kept s u := by
  unfold execLaneRestart at e
  injection e with e
  subst e
  try dsimp only
  repeat' first
    | with_reducible exact Kept.refl _
    | with_reducible assumption
    | with_reducible apply kept_laneRestart

theorem kept_execCommit {s u : State} (e : execCommit s = .next u) : Kept s u := by
  unfold execCommit at e
  injection e with e
  subst e
  try dsimp only
  repeat' first
    | with_reducible exact Kept.refl _
    | with_reducible assumption
    | with_reducible apply kept_commitWrite
    | with_reducible apply kept_pkgWrite

theorem kept_execRevert {s u : State} (e : execRevert s = .next u) : Kept s u := by
  unfold execRevert at e
  injection e with e
  subst e
  try dsimp only
  repeat' first
    | with_reducible exact Kept.refl _
    | with_reducible assumption
    | with_reducible apply kept_revertShadow
    | with_reducible apply kept_pkgWrite

theorem kept_execCommitValidated {s u : State} (e : execCommitValidated s = .next u) : Kept s u := by
  unfold execCommitValidated at e
  injection e with e
  subst e
  try dsimp only
  repeat' first
    | with_reducible exact Kept.refl _
    | with_reducible assumption
    | with_reducible apply kept_commitValidated

theorem kept_execCommitApplied {s u : State} (e : execCommitApplied s = .next u) : Kept s u := by
  unfold execCommitApplied at e
  injection e with e
  subst e
  try dsimp only
  repeat' first
    | with_reducible exact Kept.refl _
    | with_reducible assumption
    | with_reducible apply kept_commitApplied

theorem kept_execBptCmdTail {s u : State} {v : Nat} (e : execBptCmdTail v s = .next u) : Kept s u := by
  unfold execBptCmdTail at e
  injection e with e
  subst e
  try dsimp only
  repeat' first
    | with_reducible exact Kept.refl _
    | with_reducible assumption
    | with_reducible apply kept_cmdTail

theorem kept_execBptRspHead {s u : State} {v : Nat} (e : execBptRspHead v s = .next u) : Kept s u := by
  unfold execBptRspHead at e
  injection e with e
  subst e
  try dsimp only
  repeat' first
    | with_reducible exact Kept.refl _
    | with_reducible assumption
    | with_reducible apply kept_ringHead

theorem kept_execBptMtrHead {s u : State} {v : Nat} (e : execBptMtrHead v s = .next u) : Kept s u := by
  unfold execBptMtrHead at e
  injection e with e
  subst e
  try dsimp only
  repeat' first
    | with_reducible exact Kept.refl _
    | with_reducible assumption
    | with_reducible apply kept_ringHead
    | with_reducible apply kept_deliverMeter

theorem kept_execBptEvtHead {s u : State} {v : Nat} (e : execBptEvtHead v s = .next u) : Kept s u := by
  unfold execBptEvtHead at e
  injection e with e
  subst e
  try dsimp only
  repeat' first
    | with_reducible exact Kept.refl _
    | with_reducible assumption
    | with_reducible apply kept_ringHead
    | with_reducible apply kept_deliverEvents

theorem kept_execRingCoalesceTimer {s u : State} {k : Nat} (e : execRingCoalesceTimer k s = .next u) : Kept s u := by
  unfold execRingCoalesceTimer at e
  injection e with e
  subst e
  try dsimp only
  repeat' first
    | with_reducible exact Kept.refl _
    | with_reducible assumption
    | with_reducible apply kept_coalesceTimer

theorem kept_execRingEnable {s u : State} {k : Nat} {v : Nat} (e : execRingEnable k v s = .next u) : Kept s u := by
  unfold execRingEnable at e
  injection e with e
  subst e
  try dsimp only
  repeat' first
    | with_reducible exact Kept.refl _
    | with_reducible assumption
    | with_reducible apply kept_ringWrite
    | with_reducible apply kept_pkgWrite
    | simp only [Kept.upd_iff]
    | (intro _; try dsimp only [id])
    | split

theorem kept_execBoardPortReset {s u : State} (e : execBoardPortReset s = .next u) : Kept s u := by
  unfold execBoardPortReset at e
  injection e with e
  subst e
  try dsimp only
  repeat' first
    | with_reducible exact Kept.refl _
    | with_reducible assumption
    | with_reducible apply kept_boardPortReset

theorem kept_execDescriptorFetch {s u : State} {d : Bytes} {dmaOk : Bool} (e : execDescriptorFetch d dmaOk s = .next u) : Kept s u := by
  unfold execDescriptorFetch at e
  injection e with e
  subst e
  try dsimp only
  repeat' first
    | with_reducible exact Kept.refl _
    | with_reducible assumption
    | with_reducible apply kept_descriptorFetch

theorem kept_execConfigCommit {s u : State} (e : execConfigCommit s = .next u) : Kept s u := by
  unfold execConfigCommit at e
  injection e with e
  subst e
  try dsimp only
  repeat' first
    | with_reducible exact Kept.refl _
    | with_reducible assumption
    | with_reducible apply kept_configCommit

theorem kept_execProviderSet {s u : State} {d : Bytes} (e : execProviderSet d s = .next u) : Kept s u := by
  unfold execProviderSet at e
  injection e with e
  subst e
  try dsimp only
  repeat' first
    | with_reducible exact Kept.refl _
    | with_reducible assumption
    | with_reducible apply kept_providerSet
    | with_reducible apply kept_runRegistry
    | simp only [Kept.upd_iff]
    | (intro _; try dsimp only [id])

theorem kept_execProviderGet {s u : State} (e : execProviderGet s = .next u) : Kept s u := by
  unfold execProviderGet at e
  injection e with e
  subst e
  try dsimp only
  repeat' first
    | with_reducible exact Kept.refl _
    | with_reducible assumption
    | with_reducible apply kept_boardAnswer
    | simp only [Kept.upd_iff]
    | (intro _; try dsimp only [id])
    | split

theorem kept_execNetifSet {s u : State} {d : Bytes} (e : execNetifSet d s = .next u) : Kept s u := by
  unfold execNetifSet at e
  injection e with e
  subst e
  try dsimp only
  repeat' first
    | with_reducible exact Kept.refl _
    | with_reducible assumption
    | with_reducible apply kept_netifSet
    | with_reducible apply kept_runRegistry
    | simp only [Kept.upd_iff]
    | (intro _; try dsimp only [id])

theorem kept_execNetifGet {s u : State} {cdw10 : Nat} (e : execNetifGet cdw10 s = .next u) : Kept s u := by
  unfold execNetifGet at e
  injection e with e
  subst e
  try dsimp only
  repeat' first
    | with_reducible exact Kept.refl _
    | with_reducible assumption
    | with_reducible apply kept_netifGet
    | simp only [Kept.upd_iff]
    | (intro _; try dsimp only [id])
    | split

theorem kept_execIdentityGet {s u : State} (e : execIdentityGet s = .next u) : Kept s u := by
  unfold execIdentityGet at e
  injection e with e
  subst e
  try dsimp only
  repeat' first
    | with_reducible exact Kept.refl _
    | with_reducible assumption
    | with_reducible apply kept_boardAnswer
    | simp only [Kept.upd_iff]
    | (intro _; try dsimp only [id])
    | split

theorem kept_execMiCommandHealth {s u : State} (e : execMiCommandHealth s = .next u) : Kept s u := by
  unfold execMiCommandHealth at e
  injection e with e
  subst e
  try dsimp only
  repeat' first
    | with_reducible exact Kept.refl _
    | with_reducible assumption
    | with_reducible apply kept_emit
    | simp only [Kept.upd_iff]
    | (intro _; try dsimp only [id])
    | split

theorem kept_execMiCommandStatic {s u : State} (e : execMiCommandStatic s = .next u) : Kept s u := by
  unfold execMiCommandStatic at e
  injection e with e
  subst e
  try dsimp only
  repeat' first
    | with_reducible exact Kept.refl _
    | with_reducible assumption
    | with_reducible apply kept_emit
    | simp only [Kept.upd_iff]
    | (intro _; try dsimp only [id])
    | split

theorem kept_execGetLogPageErrorInformation {s u : State} {a : Adm} (e : execGetLogPageErrorInformation a s = .next u) : Kept s u := by
  unfold execGetLogPageErrorInformation at e
  injection e with e
  subst e
  try dsimp only
  repeat' first
    | with_reducible exact Kept.refl _
    | with_reducible assumption
    | with_reducible apply kept_forCtrl
    | with_reducible apply kept_runAdmin
    | with_reducible apply kept_admAnswer
    | simp only [Kept.upd_iff]
    | (intro _; try dsimp only [id])

theorem kept_execGetLogPageFrozenQueues {s u : State} {a : Adm} (e : execGetLogPageFrozenQueues a s = .next u) : Kept s u := by
  unfold execGetLogPageFrozenQueues at e
  injection e with e
  subst e
  try dsimp only
  repeat' first
    | with_reducible exact Kept.refl _
    | with_reducible assumption
    | with_reducible apply kept_frozenLog
    | with_reducible apply kept_forCtrl
    | with_reducible apply kept_runAdmin
    | simp only [Kept.upd_iff]
    | (intro _; try dsimp only [id])

theorem kept_execGetLogPageTenantService {s u : State} {a : Adm} (e : execGetLogPageTenantService a s = .next u) : Kept s u := by
  unfold execGetLogPageTenantService at e
  injection e with e
  subst e
  try dsimp only
  repeat' first
    | with_reducible exact Kept.refl _
    | with_reducible assumption
    | with_reducible apply kept_tenantLog
    | with_reducible apply kept_forCtrl
    | with_reducible apply kept_runAdmin
    | simp only [Kept.upd_iff]
    | (intro _; try dsimp only [id])

theorem kept_execGetLogPageSmartHealth {s u : State} {a : Adm} {n : Nat} (e : execGetLogPageSmartHealth a n s = .next u) : Kept s u := by
  unfold execGetLogPageSmartHealth at e
  injection e with e
  subst e
  try dsimp only
  repeat' first
    | with_reducible exact Kept.refl _
    | with_reducible assumption
    | with_reducible apply kept_smartLog
    | with_reducible apply kept_runAdmin
    | simp only [Kept.upd_iff]
    | (intro _; try dsimp only [id])

theorem kept_execGetLogPageEnduranceGroup {s u : State} {a : Adm} {id : Nat} (e : execGetLogPageEnduranceGroup a id s = .next u) : Kept s u := by
  unfold execGetLogPageEnduranceGroup at e
  injection e with e
  subst e
  try dsimp only
  repeat' first
    | with_reducible exact Kept.refl _
    | with_reducible assumption
    | with_reducible apply kept_egLog
    | with_reducible apply kept_runAdmin
    | simp only [Kept.upd_iff]
    | (intro _; try dsimp only [id])

theorem kept_execGetLogPageFirmwareSlot {s u : State} {a : Adm} (e : execGetLogPageFirmwareSlot a s = .next u) : Kept s u := by
  unfold execGetLogPageFirmwareSlot at e
  injection e with e
  subst e
  try dsimp only
  repeat' first
    | with_reducible exact Kept.refl _
    | with_reducible assumption
    | with_reducible apply kept_runAdmin
    | with_reducible apply kept_admAnswer
    | simp only [Kept.upd_iff]
    | (intro _; try dsimp only [id])

theorem kept_execGetLogPageFirmwareStaging {s u : State} {a : Adm} (e : execGetLogPageFirmwareStaging a s = .next u) : Kept s u := by
  unfold execGetLogPageFirmwareStaging at e
  injection e with e
  subst e
  try dsimp only
  repeat' first
    | with_reducible exact Kept.refl _
    | with_reducible assumption
    | with_reducible apply kept_forProvider
    | with_reducible apply kept_runAdmin
    | simp only [Kept.upd_iff]
    | (intro _; try dsimp only [id])

theorem kept_execGetLogPageDiscovery {s u : State} {id : Nat} (e : execGetLogPageDiscovery id s = .next u) : Kept s u := by
  unfold execGetLogPageDiscovery at e
  injection e with e
  subst e
  try dsimp only
  repeat' first
    | with_reducible exact Kept.refl _
    | with_reducible assumption
    | with_reducible apply kept_discoveryLog
    | with_reducible apply kept_runAdmin
    | simp only [Kept.upd_iff]
    | (intro _; try dsimp only [id])

theorem kept_execGetLogPageSecureDeallocProgress {s u : State} {a : Adm} (e : execGetLogPageSecureDeallocProgress a s = .next u) : Kept s u := by
  unfold execGetLogPageSecureDeallocProgress at e
  injection e with e
  subst e
  try dsimp only
  repeat' first
    | with_reducible exact Kept.refl _
    | with_reducible assumption
    | with_reducible apply kept_sweepLog
    | with_reducible apply kept_runAdmin
    | simp only [Kept.upd_iff]
    | (intro _; try dsimp only [id])

theorem kept_execGetLogPageLostRanges {s u : State} {a : Adm} {rae : Bool} (e : execGetLogPageLostRanges a rae s = .next u) : Kept s u := by
  unfold execGetLogPageLostRanges at e
  injection e with e
  subst e
  try dsimp only
  repeat' first
    | with_reducible exact Kept.refl _
    | with_reducible assumption
    | with_reducible apply kept_lostLog
    | with_reducible apply kept_runAdmin
    | simp only [Kept.upd_iff]
    | (intro _; try dsimp only [id])

theorem kept_execGetLogPageDeviceHealth {s u : State} {a : Adm} (e : execGetLogPageDeviceHealth a s = .next u) : Kept s u := by
  unfold execGetLogPageDeviceHealth at e
  injection e with e
  subst e
  try dsimp only
  repeat' first
    | with_reducible exact Kept.refl _
    | with_reducible assumption
    | with_reducible apply kept_forProvider
    | with_reducible apply kept_runAdmin
    | simp only [Kept.upd_iff]
    | (intro _; try dsimp only [id])

theorem kept_execIdentify {s u : State} {a : Adm} {cns : Nat} {n : Nat} (e : execIdentify a cns n s = .next u) : Kept s u := by
  unfold execIdentify at e
  injection e with e
  subst e
  try dsimp only
  repeat' first
    | with_reducible exact Kept.refl _
    | with_reducible assumption
    | with_reducible apply kept_identify
    | with_reducible apply kept_runAdmin
    | simp only [Kept.upd_iff]
    | (intro _; try dsimp only [id])

theorem kept_execQeEnable {s u : State} {t0 : Nat} {v : Nat} (e : execQeEnable t0 v s = .next u) : Kept s u := by
  unfold execQeEnable at e
  injection e with e
  subst e
  try dsimp only
  repeat' first
    | with_reducible exact Kept.refl _
    | with_reducible assumption
    | with_reducible apply kept_qeEnable
    | with_reducible apply kept_tileWrite
    | simp only [Kept.upd_iff]
    | (intro _; try dsimp only [id])

theorem kept_execMapEnable {s u : State} {t0 : Nat} {v : Nat} (e : execMapEnable t0 v s = .next u) : Kept s u := by
  unfold execMapEnable at e
  injection e with e
  subst e
  try dsimp only
  repeat' first
    | with_reducible exact Kept.refl _
    | with_reducible assumption
    | with_reducible apply kept_mapEnable
    | with_reducible apply kept_tileWrite
    | simp only [Kept.upd_iff]
    | (intro _; try dsimp only [id])

theorem kept_execPlcEnable {s u : State} {t0 : Nat} {v : Nat} (e : execPlcEnable t0 v s = .next u) : Kept s u := by
  unfold execPlcEnable at e
  injection e with e
  subst e
  try dsimp only
  repeat' first
    | with_reducible exact Kept.refl _
    | with_reducible assumption
    | with_reducible apply kept_tileWrite
    | with_reducible apply kept_writeEnable
    | simp only [Kept.upd_iff]
    | (intro _; try dsimp only [id])

theorem kept_execRclEnable {s u : State} {t0 : Nat} {v : Nat} (e : execRclEnable t0 v s = .next u) : Kept s u := by
  unfold execRclEnable at e
  injection e with e
  subst e
  try dsimp only
  repeat' first
    | with_reducible exact Kept.refl _
    | with_reducible assumption
    | with_reducible apply kept_tileWrite
    | with_reducible apply kept_writeEnable
    | simp only [Kept.upd_iff]
    | (intro _; try dsimp only [id])

theorem kept_execRedEnable {s u : State} {t0 : Nat} {v : Nat} (e : execRedEnable t0 v s = .next u) : Kept s u := by
  unfold execRedEnable at e
  injection e with e
  subst e
  try dsimp only
  repeat' first
    | with_reducible exact Kept.refl _
    | with_reducible assumption
    | with_reducible apply kept_tileWrite
    | with_reducible apply kept_writeEnable
    | simp only [Kept.upd_iff]
    | (intro _; try dsimp only [id])

theorem kept_execPlpEnable {s u : State} {v : Nat} (e : execPlpEnable v s = .next u) : Kept s u := by
  unfold execPlpEnable at e
  injection e with e
  subst e
  try dsimp only
  repeat' first
    | with_reducible exact Kept.refl _
    | with_reducible assumption
    | with_reducible apply kept_plpEnable
    | with_reducible apply kept_pkgWrite
    | simp only [Kept.upd_iff]
    | (intro _; try dsimp only [id])

theorem kept_execCounterLowRead {s u : State} {off : Nat} (e : execCounterLowRead off s = .next u) : Kept s u := by
  unfold execCounterLowRead at e
  injection e with e
  subst e
  try dsimp only
  repeat' first
    | with_reducible exact Kept.refl _
    | with_reducible assumption
    | with_reducible apply kept_readReg

theorem kept_execCaptureStatusRead {s u : State} {t0 : Nat} (e : execCaptureStatusRead t0 s = .next u) : Kept s u := by
  unfold execCaptureStatusRead at e
  injection e with e
  subst e
  try dsimp only
  repeat' first
    | with_reducible exact Kept.refl _
    | with_reducible assumption
    | with_reducible apply kept_readTile

theorem kept_execLdpcBaseDataRead {s u : State} {t0 : Nat} (e : execLdpcBaseDataRead t0 s = .next u) : Kept s u := by
  unfold execLdpcBaseDataRead at e
  injection e with e
  subst e
  try dsimp only
  repeat' first
    | with_reducible exact Kept.refl _
    | with_reducible assumption
    | with_reducible apply kept_readTile

theorem kept_execDigFuseDataRead {s u : State} {t0 : Nat} (e : execDigFuseDataRead t0 s = .next u) : Kept s u := by
  unfold execDigFuseDataRead at e
  injection e with e
  subst e
  try dsimp only
  repeat' first
    | with_reducible exact Kept.refl _
    | with_reducible assumption
    | with_reducible apply kept_readTile

theorem kept_execThmHistDataRead {s u : State} {t0 : Nat} (e : execThmHistDataRead t0 s = .next u) : Kept s u := by
  unfold execThmHistDataRead at e
  injection e with e
  subst e
  try dsimp only
  repeat' first
    | with_reducible exact Kept.refl _
    | with_reducible assumption
    | with_reducible apply kept_readTile

theorem kept_execThmSensorRead {s u : State} {t0 : Nat} (e : execThmSensorRead t0 s = .next u) : Kept s u := by
  unfold execThmSensorRead at e
  injection e with e
  subst e
  try dsimp only
  repeat' first
    | with_reducible exact Kept.refl _
    | with_reducible assumption
    | with_reducible apply kept_readTile

theorem kept_execFwuMapDataRead {s u : State} (e : execFwuMapDataRead s = .next u) : Kept s u := by
  unfold execFwuMapDataRead at e
  injection e with e
  subst e
  try dsimp only
  repeat' first
    | with_reducible exact Kept.refl _
    | with_reducible assumption
    | with_reducible apply kept_readReg

theorem kept_execWindowData7Read {s u : State} (e : execWindowData7Read s = .next u) : Kept s u := by
  unfold execWindowData7Read at e
  injection e with e
  subst e
  try dsimp only
  repeat' first
    | with_reducible exact Kept.refl _
    | with_reducible assumption
    | with_reducible apply kept_readReg

theorem kept_execMedDescDataAccess {s u : State} {t0 : Nat} {wr : Option Nat} (e : execMedDescDataAccess t0 wr s = .next u) : Kept s u := by
  unfold execMedDescDataAccess at e
  injection e with e
  subst e
  try dsimp only
  repeat' first
    | with_reducible exact Kept.refl _
    | with_reducible assumption
    | with_reducible apply kept_descWrite
    | with_reducible apply kept_readTile
    | with_reducible apply kept_tileWrite
    | simp only [Kept.upd_iff]
    | (intro _; try dsimp only [id])
    | split

theorem kept_execRegisterWrite {s u : State} {off : Nat} {v : Nat} (e : execRegisterWrite off v s = .next u) : Kept s u := by
  unfold execRegisterWrite at e
  injection e with e
  subst e
  try dsimp only
  repeat' first
    | with_reducible exact Kept.refl _
    | with_reducible assumption
    | with_reducible apply kept_registerWrite

end Sys2Proof.Machine
end

