-- ==== Sys2Proof/WellFormed.lean ====
section
/-!
DEFINITION. Sys2Proof/WellFormed.lean: the operands that the manual's encodings can carry: tile numbers (R5), port indices (R48),
channels and dies (R7, R8), identifiers, 32-bit register values and offsets (R12, R467), descriptors (R473). The meanings are
defined for every operand; an ill-formed one is a command that no sender can send.
-/
namespace Sys2Proof

/-- Numbers of each kind. -/
def isTile (n : Nat) : Bool := decide (n < 8)
def isPort (n : Nat) : Bool := decide (n < 4)
def isChannel (n : Nat) : Bool := decide (n < 64)
def isDie (n : Nat) : Bool := decide (n < 16384)
def isHalf (n : Nat) : Bool := decide (n < 2 ^ 16)
def isWord (n : Nat) : Bool := decide (n < 2 ^ 32)
/-- An offset in BAR0 (R467). -/
def isOffset (n : Nat) : Bool := decide (n < 2 ^ 25)
/-- A descriptor of the command ring has 64 bytes (R473). -/
def isDescriptor (d : Bytes) : Bool := d.length == 64
/-- The fields of a mesh packet's header (R23). -/
def MeshPkt.wellFormed (p : MeshPkt) : Bool := isTile p.src && isTile p.dst
/-- The fields of a compression job fit their bytes (R340). -/
def CmpJob.wellFormed (j : CmpJob) : Bool :=
  decide (j.client < 256) && decide (j.cls < 256) && decide (j.flags < 256) && decide (j.slot < 256) && isWord j.inHandle &&
  isWord j.inLen && isWord j.outHandle && isWord j.outMax && isWord j.expCrc && isWord j.expLen

/-- Whether a command's operands fit what carries them. -/
def Instr.wellFormed : Instr → Bool
  | .tcpConnectionRequest tile port _ _ => isTile tile && isPort port
  | .rdmaConnectionRequest tile port _ => isTile tile && isPort port
  | .capsuleReceived _ _ => true
  | .h2cdataPdu _ _ _ _ _ _ => true
  | .rdmaReadCompletion _ _ _ => true
  | .hostMemoryReadCompletion _ _ => true
  | .submissionQueueTailDoorbell cntlid sqid value => isHalf cntlid && isHalf sqid && isWord value
  | .completionQueueHeadDoorbell cntlid cqid value => isHalf cntlid && isHalf cqid && isWord value
  | .commandFetch tile _ => isTile tile
  | .heldCommandAdmit tile nsid => isTile tile && isWord nsid
  | .rateInterval => true
  | .urgentBudgetInterval => true
  | .interruptAggregationTime cntlid _ => isHalf cntlid
  | .controllerEnable endpoint _ _ _ => isTile endpoint
  | .controllerReset cntlid => isHalf cntlid
  | .shutdown cntlid _ => isHalf cntlid
  | .functionLevelReset endpoint _ => isTile endpoint
  | .conventionalReset endpoint => isTile endpoint
  | .fabricsConnect _ _ => true
  | .propertyGet _ _ => true
  | .propertySet _ _ value => isWord value
  | .disconnect _ qid => isHalf qid
  | .keepAlive _ => true
  | .keepAliveExpiry cntlid => isHalf cntlid
  | .createIoSubmissionQueue _ sqid _ cqid _ => isHalf sqid && isHalf cqid
  | .createIoCompletionQueue _ cqid _ _ _ => isHalf cqid
  | .deleteIoSubmissionQueue _ sqid => isHalf sqid
  | .deleteIoCompletionQueue _ cqid => isHalf cqid
  | .asynchronousEventRequest _ => true
  | .abort _ sqid cid => isHalf sqid && isHalf cid
  | .queueThaw _ sqid => isHalf sqid
  | .identify _ _ nsid => isWord nsid
  | .setFeaturesNumberOfQueues _ _ _ => true
  | .setFeaturesArbitration _ _ _ _ _ => true
  | .setFeaturesInterruptCoalescing _ _ cdw11 => isWord cdw11
  | .setFeaturesOrderingMode _ cdw11 => isWord cdw11
  | .setFeaturesQueueClass _ cdw11 => isWord cdw11
  | .setFeaturesQueueFreezeMode _ cdw11 => isWord cdw11
  | .setFeaturesSecureDeallocation _ nsid cdw11 => isWord nsid && isWord cdw11
  | .getFeatures _ _ cdw11 => isWord cdw11
  | .getFeaturesOrderingMode _ => true
  | .getFeaturesQueueClass _ sqid => isHalf sqid
  | .getFeaturesQueueFreezeMode _ sqid => isHalf sqid
  | .getFeaturesSecureDeallocation _ nsid => isWord nsid
  | .namespaceCreate _ _ => true
  | .namespaceDelete _ nsid => isWord nsid
  | .namespaceDeleteDrain nsid => isWord nsid
  | .namespaceUnmapEnd nsid => isWord nsid
  | .namespaceAttach _ nsid _ _ => isWord nsid
  | .namespaceDetach _ nsid _ _ => isWord nsid
  | .detachDrain nsid => isWord nsid
  | .formatNvm _ nsid _ _ => isWord nsid
  | .sanitize _ _ => true
  | .keyLoad _ nsid _ => isWord nsid
  | .keyLoadConfirm nsid tile _ => isWord nsid && isTile tile
  | .keySlotClear nsid _ => isWord nsid
  | .namespaceLimits _ nsid _ => isWord nsid
  | .tenantSet _ _ => true
  | .tenantGet _ _ => true
  | .tenantDelete _ _ => true
  | .bptCmdTail value => isWord value
  | .bptRspHead value => isWord value
  | .bptMtrHead value => isWord value
  | .bptEvtHead value => isWord value
  | .descriptorFetch desc _ => isDescriptor desc
  | .ringCoalesceTimer _ => true
  | .configCommit => true
  | .providerSet _ => true
  | .providerGet => true
  | .netifSet _ => true
  | .netifGet cdw10 => isWord cdw10
  | .identityGet => true
  | .ringEnable _ value => isWord value
  | .boardPortReset => true
  | .commit => true
  | .revert => true
  | .commitValidated => true
  | .commitApplied => true
  | .miCommandHealth => true
  | .miCommandStatic => true
  | .mapLookup _ _ => true
  | .mapUpdate _ => true
  | .mapFetchDone nsid _ _ => isWord nsid
  | .writeBackStart _ nsid _ => isWord nsid
  | .writeBackProgrammed _ nsid _ _ _ => isWord nsid
  | .journalEntryMirrored _ _ => true
  | .journalQuarterTimer _ => true
  | .journalSegmentProgrammed _ => true
  | .mapCheckpoint _ => true
  | .forwardReceived _ => true
  | .forwardConfirm _ => true
  | .forwardTimeout _ => true
  | .adoptedRecordLoad _ nsid _ => isWord nsid
  | .slotHandBack _ nsid _ => isWord nsid
  | .regionCoalesce nsid _ => isWord nsid
  | .mapReplayDone _ => true
  | .extentStaged _ => true
  | .mirrorCopyReceived _ => true
  | .mirrorConfirm _ => true
  | .stageConfirm _ => true
  | .mapConfirm _ _ _ => true
  | .reservationRequest tile _ _ _ => isTile tile
  | .unitReturn tile _ _ _ => isTile tile
  | .rowTimerExpiry _ _ => true
  | .parityUnitReceived _ _ _ _ _ => true
  | .rowProgramDone _ _ _ => true
  | .programFailure _ _ _ _ => true
  | .seqPadTimer _ _ => true
  | .writeSequenceLease tile => isTile tile
  | .headroomLeaseRequest tile nsid => isTile tile && isWord nsid
  | .slcBufferRecompute => true
  | .promotionStart _ => true
  | .reclaimRescore => true
  | .livenessQuery _ _ _ => true
  | .relocationCommitted _ _ => true
  | .eraseDrainEnd _ _ => true
  | .nandEraseDone _ _ _ => true
  | .eraseFailure _ _ _ _ => true
  | .censusRegion nsid _ => isWord nsid
  | .summaryRebuildDone tile => isTile tile
  | .sweepRowsProgrammed _ => true
  | .sweepEnd _ => true
  | .sweepLogExpiry _ => true
  | .medEnable tile value => isTile tile && isWord value
  | .channelTrainingStep ch _ _ _ _ => isChannel ch
  | .trainingBurst ch _ => isChannel ch
  | .trackingBurstDue ch _ _ => isChannel ch
  | .chRateDown ch _ => isChannel ch
  | .chRateUp ch _ => isChannel ch
  | .nandReadDone _ => true
  | .nandProgramDone _ _ _ _ _ => true
  | .nandSuspendDone die _ => isDie die
  | .suspendWaitExpiry _ => true
  | .ldpcDecodeDone _ _ _ => true
  | .dieReadyTimeout die => isDie die
  | .patrolRead die _ _ _ => isDie die
  | .disturbLimit die _ => isDie die
  | .readLevelSave tile => isTile tile
  | .fingerprintReport _ _ _ _ _ _ => true
  | .parityMismatchLocate _ _ _ _ _ => true
  | .rowStoreExpiry _ _ _ => true
  | .reconstructionDone _ _ _ => true
  | .lostRangeSearch _ _ _ _ => true
  | .healBandStart _ => true
  | .substDone _ _ _ => true
  | .verifyStart tile value => isTile tile && isWord value
  | .verifyEnd tile _ => isTile tile
  | .sjTailTimer _ => true
  | .sjSnapshot _ => true
  | .sjCopyLost _ _ => true
  | .sjCopyRestored _ _ => true
  | .bpmEnable tile value => isTile tile && isWord value
  | .bufferAllocate tile _ _ _ => isTile tile
  | .bufferFree tile _ => isTile tile
  | .poolReset tile value => isTile tile && isWord value
  | .poolRebuildDone tile _ => isTile tile
  | .cmpEnable tile value => isTile tile && isWord value
  | .compressJob tile j => isTile tile && j.job.wellFormed
  | .decompressJob tile j => isTile tile && j.job.wellFormed
  | .crcOnlyJob tile j => isTile tile && j.job.wellFormed
  | .streamSlotTimeout tile _ => isTile tile
  | .cryEnable tile value _ => isTile tile && isWord value
  | .encryptJob tile _ _ => isTile tile
  | .decryptJob tile _ _ => isTile tile
  | .digestDirectOpen tile _ _ _ _ => isTile tile
  | .digestSnoopOpen tile _ _ _ _ _ _ => isTile tile
  | .digestData tile _ _ _ => isTile tile
  | .snoopStreamEnd tile _ _ => isTile tile
  | .digestFinish tile _ _ _ => isTile tile
  | .digestRelease tile _ => isTile tile
  | .signatureVerifyRequest tile _ _ _ _ => isTile tile
  | .signatureVerifyDone tile => isTile tile
  | .drcEnable tile value => isTile tile && isWord value
  | .dramStartStep tile _ => isTile tile
  | .dramRead tile _ _ => isTile tile
  | .dramAlert tile _ _ _ => isTile tile
  | .refreshDue tile _ _ => isTile tile
  | .tempPoll tile _ => isTile tile
  | .scrub tile _ _ => isTile tile
  | .rowIdleClose tile _ _ _ _ => isTile tile
  | .rankPowerDown tile _ => isTile tile
  | .retrainStep tile _ _ _ => isTile tile
  | .dramMarginLow tile _ => isTile tile
  | .captureStatusRead tile => isTile tile
  | .drcRestart tile value => isTile tile && isWord value
  | .getLogPageErrorInformation _ => true
  | .getLogPageSmartHealth _ nsid => isWord nsid
  | .getLogPageEnduranceGroup _ _ => true
  | .getLogPageFirmwareSlot _ => true
  | .getLogPageDiscovery _ => true
  | .getLogPageFrozenQueues _ => true
  | .getLogPageTenantService _ => true
  | .getLogPageSecureDeallocProgress _ => true
  | .getLogPageLostRanges _ _ => true
  | .getLogPageFirmwareStaging _ => true
  | .getLogPageDeviceHealth _ => true
  | .read _ => true
  | .write _ => true
  | .flush _ => true
  | .compare _ => true
  | .writeZeroes _ => true
  | .verify _ => true
  | .datasetManagement _ => true
  | .stepReissue _ => true
  | .commandInterruptTimeout _ => true
  | .firmwareImageDownload _ _ _ => true
  | .pieceWriteDone _ _ => true
  | .digestCheckDone => true
  | .firmwareCommitRecovery _ _ _ => true
  | .firmwareCommitNextStart _ _ => true
  | .firmwareCommitImmediate _ _ => true
  | .activationStart _ => true
  | .activationQuiescent => true
  | .activationEnd => true
  | .firmwareConfirm _ _ => true
  | .installStepDone _ => true
  | .boot _ _ => true
  | .bootPrimaryTimeout _ _ => true
  | .cflashOperationDone _ _ => true
  | .cflashIdleOff => true
  | .stageClear value => isWord value
  | .portDrainEnd tile => isTile tile
  | .laneRestart tile => isTile tile
  | .hostLinkUp tile port _ _ _ => isTile tile && isPort port
  | .hostLinkDown tile port => isTile tile && isPort port
  | .meshPacketReceived tile _ pkt _ => isTile tile && pkt.wellFormed
  | .meshPacketSent tile _ => isTile tile
  | .mgmtEscape tile _ => isTile tile
  | .meshLinkDown tile _ _ => isTile tile
  | .meshLinkRetrain tile _ _ => isTile tile
  | .routeHoldEnd _ _ => true
  | .transportConnectionClosed _ => true
  | .neighbourResolutionRequest tile port _ _ => isTile tile && isPort port
  | .echoRequest tile port _ _ _ => isTile tile && isPort port
  | .priorityPauseFrame tile port _ _ => isTile tile && isPort port
  | .powerFailDeclared => true
  | .pfWarn _ => true
  | .sagEnd => true
  | .budgetRecompute _ _ => true
  | .bankAbsent => true
  | .dischargeTestStart => true
  | .testInterval => true
  | .hsenseRise => true
  | .testCharged _ => true
  | .testEsrSample _ => true
  | .testDischargeEnd _ => true
  | .testTimeout => true
  | .testNow => true
  | .bankRelease => true
  | .bankSafe => true
  | .prepareOff => true
  | .offReady => true
  | .dumpTileReport tile _ => isTile tile
  | .restartRecordTimeout _ => true
  | .postDumpRestart => true
  | .holdupRelease => true
  | .restart _ _ => true
  | .dumpRelease => true
  | .sensorConversion tile _ _ => isTile tile
  | .sensorFault tile _ _ => isTile tile
  | .sensorRestored tile _ => isTile tile
  | .throttleStep tile => isTile tile
  | .throttleFall tile => isTile tile
  | .rateWindow tile => isTile tile
  | .compensationStep tile => isTile tile
  | .oscillatorCalibration _ => true
  | .refclkLost _ => true
  | .refclkRevert => true
  | .refclkBothLost => true
  | .refclkReturn _ => true
  | .ethrefLost => true
  | .ethrefReturn => true
  | .lightEntry tile => isTile tile
  | .tileWake tile => isTile tile
  | .deepEntry => true
  | .deepTimerWake _ => true
  | .deepWake => true
  | .avsEnable value => isWord value
  | .avsStep _ => true
  | .avsMonitorLow _ => true
  | .pmbusFault _ => true
  | .pmbusAlert _ => true
  | .powerScaling _ _ => true
  | .isenseFault _ => true
  | .isenseRestored => true
  | .powerLimit _ _ => true
  | .operatingMinute => true
  | .epochEnd _ _ => true
  | .meteringCheckpoint _ => true
  | .boardTimeWrite hi => isWord hi
  | .eventRaised _ => true
  | .tokenRefill => true
  | .archiveAgeTimer => true
  | .archiveProgrammed => true
  | .evrCursorWrite _ => true
  | .windowData7Read => true
  | .bandFetchDone => true
  | .qeEnable tile value => isTile tile && isWord value
  | .mapEnable tile value => isTile tile && isWord value
  | .plcEnable tile value => isTile tile && isWord value
  | .rclEnable tile value => isTile tile && isWord value
  | .redEnable tile value => isTile tile && isWord value
  | .plpEnable value => isWord value
  | .counterLowRead offset => isOffset offset
  | .medDescDataAccess tile wr => isTile tile && wr.all isWord
  | .ldpcBaseDataRead tile => isTile tile
  | .digFuseDataRead tile => isTile tile
  | .thmHistDataRead tile => isTile tile
  | .thmSensorRead tile => isTile tile
  | .fwuMapDataRead => true
  | .registerWrite offset value => isOffset offset && isWord value
  | .heartbeat tile => isTile tile
  | .heartbeatMissing tile => isTile tile
  | .mgmtRestartTimeout tile => isTile tile
  | .fenceRequest by_ tile => isTile by_ && isTile tile
  | .vauxRise => true
  | .vauxLow => true
  | .vauxReturn => true
  | .vauxLoss => true
  | .pwrOkLow => true
  | .sysRstLLow => true
  | .sysRstLRelease _ => true
  | .bportPerstLRelease => true
  | .formatUnmapEnd nsid => isWord nsid
  | .resumeMinExpiry die => isDie die

end Sys2Proof
end

