-- ==== Sys2Proof/Tests/Slice0.lean ====
section
/-!
SUPPORT. Sys2Proof/Tests/Slice0.lean: small checks of the model, and for each statement a state that meets its hypotheses.
-/
namespace Sys2Proof.Tests
open Sys2Proof Sys2Proof.Machine

/-! ### WellFormed: an ill-formed command for each check, and a well-formed one beside it -/

theorem test_illformed_tile : Instr.wellFormed (.rdmaConnectionRequest 8 0 ⟨0, 1024⟩) = false := by decide
theorem test_illformed_port : Instr.wellFormed (.rdmaConnectionRequest 0 4 ⟨0, 1024⟩) = false := by decide
theorem test_wellformed_port : Instr.wellFormed (.rdmaConnectionRequest 7 3 ⟨0, 1024⟩) = true := by decide
theorem test_illformed_channel : Instr.wellFormed (.trainingBurst 64 0) = false := by decide
theorem test_illformed_die : Instr.wellFormed (.disturbLimit 16384 0) = false := by decide
theorem test_wellformed_die : Instr.wellFormed (.disturbLimit 16383 0) = true := by decide
theorem test_illformed_half : Instr.wellFormed (.controllerReset 65536) = false := by decide
theorem test_illformed_word : Instr.wellFormed (.registerWrite 0 (2 ^ 32)) = false := by decide
theorem test_illformed_offset : Instr.wellFormed (.counterLowRead (2 ^ 25)) = false := by decide
theorem test_illformed_descriptor : Instr.wellFormed (.descriptorFetch [0] true) = false := by decide

theorem test_illformed_packet : MeshPkt.wellFormed { src := 8, dst := 0, cls := .m, seq := 0, len := 1 } = false := by decide
theorem test_illformed_job :
    CmpJob.wellFormed ⟨256, 0, 0, 0, 0, 0, 0, 0, 0, 0, 0⟩ = false ∧ CmpJob.wellFormed ⟨255, 0, 0, 0, 0, 0, 0, 0, 0, 0, 0⟩ = true := by decide

/-- No word spells a command: the table gives its rows no bits. -/
theorem test_no_bits : decodeTableWord 32 0x12345678 = none := rfl

/-! ### States for the tests below -/

set_option Elab.async false
set_option linter.unusedVariables false

/-- The package in RUN, every tile in service. -/
def run : State := { State.reset with island := { State.reset.island with pkg := 2, vaux := true, sysRst := false } }
def setFlds (l : List (Nat × Nat × Fld × Nat)) (s : State) : State := l.foldl (fun s x => setFld x.1 x.2.1 x.2.2.1 x.2.2.2 s) s
def capAt (op : IoOp) (nsid slba nlb : Nat) : Capsule :=
  { cid := 7, op := op, nsid := nsid, slba := slba, nlb := nlb, sglLen := nlb * 4096, descs := 1, bitBucket := false, invKey := none,
    ce := false, inCap := [], inCapLen := 0, bytes := 64, hdgstOk := true, ddgstOk := true }
def cmdOf (id sqid : Nat) (op : IoOp) (ph : Phase) : Cmd :=
  { id := id, tile := 0, cntlid := 1, payer := { cntlid := 1, tenant := 0, inc := 0 }, sqid := sqid, cap := capAt op 1 0 1, cls := .h1, phase := ph, data := [], pieces := [],
    extents := [], updates := [], status := .success, dw0 := 0, discard := false, took := false, plan := [], sweep := 0,
    sweepSync := false, bufs := [], fetchMs := 0, heldMs := 0, behindWrites := false, asked := false, lost := [],
    lostMs := none, waitFor := [], charged := 0 }
def ctrlOf (cntlid : Nat) : Ctrl :=
  { inc := 0, cntlid := cntlid, tile := 0, ident := .nqn [0x61], discovery := false, tenant := 0, provider := true, enabled := true,
    ready := true, ams := 0, shst := 0, shutting := false, orderMode := 0, grant := none, kato := 0, kaDeadline := 0, share := 1,
    budget := 0, budgetLeft := 0, latency := 0, deficits := [], demotions := 0, arbBurst := 0, arbWeights := (0, 0, 0),
    coalesce := (0, 0), noCoalesce := [], aers := [], aens := [], errors := [], errorCount := 0, anaState := 1 }
def sqOf (cntlid sqid : Nat) : Sq :=
  { cntlid := cntlid, sqid := sqid, tile := 0, base := 0, size := 16, cqid := sqid, reqClass := 2, mediaOnly := false, frozen := none, recv := [],
    head := 0, tail := 0, transport := .tcp }
def cqOf (cntlid cqid : Nat) : Cq :=
  { cntlid := cntlid, cqid := cqid, base := 0, size := 16, head := 0, tail := 0, reserved := 1, vector := cqid, ien := true }
/-- A controller with one I/O queue pair. -/
def ctrled (cs : List Cmd) (s : State) : State :=
  { s with host := { s.host with ctrls := [ctrlOf 1], sqs := [sqOf 1 0, sqOf 1 1], cqs := [cqOf 1 0, cqOf 1 1], cmds := cs, nextCmd := 9 } }
/-- An admin command that runs. -/
def adminRuns : State := ctrled [cmdOf 1 0 (.admin 0) .running] run

def ringOneRuns : State := setFlds [(8, 1, .bpt_ring_cfg_ring_en, 1)]
  { run with board := { run.board with running := some { bytes := List.replicate 64 3, index := 0, drop := false } } }
def recOf (n : Nat) : EvRec :=
  { seq := n, code := 1, sev := 3, tile := 0, flags := 0, minutes := 0, cycles := 0, repeats := 0, params := [], archived := false,
    ms := 0 }
def withRecs (l : List Nat) (s : State) : State := { s with evr := { s.evr with store := l.map recOf, last := 7 } }
def bandOf (sg idx : Nat) (st : BandState) : Band :=
  { sg := sg, idx := idx, seq := 0, state := st, slc := false, mapBand := false, early := false, sealMin := 0, rows := 0,
    stream := .hostQlc, blocks := [5, 6], why := none, toScan := [], committed := false, drainMs := 0, erased := [],
    retireMembers := [], nextRow := 0, sweepIds := [], named := [] }
def blkOf (die block wear : Nat) : Blk :=
  { die := die, block := block, state := .good, wear := wear, placed := 0, grains := 0, live := 0, summary := 0, reads := 0,
    retire := false }
def groupOf (sg : Nat) (ms : List Nat) : Group :=
  { sg := sg, tileSafe := false, members := ms, state := .optimal, lost := [], healed := 0 }
/-- A group of four dies with two FREE bands. -/
def withFree (s : State) : State :=
  { s with
    red := { s.red with formed := true, groups := [groupOf 0 [0, 1, 2, 3]] }
    rcl := { s.rcl with
      bands := [bandOf 0 0 .free, { bandOf 0 1 .free with blocks := [7, 8] }]
      blocks := [blkOf 0 5 1, blkOf 1 6 2, blkOf 0 7 9, blkOf 1 8 9] } }

/-- The same group with 20 FREE bands. -/
def roomy (s : State) : State :=
  { withFree s with rcl := { (withFree s).rcl with bands := (List.range 20).map fun i => bandOf 0 i .free } }

def pktOf (src dst : Nat) (vc : Vc) : MeshPkt :=
  { src := src, dst := dst, seq := 0, len := 2048
    cls := match vc with | .urgent => .h0 | .host => .h1 | .background => .b1 | .mgmt => .m }
def linkOf (tile : Nat) (link : MeshPort) (up : Bool) : MeshLink :=
  { tile := tile, link := link, up := up, replays := [], total := 0 }
/-- Tile 0's rank-next link is up at both ends; these packets wait for it. -/
def meshed (ks : List MeshPkt) (esc : List (Nat × MeshPort × MeshPort)) : State :=
  { run with mesh := { run.mesh with
      links := [linkOf 0 .rankNext true, linkOf 1 .rankPrevious true, linkOf 0 .knight false, linkOf 2 .knight false]
      queues := ks.map fun k => { tile := 0, out := .rankNext, vc := k.vc, inp := .localPort, pkts := [k] }
      wire := [{ tile := 0, out := .rankNext, inp := .localPort, pkt := pktOf 0 1 .host }]
      escapes := esc } }
def poolOf (n : Nat) : Pool :=
  { tile := 0, pool := n, head := handleOf 0 n 0 2, free := 500, alloc := [0, 1], gens := [], quarantined := false, resetting := false,
    late := [] }
/-- Tile 0 has its pool of 4 KiB buffers, with two of them allocated. -/
def pooled : State :=
  { run with pools := [poolOf 2]
             mem := writeBytes (bufAddr run (handleOf 0 2 0 2)) (linkBytes (handleOf 0 2 0 3) 0 2) [] }
def h0 : Nat := handleOf 0 2 0 0
def h1 : Nat := handleOf 0 2 0 1
def jobOf (fl n : Nat) : CmpJob :=
  { client := 1, cls := 0, flags := fl, slot := 0xFF, inHandle := h0, inLen := n, outHandle := h1, outMax := 4096, expCrc := 0,
    expLen := 0, source := n }
/-- The engine enabled, and a DEFLATE stream of one stored block with the byte 0x61 in the first buffer. -/
def cmpOn : State :=
  let s := setFlds [(0, 0, .cmp_cfg_cmp_enable, 1), (0, 0, .bpm_cfg_bpm_enable, 1)] pooled
  { s with mem := writeBytes (bufAddr s h0) [1, 1, 0, 0xFE, 0xFF, 0x61] s.mem }
def slotOf (k : Nat) : CmpSlot :=
  { tile := 0, slot := k, op := .compress, client := 1, cls := 0, input := [], outLen := 0, lastMs := 0 }
def cryJobOf (n : Nat) : CryJob :=
  { cls := 0, slot := 0, keyGen := 0, unit0 := 0, writeSeq := 5, nsid := 1, inHandle := h0, outHandle := h1, length := n }
def keyOf (k : Nat) : KeySlot :=
  { tile := k, slot := 0, key1 := List.replicate 32 1, key2 := List.replicate 32 2, loaded := true, zeroiseFail := false }
def cryOn : State :=
  let s := setFlds [(0, 0, .cry_cfg_cry_enable, 1), (0, 0, .bpm_cfg_bpm_enable, 1)] pooled
  { s with cry := { s.cry with slots := [keyOf 0] } }
def nsAt (n : Nat) (st : NsState) : Ns :=
  { nsid := n, nsze := 4096, ncap := 4096, endgid := 1, compMode := 0, owner := 1, state := st, keyGen := 0, wrapped := none,
    attached := [1], limits := { rdIops := 0, wrIops := 0, rdMbps := 0, wrMbps := 0, burstMs := 0 }, newLimits := none,
    secure := false, nuse := 0, unmapping := false, step := 0 }
def withNs (st : NsState) (s : State) : State := { s with reg := { s.reg with nss := [nsAt 1 st] } }
def ctxOf (k : Nat) (st : DigState) : DigCtx := { newCtx 0 k 3 1 .none none with state := st, len := 2 }
def withCtxs (l : List DigCtx) (s : State) : State := { s with cry := { s.cry with ctxs := l } }
def accOf (c : Nat) : DramAcc := { subch := 0, rank := 1, group := 7, bank := 3, row := 5, column := c, cls := 1 }
def dramOf (step : Nat) : Dram :=
  { tile := 0, step := step, ready := step == 5, rate := 3, frozen := false, restarting := false, capRead := false, cap := none,
    hot := false, coolPolls := 0, overtemp := false
    ranks := [{ rank := 0, debt := 3, down := false, selfRef := false, rdMargin := 31, wrMargin := 40, trainMs := 0 },
              { rank := 1, debt := 0, down := true, selfRef := false, rdMargin := 32, wrMargin := 40, trainMs := 0 }]
    banks := [{ subch := 0, rank := 0, group := 7, bank := 3, open_ := some 5, last := some 5, hist := 15 }], ces := [] }
def withDram (d : Dram) (s : State) : State := { s with drams := [d] }

/-- A read of a burst of rank `r` waits at the channel of tile 0. -/
def dramWaits (r : Nat) : State := submit 0 .dram .h0 (.dram { accOf 0 with rank := r } []) (withDram (dramOf 5) run)

def sensorOf (r : Option Int) (faulty warned : Bool) : Sensor :=
  { tile := 0, idx := 8, reading := r, peak := 0, faulty := faulty, warned := warned, windowRef := 400 }
def thermTileOf (level : Nat) : ThermTile :=
  { tile := 0, level := level, changedMs := 0, trig := .none, hist := List.replicate 16 0, sleep := 0, critPending := false }
def withSensor (x : Sensor) (level : Nat) (s : State) : State :=
  { s with therm := { s.therm with sensors := [x], tiles := [thermTileOf level] }, nowMs := 1000 }
/-- Rail 15 is adaptive, from 0.70 V to 0.85 V. -/
def railed (fault : Bool) : State :=
  let s := setFlds [(8, 0, .pwr_cfg_avs_enable, 1), (8, 15, .pwr_rail_cfg_kind, 2), (8, 15, .pwr_rail_cfg_vmin, 140),
    (8, 15, .pwr_rail_cfg_vmax, 170)] run
  { s with power := { s.power with rails := [{ idx := 15, vset := 160, fault := fault, status := 0 }] } }
def withClk (act : Nat) (hold : Bool) (s : State) : State :=
  { s with clk := { s.clk with aOk := true, bOk := true, active := act, holdover := hold } }
def dumpOf (reported : List Nat) (ms : Option Nat) (complete restored : Bool) : Dump :=
  { seq := 1, reported := reported, dirs := [], primaryMs := ms, exts := [], heads := [], tails := [], complete := complete, restored := restored }
def withDump (d : Dump) (s : State) : State := { s with plp := { s.plp with dump := some d } }
def testOf (step : Nat) : TestRun := { step := step, startMs := 0, stepMs := 0, v0 := 35000, v1 := 35000, esr := 40 }
def withTest (step now : Nat) (s : State) : State := { s with plp := { s.plp with test := some (testOf step) }, nowMs := now }
def withEvents (l : List EvRaise) (s : State) : State := { s with evr := { s.evr with raised := l } }

def extOf (seq : Nat) (st : Stage) : Ext :=
  { seq := seq, nsid := 1, slba := 0, nblk := 1, compressed := false, raw := false, static := false, len := 2, keyGen := 0, crc := 0,
    plain := [1, 2, 3], body := [], stream := .hostQlc, port := 0, cmd := 1, src := none, mask := [], stage := st, addr := 0, sg := 0,
    band := 0, row := 0, member := 0, inDram := false, mirrorTile := 1, mirrorHeld := false, committed := false, replacing := false,
    parts := [], payer := { cntlid := 1, tenant := 1, inc := 0 }, acked := false }
def deepReady : State := setFlds [(8, 0, .pwr_cfg_deep_en, 1)] run
def holdReady (en : Nat) : State :=
  setFlds [(8, 0, .plp_cfg_plp_enable, en), (8, 0, .plp_sense_hsense_ratio, 16)]
    { run with plp := { run.plp with causes := [2], capUf := 400000 } }
def chanOf (ch : Nat) (st : ChState) : Chan :=
  { ch := ch, state := st, step := 1, rate := 3, limit := 8, margin := 50, downAt := [], lastDown := 0, pinned := false, loads := [0],
    bursts := [], turn := 0 }
def dieAt (d : Nat) : Die :=
  { die := d, failed := false, lastBg := false, hist := [], wrr := [1, 1, 1], resumed := false, slow := [], notReady := false,
    uncorr := [], patrolBlock := 0, patrolPage := 0 }
/-- Die geometry: 4 planes, 4 logical units, 1,000 blocks, 2,000 word lines. -/
def withDesc (s : State) : State :=
  setFlds ((List.range 8).flatMap fun t => [(t, 0, Fld.med_desc_data_data, 4 * 65536), (t, 1, .med_desc_data_data, 1),
    (t, 2, .med_desc_data_data, 1000 + 2000 * 65536), (t, 3, .med_desc_data_data, 100 * 65536)]) s
/-- Every tile has completed discovery; 18 blocks of die 0 are in the seal band. -/
def withSeal (s : State) : State :=
  withDesc { s with
    red := { s.red with formed := true }
    media := { s.media with chans := chanOf 0 .up :: [8, 16, 24, 32, 40, 48, 56].map fun c => chanOf c .failed, dies := [dieAt 0] }
    rcl := { s.rcl with blocks := (List.range 18).map fun b => { blkOf 0 b 0 with state := .seal } } }
def holdTest (step now : Nat) : State :=
  setFlds [(8, 0, .plp_sense_hsense_ratio, 320), (8, 0, .plp_bank_vmin_mv, 30000), (8, 0, .plp_test_cfg_test_drop_mv, 2000),
    (8, 0, .plp_test_cfg_rtest_ohm, 100)] (withTest step now run)
def meterOf (tile kind cntlid nsid n : Nat) : Meter :=
  { inc := 0, tile := tile, kind := kind, cntlid := cntlid, nsid := nsid, tenant := 1, bytesIn := n, bytesOut := n, media := n, dieUs := n,
    commands := n, qos := 2, incomplete := false, ended := false }
def clockDue : State :=
  { run with clock := { run.clock with boardTime := 60000, meters := [meterOf 0 0 1 1 5, meterOf 1 0 1 1 6, meterOf 0 1 0 0 7] } }

/-- A descriptor runs: of kind 1, with this opcode and ring 1 on. -/
def opRuns (op : BitVec 8) (s : State) : State :=
  { s with board := { s.board with running := some { bytes := [1, op] ++ List.replicate 62 0, index := 0, drop := false } } }
def adminRing : State := { run with board := { run.board with
  running := some { bytes := List.replicate 64 0, index := 0, drop := false } } }
/-- An admin command of ring 1 runs, with data. -/
def ringData : State := { run with board := { run.board with
  running := some { bytes := List.replicate 64 1, index := 0, drop := false } } }
def egAt (id : Nat) : Eg :=
  { id := id, nvmSet := id, groups := [0], ratioPct := 100, mapPct := 100, stalemate := false, slcBuffer := 0, slcClosed := false,
    idlePromo := false, rated := 1 }
def connAt (id : Nat) (disc bound : Bool) : Conn :=
  { id := id, tile := 0, port := 0, iface := 0, transport := .tcp, discovery := disc, cntlid := 1, sqid := 0, bound := bound,
    nqn := [0x61], hdgst := false, ddgst := false, hpda := 0, mtu := 0, prio := 0, dscp := 0, failed := [] }
def portOf (mode : Nat) (up : List Nat) : Port :=
  { tile := 0, mode := mode, recon := 0, reconAt := 0, linkUp := up, narrow := [], pcieRate := 0, pcieWidth := 0, paused := [],
    allPaused := [] }
def withPort (mode : Nat) (up : List Nat) (s : State) : State := { s with host := { s.host with ports := [portOf mode up] } }
/-- A manifest that names one piece of 256 bytes, image ID 9. -/
def mfOf (kind : BitVec 8) : Bytes :=
  [0, 0, 0, 0, 1, 0, kind, 4, 9, 0, 0, 0, 0, 0, 0, 0, 0, 0, 0, 0, 0, 0, 0, 0, 0, 1, 0, 0, 1, 0]
def fwIn (stage : Nat) (g : Image) (s : State) : State := { s with fw := { s.fw with stage := stage, staging := g } }
def provFw (s : State) : State := { s with prov := some { adm := .ring, kind := .firmware } }
def ringed (k : Nat) (s : State) : State := setFlds [(8, k, .bpt_ring_cfg_ring_en, 1)] s
def putRings (l : List Ring) (s : State) : State := { s with board := { s.board with rings := l } }
def ringAt (k h t u : Nat) : Ring := { k := k, head := h, tail := t, unsignalled := u }
/-- Rings 0 and 1 run, with one descriptor waiting. -/
def fetchReady : State := ringed 0 (ringed 1 (putRings [ringAt 0 0 1 0, ringAt 1 0 0 0] { run with fw := { run.fw with running := true } }))
def netifData (t : BitVec 8) (fl : BitVec 8) : Bytes := [t, 3, 15, fl, 5, 0, 0xDC, 5] ++ List.replicate 56 0
def commitIn (n : Nat) (ring : Bool) (s : State) : State :=
  { s with board := { s.board with commit := { s.board.commit with state := n, fromRing := ring } } }

theorem length_ne : (List.replicate 13791 (0 : Byte)).length ≠ 13792 := by rw [List.length_replicate]; decide

/-- Tile 0's port in a mode, its links up, the package started. -/
def ported (mode : Nat) (up : List Nat) (s : State) : State :=
  withPort mode up { s with plp := { s.plp with started := true } }
def reconIn (n now : Nat) (cs : List Cmd) (s : State) : State :=
  { s with host := { s.host with ports := [{ portOf 1 [] with recon := n }], cmds := cs }, nowMs := now }
def netIf : NetIf := parseNetIf (netifData 0 0x2F)
def withNet (s : State) : State := { s with reg := { s.reg with netifs := [{ netIf with port := 0, index := 15, v4 := [1, 2, 3, 4] }] } }
def withConn (k : Conn) (s : State) : State := { s with host := { s.host with conns := [k] } }
def connReady (k : Conn) : State := withConn k (ported 1 [0] run)
def connOn (k : Conn) : State := setFlds [(0, 0, .qe_cfg_qe_enable, 1)] (connReady k)
def withPorts (l : List Port) (s : State) : State := { s with host := { s.host with ports := l } }
def tenantAt (i : CtrlIdent) : Tenant := { id := 1, ident := i, share := 1, budget := 0, latency := 0 }
def withTenant (i : CtrlIdent) (s : State) : State := { s with reg := { s.reg with tenants := [tenantAt i] } }
def dataOf (qid size cntlid : Nat) : ConnectData :=
  { cid := 5, hostNqn := [0x61], qid := qid, sqsize := size, cntlid := cntlid, kato := 0 }
def fullCtrl : Ctrl := { ctrlOf 1 with grant := some 16384 }
def withCtrls (l : List Ctrl) (s : State) : State := { s with host := { s.host with ctrls := l } }
def fetching (op : IoOp) (nlb : Nat) (d : Bytes) : Cmd := { cmdOf 1 1 op .dataFetch with cap := capAt op 1 0 nlb, data := d }
/-- A bound connection of the controller's I/O queue 1. -/
def ioConn : Conn := { connAt 1 false true with sqid := 1 }
def boundBy (k : Conn) (cs : List Cmd) : State := ctrled cs (connReady k)
def bound (cs : List Cmd) : State := boundBy ioConn cs
def fnCtrl : Ctrl := { ctrlOf 1 with ident := .function 0 63, enabled := false }
def adminRunsBy (c : Ctrl) : State := withCtrls [c] adminRuns
def pcieSq (recv : List Capsule) : Sq :=
  { sqOf 1 1 with transport := .pcie, recv := recv.map fun c => { cap := c, waits := [] } }
def arrived (c : Capsule) : Arrival := { cap := c, waits := [] }
def pcieQueues (s : State) : State :=
  let h := (ctrled [] s).host
  { s with host := { h with sqs := [pcieSq []] } }
def enabled (l : List Fld) (s : State) : State := setFlds (l.map fun f => (0, 0, f, 1)) s

def onAll (l : List Fld) (s : State) : State := setFlds ((List.range 8).flatMap fun t => l.map fun f => (t, 0, f, 1)) s
def pcieAdmin : State := adminRunsBy { fnCtrl with enabled := true, grant := some 4 }
def withQs (sqs : List Sq) (cqs : List Cq) (s : State) : State := { s with host := { s.host with sqs := sqs, cqs := cqs } }
def createRec : NsCreate := { nsze := 256, ncap := 256, flbas := 0, anagrpid := 1, endgid := 1, compMode := 2, ownerTenant := 0 }
def withEg (s : State) : State := { s with reg := { s.reg with egs := [{ egAt 1 with groups := [0] }] } }
/-- Every namespace ID is in use. -/
def allNs (s : State) : State := { s with reg := { s.reg with nss := (List.range 8192).map fun i => nsAt (i + 1) .ready } }
theorem freeNsid_allNs (s : State) (h : s.ident.part = .aqk8064) : freeNsid (allNs s) = none := by
  unfold freeNsid
  rw [List.find?_eq_none]
  intro x hx
  simp only [allNs, h, Part.namespaces, List.mem_map, List.mem_range] at hx
  obtain ⟨i, hi, rfl⟩ := hx
  simp only [allNs, nsAt, List.any_map, Bool.not_eq_true, Bool.not_eq_false', List.any_eq_true, List.mem_range, Function.comp]
  exact ⟨i, hi, by simp⟩
def deletingNs (step : Nat) (s : State) : State :=
  { s with reg := { s.reg with nss := [{ nsAt 1 .deleting with step := step }] } }
def provOf (k : ProvKind) (s : State) : State := { s with prov := some { adm := .host 1, kind := k } }
def unmappingNs (s : State) : State := { s with reg := { s.reg with nss := [{ nsAt 1 .ready with unmapping := true }] } }
def tenantData (id : BitVec 8) (ident : BitVec 8) : Bytes :=
  [id, 0, 1, 0, ident, 0, 1, 0] ++ List.replicate 504 0
def readPiece (lba : Nat) (st : PieceState) : Piece :=
  { lba := lba, count := 1, state := st, addr := 0, skip := 0, seq := 0, data := [] }
def reader (lba : Nat) (st : PieceState) : Cmd := { cmdOf 1 1 .read .lookup with pieces := [readPiece lba st] }
def spanOf : Span :=
  { off := 0, count := 1, skip := 0, addr := 5, len := 1, compressed := false, raw := false, zero := false, encrypted := false,
    keyGen := 0, seqLo := 7 }
def regionOf (r : Nat) (l0 l1 : Bool) : Region :=
  { emptyRegion 1 r with l0 := if l0 then some 0 else none, frame := if l1 then some 0 else none, spans := [spanOf] }
def mapped (rs : List Region) (cs : List Cmd) : State :=
  let s := withNs .ready (onAll [.map_cfg_map_enable] (ctrled cs run))
  { s with map := { s.map with regions := rs } }
def updOf (r : Nat) : Upd := { region := r, firstPos := 0, applied := false, mirrored := false, ownerOk := false, mirrorOk := false, lastPos := 0 }
def mapper (us : List Nat) : Cmd :=
  { cmdOf 1 1 .write .mapping with updates := us.map updOf, plan := [{ lba := 255, count := 1, seq := 9, gen := 0, kind := .zero }] }
def relocating (st : Stage) : Ext := { extOf 3 st with addr := 9, src := some 5, nsid := 1 }
def withExts (l : List Ext) (s : State) : State := { s with wr := { s.wr with exts := l } }

def slot0 : Nat := ownerSlot run 1 0
def mapWaits (s : State) : State :=
  { s with map := { s.map with waiting := [{ nsid := 1, r := 0, cls := .h1, cmd := 9, req := .lookup 9 0 }] } }
/-- The header of the record of region 0 of namespace 1, its body empty. -/
def recHead : Bytes := [1, 0, 0, 0, 1, 0, 0, 0] ++ List.replicate 24 0
def coalesced : Ext := { relocating .closed with parts := [(5, 7)] }
def okMapper : Cmd :=
  { mapper [0] with updates := [{ updOf 0 with applied := true, mirrored := true, ownerOk := true, mirrorOk := true }] }

/-- Every place for a fetch but those of class H0 is taken on the tile that owns region 0. -/
def fetchOthers : List Region :=
  ((List.range 4096).filter fun r => ownerSlot run 1 (r + 1) == ownerSlot run 1 0).take 240 |>.map fun r =>
    { emptyRegion 1 (r + 1) with fetching := some .b3 }

def dirtyR (d : Option Nat) (w : Option WriteBack) : Region := { regionOf 0 false true with dirty := d, wb := w }
def wbOf (first : Option Nat) : WriteBack := { addr := 9, len := 1, snap := 3, spans := [spanOf], first := first, cls := .b1, move := false }
def dirOf (d : Option Nat) (w : Option DirWb) : DirRec :=
  { slot := ownerSlot run 1 0, nsid := 1, index := 0, addr := 4, len := 1, dirty := d, wb := w, loaded := false }
def withDirs (l : List DirRec) (s : State) : State := { s with map := { s.map with dirs := l } }
def jOf (head : Nat) (closed : List Nat) (ledger : List (Nat × Nat)) : Journal :=
  { slot := ownerSlot run 1 0, head := head, durable := 8192, closed := closed, entries := [], window := 0, checkpoint := 0,
    tables := [], hot := false, ledger := ledger }
def journaled (j : Journal) (s : State) : State := { s with map := { s.map with journals := [j] } }
def fwdOf (replay applied confirmed : Bool) : Forward :=
  { cmd := 1, cls := .h1, read := none, part := [{ lba := 0, count := 1, seq := 9, gen := 0, kind := .zero }], nsid := 1, region := 0,
    sentMs := 0, arrived := applied, replay := replay, applied := applied, confirmed := confirmed }
def forwards (l : List Forward) (s : State) : State := { s with map := { s.map with forwards := l } }
def dirHead : Bytes := [2, 0, 0, 0, 1, 0, 0, 0] ++ List.replicate 24 0
/-- An address in a block of the die that the map-band helpers use, on the tile that owns region 0 of namespace 1. -/
def placeAt (blk : Nat) : Nat := grainAddr 10240 blk 0 0
/-- A map-band band with block 4 of that die, and one that is being reclaimed, with block 5. -/
def mapBands (st : BandState) (s : State) : State :=
  { s with red := { s.red with formed := true, groups := [groupOf 0 [10240]] }
           media := { s.media with chans := [chanOf 40 .up], dies := [dieAt 10240] }
           rcl := { s.rcl with bands := [{ bandOf 0 0 st with mapBand := true, blocks := [4] },
             { bandOf 0 1 .reclaiming with mapBand := true, blocks := [5] }] } }
def l2Rec : L2Rec := { addr := placeAt 5, len := 1, snap := 0, spans := [spanOf], pos := 0 }
def hotJ (s : State) : State := journaled { jOf 9000 [] [] with hot := true } s
def dirWb : DirWb := { addr := 9, len := 1, snap := 3, first := none, cls := .b1 }
def appliedMapper : Cmd := { mapper [0] with updates := [{ updOf 0 with applied := true }] }
/-- Only the tile that owns region 0 of namespace 1 is in service. -/
def alone (s : State) : State := { s with island := { s.island with fenced := [0, 1, 2, 3, 4, 6, 7] } }
/-- The tile that owns region 0 has four frames that may be dirty, and three dirty ones: the directories that it adopted took most of L1. -/
def fewFrames : State :=
  let rs := ((List.range 64).filter fun r => ownerSlot run 1 r == slot0).take 3
  let s := mapped (rs.map fun r => { emptyRegion 1 r with dirty := some 3, frame := some r }) []
  let s := setFlds [(5, 0, .map_paging_dirty_max_pct, 25), (5, 0, .map_l1_cfg_l1_gib, 1)] s
  { s with reg := { s.reg with nss := [{ nsAt 1 .ready with nsze := 16383 * 58720256 }] }, map := { s.map with away := [7] } }
def awayMap (hand : Bool) (s : State) : State :=
  { s with map := { s.map with away := [ownerSlot run 1 0], handBack := if hand then [ownerSlot run 1 0] else [] } }
/-- A namespace of the only endurance group, its buffers, and one command that is admitted. -/
def ioCmd (op : IoOp) (ph : Phase) : Cmd := { cmdOf 1 1 op ph with cap := capAt op 1 0 1 }
def ioOf (c : Cmd) (s : State) : State :=
  let s := enabled [.bpm_cfg_bpm_enable] (ctrled [c] s)
  { s with reg := { s.reg with nss := [nsAt 1 .ready], egs := [egAt 1] }
           host := { s.host with ctrls := [{ ctrlOf 1 with tenant := 1 }] }
           plp := { s.plp with writeThrough := false } }
def noData (op : IoOp) (ph : Phase) : Cmd := { ioCmd op ph with cap := { capAt op 1 0 1 with sglLen := 0 } }
def stopped (s : State) : State := { s with reg := { s.reg with egs := [{ egAt 1 with stalemate := true }] } }
def heldEg (s : State) : State := { s with map := { s.map with bandHigh := [1] } }
def tightNs (s : State) : State := { s with reg := { s.reg with nss := [{ nsAt 1 .ready with nuse := 4096 }] } }
def secureNs (s : State) : State := { s with reg := { s.reg with nss := [{ nsAt 1 .ready with secure := true }] } }
def quick (s : State) : State := { s with plp := { s.plp with writeThrough := false } }
def wt (s : State) : State := { s with plp := { s.plp with writeThrough := true } }
def seqReady (s : State) : State := { s with wr := { s.wr with leases := [{ tile := 0, next := 5, last := 10, more := none }] } }
/-- An earlier read of the same queue has not had its turn. -/
def behind (c : Cmd) (s : State) : State :=
  { s with host := { s.host with cmds := [{ c with id := 2 }, { cmdOf 1 1 .read .reading with took := false }] } }
def sweepOf (id st : Nat) (cmd : Option Nat) : Sweep :=
  { id := id, nsid := 1, eg := 1, ranges := [(0, 1)], kept := true, state := st, unerased := 0, bands := [], doneBands := 0, relocBytes := 0,
    startMin := 0, doneMin := 0, cmd := cmd, rows := [] }
def withSweeps (l : List Sweep) (s : State) : State := { s with rcl := { s.rcl with sweeps := l } }

def grouped (s : State) : State :=
  { s with red := { s.red with formed := true, groups := [groupOf 0 [0, 1, 2, 3]] }
           media := { s.media with dies := [dieAt 0, dieAt 1, dieAt 2, dieAt 3] } }
def staged (st : Stage) (mirrorHeld : Bool) : State :=
  withDesc (grouped (withExts [{ extOf 5 st with mirrorHeld := mirrorHeld }]
    (setFlds [(0, 0, .plc_stage_cfg_stage_sram_mib, 1)] { run with plp := { run.plp with limitMib := 16 } })))
def noRoom (s : State) : State := { s with plp := { s.plp with throttling := true, writeThrough := false } }
def unitOf (m : Nat) (h : Option Nat) (ret : Bool) : RUnit := { member := m, holder := h, used := 0, returned := ret, recalled := false }
def rowAt (st : RowState) (us : List RUnit) : Row :=
  { sg := 0, band := 0, idx := 0, stream := .hostQlc, state := st, units := us, timer := false, expired := false, parity := [],
    pBytes := [], qBytes := [], fps := [], done := [], settled := false, coarse := [], closedMin := 0 }
def withRows (l : List Row) (s : State) : State := { s with wr := { s.wr with rows := l } }
def rowed (r : Row) : State :=
  let s := withDesc (grouped (enabled [.plc_cfg_plc_enable] run))
  withRows [r] { s with rcl := { s.rcl with bands := [{ bandOf 0 0 .open with blocks := [1, 2, 3, 4] }] } }

/-- Tile 0's pool of 64 KiB output and of 4 KiB buffers. -/
def pooled3 : State :=
  { pooled with pools := [poolOf 2, poolOf 3]
                mem := writeBytes (bufAddr run (handleOf 0 3 0 2)) (linkBytes (handleOf 0 3 0 3) 0 2) pooled.mem }
def zeroWrite : Cmd := { ioCmd .write .dataFetch with data := List.replicate 4096 0 }
def dsm (ad : Bool) : Cmd :=
  { ioCmd (.datasetManagement ad [(0, 5), (9, 0)]) .admitted with
    cap := { capAt (.datasetManagement ad [(0, 5), (9, 0)]) 1 0 1 with sglLen := 32 } }

def stagedCmd : Cmd :=
  { cmdOf 1 1 .write .staging with extents := [5], plan := [{ lba := 0, count := 1, seq := 5, gen := 0, kind := .extent }] }
def doneRow : Row := { rowAt .programming [] with done := [0, 1, 2, 3], settled := true }
/-- Row 0 of the band waits for the next row to settle it. -/
def padReady : State :=
  let s := rowed (rowAt .programming [])
  { s with rcl := { s.rcl with bands := [{ bandOf 0 0 .open with blocks := [1, 2, 3, 4], nextRow := 1 }] } }
def bigNs : Ns := { nsAt 1 .ready with ncap := 8 * 65536 }
def slcBand (slc : Bool) : State :=
  let s := withFree run
  { s with rcl := { s.rcl with bands := [{ bandOf 0 0 .sealed with slc := slc }] } }

/-- A descriptor that passes every check, on tile 0, and the blocks that come before the NAND side enabled. -/
def goodDesc : State :=
  setFlds ((List.range 8).map fun k => (0, k, Fld.med_desc_data_data,
    [1 + 4 * 65536, 1 + 5 * 256, 1000 + 200 * 65536, 40 + 80 * 65536, 400 + 2000 * 65536, 5000 + 50 * 65536,
      10 * 256 + 4 * 65536, 0].getD k 0)) (enabled [.bpm_cfg_bpm_enable, .drc_cfg_drc_enable] run)
def chAt (st : ChState) (step rate : Nat) : Chan := { chanOf 0 st with step := step, rate := rate }
def withChan (x : Chan) (s : State) : State := { s with media := { s.media with chans := [x], dies := [dieAt 0] } }
def burstCh (now : Nat) : State := { withChan { chanOf 0 .up with bursts := [(0, 0)] } run with nowMs := now }
def opOf (k : OpKind) (st : OpState) : DieOp :=
  { id := 3, die := 0, kind := k, use := .plain, words := 1, left := [0], cls := .h1, state := st, addr := 7 * 262144, cmd := 1, lba := 0, sg := 0, band := 0, row := 0,
    member := 0, fine := false, waited := false, step := 1, tries := 0, reads := 1, since := 0 }
def withOp (o : DieOp) (s : State) : State :=
  { s with media := { s.media with chans := [chanOf 0 .up], dies := [dieAt 0, dieAt 1, dieAt 2, dieAt 3], ops := [o], nextOp := 9 } }
def decoding (step tries : Nat) : DieOp := { opOf .read .decoding with addr := 0, step := step, tries := tries }
def soft3 (s : State) : State := setFlds [(0, 0, .ldpc_cfg_soft_bits, 3), (0, 0, .ldpc_cfg_retry_max, 4)] s
def lostGroup (s : State) : State := { s with red := { s.red with groups := [{ groupOf 0 [0, 1, 2, 3] with state := .unavailable }] } }
def passOf : DieOp := { opOf .program .active with cmd := 0, member := 1, die := 1 }
def dieOnly (x : Die) (s : State) : State := { s with media := { s.media with dies := [x] } }
def patrolBand : Band := { bandOf 0 0 .sealed with rows := 1 }
def patrolReady (s : State) : State :=
  let s := onAll [.med_cfg_patrol_en] (grouped s)
  { s with rcl := { s.rcl with bands := [patrolBand]
                               blocks := [{ blkOf 0 5 1 with reads := 1000000 }, { blkOf 0 99 0 with state := .bootBand }] } }
/-- A codeword at address 0 that is accepted, and one that fails. -/
def wordGood : Bytes × Option Bytes := (List.replicate 9 0, some [])
def wordBad : Bytes × Option Bytes := (List.replicate 9 0, none)
theorem one_word {P : Nat × Nat → Prop} (x : DieOp) (e : x.left = [0]) (h : P (0, 0)) : ∀ p, p ∈ x.left.zipIdx → P p := by
  intro p hp
  rw [e] at hp
  exact List.mem_singleton.mp hp ▸ h
theorem bad_word (a : Nat) : ¬ ∃ w, [wordBad][0]? = some w ∧ cwEnd a w = .erased := by
  rintro ⟨w, hw, he⟩
  cases hw
  have h : cwErased wordBad.1 = false := by decide
  simp only [cwEnd, h] at he
  change CwEnd.failed = CwEnd.erased at he
  exact absurd he (by decide)
def lostCw (s : State) : State :=
  { s with red := { s.red with lostSlots := [{ sg := 0, band := 0, row := 0, member := 0, cw := 0, dead := false }] } }

def withBands (l : List Band) (s : State) : State := { s with rcl := { s.rcl with bands := l } }
def bnd (st : BandState) : Band := bandOf 0 0 st
def reclaims (b : Band) : State := withBands [b] (onAll [.rcl_cfg_rcl_enable] (grouped run))
def flashOf (lost : List Nat) : FExt :=
  { addr := 5, seq := 7, nsid := 1, slba := 0, nblk := 1, compressed := false, raw := false, static := false, len := 1, keyGen := 0,
    crc := 0, plain := [], body := [], sg := 0, band := 0, row := 0, member := 0, lost := lost }
def withFlash (l : List FExt) (s : State) : State := { s with rcl := { s.rcl with flash := l } }
/-- A read of the second block of a raw extent, at reconstruction. -/
def laterPart : DieOp := { opOf .read .recon with addr := 0 }
def rawRead : State :=
  let c := { reader 0 .flash with pieces := [{ readPiece 0 .flash with skip := 1 }] }
  withFlash [{ flashOf [] with addr := 0, nblk := 2, raw := true }] (grouped (withOp laterPart (ctrled [c] run)))
def stuckEg : Eg := { egAt 1 with stalemate := true }
def census (s : State) : State :=
  { s with reg := { s.reg with egs := [egAt 1] }, rcl := { s.rcl with censusDone := [0], bands := [] } }
/-- The group of endurance group 1 has one FREE band above its reserve. -/
def gains : State :=
  let s := setFlds [(0, 0, .rcl_thresh_endgame_bands, 0)] (reclaims (bnd .free))
  { s with reg := { s.reg with egs := [stuckEg] } }
def scanning : Band := { bnd .reclaiming with toScan := [5] }
def pages (l : List Region) (s : State) : State := { s with map := { s.map with regions := l } }
def eraseWait (now : Nat) : State := { reclaims (bnd .erasePending) with nowMs := now }
def blocked (s : State) : State := { s with rcl := { s.rcl with blocks := [blkOf 0 5 1, blkOf 1 6 1, { blkOf 1 9 0 with state := .spare }] } }
def toCensus (l : List (Nat × Nat)) (s : State) : State := { s with rcl := { s.rcl with toCensus := l } }
def allSummed (s : State) : State := { s with rcl := { s.rcl with summariesDone := List.range 8 } }
def sweepCmd : Cmd :=
  { cmdOf 1 1 (.datasetManagement true [(0, 1)]) .draining with sweep := 4, sweepSync := true, took := true }
def flashFails (s : State) : State := { s with fw := { s.fw with flash := { s.fw.flash with failed := true } } }
def part2016 (s : State) : State := { s with ident := { s.ident with part := .aqk2016 } }
def fpOf (fps : List (Nat × Nat × Nat)) (mm : Bool) : FpRow := { sg := 0, band := 0, row := 0, fps := fps, since := 0, mismatch := mm }
def fpReady (l : List FpRow) : State :=
  let s := onAll [.red_cfg_parity_check_en] (grouped run)
  { s with red := { s.red with fpRows := l } }
def slotLost : State := { grouped run with red := { (grouped run).red with lostSlots := [{ sg := 0, band := 0, row := 0, member := 1, cw := 0, dead := true }] } }
def verifying (busy : Bool) (s : State) : State :=
  { s with red := { s.red with verify := [{ tile := 0, sg := 0, busy := busy, wrong := 0 }] } }
def hurt : Group := { groupOf 0 [0, 1, 2, 3] with state := .degraded, lost := [(1, 0)] }
/-- Member 1 of the group is lost; die 256 has spares above the floor. -/
def toHeal (b : Band) : State :=
  let s := withBands [b] (grouped run)
  setFlds ((List.range 8).flatMap fun t => [(t, 0, Fld.red_rebuild_rebuild_reclaim_pct, 20), (t, 0, .red_cfg_spare_keep, 0)])
    { s with red := { s.red with groups := [hurt] }
             media := { s.media with dies := [dieAt 0, { dieAt 1 with failed := true }, dieAt 2, dieAt 3, dieAt 2048] }
             rcl := { s.rcl with blocks := [{ blkOf 2048 4 0 with state := .spare }] } }
def substOf (done : Bool) : Subst := { sg := 0, band := 0, member := 1, die := 2048, block := 4, done := done, shared := false, next := 0 }
def substs (l : List Subst) (s : State) : State := { s with red := { s.red with substs := l } }
def sjOf (tail : List SjEntry) (lost : List Nat) : Sj := { sg := 0, tail := tail, flash := [], soloUntil := 0, copiesLost := lost }
def withSj (j : Sj) : State := { grouped run with red := { (grouped run).red with sjs := [j] } }
def allOn (l : List Fld) : State :=
  { enabled l run with drams := [dramOf 5], media := { run.media with dies := [dieAt 0] } }
/-- Everything that comes before the map, on tile 0. -/
def beforeMap : State :=
  setFlds [(0, 0, .drc_cfg_density, 2), (0, 0, .drc_cfg_ranks, 1), (0, 0, .map_dir_cfg_dir_gib, 1), (0, 0, .map_l1_cfg_l1_gib, 2),
    (0, 0, .map_cfg_l0_frames, 1024)] (allOn [.med_cfg_med_enable, .red_cfg_red_enable, .cmp_cfg_cmp_enable])

def netAt (flags : Nat) : NetIf := { netIf with port := 0, index := 15, v4 := [1, 2, 3, 4], flags := flags }
def withIf (n : NetIf) (s : State) : State := { s with reg := { s.reg with netifs := [n] } }
def noIo (s : State) : State := withQs [sqOf 1 0] [cqOf 1 0] s
def qpTaken (c : Ctrl) (s : State) : State := withCtrls [c, { ctrlOf 2 with grant := some 16384 }] s
def pcieCtrl : Ctrl := { fnCtrl with enabled := true }

/-! ### The worked cases of the spec -/

/-- The case under R9. -/
theorem test_case_grain_address : grainAddr (dieIndex 12 3 5) 1000 2049 17 = 0xC1D0FA20051 := by decide
/-- The case under R326. -/
theorem test_case_handle : handleOf 5 2 0x3C 300 = 0xA8F0012C := by decide
/-- The case under R358. -/
theorem test_case_tweak : xtsTweak 0x00004C2E19F0 2 12 =
    [0xF0, 0x19, 0x2E, 0x4C, 0, 0, 2, 0, 0x0C, 0, 0, 0, 0, 0, 0, 0] := by decide
/-- The table under R169: 16 blocks to 23,000 bytes, 3 blocks to 12,000 and to 12,300. -/
theorem test_case_compressed_or_raw :
    [(16, 23000), (3, 12000), (3, 12300)].map (fun x => (storedLen x.2, rawCost x.1, keepsCompressed x.1 x.2)) =
      [(90, 258, true), (47, 49, true), (49, 49, false)] := by decide
/-- The case under R137: a write of blocks 4 and 5 into a span of 16. -/
theorem test_case_small_overwrite :
    (insertSpan { spanOf with off := 4, count := 2, addr := 9 } (cutSpans 4 2 [{ spanOf with off := 0, count := 16 }])).map
      (fun x => (x.off, x.count, x.skip, x.addr)) = [(0, 4, 0, 5), (4, 2, 0, 9), (6, 10, 6, 5)] := by decide
/-- The case under R269: the powers and products that it names. -/
theorem test_case_recovery : (gfMul (gfPow 1) 0x35, gfMul (gfPow 4) 0xA0, gfMul (gfPow 3) 0x95, gfMul 0x09 0x35) =
    ((0x6A : Byte), (0xD2 : Byte), (0xDC : Byte), (0x80 : Byte)) := by decide
/-- The case under R302: 30 mF at 35 V with vmin_mv 12,000. -/
theorem test_case_limit :
    (twiceEnergy 30000 35000 12000 * 4 / 10 - (dumpCost .aqk8064).1) * 1024 / (dumpCost .aqk8064).2.1 = 14304 := by decide
/-- The case under R306, in units of 0.1 mF: 176.5 ms from 35.0 V to 33.0 V. -/
theorem test_case_discharge : (capFound 176500 100 35000 33000 + 50) / 100 = 300 := by decide +kernel
/-- The case under R187: the SLC buffer at 20% and at 70% fill. -/
theorem test_case_slc_share : (slcShare 200, slcShare 700) = (600, 300) := by decide
/-- The case under R81: 200 commands an interval, of which tiles 0, 3 and 1 get 134.375, 46.875 and 3.125. -/
theorem test_case_read_limit : (allotment 200000 8 150 200 true, allotment 200000 8 50 200 true, allotment 200000 8 0 200 true) =
    ((34400 : Rat), (12000 : Rat), (800 : Rat)) := by decide +kernel
/-- The case under R123: 2,400,000 mJ among a tenant's pairs, the background and the overhead. -/
theorem test_case_epoch :
    let r (kind media die cmds out : Nat) : MeterRec :=
      { inc := 0, epoch := 0, epochs := 1, kind := kind, cntlid := 0, tenant := 0, nsid := 0, flags := 0, bytesIn := 0, bytesOut := out * 1024,
        media := media * 1024, dieUs := die, commands := cmds, energy := 0, qos := 0 }
    (divideEnergy 2400000 false [r 0 0 5000000000 100000000 400000000, r 0 100000000 1000000000 20000000 80000000,
      r 1 50000000 400000000 0 0, r 2 38000000 800000000 0 0]).map (·.energy) = [1636800, 375360, 139200, 248640] := by decide +kernel
/-- The check value that is published for CRC32C. -/
theorem test_crc32c : crc32c [0x31, 0x32, 0x33, 0x34, 0x35, 0x36, 0x37, 0x38, 0x39] = 0xE3069283 := by decide +kernel
/-- The example of FIPS 197, C.3. -/
theorem test_aes256 : aesEncrypt ((List.range 32).map (BitVec.ofNat 8)) ((List.range 16).map fun k => BitVec.ofNat 8 (17 * k)) =
    [0x8e, 0xa2, 0xb7, 0xca, 0x51, 0x67, 0x45, 0xbf, 0xea, 0xfc, 0x49, 0x90, 0x4b, 0x49, 0x60, 0x89] := by decide +kernel
/-- The example of FIPS 180-4 with the message abc. -/
theorem test_sha256 : ofBE (sha256 [0x61, 0x62, 0x63]) = 0xba7816bf8f01cfea414140de5dae2223b00361a396177a9cb410ff61f20015ad := by
  decide +kernel

/-! ### For every statement with hypotheses, values that meet them, clause by clause -/

theorem test_witness_StepRunsTheFrontCommand :
    (∃ (c : Instr) (rest : List Instr) (s : State), (s.pending = c :: rest)) ∧
    (∃ (c : Adm × Instr) (rest : List (Adm × Instr)) (s : State), (s.pending = []) ∧ (s.released = c :: rest)) ∧
    (∃ (s : State), (s.pending = []) ∧ (s.released = [])) :=
  ⟨⟨.bandFetchDone, [.rateInterval], { State.reset with pending := [.bandFetchDone, .rateInterval] }, rfl⟩,
   ⟨(.ring, .bandFetchDone), [], { State.reset with released := [(.ring, .bandFetchDone)] }, ⟨rfl, rfl⟩⟩,
   ⟨State.reset, ⟨rfl, rfl⟩⟩⟩

theorem test_witness_EveryStepKeepsTheMemoryCanonical : ∃ (s t : State), (MemoryOk s) ∧ (step s = .next t) :=
  ⟨{ State.reset with pending := [.bandFetchDone] }, State.reset, ⟨rfl, rfl⟩⟩

theorem test_witness_WhenACommandRunsAndEnds :
    (∃ (k : AdminKind) (a : Adm) (i : Instr) (f : State → State) (s : State), (admWaits s a = false)) ∧
    (∃ (k : AdminKind) (a : Adm) (i : Instr) (f : State → State) (s : State), (admWaits s a = true) ∧ (s.fw.activating = true) ∧ (k ≠
      .atOnce)) ∧
    (∃ (k : AdminKind) (a : Adm) (i : Instr) (f : State → State) (s : State), (admWaits s a = true) ∧ ((s.fw.activating = false ∨ k =
      .atOnce)) ∧ (k.onPlane = true) ∧ (admProvider s a = false)) ∧
    (∃ (k : AdminKind) (a : Adm) (i : Instr) (f : State → State) (s : State), (admWaits s a = true) ∧ (s.fw.activating = false) ∧
      (k.onPlane = true) ∧ (admProvider s a = true) ∧ ((s.prov.isSome = true ∨ (s.released ≠ [] ∧ s.cleared.contains a = false)))) ∧
    (∃ (k : AdminKind) (a : Adm) (i : Instr) (f : State → State) (s : State), (admWaits s a = true) ∧ (s.fw.activating = false) ∧
      (admProvider s a = true) ∧ (planeBusy s a = false) ∧ (s.fw.flash.failed = true)) ∧
    (∃ (k : AdminKind) (a : Adm) (i : Instr) (f : State → State) (s : State), (AdmRuns k a s)) ∧
    (∃ (k : AdminKind) (a : Adm) (i : Instr) (f : State → State) (s : State), (s.cleared = [])) ∧
    (∃ (k : AdminKind) (a : Adm) (i : Instr) (f : State → State) (s : State), (s.cleared.contains a = false)) ∧
    (∃ (id dw0 : Nat) (st : Status) (c : Cmd) (s : State), (findCmd s id = some c) ∧ (c.discard = false) ∧ ((∀ x ∈ s.host.cmds, x.id ≠
      id → x.phase ≠ .ended)) ∧
        (let e := { c with phase := .ended, status := st, dw0 := dw0, took := true };
        (let s1 := updCmd id (fun c => { c with phase := .ended, status := st, dw0 := dw0, took := true }) s; (mayPost s1 e = true)))) ∧
    (∃ (id dw0 : Nat) (st : Status) (c : Cmd) (s : State), (findCmd s id = some c) ∧ (c.discard = false) ∧ ((∀ x ∈ s.host.cmds, x.id ≠
      id → x.phase ≠ .ended)) ∧
        (let e := { c with phase := .ended, status := st, dw0 := dw0, took := true };
        (let s1 := updCmd id (fun c => { c with phase := .ended, status := st, dw0 := dw0, took := true }) s; (mayPost s1 e = true) ∧ (c.cap.op ≠ .read ∨ st ≠ .success)))) ∧
    (∃ (id dw0 : Nat) (st : Status) (c : Cmd) (s : State), (findCmd s id = some c) ∧ (c.discard = false) ∧ ((∀ x ∈ s.host.cmds, x.id ≠
      id → x.phase ≠ .ended)) ∧
        (let e := { c with phase := .ended, status := st, dw0 := dw0, took := true };
        (let s1 := updCmd id (fun c => { c with phase := .ended, status := st, dw0 := dw0, took := true }) s; (mayPost s1 e = true) ∧ (c.cap.op = .read) ∧ (st = .success)))) ∧
    (∃ (id dw0 : Nat) (st : Status) (c : Cmd) (s : State), (findCmd s id = some c) ∧ (c.discard = false) ∧ ((∀ x ∈ s.host.cmds, x.id ≠
      id → x.phase ≠ .ended)) ∧
        (let e := { c with phase := .ended, status := st, dw0 := dw0, took := true };
        (let s1 := updCmd id (fun c => { c with phase := .ended, status := st, dw0 := dw0, took := true }) s; (mayPost s1 e = true) ∧ ∃ q, (c.sqid ≠ 0) ∧ (findSq s c.cntlid c.sqid = some q) ∧ (freezes q.mediaOnly st = true)))) ∧
    (∃ (id dw0 : Nat) (st : Status) (c : Cmd) (s : State), (findCmd s id = some c) ∧ (c.discard = false) ∧ ((∀ x ∈ s.host.cmds, x.id ≠
      id → x.phase ≠ .ended)) ∧
        (let e := { c with phase := .ended, status := st, dw0 := dw0, took := true };
        (let s1 := updCmd id (fun c => { c with phase := .ended, status := st, dw0 := dw0, took := true }) s; (mayPost s1 e = true) ∧ ∃ k, (st ≠ .success) ∧ (findCtrl s c.cntlid = some k)))) ∧
    (∃ (id dw0 : Nat) (st : Status) (c : Cmd) (s : State), (findCmd s id = some c) ∧ (c.discard = false) ∧ ((∀ x ∈ s.host.cmds, x.id ≠
      id → x.phase ≠ .ended)) ∧
        (let e := { c with phase := .ended, status := st, dw0 := dw0, took := true };
        (let s1 := updCmd id (fun c => { c with phase := .ended, status := st, dw0 := dw0, took := true }) s; (mayPost s1 e = false)))) ∧
    (∃ (id dw0 : Nat) (st : Status) (c : Cmd) (s : State), (findCmd s id = some c) ∧ (c.discard = true) ∧ ((∀ x ∈ s.host.cmds, x.phase
      ≠ .ended))) ∧
    (∃ (dw0 : Nat) (st : Status) (d : RunDesc) (s : State), (s.board.running = some d) ∧ (d.drop = false) ∧ (ringOn s 1 = true)) :=
  ⟨⟨.atOnce, .host 1, .rateInterval, id, run, by decide +kernel⟩,
   ⟨.management, .host 1, .rateInterval, id, { adminRuns with fw := { run.fw with activating := true } }, by decide +kernel⟩,
   ⟨.registry, .host 1, .rateInterval, id,
    { adminRuns with host := { adminRuns.host with ctrls := [{ ctrlOf 1 with provider := false }] } }, by decide +kernel⟩,
   ⟨.registry, .host 1, .rateInterval, id, { adminRuns with prov := some { adm := .ring, kind := .firmware } }, by decide +kernel⟩,
   ⟨.registry, .host 1, .rateInterval, id, { adminRuns with fw := { run.fw with flash := { run.fw.flash with failed := true } } },
    by decide +kernel⟩,
   ⟨.registry, .host 1, .rateInterval, id, adminRuns, by unfold AdmRuns; decide +kernel⟩,
   ⟨.registry, .host 1, .rateInterval, id, adminRuns, by decide +kernel⟩,
   ⟨.registry, .host 1, .rateInterval, id, adminRuns, by decide +kernel⟩,
   ⟨1, 5, .success, cmdOf 1 0 (.admin 0) .running, adminRuns, by decide +kernel⟩,
   ⟨1, 5, .success, cmdOf 1 0 (.admin 0) .running, adminRuns, by decide +kernel⟩,
   ⟨1, 0, .success, cmdOf 1 1 .read .running, ctrled [cmdOf 1 1 .read .running] run, by decide +kernel⟩,
   ⟨1, 5, .internalError, cmdOf 1 1 .flush .running, ctrled [cmdOf 1 1 .flush .running] run, by decide +kernel, by decide +kernel,
    by decide +kernel, by decide +kernel, sqOf 1 1, by decide +kernel, by decide +kernel, by decide +kernel⟩,
   ⟨1, 5, .internalError, cmdOf 1 1 .flush .running, ctrled [cmdOf 1 1 .flush .running] run, by decide +kernel, by decide +kernel,
    by decide +kernel, by decide +kernel, ctrlOf 1, by decide +kernel, by decide +kernel⟩,
   ⟨2, 0, .success, cmdOf 2 1 .flush .running, ctrled [cmdOf 1 1 .flush .running, cmdOf 2 1 .flush .running] run, by decide +kernel⟩,
   ⟨1, 0, .success, { cmdOf 1 1 .flush .running with discard := true }, ctrled [{ cmdOf 1 1 .flush .running with discard := true }]
    run, by decide +kernel⟩,
   ⟨9, .success, { bytes := List.replicate 64 3, index := 0, drop := false }, ringOneRuns, by decide +kernel⟩⟩

theorem test_witness_ReservedBitsAndOffsets :
    (∃ (off w i : Nat) (r : Reg) (s : State), (off % 4 = 0) ∧ (regAt s off = some (w, r, i, false))) ∧
    (∃ (off w i : Nat) (r : Reg) (s : State), (off % 4 = 0) ∧ (regAt s off = some (w, r, i, true)) ∧ ((∀ l ∈ s.regs.latch, l.1 ≠ off))
      ∧ ∃ b, ((∀ f ∈ r.flds, b + 32 < f.info.lo ∨ f.info.hi < b + 32))) ∧
    (∃ (off w i v v' : Nat) (r : Reg) (s : State), (off % 4 = 0) ∧ (off < 0x1000000) ∧ (regAt s off = some (w, r, i, false)) ∧
      (r.info.wide = false) ∧ ((∀ f ∈ r.flds, ∀ b, f.info.lo ≤ b → b ≤ f.info.hi → v.testBit b = v'.testBit b))) ∧
    (∃ (off w i v v' : Nat) (r : Reg) (s : State), (off % 4 = 0) ∧ (off < 0x1000000) ∧ (regAt s off = some (w, r, i, true)) ∧ ((∀ f ∈
      r.flds, ∀ b, f.info.lo ≤ b + 32 → b + 32 ≤ f.info.hi → v.testBit b = v'.testBit b))) ∧
    (∃ (w i v v' : Nat) (r : Reg) (s : State), ((∀ f ∈ r.flds, ∀ b, f.info.lo ≤ b → b ≤ f.info.hi → v.testBit b = v'.testBit b))) ∧
    (∃ (off v : Nat) (s : State), (off % 4 = 0) ∧ (off < 0x1000000) ∧ (regAt s off = none)) :=
  ⟨⟨0x2010, 8, 0, .glbBoardTime, setFlds [(8, 0, .glb_board_time_board_time, 2 ^ 40 + 3)] run, by decide +kernel⟩,
   ⟨0x100014, 0, 0, .glbMac, run, by decide +kernel, by decide +kernel, by decide +kernel, 20, by decide +kernel⟩,
   ⟨4, 8, 0, 2, 2, .glbStatus, run, ⟨by decide +kernel, by decide +kernel, by decide +kernel, by decide +kernel, fun _ _ _ _ _ =>
    rfl⟩⟩,
   ⟨0x2014, 8, 0, 2, 2, .glbBoardTime, run, ⟨by decide +kernel, by decide +kernel, by decide +kernel, fun _ _ _ _ _ => rfl⟩⟩,
   ⟨8, 0, 1, 1, .glbId, State.reset, fun _ _ _ _ _ => rfl⟩,
   ⟨0xFFFC, 5, State.reset, by decide +kernel⟩⟩

theorem test_witness_EventWindowGap :
    (∃ (n m : Nat) (s : State), (regAnswers s pkgWin .evrCursor = true) ∧ (n < 2 ^ 32) ∧ ((∀ r ∈ held s, r.seq ≠ n)) ∧ (n ≤
      s.evr.last) ∧ ((∃ r ∈ held s, r.seq = m)) ∧ (n < m) ∧ ((∀ r ∈ held s, n < r.seq → m ≤ r.seq))) ∧
    (∃ (n : Nat) (s : State), (regAnswers s pkgWin .evrCursor = true) ∧ (n < 2 ^ 32) ∧ ((∀ r ∈ held s, r.seq ≠ n)) ∧ (s.evr.last < n)) ∧
    (∃ (m : Nat) (s : State), ((∃ r ∈ held s, r.seq = m)) ∧ ((∀ r ∈ held s, m ≤ r.seq))) :=
  ⟨⟨5, 6, withRecs [4, 6, 7] run, by decide +kernel⟩,
   ⟨9, withRecs [4, 6] run, by decide +kernel⟩,
   ⟨4, withRecs [4, 6] run, by decide +kernel⟩⟩

theorem test_witness_BandToOpen :
    (∃ (sg : Nat) (st : Stream) (s : State), ((∀ x ∈ freeBands s sg, 1 ≤ (bandBlocks s x).length ∧ (bandBlocks s x).length ≤ 16)) ∧
      ((freeBands s sg).length ≤ reserveOf s sg) ∧ (st ≠ .relocate)) ∧
    (∃ (sg : Nat) (st : Stream) (s : State), ((∀ x ∈ freeBands s sg, 1 ≤ (bandBlocks s x).length ∧ (bandBlocks s x).length ≤ 16)) ∧
      (freeBands s sg ≠ []) ∧ ((reserveOf s sg < (freeBands s sg).length ∨ st = .relocate))) :=
  ⟨⟨0, .hostQlc, State.reset, by decide +kernel⟩,
   ⟨0, .relocate, withFree run, by decide +kernel⟩⟩

theorem test_witness_MeshPackets :
    (∃ (tile : Nat) (link : MeshPort) (vc : Vc) (s : State), (linkUp s tile link = true) ∧
        (let out := bond s tile link;
        (let ready (v : Vc) : Prop := vcWaits s.mesh tile out v = true ∧ hasCredit s tile out v = true; ((vc = .urgent ∨ (¬ ready .urgent ∧ (hasCredit s tile out .mgmt = false ∨ escaped s.mesh tile out = none)))) ∧ (ready vc) ∧ ((∀ v, v ∈ ([.urgent, .host, .background, .mgmt] : List Vc).takeWhile (· ≠ vc) → ¬ ready v))))) ∧
    (∃ (tile : Nat) (link inp : MeshPort) (s : State), (linkUp s tile link = true) ∧
        (let out := bond s tile link; ((vcWaits s.mesh tile out .urgent = true → hasCredit s tile out .urgent = false)) ∧ (hasCredit s tile out .mgmt = true) ∧ (escaped s.mesh tile out = some inp))) ∧
    (∃ (tile : Nat) (link inp : MeshPort) (s : State),
        (let e := (tile, bond s tile link, bond s tile inp); (waitingPkts s.mesh tile e.2.1 .mgmt e.2.2 ≠ []))) ∧
    (∃ (tile : Nat) (pkt : MeshPkt) (ok : Bool) (s : State), (pkt.len ≤ 2048) ∧ (pkt.src = tile) ∧ (pkt.dst = tile)) ∧
    (∃ (tile : Nat) (inp : MeshPort) (pkt : MeshPkt) (w : OnLink) (s : State), (inp ≠ .localPort) ∧ (s.mesh.wire.find? (fun x =>
      x.tile == linkTo s tile inp && x.out == bond s (linkTo s tile inp) (farEnd inp)) = some w) ∧ (linkUp s tile inp = true) ∧
      (w.pkt.dst = tile)) ∧
    (∃ (tile : Nat) (inp : MeshPort) (pkt : MeshPkt) (w : OnLink) (s : State), (inp ≠ .localPort) ∧ (s.mesh.wire.find? (fun x =>
      x.tile == linkTo s tile inp && x.out == bond s (linkTo s tile inp) (farEnd inp)) = some w) ∧ (linkUp s tile inp = true)) ∧
    (∃ (tile : Nat) (link : MeshPort) (lost : Bool) (s : State), (linkUp s tile link = true) ∧ ((lost = true ∨ replayLimit s tile link
      = true))) ∧
    (∃ (tile : Nat) (link : MeshPort) (s : State), (linkUp s tile link = false) ∧ (linkAllowed s tile link = true) ∧ ((∃ l ∈
      s.mesh.links, l.tile = tile ∧ l.link = link))) ∧
    (∃ (src dst : Nat) (h : RouteHold) (k : MeshPkt) (out : MeshPort) (s : State), (s.mesh.holds.find? (fun x => x.src == src && x.dst
      == dst) = some h) ∧ (h.pkts = [k]) ∧ (k.src = src) ∧ (k.dst = dst) ∧ (src ≠ dst) ∧ ((∀ x ∈ s.mesh.holds.erase h, ¬(x.src =
      src ∧ x.dst = dst))) ∧ (routeOut s src dst = some out) ∧ ∃ late, ((late = true ∨ unacked s.mesh src dst = false))) :=
  ⟨⟨0, .rankNext, .urgent, meshed [pktOf 0 1 .mgmt, pktOf 0 1 .urgent] [], by decide +kernel⟩,
   ⟨0, .rankNext, .localPort, meshed [pktOf 0 1 .mgmt, pktOf 0 1 .host] [(0, .rankNext, .localPort)], by decide +kernel⟩,
   ⟨0, .rankNext, .localPort, meshed [pktOf 0 1 .mgmt, pktOf 0 1 .host] [], by decide +kernel⟩,
   ⟨7, pktOf 7 7 .host, true, run, by decide +kernel⟩,
   ⟨1, .rankPrevious, pktOf 0 0 .host, { tile := 0, out := .rankNext, inp := .localPort, pkt := pktOf 0 1 .host }, meshed [] [],
    by decide +kernel⟩,
   ⟨1, .rankPrevious, pktOf 0 0 .host, { tile := 0, out := .rankNext, inp := .localPort, pkt := pktOf 0 1 .host }, meshed [] [],
    by decide +kernel⟩,
   ⟨0, .rankNext, true, meshed [pktOf 0 1 .mgmt, pktOf 0 1 .host] [], by decide +kernel⟩,
   ⟨0, .knight, meshed [pktOf 0 1 .mgmt, pktOf 0 1 .host] [], by decide +kernel⟩,
   ⟨0, 1, { src := 0, dst := 1, pkts := [pktOf 0 1 .host] }, pktOf 0 1 .host, .rankNext,
    { meshed [] [] with mesh := { (meshed [] []).mesh with holds := [{ src := 0, dst := 1, pkts := [pktOf 0 1 .host] }] } },
    by decide +kernel, by decide +kernel, by decide +kernel, by decide +kernel, by decide +kernel, by decide +kernel,
    by decide +kernel, true, by decide +kernel⟩⟩

theorem test_witness_BufferPools :
    (∃ (tile len : Nat) (cls : PClass) (p : Pool) (rest : List Pool) (s : State), (0 < len) ∧ (len ≤ 262144) ∧ ((presentFrom s tile
      0).filter (fun q => decide (len ≤ poolSize q.pool)) = p :: rest) ∧ (mayTake s p cls = true) ∧ (p.head ≠ nullHandle) ∧
      (linkGood s p (hIndex p.head) (readBytes s.mem (bufAddr s p.head) 8) = true)) ∧
    (∃ (tile len : Nat) (cls : PClass) (ok : Bool) (s : State), (0 < len) ∧ (len ≤ 262144) ∧ ((∀ p ∈ presentFrom s tile 0, poolSize
      p.pool < len))) ∧
    (∃ (tile h : Nat) (p : Pool) (s : State), (handleFault s tile h = none) ∧ (findPool s tile (hPool h) = some p) ∧ (p.quarantined =
      false) ∧ (p.resetting = false) ∧ (MemoryOk s)) ∧
    (∃ (tile h k : Nat) (s : State), (handleFault s tile h = some k)) ∧
    (∃ (tile value n : Nat) (p : Pool) (s : State), (tile ≠ pkgWin) ∧ (regOpen s tile = true) ∧ (s.tfld tile .bpm_cfg_bpm_enable = 1)
      ∧ (n < 6) ∧ (bitOf value n = true) ∧ (findPool s tile n = some p)) ∧
    (∃ (tile pool : Nat) (p : Pool) (s : State), (findPool s tile pool = some p) ∧ (p.resetting = true) ∧ (MemoryOk s)) ∧
    (∃ (tile value : Nat) (s : State), (tile ≠ pkgWin) ∧ (regOpen s tile = true) ∧ (bitOf value 0 = true) ∧ (s.tfld tile
      .bpm_cfg_bpm_enable = 0) ∧ (areaUsed (writeCfg tile .bpmCfg (value - 1) s) tile ≤ poolArea (writeCfg tile .bpmCfg (value -
      1) s) tile)) ∧
    (∃ (tile value : Nat) (s : State), (tile ≠ pkgWin) ∧ (regOpen s tile = true) ∧ (bitOf value 0 = true) ∧ (s.tfld tile
      .bpm_cfg_bpm_enable = 0) ∧ (poolArea (writeCfg tile .bpmCfg (value - 1) s) tile < areaUsed (writeCfg tile .bpmCfg (value -
      1) s) tile)) :=
  ⟨⟨0, 4096, .h1, poolOf 2, [], pooled, by decide +kernel⟩,
   ⟨0, 4097, .h1, true, pooled, by decide +kernel⟩,
   ⟨0, h1, poolOf 2, pooled, by unfold MemoryOk; decide +kernel⟩,
   ⟨0, handleOf 0 2 0 5, 3, pooled, by decide +kernel⟩,
   ⟨0, 4, 2, poolOf 2, setFlds [(0, 0, .bpm_cfg_bpm_enable, 1)] pooled, by decide +kernel⟩,
   ⟨0, 2, { poolOf 2 with resetting := true }, { pooled with pools := [{ poolOf 2 with resetting := true }] },
    by unfold MemoryOk; decide +kernel⟩,
   ⟨0, 1, setFlds (List.range 6 |>.map fun n => (0, n, Fld.bpm_pool_cfg_count, if n = 5 then 1 else 0)) run, by decide +kernel⟩,
   ⟨7, 1, setFlds [(7, 5, .bpm_pool_cfg_count, 5)] run, by decide +kernel⟩⟩

theorem test_witness_CompressionJobs :
    (∃ (tile : Nat) (j : CmpJob) (s : State), (PlainJob .compress tile j s)) ∧
    (∃ (tile : Nat) (j : CmpJob) (s : State), (PlainJob .decompress tile j s) ∧
        (let b := readBytes s.mem (bufAddr s j.inHandle) j.inLen;
        (let x := inflate (min j.outMax (poolSize (hPool j.outHandle))) b;
        (let d := x.out.reverse; (x.state = .ended) ∧ (crc32c d = j.expCrc) ∧ ((j.expLen = 0 ∨ j.expLen = d.length)) ∧ (d.length ≤ poolSize (hPool j.outHandle)))))) ∧
    (∃ (tile : Nat) (j : CmpJob) (s : State), (PlainJob .decompress tile j s) ∧
        (let b := readBytes s.mem (bufAddr s j.inHandle) j.inLen;
        (let x := inflate (min j.outMax (poolSize (hPool j.outHandle))) b; (x.state = .ended) ∧ (crc32c x.out.reverse ≠ j.expCrc)))) ∧
    (∃ (tile : Nat) (j : CmpJob) (s : State), (PlainJob .crcOnly tile j s) ∧
        (let b := readBytes s.mem (bufAddr s j.inHandle) j.inLen; (j.inLen ≤ min j.outMax (poolSize (hPool j.outHandle))) ∧ (crc32c b = j.expCrc))) ∧
    (∃ (tile : Nat) (j : CmpJob) (s : State), (s.tfld tile .cmp_cfg_cmp_enable = 1) ∧ (EngineFree tile .compressor s) ∧ (EngineFree
      tile .decompressor s) ∧ (jobInRange .compress j = false)) ∧
    (∃ (tile : Nat) (j : CmpJob) (s : State), (s.tfld tile .cmp_cfg_cmp_enable = 1) ∧ (EngineFree tile .compressor s) ∧ (EngineFree
      tile .decompressor s) ∧ (jobInRange .decompress j = true) ∧ (handleGood s tile j.inHandle = false)) ∧
    (∃ (tile : Nat) (j : CmpJob) (s : State), (s.tfld tile .cmp_cfg_cmp_enable = 1) ∧ (EngineFree tile .compressor s) ∧ (EngineFree
      tile .decompressor s) ∧ (jobInRange .crcOnly j = true) ∧ (j.slot = 0xFF) ∧ (jFirst j = true) ∧ (jLast j = false) ∧ (bitOf
      j.flags 4 = false) ∧ (bitOf j.flags 5 = false) ∧ (handleGood s tile j.inHandle = true) ∧ (handleGood s tile j.outHandle =
      true) ∧ ((∀ k, k < 8 → findSlot s tile k ≠ none))) ∧
    (∃ (tile slot : Nat) (x : CmpSlot) (s : State), (findSlot s tile slot = some x) ∧ (slotRuns s tile slot = false) ∧ (x.lastMs +
      s.tfld tile .cmp_cfg_stream_timeout_ms ≤ s.nowMs)) ∧
    (∃ (tile value : Nat) (s : State), (tile ≠ pkgWin) ∧ (regOpen s tile = true) ∧ (bitOf value 0 = true) ∧ (s.tfld tile
      .cmp_cfg_cmp_enable = 0) ∧
        (let s0 := writeCfg tile .cmpCfg (value - 1) s; (s0.tfld tile .bpm_cfg_bpm_enable = 1) ∧ (outOfRange s0 tile .cmpCfg = false))) ∧
    (∃ (tile value : Nat) (s : State), (tile ≠ pkgWin) ∧ (regOpen s tile = true) ∧ (bitOf value 0 = true) ∧ (s.tfld tile
      .cmp_cfg_cmp_enable = 0) ∧
        (let s0 := writeCfg tile .cmpCfg (value - 1) s; (s0.tfld tile .bpm_cfg_bpm_enable ≠ 1))) :=
  ⟨⟨0, jobOf 6 6, cmpOn, by unfold PlainJob MemoryOk EngineFree; decide +kernel⟩,
   ⟨0, { jobOf 6 6 with expCrc := (crc32c [0x61]) }, cmpOn, by unfold PlainJob MemoryOk EngineFree; decide +kernel⟩,
   ⟨0, { jobOf 6 6 with expCrc := (crc32c [0x61]) + 1 }, cmpOn, by unfold PlainJob MemoryOk EngineFree; decide +kernel⟩,
   ⟨0, { jobOf 6 1 with expCrc := crc32c [1] }, cmpOn, by unfold PlainJob MemoryOk EngineFree; decide +kernel⟩,
   ⟨0, { jobOf 6 1 with outMax := 15 }, cmpOn, by unfold EngineFree; decide +kernel⟩,
   ⟨0, { jobOf 6 1 with inHandle := nullHandle }, cmpOn, by unfold EngineFree; decide +kernel⟩,
   ⟨0, jobOf 2 1, { cmpOn with cmpSlots := (List.range 8).map slotOf }, by unfold EngineFree; decide +kernel⟩,
   ⟨0, 3, slotOf 3, { cmpOn with cmpSlots := [slotOf 3], nowMs := cmpOn.tfld 0 .cmp_cfg_stream_timeout_ms }, by decide +kernel⟩,
   ⟨0, 1, setFlds [(0, 0, .bpm_cfg_bpm_enable, 1)] run, by decide +kernel⟩,
   ⟨0, 1, run, by decide +kernel⟩⟩

theorem test_witness_KeysAndCipherJobs :
    (∃ (tile : Nat) (j : CryJob) (k : KeySlot) (dec : Bool) (s : State), (s.tfld tile .cry_cfg_cry_enable = 1) ∧ (lanesUp s tile ≠ 0)
      ∧ (cryRefusal s tile dec j = none) ∧ (findKey s tile j.slot = some k) ∧ (MemoryOk s) ∧ (EngineFree tile .cipher s)) ∧
    (∃ (tile : Nat) (j : CryJob) (dec : Bool) (st : CryStatus) (f : Option Nat) (s : State), (s.tfld tile .cry_cfg_cry_enable = 1) ∧
      (lanesUp s tile ≠ 0) ∧ (cryRefusal s tile dec j = some st) ∧ (EngineFree tile .cipher s)) ∧
    (∃ (tile k : Nat) (j : CryJob) (dec : Bool) (s : State), (s.tfld tile .cry_cfg_cry_enable = 1) ∧ (cryRefusal s tile dec j = none)
      ∧ (k < 4) ∧ (bitOf (lanesUp s tile) k = true) ∧ (EngineFree tile .cipher s)) ∧
    (∃ (nsid tile : Nat) (k : KeySlot) (s : State), (findKey s tile (nsid - 1) = some k) ∧ (k.loaded = false)) ∧
    (∃ (nsid : Nat) (l : List Bool) (s : State), ((∀ b ∈ l, b = true))) ∧
    (∃ (tile value failed : Nat) (s : State), (tile ≠ pkgWin) ∧ (regOpen s tile = true) ∧ (bitOf value 0 = true) ∧ (s.tfld tile
      .cry_cfg_cry_enable = 0) ∧ (failed % 16 ≠ 0) ∧ (orderHolds s tile .cry_cfg_cry_enable = true)) ∧
    (∃ (tile value failed : Nat) (s : State), (tile ≠ pkgWin) ∧ (regOpen s tile = true) ∧ (bitOf value 0 = true) ∧ (s.tfld tile
      .cry_cfg_cry_enable = 0) ∧ (failed % 16 = 0) ∧ (orderHolds (writeCfg tile .cryCfg (value - 1) s) tile .cry_cfg_cry_enable =
      true)) ∧
    (∃ (a : Adm) (nsid : Nat) (w : Bytes) (x : Ns) (s : State), (AdmRuns .registry a s) ∧ (s.reg.nss.find? (fun y => y.nsid == nsid &&
      y.state != .deleting) = some x) ∧ (x.state = .keyPending) ∧ (w.length = 72) ∧ ((upTiles s).filter (fun t => t !=
      s.mgmt.primary) ≠ [])) ∧
    (∃ (a : Adm) (nsid tile : Nat) (w : Bytes) (ts : List Nat) (s : State), (s.prov = some { adm := a, kind := .keyLoad nsid w ts }) ∧
      (tile ∈ ts) ∧ (tileUp s tile = true) ∧ ((∀ t ∈ ts, t ≠ tile → tileUp s t = false))) ∧
    (∃ (a : Adm) (nsid tile : Nat) (w : Bytes) (ts : List Nat) (s : State), (s.prov = some { adm := a, kind := .keyLoad nsid w ts }) ∧
      (tile ∈ ts) ∧ (tileUp s tile = true)) :=
  ⟨⟨0, cryJobOf 16, keyOf 0, true, cryOn, by unfold MemoryOk EngineFree; decide +kernel⟩,
   ⟨0, cryJobOf 15, false, .badJob, none, cryOn, by unfold EngineFree; decide +kernel⟩,
   ⟨0, 3, cryJobOf 16, false, cryOn, by unfold EngineFree; decide +kernel⟩,
   ⟨1, 2, { keyOf 2 with loaded := false },
    { cryOn with cry := { cryOn.cry with slots := [keyOf 0, { keyOf 2 with loaded := false }] } }, by decide +kernel⟩,
   ⟨1, [true, true], cryOn, by decide +kernel⟩,
   ⟨0, 1, 8, setFlds [(0, 0, .bpm_cfg_bpm_enable, 1)] run, by decide +kernel⟩,
   ⟨0, 1, 16, setFlds [(0, 0, .bpm_cfg_bpm_enable, 1)] run, by decide +kernel⟩,
   ⟨.host 1, 1, zeroBytes 72, nsAt 1 .keyPending, withNs .keyPending adminRuns, by unfold AdmRuns; decide +kernel⟩,
   ⟨.host 1, 1, 3, zeroBytes 72, [3],
    { withNs .keyPending adminRuns with prov := some { adm := .host 1, kind := .keyLoad 1 (zeroBytes 72) [3] } },
    by decide +kernel⟩,
   ⟨.host 1, 1, 3, zeroBytes 72, [3],
    { withNs .keyPending adminRuns with prov := some { adm := .host 1, kind := .keyLoad 1 (zeroBytes 72) [3] } },
    by decide +kernel⟩⟩

theorem test_witness_DigestContexts :
    (∃ (tile owner alg k : Nat) (key : HmacKey) (e : Option Bytes) (s : State), (alg < 4) ∧ (directCtx s tile = some k)) ∧
    (∃ (tile owner source len alg k : Nat) (key : HmacKey) (e : Option Bytes) (s : State), (alg < 4) ∧ ((freeCtxs s tile).head? = some
      k)) ∧
    (∃ (tile owner source len alg : Nat) (key : HmacKey) (e : Option Bytes) (s : State), (alg < 4) ∧ (directCtx s tile = none)) ∧
    (∃ (tile owner source len alg : Nat) (key : HmacKey) (e : Option Bytes) (s : State), (alg < 4) ∧ (freeCtxs s tile = [])) ∧
    (∃ (tile k owner : Nat) (d : Bytes) (c : DigCtx) (s : State), (findCtx s tile k = some c) ∧ (c.state = .opened) ∧ (c.owner =
      owner)) ∧
    (∃ (tile k owner : Nat) (d : Bytes) (c : DigCtx) (s : State), (findCtx s tile k = some c) ∧ (c.state = .opened) ∧ (c.owner ≠
      owner)) ∧
    (∃ (tile k owner : Nat) (d : Bytes) (c : DigCtx) (s : State), (findCtx s tile k = some c) ∧ (c.state = .bound)) ∧
    (∃ (tile k owner : Nat) (d : Bytes) (c : DigCtx) (s : State), (findCtx s tile k = some c) ∧ (c.state = .finished) ∧ (c.owner =
      owner) ∧ (c.snoop = false) ∧ (c.verify = false)) ∧
    (∃ (tile k : Nat) (d : Bytes) (c : DigCtx) (s : State), (findCtx s tile k = some c) ∧ (c.state = .bound) ∧ (c.verify = false)) ∧
    (∃ (tile k owner : Nat) (e : Option Bytes) (c : DigCtx) (s : State), (findCtx s tile k = some c) ∧ (c.state = .opened) ∧ (c.owner
      = owner) ∧ (c.verify = false)) ∧
    (∃ (tile k owner : Nat) (e : Option Bytes) (c : DigCtx) (s : State), (findCtx s tile k = some c) ∧ (c.state = .opened) ∧ (c.owner
      ≠ owner)) ∧
    (∃ (tile k owner : Nat) (e : Option Bytes) (c : DigCtx) (s : State), (findCtx s tile k = some c) ∧ (c.state = .bound)) ∧
    (∃ (tile k : Nat) (c : DigCtx) (s : State), (findCtx s tile k = some c) ∧ (c.state ≠ .bound)) ∧
    (∃ (tile k : Nat) (c : DigCtx) (s : State), (findCtx s tile k = some c) ∧ (c.state = .bound)) ∧
    (∃ (tile owner key k : Nat) (pub sig : Bytes) (s : State), (s.cry.vfys.find? (fun v => v.tile == tile) = none) ∧ (directCtx s tile
      = some k)) ∧
    (∃ (tile : Nat) (v : Vfy) (c : DigCtx) (s : State), (s.cry.vfys.find? (fun v => v.tile == tile) = some v) ∧ (findCtx s tile v.ctx
      = some c) ∧ (c.state = .finished)) :=
  ⟨⟨0, 3, 1, 0, .none, none, run, by decide +kernel⟩,
   ⟨0, 3, 1, 64, 1, 0, .none, none, run, by decide +kernel⟩,
   ⟨0, 3, 1, 64, 3, .none, none, withCtxs ((List.range 6).map fun k => ctxOf k .opened) run, by decide +kernel⟩,
   ⟨0, 3, 1, 64, 3, .none, none, withCtxs ((List.range 8).map fun k => ctxOf k .opened) run, by decide +kernel⟩,
   ⟨0, 7, 3, [1], ctxOf 7 .opened, withCtxs [ctxOf 7 .opened] run, by decide +kernel⟩,
   ⟨0, 7, 4, [1], ctxOf 7 .opened, withCtxs [ctxOf 7 .opened] run, by decide +kernel⟩,
   ⟨0, 7, 3, [1], ctxOf 7 .bound, withCtxs [ctxOf 7 .bound] run, by decide +kernel⟩,
   ⟨0, 7, 3, [1], ctxOf 7 .finished, withCtxs [ctxOf 7 .finished] run, by decide +kernel⟩,
   ⟨0, 7, [1], ctxOf 7 .bound, withCtxs [ctxOf 7 .bound] run, by decide +kernel⟩,
   ⟨0, 7, 3, some [1], ctxOf 7 .opened, withCtxs [ctxOf 7 .opened] run, by decide +kernel⟩,
   ⟨0, 7, 4, some [1], ctxOf 7 .opened, withCtxs [ctxOf 7 .opened] run, by decide +kernel⟩,
   ⟨0, 7, 4, some [1], ctxOf 7 .bound, withCtxs [ctxOf 7 .bound] run, by decide +kernel⟩,
   ⟨0, 7, ctxOf 7 .opened, withCtxs [ctxOf 7 .opened] run, by decide +kernel⟩,
   ⟨0, 7, ctxOf 7 .bound, withCtxs [ctxOf 7 .bound] run, by decide +kernel⟩,
   ⟨0, 3, 1, 0, [], [], run, by decide +kernel⟩,
   ⟨0, { tile := 0, key := 0, pub := [], sig := [], ctx := 7 }, ctxOf 7 .finished,
    { run with cry := { run.cry with ctxs := [ctxOf 7 .finished], vfys := [{ tile := 0, key := 0, pub := [], sig := [], ctx := 7 }] } },
    by decide +kernel⟩⟩

theorem test_witness_DramChannel :
    (∃ (tile value : Nat) (s : State), (tile ≠ pkgWin) ∧ (regOpen s tile = true) ∧ (bitOf value 0 = true) ∧ (s.tfld tile
      .drc_cfg_drc_enable = 0) ∧
        (let s0 := writeCfg tile .drcCfg (value - 1) s; (s0.tfld tile .drc_cfg_density ≠ 3) ∧ (drcDescription s0 tile = drcDescription s0 0) ∧ ((s0.drams.any fun d => d.tile == tile && d.ready) = false))) ∧
    (∃ (tile value : Nat) (s : State), (tile ≠ pkgWin) ∧ (regOpen s tile = true) ∧ (bitOf value 0 = true) ∧ (s.tfld tile
      .drc_cfg_drc_enable = 0) ∧
        (let s0 := writeCfg tile .drcCfg (value - 1) s; (s0.tfld tile .drc_cfg_density ≠ 3) ∧ (drcDescription s0 tile ≠ drcDescription s0 0))) ∧
    (∃ (tile : Nat) (d : Dram) (s : State), (findDram s tile = some d) ∧ (1 ≤ d.step) ∧ (d.step < 4) ∧ (¬(d.step = 3 ∧ d.rate < s.tfld
      tile .drc_cfg_rate_max))) ∧
    (∃ (tile : Nat) (d : Dram) (s : State), (findDram s tile = some d) ∧ (d.step = 4) ∧ (d.restarting = false)) ∧
    (∃ (tile : Nat) (d : Dram) (s : State), (findDram s tile = some d) ∧ (d.step = 3) ∧ (0 < d.rate)) ∧
    (∃ (tile : Nat) (a : DramAcc) (beats : List Nat) (d : Dram) (s : State), (findDram s tile = some d) ∧ (d.ready = true) ∧ (d.frozen
      = false) ∧ (EngineFree tile .dram s)) ∧
    (∃ (tile : Nat) (a : DramAcc) (beats : List Nat) (d : Dram) (s : State), (findDram s tile = some d) ∧ (s.tfld tile
      .drc_cfg_scrub_en = 1) ∧ (d.ready = true) ∧ (d.frozen = false) ∧ (EngineFree tile .dram s)) ∧
    (∃ (tile : Nat) (a : DramAcc) (beats : List Nat) (d : Dram) (s : State), (findDram s tile = some d) ∧ (s.tfld tile
      .drc_cfg_scrub_en ≠ 1 ∨ reqsAt s tile .dram ≠ [])) ∧
    (∃ (tile : Nat) (a : DramAcc) (d : Dram) (s : State), (findDram s tile = some d) ∧ (d.ready = true) ∧ (d.frozen = false)) ∧
    (∃ (tile : Nat) (a : DramAcc) (d : Dram) (s : State), (findDram s tile = some d) ∧ (d.ready = true) ∧ (d.frozen = false) ∧ ∃ m g,
      ((m = false ∨ g = true))) ∧
    (∃ (tile value : Nat) (d : Dram) (s : State), (tile ≠ pkgWin) ∧ (regOpen s tile = true) ∧ (findDram s tile = some d) ∧ (bitOf
      value 0 = true) ∧ (d.restarting = false) ∧ (d.capRead = true) ∧ (d.frozen = true)) ∧
    (∃ (tile value : Nat) (d : Dram) (s : State), (tile ≠ pkgWin) ∧ (regOpen s tile = true) ∧ (findDram s tile = some d) ∧ (bitOf
      value 0 = true) ∧ (d.restarting = false) ∧ (d.capRead = false)) ∧
    (∃ (tile : Nat) (d : Dram) (s : State), (tile < pkgWin) ∧ (regAnswers s tile .drcCapStatus = true) ∧ (findDram s tile = some d) ∧
      (d.frozen = true)) :=
  ⟨⟨0, 1, run, by decide +kernel⟩,
   ⟨1, 1, run, by decide +kernel⟩,
   ⟨0, dramOf 3, withDram (dramOf 3) run, by decide +kernel⟩,
   ⟨0, dramOf 4, withDram (dramOf 4) run, by decide +kernel⟩,
   ⟨0, dramOf 3, withDram (dramOf 3) run, by decide +kernel⟩,
   ⟨0, accOf 0, [1], dramOf 5, withDram (dramOf 5) run, by unfold EngineFree; decide +kernel⟩,
   ⟨0, accOf 0, [0], dramOf 5, withDram (dramOf 5) run, by unfold EngineFree; decide +kernel⟩,
   ⟨0, accOf 0, [0], dramOf 5, setFlds [(0, 0, .drc_cfg_scrub_en, 0)] (withDram (dramOf 5) run), by decide +kernel⟩,
   ⟨0, accOf 0, dramOf 5, withDram (dramOf 5) run, by decide +kernel⟩,
   ⟨0, accOf 0, dramOf 5, withDram (dramOf 5) run, by decide +kernel, by decide +kernel, by decide +kernel, true, true,
    by decide +kernel⟩,
   ⟨0, 1, { dramOf 5 with ready := false, frozen := true, capRead := true }, withDram
    { dramOf 5 with ready := false, frozen := true, capRead := true } run, by decide +kernel⟩,
   ⟨0, 1, { dramOf 5 with frozen := true }, withDram { dramOf 5 with frozen := true } run, by decide +kernel⟩,
   ⟨0, { dramOf 5 with frozen := true }, withDram { dramOf 5 with frozen := true } run, by decide +kernel⟩⟩

theorem test_witness_DramUpkeep :
    (∃ (tile r : Nat) (inHand : Bool) (d : Dram) (x : DramRank) (s : State), (findDram s tile = some d) ∧ (d.ranks.find? (fun y =>
      y.rank == r) = some x) ∧ (x.selfRef = false) ∧ (rankWaits s tile r = true) ∧ (x.debt < s.tfld tile
      .drc_refresh_postpone_max)) ∧
    (∃ (tile r : Nat) (inHand : Bool) (d : Dram) (x : DramRank) (s : State), (findDram s tile = some d) ∧ (d.ranks.find? (fun y =>
      y.rank == r) = some x) ∧ (x.selfRef = false) ∧ (rankWaits s tile r = false ∨ s.tfld tile .drc_refresh_postpone_max ≤
      x.debt)) ∧
    (∃ (tile : Nat) (rs : List DramTemp) (d : Dram) (s : State), (findDram s tile = some d) ∧ (DramTemp.doubled ∈ rs) ∧
      (DramTemp.beyond ∉ rs) ∧ (d.hot = false)) ∧
    (∃ (tile : Nat) (rs : List DramTemp) (d : Dram) (s : State), (findDram s tile = some d) ∧ (DramTemp.beyond ∈ rs) ∧ (d.overtemp =
      false)) ∧
    (∃ (tile : Nat) (rs : List DramTemp) (d : Dram) (s : State), (findDram s tile = some d) ∧ ((∀ r ∈ rs, r = .normal)) ∧ (d.hot =
      true) ∧ (1 ≤ d.coolPolls)) ∧
    (∃ (tile sc r g b : Nat) (d : Dram) (s : State), (findDram s tile = some d)) ∧
    (∃ (tile r : Nat) (d : Dram) (s : State), (findDram s tile = some d) ∧ (s.tfld tile .drc_policy_pd_timer_ns ≠ 0) ∧ (rankWaits s
      tile r = false)) ∧
    (∃ (tile r : Nat) (d : Dram) (s : State), (findDram s tile = some d) ∧ (s.tfld tile .drc_policy_pd_timer_ns = 0 ∨ rankWaits s tile
      r = true)) ∧
    (∃ (tile r wr rd : Nat) (d : Dram) (s : State), (findDram s tile = some d) ∧ (d.ready = true) ∧ (wr < 256) ∧ (rd < 256) ∧ ((∀ x ∈
      d.ranks, x.rank = r → rankWaits s tile r = false ∨ x.trainMs + 1000 ≤ s.nowMs))) ∧
    (∃ (tile r : Nat) (d : Dram) (x : DramRank) (s : State), (findDram s tile = some d) ∧ (d.ready = true) ∧ (d.ranks.find? (fun y =>
      y.rank == r) = some x) ∧ (min x.wrMargin x.rdMargin < s.tfld tile .drc_train_margin_min)) ∧
    (∃ (tile r : Nat) (d : Dram) (x : DramRank) (s : State), (findDram s tile = some d) ∧ (d.ready = true) ∧ (d.ranks.find? (fun y =>
      y.rank == r) = some x) ∧ (s.tfld tile .drc_train_margin_min ≤ min x.wrMargin x.rdMargin)) :=
  ⟨⟨0, 0, true, dramOf 5, { rank := 0, debt := 3, down := false, selfRef := false, rdMargin := 31, wrMargin := 40, trainMs := 0 },
    dramWaits 0, by decide +kernel⟩,
   ⟨0, 0, true, dramOf 5, { rank := 0, debt := 3, down := false, selfRef := false, rdMargin := 31, wrMargin := 40, trainMs := 0 },
    withDram (dramOf 5) run, by decide +kernel⟩,
   ⟨0, [.normal, .doubled], dramOf 5, withDram (dramOf 5) run, by decide +kernel⟩,
   ⟨0, [.normal, .beyond], dramOf 5, withDram (dramOf 5) run, by decide +kernel⟩,
   ⟨0, [.normal], { dramOf 5 with hot := true, coolPolls := 1 }, withDram { dramOf 5 with hot := true, coolPolls := 1 } run,
    by decide +kernel⟩,
   ⟨0, 0, 0, 7, 3, dramOf 5, withDram (dramOf 5) run, by decide +kernel⟩,
   ⟨0, 0, dramOf 5, withDram (dramOf 5) run, by decide +kernel⟩,
   ⟨0, 0, dramOf 5, dramWaits 0, by decide +kernel⟩,
   ⟨0, 0, 255, 255, dramOf 5, { dramWaits 0 with nowMs := 1000 }, by decide +kernel⟩,
   ⟨0, 0, dramOf 5, { rank := 0, debt := 3, down := false, selfRef := false, rdMargin := 31, wrMargin := 40, trainMs := 0 }, withDram
    (dramOf 5) run, by decide +kernel⟩,
   ⟨0, 1, dramOf 5, { rank := 1, debt := 0, down := true, selfRef := false, rdMargin := 32, wrMargin := 40, trainMs := 0 }, withDram
    (dramOf 5) run, by decide +kernel⟩⟩

theorem test_witness_Temperature :
    (∃ (tile i : Nat) (r : Int) (x : Sensor) (s : State), (findSensor s tile i = some x) ∧ (tileUp s tile = true) ∧ ((x.faulty = true
      ∨ r < -160 ∨ 600 < r))) ∧
    (∃ (tile i : Nat) (r : Int) (x : Sensor) (s : State), (findSensor s tile i = some x) ∧ (tileUp s tile = true) ∧ (x.faulty = false)
      ∧ (-160 ≤ r) ∧ (r ≤ 600) ∧ (r < 4 * criticalC s x)) ∧
    (∃ (tile i : Nat) (r : Int) (x : Sensor) (s : State), (findSensor s tile i = some x) ∧ (tileUp s tile = true) ∧ (x.faulty = false)
      ∧ (-160 ≤ r) ∧ (r ≤ 600) ∧ (x.warned = true) ∧ (warnC s x ≤ criticalC s x) ∧ (4 * criticalC s x ≤ r) ∧ (s.plp.dump = none) ∧
      (0 < hystC s tile)) ∧
    (∃ (tile i cond : Nat) (x : Sensor) (s : State), (findSensor s tile i = some x) ∧ (tileUp s tile = true) ∧ (x.faulty = false)) ∧
    (∃ (tile i : Nat) (x : Sensor) (s : State), (findSensor s tile i = some x) ∧ (tileUp s tile = true) ∧ (x.faulty = true)) ∧
    (∃ (tile : Nat) (s : State), (tileUp s tile = true) ∧ ((s.therm.tiles.any fun y => y.tile == tile) = true) ∧ ((overThrottle s tile
      = true ∨ dramOver s tile = true))) ∧
    (∃ (tile : Nat) (s : State), (overThrottle s tile = false) ∧ (dramOver s tile = false)) ∧
    (∃ (tile : Nat) (s : State), (tileUp s tile = true) ∧ (0 < levelOf s tile) ∧ (levelFloor s tile = 0) ∧ (dramOver s tile = false) ∧
      ((∀ x ∈ plausible s tile, x.2 < 4 * (throttleC s x.1 - hystC s tile))) ∧ ((∀ x ∈ s.therm.tiles, x.tile = tile → x.changedMs
      + 1000 ≤ s.nowMs))) ∧
    (∃ (tile : Nat) (s : State), ((plausible s tile).any (fastRise s) = false)) ∧
    (∃ (tile : Nat) (s : State), ((plausible s tile).any (fastRise s) = true) ∧ (tileUp s tile = true) ∧ ((s.therm.tiles.any fun y =>
      y.tile == tile) = true) ∧ (levelOf s tile < 7)) ∧
    (∃ (s : State), (s.island.pkg = 2)) ∧
    (∃ (s : State), (s.island.pkg ≠ 2)) :=
  ⟨⟨0, 8, -161, sensorOf none false false, withSensor (sensorOf none false false) 0 run, by decide +kernel⟩,
   ⟨0, 8, 459, sensorOf (some 100) false true, withSensor (sensorOf (some 100) false true) 0 run, by decide +kernel⟩,
   ⟨0, 8, 460, sensorOf (some 100) false true, withSensor (sensorOf (some 100) false true) 0 run, by decide +kernel⟩,
   ⟨0, 8, 1, sensorOf (some 100) false true, withSensor (sensorOf (some 100) false true) 0 run, by decide +kernel⟩,
   ⟨0, 8, sensorOf (some 100) true true, withSensor (sensorOf (some 100) true true) 2 run, by decide +kernel⟩,
   ⟨0, withSensor (sensorOf (some 420) false true) 7 run, by decide +kernel⟩,
   ⟨0, withSensor (sensorOf (some 419) false true) 7 run, by decide +kernel⟩,
   ⟨0, withSensor (sensorOf (some 400) false true) 1 run, by decide +kernel⟩,
   ⟨0, withSensor (sensorOf (some 401) false true) 1 run, by decide +kernel⟩,
   ⟨0, withSensor (sensorOf (some 500) false true) 1 run, by decide +kernel⟩,
   ⟨withSensor (sensorOf (some 400) false true) 1 run, by decide +kernel⟩,
   ⟨State.reset, by decide +kernel⟩⟩

theorem test_witness_PowerAndRails :
    (∃ (measured raw : Nat) (s : State), (measured ≤ 0xFFFF) ∧ (raw ≤ 0x7FFF) ∧ (s.power.isenseFault = false)) ∧
    (∃ (measured raw : Nat) (s : State), (measured ≤ 0xFFFF) ∧ (raw ≤ 0x7FFF) ∧ (s.power.isenseFault = true)) ∧
    (∃ (cond : Nat) (s : State), (s.power.isenseFault = false)) ∧
    (∃ (avg : Nat) (order : List Nat) (s : State), ((s.gfld .pwr_limit_pwr_limit_w = 0 ∨ avg ≤ 100 * s.gfld .pwr_limit_pwr_limit_w))) ∧
    (∃ (avg : Nat) (order : List Nat) (s : State), (s.gfld .pwr_limit_pwr_limit_w ≠ 0) ∧ (100 * s.gfld .pwr_limit_pwr_limit_w < avg)) ∧
    (∃ (value : Nat) (s : State), (regOpen s pkgWin = true) ∧ (bitOf value 2 = true) ∧ (s.gfld .pwr_cfg_avs_enable = 0) ∧ ((∃ r, r <
      16 ∧ railKind s r = 2 ∧ railMax s r < railMin s r))) ∧
    (∃ (value : Nat) (s : State), (regOpen s pkgWin = true) ∧ (bitOf value 2 = true) ∧ (s.gfld .pwr_cfg_avs_enable = 0) ∧ ((∀ r, r <
      16 → railKind s r = 2 → railMin s r ≤ railMax s r))) ∧
    (∃ (r : Nat) (x : Rail) (s : State), (findRail s r = some x) ∧ (railAdaptive s r = true) ∧ (s.plp.started = true)) ∧
    (∃ (r : Nat) (x : Rail) (s : State), (findRail s r = some x) ∧ (railAdaptive s r = true) ∧ (s.plp.started = false)) ∧
    (∃ (r : Nat) (x : Rail) (s : State), (findRail s r = some x) ∧ (railAdaptive s r = true)) ∧
    (∃ (r : Nat) (x : Rail) (s : State), (findRail s r = some x) ∧ (x.fault = false)) ∧
    (∃ (r w : Nat) (x : Rail) (s : State), (findRail s r = some x) ∧ (railKind s r ≠ 0) ∧ (railAlarm w = false)) ∧
    (∃ (r w : Nat) (x : Rail) (s : State), (findRail s r = some x) ∧ (railKind s r ≠ 0) ∧ (railAlarm w = true)) :=
  ⟨⟨0xFFFF, 0x7FFF, run, by decide +kernel⟩,
   ⟨0xFFFF, 0x7FFF, { run with power := { run.power with isenseFault := true } }, by decide +kernel⟩,
   ⟨1, run, by decide +kernel⟩,
   ⟨100, [0], setFlds [(8, 0, .pwr_limit_pwr_limit_w, 1)] run, by decide +kernel⟩,
   ⟨101, [0, 1], setFlds [(8, 0, .pwr_limit_pwr_limit_w, 1)] run, by decide +kernel⟩,
   ⟨4, setFlds [(8, 15, .pwr_rail_cfg_kind, 2), (8, 15, .pwr_rail_cfg_vmin, 140), (8, 15, .pwr_rail_cfg_vmax, 139)] run,
    by decide +kernel⟩,
   ⟨4, setFlds [(8, 15, .pwr_rail_cfg_kind, 2), (8, 15, .pwr_rail_cfg_vmin, 140), (8, 15, .pwr_rail_cfg_vmax, 140)] run,
    by decide +kernel⟩,
   ⟨15, { idx := 15, vset := 160, fault := false, status := 0 }, { railed false with plp := { run.plp with started := true } },
    by decide +kernel⟩,
   ⟨15, { idx := 15, vset := 160, fault := false, status := 0 }, railed false, by decide +kernel⟩,
   ⟨15, { idx := 15, vset := 160, fault := false, status := 0 }, railed false, by decide +kernel⟩,
   ⟨15, { idx := 15, vset := 160, fault := false, status := 0 }, railed false, by decide +kernel⟩,
   ⟨15, 3, { idx := 15, vset := 160, fault := false, status := 0 }, railed false, by decide +kernel⟩,
   ⟨15, 16, { idx := 15, vset := 160, fault := true, status := 0 }, railed true, by decide +kernel⟩⟩

theorem test_witness_ClocksAndSleep :
    (∃ (ppm : Int) (s : State), (s.clk.holdover = false)) ∧
    (∃ (s : State), (s.clk.active = 0) ∧ (s.clk.bOk = true)) ∧
    (∃ (s : State), (s.clk.active = 0)) ∧
    (∃ (s : State), (s.clk.holdover = false) ∧ (s.gfld .clk_cfg_ref_pref = 0) ∧ (s.clk.active = 1) ∧ (s.gfld .clk_cfg_ref_revert = 1)) ∧
    (∃ (s : State), (s.clk.holdover = false) ∧ (s.gfld .clk_cfg_ref_pref = 0) ∧ (s.clk.active = 1) ∧ (s.gfld .clk_cfg_ref_revert ≠ 1)) ∧
    (∃ (s : State), (s.clk.holdover = false)) ∧
    (∃ (r : Nat) (s : State), (r ≤ 1) ∧ (s.clk.holdover = true) ∧ (s.clk.active = r)) ∧
    (∃ (s : State), (s.clk.ethSynth = false)) ∧
    (∃ (tile : Nat) (s : State), (s.gfld .pwr_cfg_light_en = 1) ∧ (tileUp s tile = true) ∧ (s.island.pkg = 2) ∧ (s.power.deep = 0) ∧
      (tileIdle s tile = true)) ∧
    (∃ (tile : Nat) (s : State), (s.gfld .pwr_cfg_light_en ≠ 1)) ∧
    (∃ (tile : Nat) (s : State), (s.power.deep = 0)) ∧
    (∃ (s : State), (deepAllowed s = true) ∧ (s.power.deep ≠ 2) ∧ (drained s = true)) ∧
    (∃ (s : State), (deepAllowed s = true) ∧ (s.power.deep ≠ 2) ∧ (drained s = false)) ∧
    (∃ (s : State), (deepAllowed s = false)) ∧
    (∃ (s : State), (s.power.deep ≠ 0)) :=
  ⟨⟨-5, run, by decide +kernel⟩,
   ⟨withClk 0 false run, by decide +kernel⟩,
   ⟨withClk 0 false run, by decide +kernel⟩,
   ⟨setFlds [(8, 0, .clk_cfg_ref_revert, 1), (8, 0, .clk_cfg_ref_pref, 0)] (withClk 1 false run), by decide +kernel⟩,
   ⟨setFlds [(8, 0, .clk_cfg_ref_revert, 0), (8, 0, .clk_cfg_ref_pref, 0)] (withClk 1 false run), by decide +kernel⟩,
   ⟨withClk 1 false run, by decide +kernel⟩,
   ⟨1, withClk 1 true run, by decide +kernel⟩,
   ⟨run, by decide +kernel⟩,
   ⟨7, setFlds [(8, 0, .pwr_cfg_light_en, 1)] run, by decide +kernel⟩,
   ⟨7, setFlds [(8, 0, .pwr_cfg_light_en, 0)] run, by decide +kernel⟩,
   ⟨7, run, by decide +kernel⟩,
   ⟨deepReady, by decide +kernel⟩,
   ⟨{ deepReady with wr := { run.wr with exts := [extOf 1 .bothHeld] } }, by decide +kernel⟩,
   ⟨run, by decide +kernel⟩,
   ⟨{ run with power := { run.power with deep := 2 } }, by decide +kernel⟩⟩

theorem test_witness_PowerLossAndRestart :
    (∃ (s : State), (s.island.pkg = 2) ∧ ((∀ d, s.plp.dump = some d → d.restored = true))) ∧
    (∃ (d : Dump) (s : State), (s.plp.dump = some d) ∧ (d.restored = false)) ∧
    (∃ (pin : Nat) (s : State), (s.plp.warn = false) ∧ (s.plp.test = none) ∧
        (let mv := busMv (s.gfld .plp_sense_vsense_ratio) pin; (mv < s.gfld .plp_thresh_warn_mv))) ∧
    (∃ (pin : Nat) (s : State), (s.plp.warn = false) ∧ (s.plp.test = none) ∧
        (let mv := busMv (s.gfld .plp_sense_vsense_ratio) pin; (s.gfld .plp_thresh_warn_mv ≤ mv))) ∧
    (∃ (s : State), (s.plp.testDue = false)) ∧
    (∃ (s : State), (s.plp.testDue = true) ∧ (s.plp.test = none) ∧ (s.plp.causes.contains 7 = false)) ∧
    (∃ (tile dir us : Nat) (d : Dump) (s : State), (s.plp.dump = some d) ∧ (d.complete = false) ∧ (tileUp s tile = true) ∧ (tile ∉
      d.reported) ∧ (tile ≠ s.mgmt.primary) ∧ ((s.therm.tiles.any fun x => x.tile == tile && x.critPending) = false) ∧ (dumpDone s
      { d with reported := tile :: d.reported } = false)) ∧
    (∃ (tile dir us : Nat) (d : Dump) (s : State), (s.plp.dump = some d) ∧ (d.complete = false) ∧ (tileUp s tile = true) ∧ (tile ∉
      d.reported) ∧ (tile ≠ s.mgmt.primary) ∧ ((s.therm.tiles.any fun x => x.tile == tile && x.critPending) = false) ∧ (dumpDone s
      { d with reported := tile :: d.reported } = true)) ∧
    (∃ (us m : Nat) (d : Dump) (s : State), (s.plp.dump = some d) ∧ (d.primaryMs = some m) ∧ (d.complete = false) ∧ (m + 10 ≤ s.nowMs)
      ∧ (dumpDone s d = false)) ∧
    (∃ (us m : Nat) (d : Dump) (s : State), (s.plp.dump = some d) ∧ (d.primaryMs = some m) ∧ (d.complete = false) ∧ (s.nowMs < m +
      10)) ∧
    (∃ (s : State), (s.island.pkg = 2) ∧ (dumpEnded s = true) ∧ (s.island.sysRst = false)) ∧
    (∃ (s : State), ((dumpEnded s = false ∨ s.island.sysRst = true))) ∧
    (∃ (s : State), (dumpEnded s = true)) ∧
    (∃ (kept : List ReadRow) (ok : Bool) (s : State), (s.island.pkg = 2) ∧ (s.plp.started = false) ∧ (s.fw.running = true) ∧
      (s.fw.recovery = false)) ∧
    (∃ (kept : List ReadRow) (ok : Bool) (s : State), (s.plp.started = true)) ∧
    (∃ (d : Dump) (s : State), (s.plp.dump = some d) ∧ (d.restored = true) ∧ (dumpDurable s d = true) ∧ (s.plp.testDue = false) ∧ (1 ∈
      s.plp.causes)) ∧
    (∃ (d : Dump) (s : State), (s.plp.dump = some d) ∧ (d.restored = true) ∧ (dumpDurable s d = false)) :=
  ⟨⟨withDump (dumpOf [0] none true true) run, ⟨by decide, fun d h => by cases h; rfl⟩⟩,
   ⟨dumpOf [0] none false false, withDump (dumpOf [0] none false false) run, by decide +kernel⟩,
   ⟨0, setFlds [(8, 0, .plp_thresh_warn_mv, 1)] run, by decide +kernel⟩,
   ⟨0, setFlds [(8, 0, .plp_thresh_warn_mv, 0)] run, by decide +kernel⟩,
   ⟨run, by decide +kernel⟩,
   ⟨{ run with plp := { run.plp with testDue := true } }, by decide +kernel⟩,
   ⟨3, 0, 9, dumpOf [] none false false, withDump (dumpOf [] none false false) run, by decide +kernel⟩,
   ⟨7, 3, 9, dumpOf [0, 1, 2, 3, 4, 5, 6] (some 0) false false, withDump (dumpOf [0, 1, 2, 3, 4, 5, 6] (some 0) false false) run,
    by decide +kernel⟩,
   ⟨9, 0, dumpOf [0] (some 0) false false, { withDump (dumpOf [0] (some 0) false false) run with nowMs := 10 }, by decide +kernel⟩,
   ⟨9, 0, dumpOf [0] (some 0) false false, { withDump (dumpOf [0] (some 0) false false) run with nowMs := 9 }, by decide +kernel⟩,
   ⟨withDump (dumpOf [] none true false) run, by decide +kernel⟩,
   ⟨run, by decide +kernel⟩,
   ⟨withDump (dumpOf [] none true false) run, by decide +kernel⟩,
   ⟨[], true, { run with fw := { run.fw with running := true } }, by decide +kernel⟩,
   ⟨[], true, { run with plp := { run.plp with started := true } }, by decide +kernel⟩,
   ⟨dumpOf [] none true true, withDump (dumpOf [] none true true) run, by decide +kernel⟩,
   ⟨{ dumpOf [] none true true with exts := [(0, extOf 1 .bothHeld)] },
    { withDump { dumpOf [] none true true with exts := [(0, extOf 1 .bothHeld)] } run with wr := { run.wr with exts := [extOf 1 .bothHeld] } },
    by decide +kernel⟩⟩

theorem test_witness_HoldUpBank :
    (∃ (low now : Nat) (s : State),
        (let r := s.gfld .plp_sense_hsense_ratio; (s.gfld .plp_cfg_plp_enable = 0))) ∧
    (∃ (low now : Nat) (s : State),
        (let r := s.gfld .plp_sense_hsense_ratio;
        (let p := { s.plp with bankMv := sat 0xFFFF (busMv r now), budgetMv := sat 0xFFFF (busMv r low) }; (s.gfld .plp_cfg_plp_enable ≠ 0) ∧
        (let l := limitOfBudget { s with plp := p }; (256 ≤ l) ∧ (s.plp.causes.contains 5 = false) ∧ (s.plp.writeThrough = true))))) ∧
    (∃ (low now : Nat) (s : State),
        (let r := s.gfld .plp_sense_hsense_ratio;
        (let p := { s.plp with bankMv := sat 0xFFFF (busMv r now), budgetMv := sat 0xFFFF (busMv r low) }; (s.gfld .plp_cfg_plp_enable ≠ 0) ∧
        (let l := limitOfBudget { s with plp := p }; (l < 256) ∧ (s.plp.writeThrough = true))))) ∧
    (∃ (s : State), (s.plp.causes.contains 4 = false) ∧ (s.plp.test = none) ∧ (s.plp.writeThrough = true)) ∧
    (∃ (s : State), (s.plp.causes.contains 4 = true)) ∧
    (∃ (s : State), (s.plp.test = none) ∧ (s.plp.causes.contains 7 = false) ∧ (s.plp.warn = false) ∧
        (let x : TestRun := { step := 1, startMs := s.nowMs, stepMs := s.nowMs, v0 := 0, v1 := 0, esr := 0 }; (s.plp.testDue = true))) ∧
    (∃ (s : State), (s.plp.test = none) ∧ (s.plp.causes.contains 7 = false) ∧ (s.plp.warn = false) ∧
        (let x : TestRun := { step := 1, startMs := s.nowMs, stepMs := s.nowMs, v0 := 0, v1 := 0, esr := 0 }; (s.plp.lastTestMin + 60 * s.gfld .plp_test_cfg_test_hours ≤ s.island.minutes))) ∧
    (∃ (s : State), (s.plp.test = none) ∧ (s.plp.causes.contains 7 = false) ∧ (s.plp.warn = false) ∧
        (let x : TestRun := { step := 1, startMs := s.nowMs, stepMs := s.nowMs, v0 := 0, v1 := 0, esr := 0 }; (s.plp.causes.contains 4 = true ∨ s.plp.causes.contains 6 = true))) ∧
    (∃ (s : State), (s.plp.test = none) ∧ (s.plp.causes.contains 7 = false) ∧ (s.plp.warn = false) ∧
        (let x : TestRun := { step := 1, startMs := s.nowMs, stepMs := s.nowMs, v0 := 0, v1 := 0, esr := 0 }; (regOpen s pkgWin = true))) ∧
    (∃ (pin : Nat) (x : TestRun) (s : State), (s.plp.test = some x) ∧
        (let v := busMv (s.gfld .plp_sense_hsense_ratio) pin; (x.step = 1) ∧ (s.gfld .plp_bank_vmin_mv + s.gfld .plp_test_cfg_test_drop_mv < v))) ∧
    (∃ (pin : Nat) (x : TestRun) (s : State), (s.plp.test = some x) ∧
        (let v := busMv (s.gfld .plp_sense_hsense_ratio) pin; (x.step = 1) ∧ (v ≤ s.gfld .plp_bank_vmin_mv + s.gfld .plp_test_cfg_test_drop_mv))) ∧
    (∃ (pin : Nat) (x : TestRun) (s : State), (s.plp.test = some x) ∧
        (let v := busMv (s.gfld .plp_sense_hsense_ratio) pin; (x.step = 2) ∧ (v ≠ 0))) ∧
    (∃ (pin : Nat) (x : TestRun) (s : State), (s.plp.test = some x)) ∧
    (∃ (us : Nat) (x : TestRun) (s : State), (s.plp.test = some x) ∧ (x.step = 3) ∧
        (let c := capFound us (s.gfld .plp_test_cfg_rtest_ohm) x.v1 (x.v1 - s.gfld .plp_test_cfg_test_drop_mv); (100 * s.gfld .plp_test_limit_cap_min ≤ c) ∧ (x.esr ≤ s.gfld .plp_test_limit_esr_max_mohm))) ∧
    (∃ (us : Nat) (x : TestRun) (s : State), (s.plp.test = some x) ∧ (x.step = 3) ∧
        (let c := capFound us (s.gfld .plp_test_cfg_rtest_ohm) x.v1 (x.v1 - s.gfld .plp_test_cfg_test_drop_mv); (c < 100 * s.gfld .plp_test_limit_cap_min))) ∧
    (∃ (us : Nat) (x : TestRun) (s : State), (s.plp.test = some x) ∧ (x.step = 3) ∧
        (let c := capFound us (s.gfld .plp_test_cfg_rtest_ohm) x.v1 (x.v1 - s.gfld .plp_test_cfg_test_drop_mv); (100 * s.gfld .plp_test_limit_cap_min ≤ c) ∧ (s.gfld .plp_test_limit_esr_max_mohm < x.esr))) ∧
    (∃ (x : TestRun) (s : State), (s.plp.test = some x) ∧ (x.step = 1) ∧ (x.startMs + 300000 ≤ s.nowMs) ∧ (s.plp.writeThrough = true)
      ∧ (s.gfld .plp_cfg_plp_enable = 0)) ∧
    (∃ (x : TestRun) (s : State), (s.plp.test = some x) ∧ (x.step = 3) ∧ (x.stepMs + 10000 ≤ s.nowMs) ∧ (s.plp.writeThrough = true) ∧
      (s.gfld .plp_cfg_plp_enable = 0)) ∧
    (∃ (x : TestRun) (s : State), (s.plp.test = some x) ∧ (x.step = 1) ∧ (s.nowMs < x.startMs + 300000)) ∧
    (∃ (s : State), (regOpen s pkgWin = true)) ∧
    (∃ (s : State), ((s.plp.causes.contains 6 = true ∨ s.plp.causes.contains 4 = true)) ∧ (drained s = true)) ∧
    (∃ (s : State), ((s.plp.causes.contains 6 = true ∨ s.plp.causes.contains 4 = true)) ∧ (drained s = false)) ∧
    (∃ (s : State), (regOpen s pkgWin = true) ∧ (s.plp.prepare = false)) ∧
    (∃ (s : State), (regOpen s pkgWin = true) ∧ (s.plp.prepare = true)) ∧
    (∃ (s : State), (s.plp.prepare = true) ∧ (s.plp.offReady = false) ∧ (drained s = true)) ∧
    (∃ (s : State), (s.plp.prepare = true) ∧ (s.plp.offReady = false) ∧ (drained s = false)) ∧
    (∃ (value : Nat) (s : State), (regOpen s pkgWin = true) ∧ (bitOf value 0 = true) ∧ (s.gfld .plp_cfg_plp_enable = 0)) ∧
    (∃ (value : Nat) (s : State), (regOpen s pkgWin = true) ∧ (bitOf value 0 = false) ∧ (s.gfld .plp_cfg_plp_enable = 1)) :=
  ⟨⟨3, 3, run, by decide +kernel⟩,
   ⟨30000, 35000, withSeal (holdReady 1), by decide +kernel⟩,
   ⟨3, 3, holdReady 1, by decide +kernel⟩,
   ⟨run, by decide +kernel⟩,
   ⟨{ run with plp := { run.plp with causes := [4] } }, by decide +kernel⟩,
   ⟨{ run with plp := { run.plp with testDue := true } }, by decide +kernel⟩,
   ⟨{ run with island := { run.island with minutes := 100000 } }, by decide +kernel⟩,
   ⟨{ run with plp := { run.plp with causes := [1, 6] } }, by decide +kernel⟩,
   ⟨run, by decide +kernel⟩,
   ⟨2000, testOf 1, holdTest 1 0, by decide +kernel⟩,
   ⟨0, testOf 1, holdTest 1 0, by decide +kernel⟩,
   ⟨2000, testOf 2, holdTest 2 0, by decide +kernel⟩,
   ⟨0, testOf 2, holdTest 2 0, by decide +kernel⟩,
   ⟨176500, testOf 3, setFlds [(8, 0, .plp_test_limit_cap_min, 299), (8, 0, .plp_test_limit_esr_max_mohm, 40)] (holdTest 3 0),
    by decide +kernel⟩,
   ⟨176500, testOf 3, setFlds [(8, 0, .plp_test_limit_cap_min, 301), (8, 0, .plp_test_limit_esr_max_mohm, 40)] (holdTest 3 0),
    by decide +kernel⟩,
   ⟨176500, testOf 3, setFlds [(8, 0, .plp_test_limit_cap_min, 299), (8, 0, .plp_test_limit_esr_max_mohm, 39)] (holdTest 3 0),
    by decide +kernel⟩,
   ⟨testOf 1, withTest 1 300000 run, by decide +kernel⟩,
   ⟨testOf 3, withTest 3 10000 run, by decide +kernel⟩,
   ⟨testOf 1, withTest 1 299999 run, by decide +kernel⟩,
   ⟨run, by decide +kernel⟩,
   ⟨{ run with plp := { run.plp with causes := [6] } }, by decide +kernel⟩,
   ⟨{ run with plp := { run.plp with causes := [4] }, wr := { run.wr with exts := [extOf 1 .bothHeld] } }, by decide +kernel⟩,
   ⟨run, by decide +kernel⟩,
   ⟨{ run with plp := { run.plp with prepare := true } }, by decide +kernel⟩,
   ⟨{ run with plp := { run.plp with prepare := true } }, by decide +kernel⟩,
   ⟨{ run with plp := { run.plp with prepare := true }, wr := { run.wr with exts := [extOf 1 .bothHeld] } }, by decide +kernel⟩,
   ⟨1, run, by decide +kernel⟩,
   ⟨0, setFlds [(8, 0, .plp_cfg_plp_enable, 1)] run, by decide +kernel⟩⟩

theorem test_witness_EventRecorder :
    (∃ (e : EvRaise) (rest : List EvRaise) (s : State), (s.evr.raised = e :: rest) ∧ (e.ev.severity < s.gfld .evr_cfg_log_min_sev)) ∧
    (∃ (e : EvRaise) (rest : List EvRaise) (s : State), (s.evr.raised = e :: rest) ∧ (s.gfld .evr_cfg_log_min_sev ≤ e.ev.severity) ∧
      (e.ev.severity < 5) ∧ (tokensOf s e.ev.code = 0)) ∧
    (∃ (e : EvRaise) (rest : List EvRaise) (s : State), (s.evr.raised = e :: rest) ∧ (s.gfld .evr_cfg_log_min_sev ≤ e.ev.severity) ∧
      ((5 ≤ e.ev.severity ∨ 0 < tokensOf s e.ev.code)) ∧ (s.island.pkg = 2) ∧ (s.evr.store.length < slotsOf s)) ∧
    (∃ (s : State), (s.evr.supp = []) ∧ ((s.evr.buckets.map (·.1)).Nodup) ∧ ((∀ b ∈ s.evr.buckets, b.2 < rateBurst s))) ∧
    (∃ (r : EvRec) (l : List EvRec) (s : State), (unarchived s = r :: l) ∧ (s.nowMs < r.ms + (if s.evr.fallback then 1000 else
      60000))) ∧
    (∃ (r : EvRec) (l : List EvRec) (s : State), (unarchived s = r :: l) ∧ (r.ms + (if s.evr.fallback then 1000 else 60000) ≤
      s.nowMs)) ∧
    (∃ (s : State), ((s.evr.archiving = none ∨ bandOpWaits s .program = true))) ∧
    (∃ (ns : List Nat) (s : State), (s.evr.archiving = some ns) ∧ (bandOpWaits s .program = false)) ∧
    (∃ (n : Nat) (s : State), (regAnswers s pkgWin .evrCursor = true) ∧ (n < 2 ^ 32) ∧ ∃ r, (s.evr.store.find? (fun x => x.seq == n) =
      some r)) ∧
    (∃ (n : Nat) (s : State), (regAnswers s pkgWin .evrCursor = true) ∧ (n < 2 ^ 32) ∧ ((∀ r ∈ held s, r.seq ≠ n)) ∧ (s.evr.last < n)) ∧
    (∃ (r : EvRec) (s : State), (regAnswers s pkgWin .evrWinData = true) ∧ (s.evr.win.latched = some r) ∧ (s.evr.win.valid = true)) ∧
    (∃ (s : State), (s.evr.win.pending = true) ∧ (bandOpWaits s .read = false)) ∧
    (∃ (s : State), ((s.evr.win.pending = false ∨ bandOpWaits s .read = true))) :=
  ⟨⟨{ ev := .meshLinkUp, tile := 0, params := [] }, [], setFlds [(8, 0, .evr_cfg_log_min_sev, 7)] (withEvents
    [{ ev := .meshLinkUp, tile := 0, params := [] }] run), by decide +kernel⟩,
   ⟨{ ev := .meshLinkUp, tile := 0, params := [] }, [], setFlds [(8, 0, .evr_cfg_log_min_sev, 0)]
    { run with evr := { run.evr with raised := [{ ev := .meshLinkUp, tile := 0, params := [] }], buckets := [(Ev.meshLinkUp.code, 0)] } },
    by decide +kernel⟩,
   ⟨{ ev := .meshLinkUp, tile := 0, params := [] }, [], setFlds [(8, 0, .evr_cfg_log_min_sev, 0)] (withEvents
    [{ ev := .meshLinkUp, tile := 0, params := [] }] run), by decide +kernel⟩,
   ⟨{ run with evr := { run.evr with buckets := [(3, 0), (4, 1)] } }, by decide +kernel⟩,
   ⟨recOf 1, [recOf 2], { withRecs [1, 2] run with nowMs := 59999 }, by decide +kernel⟩,
   ⟨recOf 1, [recOf 2], { withRecs [1, 2] run with nowMs := 60000 }, by decide +kernel⟩,
   ⟨run, by decide +kernel⟩,
   ⟨[1], { withRecs [1, 2] run with evr := { (withRecs [1, 2] run).evr with archiving := some [1] } }, by decide +kernel⟩,
   ⟨2, withRecs [1, 2] run, by decide +kernel, by decide +kernel, recOf 2, by decide +kernel⟩,
   ⟨9, withRecs [1, 2] run, by decide +kernel⟩,
   ⟨recOf 1,
    { withRecs [1, 2] run with evr := { (withRecs [1, 2] run).evr with win := { EvWin.initial with valid := true, latched := some (recOf 1) } } },
    by decide +kernel⟩,
   ⟨{ withRecs [1, 2] run with evr := { (withRecs [1, 2] run).evr with win := { EvWin.initial with pending := true, latched := some (recOf 1) } } },
    by decide +kernel⟩,
   ⟨run, by decide +kernel⟩⟩

theorem test_witness_ChessClock :
    (∃ (energy peak : Nat) (s : State), (s.clock.boardTime < s.clock.epochEnd)) ∧
    (∃ (energy peak : Nat) (s : State), (s.clock.epochEnd ≤ s.clock.boardTime)) ∧
    (∃ (hi : Nat) (s : State), (regOpen s pkgWin = true) ∧ (0 < s.gfld .glb_clock_cfg_epoch_s)) ∧
    (∃ (hi : Nat) (s : State), (regOpen s pkgWin = false)) ∧
    (∃ (energy peak : Nat) (s : State), (s.clock.epochEnd ≤ s.clock.boardTime) ∧ (ringOn s 2 = false) ∧ (s.clock.held = []) ∧ ((∀ m ∈
      s.clock.meters, m.kind ≠ 3 ∧ (m.kind = 2 → m.cntlid = 0 ∧ m.nsid = 0)))) :=
  ⟨⟨1, 1, run, by decide +kernel⟩,
   ⟨1, 1, clockDue, by decide +kernel⟩,
   ⟨7, run, by decide +kernel⟩,
   ⟨7, State.reset, by decide +kernel⟩,
   ⟨12345, 1, clockDue, by decide +kernel⟩⟩

theorem test_witness_LogPages :
    (∃ (a : Adm) (c : Ctrl) (s : State), (AdmRuns .management a s) ∧ (admCtrl s a = some c)) ∧
    (∃ (s : State), (AdmRuns .management .ring s)) ∧
    (∃ (a : Adm) (nsid : Nat) (s : State), (AdmRuns .management a s) ∧ ((nsid = 0 ∨ nsid = 0xFFFFFFFF))) ∧
    (∃ (a : Adm) (nsid : Nat) (s : State), (AdmRuns .management a s) ∧ (nsid ≠ 0) ∧ (nsid ≠ 0xFFFFFFFF) ∧ (nsid ∉ seen s a)) ∧
    (∃ (a : Adm) (id : Nat) (s : State), (AdmRuns .management a s) ∧ ∃ g, (findEg s id = some g)) ∧
    (∃ (a : Adm) (id : Nat) (s : State), (AdmRuns .management a s) ∧ (findEg s id = none)) ∧
    (∃ (a : Adm) (s : State), (AdmRuns .management a s)) ∧
    (∃ (a : Adm) (s : State), (AdmRuns .management a s) ∧ (admProvider s a = true)) ∧
    (∃ (a : Adm) (s : State), (AdmRuns .management a s) ∧ (admProvider s a = false)) ∧
    (∃ (a : Adm) (rae : Bool) (s : State), (AdmRuns .management a s)) ∧
    (∃ (conn : Nat) (k : Conn) (s : State), (liveConn s conn = some k) ∧ (k.discovery = true) ∧ (k.bound = true) ∧ (AdmRuns
      .management (.conn conn) s)) :=
  ⟨⟨.host 1, ctrlOf 1, adminRuns, by unfold AdmRuns; decide +kernel⟩,
   ⟨adminRing, by unfold AdmRuns; decide +kernel⟩,
   ⟨.host 1, 0xFFFFFFFF, adminRuns, by unfold AdmRuns; decide +kernel⟩,
   ⟨.host 1, 5, adminRuns, ⟨by unfold AdmRuns; decide +kernel, by decide, by decide,
    by unfold seen; rw [List.mem_mergeSort]; decide +kernel⟩⟩,
   ⟨.host 1, 1, { adminRuns with reg := { run.reg with egs := [egAt 1] } }, by unfold AdmRuns; decide +kernel, egAt 1,
    by decide +kernel⟩,
   ⟨.host 1, 1, adminRuns, by unfold AdmRuns; decide +kernel⟩,
   ⟨.host 1, adminRuns, by unfold AdmRuns; decide +kernel⟩,
   ⟨.host 1, adminRuns, by unfold AdmRuns; decide +kernel⟩,
   ⟨.host 1, { adminRuns with host := { adminRuns.host with ctrls := [{ ctrlOf 1 with provider := false }] } },
    by unfold AdmRuns; decide +kernel⟩,
   ⟨.host 1, true, adminRuns, by unfold AdmRuns; decide +kernel⟩,
   ⟨1, connAt 1 true true, withPort 1 [0] { run with host := { run.host with conns := [connAt 1 true true] } },
    by unfold AdmRuns; decide +kernel⟩⟩

theorem test_witness_SuppliesAndFences :
    (∃ (tile : Nat) (s : State), (tileUp s tile = true)) ∧
    (∃ (tile : Nat) (s : State), (beatsWatched s = true) ∧ (tileUp s tile = true) ∧ (restarting s tile = none) ∧ (beatOf s tile + 10 ≤
      s.nowMs)) ∧
    (∃ (tile : Nat) (s : State), (beatsWatched s = true) ∧ (tileUp s tile = true) ∧ (restarting s tile = none) ∧ (s.nowMs < beatOf s
      tile + 10)) ∧
    (∃ (tile m : Nat) (s : State), (restarting s tile = some m) ∧ (beatsWatched s = true) ∧ (m + 100 ≤ s.nowMs)) ∧
    (∃ (tile m : Nat) (s : State), (restarting s tile = some m) ∧ (s.nowMs < m + 100)) ∧
    (∃ (tile : Nat) (s : State), (tile ≠ s.mgmt.primary) ∧ (tileUp s s.mgmt.primary = true) ∧ (tileUp s tile = true)) ∧
    (∃ (by_ tile : Nat) (s : State), (by_ ≠ s.mgmt.primary) ∧ ((by_ ≠ s.mgmt.standby ∨ s.nowMs < beatOf s s.mgmt.primary + 20))) ∧
    (∃ (s : State), (s.island.vaux = false)) ∧
    (∃ (s : State), (s.island.pkg = 2)) ∧
    (∃ (s : State), (s.island.pkg ≠ 2)) ∧
    (∃ (s : State), (s.island.pkg = 1)) ∧
    (∃ (s : State), (s.island.pkg = 2) ∧ (s.plp.dump = none)) ∧
    (∃ (s : State), (s.island.vaux = true) ∧ (s.island.pkg = 1)) :=
  ⟨⟨7, run, by decide +kernel⟩,
   ⟨7, { run with nowMs := 10 }, by decide +kernel⟩,
   ⟨7, { run with nowMs := 9 }, by decide +kernel⟩,
   ⟨7, 5, { run with mgmt := { run.mgmt with restarts := [(7, 5)] }, nowMs := 105 }, by decide +kernel⟩,
   ⟨7, 5, { run with mgmt := { run.mgmt with restarts := [(7, 5)] }, nowMs := 104 }, by decide +kernel⟩,
   ⟨7, run, by decide +kernel⟩,
   ⟨1, 7, { run with nowMs := 19 }, by decide +kernel⟩,
   ⟨State.reset, by decide +kernel⟩,
   ⟨run, by decide +kernel⟩,
   ⟨State.reset, by decide +kernel⟩,
   ⟨{ run with island := { run.island with pkg := 1 } }, by decide +kernel⟩,
   ⟨run, by decide +kernel⟩,
   ⟨{ run with island := { run.island with pkg := 1 } }, by decide +kernel⟩⟩

theorem test_witness_FirmwareStaging :
    (∃ (a : Adm) (off : Nat) (d : Bytes) (s : State), (AdmRuns .registry a s) ∧ (3 ≤ s.fw.stage)) ∧
    (∃ (a : Adm) (off : Nat) (d : Bytes) (s : State), (AdmRuns .registry a s) ∧ (s.fw.stage < 3) ∧ (off % 65536 ≠ 0)) ∧
    (∃ (a : Adm) (off : Nat) (d : Bytes) (s : State), (AdmRuns .registry a s) ∧ (s.fw.stage < 3) ∧ (off = 0) ∧ (d.length ≠ 13792)) ∧
    (∃ (a : Adm) (off : Nat) (d : Bytes) (s : State), (AdmRuns .registry a s) ∧ (s.fw.stage < 3) ∧ (off = 0) ∧ (d.length = 13792) ∧
      (stagedManifest s = none)) ∧
    (∃ (a : Adm) (i : Nat) (d m : Bytes) (s : State), (AdmRuns .registry a s) ∧ (s.fw.stage < 3) ∧ (0 < i) ∧ (i ≤ 383) ∧
      (stagedManifest s = some m) ∧ (i ≤ mfPieces m) ∧ (d.length = pieceLen m i) ∧ (recorded s i = true)) ∧
    (∃ (a : Adm) (i : Nat) (d m : Bytes) (s : State), (AdmRuns .registry a s) ∧ (s.fw.stage < 3) ∧ (0 < i) ∧ (i ≤ 383) ∧
      (stagedManifest s = some m) ∧ (i ≤ mfPieces m) ∧ (d.length = pieceLen m i) ∧ (recorded s i = false)) ∧
    (∃ (i : Nat) (d : Bytes) (p : ProvOp) (s : State), (s.fw.writing = some (i, d)) ∧ (s.prov = some p) ∧ (p.kind = .firmware) ∧
      (s.fw.flash.failed = false) ∧ (i = 0)) ∧
    (∃ (i : Nat) (d : Bytes) (p : ProvOp) (s : State), (s.fw.writing = some (i, d)) ∧ (s.prov = some p) ∧ (p.kind = .firmware) ∧
      (s.fw.flash.failed = false) ∧ (i ≠ 0) ∧ (s.fw.stage ≠ 0)) ∧
    (∃ (i : Nat) (d : Bytes) (p : ProvOp) (s : State), (s.fw.writing = some (i, d)) ∧ (s.prov = some p) ∧ (p.kind = .firmware)) ∧
    (∃ (s : State), (s.fw.checking = true)) ∧
    (∃ (a : Adm) (ca fs : Nat) (s : State), (AdmRuns .registry a s) ∧ (ca = 0) ∧ (fs = 3) ∧ (s.fw.stage = 2) ∧ (mfKind (manifestOf
      s.fw.staging) = 1)) ∧
    (∃ (a : Adm) (ca fs : Nat) (s : State), (AdmRuns .registry a s) ∧ (ca = 0) ∧ (fs ≠ 3)) ∧
    (∃ (a : Adm) (ca fs : Nat) (s : State), (AdmRuns .registry a s) ∧ (ca ≠ 0)) ∧
    (∃ (a : Adm) (fs : Nat) (s : State), (AdmRuns .registry a s) ∧ (1 < fs)) ∧
    (∃ (a : Adm) (fs : Nat) (s : State), (AdmRuns .registry a s) ∧ ∃ st, (fs ≤ 1) ∧ (commitFault s = some st)) ∧
    (∃ (a : Adm) (fs : Nat) (s : State), (AdmRuns .registry a s) ∧ (fs ≤ 1) ∧ (commitFault s = none) ∧ (s.fw.recovery = false)) ∧
    (∃ (value : Nat) (s : State), (regOpen s pkgWin = true) ∧ (bitOf value 0 = true) ∧ (s.fw.stage < 3)) ∧
    (∃ (value : Nat) (s : State), (regOpen s pkgWin = true) ∧ (bitOf value 0 = true) ∧ (3 ≤ s.fw.stage)) ∧
    (∃ (k : LogKind) (s : State), ((∀ l, s.fw.log.getLast? = some l → ∀ r ∈ s.fw.log, r.sector ≠ (l.sector + 1) % 8))) :=
  ⟨⟨.host 1, 0, [], fwIn 3 [] adminRuns, by unfold AdmRuns; decide +kernel⟩,
   ⟨.host 1, 65535, [], fwIn 2 [] adminRuns, by unfold AdmRuns; decide +kernel⟩,
   ⟨.host 1, 0, List.replicate 13791 0, fwIn 2 [] adminRuns, ⟨by unfold AdmRuns; decide +kernel, by decide, rfl, length_ne⟩⟩,
   ⟨.host 1, 0, List.replicate 13792 0, fwIn 0 [] adminRuns, ⟨by unfold AdmRuns; decide +kernel, by decide, rfl,
    List.length_replicate, rfl⟩⟩,
   ⟨.host 1, 1, List.replicate 256 0, mfOf 0, fwIn 1 [(0, mfOf 0), (1, [])] adminRuns, by unfold AdmRuns; decide +kernel⟩,
   ⟨.host 1, 1, List.replicate 256 0, mfOf 0, fwIn 1 [(0, mfOf 0)] adminRuns, by unfold AdmRuns; decide +kernel⟩,
   ⟨0, mfOf 0, { adm := .ring, kind := .firmware }, { provFw run with fw := { run.fw with writing := some (0, mfOf 0) } },
    by decide +kernel⟩,
   ⟨1, [7], { adm := .ring, kind := .firmware }, { provFw run with fw := { run.fw with writing := some (1, [7]), stage := 1 } },
    by decide +kernel⟩,
   ⟨1, [7], { adm := .ring, kind := .firmware }, { provFw run with fw := { run.fw with writing := some (1, [7]), stage := 1 } },
    by decide +kernel⟩,
   ⟨{ run with fw := { run.fw with checking := true } }, by decide +kernel⟩,
   ⟨.host 1, 0, 3, fwIn 2 [(0, mfOf 1)] adminRuns, by unfold AdmRuns; decide +kernel⟩,
   ⟨.host 1, 0, 2, fwIn 2 [(0, mfOf 1)] adminRuns, by unfold AdmRuns; decide +kernel⟩,
   ⟨.host 1, 1, 2, fwIn 2 [(0, mfOf 1)] adminRuns, by unfold AdmRuns; decide +kernel⟩,
   ⟨.host 1, 2, adminRuns, by unfold AdmRuns; decide +kernel⟩,
   ⟨.host 1, 1, adminRuns, by unfold AdmRuns; decide +kernel, .invalidFirmwareImage, by decide +kernel, by decide +kernel⟩,
   ⟨.host 1, 1, fwIn 2 [(0, mfOf 0)] adminRuns, by unfold AdmRuns; decide +kernel⟩,
   ⟨1, fwIn 2 [(0, mfOf 0)] run, by decide +kernel⟩,
   ⟨1, fwIn 3 [(0, mfOf 0)] run, by decide +kernel⟩,
   ⟨.stageRestart, fwIn 2 [(0, mfOf 0)] run, by decide +kernel⟩⟩

theorem test_witness_FirmwareActivation :
    (∃ (ok : Bool) (s : State), (s.fw.actStep = 1)) ∧
    (∃ (s : State), (s.fw.actStep = 2)) ∧
    (∃ (p : ProvOp) (s : State), (s.fw.actStep = 3) ∧ (s.prov = some p) ∧ (p.kind = .firmware)) ∧
    (∃ (a : Adm) (id : Nat) (s : State), (AdmRuns .registry a s) ∧ (s.fw.stage = 3) ∧ (s.fw.activated = true) ∧ (mfImageId
      (runManifest s) = id)) ∧
    (∃ (a : Adm) (id : Nat) (s : State), (AdmRuns .registry a s) ∧ (s.fw.stage = 3) ∧ (s.fw.activated = true) ∧ (mfImageId
      (runManifest s) ≠ id)) ∧
    (∃ (a : Adm) (id : Nat) (s : State), (AdmRuns .registry a s) ∧ ((s.fw.stage ≠ 3 ∨ s.fw.activated = false))) ∧
    (∃ (s : State), (s.fw.flash.failed = false) ∧ (s.fw.instStep = 1)) ∧
    (∃ (s : State), (s.fw.flash.failed = false) ∧ (s.fw.instStep = 2)) ∧
    (∃ (s : State), (s.fw.flash.failed = false) ∧ (s.fw.instStep ≠ 0)) ∧
    (∃ (rf : List Nat) (s : State), (booting s = true) ∧ (tileUp s 0 = true) ∧ (s.ident.rowOk = true) ∧ (s.fw.intent = false) ∧
      (s.fw.activated = false) ∧ (s.fw.pendingStart = false)) ∧
    (∃ (rf tf : List Nat) (s : State), (booting s = true) ∧ (tileUp s 0 = true) ∧ (s.ident.rowOk = false)) ∧
    (∃ (rf tf : List Nat) (s : State), (booting s = false)) ∧
    (∃ (rf tf : List Nat) (s : State), (booting s = true) ∧ (tileUp s 1 = true) ∧ (s.mgmt.primary = 0) ∧ (s.mgmt.standby = 1) ∧
      (s.ident.rowOk = false)) ∧
    (∃ (us : Nat) (s : State), (s.fw.flash.op ≠ 0) ∧ (us ≤ 4800)) ∧
    (∃ (us : Nat) (s : State), (s.fw.flash.op ≠ 0) ∧ (1 ≤ s.fw.flash.fails)) ∧
    (∃ (s : State), (s.fw.flash.op = 0) ∧ (s.fw.flash.idleMs + s.gfld .cfc_cfg_idle_off_ms ≤ s.nowMs)) ∧
    (∃ (s : State), (s.fw.flash.op = 0) ∧ (s.nowMs < s.fw.flash.idleMs + s.gfld .cfc_cfg_idle_off_ms)) :=
  ⟨⟨true, { fwIn 2 [(0, mfOf 0)] (provFw run) with fw := { (fwIn 2 [(0, mfOf 0)] run).fw with actStep := 1 } }, by decide +kernel⟩,
   ⟨{ run with fw := { run.fw with actStep := 2 } }, by decide +kernel⟩,
   ⟨{ adm := .ring, kind := .firmware }, { provFw run with fw := { run.fw with actStep := 3 } }, by decide +kernel⟩,
   ⟨.host 1, 9,
    { fwIn 3 [] adminRuns with fw := { (fwIn 3 [] adminRuns).fw with activated := true, run := some { source := 2, manifest := mfOf 0 } } },
    by unfold AdmRuns; decide +kernel⟩,
   ⟨.host 1, 8,
    { fwIn 3 [] adminRuns with fw := { (fwIn 3 [] adminRuns).fw with activated := true, run := some { source := 2, manifest := mfOf 0 } } },
    by unfold AdmRuns; decide +kernel⟩,
   ⟨.host 1, 9, fwIn 3 [] adminRuns, by unfold AdmRuns; decide +kernel⟩,
   ⟨{ run with fw := { run.fw with instStep := 1 } }, by decide +kernel⟩,
   ⟨{ run with fw := { run.fw with instStep := 2 } }, by decide +kernel⟩,
   ⟨{ run with fw := { run.fw with instStep := 2 } }, by decide +kernel⟩,
   ⟨[0, 1, 3], run, by decide +kernel⟩,
   ⟨[], [], { run with ident := { run.ident with rowOk := false } }, by decide +kernel⟩,
   ⟨[], [], State.reset, by decide +kernel⟩,
   ⟨[], [], { run with ident := { run.ident with rowOk := false } }, by decide +kernel⟩,
   ⟨4800, { run with fw := { run.fw with flash := { run.fw.flash with op := 1 } } }, by decide +kernel⟩,
   ⟨4800, { run with fw := { run.fw with flash := { run.fw.flash with op := 1, fails := 1 } } }, by decide +kernel⟩,
   ⟨{ run with nowMs := 65535 }, by decide +kernel⟩,
   ⟨run, by decide +kernel⟩⟩

theorem test_witness_BoardRings :
    (∃ (v : Nat) (s : State), (ringOn s 0 = true) ∧ (v < 65536) ∧ ((s.board.rings.any fun r => r.k == 0) = true) ∧ (bellOk s 0 v
      (ringOf s 0).tail (ringRoom s 0) = true)) ∧
    (∃ (v : Nat) (s : State), (ringOn s 0 = true) ∧ (v < 65536) ∧ ((s.board.rings.any fun r => r.k == 0) = true) ∧ (bellOk s 0 v
      (ringOf s 0).tail (ringRoom s 0) = false)) ∧
    (∃ (v : Nat) (s : State), (ringOn s 1 = true) ∧ (v < 65536) ∧ ((s.board.rings.any fun r => r.k == 1) = true) ∧ (bellOk s 1 v
      (ringOf s 1).head (ringUsed s 1) = true)) ∧
    (∃ (v : Nat) (s : State), (ringOn s 1 = true) ∧ (v < 65536) ∧ ((s.board.rings.any fun r => r.k == 1) = true) ∧ (bellOk s 1 v
      (ringOf s 1).head (ringUsed s 1) = false)) ∧
    (∃ (v : Nat) (s : State), (ringOn s 2 = true) ∧ (v < 65536) ∧ (bellOk s 2 v (ringOf s 2).head (ringUsed s 2) = true) ∧
      (s.clock.placing = []) ∧ (s.clock.held = []) ∧ ((s.board.rings.any fun r => r.k == 2) = true)) ∧
    (∃ (v : Nat) (s : State), (ringOn s 3 = true) ∧ (v < 65536) ∧ (bellOk s 3 v (ringOf s 3).head (ringUsed s 3) = true) ∧ (s.evr.last
      < s.evr.evtNext) ∧ ((s.board.rings.any fun r => r.k == 3) = true)) ∧
    (∃ (v : Nat) (s : State), (ringOn s 0 = false)) ∧
    (∃ (v : Nat) (s : State), (ringOn s 1 = false)) ∧
    (∃ (v : Nat) (s : State), (ringOn s 2 = false)) ∧
    (∃ (v : Nat) (s : State), (ringOn s 3 = false)) ∧
    (∃ (k : Nat) (s : State), (1 ≤ k) ∧ (k ≤ 3) ∧ (ringOn s k = true) ∧ ((s.board.rings.any fun r => r.k == k) = true) ∧ ((ringOf s
      k).unsignalled ≠ 0)) ∧
    (∃ (k : Nat) (s : State), (1 ≤ k) ∧ (k ≤ 3) ∧ (ringOn s k = true) ∧ ((s.board.rings.any fun r => r.k == k) = true) ∧ ((ringOf s
      k).unsignalled = 0)) ∧
    (∃ (k value : Nat) (s : State), (k < 2) ∧ (regOpen s pkgWin = true) ∧ (bitOf value 31 = true) ∧ (s.fld pkgWin k
      .bpt_ring_cfg_ring_en = 0) ∧ ((s.board.rings.any fun r => r.k == k) = true) ∧ (s.clock.placing = []) ∧ (s.clock.held = []) ∧
      (s.evr.last < s.evr.evtNext) ∧
        (let s1 := writeReg pkgWin k .bptRingCfg (setBit value 31 false) s;
        (let n := s1.fld pkgWin k .bpt_ring_cfg_log2_size; (4 ≤ n) ∧ (n ≤ 16)))) ∧
    (∃ (k value : Nat) (s : State), (k < 2) ∧ (regOpen s pkgWin = true) ∧ (bitOf value 31 = true) ∧ (s.fld pkgWin k
      .bpt_ring_cfg_ring_en = 0) ∧ ((s.board.rings.any fun r => r.k == k) = true) ∧ (s.clock.placing = []) ∧ (s.clock.held = []) ∧
      (s.evr.last < s.evr.evtNext) ∧
        (let s1 := writeReg pkgWin k .bptRingCfg (setBit value 31 false) s;
        (let n := s1.fld pkgWin k .bpt_ring_cfg_log2_size; (n < 4 ∨ 16 < n)))) ∧
    (∃ (s : State), (s.island.pkg = 2)) ∧
    (∃ (d : Bytes) (m : Nat × Nat) (s : State), (canFetchDesc s = true) ∧ (malformed d = false) ∧ (descMoves s d = some m) ∧
      (ringRefuses d = none) ∧ (m = (descField d 20 1, descField d 16 4)) ∧ ((s.board.rings.any fun r => r.k == 0) = true)) ∧
    (∃ (d : Bytes) (ok : Bool) (s : State), (canFetchDesc s = true) ∧ (malformed d = true)) ∧
    (∃ (d : Bytes) (ok : Bool) (s : State), (canFetchDesc s = true) ∧ (malformed d = false) ∧ (descMoves s d = none)) ∧
    (∃ (d : Bytes) (ok : Bool) (s : State), (canFetchDesc s = false)) :=
  ⟨⟨1, ringed 0 run, by decide +kernel⟩,
   ⟨65535, ringed 0 run, by decide +kernel⟩,
   ⟨1, putRings [ringAt 1 0 1 1] (ringed 1 run), by decide +kernel⟩,
   ⟨2, putRings [ringAt 1 0 1 1] (ringed 1 run), by decide +kernel⟩,
   ⟨1, putRings [ringAt 2 0 1 1] (ringed 2 run), by decide +kernel⟩,
   ⟨1, putRings [ringAt 3 0 1 1] (ringed 3 run), by decide +kernel⟩,
   ⟨1, run, by decide +kernel⟩,
   ⟨1, run, by decide +kernel⟩,
   ⟨1, run, by decide +kernel⟩,
   ⟨1, run, by decide +kernel⟩,
   ⟨3, putRings [ringAt 3 0 1 1] (ringed 3 run), by decide +kernel⟩,
   ⟨3, putRings [ringAt 3 0 1 0] (ringed 3 run), by decide +kernel⟩,
   ⟨1, 2 ^ 31 + 16, run, by decide +kernel⟩,
   ⟨1, 2 ^ 31 + 31, run, by decide +kernel⟩,
   ⟨run, by decide +kernel⟩,
   ⟨[1, 3, 0, 0] ++ List.replicate 12 0 ++ [0, 2, 0, 0, 2] ++ List.replicate 43 0, (2, 512), fetchReady, by decide +kernel⟩,
   ⟨[2] ++ List.replicate 63 0, true, fetchReady, by decide +kernel⟩,
   ⟨[1, 9] ++ List.replicate 62 0, true, fetchReady, by decide +kernel⟩,
   ⟨[1, 9] ++ List.replicate 62 0, true, run, by decide +kernel⟩⟩

theorem test_witness_BoardOperations :
    (∃ (s : State), (ringRuns s 1 = true) ∧ (s.board.commit.state = 0)) ∧
    (∃ (s : State), (ringRuns s 1 = true) ∧ (s.board.commit.state ≠ 0)) ∧
    (∃ (d : Bytes) (s : State), (ringRuns s 2 = true) ∧ (s.fw.activating = false) ∧ (planeBusy s .ring = false) ∧ (s.fw.flash.failed =
      false) ∧ ∃ p, (parseProvider s d = some p)) ∧
    (∃ (d : Bytes) (s : State), (ringRuns s 2 = true) ∧ (s.fw.activating = false) ∧ (planeBusy s .ring = false) ∧ (s.fw.flash.failed =
      false) ∧ (parseProvider s d = none)) ∧
    (∃ (s : State), (ringRuns s 3 = true)) ∧
    (∃ (d : Bytes) (s : State), (ringRuns s 4 = true) ∧ (s.fw.activating = false) ∧ (planeBusy s .ring = false) ∧ (s.fw.flash.failed =
      false) ∧
        (let n := parseNetIf d; (netIfOk s n = false))) ∧
    (∃ (d : Bytes) (s : State), (ringRuns s 4 = true) ∧ (s.fw.activating = false) ∧ (planeBusy s .ring = false) ∧ (s.fw.flash.failed =
      false) ∧
        (let n := parseNetIf d;
        (let others := s.reg.netifs.filter fun x => !x.samePlace n; (netIfOk s n = true) ∧ (bitOf n.flags 0 = true) ∧ ((others.any fun x => x.tile == n.tile && x.port == n.port && x.clashes n) = true)))) ∧
    (∃ (d : Bytes) (s : State), (ringRuns s 4 = true) ∧ (s.fw.activating = false) ∧ (planeBusy s .ring = false) ∧ (s.fw.flash.failed =
      false) ∧
        (let n := parseNetIf d;
        (let others := s.reg.netifs.filter fun x => !x.samePlace n; (netIfOk s n = true) ∧ (bitOf n.flags 0 = true) ∧ ((others.any fun x => x.tile == n.tile && x.port == n.port && x.clashes n) = false)))) ∧
    (∃ (v : Nat) (s : State), (ringRuns s 5 = true)) ∧
    (∃ (s : State), (ringRuns s 6 = true)) ∧
    (∃ (s : State), (regOpen s pkgWin = true) ∧ (s.board.commit.state = 0)) ∧
    (∃ (s : State), (regOpen s pkgWin = true) ∧ (s.board.commit.state ≠ 0)) ∧
    (∃ (s : State), (s.board.commit.state = 1) ∧ (commitFaults s = [])) ∧
    (∃ (s : State), (s.board.commit.state = 1) ∧ (commitFaults s ≠ []) ∧ (s.board.commit.fromRing = false)) ∧
    (∃ (s : State), (s.board.commit.state = 2) ∧ (s.board.commit.fromRing = false)) ∧
    (∃ (s : State), (s.board.commit.state ≠ 2)) ∧
    (∃ (s : State), (sidebandOn s = true)) ∧
    (∃ (s : State), (sidebandOn s = false)) :=
  ⟨⟨opRuns 1 run, by decide +kernel⟩,
   ⟨commitIn 1 false (opRuns 1 run), by decide +kernel⟩,
   ⟨List.replicate 512 0, opRuns 2 run, by decide +kernel, by decide +kernel, by decide +kernel, by decide +kernel, .none,
    by decide +kernel⟩,
   ⟨[3], opRuns 2 run, by decide +kernel⟩,
   ⟨opRuns 3 run, by decide +kernel⟩,
   ⟨netifData 8 1, opRuns 4 run, by decide +kernel⟩,
   ⟨netifData 7 1, { opRuns 4 run with reg := { run.reg with netifs := [{ parseNetIf (netifData 7 1) with index := 1 }] } },
    by decide +kernel⟩,
   ⟨netifData 7 1,
    { opRuns 4 run with reg := { run.reg with netifs := [{ parseNetIf (netifData 7 1) with index := 1, vlan := 1 }] } },
    by decide +kernel⟩,
   ⟨0, opRuns 5 run, by decide +kernel⟩,
   ⟨opRuns 6 run, by decide +kernel⟩,
   ⟨run, by decide +kernel⟩,
   ⟨commitIn 1 false run, by decide +kernel⟩,
   ⟨commitIn 1 false run, by decide +kernel⟩,
   ⟨{ run with board := { run.board with commit := { run.board.commit with state := 1, snapshot := [{ win := 8, idx := 0, fld := .plp_thresh_warn_mv, val := 0 }] } } },
    by decide +kernel⟩,
   ⟨commitIn 2 false run, by decide +kernel⟩,
   ⟨commitIn 1 false run, by decide +kernel⟩,
   ⟨setFlds [(8, 0, .glb_sideband_sb_enable, 1)] run, by decide +kernel⟩,
   ⟨setFlds [(8, 0, .glb_sideband_sb_enable, 0)] run, by decide +kernel⟩⟩

theorem test_witness_HostPorts :
    (∃ (t p rate width : Nat) (narrow : Bool) (k : Port) (s : State), (findPort s t = some k) ∧ (linkMayRise s t p rate width = true)) ∧
    (∃ (t p rate width : Nat) (narrow : Bool) (s : State), (linkMayRise s t p rate width = false)) ∧
    (∃ (t p : Nat) (k : Port) (s : State), (findPort s t = some k) ∧ (p ∈ k.linkUp) ∧ (isPcie k.mode = false)) ∧
    (∃ (t p : Nat) (k : Port) (s : State), (findPort s t = some k) ∧ (p ∈ k.linkUp) ∧ (isPcie k.mode = true) ∧ ((k.mode = 5 → t <
      partnerOf s t))) ∧
    (∃ (t : Nat) (k : Port) (s : State), (findPort s t = some k) ∧ (k.recon = 2) ∧ (((∀ c, c ∈ s.host.cmds → drains s t c = false) ∨
      k.reconAt + 1000 * s.tfld t .glb_port_cfg_drain_time ≤ s.nowMs))) ∧
    (∃ (t : Nat) (k : Port) (s : State), (findPort s t = some k) ∧ (k.recon = 2) ∧ ((∃ c, c ∈ s.host.cmds ∧ drains s t c = true)) ∧
      (s.nowMs < k.reconAt + 1000 * s.tfld t .glb_port_cfg_drain_time)) ∧
    (∃ (t : Nat) (k : Port) (s : State), (findPort s t = some k) ∧ (k.recon = 3) ∧ (k.reconAt + 1 ≤ s.nowMs)) ∧
    (∃ (t : Nat) (k : Port) (s : State), (findPort s t = some k) ∧ (k.recon ≠ 3 ∨ s.nowMs < k.reconAt + 1)) ∧
    (∃ (t p vlan : Nat) (target data : Bytes) (s : State), ((portUp s t p = true ∧ ∃ n, n ∈ s.reg.netifs ∧ n.tile = t ∧ n.port = p ∧
      n.vlan = vlan ∧ n.has target = true))) ∧
    (∃ (t p vlan : Nat) (target data : Bytes) (s : State), (portUp s t p = false)) ∧
    (∃ (t p i quanta : Nat) (k : Port) (s : State), (findPort s t = some k) ∧ (portUp s t p = true) ∧ (i ≤ 7)) :=
  ⟨⟨0, 0, 6, 4, false, portOf 4 [], ported 4 [] run, by decide +kernel⟩,
   ⟨0, 0, 7, 4, false, ported 4 [] run, by decide +kernel⟩,
   ⟨0, 0, portOf 1 [0], ported 1 [0] run, by decide +kernel⟩,
   ⟨0, 0, portOf 4 [0], ported 4 [0] run, by decide +kernel⟩,
   ⟨0, { portOf 1 [] with recon := 2 }, reconIn 2 0 [] run, by decide +kernel⟩,
   ⟨0, { portOf 1 [] with recon := 2 }, setFlds [(0, 0, .glb_port_cfg_drain_time, 1)] (reconIn 2 999 [cmdOf 1 1 .read .reading] run),
    by decide +kernel⟩,
   ⟨0, { portOf 1 [] with recon := 3 }, reconIn 3 1 [] run, by decide +kernel⟩,
   ⟨0, { portOf 1 [] with recon := 3 }, reconIn 3 0 [] run, by decide +kernel⟩,
   ⟨0, 0, 5, [1, 2, 3, 4], [], withNet (ported 1 [0] run), by decide +kernel⟩,
   ⟨0, 1, 5, [1, 2, 3, 4], [7], withNet (ported 1 [0] run), by decide +kernel⟩,
   ⟨0, 0, 7, 5, portOf 1 [0], ported 1 [0] run, by decide +kernel⟩⟩

theorem test_witness_HostConnections :
    (∃ (t p i dport mtu hpda : Nat) (hd dd : Bool) (n : NetIf) (s : State), (portUp s t p = true) ∧ (findIf s t p i = some n) ∧
      (s.tfld t .qe_cfg_qe_enable ≠ 0) ∧ (n.takesIo dport = true)) ∧
    (∃ (t p i dport mtu hpda : Nat) (hd dd : Bool) (n : NetIf) (s : State), (portUp s t p = true) ∧ (findIf s t p i = some n) ∧
      (s.tfld t .qe_cfg_qe_enable ≠ 0) ∧ (n.takesIo dport = false) ∧ (n.takesDisc dport = true)) ∧
    (∃ (t p i dport mtu hpda : Nat) (hd dd : Bool) (n : NetIf) (s : State), (portUp s t p = true) ∧ (findIf s t p i = some n) ∧
      (s.tfld t .qe_cfg_qe_enable = 0 ∨ (n.takesIo dport = false ∧ n.takesDisc dport = false))) ∧
    (∃ (t p i dport mtu hpda : Nat) (hd dd : Bool) (n : NetIf) (s : State), (portUp s t p = true) ∧ (findIf s t p i = some n) ∧
      (s.tfld t .qe_cfg_qe_enable ≠ 0) ∧ (bitOf n.flags 4 = true) ∧ (mtu ∈ [1024, 2048, 4096])) ∧
    (∃ (t p i dport mtu hpda : Nat) (hd dd : Bool) (n : NetIf) (s : State), (portUp s t p = true) ∧ (findIf s t p i = some n) ∧
      (s.tfld t .qe_cfg_qe_enable = 0 ∨ bitOf n.flags 4 = false ∨ mtu ∉ [1024, 2048, 4096])) ∧
    (∃ (k : Conn) (s : State), (k.id = s.host.nextConn) ∧ ((∀ c ∈ s.host.conns, c.id ≠ k.id))) ∧
    (∃ (t p i dport mtu hpda : Nat) (hd dd : Bool) (s : State), (portUp s t p = false ∨ findIf s t p i = none)) ∧
    (∃ (id : Nat) (d : ConnectData) (k : Conn) (s : State), (liveConn s id = some k) ∧ (AdmRuns .queueEngine (.conn id) s) ∧ (k.bound
      = true ∨ s.tfld k.tile .qe_cfg_qe_enable = 0)) ∧
    (∃ (id : Nat) (d : ConnectData) (k : Conn) (s : State), (liveConn s id = some k) ∧ (AdmRuns .queueEngine (.conn id) s) ∧ (k.bound
      = false) ∧ (s.tfld k.tile .qe_cfg_qe_enable ≠ 0) ∧ (reconfiguring s k.tile = true)) ∧
    (∃ (id : Nat) (d : ConnectData) (k : Conn) (s : State), (liveConn s id = some k) ∧ (AdmRuns .queueEngine (.conn id) s) ∧ (k.bound
      = false) ∧ (s.tfld k.tile .qe_cfg_qe_enable ≠ 0) ∧ (reconfiguring s k.tile = false) ∧ (k.discovery = true)) ∧
    (∃ (id : Nat) (d : ConnectData) (k : Conn) (s : State), (liveConn s id = some k) ∧ (AdmRuns .queueEngine (.conn id) s) ∧ (k.bound
      = false) ∧ (s.tfld k.tile .qe_cfg_qe_enable ≠ 0) ∧ (reconfiguring s k.tile = false) ∧ (k.discovery = false) ∧ (d.qid = 0) ∧
      (d.sqsize ≤ 31) ∧
        (let prov := designated s (.nqn d.hostNqn) k.tile; (prov = false) ∧ (identTenant s (.nqn d.hostNqn) = none))) ∧
    (∃ (id : Nat) (d : ConnectData) (k : Conn) (s : State), (liveConn s id = some k) ∧ (AdmRuns .queueEngine (.conn id) s) ∧ (k.bound
      = false) ∧ (s.tfld k.tile .qe_cfg_qe_enable ≠ 0) ∧ (reconfiguring s k.tile = false) ∧ (k.discovery = false) ∧ (d.qid = 0) ∧
      (d.sqsize ≤ 31) ∧
        (let prov := designated s (.nqn d.hostNqn) k.tile; (prov = true) ∧ (providerExists s = true))) ∧
    (∃ (id : Nat) (d : ConnectData) (k : Conn) (s : State), (liveConn s id = some k) ∧ (AdmRuns .queueEngine (.conn id) s) ∧ (k.bound
      = false) ∧ (s.tfld k.tile .qe_cfg_qe_enable ≠ 0) ∧ (reconfiguring s k.tile = false) ∧ (k.discovery = false) ∧ (d.qid = 0) ∧
      (d.sqsize ≤ 31) ∧
        (let prov := designated s (.nqn d.hostNqn) k.tile; ∃ cid, ((prov = true → providerExists s = false)) ∧ ((prov = false → (identTenant s (.nqn d.hostNqn)).isSome = true)) ∧ (freeCntlid s k.tile = some cid) ∧ (qpFree s k.tile ≠ 0))) ∧
    (∃ (id : Nat) (d : ConnectData) (k : Conn) (s : State), (liveConn s id = some k) ∧ (AdmRuns .queueEngine (.conn id) s) ∧ (k.bound
      = false) ∧ (s.tfld k.tile .qe_cfg_qe_enable ≠ 0) ∧ (reconfiguring s k.tile = false) ∧ (k.discovery = false) ∧ (d.qid = 0) ∧
      (d.sqsize ≤ 31) ∧
        (let prov := designated s (.nqn d.hostNqn) k.tile; (freeCntlid s k.tile = none ∨ qpFree s k.tile = 0) ∧ ((prov = true → providerExists s = false)) ∧ ((prov = false → (identTenant s (.nqn d.hostNqn)).isSome = true)))) ∧
    (∃ (id : Nat) (d : ConnectData) (k : Conn) (s : State), (liveConn s id = some k) ∧ (AdmRuns .queueEngine (.conn id) s) ∧ (k.bound
      = false) ∧ (s.tfld k.tile .qe_cfg_qe_enable ≠ 0) ∧ (reconfiguring s k.tile = false) ∧ (k.discovery = false) ∧ (d.qid = 0) ∧
      (31 < d.sqsize)) ∧
    (∃ (id : Nat) (d : ConnectData) (k : Conn) (s : State), (liveConn s id = some k) ∧ (AdmRuns .queueEngine (.conn id) s) ∧ (k.bound
      = false) ∧ (s.tfld k.tile .qe_cfg_qe_enable ≠ 0) ∧ (reconfiguring s k.tile = false) ∧ ∃ c, (k.discovery = false) ∧ (d.qid ≠
      0) ∧ (findCtrl s d.cntlid = some c) ∧ (c.ident = .nqn d.hostNqn) ∧ (c.tile = k.tile) ∧ (d.qid ≤ c.grant.getD 0) ∧ (findSq s
      d.cntlid d.qid = none) ∧ (d.sqsize ≤ 1023)) ∧
    (∃ (id : Nat) (d : ConnectData) (k : Conn) (s : State), (liveConn s id = some k) ∧ (AdmRuns .queueEngine (.conn id) s) ∧ (k.bound
      = false) ∧ (s.tfld k.tile .qe_cfg_qe_enable ≠ 0) ∧ (reconfiguring s k.tile = false) ∧ ∃ c, (k.discovery = false) ∧ (d.qid ≠
      0) ∧ (findCtrl s d.cntlid = some c) ∧ (c.ident = .nqn d.hostNqn) ∧ (c.tile = k.tile) ∧ (d.qid ≤ c.grant.getD 0) ∧ (findSq s
      d.cntlid d.qid = none) ∧ (1023 < d.sqsize)) ∧
    (∃ (id : Nat) (d : ConnectData) (k : Conn) (s : State), (liveConn s id = some k) ∧ (AdmRuns .queueEngine (.conn id) s) ∧ (k.bound
      = false) ∧ (s.tfld k.tile .qe_cfg_qe_enable ≠ 0) ∧ (reconfiguring s k.tile = false) ∧ ∃ c, (k.discovery = false) ∧ (d.qid ≠
      0) ∧ (findCtrl s d.cntlid = some c) ∧ (c.ident = .nqn d.hostNqn) ∧ (c.tile = k.tile) ∧ (c.grant.getD 0 < d.qid)) ∧
    (∃ (id cntlid sqid : Nat) (n : Bytes) (k : Conn) (s : State), (findConn s id = some k)) ∧
    (∃ (id cntlid sqid : Nat) (n : Bytes) (k : Conn) (s : State), (findConn s id = some k) ∧ ∃ x, (x ≠ id)) ∧
    (∃ (id : Nat) (d : ConnectData) (s : State), (liveConn s id = none) ∧ (AdmRuns .queueEngine (.conn id) s)) ∧
    (∃ (id : Nat) (k : Conn) (s : State), (findConn s id = some k)) ∧
    (∃ (id : Nat) (s : State), (findConn s id = none)) :=
  ⟨⟨0, 0, 15, 4420, 4096, 31, true, true, netAt 63, withIf (netAt 63) (ported 1 [0] (enabled [.qe_cfg_qe_enable] run)),
    by decide +kernel⟩,
   ⟨0, 0, 15, 8009, 4096, 0, false, true, netAt 63, withIf (netAt 63) (ported 1 [0] (enabled [.qe_cfg_qe_enable] run)),
    by decide +kernel⟩,
   ⟨0, 0, 15, 5, 4096, 0, false, true, netAt 63, withIf (netAt 63) (ported 1 [0] (enabled [.qe_cfg_qe_enable] run)),
    by decide +kernel⟩,
   ⟨0, 0, 15, 4420, 4096, 31, true, true, netAt 63, withIf (netAt 63) (ported 1 [0] (enabled [.qe_cfg_qe_enable] run)),
    by decide +kernel⟩,
   ⟨0, 0, 15, 4420, 4097, 31, true, true, netAt 63, withIf (netAt 63) (ported 1 [0] (enabled [.qe_cfg_qe_enable] run)),
    by decide +kernel⟩,
   ⟨{ connAt 1 false false with id := run.host.nextConn }, run, by decide +kernel⟩,
   ⟨0, 0, 15, 4420, 4096, 31, true, true, ported 1 [0] run, by decide +kernel⟩,
   ⟨1, dataOf 0 31 0xFFFF, connAt 1 false false, connReady (connAt 1 false false), by unfold AdmRuns; decide +kernel⟩,
   ⟨1, dataOf 0 31 0xFFFF, connAt 1 false false, withPorts [{ portOf 1 [0] with recon := 5 }] (connOn (connAt 1 false false)),
    by unfold AdmRuns; decide +kernel⟩,
   ⟨1, dataOf 0 31 0xFFFF, connAt 1 true false, connOn (connAt 1 true false), by unfold AdmRuns; decide +kernel⟩,
   ⟨1, dataOf 0 31 0xFFFF, connAt 1 false false, connOn (connAt 1 false false), by unfold AdmRuns; decide +kernel⟩,
   ⟨1, dataOf 0 31 0xFFFF, connAt 1 false false, withCtrls [ctrlOf 1]
    { connOn (connAt 1 false false) with reg := { run.reg with provider := .nqn [0x61] 1 } }, by unfold AdmRuns; decide +kernel⟩,
   ⟨1, dataOf 0 31 0xFFFF, connAt 1 false false, withTenant (.nqn [0x61]) (connOn (connAt 1 false false)), by decide +kernel,
    by unfold AdmRuns; decide +kernel, by decide +kernel, by decide +kernel, by decide +kernel, by decide +kernel,
    by decide +kernel, by decide +kernel, 1, by decide +kernel, by decide +kernel, by decide +kernel, by decide +kernel⟩,
   ⟨1, dataOf 0 31 0xFFFF, connAt 1 false false, withCtrls [fullCtrl] (withTenant (.nqn [0x61]) (connOn (connAt 1 false false))),
    by unfold AdmRuns; decide +kernel⟩,
   ⟨1, dataOf 0 32 0xFFFF, connAt 1 false false, connOn (connAt 1 false false), by unfold AdmRuns; decide +kernel⟩,
   ⟨1, dataOf 2 1023 1, connAt 1 false false, withCtrls [{ ctrlOf 1 with grant := some 2 }] (connOn (connAt 1 false false)),
    by decide +kernel, by unfold AdmRuns; decide +kernel, by decide +kernel, by decide +kernel, by decide +kernel,
    { ctrlOf 1 with grant := some 2 }, by decide +kernel, by decide +kernel, by decide +kernel, by decide +kernel,
    by decide +kernel, by decide +kernel, by decide +kernel, by decide +kernel⟩,
   ⟨1, dataOf 2 1024 1, connAt 1 false false, withCtrls [{ ctrlOf 1 with grant := some 2 }] (connOn (connAt 1 false false)),
    by decide +kernel, by unfold AdmRuns; decide +kernel, by decide +kernel, by decide +kernel, by decide +kernel,
    { ctrlOf 1 with grant := some 2 }, by decide +kernel, by decide +kernel, by decide +kernel, by decide +kernel,
    by decide +kernel, by decide +kernel, by decide +kernel, by decide +kernel⟩,
   ⟨1, dataOf 3 1023 1, connAt 1 false false, withCtrls [{ ctrlOf 1 with grant := some 2 }] (connOn (connAt 1 false false)),
    by decide +kernel, by unfold AdmRuns; decide +kernel, by decide +kernel, by decide +kernel, by decide +kernel,
    { ctrlOf 1 with grant := some 2 }, by decide +kernel, by decide +kernel, by decide +kernel, by decide +kernel,
    by decide +kernel, by decide +kernel⟩,
   ⟨1, 7, 2, [5], connAt 1 false false, connReady (connAt 1 false false), by decide +kernel⟩,
   ⟨1, 7, 2, [5], connAt 1 false false, connReady (connAt 1 false false), by decide +kernel, 2, by decide +kernel⟩,
   ⟨1, dataOf 0 31 0xFFFF, withConn (connAt 1 false false) run, by unfold AdmRuns; decide +kernel⟩,
   ⟨1, connAt 1 false true, connReady (connAt 1 false true), by decide +kernel⟩,
   ⟨1, run, by decide +kernel⟩⟩

theorem test_witness_CapsulesAndHostData :
    (∃ (id : Nat) (cap : Capsule) (k : Conn) (q : Sq) (s : State), (liveConn s id = some k) ∧ (k.bound = true) ∧ (k.discovery = false)
      ∧ (findSq s k.cntlid k.sqid = some q) ∧ (badHeader k cap = false) ∧ (64 ≤ cap.bytes) ∧ (q.recv.length < q.size)) ∧
    (∃ (id : Nat) (cap : Capsule) (k : Conn) (q : Sq) (s : State), (liveConn s id = some k) ∧ (k.bound = true) ∧ (k.discovery = false)
      ∧ (findSq s k.cntlid k.sqid = some q) ∧ (badHeader k cap = true ∨ cap.bytes < 64 ∨ q.size ≤ q.recv.length)) ∧
    (∃ (id : Nat) (cap : Capsule) (s : State), (liveConn s id = none)) ∧
    (∃ (id : Nat) (cap : Capsule) (k : Conn) (s : State), (liveConn s id = some k) ∧ (k.bound = false ∨ k.discovery = true)) ∧
    (∃ (conn cmd off : Nat) (d : Bytes) (h dd : Bool) (k : Conn) (c : Cmd) (s : State), (liveConn s conn = some k) ∧ (findCmd s cmd =
      some c) ∧ (c.cntlid = k.cntlid) ∧ (c.sqid = k.sqid) ∧ (c.phase = .dataFetch) ∧ (c.id = cmd) ∧ (k.hdgst = false ∨ h = true) ∧
      (cmd ∉ k.failed) ∧ (off = c.data.length) ∧ (d.length ≤ 131072) ∧ (k.ddgst = false ∨ dd = true) ∧ (off + d.length < dataLen
      c.cap)) ∧
    (∃ (conn cmd off : Nat) (d : Bytes) (h dd : Bool) (k : Conn) (c : Cmd) (s : State), (liveConn s conn = some k) ∧ (findCmd s cmd =
      some c) ∧ (c.cntlid = k.cntlid) ∧ (c.sqid = k.sqid) ∧ (c.phase = .dataFetch) ∧ (c.id = cmd) ∧ (k.hdgst = false ∨ h = true) ∧
      (cmd ∉ k.failed) ∧ (off = c.data.length) ∧ (d.length ≤ 131072) ∧ (k.ddgst = false ∨ dd = true) ∧ (off + d.length = dataLen
      c.cap)) ∧
    (∃ (conn cmd off : Nat) (d : Bytes) (h dd : Bool) (k : Conn) (c : Cmd) (s : State), (liveConn s conn = some k) ∧ (findCmd s cmd =
      some c) ∧ (c.cntlid = k.cntlid) ∧ (c.sqid = k.sqid) ∧ (c.phase = .dataFetch) ∧ (c.id = cmd) ∧ (k.hdgst = false ∨ h = true) ∧
      (cmd ∉ k.failed) ∧ (off = c.data.length) ∧ (d.length ≤ 131072) ∧ (k.ddgst = true) ∧ (dd = false) ∧ (off + d.length ≤ dataLen
      c.cap)) ∧
    (∃ (conn cmd off : Nat) (d : Bytes) (h dd : Bool) (k : Conn) (c : Cmd) (s : State), (liveConn s conn = some k) ∧ (findCmd s cmd =
      some c) ∧ (c.cntlid = k.cntlid) ∧ (c.sqid = k.sqid) ∧ (c.phase = .dataFetch) ∧ (c.id = cmd) ∧ (k.hdgst = false ∨ h = true) ∧
      (cmd ∈ k.failed)) ∧
    (∃ (conn cmd off : Nat) (d : Bytes) (h dd : Bool) (k : Conn) (c : Cmd) (s : State), (liveConn s conn = some k) ∧ (findCmd s cmd =
      some c) ∧ (c.cntlid = k.cntlid) ∧ (c.sqid = k.sqid) ∧ (c.phase = .dataFetch) ∧ (c.id = cmd) ∧ ((k.hdgst = true ∧ h = false)
      ∨ (cmd ∉ k.failed ∧ (off ≠ c.data.length ∨ dataLen c.cap < off + d.length ∨ 131072 < d.length)))) ∧
    (∃ (conn cmd off : Nat) (d : Bytes) (h dd : Bool) (s : State), (liveConn s conn = none)) ∧
    (∃ (cmd : Nat) (d : Bytes) (k : Conn) (c : Cmd) (s : State), (findCmd s cmd = some c) ∧ (c.id = cmd) ∧ (c.phase = .dataFetch) ∧
      (connOf s c = some k) ∧ (c.data.length + d.length < dataLen c.cap)) ∧
    (∃ (cmd : Nat) (d : Bytes) (k : Conn) (c : Cmd) (s : State), (findCmd s cmd = some c) ∧ (c.id = cmd) ∧ (c.phase = .dataFetch) ∧
      (connOf s c = some k) ∧ (c.data.length + d.length = dataLen c.cap)) ∧
    (∃ (cmd : Nat) (d : Bytes) (k : Conn) (c : Cmd) (s : State), (findCmd s cmd = some c) ∧ (c.id = cmd) ∧ (c.phase = .dataFetch) ∧
      (connOf s c = some k)) ∧
    (∃ (cmd : Nat) (d : Bytes) (r : HostRead) (c : Cmd) (s : State), (findCmd s cmd = some c) ∧ (c.id = cmd) ∧ (c.phase = .dataFetch)
      ∧ (c.data.length + d.length < dataLen c.cap)) ∧
    (∃ (cmd : Nat) (d : Bytes) (r : HostRead) (c : Cmd) (s : State), (findCmd s cmd = some c) ∧ (c.id = cmd) ∧ (c.phase = .dataFetch)
      ∧ (c.data.length + d.length = dataLen c.cap)) ∧
    (∃ (cmd : Nat) (d : Bytes) (r : HostRead) (c : Cmd) (s : State), (findCmd s cmd = some c) ∧ (c.id = cmd) ∧ (c.phase = .dataFetch)
      ∧ ((∀ x, r ≠ .data x))) ∧
    (∃ (cmd : Nat) (ok : Bool) (d : Bytes) (r : HostRead) (s : State), ((∀ c, findCmd s cmd = some c → c.phase ≠ .dataFetch))) :=
  ⟨⟨1, capAt .read 1 0 1, ioConn, sqOf 1 1, bound [], by decide +kernel⟩,
   ⟨1, { capAt .read 1 0 1 with bytes := 63 }, ioConn, sqOf 1 1, bound [], by decide +kernel⟩,
   ⟨1, capAt .read 1 0 1, run, by decide +kernel⟩,
   ⟨1, capAt .read 1 0 1, connAt 1 false false, connReady (connAt 1 false false), by decide +kernel⟩,
   ⟨1, 1, 0, [1], true, true, ioConn, fetching .write 1 [], bound [fetching .write 1 []], by decide +kernel⟩,
   ⟨1, 1, 0, [], true, true, ioConn, fetching .flush 0 [], bound [fetching .flush 0 []], by decide +kernel⟩,
   ⟨1, 1, 0, [1], true, false, { ioConn with ddgst := true }, fetching .write 1 [], boundBy { ioConn with ddgst := true } [fetching
    .write 1 []], by decide +kernel⟩,
   ⟨1, 1, 0, [1], true, true, { ioConn with failed := [1] }, fetching .write 1 [], boundBy { ioConn with failed := [1] } [fetching
    .write 1 []], by decide +kernel⟩,
   ⟨1, 1, 1, [1], true, true, ioConn, fetching .write 1 [], bound [fetching .write 1 []], by decide +kernel⟩,
   ⟨1, 1, 1, [1], true, true, run, by decide +kernel⟩,
   ⟨1, [1], ioConn, fetching .write 1 [], bound [fetching .write 1 []], by decide +kernel⟩,
   ⟨1, [], ioConn, fetching .flush 0 [], bound [fetching .flush 0 []], by decide +kernel⟩,
   ⟨1, [1], ioConn, fetching .write 1 [], bound [fetching .write 1 []], by decide +kernel⟩,
   ⟨1, [1], .poisoned, fetching .write 1 [], bound [fetching .write 1 []], by decide +kernel⟩,
   ⟨1, [], .poisoned, fetching .flush 0 [], bound [fetching .flush 0 []], by decide +kernel⟩,
   ⟨1, [1], .poisoned, fetching .write 1 [], bound [fetching .write 1 []], ⟨by decide +kernel, by decide +kernel, by decide +kernel,
    fun _ h => by cases h⟩⟩,
   ⟨1, true, [1], .poisoned, run, fun k h => by cases h⟩⟩

theorem test_witness_ControllerLife :
    (∃ (e fn asqs acqs asq acq id : Nat) (cc : CcFields) (p : Port) (s : State), (findPort s e = some p) ∧ ((p.mode = 4 ∨ (p.mode = 5
      ∧ e < partnerOf s e))) ∧ (p.linkUp ≠ []) ∧ (fn ≤ 63) ∧ (cc.ams ≤ 1) ∧ (cc.en = true) ∧ (s.tfld e .qe_cfg_qe_enable ≠ 0) ∧
      (p.recon = 0) ∧ ((∀ c, c ∈ s.host.ctrls → c.ident ≠ .function e fn)) ∧ (freeCntlid s e = some id) ∧ (qpFree s e ≠ 0)) ∧
    (∃ (e fn asqs acqs asq acq id : Nat) (cc : CcFields) (p : Port) (s : State), (findPort s e = some p) ∧ ((p.mode = 4 ∨ (p.mode = 5
      ∧ e < partnerOf s e))) ∧ (p.linkUp ≠ []) ∧ (fn ≤ 63) ∧ (cc.ams ≤ 1) ∧ (cc.en = true) ∧ (s.tfld e .qe_cfg_qe_enable ≠ 0) ∧
      (p.recon = 0) ∧ ((∀ c, c ∈ s.host.ctrls → c.ident ≠ .function e fn)) ∧ (freeCntlid s e = none ∨ qpFree s e = 0)) ∧
    (∃ (e fn asqs acqs asq acq : Nat) (cc : CcFields) (p : Port) (c : Ctrl) (s : State), (findPort s e = some p) ∧ ((p.mode = 4 ∨
      (p.mode = 5 ∧ e < partnerOf s e))) ∧ (p.linkUp ≠ []) ∧ (fn ≤ 63) ∧ (cc.ams ≤ 1) ∧ (cc.en = true) ∧ (s.tfld e
      .qe_cfg_qe_enable ≠ 0) ∧ (p.recon = 0) ∧ ((s.host.ctrls.find? fun c => c.ident == .function e fn) = some c) ∧ (findCtrl s
      c.cntlid = some c) ∧ (c.enabled = false)) ∧
    (∃ (e fn asqs acqs asq acq : Nat) (cc : CcFields) (s : State), (1 < cc.ams ∨ cc.en = false ∨ s.tfld e .qe_cfg_qe_enable = 0 ∨ 63 <
      fn)) ∧
    (∃ (id : Nat) (c : Ctrl) (s : State), (findCtrl s id = some c) ∧ (c.enabled = true)) ∧
    (∃ (id : Nat) (c : Ctrl) (s : State), (findCtrl s id = some c) ∧ (c.enabled = false)) ∧
    (∃ (id : Nat) (abrupt : Bool) (c : Ctrl) (s : State), (findCtrl s id = some c) ∧ (c.enabled = true)) ∧
    (∃ (id : Nat) (abrupt : Bool) (c : Ctrl) (s : State), (findCtrl s id = some c) ∧ (c.enabled = false)) ∧
    (∃ (id : Nat) (abrupt : Bool) (s : State), (findCtrl s id = none)) ∧
    (∃ (id : Nat) (n : Bytes) (c : Ctrl) (s : State), (findCtrl s id = some c) ∧ (c.ident = .nqn n) ∧ (c.kaDeadline ≤ s.nowMs)) ∧
    (∃ (id : Nat) (n : Bytes) (c : Ctrl) (s : State), (findCtrl s id = some c) ∧ (c.ident = .nqn n) ∧ (s.nowMs < c.kaDeadline)) :=
  ⟨⟨0, 63, 31, 7, 4096, 8192, 1, { en := true, ams := 1, shn := 0 }, portOf 4 [0], enabled [.qe_cfg_qe_enable] (ported 4 [0] run),
    by decide +kernel⟩,
   ⟨0, 63, 4095, 7, 4096, 8192, 1, { en := true, ams := 1, shn := 0 }, portOf 4 [0], withCtrls [fullCtrl] (enabled
    [.qe_cfg_qe_enable] (ported 4 [0] run)), by decide +kernel⟩,
   ⟨0, 63, 4095, 7, 4096, 8192, { en := true, ams := 1, shn := 0 }, portOf 4 [0], fnCtrl, withCtrls [fnCtrl] (enabled
    [.qe_cfg_qe_enable] (ported 4 [0] run)), by decide +kernel⟩,
   ⟨0, 64, 4095, 7, 4096, 8192, { en := true, ams := 1, shn := 0 }, run, by decide +kernel⟩,
   ⟨1, ctrlOf 1, ctrled [cmdOf 1 1 .read .reading] run, by decide +kernel⟩,
   ⟨1, fnCtrl, withCtrls [fnCtrl] run, by decide +kernel⟩,
   ⟨1, false, ctrlOf 1, ctrled [cmdOf 1 1 .read .reading] run, by decide +kernel⟩,
   ⟨1, false, fnCtrl, withCtrls [fnCtrl] run, by decide +kernel⟩,
   ⟨1, false, run, by decide +kernel⟩,
   ⟨1, [0x61], { ctrlOf 1 with kato := 5, kaDeadline := 5 },
    { withCtrls [{ ctrlOf 1 with kato := 5, kaDeadline := 5 }] run with nowMs := 5 }, by decide +kernel⟩,
   ⟨1, [0x61], { ctrlOf 1 with kato := 5, kaDeadline := 5 },
    { withCtrls [{ ctrlOf 1 with kato := 5, kaDeadline := 5 }] run with nowMs := 4 }, by decide +kernel⟩⟩

theorem test_witness_FabricsCommands :
    (∃ (a : Adm) (n : Bytes) (c : Ctrl) (s : State), (AdmRuns .queueEngine a s) ∧ (admCtrl s a = some c) ∧ (c.ident = .nqn n)) ∧
    (∃ (a : Adm) (n : Bytes) (c : Ctrl) (s : State), (AdmRuns .queueEngine a s) ∧ (admCtrl s a = some c) ∧ (c.ident = .nqn n) ∧ ∃ off,
      (off ≠ 0) ∧ (off ≠ 8) ∧ (off ≠ 0x14) ∧ (off ≠ 0x1C)) ∧
    (∃ (a : Adm) (n : Bytes) (c : Ctrl) (s : State), (AdmRuns .queueEngine a s) ∧ (admCtrl s a = some c) ∧ (c.ident = .nqn n) ∧ ∃ off
      v, (off ≠ 0x14 ∨ 1 < bitsOf v 13 11)) ∧
    (∃ (a : Adm) (n : Bytes) (c : Ctrl) (s : State), (AdmRuns .queueEngine a s) ∧ (admCtrl s a = some c) ∧ (c.ident = .nqn n) ∧ ∃ v,
      (bitsOf v 13 11 ≤ 1) ∧ (findCtrl s c.cntlid = some c) ∧ (bitOf v 0 = true) ∧ (c.enabled = false)) ∧
    (∃ (a : Adm) (n : Bytes) (c : Ctrl) (s : State), (AdmRuns .queueEngine a s) ∧ (admCtrl s a = some c) ∧ (c.ident = .nqn n) ∧ ∃ v,
      (bitsOf v 13 11 ≤ 1) ∧ (findCtrl s c.cntlid = some c) ∧ (bitOf v 0 = false) ∧ (c.enabled = true)) ∧
    (∃ (a : Adm) (n : Bytes) (c : Ctrl) (s : State), (AdmRuns .queueEngine a s) ∧ (admCtrl s a = some c) ∧ (c.ident = .nqn n) ∧ ∃ v,
      (bitsOf v 13 11 ≤ 1) ∧ (findCtrl s c.cntlid = some c) ∧ (bitOf v 0 = true) ∧ (c.enabled = true) ∧ (bitsOf v 15 14 ≠ 0)) ∧
    (∃ (a : Adm) (n : Bytes) (c : Ctrl) (s : State), (AdmRuns .queueEngine a s) ∧ (admCtrl s a = some c) ∧ (c.ident = .nqn n) ∧ ∃ v,
      (bitsOf v 13 11 ≤ 1) ∧ (findCtrl s c.cntlid = some c) ∧ (bitOf v 0 = c.enabled) ∧ (bitOf v 0 = false ∨ bitsOf v 15 14 = 0)) ∧
    (∃ (a : Adm) (n : Bytes) (c : Ctrl) (s : State), (AdmRuns .queueEngine a s) ∧ (admCtrl s a = some c) ∧ (c.ident = .nqn n) ∧ ∃ qid
      q, (findSq s c.cntlid qid = some q)) ∧
    (∃ (a : Adm) (n : Bytes) (c : Ctrl) (s : State), (AdmRuns .queueEngine a s) ∧ (admCtrl s a = some c) ∧ (c.ident = .nqn n) ∧ ∃ qid,
      (findSq s c.cntlid qid = none)) ∧
    (∃ (a : Adm) (n : Bytes) (c : Ctrl) (s : State), (AdmRuns .atOnce a s) ∧ (admCtrl s a = some c) ∧ (c.ident = .nqn n)) ∧
    (∃ (a : Adm) (s : State), (AdmRuns .queueEngine a s) ∧ ((admCtrl s a = none ∨ ∃ c e f, admCtrl s a = some c ∧ c.ident = .function
      e f))) :=
  ⟨⟨.host 1, [0x61], ctrlOf 1, adminRuns, by unfold AdmRuns; decide +kernel⟩,
   ⟨.host 1, [0x61], ctrlOf 1, adminRuns, by unfold AdmRuns; decide +kernel, by decide +kernel, by decide +kernel, 4,
    by decide +kernel, by decide +kernel, by decide +kernel, by decide +kernel⟩,
   ⟨.host 1, [0x61], ctrlOf 1, adminRuns, by unfold AdmRuns; decide +kernel, by decide +kernel, by decide +kernel, 0x14, 0x1000,
    by decide +kernel⟩,
   ⟨.host 1, [0x61], { ctrlOf 1 with enabled := false }, adminRunsBy { ctrlOf 1 with enabled := false },
    by unfold AdmRuns; decide +kernel, by decide +kernel, by decide +kernel, 1, by decide +kernel, by decide +kernel,
    by decide +kernel, by decide +kernel⟩,
   ⟨.host 1, [0x61], ctrlOf 1, adminRuns, by unfold AdmRuns; decide +kernel, by decide +kernel, by decide +kernel, 0,
    by decide +kernel, by decide +kernel, by decide +kernel, by decide +kernel⟩,
   ⟨.host 1, [0x61], ctrlOf 1, adminRuns, by unfold AdmRuns; decide +kernel, by decide +kernel, by decide +kernel, 0x4001,
    by decide +kernel, by decide +kernel, by decide +kernel, by decide +kernel, by decide +kernel⟩,
   ⟨.host 1, [0x61], ctrlOf 1, adminRuns, by unfold AdmRuns; decide +kernel, by decide +kernel, by decide +kernel, 1,
    by decide +kernel, by decide +kernel, by decide +kernel, by decide +kernel⟩,
   ⟨.host 1, [0x61], ctrlOf 1, adminRuns, by unfold AdmRuns; decide +kernel, by decide +kernel, by decide +kernel, 1, sqOf 1 1,
    by decide +kernel⟩,
   ⟨.host 1, [0x61], ctrlOf 1, adminRuns, by unfold AdmRuns; decide +kernel, by decide +kernel, by decide +kernel, 2,
    by decide +kernel⟩,
   ⟨.host 1, [0x61], ctrlOf 1, adminRuns, by unfold AdmRuns; decide +kernel⟩,
   ⟨.ring, adminRing, ⟨by unfold AdmRuns; decide +kernel, .inl rfl⟩⟩⟩

theorem test_witness_QueueDoorbells :
    (∃ (cntlid sqid v : Nat) (q : Sq) (s : State), (findSq s cntlid sqid = some q) ∧ (q.transport = .pcie) ∧ (v < q.size)) ∧
    (∃ (cntlid sqid v : Nat) (q : Sq) (s : State), (findSq s cntlid sqid = some q) ∧ (q.transport = .pcie) ∧ (q.size ≤ v)) ∧
    (∃ (cntlid sqid v : Nat) (s : State), ((∀ q, findSq s cntlid sqid = some q → q.transport ≠ .pcie))) ∧
    (∃ (cntlid cqid v : Nat) (q : Cq) (s : State), (findCq s cntlid cqid = some q) ∧ (v < q.size)) ∧
    (∃ (cntlid cqid v : Nat) (q : Cq) (s : State), (findCq s cntlid cqid = some q) ∧ (q.size ≤ v)) ∧
    (∃ (cntlid cqid v : Nat) (s : State), (findCq s cntlid cqid = none)) ∧
    (∃ (cntlid kind info : Nat) (c : Ctrl) (s : State), (findCtrl s cntlid = some c) ∧ (c.aers = []) ∧ ((kind, info) ∉ c.aens)) ∧
    (∃ (cntlid kind info : Nat) (c : Ctrl) (s : State), (findCtrl s cntlid = some c)) ∧
    (∃ (cntlid vector : Nat) (s : State), ((∃ p, p ∈ s.host.irqs ∧ p.cntlid = cntlid ∧ p.vector = vector))) ∧
    (∃ (cntlid vector : Nat) (s : State), ((∀ p, p ∈ s.host.irqs → p.cntlid ≠ cntlid ∨ p.vector ≠ vector))) :=
  ⟨⟨1, 1, 15, pcieSq [], pcieQueues run, by decide +kernel⟩,
   ⟨1, 1, 16, pcieSq [], pcieQueues run, by decide +kernel⟩,
   ⟨1, 1, 15, run, fun q h => by cases h⟩,
   ⟨1, 1, 15, cqOf 1 1, ctrled [] run, by decide +kernel⟩,
   ⟨1, 1, 16, cqOf 1 1, ctrled [] run, by decide +kernel⟩,
   ⟨1, 1, 16, run, by decide +kernel⟩,
   ⟨1, 0, 1, ctrlOf 1, ctrled [] run, by decide +kernel⟩,
   ⟨1, 0, 1, ctrlOf 1, ctrled [] run, by decide +kernel⟩,
   ⟨1, 3, { run with host := { run.host with irqs := [{ cntlid := 1, vector := 3, count := 2 }] } }, by decide +kernel⟩,
   ⟨1, 2, { run with host := { run.host with irqs := [{ cntlid := 1, vector := 3, count := 2 }] } }, by decide +kernel⟩⟩

theorem test_witness_FetchArbitration :
    (∃ (t : Nat) (entry : HostEntries) (s : State), (s.tfld t .qe_cfg_qe_enable ≠ 0) ∧ ((∃ c, c ∈ s.host.ctrls ∧ c.discovery = false ∧
      ctrlUrgent s entry t c = true))) ∧
    (∃ (t : Nat) (entry : HostEntries) (s : State), (s.tfld t .qe_cfg_qe_enable ≠ 0) ∧ ((∀ c, c ∈ s.host.ctrls → c.discovery = false →
      ctrlUrgent s entry t c = false)) ∧ ((∃ c, c ∈ s.host.ctrls ∧ c.discovery = false ∧ ctrlPlain s entry t c = true))) ∧
    (∃ (t : Nat) (entry : HostEntries) (s : State), (s.tfld t .qe_cfg_qe_enable = 0 ∨ (∀ q, q ∈ s.host.sqs → q.tile = t → canFetch s
      entry q = false))) ∧
    (∃ (q : Sq) (entry : HostEntries) (c : Ctrl) (s : State), (findSq s q.cntlid q.sqid = some q) ∧ ∃ x l, (q.recv = x :: l)) ∧
    (∃ (q : Sq) (entry : HostEntries) (c : Ctrl) (s : State), (findSq s q.cntlid q.sqid = some q) ∧ (q.transport = .pcie) ∧ (q.recv =
      []) ∧ (q.head < q.size)) ∧
    (∃ (q : Sq) (entry : HostEntries) (c : Ctrl) (s : State), (findSq s q.cntlid q.sqid = some q) ∧ (q.transport = .pcie) ∧ (q.recv =
      []) ∧ (q.head < q.size) ∧ (q.head ≤ q.tail)) ∧
    (∃ (q : Sq) (entry : HostEntries) (c : Ctrl) (s : State), (findSq s q.cntlid q.sqid = some q) ∧ (q.transport = .pcie) ∧ (q.recv =
      []) ∧ (q.head < q.size) ∧ (q.tail < q.head)) ∧
    (∃ (q : Sq) (entry : HostEntries) (c : Ctrl) (s : State), (findSq s q.cntlid q.sqid = some q) ∧ (q.transport = .pcie) ∧ (q.recv =
      []) ∧ (q.head < q.size) ∧
        (let l := readEntries q entry; ∃ k m, (l = k :: m))) :=
  ⟨⟨0, [], setFlds [(0, 0, .qe_cfg_qe_enable, 1)] (withQs [{ sqOf 1 0 with recv := [arrived (capAt (.admin 0) 0 0 0)] }, sqOf 1 1]
    [cqOf 1 0, cqOf 1 1] adminRuns), by decide +kernel⟩,
   ⟨0, [(1, 1, [capAt .read 1 0 1])], setFlds [(0, 0, .qe_cfg_qe_enable, 1)] (withQs [sqOf 1 0, { pcieSq [] with tail := 1 }] [cqOf 1
    0, cqOf 1 1] adminRuns), by decide +kernel⟩,
   ⟨0, [(1, 1, [capAt .read 1 0 1])], run, by decide +kernel⟩,
   ⟨{ sqOf 1 1 with recv := [arrived (capAt .read 1 0 1)] }, [], ctrlOf 1, withQs [sqOf 1 0,
    { sqOf 1 1 with recv := [arrived (capAt .read 1 0 1)] }] [cqOf 1 0, cqOf 1 1] adminRuns, by decide +kernel, arrived (capAt
    .read 1 0 1), [], by decide +kernel⟩,
   ⟨{ pcieSq [] with tail := 2 }, [(1, 1, [capAt .read 1 0 1])], ctrlOf 1, withQs [sqOf 1 0, { pcieSq [] with tail := 2 }] [cqOf 1 0,
    cqOf 1 1] adminRuns, by decide +kernel⟩,
   ⟨{ pcieSq [] with tail := 2 }, [(1, 1, [capAt .read 1 0 1])], ctrlOf 1, withQs [sqOf 1 0, { pcieSq [] with tail := 2 }] [cqOf 1 0,
    cqOf 1 1] adminRuns, by decide +kernel⟩,
   ⟨{ pcieSq [] with head := 15, tail := 2 }, [(1, 1, [capAt .read 1 0 1])], ctrlOf 1, withQs [sqOf 1 0,
    { pcieSq [] with head := 15, tail := 2 }] [cqOf 1 0, cqOf 1 1] adminRuns, by decide +kernel⟩,
   ⟨{ pcieSq [] with tail := 2 }, [(1, 1, [capAt .read 1 0 1])], ctrlOf 1, withQs [sqOf 1 0, { pcieSq [] with tail := 2 }] [cqOf 1 0,
    cqOf 1 1] adminRuns, by decide +kernel, by decide +kernel, by decide +kernel, by decide +kernel, capAt .read 1 0 1, [],
    by decide +kernel⟩⟩

theorem test_witness_LimitsAndReissue :
    (∃ (t n : Nat) (k : Bool) (c : Cmd) (s : State), ((holdList s t n).head? = some c) ∧ (readKind c.cap.op = k) ∧ ((∀ e, e ∈ holdList
      s t n → readKind e.cap.op = k)) ∧ (tokensAllow s t c.cap = true)) ∧
    (∃ (t n : Nat) (k : Bool) (c : Cmd) (s : State), ((holdList s t n).head? = some c) ∧ (readKind c.cap.op = k) ∧ ((∀ e, e ∈ holdList
      s t n → readKind e.cap.op = k)) ∧ (tokensAllow s t c.cap = false)) ∧
    (∃ (t n : Nat) (s : State), (holdList s t n = [])) ∧
    (∃ (id : Nat) (r : Role) (c : Cmd) (s : State), (findCmd s id = some c) ∧ (c.lost.find? (roleRestored s c) = some r)) ∧
    (∃ (id at_ : Nat) (c : Cmd) (s : State), (findCmd s id = some c) ∧ (c.lostMs = some at_) ∧ (at_ + 100 ≤ s.nowMs) ∧ (c.phase ≠
      .ended)) ∧
    (∃ (id at_ : Nat) (c : Cmd) (s : State), (findCmd s id = some c) ∧ (c.lostMs = some at_) ∧ (s.nowMs < at_ + 100 ∨ c.phase =
      .ended)) ∧
    (∃ (id : Nat) (s : State), ((∀ c, findCmd s id = some c → ∀ r ∈ c.lost, roleRestored s c r = false))) ∧
    (∃ (id : Nat) (s : State), ((∀ c, findCmd s id = some c → c.lostMs = none))) :=
  ⟨⟨0, 1, true, cmdOf 1 1 .read .held, ctrled [cmdOf 1 1 .read .held] run, by decide +kernel⟩,
   ⟨0, 1, true, cmdOf 1 1 .read .held,
    { ctrled [cmdOf 1 1 .read .held] run with host := { (ctrled [cmdOf 1 1 .read .held] run).host with buckets := [{ tile := 0, nsid := 1, kind := 0, tokens := 0, depth := 1, carry := 0 }] } },
    by decide +kernel⟩,
   ⟨0, 1, run, by decide +kernel⟩,
   ⟨1, .die, { cmdOf 1 1 .read .lookup with lost := [.mirror, .die] }, ctrled
    [{ cmdOf 1 1 .read .lookup with lost := [.mirror, .die] }]
    { run with wr := { run.wr with exts := [extOf 1 .member] }, island := { run.island with fenced := [1] } }, by decide +kernel⟩,
   ⟨1, 0, { cmdOf 1 1 .read .lookup with lost := [.die], lostMs := some 0 },
    { ctrled [{ cmdOf 1 1 .read .lookup with lost := [.die], lostMs := some 0 }] run with nowMs := 100 }, by decide +kernel⟩,
   ⟨1, 0, { cmdOf 1 1 .read .lookup with lost := [.die], lostMs := some 0 },
    { ctrled [{ cmdOf 1 1 .read .lookup with lost := [.die], lostMs := some 0 }] run with nowMs := 99 }, by decide +kernel⟩,
   ⟨1, run, fun q h => by cases h⟩,
   ⟨1, run, fun q h => by cases h⟩⟩

theorem test_witness_QueueCommands :
    (∃ (a : Adm) (sqid size base cqid qprio : Nat) (c : Ctrl) (s : State), (AdmRuns .queueEngine a s) ∧ (pcieIssuer s a = some c) ∧
        (let t := queueTile s c sqid;
        (let fits := sqid ≠ 0 ∧ sqid ≤ 128 ∧ findSq s c.cntlid sqid = none ∧ (c.grant.isSome = true → sqid ≤ c.grant.getD 0); (fits) ∧ (size ≠ 0) ∧ (size ≤ 1023) ∧ (cqid ≠ 0) ∧ ((findCq s c.cntlid cqid).isSome = true) ∧ ((((ioQueues s c.cntlid).filter fun q => q.tile == t).length < reservedOn s t c ∨ qpFree s t ≠ 0))))) ∧
    (∃ (a : Adm) (sqid size base cqid qprio : Nat) (c : Ctrl) (s : State), (AdmRuns .queueEngine a s) ∧ (pcieIssuer s a = some c) ∧
        (let fits := sqid ≠ 0 ∧ sqid ≤ 128 ∧ findSq s c.cntlid sqid = none ∧ (c.grant.isSome = true → sqid ≤ c.grant.getD 0); (¬fits))) ∧
    (∃ (a : Adm) (sqid size base cqid qprio : Nat) (c : Ctrl) (s : State), (AdmRuns .queueEngine a s) ∧ (pcieIssuer s a = some c) ∧
        (let fits := sqid ≠ 0 ∧ sqid ≤ 128 ∧ findSq s c.cntlid sqid = none ∧ (c.grant.isSome = true → sqid ≤ c.grant.getD 0); (fits) ∧ (size = 0 ∨ 1023 < size))) ∧
    (∃ (a : Adm) (sqid size base cqid qprio : Nat) (c : Ctrl) (s : State), (AdmRuns .queueEngine a s) ∧ (pcieIssuer s a = some c) ∧
        (let fits := sqid ≠ 0 ∧ sqid ≤ 128 ∧ findSq s c.cntlid sqid = none ∧ (c.grant.isSome = true → sqid ≤ c.grant.getD 0); (fits) ∧ (size ≠ 0) ∧ (size ≤ 1023) ∧ (cqid = 0 ∨ findCq s c.cntlid cqid = none))) ∧
    (∃ (a : Adm) (cqid size base vector : Nat) (ien : Bool) (c : Ctrl) (s : State), (AdmRuns .queueEngine a s) ∧ (pcieIssuer s a =
      some c) ∧
        (let fits := cqid ≠ 0 ∧ cqid ≤ 128 ∧ findCq s c.cntlid cqid = none; (fits) ∧ (size ≠ 0) ∧ (size ≤ 1023) ∧ (vector ≤ 128))) ∧
    (∃ (a : Adm) (cqid size base vector : Nat) (ien : Bool) (c : Ctrl) (s : State), (AdmRuns .queueEngine a s) ∧ (pcieIssuer s a =
      some c) ∧
        (let fits := cqid ≠ 0 ∧ cqid ≤ 128 ∧ findCq s c.cntlid cqid = none; (¬fits))) ∧
    (∃ (a : Adm) (cqid size base vector : Nat) (ien : Bool) (c : Ctrl) (s : State), (AdmRuns .queueEngine a s) ∧ (pcieIssuer s a =
      some c) ∧
        (let fits := cqid ≠ 0 ∧ cqid ≤ 128 ∧ findCq s c.cntlid cqid = none; (fits) ∧ (size = 0 ∨ 1023 < size))) ∧
    (∃ (a : Adm) (cqid size base vector : Nat) (ien : Bool) (c : Ctrl) (s : State), (AdmRuns .queueEngine a s) ∧ (pcieIssuer s a =
      some c) ∧
        (let fits := cqid ≠ 0 ∧ cqid ≤ 128 ∧ findCq s c.cntlid cqid = none; (fits) ∧ (size ≠ 0) ∧ (size ≤ 1023) ∧ (128 < vector))) ∧
    (∃ (a : Adm) (qid : Nat) (c : Ctrl) (s : State), (AdmRuns .queueEngine a s) ∧ (pcieIssuer s a = some c) ∧ (qid = 0 ∨ findSq s
      c.cntlid qid = none)) ∧
    (∃ (a : Adm) (qid : Nat) (c : Ctrl) (s : State), (AdmRuns .queueEngine a s) ∧ (pcieIssuer s a = some c) ∧ (qid ≠ 0) ∧ (findSq s
      c.cntlid qid ≠ none)) ∧
    (∃ (a : Adm) (qid : Nat) (c : Ctrl) (s : State), (AdmRuns .queueEngine a s) ∧ (pcieIssuer s a = some c) ∧ (qid = 0 ∨ findCq s
      c.cntlid qid = none)) ∧
    (∃ (a : Adm) (qid : Nat) (c : Ctrl) (s : State), (AdmRuns .queueEngine a s) ∧ (pcieIssuer s a = some c) ∧ (qid ≠ 0) ∧ (findCq s
      c.cntlid qid ≠ none) ∧ ((∃ q, q ∈ ioQueues s c.cntlid ∧ q.cqid = qid))) ∧
    (∃ (a : Adm) (qid : Nat) (c : Ctrl) (s : State), (AdmRuns .queueEngine a s) ∧ (pcieIssuer s a = some c) ∧ (qid ≠ 0) ∧ (findCq s
      c.cntlid qid ≠ none) ∧ ((∀ q, q ∈ ioQueues s c.cntlid → q.cqid ≠ qid))) ∧
    (∃ (a : Adm) (s : State), (AdmRuns .queueEngine a s) ∧ (pcieIssuer s a = none)) ∧
    (∃ (id : Nat) (c : Ctrl) (s : State), (AdmRuns .queueEngine (.host id) s) ∧ (admCtrl s (.host id) = some c) ∧ ∃ k i rest, (c.aens
      = (k, i) :: rest)) ∧
    (∃ (id : Nat) (c : Ctrl) (s : State), (AdmRuns .queueEngine (.host id) s) ∧ (admCtrl s (.host id) = some c) ∧ (c.aens = [])) ∧
    (∃ (a : Adm) (sqid cid : Nat) (c : Ctrl) (s : State), (AdmRuns .queueEngine a s) ∧ (admCtrl s a = some c) ∧ ∃ k, (abortable s c
      sqid cid = some k)) ∧
    (∃ (a : Adm) (sqid cid : Nat) (c : Ctrl) (s : State), (AdmRuns .queueEngine a s) ∧ (admCtrl s a = some c) ∧ (abortable s c sqid
      cid = none) ∧ ((∀ q, findSq s c.cntlid sqid = some q → ∀ k, k ∈ q.recv → k.cap.cid ≠ cid))) ∧
    (∃ (a : Adm) (sqid cid : Nat) (c : Ctrl) (s : State), (AdmRuns .queueEngine a s) ∧ (admCtrl s a = some c) ∧ ∃ q k, (abortable s c
      sqid cid = none) ∧ (findSq s c.cntlid sqid = some q) ∧ ((q.recv.find? fun k => k.cap.cid == cid) = some k)) ∧
    (∃ (a : Adm) (sqid : Nat) (c : Ctrl) (s : State), (AdmRuns .atOnce a s) ∧ (admCtrl s a = some c) ∧ (sqid = 0 ∨ findSq s c.cntlid
      sqid = none)) ∧
    (∃ (a : Adm) (sqid : Nat) (c : Ctrl) (s : State), (AdmRuns .atOnce a s) ∧ (admCtrl s a = some c) ∧ ∃ q, (sqid ≠ 0) ∧ (findSq s
      c.cntlid sqid = some q)) :=
  ⟨⟨.host 1, 3, 1023, 4096, 1, 0, { fnCtrl with enabled := true, grant := some 4 }, pcieAdmin, by unfold AdmRuns; decide +kernel⟩,
   ⟨.host 1, 1, 1023, 4096, 1, 0, { fnCtrl with enabled := true, grant := some 4 }, pcieAdmin, by unfold AdmRuns; decide +kernel⟩,
   ⟨.host 1, 4, 1024, 4096, 1, 0, { fnCtrl with enabled := true, grant := some 4 }, pcieAdmin, by unfold AdmRuns; decide +kernel⟩,
   ⟨.host 1, 4, 1023, 4096, 2, 0, { fnCtrl with enabled := true, grant := some 4 }, pcieAdmin, by unfold AdmRuns; decide +kernel⟩,
   ⟨.host 1, 128, 1023, 4096, 128, true, { fnCtrl with enabled := true, grant := some 4 }, pcieAdmin,
    by unfold AdmRuns; decide +kernel⟩,
   ⟨.host 1, 129, 1023, 4096, 128, true, { fnCtrl with enabled := true, grant := some 4 }, pcieAdmin,
    by unfold AdmRuns; decide +kernel⟩,
   ⟨.host 1, 128, 0, 4096, 128, true, { fnCtrl with enabled := true, grant := some 4 }, pcieAdmin, by unfold AdmRuns; decide +kernel⟩,
   ⟨.host 1, 128, 1023, 4096, 129, true, { fnCtrl with enabled := true, grant := some 4 }, pcieAdmin,
    by unfold AdmRuns; decide +kernel⟩,
   ⟨.host 1, 0, { fnCtrl with enabled := true, grant := some 4 }, pcieAdmin, by unfold AdmRuns; decide +kernel⟩,
   ⟨.host 1, 1, { fnCtrl with enabled := true, grant := some 4 }, pcieAdmin, by unfold AdmRuns; decide +kernel⟩,
   ⟨.host 1, 9, { fnCtrl with enabled := true, grant := some 4 }, pcieAdmin, by unfold AdmRuns; decide +kernel⟩,
   ⟨.host 1, 1, { fnCtrl with enabled := true, grant := some 4 }, pcieAdmin, by unfold AdmRuns; decide +kernel⟩,
   ⟨.host 1, 1, { fnCtrl with enabled := true, grant := some 4 }, withQs [sqOf 1 0] [cqOf 1 0, cqOf 1 1] pcieAdmin,
    by unfold AdmRuns; decide +kernel⟩,
   ⟨.host 1, adminRuns, by unfold AdmRuns; decide +kernel⟩,
   ⟨1, { ctrlOf 1 with aens := [(0, 1)] }, adminRunsBy { ctrlOf 1 with aens := [(0, 1)] }, by unfold AdmRuns; decide +kernel,
    by decide +kernel, 0, 1, [], by decide +kernel⟩,
   ⟨1, ctrlOf 1, adminRuns, by unfold AdmRuns; decide +kernel⟩,
   ⟨.host 1, 1, 7, ctrlOf 1, ctrled [cmdOf 1 0 (.admin 0) .running, cmdOf 2 1 .read .admitted] run,
    by unfold AdmRuns; decide +kernel, by decide +kernel, cmdOf 2 1 .read .admitted, by decide +kernel⟩,
   ⟨.host 1, 2, 7, ctrlOf 1, adminRuns, ⟨by unfold AdmRuns; decide +kernel, by decide +kernel, by decide +kernel, fun q h => by cases
    h⟩⟩,
   ⟨.host 1, 1, 7, ctrlOf 1, withQs [sqOf 1 0, pcieSq [capAt .read 1 0 1]] [] adminRuns, by unfold AdmRuns; decide +kernel,
    by decide +kernel, pcieSq [capAt .read 1 0 1], arrived (capAt .read 1 0 1), by decide +kernel, by decide +kernel,
    by decide +kernel⟩,
   ⟨.host 1, 0, ctrlOf 1, adminRuns, by unfold AdmRuns; decide +kernel⟩,
   ⟨.host 1, 1, ctrlOf 1, adminRuns, by unfold AdmRuns; decide +kernel, by decide +kernel, sqOf 1 1, by decide +kernel,
    by decide +kernel⟩⟩

theorem test_witness_ControllerFeatures :
    (∃ (a : Adm) (c : Ctrl) (s : State), (AdmRuns .management a s) ∧ (admCtrl s a = some c)) ∧
    (∃ (a : Adm) (c : Ctrl) (s : State), (AdmRuns .management a s) ∧ (admCtrl s a = some c) ∧ ∃ fid, (fid ≠ 8) ∧ (fid ≠ 9)) ∧
    (∃ (a : Adm) (c : Ctrl) (s : State), (AdmRuns .management a s) ∧ (admCtrl s a = some c) ∧ (hasIoQueue s c.cntlid = false)) ∧
    (∃ (a : Adm) (c : Ctrl) (s : State), (AdmRuns .management a s) ∧ (admCtrl s a = some c) ∧ (hasIoQueue s c.cntlid = true)) ∧
    (∃ (a : Adm) (c : Ctrl) (s : State), (AdmRuns .management a s) ∧ (admCtrl s a = some c) ∧ ∃ nsqr ncqr : Nat, (hasIoQueue s
      c.cntlid = false) ∧ (pcieIssuer s a = none) ∧
        (let g := min (min (min (nsqr + 1) (ncqr + 1)) 128) (pairsAvailable (updCtrl c.cntlid (fun c => { c with grant := none }) s) c); (g ≠ 0))) ∧
    (∃ (a : Adm) (c : Ctrl) (s : State), (AdmRuns .management a s) ∧ (admCtrl s a = some c) ∧ ∃ nsqr ncqr : Nat, (hasIoQueue s
      c.cntlid = false) ∧ (pcieIssuer s a = none) ∧
        (let g := min (min (min (nsqr + 1) (ncqr + 1)) 128) (pairsAvailable (updCtrl c.cntlid (fun c => { c with grant := none }) s) c); (g = 0))) ∧
    (∃ (a : Adm) (c : Ctrl) (s : State), (AdmRuns .management a s) ∧ (admCtrl s a = some c) ∧ ∃ nsqr ncqr : Nat, (hasIoQueue s
      c.cntlid = false) ∧ (pcieIssuer s a = some c) ∧
        (let g := min (min (nsqr + 1) 128) (pairsAvailable (updCtrl c.cntlid (fun c => { c with grant := none }) s) c); (g ≠ 0))) ∧
    (∃ (a : Adm) (c : Ctrl) (s : State), (AdmRuns .management a s) ∧ (admCtrl s a = some c) ∧ ∃ nsqr ncqr : Nat, (hasIoQueue s
      c.cntlid = false) ∧ (pcieIssuer s a = some c) ∧
        (let g := min (min (nsqr + 1) 128) (pairsAvailable (updCtrl c.cntlid (fun c => { c with grant := none }) s) c); (g = 0))) ∧
    (∃ (c : Ctrl) (s : State), (isX8 s c = false)) ∧
    (∃ (c : Ctrl) (s : State), (isX8 s c = true)) ∧
    (∃ (a : Adm) (v : Nat) (c : Ctrl) (s : State), (AdmRuns .management a s) ∧ (admCtrl s a = some c) ∧ (bitsOf v 15 0 ≠ 0) ∧ (findSq
      s c.cntlid (bitsOf v 15 0) ≠ none)) ∧
    (∃ (a : Adm) (v : Nat) (c : Ctrl) (s : State), (AdmRuns .management a s) ∧ (admCtrl s a = some c) ∧ (bitsOf v 15 0 = 0 ∨ findSq s
      c.cntlid (bitsOf v 15 0) = none)) ∧
    (∃ (a : Adm) (c : Ctrl) (s : State), (AdmRuns .management a s) ∧ (admCtrl s a = some c) ∧ ∃ fid, (fid ∉ [1, 6, 7, 8, 9, 15])) ∧
    (∃ (a : Adm) (c : Ctrl) (s : State), (AdmRuns .management a s) ∧ (admCtrl s a = some c) ∧ ∃ q n, (n ≠ 0) ∧ (findSq s c.cntlid n =
      some q)) ∧
    (∃ (a : Adm) (c : Ctrl) (s : State), (AdmRuns .management a s) ∧ (admCtrl s a = some c) ∧ ∃ n, (n = 0 ∨ findSq s c.cntlid n =
      none)) ∧
    (∃ (a : Adm) (s : State), (AdmRuns .management a s) ∧ (admCtrl s a = none)) :=
  ⟨⟨.host 1, ctrlOf 1, adminRuns, by unfold AdmRuns; decide +kernel⟩,
   ⟨.host 1, ctrlOf 1, adminRuns, by unfold AdmRuns; decide +kernel, by decide +kernel, 5, by decide +kernel, by decide +kernel⟩,
   ⟨.host 1, ctrlOf 1, noIo adminRuns, by unfold AdmRuns; decide +kernel⟩,
   ⟨.host 1, ctrlOf 1, adminRuns, by unfold AdmRuns; decide +kernel⟩,
   ⟨.host 1, ctrlOf 1, noIo adminRuns, by unfold AdmRuns; decide +kernel, by decide +kernel, 3, 4, by decide +kernel,
    by decide +kernel, by decide +kernel⟩,
   ⟨.host 1, ctrlOf 1, qpTaken (ctrlOf 1) (noIo adminRuns), by unfold AdmRuns; decide +kernel, by decide +kernel, 3, 4,
    by decide +kernel, by decide +kernel, by decide +kernel⟩,
   ⟨.host 1, pcieCtrl, noIo (adminRunsBy pcieCtrl), by unfold AdmRuns; decide +kernel, by decide +kernel, 3, 4, by decide +kernel,
    by decide +kernel, by decide +kernel⟩,
   ⟨.host 1, pcieCtrl, qpTaken pcieCtrl (noIo (adminRunsBy pcieCtrl)), by unfold AdmRuns; decide +kernel, by decide +kernel, 3, 4,
    by decide +kernel, by decide +kernel, by decide +kernel⟩,
   ⟨ctrlOf 1, run, by decide +kernel⟩,
   ⟨pcieCtrl, ported 5 [0] run, by decide +kernel⟩,
   ⟨.host 1, 1, ctrlOf 1, adminRuns, by unfold AdmRuns; decide +kernel⟩,
   ⟨.host 1, 2, ctrlOf 1, adminRuns, by unfold AdmRuns; decide +kernel⟩,
   ⟨.host 1, ctrlOf 1, adminRuns, by unfold AdmRuns; decide +kernel, by decide +kernel, 2, by decide +kernel⟩,
   ⟨.host 1, ctrlOf 1, adminRuns, by unfold AdmRuns; decide +kernel, by decide +kernel, sqOf 1 1, 1, by decide +kernel,
    by decide +kernel⟩,
   ⟨.host 1, ctrlOf 1, adminRuns, by unfold AdmRuns; decide +kernel, by decide +kernel, 2, by decide +kernel⟩,
   ⟨.ring, adminRing, by unfold AdmRuns; decide +kernel⟩⟩

theorem test_witness_IdentifyAnswers :
    (∃ (a : Adm) (n : Nat) (s : State), (AdmRuns .management a s) ∧ ∃ x, (n ∈ seen s a) ∧ (nsOf s n = some x)) ∧
    (∃ (a : Adm) (n : Nat) (s : State), (AdmRuns .management a s) ∧ (n ∉ seen s a)) ∧
    (∃ (a : Adm) (n : Nat) (s : State), (AdmRuns .management a s)) ∧
    (∃ (a : Adm) (n : Nat) (s : State), (AdmRuns .management a s) ∧ (admProvider s a = false)) ∧
    (∃ (a : Adm) (n : Nat) (s : State), (AdmRuns .management a s) ∧ (admProvider s a = true) ∧ (n ∈ managedIds s)) ∧
    (∃ (a : Adm) (n : Nat) (s : State), (AdmRuns .management a s) ∧ ∃ cns, (cns ∉ [0, 1, 2, 3, 4, 0x10, 0x11, 0x12, 0x13])) :=
  ⟨⟨.host 1, 1, withNs .ready (adminRunsBy { ctrlOf 1 with tenant := 1 }), by unfold AdmRuns; decide +kernel, nsAt 1 .ready,
    by decide +kernel, by decide +kernel⟩,
   ⟨.host 1, 1, adminRuns, ⟨by unfold AdmRuns; decide +kernel, by unfold seen; rw [List.mem_mergeSort]; decide +kernel⟩⟩,
   ⟨.host 1, 1, adminRuns, by unfold AdmRuns; decide +kernel⟩,
   ⟨.host 1, 1, { adminRuns with host := { adminRuns.host with ctrls := [{ ctrlOf 1 with provider := false }] } },
    by unfold AdmRuns; decide +kernel⟩,
   ⟨.host 1, 1, withNs .ready adminRuns, ⟨by unfold AdmRuns; decide +kernel, rfl,
    by unfold managedIds; rw [List.mem_mergeSort]; decide +kernel⟩⟩,
   ⟨.host 1, 1, adminRuns, by unfold AdmRuns; decide +kernel, 5, by decide +kernel⟩⟩

theorem test_witness_NamespaceLife :
    (∃ (a : Adm) (r : NsCreate) (s : State), (AdmRuns .registry a s) ∧ (createOk s r = false)) ∧
    (∃ (a : Adm) (r : NsCreate) (s : State), (AdmRuns .registry a s) ∧ (createOk s r = true) ∧ (freeNsid s = none)) ∧
    (∃ (a : Adm) (r : NsCreate) (s : State), (AdmRuns .registry a s) ∧ ∃ id eg, (createOk s r = true) ∧ (freeNsid s = some id) ∧
      (findEg s r.endgid = some eg) ∧ ((provisioned s r.endgid + r.ncap * 4096) * 100 ≤ usable s eg * eg.ratioPct) ∧ (chunksFit s
      r.nsze = true)) ∧
    (∃ (a : Adm) (r : NsCreate) (s : State), (AdmRuns .registry a s) ∧ ∃ id eg, (createOk s r = true) ∧ (freeNsid s = some id) ∧
      (findEg s r.endgid = some eg) ∧ (usable s eg * eg.ratioPct < (provisioned s r.endgid + r.ncap * 4096) * 100 ∨ chunksFit s
      r.nsze = false)) ∧
    (∃ (a : Adm) (n : Nat) (x : Ns) (s : State), (AdmRuns .registry a s) ∧ (managed s n = some x)) ∧
    (∃ (n : Nat) (x : Ns) (p : ProvOp) (s : State), (nsOf s n = some x) ∧ (x.state = .deleting) ∧ (x.step = 2) ∧ (startedOn s n (fun _
      => true) = false) ∧ (s.prov = some p) ∧ (p.kind = .nsDelete n)) ∧
    (∃ (n : Nat) (x : Ns) (s : State), (nsOf s n = some x) ∧ (x.state ≠ .deleting ∨ x.step ≠ 2 ∨ startedOn s n (fun _ => true) =
      true)) ∧
    (∃ (n : Nat) (x : Ns) (s : State), (nsOf s n = some x) ∧ (x.state = .deleting) ∧ (x.step = 5)) ∧
    (∃ (n : Nat) (x : Ns) (s : State), (nsOf s n = some x) ∧ (x.state ≠ .deleting ∨ x.step ≠ 5)) ∧
    (∃ (a : Adm) (n : Nat) (byTenant : Bool) (l ts : List Nat) (x : Ns) (s : State), (AdmRuns .registry a s) ∧ (managed s n = some x)
      ∧ (listedTenants s byTenant l = some ts)) ∧
    (∃ (a : Adm) (n : Nat) (byTenant : Bool) (l : List Nat) (s : State), (AdmRuns .registry a s) ∧ (managed s n = none)) ∧
    (∃ (a : Adm) (n : Nat) (byTenant : Bool) (l : List Nat) (s : State), (AdmRuns .registry a s) ∧ (managed s n ≠ none) ∧
      (listedTenants s byTenant l = none)) ∧
    (∃ (n : Nat) (a : Adm) (ts : List Nat) (s : State), (s.prov = some { adm := a, kind := .detach n ts }) ∧ (startedOn s n (fun c =>
      ts.contains (c.payer.tenant)) = false)) ∧
    (∃ (n : Nat) (a : Adm) (ts : List Nat) (s : State), (s.prov = some { adm := a, kind := .detach n ts }) ∧ (startedOn s n (fun c =>
      ts.contains (c.payer.tenant)) = true)) :=
  ⟨⟨.host 1, { createRec with nsze := 255 }, withEg adminRuns, by unfold AdmRuns; decide +kernel⟩,
   ⟨.host 1, createRec, allNs (withEg adminRuns), ⟨by unfold AdmRuns; decide +kernel, by decide +kernel, freeNsid_allNs _ rfl⟩⟩,
   ⟨.host 1, createRec, onAll [.map_dir_cfg_dir_gib, .rcl_thresh_endgame_bands] (withDesc (roomy (withEg adminRuns))),
    by unfold AdmRuns; decide +kernel, 1, egAt 1, by decide +kernel, by decide +kernel, by decide +kernel, by decide +kernel,
    by decide +kernel⟩,
   ⟨.host 1, createRec, withEg adminRuns, by unfold AdmRuns; decide +kernel, 1, egAt 1, by decide +kernel, by decide +kernel,
    by decide +kernel, by decide +kernel⟩,
   ⟨.host 1, 1, nsAt 1 .ready, withNs .ready adminRuns, by unfold AdmRuns; decide +kernel⟩,
   ⟨1, { nsAt 1 .deleting with step := 2 }, { adm := .host 1, kind := .nsDelete 1 }, provOf (.nsDelete 1) (deletingNs 2 adminRuns),
    by decide +kernel⟩,
   ⟨1, { nsAt 1 .deleting with step := 3 }, provOf (.nsDelete 1) (deletingNs 3 adminRuns), by decide +kernel⟩,
   ⟨1, { nsAt 1 .deleting with step := 5 }, deletingNs 5 run, by decide +kernel⟩,
   ⟨1, { nsAt 1 .deleting with step := 4 }, deletingNs 4 run, by decide +kernel⟩,
   ⟨.host 1, 1, true, [1], [1], nsAt 1 .ready, withTenant (.nqn [0x61]) (withNs .ready adminRuns), by unfold AdmRuns; decide +kernel⟩,
   ⟨.host 1, 1, true, [1], adminRuns, by unfold AdmRuns; decide +kernel⟩,
   ⟨.host 1, 1, true, [1], withNs .ready adminRuns, by unfold AdmRuns; decide +kernel⟩,
   ⟨1, .host 1, [0], provOf (.detach 1 [0]) adminRuns, by decide +kernel⟩,
   ⟨1, .host 1, [0], provOf (.detach 1 [0]) (ctrled [cmdOf 2 1 .read .reading] run), by decide +kernel⟩⟩

theorem test_witness_FormatAndSanitize :
    (∃ (a : Adm) (n ses : Nat) (x : Ns) (s : State), (AdmRuns .registry a s) ∧ (n ≠ 0xFFFFFFFF) ∧ (managed s n = some x) ∧ (ses = 0)) ∧
    (∃ (a : Adm) (n ses : Nat) (x : Ns) (s : State), (AdmRuns .registry a s) ∧ (n ≠ 0xFFFFFFFF) ∧ (managed s n = some x) ∧ (1 ≤ ses) ∧
      (ses ≤ 2) ∧ (x.unmapping = false)) ∧
    (∃ (a : Adm) (n ses : Nat) (x : Ns) (s : State), (AdmRuns .registry a s) ∧ (n ≠ 0xFFFFFFFF) ∧ (managed s n = some x) ∧ (1 ≤ ses) ∧
      (ses ≤ 2) ∧ (x.unmapping = true)) ∧
    (∃ (a : Adm) (n ses lbaf : Nat) (s : State), (AdmRuns .registry a s) ∧ (2 < ses ∨ lbaf ≠ 0)) ∧
    (∃ (a : Adm) (n ses lbaf : Nat) (s : State), (AdmRuns .registry a s) ∧ (ses ≤ 2) ∧ (lbaf = 0) ∧ (n ≠ 0xFFFFFFFF) ∧ (managed s n =
      none)) ∧
    (∃ (a : Adm) (n ses lbaf : Nat) (s : State), (AdmRuns .registry a s) ∧ (ses = 0) ∧ (lbaf = 0)) ∧
    (∃ (a : Adm) (action : Nat) (s : State), (AdmRuns .registry a s) ∧ (action ≠ 4)) ∧
    (∃ (a : Adm) (action : Nat) (s : State), (AdmRuns .registry a s) ∧ (action = 4) ∧ ((∀ x, x ∈ s.reg.nss → x.unmapping = false)) ∧
      ((s.reg.nss.map (·.nsid)).Nodup)) ∧
    (∃ (n : Nat) (x : Ns) (s : State), (nsOf s n = some x) ∧ (x.unmapping = true) ∧ (s.prov = none)) ∧
    (∃ (n : Nat) (x : Ns) (s : State), (nsOf s n = some x) ∧ (x.unmapping = true) ∧ ∃ a e rest, (s.prov = some
      { adm := a, kind := .format e (n :: rest) })) ∧
    (∃ (n : Nat) (s : State), ((∀ x, nsOf s n = some x → x.unmapping = false))) :=
  ⟨⟨.host 1, 1, 0, nsAt 1 .ready, withNs .ready adminRuns, by unfold AdmRuns; decide +kernel⟩,
   ⟨.host 1, 1, 2, nsAt 1 .ready, withNs .ready adminRuns, by unfold AdmRuns; decide +kernel⟩,
   ⟨.host 1, 1, 1, { nsAt 1 .ready with unmapping := true }, unmappingNs adminRuns, by unfold AdmRuns; decide +kernel⟩,
   ⟨.host 1, 1, 3, 0, adminRuns, by unfold AdmRuns; decide +kernel⟩,
   ⟨.host 1, 1, 2, 0, adminRuns, by unfold AdmRuns; decide +kernel⟩,
   ⟨.host 1, 1, 0, 0, withNs .ready adminRuns, by unfold AdmRuns; decide +kernel⟩,
   ⟨.host 1, 3, adminRuns, by unfold AdmRuns; decide +kernel⟩,
   ⟨.host 1, 4, withNs .ready adminRuns, by unfold AdmRuns; decide +kernel⟩,
   ⟨1, { nsAt 1 .ready with unmapping := true }, unmappingNs run, by decide +kernel⟩,
   ⟨1, { nsAt 1 .ready with unmapping := true }, provOf (.format true [1, 2]) (unmappingNs adminRuns), by decide +kernel,
    by decide +kernel, .host 1, true, [2], by decide +kernel⟩,
   ⟨1, run, fun x h => by cases h⟩⟩

theorem test_witness_TenantsAndLimits :
    (∃ (a : Adm) (n : Nat) (d : Bytes) (s : State), (AdmRuns .registry a s) ∧ (d.length ≠ 32)) ∧
    (∃ (a : Adm) (n : Nat) (d : Bytes) (s : State), (AdmRuns .registry a s) ∧ (d.length = 32) ∧ (managed s n = none)) ∧
    (∃ (a : Adm) (n : Nat) (d : Bytes) (s : State), (AdmRuns .registry a s) ∧
        (let f := fun i k => ofLE ((d.drop i).take k); ∃ x, (d.length = 32) ∧ (managed s n = some x) ∧ (f 16 2 ≤ 1000) ∧ ((∀ b, b ∈ d.drop 18 → b = 0)))) ∧
    (∃ (a : Adm) (n : Nat) (d : Bytes) (s : State), (AdmRuns .registry a s) ∧
        (let f := fun i k => ofLE ((d.drop i).take k); (d.length = 32) ∧ (managed s n ≠ none) ∧ (1000 < f 16 2 ∨ (∃ b, b ∈ d.drop 18 ∧ b ≠ 0)))) ∧
    (∃ (a : Adm) (d : Bytes) (s : State), (AdmRuns .registry a s) ∧ (d.length ≠ 512)) ∧
    (∃ (a : Adm) (d : Bytes) (s : State), (AdmRuns .registry a s) ∧ (d.length = 512) ∧ (parseTenant d = none)) ∧
    (∃ (a : Adm) (d : Bytes) (s : State), (AdmRuns .registry a s) ∧ ∃ t, (d.length = 512) ∧ (parseTenant d = some t) ∧ ((∀ x, x ∈
      s.reg.tenants → x.id ≠ t.id ∧ x.ident ≠ t.ident))) ∧
    (∃ (a : Adm) (d : Bytes) (s : State), (AdmRuns .registry a s) ∧ ∃ t old, (d.length = 512) ∧ (parseTenant d = some t) ∧
      ((s.reg.tenants.find? fun x => x.id == t.id) = some old) ∧ (old.ident = t.ident)) ∧
    (∃ (a : Adm) (d : Bytes) (s : State), (AdmRuns .registry a s) ∧ ∃ t old, (d.length = 512) ∧ (parseTenant d = some t) ∧
      ((s.reg.tenants.find? fun x => x.id == t.id) = some old) ∧ (old.ident ≠ t.ident)) ∧
    (∃ (a : Adm) (d : Bytes) (s : State), (AdmRuns .registry a s) ∧ ∃ t, (d.length = 512) ∧ (parseTenant d = some t) ∧ ((∀ x, x ∈
      s.reg.tenants → x.id ≠ t.id)) ∧ ((∃ x, x ∈ s.reg.tenants ∧ x.ident = t.ident))) ∧
    (∃ (a : Adm) (id : Nat) (s : State), (AdmRuns .provider a s) ∧ (ringLenOk a 512 s = false)) ∧
    (∃ (a : Adm) (id : Nat) (s : State), (AdmRuns .provider a s) ∧ ∃ t, (ringLenOk a 512 s = true) ∧ ((s.reg.tenants.find? fun t =>
      t.id == id) = some t)) ∧
    (∃ (a : Adm) (id : Nat) (s : State), (AdmRuns .provider a s) ∧ (ringLenOk a 512 s = true) ∧ ((s.reg.tenants.find? fun t => t.id ==
      id) = none)) ∧
    (∃ (a : Adm) (id : Nat) (s : State), (AdmRuns .registry a s) ∧ (ringLenOk a 0 s = false)) ∧
    (∃ (a : Adm) (id : Nat) (s : State), (AdmRuns .registry a s) ∧ (ringLenOk a 0 s = true) ∧ ((s.reg.tenants.find? fun t => t.id ==
      id) = none)) ∧
    (∃ (a : Adm) (id : Nat) (s : State), (AdmRuns .registry a s) ∧ (ringLenOk a 0 s = true) ∧ ((s.reg.tenants.find? fun t => t.id ==
      id) ≠ none) ∧ ((∃ n, n ∈ s.reg.nss ∧ n.owner = id))) ∧
    (∃ (a : Adm) (id : Nat) (s : State), (AdmRuns .registry a s) ∧ (ringLenOk a 0 s = true) ∧ ((s.reg.tenants.find? fun t => t.id ==
      id) ≠ none) ∧ ((∀ n, n ∈ s.reg.nss → n.owner ≠ id))) :=
  ⟨⟨.host 1, 1, [0], adminRuns, by unfold AdmRuns; decide +kernel⟩,
   ⟨.host 1, 1, List.replicate 32 0, adminRuns, by unfold AdmRuns; decide +kernel⟩,
   ⟨.host 1, 1, List.replicate 16 1 ++ [0xE8, 3] ++ List.replicate 14 0, withNs .ready adminRuns, by unfold AdmRuns; decide +kernel,
    nsAt 1 .ready, by decide +kernel, by decide +kernel, by decide +kernel, by decide +kernel⟩,
   ⟨.host 1, 1, List.replicate 16 1 ++ [0xE9, 3] ++ List.replicate 14 0, withNs .ready adminRuns, by unfold AdmRuns; decide +kernel⟩,
   ⟨.host 1, [0], adminRuns, by unfold AdmRuns; decide +kernel⟩,
   ⟨.host 1, tenantData 0 5, adminRuns, by unfold AdmRuns; decide +kernel⟩,
   ⟨.host 1, tenantData 2 5, withTenant (.nqn [0x61]) adminRuns, by unfold AdmRuns; decide +kernel,
    { tenantAt (.function 0 5) with id := 2 }, by decide +kernel, by decide +kernel, by decide +kernel⟩,
   ⟨.host 1, tenantData 1 5, withTenant (.function 0 5) adminRuns, by unfold AdmRuns; decide +kernel, tenantAt (.function 0 5),
    tenantAt (.function 0 5), by decide +kernel, by decide +kernel, by decide +kernel, by decide +kernel⟩,
   ⟨.host 1, tenantData 1 5, withTenant (.function 0 6) adminRuns, by unfold AdmRuns; decide +kernel, tenantAt (.function 0 5),
    tenantAt (.function 0 6), by decide +kernel, by decide +kernel, by decide +kernel, by decide +kernel⟩,
   ⟨.host 1, tenantData 2 5, withTenant (.function 0 5) adminRuns, by unfold AdmRuns; decide +kernel,
    { tenantAt (.function 0 5) with id := 2 }, by decide +kernel, by decide +kernel, by decide +kernel, by decide +kernel⟩,
   ⟨.ring, 1, adminRing, by unfold AdmRuns; decide +kernel⟩,
   ⟨.host 1, 1, withTenant (.function 0 5) adminRuns, by unfold AdmRuns; decide +kernel, tenantAt (.function 0 5), by decide +kernel,
    by decide +kernel⟩,
   ⟨.host 1, 2, withTenant (.function 0 5) adminRuns, by unfold AdmRuns; decide +kernel⟩,
   ⟨.ring, 1, ringData, by unfold AdmRuns; decide +kernel⟩,
   ⟨.host 1, 2, withTenant (.function 0 5) adminRuns, by unfold AdmRuns; decide +kernel⟩,
   ⟨.host 1, 1, withTenant (.function 0 5) (withNs .ready adminRuns), by unfold AdmRuns; decide +kernel⟩,
   ⟨.host 1, 1, withTenant (.function 0 5) adminRuns, by unfold AdmRuns; decide +kernel⟩⟩

theorem test_witness_MapLookups :
    (∃ (id lba : Nat) (c : Cmd) (p : Piece) (s : State), (findCmd s id = some c) ∧ ((c.pieces.find? fun p => p.lba == lba && p.state
      == .toLookup) = some p) ∧
        (let n := c.cap.nsid;
        (let r := lba / 256;
        (let w : MapWait := { nsid := n, r := r, cls := c.cls, cmd := id, req := .lookup id lba }; (forwardedPiece c = some lba))))) ∧
    (∃ (id lba : Nat) (c : Cmd) (p : Piece) (s : State), (findCmd s id = some c) ∧ ((c.pieces.find? fun p => p.lba == lba && p.state
      == .toLookup) = some p) ∧
        (let n := c.cap.nsid;
        (let r := lba / 256;
        (let t := ownerTile s n r;
        (let w : MapWait := { nsid := n, r := r, cls := c.cls, cmd := id, req := .lookup id lba }; (forwardedPiece c ≠ some lba) ∧ (lba % 256 + p.count - 1 < 240 ∨ s.tfld t .map_cfg_prefetch_en ≠ 1) ∧ (waitsFor s n r = true) ∧ (w ∉ s.map.waiting)))))) ∧
    (∃ (id lba : Nat) (c : Cmd) (p : Piece) (s : State), (findCmd s id = some c) ∧ ((c.pieces.find? fun p => p.lba == lba && p.state
      == .toLookup) = some p) ∧
        (let n := c.cap.nsid;
        (let r := lba / 256;
        (let t := ownerTile s n r;
        (let w : MapWait := { nsid := n, r := r, cls := c.cls, cmd := id, req := .lookup id lba }; (forwardedPiece c ≠ some lba) ∧ (lba % 256 + p.count - 1 < 240 ∨ s.tfld t .map_cfg_prefetch_en ≠ 1) ∧ (waitsFor s n r = false) ∧ (mapServed s n r = false)))))) ∧
    (∃ (id lba : Nat) (c : Cmd) (p : Piece) (s : State), (findCmd s id = some c) ∧ ((c.pieces.find? fun p => p.lba == lba && p.state
      == .toLookup) = some p) ∧
        (let n := c.cap.nsid;
        (let r := lba / 256;
        (let t := ownerTile s n r;
        (let w : MapWait := { nsid := n, r := r, cls := c.cls, cmd := id, req := .lookup id lba }; (forwardedPiece c ≠ some lba) ∧ (lba % 256 + p.count - 1 < 240 ∨ s.tfld t .map_cfg_prefetch_en ≠ 1) ∧ (waitsFor s n r = false) ∧ (mapServed s n r = true) ∧ (whereIs s n r = .empty)))))) ∧
    (∃ (id lba : Nat) (c : Cmd) (p : Piece) (s : State), (findCmd s id = some c) ∧ ((c.pieces.find? fun p => p.lba == lba && p.state
      == .toLookup) = some p) ∧
        (let n := c.cap.nsid;
        (let r := lba / 256;
        (let t := ownerTile s n r;
        (let w : MapWait := { nsid := n, r := r, cls := c.cls, cmd := id, req := .lookup id lba }; (forwardedPiece c ≠ some lba) ∧ (lba % 256 + p.count - 1 < 240 ∨ s.tfld t .map_cfg_prefetch_en ≠ 1) ∧ (waitsFor s n r = false) ∧ (mapServed s n r = true) ∧ (whereIs s n r = .l0)))))) ∧
    (∃ (id lba : Nat) (c : Cmd) (p : Piece) (s : State), (findCmd s id = some c) ∧ ((c.pieces.find? fun p => p.lba == lba && p.state
      == .toLookup) = some p) ∧
        (let n := c.cap.nsid;
        (let r := lba / 256;
        (let t := ownerTile s n r;
        (let w : MapWait := { nsid := n, r := r, cls := c.cls, cmd := id, req := .lookup id lba }; (forwardedPiece c ≠ some lba) ∧ (lba % 256 + p.count - 1 < 240 ∨ s.tfld t .map_cfg_prefetch_en ≠ 1) ∧ (waitsFor s n r = false) ∧ (mapServed s n r = true) ∧ (whereIs s n r = .l1)))))) ∧
    (∃ (id lba : Nat) (c : Cmd) (p : Piece) (s : State), (findCmd s id = some c) ∧ ((c.pieces.find? fun p => p.lba == lba && p.state
      == .toLookup) = some p) ∧
        (let n := c.cap.nsid;
        (let r := lba / 256;
        (let t := ownerTile s n r;
        (let w : MapWait := { nsid := n, r := r, cls := c.cls, cmd := id, req := .lookup id lba }; (forwardedPiece c ≠ some lba) ∧ (lba % 256 + p.count - 1 < 240 ∨ s.tfld t .map_cfg_prefetch_en ≠ 1) ∧ (waitsFor s n r = false) ∧ (mapServed s n r = true) ∧ (whereIs s n r = .fetching)))))) ∧
    (∃ (id lba : Nat) (c : Cmd) (p : Piece) (s : State), (findCmd s id = some c) ∧ ((c.pieces.find? fun p => p.lba == lba && p.state
      == .toLookup) = some p) ∧
        (let n := c.cap.nsid;
        (let r := lba / 256;
        (let t := ownerTile s n r;
        (let w : MapWait := { nsid := n, r := r, cls := c.cls, cmd := id, req := .lookup id lba }; (forwardedPiece c ≠ some lba) ∧ (lba % 256 + p.count - 1 < 240 ∨ s.tfld t .map_cfg_prefetch_en ≠ 1) ∧ (waitsFor s n r = false) ∧ (mapServed s n r = true) ∧ (whereIs s n r = .miss) ∧ (placeFor s t c.cls = none ∨ frameAt s t = false)))))) ∧
    (∃ (id lba : Nat) (c : Cmd) (p : Piece) (s : State), (findCmd s id = some c) ∧ ((c.pieces.find? fun p => p.lba == lba && p.state
      == .toLookup) = some p) ∧
        (let n := c.cap.nsid;
        (let r := lba / 256;
        (let t := ownerTile s n r;
        (let w : MapWait := { nsid := n, r := r, cls := c.cls, cmd := id, req := .lookup id lba }; (forwardedPiece c ≠ some lba) ∧ (lba % 256 + p.count - 1 < 240 ∨ s.tfld t .map_cfg_prefetch_en ≠ 1) ∧ (waitsFor s n r = false) ∧ (mapServed s n r = true) ∧ ∃ x k, (findRegion s n r = some x) ∧ (whereIs s n r = .miss) ∧ (placeFor s t c.cls = some k) ∧ (frameAt s t = true)))))) ∧
    (∃ (id lba : Nat) (s : State), ((∀ c, findCmd s id = some c → ∀ p, p ∈ c.pieces → p.lba = lba → p.state ≠ .toLookup))) ∧
    (∃ (n r last : Nat) (s : State),
        (let t := ownerTile s n r; (s.tfld t .map_cfg_prefetch_en = 1) ∧ (240 ≤ last) ∧ (fetches s (ownerTile s n (r + 1)) < 192) ∧ (whereIs s n (r + 1) = .miss))) ∧
    (∃ (n r last : Nat) (s : State),
        (let t := ownerTile s n r; (s.tfld t .map_cfg_prefetch_en ≠ 1 ∨ last < 240 ∨ 192 ≤ fetches s (ownerTile s n (r + 1)) ∨ whereIs s n (r + 1) ≠ .miss))) ∧
    (∃ (n r : Nat) (header body : Bytes) (x : Region) (c : PClass) (s : State), (findRegion s n r = some x) ∧ (x.fetching = some c) ∧
      ((∀ o, o ∈ s.media.ops → o.use ≠ .mapFetch n r)) ∧ (recordPasses 1 n r header body = true)) ∧
    (∃ (n r : Nat) (header body : Bytes) (x : Region) (c : PClass) (s : State), (findRegion s n r = some x) ∧ (x.fetching = some c) ∧
      ((∀ o, o ∈ s.media.ops → o.use ≠ .mapFetch n r)) ∧ (recordPasses 1 n r header body = true) ∧ (s.map.waiting = []) ∧ (x.l0 =
      none)) ∧
    (∃ (n r : Nat) (header body : Bytes) (x : Region) (c : PClass) (s : State), (findRegion s n r = some x) ∧ (x.fetching = some c) ∧
      ((∀ o, o ∈ s.media.ops → o.use ≠ .mapFetch n r)) ∧ (recordPasses 1 n r header body = false) ∧ (s.map.waiting = [])) ∧
    (∃ (n r : Nat) (header body : Bytes) (s : State), ((∀ x, findRegion s n r = some x → x.fetching = none) ∨ (∃ o, o ∈ s.media.ops ∧
      o.use = .mapFetch n r ∧ (o.state = .waiting ∨ reconRead s o.id = false)))) :=
  ⟨⟨1, 256, { reader 256 .toLookup with cap := capAt .read 1 255 2 }, readPiece 256 .toLookup, ctrled
    [{ reader 256 .toLookup with cap := capAt .read 1 255 2 }] run, by decide +kernel⟩,
   ⟨1, 200, reader 200 .toLookup, readPiece 200 .toLookup, mapWaits (mapped [] [reader 200 .toLookup]), by decide +kernel⟩,
   ⟨1, 239, reader 239 .toLookup, readPiece 239 .toLookup, withDirs [dirOf none none] (mapped [regionOf 0 true false] [reader 239
    .toLookup]), by decide +kernel⟩,
   ⟨1, 200, reader 200 .toLookup, readPiece 200 .toLookup, mapped [] [reader 200 .toLookup], by decide +kernel⟩,
   ⟨1, 239, reader 239 .toLookup, readPiece 239 .toLookup, mapped [regionOf 0 true false] [reader 239 .toLookup], by decide +kernel⟩,
   ⟨1, 239, reader 239 .toLookup, readPiece 239 .toLookup, mapped [regionOf 0 false true] [reader 239 .toLookup], by decide +kernel⟩,
   ⟨1, 239, reader 239 .toLookup, readPiece 239 .toLookup, mapped [{ regionOf 0 false false with fetching := some .h1 }] [reader 239
    .toLookup], by decide +kernel⟩,
   ⟨1, 239, reader 239 .toLookup, readPiece 239 .toLookup, mapped (regionOf 0 false false :: fetchOthers) [reader 239 .toLookup],
    by decide +kernel⟩,
   ⟨1, 239, reader 239 .toLookup, readPiece 239 .toLookup, mapped [regionOf 0 false false] [reader 239 .toLookup], by decide +kernel,
    by decide +kernel, by decide +kernel, by decide +kernel, by decide +kernel, by decide +kernel, regionOf 0 false false, false,
    by decide +kernel, by decide +kernel, by decide +kernel, by decide +kernel⟩,
   ⟨1, 0, run, fun c h => by cases h⟩,
   ⟨1, 0, 240, onAll [.map_cfg_prefetch_en] (mapped [regionOf 1 false false] []), by decide +kernel⟩,
   ⟨1, 0, 239, mapped [] [], by decide +kernel⟩,
   ⟨1, 0, recHead, [], { regionOf 0 false false with fetching := some .h1 }, .h1, mapped
    [{ regionOf 0 false false with fetching := some .h1 }] [], by decide +kernel⟩,
   ⟨1, 0, recHead, [], { regionOf 0 false false with fetching := some .h1 }, .h1, mapped
    [{ regionOf 0 false false with fetching := some .h1 }] [], by decide +kernel⟩,
   ⟨1, 0, [], [], { regionOf 0 false false with fetching := some .h1 }, .h1, mapped
    [{ regionOf 0 false false with fetching := some .h1 }] [], by decide +kernel⟩,
   ⟨1, 0, [], [], mapped [regionOf 0 false false] [], .inl (fun x h => by cases h; rfl)⟩⟩

theorem test_witness_MapUpdates :
    (∃ (id r : Nat) (c : Cmd) (s : State), (findCmd s id = some c) ∧ (updateDue c r = true) ∧ ((∀ u, u ∈ c.updates → u.region + 1 = r
      → forwardedRegion c u.region = none)) ∧
        (let n := c.cap.nsid;
        (let w : MapWait := { nsid := n, r := r, cls := c.cls, cmd := id, req := .update id r }; (waitsFor s n r = true) ∧ (w ∉ s.map.waiting)))) ∧
    (∃ (id r : Nat) (c : Cmd) (s : State), (findCmd s id = some c) ∧ (updateDue c r = true) ∧ ((∀ u, u ∈ c.updates → u.region + 1 = r
      → forwardedRegion c u.region = none)) ∧
        (let n := c.cap.nsid;
        (let w : MapWait := { nsid := n, r := r, cls := c.cls, cmd := id, req := .update id r }; (waitsFor s n r = false) ∧ (mapServed s n r = false)))) ∧
    (∃ (id r : Nat) (c : Cmd) (s : State), (findCmd s id = some c) ∧ (updateDue c r = true) ∧ ((∀ u, u ∈ c.updates → u.region + 1 = r
      → forwardedRegion c u.region = none)) ∧
        (let n := c.cap.nsid;
        (let w : MapWait := { nsid := n, r := r, cls := c.cls, cmd := id, req := .update id r }; (waitsFor s n r = false) ∧ (mapServed s n r = true) ∧ (whereIs s n r = .miss ∨ whereIs s n r = .fetching)))) ∧
    (∃ (id r : Nat) (c : Cmd) (s : State), (findCmd s id = some c) ∧ (updateDue c r = true) ∧ ((∀ u, u ∈ c.updates → u.region + 1 = r
      → forwardedRegion c u.region = none)) ∧
        (let n := c.cap.nsid;
        (let w : MapWait := { nsid := n, r := r, cls := c.cls, cmd := id, req := .update id r }; (waitsFor s n r = false) ∧ (mapServed s n r = true) ∧ (whereIs s n r ≠ .miss) ∧ (whereIs s n r ≠ .fetching) ∧ (updateReady s n r = false)))) ∧
    (∃ (id r : Nat) (c : Cmd) (s : State), (findCmd s id = some c) ∧ (updateDue c r = true) ∧ ((∀ u, u ∈ c.updates → u.region + 1 = r
      → forwardedRegion c u.region = none)) ∧
        (let n := c.cap.nsid;
        (let w : MapWait := { nsid := n, r := r, cls := c.cls, cmd := id, req := .update id r }; (waitsFor s n r = false) ∧ (mapServed s n r = true) ∧ (whereIs s n r ≠ .miss) ∧ (whereIs s n r ≠ .fetching) ∧ (updateReady s n r = true) ∧ (forwardedRegion c r = none)))) ∧
    (∃ (id r : Nat) (c : Cmd) (s : State), (findCmd s id = some c) ∧ (updateDue c r = true) ∧ ((∀ u, u ∈ c.updates → u.region + 1 = r
      → forwardedRegion c u.region = none)) ∧
        (let n := c.cap.nsid;
        (let w : MapWait := { nsid := n, r := r, cls := c.cls, cmd := id, req := .update id r }; (waitsFor s n r = false) ∧ (mapServed s n r = true) ∧ (whereIs s n r ≠ .miss) ∧ (whereIs s n r ≠ .fetching) ∧ ∃ r2, (updateReady s n r = true) ∧ (forwardedRegion c r = some r2)))) ∧
    (∃ (id r : Nat) (s : State), ((∀ c, findCmd s id = some c → updateDue c r = false ∨ ∃ v, v ∈ c.updates ∧ v.region + 1 = r ∧
      (forwardedRegion c v.region).isSome = true))) ∧
    (∃ (addr : Nat) (e : Ext) (s : State), ((s.wr.exts.find? fun e => e.addr == addr && e.src.isSome && !e.committed && e.stage ==
      .closed) = some e) ∧
        (let n := e.nsid;
        (let r := e.slba / 256; (waitsFor s n r = false) ∧ (mapServed s n r = true) ∧ (whereIs s n r = .empty)))) ∧
    (∃ (addr : Nat) (e : Ext) (s : State), ((s.wr.exts.find? fun e => e.addr == addr && e.src.isSome && !e.committed && e.stage ==
      .closed) = some e) ∧
        (let n := e.nsid;
        (let r := e.slba / 256;
        (let c := extClass s e; (waitsFor s n r = false) ∧ (mapServed s n r = true) ∧ (whereIs s n r = .l0 ∨ whereIs s n r = .l1) ∧ (updateReady s n r = true) ∧ (e.parts = []))))) ∧
    (∃ (addr : Nat) (e : Ext) (s : State), ((s.wr.exts.find? fun e => e.addr == addr && e.src.isSome && !e.committed && e.stage ==
      .closed) = some e) ∧
        (let n := e.nsid;
        (let r := e.slba / 256;
        (let c := extClass s e; (waitsFor s n r = false) ∧ (mapServed s n r = true) ∧ (whereIs s n r = .l0 ∨ whereIs s n r = .l1) ∧ (updateReady s n r = true) ∧ (e.parts ≠ []))))) ∧
    (∃ (addr : Nat) (e : Ext) (s : State), ((s.wr.exts.find? fun e => e.addr == addr && e.src.isSome && !e.committed && e.stage ==
      .closed) = some e) ∧
        (let n := e.nsid;
        (let r := e.slba / 256; (waitsFor s n r = false) ∧ (mapServed s n r = true) ∧ (whereIs s n r = .miss ∨ whereIs s n r = .fetching)))) ∧
    (∃ (addr : Nat) (s : State), ((∀ e, e ∈ s.wr.exts → e.addr = addr → e.src = none ∨ e.committed = true ∨ e.stage ≠ .closed))) ∧
    (∃ (n r src seq dst : Nat) (s : State), ((∀ y, y ∈ (getRegion s n r).spans → pointsAt src seq y = false))) ∧
    (∃ (id r : Nat) (mirror : Bool) (c : Cmd) (s : State), (findCmd s id = some c) ∧ (c.phase = .mapping) ∧ ((∀ w, w ∈ s.map.forwards
      → w.cmd ≠ id)) ∧ ((∀ v, v ∈ c.updates → v.region + 1 = r → forwardedRegion c v.region = none)) ∧
        (let set := fun (u : Upd) => if u.region ≠ r then u else if mirror then { u with mirrorOk := u.mirrorOk || u.mirrored } else { u with ownerOk := u.ownerOk || u.applied }; ((∃ u, u ∈ c.updates ∧ ((set u).ownerOk = false ∨ (set u).mirrorOk = false))))) ∧
    (∃ (id r : Nat) (mirror : Bool) (c : Cmd) (s : State), (findCmd s id = some c) ∧ (c.phase = .mapping) ∧ ((∀ w, w ∈ s.map.forwards
      → w.cmd ≠ id)) ∧ ((∀ v, v ∈ c.updates → v.region + 1 = r → forwardedRegion c v.region = none)) ∧
        (let set := fun (u : Upd) => if u.region ≠ r then u else if mirror then { u with mirrorOk := u.mirrorOk || u.mirrored } else { u with ownerOk := u.ownerOk || u.applied }; ((∀ u, u ∈ c.updates → (set u).ownerOk = true ∧ (set u).mirrorOk = true)) ∧ (c.sweep = 0) ∧ (s.plp.writeThrough = false))) ∧
    (∃ (id r : Nat) (mirror : Bool) (s : State), (findCmd s id = none)) :=
  ⟨⟨1, 0, mapper [0], mapWaits (mapped [] [mapper [0]]), by decide +kernel⟩,
   ⟨1, 0, mapper [0], withDirs [dirOf none none] (mapped [] [mapper [0]]), by decide +kernel⟩,
   ⟨1, 0, mapper [0], mapped [regionOf 0 false false] [mapper [0]], by decide +kernel⟩,
   ⟨1, 0, mapper [0], journaled (jOf 0 [1, 2, 3, 4] []) (mapped [] [mapper [0]]), by decide +kernel⟩,
   ⟨1, 0, mapper [0], mapped [] [mapper [0]], by decide +kernel⟩,
   ⟨1, 0, mapper [0, 1], mapped [regionOf 0 true false] [mapper [0, 1]], by decide +kernel, by decide +kernel, by decide +kernel,
    by decide +kernel, by decide +kernel, by decide +kernel, by decide +kernel, 1, by decide +kernel, by decide +kernel⟩,
   ⟨1, 1, run, fun c h => by cases h⟩,
   ⟨9, relocating .closed, withExts [relocating .closed] (mapped [] []), by decide +kernel⟩,
   ⟨9, relocating .closed, withExts [relocating .closed] (mapped [regionOf 0 true false] []), by decide +kernel⟩,
   ⟨9, coalesced, withExts [coalesced] (mapped [regionOf 0 true false] []), by decide +kernel⟩,
   ⟨9, relocating .closed, withExts [relocating .closed] (mapped [{ regionOf 0 false false with fetching := some .h1 }] []),
    by decide +kernel⟩,
   ⟨9, withExts [relocating .sent] (mapped [] []), by decide +kernel⟩,
   ⟨1, 0, 5, 8, 9, mapped [regionOf 0 true false] [], by decide +kernel⟩,
   ⟨1, 0, false, mapper [0], mapped [] [mapper [0]], by decide +kernel⟩,
   ⟨1, 0, false, okMapper, { mapped [] [okMapper] with plp := { run.plp with writeThrough := false } }, by decide +kernel⟩,
   ⟨1, 0, true, run, by decide +kernel⟩⟩

theorem test_witness_WriteBackAndJournal :
    (∃ (n i addr len : Nat) (x : Region) (s : State), (findRegion s n i = some x) ∧
        (let t := ownerTile s n i; ∃ c, (x.wb = none) ∧ (placeOk s t addr len = true) ∧ (pageWbClass s x = some c))) ∧
    (∃ (n i addr len : Nat) (x : Region) (s : State), (findRegion s n i = some x) ∧
        (let t := ownerTile s n i; ∃ l, (x.wb = none) ∧ (placeOk s t addr len = true) ∧ (pageWbClass s x = none) ∧ (x.l2 = some l) ∧ (recordMoves s l.addr = true))) ∧
    (∃ (n i addr len : Nat) (x : Region) (s : State), (findRegion s n i = some x) ∧
        (let t := ownerTile s n i; (x.wb.isSome = true ∨ placeOk s t addr len = false ∨ (pageWbClass s x = none ∧ ∀ l, x.l2 = some l → recordMoves s l.addr = false)))) ∧
    (∃ (x : Region) (s : State),
        (let t := ownerTile s x.nsid x.r; (x.dirty.isSome = true) ∧ (dirtyLimit s t ≤ dirtyFrames s t))) ∧
    (∃ (x : Region) (s : State),
        (let t := ownerTile s x.nsid x.r;
        (let slot := ownerSlot s x.nsid x.r; (x.dirty.isSome = true) ∧ (dirtyFrames s t < dirtyLimit s t) ∧ ((findJournal s slot).hot = false) ∧ (3 * dirtyLimit s t ≤ 4 * dirtyFrames s t)))) ∧
    (∃ (x : Region) (s : State),
        (let t := ownerTile s x.nsid x.r;
        (let slot := ownerSlot s x.nsid x.r; (x.dirty.isSome = true) ∧ (dirtyFrames s t < dirtyLimit s t) ∧ ((findJournal s slot).hot = false) ∧ (4 * dirtyFrames s t < 3 * dirtyLimit s t) ∧ (slot ∉ s.map.handBack)))) ∧
    (∃ (slot n i addr len : Nat) (d : DirRec) (s : State), ((s.map.dirs.find? fun d => d.slot == slot && d.nsid == n && d.index == i)
      = some d) ∧ (d.wb = none) ∧ (d.dirty.isSome = true) ∧ (placeOk s (if adopted s slot n i then (slotTiles s).headD slot else
      slot) addr len = true)) ∧
    (∃ (n i : Nat) (x : Region) (w : WriteBack) (s : State), (findRegion s n i = some x) ∧ (x.wb = some w) ∧ (s.map.waiting = []) ∧
        (let slot := ownerSlot s n i;
        (let pos := (findJournal s slot).head; ((∀ o, o ∈ s.media.ops → o.use = .mapWrite false n i → o.state ≠ .waiting)) ∧ ((findJournal s slot).durable ≤ pos)))) ∧
    (∃ (n i addr len : Nat) (s : State), ((∀ x w, findRegion s n i = some x → x.wb = some w → w.addr ≠ addr ∨ w.len ≠ len) ∨
      (s.media.ops.find? fun o => o.use == .mapWrite false n i).any (fun o => o.state == .waiting) = true)) ∧
    (∃ (slot n i addr len : Nat) (s : State), ((∀ d w, d ∈ s.map.dirs → d.slot = slot → d.nsid = n → d.index = i → d.wb = some w →
      w.addr ≠ addr ∨ w.len ≠ len))) ∧
    (∃ (slot n i : Nat) (d : DirRec) (w : DirWb) (s : State), ((s.map.dirs.find? fun d => d.slot == slot && d.nsid == n && d.index ==
      i) = some d) ∧ (d.wb = some w) ∧ ((∀ o, o ∈ s.media.ops → o.use = .mapWrite true n i → o.state ≠ .waiting))) ∧
    (∃ (id r : Nat) (c : Cmd) (v : Upd) (s : State), (findCmd s id = some c) ∧ ((c.updates.find? fun u => u.region == r && u.applied)
      = some v) ∧
        (let m := mirrorOf s (ownerTile s c.cap.nsid r); (tileUp s m = true))) ∧
    (∃ (id r : Nat) (c : Cmd) (v : Upd) (s : State), (findCmd s id = some c) ∧ ((c.updates.find? fun u => u.region == r && u.applied)
      = some v) ∧
        (let m := mirrorOf s (ownerTile s c.cap.nsid r); (tileUp s m = false))) ∧
    (∃ (slot : Nat) (s : State),
        (let j := findJournal s slot; (openStart j < j.head) ∧ (j.closed.length < 4))) ∧
    (∃ (slot : Nat) (s : State),
        (let j := findJournal s slot; (j.head ≤ openStart j ∨ 4 ≤ j.closed.length))) ∧
    (∃ (slot : Nat) (s : State),
        (let j := findJournal s slot; ∃ e rest, (j.closed = e :: rest))) ∧
    (∃ (slot : Nat) (s : State),
        (let j := findJournal s slot; (j.closed = []))) ∧
    (∃ (slot : Nat) (s : State),
        (let mib := s.tfld slot .map_paging_journal_window_mib; (4 * (32 * (windowStart s slot - (findJournal s slot).checkpoint) / 2 ^ 20) < mib))) :=
  ⟨⟨1, 0, placeAt 4, 1, dirtyR (some 3) none, mapBands .open (hotJ (mapped [dirtyR (some 3) none] [])), by decide +kernel, .h1,
    by decide +kernel, by decide +kernel, by decide +kernel⟩,
   ⟨1, 0, placeAt 4, 1, { dirtyR none none with l2 := some l2Rec }, mapBands .open (mapped
    [{ dirtyR none none with l2 := some l2Rec }] []), by decide +kernel, l2Rec, by decide +kernel, by decide +kernel,
    by decide +kernel, by decide +kernel, by decide +kernel⟩,
   ⟨1, 0, placeAt 4, 1, dirtyR (some 3) (some (wbOf none)), mapBands .open (mapped [dirtyR (some 3) (some (wbOf none))] []),
    ⟨by decide +kernel, .inl rfl⟩⟩,
   ⟨dirtyR (some 3) none, setFlds [(5, 0, .map_paging_dirty_max_pct, 0)] (mapped [dirtyR (some 3) none] []), by decide +kernel⟩,
   ⟨dirtyR (some 3) none, fewFrames, by decide +kernel⟩,
   ⟨dirtyR (some 3) none, mapped [dirtyR (some 3) none] [], by decide +kernel⟩,
   ⟨slot0, 1, 0, placeAt 4, 1, dirOf (some 3) none, withDirs [dirOf (some 3) none] (mapBands .open run), by decide +kernel⟩,
   ⟨1, 0, dirtyR (some 3) (some (wbOf none)), wbOf none, mapped [dirtyR (some 3) (some (wbOf none))] [], by decide +kernel⟩,
   ⟨1, 0, 8, 1, mapped [dirtyR (some 3) (some (wbOf none))] [], .inl (fun _ _ h e => by cases h; cases e; exact .inl (by decide))⟩,
   ⟨slot0, 1, 0, 8, 1, withDirs [dirOf (some 3) (some dirWb)] run, (fun _ _ h _ _ _ e => (Option.some.inj ((congrArg DirRec.wb
    (List.mem_singleton.mp h)).symm.trans e) : dirWb = _) ▸ .inl (by decide))⟩,
   ⟨slot0, 1, 0, dirOf (some 3) (some dirWb), dirWb, withDirs [dirOf (some 3) (some dirWb)] run, by decide +kernel⟩,
   ⟨1, 0, appliedMapper, { updOf 0 with applied := true }, mapped [] [appliedMapper], by decide +kernel⟩,
   ⟨1, 0, appliedMapper, { updOf 0 with applied := true }, alone (mapped [] [appliedMapper]), by decide +kernel⟩,
   ⟨slot0, journaled (jOf 9000 [] []) run, by decide +kernel⟩,
   ⟨slot0, journaled (jOf 40960 [16384, 24576, 32768, 40960] []) run, by decide +kernel⟩,
   ⟨slot0, journaled (jOf 17000 [16384] []) run, 16384, [], by decide +kernel⟩,
   ⟨slot0, journaled (jOf 9000 [] []) run, by decide +kernel⟩,
   ⟨slot0, journaled (jOf 9000 [] []) run, by decide +kernel⟩⟩

theorem test_witness_ForwardingAndAdoption :
    (∃ (id : Nat) (w : Forward) (s : State), ((s.map.forwards.find? fun w => w.cmd == id && !w.arrived) = some w) ∧
        (let blocked := ∃ v, v ∈ s.map.forwards.takeWhile (fun v => !(v.cmd == id)) ∧ v.arrived = false ∧ forwardPath s v = forwardPath s w; (blocked))) ∧
    (∃ (id : Nat) (w : Forward) (s : State), ((s.map.forwards.find? fun w => w.cmd == id && !w.arrived) = some w) ∧
        (let blocked := ∃ v, v ∈ s.map.forwards.takeWhile (fun v => !(v.cmd == id)) ∧ v.arrived = false ∧ forwardPath s v = forwardPath s w; (¬blocked))) ∧
    (∃ (id : Nat) (w : Forward) (s : State), ((s.map.forwards.find? fun w => w.cmd == id && !w.arrived) = some w) ∧
        (let blocked := ∃ v, v ∈ s.map.forwards.takeWhile (fun v => !(v.cmd == id)) ∧ v.arrived = false ∧ forwardPath s v = forwardPath s w; (¬blocked) ∧ ((∀ v, v ∈ s.map.forwards → v.cmd = id → v = w)) ∧ (w.applied = false) ∧ (w.read = none) ∧ (waitsFor s w.nsid w.region = false) ∧ (w.replay = true) ∧ (inLedger s w = true))) ∧
    (∃ (id : Nat) (w : Forward) (s : State), ((s.map.forwards.find? fun w => w.cmd == id && !w.arrived) = some w) ∧
        (let blocked := ∃ v, v ∈ s.map.forwards.takeWhile (fun v => !(v.cmd == id)) ∧ v.arrived = false ∧ forwardPath s v = forwardPath s w; (¬blocked) ∧ ((∀ v, v ∈ s.map.forwards → v.cmd = id → v = w)) ∧ (w.applied = false) ∧ (w.read = none) ∧ (waitsFor s w.nsid w.region = false) ∧ (w.replay = false ∨ inLedger s w = false) ∧ (mapServed s w.nsid w.region = true) ∧ (whereIs s w.nsid w.region ≠ .miss) ∧ (whereIs s w.nsid w.region ≠ .fetching) ∧ (updateReady s w.nsid w.region = true))) ∧
    (∃ (id : Nat) (s : State), ((∀ w, w ∈ s.map.forwards → w.cmd = id → w.arrived = true))) ∧
    (∃ (id : Nat) (w : Forward) (s : State), ((s.map.forwards.find? fun w => w.cmd == id && w.applied) = some w)) ∧
    (∃ (id : Nat) (s : State), ((∀ w, w ∈ s.map.forwards → w.cmd = id → w.applied = false))) ∧
    (∃ (slot n i : Nat) (header body : Bytes) (s : State), (slot ∉ s.map.away ∨ (∃ o, o ∈ s.media.ops ∧ o.use = .dirLoad slot n i ∧
      o.state = .waiting))) ∧
    (∃ (slot n i : Nat) (header body : Bytes) (s : State), (slot ∈ s.map.away) ∧ ((∀ o, o ∈ s.media.ops → o.use ≠ .dirLoad slot n i))
      ∧ (s.map.waiting = []) ∧ (recordPasses 2 n i header body = true)) ∧
    (∃ (slot n i : Nat) (header body : Bytes) (s : State), (slot ∈ s.map.away) ∧ ((∀ o, o ∈ s.media.ops → o.use ≠ .dirLoad slot n i))
      ∧ (s.map.waiting = []) ∧ (recordPasses 2 n i header body = false)) ∧
    (∃ (slot n i : Nat) (s : State),
        (let mine := fun (x : Region) => ownerSlot s x.nsid x.r = slot ∧ x.nsid = n ∧ dirIndex s x.r = i; (adopted s slot n i = true) ∧ (slot ∈ s.map.handBack) ∧ (s.map.waiting = []) ∧ ((∀ x, x ∈ s.map.regions → mine x → x.dirty = none ∧ x.fetching = none ∧ x.wb = none)) ∧ ((∀ d, d ∈ s.map.dirs → d.slot = slot → d.nsid = n → d.index = i → d.dirty = none ∧ d.wb = none)))) ∧
    (∃ (slot n i : Nat) (s : State),
        (let mine := fun (x : Region) => ownerSlot s x.nsid x.r = slot ∧ x.nsid = n ∧ dirIndex s x.r = i; (adopted s slot n i = false ∨ slot ∉ s.map.handBack ∨ (∃ x, x ∈ s.map.regions ∧ mine x ∧ x.dirty.isSome = true) ∨ (∃ d, d ∈ s.map.dirs ∧ d.slot = slot ∧ d.nsid = n ∧ d.index = i ∧ d.dirty.isSome = true)))) ∧
    (∃ (n r : Nat) (x : Region) (s : State), (findRegion s n r = some x) ∧ (x.marked = true)) ∧
    (∃ (n r : Nat) (x : Region) (s : State), (findRegion s n r = some x) ∧ (x.marked = false)) ∧
    (∃ (slot : Nat) (s : State), (s.map.waiting = [])) :=
  ⟨⟨1, fwdOf true false false, forwards [{ fwdOf true false false with cmd := 2 }, fwdOf true false false] run, by decide +kernel⟩,
   ⟨1, fwdOf true false false, forwards [{ fwdOf true true false with cmd := 2 }, fwdOf true false false] run, by decide +kernel⟩,
   ⟨1, fwdOf true false false, forwards [fwdOf true false false] (journaled (jOf 9000 [] [(9, 0)]) (mapped [] [mapper [0]])),
    by decide +kernel⟩,
   ⟨1, fwdOf false false false, forwards [fwdOf false false false] (mapped [] [mapper [0]]), by decide +kernel⟩,
   ⟨1, run, by decide +kernel⟩,
   ⟨1, fwdOf false true false, forwards [fwdOf false true false] (mapped [] [mapper [0]]), by decide +kernel⟩,
   ⟨1, forwards [fwdOf false false false] (mapped [] [mapper [0]]), by decide +kernel⟩,
   ⟨slot0, 1, 0, [], [], withDirs [dirOf none none] run, by decide +kernel⟩,
   ⟨slot0, 1, 0, dirHead, [], awayMap false (withDirs [dirOf none none] run), by decide +kernel⟩,
   ⟨slot0, 1, 0, recHead, [], awayMap false (withDirs [dirOf none none] run), by decide +kernel⟩,
   ⟨slot0, 1, 0, awayMap true (withDirs [dirOf none none] run), by decide +kernel⟩,
   ⟨slot0, 1, 0, awayMap false (withDirs [dirOf none none] run), by decide +kernel⟩,
   ⟨1, 0, { dirtyR none none with marked := true }, mapped [{ dirtyR none none with marked := true }] [], by decide +kernel⟩,
   ⟨1, 0, dirtyR none none, mapped [dirtyR none none] [], by decide +kernel⟩,
   ⟨slot0, { run with map := { run.map with replaying := [slot0, slot0 + 1] } }, by decide +kernel⟩⟩

theorem test_witness_IoCommands :
    (∃ (id : Nat) (c : Cmd) (st : Status) (s : State), (findCmd s id = some c) ∧ (c.phase = .admitted) ∧ ((ioRefusal s c = some st ∨
      (ioRefusal s c = none ∧ lengthFault s c = some st ∧ (c.cap.op = .read ∨ c.cap.op = .write ∨ c.cap.op = .compare)))) ∧
      (c.cap.op = .read)) ∧
    (∃ (id : Nat) (c : Cmd) (st : Status) (s : State), (findCmd s id = some c) ∧ (c.phase = .admitted) ∧ ((ioRefusal s c = some st ∨
      (ioRefusal s c = none ∧ lengthFault s c = some st ∧ (c.cap.op = .read ∨ c.cap.op = .write ∨ c.cap.op = .compare)))) ∧
      (c.cap.op = .write)) ∧
    (∃ (id : Nat) (c : Cmd) (st : Status) (s : State), (findCmd s id = some c) ∧ (c.phase = .admitted) ∧ ((ioRefusal s c = some st ∨
      (ioRefusal s c = none ∧ lengthFault s c = some st ∧ (c.cap.op = .read ∨ c.cap.op = .write ∨ c.cap.op = .compare)))) ∧
      (c.cap.op = .compare)) ∧
    (∃ (id : Nat) (c : Cmd) (st : Status) (s : State), (findCmd s id = some c) ∧ (c.phase = .admitted) ∧ ((ioRefusal s c = some st ∨
      (ioRefusal s c = none ∧ lengthFault s c = some st ∧ (c.cap.op = .read ∨ c.cap.op = .write ∨ c.cap.op = .compare)))) ∧
      (c.cap.op = .flush)) ∧
    (∃ (id : Nat) (c : Cmd) (st : Status) (s : State), (findCmd s id = some c) ∧ (c.phase = .admitted) ∧ ((ioRefusal s c = some st ∨
      (ioRefusal s c = none ∧ lengthFault s c = some st ∧ (c.cap.op = .read ∨ c.cap.op = .write ∨ c.cap.op = .compare)))) ∧
      (c.cap.op = .verify)) ∧
    (∃ (id : Nat) (c : Cmd) (st : Status) (s : State), (findCmd s id = some c) ∧ (c.phase = .admitted) ∧ ((ioRefusal s c = some st ∨
      (ioRefusal s c = none ∧ lengthFault s c = some st ∧ (c.cap.op = .read ∨ c.cap.op = .write ∨ c.cap.op = .compare)))) ∧ ∃ b,
      (c.cap.op = .writeZeroes b)) ∧
    (∃ (id : Nat) (c : Cmd) (st : Status) (s : State), (findCmd s id = some c) ∧ (c.phase = .admitted) ∧ ((ioRefusal s c = some st ∨
      (ioRefusal s c = none ∧ lengthFault s c = some st ∧ (c.cap.op = .read ∨ c.cap.op = .write ∨ c.cap.op = .compare)))) ∧ ∃ b
      rs, (c.cap.op = .datasetManagement b rs)) ∧
    (∃ (id : Nat) (c : Cmd) (s : State), (findCmd s id = some c) ∧ (c.phase = .admitted) ∧ (c.cap.op = .read) ∧ (ioRefusal s c = none)
      ∧ (lengthFault s c = none) ∧ (reserveFor c s = none)) ∧
    (∃ (id : Nat) (c : Cmd) (s : State), (findCmd s id = some c) ∧ (c.phase = .admitted) ∧ (c.cap.op = .read) ∧ (ioRefusal s c = none)
      ∧ (lengthFault s c = none) ∧ ∃ s1, (reserveFor c s = some s1) ∧ (mayMap s1 c = true) ∧ (1 ≤ c.cap.nlb)) ∧
    (∃ (id : Nat) (c : Cmd) (s : State), (findCmd s id = some c) ∧ (c.phase = .admitted) ∧ (c.cap.op = .read) ∧ (ioRefusal s c = none)
      ∧ (lengthFault s c = none) ∧ ∃ s1, (reserveFor c s = some s1) ∧ (mayMap s1 c = false)) ∧
    (∃ (id : Nat) (c : Cmd) (s : State), (findCmd s id = some c) ∧ (c.phase = .admitted) ∧ (c.cap.op = .verify) ∧ (ioRefusal s c =
      none) ∧ (1 ≤ c.cap.nlb) ∧ (mayMap s c = true)) ∧
    (∃ (id : Nat) (c : Cmd) (s : State), (findCmd s id = some c) ∧ (c.phase = .admitted) ∧ (c.cap.op = .verify) ∧ (ioRefusal s c =
      none) ∧ (1 ≤ c.cap.nlb) ∧ (mayMap s c = false)) ∧
    (∃ (id : Nat) (c : Cmd) (g : Eg) (s : State), (findCmd s id = some c) ∧ (c.phase = .admitted) ∧ (c.cap.op = .write) ∧ (ioRefusal s
      c = none) ∧ (lengthFault s c = none) ∧ (egOf s c.cap.nsid = some g) ∧ (g.stalemate = true)) ∧
    (∃ (id : Nat) (c : Cmd) (g : Eg) (s : State), (findCmd s id = some c) ∧ (c.phase = .admitted) ∧ (c.cap.op = .write) ∧ (ioRefusal s
      c = none) ∧ (lengthFault s c = none) ∧ (egOf s c.cap.nsid = some g) ∧ (g.stalemate = false) ∧ (writesHeld s g.id = true)) ∧
    (∃ (id : Nat) (c : Cmd) (g : Eg) (s : State), (findCmd s id = some c) ∧ (c.phase = .admitted) ∧ (c.cap.op = .write) ∧ (ioRefusal s
      c = none) ∧ (lengthFault s c = none) ∧ (egOf s c.cap.nsid = some g) ∧ (g.stalemate = false) ∧ (writesHeld s g.id = false) ∧
      (chargeWrite c s = none)) ∧
    (∃ (id : Nat) (c : Cmd) (g : Eg) (s : State), (findCmd s id = some c) ∧ (c.phase = .admitted) ∧ (c.cap.op = .write) ∧ (ioRefusal s
      c = none) ∧ (lengthFault s c = none) ∧ (egOf s c.cap.nsid = some g) ∧ ∃ s1 s2, (g.stalemate = false) ∧ (writesHeld s g.id =
      false) ∧ (chargeWrite c s = some s1) ∧ (reserveFor c s1 = some s2)) ∧
    (∃ (id : Nat) (c : Cmd) (g : Eg) (s : State), (findCmd s id = some c) ∧ (c.phase = .admitted) ∧ (c.cap.op = .write) ∧ (ioRefusal s
      c = none) ∧ (lengthFault s c = none) ∧ (egOf s c.cap.nsid = some g) ∧ ∃ s1, (g.stalemate = false) ∧ (writesHeld s g.id =
      false) ∧ (chargeWrite c s = some s1) ∧ (reserveFor c s1 = none)) ∧
    (∃ (id : Nat) (c : Cmd) (s : State), (findCmd s id = some c) ∧ (c.phase = .dataFetch) ∧ (c.cap.op = .write) ∧ (dataLen c.cap ≤
      c.data.length)) ∧
    (∃ (id : Nat) (c : Cmd) (s : State), (findCmd s id = some c) ∧ (c.phase = .admitted) ∧ (c.cap.op = .compare) ∧ (ioRefusal s c =
      none) ∧ (lengthFault s c = none) ∧ (reserveFor c s = none)) ∧
    (∃ (id : Nat) (c : Cmd) (s : State), (findCmd s id = some c) ∧ (c.phase = .admitted) ∧ (c.cap.op = .compare) ∧ (ioRefusal s c =
      none) ∧ (lengthFault s c = none) ∧ ∃ s1, (reserveFor c s = some s1)) ∧
    (∃ (id : Nat) (c : Cmd) (s : State), (findCmd s id = some c) ∧ (c.phase = .admitted) ∧ (c.cap.op = .flush) ∧ (ioRefusal s c =
      none) ∧ (mayMap s c = false)) ∧
    (∃ (id : Nat) (c : Cmd) (s : State), (findCmd s id = some c) ∧ (c.phase = .admitted) ∧ (c.cap.op = .flush) ∧ (ioRefusal s c =
      none) ∧ (mayMap s c = true) ∧ (s.plp.writeThrough = false)) ∧
    (∃ (id : Nat) (c : Cmd) (s : State), (findCmd s id = some c) ∧ (c.phase = .admitted) ∧ (c.cap.op = .flush) ∧ (ioRefusal s c =
      none) ∧ (mayMap s c = true) ∧ (s.plp.writeThrough = true)) ∧
    (∃ (cntlid q : Nat) (cap : Capsule) (s : State), (cap.op = .flush)) ∧
    (∃ (id : Nat) (c : Cmd) (s : State), (findCmd s id = some c) ∧ (c.phase = .draining) ∧ (c.cap.op = .flush)) ∧
    (∃ (id : Nat) (c : Cmd) (g : Eg) (b : Bool) (s : State), (findCmd s id = some c) ∧ (c.phase = .admitted) ∧ (c.cap.op =
      .writeZeroes b) ∧ (ioRefusal s c = none) ∧ (egOf s c.cap.nsid = some g) ∧ (g.stalemate = true)) ∧
    (∃ (id : Nat) (c : Cmd) (g : Eg) (b : Bool) (s : State), (findCmd s id = some c) ∧ (c.phase = .admitted) ∧ (c.cap.op =
      .writeZeroes b) ∧ (ioRefusal s c = none) ∧ (egOf s c.cap.nsid = some g) ∧ (g.stalemate = false) ∧ (b = false) ∧ (chargeWrite
      c s = none)) ∧
    (∃ (id : Nat) (c : Cmd) (g : Eg) (b : Bool) (s : State), (findCmd s id = some c) ∧ (c.phase = .admitted) ∧ (c.cap.op =
      .writeZeroes b) ∧ (ioRefusal s c = none) ∧ (egOf s c.cap.nsid = some g) ∧ ∃ s1 q s2, (g.stalemate = false) ∧ (b = false) ∧
      (chargeWrite c s = some s1) ∧ (takeSeqs c.tile 1 s1 = some ([q], s2))) ∧
    (∃ (id : Nat) (c : Cmd) (g : Eg) (b : Bool) (s : State), (findCmd s id = some c) ∧ (c.phase = .admitted) ∧ (c.cap.op =
      .writeZeroes b) ∧ (ioRefusal s c = none) ∧ (egOf s c.cap.nsid = some g) ∧ (g.stalemate = false) ∧ (b = true) ∧ (1 ≤
      c.cap.nlb) ∧ (((nsOf s c.cap.nsid).map (·.secure)).getD false = false)) ∧
    (∃ (id : Nat) (c : Cmd) (rs : List (Nat × Nat)) (s : State), (findCmd s id = some c) ∧ (c.phase = .admitted) ∧ (c.cap.op =
      .datasetManagement true rs) ∧ (ioRefusal s c = none) ∧ (lengthFault s c = none) ∧ (((nsOf s c.cap.nsid).map (·.secure)).getD
      false = false)) ∧
    (∃ (id : Nat) (c : Cmd) (rs : List (Nat × Nat)) (s : State), (findCmd s id = some c) ∧ (c.phase = .admitted) ∧ (c.cap.op =
      .datasetManagement true rs) ∧ (ioRefusal s c = none) ∧ (lengthFault s c = none) ∧ ∃ s1, (((nsOf s c.cap.nsid).map
      (·.secure)).getD false = true) ∧ (openSweep c rs s = some s1)) ∧
    (∃ (id : Nat) (c : Cmd) (rs : List (Nat × Nat)) (s : State), (findCmd s id = some c) ∧ (c.phase = .admitted) ∧ (c.cap.op =
      .datasetManagement true rs) ∧ (ioRefusal s c = none) ∧ (lengthFault s c = none) ∧ (((nsOf s c.cap.nsid).map (·.secure)).getD
      false = true) ∧ (openSweep c rs s = none)) ∧
    (∃ (id : Nat) (c : Cmd) (rs : List (Nat × Nat)) (s : State), (findCmd s id = some c) ∧ (c.phase = .admitted) ∧ (c.cap.op =
      .datasetManagement false rs) ∧ (ioRefusal s c = none) ∧ (lengthFault s c = none) ∧ (mayMap s c = true)) ∧
    (∃ (id : Nat) (s : State), ((∀ c, findCmd s id = some c → c.phase ≠ .admitted ∧ c.phase ≠ .dataFetch))) :=
  ⟨⟨1, ioCmd .read .admitted, .invalidNamespaceOrFormat, ctrled [ioCmd .read .admitted] run, by decide +kernel⟩,
   ⟨1, ioCmd .write .admitted, .invalidNamespaceOrFormat, ctrled [ioCmd .write .admitted] run, by decide +kernel⟩,
   ⟨1, noData .compare .admitted, .dataSglLengthInvalid, ioOf (noData .compare .admitted) run, by decide +kernel⟩,
   ⟨1, ioCmd .flush .admitted, .invalidNamespaceOrFormat, ctrled [ioCmd .flush .admitted] run, by decide +kernel⟩,
   ⟨1, ioCmd .verify .admitted, .invalidNamespaceOrFormat, ctrled [ioCmd .verify .admitted] run, by decide +kernel⟩,
   ⟨1, ioCmd (.writeZeroes false) .admitted, .invalidNamespaceOrFormat, ctrled [ioCmd (.writeZeroes false) .admitted] run,
    by decide +kernel, by decide +kernel, by decide +kernel, false, by decide +kernel⟩,
   ⟨1, ioCmd (.datasetManagement true [(4096, 1)]) .admitted, .lbaOutOfRange, ioOf (ioCmd (.datasetManagement true [(4096, 1)])
    .admitted) run, by decide +kernel, by decide +kernel, by decide +kernel, true, [(4096, 1)], by decide +kernel⟩,
   ⟨1, ioCmd .read .admitted, ioOf (ioCmd .read .admitted) run, by decide +kernel⟩,
   ⟨1, ioCmd .read .admitted, ioOf (ioCmd .read .admitted) pooled, by decide +kernel, by decide +kernel, by decide +kernel,
    by decide +kernel, by decide +kernel, (reserveFor (ioCmd .read .admitted) (ioOf (ioCmd .read .admitted) pooled)).getD run,
    by decide +kernel, by decide +kernel, by decide +kernel⟩,
   ⟨2, { ioCmd .read .admitted with id := 2 }, behind (ioCmd .read .admitted) (ioOf (ioCmd .read .admitted) pooled),
    by decide +kernel, by decide +kernel, by decide +kernel, by decide +kernel, by decide +kernel, (reserveFor
    { ioCmd .read .admitted with id := 2 } (behind (ioCmd .read .admitted) (ioOf (ioCmd .read .admitted) pooled))).getD run,
    by decide +kernel, by decide +kernel⟩,
   ⟨1, ioCmd .verify .admitted, ioOf (ioCmd .verify .admitted) run, by decide +kernel⟩,
   ⟨2, { ioCmd .verify .admitted with id := 2 }, behind (ioCmd .verify .admitted) (ioOf (ioCmd .verify .admitted) run),
    by decide +kernel⟩,
   ⟨1, ioCmd .write .admitted, { egAt 1 with stalemate := true }, stopped (ioOf (ioCmd .write .admitted) run), by decide +kernel⟩,
   ⟨1, ioCmd .write .admitted, egAt 1, heldEg (ioOf (ioCmd .write .admitted) run), by decide +kernel⟩,
   ⟨1, ioCmd .write .admitted, egAt 1, tightNs (ioOf (ioCmd .write .admitted) run), by decide +kernel⟩,
   ⟨1, ioCmd .write .admitted, egAt 1, ioOf (ioCmd .write .admitted) pooled3, by decide +kernel, by decide +kernel,
    by decide +kernel, by decide +kernel, by decide +kernel, by decide +kernel, (chargeWrite (ioCmd .write .admitted) (ioOf (ioCmd
    .write .admitted) pooled3)).getD run, (reserveFor (ioCmd .write .admitted) ((chargeWrite (ioCmd .write .admitted) (ioOf (ioCmd
    .write .admitted) pooled3)).getD run)).getD run, by decide +kernel, by decide +kernel, by decide +kernel, by decide +kernel⟩,
   ⟨1, ioCmd .write .admitted, egAt 1, ioOf (ioCmd .write .admitted) run, by decide +kernel, by decide +kernel, by decide +kernel,
    by decide +kernel, by decide +kernel, by decide +kernel, (chargeWrite (ioCmd .write .admitted) (ioOf (ioCmd .write .admitted)
    run)).getD run, by decide +kernel, by decide +kernel, by decide +kernel, by decide +kernel⟩,
   ⟨1, zeroWrite, seqReady (ioOf zeroWrite run), ⟨rfl, rfl, rfl, (List.length_replicate ..).symm ▸ Nat.le_refl 4096⟩⟩,
   ⟨1, ioCmd .compare .admitted, ioOf (ioCmd .compare .admitted) run, by decide +kernel⟩,
   ⟨1, ioCmd .compare .admitted, ioOf (ioCmd .compare .admitted) pooled, by decide +kernel, by decide +kernel, by decide +kernel,
    by decide +kernel, by decide +kernel, (reserveFor (ioCmd .compare .admitted) (ioOf (ioCmd .compare .admitted) pooled)).getD
    run, by decide +kernel⟩,
   ⟨2, { ioCmd .flush .admitted with id := 2 }, behind (ioCmd .flush .admitted) (ioOf (ioCmd .flush .admitted) run),
    by decide +kernel⟩,
   ⟨1, ioCmd .flush .admitted, ioOf (ioCmd .flush .admitted) run, by decide +kernel⟩,
   ⟨1, ioCmd .flush .admitted, wt (withExts [extOf 5 .confirmed] (ioOf (ioCmd .flush .admitted) run)), by decide +kernel⟩,
   ⟨1, 1, capAt .flush 1 0 1, run, by decide +kernel⟩,
   ⟨1, ioCmd .flush .draining, ioOf (ioCmd .flush .draining) run, by decide +kernel⟩,
   ⟨1, ioCmd (.writeZeroes false) .admitted, { egAt 1 with stalemate := true }, false, stopped (ioOf (ioCmd (.writeZeroes false)
    .admitted) run), by decide +kernel⟩,
   ⟨1, ioCmd (.writeZeroes false) .admitted, egAt 1, false, tightNs (ioOf (ioCmd (.writeZeroes false) .admitted) run),
    by decide +kernel⟩,
   ⟨1, ioCmd (.writeZeroes false) .admitted, egAt 1, false, seqReady (ioOf (ioCmd (.writeZeroes false) .admitted) run),
    by decide +kernel, by decide +kernel, by decide +kernel, by decide +kernel, by decide +kernel, (chargeWrite (ioCmd
    (.writeZeroes false) .admitted) (seqReady (ioOf (ioCmd (.writeZeroes false) .admitted) run))).getD run, 5, ((takeSeqs 0 1
    ((chargeWrite (ioCmd (.writeZeroes false) .admitted) (seqReady (ioOf (ioCmd (.writeZeroes false) .admitted) run))).getD
    run)).getD ([], run)).2, by decide +kernel, by decide +kernel, by decide +kernel, by decide +kernel⟩,
   ⟨1, ioCmd (.writeZeroes true) .admitted, egAt 1, true, ioOf (ioCmd (.writeZeroes true) .admitted) run, by decide +kernel⟩,
   ⟨1, dsm true, [(0, 5), (9, 0)], ioOf (dsm true) run, by decide +kernel⟩,
   ⟨1, dsm true, [(0, 5), (9, 0)], secureNs (ioOf (dsm true) run), by decide +kernel, by decide +kernel, by decide +kernel,
    by decide +kernel, by decide +kernel, (openSweep (dsm true) [(0, 5), (9, 0)] (secureNs (ioOf (dsm true) run))).getD run,
    by decide +kernel, by decide +kernel⟩,
   ⟨1, dsm true, [(0, 5), (9, 0)], secureNs (withSweeps ((List.range 16).map fun k => sweepOf (k + 1) 2 none) (ioOf (dsm true) run)),
    by decide +kernel⟩,
   ⟨1, dsm false, [(0, 5), (9, 0)], ioOf (dsm false) run, by decide +kernel⟩,
   ⟨1, run, fun x h => by cases h⟩⟩

theorem test_witness_StagingAndMirrors :
    (∃ (q : Nat) (e : Ext) (s : State), (findExt s q = some e) ∧ (e.stage = .sent) ∧ (stagingRoom s (memberTile s e) e.len = true)) ∧
    (∃ (q : Nat) (e : Ext) (s : State), (findExt s q = some e) ∧ (e.stage = .sent) ∧ (stagingRoom s (memberTile s e) e.len = false)) ∧
    (∃ (q : Nat) (e : Ext) (s : State), (findExt s q = some e) ∧ ∃ c, (e.stage = .sent) ∧ (findCmd s e.cmd = some c)) ∧
    (∃ (q : Nat) (e : Ext) (s : State), (findExt s q = some e) ∧ (e.stage ≠ .sent)) ∧
    (∃ (q : Nat) (e : Ext) (s : State), (findExt s q = some e) ∧ (e.stage = .member)) ∧
    (∃ (q : Nat) (e : Ext) (s : State), (findExt s q = some e) ∧ (e.stage = .bothHeld ∨ e.stage = .confirmed) ∧ (e.mirrorHeld =
      false)) ∧
    (∃ (q : Nat) (e : Ext) (s : State), (findExt s q = some e) ∧ (e.stage = .toPlace ∨ e.stage = .sent ∨ e.stage = .closed)) ∧
    (∃ (q : Nat) (e : Ext) (s : State), (findExt s q = some e)) ∧
    (∃ (q : Nat) (e : Ext) (s : State), (findExt s q = some e) ∧ (e.stage = .bothHeld)) ∧
    (∃ (q : Nat) (e : Ext) (s : State), (findExt s q = some e) ∧ (e.stage ≠ .bothHeld)) ∧
    (∃ (q : Nat) (s : State), (findExt s q = none)) ∧
    (∃ (id : Nat) (c : Cmd) (s : State), (findCmd s id = some c) ∧ (c.phase = .staging) ∧ (allStaged s c = true) ∧ (mayMap s c = true)
      ∧ (planRegions s c.cap.nsid c.plan ≠ [])) :=
  ⟨⟨5, extOf 5 .sent, staged .sent false, by decide +kernel⟩,
   ⟨5, extOf 5 .sent, noRoom (staged .sent false), by decide +kernel⟩,
   ⟨5, extOf 5 .sent, ctrled [stagedCmd] (staged .sent false), by decide +kernel, stagedCmd, by decide +kernel, by decide +kernel⟩,
   ⟨5, extOf 5 .member, staged .member false, by decide +kernel⟩,
   ⟨5, extOf 5 .member, staged .member false, by decide +kernel⟩,
   ⟨5, extOf 5 .confirmed, staged .confirmed false, by decide +kernel⟩,
   ⟨5, extOf 5 .sent, staged .sent false, by decide +kernel⟩,
   ⟨5, extOf 5 .sent, staged .sent false, by decide +kernel⟩,
   ⟨5, { extOf 5 .bothHeld with mirrorHeld := true }, staged .bothHeld true, by decide +kernel⟩,
   ⟨5, { extOf 5 .mirrored with mirrorHeld := true }, staged .mirrored true, by decide +kernel⟩,
   ⟨5, run, by decide +kernel⟩,
   ⟨1, stagedCmd, ctrled [stagedCmd] run, by decide +kernel⟩⟩

theorem test_witness_RowsOfAGroup :
    (∃ (t sg : Nat) (st : Stream) (blank : List Nat) (r : Row) (v : RUnit) (s : State), (fillingRow s sg st = some r) ∧ (nextUnit r =
      some v) ∧ ((heldUnits s t st).length < 2) ∧ ((∀ x, x ∈ heldUnits s t st → x.1.sg ≠ sg)) ∧ (s.tfld t .plc_cfg_plc_enable = 1)
      ∧ ((hostOnly st = true → hostGroup s sg = true))) ∧
    (∃ (t sg : Nat) (st : Stream) (blank : List Nat) (s : State), (2 ≤ (heldUnits s t st).length ∨ s.tfld t .plc_cfg_plc_enable ≠ 1 ∨
      (hostOnly st = true ∧ hostGroup s sg = false))) ∧
    (∃ (t sg m : Nat) (st : Stream) (r : Row) (s : State), (fillingRow s sg st = some r) ∧ ((∃ v, v ∈ r.units ∧ v.member = m ∧
      v.holder = some t ∧ v.returned = false))) ∧
    (∃ (t sg m : Nat) (st : Stream) (r : Row) (s : State), (fillingRow s sg st = some r) ∧ (r.timer = true)) ∧
    (∃ (t sg m : Nat) (st : Stream) (r : Row) (s : State), (fillingRow s sg st = some r) ∧ (r.timer = false)) ∧
    (∃ (t sg m : Nat) (st : Stream) (s : State), (fillingRow s sg st = none)) ∧
    (∃ (sg b i : Nat) (r : Row) (s : State), (findRow s sg b i = some r) ∧ (r.state = .filling) ∧ ((r.expired = true ∨ ∀ v, v ∈
      r.units → v.returned = true)) ∧ (rowSettled s r = true)) ∧
    (∃ (sg b i : Nat) (r : Row) (s : State), (findRow s sg b i = some r) ∧ (r.state ≠ .filling ∨ rowSettled s r = false ∨ (r.expired =
      false ∧ ∃ v, v ∈ r.units ∧ v.returned = false))) ∧
    (∃ (sg b i m : Nat) (r : Row) (s : State), (findRow s sg b i = some r) ∧ (r.state = .closed) ∧ (m ∉ r.parity) ∧ (m < dataUnits s
      sg) ∧ (r.parity.length + 1 < dataUnits s sg)) ∧
    (∃ (sg b i m : Nat) (r : Row) (s : State), (findRow s sg b i = some r) ∧ (r.state = .closed) ∧ (m ∉ r.parity) ∧ (m < dataUnits s
      sg) ∧ (r.parity.length + 1 = dataUnits s sg)) ∧
    (∃ (sg b i m : Nat) (r : Row) (s : State), (findRow s sg b i = some r) ∧
        (let d := rowUnit s r m; ∃ e, (r.state ≠ .closed ∨ m ∈ r.parity ∨ dataUnits s sg ≤ m ∨ e ≠ d))) ∧
    (∃ (sg b i : Nat) (r : Row) (x : Band) (s : State), (findRow s sg b i = some r) ∧ (findBand s sg b = some x) ∧ (r.state =
      .programming) ∧ (membersDone s r = true) ∧ (r.settled = true)) ∧
    (∃ (sg b i : Nat) (r : Row) (x : Band) (s : State), (findRow s sg b i = some r) ∧ (findBand s sg b = some x) ∧ (r.state ≠
      .programming ∨ membersDone s r = false ∨ r.settled = false)) ∧
    (∃ (sg b i m : Nat) (r : Row) (x : Band) (s : State), (findRow s sg b i = some r) ∧ (findBand s sg b = some x) ∧ (r.state =
      .programming)) ∧
    (∃ (sg b i m : Nat) (r : Row) (x : Band) (s : State), (findRow s sg b i = some r) ∧ (findBand s sg b = some x) ∧ (r.state ≠
      .programming)) ∧
    (∃ (sg : Nat) (st : Stream) (b : Band) (s : State), ((∃ r, r ∈ s.wr.rows ∧ r.sg = sg ∧ r.stream = st ∧ r.state = .programming ∧
      r.settled = false)) ∧ (fillingRow s sg st = none) ∧ (openBand s sg st = some b) ∧ (findBand s sg b.idx = some b) ∧
      (b.nextRow < rowsPerBand s) ∧ (findRow s sg b.idx b.nextRow = none) ∧ ((∀ e, e ∈ s.wr.exts → e.sg = sg → e.band = b.idx →
      e.row ≠ b.nextRow))) ∧
    (∃ (sg : Nat) (st : Stream) (s : State), ((∀ r, r ∈ s.wr.rows → r.sg = sg → r.stream = st → r.state = .programming → r.settled =
      true) ∨ (fillingRow s sg st).isSome = true ∨ openBand s sg st = none)) :=
  ⟨⟨0, 0, .hostQlc, [], rowAt .filling [unitOf 0 none false, unitOf 1 none false], unitOf 0 none false, rowed (rowAt .filling [unitOf
    0 none false, unitOf 1 none false]), by decide +kernel⟩,
   ⟨0, 0, .hostQlc, [], withDesc (grouped run), by decide +kernel⟩,
   ⟨0, 0, 1, .hostQlc, rowAt .filling [unitOf 0 none true, unitOf 1 (some 0) false], rowed (rowAt .filling [unitOf 0 none true,
    unitOf 1 (some 0) false]), by decide +kernel⟩,
   ⟨0, 0, 1, .hostQlc, { rowAt .filling [unitOf 0 none true, unitOf 1 (some 0) false] with timer := true }, rowed
    { rowAt .filling [unitOf 0 none true, unitOf 1 (some 0) false] with timer := true }, by decide +kernel⟩,
   ⟨0, 0, 1, .hostQlc, rowAt .filling [unitOf 0 none true], rowed (rowAt .filling [unitOf 0 none true]), by decide +kernel⟩,
   ⟨0, 0, 1, .hostQlc, rowed (rowAt .closed []), by decide +kernel⟩,
   ⟨0, 0, 0, rowAt .filling [unitOf 0 none true, unitOf 1 none true], rowed (rowAt .filling [unitOf 0 none true, unitOf 1 none
    true]), by decide +kernel⟩,
   ⟨0, 0, 0, rowAt .filling [unitOf 0 none true, unitOf 1 (some 0) false], rowed (rowAt .filling [unitOf 0 none true, unitOf 1 (some
    0) false]), by decide +kernel⟩,
   ⟨0, 0, 0, 0, rowAt .closed [], rowed (rowAt .closed []), by decide +kernel⟩,
   ⟨0, 0, 0, 1, { rowAt .closed [] with parity := [0] }, rowed { rowAt .closed [] with parity := [0] }, by decide +kernel⟩,
   ⟨0, 0, 0, 0, rowAt .closed [], rowed (rowAt .closed []), by decide +kernel, [1], by decide +kernel⟩,
   ⟨0, 0, 0, doneRow, { bandOf 0 0 .open with blocks := [1, 2, 3, 4] }, rowed doneRow, by decide +kernel⟩,
   ⟨0, 0, 0, { doneRow with settled := false }, { bandOf 0 0 .open with blocks := [1, 2, 3, 4] }, rowed
    { doneRow with settled := false }, by decide +kernel⟩,
   ⟨0, 0, 0, 1, rowAt .programming [], { bandOf 0 0 .open with blocks := [1, 2, 3, 4] }, rowed (rowAt .programming []),
    by decide +kernel⟩,
   ⟨0, 0, 0, 1, rowAt .closed [], { bandOf 0 0 .open with blocks := [1, 2, 3, 4] }, rowed (rowAt .closed []), by decide +kernel⟩,
   ⟨0, .hostQlc, { bandOf 0 0 .open with blocks := [1, 2, 3, 4], nextRow := 1 }, padReady, by decide +kernel⟩,
   ⟨0, .hostQlc, rowed (rowAt .filling []), by decide +kernel⟩⟩

theorem test_witness_LeasesAndPromotion :
    (∃ (t : Nat) (s : State),
        (let l := seqLease s t; (l.more = none) ∧ (l.last ≤ l.next + 2048))) ∧
    (∃ (t : Nat) (s : State),
        (let l := seqLease s t; (l.more.isSome = true ∨ l.next + 2048 < l.last))) ∧
    (∃ (t n : Nat) (x : Ns) (s : State), (nsOf s n = some x) ∧ (8 * 65536 ≤ headroom s n)) ∧
    (∃ (t n : Nat) (x : Ns) (s : State), (nsOf s n = some x) ∧ (headroom s n < 8 * 65536)) ∧
    (∃ (t n : Nat) (s : State), (nsOf s n = none)) ∧
    (∃ (sg : Nat) (b : Band) (s : State), (oldestSlcBand s sg = some b) ∧ (findBand s sg b.idx = some b) ∧ ((∀ x, x ∈ s.red.substs →
      x.sg = sg → x.band = b.idx → x.done = true))) ∧
    (∃ (sg : Nat) (s : State), (oldestSlcBand s sg = none)) :=
  ⟨⟨0, run, by decide +kernel⟩,
   ⟨0, { run with wr := { run.wr with leases := [{ tile := 0, next := 0, last := 2049, more := none }] } }, by decide +kernel⟩,
   ⟨0, 1, bigNs, { run with reg := { run.reg with nss := [bigNs] } }, by decide +kernel⟩,
   ⟨0, 1, nsAt 1 .ready, withNs .ready run, by decide +kernel⟩,
   ⟨0, 1, run, by decide +kernel⟩,
   ⟨0, { bandOf 0 0 .sealed with slc := true }, slcBand true, by decide +kernel⟩,
   ⟨0, slcBand false, by decide +kernel⟩⟩

theorem test_witness_ChannelTraining :
    (∃ (t v : Nat) (s : State), (t ≠ pkgWin) ∧ (regOpen s t = true) ∧ (bitOf v 0 = true) ∧ (s.tfld t .med_cfg_med_enable = 0) ∧
        (let s0 := writeCfg t .medCfg (v - 1) s; (orderHolds s0 t .med_cfg_med_enable = false))) ∧
    (∃ (t v : Nat) (s : State), (t ≠ pkgWin) ∧ (regOpen s t = true) ∧ (bitOf v 0 = true) ∧ (s.tfld t .med_cfg_med_enable = 0) ∧
        (let s0 := writeCfg t .medCfg (v - 1) s; (orderHolds s0 t .med_cfg_med_enable = true) ∧ (descOk s0 t = false ∨ descSame s0 t = false))) ∧
    (∃ (t v : Nat) (s : State), (t ≠ pkgWin) ∧ (regOpen s t = true) ∧ (bitOf v 0 = true) ∧ (s.tfld t .med_cfg_med_enable = 0) ∧
        (let s0 := writeCfg t .medCfg (v - 1) s; (orderHolds s0 t .med_cfg_med_enable = true) ∧ (descOk s0 t = true) ∧ (descSame s0 t = true))) ∧
    (∃ (c : Nat) (ok : Bool) (found unexpected : List Nat) (bad : List (Nat × Nat)) (x : Chan) (s : State), (findChan s c = some x) ∧
      (x.state ≠ .training)) ∧
    (∃ (c : Nat) (ok : Bool) (found unexpected : List Nat) (bad : List (Nat × Nat)) (x : Chan) (s : State), (findChan s c = some x) ∧
      (x.state = .training) ∧ (x.rate ≤ 1)) ∧
    (∃ (c : Nat) (ok : Bool) (found unexpected : List Nat) (bad : List (Nat × Nat)) (x : Chan) (s : State), (findChan s c = some x) ∧
      (x.state = .training) ∧ (1 < x.rate)) ∧
    (∃ (c : Nat) (ok : Bool) (found unexpected : List Nat) (bad : List (Nat × Nat)) (x : Chan) (s : State), (findChan s c = some x) ∧
      (x.state = .training) ∧ (x.step < 6) ∧ (x.step ≠ 2)) ∧
    (∃ (c : Nat) (ok : Bool) (found unexpected : List Nat) (bad : List (Nat × Nat)) (x : Chan) (s : State), (findChan s c = some x) ∧
      (x.state = .training) ∧ (x.step = 2)) ∧
    (∃ (c : Nat) (ok : Bool) (found unexpected : List Nat) (bad : List (Nat × Nat)) (x : Chan) (s : State), (findChan s c = some x) ∧
      (x.state = .training) ∧ (x.step = 6)) ∧
    (∃ (c margin l : Nat) (x : Chan) (s : State), (findChan s c = some x) ∧ (x.state = .up) ∧ (x.loads[x.turn % max 1 x.loads.length]?
      = some l)) ∧
    (∃ (c margin l : Nat) (x : Chan) (s : State), (findChan s c = some x) ∧ (x.state = .up) ∧ ∃ at_, ((x.bursts.find? fun b => b.1 ==
      l) = some (l, at_)) ∧ (at_ + 4 * s.tfld (c / 8) .med_track_track_ms ≤ s.nowMs)) ∧
    (∃ (c margin l : Nat) (x : Chan) (s : State), (findChan s c = some x) ∧ (x.state = .up) ∧ ∃ at_, ((x.bursts.find? fun b => b.1 ==
      l) = some (l, at_)) ∧ (s.nowMs < at_ + 4 * s.tfld (c / 8) .med_track_track_ms)) ∧
    (∃ (c margin l : Nat) (x : Chan) (s : State), (findChan s c = some x) ∧ (x.state ≠ .up)) ∧
    (∃ (c : Nat) (trained : Bool) (x : Chan) (s : State), (findChan s c = some x) ∧ (x.state = .up ∨ x.state = .stepping) ∧ (1 <
      x.rate)) ∧
    (∃ (c : Nat) (trained : Bool) (x : Chan) (s : State), (findChan s c = some x) ∧ (x.state = .up ∨ x.state = .stepping) ∧ (x.rate ≤
      1)) ∧
    (∃ (c : Nat) (trained : Bool) (x : Chan) (s : State), (findChan s c = some x) ∧ (x.state ≠ .up) ∧ (x.state ≠ .stepping)) ∧
    (∃ (c : Nat) (trained : Bool) (x : Chan) (s : State), (findChan s c = some x) ∧ (x.state = .up) ∧ (x.pinned = false) ∧ (x.rate <
      x.limit) ∧ (x.lastDown + 3600000 ≤ s.nowMs)) ∧
    (∃ (c : Nat) (trained : Bool) (x : Chan) (s : State), (findChan s c = some x) ∧ (x.state ≠ .up ∨ x.pinned = true ∨ x.limit ≤
      x.rate ∨ s.nowMs < x.lastDown + 3600000)) :=
  ⟨⟨0, 1, run, by decide +kernel⟩,
   ⟨1, 1, setFlds [(1, 0, .bpm_cfg_bpm_enable, 1), (1, 0, .drc_cfg_drc_enable, 1)] goodDesc, by decide +kernel⟩,
   ⟨0, 1, goodDesc, by decide +kernel⟩,
   ⟨0, true, [], [], [], chAt .up 7 3, withChan (chAt .up 7 3) run, by decide +kernel⟩,
   ⟨0, true, [], [], [], chAt .training 5 1, withChan (chAt .training 5 1) run, by decide +kernel⟩,
   ⟨0, true, [], [], [], chAt .training 5 3, withChan (chAt .training 5 3) run, by decide +kernel⟩,
   ⟨0, true, [], [], [], chAt .training 1 3, withChan (chAt .training 1 3) run, by decide +kernel⟩,
   ⟨0, true, [0, 8], [3], [(8, 5)], chAt .training 2 3, withChan (chAt .training 2 3) run, by decide +kernel⟩,
   ⟨0, true, [], [], [], chAt .training 6 3, withChan (chAt .training 6 3) run, by decide +kernel⟩,
   ⟨0, 20, 0, chanOf 0 .up, withChan (chanOf 0 .up) run, by decide +kernel⟩,
   ⟨0, 20, 0, { chanOf 0 .up with bursts := [(0, 0)] }, burstCh 4000000, by decide +kernel, by decide +kernel, 0, by decide +kernel,
    by decide +kernel⟩,
   ⟨0, 20, 0, { chanOf 0 .up with bursts := [(0, 0)] }, setFlds [(0, 0, .med_track_track_ms, 5)] (burstCh 0), by decide +kernel,
    by decide +kernel, 0, by decide +kernel, by decide +kernel⟩,
   ⟨0, 20, 0, chAt .training 1 3, withChan (chAt .training 1 3) run, by decide +kernel⟩,
   ⟨0, true, chAt .up 7 3, withChan (chAt .up 7 3) run, by decide +kernel⟩,
   ⟨0, true, chAt .up 7 1, withChan (chAt .up 7 1) run, by decide +kernel⟩,
   ⟨0, true, chAt .failed 7 1, withChan (chAt .failed 7 1) run, by decide +kernel⟩,
   ⟨0, true, chAt .up 7 3, { withChan (chAt .up 7 3) run with nowMs := 3600000 }, by decide +kernel⟩,
   ⟨0, true, chAt .up 7 3, { withChan (chAt .up 7 3) run with nowMs := 3599999 }, by decide +kernel⟩⟩

theorem test_witness_DieOperations :
    (∃ (o : Nat) (x : DieOp) (s : State), (findOp s o = some x) ∧ (x.kind = .read) ∧ (x.state = .active) ∧ (x.use = .plain ∨ x.use =
      .copy)) ∧
    (∃ (o : Nat) (x : DieOp) (s : State), (findOp s o = some x) ∧ ∃ k, (x.kind = .read) ∧ (x.state = .active) ∧ (x.use = .recon k)) ∧
    (∃ (o : Nat) (x : DieOp) (s : State), (findOp s o = some x) ∧ (x.kind ≠ .read ∨ x.state ≠ .active)) ∧
    (∃ (o : Nat) (x : DieOp) (s : State), (findOp s o = some x) ∧ (x.kind = .read) ∧ (x.state = .waiting) ∧ (hostCls x.cls = true) ∧
      (1000 * x.since + s.tfld (tileOfDie x.die) .qe_suspend_wait_host_suspend_wait ≤ 1000 * s.nowMs + 999)) ∧
    (∃ (o : Nat) (x : DieOp) (s : State), (findOp s o = some x) ∧ (x.kind ≠ .read ∨ x.state ≠ .waiting ∨ hostCls x.cls = false)) ∧
    (∃ (o : Nat) (words : List (Bytes × Option Bytes)) (levels : List (Nat × Nat × Nat)) (s : State), ∃ x, (findOp s o = some x) ∧
      (x.state = .decoding)) ∧
    (∃ (o : Nat) (words : List (Bytes × Option Bytes)) (levels : List (Nat × Nat × Nat)) (s : State), ((∀ x, findOp s o = some x →
      x.state ≠ .decoding))) ∧
    (∃ (x : DieOp) (words : List (Bytes × Option Bytes)) (levels : List (Nat × Nat × Nat)) (s : State),
        (let ends (p : Nat × Nat) (e : CwEnd) : Prop := ∃ w, words[p.2]? = some w ∧ cwEnd (firstWord s x + 16 * p.1) w = e; ((∀ p, p ∈ x.left.zipIdx → ∃ g, ends p (.accepted g))) ∧ (headerless s x = false) ∧ (countedLost s x = false))) ∧
    (∃ (x : DieOp) (words : List (Bytes × Option Bytes)) (levels : List (Nat × Nat × Nat)) (s : State),
        (let ends (p : Nat × Nat) (e : CwEnd) : Prop := ∃ w, words[p.2]? = some w ∧ cwEnd (firstWord s x + 16 * p.1) w = e; ((∀ p, p ∈ x.left.zipIdx → ∃ g, ends p (.accepted g))) ∧ (headerless s x = false) ∧ (countedLost s x = true))) ∧
    (∃ (x : DieOp) (words : List (Bytes × Option Bytes)) (levels : List (Nat × Nat × Nat)) (s : State),
        (let ends (p : Nat × Nat) (e : CwEnd) : Prop := ∃ w, words[p.2]? = some w ∧ cwEnd (firstWord s x + 16 * p.1) w = e; ((∃ p, p ∈ x.left.zipIdx ∧ ends p .erased)))) ∧
    (∃ (x : DieOp) (words : List (Bytes × Option Bytes)) (levels : List (Nat × Nat × Nat)) (s : State),
        (let ends (p : Nat × Nat) (e : CwEnd) : Prop := ∃ w, words[p.2]? = some w ∧ cwEnd (firstWord s x + 16 * p.1) w = e; ((∀ p, p ∈ x.left.zipIdx → ¬ ends p .erased)) ∧ (headerless s x = false) ∧ ((∃ p, p ∈ x.left.zipIdx ∧ ends p .failed)))) ∧
    (∃ (x : DieOp) (s : State),
        (let t := tileOfDie x.die;
        (let retries := min (s.tfld t .ldpc_cfg_retry_max) (descByte s t 26); (x.step ≤ 2) ∧ (x.tries < retries)))) ∧
    (∃ (x : DieOp) (s : State),
        (let t := tileOfDie x.die;
        (let retries := min (s.tfld t .ldpc_cfg_retry_max) (descByte s t 26); (x.step ≤ 2) ∧ (retries ≤ x.tries)))) ∧
    (∃ (x : DieOp) (s : State),
        (let t := tileOfDie x.die; (x.step = 3) ∧ (s.tfld t .ldpc_cfg_soft_bits = 3))) ∧
    (∃ (x : DieOp) (s : State),
        (let t := tileOfDie x.die; (4 ≤ x.step ∨ (x.step = 3 ∧ s.tfld t .ldpc_cfg_soft_bits ≠ 3)))) ∧
    (∃ (o : Nat) (lost : List Nat) (data : Bytes) (x : DieOp) (s : State), (findOp s o = some x) ∧ (x.state ≠ .recon ∨ reconRead s o =
      false)) ∧
    (∃ (o : Nat) (lost : List Nat) (data : Bytes) (x : DieOp) (s : State), (findOp s o = some x) ∧ (x.state = .recon) ∧ (reconRead s o
      = true) ∧ (x.use = .plain) ∧
        (let away := (findGroup s x.sg).any fun g => g.state == .unavailable; (away = true))) ∧
    (∃ (o : Nat) (lost : List Nat) (data : Bytes) (x : DieOp) (s : State), (findOp s o = some x) ∧ (x.state = .recon) ∧ (reconRead s o
      = true) ∧ (x.use = .plain) ∧
        (let away := (findGroup s x.sg).any fun g => g.state == .unavailable; (away = false) ∧ ((∀ n, n ∈ lost → n ≤ 2)) ∧ (reconPasses s x data = true))) ∧
    (∃ (o : Nat) (lost : List Nat) (data : Bytes) (x : DieOp) (s : State), (findOp s o = some x) ∧ (x.state = .recon) ∧ (reconRead s o
      = true) ∧ (x.use = .plain) ∧
        (let away := (findGroup s x.sg).any fun g => g.state == .unavailable; (away = false) ∧ ((∀ n, n ∈ lost → n ≤ 2)) ∧ (reconPasses s x data = false))) ∧
    (∃ (o : Nat) (lost : List Nat) (data : Bytes) (x : DieOp) (s : State), (findOp s o = some x) ∧ (x.state = .recon) ∧ (reconRead s o
      = true) ∧ (x.use = .plain) ∧
        (let away := (findGroup s x.sg).any fun g => g.state == .unavailable; (away = false) ∧ ((∃ n, n ∈ lost ∧ 3 ≤ n)))) ∧
    (∃ (o : Nat) (lost : List Nat) (data : Bytes) (x : DieOp) (s : State), (findOp s o = some x) ∧ (x.state = .recon) ∧ (reconRead s o
      = true) ∧ (x.use = .rebuild)) ∧
    (∃ (o : Nat) (lost : List Nat) (data : Bytes) (s : State), (findOp s o = none)) ∧
    (∃ (x : DieOp) (lost : List Nat) (k n : Nat) (s : State), (lost[k]? = some n) ∧ (3 ≤ n)) ∧
    (∃ (sg b i m : Nat) (final : Bool) (r : Row) (o : DieOp) (s : State), (findRow s sg b i = some r) ∧ (r.state = .programming) ∧ (m
      < memberCount s sg) ∧ (m ∉ r.done) ∧ ((s.media.ops.find? fun o => o.kind == .program && o.sg == sg && o.band == b && o.row
      == i && o.member == m && o.fine == final) = some o)) ∧
    (∃ (sg b i m : Nat) (final : Bool) (r : Row) (s : State), (findRow s sg b i = some r) ∧ (r.state ≠ .programming ∨ m ∈ r.done)) ∧
    (∃ (d us : Nat) (o : DieOp) (s : State), (((opsOf s d).find? fun o => o.state == .suspending) = some o) ∧ (us ≤ 2 * descHalf s 0
      22)) ∧
    (∃ (d us : Nat) (o : DieOp) (s : State), (((opsOf s d).find? fun o => o.state == .suspending) = some o) ∧ (2 * descHalf s 0 22 <
      us)) ∧
    (∃ (d us : Nat) (s : State), ((∀ o, o ∈ opsOf s d → o.state ≠ .suspending))) ∧
    (∃ (d : Nat) (x : Die) (s : State), (findDie s d = some x) ∧ (x.failed = false) ∧ ((∃ o, o ∈ opsOf s d ∧ (o.state = .active ∨
      o.state = .suspending))) ∧ (x.notReady = true)) ∧
    (∃ (d : Nat) (x : Die) (s : State), (findDie s d = some x) ∧ (x.failed = false) ∧ ((∃ o, o ∈ opsOf s d ∧ (o.state = .active ∨
      o.state = .suspending))) ∧ (x.notReady = false)) ∧
    (∃ (d : Nat) (x : Die) (s : State), (findDie s d = some x) ∧ (x.failed = true ∨ (∀ o, o ∈ opsOf s d → o.state ≠ .active ∧ o.state
      ≠ .suspending))) :=
  ⟨⟨3, opOf .read .active, withOp (opOf .read .active) run, by decide +kernel⟩,
   ⟨3, { opOf .read .active with use := .recon 7 }, withOp { opOf .read .active with use := .recon 7 } run, by decide +kernel, 7,
    by decide +kernel, by decide +kernel, by decide +kernel⟩,
   ⟨3, opOf .read .waiting, withOp (opOf .read .waiting) run, by decide +kernel⟩,
   ⟨3, opOf .read .waiting, withOp (opOf .read .waiting) run, by decide +kernel⟩,
   ⟨3, opOf .read .active, withOp (opOf .read .active) run, by decide +kernel⟩,
   ⟨3, [wordGood], [(0, 1, 2)], withOp (decoding 1 0) run, decoding 1 0, by decide +kernel⟩,
   ⟨3, [], [], run, fun x h => by cases h⟩,
   ⟨decoding 1 0, [wordGood], [], withOp (decoding 1 0) run, ⟨one_word _ rfl ⟨CwTag.read [], wordGood, rfl, by decide +kernel⟩,
    by decide +kernel, by decide +kernel⟩⟩,
   ⟨decoding 1 0, [wordGood], [], lostCw (withOp (decoding 1 0) run), ⟨one_word _ rfl ⟨CwTag.read [], wordGood, rfl,
    by decide +kernel⟩, by decide +kernel, by decide +kernel⟩⟩,
   ⟨decoding 1 0, [([], none)], [], withOp (decoding 1 0) run, ⟨(0, 0), by decide, ([], none), rfl, by decide +kernel⟩⟩,
   ⟨decoding 1 0, [wordBad], [], withOp (decoding 1 0) run, ⟨one_word _ rfl (bad_word _), by decide +kernel, (0, 0), by decide,
    wordBad, rfl, by decide +kernel⟩⟩,
   ⟨decoding 1 0, soft3 (withOp (decoding 1 0) goodDesc), by decide +kernel⟩,
   ⟨decoding 2 4, soft3 (withOp (decoding 2 4) goodDesc), by decide +kernel⟩,
   ⟨decoding 3 4, soft3 (withOp (decoding 3 4) goodDesc), by decide +kernel⟩,
   ⟨decoding 4 4, soft3 (withOp (decoding 4 4) goodDesc), by decide +kernel⟩,
   ⟨3, [], [], opOf .read .active, withOp (opOf .read .active) run, by decide +kernel⟩,
   ⟨3, [], [], opOf .read .recon, lostGroup (withOp (opOf .read .recon) run), by decide +kernel⟩,
   ⟨3, [2], [], laterPart, rawRead, by decide +kernel⟩,
   ⟨3, [2], [], opOf .read .recon, grouped (withOp (opOf .read .recon) run), by decide +kernel⟩,
   ⟨3, [3], [], opOf .read .recon, grouped (withOp (opOf .read .recon) run), by decide +kernel⟩,
   ⟨3, [], [], { opOf .read .recon with use := .rebuild }, grouped (withOp { opOf .read .recon with use := .rebuild } run),
    by decide +kernel⟩,
   ⟨3, [], [], run, by decide +kernel⟩,
   ⟨opOf .read .recon, [3], 0, 3, run, by decide +kernel⟩,
   ⟨0, 0, 0, 1, false, rowAt .programming [], passOf, withOp passOf (rowed (rowAt .programming [])), by decide +kernel⟩,
   ⟨0, 0, 0, 1, false, rowAt .closed [], rowed (rowAt .closed []), by decide +kernel⟩,
   ⟨0, 100, opOf .program .suspending, withOp (opOf .program .suspending) goodDesc, by decide +kernel⟩,
   ⟨0, 101, opOf .program .suspending, withOp (opOf .program .suspending) goodDesc, by decide +kernel⟩,
   ⟨0, 100, run, by decide +kernel⟩,
   ⟨0, { dieAt 0 with notReady := true }, dieOnly { dieAt 0 with notReady := true } (withOp (opOf .program .active) run),
    by decide +kernel⟩,
   ⟨0, dieAt 0, withOp (opOf .program .active) run, by decide +kernel⟩,
   ⟨0, dieAt 0, withOp (opOf .program .waiting) run, by decide +kernel⟩⟩

theorem test_witness_PatrolAndDisturb :
    (∃ (d blk page : Nat) (w : PatrolWorst) (x : Die) (s : State), (s.tfld (tileOfDie d) .med_cfg_patrol_en = 1) ∧ (dieServes s d =
      true) ∧ (patrolled s d blk page = true) ∧ (findDie s d = some x) ∧ (w ≠ .uncorrectable false) ∧ ((bandOfBlock s d
      blk).isSome = true)) ∧
    (∃ (d blk page : Nat) (w : PatrolWorst) (x : Die) (s : State), (s.tfld (tileOfDie d) .med_cfg_patrol_en = 1) ∧ (dieServes s d =
      true) ∧ (patrolled s d blk page = true) ∧ (findDie s d = some x) ∧ (w ≠ .uncorrectable false) ∧ (bandOfBlock s d blk = none)
      ∧ (w = .retried ∨ (∃ n, w = .hard n))) ∧
    (∃ (d blk page : Nat) (w : PatrolWorst) (x : Die) (s : State), (s.tfld (tileOfDie d) .med_cfg_patrol_en = 1) ∧ (dieServes s d =
      true) ∧ (patrolled s d blk page = true) ∧ (findDie s d = some x) ∧ (w ≠ .uncorrectable false) ∧ (bandOfBlock s d blk =
      none)) ∧
    (∃ (d blk page : Nat) (w : PatrolWorst) (x : Die) (s : State), (s.tfld (tileOfDie d) .med_cfg_patrol_en = 1) ∧ (dieServes s d =
      true) ∧ (patrolled s d blk page = true) ∧ (findDie s d = some x) ∧ (w ≠ .uncorrectable false) ∧ ∃ b m, (bandOfBlock s d blk
      = some (b, m)) ∧ ∃ n, (n ≤ s.tfld (tileOfDie d) .med_patrol_refresh_bits)) ∧
    (∃ (d blk page : Nat) (w : PatrolWorst) (x : Die) (s : State), (s.tfld (tileOfDie d) .med_cfg_patrol_en = 1) ∧ (dieServes s d =
      true) ∧ (patrolled s d blk page = true) ∧ (findDie s d = some x) ∧ (w ≠ .uncorrectable false) ∧ ∃ b m, (bandOfBlock s d blk
      = some (b, m)) ∧ ∃ n, (s.tfld (tileOfDie d) .med_patrol_refresh_bits < n)) ∧
    (∃ (d blk page : Nat) (w : PatrolWorst) (x : Die) (s : State), (s.tfld (tileOfDie d) .med_cfg_patrol_en = 1) ∧ (dieServes s d =
      true) ∧ (patrolled s d blk page = true) ∧ (findDie s d = some x) ∧ (w ≠ .uncorrectable false) ∧ ∃ b m, (bandOfBlock s d blk
      = some (b, m))) ∧
    (∃ (d blk page : Nat) (w : PatrolWorst) (s : State), (s.tfld (tileOfDie d) .med_cfg_patrol_en ≠ 1 ∨ dieServes s d = false ∨
      patrolled s d blk page = false)) ∧
    (∃ (d blk : Nat) (k : Blk) (s : State), (findBlk s d blk = some k) ∧ (1000 * s.tfld (tileOfDie d) .med_disturb_disturb_k ≤
      k.reads)) ∧
    (∃ (d blk : Nat) (k : Blk) (s : State), (findBlk s d blk = some k) ∧ (k.reads < 1000 * s.tfld (tileOfDie d)
      .med_disturb_disturb_k)) :=
  ⟨⟨0, 5, 1, .retried, dieAt 0, patrolReady run, by decide +kernel⟩,
   ⟨0, 99, 1, .retried, dieAt 0, patrolReady run, ⟨by decide +kernel, by decide +kernel, by decide +kernel, by decide +kernel,
    by decide, by decide +kernel, .inl rfl⟩⟩,
   ⟨0, 99, 1, .retried, dieAt 0, patrolReady run, by decide +kernel⟩,
   ⟨0, 5, 1, .retried, dieAt 0, setFlds [(0, 0, .med_patrol_refresh_bits, 10)] (patrolReady run), by decide +kernel,
    by decide +kernel, by decide +kernel, by decide +kernel, by decide +kernel, patrolBand, 0, by decide +kernel, 10,
    by decide +kernel⟩,
   ⟨0, 5, 1, .retried, dieAt 0, setFlds [(0, 0, .med_patrol_refresh_bits, 10)] (patrolReady run), by decide +kernel,
    by decide +kernel, by decide +kernel, by decide +kernel, by decide +kernel, patrolBand, 0, by decide +kernel, 11,
    by decide +kernel⟩,
   ⟨0, 5, 1, .retried, dieAt 0, patrolReady run, by decide +kernel, by decide +kernel, by decide +kernel, by decide +kernel,
    by decide +kernel, patrolBand, 0, by decide +kernel⟩,
   ⟨0, 5, 1, .retried, run, by decide +kernel⟩,
   ⟨0, 5, { blkOf 0 5 1 with reads := 1000000 }, setFlds [(0, 0, .med_disturb_disturb_k, 1000)] (patrolReady run), by decide +kernel⟩,
   ⟨0, 5, { blkOf 0 5 1 with reads := 1000000 }, setFlds [(0, 0, .med_disturb_disturb_k, 1001)] (patrolReady run), by decide +kernel⟩⟩

theorem test_witness_ReclaimCycle :
    (∃ (sg : Nat) (b : Band) (s : State), (s.tfld (leaderTile s sg) .rcl_cfg_rcl_enable = 1) ∧ ((∀ x, x ∈ groupBands s sg → x.state ≠
      .reclaiming)) ∧ ((∀ x, x ∈ s.rcl.bands → x.sg = sg → x.why ≠ some .idle)) ∧ (findBand s sg b.idx = some b) ∧ ((∀ x, x ∈
      s.red.substs → x.sg = sg → x.band = b.idx → x.done = true)) ∧ (urgentBand s sg = some b)) ∧
    (∃ (sg : Nat) (b : Band) (s : State), (s.tfld (leaderTile s sg) .rcl_cfg_rcl_enable = 1) ∧ ((∀ x, x ∈ groupBands s sg → x.state ≠
      .reclaiming)) ∧ ((∀ x, x ∈ s.rcl.bands → x.sg = sg → x.why ≠ some .idle)) ∧ (findBand s sg b.idx = some b) ∧ ((∀ x, x ∈
      s.red.substs → x.sg = sg → x.band = b.idx → x.done = true)) ∧ (urgentBand s sg = none) ∧ (victim s sg = some b) ∧
      ((freeBands s sg).length < reserveOf s sg + s.tfld (leaderTile s sg) .rcl_thresh_rcl_start_bands)) ∧
    (∃ (g : Eg) (s : State), (g.stalemate = true ∨ inStalemate s g = false)) ∧
    (∃ (g : Eg) (s : State), (g.stalemate = false) ∧ (inStalemate s g = true) ∧ ∃ k x, (findEg s k = some x)) ∧
    (∃ (g : Eg) (s : State), (g.stalemate = true) ∧ (leavesStalemate s g = true) ∧ ∃ k x, (findEg s k = some x)) ∧
    (∃ (sg b addr : Nat) (x : Band) (s : State), (findBand s sg b = some x) ∧ (x.state = .reclaiming) ∧ (nextScan x addr = true) ∧ ((∀
      e, e ∈ s.rcl.flash → e.addr ≠ addr))) ∧
    (∃ (sg b addr : Nat) (x : Band) (s : State), (findBand s sg b = some x) ∧ (x.state = .reclaiming) ∧ (nextScan x addr = true) ∧ ∃
      e, ((s.rcl.flash.find? fun e => e.addr == addr) = some e) ∧
        (let m := livenessMask s e.nsid e.slba e.nblk addr e.seq; (m = []))) ∧
    (∃ (sg b addr : Nat) (x : Band) (s : State), (findBand s sg b = some x) ∧ (x.state = .reclaiming) ∧ (nextScan x addr = true) ∧ ∃
      e, ((s.rcl.flash.find? fun e => e.addr == addr) = some e) ∧
        (let m := livenessMask s e.nsid e.slba e.nblk addr e.seq; (m ≠ []) ∧ (e.lost ≠ []))) ∧
    (∃ (sg b addr : Nat) (x : Band) (s : State), (findBand s sg b = some x) ∧ (x.state = .reclaiming) ∧ (nextScan x addr = true) ∧ ∃
      e, ((s.rcl.flash.find? fun e => e.addr == addr) = some e) ∧
        (let m := livenessMask s e.nsid e.slba e.nblk addr e.seq; (m ≠ []) ∧ (e.lost = []))) ∧
    (∃ (sg b addr : Nat) (s : State), ((∀ x, findBand s sg b = some x → x.state ≠ .reclaiming ∨ nextScan x addr = false))) ∧
    (∃ (o : DieOp) (x : Band) (e : FExt) (s : State), (findBand s o.sg o.band = some x) ∧ (x.state = .reclaiming) ∧
      ((s.rcl.flash.find? fun e => e.addr == o.addr) = some e)) ∧
    (∃ (sg b : Nat) (x : Band) (s : State), (findBand s sg b = some x) ∧ (x.state = .reclaiming) ∧ (x.toScan = []) ∧ (openCopies s sg
      b = false) ∧ (entriesDurable s sg b = true)) ∧
    (∃ (sg b : Nat) (x : Band) (s : State), (findBand s sg b = some x) ∧ (x.state ≠ .reclaiming ∨ x.toScan ≠ [] ∨ openCopies s sg b =
      true ∨ entriesDurable s sg b = false)) ∧
    (∃ (sg b : Nat) (x : Band) (s : State), (findBand s sg b = some x) ∧ (x.state = .erasePending) ∧ (x.drainMs + 1 ≤ s.nowMs) ∧
      (readsPending s x = false) ∧ (recordsDurable s sg b = true) ∧ (programRoom s sg b = true) ∧
        (let s1 := if intentRecorded s x then s else bandRecord 0x04 x 0xFF 0xFFFF 0xFFFF s; (recordsDurable s1 sg b = true))) ∧
    (∃ (sg b : Nat) (x : Band) (s : State), (findBand s sg b = some x) ∧ (x.state = .erasePending) ∧ (x.drainMs + 1 ≤ s.nowMs) ∧
      (readsPending s x = false) ∧ (recordsDurable s sg b = true) ∧ (programRoom s sg b = true) ∧
        (let s1 := if intentRecorded s x then s else bandRecord 0x04 x 0xFF 0xFFFF 0xFFFF s; (recordsDurable s1 sg b = false))) ∧
    (∃ (sg b : Nat) (x : Band) (s : State), (findBand s sg b = some x) ∧ (x.state ≠ .erasePending ∨ s.nowMs < x.drainMs + 1 ∨
      readsPending s x = true ∨ recordsDurable s sg b = false ∨ programRoom s sg b = false)) ∧
    (∃ (x : Band) (s : State), (x.retireMembers = []) ∧ ((∀ m, m < x.blocks.length → dieServes s (servingAt s x.sg x.idx m).1 =
      true))) ∧
    (∃ (sg b m : Nat) (x : Band) (s : State), (findBand s sg b = some x) ∧ (x.state = .erasing) ∧ (m ∉ x.erased) ∧
        (let last := ∀ k, k < x.blocks.length → k = m ∨ k ∈ x.erased ∨ k ∈ x.retireMembers ∨ x.blocks[k]? = some 0xFFFF ∨ dieServes s (servingAt s sg b k).1 = false; (last))) ∧
    (∃ (sg b m : Nat) (x : Band) (s : State), (findBand s sg b = some x) ∧ (x.state = .erasing) ∧ (m ∉ x.erased) ∧
        (let last := ∀ k, k < x.blocks.length → k = m ∨ k ∈ x.erased ∨ k ∈ x.retireMembers ∨ x.blocks[k]? = some 0xFFFF ∨ dieServes s (servingAt s sg b k).1 = false; (¬last))) ∧
    (∃ (sg b m : Nat) (s : State), ((∀ x, findBand s sg b = some x → x.state ≠ .erasing ∨ m ∈ x.erased))) ∧
    (∃ (sg b : Nat) (x : Band) (s : State), (findBand s sg b = some x)) ∧
    (∃ (sg b m : Nat) (blank : List Nat) (x : Band) (s : State), (findBand s sg b = some x) ∧ (x.state = .erasing)) ∧
    (∃ (sg b m : Nat) (blank : List Nat) (s : State), ((∀ x, findBand s sg b = some x → x.state ≠ .erasing))) :=
  ⟨⟨0, { bnd .sealed with retireMembers := [0] }, reclaims { bnd .sealed with retireMembers := [0] }, by decide +kernel⟩,
   ⟨0, bnd .sealed, reclaims (bnd .sealed), by decide +kernel⟩,
   ⟨stuckEg, run, by decide +kernel⟩,
   ⟨egAt 1, census (grouped run), by decide +kernel, by decide +kernel, 1, egAt 1, by decide +kernel⟩,
   ⟨stuckEg, gains, by decide +kernel, by decide +kernel, 1, stuckEg, by decide +kernel⟩,
   ⟨0, 0, 5, scanning, reclaims scanning, by decide +kernel⟩,
   ⟨0, 0, 5, scanning, withFlash [flashOf []] (reclaims scanning), by decide +kernel, by decide +kernel, by decide +kernel, flashOf
    [], by decide +kernel, by decide +kernel⟩,
   ⟨0, 0, 5, scanning, pages [regionOf 0 false true] (withFlash [flashOf [0]] (reclaims scanning)), by decide +kernel,
    by decide +kernel, by decide +kernel, flashOf [0], by decide +kernel, by decide +kernel, by decide +kernel⟩,
   ⟨0, 0, 5, scanning, pages [regionOf 0 false true] (withFlash [flashOf []] (reclaims scanning)), by decide +kernel,
    by decide +kernel, by decide +kernel, flashOf [], by decide +kernel, by decide +kernel, by decide +kernel⟩,
   ⟨0, 0, 6, reclaims scanning, fun x h => by cases h; exact Or.inr (by decide)⟩,
   ⟨{ opOf .read .active with addr := 5 }, scanning, flashOf [], withFlash [flashOf []] (reclaims scanning), by decide +kernel⟩,
   ⟨0, 0, bnd .reclaiming, reclaims (bnd .reclaiming), by decide +kernel⟩,
   ⟨0, 0, scanning, reclaims scanning, by decide +kernel⟩,
   ⟨0, 0, bnd .erasePending, quick (eraseWait 1), by decide +kernel⟩,
   ⟨0, 0, bnd .erasePending, wt (eraseWait 1), by decide +kernel⟩,
   ⟨0, 0, bnd .erasePending, eraseWait 0, by decide +kernel⟩,
   ⟨bnd .erasing, reclaims (bnd .erasing), by decide +kernel⟩,
   ⟨0, 0, 1, { bnd .erasing with erased := [0] }, blocked (reclaims { bnd .erasing with erased := [0] }), by decide +kernel⟩,
   ⟨0, 0, 1, bnd .erasing, blocked (reclaims (bnd .erasing)), by decide +kernel⟩,
   ⟨0, 0, 0, reclaims { bnd .erasing with erased := [0] }, fun x h => by cases h; exact Or.inr (by decide)⟩,
   ⟨0, 0, bnd .erasing, withFlash [flashOf []] (blocked (reclaims (bnd .erasing))), by decide +kernel⟩,
   ⟨0, 0, 1, [], bnd .erasing, blocked (reclaims (bnd .erasing)), by decide +kernel⟩,
   ⟨0, 0, 1, [], reclaims (bnd .sealed), fun x h => by cases h; decide⟩⟩

theorem test_witness_CensusAndSweeps :
    (∃ (n r : Nat) (s : State), ((n, r) ∈ s.rcl.toCensus) ∧ (ownerSlot s n r ∉ s.map.replaying)) ∧
    (∃ (n r : Nat) (s : State), ((n, r) ∉ s.rcl.toCensus ∨ ownerSlot s n r ∈ s.map.replaying)) ∧
    (∃ (id : Nat) (w : Sweep) (s : State), ((s.rcl.sweeps.find? fun w => w.id == id) = some w) ∧ (w.state = 1) ∧ (w.kept = true) ∧ ((∀
      k, k ∈ w.rows → ∀ r, r ∈ s.wr.rows → isRow k.1 k.2.1 k.2.2 r = false)) ∧ ((∀ t, t ∈ presentTiles s → t ∈
      s.rcl.summariesDone))) ∧
    (∃ (id : Nat) (w : Sweep) (s : State), ((s.rcl.sweeps.find? fun w => w.id == id) = some w) ∧ (w.state ≠ 1 ∨ w.kept = false ∨ (∃ t,
      t ∈ presentTiles s ∧ t ∉ s.rcl.summariesDone) ∨ (∃ k r, k ∈ w.rows ∧ r ∈ s.wr.rows ∧ isRow k.1 k.2.1 k.2.2 r = true))) ∧
    (∃ (id : Nat) (w : Sweep) (s : State), ((s.rcl.sweeps.find? fun w => w.id == id) = some w) ∧ (w.state = 2) ∧ (w.bands = []) ∧
        (let s1 := syncStores { s with rcl := { s.rcl with sweeps := s.rcl.sweeps.map fun v => if v.id == id then { v with state := 3, doneMin := s.island.minutes } else v } }; ∃ c, (findCmd s1 (w.cmd.getD 0) = some c) ∧ (c.sweep = id) ∧ (c.sweepSync = true) ∧ (c.took = true))) ∧
    (∃ (id : Nat) (w : Sweep) (s : State), ((s.rcl.sweeps.find? fun w => w.id == id) = some w) ∧ (w.state = 2) ∧ (w.bands = []) ∧
        (let s1 := syncStores { s with rcl := { s.rcl with sweeps := s.rcl.sweeps.map fun v => if v.id == id then { v with state := 3, doneMin := s.island.minutes } else v } }; (findCmd s1 (w.cmd.getD 0) = none))) ∧
    (∃ (id : Nat) (w : Sweep) (s : State), ((s.rcl.sweeps.find? fun w => w.id == id) = some w) ∧ (w.state ≠ 2 ∨ w.bands ≠ [])) ∧
    (∃ (a : Adm) (n v : Nat) (s : State), (AdmRuns .management a s) ∧ (s.ident.part = .aqk8064) ∧ (visible s a n = false)) ∧
    (∃ (a : Adm) (n v : Nat) (s : State), (AdmRuns .management a s) ∧ (s.ident.part = .aqk8064) ∧ ∃ x, (visible s a n = true) ∧ (nsOf
      s n = some x) ∧ (s.fw.flash.failed = false)) ∧
    (∃ (a : Adm) (n v : Nat) (s : State), (AdmRuns .management a s) ∧ (s.ident.part = .aqk8064) ∧ ∃ x, (visible s a n = true) ∧ (nsOf
      s n = some x) ∧ (s.fw.flash.failed = true)) ∧
    (∃ (a : Adm) (n v : Nat) (s : State), (AdmRuns .management a s) ∧ (s.ident.part = .aqk8064) ∧ ∃ x, (visible s a n = true) ∧ (nsOf
      s n = some x)) ∧
    (∃ (a : Adm) (n v : Nat) (s : State), (AdmRuns .management a s) ∧ (s.ident.part ≠ .aqk8064)) :=
  ⟨⟨1, 0, toCensus [(1, 0), (1, 1)] run, by decide +kernel⟩,
   ⟨1, 0, run, by decide +kernel⟩,
   ⟨4, sweepOf 4 1 none, allSummed (withSweeps [sweepOf 4 1 none] run), by decide +kernel⟩,
   ⟨4, sweepOf 4 2 none, withSweeps [sweepOf 4 2 none] run, ⟨by decide +kernel, Or.inl (by decide)⟩⟩,
   ⟨4, sweepOf 4 2 (some 1), withSweeps [sweepOf 4 2 (some 1)] (ctrled [sweepCmd] run), by decide +kernel, by decide +kernel,
    by decide +kernel, sweepCmd, by decide +kernel, by decide +kernel, by decide +kernel, by decide +kernel⟩,
   ⟨4, sweepOf 4 2 none, withSweeps [sweepOf 4 2 none] (ctrled [] run), by decide +kernel⟩,
   ⟨4, sweepOf 4 3 none, withSweeps [sweepOf 4 3 none] run, by decide +kernel⟩,
   ⟨.host 1, 9, 1, adminRuns, by unfold AdmRuns; decide +kernel⟩,
   ⟨.host 1, 1, 1, withNs .ready (adminRunsBy { ctrlOf 1 with tenant := 1 }), by unfold AdmRuns; decide +kernel, by decide +kernel,
    nsAt 1 .ready, by decide +kernel, by decide +kernel, by decide +kernel⟩,
   ⟨.host 1, 1, 1, flashFails (withNs .ready (adminRunsBy { ctrlOf 1 with tenant := 1 })), by unfold AdmRuns; decide +kernel,
    by decide +kernel, nsAt 1 .ready, by decide +kernel, by decide +kernel, by decide +kernel⟩,
   ⟨.host 1, 1, 1, withNs .ready (adminRunsBy { ctrlOf 1 with tenant := 1 }), by unfold AdmRuns; decide +kernel, by decide +kernel,
    nsAt 1 .ready, by decide +kernel, by decide +kernel⟩,
   ⟨.host 1, 1, 1, part2016 adminRuns, by unfold AdmRuns; decide +kernel⟩⟩

theorem test_witness_FingerprintsAndVerify :
    (∃ (sg b i m p q : Nat) (s : State),
        (let t := leaderTile s sg;
        (let isIt := fun (f : FpRow) => f.sg == sg && f.band == b && f.row == i;
        (let f : FpRow := (s.red.fpRows.find? isIt).getD { sg := sg, band := b, row := i, fps := [], since := s.nowMs, mismatch := false };
        (let f1 : FpRow := { f with fps := (f.fps.filter fun y => y.1 != m) ++ [(m, p, q)] };
        (let rest := s.red.fpRows.filter fun f => !isIt f; (s.tfld t .red_cfg_parity_check_en = 1) ∧ ((sg, b, i) ∉ s.red.noCompare) ∧ (m < memberCount s sg) ∧ ((rest.filter fun f => leaderTile s f.sg == t).length < 4096) ∧ (f1.fps.length < memberCount s sg))))))) ∧
    (∃ (sg b i m p q : Nat) (s : State),
        (let t := leaderTile s sg;
        (let isIt := fun (f : FpRow) => f.sg == sg && f.band == b && f.row == i;
        (let f : FpRow := (s.red.fpRows.find? isIt).getD { sg := sg, band := b, row := i, fps := [], since := s.nowMs, mismatch := false };
        (let f1 : FpRow := { f with fps := (f.fps.filter fun y => y.1 != m) ++ [(m, p, q)] };
        (let rest := s.red.fpRows.filter fun f => !isIt f; (s.tfld t .red_cfg_parity_check_en = 1) ∧ ((sg, b, i) ∉ s.red.noCompare) ∧ (m < memberCount s sg) ∧ ((rest.filter fun f => leaderTile s f.sg == t).length < 4096) ∧ (memberCount s sg ≤ f1.fps.length) ∧ (fpMismatch s f1 = false))))))) ∧
    (∃ (sg b i m p q : Nat) (s : State),
        (let t := leaderTile s sg;
        (let isIt := fun (f : FpRow) => f.sg == sg && f.band == b && f.row == i;
        (let f : FpRow := (s.red.fpRows.find? isIt).getD { sg := sg, band := b, row := i, fps := [], since := s.nowMs, mismatch := false };
        (let f1 : FpRow := { f with fps := (f.fps.filter fun y => y.1 != m) ++ [(m, p, q)] };
        (let rest := s.red.fpRows.filter fun f => !isIt f; (s.tfld t .red_cfg_parity_check_en = 1) ∧ ((sg, b, i) ∉ s.red.noCompare) ∧ (m < memberCount s sg) ∧ ((rest.filter fun f => leaderTile s f.sg == t).length < 4096) ∧ (memberCount s sg ≤ f1.fps.length) ∧ (fpMismatch s f1 = true))))))) ∧
    (∃ (sg b i m p q : Nat) (s : State), (s.tfld (leaderTile s sg) .red_cfg_parity_check_en ≠ 1 ∨ (sg, b, i) ∈ s.red.noCompare ∨
      memberCount s sg ≤ m)) ∧
    (∃ (sg b i : Nat) (sp sq : Bytes) (f : FpRow) (s : State), (f ∈ s.red.fpRows) ∧ (f.sg = sg) ∧ (f.band = b) ∧ (f.row = i) ∧
      (f.mismatch = true) ∧ (locate (dataUnits s sg) sp sq = .noFault)) ∧
    (∃ (sg b i : Nat) (sp sq : Bytes) (f : FpRow) (s : State), (f ∈ s.red.fpRows) ∧ (f.sg = sg) ∧ (f.band = b) ∧ (f.row = i) ∧
      (f.mismatch = true) ∧ ∃ m, (locate (dataUnits s sg) sp sq = .one m)) ∧
    (∃ (sg b i : Nat) (sp sq : Bytes) (f : FpRow) (s : State), (f ∈ s.red.fpRows) ∧ (f.sg = sg) ∧ (f.band = b) ∧ (f.row = i) ∧
      (f.mismatch = true) ∧ (locate (dataUnits s sg) sp sq = .several)) ∧
    (∃ (sg b i : Nat) (sp sq : Bytes) (s : State), ((∀ f, f ∈ s.red.fpRows → f.sg = sg → f.band = b → f.row = i → f.mismatch =
      false))) ∧
    (∃ (k : Nat) (sp sq : Bytes), ((∀ x, x ∈ sp.zip sq → x = (0, 0)))) ∧
    (∃ (sg b i : Nat) (f : FpRow) (s : State), ((s.red.fpRows.find? fun f => f.sg == sg && f.band == b && f.row == i && !f.mismatch) =
      some f) ∧ (f.since + 86400000 ≤ s.nowMs)) ∧
    (∃ (sg b i : Nat) (f : FpRow) (s : State), ((s.red.fpRows.find? fun f => f.sg == sg && f.band == b && f.row == i && !f.mismatch) =
      some f) ∧ (s.nowMs < f.since + 86400000)) ∧
    (∃ (sg b i m : Nat) (s : State),
        (let is (x : LostSlot) : Prop := x.dead = true ∧ x.sg = sg ∧ x.band = b ∧ x.row = i ∧ x.member = m; ((∃ l, l ∈ s.red.lostSlots ∧ is l)) ∧ ((∀ x y, x ∈ s.rcl.flash → y ∈ s.rcl.flash → x.addr = y.addr → x.seq = y.seq → x = y)))) ∧
    (∃ (sg b i m : Nat) (s : State),
        (let is (x : LostSlot) : Prop := x.dead = true ∧ x.sg = sg ∧ x.band = b ∧ x.row = i ∧ x.member = m; ((∀ l, l ∈ s.red.lostSlots → ¬ is l)))) ∧
    (∃ (e : FExt) (cws : List Nat) (k : Nat), (k ∈ blocksIn e cws)) ∧
    (∃ (t v : Nat) (s : State), (t ≠ pkgWin) ∧ (regOpen s t = true) ∧ (bitOf v 31 = false)) ∧
    (∃ (t v : Nat) (s : State), (t ≠ pkgWin) ∧ (regOpen s t = true) ∧ (bitOf v 31 = true) ∧ ((verifyOf s t).busy = true)) ∧
    (∃ (t v : Nat) (s : State), (t ≠ pkgWin) ∧ (regOpen s t = true) ∧ (bitOf v 31 = true) ∧ ((verifyOf s t).busy = false)) ∧
    (∃ (t : Nat) (us : List VerifyUnit) (s : State),
        (let v := verifyOf s t; (v.busy = true))) ∧
    (∃ (t : Nat) (us : List VerifyUnit) (s : State),
        (let v := verifyOf s t; (v.busy = false))) :=
  ⟨⟨0, 0, 0, 1, 5, 6, fpReady [], by decide +kernel⟩,
   ⟨0, 0, 0, 3, 0, 5, fpReady [fpOf [(0, 5, 0), (1, 0, 5), (2, 5, 0)] false], by decide +kernel⟩,
   ⟨0, 0, 0, 3, 0, 5, fpReady [fpOf [(0, 5, 0), (1, 0, 5), (2, 4, 0)] false], by decide +kernel⟩,
   ⟨0, 0, 0, 4, 5, 6, fpReady [], by decide +kernel⟩,
   ⟨0, 0, 0, [0, 0], [0, 0], fpOf [] true, fpReady [fpOf [] true], ⟨List.mem_singleton_self _, by decide +kernel⟩⟩,
   ⟨0, 0, 0, [0, 7], [0, 0], fpOf [] true, fpReady [fpOf [] true], by decide +kernel, by decide +kernel, by decide +kernel,
    by decide +kernel, by decide +kernel, 2, by decide +kernel⟩,
   ⟨0, 0, 0, [1, 7], [0, 0x99], fpOf [] true, fpReady [fpOf [] true], ⟨List.mem_singleton_self _, by decide +kernel⟩⟩,
   ⟨0, 0, 0, [], [], fpReady [fpOf [] false], by decide +kernel⟩,
   ⟨2, [0, 0], [0, 0], fun x h => by simpa using h⟩,
   ⟨0, 0, 0, fpOf [] false, { fpReady [fpOf [] false] with nowMs := 86400000 }, by decide +kernel⟩,
   ⟨0, 0, 0, fpOf [] false, { fpReady [fpOf [] false] with nowMs := 86399999 }, by decide +kernel⟩,
   ⟨0, 0, 0, 1, slotLost, ⟨⟨_, List.mem_singleton_self _, rfl, rfl, rfl, rfl, rfl⟩, fun x y hx => absurd ((show slotLost.rcl.flash =
    [] by decide +kernel) ▸ hx) List.not_mem_nil⟩⟩,
   ⟨0, 0, 0, 2, slotLost, by decide +kernel⟩,
   ⟨flashOf [], [0], 0, by decide +kernel⟩,
   ⟨0, 5, run, by decide +kernel⟩,
   ⟨0, 2 ^ 31 + 5, verifying true run, by decide +kernel⟩,
   ⟨0, 2 ^ 31 + 5, verifying false run, by decide +kernel⟩,
   ⟨0, [], verifying true run, by decide +kernel⟩,
   ⟨0, [], verifying false run, by decide +kernel⟩⟩

theorem test_witness_HealingAndStripeJournal :
    (∃ (sg : Nat) (g : Group) (s : State), (findGroup s sg = some g) ∧
        (let bySubst := ((s.red.substs.filter fun x => x.sg == sg && !x.done).map (·.band)).eraseDups;
        (let byMove := (s.rcl.bands.filter fun b => b.sg == sg && b.why == some .replace && b.state == .reclaiming).map (·.idx);
        (let busy := bySubst ++ byMove; (g.state = .unavailable ∨ g.state = .optimal ∨ 2 ≤ busy.length ∨ nextToHeal s g = none))))) ∧
    (∃ (sg : Nat) (g : Group) (s : State), (findGroup s sg = some g) ∧
        (let bySubst := ((s.red.substs.filter fun x => x.sg == sg && !x.done).map (·.band)).eraseDups;
        (let byMove := (s.rcl.bands.filter fun b => b.sg == sg && b.why == some .replace && b.state == .reclaiming).map (·.idx);
        (let busy := bySubst ++ byMove; ∃ b, (g.state ≠ .unavailable) ∧ (g.state ≠ .optimal) ∧ (busy.length < 2) ∧ (nextToHeal s g = some b) ∧ (b.mapBand = false) ∧ (b.state = .sealed) ∧ (validPermille s b < 10 * s.tfld (leaderTile s sg) .red_rebuild_rebuild_reclaim_pct))))) ∧
    (∃ (sg : Nat) (g : Group) (s : State), (findGroup s sg = some g) ∧
        (let bySubst := ((s.red.substs.filter fun x => x.sg == sg && !x.done).map (·.band)).eraseDups;
        (let byMove := (s.rcl.bands.filter fun b => b.sg == sg && b.why == some .replace && b.state == .reclaiming).map (·.idx);
        (let busy := bySubst ++ byMove; ∃ b, (g.state ≠ .unavailable) ∧ (g.state ≠ .optimal) ∧ (busy.length < 2) ∧ (nextToHeal s g = some b) ∧ (b.mapBand = true ∨ b.state ≠ .sealed ∨ 10 * s.tfld (leaderTile s sg) .red_rebuild_rebuild_reclaim_pct ≤ validPermille s b))))) ∧
    (∃ (sg : Nat) (s : State), (findGroup s sg = none)) ∧
    (∃ (g : Group) (b : Band) (m d : Nat) (k : Blk) (s : State), (substDie s g b = some (d, false)) ∧ ((sparesOf s d).head? = some k)) ∧
    (∃ (sg b m : Nat) (x : Subst) (y : Band) (s : State), ((s.red.substs.find? fun x => x.sg == sg && x.band == b && x.member == m &&
      !x.done) = some x) ∧ (findBand s sg b = some y) ∧ (healing s sg b m = true ∨ x.next < y.rows)) ∧
    (∃ (sg b m : Nat) (x : Subst) (y : Band) (s : State), ((s.red.substs.find? fun x => x.sg == sg && x.band == b && x.member == m &&
      !x.done) = some x) ∧ (findBand s sg b = some y) ∧ (healing s sg b m = false) ∧ (y.rows ≤ x.next)) ∧
    (∃ (sg b m : Nat) (s : State), ((∀ x, x ∈ s.red.substs → x.sg = sg → x.band = b → x.member = m → x.done = true))) ∧
    (∃ (sg : Nat) (s : State),
        (let j := findSj s sg; (j.tail ≠ []))) ∧
    (∃ (sg : Nat) (s : State),
        (let j := findSj s sg; (j.tail = []))) ∧
    (∃ (sg : Nat) (s : State), ((∃ g, g ∈ s.red.groups ∧ g.sg = sg))) ∧
    (∃ (sg : Nat) (s : State),
        (let j := findSj s sg; ∃ k, ((∃ g, g ∈ s.red.groups ∧ g.sg = sg)) ∧ (k < 3) ∧ (k ∉ j.copiesLost))) ∧
    (∃ (sg : Nat) (s : State),
        (let j := findSj s sg; ∃ k, (3 ≤ k ∨ k ∈ j.copiesLost))) ∧
    (∃ (sg : Nat) (s : State),
        (let j := findSj s sg; ∃ k, (k ∈ j.copiesLost))) ∧
    (∃ (sg : Nat) (s : State),
        (let j := findSj s sg; ∃ k, (k ∉ j.copiesLost))) :=
  ⟨⟨0, groupOf 0 [0, 1, 2, 3], reclaims (bnd .sealed), by decide +kernel⟩,
   ⟨0, hurt, toHeal (bnd .sealed), by decide +kernel, bnd .sealed, by decide +kernel, by decide +kernel, by decide +kernel,
    by decide +kernel, by decide +kernel, by decide +kernel, by decide +kernel⟩,
   ⟨0, hurt, toHeal { bnd .sealed with mapBand := true }, by decide +kernel, { bnd .sealed with mapBand := true }, by decide +kernel,
    by decide +kernel, by decide +kernel, by decide +kernel, by decide +kernel⟩,
   ⟨0, run, by decide +kernel⟩,
   ⟨hurt, bnd .sealed, 1, 2048, { blkOf 2048 4 0 with state := .spare }, toHeal (bnd .sealed), by decide +kernel⟩,
   ⟨0, 0, 1, substOf false, { bnd .sealed with rows := 1 }, substs [substOf false] (toHeal { bnd .sealed with rows := 1 }),
    by decide +kernel⟩,
   ⟨0, 0, 1, substOf false, bnd .sealed, substs [substOf false] (toHeal (bnd .sealed)), by decide +kernel⟩,
   ⟨0, 0, 1, substs [substOf true] (toHeal (bnd .sealed)), by decide +kernel⟩,
   ⟨0, withSj (sjOf [sjBlank 0x13] []), by decide +kernel⟩,
   ⟨0, withSj (sjOf [] []), by decide +kernel⟩,
   ⟨0, withSj (sjOf [sjBlank 0x13] []), ⟨groupOf 0 [0, 1, 2, 3], List.mem_singleton_self _, rfl⟩⟩,
   ⟨0, withSj (sjOf [] [0]), 2, ⟨⟨groupOf 0 [0, 1, 2, 3], List.mem_singleton_self _, rfl⟩, by decide +kernel⟩⟩,
   ⟨0, withSj (sjOf [] [0]), 0, by decide +kernel⟩,
   ⟨0, withSj (sjOf [] [0]), 0, by decide +kernel⟩,
   ⟨0, withSj (sjOf [] [0]), 1, by decide +kernel⟩⟩

theorem test_witness_RegisterReads :
    (∃ (t : Nat) (s : State), (t < pkgWin) ∧ (regOpen s t = true)) ∧
    (∃ (s : State), (regOpen s pkgWin = true)) ∧
    (∃ (t : Nat) (s : State), (t < pkgWin) ∧ (regOpen s t = false)) ∧
    (∃ (off : Nat) (s : State), (off % 4 ≠ 0)) ∧
    (∃ (off : Nat) (s : State), (off % 4 = 0) ∧ (regAt s off = none)) ∧
    (∃ (off w i : Nat) (r : Reg) (s : State), (off % 4 = 0) ∧ (regAt s off = some (w, r, i, false)) ∧ (regAnswers s w r = true) ∧
      (r.held = true)) ∧
    (∃ (off w i : Nat) (r : Reg) (s : State), (off % 4 = 0) ∧ (regAt s off = some (w, r, i, false)) ∧ (regAnswers s w r = true) ∧
      (r.latched = true)) :=
  ⟨⟨0, run, by decide +kernel⟩,
   ⟨run, by decide +kernel⟩,
   ⟨0, State.reset, by decide +kernel⟩,
   ⟨2, run, by decide +kernel⟩,
   ⟨0x9FFFFC, run, by decide +kernel⟩,
   ⟨bar0 0 0 .glbMac, 0, 0, .glbMac, run, by decide +kernel⟩,
   ⟨bar0 0 0 .mapL0Hits, 0, 0, .mapL0Hits, run, by decide +kernel⟩⟩

theorem test_witness_RegisterWrites :
    (∃ (off v : Nat) (s : State), (off % 4 ≠ 0)) ∧
    (∃ (off v : Nat) (s : State), (off % 4 = 0) ∧ (0x1000000 ≤ off)) ∧
    (∃ (off v : Nat) (s : State), (off % 4 = 0) ∧ (off < 0x1000000) ∧ (regAt s off = none)) ∧
    (∃ (off v w i : Nat) (r : Reg) (high : Bool) (s : State), (off % 4 = 0) ∧ (off < 0x1000000) ∧ (regAt s off = some (w, r, i, high))
      ∧ (regAnswers s w r = false ∨ (∀ f, f ∈ r.flds → f.info.acc = .ro))) ∧
    (∃ (off v w i : Nat) (r : Reg) (high : Bool) (s : State), (off % 4 = 0) ∧ (off < 0x1000000) ∧ (regAt s off = some (w, r, i, high))
      ∧ (regOpen s w = true) ∧ ((∃ f, f ∈ r.flds ∧ f.info.acc ≠ .ro)) ∧ (r.info.wide = false)) ∧
    (∃ (off v w i : Nat) (r : Reg) (high : Bool) (s : State), (off % 4 = 0) ∧ (off < 0x1000000) ∧ (regAt s off = some (w, r, i, high))
      ∧ (regOpen s w = true) ∧ ((∃ f, f ∈ r.flds ∧ f.info.acc ≠ .ro)) ∧ (r.info.wide = true) ∧ (high = false)) ∧
    (∃ (off v w i : Nat) (r : Reg) (high : Bool) (s : State), (off % 4 = 0) ∧ (off < 0x1000000) ∧ (regAt s off = some (w, r, i, high))
      ∧ (regOpen s w = true) ∧ ((∃ f, f ∈ r.flds ∧ f.info.acc ≠ .ro)) ∧ (r.info.wide = true) ∧ (high = true) ∧ (r ≠
      .glbBoardTime)) ∧
    (∃ (en : Bool) (w i v : Nat) (r : Reg) (f : Fld) (s : State), (fldAbsent s f = false) ∧ (f.info.acc = .ro ∨ f.info.acc = .wo)) ∧
    (∃ (en : Bool) (w i v : Nat) (r : Reg) (f : Fld) (s : State), (fldAbsent s f = false) ∧ (f.info.acc = .rl)) ∧
    (∃ (en : Bool) (w i v : Nat) (r : Reg) (f : Fld) (s : State), (fldAbsent s f = false) ∧ (f.info.acc = .rs)) ∧
    (∃ (en : Bool) (w i v : Nat) (r : Reg) (f : Fld) (s : State), (fldAbsent s f = false) ∧
        (let x := bitsOf v f.info.hi f.info.lo; (f.info.acc = .rw) ∧ (f.info.static = false ∨ en = false ∨ x = s.fld w i f))) ∧
    (∃ (en : Bool) (w i v : Nat) (r : Reg) (f : Fld) (s : State), (fldAbsent s f = false) ∧
        (let x := bitsOf v f.info.hi f.info.lo; (f.info.acc = .rw) ∧ (f.info.static = true) ∧ (en = true) ∧ (x ≠ s.fld w i f))) ∧
    (∃ (en : Bool) (w i v : Nat) (r : Reg) (f : Fld) (s : State), (fldAbsent s f = false) ∧ (f.info.acc = .w1c)) :=
  ⟨⟨2, 5, run, by decide +kernel⟩,
   ⟨0x1000004, 5, run, by decide +kernel⟩,
   ⟨0x9FFFFC, 5, run, by decide +kernel⟩,
   ⟨bar0 0 0 .qeQpFree, 5, 0, 0, .qeQpFree, false, run, by decide +kernel⟩,
   ⟨bar0 0 0 .rclGrpSel, 5, 0, 0, .rclGrpSel, false, run, ⟨by decide +kernel, by decide +kernel, by decide +kernel,
    by decide +kernel, by decide +kernel, by decide +kernel⟩⟩,
   ⟨bar0 0 0 .glbMac, 5, 0, 0, .glbMac, false, run, by decide +kernel⟩,
   ⟨bar0 0 0 .glbMac + 4, 5, 0, 0, .glbMac, true, run, by decide +kernel⟩,
   ⟨true, 0, 0, 5, .qeStatus, .qe_status_ctrl_active, run, by decide +kernel⟩,
   ⟨true, 0, 0, 5, .rclGrpSel, .rcl_grp_sel_sg, run, by decide +kernel⟩,
   ⟨true, 0, 0, 5, .qeCfg, .qe_cfg_freeze_default, run, by decide +kernel⟩,
   ⟨false, 0, 0, 5, .mapL1Cfg, .map_l1_cfg_l1_gib, run, by decide +kernel⟩,
   ⟨true, 0, 0, 5, .mapL1Cfg, .map_l1_cfg_l1_gib, run, by decide +kernel⟩,
   ⟨true, 0, 0, 2 ^ 31, .qeStatus, .qe_status_cfg_err, setFlds [(0, 0, .qe_status_cfg_err, 1)] run, by decide +kernel⟩⟩

theorem test_witness_BlockEnables :
    (∃ (t v : Nat) (s : State), (t ≠ pkgWin) ∧ (regOpen s t = true) ∧ (bitOf v 0 = true) ∧ (s.tfld t .map_cfg_map_enable = 0) ∧
      (orderHolds (writeCfg t .mapCfg (v - 1) s) t .map_cfg_map_enable = true) ∧ (mapFault t (writeCfg t .mapCfg (v - 1) s) =
      none)) ∧
    (∃ (t v : Nat) (s : State), (t ≠ pkgWin) ∧ (regOpen s t = true) ∧ (bitOf v 0 = true) ∧ (s.tfld t .map_cfg_map_enable = 0) ∧ ∃ w :
      State, (w.map.waiting = [])) ∧
    (∃ (t v : Nat) (s : State), (t ≠ pkgWin) ∧ (regOpen s t = true) ∧ (bitOf v 0 = true) ∧ (s.tfld t .map_cfg_map_enable = 0) ∧ ∃ n,
      (orderHolds (writeCfg t .mapCfg (v - 1) s) t .map_cfg_map_enable = true) ∧ (mapFault t (writeCfg t .mapCfg (v - 1) s) = some
      n)) ∧
    (∃ (t v : Nat) (s : State), (t ≠ pkgWin) ∧ (regOpen s t = true) ∧ (bitOf v 0 = true) ∧ (s.tfld t .map_cfg_map_enable = 0) ∧
      (orderHolds (writeCfg t .mapCfg (v - 1) s) t .map_cfg_map_enable = false)) ∧
    (∃ (t v : Nat) (s : State), (t ≠ pkgWin) ∧ (regOpen s t = true) ∧ (bitOf v 0 = true) ∧ (s.tfld t .plc_cfg_plc_enable = 0) ∧
      (orderHolds (writeCfg t .plcCfg (v - 1) s) t .plc_cfg_plc_enable = true) ∧ (stageFits t (writeCfg t .plcCfg (v - 1) s) =
      true)) ∧
    (∃ (t v : Nat) (s : State), (t ≠ pkgWin) ∧ (regOpen s t = true) ∧ (bitOf v 0 = true) ∧ (s.tfld t .plc_cfg_plc_enable = 0) ∧
      (orderHolds (writeCfg t .plcCfg (v - 1) s) t .plc_cfg_plc_enable = true) ∧ (stageFits t (writeCfg t .plcCfg (v - 1) s) =
      false)) ∧
    (∃ (t v : Nat) (s : State), (t ≠ pkgWin) ∧ (regOpen s t = true) ∧ (bitOf v 0 = true) ∧ (s.tfld t .plc_cfg_plc_enable = 0) ∧
      (orderHolds (writeCfg t .plcCfg (v - 1) s) t .plc_cfg_plc_enable = false)) ∧
    (∃ (t v : Nat) (s : State), (t ≠ pkgWin) ∧ (regOpen s t = true) ∧ (bitOf v 0 = true) ∧ (s.tfld t .rcl_cfg_rcl_enable = 0) ∧
      (orderHolds (writeCfg t .rclCfg (v - 1) s) t .rcl_cfg_rcl_enable = true)) ∧
    (∃ (t v : Nat) (s : State), (t ≠ pkgWin) ∧ (regOpen s t = true) ∧ (bitOf v 0 = true) ∧ (s.tfld t .rcl_cfg_rcl_enable = 0) ∧
      (orderHolds (writeCfg t .rclCfg (v - 1) s) t .rcl_cfg_rcl_enable = false)) ∧
    (∃ (t v : Nat) (s : State), (t ≠ pkgWin) ∧ (regOpen s t = true) ∧ (bitOf v 0 = true) ∧ (s.tfld t .red_cfg_red_enable = 0) ∧
      (orderHolds (writeCfg t .redCfg (v - 1) s) t .red_cfg_red_enable = true)) ∧
    (∃ (t v : Nat) (s : State), (t ≠ pkgWin) ∧ (regOpen s t = true) ∧ (bitOf v 0 = true) ∧ (s.tfld t .red_cfg_red_enable = 0) ∧
      (orderHolds (writeCfg t .redCfg (v - 1) s) t .red_cfg_red_enable = false)) ∧
    (∃ (t v : Nat) (s : State), (t ≠ pkgWin) ∧ (regOpen s t = true) ∧ (bitOf v 0 = true) ∧ (s.tfld t .qe_cfg_qe_enable = 0) ∧
      (orderHolds (writeCfg t .qeCfg (v - 1) s) t .qe_cfg_qe_enable = true)) ∧
    (∃ (t v : Nat) (s : State), (t ≠ pkgWin) ∧ (regOpen s t = true) ∧ (bitOf v 0 = true) ∧ (s.tfld t .qe_cfg_qe_enable = 0) ∧
      (orderHolds (writeCfg t .qeCfg (v - 1) s) t .qe_cfg_qe_enable = false)) ∧
    (∃ (t v : Nat) (s : State), (t ≠ pkgWin) ∧ (regOpen s t = true) ∧ (bitOf v 0 = false)) ∧
    (∃ (t v : Nat) (s : State), (t = pkgWin ∨ regOpen s t = false)) :=
  ⟨⟨0, 1 + 1024 * 256, beforeMap, by decide +kernel⟩,
   ⟨0, 1 + 1024 * 256, beforeMap, by decide +kernel, by decide +kernel, by decide +kernel, by decide +kernel, run, by decide +kernel⟩,
   ⟨0, 1, beforeMap, by decide +kernel, by decide +kernel, by decide +kernel, by decide +kernel, 2, by decide +kernel,
    by decide +kernel⟩,
   ⟨0, 1, run, by decide +kernel⟩,
   ⟨0, 1, allOn [.map_cfg_map_enable], by decide +kernel⟩,
   ⟨0, 1, setFlds [(0, 0, .plc_stage_cfg_stage_dram_mib, 8000)] (allOn [.map_cfg_map_enable]), by decide +kernel⟩,
   ⟨0, 1, run, by decide +kernel⟩,
   ⟨0, 1, enabled [.plc_cfg_plc_enable] run, by decide +kernel⟩,
   ⟨0, 1, run, by decide +kernel⟩,
   ⟨0, 1, enabled [.med_cfg_med_enable] run, by decide +kernel⟩,
   ⟨0, 1, run, by decide +kernel⟩,
   ⟨0, 1, enabled [.map_cfg_map_enable, .plc_cfg_plc_enable, .rcl_cfg_rcl_enable, .cry_cfg_cry_enable] run, by decide +kernel⟩,
   ⟨0, 1, run, by decide +kernel⟩,
   ⟨0, 2, run, by decide +kernel⟩,
   ⟨8, 1, run, by decide +kernel⟩⟩



end Sys2Proof.Tests
end

section
/-!
PROOFS. Reserved bits of BAR0 (R12, R14). A read of the low half of a pair latches the high half only where the device counts the
pair (R165); for a pair that board software writes, the latch stays as it stood before the read.
-/
namespace Sys2Proof.Machine
open Sys2Proof

/-- A high half reads as latched at its offset, whichever pair it belongs to. -/
theorem readValue_high_of_latched {s : State} {off w i v : Nat} {r : Reg} (hreg : regAt s off = some (w, r, i, true))
    (hans : regAnswers s w r = true) (hlatch : s.regs.latch.find? (fun l => l.1 == off) = some (off, v)) :
    readValue s off = v := by
  simp [readValue, hreg, hans, hlatch]

/-- A pair that board software writes is not latched by a read (R12). -/
theorem latched_of_held {r : Reg} (h : r.held = true) : r.latched = false := by
  simp [Reg.latched, h]

/-- A read of a pair that board software writes sets nothing off (R12). -/
theorem readEffect_of_held {w i : Nat} {r : Reg} {s : State} (h : r.held = true) : readEffect w i r s = s := by
  have hr : r = .glbMac ∨ r = .bptRingBase ∨ r = .bptRingWb := by
    simpa [Reg.held, or_assoc] using h
  obtain rfl | rfl | rfl := hr <;> rfl

/-- A read of the low half of such a pair answers its value and changes nothing else: the latch stands as before. -/
theorem readReg_low_of_held {s : State} {off w i : Nat} {r : Reg} (hoff : off % 4 = 0)
    (hreg : regAt s off = some (w, r, i, false)) (hheld : r.held = true) :
    readReg off s = emit (.regRead off (readValue s off)) s := by
  simp [readReg, hoff, hreg, latched_of_held hheld, readEffect_of_held hheld]

theorem regAt_emit (s : State) (o : Out) (off : Nat) : regAt (emit o s) off = regAt s off := rfl
theorem regAnswers_emit (s : State) (o : Out) (w : Nat) (r : Reg) : regAnswers (emit o s) w r = regAnswers s w r := rfl

/-- The package in RUN, with bit 31 latched at 0x100014, the high half of tile 0's first MAC address: a reserved bit, since the
address ends at bit 47 of the pair. No command latches at that offset, but the statement asks nothing of the latch. -/
def macLatched : State :=
  { State.reset with
    island := { State.reset.island with pkg := 2, vaux := true, sysRst := false }
    regs := { State.reset.regs with latch := [(0x100014, 2 ^ 31)] } }

theorem regAt_macLatched_low : regAt macLatched 0x100010 = some (0, .glbMac, 0, false) := by decide +kernel
theorem regAt_macLatched_high : regAt macLatched 0x100014 = some (0, .glbMac, 0, true) := by decide +kernel
theorem regAnswers_macLatched : regAnswers macLatched 0 .glbMac = true := by decide +kernel

/-- After the read of its low half, the high half of the MAC address still reads as the latch stood. -/
theorem readValue_macLatched_high : readValue (readReg 0x100010 macLatched) 0x100014 = 2 ^ 31 := by
  rw [readReg_low_of_held (by decide) regAt_macLatched_low rfl]
  exact readValue_high_of_latched ((regAt_emit _ _ _).trans regAt_macLatched_high)
    ((regAnswers_emit _ _ _ _).trans regAnswers_macLatched) rfl

/-- Refutes O6, by its first clause's claim on the high half: it bounds what stands latched there only for a pair whose low half's read
latches it, yet claims it of every pair. In `macLatched` the reserved bit 31 of the high half of tile 0's MAC address reads 1. -/
theorem not_reservedBitsAndOffsets : ¬ Obligations.ReservedBitsAndOffsets := by
  unfold Obligations.ReservedBitsAndOffsets
  rintro ⟨hread, -⟩
  obtain ⟨u, hu, v, -, -, hhigh⟩ := hread 0x100010 0 0 .glbMac macLatched (by decide) regAt_macLatched_low
  obtain rfl : readReg 0x100010 macLatched = u := Host.Outcome.next.inj hu
  have hbit := hhigh 0 regAt_macLatched_high 31 (by decide)
  rw [readValue_macLatched_high] at hbit
  exact absurd hbit (by decide)

end Sys2Proof.Machine
end

section
/-!
PROOFS. The FREE band a stream opens (R197, R214). `bestBy` picks the band of the highest score, ties to the lowest index. Its scores
are whole numbers: the mean wear in units of 1/720720. A band has at most 16 members, their number divides 720720, and so the scores
order the bands as the exact means do.
-/
namespace Sys2Proof.Machine
open Sys2Proof

/-- `b` stands at or before `x` in the order of `bestBy`: by the higher score, then by the lower index. -/
def AtLeastAsGood (f : Band → Int) (b x : Band) : Prop := f x < f b ∨ (f x = f b ∧ b.idx ≤ x.idx)

theorem AtLeastAsGood.refl (f : Band → Int) (b : Band) : AtLeastAsGood f b b := .inr ⟨rfl, le_rfl⟩

theorem AtLeastAsGood.trans {f : Band → Int} {a b c : Band} (hab : AtLeastAsGood f a b) (hbc : AtLeastAsGood f b c) :
    AtLeastAsGood f a c := by
  unfold AtLeastAsGood at *
  omega

/-- What `bestBy` keeps of a band and the best of the bands after it: one of the two, at least as good as both. -/
theorem bestBy_cons_of_some {f : Band → Int} {b c : Band} {bs : List Band} (hc : bestBy f bs = some c) :
    (bestBy f (b :: bs) = some b ∧ AtLeastAsGood f b c) ∨ (bestBy f (b :: bs) = some c ∧ AtLeastAsGood f c b) := by
  simp only [bestBy, hc, Bool.and_eq_true, beq_iff_eq, decide_eq_true_eq]
  split
  case isTrue hlt => exact .inl ⟨rfl, .inl hlt⟩
  case isFalse hle =>
    split
    case isTrue htie => exact .inl ⟨rfl, .inr ⟨htie.1, htie.2⟩⟩
    case isFalse hno => exact .inr ⟨rfl, by unfold AtLeastAsGood; omega⟩

/-- Of some bands, `bestBy` answers one that is at least as good as every other. -/
theorem bestBy_of_ne_nil (f : Band → Int) {bs : List Band} (hne : bs ≠ []) :
    ∃ b ∈ bs, bestBy f bs = some b ∧ ∀ x ∈ bs, AtLeastAsGood f b x := by
  induction bs with
  | nil => contradiction
  | cons b bs ih =>
    obtain rfl | hbs := eq_or_ne bs []
    · exact ⟨b, List.mem_cons_self, rfl, by simpa using AtLeastAsGood.refl f b⟩
    · obtain ⟨c, hmem, hc, hbest⟩ := ih hbs
      obtain ⟨hsome, hbc⟩ | ⟨hsome, hcb⟩ := bestBy_cons_of_some (b := b) hc
      · exact ⟨b, List.mem_cons_self, hsome, List.forall_mem_cons.2 ⟨.refl f b, fun x hx => hbc.trans (hbest x hx)⟩⟩
      · exact ⟨c, List.mem_cons_of_mem b hmem, hsome, List.forall_mem_cons.2 ⟨hcb, hbest⟩⟩

/-- Mean member wear of a band as R197 means it, with no rounding. -/
def exactMean (s : State) (b : Band) : Rat := (wearSum s b : Rat) / ((bandBlocks s b).length : Rat)

/-- A band of 1 to 16 members, for which the unit of `wearMean` loses nothing. -/
def UpTo16Members (s : State) (b : Band) : Prop := 1 ≤ (bandBlocks s b).length ∧ (bandBlocks s b).length ≤ 16

theorem dvd_720720 {n : Nat} (hpos : 1 ≤ n) (hle : n ≤ 16) : n ∣ 720720 := by
  interval_cases n <;> decide

theorem wearMean_eq_exactMean {s : State} {b : Band} (hb : UpTo16Members s b) :
    (wearMean s b : Rat) = 720720 * exactMean s b := by
  obtain ⟨hpos, hle⟩ := hb
  have hne : ((bandBlocks s b).length : Rat) ≠ 0 := by exact_mod_cast Nat.one_le_iff_ne_zero.1 hpos
  rw [wearMean, Nat.cast_div ((dvd_720720 hpos hle).mul_right _) hne, exactMean]
  push_cast
  ring

theorem wearMean_lt_iff {s : State} {x b : Band} (hx : UpTo16Members s x) (hb : UpTo16Members s b) :
    wearMean s x < wearMean s b ↔ exactMean s x < exactMean s b := by
  rw [← Nat.cast_lt (α := Rat), wearMean_eq_exactMean hx, wearMean_eq_exactMean hb]
  exact mul_lt_mul_iff_right₀ (by norm_num)

theorem wearMean_eq_iff {s : State} {x b : Band} (hx : UpTo16Members s x) (hb : UpTo16Members s b) :
    wearMean s x = wearMean s b ↔ exactMean s x = exactMean s b := by
  rw [← Nat.cast_inj (R := Rat), wearMean_eq_exactMean hx, wearMean_eq_exactMean hb]
  exact mul_right_inj' (by norm_num)

/-- By the score of RELOCATE, the better band is the more worn. -/
theorem atLeastAsGood_wearMean_iff {s : State} {b x : Band} (hb : UpTo16Members s b) (hx : UpTo16Members s x) :
    AtLeastAsGood (fun b => (wearMean s b : Int)) b x ↔
      exactMean s x < exactMean s b ∨ (exactMean s x = exactMean s b ∧ b.idx ≤ x.idx) := by
  simp only [AtLeastAsGood, Nat.cast_lt, Nat.cast_inj, wearMean_lt_iff hx hb, wearMean_eq_iff hx hb]

/-- By the score of the other streams, the better band is the less worn. -/
theorem atLeastAsGood_neg_wearMean_iff {s : State} {b x : Band} (hb : UpTo16Members s b) (hx : UpTo16Members s x) :
    AtLeastAsGood (fun b => -(wearMean s b : Int)) b x ↔
      exactMean s b < exactMean s x ∨ (exactMean s b = exactMean s x ∧ b.idx ≤ x.idx) := by
  simp only [AtLeastAsGood, neg_lt_neg_iff, neg_inj, Nat.cast_lt, Nat.cast_inj, wearMean_lt_iff hb hx, wearMean_eq_iff hx hb,
    eq_comm (a := exactMean s x)]

theorem bandToOpen_relocate (s : State) (sg : Nat) :
    bandToOpen s sg .relocate = bestBy (fun b => (wearMean s b : Int)) (freeBands s sg) := rfl

theorem bandToOpen_of_le_reserve {s : State} {sg : Nat} {st : Stream} (hst : st ≠ .relocate)
    (hle : (freeBands s sg).length ≤ reserveOf s sg) : bandToOpen s sg st = none := by
  simp [bandToOpen, hst, hle]

theorem bandToOpen_of_reserve_lt {s : State} {sg : Nat} {st : Stream} (hst : st ≠ .relocate)
    (hlt : reserveOf s sg < (freeBands s sg).length) :
    bandToOpen s sg st = bestBy (fun b => -(wearMean s b : Int)) (freeBands s sg) := by
  simp [bandToOpen, hst, hlt.not_ge]

end Sys2Proof.Machine

/-! The model's own `bandToOpen` bears the settling theorem's name, so the theorem has a namespace of its own. -/
namespace Sys2Proof.Settled
open Sys2Proof Sys2Proof.Machine

/-- Settles O8: the two scores of `bandToOpen` order bands of at most 16 members as their exact means do. -/
theorem bandToOpen : Obligations.BandToOpen := by
  unfold Obligations.BandToOpen
  intro sg st s hsize mean
  refine ⟨fun hle hst => bandToOpen_of_le_reserve hst hle, fun hne hopen => ?_⟩
  by_cases hst : st = .relocate
  · subst hst
    obtain ⟨b, hmem, hbest, hall⟩ := bestBy_of_ne_nil (fun b => (wearMean s b : Int)) hne
    exact ⟨b, hmem, (bandToOpen_relocate s sg).trans hbest,
      fun _ x hx => (atLeastAsGood_wearMean_iff (hsize b hmem) (hsize x hx)).1 (hall x hx), fun h => absurd rfl h⟩
  · obtain ⟨b, hmem, hbest, hall⟩ := bestBy_of_ne_nil (fun b => -(wearMean s b : Int)) hne
    exact ⟨b, hmem, (bandToOpen_of_reserve_lt hst (hopen.resolve_right hst)).trans hbest, fun h => absurd h hst,
      fun _ x hx => (atLeastAsGood_neg_wearMean_iff (hsize b hmem) (hsize x hx)).1 (hall x hx)⟩

end Sys2Proof.Settled
end

section
/-!
PROOFS. A gap whose record is held only in the event band (R433, R434). The window then presents the record once it is fetched, by a
read that the cursor's write enters in the queue of a die (R37): the write changes the media, not the window alone.
-/
namespace Sys2Proof.Machine
open Sys2Proof

@[simp] theorem nextOp_dispatch (d : Nat) (s : State) : (dispatch d s).media.nextOp = s.media.nextOp := by
  unfold dispatch
  split
  case h_1 => rfl
  case h_2 =>
    split
    case isTrue => rfl
    case isFalse =>
      split
      case h_1 => rfl
      case h_2 => split <;> rfl

@[simp] theorem nextOp_trySuspend (d : Nat) (s : State) : (trySuspend d s).media.nextOp = s.media.nextOp := by
  unfold trySuspend
  split
  case h_1 => rfl
  case h_2 =>
    dsimp only
    split
    case isTrue => rfl
    case isFalse => split <;> rfl

/-- An operation entered in a die's queue takes the next number, whether or not the die takes it at once. -/
@[simp] theorem nextOp_addOp (o : DieOp) (s : State) : (addOp o s).media.nextOp = s.media.nextOp + 1 := by
  simp [addOp]

/-- The state with the window empty and its cursor at `n`, from which a latch begins. -/
def cursorAt (n : Nat) (s : State) : State := updEvr (fun e => { e with win := { EvWin.initial with cursor := n } }) s

/-- At a gap, the record of the lowest number above the cursor that is held is shown (R434). -/
theorem latchAt_of_gap {n m : Nat} {s : State} (hgap : ∀ r ∈ held s, r.seq ≠ n) (hhead : n ≤ s.evr.last)
    (hheld : ∃ r ∈ held s, r.seq = m) (hlt : n < m) (hlow : ∀ r ∈ held s, n < r.seq → m ≤ r.seq) :
    latchAt n s = showRecord m true (cursorAt n s) := by
  have hnone : ((held s).any fun r => r.seq == n) = false := by simpa using hgap
  have hmin : (((held s).filter fun r => n < r.seq).map (·.seq)).min? = some m := by
    obtain ⟨r, hr, rfl⟩ := hheld
    rw [List.min?_eq_some_iff]
    refine ⟨List.mem_map_of_mem (List.mem_filter.2 ⟨hr, decide_eq_true hlt⟩), List.forall_mem_map.2 fun x hx => ?_⟩
    obtain ⟨hxheld, hxlt⟩ := List.mem_filter.1 hx
    exact hlow x hxheld (of_decide_eq_true hxlt)
  simp only [latchAt, hnone, hhead.not_gt, hmin, Bool.false_eq_true, if_false, cursorAt]

/-- The first block of the event band on a die in service, from which a record is fetched. -/
def bandCopy (s : State) : Option Blk := s.rcl.blocks.find? fun b => b.state == .eventBand && dieServes s b.die

/-- Showing a record that the store does not hold enters a read of the event band, while a copy of it is in service (R433). -/
theorem nextOp_showRecord_of_band {n : Nat} {gap : Bool} {b : Blk} {s : State}
    (hstore : ∀ r ∈ s.evr.store, r.seq ≠ n) (hcopy : bandCopy s = some b) :
    (showRecord n gap s).media.nextOp = s.media.nextOp + 1 := by
  have hfind : (s.evr.store.find? fun r => r.seq == n) = none := by simpa using hstore
  unfold showRecord
  rw [hfind]
  dsimp only
  split
  case h_1 => exact nextOp_addOp _ _
  case h_2 hnone => cases hnone.symm.trans hcopy

/-- The package in RUN, its channel 0 up with die 0 in service, which has a block of the event band. The recorder holds record 6 alone,
archived in that block; the numbers below it are lost. -/
def archivedPastGap : State :=
  { State.reset with
    island := { State.reset.island with pkg := 2, vaux := true, sysRst := false }
    media := { State.reset.media with
      chans := [{ ch := 0, state := .up, step := 0, rate := 1, limit := 1, margin := 0, downAt := [], lastDown := 0, pinned := false,
                  loads := [0], bursts := [], turn := 0 }]
      dies := [newDie 0] }
    rcl := { State.reset.rcl with blocks := [freshBlk 0 .eventBand 1] }
    evr := { State.reset.evr with
      last := 6
      band := [{ seq := 6, code := 1, sev := 3, tile := 0, flags := 0, minutes := 0, cycles := 0, repeats := 0, params := [],
                 archived := true, ms := 0 }] } }

theorem regAnswers_archivedPastGap : regAnswers archivedPastGap pkgWin .evrCursor = true := by decide +kernel
theorem bandCopy_archivedPastGap : bandCopy (cursorAt 5 archivedPastGap) = some (freshBlk 0 .eventBand 1) := by decide +kernel

/-- A write of 5 to the cursor, where record 6 is the lowest held, enters the read that fetches it. -/
theorem nextOp_latchAt_archivedPastGap : (latchAt 5 archivedPastGap).media.nextOp = archivedPastGap.media.nextOp + 1 := by
  rw [latchAt_of_gap (m := 6) (by decide) (by decide) (by decide) (by decide) (by decide)]
  exact nextOp_showRecord_of_band (by decide) bandCopy_archivedPastGap

theorem execEvrCursorWrite_of_answers {n : Nat} {s : State} (hans : regAnswers s pkgWin .evrCursor = true) (hn : n < 2 ^ 32) :
    exec (.evrCursorWrite n) s = .next (latchAt n s) := by
  have harm : exec (.evrCursorWrite n) s = execEvrCursorWrite n s := rfl
  rw [harm, execEvrCursorWrite, if_pos hans, Nat.mod_eq_of_lt hn]

/-- Refutes O7, by its first clause's claim that the cursor's write changes nothing but the window. In `archivedPastGap` the record above
the gap is held in the event band alone, and the write also enters the read that fetches it. -/
theorem not_eventWindowGap : ¬ Obligations.EventWindowGap := by
  unfold Obligations.EventWindowGap
  rintro ⟨hgap, -, -⟩
  obtain ⟨t, ht, hframe, -⟩ := hgap 5 6 archivedPastGap regAnswers_archivedPastGap (by decide) (by decide) (by decide) (by decide)
    (by decide) (by decide)
  obtain rfl : latchAt 5 archivedPastGap = t :=
    Host.Outcome.next.inj ((execEvrCursorWrite_of_answers regAnswers_archivedPastGap (by decide)).symm.trans ht)
  have hmedia : (latchAt 5 archivedPastGap).media = archivedPastGap.media := by rw [hframe]
  have hread := nextOp_latchAt_archivedPastGap
  rw [hmedia] at hread
  exact absurd hread (Nat.ne_add_one _)

end Sys2Proof.Machine
end

section
/-!
PROOFS. What every command and every step keeps (R1, R3, R350 to R352, R444, R461): by `kept_exec`, one case for each command, from the
lemma about its meaning.
-/
namespace Sys2Proof.Machine
open Sys2Proof

/-- Every command keeps the queue, the unit and the canonical form of the memory. -/
theorem kept_exec {c : Instr} {s u : State} (e : exec c s = .next u) : Kept s u := by
  cases c with
  | tcpConnectionRequest => exact kept_execTcpConnectionRequest e
  | rdmaConnectionRequest => exact kept_execRdmaConnectionRequest e
  | capsuleReceived => exact kept_execCapsuleReceived e
  | h2cdataPdu => exact kept_execH2cdataPdu e
  | rdmaReadCompletion => exact kept_execRdmaReadCompletion e
  | hostMemoryReadCompletion => exact kept_execHostMemoryReadCompletion e
  | submissionQueueTailDoorbell => exact kept_execSubmissionQueueTailDoorbell e
  | completionQueueHeadDoorbell => exact kept_execCompletionQueueHeadDoorbell e
  | commandFetch => exact kept_execCommandFetch e
  | heldCommandAdmit => exact kept_execHeldCommandAdmit e
  | rateInterval => exact kept_execRateInterval e
  | urgentBudgetInterval => exact kept_execUrgentBudgetInterval e
  | interruptAggregationTime => exact kept_execInterruptAggregationTime e
  | controllerEnable => exact kept_execControllerEnable e
  | controllerReset => exact kept_execControllerReset e
  | shutdown _ abrupt => exact kept_execShutdown (_abrupt := abrupt) e
  | functionLevelReset => exact kept_execFunctionLevelReset e
  | conventionalReset => exact kept_execConventionalReset e
  | fabricsConnect => exact kept_execFabricsConnect e
  | propertyGet => exact kept_execPropertyGet e
  | propertySet => exact kept_execPropertySet e
  | disconnect => exact kept_execDisconnect e
  | keepAlive => exact kept_execKeepAlive e
  | keepAliveExpiry => exact kept_execKeepAliveExpiry e
  | createIoSubmissionQueue => exact kept_execCreateIoSubmissionQueue e
  | createIoCompletionQueue => exact kept_execCreateIoCompletionQueue e
  | deleteIoSubmissionQueue => exact kept_execDeleteIoSubmissionQueue e
  | deleteIoCompletionQueue => exact kept_execDeleteIoCompletionQueue e
  | asynchronousEventRequest => exact kept_execAsynchronousEventRequest e
  | abort => exact kept_execAbort e
  | queueThaw => exact kept_execQueueThaw e
  | identify => exact kept_execIdentify e
  | setFeaturesNumberOfQueues => exact kept_execSetFeaturesNumberOfQueues e
  | setFeaturesArbitration => exact kept_execSetFeaturesArbitration e
  | setFeaturesInterruptCoalescing => exact kept_execSetFeaturesInterruptCoalescing e
  | setFeaturesOrderingMode => exact kept_execSetFeaturesOrderingMode e
  | setFeaturesQueueClass => exact kept_execSetFeaturesQueueClass e
  | setFeaturesQueueFreezeMode => exact kept_execSetFeaturesQueueFreezeMode e
  | setFeaturesSecureDeallocation => exact kept_execSetFeaturesSecureDeallocation e
  | getFeatures => exact kept_execGetFeatures e
  | getFeaturesOrderingMode => exact kept_execGetFeaturesOrderingMode e
  | getFeaturesQueueClass => exact kept_execGetFeaturesQueueClass e
  | getFeaturesQueueFreezeMode => exact kept_execGetFeaturesQueueFreezeMode e
  | getFeaturesSecureDeallocation => exact kept_execGetFeaturesSecureDeallocation e
  | namespaceCreate => exact kept_execNamespaceCreate e
  | namespaceDelete => exact kept_execNamespaceDelete e
  | namespaceDeleteDrain => exact kept_execNamespaceDeleteDrain e
  | namespaceUnmapEnd => exact kept_execNamespaceUnmapEnd e
  | namespaceAttach => exact kept_execNamespaceAttach e
  | namespaceDetach => exact kept_execNamespaceDetach e
  | detachDrain => exact kept_execDetachDrain e
  | formatNvm => exact kept_execFormatNvm e
  | sanitize => exact kept_execSanitize e
  | keyLoad => exact kept_execKeyLoad e
  | keyLoadConfirm => exact kept_execKeyLoadConfirm e
  | keySlotClear => exact kept_execKeySlotClear e
  | namespaceLimits => exact kept_execNamespaceLimits e
  | tenantSet => exact kept_execTenantSet e
  | tenantGet => exact kept_execTenantGet e
  | tenantDelete => exact kept_execTenantDelete e
  | bptCmdTail => exact kept_execBptCmdTail e
  | bptRspHead => exact kept_execBptRspHead e
  | bptMtrHead => exact kept_execBptMtrHead e
  | bptEvtHead => exact kept_execBptEvtHead e
  | descriptorFetch => exact kept_execDescriptorFetch e
  | ringCoalesceTimer => exact kept_execRingCoalesceTimer e
  | configCommit => exact kept_execConfigCommit e
  | providerSet => exact kept_execProviderSet e
  | providerGet => exact kept_execProviderGet e
  | netifSet => exact kept_execNetifSet e
  | netifGet => exact kept_execNetifGet e
  | identityGet => exact kept_execIdentityGet e
  | ringEnable => exact kept_execRingEnable e
  | boardPortReset => exact kept_execBoardPortReset e
  | commit => exact kept_execCommit e
  | revert => exact kept_execRevert e
  | commitValidated => exact kept_execCommitValidated e
  | commitApplied => exact kept_execCommitApplied e
  | miCommandHealth => exact kept_execMiCommandHealth e
  | miCommandStatic => exact kept_execMiCommandStatic e
  | mapLookup => exact kept_execMapLookup e
  | mapUpdate => exact kept_execMapUpdate e
  | mapFetchDone => exact kept_execMapFetchDone e
  | writeBackStart => exact kept_execWriteBackStart e
  | writeBackProgrammed => exact kept_execWriteBackProgrammed e
  | journalEntryMirrored => exact kept_execJournalEntryMirrored e
  | journalQuarterTimer => exact kept_execJournalQuarterTimer e
  | journalSegmentProgrammed => exact kept_execJournalSegmentProgrammed e
  | mapCheckpoint => exact kept_execMapCheckpoint e
  | forwardReceived => exact kept_execForwardReceived e
  | forwardConfirm => exact kept_execForwardConfirm e
  | forwardTimeout => exact kept_execForwardTimeout e
  | adoptedRecordLoad => exact kept_execAdoptedRecordLoad e
  | slotHandBack => exact kept_execSlotHandBack e
  | regionCoalesce => exact kept_execRegionCoalesce e
  | mapReplayDone => exact kept_execMapReplayDone e
  | extentStaged => exact kept_execExtentStaged e
  | mirrorCopyReceived => exact kept_execMirrorCopyReceived e
  | mirrorConfirm => exact kept_execMirrorConfirm e
  | stageConfirm => exact kept_execStageConfirm e
  | mapConfirm => exact kept_execMapConfirm e
  | reservationRequest => exact kept_execReservationRequest e
  | unitReturn => exact kept_execUnitReturn e
  | rowTimerExpiry => exact kept_execRowTimerExpiry e
  | parityUnitReceived => exact kept_execParityUnitReceived e
  | rowProgramDone => exact kept_execRowProgramDone e
  | programFailure => exact kept_execProgramFailure e
  | seqPadTimer => exact kept_execSeqPadTimer e
  | writeSequenceLease => exact kept_execWriteSequenceLease e
  | headroomLeaseRequest => exact kept_execHeadroomLeaseRequest e
  | slcBufferRecompute => exact kept_execSlcBufferRecompute e
  | promotionStart => exact kept_execPromotionStart e
  | reclaimRescore => exact kept_execReclaimRescore e
  | livenessQuery => exact kept_execLivenessQuery e
  | relocationCommitted => exact kept_execRelocationCommitted e
  | eraseDrainEnd => exact kept_execEraseDrainEnd e
  | nandEraseDone => exact kept_execNandEraseDone e
  | eraseFailure => exact kept_execEraseFailure e
  | censusRegion => exact kept_execCensusRegion e
  | summaryRebuildDone => exact kept_execSummaryRebuildDone e
  | sweepRowsProgrammed => exact kept_execSweepRowsProgrammed e
  | sweepEnd => exact kept_execSweepEnd e
  | sweepLogExpiry => exact kept_execSweepLogExpiry e
  | medEnable => exact kept_execMedEnable e
  | channelTrainingStep => exact kept_execChannelTrainingStep e
  | trainingBurst => exact kept_execTrainingBurst e
  | trackingBurstDue => exact kept_execTrackingBurstDue e
  | chRateDown => exact kept_execChRateDown e
  | chRateUp => exact kept_execChRateUp e
  | nandReadDone => exact kept_execNandReadDone e
  | nandProgramDone => exact kept_execNandProgramDone e
  | nandSuspendDone => exact kept_execNandSuspendDone e
  | suspendWaitExpiry => exact kept_execSuspendWaitExpiry e
  | ldpcDecodeDone => exact kept_execLdpcDecodeDone e
  | dieReadyTimeout => exact kept_execDieReadyTimeout e
  | patrolRead => exact kept_execPatrolRead e
  | disturbLimit => exact kept_execDisturbLimit e
  | readLevelSave => exact kept_execReadLevelSave e
  | fingerprintReport => exact kept_execFingerprintReport e
  | parityMismatchLocate => exact kept_execParityMismatchLocate e
  | rowStoreExpiry => exact kept_execRowStoreExpiry e
  | reconstructionDone => exact kept_execReconstructionDone e
  | lostRangeSearch => exact kept_execLostRangeSearch e
  | healBandStart => exact kept_execHealBandStart e
  | substDone => exact kept_execSubstDone e
  | verifyStart => exact kept_execVerifyStart e
  | verifyEnd => exact kept_execVerifyEnd e
  | sjTailTimer => exact kept_execSjTailTimer e
  | sjSnapshot => exact kept_execSjSnapshot e
  | sjCopyLost => exact kept_execSjCopyLost e
  | sjCopyRestored => exact kept_execSjCopyRestored e
  | bpmEnable => exact kept_execBpmEnable e
  | bufferAllocate => exact kept_execBufferAllocate e
  | bufferFree => exact kept_execBufferFree e
  | poolReset => exact kept_execPoolReset e
  | poolRebuildDone => exact kept_execPoolRebuildDone e
  | cmpEnable => exact kept_execCmpEnable e
  | compressJob => exact kept_execCompressJob e
  | decompressJob => exact kept_execDecompressJob e
  | crcOnlyJob => exact kept_execCrcOnlyJob e
  | streamSlotTimeout => exact kept_execStreamSlotTimeout e
  | cryEnable => exact kept_execCryEnable e
  | encryptJob => exact kept_execEncryptJob e
  | decryptJob => exact kept_execDecryptJob e
  | digestDirectOpen => exact kept_execDigestDirectOpen e
  | digestSnoopOpen => exact kept_execDigestSnoopOpen e
  | digestData => exact kept_execDigestData e
  | snoopStreamEnd => exact kept_execSnoopStreamEnd e
  | digestFinish => exact kept_execDigestFinish e
  | digestRelease => exact kept_execDigestRelease e
  | signatureVerifyRequest => exact kept_execSignatureVerifyRequest e
  | signatureVerifyDone => exact kept_execSignatureVerifyDone e
  | drcEnable => exact kept_execDrcEnable e
  | dramStartStep => exact kept_execDramStartStep e
  | dramRead => exact kept_execDramRead e
  | dramAlert => exact kept_execDramAlert e
  | refreshDue => exact kept_execRefreshDue e
  | tempPoll => exact kept_execTempPoll e
  | scrub => exact kept_execScrub e
  | rowIdleClose => exact kept_execRowIdleClose e
  | rankPowerDown => exact kept_execRankPowerDown e
  | retrainStep => exact kept_execRetrainStep e
  | dramMarginLow => exact kept_execDramMarginLow e
  | captureStatusRead => exact kept_execCaptureStatusRead e
  | drcRestart => exact kept_execDrcRestart e
  | getLogPageErrorInformation => exact kept_execGetLogPageErrorInformation e
  | getLogPageSmartHealth => exact kept_execGetLogPageSmartHealth e
  | getLogPageEnduranceGroup => exact kept_execGetLogPageEnduranceGroup e
  | getLogPageFirmwareSlot => exact kept_execGetLogPageFirmwareSlot e
  | getLogPageDiscovery => exact kept_execGetLogPageDiscovery e
  | getLogPageFrozenQueues => exact kept_execGetLogPageFrozenQueues e
  | getLogPageTenantService => exact kept_execGetLogPageTenantService e
  | getLogPageSecureDeallocProgress => exact kept_execGetLogPageSecureDeallocProgress e
  | getLogPageLostRanges => exact kept_execGetLogPageLostRanges e
  | getLogPageFirmwareStaging => exact kept_execGetLogPageFirmwareStaging e
  | getLogPageDeviceHealth => exact kept_execGetLogPageDeviceHealth e
  | read => exact kept_execRead e
  | write => exact kept_execWrite e
  | flush => exact kept_execFlush e
  | compare => exact kept_execCompare e
  | writeZeroes => exact kept_execWriteZeroes e
  | verify => exact kept_execVerify e
  | datasetManagement => exact kept_execDatasetManagement e
  | stepReissue => exact kept_execStepReissue e
  | commandInterruptTimeout => exact kept_execCommandInterruptTimeout e
  | firmwareImageDownload => exact kept_execFirmwareImageDownload e
  | pieceWriteDone => exact kept_execPieceWriteDone e
  | digestCheckDone => exact kept_execDigestCheckDone e
  | firmwareCommitRecovery => exact kept_execFirmwareCommitRecovery e
  | firmwareCommitNextStart => exact kept_execFirmwareCommitNextStart e
  | firmwareCommitImmediate => exact kept_execFirmwareCommitImmediate e
  | activationStart => exact kept_execActivationStart e
  | activationQuiescent => exact kept_execActivationQuiescent e
  | activationEnd => exact kept_execActivationEnd e
  | firmwareConfirm => exact kept_execFirmwareConfirm e
  | installStepDone => exact kept_execInstallStepDone e
  | boot => exact kept_execBoot e
  | bootPrimaryTimeout => exact kept_execBootPrimaryTimeout e
  | cflashOperationDone => exact kept_execCflashOperationDone e
  | cflashIdleOff => exact kept_execCflashIdleOff e
  | stageClear => exact kept_execStageClear e
  | portDrainEnd => exact kept_execPortDrainEnd e
  | laneRestart => exact kept_execLaneRestart e
  | hostLinkUp => exact kept_execHostLinkUp e
  | hostLinkDown => exact kept_execHostLinkDown e
  | meshPacketReceived => exact kept_execMeshPacketReceived e
  | meshPacketSent => exact kept_execMeshPacketSent e
  | mgmtEscape => exact kept_execMgmtEscape e
  | meshLinkDown => exact kept_execMeshLinkDown e
  | meshLinkRetrain => exact kept_execMeshLinkRetrain e
  | routeHoldEnd => exact kept_execRouteHoldEnd e
  | transportConnectionClosed => exact kept_execTransportConnectionClosed e
  | neighbourResolutionRequest => exact kept_execNeighbourResolutionRequest e
  | echoRequest => exact kept_execEchoRequest e
  | priorityPauseFrame => exact kept_execPriorityPauseFrame e
  | powerFailDeclared => exact kept_execPowerFailDeclared e
  | pfWarn => exact kept_execPfWarn e
  | sagEnd => exact kept_execSagEnd e
  | budgetRecompute => exact kept_execBudgetRecompute e
  | bankAbsent => exact kept_execBankAbsent e
  | dischargeTestStart => exact kept_execDischargeTestStart e
  | testInterval => exact kept_execTestInterval e
  | hsenseRise => exact kept_execHsenseRise e
  | testCharged => exact kept_execTestCharged e
  | testEsrSample => exact kept_execTestEsrSample e
  | testDischargeEnd => exact kept_execTestDischargeEnd e
  | testTimeout => exact kept_execTestTimeout e
  | testNow => exact kept_execTestNow e
  | bankRelease => exact kept_execBankRelease e
  | bankSafe => exact kept_execBankSafe e
  | prepareOff => exact kept_execPrepareOff e
  | offReady => exact kept_execOffReady e
  | dumpTileReport => exact kept_execDumpTileReport e
  | restartRecordTimeout => exact kept_execRestartRecordTimeout e
  | postDumpRestart => exact kept_execPostDumpRestart e
  | holdupRelease => exact kept_execHoldupRelease e
  | restart => exact kept_execRestart e
  | dumpRelease => exact kept_execDumpRelease e
  | sensorConversion => exact kept_execSensorConversion e
  | sensorFault => exact kept_execSensorFault e
  | sensorRestored => exact kept_execSensorRestored e
  | throttleStep => exact kept_execThrottleStep e
  | throttleFall => exact kept_execThrottleFall e
  | rateWindow => exact kept_execRateWindow e
  | compensationStep tile => exact kept_execCompensationStep (_t := tile) e
  | oscillatorCalibration => exact kept_execOscillatorCalibration e
  | refclkLost => exact kept_execRefclkLost e
  | refclkRevert => exact kept_execRefclkRevert e
  | refclkBothLost => exact kept_execRefclkBothLost e
  | refclkReturn => exact kept_execRefclkReturn e
  | ethrefLost => exact kept_execEthrefLost e
  | ethrefReturn => exact kept_execEthrefReturn e
  | lightEntry => exact kept_execLightEntry e
  | tileWake => exact kept_execTileWake e
  | deepEntry => exact kept_execDeepEntry e
  | deepTimerWake => exact kept_execDeepTimerWake e
  | deepWake => exact kept_execDeepWake e
  | avsEnable => exact kept_execAvsEnable e
  | avsStep => exact kept_execAvsStep e
  | avsMonitorLow => exact kept_execAvsMonitorLow e
  | pmbusFault => exact kept_execPmbusFault e
  | pmbusAlert => exact kept_execPmbusAlert e
  | powerScaling => exact kept_execPowerScaling e
  | isenseFault => exact kept_execIsenseFault e
  | isenseRestored => exact kept_execIsenseRestored e
  | powerLimit => exact kept_execPowerLimit e
  | operatingMinute => exact kept_execOperatingMinute e
  | epochEnd => exact kept_execEpochEnd e
  | meteringCheckpoint => exact kept_execMeteringCheckpoint e
  | boardTimeWrite => exact kept_execBoardTimeWrite e
  | eventRaised => exact kept_execEventRaised e
  | tokenRefill => exact kept_execTokenRefill e
  | archiveAgeTimer => exact kept_execArchiveAgeTimer e
  | archiveProgrammed => exact kept_execArchiveProgrammed e
  | evrCursorWrite => exact kept_execEvrCursorWrite e
  | windowData7Read => exact kept_execWindowData7Read e
  | bandFetchDone => exact kept_execBandFetchDone e
  | qeEnable => exact kept_execQeEnable e
  | mapEnable => exact kept_execMapEnable e
  | plcEnable => exact kept_execPlcEnable e
  | rclEnable => exact kept_execRclEnable e
  | redEnable => exact kept_execRedEnable e
  | plpEnable => exact kept_execPlpEnable e
  | counterLowRead => exact kept_execCounterLowRead e
  | medDescDataAccess => exact kept_execMedDescDataAccess e
  | ldpcBaseDataRead => exact kept_execLdpcBaseDataRead e
  | digFuseDataRead => exact kept_execDigFuseDataRead e
  | thmHistDataRead => exact kept_execThmHistDataRead e
  | thmSensorRead => exact kept_execThmSensorRead e
  | fwuMapDataRead => exact kept_execFwuMapDataRead e
  | registerWrite => exact kept_execRegisterWrite e
  | heartbeat => exact kept_execHeartbeat e
  | heartbeatMissing => exact kept_execHeartbeatMissing e
  | mgmtRestartTimeout => exact kept_execMgmtRestartTimeout e
  | fenceRequest => exact kept_execFenceRequest e
  | vauxRise => exact kept_execVauxRise e
  | vauxLow => exact kept_execVauxLow e
  | vauxReturn => exact kept_execVauxReturn e
  | vauxLoss => exact kept_execVauxLoss e
  | pwrOkLow => exact kept_execPwrOkLow e
  | sysRstLLow => exact kept_execSysRstLLow e
  | sysRstLRelease => exact kept_execSysRstLRelease e
  | bportPerstLRelease => exact kept_execBportPerstLRelease e
  | formatUnmapEnd => exact kept_execFormatUnmapEnd e
  | resumeMinExpiry => exact kept_execResumeMinExpiry e

/-- Every command has a next state. -/
theorem exec_answers (c : Instr) (s : State) : ∃ u, exec c s = .next u := by
  cases c <;> exact ⟨_, rfl⟩

theorem memoryOk_of_kept {s t : State} (h : Kept s t) (hs : MemoryOk s) : MemoryOk t := h.mem hs

/-- A step is a command, on a state with the same memory, or a tick. -/
theorem step_cases {s t : State} (h : step s = .next t) :
    (∃ c s', s'.mem = s.mem ∧ exec c s' = .next t) ∨ t = tick s := by
  unfold step at h
  split at h
  case h_1 c rest _ => exact .inl ⟨c, { s with pending := rest }, rfl, h⟩
  case h_2 =>
    split at h
    case h_1 c rest _ => exact .inl ⟨c.2, { s with released := rest }, rfl, h⟩
    case h_2 => exact .inr (Host.Outcome.next.inj h).symm

/-- Settles O3: a step is a command or a tick, and both keep the canonical form. -/
theorem everyStepKeepsTheMemoryCanonical : Obligations.EveryStepKeepsTheMemoryCanonical := by
  unfold Obligations.EveryStepKeepsTheMemoryCanonical
  intro s t hs hstep
  obtain ⟨c, s', hmem, hexec⟩ | rfl := step_cases hstep
  · have hs' : MemoryOk s' := by rwa [MemoryOk, hmem]
    exact memoryOk_of_kept (kept_exec hexec) hs'
  · exact memoryOk_of_kept (kept_tick (.refl s)) hs

/-- Settles O4, by `kept_exec`. -/
theorem noCommandReachesTheQueueOrTheIdentity : Obligations.NoCommandReachesTheQueueOrTheIdentity := by
  unfold Obligations.NoCommandReachesTheQueueOrTheIdentity
  intro c s
  obtain ⟨t, ht⟩ := exec_answers c s
  obtain ⟨hpending, ⟨hunit, hfloor, hrevoked⟩, -⟩ := kept_exec ht
  exact ⟨t, ht, hpending, hunit, hfloor, hrevoked⟩

end Sys2Proof.Machine
end

section
/-!
PROOFS. What a step runs (the log's entries 1 and 2), and the state before the first start.
-/
namespace Sys2Proof.Machine
open Sys2Proof

/-- Settles O1: each clause is one branch of `step`. -/
theorem stepRunsTheFrontCommand : Obligations.StepRunsTheFrontCommand := by
  unfold Obligations.StepRunsTheFrontCommand
  refine ⟨fun c rest s hpending => ?_, fun c rest s hpending hreleased => ?_, fun s hpending hreleased => ?_⟩
  · simp only [step, hpending]
  · simp only [step, hpending, hreleased]
  · simp only [step, hpending, hreleased]

theorem fld_reset (w i : Nat) (f : Fld) : State.reset.fld w i f = f.resetOf i := rfl

theorem causes_reset (k : Nat) : State.reset.plp.causes.contains k = true ↔ k = 1 ∨ k = 2 := by
  simp [State.reset, Plp.initial]

theorem ringOn_reset (k : Nat) : ringOn State.reset k = false := by
  simp [ringOn, State.reset, Board.initial]

theorem level_reset : ∀ x ∈ State.reset.therm.tiles, x.level = 0 := by
  simp [State.reset, Therm.initial]

/-- Settles O2, field by field of the reset state. -/
theorem whatResetLeaves : Obligations.WhatResetLeaves :=
  ⟨rfl, rfl, rfl, fld_reset, rfl, causes_reset, rfl, rfl, rfl, rfl, ringOn_reset, level_reset⟩

end Sys2Proof.Machine
end

section
/-!
PROOFS. Two buffers of the same input, output and virtual channel (R24 gives each one). The router then takes the oldest packet of
both, where one packet is sent.
-/
namespace Sys2Proof.Machine
open Sys2Proof

/-- An urgent packet from tile 0 to tile 1. -/
def urgentPkt (seq : Nat) : MeshPkt := { src := 0, dst := 1, cls := .h0, seq := seq, len := 0 }

/-- The buffer of tile 0's own urgent packets for its link to tile 1, with one packet. -/
def urgentQueue (seq : Nat) : VcQueue := { tile := 0, out := .rankNext, vc := .urgent, inp := .localPort, pkts := [urgentPkt seq] }

/-- Tile 0's link to tile 1 is up, and the buffer of its own urgent packets stands twice, with a packet in each. No command lists a
buffer twice, but the statement asks nothing of the list. -/
def twinBuffers : State :=
  { State.reset with
    mesh := { State.reset.mesh with
      links := [{ tile := 0, link := .rankNext, up := true, replays := [], total := 0 }]
      queues := [urgentQueue 0, urgentQueue 1] } }

theorem bond_twinBuffers : bond twinBuffers 0 .rankNext = .rankNext := by decide +kernel
theorem vcWaits_twinBuffers : vcWaits twinBuffers.mesh 0 .rankNext .urgent = true := by decide +kernel
theorem hasCredit_twinBuffers : hasCredit twinBuffers 0 .rankNext .urgent = true := by decide +kernel

/-- Only the tile's own input has urgent packets for the link: both packets. -/
theorem waitingPkts_twinBuffers (i : MeshPort) : waitingPkts twinBuffers.mesh 0 .rankNext .urgent i =
    if i = .localPort then [urgentPkt 0, urgentPkt 1] else [] := by
  cases i <;> decide +kernel

/-- The link's next packet leaves both buffers empty. -/
theorem waitingPkts_meshSend_twinBuffers :
    waitingPkts (meshSend 0 .rankNext twinBuffers).mesh 0 .rankNext .urgent .localPort = [] := by decide +kernel

/-- Refutes O9, by its first clause's claim that the input keeps all but its oldest packet: of `twinBuffers` both packets leave their
buffer, and one is sent. -/
theorem not_meshPackets : ¬ Obligations.MeshPackets := by
  unfold Obligations.MeshPackets
  rintro ⟨hsend, -⟩
  obtain ⟨t, ht, -, ⟨inp, k, hhead, -, htail⟩, -⟩ := hsend 0 .rankNext .urgent twinBuffers (by decide +kernel) (.inl rfl)
    (by simp only [bond_twinBuffers, vcWaits_twinBuffers, hasCredit_twinBuffers, and_self]) (by simp)
  obtain rfl : meshSend 0 .rankNext twinBuffers = t := Host.Outcome.next.inj ht
  rw [bond_twinBuffers] at hhead htail
  obtain rfl : inp = .localPort := by
    by_contra hne
    simp [waitingPkts_twinBuffers, hne] at hhead
  rw [waitingPkts_meshSend_twinBuffers, waitingPkts_twinBuffers] at htail
  exact absurd htail (by simp)

end Sys2Proof.Machine
end

section
/-!
PROOFS. Lists in which an entry is named by two keys, such as a pool by its tile and its number: the entry that is put is found under its
keys, one that is dropped is not, and every other entry is found as before.
-/
namespace Sys2Proof.Machine
open Sys2Proof

section keyed
variable {α κ ι : Type} [BEq κ] [LawfulBEq κ] [DecidableEq κ] [BEq ι] [LawfulBEq ι] [DecidableEq ι] (f : α → κ) (g : α → ι)

theorem find?_dropKeyed (l : List α) (b : κ) (m : ι) (a : κ) (n : ι) :
    (l.filter fun y => !(f y == b && g y == m)).find? (fun y => f y == a && g y == n) =
      if a = b ∧ n = m then none else l.find? (fun y => f y == a && g y == n) := by
  by_cases h : a = b ∧ n = m
  · obtain ⟨rfl, rfl⟩ := h
    rw [if_pos ⟨rfl, rfl⟩]
    exact find?_filter_self (fun y => f y == a && g y == n) l
  · rw [if_neg h]
    refine find?_filter_not _ _ (fun y hy => ?_) l
    simp only [Bool.and_eq_true, beq_iff_eq] at hy
    obtain ⟨rfl, rfl⟩ := hy
    simpa using h

theorem find?_putKeyed (l : List α) (x : α) (a : κ) (n : ι) :
    ((l.filter fun y => !(f y == f x && g y == g x)) ++ [x]).find? (fun y => f y == a && g y == n) =
      if a = f x ∧ n = g x then some x else l.find? (fun y => f y == a && g y == n) := by
  rw [List.find?_append, find?_dropKeyed]
  by_cases h : a = f x ∧ n = g x
  · obtain ⟨rfl, rfl⟩ := h
    simp
  · have hnot : ¬(f x = a ∧ g x = n) := fun hx => h ⟨hx.1.symm, hx.2.symm⟩
    simp [h, hnot]

theorem find?_mapKeyed {h : α → α} (hh : ∀ y, f (h y) = f y ∧ g (h y) = g y) (b : κ) (m : ι) (a : κ) (n : ι) : ∀ l : List α,
    (l.map fun y => if f y == b && g y == m then h y else y).find? (fun y => f y == a && g y == n) =
      if a = b ∧ n = m then (l.find? fun y => f y == a && g y == n).map h else l.find? fun y => f y == a && g y == n
  | [] => by simp
  | y :: l => by
    have hkey : (f (if f y == b && g y == m then h y else y) == a && g (if f y == b && g y == m then h y else y) == n) =
        (f y == a && g y == n) := by split <;> simp [hh y]
    rw [List.map_cons, List.find?_cons, List.find?_cons, hkey, find?_mapKeyed hh b m a n l]
    cases hy : f y == a && g y == n with
    | false => rfl
    | true =>
      simp only [Bool.and_eq_true, beq_iff_eq] at hy
      obtain ⟨rfl, rfl⟩ := hy
      by_cases hb : f y = b ∧ g y = m
      · simp [hb]
      · have hcond : ¬(f y == b && g y == m) = true := by simpa using hb
        simp only [if_neg hb, if_neg hcond]

end keyed

end Sys2Proof.Machine
end

section
/-!
PROOFS. Two overhead records in an epoch (R122 knows one). R123 gives the residue of the energy to the overhead record, and so the
epoch's energy is given twice.
-/
namespace Sys2Proof.Machine
open Sys2Proof

/-- At the end of the first epoch, one meter of the overhead that carries a controller's incarnation. No command counts so, but the
statement asks nothing of it. -/
def twoOverheads : State :=
  { State.reset with clock := { State.reset.clock with
      boardTime := 0, epochEnd := 0, held := [], meters := [Meter.empty 0 2 { Payer.device with inc := 1 } 0] } }

/-- The energies of the epoch held after the end of it with an energy of 1, the summary's last. -/
theorem heldEnergies_epochEnd_twoOverheads :
    (epochEnd 1 0 twoOverheads).clock.held.map (·.map (·.energy)) = [[1, 1, 1]] := by decide +kernel

/-- Refutes O22, by its last clause: the records of types 0 to 2 of `twoOverheads` add up to twice the energy measured. -/
theorem not_chessClock : ¬ Obligations.ChessClock := by
  unfold Obligations.ChessClock
  rintro ⟨-, -, -, -, -, hsum⟩
  obtain ⟨t, ht, rs, sum, hheld, -, henergy, -, htotal⟩ := hsum 1 0 twoOverheads (by decide) (by decide +kernel) rfl (by decide)
  obtain rfl : epochEnd 1 0 twoOverheads = t := Host.Outcome.next.inj ht
  have energies := heldEnergies_epochEnd_twoOverheads
  rw [hheld] at energies
  simp only [List.map_cons, List.map_nil, List.map_append, List.cons.injEq, and_true] at energies
  obtain ⟨hrs, -⟩ := List.append_inj' (t₁ := [sum.energy]) (s₂ := [1, 1]) (t₂ := [1]) energies rfl
  rw [hrs] at htotal
  exact absurd htotal (by decide)

end Sys2Proof.Machine
end

section
/-!
PROOFS. What the die scheduler touches (R84 to R86, R246): the operations of the dies, the number of the next and the dies themselves.
-/
namespace Sys2Proof.Machine
open Sys2Proof

/-- From `s` to `t` nothing but the operations of the dies, the number of the next one and the dies changed. -/
def OnlyDies (s t : State) : Prop :=
  t = { s with media := { s.media with ops := t.media.ops, nextOp := t.media.nextOp, dies := t.media.dies } }

theorem OnlyDies.refl (s : State) : OnlyDies s s := rfl

theorem OnlyDies.trans {s t u : State} (h : OnlyDies s t) (k : OnlyDies t u) : OnlyDies s u :=
  Eq.trans k (congrArg (fun x : State => { x with media := { x.media with
    ops := u.media.ops, nextOp := u.media.nextOp, dies := u.media.dies } }) h)

theorem OnlyDies.foldl {α : Type} {f : State → α → State} (h : ∀ s x, OnlyDies s (f s x)) :
    ∀ (l : List α) (s : State), OnlyDies s (l.foldl f s)
  | [], s => .refl s
  | x :: l, s => (h s x).trans (foldl h l (f s x))

theorem onlyDies_updDie (d : Nat) (f : Die → Die) (s : State) : OnlyDies s (updDie d f s) := rfl
theorem onlyDies_updOp (o : Nat) (f : DieOp → DieOp) (s : State) : OnlyDies s (updOp o f s) := rfl
theorem onlyDies_dropOp (o : Nat) (s : State) : OnlyDies s (dropOp o s) := rfl

theorem onlyDies_dispatch (d : Nat) (s : State) : OnlyDies s (dispatch d s) := by
  unfold dispatch
  split
  case h_1 => exact .refl s
  case h_2 =>
    split
    case isTrue => exact .refl s
    case isFalse =>
      split
      case h_1 => exact (onlyDies_updOp _ _ s).trans (onlyDies_updDie _ _ _)
      case h_2 =>
        split
        case h_1 => exact (onlyDies_updOp _ _ s).trans (onlyDies_updDie _ _ _)
        case h_2 => exact .refl s

theorem onlyDies_trySuspend (d : Nat) (s : State) : OnlyDies s (trySuspend d s) := by
  unfold trySuspend
  split
  case h_1 => exact .refl s
  case h_2 =>
    dsimp only
    split
    case isTrue => exact .refl s
    case isFalse =>
      split
      case h_1 => exact onlyDies_updOp _ _ s
      case h_2 => exact .refl s

theorem onlyDies_addOp (o : DieOp) (s : State) : OnlyDies s (addOp o s) :=
  have hqueued : OnlyDies s { s with media := { s.media with
      ops := s.media.ops ++ [{ o with id := s.media.nextOp, left := List.range o.words, since := s.nowMs }]
      nextOp := s.media.nextOp + 1 } } := rfl
  (hqueued.trans (onlyDies_dispatch _ _)).trans (onlyDies_trySuspend _ _)

theorem onlyDies_pumpTile (t : Nat) (s : State) : OnlyDies s (pumpTile t s) :=
  OnlyDies.foldl (f := fun s (x : Die) => dispatch x.die s) (fun s x => onlyDies_dispatch x.die s) _ s

end Sys2Proof.Machine
end

section
/-!
PROOFS. The event recorder (R417 to R436): what storing, archiving, delivering and fetching a record touch, and the tokens of a code.
-/
namespace Sys2Proof.Machine
open Sys2Proof

/-! ### Archiving (R427) -/

/-- From `s` to `t` nothing changed but what is sent and what the die scheduler touches. -/
def OnlyPrograms (s t : State) : Prop :=
  t = { s with media := { s.media with ops := t.media.ops, nextOp := t.media.nextOp, dies := t.media.dies }, outs := t.outs }

/-- The program of an archive page at an address: sent to its die and entered in the die's queue. -/
def programPage (page : State → Nat → Bytes) (s : State) (a : Nat) : State :=
  addOp { blankOp .program .m (dieOf a) with use := .archive, words := 4, addr := a } (emit (.nandProgram (dieOf a) [(a, page s a)]) s)

theorem programPage_eq (page : State → Nat → Bytes) (s : State) (a : Nat) :
    OnlyPrograms s (programPage page s a) ∧ (programPage page s a).outs = s.outs ++ [.nandProgram (dieOf a) [(a, page s a)]] := by
  have hadd := onlyDies_addOp { blankOp .program .m (dieOf a) with use := .archive, words := 4, addr := a }
    (emit (.nandProgram (dieOf a) [(a, page s a)]) s)
  have houts : (programPage page s a).outs = s.outs ++ [.nandProgram (dieOf a) [(a, page s a)]] := congrArg (·.outs) hadd
  refine ⟨Eq.trans hadd ?_, houts⟩
  rw [houts]
  rfl

/-- Pages whose bytes depend on nothing that a program touches are programmed in turn, each sent once. -/
theorem foldl_programPage {page : State → Nat → Bytes} (hpage : ∀ {s t}, OnlyPrograms s t → ∀ a, page t a = page s a) :
    ∀ (as : List Nat) (s : State), OnlyPrograms s (as.foldl (programPage page) s) ∧
      Sends (as.map fun a => .nandProgram (dieOf a) [(a, page s a)]) s (as.foldl (programPage page) s)
  | [], s => ⟨rfl, (List.append_nil _).symm⟩
  | a :: as, s => by
    obtain ⟨hone, houts⟩ := programPage_eq page s a
    obtain ⟨hrest, hsent⟩ := foldl_programPage hpage as (programPage page s a)
    constructor
    · exact Eq.trans hrest (congrArg (fun x : State => { x with
        media := { x.media with
          ops := ((a :: as).foldl (programPage page) s).media.ops, nextOp := ((a :: as).foldl (programPage page) s).media.nextOp
          dies := ((a :: as).foldl (programPage page) s).media.dies }
        outs := ((a :: as).foldl (programPage page) s).outs }) hone)
    · have hsame : (as.map fun b => Out.nandProgram (dieOf b) [(b, page (programPage page s a) b)]) =
          as.map fun b => Out.nandProgram (dieOf b) [(b, page s b)] :=
        List.map_congr_left fun b _ => by rw [hpage hone]
      rw [Sends, List.foldl_cons, hsent, houts, hsame, List.append_assoc]
      rfl

theorem archivePage_of_onlyPrograms {s t : State} (h : OnlyPrograms s t) (a : Nat) (rs : List EvRec) :
    archivePage t a rs = archivePage s a rs := by
  rw [h]
  rfl

/-- From `s` to `t` nothing changed but what archiving touches. -/
def OnlyArchiving (s t : State) : Prop :=
  t = { s with evr := { s.evr with trigger := t.evr.trigger, archiving := t.evr.archiving }
               media := { s.media with ops := t.media.ops, nextOp := t.media.nextOp, dies := t.media.dies }, outs := t.outs }

/-- The page that archiving begins with, and the state in which its programs are entered. -/
theorem archiveCheck_eq (s : State) : archiveCheck s =
    if ((decide ((if s.evr.fallback then 4 else 512) ≤ ((unarchived s).take 512).length) || s.evr.trigger) &&
      !((unarchived s).take 512).isEmpty && s.evr.archiving.isNone && archiveReady s && !(archivePlaces s).isEmpty) = true then
      (archivePlaces s).foldl (programPage fun t a => archivePage t a ((unarchived s).take 512))
        (updEvr (fun e => { e with archiving := some (((unarchived s).take 512).map (·.seq)), trigger := false }) s)
    else s := rfl

theorem onlyArchiving_archiveCheck (s : State) : OnlyArchiving s (archiveCheck s) := by
  rw [archiveCheck_eq]
  refine iteInduction (fun _ => ?_) fun _ => rfl
  · have hprog := (foldl_programPage (page := fun t a => archivePage t a ((unarchived s).take 512))
      (fun h a => archivePage_of_onlyPrograms h a _) (archivePlaces s)
      (updEvr (fun e => { e with archiving := some (((unarchived s).take 512).map (·.seq)), trigger := false }) s)).1
    have hevr := congrArg (·.evr) hprog
    rw [OnlyArchiving, hevr]
    exact hprog

/-- With a trigger, a record to archive, no page under way and a copy to take it, the oldest 512 records go to every copy. -/
theorem archiveCheck_of_trigger {s : State} (htrigger : s.evr.trigger = true) (hrecs : unarchived s ≠ [])
    (hidle : s.evr.archiving = none) (hready : archiveReady s = true) (hplaces : archivePlaces s ≠ []) :
    (archiveCheck s).evr.archiving = some (((unarchived s).take 512).map (·.seq)) ∧ (archiveCheck s).evr.trigger = false ∧
      Sends ((archivePlaces s).map fun a => .nandProgram (dieOf a) [(a, archivePage s a ((unarchived s).take 512))]) s
        (archiveCheck s) := by
  have hgo : archiveCheck s = (archivePlaces s).foldl (programPage fun t a => archivePage t a ((unarchived s).take 512))
      (updEvr (fun e => { e with archiving := some (((unarchived s).take 512).map (·.seq)), trigger := false }) s) := by
    rw [archiveCheck_eq, if_pos]
    simp [htrigger, hrecs, hidle, hready, hplaces]
  obtain ⟨hprog, hsent⟩ := foldl_programPage (page := fun t a => archivePage t a ((unarchived s).take 512))
    (fun h a => archivePage_of_onlyPrograms h a _) (archivePlaces s)
    (updEvr (fun e => { e with archiving := some (((unarchived s).take 512).map (·.seq)), trigger := false }) s)
  have hevr := congrArg (·.evr) hprog
  rw [hgo]
  exact ⟨congrArg (·.archiving) hevr, congrArg (·.trigger) hevr, hsent⟩

/-! ### Delivery to the board's ring (R480) -/

/-- From `s` to `t` nothing changed but what delivering event records touches. -/
def OnlyDelivery (s t : State) : Prop :=
  t = { s with evr := { s.evr with evtNext := t.evr.evtNext }, board := t.board, outs := t.outs }

theorem OnlyDelivery.trans {s t u : State} (h : OnlyDelivery s t) (k : OnlyDelivery t u) : OnlyDelivery s u :=
  Eq.trans k (congrArg (fun x : State =>
    { x with evr := { x.evr with evtNext := u.evr.evtNext }, board := u.board, outs := u.outs }) h)

theorem onlyDelivery_pushRing (k : Nat) (d : List Field) (s : State) : OnlyDelivery s (pushRing k d s) := by
  unfold pushRing
  dsimp only
  split <;> rfl

theorem onlyDelivery_deliverEvent {s t : State} (h : deliverEvent s = some t) : OnlyDelivery s t := by
  unfold deliverEvent at h
  split at h
  case isTrue => cases h
  case isFalse =>
    split at h
    case h_1 => cases h
    case h_2 r _ =>
      cases h
      split
      case isTrue =>
        refine OnlyDelivery.trans ?_ (onlyDelivery_pushRing _ _ _)
        rfl
      case isFalse => rfl

theorem onlyDelivery_deliverEventSteps : ∀ (n : Nat) (s : State), OnlyDelivery s (deliverEventSteps n s)
  | 0, s => rfl
  | n + 1, s => by
    rw [deliverEventSteps]
    split
    case h_1 t ht => exact (onlyDelivery_deliverEvent ht).trans (onlyDelivery_deliverEventSteps n t)
    case h_2 => rfl

theorem onlyDelivery_deliverEvents (s : State) : OnlyDelivery s (deliverEvents s) := onlyDelivery_deliverEventSteps _ s

/-! ### Storing a record (R417, R419, R423) -/

/-- From `s` to `t` nothing changed but what follows the storing of a record: evr_mark, archiving and delivery. -/
def OnlyAfterStore (s t : State) : Prop :=
  t = { s with
    evr := { s.evr with trigger := t.evr.trigger, archiving := t.evr.archiving, evtNext := t.evr.evtNext, mark := t.evr.mark }
    plp := { s.plp with record := t.plp.record }, board := t.board, outs := t.outs
    media := { s.media with ops := t.media.ops, nextOp := t.media.nextOp, dies := t.media.dies } }

theorem OnlyAfterStore.trans {s t u : State} (h : OnlyAfterStore s t) (k : OnlyAfterStore t u) : OnlyAfterStore s u :=
  Eq.trans k (congrArg (fun x : State => { x with
    evr := { x.evr with trigger := u.evr.trigger, archiving := u.evr.archiving, evtNext := u.evr.evtNext, mark := u.evr.mark }
    plp := { x.plp with record := u.plp.record }, board := u.board, outs := u.outs
    media := { x.media with ops := u.media.ops, nextOp := u.media.nextOp, dies := u.media.dies } }) h)

theorem OnlyArchiving.onlyAfterStore {s t : State} (h : OnlyArchiving s t) : OnlyAfterStore s t := by
  rw [h]
  rfl

theorem OnlyDelivery.onlyAfterStore {s t : State} (h : OnlyDelivery s t) : OnlyAfterStore s t := by
  rw [h]
  rfl

/-- The record that an event is stored as. -/
def recordOf (ev : Ev) (tile flags : Nat) (params : List Nat) (s : State) : EvRec :=
  let n := ((s.evr.supp.find? fun x => x.code == ev.code).map (·.count)).getD 0
  { seq := s.evr.last + 1, code := ev.code, sev := ev.severity, tile := tile,
    flags := flags + (if 255 < n then 1 else 0) + (if s.evr.fallback then 8 else 0), minutes := s.island.minutes,
    cycles := s.island.cycles % 2 ^ 24, repeats := sat 255 n, params := (params ++ [0, 0, 0, 0]).take 4, archived := false,
    ms := s.nowMs }

/-- The state with a record at the end of the store. -/
def recordStored (ev : Ev) (r : EvRec) (s : State) : State :=
  updEvr (fun e => { e with
    store := s.evr.store ++ [r], last := r.seq, supp := e.supp.filter fun x => x.code != ev.code
    trigger := e.trigger || decide (5 ≤ r.sev) }) s

/-- evr_mark is kept ahead of the last number (R419). -/
def markAhead (s : State) : State := if s.island.pkg == 2 && s.evr.mark ≤ s.evr.last + 32768 then writeRestart 0 s else s

/-- A severe record raises the status vector (R472). -/
def severeIrq (r : EvRec) (s : State) : State := if decide (5 ≤ r.sev) then emit (.ringIrq 3) s else s

theorem onlyAfterStore_markAhead (s : State) : OnlyAfterStore s (markAhead s) := by
  unfold markAhead
  split <;> rfl

theorem onlyAfterStore_severeIrq (r : EvRec) (s : State) : OnlyAfterStore s (severeIrq r s) := by
  unfold severeIrq
  split <;> rfl

/-- Running, with a free slot: the record is stored, and what changes besides follows from that. -/
theorem storeRecord_of_room {ev : Ev} {tile flags : Nat} {params : List Nat} {s : State} (hrun : s.island.pkg = 2)
    (hroom : s.evr.store.length < slotsOf s) :
    OnlyAfterStore (recordStored ev (recordOf ev tile flags params s) s) (storeRecord ev tile flags params s) := by
  have heq : storeRecord ev tile flags params s = deliverEvents (archiveCheck (severeIrq (recordOf ev tile flags params s)
      (markAhead (recordStored ev (recordOf ev tile flags params s) s)))) := by
    unfold storeRecord
    rw [if_neg (by simp [hrun])]
    simp only [place, hroom, if_true]
    rfl
  rw [heq]
  exact (((onlyAfterStore_markAhead _).trans (onlyAfterStore_severeIrq _ _)).trans
    (onlyArchiving_archiveCheck _).onlyAfterStore).trans (onlyDelivery_deliverEvents _).onlyAfterStore

/-- What O21 says of the storing of an event's record, from a state that differs in the tokens and the events raised alone. -/
theorem storeRecord_stores {e : EvRaise} {rest : List EvRaise} {bs : List (Nat × Nat)} {s u : State}
    (hu : u = { s with evr := { s.evr with raised := rest, buckets := bs } }) (hrun : s.island.pkg = 2)
    (hroom : s.evr.store.length < slotsOf s) :
    let t := storeRecord e.ev e.tile 0 e.params u
    t = { s with evr := t.evr, plp := { s.plp with record := t.plp.record }, board := t.board, outs := t.outs,
                 media := { s.media with ops := t.media.ops, nextOp := t.media.nextOp, dies := t.media.dies } } ∧
      t.evr.last = s.evr.last + 1 ∧ t.evr.raised = rest ∧
      ∃ r, t.evr.store = s.evr.store ++ [r] ∧ r.seq = s.evr.last + 1 ∧ r.code = e.ev.code ∧ r.sev = e.ev.severity ∧
        r.tile = e.tile ∧ r.minutes = s.island.minutes ∧ r.params = (e.params ++ [0, 0, 0, 0]).take 4 ∧ r.archived = false := by
  subst hu
  have hstored := storeRecord_of_room (ev := e.ev) (tile := e.tile) (flags := 0) (params := e.params)
    (s := { s with evr := { s.evr with raised := rest, buckets := bs } }) hrun hroom
  have hevr := congrArg (·.evr) hstored
  refine ⟨?_, congrArg (·.last) hevr, congrArg (·.raised) hevr, recordOf e.ev e.tile 0 e.params _, congrArg (·.store) hevr,
    rfl, rfl, rfl, rfl, rfl, rfl, rfl⟩
  exact Eq.trans hstored (by rw [hevr]; rfl)

/-! ### Tokens (R424) -/

theorem setTokens_eq (code n : Nat) (s : State) :
    setTokens code n s = { s with evr := { s.evr with buckets := (setTokens code n s).evr.buckets } } := rfl

theorem rateBurst_setTokens (code n : Nat) (s : State) : rateBurst (setTokens code n s) = rateBurst s := rfl

/-- A bucket that is full is not listed; every other code keeps its tokens. -/
theorem tokensOf_setTokens (code n c : Nat) (s : State) :
    tokensOf (setTokens code n s) c = if c = code then (if n < rateBurst s then n else rateBurst s) else tokensOf s c := by
  have hfull : rateBurst (setTokens code n s) = rateBurst s := rfl
  simp only [tokensOf, hfull]
  simp only [setTokens, updEvr, List.find?_append, List.find?_filter]
  obtain rfl | hne := eq_or_ne c code
  · have hgone : (s.evr.buckets.find? fun b => decide ((b.1 != c) = true ∧ (b.1 == c) = true)) = none := by simp
    rw [hgone]
    by_cases hn : n < rateBurst s <;> simp [hn]
  · have hsame : (fun b : Nat × Nat => decide ((b.1 != code) = true ∧ (b.1 == c) = true)) = fun b => b.1 == c := by
      funext b
      by_cases hb : b.1 = c <;> simp [hb, hne]
    rw [hsame, if_neg hne]
    by_cases hn : n < rateBurst s <;> simp [hn, hne.symm]

/-- One refill of each bucket listed, no code twice: a code listed gains a token, up to the burst; another keeps its own. -/
theorem tokensOf_refill : ∀ (l : List (Nat × Nat)) (s : State), (l.map (·.1)).Nodup → (∀ b ∈ l, b.2 < rateBurst s) →
    ∀ c, tokensOf (l.foldl (fun s b => setTokens b.1 (b.2 + 1) s) s) c =
      ((l.find? fun b => b.1 == c).map fun b => b.2 + 1).getD (tokensOf s c)
  | [], s, _, _, c => rfl
  | b :: l, s, hnodup, hroom, c => by
    obtain ⟨hnew, hrest⟩ := List.nodup_cons.1 hnodup
    have hb : b.2 + 1 ≤ rateBurst s := hroom b List.mem_cons_self
    rw [List.foldl_cons, tokensOf_refill l (setTokens b.1 (b.2 + 1) s) hrest (fun x hx => hroom x (List.mem_cons_of_mem b hx)) c, List.find?_cons,
      tokensOf_setTokens]
    obtain rfl | hne := eq_or_ne c b.1
    · have hnone : (l.find? fun x => x.1 == b.1) = none := by
        simp only [List.find?_eq_none, beq_iff_eq]
        exact fun x hx he => hnew (List.mem_map.2 ⟨x, hx, he⟩)
      simp only [hnone, beq_self_eq_true, if_true, Option.map_none, Option.map_some, Option.getD_none, Option.getD_some]
      split <;> omega
    · simp [hne, beq_eq_false_iff_ne.2 hne.symm]

theorem refill_eq : ∀ (l : List (Nat × Nat)) (s : State), l.foldl (fun s b => setTokens b.1 (b.2 + 1) s) s =
    { s with evr := { s.evr with buckets := (l.foldl (fun s b => setTokens b.1 (b.2 + 1) s) s).evr.buckets } }
  | [], _ => rfl
  | b :: l, s => refill_eq l (setTokens b.1 (b.2 + 1) s)

theorem tokensOf_le_burst_of_none {s : State} {c : Nat} (h : (s.evr.buckets.find? fun b => b.1 == c) = none) :
    tokensOf s c = rateBurst s := by
  simp [tokensOf, h]

/-! ### The event band (R426, R433) -/

/-- From `s` to `t` nothing changed but what the die scheduler touches, and the meters. -/
def OnlyDieTime (s t : State) : Prop :=
  t = { s with media := { s.media with ops := t.media.ops, nextOp := t.media.nextOp, dies := t.media.dies }
               clock := { s.clock with meters := t.clock.meters } }

theorem OnlyDieTime.trans {s t u : State} (h : OnlyDieTime s t) (k : OnlyDieTime t u) : OnlyDieTime s u :=
  Eq.trans k (congrArg (fun x : State => { x with
    media := { x.media with ops := u.media.ops, nextOp := u.media.nextOp, dies := u.media.dies }
    clock := { x.clock with meters := u.clock.meters } }) h)

theorem OnlyDies.onlyDieTime {s t : State} (h : OnlyDies s t) : OnlyDieTime s t := by
  rw [h]
  rfl

theorem onlyDieTime_charge (t kind : Nat) (p : Payer) (n : Nat) (f : Meter → Meter) (s : State) :
    OnlyDieTime s (charge t kind p n f s) := rfl

theorem onlyDieTime_chargeCopy (t sg b n : Nat) (f : Meter → Meter) (s : State) : OnlyDieTime s (chargeCopy t sg b n f s) := by
  unfold chargeCopy
  split
  case h_1 => rfl
  case h_2 => split <;> rfl

theorem onlyDieTime_meterRead (o : DieOp) (s : State) : OnlyDieTime s (meterRead o s) := by
  unfold meterRead
  dsimp only
  split
  case h_1 => rfl
  case h_2 =>
    split
    case h_1 => exact iteInduction (motive := OnlyDieTime s) (fun _ => onlyDieTime_chargeCopy _ _ _ _ _ s) fun _ => rfl
    case h_2 => rfl

/-- The state in which the array time of an operation has ended and its die is free. -/
def arrayEnded (o : DieOp) (s : State) : State :=
  updDie o.die (fun x => { x with
    notReady := false
    hist := (x.hist.filter fun h => s.nowMs < h.1 + 100) ++ [(s.nowMs, o.cls, opTime s o)] }) (if o.kind == .read then meterRead o s else s)

theorem endArray_eq (o : DieOp) (s : State) : endArray o s =
    if levelOf (trySuspend o.die (dispatch o.die (arrayEnded o s))) (tileOfDie o.die) == 0 then
      trySuspend o.die (dispatch o.die (arrayEnded o s))
    else pumpTile (tileOfDie o.die) (trySuspend o.die (dispatch o.die (arrayEnded o s))) := rfl

theorem onlyDies_endArray (o : DieOp) (s : State) : OnlyDies (arrayEnded o s) (endArray o s) := by
  have hnext := (onlyDies_dispatch o.die (arrayEnded o s)).trans (onlyDies_trySuspend o.die _)
  rw [endArray_eq]
  exact iteInduction (motive := OnlyDies _) (fun _ => hnext) fun _ => hnext.trans (onlyDies_pumpTile _ _)

theorem onlyDieTime_endArray (o : DieOp) (s : State) : OnlyDieTime s (endArray o s) := by
  refine OnlyDieTime.trans (t := arrayEnded o s) ?_ (onlyDies_endArray o s).onlyDieTime
  unfold arrayEnded
  refine OnlyDieTime.trans ?_ (onlyDies_updDie _ _ _).onlyDieTime
  exact iteInduction (motive := OnlyDieTime s) (fun _ => onlyDieTime_meterRead o s) fun _ => rfl

theorem onlyDieTime_endBandOps (k : OpKind) (s : State) : OnlyDieTime s (endBandOps k s) := by
  unfold endBandOps
  generalize (s.media.ops.filter fun o => o.use == .archive && o.kind == k) = l
  induction l generalizing s with
  | nil => rfl
  | cons o l ih => exact ((onlyDies_dropOp o.id s).onlyDieTime.trans (onlyDieTime_endArray o _)).trans (ih _)

/-- Every operation of `t` stood in `s` as well, whatever state it was in. -/
def OpsFrom (s t : State) : Prop :=
  ∀ o ∈ t.media.ops, ∃ x ∈ s.media.ops, x.id = o.id ∧ x.use = o.use ∧ x.kind = o.kind

theorem OpsFrom.refl (s : State) : OpsFrom s s := fun o ho => ⟨o, ho, rfl, rfl, rfl⟩

theorem OpsFrom.trans {s t u : State} (h : OpsFrom s t) (k : OpsFrom t u) : OpsFrom s u := by
  intro o ho
  obtain ⟨x, hx, hid, huse, hkind⟩ := k o ho
  obtain ⟨y, hy, hid', huse', hkind'⟩ := h x hx
  exact ⟨y, hy, hid'.trans hid, huse'.trans huse, hkind'.trans hkind⟩

theorem OpsFrom.of_eq {s t : State} (h : t.media.ops = s.media.ops) : OpsFrom s t := by
  intro o ho
  exact ⟨o, h ▸ ho, rfl, rfl, rfl⟩

theorem opsFrom_updOp (o : Nat) (st : OpState) (s : State) : OpsFrom s (updOp o (fun o => { o with state := st }) s) := by
  intro x hx
  obtain ⟨y, hy, rfl⟩ := List.mem_map.1 hx
  exact ⟨y, hy, by split <;> exact ⟨rfl, rfl, rfl⟩⟩

theorem opsFrom_dropOp (o : Nat) (s : State) : OpsFrom s (dropOp o s) :=
  fun x hx => ⟨x, List.mem_of_mem_filter hx, rfl, rfl, rfl⟩

theorem opsFrom_dispatch (d : Nat) (s : State) : OpsFrom s (dispatch d s) := by
  unfold dispatch
  split
  case h_1 => exact .refl s
  case h_2 =>
    split
    case isTrue => exact .refl s
    case isFalse =>
      split
      case h_1 => exact opsFrom_updOp _ .active s
      case h_2 =>
        split
        case h_1 => exact opsFrom_updOp _ .active s
        case h_2 => exact .refl s

theorem opsFrom_trySuspend (d : Nat) (s : State) : OpsFrom s (trySuspend d s) := by
  unfold trySuspend
  split
  case h_1 => exact .refl s
  case h_2 =>
    dsimp only
    split
    case isTrue => exact .refl s
    case isFalse =>
      split
      case h_1 => exact opsFrom_updOp _ .suspending s
      case h_2 => exact .refl s

theorem opsFrom_pumpTile (t : Nat) (s : State) : OpsFrom s (pumpTile t s) := by
  unfold pumpTile
  generalize (tileDies s t).filter (fun x => !(waitingOps s x.die).isEmpty) = l
  induction l generalizing s with
  | nil => exact .refl s
  | cons x l ih => exact (opsFrom_dispatch x.die s).trans (ih _)

theorem ops_meterRead (o : DieOp) (s : State) : (meterRead o s).media = s.media := by
  unfold meterRead chargeCopy
  dsimp only
  split
  case h_1 => rfl
  case h_2 =>
    split
    case h_1 =>
      split
      case isTrue =>
        split
        case h_1 => rfl
        case h_2 => split <;> rfl
      case isFalse => rfl
    case h_2 => rfl

theorem ops_arrayEnded (o : DieOp) (s : State) : (arrayEnded o s).media.ops = s.media.ops := by
  unfold arrayEnded
  split
  · exact congrArg (·.ops) (ops_meterRead o s)
  · rfl

theorem opsFrom_endArray (o : DieOp) (s : State) : OpsFrom s (endArray o s) := by
  have hnext : OpsFrom s (trySuspend o.die (dispatch o.die (arrayEnded o s))) :=
    ((OpsFrom.of_eq (ops_arrayEnded o s)).trans (opsFrom_dispatch _ _)).trans (opsFrom_trySuspend _ _)
  rw [endArray_eq]
  exact iteInduction (motive := OpsFrom s) (fun _ => hnext) fun _ => hnext.trans (opsFrom_pumpTile _ _)

/-- Ending operations one by one leaves none of their numbers, and adds no operation. -/
theorem ops_foldl_endArray : ∀ (l : List DieOp) (s : State),
    OpsFrom s (l.foldl (fun s o => endArray o (dropOp o.id s)) s) ∧
      ∀ o ∈ (l.foldl (fun s o => endArray o (dropOp o.id s)) s).media.ops, ∀ x ∈ l, o.id ≠ x.id
  | [], s => ⟨.refl s, by simp⟩
  | x :: l, s => by
    obtain ⟨hfrom, hgone⟩ := ops_foldl_endArray l (endArray x (dropOp x.id s))
    refine ⟨((opsFrom_dropOp _ _).trans (opsFrom_endArray _ _)).trans hfrom, fun o ho => ?_⟩
    obtain ⟨y, hy, hid, -, -⟩ := (opsFrom_endArray x (dropOp x.id s)).trans hfrom o ho
    have hne : y.id ≠ x.id := by simpa using (List.mem_filter.1 hy).2
    exact List.forall_mem_cons.2 ⟨hid ▸ hne, hgone o ho⟩

/-- No operation of a kind on the event band is left once they have ended. -/
theorem ops_endBandOps (k : OpKind) (s : State) :
    ∀ o ∈ (endBandOps k s).media.ops, o.use = .archive → o.kind ≠ k := by
  intro o ho huse hkind
  obtain ⟨hfrom, hgone⟩ := ops_foldl_endArray (s.media.ops.filter fun o => o.use == .archive && o.kind == k) s
  obtain ⟨x, hx, hid, hxuse, hxkind⟩ := hfrom o ho
  exact hgone o ho x (List.mem_filter.2 ⟨hx, by simp [hxuse, hxkind, huse, hkind]⟩) hid.symm

/-! ### The commands -/

/-- The state in which a page of the event band has been taken into account: the records of the numbers given are archived. -/
def pageArchived (ns : List Nat) (s : State) : State :=
  let page := (s.evr.store.filter fun r => ns.contains r.seq).map fun r => { r with archived := true }
  let turn := decide (1024 ≤ s.evr.bandPages)
  updEvr (fun e => { e with
    archiving := none, archiveFault := false
    store := e.store.map fun r => if ns.contains r.seq then { r with archived := true } else r
    bandPrev := if turn then e.band else e.bandPrev
    band := if turn then page else e.band ++ page
    bandPages := if turn then 1 else e.bandPages + 1
    bandBlock := if turn then 1 - e.bandBlock else e.bandBlock }) s

theorem archiveProgrammed_eq {ns : List Nat} {s : State} (harch : s.evr.archiving = some ns)
    (hwait : bandOpWaits s .program = false) :
    archiveProgrammed s = archiveCheck (pageArchived ns (endBandOps .program (meterArchive s))) := by
  simp only [archiveProgrammed, harch, hwait, Bool.false_eq_true, if_false]
  rfl

theorem archiveProgrammed_of_none {s : State} (h : s.evr.archiving = none ∨ bandOpWaits s .program = true) :
    archiveProgrammed s = s := by
  unfold archiveProgrammed
  split
  case h_1 => rfl
  case h_2 hsome =>
    obtain hnone | hwait := h
    · cases hnone.symm.trans hsome
    · rw [if_pos hwait]

/-- A raised event below log_min_sev is discarded. -/
theorem eventRaised_of_low {e : EvRaise} {rest : List EvRaise} {s : State} (hraised : s.evr.raised = e :: rest)
    (hlow : e.ev.severity < s.gfld .evr_cfg_log_min_sev) :
    eventRaised true s = { s with evr := { s.evr with raised := rest } } := by
  simp only [eventRaised, hraised, if_true, takeEvent]
  exact if_pos hlow

/-- A raised event without a token is suppressed and counted. -/
theorem eventRaised_of_no_token {e : EvRaise} {rest : List EvRaise} {s : State} (hraised : s.evr.raised = e :: rest)
    (hmin : s.gfld .evr_cfg_log_min_sev ≤ e.ev.severity) (hsev : e.ev.severity < 5) (htok : tokensOf s e.ev.code = 0) :
    eventRaised true s = { s with evr := { s.evr with
      raised := rest,
      supp := (s.evr.supp.filter fun x => x.code != e.ev.code) ++ [{
        code := e.ev.code, count := ((s.evr.supp.find? fun x => x.code == e.ev.code).map (·.count)).getD 0 + 1, tile := e.tile, params := e.params }] } } := by
  simp only [eventRaised, hraised, if_true, takeEvent]
  refine (if_neg hmin.not_gt).trans ((if_neg hsev.not_ge).trans (if_pos ?_))
  exact beq_iff_eq.2 htok

/-- A raised event that is severe, or has a token, is stored. -/
theorem eventRaised_of_token {e : EvRaise} {rest : List EvRaise} {s : State} (hraised : s.evr.raised = e :: rest)
    (hmin : s.gfld .evr_cfg_log_min_sev ≤ e.ev.severity) (htok : 5 ≤ e.ev.severity ∨ 0 < tokensOf s e.ev.code) :
    ∃ bs, eventRaised true s = storeRecord e.ev e.tile 0 e.params { s with evr := { s.evr with raised := rest, buckets := bs } } := by
  simp only [eventRaised, hraised, if_true, takeEvent]
  by_cases hsev : 5 ≤ e.ev.severity
  · exact ⟨s.evr.buckets, (if_neg hmin.not_gt).trans (if_pos hsev)⟩
  · refine ⟨(setTokens e.ev.code (tokensOf s e.ev.code - 1) s).evr.buckets,
      (if_neg hmin.not_gt).trans ((if_neg hsev).trans (if_neg ?_))⟩
    have hpos := htok.resolve_left hsev
    exact fun hzero => hpos.ne' (beq_iff_eq.1 hzero)

/-- The record at the cursor, held in the store, is shown at once (R433). -/
theorem latchAt_of_store {n : Nat} {r : EvRec} {s : State} (hfind : s.evr.store.find? (fun x => x.seq == n) = some r) :
    latchAt n s = { s with evr := { s.evr with win :=
      { cursor := n, valid := true, gap := false, pending := false, fromBand := false, latched := some r } } } := by
  have hheld : (held s).any (fun x => x.seq == n) = true :=
    List.any_eq_true.2 ⟨r, by simp [held, List.mem_of_find?_eq_some hfind], List.find?_some (p := fun x : EvRec => x.seq == n) hfind⟩
  simp only [latchAt, hheld, if_true, showRecord]
  simp only [updEvr, hfind, EvWin.initial]

/-- Above the last number the window shows nothing (R434). -/
theorem latchAt_of_above {n : Nat} {s : State} (hheld : ∀ r ∈ held s, r.seq ≠ n) (hlast : s.evr.last < n) :
    latchAt n s = cursorAt n s := by
  have hnone : ((held s).any fun r => r.seq == n) = false := by simpa using hheld
  simp only [latchAt, hnone, hlast, Bool.false_eq_true, if_false, if_true, cursorAt]

/-- The oldest unarchived record's age decides (R427). -/
theorem archiveAge_of_cons {r : EvRec} {l : List EvRec} {s : State} (h : unarchived s = r :: l) :
    archiveAge s = if s.nowMs < r.ms + (if s.evr.fallback then 1000 else 60000) then s
      else archiveCheck (updEvr (fun e => { e with trigger := true }) s) := by
  simp only [archiveAge, h]

theorem regAt_windowData7 (s : State) : regAt s (bar0 pkgWin 7 .evrWinData) = some (pkgWin, .evrWinData, 7, false) := by rfl

/-- The window is computed after the read's answer is sent, which it does not depend on. -/
theorem readReg_windowData7 {r : EvRec} {s : State} (hans : regAnswers s pkgWin .evrWinData = true)
    (hlatched : s.evr.win.latched = some r) (hvalid : s.evr.win.valid = true) :
    readReg (bar0 pkgWin 7 .evrWinData) s =
      latchAt (r.seq + 1) (emit (.regRead (bar0 pkgWin 7 .evrWinData) (readValue s (bar0 pkgWin 7 .evrWinData))) s) := by
  unfold readReg
  rw [if_neg (by decide)]
  simp only [regAt_windowData7, hans, Bool.not_true, Bool.false_eq_true, if_false]
  rw [if_neg (by decide)]
  simp [readEffect, windowNext, hlatched, hvalid]

theorem cursor_showRecord (n : Nat) (gap : Bool) (s : State) : (showRecord n gap s).evr.win.cursor = s.evr.win.cursor := by
  unfold showRecord
  split
  case h_1 => rfl
  case h_2 =>
    dsimp only
    split
    case h_1 => exact congrArg (·.evr.win.cursor) (onlyDies_addOp _ _)
    case h_2 => rfl

/-- The cursor stands at the number latched, whatever is found there. -/
theorem cursor_latchAt (n : Nat) (s : State) : (latchAt n s).evr.win.cursor = n := by
  unfold latchAt
  dsimp only
  split
  case isTrue => exact cursor_showRecord _ _ _
  case isFalse =>
    split
    case isTrue => rfl
    case isFalse =>
      split
      case h_1 => exact cursor_showRecord _ _ _
      case h_2 => rfl

/-- Every code gains a token, up to the burst, where no event is suppressed. -/
theorem tokenRefill_of_supp_nil {s : State} (h : s.evr.supp = []) :
    tokenRefill s = s.evr.buckets.foldl (fun s b => setTokens b.1 (b.2 + 1) s) s := by
  have hsupp : (s.evr.buckets.foldl (fun s b => setTokens b.1 (b.2 + 1) s) s).evr.supp = [] := by
    rw [refill_eq]
    exact h
  simp only [tokenRefill, hsupp, List.foldl_nil]

theorem tokensOf_tokenRefill {s : State} (hsupp : s.evr.supp = []) (hnodup : (s.evr.buckets.map (·.1)).Nodup)
    (hroom : ∀ b ∈ s.evr.buckets, b.2 < rateBurst s) (c : Nat) :
    tokensOf (tokenRefill s) c = min (rateBurst s) (tokensOf s c + 1) := by
  rw [tokenRefill_of_supp_nil hsupp, tokensOf_refill _ _ hnodup hroom]
  unfold tokensOf
  cases hfind : s.evr.buckets.find? fun b => b.1 == c with
  | none => simp
  | some b =>
    have hb := hroom b (List.mem_of_find?_eq_some hfind)
    simp only [Option.map_some, Option.getD_some]
    omega

/-- What O21 says of the age of the oldest unarchived record, once it is reached. -/
theorem archiveCheck_of_age (s : State) :
    let t := archiveCheck (updEvr (fun e => { e with trigger := true }) s)
    t = { s with evr := { s.evr with trigger := t.evr.trigger, archiving := t.evr.archiving }
                 media := { s.media with ops := t.media.ops, nextOp := t.media.nextOp, dies := t.media.dies }, outs := t.outs } ∧
      (unarchived s ≠ [] → s.evr.archiving = none → archiveReady s = true → archivePlaces s ≠ [] →
        t.evr.archiving = some (((unarchived s).take 512).map (·.seq)) ∧ t.evr.trigger = false ∧
        Sends ((archivePlaces s).map fun a => .nandProgram (dieOf a) [(a, archivePage s a ((unarchived s).take 512))]) s t) :=
  ⟨onlyArchiving_archiveCheck (updEvr (fun e => { e with trigger := true }) s),
    archiveCheck_of_trigger (s := updEvr (fun e => { e with trigger := true }) s) rfl⟩

/-- From `s` to `t` nothing changed but what the end of a page of the event band touches. -/
def OnlyBand (s t : State) : Prop :=
  t = { s with evr := t.evr, media := t.media, outs := t.outs, clock := { s.clock with meters := t.clock.meters } }

theorem OnlyBand.trans {s t u : State} (h : OnlyBand s t) (k : OnlyBand t u) : OnlyBand s u :=
  Eq.trans k (congrArg (fun x : State =>
    { x with evr := u.evr, media := u.media, outs := u.outs, clock := { x.clock with meters := u.clock.meters } }) h)

theorem OnlyDieTime.onlyBand {s t : State} (h : OnlyDieTime s t) : OnlyBand s t := by
  rw [h]
  rfl

theorem OnlyDieTime.eq_media {s t : State} (h : OnlyDieTime s t) :
    t = { s with media := t.media, clock := { s.clock with meters := t.clock.meters } } := by
  rw [h]

theorem OnlyArchiving.onlyBand {s t : State} (h : OnlyArchiving s t) : OnlyBand s t := by
  rw [h]
  rfl

theorem onlyBand_pageArchived (ns : List Nat) (s : State) : OnlyBand s (pageArchived ns s) := rfl

/-- What O21 says of a page programmed. -/
theorem archiveCheck_pageArchived {ns : List Nat} {s u : State} (hu : OnlyDieTime s u) :
    let t := archiveCheck (pageArchived ns u)
    t = { s with evr := t.evr, media := t.media, outs := t.outs, clock := { s.clock with meters := t.clock.meters } } ∧
      t.evr.archiveFault = false ∧ t.evr.last = s.evr.last ∧
      t.evr.store = s.evr.store.map (fun r => if ns.contains r.seq then { r with archived := true } else r) ∧
      (s.evr.bandPages < 1024 → t.evr.bandPrev = s.evr.bandPrev ∧ t.evr.band = s.evr.band ++
        ((s.evr.store.filter fun r => ns.contains r.seq).map fun r => { r with archived := true })) ∧
      (1024 ≤ s.evr.bandPages → t.evr.bandPrev = s.evr.band ∧ t.evr.bandPages = 1 ∧
        t.evr.bandBlock = 1 - s.evr.bandBlock) := by
  have hcheck := onlyArchiving_archiveCheck (pageArchived ns u)
  have hevr := congrArg (·.evr) hcheck
  have hsame : u.evr = s.evr := congrArg (·.evr) hu
  intro t
  refine ⟨?_, congrArg (·.archiveFault) hevr, ?_, ?_, fun hpages => ⟨?_, ?_⟩, fun hpages => ⟨?_, ?_, ?_⟩⟩
  · exact (hu.onlyBand.trans (onlyBand_pageArchived ns u)).trans hcheck.onlyBand
  · exact (congrArg (·.last) hevr).trans (congrArg (·.last) hsame)
  · refine (congrArg (·.store) hevr).trans ?_
    simp only [pageArchived, updEvr, hsame]
  · refine (congrArg (·.bandPrev) hevr).trans ?_
    simp [pageArchived, updEvr, hsame, hpages.not_ge]
  · refine (congrArg (·.band) hevr).trans ?_
    simp [pageArchived, updEvr, hsame, hpages.not_ge]
  · refine (congrArg (·.bandPrev) hevr).trans ?_
    simp [pageArchived, updEvr, hsame, hpages]
  · refine (congrArg (·.bandPages) hevr).trans ?_
    simp [pageArchived, updEvr, hsame, hpages]
  · refine (congrArg (·.bandBlock) hevr).trans ?_
    simp [pageArchived, updEvr, hsame, hpages]

/-- Settles O21, by the equation of each command and by what storing, archiving, delivering and fetching leave unchanged. -/
theorem eventRecorder : Obligations.EventRecorder := by
  unfold Obligations.EventRecorder
  refine ⟨fun e rest s hraised => ⟨fun hlow => ⟨_, rfl, eventRaised_of_low hraised hlow⟩, fun hmin hsev htok => ?_,
      fun hmin htok hrun hroom => ?_⟩, fun s hsupp hnodup hroom => ?_, fun r l s hcons => ⟨fun hyoung => ?_, fun hold => ?_⟩,
    fun s h => ⟨_, rfl, archiveProgrammed_of_none h⟩, fun ns s harch hwait => ?_,
    fun n s hans hn => ⟨fun r hfind => ?_, fun hheld hlast => ?_⟩, fun r s hans hlatched hvalid => ?_,
    fun s hpending hwait => ?_, fun s h => ⟨_, rfl, if_neg ?_⟩⟩
  · refine ⟨_, rfl, ?_⟩
    rw [eventRaised_of_no_token hraised hmin hsev htok]
    exact ⟨rfl, _, List.mem_append_right _ (List.mem_singleton_self _), rfl, rfl⟩
  · obtain ⟨bs, hbs⟩ := eventRaised_of_token hraised hmin htok
    exact ⟨_, congrArg Host.Outcome.next hbs, storeRecord_stores rfl hrun hroom⟩
  · refine ⟨_, rfl, ?_, tokensOf_tokenRefill hsupp hnodup hroom⟩
    rw [tokenRefill_of_supp_nil hsupp]
    exact refill_eq _ _
  · exact ⟨_, rfl, (archiveAge_of_cons hcons).trans (if_pos hyoung)⟩
  · refine ⟨_, congrArg Host.Outcome.next ((archiveAge_of_cons hcons).trans (if_neg hold.not_gt)), ?_⟩
    obtain ⟨hframe, hpage⟩ := archiveCheck_of_age s
    exact ⟨hframe, hpage (by simp [hcons])⟩
  · refine ⟨_, congrArg Host.Outcome.next (archiveProgrammed_eq harch hwait), archiveCheck_pageArchived ?_⟩
    exact OnlyDieTime.trans (t := meterArchive s) rfl (onlyDieTime_endBandOps .program _)
  · exact ⟨_, execEvrCursorWrite_of_answers hans hn, by rw [latchAt_of_store hfind]; exact ⟨rfl, rfl⟩⟩
  · exact ⟨_, execEvrCursorWrite_of_answers hans hn, by rw [latchAt_of_above hheld hlast]; exact ⟨rfl, rfl, rfl, rfl⟩⟩
  · refine ⟨_, rfl, readReg_windowData7 hans hlatched hvalid, ?_⟩
    rw [readReg_windowData7 hans hlatched hvalid, cursor_latchAt]
  · refine ⟨_, congrArg Host.Outcome.next (if_pos (by simp [hpending, hwait])), ?_, ops_endBandOps .read s⟩
    exact congrArg (fun x : State => updEvr (fun e => { e with win := { e.win with
      pending := false, valid := e.win.latched.isSome } }) x) (onlyDieTime_endBandOps .read s).eq_media
  · obtain hpending | hwait := h
    · simp [hpending]
    · simp [hwait]

end Sys2Proof.Machine
end

section
/-!
PROOFS. Writes of a register (R13) and the rise of a block's enable (R525): what they leave unchanged, and an equation for each outcome.
-/
namespace Sys2Proof.Machine
open Sys2Proof

/-- From `s` to `t` nothing but the registers and the events raised changed. -/
def OnlyRegs (s t : State) : Prop := t = { s with regs := t.regs, evr := t.evr }

theorem OnlyRegs.trans {s t u : State} (h : OnlyRegs s t) (k : OnlyRegs t u) : OnlyRegs s u :=
  Eq.trans k (congrArg (fun x : State => { x with regs := u.regs, evr := u.evr }) h)

theorem onlyRegs_setCfgErr (w : Nat) (r : Reg) (s : State) : OnlyRegs s (setCfgErr w r s) := by
  unfold setCfgErr
  split <;> rfl

theorem onlyRegs_writeField (en : Bool) (w i : Nat) (r : Reg) (v : Nat) (f : Fld) (s : State) :
    OnlyRegs s (writeField en w i r v f s) := by
  unfold writeField
  refine iteInduction (motive := OnlyRegs s) (fun _ => rfl) fun _ => ?_
  split
  case h_6 =>
    refine iteInduction (motive := OnlyRegs s) (fun _ => ?_) fun _ => rfl
    exact (onlyRegs_setCfgErr w r s).trans rfl
  all_goals rfl

theorem onlyRegs_foldl {α : Type} {f : State → α → State} (h : ∀ s x, OnlyRegs s (f s x)) :
    ∀ (l : List α) (s : State), OnlyRegs s (l.foldl f s)
  | [], _ => rfl
  | x :: l, s => (h s x).trans (onlyRegs_foldl h l (f s x))

theorem onlyRegs_writeReg (w i : Nat) (r : Reg) (v : Nat) (s : State) : OnlyRegs s (writeReg w i r v s) :=
  onlyRegs_foldl (fun s f => onlyRegs_writeField _ w i r v f s) _ s

theorem onlyRegs_writeCfg (w : Nat) (r : Reg) (v : Nat) (s : State) : OnlyRegs s (writeCfg w r v s) := onlyRegs_writeReg w 0 r v s

section enables
variable {w v : Nat} {r : Reg} {f : Fld} {check : State → Option Nat} {onFail start : State → State} {s : State}

/-- An enable that R525 does not allow yet is refused with reason 7. -/
theorem writeEnable_of_order (hv : bitOf v 0 = true) (hoff : s.tfld w f = 0) (horder : orderHolds (writeCfg w r (v - 1) s) w f = false) :
    writeEnable w r f v check onFail start s = reject (winTile w) (bar0 w 0 r) 7 (writeCfg w r (v - 1) s) := by
  simp [writeEnable, hv, hoff, horder]

/-- An enable whose block refuses it is refused with the block's reason. -/
theorem writeEnable_of_check {reason : Nat} (hv : bitOf v 0 = true) (hoff : s.tfld w f = 0)
    (horder : orderHolds (writeCfg w r (v - 1) s) w f = true) (hcheck : check (writeCfg w r (v - 1) s) = some reason) :
    writeEnable w r f v check onFail start s = reject (winTile w) (bar0 w 0 r) reason (onFail (writeCfg w r (v - 1) s)) := by
  simp [writeEnable, hv, hoff, horder, hcheck]

/-- An enable that nothing refuses is set, and its block starts. -/
theorem writeEnable_of_ok (hv : bitOf v 0 = true) (hoff : s.tfld w f = 0)
    (horder : orderHolds (writeCfg w r (v - 1) s) w f = true) (hcheck : check (writeCfg w r (v - 1) s) = none) :
    writeEnable w r f v check onFail start s = start (setT w f 1 (writeCfg w r (v - 1) s)) := by
  simp [writeEnable, hv, hoff, horder, hcheck]

/-- A write that is not the rise of the enable is a plain write. -/
theorem writeEnable_of_plain (h : bitOf v 0 = false ∨ s.tfld w f ≠ 0) :
    writeEnable w r f v check onFail start s = writeCfg w r v s := by
  obtain h | h := h <;> simp [writeEnable, h]

end enables

theorem tileWrite_of_open {t : Nat} {f : State → State} {s : State} (ht : t ≠ pkgWin) (hopen : regOpen s t = true) :
    tileWrite t f s = f s := by
  simp [tileWrite, ht, hopen]

/-- A tile's window is open only for one of the at most eight tiles of the part. -/
theorem lt_pkgWin_of_regOpen {t : Nat} {s : State} (ht : t ≠ pkgWin) (hopen : regOpen s t = true) : t < pkgWin := by
  have hup : tileUp s t = true := by
    simp only [regOpen, Bool.and_eq_true, Bool.or_eq_true, beq_iff_eq, ht, false_or] at hopen
    exact hopen.2
  have hmem : t ∈ bitsSet s.ident.part.tiles s.ident.tileMap := by
    simp only [tileUp, Bool.and_eq_true, List.contains_iff_mem] at hup
    exact hup.1
  have hlt : t < s.ident.part.tiles := List.mem_range.1 (List.mem_of_mem_filter hmem)
  have hmost : s.ident.part.tiles ≤ 8 := by cases s.ident.part <;> decide
  exact hlt.trans_le hmost

theorem winTile_of_regOpen {t : Nat} {s : State} (ht : t ≠ pkgWin) (hopen : regOpen s t = true) : winTile t = t :=
  if_pos (lt_pkgWin_of_regOpen ht hopen)

@[simp] theorem tfld_setT_self (w : Nat) (f : Fld) (v : Nat) (s : State) : (setT w f v s).tfld w f = v := by
  simp [State.tfld, setT, fld_setFld]

theorem tfld_bump_other (w : Nat) {f g : Fld} (h : g ≠ f) (s : State) : (bump w f s).tfld w g = s.tfld w g := by
  have hne : ¬(w = w ∧ 0 = 0 ∧ g = f) := fun hx => h hx.2.2
  rw [State.tfld, bump, addT, fld_addFld, if_neg hne, State.tfld]

theorem tfld_of_regs {s t : State} (h : t.regs = s.regs) (w : Nat) (f : Fld) : t.tfld w f = s.tfld w f := by
  simp only [State.tfld, State.fld, h]

theorem gfld_of_regs {s t : State} (h : t.regs = s.regs) (f : Fld) : t.gfld f = s.gfld f := by
  simp only [State.gfld, State.fld, h]

theorem fld_of_regs {s t : State} (h : t.regs = s.regs) (w i : Nat) (f : Fld) : t.fld w i f = s.fld w i f := by
  simp only [State.fld, h]

end Sys2Proof.Machine
end

section
/-!
PROOFS. The shared engines (R84, R87): a free engine takes the one request that is submitted to it, and no other engine is touched.
-/
namespace Sys2Proof.Machine
open Sys2Proof

/-! ### The pick of a class (R84, R87) -/

theorem wrrPick_fresh (weights credit : List Nat) (hw : ∀ i, i < 3 → 0 < (weights[i]?).getD 0) {c : PClass}
    (hc : c = .h1 ∨ c = .h2 ∨ c = .h3) : ∃ cr, wrrPick weights credit (fun d => c == d) = some (c, cr) := by
  have h0 := hw 0 (by omega)
  have h1 := hw 1 (by omega)
  have h2 := hw 2 (by omega)
  obtain rfl | rfl | rfl := hc
  · by_cases hcr : 0 < (credit[0]?).getD 0 <;> simp [wrrPick, List.zipIdx, hcr, h0]
  · by_cases hcr : 0 < (credit[1]?).getD 0 <;> simp [wrrPick, List.zipIdx, hcr, h1]
  · by_cases hcr : 0 < (credit[2]?).getD 0 <;> simp [wrrPick, List.zipIdx, hcr, h2]

theorem wrrPick_none (weights credit : List Nat) {has : PClass → Bool} (h1 : has .h1 = false) (h2 : has .h2 = false)
    (h3 : has .h3 = false) : wrrPick weights credit has = none := by
  simp [wrrPick, List.zipIdx, h1, h2, h3]

/-- Of requests of one class, that class goes next. -/
theorem classPick_single (s : State) (t : Nat) (credit : List Nat) (c : PClass) :
    ∃ cr, classPick (classWeights s t) credit (fun d => c == d) = some (c, cr) := by
  have hw : ∀ i, i < 3 → 0 < ((classWeights s t)[i]?).getD 0 := by
    intro i hi
    obtain rfl | rfl | rfl : i = 0 ∨ i = 1 ∨ i = 2 := by omega
    all_goals simp [classWeights]
  by_cases hwrr : c = .h1 ∨ c = .h2 ∨ c = .h3
  · obtain ⟨cr, hcr⟩ := wrrPick_fresh (classWeights s t) credit hw hwrr
    have h0 : (c == PClass.h0) = false := by obtain rfl | rfl | rfl := hwrr <;> rfl
    exact ⟨cr, by simp [classPick, h0, hcr]⟩
  · have hrest : (c == .h1) = false ∧ (c == .h2) = false ∧ (c == .h3) = false ∧
        ((c == .h0) = true ∨ [PClass.b1, .b2, .b3, .b4, .b5, .b6, .m].find? (fun d => c == d) = some c) := by
      revert hwrr
      cases c <;> decide
    obtain ⟨h1, h2, h3, h0 | hfind⟩ := hrest
    · obtain rfl := eq_of_beq h0
      exact ⟨credit, rfl⟩
    · by_cases h0 : c = .h0
      · subst h0
        exact ⟨credit, rfl⟩
      · exact ⟨credit, by simp [classPick, h0, wrrPick_none _ _ h1 h2 h3, hfind]⟩

theorem classPick_none (weights credit : List Nat) : classPick weights credit (fun _ => false) = none := by
  simp [classPick, wrrPick_none]

/-! ### One request at a free engine -/

/-- The request that a submission makes. -/
def newReq (s : State) (tile : Nat) (u : EngUnit) (c : PClass) (w : EngWork) : EngReq :=
  { no := s.eng.next, tile := tile, unit := u, cls := c, work := w }

theorem reqsAt_submit {tile : Nat} {u : EngUnit} {c : PClass} {w : EngWork} {s : State} (hreqs : reqsAt s tile u = []) :
    reqsAt (submit tile u c w s) tile u = [newReq s tile u c w] := by
  have hold : s.eng.reqs.filter (fun r => r.tile == tile && r.unit == u) = [] := hreqs
  simp [reqsAt, submit, List.filter_append, hold, newReq]

/-- From `s` to `t` only the engines changed, the requests are as before, and so are every pipe and turn but those of one engine. -/
structure TookOne (tile : Nat) (u : EngUnit) (s t : State) : Prop where
  frame : t = { s with eng := t.eng }
  reqs : t.eng.reqs = s.eng.reqs
  pipes : ∀ a v, ¬(a = tile ∧ v = u) → pipeOf t a v = pipeOf s a v
  turns : ∀ a v, ¬(a = tile ∧ v = u) → turnsAt t a v = turnsAt s a v

theorem turnsAt_putTurns_other {t : Nat} {u : EngUnit} (cr : List Nat) (s : State) {a : Nat} {v : EngUnit} (h : ¬(a = t ∧ v = u)) :
    turnsAt (putTurns t u cr s) a v = turnsAt s a v := by
  have hput := find?_putKeyed ClassTurn.tile ClassTurn.unit s.eng.turns { tile := t, unit := u, credit := cr } a v
  simp only [turnsAt, putTurns, hput, if_neg h]

/-- The state after the one request has been taken. -/
def reqTaken (tile : Nat) (u : EngUnit) (c : PClass) (w : EngWork) (cr : List Nat) (s : State) : State :=
  dropReq (newReq s tile u c w) (putTurns tile u cr (submit tile u c w s))

/-- A free engine takes the one request that is submitted, where it may. -/
theorem takeReq_submit {tile : Nat} {u : EngUnit} {c : PClass} {w : EngWork} {s : State} {may : EngReq → Bool}
    (hreqs : reqsAt s tile u = []) (hmay : may (newReq s tile u c w) = true) :
    ∃ cr, takeReq tile u may (submit tile u c w s) = some (newReq s tile u c w, reqTaken tile u c w cr s) := by
  obtain ⟨cr, hcr⟩ := classPick_single (submit tile u c w s) tile (turnsAt (submit tile u c w s) tile u) c
  refine ⟨cr, ?_⟩
  have hwaits : (reqsAt (submit tile u c w s) tile u).filter may = [newReq s tile u c w] := by
    simp [reqsAt_submit hreqs, hmay]
  have hany : (fun d => [newReq s tile u c w].any fun r => r.cls == d) = fun d => c == d := by
    funext d
    simp [newReq]
  simp only [takeReq, hwaits, hany, hcr]
  simp [newReq, reqTaken]

theorem tookOne_reqTaken {tile : Nat} {u : EngUnit} {c : PClass} {w : EngWork} (cr : List Nat) {s : State} (hreqs : reqsAt s tile u = []) :
    TookOne tile u s (reqTaken tile u c w cr s) where
  frame := rfl
  reqs := by
    have hkeep : s.eng.reqs.filter (fun r => !(r.tile == tile && r.unit == u && r.no == s.eng.next)) = s.eng.reqs := by
      refine List.filter_eq_self.2 fun r hr => ?_
      have hnot : ¬(r.tile == tile && r.unit == u) = true := List.filter_eq_nil_iff.1 hreqs r hr
      simp [hnot]
    simp only [reqTaken, dropReq, putTurns, submit, newReq, List.filter_append, hkeep]
    simp
  pipes _ _ _ := rfl
  turns a v h := turnsAt_putTurns_other cr _ h

theorem TookOne.trans {tile : Nat} {u : EngUnit} {s t v : State} (h : TookOne tile u s t) (k : TookOne tile u t v) : TookOne tile u s v where
  frame := Eq.trans k.frame (congrArg (fun x : State => { x with eng := v.eng }) h.frame)
  reqs := k.reqs.trans h.reqs
  pipes a w ha := (k.pipes a w ha).trans (h.pipes a w ha)
  turns a w ha := (k.turns a w ha).trans (h.turns a w ha)

theorem reqsAt_of_tookOne {tile : Nat} {u : EngUnit} {s t : State} (h : TookOne tile u s t) (hreqs : reqsAt s tile u = []) :
    reqsAt t tile u = [] := by
  rw [reqsAt, h.reqs]
  exact hreqs

theorem onlyEngine_of_tookOne {tile : Nat} {u : EngUnit} {s t : State} (h : TookOne tile u s t) (hfree : EngineFree tile u t) :
    OnlyEngine tile u s t := ⟨hfree, h.reqs, fun a v ha => ⟨h.pipes a v ha, h.turns a v ha⟩⟩

theorem takeReq_nil {tile : Nat} {u : EngUnit} {may : EngReq → Bool} {s : State} (hreqs : reqsAt s tile u = []) :
    takeReq tile u may s = none := by
  simp [takeReq, hreqs, classPick_none]

end Sys2Proof.Machine
end

section
/-!
PROOFS. The buffer pool manager (R323 to R334): the pool that is put back under its key, its free list, and its rebuild.
-/
namespace Sys2Proof.Machine
open Sys2Proof

/-- A pool put back is found under its key, and every other pool as before. -/
theorem findPool_putPool (p : Pool) (s : State) (a n : Nat) :
    findPool (putPool p s) a n = if a = p.tile ∧ n = p.pool then some p else findPool s a n :=
  find?_putKeyed Pool.tile Pool.pool s.pools p a n

theorem key_of_findPool {s : State} {a n : Nat} {p : Pool} (h : findPool s a n = some p) : p.tile = a ∧ p.pool = n := by
  simpa using List.find?_some h

theorem genOf_setGen (i g : Nat) (p : Pool) : genOf (setGen i g p) i = g := by
  unfold genOf setGen
  dsimp only
  rw [List.find?_append]
  have hgone : (p.gens.filter fun x => x.1 != i).find? (fun x => x.1 == i) = none := by simp
  rw [hgone]
  by_cases hg : g = 0 <;> simp [hg]

/-! ### Allocation (R328, R331) -/

/-- The pool that has given its head buffer. -/
def headTaken (s : State) (p : Pool) : Pool :=
  setGen (hIndex p.head) ((genOf p (hIndex p.head) + 1) % 65536)
    { p with head := ofLE ((readBytes s.mem (bufAddr s p.head) 8).take 4), free := p.free - 1, alloc := p.alloc ++ [hIndex p.head] }

theorem takeHead_of_good {s : State} {p : Pool} (hhead : p.head ≠ nullHandle)
    (hlink : linkGood s p (hIndex p.head) (readBytes s.mem (bufAddr s p.head) 8) = true) :
    takeHead p true s = (putPool (headTaken s p) s,
      some (handleOf p.tile p.pool ((genOf p (hIndex p.head) + 1) % 65536) (hIndex p.head))) := by
  unfold takeHead
  exact if_pos (by simp [hhead, hlink])

theorem allocate_of_fits {s : State} {tile len : Nat} {cls : PClass} {p : Pool} {rest : List Pool} (hpos : 0 < len)
    (hlen : len ≤ 262144) (hfits : (presentFrom s tile 0).filter (fun q => decide (len ≤ poolSize q.pool)) = p :: rest)
    (htake : mayTake s p cls = true) (hhead : p.head ≠ nullHandle)
    (hlink : linkGood s p (hIndex p.head) (readBytes s.mem (bufAddr s p.head) 8) = true) :
    allocate tile len cls true s = (putPool (headTaken s p) s,
      some (handleOf p.tile p.pool ((genOf p (hIndex p.head) + 1) % 65536) (hIndex p.head))) := by
  have hrange : ¬(len == 0 || decide (262144 < len)) = true := by simp; omega
  unfold allocate
  rw [if_neg hrange]
  simp only [hfits, htake, if_true, takeHead_of_good hhead hlink]

theorem allocate_of_none {s : State} {tile len : Nat} {cls : PClass} {ok : Bool} (hpos : 0 < len) (hlen : len ≤ 262144)
    (hsmall : ∀ p ∈ presentFrom s tile 0, poolSize p.pool < len) :
    allocate tile len cls ok s = (bump tile .bpm_empty_count s, none) := by
  have hrange : ¬(len == 0 || decide (262144 < len)) = true := by simp; omega
  have hfits : (presentFrom s tile 0).filter (fun q => decide (len ≤ poolSize q.pool)) = [] := by
    simpa using hsmall
  unfold allocate
  rw [if_neg hrange]
  simp only [hfits]

theorem tile_of_mem_presentFrom {s : State} {tile k : Nat} {p : Pool} (h : p ∈ presentFrom s tile k) : p.tile = tile := by
  obtain ⟨n, -, hn⟩ := List.mem_filterMap.1 h
  split at hn
  · exact (key_of_findPool hn).1
  · cases hn

/-! ### Frees (R330, R333) -/

theorem length_linkBytes (next gen i : Nat) : (linkBytes next gen i).length = 8 := by
  simp [linkBytes, toLE]

/-- Bytes written read back as written. -/
theorem readBytes_writeBytes {m : List Host.Cell} (hm : Memory.wf m = true) (b : Bytes) (a : Nat) :
    readBytes (writeBytes a b m) a b.length = b := by
  refine List.ext_getElem (by simp [readBytes]) fun i hi hi' => ?_
  simp only [readBytes, List.getElem_map, List.getElem_range]
  rw [memRead_writeBytes b a (a + i) hm, if_pos (by omega)]
  simp [hi']

theorem memRead_writeBytes_outside {m : List Host.Cell} (hm : Memory.wf m = true) {b : Bytes} {a k : Nat}
    (hk : k < a ∨ a + b.length ≤ k) : memRead (writeBytes a b m) k = memRead m k := by
  rw [memRead_writeBytes b a k hm, if_neg (by omega)]

theorem bufAddr_linkFree (i : Nat) (p : Pool) (s : State) (h : Nat) : bufAddr (linkFree i p s) h = bufAddr s h := by
  simp only [bufAddr, poolBase, poolCount, State.fld, linkFree, putPool]

theorem findPool_linkFree (i : Nat) (p : Pool) (s : State) (a n : Nat) :
    findPool (linkFree i p s) a n = if a = p.tile ∧ n = p.pool then
      some { p with head := handleOf p.tile p.pool (genOf p i) i, free := p.free + 1 } else findPool s a n := by
  simp only [linkFree, findPool_putPool]
  simp only [findPool]

theorem linkFree_eq (i : Nat) (p : Pool) (s : State) :
    linkFree i p s = { s with pools := (linkFree i p s).pools, mem := (linkFree i p s).mem } := by
  simp only [linkFree, putPool]

theorem mem_linkFree (i : Nat) (p : Pool) (s : State) : (linkFree i p s).mem =
    writeBytes (bufAddr s (handleOf p.tile p.pool (genOf p i) i)) (linkBytes p.head (genOf p i) i) s.mem := by
  simp only [linkFree, putPool]

theorem freeBuffer_of_good {s : State} {tile h : Nat} {p : Pool} (hfault : handleFault s tile h = none)
    (hfind : findPool s tile (hPool h) = some p) (hq : p.quarantined = false) (hr : p.resetting = false) :
    freeBuffer tile h s = linkFree (hIndex h) { p with alloc := p.alloc.filter fun x => x != hIndex h } s := by
  simp [freeBuffer, hfault, hfind, hq, hr]

theorem freeBuffer_of_fault {s : State} {tile h k : Nat} (hfault : handleFault s tile h = some k) :
    freeBuffer tile h s = logEv .bpmBadFree tile [h, k] (bump tile .bpm_bad_free_bad_frees s) := by
  simp only [freeBuffer, hfault]

/-! ### Pool reset (R334) -/

/-- Marks one pool of a tile, where the value names it. -/
def markPool (tile value : Nat) (s : State) (n : Nat) : State :=
  match findPool s tile n with
  | some p => if bitOf value n && !p.resetting then putPool { p with resetting := true } s else s
  | none => s

theorem markPool_eq (tile value : Nat) (s : State) (n : Nat) :
    markPool tile value s n = { s with pools := (markPool tile value s n).pools } := by
  unfold markPool
  split
  case h_1 => split <;> rfl
  case h_2 => rfl

theorem findPool_markPool (tile value : Nat) (s : State) (n a m : Nat) :
    findPool (markPool tile value s n) a m = if a = tile ∧ m = n ∧ bitOf value n = true then
      (findPool s tile n).map fun p => { p with resetting := true } else findPool s a m := by
  unfold markPool
  split
  case h_1 p hp =>
    obtain ⟨rfl, rfl⟩ := key_of_findPool hp
    by_cases hbit : bitOf value p.pool = true
    · by_cases hreset : p.resetting = true
      · have hsame : { p with resetting := true } = p := by rw [← hreset]
        by_cases hkey : a = p.tile ∧ m = p.pool
        · obtain ⟨rfl, rfl⟩ := hkey
          simp [hbit, hreset, hp, hsame]
        · simp [hbit, hreset, hkey]
      · simp only [hbit, hreset, Bool.not_false, Bool.and_self, if_true, findPool_putPool, hp, and_true, Option.map_some]
    · simp [hbit]
  case h_2 hnone =>
    split
    case isTrue h =>
      obtain ⟨rfl, rfl, -⟩ := h
      rw [hnone, Option.map_none]
    case isFalse => rfl

theorem foldl_markPool_eq (tile value : Nat) : ∀ (l : List Nat) (s : State), l.foldl (markPool tile value) s =
    { s with pools := (l.foldl (markPool tile value) s).pools }
  | [], _ => rfl
  | n :: l, s => Eq.trans (foldl_markPool_eq tile value l (markPool tile value s n)) (congrArg (fun x : State =>
      { x with pools := (l.foldl (markPool tile value) (markPool tile value s n)).pools }) (markPool_eq tile value s n))

theorem findPool_foldl_markPool (tile value : Nat) : ∀ (l : List Nat) (s : State) (a m : Nat),
    findPool (l.foldl (markPool tile value) s) a m = if a = tile ∧ m ∈ l ∧ bitOf value m = true then
      (findPool s tile m).map fun p => { p with resetting := true } else findPool s a m
  | [], s, a, m => by simp
  | n :: l, s, a, m => by
    rw [List.foldl_cons, findPool_foldl_markPool tile value l, findPool_markPool, findPool_markPool]
    by_cases ha : a = tile
    · subst ha
      by_cases hbit : bitOf value m = true
      · by_cases hn : m = n
        · subst hn
          by_cases hl : m ∈ l <;> simp [hbit, hl, Option.map_map, Function.comp_def]
        · by_cases hl : m ∈ l <;> simp [hbit, hl, hn]
      · by_cases hn : m = n
        · subst hn
          simp [hbit]
        · simp [hbit, hn]
    · simp [ha]

theorem poolReset_of_enabled {tile value : Nat} {s : State} (hen : s.tfld tile .bpm_cfg_bpm_enable = 1) :
    poolReset tile value s = (List.range 6).foldl (markPool tile value) s := by
  simp only [poolReset, hen, bne_self_eq_false, Bool.false_eq_true, if_false]
  rfl

/-! ### The rebuild of a pool (R334) -/

/-- One step of the rebuild: a free buffer is linked at the head of its pool. -/
def relink (tile n : Nat) (s : State) (i : Nat) : State :=
  match findPool s tile n with
  | some q => linkFree i q s
  | none => s

/-- From `s` to `t` the pool `n` of a tile has taken `k` free buffers and nothing but its free list changed. -/
structure PoolLinked (tile n k : Nat) (s t : State) : Prop where
  frame : t = { s with pools := t.pools, mem := t.mem }
  mem : Memory.wf s.mem = true → Memory.wf t.mem = true
  pool : ∀ p, findPool s tile n = some p → ∃ h, findPool t tile n = some { p with head := h, free := p.free + k }
  others : ∀ a m, ¬(a = tile ∧ m = n) → findPool t a m = findPool s a m
  bytes : Memory.wf s.mem = true → ∀ a, (∀ g i, a < bufAddr s (handleOf tile n g i) ∨ bufAddr s (handleOf tile n g i) + 8 ≤ a) →
    memRead t.mem a = memRead s.mem a

theorem bufAddr_of_frame {s t : State} (h : t = { s with pools := t.pools, mem := t.mem }) (k : Nat) : bufAddr t k = bufAddr s k := by
  rw [h]
  simp only [bufAddr, poolBase, poolCount, State.fld]

theorem PoolLinked.refl (tile n : Nat) (s : State) : PoolLinked tile n 0 s s where
  frame := rfl
  mem h := h
  pool p hp := ⟨p.head, hp⟩
  others _ _ _ := rfl
  bytes _ _ _ := rfl

theorem PoolLinked.trans {tile n j k : Nat} {s t u : State} (h : PoolLinked tile n j s t) (h' : PoolLinked tile n k t u) :
    PoolLinked tile n (j + k) s u where
  frame := Eq.trans h'.frame (congrArg (fun x : State => { x with pools := u.pools, mem := u.mem }) h.frame)
  mem hs := h'.mem (h.mem hs)
  pool p hp := by
    obtain ⟨a, ha⟩ := h.pool p hp
    obtain ⟨b, hb⟩ := h'.pool _ ha
    exact ⟨b, by rw [hb, Nat.add_assoc]⟩
  others a m ham := (h'.others a m ham).trans (h.others a m ham)
  bytes hs a ha := (h'.bytes (h.mem hs) a (by simpa only [bufAddr_of_frame h.frame] using ha)).trans (h.bytes hs a ha)

theorem poolLinked_relink {tile n : Nat} {s : State} {p : Pool} (hp : findPool s tile n = some p) (i : Nat) :
    PoolLinked tile n 1 s (relink tile n s i) := by
  obtain ⟨rfl, rfl⟩ := key_of_findPool hp
  have hlink : relink p.tile p.pool s i = linkFree i p s := by simp only [relink, hp]
  rw [hlink]
  refine ⟨linkFree_eq i p s, fun hs => ?_, fun q hq => ?_, fun a m ham => ?_, fun hs a ha => ?_⟩
  · rw [mem_linkFree]
    exact wf_writeBytes _ _ hs
  · obtain rfl : p = q := Option.some.inj (hp.symm.trans hq)
    exact ⟨_, by rw [findPool_linkFree, if_pos ⟨rfl, rfl⟩]⟩
  · rw [findPool_linkFree, if_neg ham]
  · rw [mem_linkFree]
    exact memRead_writeBytes_outside hs (by rw [length_linkBytes]; exact ha _ _)

theorem poolLinked_foldl {tile n : Nat} : ∀ (l : List Nat) {s : State} {p : Pool}, findPool s tile n = some p →
    PoolLinked tile n l.length s (l.foldl (relink tile n) s)
  | [], s, _, _ => .refl tile n s
  | i :: l, s, p, hp => by
    have hone := poolLinked_relink hp i
    obtain ⟨h, hq⟩ := hone.pool p hp
    rw [List.length_cons, Nat.add_comm]
    exact hone.trans (poolLinked_foldl l hq)

/-- The pool before its rebuild: empty, neither resetting nor quarantined. -/
def emptied (p : Pool) : Pool := { p with head := nullHandle, free := 0, quarantined := false, resetting := false, late := [] }

/-- The buffers of a pool that are free before its rebuild. -/
def freeIndices (s : State) (p : Pool) : List Nat :=
  (List.range (poolCount s p.tile p.pool)).filter fun i => !p.alloc.contains i && !p.late.contains i

theorem buildPool_eq {tile n : Nat} {s : State} {p : Pool} (hp : findPool s tile n = some p) : buildPool tile n s =
    p.late.foldl (relink tile n) ((freeIndices s p).reverse.foldl (relink tile n) (putPool (emptied p) s)) := by
  obtain ⟨rfl, rfl⟩ := key_of_findPool hp
  simp only [buildPool, hp]
  rfl

/-- What the rebuild of a pool leaves, from the state in which it is empty. -/
theorem poolLinked_buildPool {tile n : Nat} {s : State} {p : Pool} (hp : findPool s tile n = some p) :
    PoolLinked tile n ((freeIndices s p).length + p.late.length) (putPool (emptied p) s) (buildPool tile n s) := by
  obtain ⟨rfl, rfl⟩ := key_of_findPool hp
  rw [buildPool_eq hp]
  have hstart : findPool (putPool (emptied p) s) p.tile p.pool = some (emptied p) := by
    rw [findPool_putPool]
    exact if_pos ⟨rfl, rfl⟩
  have hfree := poolLinked_foldl (freeIndices s p).reverse hstart
  obtain ⟨h, hq⟩ := hfree.pool _ hstart
  rw [List.length_reverse] at hfree
  exact hfree.trans (poolLinked_foldl p.late hq)

theorem logEv_of_frame {s t : State} (h : t = { s with pools := t.pools, mem := t.mem }) (e : Ev) (tile : Nat) (l : List Nat) :
    logEv e tile l t = { s with pools := t.pools, mem := t.mem, evr := (logEv e tile l t).evr } := by
  have hevr : t.evr = s.evr := congrArg (·.evr) h
  rw [logEv_evr, hevr]
  conv => lhs; rw [h]
  rfl

/-! ### The enable (R325) -/

/-- A pool with no buffer in it yet. -/
def blankPool (tile n : Nat) : Pool :=
  { tile := tile, pool := n, head := nullHandle, free := 0, alloc := [], gens := [], quarantined := false, resetting := false, late := [] }

/-- Builds one pool of a tile, where it has buffers. -/
def startPool (tile : Nat) (s : State) (n : Nat) : State :=
  if poolCount s tile n == 0 then s else buildPool tile n (putPool (blankPool tile n) s)

theorem poolCount_of_frame {s t : State} (h : t = { s with pools := t.pools, mem := t.mem }) (a n : Nat) :
    poolCount t a n = poolCount s a n := by
  rw [h]
  simp only [poolCount, State.fld]

theorem tfld_of_frame {s t : State} (h : t = { s with pools := t.pools, mem := t.mem }) (w : Nat) (f : Fld) :
    t.tfld w f = s.tfld w f := by
  rw [h]
  simp only [State.tfld, State.fld]

/-- A pool that is built when the block starts: every buffer is free. -/
theorem startPool_of_count {tile n : Nat} {s : State} (hcount : poolCount s tile n ≠ 0) :
    startPool tile s n = { s with pools := (startPool tile s n).pools, mem := (startPool tile s n).mem } ∧
    (∃ p, findPool (startPool tile s n) tile n = some p ∧ p.alloc = [] ∧ p.free = poolCount s tile n) ∧
    ∀ a m, ¬(a = tile ∧ m = n) → findPool (startPool tile s n) a m = findPool s a m := by
  have hp : findPool (putPool (blankPool tile n) s) tile n = some (blankPool tile n) := by
    rw [findPool_putPool]
    exact if_pos ⟨rfl, rfl⟩
  have hbuilt := poolLinked_buildPool hp
  have hall : freeIndices (putPool (blankPool tile n) s) (blankPool tile n) = List.range (poolCount s tile n) := by
    simp [freeIndices, blankPool, poolCount, putPool, State.fld]
  have hempty : findPool (putPool (emptied (blankPool tile n)) (putPool (blankPool tile n) s)) tile n =
      some (emptied (blankPool tile n)) := by
    rw [findPool_putPool]
    exact if_pos ⟨rfl, rfl⟩
  have heq : startPool tile s n = buildPool tile n (putPool (blankPool tile n) s) := if_neg (by simpa using hcount)
  rw [heq]
  refine ⟨hbuilt.frame, ?_, fun a m ham => ?_⟩
  · obtain ⟨h, hq⟩ := hbuilt.pool _ hempty
    refine ⟨_, hq, rfl, ?_⟩
    simp only [hall, List.length_range]
    exact (Nat.zero_add _).trans (Nat.add_zero _)
  · rw [hbuilt.others a m ham, findPool_putPool, findPool_putPool]
    exact (if_neg ham).trans (if_neg ham)

theorem startPool_of_zero {tile n : Nat} {s : State} (hcount : poolCount s tile n = 0) : startPool tile s n = s :=
  if_pos (by simpa using hcount)

theorem startPool_eq (tile n : Nat) (s : State) :
    startPool tile s n = { s with pools := (startPool tile s n).pools, mem := (startPool tile s n).mem } := by
  by_cases hcount : poolCount s tile n = 0
  · rw [startPool_of_zero hcount]
  · exact (startPool_of_count hcount).1

/-- Every pool of a list of distinct numbers that has buffers is built, and no other. -/
theorem foldl_startPool (tile : Nat) : ∀ (l : List Nat) (s : State), l.Nodup →
    let t := l.foldl (startPool tile) s
    t = { s with pools := t.pools, mem := t.mem } ∧
    (∀ n ∈ l, poolCount s tile n ≠ 0 → ∃ p, findPool t tile n = some p ∧ p.alloc = [] ∧ p.free = poolCount s tile n) ∧
    ∀ m, m ∉ l → findPool t tile m = findPool s tile m
  | [], s, _ => ⟨rfl, by simp, fun _ _ => rfl⟩
  | n :: l, s, hnodup => by
    obtain ⟨hn, hl⟩ := List.nodup_cons.1 hnodup
    have hone := startPool_eq tile n s
    obtain ⟨hframe, hbuilt, hothers⟩ := foldl_startPool tile l (startPool tile s n) hl
    refine ⟨Eq.trans hframe (congrArg (fun x : State => { x with
      pools := (l.foldl (startPool tile) (startPool tile s n)).pools
      mem := (l.foldl (startPool tile) (startPool tile s n)).mem }) hone), fun m hm hcount => ?_, fun m hm => ?_⟩
    · obtain rfl | hml := List.mem_cons.1 hm
      · obtain ⟨p, hp, hrest⟩ := (startPool_of_count hcount).2.1
        exact ⟨p, (hothers m hn).trans hp, hrest⟩
      · have hsame := poolCount_of_frame hone tile m
        rw [← hsame] at hcount ⊢
        exact hbuilt m hml hcount
    · obtain ⟨hmn, hml⟩ := not_or.1 (mt List.mem_cons.2 hm)
      refine (hothers m hml).trans ?_
      by_cases hcount : poolCount s tile n = 0
      · rw [startPool_of_zero hcount]
      · exact (startPool_of_count hcount).2.2 tile m fun h => hmn h.2

theorem bpmEnable_of_fit {tile value : Nat} {s : State} (hbit : bitOf value 0 = true) (hoff : s.tfld tile .bpm_cfg_bpm_enable = 0)
    (hfit : areaUsed (writeCfg tile .bpmCfg (value - 1) s) tile ≤ poolArea (writeCfg tile .bpmCfg (value - 1) s) tile) :
    bpmEnable tile value s = (List.range 6).foldl (startPool tile)
      (setT tile .bpm_cfg_bpm_enable 1 (writeCfg tile .bpmCfg (value - 1) s)) :=
  writeEnable_of_ok hbit hoff (by simp only [orderHolds]) (if_neg hfit.not_gt)

theorem bpmEnable_of_big {tile value : Nat} {s : State} (hbit : bitOf value 0 = true) (hoff : s.tfld tile .bpm_cfg_bpm_enable = 0)
    (hbig : poolArea (writeCfg tile .bpmCfg (value - 1) s) tile < areaUsed (writeCfg tile .bpmCfg (value - 1) s) tile) :
    bpmEnable tile value s = reject (winTile tile) (bar0 tile 0 .bpmCfg) 8 (writeCfg tile .bpmCfg (value - 1) s) :=
  writeEnable_of_check hbit hoff (by simp only [orderHolds]) (if_pos hbig)

/-- From `s` to `t` nothing changed but what the start of the buffer pool manager touches. -/
def OnlyStarted (s t : State) : Prop := t = { s with regs := t.regs, pools := t.pools, mem := t.mem, evr := t.evr }

theorem OnlyStarted.trans {s t u : State} (h : OnlyStarted s t) (k : OnlyStarted t u) : OnlyStarted s u :=
  Eq.trans k (congrArg (fun x : State => { x with regs := u.regs, pools := u.pools, mem := u.mem, evr := u.evr }) h)

theorem OnlyRegs.onlyStarted {s t : State} (h : OnlyRegs s t) : OnlyStarted s t := by
  rw [h]
  rfl

theorem onlyStarted_setT (w : Nat) (f : Fld) (v : Nat) (s : State) : OnlyStarted s (setT w f v s) := rfl

theorem onlyStarted_of_frame {s t : State} (h : t = { s with pools := t.pools, mem := t.mem }) : OnlyStarted s t := by
  rw [h]
  rfl

/-- Settles O10: a pool put back is found under its key, and the rebuild links each free buffer once. -/
theorem bufferPools : Obligations.BufferPools := by
  unfold Obligations.BufferPools
  refine ⟨fun tile len cls p rest s hpos hlen hfits htake hhead hlink => ?_, fun tile len cls ok s hpos hlen hsmall => ?_,
    fun tile h p s hfault hfind hq hr hmem => ?_, fun tile h k s hfault => ⟨_, rfl, ?_⟩,
    fun tile value n p s htile hopen hen hn hbit hfind => ?_, fun tile pool p s hfind hreset hmem => ?_,
    fun tile value s htile hopen hbit hoff hfit => ?_, fun tile value s htile hopen hbit hoff hbig => ?_⟩
  case refine_1 =>
    obtain rfl : p.tile = tile := tile_of_mem_presentFrom (List.mem_of_mem_filter (hfits ▸ List.mem_cons_self))
    have hall := allocate_of_fits hpos hlen hfits htake hhead hlink
    refine ⟨emit (.handle p.tile (handleOf p.tile p.pool ((genOf p (hIndex p.head) + 1) % 65536) (hIndex p.head)))
      (putPool (headTaken s p) s), ?_, rfl, rfl, ⟨headTaken s p, ?_, rfl, rfl, genOf_setGen _ _ _, rfl⟩, fun a n han => ?_⟩
    · show Host.Outcome.next _ = _
      rw [hall]
    · exact (findPool_putPool (headTaken s p) s p.tile p.pool).trans (if_pos ⟨rfl, rfl⟩)
    · exact (findPool_putPool (headTaken s p) s a n).trans (if_neg han)
  case refine_2 =>
    have hall := allocate_of_none (cls := cls) (ok := ok) hpos hlen hsmall
    refine ⟨emit (.poolEmpty tile cls) (bump tile .bpm_empty_count s), ?_, rfl, rfl⟩
    show Host.Outcome.next _ = _
    rw [hall]
  case refine_3 =>
    obtain ⟨rfl, hpool⟩ := key_of_findPool hfind
    have hfree := freeBuffer_of_good hfault hfind hq hr
    refine ⟨_, congrArg Host.Outcome.next hfree, linkFree_eq _ _ s, ?_, ?_, fun a ha => ?_,
      ⟨{ p with head := handleOf p.tile p.pool (genOf p (hIndex h)) (hIndex h), free := p.free + 1,
                alloc := p.alloc.filter fun x => x != hIndex h }, ?_, rfl, rfl, rfl⟩, fun a n han => ?_⟩
    · rw [MemoryOk, mem_linkFree]
      exact wf_writeBytes _ _ hmem
    · rw [mem_linkFree]
      exact readBytes_writeBytes hmem (linkBytes p.head (genOf p (hIndex h)) (hIndex h)) _
    · rw [mem_linkFree]
      exact memRead_writeBytes_outside hmem (by rw [length_linkBytes]; exact ha)
    · rw [findPool_linkFree]
      exact if_pos ⟨rfl, hpool.symm⟩
    · rw [findPool_linkFree]
      exact if_neg fun hk => han ⟨hk.1, hk.2.trans hpool⟩
  case refine_4 =>
    rw [freeBuffer_of_fault hfault]
    exact ⟨rfl, rfl⟩
  case refine_5 =>
    refine ⟨_, congrArg Host.Outcome.next ((tileWrite_of_open htile hopen).trans (poolReset_of_enabled hen)),
      foldl_markPool_eq tile value _ s, ⟨{ p with resetting := true }, ?_, rfl⟩, fun a m ham => ?_⟩
    · rw [findPool_foldl_markPool, if_pos ⟨rfl, List.mem_range.2 hn, hbit⟩, hfind, Option.map_some]
    · rw [findPool_foldl_markPool]
      refine if_neg fun ⟨ha, _, hb⟩ => ?_
      obtain hne | hoff := ham
      · exact hne ha
      · exact Bool.noConfusion (hoff.symm.trans hb)
  case refine_6 =>
    have hbuilt := poolLinked_buildPool hfind
    obtain ⟨rfl, rfl⟩ := key_of_findPool hfind
    have hempty : findPool (putPool (emptied p) s) p.tile p.pool = some (emptied p) := by
      rw [findPool_putPool]
      exact if_pos ⟨rfl, rfl⟩
    obtain ⟨h, hq⟩ := hbuilt.pool _ hempty
    have hmemS : Memory.wf (putPool (emptied p) s).mem = true := hmem
    have hexec : exec (.poolRebuildDone p.tile p.pool) s = .next (logEv .poolReset p.tile
        [p.pool, ((findPool (buildPool p.tile p.pool s) p.tile p.pool).map (·.free)).getD 0] (buildPool p.tile p.pool s)) := by
      show execPoolRebuildDone _ _ _ = _
      simp only [execPoolRebuildDone, hfind, hreset, if_true]
    have hevr : (buildPool p.tile p.pool s).evr = s.evr := congrArg (·.evr) hbuilt.frame
    rw [hq] at hexec
    refine ⟨_, hexec, ?_, hbuilt.mem hmemS, ⟨_, hq, rfl, rfl, rfl, rfl, ?_⟩, fun a n han => ?_, fun a ha => ?_⟩
    · exact logEv_of_frame hbuilt.frame _ _ _
    · simp [Logs, hevr]
    · exact (hbuilt.others a n han).trans ((findPool_putPool _ _ _ _).trans (if_neg han))
    · exact hbuilt.bytes hmemS a ha
  case refine_7 =>
    have hstart := bpmEnable_of_fit hbit hoff hfit
    obtain ⟨hframe, hbuilt, -⟩ := foldl_startPool tile (List.range 6)
      (setT tile .bpm_cfg_bpm_enable 1 (writeCfg tile .bpmCfg (value - 1) s)) List.nodup_range
    refine ⟨_, congrArg Host.Outcome.next ((tileWrite_of_open htile hopen).trans hstart), ?_, ?_, fun n hn hcount => ?_⟩
    · rw [tfld_of_frame hframe]
      exact tfld_setT_self tile .bpm_cfg_bpm_enable 1 (writeCfg tile .bpmCfg (value - 1) s)
    · exact ((onlyRegs_writeCfg tile .bpmCfg (value - 1) s).onlyStarted.trans (onlyStarted_setT _ _ _ _)).trans
        (onlyStarted_of_frame hframe)
    · rw [poolCount_of_frame hframe] at hcount ⊢
      exact hbuilt n (List.mem_range.2 hn) hcount
  case refine_8 =>
    have hstart := bpmEnable_of_big hbit hoff hbig
    rw [winTile_of_regOpen htile hopen] at hstart
    exact ⟨_, congrArg Host.Outcome.next ((tileWrite_of_open htile hopen).trans hstart), rfl⟩

end Sys2Proof.Machine
end

section
/-!
PROOFS. The compression engine (R338 to R349): a free pipe takes the one job that is submitted, ends it, and is free again.
-/
namespace Sys2Proof.Machine
open Sys2Proof

/-! ### A free pipe and one job (R347, R348) -/

theorem pipeOf_putPipe (p : Pipe) (s : State) (a : Nat) (v : EngUnit) :
    pipeOf (putPipe p s) a v = if a = p.tile ∧ v = p.unit then p else pipeOf s a v := by
  have hput := find?_putKeyed Pipe.tile Pipe.unit s.eng.pipes p a v
  simp only [pipeOf, putPipe, hput]
  by_cases h : a = p.tile ∧ v = p.unit
  · rw [if_pos h, if_pos h, Option.getD_some]
  · rw [if_neg h, if_neg h]

/-- The request of a job, the state in which it waits, and the state in which its pipe has taken it. -/
def jobReq (s : State) (tile : Nat) (op : CmpOp) (j : CmpJob) : EngReq := newReq s tile op.pipe (PClass.ofCode j.cls) (.cmp op j)

def jobSubmitted (tile : Nat) (op : CmpOp) (j : CmpJob) (s : State) : State :=
  submit tile op.pipe (PClass.ofCode j.cls) (.cmp op j) s

def jobTaken (tile : Nat) (op : CmpOp) (j : CmpJob) (cr : List Nat) (s : State) : State :=
  reqTaken tile op.pipe (PClass.ofCode j.cls) (.cmp op j) cr s

theorem tookOne_putPipe {tile : Nat} {u : EngUnit} {p : Pipe} (htile : p.tile = tile) (hunit : p.unit = u) (s : State) :
    TookOne tile u s (putPipe p s) where
  frame := rfl
  reqs := rfl
  pipes a v h := (pipeOf_putPipe p s a v).trans (if_neg (by rw [htile, hunit]; exact h))
  turns _ _ _ := rfl

theorem pipeMayTake_jobReq {tile : Nat} {op : CmpOp} {j : CmpJob} {s : State} {p : Pipe} (hfree : EngineFree tile op.pipe s)
    (hp : p = pipeOf s tile op.pipe) (htile : p.tile = tile) (hunit : p.unit = op.pipe) :
    pipeMayTake (jobSubmitted tile op j s) p (jobReq s tile op j) = true := by
  obtain ⟨hreqs, -, hsaved⟩ := hfree
  have hwait : reqsAt (jobSubmitted tile op j s) tile op.pipe = [jobReq s tile op j] := reqsAt_submit hreqs
  rw [← hp] at hsaved
  simp only [pipeMayTake, htile, hunit, hwait, hsaved]
  cases hslot : (jobReq s tile op j).slot <;> simp

theorem key_pipeOf (s : State) (t : Nat) (u : EngUnit) : (pipeOf s t u).tile = t ∧ (pipeOf s t u).unit = u := by
  unfold pipeOf
  cases hfind : s.eng.pipes.find? fun p => p.tile == t && p.unit == u with
  | none => exact ⟨rfl, rfl⟩
  | some p => simpa using List.find?_some hfind

/-- The pipe of a tile's engine with a job in hand or none, and none adjourned. -/
def pipeWith (tile : Nat) (u : EngUnit) (h : Option PipeJob) : Pipe := { tile := tile, unit := u, hand := h, saved := none }

/-- A free pipe takes the job submitted, which it refuses or has in hand. -/
theorem pipeTurn_take {tile : Nat} {op : CmpOp} {j : CmpJob} {s : State} (hen : s.tfld tile .cmp_cfg_cmp_enable = 1)
    (hfree : EngineFree tile op.pipe s) : ∃ cr, pipeTurn tile op.pipe (jobSubmitted tile op j s) =
      some (putPipe (pipeWith tile op.pipe (takeJob tile op j (jobTaken tile op j cr s)).2) (takeJob tile op j (jobTaken tile op j cr s)).1) := by
  obtain ⟨htile, hunit⟩ := key_pipeOf s tile op.pipe
  have hmay := pipeMayTake_jobReq (j := j) hfree rfl htile hunit
  obtain ⟨hreqs, hhand, hsaved⟩ := hfree
  obtain ⟨cr, htaken⟩ := takeReq_submit hreqs hmay
  have hcr : takeReq tile op.pipe (pipeMayTake (jobSubmitted tile op j s) (pipeOf s tile op.pipe)) (jobSubmitted tile op j s) =
      some (jobReq s tile op j, jobTaken tile op j cr s) := htaken
  refine ⟨cr, ?_⟩
  have hpipe : pipeOf (jobSubmitted tile op j s) tile op.pipe = pipeOf s tile op.pipe := rfl
  have hen' : (jobSubmitted tile op j s).tfld tile .cmp_cfg_cmp_enable = 1 := hen
  simp only [pipeTurn, hen', bne_self_eq_false, Bool.false_eq_true, if_false, hpipe, hhand, hsaved, Option.isNone_none,
    Bool.or_true, if_true, pipeTake, htile, hunit, hcr, Option.map_some, jobReq, newReq]
  rfl

theorem not_urgentWaits {s : State} {p : Pipe} (h : reqsAt s p.tile p.unit = []) : urgentWaits s p = false := by
  simp [urgentWaits, h]

/-- A pipe with a job in hand ends it where nothing else waits. -/
theorem pipeTurn_finish {tile : Nat} {u : EngUnit} {s : State} {h : PipeJob} (hen : s.tfld tile .cmp_cfg_cmp_enable = 1)
    (hreqs : reqsAt s tile u = []) (hhand : (pipeOf s tile u).hand = some h) :
    pipeTurn tile u s = some (finishJob tile h (putPipe { pipeOf s tile u with hand := none } s)) := by
  obtain ⟨htile, hunit⟩ := key_pipeOf s tile u
  have hnone : urgentWaits s (pipeOf s tile u) = false := not_urgentWaits (by rw [htile, hunit, hreqs])
  simp only [pipeTurn, hen, bne_self_eq_false, Bool.false_eq_true, if_false, hhand, hnone, Bool.and_false, Bool.false_and]

/-- A free pipe does nothing. -/
theorem pipeTurn_free {tile : Nat} {u : EngUnit} {s : State} (hfree : EngineFree tile u s) : pipeTurn tile u s = none := by
  obtain ⟨hreqs, hhand, hsaved⟩ := hfree
  obtain ⟨htile, hunit⟩ := key_pipeOf s tile u
  have htake : takeReq tile u (pipeMayTake s (pipeOf s tile u)) s = none := takeReq_nil hreqs
  simp only [pipeTurn, hhand, hsaved, Option.isNone_none, Bool.or_true, if_true, pipeTake, htile, hunit, htake, Option.map_none,
    ite_self]

theorem pipeDrain_free {tile : Nat} {u : EngUnit} {s : State} (hfree : EngineFree tile u s) : ∀ n, pipeDrain tile u n s = s
  | 0 => rfl
  | n + 1 => by rw [pipeDrain, pipeTurn_free hfree]

theorem pipeDrain_turn {tile : Nat} {u : EngUnit} {s t : State} (h : pipeTurn tile u s = some t) (n : Nat) :
    pipeDrain tile u (n + 1) s = pipeDrain tile u n t := by
  rw [pipeDrain, h]

/-- A job submitted to a free pipe is worked off in at most ten turns. -/
theorem cmpJob_eq {tile : Nat} {op : CmpOp} {j : CmpJob} {s : State} (hen : s.tfld tile .cmp_cfg_cmp_enable = 1)
    (hfree : EngineFree tile op.pipe s) :
    cmpJob tile op j true s = pipeDrain tile op.pipe 10 (jobSubmitted tile op j s) := by
  have hlen : (reqsAt (jobSubmitted tile op j s) tile op.pipe).length = 1 := 
    congrArg List.length (reqsAt_submit hfree.1)
  have hrun : pipeRun tile op.pipe (jobSubmitted tile op j s) = pipeDrain tile op.pipe 10 (jobSubmitted tile op j s) := by
    rw [pipeRun, hlen]
  rw [← hrun]
  exact if_neg (by simp [hen])

/-- Nothing that a job reads depends on the engines. -/
theorem handleGood_eng (s : State) (e : Engines) (t h : Nat) : handleGood { s with eng := e } t h = handleGood s t h := rfl

theorem buffersOf_eng (s : State) (e : Engines) (t h : Nat) (l : Bool) : buffersOf { s with eng := e } t h l = buffersOf s t h l := rfl

theorem jobBuffers_eng (s : State) (e : Engines) (t : Nat) (j : CmpJob) : jobBuffers { s with eng := e } t j = jobBuffers s t j := rfl

theorem engineFree_putPipe {tile : Nat} {u : EngUnit} {s : State} (hreqs : reqsAt s tile u = []) :
    EngineFree tile u (putPipe (pipeWith tile u none) s) := by
  have hpipe : pipeOf (putPipe (pipeWith tile u none) s) tile u = pipeWith tile u none :=
    (pipeOf_putPipe _ s tile u).trans (if_pos ⟨rfl, rfl⟩)
  refine ⟨hreqs, ?_, ?_⟩
  · rw [hpipe]
    rfl
  · rw [hpipe]
    rfl

/-- A job that the pipe refuses leaves the pipe free. -/
theorem cmpJob_of_refused {tile : Nat} {op : CmpOp} {j : CmpJob} {s : State} (hen : s.tfld tile .cmp_cfg_cmp_enable = 1)
    (hfree : EngineFree tile op.pipe s) {st : CmpStatus}
    (href : ∀ e, takeJob tile op j { s with eng := e } = (endEarly tile op j st { s with eng := e }, none)) :
    ∃ e, TookOne tile op.pipe s { s with eng := e } ∧
      cmpJob tile op j true s = putPipe (pipeWith tile op.pipe none) (endEarly tile op j st { s with eng := e }) := by
  obtain ⟨cr, hturn⟩ := pipeTurn_take (j := j) hen hfree
  have htook : TookOne tile op.pipe s (jobTaken tile op j cr s) := tookOne_reqTaken cr hfree.1
  have hhref := href (jobTaken tile op j cr s).eng
  rw [← htook.frame] at hhref
  rw [hhref] at hturn
  refine ⟨(jobTaken tile op j cr s).eng, htook.frame ▸ htook, ?_⟩
  rw [← htook.frame]
  have hreqs : reqsAt (endEarly tile op j st (jobTaken tile op j cr s)) tile op.pipe = [] := by
    have hsame : (endEarly tile op j st (jobTaken tile op j cr s)).eng.reqs = (jobTaken tile op j cr s).eng.reqs := by
      cases st <;> simp [endEarly, countStatus, freeSlot] <;> split <;> rfl
    rw [reqsAt, hsame]
    exact reqsAt_of_tookOne htook hfree.1
  have hrest := pipeDrain_free (engineFree_putPipe hreqs)
  rw [cmpJob_eq hen hfree, pipeDrain_turn hturn, hrest]

/-- A job that the pipe takes ends, and leaves the pipe free. -/
theorem cmpJob_of_taken {tile : Nat} {op : CmpOp} {j : CmpJob} {s : State} (hen : s.tfld tile .cmp_cfg_cmp_enable = 1)
    (hfree : EngineFree tile op.pipe s) {h : PipeJob}
    (htake : ∀ e, takeJob tile op j { s with eng := e } = ({ s with eng := e }, some h))
    (hend : ∀ u : State, (finishJob tile h u).eng = u.eng) :
    ∃ e, OnlyEngine tile op.pipe s { s with eng := e } ∧ cmpJob tile op j true s = finishJob tile h { s with eng := e } := by
  obtain ⟨cr, hturn⟩ := pipeTurn_take (j := j) hen hfree
  have htook : TookOne tile op.pipe s (jobTaken tile op j cr s) := tookOne_reqTaken cr hfree.1
  have htaken := htake (jobTaken tile op j cr s).eng
  rw [← htook.frame] at htaken
  rw [htaken] at hturn
  generalize jobTaken tile op j cr s = t at htook hturn
  have hreqs := reqsAt_of_tookOne htook hfree.1
  have hhand : TookOne tile op.pipe s (putPipe (pipeWith tile op.pipe (some h)) t) := 
    htook.trans (tookOne_putPipe (p := pipeWith tile op.pipe (some h)) rfl rfl t)
  have hpipe : pipeOf (putPipe (pipeWith tile op.pipe (some h)) t) tile op.pipe = pipeWith tile op.pipe (some h) :=
    (pipeOf_putPipe _ t tile op.pipe).trans (if_pos ⟨rfl, rfl⟩)
  have hend2 := pipeTurn_finish (u := op.pipe) (s := putPipe (pipeWith tile op.pipe (some h)) t) (h := h)
    (by rw [htook.frame]; exact hen) hreqs (by rw [hpipe]; rfl)
  rw [hpipe] at hend2
  have hfin : TookOne tile op.pipe s (putPipe (pipeWith tile op.pipe none) (putPipe (pipeWith tile op.pipe (some h)) t)) :=
    hhand.trans (tookOne_putPipe (p := pipeWith tile op.pipe none) rfl rfl _)
  have hempty : EngineFree tile op.pipe (putPipe (pipeWith tile op.pipe none) (putPipe (pipeWith tile op.pipe (some h)) t)) :=
    engineFree_putPipe hreqs
  generalize hu : putPipe (pipeWith tile op.pipe none) (putPipe (pipeWith tile op.pipe (some h)) t) = u at hfin hempty
  have hdone : EngineFree tile op.pipe (finishJob tile h u) := by
    have he := hend u
    obtain ⟨h1, h2, h3⟩ := hempty
    exact ⟨by rw [reqsAt, he]; exact h1, by rw [pipeOf, he]; exact h2, by rw [pipeOf, he]; exact h3⟩
  refine ⟨u.eng, ?_, ?_⟩
  · rw [← hfin.frame]
    exact onlyEngine_of_tookOne hfin hempty
  · rw [← hfin.frame, cmpJob_eq hen hfree, pipeDrain_turn hturn]
    have hu' : putPipe { pipeWith tile op.pipe (some h) with hand := none } (putPipe (pipeWith tile op.pipe (some h)) t) = u := hu
    rw [hu'] at hend2
    rw [pipeDrain_turn hend2, pipeDrain_free hdone]

/-! ### A whole stream between good buffers (R340, R344) -/

/-- A whole stream in hand. -/
def wholeStream (op : CmpOp) (j : CmpJob) : PipeJob := { op := op, job := j, slot := none, done := 0, adjourned := 0 }

/-- What a pipe makes of a whole stream from one good buffer into another. -/
def wholeRun (op : CmpOp) (j : CmpJob) (s : State) : CmpRun :=
  runOp op (poolSize (hPool j.outHandle)) j none (readBytes s.mem (bufAddr s j.inHandle) j.inLen)

theorem take_readBytes (m : List Host.Cell) (a : Nat) {k n : Nat} (h : k ≤ n) : (readBytes m a n).take k = readBytes m a k := by
  simp [readBytes, ← List.map_take, List.take_range, Nat.min_eq_left h]

theorem length_readBytes (m : List Host.Cell) (a n : Nat) : (readBytes m a n).length = n := by simp [readBytes]

theorem needed_nil : ∀ k n, needed [] k n = []
  | 0, 0 => rfl
  | 0, _ + 1 => rfl
  | _ + 1, 0 => rfl
  | _ + 1, _ + 1 => rfl

/-- One buffer holds what is asked of it, where anything is. -/
theorem needed_single (h k : Nat) : ∀ {n : Nat}, n ≠ 0 → needed [h] (k + 1) n = [h]
  | 0, hn => absurd rfl hn
  | _ + 1, _ => congrArg (h :: ·) (needed_nil k _)

section plain
variable {op : CmpOp} {tile : Nat} {j : CmpJob} {s : State}

/-- The buffers of a plain job: the one that is read, or none where nothing is, and the one that is written. -/
theorem jobBuffers_plain (hp : PlainJob op tile j s) : ∃ ins, jobBuffers s tile j = some (ins, [j.outHandle]) ∧
    readBuffers s ins j.inLen = readBytes s.mem (bufAddr s j.inHandle) j.inLen := by
  obtain ⟨-, hrange, -, -, -, hin4, hout5, hgin, hgout, hlen, -, -, -⟩ := hp
  have hmax : j.outMax ≠ 0 := by
    simp only [jobInRange, Bool.and_eq_true, decide_eq_true_eq] at hrange
    omega
  have hbin : buffersOf s tile j.inHandle false = some [j.inHandle] := by simp [buffersOf, hgin]
  have hbout : buffersOf s tile j.outHandle false = some [j.outHandle] := by simp [buffersOf, hgout]
  have hneed : needed [j.outHandle] 64 j.outMax = [j.outHandle] := needed_single _ 63 hmax
  by_cases hzero : j.inLen = 0
  · refine ⟨[], ?_, by simp [hzero, readBuffers, readBytes]⟩
    have hnone : needed [j.inHandle] 64 j.inLen = [] := by rw [hzero]; rfl
    simp [jobBuffers, hin4, hout5, hbin, hbout, hneed, hnone, hgout]
  · refine ⟨[j.inHandle], ?_, ?_⟩
    · have hone : needed [j.inHandle] 64 j.inLen = [j.inHandle] := needed_single _ 63 hzero
      simp [jobBuffers, hin4, hout5, hbin, hbout, hneed, hone, hgin, hgout]
    · simp only [readBuffers, List.flatMap_cons, List.flatMap_nil, List.append_nil]
      exact take_readBytes _ _ hlen

/-- The pipe takes a plain job as it is. -/
theorem takeJob_plain (hp : PlainJob op tile j s) (e : Engines) :
    takeJob tile op j { s with eng := e } = ({ s with eng := e }, some (wholeStream op j)) := by
  obtain ⟨ins, hbufs, -⟩ := jobBuffers_plain hp
  obtain ⟨-, hrange, hslot, hfirst, hlast, -⟩ := hp
  have hslotFor : slotFor { s with eng := e } tile op j = .ok none := by simp [slotFor, hslot, hfirst, hlast]
  simp only [takeJob, hrange, Bool.not_true, Bool.false_eq_true, if_false, jobBuffers_eng, hbufs, hslotFor]
  rfl

theorem jobRun_plain (hp : PlainJob op tile j s) (e : Engines) : jobRun { s with eng := e } tile (wholeStream op j) = wholeRun op j s := by
  obtain ⟨ins, hbufs, hread⟩ := jobBuffers_plain hp
  obtain ⟨-, -, -, -, -, -, -, -, -, -, hsource, -⟩ := hp
  have hread' : readBuffers { s with eng := e } ins j.inLen = readBytes s.mem (bufAddr s j.inHandle) j.inLen := hread
  simp [jobRun, wholeStream, jobBuffers_eng, hbufs, hsource, hread', length_readBytes, wholeRun, roomOf]

/-- The state with the counters of a job that has ended. -/
def jobCounted (tile : Nat) (r : CmpRun) (s : State) : State :=
  addT tile .cmp_out_bytes_count r.out.length (addT tile .cmp_in_bytes_count r.used s)

/-- How a plain job ends: its output is written or discarded, and its completion is sent. -/
theorem finishJob_plain (hp : PlainJob op tile j s) (e : Engines) : ∃ fl, finishJob tile (wholeStream op j) { s with eng := e } =
    emit (.cmpDone tile j.client (wholeRun op j s).status fl (wholeRun op j s).trailing (wholeRun op j s).out.length
        (wholeRun op j s).crc (wholeRun op j s).used)
      (countStatus tile (wholeRun op j s).status (if (wholeRun op j s).status == .ok then
        writeBuffers [j.outHandle] (wholeRun op j s).out (jobCounted tile (wholeRun op j s) { s with eng := e })
        else discardOutput [j.outHandle] (jobCounted tile (wholeRun op j s) { s with eng := e }))) := by
  obtain ⟨ins, hbufs, -⟩ := jobBuffers_plain hp
  have hrun := jobRun_plain hp e
  obtain ⟨-, -, -, -, hlast, -⟩ := hp
  refine ⟨(wholeRun op j s).flags + (if j.inLen < j.source then 1 else 0) + 0, ?_⟩
  have hjob : (wholeStream op j).job = j := rfl
  have hslot : (wholeStream op j).slot = none := rfl
  have hadj : (wholeStream op j).adjourned = 0 := rfl
  simp only [finishJob, hrun, hjob, hslot, hadj, jobBuffers_eng, hbufs, hlast, Option.bind_none, Option.getD_some, Bool.not_true,
    Bool.and_false, Bool.false_and, Bool.false_eq_true, if_false, bne_self_eq_false]
  cases (wholeRun op j s).status <;> rfl

end plain

/-! ### How a job ends (R340 to R346) -/

theorem writeBuffers_eq : ∀ (hs : List Nat) (bs : Bytes) (s : State),
    writeBuffers hs bs s = { s with mem := (writeBuffers hs bs s).mem }
  | [], _, _ => rfl
  | h :: hs, bs, s => writeBuffers_eq hs (bs.drop (poolSize (hPool h)))
      { s with mem := writeBytes (bufAddr s h) (bs.take (poolSize (hPool h))) s.mem }

theorem eng_writeBuffers (hs : List Nat) (bs : Bytes) (s : State) : (writeBuffers hs bs s).eng = s.eng := by
  rw [writeBuffers_eq]

theorem eng_countStatus (t : Nat) (st : CmpStatus) (s : State) : (countStatus t st s).eng = s.eng := by
  cases st <;> rfl

theorem eng_finishJob (t : Nat) (h : PipeJob) (s : State) : (finishJob t h s).eng = s.eng := by
  unfold finishJob
  dsimp only
  rw [emit_eng, eng_countStatus]
  have hout : ∀ (b : Bool) (hs : List Nat) (bs : Bytes) (u : State),
      (if b then writeBuffers hs bs u else discardOutput hs u).eng = u.eng := by
    intro b hs bs u
    cases b
    · exact eng_writeBuffers hs _ u
    · exact eng_writeBuffers hs bs u
  rw [hout, addT_eng, addT_eng]
  split
  case h_1 => exact iteInduction (motive := fun x : State => x.eng = s.eng) (fun _ => rfl) fun _ => rfl
  all_goals rfl

/-- A counter of a job that has ended; every other field is as before. -/
theorem fld_jobCounted (tile : Nat) (r : CmpRun) (s : State) (w i : Nat) (f : Fld)
    (hf : (w, i, f) ∉ [(tile, 0, Fld.cmp_in_bytes_count), (tile, 0, Fld.cmp_out_bytes_count)]) :
    (jobCounted tile r s).fld w i f = s.fld w i f := by
  simp only [List.mem_cons, Prod.mk.injEq, List.not_mem_nil, or_false, not_or] at hf
  unfold jobCounted addT
  rw [fld_addFld, if_neg hf.2, fld_addFld, if_neg hf.1]

theorem tfld_in_jobCounted (tile : Nat) (r : CmpRun) (s : State) :
    (jobCounted tile r s).tfld tile .cmp_in_bytes_count = Fld.counted .cmp_in_bytes_count (s.tfld tile .cmp_in_bytes_count + r.used) := by
  unfold jobCounted addT
  rw [State.tfld, fld_addFld, if_neg (by simp), fld_addFld, if_pos ⟨rfl, rfl, rfl⟩]
  rfl

theorem tfld_out_jobCounted (tile : Nat) (r : CmpRun) (s : State) : (jobCounted tile r s).tfld tile .cmp_out_bytes_count =
    Fld.counted .cmp_out_bytes_count (s.tfld tile .cmp_out_bytes_count + r.out.length) := by
  unfold jobCounted addT
  rw [State.tfld, fld_addFld, if_pos ⟨rfl, rfl, rfl⟩, fld_addFld, if_neg (by simp)]
  rfl

theorem bufAddr_jobCounted (tile : Nat) (r : CmpRun) (s : State) (h : Nat) : bufAddr (jobCounted tile r s) h = bufAddr s h := by
  have hcount : ∀ a n, poolCount (jobCounted tile r s) a n = poolCount s a n := fun a n => fld_jobCounted _ _ _ _ _ _ (by simp)
  simp only [bufAddr, poolBase, hcount]

/-- One buffer takes what is written to it up to its size. -/
theorem writeBuffers_single (h : Nat) (bs : Bytes) (s : State) :
    writeBuffers [h] bs s = { s with mem := writeBytes (bufAddr s h) (bs.take (poolSize (hPool h))) s.mem } := rfl

theorem onlyBytes_writeBytes {a n : Nat} {b : Bytes} {s t : State} (hs : MemoryOk s) (ht : t.mem = writeBytes a b s.mem)
    (hb : b.length ≤ n) : OnlyBytes a n s t := by
  intro k hk
  rw [ht]
  exact memRead_writeBytes_outside hs (by omega)

section plain
variable {op : CmpOp} {tile : Nat} {j : CmpJob} {s : State}

/-- The state that a plain job that succeeds leaves, on engines `e`. -/
def jobStored (op : CmpOp) (tile : Nat) (j : CmpJob) (fl : Nat) (e : Engines) (s : State) : State :=
  let r := wholeRun op j s
  emit (.cmpDone tile j.client .ok fl r.trailing r.out.length r.crc r.used)
    { jobCounted tile r { s with eng := e } with mem := writeBytes (bufAddr s j.outHandle) r.out s.mem }

theorem cmpJob_plain_ok (hp : PlainJob op tile j s) (hok : (wholeRun op j s).status = .ok)
    (hfit : (wholeRun op j s).out.length ≤ poolSize (hPool j.outHandle)) :
    ∃ fl e, OnlyEngine tile op.pipe s { s with eng := e } ∧ cmpJob tile op j true s = jobStored op tile j fl e s := by
  have htake : (wholeRun op j s).out.take (poolSize (hPool j.outHandle)) = (wholeRun op j s).out := List.take_of_length_le hfit
  have hfree : EngineFree tile op.pipe s := by obtain ⟨-, -, -, -, -, -, -, -, -, -, -, -, hfree⟩ := hp; exact hfree
  obtain ⟨e, heng, hjob⟩ := cmpJob_of_taken hp.1 hfree (takeJob_plain hp) (eng_finishJob tile (wholeStream op j))
  obtain ⟨fl, hfin⟩ := finishJob_plain hp e
  refine ⟨fl, e, heng, ?_⟩
  rw [hjob, hfin]
  simp only [hok, beq_self_eq_true, if_true, countStatus, writeBuffers_single, htake, bufAddr_jobCounted]
  rfl

/-- What O11 says of a plain job that succeeds. -/
theorem jobStored_spec (hm : MemoryOk s) {fl : Nat} {e : Engines} (heng : OnlyEngine tile op.pipe s { s with eng := e }) :
    let r := wholeRun op j s
    let a := bufAddr s j.outHandle
    let t := jobStored op tile j fl e s
    t = { s with mem := t.mem, regs := t.regs, outs := t.outs, eng := t.eng } ∧ OnlyEngine tile op.pipe s t ∧
      readBytes t.mem a r.out.length = r.out ∧ OnlyBytes a r.out.length s t ∧
      Sends [.cmpDone tile j.client .ok fl r.trailing r.out.length r.crc r.used] s t ∧
      t.tfld tile .cmp_in_bytes_count = Fld.counted .cmp_in_bytes_count (s.tfld tile .cmp_in_bytes_count + r.used) ∧
      t.tfld tile .cmp_out_bytes_count = Fld.counted .cmp_out_bytes_count (s.tfld tile .cmp_out_bytes_count + r.out.length) ∧
      OnlyFields [(tile, 0, .cmp_in_bytes_count), (tile, 0, .cmp_out_bytes_count)] s t :=
  ⟨rfl, heng, readBytes_writeBytes hm _ _, onlyBytes_writeBytes hm rfl le_rfl, rfl, tfld_in_jobCounted tile _ _,
    tfld_out_jobCounted tile _ _, rfl, fun w i f hf => fld_jobCounted tile _ { s with eng := e } w i f hf⟩

theorem countStatus_eq (t : Nat) (st : CmpStatus) (s : State) : countStatus t st s = { s with regs := (countStatus t st s).regs } := by
  cases st <;> rfl

/-- From `s` to `t` nothing changed but what a discarded job touches. -/
def OnlyDiscarded (s t : State) : Prop :=
  t = { s with mem := t.mem, regs := t.regs, outs := t.outs, fresh := t.fresh, eng := t.eng }

theorem OnlyDiscarded.trans {s t u : State} (h : OnlyDiscarded s t) (k : OnlyDiscarded t u) : OnlyDiscarded s u :=
  Eq.trans k (congrArg (fun x : State =>
    { x with mem := u.mem, regs := u.regs, outs := u.outs, fresh := u.fresh, eng := u.eng }) h)

theorem onlyDiscarded_countStatus (t : Nat) (st : CmpStatus) (s : State) : OnlyDiscarded s (countStatus t st s) := by
  rw [countStatus_eq]
  rfl

theorem onlyDiscarded_emit (o : Out) (s : State) : OnlyDiscarded s (emit o s) := rfl

/-- A discarded job writes its whole buffer, at most. -/
theorem discardOutput_single (h : Nat) (s : State) : ∃ b : Bytes, b.length ≤ poolSize (hPool h) ∧
    discardOutput [h] s = { s with mem := writeBytes (bufAddr s h) b s.mem, fresh := s.fresh + 1 } :=
  ⟨_, List.length_take_le _ _, rfl⟩

/-- The state that a plain job that fails leaves, on engines `e` and with bytes `b` in its buffer. -/
def jobDiscarded (op : CmpOp) (tile : Nat) (j : CmpJob) (fl : Nat) (e : Engines) (b : Bytes) (s : State) : State :=
  let r := wholeRun op j s
  emit (.cmpDone tile j.client r.status fl r.trailing r.out.length r.crc r.used) (countStatus tile r.status
    { jobCounted tile r { s with eng := e } with mem := writeBytes (bufAddr s j.outHandle) b s.mem, fresh := s.fresh + 1 })

/-- A plain job that fails: its buffer's content is discarded, and its completion is sent. -/
theorem cmpJob_plain_bad (hp : PlainJob op tile j s) (hbad : (wholeRun op j s).status ≠ .ok) :
    ∃ fl e b, OnlyEngine tile op.pipe s { s with eng := e } ∧ b.length ≤ poolSize (hPool j.outHandle) ∧
      cmpJob tile op j true s = jobDiscarded op tile j fl e b s := by
  obtain ⟨hen, -, -, -, -, -, -, -, -, -, -, -, hfree⟩ := id hp
  obtain ⟨e, heng, hjob⟩ := cmpJob_of_taken hen hfree (takeJob_plain hp) (eng_finishJob tile (wholeStream op j))
  obtain ⟨fl, hfin⟩ := finishJob_plain hp e
  obtain ⟨b, hlen, hdisc⟩ := discardOutput_single j.outHandle (jobCounted tile (wholeRun op j s) { s with eng := e })
  refine ⟨fl, e, b, heng, hlen, ?_⟩
  rw [hjob, hfin, if_neg (by simpa using hbad), hdisc, bufAddr_jobCounted]
  rfl

/-- What O11 says of a plain job that fails. -/
theorem jobDiscarded_spec (hm : MemoryOk s) {fl : Nat} {e : Engines} {b : Bytes} (heng : OnlyEngine tile op.pipe s { s with eng := e })
    (hlen : b.length ≤ poolSize (hPool j.outHandle)) :
    let r := wholeRun op j s
    let t := jobDiscarded op tile j fl e b s
    t = { s with mem := t.mem, regs := t.regs, outs := t.outs, fresh := t.fresh, eng := t.eng } ∧ OnlyEngine tile op.pipe s t ∧
      OnlyBytes (bufAddr s j.outHandle) (poolSize (hPool j.outHandle)) s t ∧
      Sends [.cmpDone tile j.client r.status fl r.trailing r.out.length r.crc r.used] s t := by
  intro r t
  have ht : t = _ := congrArg (emit (.cmpDone tile j.client r.status fl r.trailing r.out.length r.crc r.used))
    (countStatus_eq tile r.status _)
  have heng' : t.eng = e := congrArg State.eng ht
  refine ⟨?_, ?_, onlyBytes_writeBytes hm (congrArg State.mem ht) hlen, congrArg State.outs ht⟩
  · exact ((OnlyDiscarded.trans (t := { jobCounted tile r { s with eng := e } with
        mem := writeBytes (bufAddr s j.outHandle) b s.mem, fresh := s.fresh + 1 }) rfl
      (onlyDiscarded_countStatus tile r.status _)).trans (onlyDiscarded_emit _ _))
  · have hframe : OnlyEngine tile op.pipe s { s with eng := t.eng } := by rw [heng']; exact heng
    exact hframe

end plain

/-! ### The statuses of whole streams (R342 to R346) -/

section statuses
variable {tile : Nat} {j : CmpJob} {s : State}

theorem wholeRun_compress (j : CmpJob) (s : State) :
    let b := readBytes s.mem (bufAddr s j.inHandle) j.inLen
    let z := (deflated j [] b).1
    let r := wholeRun .compress j s
    r.status = (if z.length ≤ min j.outMax (poolSize (hPool j.outHandle)) then .ok else if j.client = 0 then .noGain else .outFull) ∧
      r.out = (if r.status == .ok then z else []) ∧ r.trailing = 0 ∧ r.crc = crc32c b ∧ r.used = j.inLen := by
  refine ⟨?_, rfl, rfl, rfl, length_readBytes _ _ _⟩
  simp only [wholeRun, runOp, runCompress, Option.map_none, Option.getD_none, beq_iff_eq]

theorem wholeRun_decompress (hlast : jLast j = true)
    (hended : (inflate (min j.outMax (poolSize (hPool j.outHandle))) (readBytes s.mem (bufAddr s j.inHandle) j.inLen)).state = .ended) :
    let d := (inflate (min j.outMax (poolSize (hPool j.outHandle))) (readBytes s.mem (bufAddr s j.inHandle) j.inLen)).out.reverse
    let r := wholeRun .decompress j s
    r.status = (if crc32c d ≠ j.expCrc then .crcFail else if j.expLen ≠ 0 ∧ j.expLen ≠ d.length then .lenMismatch else .ok) ∧
      r.out = (if r.status == .ok then d else []) ∧ r.crc = crc32c d := by
  refine ⟨?_, ?_, ?_⟩
  all_goals simp only [wholeRun, runOp, runDecompress, Option.map_none, Option.getD_none, Nat.zero_add, List.nil_append, List.drop_zero]
  simp [hended, hlast]

theorem wholeRun_crcOnly (hlast : jLast j = true) (hroom : j.inLen ≤ min j.outMax (poolSize (hPool j.outHandle)))
    (hcrc : crc32c (readBytes s.mem (bufAddr s j.inHandle) j.inLen) = j.expCrc) :
    wholeRun .crcOnly j s = { status := .ok, out := readBytes s.mem (bufAddr s j.inHandle) j.inLen, flags := 0, trailing := 0,
                              crc := j.expCrc, used := j.inLen, slot := none } := by
  simp [wholeRun, runOp, runCrcOnly, length_readBytes, hroom.not_gt, hlast, hcrc]

end statuses

/-! ### Refusals (R344, R346) -/

/-- The statuses of a job that is refused before it reads. -/
def isRefusal (st : CmpStatus) : Prop := st = .badJob ∨ st = .badHandle ∨ st = .busy

theorem endEarly_spec {tile : Nat} {op : CmpOp} {j : CmpJob} {st : CmpStatus} (hst : isRefusal st) (s : State) :
    let t := endEarly tile op j st s
    t.mem = s.mem ∧ t.eng = s.eng ∧ Sends [.cmpDone tile j.client st 0 0 0 0 0] s t ∧
      OnlyFields [(tile, 0, .cmp_errors_refusals)] s t ∧ (st = .busy → t.cmpSlots = s.cmpSlots) := by
  have hcount : ∀ u : State, countStatus tile st u = bump tile .cmp_errors_refusals u := by
    obtain rfl | rfl | rfl := hst <;> exact fun _ => rfl
  have hend : ∀ u : State, u.regs = s.regs → OnlyFields [(tile, 0, .cmp_errors_refusals)] s
      (emit (.cmpDone tile j.client st 0 0 0 0 0) (bump tile .cmp_errors_refusals u)) := by
    intro u hu
    refine ⟨?_, fun w i f hf => ?_⟩
    · simp [hu]
    · have hne : ¬(w = tile ∧ i = 0 ∧ f = .cmp_errors_refusals) := by simpa using hf
      rw [fld_emit, bump, addT, fld_addFld, if_neg hne, fld_of_regs hu]
  unfold endEarly
  dsimp only
  rw [hcount]
  refine iteInduction (motive := fun u : State => (emit _ (bump tile .cmp_errors_refusals u)).mem = s.mem ∧
    (emit _ (bump tile .cmp_errors_refusals u)).eng = s.eng ∧ Sends _ s (emit _ (bump tile .cmp_errors_refusals u)) ∧
    OnlyFields _ s (emit _ (bump tile .cmp_errors_refusals u)) ∧
    (st = .busy → (emit _ (bump tile .cmp_errors_refusals u)).cmpSlots = s.cmpSlots)) (fun hown => ?_) fun _ => ?_
  · refine ⟨rfl, rfl, rfl, hend _ rfl, fun hbusy => ?_⟩
    subst hbusy
    simp at hown
  · exact ⟨rfl, rfl, rfl, hend _ rfl, fun _ => rfl⟩

/-- What O11 says of a job that is refused. -/
theorem cmpJob_refused {tile : Nat} {op : CmpOp} {j : CmpJob} {st : CmpStatus} {s : State} (hst : isRefusal st)
    (hen : s.tfld tile .cmp_cfg_cmp_enable = 1) (hfree : EngineFree tile op.pipe s)
    (href : ∀ e, takeJob tile op j { s with eng := e } = (endEarly tile op j st { s with eng := e }, none)) :
    let t := cmpJob tile op j true s
    t.mem = s.mem ∧ t.eng.reqs = s.eng.reqs ∧ Sends [.cmpDone tile j.client st 0 0 0 0 0] s t ∧
      OnlyFields [(tile, 0, .cmp_errors_refusals)] s t ∧ (st = .busy → t.cmpSlots = s.cmpSlots) := by
  obtain ⟨e, htook, heq⟩ := cmpJob_of_refused hen hfree href
  obtain ⟨hmem, heng, hsent, hfields, hslots⟩ := endEarly_spec (tile := tile) (op := op) (j := j) hst { s with eng := e }
  intro t
  have ht : t = _ := heq
  rw [ht]
  exact ⟨hmem, (congrArg (·.reqs) heng).trans htook.reqs, hsent, hfields, hslots⟩

theorem takeJob_of_range {tile : Nat} {op : CmpOp} {j : CmpJob} (h : jobInRange op j = false) (s : State) :
    takeJob tile op j s = (endEarly tile op j .badJob s, none) := by
  simp [takeJob, h]

theorem takeJob_of_handle {tile : Nat} {op : CmpOp} {j : CmpJob} {s : State} (hrange : jobInRange op j = true)
    (hbad : handleGood s tile j.inHandle = false) : takeJob tile op j s = (endEarly tile op j .badHandle s, none) := by
  simp [takeJob, hrange, jobBuffers, buffersOf, hbad]

/-- A stream that begins while every slot is taken is refused BUSY. -/
theorem takeJob_of_slots {tile : Nat} {op : CmpOp} {j : CmpJob} {s : State} (hrange : jobInRange op j = true) (hslot : j.slot = 0xFF)
    (hfirst : jFirst j = true) (hlast : jLast j = false) (hin4 : bitOf j.flags 4 = false) (hout5 : bitOf j.flags 5 = false)
    (hgin : handleGood s tile j.inHandle = true) (hgout : handleGood s tile j.outHandle = true)
    (hfull : ∀ k, k < 8 → findSlot s tile k ≠ none) : takeJob tile op j s = (endEarly tile op j .busy s, none) := by
  have hgood : ∀ h : Nat, handleGood s tile h = true → ∀ k n, (needed [h] k n).all (handleGood s tile) = true := by
    intro h hh k n
    cases k with
    | zero => cases n <;> rfl
    | succ k =>
      cases n with
      | zero => rfl
      | succ n => simp [needed, needed_nil, hh]
  have hbufs : ∃ x, jobBuffers s tile j = some x := by
    refine ⟨(needed [j.inHandle] 64 j.inLen, needed [j.outHandle] 64 j.outMax), ?_⟩
    simp only [jobBuffers, hin4, hout5, buffersOf, hgin, hgout, Bool.not_true, Bool.false_eq_true, if_false, Bool.not_false, if_true,
      List.all_append, hgood _ hgin, hgood _ hgout, Bool.and_self]
  obtain ⟨x, hx⟩ := hbufs
  have hnone : (List.range 8).find? (fun k => (findSlot s tile k).isNone) = none := by
    simp only [List.find?_eq_none, List.mem_range]
    exact fun k hk hnone => hfull k hk (Option.isNone_iff_eq_none.1 hnone)
  have hbusy : slotFor s tile op j = .error .busy := by
    simp only [slotFor, hslot, beq_self_eq_true, if_true, hfirst, hlast, Bool.and_false, Bool.false_eq_true, if_false, hnone]
  simp only [takeJob, hrange, hx, hbusy, Bool.not_true, Bool.false_eq_true, if_false]

/-! ### Stream slots and the enable (R344, R348) -/

theorem findSlot_freeSlot (t k : Nat) (s : State) (a n : Nat) :
    findSlot (freeSlot t k s) a n = if a = t ∧ n = k then none else findSlot s a n :=
  find?_dropKeyed CmpSlot.tile CmpSlot.slot s.cmpSlots t k a n

theorem cmpEnable_eq {tile value : Nat} (s : State) (hbit : bitOf value 0 = true) : cmpEnable tile value s =
    writeEnable tile .cmpCfg .cmp_cfg_cmp_enable value
      (fun s => if outOfRange s tile .cmpCfg then some 2 else none) (setT tile .cmp_status_cfg_err 1) id s :=
  if_neg (by simp [hbit])

/-- Settles O11: a free pipe works off the one job submitted, and a whole stream's status follows from what its pipe makes of it. -/
theorem compressionJobs : Obligations.CompressionJobs := by
  unfold Obligations.CompressionJobs
  refine ⟨fun tile j s hp => ?_, fun tile j s hp => ?_, fun tile j s hp => ?_, fun tile j s hp => ?_,
    fun tile j s hen hfreeC hfreeD => ⟨fun hrange => ?_, fun hrange hbad => ?_,
      fun hrange hslot hfirst hlast hin4 hout5 hgin hgout hfull => ?_⟩,
    fun tile slot x s hfind hruns hold => ?_, fun tile value s htile hopen hbit hoff => ?_⟩
  case refine_1 =>
    intro b z a
    obtain ⟨hst, hout, htrail, hcrc, hused⟩ := wholeRun_compress j s
    have hm : MemoryOk s := by obtain ⟨-, -, -, -, -, -, -, -, -, -, -, hm, -⟩ := hp; exact hm
    by_cases hfit : z.length ≤ min j.outMax (poolSize (hPool j.outHandle))
    · rw [if_pos hfit] at hst
      rw [hst] at hout
      replace hout : (wholeRun .compress j s).out = z := hout
      obtain ⟨fl, e, heng, hrun⟩ := cmpJob_plain_ok hp hst (by rw [hout]; omega)
      refine ⟨_, congrArg Host.Outcome.next hrun, ?_⟩
      obtain ⟨hframe, honly, hread, hbytes, hsent, hin, houts, hfields⟩ := jobStored_spec (j := j) hm (fl := fl) heng
      rw [if_pos hfit]
      rw [hout] at hread hbytes hsent houts
      rw [htrail, hcrc, hused] at hsent
      rw [hused] at hin
      exact ⟨hframe, honly, hread, hbytes, ⟨fl, hsent⟩, hin, houts, hfields⟩
    · rw [if_neg hfit] at hst
      have hbad : (wholeRun .compress j s).status ≠ .ok := by rw [hst]; split <;> simp
      rw [if_neg (by simpa using hbad)] at hout
      obtain ⟨fl, e, bs, heng, hlen, hrun⟩ := cmpJob_plain_bad hp hbad
      refine ⟨_, congrArg Host.Outcome.next hrun, ?_⟩
      obtain ⟨hframe, honly, hbytes, hsent⟩ := jobDiscarded_spec (j := j) hm (fl := fl) heng hlen
      rw [if_neg hfit]
      rw [hout, htrail, hcrc, hused, hst] at hsent
      exact ⟨hframe, honly, hbytes, fl, hsent⟩
  case refine_2 =>
    intro b x d a hended hcrc hexp hfit
    obtain ⟨-, -, -, -, hlast, -, -, -, -, -, -, hm, -⟩ := id hp
    obtain ⟨hst, hout, hrcrc⟩ := wholeRun_decompress hlast hended
    have hlenOk : ¬(j.expLen ≠ 0 ∧ j.expLen ≠ d.length) := by omega
    rw [if_neg (not_not.2 hcrc), if_neg hlenOk] at hst
    rw [hst] at hout
    replace hout : (wholeRun .decompress j s).out = d := hout
    obtain ⟨fl, e, heng, hrun⟩ := cmpJob_plain_ok hp hst (by rw [hout]; exact hfit)
    refine ⟨_, congrArg Host.Outcome.next hrun, ?_⟩
    obtain ⟨hframe, honly, hread, hbytes, hsent, -, -, hfields⟩ := jobStored_spec (j := j) hm (fl := fl) heng
    rw [hout] at hread hbytes hsent
    rw [hrcrc.trans hcrc] at hsent
    exact ⟨hframe, honly, hread, hbytes, ⟨fl, _, _, hsent⟩, hfields⟩
  case refine_3 =>
    intro b x hended hcrc
    obtain ⟨-, -, -, -, hlast, -, -, -, -, -, -, hm, -⟩ := id hp
    obtain ⟨hst, hout, -⟩ := wholeRun_decompress hlast hended
    rw [if_pos hcrc] at hst
    rw [hst] at hout
    replace hout : (wholeRun .decompress j s).out = [] := hout
    obtain ⟨fl, e, bs, heng, hlen, hrun⟩ := cmpJob_plain_bad hp (by rw [hst]; simp)
    refine ⟨_, congrArg Host.Outcome.next hrun, ?_⟩
    obtain ⟨hframe, honly, hbytes, hsent⟩ := jobDiscarded_spec (j := j) hm (fl := fl) heng hlen
    rw [hout, hst] at hsent
    exact ⟨hframe, honly, hbytes, fl, _, _, _, hsent⟩
  case refine_4 =>
    intro b a hroom hcrc
    obtain ⟨-, -, -, -, hlast, -, -, -, -, -, -, hm, -⟩ := id hp
    have hr := wholeRun_crcOnly hlast hroom hcrc
    have hlen : b.length = j.inLen := length_readBytes _ _ _
    obtain ⟨fl, e, heng, hrun⟩ := cmpJob_plain_ok hp (by rw [hr]) (by rw [hr]; exact hlen.trans_le (by omega))
    refine ⟨_, congrArg Host.Outcome.next hrun, ?_⟩
    obtain ⟨hframe, honly, hread, hbytes, hsent, -, -, hfields⟩ := jobStored_spec (j := j) hm (fl := fl) heng
    rw [hr] at hread hbytes hsent
    rw [hlen] at hread hbytes hsent
    exact ⟨hframe, honly, hread, hbytes, ⟨fl, hsent⟩, hfields⟩
  case refine_5 =>
    obtain ⟨hmem, hreqs, hsent, hfields, -⟩ := cmpJob_refused (op := .compress) (.inl rfl) hen hfreeC fun e => takeJob_of_range hrange _
    exact ⟨_, rfl, hmem, hreqs, hsent, hfields⟩
  case refine_6 =>
    obtain ⟨hmem, hreqs, hsent, hfields, -⟩ := cmpJob_refused (op := .decompress) (.inr (.inl rfl)) hen hfreeD fun e => takeJob_of_handle hrange hbad
    exact ⟨_, rfl, hmem, hreqs, hsent, hfields⟩
  case refine_7 =>
    obtain ⟨hmem, hreqs, hsent, hfields, hslots⟩ := cmpJob_refused (op := .crcOnly) (.inr (.inr rfl)) hen hfreeD fun e =>
      takeJob_of_slots (s := { s with eng := e }) hrange hslot hfirst hlast hin4 hout5 hgin hgout hfull
    exact ⟨_, rfl, hmem, hslots rfl, hreqs, hsent, hfields⟩
  case refine_8 =>
    refine ⟨logEv .cmpSlotExpired tile [x.client] (freeSlot tile slot s), ?_, rfl, ?_, fun a k hak => ?_, rfl⟩
    · show execStreamSlotTimeout tile slot s = _
      simp [execStreamSlotTimeout, hfind, hruns, hold.not_gt]
    · exact (findSlot_freeSlot _ _ _ _ _).trans (if_pos ⟨rfl, rfl⟩)
    · exact (findSlot_freeSlot _ _ _ _ _).trans (if_neg hak)
  case refine_9 =>
    intro s0
    have hwrite := (tileWrite_of_open (f := cmpEnable tile value) htile hopen).trans (cmpEnable_eq s hbit)
    refine ⟨fun hbpm hrange => ?_, fun hbpm => ?_⟩
    · exact ⟨_, congrArg Host.Outcome.next (hwrite.trans (writeEnable_of_ok hbit hoff (by simpa [orderHolds] using hbpm)
        (if_neg (by simpa using hrange)))), rfl⟩
    · have hrej := writeEnable_of_order (check := fun s => if outOfRange s tile .cmpCfg then some 2 else none)
        (onFail := setT tile .cmp_status_cfg_err 1) (start := id) hbit hoff
        (show orderHolds (writeCfg tile .cmpCfg (value - 1) s) tile .cmp_cfg_cmp_enable = false by simpa [orderHolds] using hbpm)
      rw [winTile_of_regOpen htile hopen] at hrej
      exact ⟨_, congrArg Host.Outcome.next (hwrite.trans hrej), rfl⟩

end Sys2Proof.Machine
end

section
/-!
PROOFS. When an admin command runs (R53, R97, R100, R443): an equation for each way that `runAdmin` goes.
-/
namespace Sys2Proof.Machine
open Sys2Proof

section runs
variable {k : AdminKind} {a : Adm} {i : Instr} {f : State → State} {s : State}

theorem runAdmin_of_not_waits (h : admWaits s a = false) : runAdmin k a i f s = passTurn a s := by
  simp [runAdmin, h]

theorem runAdmin_of_activating (hw : admWaits s a = true) (hact : s.fw.activating = true) (hk : k ≠ .atOnce) :
    runAdmin k a i f s = holdAdmin a i s := by
  simp [runAdmin, hw, hact, hk]

theorem runAdmin_of_not_provider (hw : admWaits s a = true) (hact : s.fw.activating = false ∨ k = .atOnce)
    (hplane : k.onPlane = true) (hprov : admProvider s a = false) :
    runAdmin k a i f s = passTurn a (admDone a .invalidOpcode 0 s) := by
  have hgo : (s.fw.activating && k != .atOnce) = false := by obtain h | h := hact <;> simp [h]
  simp [runAdmin, hw, hgo, hplane, hprov]

theorem runAdmin_of_planeBusy (hw : admWaits s a = true) (hact : s.fw.activating = false) (hplane : k.onPlane = true)
    (hprov : admProvider s a = true) (hbusy : planeBusy s a = true) : runAdmin k a i f s = holdAdmin a i s := by
  simp [runAdmin, hw, hact, hplane, hprov, hbusy]

theorem runAdmin_of_flash_failed (hw : admWaits s a = true) (hact : s.fw.activating = false) (hprov : admProvider s a = true)
    (hfree : planeBusy s a = false) (hfail : s.fw.flash.failed = true) :
    runAdmin .registry a i f s = passTurn a (admDone a .internalError 0 s) := by
  simp [runAdmin, hw, hact, hprov, hfree, hfail]

/-- A command that runs has its effect, and the registry's stores follow a registry command (R97). -/
theorem runAdmin_of_runs (h : AdmRuns k a s) :
    runAdmin k a i f s = passTurn a (if k = .registry then syncStores (f s) else f s) := by
  obtain ⟨hw, hact, hplane, hflash⟩ := h
  have hgo : (s.fw.activating && k != .atOnce) = false := by
    by_cases hk : k = .atOnce
    · simp [hk]
    · simp [hact hk]
  have hprov : (k.onPlane && !admProvider s a) = false := by
    by_cases hk : k.onPlane = true
    · simp [(hplane hk).1]
    · simp [hk]
  have hfree : (k.onPlane && planeBusy s a) = false := by
    by_cases hk : k.onPlane = true
    · simp [(hplane hk).2]
    · simp [hk]
  have hok : (k == .registry && s.fw.flash.failed) = false := by
    by_cases hk : k = .registry
    · simp [hflash hk]
    · simp [hk]
  simp only [runAdmin, hw, Bool.not_true, Bool.false_eq_true, if_false, hgo, hprov, hfree, hok, beq_iff_eq]

theorem runAdmin_registry (h : AdmRuns .registry a s) : runAdmin .registry a i f s = passTurn a (syncStores (f s)) :=
  runAdmin_of_runs h

theorem runAdmin_plain (h : AdmRuns k a s) (hk : k ≠ .registry) : runAdmin k a i f s = passTurn a (f s) :=
  (runAdmin_of_runs h).trans (by rw [if_neg hk])

end runs

end Sys2Proof.Machine
end

section
/-!
PROOFS. The encryption engine and its key slots (R353 to R361, R368): a free engine serves the one job submitted.
-/
namespace Sys2Proof.Machine
open Sys2Proof

/-! ### Jobs (R358 to R360) -/

/-- The work of a cipher job. -/
def cipherWork (dec : Bool) (j : CryJob) (f : Option Nat) : EngWork := .cry dec j f

/-- A job submitted to a free engine with a lane up is run on a state that differs in the engines alone. -/
theorem cipherJob_eq {dec : Bool} {tile : Nat} {j : CryJob} {f : Option Nat} {s : State} (hen : s.tfld tile .cry_cfg_cry_enable = 1)
    (hlanes : lanesUp s tile ≠ 0) (hfree : EngineFree tile .cipher s) :
    ∃ e, OnlyEngine tile .cipher s { s with eng := e } ∧
      cipherJob dec tile j f true s = cryJob dec tile j f { s with eng := e } := by
  obtain ⟨cr, htake⟩ := takeReq_submit (c := PClass.ofCode j.cls) (w := cipherWork dec j f) (may := fun _ => true) hfree.1 rfl
  have htook := tookOne_reqTaken (c := PClass.ofCode j.cls) (w := cipherWork dec j f) cr hfree.1
  have honly := onlyEngine_of_tookOne htook ⟨reqsAt_of_tookOne htook hfree.1, hfree.2⟩
  refine ⟨(reqTaken tile .cipher (PClass.ofCode j.cls) (cipherWork dec j f) cr s).eng, ?_, ?_⟩
  · rw [← htook.frame]
    exact honly
  rw [← htook.frame]
  have hlen : (reqsAt (submit tile .cipher (PClass.ofCode j.cls) (cipherWork dec j f) s) tile .cipher).length = 1 :=
    congrArg List.length (reqsAt_submit hfree.1)
  have hgo : cipherJob dec tile j f true s = serveCipher tile
      (reqsAt (submit tile .cipher (PClass.ofCode j.cls) (cipherWork dec j f) s) tile .cipher).length
      (submit tile .cipher (PClass.ofCode j.cls) (cipherWork dec j f) s) := if_neg (by simp [hen, hlanes])
  rw [hgo, hlen, serveCipher, htake]
  rfl

/-- The units that a job makes of its input with a slot's keys (R358). -/
def cipherOut (dec : Bool) (j : CryJob) (k : KeySlot) (s : State) : Bytes :=
  xtsUnits (!dec) k.key1 k.key2 j.writeSeq j.nsid (ceilDiv j.length 4096) j.unit0 (readBytes s.mem (bufAddr s j.inHandle) j.length)

/-- A job that is not refused stores the units of its input, counts them and reports OK. -/
theorem cryJob_of_ok {dec : Bool} {tile : Nat} {j : CryJob} {k : KeySlot} {s : State} (hen : s.tfld tile .cry_cfg_cry_enable = 1)
    (hlanes : lanesUp s tile ≠ 0) (href : cryRefusal s tile dec j = none) (hkey : findKey s tile j.slot = some k) (e : Engines) :
    cryJob dec tile j none { s with eng := e } = emit (.cryDone tile .ok (slotGen s (j.slot + 1)) j.length)
      (addT tile .cry_units_count (ceilDiv j.length 4096)
        { s with eng := e, mem := writeBytes (bufAddr s j.outHandle) (cipherOut dec j k s) s.mem }) := by
  have hgo : ¬(s.tfld tile .cry_cfg_cry_enable != 1 || lanesUp s tile == 0) = true := by simp [hen, hlanes]
  have href' : cryRefusal { s with eng := e } tile dec j = none := href
  have hkey' : findKey { s with eng := e } tile j.slot = some k := hkey
  unfold cryJob
  refine (if_neg hgo).trans ?_
  simp only [href', Option.filter_none, hkey']
  rfl

/-- A job that is refused moves nothing and reports why. -/
theorem cryJob_of_refused {dec : Bool} {tile : Nat} {j : CryJob} {st : CryStatus} {f : Option Nat} {s : State}
    (hen : s.tfld tile .cry_cfg_cry_enable = 1) (hlanes : lanesUp s tile ≠ 0) (href : cryRefusal s tile dec j = some st) (e : Engines) :
    cryJob dec tile j f { s with eng := e } = emit (.cryDone tile st (slotGen s (j.slot + 1)) 0)
      (if st == .keyAbsent || st == .keyStale then bump tile .cry_errors_stale_jobs { s with eng := e } else { s with eng := e }) := by
  have hgo : ¬(s.tfld tile .cry_cfg_cry_enable != 1 || lanesUp s tile == 0) = true := by simp [hen, hlanes]
  have href' : cryRefusal { s with eng := e } tile dec j = some st := href
  unfold cryJob
  refine (if_neg hgo).trans ?_
  simp only [href']
  rfl

/-- A lane fault ends the job and takes the lane out. -/
theorem cryJob_of_lane {dec : Bool} {tile k : Nat} {j : CryJob} {s : State} (hen : s.tfld tile .cry_cfg_cry_enable = 1)
    (hlanes : lanesUp s tile ≠ 0) (href : cryRefusal s tile dec j = none) (hk : k < 4) (hbit : bitOf (lanesUp s tile) k = true)
    (e : Engines) : cryJob dec tile j (some k) { s with eng := e } = emit (.cryDone tile .truncated (slotGen s (j.slot + 1)) 0)
      (logEv .cryLaneFault tile [k] (setT tile .cry_status_lanes_up (setBit (lanesUp s tile) k false) { s with eng := e })) := by
  have hgo : ¬(s.tfld tile .cry_cfg_cry_enable != 1 || lanesUp s tile == 0) = true := by simp [hen, hlanes]
  have href' : cryRefusal { s with eng := e } tile dec j = none := href
  have hlane : (some k).filter (fun k => decide (k < 4) && bitOf (lanesUp { s with eng := e } tile) k) = some k := by
    have hbit' : bitOf (lanesUp { s with eng := e } tile) k = true := hbit
    simp [Option.filter, hk, hbit']
  unfold cryJob
  refine (if_neg hgo).trans ?_
  simp only [href', hlane]
  rfl

/-- A bit that is cleared reads 0. -/
theorem bitOf_setBit_false (w i : Nat) : bitOf (setBit w i false) i = false := by
  unfold setBit
  by_cases h : bitOf w i = true
  · rw [if_pos h, if_neg (by simp)]
    have hbit : w / 2 ^ i % 2 = 1 := by simpa [bitOf] using h
    have hpos : 0 < 2 ^ i := Nat.two_pow_pos i
    have hsub : (w - 2 ^ i) / 2 ^ i = w / 2 ^ i - 1 := by
      rw [← Nat.sub_mul_div w (2 ^ i) 1, Nat.mul_one]
    simp only [bitOf, hsub, beq_eq_false_iff_ne]
    omega
  · rw [if_neg h, if_neg (by simp)]
    simpa using h

/-! ### Key slots (R355, R357) -/

theorem findKey_putKey (k : KeySlot) (s : State) (a n : Nat) :
    findKey (putKey k s) a n = if a = k.tile ∧ n = k.slot then some k else findKey s a n :=
  find?_putKeyed KeySlot.tile KeySlot.slot s.cry.slots k a n

/-- The read-back of one tile's slot. -/
def readBack (n : Nat) (s : State) (x : Bool × Nat) : State :=
  match findKey s x.2 (n - 1) with
  | some k =>
    if k.loaded || x.1 then s
    else logEv .cryZeroiseFail x.2 [n - 1] (putKey { k with zeroiseFail := true } s)
  | none => s

theorem keySlotClear_eq (n : Nat) (l : List Bool) (s : State) : keySlotClear n l s = l.zipIdx.foldl (readBack n) s := rfl

theorem readBack_true (n t : Nat) (s : State) : readBack n s (true, t) = s := by
  unfold readBack
  split
  case h_1 => exact if_pos (Bool.or_true _)
  case h_2 => rfl

/-- Slots that read back as zero are left as they are. -/
theorem foldl_readBack_true (n : Nat) : ∀ (l : List Bool) (i : Nat) (s : State), (∀ b ∈ l, b = true) →
    (l.zipIdx i).foldl (readBack n) s = s
  | [], _, _, _ => rfl
  | b :: l, i, s, h => by
    obtain ⟨rfl, hl⟩ := List.forall_mem_cons.1 h
    rw [List.zipIdx_cons, List.foldl_cons, readBack_true, foldl_readBack_true n l (i + 1) s hl]

theorem keySlotClear_of_fail {n tile : Nat} {k : KeySlot} {s : State} (hkey : findKey s tile (n - 1) = some k) (hk : k.loaded = false) :
    keySlotClear n (List.replicate tile true ++ [false]) s = logEv .cryZeroiseFail tile [n - 1] (putKey { k with zeroiseFail := true } s) := by
  rw [keySlotClear_eq, List.zipIdx_append, List.foldl_append,
    foldl_readBack_true n _ 0 s fun b hb => List.eq_of_mem_replicate hb]
  simp [readBack, hkey, hk]

theorem key_of_findKey {s : State} {a n : Nat} {k : KeySlot} (h : findKey s a n = some k) : k.tile = a ∧ k.slot = n := by
  simpa using List.find?_some h

/-! ### Key Load (R113, R355) -/

section load
variable {a : Adm} {n : Nat} {w : Bytes} {x : Ns} {s : State}
  (hns : s.reg.nss.find? (fun y => y.nsid == n && y.state != .deleting) = some x) (hstate : x.state = .keyPending) (hlen : w.length = 72)
include hns hstate hlen

/-- Key Load of material that passes, with other tiles in service: they have still to confirm. -/
theorem keyLoad_of_material {k : Bytes × Bytes} (hkey : keyMaterial s w = some k)
    (hrest : (upTiles s).filter (fun t => t != s.mgmt.primary) ≠ []) :
    keyLoad a n w s = admPark a { loadKey s.mgmt.primary n k s with
      prov := some { adm := a, kind := .keyLoad n w ((upTiles s).filter fun t => t != s.mgmt.primary) } } := by
  have hne : ((upTiles s).filter fun t => t != s.mgmt.primary).isEmpty = false := by simpa using hrest
  simp only [keyLoad, hns, hlen, hstate, bne_self_eq_false, Bool.false_eq_true, if_false, hkey, hne]

/-- Key Load of material that fails its checks on the primary. -/
theorem keyLoad_of_reject (hkey : keyMaterial s w = none) : keyLoad a n w s = admDone a .invalidField 0
    (logEv .keyReject s.mgmt.primary [n, keyFault s w] (bump s.mgmt.primary .cry_errors_unwrap_fail s)) := by
  simp only [keyLoad, hns, hlen, hstate, bne_self_eq_false, Bool.false_eq_true, if_false, hkey]

end load

/-- The last tile in service that Key Load waits for confirms. -/
theorem keyConfirm_last {a : Adm} {n tile : Nat} {w : Bytes} {ts : List Nat} {k : Bytes × Bytes} {s : State}
    (hprov : s.prov = some { adm := a, kind := .keyLoad n w ts }) (hmem : tile ∈ ts) (hup : tileUp s tile = true)
    (hlast : ∀ t ∈ ts, t ≠ tile → tileUp s t = false) (hkey : keyMaterial s w = some k) :
    keyConfirm n tile true s = provEnd (keyReady a n w (loadKey tile n k s)) := by
  have hleft : (ts.filter fun x => x != tile && tileUp s x) = [] := by
    simp only [List.filter_eq_nil_iff, Bool.and_eq_true, bne_iff_ne, not_and, Bool.not_eq_true]
    exact hlast
  simp [keyConfirm, hprov, hmem, hup, hkey, hleft]

/-- A tile in service that Key Load waits for rejects the key. -/
theorem keyConfirm_reject {a : Adm} {n tile : Nat} {w : Bytes} {ts : List Nat} {s : State}
    (hprov : s.prov = some { adm := a, kind := .keyLoad n w ts }) (hmem : tile ∈ ts) (hup : tileUp s tile = true) :
    keyConfirm n tile false s = provEnd (admDone a .internalError 0
      (logEv .keyReject tile [n, 2] (dropKey n (bump tile .cry_errors_unwrap_fail s)))) := by
  simp [keyConfirm, hprov, hmem, hup]

/-- Settles O12: a free engine serves the one job submitted, and each command's outcome is an equation of its own. -/
theorem keysAndCipherJobs : Obligations.KeysAndCipherJobs := by
  unfold Obligations.KeysAndCipherJobs
  refine ⟨fun tile j k dec s hen hlanes href hkey hm hfree => ?_, fun tile j dec st f s hen hlanes href hfree => ?_,
    fun tile k j dec s hen href hk hbit hfree => ?_, fun nsid tile k s hkey hk => ?_,
    fun nsid l s hall => ⟨_, rfl, foldl_readBack_true nsid l 0 s hall⟩,
    fun tile value failed s htile hopen hbit hoff => ⟨fun hfail horder => ?_, fun hpass horder => ?_⟩,
    fun a nsid w x s hruns hns hstate hlen hrest => ?_, fun a nsid tile w ts s hprov hmem hup hlast => ?_,
    fun a nsid tile w ts s hprov hmem hup => ⟨_, rfl, keyConfirm_reject hprov hmem hup⟩⟩
  case refine_1 =>
    obtain ⟨e, honly, hjob⟩ := cipherJob_eq (dec := dec) (j := j) (f := none) hen hlanes hfree
    have hend := hjob.trans (cryJob_of_ok hen hlanes href hkey e)
    refine ⟨cipherJob dec tile j none true s, by cases dec <;> rfl, ?_⟩
    rw [hend]
    refine ⟨rfl, honly, readBytes_writeBytes hm _ _, onlyBytes_writeBytes hm rfl le_rfl, rfl, ?_, rfl, fun w i f hf => ?_⟩
    · exact (fld_addFld _ _ _ _ _ _ _ _).trans (if_pos ⟨rfl, rfl, rfl⟩)
    · exact (fld_addFld _ _ _ _ _ _ _ _).trans (if_neg (by simpa using hf))
  case refine_2 =>
    obtain ⟨e, honly, hjob⟩ := cipherJob_eq (dec := dec) (j := j) (f := f) hen hlanes hfree
    have hend := hjob.trans (cryJob_of_refused hen hlanes href e)
    refine ⟨cipherJob dec tile j f true s, by cases dec <;> rfl, ?_⟩
    rw [hend]
    by_cases hst : (st == .keyAbsent || st == .keyStale) = true
    · rw [if_pos hst]
      exact ⟨rfl, honly, rfl, rfl, fun w i g hg => (fld_addFld _ _ _ _ _ _ _ _).trans (if_neg (by simpa using hg))⟩
    · rw [if_neg hst]
      exact ⟨rfl, honly, rfl, rfl, fun _ _ _ _ => rfl⟩
  case refine_3 =>
    have hlanes : lanesUp s tile ≠ 0 := by
      intro hzero
      rw [hzero] at hbit
      simp [bitOf] at hbit
    obtain ⟨e, honly, hjob⟩ := cipherJob_eq (dec := dec) (j := j) (f := some k) hen hlanes hfree
    have hend := hjob.trans (cryJob_of_lane hen hlanes href hk hbit e)
    refine ⟨cipherJob dec tile j (some k) true s, by cases dec <;> rfl, ?_⟩
    rw [hend]
    refine ⟨rfl, honly, ?_, rfl, rfl, rfl, fun w i f hf => (fld_setFld _ _ _ _ _ _ _ _).trans (if_neg (by simpa using hf))⟩
    have hset : lanesUp (setT tile .cry_status_lanes_up (setBit (lanesUp s tile) k false) { s with eng := e }) tile =
      setBit (lanesUp s tile) k false := tfld_setT_self _ _ _ _
    exact (congrArg (bitOf · k) hset).trans (bitOf_setBit_false _ _)
  case refine_4 =>
    obtain ⟨rfl, hslot⟩ := key_of_findKey hkey
    have hput : ∀ a n, findKey (putKey { k with zeroiseFail := true } s) a n =
        if a = k.tile ∧ n = nsid - 1 then some { k with zeroiseFail := true } else findKey s a n := by
      intro a n
      rw [findKey_putKey, ← hslot]
    refine ⟨_, congrArg Host.Outcome.next (keySlotClear_of_fail hkey hk), rfl, ?_, ?_, fun a n han => ?_, rfl⟩
    · have hfound := (hput k.tile (nsid - 1)).trans (if_pos ⟨rfl, rfl⟩)
      have hself : keyLoaded (putKey { k with zeroiseFail := true } s) k.tile (nsid - 1) = false := by
        simp [keyLoaded, hfound]
      exact hself
    · exact (hput _ _).trans (if_pos ⟨rfl, rfl⟩)
    · exact (hput _ _).trans (if_neg han)
  case refine_5 =>
    refine ⟨_, congrArg Host.Outcome.next ((tileWrite_of_open htile hopen).trans ?_), rfl⟩
    simp [cryEnable, hbit, hoff, horder, hfail]
  case refine_6 =>
    have hgo : cryEnable tile value failed s = setT tile .cry_cfg_cry_enable 1 (writeCfg tile .cryCfg (value - 1) s) := by
      have hwrite := writeEnable_of_ok (r := .cryCfg) (check := fun _ => none) (onFail := id) (start := id) hbit hoff horder rfl
      simpa [cryEnable, hbit, hpass] using hwrite
    exact ⟨_, congrArg Host.Outcome.next ((tileWrite_of_open htile hopen).trans hgo), tfld_setT_self _ _ _ _, rfl⟩
  case refine_7 =>
    refine ⟨_, congrArg Host.Outcome.next (runAdmin_registry hruns), fun k hk => ?_, fun hnone => ?_⟩
    · rw [keyLoad_of_material hns hstate hlen hk hrest]
    · rw [keyLoad_of_reject hns hstate hlen hnone]
  case refine_8 =>
    exact ⟨_, rfl, fun k hk => keyConfirm_last hprov hmem hup hlast hk⟩

end Sys2Proof.Machine
end

section
/-!
PROOFS. Digest contexts and the signature verifier (R362 to R367): an equation for each outcome of a request.
-/
namespace Sys2Proof.Machine
open Sys2Proof

theorem findCtx_freeCtx (t k : Nat) (s : State) (a j : Nat) :
    findCtx (freeCtx t k s) a j = if a = t ∧ j = k then none else findCtx s a j :=
  find?_dropKeyed DigCtx.tile DigCtx.ctx s.cry.ctxs t k a j

theorem findCtx_putCtx (c : DigCtx) (s : State) (a j : Nat) :
    findCtx (putCtx c s) a j = if a = c.tile ∧ j = c.ctx then some c else findCtx s a j :=
  find?_putKeyed DigCtx.tile DigCtx.ctx s.cry.ctxs c a j

theorem key_of_findCtx {s : State} {a j : Nat} {c : DigCtx} (h : findCtx s a j = some c) : c.tile = a ∧ c.ctx = j := by
  simpa using List.find?_some h

/-- Of two contexts with the keys of one, the one put is found under them, and every other context as before. -/
theorem findCtx_putCtx_spec {c : DigCtx} {tile k : Nat} (s : State) (htile : c.tile = tile) (hctx : c.ctx = k) :
    findCtx (putCtx c s) tile k = some c ∧ ∀ a j, ¬(a = tile ∧ j = k) → findCtx (putCtx c s) a j = findCtx s a j := by
  subst htile hctx
  exact ⟨(findCtx_putCtx _ _ _ _).trans (if_pos ⟨rfl, rfl⟩), fun a j h => (findCtx_putCtx _ _ _ _).trans (if_neg h)⟩

/-- Counting in one field of a tile changes no other field. -/
theorem onlyFields_addT {l : List (Nat × Nat × Fld)} {t : Nat} {f : Fld} (n : Nat) {s u : State} (hu : OnlyFields l s u)
    (hf : (t, 0, f) ∈ l) : OnlyFields l s (addT t f n u) := by
  obtain ⟨hregs, hflds⟩ := hu
  refine ⟨?_, fun w i g hg => ?_⟩
  · rw [addT_regs, hregs]
  · have hne : ¬(w = t ∧ i = 0 ∧ g = f) := by
      rintro ⟨rfl, rfl, rfl⟩
      exact hg hf
    exact (fld_addFld _ _ _ _ _ _ _ _).trans ((if_neg hne).trans (hflds w i g hg))

theorem onlyFields_setT {l : List (Nat × Nat × Fld)} {t : Nat} {f : Fld} (n : Nat) {s u : State} (hu : OnlyFields l s u)
    (hf : (t, 0, f) ∈ l) : OnlyFields l s (setT t f n u) := by
  obtain ⟨hregs, hflds⟩ := hu
  refine ⟨?_, fun w i g hg => ?_⟩
  · rw [setT_regs, hregs]
  · have hne : ¬(w = t ∧ i = 0 ∧ g = f) := by
      rintro ⟨rfl, rfl, rfl⟩
      exact hg hf
    exact (fld_setFld _ _ _ _ _ _ _ _).trans ((if_neg hne).trans (hflds w i g hg))

theorem onlyFields_emit {l : List (Nat × Nat × Fld)} (o : Out) {s u : State} (hu : OnlyFields l s u) : OnlyFields l s (emit o u) := hu

theorem onlyFields_of_regs {l : List (Nat × Nat × Fld)} {s t : State} (h : t.regs = s.regs) : OnlyFields l s t :=
  ⟨by rw [h], fun w i f _ => fld_of_regs h w i f⟩

/-! ### Opening (R364, R365) -/

theorem execDigestDirectOpen_of_free {tile owner alg k : Nat} {key : HmacKey} {e : Option Bytes} {s : State} (halg : alg < 4)
    (hfree : directCtx s tile = some k) : execDigestDirectOpen tile owner alg key e s =
      .next (digSays tile owner (.granted k) (putCtx (newCtx tile k owner alg key e) s)) := by
  simp only [execDigestDirectOpen, halg.not_ge, if_false, hfree]

theorem execDigestDirectOpen_of_busy {tile owner alg : Nat} {key : HmacKey} {e : Option Bytes} {s : State} (halg : alg < 4)
    (hbusy : directCtx s tile = none) : execDigestDirectOpen tile owner alg key e s = .next (digBusy tile owner s) := by
  simp only [execDigestDirectOpen, halg.not_ge, if_false, hbusy]

/-- The context that a snooped stream is bound to. -/
def snoopCtx (tile k owner source len alg : Nat) (key : HmacKey) (e : Option Bytes) : DigCtx :=
  { newCtx tile k owner alg key e with state := .bound, len := len, source := source, snoop := true }

theorem execDigestSnoopOpen_of_free {tile owner source len alg k : Nat} {key : HmacKey} {e : Option Bytes} {s : State} (halg : alg < 4)
    (hfree : (freeCtxs s tile).head? = some k) : execDigestSnoopOpen tile owner source len alg key e s =
      .next (digSays tile owner (.granted k) (putCtx (snoopCtx tile k owner source len alg key e) s)) := by
  simp only [execDigestSnoopOpen, halg.not_ge, if_false, hfree, snoopCtx]

theorem execDigestSnoopOpen_of_busy {tile owner source len alg : Nat} {key : HmacKey} {e : Option Bytes} {s : State} (halg : alg < 4)
    (hbusy : freeCtxs s tile = []) : execDigestSnoopOpen tile owner source len alg key e s = .next (digBusy tile owner s) := by
  simp only [execDigestSnoopOpen, halg.not_ge, if_false, hbusy, List.head?_nil]

/-! ### Data and the end of a message (R363, R364) -/

section ctx
variable {tile k owner : Nat} {c : DigCtx} {s : State} (hfind : findCtx s tile k = some c)
include hfind

theorem digestData_of_opened {d : Bytes} (hst : c.state = .opened) (hown : c.owner = owner) :
    digestData tile k owner d s = addT tile .dig_bytes_count d.length (putCtx { c with data := c.data ++ d } s) := by
  simp only [digestData, hfind, hst, hown, bne_self_eq_false, Bool.false_eq_true, if_false]

theorem digestData_of_not_owner {d : Bytes} (hst : c.state = .opened) (hown : c.owner ≠ owner) :
    digestData tile k owner d s = digSays tile owner .notOwner s := by
  simp [digestData, hfind, hst, hown]

theorem digestData_of_bound {d : Bytes} (hst : c.state = .bound) : digestData tile k owner d s = digSays tile owner .notBound s := by
  simp only [digestData, hfind, hst]

theorem digestData_of_finished {d : Bytes} (hst : c.state = .finished) (hown : c.owner = owner) (hsnoop : c.snoop = false)
    (hverify : c.verify = false) : digestData tile k owner d s = addT tile .dig_bytes_count d.length
      (putCtx { c with state := .opened, data := d, expected := none, result := none } s) := by
  simp only [digestData, hfind, hst, hown, hsnoop, hverify, bne_self_eq_false, Bool.or_self, Bool.false_eq_true, if_false]

theorem snoopEnd_of_bound {d : Bytes} (hst : c.state = .bound) : snoopEnd tile k d s =
    digestCompare { c with data := d.take c.len } (decide (c.len < d.length)) (decide (d.length < c.len))
      (addT tile .dig_bytes_count (d.take c.len).length s) := by
  simp only [snoopEnd, hfind, hst, bne_self_eq_false, Bool.false_eq_true, if_false]

theorem digestFinish_of_opened {e : Option Bytes} (hst : c.state = .opened) (hown : c.owner = owner) :
    digestFinish tile k owner e s = digestCompare { c with expected := e.or c.expected } false false s := by
  simp only [digestFinish, hfind, hst, hown, bne_self_eq_false, Bool.false_eq_true, if_false]

theorem digestFinish_of_not_owner {e : Option Bytes} (hst : c.state = .opened) (hown : c.owner ≠ owner) :
    digestFinish tile k owner e s = digSays tile owner .notOwner s := by
  simp [digestFinish, hfind, hst, hown]

theorem digestFinish_of_bound {e : Option Bytes} (hst : c.state = .bound) :
    digestFinish tile k owner e s = digSays tile owner .notBound s := by
  simp only [digestFinish, hfind, hst]

theorem execDigestRelease_of_free (hst : c.state ≠ .bound) : execDigestRelease tile k s = .next (freeCtx tile k s) := by
  simp [execDigestRelease, hfind, hst]

theorem execDigestRelease_of_bound (hst : c.state = .bound) : execDigestRelease tile k s = .next (digSays tile c.owner .notBound s) := by
  simp [execDigestRelease, hfind, hst]

end ctx

/-- Whether a context's digest is the value expected. -/
def digestEqual (c : DigCtx) (truncated : Bool) (s : State) : Bool := !truncated && c.expected == some (digestValue s c)

/-- A compared context is finished with its result, which is reported; only its count of inequalities may change besides. -/
theorem digestCompare_spec {c : DigCtx} (hverify : c.verify = false) (o r : Bool) (s : State) :
    let t := digestCompare c o r s
    let e := digestEqual c r s
    t = { s with cry := t.cry, regs := t.regs, outs := t.outs } ∧
      findCtx t c.tile c.ctx = some { c with state := .finished, result := some (e, c.expected.isNone, o, r) } ∧
      (∀ a j, ¬(a = c.tile ∧ j = c.ctx) → findCtx t a j = findCtx s a j) ∧
      Sends [.digest c.tile c.owner (.compared e c.expected.isNone o r)] s t ∧
      OnlyFields [(c.tile, 0, .dig_results_not_equal)] s t := by
  intro t e
  have hput := findCtx_putCtx_spec (c := { c with state := .finished, result := some (e, c.expected.isNone, o, r) }) s rfl rfl
  have ht : t = digSays c.tile c.owner (.compared e c.expected.isNone o r)
      (if e then putCtx { c with state := .finished, result := some (e, c.expected.isNone, o, r) } s
        else bump c.tile .dig_results_not_equal (putCtx { c with state := .finished, result := some (e, c.expected.isNone, o, r) } s)) :=
    if_neg (by simp [hverify])
  rw [ht]
  by_cases he : e = true
  · rw [if_pos he]
    exact ⟨rfl, hput.1, hput.2, rfl, onlyFields_of_regs rfl⟩
  · rw [if_neg he]
    exact ⟨rfl, hput.1, hput.2, rfl, onlyFields_addT 1 (onlyFields_of_regs (s := s) (t := putCtx _ s) rfl) List.mem_cons_self⟩

theorem OnlyFields.mono {l m : List (Nat × Nat × Fld)} {s t : State} (h : OnlyFields l s t) (hsub : l ⊆ m) : OnlyFields m s t :=
  ⟨h.1, fun w i f hf => h.2 w i f fun hl => hf (hsub hl)⟩

theorem OnlyFields.trans {l : List (Nat × Nat × Fld)} {s t u : State} (h : OnlyFields l s t) (k : OnlyFields l t u) : OnlyFields l s u :=
  ⟨by rw [k.1, h.1], fun w i f hf => (k.2 w i f hf).trans (h.2 w i f hf)⟩

/-! ### The verifier (R366, R367) -/

theorem vfyRequest_of_free {tile owner key k : Nat} {pub sig : Bytes} {s : State}
    (hvfy : s.cry.vfys.find? (fun v => v.tile == tile) = none) (hfree : directCtx s tile = some k) :
    vfyRequest tile owner key pub sig s = digSays tile owner (.granted k)
      (putCtx { newCtx tile k owner 1 .none none with verify := true }
        { s with cry := { s.cry with vfys := s.cry.vfys ++ [{ tile := tile, key := key, pub := pub, sig := sig, ctx := k }] } }) := by
  simp only [vfyRequest, hvfy, hfree]

/-- The state in which a verification and its context are gone. -/
def vfyGone (tile k : Nat) (s : State) : State :=
  freeCtx tile k { s with cry := { s.cry with vfys := s.cry.vfys.filter fun x => x.tile != tile } }

theorem vfyDone_of_finished {tile : Nat} {v : Vfy} {c : DigCtx} {s : State}
    (hvfy : s.cry.vfys.find? (fun v => v.tile == tile) = some v) (hctx : findCtx s tile v.ctx = some c) (hst : c.state = .finished) :
    vfyDone tile s = digSays tile c.owner (.verified (signaturePasses s v.key v.pub v.sig (digestValue s c)))
      (bump tile .dig_vfy_status_verifies (setT tile .dig_vfy_status_last_result
        (if signaturePasses s v.key v.pub v.sig (digestValue s c) then 1 else 2) (vfyGone tile v.ctx s))) := by
  simp only [vfyDone, hvfy, hctx, hst, bne_self_eq_false, Bool.false_eq_true, if_false]
  rfl

/-- Settles O13: each outcome is an equation, and a context that is put or freed is the only one to change. -/
theorem digestContexts : Obligations.DigestContexts := by
  unfold Obligations.DigestContexts
  refine ⟨fun tile owner alg k key e s halg hfree => ?_, fun tile owner source len alg k key e s halg hfree => ?_,
    fun tile owner source len alg key e s halg => ⟨fun hbusy => ?_, fun hbusy => ?_⟩,
    fun tile k owner d c s hfind => ⟨fun hst hown => ?_, fun hst hown => ⟨_, rfl, digestData_of_not_owner hfind hst hown⟩,
      fun hst => ⟨_, rfl, digestData_of_bound hfind hst⟩, fun hst hown hsnoop hverify => ?_⟩,
    fun tile k d c s hfind hst hverify => ?_,
    fun tile k owner e c s hfind => ⟨fun hst hown hverify => ?_, fun hst hown => ⟨_, rfl, digestFinish_of_not_owner hfind hst hown⟩,
      fun hst => ⟨_, rfl, digestFinish_of_bound hfind hst⟩⟩,
    fun tile k c s hfind => ⟨fun hst => ?_, fun hst => ⟨_, execDigestRelease_of_bound hfind hst, rfl⟩⟩,
    fun tile owner key k pub sig s hvfy hfree => ?_, fun tile v c s hvfy hctx hst => ?_⟩
  case refine_1 =>
    obtain ⟨hput, hothers⟩ := findCtx_putCtx_spec (c := newCtx tile k owner alg key e) s rfl rfl
    exact ⟨_, execDigestDirectOpen_of_free halg hfree, rfl, hput, hothers, rfl, rfl⟩
  case refine_2 =>
    obtain ⟨hput, hothers⟩ := findCtx_putCtx_spec (c := snoopCtx tile k owner source len alg key e) s rfl rfl
    exact ⟨_, execDigestSnoopOpen_of_free halg hfree, rfl, ⟨_, hput, rfl, rfl, rfl, rfl, rfl, rfl, rfl, rfl⟩, hothers, rfl, rfl⟩
  case refine_3 =>
    exact ⟨_, execDigestDirectOpen_of_busy halg hbusy, rfl, onlyFields_addT 1 (onlyFields_of_regs rfl) List.mem_cons_self, rfl⟩
  case refine_4 =>
    exact ⟨_, execDigestSnoopOpen_of_busy halg hbusy, rfl, onlyFields_addT 1 (onlyFields_of_regs rfl) List.mem_cons_self, rfl⟩
  case refine_5 =>
    obtain ⟨htile, hctx⟩ := key_of_findCtx hfind
    obtain ⟨hput, hothers⟩ := findCtx_putCtx_spec (c := { c with data := c.data ++ d }) s htile hctx
    exact ⟨_, congrArg Host.Outcome.next (digestData_of_opened hfind hst hown), rfl, hput, hothers,
      onlyFields_addT _ (onlyFields_of_regs rfl) List.mem_cons_self⟩
  case refine_6 =>
    obtain ⟨htile, hctx⟩ := key_of_findCtx hfind
    obtain ⟨hput, -⟩ := findCtx_putCtx_spec (c := { c with state := .opened, data := d, expected := none, result := none }) s htile hctx
    exact ⟨_, congrArg Host.Outcome.next (digestData_of_finished hfind hst hown hsnoop hverify), rfl, hput⟩
  case refine_7 =>
    obtain ⟨rfl, rfl⟩ := key_of_findCtx hfind
    obtain ⟨hframe, hput, hothers, hsent, hfields⟩ := digestCompare_spec (c := { c with data := d.take c.len }) hverify
      (decide (c.len < d.length)) (decide (d.length < c.len)) (addT c.tile .dig_bytes_count (d.take c.len).length s)
    refine ⟨_, congrArg Host.Outcome.next (snoopEnd_of_bound hfind hst), hframe, _, _, hput, rfl, rfl, rfl, fun hshort => ?_, hsent,
      hothers, ?_⟩
    · simp [digestEqual, hshort]
    · exact (onlyFields_addT _ (onlyFields_of_regs (s := s) (t := s) rfl) List.mem_cons_self).trans
        (hfields.mono (List.subset_cons_self _ _))
  case refine_8 =>
    obtain ⟨rfl, rfl⟩ := key_of_findCtx hfind
    subst hown
    obtain ⟨hframe, hput, hothers, hsent, hfields⟩ := digestCompare_spec (c := { c with expected := e.or c.expected }) hverify false false s
    exact ⟨_, congrArg Host.Outcome.next (digestFinish_of_opened hfind hst rfl), hframe, ⟨_, hput, rfl, rfl, rfl⟩, hsent, hothers, hfields⟩
  case refine_9 =>
    exact ⟨_, execDigestRelease_of_free hfind hst, rfl, (findCtx_freeCtx _ _ _ _ _).trans (if_pos ⟨rfl, rfl⟩),
      fun a j h => (findCtx_freeCtx _ _ _ _ _).trans (if_neg h)⟩
  case refine_10 =>
    obtain ⟨hput, hothers⟩ := findCtx_putCtx_spec (c := { newCtx tile k owner 1 .none none with verify := true })
      { s with cry := { s.cry with vfys := s.cry.vfys ++ [{ tile := tile, key := key, pub := pub, sig := sig, ctx := k }] } } rfl rfl
    exact ⟨_, congrArg Host.Outcome.next (vfyRequest_of_free hvfy hfree), rfl, rfl, ⟨_, hput, rfl, rfl, rfl, rfl, rfl⟩, hothers, rfl⟩
  case refine_11 =>
    refine ⟨_, congrArg Host.Outcome.next (vfyDone_of_finished hvfy hctx hst), rfl, rfl, ?_,
      (findCtx_freeCtx _ _ _ _ _).trans (if_pos ⟨rfl, rfl⟩), ?_, fun a j h => (findCtx_freeCtx _ _ _ _ _).trans (if_neg h), ?_⟩
    · exact (tfld_bump_other tile (by decide) _).trans (tfld_setT_self _ _ _ _)
    · exact find?_filter_self (fun x : Vfy => x.tile == tile) _
    · have hgone : OnlyFields [(tile, 0, .dig_vfy_status_last_result), (tile, 0, .dig_vfy_status_verifies)] s (vfyGone tile v.ctx s) :=
        onlyFields_of_regs rfl
      exact onlyFields_emit _ (onlyFields_addT 1 (onlyFields_setT _ hgone List.mem_cons_self)
        (List.mem_cons_of_mem _ List.mem_cons_self))

end Sys2Proof.Machine
end

section
/-!
PROOFS. The upkeep of a DRAM channel (R377 to R383): each command changes the one channel that it names.
-/
namespace Sys2Proof.Machine
open Sys2Proof

/-- A list mapped by what keeps the key has its entry under the key mapped. -/
theorem find?_map_key {α κ : Type} [BEq κ] (key : α → κ) {f : α → α} (hf : ∀ x, key (f x) = key x) (k : κ) : ∀ l : List α,
    (l.map f).find? (fun x => key x == k) = (l.find? fun x => key x == k).map f
  | [] => rfl
  | x :: l => by
    simp only [List.map_cons, List.find?_cons, hf]
    split
    · rfl
    · exact find?_map_key key hf k l

theorem findDram_updDram {f : Dram → Dram} (hf : ∀ d, (f d).tile = d.tile) (t : Nat) (s : State) (a : Nat) :
    findDram (updDram t f s) a = if a = t then (findDram s t).map f else findDram s a := by
  have hmap := find?_map_key Dram.tile (f := fun d => if d.tile == t then f d else d)
    (fun d => by split <;> simp [hf]) a s.drams
  refine Eq.trans hmap ?_
  by_cases h : a = t
  · subst h
    rw [if_pos rfl]
    cases hfind : s.drams.find? fun d => d.tile == a with
    | none => simp [findDram, hfind]
    | some d =>
      have hd : d.tile = a := by simpa using List.find?_some hfind
      simp [findDram, hfind, hd]
  · rw [if_neg h]
    cases hfind : s.drams.find? fun d => d.tile == a with
    | none => simp [findDram, hfind]
    | some d =>
      have hd : d.tile = a := by simpa using List.find?_some hfind
      simp [findDram, hfind, hd, h]

/-- The channel named is changed, and no other. -/
theorem findDram_updDram_spec {f : Dram → Dram} (hf : ∀ d, (f d).tile = d.tile) {t : Nat} {s : State} {d : Dram}
    (hfind : findDram s t = some d) :
    findDram (updDram t f s) t = some (f d) ∧ ∀ a, a ≠ t → findDram (updDram t f s) a = findDram s a := by
  refine ⟨?_, fun a ha => ?_⟩
  · rw [findDram_updDram hf, if_pos rfl, hfind, Option.map_some]
  · rw [findDram_updDram hf, if_neg ha]

theorem find?_updRank {r : Nat} {f : DramRank → DramRank} (hf : ∀ x, (f x).rank = x.rank) {d : Dram} {x : DramRank}
    (hfind : d.ranks.find? (fun y => y.rank == r) = some x) :
    (updRank r f d).ranks.find? (fun y => y.rank == r) = some (f x) := by
  have hx : x.rank = r := by simpa using List.find?_some hfind
  have hmap := find?_map_key DramRank.rank (f := fun y => if y.rank == r then f y else y)
    (fun y => by split <;> simp [hf]) r d.ranks
  rw [hfind] at hmap
  exact hmap.trans (by simp [hx])

/-! ### Refresh (R376, R378, R379) -/

/-- A rank after a refresh: its debt is kept where something is waiting or in hand (`busy`). -/
def refreshed (busy : Bool) (x : DramRank) : DramRank := { x with debt := if busy then x.debt else 0, down := false }

section refresh
variable {tile r : Nat} {inHand : Bool} {d : Dram} {x : DramRank} {s : State} (hd : findDram s tile = some d)
  (hx : d.ranks.find? (fun y => y.rank == r) = some x) (href : x.selfRef = false)
include hd hx href

theorem refreshDue_of_postponed (hw : rankWaits s tile r = true) (hdebt : x.debt < s.tfld tile .drc_refresh_postpone_max) :
    refreshDue tile r inHand s = updDram tile (updRank r fun x => { x with debt := x.debt + 1 }) s := by
  simp [refreshDue, hd, hx, href, hw, hdebt]

theorem refreshDue_of_issued (h : rankWaits s tile r = false ∨ s.tfld tile .drc_refresh_postpone_max ≤ x.debt) :
    refreshDue tile r inHand s =
      updDram tile (fun d => closeRank r (updRank r (refreshed (rankWaits s tile r || inHand)) d)) s := by
  have hgo : (rankWaits s tile r && decide (x.debt < s.tfld tile .drc_refresh_postpone_max)) = false := by
    obtain h | h := h
    · simp [h]
    · simp [h]
  simp only [refreshDue, hd, hx, href, hgo, Option.bind_some, Bool.false_eq_true, if_false]
  rfl

end refresh

theorem open_closeRank {r : Nat} {d : Dram} {b : Bank} (hb : b ∈ (closeRank r d).banks) (hr : b.rank = r) : b.open_ = none := by
  obtain ⟨c, -, rfl⟩ := List.mem_map.1 hb
  by_cases hc : c.rank = r
  · simp [hc]
  · simp [hc] at hr

/-- A bank as an access names it. -/
def bankAt (sc r g b : Nat) : DramAcc := { blankAcc with subch := sc, rank := r, group := g, bank := b }

/-- The channel with the open row of a bank closed. -/
def closeBankRow (a : DramAcc) (d : Dram) : Dram :=
  { d with banks := d.banks.map fun x => if sameBank a x then { x with open_ := none } else x }

/-! ### Temperature (R380 to R382) -/

/-- The channel when a device first needs the doubled rate, with or without a device beyond its range. -/
def hotDram (beyond : Bool) (d : Dram) : Dram :=
  { d with
    hot := true, coolPolls := 0, overtemp := beyond
    ranks := d.ranks.map fun r => { r with debt := 0, down := false }, banks := d.banks.map fun b => { b with open_ := none } }

/-- The channel that is hot already. -/
def stillHotDram (beyond : Bool) (d : Dram) : Dram := { d with coolPolls := 0, overtemp := beyond }

/-- The channel that becomes normal. -/
def cooledDram (d : Dram) : Dram :=
  { d with hot := false, coolPolls := 0, overtemp := false, ranks := d.ranks.map fun r => { r with debt := (r.debt + 1) / 2 } }

theorem updDram_updDram {f g : Dram → Dram} (hf : ∀ d, (f d).tile = d.tile) (t : Nat) (s : State) :
    updDram t g (updDram t f s) = updDram t (fun d => g (f d)) s := by
  simp only [updDram, List.map_map]
  congr 1
  refine List.map_congr_left fun d _ => ?_
  by_cases h : d.tile = t <;> simp [h, hf]

/-- The two updates of a poll: the rate, and whether a device is beyond its range. -/
theorem poll_eq {f : Dram → Dram} (hf : ∀ d, (f d).tile = d.tile) (t : Nat) (b : Bool) (s : State) :
    updDram t (fun d => { d with overtemp := b }) (updDram t f s) = updDram t (fun d => { f d with overtemp := b }) s :=
  updDram_updDram hf t s

section poll
variable {tile : Nat} {rs : List DramTemp} {d : Dram} {s : State} (hd : findDram s tile = some d)
include hd

/-- A poll, by what its reports say and by whether the channel was hot. -/
theorem tempPoll_of_hot (hhot : (rs.any fun r => r != .normal) = true) :
    tempPoll tile rs s =
      let b := rs.any fun r => r == .beyond
      let u := if d.hot then updDram tile (stillHotDram b) s else updDram tile (hotDram b) s
      if b && !d.overtemp then logEv .dramOvertemp tile [] u else u := by
  by_cases h : d.hot = true
  · simp only [tempPoll, hd, hhot, h, Bool.not_true, Bool.and_false, Bool.false_eq_true, if_false, if_true]
    rw [poll_eq]
    · rfl
    · exact fun _ => rfl
  · simp only [tempPoll, hd, hhot, h, Bool.not_false, Bool.and_true, if_true, Bool.false_eq_true, if_false]
    rw [poll_eq]
    · rfl
    · exact fun _ => rfl

theorem tempPoll_of_cooled (hcool : ∀ r ∈ rs, r = .normal) (hhot : d.hot = true) (hpolls : 1 ≤ d.coolPolls) :
    tempPoll tile rs s = updDram tile cooledDram s := by
  have hnot : (rs.any fun r => r != .normal) = false := by simpa using hcool
  have hbeyond : (rs.any fun r => r == .beyond) = false := by
    simp only [List.any_eq_false, beq_iff_eq]
    exact fun r hr he => by simpa [he] using hcool r hr
  simp only [tempPoll, hd, hnot, hbeyond, hhot, hpolls, decide_true, Bool.false_and, Bool.and_self, Bool.false_eq_true, if_false, if_true]
  rw [poll_eq]
  · rfl
  · exact fun _ => rfl

end poll

/-! ### Margins (R383) -/

theorem dramMarginLow_eq {tile r : Nat} {d : Dram} {x : DramRank} {s : State} (hd : findDram s tile = some d) (hready : d.ready = true)
    (hx : d.ranks.find? (fun y => y.rank == r) = some x) :
    dramMarginLow tile r s = if min x.wrMargin x.rdMargin < s.tfld tile .drc_train_margin_min then
      logEv .dramMargin tile [r, min x.wrMargin x.rdMargin] s else s := by
  simp only [dramMarginLow, hd, hx, hready, Bool.true_and, decide_eq_true_eq]

/-- The margins of a retrained rank, where it may be retrained. -/
def retrained (s : State) (tile r wr rd : Nat) (d : Dram) : Dram :=
  if d.ready then updRank r (fun x =>
    if rankWaits s tile r && s.nowMs < x.trainMs + 1000 then x
    else { x with wrMargin := wr % 256, rdMargin := rd % 256, trainMs := s.nowMs }) d else d

theorem margins_retrained {s : State} {tile r wr rd : Nat} {d : Dram} (hready : d.ready = true) (hwr : wr < 256) (hrd : rd < 256)
    (hidle : ∀ x ∈ d.ranks, x.rank = r → rankWaits s tile r = false ∨ x.trainMs + 1000 ≤ s.nowMs) :
    ∀ x ∈ (retrained s tile r wr rd d).ranks, x.rank = r → x.wrMargin = wr ∧ x.rdMargin = rd := by
  intro x hx hr
  rw [retrained, if_pos hready] at hx
  obtain ⟨y, hy, rfl⟩ := List.mem_map.1 hx
  by_cases hyr : y.rank = r
  · have hgo : (rankWaits s tile r && decide (s.nowMs < y.trainMs + 1000)) = false := by
      obtain h | h := hidle y hy hyr
      · simp [h]
      · simp [h]
    simp [hyr, hgo, Nat.mod_eq_of_lt hwr, Nat.mod_eq_of_lt hrd]
  · simp [hyr] at hr

/-- Settles O15: each command is one update of the channel that it names. -/
theorem dramUpkeep : Obligations.DramUpkeep := by
  unfold Obligations.DramUpkeep
  refine ⟨fun tile r inHand d x s hd hx href => ⟨fun hw hdebt => ?_, fun h => ?_⟩,
    fun tile rs d s hd => ⟨fun hdoubled hbeyond hcool => ?_, fun hbeyond hover => ?_, fun hnormal hhot hpolls => ?_⟩,
    fun tile sc r g b d s hd => ?_, fun tile r d s hd => ⟨fun hpd hw => ?_, fun h => ⟨_, rfl, if_pos ?_⟩⟩,
    fun tile r wr rd d s hd hready hwr hrd hidle => ?_,
    fun tile r d x s hd hready hx => ⟨fun hlow => ?_, fun hok => ?_⟩⟩
  case refine_1 =>
    obtain ⟨hself, hothers⟩ := findDram_updDram_spec (f := updRank r fun x => { x with debt := x.debt + 1 }) (fun _ => rfl) hd
    exact ⟨_, congrArg Host.Outcome.next (refreshDue_of_postponed hd hx href hw hdebt), rfl,
      ⟨_, _, hself, find?_updRank (f := fun x => { x with debt := x.debt + 1 }) (fun _ => rfl) hx, rfl, rfl⟩, hothers⟩
  case refine_2 =>
    obtain ⟨hself, hothers⟩ := findDram_updDram_spec
      (f := fun d => closeRank r (updRank r (refreshed (rankWaits s tile r || inHand)) d)) (fun _ => rfl) hd
    exact ⟨_, congrArg Host.Outcome.next (refreshDue_of_issued hd hx href h), rfl,
      ⟨_, _, hself, find?_updRank (f := refreshed (rankWaits s tile r || inHand)) (fun _ => rfl) hx, rfl, fun b hb hr => open_closeRank hb hr, rfl⟩, hothers⟩
  case refine_3 =>
    have hany : (rs.any fun r => r != .normal) = true := List.any_eq_true.2 ⟨_, hdoubled, rfl⟩
    have hnone : (rs.any fun r => r == .beyond) = false := by
      simp only [List.any_eq_false, beq_iff_eq]
      exact fun r hr he => hbeyond (he ▸ hr)
    have hpoll : tempPoll tile rs s = updDram tile (hotDram false) s := by
      rw [tempPoll_of_hot hd hany]
      simp [hnone, hcool]
    obtain ⟨hself, hothers⟩ := findDram_updDram_spec (f := hotDram false) (fun _ => rfl) hd
    exact ⟨_, congrArg Host.Outcome.next hpoll, rfl, ⟨_, hself, rfl, rfl, by simp [hotDram], by simp [hotDram]⟩, hothers⟩
  case refine_4 =>
    have hany : (rs.any fun r => r != .normal) = true := List.any_eq_true.2 ⟨_, hbeyond, rfl⟩
    have hyes : (rs.any fun r => r == .beyond) = true := List.any_eq_true.2 ⟨_, hbeyond, rfl⟩
    have hpoll := tempPoll_of_hot hd hany
    simp only [hyes, hover, Bool.not_false, Bool.and_self, if_true] at hpoll
    by_cases hhot : d.hot = true
    · rw [if_pos hhot] at hpoll
      obtain ⟨hself, -⟩ := findDram_updDram_spec (f := stillHotDram true) (fun _ => rfl) hd
      exact ⟨_, congrArg Host.Outcome.next hpoll, rfl, ⟨_, hself, hhot, rfl⟩, rfl⟩
    · rw [if_neg hhot] at hpoll
      obtain ⟨hself, -⟩ := findDram_updDram_spec (f := hotDram true) (fun _ => rfl) hd
      exact ⟨_, congrArg Host.Outcome.next hpoll, rfl, ⟨_, hself, rfl, rfl⟩, rfl⟩
  case refine_5 =>
    obtain ⟨hself, -⟩ := findDram_updDram_spec (f := cooledDram) (fun _ => rfl) hd
    exact ⟨_, congrArg Host.Outcome.next (tempPoll_of_cooled hd hnormal hhot hpolls), rfl, _, hself, rfl, rfl⟩
  case refine_6 =>
    obtain ⟨hself, hothers⟩ := findDram_updDram_spec (f := closeBankRow (bankAt sc r g b)) (fun _ => rfl) hd
    refine ⟨_, rfl, rfl, ⟨_, hself, rfl, fun x hx hsc hr hg hb => ?_⟩, hothers⟩
    obtain ⟨y, -, rfl⟩ := List.mem_map.1 hx
    by_cases hy : sameBank (bankAt sc r g b) y = true
    · rw [if_pos hy]
    · rw [if_neg hy] at hsc hr hg hb
      simp [sameBank, bankAt, hsc, hr, hg, hb] at hy
  case refine_7 =>
    obtain ⟨hself, hothers⟩ := findDram_updDram_spec
      (f := updRank r fun x => if x.selfRef then x else { x with down := true }) (fun _ => rfl) hd
    refine ⟨_, congrArg Host.Outcome.next (if_neg (by simp [hpd, hw])), rfl, ⟨_, hself, rfl, fun x hx hr hself => ?_⟩, hothers⟩
    obtain ⟨y, -, rfl⟩ := List.mem_map.1 hx
    by_cases hyr : y.rank = r
    · by_cases hys : y.selfRef = true
      · simp [hyr, hys] at hself
      · simp [hyr, hys]
    · simp [hyr] at hr
  case refine_8 =>
    obtain h | h := h <;> simp [h]
  case refine_9 =>
    obtain ⟨hself, hothers⟩ := findDram_updDram_spec (f := retrained s tile r wr rd)
      (fun d => by unfold retrained; split <;> rfl) hd
    refine ⟨_, rfl, rfl, ⟨_, hself, ?_, margins_retrained hready hwr hrd hidle⟩, hothers⟩
    rw [retrained, if_pos hready]
    rfl
  case refine_10 =>
    exact ⟨_, congrArg Host.Outcome.next ((dramMarginLow_eq hd hready hx).trans (if_pos hlow)), rfl⟩
  case refine_11 =>
    exact ⟨_, congrArg Host.Outcome.next ((dramMarginLow_eq hd hready hx).trans (if_neg hok.not_gt)), rfl⟩

end Sys2Proof.Machine
end

section
/-!
PROOFS. Sensors and throttle levels (R389 to R396): a sensor or a level set reads as set, and what follows a change of level stays on the
host side.
-/
namespace Sys2Proof.Machine
open Sys2Proof

/-! ### What a change of sensors and levels touches -/

/-- From `s` to `t` nothing changed but the sensors, the levels and the host side. -/
def OnlyThermal (s t : State) : Prop := OnlyHostSide { s with therm := t.therm } t

/-- What stays on the host side does so for other sensors and levels as well. -/
theorem OnlyHostSide.with_therm {s t : State} (h : OnlyHostSide s t) (x : Therm) :
    OnlyHostSide { s with therm := x } { t with therm := x } :=
  ⟨congrArg (fun u : State => { u with therm := x }) h.1, h.2.1, h.2.2⟩

theorem OnlyThermal.trans {s t u : State} (h : OnlyThermal s t) (k : OnlyThermal t u) : OnlyThermal s u :=
  OnlyHostSide.trans (OnlyHostSide.with_therm (s := { s with therm := t.therm }) h u.therm) k

theorem OnlyHostSide.therm_eq {s t : State} (h : OnlyHostSide s t) : t.therm = s.therm := by
  have htherm := congrArg State.therm h.1
  exact htherm

theorem OnlyHostSide.onlyThermal {s t : State} (h : OnlyHostSide s t) : OnlyThermal s t := by
  unfold OnlyThermal
  rw [h.therm_eq]
  exact h

theorem onlyThermal_updSensor (t i : Nat) (f : Sensor → Sensor) (s : State) : OnlyThermal s (updSensor t i f s) := .refl _
theorem onlyThermal_updTherm (t : Nat) (f : ThermTile → ThermTile) (s : State) : OnlyThermal s (updTherm t f s) := .refl _
theorem onlyThermal_logEv (e : Ev) (t : Nat) (l : List Nat) (s : State) : OnlyThermal s (logEv e t l s) :=
  (onlyHostSide_logEv e t l s).onlyThermal
theorem onlyThermal_smartRefresh (s : State) : OnlyThermal s (smartRefresh s) := (onlyHostSide_smartRefresh s).onlyThermal

theorem therm_smartRefresh (s : State) : (smartRefresh s).therm = s.therm := (onlyHostSide_smartRefresh s).therm_eq
theorem therm_anaRefresh (s : State) : (anaRefresh s).therm = s.therm := (onlyHostSide_anaRefresh s).therm_eq

theorem levelOf_of_therm {s t : State} (h : t.therm = s.therm) (a : Nat) : levelOf t a = levelOf s a := by
  simp only [levelOf, h]

theorem findSensor_of_therm {s t : State} (h : t.therm = s.therm) (a j : Nat) : findSensor t a j = findSensor s a j := by
  simp only [findSensor, h]

/-! ### Sensors (R389, R390) -/

/-- The sensor named is changed, and no other. -/
theorem findSensor_updSensor_spec {f : Sensor → Sensor} (hf : ∀ x, (f x).tile = x.tile ∧ (f x).idx = x.idx) {t i : Nat} {s : State}
    {x : Sensor} (hfind : findSensor s t i = some x) :
    findSensor (updSensor t i f s) t i = some (f x) ∧
      ∀ a j, ¬(a = t ∧ j = i) → findSensor (updSensor t i f s) a j = findSensor s a j := by
  have hmap := fun a j => find?_mapKeyed Sensor.tile Sensor.idx hf t i a j s.therm.sensors
  refine ⟨(hmap t i).trans ((if_pos ⟨rfl, rfl⟩).trans ?_), fun a j haj => (hmap a j).trans (if_neg haj)⟩
  exact congrArg (Option.map f) hfind

/-- The state with a reading taken from a sensor. -/
def readingTaken (t i : Nat) (r : Int) (s : State) : State :=
  updSensor t i (fun x => { x with reading := some r, peak := if x.reading.isNone then r else max x.peak r }) s

theorem sensorConversion_of_left_out {t i : Nat} {r : Int} {x : Sensor} {s : State} (hfind : findSensor s t i = some x)
    (hup : tileUp s t = true) (hout : x.faulty = true ∨ r < -160 ∨ 600 < r) : sensorConversion t i r s = readingTaken t i r s := by
  have hgo : (x.faulty || decide (r < -160) || decide (600 < r)) = true := by
    simpa [or_assoc] using hout
  simp only [sensorConversion, hfind, hup, Bool.not_true, Bool.false_eq_true, if_false, hgo, if_true]
  rfl

theorem sensorConversion_of_plausible {t i : Nat} {r : Int} {x : Sensor} {s : State} (hfind : findSensor s t i = some x)
    (hup : tileUp s t = true) (hok : x.faulty = false) (hlow : -160 ≤ r) (hhigh : r ≤ 600) : sensorConversion t i r s =
      smartRefresh (if 4 * criticalC s x ≤ r then criticalStep t i r (warnStep t i r (readingTaken t i r s))
        else warnStep t i r (readingTaken t i r s)) := by
  have hgo : (x.faulty || decide (r < -160) || decide (600 < r)) = false := by
    simp [hok, hlow, hhigh]
  simp only [sensorConversion, hfind, hup, Bool.not_true, Bool.false_eq_true, if_false, hgo]
  rfl

/-- Whether a warning stands after a reading (R391). -/
def warnedAfter (s : State) (t : Nat) (x : Sensor) (r : Int) : Bool :=
  if x.warned = true then !decide (r ≤ 4 * (warnC s x - hystC s t)) else decide (4 * warnC s x ≤ r)

/-- The warning's step sets or clears the warning of one sensor, and changes no level. -/
theorem warnStep_spec {t i : Nat} {r : Int} {y : Sensor} {s : State} (hfind : findSensor s t i = some y) :
    OnlyThermal s (warnStep t i r s) ∧ findSensor (warnStep t i r s) t i = some { y with warned := warnedAfter s t y r } ∧
      (warnStep t i r s).therm.tiles = s.therm.tiles ∧
      ∀ a j, ¬(a = t ∧ j = i) → findSensor (warnStep t i r s) a j = findSensor s a j := by
  have hset : ∀ b : Bool, findSensor (updSensor t i (fun x => { x with warned := b }) s) t i = some { y with warned := b } ∧
      ∀ a j, ¬(a = t ∧ j = i) → findSensor (updSensor t i (fun x => { x with warned := b }) s) a j = findSensor s a j :=
    fun b => findSensor_updSensor_spec (f := fun x => { x with warned := b }) (fun _ => ⟨rfl, rfl⟩) hfind
  by_cases hw : y.warned = true
  · by_cases hr : r ≤ 4 * (warnC s y - hystC s t)
    · have hstep : warnStep t i r s = updSensor t i (fun x => { x with warned := false }) s := by
        simp [warnStep, hfind, hw, hr]
      have hafter : warnedAfter s t y r = false := by simp [warnedAfter, hw, hr]
      rw [hstep, hafter]
      exact ⟨onlyThermal_updSensor _ _ _ s, (hset false).1, rfl, (hset false).2⟩
    · have hstep : warnStep t i r s = s := by simp [warnStep, hfind, hw, hr]
      have hafter : warnedAfter s t y r = y.warned := by simp [warnedAfter, hw, hr]
      rw [hstep, hafter]
      exact ⟨(OnlyHostSide.refl s).onlyThermal, hfind, rfl, fun _ _ _ => rfl⟩
  · by_cases hr : 4 * warnC s y ≤ r
    · have hstep : warnStep t i r s = logEv .thermalWarn t [i, (r % 2 ^ 32).toNat] (updSensor t i (fun x => { x with warned := true }) s) := by
        simp [warnStep, hfind, hw, hr]
      have hafter : warnedAfter s t y r = true := by simp [warnedAfter, hw, hr]
      rw [hstep, hafter]
      exact ⟨(onlyThermal_updSensor _ _ _ s).trans (onlyThermal_logEv _ _ _ _), (hset true).1, rfl, (hset true).2⟩
    · have hstep : warnStep t i r s = s := by simp [warnStep, hfind, hw, hr]
      have hafter : warnedAfter s t y r = y.warned := by simp [warnedAfter, hw, hr]
      rw [hstep, hafter]
      exact ⟨(OnlyHostSide.refl s).onlyThermal, hfind, rfl, fun _ _ _ => rfl⟩

theorem mem_sensors_of_findSensor {s : State} {t i : Nat} {x : Sensor} (h : findSensor s t i = some x) :
    x ∈ s.therm.sensors ∧ x.tile = t ∧ x.idx = i := by
  have hkey : x.tile = t ∧ x.idx = i := by simpa using List.find?_some h
  exact ⟨List.mem_of_find?_eq_some h, hkey⟩

/-! ### Levels (R390, R392) -/

/-- A tile has a level of its own. -/
def hasLevel (s : State) (t : Nat) : Prop := (s.therm.tiles.any fun y => y.tile == t) = true

/-- The level set is read on its tile, and every other tile's as before. -/
theorem levelOf_updTherm {f : ThermTile → ThermTile} (hf : ∀ x, (f x).tile = x.tile) {l : Nat} (hl : ∀ x, (f x).level = l) (t : Nat)
    (s : State) : (hasLevel s t → levelOf (updTherm t f s) t = l) ∧ ∀ a, a ≠ t → levelOf (updTherm t f s) a = levelOf s a := by
  have hmap := fun a => find?_map_key ThermTile.tile (f := fun x => if x.tile == t then f x else x)
    (fun x => by split <;> simp [hf]) a s.therm.tiles
  have hread : ∀ a, levelOf (updTherm t f s) a =
      (((s.therm.tiles.find? fun x => x.tile == a).map fun x => if x.tile == t then f x else x).map (·.level)).getD 0 :=
    fun a => congrArg (fun o : Option ThermTile => (o.map ThermTile.level).getD 0) (hmap a)
  refine ⟨fun hhas => ?_, fun a ha => ?_⟩
  · rw [hread]
    cases hfind : s.therm.tiles.find? fun x => x.tile == t with
    | none =>
      obtain ⟨y, hy, hyt⟩ := List.any_eq_true.1 hhas
      exact absurd hyt (List.find?_eq_none.1 hfind y hy)
    | some x =>
      have hx : x.tile = t := by simpa using List.find?_some hfind
      simp [hx, hl]
  · rw [hread]
    unfold levelOf
    cases hfind : s.therm.tiles.find? fun x => x.tile == a with
    | none => rfl
    | some x =>
      have hx : x.tile = a := by simpa using List.find?_some hfind
      simp [hx, ha]

theorem hasLevel_of_pos {s : State} {t : Nat} (h : 0 < levelOf s t) : hasLevel s t := by
  unfold levelOf at h
  cases hfind : s.therm.tiles.find? fun x => x.tile == t with
  | none => simp [hfind] at h
  | some x => exact List.any_eq_true.2 ⟨x, List.mem_of_find?_eq_some hfind, List.find?_some (p := fun x : ThermTile => x.tile == t) hfind⟩

/-- Setting a tile's level changes that level alone, and what follows stays on the host side. -/
theorem setLevel_spec (t l cause : Nat) (trig : Trig) (s : State) :
    OnlyThermal s (setLevel t l cause trig s) ∧ (setLevel t l cause trig s).therm.sensors = s.therm.sensors ∧
      (tileUp s t = true → (hasLevel s t ∨ levelOf s t = l) → levelOf (setLevel t l cause trig s) t = l) ∧
      ∀ a, a ≠ t → levelOf (setLevel t l cause trig s) a = levelOf s a := by
  unfold setLevel
  by_cases hskip : (!tileUp s t || levelOf s t == l) = true
  · rw [if_pos hskip]
    refine ⟨(OnlyHostSide.refl s).onlyThermal, rfl, fun hup _ => ?_, fun _ _ => rfl⟩
    simpa [hup] using hskip
  · rw [if_neg hskip]
    obtain ⟨hself, hothers⟩ := levelOf_updTherm (f := fun x => { x with
      level := l, changedMs := s.nowMs, trig := if cause == 5 || cause == 2 then x.trig else trig }) (fun _ => rfl) (fun _ => rfl) t s
    have htherm := therm_anaRefresh (logEv .thermalThrottle t [l, cause] (updTherm t (fun x => { x with
      level := l, changedMs := s.nowMs, trig := if cause == 5 || cause == 2 then x.trig else trig }) s))
    refine ⟨?_, ?_, fun _ hhas => ?_, fun a ha => ?_⟩
    · exact ((onlyThermal_updTherm t _ s).trans (onlyThermal_logEv _ _ _ _)).trans (onlyHostSide_anaRefresh _).onlyThermal
    · rw [htherm]
      rfl
    · rw [levelOf_of_therm htherm]
      have hne : ¬levelOf s t = l := fun h => hskip (by simp [h])
      exact hself (hhas.resolve_right hne)
    · rw [levelOf_of_therm htherm]
      exact hothers a ha

theorem raiseLevel_spec {t : Nat} (cause : Nat) (trig : Trig) {s : State} (hup : tileUp s t = true) (hhas : hasLevel s t) :
    OnlyThermal s (raiseLevel t cause trig s) ∧ (raiseLevel t cause trig s).therm.sensors = s.therm.sensors ∧
      levelOf (raiseLevel t cause trig s) t = min 7 (levelOf s t + 1) ∧
      ∀ a, a ≠ t → levelOf (raiseLevel t cause trig s) a = levelOf s a := by
  obtain ⟨honly, hsens, hlevel, hothers⟩ := setLevel_spec t (min 7 (levelOf s t + 1)) cause trig s
  exact ⟨honly, hsens, hlevel hup (.inl hhas), hothers⟩

/-- A faulty sensor lifts its tile's level to 2 at least (R390). -/
theorem applyFloor_spec {t : Nat} {s : State} (hup : tileUp s t = true) {x : Sensor} (hx : x ∈ s.therm.sensors) (htile : x.tile = t)
    (hfaulty : x.faulty = true) :
    OnlyThermal s (applyFloor t s) ∧ (applyFloor t s).therm.sensors = s.therm.sensors ∧ (hasLevel s t → 2 ≤ levelOf (applyFloor t s) t) := by
  have hcount : 1 ≤ faultyCount s t :=
    List.length_pos_iff_exists_mem.2 ⟨x, List.mem_filter.2 ⟨hx, by simp [htile, hfaulty]⟩⟩
  have hfloor : 2 ≤ levelFloor s t := by
    unfold levelFloor
    split
    · omega
    · exact le_rfl
  unfold applyFloor
  by_cases hlow : levelOf s t < levelFloor s t
  · rw [if_pos hlow]
    obtain ⟨honly, hsens, hlevel, -⟩ := setLevel_spec t (levelFloor s t) 2 .none s
    exact ⟨honly, hsens, fun hhas => by rw [hlevel hup (.inl hhas)]; exact hfloor⟩
  · rw [if_neg hlow]
    exact ⟨(OnlyHostSide.refl s).onlyThermal, rfl, fun _ => by omega⟩

theorem throttleFall_of_cool {t : Nat} {s : State} (hpos : 0 < levelOf s t) (hfloor : levelFloor s t = 0) (hdram : dramOver s t = false)
    (hcool : ∀ x ∈ plausible s t, x.2 < 4 * (throttleC s x.1 - hystC s t))
    (hold : ∀ x ∈ s.therm.tiles, x.tile = t → x.changedMs + 1000 ≤ s.nowMs) :
    throttleFall t s = setLevel t (levelOf s t - 1) 5 .none s := by
  have hall : ((plausible s t).all fun x => decide (x.2 < 4 * (throttleC s x.1 - hystC s t))) = true := by simpa using hcool
  have hnone : (s.therm.tiles.any fun x => x.tile == t && decide (s.nowMs < x.changedMs + 1000)) = false := by simpa using hold
  have hne : (levelOf s t == 0) = false := by simpa using hpos.ne'
  simp [throttleFall, hall, hnone, hne, hfloor, hdram]

/-! ### The rate window and the histogram (R393, R396) -/

/-- The present readings begin the next window. -/
def windowBegun (t : Nat) (s : State) : State :=
  { s with therm := { s.therm with
      sensors := s.therm.sensors.map fun x => if x.tile == t then { x with windowRef := x.reading.getD x.windowRef } else x } }

theorem rateWindow_eq (t : Nat) (s : State) :
    rateWindow t s = windowBegun t (if (plausible s t).any (fastRise s) then raiseLevel t 1 .rate s else s) := rfl

theorem windowRef_windowBegun {t : Nat} {s : State} {x : Sensor} (hx : x ∈ (windowBegun t s).therm.sensors) (ht : x.tile = t) {r : Int}
    (hr : x.reading = some r) : x.windowRef = r := by
  obtain ⟨y, -, rfl⟩ := List.mem_map.1 hx
  by_cases hy : y.tile = t
  · simp only [hy, beq_self_eq_true, if_true] at hr ⊢
    rw [hr, Option.getD_some]
  · simp [hy] at ht

/-- A tile's histogram after a minute at a reading. -/
def minuteCounted (x : ThermTile) (r : Int) : ThermTile :=
  { x with hist := x.hist.set (histBin r) (sat 0xFFFFFFFF (x.hist.getD (histBin r) 0 + 1)) }

theorem mem_operatingMinute {s : State} {x : ThermTile} {r : Int} (hx : x ∈ s.therm.tiles) (hup : tileUp s x.tile = true)
    (hhot : hottest s x.tile = some r) : minuteCounted x r ∈ (operatingMinute s).therm.tiles :=
  List.mem_map.2 ⟨x, hx, by simp only [hhot, hup, if_true, minuteCounted]⟩

/-- Settles O16: a sensor and a level read as they are set, and what follows a change of level stays on the host side. -/
theorem temperature : Obligations.Temperature := by
  unfold Obligations.Temperature
  refine ⟨fun tile i r x s hfind hup => ⟨fun hout => ?_, fun hok hlow hhigh hcrit => ?_⟩,
    fun tile i r x s hfind hup hok hlow hhigh hwarned hlimits hcrit hdump hhyst => ?_,
    fun tile i cond x s hfind hup hok => ?_, fun tile i x s hfind hup hfaulty => ?_, fun tile s hup hhas hover => ?_,
    fun tile s hover hdram => ?_, fun tile s hup hpos hfloor hdram hcool hold => ?_,
    fun tile s => ⟨fun hslow => ?_, fun hfast hup hhas hlt => ?_⟩, fun tile s => ⟨_, rfl, rfl⟩, fun s hrun => ?_,
    fun s hrun => ⟨_, rfl, if_neg (by simpa using hrun)⟩⟩
  case refine_1 =>
    obtain ⟨hself, hothers⟩ := findSensor_updSensor_spec
      (f := fun x => { x with reading := some r, peak := if x.reading.isNone then r else max x.peak r }) (fun _ => ⟨rfl, rfl⟩) hfind
    exact ⟨_, congrArg Host.Outcome.next (sensorConversion_of_left_out hfind hup hout), rfl, hself, rfl, hothers⟩
  case refine_2 =>
    obtain ⟨hself, hothers⟩ := findSensor_updSensor_spec
      (f := fun x => { x with reading := some r, peak := if x.reading.isNone then r else max x.peak r }) (fun _ => ⟨rfl, rfl⟩) hfind
    obtain ⟨honly, hwarn, htiles, hwothers⟩ := warnStep_spec (t := tile) (i := i) (r := r) (s := readingTaken tile i r s) hself
    have hgo := sensorConversion_of_plausible hfind hup hok hlow hhigh
    rw [if_neg (not_le.2 hcrit)] at hgo
    have htherm := therm_smartRefresh (warnStep tile i r (readingTaken tile i r s))
    refine ⟨_, congrArg Host.Outcome.next hgo, ((onlyThermal_updSensor tile i _ s).trans honly).trans (onlyThermal_smartRefresh _),
      ?_, ?_, fun a j haj => ?_⟩
    · rw [findSensor_of_therm htherm]
      exact hwarn
    · rw [htherm]
      exact htiles
    · rw [findSensor_of_therm htherm]
      exact (hwothers a j haj).trans (hothers a j haj)
  case refine_3 =>
    obtain ⟨hself, -⟩ := findSensor_updSensor_spec
      (f := fun x => { x with reading := some r, peak := if x.reading.isNone then r else max x.peak r }) (fun _ => ⟨rfl, rfl⟩) hfind
    have hgo := sensorConversion_of_plausible hfind hup hok hlow hhigh
    have hstep : warnStep tile i r (readingTaken tile i r s) = readingTaken tile i r s := by
      have hnot : ¬r ≤ 4 * (warnC s x - hystC s tile) := by omega
      unfold warnStep
      have hself' : findSensor (readingTaken tile i r s) tile i = _ := hself
      simp only [hself', hwarned, Bool.not_true, Bool.false_and, Bool.false_eq_true, if_false, Bool.true_and, decide_eq_true_eq]
      exact if_neg hnot
    have hcritical : criticalStep tile i r (readingTaken tile i r s) =
        fenceTile tile (logEv .thermalCritical tile [i, (r % 2 ^ 32).toNat] (readingTaken tile i r s)) := by
      have hdump' : (readingTaken tile i r s).plp.dump = none := hdump
      simp [criticalStep, hdump']
    rw [if_pos hcrit, hstep, hcritical] at hgo
    exact ⟨_, congrArg Host.Outcome.next hgo, rfl⟩
  case refine_4 =>
    obtain ⟨hself, hothers⟩ := findSensor_updSensor_spec (f := fun x => { x with faulty := true }) (fun _ => ⟨rfl, rfl⟩) hfind
    obtain ⟨hmem, htile, -⟩ := mem_sensors_of_findSensor hself
    have hgo : sensorFault tile i cond s = smartRefresh (applyFloor tile (logEv .sensorFault tile [i, cond]
        (updSensor tile i (fun x => { x with faulty := true }) s))) := by
      simp [sensorFault, hfind, hok, hup]
    obtain ⟨honly, hsens, hlevel⟩ := applyFloor_spec (t := tile)
      (s := logEv .sensorFault tile [i, cond] (updSensor tile i (fun x => { x with faulty := true }) s)) hup hmem htile rfl
    generalize hu : applyFloor tile _ = u at hgo honly hsens hlevel
    have htherm := therm_smartRefresh u
    have hsame : ∀ a j, findSensor (smartRefresh u) a j = findSensor (updSensor tile i (fun x => { x with faulty := true }) s) a j := by
      intro a j
      rw [findSensor_of_therm htherm]
      exact congrArg (List.find? fun x : Sensor => x.tile == a && x.idx == j) hsens
    refine ⟨_, congrArg Host.Outcome.next hgo, ?_, (hsame tile i).trans hself, fun a j haj => (hsame a j).trans (hothers a j haj),
      fun hhas => ?_⟩
    · exact (((onlyThermal_updSensor tile i _ s).trans (onlyThermal_logEv _ _ _ _)).trans honly).trans (onlyThermal_smartRefresh _)
    · rw [levelOf_of_therm htherm]
      exact hlevel hhas
  case refine_5 =>
    obtain ⟨hself, hothers⟩ := findSensor_updSensor_spec (f := fun x => { x with faulty := false }) (fun _ => ⟨rfl, rfl⟩) hfind
    have hgo : sensorRestored tile i s =
        smartRefresh (logEv .sensorRestored tile [i] (updSensor tile i (fun x => { x with faulty := false }) s)) := by
      simp [sensorRestored, hfind, hfaulty, hup]
    have htherm := therm_smartRefresh (logEv .sensorRestored tile [i] (updSensor tile i (fun x => { x with faulty := false }) s))
    refine ⟨_, congrArg Host.Outcome.next hgo,
      ((onlyThermal_updSensor tile i _ s).trans (onlyThermal_logEv _ _ _ _)).trans (onlyThermal_smartRefresh _), ?_, ?_, fun a j haj => ?_⟩
    · rw [findSensor_of_therm htherm]
      exact hself
    · rw [htherm]
      rfl
    · rw [findSensor_of_therm htherm]
      exact hothers a j haj
  case refine_6 =>
    have hraise : ∃ cause, (if overThrottle s tile then raiseLevel tile 0 .abs s else
        if dramOver s tile then raiseLevel tile 4 .abs s else s) = raiseLevel tile cause .abs s := by
      by_cases h : overThrottle s tile = true
      · exact ⟨0, if_pos h⟩
      · exact ⟨4, (if_neg h).trans (if_pos (hover.resolve_left h))⟩
    obtain ⟨cause, hgo⟩ := hraise
    obtain ⟨honly, hsens, hlevel, hothers⟩ := raiseLevel_spec cause .abs hup hhas
    exact ⟨_, congrArg Host.Outcome.next hgo, honly, hlevel, hothers, hsens⟩
  case refine_7 =>
    refine ⟨_, rfl, ?_⟩
    simp [hover, hdram]
  case refine_8 =>
    obtain ⟨honly, hsens, hlevel, hothers⟩ := setLevel_spec tile (levelOf s tile - 1) 5 .none s
    exact ⟨_, congrArg Host.Outcome.next (throttleFall_of_cool hpos hfloor hdram hcool hold), honly,
      hlevel hup (.inl (hasLevel_of_pos hpos)), hothers, hsens⟩
  case refine_9 =>
    have hgo : rateWindow tile s = windowBegun tile s := by rw [rateWindow_eq, hslow]; rfl
    exact ⟨_, congrArg Host.Outcome.next hgo, rfl, fun x hx ht r hr => windowRef_windowBegun hx ht hr⟩
  case refine_10 =>
    have hgo : rateWindow tile s = windowBegun tile (raiseLevel tile 1 .rate s) := by rw [rateWindow_eq, hfast]; rfl
    obtain ⟨honly, -, hlevel, hothers⟩ := raiseLevel_spec 1 .rate hup hhas
    refine ⟨_, congrArg Host.Outcome.next hgo, honly.trans (OnlyHostSide.refl _), ?_, hothers⟩
    exact hlevel.trans (by omega)
  case refine_11 =>
    refine ⟨_, congrArg Host.Outcome.next (if_pos (by simpa using hrun)), rfl, rfl, rfl, fun x hx r hup hhot hbin =>
      ⟨minuteCounted x r, mem_operatingMinute hx hup hhot, rfl, ?_, fun b hb => ?_⟩⟩
    · simp [minuteCounted, List.getD_eq_getElem?_getD, hbin]
    · simp [minuteCounted, List.getD_eq_getElem?_getD, hb.symm]

end Sys2Proof.Machine
end

section
/-!
PROOFS. Power and rails (R406 to R411): the estimate, the power limit, and the adaptive rails; a rail set reads as set and no other changes.
-/
namespace Sys2Proof.Machine
open Sys2Proof

/-! ### The estimate (R409, R410) -/

theorem sat_of_le {m n : Nat} (h : n ≤ m) : sat m n = n := if_pos h

/-! ### Levels raised on several tiles (R392, R408, R411) -/

theorem hasLevel_of_therm {s t : State} (h : t.therm = s.therm) (a : Nat) : hasLevel t a ↔ hasLevel s a := by
  simp only [hasLevel, h]

theorem hasLevel_updTherm {f : ThermTile → ThermTile} (hf : ∀ x, (f x).tile = x.tile) (t : Nat) (s : State) (a : Nat) :
    hasLevel (updTherm t f s) a ↔ hasLevel s a := by
  have hkey : ∀ x : ThermTile, (if x.tile == t then f x else x).tile = x.tile := fun x => by split <;> simp [hf]
  simp only [hasLevel, updTherm, List.any_map, Function.comp_def, hkey]

theorem hasLevel_setLevel (t l cause : Nat) (trig : Trig) (s : State) (a : Nat) :
    hasLevel (setLevel t l cause trig s) a ↔ hasLevel s a := by
  unfold setLevel
  by_cases hskip : (!tileUp s t || levelOf s t == l) = true
  · rw [if_pos hskip]
  · rw [if_neg hskip]
    exact (hasLevel_of_therm (therm_anaRefresh _) a).trans (hasLevel_updTherm
      (f := fun x => { x with level := l, changedMs := s.nowMs, trig := if cause == 5 || cause == 2 then x.trig else trig })
      (fun _ => rfl) t s a)

theorem OnlyThermal.tileUp_eq {s t : State} (h : OnlyThermal s t) (a : Nat) : tileUp t a = tileUp s a := by
  rw [h.1]
  rfl

/-- Every tile named that is up and has a level rises by one; no other level changes. -/
theorem foldl_raiseLevel_spec (cause : Nat) (trig : Trig) : ∀ (l : List Nat) (s : State), l.Nodup →
    OnlyThermal s (l.foldl (fun s t => raiseLevel t cause trig s) s) ∧
      (l.foldl (fun s t => raiseLevel t cause trig s) s).therm.sensors = s.therm.sensors ∧
      (∀ a ∈ l, tileUp s a = true → hasLevel s a →
        levelOf (l.foldl (fun s t => raiseLevel t cause trig s) s) a = min 7 (levelOf s a + 1)) ∧
      ∀ a ∉ l, levelOf (l.foldl (fun s t => raiseLevel t cause trig s) s) a = levelOf s a
  | [], s, _ => ⟨(OnlyHostSide.refl s).onlyThermal, rfl, fun a ha => absurd ha (List.not_mem_nil), fun _ _ => rfl⟩
  | t :: l, s, hnodup => by
    obtain ⟨hnot, hrest⟩ := List.nodup_cons.1 hnodup
    obtain ⟨honly, hsens, hlevel, hothers⟩ := setLevel_spec t (min 7 (levelOf s t + 1)) cause trig s
    obtain ⟨honly', hsens', hlevel', hothers'⟩ := foldl_raiseLevel_spec cause trig l (raiseLevel t cause trig s) hrest
    refine ⟨honly.trans honly', hsens'.trans hsens, fun a ha hup hhas => ?_, fun a ha => ?_⟩
    · rcases List.mem_cons.1 ha with rfl | ha
      · exact (hothers' a hnot).trans (hlevel hup (.inl hhas))
      · have hne : a ≠ t := fun h => hnot (h ▸ ha)
        have hrise := hlevel' a ha ((honly.tileUp_eq a).trans hup) ((hasLevel_setLevel t _ cause trig s a).2 hhas)
        rw [List.foldl_cons, hrise]
        exact congrArg (fun n => min 7 (n + 1)) (hothers a hne)
    · obtain ⟨hne, ha⟩ := not_or.1 (fun h => ha (List.mem_cons.2 h))
      exact (hothers' a ha).trans (hothers a hne)

/-- The state in which the excursion above the power limit has been noted. -/
def overNoted (avg : Nat) (s : State) : State :=
  if s.power.overLimit then s else logEv .powerLimit 15 [avg] (updPower (fun p => { p with overLimit := true }) s)

theorem overNoted_spec (avg : Nat) (s : State) :
    OnlyHostSide { s with power := { s.power with overLimit := true } } (overNoted avg s) ∧ (overNoted avg s).therm = s.therm := by
  unfold overNoted
  by_cases hover : s.power.overLimit = true
  · rw [if_pos hover]
    have hsame : ({ s.power with overLimit := true } : Power) = s.power := by rw [← hover]
    rw [hsame]
    exact ⟨.refl s, rfl⟩
  · rw [if_neg hover]
    exact ⟨onlyHostSide_logEv _ _ _ _, rfl⟩

theorem nodup_eraseDups {α : Type} [BEq α] [LawfulBEq α] : ∀ l : List α, l.eraseDups.Nodup
  | [] => List.nodup_nil
  | x :: l => by
    have hlen : (l.filter fun y => !y == x).length < l.length + 1 := Nat.lt_succ_of_le (List.length_filter_le _ l)
    rw [List.eraseDups_cons]
    exact List.nodup_cons.2 ⟨by simp [List.mem_eraseDups], nodup_eraseDups (l.filter fun y => !y == x)⟩
termination_by l => l.length

theorem nodup_presentTiles (s : State) : (presentTiles s).Nodup := List.nodup_range.filter _

/-! ### Adaptive rails (R406 to R408) -/

/-- The rail named is changed, and no other. -/
theorem findRail_updRail_spec {f : Rail → Rail} (hf : ∀ x, (f x).idx = x.idx) {r : Nat} {s : State} {x : Rail}
    (hfind : findRail s r = some x) :
    findRail (updRail r f s) r = some (f x) ∧ ∀ q, q ≠ r → findRail (updRail r f s) q = findRail s q := by
  have hmap := fun q => find?_map_key Rail.idx (f := fun x => if x.idx == r then f x else x)
    (fun x => by split <;> simp [hf]) q s.power.rails
  refine ⟨(hmap r).trans ?_, fun q hq => (hmap q).trans ?_⟩
  · have hx : x.idx = r := by simpa using List.find?_some hfind
    have hfind' : (s.power.rails.find? fun x => x.idx == r) = some x := hfind
    simp [hfind', hx]
  · unfold findRail
    cases hq' : s.power.rails.find? fun x => x.idx == q with
    | none => rfl
    | some y =>
      have hy : y.idx = q := by simpa using List.find?_some hq'
      simp [hy, hq]

/-- A write of PWR_CFG sets `avs_enable`, and the other fields in the shadow. -/
theorem writeCfg_pwrCfg (v : Nat) (s : State) : ∃ l, writeCfg pkgWin .pwrCfg v s =
    { setFld pkgWin 0 .pwr_cfg_avs_enable (bitsOf v 2 2) s with
      regs := { (setFld pkgWin 0 .pwr_cfg_avs_enable (bitsOf v 2 2) s).regs with shadow := l } } := ⟨_, rfl⟩

theorem railKind_of_regs {s t : State} (h : t.regs = s.regs) (r : Nat) : railKind t r = railKind s r := fld_of_regs h 8 r _

theorem railKind_writeCfg_pwrCfg (v : Nat) (s : State) (r : Nat) : railKind (writeCfg pkgWin .pwrCfg v s) r = railKind s r := by
  obtain ⟨l, h⟩ := writeCfg_pwrCfg v s
  rw [h]
  exact (fld_setFld s pkgWin 0 8 r .pwr_cfg_avs_enable .pwr_rail_cfg_kind _).trans (if_neg (fun h => nomatch h.2.2))

theorem gfld_writeCfg_pwrCfg (v : Nat) (s : State) :
    (writeCfg pkgWin .pwrCfg v s).gfld .pwr_cfg_avs_enable = bitsOf v 2 2 := by
  obtain ⟨l, h⟩ := writeCfg_pwrCfg v s
  rw [h]
  exact (fld_setFld s pkgWin 0 pkgWin 0 .pwr_cfg_avs_enable .pwr_cfg_avs_enable _).trans (if_pos ⟨rfl, rfl, rfl⟩)

/-- The rails at the start of adaptive voltage: an adaptive one without a voltage stands at the power-on one (R407). -/
def railsStarted (k s : State) : State :=
  updPower (fun p => { p with rails := p.rails.map fun x => if railKind k x.idx == 2 && x.vset == 0 then { x with vset := 160 } else x }) s

theorem vset_railsStarted {k s : State} {x : Rail} (hx : x ∈ (railsStarted k s).power.rails) (hkind : railKind k x.idx = 2) :
    x.vset ≠ 0 := by
  obtain ⟨y, -, rfl⟩ := List.mem_map.1 hx
  by_cases hy : (railKind k y.idx == 2 && y.vset == 0) = true
  · simp [hy]
  · rw [if_neg hy] at hkind ⊢
    simpa [hkind] using hy

/-- One PMBus alert of a rail that stands. -/
def alertNoted (r w : Nat) (s : State) : State := logEv .pmbusAlert 15 [r, w] (updRail r (fun x => { x with status := w }) s)

theorem pmbusAlert_of_calm {r w : Nat} {s : State} (hkind : railKind s r ≠ 0) (hw : railAlarm w = false) :
    pmbusAlert [(r, w)] s = alertNoted r w s := by
  simp [pmbusAlert, alertNoted, hkind, hw]

theorem pmbusAlert_of_alarm {r w : Nat} {s : State} (hkind : railKind s r ≠ 0) (hw : railAlarm w = true) :
    pmbusAlert [(r, w)] s = (railTiles s r).foldl (fun s t => raiseLevel t 3 .power s) (alertNoted r w s) := by
  simp [pmbusAlert, alertNoted, hkind, hw]

theorem nodup_railTiles (s : State) (r : Nat) : (railTiles s r).Nodup := by
  unfold railTiles
  split
  · exact (nodup_presentTiles s).filter _
  · exact nodup_presentTiles s

/-- Settles O17: each step acts on the rail, the estimate or the levels it names. -/
theorem powerAndRails : Obligations.PowerAndRails := by
  unfold Obligations.PowerAndRails
  refine ⟨fun measured raw s hmeasured hraw => ⟨fun hfault => ?_, fun hfault => ?_⟩, fun cond s hfault => ?_, fun s => ⟨_, rfl, rfl⟩,
    fun avg order s hunder => ?_, fun avg order s hlimit hover => ?_, fun value s hopen hbit hoff hbad => ?_,
    fun value s hopen hbit hoff hgood => ?_, fun r x s hfind hadapt => ⟨fun hstart => ?_, fun hstart => ?_, ?_⟩,
    fun r x s hfind hfault => ?_, fun r w x s hfind hkind => ⟨fun hw => ?_, fun hw => ?_⟩⟩
  case refine_1 =>
    have hgo : powerScaling measured raw s =
        updPower (fun p => { p with measured := measured, estimated := max (raw / 2) (min (2 * raw) measured) }) s := by
      unfold powerScaling
      rw [hfault, if_neg Bool.false_ne_true, sat_of_le hmeasured, sat_of_le (by omega)]
    exact ⟨_, congrArg Host.Outcome.next hgo, rfl, rfl, le_max_left _ _, by simp only [updPower]; omega,
      fun hlow hhigh => by simp only [updPower]; omega, rfl⟩
  case refine_2 =>
    have hgo : powerScaling measured raw s = updPower (fun p => { p with measured := raw, estimated := raw }) s := by
      unfold powerScaling
      rw [hfault, if_pos rfl, sat_of_le (by omega)]
    exact ⟨_, congrArg Host.Outcome.next hgo, rfl⟩
  case refine_3 => exact ⟨_, congrArg Host.Outcome.next (if_neg (by simp [hfault])), rfl, rfl⟩
  case refine_4 => exact ⟨_, congrArg Host.Outcome.next (if_pos (by simpa using hunder)), rfl⟩
  case refine_5 =>
    have hgo : powerLimit avg order s =
        ((order ++ presentTiles s).eraseDups).foldl (fun s t => raiseLevel t 3 .power s) (overNoted avg s) :=
      if_neg (by simp [hlimit, hover])
    obtain ⟨hnoted, htherm⟩ := overNoted_spec avg s
    obtain ⟨honly, hsens, hlevel, -⟩ :=
      foldl_raiseLevel_spec 3 .power _ (overNoted avg s) (nodup_eraseDups (order ++ presentTiles s))
    refine ⟨_, congrArg Host.Outcome.next hgo, (hnoted.onlyThermal).trans honly, hsens.trans (congrArg Therm.sensors htherm),
      fun a ha hup hhas => ?_⟩
    rw [hlevel a (List.mem_eraseDups.2 (List.mem_append_right _ ha)) ((hnoted.onlyThermal.tileUp_eq a).trans hup)
      ((hasLevel_of_therm htherm a).2 hhas), levelOf_of_therm htherm]
  case refine_6 =>
    have hany : ((List.range 16).any fun r => railKind s r == 2 && decide (railMax s r < railMin s r)) = true := by
      obtain ⟨r, hr, hk, hlt⟩ := hbad
      exact List.any_eq_true.2 ⟨r, List.mem_range.2 hr, by simp [hk, hlt]⟩
    have hgo : avsEnable value s = reject 15 (bar0 pkgWin 0 .pwrCfg) 4 (writeCfg pkgWin .pwrCfg (value - 4) s) :=
      if_pos (by rw [hbit, hoff, hany]; rfl)
    exact ⟨_, congrArg Host.Outcome.next ((if_pos hopen).trans hgo), rfl⟩
  case refine_7 =>
    have hany : ((List.range 16).any fun r => railKind s r == 2 && decide (railMax s r < railMin s r)) = false := by
      simpa using hgood
    have hset : (writeCfg pkgWin .pwrCfg value s).gfld .pwr_cfg_avs_enable = 1 := by
      rw [gfld_writeCfg_pwrCfg]
      simpa [bitOf, bitsOf] using hbit
    have hgo : avsEnable value s = railsStarted s (writeCfg pkgWin .pwrCfg value s) := by
      simp only [avsEnable, hany, hset, hbit, hoff, railsStarted]
      rfl
    have hkind : ∀ r, railKind (railsStarted s (writeCfg pkgWin .pwrCfg value s)) r = railKind s r := fun r =>
      (railKind_of_regs (t := railsStarted s (writeCfg pkgWin .pwrCfg value s)) rfl r).trans (railKind_writeCfg_pwrCfg value s r)
    refine ⟨_, congrArg Host.Outcome.next ((if_pos hopen).trans hgo), hset, rfl, fun x hx hx2 => ?_⟩
    exact vset_railsStarted hx ((hkind x.idx).symm.trans hx2)
  case refine_8 =>
    obtain ⟨hself, hothers⟩ := findRail_updRail_spec
      (f := fun x => { x with vset := if railMin s r < x.vset then x.vset - 1 else x.vset }) (fun _ => rfl) hfind
    exact ⟨_, congrArg Host.Outcome.next (if_pos (by simp [hadapt, hstart])), rfl, hself, hothers⟩
  case refine_9 => exact ⟨_, congrArg Host.Outcome.next (if_neg (by simp [hstart])), rfl⟩
  case refine_10 =>
    obtain ⟨hself, hothers⟩ := findRail_updRail_spec
      (f := fun x => { x with vset := max x.vset (min (railMax s r) (x.vset + 2)) }) (fun _ => rfl) hfind
    refine ⟨_, congrArg Host.Outcome.next (if_pos hadapt), rfl, ⟨_, hself, le_max_left _ _, fun h => ?_, fun h => ?_⟩, hothers⟩
    · simp only
      omega
    · simp only
      omega
  case refine_11 =>
    obtain ⟨hself, hothers⟩ := findRail_updRail_spec (f := fun x => { x with fault := true }) (fun _ => rfl) hfind
    refine ⟨_, congrArg Host.Outcome.next (if_pos (by simp [hfind, hfault])), rfl, hself, ?_, hothers, rfl⟩
    have hself' : findRail (logEv .pmbusFault 15 [r] (updRail r (fun x => { x with fault := true }) s)) r = some { x with fault := true } :=
      hself
    simp [railAdaptive, hself']
  case refine_12 =>
    obtain ⟨hself, hothers⟩ := findRail_updRail_spec (f := fun x => { x with status := w }) (fun _ => rfl) hfind
    exact ⟨_, congrArg Host.Outcome.next (pmbusAlert_of_calm hkind hw), rfl, hself, hothers, rfl⟩
  case refine_13 =>
    obtain ⟨hself, -⟩ := findRail_updRail_spec (f := fun x => { x with status := w }) (fun _ => rfl) hfind
    obtain ⟨honly, -, hlevel, -⟩ := foldl_raiseLevel_spec 3 .power (railTiles s r) (alertNoted r w s) (nodup_railTiles s r)
    generalize hu : (railTiles s r).foldl (fun s t => raiseLevel t 3 .power s) (alertNoted r w s) = u at honly hlevel
    have hpower : u.power = (alertNoted r w s).power := by rw [honly.1]
    refine ⟨u, congrArg Host.Outcome.next ((pmbusAlert_of_alarm hkind hw).trans hu), ?_, ?_, fun a ha hup hhas => hlevel a ha hup hhas⟩
    · rw [hpower]
      exact (onlyThermal_logEv .pmbusAlert 15 [r, w] (updRail r (fun x => { x with status := w }) s)).trans honly
    · exact (congrArg (List.find? fun x : Rail => x.idx == r) (congrArg Power.rails hpower)).trans hself

end Sys2Proof.Machine
end

section
/-!
PROOFS. The rings of the board port (R470 to R476): an index set reads as set, the fields of an entry read as they were laid, and what a
response puts into the response ring.
-/
namespace Sys2Proof.Machine
open Sys2Proof

/-! ### Bytes of a structure (R15) -/

theorem toLE_succ (n v : Nat) : toLE (n + 1) v = BitVec.ofNat 8 v :: toLE n (v / 256) := by
  unfold toLE
  rw [List.range_succ_eq_map, List.map_cons, List.map_map]
  simp [Function.comp_def, Nat.pow_succ', Nat.div_div_eq_div_mul]

theorem ofLE_toLE : ∀ n v : Nat, ofLE (toLE n v) = v % 256 ^ n
  | 0, v => (Nat.mod_one v).symm
  | n + 1, v => by
    have hmod := Nat.mod_mul (x := v) (a := 256) (b := 256 ^ n)
    rw [← Nat.pow_succ'] at hmod
    rw [toLE_succ, ofLE, ofLE_toLE n (v / 256), BitVec.toNat_ofNat]
    exact hmod.symm

theorem take_toLE {n m : Nat} (h : n ≤ m) (v : Nat) : (toLE m v).take n = toLE n v := by
  unfold toLE
  rw [← List.map_take, List.take_range, Nat.min_eq_left h]

theorem drop_toLE : ∀ k m v : Nat, (toLE (k + m) v).drop k = toLE m (v / 256 ^ k)
  | 0, m, v => by simp
  | k + 1, m, v => by
    rw [Nat.add_right_comm, toLE_succ, List.drop_succ_cons, drop_toLE k m (v / 256), Nat.pow_succ', Nat.div_div_eq_div_mul]

theorem length_layBytes (n : Nat) (fs : List Field) : (layBytes n fs).length = n := by simp [layBytes, toLE]

/-- A field of a structure reads as the structure's number has it there. -/
theorem fieldAt_toLE {k n m : Nat} (h : k + n ≤ m) (v : Nat) : fieldAt (toLE m v) k n = v / 256 ^ k % 256 ^ n := by
  obtain ⟨j, rfl⟩ := Nat.exists_eq_add_of_le h
  unfold fieldAt
  rw [Nat.add_assoc, drop_toLE, take_toLE (Nat.le_add_right n j), ofLE_toLE]

theorem fieldAt_layBytes {k n m : Nat} (h : k + n ≤ m) (fs : List Field) :
    fieldAt (layBytes m fs) k n = (fs.map fun f => f.2.2 % 256 ^ f.2.1 * 256 ^ f.1).sum / 256 ^ k % 256 ^ n := fieldAt_toLE h _

theorem ofLE_lt : ∀ b : Bytes, ofLE b < 256 ^ b.length
  | [] => Nat.one_pos
  | x :: b => by
    have hx : x.toNat < 256 := x.isLt
    have hb := ofLE_lt b
    rw [ofLE, List.length_cons, Nat.pow_succ']
    omega

theorem descField_lt (d : Bytes) (k n : Nat) : descField d k n < 256 ^ n :=
  (ofLE_lt _).trans_le (Nat.pow_le_pow_right (by decide) (List.length_take_le _ _))

/-! ### Indices (R470) -/

theorem key_ringOf (s : State) (k : Nat) : (ringOf s k).k = k := by
  unfold ringOf
  cases h : s.board.rings.find? fun r => r.k == k with
  | none => rfl
  | some r => exact beq_iff_eq.1 (List.find?_some (p := fun r : Ring => r.k == k) h)

theorem ringOf_of_rings {s t : State} (h : t.board.rings = s.board.rings) (k : Nat) : ringOf t k = ringOf s k := by
  simp only [ringOf, h]

/-- The ring put is read under its number, and every other as before. -/
theorem ringOf_putRing (r : Ring) (s : State) : ((s.board.rings.any fun x => x.k == r.k) = true → ringOf (putRing r s) r.k = r) ∧
    ∀ k, k ≠ r.k → ringOf (putRing r s) k = ringOf s k := by
  have hmap := fun k => find?_map_key Ring.k (f := fun x => if x.k == r.k then r else x)
    (fun x => by by_cases hx : x.k = r.k <;> simp [hx]) k s.board.rings
  have hread : ∀ k, ringOf (putRing r s) k = (((s.board.rings.find? fun x => x.k == k).map fun x => if x.k == r.k then r else x)).getD
      { k := k, head := 0, tail := 0, unsignalled := 0 } :=
    fun k => congrArg (fun o : Option Ring => o.getD { k := k, head := 0, tail := 0, unsignalled := 0 }) (hmap k)
  refine ⟨fun hany => ?_, fun k hk => ?_⟩
  · rw [hread]
    cases hfind : s.board.rings.find? fun x => x.k == r.k with
    | none =>
      obtain ⟨y, hy, hyk⟩ := List.any_eq_true.1 hany
      exact absurd hyk (List.find?_eq_none.1 hfind y hy)
    | some x =>
      have hx : x.k = r.k := by simpa using List.find?_some hfind
      simp [hx]
  · rw [hread]
    unfold ringOf
    cases hfind : s.board.rings.find? fun x => x.k == k with
    | none => rfl
    | some x =>
      have hx : x.k = k := by simpa using List.find?_some hfind
      simp [hx, hk]

/-! ### Responses (R476) -/

/-- The fields of a response. -/
def responseFields (d : RunDesc) (ringStatus nvme dw0 dw1 xfer : Nat) : List Field :=
  [(0, 2, descField d.bytes 2 2), (2, 1, ringStatus), (4, 2, nvme), (8, 4, dw0), (12, 4, dw1), (16, 4, xfer), (20, 2, d.index)]

/-- The descriptor that ran is over, and counted. -/
def runEnded (s : State) : State :=
  chargeOver s.mgmt.primary (fun m => { m with commands := m.commands + 1 })
    { s with board := { s.board with running := none, busy := false } }

theorem respond_of_running {d : RunDesc} {s : State} (hrun : s.board.running = some d) (hdrop : d.drop = false) (hon : ringOn s 1 = true)
    (rs nvme dw0 dw1 xfer : Nat) : respond rs nvme dw0 dw1 xfer s = pushRing 1 (responseFields d rs nvme dw0 dw1 xfer) (runEnded s) := by
  have hgo : (d.drop || !ringOn (runEnded s) 1) = false := by
    rw [hdrop, show ringOn (runEnded s) 1 = true from hon]
    rfl
  simp only [respond, hrun]
  exact if_neg (ne_of_eq_of_ne hgo Bool.false_ne_true)

theorem pushRing_frame (k : Nat) (d : List Field) (s : State) :
    pushRing k d s = { s with board := { s.board with rings := (pushRing k d s).board.rings }, outs := (pushRing k d s).outs } ∧
      .ringEntry k (ringOf s k).tail (entryBytes k d) ∈ (pushRing k d s).outs := by
  unfold pushRing
  dsimp only
  split
  · exact ⟨rfl, by simp [emit]⟩
  · exact ⟨rfl, by simp [emit]⟩

theorem sum_map_seven (f : Field → Nat) (a b c d e g h : Field) :
    ([a, b, c, d, e, g, h].map f).sum = f a + f b + f c + f d + f e + f g + f h := by
  simp [Nat.add_assoc]

theorem entryBytes_response (d : List Field) : entryBytes 1 d = layBytes 32 d := rfl

/-- The number that a response spells. -/
theorem sum_responseFields (d : RunDesc) (rs nvme dw0 dw1 xfer : Nat) :
    ((responseFields d rs nvme dw0 dw1 xfer).map fun f => f.2.2 % 256 ^ f.2.1 * 256 ^ f.1).sum =
      descField d.bytes 2 2 % 65536 * 1 + rs % 256 * 65536 + nvme % 65536 * 256 ^ 4 + dw0 % 4294967296 * 256 ^ 8 +
      dw1 % 4294967296 * 256 ^ 12 + xfer % 4294967296 * 256 ^ 16 + d.index % 65536 * 256 ^ 20 :=
  sum_map_seven _ _ _ _ _ _ _ _

/-- The bytes of a response, field by field. -/
theorem response_fields (d : RunDesc) {rs nvme : Nat} (dw0 dw1 xfer : Nat) (hrs : rs < 256) (hnvme : nvme < 65536) :
    let e := entryBytes 1 (responseFields d rs nvme dw0 dw1 xfer)
    e.length = 32 ∧ fieldAt e 0 2 = descField d.bytes 2 2 ∧ fieldAt e 2 1 = rs ∧ fieldAt e 4 2 = nvme ∧ fieldAt e 8 4 = dw0 % 2 ^ 32 ∧
      fieldAt e 20 2 = d.index % 2 ^ 16 := by
  have htag : descField d.bytes 2 2 < 65536 := descField_lt d.bytes 2 2
  have hat := fun k n (h : k + n ≤ 32) => fieldAt_layBytes h (responseFields d rs nvme dw0 dw1 xfer)
  rw [entryBytes_response]
  intro e
  rw [hat 0 2 (by omega), hat 2 1 (by omega), hat 4 2 (by omega), hat 8 4 (by omega), hat 20 2 (by omega),
    sum_responseFields]
  refine ⟨length_layBytes _ _, ?_⟩
  omega

/-- A response that is not dropped enters the response ring, and nothing else changes but the meters. -/
theorem respond_spec {d : RunDesc} {s : State} (hrun : s.board.running = some d) (hdrop : d.drop = false) (hon : ringOn s 1 = true)
    (rs nvme dw0 dw1 xfer : Nat) :
    let t := respond rs nvme dw0 dw1 xfer s
    t = { s with board := t.board, outs := t.outs, clock := { s.clock with meters := t.clock.meters } } ∧ t.board.running = none ∧
      .ringEntry 1 (ringOf s 1).tail (entryBytes 1 (responseFields d rs nvme dw0 dw1 xfer)) ∈ t.outs := by
  obtain ⟨hframe, hmem⟩ := pushRing_frame 1 (responseFields d rs nvme dw0 dw1 xfer) (runEnded s)
  rw [respond_of_running hrun hdrop hon]
  refine ⟨?_, ?_, hmem⟩
  · rw [hframe]
    rfl
  · rw [hframe]
    rfl

end Sys2Proof.Machine
end

section
/-!
PROOFS. The reference clocks (R397 to R400) and the sleep of tiles and package (R378, R402 to R404).
-/
namespace Sys2Proof.Machine
open Sys2Proof

/-! ### Reference clocks -/

theorem refclkLost_active {s : State} (hactive : s.clk.active = 0) (hb : s.clk.bOk = true) :
    refclkLost 0 s = useRef 1 (updClk (setRef 0 false) s) := by
  have hok : refOk (updClk (setRef 0 false) s).clk (1 - 0) = true := hb
  simp only [refclkLost, hactive, hok]
  rfl

theorem refclkLost_spare {s : State} (hactive : s.clk.active = 0) : refclkLost 1 s = updClk (setRef 1 false) s :=
  if_neg (by simp [hactive])

theorem refclkRevert_of_pref {s : State} (hhold : s.clk.holdover = false) (hpref : s.gfld .clk_cfg_ref_pref = 0)
    (hactive : s.clk.active = 1) : refclkRevert s =
      if s.gfld .clk_cfg_ref_revert = 1 then useRef 0 (updClk (setRef 0 true) s) else updClk (setRef 0 true) s := by
  simp [refclkRevert, hhold, hpref, hactive]

theorem refOk_setRef_other {r : Nat} (hr : r ≤ 1) (ok : Bool) (c : Clk) : refOk (setRef r ok c) (1 - r) = refOk c (1 - r) := by
  interval_cases r <;> rfl

theorem refOk_setRef_self (r : Nat) (ok : Bool) (c : Clk) : refOk (setRef r ok c) r = ok := by
  by_cases hr : r = 0 <;> simp [refOk, setRef, hr]

/-! ### Sleep -/

/-- The sleep of a tile is set on that tile. -/
theorem sleep_setSleep {t n : Nat} {s : State} {x : ThermTile} (hx : x ∈ (setSleep t n s).therm.tiles) (ht : x.tile = t) : x.sleep = n := by
  obtain ⟨y, -, rfl⟩ := List.mem_map.1 hx
  by_cases hy : y.tile = t
  · simp [hy]
  · simp [hy] at ht

theorem levelOf_setSleep (t n : Nat) (s : State) (a : Nat) : levelOf (setSleep t n s) a = levelOf s a := by
  have hmap := find?_map_key ThermTile.tile (f := fun x => if x.tile == t then { x with sleep := n } else x)
    (fun x => by split <;> rfl) a s.therm.tiles
  refine (congrArg (fun o : Option ThermTile => (o.map ThermTile.level).getD 0) hmap).trans ?_
  have hlevel : ∀ x : ThermTile, (if x.tile == t then { x with sleep := n } else x).level = x.level := fun x => by split <;> rfl
  simp only [Option.map_map, Function.comp_def, hlevel, levelOf]

/-- A channel with its ranks powered down. -/
def ranksDown (d : Dram) : Dram := { d with ranks := d.ranks.map fun r => { r with down := true } }

theorem lightEntry_of_allowed {t : Nat} {s : State} (hen : s.gfld .pwr_cfg_light_en = 1) (hup : tileUp s t = true) (hpkg : s.island.pkg = 2)
    (hdeep : s.power.deep = 0) (hidle : tileIdle s t = true) :
    lightEntry t s = setSleep t 1 { s with drams := s.drams.map fun d => if d.tile == t && d.ready then ranksDown d else d } :=
  if_pos (by simp [hen, hup, hpkg, hdeep, hidle])

/-- A channel in self-refresh: every rank there, every row closed. -/
def selfRefreshed (d : Dram) : Dram :=
  { d with ranks := d.ranks.map fun r => { r with selfRef := true, down := false, debt := 0 }
           banks := d.banks.map fun b => { b with open_ := none } }

/-- The package in DEEP. -/
def deepEntered (s : State) : State :=
  { updPower (fun p => { p with deep := 2 }) s with
    therm := { s.therm with tiles := s.therm.tiles.map fun x => { x with sleep := 2 } }
    drams := s.drams.map fun d => if d.ready then selfRefreshed d else d }

theorem deepEntry_of_drained {s : State} (hallowed : deepAllowed s = true) (hdeep : s.power.deep ≠ 2) (hdrained : drained s = true) :
    deepEntry s = deepEntered s :=
  (if_neg (by simp [hallowed, hdeep])).trans (if_pos hdrained)

theorem selfRef_deepEntered {s : State} {d : Dram} (hd : d ∈ (deepEntered s).drams) (hready : d.ready = true) {r : DramRank}
    (hr : r ∈ d.ranks) : r.selfRef = true := by
  obtain ⟨e, -, rfl⟩ := List.mem_map.1 hd
  by_cases he : e.ready = true
  · rw [if_pos he] at hr
    obtain ⟨x, -, rfl⟩ := List.mem_map.1 hr
    rfl
  · rw [if_neg he] at hready
    exact absurd hready he

/-- The package awake. -/
def deepLeft (s : State) : State :=
  { updPower (fun p => { p with deep := 0 }) s with
    therm := { s.therm with tiles := s.therm.tiles.map fun x => { x with sleep := 0 } }
    drams := s.drams.map fun d => { d with ranks := d.ranks.map fun r => { r with selfRef := false } } }

theorem leaveDeep_of_deep {s : State} (hdeep : s.power.deep ≠ 0) : leaveDeep s = deepLeft s := if_neg (by simpa using hdeep)

theorem selfRef_deepLeft {s : State} {d : Dram} (hd : d ∈ (deepLeft s).drams) {r : DramRank} (hr : r ∈ d.ranks) : r.selfRef = false := by
  obtain ⟨e, -, rfl⟩ := List.mem_map.1 hd
  obtain ⟨x, -, rfl⟩ := List.mem_map.1 hr
  rfl

/-- Settles O18: each reference or sleep that a command names is set, and nothing else. -/
theorem clocksAndSleep : Obligations.ClocksAndSleep := by
  unfold Obligations.ClocksAndSleep
  refine ⟨fun ppm s hhold => ⟨_, congrArg Host.Outcome.next (if_neg (by simp [hhold])), rfl⟩, fun s hactive hb => ?_,
    fun s hactive => ⟨_, congrArg Host.Outcome.next (refclkLost_spare hactive), rfl⟩,
    fun s hhold hpref hactive => ⟨fun hrevert => ?_, fun hrevert => ?_⟩,
    fun s hhold => ⟨_, congrArg Host.Outcome.next (if_neg (by simp [hhold])), rfl, rfl⟩, fun r s hr hhold hactive => ?_,
    fun s hsynth => ⟨_, congrArg Host.Outcome.next (if_neg (by simp [hsynth])), rfl, rfl⟩, fun s => ⟨_, rfl, rfl⟩,
    fun tile s hen hup hpkg hdeep hidle => ?_, fun tile s hen => ⟨_, congrArg Host.Outcome.next (if_neg (by simp [hen])), rfl⟩,
    fun tile s hdeep => ?_, fun s hallowed hdeep hdrained => ?_, fun s hallowed hdeep hdrained => ?_,
    fun s hallowed => ⟨_, congrArg Host.Outcome.next (if_pos (by simp [hallowed])), rfl⟩, fun s hdeep => ⟨?_, ?_, ⟨_, rfl, rfl⟩⟩⟩
  case refine_1 => exact ⟨_, congrArg Host.Outcome.next (refclkLost_active hactive hb), rfl, rfl, rfl⟩
  case refine_2 =>
    exact ⟨_, congrArg Host.Outcome.next ((refclkRevert_of_pref hhold hpref hactive).trans (if_pos hrevert)), rfl, rfl, rfl⟩
  case refine_3 => exact ⟨_, congrArg Host.Outcome.next ((refclkRevert_of_pref hhold hpref hactive).trans (if_neg hrevert)), rfl⟩
  case refine_4 =>
    have hgo : (if 1 < r then s else if s.clk.holdover then
        (if s.clk.active == r then updClk (fun c => { setRef r true c with holdover := false }) s
          else useRef r (updClk (fun c => { setRef r true c with holdover := false }) s)) else updClk (setRef r true) s) =
        updClk (fun c => { setRef r true c with holdover := false }) s := by
      rw [if_neg (by omega), if_pos hhold, if_pos (by simp [hactive])]
    refine ⟨_, congrArg Host.Outcome.next hgo, rfl, rfl, ?_, refOk_setRef_self r true s.clk, refOk_setRef_other hr true s.clk⟩
    refine Eq.trans ?_ hactive
    unfold updClk setRef
    split <;> rfl
  case refine_5 =>
    refine ⟨_, congrArg Host.Outcome.next (lightEntry_of_allowed hen hup hpkg hdeep hidle), rfl, fun x hx ht => sleep_setSleep hx ht,
      fun d hd ht hready r hr => ?_, fun d hd ht => List.mem_map.2 ⟨d, hd, if_neg (by simp [ht])⟩⟩
    obtain ⟨e, -, rfl⟩ := List.mem_map.1 hd
    by_cases he : (e.tile == tile && e.ready) = true
    · rw [if_pos he] at hr
      obtain ⟨x, -, rfl⟩ := List.mem_map.1 hr
      rfl
    · rw [if_neg he] at ht hready
      exact absurd (by simp [ht, hready]) he
  case refine_6 =>
    exact ⟨_, congrArg Host.Outcome.next (if_pos (by simp [hdeep])), rfl, fun x hx ht => sleep_setSleep hx ht, levelOf_setSleep tile 0 s⟩
  case refine_7 =>
    refine ⟨_, congrArg Host.Outcome.next (deepEntry_of_drained hallowed hdeep hdrained), rfl, fun x hx => ?_, rfl,
      fun d hd hready r hr => selfRef_deepEntered hd hready hr⟩
    obtain ⟨y, -, rfl⟩ := List.mem_map.1 hx
    rfl
  case refine_8 =>
    exact ⟨_, congrArg Host.Outcome.next ((if_neg (by simp [hallowed, hdeep])).trans (if_neg (by simp [hdrained]))), rfl⟩
  case refine_9 =>
    refine ⟨_, congrArg Host.Outcome.next (leaveDeep_of_deep hdeep), rfl, fun x hx => ?_, rfl, fun d hd r hr => selfRef_deepLeft hd hr⟩
    obtain ⟨y, -, rfl⟩ := List.mem_map.1 hx
    rfl
  case refine_10 => exact ⟨_, rfl, rfl⟩

end Sys2Proof.Machine
end

section
/-!
PROOFS. Doorbells, ring enables and descriptors of the board port (R470 to R476, R481).
-/
namespace Sys2Proof.Machine
open Sys2Proof

/-! ### Doorbells (R471) -/

/-- From `s` to `t` nothing but the rings changed, and of them one alone. -/
def OneRing (k : Nat) (r : Ring) (s t : State) : Prop :=
  t = { s with board := { s.board with rings := t.board.rings } } ∧ ringOf t k = r ∧ ∀ j, j ≠ k → ringOf t j = ringOf s j

theorem oneRing_putRing {k : Nat} {r : Ring} {s : State} (hk : r.k = k) (hany : (s.board.rings.any fun x => x.k == k) = true) :
    OneRing k r s (putRing r s) := by
  subst hk
  obtain ⟨hself, hothers⟩ := ringOf_putRing r s
  exact ⟨rfl, hself hany, hothers⟩

theorem cmdTail_of_ok {v : Nat} {s : State} (hon : ringOn s 0 = true) (hv : v < 65536)
    (hok : bellOk s 0 v (ringOf s 0).tail (ringRoom s 0) = true) : cmdTail v s = putRing { ringOf s 0 with tail := v } s := by
  simp [cmdTail, hon, Nat.mod_eq_of_lt hv, hok]

theorem cmdTail_of_bad {v : Nat} {s : State} (hon : ringOn s 0 = true) (hv : v < 65536)
    (hbad : bellOk s 0 v (ringOf s 0).tail (ringRoom s 0) = false) : cmdTail v s = badBell 0 s := by
  simp [cmdTail, hon, Nat.mod_eq_of_lt hv, hbad]

theorem ringHead_of_ok {k v : Nat} {s : State} (hon : ringOn s k = true) (hv : v < 65536)
    (hok : bellOk s k v (ringOf s k).head (ringUsed s k) = true) : ringHead k v s = putRing { ringOf s k with head := v } s := by
  simp [ringHead, hon, Nat.mod_eq_of_lt hv, hok]

theorem ringHead_of_bad {k v : Nat} {s : State} (hon : ringOn s k = true) (hv : v < 65536)
    (hbad : bellOk s k v (ringOf s k).head (ringUsed s k) = false) : ringHead k v s = badBell k s := by
  simp [ringHead, hon, Nat.mod_eq_of_lt hv, hbad]

theorem ringHead_of_off {k v : Nat} {s : State} (hoff : ringOn s k = false) : ringHead k v s = s := by
  simp [ringHead, hoff]

/-! ### Delivery where nothing is due (R124, R480) -/

theorem deliverMeter_of_none {s : State} (hplacing : s.clock.placing = []) (hheld : s.clock.held = []) : deliverMeter s = s := by
  simp [deliverMeter, hplacing, hheld, deliverSteps]

theorem deliverMeter_of_off {s : State} (hoff : ringOn s 2 = false) : deliverMeter s = s := by
  have hone : deliverOne s = none := by
    unfold deliverOne
    split
    · simp [hoff]
    · split
      · rfl
      · simp [hoff]
  unfold deliverMeter
  cases s.clock.placing.length + (s.clock.held.map fun e => e.length + 1).sum with
  | zero => rfl
  | succ n => simp [deliverSteps, hone]

theorem deliverEvents_of_none {s : State} (hlast : s.evr.last < s.evr.evtNext) : deliverEvents s = s := by
  have hzero : s.evr.last + 1 - s.evr.evtNext = 0 := by omega
  simp [deliverEvents, hzero, deliverEventSteps]

theorem deliverEvents_of_off {s : State} (hoff : ringOn s 3 = false) : deliverEvents s = s := by
  have hone : deliverEvent s = none := by simp [deliverEvent, hoff]
  unfold deliverEvents
  cases s.evr.last + 1 - s.evr.evtNext with
  | zero => rfl
  | succ n => simp [deliverEventSteps, hone]

/-! ### Rings started and stopped (R470, R481) -/

/-- The state in which a ring runs with both indices at 0. -/
def ringStarted (k : Nat) (s : State) : State :=
  putRing { k := k, head := 0, tail := 0, unsignalled := 0 } (setFld pkgWin k .bpt_ring_cfg_ring_en 1 s)

theorem ringWrite_of_rise {k v : Nat} {s : State} (hbit : bitOf v 31 = true) (hoff : s.fld pkgWin k .bpt_ring_cfg_ring_en = 0) :
    ringWrite k v s =
      if (writeReg pkgWin k .bptRingCfg (setBit v 31 false) s).fld pkgWin k .bpt_ring_cfg_log2_size < 4 ∨
          16 < (writeReg pkgWin k .bptRingCfg (setBit v 31 false) s).fld pkgWin k .bpt_ring_cfg_log2_size
      then reject 15 (bar0 pkgWin k .bptRingCfg) 14 (writeReg pkgWin k .bptRingCfg (setBit v 31 false) s)
      else deliverEvents (deliverMeter (ringStarted k (writeReg pkgWin k .bptRingCfg (setBit v 31 false) s))) := by
  have hrise : (bitOf v 31 && !(s.fld pkgWin k .bpt_ring_cfg_ring_en == 1)) = true := by rw [hbit, hoff]; rfl
  simp only [ringWrite, hrise, if_true, Bool.or_eq_true, decide_eq_true_eq]
  rfl

/-- From `s` to `t` the recorder's events raised alone changed. -/
def OnlyRaised (s t : State) : Prop := t.evr = { s.evr with raised := t.evr.raised }

theorem OnlyRaised.trans {s t u : State} (h : OnlyRaised s t) (k : OnlyRaised t u) : OnlyRaised s u :=
  Eq.trans k (congrArg (fun x : Evr => { x with raised := u.evr.raised }) h)

theorem onlyRaised_writeField (en : Bool) (w i : Nat) (r : Reg) (v : Nat) (f : Fld) (s : State) :
    OnlyRaised s (writeField en w i r v f s) := by
  unfold writeField
  refine iteInduction (motive := OnlyRaised s) (fun _ => rfl) fun _ => ?_
  split
  case h_6 =>
    refine iteInduction (motive := OnlyRaised s) (fun _ => ?_) fun _ => rfl
    unfold setCfgErr
    split <;> rfl
  all_goals rfl

theorem onlyRaised_writeReg (w i : Nat) (r : Reg) (v : Nat) (s : State) : OnlyRaised s (writeReg w i r v s) := by
  unfold writeReg
  dsimp only
  generalize r.flds = l
  generalize regEnabled s w i r = en
  induction l generalizing s with
  | nil => rfl
  | cons f l ih => exact (onlyRaised_writeField en w i r v f s).trans (ih _)

theorem deliver_ringStarted {k v : Nat} {s : State} (hplacing : s.clock.placing = []) (hheld : s.clock.held = [])
    (hlast : s.evr.last < s.evr.evtNext) :
    deliverEvents (deliverMeter (ringStarted k (writeReg pkgWin k .bptRingCfg v s))) = ringStarted k (writeReg pkgWin k .bptRingCfg v s) := by
  have hclock : (writeReg pkgWin k .bptRingCfg v s).clock = s.clock := by rw [onlyRegs_writeReg pkgWin k .bptRingCfg v s]
  have hlog : (writeReg pkgWin k .bptRingCfg v s).evr.last = s.evr.last ∧ (writeReg pkgWin k .bptRingCfg v s).evr.evtNext = s.evr.evtNext := by
    rw [onlyRaised_writeReg pkgWin k .bptRingCfg v s]
    exact ⟨rfl, rfl⟩
  rw [deliverMeter_of_none (s := ringStarted k _) ((congrArg Clock.placing hclock).trans hplacing) ((congrArg Clock.held hclock).trans hheld)]
  refine deliverEvents_of_none ?_
  exact (hlog.1.trans_lt hlast).trans_eq hlog.2.symm

/-- From `s` to `t` the enables of the rings alone changed. -/
theorem foldl_stopRing (s : State) (l : List Nat) :
    l.foldl (fun s k => setFld pkgWin k .bpt_ring_cfg_ring_en 0 s) s =
      { s with regs := { s.regs with live := (l.foldl (fun s k => setFld pkgWin k .bpt_ring_cfg_ring_en 0 s) s).regs.live } } := by
  induction l generalizing s with
  | nil => rfl
  | cons k l ih =>
    rw [List.foldl_cons, ih]
    rfl

theorem fld_foldl_stopRing (s : State) (l : List Nat) (w i : Nat) (f : Fld) :
    (l.foldl (fun s k => setFld pkgWin k .bpt_ring_cfg_ring_en 0 s) s).fld w i f =
      if w = pkgWin ∧ i ∈ l ∧ f = .bpt_ring_cfg_ring_en then 0 else s.fld w i f := by
  induction l generalizing s with
  | nil => simp
  | cons k l ih =>
    rw [List.foldl_cons, ih, fld_setFld]
    by_cases h : w = pkgWin ∧ i ∈ l ∧ f = .bpt_ring_cfg_ring_en
    · rw [if_pos h, if_pos ⟨h.1, List.mem_cons_of_mem k h.2.1, h.2.2⟩]
    · rw [if_neg h]
      by_cases hk : i = k
      · subst hk
        by_cases hw : w = pkgWin ∧ f = .bpt_ring_cfg_ring_en
        · simp [hw.1, hw.2]
        · rw [if_neg (fun h => hw ⟨h.1, h.2.2⟩), if_neg (fun h => hw ⟨h.1, h.2.2⟩)]
      · rw [if_neg (fun h => hk h.2.1), if_neg (fun h' => h ⟨h'.1, (List.mem_cons.1 h'.2.1).resolve_left hk, h'.2.2⟩)]

/-! ### Descriptors (R473 to R476) -/

/-- The descriptor taken from the command ring. -/
def descTaken (d : Bytes) (s : State) : RunDesc := { bytes := d, index := (ringOf s 0).head, drop := false }

/-- The state in which a descriptor has been taken and its head written back. -/
def fetchedDesc (d : Bytes) (s : State) : State :=
  let h := ((ringOf s 0).head + 1) % ringSize s 0
  let s1 := emit (.writeBack 0 h) (putRing { ringOf s 0 with head := h } s)
  { s1 with board := { s1.board with running := some (descTaken d s), busy := false } }

theorem descriptorFetch_of_fetch {d : Bytes} {ok : Bool} {s : State} (hcan : canFetchDesc s = true) :
    descriptorFetch d ok s = checkDesc d ok (fetchedDesc d s) := by
  simp only [descriptorFetch, hcan]
  rfl

theorem ringOn_one_of_canFetch {s : State} (hcan : canFetchDesc s = true) : ringOn s 1 = true := by
  simp only [canFetchDesc, Bool.and_eq_true] at hcan
  exact hcan.1.1.1.1.1.2

/-- A descriptor that is answered at its fetch leaves a response with its tag and a ring status. -/
theorem respond_fetchedDesc {d : Bytes} {s : State} (hcan : canFetchDesc s = true) {rs : Nat} (hrs : rs < 256) :
    let t := respond rs 0 0 0 0 (fetchedDesc d s)
    t = { s with board := t.board, outs := t.outs, clock := { s.clock with meters := t.clock.meters } } ∧ t.board.running = none ∧
      ∃ e : Bytes, Out.ringEntry 1 (ringOf s 1).tail e ∈ t.outs ∧ e.length = 32 ∧ fieldAt e 0 2 = descField d 2 2 ∧
        fieldAt e 2 1 = rs ∧ fieldAt e 20 2 = (ringOf s 0).head % 2 ^ 16 := by
  have hon : ringOn (fetchedDesc d s) 1 = true := (ringOn_one_of_canFetch hcan : ringOn s 1 = true)
  obtain ⟨hframe, hrun, hmem⟩ := respond_spec (s := fetchedDesc d s) (d := descTaken d s) rfl rfl hon rs 0 0 0 0
  obtain ⟨hlen, htag, hstatus, -, -, hindex⟩ := response_fields (descTaken d s) 0 0 0 hrs (nvme := 0) (by decide)
  have hother : ringOf (fetchedDesc d s) 1 = ringOf s 1 :=
    (ringOf_putRing { ringOf s 0 with head := ((ringOf s 0).head + 1) % ringSize s 0 } s).2 1 (by simp [key_ringOf])
  rw [hother] at hmem
  exact ⟨hframe, hrun, _, hmem, hlen, htag, hstatus, hindex⟩

/-- Settles O27: each doorbell, timer and enable acts on the ring it names, and a descriptor that cannot run is answered. -/
theorem boardRings : Obligations.BoardRings := by
  unfold Obligations.BoardRings
  refine ⟨fun v s hon hv hany => ⟨fun hok => ?_, fun hbad => ?_⟩, fun v s hon hv hany => ⟨fun hok => ?_, fun hbad => ?_⟩,
    fun v s hon hv hok hplacing hheld hany => ?_, fun v s hon hv hok hlast hany => ?_, fun v s => ⟨?_, ?_, ?_, ?_⟩,
    fun k s h1 h3 hon hany => ⟨fun hun => ?_, fun hun => ?_⟩, fun k value s hk hopen hbit hoff hany hplacing hheld hlast => ⟨?_, ?_⟩,
    fun s hpkg => ?_, fun d m s hcan hform hmoves hrefuses hm hany => ?_, fun d ok s hcan hform => ?_, fun d ok s hcan hform hmoves => ?_,
    fun d ok s hcan => ⟨_, congrArg Host.Outcome.next (if_pos (by simp [hcan])), rfl⟩⟩
  case refine_1 => exact ⟨_, congrArg Host.Outcome.next (cmdTail_of_ok hon hv hok), oneRing_putRing (key_ringOf s 0) hany⟩
  case refine_2 => exact ⟨_, congrArg Host.Outcome.next (cmdTail_of_bad hon hv hbad), rfl⟩
  case refine_3 => exact ⟨_, congrArg Host.Outcome.next (ringHead_of_ok hon hv hok), oneRing_putRing (key_ringOf s 1) hany⟩
  case refine_4 => exact ⟨_, congrArg Host.Outcome.next (ringHead_of_bad hon hv hbad), rfl⟩
  case refine_5 =>
    have hgo : deliverMeter (ringHead 2 v s) = putRing { ringOf s 2 with head := v } s := by
      rw [ringHead_of_ok hon hv hok]
      exact deliverMeter_of_none hplacing hheld
    exact ⟨_, congrArg Host.Outcome.next hgo, oneRing_putRing (key_ringOf s 2) hany⟩
  case refine_6 =>
    have hgo : deliverEvents (ringHead 3 v s) = putRing { ringOf s 3 with head := v } s := by
      rw [ringHead_of_ok hon hv hok]
      exact deliverEvents_of_none hlast
    exact ⟨_, congrArg Host.Outcome.next hgo, oneRing_putRing (key_ringOf s 3) hany⟩
  case refine_7 => exact fun hoff => ⟨_, congrArg Host.Outcome.next (if_pos (by simp [hoff])), rfl⟩
  case refine_8 => exact fun hoff => ⟨_, congrArg Host.Outcome.next (ringHead_of_off hoff), rfl⟩
  case refine_9 =>
    intro hoff
    have hgo : deliverMeter (ringHead 2 v s) = s := by rw [ringHead_of_off hoff, deliverMeter_of_off hoff]
    exact ⟨_, congrArg Host.Outcome.next hgo, rfl⟩
  case refine_10 =>
    intro hoff
    have hgo : deliverEvents (ringHead 3 v s) = s := by rw [ringHead_of_off hoff, deliverEvents_of_off hoff]
    exact ⟨_, congrArg Host.Outcome.next hgo, rfl⟩
  case refine_11 =>
    have hgo : coalesceTimer k s = emit (.ringIrq (k - 1)) (putRing { ringOf s k with unsignalled := 0 } s) :=
      if_pos (by simp [h1, h3, hon, hun])
    obtain ⟨-, hself, -⟩ := oneRing_putRing (r := { ringOf s k with unsignalled := 0 }) (key_ringOf s k) hany
    exact ⟨_, congrArg Host.Outcome.next hgo, rfl, hself, rfl⟩
  case refine_12 => exact ⟨_, congrArg Host.Outcome.next (if_neg (by simp [hun])), rfl⟩
  case refine_13 =>
    intro h4 h16
    have hgo := (ringWrite_of_rise (k := k) hbit hoff).trans (if_neg (by omega))
    rw [deliver_ringStarted hplacing hheld hlast] at hgo
    have hk4 : k < 4 := by omega
    obtain ⟨hself, hothers⟩ := ringOf_putRing { k := k, head := 0, tail := 0, unsignalled := 0 }
      (setFld pkgWin k .bpt_ring_cfg_ring_en 1 (writeReg pkgWin k .bptRingCfg (setBit value 31 false) s))
    have hregs := onlyRegs_writeReg pkgWin k .bptRingCfg (setBit value 31 false) s
    have hrings : ∀ j, ringOf (setFld pkgWin k .bpt_ring_cfg_ring_en 1 (writeReg pkgWin k .bptRingCfg (setBit value 31 false) s)) j =
        ringOf s j := ringOf_of_rings (by rw [hregs]; rfl)
    refine ⟨_, congrArg Host.Outcome.next ((if_pos hk4).trans ((if_pos hopen).trans hgo)), ?_, ?_, hself ?_, fun j hj => ?_⟩
    · rw [hregs]
      rfl
    · exact (fld_setFld _ pkgWin k pkgWin k .bpt_ring_cfg_ring_en .bpt_ring_cfg_ring_en 1).trans (if_pos ⟨rfl, rfl, rfl⟩)
    · rw [hregs]
      exact hany
    · exact (hothers j hj).trans (hrings j)
  case refine_14 =>
    intro hn
    have hk4 : k < 4 := by omega
    exact ⟨_, congrArg Host.Outcome.next ((if_pos hk4).trans ((if_pos hopen).trans ((ringWrite_of_rise (k := k) hbit hoff).trans
      (if_pos hn)))), rfl⟩
  case refine_15 =>
    have hgo : boardPortReset s = abandonRing ((List.range 4).foldl (fun s k => setFld pkgWin k .bpt_ring_cfg_ring_en 0 s) s) :=
      if_neg (by simp [hpkg])
    have hframe := foldl_stopRing s (List.range 4)
    have hfld := fld_foldl_stopRing s (List.range 4)
    generalize (List.range 4).foldl (fun s k => setFld pkgWin k .bpt_ring_cfg_ring_en 0 s) s = u at hgo hframe hfld
    refine ⟨_, congrArg Host.Outcome.next hgo, ?_, fun k hk => ?_, rfl, rfl, ?_, ?_, ?_, ?_, ?_, fun w i f hf => ?_⟩
    · rw [hframe]
      rfl
    · have hen : (abandonRing u).fld pkgWin k .bpt_ring_cfg_ring_en = 0 :=
        (hfld pkgWin k .bpt_ring_cfg_ring_en).trans (if_pos ⟨rfl, List.mem_range.2 hk, rfl⟩)
      simp [ringOn, hen]
    · rw [hframe]
      rfl
    · rw [hframe]
      rfl
    · rw [hframe]
      rfl
    · simp [abandonRing]
    · rw [hframe]
      rfl
    · refine (hfld w i f).trans (if_neg fun h => hf ?_)
      obtain ⟨rfl, hi, rfl⟩ := h
      exact List.mem_map.2 ⟨i, hi, rfl⟩
  case refine_16 =>
    have hgo : checkDesc d true (fetchedDesc d s) = fetchedDesc d s := by
      have hmoves' : descMoves (fetchedDesc d s) d = some m := hmoves
      simp [checkDesc, hform, hmoves', hrefuses, hm]
    obtain ⟨-, hself, -⟩ := oneRing_putRing (r := { ringOf s 0 with head := ((ringOf s 0).head + 1) % ringSize s 0 }) (key_ringOf s 0) hany
    refine ⟨_, congrArg Host.Outcome.next ((descriptorFetch_of_fetch hcan).trans hgo), rfl, rfl, rfl, ?_, rfl⟩
    exact congrArg Ring.head hself
  case refine_17 =>
    have hgo : checkDesc d ok (fetchedDesc d s) = respond 2 0 0 0 0 (fetchedDesc d s) := if_pos hform
    exact ⟨_, congrArg Host.Outcome.next ((descriptorFetch_of_fetch hcan).trans hgo), respond_fetchedDesc hcan (by decide)⟩
  case refine_18 =>
    have hgo : checkDesc d ok (fetchedDesc d s) = respond 3 0 0 0 0 (fetchedDesc d s) := by
      have hmoves' : descMoves (fetchedDesc d s) d = none := hmoves
      simp [checkDesc, hform, hmoves']
    exact ⟨_, congrArg Host.Outcome.next ((descriptorFetch_of_fetch hcan).trans hgo), respond_fetchedDesc hcan (by decide)⟩

end Sys2Proof.Machine
end

section
/-!
PROOFS. The end of a port's drain (R62) while a command of the port's controller holds a buffer handle that names no buffer: ending the
command frees the handle, and the bad free raises its own event (R333).
-/
namespace Sys2Proof.Machine
open Sys2Proof

/-- A port that drains. -/
def drainingPort : Port :=
  { tile := 0, mode := 4, recon := 2, reconAt := 0, linkUp := [], narrow := [], pcieRate := 0, pcieWidth := 0, paused := [],
    allPaused := [] }

/-- An admin capsule without data. -/
def adminCapsule : Capsule :=
  { cid := 0, op := .admin 0, nsid := 0, slba := 0, nlb := 0, sglLen := 0, descs := 1, bitBucket := false, invKey := none, ce := false,
    inCap := [], inCapLen := 0, bytes := 64, hdgstOk := true, ddgstOk := true }

/-- A discarded command of controller 1 that holds handle 0, though no pool has a buffer. -/
def strayCmd : Cmd :=
  { id := 1, tile := 0, cntlid := 1, payer := Payer.device, sqid := 0, cap := adminCapsule, cls := .h1, phase := .running, data := [],
    pieces := [], extents := [], updates := [], status := .success, dw0 := 0, discard := true, took := false, plan := [], sweep := 0,
    sweepSync := false, bufs := [0], fetchMs := 0, heldMs := 0, behindWrites := false, asked := false, lost := [], lostMs := none,
    waitFor := [], charged := 0 }

/-- The port of tile 0 drains, and waits for no command: the only one is discarded. -/
def drainWithStray : State :=
  { State.reset with
    host := { State.reset.host with
      ports := [drainingPort], ctrls := [newCtrl State.reset 1 0 (.function 0 0) false 0], cmds := [strayCmd] } }

theorem raised_portDrainEnd_drainWithStray : (portDrainEnd 0 drainWithStray).evr.raised.length = drainWithStray.evr.raised.length + 2 := by
  decide +kernel

/-- Refutes O29, by its fifth clause's claim that the end of a drain raises one event and no other: in `drainWithStray` the bad free is
logged too. -/
theorem not_hostPorts : ¬ Obligations.HostPorts := by
  unfold Obligations.HostPorts
  rintro ⟨-, -, -, -, hdrain, -⟩
  obtain ⟨u, hu, -, -, -, -, hlogs⟩ := hdrain 0 drainingPort drainWithStray (by decide +kernel) rfl (.inl (by decide +kernel))
  obtain rfl : portDrainEnd 0 drainWithStray = u := Host.Outcome.next.inj hu
  have hone := congrArg (fun e : Evr => e.raised.length) hlogs
  rw [raised_portDrainEnd_drainWithStray] at hone
  simp at hone

end Sys2Proof.Machine
end

section
/-!
PROOFS. The arbitration of a tile whose only queue has a class beyond H3 (R71 gives four): it is not urgent, and no class of the weighted
round robin (R78) is its own, so that nothing is fetched.
-/
namespace Sys2Proof.Machine
open Sys2Proof

/-- A capsule of an I/O command. -/
def readCapsule : Capsule :=
  { cid := 0, op := .read, nsid := 1, slba := 0, nlb := 1, sglLen := 4096, descs := 1, bitBucket := false, invKey := none, ce := false,
    inCap := [], inCapLen := 0, bytes := 64, hdgstOk := true, ddgstOk := true }

/-- A controller of tile 0 in an ordering mode that serves each queue in its own class (R73). -/
def freeOrderCtrl : Ctrl := { newCtrl State.reset 1 0 (.function 0 0) false 0 with enabled := true, ready := true, orderMode := 2 }

/-- An I/O queue of class 7, with one capsule received. -/
def strayClassSq : Sq :=
  { ioSq 1 1 0 0 16 1 7 false .tcp with recv := [{ cap := readCapsule, waits := [] }] }

/-- Tile 0 serves the one queue. -/
def strayClass : State :=
  setT 0 .qe_cfg_qe_enable 1 { State.reset with
    host := { State.reset.host with ctrls := [freeOrderCtrl], sqs := [strayClassSq], cqs := [ioCq 1 1 0 16 1 true] } }

/-- Refutes O35, by its second clause's claim that a queue is chosen where one that is not urgent can fetch: in `strayClass` the weighted
round robin finds no class. -/
theorem not_fetchArbitration : ¬ Obligations.FetchArbitration := by
  unfold Obligations.FetchArbitration
  rintro ⟨-, hplain, -⟩
  obtain ⟨u, -, c, q, k, a, r, hc, -, hq, -, -, -, -, -, ⟨b, hpick⟩, -⟩ := hplain 0 [] strayClass (by decide +kernel) (by decide +kernel)
    ⟨freeOrderCtrl, List.mem_singleton.2 rfl, rfl, by decide +kernel⟩
  obtain rfl : c = freeOrderCtrl := List.mem_singleton.1 hc
  obtain rfl : q = strayClassSq := List.mem_singleton.1 hq
  have hnone : pickPlainSq strayClass [] (arbOf strayClass 0) 0 freeOrderCtrl = none := by decide +kernel
  rw [hnone] at hpick
  exact absurd hpick (by simp)

end Sys2Proof.Machine
end

section
/-!
PROOFS. The lists of the host side (R55 to R67): an entry changed is found changed under its keys, and every other as before.
-/
namespace Sys2Proof.Machine
open Sys2Proof

/-- What is changed under one key is found so, and nothing else has changed. -/
theorem find?_updKey {α κ : Type} [BEq κ] [LawfulBEq κ] [DecidableEq κ] (key : α → κ) {f : α → α} (hf : ∀ x, key (f x) = key x)
    (b a : κ) (l : List α) : (l.map fun x => if key x == b then f x else x).find? (fun x => key x == a) =
      if a = b then (l.find? fun x => key x == a).map f else l.find? fun x => key x == a := by
  have hmap := find?_map_key key (f := fun x => if key x == b then f x else x) (fun x => by split <;> simp [hf]) a l
  rw [hmap]
  cases hfind : l.find? fun x => key x == a with
  | none => simp
  | some x =>
    have hx : key x = a := by simpa using List.find?_some hfind
    by_cases h : a = b <;> simp [hx, h]

theorem find?_dropKey {α κ : Type} [BEq κ] [LawfulBEq κ] [DecidableEq κ] (key : α → κ) (b a : κ) (l : List α) :
    (l.filter fun x => !(key x == b)).find? (fun x => key x == a) = if a = b then none else l.find? fun x => key x == a := by
  by_cases h : a = b
  · subst h
    rw [if_pos rfl]
    exact find?_filter_self (fun y => key y == a) l
  · rw [if_neg h]
    refine find?_filter_not _ _ (fun y hy => ?_) l
    simp only [beq_iff_eq] at hy
    simpa [hy] using h

section upd
variable (s : State) (a b c d : Nat)

theorem findCtrl_updCtrl {f : Ctrl → Ctrl} (hf : ∀ x, (f x).cntlid = x.cntlid) :
    findCtrl (updCtrl b f s) a = if a = b then (findCtrl s a).map f else findCtrl s a := find?_updKey Ctrl.cntlid hf b a _

theorem findCmd_updCmd {f : Cmd → Cmd} (hf : ∀ x, (f x).id = x.id) :
    findCmd (updCmd b f s) a = if a = b then (findCmd s a).map f else findCmd s a := find?_updKey Cmd.id hf b a _

theorem findPort_updPort {f : Port → Port} (hf : ∀ x, (f x).tile = x.tile) :
    findPort (updPort b f s) a = if a = b then (findPort s a).map f else findPort s a := find?_updKey Port.tile hf b a _

theorem findConn_updConn {f : Conn → Conn} (hf : ∀ x, (f x).id = x.id) :
    findConn (updConn b f s) a = if a = b then (findConn s a).map f else findConn s a := find?_updKey Conn.id hf b a _

theorem findConn_dropConn : findConn (dropConn b s) a = if a = b then none else findConn s a := find?_dropKey Conn.id b a _
theorem findCmd_dropCmd : findCmd (dropCmd b s) a = if a = b then none else findCmd s a := find?_dropKey Cmd.id b a _

theorem findSq_updSq {f : Sq → Sq} (hf : ∀ x, (f x).cntlid = x.cntlid ∧ (f x).sqid = x.sqid) :
    findSq (updSq c d f s) a b = if a = c ∧ b = d then (findSq s a b).map f else findSq s a b :=
  find?_mapKeyed Sq.cntlid Sq.sqid hf c d a b _

theorem findCq_updCq {f : Cq → Cq} (hf : ∀ x, (f x).cntlid = x.cntlid ∧ (f x).cqid = x.cqid) :
    findCq (updCq c d f s) a b = if a = c ∧ b = d then (findCq s a b).map f else findCq s a b :=
  find?_mapKeyed Cq.cntlid Cq.cqid hf c d a b _

end upd

theorem key_of_findCtrl {s : State} {k : Nat} {c : Ctrl} (h : findCtrl s k = some c) : c.cntlid = k := by
  simpa using List.find?_some h
theorem key_of_findCmd {s : State} {k : Nat} {c : Cmd} (h : findCmd s k = some c) : c.id = k := by simpa using List.find?_some h
theorem key_of_findConn {s : State} {k : Nat} {c : Conn} (h : findConn s k = some c) : c.id = k := by simpa using List.find?_some h
theorem key_of_findSq {s : State} {j n : Nat} {q : Sq} (h : findSq s j n = some q) : q.cntlid = j ∧ q.sqid = n := by
  simpa using List.find?_some h
theorem key_of_findCq {s : State} {j n : Nat} {q : Cq} (h : findCq s j n = some q) : q.cntlid = j ∧ q.cqid = n := by
  simpa using List.find?_some h

/-! ### What the end of a command leaves alone -/

/-- A controller without what the end of a command, or an event, may change of it. -/
def Ctrl.core (c : Ctrl) : Ctrl :=
  { c with shst := 0, aers := [], aens := [], errors := [], errorCount := 0, anaState := 0 }

/-- From `s` to `t` the board, the ports, the connections and the held admin commands are as before, the controllers but for their
events and errors, and what was sent or waited to be sent is there still. -/
structure CmdSide (s t : State) : Prop where
  board : t.board = s.board
  ports : t.host.ports = s.host.ports
  conns : t.host.conns = s.host.conns
  heldAdmin : t.heldAdmin = s.heldAdmin
  released : t.released = s.released
  cleared : t.cleared = s.cleared
  ctrls : t.host.ctrls.map Ctrl.core = s.host.ctrls.map Ctrl.core
  outs : s.outs <+: t.outs
  heldOuts : s.heldOuts <+: t.heldOuts

theorem CmdSide.refl (s : State) : CmdSide s s := ⟨rfl, rfl, rfl, rfl, rfl, rfl, rfl, List.prefix_rfl, List.prefix_rfl⟩

theorem CmdSide.trans {s t u : State} (h : CmdSide s t) (k : CmdSide t u) : CmdSide s u where
  board := k.board.trans h.board
  ports := k.ports.trans h.ports
  conns := k.conns.trans h.conns
  heldAdmin := k.heldAdmin.trans h.heldAdmin
  released := k.released.trans h.released
  cleared := k.cleared.trans h.cleared
  ctrls := k.ctrls.trans h.ctrls
  outs := h.outs.trans k.outs
  heldOuts := h.heldOuts.trans k.heldOuts

theorem cmdSide_foldl {α : Type} {f : State → α → State} (h : ∀ s x, CmdSide s (f s x)) : ∀ (l : List α) (s : State), CmdSide s (l.foldl f s)
  | [], s => .refl s
  | x :: l, s => (h s x).trans (cmdSide_foldl h l (f s x))

/-- What changes neither the controllers nor what the others name keeps them. -/
theorem cmdSide_of_eq {s t : State} (hboard : t.board = s.board) (hhost : t.host.ports = s.host.ports ∧ t.host.conns = s.host.conns ∧
    t.host.ctrls = s.host.ctrls) (hadmin : t.heldAdmin = s.heldAdmin ∧ t.released = s.released ∧ t.cleared = s.cleared)
    (houts : t.outs = s.outs ∧ t.heldOuts = s.heldOuts) : CmdSide s t where
  board := hboard
  ports := hhost.1
  conns := hhost.2.1
  heldAdmin := hadmin.1
  released := hadmin.2.1
  cleared := hadmin.2.2
  ctrls := by rw [hhost.2.2]
  outs := by rw [houts.1]
  heldOuts := by rw [houts.2]

theorem cmdSide_linkFree (i : Nat) (p : Pool) (s : State) : CmdSide s (linkFree i p s) :=
  cmdSide_of_eq (by simp only [linkFree, putPool]) (by simp only [linkFree, putPool, and_self])
    (by simp only [linkFree, putPool, and_self]) (by simp only [linkFree, putPool, and_self])

theorem cmdSide_freeBuffer (t h : Nat) (s : State) : CmdSide s (freeBuffer t h s) := by
  unfold freeBuffer
  split
  · exact cmdSide_of_eq rfl ⟨rfl, rfl, rfl⟩ ⟨rfl, rfl, rfl⟩ ⟨rfl, rfl⟩
  · split
    · exact .refl s
    · dsimp only
      refine iteInduction (motive := CmdSide s) (fun _ => ?_) fun _ =>
        iteInduction (motive := CmdSide s) (fun _ => ?_) fun _ => cmdSide_linkFree _ _ s
      · exact cmdSide_of_eq rfl ⟨rfl, rfl, rfl⟩ ⟨rfl, rfl, rfl⟩ ⟨rfl, rfl⟩
      · exact cmdSide_of_eq rfl ⟨rfl, rfl, rfl⟩ ⟨rfl, rfl, rfl⟩ ⟨rfl, rfl⟩

theorem cmdSide_freeBuffers (t : Nat) (l : List Nat) (s : State) : CmdSide s (freeBuffers t l s) :=
  cmdSide_foldl (fun s h => cmdSide_freeBuffer t h s) l s

theorem cmdSide_updCtrl (k : Nat) {f : Ctrl → Ctrl} (hf : ∀ c, (f c).core = c.core) (s : State) : CmdSide s (updCtrl k f s) where
  board := rfl
  ports := rfl
  conns := rfl
  heldAdmin := rfl
  released := rfl
  cleared := rfl
  ctrls := by
    simp only [updCtrl, List.map_map]
    refine List.map_congr_left fun c _ => ?_
    simp only [Function.comp_apply]
    split
    · exact hf c
    · rfl
  outs := List.prefix_rfl
  heldOuts := List.prefix_rfl

theorem cmdSide_updCmd (k : Nat) (f : Cmd → Cmd) (s : State) : CmdSide s (updCmd k f s) :=
  cmdSide_of_eq rfl ⟨rfl, rfl, rfl⟩ ⟨rfl, rfl, rfl⟩ ⟨rfl, rfl⟩
theorem cmdSide_dropCmd (k : Nat) (s : State) : CmdSide s (dropCmd k s) := cmdSide_of_eq rfl ⟨rfl, rfl, rfl⟩ ⟨rfl, rfl, rfl⟩ ⟨rfl, rfl⟩
theorem cmdSide_updSq (j n : Nat) (f : Sq → Sq) (s : State) : CmdSide s (updSq j n f s) :=
  cmdSide_of_eq rfl ⟨rfl, rfl, rfl⟩ ⟨rfl, rfl, rfl⟩ ⟨rfl, rfl⟩
theorem cmdSide_logEv (e : Ev) (t : Nat) (l : List Nat) (s : State) : CmdSide s (logEv e t l s) :=
  cmdSide_of_eq rfl ⟨rfl, rfl, rfl⟩ ⟨rfl, rfl, rfl⟩ ⟨rfl, rfl⟩

theorem cmdSide_emit (o : Out) (s : State) : CmdSide s (emit o s) :=
  ⟨rfl, rfl, rfl, rfl, rfl, rfl, rfl, List.prefix_append _ _, List.prefix_rfl⟩

theorem cmdSide_logError (c : Cmd) (st : Status) (s : State) : CmdSide s (logError c st s) := by
  refine cmdSide_updCtrl c.cntlid (fun _ => ?_) s
  rfl

theorem cmdSide_freezeQueue (c : Cmd) (st : Status) (s : State) : CmdSide s (freezeQueue c st s) := by
  unfold freezeQueue
  split
  · exact .refl s
  · split
    · exact .refl s
    · exact cmdSide_of_eq rfl ⟨rfl, rfl, rfl⟩ ⟨rfl, rfl, rfl⟩ ⟨rfl, rfl⟩

theorem cmdSide_meterCommand (c : Cmd) (m : Bool) (s : State) : CmdSide s (meterCommand c m s) := by
  unfold meterCommand
  dsimp only
  split <;> exact cmdSide_of_eq rfl ⟨rfl, rfl, rfl⟩ ⟨rfl, rfl, rfl⟩ ⟨rfl, rfl⟩

theorem cmdSide_postCq (c : Cmd) (s : State) : CmdSide s (postCq c s) := by
  unfold postCq
  split
  · exact .refl s
  · split
    · exact .refl s
    · dsimp only
      refine iteInduction (motive := CmdSide s) (fun _ => ?_) fun _ => iteInduction (motive := CmdSide s) (fun _ => ?_) fun _ => ?_
      · exact cmdSide_of_eq rfl ⟨rfl, rfl, rfl⟩ ⟨rfl, rfl, rfl⟩ ⟨rfl, rfl⟩
      · refine CmdSide.trans ?_ (cmdSide_emit _ _)
        exact cmdSide_of_eq rfl ⟨rfl, rfl, rfl⟩ ⟨rfl, rfl, rfl⟩ ⟨rfl, rfl⟩
      · exact cmdSide_of_eq rfl ⟨rfl, rfl, rfl⟩ ⟨rfl, rfl, rfl⟩ ⟨rfl, rfl⟩

theorem cmdSide_sendTo (k q : Nat) (o : Out) (s : State) : CmdSide s (sendTo k q o s) := by
  unfold sendTo
  split
  · split
    · exact ⟨rfl, rfl, rfl, rfl, rfl, rfl, rfl, List.prefix_rfl, List.prefix_append _ _⟩
    · exact cmdSide_emit o s
  · exact cmdSide_emit o s

theorem cmdSide_shutdownDone (k : Nat) (s : State) : CmdSide s (shutdownDone k s) := by
  unfold shutdownDone
  split
  · exact .refl s
  · exact cmdSide_updCtrl k (fun c => by split <;> rfl) s

theorem cmdSide_ackExts (c : Cmd) (s : State) : CmdSide s (ackExts c s) := by
  unfold ackExts
  split
  · exact .refl s
  · exact cmdSide_of_eq rfl ⟨rfl, rfl, rfl⟩ ⟨rfl, rfl, rfl⟩ ⟨rfl, rfl⟩

/-- A state with the failure of a command noted: its error and the freeze of its queue. -/
def failureNoted (c : Cmd) (s : State) : State := if c.status == .success then s else freezeQueue c c.status (logError c c.status s)

theorem cmdSide_failureNoted (c : Cmd) (s : State) : CmdSide s (failureNoted c s) :=
  iteInduction (motive := CmdSide s) (fun _ => .refl s) fun _ => (cmdSide_logError c _ s).trans (cmdSide_freezeQueue c _ _)

/-- The Dword 0 of a command's completion (R89). -/
def postedDw0 (c : Cmd) (s : State) : Nat :=
  if c.sqid == 0 then c.dw0 else c.dw0 % 2 ^ 31 + (if frz s c.cntlid c.sqid then 2 ^ 31 else 0)

/-- The data of a read that succeeded is sent. -/
def dataSent (c : Cmd) (alone : Bool) (s : State) : State :=
  if c.cap.op == .read && c.status == .success then sendTo c.cntlid c.sqid (.readData c.cntlid c.sqid c.cap.cid c.data alone) s else s

/-- The completion of a command is sent, unless its data stands for it. -/
def completionSent (c : Cmd) (alone : Bool) (dw0 head : Nat) (s : State) : State :=
  if alone then s else sendTo c.cntlid c.sqid (.completion c.cntlid c.sqid c.cap.cid c.status dw0 head) s

/-- The key that a command names is invalidated. -/
def keySent (c : Cmd) (s : State) : State :=
  match c.cap.invKey with
  | some k => sendTo c.cntlid c.sqid (.invalidate c.cntlid c.sqid k) s
  | none => s

/-- A command is forgotten once its completion has been sent. -/
def forgotten (miss : Bool) (c : Cmd) (s : State) : State :=
  shutdownDone c.cntlid (dropCmd c.id (postCq c (freeBuffers c.tile c.bufs (ackExts c (meterCommand c miss s)))))

/-- The completion of an ended command, step by step. -/
theorem postOne_eq (c : Cmd) (s : State) : postOne c s =
    let s1 := failureNoted c s
    let alone := successFlag s1 c (postedDw0 c s1)
    forgotten (isQosMiss s c) c (keySent c (completionSent c alone (postedDw0 c s1) (((findSq s1 c.cntlid c.sqid).map (·.head)).getD 0)
      (dataSent c alone s1))) := rfl

theorem cmdSide_dataSent (c : Cmd) (alone : Bool) (s : State) : CmdSide s (dataSent c alone s) :=
  iteInduction (motive := CmdSide s) (fun _ => cmdSide_sendTo _ _ _ s) fun _ => .refl s

theorem cmdSide_completionSent (c : Cmd) (alone : Bool) (dw0 head : Nat) (s : State) : CmdSide s (completionSent c alone dw0 head s) :=
  iteInduction (motive := CmdSide s) (fun _ => .refl s) fun _ => cmdSide_sendTo _ _ _ s

theorem cmdSide_keySent (c : Cmd) (s : State) : CmdSide s (keySent c s) := by
  unfold keySent
  split
  · exact cmdSide_sendTo _ _ _ s
  · exact .refl s

theorem cmdSide_forgotten (miss : Bool) (c : Cmd) (s : State) : CmdSide s (forgotten miss c s) :=
  ((((cmdSide_meterCommand c miss s).trans (cmdSide_ackExts c _)).trans (cmdSide_freeBuffers c.tile c.bufs _)).trans
    (cmdSide_postCq c _)).trans ((cmdSide_dropCmd c.id _).trans (cmdSide_shutdownDone c.cntlid _))

theorem cmdSide_postOne (c : Cmd) (s : State) : CmdSide s (postOne c s) := by
  rw [postOne_eq]
  exact ((((cmdSide_failureNoted c s).trans (cmdSide_dataSent c _ _)).trans (cmdSide_completionSent c _ _ _ _)).trans
    (cmdSide_keySent c _)).trans (cmdSide_forgotten _ c _)

theorem cmdSide_postEnded (s : State) : CmdSide s (postEnded s) := by
  refine cmdSide_foldl (fun s id => ?_) _ s
  split
  · exact iteInduction (motive := CmdSide s) (fun _ => cmdSide_postOne _ s) fun _ => .refl s
  · exact .refl s

theorem cmdSide_finishCmd (id : Nat) (st : Status) (dw0 : Nat) (s : State) : CmdSide s (finishCmd id st dw0 s) := by
  unfold finishCmd
  split
  · exact .refl s
  · split
    · exact (((cmdSide_freeBuffers _ _ s).trans (cmdSide_dropCmd id _)).trans (cmdSide_shutdownDone _ _)).trans (cmdSide_postEnded _)
    · exact (cmdSide_updCmd id _ s).trans (cmdSide_postEnded _)

theorem cmdSide_raiseAen (k kind info : Nat) (s : State) : CmdSide s (raiseAen k kind info s) := by
  unfold raiseAen
  split
  · exact .refl s
  · split
    · refine CmdSide.trans (cmdSide_updCtrl k (fun _ => ?_) s) (cmdSide_finishCmd _ _ _ _)
      rfl
    · split
      · exact .refl s
      · refine cmdSide_updCtrl k (fun _ => ?_) s
        rfl

theorem cmdSide_anaRefresh (s : State) : CmdSide s (anaRefresh s) := by
  refine cmdSide_foldl (fun s c => ?_) _ s
  refine CmdSide.trans (cmdSide_updCtrl c.cntlid (fun _ => ?_) s) (cmdSide_raiseAen _ _ _ _)
  rfl

end Sys2Proof.Machine
end

section
/-!
PROOFS. The end of commands, queues, connections and controllers (R64, R66, R94, R95): what goes, what stays, and that nothing beyond the
host side changes.
-/
namespace Sys2Proof.Machine
open Sys2Proof

/-! ### Freed buffers and entries -/

/-- From `s` to `t` nothing changed but buffers, the count of bad frees and the events of bad frees. -/
def OnlyBuffers (s t : State) : Prop := t = { s with mem := t.mem, regs := t.regs, pools := t.pools, evr := t.evr }

theorem OnlyBuffers.trans {s t u : State} (h : OnlyBuffers s t) (k : OnlyBuffers t u) : OnlyBuffers s u :=
  Eq.trans k (congrArg (fun x : State => { x with mem := u.mem, regs := u.regs, pools := u.pools, evr := u.evr }) h)

theorem onlyBuffers_freeBuffer (t h : Nat) (s : State) : OnlyBuffers s (freeBuffer t h s) := by
  unfold freeBuffer
  split
  · rfl
  · split
    · rfl
    · dsimp only
      refine iteInduction (motive := OnlyBuffers s) (fun _ => rfl) fun _ => iteInduction (motive := OnlyBuffers s) (fun _ => rfl) fun _ => ?_
      simp only [OnlyBuffers, linkFree, putPool]

theorem onlyBuffers_foldl {α : Type} {f : State → α → State} (h : ∀ s x, OnlyBuffers s (f s x)) :
    ∀ (l : List α) (s : State), OnlyBuffers s (l.foldl f s)
  | [], _ => rfl
  | x :: l, s => (h s x).trans (onlyBuffers_foldl h l (f s x))

theorem onlyBuffers_freeBuffers (t : Nat) (l : List Nat) (s : State) : OnlyBuffers s (freeBuffers t l s) :=
  onlyBuffers_foldl (fun s h => onlyBuffers_freeBuffer t h s) l s

/-- From `s` to `t` nothing but completion queues changed. -/
def OnlyCqs (s t : State) : Prop := t = { s with host := { s.host with cqs := t.host.cqs } }

theorem OnlyCqs.trans {s t u : State} (h : OnlyCqs s t) (k : OnlyCqs t u) : OnlyCqs s u :=
  Eq.trans k (congrArg (fun x : State => { x with host := { x.host with cqs := u.host.cqs } }) h)

theorem onlyCqs_releaseEntry (c : Cmd) (s : State) : OnlyCqs s (releaseEntry c s) := by
  unfold releaseEntry
  split <;> rfl

theorem onlyCqs_foldl_releaseEntry : ∀ (l : List Cmd) (s : State), OnlyCqs s (l.foldl (fun s c => releaseEntry c s) s)
  | [], _ => rfl
  | c :: l, s => (onlyCqs_releaseEntry c s).trans (onlyCqs_foldl_releaseEntry l _)

theorem findCq_releaseEntry {c : Cmd} {s : State} {j : Nat} (h : c.cntlid ≠ j) (n : Nat) : findCq (releaseEntry c s) j n = findCq s j n := by
  unfold releaseEntry
  split
  · exact (findCq_updCq s j n c.cntlid _ (f := fun k => { k with reserved := k.reserved - 1 }) fun _ => ⟨rfl, rfl⟩).trans
      (if_neg fun hk => h hk.1.symm)
  · rfl

theorem findCq_foldl_releaseEntry {j : Nat} (n : Nat) : ∀ (l : List Cmd) (s : State), (∀ c ∈ l, c.cntlid ≠ j) →
    findCq (l.foldl (fun s c => releaseEntry c s) s) j n = findCq s j n
  | [], _, _ => rfl
  | c :: l, _, h => (findCq_foldl_releaseEntry n l _ fun d hd => h d (List.mem_cons_of_mem c hd)).trans
      (findCq_releaseEntry (h c List.mem_cons_self) n)

/-! ### Commands at a reset (R94) -/

/-- A command that ends at the reset of what `p` names. -/
def endsAtReset (p : Cmd → Bool) (s : State) (c : Cmd) : Bool :=
  p c && (!survivesReset c || parkedAer s c || (s.heldAdmin.filterMap heldCmd).contains c.id)

/-- The numbers of the commands that end. -/
def goneAtReset (p : Cmd → Bool) (s : State) : List Nat := (s.host.cmds.filter (endsAtReset p s)).map (·.id)

/-- The completion entries released and the buffers freed at a reset. -/
def releasedAtReset (p : Cmd → Bool) (s : State) : State :=
  (s.host.cmds.filter (endsAtReset p s)).foldl (fun s c => freeBuffers c.tile c.bufs s)
    ((s.host.cmds.filter fun c => p c && !c.discard).foldl (fun s c => releaseEntry c s) s)

/-- The commands that stay after a reset. -/
def cmdsAfterReset (p : Cmd → Bool) (s : State) : List Cmd :=
  (s.host.cmds.filter fun c => !(goneAtReset p s).contains c.id).map fun c => if p c then { c with discard := true } else c

theorem releasedAtReset_frame (p : Cmd → Bool) (s : State) : ∃ t, OnlyCqs s t ∧ OnlyBuffers t (releasedAtReset p s) ∧
    ∀ j, (∀ c ∈ s.host.cmds, p c = true → c.cntlid ≠ j) → ∀ n, findCq t j n = findCq s j n := by
  refine ⟨_, onlyCqs_foldl_releaseEntry _ s, onlyBuffers_foldl (fun s (c : Cmd) => onlyBuffers_freeBuffers c.tile c.bufs s) _ _, fun j h n =>
    findCq_foldl_releaseEntry n _ s fun c hc => ?_⟩
  obtain ⟨hmem, hp⟩ := List.mem_filter.1 hc
  simp only [Bool.and_eq_true] at hp
  exact h c hmem hp.1

theorem onlyHostSide_releasedAtReset (p : Cmd → Bool) (s : State) : OnlyHostSide s (releasedAtReset p s) := by
  refine (onlyHostSide_foldl _ (fun s c => ?_) _ s).trans (onlyHostSide_foldl _ (fun s (c : Cmd) => onlyHostSide_freeBuffers c.tile c.bufs s) _ _)
  rw [onlyCqs_releaseEntry c s]
  exact ⟨rfl, rfl, fun _ _ _ _ => rfl⟩

/-- What the reset of some commands leaves. -/
theorem resetCmdsOf_spec (p : Cmd → Bool) (s : State) : OnlyHostSide s (resetCmdsOf p s) ∧
    (resetCmdsOf p s).host = { s.host with cqs := (resetCmdsOf p s).host.cqs, cmds := cmdsAfterReset p s } ∧
    (resetCmdsOf p s).board = s.board ∧ (resetCmdsOf p s).outs = s.outs ∧
    ∀ j, (∀ c ∈ s.host.cmds, p c = true → c.cntlid ≠ j) → ∀ n, findCq (resetCmdsOf p s) j n = findCq s j n := by
  have hgo : resetCmdsOf p s = { releasedAtReset p s with
      heldAdmin := (releasedAtReset p s).heldAdmin.filter fun i => match heldCmd i with
        | some id => !(goneAtReset p s).contains id
        | none => true
      host := { (releasedAtReset p s).host with
        cmds := ((releasedAtReset p s).host.cmds.filter fun c => !(goneAtReset p s).contains c.id).map
          fun c => if p c then { c with discard := true } else c } } := rfl
  obtain ⟨t, hcqs, hbufs, hother⟩ := releasedAtReset_frame p s
  have hhost : (releasedAtReset p s).host = { s.host with cqs := t.host.cqs } := by rw [hbufs, hcqs]
  have houts : (releasedAtReset p s).board = s.board ∧ (releasedAtReset p s).outs = s.outs := by
    rw [hbufs, hcqs]
    exact ⟨rfl, rfl⟩
  rw [hgo]
  refine ⟨(onlyHostSide_releasedAtReset p s).trans ⟨rfl, rfl, fun _ _ _ _ => rfl⟩, ?_, houts.1, houts.2, fun j h n => ?_⟩
  · rw [hhost]
    rfl
  · refine Eq.trans ?_ (hother j h n)
    exact congrArg (fun l : HostSide => l.cqs.find? fun q => q.cntlid == j && q.cqid == n) hhost

/-- What stays of the commands of a reset is discarded. -/
theorem discard_of_mem_cmdsAfterReset {p : Cmd → Bool} {s : State} {c : Cmd}
    (hc : c ∈ cmdsAfterReset p s) (hpc : p c = true) : c.discard = true := by
  obtain ⟨x, -, rfl⟩ := List.mem_map.1 hc
  by_cases hx : p x = true
  · simp [hx]
  · rw [if_neg hx] at hpc
    exact absurd hpc hx

/-- A command that a reset lets run on stays, discarded. -/
theorem mem_cmdsAfterReset_of_survives {p : Cmd → Bool} {s : State} {c : Cmd} (hc : c ∈ s.host.cmds) (hp : p c = true)
    (hruns : endsAtReset p s c = false) (hone : ∀ j ∈ s.host.cmds, j.id = c.id → j = c) :
    { c with discard := true } ∈ cmdsAfterReset p s := by
  refine List.mem_map.2 ⟨c, List.mem_filter.2 ⟨hc, ?_⟩, if_pos hp⟩
  rw [Bool.not_eq_true', List.contains_eq_mem, decide_eq_false_iff_not]
  intro hgone
  obtain ⟨j, hj, hid⟩ := List.mem_map.1 hgone
  obtain ⟨hmem, hends⟩ := List.mem_filter.1 hj
  rw [hone j hmem hid, hruns] at hends
  exact Bool.false_ne_true hends

/-! ### Connections closed -/

/-- Closes some connections, each with its message. -/
def closeAll (l : List Conn) (s : State) : State := l.foldl (fun s c => dropConn c.id (emit (.connClosed c.id) s)) s

theorem closeAll_eq : ∀ (l : List Conn) (s : State), closeAll l s =
    { s with outs := s.outs ++ l.map fun c => .connClosed c.id
             host := { s.host with conns := s.host.conns.filter fun k => !(l.any fun c => k.id == c.id) } }
  | [], s => by
    have hall : (s.host.conns.filter fun k => !([].any fun c : Conn => k.id == c.id)) = s.host.conns :=
      List.filter_eq_self.2 fun _ _ => rfl
    rw [hall, List.map_nil, List.append_nil]
    rfl
  | c :: l, s => by
    have hgo : closeAll (c :: l) s = closeAll l (dropConn c.id (emit (.connClosed c.id) s)) := rfl
    rw [hgo, closeAll_eq l]
    simp only [dropConn, emit, List.filter_filter, List.any_cons, Bool.not_or, List.map_cons, List.append_assoc, List.singleton_append,
      Bool.and_comm]

theorem onlyHostSide_closeAll (l : List Conn) (s : State) : OnlyHostSide s (closeAll l s) := by
  rw [closeAll_eq]
  exact ⟨rfl, rfl, fun _ _ _ _ => rfl⟩

theorem mem_conns_closeAll {l : List Conn} {s : State} {k : Conn} :
    k ∈ (closeAll l s).host.conns ↔ k ∈ s.host.conns ∧ ∀ c ∈ l, k.id ≠ c.id := by
  rw [closeAll_eq]
  simp

/-! ### The end of a controller (R94, R95) -/

/-- A controller ended, its meters aside. -/
def ctrlGone (id : Nat) (s : State) : State :=
  { s with host := { s.host with
    ctrls := s.host.ctrls.filter fun c => !(c.cntlid == id)
    sqs := s.host.sqs.filter fun q => !(q.cntlid == id)
    cqs := s.host.cqs.filter fun q => !(q.cntlid == id) } }

theorem endCtrl_eq (id : Nat) (s : State) : endCtrl id s =
    let s1 := dropQueues id (resetCmds id s)
    meterEnded id (ctrlGone id (closeAll (s1.host.conns.filter fun c => c.bound && c.cntlid == id) s1)) := rfl

theorem onlyHostSide_dropQueues (id : Nat) (s : State) : OnlyHostSide s (dropQueues id s) := ⟨rfl, rfl, fun _ _ _ _ => rfl⟩
theorem onlyHostSide_meterEnded (id : Nat) (s : State) : OnlyHostSide s (meterEnded id s) := ⟨rfl, rfl, fun _ _ _ _ => rfl⟩
theorem onlyHostSide_ctrlGone (id : Nat) (s : State) : OnlyHostSide s (ctrlGone id s) := ⟨rfl, rfl, fun _ _ _ _ => rfl⟩

/-- What the end of a controller leaves. -/
theorem endCtrl_spec (id : Nat) (s : State) : OnlyHostSide s (endCtrl id s) ∧ (endCtrl id s).board = s.board ∧
    s.outs <+: (endCtrl id s).outs ∧ (endCtrl id s).host.ports = s.host.ports ∧
    (endCtrl id s).host.ctrls = (s.host.ctrls.filter fun c => !(c.cntlid == id)) ∧
    (endCtrl id s).host.cmds = cmdsAfterReset (fun c => c.cntlid == id) s ∧
    (∀ q, q ∈ (endCtrl id s).host.sqs ↔ q ∈ s.host.sqs ∧ q.cntlid ≠ id) ∧
    (∀ q ∈ (endCtrl id s).host.cqs, q.cntlid ≠ id) ∧
    ∀ k, k ∈ (endCtrl id s).host.conns ↔ k ∈ s.host.conns ∧ ∀ c ∈ s.host.conns, c.bound = true → c.cntlid = id → k.id ≠ c.id := by
  obtain ⟨hside, hhost, hboard, houts, -⟩ := resetCmdsOf_spec (fun c => c.cntlid == id) s
  have hconns : (dropQueues id (resetCmds id s)).host.conns = s.host.conns := (congrArg HostSide.conns hhost :)
  rw [endCtrl_eq]
  dsimp only
  generalize hl : ((dropQueues id (resetCmds id s)).host.conns.filter fun c => c.bound && c.cntlid == id) = l
  have hclose := closeAll_eq l (dropQueues id (resetCmds id s))
  refine ⟨?_, ?_, ?_, ?_, ?_, ?_, fun q => ?_, fun q hq => ?_, fun k => ?_⟩
  · exact (((hside.trans (onlyHostSide_dropQueues id _)).trans (onlyHostSide_closeAll l _)).trans (onlyHostSide_ctrlGone id _)).trans
      (onlyHostSide_meterEnded id _)
  · rw [hclose]
    exact hboard
  · rw [hclose]
    exact ⟨_, congrArg (· ++ _) houts.symm⟩
  · rw [hclose]
    exact (congrArg HostSide.ports hhost :)
  · rw [hclose]
    exact congrArg (List.filter fun c : Ctrl => !(c.cntlid == id)) (congrArg HostSide.ctrls hhost :)
  · rw [hclose]
    exact (congrArg HostSide.cmds hhost :)
  · have hsqs : (resetCmds id s).host.sqs = s.host.sqs := (congrArg HostSide.sqs hhost :)
    rw [hclose]
    simp only [meterEnded, ctrlGone, dropQueues, hsqs, List.mem_filter, Bool.not_eq_true', beq_eq_false_iff_ne, Bool.and_eq_false_iff]
    exact ⟨fun ⟨⟨hq, _⟩, hid⟩ => ⟨hq, hid⟩, fun ⟨hq, hid⟩ => ⟨⟨hq, .inl hid⟩, hid⟩⟩
  · obtain ⟨-, hid⟩ := List.mem_filter.1 hq
    simpa using hid
  · refine mem_conns_closeAll.trans (and_congr (by rw [hconns]) ?_)
    rw [← hl, hconns]
    simp

end Sys2Proof.Machine
end

section
/-!
PROOFS. Doorbells and the aggregation of interrupts (R67 to R69).
-/
namespace Sys2Proof.Machine
open Sys2Proof

theorem sqTail_of_pcie {j n v : Nat} {q : Sq} {s : State} (hfind : findSq s j n = some q) (htr : q.transport = .pcie) :
    sqTail j n v s = if q.size ≤ v then raiseAen j 0 1 s else updSq j n (fun q => { q with tail := v }) s := by
  simp [sqTail, hfind, htr]

theorem sqTail_of_other {j n v : Nat} {s : State} (hother : ∀ q, findSq s j n = some q → q.transport ≠ .pcie) :
    sqTail j n v s = raiseAen j 0 0 s := by
  unfold sqTail
  split
  · rfl
  · next q hq => exact if_pos (by simpa using hother q hq)

theorem cqHead_of_some {j n v : Nat} {q : Cq} {s : State} (hfind : findCq s j n = some q) :
    cqHead j n v s = if q.size ≤ v then raiseAen j 0 1 s else updCq j n (fun q => { q with head := v }) s := by
  simp [cqHead, hfind]

/-- An event that no request waits for, and that does not wait already, waits. -/
theorem raiseAen_of_new {j kind info : Nat} {c : Ctrl} {s : State} (hfind : findCtrl s j = some c) (haers : c.aers = [])
    (hnew : (kind, info) ∉ c.aens) :
    raiseAen j kind info s = updCtrl j (fun c => { c with aens := c.aens ++ [(kind, info)] }) s := by
  simp [raiseAen, hfind, haers, hnew]

/-- Settles O34: a doorbell within its queue changes that queue, and a timer its vector. -/
theorem queueDoorbells : Obligations.QueueDoorbells := by
  unfold Obligations.QueueDoorbells
  refine ⟨fun j n v q s hfind htr => ⟨fun hv => ?_, fun hv => ?_⟩, fun j n v s hother => ?_,
    fun j n v q s hfind => ⟨fun hv => ?_, fun hv => ?_⟩, fun j n v s hfind => ?_,
    fun j kind info c s hfind => ⟨fun haers hnew => ?_, onlyHostSide_raiseAen j kind info s⟩, fun j v s => ⟨fun hany => ?_, fun hnone => ?_⟩⟩
  case refine_1 =>
    have hupd := fun a b => findSq_updSq s a b j n (f := fun q => { q with tail := v }) fun _ => ⟨rfl, rfl⟩
    refine ⟨_, congrArg Host.Outcome.next ((sqTail_of_pcie hfind htr).trans (if_neg (by omega))), rfl, ?_, fun a b hab => ?_⟩
    · rw [hupd, if_pos ⟨rfl, rfl⟩, hfind, Option.map_some]
    · rw [hupd, if_neg (by omega)]
  case refine_2 => exact ⟨_, congrArg Host.Outcome.next ((sqTail_of_pcie hfind htr).trans (if_pos hv)), rfl⟩
  case refine_3 => exact ⟨_, congrArg Host.Outcome.next (sqTail_of_other hother), rfl⟩
  case refine_4 =>
    have hupd := fun a b => findCq_updCq s a b j n (f := fun q => { q with head := v }) fun _ => ⟨rfl, rfl⟩
    refine ⟨_, congrArg Host.Outcome.next ((cqHead_of_some hfind).trans (if_neg (by omega))), rfl, ?_, fun a b hab => ?_⟩
    · rw [hupd, if_pos ⟨rfl, rfl⟩, hfind, Option.map_some]
    · rw [hupd, if_neg (by omega)]
  case refine_5 => exact ⟨_, congrArg Host.Outcome.next ((cqHead_of_some hfind).trans (if_pos hv)), rfl⟩
  case refine_6 =>
    have hgo : cqHead j n v s = raiseAen j 0 0 s := by simp [cqHead, hfind]
    exact ⟨_, congrArg Host.Outcome.next hgo, rfl⟩
  case refine_7 =>
    rw [raiseAen_of_new hfind haers hnew]
    rw [findCtrl_updCtrl s j j (f := fun c => { c with aens := c.aens ++ [(kind, info)] }) fun _ => rfl, if_pos rfl, hfind, Option.map_some]
  case refine_8 =>
    have hgo : (s.host.irqs.any fun p => p.cntlid == j && p.vector == v) = true := by simpa using hany
    refine ⟨_, congrArg Host.Outcome.next (if_pos hgo), rfl, rfl, fun p => ?_⟩
    simp [emit]
  case refine_9 =>
    have hgo : (s.host.irqs.any fun p => p.cntlid == j && p.vector == v) = false := by simpa [imp_iff_not_or] using hnone
    exact ⟨_, congrArg Host.Outcome.next (if_neg (by rw [hgo]; exact Bool.false_ne_true)), rfl⟩

end Sys2Proof.Machine
end

section
/-!
PROOFS. Rate limits and urgent budgets (R72, R80 to R82, R102, R104), and the steps of a command whose tile is lost (R31).
-/
namespace Sys2Proof.Machine
open Sys2Proof

/-! ### Held commands (R82) -/

/-- A held command is admitted and pays. -/
def admitHeld (t : Nat) (c : Cmd) (s : State) : State :=
  takeTokens (updCmd c.id (fun c => { c with phase := .admitted, heldMs := s.nowMs - c.heldMs }) s) t c.cap

theorem admitOne_of_none {k : Bool} {t n : Nat} {s : State} (h : ∀ e ∈ holdList s t n, readKind e.cap.op ≠ k) :
    admitOne k t n s = s := by
  have hnone : (holdList s t n).find? (fun c => readKind c.cap.op == k) = none := List.find?_eq_none.2 fun e he => by simpa using h e he
  simp [admitOne, hnone]

theorem admitOne_of_head {k : Bool} {t n : Nat} {c : Cmd} {s : State} (hhead : (holdList s t n).head? = some c)
    (hk : readKind c.cap.op = k) : admitOne k t n s = if tokensAllow s t c.cap then admitHeld t c s else s := by
  obtain ⟨l, hl⟩ := List.head?_eq_some_iff.1 hhead
  simp [admitOne, hl, hk, admitHeld]

theorem cmds_admitHeld (t : Nat) (c : Cmd) (s : State) : (admitHeld t c s).host.cmds =
    s.host.cmds.map fun x => if x.id == c.id then { x with phase := .admitted, heldMs := s.nowMs - x.heldMs } else x := rfl

/-- What is held after an admission was held before. -/
theorem mem_holdList_admitHeld {t a n : Nat} {c e : Cmd} {s : State} (he : e ∈ holdList (admitHeld t c s) a n) : e ∈ holdList s a n := by
  unfold holdList at he ⊢
  rw [cmds_admitHeld] at he
  obtain ⟨hmem, hheld⟩ := List.mem_filter.1 he
  obtain ⟨x, hx, rfl⟩ := List.mem_map.1 hmem
  by_cases hid : (x.id == c.id) = true
  · simp [hid] at hheld
  · rw [if_neg hid] at hheld ⊢
    exact List.mem_filter.2 ⟨hx, hheld⟩

/-- Where only commands of one kind are held, the oldest of them is admitted if its tokens allow. -/
theorem admitBoth_of_kind {k : Bool} {t n : Nat} {c : Cmd} {s : State} (hhead : (holdList s t n).head? = some c)
    (hk : readKind c.cap.op = k) (hall : ∀ e ∈ holdList s t n, readKind e.cap.op = k) :
    admitOne false t n (admitOne true t n s) = if tokensAllow s t c.cap then admitHeld t c s else s := by
  cases k with
  | false =>
    rw [admitOne_of_none (k := true) fun e he => by simp [hall e he]]
    exact admitOne_of_head hhead hk
  | true =>
    rw [admitOne_of_head hhead hk]
    split
    · exact admitOne_of_none fun e he => by simp [hall e (mem_holdList_admitHeld he)]
    · exact admitOne_of_none fun e he => by simp [hall e he]

/-! ### Intervals (R72, R81, R102, R104) -/

theorem mem_buckets_rateInterval (s : State) (b : Bucket) : b ∈ (rateInterval s).host.buckets ↔
    ∃ n t k, n ∈ (rateInterval s).reg.nss ∧ t ∈ presentTiles s ∧ k < 4 ∧
      refillBucket { s with reg := (rateInterval s).reg } n t k = some b := by
  have hfour : ∀ k, k ∈ [0, 1, 2, 3] ↔ k < 4 := by simp; omega
  simp only [rateInterval, List.mem_flatMap, List.mem_filterMap, hfour]
  exact ⟨fun ⟨n, hn, t, ht, k, hk, hb⟩ => ⟨n, t, k, hn, ht, hk, hb⟩, fun ⟨n, t, k, hn, ht, hk, hb⟩ => ⟨n, hn, t, ht, k, hk, hb⟩⟩

theorem tokens_le_of_refillBucket {s : State} {n : Ns} {t k : Nat} {b : Bucket} (h : refillBucket s n t k = some b) :
    b.tokens ≤ b.depth := by
  unfold refillBucket at h
  dsimp only at h
  split at h
  · cases h
  · split at h
    · obtain rfl := Option.some.inj h
      exact le_rfl
    · obtain rfl := Option.some.inj h
      exact min_le_right _ _

/-- A controller at the start of a budget interval. -/
def budgetRestored (s : State) (c : Ctrl) : Ctrl :=
  match identTenant s c.ident with
  | some t => { c with share := t.share, budget := t.budget, latency := t.latency, budgetLeft := t.budget }
  | none => { c with budgetLeft := c.budget }

theorem cntlid_budgetRestored (s : State) (c : Ctrl) : (budgetRestored s c).cntlid = c.cntlid := by
  unfold budgetRestored
  split <;> rfl

theorem findCtrl_budgetInterval (s : State) (id : Nat) : findCtrl (budgetInterval s) id = (findCtrl s id).map (budgetRestored s) :=
  find?_map_key Ctrl.cntlid (cntlid_budgetRestored s) id s.host.ctrls

/-! ### Steps issued again (R31) -/

theorem stepReissue_of_restored {id : Nat} {r : Role} {c : Cmd} {s : State} (hfind : findCmd s id = some c)
    (hr : c.lost.find? (roleRestored s c) = some r) :
    stepReissue id s = reissueStep c r (updCmd id (fun c => { c with lost := c.lost.filter fun x => x != r }) s) := by
  simp only [stepReissue, hfind, hr]

/-- Settles O36: the limits' steps act on the oldest held command, the buckets and the budgets, and a lost step is issued again once. -/
theorem limitsAndReissue : Obligations.LimitsAndReissue := by
  unfold Obligations.LimitsAndReissue
  refine ⟨fun t n k c s hhead hk hall => ⟨fun htok => ?_, fun htok => ?_⟩, fun t n s hnone => ?_, fun s => ?_, fun s => ?_,
    fun id r c s hfind hr => ?_, fun id at_ c s hfind hlost => ⟨fun hlate hphase => ?_, fun hnot => ?_⟩, fun id s => ⟨fun hnone => ?_, fun hnone => ?_⟩⟩
  case refine_1 =>
    exact ⟨_, congrArg Host.Outcome.next ((admitBoth_of_kind hhead hk hall).trans (if_pos htok)), rfl, rfl⟩
  case refine_2 =>
    exact ⟨_, congrArg Host.Outcome.next ((admitBoth_of_kind hhead hk hall).trans (if_neg (by simp [htok]))), rfl⟩
  case refine_3 =>
    have hgo : admitOne false t n (admitOne true t n s) = s := by
      rw [admitOne_of_none (k := true) (by simp [hnone])]
      exact admitOne_of_none (by simp [hnone])
    exact ⟨_, congrArg Host.Outcome.next hgo, rfl⟩
  case refine_4 =>
    refine ⟨_, rfl, rfl, mem_buckets_rateInterval s, fun b hb => ?_⟩
    obtain ⟨n, t, k, -, -, -, hb⟩ := (mem_buckets_rateInterval s b).1 hb
    exact tokens_le_of_refillBucket hb
  case refine_5 =>
    refine ⟨_, rfl, rfl, fun id c hfind => ⟨fun x hx => ?_, fun hx => ?_⟩⟩
    · exact (findCtrl_budgetInterval s id).trans (by simp [hfind, budgetRestored, hx])
    · exact (findCtrl_budgetInterval s id).trans (by simp [hfind, budgetRestored, hx])
  case refine_6 =>
    have hid := key_of_findCmd hfind
    refine ⟨_, congrArg Host.Outcome.next (stepReissue_of_restored hfind hr), fun hrole => ?_, fun hrole => ?_, fun hrole => ?_⟩
    · subst hrole
      simp [reissueStep, hid]
    · subst hrole
      rfl
    · rcases hrole with rfl | rfl <;> rfl
  case refine_7 =>
    have hgo : interruptTimeout id s = pump (finishCmd id .commandInterrupted 0 (detachUpdates c (dropStaging c s))) := by
      simp [interruptTimeout, hfind, hlost, hlate, hphase]
    exact ⟨_, congrArg Host.Outcome.next hgo, rfl⟩
  case refine_8 =>
    have hgo : interruptTimeout id s = s := by
      simp only [interruptTimeout, hfind, hlost]
      refine if_neg fun h => ?_
      simp only [Bool.and_eq_true, decide_eq_true_eq, bne_iff_ne] at h
      exact hnot.elim (fun hlt => absurd h.1 (not_le.2 hlt)) h.2
    exact ⟨_, congrArg Host.Outcome.next hgo, rfl⟩
  case refine_9 =>
    have hgo : stepReissue id s = s := by
      unfold stepReissue
      cases hfind : findCmd s id with
      | none => rfl
      | some c =>
        have hno : c.lost.find? (roleRestored s c) = none := List.find?_eq_none.2 fun r hr => by simp [hnone c hfind r hr]
        simp [hno]
    exact ⟨_, congrArg Host.Outcome.next hgo, rfl⟩
  case refine_10 =>
    have hgo : interruptTimeout id s = s := by
      unfold interruptTimeout
      cases hfind : findCmd s id with
      | none => rfl
      | some c => simp [hnone c hfind]
    exact ⟨_, congrArg Host.Outcome.next hgo, rfl⟩

end Sys2Proof.Machine
end

section
/-!
PROOFS. The queue engine's admin commands (R51, R53, R56, R66, R92, R96): an equation for each case, and what a queue's deletion and an
Abort leave.
-/
namespace Sys2Proof.Machine
open Sys2Proof

/-- A command that runs off the provider's plane leaves what its body leaves, after which its turn passes. -/
theorem next_of_runs {c i : Instr} {k : AdminKind} {a : Adm} {f : State → State} {s x : State}
    (hexec : exec c s = .next (runAdmin k a i f s)) (h : AdmRuns k a s) (hk : k ≠ .registry) (hf : f s = x) :
    Next c s fun u => u = passTurn a x :=
  ⟨_, hexec.trans (congrArg Host.Outcome.next (runAdmin_plain h hk)), congrArg (passTurn a) hf⟩

section create
variable {a : Adm} {n size base cqid qprio vector : Nat} {ien : Bool} {c : Ctrl} {s : State}

/-- A submission queue's identifier is free, in range and granted (R51, R56). -/
def SqFits (s : State) (c : Ctrl) (n : Nat) : Prop :=
  n ≠ 0 ∧ n ≤ 128 ∧ findSq s c.cntlid n = none ∧ (c.grant.isSome = true → n ≤ c.grant.getD 0)

/-- A completion queue's identifier is free and in range (R51). -/
def CqFits (s : State) (c : Ctrl) (n : Nat) : Prop := n ≠ 0 ∧ n ≤ 128 ∧ findCq s c.cntlid n = none

/-- The test of an identifier that `createSq` makes. -/
def sqUnfit (s : State) (c : Ctrl) (n : Nat) : Bool :=
  n == 0 || decide (128 < n) || (findSq s c.cntlid n).isSome || (c.grant.isSome && decide (c.grant.getD 0 < n))

theorem sqUnfit_eq_false : sqUnfit s c n = false ↔ SqFits s c n := by
  simp [sqUnfit, SqFits, and_assoc]

theorem createSq_eq (hi : pcieIssuer s a = some c) : createSq a n size base cqid qprio s =
    if sqUnfit s c n then admDone a .invalidQueueIdentifier 0 s
    else if size == 0 || decide (1023 < size) then admDone a .invalidQueueSize 0 s
    else if cqid == 0 || (findCq s c.cntlid cqid).isNone then admDone a .completionQueueInvalid 0 s
    else if decide (reservedOn s (queueTile s c n) c < ((ioQueues s c.cntlid).filter fun q => q.tile == queueTile s c n).length + 1) &&
        qpFree s (queueTile s c n) == 0 then admDone a .invalidQueueIdentifier 0 s
    else admDone a .success 0 { s with host := { s.host with
      sqs := s.host.sqs ++ [ioSq c.cntlid n (queueTile s c n) base (size + 1) cqid (if c.orderMode < 2 || c.ams == 0 then 2 else qprio % 4)
        (s.tfld (queueTile s c n) .qe_cfg_freeze_default == 1) .pcie] } } := by
  simp only [createSq, hi]
  rfl

theorem createCq_eq (hi : pcieIssuer s a = some c) : createCq a n size base vector ien s =
    if n == 0 || decide (128 < n) || (findCq s c.cntlid n).isSome then admDone a .invalidQueueIdentifier 0 s
    else if size == 0 || decide (1023 < size) then admDone a .invalidQueueSize 0 s
    else if 128 < vector then admDone a .invalidInterruptVector 0 s
    else admDone a .success 0 { s with host := { s.host with
      cqs := s.host.cqs ++ [ioCq c.cntlid n base (size + 1) vector ien] } } := by
  simp only [createCq, hi]

theorem cqUnfit_eq_false : (n == 0 || decide (128 < n) || (findCq s c.cntlid n).isSome) = false ↔ CqFits s c n := by
  simp [CqFits, and_assoc]

theorem size_fits (hlow : size ≠ 0) (hhigh : size ≤ 1023) : ¬(size == 0 || decide (1023 < size)) = true := by
  simp [hlow, hhigh]

end create

section delete
variable {a : Adm} {n : Nat} {c : Ctrl} {s : State}

theorem deleteSq_eq (hi : pcieIssuer s a = some c) : deleteSq a n s =
    if n == 0 || (findSq s c.cntlid n).isNone then admDone a .invalidQueueIdentifier 0 s
    else
      let s1 := resetCmdsOf (fun k => k.cntlid == c.cntlid && k.sqid == n) s
      admDone a .success 0 { s1 with host := { s1.host with
        sqs := s1.host.sqs.filter fun q => !(q.cntlid == c.cntlid && q.sqid == n) } } := by
  simp only [deleteSq, hi]

theorem deleteCq_eq (hi : pcieIssuer s a = some c) : deleteCq a n s =
    if n == 0 || (findCq s c.cntlid n).isNone then admDone a .invalidQueueIdentifier 0 s
    else if (ioQueues s c.cntlid).any (fun q => q.cqid == n) then admDone a .invalidQueueDeletion 0 s
    else admDone a .success 0 { s with host := { s.host with
      cqs := s.host.cqs.filter fun q => !(q.cntlid == c.cntlid && q.cqid == n) } } := by
  simp only [deleteCq, hi]

/-- The state with a submission queue gone and its commands ended (R66). -/
def sqDropped (c : Ctrl) (n : Nat) (s : State) : State :=
  let s1 := resetCmdsOf (fun k => k.cntlid == c.cntlid && k.sqid == n) s
  { s1 with host := { s1.host with sqs := s1.host.sqs.filter fun q => !(q.cntlid == c.cntlid && q.sqid == n) } }

theorem sqDropped_spec (c : Ctrl) (n : Nat) (s : State) : OnlyHostSide s (sqDropped c n s) ∧
    (∀ q, q ∈ (sqDropped c n s).host.sqs ↔ q ∈ s.host.sqs ∧ (q.cntlid ≠ c.cntlid ∨ q.sqid ≠ n)) ∧
    ∀ k ∈ (sqDropped c n s).host.cmds, k.cntlid = c.cntlid → k.sqid = n → k.discard = true := by
  obtain ⟨hside, hhost, -⟩ := resetCmdsOf_spec (fun k => k.cntlid == c.cntlid && k.sqid == n) s
  refine ⟨hside.trans ⟨rfl, rfl, fun _ _ _ _ => rfl⟩, fun q => ?_, fun k hk hid hq => ?_⟩
  · have hsqs : (resetCmdsOf (fun k => k.cntlid == c.cntlid && k.sqid == n) s).host.sqs = s.host.sqs := (congrArg HostSide.sqs hhost :)
    simp only [sqDropped, hsqs, List.mem_filter, Bool.not_eq_true', Bool.and_eq_false_iff, beq_eq_false_iff_ne]
  · have hcmds : (sqDropped c n s).host.cmds = cmdsAfterReset (fun k => k.cntlid == c.cntlid && k.sqid == n) s :=
      (congrArg HostSide.cmds hhost :)
    rw [hcmds] at hk
    exact discard_of_mem_cmdsAfterReset hk (by simp [hid, hq])

end delete

/-! ### Abort (R96) -/

/-- A capsule taken from its receive list, with the failure noted and its completion sent. -/
def capsuleAborted (c : Ctrl) (n cid : Nat) (q : Sq) (k : Arrival) (s : State) : State :=
  sendTo c.cntlid n (.completion c.cntlid n cid .commandAbortRequested (if frz s c.cntlid n then 2 ^ 31 else 0) q.head)
    (logFailure c.cntlid n k.cap .commandAbortRequested (updSq c.cntlid n (fun q => { q with recv := q.recv.erase k }) s))

/-- A controller with a failure entered in its error log (R89). -/
def errorNoted (n : Nat) (cap : Capsule) (st : Status) (k : Ctrl) : Ctrl :=
  { k with
    errorCount := k.errorCount + 1
    errors := ({ count := k.errorCount + 1, sqid := n, cid := cap.cid, status := st, nsid := cap.nsid, lba := cap.slba } :: k.errors).take 64 }

theorem findCtrl_logFailure (n : Nat) (cap : Capsule) (st : Status) (s : State) (a b : Nat) :
    findCtrl (logFailure b n cap st s) a = if a = b then (findCtrl s a).map (errorNoted n cap st) else findCtrl s a :=
  findCtrl_updCtrl s a b fun _ => rfl

/-- What a send may touch. -/
theorem sendTo_frame (j n : Nat) (o : Out) (s : State) :
    sendTo j n o s = { s with outs := (sendTo j n o s).outs, heldOuts := (sendTo j n o s).heldOuts } ∧ Sent o (sendTo j n o s) := by
  unfold sendTo
  split
  · split
    · exact ⟨rfl, .inr ⟨_, List.mem_append_right _ (List.mem_singleton.2 rfl), rfl⟩⟩
    · exact ⟨rfl, .inl (List.mem_append_right _ (List.mem_singleton.2 rfl))⟩
  · exact ⟨rfl, .inl (List.mem_append_right _ (List.mem_singleton.2 rfl))⟩

theorem capsuleAborted_spec {c : Ctrl} {n cid : Nat} {q : Sq} {k : Arrival} {s : State} (hq : findSq s c.cntlid n = some q) :
    let m := capsuleAborted c n cid q k s
    m = { s with host := { s.host with sqs := m.host.sqs, ctrls := m.host.ctrls }, outs := m.outs, heldOuts := m.heldOuts } ∧
      findSq m c.cntlid n = some { q with recv := q.recv.erase k } ∧
      (findCtrl s c.cntlid = some c → ∃ d, findCtrl m c.cntlid = some d ∧ d.errorCount = c.errorCount + 1) ∧
      Sent (.completion c.cntlid n cid .commandAbortRequested (if frz s c.cntlid n then 2 ^ 31 else 0) q.head) m := by
  intro m
  obtain ⟨hframe, hsent⟩ := sendTo_frame c.cntlid n
    (.completion c.cntlid n cid .commandAbortRequested (if frz s c.cntlid n then 2 ^ 31 else 0) q.head)
    (logFailure c.cntlid n k.cap .commandAbortRequested (updSq c.cntlid n (fun q => { q with recv := q.recv.erase k }) s))
  change m = _ at hframe
  refine ⟨by rw [hframe]; rfl, ?_, fun hfind => ?_, hsent⟩
  · rw [hframe]
    refine (findSq_updSq s c.cntlid n c.cntlid n (f := fun q => { q with recv := q.recv.erase k }) fun _ => ⟨rfl, rfl⟩).trans ?_
    rw [if_pos ⟨rfl, rfl⟩, hq, Option.map_some]
  · rw [hframe]
    refine ⟨errorNoted n k.cap .commandAbortRequested c, ?_, rfl⟩
    refine (findCtrl_logFailure n k.cap .commandAbortRequested
      (updSq c.cntlid n (fun q => { q with recv := q.recv.erase k }) s) c.cntlid c.cntlid).trans ?_
    rw [if_pos rfl]
    exact congrArg (Option.map _) hfind

/-- Settles O37: each command of the queue engine ends with the status its parameters give, or with its effect. -/
theorem queueCommands : Obligations.QueueCommands := by
  unfold Obligations.QueueCommands
  refine ⟨fun a n size base cqid qprio c s h hi => ⟨?_, fun hfits => ?_, fun hfits hsize => ?_, fun hfits hlow hhigh hcq => ?_⟩,
    fun a n size base vector ien c s h hi => ⟨?_, fun hfits => ?_, fun hfits hsize => ?_, fun hfits hlow hhigh hvec => ?_⟩,
    fun a n c s h hi => ⟨fun hno => ?_, fun hn hfind => ?_, fun hno => ?_, fun hn hfind hused => ?_, fun hn hfind hfree => ?_⟩,
    fun a s h hi x y z w v b => ⟨?_, ?_, ?_, ?_⟩, fun id c s h hc => ⟨fun k i rest haens => ?_, fun haens => ?_⟩,
    fun a n cid c s h hc => ⟨fun k hk => ?_, fun hno hrecv => ?_, fun q k hno hq hk => ?_⟩,
    fun a n c s h hc => ⟨fun hno => ?_, fun q hn hq => ?_⟩⟩
  case refine_1 =>
    intro hfits hlow hhigh hcq0 hcq hroom
    refine next_of_runs rfl h (by decide) ((createSq_eq hi).trans ?_)
    rw [if_neg (by rw [sqUnfit_eq_false.2 hfits]; exact Bool.false_ne_true), if_neg (size_fits hlow hhigh),
      if_neg (by simpa [hcq0] using Option.isSome_iff_ne_none.1 hcq)]
    rw [if_neg]
    · simp only [Bool.or_eq_true, decide_eq_true_eq, beq_iff_eq]
    · simp only [Bool.and_eq_true, decide_eq_true_eq, beq_iff_eq, not_and]
      exact fun hlt hzero => hroom.elim (fun hlen => absurd hlen (by omega)) fun hfree => hfree hzero
  case refine_2 =>
    refine next_of_runs rfl h (by decide) ((createSq_eq hi).trans (if_pos ?_))
    exact Bool.of_not_eq_false fun hfalse => hfits (sqUnfit_eq_false.1 hfalse)
  case refine_3 =>
    refine next_of_runs rfl h (by decide) ((createSq_eq hi).trans ?_)
    rw [if_neg (by rw [sqUnfit_eq_false.2 hfits]; exact Bool.false_ne_true), if_pos (by simpa using hsize)]
  case refine_4 =>
    refine next_of_runs rfl h (by decide) ((createSq_eq hi).trans ?_)
    rw [if_neg (by rw [sqUnfit_eq_false.2 hfits]; exact Bool.false_ne_true), if_neg (size_fits hlow hhigh), if_pos (by simpa using hcq)]
  case refine_5 =>
    intro hfits hlow hhigh hvec
    refine next_of_runs rfl h (by decide) ((createCq_eq hi).trans ?_)
    rw [if_neg (by rw [cqUnfit_eq_false.2 hfits]; exact Bool.false_ne_true), if_neg (size_fits hlow hhigh), if_neg (by omega)]
  case refine_6 =>
    refine next_of_runs rfl h (by decide) ((createCq_eq hi).trans (if_pos ?_))
    exact Bool.of_not_eq_false fun hfalse => hfits (cqUnfit_eq_false.1 hfalse)
  case refine_7 =>
    refine next_of_runs rfl h (by decide) ((createCq_eq hi).trans ?_)
    rw [if_neg (by rw [cqUnfit_eq_false.2 hfits]; exact Bool.false_ne_true), if_pos (by simpa using hsize)]
  case refine_8 =>
    refine next_of_runs rfl h (by decide) ((createCq_eq hi).trans ?_)
    rw [if_neg (by rw [cqUnfit_eq_false.2 hfits]; exact Bool.false_ne_true), if_neg (size_fits hlow hhigh), if_pos hvec]
  case refine_9 => exact next_of_runs rfl h (by decide) ((deleteSq_eq hi).trans (if_pos (by simpa using hno)))
  case refine_10 =>
    obtain ⟨u, hu, heq⟩ := next_of_runs (c := .deleteIoSubmissionQueue a n) rfl h (by decide)
      ((deleteSq_eq (n := n) hi).trans (if_neg (by simpa [hn] using hfind)))
    exact ⟨u, hu, sqDropped c n s, heq, sqDropped_spec c n s⟩
  case refine_11 => exact next_of_runs rfl h (by decide) ((deleteCq_eq hi).trans (if_pos (by simpa using hno)))
  case refine_12 =>
    refine next_of_runs rfl h (by decide) ((deleteCq_eq hi).trans ((if_neg (by simpa [hn] using hfind)).trans (if_pos ?_)))
    obtain ⟨q, hq, hcq⟩ := hused
    exact List.any_eq_true.2 ⟨q, hq, by simp [hcq]⟩
  case refine_13 =>
    exact next_of_runs rfl h (by decide) ((deleteCq_eq hi).trans ((if_neg (by simpa [hn] using hfind)).trans (if_neg (by simpa using hfree))))
  case refine_14 => exact next_of_runs rfl h (by decide) (by simp [createSq, hi])
  case refine_15 => exact next_of_runs rfl h (by decide) (by simp [createCq, hi])
  case refine_16 => exact next_of_runs rfl h (by decide) (by simp [deleteSq, hi])
  case refine_17 => exact next_of_runs rfl h (by decide) (by simp [deleteCq, hi])
  case refine_18 => exact next_of_runs rfl h (by decide) (by simp [asyncRequest, hc, haens])
  case refine_19 => exact next_of_runs rfl h (by decide) (by simp [asyncRequest, hc, haens, admPark])
  case refine_20 => exact next_of_runs rfl h (by decide) (by simp [abortCmd, hc, hk])
  case refine_21 =>
    refine next_of_runs rfl h (by decide) ?_
    simp only [abortCmd, hc, hno]
    cases hq : findSq s c.cntlid n with
    | none => rfl
    | some q =>
      have hnone : (q.recv.find? fun k => k.cap.cid == cid) = none := List.find?_eq_none.2 fun k hk => by simpa using hrecv q hq k hk
      simp [hnone]
  case refine_22 =>
    obtain ⟨u, hu, heq⟩ := next_of_runs (c := .abort a n cid) (x := admDone a .success 0 (capsuleAborted c n cid q k s)) rfl h (by decide)
      (by simp only [abortCmd, hc, hno, hq, hk]; rfl)
    exact ⟨u, hu, _, heq, capsuleAborted_spec hq⟩
  case refine_23 => exact next_of_runs rfl h (by decide) (by simp only [queueThaw, hc]; exact if_pos (by simpa using hno))
  case refine_24 => exact next_of_runs rfl h (by decide) (by simp only [queueThaw, hc]; exact if_neg (by simp [hn, hq]))

end Sys2Proof.Machine
end

section
/-!
PROOFS. The end of a queue, the reset of a controller that stays, and the end of several controllers (R57, R64, R66, R94, R95).
-/
namespace Sys2Proof.Machine
open Sys2Proof

/-! ### The end of a queue -/

/-- A queue other than the admin queue, gone with its connection. -/
def queueGone (j n : Nat) (s : State) : State :=
  { s with host := { s.host with
      sqs := s.host.sqs.filter fun q => !(q.cntlid == j && q.sqid == n)
      cqs := s.host.cqs.filter fun q => !(q.cntlid == j && q.cqid == n)
      conns := s.host.conns.filter fun c => !(c.bound && c.cntlid == j && c.sqid == n) } }

theorem endQueue_of_admin (j : Nat) (s : State) : endQueue j 0 s = endCtrl j s := rfl

theorem endQueue_of_io {n : Nat} (hn : n ≠ 0) (j : Nat) (s : State) :
    endQueue j n s = queueGone j n (resetCmdsOf (fun c => c.cntlid == j && c.sqid == n) s) := if_neg (by simpa using hn)

/-- What the end of an I/O queue leaves. -/
theorem endQueue_io_spec {n : Nat} (hn : n ≠ 0) (j : Nat) (s : State) : OnlyHostSide s (endQueue j n s) ∧
    (endQueue j n s).outs = s.outs ∧ (endQueue j n s).host.ctrls = s.host.ctrls ∧
    (endQueue j n s).host.cmds = cmdsAfterReset (fun c => c.cntlid == j && c.sqid == n) s ∧
    findSq (endQueue j n s) j n = none ∧ findCq (endQueue j n s) j n = none ∧
    ∀ k ∈ (endQueue j n s).host.conns, k ∈ s.host.conns := by
  obtain ⟨hside, hhost, -, houts, -⟩ := resetCmdsOf_spec (fun c => c.cntlid == j && c.sqid == n) s
  have hconns : (resetCmdsOf (fun c => c.cntlid == j && c.sqid == n) s).host.conns = s.host.conns := (congrArg HostSide.conns hhost :)
  rw [endQueue_of_io hn]
  refine ⟨hside.trans ⟨rfl, rfl, fun _ _ _ _ => rfl⟩, houts, (congrArg HostSide.ctrls hhost :), (congrArg HostSide.cmds hhost :), ?_, ?_,
    fun k hk => ?_⟩
  · exact (find?_dropKeyed Sq.cntlid Sq.sqid _ j n j n).trans (if_pos ⟨rfl, rfl⟩)
  · exact (find?_dropKeyed Cq.cntlid Cq.cqid _ j n j n).trans (if_pos ⟨rfl, rfl⟩)
  · rw [← hconns]
    exact (List.mem_filter.1 hk).1

theorem findCtrl_eq_none_of_filter {s t : State} {j : Nat} (h : t.host.ctrls = s.host.ctrls.filter fun c => !(c.cntlid == j)) :
    findCtrl t j = none := by
  unfold findCtrl
  rw [h]
  exact (find?_dropKey Ctrl.cntlid j j _).trans (if_pos rfl)

/-- The end of a queue stays on the host side, keeps what was sent, and leaves no such queue; that of the admin queue, no controller. -/
theorem endQueue_spec (j n : Nat) (s : State) : OnlyHostSide s (endQueue j n s) ∧ s.outs <+: (endQueue j n s).outs ∧
    findSq (endQueue j n s) j n = none ∧ (n = 0 → findCtrl (endQueue j n s) j = none) ∧
    ∀ k ∈ (endQueue j n s).host.conns, k ∈ s.host.conns := by
  by_cases hn : n = 0
  · subst hn
    obtain ⟨hside, -, houts, -, hctrls, -, hsqs, -, hconns⟩ := endCtrl_spec j s
    rw [endQueue_of_admin]
    refine ⟨hside, houts, List.find?_eq_none.2 fun q hq => ?_, fun _ => findCtrl_eq_none_of_filter hctrls, fun k hk => ((hconns k).1 hk).1⟩
    simpa using fun hj => absurd hj ((hsqs q).1 hq).2
  · obtain ⟨hside, houts, -, -, hsq, -, hconns⟩ := endQueue_io_spec hn j s
    exact ⟨hside, houts ▸ List.prefix_rfl, hsq, fun h => absurd h hn, hconns⟩

/-! ### The end of several controllers -/

/-- Every command of a controller is discarded. -/
def AllDiscarded (j : Nat) (s : State) : Prop := ∀ c ∈ s.host.cmds, c.cntlid = j → c.discard = true

theorem allDiscarded_endCtrl_self (j : Nat) (s : State) : AllDiscarded j (endCtrl j s) := fun c hc hj => by
  obtain ⟨-, -, -, -, -, hcmds, -⟩ := endCtrl_spec j s
  rw [hcmds] at hc
  exact discard_of_mem_cmdsAfterReset hc (by simpa using hj)

theorem allDiscarded_endCtrl {j : Nat} {s : State} (h : AllDiscarded j s) (b : Nat) : AllDiscarded j (endCtrl b s) := fun c hc hj => by
  obtain ⟨-, -, -, -, -, hcmds, -⟩ := endCtrl_spec b s
  rw [hcmds] at hc
  obtain ⟨x, hx, rfl⟩ := List.mem_map.1 hc
  have hmem := (List.mem_filter.1 hx).1
  by_cases hp : (x.cntlid == b) = true
  · rw [if_pos hp]
  · rw [if_neg hp] at hj ⊢
    exact h x hmem hj

/-- Several controllers ended, one after the other. -/
def endCtrls (l : List Nat) (s : State) : State := l.foldl (fun s id => endCtrl id s) s

theorem endCtrls_spec : ∀ (l : List Nat) (s : State), OnlyHostSide s (endCtrls l s) ∧ s.outs <+: (endCtrls l s).outs ∧
    (endCtrls l s).host.ports = s.host.ports ∧
    (∀ c, c ∈ (endCtrls l s).host.ctrls ↔ c ∈ s.host.ctrls ∧ c.cntlid ∉ l) ∧
    (∀ q ∈ (endCtrls l s).host.sqs, q.cntlid ∉ l) ∧ ∀ j, (AllDiscarded j s ∨ j ∈ l) → AllDiscarded j (endCtrls l s)
  | [], s => ⟨.refl s, List.prefix_rfl, rfl, fun c => by simp [endCtrls], fun q _ => List.not_mem_nil, fun j h => h.resolve_right List.not_mem_nil⟩
  | id :: l, s => by
    obtain ⟨hside, -, houts, hports, hctrls, -, hsqs, -⟩ := endCtrl_spec id s
    obtain ⟨hside', houts', hports', hctrls', hsqs', hdisc'⟩ := endCtrls_spec l (endCtrl id s)
    refine ⟨hside.trans hside', houts.trans houts', hports'.trans hports, fun c => (hctrls' c).trans ?_, fun q hq => ?_, fun j hj => ?_⟩
    · rw [hctrls, List.mem_filter]
      simp only [Bool.not_eq_true', beq_eq_false_iff_ne, List.mem_cons, not_or]
      exact and_assoc
    · refine fun hmem => (List.mem_cons.1 hmem).elim (fun heq => ?_) (hsqs' q hq)
      exact ((hsqs q).1 (mem_sqs_of_endCtrls l _ q hq)).2 heq
    · refine hdisc' j ?_
      rcases hj with hj | hj
      · exact .inl (allDiscarded_endCtrl hj id)
      · rcases List.mem_cons.1 hj with rfl | hj
        · exact .inl (allDiscarded_endCtrl_self j s)
        · exact .inr hj
where
  mem_sqs_of_endCtrls : ∀ (l : List Nat) (s : State) (q : Sq), q ∈ (endCtrls l s).host.sqs → q ∈ s.host.sqs
  | [], _, _, hq => hq
  | id :: l, s, q, hq => by
    obtain ⟨-, -, -, -, -, -, hsqs, -⟩ := endCtrl_spec id s
    exact ((hsqs q).1 (mem_sqs_of_endCtrls l (endCtrl id s) q hq)).1

/-! ### The reset of a controller that stays -/

/-- A controller after its reset. -/
def ctrlCleared (c : Ctrl) : Ctrl :=
  { c with
    enabled := false, ready := false, grant := none, shst := 0, shutting := false, aers := [], aens := [], deficits := []
    arbBurst := Config.resetArbBurst, arbWeights := (7, 3, 1), coalesce := (0, 0), noCoalesce := [] }

/-- The admin queues of a controller emptied. -/
def queuesEmptied (id : Nat) (s : State) : State :=
  { s with host := { s.host with
      sqs := s.host.sqs.map fun q => if q.cntlid == id then { q with head := 0, tail := 0, recv := [] } else q
      cqs := s.host.cqs.map fun q => if q.cntlid == id then { q with head := 0, tail := 0, reserved := 0 } else q } }

/-- The connections of a controller's I/O queues. -/
def ioConns (id : Nat) (s : State) : List Conn := s.host.conns.filter fun c => c.bound && c.cntlid == id && c.sqid != 0

theorem resetCtrl_eq (id : Nat) (s : State) : resetCtrl id s =
    updCtrl id ctrlCleared (queuesEmptied id (dropQueues id (resetCmds id (closeAll (ioConns id s) s)))) := rfl

theorem find?_map_other {α κ ι : Type} [BEq κ] [LawfulBEq κ] [BEq ι] (key : α → κ) (sub : α → ι) {f : α → α} {b a : κ} (hab : a ≠ b) (n : ι)
    (hf : ∀ x, key (f x) = key x) : ∀ l : List α,
    (l.map fun x => if key x == b then f x else x).find? (fun x => key x == a && sub x == n) = l.find? fun x => key x == a && sub x == n
  | [] => rfl
  | x :: l => by
    rw [List.map_cons, List.find?_cons, List.find?_cons, find?_map_other key sub hab n hf l]
    by_cases hx : key x = b
    · have hne : (b == a) = false := beq_eq_false_iff_ne.2 (Ne.symm hab)
      simp [hx, hf, hne]
    · simp [hx]

theorem find?_filter_other {α κ ι : Type} [BEq κ] [LawfulBEq κ] [BEq ι] (key : α → κ) (sub : α → ι) {p : α → Bool} {b a : κ} (hab : a ≠ b) (n : ι)
    (l : List α) : (l.filter fun x => !(key x == b && p x)).find? (fun x => key x == a && sub x == n) =
      l.find? fun x => key x == a && sub x == n := by
  refine find?_filter_not _ _ (fun x hx => ?_) l
  simp only [Bool.and_eq_true, beq_iff_eq] at hx
  rw [hx.1]
  simp [hab]

theorem mem_sqs_queuesEmptied {id : Nat} {s : State} {q : Sq} (hq : q ∈ (queuesEmptied id (dropQueues id s)).host.sqs) (hid : q.cntlid = id) :
    q.sqid = 0 ∧ q.head = 0 ∧ q.tail = 0 ∧ q.recv = [] := by
  obtain ⟨x, hx, rfl⟩ := List.mem_map.1 hq
  by_cases hxid : x.cntlid = id
  · have hkeep := (List.mem_filter.1 hx).2
    simp only [hxid, beq_self_eq_true, if_true, Bool.true_and, Bool.not_eq_true', bne_eq_false_iff_eq] at hkeep ⊢
    exact ⟨hkeep, trivial, trivial, trivial⟩
  · simp [hxid] at hid

theorem mem_cqs_queuesEmptied {id : Nat} {s : State} {q : Cq} (hq : q ∈ (queuesEmptied id (dropQueues id s)).host.cqs) (hid : q.cntlid = id) :
    q.cqid = 0 ∧ q.head = 0 ∧ q.tail = 0 ∧ q.reserved = 0 := by
  obtain ⟨x, hx, rfl⟩ := List.mem_map.1 hq
  by_cases hxid : x.cntlid = id
  · have hkeep := (List.mem_filter.1 hx).2
    simp only [hxid, beq_self_eq_true, if_true, Bool.true_and, Bool.not_eq_true', bne_eq_false_iff_eq] at hkeep ⊢
    exact ⟨hkeep, trivial, trivial, trivial⟩
  · simp [hxid] at hid

theorem findSq_queuesEmptied {id j : Nat} (hj : j ≠ id) (n : Nat) (s : State) :
    findSq (queuesEmptied id (dropQueues id s)) j n = findSq s j n :=
  (find?_map_other Sq.cntlid Sq.sqid (f := fun q => { q with head := 0, tail := 0, recv := [] }) hj n (fun _ => rfl) _).trans
    (find?_filter_other Sq.cntlid Sq.sqid hj n s.host.sqs)

theorem findCq_queuesEmptied {id j : Nat} (hj : j ≠ id) (n : Nat) (s : State) :
    findCq (queuesEmptied id (dropQueues id s)) j n = findCq s j n :=
  (find?_map_other Cq.cntlid Cq.cqid (f := fun q => { q with head := 0, tail := 0, reserved := 0 }) hj n (fun _ => rfl) _).trans
    (find?_filter_other Cq.cntlid Cq.cqid hj n s.host.cqs)

end Sys2Proof.Machine
end

section
/-!
PROOFS. The features of a controller and of its queues (R56, R69, R76 to R78, R90): an equation for each case.
-/
namespace Sys2Proof.Machine
open Sys2Proof

section features
variable {a : Adm} {c : Ctrl} {s : State}

theorem withCtrl_of_some {f : Ctrl → State → State} (hc : admCtrl s a = some c) : withCtrl a f s = f c s := by
  simp [withCtrl, hc]

theorem withCtrl_of_none {f : Ctrl → State → State} (hc : admCtrl s a = none) : withCtrl a f s = admDone a .invalidField 0 s := by
  simp [withCtrl, hc]

/-- A feature command that runs for a controller leaves what its body leaves there. -/
theorem next_withCtrl {i j : Instr} {f : Ctrl → State → State} {x : State}
    (hexec : exec i s = .next (runAdmin .management a j (withCtrl a f) s)) (h : AdmRuns .management a s) (hc : admCtrl s a = some c)
    (hf : f c s = x) : Next i s fun t => t = passTurn a x :=
  next_of_runs hexec h (by decide) ((withCtrl_of_some hc).trans hf)

theorem next_withoutCtrl {i j : Instr} {f : Ctrl → State → State}
    (hexec : exec i s = .next (runAdmin .management a j (withCtrl a f) s)) (h : AdmRuns .management a s) (hc : admCtrl s a = none) :
    Next i s fun t => t = passTurn a (admDone a .invalidField 0 s) :=
  next_of_runs hexec h (by decide) (withCtrl_of_none hc)

/-- The queues granted to a controller that asks for so many (R56). -/
def granted (s : State) (c : Ctrl) (want : Nat) : Nat :=
  min (min want 128) (pairsAvailable (updCtrl c.cntlid (fun c => { c with grant := none }) s) c)

theorem setNumQueues_of_fabrics {nsqr ncqr : Nat} (hq : hasIoQueue s c.cntlid = false) (hi : pcieIssuer s a = none) :
    setNumQueues a nsqr ncqr c s =
      let g := granted s c (min (nsqr + 1) (ncqr + 1))
      if g = 0 then admDone a .commandInterrupted 0 s
      else admDone a .success ((g - 1) + 65536 * (g - 1)) (updCtrl c.cntlid (fun c => { c with grant := some g }) s) := by
  simp [setNumQueues, hq, hi, granted]

theorem setNumQueues_of_pcie {nsqr ncqr : Nat} {k : Ctrl} (hq : hasIoQueue s c.cntlid = false) (hi : pcieIssuer s a = some k) :
    setNumQueues a nsqr ncqr c s =
      let g := granted s c (nsqr + 1)
      if g = 0 then admDone a .commandInterrupted 0 s
      else admDone a .success ((g - 1) + 65536 * (min (ncqr + 1) 128 - 1)) (updCtrl c.cntlid (fun c => { c with grant := some g }) s) := by
  simp [setNumQueues, hq, hi, granted]

theorem queueValue_of_some {n : Nat} {f : Sq → Nat} {q : Sq} (hn : n ≠ 0) (hq : findSq s c.cntlid n = some q) :
    queueValue a n f c s = admDone a .success (f q) s := by
  simp [queueValue, hn, hq]

theorem queueValue_of_none {n : Nat} {f : Sq → Nat} (hno : n = 0 ∨ findSq s c.cntlid n = none) :
    queueValue a n f c s = admDone a .invalidQueueIdentifier 0 s := by
  unfold queueValue
  split
  · rfl
  · next q hq => exact if_pos (by simpa [hq] using hno)

end features

/-- Settles O38: each feature is stored in the issuer's controller or queue, or answered from there. -/
theorem controllerFeatures : Obligations.ControllerFeatures := by
  unfold Obligations.ControllerFeatures
  refine ⟨fun a c s h hc => ⟨fun burst lpw mpw hpw => ?_, fun v => ?_, fun v => ?_, fun fid v h8 h9 => ?_, fun v hq => ?_, fun v n m hq => ⟨?_, ?_⟩,
      fun nsqr ncqr hq hi => ⟨fun hg => ?_, fun hg => ?_⟩, fun nsqr ncqr hq hi => ⟨fun hg => ?_, fun hg => ?_⟩⟩,
    fun c s => ⟨fun hx => ?_, fun hx g => ?_⟩, fun a v c s h hc => ⟨fun hn hq => ⟨?_, ?_⟩, fun hno => ⟨?_, ?_⟩⟩,
    fun a c s h hc => ⟨?_, fun v => ?_, fun v => ?_, fun v => ?_, fun v => ?_, fun fid v hfid => ?_, fun q n hn hq => ⟨?_, ?_⟩,
      fun n hno => ⟨?_, ?_⟩⟩,
    fun a s h hc x y z w => ⟨?_, ?_, ?_, ?_, ?_⟩⟩
  case refine_1 => exact next_withCtrl rfl h hc rfl
  case refine_2 => exact next_withCtrl rfl h hc rfl
  case refine_3 => exact next_withCtrl rfl h hc rfl
  case refine_4 => exact next_withCtrl rfl h hc (by simp [setCoalescing, h8, h9])
  case refine_5 => exact next_withCtrl rfl h hc (by simp [setOrdering, hq])
  case refine_6 => exact next_withCtrl rfl h hc (if_pos hq)
  case refine_7 => exact next_withCtrl rfl h hc (if_pos hq)
  case refine_8 => exact next_withCtrl rfl h hc ((setNumQueues_of_fabrics hq hi).trans (if_neg hg))
  case refine_9 => exact next_withCtrl rfl h hc ((setNumQueues_of_fabrics hq hi).trans (if_pos hg))
  case refine_10 => exact next_withCtrl rfl h hc ((setNumQueues_of_pcie hq hi).trans (if_neg hg))
  case refine_11 => exact next_withCtrl rfl h hc ((setNumQueues_of_pcie hq hi).trans (if_pos hg))
  case refine_12 => exact if_neg (by simp [hx])
  case refine_13 =>
    unfold pairsAvailable
    rw [if_pos hx]
    omega
  case refine_14 => exact next_withCtrl rfl h hc (if_neg (by simpa [hn] using hq))
  case refine_15 => exact next_withCtrl rfl h hc (if_neg (by simpa [hn] using hq))
  case refine_16 => exact next_withCtrl rfl h hc (if_pos (by simpa using hno))
  case refine_17 => exact next_withCtrl rfl h hc (if_pos (by simpa using hno))
  case refine_18 => exact next_withCtrl rfl h hc rfl
  case refine_19 => exact next_withCtrl rfl h hc rfl
  case refine_20 => exact next_withCtrl rfl h hc rfl
  case refine_21 => exact next_withCtrl rfl h hc rfl
  case refine_22 => exact next_withCtrl rfl h hc rfl
  case refine_23 =>
    simp only [List.mem_cons, List.not_mem_nil, or_false, not_or] at hfid
    obtain ⟨h1, h6, h7, h8, h9, h15⟩ := hfid
    exact next_withCtrl rfl h hc (by simp [getFeature, h1, h6, h7, h8, h9, h15])
  case refine_24 => exact next_withCtrl rfl h hc (queueValue_of_some hn hq)
  case refine_25 => exact next_withCtrl rfl h hc (queueValue_of_some (f := fun q => b2n q.mediaOnly) hn hq)
  case refine_26 => exact next_withCtrl rfl h hc (queueValue_of_none hno)
  case refine_27 => exact next_withCtrl rfl h hc (queueValue_of_none hno)
  case refine_28 => exact next_withoutCtrl rfl h hc
  case refine_29 => exact next_withoutCtrl rfl h hc
  case refine_30 => exact next_withoutCtrl rfl h hc
  case refine_31 => exact next_withoutCtrl rfl h hc
  case refine_32 => exact next_withoutCtrl rfl h hc

end Sys2Proof.Machine
end

section
/-!
PROOFS. The life of a controller (R43, R51, R57, R58, R94, R95): its enable, its reset, its shutdown and its end.
-/
namespace Sys2Proof.Machine
open Sys2Proof

/-! ### The enable of a PCIe function (R43, R51, R95) -/

section enable
variable {e fn asqs acqs asq acq : Nat} {cc : CcFields} {p : Port} {s : State}

/-- What an enable needs of the endpoint and of what is written (R43, R71). -/
def EnableAllowed (s : State) (e fn : Nat) (cc : CcFields) (p : Port) : Prop :=
  findPort s e = some p ∧ (p.mode = 4 ∨ (p.mode = 5 ∧ e < partnerOf s e)) ∧ p.linkUp ≠ [] ∧ fn ≤ 63 ∧ cc.ams ≤ 1 ∧ cc.en = true ∧
    s.tfld e .qe_cfg_qe_enable ≠ 0 ∧ p.recon = 0

theorem enable_guard (h : EnableAllowed s e fn cc p) :
    (!(p.mode == 4 || (p.mode == 5 && decide (e < partnerOf s e))) || p.linkUp.isEmpty || decide (63 < fn) || decide (1 < cc.ams) ||
      !cc.en || s.tfld e .qe_cfg_qe_enable == 0 || p.recon != 0) = false := by
  obtain ⟨-, hmode, hup, hfn, hams, hen, hqe, hrecon⟩ := h
  simp [hup, hfn, hams, hen, hqe, hrecon]
  exact hmode.resolve_left

/-- The function's controller made, with its admin queues. -/
def ctrlMade (s : State) (e fn asqs acqs asq acq id : Nat) (cc : CcFields) : State :=
  { s with host := { s.host with
    ctrls := s.host.ctrls ++ [{ newCtrl s id e (.function e fn) (designated s (.function e fn) e && !providerExists s) 0
      with enabled := true, ready := true, ams := cc.ams }]
    nextInc := s.host.nextInc + 1
    sqs := s.host.sqs ++ [adminSq id e asq (min (asqs + 1) 256) .pcie]
    cqs := s.host.cqs ++ [adminCq id acq (min (acqs + 1) 256)] } }

theorem ctrlEnable_of_new (h : EnableAllowed s e fn cc p) (hnew : ∀ c, c ∈ s.host.ctrls → c.ident ≠ .function e fn) :
    ctrlEnable e fn asqs acqs asq acq cc s = match freeCntlid s e with
      | none => s
      | some id => if qpFree s e == 0 then s else ctrlMade s e fn asqs acqs asq acq id cc := by
  have hnone : (s.host.ctrls.find? fun c => c.ident == .function e fn) = none := List.find?_eq_none.2 fun c hc => by simpa using hnew c hc
  simp only [ctrlEnable, h.1, enable_guard h, hnone, Bool.false_eq_true, if_false]
  cases freeCntlid s e <;> rfl

/-- The function's controller enabled again, where its admin queues are placed. -/
def ctrlEnabled (s : State) (e asqs acqs asq acq : Nat) (cc : CcFields) (c : Ctrl) : State :=
  updSq c.cntlid 0 (fun q => { q with base := asq, size := min (asqs + 1) 256 })
    (updCq c.cntlid 0 (fun q => { q with base := acq, size := min (acqs + 1) 256 })
      (updCtrl c.cntlid (fun d => { d with
        enabled := true, ready := true, ams := cc.ams
        provider := d.provider || (designated s d.ident e && !providerExists s)
        orderMode := s.tfld e .qe_cfg_default_order_mode }) s))

theorem ctrlEnable_of_old (h : EnableAllowed s e fn cc p) {c : Ctrl} (hold : (s.host.ctrls.find? fun c => c.ident == .function e fn) = some c)
    (hoff : c.enabled = false) : ctrlEnable e fn asqs acqs asq acq cc s = ctrlEnabled s e asqs acqs asq acq cc c := by
  simp only [ctrlEnable, h.1, enable_guard h, hold, hoff, Bool.false_eq_true, if_false]
  rfl

theorem ctrlEnable_of_refused (h : 1 < cc.ams ∨ cc.en = false ∨ s.tfld e .qe_cfg_qe_enable = 0 ∨ 63 < fn) :
    ctrlEnable e fn asqs acqs asq acq cc s = s := by
  unfold ctrlEnable
  split
  · rfl
  · refine if_pos ?_
    rcases h with h | h | h | h <;> simp [h]

end enable

/-! ### The reset of a controller (R94, R95) -/

theorem onlyHostSide_queuesEmptied (id : Nat) (s : State) : OnlyHostSide s (queuesEmptied id s) := ⟨rfl, rfl, fun _ _ _ _ => rfl⟩

theorem resetCtrl_spec {id : Nat} {c : Ctrl} {s : State} (hfind : findCtrl s id = some c) :
    OnlyHostSide s (resetCtrl id s) ∧ findCtrl (resetCtrl id s) id = some (ctrlCleared c) ∧
      (∀ q, q ∈ (resetCtrl id s).host.sqs → q.cntlid = id → q.sqid = 0 ∧ q.head = 0 ∧ q.tail = 0 ∧ q.recv = []) ∧
      (∀ q, q ∈ (resetCtrl id s).host.cqs → q.cntlid = id → q.cqid = 0 ∧ q.head = 0 ∧ q.tail = 0 ∧ q.reserved = 0) ∧
      (resetCtrl id s).host.cmds = cmdsAfterReset (fun k => k.cntlid == id) s ∧
      (∀ j, j ≠ id → findCtrl (resetCtrl id s) j = findCtrl s j ∧
        ∀ n, findSq (resetCtrl id s) j n = findSq s j n ∧ findCq (resetCtrl id s) j n = findCq s j n) ∧
      (∀ k, k ∈ (resetCtrl id s).host.conns ↔ k ∈ s.host.conns ∧ ∀ j ∈ ioConns id s, k.id ≠ j.id) ∧
      (resetCtrl id s).host.ports = s.host.ports := by
  obtain ⟨hside, hhost, -, -, hcqs⟩ := resetCmdsOf_spec (fun k => k.cntlid == id) (closeAll (ioConns id s) s)
  have hclose := closeAll_eq (ioConns id s) s
  have hctrls : (resetCmds id (closeAll (ioConns id s) s)).host.ctrls = s.host.ctrls :=
    (congrArg HostSide.ctrls hhost).trans (by rw [hclose])
  have hsqs : (resetCmds id (closeAll (ioConns id s) s)).host.sqs = s.host.sqs := (congrArg HostSide.sqs hhost).trans (by rw [hclose])
  have hfindq : ∀ j n, findSq (resetCmds id (closeAll (ioConns id s) s)) j n = findSq s j n := fun j n =>
    congrArg (List.find? fun q : Sq => q.cntlid == j && q.sqid == n) hsqs
  have hupd := fun j => findCtrl_updCtrl (queuesEmptied id (dropQueues id (resetCmds id (closeAll (ioConns id s) s)))) j id
    (f := ctrlCleared) fun _ => rfl
  have hread : ∀ j, findCtrl (queuesEmptied id (dropQueues id (resetCmds id (closeAll (ioConns id s) s)))) j = findCtrl s j := fun j =>
    congrArg (List.find? fun c : Ctrl => c.cntlid == j) hctrls
  rw [resetCtrl_eq]
  refine ⟨?_, ?_, fun q hq hid => mem_sqs_queuesEmptied hq hid, fun q hq hid => mem_cqs_queuesEmptied hq hid, ?_, fun j hj => ⟨?_, fun n => ⟨?_, ?_⟩⟩,
    fun k => ?_, ?_⟩
  · exact (((onlyHostSide_closeAll (ioConns id s) s).trans hside).trans (onlyHostSide_dropQueues id _)).trans
      ((onlyHostSide_queuesEmptied id _).trans (onlyHostSide_updCtrl id ctrlCleared _))
  · rw [hupd, if_pos rfl, hread, hfind, Option.map_some]
  · refine (congrArg HostSide.cmds hhost :).trans ?_
    rw [hclose]
    rfl
  · rw [hupd, if_neg hj, hread]
  · exact (findSq_queuesEmptied hj n _).trans (hfindq j n)
  · refine ((findCq_queuesEmptied hj n _).trans (hcqs j (fun c _ hc => ?_) n)).trans ?_
    · rw [beq_iff_eq.1 hc]
      exact Ne.symm hj
    · rw [hclose]
      rfl
  · have hconns : (resetCmds id (closeAll (ioConns id s) s)).host.conns = (closeAll (ioConns id s) s).host.conns :=
      (congrArg HostSide.conns hhost :)
    exact (iff_of_eq (congrArg (k ∈ ·) hconns)).trans mem_conns_closeAll
  · exact (congrArg HostSide.ports hhost).trans (by rw [hclose])

/-! ### Shutdown (R95) -/

theorem ctrlShutdown_of_enabled {id : Nat} {c : Ctrl} {s : State} (hfind : findCtrl s id = some c) (hen : c.enabled = true) :
    ctrlShutdown id s = shutdownDone id (updCtrl id (fun c => { c with shutting := true, shst := 1 }) s) := by
  simp only [ctrlShutdown, hfind, hen, if_true]

/-- Settles O32: each step makes, changes or ends the controllers it names, and leaves the others. -/
theorem controllerLife : Obligations.ControllerLife := by
  unfold Obligations.ControllerLife
  refine ⟨fun e fn asqs acqs asq acq id cc p s hport hmode hup hfn hams hen hqe hrecon hnew => ⟨fun hfree hqp => ?_, fun hno => ?_⟩,
    fun e fn asqs acqs asq acq cc p c s hport hmode hup hfn hams hen hqe hrecon hold hfind hoff => ?_,
    fun e fn asqs acqs asq acq cc s hno => ⟨_, congrArg Host.Outcome.next (ctrlEnable_of_refused hno), rfl⟩,
    fun id c s hfind => ⟨fun hen => ?_, fun hoff => ?_⟩, fun id abrupt c s hfind => ⟨fun hen => ?_, fun hoff => ?_⟩,
    fun id abrupt s hnone => ⟨?_, ?_, ?_⟩, fun e fn s => ?_, fun e s => ?_, fun id n c s hfind hnqn => ⟨fun hlate => ?_, fun hearly => ?_⟩⟩
  case refine_1 =>
    have hgo := ctrlEnable_of_new (asqs := asqs) (acqs := acqs) (asq := asq) (acq := acq) ⟨hport, hmode, hup, hfn, hams, hen, hqe, hrecon⟩ hnew
    rw [hfree] at hgo
    exact ⟨_, congrArg Host.Outcome.next (hgo.trans (if_neg (by simpa using hqp))), rfl⟩
  case refine_2 =>
    have hgo := ctrlEnable_of_new (asqs := asqs) (acqs := acqs) (asq := asq) (acq := acq) ⟨hport, hmode, hup, hfn, hams, hen, hqe, hrecon⟩ hnew
    refine ⟨_, congrArg Host.Outcome.next (hgo.trans ?_), rfl⟩
    split
    · rfl
    · next id' hid => exact if_pos (by simpa [hid] using hno)
  case refine_3 =>
    have hgo := ctrlEnable_of_old (asqs := asqs) (acqs := acqs) (asq := asq) (acq := acq) ⟨hport, hmode, hup, hfn, hams, hen, hqe, hrecon⟩ hold hoff
    refine ⟨_, congrArg Host.Outcome.next hgo, rfl, ?_, fun j hj => ?_, fun q hq => ?_, fun q hq => ?_, fun j n hjn => ⟨?_, ?_⟩⟩
    · refine (findCtrl_updCtrl s c.cntlid c.cntlid (f := fun d => { d with
        enabled := true, ready := true, ams := cc.ams
        provider := d.provider || (designated s d.ident e && !providerExists s)
        orderMode := s.tfld e .qe_cfg_default_order_mode }) fun _ => rfl).trans ?_
      rw [if_pos rfl, hfind, Option.map_some]
    · refine (findCtrl_updCtrl s j c.cntlid (f := fun d => { d with
        enabled := true, ready := true, ams := cc.ams
        provider := d.provider || (designated s d.ident e && !providerExists s)
        orderMode := s.tfld e .qe_cfg_default_order_mode }) fun _ => rfl).trans (if_neg hj)
    · refine (findSq_updSq s c.cntlid 0 c.cntlid 0 (f := fun q => { q with base := asq, size := min (asqs + 1) 256 })
        fun _ => ⟨rfl, rfl⟩).trans ?_
      rw [if_pos ⟨rfl, rfl⟩, hq, Option.map_some]
    · refine (findCq_updCq s c.cntlid 0 c.cntlid 0 (f := fun q => { q with base := acq, size := min (acqs + 1) 256 })
        fun _ => ⟨rfl, rfl⟩).trans ?_
      rw [if_pos ⟨rfl, rfl⟩, hq, Option.map_some]
    · exact (findSq_updSq s j n c.cntlid 0 (f := fun q => { q with base := asq, size := min (asqs + 1) 256 })
        fun _ => ⟨rfl, rfl⟩).trans (if_neg (by omega))
    · exact (findCq_updCq s j n c.cntlid 0 (f := fun q => { q with base := acq, size := min (acqs + 1) 256 })
        fun _ => ⟨rfl, rfl⟩).trans (if_neg (by omega))
  case refine_4 =>
    have hgo : ctrlReset id s = resetCtrl id s := by simp only [ctrlReset, hfind, hen, if_true]
    obtain ⟨hside, hctrl, hsqs, hcqs, hcmds, hothers, hconns, hports⟩ := resetCtrl_spec hfind
    refine ⟨_, congrArg Host.Outcome.next hgo, hside, hctrl, hsqs, hcqs, fun k hk hid => ?_, fun k hk hid hruns haer hheld hone => ?_, hothers,
      fun k hk hbound hid => ?_, fun k hk hfree => ?_, hports⟩
    · rw [hcmds] at hk
      exact discard_of_mem_cmdsAfterReset hk (by simpa using hid)
    · rw [hcmds]
      refine mem_cmdsAfterReset_of_survives hk (by simpa using hid) ?_ hone
      have hnot : (s.heldAdmin.filterMap heldCmd).contains k.id = false := by
        rw [List.contains_eq_mem, decide_eq_false_iff_not]
        intro hmem
        obtain ⟨x, hx, heq⟩ := List.mem_filterMap.1 hmem
        exact hheld x hx heq
      simp only [endsAtReset, hruns, haer, hnot, Bool.not_true, Bool.or_self, Bool.and_false]
    · by_contra hne
      obtain ⟨hmem, hnot⟩ := (hconns k).1 hk
      exact hnot k (List.mem_filter.2 ⟨hmem, by simp [hbound, hid, hne]⟩) rfl
    · refine (hconns k).2 ⟨hk, fun j hj heq => ?_⟩
      obtain ⟨hmem, hio⟩ := List.mem_filter.1 hj
      simp only [Bool.and_eq_true, beq_iff_eq, bne_iff_ne] at hio
      exact hfree j hmem heq.symm ⟨hio.1.1, hio.1.2, hio.2⟩
  case refine_5 => exact ⟨_, congrArg Host.Outcome.next (by simp [ctrlReset, hfind, hoff]), rfl⟩
  case refine_6 =>
    have hgo := ctrlShutdown_of_enabled hfind hen
    have hmark := fun j => findCtrl_updCtrl s j id (f := fun c => { c with shutting := true, shst := 1 }) fun _ => rfl
    generalize hm : updCtrl id (fun c => { c with shutting := true, shst := 1 }) s = m at hgo hmark
    have hcmds : m.host.cmds = s.host.cmds := by rw [← hm]; rfl
    have hframe : m = { s with host := { s.host with ctrls := m.host.ctrls } } := by rw [← hm]; rfl
    have hdone := fun j => findCtrl_updCtrl m j id (f := fun c => if c.shutting then { c with shst := 2 } else c)
      fun c => by split <;> rfl
    refine ⟨_, congrArg Host.Outcome.next hgo, ?_, fun j hj => ?_, fun hnone => ?_, fun hsome => ?_⟩
    · unfold shutdownDone
      refine iteInduction (motive := fun u : State => u = { s with host := { s.host with ctrls := u.host.ctrls } }) (fun _ => hframe) fun _ => ?_
      rw [hframe]
      rfl
    · unfold shutdownDone
      refine iteInduction (motive := fun u : State => findCtrl u j = findCtrl s j) (fun _ => ?_) fun _ => ?_
      · rw [hmark, if_neg hj]
      · rw [hdone, if_neg hj, hmark, if_neg hj]
    · have hany : (m.host.cmds.any fun k => k.cntlid == id && !(m.host.ctrls.any fun x => x.cntlid == id && x.aers.contains k.id)) = false := by
        rw [hcmds]
        exact List.any_eq_false.2 fun k hk => by simp [hnone k hk]
      unfold shutdownDone
      rw [hany, if_neg Bool.false_ne_true, hdone, if_pos rfl, hmark, if_pos rfl, hfind]
      rfl
    · obtain ⟨k, hk, hid, haer⟩ := hsome
      have hany : (m.host.cmds.any fun k => k.cntlid == id && !(m.host.ctrls.any fun x => x.cntlid == id && x.aers.contains k.id)) = true := by
        rw [hcmds]
        refine List.any_eq_true.2 ⟨k, hk, ?_⟩
        have hnot : (m.host.ctrls.any fun x => x.cntlid == id && x.aers.contains k.id) = false := by
          rw [← hm]
          refine List.any_eq_false.2 fun x hx => ?_
          obtain ⟨y, hy, rfl⟩ := List.mem_map.1 hx
          by_cases hyid : y.cntlid = id
          · simpa [hyid] using haer y hy hyid
          · simp [hyid]
        rw [hnot, hid]
        simp
      unfold shutdownDone
      rw [hany, if_pos rfl, hmark, if_pos rfl, hfind]
      rfl
  case refine_7 => exact ⟨_, congrArg Host.Outcome.next (by simp [ctrlShutdown, hfind, hoff]), rfl⟩
  case refine_8 => exact ⟨_, congrArg Host.Outcome.next (by simp [ctrlReset, hnone]), rfl⟩
  case refine_9 => exact ⟨_, congrArg Host.Outcome.next (by simp [ctrlShutdown, hnone]), rfl⟩
  case refine_10 => exact ⟨_, congrArg Host.Outcome.next (by simp [kaExpiry, hnone]), rfl⟩
  case refine_11 =>
    obtain ⟨hside, -, hports, hctrls, hsqs, hdisc⟩ := endCtrls_spec ((s.host.ctrls.filter fun c => c.ident == .function e fn).map (·.cntlid)) s
    refine ⟨_, rfl, hside, hports, fun c => (hctrls c).trans ?_, fun k q hk hid hq heq => hsqs q hq ?_, fun k c hk hid hc heq => hdisc k.cntlid (.inr ?_) c hc heq⟩
    · simp [and_imp]
    · exact List.mem_map.2 ⟨k, List.mem_filter.2 ⟨hk, by simp [hid]⟩, heq.symm⟩
    · exact List.mem_map.2 ⟨k, List.mem_filter.2 ⟨hk, by simp [hid]⟩, rfl⟩
  case refine_12 =>
    obtain ⟨hside, -, hports, hctrls, hsqs, hdisc⟩ := endCtrls_spec ((s.host.ctrls.filter (onEndpoint e)).map (·.cntlid)) s
    refine ⟨_, rfl, hside, hports, fun c => (hctrls c).trans ?_, fun k q hk hid hq heq => hsqs q hq ?_, fun k c hk hid hc heq => hdisc k.cntlid (.inr ?_) c hc heq⟩
    · simp [and_imp]
    · exact List.mem_map.2 ⟨k, List.mem_filter.2 ⟨hk, hid⟩, heq.symm⟩
    · exact List.mem_map.2 ⟨k, List.mem_filter.2 ⟨hk, hid⟩, rfl⟩
  case refine_13 =>
    have hgo : kaExpiry id s = endCtrl id s := by simp [kaExpiry, hfind, hnqn, hlate]
    obtain ⟨hside, -, -, -, hctrls, hcmds, hsqs, -, hconns⟩ := endCtrl_spec id s
    refine ⟨_, congrArg Host.Outcome.next hgo, hside, findCtrl_eq_none_of_filter hctrls, fun k hk hbound hid => ?_, fun q hq => ((hsqs q).1 hq).2,
      allDiscarded_endCtrl_self id s⟩
    obtain ⟨hmem, hnot⟩ := (hconns k).1 hk
    exact hnot k hmem hbound hid rfl
  case refine_14 =>
    have hgo : kaExpiry id s = s := by simp [kaExpiry, hfind, hnqn, hearly]
    exact ⟨_, congrArg Host.Outcome.next hgo, rfl⟩

end Sys2Proof.Machine
end

section
/-!
PROOFS. The fabrics commands of a live association (R53, R57, R71, R94, R95): an equation for each case.
-/
namespace Sys2Proof.Machine
open Sys2Proof

/-- From `s` to `t` only the admin commands held, let go and cleared may differ. -/
def OnlyTurns (s t : State) : Prop := t = { s with heldAdmin := t.heldAdmin, released := t.released, cleared := t.cleared }

theorem onlyTurns_passTurn (a : Adm) (s : State) : OnlyTurns s (passTurn a s) := by
  unfold passTurn
  dsimp only
  refine iteInduction (motive := OnlyTurns s) (fun _ => rfl) fun _ => iteInduction (motive := OnlyTurns s) (fun _ => ?_) fun _ => ?_ <;> rfl

@[simp] theorem host_passTurn (a : Adm) (s : State) : (passTurn a s).host = s.host := by rw [onlyTurns_passTurn a s]
@[simp] theorem outs_passTurn (a : Adm) (s : State) : (passTurn a s).outs = s.outs := by rw [onlyTurns_passTurn a s]
@[simp] theorem board_passTurn (a : Adm) (s : State) : (passTurn a s).board = s.board := by rw [onlyTurns_passTurn a s]
@[simp] theorem reg_passTurn (a : Adm) (s : State) : (passTurn a s).reg = s.reg := by rw [onlyTurns_passTurn a s]
@[simp] theorem regs_passTurn (a : Adm) (s : State) : (passTurn a s).regs = s.regs := by rw [onlyTurns_passTurn a s]
@[simp] theorem findSq_passTurn (a : Adm) (s : State) (j n : Nat) : findSq (passTurn a s) j n = findSq s j n :=
  congrArg (fun h : HostSide => h.sqs.find? fun q : Sq => q.cntlid == j && q.sqid == n) (host_passTurn a s)
@[simp] theorem findCtrl_passTurn (a : Adm) (s : State) (j : Nat) : findCtrl (passTurn a s) j = findCtrl s j :=
  congrArg (fun h : HostSide => h.ctrls.find? fun c : Ctrl => c.cntlid == j) (host_passTurn a s)

/-- A controller is found as before, but for its events and errors, across the end of a command. -/
theorem findCtrl_core {s t : State} (h : CmdSide s t) (j : Nat) : (findCtrl t j).map Ctrl.core = (findCtrl s j).map Ctrl.core := by
  have hmap : ∀ l : List Ctrl, (l.find? fun c => c.cntlid == j).map Ctrl.core = (l.map Ctrl.core).find? fun c => c.cntlid == j := fun l => by
    rw [List.find?_map]
    rfl
  exact ((hmap _).trans (congrArg (List.find? fun c : Ctrl => c.cntlid == j) h.ctrls)).trans (hmap _).symm

/-- A controller found before the end of a command is found after it, as enabled as it was. -/
theorem findCtrl_enabled_of_cmdSide {s t : State} (h : CmdSide s t) {j : Nat} {c : Ctrl} (hfind : findCtrl s j = some c) :
    ∃ d, findCtrl t j = some d ∧ d.enabled = c.enabled := by
  have hcore := findCtrl_core h j
  rw [hfind, Option.map_some] at hcore
  obtain ⟨d, hd, heq⟩ := Option.map_eq_some_iff.1 hcore
  exact ⟨d, hd, (congrArg Ctrl.enabled heq :)⟩

section fabrics
variable {a : Adm} {n : Bytes} {c : Ctrl} {s : State}

/-- Only a command of the host has a controller as its issuer. -/
theorem adm_host_of_admCtrl (h : admCtrl s a = some c) : ∃ id, a = .host id := by
  cases a with
  | host id => exact ⟨id, rfl⟩
  | ring => exact absurd h (by simp [admCtrl])
  | conn id => exact absurd h (by simp [admCtrl])

theorem cmdSide_admDone_of_ctrl (h : admCtrl s a = some c) (st : Status) (dw0 : Nat) : CmdSide s (admDone a st dw0 s) := by
  obtain ⟨id, rfl⟩ := adm_host_of_admCtrl h
  exact cmdSide_finishCmd id st dw0 s

section issuer
variable (hc : admCtrl s a = some c) (hn : c.ident = .nqn n)
include hc hn

theorem propertyGet_of_nqn (off : Nat) : propertyGet a off s =
    if off = 0 then admAnswer a [(0, 8, capValue)] s
    else if off = 8 then admAnswer a [(0, 4, 0x00020100)] s
    else if off = 0x14 then admAnswer a [(0, 4, ccValue c)] s
    else if off = 0x1C then admAnswer a [(0, 4, cstsValue c)] s
    else admDone a .invalidField 0 s := by
  simp [propertyGet, hc, hn]

theorem propertySet_refused {off v : Nat} (h : off ≠ 0x14 ∨ 1 < bitsOf v 13 11) : propertySet a off v s = admDone a .invalidField 0 s := by
  simp only [propertySet, hc, hn]
  exact if_pos (by simpa using h)

theorem propertySet_taken {v : Nat} (h : bitsOf v 13 11 ≤ 1) : propertySet a 0x14 v s =
    writeCc c.cntlid { en := bitOf v 0, ams := bitsOf v 13 11, shn := bitsOf v 15 14 } (admDone a .success 0 s) := by
  simp only [propertySet, hc, hn]
  exact if_neg (by simpa using h)

theorem disconnectQ_of_some {qid : Nat} {q : Sq} (hq : findSq s c.cntlid qid = some q) :
    disconnectQ a qid s = endQueue c.cntlid qid (admDone a .success 0 s) := by
  simp [disconnectQ, hc, hn, hq]

theorem disconnectQ_of_none {qid : Nat} (hq : findSq s c.cntlid qid = none) : disconnectQ a qid s = admDone a .invalidField 0 s := by
  simp [disconnectQ, hc, hn, hq]

theorem keepAlive_of_nqn : keepAlive a s =
    admDone a .success 0 (updCtrl c.cntlid (fun c => { c with kaDeadline := s.nowMs + c.kato }) s) := by
  simp [keepAlive, hc, hn]

end issuer

theorem not_fabrics (h : admCtrl s a = none ∨ ∃ c e f, admCtrl s a = some c ∧ c.ident = .function e f) :
    (∀ off, propertyGet a off s = admDone a .invalidOpcode 0 s) ∧ (∀ off v, propertySet a off v s = admDone a .invalidOpcode 0 s) ∧
      ∀ qid, disconnectQ a qid s = admDone a .invalidOpcode 0 s := by
  obtain hnone | ⟨c, e, f, hc, hf⟩ := h
  · simp [propertyGet, propertySet, disconnectQ, hnone]
  · simp [propertyGet, propertySet, disconnectQ, hc, hf]

end fabrics

section writeCc
variable {id : Nat} {cc : CcFields} {d : Ctrl} {s : State}

theorem writeCc_enable (h : findCtrl s id = some d) (hen : cc.en = true) (hoff : d.enabled = false) :
    writeCc id cc s = updCtrl id (fun c => { c with enabled := true, ready := true, ams := cc.ams }) s := by
  simp [writeCc, h, hen, hoff]

theorem writeCc_reset (h : findCtrl s id = some d) (hen : cc.en = false) (hon : d.enabled = true) : writeCc id cc s = resetCtrl id s := by
  simp [writeCc, h, hen, hon]

theorem writeCc_shutdown (h : findCtrl s id = some d) (hen : cc.en = true) (hon : d.enabled = true) (hshn : cc.shn ≠ 0) :
    writeCc id cc s = ctrlShutdown id s := by
  simp [writeCc, h, hen, hon, hshn]

theorem writeCc_same (h : findCtrl s id = some d) (hen : cc.en = d.enabled) (hshn : cc.en = false ∨ cc.shn = 0) : writeCc id cc s = s := by
  have hgo : (cc.en && cc.shn != 0) = false := by obtain h | h := hshn <;> simp [h]
  simp [writeCc, h, ← hen, hgo]

end writeCc

/-- Settles O33: each property and each command of an association is answered from its controller. -/
theorem fabricsCommands : Obligations.FabricsCommands := by
  unfold Obligations.FabricsCommands
  refine ⟨fun a n c s hruns hc hn => ⟨?_, ?_, ?_, ?_, fun off h0 h8 h14 h1c => ?_, fun off v hbad => ?_, fun v hams hfind => ?_,
    fun qid q hq => ?_, fun qid hq => ?_⟩, fun a n c s hruns hc hn => ?_, fun a s hruns hno => ⟨fun off v => ⟨?_, ?_⟩, fun qid => ?_⟩⟩
  case refine_1 => exact next_of_runs rfl hruns (by decide) (propertyGet_of_nqn hc hn 0)
  case refine_2 => exact next_of_runs rfl hruns (by decide) (propertyGet_of_nqn hc hn 8)
  case refine_3 => exact next_of_runs rfl hruns (by decide) (propertyGet_of_nqn hc hn 0x14)
  case refine_4 => exact next_of_runs rfl hruns (by decide) (propertyGet_of_nqn hc hn 0x1C)
  case refine_5 =>
    exact next_of_runs rfl hruns (by decide) ((propertyGet_of_nqn hc hn off).trans (by simp only [h0, h8, h14, h1c, if_false]))
  case refine_6 => exact next_of_runs rfl hruns (by decide) (propertySet_refused hc hn hbad)
  case refine_7 =>
    have htake := propertySet_taken hc hn hams
    obtain ⟨d, hd, hen⟩ := findCtrl_enabled_of_cmdSide (cmdSide_admDone_of_ctrl hc .success 0) hfind
    refine ⟨fun hset hoff => ?_, fun hclear hon => ?_, fun hset hon hshn => ?_, fun hsame hshn => ?_⟩
    · exact next_of_runs rfl hruns (by decide) (htake.trans (writeCc_enable hd hset (hen.trans hoff)))
    · exact next_of_runs rfl hruns (by decide) (htake.trans (writeCc_reset hd hclear (hen.trans hon)))
    · exact next_of_runs rfl hruns (by decide) ((htake.trans (writeCc_shutdown hd hset (hen.trans hon) hshn)).trans
        (ctrlShutdown_of_enabled hd (hen.trans hon)))
    · exact next_of_runs rfl hruns (by decide) (htake.trans (writeCc_same hd (hsame.trans hen.symm) hshn))
  case refine_8 =>
    obtain ⟨-, -, hgone, hctrl, -⟩ := endQueue_spec c.cntlid qid (admDone a .success 0 s)
    obtain ⟨t, ht, heq⟩ := next_of_runs (c := .disconnect a qid) rfl hruns (by decide) (disconnectQ_of_some hc hn hq)
    refine ⟨t, ht, heq, ?_, fun h0 => ?_⟩
    · rw [heq, findSq_passTurn, hgone]
    · rw [heq, findCtrl_passTurn, hctrl h0]
  case refine_9 => exact next_of_runs rfl hruns (by decide) (disconnectQ_of_none hc hn hq)
  case refine_10 => exact next_of_runs rfl hruns (by decide) (keepAlive_of_nqn hc hn)
  case refine_11 => exact next_of_runs rfl hruns (by decide) ((not_fabrics hno).1 off)
  case refine_12 => exact next_of_runs rfl hruns (by decide) ((not_fabrics hno).2.1 off v)
  case refine_13 => exact next_of_runs rfl hruns (by decide) ((not_fabrics hno).2.2 qid)

end Sys2Proof.Machine
end

section
/-!
PROOFS. Connections of a host port (R46 to R48, R55 to R58, R62, R94, R105, R526): an equation for each case of a request, a Connect and
a close.
-/
namespace Sys2Proof.Machine
open Sys2Proof

section requests
variable {t p i dport mtu hpda : Nat} {hd dd : Bool} {n : NetIf} {s : State}

theorem tcpRequest_of_iface (hup : portUp s t p = true) (hif : findIf s t p i = some n) : tcpRequest t p i dport hd dd hpda s =
    if s.tfld t .qe_cfg_qe_enable == 0 || !(n.takesIo dport || n.takesDisc dport) then emit (.connRefused t p i) s
    else openConn { newConn s n .tcp (!n.takesIo dport) with hdgst := hd, ddgst := dd, hpda := hpda } s := by
  simp [tcpRequest, hup, hif]

theorem rdmaRequest_of_iface (hup : portUp s t p = true) (hif : findIf s t p i = some n) : rdmaRequest t p i mtu s =
    if s.tfld t .qe_cfg_qe_enable == 0 || !bitOf n.flags 4 || !pathMtus.contains mtu then emit (.connRefused t p i) s
    else openConn { newConn s n .rdma false with mtu := mtu } s := by
  simp [rdmaRequest, hup, hif]

theorem requests_unheard (hno : portUp s t p = false ∨ findIf s t p i = none) :
    tcpRequest t p i dport hd dd hpda s = s ∧ rdmaRequest t p i mtu s = s := by
  cases hup : portUp s t p with
  | false => simp [tcpRequest, rdmaRequest, hup]
  | true => simp [tcpRequest, rdmaRequest, hup, hno.resolve_left (by simp [hup])]

theorem not_mem_pathMtus (h : mtu ∉ [1024, 2048, 4096]) : pathMtus.contains mtu = false := by
  simpa [pathMtus] using h

theorem mem_pathMtus (h : mtu ∈ [1024, 2048, 4096]) : pathMtus.contains mtu = true := by
  simpa [pathMtus] using h

end requests

/-! ### Connect (R48, R55 to R58, R62, R526) -/

section connect
variable {id : Nat} {d : ConnectData} {k : Conn} {c : Ctrl} {s : State}

theorem key_of_liveConn (h : liveConn s id = some k) : k.id = id := key_of_findConn ((Option.filter_eq_some_iff.1 h).1)

theorem fabricsConnect_of_live (h : liveConn s id = some k) : fabricsConnect id d s =
    if k.bound || s.tfld k.tile .qe_cfg_qe_enable == 0 then s
    else if reconfiguring s k.tile then emit (.connectFailed id .controllerBusy .none) s
    else if k.discovery then emit (.connected id 0) (bindConn id 0 0 d.hostNqn s)
    else if d.qid == 0 then connectAdmin k d s
    else connectIo k d s := by
  simp only [fabricsConnect, h]

theorem fabricsConnect_ready (h : liveConn s id = some k) (hfree : k.bound = false) (hqe : s.tfld k.tile .qe_cfg_qe_enable ≠ 0)
    (hrec : reconfiguring s k.tile = false) (hdisc : k.discovery = false) :
    fabricsConnect id d s = if d.qid == 0 then connectAdmin k d s else connectIo k d s := by
  simp [fabricsConnect_of_live h, hfree, hqe, hrec, hdisc]

theorem connectAdmin_of_size (h : 31 < d.sqsize) :
    connectAdmin k d s = emit (.connectFailed k.id .connectInvalidParameters .sqsize) s := if_pos h

/-- Who asks for an admin queue is the provider while there is none, or a tenant (R58, R105). -/
def MayAssociate (s : State) (d : ConnectData) (k : Conn) : Prop :=
  (designated s (.nqn d.hostNqn) k.tile = true → providerExists s = false) ∧
    (designated s (.nqn d.hostNqn) k.tile = false → (identTenant s (.nqn d.hostNqn)).isSome = true)

theorem connectAdmin_of_busy (hsize : d.sqsize ≤ 31) (hprov : designated s (.nqn d.hostNqn) k.tile = true) (hone : providerExists s = true) :
    connectAdmin k d s = emit (.connectFailed k.id .controllerBusy .none) s := by
  simp [connectAdmin, hsize, hprov, hone]

theorem connectAdmin_of_unknown (hsize : d.sqsize ≤ 31) (hprov : designated s (.nqn d.hostNqn) k.tile = false)
    (hnone : identTenant s (.nqn d.hostNqn) = none) : connectAdmin k d s = emit (.connectFailed k.id .connectInvalidHost .none) s := by
  simp [connectAdmin, hsize, hprov, hnone]

theorem connectAdmin_allowed (hsize : d.sqsize ≤ 31) (hmay : MayAssociate s d k) : connectAdmin k d s = match freeCntlid s k.tile with
    | none => emit (.connectFailed k.id .controllerBusy .none) s
    | some cid => if qpFree s k.tile == 0 then emit (.connectFailed k.id .controllerBusy .none) s
      else emit (.connected k.id cid) (bindConn k.id cid 0 d.hostNqn { s with host := { s.host with
        ctrls := s.host.ctrls ++ [newCtrl s cid k.tile (.nqn d.hostNqn) (designated s (.nqn d.hostNqn) k.tile) d.kato]
        nextInc := s.host.nextInc + 1
        sqs := s.host.sqs ++ [adminSq cid k.tile 0 (d.sqsize + 1) k.transport]
        cqs := s.host.cqs ++ [adminCq cid 0 (d.sqsize + 1)] } }) := by
  obtain ⟨hprov, hten⟩ := hmay
  have hbusy : (designated s (.nqn d.hostNqn) k.tile && providerExists s) = false := by
    cases h : designated s (.nqn d.hostNqn) k.tile
    · rfl
    · exact hprov h
  have hknown : (!designated s (.nqn d.hostNqn) k.tile && (identTenant s (.nqn d.hostNqn)).isNone) = false := by
    cases h : designated s (.nqn d.hostNqn) k.tile
    · simpa using hten h
    · rfl
  cases hfree : freeCntlid s k.tile <;>
    simp only [connectAdmin, hbusy, hknown, hfree, Nat.not_lt.2 hsize, if_false, Bool.false_eq_true]

theorem connectIo_of_ctrl (hc : findCtrl s d.cntlid = some c) (hident : c.ident = .nqn d.hostNqn) (htile : c.tile = k.tile) : connectIo k d s =
    if c.grant.getD 0 < d.qid || (findSq s d.cntlid d.qid).isSome then emit (.connectFailed k.id .connectInvalidParameters .qid) s
    else if 1023 < d.sqsize then emit (.connectFailed k.id .connectInvalidParameters .sqsize) s
    else emit (.connected k.id d.cntlid) (bindConn k.id d.cntlid d.qid d.hostNqn { s with host := { s.host with
      sqs := s.host.sqs ++ [ioSq d.cntlid d.qid k.tile 0 (d.sqsize + 1) d.qid 2 (s.tfld k.tile .qe_cfg_freeze_default == 1) k.transport]
      cqs := s.host.cqs ++ [ioCq d.cntlid d.qid 0 (d.sqsize + 1) 0 false] } }) := by
  simp only [connectIo, hc]
  exact if_neg (by simp [hident, htile])

theorem findConn_bindConn (id cntlid sqid : Nat) (n : Bytes) (s : State) (x : Nat) : findConn (bindConn id cntlid sqid n s) x =
    if x = id then (findConn s x).map fun k => { k with bound := true, cntlid := cntlid, sqid := sqid, nqn := n } else findConn s x :=
  find?_updKey Conn.id (f := fun k => { k with bound := true, cntlid := cntlid, sqid := sqid, nqn := n }) (fun _ => rfl) id x _

theorem connClosed_bound (h : findConn s id = some k) (hb : k.bound = true) (hd : k.discovery = false) :
    connClosed id s = endQueue k.cntlid k.sqid (dropConn id s) := by
  simp [connClosed, h, hb, hd]

theorem connClosed_unbound (h : findConn s id = some k) (hno : k.bound = false ∨ k.discovery = true) : connClosed id s = dropConn id s := by
  simp only [connClosed, h]
  exact if_neg (by obtain h | h := hno <;> simp [h])

end connect

theorem findConn_eq_none_of_forall {s : State} {id : Nat} (h : ∀ k ∈ s.host.conns, k.id ≠ id) : findConn s id = none :=
  List.find?_eq_none.2 fun k hk => by simpa using h k hk

theorem id_ne_of_mem_dropConn {id : Nat} {s : State} {k : Conn} (h : k ∈ (dropConn id s).host.conns) : k.id ≠ id := by
  simpa using (List.mem_filter.1 h).2

/-- Settles O30: each request and Connect is taken or refused as its case says, and a close ends what the connection carried. -/
theorem hostConnections : Obligations.HostConnections := by
  unfold Obligations.HostConnections
  refine ⟨fun t p i dport mtu hpda hd dd n s hup hif => ⟨fun hqe hio => ?_, fun hqe hio hdisc => ?_, fun hno => ?_, fun hqe hflag hmtu => ?_,
      fun hno => ?_⟩,
    fun k s hid hnew => ⟨rfl, rfl, ?_⟩, fun t p i dport mtu hpda hd dd s hno => ⟨?_, ?_⟩,
    fun id d k s hlive hruns => ⟨fun hno => ?_, fun hfree hqe => ⟨fun hrec => ?_, fun hrec => ⟨fun hdisc => ?_, fun hdisc hq hsize =>
      ⟨fun hprov hnone => ?_, fun hprov hone => ?_, fun cid hprov hten hcid hqp => ?_, fun hfull hprov hten => ?_⟩, fun hdisc hq hsize => ?_,
      fun c hdisc hq hc hident htile => ⟨fun hgrant hnew => ⟨fun hsize => ?_, fun hsize => ?_⟩, fun hgrant => ?_⟩⟩⟩⟩,
    fun id cntlid sqid n k s hfind => ⟨?_, fun x hx => ?_⟩, fun id d s hnone hruns => ?_,
    fun id k s hfind => ?_, fun id s hnone => ?_⟩
  case refine_1 =>
    refine ⟨_, congrArg Host.Outcome.next ((tcpRequest_of_iface hup hif).trans (if_neg (by simp [hqe, hio]))), ?_⟩
    rw [hio]
    rfl
  case refine_2 =>
    refine ⟨_, congrArg Host.Outcome.next ((tcpRequest_of_iface hup hif).trans (if_neg (by simp [hqe, hio, hdisc]))), ?_⟩
    rw [hio]
    rfl
  case refine_3 =>
    refine ⟨_, congrArg Host.Outcome.next ((tcpRequest_of_iface hup hif).trans (if_pos ?_)), rfl⟩
    obtain h | ⟨hio, hdisc⟩ := hno
    · simp [h]
    · simp [hio, hdisc]
  case refine_4 =>
    exact ⟨_, congrArg Host.Outcome.next ((rdmaRequest_of_iface hup hif).trans (if_neg (by simp only [beq_iff_eq, hqe, hflag, mem_pathMtus hmtu,
      Bool.or_eq_true, Bool.not_true, Bool.false_eq_true, or_self, not_false_eq_true]))), rfl⟩
  case refine_5 =>
    refine ⟨_, congrArg Host.Outcome.next ((rdmaRequest_of_iface hup hif).trans (if_pos ?_)), rfl⟩
    obtain h | h | h := hno
    · simp [h]
    · simp [h]
    · rw [not_mem_pathMtus h]
      simp
  case refine_6 =>
    have hnone : s.host.conns.find? (fun c => c.id == k.id) = none := findConn_eq_none_of_forall hnew
    show (s.host.conns ++ [k]).find? (fun c => c.id == k.id) = some k
    rw [List.find?_append, hnone]
    simp
  case refine_7 => exact ⟨_, congrArg Host.Outcome.next (requests_unheard (mtu := 0) hno).1, rfl⟩
  case refine_8 => exact ⟨_, congrArg Host.Outcome.next (requests_unheard (dport := 0) (hd := false) (dd := false) (hpda := 0) hno).2, rfl⟩
  case refine_9 =>
    exact next_of_runs rfl hruns (by decide) ((fabricsConnect_of_live hlive).trans (if_pos (by obtain h | h := hno <;> simp [h])))
  case refine_10 => exact next_of_runs rfl hruns (by decide) ((fabricsConnect_of_live hlive).trans (by simp [hfree, hqe, hrec]))
  case refine_11 => exact next_of_runs rfl hruns (by decide) ((fabricsConnect_of_live hlive).trans (by simp [hfree, hqe, hrec, hdisc]))
  case refine_12 =>
    refine next_of_runs rfl hruns (by decide) ((fabricsConnect_ready hlive hfree hqe hrec hdisc).trans ((if_pos (by simpa using hq)).trans
      ((connectAdmin_of_unknown hsize hprov hnone).trans ?_)))
    rw [key_of_liveConn hlive]
  case refine_13 =>
    refine next_of_runs rfl hruns (by decide) ((fabricsConnect_ready hlive hfree hqe hrec hdisc).trans ((if_pos (by simpa using hq)).trans
      ((connectAdmin_of_busy hsize hprov hone).trans ?_)))
    rw [key_of_liveConn hlive]
  case refine_14 =>
    refine next_of_runs rfl hruns (by decide) ((fabricsConnect_ready hlive hfree hqe hrec hdisc).trans ((if_pos (by simpa using hq)).trans
      ((connectAdmin_allowed hsize ⟨hprov, hten⟩).trans ?_)))
    rw [hcid, key_of_liveConn hlive]
    exact if_neg (by simpa using hqp)
  case refine_15 =>
    refine next_of_runs rfl hruns (by decide) ((fabricsConnect_ready hlive hfree hqe hrec hdisc).trans ((if_pos (by simpa using hq)).trans
      ((connectAdmin_allowed hsize ⟨hprov, hten⟩).trans ?_)))
    rw [key_of_liveConn hlive]
    split
    · rfl
    · next cid hcid => exact if_pos (by simpa [hcid] using hfull)
  case refine_16 =>
    refine next_of_runs rfl hruns (by decide) ((fabricsConnect_ready hlive hfree hqe hrec hdisc).trans ((if_pos (by simpa using hq)).trans
      ((connectAdmin_of_size hsize).trans ?_)))
    rw [key_of_liveConn hlive]
  case refine_17 =>
    refine next_of_runs rfl hruns (by decide) ((fabricsConnect_ready hlive hfree hqe hrec hdisc).trans ((if_neg (by simpa using hq)).trans
      ((connectIo_of_ctrl hc hident htile).trans ?_)))
    rw [hnew, if_neg (by simpa using hgrant), if_neg (Nat.not_lt.2 hsize), key_of_liveConn hlive]
  case refine_18 =>
    refine next_of_runs rfl hruns (by decide) ((fabricsConnect_ready hlive hfree hqe hrec hdisc).trans ((if_neg (by simpa using hq)).trans
      ((connectIo_of_ctrl hc hident htile).trans ?_)))
    rw [hnew, if_neg (by simpa using hgrant), if_pos hsize, key_of_liveConn hlive]
  case refine_19 =>
    refine next_of_runs rfl hruns (by decide) ((fabricsConnect_ready hlive hfree hqe hrec hdisc).trans ((if_neg (by simpa using hq)).trans
      ((connectIo_of_ctrl hc hident htile).trans ?_)))
    rw [if_pos (by simp [hgrant]), key_of_liveConn hlive]
  case refine_20 => rw [findConn_bindConn, if_pos rfl, hfind, Option.map_some]
  case refine_21 => rw [findConn_bindConn, if_neg hx]
  case refine_22 => exact next_of_runs rfl hruns (by decide) (by simp only [fabricsConnect, hnone])
  case refine_23 =>
    by_cases hcarries : k.bound = true ∧ k.discovery = false
    · obtain ⟨hb, hd⟩ := hcarries
      obtain ⟨hside, -, hgone, hctrl, hconns⟩ := endQueue_spec k.cntlid k.sqid (dropConn id s)
      refine ⟨_, congrArg Host.Outcome.next (connClosed_bound hfind hb hd), OnlyHostSide.trans ⟨rfl, rfl, fun _ _ _ _ => rfl⟩ hside,
        findConn_eq_none_of_forall fun x hx => id_ne_of_mem_dropConn (hconns x hx), fun _ _ h0 => ⟨hctrl h0, ?_⟩, fun _ _ h0 => ?_,
        fun hno => absurd hno (by simp [hb, hd])⟩
      · rw [h0, endQueue_of_admin]
        exact allDiscarded_endCtrl_self k.cntlid _
      · obtain ⟨-, -, hctrls, hcmds, -, hcq, -⟩ := endQueue_io_spec h0 k.cntlid (dropConn id s)
        refine ⟨hgone, hcq, hctrls, fun c hc hj hn => ?_⟩
        rw [hcmds] at hc
        exact discard_of_mem_cmdsAfterReset hc (by simp [hj, hn])
    · have hno : k.bound = false ∨ k.discovery = true := by
        cases hb : k.bound <;> cases hd : k.discovery <;> simp_all
      refine ⟨_, congrArg Host.Outcome.next (connClosed_unbound hfind hno), ⟨rfl, rfl, fun _ _ _ _ => rfl⟩,
        findConn_eq_none_of_forall fun x hx => id_ne_of_mem_dropConn hx, fun hb hd => absurd ⟨hb, hd⟩ hcarries,
        fun hb hd => absurd ⟨hb, hd⟩ hcarries, fun _ => rfl⟩
  case refine_24 => exact ⟨_, congrArg Host.Outcome.next (by simp only [connClosed, hnone]), rfl⟩

end Sys2Proof.Machine
end

section
/-!
PROOFS. Capsules and host data that arrive (R44, R46, R47, R64, R66, R68): an equation for each case, and what a fatal transport error
leaves.
-/
namespace Sys2Proof.Machine
open Sys2Proof

/-! ### A fatal transport error -/

/-- What a fatal transport error on a connection sends. -/
def fatalOut (k : Conn) : Out := if k.transport == .rdma then .qpError k.id else .terminate k.id

theorem fatalOut_of_rdma {k : Conn} (h : k.transport = .rdma) : fatalOut k = .qpError k.id := by simp [fatalOut, h]
theorem fatalOut_of_not_rdma {k : Conn} (h : k.transport ≠ .rdma) : fatalOut k = .terminate k.id := by simp [fatalOut, h]

/-- A fatal transport error stays on the host side, is sent, and ends what the connection carried. -/
theorem fatalTransport_spec (k : Conn) (s : State) : OnlyHostSide s (fatalTransport k s) ∧ fatalOut k ∈ (fatalTransport k s).outs ∧
    Out.connClosed k.id ∈ (fatalTransport k s).outs ∧
    (k.bound = true → k.discovery = false → findSq (fatalTransport k s) k.cntlid k.sqid = none ∧
      (k.sqid = 0 → findCtrl (fatalTransport k s) k.cntlid = none)) := by
  have hsent : OnlyHostSide s (emit (.connClosed k.id) (emit (fatalOut k) s)) := ⟨rfl, rfl, fun _ _ _ _ => rfl⟩
  have hout : fatalOut k ∈ (emit (.connClosed k.id) (emit (fatalOut k) s)).outs := by simp [emit]
  have hclosed : Out.connClosed k.id ∈ (emit (.connClosed k.id) (emit (fatalOut k) s)).outs := by simp [emit]
  by_cases hcarries : (k.bound && !k.discovery) = true
  · have heq : fatalTransport k s = endQueue k.cntlid k.sqid (emit (.connClosed k.id) (emit (fatalOut k) s)) := if_pos hcarries
    obtain ⟨hside, houts, hgone, hctrl, -⟩ := endQueue_spec k.cntlid k.sqid (emit (.connClosed k.id) (emit (fatalOut k) s))
    rw [heq]
    exact ⟨hsent.trans hside, houts.subset hout, houts.subset hclosed, fun _ _ => ⟨hgone, hctrl⟩⟩
  · have heq : fatalTransport k s = dropConn k.id (emit (.connClosed k.id) (emit (fatalOut k) s)) := if_neg hcarries
    rw [heq]
    exact ⟨hsent.trans ⟨rfl, rfl, fun _ _ _ _ => rfl⟩, hout, hclosed, fun hb hd => absurd (by simp [hb, hd]) hcarries⟩

/-! ### Capsules (R44, R47, R64, R66, R68) -/

section capsule
variable {id : Nat} {cap : Capsule} {k : Conn} {q : Sq} {s : State}

/-- A congestion mark is answered (R44, R47). -/
def congestionAnswered (id : Nat) (cap : Capsule) (s : State) : State := if cap.ce then emit (.congestion id) s else s

theorem congestionAnswered_frame (id : Nat) (cap : Capsule) (s : State) :
    congestionAnswered id cap s = { s with outs := (congestionAnswered id cap s).outs } :=
  iteInduction (motive := fun u : State => u = { s with outs := u.outs }) (fun _ => rfl) fun _ => rfl

theorem findSq_congestionAnswered (j n : Nat) : findSq (congestionAnswered id cap s) j n = findSq s j n := by
  rw [congestionAnswered_frame]
  rfl

theorem onlyHostSide_congestionAnswered : OnlyHostSide s (congestionAnswered id cap s) := by
  rw [congestionAnswered_frame]
  exact ⟨rfl, rfl, fun _ _ _ _ => rfl⟩

theorem pfcChange_frame (old : State) (k : Conn) (s : State) : pfcChange old k s = { s with outs := (pfcChange old k s).outs } := by
  unfold pfcChange
  exact iteInduction (motive := fun u : State => u = { s with outs := u.outs }) (fun _ => rfl) fun _ => rfl

theorem outs_prefix_pfcChange (old : State) (k : Conn) (s : State) : s.outs <+: (pfcChange old k s).outs := by
  unfold pfcChange
  exact iteInduction (motive := fun u : State => s.outs <+: u.outs) (fun _ => List.prefix_rfl) fun _ => List.prefix_append _ _

theorem capsuleArrives_carried (hlive : liveConn s id = some k) (hb : k.bound = true) (hd : k.discovery = false)
    (hq : findSq s k.cntlid k.sqid = some q) : capsuleArrives id cap s =
      if badHeader k cap || cap.bytes < 64 then fatalTransport k (congestionAnswered id cap s)
      else if q.size ≤ q.recv.length then fatalTransport k (congestionAnswered id cap s)
      else pfcChange (congestionAnswered id cap s) k (updSq k.cntlid k.sqid
        (fun q => { q with recv := q.recv ++ [arrivalOf (congestionAnswered id cap s) k cap] }) (congestionAnswered id cap s)) := by
  have hq' := findSq_congestionAnswered (id := id) (cap := cap) (s := s) k.cntlid k.sqid
  rw [hq] at hq'
  simp only [congestionAnswered] at hq' ⊢
  simp only [capsuleArrives, hlive, hb, hd, hq', Bool.not_true, Bool.or_self, Bool.false_eq_true, if_false]

theorem arrivalOf_congestionAnswered : arrivalOf (congestionAnswered id cap s) k cap = arrivalOf s k cap := by
  rw [congestionAnswered_frame]
  rfl

theorem capsuleArrives_refused (hlive : liveConn s id = some k) (hb : k.bound = true) (hd : k.discovery = false)
    (hq : findSq s k.cntlid k.sqid = some q) (hbad : badHeader k cap = true ∨ cap.bytes < 64 ∨ q.size ≤ q.recv.length) :
    capsuleArrives id cap s = fatalTransport k (congestionAnswered id cap s) := by
  rw [capsuleArrives_carried hlive hb hd hq]
  obtain h | h | h := hbad
  · exact if_pos (by simp [h])
  · exact if_pos (by simp [h])
  · simp only [h, if_true, ite_self]

theorem capsuleArrives_uncarried (hlive : liveConn s id = some k) (hno : k.bound = false ∨ k.discovery = true) :
    capsuleArrives id cap s = congestionAnswered id cap s := by
  simp only [capsuleArrives, hlive]
  exact if_pos (by obtain h | h := hno <;> simp [h])

/-- A good capsule joins the receive list of its queue, and nothing else changes but what is sent. -/
theorem capsuleArrives_taken (hlive : liveConn s id = some k) (hb : k.bound = true) (hd : k.discovery = false)
    (hq : findSq s k.cntlid k.sqid = some q) (hgood : badHeader k cap = false) (hlen : 64 ≤ cap.bytes) (hroom : q.recv.length < q.size) :
    let u := capsuleArrives id cap s
    u = { s with host := { s.host with sqs := u.host.sqs }, outs := u.outs } ∧
      findSq u k.cntlid k.sqid = some { q with recv := q.recv ++ [arrivalOf s k cap] } ∧ (cap.ce = true → Out.congestion id ∈ u.outs) := by
  have heq : capsuleArrives id cap s = pfcChange (congestionAnswered id cap s) k (updSq k.cntlid k.sqid
      (fun q => { q with recv := q.recv ++ [arrivalOf s k cap] }) (congestionAnswered id cap s)) := by
    rw [capsuleArrives_carried hlive hb hd hq, if_neg (by simp [hgood, hlen]), if_neg (Nat.not_le.2 hroom), arrivalOf_congestionAnswered]
  have hfind := findSq_updSq (congestionAnswered id cap s) k.cntlid k.sqid k.cntlid k.sqid
    (f := fun q => { q with recv := q.recv ++ [arrivalOf s k cap] }) fun _ => ⟨rfl, rfl⟩
  rw [if_pos ⟨rfl, rfl⟩, findSq_congestionAnswered, hq, Option.map_some] at hfind
  dsimp only
  rw [heq]
  have hframe := pfcChange_frame (congestionAnswered id cap s) k (updSq k.cntlid k.sqid
    (fun q => { q with recv := q.recv ++ [arrivalOf s k cap] }) (congestionAnswered id cap s))
  have hpre := outs_prefix_pfcChange (congestionAnswered id cap s) k (updSq k.cntlid k.sqid
    (fun q => { q with recv := q.recv ++ [arrivalOf s k cap] }) (congestionAnswered id cap s))
  refine ⟨?_, ?_, fun hce => hpre.subset ?_⟩
  · rw [hframe, congestionAnswered_frame]
    rfl
  · rw [hframe]
    exact hfind
  · simp [congestionAnswered, hce, updSq, emit]

end capsule

/-! ### Host data (R46, R64) -/

section data
variable {conn cmd off : Nat} {d : Bytes} {h dd : Bool} {k : Conn} {c : Cmd} {s : State}

theorem takeData_part (hid : c.id = cmd) (hfind : findCmd s cmd = some c) (hlen : c.data.length + d.length < dataLen c.cap) :
    takeData c d s = { s with host := { s.host with cmds := (takeData c d s).host.cmds } } ∧
      findCmd (takeData c d s) cmd = some { c with data := c.data ++ d } := by
  have heq : takeData c d s = updCmd c.id (fun c => { c with data := c.data ++ d }) s := if_neg (by simpa using hlen)
  rw [heq]
  refine ⟨rfl, (findCmd_updCmd s cmd c.id (f := fun c => { c with data := c.data ++ d }) fun _ => rfl).trans ?_⟩
  rw [if_pos hid.symm, hfind, Option.map_some]

theorem takeData_last (hid : c.id = cmd) (hlen : c.data.length + d.length = dataLen c.cap) :
    takeData c d s = askNext c.cntlid c.sqid (dataReady cmd (updCmd cmd (fun c => { c with data := c.data ++ d }) s)) := by
  subst hid
  exact if_pos (by simp [hlen])

/-- A digest of a data PDU that is not used, or right, raises nothing. -/
theorem digest_good {used good : Bool} (h : used = false ∨ good = true) : ¬(used && !good) = true := by
  obtain hf | ht := h <;> simp [*]

theorem h2cData_of_cmd (hlive : liveConn s conn = some k) (hfind : findCmd s cmd = some c) (hdg : k.hdgst = false ∨ h = true)
    (hno : cmd ∉ k.failed) : h2cData conn cmd off d h dd s =
      if c.cntlid != k.cntlid || c.sqid != k.sqid || c.phase != .dataFetch || off != c.data.length ||
          dataLen c.cap < off + d.length || 131072 < d.length then fatalTransport k s
      else if k.ddgst && !dd then pump (finishCmd cmd .transientTransportError 0 (updConn conn (fun k => { k with
        failed := k.failed ++ [cmd] }) s))
      else takeData c d s := by
  simp only [h2cData, hlive, hfind]
  rw [if_neg (digest_good hdg), if_neg (by simpa using hno)]

theorem h2cData_in_order (hlive : liveConn s conn = some k) (hfind : findCmd s cmd = some c) (hctrl : c.cntlid = k.cntlid)
    (hsq : c.sqid = k.sqid) (hphase : c.phase = .dataFetch) (hdg : k.hdgst = false ∨ h = true) (hno : cmd ∉ k.failed)
    (hoff : off = c.data.length) (hmax : d.length ≤ 131072) (hlen : off + d.length ≤ dataLen c.cap) : h2cData conn cmd off d h dd s =
      if k.ddgst && !dd then pump (finishCmd cmd .transientTransportError 0 (updConn conn (fun k => { k with
        failed := k.failed ++ [cmd] }) s))
      else takeData c d s := by
  rw [h2cData_of_cmd hlive hfind hdg hno]
  refine if_neg ?_
  rw [hoff] at hlen
  simp [hctrl, hsq, hphase, hoff, hmax, hlen]

theorem h2cData_fatal (hlive : liveConn s conn = some k) (hfind : findCmd s cmd = some c)
    (hbad : (k.hdgst = true ∧ h = false) ∨
      (cmd ∉ k.failed ∧ (off ≠ c.data.length ∨ dataLen c.cap < off + d.length ∨ 131072 < d.length))) :
    h2cData conn cmd off d h dd s = fatalTransport k s := by
  by_cases hdg : k.hdgst = true ∧ h = false
  · simp [h2cData, hlive, hdg]
  · obtain ⟨hno, hout⟩ := hbad.resolve_left hdg
    have hgood : k.hdgst = false ∨ h = true := by
      cases hk : k.hdgst <;> cases hh : h <;> simp_all
    rw [h2cData_of_cmd hlive hfind hgood hno]
    refine if_pos ?_
    obtain h | h | h := hout <;> simp [h]

theorem rdmaReadDone_of_conn (hfind : findCmd s cmd = some c) (hphase : c.phase = .dataFetch) (hk : connOf s c = some k) (ok : Bool) :
    rdmaReadDone cmd ok d s = if !ok then fatalTransport k s else takeData c (d.take (dataLen c.cap - c.data.length)) s := by
  simp [rdmaReadDone, hfind, hphase, hk]

theorem hostReadDone_of_data (hfind : findCmd s cmd = some c) (hphase : c.phase = .dataFetch) :
    hostReadDone cmd (.data d) s = takeData c (d.take (dataLen c.cap - c.data.length)) s := by
  simp [hostReadDone, hfind, hphase]

theorem hostReadDone_of_error {r : HostRead} (hfind : findCmd s cmd = some c) (hphase : c.phase = .dataFetch) (hr : ∀ x, r ≠ .data x) :
    hostReadDone cmd r s = pump (finishCmd cmd .transientTransportError 0
      (bump c.tile .glb_dma_errors_host_mem (emit (.aer c.tile) s))) := by
  simp only [hostReadDone, hfind, hphase]
  cases r with
  | data x => exact absurd rfl (hr x)
  | _ => rfl

theorem reads_idle {ok : Bool} {r : HostRead} (hno : ∀ c, findCmd s cmd = some c → c.phase ≠ .dataFetch) :
    rdmaReadDone cmd ok d s = s ∧ hostReadDone cmd r s = s := by
  cases hfind : findCmd s cmd with
  | none => simp [rdmaReadDone, hostReadDone, hfind]
  | some c => simp [rdmaReadDone, hostReadDone, hfind, hno c hfind]

theorem take_fits (hlen : c.data.length + d.length ≤ dataLen c.cap) : d.take (dataLen c.cap - c.data.length) = d :=
  List.take_of_length_le (by omega)

end data

/-- Settles O31: each capsule and each piece of data is taken, passed over, or ends what its fault ends. -/
theorem capsulesAndHostData : Obligations.CapsulesAndHostData := by
  unfold Obligations.CapsulesAndHostData
  refine ⟨fun id cap k q s hlive hb hd hq => ⟨fun hgood hlen hroom => ?_, fun hbad => ?_⟩, fun id cap s hnone => ?_,
    fun id cap k s hlive hno => ?_,
    fun conn cmd off d h dd k c s hlive hfind hctrl hsq hphase hid => ⟨fun hdg hno hoff hmax => ⟨fun hdd hlen => ?_, fun hdd hlen => ?_,
      fun hk hdd hlen => ?_⟩, fun hdg hfailed => ?_, fun hbad => ?_⟩, fun conn cmd off d h dd s hnone => ?_,
    fun cmd d k c s hfind hid hphase hk => ⟨fun hlen => ?_, fun hlen => ?_, ?_⟩,
    fun cmd d r c s hfind hid hphase => ⟨fun hlen => ?_, fun hlen => ?_, fun hr => ?_⟩, fun cmd ok d r s hno => ⟨?_, ?_⟩⟩
  case refine_1 => exact ⟨_, rfl, capsuleArrives_taken hlive hb hd hq hgood hlen hroom⟩
  case refine_2 =>
    obtain ⟨hside, hout, hclosed, hends⟩ := fatalTransport_spec k (congestionAnswered id cap s)
    obtain ⟨hsq, hctrl⟩ := hends hb hd
    refine ⟨_, congrArg Host.Outcome.next (capsuleArrives_refused hlive hb hd hq hbad), onlyHostSide_congestionAnswered.trans hside, fun hr => ?_,
      fun hr => ?_, hclosed, hctrl, fun _ => hsq⟩
    · rwa [fatalOut_of_rdma hr] at hout
    · rwa [fatalOut_of_not_rdma hr] at hout
  case refine_3 => exact ⟨_, congrArg Host.Outcome.next (by simp only [capsuleArrives, hnone]), rfl⟩
  case refine_4 => exact ⟨_, congrArg Host.Outcome.next (capsuleArrives_uncarried hlive hno), rfl⟩
  case refine_5 =>
    refine ⟨_, congrArg Host.Outcome.next ((h2cData_in_order hlive hfind hctrl hsq hphase hdg hno hoff hmax (Nat.le_of_lt hlen)).trans
      (if_neg (digest_good hdd))), takeData_part hid hfind (by omega)⟩
  case refine_6 =>
    exact ⟨_, congrArg Host.Outcome.next ((h2cData_in_order hlive hfind hctrl hsq hphase hdg hno hoff hmax (Nat.le_of_eq hlen)).trans
      (if_neg (digest_good hdd))), takeData_last hid (by omega)⟩
  case refine_7 =>
    exact ⟨_, congrArg Host.Outcome.next ((h2cData_in_order hlive hfind hctrl hsq hphase hdg hno hoff hmax hlen).trans
      (if_pos (by simp [hk, hdd]))), rfl⟩
  case refine_8 =>
    refine ⟨_, congrArg Host.Outcome.next ?_, rfl⟩
    simp only [h2cData, hlive]
    rw [if_neg (digest_good hdg), if_pos (by simpa using hfailed)]
  case refine_9 =>
    obtain ⟨hside, -, hclosed, -⟩ := fatalTransport_spec k s
    exact ⟨_, congrArg Host.Outcome.next (h2cData_fatal hlive hfind hbad), hside, hclosed⟩
  case refine_10 => exact ⟨_, congrArg Host.Outcome.next (by simp only [h2cData, hnone]), rfl⟩
  case refine_11 =>
    refine ⟨_, congrArg Host.Outcome.next ((rdmaReadDone_of_conn hfind hphase hk true).trans (if_neg (by decide))), ?_⟩
    rw [take_fits (Nat.le_of_lt hlen)]
    exact takeData_part hid hfind hlen
  case refine_12 =>
    refine ⟨_, congrArg Host.Outcome.next ((rdmaReadDone_of_conn hfind hphase hk true).trans (if_neg (by decide))), ?_⟩
    rw [take_fits (Nat.le_of_eq hlen)]
    exact takeData_last hid hlen
  case refine_13 =>
    obtain ⟨hside, hout, hclosed, -⟩ := fatalTransport_spec k s
    refine ⟨_, congrArg Host.Outcome.next ((rdmaReadDone_of_conn hfind hphase hk false).trans (if_pos rfl)), hside, fun hr => ?_, hclosed⟩
    rwa [fatalOut_of_rdma hr] at hout
  case refine_14 =>
    refine ⟨_, congrArg Host.Outcome.next (hostReadDone_of_data hfind hphase), ?_⟩
    rw [take_fits (Nat.le_of_lt hlen)]
    exact takeData_part hid hfind hlen
  case refine_15 =>
    refine ⟨_, congrArg Host.Outcome.next (hostReadDone_of_data hfind hphase), ?_⟩
    rw [take_fits (Nat.le_of_eq hlen)]
    exact takeData_last hid hlen
  case refine_16 => exact ⟨_, congrArg Host.Outcome.next (hostReadDone_of_error hfind hphase hr), rfl⟩
  case refine_17 => exact ⟨_, congrArg Host.Outcome.next (reads_idle (ok := ok) (d := d) (r := r) hno).1, rfl⟩
  case refine_18 => exact ⟨_, congrArg Host.Outcome.next (reads_idle (ok := ok) (d := d) (r := r) hno).2, rfl⟩

end Sys2Proof.Machine
end

section
/-!
PROOFS. Board operations, the staged configuration and the sideband (R58, R477, R478, R482 to R488).
-/
namespace Sys2Proof.Machine
open Sys2Proof

/-! ### The config stores (R458, R462) -/

/-- From `s` to `t` nothing but the config stores, and the counts of erases, changed. -/
def OnlyStores (s t : State) : Prop := t = { s with fw := storesOf s t }

theorem OnlyStores.trans {s t u : State} (h : OnlyStores s t) (k : OnlyStores t u) : OnlyStores s u :=
  Eq.trans k (congrArg (fun x : State => { x with fw := { x.fw with
    stores := u.fw.stores, flash := { x.fw.flash with erases := u.fw.flash.erases } } }) h)

theorem onlyStores_foldl {α : Type} {f : State → α → State} (h : ∀ s x, OnlyStores s (f s x)) : ∀ (l : List α) (s : State), OnlyStores s (l.foldl f s)
  | [], _ => rfl
  | x :: l, s => (h s x).trans (onlyStores_foldl h l (f s x))

theorem onlyStores_updStores (f : List CfgStore → List CfgStore) (s : State) :
    OnlyStores s (updFw (fun w => { w with stores := f w.stores }) s) := rfl
theorem onlyStores_compactSector (k x : Nat) (s : State) : OnlyStores s (compactSector k x s) := rfl

theorem onlyStores_storeAppend (k : Nat) (i : StoreItem) (s : State) : OnlyStores s (storeAppend k i s) := by
  unfold storeAppend
  refine OnlyStores.trans ?_ (onlyStores_foldl (fun s x => onlyStores_compactSector k x s) _ _)
  exact iteInduction (motive := OnlyStores s) (fun _ => OnlyStores.trans (onlyStores_updStores _ s) (onlyStores_compactSector k _ _)) fun _ =>
    onlyStores_updStores _ s

theorem onlyStores_storeWrite (k : Nat) (s : State) : OnlyStores s (storeWrite k s) := by
  unfold storeWrite
  split
  · rfl
  · exact iteInduction (motive := OnlyStores s) (fun _ => onlyStores_foldl (fun s i => onlyStores_storeAppend k i s) _ s) fun _ => rfl

theorem onlyStores_syncStores (s : State) : OnlyStores s (syncStores s) := by
  unfold syncStores
  exact iteInduction (motive := OnlyStores s) (fun _ => (onlyStores_storeWrite _ s).trans (onlyStores_storeWrite _ _)) fun _ =>
    onlyStores_storeWrite _ s

@[simp] theorem reg_syncStores (s : State) : (syncStores s).reg = s.reg := by rw [onlyStores_syncStores s]
@[simp] theorem host_syncStores (s : State) : (syncStores s).host = s.host := by rw [onlyStores_syncStores s]

/-! ### The end of a board operation -/

/-- From `s` to `t` only the board port, what is sent and the meters changed. -/
def OnlyResponse (s t : State) : Prop := t = { s with board := t.board, outs := t.outs, clock := t.clock }

theorem OnlyResponse.trans {s t u : State} (h : OnlyResponse s t) (k : OnlyResponse t u) : OnlyResponse s u :=
  Eq.trans k (congrArg (fun x : State => { x with board := u.board, outs := u.outs, clock := u.clock }) h)

theorem onlyResponse_pushRing (k : Nat) (d : List Field) (s : State) : OnlyResponse s (pushRing k d s) := by
  have h := (pushRing_frame k d s).1
  generalize pushRing k d s = u at h
  rw [h]
  rfl

theorem onlyResponse_runEnded (s : State) : OnlyResponse s (runEnded s) := rfl

/-- A response leaves all but the board port, what is sent and the meters. -/
theorem onlyResponse_respond (rs nvme dw0 dw1 xfer : Nat) (s : State) : OnlyResponse s (respond rs nvme dw0 dw1 xfer s) := by
  unfold respond
  split
  · rfl
  · exact iteInduction (motive := OnlyResponse s) (fun _ => onlyResponse_runEnded s) fun _ =>
      (onlyResponse_runEnded s).trans (onlyResponse_pushRing 1 _ _)

theorem reg_boardDone (a b : Nat) (s : State) : (boardDone a b s).reg = s.reg := by
  unfold boardDone
  rw [onlyResponse_respond]
theorem host_boardDone (a b : Nat) (s : State) : (boardDone a b s).host = s.host := by
  unfold boardDone
  rw [onlyResponse_respond]

section registry
variable {op : Nat} {i : Instr} {f : State → State} {s : State}

/-- A board operation that may change the registry now does, and the config stores follow it. -/
theorem runRegistry_of_runs (h : ringRuns s op = true) (hact : s.fw.activating = false) (hplane : planeBusy s .ring = false)
    (hflash : s.fw.flash.failed = false) : runRegistry op i f s = passTurn .ring (syncStores (f s)) := by
  simp [runRegistry, h, hact, hplane, hflash]

end registry

/-! ### The provider and the interfaces (R58, R477, R478) -/

/-- A provider that a designation leaves is the designated one. -/
theorem designated_of_dropRights {s : State} {c : Ctrl} (hc : c ∈ (dropRights s).host.ctrls) (hprov : c.provider = true) :
    designated s c.ident c.tile = true := by
  obtain ⟨x, hx, rfl⟩ := List.mem_map.1 hc
  by_cases hlost : (x.provider && !designated s x.ident x.tile) = true
  · rw [if_pos hlost] at hprov
    exact absurd hprov Bool.false_ne_true
  · rw [if_neg hlost] at hprov ⊢
    simpa [hprov] using hlost

theorem reg_of_onlyHostSide {s t : State} (h : OnlyHostSide s t) : t.reg = s.reg := by
  obtain ⟨hframe, -⟩ := h
  rw [hframe]

theorem reg_endThrough (n : NetIf) (s : State) : (endThrough n s).reg = s.reg := by
  refine reg_of_onlyHostSide (OnlyHostSide.trans (onlyHostSide_foldl _ (fun s id => ?_) _ s) (onlyHostSide_closeAll _ _))
  exact (endCtrl_spec id s).1

section netif
variable {d : Bytes} {s : State}

/-- The interfaces other than the one that a record is about. -/
def otherIfs (s : State) (n : NetIf) : List NetIf := s.reg.netifs.filter fun x => !x.samePlace n

theorem netifSet_taken (hok : netIfOk s (parseNetIf d) = true) (hvalid : bitOf (parseNetIf d).flags 0 = true)
    (hclash : ((otherIfs s (parseNetIf d)).any fun x => x.tile == (parseNetIf d).tile && x.port == (parseNetIf d).port && x.clashes (parseNetIf d)) = false) :
    netifSet d s = boardDone 0 0 (
      if (s.reg.netifs.find? fun x => x.samePlace (parseNetIf d)).any (fun x => x.moved (parseNetIf d))
      then endThrough (parseNetIf d) { s with reg := { s.reg with netifs := otherIfs s (parseNetIf d) ++ [parseNetIf d] } }
      else { s with reg := { s.reg with netifs := otherIfs s (parseNetIf d) ++ [parseNetIf d] } }) := by
  unfold otherIfs at hclash ⊢
  simp only [netifSet, hok, hvalid, hclash, Bool.not_true, Bool.false_eq_true, if_false, Bool.and_false, if_true, Bool.false_or]

end netif

/-! ### The check of a staged configuration (R482, R485) -/

theorem firstFault_spec : ∀ {l : List BadField}, l ≠ [] → ∃ b ∈ l, firstFault l = some b ∧ ∀ c ∈ l, b.off ≤ c.off
  | [], h => absurd rfl h
  | b :: bs, _ => by
    cases hrest : firstFault bs with
    | none =>
      have hnil : bs = [] := by
        by_contra hne
        obtain ⟨c, -, hc, -⟩ := firstFault_spec hne
        rw [hrest] at hc
        exact absurd hc (by simp)
      subst hnil
      exact ⟨b, List.mem_cons_self, by simp [firstFault], by simp⟩
    | some c =>
      have hne : bs ≠ [] := by
        rintro rfl
        exact absurd hrest (by simp [firstFault])
      obtain ⟨c', hmem, hc', hleast⟩ := firstFault_spec hne
      obtain rfl : c = c' := Option.some.inj (hrest.symm.trans hc')
      by_cases hb : b.before c = true
      · have hle : b.off ≤ c.off := by
          simp only [BadField.before, Bool.or_eq_true, Bool.and_eq_true, decide_eq_true_eq, beq_iff_eq] at hb
          omega
        refine ⟨b, List.mem_cons_self, by simp [firstFault, hrest, hb], fun x hx => ?_⟩
        rcases List.mem_cons.1 hx with rfl | hx
        · exact Nat.le_refl _
        · exact hle.trans (hleast x hx)
      · have hlt : c.off ≤ b.off := by
          simp only [BadField.before, Bool.or_eq_true, decide_eq_true_eq, not_or] at hb
          omega
        refine ⟨c, List.mem_cons_of_mem _ hmem, by simp [firstFault, hrest, hb], fun x hx => ?_⟩
        rcases List.mem_cons.1 hx with rfl | hx
        · exact hlt
        · exact hleast x hx

/-- What the rejection of a commit marks in the block at fault (R414, R437). -/
def faultMarked (b : BadField) (s : State) : State := if errsOnCommit b.fld.info.reg then setCfgErr b.win b.fld.info.reg s else s

theorem faultMarked_frame (b : BadField) (s : State) :
    faultMarked b s = { s with regs := { s.regs with live := (faultMarked b s).regs.live } } := by
  unfold faultMarked
  refine iteInduction (motive := fun u : State => u = { s with regs := { s.regs with live := u.regs.live } }) (fun _ => ?_) fun _ => rfl
  unfold setCfgErr
  split <;> rfl

theorem rejectCommit_eq {s : State} (hring : s.board.commit.fromRing = false) (b : BadField) : rejectCommit b s =
    emit (.ringIrq 3) (reject (winTile b.win) b.off b.reason (faultMarked b (updCommit (fun c => { c with
      state := 0, rejected := true, reason := b.reason, badOffset := b.off, snapshot := [], fromRing := false }) s))) := by
  simp only [rejectCommit, hring, faultMarked]
  exact if_neg Bool.false_ne_true

/-! ### The live set after a commit (R482, R483, R486) -/

/-- From `s` to `t` the board port is as before, and every field but the count of bad frees. -/
def SameFields (s t : State) : Prop := t.board = s.board ∧ ∀ w i f, f ≠ .bpm_bad_free_bad_frees → t.fld w i f = s.fld w i f

theorem SameFields.refl (s : State) : SameFields s s := ⟨rfl, fun _ _ _ _ => rfl⟩

theorem SameFields.trans {s t u : State} (h : SameFields s t) (k : SameFields t u) : SameFields s u :=
  ⟨k.1.trans h.1, fun w i f hf => (k.2 w i f hf).trans (h.2 w i f hf)⟩

theorem sameFields_foldl {α : Type} {f : State → α → State} (h : ∀ s x, SameFields s (f s x)) :
    ∀ (l : List α) (s : State), SameFields s (l.foldl f s)
  | [], s => .refl s
  | x :: l, s => (h s x).trans (sameFields_foldl h l (f s x))

theorem sameFields_startRecon (t : Nat) (s : State) : SameFields s (startRecon t s) :=
  SameFields.trans ⟨rfl, fun _ _ _ _ => rfl⟩ ⟨(cmdSide_anaRefresh _).board, (onlyHostSide_anaRefresh _).2.2⟩

theorem sameFields_reroute (old s : State) : SameFields s (reroute old s) := by
  refine SameFields.trans ⟨rfl, fun _ _ _ _ => rfl⟩ (sameFields_foldl (fun s x => ?_) _ _)
  split <;> exact ⟨rfl, fun _ _ _ _ => rfl⟩

theorem sameFields_meshDown (t : Nat) (p : MeshPort) (lost : Bool) (s : State) : SameFields s (meshDown t p lost s) := by
  unfold meshDown
  refine iteInduction (motive := SameFields s) (fun _ => ?_) fun _ => .refl s
  exact SameFields.trans ⟨rfl, fun _ _ _ _ => rfl⟩ (sameFields_reroute s _)

theorem sameFields_disableLinks (s : State) : SameFields s (disableLinks s) :=
  sameFields_foldl (fun s _ => iteInduction (motive := SameFields s) (fun _ => sameFields_meshDown _ _ _ s) fun _ => .refl s) _ s

theorem sameFields_moveEpochs (old s : State) : SameFields s (moveEpochs old s) :=
  iteInduction (motive := SameFields s) (fun _ => .refl s) fun _ => ⟨rfl, fun _ _ _ _ => rfl⟩

/-- What each block does with a new live set leaves the set. -/
theorem sameFields_taken (old s : State) : SameFields s (capTokens old (moveEpochs old (disableLinks (startPorts old s)))) :=
  (((sameFields_foldl (fun s t => sameFields_startRecon t s) _ s).trans (sameFields_disableLinks _)).trans (sameFields_moveEpochs old _)).trans
    ⟨rfl, fun _ _ _ _ => rfl⟩

/-- A value that a commit hands over is read as the snapshot has it. -/
theorem fld_takeSnapshot {s : State} {w i : Nat} {f : Fld} (hacc : f.info.acc = .rs) (hwin : w = pkgWin ∨ tileUp s w = true) :
    (takeSnapshot s).fld w i f = valOf s.board.commit.snapshot w i f := by
  have hover : ∀ v : RegVal, (v.win == w && v.idx == i && v.fld == f) = true → handedOver s v = true := fun v hv => by
    simp only [Bool.and_eq_true, beq_iff_eq] at hv
    obtain ⟨⟨rfl, -⟩, rfl⟩ := hv
    simpa [handedOver, staged, hacc] using hwin
  have hlive : (s.regs.live.filter fun v => !handedOver s v).find? (fun v => v.win == w && v.idx == i && v.fld == f) = none :=
    List.find?_eq_none.2 fun v hv hkey => by simpa [hover v hkey] using (List.mem_filter.1 hv).2
  have hsnap : (s.board.commit.snapshot.filter (handedOver s)).find? (fun v => v.win == w && v.idx == i && v.fld == f) =
      s.board.commit.snapshot.find? fun v => v.win == w && v.idx == i && v.fld == f := by
    rw [List.find?_filter]
    refine congrArg (fun p => List.find? p s.board.commit.snapshot) (funext fun v => ?_)
    by_cases hkey : (v.win == w && v.idx == i && v.fld == f) = true
    · simp [hkey, hover v hkey]
    · simp [hkey]
  show valOf (s.board.commit.snapshot.filter (handedOver s) ++ s.regs.live.filter fun v => !handedOver s v) w i f = _
  unfold valOf
  rw [List.find?_append, hsnap, hlive, Option.or_none]

theorem commitApplied_of_ready {s : State} (hstate : s.board.commit.state = 2) (hring : s.board.commit.fromRing = false) :
    commitApplied s = emit (.ringIrq 3) (updCommit (fun c => { c with
      state := 0, rejected := false, applied := c.seq, snapshot := [], fromRing := false })
        (capTokens s (moveEpochs s (disableLinks (startPorts s (takeSnapshot s)))))) := by
  simp only [commitApplied, hstate, hring]
  exact if_neg (by decide)

/-- The largest wear that the sideband tells bounds every endurance group's. -/
theorem percentUsed_le_max (s : State) : (∀ g ∈ s.reg.egs, percentUsed s g ≤ ((s.reg.egs.map (percentUsed s)).max?).getD 0) ∧
    (s.reg.egs = [] → ((s.reg.egs.map (percentUsed s)).max?).getD 0 = 0) := by
  refine ⟨fun g hg => ?_, fun h => by simp [h]⟩
  exact List.le_max?_getD_of_mem (List.mem_map_of_mem hg)

/-- Settles O28: each board operation does what its data says or fails with its reason, and a commit is rejected whole or taken whole. -/
theorem boardOperations : Obligations.BoardOperations := by
  unfold Obligations.BoardOperations
  refine ⟨fun s hrun => ⟨fun hidle => ?_, fun hbusy => ?_⟩, fun d s hrun hact hplane hflash => ⟨fun p hp => ?_, fun hp => ?_⟩, fun s hrun => ?_,
    fun d s hrun hact hplane hflash => ⟨fun hbad => ?_, fun hok hvalid hclash => ?_, fun hok hvalid hclash => ?_⟩, fun v s hrun => ?_, fun s hrun => ?_,
    fun s hopen => ⟨fun hidle => ⟨?_, ?_⟩, fun hbusy => ⟨?_, ?_⟩⟩, fun s hstate => ⟨fun hnone => ?_, fun hsome hring => ?_⟩,
    fun s hstate hring => ?_, fun s hstate => ?_, fun s hon => ⟨?_, ?_⟩, fun s hoff => ⟨?_, ?_⟩⟩
  case refine_1 =>
    have heq : configCommit s = startCommit true { s with board := { s.board with busy := true } } := by simp [configCommit, hrun, hidle]
    exact ⟨_, congrArg Host.Outcome.next heq, rfl, rfl, rfl, rfl⟩
  case refine_2 => exact ⟨_, congrArg Host.Outcome.next (by simp [configCommit, hrun, hbusy] : configCommit s = boardFail 6 (commitBusy s)), rfl⟩
  case refine_3 =>
    have hset : providerSet d s = boardDone 0 0 (dropRights { s with reg := { s.reg with provider := p } }) := by simp [providerSet, hp]
    refine ⟨_, congrArg Host.Outcome.next ((runRegistry_of_runs hrun hact hplane hflash).trans
      (congrArg (fun x => passTurn .ring (syncStores x)) hset)), rfl, ?_, fun c hc hprov => ?_⟩
    · rw [reg_passTurn, reg_syncStores, reg_boardDone]
      rfl
    · have hreg : (passTurn .ring (syncStores (boardDone 0 0 (dropRights { s with reg := { s.reg with provider := p } })))).reg =
          { s.reg with provider := p } := by
        rw [reg_passTurn, reg_syncStores, reg_boardDone]
        rfl
      rw [host_passTurn, host_syncStores, host_boardDone] at hc
      have hdes := designated_of_dropRights hc hprov
      unfold designated at hdes ⊢
      rw [hreg]
      exact hdes
  case refine_4 =>
    have hset : providerSet d s = boardFail 2 s := by simp [providerSet, hp]
    exact ⟨_, congrArg Host.Outcome.next ((runRegistry_of_runs hrun hact hplane hflash).trans
      (congrArg (fun x => passTurn .ring (syncStores x)) hset)), rfl⟩
  case refine_5 => exact ⟨_, congrArg Host.Outcome.next (if_pos hrun), rfl⟩
  case refine_6 =>
    have hset : netifSet d s = boardFail 2 s := by simp [netifSet, hbad]
    exact ⟨_, congrArg Host.Outcome.next ((runRegistry_of_runs hrun hact hplane hflash).trans
      (congrArg (fun x => passTurn .ring (syncStores x)) hset)), rfl⟩
  case refine_7 =>
    have hset : netifSet d s = boardFail 4 s := by
      simp only [netifSet, hok, hvalid, hclash, Bool.not_true, Bool.false_eq_true, if_false, Bool.and_true, if_true]
    exact ⟨_, congrArg Host.Outcome.next ((runRegistry_of_runs hrun hact hplane hflash).trans
      (congrArg (fun x => passTurn .ring (syncStores x)) hset)), rfl⟩
  case refine_8 =>
    have hset := netifSet_taken hok hvalid hclash
    refine ⟨_, congrArg Host.Outcome.next ((runRegistry_of_runs hrun hact hplane hflash).trans
      (congrArg (fun x => passTurn .ring (syncStores x)) hset)), ?_, fun hnew => ?_⟩
    · rw [reg_passTurn, reg_syncStores, reg_boardDone]
      refine iteInduction (motive := fun u : State => u.reg =
        { s.reg with netifs := otherIfs s (parseNetIf d) ++ [parseNetIf d] }) (fun _ => reg_endThrough _ _) fun _ => rfl
    · have hnone : (s.reg.netifs.find? fun x => x.samePlace (parseNetIf d)) = none :=
        List.find?_eq_none.2 fun x hx => by simp [hnew x hx]
      rw [hnone]
      rfl
  case refine_9 =>
    refine ⟨_, congrArg Host.Outcome.next (if_pos hrun), _, rfl, fun n hn => ?_, fun hn => ?_⟩
    · rw [hn]
      simp [NetIf.fields]
    · rw [hn]
      simp
  case refine_10 =>
    exact ⟨_, congrArg Host.Outcome.next (if_pos hrun), _, rfl, by simp [identityFields], by simp [identityFields], by simp [identityFields],
      by simp [identityFields]⟩
  case refine_11 =>
    exact ⟨_, congrArg Host.Outcome.next ((if_pos hopen).trans (if_pos (by simpa using hidle))), rfl⟩
  case refine_12 =>
    refine ⟨_, congrArg Host.Outcome.next ((if_pos hopen).trans (if_pos (by simpa using hidle))), rfl, fun v => ?_⟩
    simp [List.mem_filter, staged]
  case refine_13 => exact ⟨_, congrArg Host.Outcome.next ((if_pos hopen).trans (if_neg (by simpa using hbusy))), rfl⟩
  case refine_14 => exact ⟨_, congrArg Host.Outcome.next ((if_pos hopen).trans (if_neg (by simpa using hbusy))), rfl⟩
  case refine_15 =>
    refine ⟨_, congrArg Host.Outcome.next (?_ : commitValidated s = updCommit (fun c => { c with state := 2 }) s), rfl⟩
    simp [commitValidated, hstate, hnone, firstFault]
  case refine_16 =>
    obtain ⟨b, hmem, hb, hleast⟩ := firstFault_spec hsome
    have heq : commitValidated s = rejectCommit b s := by simp [commitValidated, hstate, hb]
    have hmark := faultMarked_frame b (updCommit (fun c => { c with
      state := 0, rejected := true, reason := b.reason, badOffset := b.off, snapshot := [], fromRing := false }) s)
    generalize hm : faultMarked b (updCommit (fun c => { c with
      state := 0, rejected := true, reason := b.reason, badOffset := b.off, snapshot := [], fromRing := false }) s) = m at hmark
    have hgo : commitValidated s = emit (.ringIrq 3) (reject (winTile b.win) b.off b.reason m) := by rw [heq, rejectCommit_eq hring, hm]
    refine ⟨_, congrArg Host.Outcome.next hgo, ?_, ?_, ?_, ?_, ?_, ?_, b, hmem, hleast, ?_, ?_, ?_⟩ <;> (rw [hmark]; rfl)
  case refine_17 =>
    obtain ⟨hboard, hflds⟩ := sameFields_taken s (takeSnapshot s)
    refine ⟨_, congrArg Host.Outcome.next (commitApplied_of_ready hstate hring), ?_, ?_, fun w i f hacc hwin hmode hfrees => ?_⟩
    · show ({ (capTokens s (moveEpochs s (disableLinks (startPorts s (takeSnapshot s))))).board.commit with
        state := 0, rejected := false, applied := _, snapshot := [], fromRing := false } : Commit) = _
      rw [hboard]
      rfl
    · simp [emit]
    · exact (hflds w i f hfrees).trans (fld_takeSnapshot hacc hwin)
  case refine_18 => exact ⟨_, congrArg Host.Outcome.next (if_pos (by simpa using hstate)), rfl⟩
  case refine_19 =>
    exact ⟨_, congrArg Host.Outcome.next (if_pos hon), rfl, _, rfl, percentUsed_le_max s⟩
  case refine_20 => exact ⟨_, congrArg Host.Outcome.next (if_pos hon), rfl, _, rfl⟩
  case refine_21 => exact ⟨_, congrArg Host.Outcome.next (if_neg (by simp [hoff])), rfl⟩
  case refine_22 => exact ⟨_, congrArg Host.Outcome.next (if_neg (by simp [hoff])), rfl⟩

end Sys2Proof.Machine
end

section
/-!
PROOFS. How a command ends (R34, R46, R66, R88, R89, R94, R95, R476): what is posted, what is sent, and what stays.
-/
namespace Sys2Proof.Machine
open Sys2Proof

/-! ### What the completion of a command leaves of the host side -/

/-- From `s` to `t` the submission queues, the controllers and the commands are as before. -/
def SameQueues (s t : State) : Prop := t.host.sqs = s.host.sqs ∧ t.host.ctrls = s.host.ctrls ∧ t.host.cmds = s.host.cmds

theorem SameQueues.refl (s : State) : SameQueues s s := ⟨rfl, rfl, rfl⟩

theorem SameQueues.trans {s t u : State} (h : SameQueues s t) (k : SameQueues t u) : SameQueues s u :=
  ⟨k.1.trans h.1, k.2.1.trans h.2.1, k.2.2.trans h.2.2⟩

theorem sameQueues_of_host {s t : State} (h : t.host = s.host) : SameQueues s t := by
  rw [SameQueues, h]
  exact ⟨rfl, rfl, rfl⟩

theorem sameQueues_sendTo (k q : Nat) (o : Out) (s : State) : SameQueues s (sendTo k q o s) := by
  rw [(sendTo_frame k q o s).1]
  exact .refl s

theorem sameQueues_dataSent (c : Cmd) (alone : Bool) (s : State) : SameQueues s (dataSent c alone s) :=
  iteInduction (motive := SameQueues s) (fun _ => sameQueues_sendTo _ _ _ s) fun _ => .refl s

theorem sameQueues_completionSent (c : Cmd) (alone : Bool) (dw0 head : Nat) (s : State) : SameQueues s (completionSent c alone dw0 head s) :=
  iteInduction (motive := SameQueues s) (fun _ => .refl s) fun _ => sameQueues_sendTo _ _ _ s

theorem sameQueues_keySent (c : Cmd) (s : State) : SameQueues s (keySent c s) := by
  unfold keySent
  split
  · exact sameQueues_sendTo _ _ _ s
  · exact .refl s

theorem sameQueues_meterCommand (c : Cmd) (miss : Bool) (s : State) : SameQueues s (meterCommand c miss s) := by
  unfold meterCommand
  dsimp only
  exact iteInduction (motive := SameQueues s) (fun _ => ⟨rfl, rfl, rfl⟩) fun _ => ⟨rfl, rfl, rfl⟩

theorem sameQueues_ackExts (c : Cmd) (s : State) : SameQueues s (ackExts c s) := by
  unfold ackExts
  exact iteInduction (motive := SameQueues s) (fun _ => .refl s) fun _ => ⟨rfl, rfl, rfl⟩

theorem sameQueues_freeBuffers (t : Nat) (l : List Nat) (s : State) : SameQueues s (freeBuffers t l s) := by
  rw [onlyBuffers_freeBuffers t l s]
  exact .refl s

theorem sameQueues_postCq (c : Cmd) (s : State) : SameQueues s (postCq c s) := by
  unfold postCq
  split
  · exact .refl s
  · split
    · exact .refl s
    · dsimp only
      exact iteInduction (motive := SameQueues s) (fun _ => ⟨rfl, rfl, rfl⟩) fun _ =>
        iteInduction (motive := SameQueues s) (fun _ => ⟨rfl, rfl, rfl⟩) fun _ => ⟨rfl, rfl, rfl⟩

/-- What is told to the host at a command's completion, and what it gives back, leave the queues. -/
theorem sameQueues_posted (c : Cmd) (alone miss : Bool) (dw0 head : Nat) (s : State) :
    SameQueues s (postCq c (freeBuffers c.tile c.bufs (ackExts c (meterCommand c miss (keySent c (completionSent c alone dw0 head
      (dataSent c alone s))))))) :=
  (((sameQueues_dataSent c alone s).trans (sameQueues_completionSent c alone dw0 head _)).trans (sameQueues_keySent c _)).trans
    ((((sameQueues_meterCommand c miss _).trans (sameQueues_ackExts c _)).trans (sameQueues_freeBuffers _ _ _)).trans (sameQueues_postCq c _))

theorem cmds_failureNoted (c : Cmd) (s : State) : (failureNoted c s).host.cmds = s.host.cmds := by
  unfold failureNoted
  refine iteInduction (motive := fun u : State => u.host.cmds = s.host.cmds) (fun _ => rfl) fun _ => ?_
  unfold freezeQueue
  split
  · rfl
  · exact iteInduction (motive := fun u : State => u.host.cmds = s.host.cmds) (fun _ => rfl) fun _ => rfl

theorem shutdownDone_frame (id : Nat) (s : State) : (shutdownDone id s).host.sqs = s.host.sqs ∧
    (shutdownDone id s).host.cmds = s.host.cmds ∧
    ∀ {j : Nat} {k : Ctrl}, findCtrl s j = some k → ∃ d, findCtrl (shutdownDone id s) j = some d ∧ d.errorCount = k.errorCount := by
  have hfind := findCtrl_updCtrl s (b := id) (f := fun c => if c.shutting then { c with shst := 2 } else c)
  unfold shutdownDone
  refine iteInduction (motive := fun u : State => u.host.sqs = s.host.sqs ∧ u.host.cmds = s.host.cmds ∧
    ∀ {j : Nat} {k : Ctrl}, findCtrl s j = some k → ∃ d, findCtrl u j = some d ∧ d.errorCount = k.errorCount)
    (fun _ => ⟨rfl, rfl, fun hk => ⟨_, hk, rfl⟩⟩) fun _ => ⟨rfl, rfl, fun {j k} hk => ?_⟩
  rw [hfind j fun c => by split <;> rfl, hk]
  split
  · refine ⟨_, rfl, ?_⟩
    dsimp only
    split <;> rfl
  · exact ⟨_, rfl, rfl⟩

/-- A command's completion leaves the queues as the failure noted left them, and every controller's count of errors; of the commands, it
alone is forgotten. -/
theorem postOne_frame (c : Cmd) (s : State) : (postOne c s).host.sqs = (failureNoted c s).host.sqs ∧
    (postOne c s).host.cmds = s.host.cmds.filter (fun x => !(x.id == c.id)) ∧
    ∀ {j : Nat} {k : Ctrl}, findCtrl (failureNoted c s) j = some k → ∃ d, findCtrl (postOne c s) j = some d ∧ d.errorCount = k.errorCount := by
  rw [postOne_eq]
  dsimp only
  unfold forgotten
  obtain ⟨hsqs, hctrls, hcmds⟩ := sameQueues_posted c (successFlag (failureNoted c s) c (postedDw0 c (failureNoted c s))) (isQosMiss s c)
    (postedDw0 c (failureNoted c s)) (((findSq (failureNoted c s) c.cntlid c.sqid).map (·.head)).getD 0) (failureNoted c s)
  generalize postCq c _ = p at hsqs hctrls hcmds ⊢
  obtain ⟨hsqs', hcmds', hctrls'⟩ := shutdownDone_frame c.cntlid (dropCmd c.id p)
  refine ⟨hsqs'.trans hsqs, hcmds'.trans ?_, fun {j k} hk => hctrls' ?_⟩
  · rw [← cmds_failureNoted c s, ← hcmds]
    rfl
  · exact (congrArg (List.find? fun x : Ctrl => x.cntlid == j) hctrls).trans hk

/-! ### The queues and controllers of a failing command (R88, R89) -/

theorem failureNoted_of_success {c : Cmd} (h : c.status = .success) (s : State) : failureNoted c s = s := if_pos (by simp [h])

theorem failureNoted_of_failure {c : Cmd} (h : c.status ≠ .success) (s : State) :
    failureNoted c s = freezeQueue c c.status (logError c c.status s) := if_neg (by simpa using h)

theorem ctrls_freezeQueue (c : Cmd) (st : Status) (s : State) : (freezeQueue c st s).host.ctrls = s.host.ctrls := by
  unfold freezeQueue
  split
  · rfl
  · exact iteInduction (motive := fun u : State => u.host.ctrls = s.host.ctrls) (fun _ => rfl) fun _ => rfl

/-- A failing command adds 1 to its controller's error count (R89). -/
theorem findCtrl_failureNoted {c : Cmd} (h : c.status ≠ .success) {s : State} {k : Ctrl} (hk : findCtrl s c.cntlid = some k) :
    ∃ d, findCtrl (failureNoted c s) c.cntlid = some d ∧ d.errorCount = k.errorCount + 1 := by
  have hlog := findCtrl_logFailure c.sqid c.cap c.status s c.cntlid c.cntlid
  rw [if_pos rfl, hk, Option.map_some] at hlog
  rw [failureNoted_of_failure h]
  exact ⟨_, (congrArg (List.find? fun x : Ctrl => x.cntlid == c.cntlid) (ctrls_freezeQueue c c.status _)).trans hlog, rfl⟩

/-- A queue as a failing command freezes it (R88). -/
def frozenBy (c : Cmd) (l : State) (q : Sq) : Sq :=
  { q with frozen := some { order := l.host.freezes, cid := c.cap.cid, status := c.status,
                            error := ((findCtrl l c.cntlid).map (·.errorCount)).getD 0 } }

/-- A status that freezes leaves its queue frozen (R88). -/
theorem findSq_failureNoted {c : Cmd} {s : State} {q : Sq} (hio : c.sqid ≠ 0) (hq : findSq s c.cntlid c.sqid = some q)
    (hfreeze : freezes q.mediaOnly c.status = true) : ∃ r, findSq (failureNoted c s) c.cntlid c.sqid = some r ∧ r.frozen.isSome = true := by
  have hfail : c.status ≠ .success := by
    intro h
    rw [h] at hfreeze
    revert hfreeze
    cases q.mediaOnly <;> decide
  have hq' : findSq (logError c c.status s) c.cntlid c.sqid = some q := hq
  rw [failureNoted_of_failure hfail]
  generalize logError c c.status s = l at hq'
  simp only [freezeQueue, hq']
  by_cases hfrozen : q.frozen.isSome = true
  · rw [if_pos (by simp [hfrozen])]
    exact ⟨q, hq', hfrozen⟩
  · rw [if_neg (by simp [hio, hfrozen, hfreeze])]
    have hupd := findSq_updSq l c.cntlid c.sqid c.cntlid c.sqid (f := frozenBy c l) fun _ => ⟨rfl, rfl⟩
    rw [if_pos ⟨rfl, rfl⟩, hq', Option.map_some] at hupd
    exact ⟨_, hupd, rfl⟩

/-! ### What is sent (R46, R66, R89) -/

theorem Sent.mono {o : Out} {s t : State} (h : Sent o s) (houts : s.outs <+: t.outs) (hheld : s.heldOuts <+: t.heldOuts) : Sent o t := by
  obtain h | ⟨x, hx, heq⟩ := h
  · exact .inl (houts.subset h)
  · exact .inr ⟨x, hheld.subset hx, heq⟩

theorem Sent.of_cmdSide {o : Out} {s t : State} (h : Sent o s) (k : CmdSide s t) : Sent o t := h.mono k.outs k.heldOuts

/-- A completion that no data stands for is sent. -/
theorem completion_sent_postOne {c : Cmd} {s : State}
    (halone : successFlag (failureNoted c s) c (postedDw0 c (failureNoted c s)) = false) :
    ∃ head, Sent (.completion c.cntlid c.sqid c.cap.cid c.status (postedDw0 c (failureNoted c s)) head) (postOne c s) := by
  rw [postOne_eq]
  dsimp only
  rw [halone]
  refine ⟨((findSq (failureNoted c s) c.cntlid c.sqid).map (·.head)).getD 0, Sent.of_cmdSide ?_ ((cmdSide_keySent c _).trans (cmdSide_forgotten _ c _))⟩
  unfold completionSent
  rw [if_neg Bool.false_ne_true]
  exact (sendTo_frame _ _ _ _).2

/-- The data of a read that succeeded is sent. -/
theorem data_sent_postOne {c : Cmd} {s : State} (hop : c.cap.op = .read) (hok : c.status = .success) :
    Sent (.readData c.cntlid c.sqid c.cap.cid c.data (successFlag (failureNoted c s) c (postedDw0 c (failureNoted c s)))) (postOne c s) := by
  rw [postOne_eq]
  refine Sent.of_cmdSide ?_ ((cmdSide_completionSent c _ _ _ _).trans ((cmdSide_keySent c _).trans (cmdSide_forgotten _ c _)))
  unfold dataSent
  rw [if_pos (by simp [hop, hok])]
  exact (sendTo_frame _ _ _ _).2

/-- Dword 0 is given, but for bit 31 of an I/O queue (R89). -/
theorem postedDw0_spec (c : Cmd) (s : State) : (c.sqid = 0 → postedDw0 c s = c.dw0) ∧
    (c.sqid ≠ 0 → postedDw0 c s % 2 ^ 31 = c.dw0 % 2 ^ 31) := by
  refine ⟨fun h => if_pos (by simp [h]), fun h => ?_⟩
  rw [postedDw0, if_neg (by simpa using h)]
  split <;> omega

theorem successFlag_eq_false {s : State} {c : Cmd} {n : Nat} (h : c.cap.op ≠ .read ∨ c.status ≠ .success) : successFlag s c n = false := by
  obtain h | h := h <;> simp [successFlag, h]

theorem tcp_of_successFlag {s : State} {c : Cmd} {n : Nat} (h : successFlag s c n = true) :
    ∃ q, findSq s c.cntlid c.sqid = some q ∧ q.transport = .tcp := by
  simp only [successFlag, Bool.and_eq_true, Option.any_eq_true] at h
  obtain ⟨-, q, hq, htcp⟩ := h
  exact ⟨q, hq, by simpa using htcp⟩

/-! ### Which ended commands are posted -/

/-- One round of the posting of ended commands. -/
def postNext (s : State) (id : Nat) : State :=
  match findCmd s id with
  | some c => if c.phase == .ended && mayPost s c then postOne c s else s
  | none => s

theorem postEnded_eq (s : State) : postEnded s = (s.host.cmds.map (·.id)).foldl postNext s := rfl

theorem postNext_of_not {s : State} {id : Nat} (h : ∀ c, findCmd s id = some c → c.phase = .ended → mayPost s c = false) : postNext s id = s := by
  unfold postNext
  split
  · next c hc =>
    refine if_neg fun hgo => ?_
    simp only [Bool.and_eq_true, beq_iff_eq] at hgo
    exact absurd (h c hc hgo.1) (by simp [hgo.2])
  · rfl

theorem foldl_postNext_of_not {s : State} : ∀ {l : List Nat},
    (∀ id ∈ l, ∀ c, findCmd s id = some c → c.phase = .ended → mayPost s c = false) → l.foldl postNext s = s
  | [], _ => rfl
  | id :: l, h => by
    rw [List.foldl_cons, postNext_of_not (h id List.mem_cons_self)]
    exact foldl_postNext_of_not fun x hx => h x (List.mem_cons_of_mem _ hx)

theorem foldl_postNext_of_one {s : State} {id : Nat} {e : Cmd} (he : findCmd s id = some e) (hend : e.phase = .ended)
    (hmay : mayPost s e = true) (hothers : ∀ x ∈ s.host.cmds, x.id ≠ id → x.phase ≠ .ended) :
    ∀ {l : List Nat}, id ∈ l → l.foldl postNext s = postOne e s
  | x :: l, hmem => by
    have heid := key_of_findCmd he
    rw [List.foldl_cons]
    by_cases hx : x = id
    · subst hx
      have hpost : postNext s x = postOne e s := by
        simp only [postNext, he, hend, hmay]
        exact if_pos (by decide)
      rw [hpost]
      refine foldl_postNext_of_not fun y _ c hc hce => absurd hce ?_
      have hcmem := List.mem_of_find?_eq_some hc
      rw [(postOne_frame e s).2.1, List.mem_filter] at hcmem
      exact hothers c hcmem.1 (by simpa [heid] using hcmem.2)
    · have hskip : postNext s x = s := postNext_of_not fun c hc hce =>
        absurd hce (hothers c (List.mem_of_find?_eq_some hc) (by rw [key_of_findCmd hc]; exact hx))
      rw [hskip]
      exact foldl_postNext_of_one he hend hmay hothers ((List.mem_cons.1 hmem).resolve_left (Ne.symm hx))

/-- Where no command but this one has ended, the posting of ended commands posts it if it may be posted. -/
theorem postEnded_of_one {s : State} {id : Nat} {e : Cmd} (he : findCmd s id = some e) (hend : e.phase = .ended)
    (hothers : ∀ x ∈ s.host.cmds, x.id ≠ id → x.phase ≠ .ended) :
    (mayPost s e = true → postEnded s = postOne e s) ∧ (mayPost s e = false → postEnded s = s) := by
  have hid : id ∈ s.host.cmds.map (·.id) := by
    rw [← key_of_findCmd he]
    exact List.mem_map_of_mem (List.mem_of_find?_eq_some he)
  refine ⟨fun hmay => foldl_postNext_of_one he hend hmay hothers hid, fun hmay => foldl_postNext_of_not fun x _ c hc hce => ?_⟩
  by_cases hx : x = id
  · subst hx
    rwa [Option.some.inj (hc.symm.trans he)]
  · exact absurd hce (hothers c (List.mem_of_find?_eq_some hc) (by rw [key_of_findCmd hc]; exact hx))

theorem postEnded_of_none {s : State} (h : ∀ x ∈ s.host.cmds, x.phase ≠ .ended) : postEnded s = s :=
  foldl_postNext_of_not fun _ _ c hc hce => absurd hce (h c (List.mem_of_find?_eq_some hc))

/-- A command as it ends. -/
def ended (st : Status) (dw0 : Nat) (c : Cmd) : Cmd := { c with phase := .ended, status := st, dw0 := dw0, took := true }

theorem others_not_ended {s : State} {id : Nat} {f : Cmd → Cmd} (h : ∀ x ∈ s.host.cmds, x.id ≠ id → x.phase ≠ .ended)
    (hf : ∀ x, (f x).id = x.id) : ∀ x ∈ (updCmd id f s).host.cmds, x.id ≠ id → x.phase ≠ .ended := fun x hx hne => by
  obtain ⟨y, hy, rfl⟩ := List.mem_map.1 hx
  by_cases hyid : y.id = id
  · simp [hyid, hf] at hne
  · simp only [beq_iff_eq, hyid, if_false] at hne ⊢
    exact h y hy hyid

theorem status_field_lt (st : Status) : st.field < 65536 := by cases st <;> decide

/-- Settles O5: an admin command runs, waits or is refused as its case says, and a command that ends is posted once it may be. -/
theorem whenACommandRunsAndEnds : Obligations.WhenACommandRunsAndEnds := by
  unfold Obligations.WhenACommandRunsAndEnds
  refine ⟨fun k a i f s => ⟨runAdmin_of_not_waits, runAdmin_of_activating, runAdmin_of_not_provider, fun hw hact hplane hprov hbusy => ?_,
      runAdmin_of_flash_failed, runAdmin_of_runs, fun hnone => ?_, fun hno => if_pos (by simp only [hno, Bool.not_false]), ?_, ?_, ?_, ?_⟩,
    fun id dw0 st c s hfind hdisc hothers => ⟨fun hmay => ?_, fun hmay => ?_⟩,
    fun id dw0 st c s hfind hdisc hnone => ?_, fun dw0 st d s hrun hdrop hon => ?_⟩
  case refine_1 =>
    refine runAdmin_of_planeBusy hw hact hplane hprov ?_
    obtain h | ⟨hrel, hturn⟩ := hbusy
    · simp only [planeBusy, h, Bool.true_or]
    · have hsome : s.released.isEmpty = false := by simpa using hrel
      simp only [planeBusy, hsome, hturn, Bool.not_false, Bool.and_self, Bool.or_true]
  case refine_2 => simp [holdAdmin, hnone]
  case refine_3 =>
    show (syncStores { s with prov := none }).prov = none
    rw [onlyStores_syncStores]
  case refine_4 =>
    show (syncStores { s with prov := none }).released ++ (syncStores { s with prov := none }).heldAdmin = _
    rw [onlyStores_syncStores]
  case refine_5 => rfl
  case refine_6 =>
    show (syncStores { s with prov := none }).cleared ++ (syncStores { s with prov := none }).heldAdmin.map (·.1) = _
    rw [onlyStores_syncStores]
  case refine_7 =>
    have he : findCmd (updCmd id (ended st dw0) s) id = some (ended st dw0 c) := by
      rw [findCmd_updCmd s id id (f := ended st dw0) fun _ => rfl, if_pos rfl, hfind, Option.map_some]
    have hpost : finishCmd id st dw0 s = postOne (ended st dw0 c) (updCmd id (ended st dw0) s) := by
      simp only [finishCmd, hfind, hdisc]
      exact (if_neg Bool.false_ne_true).trans ((postEnded_of_one he rfl (others_not_ended hothers fun _ => rfl)).1 hmay)
    have hside := cmdSide_finishCmd id st dw0 s
    obtain ⟨hsqs, hcmds, hctrls⟩ := postOne_frame (ended st dw0 c) (updCmd id (ended st dw0) s)
    dsimp only
    rw [hpost] at hside ⊢
    refine ⟨?_, fun hplain => ?_, fun hop hok => ⟨_, data_sent_postOne hop hok, fun halone => ?_, fun halone => ?_⟩,
      fun x hx => hside.outs.subset hx, fun q hio hq hfreeze => ?_, fun k hfail hk => ?_⟩
    · refine List.find?_eq_none.2 fun x hx => ?_
      rw [hcmds, List.mem_filter] at hx
      have hne := hx.2
      rw [show (ended st dw0 c).id = id from (key_of_findCmd hfind : c.id = id)] at hne
      simpa using hne
    · obtain ⟨head, hsent⟩ := completion_sent_postOne (s := updCmd id (ended st dw0) s) (successFlag_eq_false (c := ended st dw0 c) hplain)
      obtain ⟨hadmin, hio⟩ := postedDw0_spec (ended st dw0 c) (failureNoted (ended st dw0 c) (updCmd id (ended st dw0) s))
      exact ⟨_, head, hsent, hadmin, hio⟩
    · obtain ⟨head, hsent⟩ := completion_sent_postOne halone
      exact ⟨_, head, hsent⟩
    · rw [failureNoted_of_success hok] at halone
      exact tcp_of_successFlag (s := updCmd id (ended st dw0) s) (c := ended st dw0 c) halone
    · obtain ⟨r, hr, hfrozen⟩ := findSq_failureNoted (c := ended st dw0 c) (s := updCmd id (ended st dw0) s) hio hq hfreeze
      exact ⟨r, (congrArg (List.find? fun x : Sq => x.cntlid == c.cntlid && x.sqid == c.sqid) hsqs).trans hr, hfrozen⟩
    · obtain ⟨d, hd, hcount⟩ := findCtrl_failureNoted (c := ended st dw0 c) (s := updCmd id (ended st dw0) s) hfail hk
      obtain ⟨j, hj, hsame⟩ := hctrls hd
      exact ⟨j, hj, hsame.trans hcount⟩
  case refine_8 =>
    have he : findCmd (updCmd id (ended st dw0) s) id = some (ended st dw0 c) := by
      rw [findCmd_updCmd s id id (f := ended st dw0) fun _ => rfl, if_pos rfl, hfind, Option.map_some]
    simp only [finishCmd, hfind, hdisc]
    exact (if_neg Bool.false_ne_true).trans ((postEnded_of_one he rfl (others_not_ended hothers fun _ => rfl)).2 hmay)
  case refine_9 =>
    have hgo : finishCmd id st dw0 s = postEnded (shutdownDone c.cntlid (dropCmd id (freeBuffers c.tile c.bufs s))) := by
      simp only [finishCmd, hfind, hdisc, if_true]
    refine hgo.trans (postEnded_of_none fun x hx => hnone x ?_)
    rw [(shutdownDone_frame _ _).2.1] at hx
    have hmem := (List.mem_filter.1 hx).1
    rwa [(sameQueues_freeBuffers c.tile c.bufs s).2.2] at hmem
  case refine_10 =>
    obtain ⟨-, hended, hout⟩ := respond_spec hrun hdrop hon 0 st.field dw0 0 (if st == .success then runLen s else 0)
    obtain ⟨hlen, htag, hstatus, hnvme, hdw0, -⟩ := response_fields d dw0 0 (if st == .success then runLen s else 0) (by decide : 0 < 256)
      (status_field_lt st)
    exact ⟨hended, _, hout, hlen, htag, hstatus, hnvme, hdw0⟩

end Sys2Proof.Machine
end

section
/-!
PROOFS. What Identify answers (R52, R55, R59, R60, R102, R110): an equation for each CNS, and what its lists name.
-/
namespace Sys2Proof.Machine
open Sys2Proof

section identify
variable {a : Adm} {n : Nat} {x : Ns} {s : State}

theorem namespaceAnswer_of_some {may : List Nat} (hmay : n ∈ may) (hx : nsOf s n = some x) :
    namespaceAnswer a may n s = admAnswer a (namespaceFields s x) s := by
  have hsome : ((nsOf s n).filter fun _ => may.contains n) = some x := by simp [hx, hmay]
  rw [namespaceAnswer, hsome]

theorem namespaceAnswer_of_not_mem {may : List Nat} (hno : n ∉ may) : namespaceAnswer a may n s = admDone a .invalidNamespaceOrFormat 0 s := by
  have hnone : ((nsOf s n).filter fun _ => may.contains n) = none := by
    cases nsOf s n <;> simp [hno]
  rw [namespaceAnswer, hnone]

/-- The controllers of a namespace, in ascending order. -/
def ctrlsOf (s : State) (n : Nat) : List Nat :=
  ((s.host.ctrls.filter fun c => attachedTo s c n).map (·.cntlid)).mergeSort (fun x y => decide (x ≤ y))

theorem mem_ctrlsOf {i : Nat} : i ∈ ctrlsOf s n ↔ ∃ c, c ∈ s.host.ctrls ∧ attachedTo s c n = true ∧ c.cntlid = i := by
  simp [ctrlsOf, List.mem_mergeSort, and_assoc]

theorem pairwise_ctrlsOf : (ctrlsOf s n).Pairwise (· ≤ ·) := by
  have hsorted := List.pairwise_mergeSort (le := fun x y : Nat => decide (x ≤ y)) (fun a b c hab hbc => by simp at *; omega)
    (fun a b => by simp; omega) ((s.host.ctrls.filter fun c => attachedTo s c n).map (·.cntlid))
  exact hsorted.imp fun h => of_decide_eq_true h

/-- A field of an entry stands in a list of entries at the entry's place. -/
theorem mem_entries {start size i : Nat} {es : List (List Field)} {e : List Field} {f : Field} (he : es[i]? = some e) (hf : f ∈ e) :
    (start + size * i + f.1, f.2.1, f.2.2) ∈ entries start size es :=
  List.mem_flatMap.2 ⟨(e, i), List.mem_zipIdx_iff_getElem?.2 he, List.mem_map.2 ⟨f, hf, rfl⟩⟩

theorem identify_unknown {cns : Nat} (h : cns ∉ [0, 1, 2, 3, 4, 0x10, 0x11, 0x12, 0x13]) : identify a cns n s = admDone a .invalidField 0 s := by
  simp only [List.mem_cons, List.not_mem_nil, or_false, not_or] at h
  unfold identify
  split <;> simp_all

end identify

/-- Settles O39: each CNS is answered with the structure or the list it names, or fails. -/
theorem identifyAnswers : Obligations.IdentifyAnswers := by
  unfold Obligations.IdentifyAnswers
  refine fun a n s hruns => ⟨fun x hseen hx => ?_, fun hno => ⟨?_, ?_⟩, ?_, ?_, ?_, fun hprov => ⟨?_, ?_⟩, fun hprov hn => ?_, ?_, fun cns hcns => ?_⟩
  case refine_1 =>
    obtain ⟨u, hu, heq⟩ := next_of_runs (c := .identify a 0 n) rfl hruns (by decide)
      (namespaceAnswer_of_some hseen hx : identify a 0 n s = _)
    refine ⟨u, hu, _, heq, ?_, ?_, ?_, ?_, ?_, ?_, ?_, ?_, ?_⟩ <;> simp [namespaceFields]
  case refine_2 => exact next_of_runs rfl hruns (by decide) (namespaceAnswer_of_not_mem hno : identify a 0 n s = _)
  case refine_3 =>
    exact next_of_runs rfl hruns (by decide) (if_neg (by simpa using hno) : identify a 3 n s = _)
  case refine_4 =>
    obtain ⟨u, hu, heq⟩ := next_of_runs (c := .identify a 1 n) (f := identify a 1 n) rfl hruns (by decide) rfl
    refine ⟨u, hu, _, heq, ?_, ?_, ?_, ?_⟩ <;> simp [controllerFields]
  case refine_5 =>
    obtain ⟨u, hu, heq⟩ := next_of_runs (c := .identify a 2 n) (f := identify a 2 n) rfl hruns (by decide) rfl
    exact ⟨u, hu, _, heq, fun i => by simp⟩
  case refine_6 =>
    obtain ⟨u, hu, heq⟩ := next_of_runs (c := .identify a 0x10 n) (f := identify a 0x10 n) rfl hruns (by decide) rfl
    refine ⟨u, hu, _, heq, fun i => ?_⟩
    rw [List.mem_filter, decide_eq_true_eq]
    rfl
  case refine_7 => exact next_of_runs rfl hruns (by decide) (if_pos (by simp [hprov]) : identify a 0x12 n s = _)
  case refine_8 => exact next_of_runs rfl hruns (by decide) (if_pos (by simp [hprov]) : identify a 0x13 n s = _)
  case refine_9 =>
    have hgo : identify a 0x12 n s = admAnswer a ((0, 2, (ctrlsOf s n).length) :: shift 2 (idList 2 2047 (ctrlsOf s n))) s :=
      (if_neg (by simp [hprov])).trans (if_neg (by simpa [allocated, hprov] using hn))
    obtain ⟨u, hu, heq⟩ := next_of_runs (c := .identify a 0x12 n) rfl hruns (by decide) hgo
    exact ⟨u, hu, _, ctrlsOf s n, heq, List.mem_cons_self, fun i => mem_ctrlsOf, pairwise_ctrlsOf⟩
  case refine_10 =>
    obtain ⟨u, hu, heq⟩ := next_of_runs (c := .identify a 4 n) (f := identify a 4 n) rfl hruns (by decide) rfl
    refine ⟨u, hu, _, heq, List.mem_cons_self, fun i g hg => ?_⟩
    have hentry : (s.reg.egs.map (setFields s))[i]? = some (setFields s g) := by rw [List.getElem?_map, hg, Option.map_some]
    refine ⟨List.mem_cons_of_mem _ ?_, List.mem_cons_of_mem _ ?_, List.mem_cons_of_mem _ ?_⟩
    · exact mem_entries (f := (0, 2, g.nvmSet)) hentry (by simp [setFields])
    · exact mem_entries (f := (2, 2, g.id)) hentry (by simp [setFields])
    · exact mem_entries (f := (16, 16, usable s g)) hentry (by simp [setFields])
  case refine_11 => exact next_of_runs rfl hruns (by decide) (identify_unknown hcns)

end Sys2Proof.Machine
end

section
/-!
PROOFS. Tenants and the limits of a namespace (R101 to R106): an equation for each case, and what the end of a tenant leaves.
-/
namespace Sys2Proof.Machine
open Sys2Proof

/-! ### Registry commands -/

/-- A registry command that runs leaves what its body leaves, with the config stores brought up to it, after which its turn passes. -/
theorem next_registry {c i : Instr} {a : Adm} {f : State → State} {s x : State}
    (hexec : exec c s = .next (runAdmin .registry a i f s)) (h : AdmRuns .registry a s) (hf : f s = x) :
    Next c s fun u => u = passTurn a (syncStores x) :=
  ⟨_, hexec.trans (congrArg Host.Outcome.next (runAdmin_registry h)), congrArg (fun y => passTurn a (syncStores y)) hf⟩

theorem OnlyHostSide.withReg {s t : State} (h : OnlyHostSide s t) (r : Registry) :
    OnlyHostSide { s with reg := r } { t with reg := r } :=
  ⟨congrArg (fun x : State => { x with reg := r }) h.1, h.2⟩

theorem OnlyHostSide.withProv {s t : State} (h : OnlyHostSide s t) (p : Option ProvOp) :
    OnlyHostSide { s with prov := p } { t with prov := p } :=
  ⟨congrArg (fun x : State => { x with prov := p }) h.1, h.2⟩

theorem OnlyHostSide.withFw {s t : State} (h : OnlyHostSide s t) (f : FwState) : OnlyHostSide { s with fw := f } { t with fw := f } :=
  ⟨congrArg (fun x : State => { x with fw := f }) h.1, h.2⟩

/-- What only ends commands leaves the registry, the provider's operation, the keys and what firmware keeps. -/
theorem kept_of_onlyHostSide {s t : State} (h : OnlyHostSide s t) :
    t.reg = s.reg ∧ t.prov = s.prov ∧ t.cry = s.cry ∧ t.fw = s.fw ∧ t.map = s.map ∧ t.mgmt = s.mgmt := by
  obtain ⟨hframe, -⟩ := h
  rw [hframe]
  exact ⟨rfl, rfl, rfl, rfl, rfl, rfl⟩

/-- The config stores brought up to a state, as the frame of a registry command has them. -/
theorem onlyHostSide_synced {s t : State} {r : Registry} {p : Option ProvOp} (h : OnlyHostSide { s with reg := r, prov := p } t) :
    OnlyHostSide { s with reg := r, prov := p, fw := storesOf s (syncStores t) } (syncStores t) := by
  have hsame : storesOf t (syncStores t) = storesOf s (syncStores t) := by
    rw [storesOf, (kept_of_onlyHostSide h).2.2.2.1]
    rfl
  have hstores : syncStores t = { t with fw := storesOf s (syncStores t) } := by
    rw [← hsame]
    exact onlyStores_syncStores t
  have hside := h.withFw (storesOf s (syncStores t))
  rw [← hstores] at hside
  exact hside

theorem onlyHostSide_passTurn (a : Adm) (s : State) : OnlyHostSide s (passTurn a s) := by
  refine ⟨?_, ?_, fun w i f _ => ?_⟩
  · have h := onlyTurns_passTurn a s
    generalize passTurn a s = u at h ⊢
    rw [h]
  · rw [onlyTurns_passTurn a s]
    rfl
  · rw [onlyTurns_passTurn a s]
    rfl

/-- A registry command whose body ends commands and changes the registry and the provider's operation stays within that and the stores. -/
theorem onlyHostSide_registry {s t : State} {a : Adm} {r : Registry} {p : Option ProvOp} (h : OnlyHostSide { s with reg := r, prov := p } t) :
    ∀ u, u = passTurn a (syncStores t) →
      OnlyHostSide { s with reg := u.reg, prov := u.prov, fw := storesOf s u } u ∧ u.reg = r ∧ u.prov = p ∧ u.host = t.host := by
  rintro _ rfl
  have hside := (onlyHostSide_synced h).trans (onlyHostSide_passTurn a (syncStores t))
  obtain ⟨hreg, hprov, -, hfw, -⟩ := kept_of_onlyHostSide hside
  refine ⟨?_, hreg, hprov, (host_passTurn a _).trans (host_syncStores t)⟩
  rw [hreg, hprov, show storesOf s (passTurn a (syncStores t)) = storesOf s (syncStores t) by rw [storesOf, hfw]; rfl]
  exact hside

/-! ### Limits (R101, R102) -/

section limits
variable {a : Adm} {n : Nat} {d : Bytes} {s : State}

/-- A number within a data structure. -/
def numAt (d : Bytes) (i k : Nat) : Nat := ofLE ((d.drop i).take k)

theorem burst_eq (k : Nat) : (if k == 0 then 10 else k) = if k = 0 then 10 else k := by simp only [beq_iff_eq]

theorem nsLimits_of_managed {x : Ns} (hlen : d.length = 32) (hx : managed s n = some x) : nsLimits a n d s =
    if 1000 < numAt d 16 2 || (d.drop 18).any (· != 0) then admDone a .invalidField 0 s
    else admDone a .success 0 (updNs n (fun x => { x with
      newLimits := some ⟨numAt d 0 4, numAt d 4 4, numAt d 8 4, numAt d 12 4, if numAt d 16 2 = 0 then 10 else numAt d 16 2⟩ }) s) := by
  unfold nsLimits
  rw [if_neg (by simp [hlen]), hx, ← burst_eq]
  rfl

end limits

/-! ### Tenants (R103, R104, R106) -/

section tenants
variable {a : Adm} {d : Bytes} {t old : Tenant} {s : State}

theorem tenantSet_of_new (hlen : d.length = 512) (ht : parseTenant d = some t) (hnew : (s.reg.tenants.find? fun x => x.id == t.id) = none) :
    tenantSet a d s = if s.reg.tenants.any (fun x => x.ident == t.ident) then admDone a .invalidField 0 s
      else admDone a .success 0 { s with reg := { s.reg with tenants := s.reg.tenants ++ [t] } } := by
  simp [tenantSet, hlen, ht, hnew]

theorem tenantSet_of_old (hlen : d.length = 512) (ht : parseTenant d = some t) (hold : (s.reg.tenants.find? fun x => x.id == t.id) = some old) :
    tenantSet a d s = if old.ident != t.ident then admDone a .invalidField 0 s
      else admDone a .success 0 { s with reg := { s.reg with tenants := s.reg.tenants.map fun x => if x.id == t.id then t else x } } := by
  simp only [tenantSet, hlen, ht, hold, bne_self_eq_false, Bool.false_eq_true, if_false]

theorem find_tenant_eq_none {id : Nat} (h : ∀ x, x ∈ s.reg.tenants → x.id ≠ id) : (s.reg.tenants.find? fun x => x.id == id) = none :=
  List.find?_eq_none.2 fun x hx => by simpa using h x hx

/-- The registry without a tenant's attachments. -/
def regDetached (id : Nat) (s : State) : Registry :=
  { s.reg with nss := s.reg.nss.map fun n => { n with attached := n.attached.filter fun t => !(t == id) } }

/-- A tenant's attachments gone, the command that deletes it ended, and its controllers. -/
def tenantEnded (a : Adm) (id : Nat) (s : State) : State :=
  let s2 := admDone a .success 0 { s with reg := regDetached id s }
  endCtrls ((s2.host.ctrls.filter fun c => c.tenant == id).map (·.cntlid)) s2

theorem tenantDelete_of_free {id : Nat} (hlen : ringLenOk a 0 s = true) (ht : (s.reg.tenants.find? fun t => t.id == id) ≠ none)
    (hfree : ∀ n, n ∈ s.reg.nss → n.owner ≠ id) : tenantDelete a id s =
      { tenantEnded a id s with reg := { (tenantEnded a id s).reg with
          tenants := (tenantEnded a id s).reg.tenants.filter fun t => !(t.id == id) } } := by
  obtain ⟨t, ht⟩ := Option.ne_none_iff_exists'.1 ht
  have hnone : (s.reg.nss.any fun n => n.owner == id) = false := List.any_eq_false.2 fun n hn => by simpa using hfree n hn
  simp only [tenantDelete, hlen, ht, hnone]
  rfl

theorem onlyHostSide_tenantEnded (a : Adm) (id : Nat) (s : State) : OnlyHostSide { s with reg := regDetached id s } (tenantEnded a id s) :=
  (onlyHostSide_admDone a .success 0 _).trans (endCtrls_spec _ _).1

theorem tenant_of_ctrls_tenantEnded {id : Nat} {c : Ctrl} (hc : c ∈ (tenantEnded a id s).host.ctrls) : c.tenant ≠ id := by
  obtain ⟨-, -, -, hctrls, -⟩ := endCtrls_spec (((admDone a .success 0 { s with reg := regDetached id s }).host.ctrls.filter
    fun c => c.tenant == id).map (·.cntlid)) (admDone a .success 0 { s with reg := regDetached id s })
  obtain ⟨hmem, hnot⟩ := (hctrls c).1 hc
  exact fun heq => hnot (List.mem_map.2 ⟨c, List.mem_filter.2 ⟨hmem, by simp [heq]⟩, rfl⟩)

theorem nsOf_detached {id n : Nat} {x : Ns} (hx : nsOf s n = some x) : (regDetached id s).nss.find? (fun y => y.nsid == n) =
    some { x with attached := x.attached.filter fun t => !(t == id) } := by
  have hmap := find?_map_key Ns.nsid (f := fun n : Ns => { n with attached := n.attached.filter fun t => !(t == id) }) (fun _ => rfl) n s.reg.nss
  exact hmap.trans (congrArg (Option.map fun n : Ns => { n with attached := n.attached.filter fun t => !(t == id) }) hx)

end tenants

/-- Settles O42: limits and tenants are stored, described and removed, or their command fails with its status. -/
theorem tenantsAndLimits : Obligations.TenantsAndLimits := by
  unfold Obligations.TenantsAndLimits
  refine ⟨fun a n d s hruns => ⟨fun hlen => ?_, fun hlen hnone => ?_, fun x hlen hx hburst hzero => ?_, fun hlen hsome hbad => ?_⟩,
    fun a d s hruns => ⟨fun hlen => ?_, fun hlen hnone => ?_, fun t hlen ht hnew => ?_, fun t old hlen ht hold => ⟨fun hsame => ?_, fun hother => ?_⟩,
      fun t hlen ht hnew htaken => ?_⟩,
    fun a id s hruns => ⟨fun hlen => ?_, fun t hlen ht => ?_, fun hlen hnone => ?_⟩,
    fun a id s hruns => ⟨fun hlen => ?_, fun hlen hnone => ?_, fun hlen hsome howns => ?_, fun hlen hsome hfree => ?_⟩⟩
  case refine_1 => exact next_registry rfl hruns (if_pos (by simpa using hlen) : nsLimits a n d s = _)
  case refine_2 => exact next_registry rfl hruns (by simp [nsLimits, hlen, hnone] : nsLimits a n d s = admDone a .invalidNamespaceOrFormat 0 s)
  case refine_3 =>
    refine next_registry rfl hruns ((nsLimits_of_managed hlen hx).trans (if_neg ?_))
    rw [Bool.or_eq_true, decide_eq_true_eq, List.any_eq_true]
    exact not_or.2 ⟨Nat.not_lt.2 hburst, fun ⟨b, hb, hne⟩ => by simp [hzero b hb] at hne⟩
  case refine_4 =>
    obtain ⟨x, hx⟩ := Option.ne_none_iff_exists'.1 hsome
    refine next_registry rfl hruns ((nsLimits_of_managed hlen hx).trans (if_pos ?_))
    rw [Bool.or_eq_true, decide_eq_true_eq, List.any_eq_true]
    exact hbad.imp id fun ⟨b, hb, hne⟩ => ⟨b, hb, by simpa using hne⟩
  case refine_5 => exact next_registry rfl hruns (if_pos (by simpa using hlen) : tenantSet a d s = _)
  case refine_6 => exact next_registry rfl hruns (by simp [tenantSet, hlen, hnone] : tenantSet a d s = admDone a .invalidField 0 s)
  case refine_7 =>
    refine next_registry rfl hruns ((tenantSet_of_new hlen ht (find_tenant_eq_none fun x hx => (hnew x hx).1)).trans (if_neg ?_))
    rw [List.any_eq_true]
    exact fun ⟨x, hx, heq⟩ => (hnew x hx).2 (by simpa using heq)
  case refine_8 => exact next_registry rfl hruns ((tenantSet_of_old hlen ht hold).trans (if_neg (by simp [hsame])))
  case refine_9 => exact next_registry rfl hruns ((tenantSet_of_old hlen ht hold).trans (if_pos (by simpa using hother)))
  case refine_10 =>
    refine next_registry rfl hruns ((tenantSet_of_new hlen ht (find_tenant_eq_none hnew)).trans (if_pos ?_))
    obtain ⟨x, hx, heq⟩ := htaken
    exact List.any_eq_true.2 ⟨x, hx, by simp [heq]⟩
  case refine_11 => exact next_of_runs rfl hruns (by decide) (if_pos (by simp [hlen]) : tenantGet a id s = _)
  case refine_12 =>
    have hgo : tenantGet a id s = admAnswer a (tenantFields t) s := by simp [tenantGet, hlen, ht]
    obtain ⟨u, hu, heq⟩ := next_of_runs (c := .tenantGet a id) rfl hruns (by decide) hgo
    refine ⟨u, hu, _, heq, ?_, ?_, ?_, ?_, fun e f hident => ?_, fun n hident => ?_⟩
    · simp [tenantFields]
    · simp [tenantFields]
    · simp [tenantFields]
    · simp [tenantFields]
    · simp [tenantFields, hident]
    · simp [tenantFields, hident]
  case refine_13 => exact next_of_runs rfl hruns (by decide) (by simp [tenantGet, hlen, hnone] : tenantGet a id s = admDone a .invalidField 0 s)
  case refine_14 => exact next_registry rfl hruns (if_pos (by simp [hlen]) : tenantDelete a id s = _)
  case refine_15 => exact next_registry rfl hruns (by simp [tenantDelete, hlen, hnone] : tenantDelete a id s = admDone a .invalidField 0 s)
  case refine_16 =>
    obtain ⟨t, ht⟩ := Option.ne_none_iff_exists'.1 hsome
    obtain ⟨n, hn, howner⟩ := howns
    have hany : (s.reg.nss.any fun n => n.owner == id) = true := List.any_eq_true.2 ⟨n, hn, by simp [howner]⟩
    refine next_registry rfl hruns (?_ : tenantDelete a id s = admDone a .commandSequenceError 0 s)
    simp only [tenantDelete, hlen, ht, hany]
    exact if_neg (by decide)
  case refine_17 =>
    obtain ⟨u, hu, heq⟩ := next_registry (c := .tenantDelete a id) rfl hruns (tenantDelete_of_free hlen hsome hfree)
    have hended := onlyHostSide_tenantEnded a id s
    obtain ⟨hreg, hprov, -⟩ := kept_of_onlyHostSide hended
    have hbody := (hended.withReg { (tenantEnded a id s).reg with
      tenants := (tenantEnded a id s).reg.tenants.filter fun t => !(t.id == id) }).withProv s.prov
    have hback : ({ ({ tenantEnded a id s with reg := { (tenantEnded a id s).reg with
        tenants := (tenantEnded a id s).reg.tenants.filter fun t => !(t.id == id) } } : State) with prov := s.prov } : State) =
      { tenantEnded a id s with reg := { (tenantEnded a id s).reg with
        tenants := (tenantEnded a id s).reg.tenants.filter fun t => !(t.id == id) } } := by rw [show s.prov = (tenantEnded a id s).prov from hprov.symm]
    rw [hback] at hbody
    obtain ⟨hside, hureg, huprov, huhost⟩ := onlyHostSide_registry hbody u heq
    rw [huprov] at hside
    refine ⟨u, hu, hside, ?_, fun t => ?_, fun c hc => ?_, fun n hn => ?_, fun n x hx => ⟨x.attached.filter fun t => !(t == id), ?_, fun t => ?_⟩⟩
    · rw [hureg, hreg]
      rfl
    · rw [hureg, hreg]
      simp [regDetached]
    · rw [huhost] at hc
      exact tenant_of_ctrls_tenantEnded hc
    · rw [hureg, hreg] at hn
      obtain ⟨y, -, rfl⟩ := List.mem_map.1 hn
      simp
    · unfold nsOf
      rw [hureg, hreg]
      exact nsOf_detached hx
    · simp

end Sys2Proof.Machine
end

section
/-!
PROOFS. What the namespace operations share (R111, R114 to R117, R134, R357): the cipher jobs that end, the key slots, the spans that go,
and the commands that end.
-/
namespace Sys2Proof.Machine
open Sys2Proof

/-! ### The cipher jobs that wait end (R357) -/

/-- From `s` to `t` only what an engine's job may touch changed. -/
def OnlyJobs (s t : State) : Prop := t = { s with mem := t.mem, regs := t.regs, eng := t.eng, evr := t.evr, outs := t.outs }

theorem OnlyJobs.trans {s t u : State} (h : OnlyJobs s t) (k : OnlyJobs t u) : OnlyJobs s u :=
  Eq.trans k (congrArg (fun x : State => { x with mem := u.mem, regs := u.regs, eng := u.eng, evr := u.evr, outs := u.outs }) h)

theorem onlyJobs_takeReq {t : Nat} {u : EngUnit} {may : EngReq → Bool} {s s1 : State} {r : EngReq} (h : takeReq t u may s = some (r, s1)) :
    OnlyJobs s s1 := by
  unfold takeReq at h
  dsimp only at h
  split at h
  · exact absurd h (by simp)
  · obtain ⟨x, -, heq⟩ := Option.map_eq_some_iff.1 h
    rw [← (Prod.mk.inj heq).2]
    rfl

theorem onlyJobs_cryJob (dec : Bool) (t : Nat) (j : CryJob) (fault : Option Nat) (s : State) : OnlyJobs s (cryJob dec t j fault s) := by
  unfold cryJob
  dsimp only
  refine iteInduction (motive := OnlyJobs s) (fun _ => rfl) fun _ => ?_
  split
  · next st _ =>
    refine OnlyJobs.trans (t := if st == .keyAbsent || st == .keyStale then bump t .cry_errors_stale_jobs s else s) ?_ rfl
    exact iteInduction (motive := OnlyJobs s) (fun _ => rfl) fun _ => rfl
  · split
    · rfl
    · split <;> rfl

theorem onlyJobs_serveCipher (t : Nat) : ∀ (n : Nat) (s : State), OnlyJobs s (serveCipher t n s)
  | 0, _ => rfl
  | n + 1, s => by
    unfold serveCipher
    split
    · rfl
    · next r s1 hreq =>
      split
      · exact ((onlyJobs_takeReq hreq).trans (onlyJobs_cryJob _ t _ _ s1)).trans (onlyJobs_serveCipher t n _)
      · exact (onlyJobs_takeReq hreq).trans (onlyJobs_serveCipher t n s1)

theorem onlyJobs_endCipherJobs (s : State) : OnlyJobs s (endCipherJobs s) := by
  have hfold : ∀ (l : List Nat) (s : State), OnlyJobs s (l.foldl (fun s t => serveCipher t (reqsAt s t .cipher).length s) s) := by
    intro l
    induction l with
    | nil => exact fun s => rfl
    | cons t l ih => exact fun s => (onlyJobs_serveCipher t _ s).trans (ih _)
  exact hfold _ s

/-! ### Key slots and generations (R114, R357) -/

theorem slotGen_advanceGen (n : Nat) (s : State) : slotGen (advanceGen n s) n = (slotGen s n + 1) % 16 := by
  unfold advanceGen
  generalize (slotGen s n + 1) % 16 = g
  have hnone : (s.cry.gens.filter fun x => x.1 != n - 1).find? (fun x => x.1 == n - 1) = none :=
    List.find?_eq_none.2 fun x hx => by simpa using (List.mem_filter.1 hx).2
  show ((((s.cry.gens.filter fun x => x.1 != n - 1) ++ if g == 0 then [] else [(n - 1, g)]).find? fun x => x.1 == n - 1).map (·.2)).getD 0 = g
  rw [List.find?_append, hnone]
  by_cases hg : g = 0 <;> simp [hg]

theorem slotGen_clearKey (n : Nat) (s : State) : slotGen (clearKey n s) n = (slotGen s n + 1) % 16 := slotGen_advanceGen n _

/-- A slot with its key zeroed. -/
def keyZeroed (k : KeySlot) : KeySlot := { k with key1 := zeroBytes 32, key2 := zeroBytes 32, loaded := false }

theorem findKey_clearKey (n : Nat) (s : State) (t slot : Nat) :
    findKey (clearKey n s) t slot = (findKey s t slot).map fun k => if k.slot == n - 1 then keyZeroed k else k := by
  have hmap : ∀ l : List KeySlot, (l.map fun k => if k.slot == n - 1 then keyZeroed k else k).find? (fun k => k.tile == t && k.slot == slot) =
      (l.find? fun k => k.tile == t && k.slot == slot).map fun k => if k.slot == n - 1 then keyZeroed k else k := fun l => by
    rw [List.find?_map]
    refine congrArg (Option.map _) (congrArg (fun p => List.find? p l) (funext fun k => ?_))
    simp only [Function.comp_apply]
    split <;> rfl
  exact hmap s.cry.slots

theorem slotLoaded_clearKey_self (n : Nat) (s : State) : slotLoaded (clearKey n s) n = false := by
  unfold slotLoaded keyLoaded
  rw [findKey_clearKey, Option.any_map, Option.any_eq_false]
  intro k hk
  have hslot : k.slot = n - 1 := by
    have hkey := List.find?_some hk
    simp only [Bool.and_eq_true, beq_iff_eq] at hkey
    exact hkey.2
  simp [hslot, keyZeroed]

theorem slotLoaded_clearKey {m : Nat} {s : State} (h : slotLoaded s m = false) (n : Nat) : slotLoaded (clearKey n s) m = false := by
  unfold slotLoaded keyLoaded at h ⊢
  rw [Option.any_eq_false] at h
  rw [findKey_clearKey, Option.any_map, Option.any_eq_false]
  intro k hk
  have hno := h k hk
  split
  · simp [keyZeroed]
  · exact hno

theorem slotLoaded_of_cry {s t : State} (hcry : t.cry = s.cry) (hmgmt : t.mgmt = s.mgmt) (n : Nat) : slotLoaded t n = slotLoaded s n := by
  unfold slotLoaded keyLoaded findKey
  rw [hcry, hmgmt]

theorem nsOf_of_reg {s t : State} (h : t.reg = s.reg) (n : Nat) : nsOf t n = nsOf s n := by
  unfold nsOf
  rw [h]

theorem nsOf_updNs {f : Ns → Ns} (hf : ∀ x, (f x).nsid = x.nsid) (n : Nat) (s : State) (m : Nat) :
    nsOf (updNs n f s) m = if m = n then (nsOf s m).map f else nsOf s m := find?_updKey Ns.nsid hf n m _

theorem nsOf_of_managed {s : State} {n : Nat} {x : Ns} (h : managed s n = some x) : nsOf s n = some x := (Option.filter_eq_some_iff.1 h).1

theorem key_of_nsOf {s : State} {n : Nat} {x : Ns} (h : nsOf s n = some x) : x.nsid = n := by simpa using List.find?_some h

/-! ### The end of an operation of the provider plane (R100) -/

theorem provEnd_eq (s : State) : provEnd s = releaseHeld (syncStores { s with prov := none }) := rfl

theorem kept_of_provEnd (s : State) : (provEnd s).reg = s.reg ∧ (provEnd s).prov = none ∧ (provEnd s).heldAdmin = [] ∧
    (provEnd s).cry = s.cry ∧ (provEnd s).mgmt = s.mgmt ∧ (provEnd s).fw = storesOf s (provEnd s) := by
  have h := onlyStores_syncStores { s with prov := none }
  rw [provEnd_eq]
  generalize syncStores { s with prov := none } = t at h
  rw [h]
  exact ⟨rfl, rfl, rfl, rfl, rfl, rfl⟩

/-! ### The spans of a namespace (R114, R117, R134, R138) -/

theorem reportLive_frame (old new : List Span) (s : State) : reportLive old new s = { s with rcl := (reportLive old new s).rcl } := by
  have hfold : ∀ (f : Span → Int) (l : List Span) (s : State),
      l.foldl (fun s x => liveDelta x.addr (f x) s) s = { s with rcl := (l.foldl (fun s x => liveDelta x.addr (f x) s) s).rcl } := by
    intro f l
    induction l with
    | nil => exact fun s => rfl
    | cons x l ih => exact fun s => ih (liveDelta x.addr (f x) s)
  unfold reportLive
  dsimp only
  generalize hm : (old.filter fun x => !x.zero).foldl (fun s x => liveDelta x.addr (-(x.count : Int)) s) s = m
  have hold : m = { s with rcl := m.rcl } := by
    rw [← hm]
    exact hfold (fun x => -(x.count : Int)) _ s
  refine (hfold (fun x => x.count) _ m).trans ?_
  rw [hold]

theorem key_of_getRegion (s : State) (n r : Nat) : (getRegion s n r).nsid = n ∧ (getRegion s n r).r = r := by
  unfold getRegion
  cases h : findRegion s n r with
  | none => exact ⟨rfl, rfl⟩
  | some x => simpa using List.find?_some h

/-- From `s` to `t` the spans of a namespace may have gone: its count of blocks in use, its regions and the counts of live blocks alone have
changed. -/
structure SpansGone (n : Nat) (s t : State) : Prop where
  frame : t = { s with reg := { s.reg with nss := t.reg.nss }, map := t.map, rcl := t.rcl }
  self : ∀ x, nsOf s n = some x → ∃ k, nsOf t n = some { x with nuse := k }
  other : ∀ m, m ≠ n → nsOf t m = nsOf s m
  regions : ∀ y : Region, y.nsid ≠ n → (y ∈ t.map.regions ↔ y ∈ s.map.regions)

theorem SpansGone.refl (n : Nat) (s : State) : SpansGone n s s := ⟨rfl, fun x hx => ⟨x.nuse, hx⟩, fun _ _ => rfl, fun _ _ => Iff.rfl⟩

theorem SpansGone.trans {n : Nat} {s t u : State} (h : SpansGone n s t) (k : SpansGone n t u) : SpansGone n s u where
  frame := Eq.trans k.frame (congrArg (fun x : State => { x with reg := { x.reg with nss := u.reg.nss }, map := u.map, rcl := u.rcl }) h.frame)
  self x hx := by
    obtain ⟨a, ha⟩ := h.self x hx
    obtain ⟨b, hb⟩ := k.self _ ha
    exact ⟨b, hb⟩
  other m hm := (k.other m hm).trans (h.other m hm)
  regions y hy := (k.regions y hy).trans (h.regions y hy)

theorem mem_regions_putRegion {x y : Region} (h : y.nsid ≠ x.nsid) (s : State) : y ∈ (putRegion x s).map.regions ↔ y ∈ s.map.regions := by
  have hne : y ≠ x := fun heq => h (congrArg Region.nsid heq)
  show y ∈ (if _ then _ else _ : List Region) ↔ _
  split
  · rw [List.mem_map]
    refine ⟨fun ⟨z, hz, heq⟩ => ?_, fun hy => ⟨y, hy, by simp [h]⟩⟩
    split at heq
    · exact absurd heq.symm hne
    · exact heq ▸ hz
  · simp [hne]

/-- A namespace with its count of blocks in use moved. -/
def nuseMoved (up down : Nat) (k : Ns) : Ns := { k with nuse := k.nuse + up - down }

/-- The counts of a region's spans moved: the live blocks reported, the blocks in use counted. -/
def spansCounted (n up down : Nat) (c : ReclaimState) (s : State) : State :=
  { s with reg := { s.reg with nss := s.reg.nss.map fun k => if k.nsid == n then nuseMoved up down k else k }, rcl := c }

theorem spansGone_spansCounted (n up down : Nat) (c : ReclaimState) (s : State) : SpansGone n s (spansCounted n up down c s) where
  frame := rfl
  self x hx := by
    refine ⟨x.nuse + up - down, (nsOf_updNs (f := nuseMoved up down) (fun _ => rfl) n s n).trans ?_⟩
    rw [if_pos rfl, hx]
    rfl
  other m hm := (nsOf_updNs (f := nuseMoved up down) (fun _ => rfl) n s m).trans (if_neg hm)
  regions _ _ := Iff.rfl

/-- A region set to the spans it keeps, or EMPTY without one (R138). -/
def regionSet (n r : Nat) (keep : List Span) (dirty : Option Nat) (old s : State) : State :=
  if keep.isEmpty then
    { s with map := { s.map with
        regions := s.map.regions.filter fun y => !(y.nsid == n && y.r == r)
        gone := s.map.gone ++ if (getRegion old n r).l2.isSome
          then [{ getRegion old n r with spans := [], dirty := some (findJournal old (ownerSlot old n r)).head }] else [] } }
  else putRegion { getRegion old n r with spans := keep, dirty := dirty } s

theorem spansGone_regionSet (n r : Nat) (keep : List Span) (dirty : Option Nat) (old s : State) :
    SpansGone n s (regionSet n r keep dirty old s) := by
  unfold regionSet
  refine iteInduction (motive := SpansGone n s) (fun _ => ?_) fun _ => ?_
  · refine ⟨rfl, fun x hx => ⟨x.nuse, hx⟩, fun _ _ => rfl, fun y hy => ?_⟩
    show y ∈ List.filter _ _ ↔ _
    rw [List.mem_filter]
    exact ⟨fun h => h.1, fun h => ⟨h, by simp [hy]⟩⟩
  · refine ⟨rfl, fun x hx => ⟨x.nuse, hx⟩, fun _ _ => rfl, fun y hy => mem_regions_putRegion ?_ _⟩
    show y.nsid ≠ (getRegion old n r).nsid
    rw [(key_of_getRegion old n r).1]
    exact hy

theorem spansGone_setSpans (n r : Nat) (new : List Span) (dirty : Option Nat) (s : State) : SpansGone n s (setSpans n r new dirty s) := by
  have hrep := reportLive_frame (reported s n r (getRegion s n r).spans) (reported s n r (new.filter fun y => !stale s n y)) s
  have heq : setSpans n r new dirty s = regionSet n r (new.filter fun y => !stale s n y) dirty s (spansCounted n
      (mapped (new.filter fun y => !stale s n y)) (mapped ((getRegion s n r).spans.filter fun y => !stale s n y))
      (reportLive (reported s n r (getRegion s n r).spans) (reported s n r (new.filter fun y => !stale s n y)) s).rcl s) := by
    unfold setSpans
    dsimp only
    rw [hrep]
    rfl
  rw [heq]
  exact (spansGone_spansCounted n _ _ _ s).trans (spansGone_regionSet n r _ dirty s _)

theorem spansGone_dropStale (n : Nat) (s : State) : SpansGone n s (dropStale n s) := by
  have hfold : ∀ (l : List Region) (s : State), SpansGone n s (l.foldl (fun s x => setSpans n x.r x.spans x.dirty s) s) := by
    intro l
    induction l with
    | nil => exact SpansGone.refl n
    | cons x l ih => exact fun s => (spansGone_setSpans n x.r x.spans x.dirty s).trans (ih _)
  exact hfold _ s

/-- What the drop of a namespace's regions leaves (R117). -/
theorem dropRegions_spec (n : Nat) (s : State) : dropRegions n s = { s with map := (dropRegions n s).map, rcl := (dropRegions n s).rcl } ∧
    (dropRegions n s).map.regions = s.map.regions.filter (fun x => !(x.nsid == n)) ∧
    (dropRegions n s).map.chunks = s.map.chunks.filter fun c => !(c.1 == n) := by
  have hfold : ∀ (l : List Region) (s : State), ∃ c, l.foldl (fun s x => reportLive (reported s n x.r x.spans) [] s) s = { s with rcl := c } := by
    intro l
    induction l with
    | nil => exact fun s => ⟨s.rcl, rfl⟩
    | cons x l ih =>
      intro s
      obtain ⟨c, hc⟩ := ih (reportLive (reported s n x.r x.spans) [] s)
      refine ⟨c, hc.trans ?_⟩
      rw [reportLive_frame]
  obtain ⟨c, hc⟩ := hfold (s.map.regions.filter fun x => x.nsid == n) s
  unfold dropRegions
  dsimp only
  rw [hc]
  exact ⟨rfl, rfl, rfl⟩

/-! ### Commands that end (R115, R117) -/

/-- From `s` to `t` no command is new, and each is as before or has started. -/
def CmdsEnd (s t : State) : Prop := ∀ c ∈ t.host.cmds, ∃ d ∈ s.host.cmds, c.id = d.id ∧ c.cap = d.cap ∧ (c = d ∨ c.started = true)

theorem CmdsEnd.of_subset {s t : State} (h : ∀ c ∈ t.host.cmds, c ∈ s.host.cmds) : CmdsEnd s t := fun c hc => ⟨c, h c hc, rfl, rfl, .inl rfl⟩

theorem CmdsEnd.trans {s t u : State} (h : CmdsEnd s t) (k : CmdsEnd t u) : CmdsEnd s u := fun c hc => by
  obtain ⟨d, hd, hid, hcap, hstate⟩ := k c hc
  obtain ⟨e, he, hid', hcap', hstate'⟩ := h d hd
  refine ⟨e, he, hid.trans hid', hcap.trans hcap', ?_⟩
  obtain rfl | hstarted := hstate
  · exact hstate'
  · exact .inr hstarted

theorem cmdsEnd_foldl {α : Type} {f : State → α → State} (h : ∀ s x, CmdsEnd s (f s x)) : ∀ (l : List α) (s : State), CmdsEnd s (l.foldl f s)
  | [], _ => .of_subset fun _ hc => hc
  | x :: l, s => (h s x).trans (cmdsEnd_foldl h l (f s x))

theorem cmds_postEnded (s : State) : ∀ c ∈ (postEnded s).host.cmds, c ∈ s.host.cmds := by
  have hnext : ∀ (s : State) (id : Nat), ∀ c ∈ (postNext s id).host.cmds, c ∈ s.host.cmds := fun s id => by
    unfold postNext
    split
    · next x _ =>
      refine iteInduction (motive := fun u : State => ∀ c ∈ u.host.cmds, c ∈ s.host.cmds) (fun _ c hc => ?_) fun _ c hc => hc
      rw [(postOne_frame x s).2.1] at hc
      exact (List.mem_filter.1 hc).1
    · exact fun c hc => hc
  have hfold : ∀ (l : List Nat) (s : State), ∀ c ∈ (l.foldl postNext s).host.cmds, c ∈ s.host.cmds := by
    intro l
    induction l with
    | nil => exact fun s c hc => hc
    | cons id l ih => exact fun s c hc => hnext s id c (ih _ c hc)
  exact hfold _ s

/-- A command that ends is gone or has started, and no other changes but by being posted. -/
theorem cmdsEnd_finishCmd (id : Nat) (st : Status) (dw0 : Nat) (s : State) : CmdsEnd s (finishCmd id st dw0 s) ∧
    ∀ c ∈ (finishCmd id st dw0 s).host.cmds, c.id = id → c.started = true := by
  unfold finishCmd
  split
  · next hnone =>
    exact ⟨.of_subset fun _ hc => hc, fun c hc hid => absurd (List.find?_eq_none.1 hnone c hc) (by simp [hid])⟩
  · next x _ =>
    refine iteInduction (motive := fun u : State => CmdsEnd s u ∧ ∀ c ∈ u.host.cmds, c.id = id → c.started = true) (fun _ => ?_) fun _ => ?_
    · have hsub : ∀ c ∈ (postEnded (shutdownDone x.cntlid (dropCmd id (freeBuffers x.tile x.bufs s)))).host.cmds, c ∈ s.host.cmds ∧ c.id ≠ id := by
        intro c hc
        have hmem := cmds_postEnded _ c hc
        rw [(shutdownDone_frame _ _).2.1] at hmem
        obtain ⟨hin, hne⟩ := List.mem_filter.1 hmem
        rw [(sameQueues_freeBuffers x.tile x.bufs s).2.2] at hin
        exact ⟨hin, by simpa using hne⟩
      exact ⟨.of_subset fun c hc => (hsub c hc).1, fun c hc hid => absurd hid (hsub c hc).2⟩
    · have hmap : ∀ c ∈ (postEnded (updCmd id (ended st dw0) s)).host.cmds, ∃ d ∈ s.host.cmds, c = if d.id == id then ended st dw0 d else d := by
        intro c hc
        obtain ⟨d, hd, rfl⟩ := List.mem_map.1 (cmds_postEnded _ c hc)
        exact ⟨d, hd, rfl⟩
      refine ⟨fun c hc => ?_, fun c hc hid => ?_⟩
      · obtain ⟨d, hd, rfl⟩ := hmap c hc
        refine ⟨d, hd, ?_⟩
        split
        · exact ⟨rfl, rfl, .inr rfl⟩
        · exact ⟨rfl, rfl, .inl rfl⟩
      · obtain ⟨d, -, rfl⟩ := hmap c hc
        by_cases hd : d.id = id
        · rw [if_pos (by simpa using hd)]
          rfl
        · rw [if_neg (by simpa using hd)] at hid
          exact absurd hid hd

/-- Every command of a list of numbers is gone, or has started, once each was ended. -/
theorem started_of_foldl_finishCmd (st : Status) : ∀ (l : List Nat) (s : State),
    ∀ c ∈ (l.foldl (fun s id => finishCmd id st 0 s) s).host.cmds, c.id ∈ l → c.started = true
  | [], _, _, _, hid => absurd hid List.not_mem_nil
  | id :: l, s, c, hc, hid => by
    rcases List.mem_cons.1 hid with heq | hmem
    · have hrest : CmdsEnd (finishCmd id st 0 s) (l.foldl (fun s id => finishCmd id st 0 s) (finishCmd id st 0 s)) :=
        cmdsEnd_foldl (fun s id => (cmdsEnd_finishCmd id st 0 s).1) l _
      obtain ⟨d, hd, hcd, -, hstate⟩ := hrest c hc
      obtain rfl | hstarted := hstate
      · exact (cmdsEnd_finishCmd id st 0 s).2 c hd heq
      · exact hstarted
    · exact started_of_foldl_finishCmd st l _ c hc hmem

/-- The held commands of a namespace that are chosen have ended. -/
theorem started_of_failHeld {n : Nat} {p : Cmd → Bool} {s : State} {c : Cmd} (hc : c ∈ (failHeld n p s).host.cmds) (hns : c.cap.nsid = n)
    (hio : isAdmin c.cap.op = false) (hp : p c = true) : c.started = true := by
  by_contra hno
  have hend : CmdsEnd s (failHeld n p s) := cmdsEnd_foldl (fun s id => (cmdsEnd_finishCmd id .invalidNamespaceOrFormat 0 s).1) _ s
  obtain ⟨d, hd, hid, hcap, hstate⟩ := hend c hc
  obtain rfl := hstate.resolve_right hno
  refine hno (started_of_foldl_finishCmd .invalidNamespaceOrFormat _ s c hc (List.mem_map.2 ⟨c, List.mem_filter.2 ⟨hd, ?_⟩, rfl⟩))
  rw [hns, hio, hp]
  simpa using hno

theorem cmdsEnd_admPark (a : Adm) (s : State) : CmdsEnd s (admPark a s) := by
  cases a with
  | host id =>
    intro c hc
    obtain ⟨d, hd, rfl⟩ := List.mem_map.1 hc
    refine ⟨d, hd, ?_⟩
    split
    · exact ⟨rfl, rfl, .inr rfl⟩
    · exact ⟨rfl, rfl, .inl rfl⟩
  | ring => exact .of_subset fun _ hc => hc
  | conn id => exact .of_subset fun _ hc => hc

end Sys2Proof.Machine
end

section
/-!
PROOFS. Format NVM and Sanitize, and the unmap that follows them (R114, R116): what the format of one namespace leaves, and the run over
several.
-/
namespace Sys2Proof.Machine
open Sys2Proof

/-! ### One namespace (R116) -/

/-- A namespace as its format leaves it. -/
def formatted (erase : Bool) (g : Nat) (x : Ns) : Ns :=
  if erase then { x with state := .keyPending, wrapped := none, keyGen := g, nuse := 0, unmapping := true }
  else { x with keyGen := g, nuse := 0, unmapping := true }

theorem slotGen_endCipherJobs (n : Nat) (s : State) : slotGen (endCipherJobs s) n = slotGen s n := by
  rw [onlyJobs_endCipherJobs s]
  rfl

theorem formatOne_true (n : Nat) (s : State) : formatOne true n s =
    updNs n (formatted true ((slotGen s n + 1) % 16)) (clearKey n (endCipherJobs s)) := by
  rw [← slotGen_endCipherJobs n s, ← slotGen_clearKey n (endCipherJobs s)]
  rfl

theorem formatOne_false (n : Nat) (s : State) : formatOne false n s =
    updNs n (formatted false ((slotGen s n + 1) % 16)) (advanceGen n (endCipherJobs s)) := by
  rw [← slotGen_endCipherJobs n s, ← slotGen_advanceGen n (endCipherJobs s)]
  rfl

theorem nsid_formatted (erase : Bool) (g : Nat) (x : Ns) : (formatted erase g x).nsid = x.nsid := by cases erase <;> rfl

theorem reg_clearKey_endCipherJobs (n : Nat) (s : State) : (clearKey n (endCipherJobs s)).reg = s.reg := by
  rw [onlyJobs_endCipherJobs s]
  rfl

theorem reg_advanceGen_endCipherJobs (n : Nat) (s : State) : (advanceGen n (endCipherJobs s)).reg = s.reg := by
  rw [onlyJobs_endCipherJobs s]
  rfl

theorem nsOf_formatOne (erase : Bool) (n m : Nat) (s : State) : nsOf (formatOne erase n s) m =
    if m = n then (nsOf s n).map (formatted erase ((slotGen s n + 1) % 16)) else nsOf s m := by
  cases erase
  · rw [formatOne_false, nsOf_updNs (nsid_formatted _ _), nsOf_of_reg (reg_advanceGen_endCipherJobs n s)]
    split
    · next h => rw [h]
    · rfl
  · rw [formatOne_true, nsOf_updNs (nsid_formatted _ _), nsOf_of_reg (reg_clearKey_endCipherJobs n s)]
    split
    · next h => rw [h]
    · rfl

theorem isSome_nsOf_formatOne (erase : Bool) (n m : Nat) (s : State) : (nsOf (formatOne erase n s) m).isSome = (nsOf s m).isSome := by
  rw [nsOf_formatOne]
  split
  · next h => rw [h, Option.isSome_map]
  · rfl

theorem slotLoaded_endCipherJobs (n : Nat) (s : State) : slotLoaded (endCipherJobs s) n = slotLoaded s n := by
  rw [onlyJobs_endCipherJobs s]
  rfl

theorem slotLoaded_formatOne_self (n : Nat) (s : State) : slotLoaded (formatOne true n s) n = false := by
  rw [formatOne_true]
  exact (slotLoaded_of_cry rfl rfl n).trans (slotLoaded_clearKey_self n (endCipherJobs s))

theorem slotLoaded_formatOne {m : Nat} {s : State} (h : slotLoaded s m = false) (n : Nat) : slotLoaded (formatOne true n s) m = false := by
  rw [formatOne_true]
  exact (slotLoaded_of_cry rfl rfl m).trans (slotLoaded_clearKey ((slotLoaded_endCipherJobs m s).trans h) n)

/-! ### Several namespaces (R116) -/

section list
variable {a : Adm} {n : Nat} {x : Ns} {s : State}

theorem formatList_nil (a : Adm) (erase : Bool) (s : State) : formatList a erase [] s = provEnd (admDone a .success 0 s) := by
  unfold formatList
  rfl

theorem formatList_of_none {rest : List Nat} {erase : Bool} (h : nsOf s n = none) :
    formatList a erase (n :: rest) s = formatList a erase rest s := by
  rw [formatList]
  rw [h]

theorem formatList_of_waiting {rest : List Nat} (h : nsOf s n = some x) (hx : x.unmapping = true) : formatList a true (n :: rest) s =
    admPark a { s with prov := some { adm := a, kind := .format true (n :: rest) } } := by
  rw [formatList]
  simp only [h, hx, Bool.and_self, if_true]

theorem formatList_of_ready {rest : List Nat} {erase : Bool} (h : nsOf s n = some x) (hgo : (erase && x.unmapping) = false) :
    formatList a erase (n :: rest) s = formatList a erase rest (formatOne erase n s) := by
  rw [formatList]
  simp only [h, hgo, Bool.false_eq_true, if_false]

/-- A format without erase runs over the namespaces that exist. -/
theorem formatList_without_erase (a : Adm) : ∀ (l : List Nat) (s : State), formatList a false l s =
    provEnd (admDone a .success 0 ((l.filter fun m => (nsOf s m).isSome).foldl (fun s m => formatOne false m s) s))
  | [], s => formatList_nil a false s
  | n :: l, s => by
    cases h : nsOf s n with
    | none =>
      rw [formatList_of_none h, formatList_without_erase a l s, List.filter_cons_of_neg (by simp [h])]
    | some x =>
      rw [formatList_of_ready h rfl, formatList_without_erase a l, List.filter_cons_of_pos (by simp [h]), List.foldl_cons]
      simp only [isSome_nsOf_formatOne]

/-- A crypto erase runs over namespaces that differ and of which none waits for an unmap. -/
theorem formatList_with_erase (a : Adm) : ∀ (l : List Nat) (s : State), l.Nodup →
    (∀ m ∈ l, ∃ x, nsOf s m = some x ∧ x.unmapping = false) →
    formatList a true l s = provEnd (admDone a .success 0 (l.foldl (fun s m => formatOne true m s) s))
  | [], s, _, _ => formatList_nil a true s
  | n :: l, s, hnodup, hready => by
    obtain ⟨x, hx, hno⟩ := hready n List.mem_cons_self
    obtain ⟨hnot, hrest⟩ := List.nodup_cons.1 hnodup
    rw [formatList_of_ready hx (by simp [hno]), formatList_with_erase a l _ hrest fun m hm => ?_, List.foldl_cons]
    have hmn : m ≠ n := by
      rintro rfl
      exact hnot hm
    rw [nsOf_formatOne, if_neg hmn]
    exact hready m (List.mem_cons_of_mem _ hm)

theorem slotLoaded_foldl_formatOne {m : Nat} : ∀ (l : List Nat) (s : State), slotLoaded s m = false ∨ m ∈ l →
    slotLoaded (l.foldl (fun s m => formatOne true m s) s) m = false
  | [], _, h => h.resolve_right List.not_mem_nil
  | n :: l, s, h => by
    refine slotLoaded_foldl_formatOne l _ ?_
    obtain h | h := h
    · exact .inl (slotLoaded_formatOne h n)
    · rcases List.mem_cons.1 h with rfl | h
      · exact .inl (slotLoaded_formatOne_self m s)
      · exact .inr h

theorem mem_managedIds {m : Nat} : m ∈ managedIds s ↔ ∃ x ∈ s.reg.nss, x.state ≠ .deleting ∧ x.nsid = m := by
  simp [managedIds, List.mem_mergeSort, and_assoc]

theorem nodup_managedIds (h : (s.reg.nss.map (·.nsid)).Nodup) : (managedIds s).Nodup := by
  refine (List.mergeSort_perm _ _).nodup_iff.2 (h.sublist ?_)
  exact List.Sublist.map _ List.filter_sublist

theorem nsOf_of_mem_managedIds {m : Nat} (hm : m ∈ managedIds s) (hno : ∀ x, x ∈ s.reg.nss → x.unmapping = false) :
    ∃ x, nsOf s m = some x ∧ x.unmapping = false := by
  obtain ⟨y, hy, -, hid⟩ := mem_managedIds.1 hm
  obtain ⟨x, hx⟩ := Option.isSome_iff_exists.1 (List.find?_isSome.2 ⟨y, hy, by simp [hid]⟩ : (nsOf s m).isSome = true)
  exact ⟨x, hx, hno x (List.mem_of_find?_eq_some hx)⟩

end list

/-! ### What the completion leaves -/

theorem kept_of_formatEnd (a : Adm) (s : State) : let u := passTurn a (syncStores (provEnd (admDone a .success 0 s)))
    u.reg = s.reg ∧ u.cry = s.cry ∧ u.mgmt = s.mgmt := by
  obtain ⟨hreg, -, hcry, -, -, hmgmt⟩ := kept_of_onlyHostSide (onlyHostSide_admDone a .success 0 s)
  obtain ⟨hreg', -, -, hcry', hmgmt', -⟩ := kept_of_provEnd (admDone a .success 0 s)
  dsimp only
  rw [onlyTurns_passTurn, onlyStores_syncStores]
  exact ⟨hreg'.trans hreg, hcry'.trans hcry, hmgmt'.trans hmgmt⟩

/-- Settles O41: a format without erase, a format with one, and a sanitize, leave each namespace as its case says, and the unmap ends. -/
theorem formatAndSanitize : Obligations.FormatAndSanitize := by
  unfold Obligations.FormatAndSanitize
  refine ⟨fun a n ses x s hruns hn hx => ⟨fun hses => ?_, fun hlow hhigh hno => ?_, fun hlow hhigh hwait => ?_⟩,
    fun a n ses lbaf s hruns => ⟨fun hbad => ?_, fun hses hlbaf hn hnone => ?_, fun hses hlbaf => ?_⟩,
    fun a action s hruns => ⟨fun hbad => ?_, fun hact hno hnodup => ?_⟩,
    fun n x s hx hunmap => ⟨fun hprov => ?_, fun a e rest hprov => ?_⟩, fun n s hno => ?_⟩
  case refine_1 =>
    have hgo : formatNvm a n ses 0 s = provEnd (admDone a .success 0 (formatOne false n s)) := by
      subst hses
      simp only [formatNvm, hx, beq_iff_eq, hn, if_false]
      exact (formatList_of_ready (nsOf_of_managed hx) rfl).trans (formatList_nil a false _)
    obtain ⟨u, hu, heq⟩ := next_registry (c := .formatNvm a n ses 0) rfl hruns hgo
    obtain ⟨hreg, -⟩ := kept_of_formatEnd a (formatOne false n s)
    refine ⟨u, hu, heq, ?_⟩
    rw [heq, nsOf_of_reg hreg, nsOf_formatOne, if_pos rfl, nsOf_of_managed hx]
    rfl
  case refine_2 =>
    have hgo : formatNvm a n ses 0 s = provEnd (admDone a .success 0 (formatOne true n s)) := by
      have hne : (ses != 0) = true := by simp; omega
      simp only [formatNvm, hx, beq_iff_eq, hn, if_false, hne]
      rw [if_neg (by simp [hhigh])]
      exact (formatList_of_ready (nsOf_of_managed hx) (by simp [hno])).trans (formatList_nil a true _)
    obtain ⟨u, hu, heq⟩ := next_registry (c := .formatNvm a n ses 0) rfl hruns hgo
    obtain ⟨hreg, hcry, hmgmt⟩ := kept_of_formatEnd a (formatOne true n s)
    refine ⟨u, hu, heq, ?_, ?_⟩
    · rw [heq, slotLoaded_of_cry hcry hmgmt]
      exact slotLoaded_formatOne_self n s
    · rw [heq, nsOf_of_reg hreg, nsOf_formatOne, if_pos rfl, nsOf_of_managed hx]
      rfl
  case refine_3 =>
    have hgo : formatNvm a n ses 0 s = admPark a { s with prov := some { adm := a, kind := .format true [n] } } := by
      have hne : (ses != 0) = true := by simp; omega
      simp only [formatNvm, hx, beq_iff_eq, hn, if_false, hne]
      rw [if_neg (by simp [hhigh])]
      exact formatList_of_waiting (nsOf_of_managed hx) hwait
    exact next_registry rfl hruns hgo
  case refine_4 =>
    exact next_registry rfl hruns (if_pos (by simpa using hbad) : formatNvm a n ses lbaf s = _)
  case refine_5 =>
    have hgo : formatNvm a n ses lbaf s = admDone a .invalidNamespaceOrFormat 0 s := by
      simp only [formatNvm, hnone, beq_iff_eq, hn, if_false]
      exact if_neg (by simp [hses, hlbaf])
    exact next_registry rfl hruns hgo
  case refine_6 =>
    subst hses hlbaf
    exact next_registry rfl hruns ((if_neg (by decide)).trans ((if_pos (by decide)).trans (formatList_without_erase a (managedIds s) s)) :
      formatNvm a 0xFFFFFFFF 0 0 s = _)
  case refine_7 => exact next_registry rfl hruns (if_pos (by simpa using hbad) : sanitizeAll a action s = _)
  case refine_8 =>
    subst hact
    have hgo : sanitizeAll a 4 s = provEnd (admDone a .success 0 ((managedIds s).foldl (fun s m => formatOne true m s) s)) :=
      formatList_with_erase a (managedIds s) s (nodup_managedIds hnodup) fun m hm => nsOf_of_mem_managedIds hm hno
    obtain ⟨u, hu, heq⟩ := next_registry (c := .sanitize a 4) rfl hruns hgo
    obtain ⟨-, hcry, hmgmt⟩ := kept_of_formatEnd a ((managedIds s).foldl (fun s m => formatOne true m s) s)
    refine ⟨u, hu, heq, fun m hm => ?_⟩
    rw [heq, slotLoaded_of_cry hcry hmgmt]
    exact slotLoaded_foldl_formatOne _ s (.inr hm)
  case refine_9 =>
    obtain ⟨hframe, hself, hother, hregions⟩ := spansGone_dropStale n s
    have hprov' : (dropStale n s).prov = none := by
      rw [hframe]
      exact hprov
    have hgo : formatUnmapEnd n s = syncStores (updNs n (fun x => { x with unmapping := false }) (dropStale n s)) := by
      simp only [formatUnmapEnd, hx, hunmap]
      rw [show (updNs n (fun x => { x with unmapping := false }) (dropStale n s)).prov = none from hprov']
      exact if_neg (by decide)
    have hstores := onlyStores_syncStores (updNs n (fun x => { x with unmapping := false }) (dropStale n s))
    have hns := nsOf_updNs (f := fun x => { x with unmapping := false }) (fun _ => rfl) n (dropStale n s)
    have hreg := reg_syncStores (updNs n (fun x => { x with unmapping := false }) (dropStale n s))
    generalize syncStores (updNs n (fun x => { x with unmapping := false }) (dropStale n s)) = u at hgo hstores hreg
    refine ⟨u, congrArg Host.Outcome.next hgo, ?_, ?_, fun m hm => ?_, fun m hm y hy => ?_⟩
    · rw [hstores, hframe]
      rfl
    · obtain ⟨k, hk⟩ := hself x hx
      refine ⟨k, ?_⟩
      rw [nsOf_of_reg hreg, hns, if_pos rfl, hk]
      rfl
    · rw [nsOf_of_reg hreg, hns, if_neg hm, hother m hm]
    · rw [hstores]
      exact hregions y (hy ▸ hm)
  case refine_10 =>
    obtain ⟨hframe, -⟩ := spansGone_dropStale n s
    have hprov' : (updNs n (fun x => { x with unmapping := false }) (dropStale n s)).prov = some { adm := a, kind := .format e (n :: rest) } := by
      rw [hframe]
      exact hprov
    refine ⟨_, congrArg Host.Outcome.next (?_ : formatUnmapEnd n s = _), rfl⟩
    simp only [formatUnmapEnd, hx, hunmap, hprov', Bool.not_true, Bool.false_eq_true, if_false, beq_self_eq_true, if_true]
  case refine_11 =>
    refine ⟨_, congrArg Host.Outcome.next (?_ : formatUnmapEnd n s = s), rfl⟩
    unfold formatUnmapEnd
    split
    · rfl
    · next x hx => exact if_pos (by simp [hno x hx])

end Sys2Proof.Machine
end

section
/-!
PROOFS. The life of a namespace and its attachments (R109, R111, R112, R115, R117): an equation for each case, and what each step leaves.
-/
namespace Sys2Proof.Machine
open Sys2Proof

/-! ### Creation (R109, R112) -/

section create
variable {a : Adm} {r : NsCreate} {id : Nat} {eg : Eg} {s : State}

theorem nsCreate_of_full (hok : createOk s r = true) (hfree : freeNsid s = none) :
    nsCreate a r s = admDone a .namespaceIdUnavailable 0 s := by
  simp [nsCreate, hok, hfree]

theorem nsCreate_of_free (hok : createOk s r = true) (hfree : freeNsid s = some id) (heg : findEg s r.endgid = some eg) : nsCreate a r s =
    if usable s eg * eg.ratioPct < (provisioned s r.endgid + r.ncap * 4096) * 100 || !chunksFit s r.nsze then
      admDone a .namespaceInsufficientCapacity 0 s
    else admDone a .success id (reserveChunks id r.nsze { s with reg := { s.reg with nss := s.reg.nss ++ [newNs s id r] } }) := by
  simp [nsCreate, hok, hfree, heg]

/-- The number that a new namespace takes is free and one of the part's. -/
theorem freeNsid_spec (hfree : freeNsid s = some id) : 1 ≤ id ∧ id ≤ s.ident.part.namespaces ∧ nsOf s id = none := by
  unfold freeNsid at hfree
  obtain ⟨i, hi, rfl⟩ := List.mem_map.1 (List.mem_of_find?_eq_some hfree)
  have hno := List.find?_some hfree
  rw [Bool.not_eq_true', List.any_eq_false] at hno
  exact ⟨by omega, by simpa using hi, List.find?_eq_none.2 hno⟩

theorem nsOf_append {n : Ns} (hnone : s.reg.nss.find? (fun x => x.nsid == n.nsid) = none) :
    (s.reg.nss ++ [n]).find? (fun x => x.nsid == n.nsid) = some n := by
  rw [List.find?_append, hnone]
  simp

end create

/-! ### Deletion (R111, R117) -/

section delete
variable {a : Adm} {n : Nat} {x : Ns} {s : State}

/-- A namespace whose deletion has begun. -/
def deletion (x : Ns) : Ns := { x with state := .deleting, step := 2 }

/-- The first step of a deletion, with those that saw the namespace told and its held commands failed. -/
def deleteBegun (a : Adm) (n : Nat) (x : Ns) (s : State) : State :=
  admPark a (failHeld n (fun _ => true) (nsChanged x.attached { updNs n deletion s with prov := some { adm := a, kind := .nsDelete n } }))

theorem nsDelete_of_managed (hx : managed s n = some x) : nsDelete a n s = deleteBegun a n x s := by
  simp only [nsDelete, hx]
  rfl

theorem onlyHostSide_failHeld (n : Nat) (p : Cmd → Bool) (s : State) : OnlyHostSide s (failHeld n p s) :=
  onlyHostSide_foldl _ (fun s id => onlyHostSide_finishCmd id .invalidNamespaceOrFormat 0 s) _ s

theorem onlyHostSide_deleteBegun (a : Adm) (n : Nat) (x : Ns) (s : State) :
    OnlyHostSide { s with reg := (updNs n deletion s).reg, prov := some { adm := a, kind := .nsDelete n } } (deleteBegun a n x s) :=
  ((onlyHostSide_nsChanged x.attached _).trans (onlyHostSide_failHeld n _ _)).trans (onlyHostSide_admPark a _)

theorem started_of_deleteBegun {c : Cmd} (hc : c ∈ (deleteBegun a n x s).host.cmds) (hns : c.cap.nsid = n) (hio : isAdmin c.cap.op = false) :
    c.started = true := by
  obtain ⟨d, hd, -, hcap, hstate⟩ := cmdsEnd_admPark a _ c hc
  obtain rfl | hstarted := hstate
  · exact started_of_failHeld hd hns hio rfl
  · exact hstarted

/-- The key of a deleted namespace gone, before its completion. -/
def keyGone (n : Nat) (s : State) : State :=
  updNs n (fun x => { x with wrapped := none, step := 5, keyGen := (slotGen s n + 1) % 16 }) (clearKey n (endCipherJobs s))

theorem keyGone_frame (n : Nat) (s : State) : (keyGone n s).prov = s.prov ∧ (keyGone n s).fw = s.fw := by
  unfold keyGone
  rw [onlyJobs_endCipherJobs s]
  exact ⟨rfl, rfl⟩

theorem nsDeleteDrain_of_drained {p : ProvOp} (hx : nsOf s n = some x) (hstate : x.state = .deleting) (hstep : x.step = 2)
    (hdrained : startedOn s n (fun _ => true) = false) (hp : s.prov = some p) (hkind : p.kind = .nsDelete n) :
    nsDeleteDrain n s = provEnd (admDone p.adm .success 0 (keyGone n s)) := by
  have hprov := (keyGone_frame n s).1.trans hp
  unfold keyGone at hprov ⊢
  rw [← slotGen_endCipherJobs n s, ← slotGen_clearKey n (endCipherJobs s)] at hprov ⊢
  simp only [nsDeleteDrain, hx, hstate, hstep, hdrained, hprov, hkind, bne_self_eq_false, Bool.or_self, Bool.false_eq_true, if_false,
    beq_self_eq_true, if_true]

theorem nsDeleteDrain_of_not (hx : nsOf s n = some x) (hno : x.state ≠ .deleting ∨ x.step ≠ 2 ∨ startedOn s n (fun _ => true) = true) :
    nsDeleteDrain n s = s := by
  simp only [nsDeleteDrain, hx]
  refine if_pos ?_
  obtain h | h | h := hno <;> simp [h]

/-- The registry without a namespace. -/
def regWithout (n : Nat) (s : State) : Registry :=
  { s.reg with nss := s.reg.nss.filter (fun y => !(y.nsid == n)), leases := s.reg.leases.filter fun l => !(l.nsid == n) }

theorem nsUnmapEnd_of_unmapped (hx : nsOf s n = some x) (hstate : x.state = .deleting) (hstep : x.step = 5) :
    nsUnmapEnd n s = syncStores { dropRegions n s with reg := regWithout n (dropRegions n s) } := by
  simp only [nsUnmapEnd, hx, hstate, hstep]
  rfl

theorem nsUnmapEnd_of_not (hx : nsOf s n = some x) (hno : x.state ≠ .deleting ∨ x.step ≠ 5) : nsUnmapEnd n s = s := by
  simp only [nsUnmapEnd, hx]
  exact if_pos (by obtain h | h := hno <;> simp [h])

end delete

/-! ### Attachments (R115) -/

section attach
variable {a : Adm} {n : Nat} {byTenant : Bool} {l ts : List Nat} {x : Ns} {s : State}

theorem nsAttach_of_listed (hx : managed s n = some x) (hl : listedTenants s byTenant l = some ts) : nsAttach a n byTenant l s =
    admDone a .success 0 (nsChanged ts.eraseDups (updNs n (fun x => { x with attached := (x.attached ++ ts).eraseDups }) s)) := by
  simp [nsAttach, hx, hl]

/-- A namespace without the tenants of a list. -/
def detachedFrom (ts : List Nat) (x : Ns) : Ns := { x with attached := x.attached.filter fun t => !ts.contains t }

/-- The first step of a detachment, with those of the list told and their held commands failed. -/
def detachBegun (a : Adm) (n : Nat) (ts : List Nat) (s : State) : State :=
  admPark a { nsChanged ts.eraseDups (failHeld n (fun c => ts.contains c.payer.tenant) (updNs n (detachedFrom ts) s)) with
    prov := some { adm := a, kind := .detach n ts } }

theorem nsDetach_of_listed (hx : managed s n = some x) (hl : listedTenants s byTenant l = some ts) :
    nsDetach a n byTenant l s = detachBegun a n ts s := by
  simp only [nsDetach, hx, hl]
  rfl

theorem onlyHostSide_detachBegun (a : Adm) (n : Nat) (ts : List Nat) (s : State) :
    OnlyHostSide { s with reg := (updNs n (detachedFrom ts) s).reg, prov := some { adm := a, kind := .detach n ts } } (detachBegun a n ts s) :=
  (((onlyHostSide_failHeld n _ (updNs n (detachedFrom ts) s)).trans (onlyHostSide_nsChanged ts.eraseDups _)).withProv
    (some { adm := a, kind := .detach n ts })).trans (onlyHostSide_admPark a _)

theorem attachments_of_unmanaged (h : managed s n = none) : nsDelete a n s = admDone a .invalidNamespaceOrFormat 0 s ∧
    nsAttach a n byTenant l s = admDone a .invalidNamespaceOrFormat 0 s ∧
    nsDetach a n byTenant l s = admDone a .invalidNamespaceOrFormat 0 s := by
  simp [nsDelete, nsAttach, nsDetach, h]

theorem attachments_of_unlisted (hx : managed s n = some x) (hl : listedTenants s byTenant l = none) :
    nsAttach a n byTenant l s = admDone a .controllerListInvalid 0 s ∧ nsDetach a n byTenant l s = admDone a .controllerListInvalid 0 s := by
  simp [nsAttach, nsDetach, hx, hl]

end attach

/-- Settles O40: each step of a namespace's life changes that namespace alone, or fails with its status. -/
theorem namespaceLife : Obligations.NamespaceLife := by
  unfold Obligations.NamespaceLife
  refine ⟨fun a r s hruns => ⟨fun hbad => ?_, fun hok hfull => ?_, fun id eg hok hfree heg => ⟨fun hcap hchunks => ?_, fun hno => ?_⟩⟩,
    fun a n x s hruns hx => ?_, fun n x p s hx hstate hstep hdrained hp hkind => ?_,
    fun n x s hx hno => ⟨_, congrArg Host.Outcome.next (nsDeleteDrain_of_not hx hno), rfl⟩,
    fun n x s hx hstate hstep => ?_, fun n x s hx hno => ⟨_, congrArg Host.Outcome.next (nsUnmapEnd_of_not hx hno), rfl⟩,
    fun a n byTenant l ts x s hruns hx hl => ⟨next_registry rfl hruns (nsAttach_of_listed hx hl), ?_⟩,
    fun a n byTenant l s hruns => ⟨fun hnone => ⟨?_, ?_, ?_⟩, fun hsome hl => ⟨?_, ?_⟩⟩,
    fun n a ts s hprov => ⟨fun hdrained => ?_, fun hbusy => ?_⟩⟩
  case refine_1 => exact next_registry rfl hruns (if_pos (by simp [hbad]) : nsCreate a r s = _)
  case refine_2 => exact next_registry rfl hruns (nsCreate_of_full hok hfull)
  case refine_3 =>
    obtain ⟨hlow, hhigh, hnone⟩ := freeNsid_spec hfree
    obtain ⟨u, hu, heq⟩ := next_registry (c := .namespaceCreate a r) rfl hruns ((nsCreate_of_free hok hfree heg).trans
      (if_neg (by simp [hchunks, hcap])))
    refine ⟨u, hu, heq, hlow, hhigh, hnone, ?_⟩
    have hreg : u.reg = { s.reg with nss := s.reg.nss ++ [newNs s id r] } := by
      rw [heq, reg_passTurn, reg_syncStores, reg_of_onlyHostSide (onlyHostSide_admDone a .success id _)]
      rfl
    unfold nsOf
    rw [hreg]
    exact nsOf_append (n := newNs s id r) hnone
  case refine_4 =>
    refine next_registry rfl hruns ((nsCreate_of_free hok hfree heg).trans (if_pos ?_))
    obtain h | h := hno <;> simp [h]
  case refine_5 =>
    obtain ⟨u, hu, heq⟩ := next_registry (c := .namespaceDelete a n) rfl hruns (nsDelete_of_managed hx)
    obtain ⟨hside, hreg, hprov, hhost⟩ := onlyHostSide_registry (onlyHostSide_deleteBegun a n x s) u heq
    have hns := nsOf_updNs (f := deletion) (fun _ => rfl) n s
    refine ⟨u, hu, hside, ?_, ?_, fun m hm => ?_, hprov, fun c hc hcap hio => ?_⟩
    · rw [hreg]
      rfl
    · rw [show nsOf u n = nsOf (updNs n deletion s) n from nsOf_of_reg hreg n, hns, if_pos rfl, nsOf_of_managed hx]
      rfl
    · rw [show nsOf u m = nsOf (updNs n deletion s) m from nsOf_of_reg hreg m, hns, if_neg hm]
    · rw [hhost] at hc
      exact started_of_deleteBegun hc hcap hio
  case refine_6 =>
    obtain ⟨-, hprov, hheld, hcry, hmgmt, hfw⟩ := kept_of_provEnd (admDone p.adm .success 0 (keyGone n s))
    obtain ⟨-, -, hcry', hfw', -, hmgmt'⟩ := kept_of_onlyHostSide (onlyHostSide_admDone p.adm .success 0 (keyGone n s))
    refine ⟨_, congrArg Host.Outcome.next (nsDeleteDrain_of_drained hx hstate hstep hdrained hp hkind), rfl, ?_, hprov, hheld, ?_⟩
    · rw [slotLoaded_of_cry (hcry.trans hcry') (hmgmt.trans hmgmt')]
      exact (slotLoaded_of_cry rfl rfl n).trans (slotLoaded_clearKey_self n (endCipherJobs s))
    · refine hfw.trans ?_
      rw [storesOf, hfw', (keyGone_frame n s).2]
      rfl
  case refine_7 =>
    obtain ⟨hframe, hregions, hchunks⟩ := dropRegions_spec n s
    have hgo := nsUnmapEnd_of_unmapped hx hstate hstep
    have hstores := onlyStores_syncStores { dropRegions n s with reg := regWithout n (dropRegions n s) }
    generalize syncStores { dropRegions n s with reg := regWithout n (dropRegions n s) } = u at hgo hstores
    have hreg : u.reg = regWithout n s := by
      rw [hstores, hframe]
      rfl
    have hmap : u.map = (dropRegions n s).map := by rw [hstores]
    refine ⟨u, congrArg Host.Outcome.next hgo, ?_, ?_, ?_, fun m hm => ?_, fun l => ?_, fun y => ?_, fun c => ?_⟩
    · rw [hstores, hframe]
      rfl
    · rw [hreg]
      rfl
    · unfold nsOf
      rw [hreg]
      exact (find?_dropKey Ns.nsid n n _).trans (if_pos rfl)
    · unfold nsOf
      rw [hreg]
      exact (find?_dropKey Ns.nsid n m _).trans (if_neg hm)
    · rw [hreg]
      simp [regWithout]
    · rw [hmap, hregions]
      simp
    · rw [hmap, hchunks]
      simp
  case refine_8 =>
    obtain ⟨u, hu, heq⟩ := next_registry (c := .namespaceDetach a n byTenant l) rfl hruns (nsDetach_of_listed hx hl)
    obtain ⟨hside, hreg, hprov, -⟩ := onlyHostSide_registry (onlyHostSide_detachBegun a n ts s) u heq
    have hns := nsOf_updNs (f := detachedFrom ts) (fun _ => rfl) n s
    refine ⟨u, hu, hside, ?_, fun m hm => ?_, hprov, x.attached.filter (fun t => !ts.contains t), ?_, fun t => ?_⟩
    · rw [hreg]
      rfl
    · rw [show nsOf u m = nsOf (updNs n (detachedFrom ts) s) m from nsOf_of_reg hreg m, hns, if_neg hm]
    · rw [show nsOf u n = nsOf (updNs n (detachedFrom ts) s) n from nsOf_of_reg hreg n, hns, if_pos rfl, nsOf_of_managed hx]
      rfl
    · simp
  case refine_9 => exact next_registry rfl hruns (attachments_of_unmanaged (byTenant := byTenant) (l := l) hnone).1
  case refine_10 => exact next_registry rfl hruns (attachments_of_unmanaged hnone).2.1
  case refine_11 => exact next_registry rfl hruns (attachments_of_unmanaged hnone).2.2
  case refine_12 =>
    obtain ⟨x, hx⟩ := Option.ne_none_iff_exists'.1 hsome
    exact next_registry rfl hruns (attachments_of_unlisted hx hl).1
  case refine_13 =>
    obtain ⟨x, hx⟩ := Option.ne_none_iff_exists'.1 hsome
    exact next_registry rfl hruns (attachments_of_unlisted hx hl).2
  case refine_14 =>
    refine ⟨_, congrArg Host.Outcome.next (?_ : detachDrain n s = provEnd (admDone a .success 0 s)), rfl⟩
    simp only [detachDrain, hprov, hdrained, beq_self_eq_true, Bool.not_false, Bool.and_self, if_true]
  case refine_15 =>
    refine ⟨_, congrArg Host.Outcome.next (?_ : detachDrain n s = s), rfl⟩
    simp only [detachDrain, hprov, hbusy, Bool.not_true, Bool.and_false, Bool.false_eq_true, if_false]

end Sys2Proof.Machine
end

section
/-!
PROOFS. O58: where a register stands in BAR0, what a read of it returns and what it sets off (R12 to R14, R467).
-/
namespace Sys2Proof.Machine
open Sys2Proof

/-! ### Where a register stands -/

/-- The register, copy and half at an offset within a tile's window or the package's. -/
def regHere (tile : Bool) (o : Nat) : Option (Reg × Nat × Bool) :=
  allRegs.findSome? fun r => if r.info.perTile != tile then none else (r.copyAt o).map fun x => (r, x.1, x.2)

/-- What `regAt` makes of the register, copy and half found in window `w`. -/
def inWindow (s : State) (w : Nat) (x : Reg × Nat × Bool) : Nat × Reg × Nat × Bool :=
  (w, x.1, ((x.1.info.sel.map (s.fld w 0)).getD x.2.1), x.2.2)

theorem regAt_eq (s : State) (off : Nat) : regAt s off =
    if 0x100000 * 9 ≤ off || off % 4 != 0 then none
    else (regHere (decide (0x100000 ≤ off)) (if 0x100000 ≤ off then off % 0x100000 else off)).map
      (inWindow s (if 0x100000 ≤ off then off / 0x100000 - 1 else pkgWin)) := by
  simp only [regAt, regHere, List.map_findSome?]
  congr 2
  funext r
  by_cases h : (r.info.perTile != decide (0x100000 ≤ off)) = true
  · simp only [Function.comp_apply, h, if_true, Option.map_none]
  · cases hsel : r.info.sel <;>
      simp only [Function.comp_def, h, if_false, Bool.false_eq_true, Option.map_map, inWindow, hsel, Option.map_none, Option.map_some, Option.getD]

/-- An indexed register of a tile stands at its offset in the tile's window, with the copy that its index register names. -/
theorem regAt_bar0_of_tile {s : State} {t : Nat} {r : Reg} {f : Fld} (ht : t < pkgWin) (hoff : r.info.off < 0x100000)
    (halign : r.info.off % 4 = 0) (hhere : regHere true r.info.off = some (r, 0, false)) (hsel : r.info.sel = some f) :
    regAt s (bar0 t 0 r) = some (t, r, s.tfld t f, false) := by
  have hw : t < 8 := ht
  have hbar : bar0 t 0 r = 0x100000 * (t + 1) + r.info.off := by simp [bar0, ht]
  have hin : ¬(0x100000 * 9 ≤ bar0 t 0 r ∨ bar0 t 0 r % 4 ≠ 0) := by omega
  have htile : 0x100000 ≤ bar0 t 0 r := by omega
  have hmod : bar0 t 0 r % 0x100000 = r.info.off := by omega
  have hdiv : bar0 t 0 r / 0x100000 - 1 = t := by omega
  simp only [not_or, not_le, not_not] at hin
  simp [regAt_eq, Nat.not_le.2 hin.1, hin.2, htile, hmod, hdiv, hhere, inWindow, hsel, State.tfld]

theorem bar0_aligned {t : Nat} {r : Reg} (ht : t < pkgWin) (halign : r.info.off % 4 = 0) : bar0 t 0 r % 4 = 0 := by
  have hbar : bar0 t 0 r = 0x100000 * (t + 1) + r.info.off := by simp [bar0, ht]
  omega

theorem regAt_congr {s t : State} (h : ∀ w f, t.fld w 0 f = s.fld w 0 f) (off : Nat) : regAt t off = regAt s off := by
  have hin : ∀ w, inWindow t w = inWindow s w := fun w => funext fun x => by simp [inWindow, show t.fld w 0 = s.fld w 0 from funext (h w)]
  simp only [regAt_eq, hin]

/-! ### Reads -/

theorem readReg_of_found {s : State} {off w i : Nat} {r : Reg} (halign : off % 4 = 0) (hat : regAt s off = some (w, r, i, false))
    (hans : regAnswers s w r = true) (hlatch : r.latched = false) :
    readReg off s = readEffect w i r (emit (.regRead off (readValue s off)) s) := by
  simp [readReg, halign, hat, hans, hlatch]

theorem regAnswers_of_open {s : State} {w : Nat} {r : Reg} (h : regOpen s w = true) : regAnswers s w r = true := by
  simp [regAnswers, h]

theorem regAnswers_of_closed {s : State} {t : Nat} {r : Reg} (ht : t < pkgWin) (h : regOpen s t = false) (hr : r ≠ .thmStatus) :
    regAnswers s t r = false := by
  simp [regAnswers, h, hr, Nat.ne_of_lt ht]

/-- A read in a window that does not answer returns 0 and sets nothing off. -/
theorem readReg_of_closed {s : State} {off w i : Nat} {r : Reg} {high : Bool} (halign : off % 4 = 0)
    (hat : regAt s off = some (w, r, i, high)) (hans : regAnswers s w r = false) : readReg off s = emit (.regRead off 0) s := by
  simp [readReg, readValue, halign, hat, hans]

/-- What an indexed register of a tile needs for its reads to be told by its own row. -/
structure Indexed (r : Reg) (f : Fld) : Prop where
  off : r.info.off < 0x100000
  aligned : r.info.off % 4 = 0
  here : regHere true r.info.off = some (r, 0, false)
  sel : r.info.sel = some f
  counted : r.latched = false

theorem readTile_of_open {s : State} {t : Nat} {r : Reg} {f : Fld} (hr : Indexed r f) (ht : t < pkgWin) (hopen : regOpen s t = true) :
    readTile t r s = readEffect t (s.tfld t f) r (emit (.regRead (bar0 t 0 r) (readValue s (bar0 t 0 r))) s) := by
  rw [readTile, if_pos ht, readReg_of_found (bar0_aligned ht hr.aligned) (regAt_bar0_of_tile ht hr.off hr.aligned hr.here hr.sel)
    (regAnswers_of_open hopen) hr.counted]

theorem readTile_of_closed {s : State} {t : Nat} {r : Reg} {f : Fld} (hr : Indexed r f) (hne : r ≠ .thmStatus) (ht : t < pkgWin)
    (hopen : regOpen s t = false) : readTile t r s = emit (.regRead (bar0 t 0 r) 0) s := by
  rw [readTile, if_pos ht, readReg_of_closed (bar0_aligned ht hr.aligned) (regAt_bar0_of_tile ht hr.off hr.aligned hr.here hr.sel)
    (regAnswers_of_closed ht hopen hne)]

theorem indexed_medDescData : Indexed .medDescData .med_desc_idx_word := by constructor <;> decide +kernel
theorem indexed_ldpcBaseData : Indexed .ldpcBaseData .ldpc_base_idx_entry := by constructor <;> decide +kernel
theorem indexed_digFuseData : Indexed .digFuseData .dig_fuse_idx_word := by constructor <;> decide +kernel
theorem indexed_thmHistData : Indexed .thmHistData .thm_hist_idx_bin := by constructor <;> decide +kernel
theorem indexed_thmSensor : Indexed .thmSensor .thm_sel_sensor := by constructor <;> decide +kernel

theorem regAt_fwuMapData (s : State) :
    regAt s (bar0 pkgWin 0 .fwuMapData) = some (pkgWin, .fwuMapData, s.gfld .fwu_map_idx_word, false) := by
  have hbar : bar0 pkgWin 0 .fwuMapData = 0x601C := by decide
  have hhere : regHere false 0x601C = some (.fwuMapData, 0, false) := by decide +kernel
  rw [hbar, regAt_eq]
  simp [hhere, inWindow, show Reg.fwuMapData.info.sel = some .fwu_map_idx_word from rfl, State.gfld]

/-! ### The latch of a pair -/

theorem held_of_latched {r : Reg} (h : r.latched = true) : r.held = false := by
  simp only [Reg.latched, Bool.and_eq_true, Bool.not_eq_true'] at h
  exact h.1.2

/-- After a latch the high half reads what was latched. -/
theorem readValue_latchHigh {s : State} {off w i v : Nat} {r : Reg} (hat : regAt s (off + 4) = some (w, r, i, true))
    (hans : regAnswers s w r = true) : readValue (latchHigh off v s) (off + 4) = v := by
  have hat' : regAt (latchHigh off v s) (off + 4) = some (w, r, i, true) := (regAt_congr (fun _ _ => rfl) _).trans hat
  have hans' : regAnswers (latchHigh off v s) w r = true := hans
  simp only [readValue, hat', hans', Bool.not_true, Bool.false_eq_true, if_false, if_true]
  simp [latchHigh]

/-! ### The description word -/

theorem writeReg_medDescData (t i v : Nat) (s : State) : writeReg t i .medDescData v s =
    writeField (s.tfld t .med_cfg_med_enable == 1) t i .medDescData v .med_desc_data_data s := rfl

theorem fld_advance_of_ne {w i k : Nat} {f g : Fld} {n : Nat} {s : State} (h : g ≠ f) : (advance w f n s).fld k i g = s.fld k i g := by
  rw [advance, fld_setFld, if_neg fun hx => h hx.2.2]

theorem descWrite_of_disabled {t v : Nat} {s : State} (h : s.tfld t .med_cfg_med_enable = 0) : descWrite t v s =
    advance t .med_desc_idx_word 128 (setFld t (s.tfld t .med_desc_idx_word) .med_desc_data_data (bitsOf v 31 0) s) := by
  rw [descWrite, writeReg_medDescData, h]
  rfl

theorem descWrite_of_enabled {t v : Nat} {s : State} (h : s.tfld t .med_cfg_med_enable = 1)
    (hv : s.fld t (s.tfld t .med_desc_idx_word) .med_desc_data_data ≠ bitsOf v 31 0) : descWrite t v s =
    advance t .med_desc_idx_word 128 (reject (winTile t) (bar0 t (s.tfld t .med_desc_idx_word) .medDescData) 1
      (setCfgErr t .medDescData s)) := by
  have hne : (bitsOf v 31 0 != s.fld t (s.tfld t .med_desc_idx_word) .med_desc_data_data) = true := bne_iff_ne.2 hv.symm
  rw [descWrite, writeReg_medDescData, h]
  simp only [writeField, show fldAbsent s .med_desc_data_data = false from rfl, Bool.false_eq_true, if_false,
    show Fld.med_desc_data_data.info = ⟨.medDescData, 31, 0, .rw, 0, 0, 4294967295, true⟩ from rfl, hne, BEq.rfl, Bool.and_self, if_true]

theorem bitsOf_word (v : Nat) : bitsOf (v % 2 ^ 32) 31 0 = v % 2 ^ 32 := by simp [bitsOf]

/-- Settles O58. -/
theorem registerReads : Obligations.RegisterReads := by
  unfold Obligations.RegisterReads
  refine ⟨fun t s ht hopen => ?_, fun s hopen => ?_, fun t s ht hclosed => ?_, fun off s => ⟨fun hodd => ?_, fun halign hnone => ?_⟩,
    fun off w i r s halign hat hans => ⟨fun hheld => ?_, fun hlatched => ?_⟩⟩
  case refine_1 =>
    refine ⟨⟨_, rfl, readTile_of_open indexed_medDescData ht hopen⟩, ⟨_, rfl, readTile_of_open indexed_ldpcBaseData ht hopen⟩,
      ⟨_, rfl, readTile_of_open indexed_digFuseData ht hopen⟩, ⟨_, rfl, readTile_of_open indexed_thmHistData ht hopen⟩,
      ⟨_, congrArg Host.Outcome.next (readTile_of_open indexed_thmSensor ht hopen), rfl, rfl, fun k i x hx => ?_⟩, fun v => ?_⟩
    · refine (find?_mapKeyed Sensor.tile Sensor.idx (h := fun x : Sensor => { x with peak := x.reading.getD x.peak }) (fun _ => ⟨rfl, rfl⟩)
        t (s.tfld t .thm_sel_sensor) k i s.therm.sensors).trans ?_
      rw [show s.therm.sensors.find? (fun x => x.tile == k && x.idx == i) = some x from hx]
      split <;> rfl
    · have htw : tileWrite t (descWrite t (v % 2 ^ 32)) s = descWrite t (v % 2 ^ 32) s := tileWrite_of_open (Nat.ne_of_lt ht) hopen
      refine ⟨_, congrArg Host.Outcome.next htw, fun hoff => ?_, fun hon hv => ?_⟩
      · rw [descWrite_of_disabled hoff, bitsOf_word]
        refine ⟨?_, ?_, ⟨rfl, fun w i f hf => ?_⟩, rfl⟩
        · rw [fld_advance_of_ne (by decide), fld_setFld, if_pos ⟨rfl, rfl, rfl⟩]
        · simp [State.tfld, advance, fld_setFld]
        · simp only [List.mem_cons, Prod.mk.injEq, List.not_mem_nil, or_false, not_or] at hf
          rw [advance, fld_setFld, if_neg hf.2, fld_setFld, if_neg hf.1]
      · rw [descWrite_of_enabled hon (by rwa [bitsOf_word])]
        refine ⟨?_, by rw [winTile, if_pos ht]; rfl⟩
        rw [fld_advance_of_ne (by decide), fld_of_regs (reject_regs _ _ _ _), setCfgErr,
          show Reg.medDescData.cfgErr = some .med_status_cfg_err from rfl]
        exact (fld_setFld ..).trans (if_neg fun hx => absurd hx.2.2 (by decide))
  case refine_2 =>
    exact ⟨_, rfl, readReg_of_found (by decide) (regAt_fwuMapData s) (regAnswers_of_open hopen) rfl⟩
  case refine_3 =>
    exact ⟨⟨_, rfl, readTile_of_closed indexed_ldpcBaseData (by decide) ht hclosed⟩,
      ⟨_, rfl, readTile_of_closed indexed_thmHistData (by decide) ht hclosed⟩,
      ⟨_, rfl, readTile_of_closed indexed_thmSensor (by decide) ht hclosed⟩,
      fun v => ⟨_, rfl, by simp [tileWrite, hclosed]⟩⟩
  case refine_4 => exact ⟨_, rfl, by simp [readReg, hodd]⟩
  case refine_5 => exact ⟨_, rfl, by simp [readReg, readValue, halign, hnone]⟩
  case refine_6 =>
    refine ⟨_, rfl, ?_⟩
    rw [readReg_of_found halign hat hans (latched_of_held hheld), readEffect_of_held hheld]
    simp [readValue, hat, hans, hheld]
  case refine_7 =>
    have hval : readValue s off = regValue s w i r % 2 ^ 32 := by simp [readValue, hat, hans, held_of_latched hlatched]
    have hgo : readReg off s = latchHigh off (regValue s w i r / 2 ^ 32) (emit (.regRead off (regValue s w i r % 2 ^ 32)) s) := by
      simp only [readReg, halign, hat, hans, hlatched, ← hval, bne_self_eq_false, Bool.not_true, Bool.not_false, Bool.false_eq_true,
        if_false, Bool.and_self, if_true]
    exact ⟨_, congrArg Host.Outcome.next hgo, rfl, rfl, fun hhigh => readValue_latchHigh hhigh hans⟩

end Sys2Proof.Machine
end

section
/-!
PROOFS. O59: what a write of BAR0 does, register by register and field by field (R12, R13, R467).
-/
namespace Sys2Proof.Machine
open Sys2Proof

section
variable {off v w i : Nat} {r : Reg} {high : Bool} {s : State}

theorem registerWrite_unaligned (h : off % 4 ≠ 0) : registerWrite off v s = emit (.completerAbort off) s := by
  simp [registerWrite, h]

theorem registerWrite_doorbell (halign : off % 4 = 0) (h : 0x1000000 ≤ off) :
    registerWrite off v s = doorbell ((off - 0x1000000) / 4) v s := by
  simp [registerWrite, halign, h]

theorem registerWrite_nothing (halign : off % 4 = 0) (h : off < 0x1000000) (hat : regAt s off = none) : registerWrite off v s = s := by
  simp [registerWrite, halign, Nat.not_le.2 h, hat]

theorem registerWrite_ignored (halign : off % 4 = 0) (h : off < 0x1000000) (hat : regAt s off = some (w, r, i, high))
    (hno : regAnswers s w r = false ∨ ∀ f, f ∈ r.flds → f.info.acc = .ro) : registerWrite off v s = s := by
  obtain hans | hro := hno
  · simp [registerWrite, halign, Nat.not_le.2 h, hat, hans]
  · have hall : (r.flds.all fun f => f.info.acc == .ro) = true := List.all_eq_true.2 fun f hf => beq_iff_eq.2 (hro f hf)
    simp [registerWrite, halign, Nat.not_le.2 h, hat, hall]

/-- A write in an open window of a register that has a field to write. -/
theorem registerWrite_taken (halign : off % 4 = 0) (h : off < 0x1000000) (hat : regAt s off = some (w, r, i, high))
    (hopen : regOpen s w = true) (hsome : ∃ f, f ∈ r.flds ∧ f.info.acc ≠ .ro) :
    registerWrite off v s = if !r.info.wide then writeOne w i r v s else if high then writeTop w i r v s else writeLow w i r v s := by
  obtain ⟨f, hf, hacc⟩ := hsome
  have hall : (r.flds.all fun f => f.info.acc == .ro) = false := List.all_eq_false.2 ⟨f, hf, by simpa using hacc⟩
  simp [registerWrite, halign, Nat.not_le.2 h, hat, regAnswers_of_open hopen, hopen, hall]

theorem lowHalf_writeLow : lowHalf (writeLow w i r v s) w i r = v := by simp [lowHalf, writeLow]

theorem writeTop_of_ne (h : r ≠ .glbBoardTime) : writeTop w i r v s = writeReg w i r (v * 2 ^ 32 + lowHalf s w i r) s := by
  simp [writeTop, writeHigh, h]

end

section
variable {en : Bool} {w i v : Nat} {r : Reg} {f : Fld} {s : State} (hthere : fldAbsent s f = false)
include hthere

theorem writeField_ro (h : f.info.acc = .ro ∨ f.info.acc = .wo) : writeField en w i r v f s = s := by
  obtain h | h := h <;> simp [writeField, hthere, h]

theorem writeField_rl (h : f.info.acc = .rl) : writeField en w i r v f s = setFld w i f (bitsOf v f.info.hi f.info.lo) s := by
  simp [writeField, hthere, h]

theorem writeField_rs (h : f.info.acc = .rs) : writeField en w i r v f s =
    { s with regs := { s.regs with shadow := putVal w i f (bitsOf v f.info.hi f.info.lo) s.regs.shadow } } := by
  simp [writeField, hthere, h]

theorem writeField_rw_taken (h : f.info.acc = .rw)
    (hfree : f.info.static = false ∨ en = false ∨ bitsOf v f.info.hi f.info.lo = s.fld w i f) :
    writeField en w i r v f s = setFld w i f (bitsOf v f.info.hi f.info.lo) s := by
  obtain hfree | hfree | hfree := hfree <;> simp [writeField, hthere, h, hfree]

theorem writeField_rw_refused (h : f.info.acc = .rw) (hstatic : f.info.static = true) (hen : en = true)
    (hne : bitsOf v f.info.hi f.info.lo ≠ s.fld w i f) :
    writeField en w i r v f s = reject (winTile w) (bar0 w i r) 1 (setCfgErr w r s) := by
  simp [writeField, hthere, h, hstatic, hen, hne]

theorem writeField_w1c (h : f.info.acc = .w1c) : writeField en w i r v f s =
    setFld w i f (Nat.bitwise (fun a b => a && !b) (s.fld w i f) (bitsOf v f.info.hi f.info.lo)) s := by
  simp [writeField, hthere, h]

end

theorem onlyFields_setFld (w i : Nat) (f : Fld) (v : Nat) (s : State) : OnlyFields [(w, i, f)] s (setFld w i f v s) := by
  refine ⟨rfl, fun k j g hg => ?_⟩
  simp only [List.mem_singleton, Prod.mk.injEq] at hg
  rw [fld_setFld, if_neg hg]

/-- Settles O59. -/
theorem registerWrites : Obligations.RegisterWrites := by
  unfold Obligations.RegisterWrites
  refine ⟨fun off v s => ⟨fun h => ⟨_, rfl, registerWrite_unaligned h⟩, fun ha h => ⟨_, rfl, registerWrite_doorbell ha h⟩,
      fun ha h hat => ⟨_, rfl, registerWrite_nothing ha h hat⟩⟩,
    fun off v w i r high s ha h hat => ⟨fun hno => ⟨_, rfl, registerWrite_ignored ha h hat hno⟩, fun hopen hsome => ?_⟩,
    fun en w i v r f s hthere => ⟨writeField_ro hthere, writeField_rl hthere, fun hacc k j g => ?_,
      writeField_rw_taken hthere, writeField_rw_refused hthere, fun hacc => ?_⟩⟩
  case refine_1 =>
    have hgo : registerWrite off (v % 2 ^ 32) s = _ := registerWrite_taken ha h hat hopen hsome
    refine ⟨fun hwide => ⟨_, congrArg Host.Outcome.next hgo, by simp [hwide]⟩, fun hwide hlow => ?_, fun hwide hhigh hne => ?_⟩
    · have hlow' : registerWrite off (v % 2 ^ 32) s = writeLow w i r (v % 2 ^ 32) s := by rw [hgo]; simp [hwide, hlow]
      exact ⟨_, congrArg Host.Outcome.next hlow', rfl, lowHalf_writeLow⟩
    · exact ⟨_, congrArg Host.Outcome.next hgo, by simp [hwide, hhigh, writeTop_of_ne hne]⟩
  case refine_2 => rw [writeField_rs hthere hacc]; rfl
  case refine_3 =>
    rw [writeField_w1c hthere hacc]
    refine ⟨fun b => ?_, onlyFields_setFld ..⟩
    rw [fld_setFld, if_pos ⟨rfl, rfl, rfl⟩]
    exact Nat.testBit_bitwise rfl _ _ b

end Sys2Proof.Machine
end

section
/-!
PROOFS. O60: the enables of the queue engine, the map, placement, reclaim and redundancy (R13, R99, R525).
-/
namespace Sys2Proof.Machine
open Sys2Proof

theorem mapOn_of_idle {t : Nat} {w : State} (h : w.map.waiting = []) : mapOn t w = { w with map := { w.map with
    dirFixed := (w.map.dirFixed.filter fun x => x.1 != t) ++ [(t, dirGib w t)] } } := by
  simp [mapOn, serveMap, h]

theorem stageFits_check {t : Nat} {s : State} {b : Bool} (h : stageFits t s = b) :
    (if stageFits t s then none else some 8 : Option Nat) = if b then none else some 8 := by rw [h]

/-! ### The end of the queue engine of a tile -/

/-- The connections of a tile dropped, each announced. -/
def connsDropped (l : List Conn) (s : State) : State := l.foldl (fun s k => dropConn k.id (emit (.connClosed k.id) s)) s

theorem regs_connsDropped : ∀ (l : List Conn) (s : State), (connsDropped l s).regs = s.regs
  | [], _ => rfl
  | k :: l, s => regs_connsDropped l (dropConn k.id (emit (.connClosed k.id) s))

theorem host_connsDropped : ∀ (l : List Conn) (s : State), (connsDropped l s).host =
    { s.host with conns := s.host.conns.filter fun c => l.all fun k => !(c.id == k.id) }
  | [], s => by simp [connsDropped]
  | k :: l, s => by
    refine (host_connsDropped l (dropConn k.id (emit (.connClosed k.id) s))).trans ?_
    simp [dropConn, List.filter_filter, Bool.and_comm]

theorem qeEnable_of_clear {t v : Nat} {s : State} (hv : bitOf v 0 = false) : qeEnable t v s =
    let s2 := endCtrls (((writeCfg t .qeCfg v s).host.ctrls.filter fun c => c.tile == t).map (·.cntlid)) (writeCfg t .qeCfg v s)
    connsDropped (s2.host.conns.filter fun k => k.tile == t) s2 := by
  simp [qeEnable, hv, endCtrls, connsDropped]

theorem tfld_writeCfg_qeCfg {t v : Nat} {s : State} (hv : bitOf v 0 = false) : (writeCfg t .qeCfg v s).tfld t .qe_cfg_qe_enable = 0 := by
  have hbit : bitsOf v 0 0 = 0 := by
    simpa [bitOf, bitsOf, Nat.testBit_zero] using hv
  have hlast : ∀ u : State, (writeField (regEnabled s t 0 .qeCfg) t 0 .qeCfg v .qe_cfg_qe_enable u).tfld t .qe_cfg_qe_enable = 0 := fun u => by
    rw [writeField_rw_taken rfl rfl (.inl rfl)]
    exact (tfld_setT_self t .qe_cfg_qe_enable _ u).trans hbit
  exact hlast _

/-- Clearing the enable of the queue engine ends the tile's controllers and connections. -/
theorem qeEnable_clear_spec {t v : Nat} {s : State} (hv : bitOf v 0 = false) :
    (qeEnable t v s).tfld t .qe_cfg_qe_enable = 0 ∧ (∀ c, c ∈ (qeEnable t v s).host.ctrls → c.tile ≠ t) ∧
    (∀ k, k ∈ (qeEnable t v s).host.conns → k.tile ≠ t) ∧
    ∀ c, c ∈ s.host.ctrls → c.tile = t → AllDiscarded c.cntlid (qeEnable t v s) := by
  have hhost : (writeCfg t .qeCfg v s).host = s.host := by rw [onlyRegs_writeCfg t .qeCfg v s]
  obtain ⟨hside, -, -, hctrls, -, hdisc⟩ := endCtrls_spec (((writeCfg t .qeCfg v s).host.ctrls.filter fun c => c.tile == t).map (·.cntlid))
    (writeCfg t .qeCfg v s)
  rw [qeEnable_of_clear hv]
  set s2 := endCtrls (((writeCfg t .qeCfg v s).host.ctrls.filter fun c => c.tile == t).map (·.cntlid)) (writeCfg t .qeCfg v s)
  refine ⟨?_, fun c hc htile => ?_, fun k hk htile => ?_, fun c hc htile k hk => ?_⟩
  · exact (tfld_of_regs (regs_connsDropped _ s2) t _).trans ((hside.2.2 t 0 _ (by decide)).trans (tfld_writeCfg_qeCfg hv))
  · simp only [host_connsDropped] at hc
    obtain ⟨hmem, hout⟩ := (hctrls c).1 hc
    exact hout (List.mem_map.2 ⟨c, List.mem_filter.2 ⟨hmem, beq_iff_eq.2 htile⟩, rfl⟩)
  · simp only [host_connsDropped, List.mem_filter, List.all_eq_true] at hk
    simpa using hk.2 k ⟨hk.1, by simpa using htile⟩
  · simp only [host_connsDropped] at hk
    exact hdisc c.cntlid (.inr (List.mem_map.2 ⟨c, List.mem_filter.2 ⟨hhost ▸ hc, beq_iff_eq.2 htile⟩, rfl⟩)) k hk

/-- Settles O60. -/
theorem blockEnables : Obligations.BlockEnables := by
  unfold Obligations.BlockEnables
  refine ⟨fun t v s ht hopen hv => ?_, fun t v s ht hopen hv => ?_, fun t v s hclosed => ?_⟩
  case refine_1 =>
    have htw : ∀ f : State → State, Host.Outcome.next (tileWrite t f s) = (.next (f s) : Host.Outcome State Fault Refusal) :=
      fun f => congrArg _ (tileWrite_of_open ht hopen)
    have hset : ∀ (r : Reg) (f : Fld), (setT t f 1 (writeCfg t r (v - 1) s)).tfld t f = 1 := fun r f => tfld_setT_self ..
    refine ⟨fun hoff => ⟨fun ho hc => ⟨_, htw _, writeEnable_of_ok hv hoff ho hc⟩, fun w => mapOn_of_idle,
        fun n ho hc => ⟨_, htw _, writeEnable_of_check hv hoff ho hc⟩, fun ho => ⟨_, htw _, writeEnable_of_order hv hoff ho⟩⟩,
      fun hoff => ⟨fun ho hc => ?_, fun ho hc => ?_, fun ho => ⟨_, htw _, writeEnable_of_order hv hoff ho⟩⟩,
      fun hoff => ⟨fun ho => ?_, fun ho => ⟨_, htw _, writeEnable_of_order hv hoff ho⟩⟩,
      fun hoff => ⟨fun ho => ?_, fun ho => ⟨_, htw _, writeEnable_of_order hv hoff ho⟩⟩,
      fun hoff => ⟨fun ho => ?_, fun ho => ?_⟩⟩
    · refine ⟨_, (htw _).trans (congrArg _ (writeEnable_of_ok hv hoff ho (stageFits_check hc))), rfl, hset ..⟩
    · exact ⟨_, htw _, writeEnable_of_check hv hoff ho (stageFits_check hc)⟩
    · exact ⟨_, (htw _).trans (congrArg _ (writeEnable_of_ok hv hoff ho rfl)), rfl, hset ..⟩
    · exact ⟨_, (htw _).trans (congrArg _ (writeEnable_of_ok hv hoff ho rfl)), rfl, hset ..⟩
    · refine ⟨_, (htw _).trans (congrArg _ ((if_pos hv).trans (writeEnable_of_ok hv hoff ho rfl))), rfl, hset ..⟩
    · exact ⟨_, htw _, (if_pos hv).trans (writeEnable_of_order hv hoff ho)⟩
  case refine_2 =>
    have htw : ∀ f : State → State, Host.Outcome.next (tileWrite t f s) = (.next (f s) : Host.Outcome State Fault Refusal) :=
      fun f => congrArg _ (tileWrite_of_open ht hopen)
    exact ⟨⟨_, htw _, writeEnable_of_plain (.inl hv)⟩, ⟨_, htw _, writeEnable_of_plain (.inl hv)⟩,
      ⟨_, htw _, writeEnable_of_plain (.inl hv)⟩, ⟨_, htw _, writeEnable_of_plain (.inl hv)⟩, ⟨_, htw _, qeEnable_clear_spec hv⟩⟩
  case refine_3 =>
    have hno : ∀ f : State → State, tileWrite t f s = s := fun f => by
      obtain rfl | h := hclosed
      · simp [tileWrite]
      · simp [tileWrite, h]
    exact ⟨⟨_, rfl, hno _⟩, ⟨_, rfl, hno _⟩, ⟨_, rfl, hno _⟩, ⟨_, rfl, hno _⟩, ⟨_, rfl, hno _⟩⟩

end Sys2Proof.Machine
end

section
/-!
PROOFS. O50: leases of write sequences and of headroom, the SLC buffer and promotion (R110, R172, R187 to R189).
-/
namespace Sys2Proof.Machine
open Sys2Proof

/-! ### Leases of write sequences (R172) -/

/-- The leases with one tile's replaced. -/
def withSeqLease (l : SeqLease) (s : State) : List SeqLease := (s.wr.leases.filter fun x => !(x.tile == l.tile)) ++ [l]

theorem tile_seqLease (s : State) (t : Nat) : (seqLease s t).tile = t := by
  unfold seqLease
  cases h : s.wr.leases.find? fun l => l.tile == t with
  | none => rfl
  | some l => simpa using List.find?_some h

theorem seqLease_of_withSeqLease {l : SeqLease} {s u : State} (h : u.wr.leases = withSeqLease l s) (k : Nat) :
    seqLease u k = if k = l.tile then l else seqLease s k := by
  unfold seqLease
  rw [h, withSeqLease, List.find?_append]
  by_cases hk : k = l.tile
  · subst hk
    simp [find?_filter_self (fun x : SeqLease => x.tile == l.tile)]
  · have hne : ¬l.tile = k := fun h => hk h.symm
    rw [if_neg hk, find?_filter_not _ _ (fun x hx => by simpa [beq_iff_eq.1 hx] using hk)]
    simp [hne]

/-- The lease that a tile holds once it was given 4,096 new values. -/
def leaseGiven (t : Nat) (s : State) : SeqLease :=
  if (seqLease s t).next == (seqLease s t).last then { tile := t, next := s.wr.seqNext, last := s.wr.seqNext + 4096, more := none }
  else { seqLease s t with more := some s.wr.seqNext }

theorem tile_leaseGiven (t : Nat) (s : State) : (leaseGiven t s).tile = t := by
  unfold leaseGiven
  split
  · rfl
  · exact tile_seqLease s t

theorem seqLeaseNew_of_due {t : Nat} {s : State} (hmore : (seqLease s t).more = none)
    (hused : (seqLease s t).last ≤ (seqLease s t).next + 2048) : seqLeaseNew t s = { s with wr := { s.wr with
      leases := withSeqLease (leaseGiven t s) s, seqNext := s.wr.seqNext + 4096,
      seqMark := if s.wr.seqMark < s.wr.seqNext + 4096 then s.wr.seqMark + 2 ^ 20 else s.wr.seqMark } } := by
  simp only [seqLeaseNew, hmore, Option.isSome_none, Nat.not_lt.2 hused, decide_false, Bool.or_self, Bool.false_eq_true, if_false,
    withSeqLease, tile_leaseGiven]
  rfl

theorem seqLeaseNew_of_not_due {t : Nat} {s : State} (h : (seqLease s t).more.isSome = true ∨ (seqLease s t).next + 2048 < (seqLease s t).last) :
    seqLeaseNew t s = s := by
  obtain h | h := h <;> simp [seqLeaseNew, h]

/-! ### Leases of headroom (R110) -/

theorem leaseLeft_setLease (t n left : Nat) (s : State) (k m : Nat) :
    leaseLeft (setLease t n left s) k m = if k = t ∧ m = n then left else leaseLeft s k m := by
  have hput := find?_putKeyed Lease.tile Lease.nsid s.reg.leases { tile := t, nsid := n, left := left } k m
  simp only [leaseLeft, setLease, hput]
  split <;> rfl

theorem leaseLeft_recallLeases (n : Nat) (s : State) (k m : Nat) :
    leaseLeft (recallLeases n s) k m = if m = n then 0 else leaseLeft s k m := by
  unfold leaseLeft recallLeases
  by_cases hm : m = n
  · subst hm
    have hnone : (s.reg.leases.filter fun l => !(l.nsid == m)).find? (fun l => l.tile == k && l.nsid == m) = none :=
      List.find?_eq_none.2 fun l hl => by
        have hne := (List.mem_filter.1 hl).2
        simp_all
    simp [hnone]
  · rw [if_neg hm]
    simp only
    rw [find?_filter_not _ _ (fun l hl => ?_)]
    simp only [Bool.and_eq_true, beq_iff_eq] at hl
    simpa [hl.2] using hm

/-! ### The SLC buffer (R187, R188) -/

theorem slcShare_bounds (f : Nat) : 50 ≤ slcShare f ∧ slcShare f ≤ 600 := by
  unfold slcShare
  split
  · omega
  · split <;> omega

/-- An endurance group with its SLC buffer recomputed. -/
def slcRecomputed (s : State) (g : Eg) : Eg :=
  { g with
    slcBuffer := slcShare (fillPermille s g)
    slcClosed := slcOver s g (slcShare (fillPermille s g)) ||
      decide (s.tfld s.mgmt.primary .plc_slc_cfg_slc_direct_pct ≤ slcOccupancy s g) ||
      (g.slcClosed && !decide (slcOccupancy s g < s.tfld s.mgmt.primary .plc_slc_cfg_slc_resume_pct))
    idlePromo := decide (slcOccupancy s g ≤ s.tfld s.mgmt.primary .plc_slc_cfg_promote_start_pct) }

theorem slcRecomputed_id (s : State) (g : Eg) : (slcRecomputed s g).id = g.id := by
  unfold slcRecomputed
  rfl

theorem egs_slcRecompute (s : State) : (slcRecompute s).reg.egs = s.reg.egs.map (slcRecomputed s) := by
  unfold slcRecompute
  exact List.map_congr_left fun g _ => by unfold slcRecomputed; rfl

theorem findEg_slcRecompute {s : State} {id : Nat} {g : Eg} (h : findEg s id = some g) :
    findEg (slcRecompute s) id = some (slcRecomputed s g) := by
  unfold findEg at h ⊢
  rw [egs_slcRecompute, find?_map_key Eg.id (slcRecomputed_id s), h, Option.map_some]

/-! ### Promotion (R189) -/

theorem mem_of_bestBy {f : Band → Int} {l : List Band} {b : Band} (h : bestBy f l = some b) : b ∈ l := by
  have hne : l ≠ [] := by rintro rfl; simp [bestBy] at h
  obtain ⟨x, hx, hbest, -⟩ := bestBy_of_ne_nil f hne
  exact Option.some.inj (hbest.symm.trans h) ▸ hx

theorem findBand_updBand {f : Band → Band} (hf : ∀ x, (f x).sg = x.sg ∧ (f x).idx = x.idx) (sg b g i : Nat) (s : State) :
    findBand (updBand sg b f s) g i = if g = sg ∧ i = b then (findBand s g i).map f else findBand s g i :=
  find?_mapKeyed Band.sg Band.idx hf sg b g i s.rcl.bands

theorem abortSubsts_of_none {st : BlkState} {sg b : Nat} {s : State}
    (h : ∀ x, x ∈ s.red.substs → x.sg = sg → x.band = b → x.done = true) : abortSubsts st sg b s = s := by
  have hnone : (s.red.substs.filter fun x => x.sg == sg && x.band == b && !x.done) = [] := by
    refine List.filter_eq_nil_iff.2 fun x hx hcond => ?_
    simp only [Bool.and_eq_true, beq_iff_eq, Bool.not_eq_true'] at hcond
    obtain ⟨⟨hsg, hb⟩, hd⟩ := hcond
    simp [h x hx hsg hb] at hd
  rw [abortSubsts, hnone]
  rfl

/-- The extents of a band in the order in which a scan takes them. -/
def scanOrder (s : State) (sg b : Nat) : List FExt :=
  (bandExtents s sg b).mergeSort fun a c => decide (a.member < c.member) || (a.member == c.member && decide (a.addr ≤ c.addr))

/-- What the start of a relocation makes of a band. -/
def relocating (w : Why) (sg b : Nat) (s : State) (x : Band) : Band :=
  if x.state == .sealed then
    { x with state := .reclaiming, why := some w, committed := false, erased := []
             toScan := if x.mapBand then (recordsIn s x).map (·.1) else (scanOrder s sg b).map (·.addr) }
  else x

theorem relocating_key (w : Why) (sg b : Nat) (s : State) (x : Band) :
    (relocating w sg b s x).sg = x.sg ∧ (relocating w sg b s x).idx = x.idx := by
  unfold relocating
  split <;> exact ⟨rfl, rfl⟩

theorem startRelocation_of_no_substs {w : Why} {sg b : Nat} {s : State}
    (h : ∀ x, x ∈ s.red.substs → x.sg = sg → x.band = b → x.done = true) :
    startRelocation w sg b s = updBand sg b (relocating w sg b s) s := by
  unfold startRelocation
  rw [abortSubsts_of_none h, ite_self]
  rfl

/-- Settles O50. -/
theorem leasesAndPromotion : Obligations.LeasesAndPromotion := by
  unfold Obligations.LeasesAndPromotion
  refine ⟨fun t s => ⟨fun hmore hused => ?_, fun h => ⟨_, rfl, seqLeaseNew_of_not_due h⟩⟩,
    fun t n x s hns => ⟨fun hroom => ?_, fun hroom => ?_⟩, fun t n s hns => ⟨_, rfl, by simp [headroomLease, hns]⟩,
    fun s => ⟨_, rfl, rfl, fun id g => findEg_slcRecompute⟩, slcShare_bounds, fun sg b s hold hfind hdone => ?_,
    fun sg s hnone => ⟨_, rfl, by simp [promotionStart, hnone]⟩⟩
  case refine_1 =>
    refine ⟨_, congrArg Host.Outcome.next (seqLeaseNew_of_due hmore hused), rfl, ?_, fun k hk => ?_, rfl, fun hmark => ?_⟩
    · rw [seqLease_of_withSeqLease rfl, if_pos (tile_leaseGiven t s).symm]
      simp [leaseGiven]
    · rw [seqLease_of_withSeqLease rfl, tile_leaseGiven, if_neg hk]
    · show s.wr.seqNext + 4096 ≤ if s.wr.seqMark < s.wr.seqNext + 4096 then s.wr.seqMark + 2 ^ 20 else s.wr.seqMark
      split <;> omega
  case refine_2 =>
    have hgo : headroomLease t n s = setLease t n (leaseLeft s t n + 65536) s := by simp [headroomLease, hns, Nat.not_lt.2 hroom]
    refine ⟨_, congrArg Host.Outcome.next hgo, rfl, by rw [leaseLeft_setLease, if_pos ⟨rfl, rfl⟩], fun k m hkm => ?_⟩
    rw [leaseLeft_setLease, if_neg (by tauto)]
  case refine_3 =>
    have hgo : headroomLease t n s = setLease t n (min 256 (headroom (recallLeases n s) n)) (recallLeases n s) := by
      simp only [headroomLease, hns, hroom, if_true]
    refine ⟨_, congrArg Host.Outcome.next hgo, rfl, by rw [leaseLeft_setLease, if_pos ⟨rfl, rfl⟩], fun k hk => ?_, fun k m hm => ?_⟩
    · rw [leaseLeft_setLease, if_neg fun h => hk h.1, leaseLeft_recallLeases, if_pos rfl]
    · rw [leaseLeft_setLease, if_neg fun h => hm h.2, leaseLeft_recallLeases, if_neg hm]
  case refine_4 =>
    have hmem := mem_of_bestBy hold
    simp only [groupBands, List.mem_filter, Bool.and_eq_true, beq_iff_eq, Bool.not_eq_true'] at hmem
    obtain ⟨⟨-, -, hmap⟩, -, hsealed⟩ := hmem
    have hgo : promotionStart sg s = updBand sg b.idx (relocating .promotion sg b.idx s) s := by
      simp only [promotionStart, hold]
      exact startRelocation_of_no_substs hdone
    refine ⟨_, congrArg Host.Outcome.next hgo, rfl, ⟨scanOrder s sg b.idx, List.mergeSort_perm .., ?_⟩, fun g i hgi => ?_⟩
    · rw [findBand_updBand (relocating_key _ _ _ _), if_pos ⟨rfl, rfl⟩, hfind]
      simp [relocating, hsealed, hmap]
    · rw [findBand_updBand (relocating_key _ _ _ _), if_neg (by tauto)]

end Sys2Proof.Machine
end

section
/-!
PROOFS. O51: the channels of a tile, from training to rate changes (R232, R236 to R239).
-/
namespace Sys2Proof.Machine
open Sys2Proof

/-! ### One channel changed (R236 to R238) -/

theorem findChan_updChan {f : Chan → Chan} (hf : ∀ x, (f x).ch = x.ch) (b a : Nat) (s : State) :
    findChan (updChan b f s) a = if a = b then (findChan s a).map f else findChan s a := find?_updKey Chan.ch hf b a _

theorem findChan_updChan_self {f : Chan → Chan} (hf : ∀ x, (f x).ch = x.ch) {c : Nat} {x : Chan} {s : State} (h : findChan s c = some x) :
    findChan (updChan c f s) c = some (f x) := by
  rw [findChan_updChan hf, if_pos rfl, h, Option.map_some]

theorem findChan_updChan_other {f : Chan → Chan} (hf : ∀ x, (f x).ch = x.ch) {c k : Nat} (s : State) (h : k ≠ c) :
    findChan (updChan c f s) k = findChan s k := by
  rw [findChan_updChan hf, if_neg h]

theorem findChan_of_onlyDies {s t : State} (h : OnlyDies s t) (c : Nat) : findChan t c = findChan s c := by
  rw [h]
  rfl

/-! ### The start of training (R232, R236) -/

/-- What becomes of a channel of a tile when its media interface is enabled. -/
def chanStarted (s : State) (t ch : Nat) : Chan :=
  let vols := bitsSet 32 (s.fld t ch .med_ch_vols_vols_present)
  let off := s.fld t ch .med_ch_cfg_topology == 2 || vols.isEmpty
  { ch := 8 * t + ch, state := if off then .off else .training, step := if off then 0 else 1
    rate := if off then 0 else rateLimit s t ch, limit := if off then 0 else rateLimit s t ch, margin := 0, downAt := [], lastDown := 0
    pinned := false, loads := vols, bursts := [], turn := 0 }

/-- The channels of a tile started, one after another. -/
def chansStarted (t : Nat) (l : List Nat) (s : State) : State := l.foldl (fun s c => startChannel t c s) s

theorem findChan_startChannel (t ch c : Nat) (s : State) :
    findChan (startChannel t ch s) c = if c = 8 * t + ch then some (chanStarted s t ch) else findChan s c := by
  have hdrop := find?_dropKey Chan.ch (8 * t + ch) c s.media.chans
  refine (List.find?_append).trans ?_
  refine (congrArg (fun o : Option Chan => o.or _) hdrop).trans ?_
  by_cases h : c = 8 * t + ch
  · rw [if_pos h, if_pos h, Option.none_or]
    exact List.find?_cons_of_pos (beq_iff_eq.2 h.symm)
  · have hne : ¬8 * t + ch = c := fun hx => h hx.symm
    simp [h, hne, findChan]

theorem chansStarted_spec (t : Nat) : ∀ (l : List Nat) (s : State),
    chansStarted t l s = { s with media := { s.media with chans := (chansStarted t l s).media.chans } } ∧
    ∀ c, findChan (chansStarted t l s) c = if 8 * t ≤ c ∧ c - 8 * t ∈ l then some (chanStarted s t (c - 8 * t)) else findChan s c
  | [], s => ⟨rfl, fun c => by simp [chansStarted]⟩
  | ch :: l, s => by
    obtain ⟨hframe, hfind⟩ := chansStarted_spec t l (startChannel t ch s)
    refine ⟨hframe, fun c => (hfind c).trans ?_⟩
    rw [findChan_startChannel]
    by_cases hl : 8 * t ≤ c ∧ c - 8 * t ∈ l
    · rw [if_pos hl, if_pos ⟨hl.1, List.mem_cons_of_mem _ hl.2⟩]
      rfl
    · rw [if_neg hl]
      by_cases hc : c = 8 * t + ch
      · subst hc
        simp
      · have hnot : ¬(8 * t ≤ c ∧ c - 8 * t ∈ ch :: l) := fun h => by
          obtain heq | hmem := List.mem_cons.1 h.2
          · exact hc (by omega)
          · exact hl ⟨h.1, hmem⟩
        rw [if_neg hc, if_neg hnot]

/-- A plain write of MED_CFG changes no register of another name. -/
theorem fld_writeCfg_of_not_mem {w i v : Nat} {r : Reg} {f : Fld} {s : State} (h : f ∉ r.flds) (herr : r.cfgErr ≠ some f)
    : (writeCfg w r v s).fld w i f = s.fld w i f := by
  have hone : ∀ (en : Bool) (g : Fld) (u : State), g ≠ f → (writeField en w 0 r v g u).fld w i f = u.fld w i f := fun en g u hg => by
    have hset : ∀ x, (setFld w 0 g x u).fld w i f = u.fld w i f := fun x => by rw [fld_setFld, if_neg fun hx => hg hx.2.2.symm]
    unfold writeField
    refine iteInduction (motive := fun z : State => z.fld w i f = u.fld w i f) (fun _ => rfl) fun _ => ?_
    split
    · rfl
    · rfl
    · exact hset _
    · rfl
    · exact hset _
    · refine iteInduction (motive := fun z : State => z.fld w i f = u.fld w i f) (fun _ => ?_) fun _ => hset _
      rw [fld_of_regs (reject_regs _ _ _ _), setCfgErr]
      split
      case h_1 e he => rw [fld_setFld, if_neg fun hx => herr (by rw [he, hx.2.2])]
      case h_2 => rfl
  have hall : ∀ (en : Bool) (l : List Fld), f ∉ l → ∀ u : State,
      (l.foldl (fun u g => writeField en w 0 r v g u) u).fld w i f = u.fld w i f := fun en l => by
    induction l with
    | nil => exact fun _ _ => rfl
    | cons g l ih =>
      intro hl u
      rw [List.mem_cons, not_or] at hl
      exact (ih hl.2 _).trans (hone en g u (Ne.symm hl.1))
  exact hall _ _ h s

/-! ### Bursts (R237) -/

/-- What a burst to a load notes in its channel. -/
def burstNoted (s : State) (l margin : Nat) (x : Chan) : Chan :=
  { x with margin := margin, bursts := (x.bursts.filter fun b => b.1 != l) ++ [(l, s.nowMs)] }

theorem burstTo_eq (c l margin : Nat) (s : State) : burstTo c l margin s = updChan c (burstNoted s l margin) s := rfl

theorem trainingBurst_of_up {c margin l : Nat} {x : Chan} {s : State} (hfind : findChan s c = some x) (hup : x.state = .up)
    (hl : x.loads[x.turn % max 1 x.loads.length]? = some l) :
    trainingBurst c margin s = burstTo c l margin (updChan c (fun x => { x with turn := x.turn + 1 }) s) := by
  simp [trainingBurst, hfind, hl, hup]

theorem trainingBurst_of_not_up {c margin : Nat} {x : Chan} {s : State} (hfind : findChan s c = some x) (hup : x.state ≠ .up) :
    trainingBurst c margin s = s := by
  simp only [trainingBurst, hfind]
  split
  · rfl
  · simp [hup]

/-! ### Rates (R238) -/

/-- The step downs of a channel within a day, with the one that is made. -/
def recentDowns (s : State) (x : Chan) : List Nat := (x.downAt.filter fun m => s.nowMs < m + 86400000) ++ [s.nowMs]

/-- What a step down of the channel `x` makes of an entry of that channel. -/
def rateDown (s : State) (trained : Bool) (x y : Chan) : Chan :=
  { y with rate := y.rate - 1, downAt := recentDowns s x, lastDown := s.nowMs, pinned := y.pinned || decide (3 ≤ (recentDowns s x).length)
           state := if trained then .up else .stepping }

/-- The state with a channel one rate lower, counted and logged. -/
def downNoted (c : Nat) (trained : Bool) (x : Chan) (s : State) : State :=
  logEv .chRateDown (c / 8) [c, x.rate - 1, x.margin]
    (addFld (c / 8) (c % 8) .med_ch_status_rate_downs 1 (updChan c (rateDown s trained x) s))

theorem chRateDown_eq {c : Nat} {trained : Bool} {x : Chan} {s : State} (hfind : findChan s c = some x)
    (hstate : x.state = .up ∨ x.state = .stepping) (hrate : 1 < x.rate) : chRateDown c trained s =
    if trained then (((downNoted c trained x s).media.dies.filter fun d => chanOfDie d.die == c).map (·.die)).foldl
      (fun s d => dispatch d s) (downNoted c trained x s) else downNoted c trained x s := by
  have hrun : (x.state != .up && x.state != .stepping) = false := by obtain h | h := hstate <;> simp [h]
  simp only [chRateDown, hfind, hrun, Bool.false_eq_true, if_false, Nat.not_le.2 hrate]
  rfl

/-- A step down leaves its dies to take their next operations where the channel trained again. -/
theorem chRateDown_onlyDies {c : Nat} {trained : Bool} {x : Chan} {s : State} (hfind : findChan s c = some x)
    (hstate : x.state = .up ∨ x.state = .stepping) (hrate : 1 < x.rate) :
    OnlyDies (downNoted c trained x s) (chRateDown c trained s) := by
  rw [chRateDown_eq hfind hstate hrate]
  exact iteInduction (motive := OnlyDies (downNoted c trained x s))
    (fun _ => OnlyDies.foldl (fun s d => onlyDies_dispatch d s) _ _) fun _ => .refl _

theorem chRateDown_spec {c : Nat} {trained : Bool} {x : Chan} {s : State} (hfind : findChan s c = some x)
    (hstate : x.state = .up ∨ x.state = .stepping) (hrate : 1 < x.rate) :
    chRateDown c trained s = { s with regs := (chRateDown c trained s).regs, media := (chRateDown c trained s).media
                                      evr := (chRateDown c trained s).evr } ∧
    findChan (chRateDown c trained s) c = some (rateDown s trained x x) ∧
    Logs .chRateDown (c / 8) [c, x.rate - 1, x.margin] s (chRateDown c trained s) ∧
    OnlyFields [(c / 8, c % 8, .med_ch_status_rate_downs)] s (chRateDown c trained s) := by
  have hdies := chRateDown_onlyDies (trained := trained) hfind hstate hrate
  refine ⟨?_, ?_, ?_, ?_, fun w i f hf => ?_⟩
  · rw [hdies]; rfl
  · exact (findChan_of_onlyDies hdies c).trans (findChan_updChan_self (f := rateDown s trained x) (fun _ => rfl) hfind)
  · rw [hdies]; rfl
  · rw [hdies]; rfl
  · have hregs : (chRateDown c trained s).regs = (downNoted c trained x s).regs := by rw [hdies]
    rw [List.mem_singleton, Prod.mk.injEq, Prod.mk.injEq] at hf
    refine (fld_of_regs hregs w i f).trans ((fld_addFld ..).trans (if_neg hf))

/-! ### Training (R236, R239) -/

section
variable {c : Nat} {ok : Bool} {found unexpected : List Nat} {bad : List (Nat × Nat)} {x : Chan} {s : State}

theorem trainingStep_of_other (hfind : findChan s c = some x) (h : x.state ≠ .training) :
    trainingStep c ok found unexpected bad s = s := by
  simp [trainingStep, hfind, h]

theorem trainingStep_of_failed (hfind : findChan s c = some x) (h : x.state = .training) :
    trainingStep c false found unexpected bad s =
      if x.rate ≤ 1 then failChannel c s else updChan c (fun x => { x with rate := x.rate - 1, step := 5 }) s := by
  simp [trainingStep, hfind, h]

theorem trainingStep_of_ok (hfind : findChan s c = some x) (h : x.state = .training) (hstep : x.step < 6) :
    trainingStep c true found unexpected bad s =
      formIfReady (updChan c (fun x => { x with step := x.step + 1 }) (if x.step = 2 then discover c found unexpected bad s else s)) := by
  have hnot : ¬7 ≤ x.step + 1 := by omega
  simp [trainingStep, hfind, h, hnot]

theorem trainingStep_of_last (hfind : findChan s c = some x) (h : x.state = .training) (hstep : x.step = 6) :
    trainingStep c true found unexpected bad s =
      let s2 := updChan c (fun x => { x with state := .up, step := 7, bursts := x.loads.map fun l => (l, s.nowMs) }) s
      archiveCheck (((s2.media.dies.filter fun d => chanOfDie d.die == c).map (·.die)).foldl (fun s d => dispatch d s)
        (formIfReady s2)) := by
  simp [trainingStep, hfind, h, hstep]

end

/-- Settles O51. -/
theorem channelTraining : Obligations.ChannelTraining := by
  unfold Obligations.ChannelTraining
  refine ⟨fun t v s ht hopen hv hoff => ?_, fun c ok found unexpected bad x s hfind => ?_, fun c margin l x s hfind hup => ?_,
    fun c margin l x s hfind hup => ?_, fun c trained x s hfind => ?_⟩
  case refine_1 =>
    have htw : ∀ f : State → State, Host.Outcome.next (tileWrite t f s) = (.next (f s) : Host.Outcome State Fault Refusal) :=
      fun f => congrArg _ (tileWrite_of_open ht hopen)
    refine ⟨fun ho => ⟨_, htw _, writeEnable_of_order hv hoff ho⟩, fun ho hdesc => ?_, fun ho hok hsame => ?_⟩
    · refine ⟨_, htw _, writeEnable_of_check hv hoff ho ?_⟩
      obtain h | h := hdesc <;> simp [h]
    · set s1 := setT t .med_cfg_med_enable 1 (writeCfg t .medCfg (v - 1) s) with hs1
      have hgo : medEnable t v s = chansStarted t (List.range 8) s1 := writeEnable_of_ok hv hoff ho (by simp [hok, hsame])
      obtain ⟨hframe, hchan⟩ := chansStarted_spec t (List.range 8) s1
      have hfld : ∀ (c : Nat) (f : Fld), f ∉ Reg.medCfg.flds → Reg.medCfg.cfgErr ≠ some f → s1.fld t c f = s.fld t c f :=
        fun c f hf herr => by
          have hne : f ≠ .med_cfg_med_enable := fun h => hf (h ▸ by decide)
          rw [hs1, setT, fld_setFld, if_neg fun h => hne h.2.2, fld_writeCfg_of_not_mem hf herr]
      refine ⟨_, (htw _).trans (congrArg _ hgo), hframe, fun c hc => ?_, fun c hc => ?_⟩
      · refine ⟨chanStarted s1 t c, (hchan _).trans ?_, fun hunused => ?_, fun htopo hvols => ?_⟩
        · rw [if_pos ⟨Nat.le_add_right .., List.mem_range.2 (by omega)⟩, Nat.add_sub_cancel_left]
        · have hoff : (s1.fld t c .med_ch_cfg_topology == 2 || (bitsSet 32 (s1.fld t c .med_ch_vols_vols_present)).isEmpty) = true := by
            rw [hfld c _ (by decide) (by decide), hfld c _ (by decide) (by decide)]
            obtain h | h := hunused <;> simp [h]
          simp only [chanStarted, hoff, if_true, and_self]
        · have hon : (s1.fld t c .med_ch_cfg_topology == 2 || (bitsSet 32 (s1.fld t c .med_ch_vols_vols_present)).isEmpty) = false := by
            rw [hfld c _ (by decide) (by decide), hfld c _ (by decide) (by decide)]
            simp [htopo, hvols]
          simp only [chanStarted, hon, Bool.false_eq_true, if_false, and_self]
      · have hnot : ¬(8 * t ≤ c ∧ c - 8 * t ∈ List.range 8) := fun h => by
          have := List.mem_range.1 h.2
          omega
        refine (hchan c).trans ((if_neg hnot).trans ?_)
        rw [hs1, findChan, findChan, setT, setFld_media, onlyRegs_writeCfg t .medCfg (v - 1) s]
  case refine_2 =>
    refine ⟨fun h => ⟨_, rfl, trainingStep_of_other hfind h⟩, fun h hrate => ⟨_, rfl, (trainingStep_of_failed hfind h).trans (if_pos hrate)⟩,
      fun h hrate => ?_, fun h hlt hne => ⟨_, rfl, (trainingStep_of_ok hfind h hlt).trans (by rw [if_neg hne])⟩,
      fun h h2 => ⟨_, rfl, (trainingStep_of_ok hfind h (by omega)).trans (by rw [if_pos h2])⟩,
      fun h h6 => ⟨_, rfl, trainingStep_of_last hfind h h6⟩⟩
    exact ⟨_, congrArg Host.Outcome.next ((trainingStep_of_failed hfind h).trans (if_neg (Nat.not_le.2 hrate))), rfl,
      findChan_updChan_self (f := fun x => { x with rate := x.rate - 1, step := 5 }) (fun _ => rfl) hfind,
      fun k hk => findChan_updChan_other (f := fun x => { x with rate := x.rate - 1, step := 5 }) (fun _ => rfl) s hk⟩
  case refine_3 =>
    refine ⟨fun hl => ?_, fun at_ hat => ⟨fun hdue => ?_, fun hdue => ?_⟩⟩
    · refine ⟨_, congrArg Host.Outcome.next (trainingBurst_of_up hfind hup hl), rfl, ?_⟩
      exact findChan_updChan_self (f := burstNoted s l margin) (fun _ => rfl) (findChan_updChan_self (f := fun x => { x with turn := x.turn + 1 }) (fun _ => rfl) hfind)
    · have hgo : trackingDue c l margin s = updChan c (burstNoted s l margin) s := by
        simp [trackingDue, hfind, hat, hdue, hup, burstTo_eq]
      exact ⟨_, congrArg Host.Outcome.next hgo, rfl, findChan_updChan_self (f := burstNoted s l margin) (fun _ => rfl) hfind⟩
    · exact ⟨_, rfl, by simp [trackingDue, hfind, hat, Nat.not_le.2 hdue]⟩
  case refine_4 => exact ⟨⟨_, rfl, trainingBurst_of_not_up hfind hup⟩, _, rfl, by simp [trackingDue, hfind, hup]⟩
  case refine_5 =>
    refine ⟨fun hstate hrate => ⟨_, rfl, chRateDown_spec hfind hstate hrate⟩, fun hstate hrate => ?_, fun hup hstep => ?_,
      fun hup hpin hlim hhour => ?_, fun hno holds => ⟨_, rfl, ?_⟩⟩
    · have hrun : (x.state != .up && x.state != .stepping) = false := by obtain h | h := hstate <;> simp [h]
      exact ⟨⟨_, rfl, by simp [chRateDown, hfind, hrun, hrate]⟩, _, rfl, by simp [chRateDown, hfind, hrun, hrate]⟩
    · exact ⟨_, rfl, by simp [chRateDown, hfind, hup, hstep]⟩
    · have hgo : chRateUp c true s = logEv .chRateUp (c / 8) [c, x.rate + 1] (updChan c (fun x => { x with rate := x.rate + 1 }) s) := by
        simp [chRateUp, hfind, hup, hpin, Nat.not_le.2 hlim, Nat.not_lt.2 hhour]
      exact ⟨_, congrArg Host.Outcome.next hgo, rfl,
        findChan_updChan_self (f := fun x => { x with rate := x.rate + 1 }) (fun _ => rfl) hfind, rfl⟩
    · obtain h | h | h | h := hno <;> simp [chRateUp, hfind, h]

end Sys2Proof.Machine
end

section
/-!
PROOFS. A band that is sealed, with the relocation a sweep may start of it, and the programs that rows issue (R175, R178, R190, R195,
R223, R242): what they change.
-/
namespace Sys2Proof.Machine
open Sys2Proof

/-! ### Sealing a band -/

/-- From `s` to `t` nothing changed but bands and their blocks, the redundancy state, the active groups and the queue of die operations. -/
def OnlyBands (s t : State) : Prop :=
  t = { s with wr := { s.wr with active := t.wr.active }, rcl := { s.rcl with bands := t.rcl.bands, blocks := t.rcl.blocks }
               red := t.red, media := { s.media with ops := t.media.ops } }

theorem OnlyBands.refl (s : State) : OnlyBands s s := rfl

theorem OnlyBands.trans {s t u : State} (h : OnlyBands s t) (k : OnlyBands t u) : OnlyBands s u :=
  Eq.trans k (congrArg (fun x : State => { x with
    wr := { x.wr with active := u.wr.active }, rcl := { x.rcl with bands := u.rcl.bands, blocks := u.rcl.blocks }
    red := u.red, media := { x.media with ops := u.media.ops } }) h)

theorem OnlyBands.foldl {α : Type} {f : State → α → State} (h : ∀ s x, OnlyBands s (f s x)) :
    ∀ (l : List α) (s : State), OnlyBands s (l.foldl f s)
  | [], s => .refl s
  | x :: l, s => (h s x).trans (foldl h l (f s x))

/-- What the end of a substitute leaves of its entry, its block and what its rebuild has queued. -/
def substAborted (st : BlkState) (sg b : Nat) (s : State) (x : Subst) : State :=
  sjAppend sg { sjBlank 0x14 with band := b, member := x.member, die := x.die, block := x.block }
    (updBlk x.die x.block (fun k => { k with state := st }) { s with
      red := { s.red with substs := s.red.substs.filter fun y => y != x }
      media := { s.media with ops := s.media.ops.filter fun o =>
        !(o.use == .rebuild && o.sg == sg && o.band == b && o.lba == x.member) } })

theorem abortSubsts_eq (st : BlkState) (sg b : Nat) (s : State) : abortSubsts st sg b s =
    (s.red.substs.filter fun x => x.sg == sg && x.band == b && !x.done).foldl (substAborted st sg b) s := rfl

theorem abortSubsts_spec (st : BlkState) (sg b : Nat) (s : State) :
    OnlyBands s (abortSubsts st sg b s) ∧ (abortSubsts st sg b s).rcl.bands = s.rcl.bands := by
  rw [abortSubsts_eq]
  generalize (s.red.substs.filter fun x => x.sg == sg && x.band == b && !x.done) = l
  induction l generalizing s with
  | nil => exact ⟨rfl, rfl⟩
  | cons x l ih =>
    have hone : OnlyBands s (substAborted st sg b s x) := rfl
    exact ⟨hone.trans (ih _).1, (ih _).2⟩

/-- The band `y` is the band `x` sealed or relocated, and no different otherwise. -/
def SealedFrom (x y : Band) : Prop :=
  y = { x with state := y.state, sealMin := y.sealMin, why := y.why, committed := y.committed, erased := y.erased, toScan := y.toScan }

theorem SealedFrom.refl (x : Band) : SealedFrom x x := rfl

theorem SealedFrom.trans {x y z : Band} (h : SealedFrom x y) (k : SealedFrom y z) : SealedFrom x z :=
  Eq.trans k (congrArg (fun x : Band => { x with
    state := z.state, sealMin := z.sealMin, why := z.why, committed := z.committed, erased := z.erased, toScan := z.toScan }) h)

/-- Where a relocation finds its band sealed, the substitutes are given up first. -/
def beforeRelocation (sg b : Nat) (s : State) : State :=
  if (findBand s sg b).any (fun x => x.state == .sealed) then abortSubsts .spare sg b s else s

theorem beforeRelocation_spec (sg b : Nat) (s : State) :
    OnlyBands s (beforeRelocation sg b s) ∧ (beforeRelocation sg b s).rcl.bands = s.rcl.bands := by
  unfold beforeRelocation
  split
  · exact abortSubsts_spec ..
  · exact ⟨rfl, rfl⟩

theorem startRelocation_eq (w : Why) (sg b : Nat) (s : State) :
    startRelocation w sg b s = updBand sg b (relocating w sg b (beforeRelocation sg b s)) (beforeRelocation sg b s) := rfl

theorem relocating_sealedFrom (w : Why) (sg b : Nat) (s : State) (x : Band) : SealedFrom x (relocating w sg b s x) ∧
    ((relocating w sg b s x).state = x.state ∨ (relocating w sg b s x).state = .reclaiming) := by
  unfold relocating
  split
  · exact ⟨rfl, .inr rfl⟩
  · exact ⟨rfl, .inl rfl⟩

theorem onlyBands_startRelocation (w : Why) (sg b : Nat) (s : State) : OnlyBands s (startRelocation w sg b s) := by
  have hupd : OnlyBands (beforeRelocation sg b s) (startRelocation w sg b s) := rfl
  exact (beforeRelocation_spec sg b s).1.trans hupd

theorem findBand_startRelocation (w : Why) (sg b g i : Nat) (s : State) : findBand (startRelocation w sg b s) g i =
    if g = sg ∧ i = b then (findBand s g i).map (relocating w sg b (beforeRelocation sg b s)) else findBand s g i := by
  have hbands : findBand (beforeRelocation sg b s) g i = findBand s g i := by
    rw [findBand, (beforeRelocation_spec sg b s).2, ← findBand]
  rw [startRelocation_eq, findBand_updBand (relocating_key _ _ _ _), hbands]

theorem onlyBands_rotateActive (sg : Nat) (s : State) : OnlyBands s (rotateActive sg s) ∧ (rotateActive sg s).rcl = s.rcl := by
  unfold rotateActive
  refine iteInduction (motive := fun z : State => OnlyBands s z ∧ z.rcl = s.rcl) (fun _ => ⟨rfl, rfl⟩) fun _ => ?_
  dsimp only
  split
  · exact ⟨rfl, rfl⟩
  · exact iteInduction (motive := fun z : State => OnlyBands s z ∧ z.rcl = s.rcl) (fun _ => ⟨rfl, rfl⟩) fun _ => ⟨rfl, rfl⟩

/-- A band as it is sealed. -/
def sealedAt (min : Nat) (x : Band) : Band := { x with state := .sealed, sealMin := min }

/-- The state with a band sealed and its seal recorded. -/
def sealNoted (sg b : Nat) (x : Band) (s : State) : State :=
  bandRecord 0x02 x 0xFF 0xFFFF 0xFFFF (updBand sg b (sealedAt s.island.minutes) s)

/-- The state with a band sealed, and relocated at once where a sweep waits for it. -/
def sealSwept (sg b : Nat) (x : Band) (s : State) : State :=
  if (sealNoted sg b x s).rcl.sweeps.any fun w => w.state == 2 && w.bands.contains (sg, b) then
    startRelocation .sweep sg b (sealNoted sg b x s) else sealNoted sg b x s

theorem sealBand_of_open {sg b : Nat} {x : Band} {s : State} (hfind : findBand s sg b = some x) (hopen : x.state = .open) :
    sealBand sg b s = if x.stream == .hostSlc || x.stream == .hostQlc then rotateActive sg (sealSwept sg b x s) else sealSwept sg b x s := by
  simp only [sealBand, hfind, hopen, bne_self_eq_false, Bool.false_eq_true, if_false]
  rfl

theorem sealBand_of_not_open {sg b : Nat} {x : Band} {s : State} (hfind : findBand s sg b = some x) (hopen : x.state ≠ .open) :
    sealBand sg b s = s := by
  simp [sealBand, hfind, hopen]

theorem onlyBands_sealSwept (sg b : Nat) (x : Band) (s : State) : OnlyBands s (sealSwept sg b x s) := by
  have hnoted : OnlyBands s (sealNoted sg b x s) := rfl
  unfold sealSwept
  split
  · exact hnoted.trans (onlyBands_startRelocation ..)
  · exact hnoted

theorem findBand_sealNoted (sg b g i : Nat) (x : Band) (s : State) : findBand (sealNoted sg b x s) g i =
    if g = sg ∧ i = b then (findBand s g i).map (sealedAt s.island.minutes) else findBand s g i :=
  findBand_updBand (f := sealedAt s.island.minutes) (fun _ => ⟨rfl, rfl⟩) sg b g i s

/-- Sealing changes one band, which is sealed and may be relocated. -/
theorem sealBand_spec {sg b : Nat} {x : Band} {s : State} (hfind : findBand s sg b = some x) :
    OnlyBands s (sealBand sg b s) ∧ (∀ g i, g ≠ sg ∨ i ≠ b → findBand (sealBand sg b s) g i = findBand s g i) ∧
    ∃ y, findBand (sealBand sg b s) sg b = some y ∧ SealedFrom x y ∧ (x.state = .open → y.state = .sealed ∨ y.state = .reclaiming) := by
  by_cases hopen : x.state = .open
  case neg =>
    rw [sealBand_of_not_open hfind hopen]
    exact ⟨rfl, fun _ _ _ => rfl, x, hfind, .refl x, fun h => absurd h hopen⟩
  rw [sealBand_of_open hfind hopen]
  have hswept : OnlyBands s (sealSwept sg b x s) ∧ (∀ g i, g ≠ sg ∨ i ≠ b → findBand (sealSwept sg b x s) g i = findBand s g i) ∧
      ∃ y, findBand (sealSwept sg b x s) sg b = some y ∧ SealedFrom x y ∧ (y.state = .sealed ∨ y.state = .reclaiming) := by
    refine ⟨onlyBands_sealSwept .., ?_⟩
    have hself : findBand (sealNoted sg b x s) sg b = some (sealedAt s.island.minutes x) := by
      rw [findBand_sealNoted, if_pos ⟨rfl, rfl⟩, hfind, Option.map_some]
    have hother : ∀ g i, g ≠ sg ∨ i ≠ b → findBand (sealNoted sg b x s) g i = findBand s g i := fun g i h => by
      rw [findBand_sealNoted, if_neg (by tauto)]
    have hsealed : SealedFrom x (sealedAt s.island.minutes x) := rfl
    unfold sealSwept
    split
    · refine ⟨fun g i h => ?_, ?_⟩
      · rw [findBand_startRelocation, if_neg (by tauto), hother g i h]
      · obtain ⟨hfrom, hstate⟩ := relocating_sealedFrom .sweep sg b (beforeRelocation sg b (sealNoted sg b x s)) (sealedAt s.island.minutes x)
        exact ⟨_, by rw [findBand_startRelocation, if_pos ⟨rfl, rfl⟩, hself, Option.map_some], hsealed.trans hfrom, hstate⟩
    · exact ⟨hother, _, hself, hsealed, .inl rfl⟩
  obtain ⟨hframe, hother, y, hself, hfrom, hstate⟩ := hswept
  obtain ⟨hrot, hrcl⟩ := onlyBands_rotateActive sg (sealSwept sg b x s)
  split
  · have hbands : ∀ g i, findBand (rotateActive sg (sealSwept sg b x s)) g i = findBand (sealSwept sg b x s) g i := fun g i => by
      rw [findBand, hrcl, ← findBand]
    exact ⟨hframe.trans hrot, fun g i h => (hbands g i).trans (hother g i h), y, (hbands sg b).trans hself, hfrom, fun _ => hstate⟩
  · exact ⟨hframe, hother, y, hself, hfrom, fun _ => hstate⟩

/-! ### Programs of rows -/

/-- From `s` to `t` nothing changed but the states of rows, the journal, the operations of the dies and what was sent. -/
def OnlyRowWork (s t : State) : Prop :=
  t = { s with wr := { s.wr with rows := t.wr.rows }, red := t.red, outs := t.outs
               media := { s.media with ops := t.media.ops, nextOp := t.media.nextOp, dies := t.media.dies } }

theorem OnlyRowWork.refl (s : State) : OnlyRowWork s s := rfl

theorem OnlyRowWork.trans {s t u : State} (h : OnlyRowWork s t) (k : OnlyRowWork t u) : OnlyRowWork s u :=
  Eq.trans k (congrArg (fun x : State => { x with wr := { x.wr with rows := u.wr.rows }, red := u.red, outs := u.outs
                                                  media := { x.media with ops := u.media.ops, nextOp := u.media.nextOp, dies := u.media.dies } }) h)

theorem OnlyRowWork.foldl {α : Type} {f : State → α → State} (h : ∀ s x, OnlyRowWork s (f s x)) :
    ∀ (l : List α) (s : State), OnlyRowWork s (l.foldl f s)
  | [], s => .refl s
  | x :: l, s => (h s x).trans (foldl h l (f s x))

theorem onlyRowWork_of_onlyDies {s t : State} (h : OnlyDies s t) : OnlyRowWork s t := by
  rw [h]
  rfl

/-- Every row of `t` stands under the name of a row of `s`. -/
def RowsFrom (s t : State) : Prop := ∀ q ∈ t.wr.rows, ∃ p ∈ s.wr.rows, ∀ sg b i, isRow sg b i p = isRow sg b i q

theorem RowsFrom.of_eq {s t : State} (h : t.wr.rows = s.wr.rows) : RowsFrom s t := fun q hq => ⟨q, h ▸ hq, fun _ _ _ => rfl⟩

theorem RowsFrom.trans {s t u : State} (h : RowsFrom s t) (k : RowsFrom t u) : RowsFrom s u := fun q hq => by
  obtain ⟨p, hp, hpq⟩ := k q hq
  obtain ⟨o, ho, hop⟩ := h p hp
  exact ⟨o, ho, fun sg b i => (hop sg b i).trans (hpq sg b i)⟩

/-- The pass of a row that the program order allows on one member, issued unless it is queued or its die does not serve. -/
def passIssued (sg b : Nat) (r : Row) (s : State) (m : Nat) : State :=
  match nextPass s r m with
  | none => s
  | some fine =>
    let d := (servingAt s sg b m).1
    if passQueued s r m fine || !dieServes s d then s
    else addOp { blankOp .program (rowClass s r) d with
      sg := sg, band := b, row := r.idx, member := m, fine := fine, words := 4 * unitPages s r.stream
      addr := unitAddr s r m 0 } (emit (.nandProgram d (rowPages s r m)) s)

theorem issuePasses_eq (sg b : Nat) (s : State) : issuePasses sg b s = ((rowsOf s sg b).filter fun r => r.state == .programming).foldl
    (fun s r => (List.range (memberCount s sg)).foldl (passIssued sg b r) s) s := rfl

/-- From `s` to `t` programs were issued, and the rows are as they were. -/
def OnlyPasses (s t : State) : Prop := OnlyRowWork s t ∧ t.wr.rows = s.wr.rows

theorem OnlyPasses.foldl {α : Type} {f : State → α → State} (h : ∀ s x, OnlyPasses s (f s x)) :
    ∀ (l : List α) (s : State), OnlyPasses s (l.foldl f s)
  | [], s => ⟨.refl s, rfl⟩
  | x :: l, s => ⟨(h s x).1.trans (foldl h l _).1, (foldl h l _).2.trans (h s x).2⟩

theorem onlyPasses_passIssued (sg b : Nat) (r : Row) (s : State) (m : Nat) : OnlyPasses s (passIssued sg b r s m) := by
  unfold passIssued
  split
  · exact ⟨rfl, rfl⟩
  · refine iteInduction (motive := OnlyPasses s) (fun _ => ⟨rfl, rfl⟩) fun _ => ?_
    have hemit : ∀ o, OnlyRowWork s (emit o s) := fun _ => rfl
    refine ⟨(hemit _).trans (onlyRowWork_of_onlyDies (onlyDies_addOp _ _)), ?_⟩
    rw [onlyDies_addOp]
    rfl

theorem issuePasses_spec (sg b : Nat) (s : State) : OnlyPasses s (issuePasses sg b s) := by
  rw [issuePasses_eq]
  exact OnlyPasses.foldl (fun s r => OnlyPasses.foldl (onlyPasses_passIssued sg b r) _ s) _ s

/-- A row that starts PROGRAMMING, with its record. -/
def rowStarted (sg b i : Nat) (r : Row) (s : State) : State :=
  rowRecord r 1 (crc64 r.pBytes) (crc64 r.qBytes) { s with wr := { s.wr with rows := s.wr.rows.map fun q =>
    if q.sg == sg && q.band == b && q.idx == i then { q with state := .programming } else q } }

theorem rowStarted_spec (sg b i : Nat) (r : Row) (s : State) : OnlyRowWork s (rowStarted sg b i r s) ∧ RowsFrom s (rowStarted sg b i r s) := by
  refine ⟨rfl, fun q hq => ?_⟩
  obtain ⟨p, hp, rfl⟩ := List.mem_map.1 hq
  exact ⟨p, hp, fun _ _ _ => by split <;> rfl⟩

theorem startPrograms_spec (sg b i : Nat) (s : State) : OnlyRowWork s (startPrograms sg b i s) ∧ RowsFrom s (startPrograms sg b i s) := by
  unfold startPrograms
  split
  case h_1 => exact ⟨rfl, .of_eq rfl⟩
  case h_2 r _ =>
    refine iteInduction (motive := fun z : State => OnlyRowWork s z ∧ RowsFrom s z) (fun _ => ⟨rfl, .of_eq rfl⟩) fun _ => ?_
    obtain ⟨hstart, hrows⟩ := rowStarted_spec sg b i r s
    obtain ⟨hpass, hsame⟩ := issuePasses_spec sg b (rowStarted sg b i r s)
    exact ⟨hstart.trans hpass, hrows.trans (.of_eq hsame)⟩

theorem startClosed_spec (s : State) : OnlyRowWork s (startClosed s) ∧ RowsFrom s (startClosed s) := by
  unfold startClosed
  generalize (s.wr.rows.filter fun r => r.state == .closed) = l
  induction l generalizing s with
  | nil => exact ⟨rfl, .of_eq rfl⟩
  | cons r l ih =>
    obtain ⟨hframe, hrows⟩ := startPrograms_spec r.sg r.band r.idx s
    exact ⟨hframe.trans (ih _).1, hrows.trans (ih _).2⟩

end Sys2Proof.Machine
end

section
/-!
PROOFS. O48: staging an extent and confirming its two copies (R34, R35, R179, R186).
-/
namespace Sys2Proof.Machine
open Sys2Proof

/-! ### One extent changed -/

/-- A change that leaves an extent under the sequence it is found by. -/
def KeepsSeq (f : Ext → Ext) : Prop := ∀ e, (f e).seq = e.seq ∧ (f e).committed = e.committed

theorem findExt_updExt {f : Ext → Ext} (hf : KeepsSeq f) (q p : Nat) (s : State) :
    findExt (updExt q f s) p = if p = q then (findExt s p).map f else findExt s p := by
  have hmap := find?_mapKeyed Ext.seq (fun e : Ext => !e.committed) (h := f) (fun e => ⟨(hf e).1, congrArg _ (hf e).2⟩) q true p true
    s.wr.exts
  simpa only [findExt, updExt, beq_true, and_true] using hmap

theorem findExt_updExt_self {f : Ext → Ext} (hf : KeepsSeq f) {q : Nat} {e : Ext} {s : State} (h : findExt s q = some e) :
    findExt (updExt q f s) q = some (f e) := by
  rw [findExt_updExt hf, if_pos rfl, h, Option.map_some]

theorem findExt_updExt_other {f : Ext → Ext} (hf : KeepsSeq f) {q p : Nat} (h : p ≠ q) (s : State) :
    findExt (updExt q f s) p = findExt s p := by
  rw [findExt_updExt hf, if_neg h]

/-- The step changes one extent and nothing else. -/
theorem updExt_spec {f : Ext → Ext} (hf : KeepsSeq f) {q : Nat} {e : Ext} {s : State} (h : findExt s q = some e) :
    (updExt q f s = { s with wr := { s.wr with exts := (updExt q f s).wr.exts } } ∧
      ∀ p, p ≠ q → findExt (updExt q f s) p = findExt s p) ∧ findExt (updExt q f s) q = some (f e) :=
  ⟨⟨rfl, fun _ hp => findExt_updExt_other hf hp s⟩, findExt_updExt_self hf h⟩

/-! ### What each step makes of its extent -/

/-- What the member tile makes of an extent that it takes. -/
def takenByMember (t : Nat) (s : State) (e : Ext) : Ext :=
  { e with stage := .member, inDram := decide (stageSram s t < sramGrains s t + e.len), mirrorTile := mirrorOf s t }

/-- What the mirror makes of an extent whose copy it stores. -/
def takenByMirror (e : Ext) : Ext := { e with stage := if e.stage == .member then .mirrored else e.stage, mirrorHeld := true }

/-- What the mirror's confirmation makes of an extent. -/
def confirmedByMirror (e : Ext) : Ext := if e.stage == .mirrored then { e with stage := .bothHeld } else e

theorem keepsSeq_takenByMember (t : Nat) (s : State) : KeepsSeq (takenByMember t s) := fun _ => ⟨rfl, rfl⟩
theorem keepsSeq_takenByMirror : KeepsSeq takenByMirror := fun _ => ⟨rfl, rfl⟩
theorem keepsSeq_confirmedByMirror : KeepsSeq confirmedByMirror := fun e => by
  unfold confirmedByMirror
  split <;> exact ⟨rfl, rfl⟩

section
variable {q : Nat} {e : Ext} {s : State}

theorem extentStaged_of_room (hfind : findExt s q = some e) (hsent : e.stage = .sent) (hroom : stagingRoom s (memberTile s e) e.len = true) :
    extentStaged q true s = updExt q (takenByMember (memberTile s e) s) s := by
  simp only [extentStaged, hfind, hsent, hroom, bne_self_eq_false, Bool.not_true, Bool.false_eq_true, if_false]
  rfl

theorem mirrorCopy_of_absent (hfind : findExt s q = none) : mirrorCopy q s = s := by simp [mirrorCopy, hfind]

theorem mirrorCopy_of_passed (hfind : findExt s q = some e) (h : e.stage = .toPlace ∨ e.stage = .sent ∨ e.stage = .closed) :
    mirrorCopy q s = s := by
  obtain h | h | h := h <;> simp [mirrorCopy, hfind, h]

theorem mirrorCopy_of_member (hfind : findExt s q = some e) (h : e.stage = .member) : mirrorCopy q s = updExt q takenByMirror s := by
  simp only [mirrorCopy, hfind, resyncing, h]
  rfl

/-- With the copy of this extent its member has its last copy again. -/
def resyncEnds (q : Nat) (e : Ext) (s : State) : Bool :=
  resyncing e && !((updExt q takenByMirror s).wr.exts.any fun x =>
    resyncing x && memberTile (updExt q takenByMirror s) x == memberTile s e)

/-- The copy of an extent that waits for a new mirror, with the end of the resynchronisation logged where it is the last. -/
theorem mirrorCopy_of_resync (hfind : findExt s q = some e) (h : e.stage = .bothHeld ∨ e.stage = .confirmed) (hheld : e.mirrorHeld = false) :
    mirrorCopy q s = { updExt q takenByMirror s with evr := (mirrorCopy q s).evr } := by
  have hgo : mirrorCopy q s = if resyncEnds q e s then
      logEv .mirrorResync (memberTile s e) [memberTile s e, e.mirrorTile, 1] (updExt q takenByMirror s) else updExt q takenByMirror s := by
    have hopen : ((e.stage != .member && e.mirrorHeld) || e.stage == .toPlace || e.stage == .sent || e.stage == .closed) = false := by
      obtain h | h := h <;> simp [hheld, h]
    simp only [mirrorCopy, hfind, hopen, Bool.false_eq_true, if_false]
    rfl
  rw [hgo]
  exact iteInduction (motive := fun z : State => z = { updExt q takenByMirror s with evr := z.evr }) (fun _ => rfl) fun _ => rfl

theorem stageConfirm_of_bothHeld (hfind : findExt s q = some e) (h : e.stage = .bothHeld) : stageConfirm q s =
    goMap e.cmd (closeRow e.sg e.band e.row (updExt q (fun e => { e with stage := .confirmed }) s)) := by
  simp [stageConfirm, hfind, h]

end

/-! ### The map step of a command whose data is staged -/

/-- An update of a region that nobody has confirmed. -/
def freshUpdate (r : Nat) : Upd :=
  { region := r, firstPos := 0, applied := false, mirrored := false, ownerOk := false, mirrorOk := false, lastPos := 0 }

theorem goMap_of_staged {id : Nat} {c : Cmd} {s : State} (hfind : findCmd s id = some c) (hphase : c.phase = .staging)
    (hstaged : allStaged s c = true) (hmay : mayMap s c = true) (hsome : planRegions s c.cap.nsid c.plan ≠ []) :
    goMap id s = updCmd id (fun c' => { c' with phase := .mapping, updates := (planRegions s c.cap.nsid c.plan).map freshUpdate }) s := by
  have hsend : sendUpdates id s =
      updCmd id (fun c' => { c' with phase := .mapping, updates := (planRegions s c.cap.nsid c.plan).map freshUpdate }) s := by
    simp only [sendUpdates, hfind, hphase, hstaged, hmay, bne_self_eq_false, Bool.not_true, Bool.or_self, Bool.false_eq_true, if_false]
    rfl
  have hnext := findCmd_updCmd s id id
    (f := fun c' => { c' with phase := .mapping, updates := (planRegions s c.cap.nsid c.plan).map freshUpdate }) (fun _ => rfl)
  rw [if_pos rfl, hfind, Option.map_some] at hnext
  have hwaits : (((planRegions s c.cap.nsid c.plan).map freshUpdate).all fun u => u.ownerOk && u.mirrorOk) = false := by
    obtain ⟨r, l, hl⟩ := List.exists_cons_of_ne_nil hsome
    simp [hl, freshUpdate]
  rw [goMap, hsend, afterMap]
  simp only [hnext, hwaits, Bool.not_false, Bool.true_or, if_true]

/-- Settles O48. -/
theorem stagingAndMirrors : Obligations.StagingAndMirrors := by
  unfold Obligations.StagingAndMirrors
  refine ⟨fun q e s hfind => ?_, fun q s hnone => ⟨fun ok => ⟨_, rfl, by simp [extentStaged, hnone]⟩, ⟨_, rfl, mirrorCopy_of_absent hnone⟩,
      _, rfl, by simp [stageConfirm, hnone]⟩,
    fun id c s hfind hphase hstaged hmay hsome => ⟨_, goMap_of_staged hfind hphase hstaged hmay hsome, ?_, fun v hv => ?_⟩⟩
  case refine_1 =>
    refine ⟨fun hsent hroom => ⟨_, congrArg Host.Outcome.next (extentStaged_of_room hfind hsent hroom),
        updExt_spec (keepsSeq_takenByMember _ s) hfind⟩, fun hsent hroom => ⟨_, rfl, by simp [extentStaged, hfind, hsent, hroom]⟩,
      fun c hsent hcmd => ⟨_, rfl, by simp [extentStaged, stagingFails, hfind, hsent, hcmd]⟩,
      fun ok hne => ⟨_, rfl, by simp [extentStaged, hfind, hne]⟩, fun hmember => ?_, fun hwait hheld => ?_,
      fun hpassed => ⟨_, rfl, mirrorCopy_of_passed hfind hpassed⟩,
      ⟨updExt q confirmedByMirror s, rfl, (updExt_spec keepsSeq_confirmedByMirror hfind).1,
        (findExt_updExt_self keepsSeq_confirmedByMirror hfind).trans (by simp [confirmedByMirror])⟩, fun hboth => ⟨_, rfl, stageConfirm_of_bothHeld hfind hboth⟩,
      fun hne => ⟨_, rfl, by simp [stageConfirm, hfind, hne]⟩⟩
    · have hspec := updExt_spec keepsSeq_takenByMirror hfind
      simp only [takenByMirror, hmember, BEq.rfl, if_true] at hspec
      exact ⟨_, congrArg Host.Outcome.next (mirrorCopy_of_member hfind hmember), hspec⟩
    · have hgo := mirrorCopy_of_resync hfind hwait hheld
      obtain ⟨⟨-, hothers⟩, hself⟩ := updExt_spec keepsSeq_takenByMirror hfind
      have hexts : (mirrorCopy q s).wr.exts = (updExt q takenByMirror s).wr.exts := by rw [hgo]
      refine ⟨mirrorCopy q s, rfl, by rw [hgo]; rfl, ?_, fun p hp => ?_⟩
      · rw [findExt, hexts, ← findExt, hself]
        obtain h | h := hwait <;> simp [takenByMirror, h]
      · rw [findExt, hexts, ← findExt, hothers p hp]
  case refine_2 => simp [Function.comp_def, freshUpdate]
  case refine_3 =>
    obtain ⟨r, -, rfl⟩ := List.mem_map.1 hv
    exact ⟨rfl, rfl, rfl, rfl⟩

end Sys2Proof.Machine
end

section
/-!
PROOFS. O49: the rows of a stripe group, from the reservation to the program (R173 to R178, R185, R190, R195, R243).
-/
namespace Sys2Proof.Machine
open Sys2Proof

/-! ### One row changed -/

/-- A change that leaves a row under its name. -/
def KeepsRow (f : Row → Row) : Prop := ∀ r, (f r).sg = r.sg ∧ (f r).band = r.band ∧ (f r).idx = r.idx

theorem isRow_of_findRow {s : State} {sg b i : Nat} {r : Row} (h : findRow s sg b i = some r) : r.sg = sg ∧ r.band = b ∧ r.idx = i := by
  have hrow := List.find?_some h
  simp only [isRow, Bool.and_eq_true, beq_iff_eq] at hrow
  obtain ⟨⟨hsg, hb⟩, hi⟩ := hrow
  exact ⟨hsg, hb, hi⟩

theorem isRow_updRow {f : Row → Row} (hf : KeepsRow f) (sg b i : Nat) (r : Row) (sg' b' i' : Nat) :
    isRow sg' b' i' (if isRow sg b i r then f r else r) = isRow sg' b' i' r := by
  split
  · obtain ⟨hsg, hb, hi⟩ := hf r
    simp [isRow, hsg, hb, hi]
  · rfl

theorem findRow_updRow_self {f : Row → Row} (hf : KeepsRow f) {sg b i : Nat} {r : Row} {s : State} (h : findRow s sg b i = some r) :
    findRow (updRow sg b i f s) sg b i = some (f r) := by
  have hmap := find?_mapKeyed (fun r : Row => (r.sg, r.band)) Row.idx (h := f)
    (fun r => by obtain ⟨hsg, hb, hi⟩ := hf r; exact ⟨by rw [hsg, hb], hi⟩) (sg, b) i (sg, b) i s.wr.rows
  refine Eq.trans hmap ?_
  rw [if_pos ⟨rfl, rfl⟩, show s.wr.rows.find? (fun y => (y.sg, y.band) == (sg, b) && y.idx == i) = some r from h, Option.map_some]

/-! ### The close of a row (R177, R178) -/

/-- A row as it is closed. -/
def rowClosed (min : Nat) (r : Row) : Row :=
  { r with state := .closed, closedMin := min, units := r.units.map fun u => { u with returned := true } }

theorem keepsRow_rowClosed (min : Nat) : KeepsRow (rowClosed min) := fun _ => ⟨rfl, rfl, rfl⟩

/-- The state with a row closed, its pads counted and the close recorded. -/
def rowCloseNoted (sg b i : Nat) (r : Row) (s : State) : State :=
  rowRecord r 0 0 0 (addT (leaderTile s sg) .plc_pad_grains_count (padOf s r) (updRow sg b i (rowClosed s.island.minutes) s))

section
variable {sg b i : Nat} {r : Row} {s : State}

theorem closeRow_of_settled (hfind : findRow s sg b i = some r) (hstate : r.state = .filling)
    (hback : r.expired = true ∨ ∀ v, v ∈ r.units → v.returned = true) (hset : rowSettled s r = true) :
    closeRow sg b i s = rowCloseNoted sg b i r s := by
  have hdue : (r.expired || r.units.all (·.returned)) = true := by
    obtain h | h := hback
    · simp [h]
    · simp [List.all_eq_true.2 h]
  simp only [closeRow, hfind, hstate, hdue, hset, bne_self_eq_false, Bool.not_true, Bool.or_self, Bool.false_eq_true, if_false]
  rfl

theorem closeRow_of_not_settled (hfind : findRow s sg b i = some r)
    (h : r.state ≠ .filling ∨ rowSettled s r = false ∨ (r.expired = false ∧ ∃ v, v ∈ r.units ∧ v.returned = false)) :
    closeRow sg b i s = s := by
  obtain h | h | ⟨hexp, v, hv, hret⟩ := h
  · simp [closeRow, hfind, h]
  · simp [closeRow, hfind, h]
  · have hall : (r.units.all (·.returned)) = false := List.all_eq_false.2 ⟨v, hv, by simp [hret]⟩
    simp [closeRow, hfind, hexp, hall]

theorem findRow_rowCloseNoted (hfind : findRow s sg b i = some r) :
    findRow (rowCloseNoted sg b i r s) sg b i = some (rowClosed s.island.minutes r) :=
  findRow_updRow_self (keepsRow_rowClosed _) hfind

end

/-! ### Parity (R190, R267, R268) -/

/-- A row with a unit folded into its parity. -/
def unitFolded (m : Nat) (d : Bytes) (r : Row) : Row :=
  { r with parity := r.parity ++ [m], pBytes := xorBytes r.pBytes d, qBytes := xorBytes r.qBytes (scaleBytes (gfPow m) d)
           fps := r.fps ++ [(m, crc64 d)] }

theorem keepsRow_unitFolded (m : Nat) (d : Bytes) : KeepsRow (unitFolded m d) := fun _ => ⟨rfl, rfl, rfl⟩

theorem parityUnit_of_taken {sg b i m : Nat} {r : Row} {s : State} (hfind : findRow s sg b i = some r) (hstate : r.state = .closed)
    (hnew : m ∉ r.parity) (hm : m < dataUnits s sg) :
    parityUnit sg b i m (rowUnit s r m) s = startPrograms sg b i (updRow sg b i (unitFolded m (rowUnit s r m)) s) := by
  have hopen : (r.state != .closed || r.parity.contains m || decide (dataUnits s sg ≤ m) || rowUnit s r m != rowUnit s r m) = false := by
    simp [hstate, hnew, hm]
  simp only [parityUnit, hfind]
  rw [if_neg (by simpa using hopen)]
  rfl

theorem parityUnit_of_refused {sg b i m : Nat} {e : Bytes} {r : Row} {s : State} (hfind : findRow s sg b i = some r)
    (h : r.state ≠ .closed ∨ m ∈ r.parity ∨ dataUnits s sg ≤ m ∨ e ≠ rowUnit s r m) : parityUnit sg b i m e s = s := by
  obtain h | h | h | h := h <;> simp [parityUnit, hfind, h]

theorem find?_rowsOf (s : State) (sg b i : Nat) : (rowsOf s sg b).find? (fun r => r.idx == i) = findRow s sg b i := by
  rw [rowsOf, List.find?_filter, findRow]
  congr 1
  funext r
  rw [Bool.eq_iff_iff]
  simp [isRow]

theorem startPrograms_of_short {sg b i : Nat} {r : Row} {s : State} (hfind : findRow s sg b i = some r)
    (h : r.parity.length < dataUnits s sg) : startPrograms sg b i s = s := by
  simp [startPrograms, find?_rowsOf, hfind, h]

/-! ### The end of a row (R178, R180, R195) -/

/-- From `s` to `t` nothing changed but what is counted. -/
def OnlyCounts (s t : State) : Prop := t = { s with clock := { s.clock with meters := t.clock.meters }, health := t.health }

theorem OnlyCounts.trans {s t u : State} (h : OnlyCounts s t) (k : OnlyCounts t u) : OnlyCounts s u :=
  Eq.trans k (congrArg (fun x : State => { x with clock := { x.clock with meters := u.clock.meters }, health := u.health }) h)

theorem onlyCounts_charge (t k : Nat) (p : Payer) (n : Nat) (f : Meter → Meter) (s : State) : OnlyCounts s (charge t k p n f s) := rfl

theorem onlyCounts_chargeCopy (t sg b n : Nat) (f : Meter → Meter) (s : State) : OnlyCounts s (chargeCopy t sg b n f s) := by
  unfold chargeCopy
  split
  · exact onlyCounts_charge ..
  · split <;> exact onlyCounts_charge ..

theorem onlyCounts_chargeExt (t : Nat) (e : Ext) (f : Meter → Meter) (s : State) : OnlyCounts s (chargeExt t e f s) := by
  unfold chargeExt
  split
  · exact onlyCounts_charge ..
  · split
    · exact iteInduction (motive := OnlyCounts s) (fun _ => onlyCounts_charge ..) fun _ => onlyCounts_charge ..
    · exact onlyCounts_chargeCopy ..

theorem OnlyCounts.foldl {α : Type} {f : State → α → State} (h : ∀ s x, OnlyCounts s (f s x)) :
    ∀ (l : List α) (s : State), OnlyCounts s (l.foldl f s)
  | [], _ => rfl
  | x :: l, s => (h s x).trans (foldl h l (f s x))

theorem onlyCounts_meterRow (r : Row) (s : State) : OnlyCounts s (meterRow r s) := by
  unfold meterRow
  extract_lets t n bytes us es g s1 s2
  have h1 : OnlyCounts s s1 := OnlyCounts.foldl (fun s e => onlyCounts_chargeExt ..) es s
  have h2 : OnlyCounts s1 s2 := onlyCounts_charge ..
  have h3 : OnlyCounts s2 (countEgMedia (((s.reg.egs.find? fun e => e.groups.contains r.sg).map (·.id)).getD 0) bytes s2) := rfl
  exact (h1.trans h2).trans h3

theorem onlyHostSide_drainPump (s : State) : OnlyHostSide s (drainPump s) := by
  unfold drainPump
  refine onlyHostSide_foldl _ (fun s id => ?_) _ s
  split
  · refine iteInduction (motive := OnlyHostSide s) (fun _ => .refl s) fun _ => ?_
    refine iteInduction (motive := OnlyHostSide s) (fun _ => ?_) fun _ => ?_
    · exact iteInduction (motive := OnlyHostSide s) (fun _ => onlyHostSide_finishCmd ..) fun _ => .refl s
    · refine iteInduction (motive := OnlyHostSide s) (fun _ => .refl s) fun _ => ?_
      exact iteInduction (motive := OnlyHostSide s) (fun _ => onlyHostSide_finishCmd ..) fun _ => .refl s
  · exact .refl s

/-- An extent has left the port tile for a row. -/
def inRow (sg b i : Nat) (e : Ext) : Bool := e.sg == sg && e.band == b && e.row == i && e.stage != .toPlace

/-- The state with a row's extents in flash. -/
def rowFlashed (sg b i : Nat) (s : State) : State :=
  { s with
    rcl := { s.rcl with flash := s.rcl.flash ++ (s.wr.exts.filter (inRow sg b i)).map (Ext.inFlash · []) }
    wr := { s.wr with
      exts := (s.wr.exts.filter fun e => !(inRow sg b i e && e.src.isNone)).map fun e =>
        if inRow sg b i e then { e with stage := .closed } else e } }

theorem releaseRow_eq (sg b i : Nat) (s : State) : releaseRow sg b i s = drainPump (rowFlashed sg b i s) := rfl

/-- A programmed row's extents join those in flash; rows and bands stay. -/
theorem releaseRow_spec (sg b i : Nat) (s : State) :
    (releaseRow sg b i s).rcl = { s.rcl with flash := s.rcl.flash ++ (s.wr.exts.filter (inRow sg b i)).map (Ext.inFlash · []) } ∧
    (releaseRow sg b i s).wr.rows = s.wr.rows := by
  obtain ⟨hside, -⟩ := onlyHostSide_drainPump (rowFlashed sg b i s)
  rw [releaseRow_eq, hside]
  exact ⟨rfl, rfl⟩

/-- The state once a row is programmed: its extents in flash, the row gone, one more row in its band. -/
def rowReleased (sg b i : Nat) (r : Row) (s : State) : State :=
  updBand sg b (fun x => { x with rows := x.rows + 1 }) (reportRow r (releaseRow sg b i { meterRow r s with wr := { s.wr with
    rows := s.wr.rows.filter fun q => !isRow sg b i q } }))

theorem rowReleased_spec {sg b i : Nat} {r : Row} {x : Band} {s : State} (hband : findBand s sg b = some x) :
    (∀ q ∈ (rowReleased sg b i r s).wr.rows, isRow sg b i q = false) ∧
    findBand (rowReleased sg b i r s) sg b = some { x with rows := x.rows + 1 } ∧
    (rowReleased sg b i r s).rcl.flash = s.rcl.flash ++ (s.wr.exts.filter (inRow sg b i)).map (Ext.inFlash · []) := by
  obtain ⟨hrcl, hrows⟩ := releaseRow_spec sg b i { meterRow r s with wr := { s.wr with
    rows := s.wr.rows.filter fun q => !isRow sg b i q } }
  have hcounts : (meterRow r s).rcl = s.rcl := by rw [onlyCounts_meterRow r s]
  refine ⟨fun q hq => ?_, ?_, ?_⟩
  · have hq' := (congrArg (q ∈ ·) hrows).mp hq
    simpa using (List.mem_filter.1 hq').2
  · have hbands : (releaseRow sg b i { meterRow r s with wr := { s.wr with
        rows := s.wr.rows.filter fun q => !isRow sg b i q } }).rcl.bands = s.rcl.bands := by rw [hrcl, hcounts]
    have hfind : findBand (reportRow r (releaseRow sg b i { meterRow r s with wr := { s.wr with
        rows := s.wr.rows.filter fun q => !isRow sg b i q } })) sg b = some x := by
      rw [← hband, findBand, findBand, ← hbands]
      rfl
    rw [rowReleased, findBand_updBand (f := fun x => { x with rows := x.rows + 1 }) (fun _ => ⟨rfl, rfl⟩), if_pos ⟨rfl, rfl⟩, hfind,
      Option.map_some]
  · exact (congrArg ReclaimState.flash hrcl).trans (by rw [hcounts])

/-- The band of a programmed row is sealed with its last row, or early with the last row in hand. -/
def bandFull (sg b : Nat) (x : Band) (s t : State) : Bool :=
  x.rows + 1 == rowsPerBand s || (x.early && !(t.wr.rows.any fun q => q.sg == sg && q.band == b))

theorem rowProgrammed_of_done {sg b i : Nat} {r : Row} {x : Band} {s : State} (hrow : findRow s sg b i = some r)
    (hband : findBand s sg b = some x) (hstate : r.state = .programming) (hdone : membersDone s r = true) (hset : r.settled = true) :
    rowProgrammed sg b i s = startClosed (if bandFull sg b x s (rowReleased sg b i r s) then sealBand sg b (rowReleased sg b i r s)
      else rowReleased sg b i r s) := by
  simp only [rowProgrammed, hrow, hband, hstate, hdone, hset, bne_self_eq_false, Bool.not_true, Bool.or_self, Bool.false_eq_true, if_false]
  rfl

theorem rowProgrammed_spec {sg b i : Nat} {r : Row} {x : Band} {s : State} (hrow : findRow s sg b i = some r)
    (hband : findBand s sg b = some x) (hstate : r.state = .programming) (hdone : membersDone s r = true) (hset : r.settled = true) :
    (∀ q ∈ (rowProgrammed sg b i s).wr.rows, isRow sg b i q = false) ∧
    (∃ y, findBand (rowProgrammed sg b i s) sg b = some y ∧ y.rows = x.rows + 1 ∧
      (x.rows + 1 = rowsPerBand s → x.state = .open → y.state = .sealed ∨ y.state = .reclaiming)) ∧
    (rowProgrammed sg b i s).rcl.flash = s.rcl.flash ++ (s.wr.exts.filter (inRow sg b i)).map (Ext.inFlash · []) := by
  rw [rowProgrammed_of_done hrow hband hstate hdone hset]
  obtain ⟨hrows, hfind, hflash⟩ := rowReleased_spec (i := i) (r := r) hband
  obtain ⟨hframe, -, y, hy, hfrom, hsealed⟩ := sealBand_spec hfind
  have hmid : ∃ t, (if bandFull sg b x s (rowReleased sg b i r s) then sealBand sg b (rowReleased sg b i r s)
      else rowReleased sg b i r s) = t ∧ (∀ q ∈ t.wr.rows, isRow sg b i q = false) ∧ (∃ y, findBand t sg b = some y ∧ y.rows = x.rows + 1 ∧
      (x.rows + 1 = rowsPerBand s → x.state = .open → y.state = .sealed ∨ y.state = .reclaiming)) ∧
      t.rcl.flash = s.rcl.flash ++ (s.wr.exts.filter (inRow sg b i)).map (Ext.inFlash · []) := by
    refine ⟨_, rfl, ?_⟩
    split
    case isTrue hfull =>
      have hrows' : (sealBand sg b (rowReleased sg b i r s)).wr.rows = (rowReleased sg b i r s).wr.rows := by rw [hframe]
      have hflash' : (sealBand sg b (rowReleased sg b i r s)).rcl.flash = (rowReleased sg b i r s).rcl.flash := by rw [hframe]
      exact ⟨by rwa [hrows'], ⟨y, hy, by rw [hfrom], fun _ => hsealed⟩, hflash'.trans hflash⟩
    case isFalse hfull =>
      refine ⟨hrows, ⟨_, hfind, rfl, fun hlast => absurd ?_ hfull⟩, hflash⟩
      simp [bandFull, hlast]
  obtain ⟨t, ht, htrows, ⟨y, hy, hyrows, hysealed⟩, htflash⟩ := hmid
  rw [ht]
  obtain ⟨hwork, hfrom⟩ := startClosed_spec t
  refine ⟨fun q hq => ?_, ⟨y, ?_, hyrows, hysealed⟩, ?_⟩
  · obtain ⟨p, hp, hpq⟩ := hfrom q hq
    exact (hpq sg b i).symm.trans (htrows p hp)
  · rw [hwork]
    exact hy
  · rw [hwork]
    exact htflash

/-! ### A row whose program fails (R185, R193, R195) -/

theorem onlyDieTime_finishDieOp (d : Nat) (k : OpKind) (s : State) : OnlyDieTime s (finishDieOp d k s) := by
  unfold finishDieOp
  split
  · rfl
  · exact (onlyDies_dropOp _ s).onlyDieTime.trans (onlyDieTime_endArray _ _)

/-- An extent of a row that is placed anew. -/
def inFailed (sg b i : Nat) (e : Ext) : Bool :=
  e.sg == sg && e.band == b && decide (i ≤ e.row) && e.stage != .toPlace && e.stage != .closed

/-- An extent as it is placed anew in another group. -/
def movedTo (port other : Nat) (e : Ext) : Ext :=
  { e with src := some (e.src.getD e.addr), stream := .relocate, port := port, sg := other, stage := .toPlace, replacing := true }

/-- The state with a row and the later ones of its band taken back. -/
def rowsTakenBack (sg b i : Nat) (s : State) : State :=
  { s with
    wr := { s.wr with
      rows := s.wr.rows.filter fun q => !(q.sg == sg && q.band == b && decide (i ≤ q.idx))
      exts := s.wr.exts.map fun e => if inFailed sg b i e then movedTo (leaderTile s (otherGroup s sg)) (otherGroup s sg) e else e }
    media := { s.media with
      ops := s.media.ops.filter fun o =>
        !(o.kind == .program && o.state == .waiting && o.sg == sg && o.band == b && decide (i ≤ o.row)) } }

theorem reprogramRow_of_found {sg b i : Nat} {r : Row} {s : State} (hrow : findRow s sg b i = some r) :
    reprogramRow sg b i s = sealBand sg b (updBand sg b (fun x => { x with early := true }) (rowsTakenBack sg b i s)) := by
  simp only [reprogramRow, hrow]
  rfl

theorem not_inFailed {sg b i : Nat} {e : Ext} (h : inFailed sg b i e = false) (hsg : e.sg = sg) (hb : e.band = b) (hi : i ≤ e.row) :
    e.stage = .toPlace ∨ e.stage = .closed := by
  simp only [inFailed, hsg, hb, BEq.rfl, hi, decide_true, Bool.true_and, Bool.and_eq_false_iff, bne_eq_false_iff_eq] at h
  exact h

/-- The state in which a program failure is logged and its member is marked to retire. -/
def programFailNoted (sg b m : Nat) (s : State) : State :=
  logEv .progFail (tileOfDie (servingAt s sg b m).1) [(servingAt s sg b m).1, (servingAt s sg b m).2]
    (updBand sg b (fun x => { x with retireMembers := (m :: x.retireMembers).eraseDups }) s)

theorem programFailed_of_programming {sg b i m : Nat} {r : Row} {s : State} (hrow : findRow s sg b i = some r)
    (hstate : r.state = .programming) : programFailed sg b i m s =
      countLife 2 (finishDieOp (servingAt s sg b m).1 .program (reprogramRow sg b i (programFailNoted sg b m s))) := by
  simp only [programFailed, hrow, hstate, bne_self_eq_false, Bool.false_eq_true, if_false]
  rfl

theorem programFailed_spec {sg b i m : Nat} {r : Row} {x : Band} {s : State} (hrow : findRow s sg b i = some r)
    (hband : findBand s sg b = some x) (hstate : r.state = .programming) :
    (programFailed sg b i m s).wr.rows = (rowsTakenBack sg b i (programFailNoted sg b m s)).wr.rows ∧
    (programFailed sg b i m s).wr.exts = (rowsTakenBack sg b i (programFailNoted sg b m s)).wr.exts ∧
    (∃ y, findBand (programFailed sg b i m s) sg b = some y ∧ m ∈ y.retireMembers ∧ y.early = true) ∧
    (programFailed sg b i m s).host.cmds = s.host.cmds ∧
    (programFailed sg b i m s).evr.raised = (programFailNoted sg b m s).evr.raised := by
  rw [programFailed_of_programming hrow hstate, reprogramRow_of_found (s := programFailNoted sg b m s) (r := r) hrow]
  have hfind : findBand (updBand sg b (fun x => { x with early := true }) (rowsTakenBack sg b i (programFailNoted sg b m s))) sg b =
      some { x with retireMembers := (m :: x.retireMembers).eraseDups, early := true } := by
    have hretire := findBand_updBand (f := fun x => { x with retireMembers := (m :: x.retireMembers).eraseDups }) (fun _ => ⟨rfl, rfl⟩)
      sg b sg b s
    rw [if_pos ⟨rfl, rfl⟩, hband, Option.map_some] at hretire
    rw [findBand_updBand (f := fun x => { x with early := true }) (fun _ => ⟨rfl, rfl⟩), if_pos ⟨rfl, rfl⟩]
    exact congrArg (Option.map _) hretire
  obtain ⟨hframe, -, y, hy, hfrom, -⟩ := sealBand_spec hfind
  set w := sealBand sg b (updBand sg b (fun x => { x with early := true }) (rowsTakenBack sg b i (programFailNoted sg b m s)))
  have htime := onlyDieTime_finishDieOp (servingAt s sg b m).1 .program w
  have hbands : findBand (finishDieOp (servingAt s sg b m).1 .program w) sg b = some y := by
    rw [htime]
    exact hy
  refine ⟨?_, ?_, ⟨y, hbands, by rw [hfrom]; simp, by rw [hfrom]⟩, ?_, ?_⟩
  · rw [countLife_wr, htime, hframe]; rfl
  · rw [countLife_wr, htime, hframe]; rfl
  · rw [countLife_host, htime, hframe]; rfl
  · rw [countLife_evr, htime, hframe]; rfl

/-! ### Pad rows (R184, R243) -/

/-- The row that a band opens next. -/
def rowOpened (b : Band) (s : State) : Row :=
  { sg := b.sg, band := b.idx, idx := b.nextRow, stream := b.stream, state := .filling
    units := (List.range (dataUnits s b.sg)).map fun m => { member := m, holder := none, used := 0, returned := false, recalled := false }
    timer := false, expired := false, parity := [], pBytes := [], qBytes := [], fps := [], done := []
    settled := false, coarse := [], closedMin := 0 }

/-- A row whose units are all returned, as a pad row is. -/
def rowPadded (r : Row) : Row := { r with expired := true, units := r.units.map fun u => { u with returned := true } }

theorem newRow_eq (b : Band) (s : State) : newRow b s = updBand b.sg b.idx (fun b => { b with nextRow := b.nextRow + 1 })
    { s with wr := { s.wr with rows := s.wr.rows ++ [rowOpened b s] } } := rfl

section
variable {sg : Nat} {st : Stream} {b : Band} {s : State}

theorem of_openBand (h : openBand s sg st = some b) : b.sg = sg ∧ b.stream = st := by
  have hb := List.find?_some h
  simp only [Bool.and_eq_true, beq_iff_eq] at hb
  obtain ⟨⟨⟨⟨hsg, hst⟩, -⟩, -⟩, -⟩ := hb
  exact ⟨hsg, hst⟩

theorem fillingRow_newRow (hsg : b.sg = sg) (hst : b.stream = st) (hnone : fillingRow s sg st = none) :
    fillingRow (newRow b s) sg st = some (rowOpened b s) := by
  refine List.find?_append.trans ?_
  rw [show s.wr.rows.find? (fun r => r.sg == sg && r.stream == st && r.state == .filling) = none from hnone, Option.none_or]
  exact List.find?_cons_of_pos (by simp [hsg, hst])

theorem findRow_newRow (hsg : b.sg = sg) (hnone : findRow s sg b.idx b.nextRow = none) :
    findRow (newRow b s) sg b.idx b.nextRow = some (rowOpened b s) := by
  refine List.find?_append.trans ?_
  rw [show s.wr.rows.find? (isRow sg b.idx b.nextRow) = none from hnone, Option.none_or]
  exact List.find?_cons_of_pos (by simp [isRow, hsg])

/-- Where a pad row is due it is opened and closed at once. -/
theorem seqPad_of_due (hwait : ∃ r, r ∈ s.wr.rows ∧ r.sg = sg ∧ r.stream = st ∧ r.state = .programming ∧ r.settled = false)
    (hfill : fillingRow s sg st = none) (hopen : openBand s sg st = some b) (hroom : b.nextRow < rowsPerBand s) :
    seqPad sg st s = closeRow sg b.idx b.nextRow (updRow sg b.idx b.nextRow rowPadded (newRow b s)) := by
  obtain ⟨hsg, hst⟩ := of_openBand hopen
  obtain ⟨r, hr, hrsg, hrst, hstate, hset⟩ := hwait
  have hany : (s.wr.rows.any fun r => r.sg == sg && r.stream == st && r.state == .programming && !r.settled) = true :=
    List.any_eq_true.2 ⟨r, hr, by simp [hrsg, hrst, hstate, hset]⟩
  simp only [seqPad, hany, hfill, Option.isNone_none, Bool.and_self, if_true, hopen, hroom, fillingRow_newRow hsg hst hfill]
  rfl

theorem seqPad_of_not_due (h : (∀ r, r ∈ s.wr.rows → r.sg = sg → r.stream = st → r.state = .programming → r.settled = true) ∨
    (fillingRow s sg st).isSome = true ∨ openBand s sg st = none) : seqPad sg st s = s := by
  obtain h | h | h := h
  · have hany : (s.wr.rows.any fun r => r.sg == sg && r.stream == st && r.state == .programming && !r.settled) = false := by
      refine List.any_eq_false.2 fun r hr hcond => ?_
      simp only [Bool.and_eq_true, beq_iff_eq, Bool.not_eq_true'] at hcond
      obtain ⟨⟨⟨hsg, hst⟩, hstate⟩, hset⟩ := hcond
      simp [h r hr hsg hst hstate] at hset
    simp [seqPad, hany]
  · obtain ⟨r, hr⟩ := Option.isSome_iff_exists.1 h
    simp [seqPad, hr]
  · simp [seqPad, h]

end

/-! ### Reservations (R176) -/

/-- The active groups once one takes host writes. -/
def activeWith (s : State) (sg : Nat) (st : Stream) : List Nat :=
  if hostOnly st && !s.wr.active.contains sg then s.wr.active ++ [sg] else s.wr.active

theorem mem_activeWith {s : State} {sg : Nat} {st : Stream} (g : Nat) :
    g ∈ activeWith s sg st ↔ g ∈ s.wr.active ∨ (hostOnly st = true ∧ g = sg) := by
  unfold activeWith
  cases hst : hostOnly st
  · simp
  · by_cases hin : sg ∈ s.wr.active
    · have hyes : s.wr.active.contains sg = true := List.contains_iff_mem.2 hin
      rw [hyes, Bool.not_true, Bool.and_false, if_neg Bool.false_ne_true]
      exact ⟨.inl, fun h => h.elim id fun h => h.2 ▸ hin⟩
    · simp [hin]

theorem reserve_of_free {t sg : Nat} {st : Stream} {blank : List Nat} {r : Row} {v : RUnit} {s : State} (hfill : fillingRow s sg st = some r)
    (hunit : nextUnit r = some v) (hheld : (heldUnits s t st).length < 2) (hnone : ∀ x, x ∈ heldUnits s t st → x.1.sg ≠ sg)
    (hon : s.tfld t .plc_cfg_plc_enable = 1) (hhost : hostOnly st = true → hostGroup s sg = true) :
    reserve t sg st blank s = placeWaiting t (updRow sg r.band r.idx (fun r => { r with units := r.units.map fun w =>
      if w.member == v.member then { w with holder := some t } else w }) { s with wr := { s.wr with active := activeWith s sg st } }) := by
  have hsame : ((heldUnits s t st).any fun x => x.1.sg == sg) = false :=
    List.any_eq_false.2 fun x hx => by simpa using hnone x hx
  have hgroup : (hostOnly st && !hostGroup s sg) = false := by
    cases hst : hostOnly st
    · rfl
    · simp [hhost hst]
  simp only [reserve, Nat.not_le.2 hheld, hsame, hon, hgroup, decide_false, Bool.false_and, Bool.or_self, bne_self_eq_false,
    Bool.false_eq_true, if_false, hfill, Option.isSome_some, if_true, hunit]
  rfl

theorem reserve_of_refused {t sg : Nat} {st : Stream} {blank : List Nat} {s : State} (h : 2 ≤ (heldUnits s t st).length ∨
    s.tfld t .plc_cfg_plc_enable ≠ 1 ∨ (hostOnly st = true ∧ hostGroup s sg = false)) : reserve t sg st blank s = s := by
  obtain h | h | ⟨h, h'⟩ := h
  · simp [reserve, h]
  · simp [reserve, h]
  · simp [reserve, h, h']

/-- A failed program re-places what its row and the later ones of the band hold, and marks the member (R208). -/
theorem programFailure_spec {sg b i m : Nat} {r : Row} {x : Band} {s : State} (hrow : findRow s sg b i = some r)
    (hband : findBand s sg b = some x) (hstate : r.state = .programming) : Next (.programFailure sg b i m) s fun u =>
      (∀ q, q ∈ u.wr.rows → q.sg = sg → q.band = b → q.idx < i) ∧
      (∀ e, e ∈ u.wr.exts → e.sg = sg → e.band = b → i ≤ e.row → e.stage = .toPlace ∨ e.stage = .closed) ∧
      (∃ y, findBand u sg b = some y ∧ m ∈ y.retireMembers ∧ y.early = true) ∧ u.host.cmds = s.host.cmds ∧
      { ev := .progFail, tile := tileOfDie (servingAt s sg b m).1, params := [(servingAt s sg b m).1, (servingAt s sg b m).2] } ∈ u.evr.raised := by
  obtain ⟨hrows, hexts, hretire, hcmds, hraised⟩ := programFailed_spec (m := m) hrow hband hstate
  refine ⟨programFailed sg b i m s, rfl, fun q hq hsg hb => ?_, fun e he hsg hb hi => ?_, hretire, hcmds, ?_⟩
  · rw [hrows] at hq
    have hkeep := (List.mem_filter.1 hq).2
    simpa [hsg, hb] using hkeep
  · rw [hexts] at he
    obtain ⟨e', he', rfl⟩ := List.mem_map.1 he
    by_cases h : inFailed sg b i e' = true
    · rw [if_pos h]
      exact .inl rfl
    · rw [if_neg h] at hsg hb hi ⊢
      exact not_inFailed (by simpa using h) hsg hb hi
  · rw [hraised]
    exact List.mem_append_right _ (List.mem_singleton.2 rfl)

/-- From `s` to `t` only rows, bands, register fields and the journals changed. -/
def OnlyPad (s t : State) : Prop :=
  t = { s with regs := t.regs, wr := { s.wr with rows := t.wr.rows }, rcl := { s.rcl with bands := t.rcl.bands }, red := t.red }

theorem OnlyPad.trans {s t u : State} (h : OnlyPad s t) (k : OnlyPad t u) : OnlyPad s u :=
  Eq.trans k (congrArg (fun x : State => { x with
    regs := u.regs, wr := { x.wr with rows := u.wr.rows }, rcl := { x.rcl with bands := u.rcl.bands }, red := u.red }) h)

theorem onlyPad_newRow (b : Band) (s : State) : OnlyPad s (newRow b s) := rfl

theorem onlyPad_updRow (sg b i : Nat) (f : Row → Row) (s : State) : OnlyPad s (updRow sg b i f s) := rfl

theorem onlyPad_rowCloseNoted (sg b i : Nat) (r : Row) (s : State) : OnlyPad s (rowCloseNoted sg b i r s) := rfl

/-- The state with an empty row opened and closed at once. -/
def padNoted (sg : Nat) (b : Band) (s : State) : State :=
  rowCloseNoted sg b.idx b.nextRow (rowPadded (rowOpened b s)) (updRow sg b.idx b.nextRow rowPadded (newRow b s))

theorem onlyPad_padNoted (sg : Nat) (b : Band) (s : State) : OnlyPad s (padNoted sg b s) :=
  ((onlyPad_newRow b s).trans (onlyPad_updRow ..)).trans (onlyPad_rowCloseNoted ..)

theorem findBand_padNoted (sg : Nat) (b : Band) (s : State) (g i : Nat) : findBand (padNoted sg b s) g i = findBand (newRow b s) g i := rfl

theorem findBand_newRow {b : Band} {s : State} (hband : findBand s b.sg b.idx = some b) :
    findBand (newRow b s) b.sg b.idx = some { b with nextRow := b.nextRow + 1 } := by
  rw [newRow_eq, findBand_updBand (f := fun b => { b with nextRow := b.nextRow + 1 }) (fun _ => ⟨rfl, rfl⟩), if_pos ⟨rfl, rfl⟩]
  exact congrArg (Option.map _) hband

theorem seqPad_eq_padNoted {sg : Nat} {st : Stream} {b : Band} {s : State}
    (hwait : ∃ r, r ∈ s.wr.rows ∧ r.sg = sg ∧ r.stream = st ∧ r.state = .programming ∧ r.settled = false)
    (hfill : fillingRow s sg st = none) (hopen : openBand s sg st = some b)
    (hroom : b.nextRow < rowsPerBand s) (hfree : findRow s sg b.idx b.nextRow = none)
    (hexts : ∀ e, e ∈ s.wr.exts → e.sg = sg → e.band = b.idx → e.row ≠ b.nextRow) :
    seqPad sg st s = padNoted sg b s ∧ findRow (padNoted sg b s) sg b.idx b.nextRow =
      some (rowClosed s.island.minutes (rowPadded (rowOpened b s))) := by
  obtain ⟨hsg, -⟩ := of_openBand hopen
  have hpadded := findRow_updRow_self (f := rowPadded) (fun _ => ⟨rfl, rfl, rfl⟩) (findRow_newRow hsg hfree)
  have hnil : (s.wr.exts.filter fun e => e.sg == b.sg && e.band == b.idx && e.row == b.nextRow && e.stage != .toPlace) = [] :=
    List.filter_eq_nil_iff.2 fun e he hcond => by
      simp only [Bool.and_eq_true, beq_iff_eq] at hcond
      obtain ⟨⟨⟨h1, h2⟩, h3⟩, -⟩ := hcond
      exact hexts e he (h1.trans hsg) h2 h3
  have hset : rowSettled (updRow sg b.idx b.nextRow rowPadded (newRow b s)) (rowPadded (rowOpened b s)) = true :=
    congrArg (fun l : List Ext => l.all fun e => e.stage == .confirmed || e.stage == .closed) hnil
  exact ⟨(seqPad_of_due hwait hfill hopen hroom).trans (closeRow_of_settled hpadded rfl (.inl rfl) hset), findRow_rowCloseNoted hpadded⟩

/-- A due pad opens an empty row, closed at once, and the band's next row moves on (R205). -/
theorem seqPad_spec {sg : Nat} {st : Stream} {b : Band} {s : State}
    (hwait : ∃ r, r ∈ s.wr.rows ∧ r.sg = sg ∧ r.stream = st ∧ r.state = .programming ∧ r.settled = false)
    (hfill : fillingRow s sg st = none) (hopen : openBand s sg st = some b) (hband : findBand s sg b.idx = some b)
    (hroom : b.nextRow < rowsPerBand s) (hfree : findRow s sg b.idx b.nextRow = none)
    (hexts : ∀ e, e ∈ s.wr.exts → e.sg = sg → e.band = b.idx → e.row ≠ b.nextRow) :
    Next (.seqPadTimer sg st) s fun u => ∃ r, findRow u sg b.idx b.nextRow = some r ∧ r.state = .closed ∧ r.stream = st ∧
      (∀ v, v ∈ r.units → v.returned = true ∧ v.used = 0) ∧
      findBand u sg b.idx = some { b with nextRow := b.nextRow + 1 } ∧
      u = { s with regs := u.regs, wr := { s.wr with rows := u.wr.rows }, rcl := { s.rcl with bands := u.rcl.bands }, red := u.red } := by
  obtain ⟨hsg, hst⟩ := of_openBand hopen
  obtain ⟨hgo, hrow⟩ := seqPad_eq_padNoted hwait hfill hopen hroom hfree hexts
  refine ⟨_, congrArg Host.Outcome.next hgo, _, hrow, rfl, hst, fun v hv => ?_, ?_, onlyPad_padNoted sg b s⟩
  · simp only [rowClosed, rowPadded, rowOpened, List.map_map, List.mem_map] at hv
    obtain ⟨k, -, rfl⟩ := hv
    exact ⟨rfl, rfl⟩
  · subst hsg
    exact (findBand_padNoted ..).trans (findBand_newRow hband)

/-- Settles O49. -/
theorem rowsOfAGroup : Obligations.RowsOfAGroup := by
  unfold Obligations.RowsOfAGroup
  refine ⟨fun t sg st blank r v s hfill hunit hheld hnone hon hhost => ⟨_, rfl, activeWith s sg st, mem_activeWith,
      reserve_of_free hfill hunit hheld hnone hon hhost⟩, fun t sg st blank s h => ⟨_, rfl, reserve_of_refused h⟩,
    fun t sg m st r s hfill => ⟨fun hheld => ?_, fun htimer => ⟨_, rfl, by simp [rowTimer, hfill, htimer]⟩,
      fun htimer => ⟨_, rfl, by simp [rowTimer, hfill, htimer]⟩⟩,
    fun t sg m st s hnone => ⟨⟨_, rfl, by simp [unitReturn, hnone]⟩, _, rfl, by simp [rowTimer, hnone]⟩,
    fun sg b i r s hrow => ⟨fun hstate hback hset => ?_, closeRow_of_not_settled hrow⟩,
    fun sg b i m r s hrow => ⟨fun hstate hnew hm hshort => ?_, fun hstate hnew hm hlast => ⟨_, rfl, parityUnit_of_taken hrow hstate hnew hm⟩,
      fun e h => ⟨_, rfl, parityUnit_of_refused hrow h⟩⟩,
    fun sg b i r x s hrow hband => ⟨fun hstate hdone hset => ?_, fun h => ⟨_, rfl, ?_⟩⟩,
    fun sg b i m r x s hrow hband => ⟨programFailure_spec hrow hband,
      fun hstate => ⟨_, rfl, by simp [programFailed, hrow, hstate]⟩⟩,
    fun sg st b s hwait hfill hopen hband hroom hfree hexts => seqPad_spec hwait hfill hopen hband hroom hfree hexts,
    fun sg st s h => ⟨_, rfl, seqPad_of_not_due h⟩⟩
  case refine_1 =>
    obtain ⟨v, hv, hm, hholder, hret⟩ := hheld
    have hany : (r.units.any fun u => u.member == m && u.holder == some t && !u.returned) = true :=
      List.any_eq_true.2 ⟨v, hv, by simp [hm, hholder, hret]⟩
    exact ⟨_, rfl, by simp [unitReturn, hfill, hany]⟩
  case refine_2 =>
    rw [closeRow_of_settled hrow hstate hback hset]
    exact findRow_rowCloseNoted hrow
  case refine_3 =>
    have hfold := findRow_updRow_self (keepsRow_unitFolded m (rowUnit s r m)) hrow
    have hgo : parityUnit sg b i m (rowUnit s r m) s = updRow sg b i (unitFolded m (rowUnit s r m)) s := by
      rw [parityUnit_of_taken hrow hstate hnew hm]
      have hlen : (unitFolded m (rowUnit s r m) r).parity.length < dataUnits s sg := by simpa [unitFolded] using hshort
      exact startPrograms_of_short hfold hlen
    exact ⟨_, congrArg Host.Outcome.next hgo, rfl, hfold⟩
  case refine_4 =>
    obtain ⟨hrows, ⟨y, hy, hyrows, hysealed⟩, hflash⟩ := rowProgrammed_spec hrow hband hstate hdone hset
    refine ⟨rowProgrammed sg b i s, rfl, hrows, by rw [hy, Option.map_some, hyrows], fun hlast hopen => ⟨y, hy, hysealed hlast hopen⟩,
      fun e he hsg hb hi hstage => ⟨e.inFlash [], ?_, rfl, rfl, rfl, rfl, rfl⟩⟩
    rw [hflash]
    exact List.mem_append_right _ (List.mem_map.2 ⟨e, List.mem_filter.2 ⟨he, by simp [inRow, hsg, hb, hi, hstage]⟩, rfl⟩)
  case refine_5 => obtain h | h | h := h <;> simp [rowProgrammed, hrow, hband, h]

end Sys2Proof.Machine
end

section
/-!
PROOFS. The end of an array read (R84, R254) where two operations stand under one number: each goes on by what the first of them still has
to read, not by its own count.
-/
namespace Sys2Proof.Machine
open Sys2Proof

/-- A plain read of die 0 that decodes on the soft lanes. -/
def softRead (id reads : Nat) (st : OpState) : DieOp :=
  { blankOp .read .h0 0 with id := id, state := st, step := 3, reads := reads }

/-- Two operations numbered 0, the first with one read to come and the second with two, and both soft lanes busy. -/
def twinReads : State :=
  { State.reset with media := { State.reset.media with
      ops := [softRead 0 1 .active, softRead 0 2 .active, softRead 1 1 .decoding, softRead 2 1 .decoding] } }

/-- What the statement takes the operations to be once the array read of number 0 has ended, and each counts its own reads. -/
def ownCounts (x : DieOp) (s : State) : State :=
  codecTake (tileOfDie x.die) (endArray x (updBlk x.die (servedFrom s x.addr).2 (fun k => { k with reads := k.reads + 1 })
    (updOp 0 (fun x => { x with
      reads := x.reads - 1, waited := false, state := if 1 < x.reads then .waiting else .toDecode }) s)))

theorem states_nandReadDone_twinReads :
    (nandReadDone 0 twinReads).media.ops.map (·.state) = [.toDecode, .toDecode, .decoding, .decoding] := by decide +kernel

theorem states_ownCounts_twinReads :
    (ownCounts (softRead 0 1 .active) twinReads).media.ops.map (·.state) = [.toDecode, .waiting, .decoding, .decoding] := by decide +kernel

/-- Refutes O52, by its first clause: in `twinReads` the second operation numbered 0 goes to the decoder with the first, though it has a
read of its own to come. -/
theorem not_dieOperations : ¬ Obligations.DieOperations := by
  unfold Obligations.DieOperations
  rintro ⟨hread, -⟩
  obtain ⟨hplain, -⟩ := hread 0 (softRead 0 1 .active) twinReads (by decide +kernel)
  obtain ⟨u, hu, heq⟩ := hplain rfl rfl (.inl rfl)
  obtain rfl : nandReadDone 0 twinReads = u := Host.Outcome.next.inj hu
  have hstates : (nandReadDone 0 twinReads).media.ops.map (·.state) =
      (ownCounts (softRead 0 1 .active) twinReads).media.ops.map (·.state) := congrArg (fun t : State => t.media.ops.map (·.state)) heq
  rw [states_nandReadDone_twinReads, states_ownCounts_twinReads] at hstates
  exact absurd hstates (by decide)

end Sys2Proof.Machine
end

section
/-!
PROOFS. O53: patrol, read disturb and read levels (R256, R258 to R260, R273).
-/
namespace Sys2Proof.Machine
open Sys2Proof

theorem findDie_updDie {f : Die → Die} (hf : ∀ x, (f x).die = x.die) (b a : Nat) (s : State) :
    findDie (updDie b f s) a = if a = b then (findDie s a).map f else findDie s a := find?_updKey Die.die hf b a _

theorem findBlk_updBlk {f : Blk → Blk} (hf : ∀ x, (f x).die = x.die ∧ (f x).block = x.block) (d k a n : Nat) (s : State) :
    findBlk (updBlk d k f s) a n = if a = d ∧ n = k then (findBlk s a n).map f else findBlk s a n :=
  find?_mapKeyed Blk.die Blk.block hf d k a n s.rcl.blocks

/-! ### The page read (R258) -/

/-- The state with the read of a page counted, and the patrol of its die moved on. -/
def pageRead (d blk page : Nat) (s : State) : State :=
  bump (tileOfDie d) .med_patrol_pages_count (updDie d (fun x => { x with patrolBlock := blk, patrolPage := page })
    (noteOp { blankOp .read .b6 d with words := 4 * planesOf s }
      { s with media := { s.media with patrolNow := s.media.patrolNow.filter fun x => x != (d, blk) } }))

/-- The state in which a band is to be refreshed and the row of the page is not compared. -/
def refreshNoted (b : Band) (row : Nat) (s : State) : State :=
  markRefresh b { s with red := { s.red with
    noCompare := s.red.noCompare ++ [(b.sg, b.idx, row)]
    fpRows := s.red.fpRows.filter fun f => !(f.sg == b.sg && f.band == b.idx && f.row == row) } }

theorem mem_refresh_markRefresh (b : Band) (s : State) : (b.sg, b.idx) ∈ (markRefresh b s).media.refresh := by
  simp only [markRefresh]
  split
  case isTrue h => exact List.contains_iff_mem.1 h
  case isFalse => exact List.mem_append_right _ (List.mem_singleton.2 rfl)

theorem mem_refresh_refreshNoted (b : Band) (row : Nat) (s : State) : (b.sg, b.idx) ∈ (refreshNoted b row s).media.refresh :=
  mem_refresh_markRefresh ..

/-- The row that a page of a band belongs to. -/
def rowOfPage (s : State) (b : Band) (page : Nat) : Nat := page / (if b.slc then planesOf s else 4 * planesOf s)

/-- The state in which a block and the member it serves are to be retired. -/
def retireNoted (d blk page m : Nat) (b : Band) (s : State) : State :=
  updBlk d blk (fun k => { k with retire := true }) (logEv .patrolUncorr (tileOfDie d) [d, blk, page] (updBand b.sg b.idx (fun x => { x with
    retireMembers := (m :: x.retireMembers).eraseDups }) s))

section
variable {d blk page : Nat} {w : PatrolWorst} {s : State}

theorem patrolRead_of_skipped (h : s.tfld (tileOfDie d) .med_cfg_patrol_en ≠ 1 ∨ dieServes s d = false ∨ patrolled s d blk page = false) :
    patrolRead d blk page w s = s := by
  obtain h | h | h := h <;> simp [patrolRead, h]

variable (hon : s.tfld (tileOfDie d) .med_cfg_patrol_en = 1) (hserves : dieServes s d = true) (hpage : patrolled s d blk page = true)
include hon hserves hpage

theorem patrolRead_of_special (hband : bandOfBlock s d blk = none) :
    patrolRead d blk page w s = patrolSpecial (tileOfDie d) d blk page w (pageRead d blk page s) := by
  simp only [patrolRead, hon, hserves, hpage, hband, bne_self_eq_false, Bool.not_true, Bool.or_self, Bool.false_eq_true, if_false]
  rfl

variable {b : Band} {m : Nat} (hband : bandOfBlock s d blk = some (b, m))
include hband

theorem patrolRead_hard (n : Nat) : patrolRead d blk page (.hard n) s = if s.tfld (tileOfDie d) .med_patrol_refresh_bits < n then
    refreshNoted b (rowOfPage s b page) (pageRead d blk page s) else pageRead d blk page s := by
  simp only [patrolRead, hon, hserves, hpage, hband, bne_self_eq_false, Bool.not_true, Bool.or_self, Bool.false_eq_true, if_false]
  rfl

theorem patrolRead_retried : patrolRead d blk page .retried s = refreshNoted b (rowOfPage s b page) (pageRead d blk page s) := by
  simp only [patrolRead, hon, hserves, hpage, hband, bne_self_eq_false, Bool.not_true, Bool.or_self, Bool.false_eq_true, if_false]
  rfl

theorem patrolRead_soft : patrolRead d blk page .soft s =
    logEv .mediaMargin (tileOfDie d) [d, blk, page] (refreshNoted b (rowOfPage s b page) (pageRead d blk page s)) := by
  simp only [patrolRead, hon, hserves, hpage, hband, bne_self_eq_false, Bool.not_true, Bool.or_self, Bool.false_eq_true, if_false]
  rfl

theorem patrolRead_uncorrectable : patrolRead d blk page (.uncorrectable true) s =
    retireNoted d blk page m b (refreshNoted b (rowOfPage s b page) (pageRead d blk page s)) := by
  simp only [patrolRead, hon, hserves, hpage, hband, bne_self_eq_false, Bool.not_true, Bool.or_self, Bool.false_eq_true, if_false, if_true]
  rfl

end

/-- What every outcome leaves of the state: the page noted in its die, the block no longer due, writing and the map untouched. -/
def PageNoted (d blk page : Nat) (s u : State) : Prop :=
  (findDie u d).map (fun y => (y.patrolBlock, y.patrolPage)) = some (blk, page) ∧ (d, blk) ∉ u.media.patrolNow ∧ u.wr = s.wr ∧ u.map = s.map

theorem pageNoted_pageRead {d blk : Nat} {x : Die} {s : State} (page : Nat) (hfind : findDie s d = some x) :
    PageNoted d blk page s (pageRead d blk page s) := by
  refine ⟨?_, fun h => ?_, rfl, rfl⟩
  · have hop := findDie_updDie (f := fun x => { x with
      hist := (x.hist.filter fun h => s.nowMs < h.1 + 100) ++ [(s.nowMs, PClass.b6,
        opTime { s with media := { s.media with patrolNow := s.media.patrolNow.filter fun x => x != (d, blk) } }
          { blankOp .read .b6 d with words := 4 * planesOf s })] }) (fun _ => rfl) d d s
    rw [if_pos rfl, hfind, Option.map_some] at hop
    have hmoved := findDie_updDie (f := fun x => { x with patrolBlock := blk, patrolPage := page }) (fun _ => rfl) d d
      (noteOp { blankOp .read .b6 d with words := 4 * planesOf s }
        { s with media := { s.media with patrolNow := s.media.patrolNow.filter fun x => x != (d, blk) } })
    rw [if_pos rfl] at hmoved
    exact congrArg (Option.map _) (hmoved.trans (congrArg (Option.map _) hop))
  · exact absurd (List.mem_filter.1 h).2 (by simp)

/-! ### What each outcome leaves -/

/-- From `s` to `t` a page was read, and what may have changed with it is named. -/
structure Patrolled (s t : State) : Prop where
  frame : t = { s with regs := t.regs, media := t.media, clock := t.clock }
  refresh : t.media.refresh = s.media.refresh

theorem patrolled_pageRead (d blk page : Nat) (s : State) : Patrolled s (pageRead d blk page s) := ⟨rfl, rfl⟩

theorem evr_pageRead (d blk page : Nat) (s : State) : (pageRead d blk page s).evr = s.evr := rfl

section
variable {s t : State}

theorem Patrolled.logged (h : Patrolled s t) (e : Ev) (n : Nat) (l : List Nat) : logEv e n l t = { s with
    regs := t.regs, media := t.media, clock := t.clock, evr := (logEv e n l t).evr } :=
  congrArg (fun u : State => { u with evr := (logEv e n l t).evr }) h.frame

theorem Patrolled.noted (h : Patrolled s t) (b : Band) (row : Nat) : refreshNoted b row t = { s with
    regs := t.regs, media := (refreshNoted b row t).media, clock := t.clock, red := (refreshNoted b row t).red } :=
  congrArg (fun u : State => { u with media := (refreshNoted b row t).media, red := (refreshNoted b row t).red }) h.frame

theorem Patrolled.notedLogged (h : Patrolled s t) (b : Band) (row : Nat) (e : Ev) (n : Nat) (l : List Nat) :
    logEv e n l (refreshNoted b row t) = { s with
      regs := t.regs, media := (refreshNoted b row t).media, clock := t.clock, red := (refreshNoted b row t).red
      evr := (logEv e n l (refreshNoted b row t)).evr } :=
  congrArg (fun u : State => { u with evr := (logEv e n l (refreshNoted b row t)).evr }) (h.noted b row)

theorem Patrolled.retired (h : Patrolled s t) (b : Band) (row d blk page m : Nat) :
    retireNoted d blk page m b (refreshNoted b row t) = { s with
      regs := t.regs, media := (refreshNoted b row t).media, clock := t.clock, red := (refreshNoted b row t).red
      rcl := (retireNoted d blk page m b (refreshNoted b row t)).rcl, evr := (retireNoted d blk page m b (refreshNoted b row t)).evr } :=
  congrArg (fun u : State => { u with
    rcl := (retireNoted d blk page m b (refreshNoted b row t)).rcl, evr := (retireNoted d blk page m b (refreshNoted b row t)).evr })
    (h.noted b row)

end

theorem logs_noted {s t : State} (h : t.evr = s.evr) (e : Ev) (n : Nat) (l : List Nat) (b : Band) (row : Nat) :
    Logs e n l s (logEv e n l (refreshNoted b row t)) := by
  rw [Logs, logEv_evr, show (refreshNoted b row t).evr = t.evr from rfl, h]

theorem logs_retired {s t : State} (h : t.evr = s.evr) (b : Band) (row d blk page m : Nat) :
    Logs .patrolUncorr (tileOfDie d) [d, blk, page] s (retireNoted d blk page m b (refreshNoted b row t)) := by
  rw [Logs, show (retireNoted d blk page m b (refreshNoted b row t)).evr = { t.evr with raised := t.evr.raised ++
    [{ ev := .patrolUncorr, tile := tileOfDie d, params := [d, blk, page] }] } from rfl, h]

theorem retire_retireNoted {d blk page m : Nat} {b : Band} {t : State} {k : Blk} (h : findBlk (retireNoted d blk page m b t) d blk = some k) :
    k.retire = true := by
  rw [retireNoted, findBlk_updBlk (f := fun k => { k with retire := true }) (fun _ => ⟨rfl, rfl⟩), if_pos ⟨rfl, rfl⟩] at h
  obtain ⟨k', -, rfl⟩ := Option.map_eq_some_iff.1 h
  rfl

theorem mem_retireMembers_retireNoted {d blk page m : Nat} {b y : Band} {t : State}
    (h : findBand (retireNoted d blk page m b t) b.sg b.idx = some y) : m ∈ y.retireMembers := by
  have hy := (findBand_updBand (f := fun x => { x with retireMembers := (m :: x.retireMembers).eraseDups }) (fun _ => ⟨rfl, rfl⟩)
    b.sg b.idx b.sg b.idx t).symm.trans h
  rw [if_pos ⟨rfl, rfl⟩] at hy
  obtain ⟨y', -, rfl⟩ := Option.map_eq_some_iff.1 hy
  simp

theorem logs_pageRead (e : Ev) (t : Nat) (l : List Nat) (d blk page : Nat) (s : State) :
    Logs e t l s (logEv e t l (pageRead d blk page s)) := by
  rw [Logs, logEv_evr, show (pageRead d blk page s).evr = s.evr from rfl]

/-- Settles O53. -/
theorem patrolAndDisturb : Obligations.PatrolAndDisturb := by
  unfold Obligations.PatrolAndDisturb
  refine ⟨fun d blk page w x s hon hserves hpage hfind hw => ⟨fun hsome => ?_, fun hnone => ⟨fun hmild => ?_, ?_⟩, fun b m hband => ?_⟩,
    fun d blk page w s h => ⟨_, rfl, patrolRead_of_skipped h⟩, fun d blk k s hfind => ⟨fun hdue => ?_, fun hnot => ⟨_, rfl, ?_⟩⟩,
    fun t s => ⟨_, rfl, rfl, fun l hl => ?_, fun l hl => ?_⟩⟩
  case refine_1 =>
    obtain ⟨⟨b, m⟩, hband⟩ := Option.isSome_iff_exists.1 hsome
    have hnoted := pageNoted_pageRead (blk := blk) page hfind
    cases w with
    | hard n =>
      refine ⟨_, congrArg Host.Outcome.next (patrolRead_hard hon hserves hpage hband n), ?_⟩
      split <;> exact hnoted
    | retried => exact ⟨_, congrArg Host.Outcome.next (patrolRead_retried hon hserves hpage hband), hnoted⟩
    | soft => exact ⟨_, congrArg Host.Outcome.next (patrolRead_soft hon hserves hpage hband), hnoted⟩
    | uncorrectable ok =>
      obtain rfl : ok = true := by simpa using hw
      exact ⟨_, congrArg Host.Outcome.next (patrolRead_uncorrectable hon hserves hpage hband), hnoted⟩
  case refine_2 =>
    have hread := patrolled_pageRead d blk page s
    refine ⟨pageRead d blk page s, congrArg Host.Outcome.next ((patrolRead_of_special hon hserves hpage hnone).trans ?_),
      hread.frame, hread.refresh⟩
    obtain rfl | ⟨n, rfl⟩ := hmild <;> rfl
  case refine_3 =>
    have hread := patrolled_pageRead d blk page s
    exact ⟨logEv .mediaMargin (tileOfDie d) [d, blk, page] (pageRead d blk page s),
      congrArg Host.Outcome.next (patrolRead_of_special hon hserves hpage hnone), hread.logged .., hread.refresh, logs_pageRead ..⟩
  case refine_4 =>
    have hread := patrolled_pageRead d blk page s
    have hin := mem_refresh_refreshNoted b (rowOfPage s b page) (pageRead d blk page s)
    refine ⟨fun n hn => ?_, fun n hn => ?_, ?_, ?_, ?_⟩
    · exact ⟨_, congrArg Host.Outcome.next ((patrolRead_hard hon hserves hpage hband n).trans (if_neg (Nat.not_lt.2 hn))),
        hread.frame, hread.refresh⟩
    · exact ⟨_, congrArg Host.Outcome.next ((patrolRead_hard hon hserves hpage hband n).trans (if_pos hn)), hread.noted .., hin⟩
    · exact ⟨_, congrArg Host.Outcome.next (patrolRead_retried hon hserves hpage hband), hread.noted .., hin⟩
    · exact ⟨_, congrArg Host.Outcome.next (patrolRead_soft hon hserves hpage hband),
        hread.notedLogged .., hin, logs_noted (evr_pageRead ..) ..⟩
    · exact ⟨_, congrArg Host.Outcome.next (patrolRead_uncorrectable hon hserves hpage hband), hread.retired .., hin,
        logs_retired (evr_pageRead ..) .., fun k => retire_retireNoted, fun y => mem_retireMembers_retireNoted⟩
  case refine_5 =>
    have hgo : disturbLimit d blk s = updBlk d blk (fun k => { k with reads := 0 })
        { s with media := { s.media with patrolNow := s.media.patrolNow ++ [(d, blk)] } } := by
      simp [disturbLimit, hfind, hdue]
    refine ⟨_, congrArg Host.Outcome.next hgo, rfl, ?_, List.mem_append_right _ (List.mem_singleton.2 rfl)⟩
    have hzero := findBlk_updBlk (f := fun k => { k with reads := 0 }) (fun _ => ⟨rfl, rfl⟩) d blk d blk s
    rw [if_pos ⟨rfl, rfl⟩, hfind, Option.map_some] at hzero
    exact hzero
  case refine_6 => simp [disturbLimit, hfind, hnot]
  case refine_7 => simp [hl]
  case refine_8 => simp [hl]

end Sys2Proof.Machine
end

section
/-!
PROOFS. O57: healing, and the copies of the stripe journal (R279, R282 to R285, R290 to R293).
-/
namespace Sys2Proof.Machine
open Sys2Proof

/-- A fold that keeps one of the elements it has seen picks one of the list. -/
theorem mem_of_foldl_pick {α : Type} {f : Option α → α → Option α} (hf : ∀ a x y, f a x = some y → y = x ∨ a = some y) :
    ∀ (l : List α) (a : Option α) (y : α), l.foldl f a = some y → y ∈ l ∨ a = some y
  | [], _, _, h => .inr h
  | x :: l, a, y, h => by
    obtain hmem | ha := mem_of_foldl_pick hf l (f a x) y h
    · exact .inl (List.mem_cons_of_mem x hmem)
    · obtain rfl | ha := hf a x y ha
      · exact .inl List.mem_cons_self
      · exact .inr ha

/-! ### Substitutes (R282 to R285) -/

/-- The dies that can give a substitute for a band: in service, outside the group and the band, with SPARE blocks to give. -/
def substDies (s : State) (g : Group) (b : Band) : List Nat :=
  (s.media.dies.map (·.die)).filter fun d =>
    dieServes s d && !g.members.contains d && !(diesOfBand s g b).contains d &&
      s.tfld (leaderTile s g.sg) .red_cfg_spare_keep < (sparesOf s d).length

/-- The die with the most SPARE blocks of those seen, ties to the lowest. -/
def mostSpares (s : State) (a : Option Nat) (d : Nat) : Option Nat :=
  match a with
  | none => some d
  | some x =>
    let n := (sparesOf s d).length
    let k := (sparesOf s x).length
    if k < n || (k == n && d < x) then some d else some x

theorem mostSpares_pick (s : State) (a : Option Nat) (x y : Nat) (h : mostSpares s a x = some y) : y = x ∨ a = some y := by
  unfold mostSpares at h
  split at h
  · exact .inl (Option.some.inj h).symm
  · dsimp only at h
    split at h
    · exact .inl (Option.some.inj h).symm
    · exact .inr h

theorem substDie_apart {s : State} {g : Group} {b : Band} {d : Nat} (h : substDie s g b = some (d, false)) :
    dieServes s d = true ∧ d ∉ g.members := by
  have hpick : ∃ l : List Nat, (∀ x ∈ l, x ∈ substDies s g b) ∧ l.foldl (mostSpares s) none = some d := by
    refine ⟨(substDies s g b).filter fun d => !((diesOfBand s g b).any fun u => chanOfDie u == chanOfDie d),
      fun x hx => (List.mem_filter.1 hx).1, ?_⟩
    unfold substDie at h
    dsimp only at h
    split at h
    case h_1 x hx =>
      obtain ⟨rfl, -⟩ := Prod.mk.inj (Option.some.inj h)
      exact hx
    case h_2 =>
      obtain ⟨x, -, hx⟩ := Option.map_eq_some_iff.1 h
      exact absurd (congrArg Prod.snd hx) (by simp)
  obtain ⟨l, hl, hfold⟩ := hpick
  obtain hmem | hnone := mem_of_foldl_pick (mostSpares_pick s) l none d hfold
  · have hd := hl d hmem
    simp only [substDies, List.mem_filter, Bool.and_eq_true, Bool.not_eq_true'] at hd
    obtain ⟨-, ⟨⟨hserves, hout⟩, -⟩, -⟩ := hd
    exact ⟨hserves, by simpa using hout⟩
  · exact absurd hnone (by simp)

theorem substs_healRow (sg b m : Nat) (s : State) : (healRow sg b m s).red = s.red := by
  unfold healRow
  split
  · refine iteInduction (motive := fun z : State => z.red = s.red) (fun _ => rfl) fun _ => ?_
    rw [OnlyDies.foldl (fun s k => onlyDies_addOp _ s)]
  · rfl

theorem red_smartRefresh (s : State) : (smartRefresh s).red = s.red := by rw [(onlyHostSide_smartRefresh s).1]

/-- The entry of a substitute that is started. -/
def newSubst (g : Group) (b : Band) (m d : Nat) (k : Blk) : Subst :=
  { sg := g.sg, band := b.idx, member := m, die := d, block := k.block, done := false, shared := false, next := 0 }

/-- The state with a substitute's block taken and its start recorded. -/
def substRecorded (g : Group) (b : Band) (m d : Nat) (k : Blk) (s : State) : State :=
  sjAppend g.sg { sjBlank 0x12 with band := b.idx, member := m, die := d, block := k.block } (updBlk d k.block (fun k => { k with
    state := if b.mapBand then .mapBand else .good, placed := 0, grains := 0, live := 0, summary := 0 }) s)

/-- The state with a substitute started. -/
def substStarted (g : Group) (b : Band) (m d : Nat) (k : Blk) (s : State) : State :=
  { substRecorded g b m d k s with red := { (substRecorded g b m d k s).red with
      stalled := (substRecorded g b m d k s).red.stalled.filter fun x => x != g.sg
      substs := (substRecorded g b m d k s).red.substs ++ [newSubst g b m d k] } }

theorem assignSubst_of_apart {g : Group} {b : Band} {m d : Nat} {k : Blk} {s : State} (hdie : substDie s g b = some (d, false))
    (hspare : (sparesOf s d).head? = some k) : assignSubst g b m s = some (smartRefresh (substStarted g b m d k s)) := by
  simp only [assignSubst, hdie, Option.bind_some, hspare, Option.map_some, Option.some_or]
  rfl

/-- A die that can give a substitute on a channel of its own gives one, and its rebuild starts. -/
theorem substs_startSubst {g : Group} {b : Band} {m d : Nat} {k : Blk} {s : State} (hdie : substDie s g b = some (d, false))
    (hspare : (sparesOf s d).head? = some k) : (startSubst g b m s).red.substs = s.red.substs ++ [newSubst g b m d k] := by
  simp only [startSubst, assignSubst_of_apart hdie hspare]
  rw [substs_healRow, red_smartRefresh]
  rfl

/-! ### The end of a substitute (R279, R285) -/

theorem setGroupState_spec (sg : Nat) (s : State) : (setGroupState sg s).red.substs = s.red.substs ∧ (setGroupState sg s).rcl = s.rcl ∧
    (setGroupState sg s).map = s.map ∧ (setGroupState sg s).reg = s.reg := by
  unfold setGroupState
  split
  case h_1 => exact ⟨rfl, rfl, rfl, rfl⟩
  case h_2 g hg =>
    dsimp only
    have hside := (onlyHostSide_smartRefresh (updGroup sg (fun g' => { g' with
      state := groupStateFor s g, lost := if groupStateFor s g == .optimal then [] else g'.lost
      healed := if groupStateFor s g == .optimal then 0 else g'.healed }) s)).1
    generalize smartRefresh _ = t at hside ⊢
    have ht : t.red.substs = s.red.substs ∧ t.rcl = s.rcl ∧ t.map = s.map ∧ t.reg = s.reg := by
      rw [hside]
      exact ⟨rfl, rfl, rfl, rfl⟩
    split
    · exact ht
    · split
      · exact ht
      · split <;> exact ht

/-- The band table's entry of a band whose member has a complete substitute. -/
def substNamed (m : Nat) (at_ : Nat × Nat) (b : Band) : Band :=
  { b with named := if b.named.any fun y => y.1 == m then b.named else b.named ++ [(m, at_)], blocks := b.blocks.set m 0xFFFE }

theorem completeSubst_spec {x : Subst} {y : Band} {s : State} (hband : findBand s x.sg x.band = some y) :
    (completeSubst x s).red.substs = (s.red.substs.map fun z => if z = x then { z with done := true } else z) ∧
    findBand (completeSubst x s) x.sg x.band = some (substNamed x.member (servingAt s x.sg x.band x.member) y) ∧
    (completeSubst x s).map = s.map ∧ (completeSubst x s).reg = s.reg := by
  refine ⟨?_, ?_, rfl, rfl⟩
  · exact List.map_congr_left fun z _ => by simp only [beq_iff_eq]
  · have hname := findBand_updBand (f := substNamed x.member (servingAt s x.sg x.band x.member)) (fun _ => ⟨rfl, rfl⟩)
      x.sg x.band x.sg x.band s
    rw [if_pos ⟨rfl, rfl⟩, hband, Option.map_some] at hname
    exact hname

theorem substDone_of_ready {sg b m : Nat} {x : Subst} {y : Band} {s : State}
    (hfind : (s.red.substs.find? fun x => x.sg == sg && x.band == b && x.member == m && !x.done) = some x) (hband : findBand s sg b = some y)
    (hidle : healing s sg b m = false) (hrows : y.rows ≤ x.next) : ∃ t, substDone sg b m s = setGroupState sg t ∧
      (t = completeSubst x s ∨ t = updGroup sg (fun g => { g with healed := g.healed + 1 }) (completeSubst x s)) := by
  have hdue : (healing s sg b m || (findBand s sg b).any fun y => decide (x.next < y.rows)) = false := by
    simp [hidle, hband, hrows]
  simp only [substDone, hfind, hdue, Bool.false_eq_true, if_false]
  refine ⟨_, rfl, ?_⟩
  exact iteInduction (motive := fun t => t = completeSubst x s ∨ t = updGroup sg (fun g => { g with healed := g.healed + 1 }) (completeSubst x s))
    (fun _ => .inr rfl) fun _ => .inl rfl

theorem keys_of_find_subst {sg b m : Nat} {x : Subst} {s : State}
    (hfind : (s.red.substs.find? fun x => x.sg == sg && x.band == b && x.member == m && !x.done) = some x) :
    x.sg = sg ∧ x.band = b ∧ x.member = m := by
  have hx := List.find?_some hfind
  simp only [Bool.and_eq_true, beq_iff_eq] at hx
  obtain ⟨⟨⟨hsg, hb⟩, hm⟩, -⟩ := hx
  exact ⟨hsg, hb, hm⟩

theorem substDone_spec {sg b m : Nat} {x : Subst} {y : Band} {s : State}
    (hfind : (s.red.substs.find? fun x => x.sg == sg && x.band == b && x.member == m && !x.done) = some x) (hband : findBand s sg b = some y)
    (hidle : healing s sg b m = false) (hrows : y.rows ≤ x.next) :
    (substDone sg b m s).red.substs = (s.red.substs.map fun z => if z = x then { z with done := true } else z) ∧
    (∃ l, findBand (substDone sg b m s) sg b = some { y with named := l, blocks := y.blocks.set m 0xFFFE }) ∧
    (substDone sg b m s).map = s.map ∧ (substDone sg b m s).reg = s.reg := by
  obtain ⟨t, hgo, ht⟩ := substDone_of_ready hfind hband hidle hrows
  obtain ⟨rfl, rfl, rfl⟩ := keys_of_find_subst hfind
  obtain ⟨hsubsts, hnamed, hmap, hreg⟩ := completeSubst_spec hband
  obtain ⟨hsubsts', hrcl', hmap', hreg'⟩ := setGroupState_spec x.sg t
  have htsame : t.red.substs = (completeSubst x s).red.substs ∧ t.rcl = (completeSubst x s).rcl ∧ t.map = (completeSubst x s).map ∧
      t.reg = (completeSubst x s).reg := by
    obtain rfl | rfl := ht <;> exact ⟨rfl, rfl, rfl, rfl⟩
  obtain ⟨h1, h2, h3, h4⟩ := htsame
  rw [hgo]
  refine ⟨hsubsts'.trans (h1.trans hsubsts), ⟨(substNamed x.member (servingAt s x.sg x.band x.member) y).named, ?_⟩, hmap'.trans (h3.trans hmap), hreg'.trans (h4.trans hreg)⟩
  rw [findBand, hrcl', h2, ← findBand]
  exact hnamed

/-! ### The stripe journal (R290 to R293) -/

theorem sg_findSj (s : State) (sg : Nat) : (findSj s sg).sg = sg := by
  unfold findSj
  cases h : s.red.sjs.find? fun j => j.sg == sg with
  | none => rfl
  | some j => simpa using List.find?_some h

theorem findSj_putSj (j : Sj) (s : State) (k : Nat) : findSj (putSj j s) k = if k = j.sg then j else findSj s k := by
  have hput : (putSj j s).red.sjs.find? (fun x => x.sg == k) = if k = j.sg then some j else s.red.sjs.find? fun x => x.sg == k := by
    refine List.find?_append.trans ?_
    rw [find?_dropKey Sj.sg j.sg k s.red.sjs]
    by_cases h : k = j.sg
    · subst h
      simp
    · have hne : ¬j.sg = k := fun hx => h hx.symm
      simp [h, hne]
  unfold findSj
  rw [hput]
  split <;> rfl

/-- A journal put for a group is found for it, and every other as before. -/
theorem putSj_spec {j : Sj} {sg : Nat} (hj : j.sg = sg) (s : State) :
    putSj j s = { s with red := { s.red with sjs := (putSj j s).red.sjs } } ∧ findSj (putSj j s) sg = j ∧
      ∀ k, k ≠ sg → findSj (putSj j s) k = findSj s k := by
  subst hj
  exact ⟨rfl, by rw [findSj_putSj, if_pos rfl], fun k hk => by rw [findSj_putSj, if_neg hk]⟩

/-- Settles O57. -/
theorem healingAndStripeJournal : Obligations.HealingAndStripeJournal := by
  unfold Obligations.HealingAndStripeJournal
  refine ⟨fun sg g s hgroup => ⟨fun h => ⟨_, rfl, ?_⟩, fun b hun hop hbusy hnext => ⟨fun hmap hsealed hlow => ⟨_, rfl, ?_⟩, fun h => ⟨_, rfl, ?_⟩⟩⟩,
    fun sg s hnone => ⟨_, rfl, by simp [healStart, hnone]⟩,
    fun g b m d k s hdie hspare => ⟨substs_startSubst hdie hspare, substDie_apart hdie⟩,
    fun sg b m x y s hfind hband => ⟨fun h => ⟨_, rfl, ?_⟩, fun hidle hrows => ⟨_, rfl, substDone_spec hfind hband hidle hrows⟩⟩,
    fun sg b m s hnone => ⟨_, rfl, ?_⟩, fun sg s => ⟨fun htail => ?_, fun htail => ⟨s, by simp [exec, execSjTailTimer, htail], rfl⟩,
      fun hgroup => ?_, fun k hgroup hk hnew => ?_, fun k h => ⟨s, ?_, rfl⟩, fun k hlost => ?_, fun k hlost => ⟨s, ?_, rfl⟩⟩⟩
  case refine_1 =>
    obtain h | h | h | h := h
    · simp [healStart, hgroup, h]
    · simp [healStart, hgroup, h]
    · simp only [healStart, hgroup, h, decide_true, Bool.or_true, if_true]
    · simp [healStart, hgroup, h]
  case refine_2 =>
    simp only [healStart, hgroup, hnext, Nat.not_le.2 hbusy, hmap, hsealed, hlow, hun, hop, beq_eq_false_iff_ne.2, ne_eq, not_false_eq_true,
      decide_false, decide_true, Bool.or_self, Bool.not_false, BEq.rfl, Bool.and_self, Bool.false_eq_true, if_false, if_true]
  case refine_3 =>
    have hmove : (!b.mapBand && b.state == .sealed &&
        decide (validPermille s b < 10 * s.tfld (leaderTile s sg) .red_rebuild_rebuild_reclaim_pct)) = false := by
      obtain h | h | h := h
      · simp [h]
      · simp [h]
      · simp [Nat.not_lt.2 h]
    simp only [healStart, hgroup, hnext, Nat.not_le.2 hbusy, hmove, hun, hop, beq_eq_false_iff_ne.2, ne_eq, not_false_eq_true,
      decide_false, Bool.or_self, Bool.false_eq_true, if_false]
  case refine_4 => obtain h | h := h <;> simp [substDone, hfind, hband, h]
  case refine_5 =>
    have hfind : (s.red.substs.find? fun x => x.sg == sg && x.band == b && x.member == m && !x.done) = none :=
      List.find?_eq_none.2 fun x hx hcond => by
        simp only [Bool.and_eq_true, beq_iff_eq, Bool.not_eq_true'] at hcond
        obtain ⟨⟨⟨hsg, hb⟩, hm⟩, hd⟩ := hcond
        simp [hnone x hx hsg hb hm] at hd
    simp [substDone, hfind]
  case refine_6 =>
    obtain ⟨hframe, hself, hother⟩ := putSj_spec (j := sjFlush (findSj s sg)) (sg_findSj s sg) s
    have hsome : (findSj s sg).tail.isEmpty = false := by simpa using htail
    exact ⟨startClosed (putSj (sjFlush (findSj s sg)) s), by simp [exec, execSjTailTimer, hsome], _, rfl, hframe, hself, hother⟩
  case refine_7 =>
    obtain ⟨g, hg, hsg⟩ := hgroup
    have hany : (s.red.groups.any fun g => g.sg == sg) = true := List.any_eq_true.2 ⟨g, hg, beq_iff_eq.2 hsg⟩
    exact ⟨putSj { findSj s sg with tail := [], flash := [] } s, by simp [exec, execSjSnapshot, hany],
      putSj_spec (j := { findSj s sg with tail := [], flash := [] }) (sg_findSj s sg) s⟩
  case refine_8 =>
    obtain ⟨g, hg, hsg⟩ := hgroup
    have hany : (s.red.groups.any fun g => g.sg == sg) = true := List.any_eq_true.2 ⟨g, hg, beq_iff_eq.2 hsg⟩
    obtain ⟨-, hself, -⟩ := putSj_spec (j := { findSj s sg with copiesLost := (findSj s sg).copiesLost ++ [k] }) (sg_findSj s sg) s
    exact ⟨logEv .sjCopyLost (leaderTile s sg) [sg, k] (putSj { findSj s sg with copiesLost := (findSj s sg).copiesLost ++ [k] } s),
      by simp [exec, execSjCopyLost, hany, hk, hnew], rfl, hself, rfl⟩
  case refine_9 => obtain h | h := h <;> simp [exec, execSjCopyLost, h]
  case refine_10 =>
    obtain ⟨-, hself, -⟩ := putSj_spec (j := { findSj s sg with copiesLost := (findSj s sg).copiesLost.filter fun x => x != k })
      (sg_findSj s sg) s
    exact ⟨logEv .sjCopyRestored (leaderTile s sg) [sg, k]
      (putSj { findSj s sg with copiesLost := (findSj s sg).copiesLost.filter fun x => x != k } s),
      by simp [exec, execSjCopyRestored, hlost], rfl, hself, rfl⟩
  case refine_11 => simp [exec, execSjCopyRestored, hlost]

end Sys2Proof.Machine
end

section
/-!
PROOFS. O56: fingerprints, mismatches, the search for lost ranges and the verify test (R272 to R277).
-/
namespace Sys2Proof.Machine
open Sys2Proof

/-! ### Fingerprints (R273) -/

/-- The row of the store that a key names. -/
def isFp (sg b i : Nat) (f : FpRow) : Bool := f.sg == sg && f.band == b && f.row == i

/-- The store's entry of a row, or the empty one that its first report opens. -/
def fpOf (s : State) (sg b i : Nat) : FpRow :=
  (s.red.fpRows.find? (isFp sg b i)).getD { sg := sg, band := b, row := i, fps := [], since := s.nowMs, mismatch := false }

/-- The entry with a member's fingerprints in it. -/
def fpWith (f : FpRow) (m p q : Nat) : FpRow := { f with fps := (f.fps.filter fun y => y.1 != m) ++ [(m, p, q)] }

/-- The rows of the store besides one. -/
def fpOthers (s : State) (sg b i : Nat) : List FpRow := s.red.fpRows.filter fun f => !isFp sg b i f

theorem mem_fpOthers {s : State} {sg b i : Nat} {x : FpRow} :
    x ∈ fpOthers s sg b i ↔ x ∈ s.red.fpRows ∧ ¬(x.sg = sg ∧ x.band = b ∧ x.row = i) := by
  simp only [fpOthers, List.mem_filter, Bool.not_eq_true', ← Bool.not_eq_true, isFp, Bool.and_eq_true, beq_iff_eq, and_assoc]

theorem fingerprint_of_room {sg b i m : Nat} (p q : Nat) {s : State} (hon : s.tfld (leaderTile s sg) .red_cfg_parity_check_en = 1)
    (hcmp : (sg, b, i) ∉ s.red.noCompare) (hm : m < memberCount s sg)
    (hroom : ((fpOthers s sg b i).filter fun f => leaderTile s f.sg == leaderTile s sg).length < 4096) :
    fingerprint sg b i m p q s =
      if (fpWith (fpOf s sg b i) m p q).fps.length < memberCount s sg then
        { s with red := { s.red with fpRows := fpOthers s sg b i ++ [fpWith (fpOf s sg b i) m p q] } }
      else if fpMismatch s (fpWith (fpOf s sg b i) m p q) then
        bump (leaderTile s sg) .red_parity_events_mismatches (bump (leaderTile s sg) .red_parity_cmp_count
          { s with red := { s.red with fpRows := fpOthers s sg b i ++ [{ fpWith (fpOf s sg b i) m p q with mismatch := true }] } })
      else bump (leaderTile s sg) .red_parity_cmp_count { s with red := { s.red with fpRows := fpOthers s sg b i } } := by
  have hgo : (s.tfld (leaderTile s sg) .red_cfg_parity_check_en != 1 || s.red.noCompare.contains (sg, b, i) ||
      decide (memberCount s sg ≤ m)) = false := by simp [hon, hcmp, hm]
  have hfull : decide (4096 ≤ ((fpOthers s sg b i).filter fun f => leaderTile s f.sg == leaderTile s sg).length) = false := by
    simpa using hroom
  unfold fingerprint
  simp only [hgo, Bool.false_eq_true, if_false]
  unfold fpOthers isFp at hfull
  simp only [hfull, Bool.false_eq_true, if_false]
  rfl

theorem fingerprint_of_refused {sg b i m : Nat} (p q : Nat) {s : State} (h : s.tfld (leaderTile s sg) .red_cfg_parity_check_en ≠ 1 ∨
    (sg, b, i) ∈ s.red.noCompare ∨ memberCount s sg ≤ m) : fingerprint sg b i m p q s = s := by
  obtain h | h | h := h <;> simp [fingerprint, h]

theorem onlyFields_bump {l : List (Nat × Nat × Fld)} {t : Nat} {f : Fld} {s u : State} (hu : OnlyFields l s u) (hf : (t, 0, f) ∈ l) :
    OnlyFields l s (bump t f u) := onlyFields_addT 1 hu hf

theorem fingerprint_of_mismatch {sg b i m : Nat} (p q : Nat) {s : State} (hon : s.tfld (leaderTile s sg) .red_cfg_parity_check_en = 1)
    (hcmp : (sg, b, i) ∉ s.red.noCompare) (hm : m < memberCount s sg)
    (hroom : ((fpOthers s sg b i).filter fun f => leaderTile s f.sg == leaderTile s sg).length < 4096)
    (hlast : memberCount s sg ≤ (fpWith (fpOf s sg b i) m p q).fps.length) (hbad : fpMismatch s (fpWith (fpOf s sg b i) m p q) = true) :
    Next (.fingerprintReport sg b i m p q) s fun u =>
      u = { s with regs := u.regs, red := { s.red with fpRows := fpOthers s sg b i ++ [{ fpWith (fpOf s sg b i) m p q with mismatch := true }] } } ∧
      OnlyFields [(leaderTile s sg, 0, .red_parity_cmp_count), (leaderTile s sg, 0, .red_parity_events_mismatches)] s u := by
  have hgo := fingerprint_of_room p q hon hcmp hm hroom
  rw [if_neg (Nat.not_lt.2 hlast), if_pos hbad] at hgo
  exact ⟨_, congrArg Host.Outcome.next hgo, rfl,
    onlyFields_bump (onlyFields_bump (onlyFields_of_regs rfl) List.mem_cons_self) (List.mem_cons_of_mem _ List.mem_cons_self)⟩

/-! ### Mismatches (R274) -/

/-- The state with a row taken from the store. -/
def fpTaken (sg b i : Nat) (s : State) : State := { s with red := { s.red with fpRows := fpOthers s sg b i } }

/-- The event and the count of a mismatch. -/
def mismatchLogged (sg b i m : Nat) (s : State) : State := countLife 10 (logEv .parityMismatch (leaderTile s sg) [sg, b, i, m] s)

/-- The codewords of a unit in which a syndrome is not zero, as the block counts them. -/
def badCws (s : State) (sg b i : Nat) (sp sq : Bytes) : List Nat :=
  (((sp.zip sq).zipIdx.filter fun y => y.1.1 != 0 || y.1.2 != 0).map
    fun y => i * 4 * planesOf s * (if (findBand s sg b).any (·.slc) then 1 else 4) + y.2 / 4096).eraseDups

theorem mem_badCws {s : State} {sg b i j : Nat} {sp sq : Bytes} {x : BitVec 8 × BitVec 8} (hj : (sp.zip sq)[j]? = some x) (hx : x ≠ (0, 0)) :
    i * 4 * planesOf s * (if (findBand s sg b).any (·.slc) then 1 else 4) + j / 4096 ∈ badCws s sg b i sp sq := by
  refine List.mem_eraseDups.2 (List.mem_map.2 ⟨(x, j), List.mem_filter.2 ⟨List.mem_zipIdx_iff_getElem?.2 hj, ?_⟩, rfl⟩)
  have hne : x.1 ≠ 0 ∨ x.2 ≠ 0 := not_and_or.1 fun h => hx (Prod.ext h.1 h.2)
  simpa using hne

/-- The band of a mismatch marked for refresh, where there is one. -/
def refreshAt (sg b : Nat) (s t : State) : State :=
  match findBand s sg b with
  | some x => markRefresh x t
  | none => t

/-- The state with the bad codewords of a located data unit entered. -/
def unitSuspected (sg b i m : Nat) (l : List Nat) (s : State) : State :=
  { s with red := { s.red with
    lostSlots := s.red.lostSlots ++ l.map fun c => { sg := sg, band := b, row := i, member := m, cw := c, dead := false } } }

/-- The state with a band whose mismatch names no member. -/
def unresolvedNoted (sg b : Nat) (s : State) : State :=
  { s with red := { s.red with unresolved := ((sg, b) :: s.red.unresolved).eraseDups } }

theorem evr_refreshAt (sg b : Nat) (s t : State) : (refreshAt sg b s t).evr = t.evr := by
  unfold refreshAt
  split <;> rfl

theorem red_refreshAt (sg b : Nat) (s t : State) : (refreshAt sg b s t).red = t.red := by
  unfold refreshAt
  split <;> rfl

theorem mem_refresh_refreshAt {sg b : Nat} {s : State} (t : State) (h : (findBand s sg b).isSome = true) :
    (sg, b) ∈ (refreshAt sg b s t).media.refresh := by
  obtain ⟨x, hx⟩ := Option.isSome_iff_exists.1 h
  have hkey := List.find?_some hx
  simp only [Bool.and_eq_true, beq_iff_eq] at hkey
  obtain ⟨rfl, rfl⟩ := hkey
  simp only [refreshAt, hx]
  exact mem_refresh_markRefresh x t

theorem mismatchLocate_of_noted {sg b i : Nat} (sp sq : Bytes) {f : FpRow} {s : State} (hf : f ∈ s.red.fpRows) (hsg : f.sg = sg)
    (hb : f.band = b) (hi : f.row = i) (hbad : f.mismatch = true) : mismatchLocate sg b i sp sq s =
      match locate (dataUnits s sg) sp sq with
      | .noFault => mismatchLogged sg b i 0xFF (fpTaken sg b i s)
      | .one m => refreshAt sg b s (mismatchLogged sg b i m (if m < dataUnits s sg then
          unitSuspected sg b i m (badCws s sg b i sp sq) (fpTaken sg b i s) else fpTaken sg b i s))
      | .several => refreshAt sg b s (mismatchLogged sg b i 0xFF (unresolvedNoted sg b (fpTaken sg b i s))) := by
  have hany : (s.red.fpRows.any fun f => f.sg == sg && f.band == b && f.row == i && f.mismatch) = true :=
    List.any_eq_true.2 ⟨f, hf, by simp [hsg, hb, hi, hbad]⟩
  unfold mismatchLocate
  rw [hany]
  rfl

theorem logs_mismatchLogged {sg b i m : Nat} {s t : State} (hevr : t.evr = s.evr) (htile : leaderTile t sg = leaderTile s sg) :
    Logs .parityMismatch (leaderTile s sg) [sg, b, i, m] s (mismatchLogged sg b i m t) := by
  show (logEv .parityMismatch (leaderTile t sg) [sg, b, i, m] t).evr = _
  rw [htile]
  exact (logEv_evr ..).trans (by rw [hevr])

theorem mismatch_of_one {sg b i m : Nat} {sp sq : Bytes} {f : FpRow} {s : State} (hf : f ∈ s.red.fpRows) (hsg : f.sg = sg)
    (hb : f.band = b) (hi : f.row = i) (hbad : f.mismatch = true) (hone : locate (dataUnits s sg) sp sq = .one m) :
    Next (.parityMismatchLocate sg b i sp sq) s fun u =>
      Logs .parityMismatch (leaderTile s sg) [sg, b, i, m] s u ∧
      ((findBand s sg b).isSome = true → (sg, b) ∈ u.media.refresh) ∧
      (∀ j x, m < dataUnits s sg → (sp.zip sq)[j]? = some x → x ≠ (0, 0) →
        { sg := sg, band := b, row := i, member := m,
          cw := i * 4 * planesOf s * (if (findBand s sg b).any (·.slc) then 1 else 4) + j / 4096, dead := false } ∈ u.red.lostSlots) ∧
      (dataUnits s sg ≤ m → u.red.lostSlots = s.red.lostSlots) := by
  have hgo := mismatchLocate_of_noted sp sq hf hsg hb hi hbad
  simp only [hone] at hgo
  refine ⟨_, congrArg Host.Outcome.next hgo, (evr_refreshAt ..).trans ?_, mem_refresh_refreshAt _, fun j x hm hj hx => ?_, fun hm => ?_⟩
  · split <;> exact logs_mismatchLogged (s := s) rfl rfl
  · rw [red_refreshAt, if_pos hm]
    exact List.mem_append_right _ (List.mem_map.2 ⟨_, mem_badCws hj hx, rfl⟩)
  · rw [red_refreshAt, if_neg (Nat.not_lt.2 hm)]
    rfl

theorem mismatch_of_several {sg b i : Nat} {sp sq : Bytes} {f : FpRow} {s : State} (hf : f ∈ s.red.fpRows) (hsg : f.sg = sg)
    (hb : f.band = b) (hi : f.row = i) (hbad : f.mismatch = true) (hmany : locate (dataUnits s sg) sp sq = .several) :
    Next (.parityMismatchLocate sg b i sp sq) s fun u =>
      Logs .parityMismatch (leaderTile s sg) [sg, b, i, 0xFF] s u ∧
      ((findBand s sg b).isSome = true → (sg, b) ∈ u.media.refresh) ∧ u.red.lostSlots = s.red.lostSlots ∧
      (sg, b) ∈ u.red.unresolved := by
  have hgo := mismatchLocate_of_noted sp sq hf hsg hb hi hbad
  simp only [hmany] at hgo
  refine ⟨_, congrArg Host.Outcome.next hgo, (evr_refreshAt ..).trans (logs_mismatchLogged (s := s) rfl rfl), mem_refresh_refreshAt _, ?_, ?_⟩
  · rw [red_refreshAt]
    rfl
  · rw [red_refreshAt]
    exact List.mem_eraseDups.2 List.mem_cons_self

theorem locate_of_zero (k : Nat) {sp sq : Bytes} (h : ∀ x, x ∈ sp.zip sq → x = (0, 0)) : locate k sp sq = .noFault := by
  have hnil : ((sp.zip sq).filter fun x => x.1 != 0 || x.2 != 0) = [] :=
    List.filter_eq_nil_iff.2 fun x hx => by simp [h x hx]
  unfold locate
  dsimp only
  rw [hnil]
  rfl

/-! ### Lost ranges (R272) -/

/-- From `s` to `t` the lost slots, the map, the registry and the extents in flash are as before. -/
def KeepsSlots (s t : State) : Prop := t.red.lostSlots = s.red.lostSlots ∧ t.map = s.map ∧ t.reg = s.reg ∧ t.rcl = s.rcl

theorem keepsSlots_smartRefresh (s : State) : KeepsSlots s (smartRefresh s) := by
  rw [(onlyHostSide_smartRefresh s).1]
  exact ⟨rfl, rfl, rfl, rfl⟩

theorem KeepsSlots.trans {s t u : State} (h : KeepsSlots s t) (k : KeepsSlots t u) : KeepsSlots s u := by
  obtain ⟨h1, h2, h3, h4⟩ := h
  obtain ⟨k1, k2, k3, k4⟩ := k
  exact ⟨k1.trans h1, k2.trans h2, k3.trans h3, k4.trans h4⟩

/-- The state with a list of lost ranges, and their count. -/
def withLost (l : List LostRange) (n : Nat) (s : State) : State :=
  { s with red := { s.red with lost := l, lostTotal := n }, health := { s.health with lostUnread := true } }

theorem keepsSlots_withLost (l : List LostRange) (n : Nat) (s : State) : KeepsSlots s (withLost l n s) := ⟨rfl, rfl, rfl, rfl⟩

theorem keepsSlots_enterLost (cause sg n die : Nat) : ∀ (rs : List (Nat × Nat)) (s : State), KeepsSlots s (enterLost cause sg n die rs s)
  | [], _ => ⟨rfl, rfl, rfl, rfl⟩
  | _ :: rs, s => ((keepsSlots_withLost _ _ s).trans (keepsSlots_smartRefresh _)).trans (keepsSlots_enterLost cause sg n die rs _)

/-- The lost blocks of an extent that are new to it entered. -/
def lostIn (e : FExt) (blocks : List Nat) : List Nat := e.lost ++ blocks.filter fun k => !e.lost.contains k

theorem mem_lostIn {e : FExt} {blocks : List Nat} {k : Nat} (h : k ∈ blocks) : k ∈ lostIn e blocks := by
  by_cases hin : k ∈ e.lost
  · exact List.mem_append_left _ hin
  · exact List.mem_append_right _ (List.mem_filter.2 ⟨h, by simpa using hin⟩)

/-- The extents in flash with an extent's lost blocks entered. -/
def flashLost (e : FExt) (blocks : List Nat) (l : List FExt) : List FExt :=
  l.map fun x => if x.addr == e.addr && x.seq == e.seq then { x with lost := lostIn e blocks } else x

theorem loseExtent_spec (e : FExt) (blocks : List Nat) (cause : Nat) (s : State) :
    (loseExtent e blocks cause s).red.lostSlots = s.red.lostSlots ∧ (loseExtent e blocks cause s).map = s.map ∧
    (loseExtent e blocks cause s).reg = s.reg ∧ (loseExtent e blocks cause s).rcl.flash = flashLost e blocks s.rcl.flash := by
  obtain ⟨h1, h2, h3, h4⟩ := keepsSlots_enterLost cause e.sg e.nsid (dieOf e.addr)
    ((runsOf ((livenessMask s e.nsid e.slba e.nblk e.addr e.seq).filter (blocks.filter fun k => !e.lost.contains k).contains)).map
      fun r => (e.slba + r.1, r.2)) { s with rcl := { s.rcl with flash := flashLost e blocks s.rcl.flash } }
  exact ⟨h1, h2, h3, congrArg (·.flash) h4⟩

/-- The unit's extents with what its lost codewords held entered, one after another. -/
def loseAll (cws : List Nat) (l : List FExt) (s : State) : State := l.foldl (fun s e => loseExtent e (blocksIn e cws) 1 s) s

/-- An extent of flash is as it was in `s`, or, one of a list, with what codewords held lost. -/
def LostFrom (cws : List Nat) (l : List FExt) (s : State) (x : FExt) : Prop :=
  ∃ y, y ∈ s.rcl.flash ∧ ((x = y ∧ y ∉ l) ∨ x = { y with lost := lostIn y (blocksIn y cws) })

theorem loseAll_spec (cws : List Nat) (s : State)
    (hone : ∀ x y, x ∈ s.rcl.flash → y ∈ s.rcl.flash → x.addr = y.addr → x.seq = y.seq → x = y) :
    ∀ (l done : List FExt) (t : State), (∀ e, e ∈ l → e ∈ s.rcl.flash) → (∀ x, x ∈ t.rcl.flash → LostFrom cws done s x) →
    (loseAll cws l t).red.lostSlots = t.red.lostSlots ∧ (loseAll cws l t).map = t.map ∧ (loseAll cws l t).reg = t.reg ∧
      ∀ x, x ∈ (loseAll cws l t).rcl.flash → LostFrom cws (done ++ l) s x
  | [], done, t, _, ht => ⟨rfl, rfl, rfl, by simpa [loseAll] using ht⟩
  | e :: l, done, t, hin, ht => by
    obtain ⟨h1, h2, h3, h4⟩ := loseExtent_spec e (blocksIn e cws) 1 t
    have hnext : ∀ x, x ∈ (loseExtent e (blocksIn e cws) 1 t).rcl.flash → LostFrom cws (done ++ [e]) s x := fun x hx => by
      rw [h4] at hx
      obtain ⟨z, hz, rfl⟩ := List.mem_map.1 hx
      obtain ⟨y, hy, hcase⟩ := ht z hz
      have hkey : z.addr = y.addr ∧ z.seq = y.seq := by obtain ⟨rfl, -⟩ | rfl := hcase <;> exact ⟨rfl, rfl⟩
      by_cases hsame : y.addr = e.addr ∧ y.seq = e.seq
      · have hye : y = e := hone y e hy (hin e List.mem_cons_self) hsame.1 hsame.2
        subst hye
        refine ⟨y, hy, .inr ?_⟩
        simp only [hkey.1, hkey.2, BEq.rfl, Bool.and_self, if_true]
        obtain ⟨rfl, -⟩ | rfl := hcase <;> rfl
      · have hfalse : (z.addr == e.addr && z.seq == e.seq) = false := by
          rw [hkey.1, hkey.2]
          simpa using hsame
        rw [hfalse]
        simp only [Bool.false_eq_true, if_false]
        refine ⟨y, hy, hcase.imp_left fun ⟨hzy, hnot⟩ => ⟨hzy, fun hmem => ?_⟩⟩
        obtain hmem | hmem := List.mem_append.1 hmem
        · exact hnot hmem
        · exact hsame (by rw [List.mem_singleton.1 hmem]; exact ⟨rfl, rfl⟩)
    obtain ⟨k1, k2, k3, k4⟩ := loseAll_spec cws s hone l (done ++ [e]) _ (fun x hx => hin x (List.mem_cons_of_mem e hx)) hnext
    refine ⟨k1.trans h1, k2.trans h2, k3.trans h3, ?_⟩
    rw [List.append_assoc] at k4
    exact k4

theorem blocksIn_mono {e : FExt} {c : Nat} {cws : List Nat} (hc : c ∈ cws) {k : Nat} (hk : k ∈ blocksIn e [c]) : k ∈ blocksIn e cws := by
  have hhit : ∀ a b : Nat, ([c].any fun c => decide (a / 4096 ≤ c) && decide (c ≤ (b - 1) / 4096)) = true →
      (cws.any fun c => decide (a / 4096 ≤ c) && decide (c ≤ (b - 1) / 4096)) = true := fun a b h =>
    List.any_eq_true.2 ⟨c, hc, by simpa using h⟩
  unfold blocksIn at hk ⊢
  dsimp only at hk ⊢
  split at hk
  case isTrue => simp at hk
  case isFalse hin =>
    have hin' := hhit _ _ (by simpa using hin)
    simp only [hin', Bool.not_true, Bool.false_eq_true, if_false]
    split at hk
    case isTrue hall =>
      have hall' : (!e.raw || cws.any fun c => decide ((pageOf e.addr * 64 + grainOf e.addr) * 256 / 4096 ≤ c) &&
          decide (c ≤ ((pageOf e.addr * 64 + grainOf e.addr) * 256 + 32 - 1) / 4096)) = true := by
        simp only [Bool.or_eq_true] at hall ⊢
        exact hall.imp_right (hhit _ _)
      rw [if_pos hall']
      exact hk
    case isFalse =>
      have hrange : k ∈ List.range e.nblk := (List.mem_filter.1 hk).1
      split
      · exact hrange
      · exact List.mem_filter.2 ⟨hrange, hhit _ _ (List.mem_filter.1 hk).2⟩

theorem lt_of_mem_blocksIn {e : FExt} {cws : List Nat} {k : Nat} (h : k ∈ blocksIn e cws) : k < e.nblk := by
  unfold blocksIn at h
  dsimp only at h
  split at h
  · simp at h
  · split at h
    · exact List.mem_range.1 h
    · exact List.mem_range.1 (List.mem_filter.1 h).1

/-- A lost slot of a unit that cannot be recovered. -/
def deadSlot (sg b i m : Nat) (x : LostSlot) : Bool := x.dead && x.sg == sg && x.band == b && x.row == i && x.member == m

theorem deadSlot_iff {sg b i m : Nat} {x : LostSlot} :
    deadSlot sg b i m x = true ↔ x.dead = true ∧ x.sg = sg ∧ x.band = b ∧ x.row = i ∧ x.member = m := by
  simp [deadSlot, and_assoc]

/-- The extents in flash of a unit. -/
def unitExts (s : State) (sg b i m : Nat) : List FExt :=
  s.rcl.flash.filter fun e => e.sg == sg && e.band == b && e.row == i && e.member == m

theorem lostSearch_of_dead {sg b i m : Nat} {l : LostSlot} {s : State} (hl : l ∈ s.red.lostSlots) (hdead : deadSlot sg b i m l = true) :
    lostSearch sg b i m s = loseAll ((s.red.lostSlots.filter (deadSlot sg b i m)).map (·.cw)) (unitExts s sg b i m)
      { s with red := { s.red with lostSlots := s.red.lostSlots.filter fun x => !deadSlot sg b i m x } } := by
  have hsome : ((s.red.lostSlots.filter (deadSlot sg b i m)).map (·.cw)).isEmpty = false := by
    rw [List.isEmpty_eq_false_iff]
    exact List.ne_nil_of_mem (List.mem_map.2 ⟨l, List.mem_filter.2 ⟨hl, hdead⟩, rfl⟩)
  unfold deadSlot at hsome
  unfold lostSearch
  simp only [hsome, Bool.false_eq_true, if_false]
  rfl

theorem lostSearch_spec {sg b i m : Nat} {s : State}
    (hdead : ∃ l, l ∈ s.red.lostSlots ∧ (l.dead = true ∧ l.sg = sg ∧ l.band = b ∧ l.row = i ∧ l.member = m))
    (hone : ∀ x y, x ∈ s.rcl.flash → y ∈ s.rcl.flash → x.addr = y.addr → x.seq = y.seq → x = y) :
    Next (.lostRangeSearch sg b i m) s fun u => (∀ l, l ∈ u.red.lostSlots ↔ l ∈ s.red.lostSlots ∧
        ¬(l.dead = true ∧ l.sg = sg ∧ l.band = b ∧ l.row = i ∧ l.member = m)) ∧ u.map = s.map ∧ u.reg = s.reg ∧
      ∀ l, l ∈ s.red.lostSlots → (l.dead = true ∧ l.sg = sg ∧ l.band = b ∧ l.row = i ∧ l.member = m) →
        ∀ e, e ∈ u.rcl.flash → e.sg = sg → e.band = b → e.row = i → e.member = m → ∀ k, k ∈ blocksIn e [l.cw] → k ∈ e.lost := by
  obtain ⟨l, hl, hisl⟩ := hdead
  have hgo := lostSearch_of_dead hl (deadSlot_iff.2 hisl)
  obtain ⟨h1, h2, h3, h4⟩ := loseAll_spec ((s.red.lostSlots.filter (deadSlot sg b i m)).map (·.cw)) s hone (unitExts s sg b i m) []
    { s with red := { s.red with lostSlots := s.red.lostSlots.filter fun x => !deadSlot sg b i m x } }
    (fun e he => (List.mem_filter.1 he).1) fun x hx => ⟨x, hx, .inl ⟨rfl, by simp⟩⟩
  refine ⟨_, congrArg Host.Outcome.next hgo, fun l => ?_, h2, h3, fun l hl hisl e he hsg hb hi hm k hk => ?_⟩
  · rw [h1, List.mem_filter, Bool.not_eq_true', ← Bool.not_eq_true, deadSlot_iff]
  · obtain ⟨y, hy, hcase⟩ := h4 e he
    have hcw : l.cw ∈ (s.red.lostSlots.filter (deadSlot sg b i m)).map (·.cw) :=
      List.mem_map.2 ⟨l, List.mem_filter.2 ⟨hl, deadSlot_iff.2 hisl⟩, rfl⟩
    obtain ⟨rfl, hnot⟩ | rfl := hcase
    · exact absurd (List.mem_filter.2 ⟨hy, by simp [hsg, hb, hi, hm]⟩) hnot
    · exact mem_lostIn (blocksIn_mono (e := y) hcw hk)

/-! ### The verify test (R276, R277) -/

theorem tile_verifyOf (s : State) (t : Nat) : (verifyOf s t).tile = t := by
  unfold verifyOf
  cases h : s.red.verify.find? fun v => v.tile == t with
  | none => rfl
  | some v => simpa using List.find?_some h

theorem verifyOf_setVerify (v : Verify) (s : State) (k : Nat) : verifyOf (setVerify v s) k = if k = v.tile then v else verifyOf s k := by
  have hput : (setVerify v s).red.verify.find? (fun x => x.tile == k) = if k = v.tile then some v else s.red.verify.find? fun x => x.tile == k := by
    refine List.find?_append.trans ?_
    simp only [bne]
    rw [find?_dropKey Verify.tile v.tile k s.red.verify]
    by_cases h : k = v.tile
    · subst h
      simp
    · have hne : ¬v.tile = k := fun hx => h hx.symm
      simp [h, hne]
  unfold verifyOf
  rw [hput]
  split <;> rfl

theorem mem_wrongRows {t sg : Nat} {us : List VerifyUnit} {x : Nat × Nat} {s : State} : x ∈ wrongRows s t sg us ↔
    ∃ u, u ∈ us ∧ u.band = x.1 ∧ u.row = x.2 ∧ (u.recon ≠ u.read ∨ unitPasses s t (unitBase s sg u.band u.row u.member) u.recon = false) := by
  simp only [wrongRows, List.mem_eraseDups, List.mem_map, List.mem_filter, Bool.or_eq_true, bne_iff_ne, Bool.not_eq_true', ne_eq]
  exact exists_congr fun u => ⟨fun ⟨⟨hu, hbad⟩, hx⟩ => ⟨hu, congrArg Prod.fst hx, congrArg Prod.snd hx, hbad⟩,
    fun ⟨hu, hb, hi, hbad⟩ => ⟨⟨hu, hbad⟩, Prod.ext hb hi⟩⟩

theorem verifyEnd_spec {t : Nat} {us : List VerifyUnit} {s : State} (hbusy : (verifyOf s t).busy = true) :
    Next (.verifyEnd t us) s fun u =>
      verifyOf u t = { verifyOf s t with busy := false, wrong := sat 0xFFFF (wrongRows s t (verifyOf s t).sg us).length } ∧
      u.tfld t .red_verify_status_verify_done = 1 ∧ OnlyFields [(t, 0, .red_verify_status_verify_done)] s u ∧
      u = { s with regs := u.regs, red := { s.red with verify := u.red.verify, fpRows := u.red.fpRows } } ∧
      ∀ x, x ∈ wrongRows s t (verifyOf s t).sg us →
        ∃ f, f ∈ u.red.fpRows ∧ f.sg = (verifyOf s t).sg ∧ f.band = x.1 ∧ f.row = x.2 ∧ f.mismatch = true := by
  refine ⟨verifyEnd t us s, rfl, ?_⟩
  simp only [verifyEnd, hbusy, Bool.not_true, Bool.false_eq_true, if_false]
  refine ⟨(verifyOf_setVerify ..).trans (if_pos (tile_verifyOf s t).symm), ?_, ?_, rfl, fun x hx => ?_⟩
  · simp [State.tfld, setT, fld_setFld]
  · exact onlyFields_setT 1 (onlyFields_of_regs rfl) List.mem_cons_self
  · exact ⟨_, List.mem_append_right _ (List.mem_map.2 ⟨x, hx, rfl⟩), rfl, rfl, rfl, rfl⟩

theorem verifyStart_spec {t : Nat} (v : Nat) {s : State} (ht : t ≠ pkgWin) (hopen : regOpen s t = true) :
    let s1 := setT t .red_verify_verify_sg (bitsOf v 9 0) s
    (bitOf v 31 = false → Next (.verifyStart t v) s fun u => u = s1) ∧
    (bitOf v 31 = true → (verifyOf s t).busy = true → Next (.verifyStart t v) s fun u => u = reject t (bar0 t 0 .redVerify) 11 s1) ∧
    (bitOf v 31 = true → (verifyOf s t).busy = false → Next (.verifyStart t v) s fun u =>
      u = { s1 with red := { s.red with verify := u.red.verify } } ∧
      verifyOf u t = { tile := t, sg := bitsOf v 9 0, busy := true, wrong := (verifyOf s t).wrong } ∧
      ∀ k, k ≠ t → verifyOf u k = verifyOf s k) := by
  dsimp only
  have hwrite := tileWrite_of_open (f := verifyStart t v) ht hopen
  refine ⟨fun hgo => ⟨_, congrArg Host.Outcome.next hwrite, ?_⟩, fun hgo hbusy => ⟨_, congrArg Host.Outcome.next hwrite, ?_⟩,
    fun hgo hbusy => ⟨_, congrArg Host.Outcome.next hwrite, ?_⟩⟩
  · simp [verifyStart, hgo]
  · simp [verifyStart, hgo, hbusy]
  · have hstart : verifyStart t v s = setVerify { tile := t, sg := bitsOf v 9 0, busy := true, wrong := (verifyOf s t).wrong }
        (setT t .red_verify_verify_sg (bitsOf v 9 0) s) := by simp [verifyStart, hgo, hbusy]
    rw [hstart]
    exact ⟨rfl, (verifyOf_setVerify ..).trans (if_pos rfl), fun k hk => (verifyOf_setVerify ..).trans (if_neg hk)⟩

/-- Settles O56. -/
theorem fingerprintsAndVerify : Obligations.FingerprintsAndVerify := by
  unfold Obligations.FingerprintsAndVerify
  refine ⟨fun sg b i m p q s => ?_, fun sg b i m p q s h => ⟨_, rfl, fingerprint_of_refused p q h⟩,
    fun sg b i sp sq f s hf hsg hb hi hbad => ⟨fun hnone => ?_, fun m hone => mismatch_of_one hf hsg hb hi hbad hone,
      mismatch_of_several hf hsg hb hi hbad⟩,
    fun sg b i sp sq s h => ⟨_, rfl, ?_⟩, fun k sp sq h => locate_of_zero k h, fun sg b i f s hf => ⟨fun hold => ?_, fun hnew => ⟨_, rfl, ?_⟩⟩,
    fun sg b i m s => ⟨fun hdead hone => lostSearch_spec hdead hone, fun hnone => ⟨_, rfl, ?_⟩⟩, fun e cws k => lt_of_mem_blocksIn,
    fun t v s => verifyStart_spec v, fun t us s => ⟨verifyEnd_spec, fun hidle => ⟨_, rfl, by simp [verifyEnd, hidle]⟩⟩,
    fun t sg us x s => mem_wrongRows⟩
  case refine_1 =>
    intro t isIt f f1 rest hon hcmp hm hroom
    have hgo := fingerprint_of_room p q hon hcmp hm hroom
    refine ⟨fun hshort => ?_, fun hlast hgood => ?_, fun hlast hbad => fingerprint_of_mismatch p q hon hcmp hm hroom hlast hbad⟩
    · exact ⟨_, congrArg Host.Outcome.next (hgo.trans (if_pos hshort)), rfl⟩
    · exact ⟨_, congrArg Host.Outcome.next (hgo.trans ((if_neg (Nat.not_lt.2 hlast)).trans (if_neg (Bool.not_eq_true _ ▸ hgood)))), rfl⟩
  case refine_2 =>
    have hgo := mismatchLocate_of_noted sp sq hf hsg hb hi hbad
    simp only [hnone] at hgo
    exact ⟨_, congrArg Host.Outcome.next hgo, rfl, logs_mismatchLogged (s := s) rfl rfl, fun x => mem_fpOthers⟩
  case refine_3 =>
    have hany : (s.red.fpRows.any fun f => f.sg == sg && f.band == b && f.row == i && f.mismatch) = false :=
      List.any_eq_false.2 fun f hf hcond => by
        simp only [Bool.and_eq_true, beq_iff_eq] at hcond
        obtain ⟨⟨⟨hsg, hb⟩, hi⟩, hbad⟩ := hcond
        simp [h f hf hsg hb hi] at hbad
    simp [mismatchLocate, hany]
  case refine_4 =>
    have hgo : rowStoreExpiry sg b i s = bump (leaderTile s sg) .red_parity_events_parity_skipped (fpTaken sg b i s) := by
      simp only [rowStoreExpiry, hf, Nat.not_lt.2 hold, if_false]
      rfl
    exact ⟨_, congrArg Host.Outcome.next hgo, rfl, fun x => mem_fpOthers⟩
  case refine_5 => simp only [rowStoreExpiry, hf, hnew, if_true]
  case refine_6 =>
    have hnil : s.red.lostSlots.filter (fun x => x.dead && x.sg == sg && x.band == b && x.row == i && x.member == m) = [] :=
      List.filter_eq_nil_iff.2 fun x hx hcond => hnone x hx (deadSlot_iff.1 hcond)
    simp [lostSearch, hnil]

end Sys2Proof.Machine
end

section
/-!
PROOFS. O54: reclaim, from the choice of a victim to the erased band (R195, R201 to R204, R207 to R217).
-/
namespace Sys2Proof.Machine
open Sys2Proof

/-! ### Choosing (R208, R209) -/

/-- The better of two victims by score, ties to the lower band_seq. -/
def betterScore (s : State) (a : Option Band) (b : Band) : Option Band :=
  match a with
  | none => some b
  | some c => if score s c < score s b || (score s c == score s b && b.seq < c.seq) then some b else some c

/-- The older seal of two victims. -/
def olderSeal (a : Option Band) (b : Band) : Option Band :=
  match a with
  | none => some b
  | some c => if b.sealMin < c.sealMin then some b else some c

theorem betterScore_pick (s : State) (a : Option Band) (x y : Band) (h : betterScore s a x = some y) : y = x ∨ a = some y := by
  unfold betterScore at h
  split at h
  · exact .inl (Option.some.inj h).symm
  · split at h
    · exact .inl (Option.some.inj h).symm
    · exact .inr h

theorem olderSeal_pick (a : Option Band) (x y : Band) (h : olderSeal a x = some y) : y = x ∨ a = some y := by
  unfold olderSeal at h
  split at h
  · exact .inl (Option.some.inj h).symm
  · split at h
    · exact .inl (Option.some.inj h).symm
    · exact .inr h

/-- A victim is one of the sealed QLC bands below 97% valid. -/
theorem victim_spec {s : State} {sg : Nat} {b : Band} (h : victim s sg = some b) :
    b ∈ groupBands s sg ∧ b.state = .sealed ∧ b.slc = false ∧ validPermille s b < 970 := by
  have hmem : b ∈ (groupBands s sg).filter fun b => b.state == .sealed && !b.slc && decide (validPermille s b < 970) := by
    unfold victim at h
    dsimp only at h
    split at h
    · exact (mem_of_foldl_pick (betterScore_pick s) _ none b h).resolve_right (by simp)
    · exact (mem_of_foldl_pick olderSeal_pick _ none b h).resolve_right (by simp)
  simp only [List.mem_filter, Bool.and_eq_true, beq_iff_eq, Bool.not_eq_true', decide_eq_true_eq] at hmem
  obtain ⟨hin, ⟨hsealed, hqlc⟩, hvalid⟩ := hmem
  exact ⟨hin, hsealed, hqlc, hvalid⟩

theorem urgentBand_spec {s : State} {sg : Nat} {b : Band} (h : urgentBand s sg = some b) :
    b ∈ groupBands s sg ∧ b.state = .sealed ∧ (b.retireMembers ≠ [] ∨ (sg, b.idx) ∈ s.media.refresh) := by
  unfold urgentBand at h
  dsimp only at h
  obtain h | ⟨-, h⟩ := Option.or_eq_some_iff.1 h
  all_goals
    obtain ⟨hin, hsealed⟩ := List.mem_filter.1 (List.mem_of_find?_eq_some h)
    refine ⟨hin, by simpa using hsealed, ?_⟩
  · exact .inl (by simpa using List.find?_some h)
  · exact .inr (by simpa using List.find?_some h)

theorem mapBand_of_mem_groupBands {s : State} {sg : Nat} {b : Band} (h : b ∈ groupBands s sg) : b.mapBand = false := by
  have hb := (List.mem_filter.1 h).2
  simp only [Bool.and_eq_true, Bool.not_eq_true'] at hb
  exact hb.2

theorem wakeIdle_of_none {sg : Nat} {s : State} (h : ∀ x, x ∈ s.rcl.bands → x.sg = sg → x.why ≠ some .idle) : wakeIdle sg s = s := by
  have hsame : s.rcl.bands.map (fun b => if b.sg == sg && b.why == some .idle then { b with why := some .reclaim } else b) = s.rcl.bands :=
    (List.map_congr_left fun x hx => if_neg fun hcond => by
      simp only [Bool.and_eq_true, beq_iff_eq] at hcond
      exact h x hx hcond.1 hcond.2).trans (List.map_id _)
  unfold wakeIdle
  rw [hsame]

/-- A sealed data band without substitutes in progress, as its relocation has started. -/
theorem started_of_sealed {w : Why} {sg : Nat} {b : Band} {s : State} (hband : findBand s sg b.idx = some b)
    (hdone : ∀ x, x ∈ s.red.substs → x.sg = sg → x.band = b.idx → x.done = true) (hsealed : b.state = .sealed) (hdata : b.mapBand = false)
    {u : State} (hu : u = startRelocation w sg b.idx s) : u = { s with rcl := { s.rcl with bands := u.rcl.bands } } ∧
      ∃ l, List.Perm l (bandExtents s sg b.idx) ∧ findBand u sg b.idx = some { b with
        state := .reclaiming, why := some w, committed := false, erased := [], toScan := l.map (·.addr) } := by
  rw [startRelocation_of_no_substs hdone] at hu
  subst hu
  refine ⟨rfl, scanOrder s sg b.idx, List.mergeSort_perm .., ?_⟩
  rw [findBand_updBand (relocating_key _ _ _ _), if_pos ⟨rfl, rfl⟩, hband]
  simp [relocating, hsealed, hdata]

theorem reclaimStep_of_idle {sg : Nat} {s : State} (hon : s.tfld (leaderTile s sg) .rcl_cfg_rcl_enable = 1)
    (hfree : ∀ x, x ∈ groupBands s sg → x.state ≠ .reclaiming) (hidle : ∀ x, x ∈ s.rcl.bands → x.sg = sg → x.why ≠ some .idle) :
    (∀ b, urgentBand s sg = some b → reclaimStep sg s = startRelocation (if b.retireMembers.isEmpty then .refresh else .reclaim) sg b.idx s) ∧
    (∀ b, urgentBand s sg = none → victim s sg = some b →
      (freeBands s sg).length < reserveOf s sg + s.tfld (leaderTile s sg) .rcl_thresh_rcl_start_bands →
      reclaimStep sg s = startRelocation .reclaim sg b.idx s) := by
  have hany : ((groupBands s sg).any fun b => b.state == .reclaiming) = false :=
    List.any_eq_false.2 fun x hx => by simpa using hfree x hx
  refine ⟨fun b hb => ?_, fun b hnone hb hlow => ?_⟩
  · simp only [reclaimStep, wakeIdle_of_none hidle, ite_self, hon, hany, hb, bne_self_eq_false, Bool.or_self, Bool.false_eq_true, if_false]
  · simp only [reclaimStep, wakeIdle_of_none hidle, ite_self, hon, hany, hnone, hb, hlow, decide_true, bne_self_eq_false, Bool.or_self,
      Bool.false_eq_true, if_false, if_true]

/-! ### Stalemate (R216, R217) -/

theorem findEg_setEg {f : Eg → Eg} (hf : ∀ x, (f x).id = x.id) (id k : Nat) (s : State) :
    findEg (setEg id f s) k = if k = id then (findEg s k).map f else findEg s k := by
  have hkey : ∀ x : Eg, (if x.id == id then f x else x).id = x.id := fun x => by split <;> simp [hf]
  refine (find?_map_key Eg.id hkey k s.reg.egs).trans ?_
  show (findEg s k).map _ = _
  cases h : findEg s k with
  | none => simp
  | some x =>
    have hx : x.id = k := by simpa using List.find?_some h
    subst hx
    by_cases hk : x.id = id <;> simp [hk]

theorem reg_stalemateEnter {g : Eg} {s : State} (hnew : g.stalemate = false) (hin : inStalemate s g = true) :
    (stalemateEnter g s).reg = (setEg g.id (fun g => { g with stalemate := true }) s).reg := by
  unfold stalemateEnter
  simp only [hnew, hin, Bool.not_true, Bool.or_self, Bool.false_eq_true, if_false]
  split
  · exact reg_of_onlyHostSide (onlyHostSide_smartRefresh _)
  · exact reg_of_onlyHostSide (onlyHostSide_foldl _ (fun s k => onlyHostSide_raiseAen k 1 0 s) _ _)

theorem reg_stalemateExit {g : Eg} {s : State} (hon : g.stalemate = true) (hout : leavesStalemate s g = true) :
    (stalemateExit g s).reg = (setEg g.id (fun g => { g with stalemate := false }) s).reg := by
  unfold stalemateExit
  simp only [hon, hout, Bool.and_self, if_true]
  exact reg_of_onlyHostSide (onlyHostSide_smartRefresh _)

theorem findEg_of_reg {s t : State} (h : t.reg = s.reg) (k : Nat) : findEg t k = findEg s k := by rw [findEg, h, ← findEg]

/-- The end of a stalemate leaves the bands, the marks for refresh and the extents in flash. -/
theorem stalemateExit_frame (g : Eg) (s : State) : (stalemateExit g s).rcl = s.rcl ∧ (stalemateExit g s).media = s.media := by
  unfold stalemateExit
  split
  · rw [(onlyHostSide_smartRefresh _).1]
    exact ⟨rfl, rfl⟩
  · exact ⟨rfl, rfl⟩

theorem stalemateExits_frame : ∀ (l : List Eg) (s : State),
    (l.foldl (fun s g => stalemateExit g s) s).rcl = s.rcl ∧ (l.foldl (fun s g => stalemateExit g s) s).media = s.media
  | [], _ => ⟨rfl, rfl⟩
  | g :: l, s => by
    obtain ⟨h1, h2⟩ := stalemateExit_frame g s
    obtain ⟨k1, k2⟩ := stalemateExits_frame l (stalemateExit g s)
    exact ⟨k1.trans h1, k2.trans h2⟩

/-! ### Scan and copies (R201 to R203) -/

/-- The state with an extent taken from a band's scan. -/
def scanned (sg b addr : Nat) (s : State) : State := updBand sg b (fun x => { x with toScan := x.toScan.filter fun a => a != addr }) s

theorem livenessQuery_of_next {sg b addr : Nat} {x : Band} {s : State} (hband : findBand s sg b = some x) (hrcl : x.state = .reclaiming)
    (hnext : nextScan x addr = true) : livenessQuery sg b addr s = match s.rcl.flash.find? (fun e => e.addr == addr) with
      | none => scanned sg b addr s
      | some e =>
        if (livenessMask s e.nsid e.slba e.nblk addr e.seq).isEmpty then scanned sg b addr s
        else if !e.lost.isEmpty then
          loseBlocks e ((livenessMask s e.nsid e.slba e.nblk addr e.seq).filter fun k => !e.lost.contains k) (scanned sg b addr s)
        else addRead { blankOp .read (whyClass x.why) (servingDie s sg b e.member (dieOf addr)) with
            use := .copy, words := wordsOf addr e.len, addr := addr, sg := sg, band := b, row := e.row, member := e.member }
          (scanned sg b addr s) := by
  simp only [livenessQuery, hband, hrcl, hnext, bne_self_eq_false, Bool.not_true, Bool.or_self, Bool.false_eq_true, if_false]
  rfl

/-- The state with the bytes of a copy counted for the sweeps that wait for its band. -/
def sweepsCounted (x : Band) (n : Nat) (s : State) : State :=
  { s with rcl := { s.rcl with
    sweeps := s.rcl.sweeps.map fun w => if x.sweepIds.contains w.id then { w with relocBytes := w.relocBytes + n } else w } }

theorem copyRead_of_found {o : DieOp} {x : Band} {e : FExt} {s : State} (hband : findBand s o.sg o.band = some x) (hrcl : x.state = .reclaiming)
    (hext : (s.rcl.flash.find? fun e => e.addr == o.addr) = some e) (ok : Bool) : copyRead o ok s =
      if !ok then loseBlocks e (livenessMask s e.nsid e.slba e.nblk o.addr e.seq) s
      else addT (leaderTile s o.sg) (if x.why == some .promotion then Fld.plc_promoted_count else .rcl_reloc_grains_count) e.len
        (copyLive o.addr (streamOf (x.why.getD .reclaim)) (sweepsCounted x (256 * e.len) s)) := by
  simp only [copyRead, hband, hext, hrcl, bne_self_eq_false, Bool.false_eq_true, if_false]
  rfl

/-- From `s` to `t` only the meters of the chess clock changed. -/
def OnlyClock (s t : State) : Prop := t = { s with clock := t.clock }

theorem OnlyClock.trans {s t u : State} (h : OnlyClock s t) (k : OnlyClock t u) : OnlyClock s u :=
  Eq.trans k (congrArg (fun x : State => { x with clock := u.clock }) h)

theorem onlyClock_of_counts {s t : State} (h : OnlyCounts s t) (hh : t.health = s.health) : OnlyClock s t := by
  rw [OnlyCounts, hh] at h
  rw [h]
  rfl

theorem health_chargeCopy (t sg b n : Nat) (f : Meter → Meter) (s : State) : (chargeCopy t sg b n f s).health = s.health := by
  unfold chargeCopy
  split
  · rfl
  · split <;> rfl

theorem health_chargeExt (t : Nat) (e : Ext) (f : Meter → Meter) (s : State) : (chargeExt t e f s).health = s.health := by
  unfold chargeExt
  split
  · rfl
  · split
    · split <;> rfl
    · exact health_chargeCopy ..

theorem onlyClock_chargeExts {f : Ext → Meter → Meter} (t : Nat) : ∀ (l : List Ext) (s : State),
    OnlyClock s (l.foldl (fun s e => chargeExt t e (f e) s) s)
  | [], _ => rfl
  | e :: l, s => (onlyClock_of_counts (onlyCounts_chargeExt t e (f e) s) (health_chargeExt ..)).trans (onlyClock_chargeExts t l _)

theorem onlyClock_meterErase (x : Band) (copies : List Ext) (s : State) : OnlyClock s (meterErase x copies s) := by
  unfold meterErase
  extract_lets t us g s1
  have h1 : OnlyClock s s1 := onlyClock_chargeExts t copies s
  have h2 : OnlyClock s1 (chargeOver t (Meter.addDie (us - (copies.map fun e => us * e.len / g).sum)) s1) := rfl
  exact h1.trans h2

/-- A copy out of a band that is committed and closed. -/
def copiedOut (s : State) (sg b : Nat) (e : Ext) : Bool :=
  e.committed && e.stage == .closed && ((bandExtents s sg b).map (·.addr)).any fun a => e.src == some a

theorem copiedOut_iff {s : State} {sg b : Nat} {e : Ext} : copiedOut s sg b e = true ↔
    e.committed = true ∧ e.stage = .closed ∧ ∃ f, f ∈ bandExtents s sg b ∧ e.src = some f.addr := by
  simp [copiedOut, and_assoc]

/-- The state with a band that waits for its erase. -/
def eraseReady (sg b ms : Nat) (x : Band) (s : State) : State :=
  bandRecord 0x03 x 0xFF 0xFFFF 0xFFFF
    (updBand sg b (fun x => { x with state := .erasePending, committed := true, drainMs := ms }) s)

/-- The state with the committed copies of a band forgotten. -/
def copiesDropped (s : State) (sg b : Nat) (t : State) : State :=
  { t with wr := { t.wr with exts := t.wr.exts.filter fun e => !copiedOut s sg b e } }

theorem relocationCommitted_of_done {sg b : Nat} {x : Band} {s : State} (hband : findBand s sg b = some x) (hrcl : x.state = .reclaiming)
    (hscan : x.toScan = []) (hopen : openCopies s sg b = false) (hdur : entriesDurable s sg b = true) : relocationCommitted sg b s =
      eraseReady sg b s.nowMs x (copiesDropped s sg b (meterErase x (s.wr.exts.filter (copiedOut s sg b)) s)) := by
  simp only [relocationCommitted, hband, hrcl, hscan, hopen, hdur, bne_self_eq_false, List.isEmpty_nil, Bool.not_true, Bool.or_self,
    Bool.false_eq_true, if_false]
  rfl

theorem eraseReady_frame (sg b ms : Nat) (x : Band) (s : State) : eraseReady sg b ms x s =
    { s with rcl := { s.rcl with bands := (eraseReady sg b ms x s).rcl.bands }, red := (eraseReady sg b ms x s).red } := rfl

theorem findBand_eraseReady {sg b ms : Nat} {x : Band} {s : State} (hband : findBand s sg b = some x) :
    findBand (eraseReady sg b ms x s) sg b = some { x with state := .erasePending, committed := true, drainMs := ms } := by
  refine (findBand_updBand (f := fun x : Band => { x with state := .erasePending, committed := true, drainMs := ms })
    (fun _ => ⟨rfl, rfl⟩) sg b sg b s).trans ?_
  rw [if_pos ⟨rfl, rfl⟩, hband]
  rfl

theorem relocationCommitted_spec {sg b : Nat} {x : Band} {s : State} (hband : findBand s sg b = some x) (hrcl : x.state = .reclaiming)
    (hscan : x.toScan = []) (hopen : openCopies s sg b = false) (hdur : entriesDurable s sg b = true) :
    Next (.relocationCommitted sg b) s fun u =>
      u = { s with wr := { s.wr with exts := u.wr.exts }, rcl := { s.rcl with bands := u.rcl.bands }, red := u.red, clock := u.clock } ∧
      findBand u sg b = some { x with state := .erasePending, committed := true, drainMs := s.nowMs } ∧
      ∀ e, e ∈ u.wr.exts ↔ e ∈ s.wr.exts ∧ ¬(e.committed = true ∧ e.stage = .closed ∧
        ∃ f, f ∈ bandExtents s sg b ∧ e.src = some f.addr) := by
  refine ⟨_, congrArg Host.Outcome.next (relocationCommitted_of_done hband hrcl hscan hopen hdur), ?_⟩
  have hmeter := onlyClock_meterErase x (s.wr.exts.filter (copiedOut s sg b)) s
  generalize meterErase x (s.wr.exts.filter (copiedOut s sg b)) s = t at hmeter ⊢
  have hbands : findBand (copiesDropped s sg b t) sg b = some x := by
    rw [hmeter]
    exact hband
  refine ⟨?_, findBand_eraseReady hbands, fun e => ?_⟩
  · rw [hmeter]
    rfl
  · rw [eraseReady_frame]
    show e ∈ t.wr.exts.filter _ ↔ _
    rw [hmeter, List.mem_filter, Bool.not_eq_true', ← Bool.not_eq_true, copiedOut_iff]

/-! ### Drain and erase (R195, R203, R204) -/

theorem eraseDrain_of_drained {sg b : Nat} {x : Band} {s : State} (hband : findBand s sg b = some x) (hstate : x.state = .erasePending)
    (hms : x.drainMs + 1 ≤ s.nowMs) (hreads : readsPending s x = false) (hdur : recordsDurable s sg b = true)
    (hroom : programRoom s sg b = true) : eraseDrain sg b s =
      if recordsDurable (if intentRecorded s x then s else bandRecord 0x04 x 0xFF 0xFFFF 0xFFFF s) sg b then
        startErases x (if intentRecorded s x then s else bandRecord 0x04 x 0xFF 0xFFFF 0xFFFF s)
      else if intentRecorded s x then s else bandRecord 0x04 x 0xFF 0xFFFF 0xFFFF s := by
  simp only [eraseDrain, hband, hstate, Nat.not_lt.2 hms, hreads, hdur, hroom, bne_self_eq_false, decide_false, Bool.not_true, Bool.or_self,
    Bool.false_eq_true, if_false]

theorem startErases_of_served {x : Band} {s : State} (hkeep : x.retireMembers = [])
    (hserved : ∀ m, m < x.blocks.length → dieServes s (servingAt s x.sg x.idx m).1 = true) : startErases x s =
      addT (leaderTile s x.sg) .rcl_erases_count x.blocks.length (enqueueErases x
        (countUnerased x 0 (updBand x.sg x.idx (fun x => { x with state := .erasing, erased := [] }) s))) := by
  have hlost : (List.range x.blocks.length).filter
      (fun m => !x.retireMembers.contains m && !dieServes s (servingAt s x.sg x.idx m).1) = [] :=
    List.filter_eq_nil_iff.2 fun m hm => by simp [hserved m (List.mem_range.1 hm)]
  unfold startErases
  dsimp only
  rw [hlost, hkeep]
  rfl

/-- The member that is erased is the band's last. -/
theorem lastErased_iff {sg b m : Nat} {x : Band} {s : State} : ((List.range x.blocks.length).all fun k => k == m || x.erased.contains k ||
      x.retireMembers.contains k || x.blocks[k]? == some 0xFFFF || !dieServes s (servingAt s sg b k).1) = true ↔
    ∀ k, k < x.blocks.length → k = m ∨ k ∈ x.erased ∨ k ∈ x.retireMembers ∨ x.blocks[k]? = some 0xFFFF ∨
      dieServes s (servingAt s sg b k).1 = false := by
  simp only [List.all_eq_true, List.mem_range, Bool.or_eq_true, beq_iff_eq, List.contains_iff_mem, Bool.not_eq_true', or_assoc]

/-- The state with a member entered as erased, and its die free. -/
def memberErased (sg b m : Nat) (s : State) : State :=
  finishDieOp (servingAt s sg b m).1 .erase (updBand sg b (fun x => { x with erased := x.erased ++ [m] }) s)

theorem eraseDone_of_erasing {sg b m : Nat} {x : Band} {s : State} (hband : findBand s sg b = some x) (hstate : x.state = .erasing)
    (hnew : m ∉ x.erased) : eraseDone sg b m s =
      if (List.range x.blocks.length).all fun k => k == m || x.erased.contains k || x.retireMembers.contains k ||
          x.blocks[k]? == some 0xFFFF || !dieServes s (servingAt s sg b k).1 then startClosed (bandFreed sg b (memberErased sg b m s))
      else startClosed (memberErased sg b m s) := by
  have hc : x.erased.contains m = false := by simpa using hnew
  simp only [eraseDone, hband, hstate, hc, bne_self_eq_false, Bool.or_self, Bool.false_eq_true, if_false]
  rfl

/-- The wear and the tables of the blocks of a freed band. -/
def blocksFreed (sg : Nat) (x : Band) (s : State) : State :=
  (bandBlocks s x).foldl (fun s y => updBlk y.2.die y.2.block (fun k => { k with
    wear := if x.retireMembers.contains y.1 then k.wear else addWear s sg x.slc k.wear,
    placed := 0, grains := 0, live := 0, summary := 0 }) s) s

/-- From `s` to `t` only block table entries changed. -/
def OnlyBlocks (s t : State) : Prop := t = { s with rcl := { s.rcl with blocks := t.rcl.blocks } }

theorem onlyBlocks_foldl {α : Type} {f : State → α → State} (h : ∀ s x, OnlyBlocks s (f s x)) :
    ∀ (l : List α) (s : State), OnlyBlocks s (l.foldl f s)
  | [], _ => rfl
  | x :: l, s => Eq.trans (onlyBlocks_foldl h l (f s x))
      (congrArg (fun y : State => { y with rcl := { y.rcl with blocks := (l.foldl f (f s x)).rcl.blocks } }) (h s x))

theorem onlyBlocks_blocksFreed (sg : Nat) (x : Band) (s : State) : OnlyBlocks s (blocksFreed sg x s) :=
  onlyBlocks_foldl (f := fun (s : State) (y : Nat × Blk) => updBlk y.2.die y.2.block (fun k => { k with
    wear := if x.retireMembers.contains y.1 then k.wear else addWear s sg x.slc k.wear,
    placed := 0, grains := 0, live := 0, summary := 0 }) s) (fun _ _ => rfl) _ s

/-- A band as it is when its members are erased. -/
def freeAgain (x : Band) : Band :=
  { x with state := .free, rows := 0, nextRow := 0, early := false, retireMembers := [], why := none }

/-- The state with a band freed, before stalemates end. -/
def freedOf (sg b : Nat) (x : Band) (s : State) : State :=
  let s2 := bandRecord 0x05 x 0xFF 0xFFFF 0xFFFF (updBand sg b freeAgain (blocksFreed sg x s))
  sweepBandDone sg b { s2 with
    media := { s2.media with refresh := s2.media.refresh.filter fun x => x != (sg, b) }
    rcl := { s2.rcl with flash := s2.rcl.flash.filter fun e => !(e.sg == sg && e.band == b) }
    red := { s2.red with
      lostSlots := s2.red.lostSlots.filter fun l => !(l.sg == sg && l.band == b)
      unresolved := s2.red.unresolved.filter fun x => x != (sg, b) } }

theorem bandFreed_of_found {sg b : Nat} {x : Band} {s : State} (hband : findBand s sg b = some x) :
    bandFreed sg b s = (freedOf sg b x s).reg.egs.foldl (fun s g => stalemateExit g s) (freedOf sg b x s) := by
  simp only [bandFreed, hband]
  rfl

theorem freedOf_spec {sg b : Nat} {x : Band} {s : State} (hband : findBand s sg b = some x) :
    findBand (freedOf sg b x s) sg b = some (freeAgain x) ∧
    (freedOf sg b x s).media.refresh = s.media.refresh.filter (fun x => x != (sg, b)) ∧
    (freedOf sg b x s).rcl.flash = s.rcl.flash.filter fun e => !(e.sg == sg && e.band == b) := by
  have hblocks := onlyBlocks_blocksFreed sg x s
  have hfree : findBand (freedOf sg b x s) sg b = findBand (updBand sg b freeAgain (blocksFreed sg x s)) sg b := rfl
  refine ⟨?_, ?_, ?_⟩
  · rw [hfree, findBand_updBand (f := freeAgain) fun _ => ⟨rfl, rfl⟩, if_pos ⟨rfl, rfl⟩, hblocks]
    exact congrArg (Option.map freeAgain) hband
  · show (blocksFreed sg x s).media.refresh.filter _ = _
    rw [hblocks]
  · show (blocksFreed sg x s).rcl.flash.filter _ = _
    rw [hblocks]

theorem bandFreed_spec {sg b : Nat} {x : Band} {s : State} (hband : findBand s sg b = some x) :
    findBand (bandFreed sg b s) sg b = some (freeAgain x) ∧ (sg, b) ∉ (bandFreed sg b s).media.refresh ∧
    ∀ e, e ∈ (bandFreed sg b s).rcl.flash ↔ e ∈ s.rcl.flash ∧ (e.sg ≠ sg ∨ e.band ≠ b) := by
  obtain ⟨hfound, hrefresh, hflash⟩ := freedOf_spec hband
  obtain ⟨hrcl, hmedia⟩ := stalemateExits_frame (freedOf sg b x s).reg.egs (freedOf sg b x s)
  rw [bandFreed_of_found hband]
  refine ⟨?_, ?_, fun e => ?_⟩
  · rw [findBand, hrcl, ← findBand]
    exact hfound
  · rw [hmedia, hrefresh]
    simp
  · rw [hrcl, hflash, List.mem_filter]
    simp

theorem eraseFailed_of_erasing {sg b m : Nat} {blank : List Nat} {x : Band} {s s2 : State} (hband : findBand s sg b = some x)
    (hstate : x.state = .erasing) (hs2 : s2 = countUnerased x 1 (countLife 3 ((List.range
      ((blank.takeWhile fun v => s.tfld (leaderTile s sg) .rcl_blank_blank_fail_max < v).length + 1)).foldl
        (fun s _ => replaceMember 0 sg b m s) s))) {y : Band} (hy : findBand s2 sg b = some y) :
    eraseFailed sg b m blank s = if y.state == .retired then s2 else eraseDone sg b m s2 := by
  subst hs2
  simp only [eraseFailed, hband, hstate, hy, bne_self_eq_false, Bool.false_eq_true, if_false]

/-- Settles O54. -/
theorem reclaimCycle : Obligations.ReclaimCycle := by
  unfold Obligations.ReclaimCycle
  refine ⟨fun s => ⟨_, rfl, rfl⟩, fun sg b s hon hfree hidle hband hdone => ?_, fun g s => ⟨fun h => ?_, fun hnew hin k x hx => ?_, fun hon hout k x hx => ?_⟩,
    fun sg b addr x s hband hrcl hnext => ?_, fun sg b addr s h => ⟨_, rfl, ?_⟩, fun o x e s hband hrcl hext => ⟨?_, ?_⟩,
    fun sg b x s hband => ⟨relocationCommitted_spec hband, fun h => ⟨_, rfl, ?_⟩, fun hstate hms hreads hdur hroom => ?_, fun h => ⟨_, rfl, ?_⟩⟩,
    fun x s => startErases_of_served, fun sg b m x s hband hstate hnew => ⟨fun hlast => ?_, fun hlast => ?_⟩,
    fun sg b m s h => ⟨_, rfl, ?_⟩, fun sg b x s => bandFreed_spec, fun sg b m blank x s hband hstate => ⟨_, rfl, fun y hy => ⟨fun hret => ?_, fun hret => ⟨_, rfl, ?_⟩⟩⟩,
    fun sg b m blank s h => ⟨_, rfl, ?_⟩⟩
  case refine_1 =>
    obtain ⟨hurgent, hvictim⟩ := reclaimStep_of_idle hon hfree hidle
    refine ⟨fun hb => ?_, fun hnone hb hlow => ?_⟩
    · obtain ⟨hin, hsealed, hwhy⟩ := urgentBand_spec hb
      exact ⟨hin, hsealed, hwhy, started_of_sealed hband hdone hsealed (mapBand_of_mem_groupBands hin) (hurgent b hb)⟩
    · obtain ⟨hin, hsealed, hqlc, hvalid⟩ := victim_spec hb
      exact ⟨hin, hsealed, hqlc, hvalid, started_of_sealed hband hdone hsealed (mapBand_of_mem_groupBands hin) (hvictim b hnone hb hlow)⟩
  case refine_2 => obtain h | h := h <;> simp [stalemateEnter, h]
  case refine_3 =>
    refine ⟨_, ?_, rfl⟩
    rw [findEg_of_reg (reg_stalemateEnter hnew hin), findEg_setEg (f := fun g => { g with stalemate := true }) fun _ => rfl, hx]
    split <;> rfl
  case refine_4 =>
    rw [findEg_of_reg (reg_stalemateExit hon hout), findEg_setEg (f := fun g => { g with stalemate := false }) fun _ => rfl, hx]
    split <;> rfl
  case refine_5 =>
    have hgo := livenessQuery_of_next hband hrcl hnext
    refine ⟨fun hnone => ⟨_, congrArg Host.Outcome.next hgo, ?_⟩, fun e he => ⟨fun hm => ⟨_, congrArg Host.Outcome.next hgo, ?_⟩,
      fun hm hlost => ⟨_, congrArg Host.Outcome.next hgo, ?_⟩, fun hm hlost => ⟨_, congrArg Host.Outcome.next hgo, ?_⟩⟩⟩
    · have hfind : s.rcl.flash.find? (fun e => e.addr == addr) = none := List.find?_eq_none.2 fun e he => by simpa using hnone e he
      simp only [hfind]
      rfl
    · simp only [he, hm, List.isEmpty_nil, if_true]
      rfl
    · simp only [he, List.isEmpty_eq_false_iff.2 hm, List.isEmpty_eq_false_iff.2 hlost, Bool.not_false, Bool.false_eq_true, if_false, if_true]
      rfl
    · simp only [he, List.isEmpty_eq_false_iff.2 hm, hlost, List.isEmpty_nil, Bool.not_true, Bool.false_eq_true, if_false]
      rfl
  case refine_6 =>
    cases hfind : findBand s sg b with
    | none => simp [livenessQuery, hfind]
    | some x => obtain h | h := h x hfind <;> simp [livenessQuery, hfind, h]
  case refine_7 => simp [copyRead_of_found hband hrcl hext]
  case refine_8 =>
    refine ⟨(sweepsCounted x (256 * e.len) s).rcl.sweeps, ?_, by simp [sweepsCounted]⟩
    rw [copyRead_of_found hband hrcl hext, Bool.not_true, if_neg Bool.false_ne_true]
    simp only [beq_iff_eq]
    rfl
  case refine_9 => obtain h | h | h | h := h <;> simp [relocationCommitted, hband, h]
  case refine_10 =>
    have hgo := eraseDrain_of_drained hband hstate hms hreads hdur hroom
    exact ⟨fun h => ⟨_, congrArg Host.Outcome.next (hgo.trans (if_pos h)), rfl⟩,
      fun h => ⟨_, congrArg Host.Outcome.next (hgo.trans (if_neg (by rw [h]; exact Bool.false_ne_true))), rfl⟩⟩
  case refine_11 => obtain h | h | h | h | h := h <;> simp [eraseDrain, hband, h]
  case refine_12 =>
    exact ⟨_, congrArg Host.Outcome.next ((eraseDone_of_erasing hband hstate hnew).trans (if_pos (lastErased_iff.2 hlast))), rfl⟩
  case refine_13 =>
    exact ⟨_, congrArg Host.Outcome.next ((eraseDone_of_erasing hband hstate hnew).trans (if_neg fun h => hlast (lastErased_iff.1 h))), rfl⟩
  case refine_14 =>
    cases hfind : findBand s sg b with
    | none => simp [eraseDone, hfind]
    | some x => obtain h | h := h x hfind <;> simp [eraseDone, hfind, h]
  case refine_15 => rw [eraseFailed_of_erasing hband hstate rfl hy, hret, beq_self_eq_true, if_pos rfl]
  case refine_16 => rw [eraseFailed_of_erasing hband hstate rfl hy, beq_eq_false_iff_ne.2 hret, if_neg Bool.false_ne_true]
  case refine_17 =>
    cases hfind : findBand s sg b with
    | none => simp [eraseFailed, hfind]
    | some x => simp [eraseFailed, hfind, h x hfind]

end Sys2Proof.Machine
end

section
/-!
PROOFS. O55: the census, block summaries and the sweeps of secure deallocation (R199, R200, R220 to R226).
-/
namespace Sys2Proof.Machine
open Sys2Proof

/-! ### Bits that are set -/

theorem bitOf_add_low {w i j : Nat} (hj : j < i) : bitOf (w + 2 ^ i) j = bitOf w j := by
  obtain ⟨d, rfl⟩ := Nat.exists_eq_add_of_lt hj
  have hpow : 2 ^ (j + d + 1) = 2 ^ j * (2 * 2 ^ d) := by ring
  have hdiv : (w + 2 ^ (j + d + 1)) / 2 ^ j = w / 2 ^ j + 2 * 2 ^ d := by
    rw [hpow, Nat.add_mul_div_left _ _ (Nat.two_pow_pos j)]
  simp only [bitOf, hdiv, Nat.add_mul_mod_self_left]

theorem bitOf_add_self {w i : Nat} (hi : bitOf w i = false) : bitOf (w + 2 ^ i) i = true := by
  have hdiv : (w + 2 ^ i) / 2 ^ i = w / 2 ^ i + 1 := Nat.add_div_right w (Nat.two_pow_pos i)
  simp only [bitOf, hdiv, beq_eq_false_iff_ne, beq_iff_eq] at hi ⊢
  omega

theorem bitOf_add_high {w i j : Nat} (hi : bitOf w i = false) (hj : i < j) : bitOf (w + 2 ^ i) j = bitOf w j := by
  obtain ⟨d, rfl⟩ := Nat.exists_eq_add_of_lt hj
  have hdiv : (w + 2 ^ i) / 2 ^ i = w / 2 ^ i + 1 := Nat.add_div_right w (Nat.two_pow_pos i)
  have hpow : 2 ^ (i + d + 1) = 2 ^ i * 2 * 2 ^ d := by ring
  have hhalf : (w + 2 ^ i) / 2 ^ i / 2 = w / 2 ^ i / 2 := by
    simp only [bitOf, beq_eq_false_iff_ne] at hi
    omega
  simp only [bitOf, hpow, ← Nat.div_div_eq_div_mul, hhalf]

/-- Setting a bit makes it 1. -/
theorem bitOf_setBit_true (w i : Nat) : bitOf (setBit w i true) i = true := by
  unfold setBit
  split
  case isTrue h => exact h
  case isFalse h => exact bitOf_add_self (by simpa using h)

/-- Setting a bit clears none. -/
theorem bitOf_setBit_of_bitOf {w j : Nat} (i : Nat) (h : bitOf w j = true) : bitOf (setBit w i true) j = true := by
  unfold setBit
  split
  case isTrue => exact h
  case isFalse hi =>
    have hi' : bitOf w i = false := by simpa using hi
    obtain hlt | rfl | hgt := Nat.lt_trichotomy i j
    · exact (bitOf_add_high hi' hlt).trans h
    · exact absurd h hi
    · exact (bitOf_add_low hgt).trans h

/-! ### The census (R200) -/

theorem onlyBlocks_liveDeltas (f : Span → Int) (l : List Span) (s : State) : OnlyBlocks s (l.foldl (fun s x => liveDelta x.addr (f x) s) s) :=
  onlyBlocks_foldl (f := fun s (x : Span) => liveDelta x.addr (f x) s) (fun _ _ => rfl) l s

theorem OnlyBlocks.trans {s t u : State} (h : OnlyBlocks s t) (k : OnlyBlocks t u) : OnlyBlocks s u :=
  Eq.trans k (congrArg (fun x : State => { x with rcl := { x.rcl with blocks := u.rcl.blocks } }) h)

theorem onlyBlocks_reportLive (old new : List Span) (s : State) : OnlyBlocks s (reportLive old new s) :=
  (onlyBlocks_liveDeltas ..).trans (onlyBlocks_liveDeltas ..)

/-- The blocks with a region's spans reported. -/
def regionCounted (n r : Nat) (s : State) : State :=
  match findRegion s n r with
  | some x => reportLive [] (x.spans.filter fun y => uncensused s y.addr) s
  | none => s

theorem onlyBlocks_regionCounted (n r : Nat) (s : State) : OnlyBlocks s (regionCounted n r s) := by
  unfold regionCounted
  split
  · exact onlyBlocks_reportLive ..
  · rfl

/-- The regions that are still to be counted, besides one. -/
def censusLeft (s : State) (n r : Nat) : List (Nat × Nat) := s.rcl.toCensus.filter fun x => x != (n, r)

/-- The state with a region taken from the census. -/
def censusTaken (n r : Nat) (s t : State) : State :=
  { t with rcl := { t.rcl with
    toCensus := censusLeft s n r, censusDone := if (censusLeft s n r).isEmpty then t.red.groups.map (·.sg) else t.rcl.censusDone } }

theorem censusRegion_of_due {n r : Nat} {s : State} (hdue : (n, r) ∈ s.rcl.toCensus) (hready : ownerSlot s n r ∉ s.map.replaying) :
    censusRegion n r s = censusTaken n r s (regionCounted n r s) := by
  have h1 : s.rcl.toCensus.contains (n, r) = true := by simpa using hdue
  have h2 : s.map.replaying.contains (ownerSlot s n r) = false := by simpa using hready
  simp only [censusRegion, h1, h2, Bool.not_true, Bool.or_self, Bool.false_eq_true, if_false]
  rfl

theorem censusRegion_spec {n r : Nat} {s : State} (hdue : (n, r) ∈ s.rcl.toCensus) (hready : ownerSlot s n r ∉ s.map.replaying) :
    Next (.censusRegion n r) s fun u =>
      u = { s with rcl := { s.rcl with blocks := u.rcl.blocks, toCensus := u.rcl.toCensus, censusDone := u.rcl.censusDone } } ∧
      (∀ x, x ∈ u.rcl.toCensus ↔ x ∈ s.rcl.toCensus ∧ x ≠ (n, r)) ∧
      ((∀ x, x ∈ s.rcl.toCensus → x = (n, r)) → u.rcl.censusDone = s.red.groups.map (·.sg)) ∧
      ((∃ x, x ∈ s.rcl.toCensus ∧ x ≠ (n, r)) → u.rcl.censusDone = s.rcl.censusDone) ∧
      (findRegion s n r = none → u.rcl.blocks = s.rcl.blocks) := by
  refine ⟨_, congrArg Host.Outcome.next (censusRegion_of_due hdue hready), ?_⟩
  have hcount := onlyBlocks_regionCounted n r s
  have hnone : findRegion s n r = none → regionCounted n r s = s := fun h => by simp only [regionCounted, h]
  generalize regionCounted n r s = t at hcount hnone ⊢
  refine ⟨?_, fun x => ?_, fun hall => ?_, fun ⟨x, hx, hne⟩ => ?_, fun h => by rw [hnone h]; rfl⟩
  · rw [hcount]
    rfl
  · simp [censusTaken, censusLeft]
  · have hnil : censusLeft s n r = [] := List.filter_eq_nil_iff.2 fun x hx => by simp [hall x hx]
    rw [hcount]
    simp only [censusTaken, hnil, List.isEmpty_nil, if_true]
  · have hsome : (censusLeft s n r).isEmpty = false :=
      List.isEmpty_eq_false_iff.2 (List.ne_nil_of_mem (List.mem_filter.2 ⟨hx, by simpa using hne⟩))
    rw [hcount]
    simp only [censusTaken, hsome, Bool.false_eq_true, if_false]

/-! ### Block summaries (R221, R222) -/

/-- A summary with the three bits of a region set. -/
def regionSummed (sum n r : Nat) : Nat :=
  setBit (setBit (setBit sum (ownerCrc n r % 256) true) (ownerCrc n r / 256 % 256) true) (ownerCrc n r / 65536 % 256) true

theorem summaryHas_regionSummed (sum n r : Nat) : summaryHas (regionSummed sum n r) n r = true := by
  simp only [summaryHas, regionSummed, Bool.and_eq_true]
  exact ⟨⟨bitOf_setBit_of_bitOf _ (bitOf_setBit_of_bitOf _ (bitOf_setBit_true ..)), bitOf_setBit_of_bitOf _ (bitOf_setBit_true ..)⟩,
    bitOf_setBit_true ..⟩

theorem summaryHas_keep {sum n r : Nat} (m k : Nat) (h : summaryHas sum n r = true) : summaryHas (regionSummed sum m k) n r = true := by
  simp only [summaryHas, Bool.and_eq_true] at h ⊢
  obtain ⟨⟨h1, h2⟩, h3⟩ := h
  exact ⟨⟨bitOf_setBit_of_bitOf _ (bitOf_setBit_of_bitOf _ (bitOf_setBit_of_bitOf _ h1)),
    bitOf_setBit_of_bitOf _ (bitOf_setBit_of_bitOf _ (bitOf_setBit_of_bitOf _ h2))⟩,
    bitOf_setBit_of_bitOf _ (bitOf_setBit_of_bitOf _ (bitOf_setBit_of_bitOf _ h3))⟩

/-- The entry of a block with an extent counted and summed. -/
def extentSummed (e : FExt) (k : Blk) : Blk :=
  { k with placed := k.placed + e.nblk, grains := k.grains + e.len, summary := regionSummed k.summary e.nsid (e.slba / 256) }

/-- The tables of a tile's blocks with an extent that is on it entered. -/
def summaryFilled (t : Nat) (s : State) (e : FExt) : State :=
  if tileOfDie (dieOf e.addr) == t then updBlk (dieOf e.addr) (blockOf e.addr) (extentSummed e) s else s

/-- The tables of a tile's blocks before they are rebuilt. -/
def summaryBlank (t : Nat) (s : State) : State :=
  { s with rcl := { s.rcl with
     blocks := s.rcl.blocks.map fun k => if tileOfDie k.die == t then { k with placed := 0, grains := 0, summary := 0 } else k } }

/-- Every block that holds an extent has its region's bits. -/
def Summed (s : State) (e : FExt) : Prop :=
  ∀ k, k ∈ s.rcl.blocks → k.die = dieOf e.addr → k.block = blockOf e.addr → summaryHas k.summary e.nsid (e.slba / 256) = true

theorem Summed.filled {s : State} {e : FExt} (h : Summed s e) (t : Nat) (f : FExt) : Summed (summaryFilled t s f) e := by
  unfold summaryFilled
  split
  · intro k hk hd hb
    obtain ⟨k', hk', rfl⟩ := List.mem_map.1 hk
    split at hd
    case isTrue hkey =>
      rw [if_pos hkey] at hb ⊢
      exact summaryHas_keep _ _ (h k' hk' hd hb)
    case isFalse hkey =>
      rw [if_neg hkey] at hb ⊢
      exact h k' hk' hd hb
  · exact h

theorem summed_summaryFilled {t : Nat} {e : FExt} (ht : tileOfDie (dieOf e.addr) = t) (s : State) : Summed (summaryFilled t s e) e := by
  rw [summaryFilled, if_pos (beq_iff_eq.2 ht)]
  intro k hk hd hb
  obtain ⟨k', hk', rfl⟩ := List.mem_map.1 hk
  by_cases hkey : (k'.die == dieOf e.addr && k'.block == blockOf e.addr) = true
  · rw [if_pos hkey]
    exact summaryHas_regionSummed ..
  · rw [if_neg hkey] at hd hb
    exact absurd (by simp [hd, hb]) hkey

theorem summed_foldl {t : Nat} {e : FExt} (ht : tileOfDie (dieOf e.addr) = t) : ∀ (l : List FExt) (s : State), (e ∈ l ∨ Summed s e) →
    Summed (l.foldl (summaryFilled t) s) e
  | [], _, h => h.resolve_left (by simp)
  | f :: l, s, h => by
    refine summed_foldl ht l _ ?_
    obtain h | h := h
    · obtain rfl | h := List.mem_cons.1 h
      · exact .inr (summed_summaryFilled ht s)
      · exact .inl h
    · exact .inr (h.filled t f)

theorem onlyBlocks_summaryFilled (t : Nat) (s : State) (e : FExt) : OnlyBlocks s (summaryFilled t s e) := by
  unfold summaryFilled
  split <;> rfl

/-- The tables rebuilt, where they were not yet. -/
def summaryRebuilt (t : Nat) (s : State) : State :=
  if s.rcl.summariesDone.contains t then s else s.rcl.flash.foldl (summaryFilled t) (summaryBlank t s)

/-- The state with a tile's summaries noted as rebuilt. -/
def summaryNoted (t : Nat) (s : State) : State :=
  { s with rcl := { s.rcl with summariesDone := (t :: s.rcl.summariesDone).eraseDups } }

theorem summaryDone_eq (t : Nat) (s : State) : summaryDone t s = summaryNoted t (summaryRebuilt t s) := rfl

theorem onlyBlocks_summaryRebuilt (t : Nat) (s : State) : OnlyBlocks s (summaryRebuilt t s) := by
  unfold summaryRebuilt
  split
  · rfl
  · have hblank : OnlyBlocks s (summaryBlank t s) := rfl
    exact hblank.trans (onlyBlocks_foldl (onlyBlocks_summaryFilled t) _ _)

theorem summaryDone_spec (t : Nat) (s : State) : Next (.summaryRebuildDone t) s fun u =>
    u = { s with rcl := { s.rcl with blocks := u.rcl.blocks, summariesDone := u.rcl.summariesDone } } ∧
    t ∈ u.rcl.summariesDone ∧ (∀ k, k ≠ t → (k ∈ u.rcl.summariesDone ↔ k ∈ s.rcl.summariesDone)) ∧
    (t ∈ s.rcl.summariesDone → u.rcl.blocks = s.rcl.blocks) ∧
    ∀ e k, t ∉ s.rcl.summariesDone → e ∈ s.rcl.flash → tileOfDie (dieOf e.addr) = t → findBlk u (dieOf e.addr) (blockOf e.addr) = some k →
      summaryHas k.summary e.nsid (e.slba / 256) = true := by
  have hframe := onlyBlocks_summaryRebuilt t s
  refine ⟨_, congrArg Host.Outcome.next (summaryDone_eq t s), ?_, ?_, fun k hk => ?_, fun hdone => ?_, fun e k hnew he ht hfind => ?_⟩
  · rw [hframe]
    rfl
  · exact List.mem_eraseDups.2 List.mem_cons_self
  · rw [hframe]
    exact List.mem_eraseDups.trans (List.mem_cons.trans (or_iff_right hk))
  · show (summaryRebuilt t s).rcl.blocks = _
    rw [summaryRebuilt, if_pos (by simpa using hdone)]
  · have hsum : Summed (summaryRebuilt t s) e := by
      rw [summaryRebuilt, if_neg (by simpa using hnew)]
      exact summed_foldl ht _ _ (.inl he)
    have hkey := List.find?_some hfind
    simp only [Bool.and_eq_true, beq_iff_eq] at hkey
    exact hsum k (List.mem_of_find?_eq_some hfind) hkey.1 hkey.2

/-! ### Sweeps (R223 to R226) -/

/-- From `s` to `t` the sweeps are as they were, and no band lost a sweep that waits for it. -/
def KeepsSweeps (s t : State) : Prop := t.rcl.sweeps = s.rcl.sweeps ∧
  ∀ g i x, findBand t g i = some x → ∃ y, findBand s g i = some y ∧ ∀ id, id ∈ y.sweepIds → id ∈ x.sweepIds

theorem KeepsSweeps.of_rcl {s t : State} (h : t.rcl = s.rcl) : KeepsSweeps s t :=
  ⟨by rw [h], fun g i x hx => ⟨x, by rwa [findBand, h, ← findBand] at hx, fun _ hid => hid⟩⟩

theorem KeepsSweeps.trans {s t u : State} (h : KeepsSweeps s t) (k : KeepsSweeps t u) : KeepsSweeps s u :=
  ⟨k.1.trans h.1, fun g i x hx => by
    obtain ⟨y, hy, hyx⟩ := k.2 g i x hx
    obtain ⟨z, hz, hzy⟩ := h.2 g i y hy
    exact ⟨z, hz, fun id hid => hyx id (hzy id hid)⟩⟩

theorem KeepsSweeps.foldl {α : Type} {f : State → α → State} (h : ∀ s x, KeepsSweeps s (f s x)) :
    ∀ (l : List α) (s : State), KeepsSweeps s (l.foldl f s)
  | [], _ => .of_rcl rfl
  | x :: l, s => (h s x).trans (foldl h l (f s x))

theorem keepsSweeps_updBand {f : Band → Band} (hf : ∀ x, (f x).sg = x.sg ∧ (f x).idx = x.idx)
    (hid : ∀ x id, id ∈ x.sweepIds → id ∈ (f x).sweepIds) (sg b : Nat) (s : State) : KeepsSweeps s (updBand sg b f s) := by
  refine ⟨rfl, fun g i x hx => ?_⟩
  rw [findBand_updBand hf] at hx
  split at hx
  · obtain ⟨y, hy, rfl⟩ := Option.map_eq_some_iff.1 hx
    exact ⟨y, hy, hid y⟩
  · exact ⟨x, hx, fun _ h => h⟩

theorem sweepIds_of_sealedFrom {x y : Band} (h : SealedFrom x y) : y.sweepIds = x.sweepIds := by rw [h]

theorem keepsSweeps_startRelocation (w : Why) (sg b : Nat) (s : State) : KeepsSweeps s (startRelocation w sg b s) := by
  have hframe := onlyBands_startRelocation w sg b s
  refine ⟨by rw [hframe], fun g i x hx => ?_⟩
  rw [findBand_startRelocation] at hx
  split at hx
  · obtain ⟨y, hy, rfl⟩ := Option.map_eq_some_iff.1 hx
    exact ⟨y, hy, fun id hid => (sweepIds_of_sealedFrom (relocating_sealedFrom w sg b _ y).1).symm ▸ hid⟩
  · exact ⟨x, hx, fun _ h => h⟩

theorem keepsSweeps_sealBand (sg b : Nat) (s : State) : KeepsSweeps s (sealBand sg b s) := by
  cases hfind : findBand s sg b with
  | none =>
    have hsame : sealBand sg b s = s := by simp only [sealBand, hfind]
    exact hsame.symm ▸ .of_rcl rfl
  | some y =>
    obtain ⟨hframe, hother, z, hz, hfrom, -⟩ := sealBand_spec hfind
    refine ⟨by rw [hframe], fun g i x hx => ?_⟩
    by_cases hkey : g = sg ∧ i = b
    · obtain ⟨rfl, rfl⟩ := hkey
      obtain rfl : z = x := Option.some.inj (hz.symm.trans hx)
      exact ⟨y, hfind, fun id hid => (sweepIds_of_sealedFrom hfrom).symm ▸ hid⟩
    · exact ⟨x, (hother g i (by tauto)).symm.trans hx, fun _ h => h⟩

theorem rcl_closeRow (sg b i : Nat) (s : State) : (closeRow sg b i s).rcl = s.rcl := by
  unfold closeRow
  split
  · rfl
  · split <;> rfl

/-- A filling row of a band that a sweep waits for, recalled and closed. -/
def rowRecalled (s : State) (r : Row) : State :=
  closeRow r.sg r.band r.idx (updRow r.sg r.band r.idx (fun r => { r with
    expired := true, units := r.units.map fun u => { u with recalled := u.holder.isSome } }) s)

theorem keepsSweeps_rowRecalled (s : State) (r : Row) : KeepsSweeps s (rowRecalled s r) := .of_rcl (rcl_closeRow ..)

theorem keepsSweeps_sweepBand (b : Band) (s : State) : KeepsSweeps s (sweepBand b s) := by
  unfold sweepBand
  split
  · exact keepsSweeps_startRelocation ..
  · dsimp only
    have hearly : KeepsSweeps s (updBand b.sg b.idx (fun x => { x with early := true }) s) :=
      keepsSweeps_updBand (f := fun x => { x with early := true }) (fun _ => ⟨rfl, rfl⟩) (fun _ _ h => h) b.sg b.idx s
    split
    · exact hearly.trans (keepsSweeps_sealBand ..)
    · exact hearly.trans (KeepsSweeps.foldl keepsSweeps_rowRecalled _ _)

/-- A band entered as waited for by a sweep. -/
def sweptBy (id : Nat) (x : Band) : Band := { x with sweepIds := x.sweepIds ++ [id] }

/-- A candidate band of a sweep marked and taken through relocation. -/
def sweepTaken (id : Nat) (s : State) (b : Band) : State := sweepBand b (updBand b.sg b.idx (sweptBy id) s)

theorem keepsSweeps_sweepTaken (id : Nat) (s : State) (b : Band) : KeepsSweeps s (sweepTaken id s b) :=
  (keepsSweeps_updBand (f := sweptBy id) (fun _ => ⟨rfl, rfl⟩) (fun _ _ h => List.mem_append_left _ h) b.sg b.idx s).trans
    (keepsSweeps_sweepBand ..)

theorem mem_sweepIds_sweepTaken {id : Nat} {s : State} {b x : Band} (h : findBand (sweepTaken id s b) b.sg b.idx = some x) :
    id ∈ x.sweepIds := by
  obtain ⟨y, hy, hyx⟩ := (keepsSweeps_sweepBand b (updBand b.sg b.idx (sweptBy id) s)).2 _ _ _ h
  rw [findBand_updBand (f := sweptBy id) fun _ => ⟨rfl, rfl⟩, if_pos ⟨rfl, rfl⟩] at hy
  obtain ⟨z, -, rfl⟩ := Option.map_eq_some_iff.1 hy
  exact hyx id (List.mem_append_right _ (List.mem_singleton.2 rfl))

theorem mem_sweepIds_foldl {id : Nat} {b : Band} : ∀ (l : List Band) (s : State),
    (b ∈ l ∨ ∀ x, findBand s b.sg b.idx = some x → id ∈ x.sweepIds) →
    ∀ x, findBand (l.foldl (sweepTaken id) s) b.sg b.idx = some x → id ∈ x.sweepIds
  | [], _, h => h.resolve_left (by simp)
  | c :: l, s, h => by
    refine mem_sweepIds_foldl l _ ?_
    obtain h | h := h
    · obtain rfl | h := List.mem_cons.1 h
      · exact .inr fun x => mem_sweepIds_sweepTaken
      · exact .inl h
    · refine .inr fun x hx => ?_
      obtain ⟨y, hy, hyx⟩ := (keepsSweeps_sweepTaken id s c).2 _ _ _ hx
      exact hyx id (h y hy)

/-- A sweep with its candidate bands. -/
def sweepStarted (bands : List (Nat × Nat)) (v : Sweep) : Sweep := { v with state := 2, bands := bands }

/-- The state with a sweep changed. -/
def updSweep (id : Nat) (f : Sweep → Sweep) (s : State) : State :=
  { s with rcl := { s.rcl with sweeps := s.rcl.sweeps.map fun v => if v.id == id then f v else v } }

/-- The state with a sweep's candidates taken. -/
def sweepRun (id : Nat) (w : Sweep) (s : State) : State :=
  (sweepCandidates s w).foldl (sweepTaken id) (updSweep id (sweepStarted ((sweepCandidates s w).map fun b => (b.sg, b.idx))) s)

theorem sweepRows_of_due {id : Nat} {w : Sweep} {s : State} (hfind : (s.rcl.sweeps.find? fun w => w.id == id) = some w) (hstate : w.state = 1)
    (hkept : w.kept = true) (hrows : ∀ k, k ∈ w.rows → ∀ r, r ∈ s.wr.rows → isRow k.1 k.2.1 k.2.2 r = false)
    (hready : ∀ t, t ∈ presentTiles s → t ∈ s.rcl.summariesDone) :
    sweepRows id s = sweepRun id w s ∨
    sweepRows id s = drainPump (updCmd (w.cmd.getD 0) (fun c => { c with sweepSync := false }) (sweepRun id w s)) := by
  have hwait : (w.rows.any fun k => s.wr.rows.any fun r => isRow k.1 k.2.1 k.2.2 r) = false :=
    List.any_eq_false.2 fun k hk => by simpa using hrows k hk
  have hsum : summariesReady s = true := List.all_eq_true.2 fun t ht => by simpa using hready t ht
  simp only [sweepRows, hfind, hstate, hkept, hwait, hsum, bne_self_eq_false, Bool.not_true, Bool.or_self, Bool.false_eq_true, if_false]
  exact iteInduction (motive := fun u => u = sweepRun id w s ∨
    u = drainPump (updCmd (w.cmd.getD 0) (fun c => { c with sweepSync := false }) (sweepRun id w s))) (fun _ => .inr rfl) fun _ => .inl rfl

theorem sweepRows_spec {id : Nat} {w : Sweep} {s : State} (hfind : (s.rcl.sweeps.find? fun w => w.id == id) = some w) (hstate : w.state = 1)
    (hkept : w.kept = true) (hrows : ∀ k, k ∈ w.rows → ∀ r, r ∈ s.wr.rows → isRow k.1 k.2.1 k.2.2 r = false)
    (hready : ∀ t, t ∈ presentTiles s → t ∈ s.rcl.summariesDone) : Next (.sweepRowsProgrammed id) s fun u =>
      (u.rcl.sweeps.find? fun w => w.id == id) = some { w with
        state := 2, bands := (sweepCandidates s w).map fun b => (b.sg, b.idx) } ∧
      ∀ b x, b ∈ sweepCandidates s w → findBand u b.sg b.idx = some x → id ∈ x.sweepIds := by
  have hrcl : (sweepRows id s).rcl = (sweepRun id w s).rcl := by
    obtain h | h := sweepRows_of_due hfind hstate hkept hrows hready
    · rw [h]
    · rw [h, (onlyHostSide_drainPump _).1]
      rfl
  have hkeep := (KeepsSweeps.foldl (keepsSweeps_sweepTaken id) (sweepCandidates s w)
    (updSweep id (sweepStarted ((sweepCandidates s w).map fun b => (b.sg, b.idx))) s)).1
  refine ⟨_, rfl, ?_, fun b x hb hx => ?_⟩
  · rw [hrcl, sweepRun, hkeep]
    have hupd := find?_updKey (f := sweepStarted ((sweepCandidates s w).map fun b => (b.sg, b.idx))) Sweep.id (fun _ => rfl) id id s.rcl.sweeps
    rw [if_pos rfl, hfind] at hupd
    exact hupd
  · rw [findBand, hrcl, ← findBand] at hx
    exact mem_sweepIds_foldl _ _ (.inl hb) x hx

theorem sweepDone_of_due {id : Nat} {w : Sweep} {s : State} (hfind : (s.rcl.sweeps.find? fun w => w.id == id) = some w)
    (hstate : w.state = 2) (hbands : w.bands = []) : sweepDone id s =
      match findCmd (syncStores (updSweep id (fun v => { v with state := 3, doneMin := s.island.minutes }) s)) (w.cmd.getD 0) with
      | some c => if c.sweep == id && c.sweepSync && c.took then
          finishCmd c.id .success id (syncStores (updSweep id (fun v => { v with state := 3, doneMin := s.island.minutes }) s))
        else syncStores (updSweep id (fun v => { v with state := 3, doneMin := s.island.minutes }) s)
      | none => (((syncStores (updSweep id (fun v => { v with state := 3, doneMin := s.island.minutes }) s)).host.ctrls.filter
          fun c => attachedTo (syncStores (updSweep id (fun v => { v with state := 3, doneMin := s.island.minutes }) s)) c w.nsid).map
            (·.cntlid)).foldl (fun s k => raiseAen k 7 0xC2 s)
              (syncStores (updSweep id (fun v => { v with state := 3, doneMin := s.island.minutes }) s)) := by
  simp only [sweepDone, hfind, hstate, hbands, bne_self_eq_false, List.isEmpty_nil, Bool.not_true, Bool.or_self, Bool.false_eq_true, if_false]
  rfl

/-! ### The feature of secure deallocation (R220) -/

/-- A namespace with its secure deallocation set. -/
def secureSet (b : Bool) (x : Ns) : Ns := { x with secure := b }

theorem setSecure_of_visible {a : Adm} {n v : Nat} {s : State} (hpart : s.ident.part = .aqk8064) (hvis : visible s a n = true)
    (hflash : s.fw.flash.failed = false) : setSecure a n v s = admDone a .success 0 (syncStores (updNs n (secureSet (bitOf v 0)) s)) := by
  simp only [setSecure, hpart, hvis, hflash, bne_self_eq_false, Bool.not_true, Bool.false_eq_true, if_false]
  rfl

theorem secureFeature_of_aqk8064 {a : Adm} {n v : Nat} {s : State} (hrun : AdmRuns .management a s) (hpart : s.ident.part = .aqk8064) :
    (visible s a n = false → (Next (.setFeaturesSecureDeallocation a n v) s fun u =>
        u = passTurn a (admDone a .invalidNamespaceOrFormat 0 s)) ∧
      Next (.getFeaturesSecureDeallocation a n) s fun u => u = passTurn a (admDone a .invalidNamespaceOrFormat 0 s)) ∧
    (∀ x, visible s a n = true → nsOf s n = some x →
      (s.fw.flash.failed = false → Next (.setFeaturesSecureDeallocation a n v) s fun u => ∃ m,
        u = passTurn a (admDone a .success 0 (syncStores m)) ∧
        m = { s with reg := { s.reg with nss := m.reg.nss } } ∧ nsOf m n = some { x with secure := bitOf v 0 } ∧
        ∀ k, k ≠ n → nsOf m k = nsOf s k) ∧
      (s.fw.flash.failed = true → Next (.setFeaturesSecureDeallocation a n v) s fun u =>
        u = passTurn a (admDone a .internalError 0 s)) ∧
      Next (.getFeaturesSecureDeallocation a n) s fun u => u = passTurn a (admDone a .success (b2n x.secure) s)) := by
  refine ⟨fun hvis => ⟨next_of_runs rfl hrun (by decide) ?_, next_of_runs rfl hrun (by decide) ?_⟩,
    fun x hvis hx => ⟨fun hflash => ?_, fun hflash => next_of_runs rfl hrun (by decide) ?_, next_of_runs rfl hrun (by decide) ?_⟩⟩
  · simp [setSecure, hpart, hvis]
  · have hnone : (s.reg.nss.find? fun x => x.nsid == n).filter (fun _ => visible s a n) = none := by
      simp [hvis]
    simp only [getSecure, hpart, hnone, bne_self_eq_false, Bool.false_eq_true, if_false]
  · obtain ⟨u, hu, hpass⟩ := next_of_runs (c := .setFeaturesSecureDeallocation a n v) rfl hrun (by decide) (setSecure_of_visible hpart hvis hflash)
    refine ⟨u, hu, updNs n (secureSet (bitOf v 0)) s, hpass, rfl, ?_, fun k hk => ?_⟩
    · rw [nsOf_updNs (f := secureSet (bitOf v 0)) fun _ => rfl, if_pos rfl, hx]
      rfl
    · rw [nsOf_updNs (f := secureSet (bitOf v 0)) fun _ => rfl, if_neg hk]
  · simp [setSecure, hpart, hvis, hflash]
  · have hsome : (s.reg.nss.find? fun x => x.nsid == n).filter (fun _ => visible s a n) = some x := by
      unfold nsOf at hx
      simp [hvis, hx]
    simp only [getSecure, hpart, hsome, bne_self_eq_false, Bool.false_eq_true, if_false]

/-- Settles O55. -/
theorem censusAndSweeps : Obligations.CensusAndSweeps := by
  unfold Obligations.CensusAndSweeps
  refine ⟨fun n r s => censusRegion_spec, fun n r s h => ⟨_, rfl, ?_⟩, summaryDone_spec,
    fun id w s hfind => ⟨sweepRows_spec hfind, fun h => ⟨_, rfl, ?_⟩, fun hstate hbands => ?_, fun h => ⟨_, rfl, ?_⟩⟩,
    fun id s => ⟨_, rfl, rfl, fun w => ?_⟩, fun a n v s hrun hpart => secureFeature_of_aqk8064 hrun hpart,
    fun a n v s hrun hpart => ⟨next_of_runs rfl hrun (by decide) ?_, next_of_runs rfl hrun (by decide) ?_⟩⟩
  case refine_1 => obtain h | h := h <;> simp [censusRegion, h]
  case refine_2 =>
    obtain h | h | ⟨t, ht, hnot⟩ | ⟨k, r, hk, hr, hrow⟩ := h
    · simp [sweepRows, hfind, h]
    · simp [sweepRows, hfind, h]
    · have hsum : summariesReady s = false := List.all_eq_false.2 ⟨t, ht, by simpa using hnot⟩
      simp [sweepRows, hfind, hsum]
    · have hwait : (w.rows.any fun k => s.wr.rows.any fun r => isRow k.1 k.2.1 k.2.2 r) = true :=
        List.any_eq_true.2 ⟨k, hk, List.any_eq_true.2 ⟨r, hr, hrow⟩⟩
      simp only [sweepRows, hfind, hwait, Bool.or_true, Bool.true_or, if_true]
  case refine_3 =>
    have hgo := sweepDone_of_due hfind hstate hbands
    refine ⟨fun c hc hid hsync htook => ⟨_, congrArg Host.Outcome.next hgo, ?_⟩, fun hnone => ⟨_, congrArg Host.Outcome.next hgo, ?_⟩⟩
    · unfold updSweep
      simp only [hc, hid, hsync, htook, BEq.rfl, Bool.and_self, if_true]
    · unfold updSweep
      simp only [hnone]
  case refine_4 => obtain h | h := h <;> simp [sweepDone, hfind, h]
  case refine_5 =>
    simp only [sweepExpire, List.mem_filter, Bool.not_eq_true', ← Bool.not_eq_true, Bool.and_eq_true, beq_iff_eq, decide_eq_true_eq, and_assoc]
  case refine_6 => simp [setSecure, hpart]
  case refine_7 => simp [getSecure, hpart]

end Sys2Proof.Machine
end

section
/-!
PROOFS. The staging log, the code flash and the end of an operation on the firmware (R442, R453, R462).
-/
namespace Sys2Proof.Machine
open Sys2Proof

/-! ### The staging log (R453) -/

/-- From `s` to `t` only the staging log and the code flash's counters changed. -/
def OnlyLog (s t : State) : Prop := t = { s with fw := { s.fw with log := t.fw.log, flash := t.fw.flash } }

theorem OnlyLog.trans {s t u : State} (h : OnlyLog s t) (k : OnlyLog t u) : OnlyLog s u :=
  Eq.trans k (congrArg (fun x : State => { x with fw := { x.fw with log := u.fw.log, flash := u.fw.flash } }) h)

theorem onlyLog_flashAccess (s : State) : OnlyLog s (flashAccess s) := rfl
theorem onlyLog_countErases (first n : Nat) (s : State) : OnlyLog s (countErases first n s) := rfl
theorem onlyLog_flashStart (s : State) : OnlyLog s (flashStart s) := rfl
theorem onlyLog_flashEnd (s : State) : OnlyLog s (flashEnd s) := rfl

/-- From `s` to `t` only the firmware side changed. -/
def OnlyFw (s t : State) : Prop := t = { s with fw := t.fw }

theorem OnlyFw.trans {s t u : State} (h : OnlyFw s t) (k : OnlyFw t u) : OnlyFw s u :=
  Eq.trans k (congrArg (fun x : State => { x with fw := u.fw }) h)

theorem onlyFw_updFw (f : FwState → FwState) (s : State) : OnlyFw s (updFw f s) := rfl

theorem OnlyLog.onlyFw {s t : State} (h : OnlyLog s t) : OnlyFw s t :=
  Eq.trans h (congrArg (fun w : FwState => { s with fw := w }) (congrArg State.fw h).symm)

theorem OnlyLog.fw_eq {s t : State} (h : OnlyLog s t) : t.fw = { s.fw with log := t.fw.log, flash := t.fw.flash } := congrArg State.fw h

/-- An event logged after a change of the firmware side. -/
theorem onlyFw_logEv {s t : State} (h : OnlyFw s t) (e : Ev) (n : Nat) (l : List Nat) :
    logEv e n l t = { s with fw := (logEv e n l t).fw, evr := (logEv e n l t).evr } :=
  have hlog : logEv e n l t = { t with evr := (logEv e n l t).evr } := rfl
  hlog.trans (congrArg (fun x : State => { x with evr := (logEv e n l t).evr }) h)

/-- What only changes the firmware side keeps the rest. -/
theorem OnlyFw.rest {s t : State} (h : OnlyFw s t) : t.prov = s.prov ∧ t.ident = s.ident ∧ t.reg = s.reg ∧ t.evr = s.evr := by
  rw [h]
  exact ⟨rfl, rfl, rfl, rfl⟩

/-- The state with the staging log replaced, the die powered up. -/
def logPut (l : List LogRec) (s : State) : State := flashAccess (updFw (fun w => { w with log := l }) s)

theorem onlyLog_logPut (l : List LogRec) (s : State) : OnlyLog s (logPut l s) := rfl

/-- The log with a new sector, which begins with a snapshot. -/
def logTurned (k : LogKind) (r : LogRec) (l : List LogRec) : List LogRec :=
  l ++ [{ sector := (r.sector + 1) % 8, pair := 0, kind := .snapshot (logSays l) }, { sector := (r.sector + 1) % 8, pair := 1, kind := k }]

/-- The log without its oldest sector. -/
def logTrimmed (old : Nat) (l : List LogRec) : List LogRec := l.filter fun r => r.sector != old

theorem logAppend_of_nil {k : LogKind} {s : State} (h : s.fw.log.getLast? = none) :
    logAppend k s = logPut [{ sector := 0, pair := 0, kind := k }] s := by
  simp only [logAppend, h]
  rfl

theorem logAppend_of_room {k : LogKind} {r : LogRec} {s : State} (h : s.fw.log.getLast? = some r) (hroom : r.pair < 127) :
    logAppend k s = logPut (s.fw.log ++ [{ sector := r.sector, pair := r.pair + 1, kind := k }]) s := by
  simp only [logAppend, h, hroom, if_true]
  rfl

theorem logAppend_of_full {k : LogKind} {r : LogRec} {s : State} (h : s.fw.log.getLast? = some r) (hfull : ¬r.pair < 127) :
    logAppend k s = logPut (logTurned k r s.fw.log) s ∨
    logAppend k s = countErases (logSector + (s.fw.log.head?.map (·.sector)).getD 0) 1
      (logPut (logTrimmed ((s.fw.log.head?.map (·.sector)).getD 0) (logTurned k r s.fw.log)) s) := by
  by_cases hdrop : 8 ≤ (((logTurned k r s.fw.log).map (·.sector)).eraseDups).length
  · right
    unfold logTurned at hdrop
    simp only [logAppend, h, hfull, if_false, hdrop, if_true]
    rfl
  · left
    unfold logTurned at hdrop
    simp only [logAppend, h, hfull, if_false, hdrop]
    rfl

theorem onlyLog_logAppend (k : LogKind) (s : State) : OnlyLog s (logAppend k s) := by
  cases h : s.fw.log.getLast? with
  | none =>
    rw [logAppend_of_nil h]
    exact onlyLog_logPut ..
  | some r =>
    by_cases hroom : r.pair < 127
    · rw [logAppend_of_room h hroom]
      exact onlyLog_logPut ..
    · obtain hgo | hgo := logAppend_of_full (k := k) h hroom
      · rw [hgo]
        exact onlyLog_logPut ..
      · rw [hgo]
        exact (onlyLog_logPut ..).trans (onlyLog_countErases ..)

theorem logSays_append (l m : List LogRec) : logSays (l ++ m) = m.foldl (fun x r => r.kind.apply x) (logSays l) := List.foldl_append

theorem logSays_logTurned (k : LogKind) (r : LogRec) (l : List LogRec) : logSays (logTurned k r l) = k.apply (logSays l) :=
  logSays_append l _

/-- Dropping the oldest sector loses nothing: the snapshot after it says what it said. -/
theorem logSays_logTrimmed {k : LogKind} {r q : LogRec} {l : List LogRec} (hhead : l.head? = some q) (hnew : q.sector ≠ (r.sector + 1) % 8) :
    logSays (logTrimmed ((l.head?.map (·.sector)).getD 0) (logTurned k r l)) = k.apply (logSays l) := by
  have hkeep : ((r.sector + 1) % 8 != q.sector) = true := by simpa using fun h => hnew h.symm
  rw [hhead]
  simp only [Option.map_some, Option.getD_some, logTrimmed, logTurned, List.filter_append, List.filter_cons, hkeep, if_true,
    List.filter_nil, logSays_append]
  rfl

theorem logSays_logAppend {k : LogKind} {s : State}
    (hnew : ∀ l, s.fw.log.getLast? = some l → ∀ r ∈ s.fw.log, r.sector ≠ (l.sector + 1) % 8) :
    logSays (logAppend k s).fw.log = k.apply (logSays s.fw.log) := by
  cases h : s.fw.log.getLast? with
  | none =>
    rw [logAppend_of_nil h, List.getLast?_eq_none_iff.1 h]
    rfl
  | some r =>
    by_cases hroom : r.pair < 127
    · rw [logAppend_of_room h hroom]
      exact logSays_append ..
    · have hne : s.fw.log ≠ [] := fun hnil => by simp [hnil] at h
      obtain ⟨q, hq⟩ := Option.isSome_iff_exists.1 (List.isSome_head?.2 hne)
      obtain hgo | hgo := logAppend_of_full (k := k) h hroom
      · rw [hgo]
        exact logSays_logTurned ..
      · rw [hgo]
        exact logSays_logTrimmed hq (hnew r h q (List.mem_of_head? hq))

/-! ### The end of an operation on the firmware (R97, R462) -/

/-- The end of the provider's operation: the stores take what changed, the held commands are let go. -/
def OnlyProvEnd (s t : State) : Prop :=
  t = { s with fw := storesOf s t, prov := none, heldAdmin := [], released := t.released, cleared := t.cleared }

theorem onlyProvEnd_provEnd (s : State) : OnlyProvEnd s (provEnd s) := by
  have h := onlyStores_syncStores { s with prov := none }
  rw [provEnd_eq]
  generalize syncStores { s with prov := none } = t at h ⊢
  rw [h]
  rfl

theorem fwOpDone_of_firmware {p : ProvOp} {st : Status} {s : State} (hprov : s.prov = some p) (hkind : p.kind = .firmware) :
    fwOpDone st s = provEnd (admDone p.adm st 0 s) := by
  simp [fwOpDone, hprov, hkind]

/-- An operation on the firmware that ends leaves the firmware, the registry and the identity of the unit. -/
theorem fwOpDone_spec {p : ProvOp} {s : State} (st : Status) (hprov : s.prov = some p) (hkind : p.kind = .firmware) :
    (fwOpDone st s).fw = storesOf s (fwOpDone st s) ∧ (fwOpDone st s).prov = none ∧ (fwOpDone st s).heldAdmin = [] ∧
    (fwOpDone st s).ident = s.ident ∧ (fwOpDone st s).reg = s.reg := by
  rw [fwOpDone_of_firmware hprov hkind]
  have hend := onlyProvEnd_provEnd (admDone p.adm st 0 s)
  have hdone := (onlyHostSide_admDone p.adm st 0 s).1
  generalize admDone p.adm st 0 s = t at hend hdone ⊢
  generalize provEnd t = u at hend ⊢
  have hfw : t.fw = s.fw := by rw [hdone]
  have hreg : t.reg = s.reg := by rw [hdone]
  have hident : t.ident = s.ident := by rw [hdone]
  refine ⟨?_, ?_, ?_, ?_, ?_⟩
  · calc u.fw = storesOf t u := by rw [hend]; rfl
      _ = storesOf s u := by rw [storesOf, hfw, ← storesOf]
  · rw [hend]
  · rw [hend]
  · rw [hend]
    exact hident
  · rw [hend]
    exact hreg

end Sys2Proof.Machine
end

section
/-!
PROOFS. O25: Firmware Image Download and Firmware Commit (R449 to R456, R464).
-/
namespace Sys2Proof.Machine
open Sys2Proof

/-! ### Download (R450 to R453) -/

theorem fwDownload_of_busy {a : Adm} {off : Nat} {d : Bytes} {s : State} (h : 3 ≤ s.fw.stage) :
    fwDownload a off d s = admDone a .commandSequenceError 0 s := by
  simp [fwDownload, h]

theorem fwDownload_of_piece {a : Adm} {i : Nat} {d m : Bytes} {s : State} (hstage : s.fw.stage < 3) (hpos : 0 < i) (hmax : i ≤ 383)
    (hman : stagedManifest s = some m) (hin : i ≤ mfPieces m) (hlen : d.length = pieceLen m i) : fwDownload a (65536 * i) d s =
      if recorded s i then admDone a .success 0 s
      else if sha256 d != mfPieceDigest m i then admDone a .invalidField 0 (logEv .fwPieceReject 15 [i, 0] s)
      else startPiece a i d s := by
  have hdiv : 65536 * i / 65536 = i := Nat.mul_div_cancel_left i (by decide)
  have hoff : (65536 * i % 65536 != 0 || decide (383 < i)) = false := by
    rw [Nat.mul_mod_right]
    simp [hmax]
  have hzero : (65536 * i == 0) = false := by simp [Nat.ne_of_gt hpos]
  simp only [fwDownload, Nat.not_le.2 hstage, hdiv, hoff, hzero, Bool.false_eq_true, if_false, downloadData, hman, Nat.not_lt.2 hin, hlen, bne_self_eq_false]

theorem fwDownload_manifest {a : Adm} {d : Bytes} {s : State} (hstage : s.fw.stage < 3) : fwDownload a 0 d s = downloadManifest a d s := by
  simp [fwDownload, Nat.not_le.2 hstage]

theorem fw_admPark (a : Adm) (s : State) : (admPark a s).fw = s.fw := by cases a <;> rfl

/-- The state in which a piece is being written. -/
def pieceStarted (a : Adm) (i : Nat) (d : Bytes) (s : State) : State :=
  updFw (fun w => { w with writing := some (i, d) }) (flashStart { s with prov := some { adm := a, kind := .firmware } })

theorem startPiece_spec (a : Adm) (i : Nat) (d : Bytes) (s : State) :
    startPiece a i d s = admPark a { s with fw := (startPiece a i d s).fw, prov := some { adm := a, kind := .firmware } } ∧
      (startPiece a i d s).fw.writing = some (i, d) ∧ (startPiece a i d s).fw.staging = s.fw.staging := by
  have hfw : (startPiece a i d s).fw = (pieceStarted a i d s).fw := fw_admPark a _
  have hframe : OnlyFw { s with prov := some { adm := a, kind := .firmware } } (pieceStarted a i d s) :=
    (onlyLog_flashStart _).onlyFw.trans (onlyFw_updFw _ _)
  rw [hfw]
  exact ⟨congrArg (admPark a) hframe, rfl, rfl⟩

/-- The state in which the die is free of a piece. -/
def pieceFree (i : Nat) (s : State) : State := flashEnd (countErases (stagingSector + i) 1 (updFw (fun w => { w with writing := none }) s))

/-- The die free of a piece: nothing is written, and what is staged stays. -/
theorem pieceFree_spec (i : Nat) (s : State) : OnlyFw s (pieceFree i s) ∧ (pieceFree i s).fw.writing = none ∧
    (pieceFree i s).fw.staging = s.fw.staging ∧ (pieceFree i s).fw.stage = s.fw.stage ∧ (pieceFree i s).fw.slotA = s.fw.slotA ∧
    (pieceFree i s).fw.slotB = s.fw.slotB :=
  ⟨(onlyFw_updFw _ s).trans ((onlyLog_countErases _ _ _).onlyFw.trans (onlyLog_flashEnd _).onlyFw), rfl, rfl, rfl, rfl, rfl⟩

theorem pieceDone_of_writing {i : Nat} {d : Bytes} {s : State} (h : s.fw.writing = some (i, d)) (ok : Bool) : pieceDone i ok s =
    if !ok || s.fw.flash.failed then fwOpDone .internalError (pieceFree i s)
    else if i == 0 then fwOpDone .success (logAppend .manifestOk (updFw (fun w => { w with staging := [(0, d)], stage := 1 }) (pieceFree i s)))
    else if s.fw.stage == 0 then fwOpDone .commandSequenceError (pieceFree i s)
    else fwOpDone .success (checkWhole (logAppend (.pieceOk i) (updFw (fun w => { w with staging := w.staging ++ [(i, d)] }) (pieceFree i s)))) := by
  simp only [pieceDone, h, bne_self_eq_false, Bool.false_eq_true, if_false]
  rfl

/-- The check of the whole image changes only that it runs, and the die's counters. -/
theorem checkWhole_frame (s : State) : OnlyFw s (checkWhole s) ∧
    (checkWhole s).fw = { s.fw with checking := (checkWhole s).fw.checking, flash := (checkWhole s).fw.flash } := by
  unfold checkWhole
  split
  · exact ⟨(onlyLog_flashAccess s).onlyFw.trans (onlyFw_updFw _ _), rfl⟩
  · exact ⟨rfl, rfl⟩

theorem pieceDone_manifest {d : Bytes} {p : ProvOp} {s : State} (hwrite : s.fw.writing = some (0, d)) (hprov : s.prov = some p)
    (hkind : p.kind = .firmware) (hflash : s.fw.flash.failed = false) :
    Next (.pieceWriteDone 0 true) s fun t => t.fw.writing = none ∧ t.fw.staging = [(0, d)] ∧ t.fw.stage = 1 ∧
      t.prov = none ∧ t.heldAdmin = [] ∧ t.ident = s.ident ∧ t.fw.slotA = s.fw.slotA ∧ t.fw.slotB = s.fw.slotB := by
  have hgo := pieceDone_of_writing hwrite true
  rw [hflash, if_neg (by decide), if_pos (by decide)] at hgo
  refine ⟨_, congrArg Host.Outcome.next hgo, ?_⟩
  obtain ⟨hfree, hwriting, -, -, hslotA, hslotB⟩ := pieceFree_spec 0 s
  generalize pieceFree 0 s = v at hfree hwriting hslotA hslotB ⊢
  have hlog := onlyLog_logAppend .manifestOk (updFw (fun w => { w with staging := [(0, d)], stage := 1 }) v)
  generalize logAppend .manifestOk _ = t at hlog ⊢
  obtain ⟨hprov', hident', -, -⟩ := (hfree.trans ((onlyFw_updFw _ v).trans hlog.onlyFw)).rest
  obtain ⟨hfw, hdone, hheld, hident, -⟩ := fwOpDone_spec .success (hprov'.trans hprov) hkind
  generalize fwOpDone .success t = u at hfw hdone hheld hident ⊢
  rw [hfw, storesOf, hlog.fw_eq]
  exact ⟨hwriting, rfl, rfl, hdone, hheld, hident.trans hident', hslotA, hslotB⟩

theorem pieceDone_data {i : Nat} {d : Bytes} {p : ProvOp} {s : State} (hwrite : s.fw.writing = some (i, d)) (hprov : s.prov = some p)
    (hkind : p.kind = .firmware) (hflash : s.fw.flash.failed = false) (hi : i ≠ 0) (hstage : s.fw.stage ≠ 0) :
    Next (.pieceWriteDone i true) s fun t => t.fw.writing = none ∧ t.fw.staging = s.fw.staging ++ [(i, d)] ∧
      t.fw.stage = s.fw.stage ∧ t.prov = none ∧ t.fw.slotA = s.fw.slotA ∧ t.fw.slotB = s.fw.slotB := by
  have hgo := pieceDone_of_writing hwrite true
  rw [hflash, if_neg (by decide), if_neg (by simpa using hi), if_neg (by simpa using hstage)] at hgo
  refine ⟨_, congrArg Host.Outcome.next hgo, ?_⟩
  obtain ⟨hfree, hwriting, hstaging, hstage', hslotA, hslotB⟩ := pieceFree_spec i s
  generalize pieceFree i s = v at hfree hwriting hstaging hstage' hslotA hslotB ⊢
  have hlog := onlyLog_logAppend (.pieceOk i) (updFw (fun w => { w with staging := w.staging ++ [(i, d)] }) v)
  generalize logAppend (.pieceOk i) _ = t at hlog ⊢
  obtain ⟨hcheck, hcheckFw⟩ := checkWhole_frame t
  generalize checkWhole t = y at hcheck hcheckFw ⊢
  obtain ⟨hprov', -, -, -⟩ := (hfree.trans ((onlyFw_updFw _ v).trans (hlog.onlyFw.trans hcheck))).rest
  obtain ⟨hfw, hdone, -, -, -⟩ := fwOpDone_spec .success (hprov'.trans hprov) hkind
  generalize fwOpDone .success y = u at hfw hdone ⊢
  rw [hfw, storesOf, hcheckFw, hlog.fw_eq]
  exact ⟨hwriting, congrArg (· ++ [(i, d)]) hstaging, hstage', hdone, hslotA, hslotB⟩

theorem pieceDone_failed {i : Nat} {d : Bytes} {p : ProvOp} {s : State} (hwrite : s.fw.writing = some (i, d)) (hprov : s.prov = some p)
    (hkind : p.kind = .firmware) :
    Next (.pieceWriteDone i false) s fun t => t.fw.writing = none ∧ t.fw.staging = s.fw.staging ∧ t.prov = none := by
  have hgo := pieceDone_of_writing hwrite false
  rw [Bool.not_false, Bool.true_or, if_pos rfl] at hgo
  refine ⟨_, congrArg Host.Outcome.next hgo, ?_⟩
  obtain ⟨hfree, hwriting, hstaging, -, -, -⟩ := pieceFree_spec i s
  generalize pieceFree i s = v at hfree hwriting hstaging ⊢
  obtain ⟨hfw, hdone, -, -, -⟩ := fwOpDone_spec .internalError (hfree.rest.1.trans hprov) hkind
  generalize fwOpDone .internalError v = u at hfw hdone ⊢
  rw [hfw, storesOf]
  exact ⟨hwriting, hstaging, hdone⟩

/-! ### The check of the whole image (R453) -/

theorem stageRestart_frame (s : State) : OnlyFw s (stageRestart s) ∧ (stageRestart s).fw.stage = 0 ∧
    (stageRestart s).fw.staging = [] ∧ (stageRestart s).fw.checking = false := by
  have hlog := onlyLog_logAppend .stageRestart
    (updFw (fun w => { w with staging := [], stage := 0, checking := false, pendingStart := false }) s)
  unfold stageRestart
  generalize logAppend .stageRestart _ = t at hlog ⊢
  rw [hlog.fw_eq]
  exact ⟨(onlyFw_updFw _ s).trans hlog.onlyFw, rfl, rfl, rfl⟩

theorem digestCheckDone_of_equal {s : State} (hon : s.fw.checking = true) (heq : digestsEqual s.fw.staging = true)
    (hflash : s.fw.flash.failed = false) : digestCheckDone s = updFw (fun w => { w with checking := false, stage := 2 }) s := by
  simp [digestCheckDone, hon, heq, hflash]

theorem digestCheckDone_of_fault {s : State} (hon : s.fw.checking = true) (h : digestsEqual s.fw.staging = false ∨ s.fw.flash.failed = true) :
    digestCheckDone s = logEv .fwManifestRefused 15 [3] (stageRestart s) := by
  obtain h | h := h <;> simp [digestCheckDone, hon, h]

theorem digestCheck_spec {s : State} (hon : s.fw.checking = true) :
    Next .digestCheckDone s fun t => t = { s with fw := t.fw, evr := t.evr } ∧ t.fw.checking = false ∧
      (digestsEqual s.fw.staging = true → s.fw.flash.failed = false → t.fw.stage = 2 ∧ t.fw.staging = s.fw.staging ∧
        t.evr = s.evr) ∧
      ((digestsEqual s.fw.staging = false ∨ s.fw.flash.failed = true) → t.fw.stage = 0 ∧ t.fw.staging = [] ∧
        Logs .fwManifestRefused 15 [3] s t) := by
  refine ⟨digestCheckDone s, rfl, ?_⟩
  by_cases h : digestsEqual s.fw.staging = true ∧ s.fw.flash.failed = false
  · obtain ⟨heq, hflash⟩ := h
    rw [digestCheckDone_of_equal hon heq hflash]
    exact ⟨rfl, rfl, fun _ _ => ⟨rfl, rfl, rfl⟩, fun h => absurd h (by simp [heq, hflash])⟩
  · have hbad : digestsEqual s.fw.staging = false ∨ s.fw.flash.failed = true := by
      rw [not_and_or, Bool.not_eq_true, Bool.not_eq_false] at h
      exact h
    rw [digestCheckDone_of_fault hon hbad]
    obtain ⟨hframe, hstage, hstaging, hcheck⟩ := stageRestart_frame s
    generalize stageRestart s = t at hframe hstage hstaging hcheck ⊢
    refine ⟨onlyFw_logEv hframe _ _ _, hcheck, fun h1 h2 => absurd ⟨h1, h2⟩ h, fun _ => ⟨hstage, hstaging, ?_⟩⟩
    exact (logEv_evr ..).trans (by rw [hframe.rest.2.2.2])

/-! ### Commit (R455, R456) -/

theorem commitControl_of_slot {a : Adm} {fs : Nat} {act : State → State} {s : State} (h : 1 < fs) :
    commitControl a fs act s = admDone a .invalidFirmwareSlot 0 s := by
  simp [commitControl, h]

theorem commitControl_of_fault {a : Adm} {fs : Nat} {act : State → State} {st : Status} {s : State} (h : fs ≤ 1) (hf : commitFault s = some st) :
    commitControl a fs act s = admDone a st 0 s := by
  simp [commitControl, Nat.not_lt.2 h, hf]

theorem commitControl_of_good {a : Adm} {fs : Nat} {act : State → State} {s : State} (h : fs ≤ 1) (hf : commitFault s = none)
    (hrec : s.fw.recovery = false) : commitControl a fs act s = act s := by
  simp [commitControl, Nat.not_lt.2 h, hf, hrec]

theorem statusVector_eq_or (old s : State) : statusVector old s = s ∨ statusVector old s = emit (.ringIrq 3) s := by
  unfold statusVector
  split
  · exact .inl rfl
  · exact .inr rfl

/-- The state in which a live activation has been asked for. -/
def activationAsked (a : Adm) (s : State) : State :=
  statusVector s (admPark a (updFw (fun w => { w with activating := true, actStep := 1 })
    { s with prov := some { adm := a, kind := .firmware } }))

theorem activationAsked_frame (a : Adm) (s : State) : (activationAsked a s).fw = { s.fw with activating := true, actStep := 1 } ∧
    (activationAsked a s).prov = some { adm := a, kind := .firmware } ∧ (activationAsked a s).ident = s.ident ∧
    (activationAsked a s).reg = s.reg := by
  have hpark : ∀ t : State, (admPark a t).fw = t.fw ∧ (admPark a t).prov = t.prov ∧ (admPark a t).ident = t.ident ∧
      (admPark a t).reg = t.reg := fun t => by cases a <;> exact ⟨rfl, rfl, rfl, rfl⟩
  unfold activationAsked
  obtain h | h := statusVector_eq_or s (admPark a (updFw (fun w => { w with activating := true, actStep := 1 })
    { s with prov := some { adm := a, kind := .firmware } }))
  · rw [h]
    exact hpark _
  · rw [h]
    exact hpark _

theorem commitImmediate_spec {a : Adm} {fs : Nat} {s : State} (hrun : AdmRuns .registry a s) (h : fs ≤ 1) (hf : commitFault s = none)
    (hrec : s.fw.recovery = false) : Next (.firmwareCommitImmediate a fs) s fun t =>
      t.fw = { storesOf s t with activating := true, actStep := 1 } ∧
      t.prov = some { adm := a, kind := .firmware } ∧ t.ident = s.ident ∧ t.reg = s.reg := by
  obtain ⟨t, ht, hpass⟩ := next_registry (c := .firmwareCommitImmediate a fs) rfl hrun
    (commitControl_of_good (act := activationAsked a) h hf hrec)
  refine ⟨t, ht, ?_⟩
  obtain ⟨hfw, hprov, hident, hreg⟩ := activationAsked_frame a s
  have hstores := onlyStores_syncStores (activationAsked a s)
  have hturn := onlyTurns_passTurn a (syncStores (activationAsked a s))
  rw [← hpass] at hturn
  generalize syncStores (activationAsked a s) = v at hstores hturn
  generalize activationAsked a s = w at hfw hprov hident hreg hstores
  have htfw : t.fw = storesOf w t := by rw [hturn, hstores]; rfl
  rw [storesOf, hfw] at htfw
  refine ⟨htfw, ?_, ?_, ?_⟩
  · rw [hturn, hstores]
    exact hprov
  · rw [hturn, hstores]
    exact hident
  · rw [hturn, hstores]
    exact hreg

/-- Settles O25. -/
theorem firmwareStaging : Obligations.FirmwareStaging := by
  unfold Obligations.FirmwareStaging
  refine ⟨fun a off d s hrun => ⟨fun h => next_registry rfl hrun (fwDownload_of_busy h), fun h hoff => next_registry rfl hrun ?_,
      fun h hoff hlen => next_registry rfl hrun ?_, fun h hoff hlen hnone => ?_⟩,
    fun a i d m s hrun hstage hpos hmax hman hin hlen => ⟨fun hrec => next_registry rfl hrun ?_, fun hrec => ?_⟩, startPiece_spec,
    fun i d p s hwrite hprov hkind => ⟨fun hflash hi => ?_, fun hflash hi hstage => pieceDone_data hwrite hprov hkind hflash hi hstage,
      pieceDone_failed hwrite hprov hkind⟩, fun s => digestCheck_spec,
    fun a ca fs s hrun => ⟨fun hca hfs hstage hkind => next_registry rfl hrun ?_, fun hca hfs => next_registry rfl hrun ?_,
      fun hca => next_registry rfl hrun ?_⟩,
    fun a fs s hrun => ⟨fun h => ⟨next_registry rfl hrun (commitControl_of_slot h), next_registry rfl hrun (commitControl_of_slot h)⟩,
      fun st h hf => ⟨next_registry rfl hrun (commitControl_of_fault h hf), next_registry rfl hrun (commitControl_of_fault h hf)⟩,
      fun h hf hrec => ⟨next_registry rfl hrun (commitControl_of_good h hf hrec), commitImmediate_spec hrun h hf hrec⟩⟩,
    fun value s hopen hbit => ⟨fun h => ?_, fun h => ?_⟩, fun k s hnew => ⟨onlyLog_logAppend k s, logSays_logAppend hnew⟩⟩
  case refine_1 => simp [fwDownload, Nat.not_le.2 h, hoff]
  case refine_2 =>
    subst hoff
    rw [fwDownload_manifest h]
    simp [downloadManifest, mfLen, hlen]
  case refine_3 =>
    subst hoff
    have hgo : fwDownload a 0 d s = match mfFault s d with
        | some r => admDone a .invalidFirmwareImage 0 (logEv .fwManifestRefused 15 [refusedParam r] s)
        | none => startPiece a 0 d (stageRestart s) := by
      rw [fwDownload_manifest h]
      cases hm : mfFault s d <;> simp [downloadManifest, mfLen, hlen, hnone, hm]
    obtain ⟨t, ht, hpass⟩ := next_registry (c := .firmwareImageDownload a 0 d) rfl hrun hgo
    refine ⟨t, ht, fun r hr => ?_, fun hr => ?_⟩
    · rw [hpass, hr]
    · rw [hpass, hr]
  case refine_4 => rw [fwDownload_of_piece hstage hpos hmax hman hin hlen, if_pos hrec]
  case refine_5 =>
    obtain ⟨t, ht, hpass⟩ := next_registry (c := .firmwareImageDownload a (65536 * i) d) rfl hrun
      (fwDownload_of_piece hstage hpos hmax hman hin hlen)
    refine ⟨t, ht, fun heq => ?_, fun hne => ?_⟩
    · rw [hpass, hrec]
      simp [heq]
    · rw [hpass, hrec]
      simp [hne]
  case refine_6 =>
    subst hi
    exact pieceDone_manifest hwrite hprov hkind hflash
  case refine_7 =>
    have hwhole : (s.fw.stage != 2 || mfKind (manifestOf s.fw.staging) != 1) = false := by simp [hstage, hkind]
    have hnew : ¬3 ≤ s.fw.stage := by omega
    simp only [commitRecovery, hca, hfs, hwhole, hnew, bne_self_eq_false, Bool.false_eq_true, if_false]
    rfl
  case refine_8 => simp [commitRecovery, hca, hfs]
  case refine_9 => simp [commitRecovery, hca]
  case refine_10 => exact ⟨_, rfl, by simp [pkgWrite, hopen, stageClear, hbit, Nat.not_le.2 h, stageRestart, updFw]⟩
  case refine_11 => exact ⟨_, rfl, by simp [pkgWrite, hopen, stageClear, hbit, h]⟩

end Sys2Proof.Machine
end

section
/-!
PROOFS. O26: boot, activation, install and the code flash (R441 to R443, R447, R457 to R463).
-/
namespace Sys2Proof.Machine
open Sys2Proof

/-! ### Activation (R457) -/

theorem onlyProvEnd_rest {s t : State} (h : OnlyProvEnd s t) : t.fw = storesOf s t ∧ t.mgmt = s.mgmt ∧ t.ident = s.ident := by
  rw [h]
  exact ⟨rfl, rfl, rfl⟩

/-- The state in which an activation has been given up. -/
def activationEnded (s : State) : State :=
  { s with fw := { s.fw with activating := false, actStep := 0, activated := false, stage := min s.fw.stage 2 } }

/-- An activation that fails leaves no trace but what its end takes. -/
theorem activationFails_spec (st : Status) (s : State) : (activationFails st s).fw.activating = false ∧
    (activationFails st s).fw.activated = false ∧ (activationFails st s).mgmt = s.mgmt ∧ (activationFails st s).ident = s.ident := by
  have hgo : activationFails st s = activationEnded s ∨ ∃ p : ProvOp, activationFails st s = provEnd (admDone p.adm st 0 (activationEnded s)) := by
    unfold activationFails
    dsimp only
    split
    case h_1 p _ =>
      split
      · exact .inr ⟨p, rfl⟩
      · exact .inl rfl
    case h_2 => exact .inl rfl
  obtain h | ⟨p, h⟩ := hgo
  · rw [h]
    exact ⟨rfl, rfl, rfl, rfl⟩
  · rw [h]
    obtain ⟨hfw, hmgmt, hident⟩ := onlyProvEnd_rest (onlyProvEnd_provEnd (admDone p.adm st 0 (activationEnded s)))
    have hdone := (onlyHostSide_admDone p.adm st 0 (activationEnded s)).1
    generalize provEnd _ = u at hfw hmgmt hident ⊢
    generalize admDone p.adm st 0 _ = t at hfw hmgmt hident hdone
    have hside : t.fw = (activationEnded s).fw ∧ t.mgmt = s.mgmt ∧ t.ident = s.ident := by
      rw [hdone]
      exact ⟨rfl, rfl, rfl⟩
    obtain ⟨hfw', hmgmt', hident'⟩ := hside
    rw [hfw, storesOf, hfw']
    exact ⟨rfl, rfl, hmgmt.trans hmgmt', hident.trans hident'⟩

theorem fw_statusVector (old s : State) : (statusVector old s).fw = s.fw := by
  obtain h | h := statusVector_eq_or old s <;> rw [h] <;> rfl

theorem statusVector_rest (old s : State) : (statusVector old s).prov = s.prov ∧ (statusVector old s).heldAdmin = s.heldAdmin ∧
    (statusVector old s).ident = s.ident ∧ (statusVector old s).reg = s.reg ∧ (statusVector old s).mgmt = s.mgmt := by
  obtain h | h := statusVector_eq_or old s <;> rw [h] <;> exact ⟨rfl, rfl, rfl, rfl, rfl⟩

theorem activationStart_of_good {s : State} (hstep : s.fw.actStep = 1) (hgood : imageFault s s.fw.flash.failed 0 s.fw.staging = none) :
    activationStart true s =
      logAppend .activated (updFw (fun w => { w with actStep := 2, activated := true, stage := 3, pendingStart := false }) s) := by
  simp [activationStart, hstep, hgood]

theorem activationStart_of_fault {ok : Bool} {s : State} (hstep : s.fw.actStep = 1)
    (h : ok = false ∨ imageFault s s.fw.flash.failed 0 s.fw.staging ≠ none) :
    activationStart ok s = statusVector s (activationFails .invalidFirmwareImage s) := by
  have hbad : (!ok || (imageFault s s.fw.flash.failed 0 s.fw.staging).isSome) = true := by
    obtain h | h := h
    · simp [h]
    · simp [Option.isSome_iff_ne_none.2 h]
  simp only [activationStart, hstep, hbad, bne_self_eq_false, Bool.false_eq_true, if_false, if_true]

theorem activationStart_spec (ok : Bool) {s : State} (hstep : s.fw.actStep = 1) : Next (.activationStart ok) s fun t =>
      (ok = true → imageFault s s.fw.flash.failed 0 s.fw.staging = none → t = { s with fw := t.fw } ∧ t.fw.actStep = 2 ∧
        t.fw.activated = true ∧ t.fw.stage = 3 ∧ t.fw.pendingStart = false ∧ t.fw.run = s.fw.run) ∧
      ((ok = false ∨ imageFault s s.fw.flash.failed 0 s.fw.staging ≠ none) →
        t = statusVector s (activationFails .invalidFirmwareImage s) ∧ t.fw.activating = false ∧ t.fw.activated = false) := by
  refine ⟨_, rfl, fun hok hgood => ?_, fun h => ?_⟩
  · subst hok
    rw [activationStart_of_good hstep hgood]
    have hlog := onlyLog_logAppend .activated
      (updFw (fun w => { w with actStep := 2, activated := true, stage := 3, pendingStart := false }) s)
    generalize logAppend .activated _ = t at hlog ⊢
    refine ⟨(onlyFw_updFw _ s).trans hlog.onlyFw, ?_⟩
    rw [hlog.fw_eq]
    exact ⟨rfl, rfl, rfl, rfl, rfl⟩
  · obtain ⟨hact, hdone, -, -⟩ := activationFails_spec .invalidFirmwareImage s
    rw [activationStart_of_fault hstep h, fw_statusVector]
    exact ⟨rfl, hact, hdone⟩

/-! ### The stores that an image takes over (R457, R458) -/

/-- From one firmware side to another only the config stores, which one is read, and the code flash's counters changed. -/
def SameFw (v w : FwState) : Prop := w = { v with stores := w.stores, cur := w.cur, flash := w.flash }

theorem SameFw.trans {u v w : FwState} (h : SameFw u v) (k : SameFw v w) : SameFw u w :=
  Eq.trans k (congrArg (fun x : FwState => { x with stores := w.stores, cur := w.cur, flash := w.flash }) h)

/-- From `s` to `t` only the stores changed, or the one that is read. -/
def OnlyTaken (s t : State) : Prop := OnlyFw s t ∧ SameFw s.fw t.fw

theorem OnlyTaken.refl (s : State) : OnlyTaken s s := ⟨rfl, rfl⟩

theorem OnlyTaken.trans {s t u : State} (h : OnlyTaken s t) (k : OnlyTaken t u) : OnlyTaken s u := ⟨h.1.trans k.1, h.2.trans k.2⟩

theorem OnlyStores.onlyTaken {s t : State} (h : OnlyStores s t) : OnlyTaken s t := by
  have hfw : t.fw = storesOf s t := congrArg State.fw h
  refine ⟨Eq.trans h (congrArg (fun w : FwState => { s with fw := w }) hfw.symm), ?_⟩
  rw [hfw]
  rfl

theorem onlyTaken_setCur (k : Nat) (s : State) : OnlyTaken s (updFw (fun w => { w with cur := k }) s) := ⟨rfl, rfl⟩

theorem onlyStores_countErases (k n : Nat) (s : State) : OnlyStores s (countErases k n s) := rfl

theorem onlyStores_renewStore (k v : Nat) (s : State) : OnlyStores s (renewStore k v s) := by
  unfold renewStore
  extract_lets old s1 new
  have hold : OnlyStores s s1 := onlyStores_foldl (f := fun s x => countErases (storeSector k + x) 1 s) (fun s x => onlyStores_countErases _ 1 s) old s
  have hnew : OnlyStores s1 (updFw (fun w => { w with stores := w.stores.set k new }) s1) := onlyStores_updStores (fun l => l.set k new) s1
  exact hold.trans (hnew.trans (onlyStores_storeWrite k _))

theorem onlyTaken_takeStores (m : Bytes) (s : State) : OnlyTaken s (takeStores m s) := by
  unfold takeStores
  exact iteInduction (motive := OnlyTaken s) (fun _ => .refl s) fun _ => (onlyStores_renewStore ..).onlyTaken.trans (onlyTaken_setCur ..)

theorem onlyTaken_openStore (m : Bytes) (s : State) : OnlyTaken s (openStore m s) := by
  unfold openStore
  dsimp only
  split
  · exact onlyTaken_setCur ..
  · exact (onlyStores_renewStore ..).onlyTaken.trans (onlyTaken_setCur ..)

/-- The firmware side with the staged image running. -/
def stagedRun (s : State) (w : FwState) : FwState :=
  { w with run := some { source := 2, manifest := manifestOf w.staging }, dual := w.dual || formatsChange s }

theorem runStaged_spec (s : State) : OnlyFw s (runStaged s) ∧ SameFw (stagedRun s s.fw) (runStaged s).fw := by
  obtain ⟨hframe, hfw⟩ := onlyTaken_takeStores (manifestOf s.fw.staging) (updFw (stagedRun s) s)
  exact ⟨(onlyFw_updFw (stagedRun s) s).trans hframe, hfw⟩

theorem activationQuiescent_spec {s : State} (hstep : s.fw.actStep = 2) : Next .activationQuiescent s fun t =>
      t = { s with fw := t.fw } ∧ t.fw.actStep = 3 ∧
      t.fw.run = some { source := 2, manifest := manifestOf s.fw.staging } ∧ t.fw.staging = s.fw.staging := by
  have hgo : execActivationQuiescent s = .next (updFw (fun w => { w with actStep := 3 }) (runStaged s)) := by
    simp [execActivationQuiescent, hstep]
  refine ⟨_, hgo, ?_⟩
  obtain ⟨hframe, hfw⟩ := runStaged_spec s
  generalize runStaged s = t at hframe hfw ⊢
  refine ⟨hframe.trans (onlyFw_updFw _ t), rfl, ?_, ?_⟩
  · show t.fw.run = _
    rw [hfw]
    rfl
  · show t.fw.staging = _
    rw [hfw]
    rfl

theorem activationEnd_spec {p : ProvOp} {s : State} (hstep : s.fw.actStep = 3) (hprov : s.prov = some p) (hkind : p.kind = .firmware) :
    Next .activationEnd s fun t => t.fw = { storesOf s t with activating := false, actStep := 0 } ∧ t.prov = none ∧
      t.heldAdmin = [] ∧ t.ident = s.ident ∧ t.reg = s.reg := by
  have hgo : activationEnd s = statusVector s (fwOpDone .success
      (logEv .fwActivated 15 [idParam (runManifest s), mfSecurity (runManifest s)]
        (updFw (fun w => { w with activating := false, actStep := 0 }) s))) := by
    simp [activationEnd, hstep]
  refine ⟨_, congrArg Host.Outcome.next hgo, ?_⟩
  have hlog := onlyFw_logEv (onlyFw_updFw (fun w => { w with activating := false, actStep := 0 }) s) .fwActivated 15
    [idParam (runManifest s), mfSecurity (runManifest s)]
  have hlogFw : (logEv .fwActivated 15 [idParam (runManifest s), mfSecurity (runManifest s)]
    (updFw (fun w => { w with activating := false, actStep := 0 }) s)).fw = { s.fw with activating := false, actStep := 0 } := rfl
  generalize logEv .fwActivated 15 _ _ = t at hlog hlogFw ⊢
  have hside : t.prov = s.prov ∧ t.ident = s.ident ∧ t.reg = s.reg := by
    rw [hlog]
    exact ⟨rfl, rfl, rfl⟩
  obtain ⟨hprov', hident', hreg'⟩ := hside
  obtain ⟨hfw, hdone, hheld, hident, hreg⟩ := fwOpDone_spec .success (hprov'.trans hprov) hkind
  generalize fwOpDone .success t = u at hfw hdone hheld hident hreg ⊢
  obtain ⟨k1, k2, k3, k4, -⟩ := statusVector_rest s u
  have kfw := fw_statusVector s u
  generalize statusVector s u = v at k1 k2 k3 k4 kfw ⊢
  refine ⟨?_, k1.trans hdone, k2.trans hheld, k3.trans (hident.trans hident'), k4.trans (hreg.trans hreg')⟩
  rw [storesOf, kfw]
  rw [storesOf, hlogFw] at hfw
  exact hfw

/-! ### Confirm and install (R459, R461) -/

theorem fwConfirm_of_activated {a : Adm} {id : Nat} {s : State} (hstage : s.fw.stage = 3) (hact : s.fw.activated = true) :
    fwConfirm a id s = if mfImageId (runManifest s) != id then admDone a .invalidField 0 s
      else admDone a .success 0 (logAppend .confirmIntent
        (installCopy 1 (updFw (fun w => { w with intent := true, stage := 4 }) s))) := by
  simp only [fwConfirm, hstage, hact, bne_self_eq_false, Bool.not_true, Bool.or_self, Bool.false_eq_true, if_false]

theorem fwConfirm_of_refused {a : Adm} {id : Nat} {s : State} (h : s.fw.stage ≠ 3 ∨ s.fw.activated = false) :
    fwConfirm a id s = admDone a .commandSequenceError 0 s := by
  obtain h | h := h <;> simp [fwConfirm, h]

theorem onlyFw_installCopy (k : Nat) (s : State) : OnlyFw s (installCopy k s) := (onlyLog_flashStart s).onlyFw.trans (onlyFw_updFw _ _)

/-- The state in which a confirmation has been taken and the install has started. -/
def confirmTaken (s : State) : State :=
  logAppend .confirmIntent (installCopy 1 (updFw (fun w => { w with intent := true, stage := 4 }) s))

theorem confirmTaken_spec (s : State) : OnlyFw s (confirmTaken s) ∧ (confirmTaken s).fw.intent = true ∧ (confirmTaken s).fw.stage = 4 ∧
    (confirmTaken s).fw.instStep = 1 ∧ (confirmTaken s).fw.instDone = 0 ∧ (confirmTaken s).fw.slotA = s.fw.slotA ∧
    (confirmTaken s).fw.slotB = [] := by
  have hlog := onlyLog_logAppend .confirmIntent (installCopy 1 (updFw (fun w => { w with intent := true, stage := 4 }) s))
  have hcopy := (onlyFw_updFw (fun w => { w with intent := true, stage := 4 }) s).trans
    (onlyFw_installCopy 1 (updFw (fun w => { w with intent := true, stage := 4 }) s))
  unfold confirmTaken
  generalize logAppend .confirmIntent _ = t at hlog ⊢
  rw [hlog.fw_eq]
  exact ⟨hcopy.trans hlog.onlyFw, rfl, rfl, rfl, rfl, rfl, rfl⟩

theorem firmwareConfirm_spec {a : Adm} {id : Nat} {s : State} (hrun : AdmRuns .registry a s) (hstage : s.fw.stage = 3)
    (hact : s.fw.activated = true) (hid : mfImageId (runManifest s) = id) : Next (.firmwareConfirm a id) s fun t =>
        t.fw.intent = true ∧ t.fw.stage = 4 ∧ t.fw.instStep = 1 ∧ t.fw.instDone = 0 ∧
        t.ident = s.ident ∧ t.fw.slotA = s.fw.slotA ∧ t.fw.slotB = [] ∧ OnlyHostSide { s with fw := t.fw } t := by
  have hgo : fwConfirm a id s = admDone a .success 0 (confirmTaken s) := by
    rw [fwConfirm_of_activated hstage hact, hid, bne_self_eq_false, if_neg Bool.false_ne_true]
    rfl
  obtain ⟨t, ht, hpass⟩ := next_registry (c := .firmwareConfirm a id) rfl hrun hgo
  refine ⟨t, ht, ?_⟩
  obtain ⟨hframe, h1, h2, h3, h4, h5, h6⟩ := confirmTaken_spec s
  have hdone := onlyHostSide_admDone a .success 0 (confirmTaken s)
  have hstores := onlyStores_syncStores (admDone a .success 0 (confirmTaken s))
  have hturn := onlyHostSide_passTurn a (syncStores (admDone a .success 0 (confirmTaken s)))
  rw [← hpass] at hturn
  generalize syncStores (admDone a .success 0 (confirmTaken s)) = y at hstores hturn
  generalize admDone a .success 0 (confirmTaken s) = w at hstores hdone
  generalize confirmTaken s = v at hframe h1 h2 h3 h4 h5 h6 hdone
  have htfw : t.fw = y.fw := by rw [hturn.1]
  have hyfw : y.fw = storesOf v y := by
    have hwfw : w.fw = v.fw := by rw [hdone.1]
    have hy : y.fw = storesOf w y := congrArg State.fw hstores
    rw [hy, storesOf, hwfw]
    rfl
  have hwy : y = { w with fw := y.fw } := hstores.onlyTaken.1
  have hsv : { v with fw := y.fw } = { s with fw := y.fw } := congrArg (fun x : State => { x with fw := y.fw }) hframe
  have hside : OnlyHostSide { s with fw := y.fw } y := by
    have h := hdone.withFw y.fw
    rw [← hwy] at h
    exact hsv ▸ h
  have hall : OnlyHostSide { s with fw := t.fw } t := by
    rw [htfw]
    exact hside.trans hturn
  have hident : t.ident = s.ident := by rw [hall.1]
  rw [htfw, hyfw] at *
  exact ⟨h1, h2, h3, h4, hident, h5, h6, hall⟩

/-- The state with slot B written and the copy to slot A begun. -/
theorem installStep_first {s : State} (hflash : s.fw.flash.failed = false) (hstep : s.fw.instStep = 1) :
    Next (.installStepDone true) s fun t => t = { s with fw := t.fw } ∧ t.fw.slotB = s.fw.staging ∧
      t.fw.slotA = [] ∧ t.fw.instStep = 2 ∧ t.fw.instDone = 0 := by
  have hgo : installStep true s =
      installCopy 2 (updFw (fun w => { w with slotB := w.staging }) (countErases slotBSector (installSectors s) s)) := by
    simp [installStep, hflash, hstep]
  refine ⟨_, congrArg Host.Outcome.next hgo, ?_, rfl, rfl, rfl, rfl⟩
  exact (onlyLog_countErases ..).onlyFw.trans ((onlyFw_updFw _ _).trans (onlyFw_installCopy ..))

/-- The state with slot A written. -/
def slotAWritten (s : State) : State :=
  logAppend .installDone (updFw (fun w => { w with slotA := w.staging, installDone := true, run := w.run.map fun r => { r with source := 0 } })
    (flashEnd (countErases slotASector (installSectors s) s)))

theorem slotAWritten_spec (s : State) : OnlyFw s (slotAWritten s) ∧ (slotAWritten s).fw.staging = s.fw.staging ∧
    (slotAWritten s).fw.slotA = s.fw.staging ∧ (slotAWritten s).fw.slotB = s.fw.slotB := by
  have hfree : OnlyLog s (flashEnd (countErases slotASector (installSectors s) s)) :=
    (onlyLog_countErases _ _ s).trans (onlyLog_flashEnd _)
  unfold slotAWritten
  generalize flashEnd _ = v at hfree ⊢
  have hlog := onlyLog_logAppend .installDone
    (updFw (fun w => { w with slotA := w.staging, installDone := true, run := w.run.map fun r => { r with source := 0 } }) v)
  generalize logAppend .installDone _ = t at hlog ⊢
  have hkeep : v.fw.staging = s.fw.staging ∧ v.fw.slotB = s.fw.slotB := by
    rw [hfree.fw_eq]
    exact ⟨rfl, rfl⟩
  rw [hlog.fw_eq]
  exact ⟨hfree.onlyFw.trans ((onlyFw_updFw _ v).trans hlog.onlyFw), hkeep.1, hkeep.1, hkeep.2⟩

/-- The firmware side once an install has ended. -/
def fwInstalled (w : FwState) : FwState :=
  { w with stage := 2, activated := false, intent := false, installDone := false, instStep := 0, instDone := 0, dual := false }

/-- The identity with the fuses of an image blown. -/
def fusesBlown (s : State) : Ident :=
  { s.ident with
    securityFloor := fuseOnes (if mfRaiseFloor (manifestOf s.fw.staging) then mfSecurity (manifestOf s.fw.staging) else 0) s.ident.securityFloor
    keyRevoked := (((List.range 4).filter fun k => bitOf s.ident.keyRevoked k ||
      (bitOf (mfRevoke (manifestOf s.fw.staging)) k && k != mfKey (manifestOf s.fw.staging))).map fun k => 2 ^ k).sum }

theorem installConfirmed_eq (s : State) : installConfirmed s = logEv .fwConfirmed 15 [idParam (manifestOf s.fw.staging)]
    (logAppend .confirmed (updFw fwInstalled { s with ident := fusesBlown s })) := rfl

theorem fwInstalled_spec (s : State) : (installConfirmed s = { s with
      fw := (installConfirmed s).fw, ident := (installConfirmed s).ident, evr := (installConfirmed s).evr }) ∧
    (installConfirmed s).fw = { fwInstalled s.fw with log := (installConfirmed s).fw.log, flash := (installConfirmed s).fw.flash } ∧
    (installConfirmed s).ident = fusesBlown s ∧ Logs .fwConfirmed 15 [idParam (manifestOf s.fw.staging)] s (installConfirmed s) := by
  rw [installConfirmed_eq]
  have hlog := onlyLog_logAppend .confirmed (updFw fwInstalled { s with ident := fusesBlown s })
  generalize logAppend .confirmed _ = t at hlog ⊢
  have hframe := (onlyFw_updFw fwInstalled { s with ident := fusesBlown s }).trans hlog.onlyFw
  have hev := onlyFw_logEv hframe .fwConfirmed 15 [idParam (manifestOf s.fw.staging)]
  have hident : (logEv .fwConfirmed 15 [idParam (manifestOf s.fw.staging)] t).ident = fusesBlown s := by
    show t.ident = _
    rw [hframe]
  refine ⟨?_, ?_, hident, ?_⟩
  · rw [hident]
    exact hev
  · show t.fw = _
    exact hlog.fw_eq
  · refine (logEv_evr ..).trans ?_
    rw [hframe.rest.2.2.2]

theorem installStep_second {s : State} (hflash : s.fw.flash.failed = false) (hstep : s.fw.instStep = 2) :
    Next (.installStepDone true) s fun t => t = { s with fw := t.fw, ident := t.ident, evr := t.evr } ∧
      t.fw.slotA = s.fw.staging ∧ t.fw.slotB = s.fw.slotB ∧ t.fw.stage = 2 ∧ t.fw.activated = false ∧ t.fw.intent = false ∧
      t.fw.instStep = 0 ∧ Logs .fwConfirmed 15 [idParam (manifestOf s.fw.staging)] s t ∧
      t.ident = { s.ident with securityFloor := t.ident.securityFloor, keyRevoked := t.ident.keyRevoked } ∧
      ∀ k, k < 4 → bitOf s.ident.keyRevoked k = true → bitOf t.ident.keyRevoked k = true := by
  have hgo : installStep true s = installConfirmed (slotAWritten s) := by
    simp only [installStep, hflash, hstep]
    rfl
  refine ⟨_, congrArg Host.Outcome.next hgo, ?_⟩
  obtain ⟨hframe, hstaging, hslotA, hslotB⟩ := slotAWritten_spec s
  generalize slotAWritten s = v at hframe hstaging hslotA hslotB ⊢
  obtain ⟨hinst, hfw, -, hlogs⟩ := fwInstalled_spec v
  obtain ⟨hunit, -, hrevoked⟩ := (kept_installConfirmed (Kept.refl v)).unit
  obtain ⟨-, hident, -, hevr⟩ := hframe.rest
  generalize installConfirmed v = t at hinst hfw hlogs hunit hrevoked ⊢
  rw [hident] at hunit hrevoked
  refine ⟨?_, ?_, ?_, ?_, ?_, ?_, ?_, ?_, hunit, hrevoked⟩
  · rw [hframe] at hinst
    exact hinst
  · rw [hfw]
    exact hslotA
  · rw [hfw]
    exact hslotB
  · rw [hfw]
    rfl
  · rw [hfw]
    rfl
  · rw [hfw]
    rfl
  · rw [hfw]
    rfl
  · rw [← hstaging]
    exact Eq.trans hlogs (by rw [hevr])

/-! ### Boot (R447, R449) -/

/-- The state in which the boot ROM has read its sources. -/
def bootRead (rf : List Nat) (s : State) : State :=
  updFlash (fun c => { c with readUncorr := sat 0xFFFF (c.readUncorr + (rf.filter fun n => n < 2).length) }) (flashAccess s)

/-- The state in which slot A has failed a check. -/
def slotAFailed (r : Nat) (s : State) : State := logEv .bootSlotB 15 [r] (updFw (fun w => { w with bootReason := r }) s)

/-- The state in which slot B has failed a check too. -/
def slotBFailed (r : Nat) (s : State) : State := logEv .bootRecovery 15 [r] (updFw (fun w => { w with bootReason := r }) s)

theorem running_slotBFailed (r : Nat) (s : State) : (slotBFailed r s).fw.running = s.fw.running := rfl
theorem running_slotAFailed (r : Nat) (s : State) : (slotAFailed r s).fw.running = s.fw.running := rfl
theorem running_bootRead (rf : List Nat) (s : State) : (bootRead rf s).fw.running = s.fw.running := rfl

theorem running_slotsFailed (q r : Nat) (rf : List Nat) (s : State) :
    (slotBFailed q (slotAFailed r (bootRead rf s))).fw.running = s.fw.running :=
  (running_slotBFailed ..).trans ((running_slotAFailed ..).trans (running_bootRead ..))

/-- The checks of an image look at nothing but the unit's identity. -/
theorem imageFault_of_ident {s t : State} (h : t.ident = s.ident) (unread : Bool) (kind : Nat) (g : Image) :
    imageFault t unread kind g = imageFault s unread kind g := by
  have hsigned : ∀ m, mfSigned t m = mfSigned s m := fun m => by simp only [mfSigned, signaturePasses, h]
  have hfault : ∀ m, mfFault t m = mfFault s m := fun m => by
    simp only [mfFault, hsigned, mfSerialOk, floorOf, h]
    rfl
  unfold imageFault
  rw [hfault]

theorem bootSteps_of_row {rf tf : List Nat} {s : State} (h : s.ident.rowOk = true) : bootSteps rf tf s =
    match imageFault s (s.fw.flash.failed || rf.contains 0) 0 s.fw.slotA with
    | none => bootRuns 0 s.fw.slotA tf (bootRead rf s)
    | some a => match imageFault s (s.fw.flash.failed || rf.contains 1) 0 s.fw.slotB with
      | none => bootRuns 1 s.fw.slotB tf (slotAFailed a (bootRead rf s))
      | some b => bootRecovery (rf.contains 3) (logEv .bootRecovery 15 [b]
          (updFw (fun w => { w with bootReason := b }) (slotAFailed a (bootRead rf s)))) := by
  simp only [bootSteps, h, Bool.not_true, Bool.false_eq_true, if_false]
  rfl

theorem bootSteps_of_no_row {rf tf : List Nat} {s : State} (h : s.ident.rowOk = false) :
    bootSteps rf tf s = updFw (fun w => { w with bootState := 3, bootReason := 8 }) (bootRead rf s) := by
  simp only [bootSteps, h, Bool.not_false, if_true]
  rfl

/-- The state in which firmware runs from a slot and has its store. -/
def imageLoaded (src : Nat) (g : Image) (s : State) : State :=
  openStore (manifestOf g) (updFw (fun w => { w with run := some { source := src, manifest := manifestOf g }, running := true, bootState := 1 }) s)

/-- Where the staging log asks for nothing, firmware runs from the slot. -/
theorem bootRuns_plain {src : Nat} {g : Image} {s : State} (hintent : s.fw.intent = false) (hact : s.fw.activated = false)
    (hpend : s.fw.pendingStart = false) : (bootRuns src g [] s).fw.running = true ∧ (bootRuns src g [] s).fw.bootState = 1 ∧
      (bootRuns src g [] s).fw.recovery = s.fw.recovery ∧ (bootRuns src g [] s).fw.bootReason = s.fw.bootReason ∧
      (bootRuns src g [] s).fw.run = some { source := src, manifest := manifestOf g } := by
  have hgo : bootRuns src g [] s = resumeStaged src (imageLoaded src g s) := rfl
  obtain ⟨-, hfw⟩ := onlyTaken_openStore (manifestOf g)
    (updFw (fun w => { w with run := some { source := src, manifest := manifestOf g }, running := true, bootState := 1 }) s)
  rw [hgo]
  unfold imageLoaded
  generalize openStore (manifestOf g) _ = t at hfw ⊢
  have hflags : t.fw.intent = s.fw.intent ∧ t.fw.activated = s.fw.activated ∧ t.fw.pendingStart = s.fw.pendingStart := by
    rw [hfw]
    exact ⟨rfl, rfl, rfl⟩
  obtain ⟨h1, h2, h3⟩ := hflags
  have hres : resumeStaged src t = checkWhole t := by
    simp only [resumeStaged, h1, h2, h3, hintent, hact, hpend, Bool.false_eq_true, if_false]
  rw [hres, (checkWhole_frame t).2]
  show t.fw.running = true ∧ t.fw.bootState = 1 ∧ t.fw.recovery = s.fw.recovery ∧ t.fw.bootReason = s.fw.bootReason ∧ t.fw.run = _
  rw [hfw]
  exact ⟨rfl, rfl, rfl, rfl, rfl⟩

theorem bootRecovery_of_none {unread : Bool} {s : State} (h : ∀ g ∈ s.fw.bootBand, imageFault s unread 1 g ≠ none) :
    bootRecovery unread s = updFw (fun w => { w with bootState := 3 }) s := by
  have hnone : (s.fw.bootBand.find? fun g => (imageFault s unread 1 g).isNone) = none :=
    List.find?_eq_none.2 fun g hg => by simpa using h g hg
  simp only [bootRecovery, hnone]

/-- Both slots failed, of the identity and the boot band nothing changed. -/
theorem slotsFailed_spec (q r : Nat) (rf : List Nat) (s : State) :
    (slotBFailed q (slotAFailed r (bootRead rf s))).ident = s.ident ∧
    (slotBFailed q (slotAFailed r (bootRead rf s))).fw.bootBand = s.fw.bootBand := by
  have hB : ∀ t, (slotBFailed q t).ident = t.ident ∧ (slotBFailed q t).fw.bootBand = t.fw.bootBand := fun _ => ⟨rfl, rfl⟩
  have hA : ∀ t, (slotAFailed r t).ident = t.ident ∧ (slotAFailed r t).fw.bootBand = t.fw.bootBand := fun _ => ⟨rfl, rfl⟩
  have hR : (bootRead rf s).ident = s.ident ∧ (bootRead rf s).fw.bootBand = s.fw.bootBand := ⟨rfl, rfl⟩
  exact ⟨(hB _).1.trans ((hA _).1.trans hR.1), (hB _).2.trans ((hA _).2.trans hR.2)⟩

theorem bootRecovery_slotsFailed (q r : Nat) {rf : List Nat} {s : State}
    (hband : ∀ g ∈ s.fw.bootBand, imageFault s (rf.contains 3) 1 g ≠ none) :
    bootRecovery (rf.contains 3) (slotBFailed q (slotAFailed r (bootRead rf s))) =
      updFw (fun w => { w with bootState := 3 }) (slotBFailed q (slotAFailed r (bootRead rf s))) := by
  obtain ⟨hident, hbands⟩ := slotsFailed_spec q r rf s
  generalize slotBFailed q (slotAFailed r (bootRead rf s)) = v at hident hbands ⊢
  exact bootRecovery_of_none fun g hg => imageFault_of_ident hident (rf.contains 3) 1 g ▸ hband g (hbands ▸ hg)

theorem execBoot_of_booting {rf tf : List Nat} {s : State} (hboot : booting s = true) (hup : tileUp s 0 = true) :
    execBoot rf tf s = .next (statusVector s (bootSteps rf tf s)) := by
  simp [execBoot, hboot, hup]

theorem boot_spec {rf : List Nat} {s : State} (hboot : booting s = true) (hup : tileUp s 0 = true) (hrow : s.ident.rowOk = true)
    (hintent : s.fw.intent = false) (hact : s.fw.activated = false) (hpend : s.fw.pendingStart = false) : Next (.boot rf []) s fun t =>
      let un := fun n => s.fw.flash.failed || rf.contains n
      (imageFault s (un 0) 0 s.fw.slotA = none → t.fw.running = true ∧ t.fw.bootState = 1 ∧ t.fw.recovery = s.fw.recovery ∧
        t.fw.run = some { source := 0, manifest := manifestOf s.fw.slotA }) ∧
      (∀ r, imageFault s (un 0) 0 s.fw.slotA = some r →
        (imageFault s (un 1) 0 s.fw.slotB = none → t.fw.running = true ∧ t.fw.bootState = 1 ∧ t.fw.bootReason = r ∧
          t.fw.run = some { source := 1, manifest := manifestOf s.fw.slotB }) ∧
        (∀ q, imageFault s (un 1) 0 s.fw.slotB = some q →
          (∀ g ∈ s.fw.bootBand, imageFault s (rf.contains 3) 1 g ≠ none) →
          t.fw.bootState = 3 ∧ t.fw.bootReason = q ∧ t.fw.running = s.fw.running)) := by
  refine ⟨_, execBoot_of_booting hboot hup, ?_⟩
  dsimp only
  rw [fw_statusVector, bootSteps_of_row hrow]
  refine ⟨fun hA => ?_, fun r hA => ⟨fun hB => ?_, fun q hB hband => ?_⟩⟩
  · simp only [hA]
    obtain ⟨h1, h2, h3, -, h5⟩ := bootRuns_plain (src := 0) (g := s.fw.slotA) (s := bootRead rf s) hintent hact hpend
    exact ⟨h1, h2, h3, h5⟩
  · simp only [hA, hB]
    obtain ⟨h1, h2, -, h4, h5⟩ := bootRuns_plain (src := 1) (g := s.fw.slotB) (s := slotAFailed r (bootRead rf s)) hintent hact hpend
    exact ⟨h1, h2, h4, h5⟩
  · simp only [hA, hB]
    have hnone := bootRecovery_slotsFailed q r hband
    unfold slotBFailed at hnone
    rw [hnone]
    exact ⟨rfl, rfl, running_slotsFailed q r rf s⟩

/-! ### A primary that does not boot (R32, R447) -/

theorem newStandby_ne {s : State} {primary lost : Nat} (h : primary ≠ lost) : newStandby s primary lost ≠ lost := by
  unfold newStandby
  cases hf : (upTiles s).find? fun t => t != primary && t != lost with
  | none => exact h
  | some t =>
    have ht := List.find?_some hf
    simp only [Bool.and_eq_true, bne_iff_ne] at ht
    exact ht.2

/-- The state with the standby in charge, before what ran for the old primary ends. -/
def tookOver (s : State) : State :=
  { s with mgmt := { s.mgmt with primary := s.mgmt.standby, standby := newStandby s s.mgmt.standby s.mgmt.primary } }

theorem abandonRing_rest (s : State) : (abandonRing s).mgmt = s.mgmt ∧ (abandonRing s).ident = s.ident := ⟨rfl, rfl⟩

theorem takeOver_spec (s : State) : (takeOver s).mgmt.primary = s.mgmt.standby ∧
    (takeOver s).mgmt.standby = newStandby s s.mgmt.standby s.mgmt.primary ∧ (takeOver s).ident = s.ident := by
  have hrest : ∃ t : State, (t.mgmt = (tookOver s).mgmt ∧ t.ident = s.ident) ∧ (takeOver s = t ∨ takeOver s = activationFails .internalError t) := by
    have hresp := (onlyHostSide_respond 5 0 0 0 0 (logEv .mgmtTakeover 15 [s.mgmt.primary, s.mgmt.standby] (tookOver s))).1
    have hend : (respond 5 0 0 0 0 (logEv .mgmtTakeover 15 [s.mgmt.primary, s.mgmt.standby] (tookOver s))).mgmt = (tookOver s).mgmt ∧
        (respond 5 0 0 0 0 (logEv .mgmtTakeover 15 [s.mgmt.primary, s.mgmt.standby] (tookOver s))).ident = s.ident := by
      rw [hresp]
      exact ⟨rfl, rfl⟩
    refine ⟨abandonRing (respond 5 0 0 0 0 (logEv .mgmtTakeover 15 [s.mgmt.primary, s.mgmt.standby] (tookOver s))), hend, ?_⟩
    unfold takeOver
    exact iteInduction (motive := fun u => u = abandonRing (respond 5 0 0 0 0
      (logEv .mgmtTakeover 15 [s.mgmt.primary, s.mgmt.standby] (tookOver s))) ∨ u = activationFails .internalError (abandonRing (respond 5 0 0 0 0
      (logEv .mgmtTakeover 15 [s.mgmt.primary, s.mgmt.standby] (tookOver s))))) (fun _ => .inr rfl) fun _ => .inl rfl
  obtain ⟨t, ⟨hmgmt, hident⟩, h | h⟩ := hrest
  · rw [h, hmgmt, hident]
    exact ⟨rfl, rfl, rfl⟩
  · obtain ⟨-, -, hmgmt', hident'⟩ := activationFails_spec .internalError t
    rw [h, hmgmt', hident', hmgmt, hident]
    exact ⟨rfl, rfl, rfl⟩

theorem bootPrimaryTimeout_spec {rf tf : List Nat} {s : State} (hboot : booting s = true) (hup : tileUp s 1 = true)
    (hprimary : s.mgmt.primary = 0) (hstandby : s.mgmt.standby = 1) (hrow : s.ident.rowOk = false) :
    Next (.bootPrimaryTimeout rf tf) s fun t => t.mgmt.primary = 1 ∧ t.mgmt.standby ≠ 0 ∧ t.fw.bootState = 3 := by
  have hgo : execBootPrimaryTimeout rf tf s = .next (statusVector s (bootSteps rf tf (takeOver s))) := by
    simp [execBootPrimaryTimeout, hboot, hup, hprimary]
  refine ⟨_, hgo, ?_⟩
  obtain ⟨h1, h2, h3⟩ := takeOver_spec s
  generalize takeOver s = v at h1 h2 h3 ⊢
  obtain ⟨-, -, -, -, hmgmt⟩ := statusVector_rest s (bootSteps rf tf v)
  rw [fw_statusVector, hmgmt, bootSteps_of_no_row (h3 ▸ hrow)]
  refine ⟨h1.trans hstandby, ?_, rfl⟩
  show v.mgmt.standby ≠ 0
  rw [h2, hstandby, hprimary]
  exact newStandby_ne (by decide)

/-! ### The code flash (R438, R441 to R443) -/

/-- What the end of an operation makes of the die. -/
def flashOpEnded (ok : Bool) (us ms : Nat) (c : CodeFlash) : CodeFlash :=
  { c with
    op := if ok then 1 else c.op, fails := if ok then 0 else c.fails + 1
    failed := c.failed || 2 ≤ (if ok then 0 else c.fails + 1) || 4 * (if c.op == 2 then 25000 else 1200) < us, idleMs := ms
    stallMax := max c.stallMax (sat 0xFFFF us), opFail := sat 0xFFFF (c.opFail + b2n (!ok)) }

theorem flashOpDone_of_op {ok : Bool} {us : Nat} {s : State} (h : s.fw.flash.op ≠ 0) :
    flashOpDone ok us s = smartRefresh (updFlash (flashOpEnded ok us s.nowMs) s) := by
  have hop : (s.fw.flash.op == 0) = false := by simpa using h
  simp only [flashOpDone, hop, Bool.false_eq_true, if_false]
  rfl

theorem flashOpDone_spec (ok : Bool) (us : Nat) {s : State} (h : s.fw.flash.op ≠ 0) : Next (.cflashOperationDone ok us) s fun t =>
    OnlyHostSide { s with fw := t.fw } t ∧ t.fw = { s.fw with flash := flashOpEnded ok us s.nowMs s.fw.flash } := by
  refine ⟨_, congrArg Host.Outcome.next (flashOpDone_of_op h), ?_⟩
  have hside := onlyHostSide_smartRefresh (updFlash (flashOpEnded ok us s.nowMs) s)
  generalize smartRefresh _ = t at hside ⊢
  have hfw : t.fw = { s.fw with flash := flashOpEnded ok us s.nowMs s.fw.flash } := by rw [hside.1]; rfl
  refine ⟨?_, hfw⟩
  rw [hfw]
  exact hside

/-- Settles O26. -/
theorem firmwareActivation : Obligations.FirmwareActivation := by
  unfold Obligations.FirmwareActivation
  refine ⟨fun ok s => activationStart_spec ok, fun s => activationQuiescent_spec, fun p s => activationEnd_spec,
    fun a id s hrun => ⟨firmwareConfirm_spec hrun, fun hstage hact hid => next_registry rfl hrun ?_,
      fun h => next_registry rfl hrun (fwConfirm_of_refused h)⟩,
    fun s hflash => ⟨installStep_first hflash, installStep_second hflash, fun h => ⟨_, rfl, ?_⟩⟩,
    fun rf s => boot_spec, fun rf tf s hboot hup hrow => ⟨_, execBoot_of_booting hboot hup, ?_⟩, fun rf tf s hboot => ⟨s, ?_, rfl⟩,
    fun rf tf s => bootPrimaryTimeout_spec, fun us s h => ⟨fun hus => ?_, fun hfails => ?_⟩, fun s h => ⟨fun hidle => ⟨_, ?_, rfl⟩, fun hidle => ⟨_, ?_, rfl⟩⟩⟩
  case refine_1 => rw [fwConfirm_of_activated hstage hact, if_pos (by simpa using hid)]
  case refine_2 => simp [installStep, hflash, h, updFw]
  case refine_3 =>
    dsimp only
    rw [fw_statusVector, bootSteps_of_no_row hrow]
    exact ⟨rfl, rfl, rfl⟩
  case refine_4 => simp [exec, execBoot, hboot]
  case refine_5 =>
    obtain ⟨t, ht, hside, hfw⟩ := flashOpDone_spec true us h
    refine ⟨t, ht, hside, ?_⟩
    rw [hfw]
    refine ⟨rfl, rfl, ?_, rfl⟩
    have hlimit : decide (4 * (if s.fw.flash.op == 2 then 25000 else 1200) < us) = false :=
      decide_eq_false (by split <;> omega)
    show (s.fw.flash.failed || decide (2 ≤ 0) || decide (4 * (if s.fw.flash.op == 2 then 25000 else 1200) < us)) = s.fw.flash.failed
    rw [hlimit, Bool.or_false]
    exact Bool.or_false _
  case refine_6 =>
    obtain ⟨t, ht, hside, hfw⟩ := flashOpDone_spec false us h
    refine ⟨t, ht, hside, ?_⟩
    rw [hfw]
    refine ⟨?_, rfl⟩
    have htwice : 2 ≤ s.fw.flash.fails + 1 := by omega
    simp [flashOpEnded, htwice]
  case refine_7 => simp [exec, execCflashIdleOff, h, hidle, updFlash, updFw]
  case refine_8 => simp [exec, execCflashIdleOff, h, Nat.not_le.2 hidle]

end Sys2Proof.Machine
end

section
/-!
PROOFS. O23: the log pages, and who may read them (R48, R59, R91, R126, R225, R288, R454, R455, R474, R495 to R500).
-/
namespace Sys2Proof.Machine
open Sys2Proof

/-! ### Fields of entries -/

theorem mem_entries_map {α : Type} {f : α → List Field} {start size i : Nat} {l : List α} {x : α} (h : l[i]? = some x) (y : Field)
    (hy : y ∈ f x) : (start + size * i + y.1, y.2.1, y.2.2) ∈ entries start size (l.map f) :=
  mem_entries (by rw [List.getElem?_map, h]; rfl) hy

theorem mem_entries_zero {α : Type} {f : α → List Field} {size i : Nat} {l : List α} {x : α} (h : l[i]? = some x) (y : Field) (hy : y ∈ f x) :
    (size * i + y.1, y.2.1, y.2.2) ∈ entries 0 size (l.map f) := by
  have hmem := mem_entries_map (start := 0) (size := size) h y hy
  rwa [Nat.zero_add] at hmem

/-! ### A controller's own pages (R89, R91, R126, R495) -/

theorem forCtrl_of_ctrl {a : Adm} {f : Ctrl → State → State} {c : Ctrl} {s : State} (h : admCtrl s a = some c) : forCtrl a f s = f c s := by
  simp only [forCtrl, h]

theorem errorLog_spec {a : Adm} {c : Ctrl} {s : State} (hrun : AdmRuns .management a s) (hc : admCtrl s a = some c) :
    Next (.getLogPageErrorInformation a) s fun t => ∃ d, t = passTurn a (admAnswer a d s) ∧
      ∀ i e, c.errors[i]? = some e → (64 * i, 8, e.count) ∈ d ∧ (64 * i + 8, 2, e.sqid) ∈ d ∧
        (64 * i + 10, 2, e.cid) ∈ d ∧ (64 * i + 12, 2, 2 * e.status.field) ∈ d ∧ (64 * i + 16, 8, e.lba) ∈ d ∧
        (64 * i + 24, 4, e.nsid) ∈ d := by
  obtain ⟨t, ht, hpass⟩ := next_of_runs (c := .getLogPageErrorInformation a) rfl hrun (by decide) (forCtrl_of_ctrl hc)
  refine ⟨t, ht, _, hpass, fun i e he => ?_⟩
  have hfield : ∀ y : Field, y ∈ errorFields e → (64 * i + y.1, y.2.1, y.2.2) ∈ entries 0 64 (c.errors.map errorFields) :=
    mem_entries_zero he
  exact ⟨hfield (0, 8, e.count) (by simp [errorFields]), hfield (8, 2, e.sqid) (by simp [errorFields]),
    hfield (10, 2, e.cid) (by simp [errorFields]), hfield (12, 2, 2 * e.status.field) (by simp [errorFields]),
    hfield (16, 8, e.lba) (by simp [errorFields]), hfield (24, 4, e.nsid) (by simp [errorFields])⟩

theorem frozenLog_spec {a : Adm} {c : Ctrl} {s : State} (hrun : AdmRuns .management a s) (hc : admCtrl s a = some c) :
    Next (.getLogPageFrozenQueues a) s fun t => ∃ d, t = passTurn a (admAnswer a d s) ∧
      (0, 4, ((frozenQueues s c).take 128).length) ∈ d ∧
      ∀ i q f, i < 128 → (frozenQueues s c)[i]? = some (q, f) → (16 + 16 * i, 2, q.sqid) ∈ d ∧
        (16 + 16 * i + 2, 2, f.cid) ∈ d ∧ (16 + 16 * i + 4, 2, f.status.field) ∈ d ∧
        (16 + 16 * i + 6, 1, b2n q.mediaOnly) ∈ d ∧ (16 + 16 * i + 8, 8, f.error) ∈ d := by
  obtain ⟨t, ht, hpass⟩ := next_of_runs (c := .getLogPageFrozenQueues a) rfl hrun (by decide) (forCtrl_of_ctrl hc)
  refine ⟨t, ht, _, hpass, List.mem_cons_self, fun i q f hi hq => ?_⟩
  have htake : ((frozenQueues s c).take 128)[i]? = some (q, f) := by rw [List.getElem?_take_of_lt hi, hq]
  have hfield : ∀ y : Field, y ∈ frozenFields (q, f) → (16 + 16 * i + y.1, y.2.1, y.2.2) ∈
      (0, 4, ((frozenQueues s c).take 128).length) :: entries 16 16 (((frozenQueues s c).take 128).map frozenFields) := fun y h =>
    List.mem_cons_of_mem _ (mem_entries_map htake y h)
  exact ⟨hfield (0, 2, q.sqid) (by simp [frozenFields]), hfield (2, 2, f.cid) (by simp [frozenFields]),
    hfield (4, 2, f.status.field) (by simp [frozenFields]), hfield (6, 1, b2n q.mediaOnly) (by simp [frozenFields]),
    hfield (8, 8, f.error) (by simp [frozenFields])⟩

theorem tenantLog_spec {a : Adm} {c : Ctrl} {s : State} (hrun : AdmRuns .management a s) (hc : admCtrl s a = some c) :
    Next (.getLogPageTenantService a) s fun t => ∃ d, t = passTurn a (admAnswer a d s) ∧ (0, 4, s.clock.epoch) ∈ d ∧
      (4, 8, c.demotions) ∈ d ∧ (12, 4, (pairRecords s c).length) ∈ d ∧
      ∀ i r, (pairRecords s c)[i]? = some r → (64 + 64 * i + 8, 4, r.nsid) ∈ d ∧ (64 + 64 * i + 56, 4, r.energy) ∈ d := by
  obtain ⟨t, ht, hpass⟩ := next_of_runs (c := .getLogPageTenantService a) rfl hrun (by decide) (forCtrl_of_ctrl hc)
  refine ⟨t, ht, _, hpass, by simp, by simp, by simp, fun i r hr => ?_⟩
  exact ⟨List.mem_append_right _ (mem_entries_map hr (8, 4, r.nsid) (by simp [MeterRec.fields])),
    List.mem_append_right _ (mem_entries_map hr (56, 4, r.energy) (by simp [MeterRec.fields]))⟩

/-! ### Pages for whoever sees the namespaces (R225, R288, R455, R496, R498) -/

theorem smartLog_spec {a : Adm} {nsid : Nat} {s : State} (hrun : AdmRuns .management a s) (hall : nsid = 0 ∨ nsid = 0xFFFFFFFF) :
    Next (.getLogPageSmartHealth a nsid) s fun t => ∃ d, t = passTurn a (admAnswer a d s) ∧ (0, 1, s.health.crit) ∈ d ∧ (4, 1, 10) ∈ d ∧
        (1, 2, ((composite s).map kelvin).getD 0) ∈ d ∧ (112, 16, s.island.cycles) ∈ d ∧
        (128, 16, s.island.minutes / 60) ∈ d ∧ (144, 16, s.health.unsafeShutdowns) ∈ d ∧
        (64, 16, sumNs s (seen s a) (·.reads)) ∈ d ∧ (80, 16, sumNs s (seen s a) (·.writes)) ∈ d := by
  have hgo : smartLog a nsid s = admAnswer a (smartFields s a (seen s a)) s := by obtain rfl | rfl := hall <;> rfl
  obtain ⟨t, ht, hpass⟩ := next_of_runs (c := .getLogPageSmartHealth a nsid) rfl hrun (by decide) hgo
  refine ⟨t, ht, _, hpass, ?_⟩
  have hfield : ∀ {x : Field}, x ∈ (smartFields s a (seen s a)).take 16 → x ∈ smartFields s a (seen s a) := List.mem_of_mem_take
  exact ⟨hfield (by simp [smartFields]), hfield (by simp [smartFields, spareThreshold]), hfield (by simp [smartFields]),
    hfield (by simp [smartFields]), hfield (by simp [smartFields]), hfield (by simp [smartFields]), hfield (by simp [smartFields]),
    hfield (by simp [smartFields])⟩

theorem egLog_spec {a : Adm} {id : Nat} {g : Eg} {s : State} (hrun : AdmRuns .management a s) (hg : findEg s id = some g) :
    Next (.getLogPageEnduranceGroup a id) s fun t => ∃ d, t = passTurn a (admAnswer a d s) ∧ (0, 1, egWarning s g) ∈ d ∧
        (3, 1, availableSpare s g) ∈ d ∧ (4, 1, 10) ∈ d ∧ (5, 1, percentUsed s g) ∈ d ∧ (160, 16, usable s g) ∈ d := by
  have hgo : egLog a id s = admAnswer a (egFields s g ((s.reg.nss.filter fun n => n.endgid == id &&
      (admProvider s a || (seen s a).contains n.nsid)).map (·.nsid))) s := by simp only [egLog, hg]
  obtain ⟨t, ht, hpass⟩ := next_of_runs (c := .getLogPageEnduranceGroup a id) rfl hrun (by decide) hgo
  exact ⟨t, ht, _, hpass, by simp [egFields], by simp [egFields], by simp [egFields, spareThreshold], by simp [egFields], by simp [egFields]⟩

theorem sweepLog_spec {a : Adm} {s : State} (hrun : AdmRuns .management a s) :
    Next (.getLogPageSecureDeallocProgress a) s fun t => ∃ d, t = passTurn a (admAnswer a d s) ∧
      let ws := s.rcl.sweeps.filter fun w => w.kept && seenOrAll s a w.nsid
      (0, 4, ws.length) ∈ d ∧ ∀ i w, ws[i]? = some w → (16 + 32 * i, 4, w.id) ∈ d ∧ (16 + 32 * i + 4, 4, w.nsid) ∈ d ∧
        (16 + 32 * i + 8, 1, if w.state = 1 ∧ summariesReady s = false then 0 else w.state) ∈ d ∧
        (16 + 32 * i + 12, 4, w.bands.length + w.doneBands) ∈ d ∧
        (16 + 32 * i + 16, 4, w.doneBands) ∈ d := by
  obtain ⟨t, ht, hpass⟩ := next_of_runs (c := .getLogPageSecureDeallocProgress a) rfl hrun (by decide) (f := sweepLog a) rfl
  refine ⟨t, ht, _, hpass, List.mem_cons_self, fun i w hw => ?_⟩
  have hfield : ∀ y : Field, y ∈ sweepFields s w → (16 + 32 * i + y.1, y.2.1, y.2.2) ∈
      (0, 4, (s.rcl.sweeps.filter fun w => w.kept && seenOrAll s a w.nsid).length) ::
        entries 16 32 ((s.rcl.sweeps.filter fun w => w.kept && seenOrAll s a w.nsid).map (sweepFields s)) := fun y h =>
    List.mem_cons_of_mem _ (mem_entries_map hw y h)
  exact ⟨hfield (0, 4, w.id) (by simp [sweepFields]), hfield (4, 4, w.nsid) (by simp [sweepFields]),
    hfield (8, 1, if w.state = 1 ∧ summariesReady s = false then 0 else w.state) (by simp [sweepFields]),
    hfield (12, 4, w.bands.length + w.doneBands) (by simp [sweepFields]), hfield (16, 4, w.doneBands) (by simp [sweepFields])⟩

/-- A read of the lost ranges; only one that clears the event changes anything else. -/
theorem lostLog_spec {a : Adm} {rae : Bool} {s : State} (hrun : AdmRuns .management a s) :
    let ls := (s.red.lost.filter fun l => seenOrAll s a l.nsid).reverse
    Next (.getLogPageLostRanges a rae) s fun t => ∃ d, (0, 4, ls.length) ∈ d ∧ (4, 8, s.red.lostTotal) ∈ d ∧
      (∀ i l, ls[i]? = some l → (16 + 32 * i, 28, ofLE (lostBytes l)) ∈ d) ∧
      (rae = true → t = passTurn a (admAnswer a d s)) ∧
      (rae = false → admProvider s a = true →
        t = passTurn a (admAnswer a d (smartRefresh { s with health := { s.health with lostUnread := false } }))) := by
  intro ls
  have hgo : lostLog a rae s = admAnswer a ([(0, 4, ls.length), (4, 8, s.red.lostTotal)] ++ entries 16 32 (ls.map lostFields))
      (if !rae && admProvider s a then smartRefresh { s with health := { s.health with lostUnread := false } } else s) := rfl
  obtain ⟨t, ht, hpass⟩ := next_of_runs (c := .getLogPageLostRanges a rae) rfl hrun (by decide) hgo
  refine ⟨t, ht, [(0, 4, ls.length), (4, 8, s.red.lostTotal)] ++ entries 16 32 (ls.map lostFields), by simp, by simp,
    fun i l hl => List.mem_append_right _ (mem_entries_map hl (0, 28, ofLE (lostBytes l)) (by simp [lostFields])), fun hrae => ?_, fun hrae hprov => ?_⟩
  · rw [hpass, hrae, Bool.not_true, Bool.false_and, if_neg Bool.false_ne_true]
  · rw [hpass, hrae, hprov, Bool.not_false, Bool.and_self, if_pos rfl]

/-! ### Pages for the provider (R454, R499, R500) -/

theorem forProvider_of_provider {a : Adm} {d : List Field} {s : State} (h : admProvider s a = true) : forProvider a d s = admAnswer a d s := by
  simp [forProvider, h]

theorem forProvider_of_other {a : Adm} {d : List Field} {s : State} (h : admProvider s a = false) :
    forProvider a d s = admDone a .invalidLogPage 0 s := by
  simp [forProvider, h]

theorem healthFields_spec (s : State) : (4, 1, s.health.crit) ∈ healthFields s ∧
    (5, 1, (s.plp.causes.min?).getD 0) ∈ healthFields s ∧ (6, 1, s.plp.result) ∈ healthFields s ∧ (28, 4, s.plp.limitMib) ∈ healthFields s ∧
    (16, 2, (s.media.dies.filter (·.failed)).length) ∈ healthFields s ∧ (120, 8, s.red.lostTotal) ∈ healthFields s ∧
    ∀ i, i < 11 → (32 + 8 * i, 8, s.health.life.getD i 0) ∈ healthFields s := by
  unfold healthFields
  dsimp only
  have hcount : ∀ i, i < 11 → (32 + 8 * i, 8, s.health.life.getD i 0) ∈ (List.range 11).map fun i => (32 + 8 * i, 8, s.health.life.getD i 0) :=
    fun i hi => List.mem_map.2 ⟨i, List.mem_range.2 hi, rfl⟩
  refine ⟨?_, ?_, ?_, ?_, ?_, ?_, fun i hi => ?_⟩
  · exact List.mem_append_left _ (List.mem_append_left _ (List.mem_append_left _ (List.mem_append_left _ (by simp))))
  · exact List.mem_append_left _ (List.mem_append_left _ (List.mem_append_left _ (List.mem_append_left _ (by simp))))
  · exact List.mem_append_left _ (List.mem_append_left _ (List.mem_append_left _ (List.mem_append_left _ (by simp))))
  · exact List.mem_append_left _ (List.mem_append_left _ (List.mem_append_left _ (List.mem_append_left _ (by simp))))
  · exact List.mem_append_left _ (List.mem_append_left _ (List.mem_append_left _ (List.mem_append_left _ (by simp))))
  · exact List.mem_append_left _ (List.mem_append_left _ (List.mem_append_right _ (List.mem_singleton.2 rfl)))
  · exact List.mem_append_left _ (List.mem_append_left _ (List.mem_append_left _ (List.mem_append_right _ (hcount i hi))))

/-! ### Discovery (R48) -/

theorem mem_discoveryEntries {s : State} {nqn : Bytes} {e : Nat × Nat} (h : e ∈ discoveryEntries s nqn) :
    admits s (e.1 / 4) nqn = true ∧ portUp s (e.1 / 4) (e.1 % 4) = true := by
  obtain ⟨t, -, ht⟩ := List.mem_flatMap.1 h
  split at ht
  case isFalse => simp at ht
  case isTrue hadm =>
    obtain ⟨p, hp, hx⟩ := List.mem_flatMap.1 ht
    obtain ⟨x, -, rfl⟩ := List.mem_map.1 hx
    obtain ⟨hlt, hup⟩ := List.mem_filter.1 hp
    have hp4 := List.mem_range.1 hlt
    have hdiv : (4 * t + p) / 4 = t := by omega
    have hmod : (4 * t + p) % 4 = p := by omega
    rw [hdiv, hmod]
    exact ⟨hadm, hup⟩

theorem discoveryLog_of_bound {conn : Nat} {k : Conn} {s : State} (hconn : liveConn s conn = some k) (hdisc : k.discovery = true)
    (hbound : k.bound = true) : discoveryLog conn s = emit (.discovery conn (discoveryEntries s k.nqn)) s := by
  simp [discoveryLog, hconn, hdisc, hbound]

/-- Settles O23. -/
theorem logPages : Obligations.LogPages := by
  unfold Obligations.LogPages
  refine ⟨fun a c s hrun hc => ⟨errorLog_spec hrun hc, frozenLog_spec hrun hc, tenantLog_spec hrun hc⟩,
    fun s hrun => ⟨next_of_runs rfl hrun (by decide) rfl, next_of_runs rfl hrun (by decide) rfl, next_of_runs rfl hrun (by decide) rfl⟩,
    fun a nsid s hrun => ⟨smartLog_spec hrun, fun h0 hall hno => next_of_runs rfl hrun (by decide) ?_⟩,
    fun a id s hrun => ⟨fun g => egLog_spec hrun, fun hnone => next_of_runs rfl hrun (by decide) ?_⟩,
    fun a s hrun => ⟨?_, sweepLog_spec hrun⟩,
    fun a s hrun => ⟨fun hprov => ⟨?_, ?_⟩, fun hprov => ⟨next_of_runs rfl hrun (by decide) (forProvider_of_other hprov),
      next_of_runs rfl hrun (by decide) (forProvider_of_other hprov)⟩⟩,
    fun a rae s hrun => lostLog_spec hrun, fun conn k s hconn hdisc hbound hrun => ?_⟩
  case refine_1 => simp [smartLog, h0, hall, hno]
  case refine_2 => simp [egLog, hnone]
  case refine_3 =>
    obtain ⟨t, ht, hpass⟩ := next_of_runs (c := .getLogPageFirmwareSlot a) rfl hrun (by decide) (f := fun s => admAnswer a (slotFields s) s) rfl
    exact ⟨t, ht, _, hpass, by simp [slotFields], by simp [slotFields], by simp [slotFields]⟩
  case refine_4 =>
    obtain ⟨t, ht, hpass⟩ := next_of_runs (c := .getLogPageFirmwareStaging a) rfl hrun (by decide)
      (f := fun s => forProvider a (stagingFields s) s) (forProvider_of_provider hprov)
    exact ⟨t, ht, _, hpass, by simp [stagingFields], by simp [stagingFields], by simp [stagingFields], by simp [stagingFields]⟩
  case refine_5 =>
    obtain ⟨t, ht, hpass⟩ := next_of_runs (c := .getLogPageDeviceHealth a) rfl hrun (by decide)
      (f := fun s => forProvider a (healthFields s) s) (forProvider_of_provider hprov)
    exact ⟨t, ht, _, hpass, healthFields_spec s⟩
  case refine_6 =>
    obtain ⟨t, ht, hpass⟩ := next_of_runs (c := .getLogPageDiscovery conn) rfl hrun (by decide) (discoveryLog_of_bound hconn hdisc hbound)
    exact ⟨t, ht, hpass, fun e => mem_discoveryEntries⟩

end Sys2Proof.Machine
end

section
/-!
PROOFS. A Flush in write-through mode (R93): it waits for the extents that were uncommitted when it came, and one that is committed holds it no
longer, though its record still stands in the list of extents.
-/
namespace Sys2Proof.Machine
open Sys2Proof

/-- A Flush that waits for the extent with write sequence 5. -/
def flushOfFive : Cmd :=
  { id := 0, tile := 0, cntlid := 0, payer := Payer.device, sqid := 1
    cap := { cid := 0, op := .flush, nsid := 1, slba := 0, nlb := 0, sglLen := 0, descs := 0, bitBucket := false, invKey := none, ce := false,
             inCap := [], inCapLen := 0, bytes := 64, hdgstOk := true, ddgstOk := true }
    cls := .h0, phase := .draining, data := [], pieces := [], extents := [], updates := [], status := .success, dw0 := 0, discard := false
    took := true, plan := [], sweep := 0, sweepSync := false, bufs := [], fetchMs := 0, heldMs := 0, behindWrites := false, asked := false
    lost := [], lostMs := none, waitFor := [5], charged := 0 }

/-- A relocated extent with write sequence 5 whose map step is committed. -/
def committedFive : Ext :=
  { seq := 5, nsid := 1, slba := 0, nblk := 1, compressed := false, raw := true, static := false, len := 16, keyGen := 0, crc := 0
    plain := [], body := [], stream := .relocate, port := 0, cmd := 0, src := some 0, mask := [], stage := .closed, addr := 0, sg := 0
    band := 0, row := 0, member := 0, inDram := false, mirrorTile := 0, mirrorHeld := false, committed := true, replacing := false
    parts := [], payer := Payer.device, acked := true }

/-- The Flush drains while the extent that it waited for is committed but still listed. -/
def flushAfterCommit : State :=
  { State.reset with
    host := { State.reset.host with cmds := [flushOfFive] }
    wr := { State.reset.wr with exts := [committedFive] } }

theorem findCmd_flushAfterCommit : findCmd flushAfterCommit 0 = some flushOfFive := by decide +kernel

theorem flushReady_flushAfterCommit : flushReady flushAfterCommit flushOfFive = true := by decide +kernel

/-- Refutes O47, by its clause on what a Flush waits for: in `flushAfterCommit` it is ready, and the extent stands in the list. -/
theorem not_ioCommands : ¬ Obligations.IoCommands := by
  unfold Obligations.IoCommands
  rintro ⟨-, -, -, -, -, -, -, -, hready, -⟩
  have hgone := (hready 0 flushOfFive flushAfterCommit findCmd_flushAfterCommit rfl rfl).mp flushReady_flushAfterCommit
  exact hgone 5 (.head _) committedFive (.head _) rfl

end Sys2Proof.Machine
end

section
/-!
PROOFS. What the span map's operations touch (R137 to R146, R289): bringing a page into a level changes regions and clock hands alone; storing
spans changes besides these the directory records, the blocks' live counts and NUSE; and no event that was raised is taken back.
-/
namespace Sys2Proof.Machine
open Sys2Proof

/-! ### Levels -/

/-- From `s` to `t` nothing but the map's regions and clock hands changed. -/
def OnlyPaging (s t : State) : Prop := t = { s with map := { s.map with regions := t.map.regions, hands := t.map.hands } }

theorem OnlyPaging.refl (s : State) : OnlyPaging s s := rfl

theorem OnlyPaging.trans {s t u : State} (h : OnlyPaging s t) (k : OnlyPaging t u) : OnlyPaging s u :=
  Eq.trans k (congrArg (fun x : State => { x with map := { x.map with regions := u.map.regions, hands := u.map.hands } }) h)

theorem onlyPaging_putRegion (x : Region) (s : State) : OnlyPaging s (putRegion x s) := rfl

theorem onlyPaging_roomL0 (t : Nat) (s : State) : OnlyPaging s (roomL0 t s) := by
  unfold roomL0
  dsimp only
  split
  · rfl
  · split <;> rfl

theorem onlyPaging_roomL1 (t : Nat) (s : State) : OnlyPaging s (roomL1 t s) := by
  unfold roomL1
  split
  · rfl
  · split <;> rfl

theorem onlyPaging_takeFrame (n r : Nat) (s : State) : OnlyPaging s (takeFrame n r s) := by
  unfold takeFrame
  dsimp only
  exact iteInduction (motive := OnlyPaging s) (fun _ => .refl s) fun _ => (onlyPaging_roomL1 _ s).trans (onlyPaging_putRegion _ _)

theorem onlyPaging_fillL0 (n r : Nat) (s : State) : OnlyPaging s (fillL0 n r s) := by
  unfold fillL0
  dsimp only
  exact iteInduction (motive := OnlyPaging s) (fun _ => onlyPaging_putRegion _ s) fun _ =>
    (onlyPaging_roomL0 _ s).trans (onlyPaging_putRegion _ _)

/-! ### Spans -/

/-- From `s` to `t` nothing but regions, records and hands of the map, NUSE and the live counts of blocks changed. -/
def OnlySpans (s t : State) : Prop :=
  t = { s with map := { s.map with regions := t.map.regions, hands := t.map.hands, gone := t.map.gone, dirs := t.map.dirs }
               reg := { s.reg with nss := t.reg.nss }, rcl := { s.rcl with blocks := t.rcl.blocks } }

theorem OnlySpans.refl (s : State) : OnlySpans s s := rfl

theorem OnlySpans.trans {s t u : State} (h : OnlySpans s t) (k : OnlySpans t u) : OnlySpans s u :=
  Eq.trans k (congrArg (fun x : State => { x with
    map := { x.map with regions := u.map.regions, hands := u.map.hands, gone := u.map.gone, dirs := u.map.dirs }
    reg := { x.reg with nss := u.reg.nss }, rcl := { x.rcl with blocks := u.rcl.blocks } }) h)

theorem OnlyPaging.onlySpans {s t : State} (h : OnlyPaging s t) : OnlySpans s t := by
  rw [h]
  rfl

theorem OnlyBlocks.onlySpans {s t : State} (h : OnlyBlocks s t) : OnlySpans s t := by
  rw [h]
  rfl

/-- NUSE of a namespace after its spans change. -/
def nuseSet (n keep before : Nat) (s : State) : State :=
  { s with reg := { s.reg with nss := s.reg.nss.map fun k => if k.nsid == n then { k with nuse := k.nuse + keep - before } else k } }

theorem onlySpans_setSpans (n r : Nat) (new : List Span) (dirty : Option Nat) (s : State) : OnlySpans s (setSpans n r new dirty s) := by
  unfold setSpans
  extract_lets x keep before s1 _ s2
  have hcount : OnlySpans s s2 := (onlyBlocks_reportLive _ _ s).onlySpans.trans (u := nuseSet n (mapped keep) before s1) rfl
  refine hcount.trans ?_
  exact iteInduction (motive := OnlySpans s2) (fun _ => rfl) fun _ => (onlyPaging_putRegion _ s2).onlySpans

theorem onlySpans_dirtyDir (n r pos : Nat) (s : State) : OnlySpans s (dirtyDir n r pos s) := by
  unfold dirtyDir
  dsimp only
  split <;> rfl

theorem onlySpans_storeSpans (n r : Nat) (new : List Span) (pos : Nat) (s : State) : OnlySpans s (storeSpans n r new pos s) := by
  unfold storeSpans
  extract_lets x s1
  have hset : OnlySpans s s1 := onlySpans_setSpans ..
  split
  · exact iteInduction (motive := OnlySpans s) (fun _ => hset.trans (onlySpans_dirtyDir ..)) fun _ => hset
  · exact hset.trans (((onlyPaging_putRegion _ s1).trans (onlyPaging_takeFrame ..)).trans (onlyPaging_fillL0 ..)).onlySpans

theorem journals_storeSpans (n r : Nat) (new : List Span) (pos : Nat) (s : State) :
    (storeSpans n r new pos s).map.journals = s.map.journals := by rw [onlySpans_storeSpans n r new pos s]

theorem evr_storeSpans (n r : Nat) (new : List Span) (pos : Nat) (s : State) : (storeSpans n r new pos s).evr = s.evr := by
  rw [onlySpans_storeSpans n r new pos s]

theorem red_storeSpans (n r : Nat) (new : List Span) (pos : Nat) (s : State) : (storeSpans n r new pos s).red = s.red := by
  rw [onlySpans_storeSpans n r new pos s]

theorem waiting_storeSpans (n r : Nat) (new : List Span) (pos : Nat) (s : State) :
    (storeSpans n r new pos s).map.waiting = s.map.waiting := by rw [onlySpans_storeSpans n r new pos s]

/-! ### Events -/

/-- Every event that `s` has raised `t` has raised as well. -/
def Raises (s t : State) : Prop := s.evr.raised <+: t.evr.raised

theorem Raises.of_eq {s t : State} (h : t.evr = s.evr) : Raises s t := by
  rw [Raises, h]

theorem Raises.trans {s t u : State} (h : Raises s t) (k : Raises t u) : Raises s u := List.IsPrefix.trans h k

theorem Raises.foldl {α : Type} {f : State → α → State} (h : ∀ s x, Raises s (f s x)) : ∀ (l : List α) (s : State), Raises s (l.foldl f s)
  | [], _ => .of_eq rfl
  | x :: l, s => (h s x).trans (foldl h l (f s x))

theorem raises_logEv (e : Ev) (t : Nat) (l : List Nat) (s : State) : Raises s (logEv e t l s) := List.prefix_append _ _

theorem mem_raised_logEv (e : Ev) (t : Nat) (l : List Nat) (s : State) : { ev := e, tile := t, params := l } ∈ (logEv e t l s).evr.raised :=
  List.mem_append_right _ (List.mem_singleton.mpr rfl)

theorem evr_linkFree (i : Nat) (p : Pool) (s : State) : (linkFree i p s).evr = s.evr := by
  unfold linkFree putPool
  rfl

theorem raises_freeBuffer (t h : Nat) (s : State) : Raises s (freeBuffer t h s) := by
  unfold freeBuffer
  split
  · exact Raises.trans (t := bump t .bpm_bad_free_bad_frees s) (.of_eq rfl) (raises_logEv ..)
  · split
    · exact .of_eq rfl
    · dsimp only
      split
      · exact .of_eq rfl
      · split
        · exact .of_eq rfl
        · exact .of_eq (evr_linkFree ..)

theorem evr_sendTo (k q : Nat) (o : Out) (s : State) : (sendTo k q o s).evr = s.evr := by
  unfold sendTo
  split
  · split <;> rfl
  · rfl

theorem evr_postCq (c : Cmd) (s : State) : (postCq c s).evr = s.evr := by
  unfold postCq
  split
  · rfl
  · split
    · rfl
    · dsimp only
      split
      · rfl
      · split <;> rfl

theorem evr_freezeQueue (c : Cmd) (st : Status) (s : State) : (freezeQueue c st s).evr = s.evr := by
  unfold freezeQueue
  split
  · rfl
  · split <;> rfl

theorem evr_shutdownDone (k : Nat) (s : State) : (shutdownDone k s).evr = s.evr := by
  unfold shutdownDone
  split <;> rfl

theorem evr_ackExts (c : Cmd) (s : State) : (ackExts c s).evr = s.evr := by
  unfold ackExts
  split <;> rfl

theorem evr_meterCommand (c : Cmd) (miss : Bool) (s : State) : (meterCommand c miss s).evr = s.evr := by
  unfold meterCommand
  dsimp only
  split <;> rfl

theorem raises_postOne (c : Cmd) (s : State) : Raises s (postOne c s) := by
  have hends : ∀ y z : State, z.evr = y.evr → Raises y (shutdownDone c.cntlid (dropCmd c.id (postCq c (freeBuffers c.tile c.bufs
      (ackExts c (meterCommand c (isQosMiss s c) z)))))) := fun y z hz => by
    have hfree := Raises.foldl (fun s h => raises_freeBuffer c.tile h s) c.bufs (ackExts c (meterCommand c (isQosMiss s c) z))
    exact ((Raises.of_eq (((evr_ackExts ..).trans (evr_meterCommand ..)).trans hz)).trans hfree).trans
      (.of_eq ((evr_shutdownDone ..).trans (evr_postCq c _)))
  unfold postOne
  extract_lets s1 dw0 head alone s2 s3 s4 s5
  have h1 : s1.evr = s.evr := by
    refine iteInduction (motive := fun x : State => x.evr = s.evr) (fun _ => rfl) fun _ => evr_freezeQueue ..
  have h2 : s2.evr = s1.evr := iteInduction (motive := fun x : State => x.evr = s1.evr) (fun _ => evr_sendTo ..) fun _ => rfl
  have h3 : s3.evr = s2.evr := iteInduction (motive := fun x : State => x.evr = s2.evr) (fun _ => rfl) fun _ => evr_sendTo ..
  have h4 : s4.evr = s3.evr := by
    show (match c.cap.invKey with
      | some k => sendTo c.cntlid c.sqid (.invalidate c.cntlid c.sqid k) s3
      | none => s3).evr = s3.evr
    split
    · exact evr_sendTo ..
    · rfl
  exact hends s s4 (h4.trans (h3.trans (h2.trans h1)))

theorem raises_postEnded (s : State) : Raises s (postEnded s) := by
  refine Raises.foldl (fun s id => ?_) _ s
  split
  · exact iteInduction (motive := Raises s) (fun _ => raises_postOne _ s) fun _ => .of_eq rfl
  · exact .of_eq rfl

theorem raises_finishCmd (id : Nat) (st : Status) (dw0 : Nat) (s : State) : Raises s (finishCmd id st dw0 s) := by
  unfold finishCmd
  split
  · exact .of_eq rfl
  · next c _ =>
    refine iteInduction (motive := Raises s) (fun _ => ?_) fun _ => ?_
    · have hfree : Raises s (freeBuffers c.tile c.bufs s) := Raises.foldl (fun s h => raises_freeBuffer c.tile h s) c.bufs s
      refine Raises.trans ?_ (raises_postEnded _)
      exact hfree.trans (.of_eq (evr_shutdownDone c.cntlid (dropCmd id _)))
    · refine Raises.trans ?_ (raises_postEnded _)
      exact .of_eq rfl

theorem raises_raiseAen (k kind info : Nat) (s : State) : Raises s (raiseAen k kind info s) := by
  unfold raiseAen
  split
  · exact .of_eq rfl
  · split
    · refine Raises.trans ?_ (raises_finishCmd ..)
      exact .of_eq rfl
    · split <;> exact .of_eq rfl

theorem raises_smartRefresh (s : State) : Raises s (smartRefresh s) := by
  unfold smartRefresh
  extract_lets c
  refine iteInduction (motive := Raises s) (fun _ => .of_eq rfl) fun _ => ?_
  have hfold := Raises.foldl (fun s id => raises_raiseAen id 1 0 s) ((s.host.ctrls.filter fun c => !c.discovery).map (·.cntlid))
    { s with health := { s.health with crit := c } }
  exact hfold.trans (.of_eq rfl)

theorem raises_withLost (l : List LostRange) (n : Nat) (s : State) : Raises s (smartRefresh (withLost l n s)) :=
  (Raises.of_eq (t := withLost l n s) rfl).trans (raises_smartRefresh _)

theorem raises_enterLost (cause sg n die : Nat) : ∀ (rs : List (Nat × Nat)) (s : State), Raises s (enterLost cause sg n die rs s)
  | [], _ => .of_eq rfl
  | _ :: rs, s => (raises_withLost _ _ s).trans (raises_enterLost cause sg n die rs _)

/-! ### Lost regions (R289) -/

theorem regions_withLost (l : List LostRange) (n : Nat) (s : State) :
    (smartRefresh (withLost l n s)).red.lostRegions = s.red.lostRegions ∧ (smartRefresh (withLost l n s)).red.regionFull = s.red.regionFull := by
  rw [red_smartRefresh]
  exact ⟨rfl, rfl⟩

theorem regions_enterLost (cause sg n die : Nat) : ∀ (rs : List (Nat × Nat)) (s : State),
    (enterLost cause sg n die rs s).red.lostRegions = s.red.lostRegions ∧ (enterLost cause sg n die rs s).red.regionFull = s.red.regionFull
  | [], _ => ⟨rfl, rfl⟩
  | _ :: rs, s =>
    have hrest := regions_enterLost cause sg n die rs _
    have hone := regions_withLost _ _ s
    ⟨hrest.1.trans hone.1, hrest.2.trans hone.2⟩

/-- The runs of a region's blocks that were lost with its record. -/
def lostRuns (n r : Nat) (s : State) : List (Nat × Nat) := (runsOf (lostMask s (getRegion s n r))).map fun k => (256 * r + k.1, k.2)

/-- The region with its lost blocks unmapped. -/
def lostCut (n r : Nat) (s : State) : State :=
  appendJ (ownerSlot s n r) ((lostRuns n r s).map fun k => jentry .unmap n k.1 k.2 zeroSpan 0)
    (storeSpans n r ((lostMask s (getRegion s n r)).foldl (fun l i => cutSpans i 1 l) (getRegion s n r).spans)
      (findJournal s (ownerSlot s n r)).head s)

/-- The lost regions that a tile has noted. -/
def lostAt (s : State) (t : Nat) : Nat := (s.red.lostRegions.filter fun y => ownerTile s y.nsid y.region == t).length

/-- The region entered in the lost-region table, or its namespace without I/O where the table is full. -/
def lostNoted (n r : Nat) (s : State) : State :=
  if 65536 ≤ lostAt s (ownerTile s n r) then
    logEv .lostRegionFull (ownerTile s n r) [ownerTile s n r, n]
      { lostCut n r s with red := { (lostCut n r s).red with regionFull := (n :: (lostCut n r s).red.regionFull).eraseDups } }
  else
    { lostCut n r s with red := { (lostCut n r s).red with
      lostRegions := (lostCut n r s).red.lostRegions ++ [{ nsid := n, region := r, blocks := lostMask s (getRegion s n r) }] } }

theorem lostRegion_eq (n r : Nat) (s : State) : lostRegion n r s =
    enterLost 4 (((egOf s n).map fun g => g.groups.headD 0).getD 0) n 0xFFFF (lostRuns n r s) (lostNoted n r s) := by
  simp only [lostRegion, lostNoted, lostCut, lostRuns, lostAt]
  rfl

theorem evr_lostCut (n r : Nat) (s : State) : (lostCut n r s).evr = s.evr := evr_storeSpans ..

theorem red_lostCut (n r : Nat) (s : State) : (lostCut n r s).red = s.red := red_storeSpans ..

theorem raises_lostNoted (n r : Nat) (s : State) : Raises s (lostNoted n r s) := by
  refine iteInduction (motive := Raises s) (fun _ => ?_) fun _ => .of_eq (evr_lostCut n r s)
  refine Raises.trans ?_ (raises_logEv ..)
  exact .of_eq (evr_lostCut n r s)

theorem raises_lostRegion (n r : Nat) (s : State) : Raises s (lostRegion n r s) := by
  rw [lostRegion_eq]
  exact (raises_lostNoted n r s).trans (raises_enterLost ..)

/-- The region is in the table where that had room; else its namespace has no I/O. -/
theorem lostRegion_spec (n r : Nat) (s : State) :
    (lostAt s (ownerTile s n r) < 65536 →
      { nsid := n, region := r, blocks := lostMask s (getRegion s n r) } ∈ (lostRegion n r s).red.lostRegions) ∧
    (65536 ≤ lostAt s (ownerTile s n r) → n ∈ (lostRegion n r s).red.regionFull) := by
  rw [lostRegion_eq]
  obtain ⟨hregions, hfull⟩ := regions_enterLost 4 (((egOf s n).map fun g => g.groups.headD 0).getD 0) n 0xFFFF (lostRuns n r s) (lostNoted n r s)
  rw [hregions, hfull]
  refine ⟨fun hroom => ?_, fun hno => ?_⟩
  · rw [lostNoted, if_neg (Nat.not_le.mpr hroom)]
    exact List.mem_append_right _ (List.mem_singleton.mpr rfl)
  · rw [lostNoted, if_pos hno]
    exact List.mem_eraseDups.mpr (.head _)

theorem raises_lostDirectory (slot n i : Nat) (s : State) :
    Raises (logEv .mapFetchFault slot [2, n, i % 2 ^ 32] s) (lostDirectory slot n i s) := by
  unfold lostDirectory
  extract_lets mine s1
  have hlost : Raises (logEv .mapFetchFault slot [2, n, i % 2 ^ 32] s) s1 :=
    Raises.foldl (f := fun s (x : Region) => lostRegion n x.r s) (fun s x => raises_lostRegion n x.r s) _ _
  exact hlost.trans (Raises.foldl (f := fun s (x : Region) => putRegion { x with dirty := some (findJournal s slot).head } s)
    (fun s x => .of_eq rfl) _ _)

theorem waiting_lostCut (n r : Nat) (s : State) : (lostCut n r s).map.waiting = s.map.waiting := waiting_storeSpans ..

theorem waiting_lostNoted (n r : Nat) (s : State) : (lostNoted n r s).map.waiting = s.map.waiting := by
  rw [← waiting_lostCut n r s, lostNoted]
  generalize lostCut n r s = t
  split <;> rfl

theorem waiting_lostRegion (n r : Nat) (s : State) : (lostRegion n r s).map.waiting = s.map.waiting := by
  obtain ⟨-, hmap, -⟩ := keepsSlots_enterLost 4 (((egOf s n).map fun g => g.groups.headD 0).getD 0) n 0xFFFF (lostRuns n r s) (lostNoted n r s)
  rw [lostRegion_eq, hmap, waiting_lostNoted]

theorem waiting_foldl {α : Type} {f : State → α → State} (h : ∀ s x, (f s x).map.waiting = s.map.waiting) :
    ∀ (l : List α) (s : State), (l.foldl f s).map.waiting = s.map.waiting
  | [], _ => rfl
  | x :: l, s => (waiting_foldl h l (f s x)).trans (h s x)

theorem waiting_lostDirectory (slot n i : Nat) (s : State) : (lostDirectory slot n i s).map.waiting = s.map.waiting := by
  unfold lostDirectory
  extract_lets mine s1
  have hlost : s1.map.waiting = s.map.waiting :=
    waiting_foldl (f := fun s (x : Region) => lostRegion n x.r s) (fun s x => waiting_lostRegion n x.r s) _ _
  exact (waiting_foldl (f := fun s (x : Region) => putRegion { x with dirty := some (findJournal s slot).head } s) (fun s x => rfl) _ _).trans hlost

end Sys2Proof.Machine
end

section
/-!
PROOFS. Rules of the span map's state operations (R138 to R155): what is found of a region and of a journal after one is put, and what a
journal's entries and head are after it is appended to.
-/
namespace Sys2Proof.Machine
open Sys2Proof

variable {s : State}

/-! ### Regions -/

theorem nsid_of_findRegion {n r : Nat} {x : Region} (h : findRegion s n r = some x) : x.nsid = n := by
  have hkey := List.find?_some (p := fun x : Region => x.nsid == n && x.r == r) h
  simp only [Bool.and_eq_true, beq_iff_eq] at hkey
  exact hkey.1

theorem r_of_findRegion {n r : Nat} {x : Region} (h : findRegion s n r = some x) : x.r = r := by
  have hkey := List.find?_some (p := fun x : Region => x.nsid == n && x.r == r) h
  simp only [Bool.and_eq_true, beq_iff_eq] at hkey
  exact hkey.2

theorem getRegion_of_find {n r : Nat} {x : Region} (h : findRegion s n r = some x) : getRegion s n r = x := by rw [getRegion, h]; rfl

theorem find?_append_unlisted {x : Region} (l : List Region) (hnone : (l.any fun y => y.nsid == x.nsid && y.r == x.r) = false) (a b : Nat) :
    (l ++ [x]).find? (fun y => y.nsid == a && y.r == b) = if a = x.nsid ∧ b = x.r then some x else
      l.find? fun y => y.nsid == a && y.r == b := by
  rw [List.find?_append]
  by_cases h : a = x.nsid ∧ b = x.r
  · obtain ⟨rfl, rfl⟩ := h
    have hno : (l.find? fun y => y.nsid == x.nsid && y.r == x.r) = none := by
      rw [List.any_eq_false] at hnone
      exact List.find?_eq_none.mpr hnone
    simp [hno]
  · have hnot : ¬(x.nsid = a ∧ x.r = b) := fun hx => h ⟨hx.1.symm, hx.2.symm⟩
    simp [h, hnot]

theorem findRegion_map {f : Region → Region} (hf : ∀ x, (f x).nsid = x.nsid ∧ (f x).r = x.r) (n r : Nat) : ∀ l : List Region,
    (l.map f).find? (fun x => x.nsid == n && x.r == r) = (l.find? fun x => x.nsid == n && x.r == r).map f
  | [] => rfl
  | x :: l => by
    rw [List.map_cons, List.find?_cons, List.find?_cons, findRegion_map hf n r l, (hf x).1, (hf x).2]
    split <;> rfl

/-- What `putRegion` makes of an entry of the list, where the region is listed. -/
def replacedBy (x y : Region) : Region := if y.nsid == x.nsid && y.r == x.r then x else y

theorem keys_replacedBy (x y : Region) : (replacedBy x y).nsid = y.nsid ∧ (replacedBy x y).r = y.r := by
  unfold replacedBy
  split
  · next h =>
    rw [Bool.and_eq_true, beq_iff_eq, beq_iff_eq] at h
    exact ⟨h.1.symm, h.2.symm⟩
  · exact ⟨rfl, rfl⟩

theorem find?_map_listed {x : Region} (l : List Region) (hsome : (l.any fun y => y.nsid == x.nsid && y.r == x.r) = true) (a b : Nat) :
    (l.map (replacedBy x)).find? (fun y => y.nsid == a && y.r == b) =
      if a = x.nsid ∧ b = x.r then some x else l.find? fun y => y.nsid == a && y.r == b := by
  rw [findRegion_map (keys_replacedBy x)]
  cases hfind : l.find? fun y => y.nsid == a && y.r == b with
  | none =>
    have hne : ¬(a = x.nsid ∧ b = x.r) := by
      rintro ⟨rfl, rfl⟩
      obtain ⟨y, hy, hkey⟩ := List.any_eq_true.mp hsome
      exact List.find?_eq_none.mp hfind y hy hkey
    rw [if_neg hne]
    rfl
  | some y =>
    have hkey : y.nsid = a ∧ y.r = b := by simpa using List.find?_some hfind
    obtain ⟨rfl, rfl⟩ := hkey
    simp only [Option.map_some, replacedBy, Bool.and_eq_true, beq_iff_eq]
    split <;> rfl

theorem findRegion_putRegion (x : Region) (s : State) (a b : Nat) :
    findRegion (putRegion x s) a b = if a = x.nsid ∧ b = x.r then some x else findRegion s a b := by
  cases hany : s.map.regions.any fun y => y.nsid == x.nsid && y.r == x.r with
  | true =>
    have hput : (putRegion x s).map.regions = s.map.regions.map (replacedBy x) := by simp only [putRegion, hany, if_true]; rfl
    rw [findRegion, hput, find?_map_listed _ hany]
    rfl
  | false =>
    have hput : (putRegion x s).map.regions = s.map.regions ++ [x] := by simp [putRegion, hany]
    rw [findRegion, hput, find?_append_unlisted _ hany]
    rfl

theorem findRegion_putRegion_self {x : Region} {n r : Nat} (hn : x.nsid = n) (hr : x.r = r) (s : State) :
    findRegion (putRegion x s) n r = some x := by
  rw [findRegion_putRegion, if_pos ⟨hn.symm, hr.symm⟩]

/-! ### Journals -/

theorem slot_findJournal (s : State) (k : Nat) : (findJournal s k).slot = k := by
  unfold findJournal
  cases h : s.map.journals.find? fun j => j.slot == k with
  | none => rfl
  | some j => simpa using List.find?_some h

theorem findJournal_putJournal (j : Journal) (s : State) (k : Nat) :
    findJournal (putJournal j s) k = if k = j.slot then j else findJournal s k := by
  show (((s.map.journals.filter fun y => !(y.slot == j.slot)) ++ [j]).find? (fun y => y.slot == k)).getD _ = _
  rw [List.find?_append]
  by_cases hk : k = j.slot
  · subst hk
    rw [find?_filter_self (fun y : Journal => y.slot == j.slot)]
    simp
  · have hne : ¬ j.slot = k := fun h => hk h.symm
    rw [find?_filter_not (fun y : Journal => y.slot == k) (fun y : Journal => y.slot == j.slot) (fun y hy => by
      rw [eq_of_beq hy]
      simpa using hk)]
    simp [hk, hne, findJournal]

theorem findJournal_putJournal_self {j : Journal} {k : Nat} (hj : j.slot = k) (s : State) : findJournal (putJournal j s) k = j := by
  rw [findJournal_putJournal, if_pos hj.symm]

/-- A journal with entries appended, each numbered from the head. -/
def journalWith (j : Journal) (es : List JEntry) : Journal :=
  es.foldl (fun j e => closeFull { j with entries := j.entries ++ [{ e with pos := j.head }], head := j.head + 1 }) j

theorem appendJ_eq (slot : Nat) (es : List JEntry) (s : State) : appendJ slot es s = putJournal (journalWith (findJournal s slot) es) s := rfl

theorem closeFull_rest (j : Journal) : closeFull j = { j with closed := (closeFull j).closed } := by
  unfold closeFull
  split <;> rfl

/-- Appending changes the head, the entries and the quarters that are closed. -/
theorem journalWith_rest (es : List JEntry) : ∀ j : Journal, journalWith j es =
    { j with head := j.head + es.length, closed := (journalWith j es).closed, entries := (journalWith j es).entries } := by
  induction es with
  | nil => exact fun _ => rfl
  | cons e es ih =>
    intro j
    have hstep : journalWith j (e :: es) =
        journalWith (closeFull { j with entries := j.entries ++ [{ e with pos := j.head }], head := j.head + 1 }) es := rfl
    rw [hstep, ih, closeFull_rest]
    simp only [List.length_cons]
    congr 1
    omega

@[simp] theorem slot_journalWith (j : Journal) (es : List JEntry) : (journalWith j es).slot = j.slot := by rw [journalWith_rest]
@[simp] theorem head_journalWith (j : Journal) (es : List JEntry) : (journalWith j es).head = j.head + es.length := by rw [journalWith_rest]
@[simp] theorem durable_journalWith (j : Journal) (es : List JEntry) : (journalWith j es).durable = j.durable := by rw [journalWith_rest]

theorem entries_prefix_journalWith (es : List JEntry) : ∀ j : Journal, j.entries <+: (journalWith j es).entries := by
  induction es with
  | nil => exact fun _ => List.prefix_rfl
  | cons e es ih =>
    intro j
    have hone : j.entries <+: (closeFull { j with entries := j.entries ++ [{ e with pos := j.head }], head := j.head + 1 }).entries := by
      rw [closeFull_rest]
      exact List.prefix_append _ _
    exact hone.trans (ih _)

/-- Each entry appended stands in the journal, at a position from the old head on. -/
theorem mem_journalWith {e : JEntry} (es : List JEntry) (he : e ∈ es) :
    ∀ j : Journal, ∃ p, j.head ≤ p ∧ { e with pos := p } ∈ (journalWith j es).entries := by
  induction es with
  | nil => exact absurd he List.not_mem_nil
  | cons d es ih =>
    intro j
    let j1 := closeFull { j with entries := j.entries ++ [{ d with pos := j.head }], head := j.head + 1 }
    have hj1 : j1 = { j with entries := j.entries ++ [{ d with pos := j.head }], head := j.head + 1, closed := j1.closed } := closeFull_rest _
    obtain rfl | he := List.mem_cons.mp he
    · refine ⟨j.head, le_rfl, (entries_prefix_journalWith es j1).subset ?_⟩
      rw [hj1]
      simp
    · obtain ⟨p, hp, hmem⟩ := ih he j1
      rw [hj1] at hp
      exact ⟨p, by simp only at hp; omega, hmem⟩

theorem findJournal_appendJ (slot : Nat) (es : List JEntry) (s : State) (k : Nat) :
    findJournal (appendJ slot es s) k = if k = slot then journalWith (findJournal s slot) es else findJournal s k := by
  rw [appendJ_eq, findJournal_putJournal, slot_journalWith, slot_findJournal]

@[simp] theorem findJournal_appendJ_self (slot : Nat) (es : List JEntry) (s : State) :
    findJournal (appendJ slot es s) slot = journalWith (findJournal s slot) es := by
  rw [findJournal_appendJ, if_pos rfl]

theorem findJournal_congr {s t : State} (h : t.map.journals = s.map.journals) (k : Nat) : findJournal t k = findJournal s k := by
  rw [findJournal, findJournal, h]

/-! ### Requests -/

theorem serveMap_of_empty (h : s.map.waiting = []) : serveMap s = s := by rw [serveMap, h]; rfl

theorem not_contains_of_waitsFor {n r : Nat} {w : MapWait} (h : waitsFor s n r = false) (hn : w.nsid = n) (hr : w.r = r) :
    s.map.waiting.contains w = false := by
  rw [waitsFor, List.any_eq_false] at h
  rw [Bool.eq_false_iff]
  intro hmem
  exact h w (List.contains_iff_mem.mp hmem) (by simp [hn, hr])

/-- A request that finds none of its region waiting is tried at once. -/
theorem submitMap_of_first {w : MapWait} (h : waitsFor s w.nsid w.r = false) :
    submitMap w s = if (tryMap w s).1 = true then (tryMap w s).2 else
      { (tryMap w s).2 with map := { (tryMap w s).2.map with waiting := (tryMap w s).2.map.waiting ++ [w] } } := by
  simp only [submitMap, not_contains_of_waitsFor h rfl rfl, h, Bool.false_eq_true, if_false]
  rcases tryMap w s with ⟨b, s1⟩
  cases b <;> rfl

/-- A request that finds others of its region waiting waits behind them. -/
theorem submitMap_of_waiting {w : MapWait} (h : waitsFor s w.nsid w.r = true) (hw : w ∉ s.map.waiting) :
    submitMap w s = { s with map := { s.map with waiting := s.map.waiting ++ [w] } } := by
  simp [submitMap, hw, h]

end Sys2Proof.Machine
end

section
/-!
PROOFS. Forwarded parts, adoption, hand-back, coalescing and the end of a replay (R151, R157 to R159, R161, R163).
-/
namespace Sys2Proof.Machine
open Sys2Proof

variable {s : State} {id n r i slot : Nat} {w : Forward}

/-! ### Forwarded parts (R157, R158) -/

theorem cmd_of_find_unarrived (h : (s.map.forwards.find? fun w => w.cmd == id && !w.arrived) = some w) : w.cmd = id ∧ w.arrived = false := by
  simpa using List.find?_some h

/-- A part that its coordinator sent there before another is still on its way (R22). -/
def passedBy (s : State) (id : Nat) (w : Forward) : Prop :=
  ∃ v, v ∈ s.map.forwards.takeWhile (fun v => !(v.cmd == id)) ∧ v.arrived = false ∧ forwardPath s v = forwardPath s w

theorem any_passedBy : ((s.map.forwards.takeWhile fun v => !(v.cmd == id)).any fun v => !v.arrived && forwardPath s v == forwardPath s w) = true ↔
    passedBy s id w := by simp [passedBy]

/-- The part has arrived. -/
def arrivedNow (id : Nat) (s : State) : State := updForward id (fun w => { w with arrived := true }) s

/-- The request that the arrival of a part makes. -/
def partWait (id : Nat) (w : Forward) : MapWait := { nsid := w.nsid, r := w.region, cls := w.cls, cmd := id, req := .forward id }

theorem forwardReceived_of_blocked (h : (s.map.forwards.find? fun w => w.cmd == id && !w.arrived) = some w) (hb : passedBy s id w) :
    forwardReceived id s = s := by
  simp only [forwardReceived, h]
  exact if_pos (any_passedBy.mpr hb)

theorem forwardReceived_of_free (h : (s.map.forwards.find? fun w => w.cmd == id && !w.arrived) = some w) (hb : ¬passedBy s id w) :
    forwardReceived id s = submitMap (partWait id w) (arrivedNow id s) := by
  simp only [forwardReceived, h]
  exact if_neg fun hany => hb (any_passedBy.mp hany)

theorem mem_updForward {f : Forward → Forward} (hf : ∀ w, (f w).cmd = w.cmd) {x : Forward} (hx : x.cmd ≠ id) :
    x ∈ (updForward id f s).map.forwards ↔ x ∈ s.map.forwards := by
  simp only [updForward, List.mem_map]
  refine ⟨?_, fun h => ⟨x, h, by simp [hx]⟩⟩
  rintro ⟨y, hy, rfl⟩
  by_cases hc : y.cmd = id
  · simp [hc, hf] at hx
  · simpa [hc] using hy

/-- Where one part alone is numbered `id`, it is what is found of the arrived ones. -/
theorem find?_arrivedNow (h : (s.map.forwards.find? fun w => w.cmd == id && !w.arrived) = some w)
    (hone : ∀ v, v ∈ s.map.forwards → v.cmd = id → v = w) (hap : w.applied = false) :
    ((arrivedNow id s).map.forwards.find? fun w => w.cmd == id && w.arrived && !w.applied) = some { w with arrived := true } := by
  have hmem := List.mem_of_find?_eq_some h
  have hid := (cmd_of_find_unarrived h).1
  cases hfind : (arrivedNow id s).map.forwards.find? fun w => w.cmd == id && w.arrived && !w.applied with
  | none =>
    have hno := List.find?_eq_none.mp hfind { w with arrived := true } (List.mem_map.mpr ⟨w, hmem, by simp [hid]⟩)
    simp [hid, hap] at hno
  | some x =>
    have hx := List.mem_of_find?_eq_some hfind
    have hkey : x.cmd = id := by
      have := List.find?_some hfind
      simp only [Bool.and_eq_true, beq_iff_eq] at this
      exact this.1.1
    obtain ⟨y, hy, hyx⟩ := List.mem_map.mp hx
    by_cases hc : y.cmd = id
    · rw [hone y hy hc, if_pos (by simp [hid])] at hyx
      exact congrArg some hyx.symm
    · simp only [beq_iff_eq, hc, if_false] at hyx
      exact absurd (hyx ▸ hkey) hc

/-- The part is applied, as its owner enters it (R158). -/
def appliedNow (id : Nat) (s : State) : State := updForward id (fun w => { w with applied := true }) s

theorem tryForward_of_replay {v : Forward} (hv : (s.map.forwards.find? fun w => w.cmd == id && w.arrived && !w.applied) = some v)
    (hread : v.read = none) (hrep : v.replay = true) (hled : inLedger s v = true) : tryForward id s = (true, appliedNow id s) := by
  simp [tryForward, hv, hread, hrep, hled, appliedNow]

theorem tryForward_of_ready {v : Forward} (hv : (s.map.forwards.find? fun w => w.cmd == id && w.arrived && !w.applied) = some v)
    (hread : v.read = none) (hnew : v.replay = false ∨ inLedger s v = false) (hserved : mapServed s v.nsid v.region = true)
    (hmiss : whereIs s v.nsid v.region ≠ .miss) (hfetch : whereIs s v.nsid v.region ≠ .fetching) (hready : updateReady s v.nsid v.region = true) :
    tryForward id s = (true, markApplied id v.nsid v.region (findJournal s (ownerSlot s v.nsid v.region)).head
      (appliedNow id (enterLedger v (applyPlans v.nsid v.region v.part (pageAt v.nsid v.region v.cls id s).2)))) := by
  have hgo : (v.replay && inLedger s v) = false := by obtain h | h := hnew <;> simp [h]
  simp only [tryForward, hv, hread, hgo, hserved, hready, Bool.false_eq_true, Bool.not_true, if_false]
  cases hw : whereIs s v.nsid v.region with
  | miss => exact absurd hw hmiss
  | fetching => exact absurd hw hfetch
  | l0 => rfl
  | l1 => rfl
  | empty => rfl

/-- The first of several parts numbered `id` that is applied is confirmed: its entries are journalled, the command's update noted. -/
def partDone (w : Forward) (s : State) : State :=
  appendJ (ownerSlot s w.nsid (w.region - 1)) (w.part.map fun p => jentry .forwardDone w.nsid (256 * w.region) 1 zeroSpan p.seq) s

/-- The owner's confirmation of a region in a command's updates. -/
def ownerConfirmed (r : Nat) (c : Cmd) : Cmd :=
  { c with updates := c.updates.map fun u => if u.region == r then { u with ownerOk := true } else u }

theorem forwardConfirm_of_find (h : (s.map.forwards.find? fun w => w.cmd == id && w.applied) = some w) :
    forwardConfirm id s = dropForward id (updCmd id (ownerConfirmed w.region) (partDone w s)) := by
  simp only [forwardConfirm, h]
  rfl

theorem forwardConfirm_of_none (h : ∀ w, w ∈ s.map.forwards → w.cmd = id → w.applied = false) : forwardConfirm id s = s := by
  have hnone : (s.map.forwards.find? fun w => w.cmd == id && w.applied) = none := by
    refine List.find?_eq_none.mpr fun w hw => ?_
    by_cases hc : w.cmd = id
    · simp [h w hw hc]
    · simp [hc]
  simp only [forwardConfirm, hnone]

theorem findCmd_congr {t : State} (h : t.host.cmds = s.host.cmds) (k : Nat) : findCmd t k = findCmd s k := by rw [findCmd, findCmd, h]

theorem forwardConfirm_spec (h : (s.map.forwards.find? fun w => w.cmd == id && w.applied) = some w) :
    Next (.forwardConfirm id) s fun u => u = { s with map := u.map, host := { s.host with cmds := u.host.cmds } } ∧
      (∀ x, x ∈ u.map.forwards ↔ x ∈ s.map.forwards ∧ x.cmd ≠ id) ∧
      (∀ c, findCmd s id = some c → findCmd u id = some { c with updates := c.updates.map fun v =>
        if v.region = w.region then { v with ownerOk := true } else v }) ∧
      (findJournal u (ownerSlot s w.nsid (w.region - 1))).head = (findJournal s (ownerSlot s w.nsid (w.region - 1))).head + w.part.length ∧
      ∀ p, p ∈ w.part → ∃ e, e ∈ (findJournal u (ownerSlot s w.nsid (w.region - 1))).entries ∧ e.type = .forwardDone ∧ e.seq = p.seq := by
  have hjournal : findJournal (dropForward id (updCmd id (ownerConfirmed w.region) (partDone w s))) (ownerSlot s w.nsid (w.region - 1)) =
      journalWith (findJournal s (ownerSlot s w.nsid (w.region - 1)))
        (w.part.map fun p => jentry .forwardDone w.nsid (256 * w.region) 1 zeroSpan p.seq) :=
    findJournal_appendJ_self ..
  refine ⟨_, congrArg Host.Outcome.next (forwardConfirm_of_find h), rfl, fun x => ?_, fun c hc => ?_, ?_, fun p hp => ?_⟩
  · show x ∈ s.map.forwards.filter (fun w => !(w.cmd == id)) ↔ _
    simp
  · have hupd := findCmd_updCmd (f := ownerConfirmed w.region) (fun _ => rfl) (s := partDone w s) (a := id) (b := id)
    have hpart : findCmd (partDone w s) id = findCmd s id := rfl
    rw [if_pos rfl, hpart, hc] at hupd
    refine hupd.trans ?_
    simp [ownerConfirmed]
  · rw [hjournal, head_journalWith, List.length_map]
  · obtain ⟨q, -, hq⟩ := mem_journalWith _ (List.mem_map.mpr ⟨p, hp, rfl⟩) (findJournal s (ownerSlot s w.nsid (w.region - 1)))
    rw [hjournal]
    exact ⟨_, hq, rfl, rfl⟩

theorem forwardTimeout_eq (id : Nat) (s : State) : forwardTimeout id s =
    { s with map := { s.map with forwards := s.map.forwards.map fun w =>
      if w.cmd = id ∧ w.read = none ∧ w.sentMs + 100 ≤ s.nowMs then
        { w with replay := true, arrived := false, applied := false, sentMs := s.nowMs } else w } } := by
  have hmap : (forwardTimeout id s).map.forwards = s.map.forwards.map fun w =>
      if w.cmd = id ∧ w.read = none ∧ w.sentMs + 100 ≤ s.nowMs then
        { w with replay := true, arrived := false, applied := false, sentMs := s.nowMs } else w := by
    refine List.map_congr_left fun w _ => ?_
    by_cases hc : w.cmd = id <;> simp [hc]
  rw [← hmap]
  rfl

/-! ### Adoption and hand-back (R161, R163) -/

theorem endReadOp_of_none {v : OpUse} (h : ∀ o, o ∈ s.media.ops → o.use ≠ v) : endReadOp v s = s := by
  have hnone : (s.media.ops.find? fun o => o.use == v) = none := List.find?_eq_none.mpr fun o ho => by simpa using h o ho
  simp only [endReadOp, hnone]

/-- The directory record is loaded. -/
def recordLoaded (slot n i : Nat) (s : State) : State :=
  { s with map := { s.map with
     dirs := s.map.dirs.map fun d => if d.slot == slot && d.nsid == n && d.index == i then { d with loaded := true } else d } }

/-- A record of a slot is still to be loaded. -/
def openRecords (slot : Nat) (s : State) : Bool := s.map.dirs.any fun d => d.slot == slot && !d.loaded

/-- With the last record the adoption is logged (R163). -/
def adoptLogged (slot : Nat) (s t : State) : State := if openRecords slot s && !openRecords slot t then logEv .mapAdopt slot [slot, 1] t else t

theorem adoptedLoad_of_away (header body : Bytes) (haway : slot ∈ s.map.away)
    (hops : ∀ o, o ∈ s.media.ops → o.use ≠ .dirLoad slot n i) : adoptedLoad slot n i header body s =
      serveMap (adoptLogged slot s (recordLoaded slot n i (if recordPasses 2 n i header body then s else lostDirectory slot n i s))) := by
  have hno : (s.media.ops.any fun o => (o.use == .dirLoad slot n i) && o.state == .waiting) = false := by
    rw [List.any_eq_false]
    intro o ho
    simp [hops o ho]
  have haway' : s.map.away.contains slot = true := by simpa using haway
  simp only [adoptedLoad, haway', hno, Bool.not_true, Bool.or_self, Bool.false_eq_true, if_false, endReadOp_of_none hops]
  rfl

theorem adoptedLoad_of_held (header body : Bytes)
    (h : slot ∉ s.map.away ∨ ∃ o, o ∈ s.media.ops ∧ o.use = .dirLoad slot n i ∧ o.state = .waiting) :
    adoptedLoad slot n i header body s = s := by
  have hgo : (!s.map.away.contains slot || s.media.ops.any fun o => (o.use == .dirLoad slot n i) && o.state == .waiting) = true := by
    obtain haway | ⟨o, ho, huse, hst⟩ := h
    · simp [haway]
    · rw [Bool.or_eq_true]
      exact .inr (List.any_eq_true.mpr ⟨o, ho, by simp [huse, hst]⟩)
  simp only [adoptedLoad, hgo, if_true]

theorem raises_adoptLogged (slot : Nat) (s t : State) : Raises t (adoptLogged slot s t) :=
  iteInduction (motive := Raises t) (fun _ => raises_logEv ..) fun _ => .of_eq rfl

theorem openRecords_recordLoaded (h : ∀ d, d ∈ s.map.dirs → d.slot = slot → d.loaded = false → d.nsid = n ∧ d.index = i) :
    openRecords slot (recordLoaded slot n i s) = false := by
  rw [openRecords, List.any_eq_false]
  intro x hx
  obtain ⟨d, hd, rfl⟩ := List.mem_map.mp hx
  by_cases hk : d.slot = slot
  · cases hl : d.loaded with
    | true => split <;> simp [hl]
    | false =>
      obtain ⟨hn, hi⟩ := h d hd hk hl
      simp [hk, hn, hi]
  · simp [hk]

theorem adoptedLoad_passes {header body : Bytes} (haway : slot ∈ s.map.away) (hops : ∀ o, o ∈ s.media.ops → o.use ≠ .dirLoad slot n i)
    (hwait : s.map.waiting = []) (hpass : recordPasses 2 n i header body = true) :
    Next (.adoptedRecordLoad slot n ⟨i, ⟨header, body⟩⟩) s fun u =>
      u = { s with map := { s.map with dirs := u.map.dirs }, evr := u.evr } ∧
      (u.map.dirs = s.map.dirs.map fun d => if d.slot = slot ∧ d.nsid = n ∧ d.index = i then { d with loaded := true } else d) ∧
      ((∃ d, d ∈ s.map.dirs ∧ d.slot = slot ∧ d.loaded = false) →
        (∀ d, d ∈ s.map.dirs → d.slot = slot → d.loaded = false → d.nsid = n ∧ d.index = i) → Logs .mapAdopt slot [slot, 1] s u) := by
  have hload : adoptedLoad slot n i header body s = adoptLogged slot s (recordLoaded slot n i s) := by
    rw [adoptedLoad_of_away header body haway hops, if_pos hpass]
    refine serveMap_of_empty ?_
    exact iteInduction (motive := fun x : State => x.map.waiting = []) (fun _ => hwait) fun _ => hwait
  have hdirs : (recordLoaded slot n i s).map.dirs =
      s.map.dirs.map fun d => if d.slot = slot ∧ d.nsid = n ∧ d.index = i then { d with loaded := true } else d := by
    simp [recordLoaded, and_assoc]
  refine ⟨_, congrArg Host.Outcome.next hload, ?_, ?_, fun hsome hlast => ?_⟩
  · exact iteInduction (motive := fun u : State => u = { s with map := { s.map with dirs := u.map.dirs }, evr := u.evr })
      (fun _ => rfl) fun _ => rfl
  · refine Eq.trans ?_ hdirs
    exact iteInduction (motive := fun u : State => u.map.dirs = (recordLoaded slot n i s).map.dirs) (fun _ => rfl) fun _ => rfl
  · obtain ⟨d, hd, hslot, hl⟩ := hsome
    have hopen : openRecords slot s = true := List.any_eq_true.mpr ⟨d, hd, by simp [hslot, hl]⟩
    rw [adoptLogged, if_pos (by rw [hopen, openRecords_recordLoaded hlast]; rfl)]
    rfl

/-- A record that cannot be read: MAP_FETCH_FAULT is logged. -/
theorem adoptedLoad_fails {header body : Bytes} (haway : slot ∈ s.map.away) (hops : ∀ o, o ∈ s.media.ops → o.use ≠ .dirLoad slot n i)
    (hwait : s.map.waiting = []) (hfail : recordPasses 2 n i header body = false) :
    Next (.adoptedRecordLoad slot n ⟨i, ⟨header, body⟩⟩) s fun u =>
      { ev := .mapFetchFault, tile := slot, params := [2, n, i % 2 ^ 32] } ∈ u.evr.raised := by
  let t := recordLoaded slot n i (lostDirectory slot n i s)
  have hload : adoptedLoad slot n i header body s = adoptLogged slot s t := by
    rw [adoptedLoad_of_away header body haway hops, hfail, if_neg Bool.false_ne_true]
    refine serveMap_of_empty ?_
    have ht : t.map.waiting = [] := (waiting_lostDirectory slot n i s).trans hwait
    exact iteInduction (motive := fun x : State => x.map.waiting = []) (fun _ => ht) fun _ => ht
  have hlost : Raises (logEv .mapFetchFault slot [2, n, i % 2 ^ 32] s) t := (raises_lostDirectory slot n i s).trans (.of_eq rfl)
  exact ⟨_, congrArg Host.Outcome.next hload, (hlost.trans (raises_adoptLogged slot s t)).subset (mem_raised_logEv ..)⟩

/-- A region of a directory record of a slot. -/
def mineRegion (s : State) (slot n i : Nat) (x : Region) : Bool := ownerSlot s x.nsid x.r == slot && x.nsid == n && dirIndex s x.r == i

/-- A directory record of a slot. -/
def mineRecord (slot n i : Nat) (d : DirRec) : Bool := d.slot == slot && d.nsid == n && d.index == i

/-- A directory record's regions served from L2 again by the slot's own tile. -/
def recordReturned (slot n i : Nat) (s : State) : State :=
  { s with map := { s.map with
    returned := s.map.returned ++ [(slot, n, i)]
    dirs := s.map.dirs.map fun d => if mineRecord slot n i d then { d with loaded := true } else d
    regions := s.map.regions.map fun x => if mineRegion s slot n i x then { x with l0 := none, frame := none } else x } }

/-- Regions or records of a slot are adopted still. -/
def adoptedLeft (slot : Nat) (s : State) : Bool :=
  s.map.regions.any (fun x => ownerSlot s x.nsid x.r == slot && adopted s slot x.nsid (dirIndex s x.r)) ||
    s.map.dirs.any fun d => d.slot == slot && adopted s slot d.nsid d.index

/-- A slot held by its own tile again. -/
def slotReturned (slot : Nat) (s : State) : State :=
  { s with map := { s.map with
      away := s.map.away.filter fun t => t != slot, handBack := s.map.handBack.filter fun t => t != slot
      returned := s.map.returned.filter fun x => x.1 != slot } }

/-- What keeps a record from being handed back. -/
def handBackHeld (slot n i : Nat) (s : State) : Bool :=
  !adopted s slot n i || !s.map.handBack.contains slot ||
    s.map.regions.any (fun x => mineRegion s slot n i x && (x.dirty.isSome || x.fetching.isSome || x.wb.isSome)) ||
    s.map.dirs.any fun d => mineRecord slot n i d && (d.dirty.isSome || d.wb.isSome)

/-- The state once a record is handed back, the last of its slot with the slot. -/
def afterReturn (slot n i : Nat) (s : State) : State :=
  if adoptedLeft slot (recordReturned slot n i s) then recordReturned slot n i s else slotReturned slot (recordReturned slot n i s)

theorem handBack_eq (slot n i : Nat) (s : State) : handBack slot n i s = if handBackHeld slot n i s then s else serveMap (afterReturn slot n i s) := rfl

theorem onlyReturned_afterReturn (slot n i : Nat) (s : State) : afterReturn slot n i s =
    { s with map := { s.map with
      dirs := (afterReturn slot n i s).map.dirs, regions := (afterReturn slot n i s).map.regions, away := (afterReturn slot n i s).map.away
      handBack := (afterReturn slot n i s).map.handBack, returned := (afterReturn slot n i s).map.returned } } :=
  iteInduction (motive := fun u : State => u = { s with map := { s.map with
    dirs := u.map.dirs, regions := u.map.regions, away := u.map.away, handBack := u.map.handBack, returned := u.map.returned } })
    (fun _ => rfl) fun _ => rfl

theorem adopted_recordReturned (m k : Nat) : adopted (recordReturned slot n i s) slot m k = true ↔
    slot ∈ s.map.away ∧ (slot, m, k) ∉ s.map.returned ∧ (m ≠ n ∨ k ≠ i) := by
  simp [adopted, recordReturned]

theorem adopted_afterReturn (slot n i : Nat) (s : State) : adopted (afterReturn slot n i s) slot n i = false := by
  refine iteInduction (motive := fun u : State => adopted u slot n i = false) (fun _ => ?_) fun _ => ?_
  · rw [Bool.eq_false_iff]
    simp [adopted_recordReturned]
  · simp [adopted, slotReturned]

theorem regions_afterReturn (slot n i : Nat) (s : State) : (afterReturn slot n i s).map.regions =
    s.map.regions.map fun x => if mineRegion s slot n i x then { x with l0 := none, frame := none } else x :=
  iteInduction (motive := fun u : State => u.map.regions = s.map.regions.map fun x =>
    if mineRegion s slot n i x then { x with l0 := none, frame := none } else x) (fun _ => rfl) fun _ => rfl

theorem mineRegion_iff {x : Region} : mineRegion s slot n i x = true ↔ ownerSlot s x.nsid x.r = slot ∧ x.nsid = n ∧ dirIndex s x.r = i := by
  simp [mineRegion, and_assoc]

theorem mineRecord_iff {d : DirRec} : mineRecord slot n i d = true ↔ d.slot = slot ∧ d.nsid = n ∧ d.index = i := by
  simp [mineRecord, and_assoc]

/-- The pages of a record that is handed back are in neither level. -/
theorem levels_afterReturn {x : Region} (hx : x ∈ (afterReturn slot n i s).map.regions)
    (hmine : ownerSlot s x.nsid x.r = slot ∧ x.nsid = n ∧ dirIndex s x.r = i) : x.l0 = none ∧ x.frame = none := by
  rw [regions_afterReturn] at hx
  obtain ⟨y, -, rfl⟩ := List.mem_map.mp hx
  by_cases hy : mineRegion s slot n i y = true
  · rw [if_pos hy]
    exact ⟨rfl, rfl⟩
  · rw [if_neg hy] at hmine
    exact absurd (mineRegion_iff.mpr hmine) hy

/-- Nothing of the slot is adopted still: its last record goes back. -/
theorem adoptedLeft_eq_false
    (hregions : ∀ x, x ∈ s.map.regions → ownerSlot s x.nsid x.r = slot →
      (ownerSlot s x.nsid x.r = slot ∧ x.nsid = n ∧ dirIndex s x.r = i) ∨ (slot, x.nsid, dirIndex s x.r) ∈ s.map.returned)
    (hdirs : ∀ d, d ∈ s.map.dirs → d.slot = slot → (d.nsid = n ∧ d.index = i) ∨ (slot, d.nsid, d.index) ∈ s.map.returned) :
    adoptedLeft slot (recordReturned slot n i s) = false := by
  rw [adoptedLeft, Bool.or_eq_false_iff, List.any_eq_false, List.any_eq_false]
  refine ⟨fun y hy hleft => ?_, fun e he hleft => ?_⟩
  · obtain ⟨x, hx, hxy⟩ := List.mem_map.mp hy
    have hkey : y.nsid = x.nsid ∧ y.r = x.r := by
      rw [← hxy]
      split <;> exact ⟨rfl, rfl⟩
    rw [Bool.and_eq_true, beq_iff_eq, hkey.1, hkey.2, adopted_recordReturned] at hleft
    obtain ⟨hown, -, hnot, hother⟩ := hleft
    obtain ⟨-, hn, hi⟩ | hret := hregions x hx hown
    · exact hother.elim (fun h => h hn) fun h => h hi
    · exact hnot hret
  · obtain ⟨d, hd, hde⟩ := List.mem_map.mp he
    have hkey : e.slot = d.slot ∧ e.nsid = d.nsid ∧ e.index = d.index := by
      rw [← hde]
      split <;> exact ⟨rfl, rfl, rfl⟩
    rw [Bool.and_eq_true, beq_iff_eq, hkey.1, hkey.2.1, hkey.2.2, adopted_recordReturned] at hleft
    obtain ⟨hown, -, hnot, hother⟩ := hleft
    obtain ⟨hn, hi⟩ | hret := hdirs d hd hown
    · exact hother.elim (fun h => h hn) fun h => h hi
    · exact hnot hret

/-- A record of the slot that is not handed back keeps the slot adopted. -/
theorem adoptedLeft_eq_true {d : DirRec} (haway : slot ∈ s.map.away) (hd : d ∈ s.map.dirs) (hslot : d.slot = slot)
    (hother : d.nsid ≠ n ∨ d.index ≠ i) (hnot : (slot, d.nsid, d.index) ∉ s.map.returned) :
    adoptedLeft slot (recordReturned slot n i s) = true := by
  rw [adoptedLeft, Bool.or_eq_true]
  have hmine : ¬(mineRecord slot n i d = true) := fun h => by
    obtain ⟨-, hn, hi⟩ := mineRecord_iff.mp h
    exact hother.elim (fun h => h hn) fun h => h hi
  refine .inr (List.any_eq_true.mpr ⟨d, List.mem_map.mpr ⟨d, hd, if_neg hmine⟩, ?_⟩)
  rw [Bool.and_eq_true, beq_iff_eq]
  exact ⟨hslot, adopted_recordReturned _ _ |>.mpr ⟨haway, hnot, hother⟩⟩

theorem away_of_adopted (h : adopted s slot n i = true) : slot ∈ s.map.away := by
  rw [adopted, Bool.and_eq_true] at h
  exact List.contains_iff_mem.mp h.1

theorem handBackHeld_eq_false (had : adopted s slot n i = true) (hback : slot ∈ s.map.handBack)
    (hregions : ∀ x, x ∈ s.map.regions → (ownerSlot s x.nsid x.r = slot ∧ x.nsid = n ∧ dirIndex s x.r = i) →
      x.dirty = none ∧ x.fetching = none ∧ x.wb = none)
    (hdirs : ∀ d, d ∈ s.map.dirs → d.slot = slot → d.nsid = n → d.index = i → d.dirty = none ∧ d.wb = none) :
    handBackHeld slot n i s = false := by
  have hr : s.map.regions.any (fun x => mineRegion s slot n i x && (x.dirty.isSome || x.fetching.isSome || x.wb.isSome)) = false := by
    rw [List.any_eq_false]
    intro x hx hm
    rw [Bool.and_eq_true] at hm
    obtain ⟨h1, h2, h3⟩ := hregions x hx (mineRegion_iff.mp hm.1)
    simp [h1, h2, h3] at hm
  have hd : s.map.dirs.any (fun d => mineRecord slot n i d && (d.dirty.isSome || d.wb.isSome)) = false := by
    rw [List.any_eq_false]
    intro d hd hm
    rw [Bool.and_eq_true] at hm
    obtain ⟨hs, hn, hi⟩ := mineRecord_iff.mp hm.1
    obtain ⟨h1, h2⟩ := hdirs d hd hs hn hi
    simp [h1, h2] at hm
  simp [handBackHeld, had, hback, hr, hd]

theorem handBackHeld_eq_true
    (h : adopted s slot n i = false ∨ slot ∉ s.map.handBack ∨
      (∃ x, x ∈ s.map.regions ∧ (ownerSlot s x.nsid x.r = slot ∧ x.nsid = n ∧ dirIndex s x.r = i) ∧ x.dirty.isSome = true) ∨
      ∃ d, d ∈ s.map.dirs ∧ d.slot = slot ∧ d.nsid = n ∧ d.index = i ∧ d.dirty.isSome = true) : handBackHeld slot n i s = true := by
  simp only [handBackHeld, Bool.or_eq_true, List.any_eq_true]
  obtain had | hback | ⟨x, hx, hmine, hdirty⟩ | ⟨d, hd, hs, hn, hi, hdirty⟩ := h
  · exact .inl (.inl (.inl (by simp [had])))
  · exact .inl (.inl (.inr (by simpa using hback)))
  · exact .inl (.inr ⟨x, hx, by simp [mineRegion_iff.mpr hmine, hdirty]⟩)
  · exact .inr ⟨d, hd, by simp [mineRecord_iff.mpr ⟨hs, hn, hi⟩, hdirty]⟩

/-- What a hand-back leaves, where nothing keeps it. -/
theorem slotHandBack_spec (had : adopted s slot n i = true) (hwait : s.map.waiting = []) (hgo : handBackHeld slot n i s = false) :
    Next (.slotHandBack slot n i) s fun u =>
      u = { s with map := { s.map with dirs := u.map.dirs, regions := u.map.regions, away := u.map.away,
                                       handBack := u.map.handBack, returned := u.map.returned } } ∧
      adopted u slot n i = false ∧
      (∀ x, x ∈ u.map.regions → (ownerSlot s x.nsid x.r = slot ∧ x.nsid = n ∧ dirIndex s x.r = i) → x.l0 = none ∧ x.frame = none) ∧
      ((∀ x, x ∈ s.map.regions → ownerSlot s x.nsid x.r = slot →
          (ownerSlot s x.nsid x.r = slot ∧ x.nsid = n ∧ dirIndex s x.r = i) ∨ (slot, x.nsid, dirIndex s x.r) ∈ s.map.returned) →
        (∀ d, d ∈ s.map.dirs → d.slot = slot → (d.nsid = n ∧ d.index = i) ∨ (slot, d.nsid, d.index) ∈ s.map.returned) →
        slot ∉ u.map.away ∧ slot ∉ u.map.handBack) ∧
      ((∃ d, d ∈ s.map.dirs ∧ d.slot = slot ∧ (d.nsid ≠ n ∨ d.index ≠ i) ∧ (slot, d.nsid, d.index) ∉ s.map.returned) →
        u.map.away = s.map.away ∧ u.map.handBack = s.map.handBack) := by
  have hafter : (afterReturn slot n i s).map.waiting = [] := by rw [onlyReturned_afterReturn, ← hwait]
  have hgo' : handBack slot n i s = afterReturn slot n i s := by
    rw [handBack_eq, hgo, if_neg Bool.false_ne_true, serveMap_of_empty hafter]
  refine ⟨_, congrArg Host.Outcome.next hgo', onlyReturned_afterReturn slot n i s, adopted_afterReturn slot n i s,
    fun x hx hmine => levels_afterReturn hx hmine, fun hregions hdirs => ?_, ?_⟩
  · rw [afterReturn, adoptedLeft_eq_false hregions hdirs, if_neg Bool.false_ne_true]
    simp [slotReturned]
  · rintro ⟨d, hd, hs, hother, hnot⟩
    rw [afterReturn, adoptedLeft_eq_true (away_of_adopted had) hd hs hother hnot, if_pos rfl]
    exact ⟨rfl, rfl⟩

/-! ### Coalescing (R151) -/

/-- A full extent of the RELOCATE stream, made of extents that live spans of a region point at. -/
def Rewritten (s : State) (n : Nat) (x : Region) (e : Ext) : Prop :=
  e.stream = .relocate ∧ 2 ≤ e.parts.length ∧
    ∀ p, p ∈ e.parts → ∃ y, y ∈ x.spans ∧ y.zero = false ∧ stale s n y = false ∧ p = (y.addr, y.seqLo)

/-- From `s` to `t` the placement engine alone changed, and what is new of the extents is rewritten from a region. -/
def Coalesced (n : Nat) (x : Region) (s t : State) : Prop :=
  t = { s with wr := t.wr } ∧ s.wr.exts <+: t.wr.exts ∧ ∀ e, e ∈ t.wr.exts → e ∉ s.wr.exts → Rewritten s n x e

theorem Coalesced.refl (n : Nat) (x : Region) (s : State) : Coalesced n x s s := ⟨rfl, List.prefix_rfl, fun _ h hn => absurd h hn⟩

theorem stale_congr {t : State} (h : t = { s with wr := t.wr }) (n : Nat) (y : Span) : stale t n y = stale s n y := by
  rw [h]
  rfl

theorem Coalesced.trans {x : Region} {t u : State} (h : Coalesced n x s t) (k : Coalesced n x t u) : Coalesced n x s u := by
  obtain ⟨hst, hpre, hnew⟩ := h
  obtain ⟨htu, hpre', hnew'⟩ := k
  refine ⟨Eq.trans htu (congrArg (fun y : State => { y with wr := u.wr }) hst), hpre.trans hpre', fun e he hn => ?_⟩
  by_cases ht : e ∈ t.wr.exts
  · exact hnew e ht hn
  · obtain ⟨hstream, hlen, hparts⟩ := hnew' e he ht
    refine ⟨hstream, hlen, fun p hp => ?_⟩
    obtain ⟨y, hy, hz, hstale, hpy⟩ := hparts p hp
    exact ⟨y, hy, hz, (stale_congr hst n y).symm.trans hstale, hpy⟩

theorem takeSeqs_rest {t k : Nat} {qs : List Nat} {u : State} (h : takeSeqs t k s = some (qs, u)) :
    u = { s with wr := u.wr } ∧ u.wr.exts = s.wr.exts := by
  unfold takeSeqs at h
  extract_lets l cur all l' at h
  by_cases hlen : all.length < k
  · rw [if_pos hlen] at h
    cases h
  · rw [if_neg hlen] at h
    cases h
    exact ⟨rfl, rfl⟩

theorem withWr_of_rest {t : State} (h : t = { s with wr := t.wr }) (x : WriteState) : ({ t with wr := x } : State) = { s with wr := x } := by
  rw [h]

/-- What a block's data stands in is where its span points. -/
theorem blockData_place {y : Span} {b : Nat} {z : Bytes × (Nat × Nat)} (h : blockData s n y b = some z) : z.2 = (y.addr, y.seqLo) := by
  unfold blockData at h
  extract_lets k plain at h
  obtain ⟨d, -, rfl⟩ := Option.map_eq_some_iff.mp h
  rfl

/-- The live spans of a region. -/
def liveSpans (s : State) (n : Nat) (x : Region) : List Span := x.spans.filter fun y => !y.zero && !stale s n y

/-- The data of a run's blocks, each with the extent that it stands in. -/
def runData (s : State) (n lo k : Nat) (x : Region) : List (Bytes × (Nat × Nat)) :=
  (List.range k).filterMap fun i =>
    ((liveSpans s n x).find? fun y => decide (y.off ≤ lo + i) && decide (lo + i < y.last)).bind fun y => blockData s n y (lo + i)

/-- The extents that a run's data stands in. -/
def runSources (s : State) (n lo k : Nat) (x : Region) : List (Nat × Nat) := ((runData s n lo k x).map (·.2)).eraseDups

theorem mem_runSources {lo k : Nat} {x : Region} {p : Nat × Nat} (h : p ∈ runSources s n lo k x) :
    ∃ y, y ∈ x.spans ∧ y.zero = false ∧ stale s n y = false ∧ p = (y.addr, y.seqLo) := by
  obtain ⟨z, hz, rfl⟩ := List.mem_map.mp (List.mem_eraseDups.mp h)
  obtain ⟨j, -, hj⟩ := List.mem_filterMap.mp hz
  obtain ⟨y, hy, hdata⟩ := Option.bind_eq_some_iff.mp hj
  have hmem := List.mem_of_find?_eq_some hy
  simp only [liveSpans, List.mem_filter, Bool.and_eq_true, Bool.not_eq_true'] at hmem
  obtain ⟨hspan, hzero, hstale⟩ := hmem
  exact ⟨y, hspan, hzero, hstale, blockData_place hdata⟩

theorem coalesced_coalesceRun {x : Region} (hx : findRegion s n r = some x) (lo k : Nat) : Coalesced n x s (coalesceRun n r lo k s) := by
  cases hns : nsOf s n with
  | none => simpa only [coalesceRun, hx, hns] using Coalesced.refl n x s
  | some ns =>
    simp only [coalesceRun, hx, hns]
    refine iteInduction (motive := Coalesced n x s) (fun _ => .refl n x s) fun hgo => ?_
    have hmany : 2 ≤ (runSources s n lo k x).length := by
      by_contra hlt
      exact hgo (by
        rw [Bool.or_eq_true]
        exact .inr (decide_eq_true (Nat.le_of_lt_succ (Nat.not_le.mp hlt))))
    split
    · exact .refl n x s
    · next qs s1 htake =>
      obtain ⟨hrest, hexts⟩ := takeSeqs_rest htake
      refine ⟨withWr_of_rest hrest _, ?_, fun e he hn => ?_⟩
      · rw [← hexts]
        exact List.prefix_append _ _
      · obtain he | he := List.mem_append.mp he
        · exact absurd (hexts ▸ he) hn
        · obtain ⟨y, -, rfl⟩ := List.mem_map.mp he
          exact ⟨rfl, hmany, fun p hp => mem_runSources hp⟩

theorem coalesced_foldl {x : Region} : ∀ (l : List (Nat × Nat)) (s : State), findRegion s n r = some x →
    Coalesced n x s (l.foldl (fun s k => coalesceRun n r k.1 k.2 s) s)
  | [], s, _ => .refl n x s
  | k :: l, s, hx =>
    have hone := coalesced_coalesceRun hx k.1 k.2
    hone.trans (coalesced_foldl l _ (by rw [hone.1]; exact hx))

theorem regionCoalesce_of_marked {x : Region} (hx : findRegion s n r = some x) (hm : x.marked = true) :
    Next (.regionCoalesce n r) s fun u => u = { s with map := { s.map with regions := u.map.regions }, wr := u.wr } ∧
      findRegion u n r = some { x with marked := false } ∧ s.wr.exts <+: u.wr.exts ∧
      ∀ e, e ∈ u.wr.exts → e ∉ s.wr.exts → e.stream = .relocate ∧ 2 ≤ e.parts.length ∧
        ∀ p, p ∈ e.parts → ∃ y, y ∈ x.spans ∧ y.zero = false ∧ stale s n y = false ∧ p = (y.addr, y.seqLo) := by
  have hfind : findRegion (putRegion { x with marked := false } s) n r = some { x with marked := false } :=
    findRegion_putRegion_self (x := { x with marked := false }) (show x.nsid = n from nsid_of_findRegion hx) (show x.r = r from r_of_findRegion hx) s
  have hgo : coalesce n r s = (dataRuns s n x).foldl (fun s k => coalesceRun n r k.1 k.2 s) (putRegion { x with marked := false } s) := by
    simp [coalesce, hx, hm]
  obtain ⟨hrest, hpre, hnew⟩ := coalesced_foldl (dataRuns s n x) _ hfind
  refine ⟨_, congrArg Host.Outcome.next hgo, ?_, ?_, hpre, fun e he hn => hnew e he hn⟩
  · rw [hrest]
    rfl
  · rw [hrest]
    exact hfind

/-! ### The end of a replay (R159) -/

/-- A slot whose replay is complete. -/
def replayed (slot : Nat) (s : State) : State :=
  { s with
    map := { s.map with replaying := s.map.replaying.filter fun t => t != slot }
    rcl := { s.rcl with censusDone :=
      if (s.map.replaying.filter fun t => t != slot).isEmpty && s.rcl.toCensus.isEmpty then s.red.groups.map (·.sg) else s.rcl.censusDone } }

theorem mapReplayDone_spec (slot : Nat) (hwait : s.map.waiting = []) : Next (.mapReplayDone slot) s fun u =>
    u = { s with map := { s.map with replaying := u.map.replaying }, rcl := { s.rcl with censusDone := u.rcl.censusDone } } ∧
    (∀ k, k ∈ u.map.replaying ↔ k ∈ s.map.replaying ∧ k ≠ slot) ∧
    (u.map.replaying = [] → s.rcl.toCensus = [] → u.rcl.censusDone = s.red.groups.map (·.sg)) ∧
    (u.map.replaying ≠ [] ∨ s.rcl.toCensus ≠ [] → u.rcl.censusDone = s.rcl.censusDone) := by
  refine ⟨_, congrArg Host.Outcome.next (serveMap_of_empty (s := replayed slot s) hwait), rfl, fun k => ?_, fun hleft hcensus => ?_, fun h => ?_⟩
  · simp [replayed]
  · refine if_pos ?_
    have hleft' : (s.map.replaying.filter fun t => t != slot) = [] := hleft
    simp [hleft', hcensus]
  · refine if_neg ?_
    rw [Bool.and_eq_true, List.isEmpty_iff, List.isEmpty_iff]
    rintro ⟨hleft, hcensus⟩
    exact h.elim (fun hn => hn hleft) fun hn => hn hcensus

/-- Settles O46, clause by clause: each step of the forwarding, adoption and coalescing of map slots by its equation. -/
theorem forwardingAndAdoption : Obligations.ForwardingAndAdoption := by
  unfold Obligations.ForwardingAndAdoption
  refine ⟨fun id w s hw => ⟨fun hb => ⟨_, congrArg Host.Outcome.next (forwardReceived_of_blocked hw hb), rfl⟩,
      fun hb => ⟨_, congrArg Host.Outcome.next (forwardReceived_of_free hw hb), rfl⟩, fun hb hone hap hread hfirst => ?_⟩,
    fun id s h => ⟨_, congrArg Host.Outcome.next ?_, rfl⟩, fun id w s hw => forwardConfirm_spec hw,
    fun id s h => ⟨_, congrArg Host.Outcome.next (forwardConfirm_of_none h), rfl⟩, fun id s => ⟨_, rfl, ?_⟩,
    fun slot n i header body s => ⟨fun h => ⟨_, congrArg Host.Outcome.next (adoptedLoad_of_held header body h), rfl⟩,
      fun haway hops hwait => ⟨fun hpass => adoptedLoad_passes haway hops hwait hpass, fun hfail => ?_⟩⟩,
    fun slot n i s => ⟨fun had hback hwait hregions hdirs => slotHandBack_spec had hwait (handBackHeld_eq_false had hback hregions hdirs),
      fun h => ⟨_, congrArg Host.Outcome.next ?_, rfl⟩⟩,
    fun n r x s hx => ⟨fun hm => regionCoalesce_of_marked hx hm, fun hm => ⟨s, ?_, rfl⟩⟩,
    fun slot s hwait => mapReplayDone_spec slot hwait⟩
  · have hfind := find?_arrivedNow hw hone hap
    have hsubmit : forwardReceived id s = if (tryMap (partWait id w) (arrivedNow id s)).1 = true then (tryMap (partWait id w) (arrivedNow id s)).2 else
        { (tryMap (partWait id w) (arrivedNow id s)).2 with map := { (tryMap (partWait id w) (arrivedNow id s)).2.map with
          waiting := (tryMap (partWait id w) (arrivedNow id s)).2.map.waiting ++ [partWait id w] } } :=
      (forwardReceived_of_free hw hb).trans (submitMap_of_first hfirst)
    refine ⟨fun hrep hled => ?_, fun hnew hserved hmiss hfetch hready => ?_⟩
    · have htry : tryMap (partWait id w) (arrivedNow id s) = (true, appliedNow id (arrivedNow id s)) :=
        tryForward_of_replay hfind hread hrep hled
      rw [htry, if_pos rfl] at hsubmit
      refine ⟨_, congrArg Host.Outcome.next hsubmit, rfl, fun x hx hid => ?_, fun x hx => ?_⟩
      · obtain ⟨y, hy, rfl⟩ := List.mem_map.mp hx
        obtain ⟨v, hv, rfl⟩ := List.mem_map.mp hy
        by_cases hc : v.cmd = id
        · simp [hone v hv hc, (cmd_of_find_unarrived hw).1]
        · simp [hc] at hid
      · exact (mem_updForward (f := fun w => { w with applied := true }) (s := arrivedNow id s) (fun _ => rfl) hx).trans
          (mem_updForward (f := fun w => { w with arrived := true }) (fun _ => rfl) hx)
    · have htry : tryMap (partWait id w) (arrivedNow id s) = _ := tryForward_of_ready hfind hread hnew hserved hmiss hfetch hready
      rw [htry, if_pos rfl] at hsubmit
      exact ⟨_, congrArg Host.Outcome.next hsubmit, rfl⟩
  · have hnone : (s.map.forwards.find? fun w => w.cmd == id && !w.arrived) = none := by
      refine List.find?_eq_none.mpr fun w hw => ?_
      by_cases hc : w.cmd = id
      · simp [h w hw hc]
      · simp [hc]
    simp only [forwardReceived, hnone]
  · exact forwardTimeout_eq id s
  · exact adoptedLoad_fails haway hops hwait (Bool.eq_false_iff.mpr (by rw [hfail]; exact Bool.false_ne_true))
  · rw [handBack_eq, if_pos (handBackHeld_eq_true h)]
  · exact congrArg Host.Outcome.next (by simp [coalesce, hx, hm])

end Sys2Proof.Machine
end

section
/-!
PROOFS. Updates of the span map (R137, R151 to R157, R184, R201): a command's part in one region, a relocation, and the confirmations that
end a command.
-/
namespace Sys2Proof.Machine
open Sys2Proof

variable {s : State} {id n r : Nat} {c : Cmd}

/-! ### What a fetch touches -/

/-- From `s` to `t` nothing but registers, the map's regions and clock hands and the die scheduler changed. -/
def OnlyFetch (s t : State) : Prop :=
  t = { s with regs := t.regs, map := { s.map with regions := t.map.regions, hands := t.map.hands }
               media := { s.media with ops := t.media.ops, nextOp := t.media.nextOp, dies := t.media.dies } }

theorem OnlyFetch.refl (s : State) : OnlyFetch s s := rfl

theorem OnlyFetch.trans {s t u : State} (h : OnlyFetch s t) (k : OnlyFetch t u) : OnlyFetch s u :=
  Eq.trans k (congrArg (fun x : State => { x with
    regs := u.regs, map := { x.map with regions := u.map.regions, hands := u.map.hands }
    media := { x.media with ops := u.media.ops, nextOp := u.media.nextOp, dies := u.media.dies } }) h)

theorem OnlyPaging.onlyFetch {s t : State} (h : OnlyPaging s t) : OnlyFetch s t := by
  rw [h]
  rfl

theorem OnlyDies.onlyFetch {s t : State} (h : OnlyDies s t) : OnlyFetch s t := by
  rw [h]
  rfl

/-- The region's page is on its way: its frame is taken, its fetch counted and marked. -/
def fetchMarked (n r : Nat) (c : PClass) (kept : Bool) (s : State) : State :=
  putRegion { getRegion (takeFrame n r s) n r with fetching := some c, kept := kept }
    (bump (ownerTile s n r) .map_l2_fetches_count (takeFrame n r s))

/-- The read of a region's record. -/
def recordRead (n r : Nat) (c : PClass) (cmd : Nat) (l : L2Rec) : DieOp :=
  { blankOp .read c (dieOf l.addr) with use := .mapFetch n r, cmd := cmd, addr := l.addr, words := wordsOf l.addr l.len }

/-- The read of the record that a region may have goes to its die. -/
def recordFetched (n r : Nat) (c : PClass) (cmd : Nat) (l2 : Option L2Rec) (s : State) : State :=
  match l2 with
  | some l => if dieServes s (dieOf l.addr) then addOp (recordRead n r c cmd l) s else s
  | none => s

theorem startFetch_of_room {x : Region} {kept : Bool} (cls : PClass) (cmd : Nat) (hx : findRegion s n r = some x) (hf : x.fetching = none)
    (hplace : placeFor s (ownerTile s n r) cls = some kept) (hframe : frameAt s (ownerTile s n r) = true) :
    startFetch n r cls cmd s = recordFetched n r cls cmd x.l2 (fetchMarked n r cls kept s) := by
  simp only [startFetch, hx, hplace, hf, hframe, Option.isSome_none, Bool.not_true, Bool.or_self, Bool.false_eq_true, if_false]
  rfl

theorem startFetch_of_none (cls : PClass) (cmd : Nat)
    (h : placeFor s (ownerTile s n r) cls = none ∨ frameAt s (ownerTile s n r) = false ∨ findRegion s n r = none ∨
      ∃ x, findRegion s n r = some x ∧ x.fetching.isSome = true) : startFetch n r cls cmd s = s := by
  unfold startFetch
  dsimp only
  split
  · next x k hx hk =>
    obtain h | h | h | ⟨y, hy, hf⟩ := h
    · simp [h] at hk
    · simp [h]
    · simp [h] at hx
    · rw [hy] at hx
      cases hx
      simp [hf]
  · rfl

theorem onlyFetch_fetchMarked (n r : Nat) (c : PClass) (kept : Bool) (s : State) : OnlyFetch s (fetchMarked n r c kept s) := by
  have hbump : OnlyFetch (takeFrame n r s) (bump (ownerTile s n r) .map_l2_fetches_count (takeFrame n r s)) := rfl
  exact ((onlyPaging_takeFrame n r s).onlyFetch.trans hbump).trans (onlyPaging_putRegion _ _).onlyFetch

theorem onlyFetch_recordFetched (n r : Nat) (c : PClass) (cmd : Nat) (l2 : Option L2Rec) (s : State) :
    OnlyFetch s (recordFetched n r c cmd l2 s) := by
  cases l2 with
  | none => exact .refl s
  | some l => exact iteInduction (motive := OnlyFetch s) (fun _ => (onlyDies_addOp _ s).onlyFetch) fun _ => .refl s

theorem onlyFetch_startFetch (n r : Nat) (c : PClass) (cmd : Nat) (s : State) : OnlyFetch s (startFetch n r c cmd s) := by
  by_cases h : placeFor s (ownerTile s n r) c = none ∨ frameAt s (ownerTile s n r) = false ∨ findRegion s n r = none ∨
      ∃ x, findRegion s n r = some x ∧ x.fetching.isSome = true
  · rw [startFetch_of_none c cmd h]
    exact .refl s
  · simp only [not_or, not_exists, not_and, Bool.not_eq_true, Option.isSome_eq_false_iff, Option.isNone_iff_eq_none, Bool.not_eq_false] at h
    obtain ⟨hplace, hframe, hsome, hfetch⟩ := h
    obtain ⟨x, hx⟩ := Option.ne_none_iff_exists'.mp hsome
    obtain ⟨kept, hkept⟩ := Option.ne_none_iff_exists'.mp hplace
    rw [startFetch_of_room c cmd hx (hfetch x hx) hkept hframe]
    exact (onlyFetch_fetchMarked ..).trans (onlyFetch_recordFetched ..)

/-! ### The update of a command in one region -/

/-- The request that a command's update of a region makes. -/
def updateWait (id r : Nat) (c : Cmd) : MapWait := { nsid := c.cap.nsid, r := r, cls := c.cls, cmd := id, req := .update id r }

theorem updateCommand_of_due (hc : findCmd s id = some c) (hdue : updateDue c r = true)
    (hfirst : ∀ u, u ∈ c.updates → u.region + 1 = r → forwardedRegion c u.region = none) :
    updateCommand id r s = submitMap (updateWait id r c) s := by
  have hno : (c.updates.any fun u => u.region + 1 == r && (forwardedRegion c u.region).isSome) = false := by
    rw [List.any_eq_false]
    intro u hu h
    rw [Bool.and_eq_true, beq_iff_eq] at h
    simp [hfirst u hu h.1] at h
  simp only [updateCommand, hc, hdue, hno, Bool.not_true, Bool.or_self, Bool.false_eq_true, if_false]
  rfl

theorem updateCommand_of_none (h : ∀ c, findCmd s id = some c → updateDue c r = false ∨
    ∃ v, v ∈ c.updates ∧ v.region + 1 = r ∧ (forwardedRegion c v.region).isSome = true) : updateCommand id r s = s := by
  cases hc : findCmd s id with
  | none => simp only [updateCommand, hc]
  | some c =>
    have hgo : (!updateDue c r || c.updates.any fun u => u.region + 1 == r && (forwardedRegion c u.region).isSome) = true := by
      obtain hdue | ⟨v, hv, hr, hf⟩ := h c hc
      · simp [hdue]
      · rw [Bool.or_eq_true]
        exact .inr (List.any_eq_true.mpr ⟨v, hv, by simp [hr, hf]⟩)
    simp only [updateCommand, hc, hgo, if_true]

/-- The part of a command in the second region goes to its owner (R157). -/
def restForwarded (c : Cmd) (r : Nat) (s : State) : State :=
  match forwardedRegion c r with
  | some r2 => sendForward c r r2 s
  | none => s

theorem restForwarded_of_none (h : forwardedRegion c r = none) (s : State) : restForwarded c r s = s := by rw [restForwarded, h]

theorem restForwarded_of_some {r2 : Nat} (h : forwardedRegion c r = some r2) (s : State) : restForwarded c r s = sendForward c r r2 s := by
  rw [restForwarded, h]

section tries
variable (hc : findCmd s id = some c) (hdue : updateDue c r = true)
include hc hdue

theorem tryUpdate_of_unserved (h : mapServed s c.cap.nsid r = false) : tryUpdate id r s = (false, useDir c.cap.nsid r c.cls id s) := by
  simp [tryUpdate, hc, hdue, h]

theorem tryUpdate_of_absent (h : mapServed s c.cap.nsid r = true) (hw : whereIs s c.cap.nsid r = .miss ∨ whereIs s c.cap.nsid r = .fetching) :
    tryUpdate id r s = (false, startFetch c.cap.nsid r c.cls id s) := by
  obtain hw | hw := hw <;> simp [tryUpdate, hc, hdue, h, hw]

/-- A page at hand: the update waits until it can be made. -/
theorem tryUpdate_of_present (h : mapServed s c.cap.nsid r = true) (hmiss : whereIs s c.cap.nsid r ≠ .miss)
    (hfetch : whereIs s c.cap.nsid r ≠ .fetching) : tryUpdate id r s = if !updateReady s c.cap.nsid r then (false, s) else
      (true, markApplied id c.cap.nsid r (findJournal s (ownerSlot s c.cap.nsid r)).head
        (restForwarded c r (applyPlans c.cap.nsid r c.plan (pageAt c.cap.nsid r c.cls id s).2))) := by
  unfold tryUpdate
  rw [hc]
  dsimp only
  rw [if_neg (by simp [hdue]), if_neg (by simp [h])]
  split
  · next hw => exact absurd hw hmiss
  · next hw => exact absurd hw hfetch
  · rfl

end tries

/-- A request that is tried in vain waits. -/
theorem submitMap_of_unserved {w : MapWait} {t : State} (hfirst : waitsFor s w.nsid w.r = false) (htry : tryMap w s = (false, t)) :
    submitMap w s = { t with map := { t.map with waiting := t.map.waiting ++ [w] } } := by
  rw [submitMap_of_first hfirst, htry]
  rfl

/-- A request that is served leaves what serving it leaves. -/
theorem submitMap_of_served {w : MapWait} {t : State} (hfirst : waitsFor s w.nsid w.r = false) (htry : tryMap w s = (true, t)) :
    submitMap w s = t := by
  rw [submitMap_of_first hfirst, htry]
  rfl

theorem mapUpdate_command (hc : findCmd s id = some c) (hdue : updateDue c r = true)
    (hfirst : ∀ u, u ∈ c.updates → u.region + 1 = r → forwardedRegion c u.region = none) {t : State}
    (h : submitMap (updateWait id r c) s = t) : Next (.mapUpdate (.command id r)) s fun u => u = t :=
  ⟨_, congrArg Host.Outcome.next ((updateCommand_of_due hc hdue hfirst).trans h), rfl⟩

/-! ### The update of a relocated extent -/

/-- What a relocation's update looks for (R151, R201). -/
def movedExt (s : State) (addr : Nat) : Option Ext :=
  s.wr.exts.find? fun e => e.addr == addr && e.src.isSome && !e.committed && e.stage == .closed

/-- The request that a relocated extent's update makes. -/
def relocateWait (s : State) (addr : Nat) (e : Ext) : MapWait :=
  { nsid := e.nsid, r := e.slba / 256, cls := extClass s e, cmd := 0, req := .relocate addr }

theorem updateRelocate_of_find {addr : Nat} {e : Ext} (h : movedExt s addr = some e) :
    updateRelocate addr s = submitMap (relocateWait s addr e) s := by
  unfold movedExt at h
  simp only [updateRelocate, h]
  rfl

section relocations
variable {addr : Nat} {e : Ext} (h : movedExt s addr = some e) (hserved : mapServed s e.nsid (e.slba / 256) = true)
include h hserved

theorem tryRelocate_of_empty (hw : whereIs s e.nsid (e.slba / 256) = .empty) : tryRelocate addr s = (true, commitExt e s) := by
  unfold movedExt at h
  simp [tryRelocate, h, hserved, hw]

theorem tryRelocate_of_absent (hw : whereIs s e.nsid (e.slba / 256) = .miss ∨ whereIs s e.nsid (e.slba / 256) = .fetching) :
    tryRelocate addr s = (false, startFetch e.nsid (e.slba / 256) (extClass s e) 0 s) := by
  unfold movedExt at h
  obtain hw | hw := hw <;> simp [tryRelocate, h, hserved, hw]

theorem tryRelocate_of_ready (hw : whereIs s e.nsid (e.slba / 256) = .l0 ∨ whereIs s e.nsid (e.slba / 256) = .l1)
    (hready : updateReady s e.nsid (e.slba / 256) = true) : tryRelocate addr s =
      (true, commitExt e (windowCheck (ownerSlot s e.nsid (e.slba / 256)) (if e.parts.isEmpty then
        applyRelocate e.nsid (e.slba / 256) (e.src.getD 0) e.seq e.addr (pageAt e.nsid (e.slba / 256) (extClass s e) 0 s).2 else
        applyCoalesce e.nsid (e.slba / 256) e (pageAt e.nsid (e.slba / 256) (extClass s e) 0 s).2))) := by
  unfold movedExt at h
  obtain hw | hw := hw <;> simp [tryRelocate, h, hserved, hw, hready]

end relocations

theorem mapUpdate_relocate {addr : Nat} {e : Ext} (h : movedExt s addr = some e) {t : State}
    (ht : submitMap (relocateWait s addr e) s = t) : Next (.mapUpdate (.relocate addr)) s fun u => u = t :=
  ⟨_, congrArg Host.Outcome.next ((updateRelocate_of_find h).trans ht), rfl⟩

theorem updateRelocate_of_none {addr : Nat}
    (h : ∀ e, e ∈ s.wr.exts → e.addr = addr → e.src = none ∨ e.committed = true ∨ e.stage ≠ .closed) : updateRelocate addr s = s := by
  have hnone : (s.wr.exts.find? fun e => e.addr == addr && e.src.isSome && !e.committed && e.stage == .closed) = none := by
    refine List.find?_eq_none.mpr fun e he hm => ?_
    simp only [Bool.and_eq_true, beq_iff_eq, Bool.not_eq_true'] at hm
    obtain ⟨⟨⟨haddr, hsrc⟩, hcom⟩, hst⟩ := hm
    obtain h | h | h := h e he haddr
    · simp [h] at hsrc
    · simp [h] at hcom
    · exact h hst
  simp only [updateRelocate, hnone]

/-! ### Journals and confirmations -/

theorem head_applyPlan (n r : Nat) (p : Plan) (s : State) :
    (findJournal (applyPlan n r p s) (ownerSlot s n r)).head = (findJournal s (ownerSlot s n r)).head + 1 := by
  have hj : ∀ pos new, findJournal (storeSpans n r new pos (clearLost n r p.lba p.count s)) (ownerSlot s n r) = findJournal s (ownerSlot s n r) :=
    fun pos new => findJournal_congr (journals_storeSpans ..) _
  have hslot : ownerSlot (clearLost n r p.lba p.count s) n r = ownerSlot s n r := rfl
  rw [applyPlan, hslot, findJournal_appendJ_self, head_journalWith, hj]
  rfl

theorem applyRelocate_of_none {src seq dst : Nat} (h : ∀ y, y ∈ (getRegion s n r).spans → pointsAt src seq y = false) :
    applyRelocate n r src seq dst s = s := by
  have hnone : (getRegion s n r).spans.filter (pointsAt src seq) = [] :=
    List.filter_eq_nil_iff.mpr fun y hy => by simp [h y hy]
  simp [applyRelocate, hnone]

/-- A confirmation of the owner or the mirror noted in the update of a region. -/
def confirmed (r : Nat) (mirror : Bool) (u : Upd) : Upd :=
  if u.region ≠ r then u else if mirror then { u with mirrorOk := u.mirrorOk || u.mirrored } else { u with ownerOk := u.ownerOk || u.applied }

/-- A confirmation noted in a command. -/
def confirmedIn (id r : Nat) (mirror : Bool) (s : State) : State :=
  updCmd id (fun c => { c with updates := c.updates.map (confirmed r mirror) }) s

theorem mapConfirm_of_plain {mirror : Bool} (hc : findCmd s id = some c) (hfwd : ∀ w, w ∈ s.map.forwards → w.cmd ≠ id)
    (hfirst : ∀ v, v ∈ c.updates → v.region + 1 = r → forwardedRegion c v.region = none) :
    mapConfirm id r mirror s = pump (afterMap id (confirmedIn id r mirror s)) := by
  have hno : (s.map.forwards.any fun w => w.cmd == id) = false := by
    rw [List.any_eq_false]
    intro w hw
    simp [hfwd w hw]
  have hsecond : (c.updates.any fun u => u.region + 1 == r && (forwardedRegion c u.region).isSome) = false := by
    rw [List.any_eq_false]
    intro u hu h
    rw [Bool.and_eq_true, beq_iff_eq] at h
    simp [hfirst u hu h.1] at h
  have hset : confirmed r mirror = fun u : Upd => if u.region != r then u
      else if mirror then { u with mirrorOk := u.mirrorOk || u.mirrored }
      else { u with ownerOk := u.ownerOk || (u.applied && !false && !false) } := by
    funext u
    by_cases hr : u.region = r <;> simp [confirmed, hr]
  simp only [mapConfirm, hc, hno, hsecond, confirmedIn, hset]

theorem findCmd_confirmedIn (mirror : Bool) (hc : findCmd s id = some c) :
    findCmd (confirmedIn id r mirror s) id = some { c with updates := c.updates.map (confirmed r mirror) } := by
  refine (findCmd_updCmd s id id (f := fun c => { c with updates := c.updates.map (confirmed r mirror) }) fun _ => rfl).trans ?_
  rw [if_pos rfl, hc]
  rfl

theorem afterMap_of_open {mirror : Bool} (hc : findCmd s id = some c)
    (h : ∃ u, u ∈ c.updates ∧ ((confirmed r mirror u).ownerOk = false ∨ (confirmed r mirror u).mirrorOk = false)) :
    afterMap id (confirmedIn id r mirror s) = confirmedIn id r mirror s := by
  obtain ⟨u, hu, hopen⟩ := h
  have hall : ((c.updates.map (confirmed r mirror)).all fun u => u.ownerOk && u.mirrorOk) = false := by
    rw [List.all_eq_false]
    refine ⟨_, List.mem_map.mpr ⟨u, hu, rfl⟩, ?_⟩
    obtain h | h := hopen <;> simp [h]
  simp only [afterMap, findCmd_confirmedIn mirror hc, hall, Bool.not_false, Bool.true_or, if_true]

theorem afterMap_of_all {mirror : Bool} (hc : findCmd s id = some c) (hphase : c.phase = .mapping)
    (h : ∀ u, u ∈ c.updates → (confirmed r mirror u).ownerOk = true ∧ (confirmed r mirror u).mirrorOk = true) (hsweep : c.sweep = 0)
    (hwt : s.plp.writeThrough = false) : afterMap id (confirmedIn id r mirror s) =
      finishCmd id .success 0 (updCmd id (fun c => { c with took := true, charged := 0 }) (confirmedIn id r mirror s)) := by
  have hall : ((c.updates.map (confirmed r mirror)).all fun u => u.ownerOk && u.mirrorOk) = true := by
    rw [List.all_eq_true]
    intro x hx
    obtain ⟨u, hu, rfl⟩ := List.mem_map.mp hx
    simp [h u hu]
  have hwt' : (confirmedIn id r mirror s).plp.writeThrough = false := hwt
  simp [afterMap, findCmd_confirmedIn mirror hc, hall, hphase, hsweep, hwt']

/-- Settles O44, by the equation of the try that each request makes of its region. -/
theorem mapUpdates : Obligations.MapUpdates := by
  unfold Obligations.MapUpdates
  refine ⟨fun id r c s hc hdue hfirst => ⟨fun hw hnew => mapUpdate_command hc hdue hfirst (submitMap_of_waiting hw hnew),
      fun hw hserved => mapUpdate_command hc hdue hfirst (submitMap_of_unserved hw (tryUpdate_of_unserved hc hdue hserved)),
      fun hw hserved => ⟨fun habs => mapUpdate_command hc hdue hfirst (submitMap_of_unserved hw (tryUpdate_of_absent hc hdue hserved habs)),
        fun hmiss hfetch => ?_⟩⟩,
    fun id r s h => ⟨_, congrArg Host.Outcome.next (updateCommand_of_none h), rfl⟩,
    fun addr e s h => ?_,
    fun addr s h => ⟨_, congrArg Host.Outcome.next (updateRelocate_of_none h), rfl⟩,
    head_applyPlan, fun n r src seq dst s h => applyRelocate_of_none h,
    fun id r mirror c s hc hphase hfwd hfirst => ⟨fun hopen => ⟨_, congrArg Host.Outcome.next (mapConfirm_of_plain hc hfwd hfirst), ?_⟩,
      fun hall hsweep hwt => ⟨_, congrArg Host.Outcome.next (mapConfirm_of_plain hc hfwd hfirst), ?_⟩⟩,
    fun id r mirror s h => ⟨s, congrArg Host.Outcome.next (by simp only [mapConfirm, h]), rfl⟩⟩
  · have htry := tryUpdate_of_present hc hdue hserved hmiss hfetch
    refine ⟨fun hready => ?_, fun hready hone => ?_, fun r2 hready htwo => ?_⟩
    · rw [hready] at htry
      exact mapUpdate_command hc hdue hfirst (submitMap_of_unserved hw htry)
    · rw [hready, restForwarded_of_none hone] at htry
      exact mapUpdate_command hc hdue hfirst (submitMap_of_served hw htry)
    · rw [hready, restForwarded_of_some htwo] at htry
      exact mapUpdate_command hc hdue hfirst (submitMap_of_served hw htry)
  · dsimp only
    intro hw hserved
    refine ⟨fun hempty => mapUpdate_relocate h (submitMap_of_served hw (tryRelocate_of_empty h hserved hempty)), fun hat hready => ?_, fun habs => ?_⟩
    · have htry := tryRelocate_of_ready h hserved hat hready
      refine ⟨fun hplain => ?_, fun hparts => ?_⟩
      · rw [hplain] at htry
        exact mapUpdate_relocate h (submitMap_of_served hw htry)
      · rw [if_neg (by simpa using hparts)] at htry
        exact mapUpdate_relocate h (submitMap_of_served hw htry)
    · obtain ⟨u, hu, heq⟩ := mapUpdate_relocate h (submitMap_of_unserved hw (tryRelocate_of_absent h hserved habs))
      have hfetch := onlyFetch_startFetch e.nsid (e.slba / 256) (extClass s e) 0 s
      refine ⟨u, hu, ?_, ?_, fun k => ?_⟩
      · rw [heq, hfetch]
        rfl
      · rw [heq, hfetch]
      · rw [heq, hfetch]
        rfl
  · exact congrArg pump (afterMap_of_open hc hopen)
  · exact congrArg pump (afterMap_of_all hc hphase hall hsweep hwt)

end Sys2Proof.Machine
end

section
/-!
PROOFS. Lookups of the span map and the fetch of a page (R145, R147, R148, R157, R289).
-/
namespace Sys2Proof.Machine
open Sys2Proof

variable {s : State} {id lba n r : Nat} {c : Cmd} {p : Piece}

/-! ### Operations of the dies -/

/-- Every operation of `s` stands in `t` as well, in whatever state. -/
def OpsStay (s t : State) : Prop := ∀ o ∈ s.media.ops, ∃ x ∈ t.media.ops, x = { o with state := x.state }

theorem OpsStay.refl (s : State) : OpsStay s s := fun o ho => ⟨o, ho, rfl⟩

theorem OpsStay.trans {s t u : State} (h : OpsStay s t) (k : OpsStay t u) : OpsStay s u := fun o ho => by
  obtain ⟨x, hx, hox⟩ := h o ho
  obtain ⟨y, hy, hxy⟩ := k x hx
  refine ⟨y, hy, ?_⟩
  rw [hxy, hox]

theorem opsStay_updOp (k : Nat) (st : OpState) (s : State) : OpsStay s (updOp k (fun o => { o with state := st }) s) := fun o ho => by
  refine ⟨_, List.mem_map.mpr ⟨o, ho, rfl⟩, ?_⟩
  split <;> rfl

theorem opsStay_dispatch (d : Nat) (s : State) : OpsStay s (dispatch d s) := by
  unfold dispatch
  split
  · exact .refl s
  · split
    · exact .refl s
    · split
      · exact opsStay_updOp _ .active s
      · split
        · exact opsStay_updOp _ .active s
        · exact .refl s

theorem opsStay_trySuspend (d : Nat) (s : State) : OpsStay s (trySuspend d s) := by
  unfold trySuspend
  split
  · exact .refl s
  · dsimp only
    split
    · exact .refl s
    · split
      · exact opsStay_updOp _ .suspending s
      · exact .refl s

/-- An operation entered in the queues, before the die looks at it. -/
def opQueued (o : DieOp) (s : State) : State :=
  { s with media := { s.media with
    ops := s.media.ops ++ [{ o with id := s.media.nextOp, left := List.range o.words, since := s.nowMs }], nextOp := s.media.nextOp + 1 } }

/-- An operation that is entered stands in its die's queue, whether or not the die takes it at once. -/
theorem mem_ops_addOp (o : DieOp) (s : State) : ∃ x ∈ (addOp o s).media.ops,
    x.use = o.use ∧ x.kind = o.kind ∧ x.cls = o.cls ∧ x.addr = o.addr ∧ x.die = o.die := by
  obtain ⟨x, hx, hox⟩ := (opsStay_dispatch o.die (opQueued o s)).trans (opsStay_trySuspend o.die _)
    { o with id := s.media.nextOp, left := List.range o.words, since := s.nowMs } (List.mem_append_right s.media.ops (List.mem_singleton.mpr rfl))
  refine ⟨x, hx, ?_⟩
  rw [hox]
  exact ⟨rfl, rfl, rfl, rfl, rfl⟩

/-! ### A page that takes a frame -/

theorem findRegion_congr {t : State} (h : t.map.regions = s.map.regions) (a b : Nat) : findRegion t a b = findRegion s a b := by
  rw [findRegion, findRegion, h]

/-- What room in L1 makes of a region: the frame that is taken away goes, with its place in L0. -/
def frameTaken (v : Nat) (passed : List Nat) (x : Region) : Region :=
  match x.frame with
  | none => x
  | some p => { x with
      frame := if p == v then none else some p, l0 := if p == v then none else x.l0, ref1 := x.ref1 && !passed.contains p }

/-- What room in L0 makes of a region. -/
def placeTaken (v : Nat) (passed : List Nat) (x : Region) : Region :=
  match x.l0 with
  | none => x
  | some p => { x with l0 := if p == v then none else some p, ref0 := x.ref0 && !passed.contains p }

/-- A change of a tile's regions leaves one that it does not touch. -/
theorem findRegion_updRegions {f : Region → Region} {x : Region} (t : Nat) (hf : ∀ y, (f y).nsid = y.nsid ∧ (f y).r = y.r)
    (hx : findRegion s n r = some x) (hfx : f x = x) : findRegion (updRegions t f s) n r = some x := by
  have hkeys : ∀ y : Region, (if ownerTile s y.nsid y.r == t then f y else y).nsid = y.nsid ∧
      (if ownerTile s y.nsid y.r == t then f y else y).r = y.r := fun y => by
    split
    · exact hf y
    · exact ⟨rfl, rfl⟩
  refine (findRegion_map hkeys n r s.map.regions).trans ?_
  have hx' : (s.map.regions.find? fun y => y.nsid == n && y.r == r) = some x := hx
  rw [hx', Option.map_some, hfx, ite_self]

theorem keys_frameTaken (v : Nat) (passed : List Nat) (x : Region) :
    (frameTaken v passed x).nsid = x.nsid ∧ (frameTaken v passed x).r = x.r := by
  unfold frameTaken
  split <;> exact ⟨rfl, rfl⟩

theorem keys_placeTaken (v : Nat) (passed : List Nat) (x : Region) :
    (placeTaken v passed x).nsid = x.nsid ∧ (placeTaken v passed x).r = x.r := by
  unfold placeTaken
  split <;> exact ⟨rfl, rfl⟩

theorem frameTaken_of_none {v : Nat} {passed : List Nat} {x : Region} (h : x.frame = none) : frameTaken v passed x = x := by
  rw [frameTaken, h]

theorem placeTaken_of_none {v : Nat} {passed : List Nat} {x : Region} (h : x.l0 = none) : placeTaken v passed x = x := by
  rw [placeTaken, h]

/-- Making room in L1 leaves a region without a frame. -/
theorem findRegion_roomL1 {x : Region} (t : Nat) (hx : findRegion s n r = some x) (hframe : x.frame = none) :
    findRegion (roomL1 t s) n r = some x := by
  unfold roomL1
  split
  · exact hx
  · split
    · exact hx
    · exact findRegion_updRegions t (keys_frameTaken _ _) hx (frameTaken_of_none hframe)

/-- Making room in L0 leaves a region without a place there. -/
theorem findRegion_roomL0 {x : Region} (t : Nat) (hx : findRegion s n r = some x) (hl0 : x.l0 = none) :
    findRegion (roomL0 t s) n r = some x := by
  unfold roomL0
  dsimp only
  split
  · exact hx
  · split
    · exact hx
    · exact findRegion_updRegions t (keys_placeTaken _ _) hx (placeTaken_of_none hl0)

theorem findRegion_takeFrame {x : Region} (hx : findRegion s n r = some x) (hframe : x.frame = none) :
    ∃ f, findRegion (takeFrame n r s) n r = some { x with frame := some f, ref1 := true } := by
  have hroom := findRegion_roomL1 (ownerTile s n r) hx hframe
  refine ⟨lowestFree (framesUsed (roomL1 (ownerTile s n r) s) (ownerTile s n r)), ?_⟩
  simp only [takeFrame, getRegion_of_find hx, getRegion_of_find hroom, hframe, Option.isSome_none, Bool.false_eq_true, if_false]
  exact findRegion_putRegion_self (x := { x with frame := some _, ref1 := true }) (show x.nsid = n from nsid_of_findRegion hx)
    (show x.r = r from r_of_findRegion hx) _

theorem findRegion_fetchMarked {x : Region} (cls : PClass) (k : Bool) (hx : findRegion s n r = some x) (hframe : x.frame = none) :
    ∃ f, findRegion (fetchMarked n r cls k s) n r = some { x with frame := some f, ref1 := true, fetching := some cls, kept := k } := by
  obtain ⟨f, hf⟩ := findRegion_takeFrame hx hframe
  refine ⟨f, ?_⟩
  rw [fetchMarked, getRegion_of_find hf]
  exact findRegion_putRegion_self (x := { x with frame := some f, ref1 := true, fetching := some cls, kept := k })
    (show x.nsid = n from nsid_of_findRegion hx) (show x.r = r from r_of_findRegion hx) _

/-- A fetch that is marked has changed counts and the map alone. -/
theorem fetchMarked_rest (n r : Nat) (cls : PClass) (k : Bool) (s : State) :
    fetchMarked n r cls k s = { s with regs := (fetchMarked n r cls k s).regs, map := (fetchMarked n r cls k s).map } := by
  have hframe : takeFrame n r s = { s with map := (takeFrame n r s).map } := by rw [onlyPaging_takeFrame n r s]
  unfold fetchMarked
  generalize takeFrame n r s = t at hframe
  rw [hframe]
  rfl

theorem frame_of_miss {x : Region} (hx : findRegion s n r = some x) (h : whereIs s n r = .miss) : x.frame = none ∧ x.fetching = none := by
  simp only [whereIs, hx] at h
  cases hf : x.fetching with
  | some k =>
    simp only [Region.inL1, hf, Option.isNone_some, Bool.and_false, Bool.false_eq_true, Option.isSome_some, if_true, if_false] at h
    split at h <;> cases h
  | none =>
    refine ⟨?_, rfl⟩
    cases hframe : x.frame with
    | none => rfl
    | some f =>
      simp only [Region.inL1, hf, hframe, Option.isNone_none, Option.isSome_some, Bool.and_self, if_true] at h
      split at h <;> cases h

/-! ### Lookups -/

/-- The piece of a command that a lookup is for. -/
def pieceAt (c : Cmd) (lba : Nat) : Option Piece := c.pieces.find? fun p => p.lba == lba && p.state == .toLookup

/-- The request that a lookup makes of its region. -/
def lookupWait (id lba : Nat) (c : Cmd) : MapWait :=
  { nsid := c.cap.nsid, r := lba / 256, cls := c.cls, cmd := id, req := .lookup id lba }

/-- The piece of the command waits for its lookup. -/
def pieceQueued (id : Nat) (p : Piece) (s : State) : State :=
  updCmd id (fun c => { c with pieces := c.pieces.map fun q => if q == p then { q with state := .queued } else q }) s

theorem walk_of_forwarded (hc : findCmd s id = some c) (hp : pieceAt c lba = some p) (h : forwardedPiece c = some lba) : walk id lba s = s := by
  unfold pieceAt at hp
  simp [walk, hc, hp, h]

theorem walk_of_plain (hc : findCmd s id = some c) (hp : pieceAt c lba = some p) (h : forwardedPiece c ≠ some lba) :
    walk id lba s = pieceQueued id p (submitMap (lookupWait id lba c)
      (prefetch c.cap.nsid (lba / 256) (lba % 256 + p.count - 1) s)) := by
  have hf : (forwardedPiece c == some lba) = false := by simpa using h
  unfold pieceAt at hp
  simp only [walk, hc, hp, hf, Bool.false_eq_true, if_false]
  rfl

theorem walk_of_none (h : ∀ c, findCmd s id = some c → ∀ p, p ∈ c.pieces → p.lba = lba → p.state ≠ .toLookup) : walk id lba s = s := by
  cases hc : findCmd s id with
  | none => simp only [walk, hc]
  | some c =>
    have hnone : (c.pieces.find? fun p => p.lba == lba && p.state == .toLookup) = none := by
      refine List.find?_eq_none.mpr fun p hp hm => ?_
      rw [Bool.and_eq_true, beq_iff_eq, beq_iff_eq] at hm
      exact h c hc p hp hm.1 hm.2
    simp only [walk, hc, hnone]

theorem prefetch_of_off {last : Nat} (h : s.tfld (ownerTile s n r) .map_cfg_prefetch_en ≠ 1 ∨ last < 240 ∨
    192 ≤ fetches s (ownerTile s n (r + 1)) ∨ whereIs s n (r + 1) ≠ .miss) : prefetch n r last s = s := by
  unfold prefetch
  dsimp only
  split
  · next hgo =>
    simp only [Bool.and_eq_true, beq_iff_eq, decide_eq_true_eq] at hgo
    obtain ⟨⟨hen, hlast⟩, hroom⟩ := hgo
    split
    · next hmiss =>
      obtain h | h | h | h := h
      · exact absurd hen h
      · omega
      · omega
      · exact absurd hmiss h
    · rfl
  · rfl

theorem prefetch_of_on {last : Nat} (hen : s.tfld (ownerTile s n r) .map_cfg_prefetch_en = 1) (hlast : 240 ≤ last)
    (hroom : fetches s (ownerTile s n (r + 1)) < 192) (hmiss : whereIs s n (r + 1) = .miss) :
    prefetch n r last s = startFetch n (r + 1) .b1 0 s := by
  simp [prefetch, hen, hlast, hroom, hmiss]

theorem openPiece_isSome (hp : pieceAt c lba = some p) : (openPiece c lba).isNone = false := by
  have hkey := List.find?_some (p := fun p : Piece => p.lba == lba && p.state == .toLookup) hp
  have hmem := List.mem_of_find?_eq_some hp
  rw [Option.isNone_eq_false_iff, openPiece, List.find?_isSome]
  rw [Bool.and_eq_true] at hkey
  exact ⟨p, hmem, by rw [hkey.1, hkey.2]; rfl⟩

section tries
variable (hc : findCmd s id = some c) (hp : pieceAt c lba = some p)
include hc hp

theorem tryLookup_of_unserved (h : mapServed s c.cap.nsid (lba / 256) = false) :
    tryLookup id lba s = (false, useDir c.cap.nsid (lba / 256) c.cls id s) := by
  simp [tryLookup, hc, openPiece_isSome hp, h]

theorem tryLookup_of_hit {t : State} (h : mapServed s c.cap.nsid (lba / 256) = true)
    (hpage : pageAt c.cap.nsid (lba / 256) c.cls id s = (true, t)) :
    tryLookup id lba s = (true, sendLookup id lba (resolvePiece id lba t)) := by
  simp [tryLookup, hc, openPiece_isSome hp, h, hpage]

theorem tryLookup_of_absent {t : State} (h : mapServed s c.cap.nsid (lba / 256) = true)
    (hpage : pageAt c.cap.nsid (lba / 256) c.cls id s = (false, t)) : tryLookup id lba s = (false, t) := by
  simp [tryLookup, hc, openPiece_isSome hp, h, hpage]

end tries

theorem inL0_of_whereIs {x : Region} (hx : findRegion s n r = some x) (h : whereIs s n r = .l0) : x.inL0 = true := by
  simp only [whereIs, hx] at h
  cases hl : x.inL0 with
  | true => rfl
  | false =>
    simp only [hl, Bool.false_eq_true, if_false] at h
    split at h
    · cases h
    · split at h <;> cases h

/-- A page in L0 is used: its reference bit is set, its hit counted. -/
theorem pageAt_of_l0 (cls : PClass) (cmd : Nat) (h : whereIs s n r = .l0) : pageAt n r cls cmd s =
    (true, putRegion { getRegion s n r with ref0 := true } (bump (ownerTile s n r) .map_l0_hits_count s)) := by
  cases hx : findRegion s n r with
  | none => simp [whereIs, hx] at h
  | some x =>
    have hb : getRegion (bump (ownerTile s n r) .map_l0_hits_count s) n r = x := getRegion_of_find hx
    have hin := inL0_of_whereIs hx h
    simp only [pageAt, h, fillL0, hb, hin, if_true, getRegion_of_find hx]

/-- The lookup waits: its piece is queued, its request stands at the end. -/
theorem mapLookup_runs (hc : findCmd s id = some c) (hp : pieceAt c lba = some p) (h : forwardedPiece c ≠ some lba)
    (hpre : prefetch c.cap.nsid (lba / 256) (lba % 256 + p.count - 1) s = s) {t : State} (ht : submitMap (lookupWait id lba c) s = t) :
    Next (.mapLookup id lba) s fun u => u = pieceQueued id p t := by
  refine ⟨_, congrArg Host.Outcome.next (walk_of_plain hc hp h), ?_⟩
  rw [hpre, ht]

/-- The state in which a request waits. -/
def requestWaits (w : MapWait) (s : State) : State := { s with map := { s.map with waiting := s.map.waiting ++ [w] } }

theorem pieceQueued_rest (id : Nat) (p : Piece) (w : MapWait) {t : State} (h : OnlyFetch s t) :
    pieceQueued id p (requestWaits w t) =
      { s with regs := (pieceQueued id p (requestWaits w t)).regs, map := (pieceQueued id p (requestWaits w t)).map
               media := (pieceQueued id p (requestWaits w t)).media
               host := { s.host with cmds := (pieceQueued id p (requestWaits w t)).host.cmds } } := by
  rw [h]
  rfl

/-- A lookup whose page's fetch starts (R145, R147). -/
theorem fetchBegun_spec {x : Region} {k : Bool} (hc : findCmd s id = some c) (hx : findRegion s n r = some x) (hmiss : whereIs s n r = .miss)
    (hplace : placeFor s (ownerTile s n r) c.cls = some k) (hframe : frameAt s (ownerTile s n r) = true) (w : MapWait) (p : Piece) :
    let u := pieceQueued id p (requestWaits w (startFetch n r c.cls id s))
    u = { s with regs := u.regs, map := u.map, media := u.media, host := { s.host with cmds := u.host.cmds } } ∧
      (∃ f, findRegion u n r = some { x with frame := some f, ref1 := true, fetching := some c.cls, kept := k }) ∧
      findCmd u id = some { c with pieces := c.pieces.map fun q => if q = p then { q with state := .queued } else q } ∧
      u.map.waiting = s.map.waiting ++ [w] ∧
      (∀ l, x.l2 = some l → dieServes s (dieOf l.addr) = true →
        ∃ o, o ∈ u.media.ops ∧ o.use = .mapFetch n r ∧ o.kind = .read ∧ o.cls = c.cls ∧ o.addr = l.addr ∧ o.die = dieOf l.addr) := by
  intro u
  obtain ⟨hno, hnof⟩ := frame_of_miss hx hmiss
  have hstart := startFetch_of_room (s := s) c.cls id hx hnof hplace hframe
  have hrest := onlyFetch_startFetch n r c.cls id s
  have hregions : (startFetch n r c.cls id s).map.regions = (fetchMarked n r c.cls k s).map.regions := by
    rw [hstart]
    cases x.l2 with
    | none => rfl
    | some l =>
      refine iteInduction (motive := fun t : State => t.map.regions = _) (fun _ => ?_) fun _ => rfl
      rw [onlyDies_addOp]
  refine ⟨?_, ?_, ?_, ?_, fun l hl hserves => ?_⟩
  · exact pieceQueued_rest id p w hrest
  · obtain ⟨f, hf⟩ := findRegion_fetchMarked c.cls k hx hno
    exact ⟨f, (findRegion_congr (s := fetchMarked n r c.cls k s) hregions n r).trans hf⟩
  · have hcmds : findCmd (requestWaits w (startFetch n r c.cls id s)) id = some c := by
      rw [← hc]
      refine findCmd_congr ?_ id
      show (startFetch n r c.cls id s).host.cmds = _
      rw [hrest]
    refine (findCmd_updCmd _ id id (f := fun c : Cmd => { c with
      pieces := c.pieces.map fun q => if q == p then { q with state := .queued } else q }) fun _ => rfl).trans ?_
    rw [if_pos rfl, hcmds]
    simp
  · show (startFetch n r c.cls id s).map.waiting ++ [w] = _
    rw [hrest]
  · have hserves' : dieServes (fetchMarked n r c.cls k s) (dieOf l.addr) = true := by
      rw [fetchMarked_rest]
      exact hserves
    have hops : u.media.ops = (addOp (recordRead n r c.cls id l) (fetchMarked n r c.cls k s)).media.ops := by
      show (startFetch n r c.cls id s).media.ops = _
      rw [hstart, hl, recordFetched, if_pos hserves']
    rw [hops]
    exact mem_ops_addOp ..

/-! ### A page that arrives -/

theorem any_mapFetch_eq_false (h : ∀ o, o ∈ s.media.ops → o.use ≠ .mapFetch n r) :
    (s.media.ops.any fun o => o.use == .mapFetch n r && (o.state == .waiting || !reconRead s o.id)) = false := by
  rw [List.any_eq_false]
  intro o ho
  simp [h o ho]

/-- The region's fetch has ended. -/
def fetchEnded (x : Region) (s : State) : State := putRegion { x with fetching := none, kept := false, ref1 := true } s

/-- The rest of a fetch whose record does not pass its checks. -/
def fetchFailed (n r : Nat) (t s : State) : State :=
  let s2 := lostRegion n r (logEv .mapFetchFault (ownerTile s n r) [1, n, r % 2 ^ 32] t)
  if s2.red.regionFull.contains n then (s2.map.waiting.filter fun w => w.nsid == n && w.r == r).foldl
    (fun s w => finishCmd w.cmd .namespaceNotReady 0 s)
    { s2 with map := { s2.map with waiting := s2.map.waiting.filter fun w => !(w.nsid == n && w.r == r) } }
  else serveMap s2

theorem fetchDone_of_fetching {x : Region} {cls : PClass} (header body : Bytes) (hx : findRegion s n r = some x) (hf : x.fetching = some cls)
    (hops : ∀ o, o ∈ s.media.ops → o.use ≠ .mapFetch n r) : fetchDone n r header body s =
      if recordPasses 1 n r header body then serveMap (fillL0 n r (fetchEnded x s)) else fetchFailed n r (fetchEnded x s) s := by
  simp only [fetchDone, hx, hf, Option.isNone_some, any_mapFetch_eq_false hops, Bool.or_self, Bool.false_eq_true, if_false,
    endReadOp_of_none hops]
  rfl

theorem fetchDone_of_none (header body : Bytes) (h : (∀ x, findRegion s n r = some x → x.fetching = none) ∨
    ∃ o, o ∈ s.media.ops ∧ o.use = .mapFetch n r ∧ (o.state = .waiting ∨ reconRead s o.id = false)) : fetchDone n r header body s = s := by
  cases hx : findRegion s n r with
  | none => simp only [fetchDone, hx]
  | some x =>
    have hgo : (x.fetching.isNone || s.media.ops.any fun o => o.use == .mapFetch n r && (o.state == .waiting || !reconRead s o.id)) = true := by
      obtain h | ⟨o, ho, huse, hst⟩ := h
      · simp [h x hx]
      · rw [Bool.or_eq_true]
        refine .inr (List.any_eq_true.mpr ⟨o, ho, ?_⟩)
        obtain hst | hst := hst <;> simp [huse, hst]
    simp only [fetchDone, hx, hgo, if_true]

/-- A page that arrives takes a place in L0. -/
theorem fillL0_fetchEnded {x : Region} (hx : findRegion s n r = some x) (hl0 : x.l0 = none) :
    ∃ k, findRegion (fillL0 n r (fetchEnded x s)) n r =
      some { x with fetching := none, kept := false, ref1 := true, l0 := some k, ref0 := true } := by
  have hn := nsid_of_findRegion hx
  have hr := r_of_findRegion hx
  have hput : findRegion (fetchEnded x s) n r = some { x with fetching := none, kept := false, ref1 := true } :=
    findRegion_putRegion_self (x := { x with fetching := none, kept := false, ref1 := true }) hn hr s
  have hroom := findRegion_roomL0 (ownerTile (fetchEnded x s) n r) hput hl0
  have hnot : ({ x with fetching := none, kept := false, ref1 := true } : Region).inL0 = false := by
    simp [Region.inL0, hl0]
  refine ⟨lowestFree ((regionsOf (roomL0 (ownerTile (fetchEnded x s) n r) (fetchEnded x s)) (ownerTile (fetchEnded x s) n r)).filterMap (·.l0)), ?_⟩
  simp only [fillL0, getRegion_of_find hput, hnot, Bool.false_eq_true, if_false, getRegion_of_find hroom]
  exact findRegion_putRegion_self (x := { x with fetching := none, kept := false, ref1 := true, l0 := some _, ref0 := true }) hn hr _

/-- With no request waiting, a record that fails leaves what its loss leaves. -/
theorem fetchFailed_of_empty {t : State} (hwait : t.map.waiting = []) :
    let s2 := lostRegion n r (logEv .mapFetchFault (ownerTile s n r) [1, n, r % 2 ^ 32] t)
    (fetchFailed n r t s).evr = s2.evr ∧ (fetchFailed n r t s).red = s2.red := by
  intro s2
  have hempty : s2.map.waiting = [] := (waiting_lostRegion ..).trans hwait
  have hfailed : fetchFailed n r t s = if s2.red.regionFull.contains n then (s2.map.waiting.filter fun w => w.nsid == n && w.r == r).foldl
      (fun s w => finishCmd w.cmd .namespaceNotReady 0 s)
      { s2 with map := { s2.map with waiting := s2.map.waiting.filter fun w => !(w.nsid == n && w.r == r) } }
    else serveMap s2 := rfl
  rw [hfailed, serveMap_of_empty hempty, hempty]
  split <;> exact ⟨rfl, rfl⟩

theorem mapFetchDone_fails {x : Region} {cls : PClass} {header body : Bytes} (hx : findRegion s n r = some x) (hf : x.fetching = some cls)
    (hops : ∀ o, o ∈ s.media.ops → o.use ≠ .mapFetch n r) (hfail : recordPasses 1 n r header body = false) (hwait : s.map.waiting = []) :
    Next (.mapFetchDone n r ⟨header, body⟩) s fun u =>
      { ev := .mapFetchFault, tile := ownerTile s n r, params := [1, n, r % 2 ^ 32] } ∈ u.evr.raised ∧
      ((s.red.lostRegions.filter fun y => ownerTile s y.nsid y.region == ownerTile s n r).length < 65536 →
        { nsid := n, region := r, blocks := lostMask s x } ∈ u.red.lostRegions) ∧
      (65536 ≤ (s.red.lostRegions.filter fun y => ownerTile s y.nsid y.region == ownerTile s n r).length → n ∈ u.red.regionFull) := by
  let t := logEv .mapFetchFault (ownerTile s n r) [1, n, r % 2 ^ 32] (fetchEnded x s)
  have hgo : fetchDone n r header body s = fetchFailed n r (fetchEnded x s) s := by
    rw [fetchDone_of_fetching header body hx hf hops, hfail, if_neg Bool.false_ne_true]
  obtain ⟨hevr, hred⟩ := fetchFailed_of_empty (s := s) (n := n) (r := r) (t := fetchEnded x s) hwait
  have hregion : getRegion t n r = { x with fetching := none, kept := false, ref1 := true } :=
    getRegion_of_find (findRegion_putRegion_self (x := { x with fetching := none, kept := false, ref1 := true })
      (show x.nsid = n from nsid_of_findRegion hx) (show x.r = r from r_of_findRegion hx) s)
  have hmask : lostMask t (getRegion t n r) = lostMask s x := by
    rw [hregion]
    rfl
  obtain ⟨hroom, hfull⟩ := lostRegion_spec n r t
  rw [hmask] at hroom
  refine ⟨_, congrArg Host.Outcome.next hgo, ?_, fun hlt => ?_, fun hge => ?_⟩
  · rw [hevr]
    exact (raises_lostRegion n r t).subset (mem_raised_logEv ..)
  · rw [hred]
    exact hroom hlt
  · rw [hred]
    exact hfull hge

/-- Settles O43: what a lookup does by where the region's page is, and what its fetch brings. -/
theorem mapLookups : Obligations.MapLookups := by
  unfold Obligations.MapLookups
  refine ⟨fun id lba c p s hc hp => ?_, fun id lba s h => ⟨_, congrArg Host.Outcome.next (walk_of_none h), rfl⟩,
    fun n r last s => ⟨prefetch_of_on, prefetch_of_off⟩,
    fun n r header body x cls s hx hf hops => ⟨fun hpass => ?_, fun hfail hwait => mapFetchDone_fails hx hf hops hfail hwait⟩,
    fun n r header body s h => ⟨_, congrArg Host.Outcome.next (fetchDone_of_none header body h), rfl⟩⟩
  · refine ⟨fun hfwd => ⟨_, congrArg Host.Outcome.next (walk_of_forwarded hc hp hfwd), rfl⟩, fun hfwd hoff => ?_⟩
    have hpre : prefetch c.cap.nsid (lba / 256) (lba % 256 + p.count - 1) s = s := prefetch_of_off (by tauto)
    have hrun := fun t => mapLookup_runs (t := t) hc hp hfwd hpre
    refine ⟨fun hw hnew => hrun _ (submitMap_of_waiting hw hnew),
      fun hw hserved => hrun _ (submitMap_of_unserved hw (tryLookup_of_unserved hc hp hserved)), fun hw hserved => ?_⟩
    have hhit := fun t hpage => hrun _ (submitMap_of_served hw (tryLookup_of_hit (t := t) hc hp hserved hpage))
    have habs := fun t hpage => hrun _ (submitMap_of_unserved hw (tryLookup_of_absent (t := t) hc hp hserved hpage))
    refine ⟨fun hat => hhit _ (by simp only [pageAt, hat]), fun hat => hhit _ (pageAt_of_l0 c.cls id hat),
      fun hat => hhit _ (by simp only [pageAt, hat]), fun hat => habs _ (by simp only [pageAt, hat]), fun hat hfull => ?_,
      fun x k hx hat hplace hframe => ?_⟩
    · refine habs _ ?_
      rw [pageAt, hat]
      exact congrArg (Prod.mk false) (startFetch_of_none c.cls id (hfull.imp_right .inl))
    · obtain ⟨u, hu, heq⟩ := habs (startFetch c.cap.nsid (lba / 256) c.cls id s) (by simp only [pageAt, hat])
      refine ⟨u, hu, ?_⟩
      rw [heq]
      exact fetchBegun_spec hc hx hat hplace hframe (lookupWait id lba c) p
  · have hgo : fetchDone n r header body s = serveMap (fillL0 n r (fetchEnded x s)) := by
      rw [fetchDone_of_fetching header body hx hf hops, if_pos hpass]
    refine ⟨⟨_, congrArg Host.Outcome.next hgo, rfl⟩, fun hwait hl0 => ?_⟩
    have hfill : OnlyPaging s (fillL0 n r (fetchEnded x s)) := (onlyPaging_putRegion _ s).trans (onlyPaging_fillL0 ..)
    have hempty : (fillL0 n r (fetchEnded x s)).map.waiting = [] := by
      rw [hfill]
      exact hwait
    rw [serveMap_of_empty hempty] at hgo
    refine ⟨_, congrArg Host.Outcome.next hgo, ?_, fillL0_fetchEnded hx hl0⟩
    generalize fillL0 n r (fetchEnded x s) = t at hfill
    rw [hfill]

end Sys2Proof.Machine
end

section
/-!
PROOFS. Write-back of dirty pages and directory records, and the journal (R142, R146, R149 to R155, R184, R205, R314).
-/
namespace Sys2Proof.Machine
open Sys2Proof

variable {s : State} {slot n i addr len : Nat}

/-! ### What the placing and the programming of a record touch -/

/-- From `s` to `t` the map and the identity of the unit are as before. -/
def KeepsMap (s t : State) : Prop := t.map = s.map ∧ t.ident = s.ident

theorem KeepsMap.trans {s t u : State} (h : KeepsMap s t) (k : KeepsMap t u) : KeepsMap s u := ⟨k.1.trans h.1, k.2.trans h.2⟩

theorem OnlyBands.keepsMap {s t : State} (h : OnlyBands s t) : KeepsMap s t := by
  rw [h]
  exact ⟨rfl, rfl⟩

theorem OnlyDieTime.keepsMap {s t : State} (h : OnlyDieTime s t) : KeepsMap s t := by
  rw [h]
  exact ⟨rfl, rfl⟩

theorem OnlyDies.keepsMap {s t : State} (h : OnlyDies s t) : KeepsMap s t := by
  rw [h]
  exact ⟨rfl, rfl⟩

theorem keepsMap_openMapRow (s : State) (addr : Nat) : KeepsMap s (openMapRow s addr) := by
  unfold openMapRow
  split
  · exact ⟨rfl, rfl⟩
  · split <;> exact ⟨rfl, rfl⟩

theorem keepsMap_sealBand (sg b : Nat) (s : State) : KeepsMap s (sealBand sg b s) := by
  cases h : findBand s sg b with
  | none => simp only [sealBand, h]; exact ⟨rfl, rfl⟩
  | some x => exact (sealBand_spec h).1.keepsMap

theorem keepsMap_mapRowDone (s : State) (addr : Nat) : KeepsMap s (mapRowDone s addr) := by
  unfold mapRowDone
  split
  · exact ⟨rfl, rfl⟩
  · dsimp only
    split
    · exact KeepsMap.trans ⟨rfl, rfl⟩ (keepsMap_sealBand ..)
    · exact ⟨rfl, rfl⟩

theorem keepsMap_meterMap (t addr grains us : Nat) (s : State) : KeepsMap s (meterMap t addr grains us s) := ⟨rfl, rfl⟩

/-- Where no program of the record waits for its die, its end changes nothing of the map. -/
theorem endProgram_of_begun {v : OpUse} (t addr len : Nat) (h : ∀ o, o ∈ s.media.ops → o.use = v → o.state ≠ .waiting) :
    ∃ u, endProgram v t addr len s = some u ∧ KeepsMap s u := by
  unfold endProgram
  split
  · exact ⟨s, rfl, rfl, rfl⟩
  · next o ho =>
    have huse : o.use = v := by simpa using List.find?_some (p := fun o : DieOp => o.use == v) ho
    have hst : (o.state == .waiting) = false := by simpa using h o (List.mem_of_find?_eq_some ho) huse
    refine ⟨_, by rw [hst, if_neg Bool.false_ne_true], ?_⟩
    refine KeepsMap.trans ?_ (keepsMap_mapRowDone _ addr)
    have hend : KeepsMap s (endArray o (dropOp o.id s)) := (onlyDies_dropOp o.id s).keepsMap.trans (onlyDieTime_endArray o _).keepsMap
    exact hend.trans (keepsMap_meterMap ..)

theorem programRecord_spec (v : OpUse) (c : PClass) (addr len : Nat) (header body : Bytes) (s : State) :
    KeepsMap s (programRecord v c addr len header body s) ∧
    (∃ o, o ∈ (programRecord v c addr len header body s).media.ops ∧ o.use = v ∧ o.kind = .program ∧ o.cls = c ∧ o.addr = addr ∧
      o.die = dieOf addr) ∧
    .nandProgram (dieOf addr) [(addr, header ++ Config.deflate false true [] body)] ∈ (programRecord v c addr len header body s).outs := by
  have hadd := onlyDies_addOp { blankOp .program c (dieOf addr) with use := v, addr := addr, words := wordsOf addr len }
    (emit (.nandProgram (dieOf addr) [(addr, header ++ Config.deflate false true [] body)]) (openMapRow s addr))
  refine ⟨(keepsMap_openMapRow s addr).trans (KeepsMap.trans ⟨rfl, rfl⟩ hadd.keepsMap), mem_ops_addOp .., ?_⟩
  unfold programRecord
  rw [hadd]
  exact List.mem_append_right _ (List.mem_singleton.mpr rfl)

theorem findRegion_keepsMap {t : State} (h : KeepsMap s t) (a b : Nat) : findRegion t a b = findRegion s a b :=
  findRegion_congr (congrArg (·.regions) h.1) a b

/-! ### Page write-back -/

/-- The header of a page's record. -/
def pageHeader (s : State) (n i len snap : Nat) (l : List Span) : Bytes := bandHeader 1 (ownerSlot s n i) l.length n i snap len (mapBody l)

/-- The write-back of a region's page. -/
def pageCopied (s : State) (n i addr len : Nat) (x : Region) (c : PClass) : Region :=
  { x with wb := some { addr := addr, len := len, snap := (findJournal s (ownerSlot s n i)).head, spans := x.spans, first := none
                        cls := c, move := false } }

/-- The relocation of a region's record. -/
def recordCopied (addr len : Nat) (x : Region) (l : L2Rec) : Region :=
  { x with wb := some { addr := addr, len := len, snap := l.snap, spans := l.spans, first := x.dirty, cls := .b3, move := true } }

/-- What a write-back that begins leaves of the regions. -/
theorem findRegion_copied {y : Region} (hn : y.nsid = n) (hr : y.r = i) {u : State} (hu : KeepsMap (putRegion y s) u) :
    findRegion u n i = some y ∧ ∀ m r, m ≠ n ∨ r ≠ i → findRegion u m r = findRegion s m r := by
  refine ⟨(findRegion_keepsMap hu n i).trans (findRegion_putRegion_self hn hr s), fun m r h => ?_⟩
  rw [findRegion_keepsMap hu, findRegion_putRegion, if_neg (by rw [hn, hr]; tauto)]

section page
variable {x : Region} (hx : findRegion s n i = some x)
include hx

theorem pageStart_of_due {c : PClass} (hwb : x.wb = none) (hok : placeOk s (ownerTile s n i) addr len = true) (hc : pageWbClass s x = some c) :
    pageStart n i addr len s = programRecord (.mapWrite false n i) c addr len
      (pageHeader s n i len (findJournal s (ownerSlot s n i)).head x.spans) (mapBody x.spans) (putRegion (pageCopied s n i addr len x c) s) := by
  simp only [pageStart, hx, hwb, hok, hc, Option.isSome_none, Bool.not_true, Bool.or_self, Bool.false_eq_true, if_false]
  rfl

theorem pageStart_of_move {l : L2Rec} (hwb : x.wb = none) (hok : placeOk s (ownerTile s n i) addr len = true) (hc : pageWbClass s x = none)
    (hl : x.l2 = some l) (hmove : recordMoves s l.addr = true) :
    pageStart n i addr len s = programRecord (.mapWrite false n i) .b3 addr len (pageHeader s n i len l.snap l.spans) (mapBody l.spans)
      (putRegion (recordCopied addr len x l) s) := by
  have hf : (x.l2.filter fun l => recordMoves s l.addr) = some l := by rw [hl, Option.filter_some, if_pos hmove]
  simp only [pageStart, hx, hwb, hok, hc, hf, Option.isSome_none, Bool.not_true, Bool.or_self, Bool.false_eq_true, if_false]
  rfl

theorem pageStart_of_none (h : x.wb.isSome = true ∨ placeOk s (ownerTile s n i) addr len = false ∨
    (pageWbClass s x = none ∧ ∀ l, x.l2 = some l → recordMoves s l.addr = false)) : pageStart n i addr len s = s := by
  obtain h | h | ⟨hc, hl⟩ := h
  · simp [pageStart, hx, h]
  · simp [pageStart, hx, h]
  · have hnone : (x.l2.filter fun l => recordMoves s l.addr) = none := by
      cases h2 : x.l2 with
      | none => rfl
      | some l => simp [Option.filter_some, hl l h2]
    simp only [pageStart, hx, hc, hnone]
    exact ite_self s

end page

/-- Why a dirty page is written back now. -/
theorem pageWbClass_spec (x : Region) (s : State) :
    (x.dirty.isSome = true → dirtyLimit s (ownerTile s x.nsid x.r) ≤ dirtyFrames s (ownerTile s x.nsid x.r) → pageWbClass s x = some .h1) ∧
    (x.dirty.isSome = true → dirtyFrames s (ownerTile s x.nsid x.r) < dirtyLimit s (ownerTile s x.nsid x.r) →
      (findJournal s (ownerSlot s x.nsid x.r)).hot = false →
      (3 * dirtyLimit s (ownerTile s x.nsid x.r) ≤ 4 * dirtyFrames s (ownerTile s x.nsid x.r) → pageWbClass s x = some .b1) ∧
      (4 * dirtyFrames s (ownerTile s x.nsid x.r) < 3 * dirtyLimit s (ownerTile s x.nsid x.r) → ownerSlot s x.nsid x.r ∉ s.map.handBack →
        pageWbClass s x = none)) := by
  refine ⟨fun hd hge => ?_, fun hd hlt hcool => ⟨fun hge => ?_, fun hfew hback => ?_⟩⟩
  · simp [pageWbClass, Option.isNone_eq_false_iff.mpr hd, hge]
  · simp [pageWbClass, Option.isNone_eq_false_iff.mpr hd, Nat.not_le.mpr hlt, hcool, hge]
  · simp [pageWbClass, Option.isNone_eq_false_iff.mpr hd, Nat.not_le.mpr hlt, hcool, Nat.not_le.mpr hfew, hback]

/-! ### Directory records -/

/-- What is found of a directory record. -/
def findRecord (s : State) (slot n i : Nat) : Option DirRec := s.map.dirs.find? fun d => d.slot == slot && d.nsid == n && d.index == i

/-- The write-back of a directory record. -/
def dirCopied (s : State) (slot addr len : Nat) (d : DirRec) : DirRec :=
  { d with wb := some { addr := addr, len := len, snap := (findJournal s slot).head, first := none
                        cls := if (findJournal s slot).hot then .h1 else .b1 } }

theorem key_of_findRecord {d : DirRec} (h : findRecord s slot n i = some d) : (d.slot == slot && d.nsid == n && d.index == i) = true :=
  List.find?_some (p := fun d : DirRec => d.slot == slot && d.nsid == n && d.index == i) h

/-- A record found is changed by a change of its key's records. -/
theorem mem_dirs_updDir {d : DirRec} (h : d ∈ s.map.dirs) (hkey : (d.slot == slot && d.nsid == n && d.index == i) = true) (f : DirRec → DirRec) :
    f d ∈ (updDir slot n i f s).map.dirs := List.mem_map.mpr ⟨d, h, by rw [hkey, if_pos rfl]⟩

theorem dirStart_of_dirty {d : DirRec} (hd : findRecord s slot n i = some d) (hwb : d.wb = none) (hdirty : d.dirty.isSome = true)
    (hok : placeOk s (if adopted s slot n i then (slotTiles s).headD slot else slot) addr len = true) :
    dirStart slot n i addr len s = programRecord (.mapWrite true n i) (if (findJournal s slot).hot then .h1 else .b1) addr len
      (bandHeader 2 slot 256 n i (findJournal s slot).head len (dirBody s n i)) (dirBody s n i) (updDir slot n i (dirCopied s slot addr len) s) := by
  unfold findRecord at hd
  have hnone : d.dirty.isNone = false := Option.isNone_eq_false_iff.mpr hdirty
  simp only [dirStart, hd, hwb, hdirty, hok, hnone, Option.isSome_none, Bool.true_or, Bool.not_true, Bool.or_self, Bool.false_eq_true, if_false]
  rfl

/-! ### The journal's window -/

/-- From `s` to `t` nothing but the journals, the restart record and what follows it changed. -/
def OnlyWindow (s t : State) : Prop := t = { s with map := { s.map with journals := t.map.journals }, plp := t.plp, evr := t.evr }

theorem OnlyWindow.refl (s : State) : OnlyWindow s s := rfl

theorem OnlyWindow.trans {s t u : State} (h : OnlyWindow s t) (k : OnlyWindow t u) : OnlyWindow s u :=
  Eq.trans k (congrArg (fun x : State => { x with map := { x.map with journals := u.map.journals }, plp := u.plp, evr := u.evr }) h)

/-- A slot's journal at a checkpoint. -/
def checkpointed (slot : Nat) (s : State) : Journal :=
  { findJournal s slot with
    window := windowStart s slot, checkpoint := windowStart s slot
    tables := (s.map.dirs.filter fun d => d.slot == slot && 0 < d.len).map fun d => { nsid := d.nsid, index := d.index, addr := d.addr, len := d.len }
    entries := (findJournal s slot).entries.filter fun e =>
      decide (windowStart s slot ≤ e.pos) || decide ((findJournal s slot).durable ≤ e.pos) }

theorem mapCheckpoint_eq (slot : Nat) (s : State) : mapCheckpoint slot s = writeRestart 0 (putJournal (checkpointed slot s) s) := rfl

/-- The restart record that is written renews the last, names each slot's checkpoint, and changes nothing else of the bank. -/
theorem writeRestart_spec (reason : Nat) (s : State) :
    (writeRestart reason s = { s with plp := (writeRestart reason s).plp, evr := (writeRestart reason s).evr }) ∧
    (∃ rec', (writeRestart reason s).plp.record = some rec' ∧ rec'.ckpts = (s.map.journals.map fun j => (j.slot, j.checkpoint)) ∧
      rec'.recSeq = ((s.plp.record.map (·.recSeq)).getD 0) + 1) ∧
    (writeRestart reason s).plp = { s.plp with record := (writeRestart reason s).plp.record } := by
  unfold writeRestart
  exact ⟨rfl, ⟨_, rfl, rfl, rfl⟩, rfl⟩

theorem onlyWindow_mapCheckpoint (slot : Nat) (s : State) : OnlyWindow s (mapCheckpoint slot s) := by
  rw [mapCheckpoint_eq, (writeRestart_spec 0 _).1]
  rfl

theorem findJournal_mapCheckpoint (slot : Nat) (s : State) : findJournal (mapCheckpoint slot s) slot = checkpointed slot s := by
  rw [mapCheckpoint_eq, (writeRestart_spec 0 _).1]
  exact findJournal_putJournal_self (j := checkpointed slot s) (slot_findJournal s slot) s

/-- The journal with its window hot or cool (R154). -/
def warmed (slot : Nat) (s : State) : Journal :=
  let size := 100 * entriesMib ((findJournal s slot).head - windowStart s slot)
  let mib := s.tfld slot .map_paging_journal_window_mib
  { findJournal s slot with hot := decide (75 * mib ≤ size) || ((findJournal s slot).hot && decide (50 * mib ≤ size)) }

theorem windowCheck_eq (slot : Nat) (s : State) : windowCheck slot s =
    if s.tfld slot .map_paging_journal_window_mib ≤ 4 * entriesMib (windowStart s slot - (findJournal s slot).checkpoint) then
      mapCheckpoint slot (putJournal (warmed slot s) s) else putJournal (warmed slot s) s := rfl

theorem onlyWindow_windowCheck (slot : Nat) (s : State) : OnlyWindow s (windowCheck slot s) := by
  have hput : OnlyWindow s (putJournal (warmed slot s) s) := rfl
  rw [windowCheck_eq]
  exact iteInduction (motive := OnlyWindow s) (fun _ => hput.trans (onlyWindow_mapCheckpoint ..)) fun _ => hput

theorem findJournal_warmed (slot : Nat) (s : State) : findJournal (putJournal (warmed slot s) s) slot = warmed slot s :=
  findJournal_putJournal_self (j := warmed slot s) (slot_findJournal s slot) s

/-- A look at the window keeps the head, and every entry that is not programmed yet. -/
theorem findJournal_windowCheck (slot : Nat) (s : State) :
    (findJournal (windowCheck slot s) slot).head = (findJournal s slot).head ∧
    ∀ e, e ∈ (findJournal s slot).entries → (findJournal s slot).durable ≤ e.pos → e ∈ (findJournal (windowCheck slot s) slot).entries := by
  rw [windowCheck_eq]
  split
  · rw [findJournal_mapCheckpoint, checkpointed, findJournal_warmed]
    refine ⟨rfl, fun e he hd => List.mem_filter.mpr ⟨he, ?_⟩⟩
    have hd' : (warmed slot s).durable ≤ e.pos := hd
    simp [hd']
  · rw [findJournal_warmed]
    exact ⟨rfl, fun e he _ => he⟩

/-! ### The map band's check -/

/-- From `s` to `t` nothing but marks of regions, the groups whose map band is high and events changed. -/
def OnlyMarks (s t : State) : Prop := t = { s with map := { s.map with regions := t.map.regions, bandHigh := t.map.bandHigh }, evr := t.evr }

/-- A region that the check may mark. -/
def markIf (p : Region → Bool) (x : Region) : Region := if p x then { x with marked := true } else x

theorem keys_markIf (p : Region → Bool) (x : Region) : (markIf p x).nsid = x.nsid ∧ (markIf p x).r = x.r := by
  unfold markIf
  split <;> exact ⟨rfl, rfl⟩

/-- The check marks regions of those listed, and changes nothing else of them. -/
theorem mapBandCheck_spec (g : Eg) (s : State) : OnlyMarks s (mapBandCheck g s) ∧
    ∃ p, (mapBandCheck g s).map.regions = s.map.regions.map (markIf p) := by
  unfold mapBandCheck
  extract_lets live cap mine most _ s1 held
  have h1 : OnlyMarks s s1 ∧ ∃ p, s1.map.regions = s.map.regions.map (markIf p) := by
    refine iteInduction (motive := fun t : State => OnlyMarks s t ∧ ∃ p, t.map.regions = s.map.regions.map (markIf p)) (fun _ => ?_) fun _ => ?_
    · exact ⟨rfl, fun x => mine x && x.spans.length == most, rfl⟩
    · refine ⟨rfl, fun _ => false, ?_⟩
      have hid : markIf (fun _ => false) = id := funext fun x => if_neg Bool.false_ne_true
      rw [hid, List.map_id]
  obtain ⟨hframe, p, hp⟩ := h1
  have hhigh : ∀ l e, OnlyMarks s { s1 with map := { s1.map with bandHigh := l }, evr := e } := fun l e => by
    rw [OnlyMarks, hframe]
  refine iteInduction (motive := fun t : State => OnlyMarks s t ∧ ∃ p, t.map.regions = s.map.regions.map (markIf p)) (fun _ => ?_) fun _ => ?_
  · exact ⟨hhigh _ _, p, hp⟩
  · exact iteInduction (motive := fun t : State => OnlyMarks s t ∧ ∃ p, t.map.regions = s.map.regions.map (markIf p))
      (fun _ => ⟨hhigh _ s1.evr, p, hp⟩) fun _ => ⟨hframe, p, hp⟩

theorem bandCheckOf_spec (n : Nat) (s : State) : OnlyMarks s (bandCheckOf n s) ∧ ∃ p, (bandCheckOf n s).map.regions = s.map.regions.map (markIf p) := by
  unfold bandCheckOf
  split
  · exact mapBandCheck_spec ..
  · refine ⟨rfl, fun _ => false, ?_⟩
    have hid : markIf (fun _ => false) = id := funext fun x => if_neg Bool.false_ne_true
    rw [hid, List.map_id]

theorem findRegion_bandCheckOf {x : Region} {r : Nat} (k : Nat) (hx : findRegion s n r = some x) :
    ∃ m, findRegion (bandCheckOf k s) n r = some { x with marked := m } := by
  obtain ⟨-, p, hp⟩ := bandCheckOf_spec k s
  have hx' : (s.map.regions.find? fun y => y.nsid == n && y.r == r) = some x := hx
  have hfind : findRegion (bandCheckOf k s) n r = some (markIf p x) := by
    rw [findRegion, hp, findRegion_map (keys_markIf p), hx', Option.map_some]
  rw [hfind, markIf]
  split
  · exact ⟨true, rfl⟩
  · exact ⟨x.marked, rfl⟩

theorem findJournal_bandCheckOf (n k : Nat) (s : State) : findJournal (bandCheckOf n s) k = findJournal s k := by
  refine findJournal_congr ?_ k
  rw [(bandCheckOf_spec n s).1]

/-- A journal with one entry appended holds it at the old head. -/
theorem mem_journalWith_one (j : Journal) (e : JEntry) : { e with pos := j.head } ∈ (journalWith j [e]).entries := by
  have hone : (journalWith j [e]).entries = j.entries ++ [{ e with pos := j.head }] := by
    show (closeFull _).entries = _
    rw [closeFull_rest]
  rw [hone]
  exact List.mem_append_right _ (List.mem_singleton.mpr rfl)

end Sys2Proof.Machine
end

section
/-!
PROOFS. The end of a record's program and the quarters of a journal (R149, R152, R153, R155, R205): the settling of the statement on
write-back.
-/
namespace Sys2Proof.Machine
open Sys2Proof

variable {s : State} {slot n i addr len : Nat}

/-! ### A page's record programmed -/

/-- A region whose write-back is programmed (R155). -/
def writtenBack (x : Region) (w : WriteBack) (pos : Nat) : Region :=
  { x with
    wb := none, dirty := if w.move then x.dirty else w.first, olds := x.l2.toList ++ x.olds
    l2 := some { addr := w.addr, len := w.len, snap := w.snap, spans := w.spans, pos := pos } }

/-- The entry that names a page's new record. -/
def pageEntry (n i : Nat) (w : WriteBack) : JEntry := jentry .pageWritten n i 1 { zeroSpan with addr := w.addr, len := w.len } w.snap

/-- The region's new record entered, and its directory record dirty. -/
def pageNoted (n i : Nat) (x : Region) (w : WriteBack) (s : State) : State :=
  dirtyDir n i (findJournal s (ownerSlot s n i)).head
    (putRegion (writtenBack x w (findJournal s (ownerSlot s n i)).head) (appendJ (ownerSlot s n i) [pageEntry n i w] s))

theorem pageDone_of_programmed {x : Region} {w : WriteBack} {t : State} (hx : findRegion s n i = some x) (hw : x.wb = some w)
    (hend : endProgram (.mapWrite false n i) (ownerTile s n i) w.addr w.len s = some t) (ht : KeepsMap s t) :
    pageDone n i w.addr w.len s = serveMap (windowCheck (ownerSlot t n i) (bandCheckOf n (pageNoted n i x w t))) := by
  have hxt : getRegion t n i = x := getRegion_of_find ((findRegion_keepsMap ht n i).trans hx)
  have hf : (x.wb.filter fun v => v.addr == w.addr && v.len == w.len) = some w := by
    rw [hw, Option.filter_some, if_pos (by simp)]
  simp only [pageDone, hx, hf, hend, hxt]
  rfl

theorem pageDone_of_other (h : (∀ x w, findRegion s n i = some x → x.wb = some w → w.addr ≠ addr ∨ w.len ≠ len) ∨
    (s.media.ops.find? fun o => o.use == .mapWrite false n i).any (fun o => o.state == .waiting) = true) : pageDone n i addr len s = s := by
  cases hx : findRegion s n i with
  | none => simp only [pageDone, hx]
  | some x =>
    obtain h | h := h
    · have hf : (x.wb.filter fun w => w.addr == addr && w.len == len) = none := by
        cases hw : x.wb with
        | none => rfl
        | some w =>
          rw [Option.filter_some, if_neg]
          rw [Bool.and_eq_true, beq_iff_eq, beq_iff_eq]
          rintro ⟨ha, hl⟩
          exact (h x w hx hw).elim (fun hn => hn ha) fun hn => hn hl
      simp only [pageDone, hx, hf]
    · have hend : endProgram (.mapWrite false n i) (ownerTile s n i) addr len s = none := by
        cases ho : s.media.ops.find? fun o => o.use == .mapWrite false n i with
        | none => simp [ho] at h
        | some o =>
          rw [ho, Option.any_some] at h
          simp only [endProgram, ho, h, if_true]
      simp only [pageDone, hx, hend]
      split
      · next hnone => cases hnone
      · rfl

theorem journals_dirtyDir (n r pos k : Nat) (s : State) : findJournal (dirtyDir n r pos s) k = findJournal s k := by
  refine findJournal_congr ?_ k
  rw [onlySpans_dirtyDir n r pos s]

theorem regions_dirtyDir (n r pos a b : Nat) (s : State) : findRegion (dirtyDir n r pos s) a b = findRegion s a b := by
  unfold dirtyDir
  dsimp only
  split <;> rfl

theorem waiting_dirtyDir (n r pos : Nat) (s : State) : (dirtyDir n r pos s).map.waiting = s.map.waiting := by
  rw [onlySpans_dirtyDir n r pos s]

theorem waiting_windowCheck (slot : Nat) (s : State) : (windowCheck slot s).map.waiting = s.map.waiting := by
  rw [onlyWindow_windowCheck slot s]

theorem waiting_bandCheckOf (n : Nat) (s : State) : (bandCheckOf n s).map.waiting = s.map.waiting := by
  rw [(bandCheckOf_spec n s).1]

theorem regions_windowCheck (slot a b : Nat) (s : State) : findRegion (windowCheck slot s) a b = findRegion s a b := by
  refine findRegion_congr ?_ a b
  rw [onlyWindow_windowCheck slot s]

theorem writeBackProgrammed_page {x : Region} {w : WriteBack} (hx : findRegion s n i = some x) (hw : x.wb = some w) (hwait : s.map.waiting = [])
    (hops : ∀ o, o ∈ s.media.ops → o.use = .mapWrite false n i → o.state ≠ .waiting)
    (hdur : (findJournal s (ownerSlot s n i)).durable ≤ (findJournal s (ownerSlot s n i)).head) :
    Next (.writeBackProgrammed none n i w.addr w.len) s fun u =>
      (∃ m, findRegion u n i = some { writtenBack x w (findJournal s (ownerSlot s n i)).head with marked := m }) ∧
      (findJournal u (ownerSlot s n i)).head = (findJournal s (ownerSlot s n i)).head + 1 ∧
      ∃ e, e ∈ (findJournal u (ownerSlot s n i)).entries ∧ e.type = .pageWritten ∧ e.pos = (findJournal s (ownerSlot s n i)).head ∧ e.nsid = n ∧
        e.lba = i ∧ e.span.addr = w.addr ∧ e.seq = w.snap := by
  obtain ⟨t, hend, ht⟩ := endProgram_of_begun (ownerTile s n i) w.addr w.len hops
  have hslot : ownerSlot t n i = ownerSlot s n i := by rw [ownerSlot, ownerSlot, ht.2]
  have hjt : ∀ k, findJournal t k = findJournal s k := findJournal_congr (congrArg (·.journals) ht.1)
  have hgo := pageDone_of_programmed hx hw hend ht
  have hnoted : findRegion (pageNoted n i x w t) n i = some (writtenBack x w (findJournal s (ownerSlot s n i)).head) := by
    rw [pageNoted, regions_dirtyDir, hslot, hjt]
    exact findRegion_putRegion_self (x := writtenBack x w (findJournal s (ownerSlot s n i)).head)
      (show x.nsid = n from nsid_of_findRegion hx) (show x.r = i from r_of_findRegion hx) _
  have hjournal : findJournal (bandCheckOf n (pageNoted n i x w t)) (ownerSlot s n i) =
      journalWith (findJournal s (ownerSlot s n i)) [pageEntry n i w] := by
    rw [findJournal_bandCheckOf, pageNoted, journals_dirtyDir, hslot, ← hjt]
    exact findJournal_appendJ_self ..
  obtain ⟨m, hm⟩ := findRegion_bandCheckOf n hnoted
  obtain ⟨hhead, hentries⟩ := findJournal_windowCheck (ownerSlot s n i) (bandCheckOf n (pageNoted n i x w t))
  rw [hjournal] at hhead hentries
  have hempty : (windowCheck (ownerSlot s n i) (bandCheckOf n (pageNoted n i x w t))).map.waiting = [] := by
    rw [waiting_windowCheck, waiting_bandCheckOf, pageNoted, waiting_dirtyDir]
    exact (congrArg (·.waiting) ht.1).trans hwait
  rw [hslot, serveMap_of_empty hempty] at hgo
  refine ⟨_, congrArg Host.Outcome.next hgo, ⟨m, (regions_windowCheck ..).trans hm⟩, hhead.trans (by simp), ?_⟩
  exact ⟨_, hentries _ (mem_journalWith_one _ (pageEntry n i w)) (by rw [durable_journalWith]; exact hdur), rfl, rfl, rfl, rfl, rfl, rfl⟩

/-! ### A directory record programmed -/

/-- The entry that names a new directory record. -/
def dirEntry (n i : Nat) (w : DirWb) : JEntry := jentry .dirWritten n i 1 { zeroSpan with addr := w.addr, len := w.len } w.snap

/-- A directory record whose write-back is programmed. -/
def dirWritten (w : DirWb) (d : DirRec) : DirRec := { d with addr := w.addr, len := w.len, wb := none, dirty := d.wb.bind (·.first) }

theorem dirDone_of_programmed {d : DirRec} {w : DirWb} {t : State} (hd : findRecord s slot n i = some d) (hw : d.wb = some w)
    (hend : endProgram (.mapWrite true n i) slot w.addr w.len s = some t) :
    dirDone slot n i w.addr w.len s = windowCheck slot (bandCheckOf n (updDir slot n i (dirWritten w) (appendJ slot [dirEntry n i w] t))) := by
  unfold findRecord at hd
  have hf : (d.wb.filter fun v => v.addr == w.addr && v.len == w.len) = some w := by
    rw [hw, Option.filter_some, if_pos (by simp)]
  simp only [dirDone, hd, hf, hend]
  rfl

theorem dirDone_of_other (h : ∀ d w, d ∈ s.map.dirs → d.slot = slot → d.nsid = n → d.index = i → d.wb = some w → w.addr ≠ addr ∨ w.len ≠ len) :
    dirDone slot n i addr len s = s := by
  cases hd : findRecord s slot n i with
  | none =>
    unfold findRecord at hd
    simp only [dirDone, hd]
  | some d =>
    have hkey := key_of_findRecord hd
    simp only [Bool.and_eq_true, beq_iff_eq] at hkey
    have hmem : d ∈ s.map.dirs := List.mem_of_find?_eq_some hd
    have hf : (d.wb.filter fun w => w.addr == addr && w.len == len) = none := by
      cases hw : d.wb with
      | none => rfl
      | some w =>
        rw [Option.filter_some, if_neg]
        rw [Bool.and_eq_true, beq_iff_eq, beq_iff_eq]
        rintro ⟨ha, hl⟩
        exact (h d w hmem hkey.1.1 hkey.1.2 hkey.2 hw).elim (fun hn => hn ha) fun hn => hn hl
    unfold findRecord at hd
    simp only [dirDone, hd, hf]

theorem writeBackProgrammed_dir {d : DirRec} {w : DirWb} (hd : findRecord s slot n i = some d) (hw : d.wb = some w)
    (hops : ∀ o, o ∈ s.media.ops → o.use = .mapWrite true n i → o.state ≠ .waiting) :
    Next (.writeBackProgrammed (some slot) n i w.addr w.len) s fun u =>
      { d with addr := w.addr, len := w.len, wb := none, dirty := w.first } ∈ u.map.dirs ∧
      (findJournal u slot).head = (findJournal s slot).head + 1 := by
  obtain ⟨t, hend, ht⟩ := endProgram_of_begun slot w.addr w.len hops
  have hmem : d ∈ (appendJ slot [dirEntry n i w] t).map.dirs := by
    show d ∈ t.map.dirs
    rw [ht.1]
    exact List.mem_of_find?_eq_some hd
  have hchanged := mem_dirs_updDir hmem (key_of_findRecord hd) (dirWritten w)
  have hdirs : ∀ x : State, (windowCheck slot (bandCheckOf n x)).map.dirs = x.map.dirs := fun x => by
    rw [onlyWindow_windowCheck slot (bandCheckOf n x), (bandCheckOf_spec n x).1]
  have hw' : dirWritten w d = { d with addr := w.addr, len := w.len, wb := none, dirty := w.first } := by
    simp [dirWritten, hw]
  refine ⟨_, congrArg Host.Outcome.next (dirDone_of_programmed hd hw hend), ?_, ?_⟩
  · rw [hdirs, ← hw']
    exact hchanged
  · rw [(findJournal_windowCheck slot _).1, findJournal_bandCheckOf]
    have hput : findJournal (updDir slot n i (dirWritten w) (appendJ slot [dirEntry n i w] t)) slot =
        journalWith (findJournal t slot) [dirEntry n i w] := findJournal_appendJ_self ..
    rw [hput, head_journalWith, findJournal_congr (congrArg (·.journals) ht.1)]
    rfl

/-! ### Entries mirrored -/

/-- A mirrored update of a region noted in its command. -/
def mirroredIn (r : Nat) (c : Cmd) : Cmd :=
  { c with updates := c.updates.map fun u => if u.region == r && u.applied then { u with mirrored := true } else u }

/-- A journal with the entries of an update mirrored. -/
def entriesMirrored (v : Upd) (j : Journal) : Journal :=
  { j with entries := j.entries.map fun e => if v.firstPos ≤ e.pos && e.pos ≤ v.lastPos then { e with mirrored := true } else e }

theorem entryMirrored_of_up {id r : Nat} {c : Cmd} {v : Upd} (hc : findCmd s id = some c)
    (hv : (c.updates.find? fun u => u.region == r && u.applied) = some v) (hup : tileUp s (mirrorOf s (ownerTile s c.cap.nsid r)) = true) :
    entryMirrored id r s = updCmd id (mirroredIn r) (putJournal (entriesMirrored v (findJournal s (ownerSlot s c.cap.nsid r))) s) := by
  simp only [entryMirrored, hc, hv, hup, Bool.not_true, Bool.false_eq_true, if_false]
  rfl

theorem journalEntryMirrored_spec {id r : Nat} {c : Cmd} {v : Upd} (hc : findCmd s id = some c)
    (hv : (c.updates.find? fun u => u.region == r && u.applied) = some v) (hup : tileUp s (mirrorOf s (ownerTile s c.cap.nsid r)) = true) :
    Next (.journalEntryMirrored id r) s fun u =>
      u = { s with host := { s.host with cmds := u.host.cmds }, map := { s.map with journals := u.map.journals } } ∧
      findCmd u id = some { c with
        updates := c.updates.map fun v => if v.region = r ∧ v.applied = true then { v with mirrored := true } else v } ∧
      findJournal u (ownerSlot s c.cap.nsid r) = { findJournal s (ownerSlot s c.cap.nsid r) with
        entries := (findJournal s (ownerSlot s c.cap.nsid r)).entries.map fun e =>
          if v.firstPos ≤ e.pos ∧ e.pos ≤ v.lastPos then { e with mirrored := true } else e } ∧
      ∀ j, j ≠ id → findCmd u j = findCmd s j := by
  have hcmd := fun k => findCmd_updCmd (putJournal (entriesMirrored v (findJournal s (ownerSlot s c.cap.nsid r))) s) k id (f := mirroredIn r)
    fun _ => rfl
  have hput : ∀ k, findCmd (putJournal (entriesMirrored v (findJournal s (ownerSlot s c.cap.nsid r))) s) k = findCmd s k := fun _ => rfl
  refine ⟨_, congrArg Host.Outcome.next (entryMirrored_of_up hc hv hup), rfl, ?_, ?_, fun j hj => ?_⟩
  · rw [hcmd, if_pos rfl, hput, hc, Option.map_some]
    simp [mirroredIn]
  · refine (findJournal_putJournal_self (j := entriesMirrored v (findJournal s (ownerSlot s c.cap.nsid r)))
      (slot_findJournal s (ownerSlot s c.cap.nsid r)) s).trans ?_
    simp [entriesMirrored]
  · rw [hcmd, if_neg hj, hput]

/-! ### Quarters -/

/-- A journal whose open quarter is padded and closed. -/
def padded (j : Journal) : Journal :=
  { j with
    entries := j.entries ++ [{ jentry .pad 0 0 (openStart j + 8192 - j.head) zeroSpan 0 with pos := j.head }]
    head := j.head + (openStart j + 8192 - j.head), closed := j.closed ++ [j.head + (openStart j + 8192 - j.head)] }

theorem quarterTimer_of_open (hopen : openStart (findJournal s slot) < (findJournal s slot).head) (hroom : (findJournal s slot).closed.length < 4) :
    quarterTimer slot s = putJournal (padded (findJournal s slot)) s := by
  have hfull : journalFull (findJournal s slot) = false := by simpa [journalFull] using hroom
  simp only [quarterTimer, hfull, Bool.false_eq_true, if_false, padQuarter, if_pos hopen, quarter, padded]

theorem quarterTimer_of_closed (h : (findJournal s slot).head ≤ openStart (findJournal s slot) ∨ 4 ≤ (findJournal s slot).closed.length) :
    quarterTimer slot s = s ∨ quarterTimer slot s = putJournal (findJournal s slot) s := by
  by_cases hfull : journalFull (findJournal s slot) = true
  · exact .inl (if_pos hfull)
  · refine .inr ?_
    obtain h | h := h
    · have hpad : padQuarter (findJournal s slot) = findJournal s slot := by simp [padQuarter, Nat.not_lt.mpr h]
      exact (if_neg hfull).trans (by rw [hpad])
    · exact absurd (decide_eq_true h) hfull

theorem map_drainPump (s : State) : (drainPump s).map = s.map := by rw [(onlyHostSide_drainPump s).1]

/-- A segment that is programmed. -/
def segmentNoted (slot e : Nat) (rest : List Nat) (s : State) : State :=
  putJournal { findJournal s slot with durable := e, closed := rest } s

theorem segmentDone_of_closed {e : Nat} {rest : List Nat} (h : (findJournal s slot).closed = e :: rest) : segmentDone slot s =
    serveMap (drainPump (dropOlds slot e (chargeOver slot
      (Meter.addMedia ((262144 + 64 * 32) * (dataUnits s 0 + 2) / dataUnits s 0)) (segmentNoted slot e rest s)))) := by
  simp only [segmentDone, h]
  rfl

theorem findJournal_segmentDone {e : Nat} {rest : List Nat} (h : (findJournal s slot).closed = e :: rest) (hwait : s.map.waiting = []) :
    findJournal (segmentDone slot s) slot = { findJournal s slot with durable := e, closed := rest } := by
  have hempty : (drainPump (dropOlds slot e (chargeOver slot
      (Meter.addMedia ((262144 + 64 * 32) * (dataUnits s 0 + 2) / dataUnits s 0)) (segmentNoted slot e rest s)))).map.waiting = [] := by
    rw [map_drainPump]
    exact hwait
  rw [segmentDone_of_closed h, serveMap_of_empty hempty]
  refine (findJournal_congr (congrArg (·.journals) (map_drainPump _)) slot).trans ?_
  exact findJournal_putJournal_self (j := { findJournal s slot with durable := e, closed := rest }) (slot_findJournal s slot) s

theorem mapCheckpoint_spec (slot : Nat) (s : State) :
    Next (.mapCheckpoint slot) s fun u => u = { s with map := { s.map with journals := u.map.journals }, plp := u.plp, evr := u.evr } ∧
      findJournal u slot = checkpointed slot s ∧
      (∃ rec', u.plp.record = some rec' ∧ (slot, windowStart s slot) ∈ rec'.ckpts ∧
        rec'.recSeq = ((s.plp.record.map (·.recSeq)).getD 0) + 1) ∧
      u.plp = { s.plp with record := u.plp.record } := by
  obtain ⟨-, ⟨rec', hrec, hck, hseq⟩, hplp⟩ := writeRestart_spec 0 (putJournal (checkpointed slot s) s)
  refine ⟨mapCheckpoint slot s, rfl, onlyWindow_mapCheckpoint slot s, findJournal_mapCheckpoint slot s, ⟨rec', hrec, ?_, hseq⟩, hplp⟩
  rw [hck]
  refine List.mem_map.mpr ⟨checkpointed slot s, List.mem_append_right _ (List.mem_singleton.mpr rfl), ?_⟩
  rw [show (checkpointed slot s).slot = slot from slot_findJournal s slot]
  rfl

/-- Settles O45: each step of write-back and of the journal by its equation. -/
theorem writeBackAndJournal : Obligations.WriteBackAndJournal := by
  unfold Obligations.WriteBackAndJournal
  refine ⟨fun n i addr len x s hx => ⟨fun c hwb hok hc => ?_, fun l hwb hok hc hl hmove => ?_,
      fun h => ⟨s, congrArg Host.Outcome.next (pageStart_of_none hx h), rfl⟩⟩,
    fun x s => pageWbClass_spec x s, fun slot n i addr len d s hd hwb hdirty hok => ?_,
    fun n i x w s hx hw hwait hops hdur => writeBackProgrammed_page hx hw hwait hops hdur,
    fun n i addr len s h => ⟨s, congrArg Host.Outcome.next (pageDone_of_other h), rfl⟩,
    fun slot n i addr len s h => ⟨s, congrArg Host.Outcome.next (dirDone_of_other h), rfl⟩,
    fun slot n i d w s hd hw hops => writeBackProgrammed_dir hd hw hops,
    fun id r c v s hc hv => ⟨fun hup => journalEntryMirrored_spec hc hv hup, fun hdown => ⟨s, congrArg Host.Outcome.next ?_, rfl⟩⟩,
    fun slot s => ⟨fun hopen hroom => ?_, fun h => ?_, fun e rest h => ⟨_, congrArg Host.Outcome.next (segmentDone_of_closed h), rfl, fun hwait => ?_⟩,
      fun h => ⟨s, congrArg Host.Outcome.next (by simp only [segmentDone, h]), rfl⟩, mapCheckpoint_spec slot s⟩,
    fun slot s hfew => ?_⟩
  · obtain ⟨hmap, hop, hout⟩ := programRecord_spec (.mapWrite false n i) c addr len
      (pageHeader s n i len (findJournal s (ownerSlot s n i)).head x.spans) (mapBody x.spans) (putRegion (pageCopied s n i addr len x c) s)
    obtain ⟨hself, hother⟩ := findRegion_copied (y := pageCopied s n i addr len x c)
      (show x.nsid = n from nsid_of_findRegion hx) (show x.r = i from r_of_findRegion hx) hmap
    exact ⟨_, congrArg Host.Outcome.next (pageStart_of_due hx hwb hok hc), hself, hother, hop, hout⟩
  · obtain ⟨hmap, ⟨o, ho, huse, hkind, hcls, haddr, -⟩, -⟩ := programRecord_spec (.mapWrite false n i) .b3 addr len
      (pageHeader s n i len l.snap l.spans) (mapBody l.spans) (putRegion (recordCopied addr len x l) s)
    obtain ⟨hself, -⟩ := findRegion_copied (y := recordCopied addr len x l)
      (show x.nsid = n from nsid_of_findRegion hx) (show x.r = i from r_of_findRegion hx) hmap
    exact ⟨_, congrArg Host.Outcome.next (pageStart_of_move hx hwb hok hc hl hmove), hself, o, ho, huse, hkind, hcls, haddr⟩
  · obtain ⟨hmap, ⟨o, ho, huse, hkind, -, haddr, hdie⟩, -⟩ := programRecord_spec (.mapWrite true n i)
      (if (findJournal s slot).hot then .h1 else .b1) addr len
      (bandHeader 2 slot 256 n i (findJournal s slot).head len (dirBody s n i)) (dirBody s n i) (updDir slot n i (dirCopied s slot addr len) s)
    refine ⟨_, congrArg Host.Outcome.next (dirStart_of_dirty hd hwb hdirty hok), ?_, o, ho, huse, hkind, haddr, hdie⟩
    rw [hmap.1]
    exact mem_dirs_updDir (List.mem_of_find?_eq_some hd) (key_of_findRecord hd) (dirCopied s slot addr len)
  · simp [entryMirrored, hc, hv, hdown]
  · refine ⟨_, congrArg Host.Outcome.next (quarterTimer_of_open hopen hroom), rfl, ?_, fun k hk => ?_⟩
    · exact findJournal_putJournal_self (j := padded (findJournal s slot)) (slot_findJournal s slot) s
    · rw [findJournal_putJournal, if_neg (fun h => hk (h.trans (slot_findJournal s slot)))]
  · obtain h | h := quarterTimer_of_closed h
    · exact ⟨s, congrArg Host.Outcome.next h, rfl, fun _ => rfl⟩
    · refine ⟨_, congrArg Host.Outcome.next h, rfl, fun k => ?_⟩
      rw [findJournal_putJournal]
      split
      · next hk => rw [hk, slot_findJournal]
      · rfl
  · rw [← segmentDone_of_closed h]
    exact findJournal_segmentDone h hwait
  · have hcheck : windowCheck slot s = putJournal (warmed slot s) s := by
      rw [windowCheck_eq, if_neg (show ¬_ ≤ 4 * entriesMib _ from Nat.not_le.mpr hfew)]
    rw [hcheck, findJournal_warmed]
    rfl

end Sys2Proof.Machine
end

section
/-!
PROOFS. What a restart leaves of the power-loss unit, the replay and the leases on its way (R159, R245, R276, R290, R315, R316).
-/
namespace Sys2Proof.Machine
open Sys2Proof

variable {s t u : State}

/-- From `s` to `t` the power-loss unit, the slots that replay and the sequence leases are as before. -/
def SameStart (s t : State) : Prop := t.plp = s.plp ∧ t.map.replaying = s.map.replaying ∧ t.wr.leases = s.wr.leases

theorem SameStart.refl (s : State) : SameStart s s := ⟨rfl, rfl, rfl⟩

theorem SameStart.trans (h : SameStart s t) (k : SameStart t u) : SameStart s u :=
  ⟨k.1.trans h.1, k.2.1.trans h.2.1, k.2.2.trans h.2.2⟩

theorem SameStart.foldl {α : Type} {f : State → α → State} (h : ∀ s x, SameStart s (f s x)) :
    ∀ (l : List α) (s : State), SameStart s (l.foldl f s)
  | [], s => .refl s
  | x :: l, s => (h s x).trans (foldl h l (f s x))

theorem OnlyHostSide.sameStart (h : OnlyHostSide s t) : SameStart s t := by
  rw [h.1]
  exact ⟨rfl, rfl, rfl⟩

theorem OnlyDies.sameStart (h : OnlyDies s t) : SameStart s t := by
  rw [h]
  exact ⟨rfl, rfl, rfl⟩

theorem OnlyBands.sameStart (h : OnlyBands s t) : SameStart s t := by
  rw [h]
  exact ⟨rfl, rfl, rfl⟩

theorem sameStart_sealBand (sg b : Nat) (s : State) : SameStart s (sealBand sg b s) := by
  cases h : findBand s sg b with
  | none =>
    simp only [sealBand, h]
    exact .refl s
  | some x => exact (sealBand_spec h).1.sameStart

theorem sameStart_closeRow (sg b i : Nat) (s : State) : SameStart s (closeRow sg b i s) := by
  unfold closeRow
  split
  · exact .refl s
  · split <;> exact ⟨rfl, rfl, rfl⟩

theorem sameStart_expireRows (s : State) : SameStart s (expireRows s) := by
  unfold expireRows
  refine SameStart.foldl (fun s r => ?_) _ s
  refine SameStart.trans ?_ (sameStart_closeRow ..)
  exact ⟨rfl, rfl, rfl⟩

theorem sameStart_releaseRow (sg b i : Nat) (s : State) : SameStart s (releaseRow sg b i s) := by
  rw [releaseRow_eq]
  exact SameStart.trans (t := rowFlashed sg b i s) ⟨rfl, rfl, rfl⟩ (onlyHostSide_drainPump _).sameStart

theorem sameStart_reprogramRow (sg b i : Nat) (s : State) : SameStart s (reprogramRow sg b i s) := by
  unfold reprogramRow
  split
  · exact .refl s
  · exact SameStart.trans ⟨rfl, rfl, rfl⟩ (sameStart_sealBand ..)

theorem sameStart_keepRows (kept : List ReadRow) (s : State) : SameStart s (keepRows kept s) := by
  unfold keepRows
  refine SameStart.foldl (fun s r => ?_) _ s
  split
  · exact .refl s
  · refine SameStart.trans ?_ (⟨rfl, rfl, rfl⟩ : SameStart (releaseRow r.sg r.band r.idx _) _)
    exact SameStart.trans ⟨rfl, rfl, rfl⟩ (sameStart_releaseRow ..)

theorem sameStart_replaceRows (s : State) : SameStart s (replaceRows s) := by
  unfold replaceRows
  exact SameStart.foldl (fun s (r : Row) => sameStart_reprogramRow r.sg r.band r.idx s) _ s

theorem sameStart_withLost (l : List LostRange) (n : Nat) (s : State) : SameStart s (withLost l n s) := ⟨rfl, rfl, rfl⟩

theorem sameStart_enterLost (cause sg n die : Nat) (rs : List (Nat × Nat)) (s : State) : SameStart s (enterLost cause sg n die rs s) :=
  SameStart.foldl (fun s _ => (sameStart_withLost _ _ s).trans (onlyHostSide_smartRefresh _).sameStart) rs s

theorem sameStart_loseExtent (e : FExt) (blocks : List Nat) (cause : Nat) (s : State) : SameStart s (loseExtent e blocks cause s) :=
  SameStart.trans ⟨rfl, rfl, rfl⟩ (sameStart_enterLost ..)

theorem sameStart_loseMissing (d : Option Dump) (s : State) : SameStart s (loseMissing d s) := by
  unfold loseMissing
  refine SameStart.trans ⟨rfl, rfl, rfl⟩ (SameStart.foldl (fun s e => ?_) _ _)
  dsimp only
  split
  · exact .refl s
  · exact SameStart.trans ⟨rfl, rfl, rfl⟩ (sameStart_loseExtent ..)

theorem sameStart_evrRestart (ok : Bool) (s : State) : SameStart s (evrRestart ok s) := by
  unfold evrRestart
  dsimp only
  split <;> exact ⟨rfl, rfl, rfl⟩

theorem sameStart_loadKey (t n : Nat) (k : Bytes × Bytes) (s : State) : SameStart s (loadKey t n k s) := by
  unfold loadKey
  split <;> exact ⟨rfl, rfl, rfl⟩

theorem sameStart_reloadKeys (s : State) : SameStart s (reloadKeys s) := by
  unfold reloadKeys
  refine SameStart.trans ?_ ⟨rfl, rfl, rfl⟩
  exact SameStart.foldl (fun s (x : Nat × Bytes × Bytes) => SameStart.foldl (fun s t => sameStart_loadKey t x.1 x.2 s) _ s) _ s

theorem sameStart_enqueueErases (x : Band) (s : State) : SameStart s (enqueueErases x s) := by
  unfold enqueueErases
  refine SameStart.foldl (fun s y => ?_) _ s
  dsimp only
  split
  · exact .refl s
  · exact (onlyDies_addOp ..).sameStart

theorem sameStart_healRow (sg b m : Nat) (s : State) : SameStart s (healRow sg b m s) := by
  unfold healRow
  split
  · refine iteInduction (motive := SameStart s) (fun _ => .refl s) fun _ => ?_
    exact SameStart.foldl (fun s k => (onlyDies_addOp _ s).sameStart) _ s
  · exact .refl s

theorem sameStart_restartBands (s : State) : SameStart s (restartBands s) := by
  unfold restartBands
  dsimp only
  refine SameStart.trans ?_ (SameStart.foldl (fun s (x : Subst) => sameStart_healRow x.sg x.band x.member s) _ _)
  exact SameStart.trans ⟨rfl, rfl, rfl⟩ (SameStart.foldl (fun s b => sameStart_enqueueErases b s) _ _)

/-! ### The map (R139, R158, R159) -/

theorem OnlySpans.sameStart (h : OnlySpans s t) : SameStart s t := by
  rw [h]
  exact ⟨rfl, rfl, rfl⟩

theorem sameStart_rebuildRegion (n r : Nat) (s : State) : SameStart s (rebuildRegion n r s) := by
  unfold rebuildRegion
  dsimp only
  refine iteInduction (motive := SameStart s) (fun _ => .refl s) fun _ => ?_
  have hspans (x : Region) (l : List Span) (d : Option Nat) : SameStart s (setSpans n r l d (putRegion x s)) :=
    SameStart.trans ⟨rfl, rfl, rfl⟩ (onlySpans_setSpans ..).sameStart
  split
  · exact (hspans ..).trans (onlyPaging_takeFrame ..).onlySpans.sameStart
  · exact hspans ..

theorem sameStart_replayForward (e : JEntry) (s : State) : SameStart s (replayForward e s) := by
  unfold replayForward
  dsimp only
  split
  · exact .refl s
  · exact SameStart.trans (onlySpans_storeSpans ..).sameStart ⟨rfl, rfl, rfl⟩

/-- The map as it is found before its regions are rebuilt. -/
def mapFound (s : State) : State :=
  { s with map := { s.map with
    journals := s.map.journals.map (journalFound s), replaying := presentTiles s, forwards := [], waiting := [], hands := []
    dirs := s.map.dirs.map fun d => { d with wb := none } } }

theorem SameStart.goneCleared (h : SameStart s t) : SameStart s { t with map := { t.map with gone := [] } } := h

theorem sameStart_rebuildMap (s : State) : SameStart (mapFound s) (rebuildMap s) := by
  unfold rebuildMap
  dsimp only
  refine SameStart.goneCleared (SameStart.trans ?_ (SameStart.foldl (fun s (e : JEntry) => sameStart_replayForward e s) _ _))
  exact SameStart.foldl (fun s (k : Nat × Nat) => sameStart_rebuildRegion k.1 k.2 s) _ (mapFound s)

/-- At a restart every tile's slot replays, no lease is left, and the power-loss unit is as before. -/
theorem restartMap_spec (s : State) :
    (restartMap s).plp = s.plp ∧ (restartMap s).map.replaying = presentTiles s ∧ (restartMap s).wr.leases = [] := by
  obtain ⟨hplp, hrep, -⟩ := sameStart_rebuildMap s
  exact ⟨hplp, hrep, rfl⟩

end Sys2Proof.Machine
end

section
/-!
PROOFS. Power failures, the dump and the restart: what POWER_LOSS and its end leave (R298, R299, R312 to R318).
-/
namespace Sys2Proof.Machine
open Sys2Proof

variable {s t u : State} {d : Dump}

/-! ### The restart (R305, R314 to R317) -/

theorem sameStart_resumeSweeps (s : State) : SameStart s (resumeSweeps s) := ⟨rfl, rfl, rfl⟩

/-- The state that a restart starts from, with the extents that were staged. -/
def stagedAtStart (s : State) : State :=
  { s with wr := { s.wr with exts := s.wr.exts.filter fun e => e.stage != .toPlace && e.stage != .sent } }

/-- Up to the power-loss unit, a restart leaves its record, the replay and the leases as the map's restart does. -/
theorem restart_of_running (kept : List ReadRow) (storeOk : Bool) (hpkg : s.island.pkg = 2) (hstarted : s.plp.started = false)
    (hrun : s.fw.running = true) (hrec : s.fw.recovery = false) :
    ∃ off x, restart kept storeOk s = smartRefresh (writeRestart 0 (wtEnter (restartPlp off x))) ∧
      SameStart (restartMap (stagedAtStart s)) x := by
  unfold restart
  rw [if_neg (by simp [hpkg, hstarted, hrun, hrec])]
  extract_lets reason first off whole staged w s1 h s2 s3 y s4
  have h1 : SameStart (restartMap (stagedAtStart s)) s1 :=
    ((sameStart_evrRestart ..).trans (sameStart_reloadKeys _)).trans (sameStart_keepRows ..)
  clear_value s1
  have h2 : SameStart s1 s2 := by
    refine iteInduction (motive := SameStart s1) (fun _ => .refl s1) fun _ => ?_
    refine SameStart.trans ?_ (onlyHostSide_logEv ..).sameStart
    exact SameStart.trans ⟨rfl, rfl, rfl⟩ (sameStart_loseMissing ..)
  clear_value s2
  have h3 : SameStart s2 s3 := ((sameStart_replaceRows s2).trans (sameStart_restartBands _)).trans (sameStart_resumeSweeps _)
  clear_value s3
  have h4 : SameStart s3 s4 := ⟨rfl, rfl, rfl⟩
  exact ⟨off, s4, rfl, ((h1.trans h2).trans h3).trans h4⟩

/-- The power-loss unit with the mode entered. -/
theorem sameStart_wtEnter (s : State) : SameStart { s with plp := { s.plp with writeThrough := true } } (wtEnter s) := by
  unfold wtEnter
  refine SameStart.trans ?_ (sameStart_expireRows _)
  exact ⟨rfl, rfl, rfl⟩

theorem restart_next (kept : List ReadRow) (ok : Bool) (s : State) (hpkg : s.island.pkg = 2) (hstarted : s.plp.started = false)
    (hrun : s.fw.running = true) (hrec : s.fw.recovery = false) :
    Next (.restart kept ok) s fun t => t.plp.started = true ∧ t.plp.writeThrough = true ∧ t.plp.causes.contains 2 = true ∧
      t.plp.holdupEn = false ∧ t.plp.pfailDriven = false ∧ t.map.replaying = presentTiles s ∧ t.wr.leases = [] ∧
      (∃ r, t.plp.record = some r ∧ r.reason = 0 ∧ r.wt = true ∧
        r.recSeq = ((s.plp.record.map (·.recSeq)).getD 0) + 1) := by
  obtain ⟨off, x, heq, hplp1, hrep1, hlease1⟩ := restart_of_running kept ok hpkg hstarted hrun hrec
  refine ⟨_, congrArg Host.Outcome.next heq, ?_⟩
  obtain ⟨hplp0, hrep0, hlease0⟩ := restartMap_spec (stagedAtStart s)
  have hrecord : x.plp.record = s.plp.record := congrArg (·.record) (hplp1.trans hplp0)
  obtain ⟨hplp2, hrep2, hlease2⟩ := sameStart_wtEnter (restartPlp off x)
  generalize wtEnter (restartPlp off x) = y at hplp2 hrep2 hlease2
  obtain ⟨hplp3, hrep3, hlease3⟩ := (onlyHostSide_smartRefresh (writeRestart 0 y)).sameStart
  have hrep : (smartRefresh (writeRestart 0 y)).map.replaying = presentTiles s := ((hrep3.trans hrep2).trans hrep1).trans hrep0
  have hlease : (smartRefresh (writeRestart 0 y)).wr.leases = [] := ((hlease3.trans hlease2).trans hlease1).trans hlease0
  rw [hplp3]
  refine ⟨congrArg (·.started) hplp2, congrArg (·.writeThrough) hplp2, ?_, congrArg (·.holdupEn) hplp2, congrArg (·.pfailDriven) hplp2,
    hrep, hlease, _, rfl, ?_, ?_, ?_⟩
  · have hcauses : (writeRestart 0 y).plp.causes = (restartPlp off x).plp.causes := congrArg (·.causes) hplp2
    rw [hcauses]
    simp [restartPlp, updPlp, emit]
  · have hoff : y.plp.offReady = false := congrArg (·.offReady) hplp2
    simp only [hoff, Bool.false_eq_true, if_false]
  · exact congrArg (·.writeThrough) hplp2
  · have hrec' : y.plp.record = s.plp.record := (congrArg (·.record) hplp2).trans hrecord
    simp only [hrec']

theorem restart_of_started (kept : List ReadRow) (ok : Bool) (s : State) (h : s.plp.started = true) :
    Next (.restart kept ok) s fun t => t = s :=
  ⟨_, congrArg Host.Outcome.next (if_pos (by simp [h])), rfl⟩

/-! ### A power failure (R298, R312) -/

/-- The dump that a failure opens. -/
def dumpOpened (s : State) : Dump :=
  { seq := s.island.cycles, reported := [], dirs := [], primaryMs := none
    exts := if s.plp.started then (presentTiles s).flatMap fun t => (s.wr.exts.filter (dumpedBy s t)).map fun e => (t, e)
      else (s.plp.dump.map dumpedExts).getD []
    heads := s.map.journals.map (fun j => (j.slot, j.head)), tails := s.red.sjs.map (fun j => (j.sg, j.tail)),
    complete := false, restored := false }

/-- The power-loss unit at a failure. -/
def plpFailed (s : State) : Plp :=
  { s.plp with
    holdupEn := true, hutestEn := false, pfailDriven := true, dump := some (dumpOpened s), test := none,
    result := if s.plp.test.isSome then 6 else s.plp.result, testDue := s.plp.testDue || s.plp.test.isSome }

theorem declareFailure_of_on (hpkg : s.island.pkg = 2) (hdump : ∀ d, s.plp.dump = some d → d.restored = true) :
    declareFailure s = emit (.pins [(.holdupEn, true), (.hutestEn, false), (.pfailL, false)])
      (stopTiles { s with evr := { s.evr with dumped := [], archiving := none }, plp := plpFailed s }) := by
  have hnone : (s.plp.dump.any fun d => !d.restored) = false := by
    rw [Option.any_eq_false_iff_get]
    intro h
    simpa using hdump _ (Option.some_get h).symm
  unfold declareFailure
  rw [if_neg (by simp [hpkg, hnone])]
  rfl

/-- Every staged extent that a tile dumps is in its dump. -/
theorem mem_dumpOpened (hstarted : s.plp.started = true) {e : Ext} {a : Nat} (he : e ∈ s.wr.exts) (ha : a ∈ presentTiles s)
    (hby : dumpedBy s a e = true) : (a, e) ∈ (dumpOpened s).exts := by
  simp only [dumpOpened, hstarted, if_true, List.mem_flatMap, List.mem_map, List.mem_filter]
  exact ⟨a, ha, e, ⟨he, hby⟩, rfl⟩

theorem powerFailDeclared_next (s : State) (hpkg : s.island.pkg = 2) (hdump : ∀ d, s.plp.dump = some d → d.restored = true) :
    Next .powerFailDeclared s fun t =>
      t = { s with plp := t.plp, host := t.host, media := { s.media with ops := [] }, heldAdmin := [], released := [],
                   cleared := [], heldOuts := [], prov := none, reg := { s.reg with leases := [] },
                   evr := { s.evr with dumped := [], archiving := none }, outs := t.outs } ∧
      t.host.cmds = [] ∧ t.host.conns = [] ∧ t.host.ctrls = [] ∧ t.plp.holdupEn = true ∧ t.plp.hutestEn = false ∧
      t.plp.pfailDriven = true ∧ t.plp.test = none ∧ t.plp.record = s.plp.record ∧ t.plp.causes = s.plp.causes ∧
      (∃ d, t.plp.dump = some d ∧ d.seq = s.island.cycles ∧ d.reported = [] ∧ d.complete = false ∧ d.restored = false ∧
        (s.plp.started = true → ∀ e ∈ s.wr.exts, ∀ a ∈ presentTiles s, dumpedBy s a e = true → (a, e) ∈ d.exts)) ∧
      Sends [.pins [(.holdupEn, true), (.hutestEn, false), (.pfailL, false)]] s t :=
  ⟨_, congrArg Host.Outcome.next (declareFailure_of_on hpkg hdump), rfl, rfl, rfl, rfl, rfl, rfl, rfl, rfl, rfl, rfl,
    ⟨dumpOpened s, rfl, rfl, rfl, rfl, rfl, fun hstarted _ he _ ha hby => mem_dumpOpened hstarted he ha hby⟩, rfl⟩

theorem powerFailDeclared_of_dump (d : Dump) (s : State) (hdump : s.plp.dump = some d) (hrest : d.restored = false) :
    Next .powerFailDeclared s fun t => t = s :=
  ⟨_, congrArg Host.Outcome.next (if_pos (by simp [hdump, hrest])), rfl⟩

/-! ### A sag (R299, R307) -/

/-- The power-loss unit below the warning, where no test ran. -/
theorem plp_warned (htest : s.plp.test = none) : { s.plp with
      warn := true, hutestEn := false, test := none,
      result := if s.plp.test.isSome then 6 else s.plp.result, testDue := s.plp.testDue || s.plp.test.isSome } =
    { s.plp with warn := true, hutestEn := false } := by
  simp only [htest, Option.isSome_none, Bool.or_false, Bool.false_eq_true, if_false]

theorem pfWarn_next (pin : Nat) (s : State) (hwarn : s.plp.warn = false) (htest : s.plp.test = none) :
    let mv := busMv (s.gfld .plp_sense_vsense_ratio) pin
    (mv < s.gfld .plp_thresh_warn_mv →
      Next (.pfWarn pin) s fun t => t = expireRows (logEv .pfWarn 15 [mv]
        { s with plp := { s.plp with warn := true, hutestEn := false } })) ∧
    (s.gfld .plp_thresh_warn_mv ≤ mv → Next (.pfWarn pin) s fun t => t = s) := by
  intro mv
  refine ⟨fun hlow => ⟨_, congrArg Host.Outcome.next (if_neg (by simp [hwarn, hlow, mv])), ?_⟩,
    fun hhigh => ⟨_, congrArg Host.Outcome.next (if_pos (by simp [hhigh, mv])), rfl⟩⟩
  exact congrArg (fun p => expireRows (logEv .pfWarn 15 [mv] { s with plp := p })) (plp_warned htest)

theorem sagEnd_of_not_due (s : State) (hdue : s.plp.testDue = false) :
    Next .sagEnd s fun t => t = { s with plp := { s.plp with warn := false } } :=
  ⟨_, congrArg Host.Outcome.next (if_neg (by simp [updPlp, hdue])), rfl⟩

theorem startTest_of_idle (htest : s.plp.test = none) (hheld : s.plp.causes.contains 7 = false) (hwarn : s.plp.warn = false) :
    startTest s = { s with plp := { s.plp with
      test := some { step := 1, startMs := s.nowMs, stepMs := s.nowMs, v0 := 0, v1 := 0, esr := 0 }
      testDue := false, lastTestMin := s.island.minutes } } := by
  unfold startTest
  rw [if_neg (by simp [htest]), if_neg (by simp only [hheld, hwarn]; decide)]
  rfl

theorem sagEnd_of_due (s : State) (hdue : s.plp.testDue = true) (htest : s.plp.test = none) (hheld : s.plp.causes.contains 7 = false) :
    Next .sagEnd s fun t => t = { s with plp := { s.plp with warn := false, test := t.plp.test, testDue := false,
                                                             lastTestMin := s.island.minutes } } ∧
      ∃ x, t.plp.test = some x ∧ x.step = 1 ∧ x.startMs = s.nowMs :=
  ⟨_, congrArg Host.Outcome.next ((if_pos hdue).trans
    (startTest_of_idle (s := { s with plp := { s.plp with warn := false } }) htest hheld rfl)), rfl, _, rfl, rfl, rfl⟩

/-! ### The dump (R312) -/

/-- A restart record, and what it says. -/
theorem writeRestart_record (reason : Nat) (s : State) : ∃ r m,
    writeRestart reason s = { s with plp := { s.plp with record := some r }, evr := { s.evr with mark := m } } ∧
      r.reason = (if s.plp.offReady then 3 else reason) ∧ r.held = s.plp.dump.isSome ∧ r.cycles = s.island.cycles ∧
      r.dirs = (s.plp.dump.map (·.dirs)).getD [] := by
  unfold writeRestart
  exact ⟨_, _, rfl, rfl, rfl, rfl, rfl⟩

/-- The power-loss unit with a dump complete. -/
def plpDumped (us : Nat) (d : Dump) (s : State) : Plp :=
  { s.plp with
    dump := some { d with complete := true }, lastIncomplete := !dumpDone s d, lastUs := sat 0xFFFFFF us
    lastMib := ceilDiv (((d.exts.filter fun x => d.reported.contains x.1).map fun x => x.2.len).sum) 4096 }

theorem endDump_of_dump (us : Nat) (hdump : s.plp.dump = some d) :
    endDump us s = writeRestart (if dumpDone s d then 1 else 2) { s with plp := plpDumped us d s } := by
  simp only [endDump, hdump]
  rfl

/-- The end of a dump completes it and writes its record. -/
theorem endDump_spec (us : Nat) (hdump : s.plp.dump = some d) : ∃ r m,
    endDump us s = { s with plp := { plpDumped us d s with record := some r }, evr := { s.evr with mark := m } } ∧
      r.reason = (if s.plp.offReady then 3 else if dumpDone s d then 1 else 2) ∧ r.held = true ∧ r.cycles = s.island.cycles ∧
      r.dirs = d.dirs := by
  rw [endDump_of_dump us hdump]
  exact writeRestart_record _ _

/-- A dump with a tile's report. -/
def reportedBy (tile dir : Nat) (s : State) (d : Dump) : Dump :=
  { d with
    reported := tile :: d.reported, dirs := d.dirs ++ [(tile, dir)]
    primaryMs := if tile == s.mgmt.primary then some s.nowMs else d.primaryMs }

/-- The state with a tile's report taken. -/
def reportTaken (tile dir : Nat) (s : State) (d : Dump) : State :=
  updPlp (fun p => { p with dump := some (reportedBy tile dir s d) })
    (updEvr (fun e => { e with dumped := e.dumped ++ (eventTail tile s).filter fun r => !e.dumped.contains r }) s)

theorem dumpReport_of_reporting (tile dir us : Nat) (hdump : s.plp.dump = some d) (hopen : d.complete = false)
    (hup : tileUp s tile = true) (hnew : tile ∉ d.reported) :
    dumpReport tile dir us s = fenceWaiting tile (if dumpDone (reportTaken tile dir s d) (reportedBy tile dir s d) then
      endDump us (reportTaken tile dir s d) else reportTaken tile dir s d) := by
  unfold dumpReport
  simp only [hdump]
  rw [if_neg (by simp [hopen, hup, hnew])]
  rfl

theorem fenceWaiting_of_none (tile : Nat) (h : (s.therm.tiles.any fun x => x.tile == tile && x.critPending) = false) :
    fenceWaiting tile s = s := if_neg (by simp [h])

/-- The tail that a report brings is among what the dump holds of the recorder. -/
theorem mem_dumped_of_tail {l m : List EvRec} {r : EvRec} (h : r ∈ l) : r ∈ m ++ l.filter fun r => !m.contains r := by
  by_cases hin : r ∈ m
  · exact List.mem_append_left _ hin
  · exact List.mem_append_right _ (List.mem_filter.2 ⟨h, by simpa using hin⟩)

theorem dumpTileReport_next (tile dir us : Nat) (d : Dump) (s : State) (hdump : s.plp.dump = some d) (hopen : d.complete = false)
    (hup : tileUp s tile = true) (hnew : tile ∉ d.reported) (hprim : tile ≠ s.mgmt.primary)
    (hcrit : (s.therm.tiles.any fun x => x.tile == tile && x.critPending) = false) :
    (dumpDone s { d with reported := tile :: d.reported } = false →
      Next (.dumpTileReport tile ⟨dir, us⟩) s fun t => t = { s with plp := t.plp, evr := t.evr } ∧
        t.plp = { s.plp with dump := some { d with reported := tile :: d.reported, dirs := d.dirs ++ [(tile, dir)] } } ∧
        t.evr = { s.evr with dumped := t.evr.dumped } ∧ ∀ r ∈ eventTail tile s, r ∈ t.evr.dumped) ∧
    (dumpDone s { d with reported := tile :: d.reported } = true →
      Next (.dumpTileReport tile ⟨dir, us⟩) s fun t => t = { s with plp := t.plp, evr := t.evr } ∧
        (∃ e, t.plp.dump = some e ∧ e.complete = true ∧ e.reported = tile :: d.reported ∧ e.dirs = d.dirs ++ [(tile, dir)]) ∧
        t.plp.lastIncomplete = false ∧
        ∃ r, t.plp.record = some r ∧ r.reason = (if s.plp.offReady then 3 else 1) ∧ r.held = true ∧
          r.cycles = s.island.cycles ∧ r.dirs = d.dirs ++ [(tile, dir)]) := by
  have hdone : dumpDone (reportTaken tile dir s d) (reportedBy tile dir s d) = dumpDone s { d with reported := tile :: d.reported } := rfl
  have hrep : reportedBy tile dir s d = { d with reported := tile :: d.reported, dirs := d.dirs ++ [(tile, dir)] } := by
    rw [reportedBy, if_neg (by simpa using hprim)]
  have hrun := dumpReport_of_reporting tile dir us hdump hopen hup hnew
  refine ⟨fun hmore => ?_, fun hlast => ?_⟩
  · rw [if_neg (by rw [hdone, hmore]; decide), fenceWaiting_of_none tile (s := reportTaken tile dir s d) hcrit] at hrun
    exact ⟨_, congrArg Host.Outcome.next hrun, rfl, congrArg (fun x => { s.plp with dump := some x }) hrep, rfl,
      fun r hr => mem_dumped_of_tail hr⟩
  · obtain ⟨r, m, hend, hreason, hheld, hcycles, hdirs⟩ :=
      endDump_spec (s := reportTaken tile dir s d) (d := reportedBy tile dir s d) us rfl
    rw [if_pos (hdone.trans hlast), hend, fenceWaiting_of_none tile (by exact hcrit)] at hrun
    have hfull : (plpDumped us (reportedBy tile dir s d) (reportTaken tile dir s d)).lastIncomplete = false :=
      congrArg not (hdone.trans hlast)
    rw [hdone, hlast, if_pos rfl] at hreason
    exact ⟨_, congrArg Host.Outcome.next hrun, rfl, ⟨_, rfl, rfl, rfl, rfl⟩, hfull, r, rfl, hreason, hheld, hcycles, hdirs⟩

theorem restartRecordTimeout_next (us m : Nat) (d : Dump) (s : State) (hdump : s.plp.dump = some d) (hprim : d.primaryMs = some m)
    (hopen : d.complete = false) :
    (m + 10 ≤ s.nowMs → dumpDone s d = false →
      Next (.restartRecordTimeout us) s fun t => t = { s with plp := t.plp, evr := { s.evr with mark := t.evr.mark } } ∧
        (∃ e, t.plp.dump = some e ∧ e.complete = true ∧ e.reported = d.reported) ∧ t.plp.lastIncomplete = true ∧
        ∃ r, t.plp.record = some r ∧ r.reason = (if s.plp.offReady then 3 else 2)) ∧
    (s.nowMs < m + 10 → Next (.restartRecordTimeout us) s fun t => t = s) := by
  have hrun : restartTimeout us s = if !d.complete && m + 10 ≤ s.nowMs then endDump us s else s := by
    simp only [restartTimeout, hdump, hprim]
  refine ⟨fun hlate hmiss => ?_, fun hearly => ⟨_, congrArg Host.Outcome.next hrun, if_neg (by simp [hopen, hearly])⟩⟩
  obtain ⟨r, k, hend, hreason, -⟩ := endDump_spec us hdump
  have hpart : (plpDumped us d s).lastIncomplete = true := congrArg not hmiss
  rw [if_pos (by simp [hopen, hlate]), hend] at hrun
  rw [hmiss, if_neg Bool.false_ne_true] at hreason
  exact ⟨_, congrArg Host.Outcome.next hrun, rfl, ⟨_, rfl, rfl, rfl⟩, hpart, r, rfl, hreason⟩

/-! ### After the dump (R312, R318, R516) -/

theorem postDumpRestart_next (s : State) (hpkg : s.island.pkg = 2) (hended : dumpEnded s = true) (hrst : s.island.sysRst = false) :
    Next .postDumpRestart s fun t => t = enterRun s :=
  ⟨_, congrArg Host.Outcome.next (if_pos (by simp [hpkg, hended, hrst])), rfl⟩

theorem postDumpRestart_of_held (s : State) (h : dumpEnded s = false ∨ s.island.sysRst = true) :
    Next .postDumpRestart s fun t => t = s := by
  refine ⟨_, congrArg Host.Outcome.next (if_neg ?_), rfl⟩
  rcases h with h | h <;> simp [h]

theorem holdupRelease_next (s : State) (hended : dumpEnded s = true) :
    Next .holdupRelease s fun t => t = { s with plp := { s.plp with holdupEn := false }, outs := t.outs } ∧
      Sends [.pins [(.holdupEn, false)]] s t :=
  ⟨_, congrArg Host.Outcome.next (if_pos hended), rfl, rfl⟩

theorem clearCauses_of_left {l : List Nat} (h : s.plp.causes.filter (fun c => !l.contains c) ≠ []) :
    clearCauses l s = updPlp (fun p => { p with causes := p.causes.filter fun c => !l.contains c }) s :=
  if_pos (by
    have hleft : (updPlp (fun p => { p with causes := p.causes.filter fun c => !l.contains c }) s).plp.causes.isEmpty = false :=
      List.isEmpty_eq_false_iff.2 h
    rw [hleft]
    exact Bool.or_true _)

theorem dumpRelease_of_durable (hdump : s.plp.dump = some d) (hrest : d.restored = true) (hdur : dumpDurable s d = true)
    (hdue : s.plp.testDue = false) (hcause : 1 ∈ s.plp.causes) :
    dumpRelease s = updPlp (fun p => { p with causes := p.causes.filter fun c => !([7] : List Nat).contains c })
      (logEv .dumpReleased 15 [d.seq] (writeRestart 0 (updPlp (fun p => { p with dump := none }) s))) := by
  have hleft : s.plp.causes.filter (fun c => !([7] : List Nat).contains c) ≠ [] :=
    List.ne_nil_of_mem (List.mem_filter.2 ⟨hcause, rfl⟩)
  unfold dumpRelease
  simp only [hdump]
  rw [if_neg (by simp [hrest, hdur]),
    clearCauses_of_left (s := logEv .dumpReleased 15 [d.seq] (writeRestart 0 (updPlp (fun p => { p with dump := none }) s))) hleft]
  exact if_neg (Bool.eq_false_iff.1 hdue)

theorem causes_not_held (l : List Nat) : l.filter (fun c => !([7] : List Nat).contains c) = l.filter fun c => c != 7 :=
  List.filter_congr fun c _ => by simp only [List.contains_cons, List.contains_nil, Bool.or_false, bne]

theorem dumpRelease_next (d : Dump) (s : State) (hdump : s.plp.dump = some d) (hrest : d.restored = true) :
    (dumpDurable s d = true → s.plp.testDue = false → 1 ∈ s.plp.causes →
      Next .dumpRelease s fun t => t = { s with plp := t.plp, evr := t.evr } ∧ t.plp.dump = none ∧
        t.plp.causes = s.plp.causes.filter (fun c => c != 7) ∧
        (∃ r, t.plp.record = some r ∧ r.reason = (if s.plp.offReady then 3 else 0) ∧ r.held = false) ∧
        t.evr.raised = s.evr.raised ++ [{ ev := .dumpReleased, tile := 15, params := [d.seq] }]) ∧
    (dumpDurable s d = false → Next .dumpRelease s fun t => t = s) := by
  refine ⟨fun hdur hdue hcause => ?_, fun hdur => ?_⟩
  · obtain ⟨r, m, hrec, hreason, hheld, -⟩ := writeRestart_record 0 (updPlp (fun p => { p with dump := none }) s)
    have hrun := dumpRelease_of_durable hdump hrest hdur hdue hcause
    rw [hrec] at hrun
    exact ⟨_, congrArg Host.Outcome.next hrun, rfl, rfl, causes_not_held _, ⟨r, rfl, hreason, hheld⟩, rfl⟩
  · have hstay : dumpRelease s = s := by
      unfold dumpRelease
      simp only [hdump]
      exact if_pos (by simp [hdur])
    exact ⟨_, congrArg Host.Outcome.next hstay, rfl⟩

/-- Settles O19: each command is one step of the power-loss unit; the restart leaves the unit as its last step sets it, since none of the
steps before touches it. -/
theorem powerLossAndRestart : Obligations.PowerLossAndRestart := by
  unfold Obligations.PowerLossAndRestart
  exact ⟨powerFailDeclared_next, powerFailDeclared_of_dump, pfWarn_next, sagEnd_of_not_due, sagEnd_of_due, dumpTileReport_next,
    restartRecordTimeout_next, postDumpRestart_next, postDumpRestart_of_held, holdupRelease_next, restart_next, restart_of_started,
    dumpRelease_next⟩

end Sys2Proof.Machine
end

section
/-!
PROOFS. What a DRAM channel's loss sets off neither reads nor changes the engines and the DRAM channels themselves: each of its steps
commutes with an exchange of both.
-/
namespace Sys2Proof.Machine
open Sys2Proof

variable {E : Engines} {D : List Dram} {s : State}

/-- The state with other engines and DRAM channels. -/
def withUnits (E : Engines) (D : List Dram) (s : State) : State := { s with eng := E, drams := D }

theorem withUnits_ite {c : Prop} [Decidable c] {a b a' b' : State} (ha : c → a' = withUnits E D a) (hb : ¬c → b' = withUnits E D b) :
    ite c a' b' = withUnits E D (ite c a b) := by
  split
  · next h => exact ha h
  · next h => exact hb h

theorem withUnits_foldl {α : Type} {f : State → α → State} (h : ∀ s x, f (withUnits E D s) x = withUnits E D (f s x)) :
    ∀ (l : List α) (s : State), l.foldl f (withUnits E D s) = withUnits E D (l.foldl f s)
  | [], _ => rfl
  | x :: l, s => by rw [List.foldl_cons, h, withUnits_foldl h l, List.foldl_cons]

/-! ### Dies and their operations -/

theorem trySuspend_withUnits (d : Nat) : trySuspend d (withUnits E D s) = withUnits E D (trySuspend d s) := by
  unfold trySuspend
  rw [show findDie (withUnits E D s) d = findDie s d from rfl]
  cases findDie s d with
  | none => rfl
  | some x =>
    refine withUnits_ite (fun _ => rfl) fun _ => ?_
    rw [show opsOf (withUnits E D s) d = opsOf s d from rfl]
    cases (opsOf s d).find? fun o => o.state == .active && o.kind != .read <;> rfl

theorem dispatch_withUnits (d : Nat) : dispatch d (withUnits E D s) = withUnits E D (dispatch d s) := by
  unfold dispatch
  rw [show findDie (withUnits E D s) d = findDie s d from rfl]
  cases findDie s d with
  | none => rfl
  | some x =>
    refine withUnits_ite (fun _ => rfl) fun _ => ?_
    rw [show (chooseOp (withUnits E D s) x (demandOf (withUnits E D s))).filter (fun y => budgetAllows (withUnits E D s) y.1) =
      (chooseOp s x (demandOf s)).filter (fun y => budgetAllows s y.1) from rfl, show opsOf (withUnits E D s) d = opsOf s d from rfl]
    cases (chooseOp s x (demandOf s)).filter (fun y => budgetAllows s y.1) with
    | some y => rfl
    | none => cases (opsOf s d).find? fun o => o.state == .suspended <;> rfl

theorem addOp_withUnits (o : DieOp) : addOp o (withUnits E D s) = withUnits E D (addOp o s) := by
  unfold addOp
  refine (congrArg (trySuspend o.die) (dispatch_withUnits (s := { s with media := { s.media with
    ops := s.media.ops ++ [{ o with id := s.media.nextOp, left := List.range o.words, since := s.nowMs }]
    nextOp := s.media.nextOp + 1 } }) o.die)).trans (trySuspend_withUnits _)

theorem useDir_withUnits (n r : Nat) (c : PClass) (cmd : Nat) :
    useDir n r c cmd (withUnits E D s) = withUnits E D (useDir n r c cmd s) := by
  unfold useDir
  dsimp only
  rw [show ownerSlot (withUnits E D s) n r = ownerSlot s n r from rfl, show dirIndex (withUnits E D s) r = dirIndex s r from rfl,
    show (withUnits E D s).map = s.map from rfl]
  cases s.map.dirs.find? fun d => d.slot == ownerSlot s n r && d.nsid == n && d.index == dirIndex s r && !d.loaded with
  | none => rfl
  | some d => exact withUnits_ite (fun _ => rfl) fun _ => addOp_withUnits _

theorem reconReads_withUnits (o : DieOp) : reconReads o (withUnits E D s) = withUnits E D (reconReads o s) := by
  unfold reconReads
  exact withUnits_foldl (fun s x => addOp_withUnits _) _ s

theorem updOp_withUnits (o : Nat) (f : DieOp → DieOp) : updOp o f (withUnits E D s) = withUnits E D (updOp o f s) := rfl

theorem toRecon_withUnits (id : Nat) : toRecon id (withUnits E D s) = withUnits E D (toRecon id s) := by
  unfold toRecon
  rw [show findOp (withUnits E D s) id = findOp s id from rfl]
  cases findOp s id with
  | none => rfl
  | some o => exact reconReads_withUnits (s := updOp id (fun o => { o with step := 5, state := .recon }) s) o

theorem addRead_withUnits (o : DieOp) : addRead o (withUnits E D s) = withUnits E D (addRead o s) := by
  unfold addRead
  refine withUnits_ite (fun _ => addOp_withUnits o) fun _ => ?_
  rw [addOp_withUnits, toRecon_withUnits]
  rfl

theorem enqueueRead_withUnits (c : Cmd) (p : Piece) : enqueueRead c p (withUnits E D s) = withUnits E D (enqueueRead c p s) := by
  unfold enqueueRead
  rw [show (withUnits E D s).rcl = s.rcl from rfl]
  cases s.rcl.flash.find? fun x => x.addr == p.addr with
  | none => exact addRead_withUnits _
  | some e => exact addRead_withUnits _

/-! ### Pages of the map -/

theorem roomL0_withUnits (t : Nat) : roomL0 t (withUnits E D s) = withUnits E D (roomL0 t s) := by
  unfold roomL0
  dsimp only
  refine withUnits_ite (fun _ => rfl) fun _ => ?_
  rw [show regionsOf (withUnits E D s) t = regionsOf s t from rfl, show handOf (withUnits E D s) t = handOf s t from rfl]
  cases clockPick (handOf s t).l0 (((regionsOf s t).filter Region.inL0).map fun x => (x.l0.getD 0, x.ref0)) <;> rfl

theorem fillL0_withUnits (n r : Nat) : fillL0 n r (withUnits E D s) = withUnits E D (fillL0 n r s) := by
  unfold fillL0
  dsimp only
  refine withUnits_ite (fun _ => rfl) fun _ => ?_
  rw [show ownerTile (withUnits E D s) n r = ownerTile s n r from rfl, roomL0_withUnits]
  rfl

theorem roomL1_withUnits (t : Nat) : roomL1 t (withUnits E D s) = withUnits E D (roomL1 t s) := by
  unfold roomL1
  refine withUnits_ite (fun _ => rfl) fun _ => ?_
  rw [show evictable (withUnits E D s) t = evictable s t from rfl, show handOf (withUnits E D s) t = handOf s t from rfl]
  cases clockPick (handOf s t).l1 ((evictable s t).map fun x => (x.frame.getD 0, x.ref1)) <;> rfl

theorem takeFrame_withUnits (n r : Nat) : takeFrame n r (withUnits E D s) = withUnits E D (takeFrame n r s) := by
  unfold takeFrame
  dsimp only
  refine withUnits_ite (fun _ => rfl) fun _ => ?_
  rw [show ownerTile (withUnits E D s) n r = ownerTile s n r from rfl, roomL1_withUnits]
  generalize roomL1 (ownerTile s n r) s = u
  rfl

/-- The state with a region's fetch noted. -/
def fetchNoted (n r : Nat) (c : PClass) (kept : Bool) (t : Nat) (s : State) : State :=
  putRegion { getRegion s n r with fetching := some c, kept := kept } (bump t .map_l2_fetches_count s)

theorem startFetch_withUnits (n r : Nat) (c : PClass) (cmd : Nat) :
    startFetch n r c cmd (withUnits E D s) = withUnits E D (startFetch n r c cmd s) := by
  unfold startFetch
  dsimp only
  rw [show ownerTile (withUnits E D s) n r = ownerTile s n r from rfl, show findRegion (withUnits E D s) n r = findRegion s n r from rfl,
    show placeFor (withUnits E D s) (ownerTile s n r) c = placeFor s (ownerTile s n r) c from rfl]
  cases findRegion s n r with
  | none => rfl
  | some x => cases placeFor s (ownerTile s n r) c with
    | none => rfl
    | some kept =>
      refine withUnits_ite (fun _ => rfl) fun _ => ?_
      rw [takeFrame_withUnits]
      cases x.l2 with
      | none => rfl
      | some l =>
        refine withUnits_ite (fun _ => ?_) fun _ => rfl
        exact addOp_withUnits (s := fetchNoted n r c kept (ownerTile s n r) (takeFrame n r s)) _

theorem pageAt_withUnits (n r : Nat) (c : PClass) (cmd : Nat) :
    pageAt n r c cmd (withUnits E D s) = ((pageAt n r c cmd s).1, withUnits E D (pageAt n r c cmd s).2) := by
  unfold pageAt
  dsimp only
  rw [show whereIs (withUnits E D s) n r = whereIs s n r from rfl]
  have hfill (f : Fld) : fillL0 n r (bump (ownerTile s n r) f (withUnits E D s)) = withUnits E D (fillL0 n r (bump (ownerTile s n r) f s)) :=
    fillL0_withUnits (s := bump (ownerTile s n r) f s) n r
  cases whereIs s n r with
  | empty => rfl
  | l0 => exact congrArg (Prod.mk true) (hfill _)
  | l1 => exact congrArg (Prod.mk true) (hfill _)
  | fetching => rfl
  | miss => exact congrArg (Prod.mk false) (startFetch_withUnits ..)

theorem sendLookup_withUnits (id lba : Nat) : sendLookup id lba (withUnits E D s) = withUnits E D (sendLookup id lba s) := by
  unfold sendLookup
  rw [show findCmd (withUnits E D s) id = findCmd s id from rfl]
  cases findCmd s id with
  | none => rfl
  | some c =>
    dsimp only
    cases forwardedPiece c with
    | none => rfl
    | some b => exact withUnits_ite (fun _ => rfl) fun _ => rfl

/-! ### The end of a command -/

theorem freezeQueue_withUnits (c : Cmd) (st : Status) : freezeQueue c st (withUnits E D s) = withUnits E D (freezeQueue c st s) := by
  unfold freezeQueue
  rw [show findSq (withUnits E D s) c.cntlid c.sqid = findSq s c.cntlid c.sqid from rfl]
  cases findSq s c.cntlid c.sqid with
  | none => rfl
  | some q => exact withUnits_ite (fun _ => rfl) fun _ => rfl

theorem logError_withUnits (c : Cmd) (st : Status) : logError c st (withUnits E D s) = withUnits E D (logError c st s) := rfl

theorem sendTo_withUnits (k q : Nat) (o : Out) : sendTo k q o (withUnits E D s) = withUnits E D (sendTo k q o s) := by
  unfold sendTo
  rw [show (withUnits E D s).host = s.host from rfl]
  cases s.host.conns.find? fun x => x.bound && x.cntlid == k && x.sqid == q with
  | none => rfl
  | some x => exact withUnits_ite (fun _ => rfl) fun _ => rfl

theorem linkFree_withUnits (i : Nat) (p : Pool) : linkFree i p (withUnits E D s) = withUnits E D (linkFree i p s) := by
  unfold linkFree
  dsimp only
  rw [show bufAddr (withUnits E D s) (handleOf p.tile p.pool (genOf p i) i) = bufAddr s (handleOf p.tile p.pool (genOf p i) i) from rfl,
    show (withUnits E D s).mem = s.mem from rfl]
  generalize writeBytes _ _ s.mem = m
  rfl

theorem freeBuffer_withUnits (t h : Nat) : freeBuffer t h (withUnits E D s) = withUnits E D (freeBuffer t h s) := by
  unfold freeBuffer
  rw [show handleFault (withUnits E D s) t h = handleFault s t h from rfl]
  rw [show findPool (withUnits E D s) t (hPool h) = findPool s t (hPool h) from rfl]
  cases handleFault s t h with
  | some k => rfl
  | none => cases findPool s t (hPool h) with
    | none => rfl
    | some p => exact withUnits_ite (fun _ => rfl) fun _ => withUnits_ite (fun _ => rfl) fun _ => linkFree_withUnits ..

theorem freeBuffers_withUnits (t : Nat) (hs : List Nat) : freeBuffers t hs (withUnits E D s) = withUnits E D (freeBuffers t hs s) :=
  withUnits_foldl (fun _ _ => freeBuffer_withUnits ..) hs s

theorem ackExts_withUnits (c : Cmd) : ackExts c (withUnits E D s) = withUnits E D (ackExts c s) :=
  withUnits_ite (fun _ => rfl) fun _ => rfl

theorem charge_withUnits (t kind : Nat) (p : Payer) (n : Nat) (f : Meter → Meter) :
    charge t kind p n f (withUnits E D s) = withUnits E D (charge t kind p n f s) := rfl

theorem meterCommand_withUnits (c : Cmd) (miss : Bool) : meterCommand c miss (withUnits E D s) = withUnits E D (meterCommand c miss s) := by
  unfold meterCommand chargePair
  dsimp only
  rw [charge_withUnits]
  exact withUnits_ite (fun _ => rfl) fun _ => rfl

theorem shutdownDone_withUnits (id : Nat) : shutdownDone id (withUnits E D s) = withUnits E D (shutdownDone id s) :=
  withUnits_ite (fun _ => rfl) fun _ => rfl

theorem postCq_withUnits (c : Cmd) : postCq c (withUnits E D s) = withUnits E D (postCq c s) := by
  unfold postCq
  rw [show findSq (withUnits E D s) c.cntlid c.sqid = findSq s c.cntlid c.sqid from rfl]
  cases findSq s c.cntlid c.sqid with
  | none => rfl
  | some q =>
    dsimp only
    rw [show findCq (withUnits E D s) c.cntlid q.cqid = findCq s c.cntlid q.cqid from rfl]
    cases findCq s c.cntlid q.cqid with
    | none => rfl
    | some k => exact withUnits_ite (fun _ => rfl) fun _ => withUnits_ite (fun _ => rfl) fun _ => rfl

end Sys2Proof.Machine
end

section
/-!
PROOFS. The end of a command, and lookups and updates of the map, commute with an exchange of the engines and the DRAM channels.
-/
namespace Sys2Proof.Machine
open Sys2Proof

variable {E : Engines} {D : List Dram} {s : State}

/-! ### Commands (R30, R73, R74, R93) -/

theorem failureNoted_withUnits (c : Cmd) : failureNoted c (withUnits E D s) = withUnits E D (failureNoted c s) :=
  withUnits_ite (fun _ => rfl) fun _ => freezeQueue_withUnits (s := logError c c.status s) c c.status

theorem dataSent_withUnits (c : Cmd) (alone : Bool) : dataSent c alone (withUnits E D s) = withUnits E D (dataSent c alone s) :=
  withUnits_ite (fun _ => sendTo_withUnits ..) fun _ => rfl

theorem completionSent_withUnits (c : Cmd) (alone : Bool) (dw0 head : Nat) :
    completionSent c alone dw0 head (withUnits E D s) = withUnits E D (completionSent c alone dw0 head s) :=
  withUnits_ite (fun _ => rfl) fun _ => sendTo_withUnits ..

theorem keySent_withUnits (c : Cmd) : keySent c (withUnits E D s) = withUnits E D (keySent c s) := by
  unfold keySent
  cases c.cap.invKey with
  | some k => exact sendTo_withUnits ..
  | none => rfl

theorem dropCmd_withUnits (id : Nat) : dropCmd id (withUnits E D s) = withUnits E D (dropCmd id s) := rfl

theorem updCmd_withUnits (id : Nat) (f : Cmd → Cmd) : updCmd id f (withUnits E D s) = withUnits E D (updCmd id f s) := rfl

theorem forgotten_withUnits (miss : Bool) (c : Cmd) : forgotten miss c (withUnits E D s) = withUnits E D (forgotten miss c s) := by
  unfold forgotten
  rw [meterCommand_withUnits, ackExts_withUnits, freeBuffers_withUnits, postCq_withUnits, dropCmd_withUnits, shutdownDone_withUnits]

theorem postOne_withUnits (c : Cmd) : postOne c (withUnits E D s) = withUnits E D (postOne c s) := by
  rw [postOne_eq, postOne_eq]
  dsimp only
  rw [show isQosMiss (withUnits E D s) c = isQosMiss s c from rfl, failureNoted_withUnits]
  generalize failureNoted c s = u
  rw [show postedDw0 c (withUnits E D u) = postedDw0 c u from rfl,
    show successFlag (withUnits E D u) c (postedDw0 c u) = successFlag u c (postedDw0 c u) from rfl,
    show findSq (withUnits E D u) c.cntlid c.sqid = findSq u c.cntlid c.sqid from rfl,
    dataSent_withUnits, completionSent_withUnits, keySent_withUnits, forgotten_withUnits]

theorem postNext_withUnits (id : Nat) : postNext (withUnits E D s) id = withUnits E D (postNext s id) := by
  unfold postNext
  rw [show findCmd (withUnits E D s) id = findCmd s id from rfl]
  cases findCmd s id with
  | none => rfl
  | some c => exact withUnits_ite (fun _ => postOne_withUnits c) fun _ => rfl

theorem postEnded_withUnits : postEnded (withUnits E D s) = withUnits E D (postEnded s) :=
  withUnits_foldl (fun _ id => postNext_withUnits id) _ s

theorem finishCmd_withUnits (id : Nat) (st : Status) (dw0 : Nat) :
    finishCmd id st dw0 (withUnits E D s) = withUnits E D (finishCmd id st dw0 s) := by
  unfold finishCmd
  rw [show findCmd (withUnits E D s) id = findCmd s id from rfl]
  cases findCmd s id with
  | none => rfl
  | some c =>
    refine withUnits_ite (fun _ => ?_) fun _ => ?_
    · rw [freeBuffers_withUnits, dropCmd_withUnits, shutdownDone_withUnits, postEnded_withUnits]
    · rw [updCmd_withUnits, postEnded_withUnits]

theorem sendUpdates_withUnits (id : Nat) : sendUpdates id (withUnits E D s) = withUnits E D (sendUpdates id s) := by
  unfold sendUpdates
  rw [show findCmd (withUnits E D s) id = findCmd s id from rfl]
  cases findCmd s id with
  | none => rfl
  | some c => exact withUnits_ite (fun _ => rfl) fun _ => rfl

theorem mapPump_withUnits : mapPump (withUnits E D s) = withUnits E D (mapPump s) :=
  withUnits_foldl (fun _ id => sendUpdates_withUnits id) _ s

theorem drainPump_withUnits : drainPump (withUnits E D s) = withUnits E D (drainPump s) := by
  refine withUnits_foldl (fun s id => ?_) _ s
  rw [show findCmd (withUnits E D s) id = findCmd s id from rfl]
  cases findCmd s id with
  | none => rfl
  | some c =>
    refine withUnits_ite (fun _ => rfl) fun _ => withUnits_ite (fun _ => ?_) fun _ => withUnits_ite (fun _ => rfl) fun _ => ?_
    · exact withUnits_ite (fun _ => finishCmd_withUnits ..) fun _ => rfl
    · exact withUnits_ite (fun _ => finishCmd_withUnits ..) fun _ => rfl

/-! ### Lookups (R30, R145, R157) -/

theorem readProgress_withUnits (id : Nat) : readProgress id (withUnits E D s) = withUnits E D (readProgress id s) := by
  unfold readProgress
  rw [show findCmd (withUnits E D s) id = findCmd s id from rfl]
  cases findCmd s id with
  | none => rfl
  | some c =>
    refine withUnits_ite (fun _ => rfl) fun _ => ?_
    rw [updCmd_withUnits, mapPump_withUnits]
    generalize mapPump (updCmd id (fun c => { c with took := true, phase := .reading }) s) = u
    cases c.pieces.findSome? Piece.failure with
    | some st => exact finishCmd_withUnits ..
    | none =>
      refine withUnits_ite (fun _ => ?_) fun _ => rfl
      have hread (d : Bytes) : finishCmd id .success 0 (updCmd id (fun c => { c with data := d }) (withUnits E D u)) =
          withUnits E D (finishCmd id .success 0 (updCmd id (fun c => { c with data := d }) u)) := by
        rw [updCmd_withUnits, finishCmd_withUnits]
      cases c.cap.op with
      | compare => exact finishCmd_withUnits ..
      | _ => exact hread _

/-- The reads of a command's pieces that lie in flash are queued. -/
theorem readsQueued_withUnits (c : Cmd) (l : List Piece) :
    l.foldl (fun s q => enqueueRead c q s) (withUnits E D s) = withUnits E D (l.foldl (fun s q => enqueueRead c q s) s) :=
  withUnits_foldl (fun _ q => enqueueRead_withUnits c q) l s

theorem resolvePiece_withUnits (id lba : Nat) : resolvePiece id lba (withUnits E D s) = withUnits E D (resolvePiece id lba s) := by
  unfold resolvePiece
  rw [show findCmd (withUnits E D s) id = findCmd s id from rfl]
  cases findCmd s id with
  | none => rfl
  | some c =>
    dsimp only
    cases c.pieces.find? fun p => p.lba == lba && (p.state == .toLookup || p.state == .queued) with
    | none => rfl
    | some p =>
      refine withUnits_ite (fun _ => finishCmd_withUnits ..) fun _ => ?_
      rw [updCmd_withUnits, readsQueued_withUnits, readProgress_withUnits]
      rfl

theorem tryLookup_withUnits (id lba : Nat) :
    tryLookup id lba (withUnits E D s) = ((tryLookup id lba s).1, withUnits E D (tryLookup id lba s).2) := by
  unfold tryLookup
  rw [show findCmd (withUnits E D s) id = findCmd s id from rfl]
  cases findCmd s id with
  | none => rfl
  | some c =>
    dsimp only
    by_cases hopen : (openPiece c lba).isNone = true
    · rw [if_pos hopen, if_pos hopen]
    · rw [if_neg hopen, if_neg hopen]
      rw [show mapServed (withUnits E D s) c.cap.nsid (lba / 256) = mapServed s c.cap.nsid (lba / 256) from rfl]
      by_cases hserved : (!mapServed s c.cap.nsid (lba / 256)) = true
      · rw [if_pos hserved, if_pos hserved, useDir_withUnits]
      · rw [if_neg hserved, if_neg hserved, pageAt_withUnits]
        rcases pageAt c.cap.nsid (lba / 256) c.cls id s with ⟨ok, u⟩
        cases ok with
        | false => rfl
        | true => exact congrArg (Prod.mk true) (by rw [resolvePiece_withUnits, sendLookup_withUnits])

/-! ### Spans and the journal (R142, R149, R154) -/

theorem writeRestart_withUnits (reason : Nat) : writeRestart reason (withUnits E D s) = withUnits E D (writeRestart reason s) := rfl

theorem mapCheckpoint_withUnits (slot : Nat) : mapCheckpoint slot (withUnits E D s) = withUnits E D (mapCheckpoint slot s) := rfl

theorem windowCheck_withUnits (slot : Nat) : windowCheck slot (withUnits E D s) = withUnits E D (windowCheck slot s) :=
  withUnits_ite (fun _ => rfl) fun _ => rfl

theorem reportLive_withUnits (old new : List Span) : reportLive old new (withUnits E D s) = withUnits E D (reportLive old new s) := by
  unfold reportLive
  dsimp only
  rw [withUnits_foldl (fun _ _ => rfl), withUnits_foldl (fun _ _ => rfl)]

theorem setSpans_withUnits (n r : Nat) (new : List Span) (dirty : Option Nat) :
    setSpans n r new dirty (withUnits E D s) = withUnits E D (setSpans n r new dirty s) := by
  unfold setSpans
  dsimp only
  rw [reportLive_withUnits]
  exact withUnits_ite (fun _ => rfl) fun _ => rfl

theorem dirtyDir_withUnits (n r pos : Nat) : dirtyDir n r pos (withUnits E D s) = withUnits E D (dirtyDir n r pos s) :=
  withUnits_ite (fun _ => rfl) fun _ => rfl

theorem storeSpans_withUnits (n r : Nat) (new : List Span) (pos : Nat) :
    storeSpans n r new pos (withUnits E D s) = withUnits E D (storeSpans n r new pos s) := by
  unfold storeSpans
  dsimp only
  rw [show getRegion (withUnits E D s) n r = getRegion s n r from rfl, setSpans_withUnits]
  generalize setSpans n r new (some ((getRegion s n r).dirty.getD pos)) s = u
  rw [show findRegion (withUnits E D u) n r = findRegion u n r from rfl]
  cases findRegion u n r with
  | none => exact withUnits_ite (fun _ => dirtyDir_withUnits ..) fun _ => rfl
  | some y =>
    dsimp only
    rw [show putRegion { y with wb := y.wb.map fun w => { w with first := some (w.first.getD pos) } } (withUnits E D u) =
      withUnits E D (putRegion { y with wb := y.wb.map fun w => { w with first := some (w.first.getD pos) } } u) from rfl,
      takeFrame_withUnits, fillL0_withUnits]

theorem appendJ_withUnits (slot : Nat) (es : List JEntry) : appendJ slot es (withUnits E D s) = withUnits E D (appendJ slot es s) := rfl

theorem applyPlan_withUnits (n r : Nat) (p : Plan) : applyPlan n r p (withUnits E D s) = withUnits E D (applyPlan n r p s) := by
  unfold applyPlan
  dsimp only
  rw [show clearLost n r p.lba p.count (withUnits E D s) = withUnits E D (clearLost n r p.lba p.count s) from rfl]
  generalize clearLost n r p.lba p.count s = u
  rw [show planEntry (withUnits E D u) n p = planEntry u n p from rfl, show getRegion (withUnits E D u) n r = getRegion u n r from rfl,
    show ownerSlot (withUnits E D u) n r = ownerSlot u n r from rfl,
    show findJournal (withUnits E D u) (ownerSlot u n r) = findJournal u (ownerSlot u n r) from rfl, storeSpans_withUnits, appendJ_withUnits]

theorem applyPlans_withUnits (n r : Nat) (ps : List Plan) : applyPlans n r ps (withUnits E D s) = withUnits E D (applyPlans n r ps s) := by
  unfold applyPlans
  rw [withUnits_foldl (fun _ p => applyPlan_withUnits n r p), windowCheck_withUnits]
  rfl

theorem sendForward_withUnits (c : Cmd) (r r2 : Nat) : sendForward c r r2 (withUnits E D s) = withUnits E D (sendForward c r r2 s) := rfl

theorem markApplied_withUnits (id n r first : Nat) :
    markApplied id n r first (withUnits E D s) = withUnits E D (markApplied id n r first s) := rfl

/-- Two answers of a request, on either state, differ by the exchange only. -/
def SameAnswer (E : Engines) (D : List Dram) (a b : Bool × State) : Prop := a = (b.1, withUnits E D b.2)

theorem SameAnswer.mk {ok : Bool} {u v : State} (h : u = withUnits E D v) : SameAnswer E D (ok, u) (ok, v) := congrArg (Prod.mk ok) h

theorem SameAnswer.ite {c : Prop} [Decidable c] {a b a' b' : Bool × State} (ha : c → SameAnswer E D a' a) (hb : ¬c → SameAnswer E D b' b) :
    SameAnswer E D (ite c a' b') (ite c a b) := by
  split
  · next h => exact ha h
  · next h => exact hb h

/-- An update of a region whose page is at hand. -/
def updateDone (c : Cmd) (id n r : Nat) (s : State) : State :=
  let s1 := applyPlans n r c.plan (pageAt n r c.cls id s).2
  markApplied id n r (findJournal s (ownerSlot s n r)).head (match forwardedRegion c r with
    | some r2 => sendForward c r r2 s1
    | none => s1)

theorem updateDone_withUnits (c : Cmd) (id n r : Nat) : updateDone c id n r (withUnits E D s) = withUnits E D (updateDone c id n r s) := by
  unfold updateDone
  dsimp only
  rw [pageAt_withUnits, applyPlans_withUnits]
  cases forwardedRegion c r with
  | none => exact markApplied_withUnits ..
  | some r2 =>
    dsimp only
    rw [sendForward_withUnits]
    exact markApplied_withUnits ..

theorem tryUpdate_withUnits (id r : Nat) : SameAnswer E D (tryUpdate id r (withUnits E D s)) (tryUpdate id r s) := by
  unfold tryUpdate
  rw [show findCmd (withUnits E D s) id = findCmd s id from rfl]
  cases findCmd s id with
  | none => exact .mk rfl
  | some c =>
    refine .ite (fun _ => .mk rfl) fun _ => .ite (fun _ => .mk (useDir_withUnits ..)) fun _ => ?_
    rw [show whereIs (withUnits E D s) c.cap.nsid r = whereIs s c.cap.nsid r from rfl]
    have hready : SameAnswer E D
        (if !updateReady (withUnits E D s) c.cap.nsid r then (false, withUnits E D s) else (true, updateDone c id c.cap.nsid r (withUnits E D s)))
        (if !updateReady s c.cap.nsid r then (false, s) else (true, updateDone c id c.cap.nsid r s)) :=
      .ite (fun _ => .mk rfl) fun _ => .mk (updateDone_withUnits ..)
    cases whereIs s c.cap.nsid r with
    | miss | fetching => exact .mk (startFetch_withUnits ..)
    | _ => exact hready

/-! ### Relocations (R156, R205) -/

theorem commitExt_withUnits (e : Ext) : commitExt e (withUnits E D s) = withUnits E D (commitExt e s) :=
  withUnits_ite (fun _ => rfl) fun _ => drainPump_withUnits
    (s := { s with wr := { s.wr with exts := s.wr.exts.filter fun x => !(x.seq == e.seq && x.stage == .closed) } })

theorem applyRelocate_withUnits (n r src seq dst : Nat) :
    applyRelocate n r src seq dst (withUnits E D s) = withUnits E D (applyRelocate n r src seq dst s) := by
  unfold applyRelocate
  dsimp only
  refine withUnits_ite (fun _ => rfl) fun _ => ?_
  rw [storeSpans_withUnits, appendJ_withUnits]
  rfl

theorem applyCoalesce_withUnits (n r : Nat) (e : Ext) : applyCoalesce n r e (withUnits E D s) = withUnits E D (applyCoalesce n r e s) := by
  unfold applyCoalesce
  dsimp only
  refine withUnits_ite (fun _ => rfl) fun _ => ?_
  rw [storeSpans_withUnits, appendJ_withUnits]
  rfl

/-- A relocation of an extent whose region's page is at hand. -/
def relocated (e : Ext) (n r : Nat) (c : PClass) (s : State) : State :=
  let s1 := (pageAt n r c 0 s).2
  let s2 := if e.parts.isEmpty then applyRelocate n r (e.src.getD 0) e.seq e.addr s1 else applyCoalesce n r e s1
  commitExt e (windowCheck (ownerSlot s n r) s2)

theorem relocated_withUnits (e : Ext) (n r : Nat) (c : PClass) : relocated e n r c (withUnits E D s) = withUnits E D (relocated e n r c s) := by
  unfold relocated
  dsimp only
  rw [pageAt_withUnits, applyRelocate_withUnits, applyCoalesce_withUnits, ← apply_ite (withUnits E D),
    show ownerSlot (withUnits E D s) n r = ownerSlot s n r from rfl, windowCheck_withUnits, commitExt_withUnits]

theorem tryRelocate_withUnits (addr : Nat) : SameAnswer E D (tryRelocate addr (withUnits E D s)) (tryRelocate addr s) := by
  unfold tryRelocate
  rw [show (withUnits E D s).wr = s.wr from rfl]
  cases s.wr.exts.find? fun e => e.addr == addr && e.src.isSome && !e.committed && e.stage == .closed with
  | none => exact .mk rfl
  | some e =>
    refine .ite (fun _ => .mk (useDir_withUnits ..)) fun _ => ?_
    rw [show whereIs (withUnits E D s) e.nsid (e.slba / 256) = whereIs s e.nsid (e.slba / 256) from rfl,
      show extClass (withUnits E D s) e = extClass s e from rfl]
    have hready : SameAnswer E D
        (if !updateReady (withUnits E D s) e.nsid (e.slba / 256) then (false, withUnits E D s)
          else (true, relocated e e.nsid (e.slba / 256) (extClass s e) (withUnits E D s)))
        (if !updateReady s e.nsid (e.slba / 256) then (false, s) else (true, relocated e e.nsid (e.slba / 256) (extClass s e) s)) :=
      .ite (fun _ => .mk rfl) fun _ => .mk (relocated_withUnits ..)
    cases whereIs s e.nsid (e.slba / 256) with
    | empty => exact .mk (commitExt_withUnits e)
    | miss | fetching => exact .mk (startFetch_withUnits ..)
    | _ => exact hready

/-! ### Forwarded parts (R157, R158) -/

theorem dropForward_withUnits (id : Nat) : dropForward id (withUnits E D s) = withUnits E D (dropForward id s) := rfl

theorem updForward_withUnits (id : Nat) (f : Forward → Forward) : updForward id f (withUnits E D s) = withUnits E D (updForward id f s) := rfl

theorem enterLedger_withUnits (w : Forward) : enterLedger w (withUnits E D s) = withUnits E D (enterLedger w s) := rfl

/-- A forwarded part whose region's page is at hand is applied. -/
def partApplied (id : Nat) (w : Forward) (s : State) : State :=
  let s1 := enterLedger w (applyPlans w.nsid w.region w.part (pageAt w.nsid w.region w.cls id s).2)
  markApplied id w.nsid w.region (findJournal s (ownerSlot s w.nsid w.region)).head (updForward id (fun w => { w with applied := true }) s1)

theorem partApplied_withUnits (id : Nat) (w : Forward) : partApplied id w (withUnits E D s) = withUnits E D (partApplied id w s) := by
  unfold partApplied
  dsimp only
  rw [pageAt_withUnits, applyPlans_withUnits, enterLedger_withUnits, updForward_withUnits]
  exact markApplied_withUnits ..

theorem tryForward_withUnits (id : Nat) : SameAnswer E D (tryForward id (withUnits E D s)) (tryForward id s) := by
  unfold tryForward
  rw [show (withUnits E D s).map = s.map from rfl]
  cases s.map.forwards.find? fun w => w.cmd == id && w.arrived && !w.applied with
  | none => exact .mk rfl
  | some w =>
    dsimp only
    cases w.read with
    | some lba =>
      dsimp only
      rw [tryLookup_withUnits]
      rcases tryLookup id lba s with ⟨ok, u⟩
      cases ok with
      | true => exact .mk (dropForward_withUnits id)
      | false => exact .mk rfl
    | none =>
      refine .ite (fun _ => .mk (updForward_withUnits ..)) fun _ => .ite (fun _ => .mk (useDir_withUnits ..)) fun _ => ?_
      rw [show whereIs (withUnits E D s) w.nsid w.region = whereIs s w.nsid w.region from rfl]
      have hready : SameAnswer E D
          (if !updateReady (withUnits E D s) w.nsid w.region then (false, withUnits E D s) else (true, partApplied id w (withUnits E D s)))
          (if !updateReady s w.nsid w.region then (false, s) else (true, partApplied id w s)) :=
        .ite (fun _ => .mk rfl) fun _ => .mk (partApplied_withUnits ..)
      cases whereIs s w.nsid w.region with
      | miss | fetching => exact .mk (startFetch_withUnits ..)
      | _ => exact hready

/-! ### The requests that wait (R30, R145) -/

theorem tryMap_withUnits (w : MapWait) : SameAnswer E D (tryMap w (withUnits E D s)) (tryMap w s) := by
  unfold tryMap
  cases w.req with
  | lookup id lba => exact tryLookup_withUnits id lba
  | update id r => exact tryUpdate_withUnits id r
  | relocate addr => exact tryRelocate_withUnits addr
  | forward id => exact tryForward_withUnits id

theorem serveMap_withUnits : serveMap (withUnits E D s) = withUnits E D (serveMap s) := by
  refine withUnits_foldl (fun s w => ?_) _ s
  refine withUnits_ite (fun _ => rfl) fun _ => ?_
  rw [tryMap_withUnits w]
  rcases tryMap w s with ⟨ok, u⟩
  cases ok <;> rfl

end Sys2Proof.Machine
end

section
/-!
PROOFS. What the loss of a DRAM channel's staging and map pages sets off commutes with an exchange of the engines and the DRAM channels.
-/
namespace Sys2Proof.Machine
open Sys2Proof

variable {E : Engines} {D : List Dram} {s : State}

/-! ### Bands and rows (R185, R195, R223) -/

theorem bandRecord_withUnits (kind : Nat) (b : Band) (m old new : Nat) :
    bandRecord kind b m old new (withUnits E D s) = withUnits E D (bandRecord kind b m old new s) := rfl

theorem updBand_withUnits (sg b : Nat) (f : Band → Band) : updBand sg b f (withUnits E D s) = withUnits E D (updBand sg b f s) := rfl

theorem abortSubsts_withUnits (st : BlkState) (sg b : Nat) : abortSubsts st sg b (withUnits E D s) = withUnits E D (abortSubsts st sg b s) :=
  withUnits_foldl (fun _ _ => rfl) _ s

theorem beforeRelocation_withUnits (sg b : Nat) : beforeRelocation sg b (withUnits E D s) = withUnits E D (beforeRelocation sg b s) :=
  withUnits_ite (fun _ => abortSubsts_withUnits ..) fun _ => rfl

theorem startRelocation_withUnits (w : Why) (sg b : Nat) :
    startRelocation w sg b (withUnits E D s) = withUnits E D (startRelocation w sg b s) := by
  rw [startRelocation_eq, startRelocation_eq, beforeRelocation_withUnits]
  exact updBand_withUnits ..

theorem rotateActive_withUnits (sg : Nat) : rotateActive sg (withUnits E D s) = withUnits E D (rotateActive sg s) := by
  unfold rotateActive
  refine withUnits_ite (fun _ => rfl) fun _ => ?_
  dsimp only
  simp only [show (withUnits E D s).red = s.red from rfl, show (withUnits E D s).wr = s.wr from rfl,
    show ∀ g, freeBands (withUnits E D s) g = freeBands s g from fun _ => rfl]
  generalize List.foldl _ (none : Option Nat) _ = best
  cases best with
  | none => rfl
  | some g => exact withUnits_ite (fun _ => rfl) fun _ => rfl

theorem sealSwept_withUnits (sg b : Nat) (x : Band) : sealSwept sg b x (withUnits E D s) = withUnits E D (sealSwept sg b x s) :=
  withUnits_ite (fun _ => startRelocation_withUnits (s := sealNoted sg b x s) ..) fun _ => rfl

theorem sealBand_withUnits (sg b : Nat) : sealBand sg b (withUnits E D s) = withUnits E D (sealBand sg b s) := by
  cases h : findBand s sg b with
  | none =>
    have h' : findBand (withUnits E D s) sg b = none := h
    simp only [sealBand, h, h']
  | some x =>
    have h' : findBand (withUnits E D s) sg b = some x := h
    by_cases hopen : x.state = .open
    · rw [sealBand_of_open h hopen, sealBand_of_open h' hopen, sealSwept_withUnits]
      exact withUnits_ite (fun _ => rotateActive_withUnits sg) fun _ => rfl
    · rw [sealBand_of_not_open h hopen, sealBand_of_not_open h' hopen]

theorem reprogramRow_withUnits (sg b i : Nat) : reprogramRow sg b i (withUnits E D s) = withUnits E D (reprogramRow sg b i s) := by
  cases h : findRow s sg b i with
  | none =>
    have h' : findRow (withUnits E D s) sg b i = none := h
    simp only [reprogramRow, h, h']
  | some r =>
    have h' : findRow (withUnits E D s) sg b i = some r := h
    rw [reprogramRow_of_found h, reprogramRow_of_found h',
      show rowsTakenBack sg b i (withUnits E D s) = withUnits E D (rowsTakenBack sg b i s) from rfl, updBand_withUnits, sealBand_withUnits]

theorem memberStagingLost_withUnits (t : Nat) (inDramOnly : Bool) :
    memberStagingLost t inDramOnly (withUnits E D s) = withUnits E D (memberStagingLost t inDramOnly s) :=
  withUnits_foldl (fun _ _ => reprogramRow_withUnits ..) _ s

theorem mirrorLost_withUnits (t : Nat) (inDramOnly : Bool) :
    mirrorLost t inDramOnly (withUnits E D s) = withUnits E D (mirrorLost t inDramOnly s) := by
  unfold mirrorLost
  dsimp only
  refine Eq.trans ?_ (withUnits_foldl (fun s m => ?_) _ _) <;> rfl

/-! ### The adoption of a slot (R130, R160, R163) -/

theorem tailLost_withUnits (t : Nat) : tailLost t (withUnits E D s) = withUnits E D (tailLost t s) := rfl

theorem putRegion_withUnits (x : Region) : putRegion x (withUnits E D s) = withUnits E D (putRegion x s) := rfl

theorem rebuildRegion_withUnits (n r : Nat) : rebuildRegion n r (withUnits E D s) = withUnits E D (rebuildRegion n r s) := by
  unfold rebuildRegion
  dsimp only
  simp only [show ownerSlot (withUnits E D s) n r = ownerSlot s n r from rfl,
    show ∀ k, findJournal (withUnits E D s) k = findJournal s k from fun _ => rfl,
    show ∀ k, recordBelow (withUnits E D s) n r k = recordBelow s n r k from fun _ => rfl]
  refine withUnits_ite (fun _ => rfl) fun _ => ?_
  rw [show getRegion (withUnits E D s) n r = getRegion s n r from rfl, putRegion_withUnits, setSpans_withUnits]
  exact withUnits_ite (fun _ => takeFrame_withUnits n r) fun _ => rfl

/-- The keys of the regions that have changed hands. -/
def movedKeys (old : State) (t : Nat) (s : State) : List (Nat × Nat) :=
  (s.map.regions.filter fun x => ownerSlot s x.nsid x.r == t || ownerTile old x.nsid x.r != ownerTile s x.nsid x.r).map fun x => (x.nsid, x.r)

/-- The state without the fetches of regions. -/
def fetchesDropped (keys : List (Nat × Nat)) (s : State) : State :=
  { s with media := { s.media with ops := s.media.ops.filter fun o => match o.use with
    | .mapFetch n r => !keys.contains (n, r)
    | _ => true } }

theorem rebuildMoved_eq (old : State) (t : Nat) (s : State) : rebuildMoved old t s =
    fetchesDropped (movedKeys old t s) ((movedKeys old t s).foldl (fun s k => rebuildRegion k.1 k.2 s) s) := rfl

theorem rebuildMoved_withUnits (old : State) (t : Nat) :
    rebuildMoved (withUnits E D old) t (withUnits E D s) = withUnits E D (rebuildMoved old t s) := by
  rw [rebuildMoved_eq, rebuildMoved_eq, show movedKeys (withUnits E D old) t (withUnits E D s) = movedKeys old t s from rfl,
    withUnits_foldl (fun _ k => rebuildRegion_withUnits k.1 k.2)]
  rfl

theorem forwardsAdopted_withUnits (t : Nat) : forwardsAdopted t (withUnits E D s) = withUnits E D (forwardsAdopted t s) := rfl

/-- The map with a slot taken from its tile. -/
def slotAway (t : Nat) (s : State) : State :=
  { s with map := { s.map with
    away := s.map.away ++ [t]
    handBack := s.map.handBack.filter fun x => x != t
    returned := s.map.returned.filter fun x => x.1 != t
    dirs := s.map.dirs.map fun d => if d.slot == t then { d with loaded := d.len == 0, wb := none } else d } }

theorem adoptSlot_eq (t : Nat) (s : State) : adoptSlot t false s =
    if s.map.away.contains t then s else logEv .mapAdopt t [t, 0] (rebuildMoved s t (forwardsAdopted t (slotAway t s))) := rfl

theorem adoptSlot_withUnits (t : Nat) : adoptSlot t false (withUnits E D s) = withUnits E D (adoptSlot t false s) := by
  rw [adoptSlot_eq, adoptSlot_eq]
  refine withUnits_ite (fun _ => rfl) fun _ => ?_
  rw [show slotAway t (withUnits E D s) = withUnits E D (slotAway t s) from rfl, forwardsAdopted_withUnits, rebuildMoved_withUnits]
  rfl

/-- The census, the read counts and the metering as a frozen channel leaves them. -/
def countsLost (t : Nat) (s : State) : State :=
  let touched := (s.red.groups.filter fun g => g.members.any fun d => tileOfDie d == t).map (·.sg)
  let inTouched := fun (b : Blk) => (groupOfDie s b.die).any fun g => touched.contains g.sg
  { s with
    rcl := { s.rcl with
      censusDone := s.rcl.censusDone.filter fun g => !touched.contains g
      toCensus := s.map.regions.map fun x => (x.nsid, x.r)
      summariesDone := s.rcl.summariesDone.filter fun x => x != t
      blocks := s.rcl.blocks.map fun b =>
        { b with
          live := if inTouched b then 0 else b.live
          reads := if tileOfDie b.die == t then readsAtStart s b.die else b.reads } }
    media := { s.media with
      levels := (s.media.levels.filter fun l => tileOfDie l.die != t) ++ s.media.saved.filter fun l => tileOfDie l.die == t }
    clock := if t == s.mgmt.primary then { s.clock with held := [], countsLost := true } else s.clock }

theorem dramLost_eq (t : Nat) (s : State) : dramLost t s =
    countsLost t (memberStagingLost t true (mirrorLost t true (adoptSlot t false s))) := rfl

theorem countsLost_withUnits (t : Nat) : countsLost t (withUnits E D s) = withUnits E D (countsLost t s) := rfl

/-- What a frozen channel loses neither reads nor changes the engines and the channels. -/
theorem dramLost_withUnits (t : Nat) : dramLost t (withUnits E D s) = withUnits E D (dramLost t s) := by
  rw [dramLost_eq, dramLost_eq, adoptSlot_withUnits, mirrorLost_withUnits, memberStagingLost_withUnits, countsLost_withUnits]

/-- The loss of a channel's content, and the requests that can be served after it. -/
def contentLost (t : Nat) (s : State) : State := serveMap (dramLost t s)

theorem contentLost_withUnits (t : Nat) : contentLost t (withUnits E D s) = withUnits E D (contentLost t s) := by
  unfold contentLost
  rw [dramLost_withUnits, serveMap_withUnits]

theorem units_contentLost (t : Nat) (s : State) : (contentLost t s).eng = s.eng ∧ (contentLost t s).drams = s.drams := by
  have h : contentLost t s = withUnits s.eng s.drams (contentLost t s) := contentLost_withUnits (E := s.eng) (D := s.drams) t
  exact ⟨congrArg (·.eng) h, congrArg (·.drams) h⟩

end Sys2Proof.Machine
end

section
/-!
PROOFS. A DRAM channel: its enable, its start, what it makes of a burst, its freeze and its restart (R371 to R375, R383 to R387).
-/
namespace Sys2Proof.Machine
open Sys2Proof

variable {tile : Nat} {a : DramAcc} {beats : List Nat} {d : Dram} {s t : State}

/-! ### The freeze (R384, R385) -/

/-- From `s` to `t` only the engines and what is sent changed. -/
def OnlyRequests (s t : State) : Prop := t = { s with eng := t.eng, outs := t.outs }

theorem onlyRequests_foldl {α : Type} {f : State → α → State} (h : ∀ s x, OnlyRequests s (f s x)) :
    ∀ (l : List α) (s : State), OnlyRequests s (l.foldl f s)
  | [], _ => rfl
  | x :: l, s => Eq.trans (onlyRequests_foldl h l (f s x))
      (congrArg (fun y : State => { y with eng := (l.foldl f (f s x)).eng, outs := (l.foldl f (f s x)).outs }) (h s x))

theorem onlyRequests_failRequests (tile : Nat) (s : State) : OnlyRequests s (failRequests tile s) := by
  unfold failRequests
  refine onlyRequests_foldl (fun s r => ?_) _ s
  split <;> rfl

theorem failRequests_of_none (h : reqsAt s tile .dram = []) : failRequests tile s = s := by
  rw [failRequests, h]
  rfl

/-- A channel that freezes with a capture. -/
def frozenWith (c : Capture) (d : Dram) : Dram :=
  { d with frozen := true, ready := false, restarting := false, capRead := false, cap := some c, step := 0 }

/-- The state with a channel frozen, counted and logged. -/
def freezeNoted (tile : Nat) (c : Capture) (s : State) : State :=
  countLife 6 (logEv .dramFreeze tile [c.cause] (bump tile .drc_errors_freezes (updDram tile (frozenWith c) s)))

/-- What follows the freeze of a channel that was as `d`. -/
def freezeEnded (tile cause : Nat) (d : Dram) (s : State) : State :=
  if d.restarting then logEv .dramRestartFail tile [cause] s else if d.ready then contentLost tile s else s

theorem freezeDram_of_first {cause bad synd : Nat} (hfind : findDram s tile = some d) (hfrozen : d.frozen = false) :
    freezeDram tile cause a bad synd s = freezeEnded tile cause d (freezeNoted tile
      { cause := cause, acc := a, further := 0, bad := bad, minutes := s.island.minutes, synd := synd } (failRequests tile s)) := by
  simp only [freezeDram, hfind, hfrozen, Bool.false_and, Bool.false_eq_true, if_false]
  rfl

theorem freezeEnded_withUnits {E : Engines} {D : List Dram} (tile cause : Nat) (d : Dram) :
    freezeEnded tile cause d (withUnits E D s) = withUnits E D (freezeEnded tile cause d s) :=
  withUnits_ite (fun _ => rfl) fun _ => withUnits_ite (fun _ => contentLost_withUnits tile) fun _ => rfl

theorem units_freezeEnded (tile cause : Nat) (d : Dram) (s : State) :
    (freezeEnded tile cause d s).eng = s.eng ∧ (freezeEnded tile cause d s).drams = s.drams := by
  have h : freezeEnded tile cause d s = withUnits s.eng s.drams (freezeEnded tile cause d s) :=
    freezeEnded_withUnits (E := s.eng) (D := s.drams) tile cause d
  exact ⟨congrArg (·.eng) h, congrArg (·.drams) h⟩

/-- A channel that freezes for the first time, and no other, is frozen with its capture; the engines fail its requests. -/
theorem freezeDram_spec {cause bad synd : Nat} (hfind : findDram s tile = some d) (hfrozen : d.frozen = false) :
    let c : Capture := { cause := cause, acc := a, further := 0, bad := bad, minutes := s.island.minutes, synd := synd }
    findDram (freezeDram tile cause a bad synd s) tile = some (frozenWith c d) ∧
    (∀ b, b ≠ tile → findDram (freezeDram tile cause a bad synd s) b = findDram s b) ∧
    (freezeDram tile cause a bad synd s).eng = (failRequests tile s).eng := by
  intro c
  obtain ⟨heng, hdrams⟩ := units_freezeEnded tile cause d (freezeNoted tile c (failRequests tile s))
  have hfail : (failRequests tile s).drams = s.drams := congrArg (·.drams) (onlyRequests_failRequests tile s)
  have hall : (freezeDram tile cause a bad synd s).drams = (updDram tile (frozenWith c) s).drams := by
    rw [freezeDram_of_first hfind hfrozen, hdrams]
    exact congrArg (List.map fun d => if d.tile == tile then frozenWith c d else d) hfail
  obtain ⟨hself, hother⟩ := findDram_updDram_spec (f := frozenWith c) (fun _ => rfl) hfind
  have hsame : ∀ b, findDram (freezeDram tile cause a bad synd s) b = findDram (updDram tile (frozenWith c) s) b := fun b => by
    rw [findDram, hall, ← findDram]
  refine ⟨(hsame tile).trans hself, fun b hb => (hsame b).trans (hother b hb), ?_⟩
  rw [freezeDram_of_first hfind hfrozen]
  exact heng

/-- With no request waiting, a first freeze neither reads nor changes the engines. -/
theorem freezeDram_engines {cause bad synd : Nat} {E : Engines} (hfind : findDram s tile = some d) (hfrozen : d.frozen = false)
    (hs : reqsAt s tile .dram = []) (hE : reqsAt { s with eng := E } tile .dram = []) :
    freezeDram tile cause a bad synd { s with eng := E } = { freezeDram tile cause a bad synd s with eng := E } ∧
    (freezeDram tile cause a bad synd s).eng = s.eng := by
  have hfindE : findDram { s with eng := E } tile = some d := hfind
  have heng := (freezeDram_spec (a := a) (cause := cause) (bad := bad) (synd := synd) hfind hfrozen).2.2
  rw [failRequests_of_none hs] at heng
  refine ⟨?_, heng⟩
  rw [freezeDram_of_first hfindE hfrozen, freezeDram_of_first hfind hfrozen, failRequests_of_none hs, failRequests_of_none hE]
  generalize hc : ({ cause := cause, acc := a, further := 0, bad := bad, minutes := s.island.minutes, synd := synd } : Capture) = c
  have hcommute := freezeEnded_withUnits (E := E) (D := (freezeNoted tile c s).drams) (s := freezeNoted tile c s) tile cause d
  refine hcommute.trans ?_
  have hdrams := (units_freezeEnded tile cause d (freezeNoted tile c s)).2
  rw [← hdrams]
  rfl

/-! ### A burst (R373 to R377) -/

/-- A channel after an access, under the page policy (R377). -/
def accessed (thresh : Nat) (a : DramAcc) (x d : Dram) : Dram :=
  let b := (x.banks.find? (sameBank a)).getD
    { subch := a.subch, rank := a.rank, group := a.group, bank := a.bank, open_ := none, last := none, hist := 10 }
  let h := (b.hist * 2 + b2n (b.last == some a.row)) % 16
  { d with
    banks := (d.banks.filter fun x => !sameBank a x) ++
      [{ b with hist := h, last := some a.row, open_ := if decide (thresh ≤ ones4 h) then some a.row else none }]
    ranks := d.ranks.map fun r => if r.rank == a.rank then { r with down := false } else r }

theorem bankAccess_of_found (hfind : findDram s tile = some d) :
    bankAccess tile a s = updDram tile (accessed (s.tfld tile .drc_policy_hit_thresh) a d) s := by
  simp only [bankAccess, hfind]
  rfl

theorem findDram_bankAccess (hfind : findDram s tile = some d) : (∃ e, findDram (bankAccess tile a s) tile = some e ∧ e.frozen = d.frozen ∧
    e.ready = d.ready ∧ e.ces = d.ces) ∧ ∀ b, b ≠ tile → findDram (bankAccess tile a s) b = findDram s b := by
  rw [bankAccess_of_found hfind]
  obtain ⟨hself, hother⟩ := findDram_updDram_spec (f := accessed (s.tfld tile .drc_policy_hit_thresh) a d) (fun _ => rfl) hfind
  exact ⟨⟨_, hself, rfl, rfl, rfl⟩, hother⟩

/-- The syndromes that a burst is decoded from. -/
def burstSyn (beats : List Nat) (a : DramAcc) : List Nat := syndromes (symbolsOf beats) a

theorem decodeBurst_of_clean (hfind : findDram s tile = some d) (hready : d.ready = true) (hfrozen : d.frozen = false)
    (hdec : decodeDram (burstSyn beats a) = .clean) :
    decodeBurst tile a beats s = emit (.dramData tile a (dataOf (symbolsOf beats))) (bankAccess tile a s) := by
  simp only [burstSyn] at hdec
  simp [decodeBurst, hfind, hready, hfrozen, hdec]

/-- A channel with a corrected location kept. -/
def ceNoted (minutes : Nat) (a : DramAcc) (x d : Dram) : Dram :=
  { d with ces := (x.ces.filter fun c => minutes < c.2 + 1440) ++ [(a, minutes)] }

/-- The state with a corrected burst sent, written back, kept and counted. -/
def ceServed (tile : Nat) (a : DramAcc) (good : List Nat) (minutes : Nat) (d : Dram) (s : State) : State :=
  countLife 5 <| bump tile .drc_ce_ce_count (updDram tile (ceNoted minutes a d)
    (emit (.dramWrite tile a (beatsOf good)) (emit (.dramData tile a (dataOf good)) s)))

theorem ceServed_engines (E : Engines) (good : List Nat) (minutes : Nat) :
    ceServed tile a good minutes d { s with eng := E } = { ceServed tile a good minutes d s with eng := E } ∧
    (ceServed tile a good minutes d s).eng = s.eng := ⟨rfl, rfl⟩

theorem decodeBurst_of_corrected {ps : List Nat} (hfind : findDram s tile = some d) (hready : d.ready = true) (hfrozen : d.frozen = false)
    (hdec : decodeDram (burstSyn beats a) = .corrected ps) :
    decodeBurst tile a beats s =
      if (d.ces.filter fun c => s.island.minutes < c.2 + 1440).any fun c => sameBurst c.1 a then
        logEv .dramCeRepeat tile [capAddr a, a.column] (ceServed tile a (corrected (burstSyn beats a) ps (symbolsOf beats)) s.island.minutes d (bankAccess tile a s))
      else ceServed tile a (corrected (burstSyn beats a) ps (symbolsOf beats)) s.island.minutes d (bankAccess tile a s) := by
  simp only [burstSyn] at hdec
  simp only [decodeBurst, hfind, hready, hfrozen, hdec, Bool.not_true, Bool.or_false, Bool.false_eq_true, if_false]
  rfl

/-- The bad symbols that the capture of a burst beyond correction names. -/
def badSymbols (syn : List Nat) : Nat :=
  match decodeDram syn with
  | .addrFault ps => (ps.filter (· < 40)).length
  | _ => Config.dramBad syn % 41

/-- The cause of a freeze by a burst. -/
def burstCause (syn : List Nat) : Nat := if decodeDram syn = .dataUe then 1 else 2

theorem decodeBurst_of_failed (hfind : findDram s tile = some d) (hready : d.ready = true) (hfrozen : d.frozen = false)
    (hdec : decodeDram (burstSyn beats a) = .dataUe ∨ ∃ ps, decodeDram (burstSyn beats a) = .addrFault ps) :
    decodeBurst tile a beats s = emit (.dramFailed tile a) (freezeDram tile (burstCause (burstSyn beats a)) a (badSymbols (burstSyn beats a))
      (syndromeWord (burstSyn beats a)) (bankAccess tile a s)) := by
  obtain hdec | ⟨ps, hdec⟩ := hdec
  · have hcause : burstCause (burstSyn beats a) = 1 := if_pos hdec
    have hbad : badSymbols (burstSyn beats a) = Config.dramBad (burstSyn beats a) % 41 := by rw [badSymbols, hdec]
    rw [hcause, hbad]
    simp only [burstSyn] at hdec ⊢
    simp [decodeBurst, hfind, hready, hfrozen, hdec]
  · have hcause : burstCause (burstSyn beats a) = 2 := if_neg (by simp [hdec])
    have hbad : badSymbols (burstSyn beats a) = (ps.filter (· < 40)).length := by rw [badSymbols, hdec]
    rw [hcause, hbad]
    simp only [burstSyn] at hdec ⊢
    simp [decodeBurst, hfind, hready, hfrozen, hdec]

/-- Every burst decodes to clean, corrected or failed. -/
theorem decode_cases (syn : List Nat) : decodeDram syn = .clean ∨ (∃ ps, decodeDram syn = .corrected ps) ∨
    (decodeDram syn = .dataUe ∨ ∃ ps, decodeDram syn = .addrFault ps) := by
  cases h : decodeDram syn <;> simp

/-- With no request waiting, a burst is decoded alike whatever the engines are. -/
theorem decodeBurst_engines {E : Engines} (hfind : findDram s tile = some d) (hready : d.ready = true) (hfrozen : d.frozen = false)
    (hs : reqsAt s tile .dram = []) (hE : reqsAt { s with eng := E } tile .dram = []) :
    decodeBurst tile a beats { s with eng := E } = { decodeBurst tile a beats s with eng := E } ∧
    (decodeBurst tile a beats s).eng = s.eng := by
  have hfindE : findDram { s with eng := E } tile = some d := hfind
  have hacc : bankAccess tile a { s with eng := E } = { bankAccess tile a s with eng := E } := by
    rw [bankAccess_of_found hfind, bankAccess_of_found hfindE]
    rfl
  have heng : (bankAccess tile a s).eng = s.eng := by
    rw [bankAccess_of_found hfind]
    rfl
  obtain hdec | ⟨ps, hdec⟩ | hdec := decode_cases (burstSyn beats a)
  · rw [decodeBurst_of_clean hfind hready hfrozen hdec, decodeBurst_of_clean hfindE hready hfrozen hdec, hacc]
    exact ⟨rfl, heng⟩
  · rw [decodeBurst_of_corrected hfind hready hfrozen hdec, decodeBurst_of_corrected hfindE hready hfrozen hdec]
    rw [hacc]
    obtain ⟨hserved, hkept⟩ := ceServed_engines (tile := tile) (a := a) (d := d) (s := bankAccess tile a s) E
      (corrected (burstSyn beats a) ps (symbolsOf beats)) s.island.minutes
    by_cases hagain : ((d.ces.filter fun c => s.island.minutes < c.2 + 1440).any fun c => sameBurst c.1 a) = true
    · rw [if_pos hagain, if_pos (by exact hagain)]
      exact ⟨congrArg (logEv .dramCeRepeat tile [capAddr a, a.column]) hserved, hkept.trans heng⟩
    · rw [if_neg hagain, if_neg (by exact hagain)]
      exact ⟨hserved, hkept.trans heng⟩
  · rw [decodeBurst_of_failed hfind hready hfrozen hdec, decodeBurst_of_failed hfindE hready hfrozen hdec, hacc]
    obtain ⟨⟨e, hfinde, hfre, -, -⟩, -⟩ := findDram_bankAccess (a := a) hfind
    have hs' : reqsAt (bankAccess tile a s) tile .dram = [] := by
      rw [reqsAt, heng]
      exact hs
    obtain ⟨hsame, hkept⟩ := freezeDram_engines (E := E) (a := a) (cause := burstCause (burstSyn beats a))
      (bad := badSymbols (burstSyn beats a)) (synd := syndromeWord (burstSyn beats a)) hfinde (hfre.trans hfrozen) hs' hE
    rw [hsame]
    exact ⟨rfl, hkept.trans heng⟩

end Sys2Proof.Machine
end

section
/-!
PROOFS. The commands of a DRAM channel, one clause of the obligation each (R371 to R375, R383 to R387).
-/
namespace Sys2Proof.Machine
open Sys2Proof

variable {tile : Nat} {a : DramAcc} {beats : List Nat} {d : Dram} {s t : State}

/-! ### The enable (R371, R372) -/

theorem findDram_started (x : Dram) (hx : x.tile = tile) (s : State) :
    findDram { s with drams := (s.drams.filter fun d => d.tile != tile) ++ [x] } tile = some x ∧
    ∀ b, b ≠ tile → findDram { s with drams := (s.drams.filter fun d => d.tile != tile) ++ [x] } b = findDram s b := by
  refine ⟨?_, fun b hb => ?_⟩
  · have hgone := find?_filter_self (fun d : Dram => d.tile == tile) s.drams
    simp only [findDram, List.find?_append, bne, hgone]
    simp [hx]
  · have hkept := find?_filter_not (fun d : Dram => d.tile == b) (fun d => d.tile == tile)
      (fun d h => by simpa [beq_iff_eq.1 h] using hb) s.drams
    simp only [findDram, List.find?_append, bne, hkept]
    simp [hx, Ne.symm hb]

theorem dramStart_of_idle (hidle : (s.drams.any fun d => d.tile == tile && d.ready) = false) :
    dramStart tile s = { s with drams := (s.drams.filter fun d => d.tile != tile) ++ [newDram s tile] } := by
  unfold dramStart
  rw [if_neg (by simp [hidle])]

theorem tfld_setT_other (w : Nat) {f g : Fld} (h : g ≠ f) (v : Nat) (s : State) : (setT w f v s).tfld w g = s.tfld w g := by
  simp [State.tfld, setT, fld_setFld, h]

theorem drcEnable_next (tile value : Nat) (s : State) (ht : tile ≠ pkgWin) (hopen : regOpen s tile = true) (hv : bitOf value 0 = true)
    (hoff : s.tfld tile .drc_cfg_drc_enable = 0) :
    let s0 := writeCfg tile .drcCfg (value - 1) s
    (s0.tfld tile .drc_cfg_density ≠ 3 → drcDescription s0 tile = drcDescription s0 0 →
      (s0.drams.any fun d => d.tile == tile && d.ready) = false →
      Next (.drcEnable tile value) s fun t =>
        t = { setT tile .drc_cfg_drc_enable 1 s0 with drams := t.drams } ∧
        (∃ d, findDram t tile = some d ∧ d.step = 1 ∧ d.ready = false ∧ d.frozen = false ∧
          d.rate = s0.tfld tile .drc_cfg_rate_max ∧ d.ranks.length = s0.tfld tile .drc_cfg_ranks + 1) ∧
        ∀ a, a ≠ tile → findDram t a = findDram s a) ∧
    (s0.tfld tile .drc_cfg_density ≠ 3 → drcDescription s0 tile ≠ drcDescription s0 0 →
      Next (.drcEnable tile value) s fun t =>
        t = reject tile (bar0 tile 0 .drcCfg) 9 (setT tile .drc_status_cfg_mismatch 1 s0)) := by
  intro s0
  have htw : exec (.drcEnable tile value) s = .next (drcEnable tile value s) := congrArg Host.Outcome.next (tileWrite_of_open ht hopen)
  have hdens : s0.tfld tile .drc_cfg_density ≠ 3 → (s0.tfld tile .drc_cfg_density == 3) = false := fun h => by simpa using h
  refine ⟨fun hden hsame hidle => ?_, fun hden hdiff => ?_⟩
  · have hno : drcDiffers s0 tile = false := by simp [drcDiffers, hsame]
    have hrun : drcEnable tile value s = dramStart tile (setT tile .drc_cfg_drc_enable 1 s0) :=
      writeEnable_of_ok hv hoff rfl (by simp only [hdens hden, hno, Bool.false_eq_true, if_false, s0])
    have hstart := dramStart_of_idle (s := setT tile .drc_cfg_drc_enable 1 s0) (tile := tile) hidle
    obtain ⟨hself, hother⟩ := findDram_started (tile := tile) (newDram (setT tile .drc_cfg_drc_enable 1 s0) tile) rfl
      (setT tile .drc_cfg_drc_enable 1 s0)
    have hdrams : (setT tile .drc_cfg_drc_enable 1 s0).drams = s.drams := by
      have hcfg : s0.drams = s.drams := congrArg (·.drams) (onlyRegs_writeCfg tile .drcCfg (value - 1) s)
      exact hcfg
    refine ⟨_, htw.trans (congrArg Host.Outcome.next (hrun.trans hstart)), rfl, ⟨_, hself, rfl, rfl, rfl, ?_, ?_⟩, fun b hb => ?_⟩
    · exact tfld_setT_other tile (by decide) 1 s0
    · have hranks := tfld_setT_other tile (f := .drc_cfg_drc_enable) (g := .drc_cfg_ranks) (by decide) 1 s0
      simp [newDram, hranks]
    · rw [hother b hb, findDram, hdrams, ← findDram]
  · have hyes : drcDiffers s0 tile = true := by simpa [drcDiffers] using hdiff
    have hrun := writeEnable_of_check (w := tile) (r := .drcCfg) (f := .drc_cfg_drc_enable) (v := value) (s := s) (reason := 9)
      (check := fun s => if s.tfld tile .drc_cfg_density == 3 then some 3 else if drcDiffers s tile then some 9 else none)
      (onFail := fun s => if drcDiffers s tile then setT tile .drc_status_cfg_mismatch 1 s else s) (start := dramStart tile)
      hv hoff rfl (by simp only [hdens hden, hyes, Bool.false_eq_true, if_false, if_true, s0])
    rw [winTile_of_regOpen ht hopen] at hrun
    have hfail : (if drcDiffers s0 tile then setT tile .drc_status_cfg_mismatch 1 s0 else s0) = setT tile .drc_status_cfg_mismatch 1 s0 :=
      if_pos hyes
    exact ⟨_, htw.trans (congrArg Host.Outcome.next hrun), congrArg (reject tile (bar0 tile 0 .drcCfg) 9) hfail⟩

/-! ### The start (R372, R386) -/

theorem dramStartStep_next (tile : Nat) (d : Dram) (s : State) (hfind : findDram s tile = some d) :
    (1 ≤ d.step → d.step < 4 → ¬(d.step = 3 ∧ d.rate < s.tfld tile .drc_cfg_rate_max) →
      Next (.dramStartStep tile true) s fun t => t = { s with drams := t.drams } ∧
        findDram t tile = some { d with step := d.step + 1 } ∧ ∀ a, a ≠ tile → findDram t a = findDram s a) ∧
    (d.step = 4 → d.restarting = false →
      Next (.dramStartStep tile true) s fun t => t = { s with drams := t.drams } ∧
        findDram t tile = some { d with
          step := 5, ready := true, frozen := false, restarting := false, capRead := false, cap := none } ∧
        ∀ a, a ≠ tile → findDram t a = findDram s a) ∧
    (d.step = 3 → 0 < d.rate →
      Next (.dramStartStep tile false) s fun t => t = { s with drams := t.drams } ∧
        findDram t tile = some { d with rate := d.rate - 1 } ∧ ∀ a, a ≠ tile → findDram t a = findDram s a) := by
  refine ⟨fun hlo hhi hrate => ?_, fun hstep hrest => ?_, fun hstep hrate => ?_⟩
  · have hrun : dramStartStep tile true s = updDram tile (fun d => { d with step := d.step + 1 }) s := by
      simp only [dramStartStep, hfind]
      rw [if_neg (by simp only [Bool.or_eq_true, beq_iff_eq, decide_eq_true_eq]; omega), if_neg (by decide), if_pos hhi,
        if_neg (by simpa using hrate)]
    obtain ⟨hself, hother⟩ := findDram_updDram_spec (f := fun d => { d with step := d.step + 1 }) (fun _ => rfl) hfind
    exact ⟨_, congrArg Host.Outcome.next hrun, rfl, hself, hother⟩
  · have hrun : dramStartStep tile true s = updDram tile (fun d => { d with
        step := 5, ready := true, frozen := false, restarting := false, capRead := false, cap := none }) s := by
      simp [dramStartStep, hfind, hstep, hrest]
    obtain ⟨hself, hother⟩ := findDram_updDram_spec (f := fun d => { d with
      step := 5, ready := true, frozen := false, restarting := false, capRead := false, cap := none }) (fun _ => rfl) hfind
    exact ⟨_, congrArg Host.Outcome.next hrun, rfl, hself, hother⟩
  · have hrun : dramStartStep tile false s = updDram tile (fun d => { d with rate := d.rate - 1 }) s := by
      simp [dramStartStep, hfind, hstep, hrate]
    obtain ⟨hself, hother⟩ := findDram_updDram_spec (f := fun d => { d with rate := d.rate - 1 }) (fun _ => rfl) hfind
    exact ⟨_, congrArg Host.Outcome.next hrun, rfl, hself, hother⟩

/-! ### Reads (R373 to R376) -/

/-- At a free engine a read is decoded at once, on the state whose engine has taken it. -/
theorem dramRequest_of_free (hfind : findDram s tile = some d) (hready : d.ready = true) (hfrozen : d.frozen = false)
    (hfree : EngineFree tile .dram s) : ∃ E, dramRequest tile a beats true s = decodeBurst tile a beats { s with eng := E } ∧
      OnlyEngine tile .dram s { s with eng := E } := by
  obtain ⟨hreqs, hhand, hsaved⟩ := hfree
  obtain ⟨cr, htake⟩ := takeReq_submit (c := PClass.ofCode a.cls) (w := .dram a beats) (may := fun _ => true) hreqs rfl
  have hone : (reqsAt (submit tile .dram (PClass.ofCode a.cls) (.dram a beats) s) tile .dram).length = 1 := by
    rw [reqsAt_submit hreqs]
    rfl
  have htook := tookOne_reqTaken (c := PClass.ofCode a.cls) (w := .dram a beats) cr hreqs
  refine ⟨(reqTaken tile .dram (PClass.ofCode a.cls) (.dram a beats) cr s).eng, ?_, onlyEngine_of_tookOne htook
    ⟨reqsAt_of_tookOne htook hreqs, hhand, hsaved⟩⟩
  simp only [dramRequest, hfind, hready, hfrozen, Bool.not_true, Bool.false_eq_true, if_false, if_true, hone, serveDram, htake]
  rfl

theorem onlyEngine_of_eng {u : EngUnit} {v : State} (h : OnlyEngine tile u s v) (he : t.eng = v.eng) : OnlyEngine tile u s t := by
  simp only [OnlyEngine, EngineFree, reqsAt, pipeOf, turnsAt, he]
  exact h

theorem bankAccess_engines (E : Engines) (hfind : findDram s tile = some d) :
    bankAccess tile a { s with eng := E } = { s with eng := E, drams := (bankAccess tile a s).drams } := by
  rw [bankAccess_of_found hfind, bankAccess_of_found (s := { s with eng := E }) hfind]
  rfl

/-- A clean burst is sent, and the page policy applies. -/
theorem clean_spec (E : Engines) (hfind : findDram s tile = some d) (hready : d.ready = true) (hfrozen : d.frozen = false)
    (hdec : decodeDram (burstSyn beats a) = .clean) (honly : OnlyEngine tile .dram s { s with eng := E }) :
    let t := decodeBurst tile a beats { s with eng := E }
    t = { s with drams := t.drams, outs := t.outs, eng := t.eng } ∧ OnlyEngine tile .dram s t ∧
      t.drams = (bankAccess tile a s).drams ∧ Sends [.dramData tile a (dataOf (symbolsOf beats))] s t := by
  rw [decodeBurst_of_clean (s := { s with eng := E }) hfind hready hfrozen hdec, bankAccess_engines E hfind]
  exact ⟨rfl, onlyEngine_of_eng honly rfl, rfl, rfl⟩

theorem bump_frame (t : Nat) (f : Fld) (drams : List Dram) (outs : List Out) (s : State) :
    bump t f { s with drams := drams, outs := outs } = { s with drams := drams, outs := outs, regs := (bump t f s).regs } := rfl

theorem ceServed_frame (good : List Nat) (minutes : Nat) (s : State) :
    ceServed tile a good minutes d s = { s with
      drams := (updDram tile (ceNoted minutes a d) s).drams, regs := (bump tile .drc_ce_ce_count s).regs
      health := (ceServed tile a good minutes d s).health
      outs := s.outs ++ [.dramData tile a (dataOf good), .dramWrite tile a (beatsOf good)] } := by
  have houts : (s.outs ++ [.dramData tile a (dataOf good)]) ++ [.dramWrite tile a (beatsOf good)] =
      s.outs ++ [.dramData tile a (dataOf good), .dramWrite tile a (beatsOf good)] := List.append_assoc ..
  have hbump := bump_frame tile .drc_ce_ce_count (updDram tile (ceNoted minutes a d) s).drams
    ((s.outs ++ [.dramData tile a (dataOf good)]) ++ [.dramWrite tile a (beatsOf good)]) s
  rw [← houts]
  exact congrArg (countLife 5) hbump

/-- A corrected burst is sent, written back, counted and kept. -/
theorem corrected_spec (E : Engines) (hfind : findDram s tile = some d) (hready : d.ready = true) (hfrozen : d.frozen = false) {ps : List Nat}
    (hdec : decodeDram (burstSyn beats a) = .corrected ps) (hnew : ∀ c ∈ d.ces, sameBurst c.1 a = false)
    (honly : OnlyEngine tile .dram s { s with eng := E }) :
    let t := decodeBurst tile a beats { s with eng := E }
    let good := corrected (burstSyn beats a) ps (symbolsOf beats)
    t = { s with drams := t.drams, regs := t.regs, health := t.health, outs := t.outs, eng := t.eng } ∧ OnlyEngine tile .dram s t ∧
      Sends [.dramData tile a (dataOf good), .dramWrite tile a (beatsOf good)] s t ∧
      t.tfld tile .drc_ce_ce_count = Fld.counted .drc_ce_ce_count (s.tfld tile .drc_ce_ce_count + 1) ∧
      OnlyFields [(tile, 0, .drc_ce_ce_count)] s t ∧
      ∃ e, findDram t tile = some e ∧ (a, s.island.minutes) ∈ e.ces ∧ e.frozen = false ∧ e.ready = true := by
  have honce : ((d.ces.filter fun c => s.island.minutes < c.2 + 1440).any fun c => sameBurst c.1 a) = false :=
    List.any_eq_false.2 fun c hc => by simp [hnew c (List.mem_filter.1 hc).1]
  obtain ⟨⟨e, hfinde, hfre, hre, -⟩, -⟩ := findDram_bankAccess (a := a) hfind
  rw [decodeBurst_of_corrected (s := { s with eng := E }) hfind hready hfrozen hdec, if_neg (by exact Bool.eq_false_iff.1 honce),
    bankAccess_engines E hfind]
  intro t good
  have hframe := ceServed_frame (tile := tile) (a := a) (d := d) good s.island.minutes
    { s with eng := E, drams := (bankAccess tile a s).drams }
  have ht : t = _ := hframe
  clear_value t
  generalize (ceServed tile a good s.island.minutes d { s with eng := E, drams := (bankAccess tile a s).drams }).health = health at ht
  have hcount : ∀ w i f, (bump tile .drc_ce_ce_count s).fld w i f = if w = tile ∧ i = 0 ∧ f = .drc_ce_ce_count then
      Fld.counted .drc_ce_ce_count (s.fld tile 0 .drc_ce_ce_count + 1) else s.fld w i f := fun w i f => fld_addFld s tile 0 w i _ f 1
  obtain ⟨hself, -⟩ := findDram_updDram_spec (f := ceNoted s.island.minutes a d) (fun _ => rfl)
    (s := { s with eng := E, drams := (bankAccess tile a s).drams }) (d := e) hfinde
  subst ht
  refine ⟨rfl, onlyEngine_of_eng honly rfl, rfl, ?_, ⟨rfl, fun w i f hf => ?_⟩, _, hself, ?_, hfre.trans hfrozen, hre.trans hready⟩
  · exact (hcount tile 0 _).trans (if_pos ⟨rfl, rfl, rfl⟩)
  · exact (hcount w i f).trans (if_neg fun h => hf (by simp [h]))
  · exact List.mem_append_right _ (List.mem_singleton.2 rfl)

/-- A burst beyond correction freezes the channel with its capture; its read fails. -/
theorem failed_spec (E : Engines) (hfind : findDram s tile = some d) (hready : d.ready = true) (hfrozen : d.frozen = false)
    (hdec : decodeDram (burstSyn beats a) = .dataUe ∨ ∃ ps, decodeDram (burstSyn beats a) = .addrFault ps)
    (hreqs : reqsAt { s with eng := E } tile .dram = []) :
    let t := decodeBurst tile a beats { s with eng := E }
    (∃ e n, findDram t tile = some e ∧ e.frozen = true ∧ e.ready = false ∧ e.capRead = false ∧
      e.cap = some {
        cause := if decodeDram (burstSyn beats a) = .dataUe then 1 else 2, acc := a, further := 0, bad := n,
        minutes := s.island.minutes, synd := syndromeWord (burstSyn beats a) }) ∧
      Out.dramFailed tile a ∈ t.outs ∧ reqsAt t tile .dram = [] ∧ ∀ b, b ≠ tile → findDram t b = findDram s b := by
  obtain ⟨⟨e, hfinde, hfre, -, -⟩, hothere⟩ := findDram_bankAccess (a := a) hfind
  rw [decodeBurst_of_failed (s := { s with eng := E }) hfind hready hfrozen hdec, bankAccess_engines E hfind]
  obtain ⟨hself, hother, heng⟩ := freezeDram_spec (s := { s with eng := E, drams := (bankAccess tile a s).drams }) (a := a)
    (cause := burstCause (burstSyn beats a)) (bad := badSymbols (burstSyn beats a)) (synd := syndromeWord (burstSyn beats a))
    (d := e) hfinde (hfre.trans hfrozen)
  rw [failRequests_of_none (s := { s with eng := E, drams := (bankAccess tile a s).drams }) hreqs] at heng
  refine ⟨⟨_, badSymbols (burstSyn beats a), hself, rfl, rfl, rfl, rfl⟩, List.mem_append_right _ (List.mem_singleton.2 rfl), ?_,
    fun b hb => (hother b hb).trans (hothere b hb)⟩
  rw [reqsAt, show (emit (.dramFailed tile a) _).eng = E from heng]
  exact hreqs

/-! ### Scrubs, alerts and restarts (R375, R384, R386, R387) -/

theorem dramAlert_next (tile : Nat) (a : DramAcc) (d : Dram) (s : State) (hfind : findDram s tile = some d) (hready : d.ready = true)
    (hfrozen : d.frozen = false) :
    (Next (.dramAlert tile a true false) s fun t => t = { s with regs := t.regs } ∧
      t.tfld tile .drc_errors_alerts = Fld.counted .drc_errors_alerts (s.tfld tile .drc_errors_alerts + 1) ∧
      OnlyFields [(tile, 0, .drc_errors_alerts)] s t) ∧
    (∀ m g, (m = false ∨ g = true) → Next (.dramAlert tile a m g) s fun t =>
      ∃ e c, findDram t tile = some e ∧ e.frozen = true ∧ e.cap = some c ∧ c.cause = 3 ∧ c.acc = a) := by
  have hrun (m g : Bool) : dramAlert tile a m g s =
      if m && !g then bump tile .drc_errors_alerts s else freezeDram tile 3 a 0 0 (bump tile .drc_errors_alerts s) := by
    simp [dramAlert, hfind, hready, hfrozen]
  have hcount : ∀ w i f, (bump tile .drc_errors_alerts s).fld w i f = if w = tile ∧ i = 0 ∧ f = .drc_errors_alerts then
      Fld.counted .drc_errors_alerts (s.fld tile 0 .drc_errors_alerts + 1) else s.fld w i f := fun w i f => fld_addFld s tile 0 w i _ f 1
  refine ⟨⟨_, congrArg Host.Outcome.next (hrun true false), rfl, ?_, rfl, fun w i f hf => ?_⟩, fun m g hmg => ?_⟩
  · exact (hcount tile 0 _).trans (if_pos ⟨rfl, rfl, rfl⟩)
  · exact (hcount w i f).trans (if_neg fun h => hf (by simp [h]))
  · have hfreeze : dramAlert tile a m g s = freezeDram tile 3 a 0 0 (bump tile .drc_errors_alerts s) := by
      rw [hrun]
      obtain rfl | rfl := hmg
      · exact if_neg (by simp)
      · exact if_neg (by simp)
    obtain ⟨hself, -⟩ := freezeDram_spec (s := bump tile .drc_errors_alerts s) (a := a) (cause := 3) (bad := 0) (synd := 0) hfind hfrozen
    exact ⟨_, congrArg Host.Outcome.next hfreeze, _, _, hself, rfl, rfl, rfl, rfl⟩

theorem drcRestart_next (tile value : Nat) (d : Dram) (s : State) (ht : tile ≠ pkgWin) (hopen : regOpen s tile = true)
    (hfind : findDram s tile = some d) (hv : bitOf value 0 = true) (hrest : d.restarting = false) :
    (d.capRead = true → d.frozen = true →
      Next (.drcRestart tile value) s fun t => t = { s with drams := t.drams } ∧
        findDram t tile = some { d with restarting := true, step := 1, rate := s.tfld tile .drc_cfg_rate_max } ∧
        ∀ a, a ≠ tile → findDram t a = findDram s a) ∧
    (d.capRead = false → Next (.drcRestart tile value) s fun t => t = reject tile (bar0 tile 0 .drcCtrl) 11 s) := by
  have htw : exec (.drcRestart tile value) s = .next (drcRestart tile value s) := congrArg Host.Outcome.next (tileWrite_of_open ht hopen)
  refine ⟨fun hcap hfrozen => ?_, fun hcap => ?_⟩
  · have hrun : drcRestart tile value s =
        updDram tile (fun d => { d with restarting := true, step := 1, rate := s.tfld tile .drc_cfg_rate_max }) s := by
      simp [drcRestart, hfind, hv, hrest, hcap, hfrozen]
    obtain ⟨hself, hother⟩ := findDram_updDram_spec
      (f := fun d => { d with restarting := true, step := 1, rate := s.tfld tile .drc_cfg_rate_max }) (fun _ => rfl) hfind
    exact ⟨_, htw.trans (congrArg Host.Outcome.next hrun), rfl, hself, hother⟩
  · exact ⟨_, htw, by simp [drcRestart, hfind, hv, hrest, hcap]⟩

/-! ### The capture (R387, R388) -/

theorem regAt_drcCapStatus (htile : tile < pkgWin) (s : State) : regAt s (bar0 tile 0 .drcCapStatus) = some (tile, .drcCapStatus, 0, false) := by
  have hw : tile < 8 := htile
  have hbar : bar0 tile 0 .drcCapStatus = 0x100000 * (tile + 1) + 0xF024 := by
    rw [bar0]
    simp [htile, show Reg.drcCapStatus.info.off = 0xF024 from rfl]
  have hhere : regHere true 0xF024 = some (.drcCapStatus, 0, false) := by decide +kernel
  have hin : ¬(0x100000 * 9 ≤ bar0 tile 0 .drcCapStatus ∨ bar0 tile 0 .drcCapStatus % 4 ≠ 0) := by omega
  have hintile : 0x100000 ≤ bar0 tile 0 .drcCapStatus := by omega
  have hmod : bar0 tile 0 .drcCapStatus % 0x100000 = 0xF024 := by omega
  have hdiv : bar0 tile 0 .drcCapStatus / 0x100000 - 1 = tile := by omega
  simp only [not_or, not_le, not_not] at hin
  simp [regAt_eq, Nat.not_le.2 hin.1, hin.2, hintile, hmod, hdiv, hhere, inWindow, show Reg.drcCapStatus.info.sel = none from rfl]

theorem captureStatusRead_next (tile : Nat) (d : Dram) (s : State) (ht : tile < pkgWin) (hans : regAnswers s tile .drcCapStatus = true)
    (hfind : findDram s tile = some d) (hfrozen : d.frozen = true) :
    Next (.captureStatusRead tile) s fun t => t = { s with drams := t.drams, outs := t.outs } ∧
      Sends [.regRead (bar0 tile 0 .drcCapStatus) (readValue s (bar0 tile 0 .drcCapStatus))] s t ∧
      findDram t tile = some { d with capRead := true } ∧ ∀ a, a ≠ tile → findDram t a = findDram s a := by
  have hrun : readTile tile .drcCapStatus s = updDram tile (fun d => { d with capRead := d.capRead || d.frozen })
      (emit (.regRead (bar0 tile 0 .drcCapStatus) (readValue s (bar0 tile 0 .drcCapStatus))) s) := by
    rw [readTile, if_pos ht, readReg_of_found (bar0_aligned ht (by decide)) (regAt_drcCapStatus ht s) hans rfl]
    rfl
  obtain ⟨hself, hother⟩ := findDram_updDram_spec (f := fun d => { d with capRead := d.capRead || d.frozen }) (fun _ => rfl)
    (s := emit (.regRead (bar0 tile 0 .drcCapStatus) (readValue s (bar0 tile 0 .drcCapStatus))) s) (d := d) hfind
  refine ⟨_, congrArg Host.Outcome.next hrun, rfl, rfl, hself.trans ?_, hother⟩
  simp [hfrozen]

/-- Settles O14: a burst that the free engine takes is decoded on the state with the engine exchanged, and neither a decoding nor what a
freeze sets off reads or changes the engines. -/
theorem dramChannel : Obligations.DramChannel := by
  unfold Obligations.DramChannel
  refine ⟨drcEnable_next, dramStartStep_next, fun tile a beats d s hfind hready hfrozen hfree => ?_, fun tile a beats d s hfind => ⟨?_, ?_⟩,
    dramAlert_next, drcRestart_next, captureStatusRead_next⟩
  case refine_1 =>
    obtain ⟨E, hrun, honly⟩ := dramRequest_of_free (a := a) (beats := beats) hfind hready hfrozen hfree
    refine ⟨_, congrArg Host.Outcome.next hrun, fun hdec => clean_spec E hfind hready hfrozen hdec honly,
      fun hdec hnew => corrected_spec E hfind hready hfrozen hdec hnew honly,
      fun hdec => failed_spec E hfind hready hfrozen (hdec.imp id fun h => ⟨_, h⟩) honly.1.1⟩
  case refine_2 =>
    intro hon hready hfrozen hfree
    obtain ⟨E, hrun, honly⟩ := dramRequest_of_free (a := { a with cls := 10 }) (beats := beats) hfind hready hfrozen hfree
    obtain ⟨hsame, hkept⟩ := decodeBurst_engines (E := E) (a := { a with cls := 10 }) (beats := beats) hfind hready hfrozen hfree.1 honly.1.1
    have hscrub : (if s.tfld tile .drc_cfg_scrub_en == 1 && (reqsAt s tile .dram).isEmpty then
        decodeBurst tile { a with cls := 10 } beats s else s) = decodeBurst tile { a with cls := 10 } beats s :=
      if_pos (by simp [hon, hfree.1])
    refine ⟨_, congrArg Host.Outcome.next hscrub, _, congrArg Host.Outcome.next (hrun.trans hsame), ?_⟩
    rw [← hkept]
  case refine_3 =>
    intro hoff
    refine ⟨_, congrArg Host.Outcome.next (if_neg ?_), rfl⟩
    obtain h | h := hoff <;> simp [h]

end Sys2Proof.Machine
end
